-- ==== Sys2Proof/Word.lean ====
section
/-! DEFINITION. Word.lean: the word types of the IKD64 model and nothing else. A bit vector stands only for what the
manual treats as bits: register words, addresses while they are computed, four-state codes, counters it gives a width. -/
namespace Sys2Proof

/-- One byte (R8: the byte at the lowest address holds bits [7:0]). -/
abbrev Byte := BitVec 8

/-- One aligned 32-bit register word (R13, R605). -/
abbrev Word := BitVec 32

/-- A 64-bit quantity: step and user-cycle counters (R27), platform time (R569). -/
abbrev DWord := BitVec 64

/-- A 128-bit item: a BP instruction word (R83), a schedule-store chunk (R156), a mailbox item D0 to D3 (R616). -/
abbrev QWord := BitVec 128

/-- A four-state code, bit [1] the value plane and bit [0] the unknown plane (R65, R69). -/
abbrev Val := BitVec 2

end Sys2Proof
end

