-- ==== Sys2Proof/Syntax.lean ====
section
/-! DEFINITION. Syntax.lean: the commands of the IKD64. One constructor of `Instr` per row of spec/opcode_table.json;
the operands are what that row's rules take from outside the block: an instance number, a written word, or a physical
observation (a measured temperature, a partner's word, an upset that struck storage). -/
namespace Sys2Proof

/-- The two debug paths (R417). -/
inductive Path where
  | tap | host
  deriving DecidableEq, Repr

/-- Who issues a register access: it selects the mailbox context (R615) and the paths of R417, R537 and R579. -/
inductive Requester where
  /-- BAR0 access by the host. -/
  | hif
  /-- Control pair; `mmode` while it runs in M-mode. -/
  | control (mmode : Bool)
  /-- Security pair. -/
  | security
  /-- DBG access engine (host path) or DBGACC (TAP path). -/
  | dbg (p : Path)
  /-- Any other NoC master. -/
  | other
  deriving DecidableEq, Repr

/-- A physical upset of stored state (R589): the table has no row for one, so the commands that read storage carry the
upsets that struck since the last read. -/
inductive Upset where
  /-- Working copy `phrase` of clause `c` now holds `val` at entry `e`; it passes parity or fails it (R74, R76). -/
  | dictCopy (c phrase e : Nat) (val : Word) (passes : Bool)
  /-- A parity failure of a value-store entry (R68, R82). -/
  | valueStore (c bp e : Nat) (val : Val)
  /-- A parity failure of queue slot `slot` of BP `bp` (R78, R82). -/
  | commitQueue (c bp slot : Nat) (val : Val)
  /-- A correctable error at a schedule-store location of the array, spare row k being row 9216 + k (R179, R188). -/
  | schCorrectable (c row word : Nat)
  /-- An uncorrectable error at a schedule-store location (R181). -/
  | schUncorrectable (c row word : Nat)
  /-- A connection corrects a single-bit error on a lane, or on a check-bit wire (none) (R160, R161). -/
  | connCorrected (conn : Nat) (lane : Option Nat)
  /-- An uncorrectable error on a connection: the values are used as read, that is with these codes (R160). -/
  | connUncorrectable (conn : Nat) (asRead : List (Nat × Val))
  /-- A correctable error of a lexicon word or HBM burst, named by its 32-byte-aligned NoC address (R223). -/
  | memCorrectable (addr : Nat)
  /-- An uncorrectable error of a lexicon word or HBM burst (R223). -/
  | memUncorrectable (addr : Nat)
  /-- A correctable (false) or uncorrectable (true) error of one word of a rim frame (R353). -/
  | rimFrame (rfa word : Nat) (ue : Bool)
  /-- One of the three copies of a parameter register disagrees: 0 SCH_SCRUB, 1 SCH_ROWHOT, 2 RIM_SCRUB (R186, R355). -/
  | paramCopy (reg : Nat)
  deriving DecidableEq, Repr

/-- One superframe as it is received or sent (R240, R241): the header fields, the LITE retry word, the payload codes
(slot i of step s + k at index 8i + k), the control words and the CRC field. -/
structure Superframe where
  xt : BitVec 4
  idle : Bool
  credit : BitVec 8
  tag : BitVec 16
  nak : Bool
  naktag : BitVec 16
  payload : List Val
  ctl : List (BitVec 64)
  crc : BitVec 16
  /-- the SYNC field: 0xB4D2 in LITE (R240) -/
  sync : BitVec 16
  deriving DecidableEq, Repr

/-- A link in UP or ACTIVE as the discovery or the collection of R258 and R259 finds it: at each end the device, by its place
in the list of devices, of which the root stands first, and that device's physical link number. -/
structure TopoLink where
  a : Nat
  la : Nat
  b : Nat
  lb : Nat
  deriving DecidableEq, Repr

/-- What can feed an input of a routing multiplexer of the rim (R328 to R336, R344, R345, R376): another routing wire, named
by the row group and the multiplexer that drive it; a cell's outputs; a flip-flop; a block memory's read output and its CORR
or UNCORR; the input wire of a pin; the oldest outbound entry of a step-lane group, its tag, and the tag of the inbound
entry expected next; an output of a rim NoC port. -/
inductive RimSrc where
  | wire (u m : Nat)
  | outA (u k : Nat)
  | outB (u k : Nat)
  | ff (u f : Nat)
  | mem (k port bit : Nat)
  | memFlag (k port : Nat) (uncorr : Bool)
  | pin (b p : Nat)
  | entry (g bit : Nat)
  | entryTag (g bit : Nat)
  | inboundTag (g bit : Nat)
  | nocPort (p bit : Nat)
  deriving DecidableEq, Repr, Inhabited

/-- What a routing wire of the rim can reach (R329 to R331, R364): an input of a cell, the chain select of a row group, a
direct input, clock enable or reset of a flip-flop, the inputs of a block-memory port, and a pin's data and output enable. -/
inductive RimSink where
  | cell (u k i : Nat)
  | select (u i : Nat)
  | direct (u f : Nat)
  | enable (u f : Nat)
  | reset (u f : Nat)
  | memEnable (k port : Nat)
  | memAddr (k port bit : Nat)
  | memData (k port bit : Nat)
  | memWrite (k port group : Nat)
  | pinData (b p : Nat)
  | pinEnable (b p : Nat)
  deriving DecidableEq, Repr

/-- What one RISC-V instruction of a management core does to its core (R432, R447): the manual names the instruction
set and leaves its meaning to the standard, so the effect is an operand: registers, CSRs and privilege after it, pc, bytes
stored, and the reservation it leaves (granule and size). -/
structure CoreEffect where
  gpr : List (Nat × DWord)
  csr : List (Nat × DWord)
  priv : Nat
  pc : DWord
  stores : List (Nat × Byte)
  lr : Option (Nat × Nat)
  deriving DecidableEq, Repr

/-- One packet of the packet network, the header of R454 with its payload. -/
structure Packet where
  addr : Nat
  dst : Nat
  src : Nat
  sep : Nat
  tid : Nat
  cls : Nat
  age : Nat
  epoch : Bool
  e2e : Bool
  op : Nat
  status : Nat
  size : Nat
  payload : List Byte
  poison : Bool
  crcOk : Bool
  deriving DecidableEq, Repr

/-- What a hop or an endpoint observes of a packet's bits (R459, R460). -/
inductive HopError where
  | none | corrected | header | data
  deriving DecidableEq, Repr

/-- The kinds of PCIe reset (R482, R512). -/
inductive PcieReset where
  | conventional | hot | functionLevel
  deriving DecidableEq, Repr

/-- The device reset causes of R578. -/
inductive ResetCause where
  | power | brownout | thermtrip | software | root
  deriving DecidableEq, Repr

/-- The sparing triggers of R595 that firmware sees. -/
inductive SparingTrigger where
  | phrase (c phys : Nat)
  | row (c row : Nat)
  | lane (conn lane : Nat)
  | lexWord (bank word : Nat)
  | hbmPage (stack page : Nat)
  | linkLane (link lane : Nat)
  deriving DecidableEq, Repr

/-- The throttle request sources that step on a timer (R566). -/
inductive ThrottleSource where
  | thermal | power
  deriving DecidableEq, Repr

/-- Where a debug halt request comes from (R426, R441). -/
inductive HaltCause where
  | dbgRun (p : Path) | crossTrigger | brk
  deriving DecidableEq, Repr

/-- What the calibration scheduler requests (R572). -/
inductive CalKind where
  | hbmInterval | hbmTemp (stack : Nat) | linkRotation (link : Nat)
  deriving DecidableEq, Repr

/-- A checkpoint (R48): its body is written and read only by the device (R599), so its content is typed. Maps are sparse
lists as in Machine/Kv.lean. -/
structure Ckpt where
  base : Nat
  step : Nat
  ucyc : Nat
  gen : Nat
  twostate : Bool
  /-- value stores of the loaded clauses, key clause -/
  vs : List (Nat × List (Nat × Val))
  /-- received frames sent before the boundary, key link: first step and payload -/
  frames : List (Nat × List (Nat × List Val))
  /-- memory and rim returns issued before the boundary: master, due step, values -/
  rets : List (Nat × Nat × List Val)
  /-- rim step-lane values before the boundary: key lane group, step and value -/
  lanes : List (Nat × List (Nat × DWord))
  /-- the checkpointed memory regions: base, length -/
  regions : List (Nat × Nat)
  /-- their listed bytes -/
  mem : List (Nat × Byte)
  /-- trigger-unit state, key unit: STATE, CNT, DROP -/
  trig : List (Nat × List Nat)
  /-- CHECK state, key clause: dropped events since the last CLS_CHECK -/
  chk : List (Nat × Nat)
  /-- the 64-byte header of the body (R599) -/
  hdr : List Byte
  /-- outbound rim entries before the boundary: key lane group (R348) -/
  outs : List (Nat × List (Nat × DWord))
  /-- the keys under which the partition records are encrypted (R547) -/
  keys : List (Nat × Option (List Byte))
  deriving DecidableEq, Repr

/-- The commands of the block, one per row of the table. -/
inductive Instr where
  -- Step sequencer
  | stepExecute (ups : List Upset)
  | ellipsisEnd (ups : List Upset)
  | seqLongEllipsis
  | run
  | step1
  | ucyc1
  | stop
  | stopatEnable
  | checkpointComplete (ok : Bool) (failAddr : DWord)
  | seqTmr (mask : Word)
  -- Clauses
  | dictSweepRead (c phrase e : Nat) (ups : List Upset)
  | dictUeRewrite (c e : Nat)
  | clsSpareGo (c target : Nat)
  | migrationComplete (c mismatches cycles : Nat)
  | spareMarchPass (c : Nat) (passed : Bool)
  -- User memory
  | lexAccessServe (bank : Nat) (ups : List Upset)
  | lexNocServe (bank : Nat) (ups : List Upset)
  | memNocStarve (k : Nat)
  | memReturnArrive (m : Nat)
  | hbmReturn (m : Nat) (ups : List Upset)
  | hbmRefresh (stack : Nat) (allBank : Bool)
  | hbmTempRead (stack : Nat) (temp : Byte)
  | memCalGo (mask : BitVec 4)
  | calSliceEnd (stack : Nat) (ok : Bool) (lanes ns : Nat)
  | memLretGo (bank word : Nat)
  | lretComplete (mismatches : Nat)
  | memHretGo (stack : Nat)
  | hretComplete (mismatches : Nat)
  -- Signal fabric
  | fabIsoRequest (c : Nat) (xinj : Bool)
  | fabRelRequest (c : Nat)
  | isoBoundaryApply
  | fabAgreeCommit (tag : Byte)
  -- Schedule store
  | readRepairWriteback (c row word : Nat)
  | scrubRowRead (c : Nat) (ups : List Upset)
  | paramCheck (rim : Bool) (struck : Option (Nat × Nat))
  | schParam
  | schRmapGo (c row : Nat)
  | rmapComplete (mismatches : Nat)
  | schPatchApply
  | patchBoundaryHold
  | patchHoldEnd
  -- Links
  | idleSuperframeSend (l : Nat)
  | superframeReceive (l : Nat) (sf : Superframe) (fecFix : Nat) (fecUe : Option Nat)
  | retryTimeout (l : Nat)
  | resumeWordReceive (l : Nat) (tag : BitVec 16)
  | fenceWordReceive (l : Nat) (dev : BitVec 18) (fence : DWord)
  | peerItemReceive (l item : Nat) (val : Word)
  | laneWordReceive (l op lane : Nat)
  | msgWordReceive (l : Nat) (msg : BitVec 60)
  | peerRepeat (l : Nat)
  | lnkEnable (l : Nat)
  | lnkDisable (l : Nat)
  | trainComplete (l : Nat) (lanes : BitVec 3)
  | trainTimeout (l : Nat)
  | framingLock (l trip decode : Nat)
  | partnerModeDetect (l : Nat)
  | modeRetry (l : Nat)
  | modeWindowClose (l : Nat)
  | identComplete (l : Nat) (serial : DWord) (plink : Nat)
  | framingLost (l : Nat)
  | resumeComplete (l : Nat) (tag : BitVec 16)
  | resumeTimeout (l : Nat)
  | partnerOffReport (l : Nat)
  | lnkSpareGo (l lane : Nat)
  | laneLoss (l lane : Nat)
  | laneSpareComplete (l : Nat) (accepted : Bool)
  | spareLaneTrained (l : Nat)
  | spareRetrainTimer (l : Nat)
  | eyeScan (l lane height width : Nat)
  | lnkDevnumStart
  | lnkTopo (self base : Nat) (renumber : Bool) (nums : List Nat) (links : List TopoLink)
  | devnumWrite (w : Word)
  -- Rim
  | rimPllUnlock (p : Nat)
  | rimPllRelock (p : Nat)
  | rimOnehot (rfa mux : Nat)
  | rimOutboundRead (g : Nat)
  | rimInboundWrite (g : Nat) (entry : DWord)
  | rimPrcFence (region : Nat)
  | rimPrcRel (region : Nat)
  | rimFrameScrub (ups : List Upset)
  | rimParam
  | rimPortRequest (port : Nat) (write : Bool) (addr size tag : Nat) (data : List Byte)
  | vccioGood (b mv strap : Nat)
  | vccioLost (b mv : Nat)
  | rimRel (b : Nat)
  | rimDis (b : Nat)
  | bankCheckComplete (b : Nat) (key : BitVec 2) (openMask : BitVec 48)
  | keySample (b : Nat) (key : BitVec 2)
  | rimIoShort (b pin : Nat) (level : Bool)
  -- Capture and triggers
  | sigStart
  | sigStop
  | sigPostEnd
  | captureDrain
  | capOverflow (mt : Bool)
  | mtStart
  | mtStop
  | tuEnable (u : Nat) (w : Word)
  | tuDisable (u : Nat)
  | tuRegWrite (u off : Nat) (w : Word)
  | pinCrossing (bank pin : Nat) (hi up : Bool) (mv fine : Nat)
  | triggerFire (u : Nat) (ticks : Nat)
  | holdoffEnd (u : Nat)
  -- Debug
  | dbgAuthPassword (p : Path) (level : Nat)
  | dbgAuthKeyx (p : Path) (level : Nat)
  | keyxTimeout
  | dbgAuthDrop (p : Path)
  | dbgAccessRead
  | dbgAccessWrite
  | read (p : Path) (c bp : Nat) (bank : Bool) (entry : Nat)
  | deposit (p : Path) (c bp : Nat) (bank : Bool) (entry : Nat) (v : Val)
  | force (p : Path) (c bp : Nat) (bank : Bool) (entry : Nat) (v : Val)
  | release (p : Path) (c bp : Nat) (bank : Bool) (entry : Nat)
  | cqread (p : Path) (c bp slot : Nat)
  | relall (p : Path)
  | arrDeferredStart
  | dbgHalt (cause : HaltCause)
  | dbgResume (p : Path)
  | dbgStep (p : Path) (ups : List Upset)
  | pairHalt (pair : Nat) (cause : HaltCause)
  | pairHaltComplete (pair priv : Nat) (pc : DWord) (lr : Option (Nat × Nat))
  | pairResume (p : Path) (pair : Nat)
  | pairStep (p : Path) (pair : Nat) (eff : CoreEffect)
  | xtrigIn (ch : Nat)
  | testLogicReset
  | extest
  | samplePreload
  | idcode
  | dbgacc (write : Bool) (addr : Nat) (data : Word)
  | bypass (code : Byte)
  -- Packet network
  | nocPacketForward (router port : Nat) (err : HopError)
  | ageIncrement (router : Nat)
  | nocPacketReceive (router : Nat) (err : HopError)
  | nocTimeout (k : Nat)
  | nocRtFlip
  | oldEpochDrained
  | nocAgreeCommit (tag : Byte)
  | dlmodeSwitch (row : Nat)
  -- Host interface
  | bar2Read (off size : Nat)
  | bar2Write (off : Nat) (data : List Byte)
  | eventDoorbell (r : Nat) (w : Word)
  | dmaDoorbell (c : Nat) (w : Word)
  | pcieReset (kind : PcieReset)
  | dmaEnable (c : Nat) (w : Word)
  | dmaDisable (c : Nat) (w : Word)
  | dmaDescComplete (c : Nat) (desc : List Byte) (data : List Byte)
  | hifDmaErr (c err status : Nat)
  | eventAccept (k : Nat)
  | eventRingWrite
  | msixCoalesceExpire (r : Nat)
  | ringFullResignal
  | eventRingEnable (r : Nat) (w : Word)
  -- Management
  | mgtLockstep (pair : Nat) (pc : DWord)
  | pairRestartComplete (pair : Nat)
  | mgtWdtEnable (pair : Nat) (timeout : BitVec 24)
  | wdtKick (pair : Nat) (key : BitVec 16)
  | mgtWdt (pair : Nat)
  | program (req : Requester)
  | erase4k (req : Requester)
  | erase64k (req : Requester)
  | flashCmdComplete (ok : Bool)
  | mgtFpApply
  | codebaseWrite (req : Requester) (w : Word)
  | swapOk
  | swapTimeout
  -- Services
  | load (slot : Nat) (placement : List Byte)
  | fwUpdate (slot : Nat) (stream : List Byte)
  | fwSwap (slot : Nat)
  | fwHotfix (slot : Nat) (stream : List Byte)
  | patchSet (slot : Nat)
  | logRead (slot : Nat)
  | info (slot : Nat)
  | restore (slot : Nat) (crcOk writeOk : Bool) (host : Option Ckpt)
  | attest (slot : Nat) (nonce : List Byte)
  | loadBegin
  | frameReceive (bytes : List Byte) (readOk : Bool)
  | reloadBoundaryHold
  | bootTimeout
  | bootOk
  -- Security
  | tokenLoad (slot : Nat)
  | tokenUnload (slot : Nat)
  | fuseProgram (req : Requester) (word : Nat) (readBackOk : Bool)
  -- Platform
  | oppWrite (code : Nat)
  | oppSettle
  | sscWrite (on : Bool)
  | thrminWrite (level : BitVec 4)
  | rootPllFail (kind : Nat)
  | swreq
  | switchoverComplete
  | rootRetrain (passed : Bool)
  | sensorSample (temps : List (BitVec 16))
  | throttleUpdate (src : ThrottleSource) (powerW : Nat)
  | droopDetect (monitor mv : Nat)
  | thermtrip (sensor : Nat)
  | pltAvs (kind measured : Nat)
  | agingCheck (counts : List Word)
  | ppsLoad
  | ppsEdge
  | ppsMissing
  | calSchedule (kind : CalKind)
  | pgreqGate (domain : Nat)
  | pgreqPower (domain : Nat)
  | domainReady (domain : Nat)
  | pltRstKey (req : Requester) (key : BitVec 16)
  | deviceReset (cause : ResetCause)
  | rootLock
  | hbmTrainComplete (stack : Nat)
  | smbTmax
  | smbThrottle
  | smbRstcause
  | smbAlertStatus
  | smbVddStepMv
  | smbVddStepPower
  -- Faults and service life
  | sparingDecision (t : SparingTrigger)
  | lifeRecord (hours avg : DWord)
  -- Register interface
  | mbxItemRead (req : Requester) (page item : Nat) (tag : Byte)
  | mbxItemWrite (req : Requester) (page item : Nat) (tag : Byte)
  | bitAliasWrite (req : Requester) (addr : Nat) (w : Word)
  | registerWrite (req : Requester) (addr size : Nat) (w : DWord)
  | registerRead (req : Requester) (addr size : Nat)
  -- Rows added to the table later
  | hifLink (speed width : Nat) (flit dlup : Bool)
  | busMasterEnable (on : Bool)
  | standbyRootFail (kind : Nat)
  | droopRelease
  | avsDeviationClear
  | porstNRelease
  | mgtSramScrub (addr : Nat) (ue : Bool)
  deriving DecidableEq, Repr

end Sys2Proof
end

