-- ==== Sys2Proof/Decode.lean ====
section
/-! DEFINITION. Decode.lean: commands spelled by words. The rows of spec/opcode_table.json give no bits: a command of this block
has no encoding. -/
namespace Sys2Proof

/-- The command that a word spells by the table's bits: none (log 3). -/
def decodeTableWord (_nbits _w : Nat) : Option Instr := none

end Sys2Proof
end

