-- ==== Sys2Proof/Machine/Bits.lean ====
section
/-! DEFINITION. Bits.lean: bit fields, byte order, powers of two and the two CRCs of the manual. -/
namespace Sys2Proof.Machine

/-- Bits [lo + len - 1 : lo] of a number. -/
def nbits (w lo len : Nat) : Nat := (w >>> lo) % 2 ^ len

/-- Bit k of a number. -/
def nbit (w k : Nat) : Bool := (w >>> k) % 2 == 1

/-- Bits [lo + len - 1 : lo] of a word, as a number. -/
def fieldOf {n : Nat} (w : BitVec n) (lo len : Nat) : Nat := nbits w.toNat lo len

/-- A number with bits [lo + len - 1 : lo] replaced. -/
def putBits (w lo len v : Nat) : Nat :=
  w % 2 ^ lo + (v % 2 ^ len) * 2 ^ lo + (w >>> (lo + len)) * 2 ^ (lo + len)

/-- Bit k of a number set to a value. -/
def putBit (w k : Nat) (b : Bool) : Nat := putBits w k 1 b.toNat

/-- The n bytes of a number, little-endian (R8). -/
def leBytes : Nat → Nat → List Byte
  | 0, _ => []
  | n + 1, w => BitVec.ofNat 8 w :: leBytes n (w / 256)

/-- The number that bytes hold, little-endian (R8). -/
def ofLe : List Byte → Nat
  | [] => 0
  | b :: t => b.toNat + 256 * ofLe t

/-- Bytes o to o + n - 1 of a list, as a little-endian number; a byte beyond its end counts as 0. -/
def leAt (bs : List Byte) (o n : Nat) : Nat := ofLe ((bs.drop o).take n)

/-- The bytes of a list are all zero. -/
def allZero (bs : List Byte) : Bool := bs.all fun b => b == 0

/-- A positive power of two (the counts at which R161, R205, R223, R270 and R353 raise). -/
def isPow2 (n : Nat) : Bool := decide (0 < n) && decide (2 ^ Nat.log2 n = n)

/-- n plus one, saturating at 2^w - 1. -/
def satSucc (w n : Nat) : Nat := if n + 1 < 2 ^ w then n + 1 else 2 ^ w - 1

/-- One bit of CRC-32C, reflected polynomial 0x82F63B78. -/
def crc32cBit (c : BitVec 32) : BitVec 32 := if c.getLsbD 0 then (c >>> 1) ^^^ 0x82F63B78#32 else c >>> 1

/-- One byte of CRC-32C. -/
def crc32cByte (c : BitVec 32) (b : Byte) : BitVec 32 :=
  (List.range 8).foldl (fun c _ => crc32cBit c) (c ^^^ b.setWidth 32)

/-- CRC-32C of bytes (R49, R294, R318, R597). PRESUMED (log 7): the Castagnoli CRC, initial value and final inversion all
ones; the manual names it and does not define it. -/
def crc32c (bs : List Byte) : BitVec 32 := ~~~ (bs.foldl crc32cByte 0xFFFFFFFF#32)

/-- One bit of the CRC-16 of R239: polynomial x^16 + x^12 + x^5 + 1. -/
def crc16Bit (c : BitVec 16) (b : Bool) : BitVec 16 :=
  if c.getLsbD 15 != b then (c <<< 1) ^^^ 0x1021#16 else c <<< 1

/-- The CRC-16 of R239 over bits in stream order, initial value 0xFFFF. -/
def crc16 (bits : List Bool) : BitVec 16 := bits.foldl crc16Bit 0xFFFF#16

/-- The n bits of a number in stream order, least significant first (R240). -/
def bitsLsb (n w : Nat) : List Bool := (List.range n).map (nbit w ·)

/-- The numbers below n at which a mask has a 1. -/
def maskBits (n m : Nat) : List Nat := (List.range n).filter (nbit m ·)

/-- The mask with a 1 at every number of a list below n that satisfies a test. -/
def maskOf (n : Nat) (p : Nat → Bool) : Nat := (List.range n).foldl (fun m k => m + (p k).toNat * 2 ^ k) 0

end Sys2Proof.Machine
end

