-- ==== Sys2Proof/Machine/Operands.lean ====
section
/-! DEFINITION. Operands.lean: the fields of an instruction word and the four-state functions that its opcode evaluates
(R65, R69 to R73, R83, R97 to R102). -/
namespace Sys2Proof.Machine

/-- The four codes of R69. -/
def v0 : Val := 0b00#2
def v1 : Val := 0b10#2
def vX : Val := 0b01#2
def vZ : Val := 0b11#2

/-- What an undriven or freshly loaded value is: X, or 0 in TWOSTATE (R64, R67). -/
def dfl (two : Bool) : Val := if two then v0 else vX

/-- Known means 0 or 1 (R71). -/
def known (v : Val) : Bool := !v.getLsbD 0

/-- A Boolean as a code. -/
def ofBool (b : Bool) : Val := if b then v1 else v0

/-- The fields of an instruction word (R83). -/
structure BpWord where
  opc : Nat
  fn : Nat
  sa : Nat
  sb : Nat
  sc : Nat
  sd : Nat
  se : Nat
  dst : Nat
  bc : Bool
  we : Bool
  c0src : Nat
  c0dst : Nat
  c1src : Nat
  c1dst : Nat
  fx : Nat
  tag : Nat
  bnk : Nat
  deriving DecidableEq, Repr

/-- The fields of a word, by the bit positions of R83. -/
def bpWord (w : QWord) : BpWord where
  opc := fieldOf w 124 4
  fn := fieldOf w 114 10
  sa := fieldOf w 106 8
  sb := fieldOf w 98 8
  sc := fieldOf w 90 8
  sd := fieldOf w 82 8
  se := fieldOf w 74 8
  dst := fieldOf w 66 8
  bc := w.getLsbD 65
  we := w.getLsbD 64
  c0src := fieldOf w 52 12
  c0dst := fieldOf w 44 8
  c1src := fieldOf w 32 12
  c1dst := fieldOf w 24 8
  fx := fieldOf w 16 8
  tag := fieldOf w 8 8
  bnk := fieldOf w 0 8

/-- The operand addresses SA to SE in order. -/
def BpWord.src (w : BpWord) : List Nat := [w.sa, w.sb, w.sc, w.sd, w.se]

/-- The logical entry that field k of the word names: address and, in TWOSTATE, bank bit k of BNK (R65, R86). -/
def entryOf (two : Bool) (w : BpWord) (k a : Nat) : Nat := if two && nbit w.bnk k then 256 + a else a

/-- The operand fields that an opcode reads, SA to SE as 0 to 4 (R90, R97, R100). -/
def readsOf (w : BpWord) : List Nat :=
  match w.opc with
  | 0x1 | 0x2 | 0x5 => [0, 1, 2, 3, 4]
  | 0x3 => (List.range 5).filter fun k => nbit w.fn (3 + k) || (k == 4 && w.fn % 8 == 5)
  | 0x4 => [0, 1, 2] ++ (if nbit w.fn 1 then [3] else []) ++ (if nbit w.fn 3 then [4] else [])
  | 0x6 | 0x7 | 0x8 | 0xA | 0xC | 0xD => [0]
  | _ => []

/-- An index agrees with every known operand (R71). -/
def completes (ops : List Val) (i : Nat) : Bool :=
  (List.range 5).all fun k => !known (ops.getD k vX) || ((ops.getD k vX).getLsbD 1 == nbit i k)

/-- Exact evaluation of a function of the index (R71). -/
def evalExactFn (f : Nat → Bool) (ops : List Val) : Val :=
  let c := (List.range 32).filter (completes ops)
  if c.all f then v1 else if c.all fun i => !f i then v0 else vX

/-- The truth-table index of known operands (R70). -/
def indexOf (ops : List Val) : Nat := maskOf 5 fun k => (ops.getD k vX).getLsbD 1

/-- EVAL of a truth table in FOURSTATE (R71). -/
def evalExact (t : Word) (ops : List Val) : Val := evalExactFn (fun i => t.getLsbD i) ops

/-- Input k is in the support of a truth table (R72). -/
def inSupport (t : Word) (k : Nat) : Bool :=
  (List.range 32).any fun i => t.getLsbD i != t.getLsbD (i ^^^ 2 ^ k)

/-- EVALF of a truth table in FOURSTATE (R72). -/
def evalPess (t : Word) (ops : List Val) : Val :=
  if (List.range 5).any fun k => inSupport t k && !known (ops.getD k vX) then vX
  else ofBool (t.getLsbD (indexOf ops))

/-- EVAL and EVALF in TWOSTATE (R73). -/
def evalTwo (t : Word) (ops : List Val) : Val := ofBool (t.getLsbD (indexOf ops))

/-- The latch function over an index whose bits are D, G, Q, S, R (R97, R98). -/
def latchFn (fn i : Nat) : Bool :=
  let rAct := nbit fn 3 && (nbit i 4 != nbit fn 4)
  let sAct := nbit fn 1 && (nbit i 3 != nbit fn 2)
  let open_ := nbit i 1 != nbit fn 0
  if rAct && (!nbit fn 5 || !sAct) then false
  else if sAct then true
  else if open_ then nbit i 0
  else nbit i 2

/-- LATCH (R98). -/
def evalLatch (two : Bool) (fn : Nat) (ops : List Val) : Val :=
  if two then ofBool (latchFn fn (indexOf ops)) else evalExactFn (latchFn fn) ops

/-- The wire rule W over the drivers that are not Z, none of which the list is empty of (R100). -/
def wire (ds : List Val) : Val :=
  if ds.any (· == vX) then vX
  else if ds.any (· == v0) && ds.any (· == v1) then vX
  else ds.headD vZ

/-- RESOLVE over its five operands (R100, R101). -/
def resolve (fn : Nat) (ops : List Val) : Val :=
  let op k := ops.getD k vX
  let ds := ((List.range 5).filter fun k => nbit fn (3 + k)).map op |>.filter (· != vZ)
  let buf (en : Val) (d : Val) : Val :=
    if en == v0 then vZ else if en == v1 then (if d == vZ then vX else d) else vX
  match fn % 8 with
  | 0 => if ds.isEmpty then vZ else wire ds
  | 1 => if ds.isEmpty then vZ else if ds.any (· == v0) then v0 else if ds.any (· == vX) then vX else v1
  | 2 => if ds.isEmpty then vZ else if ds.any (· == v1) then v1 else if ds.any (· == vX) then vX else v0
  | 3 => if ds.isEmpty then v0 else wire ds
  | 4 => if ds.isEmpty then v1 else wire ds
  | 5 => if ds.isEmpty then (if op 4 == vZ then vX else op 4) else wire ds
  | 6 => buf (op 0) (op 1)
  | _ => buf (if op 0 == v0 then v1 else if op 0 == v1 then v0 else op 0) (op 1)

/-- The memory-element stride in bytes of W values (R209): the smallest power of two that holds the element's bits. -/
def elemStride (two : Bool) (w : Nat) : Nat :=
  let b := if two then w else 2 * w
  if b ≤ 8 then 1 else if b ≤ 16 then 2 else if b ≤ 32 then 4 else if b ≤ 64 then 8 else if b ≤ 128 then 16 else 32

/-- The bytes of an element that holds the given values; the bits above them are 0 (R209). -/
def elemBytes (two : Bool) (w : Nat) (vals : List Val) : List Byte :=
  let n := if two
    then maskOf w fun j => (vals.getD j v0).getLsbD 1
    else (List.range w).foldl (fun m j => m + (vals.getD j vX).toNat * 4 ^ j) 0
  leBytes (elemStride two w) n

/-- The 128 values of a return: the element's W values, then X, or 0 in TWOSTATE (R107, R209). -/
def elemVals (two : Bool) (w : Nat) (bs : List Byte) : List Val :=
  let n := ofLe bs
  (List.range 128).map fun j =>
    if w ≤ j then dfl two
    else if two then ofBool (nbit n j)
    else BitVec.ofNat 2 (n / 4 ^ j)

end Sys2Proof.Machine
end

