-- ==== Sys2Proof/Config.lean ====
section
/-! DEFINITION. Config.lean: what an implementation fixes and what the manual leaves open, as opaque constants: no
proof can see a value of theirs, so a statement holds whatever they are. Each is named in the assumption log. -/
namespace Sys2Proof.Config

/-- A free value: the n-th value the manual leaves open (log 4). Applied to the counter `State.free`. -/
opaque freeWord : Nat → BitVec 128

/-- The content of management ROM (R515): the manual gives its place and not its bytes (log 6). -/
opaque romByte : Nat → Byte

/-- The golden image as the factory wrote it (R317): the manual gives its place and not its bytes (log 6). -/
opaque goldenByte : Nat → Byte

/-- SM3 of GB/T 32905 (R259, R301, R305, R421, R538): a published standard whose function the manual only names (log 5). -/
opaque sm3 : List Byte → BitVec 256

/-- SM2 signature verification of GB/T 32918 (R305, R539): public key bytes, message, signature bytes (log 5). -/
opaque sm2Verify : List Byte → List Byte → List Byte → Bool

/-- SM2 signing with the identity key derived from a seed (R538, R548): seed, message (log 5). -/
opaque sm2Sign : List Byte → List Byte → List Byte

/-- The identity public key derived from DEVSEED (R538): d times G on the SM2 curve (log 5). -/
opaque sm2Public : List Byte → List Byte

/-- SM2 decryption of a token's KEYBLOB to the identity of a seed (R543, R545): none where it fails (log 5). -/
opaque sm2Decrypt : List Byte → List Byte → Option (List Byte)

/-- SM2 key exchange of R422, responder side: seed, certificate, host ephemeral key, a fresh nonce; the answer is the
device's ephemeral public key, S_B and the S_A it expects (log 5). -/
opaque sm2Exchange : List Byte → List Byte → List Byte → Nat → List Byte × List Byte × List Byte

/-- SM4-GCM (R305, R547): the plaintext of a ciphertext under key and IV, and the tag over key, IV, additional authenticated data
and ciphertext (log 5). -/
opaque sm4Ctr : List Byte → List Byte → List Byte → List Byte
opaque sm4Tag : List Byte → List Byte → List Byte → List Byte → List Byte

/-- Byte k of the checkpoint body that holds a content, from byte 64 on (R49, R599: only the device reads or writes it there):
the manual gives it no layout (log 9). -/
opaque ckptByte : Ckpt → Nat → Byte

/-- The bytes of the checkpoint body of an image after its 64-byte header (R49, R58 CKPT_SIZE, R599): the manual gives them no
number (log 9). Applied to the image generation. -/
opaque ckptLen : Nat → Nat

/-- The 300 parity bits of the RS(544,514) codeword of a 5,140-bit message block (R239): the generator polynomial and the
symbol order are IEEE 802.3's, which the manual only names (log 60). -/
opaque rsParity : List Bool → List Bool

/-- The content of a link's scrambler when its lanes start (R238): the manual gives none (log 60). -/
opaque scramblerStart : Nat → BitVec 58

/-- The rim routing graph (R336), issued with the device and not in the manual: what feeds input k of multiplexer m of row group
u, and the wire, by row group and multiplexer, that reaches an input (log 62). -/
opaque rimFeed : Nat → Nat → Nat → RimSrc
opaque rimReach : RimSink → Nat × Nat

/-- The value of a routing wire in a combinational loop (log 62). -/
opaque rimLoop : RimSrc → Bool

/-- An output of a rim NoC port toward the routing, at a time: its requests and responses are commands (log 62). -/
opaque rimPortOut : Nat → Nat → Nat → Bool

/-- The read output of a block-memory port before its first read (log 62). -/
opaque rimMemStart : Nat → Nat → Nat

/-- What a content bit holds, or a read returns, when ports on different trees touch it in one cycle (R333): true for port A's
value or the new one (log 62). Applied to memory, content bit and time. -/
opaque rimRace : Nat → Nat → Nat → Bool

/-- The eight SECDED check bits over 64 bits that a block memory in ECC mode generates (R333): the manual does not give the code
(log 62). -/
opaque rimEcc : Nat → Nat

/-- The level on a rim pin before it first crosses a threshold, and what a boundary-scan cell holds during EXTEST, at a time:
none where it does not drive (R439; the scan order is the BSDL file's) (log 63). -/
opaque padStart : Nat → Nat → Bool
opaque scanCell : Nat → Nat → Nat → Option Bool

/-- The factory row mappings of a slice: row and spare row (R188). A fact of the part, at most 128 of them (`factoryRows`). -/
opaque rowRepairs : Nat → List (Nat × Nat)

/-- The factory count of an aging ring (R564): a fact of the part. -/
opaque ageFactory : Nat → Nat

/-- The calibration records that lie in their flash range, each with its commit word as its last four bytes (R573): the manual
gives their place and not their layout (log 64). -/
opaque calSplit : List Byte → List (List Byte)

/-- The VDD_STEP target of an operating point in mV that valid calibration records give (R563, R573), none where they give
none (log 64). -/
opaque avsOf : List (List Byte) → Nat → Option Nat

/-- At a time a stored calibration value has changed by more than its record's tolerance (R573), and the place and the body of the
record that is then written (log 64). -/
opaque calChanged : Nat → Bool
opaque calPlace : Nat → Nat
opaque calBody : Nat → List Byte

/-- The flash device supports 8D-8D-8D, as its SFDP table says (R516): a fact of the board. -/
opaque flash8D : Bool

/-- The manufacturer identity in IDCODE (R438): the BSDL file issued with the device gives it. -/
opaque manufacturer : BitVec 11

end Sys2Proof.Config
end

