-- ==== Sys2Proof/Machine/Kv.lean ====
section
/-! DEFINITION. Kv.lean: sparse maps from a number to a value, as lists in one canonical form: keys strictly rising and
no entry equal to the default, which is what an unlisted key reads as. Memory, value stores, register fields and the
instances of a block are all held in this form, so equal contents are equal data. -/
namespace Sys2Proof.Machine

/-- The value at key `k`: the first entry of that key, or the default. -/
def kvGet {α : Type} (d : α) : List (Nat × α) → Nat → α
  | [], _ => d
  | (a, v) :: t, k => if a = k then v else kvGet d t k

/-- The map with every entry of key `k` removed. -/
def kvErase {α : Type} : List (Nat × α) → Nat → List (Nat × α)
  | [], _ => []
  | (a, v) :: t, k => if a = k then kvErase t k else (a, v) :: kvErase t k

/-- The map with `(k, v)` put at its place in rising order. -/
def kvInsert {α : Type} : List (Nat × α) → Nat → α → List (Nat × α)
  | [], k, v => [(k, v)]
  | (a, w) :: t, k, v =>
    if k < a then (k, v) :: (a, w) :: t
    else if a = k then (k, v) :: t
    else (a, w) :: kvInsert t k v

/-- The map with key `k` holding `v`; writing the default removes the entry. -/
def kvSet {α : Type} [DecidableEq α] (d : α) (m : List (Nat × α)) (k : Nat) (v : α) : List (Nat × α) :=
  if v = d then kvErase m k else kvInsert m k v

/-- The map with `f` applied to the value at `k`. -/
def kvMod {α : Type} [DecidableEq α] (d : α) (m : List (Nat × α)) (k : Nat) (f : α → α) : List (Nat × α) :=
  kvSet d m k (f (kvGet d m k))

/-- The map with the writes of a list made in order. -/
def kvSetAll {α : Type} [DecidableEq α] (d : α) (m : List (Nat × α)) (ws : List (Nat × α)) : List (Nat × α) :=
  ws.foldl (fun m w => kvSet d m w.1 w.2) m

/-- The map without the keys from `lo` to below `hi`. -/
def kvDrop {α : Type} (m : List (Nat × α)) (lo hi : Nat) : List (Nat × α) :=
  m.filter fun e => !(decide (lo ≤ e.1) && decide (e.1 < hi))

/-- The canonical form above a bound: keys strictly rising from `lo`, no entry equal to the default. -/
def kvWfFrom {α : Type} [DecidableEq α] (d : α) : Nat → List (Nat × α) → Bool
  | _, [] => true
  | lo, (a, v) :: t => decide (lo ≤ a) && decide (v ≠ d) && kvWfFrom d (a + 1) t

/-- The canonical form of a sparse map. -/
def kvWf {α : Type} [DecidableEq α] (d : α) (m : List (Nat × α)) : Bool := kvWfFrom d 0 m

end Sys2Proof.Machine
end

