-- ==== Sys2Proof/Machine/RegTable.lean ====
section
/-! DEFINITION. RegTable.lean: the register map of the device, row by row as the register tables of the manual give it
(R17, R140 to R145, R168 to R173, R196 to R203, R229 to R235, R265 to R270, R322 to R324, R356 to R359, R381, R382, R408 to R414,
R440 to R448, R472 to R478, R504 to R510, R529 to R533, R551 to R553, R582 to R586, R610, R611, R54 to R57). A field is
named by the BAR0 offset of its register and its lowest bit; a register of a block with many instances takes the
instance number (taken modulo the number of instances, so that a name never leaves its block). A reset column that reads
fuse, per block, per page or per clause stands as 0 here: such a field is shown from the state that holds it
(Machine/RegIf.lean). -/
namespace Sys2Proof.Machine

/-- A field of a register: BAR0 offset, lowest bit, width and reset value. -/
structure Fld where
  addr : Nat
  lo : Nat
  width : Nat
  reset : Nat
  deriving DecidableEq, Repr

/-- The key under which the state holds a field. -/
def Fld.key (f : Fld) : Nat := f.addr * 32 + f.lo

/-- The access codes of R9 that the register tables use. -/
inductive Acc where
  | ro | rw | wo | w1c | w1s | rsv
  deriving DecidableEq, Repr

/-- A field row of a register table. -/
structure FRow where
  hi : Nat
  lo : Nat
  acc : Acc
  reset : Nat
  deriving DecidableEq, Repr

/-- A register row: name, BAR0 offset of instance 0, the number of instances and their stride (twice over for the
port counters of a clause page), and its fields. -/
structure RRow where
  name : String
  base : Nat
  cnt : Nat
  stride : Nat
  cnt2 : Nat
  stride2 : Nat
  fields : List FRow
  deriving DecidableEq, Repr

namespace F

def PLT_ID_INDEX : Fld := ⟨0x0, 24, 8, 0⟩
def PLT_ID_INST : Fld := ⟨0x0, 16, 8, 0⟩
def PLT_ID_VERSION : Fld := ⟨0x0, 0, 4, 0⟩
def SEC_ID_INDEX : Fld := ⟨0x100000, 24, 8, 0⟩
def SEC_ID_INST : Fld := ⟨0x100000, 16, 8, 0⟩
def SEC_ID_VERSION : Fld := ⟨0x100000, 0, 4, 0⟩
def MGT_ID_INDEX : Fld := ⟨0x200000, 24, 8, 0⟩
def MGT_ID_INST : Fld := ⟨0x200000, 16, 8, 0⟩
def MGT_ID_VERSION : Fld := ⟨0x200000, 0, 4, 0⟩
def HIF_ID_INDEX : Fld := ⟨0x300000, 24, 8, 0⟩
def HIF_ID_INST : Fld := ⟨0x300000, 16, 8, 0⟩
def HIF_ID_VERSION : Fld := ⟨0x300000, 0, 4, 0⟩
def NOC_ID_INDEX : Fld := ⟨0x400000, 24, 8, 0⟩
def NOC_ID_INST : Fld := ⟨0x400000, 16, 8, 0⟩
def NOC_ID_VERSION : Fld := ⟨0x400000, 0, 4, 0⟩
def SEQ_ID_INDEX : Fld := ⟨0x500000, 24, 8, 0⟩
def SEQ_ID_INST : Fld := ⟨0x500000, 16, 8, 0⟩
def SEQ_ID_VERSION : Fld := ⟨0x500000, 0, 4, 0⟩
def SCH_ID_INDEX : Fld := ⟨0x600000, 24, 8, 0⟩
def SCH_ID_INST : Fld := ⟨0x600000, 16, 8, 0⟩
def SCH_ID_VERSION : Fld := ⟨0x600000, 0, 4, 0⟩
def CLS_ID_INDEX : Fld := ⟨0x800000, 24, 8, 0⟩
def CLS_ID_INST : Fld := ⟨0x800000, 16, 8, 0⟩
def CLS_ID_VERSION : Fld := ⟨0x800000, 0, 4, 0⟩
def FAB_ID_INDEX : Fld := ⟨0xd00000, 24, 8, 0⟩
def FAB_ID_INST : Fld := ⟨0xd00000, 16, 8, 0⟩
def FAB_ID_VERSION : Fld := ⟨0xd00000, 0, 4, 0⟩
def LNK_ID_INDEX : Fld := ⟨0xe00000, 24, 8, 0⟩
def LNK_ID_INST : Fld := ⟨0xe00000, 16, 8, 0⟩
def LNK_ID_VERSION : Fld := ⟨0xe00000, 0, 4, 0⟩
def MEM_ID_INDEX : Fld := ⟨0xf00000, 24, 8, 0⟩
def MEM_ID_INST : Fld := ⟨0xf00000, 16, 8, 0⟩
def MEM_ID_VERSION : Fld := ⟨0xf00000, 0, 4, 0⟩
def RIM_ID_INDEX : Fld := ⟨0x1000000, 24, 8, 0⟩
def RIM_ID_INST : Fld := ⟨0x1000000, 16, 8, 0⟩
def RIM_ID_VERSION : Fld := ⟨0x1000000, 0, 4, 0⟩
def CAP_ID_INDEX : Fld := ⟨0x1100000, 24, 8, 0⟩
def CAP_ID_INST : Fld := ⟨0x1100000, 16, 8, 0⟩
def CAP_ID_VERSION : Fld := ⟨0x1100000, 0, 4, 0⟩
def DBG_ID_INDEX : Fld := ⟨0x1200000, 24, 8, 0⟩
def DBG_ID_INST : Fld := ⟨0x1200000, 16, 8, 0⟩
def DBG_ID_VERSION : Fld := ⟨0x1200000, 0, 4, 0⟩
def CLSC_ID_INDEX (i : Nat) : Fld := ⟨0x810000 + 0x10000 * (i % 64), 24, 8, 0⟩
def CLSC_ID_INST (i : Nat) : Fld := ⟨0x810000 + 0x10000 * (i % 64), 16, 8, 0⟩
def CLSC_ID_VERSION (i : Nat) : Fld := ⟨0x810000 + 0x10000 * (i % 64), 0, 4, 0⟩
def LNKL_ID_INDEX (i : Nat) : Fld := ⟨0xe10000 + 0x4000 * (i % 32), 24, 8, 0⟩
def LNKL_ID_INST (i : Nat) : Fld := ⟨0xe10000 + 0x4000 * (i % 32), 16, 8, 0⟩
def LNKL_ID_VERSION (i : Nat) : Fld := ⟨0xe10000 + 0x4000 * (i % 32), 0, 4, 0⟩
def PLT_CTL_SSC_EN : Fld := ⟨0x4, 11, 1, 1⟩
def PLT_CTL_AUTOSW : Fld := ⟨0x4, 10, 1, 1⟩
def PLT_CTL_SWREQ : Fld := ⟨0x4, 9, 1, 0⟩
def PLT_CTL_THRMIN : Fld := ⟨0x4, 4, 4, 0⟩
def PLT_CTL_OPP : Fld := ⟨0x4, 0, 2, 1⟩
def PLT_STAT_TMAX : Fld := ⟨0x8, 24, 8, 0⟩
def PLT_STAT_THR : Fld := ⟨0x8, 20, 4, 0⟩
def PLT_STAT_THRSRC : Fld := ⟨0x8, 16, 4, 0⟩
def PLT_STAT_PPS_LOCK : Fld := ⟨0x8, 7, 1, 0⟩
def PLT_STAT_ROOTB_OK : Fld := ⟨0x8, 6, 1, 0⟩
def PLT_STAT_ROOTA_OK : Fld := ⟨0x8, 5, 1, 0⟩
def PLT_STAT_ROOT : Fld := ⟨0x8, 4, 1, 0⟩
def PLT_STAT_SW_BUSY : Fld := ⟨0x8, 3, 1, 0⟩
def PLT_STAT_OPP_BUSY : Fld := ⟨0x8, 2, 1, 0⟩
def PLT_STAT_OPPACT : Fld := ⟨0x8, 0, 2, 1⟩
def PLT_EVT_RESET : Fld := ⟨0xc, 9, 1, 0⟩
def PLT_EVT_AVS : Fld := ⟨0xc, 8, 1, 0⟩
def PLT_EVT_AGING : Fld := ⟨0xc, 7, 1, 0⟩
def PLT_EVT_CAL : Fld := ⟨0xc, 6, 1, 0⟩
def PLT_EVT_PPS : Fld := ⟨0xc, 5, 1, 0⟩
def PLT_EVT_OPP : Fld := ⟨0xc, 4, 1, 0⟩
def PLT_EVT_PGATE : Fld := ⟨0xc, 3, 1, 0⟩
def PLT_EVT_PLL_FAIL : Fld := ⟨0xc, 2, 1, 0⟩
def PLT_EVT_THERM : Fld := ⟨0xc, 1, 1, 0⟩
def PLT_EVT_THROTTLE : Fld := ⟨0xc, 0, 1, 0⟩
def PLT_EVTEN_RESET : Fld := ⟨0x10, 9, 1, 1⟩
def PLT_EVTEN_AVS : Fld := ⟨0x10, 8, 1, 1⟩
def PLT_EVTEN_AGING : Fld := ⟨0x10, 7, 1, 1⟩
def PLT_EVTEN_CAL : Fld := ⟨0x10, 6, 1, 1⟩
def PLT_EVTEN_PPS : Fld := ⟨0x10, 5, 1, 1⟩
def PLT_EVTEN_OPP : Fld := ⟨0x10, 4, 1, 1⟩
def PLT_EVTEN_PGATE : Fld := ⟨0x10, 3, 1, 1⟩
def PLT_EVTEN_PLL_FAIL : Fld := ⟨0x10, 2, 1, 1⟩
def PLT_EVTEN_THERM : Fld := ⟨0x10, 1, 1, 1⟩
def PLT_EVTEN_THROTTLE : Fld := ⟨0x10, 0, 1, 1⟩
def PLT_PGREQ_GO : Fld := ⟨0x20, 31, 1, 0⟩
def PLT_PGREQ_ON : Fld := ⟨0x20, 30, 1, 0⟩
def PLT_PGREQ_RESULT : Fld := ⟨0x20, 16, 8, 255⟩
def PLT_PGREQ_DOMAIN : Fld := ⟨0x20, 0, 5, 0⟩
def PLT_PGSTAT_ON : Fld := ⟨0x24, 0, 30, 31⟩
def PLT_THR_PLIM : Fld := ⟨0x30, 16, 12, 760⟩
def PLT_THR_TALERT : Fld := ⟨0x30, 8, 8, 110⟩
def PLT_THR_THOT : Fld := ⟨0x30, 0, 8, 100⟩
def PLT_DROOP_DELTA : Fld := ⟨0x34, 0, 8, 40⟩
def PLT_CAL_LNKMS : Fld := ⟨0x40, 16, 16, 1000⟩
def PLT_CAL_HBMMS : Fld := ⟨0x40, 0, 16, 100⟩
def PLT_PTCTL_LOAD : Fld := ⟨0x50, 2, 1, 0⟩
def PLT_PTCTL_MODE : Fld := ⟨0x50, 0, 2, 0⟩
def PLT_RST_KEY : Fld := ⟨0x60, 0, 16, 0⟩
def PLT_RSTCAUSE_COUNT : Fld := ⟨0x64, 8, 8, 0⟩
def PLT_RSTCAUSE_CAUSE : Fld := ⟨0x64, 0, 4, 1⟩
def SEC_STAT_TOKVALID : Fld := ⟨0x100008, 16, 16, 0⟩
def SEC_STAT_EPOCHCNT : Fld := ⟨0x100008, 8, 8, 0⟩
def SEC_STAT_KEYOK : Fld := ⟨0x100008, 4, 4, 0⟩
def SEC_STAT_FUSE_BUSY : Fld := ⟨0x100008, 1, 1, 0⟩
def SEC_STAT_TOK_BUSY : Fld := ⟨0x100008, 0, 1, 0⟩
def SEC_EVT_EPOCH : Fld := ⟨0x10000c, 2, 1, 0⟩
def SEC_EVT_FUSE : Fld := ⟨0x10000c, 1, 1, 0⟩
def SEC_EVT_TOKEN : Fld := ⟨0x10000c, 0, 1, 0⟩
def SEC_EVTEN_EPOCH : Fld := ⟨0x100010, 2, 1, 1⟩
def SEC_EVTEN_FUSE : Fld := ⟨0x100010, 1, 1, 1⟩
def SEC_EVTEN_TOKEN : Fld := ⟨0x100010, 0, 1, 1⟩
def SEC_TOKCTL_LOAD : Fld := ⟨0x100020, 31, 1, 0⟩
def SEC_TOKCTL_UNLOAD : Fld := ⟨0x100020, 30, 1, 0⟩
def SEC_TOKCTL_RESULT : Fld := ⟨0x100020, 16, 8, 255⟩
def SEC_TOKCTL_SLOT : Fld := ⟨0x100020, 0, 4, 0⟩
def SEC_FUSEDATA_DATA : Fld := ⟨0x100024, 0, 32, 0⟩
def SEC_FUSEPGM_GO : Fld := ⟨0x100028, 31, 1, 0⟩
def SEC_FUSEPGM_RESULT : Fld := ⟨0x100028, 16, 8, 255⟩
def SEC_FUSEPGM_WORD : Fld := ⟨0x100028, 0, 7, 0⟩
def MGT_STAT_RESTARTS : Fld := ⟨0x200008, 8, 8, 0⟩
def MGT_STAT_RCAUSE : Fld := ⟨0x200008, 6, 2, 0⟩
def MGT_STAT_SEC_HELD : Fld := ⟨0x200008, 5, 1, 0⟩
def MGT_STAT_CTL_HELD : Fld := ⟨0x200008, 4, 1, 0⟩
def MGT_STAT_SWAP_BUSY : Fld := ⟨0x200008, 3, 1, 0⟩
def MGT_STAT_REMAP : Fld := ⟨0x200008, 2, 1, 0⟩
def MGT_EVT_SRAM_UE : Fld := ⟨0x20000c, 4, 1, 0⟩
def MGT_EVT_SVC : Fld := ⟨0x20000c, 3, 1, 0⟩
def MGT_EVT_SWAP : Fld := ⟨0x20000c, 2, 1, 0⟩
def MGT_EVT_WDT : Fld := ⟨0x20000c, 1, 1, 0⟩
def MGT_EVT_LOCKSTEP : Fld := ⟨0x20000c, 0, 1, 0⟩
def MGT_EVTEN_SRAM_UE : Fld := ⟨0x200010, 4, 1, 1⟩
def MGT_EVTEN_SVC : Fld := ⟨0x200010, 3, 1, 1⟩
def MGT_EVTEN_SWAP : Fld := ⟨0x200010, 2, 1, 1⟩
def MGT_EVTEN_WDT : Fld := ⟨0x200010, 1, 1, 1⟩
def MGT_EVTEN_LOCKSTEP : Fld := ⟨0x200010, 0, 1, 1⟩
def MGT_CODEBASE_SECBASE : Fld := ⟨0x200020, 4, 24, 0⟩
def MGT_WDT_EN (i : Nat) : Fld := ⟨0x200030 + 0x8 * (i % 2), 31, 1, 0⟩
def MGT_WDT_TIMEOUT (i : Nat) : Fld := ⟨0x200030 + 0x8 * (i % 2), 0, 24, 1000000⟩
def MGT_WDKICK_KEY (i : Nat) : Fld := ⟨0x200034 + 0x8 * (i % 2), 0, 16, 0⟩
def MGT_SVC_GO : Fld := ⟨0x200040, 0, 4, 0⟩
def MGT_FPCTL_APPLY : Fld := ⟨0x200044, 31, 1, 0⟩
def MGT_FPCTL_RESULT : Fld := ⟨0x200044, 16, 8, 255⟩
def MGT_SWAPCTL_OK : Fld := ⟨0x200058, 31, 1, 0⟩
def MGT_SWAPCTL_RESULT : Fld := ⟨0x200058, 16, 8, 255⟩
def MGT_FLCMD_GO : Fld := ⟨0x200048, 31, 1, 0⟩
def MGT_FLCMD_OP : Fld := ⟨0x200048, 28, 3, 0⟩
def MGT_FLCMD_RESULT : Fld := ⟨0x200048, 16, 8, 255⟩
def MGT_FLADDR_ADDR : Fld := ⟨0x20004c, 0, 28, 0⟩
def MGT_FLSRC_OFF : Fld := ⟨0x200050, 0, 21, 0⟩
def MGT_FPU_EN (i : Nat) : Fld := ⟨0x200100 + 0x4 * (i % 16), 31, 1, 0⟩
def MGT_FPU_MODE (i : Nat) : Fld := ⟨0x200100 + 0x4 * (i % 16), 30, 1, 0⟩
def MGT_FPU_LINE (i : Nat) : Fld := ⟨0x200100 + 0x4 * (i % 16), 5, 21, 0⟩
def HIF_STAT_FLIT : Fld := ⟨0x300008, 9, 1, 0⟩
def HIF_STAT_DLUP : Fld := ⟨0x300008, 8, 1, 0⟩
def HIF_STAT_SPEED : Fld := ⟨0x300008, 4, 4, 0⟩
def HIF_STAT_WIDTH : Fld := ⟨0x300008, 2, 2, 0⟩
def HIF_EVT_RESET : Fld := ⟨0x30000c, 5, 1, 0⟩
def HIF_EVT_DBERR : Fld := ⟨0x30000c, 4, 1, 0⟩
def HIF_EVT_PWERR : Fld := ⟨0x30000c, 3, 1, 0⟩
def HIF_EVT_LINK : Fld := ⟨0x30000c, 2, 1, 0⟩
def HIF_EVT_DMA_ERR : Fld := ⟨0x30000c, 1, 1, 0⟩
def HIF_EVT_DMA_DONE : Fld := ⟨0x30000c, 0, 1, 0⟩
def HIF_EVTEN_RESET : Fld := ⟨0x300010, 5, 1, 1⟩
def HIF_EVTEN_DBERR : Fld := ⟨0x300010, 4, 1, 1⟩
def HIF_EVTEN_PWERR : Fld := ⟨0x300010, 3, 1, 1⟩
def HIF_EVTEN_LINK : Fld := ⟨0x300010, 2, 1, 1⟩
def HIF_EVTEN_DMA_ERR : Fld := ⟨0x300010, 1, 1, 1⟩
def HIF_EVTEN_DMA_DONE : Fld := ⟨0x300010, 0, 1, 1⟩
def HIF_AWIN_EN (i : Nat) : Fld := ⟨0x300040 + 0x4 * (i % 16), 31, 1, 0⟩
def HIF_AWIN_BASE (i : Nat) : Fld := ⟨0x300040 + 0x4 * (i % 16), 0, 18, 0⟩
def HIF_EVCFG_EN (i : Nat) : Fld := ⟨0x300100 + 0x10 * (i % 4), 31, 1, 0⟩
def HIF_EVCFG_VEC (i : Nat) : Fld := ⟨0x300100 + 0x10 * (i % 4), 25, 6, 0⟩
def HIF_EVCFG_LOG2 (i : Nat) : Fld := ⟨0x300100 + 0x10 * (i % 4), 20, 5, 6⟩
def HIF_EVCFG_CNT (i : Nat) : Fld := ⟨0x300100 + 0x10 * (i % 4), 12, 8, 0⟩
def HIF_EVCFG_TIME (i : Nat) : Fld := ⟨0x300100 + 0x10 * (i % 4), 0, 12, 0⟩
def HIF_EVPROD_WRAP (i : Nat) : Fld := ⟨0x300104 + 0x10 * (i % 4), 16, 1, 0⟩
def HIF_EVPROD_INDEX (i : Nat) : Fld := ⟨0x300104 + 0x10 * (i % 4), 0, 16, 0⟩
def HIF_EVCONS_WRAP (i : Nat) : Fld := ⟨0x300108 + 0x10 * (i % 4), 16, 1, 0⟩
def HIF_EVCONS_INDEX (i : Nat) : Fld := ⟨0x300108 + 0x10 * (i % 4), 0, 16, 0⟩
def HIF_EVROUTE_RING : Fld := ⟨0x300140, 0, 12, 0⟩
def HIF_EVSTAT_HELD : Fld := ⟨0x300144, 16, 9, 0⟩
def HIF_EVSTAT_FULL : Fld := ⟨0x300144, 4, 4, 0⟩
def HIF_EVSTAT_WAIT : Fld := ⟨0x300144, 0, 4, 0⟩
def HIF_DCTL_EN (i : Nat) : Fld := ⟨0x300200 + 0x10 * (i % 16), 31, 1, 0⟩
def HIF_DCTL_WB (i : Nat) : Fld := ⟨0x300200 + 0x10 * (i % 16), 30, 1, 0⟩
def HIF_DCTL_VEC (i : Nat) : Fld := ⟨0x300200 + 0x10 * (i % 16), 20, 6, 0⟩
def HIF_DCTL_LOG2 (i : Nat) : Fld := ⟨0x300200 + 0x10 * (i % 16), 15, 5, 4⟩
def HIF_DSTAT_ERR (i : Nat) : Fld := ⟨0x300204 + 0x10 * (i % 16), 24, 8, 0⟩
def HIF_DSTAT_STATE (i : Nat) : Fld := ⟨0x300204 + 0x10 * (i % 16), 17, 3, 0⟩
def HIF_DSTAT_HWRAP (i : Nat) : Fld := ⟨0x300204 + 0x10 * (i % 16), 16, 1, 0⟩
def HIF_DSTAT_HEAD (i : Nat) : Fld := ⟨0x300204 + 0x10 * (i % 16), 0, 16, 0⟩
def HIF_CNT_PWERR_COUNT : Fld := ⟨0x300180, 0, 32, 0⟩
def HIF_CNT_CPLERR_COUNT : Fld := ⟨0x300184, 0, 32, 0⟩
def HIF_CNT_DBERR_COUNT : Fld := ⟨0x300188, 0, 32, 0⟩
def HIF_CNT_EVBLK_COUNT : Fld := ⟨0x30018c, 0, 32, 0⟩
def NOC_STAT_DRAIN_HOLD : Fld := ⟨0x400008, 3, 1, 0⟩
def NOC_STAT_OLDBUSY : Fld := ⟨0x400008, 2, 1, 0⟩
def NOC_STAT_EPOCH : Fld := ⟨0x400008, 1, 1, 0⟩
def NOC_STAT_MODE_WAIT : Fld := ⟨0x400008, 0, 1, 0⟩
def NOC_EVT_AGREE : Fld := ⟨0x40000c, 6, 1, 0⟩
def NOC_EVT_RT : Fld := ⟨0x40000c, 5, 1, 0⟩
def NOC_EVT_ROUTE : Fld := ⟨0x40000c, 4, 1, 0⟩
def NOC_EVT_TIMEOUT : Fld := ⟨0x40000c, 3, 1, 0⟩
def NOC_EVT_CRC : Fld := ⟨0x40000c, 2, 1, 0⟩
def NOC_EVT_UE : Fld := ⟨0x40000c, 1, 1, 0⟩
def NOC_EVT_CE : Fld := ⟨0x40000c, 0, 1, 0⟩
def NOC_EVTEN_AGREE : Fld := ⟨0x400010, 6, 1, 1⟩
def NOC_EVTEN_RT : Fld := ⟨0x400010, 5, 1, 1⟩
def NOC_EVTEN_ROUTE : Fld := ⟨0x400010, 4, 1, 1⟩
def NOC_EVTEN_TIMEOUT : Fld := ⟨0x400010, 3, 1, 1⟩
def NOC_EVTEN_CRC : Fld := ⟨0x400010, 2, 1, 1⟩
def NOC_EVTEN_UE : Fld := ⟨0x400010, 1, 1, 1⟩
def NOC_EVTEN_CE : Fld := ⟨0x400010, 0, 1, 1⟩
def NOC_AGREE_BUSY : Fld := ⟨0x400018, 31, 1, 0⟩
def NOC_AGREE_RESULT : Fld := ⟨0x400018, 16, 8, 255⟩
def NOC_AGREE_TAG : Fld := ⟨0x400018, 0, 8, 0⟩
def NOC_MODE_DLMODE : Fld := ⟨0x400020, 16, 1, 0⟩
def NOC_MODE_PROT : Fld := ⟨0x400020, 8, 4, 0⟩
def NOC_MODE_PRIO : Fld := ⟨0x400020, 0, 8, 201⟩
def NOC_TIME_TMO : Fld := ⟨0x400024, 8, 24, 4688⟩
def NOC_TIME_TICK : Fld := ⟨0x400024, 0, 8, 16⟩
def NOC_MODEA_DLMODE : Fld := ⟨0x400028, 16, 1, 0⟩
def NOC_MODEA_PROT : Fld := ⟨0x400028, 8, 4, 0⟩
def NOC_MODEA_PRIO : Fld := ⟨0x400028, 0, 8, 201⟩
def NOC_TIMEA_TMO : Fld := ⟨0x40002c, 8, 24, 4688⟩
def NOC_TIMEA_TICK : Fld := ⟨0x40002c, 0, 8, 16⟩
def NOC_RT_FLIP : Fld := ⟨0x400040, 31, 1, 0⟩
def NOC_RT_DRAIN : Fld := ⟨0x400040, 30, 1, 0⟩
def NOC_RT_RESULT : Fld := ⟨0x400040, 16, 8, 255⟩
def NOC_RTSEL_ROUTER : Fld := ⟨0x400044, 0, 7, 0⟩
def NOC_OLDCNT_COUNT : Fld := ⟨0x400048, 0, 14, 0⟩
def NOC_RIMP_TREE : Fld := ⟨0x400070, 0, 12, 0⟩
def NOC_CNT_CE_COUNT : Fld := ⟨0x400050, 0, 32, 0⟩
def NOC_CNT_UE_COUNT : Fld := ⟨0x400054, 0, 32, 0⟩
def NOC_CNT_CRC_COUNT : Fld := ⟨0x400058, 0, 32, 0⟩
def NOC_CNT_TMO_COUNT : Fld := ⟨0x40005c, 0, 32, 0⟩
def NOC_CNT_ROUTE_COUNT : Fld := ⟨0x400060, 0, 32, 0⟩
def NOC_CNT_LATE_COUNT : Fld := ⟨0x400064, 0, 32, 0⟩
def SEQ_CTL_STOPAT_EN : Fld := ⟨0x500004, 4, 1, 0⟩
def SEQ_CTL_UCYC1 : Fld := ⟨0x500004, 3, 1, 0⟩
def SEQ_CTL_STEP1 : Fld := ⟨0x500004, 2, 1, 0⟩
def SEQ_CTL_STOP : Fld := ⟨0x500004, 1, 1, 0⟩
def SEQ_CTL_RUN : Fld := ⟨0x500004, 0, 1, 0⟩
def SEQ_STAT_CKPT_BUSY : Fld := ⟨0x500008, 11, 1, 0⟩
def SEQ_STAT_FENCE_PEND : Fld := ⟨0x500008, 10, 1, 0⟩
def SEQ_STAT_DEPTH : Fld := ⟨0x500008, 4, 6, 0⟩
def SEQ_STAT_VMODE : Fld := ⟨0x500008, 3, 1, 0⟩
def SEQ_STAT_STATE : Fld := ⟨0x500008, 0, 3, 0⟩
def SEQ_EVT_CMD : Fld := ⟨0x50000c, 8, 1, 0⟩
def SEQ_EVT_TMR : Fld := ⟨0x50000c, 7, 1, 0⟩
def SEQ_EVT_FENCE_SHORT : Fld := ⟨0x50000c, 6, 1, 0⟩
def SEQ_EVT_CKPT_FAIL : Fld := ⟨0x50000c, 5, 1, 0⟩
def SEQ_EVT_CKPT_DONE : Fld := ⟨0x50000c, 4, 1, 0⟩
def SEQ_EVT_PEER : Fld := ⟨0x50000c, 3, 1, 0⟩
def SEQ_EVT_FENCE_LATE : Fld := ⟨0x50000c, 2, 1, 0⟩
def SEQ_EVT_STOPPED : Fld := ⟨0x50000c, 1, 1, 0⟩
def SEQ_EVT_LONG : Fld := ⟨0x50000c, 0, 1, 0⟩
def SEQ_EVTEN_CMD : Fld := ⟨0x500010, 8, 1, 1⟩
def SEQ_EVTEN_TMR : Fld := ⟨0x500010, 7, 1, 1⟩
def SEQ_EVTEN_FENCE_SHORT : Fld := ⟨0x500010, 6, 1, 1⟩
def SEQ_EVTEN_CKPT_FAIL : Fld := ⟨0x500010, 5, 1, 1⟩
def SEQ_EVTEN_CKPT_DONE : Fld := ⟨0x500010, 4, 1, 1⟩
def SEQ_EVTEN_PEER : Fld := ⟨0x500010, 3, 1, 1⟩
def SEQ_EVTEN_FENCE_LATE : Fld := ⟨0x500010, 2, 1, 1⟩
def SEQ_EVTEN_STOPPED : Fld := ⟨0x500010, 1, 1, 1⟩
def SEQ_EVTEN_LONG : Fld := ⟨0x500010, 0, 1, 1⟩
def SEQ_FENCE_DIST : Fld := ⟨0x500020, 0, 32, 65536⟩
def SEQ_DIAM_DIAM : Fld := ⟨0x500024, 0, 18, 0⟩
def SEQ_ELLIM_LIMIT_US : Fld := ⟨0x500028, 0, 24, 10000⟩
def SEQ_ELLCAUSE_NOW : Fld := ⟨0x50002c, 0, 16, 0⟩
def SEQ_ELLLAST_LAST : Fld := ⟨0x500030, 0, 8, 0⟩
def SEQ_CKPT_INTERVAL : Fld := ⟨0x500034, 0, 24, 0⟩
def SEQ_CKPT_STAT_LAST_OK : Fld := ⟨0x500038, 1, 1, 0⟩
def SEQ_CKPT_STAT_LAST_SLOT : Fld := ⟨0x500038, 0, 1, 0⟩
def SCH_STAT_RMAP_BUSY : Fld := ⟨0x600008, 1, 1, 0⟩
def SCH_STAT_PATCH_BUSY : Fld := ⟨0x600008, 0, 1, 0⟩
def SCH_EVT_DICT_MFIX : Fld := ⟨0x60000c, 8, 1, 0⟩
def SCH_EVT_PARAM : Fld := ⟨0x60000c, 7, 1, 0⟩
def SCH_EVT_BREAK : Fld := ⟨0x60000c, 6, 1, 0⟩
def SCH_EVT_PATCH : Fld := ⟨0x60000c, 5, 1, 0⟩
def SCH_EVT_RMAP : Fld := ⟨0x60000c, 4, 1, 0⟩
def SCH_EVT_ROW_HOT : Fld := ⟨0x60000c, 3, 1, 0⟩
def SCH_EVT_SCRUB_UE : Fld := ⟨0x60000c, 2, 1, 0⟩
def SCH_EVT_UE : Fld := ⟨0x60000c, 1, 1, 0⟩
def SCH_EVT_CE : Fld := ⟨0x60000c, 0, 1, 0⟩
def SCH_EVTEN_DICT_MFIX : Fld := ⟨0x600010, 8, 1, 1⟩
def SCH_EVTEN_PARAM : Fld := ⟨0x600010, 7, 1, 1⟩
def SCH_EVTEN_BREAK : Fld := ⟨0x600010, 6, 1, 1⟩
def SCH_EVTEN_PATCH : Fld := ⟨0x600010, 5, 1, 1⟩
def SCH_EVTEN_RMAP : Fld := ⟨0x600010, 4, 1, 1⟩
def SCH_EVTEN_ROW_HOT : Fld := ⟨0x600010, 3, 1, 1⟩
def SCH_EVTEN_SCRUB_UE : Fld := ⟨0x600010, 2, 1, 1⟩
def SCH_EVTEN_UE : Fld := ⟨0x600010, 1, 1, 1⟩
def SCH_EVTEN_CE : Fld := ⟨0x600010, 0, 1, 1⟩
def SCH_SCRUB_INTERVAL : Fld := ⟨0x600020, 0, 16, 16⟩
def SCH_ROWHOT_THR : Fld := ⟨0x600024, 0, 8, 8⟩
def SCH_PCHK_RELOADED : Fld := ⟨0x600028, 0, 1, 0⟩
def SCH_RMAP_GO : Fld := ⟨0x600030, 31, 1, 0⟩
def SCH_RMAP_RESULT : Fld := ⟨0x600030, 20, 8, 255⟩
def SCH_RMAP_CLAUSE : Fld := ⟨0x600030, 14, 6, 0⟩
def SCH_RMAP_ROW : Fld := ⟨0x600030, 0, 14, 0⟩
def SCH_PATCH_APPLY : Fld := ⟨0x600040, 31, 1, 0⟩
def SCH_PATCH_RESULT : Fld := ⟨0x600040, 16, 8, 255⟩
def SCH_PATCH_REASON : Fld := ⟨0x600040, 8, 8, 0⟩
def SCH_PATCH_UNIT : Fld := ⟨0x600040, 0, 6, 0⟩
def SCH_CNT_CE_COUNT : Fld := ⟨0x600050, 0, 32, 0⟩
def SCH_CNT_UE_COUNT : Fld := ⟨0x600054, 0, 32, 0⟩
def SCH_CNT_SCRUB_COUNT : Fld := ⟨0x600058, 0, 32, 0⟩
def SCH_LOAD_BUSY : Fld := ⟨0x600060, 31, 1, 0⟩
def SCH_LOAD_RESULT : Fld := ⟨0x600060, 16, 8, 255⟩
def SCH_LOAD_REASON : Fld := ⟨0x600060, 8, 8, 0⟩
def SCH_LOAD_CLASS : Fld := ⟨0x600060, 0, 4, 0⟩
def SCH_BOOT_GEN : Fld := ⟨0x600068, 16, 16, 0⟩
def SCH_BOOT_FAIL : Fld := ⟨0x600068, 8, 4, 0⟩
def SCH_BOOT_OK : Fld := ⟨0x600068, 2, 1, 0⟩
def SCH_BOOT_SRC : Fld := ⟨0x600068, 0, 2, 0⟩
def SCH_LDEVT_RECOVERY : Fld := ⟨0x60006c, 17, 1, 0⟩
def SCH_LDEVT_GOLDEN : Fld := ⟨0x60006c, 16, 1, 0⟩
def SCH_LDEVT_DONE : Fld := ⟨0x60006c, 11, 1, 0⟩
def SCH_LDEVT_CLASS : Fld := ⟨0x60006c, 10, 1, 0⟩
def SCH_LDEVT_GEN : Fld := ⟨0x60006c, 9, 1, 0⟩
def SCH_LDEVT_FP : Fld := ⟨0x60006c, 8, 1, 0⟩
def SCH_LDEVT_DECRYPT : Fld := ⟨0x60006c, 7, 1, 0⟩
def SCH_LDEVT_DIGEST : Fld := ⟨0x60006c, 6, 1, 0⟩
def SCH_LDEVT_SIG : Fld := ⟨0x60006c, 5, 1, 0⟩
def SCH_LDEVT_HDR : Fld := ⟨0x60006c, 4, 1, 0⟩
def SCH_LDEVT_FRAME : Fld := ⟨0x60006c, 3, 1, 0⟩
def SCH_LDEVT_FRAME_BAD : Fld := ⟨0x60006c, 2, 1, 0⟩
def SCH_LDEVT_LAT : Fld := ⟨0x60006c, 1, 1, 0⟩
def SCH_LDEVT_PARSE : Fld := ⟨0x60006c, 0, 1, 0⟩
def SCH_LDEVTEN_RECOVERY : Fld := ⟨0x600070, 17, 1, 1⟩
def SCH_LDEVTEN_GOLDEN : Fld := ⟨0x600070, 16, 1, 1⟩
def SCH_LDEVTEN_DONE : Fld := ⟨0x600070, 11, 1, 1⟩
def SCH_LDEVTEN_CLASS : Fld := ⟨0x600070, 10, 1, 1⟩
def SCH_LDEVTEN_GEN : Fld := ⟨0x600070, 9, 1, 1⟩
def SCH_LDEVTEN_FP : Fld := ⟨0x600070, 8, 1, 1⟩
def SCH_LDEVTEN_DECRYPT : Fld := ⟨0x600070, 7, 1, 1⟩
def SCH_LDEVTEN_DIGEST : Fld := ⟨0x600070, 6, 1, 1⟩
def SCH_LDEVTEN_SIG : Fld := ⟨0x600070, 5, 1, 1⟩
def SCH_LDEVTEN_HDR : Fld := ⟨0x600070, 4, 1, 1⟩
def SCH_LDEVTEN_FRAME : Fld := ⟨0x600070, 3, 1, 1⟩
def SCH_LDEVTEN_FRAME_BAD : Fld := ⟨0x600070, 2, 1, 1⟩
def SCH_LDEVTEN_LAT : Fld := ⟨0x600070, 1, 1, 1⟩
def SCH_LDEVTEN_PARSE : Fld := ⟨0x600070, 0, 1, 1⟩
def SCH_PU_MODE (i : Nat) : Fld := ⟨0x600100 + 0x4 * (i % 64), 30, 2, 0⟩
def SCH_PU_CLAUSE (i : Nat) : Fld := ⟨0x600100 + 0x4 * (i % 64), 24, 6, 0⟩
def SCH_PU_KIND (i : Nat) : Fld := ⟨0x600100 + 0x4 * (i % 64), 23, 1, 0⟩
def SCH_PU_INDEX (i : Nat) : Fld := ⟨0x600100 + 0x4 * (i % 64), 11, 10, 0⟩
def SCH_PU_PHASE (i : Nat) : Fld := ⟨0x600100 + 0x4 * (i % 64), 0, 11, 0⟩
def CLS_LOAD0_CLAUSES : Fld := ⟨0x800020, 0, 32, 0⟩
def CLS_LOAD1_CLAUSES : Fld := ⟨0x800024, 0, 32, 0⟩
def CLS_PASS0_CLAUSES : Fld := ⟨0x800028, 0, 32, 0⟩
def CLS_PASS1_CLAUSES : Fld := ⟨0x80002c, 0, 32, 0⟩
def CLS_EVTSUM0_CLAUSES : Fld := ⟨0x800030, 0, 32, 0⟩
def CLS_EVTSUM1_CLAUSES : Fld := ⟨0x800034, 0, 32, 0⟩
def CLS_STAT_PERIM (i : Nat) : Fld := ⟨0x810008 + 0x10000 * (i % 64), 4, 1, 0⟩
def CLS_STAT_SPARE_BUSY (i : Nat) : Fld := ⟨0x810008 + 0x10000 * (i % 64), 3, 1, 0⟩
def CLS_STAT_PASSED (i : Nat) : Fld := ⟨0x810008 + 0x10000 * (i % 64), 1, 1, 0⟩
def CLS_STAT_LOADED (i : Nat) : Fld := ⟨0x810008 + 0x10000 * (i % 64), 0, 1, 0⟩
def CLS_EVT_SPARE (i : Nat) : Fld := ⟨0x81000c + 0x10000 * (i % 64), 6, 1, 0⟩
def CLS_EVT_PORT_XADDR (i : Nat) : Fld := ⟨0x81000c + 0x10000 * (i % 64), 5, 1, 0⟩
def CLS_EVT_CHECK (i : Nat) : Fld := ⟨0x81000c + 0x10000 * (i % 64), 4, 1, 0⟩
def CLS_EVT_CQ_PARITY (i : Nat) : Fld := ⟨0x81000c + 0x10000 * (i % 64), 3, 1, 0⟩
def CLS_EVT_VS_PARITY (i : Nat) : Fld := ⟨0x81000c + 0x10000 * (i % 64), 2, 1, 0⟩
def CLS_EVT_DICT_UE (i : Nat) : Fld := ⟨0x81000c + 0x10000 * (i % 64), 1, 1, 0⟩
def CLS_EVT_DICT_FIX (i : Nat) : Fld := ⟨0x81000c + 0x10000 * (i % 64), 0, 1, 0⟩
def CLS_EVTEN_SPARE (i : Nat) : Fld := ⟨0x810010 + 0x10000 * (i % 64), 6, 1, 1⟩
def CLS_EVTEN_PORT_XADDR (i : Nat) : Fld := ⟨0x810010 + 0x10000 * (i % 64), 5, 1, 1⟩
def CLS_EVTEN_CHECK (i : Nat) : Fld := ⟨0x810010 + 0x10000 * (i % 64), 4, 1, 1⟩
def CLS_EVTEN_CQ_PARITY (i : Nat) : Fld := ⟨0x810010 + 0x10000 * (i % 64), 3, 1, 1⟩
def CLS_EVTEN_VS_PARITY (i : Nat) : Fld := ⟨0x810010 + 0x10000 * (i % 64), 2, 1, 1⟩
def CLS_EVTEN_DICT_UE (i : Nat) : Fld := ⟨0x810010 + 0x10000 * (i % 64), 1, 1, 1⟩
def CLS_EVTEN_DICT_FIX (i : Nat) : Fld := ⟨0x810010 + 0x10000 * (i % 64), 0, 1, 1⟩
def CLS_SPARE_RESULT (i : Nat) : Fld := ⟨0x810020 + 0x10000 * (i % 64), 8, 8, 255⟩
def CLS_SPARE_GO (i : Nat) : Fld := ⟨0x810020 + 0x10000 * (i % 64), 7, 1, 0⟩
def CLS_SPARE_TARGET (i : Nat) : Fld := ⟨0x810020 + 0x10000 * (i % 64), 0, 7, 127⟩
def CLS_PMAP_SPARED (i : Nat) : Fld := ⟨0x810024 + 0x10000 * (i % 64), 7, 1, 0⟩
def CLS_PMAP_RETIRED (i : Nat) : Fld := ⟨0x810024 + 0x10000 * (i % 64), 0, 7, 0⟩
def CLS_CNT_DFIX_COUNT (i : Nat) : Fld := ⟨0x810040 + 0x10000 * (i % 64), 0, 32, 0⟩
def CLS_CNT_DUE_COUNT (i : Nat) : Fld := ⟨0x810044 + 0x10000 * (i % 64), 0, 32, 0⟩
def CLS_CNT_VSPAR_COUNT (i : Nat) : Fld := ⟨0x810048 + 0x10000 * (i % 64), 0, 32, 0⟩
def CLS_CNT_CQPAR_COUNT (i : Nat) : Fld := ⟨0x81004c + 0x10000 * (i % 64), 0, 32, 0⟩
def CLS_CNT_CHECK_COUNT (i : Nat) : Fld := ⟨0x810050 + 0x10000 * (i % 64), 0, 32, 0⟩
def CLS_CNT_CHKDROP_COUNT (i : Nat) : Fld := ⟨0x810054 + 0x10000 * (i % 64), 0, 32, 0⟩
def CLS_PXW_COUNT (i q : Nat) : Fld := ⟨0x810060 + 0x10000 * (i % 64) + 4 * (q % 4), 0, 32, 0⟩
def FAB_STAT_AGREE_BUSY : Fld := ⟨0xd00008, 1, 1, 0⟩
def FAB_STAT_ISO_BUSY : Fld := ⟨0xd00008, 0, 1, 0⟩
def FAB_EVT_AGREE : Fld := ⟨0xd0000c, 5, 1, 0⟩
def FAB_EVT_HOLD_UE : Fld := ⟨0xd0000c, 4, 1, 0⟩
def FAB_EVT_ISO_REF : Fld := ⟨0xd0000c, 3, 1, 0⟩
def FAB_EVT_ISO : Fld := ⟨0xd0000c, 2, 1, 0⟩
def FAB_EVT_CONN_UE : Fld := ⟨0xd0000c, 1, 1, 0⟩
def FAB_EVT_CONN_FIX : Fld := ⟨0xd0000c, 0, 1, 0⟩
def FAB_EVTEN_AGREE : Fld := ⟨0xd00010, 5, 1, 1⟩
def FAB_EVTEN_HOLD_UE : Fld := ⟨0xd00010, 4, 1, 1⟩
def FAB_EVTEN_ISO_REF : Fld := ⟨0xd00010, 3, 1, 1⟩
def FAB_EVTEN_ISO : Fld := ⟨0xd00010, 2, 1, 1⟩
def FAB_EVTEN_CONN_UE : Fld := ⟨0xd00010, 1, 1, 1⟩
def FAB_EVTEN_CONN_FIX : Fld := ⟨0xd00010, 0, 1, 1⟩
def FAB_AGREE_BUSY : Fld := ⟨0xd00018, 31, 1, 0⟩
def FAB_AGREE_RESULT : Fld := ⟨0xd00018, 16, 8, 255⟩
def FAB_AGREE_TAG : Fld := ⟨0xd00018, 0, 8, 0⟩
def FAB_ISO_RESULT : Fld := ⟨0xd00020, 16, 8, 255⟩
def FAB_ISO_REL : Fld := ⟨0xd00020, 10, 1, 0⟩
def FAB_ISO_ISO : Fld := ⟨0xd00020, 9, 1, 0⟩
def FAB_ISO_XINJ : Fld := ⟨0xd00020, 8, 1, 0⟩
def FAB_ISO_CLAUSE : Fld := ⟨0xd00020, 0, 6, 0⟩
def FAB_ISOMASK0_CLAUSES : Fld := ⟨0xd00024, 0, 32, 0⟩
def FAB_ISOMASK1_CLAUSES : Fld := ⟨0xd00028, 0, 32, 0⟩
def FAB_XMASK0_CLAUSES : Fld := ⟨0xd0002c, 0, 32, 0⟩
def FAB_XMASK1_CLAUSES : Fld := ⟨0xd00030, 0, 32, 0⟩
def FAB_SPSEL_CONN : Fld := ⟨0xd00040, 0, 8, 0⟩
def FAB_SPTX_EN : Fld := ⟨0xd00044, 7, 1, 0⟩
def FAB_SPTX_LANE : Fld := ⟨0xd00044, 0, 6, 0⟩
def FAB_SPRX_EN : Fld := ⟨0xd00048, 7, 1, 0⟩
def FAB_SPRX_LANE : Fld := ⟨0xd00048, 0, 6, 0⟩
def LNK_UPMASK_LINKS : Fld := ⟨0xe00020, 0, 32, 0⟩
def LNK_ACTMASK_LINKS : Fld := ⟨0xe00024, 0, 32, 0⟩
def LNK_DEVNUM_VALID : Fld := ⟨0xe00028, 31, 1, 0⟩
def LNK_DEVNUM_ROOT : Fld := ⟨0xe00028, 30, 1, 0⟩
def LNK_DEVNUM_START : Fld := ⟨0xe00028, 29, 1, 0⟩
def LNK_DEVNUM_NUM : Fld := ⟨0xe00028, 0, 18, 0⟩
def LNK_HOPS_HOPS : Fld := ⟨0xe0002c, 0, 18, 0⟩
def LNKG_EVT_TOPO : Fld := ⟨0xe0000c, 0, 1, 0⟩
def LNKG_EVTEN_TOPO : Fld := ⟨0xe00010, 0, 1, 1⟩
def LNK_CTL_AUTOSPARE (i : Nat) : Fld := ⟨0xe10004 + 0x4000 * (i % 32), 2, 1, 1⟩
def LNK_CTL_MODE (i : Nat) : Fld := ⟨0xe10004 + 0x4000 * (i % 32), 1, 1, 0⟩
def LNK_CTL_EN (i : Nat) : Fld := ⟨0xe10004 + 0x4000 * (i % 32), 0, 1, 0⟩
def LNK_STAT_SPARE (i : Nat) : Fld := ⟨0xe10008 + 0x4000 * (i % 32), 18, 2, 2⟩
def LNK_STAT_SPARE_OK (i : Nat) : Fld := ⟨0xe10008 + 0x4000 * (i % 32), 17, 1, 0⟩
def LNK_STAT_SPARE_BUSY (i : Nat) : Fld := ⟨0xe10008 + 0x4000 * (i % 32), 16, 1, 0⟩
def LNK_STAT_REASON (i : Nat) : Fld := ⟨0xe10008 + 0x4000 * (i % 32), 8, 8, 0⟩
def LNK_STAT_STATE (i : Nat) : Fld := ⟨0xe10008 + 0x4000 * (i % 32), 0, 3, 0⟩
def LNK_EVT_MSG (i : Nat) : Fld := ⟨0xe1000c + 0x4000 * (i % 32), 8, 1, 0⟩
def LNK_EVT_RESUMED (i : Nat) : Fld := ⟨0xe1000c + 0x4000 * (i % 32), 7, 1, 0⟩
def LNK_EVT_RETRY (i : Nat) : Fld := ⟨0xe1000c + 0x4000 * (i % 32), 6, 1, 0⟩
def LNK_EVT_EYE_LOW (i : Nat) : Fld := ⟨0xe1000c + 0x4000 * (i % 32), 5, 1, 0⟩
def LNK_EVT_LANE (i : Nat) : Fld := ⟨0xe1000c + 0x4000 * (i % 32), 4, 1, 0⟩
def LNK_EVT_SLOT (i : Nat) : Fld := ⟨0xe1000c + 0x4000 * (i % 32), 3, 1, 0⟩
def LNK_EVT_MODE (i : Nat) : Fld := ⟨0xe1000c + 0x4000 * (i % 32), 2, 1, 0⟩
def LNK_EVT_DOWN (i : Nat) : Fld := ⟨0xe1000c + 0x4000 * (i % 32), 1, 1, 0⟩
def LNK_EVT_UP (i : Nat) : Fld := ⟨0xe1000c + 0x4000 * (i % 32), 0, 1, 0⟩
def LNK_EVTEN_MSG (i : Nat) : Fld := ⟨0xe10010 + 0x4000 * (i % 32), 8, 1, 1⟩
def LNK_EVTEN_RESUMED (i : Nat) : Fld := ⟨0xe10010 + 0x4000 * (i % 32), 7, 1, 1⟩
def LNK_EVTEN_RETRY (i : Nat) : Fld := ⟨0xe10010 + 0x4000 * (i % 32), 6, 1, 1⟩
def LNK_EVTEN_EYE_LOW (i : Nat) : Fld := ⟨0xe10010 + 0x4000 * (i % 32), 5, 1, 1⟩
def LNK_EVTEN_LANE (i : Nat) : Fld := ⟨0xe10010 + 0x4000 * (i % 32), 4, 1, 1⟩
def LNK_EVTEN_SLOT (i : Nat) : Fld := ⟨0xe10010 + 0x4000 * (i % 32), 3, 1, 1⟩
def LNK_EVTEN_MODE (i : Nat) : Fld := ⟨0xe10010 + 0x4000 * (i % 32), 2, 1, 1⟩
def LNK_EVTEN_DOWN (i : Nat) : Fld := ⟨0xe10010 + 0x4000 * (i % 32), 1, 1, 1⟩
def LNK_EVTEN_UP (i : Nat) : Fld := ⟨0xe10010 + 0x4000 * (i % 32), 0, 1, 1⟩
def LNK_SPARE_GO (i : Nat) : Fld := ⟨0xe10020 + 0x4000 * (i % 32), 31, 1, 0⟩
def LNK_SPARE_RESULT (i : Nat) : Fld := ⟨0xe10020 + 0x4000 * (i % 32), 16, 8, 255⟩
def LNK_SPARE_LANE (i : Nat) : Fld := ⟨0xe10020 + 0x4000 * (i % 32), 0, 2, 0⟩
def LNK_XT_RXMASK (i : Nat) : Fld := ⟨0xe10024 + 0x4000 * (i % 32), 4, 4, 15⟩
def LNK_XT_TXMASK (i : Nat) : Fld := ⟨0xe10024 + 0x4000 * (i % 32), 0, 4, 15⟩
def LNK_EYETHR_THR_W (i : Nat) : Fld := ⟨0xe10028 + 0x4000 * (i % 32), 8, 8, 16⟩
def LNK_EYETHR_THR_H (i : Nat) : Fld := ⟨0xe10028 + 0x4000 * (i % 32), 0, 8, 20⟩
def LNK_CNT_FECC_COUNT (i : Nat) : Fld := ⟨0xe10040 + 0x4000 * (i % 32), 0, 32, 0⟩
def LNK_CNT_FECU_COUNT (i : Nat) : Fld := ⟨0xe10044 + 0x4000 * (i % 32), 0, 32, 0⟩
def LNK_CNT_CRC_COUNT (i : Nat) : Fld := ⟨0xe10048 + 0x4000 * (i % 32), 0, 32, 0⟩
def LNK_CNT_TAG_COUNT (i : Nat) : Fld := ⟨0xe1004c + 0x4000 * (i % 32), 0, 32, 0⟩
def LNK_CNT_RETRY_COUNT (i : Nat) : Fld := ⟨0xe10050 + 0x4000 * (i % 32), 0, 32, 0⟩
def MEM_STAT_HRET_BUSY : Fld := ⟨0xf00008, 9, 1, 0⟩
def MEM_STAT_LRET_BUSY : Fld := ⟨0xf00008, 8, 1, 0⟩
def MEM_STAT_CAL_BUSY : Fld := ⟨0xf00008, 4, 4, 0⟩
def MEM_STAT_HBM_UP : Fld := ⟨0xf00008, 0, 4, 0⟩
def MEM_EVT_CAL : Fld := ⟨0xf0000c, 9, 1, 0⟩
def MEM_EVT_NOC_STARVE : Fld := ⟨0xf0000c, 8, 1, 0⟩
def MEM_EVT_WIN_RANGE : Fld := ⟨0xf0000c, 7, 1, 0⟩
def MEM_EVT_HRET : Fld := ⟨0xf0000c, 6, 1, 0⟩
def MEM_EVT_LRET : Fld := ⟨0xf0000c, 5, 1, 0⟩
def MEM_EVT_HOT : Fld := ⟨0xf0000c, 4, 1, 0⟩
def MEM_EVT_HBM_UE : Fld := ⟨0xf0000c, 3, 1, 0⟩
def MEM_EVT_HBM_CE : Fld := ⟨0xf0000c, 2, 1, 0⟩
def MEM_EVT_LEX_UE : Fld := ⟨0xf0000c, 1, 1, 0⟩
def MEM_EVT_LEX_CE : Fld := ⟨0xf0000c, 0, 1, 0⟩
def MEM_EVTEN_CAL : Fld := ⟨0xf00010, 9, 1, 1⟩
def MEM_EVTEN_NOC_STARVE : Fld := ⟨0xf00010, 8, 1, 1⟩
def MEM_EVTEN_WIN_RANGE : Fld := ⟨0xf00010, 7, 1, 1⟩
def MEM_EVTEN_HRET : Fld := ⟨0xf00010, 6, 1, 1⟩
def MEM_EVTEN_LRET : Fld := ⟨0xf00010, 5, 1, 1⟩
def MEM_EVTEN_HOT : Fld := ⟨0xf00010, 4, 1, 1⟩
def MEM_EVTEN_HBM_UE : Fld := ⟨0xf00010, 3, 1, 1⟩
def MEM_EVTEN_HBM_CE : Fld := ⟨0xf00010, 2, 1, 1⟩
def MEM_EVTEN_LEX_UE : Fld := ⟨0xf00010, 1, 1, 1⟩
def MEM_EVTEN_LEX_CE : Fld := ⟨0xf00010, 0, 1, 1⟩
def MEM_NOCWAIT_LIMIT : Fld := ⟨0xf00020, 0, 24, 1000000⟩
def MEM_HSPARE_MIB : Fld := ⟨0xf00024, 0, 11, 64⟩
def MEM_HOTTHR_THR : Fld := ⟨0xf00028, 0, 8, 4⟩
def MEM_LRET_GO : Fld := ⟨0xf00030, 31, 1, 0⟩
def MEM_LRET_RESULT : Fld := ⟨0xf00030, 21, 8, 255⟩
def MEM_LRET_BANK : Fld := ⟨0xf00030, 13, 8, 0⟩
def MEM_LRET_WORD : Fld := ⟨0xf00030, 0, 13, 0⟩
def MEM_HRET_GO : Fld := ⟨0xf00034, 31, 1, 0⟩
def MEM_HRET_RESULT : Fld := ⟨0xf00034, 16, 8, 255⟩
def MEM_HRET_STACK : Fld := ⟨0xf00034, 0, 2, 0⟩
def MEM_HRETPG_PAGE : Fld := ⟨0xf00038, 0, 23, 0⟩
def MEM_CAL_GO : Fld := ⟨0xf00040, 0, 4, 0⟩
def MEM_HTEMP_T3 : Fld := ⟨0xf00044, 24, 8, 0⟩
def MEM_HTEMP_T2 : Fld := ⟨0xf00044, 16, 8, 0⟩
def MEM_HTEMP_T1 : Fld := ⟨0xf00044, 8, 8, 0⟩
def MEM_HTEMP_T0 : Fld := ⟨0xf00044, 0, 8, 0⟩
def MEM_CNT_LCE_COUNT : Fld := ⟨0xf00050, 0, 32, 0⟩
def MEM_CNT_LUE_COUNT : Fld := ⟨0xf00054, 0, 32, 0⟩
def MEM_CNT_HCE_COUNT : Fld := ⟨0xf00058, 0, 32, 0⟩
def MEM_CNT_HUE_COUNT : Fld := ⟨0xf0005c, 0, 32, 0⟩
def MEM_CNT_WIN_COUNT : Fld := ⟨0xf00060, 0, 32, 0⟩
def RIM_STAT_TREE_ON : Fld := ⟨0x1000008, 16, 8, 0⟩
def RIM_STAT_PLL_LOCK : Fld := ⟨0x1000008, 8, 4, 0⟩
def RIM_STAT_BASE : Fld := ⟨0x1000008, 0, 1, 0⟩
def RIM_EVT_IO : Fld := ⟨0x100000c, 16, 16, 0⟩
def RIM_EVT_SAFE : Fld := ⟨0x100000c, 6, 1, 0⟩
def RIM_EVT_PLL : Fld := ⟨0x100000c, 5, 1, 0⟩
def RIM_EVT_PR : Fld := ⟨0x100000c, 4, 1, 0⟩
def RIM_EVT_PARAM : Fld := ⟨0x100000c, 3, 1, 0⟩
def RIM_EVT_ONEHOT : Fld := ⟨0x100000c, 2, 1, 0⟩
def RIM_EVT_FRAME_UE : Fld := ⟨0x100000c, 1, 1, 0⟩
def RIM_EVT_FRAME_FIX : Fld := ⟨0x100000c, 0, 1, 0⟩
def RIM_EVTEN_IO : Fld := ⟨0x1000010, 16, 16, 65535⟩
def RIM_EVTEN_SAFE : Fld := ⟨0x1000010, 6, 1, 1⟩
def RIM_EVTEN_PLL : Fld := ⟨0x1000010, 5, 1, 1⟩
def RIM_EVTEN_PR : Fld := ⟨0x1000010, 4, 1, 1⟩
def RIM_EVTEN_PARAM : Fld := ⟨0x1000010, 3, 1, 1⟩
def RIM_EVTEN_ONEHOT : Fld := ⟨0x1000010, 2, 1, 1⟩
def RIM_EVTEN_FRAME_UE : Fld := ⟨0x1000010, 1, 1, 1⟩
def RIM_EVTEN_FRAME_FIX : Fld := ⟨0x1000010, 0, 1, 1⟩
def RIM_SCRUB_INTERVAL : Fld := ⟨0x1000020, 0, 16, 256⟩
def RIM_PCHK_RELOADED : Fld := ⟨0x1000024, 0, 1, 0⟩
def RIM_SLCFG_OUT_EN : Fld := ⟨0x1000028, 16, 16, 0⟩
def RIM_SLCFG_IN_EN : Fld := ⟨0x1000028, 0, 16, 0⟩
def RIM_SLPOL_NATIVE : Fld := ⟨0x100002c, 28, 4, 0⟩
def RIM_SLPOL_TREE : Fld := ⟨0x100002c, 16, 3, 0⟩
def RIM_SLPOL_SAFE : Fld := ⟨0x100002c, 0, 16, 0⟩
def RIM_SLWAIT_OUTFULL : Fld := ⟨0x1000030, 16, 16, 0⟩
def RIM_SLWAIT_INWAIT : Fld := ⟨0x1000030, 0, 16, 0⟩
def RIM_PRC_FENCE : Fld := ⟨0x1000040, 31, 1, 0⟩
def RIM_PRC_REL : Fld := ⟨0x1000040, 30, 1, 0⟩
def RIM_PRC_RESULT : Fld := ⟨0x1000040, 16, 8, 255⟩
def RIM_PRC_REGION : Fld := ⟨0x1000040, 0, 4, 0⟩
def RIM_PRSTAT_DEFINED : Fld := ⟨0x1000044, 16, 16, 0⟩
def RIM_PRSTAT_FENCED : Fld := ⟨0x1000044, 0, 16, 0⟩
def RIM_CNT_FIX_COUNT : Fld := ⟨0x1000050, 0, 32, 0⟩
def RIM_CNT_UE_COUNT : Fld := ⟨0x1000054, 0, 32, 0⟩
def RIM_CNT_ONEHOT_COUNT : Fld := ⟨0x1000058, 0, 32, 0⟩
def RIM_REL_DIS : Fld := ⟨0x1000100, 16, 8, 0⟩
def RIM_REL_REL : Fld := ⟨0x1000100, 0, 8, 0⟩
def RIM_IOSTAT_RESULT (i : Nat) : Fld := ⟨0x1000120 + 0x4 * (i % 8), 24, 8, 255⟩
def RIM_IOSTAT_STATE (i : Nat) : Fld := ⟨0x1000120 + 0x4 * (i % 8), 16, 3, 0⟩
def RIM_IOSTAT_KEY (i : Nat) : Fld := ⟨0x1000120 + 0x4 * (i % 8), 14, 2, 0⟩
def RIM_IOSTAT_STRAP (i : Nat) : Fld := ⟨0x1000120 + 0x4 * (i % 8), 12, 2, 0⟩
def RIM_IOSTAT_VCCMV (i : Nat) : Fld := ⟨0x1000120 + 0x4 * (i % 8), 0, 12, 0⟩
def CAP_STAT_MT_ON : Fld := ⟨0x1100008, 5, 1, 0⟩
def CAP_STAT_SIG_WAIT : Fld := ⟨0x1100008, 4, 1, 0⟩
def CAP_STAT_SIG_POST : Fld := ⟨0x1100008, 3, 1, 0⟩
def CAP_STAT_SIG_ON : Fld := ⟨0x1100008, 2, 1, 0⟩
def CAP_EVT_CFGERR : Fld := ⟨0x110000c, 5, 1, 0⟩
def CAP_EVT_STOPPED : Fld := ⟨0x110000c, 4, 1, 0⟩
def CAP_EVT_REGION : Fld := ⟨0x110000c, 3, 1, 0⟩
def CAP_EVT_MODE_BUSY : Fld := ⟨0x110000c, 2, 1, 0⟩
def CAP_EVT_OVERFLOW : Fld := ⟨0x110000c, 1, 1, 0⟩
def CAP_EVT_TRIG : Fld := ⟨0x110000c, 0, 1, 0⟩
def CAP_EVTEN_CFGERR : Fld := ⟨0x1100010, 5, 1, 1⟩
def CAP_EVTEN_STOPPED : Fld := ⟨0x1100010, 4, 1, 1⟩
def CAP_EVTEN_REGION : Fld := ⟨0x1100010, 3, 1, 1⟩
def CAP_EVTEN_MODE_BUSY : Fld := ⟨0x1100010, 2, 1, 1⟩
def CAP_EVTEN_OVERFLOW : Fld := ⟨0x1100010, 1, 1, 1⟩
def CAP_EVTEN_TRIG : Fld := ⟨0x1100010, 0, 1, 1⟩
def CAP_SIGCTL_START : Fld := ⟨0x1100020, 31, 1, 0⟩
def CAP_SIGCTL_STOP : Fld := ⟨0x1100020, 30, 1, 0⟩
def CAP_SIGCTL_WGMASK : Fld := ⟨0x1100020, 16, 8, 255⟩
def CAP_SIGCTL_WRAP : Fld := ⟨0x1100020, 3, 1, 0⟩
def CAP_SIGCTL_LOSSY : Fld := ⟨0x1100020, 2, 1, 0⟩
def CAP_SIGPOST_POST : Fld := ⟨0x1100024, 0, 32, 0⟩
def CAP_SIGRP_RP : Fld := ⟨0x1100028, 0, 32, 0⟩
def CAP_SIGWP_WP : Fld := ⟨0x110002c, 0, 32, 0⟩
def CAP_MTRP_RP : Fld := ⟨0x1100038, 0, 32, 0⟩
def CAP_MTWP_WP : Fld := ⟨0x110003c, 0, 32, 0⟩
def CAP_MTCTL_START : Fld := ⟨0x1100030, 31, 1, 0⟩
def CAP_MTCTL_STOP : Fld := ⟨0x1100030, 30, 1, 0⟩
def CAP_MTCTL_WRAP : Fld := ⟨0x1100030, 13, 1, 0⟩
def CAP_MTCTL_SRCMASK : Fld := ⟨0x1100030, 11, 2, 1⟩
def CAP_MTCTL_STOP_EN : Fld := ⟨0x1100030, 10, 1, 0⟩
def CAP_MTCTL_STOP_CH : Fld := ⟨0x1100030, 8, 2, 0⟩
def CAP_MTCTL_START_EN : Fld := ⟨0x1100030, 7, 1, 0⟩
def CAP_MTCTL_START_CH : Fld := ⟨0x1100030, 5, 2, 0⟩
def CAP_TUCTL_EN (i : Nat) : Fld := ⟨0x1100100 + 0x20 * (i % 16), 31, 1, 0⟩
def CAP_TUCTL_ACT (i : Nat) : Fld := ⟨0x1100100 + 0x20 * (i % 16), 16, 8, 0⟩
def CAP_TUCTL_COND (i : Nat) : Fld := ⟨0x1100100 + 0x20 * (i % 16), 13, 3, 0⟩
def CAP_TUCTL_POL (i : Nat) : Fld := ⟨0x1100100 + 0x20 * (i % 16), 11, 2, 0⟩
def CAP_TUCTL_INV (i : Nat) : Fld := ⟨0x1100100 + 0x20 * (i % 16), 10, 1, 0⟩
def CAP_TUCTL_HMODE (i : Nat) : Fld := ⟨0x1100100 + 0x20 * (i % 16), 8, 2, 0⟩
def CAP_TUCTL_XCH (i : Nat) : Fld := ⟨0x1100100 + 0x20 * (i % 16), 4, 2, 0⟩
def CAP_TUSRC_KIND (i : Nat) : Fld := ⟨0x1100104 + 0x20 * (i % 16), 10, 1, 0⟩
def CAP_TUSRC_BANK (i : Nat) : Fld := ⟨0x1100104 + 0x20 * (i % 16), 7, 3, 0⟩
def CAP_TUSRC_PIN (i : Nat) : Fld := ⟨0x1100104 + 0x20 * (i % 16), 0, 6, 0⟩
def CAP_TUMIN_MIN (i : Nat) : Fld := ⟨0x1100108 + 0x20 * (i % 16), 0, 32, 0⟩
def CAP_TUMAX_MAX (i : Nat) : Fld := ⟨0x110010c + 0x20 * (i % 16), 0, 32, 0⟩
def CAP_TUTHR_HI (i : Nat) : Fld := ⟨0x1100110 + 0x20 * (i % 16), 16, 12, 0⟩
def CAP_TUTHR_LO (i : Nat) : Fld := ⟨0x1100110 + 0x20 * (i % 16), 0, 12, 0⟩
def CAP_TUHOLD_HOLD (i : Nat) : Fld := ⟨0x1100114 + 0x20 * (i % 16), 0, 32, 0⟩
def CAP_TUSTAT_DROP (i : Nat) : Fld := ⟨0x1100118 + 0x20 * (i % 16), 8, 8, 0⟩
def CAP_TUSTAT_CFGERR (i : Nat) : Fld := ⟨0x1100118 + 0x20 * (i % 16), 3, 1, 0⟩
def CAP_TUSTAT_WERR (i : Nat) : Fld := ⟨0x1100118 + 0x20 * (i % 16), 2, 1, 0⟩
def CAP_TUSTAT_STATE (i : Nat) : Fld := ⟨0x1100118 + 0x20 * (i % 16), 0, 2, 0⟩
def CAP_TUCNT_COUNT (i : Nat) : Fld := ⟨0x110011c + 0x20 * (i % 16), 0, 32, 0⟩
def DBG_CTL_SLEEPEMU : Fld := ⟨0x1200004, 3, 1, 1⟩
def DBG_CTL_PEEK : Fld := ⟨0x1200004, 0, 1, 1⟩
def DBG_STAT_WREF : Fld := ⟨0x1200008, 7, 1, 0⟩
def DBG_STAT_EXTEST : Fld := ⟨0x1200008, 6, 1, 0⟩
def DBG_STAT_ATTACHED : Fld := ⟨0x1200008, 5, 1, 0⟩
def DBG_STAT_HCAUSE : Fld := ⟨0x1200008, 3, 2, 0⟩
def DBG_EVT_LOCKOUT : Fld := ⟨0x120000c, 3, 1, 0⟩
def DBG_EVT_EXTEST : Fld := ⟨0x120000c, 2, 1, 0⟩
def DBG_EVT_HALT : Fld := ⟨0x120000c, 1, 1, 0⟩
def DBG_EVT_AUTH : Fld := ⟨0x120000c, 0, 1, 0⟩
def DBG_EVTEN_LOCKOUT : Fld := ⟨0x1200010, 3, 1, 1⟩
def DBG_EVTEN_EXTEST : Fld := ⟨0x1200010, 2, 1, 1⟩
def DBG_EVTEN_HALT : Fld := ⟨0x1200010, 1, 1, 1⟩
def DBG_EVTEN_AUTH : Fld := ⟨0x1200010, 0, 1, 1⟩
def DBG_AUTH_REQ : Fld := ⟨0x1200020, 31, 1, 0⟩
def DBG_AUTH_DROP : Fld := ⟨0x1200020, 30, 1, 0⟩
def DBG_AUTH_LEVEL : Fld := ⟨0x1200020, 28, 2, 0⟩
def DBG_AUTH_METHOD : Fld := ⟨0x1200020, 27, 1, 0⟩
def DBG_AUTH_RESULT : Fld := ⟨0x1200020, 16, 8, 255⟩
def DBG_AUTH_TAPLVL : Fld := ⟨0x1200020, 6, 2, 0⟩
def DBG_AUTH_HOSTLVL : Fld := ⟨0x1200020, 4, 2, 0⟩
def DBG_AUTH_FAILS : Fld := ⟨0x1200020, 0, 4, 0⟩
def DBG_RUN_HALT : Fld := ⟨0x1200024, 31, 1, 0⟩
def DBG_RUN_RESUME : Fld := ⟨0x1200024, 30, 1, 0⟩
def DBG_RUN_STEP : Fld := ⟨0x1200024, 29, 1, 0⟩
def DBG_AADDR0_ADDR : Fld := ⟨0x1200030, 0, 32, 0⟩
def DBG_AADDR1_ADDR : Fld := ⟨0x1200034, 0, 16, 0⟩
def DBG_ADATA_DATA : Fld := ⟨0x1200038, 0, 32, 0⟩
def DBG_ACMD_GO : Fld := ⟨0x120003c, 31, 1, 0⟩
def DBG_ACMD_WRITE : Fld := ⟨0x120003c, 30, 1, 0⟩
def DBG_ACMD_RESULT : Fld := ⟨0x120003c, 16, 8, 255⟩
def DBG_ARR_GO : Fld := ⟨0x1200040, 31, 1, 0⟩
def DBG_ARR_OP : Fld := ⟨0x1200040, 28, 3, 0⟩
def DBG_ARR_CLAUSE : Fld := ⟨0x1200040, 22, 6, 0⟩
def DBG_ARR_BP : Fld := ⟨0x1200040, 13, 9, 0⟩
def DBG_ARR_BANK : Fld := ⟨0x1200040, 8, 1, 0⟩
def DBG_ARR_ENTRY : Fld := ⟨0x1200040, 0, 8, 0⟩
def DBG_ARRD_RESULT : Fld := ⟨0x1200044, 24, 8, 255⟩
def DBG_ARRD_CQFILL : Fld := ⟨0x1200044, 18, 6, 0⟩
def DBG_ARRD_FORCED : Fld := ⟨0x1200044, 17, 1, 0⟩
def DBG_ARRD_CQBANK : Fld := ⟨0x1200044, 16, 1, 0⟩
def DBG_ARRD_CQDST : Fld := ⟨0x1200044, 8, 8, 0⟩
def DBG_ARRD_VALUE : Fld := ⟨0x1200044, 0, 2, 0⟩
def DBG_FCNT_COUNT : Fld := ⟨0x1200048, 0, 7, 0⟩
def DBG_PAIR_HALT (i : Nat) : Fld := ⟨0x1200060 + 0x4 * (i % 2), 31, 1, 0⟩
def DBG_PAIR_RESUME (i : Nat) : Fld := ⟨0x1200060 + 0x4 * (i % 2), 30, 1, 0⟩
def DBG_PAIR_STEP (i : Nat) : Fld := ⟨0x1200060 + 0x4 * (i % 2), 29, 1, 0⟩
def DBG_PAIR_WAITM (i : Nat) : Fld := ⟨0x1200060 + 0x4 * (i % 2), 8, 1, 0⟩
def DBG_PAIR_PRIV (i : Nat) : Fld := ⟨0x1200060 + 0x4 * (i % 2), 6, 2, 0⟩
def DBG_PAIR_HALTED (i : Nat) : Fld := ⟨0x1200060 + 0x4 * (i % 2), 5, 1, 0⟩
def DBG_CSRSEL_PAIR : Fld := ⟨0x1200070, 12, 1, 0⟩
def DBG_CSRSEL_CSR : Fld := ⟨0x1200070, 0, 12, 0⟩
def DBG_XT_OUT (i : Nat) : Fld := ⟨0x1200080 + 0x4 * (i % 4), 16, 5, 0⟩
def DBG_XT_IN (i : Nat) : Fld := ⟨0x1200080 + 0x4 * (i % 4), 0, 7, 0⟩

end F

/-- The registers of PLT. -/
def regsPLT : List RRow := [
  ⟨"PLT_ID", 0x0, 1, 0x0, 1, 0, [⟨31, 24, .ro, 0⟩, ⟨23, 16, .ro, 0⟩, ⟨15, 4, .rsv, 0⟩, ⟨3, 0, .ro, 0⟩]⟩,
  ⟨"PLT_CTL", 0x4, 1, 0x0, 1, 0, [⟨31, 12, .rsv, 0⟩, ⟨11, 11, .rw, 1⟩, ⟨10, 10, .rw, 1⟩, ⟨9, 9, .w1s, 0⟩, ⟨8, 8, .rsv, 0⟩, ⟨7, 4, .rw, 0⟩, ⟨3, 2, .rsv, 0⟩, ⟨1, 0, .rw, 1⟩]⟩,
  ⟨"PLT_STAT", 0x8, 1, 0x0, 1, 0, [⟨31, 24, .ro, 0⟩, ⟨23, 20, .ro, 0⟩, ⟨19, 16, .ro, 0⟩, ⟨15, 8, .rsv, 0⟩, ⟨7, 7, .ro, 0⟩, ⟨6, 6, .ro, 0⟩, ⟨5, 5, .ro, 0⟩, ⟨4, 4, .ro, 0⟩, ⟨3, 3, .ro, 0⟩, ⟨2, 2, .ro, 0⟩, ⟨1, 0, .ro, 1⟩]⟩,
  ⟨"PLT_EVT", 0xc, 1, 0x0, 1, 0, [⟨31, 10, .rsv, 0⟩, ⟨9, 9, .w1c, 0⟩, ⟨8, 8, .w1c, 0⟩, ⟨7, 7, .w1c, 0⟩, ⟨6, 6, .w1c, 0⟩, ⟨5, 5, .w1c, 0⟩, ⟨4, 4, .w1c, 0⟩, ⟨3, 3, .w1c, 0⟩, ⟨2, 2, .w1c, 0⟩, ⟨1, 1, .w1c, 0⟩, ⟨0, 0, .w1c, 0⟩]⟩,
  ⟨"PLT_EVTEN", 0x10, 1, 0x0, 1, 0, [⟨31, 10, .rsv, 0⟩, ⟨9, 9, .rw, 1⟩, ⟨8, 8, .rw, 1⟩, ⟨7, 7, .rw, 1⟩, ⟨6, 6, .rw, 1⟩, ⟨5, 5, .rw, 1⟩, ⟨4, 4, .rw, 1⟩, ⟨3, 3, .rw, 1⟩, ⟨2, 2, .rw, 1⟩, ⟨1, 1, .rw, 1⟩, ⟨0, 0, .rw, 1⟩]⟩,
  ⟨"PLT_PGREQ", 0x20, 1, 0x0, 1, 0, [⟨31, 31, .w1s, 0⟩, ⟨30, 30, .rw, 0⟩, ⟨29, 24, .rsv, 0⟩, ⟨23, 16, .ro, 255⟩, ⟨15, 5, .rsv, 0⟩, ⟨4, 0, .rw, 0⟩]⟩,
  ⟨"PLT_PGSTAT", 0x24, 1, 0x0, 1, 0, [⟨31, 30, .rsv, 0⟩, ⟨29, 0, .ro, 31⟩]⟩,
  ⟨"PLT_THR", 0x30, 1, 0x0, 1, 0, [⟨31, 28, .rsv, 0⟩, ⟨27, 16, .rw, 760⟩, ⟨15, 8, .rw, 110⟩, ⟨7, 0, .rw, 100⟩]⟩,
  ⟨"PLT_DROOP", 0x34, 1, 0x0, 1, 0, [⟨31, 8, .rsv, 0⟩, ⟨7, 0, .rw, 40⟩]⟩,
  ⟨"PLT_CAL", 0x40, 1, 0x0, 1, 0, [⟨31, 16, .rw, 1000⟩, ⟨15, 0, .rw, 100⟩]⟩,
  ⟨"PLT_PTCTL", 0x50, 1, 0x0, 1, 0, [⟨31, 3, .rsv, 0⟩, ⟨2, 2, .w1s, 0⟩, ⟨1, 0, .rw, 0⟩]⟩,
  ⟨"PLT_RST", 0x60, 1, 0x0, 1, 0, [⟨31, 16, .rsv, 0⟩, ⟨15, 0, .wo, 0⟩]⟩,
  ⟨"PLT_RSTCAUSE", 0x64, 1, 0x0, 1, 0, [⟨31, 16, .rsv, 0⟩, ⟨15, 8, .ro, 0⟩, ⟨7, 4, .rsv, 0⟩, ⟨3, 0, .ro, 1⟩]⟩]

/-- The registers of SEC. -/
def regsSEC : List RRow := [
  ⟨"SEC_ID", 0x100000, 1, 0x0, 1, 0, [⟨31, 24, .ro, 0⟩, ⟨23, 16, .ro, 0⟩, ⟨15, 4, .rsv, 0⟩, ⟨3, 0, .ro, 0⟩]⟩,
  ⟨"SEC_STAT", 0x100008, 1, 0x0, 1, 0, [⟨31, 16, .ro, 0⟩, ⟨15, 8, .ro, 0⟩, ⟨7, 4, .ro, 0⟩, ⟨3, 2, .rsv, 0⟩, ⟨1, 1, .ro, 0⟩, ⟨0, 0, .ro, 0⟩]⟩,
  ⟨"SEC_EVT", 0x10000c, 1, 0x0, 1, 0, [⟨31, 3, .rsv, 0⟩, ⟨2, 2, .w1c, 0⟩, ⟨1, 1, .w1c, 0⟩, ⟨0, 0, .w1c, 0⟩]⟩,
  ⟨"SEC_EVTEN", 0x100010, 1, 0x0, 1, 0, [⟨31, 3, .rsv, 0⟩, ⟨2, 2, .rw, 1⟩, ⟨1, 1, .rw, 1⟩, ⟨0, 0, .rw, 1⟩]⟩,
  ⟨"SEC_TOKCTL", 0x100020, 1, 0x0, 1, 0, [⟨31, 31, .w1s, 0⟩, ⟨30, 30, .w1s, 0⟩, ⟨29, 24, .rsv, 0⟩, ⟨23, 16, .ro, 255⟩, ⟨15, 4, .rsv, 0⟩, ⟨3, 0, .rw, 0⟩]⟩,
  ⟨"SEC_FUSEDATA", 0x100024, 1, 0x0, 1, 0, [⟨31, 0, .rw, 0⟩]⟩,
  ⟨"SEC_FUSEPGM", 0x100028, 1, 0x0, 1, 0, [⟨31, 31, .w1s, 0⟩, ⟨30, 24, .rsv, 0⟩, ⟨23, 16, .ro, 255⟩, ⟨15, 7, .rsv, 0⟩, ⟨6, 0, .rw, 0⟩]⟩]

/-- The registers of MGT. -/
def regsMGT : List RRow := [
  ⟨"MGT_ID", 0x200000, 1, 0x0, 1, 0, [⟨31, 24, .ro, 0⟩, ⟨23, 16, .ro, 0⟩, ⟨15, 4, .rsv, 0⟩, ⟨3, 0, .ro, 0⟩]⟩,
  ⟨"MGT_STAT", 0x200008, 1, 0x0, 1, 0, [⟨31, 16, .rsv, 0⟩, ⟨15, 8, .ro, 0⟩, ⟨7, 6, .ro, 0⟩, ⟨5, 5, .ro, 0⟩, ⟨4, 4, .ro, 0⟩, ⟨3, 3, .ro, 0⟩, ⟨2, 2, .ro, 0⟩, ⟨1, 0, .rsv, 0⟩]⟩,
  ⟨"MGT_EVT", 0x20000c, 1, 0x0, 1, 0, [⟨31, 5, .rsv, 0⟩, ⟨4, 4, .w1c, 0⟩, ⟨3, 3, .w1c, 0⟩, ⟨2, 2, .w1c, 0⟩, ⟨1, 1, .w1c, 0⟩, ⟨0, 0, .w1c, 0⟩]⟩,
  ⟨"MGT_EVTEN", 0x200010, 1, 0x0, 1, 0, [⟨31, 5, .rsv, 0⟩, ⟨4, 4, .rw, 1⟩, ⟨3, 3, .rw, 1⟩, ⟨2, 2, .rw, 1⟩, ⟨1, 1, .rw, 1⟩, ⟨0, 0, .rw, 1⟩]⟩,
  ⟨"MGT_CODEBASE", 0x200020, 1, 0x0, 1, 0, [⟨31, 28, .rsv, 0⟩, ⟨27, 4, .rw, 0⟩, ⟨3, 0, .rsv, 0⟩]⟩,
  ⟨"MGT_WDT", 0x200030, 2, 0x8, 1, 0, [⟨31, 31, .w1s, 0⟩, ⟨30, 24, .rsv, 0⟩, ⟨23, 0, .rw, 1000000⟩]⟩,
  ⟨"MGT_WDKICK", 0x200034, 2, 0x8, 1, 0, [⟨31, 16, .rsv, 0⟩, ⟨15, 0, .wo, 0⟩]⟩,
  ⟨"MGT_SVC", 0x200040, 1, 0x0, 1, 0, [⟨31, 4, .rsv, 0⟩, ⟨3, 0, .w1s, 0⟩]⟩,
  ⟨"MGT_FPCTL", 0x200044, 1, 0x0, 1, 0, [⟨31, 31, .w1s, 0⟩, ⟨30, 24, .rsv, 0⟩, ⟨23, 16, .ro, 255⟩, ⟨15, 0, .rsv, 0⟩]⟩,
  ⟨"MGT_SWAPCTL", 0x200058, 1, 0x0, 1, 0, [⟨31, 31, .w1s, 0⟩, ⟨30, 24, .rsv, 0⟩, ⟨23, 16, .ro, 255⟩, ⟨15, 0, .rsv, 0⟩]⟩,
  ⟨"MGT_FLCMD", 0x200048, 1, 0x0, 1, 0, [⟨31, 31, .w1s, 0⟩, ⟨30, 28, .rw, 0⟩, ⟨27, 24, .rsv, 0⟩, ⟨23, 16, .ro, 255⟩, ⟨15, 0, .rsv, 0⟩]⟩,
  ⟨"MGT_FLADDR", 0x20004c, 1, 0x0, 1, 0, [⟨31, 28, .rsv, 0⟩, ⟨27, 0, .rw, 0⟩]⟩,
  ⟨"MGT_FLSRC", 0x200050, 1, 0x0, 1, 0, [⟨31, 21, .rsv, 0⟩, ⟨20, 0, .rw, 0⟩]⟩,
  ⟨"MGT_FPU", 0x200100, 16, 0x4, 1, 0, [⟨31, 31, .rw, 0⟩, ⟨30, 30, .rw, 0⟩, ⟨29, 26, .rsv, 0⟩, ⟨25, 5, .rw, 0⟩, ⟨4, 0, .rsv, 0⟩]⟩]

/-- The registers of HIF. -/
def regsHIF : List RRow := [
  ⟨"HIF_ID", 0x300000, 1, 0x0, 1, 0, [⟨31, 24, .ro, 0⟩, ⟨23, 16, .ro, 0⟩, ⟨15, 4, .rsv, 0⟩, ⟨3, 0, .ro, 0⟩]⟩,
  ⟨"HIF_STAT", 0x300008, 1, 0x0, 1, 0, [⟨31, 10, .rsv, 0⟩, ⟨9, 9, .ro, 0⟩, ⟨8, 8, .ro, 0⟩, ⟨7, 4, .ro, 0⟩, ⟨3, 2, .ro, 0⟩, ⟨1, 0, .rsv, 0⟩]⟩,
  ⟨"HIF_EVT", 0x30000c, 1, 0x0, 1, 0, [⟨31, 6, .rsv, 0⟩, ⟨5, 5, .w1c, 0⟩, ⟨4, 4, .w1c, 0⟩, ⟨3, 3, .w1c, 0⟩, ⟨2, 2, .w1c, 0⟩, ⟨1, 1, .w1c, 0⟩, ⟨0, 0, .w1c, 0⟩]⟩,
  ⟨"HIF_EVTEN", 0x300010, 1, 0x0, 1, 0, [⟨31, 6, .rsv, 0⟩, ⟨5, 5, .rw, 1⟩, ⟨4, 4, .rw, 1⟩, ⟨3, 3, .rw, 1⟩, ⟨2, 2, .rw, 1⟩, ⟨1, 1, .rw, 1⟩, ⟨0, 0, .rw, 1⟩]⟩,
  ⟨"HIF_AWIN", 0x300040, 16, 0x4, 1, 0, [⟨31, 31, .rw, 0⟩, ⟨30, 18, .rsv, 0⟩, ⟨17, 0, .rw, 0⟩]⟩,
  ⟨"HIF_EVCFG", 0x300100, 4, 0x10, 1, 0, [⟨31, 31, .rw, 0⟩, ⟨30, 25, .rw, 0⟩, ⟨24, 20, .rw, 6⟩, ⟨19, 12, .rw, 0⟩, ⟨11, 0, .rw, 0⟩]⟩,
  ⟨"HIF_EVPROD", 0x300104, 4, 0x10, 1, 0, [⟨31, 17, .rsv, 0⟩, ⟨16, 16, .ro, 0⟩, ⟨15, 0, .ro, 0⟩]⟩,
  ⟨"HIF_EVCONS", 0x300108, 4, 0x10, 1, 0, [⟨31, 17, .rsv, 0⟩, ⟨16, 16, .ro, 0⟩, ⟨15, 0, .ro, 0⟩]⟩,
  ⟨"HIF_EVROUTE", 0x300140, 1, 0x0, 1, 0, [⟨31, 12, .rsv, 0⟩, ⟨11, 0, .rw, 0⟩]⟩,
  ⟨"HIF_EVSTAT", 0x300144, 1, 0x0, 1, 0, [⟨31, 25, .rsv, 0⟩, ⟨24, 16, .ro, 0⟩, ⟨15, 8, .rsv, 0⟩, ⟨7, 4, .ro, 0⟩, ⟨3, 0, .ro, 0⟩]⟩,
  ⟨"HIF_DCTL", 0x300200, 16, 0x10, 1, 0, [⟨31, 31, .rw, 0⟩, ⟨30, 30, .rw, 0⟩, ⟨29, 26, .rsv, 0⟩, ⟨25, 20, .rw, 0⟩, ⟨19, 15, .rw, 4⟩, ⟨14, 0, .rsv, 0⟩]⟩,
  ⟨"HIF_DSTAT", 0x300204, 16, 0x10, 1, 0, [⟨31, 24, .ro, 0⟩, ⟨23, 20, .rsv, 0⟩, ⟨19, 17, .ro, 0⟩, ⟨16, 16, .ro, 0⟩, ⟨15, 0, .ro, 0⟩]⟩,
  ⟨"HIF_CNT_PWERR", 0x300180, 1, 0x0, 1, 0, [⟨31, 0, .ro, 0⟩]⟩,
  ⟨"HIF_CNT_CPLERR", 0x300184, 1, 0x0, 1, 0, [⟨31, 0, .ro, 0⟩]⟩,
  ⟨"HIF_CNT_DBERR", 0x300188, 1, 0x0, 1, 0, [⟨31, 0, .ro, 0⟩]⟩,
  ⟨"HIF_CNT_EVBLK", 0x30018c, 1, 0x0, 1, 0, [⟨31, 0, .ro, 0⟩]⟩]

/-- The registers of NOC. -/
def regsNOC : List RRow := [
  ⟨"NOC_ID", 0x400000, 1, 0x0, 1, 0, [⟨31, 24, .ro, 0⟩, ⟨23, 16, .ro, 0⟩, ⟨15, 4, .rsv, 0⟩, ⟨3, 0, .ro, 0⟩]⟩,
  ⟨"NOC_STAT", 0x400008, 1, 0x0, 1, 0, [⟨31, 4, .rsv, 0⟩, ⟨3, 3, .ro, 0⟩, ⟨2, 2, .ro, 0⟩, ⟨1, 1, .ro, 0⟩, ⟨0, 0, .ro, 0⟩]⟩,
  ⟨"NOC_EVT", 0x40000c, 1, 0x0, 1, 0, [⟨31, 7, .rsv, 0⟩, ⟨6, 6, .w1c, 0⟩, ⟨5, 5, .w1c, 0⟩, ⟨4, 4, .w1c, 0⟩, ⟨3, 3, .w1c, 0⟩, ⟨2, 2, .w1c, 0⟩, ⟨1, 1, .w1c, 0⟩, ⟨0, 0, .w1c, 0⟩]⟩,
  ⟨"NOC_EVTEN", 0x400010, 1, 0x0, 1, 0, [⟨31, 7, .rsv, 0⟩, ⟨6, 6, .rw, 1⟩, ⟨5, 5, .rw, 1⟩, ⟨4, 4, .rw, 1⟩, ⟨3, 3, .rw, 1⟩, ⟨2, 2, .rw, 1⟩, ⟨1, 1, .rw, 1⟩, ⟨0, 0, .rw, 1⟩]⟩,
  ⟨"NOC_AGREE", 0x400018, 1, 0x0, 1, 0, [⟨31, 31, .ro, 0⟩, ⟨30, 24, .rsv, 0⟩, ⟨23, 16, .ro, 255⟩, ⟨15, 8, .rsv, 0⟩, ⟨7, 0, .rw, 0⟩]⟩,
  ⟨"NOC_MODE", 0x400020, 1, 0x0, 1, 0, [⟨31, 17, .rsv, 0⟩, ⟨16, 16, .rw, 0⟩, ⟨15, 12, .rsv, 0⟩, ⟨11, 8, .rw, 0⟩, ⟨7, 0, .rw, 201⟩]⟩,
  ⟨"NOC_TIME", 0x400024, 1, 0x0, 1, 0, [⟨31, 8, .rw, 4688⟩, ⟨7, 0, .rw, 16⟩]⟩,
  ⟨"NOC_MODEA", 0x400028, 1, 0x0, 1, 0, [⟨31, 17, .rsv, 0⟩, ⟨16, 16, .ro, 0⟩, ⟨15, 12, .rsv, 0⟩, ⟨11, 8, .ro, 0⟩, ⟨7, 0, .ro, 201⟩]⟩,
  ⟨"NOC_TIMEA", 0x40002c, 1, 0x0, 1, 0, [⟨31, 8, .ro, 4688⟩, ⟨7, 0, .ro, 16⟩]⟩,
  ⟨"NOC_RT", 0x400040, 1, 0x0, 1, 0, [⟨31, 31, .w1s, 0⟩, ⟨30, 30, .rw, 0⟩, ⟨29, 24, .rsv, 0⟩, ⟨23, 16, .ro, 255⟩, ⟨15, 0, .rsv, 0⟩]⟩,
  ⟨"NOC_RTSEL", 0x400044, 1, 0x0, 1, 0, [⟨31, 7, .rsv, 0⟩, ⟨6, 0, .rw, 0⟩]⟩,
  ⟨"NOC_OLDCNT", 0x400048, 1, 0x0, 1, 0, [⟨31, 14, .rsv, 0⟩, ⟨13, 0, .ro, 0⟩]⟩,
  ⟨"NOC_RIMP", 0x400070, 1, 0x0, 1, 0, [⟨31, 12, .rsv, 0⟩, ⟨11, 0, .rw, 0⟩]⟩,
  ⟨"NOC_CNT_CE", 0x400050, 1, 0x0, 1, 0, [⟨31, 0, .ro, 0⟩]⟩,
  ⟨"NOC_CNT_UE", 0x400054, 1, 0x0, 1, 0, [⟨31, 0, .ro, 0⟩]⟩,
  ⟨"NOC_CNT_CRC", 0x400058, 1, 0x0, 1, 0, [⟨31, 0, .ro, 0⟩]⟩,
  ⟨"NOC_CNT_TMO", 0x40005c, 1, 0x0, 1, 0, [⟨31, 0, .ro, 0⟩]⟩,
  ⟨"NOC_CNT_ROUTE", 0x400060, 1, 0x0, 1, 0, [⟨31, 0, .ro, 0⟩]⟩,
  ⟨"NOC_CNT_LATE", 0x400064, 1, 0x0, 1, 0, [⟨31, 0, .ro, 0⟩]⟩]

/-- The registers of SEQ. -/
def regsSEQ : List RRow := [
  ⟨"SEQ_ID", 0x500000, 1, 0x0, 1, 0, [⟨31, 24, .ro, 0⟩, ⟨23, 16, .ro, 0⟩, ⟨15, 4, .rsv, 0⟩, ⟨3, 0, .ro, 0⟩]⟩,
  ⟨"SEQ_CTL", 0x500004, 1, 0x0, 1, 0, [⟨31, 5, .rsv, 0⟩, ⟨4, 4, .rw, 0⟩, ⟨3, 3, .w1s, 0⟩, ⟨2, 2, .w1s, 0⟩, ⟨1, 1, .w1s, 0⟩, ⟨0, 0, .w1s, 0⟩]⟩,
  ⟨"SEQ_STAT", 0x500008, 1, 0x0, 1, 0, [⟨31, 12, .rsv, 0⟩, ⟨11, 11, .ro, 0⟩, ⟨10, 10, .ro, 0⟩, ⟨9, 4, .ro, 0⟩, ⟨3, 3, .ro, 0⟩, ⟨2, 0, .ro, 0⟩]⟩,
  ⟨"SEQ_EVT", 0x50000c, 1, 0x0, 1, 0, [⟨31, 9, .rsv, 0⟩, ⟨8, 8, .w1c, 0⟩, ⟨7, 7, .w1c, 0⟩, ⟨6, 6, .w1c, 0⟩, ⟨5, 5, .w1c, 0⟩, ⟨4, 4, .w1c, 0⟩, ⟨3, 3, .w1c, 0⟩, ⟨2, 2, .w1c, 0⟩, ⟨1, 1, .w1c, 0⟩, ⟨0, 0, .w1c, 0⟩]⟩,
  ⟨"SEQ_EVTEN", 0x500010, 1, 0x0, 1, 0, [⟨31, 9, .rsv, 0⟩, ⟨8, 8, .rw, 1⟩, ⟨7, 7, .rw, 1⟩, ⟨6, 6, .rw, 1⟩, ⟨5, 5, .rw, 1⟩, ⟨4, 4, .rw, 1⟩, ⟨3, 3, .rw, 1⟩, ⟨2, 2, .rw, 1⟩, ⟨1, 1, .rw, 1⟩, ⟨0, 0, .rw, 1⟩]⟩,
  ⟨"SEQ_FENCE", 0x500020, 1, 0x0, 1, 0, [⟨31, 0, .rw, 65536⟩]⟩,
  ⟨"SEQ_DIAM", 0x500024, 1, 0x0, 1, 0, [⟨31, 18, .rsv, 0⟩, ⟨17, 0, .rw, 0⟩]⟩,
  ⟨"SEQ_ELLIM", 0x500028, 1, 0x0, 1, 0, [⟨31, 24, .rsv, 0⟩, ⟨23, 0, .rw, 10000⟩]⟩,
  ⟨"SEQ_ELLCAUSE", 0x50002c, 1, 0x0, 1, 0, [⟨31, 16, .rsv, 0⟩, ⟨15, 0, .ro, 0⟩]⟩,
  ⟨"SEQ_ELLLAST", 0x500030, 1, 0x0, 1, 0, [⟨31, 8, .rsv, 0⟩, ⟨7, 0, .ro, 0⟩]⟩,
  ⟨"SEQ_CKPT", 0x500034, 1, 0x0, 1, 0, [⟨31, 24, .rsv, 0⟩, ⟨23, 0, .rw, 0⟩]⟩,
  ⟨"SEQ_CKPT_STAT", 0x500038, 1, 0x0, 1, 0, [⟨31, 2, .rsv, 0⟩, ⟨1, 1, .ro, 0⟩, ⟨0, 0, .ro, 0⟩]⟩]

/-- The registers of SCH. -/
def regsSCH : List RRow := [
  ⟨"SCH_ID", 0x600000, 1, 0x0, 1, 0, [⟨31, 24, .ro, 0⟩, ⟨23, 16, .ro, 0⟩, ⟨15, 4, .rsv, 0⟩, ⟨3, 0, .ro, 0⟩]⟩,
  ⟨"SCH_STAT", 0x600008, 1, 0x0, 1, 0, [⟨31, 2, .rsv, 0⟩, ⟨1, 1, .ro, 0⟩, ⟨0, 0, .ro, 0⟩]⟩,
  ⟨"SCH_EVT", 0x60000c, 1, 0x0, 1, 0, [⟨31, 9, .rsv, 0⟩, ⟨8, 8, .w1c, 0⟩, ⟨7, 7, .w1c, 0⟩, ⟨6, 6, .w1c, 0⟩, ⟨5, 5, .w1c, 0⟩, ⟨4, 4, .w1c, 0⟩, ⟨3, 3, .w1c, 0⟩, ⟨2, 2, .w1c, 0⟩, ⟨1, 1, .w1c, 0⟩, ⟨0, 0, .w1c, 0⟩]⟩,
  ⟨"SCH_EVTEN", 0x600010, 1, 0x0, 1, 0, [⟨31, 9, .rsv, 0⟩, ⟨8, 8, .rw, 1⟩, ⟨7, 7, .rw, 1⟩, ⟨6, 6, .rw, 1⟩, ⟨5, 5, .rw, 1⟩, ⟨4, 4, .rw, 1⟩, ⟨3, 3, .rw, 1⟩, ⟨2, 2, .rw, 1⟩, ⟨1, 1, .rw, 1⟩, ⟨0, 0, .rw, 1⟩]⟩,
  ⟨"SCH_SCRUB", 0x600020, 1, 0x0, 1, 0, [⟨31, 16, .rsv, 0⟩, ⟨15, 0, .rw, 16⟩]⟩,
  ⟨"SCH_ROWHOT", 0x600024, 1, 0x0, 1, 0, [⟨31, 8, .rsv, 0⟩, ⟨7, 0, .rw, 8⟩]⟩,
  ⟨"SCH_PCHK", 0x600028, 1, 0x0, 1, 0, [⟨31, 1, .rsv, 0⟩, ⟨0, 0, .w1s, 0⟩]⟩,
  ⟨"SCH_RMAP", 0x600030, 1, 0x0, 1, 0, [⟨31, 31, .w1s, 0⟩, ⟨30, 28, .rsv, 0⟩, ⟨27, 20, .ro, 255⟩, ⟨19, 14, .rw, 0⟩, ⟨13, 0, .rw, 0⟩]⟩,
  ⟨"SCH_PATCH", 0x600040, 1, 0x0, 1, 0, [⟨31, 31, .w1s, 0⟩, ⟨30, 24, .rsv, 0⟩, ⟨23, 16, .ro, 255⟩, ⟨15, 8, .ro, 0⟩, ⟨7, 6, .rsv, 0⟩, ⟨5, 0, .ro, 0⟩]⟩,
  ⟨"SCH_CNT_CE", 0x600050, 1, 0x0, 1, 0, [⟨31, 0, .ro, 0⟩]⟩,
  ⟨"SCH_CNT_UE", 0x600054, 1, 0x0, 1, 0, [⟨31, 0, .ro, 0⟩]⟩,
  ⟨"SCH_CNT_SCRUB", 0x600058, 1, 0x0, 1, 0, [⟨31, 0, .ro, 0⟩]⟩,
  ⟨"SCH_LOAD", 0x600060, 1, 0x0, 1, 0, [⟨31, 31, .ro, 0⟩, ⟨30, 24, .rsv, 0⟩, ⟨23, 16, .ro, 255⟩, ⟨15, 8, .ro, 0⟩, ⟨7, 4, .rsv, 0⟩, ⟨3, 0, .ro, 0⟩]⟩,
  ⟨"SCH_BOOT", 0x600068, 1, 0x0, 1, 0, [⟨31, 16, .ro, 0⟩, ⟨15, 12, .rsv, 0⟩, ⟨11, 8, .ro, 0⟩, ⟨7, 3, .rsv, 0⟩, ⟨2, 2, .w1s, 0⟩, ⟨1, 0, .ro, 0⟩]⟩,
  ⟨"SCH_LDEVT", 0x60006c, 1, 0x0, 1, 0, [⟨31, 18, .rsv, 0⟩, ⟨17, 17, .w1c, 0⟩, ⟨16, 16, .w1c, 0⟩, ⟨15, 12, .rsv, 0⟩, ⟨11, 11, .w1c, 0⟩, ⟨10, 10, .w1c, 0⟩, ⟨9, 9, .w1c, 0⟩, ⟨8, 8, .w1c, 0⟩, ⟨7, 7, .w1c, 0⟩, ⟨6, 6, .w1c, 0⟩, ⟨5, 5, .w1c, 0⟩, ⟨4, 4, .w1c, 0⟩, ⟨3, 3, .w1c, 0⟩, ⟨2, 2, .w1c, 0⟩, ⟨1, 1, .w1c, 0⟩, ⟨0, 0, .w1c, 0⟩]⟩,
  ⟨"SCH_LDEVTEN", 0x600070, 1, 0x0, 1, 0, [⟨31, 18, .rsv, 0⟩, ⟨17, 17, .rw, 1⟩, ⟨16, 16, .rw, 1⟩, ⟨15, 12, .rsv, 0⟩, ⟨11, 11, .rw, 1⟩, ⟨10, 10, .rw, 1⟩, ⟨9, 9, .rw, 1⟩, ⟨8, 8, .rw, 1⟩, ⟨7, 7, .rw, 1⟩, ⟨6, 6, .rw, 1⟩, ⟨5, 5, .rw, 1⟩, ⟨4, 4, .rw, 1⟩, ⟨3, 3, .rw, 1⟩, ⟨2, 2, .rw, 1⟩, ⟨1, 1, .rw, 1⟩, ⟨0, 0, .rw, 1⟩]⟩,
  ⟨"SCH_PU", 0x600100, 64, 0x4, 1, 0, [⟨31, 30, .rw, 0⟩, ⟨29, 24, .rw, 0⟩, ⟨23, 23, .rw, 0⟩, ⟨22, 21, .rsv, 0⟩, ⟨20, 11, .rw, 0⟩, ⟨10, 0, .rw, 0⟩]⟩]

/-- The registers of CLS. -/
def regsCLS : List RRow := [
  ⟨"CLS_ID", 0x800000, 1, 0x0, 1, 0, [⟨31, 24, .ro, 0⟩, ⟨23, 16, .ro, 0⟩, ⟨15, 4, .rsv, 0⟩, ⟨3, 0, .ro, 0⟩]⟩,
  ⟨"CLSC_ID", 0x810000, 64, 0x10000, 1, 0, [⟨31, 24, .ro, 0⟩, ⟨23, 16, .ro, 0⟩, ⟨15, 4, .rsv, 0⟩, ⟨3, 0, .ro, 0⟩]⟩,
  ⟨"CLS_LOAD0", 0x800020, 1, 0x0, 1, 0, [⟨31, 0, .ro, 0⟩]⟩,
  ⟨"CLS_LOAD1", 0x800024, 1, 0x0, 1, 0, [⟨31, 0, .ro, 0⟩]⟩,
  ⟨"CLS_PASS0", 0x800028, 1, 0x0, 1, 0, [⟨31, 0, .ro, 0⟩]⟩,
  ⟨"CLS_PASS1", 0x80002c, 1, 0x0, 1, 0, [⟨31, 0, .ro, 0⟩]⟩,
  ⟨"CLS_EVTSUM0", 0x800030, 1, 0x0, 1, 0, [⟨31, 0, .ro, 0⟩]⟩,
  ⟨"CLS_EVTSUM1", 0x800034, 1, 0x0, 1, 0, [⟨31, 0, .ro, 0⟩]⟩,
  ⟨"CLS_STAT", 0x810008, 64, 0x10000, 1, 0, [⟨31, 5, .rsv, 0⟩, ⟨4, 4, .ro, 0⟩, ⟨3, 3, .ro, 0⟩, ⟨2, 2, .rsv, 0⟩, ⟨1, 1, .ro, 0⟩, ⟨0, 0, .ro, 0⟩]⟩,
  ⟨"CLS_EVT", 0x81000c, 64, 0x10000, 1, 0, [⟨31, 7, .rsv, 0⟩, ⟨6, 6, .w1c, 0⟩, ⟨5, 5, .w1c, 0⟩, ⟨4, 4, .w1c, 0⟩, ⟨3, 3, .w1c, 0⟩, ⟨2, 2, .w1c, 0⟩, ⟨1, 1, .w1c, 0⟩, ⟨0, 0, .w1c, 0⟩]⟩,
  ⟨"CLS_EVTEN", 0x810010, 64, 0x10000, 1, 0, [⟨31, 7, .rsv, 0⟩, ⟨6, 6, .rw, 1⟩, ⟨5, 5, .rw, 1⟩, ⟨4, 4, .rw, 1⟩, ⟨3, 3, .rw, 1⟩, ⟨2, 2, .rw, 1⟩, ⟨1, 1, .rw, 1⟩, ⟨0, 0, .rw, 1⟩]⟩,
  ⟨"CLS_SPARE", 0x810020, 64, 0x10000, 1, 0, [⟨31, 16, .rsv, 0⟩, ⟨15, 8, .ro, 255⟩, ⟨7, 7, .w1s, 0⟩, ⟨6, 0, .rw, 127⟩]⟩,
  ⟨"CLS_PMAP", 0x810024, 64, 0x10000, 1, 0, [⟨31, 8, .rsv, 0⟩, ⟨7, 7, .ro, 0⟩, ⟨6, 0, .ro, 0⟩]⟩,
  ⟨"CLS_CNT_DFIX", 0x810040, 64, 0x10000, 1, 0, [⟨31, 0, .ro, 0⟩]⟩,
  ⟨"CLS_CNT_DUE", 0x810044, 64, 0x10000, 1, 0, [⟨31, 0, .ro, 0⟩]⟩,
  ⟨"CLS_CNT_VSPAR", 0x810048, 64, 0x10000, 1, 0, [⟨31, 0, .ro, 0⟩]⟩,
  ⟨"CLS_CNT_CQPAR", 0x81004c, 64, 0x10000, 1, 0, [⟨31, 0, .ro, 0⟩]⟩,
  ⟨"CLS_CNT_CHECK", 0x810050, 64, 0x10000, 1, 0, [⟨31, 0, .ro, 0⟩]⟩,
  ⟨"CLS_CNT_CHKDROP", 0x810054, 64, 0x10000, 1, 0, [⟨31, 0, .ro, 0⟩]⟩,
  ⟨"CLS_PXW", 0x810060, 64, 0x10000, 4, 4, [⟨31, 0, .ro, 0⟩]⟩]

/-- The registers of FAB. -/
def regsFAB : List RRow := [
  ⟨"FAB_ID", 0xd00000, 1, 0x0, 1, 0, [⟨31, 24, .ro, 0⟩, ⟨23, 16, .ro, 0⟩, ⟨15, 4, .rsv, 0⟩, ⟨3, 0, .ro, 0⟩]⟩,
  ⟨"FAB_STAT", 0xd00008, 1, 0x0, 1, 0, [⟨31, 2, .rsv, 0⟩, ⟨1, 1, .ro, 0⟩, ⟨0, 0, .ro, 0⟩]⟩,
  ⟨"FAB_EVT", 0xd0000c, 1, 0x0, 1, 0, [⟨31, 6, .rsv, 0⟩, ⟨5, 5, .w1c, 0⟩, ⟨4, 4, .w1c, 0⟩, ⟨3, 3, .w1c, 0⟩, ⟨2, 2, .w1c, 0⟩, ⟨1, 1, .w1c, 0⟩, ⟨0, 0, .w1c, 0⟩]⟩,
  ⟨"FAB_EVTEN", 0xd00010, 1, 0x0, 1, 0, [⟨31, 6, .rsv, 0⟩, ⟨5, 5, .rw, 1⟩, ⟨4, 4, .rw, 1⟩, ⟨3, 3, .rw, 1⟩, ⟨2, 2, .rw, 1⟩, ⟨1, 1, .rw, 1⟩, ⟨0, 0, .rw, 1⟩]⟩,
  ⟨"FAB_AGREE", 0xd00018, 1, 0x0, 1, 0, [⟨31, 31, .ro, 0⟩, ⟨30, 24, .rsv, 0⟩, ⟨23, 16, .ro, 255⟩, ⟨15, 8, .rsv, 0⟩, ⟨7, 0, .rw, 0⟩]⟩,
  ⟨"FAB_ISO", 0xd00020, 1, 0x0, 1, 0, [⟨31, 24, .rsv, 0⟩, ⟨23, 16, .ro, 255⟩, ⟨15, 11, .rsv, 0⟩, ⟨10, 10, .w1s, 0⟩, ⟨9, 9, .w1s, 0⟩, ⟨8, 8, .rw, 0⟩, ⟨7, 6, .rsv, 0⟩, ⟨5, 0, .rw, 0⟩]⟩,
  ⟨"FAB_ISOMASK0", 0xd00024, 1, 0x0, 1, 0, [⟨31, 0, .ro, 0⟩]⟩,
  ⟨"FAB_ISOMASK1", 0xd00028, 1, 0x0, 1, 0, [⟨31, 0, .ro, 0⟩]⟩,
  ⟨"FAB_XMASK0", 0xd0002c, 1, 0x0, 1, 0, [⟨31, 0, .ro, 0⟩]⟩,
  ⟨"FAB_XMASK1", 0xd00030, 1, 0x0, 1, 0, [⟨31, 0, .ro, 0⟩]⟩,
  ⟨"FAB_SPSEL", 0xd00040, 1, 0x0, 1, 0, [⟨31, 8, .rsv, 0⟩, ⟨7, 0, .rw, 0⟩]⟩,
  ⟨"FAB_SPTX", 0xd00044, 1, 0x0, 1, 0, [⟨31, 8, .rsv, 0⟩, ⟨7, 7, .rw, 0⟩, ⟨6, 6, .rsv, 0⟩, ⟨5, 0, .rw, 0⟩]⟩,
  ⟨"FAB_SPRX", 0xd00048, 1, 0x0, 1, 0, [⟨31, 8, .rsv, 0⟩, ⟨7, 7, .rw, 0⟩, ⟨6, 6, .rsv, 0⟩, ⟨5, 0, .rw, 0⟩]⟩]

/-- The registers of LNK. -/
def regsLNK : List RRow := [
  ⟨"LNK_ID", 0xe00000, 1, 0x0, 1, 0, [⟨31, 24, .ro, 0⟩, ⟨23, 16, .ro, 0⟩, ⟨15, 4, .rsv, 0⟩, ⟨3, 0, .ro, 0⟩]⟩,
  ⟨"LNKL_ID", 0xe10000, 32, 0x4000, 1, 0, [⟨31, 24, .ro, 0⟩, ⟨23, 16, .ro, 0⟩, ⟨15, 4, .rsv, 0⟩, ⟨3, 0, .ro, 0⟩]⟩,
  ⟨"LNK_UPMASK", 0xe00020, 1, 0x0, 1, 0, [⟨31, 0, .ro, 0⟩]⟩,
  ⟨"LNK_ACTMASK", 0xe00024, 1, 0x0, 1, 0, [⟨31, 0, .ro, 0⟩]⟩,
  ⟨"LNK_DEVNUM", 0xe00028, 1, 0x0, 1, 0, [⟨31, 31, .rw, 0⟩, ⟨30, 30, .rw, 0⟩, ⟨29, 29, .w1s, 0⟩, ⟨28, 18, .rsv, 0⟩, ⟨17, 0, .rw, 0⟩]⟩,
  ⟨"LNK_HOPS", 0xe0002c, 1, 0x0, 1, 0, [⟨31, 18, .rsv, 0⟩, ⟨17, 0, .ro, 0⟩]⟩,
  ⟨"LNKG_EVT", 0xe0000c, 1, 0x0, 1, 0, [⟨31, 1, .rsv, 0⟩, ⟨0, 0, .w1c, 0⟩]⟩,
  ⟨"LNKG_EVTEN", 0xe00010, 1, 0x0, 1, 0, [⟨31, 1, .rsv, 0⟩, ⟨0, 0, .rw, 1⟩]⟩,
  ⟨"LNK_CTL", 0xe10004, 32, 0x4000, 1, 0, [⟨31, 3, .rsv, 0⟩, ⟨2, 2, .rw, 1⟩, ⟨1, 1, .rw, 0⟩, ⟨0, 0, .rw, 0⟩]⟩,
  ⟨"LNK_STAT", 0xe10008, 32, 0x4000, 1, 0, [⟨31, 20, .rsv, 0⟩, ⟨19, 18, .ro, 2⟩, ⟨17, 17, .ro, 0⟩, ⟨16, 16, .ro, 0⟩, ⟨15, 8, .ro, 0⟩, ⟨7, 3, .rsv, 0⟩, ⟨2, 0, .ro, 0⟩]⟩,
  ⟨"LNK_EVT", 0xe1000c, 32, 0x4000, 1, 0, [⟨31, 9, .rsv, 0⟩, ⟨8, 8, .w1c, 0⟩, ⟨7, 7, .w1c, 0⟩, ⟨6, 6, .w1c, 0⟩, ⟨5, 5, .w1c, 0⟩, ⟨4, 4, .w1c, 0⟩, ⟨3, 3, .w1c, 0⟩, ⟨2, 2, .w1c, 0⟩, ⟨1, 1, .w1c, 0⟩, ⟨0, 0, .w1c, 0⟩]⟩,
  ⟨"LNK_EVTEN", 0xe10010, 32, 0x4000, 1, 0, [⟨31, 9, .rsv, 0⟩, ⟨8, 8, .rw, 1⟩, ⟨7, 7, .rw, 1⟩, ⟨6, 6, .rw, 1⟩, ⟨5, 5, .rw, 1⟩, ⟨4, 4, .rw, 1⟩, ⟨3, 3, .rw, 1⟩, ⟨2, 2, .rw, 1⟩, ⟨1, 1, .rw, 1⟩, ⟨0, 0, .rw, 1⟩]⟩,
  ⟨"LNK_SPARE", 0xe10020, 32, 0x4000, 1, 0, [⟨31, 31, .w1s, 0⟩, ⟨30, 24, .rsv, 0⟩, ⟨23, 16, .ro, 255⟩, ⟨15, 2, .rsv, 0⟩, ⟨1, 0, .rw, 0⟩]⟩,
  ⟨"LNK_XT", 0xe10024, 32, 0x4000, 1, 0, [⟨31, 8, .rsv, 0⟩, ⟨7, 4, .rw, 15⟩, ⟨3, 0, .rw, 15⟩]⟩,
  ⟨"LNK_EYETHR", 0xe10028, 32, 0x4000, 1, 0, [⟨31, 16, .rsv, 0⟩, ⟨15, 8, .rw, 16⟩, ⟨7, 0, .rw, 20⟩]⟩,
  ⟨"LNK_CNT_FECC", 0xe10040, 32, 0x4000, 1, 0, [⟨31, 0, .ro, 0⟩]⟩,
  ⟨"LNK_CNT_FECU", 0xe10044, 32, 0x4000, 1, 0, [⟨31, 0, .ro, 0⟩]⟩,
  ⟨"LNK_CNT_CRC", 0xe10048, 32, 0x4000, 1, 0, [⟨31, 0, .ro, 0⟩]⟩,
  ⟨"LNK_CNT_TAG", 0xe1004c, 32, 0x4000, 1, 0, [⟨31, 0, .ro, 0⟩]⟩,
  ⟨"LNK_CNT_RETRY", 0xe10050, 32, 0x4000, 1, 0, [⟨31, 0, .ro, 0⟩]⟩]

/-- The registers of MEM. -/
def regsMEM : List RRow := [
  ⟨"MEM_ID", 0xf00000, 1, 0x0, 1, 0, [⟨31, 24, .ro, 0⟩, ⟨23, 16, .ro, 0⟩, ⟨15, 4, .rsv, 0⟩, ⟨3, 0, .ro, 0⟩]⟩,
  ⟨"MEM_STAT", 0xf00008, 1, 0x0, 1, 0, [⟨31, 10, .rsv, 0⟩, ⟨9, 9, .ro, 0⟩, ⟨8, 8, .ro, 0⟩, ⟨7, 4, .ro, 0⟩, ⟨3, 0, .ro, 0⟩]⟩,
  ⟨"MEM_EVT", 0xf0000c, 1, 0x0, 1, 0, [⟨31, 10, .rsv, 0⟩, ⟨9, 9, .w1c, 0⟩, ⟨8, 8, .w1c, 0⟩, ⟨7, 7, .w1c, 0⟩, ⟨6, 6, .w1c, 0⟩, ⟨5, 5, .w1c, 0⟩, ⟨4, 4, .w1c, 0⟩, ⟨3, 3, .w1c, 0⟩, ⟨2, 2, .w1c, 0⟩, ⟨1, 1, .w1c, 0⟩, ⟨0, 0, .w1c, 0⟩]⟩,
  ⟨"MEM_EVTEN", 0xf00010, 1, 0x0, 1, 0, [⟨31, 10, .rsv, 0⟩, ⟨9, 9, .rw, 1⟩, ⟨8, 8, .rw, 1⟩, ⟨7, 7, .rw, 1⟩, ⟨6, 6, .rw, 1⟩, ⟨5, 5, .rw, 1⟩, ⟨4, 4, .rw, 1⟩, ⟨3, 3, .rw, 1⟩, ⟨2, 2, .rw, 1⟩, ⟨1, 1, .rw, 1⟩, ⟨0, 0, .rw, 1⟩]⟩,
  ⟨"MEM_NOCWAIT", 0xf00020, 1, 0x0, 1, 0, [⟨31, 24, .rsv, 0⟩, ⟨23, 0, .rw, 1000000⟩]⟩,
  ⟨"MEM_HSPARE", 0xf00024, 1, 0x0, 1, 0, [⟨31, 11, .rsv, 0⟩, ⟨10, 0, .rw, 64⟩]⟩,
  ⟨"MEM_HOTTHR", 0xf00028, 1, 0x0, 1, 0, [⟨31, 8, .rsv, 0⟩, ⟨7, 0, .rw, 4⟩]⟩,
  ⟨"MEM_LRET", 0xf00030, 1, 0x0, 1, 0, [⟨31, 31, .w1s, 0⟩, ⟨30, 29, .rsv, 0⟩, ⟨28, 21, .ro, 255⟩, ⟨20, 13, .rw, 0⟩, ⟨12, 0, .rw, 0⟩]⟩,
  ⟨"MEM_HRET", 0xf00034, 1, 0x0, 1, 0, [⟨31, 31, .w1s, 0⟩, ⟨30, 24, .rsv, 0⟩, ⟨23, 16, .ro, 255⟩, ⟨15, 2, .rsv, 0⟩, ⟨1, 0, .rw, 0⟩]⟩,
  ⟨"MEM_HRETPG", 0xf00038, 1, 0x0, 1, 0, [⟨31, 23, .rsv, 0⟩, ⟨22, 0, .rw, 0⟩]⟩,
  ⟨"MEM_CAL", 0xf00040, 1, 0x0, 1, 0, [⟨31, 4, .rsv, 0⟩, ⟨3, 0, .w1s, 0⟩]⟩,
  ⟨"MEM_HTEMP", 0xf00044, 1, 0x0, 1, 0, [⟨31, 24, .ro, 0⟩, ⟨23, 16, .ro, 0⟩, ⟨15, 8, .ro, 0⟩, ⟨7, 0, .ro, 0⟩]⟩,
  ⟨"MEM_CNT_LCE", 0xf00050, 1, 0x0, 1, 0, [⟨31, 0, .ro, 0⟩]⟩,
  ⟨"MEM_CNT_LUE", 0xf00054, 1, 0x0, 1, 0, [⟨31, 0, .ro, 0⟩]⟩,
  ⟨"MEM_CNT_HCE", 0xf00058, 1, 0x0, 1, 0, [⟨31, 0, .ro, 0⟩]⟩,
  ⟨"MEM_CNT_HUE", 0xf0005c, 1, 0x0, 1, 0, [⟨31, 0, .ro, 0⟩]⟩,
  ⟨"MEM_CNT_WIN", 0xf00060, 1, 0x0, 1, 0, [⟨31, 0, .ro, 0⟩]⟩]

/-- The registers of RIM. -/
def regsRIM : List RRow := [
  ⟨"RIM_ID", 0x1000000, 1, 0x0, 1, 0, [⟨31, 24, .ro, 0⟩, ⟨23, 16, .ro, 0⟩, ⟨15, 4, .rsv, 0⟩, ⟨3, 0, .ro, 0⟩]⟩,
  ⟨"RIM_STAT", 0x1000008, 1, 0x0, 1, 0, [⟨31, 24, .rsv, 0⟩, ⟨23, 16, .ro, 0⟩, ⟨15, 12, .rsv, 0⟩, ⟨11, 8, .ro, 0⟩, ⟨7, 1, .rsv, 0⟩, ⟨0, 0, .ro, 0⟩]⟩,
  ⟨"RIM_EVT", 0x100000c, 1, 0x0, 1, 0, [⟨31, 16, .w1c, 0⟩, ⟨15, 7, .rsv, 0⟩, ⟨6, 6, .w1c, 0⟩, ⟨5, 5, .w1c, 0⟩, ⟨4, 4, .w1c, 0⟩, ⟨3, 3, .w1c, 0⟩, ⟨2, 2, .w1c, 0⟩, ⟨1, 1, .w1c, 0⟩, ⟨0, 0, .w1c, 0⟩]⟩,
  ⟨"RIM_EVTEN", 0x1000010, 1, 0x0, 1, 0, [⟨31, 16, .rw, 65535⟩, ⟨15, 7, .rsv, 0⟩, ⟨6, 6, .rw, 1⟩, ⟨5, 5, .rw, 1⟩, ⟨4, 4, .rw, 1⟩, ⟨3, 3, .rw, 1⟩, ⟨2, 2, .rw, 1⟩, ⟨1, 1, .rw, 1⟩, ⟨0, 0, .rw, 1⟩]⟩,
  ⟨"RIM_SCRUB", 0x1000020, 1, 0x0, 1, 0, [⟨31, 16, .rsv, 0⟩, ⟨15, 0, .rw, 256⟩]⟩,
  ⟨"RIM_PCHK", 0x1000024, 1, 0x0, 1, 0, [⟨31, 1, .rsv, 0⟩, ⟨0, 0, .w1s, 0⟩]⟩,
  ⟨"RIM_SLCFG", 0x1000028, 1, 0x0, 1, 0, [⟨31, 16, .ro, 0⟩, ⟨15, 0, .ro, 0⟩]⟩,
  ⟨"RIM_SLPOL", 0x100002c, 1, 0x0, 1, 0, [⟨31, 28, .ro, 0⟩, ⟨27, 19, .rsv, 0⟩, ⟨18, 16, .ro, 0⟩, ⟨15, 0, .ro, 0⟩]⟩,
  ⟨"RIM_SLWAIT", 0x1000030, 1, 0x0, 1, 0, [⟨31, 16, .ro, 0⟩, ⟨15, 0, .ro, 0⟩]⟩,
  ⟨"RIM_PRC", 0x1000040, 1, 0x0, 1, 0, [⟨31, 31, .w1s, 0⟩, ⟨30, 30, .w1s, 0⟩, ⟨29, 24, .rsv, 0⟩, ⟨23, 16, .ro, 255⟩, ⟨15, 4, .rsv, 0⟩, ⟨3, 0, .rw, 0⟩]⟩,
  ⟨"RIM_PRSTAT", 0x1000044, 1, 0x0, 1, 0, [⟨31, 16, .ro, 0⟩, ⟨15, 0, .ro, 0⟩]⟩,
  ⟨"RIM_CNT_FIX", 0x1000050, 1, 0x0, 1, 0, [⟨31, 0, .ro, 0⟩]⟩,
  ⟨"RIM_CNT_UE", 0x1000054, 1, 0x0, 1, 0, [⟨31, 0, .ro, 0⟩]⟩,
  ⟨"RIM_CNT_ONEHOT", 0x1000058, 1, 0x0, 1, 0, [⟨31, 0, .ro, 0⟩]⟩,
  ⟨"RIM_REL", 0x1000100, 1, 0x0, 1, 0, [⟨31, 24, .rsv, 0⟩, ⟨23, 16, .w1s, 0⟩, ⟨15, 8, .rsv, 0⟩, ⟨7, 0, .w1s, 0⟩]⟩,
  ⟨"RIM_IOSTAT", 0x1000120, 8, 0x4, 1, 0, [⟨31, 24, .ro, 255⟩, ⟨23, 19, .rsv, 0⟩, ⟨18, 16, .ro, 0⟩, ⟨15, 14, .ro, 0⟩, ⟨13, 12, .ro, 0⟩, ⟨11, 0, .ro, 0⟩]⟩]

/-- The registers of CAP. -/
def regsCAP : List RRow := [
  ⟨"CAP_ID", 0x1100000, 1, 0x0, 1, 0, [⟨31, 24, .ro, 0⟩, ⟨23, 16, .ro, 0⟩, ⟨15, 4, .rsv, 0⟩, ⟨3, 0, .ro, 0⟩]⟩,
  ⟨"CAP_STAT", 0x1100008, 1, 0x0, 1, 0, [⟨31, 6, .rsv, 0⟩, ⟨5, 5, .ro, 0⟩, ⟨4, 4, .ro, 0⟩, ⟨3, 3, .ro, 0⟩, ⟨2, 2, .ro, 0⟩, ⟨1, 0, .rsv, 0⟩]⟩,
  ⟨"CAP_EVT", 0x110000c, 1, 0x0, 1, 0, [⟨31, 6, .rsv, 0⟩, ⟨5, 5, .w1c, 0⟩, ⟨4, 4, .w1c, 0⟩, ⟨3, 3, .w1c, 0⟩, ⟨2, 2, .w1c, 0⟩, ⟨1, 1, .w1c, 0⟩, ⟨0, 0, .w1c, 0⟩]⟩,
  ⟨"CAP_EVTEN", 0x1100010, 1, 0x0, 1, 0, [⟨31, 6, .rsv, 0⟩, ⟨5, 5, .rw, 1⟩, ⟨4, 4, .rw, 1⟩, ⟨3, 3, .rw, 1⟩, ⟨2, 2, .rw, 1⟩, ⟨1, 1, .rw, 1⟩, ⟨0, 0, .rw, 1⟩]⟩,
  ⟨"CAP_SIGCTL", 0x1100020, 1, 0x0, 1, 0, [⟨31, 31, .w1s, 0⟩, ⟨30, 30, .w1s, 0⟩, ⟨29, 24, .rsv, 0⟩, ⟨23, 16, .rw, 255⟩, ⟨15, 4, .rsv, 0⟩, ⟨3, 3, .rw, 0⟩, ⟨2, 2, .rw, 0⟩, ⟨1, 0, .rsv, 0⟩]⟩,
  ⟨"CAP_SIGPOST", 0x1100024, 1, 0x0, 1, 0, [⟨31, 0, .rw, 0⟩]⟩,
  ⟨"CAP_SIGRP", 0x1100028, 1, 0x0, 1, 0, [⟨31, 0, .rw, 0⟩]⟩,
  ⟨"CAP_SIGWP", 0x110002c, 1, 0x0, 1, 0, [⟨31, 0, .ro, 0⟩]⟩,
  ⟨"CAP_MTRP", 0x1100038, 1, 0x0, 1, 0, [⟨31, 0, .rw, 0⟩]⟩,
  ⟨"CAP_MTWP", 0x110003c, 1, 0x0, 1, 0, [⟨31, 0, .ro, 0⟩]⟩,
  ⟨"CAP_MTCTL", 0x1100030, 1, 0x0, 1, 0, [⟨31, 31, .w1s, 0⟩, ⟨30, 30, .w1s, 0⟩, ⟨29, 14, .rsv, 0⟩, ⟨13, 13, .rw, 0⟩, ⟨12, 11, .rw, 1⟩, ⟨10, 10, .rw, 0⟩, ⟨9, 8, .rw, 0⟩, ⟨7, 7, .rw, 0⟩, ⟨6, 5, .rw, 0⟩, ⟨4, 0, .rsv, 0⟩]⟩,
  ⟨"CAP_TUCTL", 0x1100100, 16, 0x20, 1, 0, [⟨31, 31, .rw, 0⟩, ⟨30, 24, .rsv, 0⟩, ⟨23, 16, .rw, 0⟩, ⟨15, 13, .rw, 0⟩, ⟨12, 11, .rw, 0⟩, ⟨10, 10, .rw, 0⟩, ⟨9, 8, .rw, 0⟩, ⟨7, 6, .rsv, 0⟩, ⟨5, 4, .rw, 0⟩, ⟨3, 0, .rsv, 0⟩]⟩,
  ⟨"CAP_TUSRC", 0x1100104, 16, 0x20, 1, 0, [⟨31, 11, .rsv, 0⟩, ⟨10, 10, .rw, 0⟩, ⟨9, 7, .rw, 0⟩, ⟨6, 6, .rsv, 0⟩, ⟨5, 0, .rw, 0⟩]⟩,
  ⟨"CAP_TUMIN", 0x1100108, 16, 0x20, 1, 0, [⟨31, 0, .rw, 0⟩]⟩,
  ⟨"CAP_TUMAX", 0x110010c, 16, 0x20, 1, 0, [⟨31, 0, .rw, 0⟩]⟩,
  ⟨"CAP_TUTHR", 0x1100110, 16, 0x20, 1, 0, [⟨31, 28, .rsv, 0⟩, ⟨27, 16, .rw, 0⟩, ⟨15, 12, .rsv, 0⟩, ⟨11, 0, .rw, 0⟩]⟩,
  ⟨"CAP_TUHOLD", 0x1100114, 16, 0x20, 1, 0, [⟨31, 0, .rw, 0⟩]⟩,
  ⟨"CAP_TUSTAT", 0x1100118, 16, 0x20, 1, 0, [⟨31, 16, .rsv, 0⟩, ⟨15, 8, .ro, 0⟩, ⟨7, 4, .rsv, 0⟩, ⟨3, 3, .ro, 0⟩, ⟨2, 2, .w1c, 0⟩, ⟨1, 0, .ro, 0⟩]⟩,
  ⟨"CAP_TUCNT", 0x110011c, 16, 0x20, 1, 0, [⟨31, 0, .ro, 0⟩]⟩]

/-- The registers of DBG. -/
def regsDBG : List RRow := [
  ⟨"DBG_ID", 0x1200000, 1, 0x0, 1, 0, [⟨31, 24, .ro, 0⟩, ⟨23, 16, .ro, 0⟩, ⟨15, 4, .rsv, 0⟩, ⟨3, 0, .ro, 0⟩]⟩,
  ⟨"DBG_CTL", 0x1200004, 1, 0x0, 1, 0, [⟨31, 4, .rsv, 0⟩, ⟨3, 3, .rw, 1⟩, ⟨2, 1, .rsv, 0⟩, ⟨0, 0, .rw, 1⟩]⟩,
  ⟨"DBG_STAT", 0x1200008, 1, 0x0, 1, 0, [⟨31, 8, .rsv, 0⟩, ⟨7, 7, .w1c, 0⟩, ⟨6, 6, .ro, 0⟩, ⟨5, 5, .ro, 0⟩, ⟨4, 3, .ro, 0⟩, ⟨2, 0, .rsv, 0⟩]⟩,
  ⟨"DBG_EVT", 0x120000c, 1, 0x0, 1, 0, [⟨31, 4, .rsv, 0⟩, ⟨3, 3, .w1c, 0⟩, ⟨2, 2, .w1c, 0⟩, ⟨1, 1, .w1c, 0⟩, ⟨0, 0, .w1c, 0⟩]⟩,
  ⟨"DBG_EVTEN", 0x1200010, 1, 0x0, 1, 0, [⟨31, 4, .rsv, 0⟩, ⟨3, 3, .rw, 1⟩, ⟨2, 2, .rw, 1⟩, ⟨1, 1, .rw, 1⟩, ⟨0, 0, .rw, 1⟩]⟩,
  ⟨"DBG_AUTH", 0x1200020, 1, 0x0, 1, 0, [⟨31, 31, .w1s, 0⟩, ⟨30, 30, .w1s, 0⟩, ⟨29, 28, .rw, 0⟩, ⟨27, 27, .rw, 0⟩, ⟨26, 24, .rsv, 0⟩, ⟨23, 16, .ro, 255⟩, ⟨15, 8, .rsv, 0⟩, ⟨7, 6, .ro, 0⟩, ⟨5, 4, .ro, 0⟩, ⟨3, 0, .ro, 0⟩]⟩,
  ⟨"DBG_RUN", 0x1200024, 1, 0x0, 1, 0, [⟨31, 31, .w1s, 0⟩, ⟨30, 30, .w1s, 0⟩, ⟨29, 29, .w1s, 0⟩, ⟨28, 0, .rsv, 0⟩]⟩,
  ⟨"DBG_AADDR0", 0x1200030, 1, 0x0, 1, 0, [⟨31, 0, .rw, 0⟩]⟩,
  ⟨"DBG_AADDR1", 0x1200034, 1, 0x0, 1, 0, [⟨31, 16, .rsv, 0⟩, ⟨15, 0, .rw, 0⟩]⟩,
  ⟨"DBG_ADATA", 0x1200038, 1, 0x0, 1, 0, [⟨31, 0, .rw, 0⟩]⟩,
  ⟨"DBG_ACMD", 0x120003c, 1, 0x0, 1, 0, [⟨31, 31, .w1s, 0⟩, ⟨30, 30, .rw, 0⟩, ⟨29, 24, .rsv, 0⟩, ⟨23, 16, .ro, 255⟩, ⟨15, 0, .rsv, 0⟩]⟩,
  ⟨"DBG_ARR", 0x1200040, 1, 0x0, 1, 0, [⟨31, 31, .w1s, 0⟩, ⟨30, 28, .rw, 0⟩, ⟨27, 22, .rw, 0⟩, ⟨21, 13, .rw, 0⟩, ⟨12, 9, .rsv, 0⟩, ⟨8, 8, .rw, 0⟩, ⟨7, 0, .rw, 0⟩]⟩,
  ⟨"DBG_ARRD", 0x1200044, 1, 0x0, 1, 0, [⟨31, 24, .ro, 255⟩, ⟨23, 18, .ro, 0⟩, ⟨17, 17, .ro, 0⟩, ⟨16, 16, .ro, 0⟩, ⟨15, 8, .ro, 0⟩, ⟨7, 2, .rsv, 0⟩, ⟨1, 0, .rw, 0⟩]⟩,
  ⟨"DBG_FCNT", 0x1200048, 1, 0x0, 1, 0, [⟨31, 7, .rsv, 0⟩, ⟨6, 0, .ro, 0⟩]⟩,
  ⟨"DBG_PAIR", 0x1200060, 2, 0x4, 1, 0, [⟨31, 31, .w1s, 0⟩, ⟨30, 30, .w1s, 0⟩, ⟨29, 29, .w1s, 0⟩, ⟨28, 9, .rsv, 0⟩, ⟨8, 8, .ro, 0⟩, ⟨7, 6, .ro, 0⟩, ⟨5, 5, .ro, 0⟩, ⟨4, 0, .rsv, 0⟩]⟩,
  ⟨"DBG_CSRSEL", 0x1200070, 1, 0x0, 1, 0, [⟨31, 13, .rsv, 0⟩, ⟨12, 12, .rw, 0⟩, ⟨11, 0, .rw, 0⟩]⟩,
  ⟨"DBG_XT", 0x1200080, 4, 0x4, 1, 0, [⟨31, 21, .rsv, 0⟩, ⟨20, 16, .rw, 0⟩, ⟨15, 7, .rsv, 0⟩, ⟨6, 0, .rw, 0⟩]⟩]

/-- The register rows of the block at a block index (R17, R608). -/
def regsOfBlock : Nat → List RRow
  | 0 => regsPLT
  | 1 => regsSEC
  | 2 => regsMGT
  | 3 => regsHIF
  | 4 => regsNOC
  | 5 => regsSEQ
  | 6 => regsSCH
  | 7 => regsCLS
  | 8 => regsFAB
  | 9 => regsLNK
  | 10 => regsMEM
  | 11 => regsRIM
  | 12 => regsCAP
  | 13 => regsDBG
  | _ => []

/-- The block index of a BAR0 offset inside a block span (R608). -/
def blockOf (a : Nat) : Option Nat :=
  let m := a / 0x100000
  if m ≤ 6 then some m
  else if 8 ≤ m ∧ m ≤ 12 then some 7
  else if 13 ≤ m ∧ m ≤ 18 then some (m - 5)
  else none

/-- Does the row have an instance at this offset? -/
def RRow.at (r : RRow) (a : Nat) : Bool :=
  let o := a - r.base
  let i := if r.stride = 0 then 0 else o / r.stride
  let o2 := o - i * r.stride
  let j := if r.stride2 = 0 then 0 else o2 / r.stride2
  decide (r.base ≤ a) && decide (i < r.cnt) && decide (j < r.cnt2) && decide (o2 = j * r.stride2)

/-- The register at a BAR0 offset, if one occupies it (R606). -/
def findReg (a : Nat) : Option RRow :=
  match blockOf a with
  | none => none
  | some b => (regsOfBlock b).find? fun r => r.at a

/-- The field of a row at the offset of one of its instances. -/
def FRow.fld (f : FRow) (a : Nat) : Fld := ⟨a, f.lo, f.hi - f.lo + 1, f.reset⟩

end Sys2Proof.Machine
end

