-- ==== Sys2Proof/Machine/State.lean ====
section
/-! DEFINITION. State.lean: everything the manual gives the device, as plain data; the faults and refusals; the state
right after power-on reset. A map from numbers (instances, entries, addresses) is a sparse list in the canonical form
of Machine/Kv.lean: an unlisted key reads as the default named beside the field. Four-state contents whose load value
depends on the value mode (R67, R103, R123, R152, R164) have that value as their default: X in FOURSTATE, 0 in TWOSTATE. -/
namespace Sys2Proof.Machine

/-- A sparse map. -/
abbrev Kv (α : Type) := List (Nat × α)

/-! ### Step sequencer (R25 to R59) -/

/-- SEQ_STAT.STATE (R55). -/
inductive SeqState where
  | idle | ready | running | ellipsis | stopped | dbgHold
  deriving DecidableEq, Repr

/-- The sequencer. -/
structure Seq where
  st : SeqState := .idle
  /-- step counter, 64 bits (R25, R27) -/
  step : Nat := 0
  /-- user-cycle counter, 64 bits (R26) -/
  ucyc : Nat := 0
  /-- start point of the run (R41) -/
  start : Nat := 0
  /-- pending fence step and its raising device number (R43) -/
  fence : Option (Nat × Nat) := none
  /-- fence step that caused the last stop (R43) -/
  lastFence : Option Nat := none
  /-- mailbox item STOPAT (R45) -/
  stopAt : Nat := 0
  /-- stop step of STEP1 or UCYC1 (R40) -/
  stopStep : Option Nat := none
  /-- a debug halt takes effect once the step counter has reached this value (R437), with its cause -/
  haltAt : Option (Nat × Nat) := none
  twostate : Bool := false
  /-- schedule depth in steps, 0 when no image is loaded (R55) -/
  depth : Nat := 0
  /-- cause bits of the current ellipsis seen so far, and as they last stood nonzero (R32) -/
  seen : BitVec 16 := 0
  last : BitVec 16 := 0
  /-- platform time in ns on the ellipsis-limit timer (R34) -/
  ellNs : Nat := 0
  longRaised : Bool := false
  ellTotal : Nat := 0
  /-- per cause code: count and duration in ns (R32), default 0 -/
  causeCnt : Kv Nat := []
  causeDur : Kv Nat := []
  ckptBase0 : Nat := 0
  ckptBase1 : Nat := 0
  /-- checkpoint being written: slot and content (R48 to R50) -/
  ckpt : Option (Nat × Ckpt) := none
  /-- the next checkpoint goes to this slot (R49) -/
  ckptNext : Nat := 0
  /-- a checkpoint is due at the boundary and waits for the migration there (R138) -/
  ckptPend : Bool := false
  /-- committed checkpoints, key slot base address (R49), default none -/
  ckpts : Kv (Option Ckpt) := []
  /-- SEQ_FENCE.DIST, SEQ_DIAM.DIAM and SEQ_CKPT.INTERVAL as its last start found them (R41) -/
  lastStart : Nat × Nat × Nat := (0, 0, 0)
  deriving DecidableEq, Repr

/-! ### Clauses, their schedule-store slices and their switches (R60 to R178) -/

/-- A commit-queue entry (R78): BP, logical entry, bank and value; `bad` marks a parity failure. -/
structure CqEntry where
  bp : Nat
  dst : Nat
  bank : Nat
  val : Val
  bad : Bool := false
  deriving DecidableEq, Repr

/-- A migration of a phrase to the spare phrase (R133 to R137). -/
structure Migration where
  target : Nat
  /-- it began in READY, STOPPED or DBG_HOLD, where it counts no ellipsis (R135) -/
  noHold : Bool
  deriving DecidableEq, Repr

/-- The idle word (R87). -/
def idleWord : QWord := 0x0000000000000000FFF00FFF00000000#128

/-- One clause with its slice and switch. -/
structure Clause where
  loaded : Bool := false
  passed : Bool := false
  /-- logical clause placed here (R283) -/
  logical : Nat := 0
  /-- isolated, and isolated with XINJ = 1 (R165, R166) -/
  iso : Bool := false
  xinj : Bool := false
  /-- CLS_PMAP (R144) -/
  spared : Bool := false
  retired : Nat := 0x7F
  /-- value stores: key 512 bp + 256 bank + entry (R65), default X or 0 -/
  vs : Kv Val := []
  /-- physical entries with bad parity: key 256 bp + entry (R68), default false -/
  vsBad : Kv Bool := []
  /-- commit queues of all BPs, oldest first (R78) -/
  cq : List CqEntry := []
  /-- clause-bus register: key lane (R123), default X or 0 -/
  bus : Kv Val := []
  /-- working copies of the dictionary as the good copies hold it, and the master (R74, R75), default 0 -/
  dictW : Kv Word := []
  dictM : Kv Word := []
  /-- the entries as the image of the last load gave them, from which firmware rewrites the master (R185), default 0 -/
  dictI : Kv Word := []
  /-- copies that an upset has struck: key 1024 phrase + entry, their content as read and whether it passes parity (R76),
  default none -/
  dictBad : Kv (Option (Word × Bool)) := []
  /-- copies whose CLS_DICT_UE has been raised and that have not been written since (R76) -/
  dictUe : Kv Bool := []
  /-- BP words: key 512 phase + clause index (R176), default the idle word -/
  words : Kv QWord := []
  /-- switch chunks: key 24 phase + chunk (R156), default 0 -/
  sw : Kv QWord := []
  /-- hold record: key 256 phase + 64 port + lane (R164), default X or 0 -/
  hold : Kv Val := []
  /-- error marks of slice locations: key 128 row + word of the array, spare row k being row 9216 + k, 1 correctable, 2 uncorrectable (R179, R181), 3 correctable and
  corrected by a read, its write-back on the way (R179), default 0 -/
  schBad : Kv Nat := []
  /-- rows mapped to a spare row at run time (R188), default none; factory mappings are `Config.rowRepairs` -/
  rowMap : Kv (Option Nat) := []
  /-- corrected and uncorrectable counts of the slice (R204, R205) -/
  ce : Nat := 0
  ue : Nat := 0
  /-- last row corrected and its repeat count (R190) -/
  hotRow : Nat := 0
  hotCnt : Nat := 0
  /-- next row of the background scrubber (R183) -/
  scrub : Nat := 0
  /-- port registers: key 40 q + bit, 128 q + bit, 128 q + bit (R103), default X or 0 -/
  padr : Kv Val := []
  pwd : Kv Val := []
  pret : Kv Val := []
  /-- MGOs issued by each port (R132), default 0 -/
  pacc : Kv Nat := []
  /-- unknown writes of each port in this user cycle (R106), default 0 -/
  xwCyc : Kv Nat := []
  /-- ports that raised MEM_WIN_RANGE in this user cycle (R210), default false -/
  winCyc : Kv Bool := []
  /-- input lanes from neighbour switches and local receive lanes: key 64 port + lane (R151), default X or 0 -/
  inl : Kv Val := []
  mig : Option Migration := none
  /-- TARGET of a sparing request that waits until the directory of a RELOAD tells whether it names the clause (R133) -/
  sparePend : Option Nat := none
  /-- the last march pass of the spare phrase did not fail (R133) -/
  marchOk : Bool := true
  /-- SPARE_STEP (R146) -/
  spareStep : Nat := 0
  /-- CLS_CHECK events dropped since the last one posted (R114, R116) -/
  chkDrop : Nat := 0
  deriving DecidableEq, Repr

/-! ### Signal fabric (R148 to R175, R623) -/

/-- A directed connection (R160 to R162). -/
structure Conn where
  spare : Option Nat := none
  ce : Nat := 0
  ue : Nat := 0
  repLane : Nat := 0x7F
  repCnt : Nat := 0
  deriving DecidableEq, Repr

/-- A pending isolation or release (R165): clause, release, XINJ; its boundary has come. -/
structure IsoReq where
  clause : Nat
  rel : Bool
  xinj : Bool
  due : Bool
  deriving DecidableEq, Repr

/-- The fabric's own state. -/
structure Fab where
  /-- key connection number -/
  conns : Kv Conn := []
  iso : Option IsoReq := none
  /-- a sparing commit waits for the next step (R162): its tag, connection and map -/
  agree : Option (Nat × Nat × Option Nat) := none
  deriving DecidableEq, Repr

/-! ### Schedule store, device-wide (R183 to R205) -/

/-- The state of a patch application (R193). -/
inductive PatchPhase where
  /-- waits for the next user-cycle boundary; it has come; the boundary is held -/
  | pending | due | hold
  deriving DecidableEq, Repr

/-- Schedule-store state outside the slices. -/
structure Sch where
  /-- staged words, active words and active addresses of the patch units (R191), default 0 -/
  stgW : Kv QWord := []
  actW : Kv QWord := []
  actA : Kv Nat := []
  patch : Option PatchPhase := none
  /-- row-mapping request in progress: clause and row (R189) -/
  rmap : Option (Nat × Nat) := none
  /-- disagreement seen in the parameter votes (R186, R204) -/
  dis : BitVec 2 := 0
  /-- SCH_SCRUB.INTERVAL and SCH_ROWHOT.THR as firmware last wrote them (R187), at first as reset leaves them -/
  wrote : Nat × Nat := (16, 8)
  deriving DecidableEq, Repr

/-! ### User memory (R206 to R237) -/

/-- A clause-port access waiting in the queue of its lexicon bank (R214). -/
structure LexAcc where
  m : Nat
  step : Nat
  write : Bool
  addr : Nat
  /-- element stride in bytes and its bytes to be written -/
  stride : Nat
  data : List Byte
  portB : Bool
  deriving DecidableEq, Repr

/-- A return on its way to a port's return register (R107): due step, values, arrived. -/
structure MemRet where
  m : Nat
  due : Nat
  hbm : Bool
  vals : List Val
  arrived : Bool
  /-- served by its bank or its controller: the values stand -/
  served : Bool
  /-- the element read: address, stride, width (R209) -/
  addr : Nat
  stride : Nat
  width : Nat
  deriving DecidableEq, Repr

/-- Who waits for a NoC access: a host read or write at a BAR2 offset, the requester of a packet, the access engine or the
TAP (R418, R438). -/
inductive NocReply where
  | bar2 (off : Nat) | packet (p : Packet) | debug (p : Path)
  deriving DecidableEq, Repr

/-- A NoC access that waits for a lexicon bank port (R216): the kind of its master, as in R236, and who waits for it. -/
structure NocAcc where
  reply : NocReply
  kind : Nat
  write : Bool
  addr : Nat
  size : Nat
  data : List Byte
  /-- STEP cycles in which its bank port served a clause access instead (R216) -/
  waited : Nat
  starved : Bool
  /-- bytes served so far, one word access at a time, what was read, and whether every word could be (R206, R223) -/
  pos : Nat
  got : List Byte
  good : Bool
  deriving DecidableEq, Repr

/-- MEM. -/
structure Mem where
  /-- WIN_m items (R208), default 0 -/
  win : Kv QWord := []
  /-- clause accesses waiting at the banks, in the order of R212 -/
  lexq : List LexAcc := []
  rets : List MemRet := []
  nocq : List NocAcc := []
  /-- error marks by 32-byte-aligned NoC address: 1 correctable, 2 uncorrectable (R223), default 0 -/
  bad : Kv Nat := []
  /-- CONF_m: key 3 m + word, NOCM_k: key 2 k + word (R236), default 0 -/
  conf : Kv Nat := []
  nocm : Kv Nat := []
  /-- corrected and uncorrectable counts of banks and stacks (R236), default 0 -/
  lexCe : Kv Nat := []
  lexUe : Kv Nat := []
  hbmCe : Kv Nat := []
  hbmUe : Kv Nat := []
  /-- last lexicon word and last HBM page corrected, with the repeat counts (R224) -/
  hotLex : Nat × Nat := (0, 0)
  hotHbm : Nat × Nat := (0, 0)
  /-- retired words and pages: key bank * 8192 + word, stack * 6291456 + page (R225, R226), default none -/
  lexRet : Kv (Option Nat) := []
  hbmRet : Kv (Option Nat) := []
  /-- the word and the page retirement in progress: bank and word, stack and page, with their spare (R225, R226) -/
  lretReq : Option (Nat × Nat × Nat) := none
  hretReq : Option (Nat × Nat × Nat) := none
  deriving DecidableEq, Repr

/-! ### Links (R238 to R272) -/

/-- LNK_STAT.STATE (R267). -/
inductive LnkState where
  | off | train | align | ident | up | active | resume | fail
  deriving DecidableEq, Repr

/-- A slot map (R243). -/
structure SlotMap where
  en : Bool
  mode : Nat
  srx : Nat
  stx : Nat
  lat : Nat
  peer : Nat
  txl : List Nat
  rxl : List Nat
  deriving DecidableEq, Repr

/-- A sparing action in progress (R261): lane, started by GO, the partner has accepted, start time. -/
structure Sparing where
  lane : Nat
  byGo : Bool
  accepted : Bool
  since : Nat
  /-- requested by the calibration scheduler (R262, R572) -/
  cal : Bool := false
  deriving DecidableEq, Repr

/-- The sending side of a link's bit stream (R238, R239). -/
structure LnkTx where
  /-- the scrambler's 58 bits, the newest in bit 0; none until the lanes start -/
  scr : Option (BitVec 58) := none
  /-- bits of the message block being filled, FEC only -/
  block : List Bool := []
  /-- bits of the symbol being filled -/
  sym : List Bool := []
  /-- the next symbol is an odd one -/
  odd : Bool := false
  /-- the PRBS31 generator of the spare lane -/
  prbs : BitVec 31 := 1
  deriving DecidableEq, Repr

/-- One link. -/
structure Lnk where
  st : LnkState := .off
  /-- time of the last change of state -/
  since : Nat := 0
  slot : SlotMap := ⟨false, 0, 0, 0, 0, 0, [], []⟩
  /-- this end's slot map has been released (R251, R252) -/
  released : Bool := false
  /-- it has left ACTIVE through FAIL or OFF since its last release (R254) -/
  dropped : Bool := false
  /-- the link mode it trained in (R239) -/
  mode : Nat := 0
  /-- active lanes, bit per lane (R238) -/
  lanes : BitVec 3 := 0
  pserial : Nat := 0
  plink : Nat := 0
  /-- partner's PEER items (R251), default none -/
  items : Kv (Option Nat) := []
  /-- own PEER item values last sent, default none -/
  sent : Kv (Option Nat) := []
  /-- native latency in steps (R255) -/
  native : Nat := 0
  /-- one-way latency in LINK cycles (R255, R271) -/
  oneWay : Nat := 0
  /-- received superframes not yet freed: first step and payload codes, oldest first (R246) -/
  rxq : List (Nat × List Val) := []
  /-- first step of the superframe expected next (R248) -/
  expect : Nat := 0
  /-- retry outstanding since this time (R248) -/
  retry : Option Nat := none
  /-- superframes freed at this end since ACTIVE (R240) -/
  freed : Nat := 0
  /-- superframes the partner has freed, from its CREDIT field (R246) -/
  pfreed : Nat := 0
  /-- superframes sent or started since ACTIVE (R246) -/
  sentCnt : Nat := 0
  /-- kept superframes, oldest first: full step of the first step and the frame (R247) -/
  replay : List (Nat × Superframe) := []
  /-- slot codes of the superframe being filled: key 8 slot + k, default X or 0 -/
  txAcc : Kv Val := []
  /-- control words waiting to be sent -/
  ctlq : List (BitVec 64) := []
  /-- fence steps adopted and not yet sent on this link: F and raising device (R250) -/
  fences : List (Nat × Nat) := []
  /-- local cross-trigger channels asserted since the last superframe (R253) -/
  xtAcc : BitVec 4 := 0
  /-- local cross-trigger channels asserted since the last superframe that carried steps (R253) -/
  xtStep : BitVec 4 := 0
  /-- the step that tags the XT bits delivered last (R253) -/
  xtTag : Nat := 0
  /-- the sending side's stream (R238, R239) -/
  tx : LnkTx := {}
  sparing : Option Sparing := none
  /-- a lane that retrains as the spare, since when (R261) -/
  retrain : Option Nat := none
  /-- frames of a restored checkpoint: the link enters ACTIVE with them once the partner has been restored too (R38, R599) -/
  restored : Option (List (Nat × List Val)) := none
  /-- end of the mode-change window (R257) -/
  window : Option Nat := none
  /-- the partner's framing was last seen in the other mode (R254) -/
  otherMode : Bool := false
  /-- next try in TRAIN not before this time (R257) -/
  retryAt : Nat := 0
  msgRx : Nat := 0
  msgCnt : Nat := 0
  /-- EYE_k: key 2 lane + (0 height, 1 width), default 0 -/
  eye : Kv Nat := []
  deriving DecidableEq, Repr

/-! ### Structure stream loader (R282 to R326) -/

/-- A directory entry (R301). -/
structure DirEnt where
  dig : Nat
  iv : List Byte
  gtag : List Byte
  ty : Nat
  enc : Bool
  sflags : Nat
  index : Nat
  ldev : Nat
  nframes : Nat
  len : Nat
  part : Nat
  aad : List Byte
  deriving DecidableEq, Repr

/-- A region record of the relocation table with its physical base (R282, R286). -/
structure Region where
  lbase : Nat
  len : Nat
  pbase : Nat
  kind : Nat
  flags : Nat
  deriving DecidableEq, Repr

/-- A protected-partition descriptor as staged and applied (R541, R542): partition and the objects it claims. -/
structure ProtDesc where
  part : Nat
  /-- fuse slot that signs the partition's tokens -/
  keyslot : Nat
  /-- claimed physical clauses -/
  clauses : Nat
  /-- claimed physical window masters, key master -/
  masters : List Nat
  /-- claimed rim regions -/
  regions : Nat
  deriving DecidableEq, Repr

/-- What remains of the loaded DESIGN image (R288, R299, R304, R325). -/
structure Img where
  cls : Nat
  gen : Nat
  hdr : List Byte
  ndev : Nat
  ldev : Nat
  reloadable : Bool
  xf : Nat
  dx : Nat
  dy : Nat
  regions : List Region
  dmap : List Nat
  prot : List ProtDesc
  patches : List Byte
  deriving DecidableEq, Repr

/-- How far a load has come (R307): it expects the header frame; it waits to begin (R310); it expects directory frames;
it waits for links that train again under R256; it expects frames of its sections. -/
inductive LoadStage where
  | header | waiting | directory | links | sections
  deriving DecidableEq, Repr

/-- The load in progress (R294 to R312). -/
structure LoadJob where
  /-- the flash image that the boot ROM reads: 0 slot A, 1 slot B, 2 golden (R321); none for the LOAD service -/
  boot : Option Nat
  /-- service slot of the request (R527), its source address and its placement record -/
  slot : Nat
  addr : Nat
  placement : Option (List Byte)
  stage : LoadStage := .header
  hdr : List Byte := []
  dir : List DirEnt := []
  /-- section, frames of it taken, next frame address (R297) -/
  sec : Nat := 0
  frame : Nat := 0
  next : Nat := 0
  /-- wire frame index, attempt of the current frame, bad frames (R296, R325) -/
  wire : Nat := 0
  attempt : Nat := 1
  bad : Nat := 0
  /-- content, bytes to be hashed, and ciphertext payloads of the section so far (R301, R305) -/
  content : List Byte := []
  hashIn : List Byte := []
  cipher : List Byte := []
  /-- its frames so far: REPEAT, ZERO (R295, R305) -/
  layout : List (Nat × Bool) := []
  /-- the partition key taken at its first frame (R545) -/
  key : List Byte := []
  /-- staged section contents: type, index, bytes (R306) -/
  staged : List (Nat × Nat × List Byte) := []
  /-- own logical device (R304) -/
  own : Nat := 0
  /-- wire frame at which the control FIRMWARE section begins (R514) -/
  fwWire : Nat := 0
  /-- physical clauses that a RELOAD names (R311) -/
  named : List Nat := []
  /-- the boundary of the RELOAD has come, and it is held -/
  due : Bool := false
  holding : Bool := false
  /-- the image being built by a DESIGN load -/
  img : Option Img := none
  /-- logical and physical clauses written and passed so far -/
  done : List (Nat × Nat) := []
  deriving DecidableEq, Repr

/-- The loader. -/
structure Load where
  job : Option LoadJob := none
  img : Option Img := none
  /-- class of the last load that passed, 0 before one (R548) -/
  lastCls : Nat := 0
  /-- LOADINFO and LOADPOS (R325) -/
  info : List Nat := []
  posWire : Nat := 0
  posSect : Nat := 0
  posAddr : Nat := 0
  /-- patch units that a set has taken: unit, set (R291 to R293) -/
  sets : List (Nat × Nat) := []
  deriving DecidableEq, Repr

/-! ### Rim (R327 to R384) -/

/-- The state of a region (R350). -/
inductive RegionState where
  | active | fenced | loading
  deriving DecidableEq, Repr

/-- The two elastic buffers of a step-lane group (R343 to R348). -/
structure RimGroup where
  /-- inbound and outbound entries, oldest first: step and 64-bit entry -/
  inq : List (Nat × DWord) := []
  outq : List (Nat × DWord) := []
  /-- the last three outbound entries (R348) -/
  keep : List (Nat × DWord) := []
  /-- step of the next inbound entry the rim writes (R345) -/
  inNext : Nat := 0
  /-- STEP cycles in which the group held the step, times 10^6 (R360) -/
  held : Nat := 0
  /-- entries moved in and out since the last edge of the step-lane tree (R343) -/
  inMoved : Nat := 0
  outMoved : Nat := 0
  /-- first and last step filled under policy SAFE (R351) -/
  filled : Option (Nat × Nat) := none
  deriving DecidableEq, Repr

/-- The state of a rim I/O bank (R375). -/
inductive BankState where
  | off | unrel | check | released | fault
  deriving DecidableEq, Repr

/-- A rim I/O bank (R362 to R384). -/
structure Bank where
  st : BankState := .off
  /-- consecutive refused key samples (R373) -/
  refused : Nat := 0
  /-- measured VCCIO in mV, sensed strap and last key code (R382) -/
  vccmv : Nat := 0
  strap : Nat := 0
  key : Nat := 0
  /-- open-wire mask and short mask (R383), bit per pin -/
  open_ : Nat := 0
  short : Nat := 0
  /-- level on each pin, default none: it has not crossed a threshold yet -/
  pads : Kv (Option Bool) := []
  /-- levels after FILT_A and after FILT_D, and how long, and for how many samples, each input has differed (R369) -/
  fa : Nat := 0
  faCnt : Kv Nat := []
  fd : Nat := 0
  fdCnt : Kv Nat := []
  /-- input register, and registers of output data and output enable (R364) -/
  inReg : Nat := 0
  outReg : Nat := 0
  oeReg : Nat := 0
  deriving DecidableEq, Repr

/-- RIM. -/
structure Rim where
  /-- configuration frames in effect: key RFA, 992 data bits (R338), default 0 -/
  frames : Kv Nat := []
  /-- frames with an uncorrected error: key 4 RFA + word, 1 correctable, 2 uncorrectable (R353), default 0 -/
  bad : Kv Nat := []
  /-- RFA of the last frame scrubbed (R354) -/
  scrub : Nat := 0
  base : Bool := false
  /-- key region, default active (R350) -/
  regions : Kv RegionState := []
  /-- locked PLLs (R335), default false -/
  pll : Kv Bool := []
  /-- key group (R343) -/
  groups : Kv RimGroup := []
  /-- LASTERR: RFA and word (R360) -/
  lastRfa : Nat := 0
  lastWord : Nat := 0
  /-- disagreement of the RIM_SCRUB copies (R355), and RIM_SCRUB.INTERVAL as firmware last wrote it, at first as reset
  leaves it -/
  dis : Bool := false
  wrote : Nat := 256
  /-- frames whose RIM_ONEHOT has been raised (R337) -/
  onehot : Kv Bool := []
  banks : Kv Bank := []
  /-- flip-flops that a clock edge has loaded since they last took INIT: key 16 row group + flip-flop (R330), default none -/
  ff : Kv (Option Bool) := []
  /-- read output and flags (bit 0 CORR, bit 1 UNCORR) of block-memory ports: key 2 memory + port (R331, R333), default none -/
  memOut : Kv (Option (Nat × Nat)) := []
  /-- phase of each tree that a PLL feeds (R334), and the last level of each clock-capable input, bit per bank -/
  phase : Kv Nat := []
  clk : Nat := 0
  deriving DecidableEq, Repr

/-! ### Capture and trigger units (R385 to R416) -/

/-- CAP_TUSTAT.STATE (R403). -/
inductive TuState where
  | off | armed | holdoff
  deriving DecidableEq, Repr

/-- A trigger unit. -/
structure Tu where
  st : TuState := .off
  /-- last acquisition: step stamp, platform time, MEAS, FINE, SKIPPED (R404) -/
  step : Nat := 0
  time : Nat := 0
  meas : Nat := 0
  fine : Nat := 0
  skipped : Nat := 0
  /-- matches seen in HOLDOFF since then -/
  skips : Nat := 0
  /-- matches counted for HMODE 1 -/
  matches_ : Nat := 0
  /-- matches of the condition not yet acted on, oldest first: step stamp, platform time, FINE, MEAS (R402, R404) -/
  due : List (Nat × Nat × Nat × Nat) := []
  /-- a level or edge free time has been reported for TIMEOUT since the last change -/
  timedOut : Bool := false
  /-- pin source: its digital level, and the tick of the last edge -/
  level : Bool := false
  edgeAt : Option Nat := none
  /-- tick at which it rose through LO and has not fallen back through LO; the same for falling through HI -/
  riseAt : Option Nat := none
  fallAt : Option Nat := none
  deriving DecidableEq, Repr

/-- The signal stream (R385 to R395). -/
structure SigCap where
  on : Bool := false
  /-- START waits for the next step (R390): cause and unit -/
  startReq : Option (Nat × Nat) := none
  /-- step counter at which the last stop was requested (R390: at one boundary the stop wins) -/
  stopMark : Option Nat := none
  /-- the first step no longer captured, with cause and unit of the stop (R390) -/
  stopAt : Option Nat := none
  stopCause : Nat := 0
  stopUnit : Nat := 0
  /-- words waiting in the capture buffer, and words of the stream so far (R389, R393) -/
  buf : List DWord := []
  words : Nat := 0
  /-- dropped packets: first step, last step, count (R394) -/
  lost : Option (Nat × Nat × Nat) := none
  epoch : Nat := 0
  /-- EPOCH packets not written yet: first step under the new map, cause bits (R387, R389) -/
  epochDue : List (Nat × Nat) := []
  stepPkts : Nat := 0
  dropped : Nat := 0
  sinceSync : Nat := 0
  syncStep : Nat := 0
  syncDue : Bool := false
  /-- the watch-group mask in use (R386) -/
  wg : Nat := 0xFF
  deriving DecidableEq, Repr

/-- The management trace (R396 to R400). -/
structure MtCap where
  on : Bool := false
  buf : List Byte := []
  /-- bytes of the stream so far -/
  bytes : Nat := 0
  /-- time of the last packet of each source, default 0; packets of each source since its last SYNC -/
  lastT : Kv Nat := []
  sinceSync : Kv Nat := []
  written : Nat := 0
  dropped : Nat := 0
  /-- dropped packets not yet reported: step of the first, step of the last, count (R399) -/
  lost : Option (Nat × Nat × Nat) := none
  /-- sources that run excluded code (R396), default false; last address sent by each source, default 0; outcomes of its
  conditional branches not sent yet, oldest first (R397) -/
  excl : Kv Bool := []
  lastAddr : Kv DWord := []
  outs : Kv (List Bool) := []
  /-- packets of each source dropped and not yet reported (R399); sources in WFI, whose next packet is a SYNC (R398) -/
  lostBy : Kv Nat := []
  slept : Kv Bool := []
  deriving DecidableEq, Repr

/-- CAP. -/
structure Cap where
  units : Kv Tu := []
  /-- trigger lines asserted in the last step, bit per line (R401); one more than the step in which each line last
  changed its level, 0 for a line that has not changed since the load -/
  lines : Nat := 0
  lineSince : Kv Nat := []
  sig : SigCap := {}
  mt : MtCap := {}
  /-- SIGREG and MTREG (R415): base and LOG2 -/
  sigBase : Nat := 0
  sigLog : Nat := 0
  mtBase : Nat := 0
  mtLog : Nat := 0
  deriving DecidableEq, Repr

/-! ### Events (R494 to R497, R612) -/

/-- An EVP packet: source, code, payload fields in the order of its table, the step and platform time it was raised at;
`chk` marks the CLS_CHECK of a stopping failure (R115). -/
structure Ev where
  src : Nat
  code : Nat
  payload : List Nat
  step : Nat
  time : Nat
  chk : Bool := false
  deriving DecidableEq, Repr

/-! ### Debug (R417 to R450) -/

/-- An SM2 key exchange between its two phases (R422): path, level, start time, S_A expected. -/
structure Keyx where
  path : Path
  level : Nat
  since : Nat
  sa : List Byte
  deriving DecidableEq, Repr

/-- An array operation that waits for a migration to end (R428): path and value operand. -/
structure ArrOp where
  path : Path
  op : Nat
  clause : Nat
  bp : Nat
  bank : Bool
  entry : Nat
  val : Val
  deriving DecidableEq, Repr

/-- A management pair's cores as the debug logic reaches them (R432, R447, R449). -/
structure Pair where
  halted : Bool := false
  /-- a halt request waits (R432), with its cause -/
  haltReq : Option Nat := none
  waitM : Bool := false
  priv : Nat := 3
  pc : DWord := 0
  /-- general registers of the halted pair, x0 apart, default 0 -/
  gpr : Kv DWord := []
  /-- CSRs of the halted pair as the debugger has written them, default none; an unwritten one holds what firmware left
  there, which the manual does not give: the free value of its number from this one on (log 4) -/
  csr : Kv (Option DWord) := []
  csrFree : Option Nat := none
  /-- the pair is held in reset after repeated restarts (R518) -/
  held : Bool := false
  /-- a restart is in progress (R518) -/
  restarting : Bool := false
  /-- time of its last lockstep restart (R518) -/
  lastLock : Option Nat := none
  /-- the watchdog has expired once since its last kick (R521), and the rest of a kick's window in ns (R520) -/
  expired : Bool := false
  kickLeft : Option Nat := none
  /-- entry offset and version of its running firmware, the digest of that content (R522, R548), and the image it came
  from: 0 slot A, 1 slot B, 2 golden, 3 none -/
  entry : Nat := 0
  fwver : Nat := 0
  dig : BitVec 256 := 0
  from_ : Nat := 3
  /-- the granule that an LR of the pair has reserved (R433): its base address and its size in bytes -/
  lr : Option (Nat × Nat) := none
  deriving DecidableEq, Repr

/-- DBG. -/
structure Dbg where
  tapLevel : Nat := 0
  hostLevel : Nat := 0
  /-- password bytes, certificate, keys and confirmation values of the authorisation items (R421, R422) -/
  pw : Kv QWord := []
  cert : Kv QWord := []
  hpub : Kv QWord := []
  dpub : Kv QWord := []
  sb : Kv QWord := []
  sa : Kv QWord := []
  keyx : Option Keyx := none
  /-- forced entries: key 262144 clause + 512 bp + 256 bank + entry (R429), default none -/
  forces : Kv (Option Val) := []
  arr : Option ArrOp := none
  /-- cross-trigger channels asserted and not yet acted on are none: a channel acts at once (R436) -/
  ir : Byte := 0x02
  /-- the 83-bit DBGACC register as the next Capture-DR returns it (R438) -/
  accStat : Nat := 0
  accData : Word := 0
  deriving DecidableEq, Repr

/-! ### Host interface (R481 to R512) -/

/-- The state of a DMA channel (R492). -/
inductive DmaState where
  | off | idle | run | error
  deriving DecidableEq, Repr

/-- A DMA channel: indices with their wrap bit (R489). -/
structure Dma where
  st : DmaState := .off
  head : Nat := 0
  hwrap : Bool := false
  tail : Nat := 0
  twrap : Bool := false
  err : Nat := 0
  base : Nat := 0
  wb : Nat := 0
  deriving DecidableEq, Repr

/-- An event ring (R498). -/
structure Ring where
  base : Nat := 0
  prod : Nat := 0
  pwrap : Bool := false
  cons : Nat := 0
  cwrap : Bool := false
  /-- records written since the last message (R501) -/
  unsig : Nat := 0
  deriving DecidableEq, Repr

/-- HIF. -/
structure Hif where
  /-- Bus Master Enable (R483) -/
  bme : Bool := false
  dma : Kv Dma := []
  rings : Kv Ring := []
  /-- XWIN_k items (R488) -/
  xwin : Kv QWord := []
  /-- records held by the arbiter, oldest first: SEQNO and packet (R494, R502) -/
  held : List (Nat × Ev) := []
  seqno : Nat := 0
  /-- MSI-X table and pending bits: key offset within 0x800 to 0xC07, default 0 (R481) -/
  msix : Kv Word := []
  /-- vectors that wait for Bus Master Enable (R483) -/
  msiWait : List Nat := []
  deriving DecidableEq, Repr

/-! ### Packet network (R451 to R480) -/

/-- The output port of router r toward router d in the dimension-order table that power-on reset loads (R466): west or
east first, then north or south, then PER toward a perimeter router (R451, R452). -/
def rtDefault (r d : Nat) : Nat :=
  let clauseOf := fun k : Nat => [2, 5, 1, 6, 15, 31, 23, 39, 62, 57, 58, 61, 48, 32, 40, 24].getD (k - 64) 0
  if 80 ≤ d then 15
  else if r = d then 4
  else if 64 ≤ r then 5
  else
    let t := if 64 ≤ d then clauseOf d else d
    if t % 8 < r % 8 then 3
    else if r % 8 < t % 8 then 1
    else if t / 8 < r / 8 then 0
    else if r / 8 < t / 8 then 2
    else 5

/-- A packet that waits at an input of a router: its input port by the codes of R451. -/
structure Flight where
  pkt : Packet
  port : Nat
  deriving DecidableEq, Repr

/-- A transaction of a rim port without its response (R463, R471): port, TID, tag of the rim logic, address. -/
structure Txn where
  port : Nat
  tid : Nat
  tag : Nat
  addr : Nat
  deriving DecidableEq, Repr

/-- A request of rim logic that cannot issue yet (R463, R464, R467). -/
structure RimReq where
  port : Nat
  write : Bool
  addr : Nat
  size : Nat
  tag : Nat
  data : List Byte
  deriving DecidableEq, Repr

/-- A response held for rim logic while its tree is stopped (R471): port, tag, STATUS, read data. -/
structure RimRsp where
  port : Nat
  tag : Nat
  status : Nat
  data : List Byte
  deriving DecidableEq, Repr

/-- NOC. -/
structure Noc where
  /-- route tables: key 7680 bank + 96 router + entry (R466), default `rtDefault` -/
  routes : Kv Nat := []
  /-- packets that wait at the inputs of a router, and packets delivered to its endpoints, oldest first: key router -/
  wait : Kv (List Flight) := []
  rx : Kv (List Flight) := []
  /-- round-robin place of an output, key 8 router + port: one more than 8 input + channel of the last packet (R458) -/
  rr : Kv Nat := []
  txns : List Txn := []
  reqs : List RimReq := []
  rsps : List RimRsp := []
  /-- next TID of a rim port -/
  tid : Kv Nat := []
  /-- rows of R463 that wait for a change of DLMODE, bit per row (R464) -/
  modeWait : Nat := 0
  /-- peak in flight and timeouts of a row of R463 (R479), default 0 -/
  peak : Kv Nat := []
  tmo : Kv Nat := []
  deriving DecidableEq, Repr

/-! ### Management complex (R513 to R535) -/

/-- The active copy of a firmware patch unit (R523). -/
structure FpUnit where
  line : Nat
  brk : Bool
  en : Bool
  data : List Byte
  deriving DecidableEq, Repr

/-- A swap whose timer runs (R525, R526): what the control pair ran before, and the new slot and generation. -/
structure Swap where
  secbase : Nat
  entry : Nat
  fwver : Nat
  dig : BitVec 256
  old : Nat
  new : Nat
  gen : Nat
  deriving DecidableEq, Repr

/-- A boot attempt whose timer runs (R321): the image, the slot tried first and the SEQ of its record. -/
structure Boot where
  src : Nat
  tried : Option Nat
  seq : Option Nat
  gen : Nat := 0
  deriving DecidableEq, Repr

/-- MGT. -/
structure Mgt where
  pairs : Kv Pair := []
  /-- uncorrectable words of management SRAM by NoC address / 8 (R515), default false -/
  bad : Kv Bool := []
  /-- REQA_s, REQB_s: key 2 s, 2 s + 1; RSPA_s, RSPB_s likewise (R527), default 0 -/
  req : Kv QWord := []
  rsp : Kv QWord := []
  /-- slots whose request the firmware is serving, bit per slot -/
  taken : Nat := 0
  /-- staged unit data: key 2 u + half (R523), default 0; active units, default none -/
  fpd : Kv QWord := []
  fpa : Kv (Option FpUnit) := []
  /-- a staging write was ignored since the last APPLY (R524) -/
  perm : Bool := false
  /-- flash command in progress: OP, address, source offset (R517) -/
  flash : Option (Nat × Nat × Nat) := none
  /-- ns for which the flash controller still holds FL_RESET_N low, and whether it runs the device in 8D-8D-8D or in 1S-1S-1S
  (R516) -/
  flReset : Nat := 10000
  fl8d : Bool := false
  /-- when the control pair last wrote a calibration record (R573) -/
  calAt : Option Nat := none
  swap : Option Swap := none
  /-- after a reverted swap: the slot of the firmware that ran before, which the control pair's restart names again (R526) -/
  revert : Option Nat := none
  boot : Option Boot := none
  /-- service slot and set of a PATCH_SET that waits for its application (R293) -/
  patch : Option (Nat × Nat × Bool) := none
  /-- sequence number of the next fault-log record and the sector being filled (R596) -/
  logSeq : Nat := 0
  logPos : Nat := 0
  /-- repairs of a dictionary entry as firmware counts them: key 131072 clause + 1024 phrase + entry, their times (R595);
  consecutive scans below the limits: key 4 link + lane -/
  fixes : Kv (List Nat) := []
  eyeLow : Kv Nat := []
  /-- triggers of R595 that have occurred and that firmware has not acted on, oldest first -/
  seen : List SparingTrigger := []
  /-- sparing actions that firmware has started and that run: TYPE, UNIT and ITEM of their records (R595, R596) -/
  acts : List (Nat × Nat × Nat) := []
  deriving DecidableEq, Repr

/-! ### Security (R536 to R555) -/

/-- A loaded partition token (R543 to R545). -/
structure Token where
  part : Nat
  rights : Nat
  epoch : Nat
  keyslot : Nat
  key : List Byte
  deriving DecidableEq, Repr

/-- The fuse words as the model's device leaves the factory (R536): production life and stepping A0, and Bostrakil's key
slot 0, valid with its four uses; every other fuse unblown (log 18). -/
def fuseDflt (k : Nat) : Word :=
  if k = 2 then 0x00010010#32 else if k = 3 then 0x0000000F#32 else 0#32

/-- SEC. -/
structure Sec where
  tokens : Kv (Option Token) := []
  /-- TOKEN_i items (R544), default 0 -/
  item : Kv QWord := []
  /-- fuse words (R536), default `fuseDflt` -/
  fuses : Kv Word := []
  /-- partition keys held since the DESIGN load that used them (R545), default none -/
  keys : Kv (Option (List Byte)) := []
  /-- partitions whose OBSERVE right is in effect for capture and trigger lines: that of the last user-cycle boundary
  (R386, R545) -/
  obs : List Nat := []
  deriving DecidableEq, Repr

/-- The rights that the loaded tokens give on a partition (R544, R546). -/
def Sec.rights (x : Sec) (part : Nat) : Nat :=
  x.tokens.foldl (fun m e => match e.2 with | some t => if t.part = part then m ||| t.rights else m | none => m) 0

/-! ### Platform (R556 to R588) -/

/-- An operating-point change under way (R562). -/
inductive OppStage where
  /-- up: the voltage rises; the frequency switches at the next boundary; down: likewise, then the voltage falls -/
  | rising | upDue | downDue | falling
  deriving DecidableEq, Repr

/-- PLT. -/
structure Plt where
  /-- a root switchover, or a failed active root, holds the boundary (R558, R559) -/
  clockHold : Bool := false
  /-- sensors in 1/16 °C, 16-bit two's complement (R565), default 0 -/
  temps : Kv (BitVec 16) := []
  /-- monitors in mV: now and lowest (R565, R587), default 0 and none -/
  vmon : Kv Nat := []
  vmin : Kv (Option Nat) := []
  /-- throttle requests (R566): thermal and power levels, droop, forced by R563 -/
  thermReq : Nat := 0
  powerReq : Nat := 0
  droop : Bool := false
  avsForce : Bool := false
  /-- the hottest sensor stands at or above TALERT (R567) -/
  hot : Bool := false
  thermTrip : Bool := false
  inReset : Bool := false
  /-- operating-point change: old, new, stage; the last value written meanwhile (R562) -/
  opp : Option (Nat × Nat × OppStage) := none
  oppNext : Option Nat := none
  /-- spread spectrum in effect, and a change that waits for a step boundary (R561) -/
  ssc : Bool := true
  sscDue : Option Bool := none
  /-- VDD_STEP as measured: mV, 0.1 A, W (R563, R581) -/
  mv : Nat := 0
  current : Nat := 0
  power : Nat := 0
  /-- ring counts (R564), default 0; guardband in mV; PLT_AGING raised -/
  age : Kv Nat := []
  guard : Nat := 0
  agedRaised : Bool := false
  /-- PTNEXT; error at the last edge and rate correction, as integers; edges since PPS_LOCK; platform time that the last
  edge represents; consecutive edges within 2 ns; ppb carried over (R569, R570) -/
  ptNext : Nat := 0
  ptErr : Int := 0
  corr : Int := 0
  edges : Nat := 0
  ppsLast : Option Nat := none
  streak : Nat := 0
  ptFrac : Nat := 0
  /-- rest of the PLT_RST key window in ns, and the requester that opened it (R579) -/
  rstLeft : Option (Nat × Bool) := none
  /-- domains reported off and kept powered by sleep emulation, bit per domain (R435) -/
  emu : Nat := 0
  /-- the domain that a request is powering (R575) -/
  pgReq : Option Nat := none
  /-- the stack of the next HBM calibration slice, and MEM_HTEMP readings at each stack's last slice (R572) -/
  calNext : Nat := 0
  calTemp : Kv Nat := []
  deriving DecidableEq, Repr

/-! ### What leaves the device -/

/-- An output of the device: what a command sends to a partner, the host, a pin or the requester of an access. The list
of them in `State.out` is the model's own record; no behaviour of the device reads it. -/
inductive Emit where
  /-- a superframe of a link (R240, R242) -/
  | superframe (l : Nat) (sf : Superframe)
  /-- symbols of 10 bits on a lane of a link (R238, R239): link, lane, symbols -/
  | symbols (l lane : Nat) (w : List Nat)
  /-- a register or memory read answered with data -/
  | data (bs : List Byte)
  /-- a host read answered (R486): Successful Completion, poisoned where set -/
  | completion (poisoned : Bool) (bs : List Byte)
  /-- a host read answered with Unsupported Request or Completer Abort (R486) -/
  | unsupported
  | abort
  /-- a response to rim logic: port, tag, STATUS, read data (R471) -/
  | rimResponse (p tag status : Nat) (bs : List Byte)
  /-- an access answered with a NoC STATUS and no data (R461) -/
  | status (code : Nat)
  /-- a posted write to host memory (R488, R491, R499) -/
  | hostWrite (addr : Nat) (bs : List Byte)
  /-- a read of host memory -/
  | hostRead (addr len : Nat)
  /-- an MSI-X message (R501) -/
  | msix (vec : Nat)
  /-- a pulse on XTRIG_OUTch (R436) -/
  | xtrig (ch : Nat)
  /-- a level of a named output pin: THERMTRIP_N, ALERT_N, PWRGD -/
  | pin (name : String) (level : Bool)
  /-- an entry that the rim reads from an outbound buffer (R344): group, tag, entry -/
  | rimEntry (g tag : Nat) (e : DWord)
  /-- a NoC packet sent on (R457): router, port -/
  | packet (router port : Nat) (p : Packet)
  /-- an SMBus answer (R581) -/
  | smbus (w : Nat)
  /-- a TAP data register of so many bits shifted out (R438): IDCODE, BYPASS -/
  | tap (bits w : Nat)
  /-- STATUS and data of the last DBGACC access, as the next Capture-DR returns them (R438) -/
  | dbgacc (status : Nat) (data : Word)
  /-- an interrupt to a management pair (R521, R530) -/
  | irq (pair : Nat) (cause : Nat)
  deriving DecidableEq, Repr

/-- Why a step stops with a fault. -/
inductive Fault where
  /-- A register write gave a reserved field a value other than it reads (R10): the behaviour is undefined until the next
  power-on reset. Raised by register writes and bit writes. Safe: the model stops where the manual gives no effect. -/
  | rsvWritten (addr : Nat)
  /-- A register write starts an operation under a reserved code (R14, R15): MGT_FLCMD.GO with an OP other than 1 to 3, DBG_ARR.GO
  with OP 6 or 7. The manual gives it no effect. Raised by register writes and bit writes. Safe. -/
  | reservedCode (addr : Nat)
  deriving DecidableEq, Repr

/-- Why a step is refused. -/
inductive Refusal where
  /-- The command has no meaning in the model yet. Raised by Machine/Dispatch.lean. Safe. -/
  | notModelled (mnemonic : String)
  deriving DecidableEq, Repr

/-! ### The device -/

/-- A mailbox context of a page (R615, R616): D0 to D3, and TAG, ERR and VALID of BLK_MBX_STAT. Each request completes
within its command, so BUSY reads 0. -/
structure Mbx where
  d : Kv Word := []
  tag : Nat := 0
  err : Bool := false
  valid : Bool := false
  deriving DecidableEq, Repr

/-- The state of the device. -/
structure State where
  /-- the commands that are waiting, first in, first out -/
  pending : List Instr := []
  /-- what the device has sent out of itself since reset, oldest first (the model's own record) -/
  out : List Emit := []
  /-- wall time in ns since power-on reset (the model's own count) -/
  now : Nat := 0
  /-- platform time in ns, and whether it runs (R569, R580) -/
  ptime : Nat := 0
  ptRun : Bool := false
  /-- free values used so far (the model's own count, log 4) -/
  free : Nat := 0
  /-- register fields: key 32 * BAR0 offset + lowest bit, default the field's reset value -/
  fields : Kv Nat := []
  /-- lexicon, HBM and management SRAM by NoC address (R206, R218, R515) -/
  mem : List Host.Cell := []
  /-- external flash by offset (R317), erased bytes 0xFF -/
  flash : List Host.Cell := []
  /-- EVP packets on their way to the event arbiter, oldest first (R494) -/
  evq : List Ev := []
  /-- mailbox contexts: key 4 (page offset / 4096) + context (R615) -/
  mbx : Kv Mbx := []
  seq : Seq := {}
  clauses : Kv Clause := []
  fab : Fab := {}
  sch : Sch := {}
  umem : Mem := {}
  links : Kv Lnk := []
  /-- the topology fingerprint (R259) -/
  fp : BitVec 256 := 0
  load : Load := {}
  rim : Rim := {}
  cap : Cap := {}
  dbg : Dbg := {}
  noc : Noc := {}
  hif : Hif := {}
  mgt : Mgt := {}
  sec : Sec := {}
  plt : Plt := {}
  deriving DecidableEq, Repr

/-- The device right after power-on reset: every register field reads its reset value (unlisted in `fields`), memory
lists nothing, the queue of commands is empty. -/
def State.reset : State := {}

end Sys2Proof.Machine
end

