-- ==== Sys2Proof/Machine/Regs.lean ====
section
/-! DEFINITION. Regs.lean: register fields, counters, events and outputs: the operations every block shares. -/
namespace Sys2Proof.Machine

/-- The value of a register field that the register file holds. -/
def State.fget (s : State) (f : Fld) : Nat := kvGet f.reset s.fields f.key

/-- The state with a register field set; the value is cut to the field's width. -/
def State.fset (s : State) (f : Fld) (v : Nat) : State :=
  { s with fields := kvSet f.reset s.fields f.key (v % 2 ^ f.width) }

/-- A one-bit field as a Boolean. -/
def State.fbit (s : State) (f : Fld) : Bool := s.fget f == 1

/-- The state with a one-bit field set. -/
def State.fsetb (s : State) (f : Fld) (b : Bool) : State := s.fset f b.toNat

/-- The state with a 32-bit saturating count raised by one (R145, R202, R235, R270, R359, R478, R510). -/
def State.count (s : State) (f : Fld) : State := s.fset f (satSucc f.width (s.fget f))

/-- The state with a saturating count raised by n. -/
def State.countBy (s : State) (f : Fld) (n : Nat) : State := s.fset f (min (2 ^ f.width - 1) (s.fget f + n))

/-- The state with an output recorded. -/
def State.emit (s : State) (e : Emit) : State := { s with out := s.out ++ [e] }

/-- A 64-bit payload field takes two words, low word first (R495). -/
def w64 (n : Nat) : List Nat := [n % 2 ^ 32, n / 2 ^ 32 % 2 ^ 32]

/-- The payload of a 64-bit field that holds 0xFFFF_FFFF in both words (R89, R208, R237). -/
def w64none : List Nat := [0xFFFFFFFF, 0xFFFFFFFF]

/-- The field of BLK_EVTEN that enables the event of a BLK_EVT field: the same layout, one register on (R612). -/
def evten (f : Fld) : Fld := ⟨f.addr + 4, f.lo, f.width, 1⟩

/-- An event occurs: it is recorded in its BLK_EVT bit and, while its BLK_EVTEN bit is 1, posted as an EVP packet with
the given step and platform time (R494, R612). -/
def State.raiseAt (s : State) (f : Fld) (src code : Nat) (payload : List Nat) (step time : Nat) (chk : Bool) : State :=
  let s1 := s.fset f 1
  if s.fbit (evten f) then
    { s1 with evq := s1.evq ++ [{ src := src, code := code, payload := payload, step := step, time := time, chk := chk }] }
  else s1

/-- An event occurs now: STEP is the step counter and PTIME the platform time (R494). -/
def State.raise (s : State) (f : Fld) (src code : Nat) (payload : List Nat) : State :=
  s.raiseAt f src code payload s.seq.step s.ptime false

/-- A fresh free value (log 4) and the state that has used it. -/
def State.fresh (s : State) : BitVec 128 × State := (Config.freeWord s.free, { s with free := s.free + 1 })

/-- A number below 2^32 that the manual does not state (log 4). -/
def State.freshNat (s : State) : Nat × State := (s.fresh.1.toNat % 2 ^ 32, s.fresh.2)

/-- A 64-bit payload field that the manual does not state, as two words (log 4). -/
def State.fresh64 (s : State) : List Nat × State := (w64 s.fresh.1.toNat, s.fresh.2)

/-- One of several numbers, the manual not saying which (log 4). -/
def State.pick (s : State) (xs : List Nat) : Nat × State :=
  (xs.getD (s.fresh.1.toNat % max 1 xs.length) 0, s.fresh.2)

/-! ### Instances -/

/-- Clause c. -/
def State.clause (s : State) (c : Nat) : Clause := kvGet {} s.clauses c

/-- The state with clause c replaced. -/
def State.setClause (s : State) (c : Nat) (x : Clause) : State := { s with clauses := kvSet {} s.clauses c x }

/-- The state with clause c changed. -/
def State.modClause (s : State) (c : Nat) (f : Clause → Clause) : State := s.setClause c (f (s.clause c))

/-- Link l. -/
def State.link (s : State) (l : Nat) : Lnk := kvGet {} s.links l

/-- The state with link l replaced. -/
def State.setLink (s : State) (l : Nat) (x : Lnk) : State := { s with links := kvSet {} s.links l x }

/-- The state with link l changed. -/
def State.modLink (s : State) (l : Nat) (f : Lnk → Lnk) : State := s.setLink l (f (s.link l))

/-- Connection k of the fabric. -/
def State.conn (s : State) (k : Nat) : Conn := kvGet {} s.fab.conns k

/-- The state with connection k changed. -/
def State.modConn (s : State) (k : Nat) (f : Conn → Conn) : State :=
  { s with fab := { s.fab with conns := kvSet {} s.fab.conns k (f (s.conn k)) } }

/-- Step-lane group g of the rim. -/
def State.group (s : State) (g : Nat) : RimGroup := kvGet {} s.rim.groups g

/-- The state with step-lane group g changed. -/
def State.modGroup (s : State) (g : Nat) (f : RimGroup → RimGroup) : State :=
  { s with rim := { s.rim with groups := kvSet {} s.rim.groups g (f (s.group g)) } }

/-- Rim I/O bank b. -/
def State.bank (s : State) (b : Nat) : Bank := kvGet {} s.rim.banks b

/-- The state with rim I/O bank b changed. -/
def State.modBank (s : State) (b : Nat) (f : Bank → Bank) : State :=
  { s with rim := { s.rim with banks := kvSet {} s.rim.banks b (f (s.bank b)) } }

/-- Trigger unit u. -/
def State.unit (s : State) (u : Nat) : Tu := kvGet {} s.cap.units u

/-- The state with trigger unit u changed. -/
def State.modUnit (s : State) (u : Nat) (f : Tu → Tu) : State :=
  { s with cap := { s.cap with units := kvSet {} s.cap.units u (f (s.unit u)) } }

/-- Management pair p: 0 control, 1 security (R447). -/
def State.pair (s : State) (p : Nat) : Pair := kvGet {} s.mgt.pairs p

/-- The state with management pair p changed. -/
def State.modPair (s : State) (p : Nat) (f : Pair → Pair) : State :=
  { s with mgt := { s.mgt with pairs := kvSet {} s.mgt.pairs p (f (s.pair p)) } }

/-- DMA channel c. -/
def State.dmaCh (s : State) (c : Nat) : Dma := kvGet {} s.hif.dma c

/-- The state with DMA channel c changed. -/
def State.modDma (s : State) (c : Nat) (f : Dma → Dma) : State :=
  { s with hif := { s.hif with dma := kvSet {} s.hif.dma c (f (s.dmaCh c)) } }

/-- Event ring r. -/
def State.ring (s : State) (r : Nat) : Ring := kvGet {} s.hif.rings r

/-- The state with event ring r changed. -/
def State.modRing (s : State) (r : Nat) (f : Ring → Ring) : State :=
  { s with hif := { s.hif with rings := kvSet {} s.hif.rings r (f (s.ring r)) } }

/-- A switched domain is powered (R585). -/
def State.domOn (s : State) (d : Nat) : Bool := nbit (s.fget F.PLT_PGSTAT_ON) d

/-- The group of clause c is gated (R585: CGRP g is domain 17 + g and holds clauses 8g to 8g + 7). -/
def State.gated (s : State) (c : Nat) : Bool := !s.domOn (17 + c / 8)

/-! ### Modes and instance sets -/

/-- The sequencer is stepping: it executes steps or waits in an ellipsis. -/
def State.stepping (s : State) : Bool := s.seq.st == .running || s.seq.st == .ellipsis

/-- A change of the STEP frequency waits for a step boundary, or for a switchover under way (R558, R562). -/
def State.clockWaits (s : State) : Bool := s.stepping || s.fbit F.PLT_STAT_SW_BUSY

/-- What an undriven lane or a loaded entry holds in the value mode of the image (R64, R67). -/
def State.dfl (s : State) : Val := if s.seq.twostate then 0#2 else 1#2

/-- The step counter stands at phase 0 (R26). -/
def State.atPhase0 (s : State) : Bool := s.seq.depth == 0 || s.seq.step % s.seq.depth == 0

/-- A clause is loaded, has passed and is not isolated: it executes words (R61, R122). -/
def State.active (s : State) (c : Nat) : Bool :=
  (s.clause c).loaded && (s.clause c).passed && !(s.clause c).iso

/-- A clause takes part in the schedule: it is loaded and has passed. -/
def State.runnable (s : State) (c : Nat) : Bool := (s.clause c).loaded && (s.clause c).passed

/-- The loaded clauses. -/
def State.loadedClauses (s : State) : List Nat := (List.range 64).filter fun c => (s.clause c).loaded

/-- A link that the image's slot maps use (R28). -/
def State.used (s : State) (l : Nat) : Bool := (s.link l).slot.en && (s.link l).released

/-- The links used by the slot maps. -/
def State.usedLinks (s : State) : List Nat := (List.range 32).filter s.used

/-- The image generation in use (R21, R387). -/
def State.gen (s : State) : Nat := (s.load.img.map (·.gen)).getD 0

/-- This device's number (R265). -/
def State.devnum (s : State) : Nat := s.fget F.LNK_DEVNUM_NUM

end Sys2Proof.Machine
end

