-- ==== Sys2Proof/Machine/Ops.lean ====
section
/-! DEFINITION. Ops.lean: the named operations over memory, value stores and stop requests that the commands share. -/
namespace Sys2Proof.Machine

/-! ### Memory (R206, R207, R218, R515, R609) -/

/-- The lexicon range. -/
def isLex (a : Nat) : Bool := decide (0x40000000 ≤ a) && decide (a < 0x44000000)

/-- The HBM range. -/
def isHbm (a : Nat) : Bool := decide (0x001000000000 ≤ a) && decide (a < 0x002800000000)

/-- Management SRAM, the control pair's and the security pair's part. -/
def isCtlSram (a : Nat) : Bool := decide (0x80000000 ≤ a) && decide (a < 0x80180000)
def isSecSram (a : Nat) : Bool := decide (0x80180000 ≤ a) && decide (a < 0x80200000)

/-- The ROM and the flash window. -/
def isRom (a : Nat) : Bool := decide (0x90000000 ≤ a) && decide (a < 0x90080000)
def isFlash (a : Nat) : Bool := decide (0xA0000000 ≤ a) && decide (a < 0xB0000000)

/-- The host range. -/
def isHost (a : Nat) : Bool := decide (0x800000000000 ≤ a) && decide (a < 0x1000000000000)

/-- Lexicon or HBM: the user memory (R485). -/
def isUser (a : Nat) : Bool := isLex a || isHbm a

/-- What an unlisted address reads as: the fill byte of R207 in user memory, the ROM's byte, and 0 in management SRAM
(log 8). -/
def memDflt (a : Nat) : Byte := if isUser a then 0x55#8 else if isRom a then Config.romByte (a - 0x90000000) else 0#8

/-- One byte of memory. -/
def memGet (m : List Host.Cell) (a : Nat) : Byte := kvGet (memDflt a) m a

/-- Memory with one byte written. -/
def memPut (m : List Host.Cell) (a : Nat) (b : Byte) : List Host.Cell := kvSet (memDflt a) m a b

/-- The canonical form of memory: addresses strictly rising from a bound, no byte equal to what an unlisted address reads. -/
def memWfFrom : Nat → List Host.Cell → Bool
  | _, [] => true
  | lo, (a, b) :: t => decide (lo ≤ a) && decide (b ≠ memDflt a) && memWfFrom (a + 1) t

/-- Memory is in canonical form. -/
def Memory.wf (m : List Host.Cell) : Bool := memWfFrom 0 m

/-- The range of the golden image (R317). -/
def isGolden (o : Nat) : Bool := decide (0x0F000000 ≤ o) && decide (o < 0x10000000)

/-- The stored flash bytes are in canonical form: no erased byte, and none of the golden image. -/
def Flash.wf (m : List Host.Cell) : Bool := kvWf 0xFF#8 m && m.all fun e => !isGolden e.1

/-- One byte of the external flash: the golden image as the factory wrote it (R317), elsewhere what stands there; an erased byte is
0xFF. -/
def State.flashGet (s : State) (o : Nat) : Byte :=
  if isGolden o then Config.goldenByte (o - 0x0F000000) else kvGet 0xFF#8 s.flash o

/-- n bytes of the flash. -/
def State.flashRead (s : State) (o n : Nat) : List Byte := (List.range n).map fun i => s.flashGet (o + i)

/-- The 32-byte word or burst that holds an address. -/
def wordBase (a : Nat) : Nat := a - a % 32

/-- Bank and word of a lexicon address (R206). -/
def lexBank (a : Nat) : Nat := (a - 0x40000000) / 0x40000
def lexWord (a : Nat) : Nat := (a - 0x40000000) % 0x40000 / 32

/-- Stack and page of an HBM address (R218). -/
def hbmStack (a : Nat) : Nat := (a - 0x001000000000) / 0x600000000
def hbmPage (a : Nat) : Nat := (a - 0x001000000000) % 0x600000000 / 4096

/-- The HBM address at which the byte of an address lies: a retired page is redirected to its spare page (R226). -/
def State.phys (s : State) (a : Nat) : Nat :=
  if isHbm a then
    match kvGet none s.umem.hbmRet (hbmStack a * 6291456 + hbmPage a) with
    | some p => 0x001000000000 + hbmStack a * 0x600000000 + p * 4096 + a % 4096
    | none => a
  else a

/-- One byte at an address. -/
def State.byteAt (s : State) (a : Nat) : Byte := memGet s.mem (s.phys a)

/-- n bytes from an address on. -/
def State.bytes (s : State) (a n : Nat) : List Byte := (List.range n).map fun i => s.byteAt (a + i)

/-- The state with one byte stored. -/
def State.storeByte (s : State) (a : Nat) (b : Byte) : State := { s with mem := memPut s.mem (s.phys a) b }

/-- The state with bytes stored from an address on. -/
def State.store (s : State) : Nat → List Byte → State
  | _, [] => s
  | a, b :: t => (s.storeByte a b).store (a + 1) t

/-- The error mark of the word or burst at an address (R223). -/
def State.memMark (s : State) (a : Nat) : Nat := kvGet 0 s.umem.bad (wordBase (s.phys a))

/-- The state with the error mark of the word or burst at an address set. -/
def State.setMark (s : State) (a v : Nat) : State :=
  { s with umem := { s.umem with bad := kvSet 0 s.umem.bad (wordBase (s.phys a)) v } }

/-- A trigger of the sparing policy has occurred (R595). -/
def sparingSeen (t : SparingTrigger) (s : State) : State :=
  if s.mgt.seen.contains t then s else { s with mgt := { s.mgt with seen := s.mgt.seen ++ [t] } }

/-- 24 hours in ns. -/
def dayNs : Nat := 86400000000000

/-- A repair of an entry of a working copy is counted; the third within 24 h is a trigger (R595). -/
def sparingFix (c ph e : Nat) (s : State) : State :=
  let k := 131072 * c + 1024 * ph + e
  let ts := ((kvGet [] s.mgt.fixes k).filter fun t => decide (s.now < t + dayNs)) ++ [s.now]
  let s1 : State := { s with mgt := { s.mgt with fixes := kvSet [] s.mgt.fixes k ts } }
  if 3 ≤ ts.length then sparingSeen (.phrase c ph) s1 else s1

/-- A scan of a link lane is below a limit or not; the third in a row below one is a trigger (R595). -/
def sparingEye (l lane : Nat) (low : Bool) (s : State) : State :=
  let n := if low then kvGet 0 s.mgt.eyeLow (4 * l + lane) + 1 else 0
  let s1 : State := { s with mgt := { s.mgt with eyeLow := kvSet 0 s.mgt.eyeLow (4 * l + lane) (if 3 ≤ n then 0 else n) } }
  if 3 ≤ n then sparingSeen (.linkLane l lane) s1 else s1

/-- A correction on a lexicon word or HBM page counts its repeats and raises MEM_HOT (R224). -/
def memHot (hbm : Bool) (unit loc : Nat) (s : State) : State :=
  let key := if hbm then unit * 6291456 + loc else unit * 8192 + loc
  let cur := if hbm then s.umem.hotHbm else s.umem.hotLex
  let n := if cur.1 == key then cur.2 + 1 else 1
  let thr := s.fget F.MEM_HOTTHR_THR
  let hit := thr != 0 && decide (thr ≤ n)
  let keep := (key, if hit then 0 else n)
  let s1 := { s with umem := if hbm then { s.umem with hotHbm := keep } else { s.umem with hotLex := keep } }
  if hit then
    sparingSeen (if hbm then .hbmPage unit loc else .lexWord unit loc) (s1.raise F.MEM_EVT_HOT 10 5 [hbm.toNat, unit, loc, thr])
  else s1

/-- A correctable error of a lexicon word or HBM burst: counted, written back, raised at powers of two (R223). -/
def memCe (a : Nat) (s : State) : State :=
  if isLex a then
    let b := lexBank a
    let n := satSucc 32 (kvGet 0 s.umem.lexCe b)
    let s0 := (s.count F.MEM_CNT_LCE_COUNT).setMark a 0
    let s1 := { s0 with umem := { s0.umem with lexCe := kvSet 0 s0.umem.lexCe b n } }
    let s2 := if isPow2 n then s1.raise F.MEM_EVT_LEX_CE 10 1 [b, lexWord a, n] else s1
    memHot false b (lexWord a) s2
  else
    let k := hbmStack a
    let n := satSucc 32 (kvGet 0 s.umem.hbmCe k)
    let s0 := (s.count F.MEM_CNT_HCE_COUNT).setMark a 0
    let s1 := { s0 with umem := { s0.umem with hbmCe := kvSet 0 s0.umem.hbmCe k n } }
    let s2 := if isPow2 n then s1.raise F.MEM_EVT_HBM_CE 10 3 [k, hbmPage a, n] else s1
    memHot true k (hbmPage a) s2

/-- An uncorrectable error met by a master: clause master below 256, or 0x100 plus the NoC master kind (R223, R237). -/
def memUe (a master : Nat) (write : Bool) (s : State) : State :=
  let step := if master < 256 then w64 s.seq.step else w64none
  if isLex a then
    let b := lexBank a
    ({ s.count F.MEM_CNT_LUE_COUNT with umem := { s.umem with lexUe := kvMod 0 s.umem.lexUe b (satSucc 32) } }).raise
      F.MEM_EVT_LEX_UE 10 2 ([b, lexWord a, master, write.toNat] ++ step)
  else
    let k := hbmStack a
    sparingSeen (.hbmPage k (hbmPage a)) (({ s.count F.MEM_CNT_HUE_COUNT with
      umem := { s.umem with hbmUe := kvMod 0 s.umem.hbmUe k (satSucc 32) } }).raise
      F.MEM_EVT_HBM_UE 10 4 ([k, hbmPage a, master, write.toNat] ++ step))

/-- A write of user memory by a master, within one word or burst: a whole word replaces it, a part of one reads, checks
and merges it (R223). -/
def userWrite (master a : Nat) (bs : List Byte) (s : State) : State :=
  let mark := s.memMark a
  if bs.length == 32 then (s.setMark a 0).store a bs
  else
    let s1 := if mark == 1 then memCe a s else if mark == 2 then memUe a master true s else s
    s1.store a bs

/-- A read of user memory by a master, within one word or burst: the bytes, whether they are uncorrectable, and the
state after the error handling of R223. -/
def userRead (master a n : Nat) (s : State) : List Byte × Bool × State :=
  let mark := s.memMark a
  let s1 := if mark == 1 then memCe a s else if mark == 2 then memUe a master false s else s
  (s.bytes a n, mark == 2, s1)

/-- The pieces of a range that lie within one 32-byte word or burst each: address and length. -/
def memPieces (a n : Nat) : List (Nat × Nat) :=
  (List.range ((a % 32 + n + 31) / 32)).map fun i =>
    let lo := max a (wordBase a + 32 * i)
    (lo, min (a + n) (wordBase a + 32 * (i + 1)) - lo)

/-- A write of user memory by a NoC master of a kind (R236): no piece of it met an uncorrectable error (R223), and the
state after. -/
def nocWrite (kind a : Nat) (bs : List Byte) (s : State) : Bool × State :=
  (memPieces a bs.length).foldl (fun r p =>
    (r.1 && !(p.2 != 32 && r.2.memMark p.1 == 2), userWrite (0x100 + kind) p.1 ((bs.drop (p.1 - a)).take p.2) r.2)) (true, s)

/-- A read of user memory by a NoC master of a kind: the bytes, whether every piece could be read, and the state after
(R223). -/
def nocRead (kind a n : Nat) (s : State) : List Byte × Bool × State :=
  (memPieces a n).foldl (fun r p =>
    let x := userRead (0x100 + kind) p.1 p.2 r.2.2
    (r.1 ++ x.1, r.2.1 && !x.2.1, x.2.2)) ([], true, s)
/-! ### Windows (R208, R545, R546) -/

/-- The window of master m as its mailbox item holds it (R208). -/
def State.win (s : State) (m : Nat) : QWord := kvGet 0#128 s.umem.win m

/-- Fields of a window item (R208). -/
def winEn (w : QWord) : Bool := w.getLsbD 31
def winCkpt (w : QWord) : Bool := w.getLsbD 30
def winB (w : QWord) : Bool := w.getLsbD 29
def winWidth (w : QWord) : Nat := fieldOf w 0 7 + 1
def winBase (w : QWord) : Nat := fieldOf w 32 48
def winSize (w : QWord) : Nat := fieldOf w 96 32

/-- A range meets a window claimed by a protected partition whose tokens lack a right (R545, R546): bit 1 OBSERVE, 2
CONTROL. -/
def State.memClosed (s : State) (right a n : Nat) : Bool :=
  ((s.load.img.map (·.prot)).getD []).any fun d => !nbit (s.sec.rights d.part) right && d.masters.any fun m =>
    decide (winBase (s.win m) < a + n) && decide (a < winBase (s.win m) + winSize (s.win m) * 256)

/-! ### Value stores (R61, R65, R68, R429) -/

/-- The key of a logical entry of a BP: bank 1 only in TWOSTATE. -/
def vsKey (bp bank entry : Nat) : Nat := 512 * bp + 256 * bank + entry

/-- The key of an entry in the table of forces. -/
def forceKey (c key : Nat) : Nat := 262144 * c + key

/-- The force on an entry, if any (R429). -/
def State.forced (s : State) (c key : Nat) : Option Val := kvGet none s.dbg.forces (forceKey c key)

/-- What an operand read of an entry returns (R62, R429). -/
def State.vsRead (s : State) (c key : Nat) : Val := kvGet s.dfl (s.clause c).vs key

/-- The physical entry of a key. -/
def physEntry (key : Nat) : Nat := 256 * (key / 512) + key % 256

/-- A write of a value-store entry; a forced entry discards it (R429). The physical entry gets fresh parity (R68). -/
def vsWrite (c : Nat) (key : Nat) (v : Val) (s : State) : State :=
  if (s.forced c key).isSome then s
  else s.modClause c fun x =>
    { x with vs := kvSet s.dfl x.vs key v, vsBad := kvSet false x.vsBad (physEntry key) false }

/-! ### Loads in progress (R133, R194, R310) -/

/-- A DESIGN load is in progress. -/
def State.designLoad (s : State) : Bool := (s.load.job.map fun j => j.img.isSome).getD false

/-- A RELOAD has begun whose directory, which names its clauses, has not been read (R310, R311). -/
def State.reloadUnread (s : State) : Bool :=
  match s.load.job with
  | some j => j.stage == .directory && leAt j.hdr 8 1 == 3
  | none => false

/-- A load of clause c is in progress: a DESIGN load, or a RELOAD that names it (R133). -/
def State.loadingClause (s : State) (c : Nat) : Bool :=
  s.designLoad || (s.load.job.map fun j => j.named.contains c).getD false

/-! ### Fences and stops (R42 to R47) -/

/-- Own number and fence step go to every used link (R43, R250). -/
def sendFence (f : Nat) (dev : Nat) (s : State) : State :=
  s.usedLinks.foldl (fun s l => s.modLink l fun x => { x with fences := x.fences ++ [(f, dev)] }) s

/-- A fence step replaces the pending one only if it is smaller, and is sent on when adopted (R43). -/
def adoptFence (f : Nat) (dev : Nat) (s : State) : State :=
  match s.seq.fence with
  | some (p, _) =>
    if f < p then sendFence f dev { s with seq := { s.seq with fence := some (f, dev) } } else s
  | none => sendFence f dev { s with seq := { s.seq with fence := some (f, dev) } }

/-- A stop request whose raise step is t - 1, that is made before step t (R42): the fence step is DIST steps after the
raise step, or the next step where the slot maps use no link. -/
def stopRequestAt (t : Nat) (s : State) : State :=
  adoptFence (if s.usedLinks.isEmpty then t else t + s.fget F.SEQ_FENCE_DIST - 1) s.devnum s

/-- A stop request with the last step begun as its raise step (R42). -/
def stopRequest (s : State) : State := stopRequestAt s.seq.step s

end Sys2Proof.Machine
end

