-- ==== Sys2Proof/Machine/Clock.lean ====
section
/-! DEFINITION. Clock.lean: operating points, their voltage targets and the throttle level (R561 to R567). -/
namespace Sys2Proof.Machine

/-! ### Voltage targets (R562 to R564) -/

/-- The default target of an operating point in mV (R562). -/
def oppDefault : Nat → Nat
  | 0 => 680
  | 1 => 780
  | _ => 850

/-- The calibration records in flash with a valid commit word; one without is ignored (R573). DEDUCED (log 64): the word is
that of R320. -/
def State.calRecords (s : State) : List (List Byte) :=
  (Config.calSplit (s.flashRead 0x10000 0x70000)).filter fun r => leAt (r.drop (r.length - 4)) 0 4 == 0x5AC33CA5

/-- The factory target of an operating point from the calibration records, if there is one (R563, R573). -/
def State.avsFactory (s : State) (opp : Nat) : Option Nat := Config.avsOf s.calRecords opp

/-- The target of an operating point before its cap: factory value or default, plus the aging guardband (R563, R564). -/
def State.rawTarget (s : State) (opp : Nat) : Nat := (s.avsFactory opp).getD (oppDefault opp) + s.plt.guard

/-- The target of an operating point, capped at 0.85 V (R563). -/
def State.oppTarget (s : State) (opp : Nat) : Nat := min 850 (s.rawTarget opp)

/-- The VDD_STEP target now: that of the operating point in effect, or of the one a change upward raises it to (R562). -/
def State.target (s : State) : Nat :=
  match s.plt.opp with
  | some (_, new, .rising) | some (_, new, .upDue) => s.oppTarget new
  | _ => s.oppTarget (s.fget F.PLT_STAT_OPPACT)

/-! ### Operating-point changes (R23, R561, R562) -/

/-- The frequency switches (R562): OPPACT and PLT_OPP. -/
def freqSwitch (old new : Nat) (s : State) : State :=
  (s.fset F.PLT_STAT_OPPACT new).raise F.PLT_EVT_OPP 0 5 ([old, new] ++ w64 s.seq.step)

/-- A change to another operating point begins (R562): up, the voltage first; down, the frequency first, at once where the
sequencer is not stepping. -/
def oppStart (new : Nat) (s : State) : State :=
  let old := s.fget F.PLT_STAT_OPPACT
  if new = old then s
  else
    let s1 := s.fset F.PLT_STAT_OPP_BUSY 1
    if old < new then { s1 with plt := { s1.plt with opp := some (old, new, .rising) } }
    else if s.clockWaits then { s1 with plt := { s1.plt with opp := some (old, new, .downDue) } }
    else
      let s2 := freqSwitch old new s1
      { s2 with plt := { s2.plt with opp := some (old, new, .falling) } }

/-- A change is complete: the last value written meanwhile is applied (R562). -/
def oppDone (s : State) : State :=
  let next := s.plt.oppNext
  let s1 := { s with plt := { s.plt with opp := none, oppNext := none } }.fset F.PLT_STAT_OPP_BUSY 0
  match next with
  | some c => oppStart c s1
  | none => s1

/-- What waits for a step boundary takes effect there: a frequency change and a change of spread (R23, R561, R562). -/
def clockBoundary (s : State) : State :=
  let s1 := match s.plt.sscDue with
    | some b => { s with plt := { s.plt with ssc := b, sscDue := none } }
    | none => s
  match s1.plt.opp with
  | some (old, new, .upDue) => oppDone (freqSwitch old new s1)
  | some (old, new, .downDue) =>
    let s2 := freqSwitch old new s1
    { s2 with plt := { s2.plt with opp := some (old, new, .falling) } }
  | _ => s1

/-- PLT_CTL.OPP is written (R562): code 3 is ignored; during a change the last value written is kept. -/
def oppWrite (code : Nat) (s : State) : State :=
  if 2 < code then s
  else
    let s1 := s.fset F.PLT_CTL_OPP code
    if s.plt.opp.isSome then { s1 with plt := { s1.plt with oppNext := some code } } else oppStart code s1

/-- The voltage has settled within 10 mV (R562): OPP_BUSY clears, and upward the frequency switches at a boundary. -/
def oppSettle (s : State) : State :=
  match s.plt.opp with
  | some (old, new, .rising) =>
    if s.clockWaits then
      { s with plt := { s.plt with opp := some (old, new, .upDue) } }.fset F.PLT_STAT_OPP_BUSY 0
    else oppDone (freqSwitch old new s)
  | some (_, _, .falling) => oppDone s
  | _ => s

/-- PLT_CTL.SSC_EN is written (R561). -/
def sscWrite (on : Bool) (s : State) : State :=
  let s1 := s.fsetb F.PLT_CTL_SSC_EN on
  if s.stepping then { s1 with plt := { s1.plt with sscDue := some on } } else { s1 with plt := { s1.plt with ssc := on } }

/-! ### Throttling (R565 to R567) -/

/-- The reading of a sensor in 1/16 °C. -/
def State.temp (s : State) (k : Nat) : Int := (kvGet 0#16 s.plt.temps k).toInt

/-- The hottest of the 48 sensors (R565): its reading in 1/16 °C, and the first sensor that holds it. -/
def State.hottest (s : State) : Int := (List.range 48).foldl (fun m k => max m (s.temp k)) (s.temp 0)
def State.hotSensor (s : State) : Nat := ((List.range 48).find? fun k => s.temp k == s.hottest).getD 0

/-- TMAX in whole degrees, at least 0 (R583). -/
def State.tmax (s : State) : Nat := (s.hottest / 16).toNat

/-- The requests in the order of THRSRC: thermal, droop, power, forced (R566, R583). -/
def State.throttleReqs (s : State) : List Nat :=
  [s.plt.thermReq, if s.plt.droop then 8 else 0, s.plt.powerReq,
   max (s.fget F.PLT_CTL_THRMIN) (if s.plt.avsForce then 8 else 0)]

/-- The throttle level (R566): the largest request. -/
def State.throttle (s : State) : Nat := s.throttleReqs.foldl max 0

/-- The STEP frequency in kHz before spread (R23, R562, R566): the operating point's, times (16 - k) / 16 at throttle level k. -/
def State.stepKhz (s : State) : Nat :=
  [1200000, 1600000, 1800000].getD (s.fget F.PLT_STAT_OPPACT) 1600000 * (16 - s.fget F.PLT_STAT_THR) / 16

/-- ALERT_N is driven low (R567). -/
def State.alert (s : State) : Bool :=
  s.fget F.PLT_STAT_THR != 0 || decide (s.fget F.PLT_THR_TALERT ≤ s.fget F.PLT_STAT_TMAX)

/-- ALERT_N follows its condition: a change of its level reaches the pin. -/
def alertPin (was : Bool) (s : State) : State := if s.alert == was then s else s.emit (.pin "ALERT_N" (!s.alert))

/-- THR and THRSRC follow the requests; PLT_THROTTLE when the level leaves 0 and when it returns (R566, R567). No source
stands in THRSRC at level 0; on the return to 0 the packet names those of the level left. -/
def throttleApply (s : State) : State :=
  let k := s.throttle
  let src := if k = 0 then 0 else maskOf 4 fun i => s.throttleReqs.getD i 0 == k
  let old := s.fget F.PLT_STAT_THR
  let oldSrc := s.fget F.PLT_STAT_THRSRC
  let s1 := (s.fset F.PLT_STAT_THR k).fset F.PLT_STAT_THRSRC src
  let s2 := if old = 0 ∧ k ≠ 0 then s1.raise F.PLT_EVT_THROTTLE 0 1 ([0, src] ++ w64 s.seq.step)
    else if old ≠ 0 ∧ k = 0 then s1.raise F.PLT_EVT_THROTTLE 0 1 ([1, oldSrc] ++ w64 s.seq.step)
    else s1
  alertPin s.alert s2

/-- PLT_CTL.THRMIN is written (R566). -/
def thrminWrite (level : Nat) (s : State) : State := throttleApply (s.fset F.PLT_CTL_THRMIN level)

/-- The sensors are sampled (R565, R567): PLT_THERM on a crossing of TALERT upward. -/
def sensorSample (temps : List (BitVec 16)) (s : State) : State :=
  let s1 := { s with plt := { s.plt with temps := kvSetAll 0#16 s.plt.temps ((List.range 48).zip temps) } }
  let hot := decide (s.fget F.PLT_THR_TALERT ≤ s1.tmax)
  let s2 := { s1.fset F.PLT_STAT_TMAX s1.tmax with plt := { s1.plt with hot := hot } }
  let s3 := if hot && !s.plt.hot then s2.raise F.PLT_EVT_THERM 0 2 [s1.hotSensor, s1.tmax] else s2
  alertPin s.alert s3

/-- A thermal or power request steps on its timer (R566). -/
def throttleStep (thermal : Bool) (powerW : Nat) (s : State) : State :=
  let t := s.fget F.PLT_STAT_TMAX
  let hot := s.fget F.PLT_THR_THOT
  let lim := s.fget F.PLT_THR_PLIM
  let p := s.plt
  let q := if thermal then
      { p with thermReq := if hot ≤ t then min 15 (p.thermReq + 1) else if t + 2 < hot then p.thermReq - 1 else p.thermReq }
    else
      { p with power := powerW, powerReq :=
          if lim < powerW then min 15 (p.powerReq + 1) else if 100 * powerW < 95 * lim then p.powerReq - 1 else p.powerReq }
  throttleApply { s with plt := q }

/-- A VDD_STEP monitor reads (R565, R566): below its target by DELTA it requests at least level 8. -/
def droopDetect (monitor mv : Nat) (s : State) : State :=
  let low := match kvGet none s.plt.vmin monitor with | some v => min v mv | none => mv
  let p := { s.plt with vmon := kvSet 0 s.plt.vmon monitor mv, vmin := kvSet none s.plt.vmin monitor (some low) }
  let below := decide (monitor < 48) && decide (mv + s.fget F.PLT_DROOP_DELTA ≤ s.target)
  throttleApply { s with plt := { p with droop := p.droop || below } }

/-- 1 µs after the last such reading the droop request ends (R566). -/
def droopRelease (s : State) : State := throttleApply { s with plt := { s.plt with droop := false } }

/-- The regulator does not acknowledge (0), or deviates for 1 ms (1) (R563): level 8 is forced. -/
def avsFail (kind measured : Nat) (s : State) : State :=
  let s1 := { s with plt := { s.plt with avsForce := true, mv := if kind = 0 then s.plt.mv else measured } }
  (throttleApply s1).raise F.PLT_EVT_AVS 0 9 [kind, s.target, measured]

/-- The deviation has stayed below 25 mV for 10 ms (R563). -/
def avsClear (s : State) : State := throttleApply { s with plt := { s.plt with avsForce := false } }

/-! ### Aging (R564) -/

/-- A list of numbers in ascending order. -/
def sorted (l : List Nat) : List Nat :=
  l.foldl (fun acc v => acc.takeWhile (fun x => decide (x ≤ v)) ++ v :: acc.dropWhile (fun x => decide (x ≤ v))) []

/-- Twice the median of 32 numbers: the sum of the two in the middle. -/
def median2 (l : List Nat) : Nat := (sorted l).getD 15 0 + (sorted l).getD 16 0

/-- The aging rings are compared (R564): 2 mV for each full 1 % of slowdown; PLT_AGING once an uncapped target exceeds
0.85 V. -/
def agingCheck (counts : List Word) (s : State) : State :=
  let s1 := { s with plt := { s.plt with
    age := kvSetAll 0 s.plt.age ((List.range 32).zip (counts.map BitVec.toNat)) } }
  let f := median2 ((List.range 32).map Config.ageFactory)
  let c := median2 ((List.range 32).map fun k => kvGet 0 s1.plt.age k)
  let s2 : State := { s1 with plt := { s1.plt with guard := 2 * (100 * (f - c) / f) } }
  let mask := maskOf 3 fun k => decide (850 < s2.rawTarget k)
  if mask ≠ 0 ∧ ¬ s2.plt.agedRaised then
    { s2 with plt := { s2.plt with agedRaised := true } }.raise F.PLT_EVT_AGING 0 8 [1000 * (f - c) / f, mask]
  else s2

end Sys2Proof.Machine
end

