-- ==== Sys2Proof/Machine/Lex.lean ====
section
/-! DEFINITION. Lex.lean: the bank ports of the lexicon: clause accesses in their order, and NoC masters that wait for a port
(R206, R212 to R217). -/
namespace Sys2Proof.Machine

/-- The values of an element read (R209, R223): an uncorrectable one is X in every value, or the data as read in TWOSTATE. -/
def State.readVals (s : State) (width : Nat) (bytes : List Byte) (ue : Bool) : List Val :=
  let vs := elemVals s.seq.twostate width bytes
  if ue && !s.seq.twostate then (List.range 128).map fun j => if j < width then vX else vs.getD j s.dfl else vs

/-- A bank performs a clause access (R212, R223): a write stores its element as a whole, a read takes it for the return of
its own MGO, that of its port and step (R107). -/
def performLex (a : LexAcc) (s : State) : State :=
  if a.write then userWrite a.m a.addr a.data s
  else
    let r := userRead a.m a.addr a.stride s
    let put (x : MemRet) : MemRet := { x with served := true, vals := s.readVals x.width r.1 r.2.1 }
    let rec go : List MemRet → List MemRet
      | [] => []
      | x :: t => if x.m = a.m && !x.hbm && x.due == a.step + 7 && !x.served then put x :: t else x :: go t
    { r.2.2 with umem := { r.2.2.umem with rets := go r.2.2.umem.rets } }

/-- The accesses of a bank that its ports serve in one STEP cycle (R206, R214, R215): the head of its order, and on a
dual-port bank the next one too, unless both touch one word or name one port. -/
def lexHeads (bank : Nat) (q : List LexAcc) : List LexAcc :=
  match q.filter fun x => lexBank x.addr == bank with
  | [] => []
  | [a] => [a]
  | a :: b :: _ =>
    if bank % 16 = 0 && a.portB != b.portB && lexWord a.addr != lexWord b.addr then [a, b] else [a]

/-- The queue without the first k accesses of a bank. -/
def lexDrop (bank : Nat) : Nat → List LexAcc → List LexAcc
  | 0, q => q
  | _, [] => []
  | k + 1, x :: t => if lexBank x.addr == bank then lexDrop bank k t else x :: lexDrop bank (k + 1) t

/-- The NoC uses bank port B of a dual-port bank and port A of every other (R216). -/
def nocPort (bank : Nat) : Bool := bank % 16 == 0

/-- A clause access is queued for the bank port that the NoC uses (R216). -/
def State.nocBlocked (s : State) (bank : Nat) : Bool :=
  s.umem.lexq.any fun x => lexBank x.addr == bank && x.portB == nocPort bank

/-- The NoC accesses that wait for a bank port spend a STEP cycle (R216). -/
def nocWaits (bank : Nat) (s : State) : State :=
  let q := s.umem.nocq.map fun x => if lexBank x.addr = bank then { x with waited := x.waited + 1 } else x
  { s with umem := { s.umem with nocq := q } }

/-- A bank serves its queue for one STEP cycle (R214, R215). -/
def lexServe (bank : Nat) (s0 : State) : State :=
  let hs := lexHeads bank s0.umem.lexq
  let s := if s0.nocBlocked bank then nocWaits bank s0 else s0
  hs.foldl (fun s a => performLex a s)
    { s with umem := { s.umem with lexq := lexDrop bank hs.length s.umem.lexq } }

/-! ### NoC masters (R216, R217, R222) -/

/-- A calibration slice of the stack of an address runs: accesses to the stack wait for its end (R222). -/
def State.hbmHeld (s : State) (a : Nat) : Bool := isHbm a && nbit (s.fget F.MEM_STAT_CAL_BUSY) (hbmStack a)

/-- A range touches a stack whose calibration slice runs (R222). -/
def State.rangeHeld (s : State) (a n : Nat) : Bool := s.hbmHeld a || s.hbmHeld (a + n - 1)

/-- An access of a NoC master kind has been served after it waited: it is counted (R217). -/
def nocWaited (kind waited : Nat) (s : State) : State :=
  if waited = 0 then s
  else { s with umem := { s.umem with
    nocm := kvMod 0 (kvMod 0 s.umem.nocm (2 * kind) (satSucc 32)) (2 * kind + 1) (· + waited) } }

/-- A NoC access waits for the STEP cycles in which its bank port serves clause accesses, `w` of them so far; one that has waited
longer than MEM_NOCWAIT.LIMIT is reported once (R216, R217). -/
def portWait (kind bank : Nat) : Nat → Nat → State → State
  | 0, w, s => nocWaited kind w s
  | k + 1, w, s =>
    if s.nocBlocked bank then
      let s1 := lexServe bank s
      let lim := s.fget F.MEM_NOCWAIT_LIMIT
      portWait kind bank k (w + 1) (if lim != 0 && w == lim then s1.raise F.MEM_EVT_NOC_STARVE 10 9 [kind, bank, w + 1] else s1)
    else nocWaited kind w s

/-- The lexicon banks of a range. -/
def lexBanks (a n : Nat) : List Nat := (((memPieces a n).filter fun p => isLex p.1).map fun p => lexBank p.1).dedup

/-- A NoC access to a range waits for its bank ports (R216). -/
def lexWait (kind a n : Nat) (s : State) : State :=
  (lexBanks a n).foldl (fun s b => portWait kind b (s.umem.lexq.length + 1) 0 s) s

/-- A read, and a write, of user memory by a NoC master that waits for the bank ports it needs (R216, R223). -/
def portRead (kind a n : Nat) (s : State) : List Byte × Bool × State := nocRead kind a n (lexWait kind a n s)
def portWrite (kind a : Nat) (bs : List Byte) (s : State) : Bool × State := nocWrite kind a bs (lexWait kind a bs.length s)

end Sys2Proof.Machine
end

