-- ==== Sys2Proof/Machine/Cap.lean ====
section
/-! DEFINITION. Cap.lean: the two trace streams (R385 to R400): packets, the capture buffer, the drain to the trace
regions, and the commands that start, stop and drain them. -/
namespace Sys2Proof.Machine

/-! ### The signal stream (R387 to R394) -/

/-- The header of a signal packet (R387). -/
def sigHdr (ty len f : Nat) : DWord := BitVec.ofNat 64 (ty * 2 ^ 60 + len % 4096 * 2 ^ 48 + f % 2 ^ 48)

/-- The state with the signal capture changed. -/
def State.modSig (s : State) (f : SigCap → SigCap) : State := { s with cap := { s.cap with sig := f s.cap.sig } }

/-- The state with the management trace changed. -/
def State.modMt (s : State) (f : MtCap → MtCap) : State := { s with cap := { s.cap with mt := f s.cap.mt } }

/-- Words join the capture buffer. -/
def sigPut (ws : List DWord) (s : State) : State :=
  s.modSig fun x => { x with buf := x.buf ++ ws, words := x.words + ws.length }

/-- PAD words up to the next 64-byte boundary of the region (R389). -/
def sigPad (s : State) : State := sigPut (List.replicate ((8 - s.cap.sig.words % 8) % 8) 0) s

/-- A SYNC packet for the next step captured, at a 64-byte boundary (R387, R389). -/
def sigSync (step : Nat) (s : State) : State :=
  let w1 := 0x53594E43 * 2 ^ 32 + s.gen * 2 ^ 16 + s.seq.twostate.toNat * 2 ^ 15 + s.seq.depth / 64 * 2 ^ 9
  let w4 := s.cap.sig.epoch % 2 ^ 32 * 2 ^ 32 + s.cap.sig.stepPkts % 2 ^ 32
  (sigPut [sigHdr 1 4 0, BitVec.ofNat 64 w1, BitVec.ofNat 64 step, BitVec.ofNat 64 s.ptime, BitVec.ofNat 64 w4]
    (sigPad s)).modSig fun x => { x with sinceSync := 0, syncStep := step, syncDue := false }

/-- A MARK packet (R387): stop flag, cause and unit. -/
def sigMark (stop : Bool) (cause unit step : Nat) (s : State) : State :=
  sigPut [sigHdr 6 1 step, BitVec.ofNat 64 (stop.toNat + cause * 2 + unit * 16)] s

/-- The capture buffer of 4 MiB, in bytes (R393). -/
def capBufBytes : Nat := 4194304

/-- Bytes that wait in the capture buffer. -/
def State.capFill (s : State) : Nat := 8 * s.cap.sig.buf.length + s.cap.mt.buf.length

/-- The 64-bit words that hold the values of a chunk (R388). -/
def chunkWords (two : Bool) (vals : List Val) : List DWord :=
  let per := if two then 64 else 32
  (List.range ((vals.length + per - 1) / per)).map fun w =>
    BitVec.ofNat 64 ((List.range per).foldl
      (fun a k =>
        let v := vals.getD (w * per + k) 0
        a + (if two then (v.getLsbD 1).toNat * 2 ^ k else v.toNat * 4 ^ k)) 0)

/-- The chunks of a STEP packet: for each clause its captured values in capture-map order (R388). -/
def stepChunks (two : Bool) (caps : List (Nat × List Val)) : List DWord :=
  caps.flatMap fun e => BitVec.ofNat 64 (e.1 * 2 ^ 58 + e.2.length * 2 ^ 48) :: chunkWords two e.2

/-- The OVERFLOW packet that covers the packets dropped, when room has returned (R394). -/
def sigOverflow (s : State) : State :=
  match s.cap.sig.lost with
  | none => s
  | some (a, b, n) =>
    ((sigPut [sigHdr 3 2 a, BitVec.ofNat 64 (b % 2 ^ 48), BitVec.ofNat 64 n] s).modSig
      fun x => { x with lost := none, syncDue := true }).raise
      F.CAP_EVT_OVERFLOW 12 2 ([0] ++ w64 a ++ w64 b ++ [min n (2 ^ 32 - 1)])

/-- The SYNC that is due, after an OVERFLOW or 4,096 STEP packets (R389). -/
def sigSyncDue (step : Nat) (s : State) : State :=
  if s.cap.sig.syncDue || decide (4096 ≤ s.cap.sig.sinceSync) then sigSync step s else s

/-- A step's captured values enter the stream (R388, R389, R394): first what is due before it, then its STEP packet; in lossy mode
it is dropped whole where it finds no room. In lossless mode the step had its room before it began (R28). -/
def sigStep (n : Nat) (caps : List (Nat × List Val)) (s : State) : State :=
  let body := stepChunks s.seq.twostate caps
  if !s.cap.sig.on || caps.isEmpty then s
  else if s.fbit F.CAP_SIGCTL_LOSSY && decide (capBufBytes < s.capFill + 8 * (body.length + 1)) then
    s.modSig fun x => { x with
      dropped := x.dropped + 1
      lost := match x.lost with
        | none => some (n, n, 1)
        | some (a, _, k) => some (a, n, k + 1) }
  else
    let s1 := sigSyncDue n (sigOverflow s)
    let s2 := if 2 ^ 32 ≤ n - s1.cap.sig.syncStep then sigSync n s1 else s1
    let s3 := (sigPut (s2.cap.sig.epochDue.flatMap fun e => [sigHdr 4 1 e.1, BitVec.ofNat 64 e.2]) s2).modSig
      fun x => { x with epochDue := [] }
    (sigPut (sigHdr 2 body.length n :: body) s3).modSig
      fun x => { x with stepPkts := x.stepPkts + 1, sinceSync := x.sinceSync + 1 }

/-- An EPOCH packet for the step counter is due: changes at one boundary share it. -/
def epochAdd (step bit : Nat) : List (Nat × Nat) → List (Nat × Nat)
  | [] => [(step, putBit 0 bit true)]
  | (a, b) :: t => if a = step then (a, putBit b bit true) :: t else (a, b) :: epochAdd step bit t

/-- The capture map changes at a user-cycle boundary (R386, R387): cause bit 0 patch, 1 reload, 2 WGMASK, 3 token. The step counter
is the first step under the new map. -/
def sigEpoch (bit : Nat) (s : State) : State :=
  if s.cap.sig.on then
    s.modSig fun x => { x with epoch := x.epoch + 1, epochDue := epochAdd s.seq.step bit x.epochDue }
  else s

/-- A region and its rules (R391): reason 1 size, 2 placement, 3 overlap, 4 WRAP in lossless mode; none when it stands. -/
def regionFault (base log obase olog : Nat) (wrapLossless : Bool) : Option Nat :=
  if log < 12 ∨ 34 < log then some 1
  else if base % 4096 ≠ 0 ∨ !isHbm base ∨ !isHbm (base + 2 ^ log - 1) then some 2
  else if 12 ≤ olog ∧ base < obase + 2 ^ olog ∧ obase < base + 2 ^ log then some 3
  else if wrapLossless then some 4
  else none

/-- A request to start signal capture, from the register (cause 0) or a trigger unit (cause 1) (R390, R391). -/
def sigStartReq (cause unit : Nat) (s : State) : State :=
  let done := fun s : State => s.fset F.CAP_SIGCTL_START 0
  let lossless := !s.fbit F.CAP_SIGCTL_LOSSY
  match regionFault s.cap.sigBase s.cap.sigLog s.cap.mtBase s.cap.mtLog (lossless && s.fbit F.CAP_SIGCTL_WRAP) with
  | some r => done (s.raise F.CAP_EVT_REGION 12 4 [0, r])
  | none =>
    if s.cap.sig.on || s.cap.sig.stopMark == some s.seq.step then done s
    else (s.fset F.CAP_SIGCTL_START 1).modSig fun x => { x with startReq := some (cause, unit) }

/-- A start that waited takes effect as the next step begins (R389, R390). -/
def sigBegin (n : Nat) (s : State) : State :=
  match s.cap.sig.startReq with
  | none => s
  | some (cause, unit) =>
    sigMark false cause unit n (sigSync n
      (((s.fset F.CAP_SIGCTL_START 0).fset F.CAP_SIGWP_WP 0).modSig fun x => { x with
        on := true, startReq := none, stopAt := none, buf := [], words := 0, lost := none, epoch := 0, epochDue := [],
        stepPkts := 0, dropped := 0, sinceSync := 0, syncDue := false, wg := s.fget F.CAP_SIGCTL_WGMASK }))

/-- A request to stop signal capture: the steps below `next + POST` are still captured, where `next` follows the step
the request counts from (R390). A start that waits at the same boundary loses. -/
def sigStopReq (cause unit next : Nat) (s : State) : State :=
  let s1 := s.modSig fun x => { x with startReq := none, stopMark := some s.seq.step }
  let s2 := s1.fset F.CAP_SIGCTL_START 0
  if s.cap.sig.on && s.cap.sig.stopAt.isNone then
    (s2.fset F.CAP_SIGCTL_STOP 1).modSig fun x => { x with
      stopAt := some (next + s.fget F.CAP_SIGPOST_POST), stopCause := cause, stopUnit := unit }
  else s2

/-- The lines of a region of 2^LOG2 bytes. -/
def regionLines (log : Nat) : Nat := 2 ^ log / 64

/-- A line may be written at WP (R392). -/
def State.sigRoom (s : State) : Bool :=
  s.fbit F.CAP_SIGCTL_WRAP ||
    (s.fget F.CAP_SIGWP_WP + 1) % regionLines s.cap.sigLog != s.fget F.CAP_SIGRP_RP

/-- One line of the signal stream goes to its region and WP advances (R392). A line in a claimed window without CONTROL gets
no OK acknowledgement and stays (R546). -/
def sigDrain1 (s : State) : State :=
  let wp := s.fget F.CAP_SIGWP_WP
  if s.cap.sig.buf.length < 8 || !s.sigRoom || s.hbmHeld (s.cap.sigBase + 64 * wp) || s.memClosed 2 (s.cap.sigBase + 64 * wp) 64 then s
  else
    let bytes := (s.cap.sig.buf.take 8).flatMap fun w => leBytes 8 w.toNat
    ((portWrite 2 (s.cap.sigBase + 64 * wp) bytes s).2.fset F.CAP_SIGWP_WP ((wp + 1) % regionLines s.cap.sigLog)).modSig
      fun x => { x with buf := x.buf.drop 8 }

/-- Up to k lines of the signal stream go to their region. -/
def sigDrain : Nat → State → State
  | 0, s => s
  | k + 1, s => sigDrain k (sigDrain1 s)

/-- Free lines of the signal region. -/
def State.sigFree (s : State) : Nat :=
  let n := regionLines s.cap.sigLog
  if s.fbit F.CAP_SIGCTL_WRAP then n
  else (s.fget F.CAP_SIGRP_RP + n - 1 - s.fget F.CAP_SIGWP_WP % n) % n

/-- The last step to capture has passed: what is due, MARK, padding, the remainder to the region, CAP_STOPPED (R389, R390). It waits
until the region has room for the remainder. A SYNC that is due here names no captured step: that word is a free value (log 4). -/
def sigPostEnd (s : State) : State :=
  match s.cap.sig.stopAt with
  | none => s
  | some e =>
    if s.seq.step < e then s
    else
      let x := s.cap.sig
      let f := (sigOverflow s).freshNat
      let s1 := sigPad (sigMark true x.stopCause x.stopUnit (e - 1) (sigSyncDue f.1 f.2))
      let k := s1.cap.sig.buf.length / 8
      if s.sigFree < k then s
      else
        let s2 := sigDrain k s1
        ((s2.modSig fun y => { y with on := false, stopAt := none }).fset F.CAP_SIGCTL_STOP 0).raise
          F.CAP_EVT_STOPPED 12 5 ([0, x.stopCause, x.stopUnit] ++ w64 (e - 1) ++ [s2.fget F.CAP_SIGWP_WP])

/-- Capture goes off without a stop: a load, a checkpoint restore (R390). -/
def sigOff (s : State) : State :=
  ((s.modSig fun x => { x with on := false, startReq := none, stopAt := none, buf := [], lost := none }).fset
    F.CAP_SIGCTL_START 0).fset F.CAP_SIGCTL_STOP 0

/-! ### The management trace (R396 to R400) -/

/-- DELTA in 1 to 3 bytes of 7 bits, low bits first (R397). -/
def mtDelta (d : Nat) : List Byte :=
  if d < 128 then [BitVec.ofNat 8 d]
  else if d < 16384 then [BitVec.ofNat 8 (128 + d % 128), BitVec.ofNat 8 (d / 128)]
  else [BitVec.ofNat 8 (128 + d % 128), BitVec.ofNat 8 (128 + d / 128 % 128), BitVec.ofNat 8 (d / 16384)]

/-- A source may be traced: its bit of SRCMASK, and level L3 for the security pair and for the control pair in M-mode
(R396); the trace of the control pair needs L2 (R420). -/
def State.mtAllowed (s : State) (src : Nat) : Bool :=
  let lvl := max s.dbg.tapLevel s.dbg.hostLevel
  nbit (s.fget F.CAP_MTCTL_SRCMASK) src &&
    (if src == 1 then decide (3 ≤ lvl) else if (s.pair 0).priv == 3 then decide (3 ≤ lvl) else decide (2 ≤ lvl))

/-- A line of the trace region may be written at WP (R392). -/
def State.mtRoom (s : State) : Bool :=
  s.fbit F.CAP_MTCTL_WRAP ||
    (s.fget F.CAP_MTWP_WP + 1) % regionLines s.cap.mtLog != s.fget F.CAP_MTRP_RP

/-- A packet of a source joins the stream; it never crosses a 64-byte line, and without room in the capture
buffer or the region it is dropped (R397, R399). One MGT cycle is 1 ns. -/
def mtPut (src ty info : Nat) (zeroDelta : Bool) (body : List Byte) (s : State) : State :=
  let d := if zeroDelta then 0 else s.now - kvGet 0 s.cap.mt.lastT src
  let pkt := BitVec.ofNat 8 (ty * 16 + src * 8 + info) :: (mtDelta (min d 2097151) ++ body)
  let pad := if 64 - s.cap.mt.bytes % 64 < pkt.length then 64 - s.cap.mt.bytes % 64 else 0
  let all := List.replicate pad 0#8 ++ pkt
  if capBufBytes < s.capFill + all.length || !s.mtRoom then
    s.modMt fun x => { x with
      dropped := x.dropped + 1
      lostBy := kvMod 0 x.lostBy src (· + 1)
      lost := match x.lost with
        | none => some (s.seq.step, s.seq.step, 1)
        | some (a, _, k) => some (a, s.seq.step, k + 1) }
  else
    s.modMt fun x => { x with
      buf := x.buf ++ all, bytes := x.bytes + all.length, written := x.written + 1
      lastT := kvSet 0 x.lastT src s.now, sinceSync := kvMod 0 x.sinceSync src (· + 1) }

/-- A SYNC packet of a source (R397, R398). -/
def mtSync (src : Nat) (zeroDelta : Bool) (s : State) : State :=
  (mtPut src 4 (s.pair src).priv zeroDelta
    (leBytes 8 (s.pair src).pc.toNat ++ leBytes 8 s.ptime ++ leBytes 8 s.seq.step) s).modMt
    fun x => { x with sinceSync := kvSet 0 x.sinceSync src 0, lastAddr := kvSet 0#64 x.lastAddr src (s.pair src).pc }

/-- A packet of a traced source, with the SYNC that is due before it (R398): after excluded execution, after 4,096 packets, or where
DELTA would be too long. -/
def mtPacket (src ty info : Nat) (body : List Byte) (s : State) : State :=
  let s1 := if 4096 ≤ kvGet 0 s.cap.mt.sinceSync src ∨ 2097151 < s.now - kvGet 0 s.cap.mt.lastT src then mtSync src false s else s
  mtPut src ty info false body s1

/-- The code that a source runs has become excluded, or no longer is (R396): EXCL, then nothing until a SYNC. The security pair
writes nothing where it was never authorised. -/
def mtWatch (src : Nat) (s : State) : State :=
  if !s.cap.mt.on || !nbit (s.fget F.CAP_MTCTL_SRCMASK) src then s
  else
    let was := kvGet false s.cap.mt.excl src
    let mark (v : Bool) (s : State) : State := s.modMt fun x => { x with excl := kvSet false x.excl src v }
    if s.mtAllowed src then (if was then mtSync src false (mark false s) else s)
    else if was then s
    else mark true (mtPacket src 6 (if src = 1 then 7 else (s.pair src).priv) [] s)

/-- Every traced source does something in turn. -/
def mtEach (f : Nat → State → State) (s : State) : State :=
  [0, 1].foldl (fun s src => if s.mtAllowed src then f src s else s) s

/-- The management trace starts (R400): by = byte of the MARK packet, [7] 0 register or 1 trigger, [3:0] unit or channel. -/
def mtStartReq (by_ : Nat) (s : State) : State :=
  let done := fun s : State => s.fset F.CAP_MTCTL_START 0
  match regionFault s.cap.mtBase s.cap.mtLog s.cap.sigBase s.cap.sigLog false with
  | some r => done (s.raise F.CAP_EVT_REGION 12 4 [1, r])
  | none =>
    if s.cap.mt.on then done s
    else
      let s1 := ((done s).fset F.CAP_MTWP_WP 0).modMt fun x => { x with
        on := true, buf := [], bytes := 0, lastT := kvSet 0 (kvSet 0 [] 0 s.now) 1 s.now, sinceSync := [], lost := none
        lastAddr := [], outs := [], lostBy := [], slept := []
        excl := [0, 1].foldl (fun m src => kvSet false m src (!s.mtAllowed src)) [] }
      mtEach (fun src s => mtSync src false (mtPut src 8 0 false [BitVec.ofNat 8 by_] s)) s1

/-! #### Control flow (R397) -/

/-- The packet of n outcomes of conditional branches. -/
def mtBranch (src : Nat) (s : State) : State :=
  match kvGet [] s.cap.mt.outs src with
  | [] => s
  | o =>
    let v := (o.zipIdx.foldl (fun a e => a + (if e.1 then 2 ^ e.2 else 0)) 0) + 2 ^ o.length
    (mtPacket src 1 0 [BitVec.ofNat 8 v] s).modMt fun x => { x with outs := kvSet [] x.outs src [] }

/-- An outcome of a conditional branch: the seventh sends them. -/
def mtOutcome (src : Nat) (taken : Bool) (s : State) : State :=
  let s1 := s.modMt fun x => { x with outs := kvMod [] x.outs src (· ++ [taken]) }
  if 7 ≤ (kvGet [] s1.cap.mt.outs src).length then mtBranch src s1 else s1

/-- The address that a source jumps to: its low bytes in which it differs from the last one sent. -/
def mtTarget (src : Nat) (a : DWord) (s : State) : State :=
  let last := (kvGet 0#64 s.cap.mt.lastAddr src).toNat
  let n := ((List.range 8).find? fun n => decide (a.toNat / 256 ^ (n + 1) = last / 256 ^ (n + 1))).getD 7 + 1
  (mtPacket src 2 (n - 1) (leBytes n (a.toNat % 256 ^ n)) (mtBranch src s)).modMt fun x => { x with
    lastAddr := kvSet 0#64 x.lastAddr src a }

/-- A trap: privilege entered, cause byte, address of the trapped instruction, then the handler's address. -/
def mtTrap (src priv cause : Nat) (pc handler : DWord) (s : State) : State :=
  mtTarget src handler ((mtPacket src 3 priv (BitVec.ofNat 8 cause :: leBytes 8 pc.toNat) (mtBranch src s)).modMt fun x => { x with
    lastAddr := kvSet 0#64 x.lastAddr src pc })

/-- The kind of a RISC-V instruction for the trace: 1 a conditional branch, 2 an indirect jump or a return from a trap, 0 another
(R513; the encodings are the standard's, log 52). -/
def flowKind (w : Nat) : Nat :=
  if w % 4 = 3 then
    (if w % 128 = 0x63 then 1 else if w % 128 = 0x67 then 2 else if w = 0x30200073 ∨ w = 0x10200073 then 2 else 0)
  else
    let h := w % 65536
    if h % 4 = 1 ∧ 6 ≤ h / 8192 then 1
    else if h % 4 = 2 ∧ h / 8192 = 4 ∧ h / 4 % 32 = 0 ∧ h / 128 % 32 ≠ 0 then 2
    else 0

/-- One line of the management trace goes to its region, likewise (R392, R546). -/
def mtDrain1 (s : State) : State :=
  let wp := s.fget F.CAP_MTWP_WP
  if s.cap.mt.buf.length < 64 || !s.mtRoom || s.hbmHeld (s.cap.mtBase + 64 * wp) || s.memClosed 2 (s.cap.mtBase + 64 * wp) 64 then s
  else
    ((portWrite 2 (s.cap.mtBase + 64 * wp) (s.cap.mt.buf.take 64) s).2.fset F.CAP_MTWP_WP
      ((wp + 1) % regionLines s.cap.mtLog)).modMt fun x => { x with buf := x.buf.drop 64 }

/-- Up to k lines of the management trace go to their region. -/
def mtDrain : Nat → State → State
  | 0, s => s
  | k + 1, s => mtDrain k (mtDrain1 s)

/-- PAD bytes to the end of the line and what has room goes to the region (R397, R398). -/
def mtFlush (s : State) : State :=
  let s1 := s.modMt fun x =>
    let k := (64 - x.bytes % 64) % 64
    { x with buf := x.buf ++ List.replicate k 0#8, bytes := x.bytes + k }
  mtDrain (s1.cap.mt.buf.length / 64) s1

/-- One instruction of a traced source at `pc` with its bytes, the next pc, the privilege after it, and the cause of the trap it
took, if any (R396, R397). WFI writes POWER and flushes, and the next packet is a SYNC (R398). -/
def mtFlow (src insn priv : Nat) (pc next : DWord) (trap : Option DWord) (s0 : State) : State :=
  if !s0.cap.mt.on || !s0.mtAllowed src then s0
  else
    let s := if kvGet false s0.cap.mt.slept src then
        mtSync src true (s0.modMt fun x => { x with slept := kvSet false x.slept src false }) else s0
    match trap with
    | some c => mtTrap src priv ((c.toNat / 2 ^ 63) * 128 + c.toNat % 128) pc next s
    | none =>
      if insn = 0x10500073 then
        (mtFlush (mtPacket src 5 0 (leBytes 8 s.ptime) (mtBranch src s))).modMt fun x => { x with
          slept := kvSet false x.slept src true }
      else
        match flowKind insn with
        | 1 => mtOutcome src (next != pc + (if insn % 4 = 3 then 4 else 2)) s
        | 2 => mtTarget src next s
        | _ => s

/-- The management trace stops (R400), and CAP_STOPPED names it (R416). The step that the event names as the last one captured is
a free value (log 4): the trace captures none. -/
def mtStopReq (by_ : Nat) (s : State) : State :=
  let done := fun s : State => s.fset F.CAP_MTCTL_STOP 0
  if !s.cap.mt.on then done s
  else
    let s1 := (mtFlush (mtEach (fun src s => mtPacket src 8 1 [BitVec.ofNat 8 by_] (mtBranch src s)) (done s))).modMt
      fun x => { x with on := false }
    let f := s1.freshNat
    f.2.raise F.CAP_EVT_STOPPED 12 5 ([1, by_ / 128, by_ % 16] ++ w64 f.1 ++ [f.2.fget F.CAP_MTWP_WP])

/-- On entry to a debug halt a traced pair writes POWER and flushes (R398); on exit the first packet is a SYNC. -/
def mtHalt (src : Nat) (entry : Bool) (s : State) : State :=
  if s.cap.mt.on && s.mtAllowed src then
    if entry then mtFlush (mtPacket src 5 2 (leBytes 8 s.ptime) (mtBranch src s)) else mtSync src true s
  else s

/-- A line is written to the trace region and WP advances once it is acknowledged (R392, R393): the signal stream
first. -/
def captureDrain (s : State) : State :=
  if 8 ≤ s.cap.sig.buf.length ∧ s.sigRoom then sigDrain1 s else mtDrain1 s

/-- Room has returned after dropped packets (R394, R399). -/
def capOverflow (mt : Bool) (s : State) : State :=
  if mt then
    match s.cap.mt.lost with
    | none => s
    | some (a, b, n) =>
      if capBufBytes < s.capFill + 256 || !s.mtRoom then s
      else
        ((s.cap.mt.lostBy.map Prod.fst).foldl (fun s src =>
            mtSync src false (mtPut src 7 0 false (leBytes 2 (min 65535 (kvGet 0 s.cap.mt.lostBy src))) s)) s).modMt
          (fun x => { x with lost := none, lostBy := [] })
          |>.raise F.CAP_EVT_OVERFLOW 12 2 ([1] ++ w64 a ++ w64 b ++ [min n (2 ^ 32 - 1)])
  else if capBufBytes < s.capFill + 24 then s
  else sigOverflow s

end Sys2Proof.Machine
end

