-- ==== Sys2Proof/Machine/LnkWire.lean ====
section
/-! DEFINITION. LnkWire.lean: the bit stream of a link as it leaves on the lanes: scrambler, message blocks and codewords,
10-bit symbols, and the pattern on the spare lane (R238, R239). -/
namespace Sys2Proof.Machine

/-- One bit through the self-synchronous scrambler x^58 + x^39 + 1 (R238). -/
def scrambleBit (r : BitVec 58) (b : Bool) : Bool × BitVec 58 :=
  let o := (b ^^ r.getLsbD 57) ^^ r.getLsbD 38
  (o, (r <<< 1) ||| BitVec.ofNat 58 o.toNat)

/-- Bits through the scrambler, in order (R238). -/
def scramble (r : BitVec 58) : List Bool → List Bool × BitVec 58
  | [] => ([], r)
  | b :: bs =>
    let e := scrambleBit r b
    let t := scramble e.2 bs
    (e.1 :: t.1, t.2)

/-- The inverse: the receiver's descrambler sees the scrambled bits themselves (R238). -/
def descramble (r : BitVec 58) : List Bool → List Bool
  | [] => []
  | o :: os => ((o ^^ r.getLsbD 57) ^^ r.getLsbD 38) :: descramble ((r <<< 1) ||| BitVec.ofNat 58 o.toNat) os

/-- Groups of n bits cut from the front of a stream, and what is left; `fuel` bounds their number. -/
def cutGroups (n : Nat) : Nat → List Bool → List (List Bool) × List Bool
  | 0, bs => ([], bs)
  | fuel + 1, bs =>
    if bs.length < n then ([], bs)
    else
      let t := cutGroups n fuel (bs.drop n)
      (bs.take n :: t.1, t.2)

/-- The codeword of a 5,140-bit message block (R239). -/
def codeword (block : List Bool) : List Bool := block ++ Config.rsParity block

/-- One bit of the pattern PRBS31 (R239): x^31 + x^28 + 1. -/
def prbsBit (r : BitVec 31) : Bool × BitVec 31 :=
  let o := r.getLsbD 30 ^^ r.getLsbD 27
  (o, (r <<< 1) ||| BitVec.ofNat 31 o.toNat)

/-- n bits of the pattern PRBS31 (R239). -/
def prbsBits : Nat → BitVec 31 → List Bool × BitVec 31
  | 0, r => ([], r)
  | n + 1, r =>
    let e := prbsBit r
    let t := prbsBits n e.2
    (e.1 :: t.1, t.2)

/-- A symbol of 10 bits, least significant bit first. -/
def symbolOf (bs : List Bool) : Nat := bs.foldr (fun b n => b.toNat + 2 * n) 0

/-- The symbols at the even places of a list, and those at the odd places. -/
def alternate : List Nat → List Nat × List Nat
  | [] => ([], [])
  | a :: l => let t := alternate l; (a :: t.2, t.1)

/-- Stream bits leave on link l (R238, R239): scrambled, in FEC mode cut into message blocks and sent as codewords, in
10-bit symbols alternately on the active lanes, even symbols on the lower-numbered one; the spare lane carries PRBS31. The
order of scrambler and codewords, and what the spare lane's markers are, the manual leaves open (log 60). -/
def linkWire (l : Nat) (bits : List Bool) (s : State) : State :=
  let x := s.link l
  let sc := scramble (x.tx.scr.getD (Config.scramblerStart l)) bits
  let cut := cutGroups 5140 (x.tx.block.length + bits.length) (x.tx.block ++ sc.1)
  let out := if x.mode = 1 then sc.1 else cut.1.flatMap codeword
  let syms := cutGroups 10 (x.tx.sym.length + out.length) (x.tx.sym ++ out)
  let ab := alternate (syms.1.map symbolOf)
  let ev := if x.tx.odd then ab.2 else ab.1
  let od := if x.tx.odd then ab.1 else ab.2
  let lanes := maskBits 3 x.lanes.toNat
  let pr := prbsBits (10 * max ev.length od.length) x.tx.prbs
  let s1 := s.modLink l fun x => { x with tx := {
    scr := some sc.2, block := if x.mode = 1 then [] else cut.2, sym := syms.2
    odd := x.tx.odd ^^ decide (syms.1.length % 2 = 1), prbs := pr.2 } }
  ((s1.emit (.symbols l (lanes.getD 0 0) ev)).emit (.symbols l (lanes.getD 1 1) od)).emit
    (.symbols l (s.fget (F.LNK_STAT_SPARE l)) ((cutGroups 10 (10 * max ev.length od.length) pr.1).1.map symbolOf))

end Sys2Proof.Machine
end

