-- ==== Sys2Proof/Machine/LnkStep.lean ====
section
/-! DEFINITION. LnkStep.lean: what a link does with the steps of its device: the values it delivers and takes, its
credits, its superframes and what holds the next step (R28, R31, R33, R38, R149, R155, R240 to R253). -/
namespace Sys2Proof.Machine

/-- The clause and output port that link l attaches to (R149). -/
def linkPort (l : Nat) : Nat × Nat :=
  if l < 8 then (l, 0)
  else if l < 16 then (8 * (l - 8) + 7, 1)
  else if l < 24 then (63 - (l - 16), 2)
  else (8 * (7 - (l - 24)), 3)

/-- The link on port d of clause c, if that port is an edge port (R149). -/
def linkOf (c d : Nat) : Option Nat :=
  match d with
  | 0 => if c < 8 then some c else none
  | 1 => if c % 8 = 7 then some (8 + c / 8) else none
  | 2 => if 56 ≤ c then some (16 + (63 - c)) else none
  | 3 => if c % 8 = 0 then some (24 + (7 - c / 8)) else none
  | _ => none

/-- The received superframe that holds the values consumed in step t, if it is in the buffer; entries are keyed by the
first consuming step (R155). -/
def Lnk.frameAt (x : Lnk) (t : Nat) : Option (Nat × List Val) :=
  x.rxq.find? fun e => decide (e.1 ≤ t) && decide (t < e.1 + 8)

/-- The value of an edge input lane in step t (R155, R245): the slot that drives the lane, or X, or 0 in TWOSTATE. -/
def State.edgeIn (s : State) (l lane t : Nat) : Val :=
  let x := s.link l
  if !s.used l then s.dfl
  else
    match (List.range x.slot.srx).find? (fun i => x.slot.rxl.getD i 64 == lane), x.frameAt t with
    | some i, some (b, p) => p.getD (8 * i + (t - b)) s.dfl
    | _, _ => s.dfl

/-- The superframe that the next step consumes has not been received and checked (R28), whatever the link's state. -/
def State.linkMissing (s : State) (l : Nat) : Bool := ((s.link l).frameAt s.seq.step).isNone

/-- The partner's buffer has no room for the superframe that the next step opens (R246). -/
def State.linkNoCredit (s : State) (l : Nat) : Bool :=
  s.seq.step % 8 == 0 && decide (128 + (s.link l).pfreed ≤ (s.link l).sentCnt)

/-- The cause bits that a used link sets for the next step (R31, R33): 1 LINK_DATA, 2 LINK_CREDIT, 3 LINK_RETRY, 4
LINK_LANE. A missing superframe sets every bit whose condition holds, and LINK_DATA where neither a retry nor a lane action
is in progress. -/
def State.linkCauses (s : State) (l : Nat) : List Nat :=
  let x := s.link l
  let lane := x.st == .resume || x.sparing.isSome
  let data :=
    if s.linkMissing l then
      (if x.retry.isSome then [3] else []) ++ (if lane then [4] else []) ++
        (if x.retry.isNone && !lane then [1] else [])
    else []
  if s.linkNoCredit l then data ++ [2] else data

/-- The 16-bit tag of a step (R37, R240). -/
def tagOf (s : Nat) : BitVec 16 := BitVec.ofNat 16 s

/-- The full step number of a tag (R37): the one that lies in the window around the receiver's step counter; none when
it would lie below 0. -/
def fullStep (s : Nat) (g : BitVec 16) : Option Nat :=
  let d := (g - BitVec.ofNat 16 s).toNat
  if d < 32768 then some (s + d) else if 65536 - d ≤ s then some (s + d - 65536) else none

/-- The header word of a superframe (R240). -/
def sfHeader (f : Superframe) : Nat :=
  f.xt.toNat * 2 ^ 28 + f.idle.toNat * 2 ^ 26 + f.ctl.length * 2 ^ 24 + f.credit.toNat * 2 ^ 16 + f.tag.toNat

/-- The SYNC field of a LITE superframe (R240). -/
def sfSync : BitVec 16 := 0xB4D2

/-- The bits of a superframe after its SYNC field and before its CRC, in stream order, with NAKW (R240, R241). -/
def sfBits (f : Superframe) : List Bool :=
  bitsLsb 32 (sfHeader f) ++ bitsLsb 32 (f.nak.toNat * 2 ^ 16 + f.naktag.toNat) ++
    (if f.idle then [] else f.payload.flatMap fun v => bitsLsb 2 v.toNat) ++ f.ctl.flatMap fun w => bitsLsb 64 w.toNat

/-- The CRC of a superframe in LITE mode (R239). -/
def sfCrc (f : Superframe) : BitVec 16 := crc16 (sfBits f)

/-- The stream bits of a superframe, in order (R240): SYNC, NAKW and CRC in LITE only. -/
def sfStream (lite : Bool) (f : Superframe) : List Bool :=
  if lite then bitsLsb 16 f.sync.toNat ++ sfBits f ++ bitsLsb 16 f.crc.toNat
  else (sfBits f).take 32 ++ (sfBits f).drop 64

/-- A superframe leaves on the link's lanes (R238 to R240). -/
def linkEmit (l : Nat) (f : Superframe) (s : State) : State :=
  linkWire l (sfStream ((s.link l).mode == 1) f) (s.emit (.superframe l f))

/-- A FENCE control word (R249) in a superframe whose TAG names step s. -/
def fenceWord (s : Nat) (f dev : Nat) : BitVec 64 :=
  BitVec.ofNat 64 (1 * 2 ^ 60 + dev % 2 ^ 18 * 2 ^ 42 + (f + 2 ^ 64 - s) % 2 ^ 40)

/-- A PEER control word (R249). -/
def peerWord (item v : Nat) : BitVec 64 := BitVec.ofNat 64 (2 * 2 ^ 60 + item * 2 ^ 56 + v % 2 ^ 32)

/-- A LANE control word (R249): operation 1 request, 2 accept, 3 refuse. -/
def laneWord (op lane : Nat) : BitVec 64 := BitVec.ofNat 64 (3 * 2 ^ 60 + op * 2 ^ 56 + lane * 2 ^ 54)

/-- A RESUME control word (R249). -/
def resumeWord (tag : BitVec 16) : BitVec 64 := BitVec.ofNat 64 (4 * 2 ^ 60 + tag.toNat)

/-- What this device reports to the partner of link l as PEER item k (R251). A device that has left READY or STOPPED
reports the parameters of its own last start (R41). -/
def State.peerItem (s : State) (l k : Nat) : Nat :=
  let x := s.link l
  let started := s.stepping || s.seq.st == .dbgHold
  match k with
  | 0 => s.seq.depth / 64 * 32 + s.seq.twostate.toNat
  | 1 => s.gen
  | 2 => if started then s.seq.lastStart.1 else s.fget F.SEQ_FENCE_DIST
  | 3 => if started then s.seq.lastStart.2.1 else s.fget F.SEQ_DIAM_DIAM
  | 4 => if started then s.seq.lastStart.2.2 else s.fget F.SEQ_CKPT_INTERVAL
  | 5 => s.seq.start % 2 ^ 32
  | 6 => s.seq.start / 2 ^ 32
  | 7 => x.released.toNat * 2 ^ 31 + x.slot.mode * 2 ^ 27 + x.slot.srx * 2 ^ 20 + x.slot.stx * 2 ^ 13 + x.slot.lat
  | 8 => s.fget F.LNK_DEVNUM_VALID * 2 ^ 31 + s.fget F.LNK_DEVNUM_NUM
  | 9 => l
  | _ => 0

/-- The partner's item 7 agrees with this end's slot map (R244, R252). -/
def Lnk.slotAgrees (x : Lnk) (v : Nat) : Bool :=
  nbit v 31 && nbits v 27 1 == x.slot.mode && nbits v 20 7 == x.slot.stx && nbits v 13 7 == x.slot.srx &&
    nbits v 0 13 == x.slot.lat

/-- The PEER items whose value the partner has not been sent join the control words of a link that is UP or ACTIVE
(R251). -/
def linkAnnounce (l : Nat) (s : State) : State :=
  let x := s.link l
  if x.st == .up || x.st == .active then
    let new := (List.range 10).filter fun k => kvGet none x.sent k != some (s.peerItem l k)
    s.modLink l fun x => { x with
      ctlq := x.ctlq ++ new.map fun k => peerWord k (s.peerItem l k)
      sent := new.foldl (fun m k => kvSet none m k (some (s.peerItem l k))) x.sent }
  else s

/-- A superframe of link l as it leaves (R240 to R243, R248, R250, R253): for step s, with up to three control words, the
fence steps first. The link gives up the words it carries. XT covers the steps of a superframe that carries steps, and the
time since the last superframe in an idle one. -/
def linkFrame (l sstep : Nat) (idle : Bool) (payload : List Val) (s0 : State) : Superframe × State :=
  let s := linkAnnounce l s0
  let x := s.link l
  let ctl := (x.fences.map (fun e => fenceWord sstep e.1 e.2) ++ x.ctlq).take 3
  let lite := x.mode == 1
  let nak := lite && x.retry.isSome
  let f : Superframe := {
    xt := (if idle then x.xtAcc else x.xtStep) &&& BitVec.ofNat 4 (s.fget (F.LNK_XT_TXMASK l)), idle := idle, credit := BitVec.ofNat 8 x.freed
    tag := tagOf sstep, nak := nak, naktag := if nak then tagOf x.expect else 0, payload := payload, ctl := ctl, crc := 0
    sync := if lite then sfSync else 0 }
  let f := if lite then { f with crc := sfCrc f } else f
  (f, s.modLink l fun x => { x with
    fences := x.fences.drop 3, ctlq := x.ctlq.drop (3 - min 3 x.fences.length)
    xtAcc := 0, xtStep := if idle then x.xtStep else 0 })

/-- A link exchanges superframes: it is UP, ACTIVE or in RESUME (R254). -/
def Lnk.live (x : Lnk) : Bool := x.st == .up || x.st == .active || x.st == .resume

/-- An idle superframe leaves a live link; its TAG is that of the next superframe to be sent (R240, R242). -/
def linkIdle (l : Nat) (s : State) : State :=
  if (s.link l).live then
    let next := s.seq.step - s.seq.step % 8
    let r := linkFrame l next true [] s
    linkEmit l r.1 r.2
  else s

/-- Step n of a used link on the sending side: the values routed onto its edge lanes join the superframe being filled,
the first step takes the credit and the last sends it (R155, R240, R241, R246, R247). A link that is not ACTIVE sends no steps: it keeps the superframe
for the replay (R254). -/
def linkSend (n : Nat) (out : Nat → Val) (l : Nat) (s : State) : State :=
  let k := n % 8
  let s1 := s.modLink l fun x => { x with
    sentCnt := if k = 0 then x.sentCnt + 1 else x.sentCnt
    txAcc := (List.range x.slot.stx).foldl (fun m i => kvSet s.dfl m (8 * i + k) (out (x.slot.txl.getD i 0))) x.txAcc }
  if k = 7 then
    let x := s1.link l
    let payload := (List.range (8 * x.slot.stx)).map fun j => kvGet s.dfl x.txAcc j
    let r := linkFrame l (n - 7) false payload s1
    let s2 := r.2.modLink l fun x => { x with txAcc := [], replay := x.replay ++ [(n - 7, r.1)] }
    if x.st == .active then linkEmit l r.1 s2 else s2
  else s1

/-- Step n of a used link on the receiving side: the last step of a superframe frees it (R246). -/
def linkFree (n : Nat) (l : Nat) (s : State) : State :=
  if n % 8 = 7 then s.modLink l fun x => { x with
    rxq := x.rxq.filter (fun e => n < e.1 + 7), freed := x.freed + 1 }
  else s

/-- A link end enters ACTIVE at step b: L steps of initial frames, full credits, empty buffers (R38, R246). -/
def linkPreload (b : Nat) (two : Bool) (x : Lnk) : Lnk :=
  { x with
    st := .active
    rxq := (List.range (x.slot.lat / 8)).map fun k => (b + 8 * k, List.replicate (8 * x.slot.srx) (dfl two))
    expect := b, retry := none, freed := 0, pfreed := 0, sentCnt := 0, replay := [], txAcc := [] }

/-- Superframes that the partner has freed of those this end sent, in order: the preloaded ones are freed first (R38,
R246, R247). Log 12. -/
def ownFreed (x : Lnk) : Nat := x.pfreed - x.slot.lat / 8

/-- The partner's CREDIT field is read (R240, R246, R247): the replay buffer gives up what the partner has freed. -/
def linkCredit (c : BitVec 8) (x : Lnk) : Lnk :=
  let y := { x with pfreed := x.pfreed + (c - BitVec.ofNat 8 x.pfreed).toNat }
  { y with replay := x.replay.drop (ownFreed y - ownFreed x) }

end Sys2Proof.Machine
end

