-- ==== Sys2Proof/Machine/RimLane.lean ====
section
/-! DEFINITION. RimLane.lean: the rim step lanes and the regions that own them (R338, R343 to R351). -/
namespace Sys2Proof.Machine

/-! ### Frames (R331, R338 to R341, R349) -/

/-- Fields of a rim frame address (R338). -/
def rfaType (a : Nat) : Nat := nbits a 28 4
def rfaUnit (a : Nat) : Nat := nbits a 8 16
def rfaFrame (a : Nat) : Nat := nbits a 0 8

/-- The address of a rim frame (R338). -/
def rfaOf (ty unit frame : Nat) : Nat := ty * 2 ^ 28 + unit * 2 ^ 8 + frame

/-- Half, row and column of the row group that a frame belongs to or sits beside (R327, R331); types 1 to 3 have one. -/
def rfaPlace (a : Nat) : Option (Nat × Nat × Nat) :=
  let u := rfaUnit a
  match rfaType a with
  | 1 => some (u / 6144, u % 6144 / 192, u % 192)
  | 2 | 3 => some (u / 256, 8 * (u % 256 / 64), 3 * (u % 64) + 2)
  | _ => none

/-- The rectangle of a region frame (R340). -/
def regionHalf (f : Nat) : Nat := nbits f 1 1
def regionCol0 (f : Nat) : Nat := nbits f 2 8
def regionCol1 (f : Nat) : Nat := nbits f 10 8
def regionRow0 (f : Nat) : Nat := nbits f 18 5
def regionRow1 (f : Nat) : Nat := nbits f 23 5

/-- A place lies in the rectangle of a region frame (R349). -/
def inRegion (f : Nat) (p : Nat × Nat × Nat) : Bool :=
  p.1 == regionHalf f && decide (regionRow0 f ≤ p.2.1) && decide (p.2.1 ≤ regionRow1 f) &&
    decide (regionCol0 f ≤ p.2.2) && decide (p.2.2 ≤ regionCol1 f)

/-- A rim configuration frame: its 992 data bits (R338). -/
def State.frame (s : State) (rfa : Nat) : Nat := kvGet 0 s.rim.frames rfa

/-- The step-lane frame, in effect once a rim base is (R340). -/
def State.slFrame (s : State) : Nat := if s.rim.base then s.frame 0x60000000 else 0

/-- IN_EN, OUT_EN and SAFE of a group (R340). -/
def State.inEn (s : State) (g : Nat) : Bool := nbit s.slFrame (8 + g)
def State.outEn (s : State) (g : Nat) : Bool := nbit s.slFrame (24 + g)
def State.safe (s : State) (g : Nat) : Bool := nbit s.slFrame (40 + g)

/-- The frame of region r (R340). -/
def State.regionFrame (s : State) (r : Nat) : Nat := s.frame (0x70000000 + r)

/-- Region r is defined (R349). -/
def State.regionDef (s : State) (r : Nat) : Bool := s.rim.base && nbit (s.regionFrame r) 0

/-- The region that a frame lies in, if any (R349). -/
def State.frameRegion (s : State) (a : Nat) : Option Nat :=
  match rfaPlace a with
  | none => none
  | some p => (List.range 16).find? fun r => s.regionDef r && inRegion (s.regionFrame r) p

/-- The state of region r (R350). -/
def State.regionSt (s : State) (r : Nat) : RegionState := kvGet .active s.rim.regions r

/-- The region that owns a step-lane group, if any (R349). -/
def State.regionOf (s : State) (g : Nat) : Option Nat :=
  (List.range 16).find? fun r => s.regionDef r && nbit (s.regionFrame r) (32 + g)

/-- The region that owns the group is fenced (R351). -/
def State.groupFenced (s : State) (g : Nat) : Bool :=
  match s.regionOf g with
  | some r => s.regionSt r != .active
  | none => false

/-- The frames of a PLL and of a tree; they count once a rim base is in effect (R340). -/
def State.pllFrame (s : State) (p : Nat) : Nat := if s.rim.base then s.frame (rfaOf 4 p 0) else 0
def State.treeFrame (s : State) (t : Nat) : Nat := if s.rim.base then s.frame (rfaOf 4 (4 + t) 0) else 0

/-- PLL p is locked. -/
def State.pllLocked (s : State) (p : Nat) : Bool := kvGet false s.rim.pll p

/-- The configuration frame of bank b (R364). -/
def State.bankFrame (s : State) (b : Nat) : Nat := if s.rim.base then s.frame (rfaOf 5 b 0) else 0

/-- A tree of the rim runs: it is enabled and its source runs (R334, R335): a PLL that is locked, or the clock-capable input of
a released bank (R363, R376). -/
def State.treeRuns (s : State) (t : Nat) : Bool :=
  let f := s.treeFrame t
  let src := nbits f 0 4
  nbit f 4 &&
    (if src < 8 then nbit (s.pllFrame (src / 2)) 24 && s.pllLocked (src / 2)
     else (s.bank (src - 8)).st == .released && !s.fbit F.DBG_STAT_EXTEST)

/-- The step-lane tree runs (R343). -/
def State.slRuns (s : State) : Bool := s.treeRuns (nbits s.slFrame 0 3)

/-- A rim pin rises through the HI threshold of a comparator, or falls through the LO one: that is its level (log 63). -/
def padCross (b p : Nat) (hi up : Bool) (s : State) : State :=
  if (s.bank b).st == .off || hi != up then s else s.modBank b fun x => { x with pads := kvSet none x.pads p (some up) }

/-- A rim half is gated: the row groups and block memories of it lose their frames, error marks and flip-flops (R327, R575). -/
def rimHalfLoses (h : Nat) (s : State) : State :=
  let out := fun a => (rfaPlace a).any fun p => p.1 == h
  { s with rim := { s.rim with
    frames := s.rim.frames.filter fun (e : Nat × Nat) => !out e.1
    bad := s.rim.bad.filter fun (e : Nat × Nat) => !out (e.1 / 4)
    onehot := s.rim.onehot.filter fun (e : Nat × Bool) => !out e.1
    ff := s.rim.ff.filter fun (e : Nat × Option Bool) => !out (rfaOf 1 (e.1 / 16) 0)
    memOut := s.rim.memOut.filter fun (e : Nat × Option (Nat × Nat)) => !out (rfaOf 2 (e.1 / 2) 0) } }

/-- An entry with X on every lane, or 0 in TWOSTATE (R345, R351). -/
def xEntry (two : Bool) : DWord := if two then 0#64 else 0x5555555555555555#64

/-- The inbound entry of a group for step m is present, or the port fills it under policy SAFE (R345, R351). -/
def State.inReady (s : State) (g m : Nat) : Bool :=
  !s.inEn g || (s.group g).inq.any (fun e => e.1 == m) || (s.groupFenced g && s.safe g)

/-- The outbound buffer of a group has room (R344), or discards its entries (R351). -/
def State.outReady (s : State) (g : Nat) : Bool :=
  !s.outEn g || decide ((s.group g).outq.length < 64) || (s.groupFenced g && s.safe g)

/-- Every step-lane value of step m is present and every outbound buffer has room (R28, R344, R345). -/
def State.rimReady (s : State) (m : Nat) : Bool := (List.range 16).all fun g => s.inReady g m && s.outReady g

/-- The inbound entries of a group that a checkpoint of the boundary at the step counter B holds: those of steps B to B + 2
(R348); policy SAFE fills the ones that a fenced region does not write (R351). -/
def State.ckptLanes (s : State) (g : Nat) : List (Nat × DWord) :=
  (List.range 3).filterMap fun k =>
    match (s.group g).inq.find? (fun e => e.1 == s.seq.step + k) with
    | some e => some e
    | none => if s.groupFenced g && s.safe g then some (s.seq.step + k, xEntry s.seq.twostate) else none

/-- Entries B to B + 2 of every enabled inbound buffer are present (R348). -/
def State.ckptRimIn (s : State) : Bool := ((List.range 16).filter s.inEn).all fun g => (s.ckptLanes g).length == 3

/-- The value of inbound lane j in step m (R127, R343, R345, R346). -/
def State.rimIn (s : State) (m j : Nat) : Val :=
  let g := j / 32
  if !s.inEn g then s.dfl
  else
    match (s.group g).inq.find? (fun e => e.1 == m) with
    | some (_, e) =>
      if s.seq.twostate then ofBool (e.getLsbD (2 * (j % 32) + 1)) else BitVec.ofNat 2 (fieldOf e (2 * (j % 32)) 2)
    | none => s.dfl

/-- The outbound entry of a group from the lanes that XOUT drove in a step (R343, R344). -/
def outEntry (two : Bool) (g : Nat) (lanes : List (Nat × Val)) : DWord :=
  BitVec.ofNat 64 ((List.range 32).foldl
    (fun a i => a + ((lanes.lookup (32 * g + i)).getD (dfl two)).toNat * 4 ^ i) 0)

/-- At the end of step n one group takes its outbound entry and gives up its inbound entry (R344, R345, R348, R351). -/
def rimGroupEnd (n : Nat) (lanes : List (Nat × Val)) (s : State) (g : Nat) : State :=
  let fill := s.groupFenced g && s.safe g
  let e := outEntry s.seq.twostate g lanes
  let s1 := if !s.outEn g then s
    else s.modGroup g fun x => { x with
      outq := if fill then x.outq else x.outq ++ [(n, e)]
      keep := (x.keep ++ [(n, e)]).drop ((x.keep.length + 1) - 3) }
  if !s.inEn g then s1
  else
    let filled := !(s.group g).inq.any (fun e => e.1 == n)
    s1.modGroup g fun x => { x with
      inq := x.inq.filter (fun e => n < e.1)
      inNext := max x.inNext (n + 1)
      filled := if filled then some (match x.filled with | none => (n, n) | some (a, _) => (a, n)) else x.filled }

/-- The rim lanes at the end of step n. -/
def rimEnd (n : Nat) (lanes : List (Nat × Val)) (s : State) : State := (List.range 16).foldl (rimGroupEnd n lanes) s

/-- At release the port preloads the inbound entries of steps b to b + 2 with X, or 0, and empties the outbound
buffers (R345). -/
def rimPreload (b : Nat) (s : State) : State :=
  (List.range 16).foldl (fun s g => s.modGroup g fun x => { x with
    inq := if s.inEn g then (List.range 3).map fun k => (b + k, xEntry s.seq.twostate) else []
    outq := [], keep := [], inNext := b + 3, filled := none }) s

/-- Rim logic reads the oldest outbound entry of a group on the step-lane tree, up to 4 in a cycle (R343, R344); a fenced group
moves nothing on its rim side (R351). -/
def rimOutRead (g : Nat) (s : State) : State :=
  match (s.group g).outq with
  | [] => s
  | (n, e) :: t =>
    if s.groupFenced g || !s.slRuns || decide (4 ≤ (s.group g).outMoved) then s
    else (s.modGroup g fun x => { x with outq := t, outMoved := x.outMoved + 1 }).emit (.rimEntry g (n % 65536) e)

/-- Rim logic writes the inbound entry of the next expected step of a group that is enabled and has room, on the step-lane
tree, up to 4 in a cycle (R343, R345). -/
def rimInWrite (g : Nat) (e : DWord) (s : State) : State :=
  if !s.inEn g || s.groupFenced g || decide (64 ≤ (s.group g).inq.length) || !s.slRuns ||
      decide (4 ≤ (s.group g).inMoved) then s
  else s.modGroup g fun x => { x with inq := x.inq ++ [(x.inNext, e)], inNext := x.inNext + 1, inMoved := x.inMoved + 1 }

end Sys2Proof.Machine
end

