-- ==== Sys2Proof/Machine/Xt.lean ====
section
/-! DEFINITION. Xt.lean: the conditions that hold the next step (R28, R31), the debug hold of the sequencer (R426) and
the cross-trigger matrix (R436, R437). -/
namespace Sys2Proof.Machine

/-! ### Patch units (R191, R192) -/

/-- Fields of a patch-unit address (R203). -/
def puMode (a : Nat) : Nat := nbits a 30 2
def puClause (a : Nat) : Nat := nbits a 24 6
def puKind (a : Nat) : Nat := nbits a 23 1
def puIndex (a : Nat) : Nat := nbits a 11 10
def puPhase (a : Nat) : Nat := nbits a 0 11

/-- The active unit that applies to a word: of those that match it, the one with the lowest number
(R191, R192); the active addresses are listed in ascending unit number. -/
def State.unitAt (s : State) (c kind idx p : Nat) : Option Nat :=
  (s.sch.actA.find? fun e =>
    (puMode e.2 == 1 || puMode e.2 == 2) && puClause e.2 == c && puKind e.2 == kind && puIndex e.2 == idx &&
      puPhase e.2 == p).map Prod.fst

/-- The active unit at a word replaces it: its word (R191). -/
def State.replacedBy (s : State) (c kind idx p : Nat) : Option QWord :=
  match s.unitAt c kind idx p with
  | some u => if puMode (kvGet 0 s.sch.actA u) == 1 then some (kvGet 0#128 s.sch.actW u) else none
  | none => none

/-! ### What holds the next step -/

/-- A clause is claimed by a protected partition whose loaded token, if any, lacks a right (R546): bit 0 LOAD, 1 OBSERVE,
2 CONTROL. -/
def State.closedTo (s : State) (right c : Nat) : Bool :=
  ((s.load.img.map (·.prot)).getD []).any fun d => nbit d.clauses c && !(nbit (s.sec.rights d.part) right)

/-- The protected partitions of the image whose tokens give OBSERVE now (R545). -/
def State.observed (s : State) : List Nat :=
  (((s.load.img.map (·.prot)).getD []).map fun (d : ProtDesc) => d.part).filter fun p => nbit (s.sec.rights p) 1

/-- A clause's words are left out of capture and its TRIG words assert no line (R545, R546). -/
def State.unobserved (s : State) (c : Nat) : Bool :=
  ((s.load.img.map (·.prot)).getD []).any fun d => nbit d.clauses c && !s.sec.obs.contains d.part

/-- At a user-cycle boundary the OBSERVE rights take effect for capture and trigger lines (R386, R545). -/
def latchTokens (s : State) : State :=
  if s.sec.obs = s.observed then s else { sigEpoch 3 s with sec := { s.sec with obs := s.observed } }

/-- The capture map of a clause and phase (R386): the clause indices of its captured words, ascending. -/
def State.capMap (s : State) (c p wg : Nat) : List Nat :=
  if s.unobserved c then []
  else (List.range 512).filter fun bp =>
    let w := bpWord ((s.replacedBy c 0 bp p).getD (kvGet idleWord (s.clause c).words (512 * p + bp)))
    nbit w.tag 7 && w.we && nbit wg (w.tag / 16 % 8)

/-- Words of the largest STEP packet that the capture map allows for step t (R394). -/
def State.capNeed (s : State) (t : Nat) : Nat :=
  let per := if s.seq.twostate then 64 else 32
  let ns := ((List.range 64).filter s.active).map fun c => (s.capMap c (t % s.seq.depth) s.cap.sig.wg).length
  1 + (ns.map fun n => if n = 0 then 0 else 1 + (n + per - 1) / per).sum

/-- Lossless capture, running or with a START that takes effect as the next step begins, has no room for that step (R18, R28,
R390, R394). -/
def State.traceFull (s : State) : Bool :=
  (s.cap.sig.on || s.cap.sig.startReq.isSome) && !s.fbit F.CAP_SIGCTL_LOSSY && decide (capBufBytes < s.capFill + 8 * s.capNeed s.seq.step)

/-- A migration runs in some clause (R135). -/
def State.migRuns (s : State) : Bool := (List.range 64).any fun c => (s.clause c).mig.isSome

/-- The RELOAD in progress holds the boundary, once no migration runs (R138, R311). -/
def State.reloadHold (s : State) : Bool :=
  match s.load.job with
  | some j => j.holding || (j.due && !s.migRuns)
  | none => false

/-- The patch application holds the boundary, once no migration runs (R138, R193). -/
def State.patchHold (s : State) : Bool := s.sch.patch == some .hold || (s.sch.patch == some .due && !s.migRuns)

/-- A migration holds the boundary: one that began without a hold does so once the sequencer leaves DBG_HOLD (R135). -/
def State.migHold (s : State) : Bool :=
  (List.range 64).any fun c => match (s.clause c).mig with
    | some g => !(g.noHold && s.seq.st == .dbgHold)
    | none => false

/-- The cause codes whose condition holds back the next step (R28, R31). -/
def State.causes (s : State) : List Nat :=
  s.usedLinks.flatMap s.linkCauses
  ++ (if s.umem.rets.any fun r => s.active (r.m / 4) && !r.hbm && decide (r.due ≤ s.seq.step) && !r.arrived then [5] else [])
  ++ (if s.umem.rets.any fun r => s.active (r.m / 4) && r.hbm && decide (r.due ≤ s.seq.step) && !r.arrived then [6] else [])
  ++ (if s.rimReady s.seq.step && (s.seq.ckpt.isNone || s.ckptRimIn) then [] else [7])
  ++ (if s.traceFull then [8] else [])
  ++ (if s.migHold then [9] else [])
  ++ (if s.patchHold then [10] else [])
  ++ (if s.reloadHold then [11] else [])
  ++ (if s.seq.ckpt.isSome then [12] else [])
  ++ (if s.seq.st == .dbgHold then [13] else [])
  ++ (if s.plt.clockHold then [14] else [])
  ++ (if s.evq.any (·.chk) then [15] else [])

/-- SEQ_ELLCAUSE.NOW: bit n is cause code n (R57). -/
def State.causeBits (s : State) : BitVec 16 := BitVec.ofNat 16 (maskOf 16 fun k => s.causes.contains k)

/-- An ellipsis, or the hold that a debug halt begins, starts at the boundary with the present causes (R29, R32). -/
def ellipsisBegin (st : SeqState) (s : State) : State :=
  let b := { s with seq := { s.seq with st := st } }
  { b with seq := { b.seq with seen := b.causeBits, last := b.causeBits, ellNs := 0, longRaised := false } }

/-- The ellipsis goes on with the present causes (R32): every cause seen is kept, and the set as it last stood. -/
def ellipsisSample (s : State) : State :=
  let c := s.causeBits
  { s with seq := { s.seq with seen := s.seq.seen ||| c, last := if c = 0 then s.seq.last else c } }

/-- The lowest cause code of a set of bits (R32). -/
def primaryCause (b : BitVec 16) : Nat := ((List.range 16).find? fun k => b.getLsbD k).getD 0

/-- The ellipsis ends (R32): it is counted, in total and for each cause seen, and its primary cause reported. -/
def ellipsisClose (s : State) : State :=
  ({ s with seq := { s.seq with
    ellTotal := s.seq.ellTotal + 1
    causeCnt := ((List.range 16).filter fun k => s.seq.seen.getLsbD k).foldl (fun m k => kvMod 0 m k (· + 1)) s.seq.causeCnt
    seen := 0, last := 0, ellNs := 0, longRaised := false } }).fset F.SEQ_ELLLAST_LAST (primaryCause s.seq.last)

/-! ### Debug hold and cross-trigger -/

/-- A debug halt request reaches a pair (R432): it waits in M-mode while level L3 is not held. -/
def pairHaltReq (p cause : Nat) (s : State) : State :=
  if (s.pair p).halted then s
  else
    let lvl := max s.dbg.tapLevel s.dbg.hostLevel
    s.modPair p fun x => { x with haltReq := some cause, waitM := p == 0 && x.priv == 3 && decide (lvl < 3) }

/-- The outputs of channel ch but the sequencer halt (R436): pairs, XTRIG_OUT, links, and the management trace (R400). -/
def xtOutputs (ch : Nat) (fromLink : Bool) (s : State) : State :=
  let o := s.fget (F.DBG_XT_OUT ch)
  let s1 := if nbit o 0 then pairHaltReq 0 1 s else s
  let s2 := if nbit o 1 && decide (3 ≤ max s.dbg.tapLevel s.dbg.hostLevel) then pairHaltReq 1 1 s1 else s1
  let s3 := if nbit o 3 then s2.emit (.xtrig ch) else s2
  let s4 := if nbit o 4 && !fromLink then
      (List.range 32).foldl (fun s l => s.modLink l fun x => { x with
        xtAcc := x.xtAcc ||| BitVec.ofNat 4 (2 ^ ch), xtStep := x.xtStep ||| BitVec.ofNat 4 (2 ^ ch) }) s3
    else s3
  let s5 := if s.fbit F.CAP_MTCTL_START_EN && s.fget F.CAP_MTCTL_START_CH == ch then mtStartReq (128 + ch) s4 else s4
  if s.fbit F.CAP_MTCTL_STOP_EN && s.fget F.CAP_MTCTL_STOP_CH == ch then mtStopReq (128 + ch) s5 else s5

/-- The channels that an input bit asserts (R436). -/
def State.xtChannels (s : State) (bit : Nat) : List Nat := (List.range 4).filter fun ch => nbit (s.fget (F.DBG_XT_IN ch)) bit

/-- The sequencer enters DBG_HOLD (R40, R426): the stop request of R42, HCAUSE, DBG_HALT, and the channels that its
entry asserts (IN bit 5). A request in IDLE, READY, STOPPED or DBG_HOLD is ignored. -/
def seqHalt (cause : Nat) (s : State) : State :=
  if !s.stepping then s
  else
    let s1 := stopRequest s
    let s2 := if s.seq.st == .running then ellipsisBegin .dbgHold s1
      else ellipsisSample { s1 with seq := { s1.seq with st := .dbgHold } }
    let s3 := ({ s2 with seq := { s2.seq with haltAt := none } }.fset F.DBG_STAT_HCAUSE cause).raise
      F.DBG_EVT_HALT 13 2 ([0, 0, cause] ++ w64 s.seq.step)
    (s3.xtChannels 5).foldl (fun s ch => xtOutputs ch false s) s3

/-- Channel ch is asserted (R436, R437): `at_` is the step before which the sequencer
halts, or none for at once; a halt already due by then stays the one that comes (R444). -/
def xtAssert (fromLink : Bool) (at_ : Option Nat) (s : State) (ch : Nat) : State :=
  let s1 := xtOutputs ch fromLink s
  if nbit (s.fget (F.DBG_XT_OUT ch)) 2 then
    match at_ with
    | some t =>
      if s1.seq.step < t then
        { s1 with seq := { s1.seq with
            haltAt := (s1.seq.haltAt.filter fun e => decide (e.1 ≤ t)).orElse fun _ => some (t, 1) } }
      else seqHalt 1 s1
    | none => seqHalt 1 s1
  else s1

/-- An input of the matrix occurs: every channel that selects it is asserted once (R436). -/
def xtInput (bit : Nat) (s : State) : State := (s.xtChannels bit).foldl (xtAssert (bit == 2) none) s

/-! ### Stops (R40, R43 to R45) -/

/-- The device stops (R40, R59): reason 0 fence, 1 STOPAT, 2 STEP1 or UCYC1, 3 late fence; `at_` is the step at whose end
it stops. -/
def seqStop (reason at_ dev : Nat) (s : State) : State :=
  let s1 := { s with seq := { s.seq with
    st := .stopped, fence := none, stopStep := none, haltAt := none
    lastFence := if reason = 0 then s.seq.fence.map Prod.fst else none } }
  xtInput 6 (s1.raise F.SEQ_EVT_STOPPED 5 2 (w64 at_ ++ [if reason = 0 ∨ reason = 3 then dev else 0, reason]))

/-- The device stops on a fence step below its step counter, at the boundary it is at (R40, R44). -/
def lateStop (f dev : Nat) (s : State) : State :=
  let s1 := (if s.seq.st == .ellipsis then ellipsisClose s else s).raise F.SEQ_EVT_FENCE_LATE 5 3
    (w64 f ++ w64 (s.seq.step - 1))
  let s2 := seqStop 3 (s.seq.step - 1) dev s1
  { s2 with seq := { s2.seq with lastFence := some f } }

/-- A fence step below the step counter reaches a device that runs or waits (R44): it stops at the boundary, reports the
late fence, and sends it on. -/
def lateFence (f dev : Nat) (s : State) : State := sendFence f dev (lateStop f dev s)

/-- A fence step received on a link (R43, R44). DESIGN CHOICE (log 55), where R44 names no state: one at or above the counter
that reaches a device in IDLE is adopted as in READY; one below the counter that reaches a device in DBG_HOLD is adopted and
sent on, and the device stops on it as on a late fence at the boundary it holds when the debug hold ends. -/
def receiveFence (f dev : Nat) (s : State) : State :=
  if s.seq.lastFence = some f then s
  else if s.seq.step ≤ f then adoptFence f dev s
  else
    match s.seq.st with
    | .running | .ellipsis => lateFence f dev s
    | .stopped => sendFence f dev (s.raise F.SEQ_EVT_FENCE_LATE 5 3 (w64 f ++ w64 (s.seq.step - 1)))
    | .dbgHold => adoptFence f dev s
    | .idle | .ready => s

end Sys2Proof.Machine
end

