-- ==== Sys2Proof/Machine/MemAcc.lean ====
section
/-! DEFINITION. MemAcc.lean: windows, clause-port accesses and their returns (R103 to R107, R206 to R223). -/
namespace Sys2Proof.Machine

/-- The stride of the window's elements and how many it holds (R209). -/
def State.winStride (s : State) (w : QWord) : Nat := elemStride s.seq.twostate (winWidth w)
def State.winElems (s : State) (w : QWord) : Nat := winSize w * 256 / s.winStride w

/-- The 40 values of a port's address register (R103). -/
def State.portAddr (s : State) (c q : Nat) : List Val :=
  (List.range 40).map fun b => kvGet s.dfl (s.clause c).padr (40 * q + b)

/-- The first W values of a port's write-data register (R103). -/
def State.portData (s : State) (c q w : Nat) : List Val :=
  (List.range w).map fun b => kvGet s.dfl (s.clause c).pwd (128 * q + b)

/-- A return register with all bits X, or 0 in TWOSTATE, due at the normal return step (R106, R210). -/
def pushBlank (m n : Nat) (hbm : Bool) (s : State) : State :=
  { s with umem := { s.umem with rets := s.umem.rets ++ [{
      m := m, due := n + (if hbm then 191 else 7), hbm := hbm, vals := List.replicate 128 s.dfl, arrived := true
      served := true, addr := 0, stride := 0, width := 0 }] } }

/-- An access outside its window, or on a disabled one, is counted and the first of each port and user cycle reported
(R208, R210). -/
def outOfWindow (m : Nat) (index : List Nat) (write : Bool) (n : Nat) (s : State) : State :=
  let s1 := s.count F.MEM_CNT_WIN_COUNT
  let s2 := { s1 with umem := { s1.umem with conf := kvMod 0 s1.umem.conf (3 * m + 2) (satSucc 32) } }
  if kvGet false (s.clause (m / 4)).winCyc (m % 4) then s2
  else
    (s2.modClause (m / 4) fun x => { x with winCyc := kvSet false x.winCyc (m % 4) true }).raise
      F.MEM_EVT_WIN_RANGE 10 8 ([m] ++ index ++ [write.toNat] ++ w64 n)

/-- A write with an unknown address or enable is counted, and the first of each port and user cycle reported (R106). -/
def unknownWrite (c q n : Nat) (s : State) : State :=
  let k := kvGet 0 (s.clause c).xwCyc q + 1
  let s1 := (s.count (F.CLS_PXW_COUNT c q)).modClause c fun x => { x with xwCyc := kvSet 0 x.xwCyc q k }
  if k = 1 then s1.raise (F.CLS_EVT_PORT_XADDR c) (0x80 + c) 6 ([q] ++ w64 n ++ [1, k]) else s1

/-- An access in its window joins its bank's queue, or takes its place in the order of its stack, where it is checked and its
data are read or written (R212, R214, R221, R223): what the NoC asks of the stack comes after it (R220). -/
def placeAccess (m n : Nat) (w : QWord) (k : Nat) (write : Bool) (vals : List Val) (s : State) : State :=
  let e := s.winStride w
  let a := winBase w + k * e
  let bytes := elemBytes s.seq.twostate (winWidth w) vals
  let ret (hbm : Bool) (vs : List Val) (served : Bool) : MemRet :=
    { m := m, due := n + (if hbm then 191 else 7), hbm := hbm, vals := vs, arrived := false, served := served
      addr := a, stride := e, width := winWidth w }
  if isLex a then
    let pos := (s.umem.lexq.filter fun x =>
      x.step == n && lexBank x.addr == lexBank a && x.portB == winB w).length
    let conf := if pos = 0 then s.umem.conf
      else kvMod 0 (kvMod 0 s.umem.conf (3 * m) (satSucc 32)) (3 * m + 1) (· + pos)
    { s with umem := { s.umem with
        conf := conf
        lexq := s.umem.lexq ++ [{
          m := m, step := n, write := write, addr := a, stride := e, data := if write then bytes else [], portB := winB w }]
        rets := if write then s.umem.rets else s.umem.rets ++ [ret false [] false] } }
  else if write then userWrite m a bytes s
  else
    let r := userRead m a e s
    { r.2.2 with umem := { r.2.2.umem with rets := r.2.2.umem.rets ++ [ret true (s.readVals (winWidth w) r.1 r.2.1) true] } }

/-- An MGO of port q of clause c in step n with its enable (R105, R106, R132, R208, R210). -/
def issueMgo (c n q : Nat) (write : Bool) (en : Val) (s : State) : State :=
  if en == v0 then s
  else
    let m := 4 * c + q
    let s := s.modClause c fun x => { x with pacc := kvMod 0 x.pacc q (fun v => (v + 1) % 2 ^ 64) }
    let w := s.win m
    let addr := s.portAddr c q
    let kn := addr.all known
    let k := maskOf 40 fun b => (addr.getD b v0).getLsbD 1
    let hbm := isHbm (winBase w)
    if !winEn w then outOfWindow m w64none write n (if write && (!kn || !known en) then unknownWrite c q n s else s)
    else if !write then
      if !kn || !known en then pushBlank m n hbm s
      else if s.winElems w ≤ k then pushBlank m n hbm (outOfWindow m (w64 k) false n s)
      else placeAccess m n w k false [] s
    else if !kn then unknownWrite c q n s
    else
      let s1 := if known en then s else unknownWrite c q n s
      let vals := if known en then s.portData c q (winWidth w) else List.replicate (winWidth w) vX
      if s.winElems w ≤ k then outOfWindow m (w64 k) true n s1
      else placeAccess m n w k true vals s1

/-- The returns due in step n load the return registers of their ports (R107, R128). A clause that executes no words keeps
its registers (R122; log 13). -/
def loadReturns (n : Nat) (s : State) : State :=
  let due := s.umem.rets.filter fun r => decide (r.due ≤ n)
  let s1 := { s with umem := { s.umem with rets := s.umem.rets.filter fun r => decide (n < r.due) } }
  due.foldl (fun s r =>
    if s.active (r.m / 4) then
      s.modClause (r.m / 4) fun x => { x with
        pret := (List.range 128).foldl (fun p b => kvSet s.dfl p (128 * (r.m % 4) + b) (r.vals.getD b s.dfl)) x.pret }
    else s) s1

/-- The oldest served return of a master arrives (R214, R221). -/
def arrive (m : Nat) (hbm : Bool) (f : MemRet → MemRet) : List MemRet → List MemRet
  | [] => []
  | x :: t => if x.m = m && x.hbm == hbm && x.served && !x.arrived then { f x with arrived := true } :: t else x :: arrive m hbm f t

/-- The HBM reads of a stack that its controller tracks: the first 512 that have not arrived; the others wait at its input
(R220). -/
def State.hbmTracked (s : State) (stack : Nat) : List MemRet :=
  (s.umem.rets.filter fun x => x.hbm && !x.arrived && hbmStack x.addr == stack).take 512

/-- The page of an address is being copied: a clause access waits for the copy to end (R226). -/
def State.pageCopied (s : State) (a : Nat) : Bool :=
  match s.umem.hretReq with
  | some (stack, page, _) => isHbm a && hbmStack a == stack && hbmPage a == page
  | none => false

/-- An HBM return arrives, unless its controller does not track it yet or its stack or page holds it (R220 to R222, R226). With
`struck` an upset came between its place in the order and the read of its burst, which is then checked again (R223). -/
def hbmArrive (m : Nat) (struck : Nat → Bool) (s : State) : State :=
  match s.umem.rets.find? fun x => x.m == m && x.hbm && x.served && !x.arrived with
  | none => s
  | some r =>
    if !(s.hbmTracked (hbmStack r.addr)).contains r || s.hbmHeld r.addr || s.pageCopied r.addr then s
    else if struck r.addr then
      let e := userRead m r.addr r.stride s
      let vs := if e.2.1 then s.readVals r.width e.1 true else r.vals
      { e.2.2 with umem := { e.2.2.umem with rets := arrive m true (fun x => { x with vals := vs }) e.2.2.umem.rets } }
    else { s with umem := { s.umem with rets := arrive m true id s.umem.rets } }

end Sys2Proof.Machine
end

