-- ==== Sys2Proof/Machine/Exec.lean ====
section
/-! DEFINITION. Exec.lean: what one step does in the clauses and switches (R61 to R66, R76, R78, R82, R90 to R118, R122 to R129,
R148 to R161, R164, R166, R179 to R182, R191, R192). -/
namespace Sys2Proof.Machine

/-! ### The words of a step -/

/-- The slice location of a BP word, a switch chunk (or hold-record chunk, i = 24 + port) (R176). -/
def wordLoc (p bp : Nat) : Nat := 128 * (4 * p + bp / 128) + bp % 128
def chunkLoc (p i : Nat) : Nat := 128 * (8192 + p / 4) + 32 * (p % 4) + i

/-- The error mark of a location of the array (R179, R181). -/
def Clause.mark (x : Clause) (loc : Nat) : Nat := kvGet 0 x.schBad loc

/-- The factory mappings of a slice: at most 128 (R188). -/
def factoryRows (c : Nat) : List (Nat × Nat) := (Config.rowRepairs c).take 128

/-- The spare row that a logical row is mapped to, at run time or by the factory (R188). -/
def State.spareOf (s : State) (c row : Nat) : Option Nat :=
  (kvGet none (s.clause c).rowMap row).orElse fun _ => (factoryRows c).lookup row

/-- Free spare rows of a slice (R188, R204). -/
def State.rowFree (s : State) (c : Nat) : Nat := 256 - (factoryRows c).length - (s.clause c).rowMap.length

/-- The array row of a logical row (R188). A row from 9216 on is a spare row itself. -/
def State.arrayRow (s : State) (c row : Nat) : Nat :=
  if row < 9216 then (match s.spareOf c row with | some k => 9216 + k | none => row) else row

/-- The array location of a logical location. -/
def State.arrayLoc (s : State) (c loc : Nat) : Nat := 128 * s.arrayRow c (loc / 128) + loc % 128

/-- The logical row that an array row serves: none for an unused spare row and for a row mapped away (R188). -/
def State.logicalRow (s : State) (c row : Nat) : Option Nat :=
  if row < 9216 then (if (s.spareOf c row).isSome then none else some row)
  else
    match (s.clause c).rowMap.find? fun e => e.2 == some (row - 9216) with
    | some e => some e.1
    | none => ((factoryRows c).find? fun e => e.2 == row - 9216).map Prod.fst

/-- The error mark of a logical location (R179, R181, R188). -/
def State.markAt (s : State) (c loc : Nat) : Nat := (s.clause c).mark (s.arrayLoc c loc)

/-- A word that the decode stage takes for uncorrectable (R182). -/
def badDecode (w : QWord) : Bool := let b := bpWord w; decide (14 ≤ b.opc) || decide (65 ≤ b.fx)

/-- The word that a BP executes in phase p, and whether it stands for an uncorrectable one (R181, R182, R191). -/
def State.bpWordAt (s : State) (c p bp : Nat) : QWord × Bool :=
  match s.replacedBy c 0 bp p with
  | some w => (w, false)
  | none =>
    let w := kvGet idleWord (s.clause c).words (512 * p + bp)
    if s.markAt c (wordLoc p bp) = 2 || badDecode w then (idleWord, true) else (w, false)

/-- A switch chunk as it applies in phase p, and whether it is uncorrectable (R181, R191). -/
def State.chunkAt (s : State) (c p i : Nat) : QWord × Bool :=
  match s.replacedBy c 1 i p with
  | some w => (w, false)
  | none => if s.markAt c (chunkLoc p i) = 2 then (0#128, true) else (kvGet 0#128 (s.clause c).sw (24 * p + i), false)

/-! ### One BP -/

/-- The physical phrase that serves a clause index (R120). -/
def Clause.physOf (x : Clause) (bp : Nat) : Nat := if x.spared && x.retired == bp / 8 then 64 else bp / 8

/-- The next physical phrase in a direction, the retired one passed over, and so during a migration the one that it retires
(R121, R138). -/
def Clause.nextPhrase (x : Clause) (ph d : Nat) : Nat :=
  let n := (ph + d) % 65
  if (x.spared && n == x.retired) || x.mig.map (·.target) == some n then (n + d) % 65 else n

/-- A working copy of an entry: its content as read and whether it passes parity (R75, R76). -/
def Clause.dictCopy (x : Clause) (ph e : Nat) : Word × Bool :=
  (kvGet none x.dictBad (1024 * ph + e)).getD (kvGet 0 x.dictW e, true)

/-- What a read of entry e of a working copy gives (R76): the value, and none for a good read, true for a repair from
both neighbours, which pass parity and agree, false for an uncorrectable error. -/
def Clause.dictRead (x : Clause) (ph e : Nat) : Word × Option Bool :=
  let own := x.dictCopy ph e
  let lo := x.dictCopy (x.nextPhrase ph 64) e
  let hi := x.dictCopy (x.nextPhrase ph 1) e
  if own.2 then (own.1, none)
  else if lo.2 && hi.2 && lo.1 == hi.1 then (lo.1, some true)
  else (own.1, some false)

/-- A working copy of an entry is written with a value (R76). -/
def Clause.putCopy (x : Clause) (ph e : Nat) (v : Word) : Clause :=
  { x with
    dictBad := kvSet none x.dictBad (1024 * ph + e) (if v = kvGet 0 x.dictW e then none else some (v, true))
    dictUe := kvSet false x.dictUe (1024 * ph + e) false }

/-- What one BP does in a step beside its storage errors (R61, R92). -/
structure BpOut where
  bp : Nat
  /-- writes at the end of the step: entry key and value -/
  writes : List (Nat × Val)
  queue : Option CqEntry
  bus : Option Val
  tx : Option (Nat × Val)
  /-- the value captured, with the watch group (R85) -/
  cap : Option (Nat × Val)
  /-- MADR, MWDT: register key and value; MGO: port, write, enable -/
  madr : Option (Nat × Val)
  mwdt : Option (Nat × Val)
  mgo : Option (Nat × Bool × Val)
  xout : Option (Nat × Val)
  trig : Option Nat
  /-- a failing CHECK: identifier, STOP, SA as read (R113) -/
  check : Option (Nat × Bool × Val)
  /-- dictionary entry read, physical entries read, keys read -/
  dict : Option Nat
  reads : List Nat
  deriving DecidableEq, Repr

/-- Step n is a phase 0: no bus lane, local receive lane or neighbour's value crosses into it (R125, R153). -/
def State.phase0 (s : State) (n : Nat) : Bool := n % s.seq.depth == 0

/-- The value at a capture source in step n (R84, R125, R127, R153). In TWOSTATE a fabric lane gives its plane 0 (R158). -/
def State.capSource (s : State) (c n src : Nat) : Val :=
  let idx := src % 1024
  let x := s.clause c
  match src / 1024 with
  | 0 => if s.phase0 n then s.dfl else kvGet s.dfl x.bus idx
  | 1 =>
    let v := if s.phase0 n then s.dfl else kvGet s.dfl x.inl (256 + idx)
    if s.seq.twostate then ofBool (v.getLsbD 1) else v
  | 2 => kvGet s.dfl x.pret (128 * (idx / 256) + idx % 128)
  | _ => s.rimIn n idx

/-- The result of a word, if its opcode produces one (R90, R95 to R102, R108, R110). -/
def State.bpResult (s : State) (c n bp : Nat) (w : BpWord) (ops : List Val) : Option Val :=
  let x := s.clause c
  let t := (x.dictRead (x.physOf bp) w.fn).1
  let two := s.seq.twostate
  match w.opc with
  | 0x1 | 0x5 => some (if two then evalTwo t ops else evalExact t ops)
  | 0x2 => some (if two then evalTwo t ops else evalPess t ops)
  | 0x3 => some (resolve w.fn ops)
  | 0x4 => some (evalLatch two w.fn ops)
  | 0x9 => some (kvGet s.dfl x.pret (128 * (w.fn / 256) + w.fn % 128))
  | 0xB => some (s.rimIn n (w.fn % 512))
  | _ => none

/-- SA fails a CHECK (R113). -/
def checkFails (xfail : Bool) (v : Val) : Bool := v == v0 || (!known v && xfail)

/-- SA asserts the line of a TRIG (R112). -/
def trigAsserts (onX : Bool) (v : Val) : Bool := v == v1 || (!known v && onX)

/-- Everything one BP does with its word in step n, read from the state at the end of step n - 1 (R61, R62, R92). DESIGN
CHOICE (log 56): a word that reads one physical entry through two operand fields reads it once for its parity. -/
def State.bpStep (s : State) (c n bp : Nat) (q : QWord) : BpOut :=
  let w := bpWord q
  let two := s.seq.twostate
  let keyOf (k a : Nat) := 512 * bp + entryOf two w k a
  let keys := (readsOf w).map fun k => keyOf k (w.src.getD k 0)
  let ops := (List.range 5).map fun k => s.vsRead c (keyOf k (w.src.getD k 0))
  let sa := ops.getD 0 vX
  let r := s.bpResult c n bp w ops
  let dst := keyOf 5 w.dst
  let cap (src k d : Nat) : List (Nat × Val) := if src = 0xFFF then [] else [(keyOf k d, s.capSource c n src)]
  let flop := w.opc == 5
  { bp := bp
    writes := (match r with | some v => if w.we && !flop then [(dst, v)] else [] | none => [])
      ++ cap w.c0src 6 w.c0dst ++ cap w.c1src 7 w.c1dst
    queue := match r with
      | some v => if w.we && flop then some { bp := bp, dst := w.dst, bank := (dst % 512) / 256, val := v } else none
      | none => none
    bus := if w.bc then r else none
    tx := match r with | some v => if 1 ≤ w.fx ∧ w.fx ≤ 64 then some (w.fx - 1, v) else none | none => none
    cap := match r with | some v => if nbit w.tag 7 && w.we then some (w.tag / 16 % 8, v) else none | none => none
    madr := if w.opc = 6 then some (40 * (w.fn / 256) + w.fn % 128, sa) else none
    mwdt := if w.opc = 7 then some (128 * (w.fn / 256) + w.fn % 128, sa) else none
    mgo := if w.opc = 8 then some (w.fn / 256, nbit w.fn 0, sa) else none
    xout := if w.opc = 0xA then some (w.fn % 512, sa) else none
    trig := if w.opc = 0xC && trigAsserts (nbit w.fn 0) sa then some (w.tag % 16) else none
    check := if w.opc = 0xD && checkFails (nbit w.fn 0) sa then some (nbits w.fn 2 8, nbit w.fn 1, sa) else none
    dict := if w.opc = 1 || w.opc = 2 || w.opc = 5 then some w.fn else none
    reads := (keys.map physEntry).dedup }

/-- The whole clause in step n (R61): one entry per active BP. -/
def State.clauseStep (s : State) (c n : Nat) : List BpOut :=
  (List.range 512).map fun bp => s.bpStep c n bp (s.bpWordAt c (n % s.seq.depth) bp).1

/-! ### Storage errors of a step -/

/-- A repaired or uncorrectable read of a working copy: counts, events and the rewrite (R76, R89). `step` is the payload
field, in words. DESIGN CHOICE (log 56): of several reads of one failing copy in one step, the first repairs it, so that a
repair counts once; an uncorrectable copy counts once for each read. -/
def dictOutcome (c ph e : Nat) (step : List Nat) (s : State) : State :=
  match ((s.clause c).dictRead ph e).2 with
  | none => s
  | some true =>
    let v := ((s.clause c).dictRead ph e).1
    sparingFix c ph e (((s.count (F.CLS_CNT_DFIX_COUNT c)).modClause c fun x => x.putCopy ph e v).raise
      (F.CLS_EVT_DICT_FIX c) (0x80 + c) 1 ([ph, e] ++ step))
  | some false =>
    let s1 := s.count (F.CLS_CNT_DUE_COUNT c)
    if kvGet false (s.clause c).dictUe (1024 * ph + e) then s1
    else
      (s1.modClause c fun x => { x with dictUe := kvSet false x.dictUe (1024 * ph + e) true }).raise
        (F.CLS_EVT_DICT_UE c) (0x80 + c) 2 ([ph, e] ++ step)

/-- A value-store read that fails parity (R68, R82, R89). -/
def vsParity (c n phys : Nat) (s : State) : State :=
  if kvGet false (s.clause c).vsBad phys then
    (s.count (F.CLS_CNT_VSPAR_COUNT c)).raise (F.CLS_EVT_VS_PARITY c) (0x80 + c) 3 ([phys / 256, phys % 256] ++ w64 n)
  else s

/-- A slice corrects an error (R179, R183, R190, R205): counts, SCH_CE at powers of two, SCH_ROW_HOT. -/
def schCorrected (c row word : Nat) (byScrub : Bool) (s : State) : State :=
  let x := s.clause c
  let n := satSucc 32 x.ce
  let k := if x.hotRow == row then x.hotCnt + 1 else 1
  let thr := s.fget F.SCH_ROWHOT_THR
  let hot := thr != 0 && decide (thr ≤ k)
  let s1 := (s.count (if byScrub then F.SCH_CNT_SCRUB_COUNT else F.SCH_CNT_CE_COUNT)).modClause c fun x => { x with
    ce := n, hotRow := row, hotCnt := if hot then 0 else k }
  let s2 := if isPow2 n then s1.raise F.SCH_EVT_CE 6 1 [c, row, word, n] else s1
  if hot then sparingSeen (.row c row) (s2.raise F.SCH_EVT_ROW_HOT 6 4 [c, row, thr]) else s2

/-- An uncorrectable location on a schedule read (R181, R205). -/
def schUe (c n loc kind : Nat) (s : State) : State :=
  ((s.count F.SCH_CNT_UE_COUNT).modClause c fun x => { x with ue := satSucc 32 x.ue }).raise
    F.SCH_EVT_UE 6 2 ([c, loc / 128, loc % 128, kind] ++ w64 n)

/-- Row r and word w lie in what a slice reads for phase p (R176, R179). -/
def inPhase (p r w : Nat) : Bool :=
  (decide (4 * p ≤ r) && decide (r < 4 * p + 4)) || (r == 8192 + p / 4 && w / 32 == p % 4)

/-- The hold-record chunks of phase p that are uncorrectable (R166, R181). -/
def holdReads (c n p : Nat) (s : State) : State :=
  ((List.range 4).filter fun d => s.markAt c (chunkLoc p (24 + d)) = 2).foldl
    (fun s d =>
      let s := schUe c n (chunkLoc p (24 + d)) 2 s
      if (s.clause c).iso then s.raise F.FAB_EVT_HOLD_UE 8 5 ([c, d, p] ++ w64 n) else s) s

/-- The errors of the locations that a slice reads for phase p (R179, R181, R182): corrections, and uncorrectable words
that no unit replaces. A clause that takes no part in the schedule has only its hold record read, while it is isolated
(R166). -/
def schReads (c n p : Nat) (s : State) : State :=
  if !s.runnable c then holdReads c n p s
  else
    let ces := (s.clause c).schBad.filterMap fun e => match s.logicalRow c (e.1 / 128) with
      | some r => if inPhase p r (e.1 % 128) && (e.2 == 1 || e.2 == 3) then some (r, e.1) else none
      | none => none
    let s1 := ces.foldl (fun s e => (schCorrected c e.1 (e.2 % 128) false s).modClause c fun x =>
      { x with schBad := kvSet 0 x.schBad e.2 3 }) s
    let s2 := ((List.range 512).filter fun bp => (s.bpWordAt c p bp).2).foldl (fun s bp => schUe c n (wordLoc p bp) 0 s) s1
    let s3 := ((List.range 24).filter fun i => (s.chunkAt c p i).2).foldl (fun s i => schUe c n (chunkLoc p i) 1 s) s2
    holdReads c n p s3

/-! ### CHECK (R113 to R116) -/

/-- Packets of a clause that its event path holds before it is back-pressured: 18 flits of 3 per packet (R457; log 14). -/
def State.clauseBacked (s : State) (c : Nat) : Bool := decide (6 ≤ (s.evq.filter fun e => e.src == 0x80 + c).length)

/-- The failing CHECKs of a clause in step n (R114 to R116, R145). -/
def clauseChecks (c n : Nat) (outs : List BpOut) (s : State) : State :=
  let fails := outs.filterMap fun o => o.check.map fun k => (o.bp, k)
  let stops := fails.filter fun f => f.2.2.1
  match (stops ++ fails).head? with
  | none => s
  | some (bp, id, stop, sa) =>
    let s1 := fails.foldl (fun s _ => s.count (F.CLS_CNT_CHECK_COUNT c)) s
    let en := s.fbit (F.CLS_EVTEN_CHECK c)
    if stop || !en || !s.clauseBacked c then
      let pay := w64 n ++ [bp, n % s.seq.depth, id, sa.toNat, stop.toNat, fails.length, (s.clause c).chkDrop]
      let s2 := s1.raiseAt (F.CLS_EVT_CHECK c) (0x80 + c) 5 pay n s.ptime stop
      let s3 := if en then s2.modClause c fun x => { x with chkDrop := 0 } else s2
      if stop then stopRequestAt (n + 1) s3 else s3
    else
      ((s1.count (F.CLS_CNT_CHKDROP_COUNT c)).fset (F.CLS_EVT_CHECK c) 1).modClause c
        fun x => { x with chkDrop := x.chkDrop + 1 }

/-! ### The effects of a clause -/

/-- The storage errors, writes, queued commits, bus and port-register writes of a clause in step n (R61, R78, R105, R123). -/
def clauseApply (c n : Nat) (outs : List BpOut) (s : State) : State :=
  let s1 := outs.foldl (fun s o =>
    let s := match o.dict with
      | some e => dictOutcome c ((s.clause c).physOf o.bp) e (w64 n) s
      | none => s
    o.reads.foldl (fun s r => vsParity c n r s) s) s
  let s2 := (outs.flatMap (·.writes)).foldl (fun s w => vsWrite c w.1 w.2 s) s1
  s2.modClause c fun x => { x with
    cq := x.cq ++ outs.filterMap (·.queue)
    bus := kvSetAll s.dfl [] (outs.filterMap fun o => o.bus.map fun v => (o.bp, v))
    padr := kvSetAll s.dfl x.padr (outs.filterMap (·.madr))
    pwd := kvSetAll s.dfl x.pwd (outs.filterMap (·.mwdt)) }

/-! ### The switch (R151 to R158, R164, R166) -/

/-- The transmit lanes of a clause in the step: driven lanes, X or 0 elsewhere (R151). -/
def txLanes (d : Val) (outs : List BpOut) : Kv Val := kvSetAll d [] (outs.filterMap (·.tx))

/-- The switch word of a clause and phase as a number, its uncorrectable chunks read as 0, with the list of them. -/
def State.switchWord (s : State) (c p : Nat) : Nat × List Nat :=
  let cs := (List.range 24).map fun i => (i, s.chunkAt c p i)
  (cs.foldl (fun a e => a + e.2.1.toNat * 2 ^ (128 * e.1)) 0, (cs.filter fun e => e.2.2).map (·.1))

/-- SEL of output o (R156, R157): a select with a bit in an uncorrectable chunk acts as NONE (R181). -/
def selOf (w : Nat × List Nat) (o : Nat) : Nat :=
  if w.2.contains (9 * o / 128) || w.2.contains ((9 * o + 8) / 128) then 0 else nbits w.1 (9 * o) 9

/-- PACK bit j and UNPACK bit j (R156). -/
def packBit (w : Nat) (j : Nat) : Bool := nbit w (2880 + j)
def unpackBit (w : Nat) (j : Nat) : Bool := nbit w (2912 + j)

/-- The value at LOC input lane k (R151, R158). -/
def locIn (d : Val) (two : Bool) (sw : Nat) (tx : Kv Val) (k : Nat) : Val :=
  let t := fun j => kvGet d tx j
  if two && packBit sw (k / 2) then
    if k % 2 = 0 then BitVec.ofNat 2 (((t k).getLsbD 1).toNat * 2 + ((t (k + 1)).getLsbD 1).toNat) else v0
  else t k

/-- The value at an input lane of a switch in step n (R151 to R153, R155). -/
def State.switchIn (s : State) (c n sw : Nat) (tx : Kv Val) (port lane : Nat) : Val :=
  if port = 4 then locIn s.dfl s.seq.twostate sw tx lane
  else
    match linkOf c port with
    | some l => s.edgeIn l lane n
    | none => if s.phase0 n then s.dfl else kvGet s.dfl (s.clause c).inl (64 * port + lane)

/-- The value at output o of an executing switch (R151, R152, R157). -/
def State.switchOut (s : State) (c n : Nat) (w : Nat × List Nat) (tx : Kv Val) (o : Nat) : Val :=
  let sel := selOf w o
  if sel / 64 = 0 ∨ 5 < sel / 64 then s.dfl else s.switchIn c n w.1 tx (sel / 64 - 1) (sel % 64)

/-- The value at an outward output of an isolated switch in phase p (R166). -/
def State.heldOut (s : State) (c p o : Nat) : Val :=
  let x := s.clause c
  if x.xinj || s.markAt c (chunkLoc p (24 + o / 64)) = 2 then s.dfl else kvGet s.dfl x.hold (256 * p + o)

/-- The 256 outward outputs of clause c in step n: switch, hold record, or undriven (R152, R166). DESIGN CHOICE (log 57): an
isolated clause that a refused RELOAD has left unloaded drives its hold record, as R166 says of an isolated clause, and not
the X of R152. -/
def State.outward (s : State) (c n : Nat) (w : Nat × List Nat) (tx : Kv Val) (o : Nat) : Val :=
  if s.active c then s.switchOut c n w tx o
  else if (s.clause c).iso then s.heldOut c (n % s.seq.depth) o
  else s.dfl

/-- The local receive lanes that a switch delivers for the next step (R151, R158). -/
def State.localOut (s : State) (c n : Nat) (w : Nat × List Nat) (tx : Kv Val) (k : Nat) : Val :=
  let v := fun k => s.switchOut c n w tx (256 + k)
  if s.seq.twostate && unpackBit w.1 (k / 2) then
    if k % 2 = 0 then ofBool ((v k).getLsbD 1) else ofBool ((v (k - 1)).getLsbD 0)
  else v k

/-- The neighbour at the other end of connection (c, d) and the input port it meets there (R148). -/
def neighbour (c d : Nat) : Nat × Nat :=
  match d with
  | 0 => (c - 8, 2)
  | 1 => (c + 1, 3)
  | 2 => (c + 8, 0)
  | _ => (c - 1, 1)

/-- A connection error of the step: corrected on a lane or a check wire, or the lanes as read (R160, R161). -/
def connCorrected (k : Nat) (lane : Option Nat) (n : Nat) (s : State) : State :=
  let x := s.conn k
  let ce := satSucc 32 x.ce
  let l := lane.getD 0x7F
  let rep := if lane.isSome && x.repLane == l then satSucc 16 x.repCnt else 1
  let s1 := s.modConn k fun x => { x with ce := ce, repLane := l, repCnt := rep }
  let hot := lane.isSome && rep == 16
  let s2 := if isPow2 ce || hot then s1.raise F.FAB_EVT_CONN_FIX 8 1 ([k, l, ce, rep] ++ w64 n) else s1
  if hot then sparingSeen (.lane k l) s2 else s2

/-- An uncorrectable error of a connection (R160, R161). -/
def connUe (k n : Nat) (s : State) : State :=
  (s.modConn k fun x => { x with ue := satSucc 32 x.ue }).raise F.FAB_EVT_CONN_UE 8 2 ([k] ++ w64 n)

/-- The lanes of a connection as they arrive: the routed values, or what an uncorrectable error made of them (R160). -/
def asRead (ups : List Upset) (k lane : Nat) (v : Val) : Val :=
  ups.foldl (fun v u => match u with
    | .connUncorrectable k' ls => if k' = k then (ls.lookup lane).getD v else v
    | _ => v) v

/-- All switches in step n (R151): the input lanes of the next step, and for each clause its outward values. -/
def switchStep (n : Nat) (ups : List Upset) (txs : Kv (Kv Val)) (s : State) : State :=
  let p := n % s.seq.depth
  let out := fun c o => asRead ups (4 * c + o / 64) (o % 64) (s.outward c n (s.switchWord c p) (kvGet [] txs c) o)
  let cs := (List.range 64).filter fun c => s.active c || (s.clause c).iso
  let put (s : State) (c : Nat) : State :=
    let w := s.switchWord c p
    let s1 := (List.range 4).foldl (fun s d =>
      match linkOf c d with
      | some _ => s
      | none =>
        let nb := neighbour c d
        s.modClause nb.1 fun x => { x with
          inl := (List.range 64).foldl (fun m k => kvSet s.dfl m (64 * nb.2 + k) (out c (64 * d + k))) x.inl }) s
    if s.active c then
      s1.modClause c fun x => { x with
        inl := (List.range 64).foldl (fun m k => kvSet s.dfl m (256 + k) (s.localOut c n w (kvGet [] txs c) k)) x.inl
        hold := (List.range 256).foldl (fun m o => kvSet s.dfl m (256 * p + o) (s.outward c n w (kvGet [] txs c) o)) x.hold
        schBad := (List.range 4).foldl (fun m d => kvSet 0 m (s.arrayLoc c (chunkLoc p (24 + d))) 0) x.schBad }
    else s1
  let s0 := (List.range 64).foldl (fun s c => s.modClause c fun x => { x with inl := [] }) s
  let s1 := cs.foldl put s0
  let s2 := s.usedLinks.foldl (fun t l =>
    let e := linkPort l
    linkFree n l (linkSend n (fun k => out e.1 (64 * e.2 + k)) l t)) s1
  ups.foldl (fun s u => match u with
    | .connCorrected k lane => connCorrected k lane n s
    | .connUncorrectable k _ => connUe k n s
    | _ => s) s2

end Sys2Proof.Machine
end

