-- ==== Sys2Proof/Machine/Trig.lean ====
section
/-! DEFINITION. Trig.lean: the 16 trigger units (R401 to R407): what a line or a pin shows them, their conditions, their
acquisitions, actions and hold-off, and the writes of their registers. -/
namespace Sys2Proof.Machine

/-! ### Conditions (R401, R402) -/

/-- Codes of POL: high or rising or positive, low or falling or negative, either (R402). -/
def polRise (pol : Nat) : Bool := pol == 0 || pol == 2
def polFall (pol : Nat) : Bool := pol == 1 || pol == 2

/-- A measured width or transition time lies as MIN, MAX and INV ask (R402). -/
def State.tuInRange (s : State) (u x : Nat) : Bool :=
  (decide (s.fget (F.CAP_TUMIN_MIN u) ≤ x) && decide (x ≤ s.fget (F.CAP_TUMAX_MAX u))) != s.fbit (F.CAP_TUCTL_INV u)

/-- A match of a unit's condition waits to be acted on: step stamp, platform time, FINE, MEAS (R404). -/
def tuMatch (u stamp time fine meas : Nat) (s : State) : State :=
  if (s.unit u).st == .off then s
  else s.modUnit u fun x => { x with due := x.due ++ [(stamp, time, fine, meas)] }

/-- MEAS of a measure: the measure, or a free value where it does not fit in 32 bits (log 15). -/
def measOf (m : Nat) (s : State) : Nat × State :=
  if m < 2 ^ 32 then (m, s) else (s.fresh.1.toNat % 2 ^ 32, s.fresh.2)

/-- What a line source shows its unit in step n (R401, R402): `old` and `new` levels, `since` one more than the step of the
last change before this step (0 for none). -/
def tuLine (n u : Nat) (old new : Bool) (since : Nat) (s : State) : State :=
  let pol := s.fget (F.CAP_TUCTL_POL u)
  let fire := fun m (s : State) => let r := measOf m s; tuMatch u n r.2.ptime 0 r.1 r.2
  let edge := (new && !old && polRise pol) || (old && !new && polFall pol)
  let trail := (old && !new && polRise pol) || (new && !old && polFall pol)
  match s.fget (F.CAP_TUCTL_COND u) with
  | 0 => if new == (pol == 0) then fire 0 s else s
  | 1 => if edge then fire 0 s else s
  | 2 =>
    let w := n - (since - 1)
    if trail && since != 0 && s.tuInRange u w then fire w s else s
  | 4 =>
    let s1 := if old != new then s.modUnit u fun x => { x with timedOut := false } else s
    let from_ := if old != new then n else since - 1
    if (pol == 2 || new == (pol == 0)) && !(s1.unit u).timedOut && decide (s.fget (F.CAP_TUMAX_MAX u) ≤ n - from_ + 1) then
      fire 0 (s1.modUnit u fun x => { x with timedOut := true })
    else s1
  | _ => s

/-- The lines that the TRIG words of step n assert reach the units that watch them (R112, R401). -/
def tuLines (n lines : Nat) (s : State) : State :=
  let s1 := (List.range 16).foldl (fun s u =>
    let k := s.fget (F.CAP_TUSRC_PIN u)
    if (s.unit u).st != .off && !s.fbit (F.CAP_TUSRC_KIND u) && decide (k < 16) then
      tuLine n u (nbit s.cap.lines k) (nbit lines k) (kvGet 0 s.cap.lineSince k) s
    else s) s
  let since := (List.range 16).foldl (fun m k =>
    if nbit s.cap.lines k != nbit lines k then kvSet 0 m k (n + 1) else m) s.cap.lineSince
  { s1 with cap := { s1.cap with lines := lines, lineSince := since } }

/-- A crossing of threshold HI or LO reaches a unit that watches the pin, at a tick of 31.25 ps (R401, R402). -/
def tuCross (u : Nat) (hi up : Bool) (tick fine : Nat) (s : State) : State :=
  let x := s.unit u
  let pol := s.fget (F.CAP_TUCTL_POL u)
  let rising := hi && up && !x.level
  let falling := !hi && !up && x.level
  let y : Tu := { x with
    level := if rising then true else if falling then false else x.level
    edgeAt := if rising || falling then some tick else x.edgeAt
    timedOut := if rising || falling then false else x.timedOut
    riseAt := if !hi && up then some tick else if (hi && up) || (!hi && !up) then none else x.riseAt
    fallAt := if hi && !up then some tick else if (hi && up) || (!hi && !up) then none else x.fallAt }
  let s1 := s.modUnit u fun _ => y
  let fire := fun m (s : State) =>
    let r := measOf m s
    tuMatch u (s.seq.step - 1) s.ptime fine r.1 r.2
  match s.fget (F.CAP_TUCTL_COND u) with
  | 1 => if (rising && polRise pol) || (falling && polFall pol) then fire 0 s1 else s1
  | 2 =>
    match x.edgeAt with
    | some e =>
      if ((falling && polRise pol) || (rising && polFall pol)) && s.tuInRange u (tick - e) then fire (tick - e) s1 else s1
    | none => s1
  | 3 =>
    match (if !hi && !up && polRise pol then x.riseAt else if hi && up && polFall pol then x.fallAt else none) with
    | some e => fire (tick - e) s1
    | none => s1
  | 5 =>
    match (if rising && polRise pol then x.riseAt else if falling && polFall pol then x.fallAt else none) with
    | some e => if s.tuInRange u (tick - e) then fire (tick - e) s1 else s1
    | none => s1
  | _ => s1

/-- A pin crosses the threshold at `mv` of the units that watch it with that threshold, in every bank state but OFF
(R401). -/
def pinCrossing (bank pin : Nat) (hi up : Bool) (mv fine : Nat) (s : State) : State :=
  if (s.bank bank).st == .off then s
  else
    (List.range 16).foldl (fun s u =>
      let thr := if hi then s.fget (F.CAP_TUTHR_HI u) else s.fget (F.CAP_TUTHR_LO u)
      if (s.unit u).st != .off && s.fbit (F.CAP_TUSRC_KIND u) && s.fget (F.CAP_TUSRC_BANK u) == bank &&
          s.fget (F.CAP_TUSRC_PIN u) == pin && thr == mv then
        tuCross u hi up (32 * s.ptime + fine % 32) (fine % 32) s
      else s) (padCross bank pin hi up s)

/-! ### Firing (R403 to R405) -/

/-- The hold-off of a unit has passed, as the clocks given stand (R403). -/
def State.tuHeld (s : State) (u step time : Nat) : Bool :=
  let x := s.unit u
  let h := s.fget (F.CAP_TUHOLD_HOLD u)
  match s.fget (F.CAP_TUCTL_HMODE u) with
  | 0 => decide (x.time + h ≤ time)
  | 1 => decide (h ≤ x.matches_)
  | _ => decide (x.step + h ≤ step)

/-- The unit's acquisition waits to be posted: its CAP_TRIG is on its way to the arbiter (R404). -/
def State.tuPosted (s : State) (u : Nat) : Bool := s.evq.any fun e => e.src == 12 && e.code == 1 && e.payload.head? == some u

/-- The stop request of an acquisition: its raise step is the step stamp (R42, R44). -/
def tuStop (stamp : Nat) (s : State) : State :=
  if s.seq.step ≤ (if s.usedLinks.isEmpty then stamp + 1 else stamp + s.fget F.SEQ_FENCE_DIST) then stopRequestAt (stamp + 1) s
  else receiveFence (if s.usedLinks.isEmpty then stamp + 1 else stamp + s.fget F.SEQ_FENCE_DIST) s.devnum s

/-- An acquisition (R404): the mailbox items, the count, the TRIG packet of a running signal capture. -/
def tuAcquire (u stamp time fine meas : Nat) (s : State) : State :=
  let s1 := (s.count (F.CAP_TUCNT_COUNT u)).modUnit u fun x => { x with
    st := if s.fget (F.CAP_TUHOLD_HOLD u) = 0 then .armed else .holdoff
    step := stamp, time := time, fine := fine, meas := meas, skipped := x.skips, skips := 0, matches_ := 0 }
  if s.cap.sig.on then
    sigPut [sigHdr 5 3 stamp,
      BitVec.ofNat 64 (u + s.fget (F.CAP_TUCTL_COND u) * 2 ^ 4 + s.fget (F.CAP_TUSRC_KIND u) * 2 ^ 7 +
        s.fget (F.CAP_TUSRC_PIN u) * 2 ^ 8 + s.fget (F.CAP_TUSRC_BANK u) * 2 ^ 14),
      BitVec.ofNat 64 time, BitVec.ofNat 64 (meas * 2 ^ 32 + fine)] s1
  else s1

/-- The CAP_TRIG of an acquisition, or a count of DROP while one waits (R404, R416). -/
def tuPost (u stamp time : Nat) (s : State) : State :=
  if s.tuPosted u then
    (s.fset F.CAP_EVT_TRIG 1).fset (F.CAP_TUSTAT_DROP u) (satSucc 8 (s.fget (F.CAP_TUSTAT_DROP u)))
  else
    let x := s.unit u
    s.raiseAt F.CAP_EVT_TRIG 12 1
      [u, s.fget (F.CAP_TUSRC_KIND u), s.fget (F.CAP_TUSRC_BANK u), s.fget (F.CAP_TUSRC_PIN u), s.fget (F.CAP_TUCTL_COND u),
       x.meas, x.fine, x.skipped, s.fget (F.CAP_TUSTAT_DROP u)] stamp time false

/-- The actions that ACT selects (R405). A channel asserted on a line source halts the sequencer before the second step after
the stamp (R437). -/
def tuActions (u stamp time : Nat) (s : State) : State :=
  let act := s.fget (F.CAP_TUCTL_ACT u)
  let on := fun k (f : State → State) (s : State) => if nbit act k then f s else s
  let at_ := if s.fbit (F.CAP_TUSRC_KIND u) then none else some (stamp + 2)
  on 6 (fun s => xtAssert false at_ s (s.fget (F.CAP_TUCTL_XCH u)))
    (on 5 (mtStopReq (128 + u)) (on 4 (mtStartReq (128 + u))
      (on 3 (sigStopReq 1 u (stamp + 1)) (on 2 (sigStartReq 1 u) (on 1 (tuStop stamp) (on 0 (tuPost u stamp time) s))))))

/-- A match is acted on (R403): a firing when ARMED, or in a hold-off that has passed; otherwise it is counted. -/
def tuAct (u : Nat) (m : Nat × Nat × Nat × Nat) (s : State) : State :=
  let fire := fun s => tuActions u m.1 m.2.1 (tuAcquire u m.1 m.2.1 m.2.2.1 m.2.2.2 s)
  match (s.unit u).st with
  | .off => s
  | .armed => fire s
  | .holdoff =>
    if s.tuHeld u m.1 m.2.1 then fire s
    else s.modUnit u fun x => { x with skips := x.skips + 1, matches_ := x.matches_ + 1 }

/-- A pin source stands as LEVEL or TIMEOUT asks (R402): these need no crossing. -/
def State.tuStands (s : State) (u tick : Nat) : Bool :=
  let x := s.unit u
  let pol := s.fget (F.CAP_TUCTL_POL u)
  s.fbit (F.CAP_TUSRC_KIND u) && x.st != .off &&
    (match s.fget (F.CAP_TUCTL_COND u) with
     | 0 => x.level == (pol == 0)
     | 4 => (pol == 2 || x.level == (pol == 0)) && !x.timedOut &&
        decide (s.fget (F.CAP_TUMAX_MAX u) ≤ tick - x.edgeAt.getD 0)
     | _ => false)

/-- A unit acts on the oldest match it has seen (R403, R404); `ticks` is the FINE of a level or timeout found now. -/
def triggerFire (u ticks : Nat) (s : State) : State :=
  match (s.unit u).due with
  | m :: t => tuAct u m (s.modUnit u fun x => { x with due := t })
  | [] =>
    if s.tuStands u (32 * s.ptime + ticks % 32) then
      tuAct u (s.seq.step - 1, s.ptime, ticks % 32, 0)
        (s.modUnit u fun x => { x with timedOut := s.fget (F.CAP_TUCTL_COND u) == 4 })
    else s

/-- The hold-off of a unit that has acted on every match it has seen expires (R403). -/
def holdoffEnd (u : Nat) (s : State) : State :=
  if (s.unit u).st == .holdoff && (s.unit u).due.isEmpty && s.tuHeld u s.seq.step s.ptime then
    s.modUnit u fun x => { x with st := .armed }
  else s

/-! ### Writes of the unit registers (R403, R407, R413, R414) -/

/-- The configuration of a unit is invalid (R407). -/
def State.tuInvalid (s : State) (u : Nat) : Bool :=
  let cond := s.fget (F.CAP_TUCTL_COND u)
  let pol := s.fget (F.CAP_TUCTL_POL u)
  let pin := s.fbit (F.CAP_TUSRC_KIND u)
  decide (6 ≤ cond) || ((cond == 3 || cond == 5) && !pin) || pol == 3 || (pol == 2 && cond == 0) ||
  ((cond == 2 || cond == 5) && decide (s.fget (F.CAP_TUMAX_MAX u) < s.fget (F.CAP_TUMIN_MIN u))) ||
  (cond == 4 && s.fget (F.CAP_TUMAX_MAX u) == 0) ||
  (pin && (decide (47 < s.fget (F.CAP_TUSRC_PIN u)) ||
    decide (s.fget (F.CAP_TUTHR_HI u) < s.fget (F.CAP_TUTHR_LO u) + 20))) ||
  s.fget (F.CAP_TUCTL_HMODE u) == 3 || nbit (s.fget (F.CAP_TUCTL_ACT u)) 7

/-- A unit register written while EN = 1 keeps its content and sets WERR (R407). -/
def tuWerr (u : Nat) (s : State) : State := s.fset (F.CAP_TUSTAT_WERR u) 1

/-- The fields of CAP_TUCTL but EN take a written word (R413). -/
def tuCtlFields (u : Nat) (w : Word) (s : State) : State :=
  ((((((s.fset (F.CAP_TUCTL_ACT u) (fieldOf w 16 8)).fset (F.CAP_TUCTL_COND u) (fieldOf w 13 3)).fset
    (F.CAP_TUCTL_POL u) (fieldOf w 11 2)).fset (F.CAP_TUCTL_INV u) (fieldOf w 10 1)).fset
    (F.CAP_TUCTL_HMODE u) (fieldOf w 8 2)).fset (F.CAP_TUCTL_XCH u) (fieldOf w 4 2))

/-- CAP_TUCTL written with EN = 1 (R403, R407): the unit is armed, or the write is refused. -/
def tuEnable (u : Nat) (w : Word) (s : State) : State :=
  if s.fbit (F.CAP_TUCTL_EN u) then tuWerr u s
  else
    let s1 := tuCtlFields u w s
    if s1.tuInvalid u then (s1.fset (F.CAP_TUSTAT_CFGERR u) 1).raise F.CAP_EVT_CFGERR 12 6 [u]
    else
      (((s1.fset (F.CAP_TUCTL_EN u) 1).fset (F.CAP_TUSTAT_CFGERR u) 0).fset (F.CAP_TUSTAT_DROP u) 0).modUnit u
        fun x => { x with
          st := .armed, skips := 0, matches_ := 0, due := [], timedOut := false
          level := false, edgeAt := none, riseAt := none, fallAt := none }

/-- A unit goes OFF (R403). -/
def tuDisable (u : Nat) (s : State) : State :=
  (s.fset (F.CAP_TUCTL_EN u) 0).modUnit u fun x => { x with st := .off, due := [] }

/-- CAP_TUCTL is written (R403, R407, R413). -/
def tuCtlWrite (u : Nat) (w : Word) (s : State) : State :=
  if w.getLsbD 31 then tuEnable u w s else tuCtlFields u w (tuDisable u s)

/-- Another register of a unit is written, by its offset from the unit's first (R407, R414). -/
def tuRegWrite (u off : Nat) (w : Word) (s : State) : State :=
  if off = 0 then tuCtlWrite u w s
  else if s.fbit (F.CAP_TUCTL_EN u) then tuWerr u s
  else
    match off with
    | 0x04 => ((s.fset (F.CAP_TUSRC_KIND u) (fieldOf w 10 1)).fset (F.CAP_TUSRC_BANK u) (fieldOf w 7 3)).fset
        (F.CAP_TUSRC_PIN u) (fieldOf w 0 6)
    | 0x08 => s.fset (F.CAP_TUMIN_MIN u) w.toNat
    | 0x0C => s.fset (F.CAP_TUMAX_MAX u) w.toNat
    | 0x10 => (s.fset (F.CAP_TUTHR_HI u) (fieldOf w 16 12)).fset (F.CAP_TUTHR_LO u) (fieldOf w 0 12)
    | 0x14 => s.fset (F.CAP_TUHOLD_HOLD u) w.toNat
    | 0x18 => if w.getLsbD 2 then s.fset (F.CAP_TUSTAT_WERR u) 0 else s
    | _ => s

end Sys2Proof.Machine
end

