-- ==== Sys2Proof/Machine/StepOp.lean ====
section
/-! DEFINITION. StepOp.lean: one step of the device and what happens at the boundary after it (R25 to R34, R40, R45, R48, R78,
R125, R153, R165, R193, R386). -/
namespace Sys2Proof.Machine

/-! ### Upsets -/

/-- An upset strikes stored state (R68, R76, R78, R179, R181, R223, R353). The data of an uncorrectable memory error are
free values (log 4). -/
def upset (s : State) (u : Upset) : State :=
  match u with
  | .dictCopy c ph e v ok => s.modClause c fun x => { x with
      dictBad := kvSet none x.dictBad (1024 * ph + e) (if ok && v == kvGet 0 x.dictW e then none else some (v, ok)) }
  | .valueStore c bp e v => s.modClause c fun x => { x with
      vs := if s.seq.twostate then
          kvSet s.dfl (kvSet s.dfl x.vs (vsKey bp 0 e) (ofBool (v.getLsbD 1))) (vsKey bp 1 e) (ofBool (v.getLsbD 0))
        else kvSet s.dfl x.vs (vsKey bp 0 e) v
      vsBad := kvSet false x.vsBad (256 * bp + e) true }
  | .commitQueue c bp slot v => s.modClause c fun x =>
      let rec go (k : Nat) : List CqEntry → List CqEntry
        | [] => []
        | q :: t => if q.bp = bp then (if k = 0 then { q with val := v, bad := true } :: t else q :: go (k - 1) t) else q :: go k t
      { x with cq := go slot x.cq }
  | .schCorrectable c row word => s.modClause c fun x =>
      { x with schBad := if kvGet 0 x.schBad (128 * row + word) = 0 then kvSet 0 x.schBad (128 * row + word) 1 else x.schBad }
  | .schUncorrectable c row word => s.modClause c fun x => { x with schBad := kvSet 0 x.schBad (128 * row + word) 2 }
  | .connCorrected _ _ => s
  | .connUncorrectable _ _ => s
  | .memCorrectable a =>
      if s.memMark a = 0 then s.setMark a 1 else s
  | .memUncorrectable a =>
      let r := s.fresh
      let r2 := r.2.fresh
      (r2.2.setMark a 2).store (wordBase a) (leBytes 16 r.1.toNat ++ leBytes 16 r2.1.toNat)
  | .rimFrame rfa word ue =>
      { s with rim := { s.rim with 
        bad := kvSet 0 s.rim.bad (4 * rfa + word) (if ue || kvGet 0 s.rim.bad (4 * rfa + word) == 2 then 2 else 1) } }
  | .paramCopy r =>
      if r < 2 then { s with sch := { s.sch with dis := s.sch.dis ||| BitVec.ofNat 2 (2 ^ r) } }
      else { s with rim := { s.rim with dis := true } }

/-- The upsets that a command brings. -/
def upsets (ups : List Upset) (s : State) : State := ups.foldl upset s

/-! ### Isolation at a boundary (R165 to R167) -/

/-- The isolation or release whose boundary has come takes effect (R165). DESIGN CHOICE (log 57): the FAB_ISO of a release
reports the XINJ latched at the isolation that it ends. -/
def isoApply (s : State) : State :=
  match s.fab.iso with
  | none => s
  | some r =>
    if !r.due then s
    else
      let s1 := (((({ s with fab := { s.fab with iso := none } }).fset F.FAB_ISO_ISO 0).fset F.FAB_ISO_REL 0).fset
        F.FAB_ISO_RESULT 0).modClause r.clause fun x => { x with iso := !r.rel, xinj := !r.rel && r.xinj }
      s1.raise F.FAB_EVT_ISO 8 3 ([r.clause, r.rel.toNat, (if r.rel then (s.clause r.clause).xinj else r.xinj).toNat] ++ w64 s.seq.step)

/-- The pending sparing maps take effect (R162). -/
def fabAgreeApply (s : State) : State :=
  match s.fab.agree with
  | none => s
  | some (tag, k, map) =>
    (((({ s with fab := { s.fab with agree := none } }).modConn k fun x => { x with spare := map }).fset
      F.FAB_AGREE_BUSY 0).fset F.FAB_AGREE_RESULT 0).raise F.FAB_EVT_AGREE 8 6 ([tag, k, 0] ++ w64 s.seq.step)

/-! ### The checkpoint of a boundary (R48) -/

/-- The memory ranges that the enabled windows mark for checkpoint: HBM windows, and the whole of each lexicon bank that
a window touches (R48). -/
def State.ckptRegions (s : State) : List (Nat × Nat) :=
  (List.range 256).flatMap fun m =>
    let w := s.win m
    if winEn w && winCkpt w then
      if isLex (winBase w) then
        let a := 0x40000000 + lexBank (winBase w) * 0x40000
        let z := 0x40000000 + (lexBank (winBase w + winSize w * 256 - 1) + 1) * 0x40000
        [(a, z - a)]
      else [(winBase w, winSize w * 256)]
    else []

/-- An address lies in one of the ranges. -/
def inRanges (rs : List (Nat × Nat)) (a : Nat) : Bool := rs.any fun r => decide (r.1 ≤ a) && decide (a < r.1 + r.2)

/-- The addresses whose byte lies in a cell of memory: its own, unless its HBM page is retired, and those of the retired
pages it serves (R226). -/
def State.addrsOf (s : State) (p : Nat) : List Nat :=
  if isHbm p then
    let k := hbmStack p
    (if s.phys p = p then [p] else []) ++
      (s.umem.hbmRet.filter fun e => e.1 / 6291456 == k && e.2 == some (hbmPage p)).map fun e =>
        0x001000000000 + k * 0x600000000 + e.1 % 6291456 * 4096 + p % 4096
  else [p]

/-- The listed bytes of ranges, by address. -/
def State.regionCells (s : State) (rs : List (Nat × Nat)) : List Host.Cell :=
  s.mem.foldl (fun m e => ((s.addrsOf e.1).filter (inRanges rs)).foldl (fun m a => kvSet (memDflt a) m a e.2) m) []

/-- The received frames of a link that the partner sent before the boundary at the step counter, by the step that first
consumes them (R48). -/
def State.ckptFrames (s : State) (l : Nat) : List (Nat × List Val) :=
  (s.link l).rxq.filter fun e => decide (e.1 < s.seq.step + (s.link l).slot.lat)

/-- A trigger unit's configuration registers, and for a line source with HMODE 1 or 2 its state, hold-off progress and
line (R406). -/
def State.ckptUnit (s : State) (u : Nat) : List Nat :=
  let x := s.unit u
  let line := !s.fbit (F.CAP_TUSRC_KIND u) && (s.fget (F.CAP_TUCTL_HMODE u) == 1 || s.fget (F.CAP_TUCTL_HMODE u) == 2)
  [s.fget (F.CAP_TUCTL_EN u), s.fget (F.CAP_TUCTL_ACT u), s.fget (F.CAP_TUCTL_COND u), s.fget (F.CAP_TUCTL_POL u),
   s.fget (F.CAP_TUCTL_INV u), s.fget (F.CAP_TUCTL_HMODE u), s.fget (F.CAP_TUCTL_XCH u), s.fget (F.CAP_TUSRC_KIND u),
   s.fget (F.CAP_TUSRC_BANK u), s.fget (F.CAP_TUSRC_PIN u), s.fget (F.CAP_TUMIN_MIN u), s.fget (F.CAP_TUMAX_MAX u),
   s.fget (F.CAP_TUTHR_HI u), s.fget (F.CAP_TUTHR_LO u), s.fget (F.CAP_TUHOLD_HOLD u)] ++
  (if line then
    [if x.st == .off then 0 else if x.st == .armed then 1 else 2, x.step, x.matches_, x.skips,
     (nbit s.cap.lines (s.fget (F.CAP_TUSRC_PIN u))).toNat, kvGet 0 s.cap.lineSince (s.fget (F.CAP_TUSRC_PIN u))]
   else [])

/-- Bytes of a placement in the order of R282: XF, OFF, every PBASE, every DMAP entry (R599; field widths: log 9). -/
def Img.placementBytes (g : Img) : List Byte :=
  leBytes 4 g.xf ++ leBytes 4 (g.dx + 256 * g.dy) ++ g.regions.flatMap (fun r => leBytes 8 r.pbase) ++
    g.dmap.flatMap (leBytes 4)

/-- The 64-byte header of a checkpoint body (R599). -/
def State.ckptHeader (s : State) : List Byte :=
  match s.load.img with
  | some g => leBytes 32 (Config.sm3 (g.hdr.take 192)).toNat ++ leBytes 32 (Config.sm3 g.placementBytes).toNat
  | none => List.replicate 64 0#8

/-- The content of the checkpoint of the boundary at the step counter (R48). Accesses issued before it complete first. -/
def State.snapshot (s : State) (base : Nat) : Ckpt :=
  let done := s.umem.lexq.foldl (fun t a => performLex a t) { s with umem := { s.umem with lexq := [] } }
  let rs := s.ckptRegions
  { base := base, step := s.seq.step, ucyc := s.seq.ucyc, gen := s.gen, twostate := s.seq.twostate
    vs := s.loadedClauses.map fun c => (c, (s.clause c).vs)
    frames := s.usedLinks.map fun l => (l, s.ckptFrames l)
    rets := done.umem.rets.map fun r => (r.m, r.due, r.vals)
    lanes := ((List.range 16).filter s.inEn).map fun g => (g, (s.group g).inq)
    regions := rs
    mem := done.regionCells rs
    trig := (List.range 16).map fun u => (u, s.ckptUnit u)
    chk := (s.loadedClauses.map fun c => (c, (s.clause c).chkDrop)).filter fun e => e.2 != 0
    hdr := s.ckptHeader
    outs := ((List.range 16).filter s.outEn).map fun g => (g, (s.group g).keep)
    keys := s.sec.keys }

/-- An automatic checkpoint begins at the boundary: its slot is the next one, and the record there is zeroed (R48 to
R50). DESIGN CHOICE (log 55): LAST_OK reads 0 from here until the checkpoint has committed. -/
def ckptBegin (s : State) : State :=
  let base := if s.seq.ckptNext = 0 then s.seq.ckptBase0 else s.seq.ckptBase1
  let s1 := { s with seq := { s.seq with
    ckpt := some (s.seq.ckptNext, s.snapshot base), ckpts := kvSet none s.seq.ckpts base none } }
  let s2 := (s1.fset F.SEQ_CKPT_STAT_LAST_SLOT s.seq.ckptNext).fset F.SEQ_CKPT_STAT_LAST_OK 0
  let zero := List.replicate 64 0#8
  if isHost base then s2.emit (.hostWrite base zero) else if isHbm base then (nocWrite 3 base zero s2).2 else s2

/-- A checkpoint that is due at the boundary begins, after a migration at the same boundary (R48, R138). -/
def ckptStart (s : State) : State :=
  if s.seq.ckptPend && !s.migRuns then ckptBegin { s with seq := { s.seq with ckptPend := false } } else s

/-! ### The boundary between two user cycles -/

/-- The commit queue of a clause is applied in order at the boundary before step t (R78, R79, R82). DESIGN CHOICE (log 28): t, the
counter after the boundary, is the "step of the boundary" of CLS_CQ_PARITY. -/
def commitClause (t : Nat) (s : State) (c : Nat) : State :=
  let q := (s.clause c).cq
  let s1 := (q.zipIdx.filter fun e => e.1.bad).foldl (fun s e =>
    (s.count (F.CLS_CNT_CQPAR_COUNT c)).raise (F.CLS_EVT_CQ_PARITY c) (0x80 + c) 4
      ([e.1.bp, ((q.take e.2).filter fun y => y.bp == e.1.bp).length] ++ w64 t)) s
  let s2 := q.foldl (fun s e => vsWrite c (vsKey e.bp e.bank e.dst) e.val s) s1
  s2.modClause c fun x => { x with cq := [] }

/-- What crosses no user-cycle boundary is cleared: clause buses, switch inputs (R125, R153); the per-user-cycle marks of
R106 and R210 restart. -/
def clearClause (s : State) (c : Nat) : State :=
  s.modClause c fun x => { x with bus := [], inl := [], xwCyc := [], winCyc := [] }

/-- The boundary that an isolation, a patch application and an accepted RELOAD of clauses that are not isolated wait for has come (R165,
R193, R311). -/
def boundaryDue (s : State) : State :=
  let s1 := if s.sch.patch == some .pending then { s with sch := { s.sch with patch := some .due } } else s
  let s2 := { s1 with fab := { s1.fab with iso := s1.fab.iso.map fun (r : IsoReq) => { r with due := true } } }
  match s2.load.job with
  | some j => if j.named.any fun c => !(s2.clause c).iso then { s2 with load := { s2.load with job := some { j with due := true } } } else s2
  | none => s2

/-- The user-cycle boundary at the step counter: commits, then what takes effect there (R26, R48, R78, R165, R193, R386). -/
def boundary (s : State) : State :=
  let s1 := (List.range 64).foldl (commitClause s.seq.step) s
  let s2 := (List.range 64).foldl clearClause s1
  let s3 := { s2 with seq := { s2.seq with ucyc := (s2.seq.ucyc + 1) % 2 ^ 64 } }
  let wg := s3.fget F.CAP_SIGCTL_WGMASK
  let s4 := if s3.cap.sig.on && s3.cap.sig.wg != wg then (sigEpoch 2 s3).modSig fun x => { x with wg := wg } else s3
  let s5 := boundaryDue (latchTokens s4)
  let n := s5.fget F.SEQ_CKPT_INTERVAL
  if n != 0 && s5.seq.ucyc != 0 && s5.seq.ucyc % n == 0 then
    ckptStart { s5 with seq := { s5.seq with ckptPend := true } } else s5

/-! ### One step -/

/-- The captured values of a step, per clause in capture-map order (R385, R386). A word that stood for an uncorrectable one
captured nothing: its place holds X, or 0 (log 17). -/
def State.stepCaps (s : State) (p : Nat) (outs : List (Nat × List BpOut)) : List (Nat × List Val) :=
  (outs.map fun e => (e.1, (s.capMap e.1 p s.cap.sig.wg).map fun bp =>
    match e.2[bp]? with
    | some o => (o.cap.map Prod.snd).getD s.dfl
    | none => s.dfl)).filter fun e => !e.2.isEmpty

/-- The BREAK units that match a word of an executing clause in phase p (R191): the breakpoints of the step. -/
def State.breaks (s : State) (p : Nat) : List Nat :=
  (s.sch.actA.filter fun e =>
    puMode e.2 == 2 && puPhase e.2 == p && s.active (puClause e.2) &&
      s.unitAt (puClause e.2) (puKind e.2) (puIndex e.2) p == some e.1).map Prod.fst

/-- The breakpoints of step n (R191, R441): the event of each, and the debug halt with the cross-trigger of R436. -/
def breakStep (n : Nat) (us : List Nat) (s : State) : State :=
  us.foldl (fun s u =>
    let a := kvGet 0 s.sch.actA u
    s.raise F.SCH_EVT_BREAK 6 7 ([u, puClause a, puIndex a] ++ w64 n)) s

/-- The sequencer meets its stop step (R40, R45). DESIGN CHOICE (log 55): where the fence, STOPAT and the STEP1 or UCYC1 stop
step name one step, the reason reported is the first of them in that order. -/
def stopCheck (n : Nat) (s : State) : State :=
  match s.seq.fence with
  | some (f, dev) =>
    if f = n then seqStop 0 n dev s
    else if s.fbit F.SEQ_CTL_STOPAT_EN && s.seq.stopAt == n then seqStop 1 n 0 s
    else if s.seq.stopStep == some n then seqStop 2 n 0 s
    else s
  | none =>
    if s.fbit F.SEQ_CTL_STOPAT_EN && s.seq.stopAt == n then seqStop 1 n 0 s
    else if s.seq.stopStep == some n then seqStop 2 n 0 s
    else s

/-- After step n the sequencer stops, halts, waits or is ready for the next step (R29, R40, R426, R437). -/
def afterStep (n : Nat) (brk : Bool) (s : State) : State :=
  let s1 := stopCheck n s
  if s1.seq.st == .stopped then s1
  else
    let s2 := if brk then seqHalt 2 s1 else s1
    let s3 := match s2.seq.haltAt with
      | some (t, cause) => if t ≤ s2.seq.step then seqHalt cause s2 else s2
      | none => s2
    if s3.seq.st == .running && !s3.causes.isEmpty then ellipsisBegin .ellipsis s3 else s3

/-- The state changes of step n itself, up to its end (R61 to R66, R107, R112 to R115, R123, R129, R151, R344). -/
def stepBody (n : Nat) (ups : List Upset) (s : State) : State :=
  let p := n % s.seq.depth
  let s1 := loadReturns n (sigBegin n (fabAgreeApply (isoApply (upsets ups s))))
  let outs := ((List.range 64).filter s1.active).map fun c => (c, s1.clauseStep c n)
  let caps := if s1.cap.sig.on && (s1.cap.sig.stopAt.map fun e => decide (n < e)).getD true then s1.stepCaps p outs else []
  let txs : Kv (Kv Val) := outs.map fun e => (e.1, txLanes s1.dfl e.2)
  let xouts := outs.flatMap fun e => e.2.filterMap (·.xout)
  let lines := (outs.filter fun e => !s1.unobserved e.1).foldl
    (fun m e => e.2.foldl (fun m o => match o.trig with | some k => putBit m k true | none => m) m) 0
  let s2 := ((List.range 64).filter fun c => s1.runnable c || (s1.clause c).iso).foldl (fun s c => schReads c n p s) s1
  let s3 := switchStep n ups txs s2
  let s4 := outs.foldl (fun s e => clauseApply e.1 n e.2 s) s3
  let s5 := outs.foldl (fun s e => [0, 1, 2, 3].foldl (fun s q =>
    match (e.2.filterMap (·.mgo)).find? fun m => m.1 == q with
    | some (_, wr, en) => issueMgo e.1 n q wr en s
    | none => s) s) s4
  let s6 := sigStep n caps (rimEnd n xouts s5)
  let s7 := outs.foldl (fun s e => clauseChecks e.1 n e.2 s) s6
  tuLines n lines s7

/-- Step n executes: its effects, the counter of 64 bits (R27), the boundary where a user cycle ends, and what the sequencer
does next; at the boundary a clock change that waits for one takes effect (R23). The breakpoints are those of the words that
execute once a due isolation or release has taken effect (R165, R191). -/
def doStep (ups : List Upset) (s : State) : State :=
  let n := s.seq.step
  let brk := (isoApply s).breaks (n % s.seq.depth)
  let s1 := breakStep n brk (stepBody n ups s)
  let s2 := { s1 with seq := { s1.seq with step := (n + 1) % 2 ^ 64 } }
  let s3 := if s2.seq.step % s.seq.depth = 0 then boundary s2 else s2
  clockBoundary (afterStep n (!brk.isEmpty) s3)

end Sys2Proof.Machine
end

