-- ==== Sys2Proof/Machine/Mem.lean ====
section
/-! DEFINITION. Mem.lean: the memories' queues and the commands of the lexicon banks and the HBM controllers (R206 to R237). -/
namespace Sys2Proof.Machine

/-! ### NoC accesses that wait for a bank (R216, R217) -/

/-- A NoC access to the lexicon joins the queue of its bank port. -/
def nocEnqueue (reply : NocReply) (kind addr size : Nat) (write : Bool) (data : List Byte) (s : State) : State :=
  { s with umem := { s.umem with nocq := s.umem.nocq ++ [{
      reply := reply, kind := kind, write := write, addr := addr, size := size, data := data, waited := 0, starved := false, pos := 0, got := [], good := true }] } }

/-- The bank port performs the next word access of a NoC access (R206, R223): its bytes and whether every word so far could be
read or written are kept. -/
def nocWord (x : NocAcc) (s : State) : NocAcc × State :=
  let a := x.addr + x.pos
  let n := min (x.size - x.pos) (32 - a % 32)
  if x.write then
    let r := nocWrite x.kind a ((x.data.drop x.pos).take n) s
    ({ x with pos := x.pos + n, good := x.good && r.1 }, r.2)
  else
    let r := nocRead x.kind a n s
    ({ x with pos := x.pos + n, good := x.good && r.2.1, got := x.got ++ r.1 }, r.2.2)

/-- The oldest NoC access that waits for a bank. -/
def State.nocHead (s : State) (bank : Nat) : Option NocAcc := s.umem.nocq.find? fun x => isLex x.addr && lexBank x.addr == bank

/-- A bank port that no clause access waits for serves one word of the oldest NoC access (R206, R216): the access after it, and
the state; the access leaves the queue with its last word. -/
def nocServe (bank : Nat) (s : State) : Option (NocAcc × State) :=
  if s.nocBlocked bank then none
  else
    (s.nocHead bank).map fun x =>
      let r := nocWord x s
      if r.1.pos < x.size then
        (r.1, { r.2 with umem := { r.2.umem with nocq := r.2.umem.nocq.replace x r.1 } })
      else (r.1, nocWaited x.kind x.waited { r.2 with umem := { r.2.umem with nocq := r.2.umem.nocq.erase x } })

/-- The k-th waiting NoC access has waited longer than MEM_NOCWAIT.LIMIT: raised once for it (R216). -/
def nocStarve (k : Nat) (s : State) : State :=
  match s.umem.nocq[k]? with
  | none => s
  | some x =>
    let lim := s.fget F.MEM_NOCWAIT_LIMIT
    if lim != 0 && decide (lim < x.waited) && !x.starved then
      ({ s with umem := { s.umem with nocq := s.umem.nocq.set k { x with starved := true } } }).raise
        F.MEM_EVT_NOC_STARVE 10 9 [x.kind, lexBank x.addr, x.waited]
    else s

/-! ### Calibration (R222) -/

/-- The field of MEM_HTEMP that shows a stack (R234). -/
def htempFld : Nat → Fld
  | 0 => F.MEM_HTEMP_T0
  | 1 => F.MEM_HTEMP_T1
  | 2 => F.MEM_HTEMP_T2
  | _ => F.MEM_HTEMP_T3

/-- Calibration slices begin on the stacks of a mask that runs none; `go` marks a request by MEM_CAL.GO. The temperature of a
stack at its last slice is kept for the scheduler (R222, R572). -/
def calStart (mask : Nat) (go : Bool) (s : State) : State :=
  let busy := s.fget F.MEM_STAT_CAL_BUSY
  let new := maskOf 4 fun k => nbit mask k && !nbit busy k
  let s1 := { s with plt := { s.plt with
    calTemp := (maskBits 4 new).foldl (fun m k => kvSet 0 m k (s.fget (htempFld k))) s.plt.calTemp } }.fset
    F.MEM_STAT_CAL_BUSY (busy + new)
  if go then s1.fset F.MEM_CAL_GO (maskOf 4 fun k => nbit (s.fget F.MEM_CAL_GO) k || nbit new k) else s1

/-- A calibration slice of a stack ends (R222, R234, R237); one that the scheduler requested reports to it (R572). -/
def calEnd (k : Nat) (ok : Bool) (lanes ns : Nat) (s : State) : State :=
  let busy := s.fget F.MEM_STAT_CAL_BUSY
  if nbit busy k then
    let s := if nbit (s.fget F.MEM_CAL_GO) k then s else s.raise F.PLT_EVT_CAL 0 7 [0, k, (!ok).toNat]
    ((s.fset F.MEM_STAT_CAL_BUSY (putBit busy k false)).fset F.MEM_CAL_GO (putBit (s.fget F.MEM_CAL_GO) k false)).raise
      F.MEM_EVT_CAL 10 10 [k, (!ok).toNat, ns, if ok then lanes else 0]
  else s

/-! ### Word retirement (R225, R227) -/

/-- Spare words of a bank in use. -/
def State.lexSpares (s : State) (bank : Nat) : List Nat :=
  s.umem.lexRet.filterMap fun e => if e.1 / 8192 = bank then e.2 else none

/-- MEM_LRET reports a request (R227, R237). -/
def lretReport (bank word spare result : Nat) (s : State) : State :=
  (s.fset F.MEM_LRET_RESULT result).raise F.MEM_EVT_LRET 10 6 [bank, word, spare, result]

/-- A refused request names no spare: that payload word is a free value (log 4). -/
def lretRefuse (bank word result : Nat) (s : State) : State := lretReport bank word s.freshNat.1 result s.freshNat.2

/-- MEM_LRET written with GO = 1 (R225, R227). DESIGN CHOICE (log 59): BANK and WORD take the word written, also where the
request is refused BUSY. -/
def lretGo (bank word : Nat) (s : State) : State :=
  let s1 := (s.fset F.MEM_LRET_BANK bank).fset F.MEM_LRET_WORD word
  let free := (List.range 64).filter fun k => !(s.lexSpares bank).contains k
  if s.umem.lretReq.isSome then lretRefuse bank word 5 s1
  else if 255 < bank ∨ 8191 < word then lretRefuse bank word 2 s1
  else if (kvGet none s.umem.lexRet (bank * 8192 + word)).isSome then lretRefuse bank word 3 s1
  else if free.isEmpty then lretRefuse bank word 1 s1
  else
    let r := s1.pick free
    ((({ r.2 with umem := { r.2.umem with lretReq := some (bank, word, r.1) } }).fset F.MEM_LRET_GO 1).fset
      F.MEM_STAT_LRET_BUSY 1)

/-- A word retirement ends after `mismatches` failed comparisons (R225, R227). A correctable error of the word is
corrected as it is read (R223). -/
def lretEnd (mismatches : Nat) (s : State) : State :=
  match s.umem.lretReq with
  | none => s
  | some (bank, word, spare) =>
    let a := 0x40000000 + bank * 0x40000 + word * 32
    let s1 := if s.memMark a == 1 then memCe a s else s
    let s2 := ((({ s1 with umem := { s1.umem with lretReq := none } }).fset F.MEM_LRET_GO 0).fset F.MEM_STAT_LRET_BUSY 0)
    if 2 ≤ mismatches then lretReport bank word spare 4 s2
    else lretReport bank word spare 0
      { s2 with umem := { s2.umem with lexRet := kvSet none s2.umem.lexRet (bank * 8192 + word) (some spare) } }

/-! ### Page retirement (R226, R227) -/

/-- Pages of the spare pool of each stack, and the first page of the pool (R218, R231). -/
def State.poolPages (s : State) : Nat := s.fget F.MEM_HSPARE_MIB * 256
def State.poolFirst (s : State) : Nat := 6291456 - s.poolPages

/-- Spare pages of a stack in use. -/
def State.hbmSpares (s : State) (stack : Nat) : List Nat :=
  s.umem.hbmRet.filterMap fun e => if e.1 / 6291456 = stack then e.2 else none

/-- MEM_HRET reports a request (R227, R237). -/
def hretReport (stack page spare result : Nat) (s : State) : State :=
  (s.fset F.MEM_HRET_RESULT result).raise F.MEM_EVT_HRET 10 7 [stack, page, spare, result]

/-- A refused request names no spare: that payload word is a free value (log 4). -/
def hretRefuse (stack page result : Nat) (s : State) : State := hretReport stack page s.freshNat.1 result s.freshNat.2

/-- A free page of the spare pool of a stack, the manual not saying which (log 4). -/
def State.pickSpare (s : State) (stack : Nat) : Nat × State :=
  let used := s.hbmSpares stack
  let n := s.poolPages - used.length
  let k := s.fresh.1.toNat % max 1 n
  ((used.insertionSort (· ≤ ·)).foldl (fun p u => if u ≤ p then p + 1 else p) (s.poolFirst + k), s.fresh.2)

/-- MEM_HRET written with GO = 1, for the page in MEM_HRETPG (R226, R227). -/
def hretGo (stack : Nat) (s : State) : State :=
  let page := s.fget F.MEM_HRETPG_PAGE
  let s1 := s.fset F.MEM_HRET_STACK stack
  let used := (s.hbmSpares stack).length
  if s.umem.hretReq.isSome then hretRefuse stack page 5 s1
  else if s.poolFirst ≤ page then hretRefuse stack page 2 s1
  else if (kvGet none s.umem.hbmRet (stack * 6291456 + page)).isSome then hretRefuse stack page 3 s1
  else if 4096 ≤ used ∨ s.poolPages ≤ used then hretRefuse stack page 1 s1
  else
    let r := s1.pickSpare stack
    ((({ r.2 with umem := { r.2.umem with hretReq := some (stack, page, r.1) } }).fset F.MEM_HRET_GO 1).fset
      F.MEM_STAT_HRET_BUSY 1)

/-- The bytes and the uncorrectable marks of a page go to its spare page (R226). -/
def copyPage (from_ to_ : Nat) (s : State) : State :=
  let inPage := fun a : Nat => decide (from_ ≤ a) && decide (a < from_ + 4096)
  let inSpare := fun a : Nat => decide (to_ ≤ a) && decide (a < to_ + 4096)
  let cells := s.mem.filter fun e => inPage e.1
  let marks := s.umem.bad.filter fun e => inPage e.1 && e.2 == 2
  { s with
    mem := cells.foldl (fun m e => memPut m (e.1 - from_ + to_) e.2) (s.mem.filter fun e => !inSpare e.1)
    umem := { s.umem with
      bad := marks.foldl (fun m e => kvSet 0 m (e.1 - from_ + to_) e.2) (s.umem.bad.filter fun e => !inSpare e.1) } }

/-- A page retirement ends after `mismatches` failed comparisons (R226, R227). Correctable errors of the page are corrected
as they are read (R223). The copy stands for one at clause priority from the moment a clause access waits for it (R226). -/
def hretEnd (mismatches : Nat) (s : State) : State :=
  match s.umem.hretReq with
  | none => s
  | some (stack, page, spare) =>
    let base := 0x001000000000 + stack * 0x600000000
    let a := base + page * 4096
    let ces := s.umem.bad.filter fun e => decide (a ≤ e.1) && decide (e.1 < a + 4096) && e.2 == 1
    let s1 := ces.foldl (fun s e => memCe e.1 s) s
    let s2 := ((({ s1 with umem := { s1.umem with hretReq := none } }).fset F.MEM_HRET_GO 0).fset F.MEM_STAT_HRET_BUSY 0)
    if 2 ≤ mismatches then hretReport stack page spare 4 s2
    else
      let s3 := copyPage a (base + spare * 4096) s2
      hretReport stack page spare 0
        { s3 with umem := { s3.umem with hbmRet := kvSet none s3.umem.hbmRet (stack * 6291456 + page) (some spare) } }

/-! ### The commands -/

/-- LEX_ACCESS_SERVE (R214). -/
def execLexAccessServe (bank : Nat) (ups : List Upset) (s : State) : Host.Outcome State Fault Refusal :=
  .next (lexServe bank (upsets ups s))

/-- MEM_NOC_STARVE (R216). -/
def execMemNocStarve (k : Nat) (s : State) : Host.Outcome State Fault Refusal := .next (nocStarve k s)

/-- MEM_RETURN_ARRIVE: the oldest served lexicon read of a port arrives (R214). -/
def execMemReturnArrive (m : Nat) (s : State) : Host.Outcome State Fault Refusal :=
  .next { s with umem := { s.umem with rets := arrive m false id s.umem.rets } }

/-- HBM_RETURN (R221). -/
def execHbmReturn (m : Nat) (ups : List Upset) (s : State) : Host.Outcome State Fault Refusal :=
  let t := upsets ups s
  .next (hbmArrive m (fun a => t.memMark a != s.memMark a) t)

/-- HBM_REFRESH: a refresh takes bank slots and changes no content; a return it delays arrives later (R219, R221). -/
def execHbmRefresh (_stack : Nat) (_allBank : Bool) (s : State) : Host.Outcome State Fault Refusal := .next s

/-- HBM_TEMP_READ (R219, R234). -/
def execHbmTempRead (stack : Nat) (temp : Byte) (s : State) : Host.Outcome State Fault Refusal :=
  .next (s.fset (htempFld stack) temp.toNat)

/-- MEM_CAL_GO (R222). -/
def execMemCalGo (mask : BitVec 4) (s : State) : Host.Outcome State Fault Refusal := .next (calStart mask.toNat true s)

/-- MEM_LRET_GO (R225). -/
def execMemLretGo (bank word : Nat) (s : State) : Host.Outcome State Fault Refusal := .next (lretGo bank word s)

/-- MEM_HRET_GO (R226). -/
def execMemHretGo (stack : Nat) (s : State) : Host.Outcome State Fault Refusal := .next (hretGo stack s)

end Sys2Proof.Machine
end

