-- ==== Sys2Proof/Machine/Lnk.lean ====
section
/-! DEFINITION. Lnk.lean: the commands of the links: superframes and control words received, bring-up, lane sparing and
topology (R238 to R272). -/
namespace Sys2Proof.Machine

/-! ### State changes of a link (R254, R267) -/

/-- A link enters a state now. -/
def linkTo (st : LnkState) (l : Nat) (s : State) : State := s.modLink l fun x => { x with st := st, since := s.now }

/-- LNK_STAT.REASON codes (R267). -/
def reasonTrain : Nat := 1
def reasonMode : Nat := 2
def reasonResume : Nat := 3
def reasonPartner : Nat := 4

/-- A link enters FAIL with a reason (R254); one that was ACTIVE does not return there before a new release. -/
def linkFail (l reason : Nat) (s : State) : State :=
  let was := (s.link l).st == .active || (s.link l).st == .resume
  ((linkTo .fail l s).modLink l fun x => { x with dropped := x.dropped || was, window := none }).fset
    (F.LNK_STAT_REASON l) reason

/-- LNK_DOWN: the state left and the reason (R254, R272). -/
def linkDown (l reason : Nat) (s : State) : State :=
  (linkFail l reason s).raise (F.LNK_EVT_DOWN l) 9 2 [l, 6, reason]

/-- LNK_MODE_MISMATCH and FAIL (R22, R254). -/
def linkModeFail (l : Nat) (s : State) : State :=
  (linkFail l reasonMode s).raise (F.LNK_EVT_MODE l) 9 3 [l, (s.link l).mode]

/-- A link goes OFF: its buffers are cleared (R254); its slot map and release belong to the image. -/
def linkOff (l : Nat) (s : State) : State :=
  let x := s.link l
  let was := x.st == .active || x.st == .resume
  let y : Lnk := {
    st := .off, since := s.now, slot := x.slot, released := x.released, dropped := x.dropped || was
    window := x.window, otherMode := x.otherMode, msgRx := x.msgRx, msgCnt := x.msgCnt, eye := x.eye, mode := x.mode }
  ((((s.setLink l y).fset (F.LNK_STAT_REASON l) 0).fset (F.LNK_STAT_SPARE_OK l) 0).fset (F.LNK_STAT_SPARE_BUSY l) 0).fset
    (F.LNK_SPARE_GO l) 0

/-- A link with EN = 1 and its domain powered trains its lanes in LNK_CTL.MODE (R254). -/
def linkTrain (l : Nat) (s : State) : State :=
  (linkTo .train l s).modLink l fun x => { x with mode := s.fget (F.LNK_CTL_MODE l), lanes := 0 }

/-- LNK_CTL.EN is set (R254). -/
def linkEnable (l : Nat) (s : State) : State :=
  let s1 := s.fset (F.LNK_CTL_EN l) 1
  if (s.link l).st == .off && s.domOn (9 + l / 4) then linkTrain l s1 else s1

/-- LNK_CTL.EN is cleared (R254). -/
def linkDisable (l : Nat) (s : State) : State := linkOff l (s.fset (F.LNK_CTL_EN l) 0)

/-! ### Slot maps (R252) -/

/-- The partner's items 5 and 6 give this end's start point (R41, R251). -/
def State.sameStart (s : State) (l : Nat) : Bool :=
  kvGet none (s.link l).items 5 == some (s.peerItem l 5) && kvGet none (s.link l).items 6 == some (s.peerItem l 6)

/-- The comparison of item 7 at an end that is UP, released and used, once the partner's item 7 says RELEASED: ACTIVE with
the preload of R38, or LNK_SLOT_MISMATCH. After a restore the end waits until its partner has been restored with the same
user cycle, and preloads the checkpointed frames (R38, R599). -/
def linkCompare (l : Nat) (s : State) : State :=
  let x := s.link l
  match kvGet none x.items 7 with
  | none => s
  | some v =>
    if x.st == .up && x.slot.en && x.released && !x.dropped && nbit v 31 then
      if x.slotAgrees v then
        match x.restored with
        | none => s.modLink l fun x => { linkPreload s.seq.step s.seq.twostate x with since := s.now }
        | some fs =>
          if s.sameStart l then
            s.modLink l fun x => { linkPreload s.seq.step s.seq.twostate x with since := s.now, rxq := fs, restored := none }
          else s
      else s.raise (F.LNK_EVT_SLOT l) 9 4 [l, s.peerItem l 7, v]
    else s

/-! ### Control words (R247 to R252, R261, R271) -/

/-- A kept superframe as it is sent again: its header reports the present credit and retry request (R240, R246, R248). -/
def refreshFrame (x : Lnk) (f : Superframe) : Superframe :=
  let lite := x.mode == 1
  let nak := lite && x.retry.isSome
  let g := { f with credit := BitVec.ofNat 8 x.freed, nak := nak, naktag := if nak then tagOf x.expect else 0 }
  if lite then { g with crc := sfCrc g } else g

/-- The sender goes back: every kept superframe from the requested tag on is sent again, in order (R247). -/
def linkGoBack (l : Nat) (tag : BitVec 16) (s : State) : State :=
  let x := s.link l
  (x.replay.dropWhile fun e => tagOf e.1 != tag).foldl (fun s e => linkEmit l (refreshFrame x e.2) s) s

/-- A RESUME word (R247). -/
def resumeWordIn (l : Nat) (tag : BitVec 16) (s : State) : State :=
  if (s.link l).st == .active then linkGoBack l tag s else s

/-- A FENCE word (R250). -/
def fenceWordIn (l dev fence : Nat) (s : State) : State :=
  if (s.link l).st == .up || (s.link l).st == .active then receiveFence fence dev s else s

/-- A PEER word (R251, R252). A partner whose number changes restarts the collection: until it ends there is no fingerprint
(R259). -/
def peerItemIn (l item v : Nat) (s : State) : State :=
  if (s.link l).live then
    let other := item = 8 && (kvGet none (s.link l).items 8).any fun w => w != v
    let s0 := if other then { s with fp := 0 } else s
    let s1 := s0.modLink l fun x => { x with items := kvSet none x.items item (some v) }
    if item = 7 || ((item = 5 || item = 6) && (s.link l).restored.isSome) then linkCompare l s1 else s1
  else s

/-- A MSG word (R271). -/
def msgWordIn (l msg : Nat) (s : State) : State :=
  if (s.link l).live then
    let n := (s.link l).msgCnt + 1
    (s.modLink l fun x => { x with msgRx := msg, msgCnt := n % 2 ^ 32 }).raise (F.LNK_EVT_MSG l) 9 9 [l, n % 2 ^ 32]
  else s

/-- Control words join those that wait on a link. -/
def ctlPut (l : Nat) (w : BitVec 64) (s : State) : State := s.modLink l fun x => { x with ctlq := x.ctlq ++ [w] }

/-- The spare lane of a link (R267). -/
def State.spareLane (s : State) (l : Nat) : Nat := s.fget (F.LNK_STAT_SPARE l)

/-- A sparing action starts (R261). -/
def sparingStart (l lane : Nat) (byGo accepted : Bool) (s : State) : State :=
  (s.modLink l fun x => { x with sparing := some { lane := lane, byGo := byGo, accepted := accepted, since := s.now } }).fset
    (F.LNK_STAT_SPARE_BUSY l) 1

/-- The first refusal of a sparing action that this end can tell (R263). -/
def State.sparingRefusal (s : State) (l lane : Nat) : Option Nat :=
  let x := s.link l
  if x.st != .up && x.st != .active then some 3
  else if x.sparing.isSome then some 5
  else if decide (2 < lane) || lane == s.spareLane l then some 2
  else if !s.fbit (F.LNK_STAT_SPARE_OK l) then some 1
  else none

/-- LNK_SPARE reports: RESULT, LNK_LANE with the hold in ns (R263, R272). -/
def laneReport (l lane result hold : Nat) (s : State) : State :=
  (s.fset (F.LNK_SPARE_RESULT l) result).raise (F.LNK_EVT_LANE l) 9 5 [l, lane, result, hold]

/-- LNK_SPARE written with GO = 1 (R261, R263). -/
def lnkSpareGo (l lane : Nat) (s : State) : State :=
  let s1 := s.fset (F.LNK_SPARE_LANE l) lane
  match s.sparingRefusal l lane with
  | some r => laneReport l lane r 0 s1
  | none => ctlPut l (laneWord 1 lane) (sparingStart l lane true false (s1.fset (F.LNK_SPARE_GO l) 1))

/-- A sparing action ends (R261, R263): the lane switched, or refused by the partner. A rotation that the calibration
scheduler requested reports to it too (R572). -/
def sparingEnd (l : Nat) (ok : Bool) (s : State) : State :=
  let x := s.link l
  match x.sparing with
  | none => s
  | some a =>
    let s0 := if a.cal then s.raise F.PLT_EVT_CAL 0 7 [1, l, if ok then 0 else 4] else s
    let s1 := ((s0.modLink l fun x => { x with sparing := none }).fset (F.LNK_STAT_SPARE_BUSY l) 0).fset (F.LNK_SPARE_GO l) 0
    if !ok then laneReport l a.lane 4 0 s1
    else
      let sp := s.spareLane l
      let s2 := ((s1.modLink l fun x => { x with
        lanes := BitVec.ofNat 3 (putBit (putBit x.lanes.toNat a.lane false) sp true), retrain := some s.now }).fset
        (F.LNK_STAT_SPARE l) a.lane).fset (F.LNK_STAT_SPARE_OK l) 0
      let s3 := if x.st == .active then ctlPut l (resumeWord (tagOf x.expect)) s2 else s2
      laneReport l a.lane 0 (s.now - a.since) s3

/-- A LANE word (R261): 1 request, 2 accept, 3 refuse. -/
def laneWordIn (l op lane : Nat) (s : State) : State :=
  match op with
  | 1 =>
    if !(s.link l).live then s
    else
      match s.sparingRefusal l lane with
      | some _ => ctlPut l (laneWord 3 lane) s
      | none => ctlPut l (laneWord 2 lane) (sparingStart l lane false true s)
  | 2 => s.modLink l fun x => { x with sparing := x.sparing.map fun (a : Sparing) =>
      if a.lane = lane then { a with accepted := true } else a }
  | 3 =>
    match (s.link l).sparing with
    | some a => if a.lane = lane && !a.accepted then sparingEnd l false s else s
    | none => s
  | _ => s

/-- A 40-bit difference as a two's complement number added to a step (R249). -/
def addDiff (v d : Nat) : Nat := if d < 2 ^ 39 then v + d else v - (2 ^ 40 - d)

/-- A control word of a checked superframe whose step is v (R249). -/
def ctlWordIn (l v : Nat) (w : BitVec 64) (s : State) : State :=
  match fieldOf w 60 4 with
  | 1 => fenceWordIn l (fieldOf w 42 18) (addDiff v (fieldOf w 0 40)) s
  | 2 => peerItemIn l (fieldOf w 56 4) (fieldOf w 0 32) s
  | 3 => laneWordIn l (fieldOf w 56 4) (fieldOf w 54 2) s
  | 4 => resumeWordIn l (w.setWidth 16) s
  | 5 => msgWordIn l (fieldOf w 0 60) s
  | _ => s

/-- A control word of a reserved type (R249). -/
def ctlReserved (w : BitVec 64) : Bool := fieldOf w 60 4 == 0 || decide (5 < fieldOf w 60 4)

/-! ### Superframes received (R246 to R253) -/

/-- A superframe is discarded: the first discard requests a retry and is counted (R248, R270). -/
def linkDiscard (l : Nat) (s : State) : State :=
  let x := s.link l
  if x.st != .active || x.retry.isSome then s
  else
    let s1 := (s.count (F.LNK_CNT_RETRY_COUNT l)).modLink l fun x => { x with retry := some s.now }
    let s2 := if x.mode = 1 then s1 else ctlPut l (resumeWord (tagOf x.expect)) s1
    let n := s2.fget (F.LNK_CNT_RETRY_COUNT l)
    if isPow2 n then s2.raise (F.LNK_EVT_RETRY l) 9 7 [l, n, (tagOf x.expect).toNat] else s2

/-- Received XT bits that RXMASK passes reach the matrix, tagged with step v (R253, R436). -/
def xtDeliver (l v : Nat) (xt : BitVec 4) (s0 : State) : State :=
  let m := xt &&& BitVec.ofNat 4 (s0.fget (F.LNK_XT_RXMASK l))
  let s := if m = 0 then s0 else s0.modLink l fun x => { x with xtTag := v }
  (List.range 4).foldl (fun s ch =>
    if m.getLsbD ch && nbit (s.fget (F.DBG_XT_IN ch)) 2 then xtAssert true none s ch else s) s

/-- The parts of a checked superframe in sequence that are used: control words, XT bits (R249, R253). -/
def linkUse (l v : Nat) (f : Superframe) (s : State) : State :=
  xtDeliver l v f.xt (f.ctl.foldl (fun s w => ctlWordIn l v w s) s)

/-- A superframe is received and checked (R246 to R248). Credits and retry requests are read from every superframe that
passes its check. Of the codewords that end with it, `fecFix` symbols were corrected (R270); `fecUe`: it overlaps an
uncorrectable codeword, and so many uncorrectable codewords end with it (R239, R270). A LITE superframe without its SYNC is
not taken for one (log 60). -/
def superframeIn (l : Nat) (f : Superframe) (fecFix : Nat) (fecUe : Option Nat) (s0 : State) : State :=
  let x := s0.link l
  let lite := x.mode == 1
  let s := if lite then s0 else (s0.countBy (F.LNK_CNT_FECC_COUNT l) fecFix).countBy (F.LNK_CNT_FECU_COUNT l) (fecUe.getD 0)
  if x.st != .up && x.st != .active then s0
  else if lite && f.sync != sfSync then s0
  else if lite && f.crc != sfCrc f then linkDiscard l (s.count (F.LNK_CNT_CRC_COUNT l))
  else if !lite && fecUe.isSome then linkDiscard l s
  else if f.ctl.any ctlReserved then linkDiscard l s
  else if x.st == .up then (if f.idle then linkUse l ((fullStep s.seq.step f.tag).getD 0) f s else s)
  else
    let s1 := s.modLink l (linkCredit f.credit)
    let s2 := if lite && f.nak then linkGoBack l f.naktag s1 else s1
    match fullStep s.seq.step f.tag with
    | none => s2
    | some v =>
      if v < x.expect then s2
      else if x.expect < v then linkDiscard l (s2.count (F.LNK_CNT_TAG_COUNT l))
      else if f.idle then (if x.retry.isSome then s2 else linkUse l v f s2)
      else
        linkUse l v f (s2.modLink l fun x => { x with
          rxq := x.rxq ++ [(v + x.slot.lat, f.payload)], expect := v + 8, retry := none })

/-- The expected superframe has not arrived within 4 µs: it is requested again (R248). -/
def retryAgain (l : Nat) (s : State) : State :=
  let x := s.link l
  if x.st == .active && x.retry.isSome then
    let s1 := s.modLink l fun x => { x with retry := some s.now }
    if x.mode = 1 then s1 else ctlPut l (resumeWord (tagOf x.expect)) s1
  else s

/-- All PEER items are sent again while the link is not ACTIVE (R251). -/
def peerRepeat (l : Nat) (s : State) : State :=
  if (s.link l).st == .up then linkAnnounce l (s.modLink l fun x => { x with sent := [] }) else s

/-! ### Bring-up (R254 to R257) -/

/-- The number of lanes in a mask. -/
def laneCount (m : BitVec 3) : Nat := (maskBits 3 m.toNat).length

/-- At least two lanes have trained: the lowest two are active, the other is the spare (R238, R254, R267). -/
def trainDone (l : Nat) (m : BitVec 3) (s : State) : State :=
  if (s.link l).st == .train && decide (2 ≤ laneCount m) then
    let act := (maskBits 3 m.toNat).take 2
    let sp := ((List.range 3).filter fun k => !act.contains k).headD 2
    (((linkTo .align l s).modLink l fun x => { x with lanes := BitVec.ofNat 3 (maskOf 3 fun k => act.contains k) }).fset
      (F.LNK_STAT_SPARE l) sp).fset (F.LNK_STAT_SPARE_OK l) (m.getLsbD sp).toNat
  else s

/-- 100 ms in TRAIN with fewer than two lanes trained and no window open (R254). -/
def trainTimeout (l : Nat) (s : State) : State :=
  if (s.link l).st == .train && (s.link l).window.isNone then linkFail l reasonTrain s else s

/-- The native latency of a link in steps (R255): half the round trip of the marker word in LINK cycles of 1.75 GHz, the
fill time of 7 steps and the end's own decode time in LINK cycles, in steps at 1.8 GHz, rounded up to a multiple of 8. -/
def nativeSteps (trip decode : Nat) : Nat :=
  let num := (trip + 2 * decode) * 36 + 7 * 70
  (num + 559) / 560 * 8

/-- Framing locks in both directions; the latency is measured (R254, R255). -/
def framingLock (l trip decode : Nat) (s : State) : State :=
  if (s.link l).st == .align then
    (linkTo .ident l s).modLink l fun x => { x with
      oneWay := trip / 2, native := nativeSteps trip decode, otherMode := false }
  else s

/-- In ALIGN the partner's framing is in the other mode (R254, R257). -/
def partnerMode (l : Nat) (s : State) : State :=
  if (s.link l).st == .align then
    let s1 := s.modLink l fun x => { x with otherMode := true }
    if (s.link l).window.isSome then
      ((linkTrain l s1).modLink l fun x => { x with retryAt := s.now + 10000000 }).fset (F.LNK_STAT_REASON l) reasonMode
    else linkModeFail l s1
  else s

/-- 10 ms later the link tries again (R257). -/
def modeRetry (l : Nat) (s : State) : State :=
  if (s.link l).st == .train && (s.link l).window.isSome && (s.link l).otherMode then linkTrain l s else s

/-- The mode-change window closes (R254, R257). -/
def windowClose (l : Nat) (s : State) : State :=
  let x := s.link l
  if x.window.isNone then s
  else
    let s1 := s.modLink l fun x => { x with window := none }
    match x.st with
    | .train | .align | .ident => if x.otherMode then linkModeFail l s1 else linkFail l reasonTrain s1
    | _ => s1

/-- The partner's serial number and link number arrive (R254, R272): UP, and all PEER items are sent. -/
def identDone (l : Nat) (serial : DWord) (plink : Nat) (s : State) : State :=
  if (s.link l).st == .ident then
    let s1 := ((linkTo .up l s).modLink l fun x => { x with
      pserial := serial.toNat, plink := plink, window := none, otherMode := false, items := [], sent := [] }).fset
      (F.LNK_STAT_REASON l) 0
    linkAnnounce l (s1.raise (F.LNK_EVT_UP l) 9 1 ([l, (s.link l).mode] ++ w64 serial.toNat ++ [plink]))
  else s

/-- Framing is lost (R254). -/
def framingLost (l : Nat) (s : State) : State :=
  let x := s.link l
  match x.st with
  | .align | .ident | .up => linkTrain l s
  | .active => ctlPut l (resumeWord (tagOf x.expect)) (linkTo .resume l s)
  | _ => s

/-- Framing has relocked and RESUME words have been exchanged (R254, R272). -/
def resumeDone (l : Nat) (tag : BitVec 16) (s : State) : State :=
  if (s.link l).st == .resume then
    let d := s.now - (s.link l).since
    linkGoBack l tag (((linkTo .active l s).modLink l fun x => { x with retry := none }).raise (F.LNK_EVT_RESUMED l) 9 8
      [l, tag.toNat, d / 1000])
  else s

/-- 20 ms in RESUME, or the partner's link has passed through OFF (R254). -/
def resumeFail (l reason : Nat) (s : State) : State := if (s.link l).st == .resume then linkDown l reason s else s

/-- A lane loses signal or lock (R254, R261). -/
def laneLoss (l lane : Nat) (s : State) : State :=
  let x := s.link l
  if !x.live then s
  else if lane = s.spareLane l then s.fset (F.LNK_STAT_SPARE_OK l) 0
  else if s.fbit (F.LNK_CTL_AUTOSPARE l) && (s.sparingRefusal l lane).isNone then
    ctlPut l (laneWord 1 lane) (sparingStart l lane false false s)
  else framingLost l s

/-- The retired lane trains on PRBS31 (R261). -/
def spareTrained (l : Nat) (s : State) : State :=
  if (s.link l).st == .off || (s.link l).st == .fail then s
  else (s.modLink l fun x => { x with retrain := none }).fset (F.LNK_STAT_SPARE_OK l) 1

/-- Training of a spare lane that did not train is tried again (R261). -/
def spareRetrain (l : Nat) (s : State) : State :=
  s.modLink l fun x => { x with retrain := x.retrain.map fun _ => s.now }

/-- An eye scan of a lane completes (R260, R271, R272). -/
def eyeScan (l lane h w : Nat) (s : State) : State :=
  if (s.link l).st == .off then s
  else
    let s1 := s.modLink l fun x => { x with eye := kvSet 0 (kvSet 0 x.eye (2 * lane) h) (2 * lane + 1) w }
    if h < s.fget (F.LNK_EYETHR_THR_H l) ∨ w < s.fget (F.LNK_EYETHR_THR_W l) then
      sparingEye l lane true (s1.raise (F.LNK_EVT_EYE_LOW l) 9 6 [l, lane, h, w])
    else sparingEye l lane false s1

/-! ### Topology (R258, R259) -/

/-- Discovery starts; the fingerprint stored so far no longer holds (R258, R259). -/
def devnumStart (s : State) : State := { s.fset F.LNK_DEVNUM_START 1 with fp := 0 }

/-- LNK_DEVNUM is written (R258, R259, R265). -/
def devnumWrite (w : Word) (s : State) : State :=
  let s1 := ((s.fset F.LNK_DEVNUM_VALID (fieldOf w 31 1)).fset F.LNK_DEVNUM_ROOT (fieldOf w 30 1)).fset
    F.LNK_DEVNUM_NUM (fieldOf w 0 18)
  let s2 := if w.getLsbD 31 then { s1 with fp := 0 } else s1
  if w.getLsbD 29 then devnumStart s2 else s2

/-- An element put into an ascending list. -/
def insertBy (le : α → α → Bool) (a : α) : List α → List α
  | [] => [a]
  | b :: l => if le a b then a :: b :: l else b :: insertBy le a l

/-- A list in ascending order. -/
def sortBy (le : α → α → Bool) (l : List α) : List α := l.foldr (insertBy le) []

/-- The links of a device: its own physical link number and the partner's place in the list (R258). -/
def topoAt (d : Nat) (links : List TopoLink) : List (Nat × Nat) :=
  links.flatMap fun k => (if k.a = d then [(k.la, k.b)] else []) ++ (if k.b = d then [(k.lb, k.a)] else [])

/-- A breadth-first walk over n devices from the root, the first of the list (R258): the devices in the order they are
reached, each with its hops; `k` is the place in that order of the device whose neighbours come next. -/
def topoWalk (n : Nat) (links : List TopoLink) : Nat → Nat → List (Nat × Nat) → List (Nat × Nat)
  | 0, _, seen => seen
  | fuel + 1, k, seen =>
    match seen[k]? with
    | none => seen
    | some (d, h) =>
      let nbs := (sortBy (fun a b => decide (a.1 ≤ b.1)) (topoAt d links)).map Prod.snd
      topoWalk n links fuel (k + 1) (nbs.foldl (fun acc m =>
        if (acc.map Prod.fst).contains m || decide (n ≤ m) then acc else acc ++ [(m, h + 1)]) seen)

/-- The numbers of the devices after a discovery or a collection, by place in the list, with their hops, and whether the walk
overflowed (R258, R259): the root keeps its number, and a walk that would pass 262,143 stops. A collection takes the numbers
that the devices report. -/
def topoNums (base : Nat) (renumber : Bool) (nums : List Nat) (links : List TopoLink) : List (Nat × Nat × Nat) × Bool :=
  let order := topoWalk nums.length links nums.length 0 [(0, 0)]
  if renumber then
    let all := order.zipIdx.map fun e => (e.1.1, base + e.2, e.1.2)
    (all.filter fun e => e.2.1 < 2 ^ 18, all.any fun e => decide (2 ^ 18 ≤ e.2.1))
  else (order.map fun e => (e.1, nums.getD e.1 0, e.2), false)

/-- The records that the fingerprint covers (R259): one for each link between two numbered devices, smaller number first,
ascending; each of several parallel links has its own. -/
def topoRecords (dn : List (Nat × Nat × Nat)) (links : List TopoLink) : List (Nat × Nat) :=
  let num := fun d => (dn.find? fun e => e.1 == d).map fun e => e.2.1
  sortBy (fun a b => decide (a.1 < b.1) || (a.1 == b.1 && decide (a.2 ≤ b.2))) (links.filterMap fun k =>
    (num k.a).bind fun m => (num k.b).map fun n => (min m n, max m n))

/-- The topology fingerprint (R259). -/
def topoPrint (rs : List (Nat × Nat)) : BitVec 256 := Config.sm3 (rs.flatMap fun r => leBytes 4 r.1 ++ leBytes 4 r.2)

/-- Discovery (`renumber`) or collection ends at this device, number `self` of the list (R258, R259, R272). The root
keeps NUM, and so does every device in a collection. The device knows the numbers of its partners afterwards (log 61). -/
def topoEnd (self base : Nat) (renumber : Bool) (nums : List Nat) (links : List TopoLink) (s : State) : State :=
  let r := topoNums base renumber nums links
  let own := (r.1.find? fun e => e.1 == self).map Prod.snd
  let num := if renumber && self != 0 then (own.map Prod.fst).getD (s.fget F.LNK_DEVNUM_NUM) else s.fget F.LNK_DEVNUM_NUM
  let hops := (own.map Prod.snd).getD 0
  let s1 := (((s.fset F.LNK_DEVNUM_START 0).fset F.LNK_DEVNUM_VALID
    (if own.isSome then 1 else s.fget F.LNK_DEVNUM_VALID)).fset F.LNK_DEVNUM_NUM num).fset F.LNK_HOPS_HOPS hops
  let s2 := (topoAt self links).foldl (fun s p =>
    match r.1.find? fun e => e.1 == p.2 with
    | some e => s.modLink p.1 fun x => { x with items := kvSet none x.items 8 (some (2 ^ 31 + e.2.1)) }
    | none => s) s1
  { s2 with fp := topoPrint (topoRecords r.1 links) }.raise F.LNKG_EVT_TOPO 9 10 [0xFF, num, hops, r.1.length, r.2.toNat]

/-- LNK_TOPO (R258, R259): at the root a discovery ends only where ROOT and START began it, and numbers from NUM. -/
def lnkTopo (self base : Nat) (renumber : Bool) (nums : List Nat) (links : List TopoLink) (s : State) : State :=
  if renumber && self == 0 then
    if s.fbit F.LNK_DEVNUM_ROOT && s.fbit F.LNK_DEVNUM_START then topoEnd 0 (s.fget F.LNK_DEVNUM_NUM) true nums links s
    else s
  else topoEnd self base renumber nums links s

/-! ### The commands -/

/-- IDLE_SUPERFRAME_SEND (R242). -/
def execIdleSuperframeSend (l : Nat) (s : State) : Host.Outcome State Fault Refusal := .next (linkIdle l s)

/-- SUPERFRAME_RECEIVE (R248). -/
def execSuperframeReceive (l : Nat) (sf : Superframe) (fecFix : Nat) (fecUe : Option Nat) (s : State) :
    Host.Outcome State Fault Refusal :=
  .next (superframeIn l sf fecFix fecUe s)

/-- RETRY_TIMEOUT (R248). -/
def execRetryTimeout (l : Nat) (s : State) : Host.Outcome State Fault Refusal := .next (retryAgain l s)

/-- RESUME_WORD_RECEIVE (R247). -/
def execResumeWordReceive (l : Nat) (tag : BitVec 16) (s : State) : Host.Outcome State Fault Refusal :=
  .next (resumeWordIn l tag s)

/-- FENCE_WORD_RECEIVE (R250). -/
def execFenceWordReceive (l : Nat) (dev : BitVec 18) (fence : DWord) (s : State) : Host.Outcome State Fault Refusal :=
  .next (fenceWordIn l dev.toNat fence.toNat s)

/-- PEER_ITEM_RECEIVE (R252). -/
def execPeerItemReceive (l item : Nat) (val : Word) (s : State) : Host.Outcome State Fault Refusal :=
  .next (peerItemIn l item val.toNat s)

/-- LANE_WORD_RECEIVE (R261). -/
def execLaneWordReceive (l op lane : Nat) (s : State) : Host.Outcome State Fault Refusal := .next (laneWordIn l op lane s)

/-- MSG_WORD_RECEIVE (R271). -/
def execMsgWordReceive (l : Nat) (msg : BitVec 60) (s : State) : Host.Outcome State Fault Refusal :=
  .next (msgWordIn l msg.toNat s)

/-- PEER_REPEAT (R251). -/
def execPeerRepeat (l : Nat) (s : State) : Host.Outcome State Fault Refusal := .next (peerRepeat l s)

/-- LNK_ENABLE (R254). -/
def execLnkEnable (l : Nat) (s : State) : Host.Outcome State Fault Refusal := .next (linkEnable l s)

/-- LNK_DISABLE (R254). -/
def execLnkDisable (l : Nat) (s : State) : Host.Outcome State Fault Refusal := .next (linkDisable l s)

/-- TRAIN_COMPLETE (R254). -/
def execTrainComplete (l : Nat) (lanes : BitVec 3) (s : State) : Host.Outcome State Fault Refusal :=
  .next (trainDone l lanes s)

/-- TRAIN_TIMEOUT (R254). -/
def execTrainTimeout (l : Nat) (s : State) : Host.Outcome State Fault Refusal := .next (trainTimeout l s)

/-- FRAMING_LOCK (R254). -/
def execFramingLock (l trip decode : Nat) (s : State) : Host.Outcome State Fault Refusal :=
  .next (framingLock l trip decode s)

/-- PARTNER_MODE_DETECT (R257). -/
def execPartnerModeDetect (l : Nat) (s : State) : Host.Outcome State Fault Refusal := .next (partnerMode l s)

/-- MODE_RETRY (R257). -/
def execModeRetry (l : Nat) (s : State) : Host.Outcome State Fault Refusal := .next (modeRetry l s)

/-- FRAMING_LOST (R254). -/
def execFramingLost (l : Nat) (s : State) : Host.Outcome State Fault Refusal := .next (framingLost l s)

/-- RESUME_COMPLETE (R254). -/
def execResumeComplete (l : Nat) (tag : BitVec 16) (s : State) : Host.Outcome State Fault Refusal :=
  .next (resumeDone l tag s)

/-- RESUME_TIMEOUT (R254). -/
def execResumeTimeout (l : Nat) (s : State) : Host.Outcome State Fault Refusal := .next (resumeFail l reasonResume s)

/-- PARTNER_OFF_REPORT (R254). -/
def execPartnerOffReport (l : Nat) (s : State) : Host.Outcome State Fault Refusal := .next (resumeFail l reasonPartner s)

/-- LNK_SPARE_GO (R261). -/
def execLnkSpareGo (l lane : Nat) (s : State) : Host.Outcome State Fault Refusal := .next (lnkSpareGo l lane s)

/-- LANE_LOSS (R261). -/
def execLaneLoss (l lane : Nat) (s : State) : Host.Outcome State Fault Refusal := .next (laneLoss l lane s)

/-- SPARE_LANE_TRAINED (R261). -/
def execSpareLaneTrained (l : Nat) (s : State) : Host.Outcome State Fault Refusal := .next (spareTrained l s)

/-- SPARE_RETRAIN_TIMER (R261). -/
def execSpareRetrainTimer (l : Nat) (s : State) : Host.Outcome State Fault Refusal := .next (spareRetrain l s)

/-- EYE_SCAN (R260). -/
def execEyeScan (l lane height width : Nat) (s : State) : Host.Outcome State Fault Refusal :=
  .next (eyeScan l lane height width s)

/-- LNK_DEVNUM_START (R258). -/
def execLnkDevnumStart (s : State) : Host.Outcome State Fault Refusal := .next (devnumStart s)

/-- LNK_TOPO (R258). -/
def execLnkTopo (self base : Nat) (renumber : Bool) (nums : List Nat) (links : List TopoLink) (s : State) :
    Host.Outcome State Fault Refusal := .next (lnkTopo self base renumber nums links s)

end Sys2Proof.Machine
end

