-- ==== Sys2Proof/Machine/Flash.lean ====
section
/-! DEFINITION. Flash.lean: the external flash, its slot directory and fault log, and the start of a boot (R294, R317 to
R321, R516, R517, R578 to R580, R596). -/
namespace Sys2Proof.Machine

/-! ### Bytes -/

/-- Flash with bytes written from an offset on. A program only clears bits of an erased page; the model's writers erase
first or write pages that the manual has erased, so the bytes are replaced (R516, R517). The golden image is write-protected
(R317). -/
def State.flashWrite (s : State) (o : Nat) (bs : List Byte) : State :=
  { s with flash := kvSetAll 0xFF#8 s.flash (((List.range bs.length).map (o + ·) |>.zip bs).filter fun e => !isGolden e.1) }

/-- Flash with a range erased. -/
def State.flashErase (s : State) (o n : Nat) : State := { s with flash := kvDrop s.flash o (o + n) }

/-! ### Layout (R317) -/

/-- Base and size of an image: 0 slot A, 1 slot B, 2 golden. -/
def slotBase : Nat → Nat
  | 0 => 0x00100000
  | 1 => 0x08100000
  | _ => 0x0F000000
def slotSize : Nat → Nat
  | 0 => 0x08000000
  | 1 => 0x06F00000
  | _ => 0x01000000

/-- The image in which a flash address lies, if any. -/
def slotOf (a : Nat) : Option Nat := [0, 1, 2].find? fun k => decide (slotBase k ≤ a) && decide (a < slotBase k + slotSize k)

/-! ### Directory records (R318 to R320) -/

/-- A directory record. -/
structure DirRec where
  seq : Nat
  boot : Nat
  valid : Nat
  genA : Nat
  genB : Nat
  lenA : Nat
  lenB : Nat
  deriving DecidableEq, Repr

/-- Bytes 0 to 63 of a record (R318). -/
def DirRec.bytes (r : DirRec) : List Byte :=
  let body := leBytes 4 0x52445349 ++ leBytes 4 r.seq ++ leBytes 1 r.boot ++ leBytes 3 0 ++ leBytes 4 r.valid ++
    leBytes 2 r.genA ++ leBytes 2 r.genB ++ leBytes 4 r.lenA ++ leBytes 4 r.lenB ++ List.replicate 32 0#8
  body ++ leBytes 4 (crc32c body).toNat

/-- The committed record at a position, 0 to 511 over the two sectors (R319). -/
def State.dirRec (s : State) (pos : Nat) : Option DirRec :=
  let b := s.flashRead (128 * pos) 68
  let r : DirRec := ⟨leAt b 4 4, leAt b 8 1, leAt b 12 4, leAt b 16 2, leAt b 18 2, leAt b 20 4, leAt b 24 4⟩
  if leAt b 0 4 == 0x52445349 && leAt b 60 4 == (crc32c (b.take 60)).toNat && leAt b 64 4 == 0x5AC33CA5 &&
      decide (r.boot < 2) && nbit r.valid r.boot then some r else none

/-- The newest committed record and its position (R319). An erased position holds none, so only positions whose bytes the
flash lists are read. -/
def State.newestRec (s : State) : Option (Nat × DirRec) :=
  let ps := ((s.flash.filter fun e => decide (e.1 < 0x10000)).map fun (e : Host.Cell) => e.1 / 128).dedup
  ps.foldl (fun m p =>
    match s.dirRec p, m with
    | some r, some (q, o) => if o.seq < r.seq then some (p, r) else some (q, o)
    | some r, none => some (p, r)
    | none, m => m) none

/-- A record position is erased. -/
def State.posErased (s : State) (pos : Nat) : Bool := s.flash.all fun e => e.1 / 128 != pos

/-- The next erased record position after the newest committed record: the next one of its sector, or else the first of the other
sector, which is then erased; the first of all where no record is committed (R320). -/
def State.nextPos (s : State) : Nat :=
  match s.newestRec with
  | none => 0
  | some (p, _) =>
    let sector := p / 256 % 2
    (((List.range (255 - p % 256)).map (p + 1 + ·)).find? (s.posErased ·)).getD (256 * (1 - sector))

/-- A record is committed (R320): its body, then COMMIT; the first position of a sector erases the sector. -/
def commitRec (r : DirRec) (s : State) : State :=
  let pos := s.nextPos
  let s1 := if pos % 256 = 0 then s.flashErase (128 * pos) 0x8000 else s
  s1.flashWrite (128 * pos) (r.bytes ++ leBytes 4 0x5AC33CA5)

/-! ### The fault log (R596, R597) -/

/-- Bytes of a fault-log record (R596). -/
def logBytes (seq ty result unit item ptime step data : Nat) : List Byte :=
  let body := leBytes 4 0x474F4C46 ++ leBytes 4 seq ++ leBytes 1 ty ++ leBytes 1 result ++ leBytes 2 unit ++
    leBytes 4 item ++ leBytes 8 ptime ++ leBytes 8 step ++ leBytes 8 data ++ List.replicate 16 0#8
  body ++ leBytes 4 (crc32c body).toNat ++ leBytes 4 0x5AC33CA5

/-- The bytes of the record at a position, 0 to 8191 over the eight sectors; none where it is not committed. -/
def State.logRec (s : State) (pos : Nat) : Option (List Byte) :=
  let b := s.flashRead (0x80000 + 64 * pos) 64
  if leAt b 0 4 == 0x474F4C46 && leAt b 56 4 == (crc32c (b.take 56)).toNat && leAt b 60 4 == 0x5AC33CA5 then some b
  else none

/-- The committed records of some positions in SEQ order (R597). -/
def State.logRecsIn (s : State) (lo hi : Nat) : List (List Byte) :=
  let ps := ((s.flash.filter fun e => decide (0x80000 + 64 * lo ≤ e.1) && decide (e.1 < 0x80000 + 64 * hi)).map
    fun (e : Host.Cell) => (e.1 - 0x80000) / 64).dedup
  (ps.filterMap s.logRec).foldl (fun acc b =>
    acc.takeWhile (fun x => decide (leAt x 4 4 ≤ leAt b 4 4)) ++ b :: acc.dropWhile (fun x => decide (leAt x 4 4 ≤ leAt b 4 4))) []

/-- The committed records of the log (R597). -/
def State.logRecs (s : State) : List (List Byte) := s.logRecsIn 0 8192

/-- One record is appended at the log's position. -/
def logPut (ty result unit item step data : Nat) (s : State) : State :=
  let b := logBytes s.mgt.logSeq ty result unit item s.ptime step data
  { s.flashWrite (0x80000 + 64 * s.mgt.logPos) b with
    mgt := { s.mgt with logSeq := s.mgt.logSeq + 1, logPos := (s.mgt.logPos + 1) % 8192 } }

/-- Before a sector is erased, its records that a reset reapplies and its newest life record are written anew (R597). -/
def logCarry (recs : List (List Byte)) (s : State) : State :=
  let keep := recs.filter fun b => (decide (1 ≤ leAt b 8 1) && decide (leAt b 8 1 ≤ 5) && leAt b 9 1 == 0)
  let life := (recs.filter fun b => leAt b 8 1 == 9).getLast?.toList
  (keep ++ life).foldl (fun s b =>
    let r := leBytes 4 0x474F4C46 ++ leBytes 4 s.mgt.logSeq ++ ((b.drop 8).take 48)
    { s.flashWrite (0x80000 + 64 * s.mgt.logPos) (r ++ leBytes 4 (crc32c r).toNat ++ leBytes 4 0x5AC33CA5) with
      mgt := { s.mgt with logSeq := s.mgt.logSeq + 1, logPos := (s.mgt.logPos + 1) % 8192 } }) s

/-- A record is written to the fault log (R596, R597): the sectors are filled in turn; on entering one, the oldest is
erased once its lasting records have been carried over. -/
def logWrite (ty result unit item step data : Nat) (s : State) : State :=
  let pos := s.mgt.logPos
  if pos % 1024 = 0 then
    logPut ty result unit item step data
      (logCarry (s.logRecsIn pos (pos + 1024)) (s.flashErase (0x80000 + 64 * pos) 0x10000))
  else logPut ty result unit item step data s

/-! ### Boot (R321) -/

/-- The boot ROM begins to read an image of the flash (R321): a load of it, under the 2 s timer. -/
def bootRead (b : Boot) (s : State) : State :=
  { s with
    mgt := { s.mgt with boot := some b }
    load := { s.load with job := some { boot := some b.src, slot := 4, addr := slotBase b.src, placement := none } } }.fset
    F.SCH_LOAD_BUSY 1

/-- The boot ROM selects the image to boot (R321): the slot that the newest committed record names, or else the golden
image with FAIL = NODIR. -/
def bootSelect (s : State) : State :=
  match s.newestRec with
  | some (_, r) => bootRead ⟨r.boot, some r.boot, some r.seq, 0⟩ (s.fset F.SCH_BOOT_FAIL 0)
  | none => bootRead ⟨2, none, none, 0⟩ (s.fset F.SCH_BOOT_FAIL 1)

/-- The attempt under way fails with a code of SCH_BOOT.FAIL (R321, R323, R326): after a slot the golden image is tried;
after the golden image the device is in recovery. Both pairs restart in the ROM. What BOOT_GOLDEN and BOOT_RECOVERY name
as the slot tried and the record's SEQ where there was none is a free value (log 4). -/
def bootFail (code : Nat) (s : State) : State :=
  match s.mgt.boot with
  | none => s
  | some b =>
    let s1 : State := { s with load := { s.load with job := none } }.fset F.SCH_LOAD_BUSY 0
    if b.src < 2 then bootRead { b with src := 2 } (s1.fset F.SCH_BOOT_FAIL code)
    else
      let r := s1.freshNat
      let s2 : State := { r.2 with mgt := { r.2.mgt with boot := none } }
      (s2.fset F.SCH_BOOT_SRC 3).raise F.SCH_LDEVT_RECOVERY 6 0x21 [b.tried.getD r.1, code]

/-- Firmware confirms its start-up (R321, R323): the timer stops; SRC and GEN name the running image. -/
def bootOk (s : State) : State :=
  match s.mgt.boot with
  | none => s.fset F.SCH_BOOT_OK 1
  | some b =>
    if s.load.job.isSome then s
    else
      let s1 : State := { s with mgt := { s.mgt with boot := none } }
      let s2 := ((s1.fset F.SCH_BOOT_OK 1).fset F.SCH_BOOT_SRC b.src).fset F.SCH_BOOT_GEN b.gen
      if b.src = 2 then
        let r := s2.freshNat
        let q := r.2.freshNat
        q.2.raise F.SCH_LDEVT_GOLDEN 6 0x20 [b.tried.getD r.1, s.fget F.SCH_BOOT_FAIL, b.seq.getD q.1]
      else s2

end Sys2Proof.Machine
end

