-- ==== Sys2Proof/Machine/Reset.lean ====
section
/-! DEFINITION. Reset.lean: fuses, device resets and the start of the power-on sequence (R536, R550, R568, R578 to R580). -/
namespace Sys2Proof.Machine

/-! ### Fuses (R536) -/

/-- A fuse word. -/
def State.fuseWord (s : State) (k : Nat) : Word := kvGet (fuseDflt k) s.sec.fuses k

/-- A fuse byte. -/
def State.fuseByte (s : State) (o : Nat) : Nat := fieldOf (s.fuseWord (o / 4)) (8 * (o % 4)) 8

/-- n fuse bytes from an offset on. -/
def State.fuseBytes (s : State) (o n : Nat) : List Byte := (List.range n).map fun i => BitVec.ofNat 8 (s.fuseByte (o + i))

/-- The epoch count: the number of EPOCH bits set (R536). -/
def State.epochCount (s : State) : Nat := ((List.range 8).map fun i => (maskBits 8 (s.fuseByte (400 + i))).length).sum

/-- A key slot is usable (R536). -/
def State.keyUsable (s : State) (k : Nat) : Bool := decide (k < 4) && nbit (s.fuseByte 10) k && !nbit (s.fuseByte 10) (4 + k)

/-- A key slot has a use: 0 BOOT, 1 DESIGN, 2 TOKEN, 3 DEBUG (R536). -/
def State.keyUse (s : State) (k use : Nat) : Bool := nbit (s.fuseByte (12 + k)) use

/-- The public key of a slot (R536). -/
def State.keyBytes (s : State) (k : Nat) : List Byte := s.fuseBytes (80 + 64 * k) 64

/-- SERIAL (R536). -/
def State.serial (s : State) : Nat := ofLe (s.fuseBytes 0 8)

/-- DEVSEED (R536). -/
def State.devSeed (s : State) : List Byte := s.fuseBytes 16 32

/-- CLS_PMAP is loaded from the phrase map (R139, R144, R536). -/
def loadPhraseMap (s : State) : State :=
  (List.range 64).foldl (fun s c =>
    let b := s.fuseByte (336 + c)
    if nbit b 7 then s.modClause c fun x => { x with spared := true, retired := b % 128 } else s) s

/-! ### Device resets (R578, R579) -/

/-- The code of a cause (R578). -/
def causeCode : ResetCause → Nat
  | .power => 1
  | .brownout => 2
  | .thermtrip => 3
  | .software => 4
  | .root => 5

/-- Every block at its reset values (R579). What outlives a reset: the flash, the fuses, checkpoints that lie in host
memory, THERMTRIP_N under R568, the commands that wait, and the model's own counters. -/
def resetBlocks (s : State) : State :=
  loadPhraseMap { State.reset with
    pending := s.pending, out := s.out, now := s.now, free := s.free, flash := s.flash
    sec := { State.reset.sec with fuses := s.sec.fuses }
    seq := { State.reset.seq with ckpts := s.seq.ckpts.filter fun e => isHost e.1 }
    mgt := { State.reset.mgt with logSeq := s.mgt.logSeq, logPos := s.mgt.logPos, calAt := s.mgt.calAt }
    plt := { State.reset.plt with thermTrip := s.plt.thermTrip } }

/-- A device reset (R568, R578, R579): POWER sets CAUSE = 1 and COUNT = 0, every other cause sets CAUSE and counts. After
POWER and THERMTRIP the device stays in reset until PORST_N rises; after the others the sequence of R580 restarts. -/
def deviceReset (cause : ResetCause) (s : State) : State :=
  let n := satSucc 8 (s.fget F.PLT_RSTCAUSE_COUNT)
  let s1 := resetBlocks s
  match cause with
  | .power => { s1 with plt := { s1.plt with thermTrip := false, inReset := true } }
  | .thermtrip =>
    (({ s1 with plt := { s1.plt with inReset := true } }).fset F.PLT_RSTCAUSE_CAUSE 3).fset F.PLT_RSTCAUSE_COUNT n
  | c => bootSelect ((s1.fset F.PLT_RSTCAUSE_CAUSE (causeCode c)).fset F.PLT_RSTCAUSE_COUNT n)

/-- PORST_N rises (R580): the fuses are read, and the sequence leads to the boot ROM's choice of an image (R321). -/
def porstRelease (s : State) : State :=
  let s1 := loadPhraseMap { s with plt := { s.plt with inReset := false } }
  if s1.load.job.isSome then s1 else bootSelect s1

/-- A sensor reaches 125 °C (R568): THERMTRIP_N goes low and the device resets. -/
def thermtrip (s : State) : State :=
  deviceReset .thermtrip { (s.emit (.pin "THERMTRIP_N" false)) with plt := { s.plt with thermTrip := true } }

/-- The root PLLs have locked after a reset (R569, R580): A is active, platform time starts at 0. -/
def rootLock (s : State) : State :=
  let s1 : State := { s with ptime := 0, ptRun := true, plt := { s.plt with ptFrac := 0 } }
  ((s1.fset F.PLT_STAT_ROOTA_OK 1).fset F.PLT_STAT_ROOTB_OK 1).fset F.PLT_STAT_ROOT 0

end Sys2Proof.Machine
end

