-- ==== Sys2Proof/Machine/Sec.lean ====
section
/-! DEFINITION. Sec.lean: partition tokens, fuse programming and the key store (R536 to R555). -/
namespace Sys2Proof.Machine

/-! ### Tokens (R543 to R545) -/

/-- The token of a slot. -/
def State.token (s : State) (slot : Nat) : Option Token := kvGet none s.sec.tokens slot

/-- The 256 bytes written to the TOKEN items (R544). -/
def State.tokenBytes (s : State) : List Byte :=
  (List.range 16).flatMap fun i => leBytes 16 (kvGet 0#128 s.sec.item i).toNat

/-- The signature check of a signed record of 192 bytes and a signature (R539): by the key of a fuse slot that has a use. -/
def State.signedBy (s : State) (slot use : Nat) (msg sig : List Byte) : Bool :=
  s.keyUsable slot && s.keyUse slot use && Config.sm2Verify (s.keyBytes slot) msg sig

/-- The outcome of a token's checks (R543, R544): the token, or the refusal. -/
def State.tokenCheck (s : State) (slot : Nat) : Token ⊕ Nat :=
  let b := s.tokenBytes
  let part := leAt b 4 4
  let ks := leAt b 17 1
  if leAt b 0 4 ≠ 0x544B4B49 ∨ 8 ≤ leAt b 16 1 ∨ leAt b 18 2 ≠ 0 ∨ !allZero ((b.drop 136).take 56) ∨
      !s.signedBy ks 2 (b.take 192) (b.drop 192) then .inr 1
  else if leAt b 8 8 ≠ s.serial then .inr 2
  else if leAt b 20 4 < s.epochCount then .inr 3
  else
    match Config.sm2Decrypt s.devSeed ((b.drop 24).take 112) with
    | none => .inr 4
    | some key =>
      if (List.range 16).any fun k => k != slot && (s.token k).any (·.part == part) then .inr 5
      else if ((s.load.img.map (·.prot)).getD []).any fun d => d.part == part && d.keyslot != ks then .inr 9
      else .inl { part := part, rights := leAt b 16 1, epoch := leAt b 20 4, keyslot := ks, key := key }

/-- SEC_TOKEN with its RESULT (R544, R555): what 0 loaded, 1 unloaded, 2 refused. -/
def tokenReport (slot part what result : Nat) (s : State) : State :=
  ((s.fset F.SEC_TOKCTL_SLOT slot).fset F.SEC_TOKCTL_RESULT result).raise F.SEC_EVT_TOKEN 1 1 [slot, part, what, result]

/-- SEC_TOKCTL written with LOAD = 1 (R544): a token replaces an old one only when it passes. -/
def tokenLoad (slot : Nat) (s : State) : State :=
  match s.tokenCheck slot with
  | .inl t =>
    let s1 : State := { s with sec := { s.sec with tokens := kvSet none s.sec.tokens slot (some t) } }
    tokenReport slot t.part 0 0 s1
  | .inr r => tokenReport slot (leAt s.tokenBytes 4 4) 2 r s

/-- SEC_TOKCTL written with UNLOAD = 1 (R544). An empty slot has no partition: that payload word is a free value (log 4). -/
def tokenUnload (slot : Nat) (s : State) : State :=
  match s.token slot with
  | some t =>
    let s1 : State := { s with sec := { s.sec with tokens := kvSet none s.sec.tokens slot none } }
    tokenReport slot t.part 1 0 s1
  | none => tokenReport slot s.freshNat.1 2 6 s.freshNat.2

/-- LOAD and UNLOAD written together (R544). Which partition the packet names is a free value (log 4). -/
def tokenBoth (slot : Nat) (s : State) : State := tokenReport slot s.freshNat.1 2 7 s.freshNat.2

/-! ### Fuse programming (R537, R550) -/

/-- The path of a requester that may program fuses, if it holds L3 (R420, R537): 0 TAP, 1 host. -/
def State.fusePath (s : State) : Requester → Option Nat
  | .hif | .dbg .host => if 3 ≤ s.dbg.hostLevel then some 1 else none
  | .dbg .tap => if 3 ≤ s.dbg.tapLevel then some 0 else none
  | _ => none

/-- Bit b of fuse word `word` may not be set (R536, R537). -/
def State.fuseLocked (s : State) (word b : Nat) : Bool :=
  let o := 4 * word + b / 8
  let k := b % 8
  if o < 9 then true
  else if o = 9 then false
  else if o = 10 then k == 0 || (decide (k < 4) && s.fuseByte (12 + k) == 0)
  else if o = 11 then true
  else if o < 16 then o == 12 || nbit (s.fuseByte 10) (o - 12)
  else if o < 48 then true
  else if o < 80 then !allZero (s.fuseBytes 48 32)
  else if o < 336 then o < 144 || nbit (s.fuseByte 10) ((o - 80) / 64)
  else if o < 400 then true
  else decide (407 < o)

/-- Tokens whose EPOCH has fallen below the count are erased (R550). -/
def epochErase (s : State) : State :=
  let n := s.epochCount
  let gone := fun k => ((s.token k).map fun t => decide (t.epoch < n)).getD false
  let s1 : State := { s with sec := { s.sec with
    tokens := (List.range 16).foldl (fun m k => if gone k then kvSet none m k none else m) s.sec.tokens } }
  s1.raise F.SEC_EVT_EPOCH 1 3 [n, maskOf 16 gone]

/-- SEC_FUSEPGM written with GO = 1 (R537, R553): LOCKED changes no bit; a read-back mismatch leaves some of the requested
bits set, which is a free value. A write from an agent without L3 is ignored. -/
def fuseProgram (req : Requester) (word : Nat) (readBackOk : Bool) (s : State) : State :=
  match s.fusePath req with
  | none => s
  | some path =>
    let data := BitVec.ofNat 32 (s.fget F.SEC_FUSEDATA_DATA)
    let s1 := s.fset F.SEC_FUSEPGM_WORD word
    let report := fun (r : Nat) (t : State) => (t.fset F.SEC_FUSEPGM_RESULT r).raise F.SEC_EVT_FUSE 1 2 [word, r, path]
    if (List.range 32).any fun b => data.getLsbD b && s.fuseLocked word b then report 1 s1
    else
      let f := s1.fresh
      let s2 := if readBackOk then s1 else f.2
      let set := if readBackOk then data else data &&& f.1.setWidth 32
      let s3 : State := { s2 with sec := { s2.sec with
        fuses := kvSet (fuseDflt word) s2.sec.fuses word (s2.fuseWord word ||| set) } }
      let s4 := report (if readBackOk then 0 else 2) s3
      if s.epochCount < s4.epochCount then epochErase s4 else s4

/-! ### The commands -/

/-- TOKEN_LOAD (R544). -/
def execTokenLoad (slot : Nat) (s : State) : Host.Outcome State Fault Refusal := .next (tokenLoad slot s)

/-- TOKEN_UNLOAD (R544). -/
def execTokenUnload (slot : Nat) (s : State) : Host.Outcome State Fault Refusal := .next (tokenUnload slot s)

/-- FUSE_PROGRAM (R537). -/
def execFuseProgram (req : Requester) (word : Nat) (readBackOk : Bool) (s : State) : Host.Outcome State Fault Refusal :=
  .next (fuseProgram req word readBackOk s)

end Sys2Proof.Machine
end

