-- ==== Sys2Proof/Machine/Access.lean ====
section
/-! DEFINITION. Access.lean: memory accesses by NoC masters: who may reach what (R453, R465, R488, R515, R545, R546, R609), and
the management memories behind it. -/
namespace Sys2Proof.Machine

/-- A NoC master of memory accesses: HIF, the two pairs, the debug access engine or TAP (at level L3 or not), a rim port,
the capture drain. -/
inductive Master where
  | hif | control | security | debug (l3 : Bool) | rim | cap
  deriving DecidableEq, Repr

/-- The master kind of R236. -/
def Master.kind : Master → Nat
  | .hif => 0
  | .control => 1
  | .security => 1
  | .debug _ => 5
  | .rim => 4
  | .cap => 2

/-- n free bytes (log 4): data that come from outside the device. -/
def State.freshBytes (s : State) (n : Nat) : List Byte × State :=
  ((List.range n).map fun i => (Config.freeWord (s.free + i)).setWidth 8, { s with free := s.free + n })

/-- Fields of a translation window item (R511). -/
def xwEn (w : QWord) : Bool := w.getLsbD 31
def xwSize (w : QWord) : Nat := 2 ^ fieldOf w 0 6
def xwBase (w : QWord) : Nat := fieldOf w 32 32 * 2 ^ 16
def xwHost (w : QWord) : Nat := fieldOf w 64 64

/-- The host address of a NoC address in the host range (R488): the lowest-numbered enabled window that contains it. -/
def State.hostXlate (s : State) (a : Nat) : Option Nat :=
  ((List.range 8).map fun k => kvGet 0#128 s.hif.xwin k).findSome? fun w =>
    if xwEn w && decide (xwBase w ≤ a) && decide (a < xwBase w + xwSize w) then some (xwHost w + (a - xwBase w)) else none

/-- The STATUS of a host completion (R488): 0 Successful Completion, 3 poisoned data, 2 Unsupported Request, Completer Abort or
completion timeout. Which of them the host gives is a free value (log 4). -/
def State.hostStatus (s : State) : Nat × State := ([0, 3, 2].getD (s.freshNat.1 % 3) 0, s.freshNat.2)

/-- The register range of the NoC map (R609). -/
def isRegs (a : Nat) : Bool := decide (a < 0x4000000)

/-- The STATUS of an access that its target, its bridge or its requester refuses (R453, R456, R461, R465, R483, R488, R515,
R546): 1 DECERR, 2 SLVERR, 6 PROT, 7 OFF, 8 CLASS; none where the access goes on. -/
def State.busRefusal (s : State) (m : Master) (write : Bool) (a n : Nat) : Option Nat :=
  if isRegs a then some 8
  else if isUser a then
    if isHbm a && !s.domOn (5 + hbmStack a) then some 7
    else if s.memClosed (if write then 2 else 1) a n then some 6
    else none
  else if isCtlSram a then none
  else if isSecSram a then (if m == .security || m == .debug true then none else some 6)
  else if isRom a then (if !write && (m == .security || m == .control || m == .debug true) then none else some 6)
  else if isFlash a then (if write then some 6 else none)
  else if isHost a then
    if (s.hostXlate a).isNone then some 1 else if !s.hif.bme then some 2 else none
  else some 1

/-- An uncorrectable word of management SRAM is met (R515, R535). -/
def sramUe (a kind : Nat) (s : State) : State := s.raise F.MGT_EVT_SRAM_UE 2 5 (w64 a ++ [kind])

/-- The 64-bit words of management SRAM that a range touches and that are uncorrectable (R515). -/
def State.sramBad (s : State) (a n : Nat) : List Nat :=
  ((List.range ((a % 8 + n + 7) / 8)).map fun i => a / 8 + i).filter fun w => kvGet false s.mgt.bad w

/-- A read by a NoC master that nothing refuses: STATUS, bytes, state (R223, R461, R488, R515). -/
def memRead (m : Master) (a n : Nat) (s : State) : Nat × List Byte × State :=
  if isUser a then
    let r := portRead m.kind a n s
    (if r.2.1 then 0 else 2, r.1, r.2.2)
  else if isFlash a then (0, s.flashRead (a - 0xA0000000) n, s)
  else if isHost a then
    let r := s.freshBytes n
    let st := r.2.hostStatus
    (st.1, if st.1 = 0 then r.1 else [], st.2.emit (.hostRead ((s.hostXlate a).getD 0) n))
  else
    match s.sramBad a n with
    | [] => (0, s.bytes a n, s)
    | w :: _ => (2, [], sramUe (8 * w) m.kind s)

/-- The words of management SRAM that a write covers in part. -/
def partWords (a n : Nat) : List Nat :=
  ((List.range ((a % 8 + n + 7) / 8)).map fun i => a / 8 + i).filter fun w => decide (8 * w < a) || decide (a + n < 8 * w + 8)

/-- A write by a NoC master that nothing refuses: STATUS and state (R223, R488, R515). A part of an uncorrectable word of
management SRAM is not written (log 19). -/
def memWrite (m : Master) (a : Nat) (bs : List Byte) (s : State) : Nat × State :=
  if isUser a then
    let r := portWrite m.kind a bs s
    (if r.1 then 0 else 2, r.2)
  else if isHost a then (0, s.emit (.hostWrite ((s.hostXlate a).getD 0) bs))
  else
    match (partWords a bs.length).filter fun w => kvGet false s.mgt.bad w with
    | w :: _ => (2, sramUe (8 * w) m.kind s)
    | [] =>
      let bad := (s.sramBad a bs.length).foldl (fun b w => kvSet false b w false) s.mgt.bad
      (0, { s.store a bs with mgt := { s.mgt with bad := bad } })

/-- A read by a NoC master (R461). -/
def busRead (m : Master) (a n : Nat) (s : State) : Nat × List Byte × State :=
  match s.busRefusal m false a n with
  | some st => (st, [], s)
  | none => memRead m a n s

/-- A write by a NoC master (R461). -/
def busWrite (m : Master) (a : Nat) (bs : List Byte) (s : State) : Nat × State :=
  match s.busRefusal m true a bs.length with
  | some st => (st, s)
  | none => memWrite m a bs s

/-- The packets of an access: address and length, none crossing a 256-byte boundary (R455). -/
def packetsOf (a n : Nat) : List (Nat × Nat) :=
  (List.range ((a % 256 + n + 255) / 256)).map fun i =>
    let lo := max a (a - a % 256 + 256 * i)
    (lo, min (a + n) (a - a % 256 + 256 * (i + 1)) - lo)

/-- A read of any length by a NoC master that ends at the first STATUS other than OK. -/
def busReadAll (m : Master) (a n : Nat) (s : State) : Nat × List Byte × State :=
  (packetsOf a n).foldl (fun r p =>
    if r.1 ≠ 0 then r
    else
      let x := busRead m p.1 p.2 r.2.2
      (x.1, r.2.1 ++ x.2.1, x.2.2)) (0, [], s)

/-- A write of any length by a NoC master that ends at the first STATUS other than OK. -/
def busWriteAll (m : Master) (a : Nat) (bs : List Byte) (s : State) : Nat × State :=
  (packetsOf a bs.length).foldl (fun r p =>
    if r.1 ≠ 0 then r else busWrite m p.1 ((bs.drop (p.1 - a)).take p.2) r.2) (0, s)

/-- MGT_SRAM_SCRUB: the background scrubber reads a word of management SRAM; a corrected error is written back, an
uncorrectable one raises MGT_SRAM_UE (R515). The scrubber is no NoC master: the payload's master is a free value (log 4). -/
def sramScrub (a : Nat) (ue : Bool) (s : State) : State :=
  if !(isCtlSram a || isSecSram a) then s
  else
    let w := a / 8
    let s1 : State := if ue then { s with mgt := { s.mgt with bad := kvSet false s.mgt.bad w true } } else s
    if kvGet false s1.mgt.bad w then
      let r := s1.freshNat
      sramUe (8 * w) r.1 r.2
    else s1

/-- MGT_SRAM_SCRUB (R515). -/
def execMgtSramScrub (addr : Nat) (ue : Bool) (s : State) : Host.Outcome State Fault Refusal := .next (sramScrub addr ue s)

end Sys2Proof.Machine
end

