-- ==== Sys2Proof/Machine/CapCmd.lean ====
section
/-! DEFINITION. CapCmd.lean: the commands of the capture engine and the trigger units (R385 to R416). -/
namespace Sys2Proof.Machine

/-- SIG_START: CAP_SIGCTL.START written 1 (R390, R391). -/
def execSigStart (s : State) : Host.Outcome State Fault Refusal := .next (sigStartReq 0 0 s)

/-- SIG_STOP: CAP_SIGCTL.STOP written 1 (R390): the steps counted by POST follow the last step begun. -/
def execSigStop (s : State) : Host.Outcome State Fault Refusal := .next (sigStopReq 0 0 s.seq.step s)

/-- SIG_POST_END (R390). -/
def execSigPostEnd (s : State) : Host.Outcome State Fault Refusal := .next (sigPostEnd s)

/-- CAPTURE_DRAIN (R392, R393). -/
def execCaptureDrain (s : State) : Host.Outcome State Fault Refusal := .next (captureDrain s)

/-- CAP_OVERFLOW (R394, R399). -/
def execCapOverflow (mt : Bool) (s : State) : Host.Outcome State Fault Refusal := .next (capOverflow mt s)

/-- MT_START: CAP_MTCTL.START written 1 (R400). -/
def execMtStart (s : State) : Host.Outcome State Fault Refusal := .next (mtStartReq 0 s)

/-- MT_STOP: CAP_MTCTL.STOP written 1 (R400). -/
def execMtStop (s : State) : Host.Outcome State Fault Refusal := .next (mtStopReq 0 s)

/-- TU_DISABLE: CAP_TUCTL.EN written 0 (R403). -/
def execTuDisable (u : Nat) (s : State) : Host.Outcome State Fault Refusal := .next (tuDisable u s)

/-- PIN_CROSSING (R401). -/
def execPinCrossing (bank pin : Nat) (hi up : Bool) (mv fine : Nat) (s : State) : Host.Outcome State Fault Refusal :=
  .next (pinCrossing bank pin hi up mv fine s)

/-- TRIGGER_FIRE (R403 to R405). -/
def execTriggerFire (u ticks : Nat) (s : State) : Host.Outcome State Fault Refusal := .next (triggerFire u ticks s)

/-- HOLDOFF_END (R403). -/
def execHoldoffEnd (u : Nat) (s : State) : Host.Outcome State Fault Refusal := .next (holdoffEnd u s)

end Sys2Proof.Machine
end

