-- ==== Sys2Proof/Machine/Parse.lean ====
section
/-! DEFINITION. Parse.lean: the parse checker (R87, R91, R99, R100, R104, R109 to R111, R117, R159, R622). -/
namespace Sys2Proof.Machine

/-- A clause lies on the perimeter of the grid (R119). -/
def perimeter (c : Nat) : Bool := c % 8 == 0 || c % 8 == 7 || c / 8 == 0 || c / 8 == 7

/-- What the parse checker knows of a clause: its words and chunks by phase, the value mode and depth, its place, and for
each port the latency of its window, 0 where the window is disabled (R104, R107). -/
structure ParseCtx where
  two : Bool
  depth : Nat
  perim : Bool
  lat : List Nat
  /-- BP words, key 512 phase + clause index; switch chunks, key 24 phase + chunk; both in ascending key -/
  words : Kv QWord
  sw : Kv QWord

/-- A failure: reason, phase, BP field. -/
structure ParseFail where
  reason : Nat
  phase : Nat
  bp : Nat
  deriving DecidableEq, Repr

/-! ### Word rules of a BP word -/

/-- Opcodes that produce no result (R90). -/
def noResult (opc : Nat) : Bool := [0x0, 0x6, 0x7, 0x8, 0xA, 0xC, 0xD].contains opc

/-- A capture source is illegal (R84, R87). -/
def capIllegal (perim : Bool) (src : Nat) : Bool :=
  let i := src % 1024
  src != 0xFFF &&
    (match src / 1024 with
     | 0 => decide (511 < i)
     | 1 => decide (63 < i)
     | 2 => nbit i 7
     | _ => decide (511 < i) || !perim)

/-- Two writes of a word name one entry (R87). -/
def writeClash (two : Bool) (w : BpWord) : Bool :=
  let l := (if w.we && w.opc != 5 then [entryOf two w 5 w.dst] else []) ++
    (if w.c0src = 0xFFF then [] else [entryOf two w 6 w.c0dst]) ++
    (if w.c1src = 0xFFF then [] else [entryOf two w 7 w.c1dst])
  !decide l.Nodup

/-- A field that the opcode does not read, or an unused destination, is not 0 (R91). -/
def opdUnused (w : BpWord) : Bool :=
  ((List.range 5).any fun k => !(readsOf w).contains k && (w.src.getD k 0 != 0 || nbit w.bnk k)) ||
  (!w.we && (w.dst != 0 || nbit w.bnk 5))

/-- FN breaks a rule of the opcode (R97, R100, R104, R110, R112). -/
def fnSubfield (w : BpWord) : Bool :=
  let mask := w.fn / 8 % 32
  match w.opc with
  | 0x3 => decide (256 ≤ w.fn) ||
      (match w.fn % 8 with
       | 5 => mask == 0 || nbit w.fn 7
       | 6 | 7 => mask != 3
       | _ => mask == 0)
  | 0x4 => decide (64 ≤ w.fn)
  | 0x6 => nbit w.fn 7 || decide (39 < w.fn % 128)
  | 0x7 | 0x9 => nbit w.fn 7
  | 0x8 => decide (1 < w.fn % 256)
  | 0xA | 0xB => decide (512 ≤ w.fn)
  | 0xC => decide (1 < w.fn)
  | _ => false

/-- A LATCH does not hold its own value (R99). -/
def latchFb (two : Bool) (w : BpWord) : Bool :=
  w.opc == 4 && (!w.we || entryOf two w 2 w.sc != entryOf two w 5 w.dst)

/-- A port operation names a port whose window is disabled (R104). -/
def portNoWin (x : ParseCtx) (w : BpWord) : Bool :=
  decide (6 ≤ w.opc) && decide (w.opc ≤ 9) && x.lat.getD (w.fn / 256) 0 == 0

/-- The word rules in ascending reason code (R87, R117). -/
def wordRules (x : ParseCtx) (w : BpWord) : List (Nat × Bool) :=
  [(0x01, decide (14 ≤ w.opc)), (0x02, decide (65 ≤ w.fx)),
   (0x03, capIllegal x.perim w.c0src || capIllegal x.perim w.c1src), (0x04, !x.two && w.bnk != 0),
   (0x05, writeClash x.two w), (0x06, w.tag % 16 != 0 && w.opc != 0xC),
   (0x07, noResult w.opc && (w.we || w.bc || w.fx != 0)), (0x08, w.opc == 0 && w.fn != 0),
   (0x10, opdUnused w), (0x11, fnSubfield w), (0x12, x.two && w.opc == 3), (0x13, latchFb x.two w),
   (0x14, portNoWin x w), (0x17, (w.opc == 0xA || w.opc == 0xB) && !x.perim)]

/-- The lowest reason for which a BP word is rejected (R87). -/
def wordFault (x : ParseCtx) (q : QWord) : Option Nat := ((wordRules x (bpWord q)).find? (·.2)).map (·.1)

/-! ### Word rules of a switch word -/

/-- A switch word from the chunks of a phase. -/
def ParseCtx.swWord (x : ParseCtx) (p : Nat) : Nat :=
  (List.range 24).foldl (fun a i => a + (kvGet 0#128 x.sw (24 * p + i)).toNat * 2 ^ (128 * i)) 0

/-- The outputs at which a switch word breaks SW_SRC and SW_PACK (R159). -/
def swSrcBad (w o : Nat) : Bool :=
  let sel := nbits w (9 * o) 9
  decide (5 < sel / 64) || (sel / 64 == 0 && sel % 64 != 0)
def swPackBad (w o : Nat) : Bool :=
  let sel := nbits w (9 * o) 9
  (sel / 64 == 5 && sel % 2 == 1 && packBit w (sel % 64 / 2)) ||
    (decide (256 ≤ o) && o % 2 == 1 && sel != 0 && unpackBit w ((o - 256) / 2))

/-- The failure of a switch word: the lowest reason, and within it the lowest output (R159). -/
def swFault (two : Bool) (w : Nat) : Option (Nat × Nat) :=
  match (List.range 320).find? (swSrcBad w) with
  | some o => some (0x20, o)
  | none =>
    if nbits w 2944 128 ≠ 0 then some (0x21, 0x3FF)
    else if !two && nbits w 2880 64 != 0 then some (0x22, 0x3FF)
    else ((List.range 320).find? (swPackBad w)).map fun o => (0x23, o)

/-- The first word rule broken in phase p: BP words in ascending clause index, then the switch word (R622). -/
def phaseFault (x : ParseCtx) (p : Nat) : Option ParseFail :=
  let ws := x.words.filter fun e => e.1 / 512 == p
  match ws.findSome? fun e => (wordFault x e.2).map fun r => (⟨r, p, e.1 % 512⟩ : ParseFail) with
  | some f => some f
  | none =>
    if x.sw.any fun e => e.1 / 24 == p then (swFault x.two (x.swWord p)).map fun f => ⟨f.1, p, f.2⟩ else none

/-! ### Schedule-wide rules -/

/-- The words as (phase, clause index, fields), in ascending phase and then clause index. -/
def ParseCtx.list (x : ParseCtx) : List (Nat × Nat × BpWord) := x.words.map fun e => (e.1 / 512, e.1 % 512, bpWord e.2)

/-- The first element of a list for which an earlier element clashes. -/
def firstClash {α : Type} (clash : α → α → Bool) : List α → List α → Option α
  | _, [] => none
  | seen, a :: t => if seen.any (clash · a) then some a else firstClash clash (a :: seen) t

/-- The 33rd queued write of a BP in a user cycle (R80, R622). -/
def commitOvf (l : List (Nat × Nat × BpWord)) : Option ParseFail :=
  let fl := l.filter fun e => e.2.2.opc == 5 && e.2.2.we
  (fl.zipIdx.find? fun e => ((fl.take e.2).filter fun y => y.2.1 == e.1.2.1).length == 32).map
    fun e => ⟨0x09, e.1.1, e.1.2.1⟩

/-- Two port operations of a phase clash (R109). -/
def portClash (l : List (Nat × Nat × BpWord)) : Option ParseFail :=
  let ops := l.filter fun e => [6, 7, 8].contains e.2.2.opc
  (firstClash (fun a b => a.1 == b.1 && a.2.2.opc == b.2.2.opc &&
    (if a.2.2.opc = 8 then a.2.2.fn / 256 == b.2.2.fn / 256 else a.2.2.fn == b.2.2.fn)) [] ops).map
    fun e => ⟨0x15, e.1, e.2.1⟩

/-- How many times L consecutive phases from p on, counted cyclically, hold phase ph (R109). -/
def spanHolds (d l p ph : Nat) : Nat :=
  let off := (ph + d - p % d) % d
  if off < l then (l - off + d - 1) / d else 0

/-- More than four MGO words on one port in L consecutive phases (R109, R622). -/
def portOutst (x : ParseCtx) (l : List (Nat × Nat × BpWord)) : Option ParseFail :=
  let mgos := fun q => l.filter fun e => e.2.2.opc == 8 && e.2.2.fn / 256 == q
  let tooMany := fun p q => decide (4 < ((mgos q).map fun e => spanHolds x.depth (x.lat.getD q 0) p e.1).sum)
  if mgos 0 ++ mgos 1 ++ mgos 2 ++ mgos 3 = [] then none
  else
    (List.range x.depth).findSome? fun p =>
      ([0, 1, 2, 3].find? (tooMany p)).map fun q =>
        let first := (List.range x.depth).findSome? fun k =>
          ((mgos q).find? fun e => e.1 == (p + k) % x.depth).map fun e => e.2.1
        ⟨0x16, p, first.getD 0⟩

/-- Two BPs drive one local transmit lane in a phase (R159). -/
def fxClash (l : List (Nat × Nat × BpWord)) : Option ParseFail :=
  let fx := l.filter fun e => e.2.2.fx != 0
  (firstClash (fun a b => a.1 == b.1 && a.2.2.fx == b.2.2.fx) [] fx).map fun e => ⟨0x24, e.1, e.2.1⟩

/-- The first failure of a clause, in the order of R622. -/
def parseClause (x : ParseCtx) : Option ParseFail :=
  match (List.range x.depth).findSome? (phaseFault x) with
  | some f => some f
  | none =>
    let l := x.list
    ((commitOvf l).orElse fun _ => portClash l).orElse fun _ => (portOutst x l).orElse fun _ => fxClash l

/-! ### The device-wide rule (R111) -/

/-- The XOUT words of a clause: phase, clause and clause index, lane. -/
def xoutsOf (c : Nat) (words : Kv QWord) : List (Nat × Nat × Nat × Nat) :=
  words.filterMap fun e =>
    let w := bpWord e.2
    if w.opc = 0xA then some (e.1 / 512, c, e.1 % 512, w.fn % 512) else none

/-- The first RIM_CLASH of a device: its phase, both clauses in clause order, and the clause index of the second word
(R111, R117). -/
def rimClash (depth : Nat) (xs : List (Nat × Nat × Nat × Nat)) : Option (Nat × Nat × Nat × Nat) :=
  (List.range depth).findSome? fun p =>
    let here := xs.filter fun e => e.1 == p
    (firstClash (fun a b => a.2.2.2 == b.2.2.2) [] here).map fun e =>
      let other := (here.find? fun a => a.2.2.2 == e.2.2.2).map fun a => a.2.1
      (p, other.getD 0, e.2.1, e.2.2.1)

/-! ### A loaded clause with patch units -/

/-- The latencies of the four ports of a physical clause (R104, R107). -/
def State.portLats (s : State) (c : Nat) : List Nat :=
  (List.range 4).map fun q =>
    let w := s.win (4 * c + q)
    if winEn w then (if isHbm (winBase w) then 192 else 8) else 0

/-- Stored content overlaid by units, given in ascending number: the lowest unit that matches a word applies (R192). -/
def overlay (stored : Kv QWord) (dflt : QWord) (stride c kind : Nat) (units : List (Nat × QWord)) : Kv QWord :=
  units.reverse.foldl (fun m u =>
    if puClause u.1 = c ∧ puKind u.1 = kind then
      let k := stride * puPhase u.1 + puIndex u.1
      if puMode u.1 = 1 then kvSet dflt m k u.2
      else if puMode u.1 = 2 then kvSet dflt m k (kvGet dflt stored k)
      else m
    else m) stored

/-- The parse context of a physical clause under units. -/
def State.parseCtx (s : State) (c : Nat) (units : List (Nat × QWord)) : ParseCtx where
  two := s.seq.twostate
  depth := s.seq.depth
  perim := perimeter c
  lat := s.portLats c
  words := overlay (s.clause c).words idleWord 512 c 0 units
  sw := overlay (s.clause c).sw 0#128 24 c 1 units

end Sys2Proof.Machine
end

