-- ==== Sys2Proof/Machine/Sch.lean ====
section
/-! DEFINITION. Sch.lean: the commands of the schedule store: write-backs, the scrubber, parameter checks, row mapping and
patch applications (R176 to R205). -/
namespace Sys2Proof.Machine

/-! ### Locations of a slice (R176) -/

/-- The key of a location. -/
def locKey (row word : Nat) : Nat := 128 * row + word

/-- The content kind of a location (R181): 0 BP word, 1 switch chunk, 2 hold-record chunk; none of these elsewhere. -/
def locKind (row word : Nat) : Option Nat :=
  if row < 8192 then some 0
  else if row < 8704 then (if word % 32 < 24 then some 1 else if word % 32 < 28 then some 2 else none)
  else none

/-- A location takes a 128-bit content (R164, R176): a BP word, a switch chunk, a hold-record chunk or four dictionary
entries. The other locations hold nothing that a rule reads. -/
def putLocation (c row word : Nat) (v : QWord) (s : State) : State :=
  s.modClause c fun x =>
    if row < 8192 then { x with words := kvSet idleWord x.words (512 * (row / 4) + 128 * (row % 4) + word) v }
    else if row < 8704 then
      let p := 4 * (row - 8192) + word / 32
      let i := word % 32
      let hold := (List.range 64).foldl
        (fun m k => kvSet s.dfl m (256 * p + 64 * (i - 24) + k) (BitVec.ofNat 2 (fieldOf v (2 * k) 2))) x.hold
      if i < 24 then { x with sw := kvSet 0 x.sw (24 * p + i) v }
      else if i < 28 then { x with hold := hold }
      else x
    else if row < 8706 then
      let dictM := (List.range 4).foldl
        (fun m k => kvSet 0 m (512 * (row - 8704) + 4 * word + k) (BitVec.ofNat 32 (fieldOf v (32 * k) 32))) x.dictM
      { x with dictM := dictM }
    else x

/-- A logical location's error mark is set. -/
def setSchMark (c row word m : Nat) (s : State) : State :=
  s.modClause c fun x => { x with schBad := kvSet 0 x.schBad (s.arrayLoc c (locKey row word)) m }

/-- Firmware or hardware reads an uncorrectable location for a copy and writes it on with fresh check bits: what it read
is a free value (log 4). -/
def copyAsRead (c row word : Nat) (s : State) : State :=
  let r := s.fresh
  setSchMark c row word 0 (putLocation c row word r.1 r.2)

/-! ### The scrubber (R183 to R185) -/

/-- The physical phrases in service whose copy of an entry passes parity, ascending (R120, R185). -/
def Clause.goodPhrases (x : Clause) (e : Nat) : List Nat :=
  (List.range 65).filter fun ph =>
    (if x.spared then ph != x.retired else ph != 64) && (x.dictCopy ph e).2

/-- The value on which at least two of the copies read agree (R185). -/
def voteOf (vs : List Word) : Option Word := vs.find? fun v => decide (2 ≤ vs.count v)

/-- An uncorrectable entry of the master dictionary is repaired from the working copies; where it cannot be, the control pair
rewrites it from the image (R185), at once (log 56). The Boolean says which. -/
def masterFix (c e : Nat) (s : State) : Bool × State :=
  let x := s.clause c
  let ps := (x.goodPhrases e).take 3
  let put (v : Word) := s.modClause c fun x => { x with dictM := kvSet 0 x.dictM e v }
  match voteOf (ps.map fun p => (x.dictCopy p e).1) with
  | some v => (true, (put v).raise F.SCH_EVT_DICT_MFIX 6 9 ([c, e] ++ ps))
  | none => (false, put (kvGet 0 x.dictI e))

/-- The scrubber meets an uncorrectable location (R183, R185): the test pattern of an unused spare row is rewritten, and so is
the master dictionary. -/
def scrubUe (c row word : Nat) (s : State) : State :=
  if row = 8704 ∨ row = 8705 then
    let r := (List.range 4).foldl (fun (r : Bool × State) k =>
      let f := masterFix c (512 * (row - 8704) + 4 * word + k) r.2
      (r.1 && f.1, f.2)) (true, s)
    setSchMark c row word 0 (if r.1 then r.2 else r.2.raise F.SCH_EVT_SCRUB_UE 6 3 [c, row, word])
  else
    let s1 := s.raise F.SCH_EVT_SCRUB_UE 6 3 [c, row, word]
    if 9216 ≤ row && (s.logicalRow c row).isNone then setSchMark c row word 0 s1 else s1

/-- The scrubber reads the next row of a slice: a logical row where it is mapped to, then the spare rows (R183, R188). A gated
slice holds nothing. -/
def scrubRow (c : Nat) (s : State) : State :=
  if s.gated c then s
  else
    let row := (s.clause c).scrub
    let marks := (s.clause c).schBad.filter fun e => e.1 / 128 == s.arrayRow c row
    let s1 := marks.foldl (fun s e =>
      if e.2 = 2 then scrubUe c row (e.1 % 128) s
      else setSchMark c row (e.1 % 128) 0 (schCorrected c row (e.1 % 128) true s)) s
    s1.modClause c fun x => { x with scrub := if row + 1 < 9472 then row + 1 else 0 }

/-- The corrected bits are written back, unless newer data got there first (R179, R180). -/
def writeBack (c row word : Nat) (s : State) : State :=
  if s.markAt c (locKey row word) = 3 then setSchMark c row word 0 s else s

/-! ### Parameters (R186, R187, R199, R355) -/

/-- SCH_PCHK.RELOADED written 1 (R187, R199). -/
def schParamPost (s : State) : State :=
  let s1 := s.raise F.SCH_EVT_PARAM 6 8 [s.sch.dis.toNat]
  { s1 with sch := { s1.sch with dis := 0 } }

/-- RIM_PCHK.RELOADED written 1 (R355, R360). -/
def rimParamPost (s : State) : State :=
  let s1 := s.raise F.RIM_EVT_PARAM 11 4 [s.rim.dis.toNat]
  { s1 with rim := { s1.rim with dis := false } }

/-- The bytes of an item PARAMS, over which firmware computes its digest (R187, R204, R355, R360). -/
def paramBytes (a b c : Nat) : List Byte := leBytes 4 a ++ leBytes 4 b ++ leBytes 4 c ++ leBytes 4 0

/-- The 1 ms check of firmware (R187, R355): the digest of PARAMS against that of what it last wrote; on a mismatch it rewrites
the registers and writes RELOADED. The disagreement of the last 1 ms starts anew. `struck`: what an upset has left in the
parameter registers (INTERVAL and THR) before the check. -/
def paramCheck (rim : Bool) (struck : Option (Nat × Nat)) (s0 : State) : State :=
  let s := match struck with
    | none => s0
    | some v => if rim then s0.fset F.RIM_SCRUB_INTERVAL v.1
      else (s0.fset F.SCH_SCRUB_INTERVAL v.1).fset F.SCH_ROWHOT_THR v.2
  if rim then
    if Config.sm3 (paramBytes (s.fget F.RIM_SCRUB_INTERVAL) s.rim.dis.toNat 0) = Config.sm3 (paramBytes s.rim.wrote 0 0) then
      { s with rim := { s.rim with dis := false } }
    else rimParamPost (s.fset F.RIM_SCRUB_INTERVAL s.rim.wrote)
  else if Config.sm3 (paramBytes (s.fget F.SCH_SCRUB_INTERVAL) (s.fget F.SCH_ROWHOT_THR) s.sch.dis.toNat) =
      Config.sm3 (paramBytes s.sch.wrote.1 s.sch.wrote.2 0) then { s with sch := { s.sch with dis := 0 } }
  else schParamPost ((s.fset F.SCH_SCRUB_INTERVAL s.sch.wrote.1).fset F.SCH_ROWHOT_THR s.sch.wrote.2)

/-! ### Row mapping (R188 to R190) -/

/-- SCH_RMAP reports a request (R189, R205). -/
def rmapReport (c row spare result : Nat) (s : State) : State :=
  (s.fset F.SCH_RMAP_RESULT result).raise F.SCH_EVT_RMAP 6 5 [c, row, spare, result]

/-- The first refusal that applies (R189). -/
def State.rmapRefusal (s : State) (c row : Nat) : Option Nat :=
  if s.sch.rmap.isSome then some 5
  else if s.gated c then some 6
  else if 9215 < row then some 2
  else if (s.spareOf c row).isSome then some 3
  else if s.rowFree c = 0 then some 1
  else none

/-- SCH_RMAP written with GO = 1 (R189). A refused request has no spare row: that payload word is a free value (log 4). DESIGN
CHOICE (log 59): CLAUSE and ROW take the word written, also where the request is refused BUSY. -/
def rmapGo (c row : Nat) (s : State) : State :=
  let s1 := (s.fset F.SCH_RMAP_CLAUSE c).fset F.SCH_RMAP_ROW row
  match s.rmapRefusal c row with
  | some r => rmapReport c row s1.freshNat.1 r s1.freshNat.2
  | none =>
    (({ s1 with sch := { s1.sch with rmap := some (c, row) } }).fset F.SCH_RMAP_GO 1).fset F.SCH_STAT_RMAP_BUSY 1

/-- The copy of a row reads every location (R189): single-bit errors are corrected through the scrubber's slot, and
uncorrectable locations reported. -/
def rmapCopy (c row : Nat) (s : State) : State :=
  let marks := (s.clause c).schBad.filter fun e => e.1 / 128 == row
  marks.foldl (fun s e =>
    let w := e.1 % 128
    if e.2 = 2 then
      let k := s.freshNat
      let kind := match locKind row w with | some k => (k, s) | none => k
      (kind.2.modClause c fun x => { x with ue := satSucc 32 x.ue }).raise F.SCH_EVT_UE 6 2
        ([c, row, w, kind.1] ++ w64 s.seq.step)
    else setSchMark c row w 0 (schCorrected c row w true s)) s

/-- A row mapping ends after `mismatches` failed comparisons (R189). Which free spare row it took is a free value (log 4). -/
def rmapEnd (mismatches : Nat) (s : State) : State :=
  match s.sch.rmap with
  | none => s
  | some (c, row) =>
    let s1 := rmapCopy c row
      ((({ s with sch := { s.sch with rmap := none } }).fset F.SCH_RMAP_GO 0).fset F.SCH_STAT_RMAP_BUSY 0)
    let used := (s.clause c).rowMap.filterMap Prod.snd ++ (factoryRows c).map Prod.snd
    let p := s1.pick ((List.range 256).filter fun k => !used.contains k)
    if 2 ≤ mismatches then rmapReport c row p.1 4 p.2
    else
      let bad := (s.clause c).schBad.filter fun e => e.1 / 128 == row && e.2 == 2
      let s2 := bad.foldl (fun s e => copyAsRead c row (e.1 % 128) s) p.2
      rmapReport c row p.1 0 (s2.modClause c fun x => { x with
        rowMap := kvSet none x.rowMap row (some p.1), schBad := kvDrop x.schBad (128 * (9216 + p.1)) (128 * (9217 + p.1)) })

/-! ### Patch applications (R191 to R195) -/

/-- The staged address of unit u as SCH_PU holds it (R203). -/
def State.puAddr (s : State) (u : Nat) : Nat :=
  s.fget (F.SCH_PU_MODE u) * 2 ^ 30 + s.fget (F.SCH_PU_CLAUSE u) * 2 ^ 24 + s.fget (F.SCH_PU_KIND u) * 2 ^ 23 +
    s.fget (F.SCH_PU_INDEX u) * 2 ^ 11 + s.fget (F.SCH_PU_PHASE u)

/-- The staged units, ascending: number, address and word. A unit with MODE OFF names nothing. -/
def State.staged (s : State) : List (Nat × Nat × QWord) :=
  ((List.range 64).map fun u => (u, s.puAddr u, kvGet 0#128 s.sch.stgW u)).filter fun e => puMode e.2.1 != 0

/-- A staged unit breaks STATE or ADDR (R194); at load time STATE does not apply (R292). -/
def State.unitFault (s : State) (loadTime : Bool) (a : Nat) : Option Nat :=
  let c := puClause a
  let top := if puMode a = 3 then 1023 else if puKind a = 1 then 23 else 511
  if !loadTime && (s.load.img.isNone || s.loadingClause c || s.closedTo 2 c) then some 3
  else if !(s.clause c).loaded || decide (s.seq.depth ≤ puPhase a) || decide (top < puIndex a) ||
      (puMode a == 3 && (puKind a != 0 || puPhase a != 0)) then some 2
  else none

/-- The clauses that staged units name, each with its lowest-numbered unit, in the order of those. -/
def namedClauses (us : List (Nat × Nat × QWord)) : List (Nat × Nat) :=
  us.foldl (fun l e => if l.any (fun x => x.1 == puClause e.2.1) then l else l ++ [(puClause e.2.1, e.1)]) []

/-- The check of an application: RESULT, REASON, UNIT of its first failure (R194). -/
def State.patchFault (s : State) (loadTime : Bool) : Option (Nat × Nat × Nat) :=
  let us := s.staged
  if !loadTime && (s.load.img.isNone || s.designLoad) then some (3, 0, ((us.head?).map Prod.fst).getD 0)
  else
    match us.findSome? fun e => (s.unitFault loadTime e.2.1).map fun r => (r, 0, e.1) with
    | some f => some f
    | none =>
      let overlaying := us.map fun e => (e.2.1, e.2.2)
      let named := namedClauses us
      match named.findSome? fun e => (parseClause (s.parseCtx e.1 overlaying)).map fun f => (1, f.reason, e.2) with
      | some f => some f
      | none =>
        (rimClash s.seq.depth (s.loadedClauses.flatMap fun c => xoutsOf c (s.parseCtx c overlaying).words)).map fun f =>
          (1, 0x18, ((named.filter fun e => e.1 == f.2.1 || e.1 == f.2.2.1).map Prod.snd).foldl min 63)

/-- A DICT unit writes its entry in the master and in every working copy (R75, R191). -/
def dictWrite (c e : Nat) (v : Word) (s : State) : State :=
  s.modClause c fun x => { x with
    dictW := kvSet 0 x.dictW e v, dictM := kvSet 0 x.dictM e v
    dictBad := x.dictBad.filter fun b => b.1 % 1024 != e
    dictUe := x.dictUe.filter fun b => b.1 % 1024 != e }

/-- All 64 staged units become active together (R191, R193): DICT units write and turn OFF. -/
def patchSwap (s : State) : State :=
  let s1 := (List.range 64).foldl (fun s u =>
    let a := s.puAddr u
    let w := kvGet 0#128 s.sch.stgW u
    let s := if puMode a = 3 then
        (dictWrite (puClause a) (puIndex a) (w.setWidth 32) s).fset (F.SCH_PU_MODE u) 0
      else s
    { s with sch := { s.sch with
      actA := kvSet 0 s.sch.actA u (if puMode a = 3 then a % 2 ^ 30 else a), actW := kvSet 0#128 s.sch.actW u w } }) s
  sigEpoch 0 s1

/-- An application ends with RESULT, REASON, UNIT and the step of the packet (R194, R205). -/
def patchReport (result reason unit : Nat) (step : List Nat) (s : State) : State :=
  ((((({ s with sch := { s.sch with patch := none } }).fset F.SCH_STAT_PATCH_BUSY 0).fset F.SCH_PATCH_APPLY 0).fset
    F.SCH_PATCH_RESULT result).fset F.SCH_PATCH_REASON reason).fset F.SCH_PATCH_UNIT unit |>.raise
    F.SCH_EVT_PATCH 6 6 ([result, reason, unit] ++ step)

/-- The check and, where it passes, the swap (R193, R194). REASON outside PARSE, UNIT of an application without a failing
unit, and the first step of one that changed nothing are not stated: free values (log 4). -/
def patchFinish (loadTime : Bool) (s : State) : State :=
  let r := s.freshNat
  match s.patchFault loadTime with
  | none =>
    let s1 := patchSwap r.2
    patchReport 0 (r.1 % 256) (r.1 / 256 % 64) (w64 s.seq.step) s1
  | some (res, reason, unit) =>
    let q := r.2.fresh64
    patchReport res (if res = 1 then reason else r.1 % 256)
      (if s.staged.isEmpty then r.1 / 256 % 64 else unit) q.1 q.2

/-- A patch application whose boundary has come on a device that is not stepping applies at once, with no ellipsis counted, once
no migration runs (R138, R193). -/
def patchNow (s : State) : State :=
  if s.sch.patch == some .due && !s.stepping && s.atPhase0 && !s.migRuns then patchFinish false s else s

/-- SCH_PATCH written with APPLY = 1 (R193, R194). -/
def patchApply (s : State) : State :=
  if s.sch.patch.isSome then
    let r := s.freshNat
    let q := r.2.fresh64
    (q.2.fset F.SCH_PATCH_RESULT 4).raise F.SCH_EVT_PATCH 6 6 ([4, r.1 % 256, r.1 / 256 % 64] ++ q.1)
  else
    let phase := if !s.stepping && s.atPhase0 then PatchPhase.due else PatchPhase.pending
    patchNow ((({ s with sch := { s.sch with patch := some phase } }).fset F.SCH_PATCH_APPLY 1).fset F.SCH_STAT_PATCH_BUSY 1)

/-- At the boundary it waited for the application holds it and the check begins, once no migration runs (R138, R193). -/
def patchHoldBegin (s : State) : State :=
  if s.sch.patch == some .due && !s.migRuns then { s with sch := { s.sch with patch := some .hold } } else s

/-- The hold ends (R193, R194). -/
def patchHoldEnd (s : State) : State := if s.sch.patch == some .hold then patchFinish false s else s

/-! ### The commands -/

/-- READ_REPAIR_WRITEBACK (R179). -/
def execReadRepairWriteback (c row word : Nat) (s : State) : Host.Outcome State Fault Refusal :=
  .next (writeBack c row word s)

/-- SCRUB_ROW_READ (R183). -/
def execScrubRowRead (c : Nat) (ups : List Upset) (s : State) : Host.Outcome State Fault Refusal :=
  .next (scrubRow c (upsets ups s))

/-- PARAM_CHECK (R187). -/
def execParamCheck (rim : Bool) (struck : Option (Nat × Nat)) (s : State) : Host.Outcome State Fault Refusal :=
  .next (paramCheck rim struck s)

/-- SCH_PARAM (R199). -/
def execSchParam (s : State) : Host.Outcome State Fault Refusal := .next (schParamPost s)

/-- SCH_RMAP_GO (R189). -/
def execSchRmapGo (c row : Nat) (s : State) : Host.Outcome State Fault Refusal := .next (rmapGo c row s)

/-- SCH_PATCH_APPLY (R193). -/
def execSchPatchApply (s : State) : Host.Outcome State Fault Refusal := .next (patchApply s)

/-- PATCH_BOUNDARY_HOLD (R193). -/
def execPatchBoundaryHold (s : State) : Host.Outcome State Fault Refusal := .next (patchHoldBegin s)

end Sys2Proof.Machine
end

