-- ==== Sys2Proof/Machine/Cls.lean ====
section
/-! DEFINITION. Cls.lean: the commands of the clauses outside a step: the dictionary sweep and rewrite, and phrase sparing
(R76, R77, R133 to R139). -/
namespace Sys2Proof.Machine

/-- Outcomes of a sparing request (R133). -/
def spareDone : Nat := 0
def spareInUse : Nat := 1
def spareTarget : Nat := 2
def spareSelftest : Nat := 3
def spareVerify : Nat := 4
def spareLoading : Nat := 5

/-- CLS_SPARE.RESULT is set, GO falls and CLS_SPARE is raised (R137, R147). -/
def spareReport (c target result hold : Nat) (s : State) : State :=
  ((s.fset (F.CLS_SPARE_GO c) 0).fset (F.CLS_SPARE_RESULT c) result).raise (F.CLS_EVT_SPARE c) (0x80 + c) 7
    ([target, result] ++ w64 s.seq.step ++ [hold])

/-- The first refusal that applies to a sparing request (R133). -/
def State.spareRefusal (s : State) (c target : Nat) : Option Nat :=
  let x := s.clause c
  if 63 < target then some spareTarget
  else if s.loadingClause c then some spareLoading
  else if x.spared then some spareInUse
  else if !x.marchOk then some spareSelftest
  else none

/-- The sequencer is in a state in which a migration counts no ellipsis (R135). -/
def State.migFree (s : State) : Bool := !(s.seq.st == .running || s.seq.st == .ellipsis)

/-- CLS_SPARE written with GO = 1 (R133 to R135). While a RELOAD has begun whose directory has not been read, the request
waits to see whether it names the clause (log 56). -/
def spareGo (c target : Nat) (s : State) : State :=
  let s1 := s.fset (F.CLS_SPARE_TARGET c) target
  if (s.clause c).mig.isSome || (s.clause c).sparePend.isSome then s1
  else if target ≤ 63 && s.reloadUnread then
    (s1.fset (F.CLS_SPARE_GO c) 1).modClause c fun x => { x with sparePend := some target }
  else
    match s.spareRefusal c target with
    | some r => spareReport c target r 0 s1
    | none =>
      if !(s.clause c).loaded then
        spareReport c target spareDone 0 (s1.modClause c fun x => { x with spared := true, retired := target })
      else
        (s1.fset (F.CLS_SPARE_GO c) 1).modClause c fun x => { x with
          mig := some { target := target, noHold := s.migFree }, spareStep := s.seq.step }

/-- The sparing requests that waited for the directory of a RELOAD are decided (R133). -/
def spareDecide (s : State) : State :=
  (List.range 64).foldl (fun s c => match (s.clause c).sparePend with
    | some t => spareGo c t (s.modClause c fun x => { x with sparePend := none })
    | none => s) s

/-- Entries of the retired phrase that fail parity are copied as read and reported (R137). -/
def migrateParity (c target : Nat) (s : State) : State :=
  let x := s.clause c
  let mine := fun bp : Nat => bp / 8 == target
  let s1 := (x.vsBad.filter fun e => mine (e.1 / 256)).foldl (fun s e =>
    (s.count (F.CLS_CNT_VSPAR_COUNT c)).raise (F.CLS_EVT_VS_PARITY c) (0x80 + c) 3
      ([e.1 / 256, e.1 % 256] ++ w64 s.seq.step)) s
  (x.cq.zipIdx.filter fun e => e.1.bad && mine e.1.bp).foldl (fun s e =>
    (s.count (F.CLS_CNT_CQPAR_COUNT c)).raise (F.CLS_EVT_CQ_PARITY c) (0x80 + c) 4
      ([e.1.bp, ((x.cq.take e.2).filter fun y => y.bp == e.1.bp).length] ++ w64 s.seq.step)) s1

/-- A migration ends after `mismatches` failed comparisons and `cycles` STEP cycles (R135 to R137). A checkpoint and a patch application that
waited for it at the same boundary begin; the patch applies at once where the device is not stepping (R138, R193). -/
def migrationEnd (c mismatches cycles : Nat) (s : State) : State :=
  match (s.clause c).mig with
  | none => s
  | some g =>
    let s1 := (migrateParity c g.target s).modClause c fun x => { x with mig := none }
    if 2 ≤ mismatches then patchNow (ckptStart (spareReport c g.target spareVerify cycles s1))
    else
      let mine := fun bp : Nat => bp / 8 == g.target
      patchNow (ckptStart (spareReport c g.target spareDone cycles (s1.modClause c fun x => { x with
        spared := true, retired := g.target
        vsBad := x.vsBad.filter fun e => !mine (e.1 / 256)
        cq := x.cq.map fun q => if mine q.bp then { q with bad := false } else q })))

/-- The sweep of a working copy reads one entry; a retired phrase is clock-gated (R77, R135). -/
def dictSweep (c ph e : Nat) (s : State) : State :=
  let x := s.clause c
  if x.spared && x.retired == ph then s else dictOutcome c ph e w64none s

/-- Firmware rewrites every working copy of an entry from the master (R76). -/
def dictRewrite (c e : Nat) (s : State) : State :=
  s.modClause c fun x => { x with
    dictW := kvSet 0 x.dictW e (kvGet 0 x.dictM e)
    dictBad := x.dictBad.filter fun b => b.1 % 1024 != e
    dictUe := x.dictUe.filter fun b => b.1 % 1024 != e }

/-- DICT_SWEEP_READ (R77). -/
def execDictSweepRead (c ph e : Nat) (ups : List Upset) (s : State) : Host.Outcome State Fault Refusal :=
  .next (dictSweep c ph e (upsets ups s))

/-- DICT_UE_REWRITE (R76). -/
def execDictUeRewrite (c e : Nat) (s : State) : Host.Outcome State Fault Refusal := .next (dictRewrite c e s)

/-- CLS_SPARE_GO (R133). -/
def execClsSpareGo (c target : Nat) (s : State) : Host.Outcome State Fault Refusal := .next (spareGo c target s)

/-- SPARE_MARCH_PASS: the spare phrase is tested only while it is unused (R133). -/
def execSpareMarchPass (c : Nat) (passed : Bool) (s : State) : Host.Outcome State Fault Refusal :=
  .next (if (s.clause c).spared || (s.clause c).mig.isSome then s
    else s.modClause c fun x => { x with marchOk := passed })

end Sys2Proof.Machine
end

