-- ==== Sys2Proof/Machine/Plt.lean ====
section
/-! DEFINITION. Plt.lean: the commands of the platform block: root PLLs, operating points, throttling, platform time,
calibration scheduling, power domains, resets and SMBus (R556 to R588). -/
namespace Sys2Proof.Machine

/-! ### Root PLLs (R557 to R559) -/

/-- Root r, 0 A or 1 B, is good. -/
def State.rootOk (s : State) (r : Nat) : Bool := if r = 0 then s.fbit F.PLT_STAT_ROOTA_OK else s.fbit F.PLT_STAT_ROOTB_OK

/-- A root becomes good or bad. -/
def setRoot (r : Nat) (ok : Bool) (s : State) : State :=
  if r = 0 then s.fsetb F.PLT_STAT_ROOTA_OK ok else s.fsetb F.PLT_STAT_ROOTB_OK ok

/-- A switchover starts: STEP is held at a step boundary (R558). -/
def switchStart (s : State) : State :=
  { s with plt := { s.plt with clockHold := true } }.fset F.PLT_STAT_SW_BUSY 1

/-- The active root fails: 0 lock lost, 1 frequency (R558, R559). -/
def rootPllFail (kind : Nat) (s : State) : State :=
  let a := s.fget F.PLT_STAT_ROOT
  if !s.rootOk a then s
  else
    let s1 := setRoot a false s
    if !s1.rootOk (1 - a) then deviceReset .root (s1.raise F.PLT_EVT_PLL_FAIL 0 3 [a, kind, 0])
    else if s.fbit F.PLT_CTL_AUTOSW then (switchStart s1).raise F.PLT_EVT_PLL_FAIL 0 3 [a, kind, 1]
    else
      let s2 : State := { s1 with plt := { s1.plt with clockHold := true } }
      s2.raise F.PLT_EVT_PLL_FAIL 0 3 [a, kind, 0]

/-- The standby root fails (R559). -/
def standbyFail (kind : Nat) (s : State) : State :=
  let a := s.fget F.PLT_STAT_ROOT
  if !s.rootOk (1 - a) then s
  else
    let s1 := (setRoot (1 - a) false s).raise F.PLT_EVT_PLL_FAIL 0 3 [1 - a, kind, 0]
    if s1.rootOk a then s1 else deviceReset .root s1

/-- PLT_CTL.SWREQ is written (R558, R559): ignored while the standby is not good. -/
def swreq (s : State) : State :=
  if !s.rootOk (1 - s.fget F.PLT_STAT_ROOT) || s.fbit F.PLT_STAT_SW_BUSY then s
  else switchStart (s.fset F.PLT_CTL_SWREQ 1)

/-- The standby has become the active root (R558). Platform time gains or loses at most 1 ns: which is a free value.
An operating-point change that waited for the switchover takes effect at the next boundary, or at once where no step runs. -/
def switchDone (s : State) : State :=
  if !s.fbit F.PLT_STAT_SW_BUSY then s
  else
    let p := s.pick [s.ptime, s.ptime + 1, s.ptime - 1]
    let s1 : State := { p.2 with ptime := p.1, plt := { p.2.plt with clockHold := false } }
    let s2 := ((s1.fset F.PLT_STAT_ROOT (1 - s.fget F.PLT_STAT_ROOT)).fset F.PLT_STAT_SW_BUSY 0).fset F.PLT_CTL_SWREQ 0
    if s.stepping then s2 else clockBoundary s2

/-- A failed standby has been retrained (R559). -/
def rootRetrain (passed : Bool) (s : State) : State :=
  let b := 1 - s.fget F.PLT_STAT_ROOT
  if passed && !s.rootOk b then setRoot b true s else s

/-! ### Platform time (R569 to R571) -/

/-- A signed number in the 32 bits of a packet field. -/
def int32 (x : Int) : Nat := (x % 4294967296).toNat

/-- A rising edge of PTIME_PPS (R570): LOAD sets the counter to PTNEXT; MODE 1 measures the error against the last value
plus 10^9, and slews by a rate within 100 ppm that the manual does not give. -/
def ppsEdge (s : State) : State :=
  if s.fbit F.PLT_PTCTL_LOAD then
    let d : Int := (s.plt.ptNext : Int) - (s.ptime : Int)
    ({ s with
        ptime := s.plt.ptNext
        plt := { s.plt with ppsLast := some s.plt.ptNext, streak := 0 } }.fset F.PLT_PTCTL_LOAD 0).raise
      F.PLT_EVT_PPS 0 6 [2, int32 d]
  else if s.fget F.PLT_PTCTL_MODE ≠ 1 then s
  else
    match s.plt.ppsLast with
    | none => { s with plt := { s.plt with ppsLast := some s.ptime } }
    | some v =>
      let err : Int := (s.ptime : Int) - ((v + 1000000000 : Nat) : Int)
      let n := if -2 ≤ err ∧ err ≤ 2 then min 10 (s.plt.streak + 1) else 0
      let r := s.freshNat
      let locked := s.fbit F.PLT_STAT_PPS_LOCK
      let p := r.2.plt
      let s1 : State := { r.2 with plt := { p with
        ptErr := err, corr := (r.1 % 200001 : Nat) - (100000 : Int), ppsLast := some (v + 1000000000), streak := n
        edges := if locked then p.edges + 1 else 0 } }
      if n = 10 ∧ ¬ locked then (s1.fset F.PLT_STAT_PPS_LOCK 1).raise F.PLT_EVT_PPS 0 6 [0, int32 err] else s1

/-- No edge for 1.1 s (R570): PPS_LOCK clears, and the counter runs free on REF. -/
def ppsMissing (s : State) : State :=
  if s.fget F.PLT_PTCTL_MODE ≠ 1 then s
  else
    ({ s with plt := { s.plt with streak := 0, corr := 0, ppsLast := none, edges := 0 } }.fset F.PLT_STAT_PPS_LOCK 0).raise
      F.PLT_EVT_PPS 0 6 [1, int32 s.plt.ptErr]

/-! ### Calibration scheduling (R572) -/

/-- The scheduler defers its requests: a checkpoint is being written, or a migration, a patch application or a reload holds
the boundary. -/
def State.calDeferred (s : State) : Bool := s.seq.ckpt.isSome || s.migRuns || s.patchHold || s.reloadHold

/-- A slice on a stack, unless one runs. -/
def calSlice (k : Nat) (s : State) : State :=
  if s.fget F.MEM_STAT_CAL_BUSY ≠ 0 then s
  else calStart (2 ^ k) false s

/-- A reading has moved by 5 °C since the stack's last slice. -/
def State.tempMoved (s : State) (k : Nat) : Bool :=
  let a := s.fget (htempFld k)
  let b := kvGet 0 s.plt.calTemp k
  decide (b + 5 ≤ a) || decide (a + 5 ≤ b)

/-- A lane rotation of a link (R262): the next lane becomes the spare; at most four rotate at once. -/
def rotate (l : Nat) (s : State) : State :=
  let lane := (s.spareLane l + 1) % 3
  let rotating := ((List.range 32).filter fun k => ((s.link k).sparing.map (·.cal)).getD false).length
  if ((s.link l).st == .up || (s.link l).st == .active) && s.fbit (F.LNK_STAT_SPARE_OK l) && decide (rotating < 4) then
    match s.sparingRefusal l lane with
    | some r => s.raise F.PLT_EVT_CAL 0 7 [1, l, r]
    | none =>
      (ctlPut l (laneWord 1 lane) (sparingStart l lane false false s)).modLink l fun x =>
        { x with sparing := x.sparing.map fun (a : Sparing) => { a with cal := true } }
  else s

/-- The scheduler requests a calibration (R572); an interval of 0 disables that kind. -/
def calSchedule (kind : CalKind) (s : State) : State :=
  if s.calDeferred then s
  else
    match kind with
    | .hbmInterval =>
      if s.fget F.PLT_CAL_HBMMS = 0 then s
      else calSlice s.plt.calNext { s with plt := { s.plt with calNext := (s.plt.calNext + 1) % 4 } }
    | .hbmTemp k => if s.tempMoved k then calSlice k s else s
    | .linkRotation l => if s.fget F.PLT_CAL_LNKMS = 0 then s else rotate l s

/-! ### Power domains (R574, R575) -/

/-- A debugger is attached (R419). -/
def State.attached (s : State) : Bool := decide (1 ≤ s.dbg.tapLevel) || decide (1 ≤ s.dbg.hostLevel)

/-- Sleep is emulated (R435). -/
def State.sleepEmu (s : State) : Bool := s.attached && s.fbit F.DBG_CTL_SLEEPEMU

/-- The HBM range of a stack. -/
def stackLo (k : Nat) : Nat := 0x001000000000 + k * 0x600000000

/-- A range of addresses meets an HBM stack. -/
def onStack (k base size : Nat) : Bool :=
  decide (0 < size) && decide (base < stackLo k + 0x600000000) && decide (stackLo k < base + size)

/-- The stack holds an enabled window, a trace region or a checkpoint slot (R575). -/
def State.stackInUse (s : State) (k : Nat) : Bool :=
  (s.umem.win.any fun e => winEn e.2 && onStack k (winBase e.2) (winSize e.2 * 256)) ||
  (s.cap.sigLog != 0 && onStack k s.cap.sigBase (2 ^ s.cap.sigLog)) ||
  (s.cap.mtLog != 0 && onStack k s.cap.mtBase (2 ^ s.cap.mtLog)) ||
  ([s.seq.ckptBase0, s.seq.ckptBase1].any fun a => a != 0 && onStack k a (128 + Config.ckptLen s.gen))

/-- The first refusal of a power request (R575). -/
def State.gateRefusal (s : State) (d : Nat) (on : Bool) : Option Nat :=
  if s.fbit F.PLT_PGREQ_GO then some 5
  else if 30 ≤ d then some 4
  else if d < 5 then some 1
  else if on then none
  else if 17 ≤ d && decide (d < 25) && (List.range 8).any (fun i => (s.clause (8 * (d - 17) + i)).loaded) then some 2
  else
    let inUse :=
      if d < 9 then s.stackInUse (d - 5)
      else if d < 17 then (List.range 4).any fun i => s.used (4 * (d - 9) + i)
      else if d < 25 then false
      else if d < 27 then s.rim.base
      else if d < 29 then (List.range 4).any fun i =>
        let st := (s.bank (4 * (d - 27) + i)).st
        st != .off && st != .unrel
      else s.cap.sig.on || s.cap.mt.on || (List.range 16).any fun u => s.fbit (F.CAP_TUCTL_EN u)
    if inUse then some 3 else none

/-- The registers of a range of BAR0 offsets at their reset values. -/
def dropFields (lo hi : Nat) (s : State) : State := { s with fields := kvDrop s.fields (32 * lo) (32 * hi) }

/-- What a clause keeps when its group is gated: what lasts until a reset (R139, R188, R190). -/
def Clause.gatedCopy (x : Clause) : Clause :=
  { spared := x.spared, retired := x.retired, marchOk := x.marchOk, rowMap := x.rowMap
    ce := x.ce, ue := x.ue }

/-- A domain loses every state it holds (R575); page retirements last until the next power-on reset (R227). -/
def domainLoses (d : Nat) (s : State) : State :=
  if d < 9 then
    let k := d - 5
    let lo := stackLo k
    let hi := lo + 0x600000000
    ({ s with
        mem := kvDrop s.mem lo hi
        umem := { s.umem with
          bad := kvDrop s.umem.bad lo hi, hbmCe := kvSet 0 s.umem.hbmCe k 0, hbmUe := kvSet 0 s.umem.hbmUe k 0 } }.fset
      F.MEM_STAT_CAL_BUSY (putBit (s.fget F.MEM_STAT_CAL_BUSY) k false)).fset
      F.MEM_CAL_GO (putBit (s.fget F.MEM_CAL_GO) k false)
  else if d < 17 then
    (List.range 4).foldl (fun s i =>
      let l := 4 * (d - 9) + i
      dropFields (0xE10000 + 0x4000 * l) (0xE10000 + 0x4000 * (l + 1)) (s.setLink l {})) s
  else if d < 25 then
    (List.range 8).foldl (fun s i =>
      let c := 8 * (d - 17) + i
      dropFields (0x810000 + 0x10000 * c) (0x810000 + 0x10000 * (c + 1)) (s.modClause c Clause.gatedCopy)) s
  else if d < 27 then rimHalfLoses (d - 25) s
  else if d < 29 then (List.range 4).foldl (fun s i => s.modBank (4 * (d - 27) + i) fun _ => {}) s
  else dropFields 0x1100000 0x1110000 { s with cap := {} }

/-- A domain is gated (R574, R575): its units are absent. Under sleep emulation it keeps its contents, while its units act
as gated (R435). -/
def gateDomain (d : Nat) (s : State) : State :=
  let s1 := s.fset F.PLT_PGSTAT_ON (putBit (s.fget F.PLT_PGSTAT_ON) d false)
  let s2 := if 5 ≤ d && decide (d < 9) then
      s1.fset F.MEM_STAT_HBM_UP (putBit (s.fget F.MEM_STAT_HBM_UP) (d - 5) false) else s1
  let s3 := if 9 ≤ d && decide (d < 17) then (List.range 4).foldl (fun s i => linkOff (4 * (d - 9) + i) s) s2 else s2
  if s.sleepEmu then { s3 with plt := { s3.plt with emu := putBit s3.plt.emu d true } } else domainLoses d s3

/-- PLT_PGATE with its RESULT (R585, R588). -/
def gateReport (d : Nat) (on : Bool) (result : Nat) (s : State) : State :=
  (s.fset F.PLT_PGREQ_RESULT result).raise F.PLT_EVT_PGATE 0 4 [d, on.toNat, result]

/-- PLT_PGREQ written with GO = 1 (R575). -/
def gateRequest (d : Nat) (on : Bool) (s : State) : State :=
  match s.gateRefusal d on with
  | some r => gateReport d on r (if r = 5 then s else (s.fset F.PLT_PGREQ_DOMAIN d).fsetb F.PLT_PGREQ_ON on)
  | none =>
    let s1 := (s.fset F.PLT_PGREQ_DOMAIN d).fsetb F.PLT_PGREQ_ON on
    if !on then gateReport d on 0 (if s.domOn d then gateDomain d s1 else s1)
    else if s.domOn d then gateReport d on 0 s1
    else { s1 with plt := { s1.plt with pgReq := some d } }.fset F.PLT_PGREQ_GO 1

/-- An HBM stack has trained and is filled with 0x55 (R207): it is reported up. -/
def hbmReady (k : Nat) (s : State) : State :=
  if s.domOn (5 + k) || s.plt.pgReq == some (5 + k) then s.fset F.MEM_STAT_HBM_UP (putBit (s.fget F.MEM_STAT_HBM_UP) k true) else s

/-- A powered domain becomes ready (R574, R575): an HBM domain trained and filled, the enabled links of a LINK domain in
training. -/
def domainReady (d : Nat) (s : State) : State :=
  if s.plt.pgReq != some d then s
  else
    let s1 := (s.fset F.PLT_PGSTAT_ON (putBit (s.fget F.PLT_PGSTAT_ON) d true)).fset F.PLT_PGREQ_GO 0
    let s2 : State := { s1 with plt := { s1.plt with emu := putBit s1.plt.emu d false, pgReq := none } }
    let s3 := if 5 ≤ d && decide (d < 9) then hbmReady (d - 5) s2 else s2
    let s4 := if 9 ≤ d && decide (d < 17) then
        (List.range 4).foldl (fun s i =>
          let l := 4 * (d - 9) + i
          if s.fbit (F.LNK_CTL_EN l) then linkEnable l s else s) s3
      else s3
    gateReport d true 0 s4

/-! ### Resets by key (R579) -/

/-- A requester may take the software reset: the control pair in M-mode, or the host path at L2; which of the two. -/
def State.rstPath (s : State) : Requester → Option Bool
  | .control true => some true
  | .hif | .dbg .host => if 2 ≤ s.dbg.hostLevel then some false else none
  | _ => none

/-- A key is written to PLT_RST (R579): the first opens a window of 1,024 MGT cycles, the second within it resets. -/
def rstKey (req : Requester) (key : BitVec 16) (s : State) : State :=
  match s.rstPath req with
  | none => s
  | some p =>
    if key = 0xA55A#16 then { s with plt := { s.plt with rstLeft := some (1024, p) } }
    else if key = 0x5AA5#16 ∧ (s.plt.rstLeft.map fun e => e.2 == p) = some true then deviceReset .software s
    else s

/-! ### The commands -/

/-- OPP_WRITE (R562). -/
def execOppWrite (code : Nat) (s : State) : Host.Outcome State Fault Refusal := .next (oppWrite code s)

/-- OPP_SETTLE (R562). -/
def execOppSettle (s : State) : Host.Outcome State Fault Refusal := .next (oppSettle s)

/-- SSC_WRITE (R561). -/
def execSscWrite (on : Bool) (s : State) : Host.Outcome State Fault Refusal := .next (sscWrite on s)

/-- THRMIN_WRITE (R566). -/
def execThrminWrite (level : BitVec 4) (s : State) : Host.Outcome State Fault Refusal := .next (thrminWrite level.toNat s)

/-- ROOT_PLL_FAIL (R558). -/
def execRootPllFail (kind : Nat) (s : State) : Host.Outcome State Fault Refusal := .next (rootPllFail kind s)

/-- STANDBY_ROOT_FAIL (R559). -/
def execStandbyRootFail (kind : Nat) (s : State) : Host.Outcome State Fault Refusal := .next (standbyFail kind s)

/-- SWREQ (R558). -/
def execSwreq (s : State) : Host.Outcome State Fault Refusal := .next (swreq s)

/-- SWITCHOVER_COMPLETE (R558). -/
def execSwitchoverComplete (s : State) : Host.Outcome State Fault Refusal := .next (switchDone s)

/-- ROOT_RETRAIN (R559). -/
def execRootRetrain (passed : Bool) (s : State) : Host.Outcome State Fault Refusal := .next (rootRetrain passed s)

/-- SENSOR_SAMPLE (R565). -/
def execSensorSample (temps : List (BitVec 16)) (s : State) : Host.Outcome State Fault Refusal :=
  .next (sensorSample temps s)

/-- THROTTLE_UPDATE (R566). -/
def execThrottleUpdate (src : ThrottleSource) (powerW : Nat) (s : State) : Host.Outcome State Fault Refusal :=
  .next (throttleStep (src == .thermal) powerW s)

/-- DROOP_DETECT (R566). -/
def execDroopDetect (monitor mv : Nat) (s : State) : Host.Outcome State Fault Refusal := .next (droopDetect monitor mv s)

/-- DROOP_RELEASE (R566). -/
def execDroopRelease (s : State) : Host.Outcome State Fault Refusal := .next (droopRelease s)

/-- THERMTRIP (R568). -/
def execThermtrip (_sensor : Nat) (s : State) : Host.Outcome State Fault Refusal := .next (thermtrip s)

/-- PLT_AVS (R563). -/
def execPltAvs (kind measured : Nat) (s : State) : Host.Outcome State Fault Refusal := .next (avsFail kind measured s)

/-- AVS_DEVIATION_CLEAR (R563). -/
def execAvsDeviationClear (s : State) : Host.Outcome State Fault Refusal := .next (avsClear s)

/-- AGING_CHECK (R564). -/
def execAgingCheck (counts : List Word) (s : State) : Host.Outcome State Fault Refusal := .next (agingCheck counts s)

/-- PPS_LOAD (R570). -/
def execPpsLoad (s : State) : Host.Outcome State Fault Refusal := .next (s.fset F.PLT_PTCTL_LOAD 1)

/-- PPS_EDGE (R570). -/
def execPpsEdge (s : State) : Host.Outcome State Fault Refusal := .next (ppsEdge s)

/-- PPS_MISSING (R570). -/
def execPpsMissing (s : State) : Host.Outcome State Fault Refusal := .next (ppsMissing s)

/-- CAL_SCHEDULE (R572). -/
def execCalSchedule (kind : CalKind) (s : State) : Host.Outcome State Fault Refusal := .next (calSchedule kind s)

/-- PGREQ_GATE (R575). -/
def execPgreqGate (domain : Nat) (s : State) : Host.Outcome State Fault Refusal := .next (gateRequest domain false s)

/-- PGREQ_POWER (R575). -/
def execPgreqPower (domain : Nat) (s : State) : Host.Outcome State Fault Refusal := .next (gateRequest domain true s)

/-- DOMAIN_READY (R575). -/
def execDomainReady (domain : Nat) (s : State) : Host.Outcome State Fault Refusal := .next (domainReady domain s)

/-- PLT_RST_KEY (R579). -/
def execPltRstKey (req : Requester) (key : BitVec 16) (s : State) : Host.Outcome State Fault Refusal :=
  .next (rstKey req key s)

/-- DEVICE_RESET (R579). -/
def execDeviceReset (cause : ResetCause) (s : State) : Host.Outcome State Fault Refusal := .next (deviceReset cause s)

/-- PORST_N_RELEASE (R580). -/
def execPorstNRelease (s : State) : Host.Outcome State Fault Refusal := .next (porstRelease s)

/-- ROOT_LOCK (R580). -/
def execRootLock (s : State) : Host.Outcome State Fault Refusal := .next (rootLock s)

/-- HBM_TRAIN_COMPLETE (R207). -/
def execHbmTrainComplete (stack : Nat) (s : State) : Host.Outcome State Fault Refusal := .next (hbmReady stack s)

/-- SMB_TMAX (R581). -/
def execSmbTmax (s : State) : Host.Outcome State Fault Refusal := .next (s.emit (.smbus (s.fget F.PLT_STAT_TMAX)))

/-- SMB_THROTTLE (R581). -/
def execSmbThrottle (s : State) : Host.Outcome State Fault Refusal :=
  .next (s.emit (.smbus (s.fget F.PLT_STAT_THR * 16 + s.fget F.PLT_STAT_OPPACT)))

/-- SMB_RSTCAUSE (R581). -/
def execSmbRstcause (s : State) : Host.Outcome State Fault Refusal :=
  .next (s.emit (.smbus (if s.plt.inReset then 0xFF else s.fget F.PLT_RSTCAUSE_CAUSE)))

/-- SMB_ALERT_STATUS (R581). -/
def execSmbAlertStatus (s : State) : Host.Outcome State Fault Refusal :=
  .next (s.emit (.smbus (s.plt.thermTrip.toNat + 2 * s.alert.toNat)))

/-- SMB_VDD_STEP_MV (R581). -/
def execSmbVddStepMv (s : State) : Host.Outcome State Fault Refusal := .next (s.emit (.smbus (s.plt.mv % 2 ^ 16)))

/-- SMB_VDD_STEP_POWER (R581). -/
def execSmbVddStepPower (s : State) : Host.Outcome State Fault Refusal := .next (s.emit (.smbus (s.plt.power % 2 ^ 16)))

end Sys2Proof.Machine
end

