-- ==== Sys2Proof/Machine/Seq.lean ====
section
/-! DEFINITION. Seq.lean: the commands of the step sequencer (R25 to R59). -/
namespace Sys2Proof.Machine

/-! ### Steps and ellipses -/

/-- STEP_EXECUTE: at a boundary where every condition of R28 holds the next step executes; where one fails, the ellipsis
begins (R29). -/
def seqStep (ups : List Upset) (s : State) : State :=
  if s.seq.st == .running && s.seq.depth != 0 then
    if s.causes.isEmpty then doStep ups s else ellipsisBegin .ellipsis s
  else s

/-- ELLIPSIS_END: the last missing condition is met, the ellipsis is counted, a clock change that waits for the boundary at
which it ends takes effect, and the next step executes (R23, R29, R32). -/
def seqEllipsisEnd (ups : List Upset) (s : State) : State :=
  if s.seq.st == .ellipsis && s.causes.isEmpty then
    let s1 := ellipsisClose s
    let s2 := clockBoundary { s1 with seq := { s1.seq with st := .running } }
    if s2.seq.depth = 0 then s2 else doStep ups s2
  else s

/-- SEQ_LONG_ELLIPSIS: the limit timer has passed LIMIT_US; once for the ellipsis (R34). -/
def seqLong (s : State) : State :=
  let lim := s.fget F.SEQ_ELLIM_LIMIT_US
  if (s.seq.st == .ellipsis || s.seq.st == .dbgHold) && lim != 0 && decide (lim * 1000 < s.seq.ellNs) && !s.seq.longRaised then
    ({ s with seq := { s.seq with longRaised := true } }).raise F.SEQ_EVT_LONG 5 1
      (w64 s.seq.step ++ [s.causeBits.toNat, s.seq.ellNs / 1000])
  else s

/-- The groups that hold the next step count the STEP cycles of a ns (R360). DESIGN CHOICE (log 62): at the frequency of the
operating point and the throttle level, without the spread. -/
def rimHeld (s : State) : State :=
  (List.range 16).foldl (fun s g =>
    if s.inReady g s.seq.step && s.outReady g then s
    else s.modGroup g fun x => { x with held := x.held + s.stepKhz }) s

/-- `d` ns of platform time pass in an ellipsis or a debug hold (R32, R34). -/
def ellipsisTick (d : Nat) (s : State) : State :=
  if s.seq.st == .ellipsis || s.seq.st == .dbgHold then
    let s1 := rimHeld (ellipsisSample s)
    let cs := s1.causes
    let only := decide (cs.dedup = [13]) || decide (cs.dedup = [12])
    { s1 with seq := { s1.seq with
      causeDur := cs.dedup.foldl (fun m k => kvMod 0 m k (· + d)) s1.seq.causeDur
      ellNs := if only then s1.seq.ellNs else s1.seq.ellNs + d } }
  else s

/-! ### Run control (R40 to R47) -/

/-- The lowest PEER item in which the partner of a used link differs, 0xFF where the link is not ACTIVE, none where all
agree (R21, R41, R59, R252). -/
def State.peerDiffers (s : State) (l : Nat) : Option Nat :=
  let x := s.link l
  if x.st != .active then some 0xFF
  else
    match (List.range 7).find? fun k => kvGet none x.items k != some (s.peerItem l k) with
    | some 6 => some 5
    | some k => some k
    | none => if ((kvGet none x.items 7).map x.slotAgrees).getD false then none else some 7

/-- The largest pinned latency of the used links (R41). -/
def State.lmax (s : State) : Nat := s.usedLinks.foldl (fun m l => max m (s.link l).slot.lat) 0

/-- The checks of R21, R41 and R252; a device whose slot maps use no link skips them. The state after a refusal. -/
def State.runRefused (s : State) : Option State :=
  let used := s.usedLinks
  if used.isEmpty then none
  else
    let bad := used.filter fun l => (s.peerDiffers l).isSome
    match bad with
    | l :: _ => some (s.raise F.SEQ_EVT_PEER 5 4 [maskOf 32 fun k => bad.contains k, (s.peerDiffers l).getD 0])
    | [] =>
      let d := s.fget F.SEQ_FENCE_DIST
      let m := s.fget F.SEQ_DIAM_DIAM
      if m * (s.lmax + 16) < d then none else some (s.raise F.SEQ_EVT_FENCE_SHORT 5 5 [d, m, s.lmax])

/-- A STOPAT below the step counter is discarded (R46). -/
def stopatCheck (s : State) : State :=
  if s.fbit F.SEQ_CTL_STOPAT_EN && decide (s.seq.stopAt < s.seq.step) then
    (s.fset F.SEQ_CTL_STOPAT_EN 0).raise F.SEQ_EVT_CMD 5 9 ([1] ++ w64 s.seq.stopAt ++ w64 s.seq.step)
  else s

/-- RUN (bit 0), STEP1 (bit 2) or UCYC1 (bit 3) written to SEQ_CTL, as one command (R40, R41, R46, R47). -/
def seqGo (bits : Nat) (s : State) : State :=
  match s.seq.st with
  | .idle => s.raise F.SEQ_EVT_CMD 5 9 ([0] ++ w64 bits ++ w64 s.seq.step)
  | .running | .ellipsis | .dbgHold => s
  | .ready | .stopped =>
    match s.runRefused with
    | some r => r
    | none =>
      let s1 := stopatCheck (if s.atPhase0 then latchTokens s else s)
      let d := s.seq.depth
      let stop := if nbit bits 2 then some s.seq.step
        else if nbit bits 3 then some (s.seq.step - s.seq.step % d + d - 1) else none
      let s2 := { s1 with seq := { s1.seq with
        st := .running, stopStep := stop
        lastStart := (s1.fget F.SEQ_FENCE_DIST, s1.fget F.SEQ_DIAM_DIAM, s1.fget F.SEQ_CKPT_INTERVAL) } }
      if s2.causes.isEmpty then s2 else ellipsisBegin .ellipsis s2

/-- SEQ_CTL.STOP written (R42, R54). -/
def seqStopWrite (s : State) : State := stopRequest s

/-- SEQ_CTL.STOPAT_EN written 1 (R45, R46). -/
def seqStopat (s : State) : State := stopatCheck (s.fset F.SEQ_CTL_STOPAT_EN 1)

/-! ### Checkpoints (R49, R50) -/

/-- The body of a checkpoint (R49, R599): its 64-byte header and what only the device reads, LEN bytes in all. -/
def ckptBody (c : Ckpt) : List Byte :=
  c.hdr ++ (List.range (Config.ckptLen c.gen)).map fun k => Config.ckptByte c (64 + k)

/-- The 64-byte commit record (R49). -/
def ckptRecord (c : Ckpt) : List Byte :=
  let body := ckptBody c
  let head := leBytes 4 0x54504B43 ++ leBytes 2 c.gen ++ leBytes 2 c.twostate.toNat ++ leBytes 8 c.ucyc ++
    leBytes 8 body.length ++ leBytes 4 (crc32c body).toNat
  head ++ leBytes 4 (crc32c head).toNat ++ List.replicate 32 0#8

/-- Bytes written where a checkpoint slot lies: HBM or host memory (R49). -/
def slotWrite (a : Nat) (bs : List Byte) (s : State) : State :=
  if isHost a then s.emit (.hostWrite a bs) else if isHbm a then (nocWrite 3 a bs s).2 else s

/-- The frames sent before the boundary, and the rim entries it holds, have all arrived (R48, R348). -/
def State.ckptFramesIn (s : State) : Bool :=
  (s.usedLinks.all fun l => decide (s.seq.step ≤ (s.link l).expect)) && s.ckptRimIn

/-- CHECKPOINT_COMPLETE: the writes have finished, or one has failed at an address (R50). The boundary is released. -/
def ckptComplete (ok : Bool) (failAddr : Nat) (s : State) : State :=
  match s.seq.ckpt with
  | none => s
  | some (slot, c) =>
    if ok then
      if !s.ckptFramesIn then s
      else
        let c := { c with
          frames := s.usedLinks.map fun l => (l, s.ckptFrames l)
          lanes := ((List.range 16).filter s.inEn).map fun g => (g, s.ckptLanes g) }
        let s1 := slotWrite c.base (ckptRecord c) (slotWrite (c.base + 64) (ckptBody c) s)
        let s2 := { s1 with seq := { s1.seq with
          ckpt := none, ckptNext := 1 - slot, ckpts := kvSet none s1.seq.ckpts c.base (some c) } }
        (s2.fset F.SEQ_CKPT_STAT_LAST_OK 1).raise F.SEQ_EVT_CKPT_DONE 5 6 (w64 c.ucyc ++ [slot])
    else
      (({ s with seq := { s.seq with ckpt := none } }).fset F.SEQ_CKPT_STAT_LAST_OK 0).raise F.SEQ_EVT_CKPT_FAIL 5 7
        (w64 c.ucyc ++ [slot] ++ w64 failAddr)

/-! ### The commands -/

/-- STEP_EXECUTE (R28). -/
def execStepExecute (ups : List Upset) (s : State) : Host.Outcome State Fault Refusal := .next (seqStep ups s)

/-- ELLIPSIS_END (R29). -/
def execEllipsisEnd (ups : List Upset) (s : State) : Host.Outcome State Fault Refusal := .next (seqEllipsisEnd ups s)

/-- SEQ_LONG_ELLIPSIS (R34). -/
def execSeqLongEllipsis (s : State) : Host.Outcome State Fault Refusal := .next (seqLong s)

/-- RUN (R40). -/
def execRun (s : State) : Host.Outcome State Fault Refusal := .next (seqGo 1 s)

/-- STEP1 (R40). -/
def execStep1 (s : State) : Host.Outcome State Fault Refusal := .next (seqGo 4 s)

/-- UCYC1 (R40). -/
def execUcyc1 (s : State) : Host.Outcome State Fault Refusal := .next (seqGo 8 s)

/-- STOP (R42). -/
def execStop (s : State) : Host.Outcome State Fault Refusal := .next (seqStopWrite s)

/-- STOPAT_ENABLE (R46). -/
def execStopatEnable (s : State) : Host.Outcome State Fault Refusal := .next (seqStopat s)

/-- CHECKPOINT_COMPLETE (R50). -/
def execCheckpointComplete (ok : Bool) (failAddr : DWord) (s : State) : Host.Outcome State Fault Refusal :=
  .next (ckptComplete ok failAddr.toNat s)

/-- SEQ_TMR: the vote rewrites a copy and reports the fields; the state is the voted one (R53). -/
def execSeqTmr (mask : Word) (s : State) : Host.Outcome State Fault Refusal :=
  .next (s.raise F.SEQ_EVT_TMR 5 8 [mask.toNat])

end Sys2Proof.Machine
end

