-- ==== Sys2Proof/Machine/Dbg.lean ====
section
/-! DEFINITION. Dbg.lean: authorisation, run control, array operations, the management pairs under debug, cross-trigger inputs
and the TAP instructions (R417 to R450). -/
namespace Sys2Proof.Machine

/-! ### Code that a core fetches (R514, R523) -/

/-- Content byte o of a FIRMWARE section whose first frame lies at a flash address (R514). -/
def State.aliasByte (s : State) (base o : Nat) : Byte := s.flashGet (base + 528 * (o / 512) + o % 512)

/-- The flash address that MGT_CODEBASE names (R531). -/
def State.codebase (s : State) : Nat := s.fget F.MGT_CODEBASE_SECBASE * 16

/-- One byte that a core of a pair fetches: through the control pair's code alias, where the lowest active patch unit on its line
acts, or at a NoC address (R514, R523). -/
def State.codeByte (s : State) (p a : Nat) : Byte :=
  if p = 0 ∧ 0xB0000000 ≤ a ∧ a < 0xB4000000 then
    let o := a - 0xB0000000
    match (s.mgt.fpa.filterMap Prod.snd).find? fun (u : FpUnit) => u.en && u.line == o - o % 32 with
    | some u => if u.brk then s.aliasByte s.codebase o else u.data.getD (o % 32) 0#8
    | none => s.aliasByte s.codebase o
  else if isFlash a then s.flashGet (a - 0xA0000000)
  else s.byteAt a

/-! ### Levels (R417 to R420, R424) -/

/-- The level of a path. -/
def State.level (s : State) : Path → Nat
  | .tap => s.dbg.tapLevel
  | .host => s.dbg.hostLevel

/-- The higher of the two levels. -/
def State.topLevel (s : State) : Nat := max s.dbg.tapLevel s.dbg.hostLevel

/-- A write is refused for its level (R417). -/
def wref (s : State) : State := s.fset F.DBG_STAT_WREF 1

/-- The sequencer leaves DBG_HOLD (R40, R427, R450): cause 0 RESUME, 1 STEP, 2 level drop. A fence step below the counter
that it learned of in the hold stops it at this boundary (R44, log 55). -/
def seqResume (cause : Nat) (s : State) : State :=
  if s.seq.st == .dbgHold then
    let s1 := ellipsisSample
      ({ s with seq := { s.seq with st := .ellipsis } }.raise F.DBG_EVT_HALT 13 2 ([0, 1, cause] ++ w64 s.seq.step))
    match s1.seq.fence with
    | some (f, dev) => if f < s1.seq.step then lateStop f dev s1 else s1
    | none => s1
  else s

/-- A halted pair resumes (R432, R450). -/
def pairResume (p cause : Nat) (s : State) : State :=
  if (s.pair p).halted then
    mtHalt p false ((s.modPair p fun x => { x with halted := false, haltReq := none, waitM := false }).raise
      F.DBG_EVT_HALT 13 2 ([p + 1, 1, cause] ++ w64 (s.pair p).pc.toNat))
  else s

/-- Domains that sleep emulation kept powered are gated once it ends (R435, R575). -/
def sleepEnd (s : State) : State :=
  if s.sleepEmu then s
  else
    (List.range 30).foldl (fun s d => if nbit s.plt.emu d then domainLoses d s else s)
      { s with plt := { s.plt with emu := 0 } }

/-- The level that a halt of a pair needs (R420, R447). -/
def State.pairLevel (s : State) (p : Nat) : Nat := if p = 1 ∨ (s.pair p).priv = 3 then 3 else 2

/-- A path's level has fallen (R424): what no path covers any longer resumes. -/
def levelFell (s : State) : State :=
  let s1 := [0, 1].foldl (fun s p => if s.topLevel < s.pairLevel p then pairResume p 2 s else s) s
  sleepEnd (if s1.topLevel = 0 then seqResume 2 s1 else s1)

/-- A path's level is set; what the management trace leaves out follows it (R396). -/
def setLevel (p : Path) (l : Nat) (s : State) : State :=
  let s1 : State := { s with dbg := match p with
    | .tap => { s.dbg with tapLevel := l }
    | .host => { s.dbg with hostLevel := l } }
  mtWatch 1 (mtWatch 0 (if l < s.level p then levelFell s1 else s1))

/-! ### Authorisation (R421 to R423, R549) -/

/-- The number of a path in payloads: 0 TAP, 1 host. -/
def pathNum : Path → Nat
  | .tap => 0
  | .host => 1

/-- An authorisation request reports its RESULT (R423, R443, R450); WAIT raises no event. -/
def authReport (p : Path) (level method result : Nat) (s : State) : State :=
  let s1 := ((s.fset F.DBG_AUTH_LEVEL level).fset F.DBG_AUTH_METHOD method).fset F.DBG_AUTH_RESULT result
  if result = 0xFE then s1 else s1.raise F.DBG_EVT_AUTH 13 1 [pathNum p, level, method, result]

/-- A request of another path runs (R423). -/
def State.authBusy (s : State) (p : Path) : Bool := (s.dbg.keyx.map fun k => k.path != p).getD false

/-- The limit that the fuse field PWLIM sets on passwords (R536). -/
def State.pwMax (s : State) : Nat :=
  match s.fuseByte 9 % 4 with
  | 0 => 2
  | 1 => 1
  | _ => 0

/-- The bytes of a list of 128-bit items. -/
def itemBytes (m : Kv QWord) (n : Nat) : List Byte := (List.range n).flatMap fun i => leBytes 16 (kvGet 0#128 m i).toNat

/-- The password items hold the password of the fuses (R421). -/
def State.pwMatches (s : State) : Bool :=
  (Config.sm3 (leBytes 8 s.serial ++ itemBytes s.dbg.pw 2)).toNat == ofLe (s.fuseBytes 48 32)

/-- DBG_AUTH written with METHOD = 0, LEVEL and REQ = 1 (R421, R423). -/
def authPassword (p : Path) (level : Nat) (s : State) : State :=
  let s1 : State := { s with dbg := { s.dbg with pw := [] } }
  let fails := s.fget F.DBG_AUTH_FAILS
  if s.authBusy p then authReport p level 0 6 s1
  else if 8 ≤ fails then authReport p level 0 4 s1
  else if s.pwMax = 0 ∨ s.pwMax < level then authReport p level 0 5 s1
  else if s.pwMatches then setLevel p level (authReport p level 0 0 (s1.fset F.DBG_AUTH_FAILS 0))
  else
    let s2 := authReport p level 0 1 (s1.fset F.DBG_AUTH_FAILS (fails + 1))
    if fails + 1 = 8 then s2.raise F.DBG_EVT_LOCKOUT 13 4 [8] else s2

/-- The certificate items allow a level on this device (R422, R549). -/
def State.certOk (s : State) (level : Nat) : Bool :=
  let b := itemBytes s.dbg.cert 32
  let k := leAt b 5 1
  leAt b 0 4 == 0x43444B49 && decide (1 ≤ leAt b 4 1) && decide (leAt b 4 1 ≤ 3) && decide (level ≤ leAt b 4 1) &&
    decide (k < 4) && leAt b 6 2 == 0 && leAt b 8 8 == s.serial && decide (s.epochCount ≤ leAt b 16 4) && leAt b 20 4 == 0 &&
    allZero ((b.drop 88).take 40) && allZero (b.drop 192) && s.signedBy k 3 (b.take 128) ((b.drop 128).take 64)

/-- Bytes as 128-bit items. -/
def itemsOf (bs : List Byte) (n : Nat) : Kv QWord :=
  (List.range n).foldl (fun m i => kvSet 0#128 m i (BitVec.ofNat 128 (leAt bs (16 * i) 16))) []

/-- An exchange ends (R422): nothing of the shared key is kept. -/
def keyxEnd (k : Keyx) (result : Nat) (s : State) : State :=
  authReport k.path k.level 1 result { s with dbg := { s.dbg with keyx := none, sa := [] } }

/-- DBG_AUTH written with METHOD = 1, LEVEL and REQ = 1 (R422, R423). -/
def authKeyx (p : Path) (level : Nat) (s : State) : State :=
  match s.dbg.keyx with
  | some k =>
    if k.path != p then authReport p level 1 6 s
    else if itemBytes s.dbg.sa 2 == k.sa then setLevel p k.level (keyxEnd k 0 s)
    else keyxEnd k 3 s
  | none =>
    if !s.certOk level then authReport p level 1 2 s
    else
      let e := Config.sm2Exchange s.devSeed (itemBytes s.dbg.cert 32) (itemBytes s.dbg.hpub 4) s.free
      authReport p level 1 0xFE { s with
        free := s.free + 1
        dbg := { s.dbg with
          dpub := itemsOf e.1 4, sb := itemsOf e.2.1 2, keyx := some ⟨p, level, s.now, (e.2.2 ++ List.replicate 32 0#8).take 32⟩ } }

/-- The second phase has not come within 10 s, or the security pair has restarted (R422, R519). -/
def keyxAbort (s : State) : State :=
  match s.dbg.keyx with
  | some k => keyxEnd k 3 s
  | none => s

/-! ### Run control (R426, R427, R444) -/

/-- A debug halt request reaches the sequencer (R417, R426, R444). -/
def runHalt (cause : HaltCause) (s : State) : State :=
  match cause with
  | .dbgRun p => if s.level p < 1 then wref s else seqHalt 0 s
  | .crossTrigger => seqHalt 1 s
  | .brk => seqHalt 2 s

/-- DBG_RUN.RESUME written (R427, R444). -/
def runResume (p : Path) (s : State) : State := if s.level p < 1 then wref s else seqResume 0 s

/-- DBG_RUN.STEP written (R427, R444): one resume, one step once its conditions hold, and one halt. -/
def runStep (p : Path) (ups : List Upset) (s : State) : State :=
  if s.level p < 1 then wref s
  else if s.seq.st == .dbgHold then
    let s1 := seqResume 1 s
    if s1.seq.st == .ellipsis then
      seqEllipsisEnd ups { s1 with seq := { s1.seq with haltAt := some ((s1.seq.step + 1) % 2 ^ 64, 0) } }
    else s1
  else s

/-! ### Array operations (R428 to R430) -/

/-- The level of an operation (R428). -/
def arrLevel (op : Nat) : Nat := if op = 0 ∨ op = 4 then 1 else 2

/-- The queue of a BP. -/
def State.cqOf (s : State) (c bp : Nat) : List CqEntry := (s.clause c).cq.filter fun e => e.bp == bp

/-- Forces in use (R429). -/
def State.forceCount (s : State) : Nat := s.dbg.forces.length

/-- The first refusal of an operation (R430). -/
def State.arrRefusal (s : State) (a : ArrOp) : Option Nat :=
  let key := vsKey a.bp a.bank.toNat a.entry
  let forced := (s.forced a.clause key).isSome
  if s.level a.path < arrLevel a.op then some 2
  else if !(s.seq.st == .ready || s.seq.st == .stopped || s.seq.st == .dbgHold) then some 1
  else if a.op = 5 then none
  else if !(s.clause a.clause).loaded then some 1
  else if 511 < a.bp || (a.bank && !s.seq.twostate) ||
      (a.op == 4 && decide ((s.cqOf a.clause a.bp).length ≤ a.entry % 32)) then some 4
  else if s.closedTo (arrLevel a.op) a.clause then some 3
  else if a.op == 2 && !forced && decide (64 ≤ s.forceCount) then some 5
  else if a.op == 3 && !forced then some 6
  else none

/-- The state with the force of an entry set. -/
def setForce (c key : Nat) (v : Option Val) (s : State) : State :=
  { s with dbg := { s.dbg with forces := kvSet none s.dbg.forces (forceKey c key) v } }

/-- A value operand as it is stored: in TWOSTATE only VALUE[1] counts (R428). -/
def State.arrVal (s : State) (v : Val) : Val := if s.seq.twostate then ofBool (v.getLsbD 1) else v

/-- An accepted operation acts (R428, R429, R546). -/
def arrAct (a : ArrOp) (s : State) : State :=
  let key := vsKey a.bp a.bank.toNat a.entry
  match a.op with
  | 0 => (s.fset F.DBG_ARRD_VALUE (s.vsRead a.clause key).toNat).fsetb F.DBG_ARRD_FORCED (s.forced a.clause key).isSome
  | 1 => vsWrite a.clause key (s.arrVal a.val) s
  | 2 => setForce a.clause key (some (s.arrVal a.val)) (vsWrite a.clause key (s.arrVal a.val) (setForce a.clause key none s))
  | 3 => setForce a.clause key none s
  | 4 =>
    let q := s.cqOf a.clause a.bp
    match q[a.entry % 32]? with
    | some e =>
      (((s.fset F.DBG_ARRD_CQDST (e.dst % 256)).fset F.DBG_ARRD_CQBANK e.bank).fset F.DBG_ARRD_VALUE e.val.toNat).fset
        F.DBG_ARRD_CQFILL q.length
    | none => s
  | _ => { s with dbg := { s.dbg with forces := s.dbg.forces.filter fun e => s.closedTo 2 (e.1 / 262144) } }

/-- An operation is carried out or refused, and reports (R430, R446). -/
def arrRun (a : ArrOp) (s : State) : State :=
  let s1 : State := { s with dbg := { s.dbg with arr := none } }
  match s.arrRefusal a with
  | some r => (s1.fset F.DBG_ARRD_RESULT r).fset F.DBG_ARR_GO 0
  | none => ((arrAct a s1).fset F.DBG_ARRD_RESULT 0).fset F.DBG_ARR_GO 0

/-- DBG_ARR written with GO = 1 (R428, R446): ignored while an operation waits; one on a clause with a migration waits. -/
def arrGo (a : ArrOp) (s : State) : State :=
  if s.dbg.arr.isSome then s
  else
    let s1 := ((((s.fset F.DBG_ARR_OP a.op).fset F.DBG_ARR_CLAUSE a.clause).fset F.DBG_ARR_BP a.bp).fsetb
      F.DBG_ARR_BANK a.bank).fset F.DBG_ARR_ENTRY a.entry
    if (s1.arrRefusal a).isNone && a.op != 5 && (s1.clause a.clause).mig.isSome then
      { s1 with dbg := { s1.dbg with arr := some a } }.fset F.DBG_ARR_GO 1
    else arrRun a s1

/-- DBG_ARRD.VALUE is written together with the operation that uses it (R428, R446). -/
def arrGoVal (a : ArrOp) (s : State) : State :=
  if s.dbg.arr.isSome then s else arrGo a (s.fset F.DBG_ARRD_VALUE a.val.toNat)

/-- The migration that an operation waited for has ended (R138, R428). -/
def arrDeferred (s : State) : State :=
  match s.dbg.arr with
  | some a => if (s.clause a.clause).mig.isSome then s else arrRun a s
  | none => s

/-! ### Management pairs (R432, R433, R447) -/

/-- An active enabled BREAK unit exists (R523). -/
def Mgt.breaks (m : Mgt) : Bool := m.fpa.any fun e => e.2.any fun (u : FpUnit) => u.en && u.brk

/-- DBG_PAIR_p.HALT, a cross-trigger channel or a management patch-unit breakpoint requests a halt of a pair (R432, R447,
R523: the units act only on the control pair). -/
def pairHalt (p : Nat) (cause : HaltCause) (s : State) : State :=
  match cause with
  | .dbgRun path => if s.level path < (if p = 1 then 3 else 2) then wref s else pairHaltReq p 0 s
  | .crossTrigger => if p = 1 ∧ s.topLevel < 3 then s else pairHaltReq p 1 s
  | .brk => if p = 0 ∧ s.mgt.breaks then pairHaltReq p 2 s else s

/-- A pair reaches an instruction boundary with a halt request (R432): it halts, or in M-mode without L3 it goes on
waiting. What firmware left in its registers are free values (log 4). -/
def pairHalted (p priv : Nat) (pc : DWord) (lr : Option (Nat × Nat)) (s : State) : State :=
  match (s.pair p).haltReq with
  | none => s
  | some cause =>
    if p = 0 ∧ priv = 3 ∧ s.topLevel < 3 then mtWatch p (s.modPair p fun x => { x with waitM := true, priv := priv })
    else
      let g : Kv DWord := (List.range 31).foldl (fun m i =>
        kvSet 0#64 m (i + 1) ((Config.freeWord (s.free + i)).setWidth 64)) []
      let s1 : State := { s.fset (F.DBG_PAIR_PRIV p) priv with free := s.free + 31 + 4096 }
      let s2 := s1.modPair p fun x => { x with
        halted := true, haltReq := none, waitM := false, priv := priv, pc := pc, lr := lr, gpr := g, csr := []
        csrFree := some (s.free + 31) }
      let s3 := mtHalt p true ((mtWatch p s2).raise F.DBG_EVT_HALT 13 2 ([p + 1, 0, cause] ++ w64 pc.toNat))
      xtInput (3 + p) s3

/-- CSR n of a halted pair. -/
def Pair.csrAt (x : Pair) (n : Nat) : DWord :=
  match kvGet none x.csr n with
  | some v => v
  | none => match x.csrFree with | some k => (Config.freeWord (k + n)).setWidth 64 | none => 0#64

/-- A debug write clears the reservation of a halted pair on whose granule it falls (R433). -/
def lrBreak (a n : Nat) (s : State) : State :=
  [0, 1].foldl (fun s p =>
    match (s.pair p).lr with
    | some (g, k) =>
      if (s.pair p).halted && decide (a < g + k) && decide (g < a + n) then s.modPair p fun x => { x with lr := none } else s
    | none => s) s

/-- DBG_PAIR_p.RESUME (R434, R447). -/
def pairResumeReq (path : Path) (p : Nat) (s : State) : State :=
  if s.level path < s.pairLevel p then wref s else pairResume p 0 s

/-- DBG_PAIR_p.STEP: one instruction, with its effect and its trace (R396, R397, R432, R447, R450). A trap shows in the cause register
that it writes (log 52). -/
def pairStepReq (path : Path) (p : Nat) (eff : CoreEffect) (s : State) : State :=
  if s.level path < s.pairLevel p then wref s
  else if !(s.pair p).halted then s
  else
    let s1 := pairResume p 1 s
    let m := if p = 0 then Master.control else Master.security
    let s2 := eff.stores.foldl (fun s e => (busWrite m e.1 [e.2] s).2) s1
    let s3 := (s2.fset (F.DBG_PAIR_PRIV p) eff.priv).modPair p fun x => { x with
      halted := true, pc := eff.pc, lr := eff.lr, priv := eff.priv
      csr := eff.csr.foldl (fun m e => kvSet none m e.1 (some e.2)) x.csr
      gpr := eff.gpr.foldl (fun g e => if e.1 = 0 then g else kvSet 0#64 g e.1 e.2) x.gpr }
    let insn := ofLe ((List.range 4).map fun i => s1.codeByte p ((s.pair p).pc.toNat + i))
    let trap := if insn % 128 = 0x73 ∧ insn / 4096 % 8 ≠ 0 then none
      else (eff.csr.find? fun e => e.1 == 0x342 || e.1 == 0x142).map Prod.snd
    let s3' := mtWatch p (mtFlow p insn eff.priv (s.pair p).pc eff.pc trap s3)
    let s4 := mtHalt p true (s3'.raise F.DBG_EVT_HALT 13 2 ([p + 1, 0, 0] ++ w64 eff.pc.toNat))
    xtInput (3 + p) s4

/-- What one instruction does when a register write orders the step, which has no operand for it (R447): the next pc, at most one
general register, at most one store of up to 8 bytes, the privilege, the reservation and the CSRs are free values (log 4). -/
def freeStep (path : Path) (p : Nat) (s : State) : State :=
  let w := fun i => Config.freeWord (s.free + i)
  let n := [0, 1, 2, 4, 8].getD ((w 0).toNat % 5) 0
  let a := (w 1).toNat % 2 ^ 48
  let s1 : State := { s with free := s.free + 7 + 4096 }
  let s2 := pairStepReq path p
    { gpr := [((w 2).toNat % 32, (w 3).setWidth 64)], csr := [], priv := [0, 1, 3].getD ((w 0).toNat / 8 % 3) 0
      pc := (w 4).setWidth 64
      stores := (List.range n).map fun i => (a + i, BitVec.ofNat 8 ((w 5).toNat / 256 ^ i))
      lr := if (w 0).getLsbD 64 then some ((w 6).toNat % 2 ^ 48, (w 0).toNat / 2 ^ 65 % 64 + 1) else none } s1
  if s.level path < s.pairLevel p || !(s.pair p).halted then pairStepReq path p ⟨[], [], 3, 0, [], none⟩ s
  else s2.modPair p fun x => { x with csr := [], csrFree := some (s.free + 7) }

/-! ### Cross-trigger inputs and the TAP (R436 to R439) -/

/-- A rising edge on XTRIG_INch (R436). -/
def xtrigIn (ch : Nat) (s : State) : State :=
  if nbit (s.fget (F.DBG_XT_IN ch)) 1 then xtAssert false none s ch else s

/-- Another instruction is in the instruction register (R438, R439). -/
def tapSelect (ir : Byte) (s : State) : State :=
  let s1 : State := { s with dbg := { s.dbg with ir := ir } }
  let was := s.fbit F.DBG_STAT_EXTEST
  let is_ := ir == 0x00#8
  let s2 := s1.fsetb F.DBG_STAT_EXTEST is_
  if is_ && !was then s2.raise F.DBG_EVT_EXTEST 13 3 [0]
  else if was && !is_ then s2.raise F.DBG_EVT_EXTEST 13 3 [1]
  else s2

/-- The 32 bits of IDCODE (R438). -/
def State.idcode (s : State) : Nat :=
  s.fuseByte 8 % 16 * 2 ^ 28 + 0x1D64 * 2 ^ 12 + Config.manufacturer.toNat * 2 + 1

/-! ### The commands -/

/-- DBG_AUTH_PASSWORD (R421). -/
def execDbgAuthPassword (p : Path) (level : Nat) (s : State) : Host.Outcome State Fault Refusal := .next (authPassword p level s)

/-- DBG_AUTH_KEYX (R422). -/
def execDbgAuthKeyx (p : Path) (level : Nat) (s : State) : Host.Outcome State Fault Refusal := .next (authKeyx p level s)

/-- KEYX_TIMEOUT (R422). -/
def execKeyxTimeout (s : State) : Host.Outcome State Fault Refusal := .next (keyxAbort s)

/-- DBG_AUTH_DROP (R419). -/
def execDbgAuthDrop (p : Path) (s : State) : Host.Outcome State Fault Refusal := .next (setLevel p 0 s)

/-- READ (R428). -/
def execRead (p : Path) (c bp : Nat) (bank : Bool) (entry : Nat) (s : State) : Host.Outcome State Fault Refusal :=
  .next (arrGo ⟨p, 0, c, bp, bank, entry, v0⟩ s)

/-- DEPOSIT (R428). -/
def execDeposit (p : Path) (c bp : Nat) (bank : Bool) (entry : Nat) (v : Val) (s : State) : Host.Outcome State Fault Refusal :=
  .next (arrGoVal ⟨p, 1, c, bp, bank, entry, v⟩ s)

/-- FORCE (R428). -/
def execForce (p : Path) (c bp : Nat) (bank : Bool) (entry : Nat) (v : Val) (s : State) : Host.Outcome State Fault Refusal :=
  .next (arrGoVal ⟨p, 2, c, bp, bank, entry, v⟩ s)

/-- RELEASE (R428). -/
def execRelease (p : Path) (c bp : Nat) (bank : Bool) (entry : Nat) (s : State) : Host.Outcome State Fault Refusal :=
  .next (arrGo ⟨p, 3, c, bp, bank, entry, v0⟩ s)

/-- CQREAD (R428). -/
def execCqread (p : Path) (c bp slot : Nat) (s : State) : Host.Outcome State Fault Refusal :=
  .next (arrGo ⟨p, 4, c, bp, false, slot, v0⟩ s)

/-- RELALL (R428). The address fields are ignored, and keep what they hold. -/
def execRelall (p : Path) (s : State) : Host.Outcome State Fault Refusal :=
  .next (arrGo ⟨p, 5, s.fget F.DBG_ARR_CLAUSE, s.fget F.DBG_ARR_BP, s.fbit F.DBG_ARR_BANK, s.fget F.DBG_ARR_ENTRY, v0⟩ s)

/-- ARR_DEFERRED_START (R138). -/
def execArrDeferredStart (s : State) : Host.Outcome State Fault Refusal := .next (arrDeferred s)

/-- DBG_HALT (R426). -/
def execDbgHalt (cause : HaltCause) (s : State) : Host.Outcome State Fault Refusal := .next (runHalt cause s)

/-- DBG_RESUME (R427). -/
def execDbgResume (p : Path) (s : State) : Host.Outcome State Fault Refusal := .next (runResume p s)

/-- DBG_STEP (R427). -/
def execDbgStep (p : Path) (ups : List Upset) (s : State) : Host.Outcome State Fault Refusal := .next (runStep p ups s)

/-- PAIR_HALT (R432). -/
def execPairHalt (pair : Nat) (cause : HaltCause) (s : State) : Host.Outcome State Fault Refusal := .next (pairHalt pair cause s)

/-- PAIR_HALT_COMPLETE (R432). -/
def execPairHaltComplete (pair priv : Nat) (pc : DWord) (lr : Option (Nat × Nat)) (s : State) :
    Host.Outcome State Fault Refusal := .next (pairHalted pair priv pc lr s)

/-- PAIR_RESUME (R447). -/
def execPairResume (p : Path) (pair : Nat) (s : State) : Host.Outcome State Fault Refusal := .next (pairResumeReq p pair s)

/-- PAIR_STEP (R432). -/
def execPairStep (p : Path) (pair : Nat) (eff : CoreEffect) (s : State) : Host.Outcome State Fault Refusal :=
  .next (pairStepReq p pair eff s)

/-- XTRIG_IN (R436). -/
def execXtrigIn (ch : Nat) (s : State) : Host.Outcome State Fault Refusal := .next (xtrigIn ch s)

/-- TEST_LOGIC_RESET: IDCODE is selected and the TAP path falls to L0 (R419, R438). -/
def execTestLogicReset (s : State) : Host.Outcome State Fault Refusal := .next (setLevel .tap 0 (tapSelect 0x02#8 s))

/-- EXTEST (R438, R439). -/
def execExtest (s : State) : Host.Outcome State Fault Refusal := .next (tapSelect 0x00#8 s)

/-- SAMPLE_PRELOAD (R438): the boundary register is selected; its cells are the BSDL file's (R439). -/
def execSamplePreload (s : State) : Host.Outcome State Fault Refusal := .next (tapSelect 0x01#8 s)

/-- IDCODE (R438). -/
def execIdcode (s : State) : Host.Outcome State Fault Refusal := .next ((tapSelect 0x02#8 s).emit (.tap 32 s.idcode))

/-- BYPASS, and every code not listed (R438). -/
def execBypass (code : Byte) (s : State) : Host.Outcome State Fault Refusal := .next (tapSelect code s)

end Sys2Proof.Machine
end

