-- ==== Sys2Proof/Machine/Fab.lean ====
section
/-! DEFINITION. Fab.lean: the commands of the signal fabric: isolation, release and the sparing of a connection's lane
(R162, R165, R613). -/
namespace Sys2Proof.Machine

/-- Outcomes of an isolation or release request (R165). -/
def State.isoResult (s : State) (iso rel : Bool) (c : Nat) : Option Nat :=
  let x := s.clause c
  if iso && rel then some 5
  else if s.fab.iso.isSome then some 4
  else if iso && !x.loaded then some 1
  else if rel && !x.passed then some 2
  else if (iso && x.iso) || (rel && !x.iso) then some 3
  else none

/-- FAB_ISO written with ISO, REL or both (R165, R171). A request whose boundary has come has taken effect before. -/
def isoWrite (iso rel xinj : Bool) (c : Nat) (t : State) : State :=
  let s := isoApply t
  let s1 := (s.fset F.FAB_ISO_CLAUSE c).fset F.FAB_ISO_XINJ xinj.toNat
  match s.isoResult iso rel c with
  | some r => (s1.fset F.FAB_ISO_RESULT r).raise F.FAB_EVT_ISO_REF 8 4 [c, r]
  | none =>
    let now := !s.stepping && s.atPhase0
    let s2 := (s1.fset F.FAB_ISO_ISO iso.toNat).fset F.FAB_ISO_REL rel.toNat
    let s3 := { s2 with fab := { s2.fab with iso := some { clause := c, rel := rel, xinj := xinj, due := now } } }
    if now then isoApply s3 else s3

/-- The rule that a sparing commit breaks, if any (R162). -/
def State.sparingFault (s : State) : Option Nat :=
  let k := s.fget F.FAB_SPSEL_CONN
  let te := s.fbit F.FAB_SPTX_EN
  let re := s.fbit F.FAB_SPRX_EN
  if (linkOf (k / 4) (k % 4)).isSome then some 1
  else if te != re || (te && re && s.fget F.FAB_SPTX_LANE != s.fget F.FAB_SPRX_LANE) then some 2
  else if (te && decide (63 < s.fget F.FAB_SPTX_LANE)) || (re && decide (63 < s.fget F.FAB_SPRX_LANE)) then some 3
  else none

/-- A tag written to BLK_AGREE of FAB (R162, R170, R613). A failed commit has no first step under new maps: that payload
field is a free value (log 4). -/
def fabAgree (tag : Nat) (s : State) : State :=
  if s.fab.agree.isSome then s.fset F.FAB_AGREE_RESULT 4
  else
    let k := s.fget F.FAB_SPSEL_CONN
    let s1 := s.fset F.FAB_AGREE_TAG tag
    match s.sparingFault with
    | some r =>
      let f := s1.fresh64
      (f.2.fset F.FAB_AGREE_RESULT r).raise F.FAB_EVT_AGREE 8 6 ([tag, k, r] ++ f.1)
    | none =>
      let map := if s.fbit F.FAB_SPTX_EN then some (s.fget F.FAB_SPTX_LANE) else none
      let s2 := { s1 with fab := { s1.fab with agree := some (tag, k, map) } }.fset F.FAB_AGREE_BUSY 1
      if s.stepping then s2 else fabAgreeApply s2

/-- FAB_ISO_REQUEST (R165). -/
def execFabIsoRequest (c : Nat) (xinj : Bool) (s : State) : Host.Outcome State Fault Refusal :=
  .next (isoWrite true false xinj c s)

/-- FAB_REL_REQUEST (R165): XINJ keeps its value. -/
def execFabRelRequest (c : Nat) (s : State) : Host.Outcome State Fault Refusal :=
  .next (isoWrite false true (s.fbit F.FAB_ISO_XINJ) c s)

/-- ISO_BOUNDARY_APPLY (R165). -/
def execIsoBoundaryApply (s : State) : Host.Outcome State Fault Refusal := .next (isoApply s)

/-- FAB_AGREE_COMMIT (R162). -/
def execFabAgreeCommit (tag : Byte) (s : State) : Host.Outcome State Fault Refusal := .next (fabAgree tag.toNat s)

end Sys2Proof.Machine
end

