-- ==== Sys2Proof/Machine/Hif.lean ====
section
/-! DEFINITION. Hif.lean: the host interface: BAR2, doorbells, DMA channels, the event arbiter and the event rings (R481 to
R512, R620). -/
namespace Sys2Proof.Machine

/-! ### Messages (R481, R483, R501) -/

/-- A word of the MSI-X table or of the pending-bit array, by its offset in the HIF page (R481). -/
def State.msixWord (s : State) (o : Nat) : Word := kvGet 0#32 s.hif.msix o

/-- Vector v is sent: it waits while Bus Master Enable is 0, and pends while its table entry is masked (R483, R501). -/
def signal (v : Nat) (s : State) : State :=
  if !s.hif.bme then
    if s.hif.msiWait.contains v then s else { s with hif := { s.hif with msiWait := s.hif.msiWait ++ [v] } }
  else if (s.msixWord (0x800 + 16 * v + 12)).getLsbD 0 then
    let o := 0xC00 + 4 * (v / 32)
    { s with hif := { s.hif with
      msix := kvSet 0#32 s.hif.msix o (BitVec.ofNat 32 (putBit (s.msixWord o).toNat (v % 32) true)) } }
  else s.emit (.msix v)

/-- Vectors whose entry is no longer masked and whose pending bit stands are sent (R501). -/
def msixUnmask (s : State) : State :=
  (List.range 64).foldl (fun s v =>
    let o := 0xC00 + 4 * (v / 32)
    if nbit (s.msixWord o).toNat (v % 32) && !(s.msixWord (0x800 + 16 * v + 12)).getLsbD 0 then
      signal v { s with hif := { s.hif with
        msix := kvSet 0#32 s.hif.msix o (BitVec.ofNat 32 (putBit (s.msixWord o).toNat (v % 32) false)) } }
    else s) s

/-! ### Event records (R494 to R497, R620) -/

/-- The class of an event (R620). -/
def evClass (e : Ev) : Nat :=
  if 0x80 ≤ e.src then
    (if e.code = 1 then 1 else if e.code ≤ 4 then 2 else if e.code = 5 then 3 else 0)
  else
    match e.src with
    | 0 => if e.code = 3 ∨ e.code = 9 then 1 else if e.code = 10 then 4 else 0
    | 1 => 5
    | 2 => if e.code = 1 then (if e.payload.getD 3 0 = 1 then 2 else 1) else if e.code = 3 then 4 else 0
    | 3 => 0
    | 4 => if e.code = 1 then 1 else if e.code = 2 then 2 else 0
    | 5 => if e.code = 6 ∨ e.code = 7 then 0 else if e.code = 8 then 1 else 3
    | 6 =>
      if e.code = 1 ∨ e.code = 8 ∨ e.code = 9 ∨ e.code = 0x12 then 1
      else if e.code = 2 then 2
      else if e.code = 7 then 3
      else if 0x10 ≤ e.code then 4
      else 0
    | 8 => if e.code = 1 then 1 else if e.code = 2 ∨ e.code = 5 then 2 else 0
    | 9 => if e.code = 2 then 2 else if e.code = 5 ∨ e.code = 7 ∨ e.code = 8 then 1 else 0
    | 10 =>
      if e.code = 1 ∨ e.code = 3 then 1
      else if e.code = 2 ∨ e.code = 4 then (if e.payload.getD 2 0 < 256 ∧ e.payload.getD 3 0 = 0 then 2 else 0)
      else 0
    | 11 => if e.code = 1 ∨ e.code = 4 then 1 else if e.code = 2 then (if e.payload.getD 2 0 = 0xFF then 2 else 0) else 0
    | 12 => if e.code = 1 ∨ e.code = 5 then 3 else 0
    | 13 => if e.code = 2 ∨ e.code = 3 then 3 else 5
    | _ => 0

/-- The 64 bytes of a record (R495). -/
def recordBytes (phase : Bool) (seqno : Nat) (e : Ev) : List Byte :=
  leBytes 4 (phase.toNat * 2 ^ 31 + evClass e * 2 ^ 24 + e.src * 2 ^ 16 + e.code) ++ leBytes 4 seqno ++ leBytes 8 e.step ++
    leBytes 8 e.time ++ ((e.payload ++ List.replicate 10 0).take 10).flatMap (leBytes 4)

/-- The firmware of the control pair runs. -/
def State.firmware (s : State) : Bool := !(s.pair 0).held && !(s.pair 0).restarting && !(s.pair 0).halted

/-- The firmware records an uncorrected error in the fault log (R596). DESIGN CHOICE (log 39): as the arbiter accepts its event;
RESULT, UNIT and ITEM are free values (log 4). -/
def errorLog (e : Ev) (s : State) : State :=
  if evClass e = 2 ∧ s.firmware = true then
    let f := s.fresh
    logWrite 7 (fieldOf f.1 0 8) (fieldOf f.1 8 16) (fieldOf f.1 24 32) f.2.seq.step 0 f.2
  else s

/-- The arbiter accepts a waiting packet while it holds fewer than 256 records (R494, R502). -/
def eventAccept (k : Nat) (s : State) : State :=
  match s.evq[k]? with
  | none => s
  | some e =>
    if 256 ≤ s.hif.held.length then s
    else
      errorLog e { s with
        evq := s.evq.eraseIdx k
        hif := { s.hif with held := s.hif.held ++ [(s.hif.seqno, e)], seqno := (s.hif.seqno + 1) % 2 ^ 32 } }

/-! ### Rings (R498 to R502) -/

/-- An index with its wrap bit as a position in twice the ring (R498). -/
def ringPos (log index : Nat) (wrap : Bool) : Nat := index + wrap.toNat * 2 ^ log

/-- How far position b lies ahead of position a (R498). -/
def ringAhead (log a b : Nat) : Nat := (b + 2 ^ (log + 1) - a) % 2 ^ (log + 1)

/-- The size code of an event ring. -/
def State.ringLog (s : State) (r : Nat) : Nat := s.fget (F.HIF_EVCFG_LOG2 r)

/-- Records in a ring (R498). -/
def State.ringFill (s : State) (r : Nat) : Nat :=
  let x := s.ring r
  ringAhead (s.ringLog r) (ringPos (s.ringLog r) x.cons x.cwrap) (ringPos (s.ringLog r) x.prod x.pwrap)

/-- The ring is full (R498). -/
def State.ringFull (s : State) (r : Nat) : Bool := s.ringFill r == 2 ^ s.ringLog r

/-- The ring of an event's class (R497, R508). -/
def State.ringOf (s : State) (e : Ev) : Nat := nbits (s.fget F.HIF_EVROUTE_RING) (2 * evClass e) 2

/-- The ring for which the oldest held record waits: it is full or disabled (R502, R508). -/
def State.ringWaited (s : State) : Option Nat :=
  match s.hif.held with
  | [] => none
  | (_, e) :: _ =>
    let r := s.ringOf e
    if !s.fbit (F.HIF_EVCFG_EN r) || s.ringFull r then some r else none

/-- The vector of a ring is signalled (R501). -/
def ringSignal (r : Nat) (s : State) : State :=
  signal (s.fget (F.HIF_EVCFG_VEC r)) (s.modRing r fun x => { x with unsig := 0 })

/-- The oldest held record is written to its ring (R498, R499, R501). -/
def ringWrite (s : State) : State :=
  match s.hif.held with
  | [] => s
  | (n, e) :: t =>
    let r := s.ringOf e
    if !s.hif.bme || s.ringWaited.isSome then s
    else
      let x := s.ring r
      let bs := recordBytes (!x.pwrap) n e
      let a := x.base + 64 * x.prod
      let last := x.prod + 1 == 2 ^ s.ringLog r
      let s1 := ({ s with hif := { s.hif with held := t } }.emit (.hostWrite (a + 4) (bs.drop 4))).emit (.hostWrite a (bs.take 4))
      let s2 := s1.modRing r fun x => { x with
        prod := if last then 0 else x.prod + 1, pwrap := if last then !x.pwrap else x.pwrap, unsig := x.unsig + 1 }
      let cnt := s2.fget (F.HIF_EVCFG_CNT r)
      if cnt = 0 ∨ s2.fget (F.HIF_EVCFG_TIME r) = 0 ∨ cnt ≤ (s2.ring r).unsig then ringSignal r s2 else s2

/-- The coalescing time of a ring has passed since its first record not yet signalled (R501). -/
def coalesceExpire (r : Nat) (s : State) : State :=
  if s.fbit (F.HIF_EVCFG_EN r) && (s.ring r).unsig != 0 then ringSignal r s else s

/-- A record has waited on a full ring for another 1 ms (R502). -/
def ringResignal (s : State) : State :=
  match s.ringWaited with
  | some r =>
    if s.fbit (F.HIF_EVCFG_EN r) then (signal (s.fget (F.HIF_EVCFG_VEC r)) s).count F.HIF_CNT_EVBLK_COUNT else s
  | none => s

/-- The fields of HIF_EVCFG_r other than EN are written (R507). -/
def ringFields (r : Nat) (w : Word) (s : State) : State :=
  let l := fieldOf w 20 5
  (((s.fset (F.HIF_EVCFG_VEC r) (fieldOf w 25 6)).fset (F.HIF_EVCFG_LOG2 r) (if 6 ≤ l ∧ l ≤ 16 then l else 6)).fset
    (F.HIF_EVCFG_CNT r) (fieldOf w 12 8)).fset (F.HIF_EVCFG_TIME r) (fieldOf w 0 12)

/-- HIF_EVCFG_r written with EN = 1 (R498, R507). -/
def ringEnable (r : Nat) (w : Word) (s : State) : State :=
  let s1 := if s.fbit (F.HIF_EVCFG_EN r) then s else ringFields r w s
  (s1.modRing r fun x => { x with prod := 0, pwrap := false, cons := 0, cwrap := false, unsig := 0 }).fset
    (F.HIF_EVCFG_EN r) 1

/-- HIF_EVCFG_r written with EN = 0 (R507). -/
def ringDisable (r : Nat) (w : Word) (s : State) : State :=
  (if s.fbit (F.HIF_EVCFG_EN r) then s else ringFields r w s).fset (F.HIF_EVCFG_EN r) 0

/-! ### Doorbells (R489, R500) -/

/-- A doorbell write is ignored (R500, R512). -/
def doorbellErr (off : Nat) (w : Word) (s : State) : State :=
  (s.count F.HIF_CNT_DBERR_COUNT).raise F.HIF_EVT_DBERR 3 5 [off, w.toNat]

/-- The consumer doorbell of an event ring (R500). -/
def eventDoorbell (r : Nat) (w : Word) (s : State) : State :=
  let log := s.ringLog r
  let i := fieldOf w 0 16
  let p := ringPos log i (w.getLsbD 16)
  let x := s.ring r
  if fieldOf w 17 15 ≠ 0 ∨ 2 ^ log ≤ i ∨ s.ringFill r < ringAhead log (ringPos log x.cons x.cwrap) p then
    doorbellErr (0x1000 * r) w s
  else s.modRing r fun x => { x with cons := i, cwrap := w.getLsbD 16 }

/-- The size code of a DMA channel's ring. -/
def State.dmaLog (s : State) (c : Nat) : Nat := s.fget (F.HIF_DCTL_LOG2 c)

/-- Descriptors from the head to the tail. -/
def State.dmaFill (s : State) (c : Nat) : Nat :=
  let x := s.dmaCh c
  ringAhead (s.dmaLog c) (ringPos (s.dmaLog c) x.head x.hwrap) (ringPos (s.dmaLog c) x.tail x.twrap)

/-- The tail doorbell of a DMA channel (R489, R492). -/
def dmaDoorbell (c : Nat) (w : Word) (s : State) : State :=
  let log := s.dmaLog c
  let i := fieldOf w 0 16
  let p := ringPos log i (w.getLsbD 16)
  let x := s.dmaCh c
  if fieldOf w 17 15 ≠ 0 ∨ 2 ^ log ≤ i ∨ 2 ^ log < ringAhead log (ringPos log x.head x.hwrap) p then
    doorbellErr (0x10000 + 0x1000 * c) w s
  else
    let s1 := s.modDma c fun x => { x with tail := i, twrap := w.getLsbD 16 }
    if x.st = .idle ∧ s1.dmaFill c ≠ 0 then s1.modDma c fun x => { x with st := .run } else s1

/-! ### DMA channels (R489 to R493) -/

/-- The fields of HIF_DCTL_c other than EN are written (R509). -/
def dmaFields (c : Nat) (w : Word) (s : State) : State :=
  let l := fieldOf w 15 5
  ((s.fset (F.HIF_DCTL_WB c) (fieldOf w 30 1)).fset (F.HIF_DCTL_VEC c) (fieldOf w 20 6)).fset (F.HIF_DCTL_LOG2 c)
    (if 4 ≤ l ∧ l ≤ 16 then l else 4)

/-- HIF_DCTL_c written with EN = 1 (R492, R509). -/
def dmaEnable (c : Nat) (w : Word) (s : State) : State :=
  if s.fbit (F.HIF_DCTL_EN c) then s
  else
    ((dmaFields c w s).fset (F.HIF_DCTL_EN c) 1).modDma c fun x => { x with
      st := .idle, head := 0, hwrap := false, tail := 0, twrap := false, err := 0 }

/-- HIF_DCTL_c written with EN = 0 (R492, R509). -/
def dmaDisable (c : Nat) (w : Word) (s : State) : State :=
  ((if s.fbit (F.HIF_DCTL_EN c) then s else dmaFields c w s).fset (F.HIF_DCTL_EN c) 0).modDma c fun x => { x with st := .off }

/-- A descriptor of a running channel fails (R492, R493, R512). -/
def dmaFail (c err status : Nat) (s : State) : State :=
  if (s.dmaCh c).st = .run ∧ s.dmaFill c ≠ 0 then
    (s.modDma c fun x => { x with st := .error, err := err }).raise F.HIF_EVT_DMA_ERR 3 2 [c, (s.dmaCh c).head, err, status]
  else s

/-- A descriptor breaks the rules of R490 (R493 DESC). -/
def descBad (d : List Byte) : Bool :=
  let w := leAt d 0 4
  let op := nbits w 28 4
  let len := leAt d 4 4
  !(op == 1 || op == 2) || nbits w 0 25 != 0 || len == 0 || decide (0x80000000 < len) || leAt d 22 2 != 0 ||
    isHost (leAt d 16 6) || leAt d 28 4 != 0

/-- A descriptor is complete (R491): the head, the write-back, the vector, HIF_DMA_DONE. -/
def dmaDone (c : Nat) (d : List Byte) (s : State) : State :=
  let x := s.dmaCh c
  let last := x.head + 1 == 2 ^ s.dmaLog c
  let s1 := s.modDma c fun x => { x with
    head := if last then 0 else x.head + 1, hwrap := if last then !x.hwrap else x.hwrap }
  let y := s1.dmaCh c
  let s2 := if s1.fbit (F.HIF_DCTL_WB c) then s1.emit (.hostWrite x.wb (leBytes 4 (y.head + y.hwrap.toNat * 2 ^ 16))) else s1
  let s3 := if nbit (leAt d 0 4) 27 then signal (s2.fget (F.HIF_DCTL_VEC c)) s2 else s2
  let s4 := if nbit (leAt d 0 4) 26 then s3.raise F.HIF_EVT_DMA_DONE 3 1 [c, x.head, leAt d 24 4] else s3
  if s4.dmaFill c = 0 then s4.modDma c fun x => { x with st := .idle } else s4

/-- The descriptor at the head of a running channel, as fetched from the host, with the host data of an H2D transfer, is
carried out (R489 to R493); it waits for the calibration of a stack it reaches (R222). -/
def dmaDesc (c : Nat) (d data : List Byte) (s : State) : State :=
  if (s.dmaCh c).st ≠ .run ∨ s.dmaFill c = 0 ∨ !s.hif.bme then s
  else if !descBad d && s.rangeHeld (leAt d 16 6) (leAt d 4 4) then s
  else
    let s1 := s.emit (.hostRead ((s.dmaCh c).base + 32 * (s.dmaCh c).head) 32)
    let len := leAt d 4 4
    let ha := leAt d 8 8
    let na := leAt d 16 6
    if descBad d then dmaFail c 1 0 s1
    else if nbits (leAt d 0 4) 28 4 = 1 then
      let r := busWriteAll .hif na (data.take len) (s1.emit (.hostRead ha len))
      if r.1 = 0 then dmaDone c d r.2 else dmaFail c 3 r.1 r.2
    else
      let r := busReadAll .hif na len s1
      if r.1 = 0 then dmaDone c d (r.2.2.emit (.hostWrite ha r.2.1)) else dmaFail c 3 r.1 r.2.2

/-! ### BAR2 (R485 to R487) -/

/-- A host read is answered for a NoC STATUS (R486, R510). -/
def hostAnswer (st : Nat) (bs : List Byte) (s : State) : State :=
  match st with
  | 0 => s.emit (.completion false bs)
  | 3 => s.emit (.completion true bs)
  | 2 | 5 | 6 => (s.count F.HIF_CNT_CPLERR_COUNT).emit .abort
  | _ => (s.count F.HIF_CNT_CPLERR_COUNT).emit .unsupported

/-- A host write has failed (R487, R512). -/
def hostWriteErr (bar off st : Nat) (s : State) : State :=
  (s.count F.HIF_CNT_PWERR_COUNT).raise F.HIF_EVT_PWERR 3 4 ([bar] ++ w64 off ++ [st])

/-- The NoC address of a BAR2 offset, where its aperture window is enabled (R485). -/
def State.bar2Addr (s : State) (off : Nat) : Option Nat :=
  let n := off / 2 ^ 32
  if n < 16 ∧ s.fbit (F.HIF_AWIN_EN n) then some (s.fget (F.HIF_AWIN_BASE n) * 2 ^ 30 + off % 2 ^ 32) else none

/-- BAR2_READ: HBM answers at once, or when the calibration slice of its stack ends; the lexicon answers packet by packet as its
banks serve them (R216, R222, R485, R486). -/
def bar2Read (off size : Nat) (s : State) : State :=
  match s.bar2Addr off with
  | none => hostAnswer 1 [] s
  | some a =>
    if !((List.range size).all fun i => isUser (a + i)) then hostAnswer 1 [] s
    else
      match (packetsOf a size).findSome? fun p => s.busRefusal .hif false p.1 p.2 with
      | some st => hostAnswer st [] s
      | none =>
        if isLex a || s.rangeHeld a size then (packetsOf a size).foldl (fun s p => nocEnqueue (.bar2 (off + (p.1 - a))) 0 p.1 p.2 false [] s) s
        else
          let r := busReadAll .hif a size s
          hostAnswer r.1 r.2.1 r.2.2

/-- The runs of bytes of a write that lie in user memory, each within one packet: address and length (R485). -/
def userRuns (a n : Nat) : List (Nat × Nat) :=
  (packetsOf a n).filterMap fun p =>
    match (List.range p.2).filter fun i => isUser (p.1 + i) with
    | [] => none
    | i :: t => some (p.1 + i, t.length + 1)

/-- One packet of a BAR2 write (R216, R487). -/
def bar2Packet (off a : Nat) (bs : List Byte) (s : State) : State :=
  match s.busRefusal .hif true a bs.length with
  | some st => hostWriteErr 2 off st s
  | none =>
    if isLex a || s.hbmHeld a then nocEnqueue (.bar2 off) 0 a bs.length true bs s
    else
      let r := memWrite .hif a bs s
      if r.1 = 0 then r.2 else hostWriteErr 2 off r.1 r.2

/-- BAR2_WRITE (R485, R487). Bytes outside the user memory are reported once, at the first of them; so is a write to a
disabled window (log 20). -/
def bar2Write (off : Nat) (data : List Byte) (s : State) : State :=
  match s.bar2Addr off with
  | none => hostWriteErr 2 off 1 s
  | some a =>
    let s1 := match (List.range data.length).find? fun i => !isUser (a + i) with
      | some i => hostWriteErr 2 (off + i) 1 s
      | none => s
    (userRuns a data.length).foldl (fun s p => bar2Packet (off + (p.1 - a)) p.1 ((data.drop (p.1 - a)).take p.2) s) s1

/-! ### PCIe (R482, R483, R504, R512) -/

/-- What a PCIe reset resets of HIF (R482, R506, R507, R509). -/
def hifReset (s : State) : State :=
  let s1 := (List.range 16).foldl (fun s n => (s.fset (F.HIF_AWIN_EN n) 0).fset (F.HIF_AWIN_BASE n) 0) s
  let s2 := (List.range 4).foldl (fun s r => s.fset (F.HIF_EVCFG_EN r) 0) s1
  let s3 := (List.range 16).foldl (fun s c => (s.fset (F.HIF_DCTL_EN c) 0).modDma c fun x => { x with st := .off }) s2
  { s3 with hif := { s3.hif with
    bme := false, msix := [], msiWait := []
    xwin := (List.range 8).foldl (fun m k =>
      kvMod 0#128 m k fun w => BitVec.ofNat 128 (putBit w.toNat 31 false)) s3.hif.xwin } }

/-- HIF_LINK (R504, R512). -/
def hifLink (speed width : Nat) (flit dlup : Bool) (s : State) : State :=
  ((((s.fset F.HIF_STAT_SPEED speed).fset F.HIF_STAT_WIDTH width).fsetb F.HIF_STAT_FLIT flit).fsetb F.HIF_STAT_DLUP dlup).raise
    F.HIF_EVT_LINK 3 3 [speed, width, flit.toNat, dlup.toNat]

/-- Bus Master Enable changes (R483): what waited for it is sent. -/
def busMaster (on : Bool) (s : State) : State :=
  let s1 : State := { s with hif := { s.hif with bme := on } }
  if on then s1.hif.msiWait.foldl (fun s v => signal v s) { s1 with hif := { s1.hif with msiWait := [] } } else s1

/-! ### The commands -/

/-- BAR2_READ (R485). -/
def execBar2Read (off size : Nat) (s : State) : Host.Outcome State Fault Refusal := .next (bar2Read off size s)

/-- BAR2_WRITE (R485). -/
def execBar2Write (off : Nat) (data : List Byte) (s : State) : Host.Outcome State Fault Refusal := .next (bar2Write off data s)

/-- EVENT_DOORBELL (R500). -/
def execEventDoorbell (r : Nat) (w : Word) (s : State) : Host.Outcome State Fault Refusal := .next (eventDoorbell r w s)

/-- DMA_DOORBELL (R489). -/
def execDmaDoorbell (c : Nat) (w : Word) (s : State) : Host.Outcome State Fault Refusal := .next (dmaDoorbell c w s)

/-- DMA_DESC_COMPLETE (R491). -/
def execDmaDescComplete (c : Nat) (desc data : List Byte) (s : State) : Host.Outcome State Fault Refusal :=
  .next (dmaDesc c desc data s)

/-- HIF_DMA_ERR (R493). -/
def execHifDmaErr (c err status : Nat) (s : State) : Host.Outcome State Fault Refusal := .next (dmaFail c err status s)

/-- EVENT_ACCEPT (R494). -/
def execEventAccept (k : Nat) (s : State) : Host.Outcome State Fault Refusal := .next (eventAccept k s)

/-- EVENT_RING_WRITE (R499). -/
def execEventRingWrite (s : State) : Host.Outcome State Fault Refusal := .next (ringWrite s)

/-- MSIX_COALESCE_EXPIRE (R501). -/
def execMsixCoalesceExpire (r : Nat) (s : State) : Host.Outcome State Fault Refusal := .next (coalesceExpire r s)

/-- RING_FULL_RESIGNAL (R502). -/
def execRingFullResignal (s : State) : Host.Outcome State Fault Refusal := .next (ringResignal s)

/-- HIF_LINK (R512). -/
def execHifLink (speed width : Nat) (flit dlup : Bool) (s : State) : Host.Outcome State Fault Refusal :=
  .next (hifLink speed width flit dlup s)

/-- BUS_MASTER_ENABLE (R483). -/
def execBusMasterEnable (on : Bool) (s : State) : Host.Outcome State Fault Refusal := .next (busMaster on s)

end Sys2Proof.Machine
end

