-- ==== Sys2Proof/Machine/Stream.lean ====
section
/-! DEFINITION. Stream.lean: the structure stream as bytes: frames, header, directory, and the rules on them that need no
state of the device (R294 to R303, R308, R522). -/
namespace Sys2Proof.Machine

/-! ### Frames (R294, R295) -/

/-- A frame whose CRC has passed. -/
structure Frame where
  addr : Nat
  rep : Nat
  flags : Nat
  sect : Nat
  payload : List Byte
  /-- payload and trailer bytes 0 to 11: what a section's digest takes (R301) -/
  hashed : List Byte
  deriving DecidableEq, Repr

/-- FLAGS.ZERO and FLAGS.LAST. -/
def Frame.zero (f : Frame) : Bool := nbit f.flags 0
def Frame.last (f : Frame) : Bool := nbit f.flags 1

/-- The frame in 528 bytes; none where its CRC fails (R294, R296). -/
def frameOf (b : List Byte) : Option Frame :=
  if b.length = 528 && leAt b 524 4 == (crc32c (b.take 524)).toNat then
    some ⟨leAt b 512 6, leAt b 518 2, leAt b 520 2, leAt b 522 2, b.take 512, b.take 524⟩
  else none

/-- What the loader expects of the next frame (R297): section, address, whether the section is encrypted or a FIRMWARE
section, how many of the section's frames come before this one, how many it has (none for the directory), and its LEN. -/
structure Expect where
  sect : Nat
  addr : Nat
  enc : Bool
  firmware : Bool
  before : Nat
  nframes : Option Nat
  len : Nat
  deriving DecidableEq, Repr

/-- The frame is its section's last by count; the directory ends with the frame that holds its last byte. -/
def Expect.isLast (x : Expect) (f : Frame) : Bool :=
  match x.nframes with
  | some n => x.before + 1 == n
  | none => decide (x.len ≤ 512 * (f.addr + f.rep))

/-- The rules of R297 (and R514 for a FIRMWARE section) in ascending code. -/
def frameRules (x : Expect) (f : Frame) : List (Nat × Bool) :=
  let blocks := f.addr + f.rep
  [(0x02, f.sect != x.sect), (0x03, f.addr != x.addr),
   (0x04, f.rep == 0 || (x.enc && f.rep != 1 && !f.zero) || (x.firmware && (f.rep != 1 || f.zero))),
   (0x05, decide (4 ≤ f.flags)), (0x06, f.last != x.isLast f),
   (0x07, x.isLast f && !(decide (512 * (blocks - 1) < x.len) && decide (x.len ≤ 512 * blocks))),
   (0x08, f.zero && !allZero f.payload)]

/-- The reason of the first rule a frame breaks. -/
def frameFault (x : Expect) (f : Frame) : Option Nat := ((frameRules x f).find? (·.2)).map (·.1)

/-- The content bytes that a frame stores (R295). -/
def Frame.content (f : Frame) : List Byte :=
  (List.replicate f.rep (if f.zero then List.replicate 512 0#8 else f.payload)).flatten

/-! ### The header (R298 to R300) -/

/-- Fields of a header's 512 bytes. -/
def hdrGen (h : List Byte) : Nat := leAt h 6 2
def hdrClass (h : List Byte) : Nat := leAt h 8 1
def hdrVmode (h : List Byte) : Nat := leAt h 9 1
def hdrDepth (h : List Byte) : Nat := leAt h 10 2
def hdrLat (h : List Byte) (k : Nat) : Nat := leAt h (12 + 2 * k) 2
def hdrNdev (h : List Byte) : Nat := leAt h 28 4
def hdrDiam (h : List Byte) : Nat := leAt h 32 4
def hdrFdist (h : List Byte) : Nat := leAt h 36 4
def hdrCkint (h : List Byte) : Nat := leAt h 40 4
def hdrReloadable (h : List Byte) : Bool := nbit (leAt h 44 2) 0
def hdrFp (h : List Byte) : Nat := leAt h 48 32
def hdrDirdig (h : List Byte) : Nat := leAt h 80 32
def hdrDirlen (h : List Byte) : Nat := leAt h 112 4
def hdrKeyid (h : List Byte) : Nat := leAt h 116 4

/-- The image classes (R299). -/
def clsBoot : Nat := 1
def clsDesign : Nat := 2
def clsReload : Nat := 3
def clsRimpart : Nat := 4

/-- A field of the header is out of range or a byte that must be 0 is not (R298, R299). -/
def hdrField (h : List Byte) : Bool :=
  let c := hdrClass h
  let d := hdrDepth h
  !(decide (1 ≤ c) && decide (c ≤ 4)) || !allZero ((h.drop 120).take 8) || !allZero (h.drop 192) ||
    (if c = clsBoot then !allZero ((h.drop 9).take 71)
     else decide (1 < hdrVmode h) || !(decide (64 ≤ d) && decide (d ≤ 2048) && d % 64 == 0) ||
       !(decide (1 ≤ hdrNdev h) && decide (hdrNdev h ≤ 262144)) || decide (2 ^ 18 ≤ hdrDiam h) || hdrFdist h == 0 ||
       decide (2 ^ 24 ≤ hdrCkint h) || decide (2 ≤ leAt h 44 2) || leAt h 46 2 != 0)

/-- The reason of LOAD_HDR that the header alone gives (R308). -/
def hdrFault (h : List Byte) : Option Nat :=
  if leAt h 0 4 ≠ 0x53444B49 then some 1
  else if leAt h 5 1 ≠ 1 then some 2
  else if hdrField h then some 3
  else none

/-- The first byte in which a RELOAD or RIMPART header differs from the loaded DESIGN header, CLASS and what an image's own
directory and signature give apart (R299, R316). -/
def hdrDiffers (h g : List Byte) : Option Nat :=
  ([6, 7] ++ (List.range 71).map (9 + ·)).find? fun i => h.getD i 0 != g.getD i 0

/-! ### The directory (R301 to R303) -/

/-- NSEC of a directory content. -/
def dirNsec (d : List Byte) : Nat := leAt d 0 4

/-- Entry i of a directory content (R301). -/
def dirEntry (d : List Byte) (i : Nat) : DirEnt :=
  let b := (d.drop (16 + 96 * i)).take 96
  { dig := leAt b 0 32, iv := (b.drop 32).take 12, gtag := (b.drop 44).take 16, ty := leAt b 60 1
    enc := nbit (leAt b 61 1) 0, sflags := leAt b 61 1, index := leAt b 62 2, ldev := leAt b 64 4
    nframes := leAt b 68 4, len := leAt b 72 8, part := leAt b 80 4, aad := b.drop 60 }

/-- The entries of a directory content. -/
def dirEntries (d : List Byte) : List DirEnt := (List.range (dirNsec d)).map (dirEntry d)

/-- The section types (R302). -/
def tyFirmware : Nat := 0x01
def tyRimbase : Nat := 0x02
def tyRimpart : Nat := 0x03
def tyClause : Nat := 0x10
def tyDict : Nat := 0x11
def tySwitch : Nat := 0x12
def tySlotmap : Nat := 0x18
def tyWindow : Nat := 0x19
def tyReloc : Nat := 0x1A
def tyPatch : Nat := 0x1B
def tyProtdesc : Nat := 0x1C

/-- INDEX fits the type (R302, R542). -/
def indexOk (ty index : Nat) : Bool :=
  if ty = tyFirmware then decide (index < 2)
  else if ty = tyRimpart then decide (index < 16)
  else if ty = tyClause ∨ ty = tyDict ∨ ty = tySwitch then decide (index < 64)
  else if ty = tyProtdesc then decide (1 ≤ index) && decide (index < 65535)
  else index == 0xFFFF

/-- The classes that may carry a type (R302). -/
def classHas (cls ty : Nat) : Bool :=
  if cls = clsBoot then ty == tyFirmware || ty == tyRimbase
  else if cls = clsDesign then ty != tyFirmware
  else if cls = clsReload then ty == tyClause || ty == tyDict || ty == tySwitch
  else ty == tyRimpart

/-- The type is listed (R302). -/
def tyListed (ty : Nat) : Bool :=
  [tyFirmware, tyRimbase, tyRimpart, tyClause, tyDict, tySwitch, tySlotmap, tyWindow, tyReloc, tyPatch, tyProtdesc].contains ty

/-- A directory entry breaks R301, or has ENC on a type that may not (R303). -/
def entField (h : List Byte) (e : DirEnt) : Bool :=
  !tyListed e.ty || decide (2 ≤ e.sflags) || !indexOk e.ty e.index || e.nframes == 0 || !allZero (e.aad.drop 24) ||
    (if hdrClass h = clsBoot then e.ldev != 0xFFFFFFFF else decide (hdrNdev h ≤ e.ldev)) ||
    (if e.enc then !([tyClause, tyDict, tySwitch, tyRimpart].contains e.ty)
     else !allZero e.iv || !allZero e.gtag || e.part != 0)

/-- The place of a section within its LDEV (R303); FIRMWARE sections have none. -/
def entRank (e : DirEnt) : Option Nat :=
  let at_ := fun (a b : Nat) => some (a * 2 ^ 17 + b)
  if e.ty = tyReloc then at_ 1 0
  else if e.ty = tyWindow then at_ 1 1
  else if e.ty = tySlotmap then at_ 1 2
  else if e.ty = tyProtdesc then at_ 2 e.index
  else if e.ty = tyRimbase then at_ 3 0
  else if e.ty = tyRimpart then at_ 3 (1 + e.index)
  else if e.ty = tyDict then at_ 4 (3 * e.index)
  else if e.ty = tySwitch then at_ 4 (3 * e.index + 1)
  else if e.ty = tyClause then at_ 4 (3 * e.index + 2)
  else if e.ty = tyPatch then at_ 5 0
  else none

/-- Entry e may not follow the entries before it, or its class may not carry it (R302, R303). -/
def entOrder (cls : Nat) (before : List DirEnt) (e : DirEnt) : Bool :=
  !classHas cls e.ty || before.any (fun p => p.ty == e.ty && p.index == e.index && p.ldev == e.ldev) ||
    before.any fun p => decide (e.ldev < p.ldev) ||
      (p.ldev == e.ldev && (match entRank p, entRank e with | some a, some b => decide (b ≤ a) | _, _ => false))

/-- LEN differs from the length that the type fixes (R302, R542). -/
def entSize (depth : Nat) (e : DirEnt) : Bool :=
  if e.ty = tyClause then e.len != 8192 * depth
  else if e.ty = tyDict then e.len != 4096
  else if e.ty = tySwitch then e.len != 384 * depth
  else if e.ty = tySlotmap then e.len != 4608
  else if e.ty = tyWindow then e.len != 4096
  else if e.ty = tyReloc then !(decide (16 ≤ e.len) && (e.len - 16) % 32 == 0 && decide (e.len ≤ 16 + 32 * 64))
  else if e.ty = tyPatch then e.len % 32 != 0
  else if e.ty = tyProtdesc then e.len != 64
  else false

/-- The first entry that breaks a rule: reason and section (R308). -/
def entsFault (h : List Byte) : List DirEnt → Nat → List DirEnt → Option (Nat × Nat)
  | _, _, [] => none
  | before, i, e :: t =>
    if entField h e then some (4, i)
    else if entOrder (hdrClass h) before e then some (5, i)
    else if entSize (hdrDepth h) e then some (6, i)
    else entsFault h (before ++ [e]) (i + 1) t

/-- A type stands in the sections of a device. -/
def hasTy (es : List DirEnt) (ldev ty index : Nat) : Bool :=
  es.any fun e => e.ldev == ldev && e.ty == ty && e.index == index

/-- The sections that a class requires are not all there (R302, R311). -/
def dirIncomplete (cls : Nat) (es : List DirEnt) : Bool :=
  let devs := (es.map fun (e : DirEnt) => e.ldev).dedup
  if cls = clsBoot then !hasTy es 0xFFFFFFFF tyFirmware 0 || !hasTy es 0xFFFFFFFF tyFirmware 1
  else if cls = clsDesign then
    devs.any fun d => !hasTy es d tyReloc 0xFFFF || !hasTy es d tyWindow 0xFFFF || !hasTy es d tySlotmap 0xFFFF
  else if cls = clsReload then
    es.any fun e => !hasTy es e.ldev tyDict e.index || !hasTy es e.ldev tySwitch e.index ||
      !hasTy es e.ldev tyClause e.index
  else false

/-- The reason and section of LOAD_HDR that a directory gives, LDEV apart (R308): what no one section breaks names none. -/
def dirFault (h d : List Byte) : Option (Nat × Nat) :=
  let n := dirNsec d
  if !(decide (1 ≤ n) && decide (n ≤ 65534)) || !allZero ((d.drop 4).take 12) || hdrDirlen h != 16 + 96 * n then
    some (4, 0xFFFF)
  else
    match entsFault h [] 0 (dirEntries d) with
    | some f => some f
    | none => if dirIncomplete (hdrClass h) (dirEntries d) then some (5, 0xFFFF) else none

/-- A clause has its three sections in the sections of a device (R302). -/
def clauseCarried (es : List DirEnt) (ldev c : Nat) : Bool :=
  hasTy es ldev tyDict c && hasTy es ldev tySwitch c && hasTy es ldev tyClause c

/-! ### Firmware contents (R522) -/

/-- Fields of a FIRMWARE content. -/
def fwVer (c : List Byte) : Nat := leAt c 4 2
def fwHotfix (c : List Byte) : Bool := nbit (leAt c 7 1) 0
def fwEntry (c : List Byte) : Nat := leAt c 8 4
def fwCodelen (c : List Byte) : Nat := leAt c 12 4
def fwNpatch (c : List Byte) : Nat := leAt c 16 2
def fwHandver (c : List Byte) : Nat := leAt c 18 2
def fwBasedig (c : List Byte) : Nat := leAt c 20 32

/-- Patch k of a hotfix: LINE and the 32 bytes. -/
def fwPatch (c : List Byte) (k : Nat) : Nat × List Byte :=
  let o := 64 + fwCodelen c + 48 * k
  (leAt c o 4, (c.drop (o + 16)).take 32)

/-- A FIRMWARE content of a pair obeys R522. -/
def fwOk (pair : Nat) (c : List Byte) : Bool :=
  leAt c 0 4 == 0x57464B49 && leAt c 6 1 == pair && decide (leAt c 7 1 < 2) &&
    c.length == 64 + fwCodelen c + 48 * fwNpatch c && allZero ((c.drop 52).take 12) &&
    (if fwHotfix c then fwCodelen c == 0 && decide (1 ≤ fwNpatch c) && decide (fwNpatch c ≤ 16)
     else fwNpatch c == 0 && fwBasedig c == 0 && (pair != 1 || decide (fwCodelen c ≤ 0x70000)))

/-! ### A whole BOOT stream in memory or flash (R320, R525, R527) -/

/-- The frames of a stream's bytes. -/
def framesOf (b : List Byte) : List (Option Frame) :=
  (List.range (b.length / 528)).map fun i => frameOf ((b.drop (528 * i)).take 528)

/-- The frames of one section taken from a stream: its content, the bytes to be hashed, and the rest; none where a frame
breaks a rule (R297). -/
def takeSection : Expect → List (Option Frame) → Nat → Option (List Byte × List Byte × List (Option Frame))
  | _, _, 0 => none
  | _, [], _ => none
  | _, none :: _, _ => none
  | x, some f :: t, fuel + 1 =>
    if (frameFault x f).isSome then none
    else if x.isLast f then some (f.content, f.hashed, t)
    else
      (takeSection { x with addr := f.addr + f.rep, before := x.before + 1 } t fuel).map fun r =>
        (f.content ++ r.1, f.hashed ++ r.2.1, r.2.2)

/-- The contents of the sections of a stream after its directory; none where a frame breaks a rule. -/
def takeSections : List DirEnt → Nat → List (Option Frame) → Option (List (DirEnt × List Byte × List Byte))
  | [], _, _ => some []
  | e :: es, i, fs =>
    match takeSection ⟨i, 0, e.enc, e.ty == tyFirmware, 0, some e.nframes, e.len⟩ fs (fs.length + 1) with
    | none => none
    | some (c, w, rest) => (takeSections es (i + 1) rest).map fun l => (e, c.take e.len, w) :: l

/-- A BOOT stream taken apart: header, directory, sections with content and bytes to be hashed; or the low code byte, the
reason of the refusal it meets (R307) by the rules that need no device state. SIG and digests are the caller's. -/
structure BootStream where
  hdr : List Byte
  dir : List Byte
  secs : List (DirEnt × List Byte × List Byte)
  /-- wire frames up to the end of the directory (R514) -/
  wire : Nat
  deriving DecidableEq, Repr

/-- The expectation of the header and of the directory. -/
def expectHeader : Expect := ⟨0xFFFF, 0, false, false, 0, some 1, 512⟩
def expectDir (h : List Byte) : Expect := ⟨0xFFFE, 0, false, false, 0, none, hdrDirlen h⟩

/-- The header frame of a stream. -/
def streamHeader (b : List Byte) : Option (List Byte) :=
  match framesOf (b.take 528) with
  | some f :: _ => if (frameFault expectHeader f).isSome then none else some f.payload
  | _ => none

/-- A BOOT stream taken apart, or the low byte of the code that refuses it: 0x13 frame, 0x14 header or directory. -/
def bootStream (b : List Byte) : BootStream ⊕ Nat :=
  match streamHeader b with
  | none => .inr 0x13
  | some h =>
    if (hdrFault h).isSome then .inr 0x14
    else
      let fs := (framesOf b).drop 1
      match takeSection (expectDir h) fs (fs.length + 1) with
      | none => .inr 0x13
      | some (dc, _, rest) =>
        let d := dc.take (hdrDirlen h)
        if (dirFault h d).isSome then .inr 0x14
        else
          match takeSections (dirEntries d) 0 rest with
          | none => .inr 0x13
          | some l => .inl ⟨h, d, l, 1 + (fs.length - rest.length)⟩

/-- The content of a FIRMWARE section of a stream. -/
def BootStream.firmware (x : BootStream) (pair : Nat) : List Byte :=
  ((x.secs.find? fun e => e.1.ty == tyFirmware && e.1.index == pair).map fun e => e.2.1).getD []

/-- The wire frame at which the FIRMWARE section of a pair begins (R514). -/
def BootStream.fwFrame (x : BootStream) (pair : Nat) : Nat :=
  x.wire + ((x.secs.takeWhile fun e => !(e.1.ty == tyFirmware && e.1.index == pair)).map fun e => e.1.nframes).sum

end Sys2Proof.Machine
end

