-- ==== Sys2Proof/Machine/Place.lean ====
section
/-! DEFINITION. Place.lean: the placement of an image on the device and the load-time checks of regions, windows, slot maps,
protected partitions, connections and patch records (R242 to R244, R273, R278 to R291, R542). -/
namespace Sys2Proof.Machine

/-! ### Refusals (R280) -/

/-- A refusal of a load: the low byte of its event's code less 0x10, its reason where it has one, its payload. -/
structure Ref where
  k : Nat
  reason : Option Nat
  payload : List Nat
  deriving DecidableEq, Repr

/-- LOAD_PARSE (R280): reason, logical clause, physical clause, BP field, phase. -/
def refParse (reason lc pc bp phase : Nat) : Ref :=
  ⟨0, some reason, [reason * 2 ^ 24 + lc * 2 ^ 16 + pc * 2 ^ 8, bp % 65536 * 2 ^ 16 + phase]⟩

/-- LOAD_PARSE of a rule that names no clause. -/
def refRule (reason bp : Nat) : Ref := refParse reason 0xFF 0xFF bp 0xFFFF

/-- LOAD_LAT (R280): entry, physical link or 0xFF, pinned and native latency. -/
def refLat (entry link pinned native : Nat) : Ref :=
  ⟨1, none, [entry * 2 ^ 24 + link * 2 ^ 16 + pinned, native]⟩

/-! ### The transform (R283, R284) -/

/-- (x', y') of a transform. -/
def xfPlace (xf x y : Nat) : Nat × Nat :=
  match xf with
  | 0 => (x, y)
  | 1 => (7 - y, x)
  | 2 => (7 - x, 7 - y)
  | 3 => (y, 7 - x)
  | 4 => (7 - x, y)
  | 5 => (x, 7 - y)
  | 6 => (y, x)
  | _ => (7 - y, 7 - x)

/-- T of a port: 0 N, 1 E, 2 S, 3 W. -/
def xfPort (xf d : Nat) : Nat :=
  match xf with
  | 0 => d
  | 1 => (d + 1) % 4
  | 2 => (d + 2) % 4
  | 3 => (d + 3) % 4
  | 4 => (4 - d) % 4
  | 5 => (6 - d) % 4
  | 6 => 3 - d
  | _ => (5 - d) % 4

/-- The transform that undoes a transform on ports. -/
def xfInverse (xf : Nat) : Nat := if xf = 1 then 3 else if xf = 3 then 1 else xf

/-- The physical clause of a logical clause; none off the grid. -/
def physOf (xf dx dy c : Nat) : Option Nat :=
  let p := xfPlace xf (c % 8) (c / 8)
  if p.1 + dx < 8 ∧ p.2 + dy < 8 then some (8 * (p.2 + dy) + (p.1 + dx)) else none

/-- The physical clause of a logical clause under an image's placement. -/
def Img.phys (g : Img) (c : Nat) : Option Nat := physOf g.xf g.dx g.dy c

/-- A switch word rewritten by a transform (R284). -/
def rewriteSwitch (xf w : Nat) : Nat :=
  (List.range 320).foldl (fun a o =>
    let sel := nbits w (9 * o) 9
    let code := sel / 64
    let code' := if 1 ≤ code ∧ code ≤ 4 then 1 + xfPort xf (code - 1) else code
    let o' := if o < 256 then 64 * xfPort xf (o / 64) + o % 64 else o
    a + (64 * code' + sel % 64) * 2 ^ (9 * o')) (w / 2 ^ 2880 * 2 ^ 2880)

/-- The 24 chunks of a switch word (R156). -/
def chunksOf (w : Nat) : List (Nat × QWord) := (List.range 24).map fun i => (i, BitVec.ofNat 128 (w >>> (128 * i)))

/-- Port d of a logical clause is used by its switch words: an output of the port has a SEL, or a SEL names it (R283). -/
def portUsed (words : List Nat) (d : Nat) : Bool :=
  words.any fun w =>
    (List.range 64).any (fun k => nbits w (9 * (64 * d + k)) 9 != 0) ||
      (List.range 320).any fun o => nbits w (9 * o) 9 / 64 == 1 + d

/-- A port of a clause is an edge port. -/
def edgePort (c d : Nat) : Bool := (linkOf c d).isSome

/-- The physical link of a logical link, if its port stays on the edge (R284). -/
def Img.physLink (g : Img) (l : Nat) : Option Nat :=
  match g.phys (linkPort l).1 with
  | some pc => linkOf pc (xfPort g.xf (linkPort l).2)
  | none => none

/-! ### Relocation (R282, R285, R286) -/

/-- Fields of a placement record. -/
def plXf (p : List Byte) : Nat := leAt p 0 1
def plNreg (p : List Byte) : Nat := leAt p 2 2
def plNdev (p : List Byte) : Nat := leAt p 4 4
def plPbase (p : List Byte) (r : Nat) : Nat := leAt p (8 + 8 * r) 8
def plDmap (p : List Byte) (d : Nat) : Nat := leAt p (8 + 8 * plNreg p + 4 * d) 4

/-- The physical number that a placement gives a logical device (R282). -/
def dmapOf (pl : Option (List Byte)) (d : Nat) : Nat :=
  match pl with
  | some p => plDmap p d
  | none => d

/-- The own logical device (R304): the one whose device-map entry holds the device's number. -/
def ownLdev (pl : Option (List Byte)) (num : Nat) : Option Nat :=
  match pl with
  | some p => (List.range (plNdev p)).find? fun d => plDmap p d == num
  | none => some num

/-- NREG of a relocation table, and its region records with their physical bases. -/
def relocRegions (c : List Byte) (pl : Option (List Byte)) : List Region :=
  (List.range (leAt c 0 2)).map fun r =>
    let o := 16 + 32 * r
    { lbase := leAt c o 8, len := leAt c (o + 8) 8
      pbase := match pl with | some p => plPbase p r | none => leAt c (o + 16) 8
      kind := leAt c (o + 24) 1, flags := leAt c (o + 25) 1 }

/-- NREG disagrees with the section's length or with the placement record (R279). -/
def nregFault (c : List Byte) (pl : Option (List Byte)) : Option Ref :=
  if leAt c 0 2 ≠ (c.length - 16) / 32 ∨ (pl.map fun p => plNreg p != leAt c 0 2).getD false then
    some (refRule 0x42 0xFFFF) else none

/-- Transform and offset in effect. -/
def placeXf (c : List Byte) (pl : Option (List Byte)) : Nat × Nat × Nat :=
  match pl with
  | some p => if plXf p = 0xFF then (leAt c 2 1, leAt c 3 1 % 8, leAt c 3 1 / 8 % 8)
      else (plXf p, leAt p 1 1 % 8, leAt p 1 1 / 8 % 8)
  | none => (leAt c 2 1, leAt c 3 1 % 8, leAt c 3 1 / 8 % 8)

/-- Two ranges meet. -/
def meets (a n b m : Nat) : Bool := decide (0 < n) && decide (0 < m) && decide (a < b + m) && decide (b < a + n)

/-- The range of a KIND: base and end (R286). -/
def kindRange (k : Nat) : Nat × Nat := if k = 0 then (0x40000000, 0x44000000) else (0x001000000000, 0x002800000000)

/-- Region r breaks R286. -/
def regionBad (rs : List Region) (r : Nat) : Bool :=
  match rs[r]? with
  | none => false
  | some g =>
    let k := kindRange g.kind
    let unit := if g.kind = 0 then 4194304 else 4096
    decide (1 < g.kind) || !(decide (k.1 ≤ g.pbase) && decide (g.pbase + g.len ≤ k.2)) ||
      g.pbase % unit != g.lbase % unit ||
      (rs.take r).any fun h => meets g.lbase g.len h.lbase h.len || meets g.pbase g.len h.pbase h.len

/-- The device map breaks R285: the logical device named. -/
def dmapFault (pl : Option (List Byte)) (own num : Nat) (valid : Bool) : Option Nat :=
  let l := match pl with
    | some p => (List.range (plNdev p)).map fun d => (d, plDmap p d)
    | none => []
  match l.find? fun e => decide (2 ^ 18 ≤ e.2) || (l.take e.1).any fun h => h.2 == e.2 with
  | some e => some e.1
  | none => if !valid || dmapOf pl own != num then some own else none

/-! ### Windows (R208, R279, R283, R286) -/

/-- Window m of a WINDOW content. -/
def winOf (c : List Byte) (m : Nat) : QWord := BitVec.ofNat 128 (leAt c (16 * m) 16)

/-- A window breaks the field rules of 0x30. -/
def winField (w : QWord) : Bool :=
  if winEn w then fieldOf w 7 22 != 0 || fieldOf w 32 8 != 0 || fieldOf w 80 16 != 0 || winSize w == 0 else w != 0

/-- The regions that hold a window wholly. -/
def winRegions (rs : List Region) (w : QWord) : List Region :=
  rs.filter fun g => decide (g.lbase ≤ winBase w) && decide (winBase w + winSize w * 256 ≤ g.lbase + g.len)

/-- A window rebased into a region. -/
def rebase (g : Region) (w : QWord) : QWord :=
  BitVec.ofNat 128 (putBits w.toNat 32 48 (winBase w + g.pbase - g.lbase))

/-- A range overlaps a spare pool of `mib` MiB at the top of each stack (R226, R279). -/
def inPool (mib a n : Nat) : Bool :=
  (List.range 4).any fun k => meets a n (0x001000000000 + (k + 1) * 0x600000000 - mib * 1048576) (mib * 1048576)

/-- The outcome for logical master m: its rebased window, or the reason that refuses it (R281). -/
def winPlace (rs : List Region) (mib : Nat) (w : QWord) : QWord ⊕ Nat :=
  if !winEn w then (if winField w then .inr 0x30 else .inl w)
  else
    match winRegions rs w with
    | [g] =>
      let v := rebase g w
      let a := winBase v
      let n := winSize v * 256
      if winField w then .inr 0x30
      else if !((decide (0x40000000 ≤ a) && decide (a + n ≤ 0x44000000)) ||
          (decide (0x001000000000 ≤ a) && decide (a + n ≤ 0x002800000000))) || inPool mib a n then .inr 0x31
      else if winB v && !(isLex a && lexBank a % 16 == 0 && lexBank (a + n - 1) == lexBank a && isLex (a + n - 1)) then
        .inr 0x32
      else .inl v
    | _ => .inr 0x44

/-- The first logical master whose window is refused. -/
def winFault (rs : List Region) (mib : Nat) (c : List Byte) : Option Ref :=
  (List.range 256).findSome? fun m => match winPlace rs mib (winOf c m) with | .inr r => some (refRule r m) | .inl _ => none

/-- The windows by physical master (R283). -/
def Img.windows (g : Img) (mib : Nat) (c : List Byte) : Kv QWord :=
  (List.range 256).foldl (fun t m =>
    match winPlace g.regions mib (winOf c m), g.phys (m / 4) with
    | .inl v, some pc => if winEn v then kvSet 0#128 t (4 * pc + m % 4) v else t
    | _, _ => t) []

/-- A logical clause that is carried, or has an enabled window, lies off the grid (0x40). The manual names no clause for a
transform code above 7: a free value (log 4). -/
def placeFault (g : Img) (es : List DirEnt) (c : List Byte) (free : Nat) : Option Ref :=
  if 7 < g.xf then some (refRule 0x40 free)
  else
    ((List.range 64).find? fun k =>
      (g.phys k).isNone && (clauseCarried es g.ldev k || [0, 1, 2, 3].any fun q => winEn (winOf c (4 * k + q)))).map
      fun k => refParse 0x40 k 0xFF k 0xFFFF

/-! ### Slot maps (R243, R244, R278, R279) -/

/-- Record l of a SLOTMAP content. -/
def slotRec (c : List Byte) (l : Nat) : List Byte := (c.drop (144 * l)).take 144

/-- A record as a slot map. -/
def slotMapOf (b : List Byte) : SlotMap :=
  let w := leAt b 0 4
  { en := nbit w 31, mode := nbits w 30 1, srx := nbits w 22 7, stx := nbits w 15 7, lat := nbits w 0 13
    peer := leAt b 4 4
    txl := ((b.drop 8).take 64).map BitVec.toNat, rxl := ((b.drop 72).take 64).map BitVec.toNat }

/-- The reason that a record alone gives (0x38 to 0x3A); lat7 is vector entry 7. -/
def slotFault (lat7 : Nat) (b : List Byte) : Option Nat :=
  let m := slotMapOf b
  let w := leAt b 0 4
  if !m.en then (if allZero b then none else some 0x38)
  else if nbit w 29 || nbits w 13 2 != 0 || decide (2 ^ 18 ≤ m.peer) || decide (64 < m.stx) || decide (64 < m.srx) ||
      (m.txl ++ m.rxl).any (fun v => decide (64 ≤ v)) || (m.txl.drop m.stx ++ m.rxl.drop m.srx).any (· != 0) ||
      !allZero (b.drop 136) then some 0x38
  else if !decide (m.txl.take m.stx).Nodup || !decide (m.rxl.take m.srx).Nodup then some 0x39
  else if m.lat % 8 != 0 || decide (m.lat < if m.mode = 0 then 160 else 64) || decide (4096 < m.lat) ||
      decide (m.lat < lat7) then some 0x3A
  else none

/-- The clause of a used logical link is not carried, or the port is an edge port in only one placement (R281). -/
def slotConn (g : Img) (es : List DirEnt) (l : Nat) : Option Ref :=
  let c := (linkPort l).1
  if !clauseCarried es g.ldev c || (g.physLink l).isNone then some (refParse 0x41 c ((g.phys c).getD 0xFF) c 0xFFFF)
  else none

/-! ### Protected partitions (R542) -/

/-- A PROTDESC content with its claims at their physical places. -/
def protOf (g : Img) (c : List Byte) : ProtDesc :=
  let cl := leAt c 8 8
  let ms := leAt c 16 32
  { part := leAt c 4 4, keyslot := leAt c 50 1
    clauses := maskOf 64 fun k => (List.range 64).any fun j => nbit cl j && g.phys j == some k
    masters := (List.range 256).filterMap fun m => if nbit ms m then (g.phys (m / 4)).map fun p => 4 * p + m % 4 else none
    regions := leAt c 48 2 }

/-- A descriptor's fields break R542, or it claims what another one claims (0x34). -/
def protField (prot : List ProtDesc) (index : Nat) (c : List Byte) (d : ProtDesc) : Bool :=
  leAt c 0 4 != 0x50444B49 || d.part != index || decide (3 < d.keyslot) || !allZero (c.drop 51) ||
    prot.any fun e => (e.clauses &&& d.clauses) != 0 || (e.regions &&& d.regions) != 0 ||
      e.masters.any (d.masters.contains ·)

/-- The masters of enabled windows. -/
def enabledWins (win : Kv QWord) : List (Nat × QWord) := win.filter fun e => winEn e.2

/-- A claimed window overlaps a window that the same partition does not claim (0x33): the logical master. -/
def protOverlap (g : Img) (win : Kv QWord) (d : ProtDesc) : Option Nat :=
  (List.range 256).find? fun m =>
    match g.phys (m / 4) with
    | none => false
    | some p =>
      let k := 4 * p + m % 4
      let w := kvGet 0#128 win k
      d.masters.contains k && winEn w && (enabledWins win).any fun e =>
        !d.masters.contains e.1 && meets (winBase w) (winSize w * 256) (winBase e.2) (winSize e.2 * 256)

/-- An ENC section's partition has no descriptor, or does not claim what the section is for (0x35). -/
def protClaim (g : Img) (e : DirEnt) : Bool :=
  match g.prot.find? fun d => d.part == e.part with
  | none => true
  | some d =>
    if e.ty = tyRimpart then !nbit d.regions e.index
    else match g.phys e.index with
      | some p => !nbit d.clauses p
      | none => true

/-! ### Patch records (R289 to R291) -/

/-- A patch-table record. -/
structure PatchRec where
  set : Nat
  mode : Nat
  flags : Nat
  clause : Nat
  kind : Nat
  index : Nat
  phase : Nat
  word : QWord
  deriving DecidableEq, Repr

/-- Record i of a PATCH content. -/
def patchRec (c : List Byte) (i : Nat) : PatchRec :=
  let o := 32 * i
  ⟨leAt c o 2, leAt c (o + 2) 1, leAt c (o + 3) 1, leAt c (o + 4) 1, leAt c (o + 5) 1, leAt c (o + 6) 2, leAt c (o + 8) 2,
    BitVec.ofNat 128 (leAt c (o + 16) 16)⟩

/-- The records of a PATCH content. -/
def patchRecs (c : List Byte) : List PatchRec := (List.range (c.length / 32)).map (patchRec c)

/-- The sort key of a record (R290). -/
def PatchRec.key (r : PatchRec) : Nat :=
  (((r.set * 256 + r.clause) * 256 + r.kind) * 65536 + r.index) * 65536 + r.phase

/-- Record i breaks R290 after the records before it. -/
def patchRecBad (depth : Nat) (carried : Nat → Bool) (before : List PatchRec) (pad : List Byte) (r : PatchRec) : Bool :=
  let top := if r.mode = 3 then 1023 else if r.kind = 1 then 23 else 511
  r.set == 0 || (r.mode != 1 && r.mode != 3) || decide (1 < r.flags) || decide (1 < r.kind) || !carried r.clause ||
    decide (top < r.index) || decide (depth ≤ r.phase) || !allZero pad ||
    (r.mode == 3 && (r.kind != 0 || r.phase != 0 || r.word.toNat / 2 ^ 32 != 0)) ||
    before.any fun p => decide (r.key < p.key) || (p.key == r.key && p.mode == r.mode) ||
      (p.set == r.set && p.flags != r.flags)

/-- The first record that breaks R290 (0x48). -/
def patchRecFault (g : Img) (depth : Nat) (es : List DirEnt) (c : List Byte) : Option Ref :=
  let rs := patchRecs c
  if 4096 < rs.length then some (refRule 0x48 4096)
  else
    (rs.zipIdx.find? fun e =>
      patchRecBad depth (fun k => decide (k < 64) && clauseCarried es g.ldev k) (rs.take e.2)
        ((c.drop (32 * e.2 + 10)).take 6) e.1).map fun e =>
      if e.1.clause < 64 then refParse 0x48 e.1.clause ((g.phys e.1.clause).getD 0xFF) e.2 0xFFFF
      else refRule 0x48 e.2

/-- The units that the records of a set take, in record order (R291): record index, address of R203, word. A unit of a
switch chunk stands for every chunk record of its clause and phase; stored is the stored switch word. -/
def patchUnits (g : Img) (stored : Nat → Nat → Nat) (set : Nat) : List (Nat × Nat × QWord) :=
  let rs := (patchRecs g.patches).zipIdx.filter fun e => e.1.set == set
  rs.flatMap fun e =>
    let r := e.1
    match g.phys r.clause with
    | none => []
    | some pc =>
      let addr := fun (kind idx : Nat) => r.mode * 2 ^ 30 + pc * 2 ^ 24 + kind * 2 ^ 23 + idx * 2 ^ 11 + r.phase
      if r.mode = 3 ∨ r.kind = 0 then [(e.2, addr 0 r.index, r.word)]
      else
        let group := rs.filter fun h => h.1.kind == 1 && h.1.clause == r.clause && h.1.phase == r.phase
        if (group.head?.map fun (h : PatchRec × Nat) => h.2) ≠ some e.2 then []
        else
          let old := stored pc r.phase
          let logical := rewriteSwitch (xfInverse g.xf) old
          let new := rewriteSwitch g.xf (group.foldl (fun w h => putBits w (128 * h.1.index) 128 h.1.word.toNat) logical)
          ((chunksOf new).filter fun k => nbits old (128 * k.1) 128 != k.2.toNat).map fun k => (e.2, addr 1 k.1, k.2)

end Sys2Proof.Machine
end

