-- ==== Sys2Proof/Machine/Rim.lean ====
section
/-! DEFINITION. Rim.lean: the commands of the rim fabric and of the rim I/O banks (R327 to R384). -/
namespace Sys2Proof.Machine

/-! ### Frames (R331, R338 to R341, R349) -/

/-- A rim frame is written: its error marks and its RIM_ONEHOT are over (R337, R341, R354). -/
def putFrame (a data : Nat) (s : State) : State :=
  { s with rim := { s.rim with
    frames := kvSet 0 s.rim.frames a data
    bad := s.rim.bad.filter fun e => e.1 / 4 != a
    onehot := kvSet false s.rim.onehot a false } }

/-- LASTERR names a frame (R360). -/
def lastErr (a word : Nat) (s : State) : State := { s with rim := { s.rim with lastRfa := a, lastWord := word } }

/-- A multiplexer finds two or more bits of its select set (R337): once per frame until it is corrected or rewritten. -/
def rimOnehot (a mux : Nat) (s : State) : State :=
  if kvGet false s.rim.onehot a then s
  else
    let s1 := lastErr a s.rim.lastWord (s.count F.RIM_CNT_ONEHOT_COUNT)
    { s1 with rim := { s1.rim with onehot := kvSet false s1.rim.onehot a true } }.raise F.RIM_EVT_ONEHOT 11 3 [a, mux]

/-- The frames that the scrubber reads (R354), of those that hold anything. -/
def State.scrubFrames (s : State) : List Nat :=
  let held : List Nat := s.rim.frames.map Prod.fst ++ s.rim.bad.map fun (e : Nat × Nat) => e.1 / 4
  held.dedup.filter fun a =>
    rfaType a != 3 && (match s.frameRegion a with | some r => s.regionSt r != RegionState.loading | none => true)

/-- The next frame in RFA order after the last one read, or the first (R354). -/
def State.nextFrame (s : State) : Option Nat :=
  let fs := s.scrubFrames
  let least : List Nat → Option Nat := fun l => l.foldl (fun m a => match m with | none => some a | some b => some (min a b)) none
  (least (fs.filter fun a => decide (s.rim.scrub < a))).orElse fun _ => least fs

/-- One word of a scrubbed frame (R353, R354). -/
def scrubWord (a w : Nat) (s : State) : State :=
  match kvGet 0 s.rim.bad (4 * a + w) with
  | 0 => s
  | 1 =>
    let s1 := s.count F.RIM_CNT_FIX_COUNT
    let s2 := { s1 with rim := { s1.rim with
      bad := kvSet 0 s1.rim.bad (4 * a + w) 0, onehot := kvSet false s1.rim.onehot a false } }
    let n := s2.fget F.RIM_CNT_FIX_COUNT
    if isPow2 n then (lastErr a w s2).raise F.RIM_EVT_FRAME_FIX 11 1 [a, w, n] else s2
  | _ =>
    (lastErr a w (s.count F.RIM_CNT_UE_COUNT)).raise F.RIM_EVT_FRAME_UE 11 2 [a, w, (s.frameRegion a).getD 0xFF]

/-- The frame scrubber reads one frame (R354). -/
def rimScrub (s : State) : State :=
  match s.nextFrame with
  | none => s
  | some a => [0, 1, 2, 3].foldl (fun s w => scrubWord a w s) { s with rim := { s.rim with scrub := a } }

/-! ### PLLs and trees (R334, R335) -/

/-- The enabled trees that a PLL feeds. -/
def State.pllTrees (s : State) (p : Nat) : List Nat :=
  (List.range 8).filter fun t => nbit (s.treeFrame t) 4 && nbits (s.treeFrame t) 0 4 / 2 == p

/-- A PLL loses lock, or relocks (R335). -/
def pllLock (p : Nat) (on : Bool) (s : State) : State :=
  if s.pllLocked p == on || !nbit (s.pllFrame p) 24 then s
  else
    { s with rim := { s.rim with pll := kvSet false s.rim.pll p on } }.raise F.RIM_EVT_PLL 11 6
      [p, on.toNat, (s.pllTrees p).length]

/-! ### Regions (R350 to R352) -/

/-- The state of a region changes. -/
def regionTo (r : Nat) (st : RegionState) (s : State) : State :=
  { s with rim := { s.rim with regions := kvSet .active s.rim.regions r st } }

/-- An active region is fenced: its flip-flops load INIT (R350). -/
def regionFence (r : Nat) (s : State) : State :=
  let s1 := regionTo r .fenced s
  { s1 with rim := { s1.rim with
    ff := s1.rim.ff.filter fun (e : Nat × Option Bool) => !((rfaPlace (rfaOf 1 (e.1 / 16) 0)).any (inRegion (s.regionFrame r))) } }

/-- RIM_PR of a load that fences a region, and of a RIMPART section's end (R350, R361): what 0 fenced, 2 loaded, 3 load refused.
RESULT is that of a fence that took effect; for the others the manual gives none and it is a free value (log 4). -/
def loadReport (r what : Nat) (s : State) : State :=
  if what = 0 then s.raise F.RIM_EVT_PR 11 5 [r, 0, 0]
  else s.freshNat.2.raise F.RIM_EVT_PR 11 5 [r, what, s.freshNat.1 % 256]

/-- RIM_PRC reports (R352, R361): what 0 fence, 1 release. -/
def prcReport (r what result : Nat) (s : State) : State :=
  (s.fset F.RIM_PRC_RESULT result).raise F.RIM_EVT_PR 11 5 [r, what, result]

/-- The groups that a region owns (R349). -/
def State.ownedGroups (s : State) (r : Nat) : List Nat := (List.range 16).filter fun g => s.regionOf g == some r

/-- At a release the groups that were filled are reported (R351). -/
def safeReport (r : Nat) (s : State) : State :=
  let fs := (s.ownedGroups r).filterMap fun g => (s.group g).filled
  match fs with
  | [] => s
  | (a, b) :: t =>
    let lo := t.foldl (fun m e => min m e.1) a
    let hi := t.foldl (fun m e => max m e.2) b
    ((s.ownedGroups r).foldl (fun s g => s.modGroup g fun x => { x with filled := none }) s).raise F.RIM_EVT_SAFE 11 7
      ([r] ++ w64 lo ++ w64 hi)

/-- RIM_PRC written with FENCE = 1 (R350, R352). -/
def rimFence (r : Nat) (s : State) : State :=
  let s1 := s.fset F.RIM_PRC_REGION r
  if !s.regionDef r then prcReport r 0 1 s1
  else if s.regionSt r != .active then prcReport r 0 2 s1
  else prcReport r 0 0 (regionFence r s1)

/-- RIM_PRC written with REL = 1 (R350 to R352). -/
def rimRelease (r : Nat) (s : State) : State :=
  let s1 := s.fset F.RIM_PRC_REGION r
  if !s.regionDef r then prcReport r 1 1 s1
  else
    match s.regionSt r with
    | .loading => prcReport r 1 3 s1
    | .active => prcReport r 1 2 s1
    | .fenced => prcReport r 1 0 (safeReport r (regionTo r .active s1))

/-- RIM_PRC written with FENCE and REL (R352). Which of the two its packet names is a free value (log 4). -/
def prcBoth (r : Nat) (s : State) : State :=
  let s1 := s.fset F.RIM_PRC_REGION r
  prcReport r (s1.freshNat.1 % 2) 4 s1.freshNat.2

/-! ### Rim I/O banks (R362 to R384) -/

/-- A rim I/O event (R357, R384): code 0x10 + k is recorded in bit 16 + k. -/
def rimIoRaise (k : Nat) (payload : List Nat) (s : State) : State :=
  let s1 := s.fset F.RIM_EVT_IO (putBit (s.fget F.RIM_EVT_IO) k true)
  if nbit (s.fget F.RIM_EVTEN_IO) k then
    { s1 with evq := s1.evq ++ [{
        src := 11, code := 0x10 + k, payload := payload, step := s.seq.step, time := s.ptime, chk := false }] }
  else s1

/-- The declared VCCIO of a code in mV (R364). -/
def vstdMv : Nat → Nat
  | 0 => 1200
  | 1 => 1500
  | 2 => 1800
  | 3 => 2500
  | _ => 3300

/-- The measured VCCIO lies within 8 % of the declared one (R375). -/
def State.vccOk (s : State) (b : Nat) : Bool :=
  let v := vstdMv (nbits (s.bankFrame b) 768 3)
  let m := (s.bank b).vccmv
  decide (92 * v ≤ 100 * m) && decide (100 * m ≤ 108 * v)

/-- RIM_IO_REL with its RESULT: what 0 release, 1 return to UNREL (R382, R384). -/
def bankReport (b what result : Nat) (s : State) : State :=
  rimIoRaise 0 [b, what, result] (s.fset (F.RIM_IOSTAT_RESULT b) result)

/-- The input path of a bank that is not released (R369, R376): its filters and registers start over. -/
def Bank.quiet (x : Bank) : Bank := { x with fa := 0, faCnt := [], fd := 0, fdCnt := [], inReg := 0, outReg := 0, oeReg := 0 }

/-- VCCIO of a bank has stayed at or above 1.0 V for 1 ms: it is good, and the strap is sensed (R371, R372, R375). -/
def vccioGood (b mv strap : Nat) (s : State) : State :=
  if (s.bank b).st == .off && decide (1000 ≤ mv) then
    rimIoRaise 4 [b, 1, mv] (s.modBank b fun x => { x with st := .unrel, vccmv := mv, strap := strap, refused := 0 })
  else s

/-- VCCIO of a bank falls below 0.9 V: it is lost (R371, R375). -/
def vccioLost (b mv : Nat) (s : State) : State :=
  if (s.bank b).st == .off || decide (900 ≤ mv) then s
  else rimIoRaise 4 [b, 0, mv] (s.modBank b fun x => { x.quiet with st := .off, vccmv := mv, refused := 0 })

/-- RIM_REL.REL written for a bank, with DIS for the same bank or without (R375, R383). -/
def rimRel (b : Nat) (dis : Bool) (s : State) : State :=
  if (s.bank b).st != .unrel then bankReport b 0 6 s
  else if !s.rim.base then bankReport b 0 1 s
  else if !s.vccOk b then bankReport b 0 2 s
  else if dis then bankReport b 0 7 s
  else s.modBank b fun x => { x with st := .check, open_ := 0, short := 0, refused := 0 }

/-- A bank returns to UNREL (R375). -/
def rimDis (b : Nat) (s : State) : State :=
  match (s.bank b).st with
  | .released | .fault => bankReport b 1 0 (s.modBank b fun x => { x.quiet with st := .unrel })
  | _ => bankReport b 1 6 s

/-- The refusal that a key code gives at release (R373). -/
def State.keyRefusal (s : State) (b : Nat) (key : Nat) : Option Nat :=
  match key with
  | 0b01 => none
  | 0b10 => some 3
  | 0b11 => if nbit (s.bankFrame b) 771 then some 4 else none
  | _ => some 5

/-- The key sampling and the open-wire check of a release finish (R373 to R375). -/
def bankChecked (b key openMask : Nat) (s : State) : State :=
  if (s.bank b).st != .check then s
  else
    match s.keyRefusal b key with
    | some r =>
      rimIoRaise 1 [b, key, 1] ((s.modBank b fun x => { x with st := .unrel, key := key }).fset (F.RIM_IOSTAT_RESULT b) r)
    | none =>
      let s1 := s.modBank b fun x => { x with st := .released, key := key, open_ := openMask, short := 0, refused := 0 }
      let s2 := if openMask &&& nbits (s.bankFrame b) 800 48 = 0 then s1 else rimIoRaise 2 ([b] ++ w64 openMask) s1
      bankReport b 0 0 s2

/-- A released bank samples its key code (R373, R375). -/
def keySample (b key : Nat) (s : State) : State :=
  if (s.bank b).st != .released then s
  else
    match s.keyRefusal b key with
    | none => s.modBank b fun x => { x with key := key, refused := 0 }
    | some _ =>
      if (s.bank b).refused + 1 < 3 then s.modBank b fun x => { x with key := key, refused := x.refused + 1 }
      else rimIoRaise 1 [b, key, 4] (s.modBank b fun x => { x.quiet with st := .fault, key := key, refused := 0 })

/-- An output stays in current limit (R368): once for the pin. Outputs drive in a released bank, and during EXTEST in every bank
whose VCCIO is good (R376, R439). -/
def ioShort (b pin : Nat) (level : Bool) (s : State) : State :=
  if !((s.bank b).st == .released || (s.fbit F.DBG_STAT_EXTEST && (s.bank b).st != .off)) || nbit (s.bank b).short pin then s
  else rimIoRaise 3 [b, pin, level.toNat] (s.modBank b fun x => { x with short := putBit x.short pin true })

/-! ### The commands -/

/-- RIM_PLL_UNLOCK (R335). -/
def execRimPllUnlock (p : Nat) (s : State) : Host.Outcome State Fault Refusal := .next (pllLock p false s)

/-- RIM_ONEHOT (R337). -/
def execRimOnehot (rfa mux : Nat) (s : State) : Host.Outcome State Fault Refusal := .next (rimOnehot rfa mux s)

/-- RIM_OUTBOUND_READ (R344). -/
def execRimOutboundRead (g : Nat) (s : State) : Host.Outcome State Fault Refusal := .next (rimOutRead g s)

/-- RIM_INBOUND_WRITE (R345). -/
def execRimInboundWrite (g : Nat) (entry : DWord) (s : State) : Host.Outcome State Fault Refusal :=
  .next (rimInWrite g entry s)

/-- RIM_PRC_FENCE (R350). -/
def execRimPrcFence (region : Nat) (s : State) : Host.Outcome State Fault Refusal := .next (rimFence region s)

/-- RIM_PRC_REL (R350). -/
def execRimPrcRel (region : Nat) (s : State) : Host.Outcome State Fault Refusal := .next (rimRelease region s)

/-- RIM_FRAME_SCRUB (R354). -/
def execRimFrameScrub (ups : List Upset) (s : State) : Host.Outcome State Fault Refusal := .next (rimScrub (upsets ups s))

/-- RIM_PARAM (R355). -/
def execRimParam (s : State) : Host.Outcome State Fault Refusal := .next (rimParamPost s)

/-- VCCIO_GOOD (R375). -/
def execVccioGood (b mv strap : Nat) (s : State) : Host.Outcome State Fault Refusal := .next (vccioGood b mv strap s)

/-- VCCIO_LOST (R375). -/
def execVccioLost (b mv : Nat) (s : State) : Host.Outcome State Fault Refusal := .next (vccioLost b mv s)

/-- RIM_REL (R375). -/
def execRimRel (b : Nat) (s : State) : Host.Outcome State Fault Refusal := .next (rimRel b false s)

/-- RIM_DIS (R375). -/
def execRimDis (b : Nat) (s : State) : Host.Outcome State Fault Refusal := .next (rimDis b s)

/-- BANK_CHECK_COMPLETE (R374). -/
def execBankCheckComplete (b : Nat) (key : BitVec 2) (openMask : BitVec 48) (s : State) :
    Host.Outcome State Fault Refusal := .next (bankChecked b key.toNat openMask.toNat s)

/-- KEY_SAMPLE (R373). -/
def execKeySample (b : Nat) (key : BitVec 2) (s : State) : Host.Outcome State Fault Refusal :=
  .next (keySample b key.toNat s)

/-- RIM_IO_SHORT (R368). -/
def execRimIoShort (b pin : Nat) (level : Bool) (s : State) : Host.Outcome State Fault Refusal :=
  .next (ioShort b pin level s)

end Sys2Proof.Machine
end

