-- ==== Sys2Proof/Machine/RimLoad.lean ====
section
/-! DEFINITION. RimLoad.lean: the rim sections of a stream: the rules on their frames and what loading them does to the rim
(R328 to R342, R349, R350, R364, R365). -/
namespace Sys2Proof.Machine

/-- The rim frames of a section's content (R338): RFA and 992 data bits. -/
def rimFramesOf (c : List Byte) : List (Nat × Nat) :=
  (List.range (c.length / 128)).map fun i => (leAt c (128 * i) 4, leAt c (128 * i + 4) 124)

/-! ### Rules on one frame (R338 to R342, R364, R365) -/

/-- Type, unit and frame are in range (R338, R364). -/
def rfaListed (a : Nat) : Bool :=
  let u := rfaUnit a
  let f := rfaFrame a
  nbits a 24 4 == 0 &&
    (match rfaType a with
     | 1 => decide (u < 12288) && decide (f < 8)
     | 2 => decide (u < 512) && f == 0
     | 3 => decide (u < 512) && decide (f < 38)
     | 4 => decide (u < 12) && f == 0
     | 5 => decide (u < 8) && f == 0
     | 6 => u == 0 && f == 0
     | 7 => u == 0 && decide (f < 16)
     | _ => false)

/-- The data bits that a layout names: lowest bit and length of each run (R339, R340, R364). -/
def rfaRuns (a : Nat) : List (Nat × Nat) :=
  match rfaType a with
  | 1 => if rfaFrame a = 0 then [(0, 611), (612, 2)] else [(0, 992)]
  | 2 => [(0, 9), (16, 9), (32, 1)]
  | 3 => if rfaFrame a = 37 then [(0, 160)] else [(0, 992)]
  | 4 => if rfaUnit a < 4 then [(0, 25)] else [(0, 5)]
  | 5 => [(0, 775), (800, 48)]
  | 6 => [(0, 3), (8, 48)]
  | _ => [(0, 29), (32, 16)]

/-- A data bit that must be 0 is set. -/
def rfaMustZero (a d : Nat) : Bool := ((rfaRuns a).foldl (fun w r => putBits w r.1 r.2 0) d) != 0

/-- A select field has two or more bits set (R337). -/
def rimMultiHot (a d : Nat) : Bool :=
  rfaType a == 1 && rfaFrame a != 0 && (List.range 31).any fun k =>
    let v := nbits d (32 * k) 32
    v != 0 && !isPow2 v

/-- The chain length of a CHLEN code (R339). -/
def chainLen (code : Nat) : Nat := if code = 0 then 0 else 2 ^ code

/-- A row group breaks R329, or ECC is set without both ports at 512 × 72 (R333). -/
def rimCellBad (a d : Nat) : Bool :=
  match rfaType a with
  | 1 => rfaFrame a == 0 && (List.range 8).any fun k =>
      (nbits d (512 + 2 * k) 2 == 3) != decide (k < chainLen (nbits d 612 2))
  | 2 => nbit d 32 && !(nbits d 0 3 == 6 && nbits d 16 3 == 6)
  | _ => false

/-- Fields of a PLL frame (R340). -/
def pllEn (d : Nat) : Bool := nbit d 24
def pllM (d : Nat) : Nat := nbits d 0 7
def pllN (d : Nat) : Nat := nbits d 7 3
def pllDiv (d o : Nat) : Nat := nbits d (10 + 7 * o) 7

/-- A PLL frame is out of range (R334, R342): VCO = 100 M / N MHz. -/
def pllBad (d : Nat) : Bool :=
  let m := pllM d
  let n := pllN d
  !(decide (10 ≤ m) && decide (m ≤ 80)) || !(decide (1 ≤ n) && decide (n ≤ 4)) ||
    !(decide (1000 * n ≤ 100 * m) && decide (100 * m ≤ 2000 * n)) ||
    [0, 1].any fun o => decide (pllDiv d o < 2) || decide (500 * n * pllDiv d o < 100 * m)

/-- The native rim latency: 0 while no step lane is configured (R347, R358). -/
def State.rimNative (s : State) : Nat :=
  let f := s.slFrame
  if nbits f 8 32 = 0 then 0
  else
    let t := s.treeFrame (nbits f 0 3)
    let p := s.pllFrame (nbits t 0 4 / 2)
    let n := 450 * pllN p * pllDiv p (nbits t 0 1)
    2 + (n + 100 * pllM p - 1) / (100 * pllM p)

/-- A tree's frame and PLL, over the frames of the section. -/
def treeOf (fr : Kv Nat) (t : Nat) : Nat := kvGet 0 fr (rfaOf 4 (4 + t) 0)
def pllOf (fr : Kv Nat) (p : Nat) : Nat := kvGet 0 fr (rfaOf 4 p 0)

/-- An enabled tree is fed by a PLL that is not enabled (0x53). -/
def treeBad (fr : Kv Nat) (d : Nat) : Bool := nbit d 4 && decide (nbits d 0 4 < 8) && !pllEn (pllOf fr (nbits d 0 4 / 2))

/-- The step-lane tree is not fed by a PLL output of at least 225 MHz (0x54, R342, R347). -/
def slClkBad (fr : Kv Nat) (d : Nat) : Bool :=
  let t := treeOf fr (nbits d 0 3)
  let src := nbits t 0 4
  let p := pllOf fr (src / 2)
  d != 0 && (!nbit t 4 || decide (8 ≤ src) || !pllEn p || decide (100 * pllM p < 225 * pllN p * pllDiv p (src % 2)))

/-- Two region frames overlap (R349). -/
def regionsMeet (f g : Nat) : Bool :=
  regionHalf f == regionHalf g && decide (regionCol0 f ≤ regionCol1 g) && decide (regionCol0 g ≤ regionCol1 f) &&
    decide (regionRow0 f ≤ regionRow1 g) && decide (regionRow0 g ≤ regionRow1 f)

/-- A region frame of a RIMBASE breaks 0x55 against the regions before it. -/
def regionFrameBad (fr : Kv Nat) (a d : Nat) : Bool :=
  nbit d 0 && (decide (regionCol1 d < regionCol0 d) || decide (regionRow1 d < regionRow0 d) ||
    (List.range (rfaFrame a)).any fun r =>
      let e := kvGet 0 fr (0x70000000 + r)
      nbit e 0 && (regionsMeet d e || (nbits d 32 16 &&& nbits e 32 16) != 0))

/-- Pin p of a bank frame (R364). -/
def pinBits (d p : Nat) : Nat := nbits d (16 * p) 16

/-- A bank frame breaks R365. -/
def bankFrameBad (fr : Kv Nat) (d : Nat) : Bool :=
  let tree := nbit (treeOf fr (nbits d 772 3)) 4
  decide (4 < nbits d 768 3) || (List.range 48).any fun p =>
    let b := pinBits d p
    let diff := nbit b 6
    (p % 2 == 1 && nbits b 6 2 != 0) || (nbit b 7 && !diff) ||
      (p % 2 == 1 && nbit (pinBits d (p - 1)) 6 && putBits b 4 2 0 != 0) ||
      (diff && nbit b 12 && nbits d 768 3 != 3) ||
      ((nbits b 10 2 != 0 || nbits b 14 2 != 0) && !tree)

/-- The rules on a frame in ascending reason: part is the region of a RIMPART section with its region frame, or none for a
RIMBASE; before are the frames before it in the section, fr the whole configuration. -/
def rimRules (part : Option Nat) (before : List (Nat × Nat)) (fr : Kv Nat) (a d : Nat) : List (Nat × Bool) :=
  [(0x50, rimMultiHot a d),
   (0x51, !rfaListed a || rfaMustZero a d || before.any (fun e => e.1 == a)),
   (0x52, rimCellBad a d),
   (0x53, rfaType a == 4 && (if rfaUnit a < 4 then pllBad d else treeBad fr d)),
   (0x54, rfaType a == 6 && slClkBad fr d),
   (0x55, match part with
     | none => rfaType a == 7 && regionFrameBad fr a d
     | some f => !nbit f 0 || !(match rfaPlace a with | some p => inRegion f p | none => false)),
   (0x56, rfaType a == 5 && bankFrameBad fr d)]

/-- The first frame of a section that breaks a rule: reason and RFA. -/
def rimFault (part : Option Nat) (fr : Kv Nat) : List (Nat × Nat) → List (Nat × Nat) → Option (Nat × Nat)
  | _, [] => none
  | before, (a, d) :: t =>
    match (rimRules part before fr a d).find? (·.2) with
    | some r => some (r.1, a)
    | none => rimFault part fr ((a, d) :: before) t

/-! ### Loading (R310, R341, R350) -/

/-- A RIMBASE section's first frame: every rim frame is cleared, and every bank returns to its unreleased state. -/
def rimBaseBegin (s : State) : State :=
  let s1 : State := { s with rim := { s.rim with 
    frames := [], bad := [], onehot := [], base := false, regions := [], pll := [], ff := [], memOut := [], phase := [], clk := 0 } }
  (List.range 8).foldl (fun s b =>
    match (s.bank b).st with
    | .off | .unrel => s
    | .check => s.modBank b fun x => { x with st := .unrel, refused := 0 }
    | .released | .fault => bankReport b 1 0 (s.modBank b fun x => { x.quiet with st := .unrel, refused := 0 })) s1

/-- Rim frames are written. -/
def rimWrite (fs : List (Nat × Nat)) (s : State) : State := fs.foldl (fun s e => putFrame e.1 e.2 s) s

/-- A RIMBASE passes: its configuration takes effect, its regions are active, its PLLs lock (R341, R350). -/
def rimBaseDone (s : State) : State :=
  { s with rim := { s.rim with
    base := true, regions := []
    pll := (List.range 4).foldl (fun m p => kvSet false m p (pllEn (s.frame (rfaOf 4 p 0)))) [] } }

/-- A RIMPART load begins: every region it names that is active is fenced (R350). -/
def rimPartFence (rs : List Nat) (s : State) : State :=
  rs.foldl (fun s r => if s.regionDef r && s.regionSt r == .active then loadReport r 0 (regionFence r s) else s) s

/-- A RIMPART section for a fenced region begins: it loads (R350). -/
def rimPartBegin (r : Nat) (s : State) : State := if s.regionDef r then regionTo r .loading (regionFence r s) else s

/-- A RIMPART section has passed (2) or been refused (3): the region is fenced (R350, R361). -/
def rimPartDone (r what : Nat) (s : State) : State := if s.regionDef r then loadReport r what (regionTo r .fenced s) else s

/-- The frames of a region, cleared after a refusal (R341, R350). -/
def rimClear (fs : List (Nat × Nat)) (s : State) : State := fs.foldl (fun s e => putFrame e.1 0 s) s

end Sys2Proof.Machine
end

