-- ==== Sys2Proof/Machine/Load.lean ====
section
/-! DEFINITION. Load.lean: the loader (R24, R67, R145, R164, R177, R195, R256, R273 to R316, R345, R528, R540 to R545, R622,
R623). -/
namespace Sys2Proof.Machine

/-! ### Service slots (R527, R528) -/

/-- REQA_s and REQB_s. -/
def State.reqA (s : State) (slot : Nat) : Nat := (kvGet 0#128 s.mgt.req (2 * slot)).toNat
def State.reqB (s : State) (slot : Nat) : Nat := (kvGet 0#128 s.mgt.req (2 * slot + 1)).toNat

/-- Fields of a request. -/
def State.reqCode (s : State) (slot : Nat) : Nat := nbits (s.reqA slot) 24 8
def State.reqTag (s : State) (slot : Nat) : Nat := nbits (s.reqA slot) 16 8
def State.reqArg0 (s : State) (slot : Nat) : Nat := nbits (s.reqA slot) 0 16
def State.reqAddr (s : State) (slot : Nat) : Nat := nbits (s.reqA slot) 32 64
def State.reqLen (s : State) (slot : Nat) : Nat := nbits (s.reqA slot) 96 32
def State.reqAddr2 (s : State) (slot : Nat) : Nat := nbits (s.reqB slot) 0 64
def State.reqLen2 (s : State) (slot : Nat) : Nat := nbits (s.reqB slot) 64 32
def State.reqArg1 (s : State) (slot : Nat) : Nat := nbits (s.reqB slot) 96 32

/-- A service ends (R527, R528): the response items, GO cleared, MGT_SVC. Words of RSPA that the service does not state,
and RSPB, are free values (log 4). A request that a restart has answered gets no second answer (R519). -/
def svcRespond (slot status ev : Nat) (d : List Nat) (s : State) : State :=
  if 4 ≤ slot || !nbit (s.fget F.MGT_SVC_GO) slot then s
  else
    let f := s.fresh
    let g := f.2.fresh
    let d0 := status * 2 ^ 24 + s.reqTag slot * 2 ^ 16 + ev
    let a := (List.range 3).foldl (fun w k => match d[k]? with | some v => putBits w (32 + 32 * k) 32 v | none => w)
      (putBits f.1.toNat 0 32 d0)
    let s1 : State := { g.2 with mgt := { g.2.mgt with
      rsp := kvSet 0#128 (kvSet 0#128 g.2.mgt.rsp (2 * slot) (BitVec.ofNat 128 a)) (2 * slot + 1) g.1
      taken := putBit g.2.mgt.taken slot false } }
    (s1.fset F.MGT_SVC_GO (putBit (s.fget F.MGT_SVC_GO) slot false)).raise F.MGT_EVT_SVC 2 4
      [slot, s.reqCode slot, status, s.reqTag slot]

/-! ### Frames (R294 to R297) -/

/-- The state with the load in progress replaced. -/
def State.setJob (s : State) (j : LoadJob) : State := { s with load := { s.load with job := some j } }

/-- The next frame that the loader expects (R297). -/
def LoadJob.expect (j : LoadJob) : Expect :=
  match j.stage with
  | .header | .waiting => expectHeader
  | .directory => { expectDir j.hdr with addr := j.next, before := j.frame }
  | .links | .sections =>
    match j.dir[j.sec]? with
    | some e => ⟨j.sec, j.next, e.enc, e.ty == tyFirmware, j.frame, some e.nframes, e.len⟩
    | none => ⟨j.sec, j.next, false, false, j.frame, some 0, 0⟩

/-- The class of the load, once its header has been read. -/
def LoadJob.cls (j : LoadJob) : Nat := hdrClass j.hdr

/-- An event of the loader (R324, R326): code 0x10 + k is recorded in bit k. -/
def loadRaise (k : Nat) (payload : List Nat) (s : State) : State := s.raise ⟨0x60006c, k % 32, 1, 0⟩ 6 (0x10 + k) payload

/-- The 528 bytes of the next frame: from flash at boot, from user memory, or from the host (R294); none where the read
fails. -/
def loadBytes (j : LoadJob) (bytes : List Byte) (readOk : Bool) (s : State) : Option (List Byte) × State :=
  match j.boot with
  | some src => (if readOk then some (s.flashRead (slotBase src + 528 * j.wire) 528) else none, s)
  | none =>
    let a := j.addr + 528 * j.wire
    if isUser a then
      let r := portRead 1 a 528 s
      (if r.2.1 && readOk then some r.1 else none, r.2.2)
    else (if readOk then some bytes else none, s)

/-! ### Clauses as a load leaves them (R67, R81, R103, R132, R145, R164, R195) -/

/-- Patch units of some clauses turn OFF, staged and active (R195). -/
def unitsOff (p : Nat → Bool) (s : State) : State :=
  (List.range 64).foldl (fun s u =>
    let s1 := if s.fget (F.SCH_PU_MODE u) != 0 && p (s.fget (F.SCH_PU_CLAUSE u)) then s.fset (F.SCH_PU_MODE u) 0 else s
    let a := kvGet 0 s1.sch.actA u
    if puMode a != 0 && p (puClause a) then
      { s1 with
        sch := { s1.sch with actA := kvSet 0 s1.sch.actA u (a % 2 ^ 30) }
        load := { s1.load with sets := s1.load.sets.filter fun (e : Nat × Nat) => e.1 != u } }
    else s1) s

/-- The counts of a clause and of its ports are zeroed (R132, R145, R217). -/
def clauseCountsZero (c : Nat) (s : State) : State :=
  let s1 := ((((((s.fset (F.CLS_CNT_DFIX_COUNT c) 0).fset (F.CLS_CNT_DUE_COUNT c) 0).fset (F.CLS_CNT_VSPAR_COUNT c) 0).fset
    (F.CLS_CNT_CQPAR_COUNT c) 0).fset (F.CLS_CNT_CHECK_COUNT c) 0).fset (F.CLS_CNT_CHKDROP_COUNT c) 0)
  let s2 := [0, 1, 2, 3].foldl (fun s q => s.fset (F.CLS_PXW_COUNT c q) 0) s1
  { s2 with umem := { s2.umem with conf := kvDrop s2.umem.conf (12 * c) (12 * c + 12) } }

/-- The forces of a clause are gone (R429). -/
def forcesGone (c : Nat) (s : State) : State :=
  { s with dbg := { s.dbg with forces := kvDrop s.dbg.forces (forceKey c 0) (forceKey (c + 1) 0) } }

/-- A clause's registers as a load sets them: X, or 0 in TWOSTATE, which is what an unlisted value reads as. -/
def Clause.fresh (x : Clause) : Clause :=
  { x with
    loaded := false, passed := false, vs := [], vsBad := [], cq := [], bus := [], inl := [], padr := [], pwd := []
    pret := [], xwCyc := [], winCyc := [], chkDrop := 0 }

/-- A clause is unloaded as a DESIGN load begins (R313): its isolation ends (R623), its hold record is set (R164). Its counts
stay until it is loaded (R132, R145). -/
def clauseUnload (c : Nat) (s : State) : State :=
  forcesGone c (s.modClause c fun x => { x.fresh with iso := false, xinj := false, hold := [] })

/-- The error marks that writing the logical rows of a slice leaves (R177, R188): those of rows that serve no logical row, and
with `hold` those of the hold record, which is not written (R164). -/
def State.marksKept (s : State) (c : Nat) (hold : Bool) : Kv Nat :=
  (s.clause c).schBad.filter fun e => match s.logicalRow c (e.1 / 128) with
    | none => true
    | some r => hold && locKind r (e.1 % 128) == some 2

/-- The slice of a clause as a refused load leaves it (R306): idle words, switch chunks of 0, a zero dictionary. -/
def sliceBlank (c : Nat) (s : State) : State :=
  let kept := s.marksKept c true
  s.modClause c fun x => { x with
    words := [], sw := [], dictW := [], dictM := [], dictI := [], dictBad := [], dictUe := [], schBad := kept }

/-! ### Beginning (R310) -/

/-- A link as a DESIGN load begins (R254, R310): ACTIVE goes to UP with its buffers cleared; one in RESUME trains anew;
no slot map is released. -/
def linkBegin (s : State) (l : Nat) : State :=
  let x := s.link l
  let s1 := s.modLink l fun x => { x with
    slot := ⟨false, 0, 0, 0, 0, 0, [], []⟩, released := false, dropped := false, fences := [], rxq := [], replay := []
    txAcc := [], retry := none, sent := [], restored := none }
  match x.st with
  | .active => linkTo .up l s1
  | .resume => linkTrain l s1
  | _ => s1

/-- A pending isolation or release request whose boundary has not come is refused with STATE (R623); one whose boundary has come
takes effect (R165). -/
def isoEnd (s : State) : State :=
  match s.fab.iso with
  | none => s
  | some r =>
    if r.due then isoApply s
    else ((({ s with fab := { s.fab with iso := none } }.fset F.FAB_ISO_ISO 0).fset F.FAB_ISO_REL 0).fset F.FAB_ISO_RESULT 3).raise
      F.FAB_EVT_ISO_REF 8 4 [r.clause, 3]

/-- A DESIGN load begins (R40, R310, R313, R390, R545, R623): the sequencer enters IDLE, no image is loaded, links leave
ACTIVE, isolations end, clauses and patch units are unloaded, capture is off; the counts and durations of ellipses are zeroed
(R58). DESIGN CHOICE (log 55): a checkpoint in progress stays, and holds the new run with cause CKPT until it completes. -/
def designBegin (s : State) : State :=
  let s1 := if s.seq.st == .ellipsis || s.seq.st == .dbgHold then ellipsisClose s else s
  let s2 : State := { s1 with
    seq := { s1.seq with
      st := .idle, fence := none, lastFence := none, stopAt := 0, stopStep := none, haltAt := none, depth := 0
      ellTotal := 0, causeCnt := [], causeDur := [] }
    load := { s1.load with img := none, sets := [] }
    umem := { s1.umem with lexq := [], rets := [] }
    cap := { s1.cap with sig := {}, lines := 0, lineSince := [] }
    sec := { s1.sec with keys := [] } }
  let s3 := ((s2.fset F.SEQ_CTL_STOPAT_EN 0).fset F.CAP_SIGCTL_START 0).fset F.CAP_SIGCTL_STOP 0
  let s4 := (List.range 32).foldl linkBegin (isoEnd s3)
  unitsOff (fun _ => true) ((List.range 64).foldl (fun s c => clauseUnload c s) s4)

/-- The image that a DESIGN load starts to build from its header. -/
def imgOf (h : List Byte) : Img :=
  { cls := clsDesign, gen := hdrGen h, hdr := h, ndev := hdrNdev h, ldev := 0, reloadable := hdrReloadable h, xf := 0
    dx := 0, dy := 0, regions := [], dmap := [], prot := [], patches := [] }

/-! ### Header and directory (R299, R300, R304, R305, R307 to R309, R540) -/

/-- The reason of LOAD_CLASS (R309). -/
def State.classFault (s : State) (j : LoadJob) : Option Nat :=
  let c := j.cls
  let src := if c = clsBoot then j.boot.isNone && s.fget F.SCH_BOOT_SRC != 3
    else j.boot.isSome || s.fget F.SCH_BOOT_SRC == 3
  if (c = clsReload ∨ c = clsRimpart) ∧ s.load.img.isNone then some 2
  else if c = clsReload ∧ !((s.load.img.map (·.reloadable)).getD false) then some 3
  else if src then some 4
  else none

/-- The header's signature fails (R305, R540, R541). -/
def State.sigFault (s : State) (h : List Byte) : Bool :=
  decide (4 ≤ hdrKeyid h) ||
    !s.signedBy (hdrKeyid h) (if hdrClass h = clsBoot then 0 else 1) (h.take 128) ((h.drop 128).take 64)

/-- The checks of R307 on a header. -/
def State.headerFault (s : State) (j : LoadJob) : Option Ref :=
  let h := j.hdr
  match hdrFault h with
  | some r => some ⟨4, some r, [r, 0xFFFF]⟩
  | none =>
    match s.classFault j with
    | some r => some ⟨10, some r, [j.cls, r]⟩
    | none =>
      if s.sigFault h then some ⟨5, none, [hdrKeyid h, j.cls]⟩
      else if j.cls = clsDesign ∧ 1 < hdrNdev h ∧ s.fp = 0 then some ⟨8, some 2, [2]⟩
      else if j.cls = clsDesign ∧ 1 < hdrNdev h ∧ s.fp ≠ BitVec.ofNat 256 (hdrFp h) then some ⟨8, some 1, [1]⟩
      else if j.cls = clsReload ∨ j.cls = clsRimpart then
        match s.load.img with
        | none => none
        | some g => (hdrDiffers h g.hdr).map fun i => ⟨9, none, [hdrGen h, g.gen, i]⟩
      else none

/-- The native rim latency that LOAD_LAT names (R273, R347): that of the rim base in effect; 3 or 4 where none is, a free value
(log 4). -/
def State.rimNativeOr (s : State) : Nat :=
  if s.rimNative = 0 then (s.pick [3, 4]).1 else s.rimNative

/-- The first latency-vector entry refused (R273, R274); the lexicon's native latency is 5, HBM's 188 on A0 and 176 on
B0. Entry 7 has a range and no native latency: what its payload names is a free value (log 4). -/
def State.latFault (s : State) (h : List Byte) : Option Ref :=
  let hbm := if s.fuseByte 8 % 16 = 0 then 188 else 176
  let native := [1, 2, 2, 1, s.rimNativeOr, 5, hbm]
  let accepted := [1, 2, 2, 1, 4, 8, 192]
  match (List.range 7).find? fun k =>
      (k != 4 && decide (hdrLat h k < native.getD k 0)) || hdrLat h k != accepted.getD k 0 with
  | some k => some (refLat k 0xFF (hdrLat h k) (native.getD k 0))
  | none =>
    let v := hdrLat h 7
    if v < 64 ∨ 4096 < v ∨ v % 8 ≠ 0 then some (refLat 7 0xFF v (s.freshNat.1 % 65536)) else none

/-- The own logical device (R304, R311). -/
def State.ownDev (s : State) (j : LoadJob) : Option Nat :=
  if j.cls = clsBoot then some 0xFFFFFFFF
  else if j.cls = clsDesign then
    match ownLdev j.placement s.devnum with
    | some d => if d < hdrNdev j.hdr then some d else none
    | none => none
  else s.load.img.map (·.ldev)

/-- The checks of R307 on a directory content: the refusal, or its entries and the own logical device. -/
def State.directoryFault (s : State) (j : LoadJob) (d : List Byte) : Ref ⊕ Nat :=
  if (Config.sm3 d).toNat ≠ hdrDirdig j.hdr then .inl ⟨6, none, [0xFFFE]⟩
  else
    match dirFault j.hdr d with
    | some f => .inl ⟨4, some f.1, [f.1, f.2]⟩
    | none =>
      match s.ownDev j with
      | none => .inl ⟨4, some 7, [7, 0xFFFF]⟩
      | some own =>
        if !(dirEntries d).any fun e => e.ldev == own then .inl ⟨4, some 7, [7, 0xFFFF]⟩
        else if j.cls = clsDesign then (match s.latFault j.hdr with | some r => .inl r | none => .inr own)
        else .inr own

/-! ### Sections (R281, R302 to R306) -/

/-- The image under which sections are placed: the one being built, or the loaded one (R288, R311). -/
def State.jobImg (s : State) (j : LoadJob) : Option Img := j.img.orElse fun _ => s.load.img

/-- The staged content of a section. -/
def LoadJob.staged? (j : LoadJob) (ty index : Nat) : List Byte :=
  ((j.staged.find? fun e => e.1 == ty && e.2.1 == index).map fun e => e.2.2).getD []

/-- The state with the image being built changed. -/
def LoadJob.modImg (j : LoadJob) (f : Img → Img) : LoadJob := { j with img := j.img.map f }

/-- What an ENC section's first frame meets (R305, R542, R545): no descriptor claims it, no token gives its key, or the
key. -/
def State.sectionKey (s : State) (j : LoadJob) (e : DirEnt) : Ref ⊕ List Byte :=
  if !e.enc then .inr []
  else if ((s.jobImg j).map fun g => protClaim g e).getD true then .inl (refRule 0x35 e.part)
  else
    match (List.range 16).findSome? fun k =>
        match s.token k with | some t => if t.part = e.part ∧ nbit t.rights 0 then some t.key else none | none => none with
    | none => .inl ⟨7, some 1, [j.sec, e.part, 1]⟩
    | some k => .inr k

/-- The content of an ENC section from its plaintext: ZERO frames are no part of the ciphertext (R295, R305). -/
def expand : List (Nat × Bool) → List Byte → List Byte
  | [], _ => []
  | (n, true) :: t, p => List.replicate (512 * n) 0#8 ++ expand t p
  | (_, false) :: t, p => p.take 512 ++ expand t (p.drop 512)

/-- One unit of a clause section is written into the slice as it arrives (R177, R284, R306): a BP word, the switch word of a
phase, or a dictionary entry; what is written has fresh check bits. -/
def sliceUnit (xf pc ty k : Nat) (c : List Byte) (s : State) : State :=
  let clean (l : List (Nat × Nat)) (s : State) : State := l.foldl (fun s e => setSchMark pc e.1 e.2 0 s) s
  if ty = tyClause then
    clean [(4 * (k / 512) + k % 512 / 128, k % 128)] (s.modClause pc fun x => { x with
      words := kvSet idleWord x.words k (BitVec.ofNat 128 (leAt c (16 * k) 16)) })
  else if ty = tySwitch then
    clean ((List.range 24).map fun i => (8192 + k / 4, 32 * (k % 4) + i)) (s.modClause pc fun x => { x with
      sw := (chunksOf (rewriteSwitch xf (leAt c (384 * k) 384))).foldl (fun m e => kvSet 0#128 m (24 * k + e.1) e.2) x.sw })
  else
    let v := BitVec.ofNat 32 (leAt c (4 * k) 4)
    dictWrite pc k v (s.modClause pc fun x => { x with dictI := kvSet 0#32 x.dictI k v })

/-- The units of a clause section that `lo` to `hi` bytes of its content complete (R306). -/
def sliceUnits (xf pc ty lo hi : Nat) (c : List Byte) (s : State) : State :=
  let n := if ty = tyClause then 16 else if ty = tySwitch then 384 else 4
  ((List.range (hi / n)).drop (lo / n)).foldl (fun s k => sliceUnit xf pc ty k c s) s

/-- The physical clause that an own section of a clause image is written to, as its frames arrive (R306). -/
def State.sliceOf (s : State) (j : LoadJob) (e : DirEnt) : Option (Img × Nat) :=
  if (e.ty = tyClause ∨ e.ty = tyDict ∨ e.ty = tySwitch) ∧ clauseCarried j.dir j.own e.index = true then
    (s.jobImg j).bind fun g => (g.phys e.index).map fun pc => (g, pc)
  else none

/-- The first section of a clause that arrives unloads it (R306). -/
def sliceBegin (j : LoadJob) (e : DirEnt) (s : State) : State :=
  match s.sliceOf j e with
  | some (_, pc) => s.modClause pc fun x => { x with loaded := false, passed := false }
  | none => s

/-- Content of a clause section, from `lo` bytes on, is written into the slice (R306). -/
def sliceArrives (j : LoadJob) (e : DirEnt) (lo : Nat) (c : List Byte) (s : State) : State :=
  match s.sliceOf j e with
  | some (g, pc) => sliceUnits g.xf pc e.ty lo (min c.length e.len) c s
  | none => s

/-- A slice written from the contents of a clause's sections (R164, R177, R284). -/
def sliceWrite (xf depth c pc : Nat) (dict sw words : List Byte) (reload : Bool) (s : State) : State :=
  let ws : Kv QWord := (List.range (512 * depth)).foldl
    (fun m k => kvSet idleWord m k (BitVec.ofNat 128 (leAt words (16 * k) 16))) []
  let ss : Kv QWord := (List.range depth).foldl (fun m p =>
    (chunksOf (rewriteSwitch xf (leAt sw (384 * p) 384))).foldl (fun m e => kvSet 0#128 m (24 * p + e.1) e.2) m) []
  let ds : Kv Word := (List.range 1024).foldl (fun m e => kvSet 0#32 m e (BitVec.ofNat 32 (leAt dict (4 * e) 4))) []
  let kept := s.marksKept pc reload
  forcesGone pc (s.modClause pc fun x =>
    { x.fresh with
      logical := c, words := ws, sw := ss, dictW := ds, dictM := ds, dictI := ds, dictBad := [], dictUe := [], schBad := kept
      hold := if reload then x.hold else [] })

/-- The parse context of a clause as the load has written it (R281). -/
def State.loadCtx (s : State) (h : List Byte) (pc : Nat) : ParseCtx where
  two := hdrVmode h == 1
  depth := hdrDepth h
  perim := perimeter pc
  lat := s.portLats pc
  words := (s.clause pc).words
  sw := (s.clause pc).sw

/-- A used port of a clause is an edge port in one placement only (0x41). -/
def State.connFault (s : State) (g : Img) (c pc : Nat) (words : List Nat) : Bool :=
  (List.range 4).any fun d =>
    let e := xfPort g.xf d
    let link := match linkOf pc e with | some l => (s.link l).slot.en | none => false
    (link || portUsed words d) && edgePort c d != edgePort pc e

/-- A clause's third section has passed: connections, slice, parse checker (R281, R283, R284, R622). A clause that passes has
its counts zeroed (R132, R145, R217). -/
def clauseLoad (j : LoadJob) (g : Img) (c : Nat) (s : State) : Ref ⊕ State :=
  match g.phys c with
  | none => .inl (refParse 0x40 c 0xFF c 0xFFFF)
  | some pc =>
    let sw := j.staged? tySwitch c
    let depth := hdrDepth j.hdr
    if s.connFault g c pc ((List.range depth).map fun p => leAt sw (384 * p) 384) then .inl (refParse 0x41 c pc c 0xFFFF)
    else
      let s1 := sliceWrite g.xf depth c pc (j.staged? tyDict c) sw (j.staged? tyClause c) (j.cls == clsReload) s
      match parseClause (s1.loadCtx j.hdr pc) with
      | some f => .inl (refParse f.reason c pc f.bp f.phase)
      | none => .inr (clauseCountsZero pc (s1.modClause pc fun x => { x with loaded := true, passed := true, pacc := [] }))

/-- The frames of a rim section so far that may be written: all, or those of its region (R341). -/
def State.rimArrived (s : State) (e : DirEnt) (content : List Byte) : List (Nat × Nat) :=
  (rimFramesOf (content.take e.len)).filter fun x => rfaListed x.1 &&
    (e.ty == tyRimbase || s.regionDef e.index && (match rfaPlace x.1 with | some p => inRegion (s.regionFrame e.index) p | none => false))

/-- A rim section's content is checked (R342): the refusal and the RFA for LASTERR. -/
def State.rimSectionFault (s : State) (e : DirEnt) (c : List Byte) : Option (Ref × Option Nat) :=
  let fs := rimFramesOf c
  if e.len % 128 ≠ 0 then some (refRule 0x51 (s.freshNat.1 % 65536), none)
  else
    let fr : Kv Nat := fs.foldl (fun m x => kvSet 0 m x.1 x.2) (if e.ty = tyRimbase then [] else s.rim.frames)
    let part := if e.ty = tyRimbase then none else some (if s.regionDef e.index then s.regionFrame e.index else 0)
    (rimFault part fr [] fs).map fun f => (refRule f.1 (nbits f.2 8 16), some f.2)

/-- The windows, regions and device map of a DESIGN image once its WINDOW section has passed (R281). -/
def State.windowFault (s : State) (j : LoadJob) (g : Img) (c : List Byte) : Option Ref :=
  let ndev := (j.placement.map fun p => plNdev p != g.ndev).getD false
  ((((placeFault g j.dir c (s.freshNat.1 % 65536)).orElse fun _ => if ndev then some (refRule 0x43 0xFFFF) else none).orElse fun _ =>
    (dmapFault j.placement g.ldev s.devnum (s.fbit F.LNK_DEVNUM_VALID)).map (refRule 0x43)).orElse fun _ =>
    ((List.range g.regions.length).find? (regionBad g.regions)).map (refRule 0x42)).orElse fun _ =>
    winFault g.regions (s.fget F.MEM_HSPARE_MIB) c

/-! ### Slot maps and their links (R256, R257, R281) -/

/-- The used logical links of a SLOTMAP content before the first record that is refused by itself. -/
def slotsToWrite (g : Img) (j : LoadJob) (c : List Byte) : List Nat :=
  ((List.range 32).takeWhile fun l =>
    (slotFault (hdrLat j.hdr 7) (slotRec c l)).isNone &&
      (!(slotMapOf (slotRec c l)).en || (slotConn g j.dir l).isNone)).filter fun l => (slotMapOf (slotRec c l)).en

/-- The loader writes LNK_CTL.MODE; a link in FAIL, or in UP in the other mode, goes through OFF and trains again, with
the mode-change window open (R256, R257). -/
def linkRemode (l mode : Nat) (s : State) : State :=
  let x := s.link l
  let s1 := s.fset (F.LNK_CTL_MODE l) mode
  if x.st == .fail || (x.st == .up && x.mode != mode) then
    let s2 := (linkOff l s1).modLink l fun x => { x with window := some (s.now + 10000000000), otherMode := false }
    if s2.fbit (F.LNK_CTL_EN l) && s2.domOn (9 + l / 4) then linkTrain l s2 else s2
  else s1

/-- Every used link is put into its mode. -/
def linksRemode (g : Img) (j : LoadJob) (c : List Byte) (s : State) : State :=
  (slotsToWrite g j c).foldl (fun s l =>
    match g.physLink l with
    | some p => linkRemode p (slotMapOf (slotRec c l)).mode s
    | none => s) s

/-! ### The rim lane rule (R111, R281) -/

/-- The device-wide rim lane rule over the loaded clauses (R111, R281, R622), the words of clauses that `units` does not leave
out overlaid by the active units (R192): the refusal of the first clash. -/
def State.rimLaneFault (s : State) (depth : Nat) (units : Nat → Bool) : Option Ref :=
  let act := (s.sch.actA.filter fun e => units (puClause e.2)).map fun e => (e.2, kvGet 0#128 s.sch.actW e.1)
  (rimClash depth (s.loadedClauses.flatMap fun c => xoutsOf c (s.parseCtx c act).words)).map fun f =>
    refParse 0x18 (s.clause f.2.2.1).logical f.2.2.1 f.2.2.2 f.1

/-- The checks on logical link l in the order of R281. -/
def State.slotRef (s : State) (g : Img) (j : LoadJob) (c : List Byte) (l : Nat) : Option Ref :=
  let b := slotRec c l
  let m := slotMapOf b
  match slotFault (hdrLat j.hdr 7) b with
  | some r => some (refRule r l)
  | none =>
    if !m.en then none
    else
      match slotConn g j.dir l, g.physLink l with
      | some r, _ => some r
      | none, none => none
      | none, some p =>
        if (s.link p).st != .up then some (refRule 0x3C l)
        else if m.peer = g.ldev ∨ g.ndev ≤ m.peer ∨
            kvGet none (s.link p).items 8 ≠ some (2 ^ 31 + dmapOf j.placement m.peer) then some (refRule 0x3B l)
        else if m.lat < (s.link p).native then some (refLat 7 p m.lat (s.link p).native)
        else none

/-- The slot maps are written to their physical links (R243, R284). -/
def slotsWrite (g : Img) (c : List Byte) (s : State) : State :=
  (List.range 32).foldl (fun s l =>
    let m := slotMapOf (slotRec c l)
    match m.en, g.physLink l with
    | true, some p => s.modLink p fun x => { x with slot := m }
    | _, _ => s) s

/-! ### The end of a load (R24, R301, R306, R311, R312, R315, R321) -/

/-- The codes of SCH_BOOT.FAIL that a refusal of a boot image gives: 2 SIG, 3 FRAME, 4 DIGEST, 6 HDR; the manual gives the
other refusals none of their own (log 4). -/
def bootFailCode (k : Nat) (s : State) : Nat × State :=
  match k with
  | 5 => (2, s)
  | 3 => (3, s)
  | 6 => (4, s)
  | 4 => (6, s)
  | _ => s.pick [2, 3, 4, 6]

/-- What a refusal leaves behind (R24, R306, R312, R341): an unfinished rim section cleared, the slice of a clause section
whose digest or tag failed overwritten, a DESIGN's clauses unloaded, a RELOAD's clauses unloaded and isolated. -/
def loadAbandon (j : LoadJob) (k : Nat) (s : State) : State :=
  let cur := if j.stage = .sections then j.dir[j.sec]? else none
  let s1 := match cur with
    | some e =>
      if e.ldev ≠ j.own then s
      else if (e.ty = tyRimbase ∨ e.ty = tyRimpart) ∧ 0 < j.frame then
        let t := rimClear (s.rimArrived e j.content) s
        if e.ty = tyRimpart then rimPartDone e.index 3 t else t
      else if (e.ty = tyClause ∨ e.ty = tyDict ∨ e.ty = tySwitch) ∧ (k = 6 ∨ k = 7) then
        match (s.jobImg j).bind fun g => g.phys e.index with
        | some pc => sliceBlank pc s
        | none => s
      else s
    | none => s
  if j.img.isSome then
    (List.range 64).foldl (fun s c => s.modClause c fun x => { x with loaded := false, passed := false }) s1
  else
    unitsOff (fun c => j.named.contains c) (j.named.foldl (fun s c => s.modClause c fun x =>
      { x with loaded := false, passed := false, xinj := if x.iso then x.xinj else true, iso := true }) s1)

/-- A load is refused (R307, R322, R326). REASON of a refusal without a reason code is a free value (log 4). -/
def loadRefuse (r : Ref) (s : State) : State :=
  match s.load.job with
  | none => s
  | some j =>
    let s1 := loadAbandon j r.k s
    let q := if r.reason.isNone then s1.freshNat else (0, s1)
    let s2 := spareDecide { q.2 with load := { q.2.load with job := none } }
    let s3 := ((s2.fset F.SCH_LOAD_RESULT (0x10 + r.k)).fset F.SCH_LOAD_REASON (r.reason.getD q.1)).fset F.SCH_LOAD_BUSY 0
    let s4 := loadRaise r.k r.payload s3
    if j.boot.isSome then
      let c := bootFailCode r.k s4
      bootFail c.1 c.2
    else svcRespond j.slot 3 (0x10 + r.k) [] s4

/-- A load has passed (R307, R326): LOAD_DONE names the physical clauses loaded. -/
def loadDone (j : LoadJob) (s : State) : State :=
  let m := maskOf 64 fun c => j.done.any fun e => e.2 == c
  let s1 : State := { s with load := { s.load with job := none, lastCls := j.cls } }
  let s2 := ((s1.fset F.SCH_LOAD_RESULT 0).fset F.SCH_LOAD_REASON 0).fset F.SCH_LOAD_BUSY 0
  svcRespond j.slot 0 0 [] (loadRaise 11 [j.cls, hdrGen j.hdr, m % 2 ^ 32, m / 2 ^ 32, j.bad] s2)

/-- The boot image's firmware takes its place (R321, R514, R522): the security content goes into security SRAM, MGT_CODEBASE
names the control section, both pairs start at their entries. An image loaded in recovery lies in no slot, and
its generation is reported once its firmware confirms its start-up (R323). -/
def bootDone (j : LoadJob) (s : State) : State :=
  let ctl := j.staged? tyFirmware 0
  let sec := j.staged? tyFirmware 1
  let src := j.boot.getD 3
  let s1 := s.store 0x80180000 sec
  let s2 := match j.boot with
    | some b => s1.fset F.MGT_CODEBASE_SECBASE ((slotBase b + 528 * j.fwWire) / 16)
    | none => s1
  let s3 := (s2.modPair 0 fun x => { x with
      priv := 3, pc := BitVec.ofNat 64 (0xB0000000 + fwEntry ctl), entry := fwEntry ctl, fwver := fwVer ctl
      dig := Config.sm3 ctl, from_ := src }).modPair 1 fun x => { x with
    priv := 3, pc := BitVec.ofNat 64 (0x80180000 + fwEntry sec), entry := fwEntry sec, fwver := fwVer sec
    dig := Config.sm3 sec, from_ := src }
  { s3 with mgt := { s3.mgt with boot := some { (s3.mgt.boot.getD ⟨3, none, none, 0⟩) with gen := hdrGen j.hdr } } }

/-! ### Patch sets (R289 to R293) -/

/-- The switch word that a slice stores. -/
def State.storedSwitch (s : State) (pc p : Nat) : Nat :=
  (List.range 24).foldl (fun a i => a + (kvGet 0#128 (s.clause pc).sw (24 * p + i)).toNat * 2 ^ (128 * i)) 0

/-- A unit is free: MODE is OFF in its active and its staged copy (R291). -/
def State.unitFree (s : State) (u : Nat) : Bool := s.fget (F.SCH_PU_MODE u) == 0 && puMode (kvGet 0 s.sch.actA u) == 0

/-- Unit u is staged (R203). -/
def stageUnit (u addr : Nat) (w : QWord) (s : State) : State :=
  let s1 := ((((s.fset (F.SCH_PU_MODE u) (puMode addr)).fset (F.SCH_PU_CLAUSE u) (puClause addr)).fset (F.SCH_PU_KIND u)
    (puKind addr)).fset (F.SCH_PU_INDEX u) (puIndex addr)).fset (F.SCH_PU_PHASE u) (puPhase addr)
  { s1 with sch := { s1.sch with stgW := kvSet 0#128 s1.sch.stgW u w } }

/-- The records of a set take units from 63 downward (R291): the record that finds none, or the state. -/
def stageSet (set : Nat) : List (Nat × Nat × QWord) → State → Nat ⊕ State
  | [], s => .inr s
  | (i, a, w) :: t, s =>
    match (List.range 64).reverse.find? s.unitFree with
    | none => .inl i
    | some u =>
      let s1 := stageUnit u a w s
      stageSet set t { s1 with load := { s1.load with sets := s1.load.sets ++ [(u, set)] } }

/-- The sets of a table with LOAD = 1, ascending (R290, R292). -/
def loadSets (g : Img) : List Nat := (((patchRecs g.patches).filter fun r => r.flags == 1).map fun (r : PatchRec) => r.set).dedup

/-- Every set with LOAD = 1 is staged (R291, R292). -/
def stageLoadSets (g : Img) : List Nat → State → Nat ⊕ State
  | [], s => .inr s
  | k :: t, s =>
    match stageSet k (patchUnits g s.storedSwitch k) s with
    | .inl i => .inl i
    | .inr s1 => stageLoadSets g t s1

/-- The parse check of the patched clauses and the rim rule (R292, R622). -/
def State.loadPatchFault (s : State) (done : List (Nat × Nat)) : Option Ref :=
  let us := s.staged.map fun e => (e.2.1, e.2.2)
  let named := done.filter fun e => us.any fun u => puClause u.1 == e.2
  match named.findSome? fun e => (parseClause (s.parseCtx e.2 us)).map fun f => refParse f.reason e.1 e.2 f.bp f.phase with
  | some r => some r
  | none =>
    (rimClash s.seq.depth (done.flatMap fun e => xoutsOf e.2 (s.parseCtx e.2 us).words)).map fun f =>
      refParse 0x18 (((done.find? fun e => e.2 == f.2.2.1).map Prod.fst).getD 0xFF) f.2.2.1 f.2.2.2 f.1

/-! ### Release (R38, R252, R300, R302, R345) -/

/-- The clause groups with a loaded clause are powered, the others are gated (R302). -/
def groupsGate (s : State) : State :=
  (List.range 8).foldl (fun s g =>
    if (List.range 8).any fun i => (s.clause (8 * g + i)).loaded then
      { s with plt := { s.plt with emu := putBit s.plt.emu (17 + g) false } }.fset F.PLT_PGSTAT_ON
        (putBit (s.fget F.PLT_PGSTAT_ON) (17 + g) true)
    else if s.domOn (17 + g) then gateDomain (17 + g) s else s) s

/-- The links of the image are released: PEER item 7 says so, and an end whose partner's item agrees enters ACTIVE. -/
def linksRelease (s : State) : State :=
  let ls := (List.range 32).filter fun l => (s.link l).slot.en
  let s1 := ls.foldl (fun s l => s.modLink l fun x => { x with released := true, dropped := false }) s
  ls.foldl (fun s l => linkCompare l s) s1

/-- The sequencer takes a DESIGN's header (R25, R40, R57, R300). -/
def seqTake (h : List Byte) (st : SeqState) (s : State) : State :=
  let s1 : State := { s with seq := { s.seq with
    st := st, depth := hdrDepth h, twostate := hdrVmode h == 1, step := 0, ucyc := 0, start := 0 } }
  ((s1.fset F.SEQ_FENCE_DIST (hdrFdist h)).fset F.SEQ_DIAM_DIAM (hdrDiam h)).fset F.SEQ_CKPT_INTERVAL (hdrCkint h)

/-- A DESIGN load has its last section (R281, R292, R307, R314): the rim rule, the load-time patch sets, then release. -/
def designFinish (j : LoadJob) (g : Img) (s : State) : State :=
  let t := seqTake j.hdr .idle s
  match s.rimLaneFault (hdrDepth j.hdr) (fun _ => false) with
  | some r => loadRefuse r s
  | none =>
    match stageLoadSets g (loadSets g) t with
    | .inl i =>
      let c := (patchRec g.patches i).clause
      loadRefuse (refParse 0x49 c ((g.phys c).getD 0xFF) i 0xFFFF) s
    | .inr u =>
      match u.loadPatchFault j.done with
      | some r => loadRefuse r s
      | none =>
        let u1 := if (loadSets g).isEmpty then u else patchSwap u
        let u2 : State := { u1 with load := { u1.load with img := some g }, seq := { u1.seq with st := .ready } }
        loadDone j (rimPreload 0 (linksRelease (groupsGate u2)))

/-- A RELOAD has its last section (R281, R311): the rim lane rule over every loaded clause; then its clauses run from phase 0 of
the next user cycle, patch units apart (R195). -/
def reloadFinish (j : LoadJob) (s : State) : State :=
  match s.rimLaneFault s.seq.depth (fun c => !j.named.contains c) with
  | some r => loadRefuse r s
  | none => loadDone j (sigEpoch 1 (unitsOff (fun c => j.named.contains c) s))

/-- The last section of a load has passed. -/
def loadFinish (j : LoadJob) (s : State) : State :=
  if j.cls = clsDesign then (match j.img with | some g => designFinish j g s | none => s)
  else if j.cls = clsReload then reloadFinish j s
  else if j.cls = clsBoot then loadDone j (bootDone j s)
  else loadDone j s

/-- The next section is expected, or the load is complete. -/
def sectionNext (j : LoadJob) (s : State) : State :=
  let k : LoadJob := { j with
    sec := j.sec + 1, frame := 0, next := 0, content := [], hashIn := [], cipher := [], layout := [], key := []
    stage := .sections }
  if k.sec < k.dir.length then s.setJob k else loadFinish k (s.setJob k)

/-- The slot maps: links that train again are waited for, then each record is checked and written (R256, R281). -/
def slotsFinish (j : LoadJob) (g : Img) (c : List Byte) (s : State) : State :=
  if (List.range 32).any fun l => (s.link l).window.isSome then s.setJob { j with stage := .links }
  else
    match (List.range 32).findSome? (s.slotRef g j c) with
    | some r => loadRefuse r (s.setJob { j with stage := .sections })
    | none => sectionNext j (slotsWrite g c s)

/-- A load that waits for links looks again (R256). -/
def loadPoll (s : State) : State :=
  match s.load.job with
  | some j =>
    if j.stage = .links then
      match j.img with
      | some g => slotsFinish j g (j.staged? tySlotmap 0xFFFF) s
      | none => s
    else s
  | none => s

/-- The content of an own section has passed its digest and tag: it is applied, with the checks that it completes (R281,
R306, R307). -/
def sectionApply (e : DirEnt) (c : List Byte) (j0 : LoadJob) (s : State) : State :=
  let j : LoadJob := { j0 with staged := j0.staged ++ [(e.ty, e.index, c)] }
  match s.jobImg j with
  | none => sectionNext' e c j s
  | some g =>
    if e.ty = tyReloc then
      match nregFault c j.placement with
      | some r => loadRefuse r s
      | none =>
        let x := placeXf c j.placement
        sectionNext (j.modImg fun g => { g with
          ldev := j.own, xf := x.1, dx := x.2.1, dy := x.2.2, regions := relocRegions c j.placement
          dmap := (List.range g.ndev).map (dmapOf j.placement) }) s
    else if e.ty = tyWindow then
      match s.windowFault j g c with
      | some r => loadRefuse r s.freshNat.2
      | none => sectionNext j { s with umem := { s.umem with win := g.windows (s.fget F.MEM_HSPARE_MIB) c } }
    else if e.ty = tySlotmap then slotsFinish j g c (linksRemode g j c s)
    else if e.ty = tyProtdesc then
      let d := protOf g c
      if protField g.prot e.index c d then loadRefuse (refRule 0x34 e.index) s
      else
        match protOverlap g s.umem.win d with
        | some m => loadRefuse (refRule 0x33 m) s
        | none => sectionNext (j.modImg fun g => { g with prot := g.prot ++ [d] }) s
    else if e.ty = tyClause then
      if !clauseCarried j.dir j.own e.index then sectionNext j s
      else
        match clauseLoad j g e.index s with
        | .inl r => loadRefuse r s
        | .inr s1 => sectionNext { j with done := j.done ++ [(e.index, (g.phys e.index).getD 0)] } s1
    else if e.ty = tyPatch then
      match (s.rimLaneFault (hdrDepth j.hdr) fun _ => false).orElse fun _ => patchRecFault g (hdrDepth j.hdr) j.dir c with
      | some r => loadRefuse r s
      | none => sectionNext (j.modImg fun g => { g with patches := c }) s
    else sectionNext' e c j s
where
  /-- Rim sections, and those that are only staged. -/
  sectionNext' (e : DirEnt) (c : List Byte) (j : LoadJob) (s : State) : State :=
    if e.ty = tyRimbase ∨ e.ty = tyRimpart then
      match s.rimSectionFault e c with
      | some (r, a) => loadRefuse r (match a with | some a => lastErr a s.rim.lastWord s | none => s.freshNat.2)
      | none =>
        let s1 := rimWrite (s.rimArrived e c) s
        sectionNext j (if e.ty = tyRimbase then rimBaseDone s1 else rimPartDone e.index 2 s1)
    else sectionNext j s

/-- The last frame of a section: of an own one, tag, then digest (R305 to R307). -/
def sectionComplete (e : DirEnt) (j : LoadJob) (s : State) : State :=
  if e.ldev ≠ j.own then sectionNext j s
  else
    if e.enc ∧ Config.sm4Tag j.key e.iv e.aad j.cipher ≠ e.gtag then loadRefuse ⟨7, some 2, [j.sec, e.part, 2]⟩ (s.setJob j)
    else if (Config.sm3 j.hashIn).toNat ≠ e.dig then loadRefuse ⟨6, none, [j.sec]⟩ (s.setJob j)
    else sectionApply e (j.content.take e.len) j (s.setJob j)

/-! ### One frame (R296, R297, R307) -/

/-- A bad frame: reported, and read again up to three times (R296). -/
def frameBad (j : LoadJob) (s : State) : State :=
  let x := j.expect
  let s1 := loadRaise 2 ([x.sect] ++ w64 x.addr ++ [j.attempt]) s
  let k : LoadJob := { j with attempt := j.attempt + 1, bad := j.bad + 1 }
  let s2 : State := { s1.setJob k with load := { s1.load with
    job := some k, info := (List.range 3).map (s1.load.info.getD · 0) ++ [k.bad] } }
  if j.attempt < 4 then s2 else loadRefuse ⟨3, some 1, [x.sect] ++ w64 x.addr ++ [1]⟩ s2

/-- The checks that follow a header frame, and LOADINFO (R307, R325). -/
def headerTake (j : LoadJob) (s : State) : State :=
  match s.headerFault j with
  | some r => loadRefuse r (s.setJob j)
  | none =>
    let h := j.hdr
    let d0 := hdrGen h + j.cls * 2 ^ 16 + hdrVmode h % 2 * 2 ^ 20 + hdrDepth h / 64 % 64 * 2 ^ 21
    let s1 := s.setJob { j with stage := .directory, frame := 0, next := 0, content := [] }
    { s1 with load := { s1.load with info := [d0, hdrNdev h, 0, j.bad] } }

/-- The header frame (R298, R307, R310): a DESIGN or RELOAD waits to begin before its header is checked. -/
def headerFrame (f : Frame) (j0 : LoadJob) (s : State) : State :=
  let j : LoadJob := { j0 with hdr := f.payload, wire := j0.wire + 1, attempt := 1 }
  let s1 := s.fset F.SCH_LOAD_CLASS (j.cls % 16)
  if j.cls = clsDesign ∨ j.cls = clsReload then s1.setJob { j with stage := .waiting } else headerTake j s1

/-- A directory frame; after the last the directory is checked (R301, R304, R307, R311). -/
def directoryFrame (f : Frame) (j0 : LoadJob) (s : State) : State :=
  let last := j0.expect.isLast f
  let j : LoadJob := { j0 with
    content := j0.content ++ f.content, wire := j0.wire + 1, attempt := 1, frame := j0.frame + 1, next := f.addr + f.rep }
  if !last then s.setJob j
  else
    let d := j.content.take (hdrDirlen j.hdr)
    match s.directoryFault j d with
    | .inl r => loadRefuse r (s.freshNat.2.setJob j)
    | .inr own =>
      let es := dirEntries d
      let named := if j.cls = clsReload then
          ((es.filter fun e => e.ldev == own && e.ty == tyClause).filterMap fun (e : DirEnt) =>
            s.load.img.bind fun g => g.phys e.index).dedup
        else []
      let parts := if j.cls = clsRimpart then
          ((es.filter fun e => e.ldev == own && e.ty == tyRimpart).map fun (e : DirEnt) => e.index).dedup
        else []
      let fw := ((es.takeWhile fun e => !(e.ty == tyFirmware && e.index == 0)).map fun (e : DirEnt) => e.nframes).sum
      let k : LoadJob := { j with
        dir := es, own := own, named := named, fwWire := j.wire + fw, stage := .sections, sec := 0, frame := 0, next := 0
        content := [] }
      let k' := k.modImg fun g => { g with ldev := own }
      let s1 := rimPartFence parts (s.setJob k')
      spareDecide { s1 with load := { s1.load with info := s1.load.info.take 2 ++ [own % 2 ^ 18, k.bad] } }

/-- A RELOAD of clauses that are not isolated waits for its boundary before it takes a section (R311). -/
def State.reloadWaits (s : State) (j : LoadJob) : Bool :=
  j.cls == clsReload && !j.holding && j.named.any fun c => !(s.clause c).iso

/-- A frame of a section (R303 to R307): only own sections are written. -/
def sectionFrame (f : Frame) (j : LoadJob) (s : State) : State :=
  match j.dir[j.sec]? with
  | none => s
  | some e =>
    let last := j.expect.isLast f
    let adv : LoadJob := { j with wire := j.wire + 1, attempt := 1, frame := j.frame + 1, next := f.addr + f.rep }
    if e.ldev ≠ j.own then (if last then sectionNext adv s else s.setJob adv)
    else
      let key := if j.frame = 0 then s.sectionKey j e else .inr j.key
      match key with
      | .inl r => loadRefuse r s
      | .inr k =>
        let s1 := if j.frame = 0 then
            (if e.ty = tyRimbase then rimBaseBegin s
             else if e.ty = tyRimpart then rimPartBegin e.index s
             else sliceBegin j e s)
          else s
        let s2 : State := if e.enc && j.frame == 0 then
            { s1 with sec := { s1.sec with keys := kvSet none s1.sec.keys e.part (some k) } } else s1
        let cipher := if e.enc && !f.zero then j.cipher ++ f.payload else j.cipher
        let layout := if e.enc then j.layout ++ [(f.rep, f.zero)] else j.layout
        let n : LoadJob := { adv with
          key := k, hashIn := j.hashIn ++ f.hashed
          content := if e.enc then expand layout (Config.sm4Ctr k e.iv cipher) else j.content ++ f.content
          cipher := cipher, layout := layout }
        let s3 := if e.ty = tyRimbase ∨ e.ty = tyRimpart then rimWrite (s2.rimArrived e ((n.content.take e.len).drop (128 * (j.content.length / 128)))) s2
          else sliceArrives j e j.content.length n.content s2
        if last then sectionComplete e n s3 else s3.setJob n

/-- FRAME_RECEIVE (R296, R297, R307): one frame, where the loader expects one. A boot reads nothing while the flash is held in
reset (R516). -/
def frameReceive (bytes : List Byte) (readOk : Bool) (s : State) : State :=
  match s.load.job with
  | none => s
  | some j =>
    if j.stage = .waiting ∨ j.stage = .links ∨ (j.stage = .sections ∧ s.reloadWaits j) ∨
        (j.boot = none ∧ s.rangeHeld (j.addr + 528 * j.wire) 528 = true) ∨ (j.boot.isSome ∧ 0 < s.mgt.flReset) then s
    else
      let r := loadBytes j bytes readOk s
      let t : State := { r.2 with load := { r.2.load with
        posWire := 528 * j.wire, posSect := j.expect.sect, posAddr := j.expect.addr } }
      match r.1.bind frameOf with
      | none => frameBad j t
      | some f =>
        match frameFault j.expect f with
        | some c => loadRefuse ⟨3, some c, [f.sect] ++ w64 f.addr ++ [c]⟩ t
        | none =>
          match j.stage with
          | .header => headerFrame f j t
          | .directory => directoryFrame f j t
          | .sections => sectionFrame f j t
          | .waiting | .links => t

/-- LOAD_BEGIN (R310): a DESIGN or RELOAD that waited begins once no checkpoint, migration or patch application runs. -/
def loadBegin (s : State) : State :=
  match s.load.job with
  | none => s
  | some j =>
    if j.stage ≠ .waiting || s.seq.ckpt.isSome || s.migRuns || s.sch.patch.isSome then s
    else if j.cls = clsDesign then headerTake { j with img := some (imgOf j.hdr) } (designBegin s)
    else headerTake j s

/-- RELOAD_BOUNDARY_HOLD (R311): the first user-cycle boundary after an accepted RELOAD is held, once no migration runs. -/
def reloadHoldBegin (s : State) : State :=
  match s.load.job with
  | none => s
  | some j =>
    if j.stage = .sections && s.reloadWaits j && (j.due || (!s.stepping && s.atPhase0)) && !s.migRuns then
      s.setJob { j with due := true, holding := true }
    else s

/-! ### The commands -/

/-- FRAME_RECEIVE (R296). -/
def execFrameReceive (bytes : List Byte) (readOk : Bool) (s : State) : Host.Outcome State Fault Refusal :=
  .next (frameReceive bytes readOk s)

/-- LOAD_BEGIN (R310). -/
def execLoadBegin (s : State) : Host.Outcome State Fault Refusal := .next (loadBegin s)

/-- RELOAD_BOUNDARY_HOLD (R311). -/
def execReloadBoundaryHold (s : State) : Host.Outcome State Fault Refusal := .next (reloadHoldBegin s)

/-- MODE_WINDOW_CLOSE (R257): a load that waited for the link goes on. -/
def execModeWindowClose (l : Nat) (s : State) : Host.Outcome State Fault Refusal := .next (loadPoll (windowClose l s))

/-- IDENT_COMPLETE (R254): a load that waited for the link goes on (R256). -/
def execIdentComplete (l : Nat) (serial : DWord) (plink : Nat) (s : State) : Host.Outcome State Fault Refusal :=
  .next (loadPoll (identDone l serial plink s))

end Sys2Proof.Machine
end

