-- ==== Sys2Proof/Machine/Mgt.lean ====
section
/-! DEFINITION. Mgt.lean: the management complex: lockstep and restarts, watchdogs, flash commands, firmware patch units and
the code alias (R514, R516 to R526, R529 to R535). -/
namespace Sys2Proof.Machine

/-! ### Firmware content in flash (R514, R522) -/

/-- n content bytes from o on. -/
def State.aliasBytes (s : State) (base o n : Nat) : List Byte := (List.range n).map fun i => s.aliasByte base (o + i)

/-- The content of the FIRMWARE section at a flash address, as long as its own fields say (R522). -/
def State.firmwareAt (s : State) (base : Nat) : List Byte :=
  let h := s.aliasBytes base 0 64
  s.aliasBytes base 0 (64 + fwCodelen h + 48 * fwNpatch h)

/-! ### Patch units (R523, R524) -/

/-- An active enabled REMAP unit exists (R529). -/
def Mgt.remap (m : Mgt) : Bool := m.fpa.any fun e => e.2.any fun (u : FpUnit) => u.en && !u.brk

/-- The 32 staged bytes of unit u (R523, R534). -/
def State.fpData (s : State) (u : Nat) : List Byte :=
  leBytes 16 (kvGet 0#128 s.mgt.fpd (2 * u)).toNat ++ leBytes 16 (kvGet 0#128 s.mgt.fpd (2 * u + 1)).toNat

/-- The staged copy of unit u (R523, R533). -/
def State.fpStaged (s : State) (u : Nat) : FpUnit :=
  { line := s.fget (F.MGT_FPU_LINE u) * 32, brk := s.fbit (F.MGT_FPU_MODE u), en := s.fbit (F.MGT_FPU_EN u), data := s.fpData u }

/-- Every staged unit becomes active (R524). -/
def fpSwap (s : State) : State :=
  let m := (List.range 16).foldl (fun m u => kvSet none m u (some (s.fpStaged u))) s.mgt.fpa
  let s1 : State := { s with mgt := { s.mgt with fpa := m } }
  s1.fsetb F.MGT_STAT_REMAP s1.mgt.remap

/-- MGT_FPCTL written with APPLY = 1 (R524, R531). -/
def fpApply (s : State) : State :=
  if s.mgt.perm then { s with mgt := { s.mgt with perm := false } }.fset F.MGT_FPCTL_RESULT 1
  else (fpSwap s).fset F.MGT_FPCTL_RESULT 0

/-- REMAP units are lost at a restart (R524): the active ones, and EN of the staged ones. -/
def remapDrop (s : State) : State :=
  let s1 : State := { s with mgt := { s.mgt with
    fpa := s.mgt.fpa.filter fun e => !(e.2.any fun (u : FpUnit) => u.en && !u.brk) } }
  ((List.range 16).foldl (fun s u => if s.fbit (F.MGT_FPU_MODE u) then s else s.fset (F.MGT_FPU_EN u) 0) s1).fset
    F.MGT_STAT_REMAP 0

/-! ### Restarts (R518, R519) -/

/-- The services of busy slots end with RESTART; a load already begun goes on without its slot (R519). -/
def servicesRestart (s : State) : State :=
  let s1 : State := { s with
    load := { s.load with job := s.load.job.map fun (j : LoadJob) => { j with slot := 4 } }
    mgt := { s.mgt with patch := none } }
  (List.range 4).foldl (fun s k => svcRespond k 4 0 [] s) s1

/-- A pair restarts with a cause of MGT_STAT.RCAUSE, or is held (R518, R519, R524, R529). -/
def pairRestart (p cause : Nat) (held : Bool) (s : State) : State :=
  let s1 := (s.fset F.MGT_STAT_RCAUSE cause).count F.MGT_STAT_RESTARTS
  let s2 := s1.modPair p fun x => { x with
    halted := false, waitM := false, lr := none, expired := false, kickLeft := none, restarting := !held, held := held }
  let s3 := if held then s2.fset (if p = 0 then F.MGT_STAT_CTL_HELD else F.MGT_STAT_SEC_HELD) 1 else s2
  let s4 := remapDrop s3
  if p = 0 then servicesRestart s4 else keyxAbort s4

/-- The lockstep checker finds disagreement (R518, R535): a second restart within 1 s holds the pair. -/
def lockstep (p : Nat) (pc : DWord) (s : State) : State :=
  let x := s.pair p
  if 1 < p || x.held || x.restarting || x.halted then s
  else
    let held := (x.lastLock.map fun t => decide (s.now < t + 1000000000)).getD false
    let s1 := s.modPair p fun x => { x with lastLock := some s.now }
    (pairRestart p 1 held s1).raise F.MGT_EVT_LOCKSTEP 2 1 ([p] ++ w64 pc.toNat ++ [held.toNat])

/-- The bytes of the image in a flash slot: as long as the newest record says, the golden image whole (R317, R318). -/
def State.slotBytes (s : State) (k : Nat) : List Byte :=
  let len := match s.newestRec with
    | some (_, r) => if k = 0 then r.lenA else if k = 1 then r.lenB else slotSize 2
    | none => slotSize k
  s.flashRead (slotBase k) (min len (slotSize k))

/-- The security pair takes new content and starts at its entry (R522, R525). -/
def secReload (content : List Byte) (from_ : Nat) (s : State) : State :=
  keyxAbort ((s.store 0x80180000 content).modPair 1 fun x => { x with
    halted := false, waitM := false, lr := none, priv := 3, pc := BitVec.ofNat 64 (0x80180000 + fwEntry content)
    entry := fwEntry content, fwver := fwVer content, dig := Config.sm3 content, from_ := from_ })

/-- After a reverted swap (R526): the firmware reloads the security pair from its own slot, then commits a record that names
that slot. The golden image has no name in a record. -/
def revertEnd (slot : Nat) (s : State) : State :=
  let s1 := match bootStream (s.slotBytes slot) with
    | .inl x => secReload (x.firmware 1) slot s
    | .inr _ => s
  match s.newestRec with
  | some (_, r) => if slot < 2 then commitRec { r with seq := r.seq + 1, boot := slot } s1 else s1
  | none => s1

/-- A restart completes (R518, R526): the pair starts at its firmware entry. The control pair's firmware records it in the
fault log (R596); RESULT, UNIT and ITEM of that record are free values (log 4). -/
def restartDone (p : Nat) (s : State) : State :=
  let x := s.pair p
  if 1 < p || x.held || !x.restarting then s
  else
    let base := if p = 0 then 0xB0000000 else 0x80180000
    let s1 := mtWatch p (s.modPair p fun x => { x with restarting := false, priv := 3, pc := BitVec.ofNat 64 (base + x.entry) })
    let f := s1.fresh
    let s2 := if (s.pair 0).held then s1
      else logWrite 8 (fieldOf f.1 0 8) (fieldOf f.1 8 16) (fieldOf f.1 24 32) s1.seq.step 0 f.2
    match p, s2.mgt.revert with
    | 0, some slot => revertEnd slot { s2 with mgt := { s2.mgt with revert := none } }
    | _, _ => s2

/-! ### Watchdogs (R434, R520, R521) -/

/-- MGT_WDT_p written (R520, R531): EN = 1 starts the watchdog. -/
def wdtWrite (p : Nat) (en : Bool) (timeout : Nat) (s : State) : State :=
  let s1 := s.fset (F.MGT_WDT_TIMEOUT p) timeout
  if en then s1.fset (F.MGT_WDT_EN p) 1 else s1

/-- A key is written to MGT_WDKICK_p (R520). -/
def wdtKick (p : Nat) (key : BitVec 16) (s : State) : State :=
  if key = 0xC35A#16 then s.modPair p fun x => { x with kickLeft := some 1024 }
  else if key = 0x3CA5#16 ∧ (s.pair p).kickLeft.isSome then s.modPair p fun x => { x with kickLeft := none, expired := false }
  else s

/-- The watchdog of a pair expires (R434, R521). -/
def wdtExpire (p : Nat) (s : State) : State :=
  let x := s.pair p
  if 1 < p || !s.fbit (F.MGT_WDT_EN p) || x.halted || x.held || x.restarting then s
  else if x.expired then (pairRestart p 2 false s).raise F.MGT_EVT_WDT 2 2 [p, 1]
  else ((s.modPair p fun x => { x with expired := true }).raise F.MGT_EVT_WDT 2 2 [p, 0]).emit (.irq p 2)

/-! ### Who may write (R528) -/

/-- A register write is refused with STATUS PROT (R486, R487, R528): to the host as HIF_PWERR. -/
def protWrite (req : Requester) (off : Nat) (s : State) : State :=
  if req = .hif then hostWriteErr 0 off 6 s else s.emit (.status 6)

/-- A register of MGT that accepts writes only from the control pair in M-mode (R528). -/
def ctlOnly (req : Requester) (off : Nat) (f : State → State) (s : State) : State :=
  if req = .control true then f s else protWrite req off s

/-! ### Flash commands (R516, R517, R532) -/

/-- The aligned range that a command changes: 1 PROGRAM, 2 ERASE4K, 3 ERASE64K. -/
def flashRange (op a : Nat) : Nat × Nat :=
  let n := if op = 1 then 256 else if op = 2 then 0x1000 else 0x10000
  (a - a % n, n)

/-- A range touches an image that may not be changed (R517). -/
def State.flashProt (s : State) (a n : Nat) : Bool :=
  let hit := fun (k : Nat) => meets a n (slotBase k) (slotSize k)
  hit 2 || (match slotOf s.codebase with | some k => hit k | none => false) ||
    (decide ((s.pair 1).from_ < 3) && hit (s.pair 1).from_)

/-- MGT_FLCMD written with GO = 1 (R517, R532). DESIGN CHOICE (log 59): a command refused BUSY leaves OP unchanged. -/
def flashCmd (op : Nat) (s : State) : State :=
  let a := s.fget F.MGT_FLADDR_ADDR
  let r := flashRange op a
  if s.mgt.flash.isSome then s.fset F.MGT_FLCMD_RESULT 4
  else
    let s1 := s.fset F.MGT_FLCMD_OP op
    if s.flashProt r.1 r.2 then s1.fset F.MGT_FLCMD_RESULT 1
    else if op = 1 ∧ (a % 256 ≠ 0 ∨ s.fget F.MGT_FLSRC_OFF % 256 ≠ 0) then s1.fset F.MGT_FLCMD_RESULT 2
    else { s1 with mgt := { s1.mgt with flash := some (op, a, s.fget F.MGT_FLSRC_OFF) } }.fset F.MGT_FLCMD_GO 1

/-- A flash command ends (R517, R532). What a failed one leaves in its range, and what a source beyond control SRAM holds,
are free values (log 4). -/
def flashDone (ok : Bool) (s : State) : State :=
  match s.mgt.flash with
  | none => s
  | some (op, a, off) =>
    let r := flashRange op a
    let s1 := ({ s with mgt := { s.mgt with flash := none } }.fset F.MGT_FLCMD_GO 0).fset F.MGT_FLCMD_RESULT (if ok then 0 else 3)
    let f := s1.freshBytes r.2
    if !ok then f.2.flashWrite r.1 f.1
    else if op = 1 then
      if 0x180000 ≤ off then f.2.flashWrite r.1 f.1 else s1.flashWrite r.1 (s1.bytes (0x80000000 + off) 256)
    else s1.flashErase r.1 r.2

/-! ### The code alias and the swap timer (R514, R525, R526) -/

/-- MGT_CODEBASE is written by the control pair (R525): the cache is invalidated, the pair runs what lies there from its
entry, and the 2 s swap timer starts. The new slot or its generation, where the address lies in none, is a free value
(log 4). -/
def codebaseSet (secbase : Nat) (s : State) : State :=
  let x := s.pair 0
  let base := secbase % 2 ^ 24 * 16
  let c := s.firmwareAt base
  let f := s.freshNat
  let g := f.2.freshNat
  let slot := (slotOf base).getD (f.1 % 4)
  let gen := match streamHeader (s.flashRead (slotBase slot) 528) with | some h => hdrGen h | none => g.1 % 2 ^ 16
  let sw : Swap := { secbase := s.fget F.MGT_CODEBASE_SECBASE, entry := x.entry, fwver := x.fwver, dig := x.dig, old := x.from_
                     new := slot, gen := gen }
  let s1 : State := { g.2 with mgt := { g.2.mgt with swap := some sw } }
  let s2 := s1.modPair 0 fun x => { x with
    priv := 3, pc := BitVec.ofNat 64 (0xB0000000 + fwEntry c), lr := none
    entry := fwEntry c, fwver := fwVer c, dig := Config.sm3 c, from_ := slot }
  (s2.fset F.MGT_CODEBASE_SECBASE secbase).fset F.MGT_STAT_SWAP_BUSY 1

/-- The swap service that waits for the new firmware ends (R525, R528). -/
def swapAnswer (s : State) : State :=
  (List.range 4).foldl (fun s k => if nbit s.mgt.taken k && s.reqCode k == 3 then svcRespond k 0 0 [] s else s) s

/-- MGT_SWAPCTL.OK written 1 (R525, R535). Outside a swap it does nothing. -/
def swapOk (s : State) : State :=
  match s.mgt.swap with
  | none => s
  | some w =>
    let s1 : State := { s with mgt := { s.mgt with swap := none } }
    let s2 := (((s1.fset F.MGT_STAT_SWAP_BUSY 0).fset F.MGT_SWAPCTL_RESULT 0).fset F.SCH_BOOT_SRC w.new).fset F.SCH_BOOT_GEN w.gen
    swapAnswer (s2.raise F.MGT_EVT_SWAP 2 3 [0, w.old, w.new, w.gen])

/-- The swap timer expires before OK (R518, R526). -/
def swapExpire (s : State) : State :=
  match s.mgt.swap with
  | none => s
  | some w =>
    let s1 : State := { s with mgt := { s.mgt with swap := none, revert := some w.old } }
    let s2 := ((s1.fset F.MGT_STAT_SWAP_BUSY 0).fset F.MGT_SWAPCTL_RESULT 1).fset F.MGT_CODEBASE_SECBASE w.secbase
    let s3 := s2.modPair 0 fun x => { x with entry := w.entry, fwver := w.fwver, dig := w.dig, from_ := w.old }
    pairRestart 0 3 false (s3.raise F.MGT_EVT_SWAP 2 3 [1, w.old, w.new, w.gen])

/-! ### The commands -/

/-- MGT_LOCKSTEP (R518). -/
def execMgtLockstep (pair : Nat) (pc : DWord) (s : State) : Host.Outcome State Fault Refusal := .next (lockstep pair pc s)

/-- PAIR_RESTART_COMPLETE (R518). -/
def execPairRestartComplete (pair : Nat) (s : State) : Host.Outcome State Fault Refusal := .next (restartDone pair s)

/-- MGT_WDT_ENABLE (R520). -/
def execMgtWdtEnable (pair : Nat) (timeout : BitVec 24) (s : State) : Host.Outcome State Fault Refusal :=
  .next (wdtWrite pair true timeout.toNat s)

/-- WDT_KICK (R520). -/
def execWdtKick (pair : Nat) (key : BitVec 16) (s : State) : Host.Outcome State Fault Refusal := .next (wdtKick pair key s)

/-- MGT_WDT (R521). -/
def execMgtWdt (pair : Nat) (s : State) : Host.Outcome State Fault Refusal := .next (wdtExpire pair s)

/-- PROGRAM (R517). -/
def execProgram (req : Requester) (s : State) : Host.Outcome State Fault Refusal := .next (ctlOnly req 0x200048 (flashCmd 1) s)

/-- ERASE4K (R517). -/
def execErase4k (req : Requester) (s : State) : Host.Outcome State Fault Refusal := .next (ctlOnly req 0x200048 (flashCmd 2) s)

/-- ERASE64K (R517). -/
def execErase64k (req : Requester) (s : State) : Host.Outcome State Fault Refusal := .next (ctlOnly req 0x200048 (flashCmd 3) s)

/-- FLASH_CMD_COMPLETE (R532). -/
def execFlashCmdComplete (ok : Bool) (s : State) : Host.Outcome State Fault Refusal := .next (flashDone ok s)

/-- MGT_FP_APPLY (R524). -/
def execMgtFpApply (s : State) : Host.Outcome State Fault Refusal := .next (fpApply s)

/-- SWAP_OK (R525). -/
def execSwapOk (s : State) : Host.Outcome State Fault Refusal := .next (swapOk s)

/-- SWAP_TIMEOUT (R526). -/
def execSwapTimeout (s : State) : Host.Outcome State Fault Refusal := .next (swapExpire s)

end Sys2Proof.Machine
end

