-- ==== Sys2Proof/Machine/Svc.lean ====
section
/-! DEFINITION. Svc.lean: the services of the management firmware (R290 to R293, R320, R321, R525, R527, R528, R548, R597 to
R600). -/
namespace Sys2Proof.Machine

/-! ### Requests (R527, R528) -/

/-- Slot `slot` holds a request of a code that the firmware takes up now: busy, not taken yet, no lower slot waiting, the
control pair running its firmware, no swap timer running, no boot attempt under way (R525, R527). -/
def State.svcDue (s : State) (slot code : Nat) : Bool :=
  let go := s.fget F.MGT_SVC_GO
  decide (slot < 4) && nbit go slot && s.reqCode slot == code && !nbit s.mgt.taken slot &&
    (List.range slot).all (fun k => !nbit go k || nbit s.mgt.taken k) &&
    !(s.pair 0).halted && !(s.pair 0).held && !(s.pair 0).restarting && s.mgt.swap.isNone && s.mgt.boot.isNone

/-- A range lies wholly in the lexicon, in HBM or in the host range (R528). -/
def rangeOk (a n : Nat) : Bool :=
  decide (0 < n) && ((isLex a && isLex (a + n - 1)) || (isHbm a && isHbm (a + n - 1)) || (isHost a && isHost (a + n - 1)))

/-- The arguments of a request are refused (R528): LEN = 0, an address outside its ranges, a nonzero argument not used. The
bits of the mask name the used ones: 0 ARG0, 1 ADDR and LEN, 2 ADDR2 and LEN2, 3 ARG1. -/
def State.badArg (s : State) (slot mask : Nat) : Bool :=
  (!nbit mask 0 && s.reqArg0 slot != 0) || (!nbit mask 3 && s.reqArg1 slot != 0) ||
    (if nbit mask 1 then !rangeOk (s.reqAddr slot) (s.reqLen slot) else s.reqAddr slot != 0 || s.reqLen slot != 0) ||
    (if nbit mask 2 then s.reqLen2 slot != 0 && !rangeOk (s.reqAddr2 slot) (s.reqLen2 slot)
     else s.reqAddr2 slot != 0 || s.reqLen2 slot != 0)

/-- A service: its request is due, and no calibration slice holds the memory it names (R222); in recovery only LOAD and INFO are
served; its arguments are checked (R321, R527, R528). -/
def service (slot code mask : Nat) (bad : Bool) (f : State → State) (s : State) : State :=
  if !s.svcDue slot code then s
  else if s.rangeHeld (s.reqAddr slot) (s.reqLen slot) || s.rangeHeld (s.reqAddr2 slot) (s.reqLen2 slot) then s
  else if s.fget F.SCH_BOOT_SRC = 3 ∧ code ≠ 1 ∧ code ≠ 7 then svcRespond slot 1 0 [] s
  else if s.badArg slot mask || bad then svcRespond slot 2 0 [] s
  else f s

/-- The bytes of a request's range: from user memory, or as the host gives them. -/
def svcBytes (a n : Nat) (host : List Byte) (s : State) : List Byte × State :=
  if isUser a then
    let r := portRead 1 a n s
    (r.1, r.2.2)
  else ((host ++ List.replicate (n - host.length) 0#8).take n, s.emit (.hostRead ((s.hostXlate a).getD 0) n))

/-- A request whose CODE is not listed is answered in its turn (R527, R528). -/
def svcUnlisted (s : State) : State :=
  [0, 1, 2, 3].foldl (fun s k =>
    let c := s.reqCode k
    if s.svcDue k c && !(decide (1 ≤ c) && decide (c ≤ 9)) then svcRespond k 1 0 [] s else s) s

/-! ### LOAD (R307, R309, R527) -/

/-- LOAD: the loader takes the stream; while it is busy the request is refused with LOAD_CLASS, reason BUSY. The class that
refusal names is a free value (log 4): no header has been read. -/
def svcLoad (slot : Nat) (placement : List Byte) (s : State) : State :=
  if s.load.job.isSome then
    let r := s.freshNat
    svcRespond slot 3 0x1A [] (loadRaise 10 [r.1, 1] r.2)
  else
    let p := svcBytes (s.reqAddr2 slot) (s.reqLen2 slot) placement s
    let t := if s.reqLen2 slot = 0 then s else p.2
    { t with
      load := { t.load with job := some {
        boot := none, slot := slot, addr := s.reqAddr slot, placement := if s.reqLen2 slot = 0 then none else some p.1 } }
      mgt := { t.mgt with taken := putBit t.mgt.taken slot true } }.fset F.SCH_LOAD_BUSY 1

/-! ### Firmware images (R320, R522, R525, R527) -/

/-- The event that refuses a BOOT stream, or its parts (R307): frames, header and directory rules, class, signature, digests,
contents: the low byte of its code, and its payload where one check fixes it. -/
def State.bootCheck (s : State) (b : List Byte) : BootStream ⊕ Nat × Option (List Nat) :=
  match bootStream b with
  | .inr c => .inr (c, none)
  | .inl x =>
    if hdrClass x.hdr ≠ clsBoot then .inr (0x1A, some [hdrClass x.hdr, 4])
    else if s.sigFault x.hdr then .inr (0x15, some [hdrKeyid x.hdr, hdrClass x.hdr])
    else if (Config.sm3 x.dir).toNat ≠ hdrDirdig x.hdr then .inr (0x16, some [0xFFFE])
    else match (List.range x.secs.length).find? fun k => (x.secs[k]?.map fun e => (Config.sm3 e.2.2).toNat != e.1.dig).getD false with
      | some k => .inr (0x16, some [k])
      | none =>
        if x.secs.any fun e => e.1.ty == tyFirmware && !fwOk e.1.index e.2.1 then .inr (0x14, none)
        else .inl x

/-- A service refuses a BOOT stream (R309, R316, R326, R527): the event is raised and its code stands in the response. A payload
that the manual does not fix is a free value (log 4). -/
def bootRefuse (slot : Nat) (r : Nat × Option (List Nat)) (s : State) : State :=
  match r.2 with
  | some p => svcRespond slot 3 r.1 [] (loadRaise (r.1 - 0x10) p s)
  | none =>
    let f := s.freshNat
    let g := f.2.freshNat
    svcRespond slot 3 r.1 [] (loadRaise (r.1 - 0x10) [f.1, g.1] g.2)

/-- A generation is newer than another (R315, R316). -/
def genNewer (a b : Nat) : Bool :=
  let d := (a % 65536 + 65536 - b % 65536) % 65536
  decide (1 ≤ d) && decide (d ≤ 32767)

/-- The generation that a record gives a slot. -/
def DirRec.gen (r : DirRec) (k : Nat) : Nat := if k = 0 then r.genA else r.genB

/-- A record with a slot's generation, length and VALID bit set. -/
def DirRec.put (r : DirRec) (k gen len : Nat) : DirRec :=
  let v := { r with valid := putBit r.valid k true }
  if k = 0 then { v with genA := gen, lenA := len } else { v with genB := gen, lenB := len }

/-- The slot that an update writes (R320). -/
def State.updateSlot (s : State) : Nat :=
  let run := s.fget F.SCH_BOOT_SRC
  if run < 2 then 1 - run else match s.newestRec with | some (_, r) => 1 - r.boot | none => 0

/-- A longest stream of either slot (R317). -/
def streamMax : Nat := 0x06F00000

/-- What FW_UPDATE refuses before it erases anything: a stream without a readable header or longer than a slot takes, another class,
a generation that is not newer (R309, R316, R317, R320). The order among them, and the code of a stream that is too long, are the
model's (log 33). -/
def State.updateRefusal (s : State) (b : List Byte) : List Byte ⊕ Nat × Option (List Nat) :=
  match streamHeader b with
  | none => .inr (0x13, none)
  | some h =>
    if streamMax < b.length then .inr (0x13, none)
    else if hdrClass h ≠ clsBoot then .inr (0x1A, some [hdrClass h, 4])
    else
      match s.newestRec with
      | some (_, r) =>
        if genNewer (hdrGen h) (r.gen r.boot) then .inl h
        else .inr (0x19, some [hdrGen h, r.gen r.boot, s.freshNat.1])
      | none => .inl h

/-- FW_UPDATE (R320): the newness test; a record that names the slot to be written is replaced by one that names the running slot;
the slot is erased, written, and read back through the checks; a new record names it. -/
def fwUpdate (slot : Nat) (stream : List Byte) (s : State) : State :=
  let b := svcBytes (s.reqAddr slot) (s.reqLen slot) stream s
  match b.2.updateRefusal b.1 with
  | .inr r => bootRefuse slot r b.2
  | .inl h =>
    let run := s.fget F.SCH_BOOT_SRC
    let tgt := s.updateSlot
    let cur := (s.newestRec).map Prod.snd
    let mid := cur.map fun r => if r.boot = tgt then { r with seq := r.seq + 1, boot := run, valid := putBit r.valid tgt false } else r
    let s1 := match cur, mid with
      | some r, some m => if r.boot = tgt then commitRec m b.2 else b.2
      | _, _ => b.2
    let s2 := (s1.flashErase (slotBase tgt) (slotSize tgt)).flashWrite (slotBase tgt) b.1
    match s2.bootCheck (s2.flashRead (slotBase tgt) b.1.length) with
    | .inr r => bootRefuse slot r s2
    | .inl _ =>
      let old : DirRec := mid.getD ⟨0, 0, 0, 0, 0, 0, 0⟩
      let new : DirRec := { old with seq := if mid.isSome then old.seq + 1 else 0, boot := tgt }
      svcRespond slot 0 0 [tgt] (commitRec (new.put tgt (hdrGen h) b.1.length) s2)

/-- FW_SWAP (R525): both pairs move to the slot that the newest committed record names. The handover record's bytes are free
values (log 4). The slot is answered when the new firmware writes OK, or by the restart after a revert. -/
def fwSwap (slot : Nat) (s : State) : State :=
  if (List.range 4).any fun k => k != slot && nbit s.mgt.taken k then s
  else
    match s.newestRec with
    | none => svcRespond slot 5 0 [] s
    | some (_, r) =>
      if r.boot = (s.pair 0).from_ then svcRespond slot 5 0 [] s
      else
        match s.bootCheck (s.slotBytes r.boot) with
        | .inr e => bootRefuse slot e s
        | .inl x =>
          let s1 := secReload (x.firmware 1) r.boot s
          let f := s1.freshBytes 4096
          let s2 := (memWrite .control 0x80000000 f.1 f.2).2
          let s3 : State := { s2 with mgt := { s2.mgt with taken := putBit s2.mgt.taken slot true } }
          codebaseSet ((slotBase r.boot + 528 * x.fwFrame 0) / 16) s3

/-- Patch k of a HOTFIX is staged in unit k (R523, R527). -/
def fpStage (c : List Byte) (k : Nat) (s : State) : State :=
  let p := fwPatch c k
  let s1 := ((s.fset (F.MGT_FPU_LINE k) (p.1 / 32)).fset (F.MGT_FPU_MODE k) 0).fset (F.MGT_FPU_EN k) 1
  { s1 with mgt := { s1.mgt with
    fpd := kvSet 0#128 (kvSet 0#128 s1.mgt.fpd (2 * k) (BitVec.ofNat 128 (leAt p.2 0 16))) (2 * k + 1)
      (BitVec.ofNat 128 (leAt p.2 16 16)) } }

/-- FW_HOTFIX (R527): the control section's patches take units 0 upward and are applied. A stream that is no hotfix of the
running content is refused; no event of R620 names that refusal. -/
def fwHotfixSvc (slot : Nat) (stream : List Byte) (s : State) : State :=
  let b := svcBytes (s.reqAddr slot) (s.reqLen slot) stream s
  match s.bootCheck b.1 with
  | .inr e => bootRefuse slot e b.2
  | .inl x =>
    let c := x.firmware 0
    if !fwHotfix c || fwBasedig c != (s.pair 0).dig.toNat then svcRespond slot 3 0 [] b.2
    else
      let s1 := (List.range (fwNpatch c)).foldl (fun s k => fpStage c k s) b.2
      let s2 := fpApply s1
      svcRespond slot 0 0 [] (if s.mgt.perm then fpApply s2 else s2)

/-! ### PATCH_SET (R290 to R293, R527) -/

/-- The staged copies of a set's units go back to MODE OFF, or to what is active. -/
def setRestage (set : Nat) (off : Bool) (s : State) : State :=
  (s.load.sets.filter fun e => e.2 == set && decide (e.1 < 64)).foldl (fun s e =>
    s.fset (F.SCH_PU_MODE e.1) (if off then 0 else puMode (kvGet 0 s.sch.actA e.1))) s

/-- The state with the units of a set forgotten. -/
def setForget (set : Nat) (s : State) : State :=
  { s with load := { s.load with sets := s.load.sets.filter fun e => e.2 != set } }

/-- The application that a PATCH_SET waits for has ended (R293, R527): RSPA D1 holds SCH_PATCH.RESULT. A set whose units are
all spent (DICT) stays known as applied under the number 64. -/
def patchSetEnd (s : State) : State :=
  match s.mgt.patch with
  | none => s
  | some (slot, set, withdraw) =>
    let res := s.fget F.SCH_PATCH_RESULT
    let s1 : State := { s with mgt := { s.mgt with patch := none } }
    let s2 :=
      if res = 0 then
        if withdraw then setForget set s1
        else
          let live := s1.load.sets.filter fun e => e.2 != set || (puMode (kvGet 0 s1.sch.actA e.1) != 0)
          { s1 with load := { s1.load with sets := live ++ [(64, set)] } }
      else if withdraw then setRestage set false s1
      else setForget set (setRestage set true s1)
    svcRespond slot (if res = 0 then 0 else 3) (if res = 0 then 0 else 6) [res] s2

/-- A PATCH_SET is answered as soon as no application runs any more: one that applies at once ends with its own command (R193,
R293). -/
def patchAnswer (s : State) : State := if s.sch.patch.isNone then patchSetEnd s else s

/-- PATCH_SET (R293): a set with LOAD = 0 is staged, or its units are turned OFF, and SCH_PATCH applies that at a boundary.
Where it does not apply now the status is STATE; while another application runs it is refused with SCH_PATCH, BUSY. -/
def patchSet (slot : Nat) (s : State) : State :=
  let set := s.reqArg0 slot
  let withdraw := s.reqArg1 slot == 1
  let applied := s.load.sets.any fun e => e.2 == set
  match s.load.img with
  | none => svcRespond slot 5 0 [] s
  | some g =>
    if !((patchRecs g.patches).any fun r => r.set == set && r.flags == 0) || applied != withdraw || s.mgt.patch.isSome then
      svcRespond slot 5 0 [] s
    else if s.sch.patch.isSome then svcRespond slot 3 6 [4] (patchApply s)
    else
      let staged : Nat ⊕ State := if withdraw then .inr (setRestage set true s) else stageSet set (patchUnits g s.storedSwitch set) s
      match staged with
      | .inl _ => svcRespond slot 5 0 [] s
      | .inr s1 =>
        let s2 : State := { s1 with mgt := { s1.mgt with
          patch := some (slot, set, withdraw), taken := putBit s1.mgt.taken slot true } }
        patchAnswer (patchApply s2)

/-! ### LOG_READ, INFO, ATTEST (R527, R548, R597) -/

/-- LOG_READ: the committed records in SEQ order, as many whole ones as fit. -/
def logRead (slot : Nat) (s : State) : State :=
  let recs := s.logRecs
  let n := min recs.length (s.reqLen slot / 64)
  let r := busWriteAll .control (s.reqAddr slot) (recs.take n).flatten s
  if r.1 = 0 then svcRespond slot 0 0 [64 * n] r.2 else svcRespond slot 3 0 [] r.2

/-- INFO. -/
def svcInfo (slot : Nat) (s : State) : State :=
  svcRespond slot 0 0
    [(s.pair 0).fwver % 65536 + (s.pair 1).fwver % 65536 * 65536,
     s.fget F.SCH_BOOT_SRC % 4 + s.fget F.SCH_BOOT_GEN * 65536, s.fget F.MGT_STAT_RESTARTS] s

/-- Bytes 0 to 319 of an attestation report (R548). LDEV while no image is loaded is a free value (log 4). -/
def State.report (s : State) (nonce : List Byte) (ldev : Nat) : List Byte :=
  let ver := fun p => leBytes 2 ((s.pair p).fwver)
  leBytes 4 0x54414B49 ++ leBytes 2 1 ++ leBytes 1 (s.fuseByte 8 % 16) ++ leBytes 1 (s.fuseByte 8 / 16) ++ leBytes 8 s.serial ++
    nonce ++ (Config.sm2Public s.devSeed ++ List.replicate 64 0#8).take 64 ++ leBytes 8 s.ptime ++ leBytes 8 s.seq.step ++
    ver 0 ++ ver 1 ++ leBytes 2 (s.fget F.SCH_BOOT_GEN) ++ leBytes 1 (s.fget F.SCH_BOOT_SRC) ++
    leBytes 1 (s.mgt.remap.toNat + 2 * s.dbg.tapLevel + 8 * s.dbg.hostLevel) ++
    leBytes 32 (s.pair 0).dig.toNat ++ leBytes 32 (s.pair 1).dig.toNat ++ leBytes 2 s.gen ++ leBytes 1 s.load.lastCls ++
    leBytes 1 s.seq.twostate.toNat ++ leBytes 4 ((s.load.img.map (·.ldev)).getD ldev) ++
    leBytes 32 ((s.load.img.map fun g => (Config.sm3 (g.hdr.take 192)).toNat).getD 0) ++ leBytes 32 s.fp.toNat ++
    leBytes 1 (s.fuseByte 10) ++ leBytes 1 s.epochCount ++ leBytes 2 (maskOf 16 fun k => (s.token k).isSome) ++
    List.replicate 44 0#8

/-- ATTEST (R548). -/
def attest (slot : Nat) (nonce : List Byte) (s : State) : State :=
  if (s.pair 1).halted || (s.pair 1).held || (s.pair 1).restarting then s
  else
    let n := svcBytes (s.reqAddr2 slot) 32 nonce s
    let f := n.2.freshNat
    let b := f.2.report n.1 f.1
    let sig := (Config.sm2Sign s.devSeed b ++ List.replicate 64 0#8).take 64
    let r := busWriteAll .security (s.reqAddr slot) (b ++ sig) f.2
    if r.1 = 0 then svcRespond slot 0 0 [384] r.2 else svcRespond slot 3 0 [] r.2

/-! ### RESTORE (R38, R390, R406, R429, R599, R600) -/

/-- The checkpoint in the slot at an address: the device's own commit record and body stand there; what host memory holds
is what the host gives, or else what this device wrote. -/
def State.ckptAt (s : State) (a : Nat) (host : Option Ckpt) : Option Ckpt :=
  let own := kvGet none s.seq.ckpts a
  if isHost a then host.orElse fun _ => own
  else own.filter fun c => s.bytes a 64 == ckptRecord c

/-- The first check that refuses a restore, after STATE and COMMIT: reason, STATUS, code of the refusing event (R600). -/
def State.restoreFault (s : State) (a len : Nat) (crcOk : Bool) (c : Ckpt) : Option (Nat × Nat) :=
  let body := ckptBody c
  if !crcOk || len < 64 + body.length || (!isHost a && crc32c (s.bytes (a + 64) body.length) != crc32c body) then some (3, 0)
  else if c.gen ≠ s.gen ∨ c.hdr.take 32 ≠ s.ckptHeader.take 32 then some (4, 0x19)
  else if c.twostate ≠ s.seq.twostate then some (5, 0)
  else if c.hdr.drop 32 ≠ s.ckptHeader.drop 32 then some (6, 0)
  else if ((s.load.img.map (·.prot)).getD []).any fun d =>
      kvGet none s.sec.keys d.part != kvGet none c.keys d.part then some (7, 0x17)
  else if s.usedLinks.any fun l => !((s.link l).st == .up || (s.link l).st == .active) then some (8, 0)
  else none

/-- The clause state of a checkpoint (R599). -/
def restoreClause (c : Ckpt) (s : State) (k : Nat) : State :=
  s.modClause k fun x => { x with
    vs := kvSetAll s.dfl [] (kvGet [] c.vs k), vsBad := [], cq := [], padr := [], pwd := [], pret := [], xwCyc := [], winCyc := []
    bus := [], inl := []
    chkDrop := kvGet 0 c.chk k }

/-- The memory regions of a checkpoint; where a write of a region fails, some of their bytes are written and which is a
free value (R600, log 4). -/
def restoreMem (c : Ckpt) (ok : Bool) (s : State) : State :=
  let f := s.fresh
  let hit := fun (a : Nat) => inRanges c.regions a && isUser a && (ok || nbit f.1.toNat (a / 32 % 128))
  let old := s.mem.filter fun e => (s.addrsOf e.1).all fun a => !hit a
  let bad := s.umem.bad.filter fun e => (s.addrsOf e.1).all fun a => !hit a
  let s1 : State := { (if ok then s else f.2) with mem := old, umem := { s.umem with bad := bad } }
  (c.mem.filter fun e => hit e.1).foldl (fun s e => s.storeByte e.1 e.2) s1

/-- The returns of a checkpoint that its boundary had issued (R48). -/
def restoreRets (c : Ckpt) (s : State) : State :=
  { s with umem := { s.umem with
    lexq := []
    rets := c.rets.map fun (r : Nat × Nat × List Val) =>
      { m := r.1, due := r.2.1, hbm := isHbm (winBase (s.win r.1)), vals := r.2.2, arrived := true, served := true, addr := 0
        stride := 0, width := 0 } } }

/-- The rim step-lane entries of a checkpoint (R348). -/
def restoreRim (c : Ckpt) (s : State) : State :=
  (List.range 16).foldl (fun s g => s.modGroup g fun x => { x with
    inq := if s.inEn g then kvGet [] c.lanes g else []
    outq := if s.outEn g then kvGet [] c.outs g else []
    keep := if s.outEn g then kvGet [] c.outs g else []
    inNext := c.step + 3, filled := none }) s

/-- The configuration of a trigger unit, in the order in which a checkpoint holds it. -/
def unitFields (u : Nat) : List Fld :=
  [F.CAP_TUCTL_EN u, F.CAP_TUCTL_ACT u, F.CAP_TUCTL_COND u, F.CAP_TUCTL_POL u, F.CAP_TUCTL_INV u, F.CAP_TUCTL_HMODE u,
   F.CAP_TUCTL_XCH u, F.CAP_TUSRC_KIND u, F.CAP_TUSRC_BANK u, F.CAP_TUSRC_PIN u, F.CAP_TUMIN_MIN u, F.CAP_TUMAX_MAX u,
   F.CAP_TUTHR_HI u, F.CAP_TUTHR_LO u, F.CAP_TUHOLD_HOLD u]

/-- The state of a trigger unit as a restore writes it (R406): an enabled unit without a record of its state is ARMED. -/
def restoreUnit (c : Ckpt) (s : State) (u : Nat) : State :=
  let l := kvGet [] c.trig u
  let s1 := ((unitFields u).zip l).foldl (fun s e => s.fset e.1 e.2) s
  let fresh := fun (x : Tu) (st : TuState) =>
    { x with st := st, skips := 0, matches_ := 0, due := [], timedOut := false, riseAt := none, fallAt := none }
  match l.drop 15 with
  | [st, step, n, skips, level, since] =>
    let line := s1.fget (F.CAP_TUSRC_PIN u)
    let t : TuState := if st = 0 then .off else if st = 1 then .armed else .holdoff
    let s2 := s1.modUnit u fun x => { fresh x t with step := step, matches_ := n, skips := skips }
    { s2 with cap := { s2.cap with
      lines := putBit s2.cap.lines line (level == 1), lineSince := kvSet 0 s2.cap.lineSince line since } }
  | _ => s1.modUnit u fun x => fresh x (if s1.fbit (F.CAP_TUCTL_EN u) then .armed else .off)

/-- A used link goes to UP with the frames that it preloads once its partner has been restored too (R38, R254, R599). -/
def restoreLink (c : Ckpt) (s : State) (l : Nat) : State :=
  let s1 := if (s.link l).st == .active then linkTo .up l s else s
  let s2 := s1.modLink l fun x => { x with
    dropped := false, rxq := [], replay := [], txAcc := [], retry := none, fences := [], restored := some (kvGet [] c.frames l) }
  linkAnnounce l s2

/-- A restore (R599). -/
def restoreApply (c : Ckpt) (ok : Bool) (s : State) : State :=
  let s1 : State := { s with
    seq := { s.seq with
      st := .ready, step := c.step, ucyc := c.ucyc, start := c.ucyc, fence := none, lastFence := none, stopStep := none
      haltAt := none }
    dbg := { s.dbg with forces := [] } }
  let s2 := s1.loadedClauses.foldl (restoreClause c) s1
  let s3 := restoreRets c (restoreMem c ok s2)
  let s4 := (List.range 16).foldl (restoreUnit c) (restoreRim c s3)
  let s5 := s4.usedLinks.foldl (restoreLink c) (sigOff s4)
  s5.usedLinks.foldl (fun s l => linkCompare l s) s5

/-- The event that refuses a restore, where R600 names one: LOAD_GEN or LOAD_DECRYPT (R316, R326, R547). Where the image differs
elsewhere than in its GEN, the header byte is a free value; so is the section of a partition record (log 4). -/
def restoreEvent (c : Ckpt) (reason : Nat) (s : State) : State :=
  let f := s.freshNat
  if reason = 4 then loadRaise 9 [c.gen, s.gen, f.1] f.2
  else if reason = 7 then
    let part := (((s.load.img.map (·.prot)).getD []).find? fun d => kvGet none s.sec.keys d.part != kvGet none c.keys d.part).map (·.part)
    loadRaise 7 [f.1, part.getD 0, 2] f.2
  else s

/-- RESTORE (R599, R600): RSPA D1 holds the reason, D2 and D3 the checkpoint's user cycle. -/
def restore (slot : Nat) (crcOk writeOk : Bool) (host : Option Ckpt) (s : State) : State :=
  if s.load.img.isNone || !(s.seq.st == .ready || s.seq.st == .stopped) then svcRespond slot 5 0 [1] s
  else
    match s.ckptAt (s.reqAddr slot) host with
    | none => svcRespond slot 3 0 [2] s
    | some c =>
      match s.restoreFault (s.reqAddr slot) (s.reqLen slot) crcOk c with
      | some (r, ev) => svcRespond slot 3 ev (r :: w64 c.ucyc) (restoreEvent c r s)
      | none =>
        let s1 := restoreApply c writeOk s
        if writeOk then svcRespond slot 0 0 (0 :: w64 c.ucyc) s1 else svcRespond slot 3 0 (9 :: w64 c.ucyc) s1

/-! ### The end of a boot attempt (R321, R597) -/

/-- The boot timer expires (R321): both pairs are reset, and the attempt has failed. An image loaded in recovery has none. -/
def bootTimeout (s : State) : State :=
  if (s.mgt.boot.map fun (b : Boot) => decide (3 ≤ b.src)).getD true then s
  else bootFail 5 (keyxAbort ((s.modPair 0 fun _ => {}).modPair 1 fun _ => {}))

/-- One record of the fault log is reapplied (R597): 1 phrase, 2 row, 3 spare map, 4 lexicon word, 5 HBM page. A phrase that
the fuses already retire is skipped. -/
def reapply (s : State) (b : List Byte) : State :=
  let unit := leAt b 10 2
  let item := leAt b 12 4
  if leAt b 9 1 ≠ 0 then s
  else
    match leAt b 8 1 with
    | 1 => if (s.clause unit).spared then s else spareGo unit item s
    | 2 => rmapEnd 0 (rmapGo unit item s)
    | 3 => s.modConn unit fun x => { x with spare := some item }
    | 4 => lretEnd 0 (lretGo unit item s)
    | 5 => hretEnd 0 (hretGo unit (s.fset F.MEM_HRETPG_PAGE item))
    | _ => s

/-- SCH_BOOT.OK written 1 (R321, R578, R597): the attempt has succeeded, PLT_RESET reports the last reset, and the firmware
reapplies its fault log before it accepts a load. -/
def bootConfirm (s : State) : State :=
  if s.mgt.boot.isNone || s.load.job.isSome then bootOk s
  else
    let s1 := bootOk s
    let s2 := s1.raise F.PLT_EVT_RESET 0 10 [s.fget F.PLT_RSTCAUSE_CAUSE, s.fget F.PLT_RSTCAUSE_COUNT]
    s2.logRecs.foldl reapply s2

/-! ### The commands -/

/-- LOAD (R527). -/
def execLoad (slot : Nat) (placement : List Byte) (s : State) : Host.Outcome State Fault Refusal :=
  .next (service slot 1 6 false (svcLoad slot placement) s)

/-- FW_UPDATE (R320). -/
def execFwUpdate (slot : Nat) (stream : List Byte) (s : State) : Host.Outcome State Fault Refusal :=
  .next (service slot 2 2 false (fwUpdate slot stream) s)

/-- FW_SWAP (R525). -/
def execFwSwap (slot : Nat) (s : State) : Host.Outcome State Fault Refusal := .next (service slot 3 0 false (fwSwap slot) s)

/-- FW_HOTFIX (R527). -/
def execFwHotfix (slot : Nat) (stream : List Byte) (s : State) : Host.Outcome State Fault Refusal :=
  .next (service slot 4 2 false (fwHotfixSvc slot stream) s)

/-- PATCH_SET (R293). -/
def execPatchSet (slot : Nat) (s : State) : Host.Outcome State Fault Refusal :=
  .next (service slot 5 9 (decide (1 < s.reqArg1 slot)) (patchSet slot) s)

/-- LOG_READ (R527). -/
def execLogRead (slot : Nat) (s : State) : Host.Outcome State Fault Refusal := .next (service slot 6 2 false (logRead slot) s)

/-- INFO (R527). -/
def execInfo (slot : Nat) (s : State) : Host.Outcome State Fault Refusal := .next (service slot 7 0 false (svcInfo slot) s)

/-- RESTORE (R599). -/
def execRestore (slot : Nat) (crcOk writeOk : Bool) (host : Option Ckpt) (s : State) : Host.Outcome State Fault Refusal :=
  .next (service slot 8 2 false (restore slot crcOk writeOk host) s)

/-- ATTEST (R548). -/
def execAttest (slot : Nat) (nonce : List Byte) (s : State) : Host.Outcome State Fault Refusal :=
  .next (service slot 9 6 (decide (s.reqLen slot < 384) || s.reqLen2 slot != 32) (attest slot nonce) s)

/-- BOOT_TIMEOUT (R321). -/
def execBootTimeout (s : State) : Host.Outcome State Fault Refusal := .next (bootTimeout s)

/-- BOOT_OK (R321). -/
def execBootOk (s : State) : Host.Outcome State Fault Refusal := .next (bootConfirm s)

/-- PATCH_HOLD_END (R194): a PATCH_SET that waited for it is answered (R293). -/
def execPatchHoldEnd (s : State) : Host.Outcome State Fault Refusal :=
  .next (if s.sch.patch == some .hold then patchSetEnd (patchHoldEnd s) else s)

end Sys2Proof.Machine
end

