-- ==== Sys2Proof/Machine/Faults.lean ====
section
/-! DEFINITION. Faults.lean: the sparing policy of the control-pair firmware and its records (R595, R596). -/
namespace Sys2Proof.Machine

/-- A sparing action of a TYPE on a unit runs no longer (R596). -/
def State.actOver (s : State) (ty unit : Nat) : Bool :=
  match ty with
  | 1 => (s.clause unit).mig.isNone
  | 2 => s.sch.rmap.isNone
  | 4 => s.umem.lretReq.isNone
  | 5 => s.umem.hretReq.isNone
  | 6 => (s.link unit).sparing.isNone
  | _ => true

/-- The RESULT of an action that has ended. -/
def State.actResult (s : State) (ty unit : Nat) : Nat :=
  match ty with
  | 1 => s.fget (F.CLS_SPARE_RESULT unit)
  | 2 => s.fget F.SCH_RMAP_RESULT
  | 3 => s.fget F.FAB_AGREE_RESULT
  | 4 => s.fget F.MEM_LRET_RESULT
  | 5 => s.fget F.MEM_HRET_RESULT
  | _ => s.fget (F.LNK_SPARE_RESULT unit)

/-- The records of the actions that have ended are written (R596). -/
def actsLog (s : State) : State :=
  if !s.firmware then s
  else
    let ended := s.mgt.acts.filter fun a => s.actOver a.1 a.2.1
    let s1 : State := { s with mgt := { s.mgt with acts := s.mgt.acts.filter fun (a : Nat × Nat × Nat) => !s.actOver a.1 a.2.1 } }
    ended.foldl (fun t a => logWrite a.1 (s.actResult a.1 a.2.1) a.2.1 a.2.2 t.seq.step 0 t) s1

/-- TYPE, UNIT and ITEM of the record of an action (R596). -/
def actOf : SparingTrigger → Nat × Nat × Nat
  | .phrase c p => (1, c, p)
  | .row c r => (2, c, r)
  | .lane k l => (3, k, l)
  | .lexWord b w => (4, b, w)
  | .hbmPage k p => (5, k, p)
  | .linkLane l n => (6, l, n)

/-- The unit of a trigger has no action of its kind running, and the operation can be started (R595). -/
def State.actFree (s : State) : SparingTrigger → Bool
  | .lane _ _ => s.fab.agree.isNone
  | t => s.actOver (actOf t).1 (actOf t).2.1

/-- The spare map of a connection is committed under a tag that the manual does not give (log 4): one that replaces the
lane, on both sides (R162). -/
def spareMap (k lane : Nat) (s : State) : State :=
  let s1 := ((((s.fset F.FAB_SPSEL_CONN k).fset F.FAB_SPTX_EN 1).fset F.FAB_SPTX_LANE lane).fset F.FAB_SPRX_EN 1).fset
    F.FAB_SPRX_LANE lane
  let r := s1.freshNat
  fabAgree (r.1 % 256) r.2

/-- The action of a trigger is started (R595). -/
def actStart (t : SparingTrigger) (s : State) : State :=
  match t with
  | .phrase c p => spareGo c p s
  | .row c r => rmapGo c r s
  | .lane k l => spareMap k l s
  | .lexWord b w => lretGo b w s
  | .hbmPage k p => hretGo k (s.fset F.MEM_HRETPG_PAGE p)
  | .linkLane l n => lnkSpareGo l n s

/-- The firmware acts on a trigger that has occurred (R595, R596). A spare map's commit is decided as its tag is written:
what waits is only the step. -/
def sparingDecision (t : SparingTrigger) (s : State) : State :=
  if !s.firmware || !s.mgt.seen.contains t || !s.actFree t then actsLog s
  else
    let s1 := actStart t { s with mgt := { s.mgt with seen := s.mgt.seen.filter fun x => x != t } }
    let a := actOf t
    if a.1 = 3 then
      let res := if s1.fab.agree.isSome then 0 else s1.fget F.FAB_AGREE_RESULT
      logWrite 3 res a.2.1 a.2.2 s1.seq.step 0 (actsLog s1)
    else actsLog { s1 with mgt := { s1.mgt with acts := s1.mgt.acts ++ [a] } }

/-- The life record of 24 h (R596, R602). Its RESULT, UNIT and ITEM are free values (log 4). -/
def lifeRecord (hours avg : Nat) (s : State) : State :=
  if !s.firmware then s
  else
    let f := s.fresh
    logWrite 9 (fieldOf f.1 0 8) (fieldOf f.1 8 16) (fieldOf f.1 24 32) hours avg f.2

/-! ### The commands -/

/-- SPARING_DECISION (R595). -/
def execSparingDecision (t : SparingTrigger) (s : State) : Host.Outcome State Fault Refusal := .next (sparingDecision t s)

/-- LIFE_RECORD (R596). -/
def execLifeRecord (hours avg : DWord) (s : State) : Host.Outcome State Fault Refusal :=
  .next (lifeRecord hours.toNat avg.toNat s)

/-- MIGRATION_COMPLETE (R135), with the firmware's record (R596); a PATCH_SET whose application waited for the migration and
applied at once is answered (R193, R293). -/
def execMigrationComplete (c mismatches cycles : Nat) (s : State) : Host.Outcome State Fault Refusal :=
  .next (actsLog (if s.sch.patch.isSome then patchAnswer (migrationEnd c mismatches cycles s) else migrationEnd c mismatches cycles s))

/-- RMAP_COMPLETE (R189), with the firmware's record (R596). -/
def execRmapComplete (mismatches : Nat) (s : State) : Host.Outcome State Fault Refusal := .next (actsLog (rmapEnd mismatches s))

/-- LRET_COMPLETE (R227), with the firmware's record (R596). -/
def execLretComplete (mismatches : Nat) (s : State) : Host.Outcome State Fault Refusal := .next (actsLog (lretEnd mismatches s))

/-- HRET_COMPLETE (R227), with the firmware's record (R596). -/
def execHretComplete (mismatches : Nat) (s : State) : Host.Outcome State Fault Refusal := .next (actsLog (hretEnd mismatches s))

/-- LANE_SPARE_COMPLETE (R263), with the firmware's record (R596). -/
def execLaneSpareComplete (l : Nat) (accepted : Bool) (s : State) : Host.Outcome State Fault Refusal :=
  .next (actsLog (sparingEnd l accepted s))

end Sys2Proof.Machine
end

