-- ==== Sys2Proof/Machine/Noc.lean ====
section
/-! DEFINITION. Noc.lean: the packet network: routers, virtual channels and urgency, route tables and epochs, mode agreement,
rim master ports (R451 to R480). -/
namespace Sys2Proof.Machine

/-! ### Topology (R451 to R453) -/

/-- The clause at which perimeter router r stands (R452). -/
def perimClause (r : Nat) : Nat := [2, 5, 1, 6, 15, 31, 23, 39, 62, 57, 58, 61, 48, 32, 40, 24].getD (r - 64) 0

/-- The perimeter router of a clause, if any (R452). -/
def perimOf (c : Nat) : Option Nat := ((List.range 16).map fun i => 64 + i).find? fun r => perimClause r == c

/-- The router and the input port that a port of router r leads to (R451): 0 N, 1 E, 2 S, 3 W, 5 PER; none for LOC and for a
port that the router does not have. -/
def rtNext (r port : Nat) : Option (Nat × Nat) :=
  if 64 ≤ r then (if port = 5 then some (perimClause r, 5) else none)
  else
    match port with
    | 0 => if 8 ≤ r then some (r - 8, 2) else none
    | 1 => if r % 8 < 7 then some (r + 1, 3) else none
    | 2 => if r < 56 then some (r + 8, 0) else none
    | 3 => if 0 < r % 8 then some (r - 1, 1) else none
    | 5 => (perimOf r).map fun p => (p, 5)
    | _ => none

/-- The router that serves an address of the register range (R452, R608); none outside every block span and the aliases. -/
def regRouter (a : Nat) : Option Nat :=
  let block := fun b : Nat => [65, 67, 66, 64, 79, 73, 73].getD b 0
  if a < 0x700000 then some (block (a / 0x100000))
  else if a < 0x800000 then none
  else if a < 0xD00000 then
    (if 0x810000 ≤ a ∧ a < 0xC10000 then some ((a - 0x810000) / 0x10000) else some 78)
  else if a < 0xF00000 then some 78
  else if a < 0x1000000 then some 79
  else if a < 0x1100000 then some 70
  else if a < 0x1200000 then some 72
  else if a < 0x1300000 then some 67
  else if a < 0x2000000 then none
  else if a < 0x21C0000 then
    let i := (a - 0x2000000) / 0x20000
    some ([65, 67, 66, 64, 79, 73, 73, 78, 78, 78, 79, 70, 72, 67].getD i 0)
  else none

/-- The router of a NoC address (R453); none where no endpoint lies there. -/
def destOf (a : Nat) : Option Nat :=
  if isRegs a then regRouter a
  else if isLex a then some (lexBank a / 4)
  else if isHbm a then some ([68, 69, 76, 77].getD (hbmStack a) 0)
  else if isCtlSram a || isRom a || isFlash a then some 66
  else if isSecSram a then some 67
  else if isHost a then some 64
  else none

/-! ### Route tables (R466, R467) -/

/-- An entry of a bank of a router. -/
def State.route (s : State) (bank r d : Nat) : Nat := kvGet (rtDefault r d) s.noc.routes (7680 * bank + 96 * r + d)

/-- The epoch stamped on new packets, which is the number of their bank. -/
def State.epoch (s : State) : Nat := s.fget F.NOC_STAT_EPOCH

/-- 32 entries of the inactive bank of the selected router are written (R467, R479). -/
def rtWrite (k : Nat) (v : QWord) (s : State) : State :=
  let r := s.fget F.NOC_RTSEL_ROUTER
  let b := 1 - s.epoch
  { s with noc := { s.noc with
    routes := (List.range 32).foldl (fun m i =>
      kvSet (rtDefault r (32 * k + i)) m (7680 * b + 96 * r + 32 * k + i) (fieldOf v (4 * i) 4)) s.noc.routes } }

/-- 32 entries of a bank of the selected router (R479). -/
def State.rtRead (s : State) (bank k : Nat) : Nat :=
  (List.range 32).foldl (fun a i => a + s.route bank (s.fget F.NOC_RTSEL_ROUTER) (32 * k + i) * 16 ^ i) 0

/-- The entries of a bank lead from router r to destination d within n hops (R466). -/
def State.reaches (s : State) (bank d : Nat) : Nat → Nat → Bool
  | n, r =>
    let e := s.route bank r d
    if e = 4 then r == d
    else
      match n, rtNext r e with
      | m + 1, some (q, _) => s.reaches bank d m q
      | _, _ => false

/-- The first router and destination whose entry breaks R466 in a bank. -/
def State.routeFault (s : State) (bank : Nat) : Option (Nat × Nat) :=
  (List.range 80).findSome? fun r => ((List.range 96).find? fun d =>
    if 80 ≤ d then s.route bank r d != 15 else !s.reaches bank d 80 r).map fun d => (r, d)

/-- Packets of the old epoch in routers and on links (R467). -/
def State.oldCount (s : State) : Nat :=
  if s.fbit F.NOC_STAT_OLDBUSY then
    (s.noc.wait ++ s.noc.rx).foldl (fun n e => n + (e.2.filter fun f => f.pkt.epoch != (s.epoch == 1)).length) 0
  else 0

/-- New-epoch packets are held (R467, R472). -/
def State.drainHold (s : State) : Bool := s.fbit F.NOC_STAT_OLDBUSY && s.fbit F.NOC_RT_DRAIN

/-- NOC_RT.FLIP is written 1 (R467, R476, R480). The payload words that an outcome leaves without meaning are free values
(log 4). -/
def rtFlip (s : State) : State :=
  if s.fbit F.NOC_STAT_OLDBUSY then s.fset F.NOC_RT_RESULT 2
  else
    match s.routeFault (1 - s.epoch) with
    | some (r, d) =>
      let f := s.freshNat
      (f.2.fset F.NOC_RT_RESULT 1).raise F.NOC_EVT_RT 4 6 [1, r, d, f.1 % 2]
    | none => ((s.fset F.NOC_STAT_EPOCH (1 - s.epoch)).fset F.NOC_STAT_OLDBUSY 1).fset F.NOC_RT_FLIP 1

/-! ### Packets (R454 to R458) -/

/-- Flits of a packet: the header and the data flits (R454, R455). -/
def packetFlits (p : Packet) : Nat := if p.payload.length ≤ 8 then 1 else 1 + (p.payload.length + 31) / 32

/-- The virtual channel of an OP (R456). -/
def opChannel (op : Nat) : Nat :=
  match op with
  | 1 | 2 => 0
  | 3 | 4 => 1
  | 5 => 2
  | 6 => 5
  | 7 | 8 => 3
  | 9 => 4
  | _ => 0

/-- The class of an OP; none for a reserved OP (R456). -/
def opClass (op : Nat) : Option Nat :=
  match op with
  | 1 | 2 => some 0
  | 3 | 4 => some 1
  | 5 | 6 => some 2
  | 7 | 8 | 9 => some 3
  | _ => none

/-- The urgency of a packet (R458). -/
def State.urgency (s : State) (p : Packet) : Nat :=
  if 63 ≤ p.age then 127 else 16 * nbits (s.fget F.NOC_MODEA_PRIO) (2 * p.cls) 2 + p.age

/-- Packets that wait at the inputs of router r, and those delivered to its endpoints. -/
def State.waitq (s : State) (r : Nat) : List Flight := kvGet [] s.noc.wait r
def State.rxq (s : State) (r : Nat) : List Flight := kvGet [] s.noc.rx r

/-- The state with those lists replaced. -/
def State.setWaitq (s : State) (r : Nat) (l : List Flight) : State := { s with noc := { s.noc with wait := kvSet [] s.noc.wait r l } }
def State.setRxq (s : State) (r : Nat) (l : List Flight) : State := { s with noc := { s.noc with rx := kvSet [] s.noc.rx r l } }

/-- Flits of an input and channel in a list. -/
def flitsIn (l : List Flight) (port vc : Nat) : Nat :=
  ((l.filter fun f => f.port == port && opChannel f.pkt.op == vc).map fun f => packetFlits f.pkt).sum

/-- A router input has room for a whole packet (R457). -/
def State.room (s : State) (r port : Nat) (p : Packet) : Bool :=
  decide (flitsIn (s.waitq r) port (opChannel p.op) + packetFlits p ≤ 18)

/-- The bridges of a router's endpoints have room for a whole packet on its channel (R465). -/
def State.rxRoom (s : State) (r : Nat) (p : Packet) : Bool :=
  decide (((((s.rxq r).filter fun f => opChannel f.pkt.op == opChannel p.op).map fun f => packetFlits f.pkt)).sum + packetFlits p ≤ 16)

/-- An endpoint of router r can send a packet: its input has room and new-epoch packets are not held (R457, R467). -/
def State.canSend (s : State) (r : Nat) (p : Packet) : Bool := s.room r 4 p && !s.drainHold

/-- A packet as an endpoint sends it: the present epoch and protection (R460, R468, R469). -/
def State.stamp (s : State) (p : Packet) : Packet :=
  { p with age := 0, epoch := s.epoch == 1, e2e := nbit (s.fget F.NOC_MODEA_PROT) p.cls, crcOk := true }

/-- An endpoint of router r sends a packet. -/
def send (r : Nat) (p : Packet) (s : State) : State := s.setWaitq r (s.waitq r ++ [⟨s.stamp p, 4⟩])

/-- The response to a request received at router r (R454, R456). -/
def response (r : Nat) (p : Packet) (status : Nat) (bs : List Byte) : Packet :=
  let op := if p.op = 1 then 3 else if p.op = 2 then 4 else 9
  { p with
    dst := p.src, src := r, cls := if op = 9 then 3 else 1, op := op, status := status, payload := bs, poison := false
    size := if bs.isEmpty then 1 else bs.length }

/-! ### Rim master ports (R463, R464, R471) -/

/-- The router of a rim port. -/
def rimRouter (p : Nat) : Nat := [70, 71, 74, 75].getD p 0

/-- The rim port of a router. -/
def rimPort (r : Nat) : Option Nat := [0, 1, 2, 3].find? fun p => rimRouter p == r

/-- The tree of a rim port runs (R471, R477). -/
def State.portRuns (s : State) (p : Nat) : Bool := s.treeRuns (nbits (s.fget F.NOC_RIMP_TREE) (3 * p) 3)

/-- A response reaches rim logic, or waits for the port's tree (R471). -/
def rimAnswer (x : RimRsp) (s : State) : State :=
  if s.portRuns x.port then s.emit (.rimResponse x.port x.tag x.status x.data)
  else { s with noc := { s.noc with rsps := s.noc.rsps ++ [x] } }

/-- Transactions that a rim port holds, its buffered responses among them (R471). -/
def State.portLoad (s : State) (p : Nat) : Nat :=
  (s.noc.txns.filter fun t => t.port == p).length + (s.noc.rsps.filter fun x => x.port == p).length

/-- The request packet of a rim port (R454, R471). -/
def rimPacket (x : RimReq) (dst tid : Nat) : Packet :=
  { addr := x.addr, dst := dst, src := rimRouter x.port, sep := 0, tid := tid, cls := 0, age := 0, epoch := false, e2e := false
    op := if x.write then 2 else 1, status := 0, size := x.size, payload := if x.write then x.data.take x.size else []
    poison := false, crcOk := true }

/-- A rim port issues a request, or completes it at once with DECERR (R453, R463); none while it must wait. -/
def rimIssue (x : RimReq) (s : State) : Option State :=
  if !s.portRuns x.port then none
  else
    match destOf x.addr with
    | none => some (rimAnswer ⟨x.port, x.tag, 1, []⟩ s)
    | some d =>
      let tid := kvGet 0 s.noc.tid x.port
      let p := rimPacket x d tid
      if 48 ≤ s.portLoad x.port || nbit s.noc.modeWait 5 || !s.canSend (rimRouter x.port) p then none
      else
        let s1 := send (rimRouter x.port) p s
        let s2 : State := { s1 with noc := { s1.noc with
          txns := s1.noc.txns ++ [⟨x.port, tid, x.tag, x.addr⟩], tid := kvSet 0 s1.noc.tid x.port ((tid + 1) % 4096) } }
        some { s2 with noc := { s2.noc with
          peak := kvMod 0 s2.noc.peak 5 fun k => max k s2.noc.txns.length } }

/-- The waiting requests of the rim ports that can issue do so, in order per port. -/
def rimIssueAll : List RimReq → List Nat → List RimReq → State → State
  | [], _, held, s => { s with noc := { s.noc with reqs := held } }
  | x :: t, blocked, held, s =>
    if blocked.contains x.port then rimIssueAll t blocked (held ++ [x]) s
    else
      match rimIssue x s with
      | some s1 => rimIssueAll t blocked held s1
      | none => rimIssueAll t (x.port :: blocked) (held ++ [x]) s

/-- What waited in the rim ports goes on: buffered responses, then requests. -/
def nocPump (s : State) : State :=
  let rs := s.noc.rsps
  let s1 := rs.foldl (fun s x => rimAnswer x s) { s with noc := { s.noc with rsps := [] } }
  rimIssueAll s1.noc.reqs [] [] s1

/-- RIM_PORT_REQUEST (R471). -/
def rimRequest (x : RimReq) (s : State) : State := nocPump { s with noc := { s.noc with reqs := s.noc.reqs ++ [x] } }

/-- A transaction of a rim port completes with a STATUS. -/
def txnDone (t : Txn) (status : Nat) (bs : List Byte) (s : State) : State :=
  nocPump (rimAnswer ⟨t.port, t.tag, status, bs⟩ { s with noc := { s.noc with txns := s.noc.txns.erase t } })

/-- The transaction with index k has had no response in time (R461, R480). -/
def nocTimeout (k : Nat) (s : State) : State :=
  match s.noc.txns[k]? with
  | none => s
  | some t =>
    txnDone t 5 [] (({ s.count F.NOC_CNT_TMO_COUNT with noc := { s.noc with tmo := kvMod 0 s.noc.tmo 5 (· + 1) } }).raise
      F.NOC_EVT_TIMEOUT 4 4 ([5, t.tid] ++ w64 t.addr))

/-! ### Forwarding (R457 to R459) -/

/-- A hop has corrected a single-bit error (R459, R478). -/
def hopFixed (r port : Nat) (s : State) : State :=
  let s1 := s.count F.NOC_CNT_CE_COUNT
  let n := s1.fget F.NOC_CNT_CE_COUNT
  if isPow2 n then s1.raise F.NOC_EVT_CE 4 1 [r, port, n] else s1

/-- A hop meets an uncorrectable error: what 0 header, 1 data (R459). -/
def hopUe (r port vc what : Nat) (s : State) : State :=
  (s.count F.NOC_CNT_UE_COUNT).raise F.NOC_EVT_UE 4 2 [r, port, vc, what]

/-- The packets at the heads of the inputs and channels of a router, with their places. -/
def heads : List Flight → List (Nat × Nat) → List Flight
  | [], _ => []
  | f :: t, seen =>
    let k := (f.port, opChannel f.pkt.op)
    if seen.contains k then heads t seen else f :: heads t (k :: seen)

/-- The place of a flight in the round-robin order of its output: input and channel (R458). -/
def Flight.slot (f : Flight) : Nat := 8 * f.port + opChannel f.pkt.op

/-- The packet that an output forwards: the most urgent of those with credit, ties round-robin (R457, R458). -/
def State.chosen (s : State) (r port : Nat) : Option Flight :=
  let ok := (heads (s.waitq r) []).filter fun f =>
    s.route f.pkt.epoch.toNat r f.pkt.dst == port &&
      (if port = 4 then s.rxRoom r f.pkt else match rtNext r port with | some (q, i) => s.room q i f.pkt | none => false)
  let best := (ok.map fun f => s.urgency f.pkt).foldl max 0
  let rr := kvGet 0 s.noc.rr (8 * r + port)
  let order := fun f : Flight => (f.slot + 64 - rr) % 64
  (ok.filter fun f => s.urgency f.pkt == best).foldl (fun m f =>
    match m with
    | none => some f
    | some g => if order f < order g then some f else some g) none

/-- A router forwards a packet through an output, after the check of its flits at the input (R457 to R460). -/
def nocForward (r port : Nat) (err : HopError) (s : State) : State :=
  match s.chosen r port with
  | none => s
  | some f =>
    let s1 := s.setWaitq r ((s.waitq r).erase f)
    let s2 : State := { s1 with noc := { s1.noc with rr := kvSet 0 s1.noc.rr (8 * r + port) ((f.slot + 1) % 64) } }
    let vc := opChannel f.pkt.op
    let go := fun (p : Packet) (s : State) =>
      if port = 4 then s.setRxq r (s.rxq r ++ [⟨p, 4⟩])
      else match rtNext r port with | some (q, i) => s.setWaitq q (s.waitq q ++ [⟨p, i⟩]) | none => s
    if f.pkt.e2e then go { f.pkt with crcOk := f.pkt.crcOk && err == .none } s2
    else
      match err with
      | .none => go f.pkt s2
      | .corrected => go f.pkt (hopFixed r f.port s2)
      | .data =>
        if 1 < packetFlits f.pkt then go { f.pkt with poison := true } (hopUe r f.port vc 1 s2) else hopUe r f.port vc 0 s2
      | .header => hopUe r f.port vc 0 s2

/-- TICK NOC cycles have passed: what waits at the router's inputs ages (R458). -/
def nocAge (r : Nat) (s : State) : State :=
  s.setWaitq r ((s.waitq r).map fun f => { f with pkt := { f.pkt with age := min 63 (f.pkt.age + 1) } })

/-- No packet of the old epoch is left: the old banks retire (R467). -/
def oldDrained (s : State) : State :=
  if !s.fbit F.NOC_STAT_OLDBUSY || s.oldCount != 0 then s
  else
    let f := s.freshNat
    let g := f.2.freshNat
    nocPump ((((g.2.fset F.NOC_STAT_OLDBUSY 0).fset F.NOC_RT_FLIP 0).fset F.NOC_RT_RESULT 0).raise F.NOC_EVT_RT 4 6
      [0, f.1 % 128, g.1 % 128, s.epoch])

/-! ### Mode agreement (R464, R469, R613) -/

/-- Requests of row k of R463 in flight between commands: HIF, the rim ports and DBG; the other requesters have none. -/
def State.inFlight (s : State) (k : Nat) : Nat :=
  match k with
  | 0 => (s.umem.nocq.filter fun x => match x.reply with | .bar2 _ => true | _ => false).length
  | 5 => s.noc.txns.length
  | 7 => (s.umem.nocq.filter fun x => match x.reply with | .debug _ => true | _ => false).length
  | _ => 0

/-- The rule that the shadows break (R469). -/
def State.modeFault (s : State) : Option Nat :=
  if s.fget F.NOC_TIME_TICK = 0 then some 1
  else if s.fget F.NOC_TIME_TMO < 4 * s.fget F.NOC_TIME_TICK then some 2
  else if s.fget F.NOC_MODE_DLMODE ≠ s.fget F.NOC_MODEA_DLMODE ∧ s.fbit F.NOC_STAT_OLDBUSY then some 3
  else none

/-- A tag written to BLK_AGREE of NOC (R464, R469, R474, R613). The requesters with transactions in flight wait for a change of
DLMODE. -/
def nocAgree (tag : Nat) (s : State) : State :=
  if s.noc.modeWait ≠ 0 then s.fset F.NOC_AGREE_RESULT 4
  else
    let s1 := s.fset F.NOC_AGREE_TAG tag
    match s.modeFault with
    | some r => (s1.fset F.NOC_AGREE_RESULT r).raise F.NOC_EVT_AGREE 4 7 [tag, r]
    | none =>
      let wait := if s.fget F.NOC_MODE_DLMODE = s.fget F.NOC_MODEA_DLMODE then 0 else maskOf 8 fun k => s.inFlight k != 0
      let s2 := ((((s1.fset F.NOC_MODEA_DLMODE (s.fget F.NOC_MODE_DLMODE)).fset F.NOC_MODEA_PROT
        (s.fget F.NOC_MODE_PROT)).fset F.NOC_MODEA_PRIO (s.fget F.NOC_MODE_PRIO)).fset F.NOC_TIMEA_TMO
        (s.fget F.NOC_TIME_TMO)).fset F.NOC_TIMEA_TICK (s.fget F.NOC_TIME_TICK)
      let s3 : State := { s2 with noc := { s2.noc with modeWait := wait } }
      ((s3.fsetb F.NOC_STAT_MODE_WAIT (wait != 0)).fset F.NOC_AGREE_RESULT 0).raise F.NOC_EVT_AGREE 4 7 [tag, 0]

/-- The transactions that a requester issued under the old mode have completed (R464). -/
def dlSwitch (row : Nat) (s : State) : State :=
  if nbit s.noc.modeWait row && s.inFlight row == 0 then
    let s1 : State := { s with noc := { s.noc with modeWait := putBit s.noc.modeWait row false } }
    nocPump (s1.fsetb F.NOC_STAT_MODE_WAIT (s1.noc.modeWait != 0))
  else s

/-! ### The commands -/

/-- RIM_PORT_REQUEST (R471). -/
def execRimPortRequest (port : Nat) (write : Bool) (addr size tag : Nat) (data : List Byte) (s : State) :
    Host.Outcome State Fault Refusal := .next (rimRequest ⟨port, write, addr, size, tag, data⟩ s)

/-- RIM_PLL_RELOCK: the trees it feeds run again, and what waited in the rim ports for them goes on (R335, R471). -/
def execRimPllRelock (p : Nat) (s : State) : Host.Outcome State Fault Refusal := .next (nocPump (pllLock p true s))

/-- NOC_PACKET_FORWARD (R457). -/
def execNocPacketForward (router port : Nat) (err : HopError) (s : State) : Host.Outcome State Fault Refusal :=
  .next (nocPump (nocForward router port err s))

/-- AGE_INCREMENT (R458). -/
def execAgeIncrement (router : Nat) (s : State) : Host.Outcome State Fault Refusal := .next (nocAge router s)

/-- NOC_TIMEOUT (R461). -/
def execNocTimeout (k : Nat) (s : State) : Host.Outcome State Fault Refusal := .next (nocTimeout k s)

/-- NOC_RT_FLIP (R467). -/
def execNocRtFlip (s : State) : Host.Outcome State Fault Refusal := .next (rtFlip s)

/-- OLD_EPOCH_DRAINED (R467). -/
def execOldEpochDrained (s : State) : Host.Outcome State Fault Refusal := .next (oldDrained s)

/-- NOC_AGREE_COMMIT (R469). -/
def execNocAgreeCommit (tag : Byte) (s : State) : Host.Outcome State Fault Refusal := .next (nocAgree tag.toNat s)

/-- DLMODE_SWITCH (R464). -/
def execDlmodeSwitch (row : Nat) (s : State) : Host.Outcome State Fault Refusal := .next (dlSwitch row s)

end Sys2Proof.Machine
end

