-- ==== Sys2Proof/Machine/RegView.lean ====
section
/-! DEFINITION. RegView.lean: what a register reads: the fields that the register file holds, and the read-only fields that show
state which has a home of its own (R54 to R57, R140 to R144, R168 to R173, R265, R267, R356, R358, R381, R382, R408, R414, R440 to
R448, R472, R476, R504 to R509, R551, R611). -/
namespace Sys2Proof.Machine

/-! ### Pages (R608, R611) -/

/-- The clause whose page holds the offset. -/
def pageClause (a : Nat) : Option Nat := if 0x810000 ≤ a ∧ a < 0xC10000 then some ((a - 0x810000) / 0x10000) else none

/-- The link whose page holds the offset; link pages lie at a pitch of 16 KiB. -/
def pageLink (a : Nat) : Option Nat := if 0xE10000 ≤ a ∧ a < 0xE90000 then some ((a - 0xE10000) / 0x4000) else none

/-- The base of the page that holds the offset: control page, clause page or link page. -/
def pageBase (a : Nat) : Nat :=
  match pageClause a with
  | some c => 0x810000 + 0x10000 * c
  | none =>
    match pageLink a with
    | some l => 0xE10000 + 0x4000 * l
    | none => if 0x800000 ≤ a ∧ a < 0xD00000 then 0x800000 else a - a % 0x100000

/-- INST of BLK_ID (R611). -/
def pageInst (a : Nat) : Nat := (pageClause a).getD ((pageLink a).getD 0xFF)

/-- The switched domain across whose bridge the registers of a page are reached (R465, R574): clause pages and CAP. A page of a
gated domain answers OFF (R575). -/
def pageDomain (a : Nat) : Option Nat :=
  match pageClause a with
  | some c => some (17 + c / 8)
  | none => if blockOf a = some 12 then some 29 else none

/-- The 64 clauses, or the 32 links, of a mask register: bits k to k + 31. -/
def maskFrom (k : Nat) (p : Nat → Bool) : Nat := maskOf 32 fun i => p (k + i)

/-! ### Fields by block -/

/-- Codes of SEQ_STAT.STATE (R55). -/
def seqCode : SeqState → Nat
  | .idle => 0
  | .ready => 1
  | .running => 2
  | .ellipsis => 3
  | .stopped => 4
  | .dbgHold => 5

/-- SEQ (R55, R57). -/
def State.viewSeq (s : State) (o lo : Nat) : Option Nat :=
  if o = 0x08 then
    (match lo with
     | 11 => some s.seq.ckpt.isSome.toNat
     | 10 => some s.seq.fence.isSome.toNat
     | 4 => some (s.seq.depth / 64)
     | 3 => some s.seq.twostate.toNat
     | 0 => some (seqCode s.seq.st)
     | _ => none)
  else if o = 0x2C ∧ lo = 0 then
    some (if s.seq.st == .ellipsis || s.seq.st == .dbgHold then s.causeBits.toNat else 0)
  else none

/-- Any bit of a clause's CLS_EVT is set (R140). -/
def State.clauseEvt (s : State) (c : Nat) : Bool := (List.range 7).any fun k => s.fget ⟨0x81000C + 0x10000 * c, k, 1, 0⟩ != 0

/-- The global page of CLS (R140). -/
def State.viewClsGlobal (s : State) (o : Nat) : Option Nat :=
  match o with
  | 0x20 => some (maskFrom 0 fun c => (s.clause c).loaded)
  | 0x24 => some (maskFrom 32 fun c => (s.clause c).loaded)
  | 0x28 => some (maskFrom 0 fun c => (s.clause c).passed)
  | 0x2C => some (maskFrom 32 fun c => (s.clause c).passed)
  | 0x30 => some (maskFrom 0 s.clauseEvt)
  | 0x34 => some (maskFrom 32 s.clauseEvt)
  | _ => none

/-- A clause page (R141, R144). -/
def State.viewClause (s : State) (c o lo : Nat) : Option Nat :=
  let x := s.clause c
  match o, lo with
  | 0x08, 4 => some (perimeter c).toNat
  | 0x08, 3 => some x.mig.isSome.toNat
  | 0x08, 1 => some x.passed.toNat
  | 0x08, 0 => some x.loaded.toNat
  | 0x24, 7 => some x.spared.toNat
  | 0x24, 0 => some (if x.spared then x.retired else 0x7F)
  | _, _ => none

/-- FAB (R168, R172). -/
def State.viewFab (s : State) (o lo : Nat) : Option Nat :=
  match o, lo with
  | 0x08, 1 => some s.fab.agree.isSome.toNat
  | 0x08, 0 => some s.fab.iso.isSome.toNat
  | 0x24, _ => some (maskFrom 0 fun c => (s.clause c).iso)
  | 0x28, _ => some (maskFrom 32 fun c => (s.clause c).iso)
  | 0x2C, _ => some (maskFrom 0 fun c => (s.clause c).iso && (s.clause c).xinj)
  | 0x30, _ => some (maskFrom 32 fun c => (s.clause c).iso && (s.clause c).xinj)
  | _, _ => none

/-- Codes of LNK_STAT.STATE (R267). -/
def lnkCode : LnkState → Nat
  | .off => 0
  | .train => 1
  | .align => 2
  | .ident => 3
  | .up => 4
  | .active => 5
  | .resume => 6
  | .fail => 7

/-- The global page of LNK (R265). -/
def State.viewLnkGlobal (s : State) (o : Nat) : Option Nat :=
  match o with
  | 0x20 => some (maskFrom 0 fun l => (s.link l).st == .up || (s.link l).st == .active)
  | 0x24 => some (maskFrom 0 fun l => (s.link l).st == .active)
  | _ => none

/-- A link page (R267). -/
def State.viewLink (s : State) (l o lo : Nat) : Option Nat :=
  if o = 0x08 ∧ lo = 0 then some (lnkCode (s.link l).st) else none

/-- Codes of RIM_IOSTAT.STATE (R382). -/
def bankCode : BankState → Nat
  | .off => 0
  | .unrel => 1
  | .check => 2
  | .released => 3
  | .fault => 4

/-- RIM (R356, R358, R382). -/
def State.viewRim (s : State) (o lo : Nat) : Option Nat :=
  if 0x120 ≤ o ∧ o < 0x140 then
    let b := s.bank ((o - 0x120) / 4)
    (match lo with
     | 16 => some (bankCode b.st)
     | 14 => some b.key
     | 12 => some b.strap
     | 0 => some b.vccmv
     | _ => none)
  else
    match o, lo with
    | 0x08, 16 => some (maskOf 8 s.treeRuns)
    | 0x08, 8 => some (maskOf 4 s.pllLocked)
    | 0x08, 0 => some s.rim.base.toNat
    | 0x28, 16 => some (maskOf 16 s.outEn)
    | 0x28, 0 => some (maskOf 16 s.inEn)
    | 0x2C, 28 => some s.rimNative
    | 0x2C, 16 => some (nbits s.slFrame 0 3)
    | 0x2C, 0 => some (maskOf 16 s.safe)
    | 0x30, 16 => some (maskOf 16 fun g => !s.outReady g)
    | 0x30, 0 => some (maskOf 16 fun g => !s.inReady g s.seq.step)
    | 0x100, 0 => some (maskOf 8 fun b => (s.bank b).st == .check)
    | 0x44, 16 => some (maskOf 16 s.regionDef)
    | 0x44, 0 => some (maskOf 16 fun r => s.regionSt r != .active)
    | _, _ => none

/-- Codes of CAP_TUSTAT.STATE (R414). -/
def tuCode : TuState → Nat
  | .off => 0
  | .armed => 1
  | .holdoff => 2

/-- CAP (R408, R414). -/
def State.viewCap (s : State) (o lo : Nat) : Option Nat :=
  if o = 0x08 then
    (match lo with
     | 5 => some s.cap.mt.on.toNat
     | 4 => some ((s.seq.st == .ellipsis || s.seq.st == .dbgHold) && s.traceFull).toNat
     | 3 => some s.cap.sig.stopAt.isSome.toNat
     | 2 => some s.cap.sig.on.toNat
     | _ => none)
  else if 0x100 ≤ o ∧ o < 0x300 ∧ o % 0x20 = 0x18 ∧ lo = 0 then some (tuCode (s.unit ((o - 0x100) / 0x20)).st)
  else none

/-- DBG (R441, R443, R446, R447). PRIV is that of the last halt, as the field holds it. -/
def State.viewDbg (s : State) (o lo : Nat) : Option Nat :=
  match o, lo with
  | 0x08, 5 => some s.attached.toNat
  | 0x20, 6 => some s.dbg.tapLevel
  | 0x20, 4 => some s.dbg.hostLevel
  | 0x24, 29 => some (match s.seq.haltAt with | some (_, 0) => 1 | _ => 0)
  | 0x48, _ => some s.forceCount
  | 0x60, 31 => some (s.pair 0).haltReq.isSome.toNat
  | 0x60, 8 => some (s.pair 0).waitM.toNat
  | 0x60, 5 => some (s.pair 0).halted.toNat
  | 0x64, 31 => some (s.pair 1).haltReq.isSome.toNat
  | 0x64, 8 => some (s.pair 1).waitM.toNat
  | 0x64, 5 => some (s.pair 1).halted.toNat
  | _, _ => none

/-- NOC (R472, R476). -/
def State.viewNoc (s : State) (o lo : Nat) : Option Nat :=
  match o, lo with
  | 0x08, 3 => some s.drainHold.toNat
  | 0x48, _ => some s.oldCount
  | _, _ => none

/-- Codes of HIF_DSTAT.STATE (R509). -/
def dmaCode : DmaState → Nat
  | .off => 0
  | .idle => 1
  | .run => 2
  | .error => 3

/-- HIF (R507 to R509). -/
def State.viewHif (s : State) (o lo : Nat) : Option Nat :=
  if 0x100 ≤ o ∧ o < 0x140 then
    let x := s.ring ((o - 0x100) / 0x10)
    (match o % 0x10, lo with
     | 4, 16 => some x.pwrap.toNat
     | 4, 0 => some x.prod
     | 8, 16 => some x.cwrap.toNat
     | 8, 0 => some x.cons
     | _, _ => none)
  else if o = 0x144 then
    (match lo with
     | 16 => some s.hif.held.length
     | 4 => some (maskOf 4 s.ringFull)
     | 0 => some (maskOf 4 fun r => s.ringWaited == some r)
     | _ => none)
  else if 0x200 ≤ o ∧ o < 0x300 ∧ o % 0x10 = 4 then
    let x := s.dmaCh ((o - 0x200) / 0x10)
    (match lo with
     | 24 => some x.err
     | 17 => some (dmaCode x.st)
     | 16 => some x.hwrap.toNat
     | 0 => some x.head
     | _ => none)
  else none

/-- SEC (R551): a request ends within its command, so the two BUSY bits read 0. -/
def State.viewSec (s : State) (o lo : Nat) : Option Nat :=
  match o, lo with
  | 0x08, 16 => some (maskOf 16 fun k => (s.token k).isSome)
  | 0x08, 8 => some s.epochCount
  | 0x08, 4 => some (maskOf 4 s.keyUsable)
  | _, _ => none

/-! ### Registers -/

/-- A field whose value the register file does not hold. -/
def State.viewFld (s : State) (a lo : Nat) : Option Nat :=
  let o := a - pageBase a
  if o = 0 then
    (match lo with
     | 24 => blockOf a
     | 16 => some (pageInst a)
     | _ => some (s.fuseByte 8 % 16))
  else
    match blockOf a with
    | some 1 => s.viewSec o lo
    | some 3 => s.viewHif o lo
    | some 4 => s.viewNoc o lo
    | some 5 => s.viewSeq o lo
    | some 7 => (match pageClause a with
      | some c => s.viewClause c o lo
      | none => s.viewClsGlobal o)
    | some 8 => s.viewFab o lo
    | some 9 => (match pageLink a with
      | some l => s.viewLink l o lo
      | none => s.viewLnkGlobal o)
    | some 11 => s.viewRim o lo
    | some 12 => s.viewCap o lo
    | some 13 => s.viewDbg o lo
    | _ => none

/-- What a field reads (R9): a write-only field 0, a reserved one what the hardware holds. -/
def State.readFld (s : State) (a : Nat) (f : FRow) : Nat :=
  match f.acc with
  | .wo => 0
  | .ro | .w1s =>
    (match s.viewFld a f.lo with
     | some v => v % 2 ^ (f.hi - f.lo + 1)
     | none => s.fget (f.fld a))
  | _ => s.fget (f.fld a)

/-- What a register reads, from its row (R9, R14). -/
def State.readRow (s : State) (a : Nat) (r : RRow) : Nat := (r.fields.map fun f => s.readFld a f * 2 ^ f.lo).sum

/-- The bits of a field of a written word. -/
def FRow.of (f : FRow) (w : Word) : Nat := fieldOf w f.lo (f.hi - f.lo + 1)

/-- A reserved field is written with a value other than it reads (R9, R10). -/
def State.rsvBroken (s : State) (a : Nat) (r : RRow) (w : Word) : Bool :=
  r.fields.any fun f => f.acc == .rsv && f.of w != s.readFld a f

/-- A word changes reserved bits of the register at an offset (R10). -/
def State.rsvChanged (s : State) (a : Nat) (w : Word) : Bool :=
  match findReg a with
  | some r => s.rsvBroken a r w
  | none => false

/-- A command that writes a whole word to the register at an offset: reserved bits other than they read stop the model, since the
behaviour is then undefined (R10). -/
def State.regCmd (s : State) (a : Nat) (w : Word) (f : State → State) : Host.Outcome State Fault Refusal :=
  if s.rsvChanged a w then .fault (.rsvWritten a) else .next (f s)

/-- The effect of a write by the access codes alone (R9): RW fields take their bits, W1C bits written 1 clear. -/
def plainWrite (a : Nat) (r : RRow) (w : Word) (s : State) : State :=
  r.fields.foldl (fun s f =>
    match f.acc with
    | .rw => s.fset (f.fld a) (f.of w)
    | .w1c => s.fset (f.fld a) (nbits (s.fget (f.fld a) - (s.fget (f.fld a) &&& f.of w)) 0 (f.hi - f.lo + 1))
    | _ => s) s

end Sys2Proof.Machine
end

