-- ==== Sys2Proof/Machine/RegItems.lean ====
section
/-! DEFINITION. RegItems.lean: the mailbox items of the register pages: what a read of an item gives and what a write of one does
(R58, R174, R204, R236, R265, R271, R325, R360, R383, R415, R449, R479, R511, R534, R554, R587, R617). -/
namespace Sys2Proof.Machine

/-- A 128-bit item from its four words (R616: the low word in D0). -/
def w4 (a b c d : Nat) : Nat := a % 2 ^ 32 + b % 2 ^ 32 * 2 ^ 32 + c % 2 ^ 32 * 2 ^ 64 + d % 2 ^ 32 * 2 ^ 96

/-- A 128-bit item from its two double words: D0 and D1, D2 and D3. -/
def w2 (a b : Nat) : Nat := a % 2 ^ 64 + b % 2 ^ 64 * 2 ^ 64

/-- The path of a requester (R417): a BAR0 access and the access engine are the host path, DBGACC the TAP path. -/
def pathOf : Requester → Option Path
  | .hif | .dbg .host => some .host
  | .dbg .tap => some .tap
  | _ => none

/-- The level that a requester's path holds; an agent of no path holds none. -/
def State.reqLevel (s : State) (req : Requester) : Nat := ((pathOf req).map s.level).getD 0

/-- A state in which counters and windows may be written (R27, R208). -/
def State.atRest (s : State) : Bool := s.seq.st == .idle || s.seq.st == .ready || s.seq.st == .stopped

/-! ### Reads: the value of an item and the state after; none where the page has no such readable item or refuses -/

/-- Items of SEQ (R58). FENCE without a pending fence, and CKPT_SIZE without an image, are not stated: free values (log 4). -/
def readSeq (i : Nat) (s : State) : Option (Nat × State) :=
  let f := s.fresh
  match i with
  | 0x00 => some (w2 s.seq.step 0, s)
  | 0x01 => some (w2 s.seq.ucyc 0, s)
  | 0x02 => some (w2 s.seq.stopAt 0, s)
  | 0x03 =>
    (match s.seq.fence with
     | some (t, dev) => some (w2 t (dev % 2 ^ 18), s)
     | none => some (w2 (fieldOf f.1 0 64) (fieldOf f.1 64 18), f.2))
  | 0x04 => some (w2 s.seq.ellTotal 0, s)
  | 0x05 => some (w2 s.seq.ckptBase0 0, s)
  | 0x06 => some (w2 s.seq.ckptBase1 0, s)
  | 0x07 => if s.load.img.isSome then some (w2 (128 + Config.ckptLen s.gen) 0, s) else some (w2 (fieldOf f.1 0 64) 0, f.2)
  | 0x08 => some (w2 s.seq.start 0, s)
  | _ =>
    if 0x11 ≤ i ∧ i ≤ 0x1F then some (w2 (kvGet 0 s.seq.causeCnt (i - 0x10)) (kvGet 0 s.seq.causeDur (i - 0x10)), s) else none

/-- Items of SCH (R204, R325). -/
def readSch (i : Nat) (s : State) : Option (Nat × State) :=
  if i < 0x40 then
    let x := s.clause i
    some (w4 x.ce x.ue (s.rowFree i) (x.rowMap.length % 2 ^ 16), s)
  else if i < 0x80 then some ((kvGet 0#128 s.sch.stgW (i - 0x40)).toNat, s)
  else if i < 0xC0 then some ((kvGet 0#128 s.sch.actW (i - 0x80)).toNat, s)
  else if i < 0x100 then some (w4 (kvGet 0 s.sch.actA (i - 0xC0)) 0 0 0, s)
  else
    match i with
    | 0x100 => some (w4 (s.fget F.SCH_SCRUB_INTERVAL) (s.fget F.SCH_ROWHOT_THR) s.sch.dis.toNat 0, s)
    | 0x101 =>
      let d := fun k => s.load.info.getD k 0
      some (w4 (d 0) (d 1) (d 2) (d 3), s)
    | 0x102 =>
      (match s.load.job with
       | some j => some (w2 (528 * j.wire) (j.expect.sect % 2 ^ 32 + j.expect.addr % 2 ^ 32 * 2 ^ 32), s)
       | none => some (w2 s.load.posWire (s.load.posSect % 2 ^ 32 + s.load.posAddr % 2 ^ 32 * 2 ^ 32), s))
    | _ => none

/-- Items of FAB (R174): an edge connection has no spare map. -/
def readFab (i : Nat) (s : State) : Option (Nat × State) :=
  if i < 0x100 then
    let x := s.conn i
    let map := if (linkOf (i / 4) (i % 4)).isSome then 0 else match x.spare with | some l => 2 ^ 7 + l % 64 | none => 0
    some (w4 map x.ce x.ue (x.repCnt * 2 ^ 16 + x.repLane), s)
  else none

/-- Items of a link page (R271). -/
def readLnk (l i : Nat) (s : State) : Option (Nat × State) :=
  let x := s.link l
  match i with
  | 0x00 => some (w2 x.pserial (x.plink % 32 + (kvGet none x.items 8).getD 0 % 2 ^ 32 * 2 ^ 32), s)
  | 0x01 => some (w4 x.native x.oneWay 0 0, s)
  | 0x02 | 0x03 | 0x04 => some (w4 (kvGet 0 x.eye (2 * (i - 2))) (kvGet 0 x.eye (2 * (i - 2) + 1)) 0 0, s)
  | 0x06 => some (w4 x.msgRx (x.msgRx / 2 ^ 32) x.msgCnt 0, s)
  | _ => none

/-- Items of MEM (R236). -/
def readMem (i : Nat) (s : State) : Option (Nat × State) :=
  if i < 0x100 then some ((s.win i).toNat, s)
  else if i < 0x200 then
    let c := fun k => kvGet 0 s.umem.conf (3 * (i - 0x100) + k)
    some (w4 (c 0) (c 1) (c 2) 0, s)
  else if i < 0x206 then
    let k := 2 * (i - 0x200)
    let w := kvGet 0 s.umem.nocm (k + 1)
    some (w4 (kvGet 0 s.umem.nocm k) w (w / 2 ^ 32) 0, s)
  else if 0x210 ≤ i ∧ i < 0x214 then
    let k := i - 0x210
    let used := (s.hbmSpares k).length
    some (w4 (kvGet 0 s.umem.hbmCe k) (kvGet 0 s.umem.hbmUe k) used (s.poolPages - used), s)
  else if 0x300 ≤ i ∧ i < 0x400 then
    let b := i - 0x300
    some (w4 (kvGet 0 s.umem.lexCe b) (kvGet 0 s.umem.lexUe b) (64 - (s.lexSpares b).length) 0, s)
  else none

/-- Items of RIM (R360, R383). The frequency measured of a running tree is a free value (log 4). -/
def readRim (i : Nat) (s : State) : Option (Nat × State) :=
  if i = 0x00 then some (w4 (s.fget F.RIM_SCRUB_INTERVAL) s.rim.dis.toNat 0 0, s)
  else if i = 0x01 then some (w4 s.rim.lastRfa (s.rim.lastWord % 4) 0 0, s)
  else if 0x08 ≤ i ∧ i < 0x10 then
    let t := i - 0x08
    let src := nbits (s.treeFrame t) 0 4
    if s.treeRuns t then some (w4 s.freshNat.1 src 0 0, s.freshNat.2) else some (w4 0 src 0 0, s)
  else if 0x10 ≤ i ∧ i < 0x20 then
    let g := s.group (i - 0x10)
    some (w2 (g.inq.length % 128 + g.outq.length % 128 * 2 ^ 32) (g.held / 1000000 % 2 ^ 64), s)
  else if 0x100 ≤ i ∧ i < 0x108 then
    let b := s.bank (i - 0x100)
    some (w2 (b.open_ % 2 ^ 48) (b.short % 2 ^ 48), s)
  else none

/-- Items of CAP (R415). -/
def readCap (i : Nat) (s : State) : Option (Nat × State) :=
  match i with
  | 0x00 => some (w2 s.cap.sigBase s.cap.sigLog, s)
  | 0x01 => some (w2 s.cap.mtBase s.cap.mtLog, s)
  | 0x02 => some (w2 s.cap.sig.stepPkts s.cap.sig.dropped, s)
  | 0x03 => some (w2 s.cap.mt.written s.cap.mt.dropped, s)
  | _ =>
    if 0x20 ≤ i ∧ i < 0x40 then
      let x := s.unit ((i - 0x20) / 2)
      if i % 2 = 0 then some (w2 x.step x.time, s) else some (w4 x.meas (x.fine % 32) x.skipped 0, s)
    else none

/-- A core item of a pair may be reached (R447, R449): the pair is halted and the requester's path holds the level. -/
def State.coreOpen (s : State) (req : Requester) (p : Nat) : Bool :=
  (s.pair p).halted && decide (s.pairLevel p ≤ s.reqLevel req)

/-- Items of DBG (R421, R422, R449): PW0 and PW1 read as 0. -/
def readDbg (req : Requester) (i : Nat) (s : State) : Option (Nat × State) :=
  if i < 2 then some (0, s)
  else if 0x34 ≤ i ∧ i < 0x38 then some ((kvGet 0#128 s.dbg.dpub (i - 0x34)).toNat, s)
  else if 0x38 ≤ i ∧ i < 0x3A then some ((kvGet 0#128 s.dbg.sb (i - 0x38)).toNat, s)
  else if 0x100 ≤ i ∧ i < 0x180 ∧ s.coreOpen req ((i - 0x100) / 0x40) then
    let p := (i - 0x100) / 0x40
    let k := i % 0x40
    if k < 32 then some (w2 (if k = 0 then 0 else (kvGet 0#64 (s.pair p).gpr k).toNat) 0, s)
    else if k = 32 then some (w2 (s.pair p).pc.toNat 0, s)
    else if k = 33 ∧ s.fget F.DBG_CSRSEL_PAIR = p then some (w2 ((s.pair p).csrAt (s.fget F.DBG_CSRSEL_CSR)).toNat 0, s)
    else none
  else none

/-- Items of NOC (R479). There is no router 80 or above: what their tables read is a free value; so is the peak of a requester
whose transactions end within one command (log 4). -/
def readNoc (i : Nat) (s : State) : Option (Nat × State) :=
  if i < 3 ∨ (0x08 ≤ i ∧ i < 0x0B) then
    if 80 ≤ s.fget F.NOC_RTSEL_ROUTER then some (s.fresh.1.toNat, s.fresh.2)
    else if i < 3 then some (s.rtRead (1 - s.epoch) i, s)
    else some (s.rtRead s.epoch (i - 8), s)
  else if 0x10 ≤ i ∧ i < 0x18 then
    let k := i - 0x10
    if k = 5 then some (w4 (s.inFlight k) (kvGet 0 s.noc.peak k) (kvGet 0 s.noc.tmo k) 0, s)
    else some (w4 (s.inFlight k) s.freshNat.1 (kvGet 0 s.noc.tmo k) 0, s.freshNat.2)
  else none

/-- Items of HIF (R511). -/
def readHif (i : Nat) (s : State) : Option (Nat × State) :=
  if i < 0x04 then some (w2 (s.ring i).base 0, s)
  else if 0x10 ≤ i ∧ i < 0x20 then some (w2 (s.dmaCh (i - 0x10)).base 0, s)
  else if 0x20 ≤ i ∧ i < 0x30 then some (w2 (s.dmaCh (i - 0x20)).wb 0, s)
  else if 0x30 ≤ i ∧ i < 0x38 then some ((kvGet 0#128 s.hif.xwin (i - 0x30)).toNat, s)
  else if i = 0x40 then some (w4 s.hif.seqno 0 0 0, s)
  else none

/-- Items of MGT (R534). -/
def readMgt (i : Nat) (s : State) : Option (Nat × State) :=
  if i < 0x20 then some ((kvGet 0#128 s.mgt.fpd i).toNat, s)
  else if i < 0x30 then
    let k := (i - 0x20) / 4 * 2 + i % 2
    some ((kvGet 0#128 (if i % 4 < 2 then s.mgt.req else s.mgt.rsp) k).toNat, s)
  else none

/-- Items of SEC (R538, R554): DEVSEED and PWHASH read 0. -/
def readSec (i : Nat) (s : State) : Option (Nat × State) :=
  if i < 0x04 then some (leAt (Config.sm2Public s.devSeed) (16 * i) 16, s)
  else if 0x10 ≤ i ∧ i < 0x30 then
    let o := 16 * (i - 0x10)
    if 16 ≤ o ∧ o < 80 then some (0, s) else some (ofLe (s.fuseBytes o 16), s)
  else if 0x50 ≤ i ∧ i < 0x60 then
    (match s.token (i - 0x50) with
     | some t => some (w4 t.part (t.rights % 8) t.epoch 0, s)
     | none => some (0, s))
  else none

/-- Items of PLT (R587). A monitor that has not been read since power-on reset shows 0 (log 21). -/
def readPlt (i : Nat) (s : State) : Option (Nat × State) :=
  let temp := fun k => (kvGet 0#16 s.plt.temps k).toNat
  let vmon := fun k => kvGet 0 s.plt.vmon k % 2 ^ 16 + (kvGet none s.plt.vmin k).getD 0 % 2 ^ 16 * 2 ^ 16
  let age := fun k => kvGet 0 s.plt.age k
  if i = 0x00 then some (w2 s.ptime 0, s)
  else if i = 0x01 then some (w2 s.plt.ptNext 0, s)
  else if i = 0x02 then some (w4 (int32 s.plt.ptErr) (int32 s.plt.corr) s.plt.edges 0, s)
  else if 0x10 ≤ i ∧ i < 0x1C then
    let k := 4 * (i - 0x10)
    some (w4 (temp k) (temp (k + 1)) (temp (k + 2)) (temp (k + 3)), s)
  else if 0x20 ≤ i ∧ i < 0x38 then
    let k := 4 * (i - 0x20)
    some (w4 (vmon k) (vmon (k + 1)) (vmon (k + 2)) (vmon (k + 3)), s)
  else if 0x40 ≤ i ∧ i < 0x50 then
    let k := 2 * (i - 0x40)
    some (w4 (age k) (Config.ageFactory k) (age (k + 1)) (Config.ageFactory (k + 1)), s)
  else if i = 0x50 then some (w4 s.target s.plt.mv s.plt.current s.plt.guard, s)
  else none

/-- Items of a clause page (R132, R146). -/
def readCls (c i : Nat) (s : State) : Option (Nat × State) :=
  let x := s.clause c
  if i < 4 then some (w2 (kvGet 0 x.pacc i) 0, s) else if i = 4 then some (w2 x.spareStep 0, s) else none

/-- An item of the page that holds an offset is read (R617); the CLS global page has no items. -/
def itemRead (req : Requester) (page i : Nat) (s : State) : Option (Nat × State) :=
  match blockOf page with
  | some 0 => readPlt i s
  | some 1 => readSec i s
  | some 2 => readMgt i s
  | some 3 => readHif i s
  | some 4 => readNoc i s
  | some 5 => readSeq i s
  | some 6 => readSch i s
  | some 7 => (pageClause page).bind fun c => readCls c i s
  | some 8 => readFab i s
  | some 9 =>
    (match pageLink page with
     | some l => readLnk l i s
     | none => if i < 2 then some (nbits s.fp.toNat (128 * i) 128, s) else none)
  | some 10 => readMem i s
  | some 11 => readRim i s
  | some 12 => readCap i s
  | some 13 => readDbg req i s
  | _ => none

/-! ### Writes: the state after; none where the item cannot be written or the write is refused -/

/-- Items of SEQ (R27, R46, R58). -/
def writeSeq (i : Nat) (v : QWord) (s : State) : Option State :=
  let d := fieldOf v 0 64
  match i with
  | 0x00 => if s.atRest then some { s with seq := { s.seq with step := d } } else none
  | 0x01 => if s.atRest then some { s with seq := { s.seq with ucyc := d } } else none
  | 0x02 => some (stopatCheck { s with seq := { s.seq with stopAt := d } })
  | 0x05 => some { s with seq := { s.seq with ckptBase0 := d } }
  | 0x06 => some { s with seq := { s.seq with ckptBase1 := d } }
  | _ => none

/-- Items of SCH (R204). -/
def writeSch (i : Nat) (v : QWord) (s : State) : Option State :=
  if 0x40 ≤ i ∧ i < 0x80 then some { s with sch := { s.sch with stgW := kvSet 0#128 s.sch.stgW (i - 0x40) v } } else none

/-- Items of a link page (R271): a MSG word joins the next superframe. -/
def writeLnk (l i : Nat) (v : QWord) (s : State) : Option State :=
  if i = 0x05 then some (ctlPut l (BitVec.ofNat 64 (5 * 2 ^ 60 + fieldOf v 0 60)) s) else none

/-- Items of MEM (R208). -/
def writeMem (i : Nat) (v : QWord) (s : State) : Option State :=
  if i < 0x100 ∧ s.atRest then some { s with umem := { s.umem with win := kvSet 0#128 s.umem.win i v } } else none

/-- Items of CAP (R415). -/
def writeCap (i : Nat) (v : QWord) (s : State) : Option State :=
  if i = 0x00 ∧ !s.cap.sig.on then some { s with cap := { s.cap with sigBase := fieldOf v 0 64, sigLog := fieldOf v 64 6 } }
  else if i = 0x01 ∧ !s.cap.mt.on then some { s with cap := { s.cap with mtBase := fieldOf v 0 64, mtLog := fieldOf v 64 6 } }
  else none

/-- Items of DBG (R421, R422, R449): x0 discards writes. -/
def writeDbg (req : Requester) (i : Nat) (v : QWord) (s : State) : Option State :=
  if i < 2 then some { s with dbg := { s.dbg with pw := kvSet 0#128 s.dbg.pw i v } }
  else if 0x10 ≤ i ∧ i < 0x30 then some { s with dbg := { s.dbg with cert := kvSet 0#128 s.dbg.cert (i - 0x10) v } }
  else if 0x30 ≤ i ∧ i < 0x34 then some { s with dbg := { s.dbg with hpub := kvSet 0#128 s.dbg.hpub (i - 0x30) v } }
  else if 0x3A ≤ i ∧ i < 0x3C then some { s with dbg := { s.dbg with sa := kvSet 0#128 s.dbg.sa (i - 0x3A) v } }
  else if 0x100 ≤ i ∧ i < 0x180 ∧ s.coreOpen req ((i - 0x100) / 0x40) then
    let p := (i - 0x100) / 0x40
    let k := i % 0x40
    let d : DWord := v.setWidth 64
    if k = 0 then some s
    else if k < 32 then some (s.modPair p fun x => { x with gpr := kvSet 0#64 x.gpr k d })
    else if k = 32 then some (s.modPair p fun x => { x with pc := d })
    else if k = 33 ∧ s.fget F.DBG_CSRSEL_PAIR = p then
      some (s.modPair p fun x => { x with csr := kvSet none x.csr (s.fget F.DBG_CSRSEL_CSR) (some d) })
    else none
  else none

/-- Items of NOC (R467, R479). -/
def writeNoc (i : Nat) (v : QWord) (s : State) : Option State :=
  if i < 3 ∧ !s.fbit F.NOC_STAT_OLDBUSY then some (if 80 ≤ s.fget F.NOC_RTSEL_ROUTER then s else rtWrite i v s) else none

/-- Items of HIF (R511): an enabled ring, channel or window keeps its item. -/
def writeHif (i : Nat) (v : QWord) (s : State) : Option State :=
  let d := fieldOf v 0 64
  if i < 0x04 then
    if s.fbit (F.HIF_EVCFG_EN i) then none else some (s.modRing i fun x => { x with base := d })
  else if 0x10 ≤ i ∧ i < 0x20 then
    if s.fbit (F.HIF_DCTL_EN (i - 0x10)) then none else some (s.modDma (i - 0x10) fun x => { x with base := d })
  else if 0x20 ≤ i ∧ i < 0x30 then some (s.modDma (i - 0x20) fun x => { x with wb := d })
  else if 0x30 ≤ i ∧ i < 0x38 then
    if xwEn (kvGet 0#128 s.hif.xwin (i - 0x30)) then none
    else some { s with hif := { s.hif with xwin := kvSet 0#128 s.hif.xwin (i - 0x30) v } }
  else none

/-- A requester may stage a patch unit (R524): the control pair in M-mode any; the control pair, and the debug paths at L2, a
BREAK unit or one with EN = 0. -/
def State.mayStage (s : State) (req : Requester) (brk en : Bool) : Bool :=
  match req with
  | .control m => m || brk || !en
  | .dbg p => (brk || !en) && decide (2 ≤ s.level p)
  | _ => false

/-- A staging write is ignored (R524): the next APPLY reports PERM. -/
def stageIgnored (s : State) : State := { s with mgt := { s.mgt with perm := true } }

/-- Items of MGT (R524, R527, R534). A staging write that is ignored also sets ERR (`itemWrite`). -/
def writeMgt (req : Requester) (i : Nat) (v : QWord) (s : State) : Option State :=
  if i < 0x20 then
    if s.mayStage req (s.fbit (F.MGT_FPU_MODE (i / 2))) (s.fbit (F.MGT_FPU_EN (i / 2))) then
      some { s with mgt := { s.mgt with fpd := kvSet 0#128 s.mgt.fpd i v } }
    else none
  else if i < 0x30 ∧ i % 4 < 2 then
    let slot := (i - 0x20) / 4
    if nbit (s.fget F.MGT_SVC_GO) slot then none
    else some { s with mgt := { s.mgt with req := kvSet 0#128 s.mgt.req (2 * slot + i % 2) v } }
  else none

/-- Items of SEC (R544). -/
def writeSec (i : Nat) (v : QWord) (s : State) : Option State :=
  if 0x40 ≤ i ∧ i < 0x50 then some { s with sec := { s.sec with item := kvSet 0#128 s.sec.item (i - 0x40) v } } else none

/-- Items of PLT (R570). -/
def writePlt (i : Nat) (v : QWord) (s : State) : Option State :=
  if i = 0x01 then some { s with plt := { s.plt with ptNext := fieldOf v 0 64 } } else none

/-- An item of the page that holds an offset is written (R617). -/
def itemWrite (req : Requester) (page i : Nat) (v : QWord) (s : State) : Option State :=
  match blockOf page with
  | some 0 => writePlt i v s
  | some 1 => writeSec i v s
  | some 2 => writeMgt req i v s
  | some 3 => writeHif i v s
  | some 4 => writeNoc i v s
  | some 5 => writeSeq i v s
  | some 6 => writeSch i v s
  | some 9 => (match pageLink page with | some l => writeLnk l i v s | none => none)
  | some 10 => writeMem i v s
  | some 12 => writeCap i v s
  | some 13 => writeDbg req i v s
  | _ => none

/-! ### Mailbox contexts (R615 to R617) -/

/-- The context of a requester; none for another NoC master (R615). -/
def ctxOf : Requester → Option Nat
  | .hif => some 0
  | .control _ => some 1
  | .security => some 2
  | .dbg _ => some 3
  | .other => none

/-- The page that holds an offset has a mailbox: every control, clause and link page (R610). -/
def hasMailbox (page : Nat) : Bool := (blockOf page).isSome

/-- A context of a page. -/
def State.mbxCtx (s : State) (page ctx : Nat) : Mbx := kvGet {} s.mbx (4 * (page / 4096) + ctx)

/-- The state with a context replaced. -/
def State.setMbx (s : State) (page ctx : Nat) (x : Mbx) : State := { s with mbx := kvSet {} s.mbx (4 * (page / 4096) + ctx) x }

/-- The words D0 to D3 of a context as an item. -/
def Mbx.val (x : Mbx) : QWord :=
  BitVec.ofNat 128 (w4 (kvGet 0 x.d 0).toNat (kvGet 0 x.d 1).toNat (kvGet 0 x.d 2).toNat (kvGet 0 x.d 3).toNat)

/-- The words D0 to D3 of an item. -/
def mbxWords (v : Nat) : Kv Word := (List.range 4).foldl (fun m k => kvSet 0#32 m k (BitVec.ofNat 32 (nbits v (32 * k) 32))) []

/-- A read request of a context (R617): it is complete within the command, or refused. -/
def mbxRead (req : Requester) (page ctx i tag : Nat) (s : State) : State :=
  match itemRead req page i s with
  | some (v, s1) => s1.setMbx page ctx { d := mbxWords v, tag := tag, err := false, valid := true }
  | none => s.setMbx page ctx { d := (s.mbxCtx page ctx).d, tag := tag, err := true, valid := false }

/-- A write request of a context (R617). A staging write that MGT ignores is remembered (R524). -/
def mbxWrite (req : Requester) (page ctx i tag : Nat) (s : State) : State :=
  let x := s.mbxCtx page ctx
  match itemWrite req page i x.val s with
  | some s1 => s1.setMbx page ctx { d := x.d, tag := tag, err := false, valid := false }
  | none =>
    let s1 := if blockOf page = some 2 ∧ i < 0x20 then stageIgnored s else s
    s1.setMbx page ctx { d := x.d, tag := tag, err := true, valid := false }

/-- BLK_MBX_SEL written: a read or a write request (R616, R617). -/
def mbxSel (req : Requester) (page ctx : Nat) (w : Word) (s : State) : State :=
  if w.getLsbD 31 then mbxWrite req page ctx (fieldOf w 0 16) (fieldOf w 16 8) s
  else mbxRead req page ctx (fieldOf w 0 16) (fieldOf w 16 8) s

/-- BLK_MBX_STAT of a context (R616). -/
def Mbx.stat (x : Mbx) : Nat := x.err.toNat * 2 ^ 17 + x.valid.toNat * 2 ^ 16 + x.tag % 256

end Sys2Proof.Machine
end

