-- ==== Sys2Proof/Machine/RegIf.lean ====
section
/-! DEFINITION. RegIf.lean: register reads and writes: sizes, unimplemented addresses, access codes, the effects that the register
descriptions give a write, the bit aliases, and the access engine (R9 to R15, R410, R418, R425, R438, R605 to R619). An access
answers with a NoC STATUS (R461): 0 OK, 1 DECERR, 2 SLVERR, 6 PROT, 7 OFF. -/
namespace Sys2Proof.Machine

/-- Bit k of a written word. -/
def wbit (w : Word) (k : Nat) : Bool := w.getLsbD k

/-! ### Effects of a write, block by block. `o` is the offset in the page, `a` the whole offset, `r` the row. -/

/-- PLT (R561, R566, R570, R575, R579, R582 to R586). -/
def writePltReg (req : Requester) (o a : Nat) (r : RRow) (w : Word) (s : State) : State :=
  match o with
  | 0x04 =>
    let s1 := oppWrite (fieldOf w 0 2) (thrminWrite (fieldOf w 4 4) (s.fset F.PLT_CTL_AUTOSW (fieldOf w 10 1)))
    let s2 := sscWrite (wbit w 11) s1
    if wbit w 9 then swreq s2 else s2
  | 0x20 =>
    if wbit w 31 then gateRequest (fieldOf w 0 5) (wbit w 30) s else plainWrite a r w s
  | 0x30 => alertPin s.alert (plainWrite a r w s)
  | 0x50 =>
    let m := if fieldOf w 0 2 = 1 then 1 else 0
    let s1 := s.fset F.PLT_PTCTL_MODE m
    let s2 : State := if m = 1 then s1 else { s1 with plt := { s1.plt with corr := 0, streak := 0, ppsLast := none } }
    if wbit w 2 then s2.fset F.PLT_PTCTL_LOAD 1 else s2
  | 0x60 => rstKey req (w.setWidth 16) s
  | _ => plainWrite a r w s

/-- SEC (R537, R544, R553). -/
def writeSecReg (req : Requester) (o a : Nat) (r : RRow) (w : Word) (s : State) : State :=
  match o with
  | 0x20 =>
    let k := fieldOf w 0 4
    if wbit w 31 && wbit w 30 then tokenBoth k s
    else if wbit w 31 then tokenLoad k s
    else if wbit w 30 then tokenUnload k s
    else plainWrite a r w s
  | 0x24 => if (s.fusePath req).isSome then plainWrite a r w s else s
  | 0x28 =>
    if (s.fusePath req).isNone then s
    else if wbit w 31 then fuseProgram req (fieldOf w 0 7) true s
    else plainWrite a r w s
  | _ => plainWrite a r w s

/-- A register that accepts writes only from the control pair in M-mode (spec/18, Registers). -/
def mmodeOnly (req : Requester) (t s : State) : Nat × State := if req = .control true then (0, t) else (6, s)

/-- MGT (R517, R520, R524, R525, R527, R531 to R533). -/
def writeMgtReg (req : Requester) (o a : Nat) (r : RRow) (w : Word) (s : State) : Nat × State :=
  match o with
  | 0x20 => mmodeOnly req (codebaseSet (fieldOf w 4 24) s) s
  | 0x30 => (0, wdtWrite 0 (wbit w 31) (fieldOf w 0 24) s)
  | 0x38 => (0, wdtWrite 1 (wbit w 31) (fieldOf w 0 24) s)
  | 0x34 => (0, wdtKick 0 (w.setWidth 16) s)
  | 0x3C => (0, wdtKick 1 (w.setWidth 16) s)
  | 0x40 => (0, svcUnlisted (s.fset F.MGT_SVC_GO (s.fget F.MGT_SVC_GO ||| fieldOf w 0 4)))
  | 0x44 => (0, if wbit w 31 then fpApply s else s)
  | 0x48 => mmodeOnly req (if wbit w 31 then flashCmd (fieldOf w 28 3) s else plainWrite a r w s) s
  | 0x4C | 0x50 => mmodeOnly req (plainWrite a r w s) s
  | 0x58 => (0, if wbit w 31 then swapOk s else s)
  | _ =>
    if 0x100 ≤ o ∧ o < 0x140 then
      if s.mayStage req (wbit w 30) (wbit w 31) then (0, plainWrite a r w s)
      else (if wbit w 31 && !wbit w 30 then 6 else 0, stageIgnored s)
    else (0, plainWrite a r w s)

/-- HIF (R492, R498, R507, R509). -/
def writeHifReg (o a : Nat) (r : RRow) (w : Word) (s : State) : State :=
  if 0x100 ≤ o ∧ o < 0x140 ∧ o % 0x10 = 0 then
    let k := (o - 0x100) / 0x10
    if wbit w 31 then ringEnable k w s else ringDisable k w s
  else if 0x200 ≤ o ∧ o < 0x300 ∧ o % 0x10 = 0 then
    let c := (o - 0x200) / 0x10
    if wbit w 31 then dmaEnable c w s else dmaDisable c w s
  else plainWrite a r w s

/-- NOC (R467, R469, R474, R476, R477): what DRAIN or a stopped tree held goes on. -/
def writeNocReg (o a : Nat) (r : RRow) (w : Word) (s : State) : State :=
  match o with
  | 0x18 => nocAgree (fieldOf w 0 8) s
  | 0x40 =>
    let s1 := s.fset F.NOC_RT_DRAIN (fieldOf w 30 1)
    nocPump (if wbit w 31 then rtFlip s1 else s1)
  | 0x70 => nocPump (plainWrite a r w s)
  | _ => plainWrite a r w s

/-- SEQ_CTL (R40, R42, R45, R46, R54): STOPAT_EN as it is written, if it is, then the command bits. -/
def seqCtl (en : Option Bool) (w : Word) (s : State) : State :=
  let s1 := match en with
    | some true => seqStopat s
    | some false => s.fset F.SEQ_CTL_STOPAT_EN 0
    | none => s
  let go := fieldOf w 0 1 + fieldOf w 2 2 * 4
  let s2 := if go = 0 then s1 else seqGo go s1
  if wbit w 1 then seqStopWrite s2 else s2

/-- SEQ (R54, R57): FENCE, DIAM and CKPT are accepted in READY and STOPPED only. DESIGN CHOICE (log 55): SEQ_ELLIM, which the
loader does not write, is accepted in any state. -/
def writeSeqReg (o a : Nat) (r : RRow) (w : Word) (s : State) : State :=
  match o with
  | 0x04 => seqCtl (some (wbit w 4)) w s
  | 0x20 | 0x24 | 0x34 => if s.seq.st == .ready || s.seq.st == .stopped then plainWrite a r w s else s
  | _ => plainWrite a r w s

/-- The parameters as they stand are those that firmware last wrote, where the control pair writes them (R187, R355). -/
def paramWrote (req : Requester) (s : State) : State :=
  match req with
  | .control _ => { s with
      sch := { s.sch with wrote := (s.fget F.SCH_SCRUB_INTERVAL, s.fget F.SCH_ROWHOT_THR) }
      rim := { s.rim with wrote := s.fget F.RIM_SCRUB_INTERVAL } }
  | _ => s

/-- SCH (R187, R189, R193, R198 to R203, R323). -/
def writeSchReg (req : Requester) (o a : Nat) (r : RRow) (w : Word) (s : State) : State :=
  match o with
  | 0x20 => paramWrote req (s.fset F.SCH_SCRUB_INTERVAL (max 4 (fieldOf w 0 16)))
  | 0x24 => paramWrote req (plainWrite a r w s)
  | 0x28 => if wbit w 0 then schParamPost s else s
  | 0x30 => if wbit w 31 then rmapGo (fieldOf w 14 6) (fieldOf w 0 14) s else plainWrite a r w s
  | 0x40 => if wbit w 31 then patchApply s else s
  | 0x68 => if wbit w 2 then bootConfirm s else s
  | _ => plainWrite a r w s

/-- A clause page (R133, R143). -/
def writeClsReg (c o a : Nat) (r : RRow) (w : Word) (s : State) : State :=
  if o = 0x20 ∧ wbit w 7 then spareGo c (fieldOf w 0 7) s else plainWrite a r w s

/-- FAB (R162, R165, R170, R171, R613): the shadows are kept while a commit is in progress. -/
def writeFabReg (o a : Nat) (r : RRow) (w : Word) (s : State) : State :=
  match o with
  | 0x18 => fabAgree (fieldOf w 0 8) s
  | 0x20 =>
    if wbit w 9 || wbit w 10 then isoWrite (wbit w 9) (wbit w 10) (wbit w 8) (fieldOf w 0 6) s else plainWrite a r w s
  | 0x40 | 0x44 | 0x48 => if s.fab.agree.isSome then s else plainWrite a r w s
  | _ => plainWrite a r w s

/-- A link page (R254, R261, R266, R269). -/
def writeLnkReg (l o a : Nat) (r : RRow) (w : Word) (s : State) : State :=
  match o with
  | 0x04 =>
    let s1 := (s.fset (F.LNK_CTL_MODE l) (fieldOf w 1 1)).fset (F.LNK_CTL_AUTOSPARE l) (fieldOf w 2 1)
    if wbit w 0 then linkEnable l s1 else if s.fbit (F.LNK_CTL_EN l) then linkDisable l s1 else s1
  | 0x20 => if wbit w 31 then lnkSpareGo l (fieldOf w 0 2) s else plainWrite a r w s
  | _ => plainWrite a r w s

/-- MEM (R222, R225, R226, R231 to R234). -/
def writeMemReg (o a : Nat) (r : RRow) (w : Word) (s : State) : State :=
  match o with
  | 0x24 => if s.loadedClauses.isEmpty then s.fset F.MEM_HSPARE_MIB (min 1024 (fieldOf w 0 11)) else s
  | 0x30 => if wbit w 31 then lretGo (fieldOf w 13 8) (fieldOf w 0 13) s else plainWrite a r w s
  | 0x34 => if wbit w 31 then hretGo (fieldOf w 0 2) s else plainWrite a r w s
  | 0x40 => calStart (fieldOf w 0 4) true s
  | _ => plainWrite a r w s

/-- RIM (R352, R355, R358, R375, R381). -/
def writeRimReg (req : Requester) (o a : Nat) (r : RRow) (w : Word) (s : State) : State :=
  match o with
  | 0x20 => paramWrote req (s.fset F.RIM_SCRUB_INTERVAL (max 16 (fieldOf w 0 16)))
  | 0x24 => if wbit w 0 then rimParamPost s else s
  | 0x40 =>
    let g := fieldOf w 0 4
    if wbit w 31 && wbit w 30 then prcBoth g s
    else if wbit w 31 then rimFence g s
    else if wbit w 30 then rimRelease g s
    else plainWrite a r w s
  | 0x100 =>
    (List.range 8).foldl (fun s b =>
      if wbit w (16 + b) && (!wbit w b || (s.bank b).st == .released || (s.bank b).st == .fault) then rimDis b s
      else if wbit w b then rimRel b (wbit w (16 + b)) s
      else s) s
  | _ => plainWrite a r w s

/-- CAP_MODE_BUSY (R23, R410, R412). -/
def modeBusy (stream : Nat) (s : State) : State := s.raise F.CAP_EVT_MODE_BUSY 12 3 [stream]

/-- CAP (R23, R390, R400, R407, R410 to R414). -/
def writeCapReg (o a : Nat) (r : RRow) (w : Word) (s : State) : State :=
  if o = 0x20 then
    let s1 := s.fset F.CAP_SIGCTL_WGMASK (fieldOf w 16 8)
    let s2 := if fieldOf w 3 1 = s.fget F.CAP_SIGCTL_WRAP ∧ fieldOf w 2 1 = s.fget F.CAP_SIGCTL_LOSSY then s1
      else if s.cap.sig.on then modeBusy 0 s1
      else (s1.fset F.CAP_SIGCTL_WRAP (fieldOf w 3 1)).fset F.CAP_SIGCTL_LOSSY (fieldOf w 2 1)
    let s3 := if wbit w 31 then sigStartReq 0 0 s2 else s2
    if wbit w 30 then sigStopReq 0 0 s.seq.step s3 else s3
  else if o = 0x30 then
    let s1 := (((s.fset F.CAP_MTCTL_STOP_EN (fieldOf w 10 1)).fset F.CAP_MTCTL_STOP_CH (fieldOf w 8 2)).fset
      F.CAP_MTCTL_START_EN (fieldOf w 7 1)).fset F.CAP_MTCTL_START_CH (fieldOf w 5 2)
    let s2 := if fieldOf w 13 1 = s.fget F.CAP_MTCTL_WRAP ∧ fieldOf w 11 2 = s.fget F.CAP_MTCTL_SRCMASK then s1
      else if s.cap.mt.on then modeBusy 1 s1
      else (s1.fset F.CAP_MTCTL_WRAP (fieldOf w 13 1)).fset F.CAP_MTCTL_SRCMASK (fieldOf w 11 2)
    let s3 := if wbit w 31 then mtStartReq 0 s2 else s2
    if wbit w 30 then mtStopReq 0 s3 else s3
  else if 0x100 ≤ o ∧ o < 0x300 then tuRegWrite ((o - 0x100) / 0x20) (o % 0x20) w s
  else plainWrite a r w s

/-- An effect that needs a level of the writing path; otherwise the write is ignored and WREF is set (R417). -/
def atLevel (req : Requester) (l : Nat) (t s : State) : State :=
  if (pathOf req).isSome && decide (l ≤ s.reqLevel req) then t else wref s

/-- DBG_AUTH (R419, R421, R422, R443): REQ and DROP act for the writing path. -/
def writeAuth (req : Requester) (a : Nat) (r : RRow) (w : Word) (s : State) : State :=
  let s1 := plainWrite a r w s
  match pathOf req with
  | none => s1
  | some p =>
    let s2 := if wbit w 31 then (if wbit w 27 then authKeyx p (fieldOf w 28 2) s1 else authPassword p (fieldOf w 28 2) s1) else s1
    if wbit w 30 then setLevel p 0 s2 else s2

/-- DBG_RUN (R426, R427, R444). -/
def writeRun (p : Path) (w : Word) (s : State) : State :=
  if s.seq.st == .dbgHold then
    if wbit w 29 then runStep p [] s else if wbit w 30 then runResume p s else s
  else if wbit w 31 then runHalt (.dbgRun p) s
  else s

/-- DBG_ARR (R428 to R430, R446). An agent of no path holds no level. -/
def writeArr (req : Requester) (a : Nat) (r : RRow) (w : Word) (s : State) : State :=
  if s.dbg.arr.isSome then s
  else if !wbit w 31 then plainWrite a r w s
  else
    match pathOf req with
    | none => (plainWrite a r w s).fset F.DBG_ARRD_RESULT 2
    | some p =>
      arrGo ⟨p, fieldOf w 28 3, fieldOf w 22 6, fieldOf w 13 9, wbit w 8, fieldOf w 0 8,
        BitVec.ofNat 2 (s.fget F.DBG_ARRD_VALUE)⟩ s

/-- DBG_PAIR_p (R432, R434, R447): with several bits set, STEP or RESUME acts on a halted pair, HALT on any other. -/
def writePair (req : Requester) (p : Nat) (w : Word) (s : State) : State :=
  match pathOf req with
  | none => wref s
  | some q =>
    if (s.pair p).halted then
      if wbit w 29 then freeStep q p s else if wbit w 30 then pairResumeReq q p s else s
    else if wbit w 31 then pairHalt p (.dbgRun q) s
    else s

/-- DBG (R417, R440 to R448). DBG_ACMD.GO is the access engine's (`regWriteWith`). -/
def writeDbgReg (req : Requester) (o a : Nat) (r : RRow) (w : Word) (s : State) : State :=
  match o with
  | 0x04 => atLevel req 1 (sleepEnd (plainWrite a r w s)) s
  | 0x20 => writeAuth req a r w s
  | 0x24 => (match pathOf req with | some p => atLevel req 1 (writeRun p w s) s | none => wref s)
  | 0x40 => writeArr req a r w s
  | 0x44 => if s.dbg.arr.isSome then s else plainWrite a r w s
  | 0x60 => writePair req 0 w s
  | 0x64 => writePair req 1 w s
  | 0x70 => atLevel req (if wbit w 12 then 3 else 2) (plainWrite a r w s) s
  | 0x80 | 0x84 | 0x88 | 0x8C => atLevel req 1 (plainWrite a r w s) s
  | _ => plainWrite a r w s

/-- The effect of a write of a register: STATUS and state. -/
def regEffect (req : Requester) (a : Nat) (r : RRow) (w : Word) (s : State) : Nat × State :=
  let o := a - pageBase a
  match blockOf a with
  | some 0 => (0, writePltReg req o a r w s)
  | some 1 => (0, writeSecReg req o a r w s)
  | some 2 => writeMgtReg req o a r w s
  | some 3 => (0, writeHifReg o a r w s)
  | some 4 => (0, writeNocReg o a r w s)
  | some 5 => (0, writeSeqReg o a r w s)
  | some 6 => (0, writeSchReg req o a r w s)
  | some 7 => (0, match pageClause a with | some c => writeClsReg c o a r w s | none => plainWrite a r w s)
  | some 8 => (0, writeFabReg o a r w s)
  | some 9 => (0, match pageLink a with
      | some l => writeLnkReg l o a r w s
      | none => if o = 0x28 then devnumWrite w s else plainWrite a r w s)
  | some 10 => (0, writeMemReg o a r w s)
  | some 11 => (0, writeRimReg req o a r w s)
  | some 12 => (0, writeCapReg o a r w s)
  | some 13 => (0, writeDbgReg req o a r w s)
  | _ => (0, s)

/-! ### Addresses (R606, R608, R618) -/

/-- The BAR0 offset at which a block begins (R608). -/
def blockBase (b : Nat) : Nat := if b ≤ 6 then 0x100000 * b else if b = 7 then 0x800000 else 0x100000 * (b + 5)

/-- The bit-alias region. -/
def isAlias (a : Nat) : Bool := decide (0x2000000 ≤ a) && decide (a < 0x21C0000)

/-- The register and bit that an alias word names (R619). -/
def aliasOf (a : Nat) : Nat × Nat :=
  let rel := a - 0x2000000
  (blockBase (rel / 0x20000) + rel % 0x20000 / 128 * 4, rel % 128 / 4)

/-- The MSI-X table and pending-bit array (R481, R605). -/
def isMsix (a : Nat) : Bool := decide (0x300800 ≤ a) && decide (a < 0x300C08)

/-- The offsets of a mailbox in its page: D0 to D3, SEL, STAT (R616). -/
def isMbx (a : Nat) : Bool := hasMailbox a && decide (0xE0 ≤ a - pageBase a) && decide (a - pageBase a < 0xF8)

/-- An access answers before it reaches a register: SLVERR for its size or alignment and for a mailbox without a context (R605,
R615), no register range (R606; BAR0 answers as under R605), OFF for a gated page (R575). -/
def State.regRefusal (s : State) (req : Requester) (a size : Nat) : Option Nat :=
  let r := if isAlias a then (aliasOf a).1 else a
  if (blockOf r).isNone then some (if req = .hif then 2 else 1)
  else if !((size == 4 && a % 4 == 0) || (size == 8 && a % 8 == 0 && isMsix a)) then some 2
  else if ((pageDomain r).map fun d => !s.domOn d) == some true then some 7
  else if isMbx r && !isAlias a && (ctxOf req).isNone then some 2
  else none

/-! ### Writes -/

/-- A write of the mailbox registers of a context (R616). -/
def mbxRegWrite (req : Requester) (a : Nat) (w : Word) (s : State) : Except Fault State :=
  let page := pageBase a
  let o := a - page
  match ctxOf req with
  | none => .ok s
  | some c =>
    let x := s.mbxCtx page c
    if o < 0xF0 then .ok (s.setMbx page c { x with d := kvSet 0#32 x.d ((o - 0xE0) / 4) w })
    else if o = 0xF0 then (if fieldOf w 24 7 = 0 then .ok (mbxSel req page c w s) else .error (.rsvWritten a))
    else if fieldOf w 8 8 = 0 ∧ fieldOf w 19 13 = 0 then .ok s
    else .error (.rsvWritten a)

/-- A write of the MSI-X table (R481, R501): a pending vector that is no longer masked is sent. The pending bits are read-only. -/
def msixWrite (a : Nat) (w : Word) (s : State) : State :=
  if 0x300C00 ≤ a then s else msixUnmask { s with hif := { s.hif with msix := kvSet 0#32 s.hif.msix (a - 0x300000) w } }

/-- An operation would start under a reserved code (R14). -/
def badCode (req : Requester) (a : Nat) (w : Word) : Bool :=
  (a == 0x200048 && req == .control true && wbit w 31 && !(decide (1 ≤ fieldOf w 28 3) && decide (fieldOf w 28 3 ≤ 3))) ||
    (a == 0x1200040 && wbit w 31 && decide (6 ≤ fieldOf w 28 3))

/-- The access engine is started by this write. -/
def startsEngine (a : Nat) (w : Word) : Bool := a == 0x120003C && wbit w 31

/-- A write of a register that no rule answers before it: STATUS and state. `eng` is what DBG_ACMD.GO does. -/
def regWriteWord (eng : Word → State → Except Fault State) (req : Requester) (a : Nat) (w : Word) (s : State) :
    Except Fault (Nat × State) :=
  if isMbx a then (mbxRegWrite req a w s).map fun t => (0, t)
  else if isMsix a then .ok (0, msixWrite a w s)
  else
    match findReg a with
    | none => .ok (0, s)
    | some r =>
      if s.rsvBroken a r w then .error (.rsvWritten a)
      else if badCode req a w then .error (.reservedCode a)
      else if startsEngine a w then (eng w s).map fun t => (0, t)
      else .ok (regEffect req a r w s)

/-- The field of a register that holds a bit. -/
def RRow.fieldAt (r : RRow) (bit : Nat) : Option FRow := r.fields.find? fun f => decide (f.lo ≤ bit) && decide (bit ≤ f.hi)

/-- The word that an alias write gives the register (R619): RW fields as they are, RSV bits as read, W1S and W1C bits 0, and
the named bit as written. -/
def State.aliasWord (s : State) (a : Nat) (r : RRow) (bit : Nat) (v : Bool) : Word :=
  let cur := (r.fields.map fun f => if f.acc == .rw || f.acc == .rsv then s.readFld a f * 2 ^ f.lo else 0).sum
  BitVec.ofNat 32 (putBit cur bit v)

/-- A write of an alias word (R618, R619). -/
def aliasWrite (eng : Word → State → Except Fault State) (req : Requester) (a : Nat) (v : Bool) (s : State) :
    Except Fault (Nat × State) :=
  let t := aliasOf a
  if isMsix t.1 then .ok (0, msixWrite t.1 (BitVec.ofNat 32 (putBit (s.msixWord (t.1 - 0x300000)).toNat t.2 v)) s)
  else
    match findReg t.1 with
    | none => .ok (0, s)
    | some r =>
      match r.fieldAt t.2 with
      | none => .ok (0, s)
      | some f =>
        match f.acc with
        | .rw => regWriteWord eng req t.1 (s.aliasWord t.1 r t.2 v) s
        | .w1c => if v then regWriteWord eng req t.1 (s.aliasWord t.1 r t.2 v) s else .ok (0, s)
        | .w1s =>
          if !v then .ok (0, s)
          else if t.1 = 0x500004 then .ok (0, seqCtl none (BitVec.ofNat 32 (2 ^ t.2)) s)
          else regWriteWord eng req t.1 (s.aliasWord t.1 r t.2 v) s
        | _ => .ok (0, s)

/-- A register write: STATUS and state (R605 to R619). -/
def regWriteWith (eng : Word → State → Except Fault State) (req : Requester) (a size : Nat) (w : DWord) (s : State) :
    Except Fault (Nat × State) :=
  match s.regRefusal req a size with
  | some st => .ok (st, s)
  | none =>
    if isAlias a then aliasWrite eng req a (w.getLsbD 0) s
    else if size = 8 then .ok (0, msixWrite (a + 4) ((w >>> 32).setWidth 32) (msixWrite a (w.setWidth 32) s))
    else regWriteWord eng req a (w.setWidth 32) s

/-! ### Reads -/

/-- A read by a debug path is a peek read while DBG_CTL.PEEK = 1 (R11, R425). -/
def State.peek (s : State) (req : Requester) : Bool :=
  match req with
  | .dbg _ => s.fbit F.DBG_CTL_PEEK
  | _ => false

/-- The word that a read returns, and the state after: a read of D3 that is not a peek read clears VALID (R617). -/
def regReadWord (req : Requester) (a : Nat) (s : State) : Nat × State :=
  if isMbx a then
    let page := pageBase a
    let o := a - page
    match ctxOf req with
    | none => (0, s)
    | some c =>
      let x := s.mbxCtx page c
      if o < 0xF0 then
        ((kvGet 0#32 x.d ((o - 0xE0) / 4)).toNat,
          if o = 0xEC ∧ !s.peek req then s.setMbx page c { x with valid := false } else s)
      else if o = 0xF0 then (0, s)
      else (x.stat, s)
  else if isMsix a then ((s.msixWord (a - 0x300000)).toNat, s)
  else
    match findReg a with
    | none => (0, s)
    | some r => (s.readRow a r, s)

/-- A read of an alias word (R618, R619): offsets 0xE0 to 0xFF and unimplemented ones read 0. -/
def State.aliasRead (s : State) (a : Nat) : Nat :=
  let t := aliasOf a
  if isMsix t.1 then nbits (s.msixWord (t.1 - 0x300000)).toNat t.2 1
  else
    match findReg t.1 with
    | none => 0
    | some r => nbits (s.readRow t.1 r) t.2 1

/-- A register read: STATUS, bytes and state (R605 to R619). -/
def regRead (req : Requester) (a size : Nat) (s : State) : Nat × List Byte × State :=
  match s.regRefusal req a size with
  | some st => (st, [], s)
  | none =>
    if isAlias a then (0, leBytes 4 (s.aliasRead a), s)
    else if size = 8 then
      (0, leBytes 4 (s.msixWord (a - 0x300000)).toNat ++ leBytes 4 (s.msixWord (a + 4 - 0x300000)).toNat, s)
    else
      let x := regReadWord req a s
      (0, leBytes 4 x.1, x.2)

/-! ### The access engine and DBGACC (R418, R438, R445) -/

/-- DBG_ACMD.GO while an access runs (R418). -/
def engineBusy (w : Word) (s : State) : Except Fault State :=
  .ok ((s.fset F.DBG_ACMD_WRITE (fieldOf w 30 1)).fset F.DBG_ACMD_RESULT 4)

/-- An access of a path waits at a lexicon bank. -/
def State.dbgWaits (s : State) (p : Path) : Bool :=
  s.umem.nocq.any fun x => match x.reply with | .debug q => q == p | _ => false

/-- The address lies in the SEC block, its aliases among them, or in the security pair's SRAM (R418). -/
def needsL3 (a : Nat) : Bool :=
  (decide (0x100000 ≤ a) && decide (a < 0x200000)) || (decide (0x2020000 ≤ a) && decide (a < 0x2040000)) || isSecSram a

/-- The RESULT of an access that has come back with a STATUS: DONE or ERROR (R418). -/
def engResult (st : Nat) : Nat := if st = 0 then 0 else 3

/-- One aligned 32-bit access of a path (R418, R425, R433, R438): RESULT and data read, or none while it waits at a lexicon
bank or for the calibration of an HBM stack (R222). -/
def dbgAccess (p : Path) (write : Bool) (addr : Nat) (data : Word) (s : State) : Except Fault (Option (Nat × Word) × State) :=
  let a := addr % 2 ^ 48 - addr % 4
  let l := s.level p
  let m := Master.debug (decide (3 ≤ l))
  let bs := leBytes 4 data.toNat
  if l < (if needsL3 a then 3 else if write then 2 else 1) then .ok (some (1, 0), s)
  else if isHost a then .ok (some (5, 0), s)
  else if isRegs a then
    if write then (regWriteWith engineBusy (.dbg p) a 4 (data.setWidth 64) s).map fun x => (some (engResult x.1, 0), x.2)
    else
      let x := regRead (.dbg p) a 4 s
      .ok (some (engResult x.1, BitVec.ofNat 32 (ofLe x.2.1)), x.2.2)
  else if isUser a && s.memClosed (if write then 2 else 1) a 4 then .ok (some (2, 0), s)
  else if isLex a || s.hbmHeld a then .ok (none, nocEnqueue (.debug p) 5 a 4 write bs (if write then lrBreak a 4 s else s))
  else if write then
    let x := busWrite m a bs s
    .ok (some (engResult x.1, 0), if x.1 = 0 then lrBreak a 4 x.2 else x.2)
  else
    let x := busRead m a 4 s
    .ok (some (engResult x.1, BitVec.ofNat 32 (ofLe x.2.1)), x.2.2)

/-- The engine's access ends (R418, R445). -/
def engineEnd (write : Bool) (code : Nat) (d : Word) (s : State) : State :=
  let s1 := (s.fset F.DBG_ACMD_GO 0).fset F.DBG_ACMD_RESULT code
  if code = 0 ∧ !write then s1.fset F.DBG_ADATA_DATA d.toNat else s1

/-- DBG_ACMD written with GO = 1 (R417, R418, R445): the use of the engine is a host-path access. -/
def engineGo (w : Word) (s : State) : Except Fault State :=
  if s.dbgWaits .host then engineBusy w s
  else
    let wr := wbit w 30
    let a := s.fget F.DBG_AADDR0_ADDR + s.fget F.DBG_AADDR1_ADDR * 2 ^ 32
    let s1 := s.fset F.DBG_ACMD_WRITE wr.toNat
    (dbgAccess .host wr a (BitVec.ofNat 32 (s.fget F.DBG_ADATA_DATA)) s1).map fun x =>
      match x.1 with
      | some (code, d) => engineEnd wr code d x.2
      | none => x.2.fset F.DBG_ACMD_GO 1

/-- The DBGACC register as the next Capture-DR returns it (R438): 0 done, 1 busy, 2 refused, 3 error. -/
def tapEnd (write : Bool) (code : Nat) (d : Word) (s : State) : State :=
  { s with dbg := { s.dbg with
    accStat := if code = 0 then 0 else if code = 3 then 3 else 2
    accData := if code = 0 ∧ !write then d else s.dbg.accData } }

/-- Capture-DR and Update-DR of DBGACC (R438): the outcome of the last access goes out and the next one starts, at the TAP
path's level. While an access waits the new one is not started. -/
def dbgacc (write : Bool) (addr : Nat) (data : Word) (s0 : State) : Except Fault State :=
  let s := tapSelect 0x10#8 s0
  let s1 := s.emit (.dbgacc s.dbg.accStat s.dbg.accData)
  if s.dbgWaits .tap then .ok s1
  else
    (dbgAccess .tap write addr data s1).map fun x =>
      match x.1 with
      | some (code, d) => tapEnd write code d x.2
      | none => { x.2 with dbg := { x.2.dbg with accStat := 1 } }

/-! ### The commands -/

/-- A register write with the access engine. -/
def regWrite (req : Requester) (a size : Nat) (w : DWord) (s : State) : Except Fault (Nat × State) :=
  regWriteWith engineGo req a size w s

/-- A requester learns the STATUS of its write (R461, R487). -/
def writeAnswer (req : Requester) (off st : Nat) (s : State) : State :=
  if req = .hif then (if st = 0 then s else hostWriteErr 0 off st s) else s.emit (.status st)

/-- A requester learns the outcome of its read (R461, R486). -/
def readAnswer (req : Requester) (st : Nat) (bs : List Byte) (s : State) : State :=
  if req = .hif then hostAnswer st bs s else if st = 0 then s.emit (.data bs) else s.emit (.status st)

/-- The outcome of an access that may break R10 or R14. -/
def orFault (x : Except Fault State) : Host.Outcome State Fault Refusal :=
  match x with
  | .ok t => .next t
  | .error f => .fault f

/-- A register write as a requester makes it. -/
def regWriteCmd (req : Requester) (a size : Nat) (w : DWord) (s : State) : Except Fault State :=
  (regWrite req a size w s).map fun x => writeAnswer req a x.1 x.2

/-- A register read as a requester makes it. -/
def regReadCmd (req : Requester) (a size : Nat) (s : State) : State :=
  let x := regRead req a size s
  readAnswer req x.1 x.2.1 x.2.2

/-- The word of a mailbox request (R616). -/
def selWord (write : Bool) (item : Nat) (tag : Byte) : DWord :=
  BitVec.ofNat 64 (write.toNat * 2 ^ 31 + tag.toNat * 2 ^ 16 + item % 2 ^ 16)

/-- REGISTER_WRITE (R9, R605 to R607). -/
def execRegisterWrite (req : Requester) (addr size : Nat) (w : DWord) (s : State) : Host.Outcome State Fault Refusal :=
  orFault (regWriteCmd req addr size w s)

/-- REGISTER_READ (R9, R11, R605, R617). -/
def execRegisterRead (req : Requester) (addr size : Nat) (s : State) : Host.Outcome State Fault Refusal :=
  .next (regReadCmd req addr size s)

/-- BIT_ALIAS_WRITE (R618, R619). A write to another address is none of an alias word. -/
def execBitAliasWrite (req : Requester) (addr : Nat) (w : Word) (s : State) : Host.Outcome State Fault Refusal :=
  if isAlias addr then orFault (regWriteCmd req addr 4 (w.setWidth 64) s) else .next s

/-- MBX_ITEM_READ (R617): BLK_MBX_SEL of the page is written with WRITE = 0. -/
def execMbxItemRead (req : Requester) (page item : Nat) (tag : Byte) (s : State) : Host.Outcome State Fault Refusal :=
  orFault (regWriteCmd req (pageBase page + 0xF0) 4 (selWord false item tag) s)

/-- MBX_ITEM_WRITE (R617): BLK_MBX_SEL of the page is written with WRITE = 1. -/
def execMbxItemWrite (req : Requester) (page item : Nat) (tag : Byte) (s : State) : Host.Outcome State Fault Refusal :=
  orFault (regWriteCmd req (pageBase page + 0xF0) 4 (selWord true item tag) s)

/-- DBG_ACCESS_READ (R418): DBG_ACMD is written with GO = 1 and WRITE = 0. -/
def execDbgAccessRead (s : State) : Host.Outcome State Fault Refusal := orFault (engineGo 0x80000000#32 s)

/-- DBG_ACCESS_WRITE (R418): DBG_ACMD is written with GO = 1 and WRITE = 1. -/
def execDbgAccessWrite (s : State) : Host.Outcome State Fault Refusal := orFault (engineGo 0xC0000000#32 s)

/-- DBGACC (R438). -/
def execDbgacc (write : Bool) (addr : Nat) (data : Word) (s : State) : Host.Outcome State Fault Refusal :=
  orFault (dbgacc write addr data s)

/-! ### Commands that write one register whole (R10) -/

/-- TU_ENABLE: CAP_TUCTL written with EN = 1 (R403, R407). -/
def execTuEnable (u : Nat) (w : Word) (s : State) : Host.Outcome State Fault Refusal :=
  s.regCmd (0x1100100 + 0x20 * u) w (tuEnable u w)

/-- TU_REG_WRITE (R407, R413, R414). -/
def execTuRegWrite (u off : Nat) (w : Word) (s : State) : Host.Outcome State Fault Refusal :=
  s.regCmd (0x1100100 + 0x20 * u + off) w (tuRegWrite u off w)

/-- DMA_ENABLE (R492). -/
def execDmaEnable (c : Nat) (w : Word) (s : State) : Host.Outcome State Fault Refusal :=
  s.regCmd (0x300200 + 0x10 * c) w (dmaEnable c w)

/-- DMA_DISABLE (R492). -/
def execDmaDisable (c : Nat) (w : Word) (s : State) : Host.Outcome State Fault Refusal :=
  s.regCmd (0x300200 + 0x10 * c) w (dmaDisable c w)

/-- EVENT_RING_ENABLE (R498). -/
def execEventRingEnable (r : Nat) (w : Word) (s : State) : Host.Outcome State Fault Refusal :=
  s.regCmd (0x300100 + 0x10 * r) w (ringEnable r w)

/-- DEVNUM_WRITE (R259). -/
def execDevnumWrite (w : Word) (s : State) : Host.Outcome State Fault Refusal := s.regCmd 0xE00028 w (devnumWrite w)

/-- CODEBASE_WRITE (R525): a write that is not the control pair's is refused whole (R528). -/
def execCodebaseWrite (req : Requester) (w : Word) (s : State) : Host.Outcome State Fault Refusal :=
  if req = .control true then s.regCmd 0x200020 w (codebaseSet (fieldOf w 4 24))
  else .next (ctlOnly req 0x200020 id s)

end Sys2Proof.Machine
end

