-- ==== Sys2Proof/Machine/NocRx.lean ====
section
/-! DEFINITION. NocRx.lean: what an endpoint does with a packet, NoC accesses that a lexicon bank serves, and the PCIe resets (R216,
R424, R456 to R462, R482). -/
namespace Sys2Proof.Machine

/-! ### Endpoints (R454 to R462) -/

/-- A packet whose OP or class no endpoint accepts, or that is another endpoint's, is discarded (R456, R460, R478, R480). -/
def routeDrop (r : Nat) (p : Packet) (s : State) : State :=
  (s.count F.NOC_CNT_ROUTE_COUNT).raise F.NOC_EVT_ROUTE 4 5 [r, p.dst, p.epoch.toNat, p.op]

/-- A packet that fails its end-to-end CRC is discarded (R460, R478, R480). -/
def crcDrop (r : Nat) (p : Packet) (s : State) : State :=
  (s.count F.NOC_CNT_CRC_COUNT).raise F.NOC_EVT_CRC 4 3 [r, p.src, p.cls]

/-- The OP is a request: memory or register, read or write (R456). -/
def isRequest (op : Nat) : Bool := op == 1 || op == 2 || op == 7 || op == 8

/-- The OP is a response (R456). -/
def isResponse (op : Nat) : Bool := op == 3 || op == 4 || op == 9

/-- What an endpoint's checks make of a packet: it goes on, perhaps poisoned, or it is discarded (R456, R459, R460). -/
def checkPacket (r : Nat) (p : Packet) (err : HopError) (s : State) : Option Packet × State :=
  if p.e2e then
    if !p.crcOk || err != .none then (none, crcDrop r p s)
    else if opClass p.op ≠ some p.cls ∨ p.dst ≠ r ∨ (isRequest p.op = true ∧ destOf p.addr ≠ some r) then (none, routeDrop r p s)
    else (some p, s)
  else
    let vc := opChannel p.op
    let go := fun (p : Packet) (s : State) =>
      if opClass p.op ≠ some p.cls then ((none : Option Packet), routeDrop r p s) else (some p, s)
    match err with
    | .none => go p s
    | .corrected => go p (hopFixed r 4 s)
    | .data => if 1 < packetFlits p then go { p with poison := true } (hopUe r 4 vc 1 s) else (none, hopUe r 4 vc 0 s)
    | .header => (none, hopUe r 4 vc 0 s)

/-- The master of a memory request, by the router and endpoint that sent it (R452, R463). -/
def State.packetMaster (s : State) (p : Packet) : Master :=
  if p.src = 64 then .hif
  else if p.src = 66 then .control
  else if p.src = 67 then (if p.sep = 0 then .security else .debug (decide (3 ≤ s.level .host)))
  else if p.src = 72 then .cap
  else .rim

/-- The requester of a register access, likewise (R417, R615). -/
def State.packetRequester (s : State) (p : Packet) : Requester :=
  if p.src = 64 then .hif
  else if p.src = 66 then .control ((s.pair 0).priv == 3)
  else if p.src = 67 then (if p.sep = 0 then .security else .dbg .host)
  else .other

/-- A memory request reaches its target (R456, R459, R461, R465): the response goes back, at once or, from the lexicon, when a
bank port has served it (R216). -/
def memRequest (r : Nat) (p : Packet) (s : State) : State :=
  let answer := fun (st : Nat) (bs : List Byte) (s : State) => send r (response r p st bs) s
  let m := s.packetMaster p
  let write := p.op == 2
  if isRegs p.addr then answer 8 [] s
  else if destOf p.addr ≠ some r then answer 1 [] s
  else
    match s.busRefusal m write p.addr p.size with
    | some st => answer st [] s
    | none =>
      if write && p.poison then answer 3 [] s
      else if isLex p.addr then nocEnqueue (.packet p) m.kind p.addr p.size write p.payload s
      else if write then
        let x := memWrite m p.addr p.payload s
        answer x.1 [] x.2
      else
        let x := memRead m p.addr p.size s
        answer x.1 x.2.1 x.2.2

/-- A register request reaches its block (R456, R459, R461, R605 to R619). -/
def regRequest (r : Nat) (p : Packet) (s : State) : Except Fault State :=
  let answer := fun (st : Nat) (bs : List Byte) (s : State) => send r (response r p st bs) s
  let req := s.packetRequester p
  if !isRegs p.addr then .ok (answer 8 [] s)
  else if regRouter p.addr ≠ some r then .ok (answer 1 [] s)
  else if p.op = 8 then
    if p.poison then .ok (answer 3 [] s)
    else (regWrite req p.addr p.size (BitVec.ofNat 64 (ofLe p.payload)) s).map fun x => answer x.1 [] x.2
  else
    let x := regRead req p.addr p.size s
    .ok (answer x.1 x.2.1 x.2.2)

/-- A response reaches its requester; one that no transaction waits for is late (R459, R461, R478). -/
def takeResponse (r : Nat) (p : Packet) (s : State) : State :=
  match s.noc.txns.find? fun t => rimPort r == some t.port && t.tid == p.tid with
  | some t => if p.poison then txnDone t 3 [] s else txnDone t p.status p.payload s
  | none => s.count F.NOC_CNT_LATE_COUNT

/-- The event record that an EVP packet carries (R494, R495). -/
def recordOf (bs : List Byte) : Ev :=
  { src := nbits (leAt bs 0 4) 16 8, code := nbits (leAt bs 0 4) 0 16, step := leAt bs 8 8, time := leAt bs 16 8
    payload := (List.range 10).map fun i => leAt bs (24 + 4 * i) 4 }

/-- Trace bytes reach the capture buffer; none while it has no room for them (R462). A gated or stopped target discards them
(R400, R465). -/
def takeTrace (bs : List Byte) (s : State) : Option State :=
  if !s.domOn 29 || !s.cap.mt.on then some s
  else if capBufBytes < s.capFill + bs.length then none
  else some (s.modMt fun x => { x with buf := x.buf ++ bs, bytes := x.bytes + bs.length })

/-- An endpoint of router r acts on a packet that passed its checks; none while it must wait for room, or for the calibration of
its stack (R222, R462). -/
def takePacket (r : Nat) (p : Packet) (s : State) : Except Fault (Option State) :=
  if isResponse p.op then .ok (some (takeResponse r p s))
  else if isRequest p.op then
    if !s.canSend r (response r p 0 (if p.op = 1 then p.payload ++ List.replicate p.size 0#8 else [])) then .ok none
    else if (p.op = 1 ∨ p.op = 2) ∧ s.rangeHeld p.addr p.size = true then .ok none
    else if p.op = 1 ∨ p.op = 2 then .ok (some (memRequest r p s))
    else (regRequest r p s).map some
  else if p.op = 5 then
    .ok (some (if r = 65 then { s with evq := s.evq ++ [recordOf p.payload] } else routeDrop r p s))
  else .ok (if r = 72 then takeTrace p.payload s else some (routeDrop r p s))

/-- The endpoints of router r receive one of the packets that stand first in its channels: the first that need not wait (R456,
R462). -/
def nocReceive (r : Nat) (err : HopError) (s : State) : List Flight → Except Fault State
  | [] => .ok s
  | f :: t =>
    let s1 := s.setRxq r ((s.rxq r).erase f)
    match checkPacket r f.pkt err s1 with
    | (none, s2) => .ok (nocPump s2)
    | (some p, s2) =>
      match takePacket r p s2 with
      | .error e => .error e
      | .ok (some s3) => .ok (nocPump s3)
      | .ok none => nocReceive r err s t

/-! ### Lexicon banks (R216) -/

/-- A NoC access that a bank has served is answered to whoever waits for it (R216, R418, R438, R486, R487). -/
def nocAnswer (x : NocAcc) (st : Nat) (bs : List Byte) (s : State) : State :=
  match x.reply with
  | .bar2 off => if x.write then (if st = 0 then s else hostWriteErr 2 off st s) else hostAnswer st bs s
  | .packet p => nocPump (send (lexBank x.addr / 4) (response (lexBank x.addr / 4) p st bs) s)
  | .debug .host => engineEnd x.write (engResult st) (BitVec.ofNat 32 (ofLe bs)) s
  | .debug .tap => tapEnd x.write (engResult st) (BitVec.ofNat 32 (ofLe bs)) s

/-- The router of the bank has room for the response, if one is due (R462). -/
def State.nocAnswerRoom (s : State) (x : NocAcc) (bs : List Byte) : Bool :=
  match x.reply with
  | .packet p => s.canSend (lexBank x.addr / 4) (response (lexBank x.addr / 4) p 0 bs)
  | _ => true

/-- The STATUS and the bytes of a NoC access that has been served (R223, R461). -/
def NocAcc.result (x : NocAcc) : Nat × List Byte := (if x.good then 0 else 2, if x.good then x.got else [])

/-- A bank port serves one word of a waiting NoC access (R206, R216); without room for the response its last word is not served
yet (R462). -/
def lexNoc (bank : Nat) (s : State) : State :=
  match nocServe bank s with
  | none => s
  | some (x, t) =>
    if x.pos < x.size then t
    else if s.nocAnswerRoom x x.result.2 then nocAnswer x x.result.1 x.result.2 t else s

/-- A calibration slice ends, and the host and debug accesses that waited for the stack are served, each as a whole (R222). -/
def calSliceEnd (k : Nat) (ok : Bool) (lanes ns : Nat) (s : State) : State :=
  if !nbit (s.fget F.MEM_STAT_CAL_BUSY) k then s
  else
    let s1 := calEnd k ok lanes ns s
    let xs := s1.umem.nocq.filter fun x => isHbm x.addr && hbmStack x.addr == k
    let s2 : State := { s1 with umem := { s1.umem with nocq := s1.umem.nocq.filter fun x => !(isHbm x.addr && hbmStack x.addr == k) } }
    xs.foldl (fun s x =>
      if x.write then
        let r := nocWrite x.kind x.addr x.data s
        nocAnswer x (if r.1 then 0 else 2) [] r.2
      else
        let r := nocRead x.kind x.addr x.size s
        nocAnswer x (if r.2.1 then 0 else 2) (if r.2.1 then r.1 else []) r.2.2) s2

/-! ### PCIe resets (R424, R482) -/

/-- A PCIe reset, 0 conventional, 1 hot, 2 function-level (R482, R512): HIF resets and HIF_RESET is raised. R419 names the
conventional and the function-level reset as those that take the host path to L0 (log 25). -/
def pcieReset (k : Nat) (s : State) : State :=
  (hifReset (if k = 1 then s else setLevel .host 0 s)).raise F.HIF_EVT_RESET 3 6 [k]

/-! ### The commands -/

/-- LEX_NOC_SERVE (R216). -/
def execLexNocServe (bank : Nat) (ups : List Upset) (s : State) : Host.Outcome State Fault Refusal :=
  .next (lexNoc bank (upsets ups s))

/-- CAL_SLICE_END (R222). -/
def execCalSliceEnd (stack : Nat) (ok : Bool) (lanes ns : Nat) (s : State) : Host.Outcome State Fault Refusal :=
  .next (calSliceEnd stack ok lanes ns s)

/-- NOC_PACKET_RECEIVE (R456). -/
def execNocPacketReceive (router : Nat) (err : HopError) (s : State) : Host.Outcome State Fault Refusal :=
  orFault (nocReceive router err s (heads (s.rxq router) []))

/-- PCIE_RESET (R482). -/
def execPcieReset (kind : PcieReset) (s : State) : Host.Outcome State Fault Refusal :=
  .next (pcieReset (match kind with | .conventional => 0 | .hot => 1 | .functionLevel => 2) s)

end Sys2Proof.Machine
end

