-- ==== Sys2Proof/Machine/Dispatch.lean ====
section
/-! DEFINITION. Dispatch.lean: one arm per command; each arm is one call of that command's meaning. -/
namespace Sys2Proof.Machine

/-- The effect of a command on the state. -/
def exec (i : Instr) (s : State) : Host.Outcome State Fault Refusal :=
  match i with
  | .stepExecute ups => Sys2Proof.Machine.execStepExecute ups s
  | .ellipsisEnd ups => Sys2Proof.Machine.execEllipsisEnd ups s
  | .seqLongEllipsis => Sys2Proof.Machine.execSeqLongEllipsis s
  | .run => Sys2Proof.Machine.execRun s
  | .step1 => Sys2Proof.Machine.execStep1 s
  | .ucyc1 => Sys2Proof.Machine.execUcyc1 s
  | .stop => Sys2Proof.Machine.execStop s
  | .stopatEnable => Sys2Proof.Machine.execStopatEnable s
  | .checkpointComplete ok failAddr => Sys2Proof.Machine.execCheckpointComplete ok failAddr s
  | .seqTmr mask => Sys2Proof.Machine.execSeqTmr mask s
  | .dictSweepRead c phrase e ups => Sys2Proof.Machine.execDictSweepRead c phrase e ups s
  | .dictUeRewrite c e => Sys2Proof.Machine.execDictUeRewrite c e s
  | .clsSpareGo c target => Sys2Proof.Machine.execClsSpareGo c target s
  | .migrationComplete c mismatches cycles => Sys2Proof.Machine.execMigrationComplete c mismatches cycles s
  | .spareMarchPass c passed => Sys2Proof.Machine.execSpareMarchPass c passed s
  | .lexAccessServe bank ups => Sys2Proof.Machine.execLexAccessServe bank ups s
  | .lexNocServe bank ups => Sys2Proof.Machine.execLexNocServe bank ups s
  | .memNocStarve k => Sys2Proof.Machine.execMemNocStarve k s
  | .memReturnArrive m => Sys2Proof.Machine.execMemReturnArrive m s
  | .hbmReturn m ups => Sys2Proof.Machine.execHbmReturn m ups s
  | .hbmRefresh stack allBank => Sys2Proof.Machine.execHbmRefresh stack allBank s
  | .hbmTempRead stack temp => Sys2Proof.Machine.execHbmTempRead stack temp s
  | .memCalGo mask => Sys2Proof.Machine.execMemCalGo mask s
  | .calSliceEnd stack ok lanes ns => Sys2Proof.Machine.execCalSliceEnd stack ok lanes ns s
  | .memLretGo bank word => Sys2Proof.Machine.execMemLretGo bank word s
  | .lretComplete mismatches => Sys2Proof.Machine.execLretComplete mismatches s
  | .memHretGo stack => Sys2Proof.Machine.execMemHretGo stack s
  | .hretComplete mismatches => Sys2Proof.Machine.execHretComplete mismatches s
  | .fabIsoRequest c xinj => Sys2Proof.Machine.execFabIsoRequest c xinj s
  | .fabRelRequest c => Sys2Proof.Machine.execFabRelRequest c s
  | .isoBoundaryApply => Sys2Proof.Machine.execIsoBoundaryApply s
  | .fabAgreeCommit tag => Sys2Proof.Machine.execFabAgreeCommit tag s
  | .readRepairWriteback c row word => Sys2Proof.Machine.execReadRepairWriteback c row word s
  | .scrubRowRead c ups => Sys2Proof.Machine.execScrubRowRead c ups s
  | .paramCheck rim struck => Sys2Proof.Machine.execParamCheck rim struck s
  | .schParam => Sys2Proof.Machine.execSchParam s
  | .schRmapGo c row => Sys2Proof.Machine.execSchRmapGo c row s
  | .rmapComplete mismatches => Sys2Proof.Machine.execRmapComplete mismatches s
  | .schPatchApply => Sys2Proof.Machine.execSchPatchApply s
  | .patchBoundaryHold => Sys2Proof.Machine.execPatchBoundaryHold s
  | .patchHoldEnd => Sys2Proof.Machine.execPatchHoldEnd s
  | .idleSuperframeSend l => Sys2Proof.Machine.execIdleSuperframeSend l s
  | .superframeReceive l sf fecFix fecUe => Sys2Proof.Machine.execSuperframeReceive l sf fecFix fecUe s
  | .retryTimeout l => Sys2Proof.Machine.execRetryTimeout l s
  | .resumeWordReceive l tag => Sys2Proof.Machine.execResumeWordReceive l tag s
  | .fenceWordReceive l dev fence => Sys2Proof.Machine.execFenceWordReceive l dev fence s
  | .peerItemReceive l item val => Sys2Proof.Machine.execPeerItemReceive l item val s
  | .laneWordReceive l op lane => Sys2Proof.Machine.execLaneWordReceive l op lane s
  | .msgWordReceive l msg => Sys2Proof.Machine.execMsgWordReceive l msg s
  | .peerRepeat l => Sys2Proof.Machine.execPeerRepeat l s
  | .lnkEnable l => Sys2Proof.Machine.execLnkEnable l s
  | .lnkDisable l => Sys2Proof.Machine.execLnkDisable l s
  | .trainComplete l lanes => Sys2Proof.Machine.execTrainComplete l lanes s
  | .trainTimeout l => Sys2Proof.Machine.execTrainTimeout l s
  | .framingLock l trip decode => Sys2Proof.Machine.execFramingLock l trip decode s
  | .partnerModeDetect l => Sys2Proof.Machine.execPartnerModeDetect l s
  | .modeRetry l => Sys2Proof.Machine.execModeRetry l s
  | .modeWindowClose l => Sys2Proof.Machine.execModeWindowClose l s
  | .identComplete l serial plink => Sys2Proof.Machine.execIdentComplete l serial plink s
  | .framingLost l => Sys2Proof.Machine.execFramingLost l s
  | .resumeComplete l tag => Sys2Proof.Machine.execResumeComplete l tag s
  | .resumeTimeout l => Sys2Proof.Machine.execResumeTimeout l s
  | .partnerOffReport l => Sys2Proof.Machine.execPartnerOffReport l s
  | .lnkSpareGo l lane => Sys2Proof.Machine.execLnkSpareGo l lane s
  | .laneLoss l lane => Sys2Proof.Machine.execLaneLoss l lane s
  | .laneSpareComplete l accepted => Sys2Proof.Machine.execLaneSpareComplete l accepted s
  | .spareLaneTrained l => Sys2Proof.Machine.execSpareLaneTrained l s
  | .spareRetrainTimer l => Sys2Proof.Machine.execSpareRetrainTimer l s
  | .eyeScan l lane height width => Sys2Proof.Machine.execEyeScan l lane height width s
  | .lnkDevnumStart => Sys2Proof.Machine.execLnkDevnumStart s
  | .lnkTopo self base renumber nums links => Sys2Proof.Machine.execLnkTopo self base renumber nums links s
  | .devnumWrite w => Sys2Proof.Machine.execDevnumWrite w s
  | .rimPllUnlock p => Sys2Proof.Machine.execRimPllUnlock p s
  | .rimPllRelock p => Sys2Proof.Machine.execRimPllRelock p s
  | .rimOnehot rfa mux => Sys2Proof.Machine.execRimOnehot rfa mux s
  | .rimOutboundRead g => Sys2Proof.Machine.execRimOutboundRead g s
  | .rimInboundWrite g entry => Sys2Proof.Machine.execRimInboundWrite g entry s
  | .rimPrcFence region => Sys2Proof.Machine.execRimPrcFence region s
  | .rimPrcRel region => Sys2Proof.Machine.execRimPrcRel region s
  | .rimFrameScrub ups => Sys2Proof.Machine.execRimFrameScrub ups s
  | .rimParam => Sys2Proof.Machine.execRimParam s
  | .rimPortRequest port write addr size tag data => Sys2Proof.Machine.execRimPortRequest port write addr size tag data s
  | .vccioGood b mv strap => Sys2Proof.Machine.execVccioGood b mv strap s
  | .vccioLost b mv => Sys2Proof.Machine.execVccioLost b mv s
  | .rimRel b => Sys2Proof.Machine.execRimRel b s
  | .rimDis b => Sys2Proof.Machine.execRimDis b s
  | .bankCheckComplete b key openMask => Sys2Proof.Machine.execBankCheckComplete b key openMask s
  | .keySample b key => Sys2Proof.Machine.execKeySample b key s
  | .rimIoShort b pin level => Sys2Proof.Machine.execRimIoShort b pin level s
  | .sigStart => Sys2Proof.Machine.execSigStart s
  | .sigStop => Sys2Proof.Machine.execSigStop s
  | .sigPostEnd => Sys2Proof.Machine.execSigPostEnd s
  | .captureDrain => Sys2Proof.Machine.execCaptureDrain s
  | .capOverflow mt => Sys2Proof.Machine.execCapOverflow mt s
  | .mtStart => Sys2Proof.Machine.execMtStart s
  | .mtStop => Sys2Proof.Machine.execMtStop s
  | .tuEnable u w => Sys2Proof.Machine.execTuEnable u w s
  | .tuDisable u => Sys2Proof.Machine.execTuDisable u s
  | .tuRegWrite u off w => Sys2Proof.Machine.execTuRegWrite u off w s
  | .pinCrossing bank pin hi up mv fine => Sys2Proof.Machine.execPinCrossing bank pin hi up mv fine s
  | .triggerFire u ticks => Sys2Proof.Machine.execTriggerFire u ticks s
  | .holdoffEnd u => Sys2Proof.Machine.execHoldoffEnd u s
  | .dbgAuthPassword p level => Sys2Proof.Machine.execDbgAuthPassword p level s
  | .dbgAuthKeyx p level => Sys2Proof.Machine.execDbgAuthKeyx p level s
  | .keyxTimeout => Sys2Proof.Machine.execKeyxTimeout s
  | .dbgAuthDrop p => Sys2Proof.Machine.execDbgAuthDrop p s
  | .dbgAccessRead => Sys2Proof.Machine.execDbgAccessRead s
  | .dbgAccessWrite => Sys2Proof.Machine.execDbgAccessWrite s
  | .read p c bp bank entry => Sys2Proof.Machine.execRead p c bp bank entry s
  | .deposit p c bp bank entry v => Sys2Proof.Machine.execDeposit p c bp bank entry v s
  | .force p c bp bank entry v => Sys2Proof.Machine.execForce p c bp bank entry v s
  | .release p c bp bank entry => Sys2Proof.Machine.execRelease p c bp bank entry s
  | .cqread p c bp slot => Sys2Proof.Machine.execCqread p c bp slot s
  | .relall p => Sys2Proof.Machine.execRelall p s
  | .arrDeferredStart => Sys2Proof.Machine.execArrDeferredStart s
  | .dbgHalt cause => Sys2Proof.Machine.execDbgHalt cause s
  | .dbgResume p => Sys2Proof.Machine.execDbgResume p s
  | .dbgStep p ups => Sys2Proof.Machine.execDbgStep p ups s
  | .pairHalt pair cause => Sys2Proof.Machine.execPairHalt pair cause s
  | .pairHaltComplete pair priv pc lr => Sys2Proof.Machine.execPairHaltComplete pair priv pc lr s
  | .pairResume p pair => Sys2Proof.Machine.execPairResume p pair s
  | .pairStep p pair eff => Sys2Proof.Machine.execPairStep p pair eff s
  | .xtrigIn ch => Sys2Proof.Machine.execXtrigIn ch s
  | .testLogicReset => Sys2Proof.Machine.execTestLogicReset s
  | .extest => Sys2Proof.Machine.execExtest s
  | .samplePreload => Sys2Proof.Machine.execSamplePreload s
  | .idcode => Sys2Proof.Machine.execIdcode s
  | .dbgacc write addr data => Sys2Proof.Machine.execDbgacc write addr data s
  | .bypass code => Sys2Proof.Machine.execBypass code s
  | .nocPacketForward router port err => Sys2Proof.Machine.execNocPacketForward router port err s
  | .ageIncrement router => Sys2Proof.Machine.execAgeIncrement router s
  | .nocPacketReceive router err => Sys2Proof.Machine.execNocPacketReceive router err s
  | .nocTimeout k => Sys2Proof.Machine.execNocTimeout k s
  | .nocRtFlip => Sys2Proof.Machine.execNocRtFlip s
  | .oldEpochDrained => Sys2Proof.Machine.execOldEpochDrained s
  | .nocAgreeCommit tag => Sys2Proof.Machine.execNocAgreeCommit tag s
  | .dlmodeSwitch row => Sys2Proof.Machine.execDlmodeSwitch row s
  | .bar2Read off size => Sys2Proof.Machine.execBar2Read off size s
  | .bar2Write off data => Sys2Proof.Machine.execBar2Write off data s
  | .eventDoorbell r w => Sys2Proof.Machine.execEventDoorbell r w s
  | .dmaDoorbell c w => Sys2Proof.Machine.execDmaDoorbell c w s
  | .pcieReset kind => Sys2Proof.Machine.execPcieReset kind s
  | .dmaEnable c w => Sys2Proof.Machine.execDmaEnable c w s
  | .dmaDisable c w => Sys2Proof.Machine.execDmaDisable c w s
  | .dmaDescComplete c desc data => Sys2Proof.Machine.execDmaDescComplete c desc data s
  | .hifDmaErr c err status => Sys2Proof.Machine.execHifDmaErr c err status s
  | .eventAccept k => Sys2Proof.Machine.execEventAccept k s
  | .eventRingWrite => Sys2Proof.Machine.execEventRingWrite s
  | .msixCoalesceExpire r => Sys2Proof.Machine.execMsixCoalesceExpire r s
  | .ringFullResignal => Sys2Proof.Machine.execRingFullResignal s
  | .eventRingEnable r w => Sys2Proof.Machine.execEventRingEnable r w s
  | .mgtLockstep pair pc => Sys2Proof.Machine.execMgtLockstep pair pc s
  | .pairRestartComplete pair => Sys2Proof.Machine.execPairRestartComplete pair s
  | .mgtWdtEnable pair timeout => Sys2Proof.Machine.execMgtWdtEnable pair timeout s
  | .wdtKick pair key => Sys2Proof.Machine.execWdtKick pair key s
  | .mgtWdt pair => Sys2Proof.Machine.execMgtWdt pair s
  | .program req => Sys2Proof.Machine.execProgram req s
  | .erase4k req => Sys2Proof.Machine.execErase4k req s
  | .erase64k req => Sys2Proof.Machine.execErase64k req s
  | .flashCmdComplete ok => Sys2Proof.Machine.execFlashCmdComplete ok s
  | .mgtFpApply => Sys2Proof.Machine.execMgtFpApply s
  | .codebaseWrite req w => Sys2Proof.Machine.execCodebaseWrite req w s
  | .swapOk => Sys2Proof.Machine.execSwapOk s
  | .swapTimeout => Sys2Proof.Machine.execSwapTimeout s
  | .load slot placement => Sys2Proof.Machine.execLoad slot placement s
  | .fwUpdate slot stream => Sys2Proof.Machine.execFwUpdate slot stream s
  | .fwSwap slot => Sys2Proof.Machine.execFwSwap slot s
  | .fwHotfix slot stream => Sys2Proof.Machine.execFwHotfix slot stream s
  | .patchSet slot => Sys2Proof.Machine.execPatchSet slot s
  | .logRead slot => Sys2Proof.Machine.execLogRead slot s
  | .info slot => Sys2Proof.Machine.execInfo slot s
  | .restore slot crcOk writeOk host => Sys2Proof.Machine.execRestore slot crcOk writeOk host s
  | .attest slot nonce => Sys2Proof.Machine.execAttest slot nonce s
  | .loadBegin => Sys2Proof.Machine.execLoadBegin s
  | .frameReceive bytes readOk => Sys2Proof.Machine.execFrameReceive bytes readOk s
  | .reloadBoundaryHold => Sys2Proof.Machine.execReloadBoundaryHold s
  | .bootTimeout => Sys2Proof.Machine.execBootTimeout s
  | .bootOk => Sys2Proof.Machine.execBootOk s
  | .tokenLoad slot => Sys2Proof.Machine.execTokenLoad slot s
  | .tokenUnload slot => Sys2Proof.Machine.execTokenUnload slot s
  | .fuseProgram req word readBackOk => Sys2Proof.Machine.execFuseProgram req word readBackOk s
  | .oppWrite code => Sys2Proof.Machine.execOppWrite code s
  | .oppSettle => Sys2Proof.Machine.execOppSettle s
  | .sscWrite on => Sys2Proof.Machine.execSscWrite on s
  | .thrminWrite level => Sys2Proof.Machine.execThrminWrite level s
  | .rootPllFail kind => Sys2Proof.Machine.execRootPllFail kind s
  | .swreq => Sys2Proof.Machine.execSwreq s
  | .switchoverComplete => Sys2Proof.Machine.execSwitchoverComplete s
  | .rootRetrain passed => Sys2Proof.Machine.execRootRetrain passed s
  | .sensorSample temps => Sys2Proof.Machine.execSensorSample temps s
  | .throttleUpdate src powerW => Sys2Proof.Machine.execThrottleUpdate src powerW s
  | .droopDetect monitor mv => Sys2Proof.Machine.execDroopDetect monitor mv s
  | .thermtrip sensor => Sys2Proof.Machine.execThermtrip sensor s
  | .pltAvs kind measured => Sys2Proof.Machine.execPltAvs kind measured s
  | .agingCheck counts => Sys2Proof.Machine.execAgingCheck counts s
  | .ppsLoad => Sys2Proof.Machine.execPpsLoad s
  | .ppsEdge => Sys2Proof.Machine.execPpsEdge s
  | .ppsMissing => Sys2Proof.Machine.execPpsMissing s
  | .calSchedule kind => Sys2Proof.Machine.execCalSchedule kind s
  | .pgreqGate domain => Sys2Proof.Machine.execPgreqGate domain s
  | .pgreqPower domain => Sys2Proof.Machine.execPgreqPower domain s
  | .domainReady domain => Sys2Proof.Machine.execDomainReady domain s
  | .pltRstKey req key => Sys2Proof.Machine.execPltRstKey req key s
  | .deviceReset cause => Sys2Proof.Machine.execDeviceReset cause s
  | .rootLock => Sys2Proof.Machine.execRootLock s
  | .hbmTrainComplete stack => Sys2Proof.Machine.execHbmTrainComplete stack s
  | .smbTmax => Sys2Proof.Machine.execSmbTmax s
  | .smbThrottle => Sys2Proof.Machine.execSmbThrottle s
  | .smbRstcause => Sys2Proof.Machine.execSmbRstcause s
  | .smbAlertStatus => Sys2Proof.Machine.execSmbAlertStatus s
  | .smbVddStepMv => Sys2Proof.Machine.execSmbVddStepMv s
  | .smbVddStepPower => Sys2Proof.Machine.execSmbVddStepPower s
  | .sparingDecision t => Sys2Proof.Machine.execSparingDecision t s
  | .lifeRecord hours avg => Sys2Proof.Machine.execLifeRecord hours avg s
  | .mbxItemRead req page item tag => Sys2Proof.Machine.execMbxItemRead req page item tag s
  | .mbxItemWrite req page item tag => Sys2Proof.Machine.execMbxItemWrite req page item tag s
  | .bitAliasWrite req addr w => Sys2Proof.Machine.execBitAliasWrite req addr w s
  | .registerWrite req addr size w => Sys2Proof.Machine.execRegisterWrite req addr size w s
  | .registerRead req addr size => Sys2Proof.Machine.execRegisterRead req addr size s
  | .hifLink speed width flit dlup => Sys2Proof.Machine.execHifLink speed width flit dlup s
  | .busMasterEnable on => Sys2Proof.Machine.execBusMasterEnable on s
  | .standbyRootFail kind => Sys2Proof.Machine.execStandbyRootFail kind s
  | .droopRelease => Sys2Proof.Machine.execDroopRelease s
  | .avsDeviationClear => Sys2Proof.Machine.execAvsDeviationClear s
  | .porstNRelease => Sys2Proof.Machine.execPorstNRelease s
  | .mgtSramScrub addr ue => Sys2Proof.Machine.execMgtSramScrub addr ue s

end Sys2Proof.Machine
end

