-- ==== Sys2Proof/Machine/RimLogic.lean ====
section
/-! DEFINITION. RimLogic.lean: what the rim fabric computes: cells, selection chains, routing, flip-flops, block memories and
the input and output paths of the I/O pins, clocked by the global trees (R328 to R336, R349, R350, R364, R369, R376). -/
namespace Sys2Proof.Machine

/-! ### Fields of the frames (R339, R340) -/

/-- Frame 0 of a row group, in effect once a rim base is (R339). -/
def State.groupFrame (s : State) (u : Nat) : Nat := if s.rim.base then s.frame (rfaOf 1 u 0) else 0

/-- Table and mode of a cell (R328, R339). -/
def cellTable (d k : Nat) : Nat := nbits d (64 * k) 64
def cellMode (d k : Nat) : Nat := nbits d (512 + 2 * k) 2

/-- Fields of a flip-flop (R330, R339). -/
def ffInit (d f : Nat) : Bool := nbit d (528 + 5 * f)
def ffAsync (d f : Nat) : Bool := nbit d (529 + 5 * f)
def ffSrc (d f : Nat) : Nat := nbits d (530 + 5 * f) 2
def ffGated (d f : Nat) : Bool := nbit d (532 + 5 * f)

/-- The tree of a row group, and the code of its chain length (R329, R339). -/
def groupTree (d : Nat) : Nat := nbits d 608 3
def groupChain (d : Nat) : Nat := nbits d 612 2

/-- The select of multiplexer m of a row group (R336, R339). -/
def State.muxSelect (s : State) (u m : Nat) : Nat :=
  if s.rim.base then nbits (s.frame (rfaOf 1 u (1 + m / 31))) (32 * (m % 31)) 32 else 0

/-- The configuration of a block-memory port (R340): aspect, tree, read mode and use; ECC mode. -/
def State.memFrame (s : State) (k : Nat) : Nat := if s.rim.base then s.frame (rfaOf 2 k 0) else 0
def portAspect (d port : Nat) : Nat := nbits d (16 * port) 3
def portTree (d port : Nat) : Nat := nbits d (16 * port + 3) 3
def portMode (d port : Nat) : Nat := nbits d (16 * port + 6) 2
def memPortUsed (d port : Nat) : Bool := nbit d (16 * port + 8)
def memEcc (d : Nat) : Bool := nbit d 32

/-! ### Regions (R349, R350) -/

/-- The region that a place lies in (R349). -/
def State.regionAt (s : State) (p : Nat × Nat × Nat) : Option Nat :=
  (List.range 16).find? fun r => s.regionDef r && inRegion (s.regionFrame r) p

/-- The place of a row group and of a block memory (R327, R331). -/
def groupPlace (u : Nat) : Nat × Nat × Nat := (u / 6144, u % 6144 / 192, u % 192)
def memPlace (k : Nat) : Nat × Nat × Nat := (k / 256, 8 * (k % 256 / 64), 3 * (k % 64) + 2)

/-- A place is held: its region is fenced, or loads (R350). -/
def State.placeHeld (s : State) (p : Nat × Nat × Nat) : Bool :=
  match s.regionAt p with
  | some r => s.regionSt r != .active
  | none => false

/-- The value that isolation gives a wire driven at row group u where a reader lies outside its fenced region (R349): SAFEVAL. -/
def State.isolation (s : State) (u : Nat) (reader : Option (Nat × Nat × Nat)) : Option Bool :=
  match s.regionAt (groupPlace u) with
  | some r =>
    if s.regionSt r == .active || reader.bind s.regionAt == some r then none else some (nbit (s.regionFrame r) 28)
  | none => none

/-! ### Cells and chains (R328, R329) -/

/-- The number whose bits the inputs of a table give. -/
def tableIndex (n : Nat) (i : Nat → Bool) : Nat := maskOf n i

/-- The chain output at cell k (R329): S[1:0] selects the data input of the cell that S[m + 1:2] names. -/
def chainOut (m sel : Nat) (data : Nat → Nat → Bool) : Nat → Bool
  | 0 => if nbits sel 2 m = 0 then data 0 (sel % 4) else false
  | k + 1 => if nbits sel 2 m = k + 1 then data (k + 1) (sel % 4) else chainOut m sel data k

/-- OA of a cell (R328): `i` its inputs, `chain` the chain output at the cell. -/
def cellA (d k : Nat) (i : Nat → Bool) (chain : Bool) : Bool :=
  match cellMode d k with
  | 0 => false
  | 1 => nbit (cellTable d k) (tableIndex 6 i)
  | 2 => nbit (cellTable d k) (tableIndex 5 i)
  | _ => chain

/-- OB of a cell (R328). -/
def cellB (d k : Nat) (i : Nat → Bool) : Bool :=
  match cellMode d k with
  | 0 => false
  | 2 => nbit (cellTable d k) (32 + tableIndex 4 i + (if i 5 then 16 else 0))
  | _ => nbit (cellTable d k) (tableIndex 6 i)

/-! ### Routing (R336, R337, R349) -/

/-- The routing wire that reaches an input. -/
def sinkSrc (x : RimSink) : RimSrc := .wire (Config.rimReach x).1 (Config.rimReach x).2

/-- What a flip-flop holds (R330): INIT while its region is held, its cell is OFF or no clock edge has loaded it. -/
def State.ffHeld (s : State) (u f : Nat) : Bool :=
  let d := s.groupFrame u
  if s.placeHeld (groupPlace u) || cellMode d (f / 2) == 0 then ffInit d f
  else (kvGet none s.rim.ff (16 * u + f)).getD (ffInit d f)

/-- The input wire of a pin toward rim logic (R364, R369, R376): 0 unless its bank is released and the pin is an input, and
during EXTEST. -/
def padLevel (x : Bank) (b p : Nat) : Bool := (kvGet none x.pads p).getD (Config.padStart b p)
def faLevel (d : Nat) (x : Bank) (b p : Nat) : Bool := if nbits (pinBits d p) 8 2 = 0 then padLevel x b p else nbit x.fa p
def fdLevel (d : Nat) (x : Bank) (b p : Nat) : Bool := if nbits (pinBits d p) 10 2 = 0 then faLevel d x b p else nbit x.fd p
def State.pinIn (s : State) (b p : Nat) : Bool :=
  let d := s.bankFrame b
  let x := s.bank b
  x.st == .released && !s.fbit F.DBG_STAT_EXTEST && nbit (pinBits d p) 13 &&
    (if nbit (pinBits d p) 14 then nbit x.inReg p else fdLevel d x b p)

/-- The level of a source of the routing, read at a place, with a bound on the wires and cells passed (R328 to R336, R349). A
multiplexer whose select has no bit, or more than one, drives 0 (R336, R337). -/
def State.rimVal (s : State) : Nat → Option (Nat × Nat × Nat) → RimSrc → Bool
  | 0, _, src => Config.rimLoop src
  | n + 1, reader, .wire u m =>
    match s.isolation u reader with
    | some v => v
    | none =>
      match maskBits 32 (s.muxSelect u m) with
      | [k] => s.rimVal n (some (groupPlace u)) (Config.rimFeed u m k)
      | _ => false
  | n + 1, _, .outA u k =>
    let d := s.groupFrame u
    let get := fun x => s.rimVal n (some (groupPlace u)) (sinkSrc x)
    cellA d k (fun i => get (.cell u k i))
      (chainOut (groupChain d) (tableIndex 5 fun i => get (.select u i)) (fun k i => get (.cell u k i)) k)
  | n + 1, _, .outB u k => cellB (s.groupFrame u) k fun i => s.rimVal n (some (groupPlace u)) (sinkSrc (.cell u k i))
  | n + 1, _, .ff u f =>
    let d := s.groupFrame u
    if ffAsync d f && s.rimVal n (some (groupPlace u)) (sinkSrc (.reset u f)) then ffInit d f else s.ffHeld u f
  | _ + 1, _, .mem k port bit =>
    nbit (((kvGet none s.rim.memOut (2 * k + port)).map Prod.fst).getD (Config.rimMemStart k port)) bit
  | _ + 1, _, .memFlag k port uncorr =>
    nbit (((kvGet none s.rim.memOut (2 * k + port)).map Prod.snd).getD 0) uncorr.toNat
  | _ + 1, _, .pin b p => s.pinIn b p
  | _ + 1, _, .entry g bit => match (s.group g).outq with | [] => false | e :: _ => e.2.getLsbD bit
  | _ + 1, _, .entryTag g bit => match (s.group g).outq with | [] => false | e :: _ => nbit (e.1 % 65536) bit
  | _ + 1, _, .inboundTag g bit => nbit ((s.group g).inNext % 65536) bit
  | _ + 1, _, .nocPort p bit => Config.rimPortOut p bit s.now

/-- More routing wires and cells than the rim has (R327, R339): a path that long closes on itself. -/
def rimDepth : Nat := 12288 * 256

/-- The level that reaches an input at a place. -/
def State.sinkVal (s : State) (place : Option (Nat × Nat × Nat)) (x : RimSink) : Bool := s.rimVal rimDepth place (sinkSrc x)

/-! ### Flip-flops (R330) -/

/-- What a flip-flop holds after an edge of its tree (R330). DESIGN CHOICE (log 62): a synchronous reset does not need the clock
enable. -/
def State.ffNext (s : State) (u f : Nat) : Bool :=
  let d := s.groupFrame u
  let at_ := some (groupPlace u)
  let k := f / 2
  let self := fun f => s.rimVal rimDepth at_ (.ff u f)
  if s.sinkVal at_ (.reset u f) then ffInit d f
  else if ffGated d f && !s.sinkVal at_ (.enable u f) then self f
  else
    match ffSrc d f with
    | 0 => s.rimVal rimDepth at_ (if f % 2 = 0 then .outA u k else .outB u k)
    | 1 => s.rimVal rimDepth at_ (if f % 2 = 0 then .outB u k else .outA u k)
    | 2 => s.sinkVal at_ (.direct u f)
    | _ => self (if f % 2 = 0 then f + 1 else f - 1)

/-- The flip-flops of the configured row groups. -/
def State.ffList (s : State) : List (Nat × Nat) :=
  (s.rim.frames.filterMap fun (e : Nat × Nat) =>
    if rfaType e.1 = 1 ∧ rfaFrame e.1 = 0 then some (rfaUnit e.1) else none).flatMap fun u =>
      (List.range 16).map fun f => (u, f)

/-- The flip-flops that an edge of the given trees loads take their next values, all from the state before it (R330). -/
def ffEdge (ts : List Nat) (s s0 : State) : State :=
  let hit := s0.ffList.filter fun e =>
    ts.contains (groupTree (s0.groupFrame e.1)) && cellMode (s0.groupFrame e.1) (e.2 / 2) != 0 && !s0.placeHeld (groupPlace e.1)
  { s with rim := { s.rim with
    ff := hit.foldl (fun m e => kvSet none m (16 * e.1 + e.2) (some (s0.ffNext e.1 e.2))) s.rim.ff } }

/-- An asynchronous reset loads INIT without an edge (R330). -/
def ffReset (s : State) : State :=
  let hit := s.ffList.filter fun e =>
    ffAsync (s.groupFrame e.1) e.2 && s.sinkVal (some (groupPlace e.1)) (.reset e.1 e.2)
  { s with rim := { s.rim with ff := hit.foldl (fun m e => kvSet none m (16 * e.1 + e.2) none) s.rim.ff } }

/-! ### Block memories (R331 to R333) -/

/-- The word width of an aspect (R331). -/
def aspectWidth (a : Nat) : Nat := [1, 2, 4, 9, 18, 36, 72].getD a 72

/-- The content bit that bit b of word w is, in an aspect of the given width (R332). -/
def memBit (width w b : Nat) : Nat :=
  if width ≤ 4 then width * w + b
  else
    let m := width / 9
    if b % 9 < 8 then 8 * (m * w + b / 9) + b % 9 else 32768 + m * w + b / 9

/-- A content bit, and a content bit set (R338: type 0x3 frames). -/
def State.content (s : State) (k c : Nat) : Bool := nbit (s.frame (rfaOf 3 k (c / 992))) (c % 992)
def setContent (k : Nat) (s : State) (e : Nat × Bool) : State :=
  { s with rim := { s.rim with
    frames := kvMod 0 s.rim.frames (rfaOf 3 k (e.1 / 992)) fun d => putBit d (e.1 % 992) e.2 } }

/-- What a block-memory port does on an edge of its tree: word address, data and the bits of the word that it writes. -/
structure MemOp where
  width : Nat
  word : Nat
  data : Nat
  wmask : Nat
  mode : Nat
  tree : Nat
  deriving DecidableEq, Repr

/-- The operation of a port, if it is used and enabled (R331, R340). -/
def State.memOp (s : State) (k port : Nat) : Option MemOp :=
  let d := s.memFrame k
  let at_ := some (memPlace k)
  let a := portAspect d port
  let w := aspectWidth a
  if !memPortUsed d port || s.placeHeld (memPlace k) || !s.sinkVal at_ (.memEnable k port) then none
  else some {
    width := w, word := maskOf (15 - a) fun i => s.sinkVal at_ (.memAddr k port i)
    data := maskOf w fun i => s.sinkVal at_ (.memData k port i)
    wmask := maskOf w fun i => s.sinkVal at_ (.memWrite k port (if w < 9 then 0 else i / 9))
    mode := portMode d port, tree := portTree d port }

/-- The word that a port addresses, as the memory holds it. -/
def State.memWord (s : State) (k : Nat) (o : MemOp) : Nat := maskOf o.width fun b => s.content k (memBit o.width o.word b)

/-- A word of 72 bits with its eight side bits as the SECDED code of the other 64 (R333). -/
def mainBits (w : Nat) : Nat := maskOf 64 fun i => nbit w (9 * (i / 8) + i % 8)
def sideBits (w : Nat) : Nat := maskOf 8 fun i => nbit w (9 * i + 8)
def withCode (w : Nat) : Nat :=
  (List.range 8).foldl (fun v i => putBit v (9 * i + 8) (nbit (Config.rimEcc (mainBits w)) i)) w

/-- A word read in ECC mode (R333): corrected at the output where one flipped bit explains it; flags CORR and UNCORR. -/
def eccRead (w : Nat) : Nat × Nat :=
  let ok := fun w => Config.rimEcc (mainBits w) == sideBits w
  if ok w then (w, 0)
  else
    match (List.range 72).find? fun i => ok (putBit w i (!nbit w i)) with
    | some i => (putBit w i (!nbit w i), 1)
    | none => (w, 2)

/-- The word that a write leaves: the data where it is enabled, the old bits elsewhere; in ECC mode with its code. -/
def MemOp.wrote (o : MemOp) (ecc : Bool) (old : Nat) : Nat :=
  let w := maskOf o.width fun b => if nbit o.wmask b then nbit o.data b else nbit old b
  if ecc then withCode w else w

/-- The content bits that an operation writes: in ECC mode the code's as well. -/
def MemOp.writes (o : MemOp) (ecc : Bool) (old : Nat) : List (Nat × Bool) :=
  if o.wmask = 0 then []
  else
    ((List.range o.width).filter fun b => nbit o.wmask b || (ecc && b % 9 == 8)).map fun b =>
      (memBit o.width o.word b, nbit (o.wrote ecc old) b)

/-- The read output of an operation (R332, R333): OLD, NEW or KEEP during a write. Bits that the other port, on another tree,
writes in the same cycle are old or new. -/
def State.memRead (s : State) (k port : Nat) (ecc : Bool) (o : MemOp) (other : List (Nat × Bool)) : Option (Nat × Nat) :=
  let old := s.memWord k o
  let seen := maskOf o.width fun b =>
    match other.lookup (memBit o.width o.word b) with
    | some v => if Config.rimRace k (memBit o.width o.word b) s.now then v else nbit old b
    | none => nbit old b
  if o.wmask ≠ 0 ∧ o.mode = 2 then kvGet none s.rim.memOut (2 * k + port)
  else
    let w := if o.wmask ≠ 0 ∧ o.mode = 1 then o.wrote ecc old else seen
    some (if ecc then eccRead w else (w, 0))

/-- The ports of a memory whose trees have an edge work on the contents before it (R331 to R333): on one tree a write on both
stores port A's bit and a read sees the old one; on different trees either value may win. -/
def memEdge (ts : List Nat) (s0 : State) (s : State) (k : Nat) : State :=
  let d := s0.memFrame k
  let ecc := memEcc d
  let act := fun port => if ts.contains (portTree d port) then s0.memOp k port else none
  let a := act 0
  let b := act 1
  let wr := fun (o : Option MemOp) => ((o.map fun o => o.writes ecc (s0.memWord k o))).getD []
  let apart := portTree d 0 != portTree d 1
  let keepB := (wr b).map fun e =>
    match (wr a).lookup e.1 with
    | some v => (e.1, if apart && !Config.rimRace k e.1 s0.now then e.2 else v)
    | none => e
  let out := fun (port : Nat) (o : Option MemOp) (other : List (Nat × Bool)) (s : State) =>
    match o with
    | none => s
    | some o => { s with rim := { s.rim with
        memOut := kvSet none s.rim.memOut (2 * k + port) (s0.memRead k port ecc o (if apart then other else [])) } }
  let s1 := out 1 b (wr a) (out 0 a (wr b) s)
  (wr a ++ keepB).foldl (setContent k) s1

/-- The configured block memories. -/
def State.memList (s : State) : List Nat :=
  s.rim.frames.filterMap fun (e : Nat × Nat) => if rfaType e.1 = 2 then some (rfaUnit e.1) else none

/-! ### Pins (R364, R368, R369, R372, R376, R439) -/

/-- The pin whose routing carries a pin's data: the even pin of a differential pair, else itself (R364). -/
def pinLead (d p : Nat) : Nat := if nbit (pinBits d (p - p % 2)) 6 then p - p % 2 else p

/-- The level that a pin drives, none where it is high-impedance (R364, R376, R439): the scan cell's during EXTEST, that of
routing in a released bank, inverted on the odd pin of a differential pair. -/
def State.pinDrive (s : State) (b p : Nat) : Option Bool :=
  let d := s.bankFrame b
  let x := s.bank b
  let q := pinLead d p
  if x.st == .off then none
  else if s.fbit F.DBG_STAT_EXTEST then Config.scanCell b p s.now
  else if x.st != .released || !nbit (pinBits d q) 12 then none
  else
    let reg := nbit (pinBits d q) 15
    let data := if reg then nbit x.outReg q else s.sinkVal none (.pinData b q)
    let en := if reg then nbit x.oeReg q else s.sinkVal none (.pinEnable b q)
    if en then some (data ^^ decide (p ≠ q)) else none

/-- The weak pull on a pin, as RIM_IOSTAT codes the strap (R364, R372, R376): 0 none, 1 down, 2 up. While the open-wire check of
CHECK runs it is up, then down (R374). -/
def State.pinPull (s : State) (b p : Nat) : Nat :=
  let x := s.bank b
  match x.st with
  | .off => 0
  | .released => match nbits (pinBits (s.bankFrame b) p) 4 2 with | 0 => x.strap | 1 => 0 | 2 => 2 | _ => 1
  | _ => x.strap

/-- Drive strength in mA, edge time in half ns, and termination of a pin of a released bank (R364, R368). -/
def State.pinMilliamp (s : State) (b p : Nat) : Nat := [4, 8, 12, 16].getD (nbits (pinBits (s.bankFrame b) p) 0 2) 16
def State.pinEdge (s : State) (b p : Nat) : Nat := [8, 4, 2, 1].getD (nbits (pinBits (s.bankFrame b) p) 2 2) 1
def State.pinTerm (s : State) (b p : Nat) : Bool := (s.bank b).st == .released && nbit (pinBits (s.bankFrame b) (p - p % 2)) 7

/-- One ns on the inputs of a released bank: a pin that drives shows its own level, and FILT_A passes a level that has stood for
its width of 0.5, 1 or 2 ns (R369). -/
def padTick (b : Nat) (s : State) : State :=
  if (s.bank b).st != .released then s
  else
    let d := s.bankFrame b
    let driven := (List.range 48).filterMap fun p => (s.pinDrive b p).map fun v => (p, v)
    s.modBank b fun x =>
      let y := { x with pads := driven.foldl (fun m e => kvSet none m e.1 (some e.2)) x.pads }
      (List.range 48).foldl (fun y p =>
        let n := kvGet 0 y.faCnt p + 1
        if padLevel y b p == nbit y.fa p then { y with faCnt := kvSet 0 y.faCnt p 0 }
        else if 500 * 2 ^ (nbits (pinBits d p) 8 2 - 1) ≤ 1000 * n then
          { y with fa := putBit y.fa p (padLevel y b p), faCnt := kvSet 0 y.faCnt p 0 }
        else { y with faCnt := kvSet 0 y.faCnt p n }) y

/-- An edge of a bank's tree: FILT_D samples, and the input and output registers load, all from the state before it (R364,
R369). -/
def bankEdge (ts : List Nat) (s0 : State) (s : State) (b : Nat) : State :=
  let d := s0.bankFrame b
  let x0 := s0.bank b
  if x0.st != .released || !ts.contains (nbits d 772 3) then s
  else s.modBank b fun x =>
    let y := (List.range 48).foldl (fun (y : Bank) p =>
      let v := faLevel d x0 b p
      let n := kvGet 0 y.fdCnt p + 1
      if v == nbit y.fd p then { y with fdCnt := kvSet 0 y.fdCnt p 0 }
      else if 2 ^ nbits (pinBits d p) 10 2 ≤ n then { y with fd := putBit y.fd p v, fdCnt := kvSet 0 y.fdCnt p 0 }
      else { y with fdCnt := kvSet 0 y.fdCnt p n }) x
    { y with
      inReg := maskOf 48 fun p => fdLevel d x0 b p
      outReg := maskOf 48 fun p => s0.sinkVal none (.pinData b p)
      oeReg := maskOf 48 fun p => s0.sinkVal none (.pinEnable b p) }

/-! ### Clocking (R334, R335, R363) -/

/-- The phase of a tree after a ns, and whether an edge came: a PLL output of 100 M / (N DIV) MHz advances by M of 10 N DIV
parts (R334). -/
def State.treePhase (s : State) (t : Nat) : Nat × Bool :=
  let src := nbits (s.treeFrame t) 0 4
  let f := s.pllFrame (src / 2)
  let per := 10 * pllN f * pllDiv f (src % 2)
  let ph := kvGet 0 s.rim.phase t + pllM f
  if per ≤ ph then (ph - per, true) else (ph, false)

/-- The clock-capable inputs that are high (R363): pin 00 of each released bank, or its pair. -/
def State.clockPins (s : State) : Nat :=
  maskOf 8 fun b => (s.bank b).st == .released && !s.fbit F.DBG_STAT_EXTEST && faLevel (s.bankFrame b) (s.bank b) b 0

/-- The trees that have a rising edge in this ns (R334, R335, R363). -/
def State.treeEdges (s : State) : List Nat :=
  (List.range 8).filter fun t =>
    let src := nbits (s.treeFrame t) 0 4
    s.treeRuns t &&
      (if src < 8 then (s.treePhase t).2 else nbit s.clockPins (src - 8) && !nbit s.rim.clk (src - 8))

/-- An edge of the given trees: everything they clock works on the state before it. An edge of the step-lane tree opens a new
cycle for the groups (R330, R331, R343, R364). -/
def rimEdge (ts : List Nat) (s0 : State) : State :=
  let s1 := ffEdge ts s0 s0
  let s2 := s0.memList.foldl (memEdge ts s0) s1
  let s3 := (List.range 8).foldl (bankEdge ts s0) s2
  if ts.contains (nbits s0.slFrame 0 3) then
    (List.range 16).foldl (fun s g => s.modGroup g fun x => { x with inMoved := 0, outMoved := 0 }) s3
  else s3

/-- One ns of the rim once a base is in effect (log 62). -/
def rimTick (s0 : State) : State :=
  if !s0.rim.base then s0
  else
    let s := (List.range 8).foldl (fun s b => padTick b s) s0
    let ts := s.treeEdges
    let s1 := if ts.isEmpty then s else rimEdge ts s
    let run := (List.range 8).filter fun t => s.treeRuns t && decide (nbits (s.treeFrame t) 0 4 < 8)
    ffReset { s1 with rim := { s1.rim with
      phase := run.foldl (fun m t => kvSet 0 m t (s.treePhase t).1) s1.rim.phase, clk := s.clockPins } }

end Sys2Proof.Machine
end

