-- ==== Sys2Proof/Machine/Tick.lean ====
section
/-! DEFINITION. Tick.lean: one ns passes while no command waits (log 2): platform time, the timer of an ellipsis, the
clock trees of the rim and the key windows advance (R32, R34, R330 to R335, R520, R569, R570, R579). -/
namespace Sys2Proof.Machine

/-- Platform time advances by 1 per ns of REF-derived time; with MODE = 1 at the rate slewed by the correction, in ppb (R569,
R570). -/
def ptimeTick (s : State) : State :=
  if s.ptRun then
    let corr := if s.fbit F.PLT_PTCTL_MODE then s.plt.corr else 0
    let f := s.plt.ptFrac + (1000000000 + corr).toNat
    { s with ptime := (s.ptime + f / 1000000000) % 2 ^ 64, plt := { s.plt with ptFrac := f % 1000000000 } }
  else s

/-- What is left of a key window after one MGT cycle of 1 ns (R520, R579). -/
def windowTick : Option Nat → Option Nat
  | some (n + 1) => some n
  | _ => none

/-- The watchdog key window of a pair runs while the pair is not halted (R520). -/
def kickTick (p : Nat) (s : State) : State :=
  if (s.pair p).halted then s else s.modPair p fun x => { x with kickLeft := windowTick x.kickLeft }

/-- The key window of PLT_RST runs; one that the control pair opened only while that pair is not halted (R579). -/
def rstTick (s : State) : State :=
  match s.plt.rstLeft with
  | none => s
  | some (n, p) =>
    if p && (s.pair 0).halted then s
    else { s with plt := { s.plt with rstLeft := (windowTick (some n)).map fun k => (k, p) } }

/-- The flash controller after a reset (R516): FL_RESET_N low for 10 µs, then the SFDP table tells the mode. -/
def flashTick (s : State) : State :=
  match s.mgt.flReset with
  | 0 => s
  | n + 1 =>
    if s.plt.inReset then s
    else { s with mgt := { s.mgt with flReset := n, fl8d := if n = 0 then Config.flash8D else s.mgt.fl8d } }

/-- The control pair's firmware writes a calibration record, body first (R573): at most once in 24 h, and only when a stored
value has changed by more than its tolerance. Which, where and when are free values (log 64). -/
def calTick (s : State) : State :=
  let x := s.pair 0
  let due := match s.mgt.calAt with | none => true | some t => decide (t + 86400000000000 ≤ s.now)
  if s.plt.inReset || x.held || x.halted || x.restarting || s.mgt.boot.isSome || s.mgt.flash.isSome || !due ||
      !Config.calChanged s.now then s
  else
    let body := (Config.calBody s.now).take 0x1000
    let at_ := 0x10000 + Config.calPlace s.now % 0x6EF00
    { (s.flashWrite at_ body).flashWrite (at_ + body.length) (leBytes 4 0x5AC33CA5) with
      mgt := { s.mgt with calAt := some s.now } }

/-- One ns passes; an ellipsis is timed in the platform time that passes with it (R32, R34). A service request whose CODE is
not listed is answered in its turn (R527). -/
def tick (s : State) : State :=
  let s1 := ptimeTick { s with now := s.now + 1 }
  svcUnlisted <| calTick <| flashTick (rstTick (kickTick 1 (kickTick 0 (rimTick (ellipsisTick ((s1.ptime + 2 ^ 64 - s.ptime) % 2 ^ 64) s1)))))

end Sys2Proof.Machine
end

