-- ==== Sys2Proof/WellFormed.lean ====
section
/-! DEFINITION. WellFormed.lean: which commands are well-formed: every number operand names something the device has. The
model gives every command a meaning, a well-formed one or not; the statements that need a range take it from here. -/
namespace Sys2Proof

/-- The number operands of a command and the lengths of its lists, each with the bound below which the manual has it: 64
clauses of 65 phrases and 512 BPs (R60, R63), 256 lexicon banks of 8,192 words (R206), 4 HBM stacks (R218), 32 links (R238), 80
routers (R451), and so on. An operand that counts or indexes what waits has no bound. -/
def Instr.bounds (i : Instr) : List (Nat × Nat) :=
  match i with
  | .stepExecute _ => []
  | .ellipsisEnd _ => []
  | .seqLongEllipsis => []
  | .run => []
  | .step1 => []
  | .ucyc1 => []
  | .stop => []
  | .stopatEnable => []
  | .checkpointComplete _ _ => []
  | .seqTmr _ => []
  | .dictSweepRead c phrase e _ => [(c, 64), (phrase, 65), (e, 1024)]
  | .dictUeRewrite c e => [(c, 64), (e, 1024)]
  | .clsSpareGo c target => [(c, 64), (target, 128)]
  | .migrationComplete c mismatches cycles => [(c, 64), (mismatches, 2 ^ 32), (cycles, 2 ^ 32)]
  | .spareMarchPass c _ => [(c, 64)]
  | .lexAccessServe bank _ => [(bank, 256)]
  | .lexNocServe bank _ => [(bank, 256)]
  | .memNocStarve _ => []
  | .memReturnArrive m => [(m, 256)]
  | .hbmReturn m _ => [(m, 256)]
  | .hbmRefresh stack _ => [(stack, 4)]
  | .hbmTempRead stack _ => [(stack, 4)]
  | .memCalGo _ => []
  | .calSliceEnd stack _ lanes ns => [(stack, 4), (lanes, 2 ^ 32), (ns, 2 ^ 32)]
  | .memLretGo bank word => [(bank, 256), (word, 8192)]
  | .lretComplete mismatches => [(mismatches, 2 ^ 32)]
  | .memHretGo stack => [(stack, 4)]
  | .hretComplete mismatches => [(mismatches, 2 ^ 32)]
  | .fabIsoRequest c _ => [(c, 64)]
  | .fabRelRequest c => [(c, 64)]
  | .isoBoundaryApply => []
  | .fabAgreeCommit _ => []
  | .readRepairWriteback c row word => [(c, 64), (row, 16384), (word, 128)]
  | .scrubRowRead c _ => [(c, 64)]
  | .paramCheck _ struck => [((struck.getD (0, 0)).1, 2 ^ 32), ((struck.getD (0, 0)).2, 2 ^ 32)]
  | .schParam => []
  | .schRmapGo c row => [(c, 64), (row, 16384)]
  | .rmapComplete mismatches => [(mismatches, 2 ^ 32)]
  | .schPatchApply => []
  | .patchBoundaryHold => []
  | .patchHoldEnd => []
  | .idleSuperframeSend l => [(l, 32)]
  | .superframeReceive l _ fecFix fecUe => [(l, 32), (fecFix, 2 ^ 32), (fecUe.getD 0, 2 ^ 32)]
  | .retryTimeout l => [(l, 32)]
  | .resumeWordReceive l _ => [(l, 32)]
  | .fenceWordReceive l _ _ => [(l, 32)]
  | .peerItemReceive l item _ => [(l, 32), (item, 16)]
  | .laneWordReceive l op lane => [(l, 32), (op, 16), (lane, 4)]
  | .msgWordReceive l _ => [(l, 32)]
  | .peerRepeat l => [(l, 32)]
  | .lnkEnable l => [(l, 32)]
  | .lnkDisable l => [(l, 32)]
  | .trainComplete l _ => [(l, 32)]
  | .trainTimeout l => [(l, 32)]
  | .framingLock l trip decode => [(l, 32), (trip, 2 ^ 32), (decode, 2 ^ 32)]
  | .partnerModeDetect l => [(l, 32)]
  | .modeRetry l => [(l, 32)]
  | .modeWindowClose l => [(l, 32)]
  | .identComplete l _ plink => [(l, 32), (plink, 32)]
  | .framingLost l => [(l, 32)]
  | .resumeComplete l _ => [(l, 32)]
  | .resumeTimeout l => [(l, 32)]
  | .partnerOffReport l => [(l, 32)]
  | .lnkSpareGo l lane => [(l, 32), (lane, 4)]
  | .laneLoss l lane => [(l, 32), (lane, 4)]
  | .laneSpareComplete l _ => [(l, 32)]
  | .spareLaneTrained l => [(l, 32)]
  | .spareRetrainTimer l => [(l, 32)]
  | .eyeScan l lane height width => [(l, 32), (lane, 4), (height, 65536), (width, 65536)]
  | .lnkDevnumStart => []
  | .lnkTopo self base _ nums _ => [(self, nums.length), (base, 2 ^ 18)]
  | .devnumWrite _ => []
  | .rimPllUnlock p => [(p, 4)]
  | .rimPllRelock p => [(p, 4)]
  | .rimOnehot rfa mux => [(rfa, 2 ^ 32), (mux, 2 ^ 32)]
  | .rimOutboundRead g => [(g, 16)]
  | .rimInboundWrite g _ => [(g, 16)]
  | .rimPrcFence region => [(region, 16)]
  | .rimPrcRel region => [(region, 16)]
  | .rimFrameScrub _ => []
  | .rimParam => []
  | .rimPortRequest port _ addr size tag _ => [(port, 4), (addr, 2 ^ 48), (size, 257), (tag, 64)]
  | .vccioGood b mv strap => [(b, 8), (mv, 65536), (strap, 3)]
  | .vccioLost b mv => [(b, 8), (mv, 65536)]
  | .rimRel b => [(b, 8)]
  | .rimDis b => [(b, 8)]
  | .bankCheckComplete b _ _ => [(b, 8)]
  | .keySample b _ => [(b, 8)]
  | .rimIoShort b pin _ => [(b, 8), (pin, 48)]
  | .sigStart => []
  | .sigStop => []
  | .sigPostEnd => []
  | .captureDrain => []
  | .capOverflow _ => []
  | .mtStart => []
  | .mtStop => []
  | .tuEnable u _ => [(u, 16)]
  | .tuDisable u => [(u, 16)]
  | .tuRegWrite u off _ => [(u, 16), (off, 32)]
  | .pinCrossing bank pin _ _ mv fine => [(bank, 8), (pin, 48), (mv, 65536), (fine, 65536)]
  | .triggerFire u ticks => [(u, 16), (ticks, 65536)]
  | .holdoffEnd u => [(u, 16)]
  | .dbgAuthPassword _ level => [(level, 4)]
  | .dbgAuthKeyx _ level => [(level, 4)]
  | .keyxTimeout => []
  | .dbgAuthDrop _ => []
  | .dbgAccessRead => []
  | .dbgAccessWrite => []
  | .read _ c bp _ entry => [(c, 64), (bp, 512), (entry, 256)]
  | .deposit _ c bp _ entry _ => [(c, 64), (bp, 512), (entry, 256)]
  | .force _ c bp _ entry _ => [(c, 64), (bp, 512), (entry, 256)]
  | .release _ c bp _ entry => [(c, 64), (bp, 512), (entry, 256)]
  | .cqread _ c bp slot => [(c, 64), (bp, 512), (slot, 256)]
  | .relall _ => []
  | .arrDeferredStart => []
  | .dbgHalt _ => []
  | .dbgResume _ => []
  | .dbgStep _ _ => []
  | .pairHalt pair _ => [(pair, 2)]
  | .pairHaltComplete pair priv _ _ => [(pair, 2), (priv, 4)]
  | .pairResume _ pair => [(pair, 2)]
  | .pairStep _ pair _ => [(pair, 2)]
  | .xtrigIn ch => [(ch, 4)]
  | .testLogicReset => []
  | .extest => []
  | .samplePreload => []
  | .idcode => []
  | .dbgacc _ addr _ => [(addr, 2 ^ 48)]
  | .bypass _ => []
  | .nocPacketForward router port _ => [(router, 80), (port, 6)]
  | .ageIncrement router => [(router, 80)]
  | .nocPacketReceive router _ => [(router, 80)]
  | .nocTimeout _ => []
  | .nocRtFlip => []
  | .oldEpochDrained => []
  | .nocAgreeCommit _ => []
  | .dlmodeSwitch row => [(row, 8)]
  | .bar2Read off size => [(off, 2 ^ 36), (size, 4097)]
  | .bar2Write off _ => [(off, 2 ^ 36)]
  | .eventDoorbell r _ => [(r, 4)]
  | .dmaDoorbell c _ => [(c, 16)]
  | .pcieReset _ => []
  | .dmaEnable c _ => [(c, 16)]
  | .dmaDisable c _ => [(c, 16)]
  | .dmaDescComplete c desc _ => [(c, 16), (desc.length, 33)]
  | .hifDmaErr c err status => [(c, 16), (err, 8), (status, 256)]
  | .eventAccept _ => []
  | .eventRingWrite => []
  | .msixCoalesceExpire r => [(r, 4)]
  | .ringFullResignal => []
  | .eventRingEnable r _ => [(r, 4)]
  | .mgtLockstep pair _ => [(pair, 2)]
  | .pairRestartComplete pair => [(pair, 2)]
  | .mgtWdtEnable pair _ => [(pair, 2)]
  | .wdtKick pair _ => [(pair, 2)]
  | .mgtWdt pair => [(pair, 2)]
  | .program _ => []
  | .erase4k _ => []
  | .erase64k _ => []
  | .flashCmdComplete _ => []
  | .mgtFpApply => []
  | .codebaseWrite _ _ => []
  | .swapOk => []
  | .swapTimeout => []
  | .load slot _ => [(slot, 4)]
  | .fwUpdate slot _ => [(slot, 4)]
  | .fwSwap slot => [(slot, 4)]
  | .fwHotfix slot _ => [(slot, 4)]
  | .patchSet slot => [(slot, 4)]
  | .logRead slot => [(slot, 4)]
  | .info slot => [(slot, 4)]
  | .restore slot _ _ _ => [(slot, 4)]
  | .attest slot nonce => [(slot, 4), (nonce.length, 33)]
  | .loadBegin => []
  | .frameReceive bytes _ => [(bytes.length, 529)]
  | .reloadBoundaryHold => []
  | .bootTimeout => []
  | .bootOk => []
  | .tokenLoad slot => [(slot, 16)]
  | .tokenUnload slot => [(slot, 16)]
  | .fuseProgram _ word _ => [(word, 128)]
  | .oppWrite code => [(code, 4)]
  | .oppSettle => []
  | .sscWrite _ => []
  | .thrminWrite _ => []
  | .rootPllFail kind => [(kind, 4)]
  | .swreq => []
  | .switchoverComplete => []
  | .rootRetrain _ => []
  | .sensorSample temps => [(temps.length, 49)]
  | .throttleUpdate _ powerW => [(powerW, 65536)]
  | .droopDetect monitor mv => [(monitor, 96), (mv, 65536)]
  | .thermtrip sensor => [(sensor, 48)]
  | .pltAvs kind measured => [(kind, 4), (measured, 65536)]
  | .agingCheck counts => [(counts.length, 33)]
  | .ppsLoad => []
  | .ppsEdge => []
  | .ppsMissing => []
  | .calSchedule _ => []
  | .pgreqGate domain => [(domain, 32)]
  | .pgreqPower domain => [(domain, 32)]
  | .domainReady domain => [(domain, 32)]
  | .pltRstKey _ _ => []
  | .deviceReset _ => []
  | .rootLock => []
  | .hbmTrainComplete stack => [(stack, 4)]
  | .smbTmax => []
  | .smbThrottle => []
  | .smbRstcause => []
  | .smbAlertStatus => []
  | .smbVddStepMv => []
  | .smbVddStepPower => []
  | .sparingDecision _ => []
  | .lifeRecord _ _ => []
  | .mbxItemRead _ page item _ => [(page, 2 ^ 25), (item, 65536)]
  | .mbxItemWrite _ page item _ => [(page, 2 ^ 25), (item, 65536)]
  | .bitAliasWrite _ addr _ => [(addr, 2 ^ 26)]
  | .registerWrite _ addr size _ => [(addr, 2 ^ 26), (size, 9)]
  | .registerRead _ addr size => [(addr, 2 ^ 26), (size, 9)]
  | .hifLink speed width _ _ => [(speed, 16), (width, 4)]
  | .busMasterEnable _ => []
  | .standbyRootFail kind => [(kind, 4)]
  | .droopRelease => []
  | .avsDeviationClear => []
  | .porstNRelease => []
  | .mgtSramScrub addr _ => [(addr, 2 ^ 48)]

/-- A command is well-formed: every operand lies below its bound. -/
def Instr.wf (i : Instr) : Bool := i.bounds.all fun b => decide (b.1 < b.2)

end Sys2Proof
end

