-- ==== Sys2Proof/Safety.lean ====
section
/-! DEFINITION. Safety.lean: what counts as a sound state and as a step that goes on, in the terms the statements use. -/
namespace Sys2Proof.Machine

/-- The stored bytes are in canonical form: user memory and management SRAM, and the flash. Equal contents are then equal
data. -/
def State.sound (s : State) : Bool := Memory.wf s.mem && Flash.wf s.flash

/-- A command leads to a next state with property P. -/
def leads (i : Instr) (s : State) (P : State → Prop) : Prop := ∃ t, exec i s = .next t ∧ P t

/-- The commands that write a register word as it is given, or reach a register through an access: they alone can stop, on
reserved bits that are not kept and on units that the manual does not describe (R10). Every other command completes in every
state. -/
def mayStop : Instr → Bool
  | .registerWrite .. | .bitAliasWrite .. | .mbxItemRead .. | .mbxItemWrite .. | .dbgAccessRead | .dbgAccessWrite | .dbgacc ..
  | .nocPacketReceive .. | .tuEnable .. | .tuRegWrite .. | .dmaEnable .. | .dmaDisable .. | .eventRingEnable .. | .devnumWrite ..
  | .codebaseWrite .. => true
  | _ => false

/-- No calibration slice holds the memory that a service request names (R222). -/
def State.svcFree (s : State) (slot : Nat) : Bool :=
  !s.rangeHeld (s.reqAddr slot) (s.reqLen slot) && !s.rangeHeld (s.reqAddr2 slot) (s.reqLen2 slot)

/-- The index of the block whose span holds a register field (R17, R608); 14 for no block. -/
def Fld.block (f : Fld) : Nat := (blockOf (f.key / 32)).getD 14

/-- From s to t no register field changes but those listed. -/
def onlyFields (fs : List Fld) (s t : State) : Prop := ∀ g : Fld, (∀ f ∈ fs, g.key ≠ f.key) → t.fget g = s.fget g

/-- From s to t a saturating count goes up by one (R145, R202, R235, R270, R359, R478, R510). -/
def counted (f : Fld) (s t : State) : Prop := t.fget f = min (2 ^ f.width - 1) (s.fget f + 1)

/-- An event: its bit of BLK_EVT is set, and while its bit of BLK_EVTEN is 1 one record is posted, with the step and the
platform time of the state it was raised in (R494, R612). -/
def posted (f : Fld) (src code : Nat) (payload : List Nat) (s t : State) : Prop :=
  t.fget f = 1 ∧ t.evq = s.evq ++
    (if s.fbit (evten f) then [{ src := src, code := code, payload := payload, step := s.seq.step, time := s.ptime }] else [])

/-- A rim I/O event of code 0x10 + k: bit k of RIM_EVT.IO is set, and while its enable bit is 1 one record is posted (R357,
R384, R612). -/
def postedIo (k : Nat) (payload : List Nat) (s t : State) : Prop :=
  nbit (t.fget F.RIM_EVT_IO) k = true ∧ t.evq = s.evq ++
    (if nbit (s.fget F.RIM_EVTEN_IO) k then
      [{ src := 11, code := 0x10 + k, payload := payload, step := s.seq.step, time := s.ptime }] else [])

/-- The superframe that an output is, if it is one (R240). -/
def Emit.frame? : Emit → Option (Nat × Superframe)
  | .superframe l f => some (l, f)
  | _ => none

/-- From s to t exactly these superframes leave, each by its link (R240). -/
def sentFrames (fs : List (Nat × Superframe)) (s t : State) : Prop :=
  ∃ e, t.out = s.out ++ e ∧ e.filterMap Emit.frame? = fs

/-- From s to t no step executes, no clause state changes and no byte of memory changes. -/
def steady (s t : State) : Prop := t.seq = s.seq ∧ t.clauses = s.clauses ∧ t.mem = s.mem

/-- From s to t, besides registers and events, nothing changes but link l. -/
def onlyLink (l : Nat) (s t : State) : Prop := steady s t ∧ ∀ k, k ≠ l → t.link k = s.link k

/-- A service slot is answered (R527, R528): its GO bit is 0 and the others stand, D0 of its response item holds STATUS, TAG
and the event code, the words of d follow it, and MGT_SVC is the last event raised. -/
def answered (slot status ev : Nat) (d : List Nat) (s t : State) : Prop :=
  (∀ k, k < 4 → nbit (t.fget F.MGT_SVC_GO) k = (nbit (s.fget F.MGT_SVC_GO) k && k != slot)) ∧
  fieldOf (kvGet 0#128 t.mgt.rsp (2 * slot)) 0 32 = status * 2 ^ 24 + s.reqTag slot * 2 ^ 16 + ev ∧
  (∀ k v, k < 3 → d[k]? = some v → fieldOf (kvGet 0#128 t.mgt.rsp (2 * slot)) (32 + 32 * k) 32 = v % 2 ^ 32) ∧
  t.fget F.MGT_EVT_SVC = 1 ∧
  (s.fbit (evten F.MGT_EVT_SVC) = true → t.evq.getLast? = some
    { src := 2, code := 4, payload := [slot, s.reqCode slot, status, s.reqTag slot], step := t.seq.step, time := t.ptime })

/-! ### Frames -/

/-- The blocks of the register map (R17). -/
inductive Blk where
  | plt | sec | mgt | hif | noc | seq | sch | cls | fab | lnk | mem | rim | cap | dbg
  deriving DecidableEq, Repr

/-- The index of a block (R17). -/
def Blk.index : Blk → Nat
  | .plt => 0
  | .sec => 1
  | .mgt => 2
  | .hif => 3
  | .noc => 4
  | .seq => 5
  | .sch => 6
  | .cls => 7
  | .fab => 8
  | .lnk => 9
  | .mem => 10
  | .rim => 11
  | .cap => 12
  | .dbg => 13

/-- The parts of the state: the fields of State beside the queue, and the register fields block by block. -/
inductive Part where
  | out
  | now
  | ptime
  | ptRun
  | free
  | mem
  | flash
  | evq
  | mbx
  | seq
  | clauses
  | fab
  | sch
  | umem
  | links
  | fp
  | load
  | rim
  | cap
  | dbg
  | noc
  | hif
  | mgt
  | sec
  | plt
  | regs (b : Blk)
  deriving DecidableEq, Repr

/-- A part of the state is the same in two states. -/
def State.same (s t : State) : Part → Prop
  | .out => t.out = s.out
  | .now => t.now = s.now
  | .ptime => t.ptime = s.ptime
  | .ptRun => t.ptRun = s.ptRun
  | .free => t.free = s.free
  | .mem => t.mem = s.mem
  | .flash => t.flash = s.flash
  | .evq => t.evq = s.evq
  | .mbx => t.mbx = s.mbx
  | .seq => t.seq = s.seq
  | .clauses => t.clauses = s.clauses
  | .fab => t.fab = s.fab
  | .sch => t.sch = s.sch
  | .umem => t.umem = s.umem
  | .links => t.links = s.links
  | .fp => t.fp = s.fp
  | .load => t.load = s.load
  | .rim => t.rim = s.rim
  | .cap => t.cap = s.cap
  | .dbg => t.dbg = s.dbg
  | .noc => t.noc = s.noc
  | .hif => t.hif = s.hif
  | .mgt => t.mgt = s.mgt
  | .sec => t.sec = s.sec
  | .plt => t.plt = s.plt
  | .regs b => ∀ f : Fld, f.block = b.index → t.fget f = s.fget f

/-- Every part. -/
def Part.all : List Part :=
  [.out, .now, .ptime, .ptRun, .free, .mem, .flash, .evq, .mbx, .seq, .clauses, .fab, .sch, .umem, .links, .fp, .load, .rim, .cap, .dbg, .noc, .hif, .mgt, .sec, .plt,
   .regs .plt, .regs .sec, .regs .mgt, .regs .hif, .regs .noc, .regs .seq, .regs .sch, .regs .cls, .regs .fab, .regs .lnk, .regs .mem, .regs .rim, .regs .cap, .regs .dbg]

/-- Every part but those of a list. -/
def Part.allBut (ps : List Part) : List Part := Part.all.filter fun p => !ps.contains p

/-- The parts of the state that a command may change: everything else it leaves as it is. -/
def touches : Instr → List Part
  | .stepExecute _ => [.out, .free, .mem, .evq, .seq, .clauses, .fab, .sch, .umem, .links, .load, .rim, .cap, .mgt, .sec,
      .plt, .regs .plt, .regs .seq, .regs .sch, .regs .cls, .regs .fab, .regs .mem, .regs .cap, .regs .dbg]
  | .ellipsisEnd _ => [.out, .free, .mem, .evq, .seq, .clauses, .fab, .sch, .umem, .links, .load, .rim, .cap, .mgt, .sec,
      .plt, .regs .plt, .regs .seq, .regs .sch, .regs .cls, .regs .fab, .regs .mem, .regs .cap, .regs .dbg]
  | .seqLongEllipsis => [.evq, .seq, .regs .seq]
  | .run => [.evq, .seq, .cap, .sec, .regs .seq]
  | .step1 => [.evq, .seq, .cap, .sec, .regs .seq]
  | .ucyc1 => [.evq, .seq, .cap, .sec, .regs .seq]
  | .stop => [.seq, .links]
  | .stopatEnable => [.evq, .regs .seq]
  | .checkpointComplete _ _ => [.out, .mem, .evq, .seq, .umem, .mgt, .regs .seq, .regs .mem]
  | .seqTmr _ => [.evq, .regs .seq]
  | .dictSweepRead _ _ _ _ => [.free, .mem, .evq, .clauses, .sch, .umem, .rim, .mgt, .regs .cls]
  | .dictUeRewrite _ _ => [.clauses]
  | .clsSpareGo _ _ => [.evq, .clauses, .regs .cls]
  | .migrationComplete _ _ _ => [.out, .free, .mem, .flash, .evq, .seq, .clauses, .sch, .umem, .load, .cap, .mgt,
      .regs .mgt, .regs .seq, .regs .sch, .regs .cls, .regs .mem]
  | .spareMarchPass _ _ => [.clauses]
  | .lexAccessServe _ _ => [.free, .mem, .evq, .clauses, .sch, .umem, .rim, .mgt, .regs .mem]
  | .lexNocServe _ _ => [.out, .free, .mem, .evq, .clauses, .sch, .umem, .rim, .dbg, .noc, .mgt, .regs .hif, .regs .mem,
      .regs .dbg]
  | .memNocStarve _ => [.evq, .umem, .regs .mem]
  | .memReturnArrive _ => [.umem]
  | .hbmReturn _ _ => [.free, .mem, .evq, .clauses, .sch, .umem, .rim, .mgt, .regs .mem]
  | .hbmRefresh _ _ => []
  | .hbmTempRead _ _ => [.regs .mem]
  | .memCalGo _ => [.plt, .regs .mem]
  | .calSliceEnd _ _ _ _ => [.out, .mem, .evq, .umem, .dbg, .noc, .mgt, .regs .plt, .regs .hif, .regs .mem, .regs .dbg]
  | .memLretGo _ _ => [.free, .evq, .umem, .regs .mem]
  | .lretComplete _ => [.flash, .evq, .umem, .mgt, .regs .mem]
  | .memHretGo _ => [.free, .evq, .umem, .regs .mem]
  | .hretComplete _ => [.mem, .flash, .evq, .umem, .mgt, .regs .mem]
  | .fabIsoRequest _ _ => [.evq, .clauses, .fab, .regs .fab]
  | .fabRelRequest _ => [.evq, .clauses, .fab, .regs .fab]
  | .isoBoundaryApply => [.evq, .clauses, .fab, .regs .fab]
  | .fabAgreeCommit _ => [.free, .evq, .fab, .regs .fab]
  | .readRepairWriteback _ _ _ => [.clauses]
  | .scrubRowRead _ _ => [.free, .mem, .evq, .clauses, .sch, .umem, .rim, .mgt, .regs .sch]
  | .paramCheck _ _ => [.evq, .sch, .rim, .regs .sch, .regs .rim]
  | .schParam => [.evq, .sch, .regs .sch]
  | .schRmapGo _ _ => [.free, .evq, .sch, .regs .sch]
  | .rmapComplete _ => [.free, .flash, .evq, .clauses, .sch, .mgt, .regs .sch]
  | .schPatchApply => [.free, .evq, .clauses, .sch, .cap, .regs .sch]
  | .patchBoundaryHold => [.sch]
  | .patchHoldEnd => [.free, .evq, .clauses, .sch, .load, .cap, .mgt, .regs .mgt, .regs .sch]
  | .idleSuperframeSend _ => [.out, .links]
  | .superframeReceive _ _ _ _ => [.out, .free, .mem, .evq, .seq, .umem, .links, .fp, .cap, .mgt, .regs .plt, .regs .seq,
      .regs .lnk, .regs .mem, .regs .cap, .regs .dbg]
  | .retryTimeout _ => [.links]
  | .resumeWordReceive _ _ => [.out, .links]
  | .fenceWordReceive _ _ _ => [.out, .free, .mem, .evq, .seq, .umem, .links, .cap, .mgt, .regs .seq, .regs .mem,
      .regs .cap, .regs .dbg]
  | .peerItemReceive _ _ _ => [.evq, .links, .fp, .regs .lnk]
  | .laneWordReceive _ _ _ => [.evq, .links, .regs .plt, .regs .lnk]
  | .msgWordReceive _ _ => [.evq, .links, .regs .lnk]
  | .peerRepeat _ => [.links]
  | .lnkEnable _ => [.links, .regs .lnk]
  | .lnkDisable _ => [.links, .regs .lnk]
  | .trainComplete _ _ => [.links, .regs .lnk]
  | .trainTimeout _ => [.links, .regs .lnk]
  | .framingLock _ _ _ => [.links]
  | .partnerModeDetect _ => [.evq, .links, .regs .lnk]
  | .modeRetry _ => [.links]
  | .modeWindowClose _ => [.free, .mem, .evq, .seq, .clauses, .sch, .umem, .links, .load, .rim, .cap, .mgt, .plt,
      .regs .plt, .regs .mgt, .regs .seq, .regs .sch, .regs .cls, .regs .lnk, .regs .mem, .regs .rim, .regs .cap]
  | .identComplete _ _ _ => [.free, .mem, .evq, .seq, .clauses, .sch, .umem, .links, .load, .rim, .cap, .mgt, .plt,
      .regs .plt, .regs .mgt, .regs .seq, .regs .sch, .regs .cls, .regs .lnk, .regs .mem, .regs .rim, .regs .cap]
  | .framingLost _ => [.links]
  | .resumeComplete _ _ => [.out, .evq, .links, .regs .lnk]
  | .resumeTimeout _ => [.evq, .links, .regs .lnk]
  | .partnerOffReport _ => [.evq, .links, .regs .lnk]
  | .lnkSpareGo _ _ => [.evq, .links, .regs .lnk]
  | .laneLoss _ _ => [.links, .regs .lnk]
  | .laneSpareComplete _ _ => [.flash, .evq, .links, .mgt, .regs .plt, .regs .lnk]
  | .spareLaneTrained _ => [.links, .regs .lnk]
  | .spareRetrainTimer _ => [.links]
  | .eyeScan _ _ _ _ => [.evq, .links, .mgt, .regs .lnk]
  | .lnkDevnumStart => [.fp, .regs .lnk]
  | .lnkTopo _ _ _ _ _ => [.evq, .links, .fp, .regs .lnk]
  | .devnumWrite _ => [.fp, .regs .lnk]
  | .rimPllUnlock _ => [.evq, .rim, .regs .rim]
  | .rimPllRelock _ => [.out, .evq, .rim, .noc, .regs .rim]
  | .rimOnehot _ _ => [.evq, .rim, .regs .rim]
  | .rimOutboundRead _ => [.out, .rim]
  | .rimInboundWrite _ _ => [.rim]
  | .rimPrcFence _ => [.evq, .rim, .regs .rim]
  | .rimPrcRel _ => [.evq, .rim, .regs .rim]
  | .rimFrameScrub _ => [.free, .mem, .evq, .clauses, .sch, .umem, .rim, .regs .rim]
  | .rimParam => [.evq, .rim, .regs .rim]
  | .rimPortRequest _ _ _ _ _ _ => [.out, .noc]
  | .vccioGood _ _ _ => [.evq, .rim, .regs .rim]
  | .vccioLost _ _ => [.evq, .rim, .regs .rim]
  | .rimRel _ => [.evq, .rim, .regs .rim]
  | .rimDis _ => [.evq, .rim, .regs .rim]
  | .bankCheckComplete _ _ _ => [.evq, .rim, .regs .rim]
  | .keySample _ _ => [.evq, .rim, .regs .rim]
  | .rimIoShort _ _ _ => [.evq, .rim, .regs .rim]
  | .sigStart => [.evq, .cap, .regs .cap]
  | .sigStop => [.cap, .regs .cap]
  | .sigPostEnd => [.free, .mem, .evq, .umem, .cap, .mgt, .regs .mem, .regs .cap]
  | .captureDrain => [.mem, .evq, .umem, .cap, .mgt, .regs .mem, .regs .cap]
  | .capOverflow _ => [.evq, .cap, .regs .cap]
  | .mtStart => [.evq, .cap, .regs .cap]
  | .mtStop => [.free, .mem, .evq, .umem, .cap, .mgt, .regs .mem, .regs .cap]
  | .tuEnable _ _ => [.evq, .cap, .regs .cap]
  | .tuDisable _ => [.cap, .regs .cap]
  | .tuRegWrite _ _ _ => [.evq, .cap, .regs .cap]
  | .pinCrossing _ _ _ _ _ _ => [.free, .rim, .cap]
  | .triggerFire _ _ => [.out, .free, .mem, .evq, .seq, .umem, .links, .cap, .mgt, .regs .seq, .regs .mem, .regs .cap,
      .regs .dbg]
  | .holdoffEnd _ => [.cap]
  | .dbgAuthPassword _ _ => [.out, .free, .mem, .evq, .seq, .clauses, .umem, .links, .rim, .cap, .dbg, .mgt, .plt,
      .regs .seq, .regs .cls, .regs .lnk, .regs .mem, .regs .cap, .regs .dbg]
  | .dbgAuthKeyx _ _ => [.out, .free, .mem, .evq, .seq, .clauses, .umem, .links, .rim, .cap, .dbg, .mgt, .plt, .regs .seq,
      .regs .cls, .regs .lnk, .regs .mem, .regs .cap, .regs .dbg]
  | .keyxTimeout => [.evq, .dbg, .regs .dbg]
  | .dbgAuthDrop _ => [.out, .free, .mem, .evq, .seq, .clauses, .umem, .links, .rim, .cap, .dbg, .mgt, .plt, .regs .seq,
      .regs .cls, .regs .lnk, .regs .mem, .regs .cap, .regs .dbg]
  | .dbgAccessRead => Part.allBut [.now, .flash]
  | .dbgAccessWrite => Part.allBut [.now, .flash]
  | .read _ _ _ _ _ => [.clauses, .dbg, .regs .dbg]
  | .deposit _ _ _ _ _ _ => [.clauses, .dbg, .regs .dbg]
  | .force _ _ _ _ _ _ => [.clauses, .dbg, .regs .dbg]
  | .release _ _ _ _ _ => [.clauses, .dbg, .regs .dbg]
  | .cqread _ _ _ _ => [.clauses, .dbg, .regs .dbg]
  | .relall _ => [.clauses, .dbg, .regs .dbg]
  | .arrDeferredStart => [.clauses, .dbg, .regs .dbg]
  | .dbgHalt _ => [.out, .free, .mem, .evq, .seq, .umem, .links, .cap, .mgt, .regs .mem, .regs .cap, .regs .dbg]
  | .dbgResume _ => [.out, .free, .mem, .evq, .seq, .umem, .links, .cap, .mgt, .regs .seq, .regs .mem, .regs .cap,
      .regs .dbg]
  | .dbgStep _ _ => [.out, .free, .mem, .evq, .seq, .clauses, .fab, .sch, .umem, .links, .load, .rim, .cap, .mgt, .sec,
      .plt, .regs .plt, .regs .seq, .regs .sch, .regs .cls, .regs .fab, .regs .mem, .regs .cap, .regs .dbg]
  | .pairHalt _ _ => [.mgt, .regs .dbg]
  | .pairHaltComplete _ _ _ _ => [.out, .free, .mem, .evq, .seq, .umem, .links, .cap, .mgt, .regs .mem, .regs .cap,
      .regs .dbg]
  | .pairResume _ _ => [.mem, .evq, .umem, .cap, .mgt, .regs .mem, .regs .cap, .regs .dbg]
  | .pairStep _ _ _ => [.out, .free, .mem, .evq, .seq, .umem, .links, .cap, .mgt, .regs .mgt, .regs .mem, .regs .cap,
      .regs .dbg]
  | .xtrigIn _ => [.out, .free, .mem, .evq, .seq, .umem, .links, .cap, .mgt, .regs .mem, .regs .cap, .regs .dbg]
  | .testLogicReset => [.out, .free, .mem, .evq, .seq, .clauses, .umem, .links, .rim, .cap, .dbg, .mgt, .plt, .regs .seq,
      .regs .cls, .regs .lnk, .regs .mem, .regs .cap, .regs .dbg]
  | .extest => [.evq, .dbg, .regs .dbg]
  | .samplePreload => [.evq, .dbg, .regs .dbg]
  | .idcode => [.out, .evq, .dbg, .regs .dbg]
  | .dbgacc _ _ _ => Part.allBut [.now, .flash]
  | .bypass _ => [.evq, .dbg, .regs .dbg]
  | .nocPacketForward _ _ _ => [.out, .evq, .noc, .regs .noc]
  | .ageIncrement _ => [.noc]
  | .nocPacketReceive _ _ => Part.allBut [.now, .flash]
  | .nocTimeout _ => [.out, .evq, .noc, .regs .noc]
  | .nocRtFlip => [.free, .evq, .regs .noc]
  | .oldEpochDrained => [.out, .free, .evq, .noc, .regs .noc]
  | .nocAgreeCommit _ => [.evq, .noc, .regs .noc]
  | .dlmodeSwitch _ => [.out, .noc, .regs .noc]
  | .bar2Read _ _ => [.out, .free, .mem, .evq, .umem, .mgt, .regs .mgt, .regs .hif, .regs .mem]
  | .bar2Write _ _ => [.out, .mem, .evq, .umem, .mgt, .regs .mgt, .regs .hif, .regs .mem]
  | .eventDoorbell _ _ => [.evq, .hif, .regs .hif]
  | .dmaDoorbell _ _ => [.evq, .hif, .regs .hif]
  | .pcieReset _ => [.out, .free, .mem, .evq, .seq, .clauses, .umem, .links, .rim, .cap, .dbg, .hif, .mgt, .plt,
      .regs .hif, .regs .seq, .regs .cls, .regs .lnk, .regs .mem, .regs .cap, .regs .dbg]
  | .dmaEnable _ _ => [.hif, .regs .hif]
  | .dmaDisable _ _ => [.hif, .regs .hif]
  | .dmaDescComplete _ _ _ => [.out, .free, .mem, .evq, .umem, .hif, .mgt, .regs .mgt, .regs .hif, .regs .mem]
  | .hifDmaErr _ _ _ => [.evq, .hif, .regs .hif]
  | .eventAccept _ => [.free, .flash, .evq, .hif, .mgt]
  | .eventRingWrite => [.out, .hif]
  | .msixCoalesceExpire _ => [.out, .hif]
  | .ringFullResignal => [.out, .hif, .regs .hif]
  | .eventRingEnable _ _ => [.hif, .regs .hif]
  | .mgtLockstep _ _ => [.free, .evq, .load, .dbg, .mgt, .regs .mgt, .regs .dbg]
  | .pairRestartComplete _ => [.free, .mem, .flash, .evq, .cap, .dbg, .mgt, .regs .dbg]
  | .mgtWdtEnable _ _ => [.regs .mgt]
  | .wdtKick _ _ => [.mgt]
  | .mgtWdt _ => [.out, .free, .evq, .load, .dbg, .mgt, .regs .mgt, .regs .dbg]
  | .program _ => [.out, .evq, .mgt, .regs .mgt, .regs .hif]
  | .erase4k _ => [.out, .evq, .mgt, .regs .mgt, .regs .hif]
  | .erase64k _ => [.out, .evq, .mgt, .regs .mgt, .regs .hif]
  | .flashCmdComplete _ => [.free, .flash, .mgt, .regs .mgt]
  | .mgtFpApply => [.mgt, .regs .mgt]
  | .codebaseWrite _ _ => [.out, .free, .evq, .mgt, .regs .mgt, .regs .hif]
  | .swapOk => [.free, .evq, .mgt, .regs .mgt, .regs .sch]
  | .swapTimeout => [.free, .evq, .load, .dbg, .mgt, .regs .mgt, .regs .dbg]
  | .load _ _ => [.out, .free, .mem, .evq, .umem, .load, .mgt, .regs .mgt, .regs .sch, .regs .mem]
  | .fwUpdate _ _ => [.out, .free, .mem, .flash, .evq, .umem, .mgt, .regs .mgt, .regs .sch, .regs .mem]
  | .fwSwap _ => [.out, .free, .mem, .evq, .umem, .dbg, .mgt, .regs .mgt, .regs .sch, .regs .mem, .regs .dbg]
  | .fwHotfix _ _ => [.out, .free, .mem, .evq, .umem, .mgt, .regs .mgt, .regs .sch, .regs .mem]
  | .patchSet _ => [.free, .evq, .clauses, .sch, .load, .cap, .mgt, .regs .mgt, .regs .sch]
  | .logRead _ => [.out, .free, .mem, .evq, .umem, .mgt, .regs .mgt, .regs .mem]
  | .info _ => [.free, .evq, .mgt, .regs .mgt]
  | .restore _ _ _ _ => [.free, .mem, .evq, .seq, .clauses, .umem, .links, .rim, .cap, .dbg, .mgt, .regs .mgt, .regs .sch,
      .regs .lnk, .regs .cap]
  | .attest _ _ => [.out, .free, .mem, .evq, .umem, .mgt, .regs .mgt, .regs .mem]
  | .loadBegin => [.free, .evq, .seq, .clauses, .fab, .sch, .umem, .links, .load, .rim, .cap, .dbg, .mgt, .sec,
      .regs .mgt, .regs .seq, .regs .sch, .regs .cls, .regs .fab, .regs .rim, .regs .cap]
  | .frameReceive _ _ => [.free, .mem, .evq, .seq, .clauses, .sch, .umem, .links, .load, .rim, .cap, .dbg, .mgt, .sec,
      .plt, .regs .plt, .regs .mgt, .regs .seq, .regs .sch, .regs .cls, .regs .lnk, .regs .mem, .regs .rim, .regs .cap]
  | .reloadBoundaryHold => [.load]
  | .bootTimeout => [.free, .evq, .load, .dbg, .mgt, .regs .sch, .regs .dbg]
  | .bootOk => [.free, .mem, .evq, .clauses, .fab, .sch, .umem, .mgt, .regs .plt, .regs .sch, .regs .cls, .regs .mem]
  | .tokenLoad _ => [.evq, .sec, .regs .sec]
  | .tokenUnload _ => [.free, .evq, .sec, .regs .sec]
  | .fuseProgram _ _ _ => [.free, .evq, .sec, .regs .sec]
  | .oppWrite _ => [.evq, .plt, .regs .plt]
  | .oppSettle => [.evq, .plt, .regs .plt]
  | .sscWrite _ => [.plt, .regs .plt]
  | .thrminWrite _ => [.out, .evq, .regs .plt]
  | .rootPllFail _ => Part.allBut [.out, .now, .free, .flash]
  | .swreq => [.plt, .regs .plt]
  | .switchoverComplete => [.ptime, .free, .evq, .plt, .regs .plt]
  | .rootRetrain _ => [.regs .plt]
  | .sensorSample _ => [.out, .evq, .plt, .regs .plt]
  | .throttleUpdate _ _ => [.out, .evq, .plt, .regs .plt]
  | .droopDetect _ _ => [.out, .evq, .plt, .regs .plt]
  | .thermtrip _ => Part.allBut [.now, .free, .flash]
  | .pltAvs _ _ => [.out, .evq, .plt, .regs .plt]
  | .agingCheck _ => [.evq, .plt, .regs .plt]
  | .ppsLoad => [.regs .plt]
  | .ppsEdge => [.ptime, .free, .evq, .plt, .regs .plt]
  | .ppsMissing => [.evq, .plt, .regs .plt]
  | .calSchedule _ => [.evq, .links, .plt, .regs .plt, .regs .lnk, .regs .mem]
  | .pgreqGate _ => [.mem, .evq, .clauses, .umem, .links, .rim, .cap, .plt, .regs .plt, .regs .cls, .regs .lnk,
      .regs .mem, .regs .cap]
  | .pgreqPower _ => [.mem, .evq, .clauses, .umem, .links, .rim, .cap, .plt, .regs .plt, .regs .cls, .regs .lnk,
      .regs .mem, .regs .cap]
  | .domainReady _ => [.evq, .links, .plt, .regs .plt, .regs .lnk, .regs .mem]
  | .pltRstKey _ _ => Part.allBut [.out, .now, .free, .flash]
  | .deviceReset _ => Part.allBut [.out, .now, .free, .flash]
  | .rootLock => [.ptime, .ptRun, .plt, .regs .plt]
  | .hbmTrainComplete _ => [.regs .mem]
  | .smbTmax => [.out]
  | .smbThrottle => [.out]
  | .smbRstcause => [.out]
  | .smbAlertStatus => [.out]
  | .smbVddStepMv => [.out]
  | .smbVddStepPower => [.out]
  | .sparingDecision _ => [.free, .flash, .evq, .clauses, .fab, .sch, .umem, .links, .mgt, .regs .sch, .regs .cls,
      .regs .fab, .regs .lnk, .regs .mem]
  | .lifeRecord _ _ => [.free, .flash, .mgt]
  | .mbxItemRead _ _ _ _ => Part.allBut [.now, .flash]
  | .mbxItemWrite _ _ _ _ => Part.allBut [.now, .flash]
  | .bitAliasWrite _ _ _ => Part.allBut [.now, .flash]
  | .registerWrite _ _ _ _ => Part.allBut [.now, .flash]
  | .registerRead _ _ _ => [.out, .mbx, .regs .hif]
  | .hifLink _ _ _ _ => [.evq, .regs .hif]
  | .busMasterEnable _ => [.out, .hif]
  | .standbyRootFail _ => Part.allBut [.out, .now, .free, .flash]
  | .droopRelease => [.out, .evq, .plt, .regs .plt]
  | .avsDeviationClear => [.out, .evq, .plt, .regs .plt]
  | .porstNRelease => [.clauses, .load, .mgt, .plt, .regs .sch]
  | .mgtSramScrub _ _ => [.free, .evq, .mgt, .regs .mgt]

end Sys2Proof.Machine
end

