-- ==== Sys2Proof/Certificates/Slice0/Obligations.lean ====
section
/-! DEFINITION. Obligations.lean: the statements for the provers. Each says what a group of commands does to every state that meets
its hypotheses, and what it leaves as it is; its docstring names the commands and the rules of spec/. -/
open Sys2Proof Sys2Proof.Machine

/-- A step takes the command at the front of the queue and answers what its meaning answers on the rest (log 2: the queue is
the model's own). -/
def Obligations.StepRunsFrontCommand : Prop :=
  ∀ (s : State) (c : Instr) (rest : List Instr), s.pending = c :: rest → step s = exec c { s with pending := rest }

/-- With an empty queue one nanosecond passes (log 2: that time passes between commands is the model's choice). -/
def Obligations.EmptyQueueLetsTimePass : Prop :=
  ∀ s : State, s.pending = [] → ∃ t, step s = .next t ∧ t.pending = [] ∧ t.now = s.now + 1 ∧ t.seq.step = s.seq.step ∧
    t.seq.st = s.seq.st ∧
    (s.ptRun = false → t.ptime = s.ptime) ∧
    (s.ptRun = true → s.fbit F.PLT_PTCTL_MODE = false → s.plt.ptFrac < 1000000000 → s.ptime + 1 < 2 ^ 64 →
      t.ptime = s.ptime + 1) ∧
    ∀ p, p ∉ [Part.now, .ptime, .free, .flash, .evq, .seq, .rim, .mgt, .plt, .regs .mgt] → State.same s t p

/-- What reset leaves (R25, R40, R207, R317, and the reset columns of the register tables; contents that the manual gives no
value are the model's: logs 8, 18, 20). -/
def Obligations.ResetLeavesDefaults : Prop :=
  (∀ f : Fld, State.reset.fget f = f.reset) ∧ State.reset.seq.st = .idle ∧ State.reset.seq.step = 0 ∧ State.reset.seq.ucyc = 0 ∧
  State.reset.pending = [] ∧ State.reset.evq = [] ∧ (∀ c, (State.reset.clause c).loaded = false) ∧
  (∀ l, (State.reset.link l).st = .off) ∧ (∀ a, isUser a = true → memGet State.reset.mem a = 0x55#8) ∧
  (∀ o, State.reset.flashGet o = if isGolden o then Config.goldenByte (o - 0x0F000000) else 0xFF#8) ∧ State.reset.sound = true

/-- Memory and flash stay in canonical form, so equal contents stay equal data. -/
def Obligations.StepKeepsSound : Prop := ∀ s t : State, s.sound = true → step s = .next t → t.sound = true

/-- The queue is first in, first out: no command's meaning touches it (log 2). -/
def Obligations.QueueIsFifo : Prop :=
  (∀ (c : Instr) (s t : State), exec c s = .next t → t.pending = s.pending) ∧
  ∀ s t : State, step s = .next t → t.pending = s.pending.tail

/-- Fuses (R536): no step clears a fuse bit, a device reset included. -/
def Obligations.FuseBitsOnlySet : Prop :=
  ∀ s t : State, step s = .next t → ∀ k j : Nat, (s.fuseWord k).getLsbD j = true → (t.fuseWord k).getLsbD j = true

/-- The arbiter's hold buffer (R502: 256 records) never overflows. -/
def Obligations.ArbiterHoldsAtMost256 : Prop :=
  ∀ s t : State, s.hif.held.length ≤ 256 → step s = .next t → t.hif.held.length ≤ 256

/-- The frame of every command: the parts of the state that `touches` does not list stay as they are. -/
def Obligations.CommandsTouchOnlyTheirParts : Prop :=
  (∀ (i : Instr) (s t : State), exec i s = .next t → ∀ p, p ∉ touches i → State.same s t p) ∧
  (∀ (i : Instr) (s : State), mayStop i = false → leads i s fun t => ∀ p, p ∉ touches i → State.same s t p)

/-- Steps and ellipses (R25, R26, R27, R28, R29, R32). -/
def Obligations.StepsAdvanceCounters : Prop :=
  (∀ (ups : List Upset) (s : State), s.seq.st = .running → s.seq.depth ≠ 0 → s.causes = [] →
    leads (.stepExecute ups) s fun t => t.seq.step = (s.seq.step + 1) % 2 ^ 64 ∧ t.seq.depth = s.seq.depth ∧
      t.seq.ucyc = (if (s.seq.step + 1) % 2 ^ 64 % s.seq.depth = 0 then (s.seq.ucyc + 1) % 2 ^ 64 else s.seq.ucyc) ∧
      t.seq.ellTotal = s.seq.ellTotal ∧ t.seq.causeCnt = s.seq.causeCnt) ∧
  (∀ (ups : List Upset) (s : State), s.seq.st = .running → s.seq.depth ≠ 0 → s.causes ≠ [] →
    leads (.stepExecute ups) s fun t => t.seq.st = .ellipsis ∧ t.seq.step = s.seq.step ∧ t.seq.ucyc = s.seq.ucyc ∧
      t.clauses = s.clauses ∧ t.links = s.links ∧ t.mem = s.mem ∧ t.evq = s.evq ∧ onlyFields [] s t) ∧
  (∀ (ups : List Upset) (s : State), s.seq.st = .ellipsis → s.seq.depth ≠ 0 → s.causes = [] →
    leads (.ellipsisEnd ups) s fun t => t.seq.step = (s.seq.step + 1) % 2 ^ 64 ∧ t.seq.depth = s.seq.depth ∧
      t.seq.ucyc = (if (s.seq.step + 1) % 2 ^ 64 % s.seq.depth = 0 then (s.seq.ucyc + 1) % 2 ^ 64 else s.seq.ucyc) ∧
      t.seq.ellTotal = s.seq.ellTotal + 1 ∧
      ∀ k, k < 16 → kvGet 0 t.seq.causeCnt k = kvGet 0 s.seq.causeCnt k + (s.seq.seen.getLsbD k).toNat) ∧
  (∀ (ups : List Upset) (s : State), s.seq.st = .ellipsis → s.causes ≠ [] → exec (.ellipsisEnd ups) s = .next s) ∧
  (∀ (ups : List Upset) (s : State), s.seq.st ≠ .running → exec (.stepExecute ups) s = .next s)

/-- RUN, STEP1 and UCYC1 (R40, R47). -/
def Obligations.RunControlStarts : Prop :=
  (∀ (i : Instr) (b : Nat) (s : State), (i, b) ∈ [(Instr.run, 1), (.step1, 4), (.ucyc1, 8)] →
    (s.seq.st = .ready ∨ s.seq.st = .stopped) → s.runRefused = none →
    leads i s fun t => (t.seq.st = .running ∨ t.seq.st = .ellipsis) ∧ t.seq.step = s.seq.step ∧ t.seq.ucyc = s.seq.ucyc ∧
      t.mem = s.mem ∧ t.clauses = s.clauses ∧
      t.seq.stopStep = (if b = 4 then some s.seq.step
        else if b = 8 then some (s.seq.step - s.seq.step % s.seq.depth + s.seq.depth - 1) else none)) ∧
  (∀ (i : Instr) (b : Nat) (s : State), (i, b) ∈ [(Instr.run, 1), (.step1, 4), (.ucyc1, 8)] → s.seq.st = .idle →
    leads i s fun t => posted F.SEQ_EVT_CMD 5 9 ([0] ++ w64 b ++ w64 s.seq.step) s t ∧ t.seq = s.seq ∧ t.mem = s.mem ∧
      t.clauses = s.clauses ∧ onlyFields [F.SEQ_EVT_CMD] s t) ∧
  (∀ (i : Instr) (b : Nat) (s : State), (i, b) ∈ [(Instr.run, 1), (.step1, 4), (.ucyc1, 8)] →
    (s.seq.st = .running ∨ s.seq.st = .ellipsis ∨ s.seq.st = .dbgHold) → exec i s = .next s)

/-- STOP and STOPAT_ENABLE (R42, R43, R45, R46). -/
def Obligations.StopsSetFence : Prop :=
  (∀ (s : State) (f : Nat), f = (if s.usedLinks = [] then s.seq.step else s.seq.step + s.fget F.SEQ_FENCE_DIST - 1) →
    (∀ p d, s.seq.fence = some (p, d) → f < p) →
    leads .stop s fun t => t.seq.fence = some (f, s.devnum) ∧ t.seq.st = s.seq.st ∧ t.seq.step = s.seq.step ∧ t.mem = s.mem ∧
      t.evq = s.evq ∧ onlyFields [] s t ∧ (∀ l, l ∈ s.usedLinks → (f, s.devnum) ∈ (t.link l).fences) ∧
      ∀ l, l ∉ s.usedLinks → t.link l = s.link l) ∧
  (∀ (s : State) (p d : Nat), s.seq.fence = some (p, d) →
    p ≤ (if s.usedLinks = [] then s.seq.step else s.seq.step + s.fget F.SEQ_FENCE_DIST - 1) → exec .stop s = .next s) ∧
  (∀ s : State, s.seq.step ≤ s.seq.stopAt →
    leads .stopatEnable s fun t => t.fget F.SEQ_CTL_STOPAT_EN = 1 ∧ t.evq = s.evq ∧ t.seq = s.seq ∧
      onlyFields [F.SEQ_CTL_STOPAT_EN] s t) ∧
  (∀ s : State, s.seq.stopAt < s.seq.step →
    leads .stopatEnable s fun t => t.fget F.SEQ_CTL_STOPAT_EN = 0 ∧
      posted F.SEQ_EVT_CMD 5 9 ([1] ++ w64 s.seq.stopAt ++ w64 s.seq.step) s t ∧ t.seq = s.seq ∧
      onlyFields [F.SEQ_CTL_STOPAT_EN, F.SEQ_EVT_CMD] s t)

/-- SEQ_LONG_ELLIPSIS, CHECKPOINT_COMPLETE and SEQ_TMR (R34, R49, R50, R53). -/
def Obligations.SequencerReports : Prop :=
  (∀ s : State, (s.seq.st = .ellipsis ∨ s.seq.st = .dbgHold) → s.fget F.SEQ_ELLIM_LIMIT_US ≠ 0 →
    s.fget F.SEQ_ELLIM_LIMIT_US * 1000 < s.seq.ellNs → s.seq.longRaised = false →
    leads .seqLongEllipsis s fun t => posted F.SEQ_EVT_LONG 5 1 (w64 s.seq.step ++ [s.causeBits.toNat, s.seq.ellNs / 1000]) s t ∧
      t.seq.longRaised = true ∧ t.seq.st = s.seq.st ∧ t.seq.step = s.seq.step ∧ onlyFields [F.SEQ_EVT_LONG] s t) ∧
  (∀ (a : DWord) (s : State) (slot : Nat) (c : Ckpt), s.seq.ckpt = some (slot, c) → s.ckptFramesIn = true →
    leads (.checkpointComplete true a) s fun t => t.fget F.SEQ_EVT_CKPT_DONE = 1 ∧
      (s.fbit (evten F.SEQ_EVT_CKPT_DONE) = true → t.evq.getLast? =
        some { src := 5, code := 6, payload := w64 c.ucyc ++ [slot], step := s.seq.step, time := s.ptime }) ∧
      (isHost c.base = true → isHost (c.base + 64) = true → posted F.SEQ_EVT_CKPT_DONE 5 6 (w64 c.ucyc ++ [slot]) s t ∧
        t.mem = s.mem) ∧
      t.seq.ckpt = none ∧ t.seq.ckptNext = 1 - slot ∧ t.fget F.SEQ_CKPT_STAT_LAST_OK = 1 ∧
      (kvGet none t.seq.ckpts c.base).isSome = true ∧ (∀ b, b ≠ c.base → kvGet none t.seq.ckpts b = kvGet none s.seq.ckpts b) ∧
      t.seq.step = s.seq.step ∧
      ∀ g : Fld, g.block ≠ 10 → g.key ≠ F.SEQ_CKPT_STAT_LAST_OK.key → g.key ≠ F.SEQ_EVT_CKPT_DONE.key → t.fget g = s.fget g) ∧
  (∀ (a : DWord) (s : State) (slot : Nat) (c : Ckpt), s.seq.ckpt = some (slot, c) →
    leads (.checkpointComplete false a) s fun t =>
      posted F.SEQ_EVT_CKPT_FAIL 5 7 (w64 c.ucyc ++ [slot] ++ w64 a.toNat) s t ∧ t.seq.ckpt = none ∧
      t.seq.ckpts = s.seq.ckpts ∧ t.mem = s.mem ∧ t.out = s.out ∧ t.fget F.SEQ_CKPT_STAT_LAST_OK = 0 ∧ t.seq.step = s.seq.step ∧
      onlyFields [F.SEQ_CKPT_STAT_LAST_OK, F.SEQ_EVT_CKPT_FAIL] s t) ∧
  (∀ (m : Word) (s : State), leads (.seqTmr m) s fun t => posted F.SEQ_EVT_TMR 5 8 [m.toNat] s t ∧ t.seq = s.seq ∧
      t.mem = s.mem ∧ onlyFields [F.SEQ_EVT_TMR] s t)

/-- DICT_SWEEP_READ (R76, R77): a good read, a repair from both neighbours, and an uncorrectable copy. -/
def Obligations.SweepChecksEntry : Prop :=
  (∀ (c ph e : Nat) (ups : List Upset) (s u : State), u = upsets ups s →
    (((u.clause c).dictCopy ph e).2 = true ∨ ((u.clause c).spared = true ∧ (u.clause c).retired = ph)) →
    exec (.dictSweepRead c ph e ups) s = .next u) ∧
  (∀ (c ph e : Nat) (ups : List Upset) (s u : State) (v : Word), u = upsets ups s →
    ((u.clause c).spared = true → (u.clause c).retired ≠ ph) → ((u.clause c).dictCopy ph e).2 = false →
    (∀ d, d ∈ [64, 1] → (u.clause c).dictCopy ((u.clause c).nextPhrase ph d) e = (v, true)) →
    leads (.dictSweepRead c ph e ups) s fun t =>
      posted (F.CLS_EVT_DICT_FIX c) (0x80 + c) 1 ([ph, e] ++ w64none) u t ∧
      counted (F.CLS_CNT_DFIX_COUNT c) u t ∧
      (t.clause c).dictRead ph e = (v, none) ∧ (t.clause c).vs = (u.clause c).vs ∧
      onlyFields [F.CLS_CNT_DFIX_COUNT c, F.CLS_EVT_DICT_FIX c] u t ∧ t.mem = u.mem ∧ t.seq = u.seq) ∧
  (∀ (c ph e : Nat) (ups : List Upset) (s u : State), u = upsets ups s →
    ((u.clause c).spared = true → (u.clause c).retired ≠ ph) → ((u.clause c).dictCopy ph e).2 = false →
    (((u.clause c).dictCopy ((u.clause c).nextPhrase ph 64) e).2 = false ∨
      ((u.clause c).dictCopy ((u.clause c).nextPhrase ph 1) e).2 = false ∨
      ((u.clause c).dictCopy ((u.clause c).nextPhrase ph 64) e).1 ≠ ((u.clause c).dictCopy ((u.clause c).nextPhrase ph 1) e).1) →
    leads (.dictSweepRead c ph e ups) s fun t =>
      counted (F.CLS_CNT_DUE_COUNT c) u t ∧
      (kvGet false (u.clause c).dictUe (1024 * ph + e) = true → t.evq = u.evq) ∧
      (kvGet false (u.clause c).dictUe (1024 * ph + e) = false →
        posted (F.CLS_EVT_DICT_UE c) (0x80 + c) 2 ([ph, e] ++ w64none) u t) ∧
      kvGet false (t.clause c).dictUe (1024 * ph + e) = true ∧ (t.clause c).dictBad = (u.clause c).dictBad ∧
      (t.clause c).dictW = (u.clause c).dictW ∧ (t.clause c).vs = (u.clause c).vs ∧
      onlyFields [F.CLS_CNT_DUE_COUNT c, F.CLS_EVT_DICT_UE c] u t ∧ t.mem = u.mem ∧ t.seq = u.seq)

/-- DICT_UE_REWRITE and SPARE_MARCH_PASS (R76, R133). -/
def Obligations.RewriteRestoresEntry : Prop :=
  (∀ (c e : Nat) (s : State), e < 1024 → leads (.dictUeRewrite c e) s fun t =>
    (∀ ph, (t.clause c).dictRead ph e = (kvGet 0 (s.clause c).dictM e, none)) ∧
    (∀ ph, kvGet false (t.clause c).dictUe (1024 * ph + e) = false) ∧
    (∀ ph x, x < 1024 → x ≠ e →
      kvGet none (t.clause c).dictBad (1024 * ph + x) = kvGet none (s.clause c).dictBad (1024 * ph + x) ∧
      kvGet 0 (t.clause c).dictW x = kvGet 0 (s.clause c).dictW x) ∧
    (t.clause c).dictM = (s.clause c).dictM ∧ (t.clause c).vs = (s.clause c).vs ∧
    (∀ d, d ≠ c → t.clause d = s.clause d) ∧ onlyFields [] s t ∧ t.mem = s.mem ∧ t.evq = s.evq ∧ t.seq = s.seq) ∧
  (∀ (c : Nat) (ok : Bool) (s : State), (s.clause c).spared = false → (s.clause c).mig = none →
    leads (.spareMarchPass c ok) s fun t => t.clause c = { s.clause c with marchOk := ok } ∧ (∀ d, d ≠ c →
      t.clause d = s.clause d) ∧
      onlyFields [] s t ∧ t.mem = s.mem ∧ t.evq = s.evq ∧ t.seq = s.seq)

/-- CLS_SPARE_GO (R133, R134, R135, R137; that a request waits for the directory is log 56). -/
def Obligations.SpareGoDecides : Prop :=
  (∀ (c target r : Nat) (s : State), (s.clause c).mig = none → (s.clause c).sparePend = none →
    (target ≤ 63 → s.reloadUnread = false) →
    (63 < target ∧ r = 2 ∨ target ≤ 63 ∧ s.loadingClause c = true ∧ r = 5 ∨
      target ≤ 63 ∧ s.loadingClause c = false ∧ (s.clause c).spared = true ∧ r = 1 ∨
      target ≤ 63 ∧ s.loadingClause c = false ∧ (s.clause c).spared = false ∧ (s.clause c).marchOk = false ∧ r = 3) →
    leads (.clsSpareGo c target) s fun t =>
      posted (F.CLS_EVT_SPARE c) (0x80 + c) 7 ([target, r] ++ w64 s.seq.step ++ [0]) s t ∧ t.fget (F.CLS_SPARE_GO c) = 0 ∧
      t.fget (F.CLS_SPARE_RESULT c) = r ∧ t.fget (F.CLS_SPARE_TARGET c) = target % 128 ∧ t.clauses = s.clauses ∧ t.mem = s.mem ∧
      t.seq = s.seq ∧ onlyFields [F.CLS_SPARE_TARGET c, F.CLS_SPARE_GO c, F.CLS_SPARE_RESULT c, F.CLS_EVT_SPARE c] s t) ∧
  (∀ (c target : Nat) (s : State), (s.clause c).mig = none → (s.clause c).sparePend = none → s.reloadUnread = false →
    target ≤ 63 → s.loadingClause c = false →
    (s.clause c).spared = false → (s.clause c).marchOk = true → (s.clause c).loaded = false →
    leads (.clsSpareGo c target) s fun t =>
      posted (F.CLS_EVT_SPARE c) (0x80 + c) 7 ([target, 0] ++ w64 s.seq.step ++ [0]) s t ∧ t.fget (F.CLS_SPARE_RESULT c) = 0 ∧
      t.clause c = { s.clause c with spared := true, retired := target } ∧ (∀ d, d ≠ c → t.clause d = s.clause d) ∧
      t.mem = s.mem ∧ t.seq = s.seq) ∧
  (∀ (c target : Nat) (s : State), (s.clause c).mig = none → (s.clause c).sparePend = none → s.reloadUnread = false →
    target ≤ 63 → s.loadingClause c = false →
    (s.clause c).spared = false → (s.clause c).marchOk = true → (s.clause c).loaded = true →
    leads (.clsSpareGo c target) s fun t => t.evq = s.evq ∧ t.fget (F.CLS_SPARE_GO c) = 1 ∧ (t.clause c).mig.isSome = true ∧
      (t.clause c).spared = false ∧ (t.clause c).vs = (s.clause c).vs ∧ (∀ d, d ≠ c → t.clause d = s.clause d) ∧ t.mem = s.mem ∧
      t.seq = s.seq ∧ onlyFields [F.CLS_SPARE_TARGET c, F.CLS_SPARE_GO c] s t) ∧
  (∀ (c target : Nat) (s : State), (s.clause c).mig = none → (s.clause c).sparePend = none → s.reloadUnread = true → target ≤ 63 →
    leads (.clsSpareGo c target) s fun t => t.clause c = { s.clause c with sparePend := some target } ∧
      (∀ d, d ≠ c → t.clause d = s.clause d) ∧ t.fget (F.CLS_SPARE_GO c) = 1 ∧ t.evq = s.evq ∧ t.mem = s.mem ∧ t.seq = s.seq ∧
      onlyFields [F.CLS_SPARE_TARGET c, F.CLS_SPARE_GO c] s t) ∧
  (∀ (c target : Nat) (s : State), ((s.clause c).mig.isSome = true ∨ (s.clause c).sparePend.isSome = true) →
    leads (.clsSpareGo c target) s fun t => t.clauses = s.clauses ∧ t.evq = s.evq ∧ t.mem = s.mem ∧ t.seq = s.seq ∧
      onlyFields [F.CLS_SPARE_TARGET c] s t)

/-- MIGRATION_COMPLETE (R135, R136, R137, R138). -/
def Obligations.MigrationSwitchesOrKeeps : Prop :=
  (∀ (c m cycles : Nat) (s : State), (s.clause c).mig = none → leads (.migrationComplete c m cycles) s fun t =>
    steady s t ∧ t.sch = s.sch ∧ t.load = s.load ∧ t.evq = s.evq ∧ onlyFields [] s t) ∧
  (∀ (c m cycles : Nat) (s : State) (g : Migration), (s.clause c).mig = some g →
    leads (.migrationComplete c m cycles) s fun t =>
      (t.clause c).mig = none ∧ t.fget (F.CLS_SPARE_GO c) = 0 ∧ t.fget (F.CLS_EVT_SPARE c) = 1 ∧
      t.fget (F.CLS_SPARE_RESULT c) = (if m < 2 then 0 else 4) ∧
      (m < 2 → (t.clause c).spared = true ∧ (t.clause c).retired = g.target) ∧
      (2 ≤ m → (t.clause c).spared = (s.clause c).spared ∧ (t.clause c).retired = (s.clause c).retired) ∧
      (t.clause c).vs = (s.clause c).vs ∧ (t.clause c).bus = (s.clause c).bus ∧ t.seq.step = s.seq.step ∧
      (∀ d, d ≠ c → (t.clause d).spared = (s.clause d).spared ∧ (t.clause d).retired = (s.clause d).retired ∧
        (t.clause d).vs = (s.clause d).vs ∧ (t.clause d).mig = (s.clause d).mig) ∧
      (s.seq.ckptPend = false → t.seq = s.seq ∧ t.mem = s.mem) ∧
      (s.sch.patch ≠ some .due → ∀ d, d ≠ c → t.clause d = s.clause d))

/-- FAB_ISO_REQUEST, FAB_REL_REQUEST and ISO_BOUNDARY_APPLY (R165). -/
def Obligations.IsolationRequests : Prop :=
  (∀ (i : Instr) (c : Nat) (rel xinj : Bool) (s : State) (r : Nat),
    (i = .fabIsoRequest c xinj ∧ rel = false ∨ i = .fabRelRequest c ∧ rel = true) → c < 64 →
    (∀ q, s.fab.iso = some q → q.due = false) →
    (s.fab.iso ≠ none ∧ r = 4 ∨ s.fab.iso = none ∧ rel = false ∧ (s.clause c).loaded = false ∧ r = 1 ∨
      s.fab.iso = none ∧ rel = true ∧ (s.clause c).passed = false ∧ r = 2 ∨
      s.fab.iso = none ∧ rel = false ∧ (s.clause c).loaded = true ∧ (s.clause c).iso = true ∧ r = 3 ∨
      s.fab.iso = none ∧ rel = true ∧ (s.clause c).passed = true ∧ (s.clause c).iso = false ∧ r = 3) →
    leads i s fun t => posted F.FAB_EVT_ISO_REF 8 4 [c, r] s t ∧ t.fget F.FAB_ISO_RESULT = r ∧ t.fget F.FAB_ISO_CLAUSE = c ∧
      t.clauses = s.clauses ∧ t.fab = s.fab ∧ t.seq = s.seq ∧ t.mem = s.mem ∧
      onlyFields [F.FAB_ISO_CLAUSE, F.FAB_ISO_XINJ, F.FAB_ISO_RESULT, F.FAB_EVT_ISO_REF] s t) ∧
  (∀ (i : Instr) (c : Nat) (rel xinj : Bool) (s : State),
    (i = .fabIsoRequest c xinj ∧ rel = false ∧ (s.clause c).loaded = true ∧ (s.clause c).iso = false ∨
      i = .fabRelRequest c ∧ rel = true ∧ (s.clause c).passed = true ∧ (s.clause c).iso = true) → s.fab.iso = none → c < 64 →
    (s.stepping = true ∨ s.atPhase0 = false →
      leads i s fun t => (∃ x, t.fab.iso = some { clause := c, rel := rel, xinj := x, due := false }) ∧ t.clauses = s.clauses ∧
        t.evq = s.evq ∧ t.fget F.FAB_ISO_ISO = (if rel then 0 else 1) ∧ t.fget F.FAB_ISO_REL = (if rel then 1 else 0) ∧
        t.seq = s.seq ∧ onlyFields [F.FAB_ISO_CLAUSE, F.FAB_ISO_XINJ, F.FAB_ISO_ISO, F.FAB_ISO_REL] s t) ∧
    (s.stepping = false → s.atPhase0 = true →
      leads i s fun t => t.fab.iso = none ∧ t.clause c = { s.clause c with iso := !rel, xinj := !rel && xinj } ∧
        (∀ d, d ≠ c → t.clause d = s.clause d) ∧ t.fget F.FAB_ISO_RESULT = 0 ∧ t.fget F.FAB_ISO_ISO = 0 ∧
        t.fget F.FAB_ISO_REL = 0 ∧ t.fget F.FAB_EVT_ISO = 1 ∧ t.seq = s.seq ∧ t.mem = s.mem ∧
        onlyFields [F.FAB_ISO_CLAUSE, F.FAB_ISO_XINJ, F.FAB_ISO_ISO, F.FAB_ISO_REL, F.FAB_ISO_RESULT, F.FAB_EVT_ISO] s t)) ∧
  (∀ (s : State) (q : IsoReq), s.fab.iso = some q → q.due = true → leads .isoBoundaryApply s fun t => t.fab.iso = none ∧
      t.clause q.clause = { s.clause q.clause with iso := !q.rel, xinj := !q.rel && q.xinj } ∧
      (∀ d, d ≠ q.clause → t.clause d = s.clause d) ∧ t.fget F.FAB_ISO_RESULT = 0 ∧
      posted F.FAB_EVT_ISO 8 3 ([q.clause, q.rel.toNat, (if q.rel then (s.clause q.clause).xinj else q.xinj).toNat] ++
        w64 s.seq.step) s t ∧
      t.seq = s.seq ∧ t.mem = s.mem ∧ onlyFields [F.FAB_ISO_ISO, F.FAB_ISO_REL, F.FAB_ISO_RESULT, F.FAB_EVT_ISO] s t) ∧
  (∀ s : State, (∀ q, s.fab.iso = some q → q.due = false) → exec .isoBoundaryApply s = .next s) ∧
  (∀ (i : Instr) (c : Nat) (xinj : Bool) (s u : State) (q : IsoReq), (i = .fabIsoRequest c xinj ∨ i = .fabRelRequest c) →
    s.fab.iso = some q → q.due = true → exec .isoBoundaryApply s = .next u → exec i s = exec i u)

/-- FAB_AGREE_COMMIT (R162, R170). The first step of a failed commit is not stated: a free value (log 4). -/
def Obligations.AgreeCommits : Prop :=
  (∀ (tag : Byte) (s : State), s.fab.agree ≠ none →
    leads (.fabAgreeCommit tag) s fun t => t.fget F.FAB_AGREE_RESULT = 4 ∧ t.evq = s.evq ∧ t.fab = s.fab ∧ t.clauses = s.clauses ∧
      onlyFields [F.FAB_AGREE_RESULT] s t) ∧
  (∀ (tag : Byte) (s : State) (r : Nat), s.fab.agree = none →
    ((linkOf (s.fget F.FAB_SPSEL_CONN / 4) (s.fget F.FAB_SPSEL_CONN % 4) ≠ none ∧ r = 1) ∨
      (linkOf (s.fget F.FAB_SPSEL_CONN / 4) (s.fget F.FAB_SPSEL_CONN % 4) = none ∧ r = 2 ∧
        (s.fbit F.FAB_SPTX_EN ≠ s.fbit F.FAB_SPRX_EN ∨ s.fbit F.FAB_SPTX_EN = true ∧ s.fbit F.FAB_SPRX_EN = true ∧
          s.fget F.FAB_SPTX_LANE ≠ s.fget F.FAB_SPRX_LANE))) →
    leads (.fabAgreeCommit tag) s fun t => t.fget F.FAB_AGREE_RESULT = r ∧ t.fget F.FAB_AGREE_TAG = tag.toNat ∧
      t.fget F.FAB_EVT_AGREE = 1 ∧ t.fab = s.fab ∧ t.clauses = s.clauses ∧ t.seq = s.seq ∧ t.mem = s.mem ∧
      onlyFields [F.FAB_AGREE_TAG, F.FAB_AGREE_RESULT, F.FAB_EVT_AGREE] s t) ∧
  (∀ (tag : Byte) (s : State), s.fab.agree = none → s.sparingFault = none → s.stepping = false →
    leads (.fabAgreeCommit tag) s fun t =>
      posted F.FAB_EVT_AGREE 8 6 ([tag.toNat, s.fget F.FAB_SPSEL_CONN, 0] ++ w64 s.seq.step) s t ∧ t.fget F.FAB_AGREE_RESULT = 0 ∧
      t.fget F.FAB_AGREE_BUSY = 0 ∧ t.conn (s.fget F.FAB_SPSEL_CONN) = { s.conn (s.fget F.FAB_SPSEL_CONN) with
        spare := if s.fbit F.FAB_SPTX_EN then some (s.fget F.FAB_SPTX_LANE) else none } ∧
      (∀ k, k ≠ s.fget F.FAB_SPSEL_CONN → t.conn k = s.conn k) ∧ t.clauses = s.clauses ∧ t.seq = s.seq ∧ t.mem = s.mem) ∧
  (∀ (tag : Byte) (s : State), s.fab.agree = none → s.sparingFault = none → s.stepping = true →
    leads (.fabAgreeCommit tag) s fun t => t.fget F.FAB_AGREE_BUSY = 1 ∧ t.fab.agree.isSome = true ∧ (∀ k, t.conn k = s.conn k) ∧
      t.evq = s.evq ∧ t.clauses = s.clauses ∧ t.seq = s.seq ∧ onlyFields [F.FAB_AGREE_TAG, F.FAB_AGREE_BUSY] s t)

/-- READ_REPAIR_WRITEBACK and SCRUB_ROW_READ (R179, R183, R188). -/
def Obligations.ScrubberReadsRows : Prop :=
  (∀ (c row word : Nat) (s : State), s.markAt c (128 * row + word) = 3 →
    leads (.readRepairWriteback c row word) s fun t => t.markAt c (128 * row + word) = 0 ∧
      (∀ k, s.arrayLoc c k ≠ s.arrayLoc c (128 * row + word) → t.markAt c k = s.markAt c k) ∧
        (t.clause c).words = (s.clause c).words ∧
      (∀ d, d ≠ c → t.clause d = s.clause d) ∧ onlyFields [] s t ∧ t.evq = s.evq ∧ t.seq = s.seq ∧ t.mem = s.mem) ∧
  (∀ (c row word : Nat) (s : State), s.markAt c (128 * row + word) ≠ 3 →
    exec (.readRepairWriteback c row word) s = .next s) ∧
  (∀ (c : Nat) (ups : List Upset) (s u : State), u = upsets ups s → u.gated c = true → exec (.scrubRowRead c ups) s = .next u) ∧
  (∀ (c : Nat) (ups : List Upset) (s u : State), u = upsets ups s → u.gated c = false →
    (u.clause c).schBad.filter (fun e => e.1 / 128 == u.arrayRow c (u.clause c).scrub) = [] →
    leads (.scrubRowRead c ups) s fun t =>
      t.clause c = { u.clause c with scrub := if (u.clause c).scrub + 1 < 9472 then (u.clause c).scrub + 1 else 0 } ∧
      (∀ d, d ≠ c → t.clause d = u.clause d) ∧ onlyFields [] u t ∧ t.evq = u.evq ∧ t.seq = u.seq ∧ t.mem = u.mem) ∧
  (∀ (c word m : Nat) (ups : List Upset) (s u : State), u = upsets ups s → u.gated c = false → word < 128 → m ≠ 2 →
    (u.clause c).schBad.filter (fun e => e.1 / 128 == u.arrayRow c (u.clause c).scrub) =
      [(128 * u.arrayRow c (u.clause c).scrub + word, m)] →
    leads (.scrubRowRead c ups) s fun t => kvGet 0 (t.clause c).schBad (128 * u.arrayRow c (u.clause c).scrub + word) = 0 ∧
      counted F.SCH_CNT_SCRUB_COUNT u t ∧ (t.clause c).ce = min (2 ^ 32 - 1) ((u.clause c).ce + 1) ∧
      (t.clause c).scrub = (if (u.clause c).scrub + 1 < 9472 then (u.clause c).scrub + 1 else 0) ∧
      (t.clause c).words = (u.clause c).words ∧ (t.clause c).vs = (u.clause c).vs ∧
      (∀ d, d ≠ c → t.clause d = u.clause d) ∧ t.seq = u.seq ∧ t.mem = u.mem ∧
      onlyFields [F.SCH_CNT_SCRUB_COUNT, F.SCH_EVT_CE, F.SCH_EVT_ROW_HOT] u t) ∧
  (∀ (c word : Nat) (ups : List Upset) (s u : State), u = upsets ups s → u.gated c = false → word < 128 →
    (u.clause c).scrub ≠ 8704 → (u.clause c).scrub ≠ 8705 →
    (u.clause c).schBad.filter (fun e => e.1 / 128 == u.arrayRow c (u.clause c).scrub) =
      [(128 * u.arrayRow c (u.clause c).scrub + word, 2)] →
    leads (.scrubRowRead c ups) s fun t => posted F.SCH_EVT_SCRUB_UE 6 3 [c, (u.clause c).scrub, word] u t ∧
      t.clause c = { u.clause c with
        scrub := if (u.clause c).scrub + 1 < 9472 then (u.clause c).scrub + 1 else 0
        schBad := if 9216 ≤ (u.clause c).scrub ∧ u.logicalRow c (u.clause c).scrub = none then
            kvSet 0 (u.clause c).schBad (u.arrayLoc c (128 * (u.clause c).scrub + word)) 0
          else (u.clause c).schBad } ∧
      (∀ d, d ≠ c → t.clause d = u.clause d) ∧ t.seq = u.seq ∧ t.mem = u.mem ∧ onlyFields [F.SCH_EVT_SCRUB_UE] u t)

/-- PARAM_CHECK, SCH_PARAM and RIM_PARAM (R187, R199, R355, R360). -/
def Obligations.ParameterChecks : Prop :=
  (∀ s : State, leads .schParam s fun t =>
    posted F.SCH_EVT_PARAM 6 8 [s.sch.dis.toNat] s t ∧ t.sch = { s.sch with dis := 0 } ∧ t.clauses = s.clauses ∧ t.rim = s.rim ∧
      t.seq = s.seq ∧ t.mem = s.mem ∧ onlyFields [F.SCH_EVT_PARAM] s t) ∧
  (∀ s : State, leads .rimParam s fun t =>
    posted F.RIM_EVT_PARAM 11 4 [s.rim.dis.toNat] s t ∧ t.rim = { s.rim with dis := false } ∧ t.clauses = s.clauses ∧
      t.sch = s.sch ∧
      t.seq = s.seq ∧ t.mem = s.mem ∧ onlyFields [F.RIM_EVT_PARAM] s t) ∧
  (∀ (struck : Option (Nat × Nat)) (iv th : Nat) (s : State),
    iv = (struck.map fun v => v.1 % 2 ^ F.SCH_SCRUB_INTERVAL.width).getD (s.fget F.SCH_SCRUB_INTERVAL) →
    th = (struck.map fun v => v.2 % 2 ^ F.SCH_ROWHOT_THR.width).getD (s.fget F.SCH_ROWHOT_THR) →
    leads (.paramCheck false struck) s fun t => t.sch = { s.sch with dis := 0 } ∧ t.clauses = s.clauses ∧ t.rim = s.rim ∧
    t.seq = s.seq ∧ t.mem = s.mem ∧
    if Config.sm3 (paramBytes iv th s.sch.dis.toNat) = Config.sm3 (paramBytes s.sch.wrote.1 s.sch.wrote.2 0) then
      t.evq = s.evq ∧ t.fget F.SCH_SCRUB_INTERVAL = iv ∧ t.fget F.SCH_ROWHOT_THR = th ∧
      onlyFields [F.SCH_SCRUB_INTERVAL, F.SCH_ROWHOT_THR] s t
    else posted F.SCH_EVT_PARAM 6 8 [s.sch.dis.toNat] s t ∧
      t.fget F.SCH_SCRUB_INTERVAL = s.sch.wrote.1 % 2 ^ F.SCH_SCRUB_INTERVAL.width ∧
      t.fget F.SCH_ROWHOT_THR = s.sch.wrote.2 % 2 ^ F.SCH_ROWHOT_THR.width ∧
      onlyFields [F.SCH_SCRUB_INTERVAL, F.SCH_ROWHOT_THR, F.SCH_EVT_PARAM] s t) ∧
  (∀ (struck : Option (Nat × Nat)) (iv : Nat) (s : State),
    iv = (struck.map fun v => v.1 % 2 ^ F.RIM_SCRUB_INTERVAL.width).getD (s.fget F.RIM_SCRUB_INTERVAL) →
    leads (.paramCheck true struck) s fun t => t.rim = { s.rim with dis := false } ∧ t.clauses = s.clauses ∧ t.sch = s.sch ∧
    t.seq = s.seq ∧ t.mem = s.mem ∧
    if Config.sm3 (paramBytes iv s.rim.dis.toNat 0) = Config.sm3 (paramBytes s.rim.wrote 0 0) then
      t.evq = s.evq ∧ t.fget F.RIM_SCRUB_INTERVAL = iv ∧ onlyFields [F.RIM_SCRUB_INTERVAL] s t
    else posted F.RIM_EVT_PARAM 11 4 [s.rim.dis.toNat] s t ∧
      t.fget F.RIM_SCRUB_INTERVAL = s.rim.wrote % 2 ^ F.RIM_SCRUB_INTERVAL.width ∧
      onlyFields [F.RIM_SCRUB_INTERVAL, F.RIM_EVT_PARAM] s t)

/-- SCH_RMAP_GO and RMAP_COMPLETE (R188, R189). Which free spare row is taken is not stated: a free value (log 4). -/
def Obligations.RowsAreMapped : Prop :=
  (∀ (c row r : Nat) (s : State), c < 64 → row < 2 ^ 14 →
    (s.sch.rmap ≠ none ∧ r = 5 ∨ s.sch.rmap = none ∧ (s.gated c = true ∧ r = 6 ∨ s.gated c = false ∧
      (9215 < row ∧ r = 2 ∨ row ≤ 9215 ∧ (s.spareOf c row ≠ none ∧ r = 3 ∨
        s.spareOf c row = none ∧ s.rowFree c = 0 ∧ r = 1)))) →
    leads (.schRmapGo c row) s fun t => t.fget F.SCH_RMAP_RESULT = r ∧ t.fget F.SCH_EVT_RMAP = 1 ∧ t.fget F.SCH_RMAP_CLAUSE = c ∧
      t.fget F.SCH_RMAP_ROW = row ∧ t.clauses = s.clauses ∧ t.sch = s.sch ∧ t.seq = s.seq ∧ t.mem = s.mem ∧
      onlyFields [F.SCH_RMAP_CLAUSE, F.SCH_RMAP_ROW, F.SCH_RMAP_RESULT, F.SCH_EVT_RMAP] s t) ∧
  (∀ (c row : Nat) (s : State), s.sch.rmap = none → s.gated c = false → row ≤ 9215 → s.spareOf c row = none →
    s.rowFree c ≠ 0 →
    leads (.schRmapGo c row) s fun t => t.sch.rmap = some (c, row) ∧ t.fget F.SCH_RMAP_GO = 1 ∧ t.fget F.SCH_STAT_RMAP_BUSY = 1 ∧
      t.evq = s.evq ∧ t.clauses = s.clauses ∧ t.seq = s.seq ∧ t.mem = s.mem ∧
      onlyFields [F.SCH_RMAP_CLAUSE, F.SCH_RMAP_ROW, F.SCH_RMAP_GO, F.SCH_STAT_RMAP_BUSY] s t) ∧
  (∀ (m c row : Nat) (s : State), s.sch.rmap = some (c, row) →
    leads (.rmapComplete m) s fun t => t.sch.rmap = none ∧ t.fget F.SCH_RMAP_GO = 0 ∧ t.fget F.SCH_STAT_RMAP_BUSY = 0 ∧
      t.fget F.SCH_RMAP_RESULT = (if m < 2 then 0 else 4) ∧ t.fget F.SCH_EVT_RMAP = 1 ∧
      (m < 2 → s.rowFree c ≠ 0 → ∃ k, k < 256 ∧ t.spareOf c row = some k ∧ ∀ r, s.spareOf c r ≠ some k) ∧
      (m < 2 → (∀ e, e ∈ (s.clause c).rowMap → e.1 ≠ row) → t.rowFree c = s.rowFree c - 1) ∧
      (2 ≤ m → t.spareOf c row = s.spareOf c row ∧ t.rowFree c = s.rowFree c) ∧
      (2 ≤ m → (s.clause c).schBad.filter (fun e => e.1 / 128 == row) = [] → t.clause c = s.clause c) ∧
      (∀ r, r ≠ row → t.spareOf c r = s.spareOf c r) ∧ (∀ d, d ≠ c → t.clause d = s.clause d) ∧ t.seq = s.seq ∧ t.mem = s.mem)

/-- SCH_PATCH_APPLY, PATCH_BOUNDARY_HOLD and PATCH_HOLD_END (R138, R191, R193, R194; the answer to a PATCH_SET is R293). -/
def Obligations.PatchesApplyTogether : Prop :=
  (∀ s : State, s.sch.patch ≠ none → leads .schPatchApply s fun t => t.fget F.SCH_PATCH_RESULT = 4 ∧ t.fget F.SCH_EVT_PATCH = 1 ∧
    t.sch = s.sch ∧ t.clauses = s.clauses ∧ t.seq = s.seq ∧ onlyFields [F.SCH_PATCH_RESULT, F.SCH_EVT_PATCH] s t) ∧
  (∀ s : State, s.sch.patch = none → s.stepping = true ∨ s.atPhase0 = false ∨ s.migRuns = true → leads .schPatchApply s fun t =>
    t.sch = { s.sch with patch := some (if s.stepping = false ∧ s.atPhase0 = true then .due else .pending) } ∧
    t.fget F.SCH_PATCH_APPLY = 1 ∧ t.fget F.SCH_STAT_PATCH_BUSY = 1 ∧ t.clauses = s.clauses ∧ t.seq = s.seq ∧ t.evq = s.evq ∧
    onlyFields [F.SCH_PATCH_APPLY, F.SCH_STAT_PATCH_BUSY] s t) ∧
  (∀ s : State, s.sch.patch = some .due → s.migRuns = false →
    exec .patchBoundaryHold s = .next { s with sch := { s.sch with patch := some .hold } }) ∧
  (∀ s : State, s.sch.patch ≠ some .due ∨ s.migRuns = true → exec .patchBoundaryHold s = .next s) ∧
  (∀ (i : Instr) (s : State) (res reason unit : Nat),
    (i = .patchHoldEnd ∧ s.sch.patch = some .hold ∧ s.mgt.patch = none ∨
      i = .schPatchApply ∧ s.sch.patch = none ∧ s.stepping = false ∧ s.atPhase0 = true ∧ s.migRuns = false) →
    s.patchFault false = some (res, reason, unit) → res < 256 → unit < 64 →
    leads i s fun t => t.sch = { s.sch with patch := none } ∧ t.clauses = s.clauses ∧ t.fget F.SCH_PATCH_RESULT = res ∧
      (s.staged ≠ [] → t.fget F.SCH_PATCH_UNIT = unit) ∧ t.fget F.SCH_PATCH_APPLY = 0 ∧
      t.fget F.SCH_STAT_PATCH_BUSY = 0 ∧ t.fget F.SCH_EVT_PATCH = 1 ∧ t.seq = s.seq ∧ t.mem = s.mem) ∧
  (∀ (i : Instr) (s : State),
    (i = .patchHoldEnd ∧ s.sch.patch = some .hold ∧ s.mgt.patch = none ∨
      i = .schPatchApply ∧ s.sch.patch = none ∧ s.stepping = false ∧ s.atPhase0 = true ∧ s.migRuns = false) →
    s.patchFault false = none → leads i s fun t =>
      t.sch.patch = none ∧ t.sch.stgW = s.sch.stgW ∧
      (∀ u, u < 64 → kvGet 0#128 t.sch.actW u = kvGet 0#128 s.sch.stgW u ∧
        kvGet 0 t.sch.actA u = (if puMode (s.puAddr u) = 3 then s.puAddr u % 2 ^ 30 else s.puAddr u)) ∧
      t.fget F.SCH_PATCH_RESULT = 0 ∧ t.fget F.SCH_PATCH_APPLY = 0 ∧ t.fget F.SCH_STAT_PATCH_BUSY = 0 ∧
        t.fget F.SCH_EVT_PATCH = 1 ∧
      t.seq = s.seq ∧ t.mem = s.mem) ∧
  (∀ (s : State) (slot set : Nat) (withdraw : Bool), s.sch.patch = some .hold → s.mgt.patch = some (slot, set, withdraw) →
    leads .patchHoldEnd s fun t => t.sch.patch = none ∧ t.mgt.patch = none ∧
      (slot < 4 → nbit (t.fget F.MGT_SVC_GO) slot = false) ∧ t.seq = s.seq ∧ t.mem = s.mem) ∧
  (∀ s : State, s.sch.patch ≠ some .hold → exec .patchHoldEnd s = .next s)

/-- RIM_OUTBOUND_READ and RIM_INBOUND_WRITE (R344, R345, R351). -/
def Obligations.StepLanesKeepOrder : Prop :=
  (∀ (g n : Nat) (e : DWord) (rest : List (Nat × DWord)) (s : State), (s.group g).outq = (n, e) :: rest →
    s.groupFenced g = false →
    s.slRuns = true → (s.group g).outMoved < 4 →
    leads (.rimOutboundRead g) s fun t => (t.group g).outq = rest ∧ t.out = s.out ++ [.rimEntry g (n % 65536) e] ∧
      (t.group g).inq = (s.group g).inq ∧ (t.group g).outMoved = (s.group g).outMoved + 1 ∧ (∀ d, d ≠ g →
        t.group d = s.group d) ∧ onlyFields [] s t ∧ t.clauses = s.clauses ∧
      t.seq = s.seq ∧ t.mem = s.mem ∧ t.evq = s.evq) ∧
  (∀ (g : Nat) (s : State), (s.group g).outq = [] ∨ s.groupFenced g = true ∨ s.slRuns = false ∨ 4 ≤ (s.group g).outMoved →
    exec (.rimOutboundRead g) s = .next s) ∧
  (∀ (g : Nat) (e : DWord) (s : State), s.inEn g = true → s.groupFenced g = false → (s.group g).inq.length < 64 →
    s.slRuns = true → (s.group g).inMoved < 4 →
    leads (.rimInboundWrite g e) s fun t => (t.group g).inq = (s.group g).inq ++ [((s.group g).inNext, e)] ∧
      (t.group g).inNext = (s.group g).inNext + 1 ∧ (t.group g).outq = (s.group g).outq ∧
        (t.group g).inMoved = (s.group g).inMoved + 1 ∧ (∀ d, d ≠ g → t.group d = s.group d) ∧
      onlyFields [] s t ∧ t.out = s.out ∧ t.clauses = s.clauses ∧ t.seq = s.seq ∧ t.mem = s.mem ∧ t.evq = s.evq) ∧
  (∀ (g : Nat) (e : DWord) (s : State), s.inEn g = false ∨ s.groupFenced g = true ∨ 64 ≤ (s.group g).inq.length ∨
    s.slRuns = false ∨
      4 ≤ (s.group g).inMoved → exec (.rimInboundWrite g e) s = .next s)

/-- RIM_PRC_FENCE and RIM_PRC_REL (R350 to R352). -/
def Obligations.RegionsFenceAndRelease : Prop :=
  (∀ (r x : Nat) (s : State), r < 16 → (s.regionDef r = false ∧ x = 1 ∨ s.regionDef r = true ∧ s.regionSt r ≠ .active ∧ x = 2) →
    leads (.rimPrcFence r) s fun t => posted F.RIM_EVT_PR 11 5 [r, 0, x] s t ∧ t.fget F.RIM_PRC_RESULT = x ∧
      t.fget F.RIM_PRC_REGION = r ∧ t.rim = s.rim ∧ t.clauses = s.clauses ∧ t.seq = s.seq ∧ t.mem = s.mem ∧
      onlyFields [F.RIM_PRC_REGION, F.RIM_PRC_RESULT, F.RIM_EVT_PR] s t) ∧
  (∀ (r : Nat) (s : State), r < 16 → s.regionDef r = true → s.regionSt r = .active →
    leads (.rimPrcFence r) s fun t => posted F.RIM_EVT_PR 11 5 [r, 0, 0] s t ∧ t.fget F.RIM_PRC_RESULT = 0 ∧
      t.regionSt r = .fenced ∧ (∀ d, d ≠ r → t.regionSt d = s.regionSt d) ∧ t.rim.frames = s.rim.frames ∧
      (∀ u f, u < 12288 → f < 16 → kvGet none t.rim.ff (16 * u + f) =
        if inRegion (s.regionFrame r) (groupPlace u) then none else kvGet none s.rim.ff (16 * u + f)) ∧
      t.rim.groups = s.rim.groups ∧ t.clauses = s.clauses ∧ t.seq = s.seq ∧ t.mem = s.mem) ∧
  (∀ (r x : Nat) (s : State), r < 16 → (s.regionDef r = false ∧ x = 1 ∨ s.regionDef r = true ∧ s.regionSt r = .active ∧ x = 2 ∨
      s.regionDef r = true ∧ s.regionSt r = .loading ∧ x = 3) →
    leads (.rimPrcRel r) s fun t => posted F.RIM_EVT_PR 11 5 [r, 1, x] s t ∧ t.fget F.RIM_PRC_RESULT = x ∧
      t.rim = s.rim ∧ t.clauses = s.clauses ∧ t.seq = s.seq ∧ t.mem = s.mem ∧
      onlyFields [F.RIM_PRC_REGION, F.RIM_PRC_RESULT, F.RIM_EVT_PR] s t) ∧
  (∀ (r : Nat) (s : State), r < 16 → s.regionDef r = true → s.regionSt r = .fenced →
    leads (.rimPrcRel r) s fun t => t.fget F.RIM_PRC_RESULT = 0 ∧ t.fget F.RIM_EVT_PR = 1 ∧
      t.regionSt r = .active ∧ (∀ d, d ≠ r → t.regionSt d = s.regionSt d) ∧ t.rim.frames = s.rim.frames ∧
      ((∀ g, s.regionOf g = some r → (s.group g).filled = none) →
        posted F.RIM_EVT_PR 11 5 [r, 1, 0] s t ∧ t.rim.groups = s.rim.groups) ∧
      (∀ g n m, g < 16 → s.regionOf g = some r → (s.group g).filled = some (n, m) →
        t.fget F.RIM_EVT_SAFE = 1 ∧ (s.fbit (evten F.RIM_EVT_SAFE) = true → ∃ lo hi : Nat, lo ≤ n ∧ m ≤ hi ∧
          ∃ e ∈ t.evq, e.src = 11 ∧ e.code = 7 ∧ e.payload = [r] ++ w64 lo ++ w64 hi)) ∧
      (∀ g, g < 16 → s.regionOf g = some r → (t.group g).filled = none) ∧
      (∀ g, (t.group g).inq = (s.group g).inq ∧ (t.group g).outq = (s.group g).outq ∧ (t.group g).inNext = (s.group g).inNext) ∧
      t.clauses = s.clauses ∧ t.seq = s.seq ∧ t.mem = s.mem)

/-- RIM_PLL_UNLOCK, RIM_PLL_RELOCK, RIM_ONEHOT and RIM_FRAME_SCRUB (R335, R337, R354). -/
def Obligations.RimWatchesItself : Prop :=
  (∀ (i : Instr) (p : Nat) (on : Bool) (s : State), (i = .rimPllUnlock p ∧ on = false ∨ i = .rimPllRelock p ∧ on = true) →
    nbit (s.pllFrame p) 24 = true → s.pllLocked p = !on →
    leads i s fun t => posted F.RIM_EVT_PLL 11 6 [p, on.toNat, (s.pllTrees p).length] s t ∧ t.pllLocked p = on ∧
      (∀ q, q ≠ p → t.pllLocked q = s.pllLocked q) ∧
      (on = false → ∀ k, nbits (s.treeFrame k) 0 4 / 2 = p → p < 4 → t.treeRuns k = false) ∧
      t.rim.frames = s.rim.frames ∧ t.clauses = s.clauses ∧ t.seq = s.seq ∧ t.mem = s.mem ∧ onlyFields [F.RIM_EVT_PLL] s t) ∧
  (∀ (i : Instr) (p : Nat) (on : Bool) (s : State), (i = .rimPllUnlock p ∧ on = false ∨ i = .rimPllRelock p ∧ on = true) →
    (nbit (s.pllFrame p) 24 = false ∨ s.pllLocked p = on) →
    leads i s fun t => t.evq = s.evq ∧ t.rim = s.rim ∧ t.clauses = s.clauses ∧ t.seq = s.seq ∧ t.mem = s.mem ∧
      onlyFields [] s t) ∧
  (∀ (a mux : Nat) (s : State), kvGet false s.rim.onehot a = false →
    leads (.rimOnehot a mux) s fun t => posted F.RIM_EVT_ONEHOT 11 3 [a, mux] s t ∧ counted F.RIM_CNT_ONEHOT_COUNT s t ∧
      kvGet false t.rim.onehot a = true ∧ t.rim.lastRfa = a ∧ t.rim.frames = s.rim.frames ∧ t.seq = s.seq ∧ t.mem = s.mem ∧
      onlyFields [F.RIM_CNT_ONEHOT_COUNT, F.RIM_EVT_ONEHOT] s t) ∧
  (∀ (a mux : Nat) (s : State), kvGet false s.rim.onehot a = true → exec (.rimOnehot a mux) s = .next s) ∧
  (∀ (ups : List Upset) (s u : State), u = upsets ups s → u.nextFrame = none → exec (.rimFrameScrub ups) s = .next u) ∧
  (∀ (ups : List Upset) (s u : State) (a : Nat), u = upsets ups s → u.nextFrame = some a →
    leads (.rimFrameScrub ups) s fun t => t.rim.scrub = a ∧ t.rim.frames = u.rim.frames ∧
      (∀ w, w < 4 → kvGet 0 u.rim.bad (4 * a + w) = 1 → kvGet 0 t.rim.bad (4 * a + w) = 0) ∧
      (∀ k, k / 4 ≠ a ∨ kvGet 0 u.rim.bad k ≠ 1 → kvGet 0 t.rim.bad k = kvGet 0 u.rim.bad k) ∧
      t.fget F.RIM_CNT_FIX_COUNT =
        min (u.fget F.RIM_CNT_FIX_COUNT + ((List.range 4).filter fun w => kvGet 0 u.rim.bad (4 * a + w) == 1).length) (2 ^ 32 - 1) ∧
      t.fget F.RIM_CNT_UE_COUNT =
        min (u.fget F.RIM_CNT_UE_COUNT + ((List.range 4).filter fun w => decide (2 ≤ kvGet 0 u.rim.bad (4 * a + w))).length) (2 ^ 32 - 1) ∧
      ((∃ w, w < 4 ∧ 2 ≤ kvGet 0 u.rim.bad (4 * a + w)) → t.fget F.RIM_EVT_FRAME_UE = 1) ∧
      t.clauses = u.clauses ∧ t.seq = u.seq ∧ t.mem = u.mem ∧
      onlyFields [F.RIM_CNT_FIX_COUNT, F.RIM_CNT_UE_COUNT, F.RIM_EVT_FRAME_FIX, F.RIM_EVT_FRAME_UE] u t)

/-- VCCIO_GOOD, VCCIO_LOST, RIM_REL and RIM_DIS (R375, R382, R384). -/
def Obligations.BanksFollowPower : Prop :=
  (∀ (b mv strap : Nat) (s : State), (s.bank b).st = .off → 1000 ≤ mv → leads (.vccioGood b mv strap) s fun t =>
    t.bank b = { s.bank b with st := .unrel, vccmv := mv, strap := strap, refused := 0 } ∧ (∀ d, d ≠ b → t.bank d = s.bank d) ∧
      postedIo 4 [b, 1, mv] s t ∧ t.clauses = s.clauses ∧ t.seq = s.seq ∧ t.mem = s.mem ∧ onlyFields [F.RIM_EVT_IO] s t) ∧
  (∀ (b mv strap : Nat) (s : State), (s.bank b).st ≠ .off ∨ mv < 1000 → exec (.vccioGood b mv strap) s = .next s) ∧
  (∀ (b mv : Nat) (s : State), (s.bank b).st ≠ .off → mv < 900 → leads (.vccioLost b mv) s fun t =>
    t.bank b = { (s.bank b).quiet with st := .off, vccmv := mv, refused := 0 } ∧ (∀ d, d ≠ b → t.bank d = s.bank d) ∧
      postedIo 4 [b, 0, mv] s t ∧ t.clauses = s.clauses ∧ t.seq = s.seq ∧ t.mem = s.mem ∧ onlyFields [F.RIM_EVT_IO] s t) ∧
  (∀ (b mv : Nat) (s : State), (s.bank b).st = .off ∨ 900 ≤ mv → exec (.vccioLost b mv) s = .next s) ∧
  (∀ (b : Nat) (s : State), (s.bank b).st = .unrel → s.rim.base = true → s.vccOk b = true → leads (.rimRel b) s fun t =>
    t.bank b = { s.bank b with st := .check, open_ := 0, short := 0, refused := 0 } ∧ (∀ d, d ≠ b → t.bank d = s.bank d) ∧
      t.evq = s.evq ∧ t.clauses = s.clauses ∧ t.seq = s.seq ∧ t.mem = s.mem ∧ onlyFields [] s t) ∧
  (∀ (b x : Nat) (s : State), ((s.bank b).st ≠ .unrel ∧ x = 6 ∨ (s.bank b).st = .unrel ∧ s.rim.base = false ∧ x = 1 ∨
      (s.bank b).st = .unrel ∧ s.rim.base = true ∧ s.vccOk b = false ∧ x = 2) →
    leads (.rimRel b) s fun t => postedIo 0 [b, 0, x] s t ∧ t.fget (F.RIM_IOSTAT_RESULT b) = x ∧ t.rim = s.rim ∧
      t.clauses = s.clauses ∧ t.seq = s.seq ∧ t.mem = s.mem ∧ onlyFields [F.RIM_IOSTAT_RESULT b, F.RIM_EVT_IO] s t) ∧
  (∀ (b : Nat) (s : State), ((s.bank b).st = .released ∨ (s.bank b).st = .fault) → leads (.rimDis b) s fun t =>
    t.bank b = { (s.bank b).quiet with st := .unrel } ∧ (∀ d, d ≠ b → t.bank d = s.bank d) ∧ postedIo 0 [b, 1, 0] s t ∧
      t.fget (F.RIM_IOSTAT_RESULT b) = 0 ∧ t.clauses = s.clauses ∧ t.seq = s.seq ∧ t.mem = s.mem ∧
      onlyFields [F.RIM_IOSTAT_RESULT b, F.RIM_EVT_IO] s t) ∧
  (∀ (b : Nat) (s : State), (s.bank b).st ≠ .released → (s.bank b).st ≠ .fault → leads (.rimDis b) s fun t =>
    postedIo 0 [b, 1, 6] s t ∧ t.fget (F.RIM_IOSTAT_RESULT b) = 6 ∧ t.rim = s.rim ∧ t.clauses = s.clauses ∧ t.seq = s.seq ∧
      t.mem = s.mem ∧ onlyFields [F.RIM_IOSTAT_RESULT b, F.RIM_EVT_IO] s t)

/-- BANK_CHECK_COMPLETE, KEY_SAMPLE and RIM_IO_SHORT (R368, R373, R374, R375). -/
def Obligations.BanksCheckKeyAndWires : Prop :=
  (∀ (b r : Nat) (key : BitVec 2) (m : BitVec 48) (s : State), (s.bank b).st = .check →
    (key = 2#2 ∧ r = 3 ∨ key = 3#2 ∧ nbit (s.bankFrame b) 771 = true ∧ r = 4 ∨ key = 0#2 ∧ r = 5) →
    leads (.bankCheckComplete b key m) s fun t => t.bank b = { s.bank b with st := .unrel, key := key.toNat } ∧
      (∀ d, d ≠ b → t.bank d = s.bank d) ∧ t.fget (F.RIM_IOSTAT_RESULT b) = r ∧ postedIo 1 [b, key.toNat, 1] s t ∧ t.seq = s.seq ∧
      t.mem = s.mem ∧ onlyFields [F.RIM_IOSTAT_RESULT b, F.RIM_EVT_IO] s t) ∧
  (∀ (b : Nat) (key : BitVec 2) (m : BitVec 48) (s : State), (s.bank b).st = .check →
    (key = 1#2 ∨ key = 3#2 ∧ nbit (s.bankFrame b) 771 = false) →
    leads (.bankCheckComplete b key m) s fun t =>
      t.bank b = { s.bank b with st := .released, key := key.toNat, open_ := m.toNat, short := 0, refused := 0 } ∧
      (∀ d, d ≠ b → t.bank d = s.bank d) ∧ t.fget (F.RIM_IOSTAT_RESULT b) = 0 ∧ nbit (t.fget F.RIM_EVT_IO) 0 = true ∧
      (m.toNat &&& nbits (s.bankFrame b) 800 48 ≠ 0 → nbit (t.fget F.RIM_EVT_IO) 2 = true) ∧ t.seq = s.seq ∧
      t.mem = s.mem ∧ onlyFields [F.RIM_IOSTAT_RESULT b, F.RIM_EVT_IO] s t) ∧
  (∀ (b : Nat) (key : BitVec 2) (m : BitVec 48) (s : State), (s.bank b).st ≠ .check →
    exec (.bankCheckComplete b key m) s = .next s) ∧
  (∀ (b : Nat) (key : BitVec 2) (s : State), (s.bank b).st = .released →
    (key = 1#2 ∨ key = 3#2 ∧ nbit (s.bankFrame b) 771 = false) →
    leads (.keySample b key) s fun t => t.bank b = { s.bank b with key := key.toNat, refused := 0 } ∧
      (∀ d, d ≠ b → t.bank d = s.bank d) ∧ t.evq = s.evq ∧ onlyFields [] s t ∧ t.seq = s.seq ∧ t.mem = s.mem) ∧
  (∀ (b : Nat) (key : BitVec 2) (s : State), (s.bank b).st = .released →
    (key = 2#2 ∨ key = 0#2 ∨ key = 3#2 ∧ nbit (s.bankFrame b) 771 = true) →
    ((s.bank b).refused + 1 < 3 →
      leads (.keySample b key) s fun t => t.bank b = { s.bank b with key := key.toNat, refused := (s.bank b).refused + 1 } ∧
        (∀ d, d ≠ b → t.bank d = s.bank d) ∧ t.evq = s.evq ∧ onlyFields [] s t ∧ t.seq = s.seq ∧ t.mem = s.mem) ∧
    (3 ≤ (s.bank b).refused + 1 →
      leads (.keySample b key) s fun t => t.bank b = { (s.bank b).quiet with st := .fault, key := key.toNat, refused := 0 } ∧
        (∀ d, d ≠ b → t.bank d = s.bank d) ∧ postedIo 1 [b, key.toNat, 4] s t ∧ onlyFields [F.RIM_EVT_IO] s t ∧ t.seq = s.seq ∧
        t.mem = s.mem)) ∧
  (∀ (b : Nat) (key : BitVec 2) (s : State), (s.bank b).st ≠ .released → exec (.keySample b key) s = .next s) ∧
  (∀ (b pin : Nat) (level : Bool) (s : State), ((s.bank b).st = .released ∨ s.fbit F.DBG_STAT_EXTEST = true ∧
    (s.bank b).st ≠ .off) →
    nbit (s.bank b).short pin = false →
    leads (.rimIoShort b pin level) s fun t => (t.bank b).st = (s.bank b).st ∧
      (t.bank b).short = putBit (s.bank b).short pin true ∧
      (∀ d, d ≠ b → t.bank d = s.bank d) ∧ postedIo 3 [b, pin, level.toNat] s t ∧ onlyFields [F.RIM_EVT_IO] s t ∧ t.seq = s.seq ∧
      t.mem = s.mem) ∧
  (∀ (b pin : Nat) (level : Bool) (s : State), ((s.bank b).st ≠ .released ∧ (s.fbit F.DBG_STAT_EXTEST = false ∨
    (s.bank b).st = .off)) ∨
    nbit (s.bank b).short pin = true →
    exec (.rimIoShort b pin level) s = .next s)

/-- LEX_ACCESS_SERVE (R107, R212, R214, R215, R223). -/
def Obligations.LexiconServesClauses : Prop :=
  (∀ (bank : Nat) (ups : List Upset) (s u : State), u = upsets ups s → leads (.lexAccessServe bank ups) s fun t =>
    t.umem.lexq = lexDrop bank (lexHeads bank u.umem.lexq).length u.umem.lexq ∧
    t.umem.nocq = (if u.nocBlocked bank then
      u.umem.nocq.map fun x => if lexBank x.addr = bank then { x with waited := x.waited + 1 } else x else u.umem.nocq) ∧
    t.clauses = u.clauses ∧ t.seq = u.seq) ∧
  (∀ (bank : Nat) (ups : List Upset) (s u : State), u = upsets ups s → u.umem.lexq.filter (fun x => lexBank x.addr == bank) = [] →
    exec (.lexAccessServe bank ups) s = .next u) ∧
  (∀ (bank : Nat) (ups : List Upset) (s u : State) (a : LexAcc), u = upsets ups s → lexHeads bank u.umem.lexq = [a] →
    a.write = true →
    isLex a.addr = true → isLex (a.addr + a.data.length) = true → u.memMark a.addr = 0 →
    leads (.lexAccessServe bank ups) s fun t =>
      (∀ i, i < a.data.length → some (t.byteAt (a.addr + i)) = a.data[i]?) ∧
      (∀ x, x < a.addr ∨ a.addr + a.data.length ≤ x → t.byteAt x = u.byteAt x) ∧ t.umem.lexq = lexDrop bank 1 u.umem.lexq ∧
      t.umem.rets = u.umem.rets ∧ t.clauses = u.clauses ∧ t.seq = u.seq ∧ t.evq = u.evq ∧ onlyFields [] u t) ∧
  (∀ (bank : Nat) (ups : List Upset) (s u : State) (a : LexAcc) (x : MemRet) (pre rest : List MemRet), u = upsets ups s →
    lexHeads bank u.umem.lexq = [a] → a.write = false → u.memMark a.addr = 0 → u.umem.rets = pre ++ x :: rest →
    (∀ y ∈ pre, y.m = a.m → y.hbm = true ∨ y.due ≠ a.step + 7 ∨ y.served = true) → x.m = a.m → x.hbm = false →
    x.due = a.step + 7 → x.served = false →
    leads (.lexAccessServe bank ups) s fun t =>
      t.umem.rets = pre ++ { x with served := true, vals := elemVals u.seq.twostate x.width (u.bytes a.addr a.stride) } :: rest ∧
      t.umem.lexq = lexDrop bank 1 u.umem.lexq ∧ t.mem = u.mem ∧ t.clauses = u.clauses ∧ t.seq = u.seq ∧ t.evq = u.evq ∧
      onlyFields [] u t) ∧
  (∀ (bank : Nat) (ups : List Upset) (s u : State) (a : LexAcc) (x : MemRet) (pre rest : List MemRet), u = upsets ups s →
    lexHeads bank u.umem.lexq = [a] → a.write = false → isLex a.addr = true → u.memMark a.addr = 2 →
      u.umem.rets = pre ++ x :: rest →
    (∀ y ∈ pre, y.m = a.m → y.hbm = true ∨ y.due ≠ a.step + 7 ∨ y.served = true) → x.m = a.m → x.hbm = false →
    x.due = a.step + 7 → x.served = false →
    leads (.lexAccessServe bank ups) s fun t =>
      (∃ y, t.umem.rets = pre ++ y :: rest ∧ y.served = true ∧ y.m = x.m ∧
        (u.seq.twostate = true → y.vals = elemVals true x.width (u.bytes a.addr a.stride)) ∧
        (u.seq.twostate = false → ∀ j, j < x.width → j < 128 → y.vals.getD j v0 = vX)) ∧
      counted F.MEM_CNT_LUE_COUNT u t ∧ t.fget F.MEM_EVT_LEX_UE = 1 ∧ t.umem.lexq = lexDrop bank 1 u.umem.lexq ∧
      t.mem = u.mem ∧ t.clauses = u.clauses ∧ t.seq = u.seq ∧ onlyFields [F.MEM_CNT_LUE_COUNT, F.MEM_EVT_LEX_UE] u t)

/-- LEX_NOC_SERVE and MEM_NOC_STARVE (R216, R237), stated for the host's accesses. -/
def Obligations.LexiconServesNetwork : Prop :=
  (∀ (bank : Nat) (ups : List Upset) (s u : State), u = upsets ups s → u.nocBlocked bank = true →
    exec (.lexNocServe bank ups) s = .next u) ∧
  (∀ (bank off : Nat) (ups : List Upset) (s u : State) (x : NocAcc) (rest : List NocAcc), u = upsets ups s →
    u.nocBlocked bank = false →
    u.umem.nocq = x :: rest → lexBank x.addr = bank → x.reply = .bar2 off → x.write = true → x.waited = 0 → x.pos = 0 →
    x.good = true → x.size = x.data.length → 0 < x.size → isLex x.addr = true →
    isLex (x.addr + x.data.length) = true → x.addr % 32 + x.data.length ≤ 32 → u.memMark x.addr = 0 →
    leads (.lexNocServe bank ups) s fun t => (∀ i, i < x.data.length → some (t.byteAt (x.addr + i)) = x.data[i]?) ∧
      (∀ a, a < x.addr ∨ x.addr + x.data.length ≤ a → t.byteAt a = u.byteAt a) ∧ t.umem.nocq = rest ∧ t.out = u.out ∧
      t.clauses = u.clauses ∧ t.seq = u.seq ∧ t.evq = u.evq ∧ onlyFields [] u t) ∧
  (∀ (bank off : Nat) (ups : List Upset) (s u : State) (x : NocAcc) (rest : List NocAcc), u = upsets ups s →
    u.nocBlocked bank = false →
    u.umem.nocq = x :: rest → lexBank x.addr = bank → x.reply = .bar2 off → x.write = false → x.waited = 0 → x.pos < x.size →
    x.good = true → isLex x.addr = true → (x.addr + x.pos) % 32 + (x.size - x.pos) ≤ 32 → u.memMark (x.addr + x.pos) = 0 →
    leads (.lexNocServe bank ups) s fun t =>
      t.out = u.out ++ [.completion false (x.got ++ u.bytes (x.addr + x.pos) (x.size - x.pos))] ∧ t.umem.nocq = rest ∧
      t.mem = u.mem ∧ t.clauses = u.clauses ∧ t.seq = u.seq ∧ t.evq = u.evq ∧ onlyFields [] u t) ∧
  (∀ (bank n : Nat) (ups : List Upset) (s u : State) (x : NocAcc) (rest : List NocAcc), u = upsets ups s →
    u.nocBlocked bank = false →
    u.umem.nocq = x :: rest → lexBank x.addr = bank → x.write = false → x.good = true → isLex x.addr = true →
    n = 32 - (x.addr + x.pos) % 32 → n < x.size - x.pos → u.memMark (x.addr + x.pos) = 0 →
    leads (.lexNocServe bank ups) s fun t => t.out = u.out ∧
      t.umem.nocq = { x with pos := x.pos + n, got := x.got ++ u.bytes (x.addr + x.pos) n } :: rest ∧
      t.mem = u.mem ∧ t.clauses = u.clauses ∧ t.seq = u.seq ∧ t.evq = u.evq ∧ onlyFields [] u t) ∧
  (∀ (bank : Nat) (ups : List Upset) (s u : State), u = upsets ups s →
    (∀ x ∈ u.umem.nocq, isLex x.addr = true → lexBank x.addr ≠ bank) → exec (.lexNocServe bank ups) s = .next u) ∧
  (∀ (k : Nat) (s : State) (x : NocAcc), s.umem.nocq[k]? = some x → s.fget F.MEM_NOCWAIT_LIMIT ≠ 0 →
    s.fget F.MEM_NOCWAIT_LIMIT < x.waited → x.starved = false →
    leads (.memNocStarve k) s fun t => posted F.MEM_EVT_NOC_STARVE 10 9 [x.kind, lexBank x.addr, x.waited] s t ∧
      t.umem.nocq = s.umem.nocq.set k { x with starved := true } ∧ t.mem = s.mem ∧ t.seq = s.seq ∧
        onlyFields [F.MEM_EVT_NOC_STARVE] s t) ∧
  (∀ (k : Nat) (s : State), (∀ x, s.umem.nocq[k]? = some x → s.fget F.MEM_NOCWAIT_LIMIT = 0 ∨
    x.waited ≤ s.fget F.MEM_NOCWAIT_LIMIT ∨
      x.starved = true) → exec (.memNocStarve k) s = .next s)

/-- MEM_RETURN_ARRIVE, HBM_RETURN, HBM_REFRESH, HBM_TEMP_READ, MEM_CAL_GO and CAL_SLICE_END (R214, R219, R221, R222, R234). -/
def Obligations.ReturnsAndCalibration : Prop :=
  (∀ (m : Nat) (s : State) (x : MemRet) (pre rest : List MemRet), s.umem.rets = pre ++ x :: rest →
    (∀ y ∈ pre, y.m = m → y.hbm = true ∨ y.served = false ∨ y.arrived = true) → x.m = m → x.hbm = false → x.served = true →
    x.arrived = false →
    exec (.memReturnArrive m) s = .next { s with umem := { s.umem with rets := pre ++ { x with arrived := true } :: rest } }) ∧
  (∀ (m : Nat) (s : State), (∀ y ∈ s.umem.rets, y.m = m → y.hbm = true ∨ y.served = false ∨ y.arrived = true) →
    exec (.memReturnArrive m) s = .next s) ∧
  (∀ (m : Nat) (ups : List Upset) (s u : State) (x : MemRet) (pre rest : List MemRet), u = upsets ups s →
    u.umem.rets = pre ++ x :: rest →
    (∀ y ∈ pre, y.m = m → y.hbm = false ∨ y.served = false ∨ y.arrived = true) → x.m = m → x.hbm = true → x.served = true →
    x.arrived = false → x ∈ u.hbmTracked (hbmStack x.addr) → u.hbmHeld x.addr = false → u.pageCopied x.addr = false →
    u.memMark x.addr = s.memMark x.addr →
    exec (.hbmReturn m ups) s = .next { u with umem := { u.umem with rets := pre ++ { x with arrived := true } :: rest } }) ∧
  (∀ (m : Nat) (ups : List Upset) (s u : State) (x : MemRet) (pre rest : List MemRet), u = upsets ups s →
    u.umem.rets = pre ++ x :: rest →
    (∀ y ∈ pre, y.m = m → y.hbm = false ∨ y.served = false ∨ y.arrived = true) → x.m = m → x.hbm = true → x.served = true →
    x.arrived = false → x ∈ u.hbmTracked (hbmStack x.addr) → u.hbmHeld x.addr = false → u.pageCopied x.addr = false →
    s.memMark x.addr ≠ 2 → u.memMark x.addr = 2 → isLex x.addr = false →
    leads (.hbmReturn m ups) s fun t =>
      (∃ y, t.umem.rets = pre ++ y :: rest ∧ y.arrived = true ∧ y.m = m ∧
        (u.seq.twostate = true → y.vals = elemVals true x.width (u.bytes x.addr x.stride)) ∧
        (u.seq.twostate = false → ∀ j, j < x.width → j < 128 → y.vals.getD j v0 = vX)) ∧
      t.mem = u.mem ∧ t.clauses = u.clauses ∧ t.seq = u.seq ∧ t.fget F.MEM_EVT_HBM_UE = 1 ∧ counted F.MEM_CNT_HUE_COUNT u t ∧
      onlyFields [F.MEM_CNT_HUE_COUNT, F.MEM_EVT_HBM_UE] u t) ∧
  (∀ (m : Nat) (ups : List Upset) (s u : State), u = upsets ups s →
    (∀ y ∈ u.umem.rets, y.m = m → y.hbm = false ∨ y.served = false ∨ y.arrived = true ∨ y ∉ u.hbmTracked (hbmStack y.addr) ∨
      u.hbmHeld y.addr = true ∨ u.pageCopied y.addr = true) → exec (.hbmReturn m ups) s = .next u) ∧
  (∀ (k : Nat) (all : Bool) (s : State), exec (.hbmRefresh k all) s = .next s) ∧
  (∀ (k : Nat) (b : Byte) (s : State), k < 4 → leads (.hbmTempRead k b) s fun t =>
    t.fget (htempFld k) = b.toNat ∧ onlyFields [htempFld k] s t ∧ t.mem = s.mem ∧ t.evq = s.evq ∧ t.seq = s.seq) ∧
  (∀ (mask : BitVec 4) (s : State), leads (.memCalGo mask) s fun t =>
    t.mem = s.mem ∧ t.evq = s.evq ∧ t.seq = s.seq ∧ t.clauses = s.clauses ∧ onlyFields [F.MEM_STAT_CAL_BUSY, F.MEM_CAL_GO] s t ∧
    (s.fget F.MEM_STAT_CAL_BUSY = 0 → t.fget F.MEM_STAT_CAL_BUSY = mask.toNat) ∧
    (s.fget F.MEM_STAT_CAL_BUSY = 0 → s.fget F.MEM_CAL_GO = 0 → t.fget F.MEM_CAL_GO = mask.toNat)) ∧
  (∀ (k lanes ns : Nat) (ok : Bool) (s : State), k < 4 → nbit (s.fget F.MEM_STAT_CAL_BUSY) k = true →
    nbit (s.fget F.MEM_CAL_GO) k = true →
    (∀ x ∈ s.umem.nocq, isHbm x.addr = true → hbmStack x.addr ≠ k) →
    leads (.calSliceEnd k ok lanes ns) s fun t => posted F.MEM_EVT_CAL 10 10 [k, (!ok).toNat, ns, if ok then lanes else 0] s t ∧
      nbit (t.fget F.MEM_STAT_CAL_BUSY) k = false ∧ nbit (t.fget F.MEM_CAL_GO) k = false ∧ t.mem = s.mem ∧ t.seq = s.seq ∧
      onlyFields [F.MEM_STAT_CAL_BUSY, F.MEM_CAL_GO, F.MEM_EVT_CAL] s t) ∧
  (∀ (k lanes ns : Nat) (ok : Bool) (s : State), k < 4 → nbit (s.fget F.MEM_STAT_CAL_BUSY) k = true →
    nbit (s.fget F.MEM_CAL_GO) k = false →
    (∀ x ∈ s.umem.nocq, isHbm x.addr = true → hbmStack x.addr ≠ k) →
    leads (.calSliceEnd k ok lanes ns) s fun t => posted F.PLT_EVT_CAL 0 7 [0, k, (!ok).toNat] s
        { t with evq := t.evq.take (s.evq.length + (s.fbit (evten F.PLT_EVT_CAL)).toNat) } ∧
      t.fget F.MEM_EVT_CAL = 1 ∧ nbit (t.fget F.MEM_STAT_CAL_BUSY) k = false ∧ t.mem = s.mem ∧ t.seq = s.seq ∧
      onlyFields [F.MEM_STAT_CAL_BUSY, F.MEM_CAL_GO, F.MEM_EVT_CAL, F.PLT_EVT_CAL] s t) ∧
  (∀ (k lanes ns off : Nat) (ok : Bool) (s : State) (x : NocAcc), k < 4 → nbit (s.fget F.MEM_STAT_CAL_BUSY) k = true →
    s.umem.nocq = [x] → isHbm x.addr = true → hbmStack x.addr = k → x.reply = .bar2 off → x.write = false → 0 < x.size →
    x.addr % 32 + x.size ≤ 32 → s.memMark x.addr = 0 →
    leads (.calSliceEnd k ok lanes ns) s fun t => t.out = s.out ++ [.completion false (s.bytes x.addr x.size)] ∧
      t.umem.nocq = [] ∧ t.fget F.MEM_EVT_CAL = 1 ∧ t.mem = s.mem ∧ t.clauses = s.clauses ∧ t.seq = s.seq) ∧
  (∀ (k lanes ns : Nat) (ok : Bool) (s : State), nbit (s.fget F.MEM_STAT_CAL_BUSY) k = false →
    exec (.calSliceEnd k ok lanes ns) s = .next s)

/-- MEM_LRET_GO and LRET_COMPLETE (R225, R227). Which free spare word is taken is not stated: a free value (log 4). -/
def Obligations.LexiconWordsRetire : Prop :=
  (∀ (bank word r : Nat) (s : State),
    (s.umem.lretReq ≠ none ∧ r = 5 ∨ s.umem.lretReq = none ∧ ((255 < bank ∨ 8191 < word) ∧ r = 2 ∨ bank ≤ 255 ∧ word ≤ 8191 ∧
      (kvGet none s.umem.lexRet (bank * 8192 + word) ≠ none ∧ r = 3 ∨ kvGet none s.umem.lexRet (bank * 8192 + word) = none ∧
        (∀ k, k < 64 → k ∈ s.lexSpares bank) ∧ r = 1))) →
    leads (.memLretGo bank word) s fun t => t.fget F.MEM_LRET_RESULT = r ∧ t.fget F.MEM_EVT_LRET = 1 ∧ t.umem = s.umem ∧
      t.mem = s.mem ∧
      t.seq = s.seq ∧ onlyFields [F.MEM_LRET_BANK, F.MEM_LRET_WORD, F.MEM_LRET_RESULT, F.MEM_EVT_LRET] s t) ∧
  (∀ (bank word k : Nat) (s : State), s.umem.lretReq = none → bank ≤ 255 → word ≤ 8191 →
    kvGet none s.umem.lexRet (bank * 8192 + word) = none → k < 64 → k ∉ s.lexSpares bank →
    leads (.memLretGo bank word) s fun t => (∃ sp, t.umem.lretReq = some (bank, word, sp) ∧ sp < 64 ∧ sp ∉ s.lexSpares bank) ∧
      t.fget F.MEM_LRET_GO = 1 ∧ t.fget F.MEM_STAT_LRET_BUSY = 1 ∧ t.umem.lexRet = s.umem.lexRet ∧ t.mem = s.mem ∧ t.evq = s.evq ∧
      t.seq = s.seq ∧ onlyFields [F.MEM_LRET_BANK, F.MEM_LRET_WORD, F.MEM_LRET_GO, F.MEM_STAT_LRET_BUSY] s t) ∧
  (∀ (m bank word sp : Nat) (s : State), s.umem.lretReq = some (bank, word, sp) →
    leads (.lretComplete m) s fun t => t.umem.lretReq = none ∧ t.fget F.MEM_LRET_GO = 0 ∧ t.fget F.MEM_STAT_LRET_BUSY = 0 ∧
      t.fget F.MEM_LRET_RESULT = (if m < 2 then 0 else 4) ∧ t.fget F.MEM_EVT_LRET = 1 ∧
      (m < 2 → kvGet none t.umem.lexRet (bank * 8192 + word) = some sp) ∧
      (∀ k, (m < 2 → k ≠ bank * 8192 + word) → kvGet none t.umem.lexRet k = kvGet none s.umem.lexRet k) ∧
      (∀ a, t.byteAt a = s.byteAt a) ∧ t.seq = s.seq ∧ t.clauses = s.clauses) ∧
  (∀ (m : Nat) (s : State), s.umem.lretReq = none → leads (.lretComplete m) s fun t =>
    t.umem = s.umem ∧ t.mem = s.mem ∧ t.evq = s.evq ∧ t.seq = s.seq ∧ onlyFields [] s t)

/-- MEM_HRET_GO and HRET_COMPLETE (R226, R227). Which free spare page is taken is not stated: a free value (log 4). -/
def Obligations.HbmPagesRetire : Prop :=
  (∀ (stack r : Nat) (s : State), stack < 4 →
    (s.umem.hretReq ≠ none ∧ r = 5 ∨ s.umem.hretReq = none ∧ (s.poolFirst ≤ s.fget F.MEM_HRETPG_PAGE ∧ r = 2 ∨
      s.fget F.MEM_HRETPG_PAGE < s.poolFirst ∧ (kvGet none s.umem.hbmRet (stack * 6291456 + s.fget F.MEM_HRETPG_PAGE) ≠ none ∧
        r = 3 ∨
        kvGet none s.umem.hbmRet (stack * 6291456 + s.fget F.MEM_HRETPG_PAGE) = none ∧
        (4096 ≤ (s.hbmSpares stack).length ∨ s.poolPages ≤ (s.hbmSpares stack).length) ∧ r = 1))) →
    leads (.memHretGo stack) s fun t => t.fget F.MEM_HRET_RESULT = r ∧ t.fget F.MEM_EVT_HRET = 1 ∧ t.umem = s.umem ∧
      t.mem = s.mem ∧
      t.seq = s.seq ∧ onlyFields [F.MEM_HRET_STACK, F.MEM_HRET_RESULT, F.MEM_EVT_HRET] s t) ∧
  (∀ (stack : Nat) (s : State), stack < 4 → s.umem.hretReq = none → s.fget F.MEM_HRETPG_PAGE < s.poolFirst →
    kvGet none s.umem.hbmRet (stack * 6291456 + s.fget F.MEM_HRETPG_PAGE) = none → (s.hbmSpares stack).length < 4096 →
    (s.hbmSpares stack).length < s.poolPages →
    leads (.memHretGo stack) s fun t => (∃ sp, t.umem.hretReq = some (stack, s.fget F.MEM_HRETPG_PAGE, sp)) ∧
      t.fget F.MEM_HRET_GO = 1 ∧ t.fget F.MEM_STAT_HRET_BUSY = 1 ∧ t.umem.hbmRet = s.umem.hbmRet ∧ t.mem = s.mem ∧ t.evq = s.evq ∧
      t.seq = s.seq ∧ onlyFields [F.MEM_HRET_STACK, F.MEM_HRET_GO, F.MEM_STAT_HRET_BUSY] s t) ∧
  (∀ (m stack page sp : Nat) (s : State), s.umem.hretReq = some (stack, page, sp) → stack < 4 → page < 6291456 → sp < 6291456 →
    page ≠ sp → s.sound = true → kvGet none s.umem.hbmRet (stack * 6291456 + page) = none →
    (∀ a, ¬(0x1000000000 + stack * 0x600000000 + sp * 4096 ≤ a ∧ a < 0x1000000000 + stack * 0x600000000 + sp * 4096 + 4096) →
      ¬(0x1000000000 + stack * 0x600000000 + sp * 4096 ≤ s.phys a ∧
        s.phys a < 0x1000000000 + stack * 0x600000000 + sp * 4096 + 4096)) →
    leads (.hretComplete m) s fun t => t.umem.hretReq = none ∧ t.fget F.MEM_HRET_GO = 0 ∧ t.fget F.MEM_STAT_HRET_BUSY = 0 ∧
      t.fget F.MEM_HRET_RESULT = (if m < 2 then 0 else 4) ∧ t.fget F.MEM_EVT_HRET = 1 ∧
      (m < 2 → kvGet none t.umem.hbmRet (stack * 6291456 + page) = some sp) ∧
      (∀ a, ¬(0x1000000000 + stack * 0x600000000 + sp * 4096 ≤ a ∧ a < 0x1000000000 + stack * 0x600000000 + sp * 4096 + 4096) →
        t.byteAt a = s.byteAt a) ∧ t.seq = s.seq ∧ t.clauses = s.clauses) ∧
  (∀ (m : Nat) (s : State), s.umem.hretReq = none → leads (.hretComplete m) s fun t =>
    t.umem = s.umem ∧ t.mem = s.mem ∧ t.evq = s.evq ∧ t.seq = s.seq ∧ onlyFields [] s t)

/-- LNK_ENABLE, LNK_DISABLE, TRAIN_COMPLETE, FRAMING_LOCK, IDENT_COMPLETE and TRAIN_TIMEOUT (R254). -/
def Obligations.LinksComeUp : Prop :=
  (∀ (l : Nat) (s : State), leads (.lnkEnable l) s fun t => t.fget (F.LNK_CTL_EN l) = 1 ∧
    t.link l = (if (s.link l).st = .off ∧ s.domOn (9 + l / 4) = true then
      { s.link l with st := .train, since := s.now, mode := s.fget (F.LNK_CTL_MODE l), lanes := 0 } else s.link l) ∧
    onlyLink l s t ∧ onlyFields [F.LNK_CTL_EN l] s t ∧ t.evq = s.evq) ∧
  (∀ (l : Nat) (s : State), leads (.lnkDisable l) s fun t => t.fget (F.LNK_CTL_EN l) = 0 ∧ (t.link l).st = .off ∧
    (t.link l).rxq = [] ∧ (t.link l).replay = [] ∧ (t.link l).ctlq = [] ∧ (t.link l).fences = [] ∧
    (t.link l).sparing = none ∧ (t.link l).slot = (s.link l).slot ∧ (t.link l).released = (s.link l).released ∧
    t.fget (F.LNK_STAT_REASON l) = 0 ∧ onlyLink l s t ∧
    onlyFields [F.LNK_CTL_EN l, F.LNK_STAT_REASON l, F.LNK_STAT_SPARE_OK l, F.LNK_STAT_SPARE_BUSY l, F.LNK_SPARE_GO l] s t ∧
    t.evq = s.evq) ∧
  (∀ (l : Nat) (s : State) (m act : BitVec 3) (spare ok : Nat), (s.link l).st = .train →
    (m, act, spare, ok) ∈ [(7, 3, 2, 1), (3, 3, 2, 0), (5, 5, 1, 0), (6, 6, 0, 0)] →
    leads (.trainComplete l m) s fun t => t.link l = { s.link l with st := .align, since := s.now, lanes := act } ∧
      t.fget (F.LNK_STAT_SPARE l) = spare ∧ t.fget (F.LNK_STAT_SPARE_OK l) = ok ∧ onlyLink l s t ∧
      onlyFields [F.LNK_STAT_SPARE l, F.LNK_STAT_SPARE_OK l] s t ∧ t.evq = s.evq) ∧
  (∀ (l : Nat) (s : State) (m : BitVec 3), m ∈ [0, 1, 2, 4] → exec (.trainComplete l m) s = .next s) ∧
  (∀ (l : Nat) (s : State) (m : BitVec 3), (s.link l).st ≠ .train → exec (.trainComplete l m) s = .next s) ∧
  (∀ (l trip decode : Nat) (s : State), (s.link l).st = .align → leads (.framingLock l trip decode) s fun t =>
    t.link l = { s.link l with
      st := .ident, since := s.now, oneWay := trip / 2, native := ((trip + 2 * decode) * 36 + 7 * 70 + 559) / 560 * 8
      otherMode := false } ∧
    onlyLink l s t ∧ onlyFields [] s t ∧ t.evq = s.evq) ∧
  (∀ (l trip decode : Nat) (s : State), (s.link l).st ≠ .align → exec (.framingLock l trip decode) s = .next s) ∧
  (∀ (l plink : Nat) (serial : DWord) (s : State), (s.link l).st ≠ .ident → s.load.job = none →
    exec (.identComplete l serial plink) s = .next s) ∧
  (∀ (l plink : Nat) (serial : DWord) (s : State), (s.link l).st = .ident → s.load.job = none →
    leads (.identComplete l serial plink) s fun t => (t.link l).st = .up ∧ (t.link l).pserial = serial.toNat ∧
      (t.link l).plink = plink ∧ t.fget (F.LNK_STAT_REASON l) = 0 ∧
      (t.link l).ctlq = (s.link l).ctlq ++ (List.range 10).map (fun k => peerWord k (s.peerItem l k)) ∧
      posted (F.LNK_EVT_UP l) 9 1 ([l, (s.link l).mode] ++ w64 serial.toNat ++ [plink]) s t ∧ onlyLink l s t ∧
      onlyFields [F.LNK_STAT_REASON l, F.LNK_EVT_UP l] s t) ∧
  (∀ (l : Nat) (s : State), (s.link l).st = .train → (s.link l).window = none → leads (.trainTimeout l) s fun t =>
    t.link l = { s.link l with st := .fail, since := s.now } ∧ t.fget (F.LNK_STAT_REASON l) = 1 ∧ onlyLink l s t ∧
    onlyFields [F.LNK_STAT_REASON l] s t ∧ t.evq = s.evq) ∧
  (∀ (l : Nat) (s : State), (s.link l).st ≠ .train ∨ (s.link l).window.isSome = true → exec (.trainTimeout l) s = .next s)

/-- PARTNER_MODE_DETECT, MODE_RETRY, MODE_WINDOW_CLOSE, FRAMING_LOST, RESUME_COMPLETE, RESUME_TIMEOUT and
PARTNER_OFF_REPORT (R254, R257). -/
def Obligations.LinksFailAndResume : Prop :=
  (∀ (l : Nat) (s : State), (s.link l).st = .align → (s.link l).window = none → leads (.partnerModeDetect l) s fun t =>
    t.link l = { s.link l with st := .fail, since := s.now, otherMode := true } ∧
    t.fget (F.LNK_STAT_REASON l) = 2 ∧ posted (F.LNK_EVT_MODE l) 9 3 [l, (s.link l).mode] s t ∧ onlyLink l s t ∧
    onlyFields [F.LNK_STAT_REASON l, F.LNK_EVT_MODE l] s t) ∧
  (∀ (l w : Nat) (s : State), (s.link l).st = .align → (s.link l).window = some w → leads (.partnerModeDetect l) s fun t =>
    t.link l = { s.link l with
      st := .train, since := s.now, mode := s.fget (F.LNK_CTL_MODE l), lanes := 0
      otherMode := true, retryAt := s.now + 10000000 } ∧ t.fget (F.LNK_STAT_REASON l) = 2 ∧ t.evq = s.evq ∧ onlyLink l s t ∧
    onlyFields [F.LNK_STAT_REASON l] s t) ∧
  (∀ (l w : Nat) (s : State), (s.link l).st = .train → (s.link l).window = some w → (s.link l).otherMode = true →
    leads (.modeRetry l) s fun t =>
      t.link l = { s.link l with since := s.now, mode := s.fget (F.LNK_CTL_MODE l), lanes := 0 } ∧ t.evq = s.evq ∧
      onlyLink l s t ∧ onlyFields [] s t) ∧
  (∀ (l w : Nat) (s : State), s.load.job = none → (s.link l).window = some w →
    (s.link l).st ∈ [.train, .align, .ident] → (s.link l).otherMode = true → leads (.modeWindowClose l) s fun t =>
      t.link l = { s.link l with st := .fail, since := s.now, window := none } ∧ t.fget (F.LNK_STAT_REASON l) = 2 ∧
      posted (F.LNK_EVT_MODE l) 9 3 [l, (s.link l).mode] s t ∧ onlyLink l s t ∧
      onlyFields [F.LNK_STAT_REASON l, F.LNK_EVT_MODE l] s t) ∧
  (∀ (l w : Nat) (s : State), s.load.job = none → (s.link l).window = some w →
    (s.link l).st ∈ [.train, .align, .ident] → (s.link l).otherMode = false → leads (.modeWindowClose l) s fun t =>
      t.link l = { s.link l with st := .fail, since := s.now, window := none } ∧ t.fget (F.LNK_STAT_REASON l) = 1 ∧
      t.evq = s.evq ∧ onlyLink l s t ∧ onlyFields [F.LNK_STAT_REASON l] s t) ∧
  (∀ (l w : Nat) (s : State), s.load.job = none → (s.link l).window = some w → (s.link l).st = .up →
    leads (.modeWindowClose l) s fun t => t.link l = { s.link l with window := none } ∧ t.evq = s.evq ∧ onlyLink l s t ∧
      onlyFields [] s t) ∧
  (∀ (l : Nat) (s : State), (s.link l).st ∈ [.align, .ident, .up] → leads (.framingLost l) s fun t =>
    t.link l = { s.link l with st := .train, since := s.now, mode := s.fget (F.LNK_CTL_MODE l), lanes := 0 } ∧
    t.evq = s.evq ∧ onlyLink l s t ∧ onlyFields [] s t) ∧
  (∀ (l : Nat) (s : State), (s.link l).st = .active → leads (.framingLost l) s fun t =>
    t.link l = { s.link l with
      st := .resume, since := s.now
      ctlq := (s.link l).ctlq ++ [resumeWord (tagOf (s.link l).expect)] } ∧ t.evq = s.evq ∧ onlyLink l s t ∧
    onlyFields [] s t) ∧
  (∀ (l : Nat) (tag : BitVec 16) (s : State), (s.link l).st = .resume → leads (.resumeComplete l tag) s fun t =>
    t.link l = { s.link l with st := .active, since := s.now, retry := none, tx := (t.link l).tx } ∧
    sentFrames (((s.link l).replay.dropWhile fun e => tagOf e.1 != tag).map
      fun e => (l, refreshFrame { s.link l with retry := none } e.2)) s t ∧
    posted (F.LNK_EVT_RESUMED l) 9 8 [l, tag.toNat, (s.now - (s.link l).since) / 1000] s t ∧ onlyLink l s t ∧
    onlyFields [F.LNK_EVT_RESUMED l] s t) ∧
  (∀ (l : Nat) (s : State) (i : Instr) (reason : Nat),
    (i, reason) ∈ [(.resumeTimeout l, 3), (.partnerOffReport l, 4)] → (s.link l).st = .resume → leads i s fun t =>
      t.link l = { s.link l with st := .fail, since := s.now, dropped := true, window := none } ∧
      t.fget (F.LNK_STAT_REASON l) = reason ∧ posted (F.LNK_EVT_DOWN l) 9 2 [l, 6, reason] s t ∧ onlyLink l s t ∧
      onlyFields [F.LNK_STAT_REASON l, F.LNK_EVT_DOWN l] s t) ∧
  (∀ (l : Nat) (s : State), (s.link l).st ≠ .align → exec (.partnerModeDetect l) s = .next s) ∧
  (∀ (l : Nat) (s : State), (s.link l).st ≠ .train ∨ (s.link l).window = none ∨ (s.link l).otherMode = false →
    exec (.modeRetry l) s = .next s) ∧
  (∀ (l : Nat) (s : State), s.load.job = none → (s.link l).window = none → exec (.modeWindowClose l) s = .next s) ∧
  (∀ (l : Nat) (s : State), (s.link l).st ∈ [.off, .train, .resume, .fail] → exec (.framingLost l) s = .next s) ∧
  (∀ (l : Nat) (tag : BitVec 16) (s : State) (i : Instr), i ∈ [.resumeComplete l tag, .resumeTimeout l, .partnerOffReport l] →
    (s.link l).st ≠ .resume → exec i s = .next s)

/-- SUPERFRAME_RECEIVE, RETRY_TIMEOUT, RESUME_WORD_RECEIVE and IDLE_SUPERFRAME_SEND (R240, R242, R246 to R248). -/
def Obligations.SuperframesInSequence : Prop :=
  (∀ (l fix : Nat) (f : Superframe) (ue : Option Nat) (s : State), (s.link l).st ≠ .up → (s.link l).st ≠ .active →
    exec (.superframeReceive l f fix ue) s = .next s) ∧
  (∀ (l fix : Nat) (f : Superframe) (ue : Option Nat) (s : State), (s.link l).mode = 1 → f.sync ≠ 0xB4D2 →
    exec (.superframeReceive l f fix ue) s = .next s) ∧
  (∀ (l fix : Nat) (f : Superframe) (ue : Option Nat) (s : State), (s.link l).st = .active → (s.link l).mode = 1 →
    f.sync = 0xB4D2 → f.crc ≠ sfCrc f → (s.link l).retry = none → leads (.superframeReceive l f fix ue) s fun t =>
      counted (F.LNK_CNT_CRC_COUNT l) s t ∧ counted (F.LNK_CNT_RETRY_COUNT l) s t ∧
      t.link l = { s.link l with retry := some s.now } ∧ onlyLink l s t ∧ t.out = s.out ∧
      onlyFields [F.LNK_CNT_CRC_COUNT l, F.LNK_CNT_RETRY_COUNT l, F.LNK_EVT_RETRY l] s t) ∧
  (∀ (l fix r : Nat) (f : Superframe) (ue : Option Nat) (s : State), (s.link l).st = .active → (s.link l).mode = 1 →
    f.sync = 0xB4D2 → f.crc ≠ sfCrc f → (s.link l).retry = some r → leads (.superframeReceive l f fix ue) s fun t =>
      counted (F.LNK_CNT_CRC_COUNT l) s t ∧ t.link l = s.link l ∧ onlyLink l s t ∧ t.out = s.out ∧
      onlyFields [F.LNK_CNT_CRC_COUNT l] s t) ∧
  (∀ (l fix new : Nat) (f : Superframe) (s : State), (s.link l).st = .active → (s.link l).mode = 0 → (s.link l).retry = none →
    leads (.superframeReceive l f fix (some new)) s fun t =>
      t.fget (F.LNK_CNT_FECC_COUNT l) = min (2 ^ 32 - 1) (s.fget (F.LNK_CNT_FECC_COUNT l) + fix) ∧
      t.fget (F.LNK_CNT_FECU_COUNT l) = min (2 ^ 32 - 1) (s.fget (F.LNK_CNT_FECU_COUNT l) + new) ∧
      counted (F.LNK_CNT_RETRY_COUNT l) s t ∧
      t.link l = { s.link l with
        retry := some s.now, ctlq := (s.link l).ctlq ++ [resumeWord (tagOf (s.link l).expect)] } ∧
      onlyLink l s t ∧ t.out = s.out ∧
      onlyFields [F.LNK_CNT_FECC_COUNT l, F.LNK_CNT_FECU_COUNT l, F.LNK_CNT_RETRY_COUNT l, F.LNK_EVT_RETRY l] s t) ∧
  (∀ (l fix : Nat) (f : Superframe) (ue : Option Nat) (s : State), (s.link l).st = .active → (s.link l).mode = 1 →
    f.sync = 0xB4D2 → f.crc = sfCrc f → f.ctl.any ctlReserved = true → (s.link l).retry = none →
    leads (.superframeReceive l f fix ue) s fun t => counted (F.LNK_CNT_RETRY_COUNT l) s t ∧
      t.link l = { s.link l with retry := some s.now } ∧ onlyLink l s t ∧ t.out = s.out ∧
      onlyFields [F.LNK_CNT_RETRY_COUNT l, F.LNK_EVT_RETRY l] s t) ∧
  (∀ (l fix : Nat) (f : Superframe) (ue : Option Nat) (s : State), (s.link l).st = .active →
    ((s.link l).mode = 1 ∧ f.sync = 0xB4D2 ∧ f.crc = sfCrc f ∧ f.nak = false ∨ (s.link l).mode = 0 ∧ ue = none) →
    f.ctl = [] → f.xt = 0 → f.idle = false →
    fullStep s.seq.step f.tag = some (s.link l).expect → leads (.superframeReceive l f fix ue) s fun t =>
      t.link l = { linkCredit f.credit (s.link l) with
        rxq := (s.link l).rxq ++ [((s.link l).expect + (s.link l).slot.lat, f.payload)]
        expect := (s.link l).expect + 8, retry := none } ∧
      onlyLink l s t ∧ t.out = s.out ∧ t.evq = s.evq ∧ onlyFields [F.LNK_CNT_FECC_COUNT l, F.LNK_CNT_FECU_COUNT l] s t) ∧
  (∀ (l fix v : Nat) (f : Superframe) (ue : Option Nat) (s : State), (s.link l).st = .active → (s.link l).mode = 1 →
    f.sync = 0xB4D2 → f.crc = sfCrc f → f.ctl.any ctlReserved = false → fullStep s.seq.step f.tag = some v →
    v < (s.link l).expect → leads (.superframeReceive l f fix ue) s fun t =>
      t.link l = { linkCredit f.credit (s.link l) with tx := (t.link l).tx } ∧
      sentFrames (if f.nak then ((linkCredit f.credit (s.link l)).replay.dropWhile fun e => tagOf e.1 != f.naktag).map
        fun e => (l, refreshFrame (linkCredit f.credit (s.link l)) e.2) else []) s t ∧
      onlyLink l s t ∧ t.evq = s.evq ∧ onlyFields [] s t) ∧
  (∀ (l fix v : Nat) (f : Superframe) (ue : Option Nat) (s : State), (s.link l).st = .active → (s.link l).mode = 1 →
    f.sync = 0xB4D2 → f.crc = sfCrc f → f.ctl.any ctlReserved = false → f.nak = false →
    fullStep s.seq.step f.tag = some v → (s.link l).expect < v →
    (s.link l).retry = none → leads (.superframeReceive l f fix ue) s fun t =>
      counted (F.LNK_CNT_TAG_COUNT l) s t ∧ counted (F.LNK_CNT_RETRY_COUNT l) s t ∧
      t.link l = { linkCredit f.credit (s.link l) with retry := some s.now } ∧ onlyLink l s t ∧ t.out = s.out ∧
      onlyFields [F.LNK_CNT_TAG_COUNT l, F.LNK_CNT_RETRY_COUNT l, F.LNK_EVT_RETRY l] s t) ∧
  (∀ (l r : Nat) (s : State), (s.link l).st = .active → (s.link l).retry = some r → leads (.retryTimeout l) s fun t =>
    t.link l = { s.link l with
      retry := some s.now
      ctlq := if (s.link l).mode = 1 then (s.link l).ctlq else
        (s.link l).ctlq ++ [resumeWord (tagOf (s.link l).expect)] } ∧
    onlyLink l s t ∧ t.out = s.out ∧ t.evq = s.evq ∧ onlyFields [] s t) ∧
  (∀ (l : Nat) (s : State), (s.link l).st ≠ .active ∨ (s.link l).retry = none → exec (.retryTimeout l) s = .next s) ∧
  (∀ (l : Nat) (tag : BitVec 16) (s : State), (s.link l).st = .active → leads (.resumeWordReceive l tag) s fun t =>
    sentFrames (((s.link l).replay.dropWhile fun e => tagOf e.1 != tag).map fun e => (l, refreshFrame (s.link l) e.2)) s t ∧
    t.link l = { s.link l with tx := (t.link l).tx } ∧ onlyLink l s t ∧ t.evq = s.evq ∧ onlyFields [] s t) ∧
  (∀ (l : Nat) (tag : BitVec 16) (s : State), (s.link l).st ≠ .active → exec (.resumeWordReceive l tag) s = .next s) ∧
  (∀ (l : Nat) (s : State), (s.link l).st ∈ [.up, .active, .resume] → leads (.idleSuperframeSend l) s fun t =>
    ∃ f : Superframe, sentFrames [(l, f)] s t ∧ f.idle = true ∧ f.payload = [] ∧ f.ctl.length ≤ 3 ∧
      f.tag = tagOf (s.seq.step - s.seq.step % 8) ∧ f.credit = BitVec.ofNat 8 (s.link l).freed ∧
      f.xt = (s.link l).xtAcc &&& BitVec.ofNat 4 (s.fget (F.LNK_XT_TXMASK l)) ∧
      ((s.link l).mode = 1 → f.sync = 0xB4D2 ∧ f.crc = sfCrc { f with crc := 0 }) ∧ (t.link l).xtAcc = 0 ∧ onlyLink l s t ∧
      t.evq = s.evq ∧ onlyFields [] s t) ∧
  (∀ (l : Nat) (s : State), (s.link l).st ∉ [.up, .active, .resume] → exec (.idleSuperframeSend l) s = .next s) ∧
  (∀ (r : BitVec 58) (bits : List Bool), descramble r (scramble r bits).1 = bits)

/-- FENCE_WORD_RECEIVE, PEER_ITEM_RECEIVE, MSG_WORD_RECEIVE, PEER_REPEAT, LNK_DEVNUM_START, LNK_TOPO and DEVNUM_WRITE
(R250 to R252, R258, R259, R271). -/
def Obligations.LinkWordsTakeEffect : Prop :=
  (∀ (l : Nat) (dev : BitVec 18) (f : DWord) (s : State), (s.link l).st ∈ [.up, .active] → s.seq.lastFence ≠ some f.toNat →
    s.seq.step ≤ f.toNat → (∀ p d, s.seq.fence = some (p, d) → f.toNat < p) → leads (.fenceWordReceive l dev f) s fun t =>
      t.seq = { s.seq with fence := some (f.toNat, dev.toNat) } ∧
      (∀ k ∈ s.usedLinks, (f.toNat, dev.toNat) ∈ (t.link k).fences) ∧ t.mem = s.mem ∧ t.clauses = s.clauses ∧
      t.evq = s.evq ∧ onlyFields [] s t) ∧
  (∀ (l : Nat) (dev : BitVec 18) (f : DWord) (s : State), s.seq.lastFence = some f.toNat ∨ (s.link l).st ∉ [.up, .active] →
    exec (.fenceWordReceive l dev f) s = .next s) ∧
  (∀ (l k : Nat) (v : Word) (s : State), (s.link l).st ∈ [.up, .active, .resume] → k ≠ 7 → (s.link l).restored = none →
    leads (.peerItemReceive l k v) s fun t =>
      (∀ j, kvGet none (t.link l).items j = if j = k then some v.toNat else kvGet none (s.link l).items j) ∧
      (t.link l).st = (s.link l).st ∧
      t.fp = (if k = 8 ∧ ∃ w, kvGet none (s.link l).items 8 = some w ∧ w ≠ v.toNat then 0 else s.fp) ∧
      onlyLink l s t ∧ t.evq = s.evq ∧ onlyFields [] s t) ∧
  (∀ (l k : Nat) (v : Word) (m : BitVec 60) (s : State) (i : Instr), i ∈ [.peerItemReceive l k v, .msgWordReceive l m] →
    (s.link l).st ∉ [.up, .active, .resume] → exec i s = .next s) ∧
  (∀ (l : Nat) (v : Word) (s : State), (s.link l).st = .up → (s.link l).slot.en = true → (s.link l).released = true →
    (s.link l).dropped = false → (s.link l).restored = none → v.getLsbD 31 = true → fieldOf v 27 1 = (s.link l).slot.mode →
    fieldOf v 20 7 = (s.link l).slot.stx → fieldOf v 13 7 = (s.link l).slot.srx → fieldOf v 0 13 = (s.link l).slot.lat →
    leads (.peerItemReceive l 7 v) s fun t => (t.link l).st = .active ∧ (t.link l).expect = s.seq.step ∧
      (t.link l).rxq = (List.range ((s.link l).slot.lat / 8)).map (fun k =>
        (s.seq.step + 8 * k, List.replicate (8 * (s.link l).slot.srx) s.dfl)) ∧ (t.link l).pfreed = 0 ∧
      (t.link l).sentCnt = 0 ∧ (t.link l).replay = [] ∧ onlyLink l s t ∧ t.evq = s.evq ∧ onlyFields [] s t) ∧
  (∀ (l : Nat) (v : Word) (s : State), (s.link l).st = .up → (s.link l).slot.en = true → (s.link l).released = true →
    (s.link l).dropped = false → v.getLsbD 31 = true → fieldOf v 0 13 ≠ (s.link l).slot.lat →
    leads (.peerItemReceive l 7 v) s fun t => posted (F.LNK_EVT_SLOT l) 9 4 [l, s.peerItem l 7, v.toNat] s t ∧
      (t.link l).st = .up ∧ onlyLink l s t ∧ onlyFields [F.LNK_EVT_SLOT l] s t) ∧
  (∀ (l : Nat) (m : BitVec 60) (s : State), (s.link l).st ∈ [.up, .active, .resume] → leads (.msgWordReceive l m) s fun t =>
    t.link l = { s.link l with msgRx := m.toNat, msgCnt := ((s.link l).msgCnt + 1) % 2 ^ 32 } ∧
    posted (F.LNK_EVT_MSG l) 9 9 [l, ((s.link l).msgCnt + 1) % 2 ^ 32] s t ∧ onlyLink l s t ∧
    onlyFields [F.LNK_EVT_MSG l] s t) ∧
  (∀ (l : Nat) (s : State), (s.link l).st = .up → leads (.peerRepeat l) s fun t =>
    (t.link l).ctlq = (s.link l).ctlq ++ (List.range 10).map (fun k => peerWord k (s.peerItem l k)) ∧
    (t.link l).st = .up ∧ onlyLink l s t ∧ t.evq = s.evq ∧ onlyFields [] s t) ∧
  (∀ s : State, leads .lnkDevnumStart s fun t => t.fget F.LNK_DEVNUM_START = 1 ∧ t.fp = 0 ∧ t.links = s.links ∧ steady s t ∧
    t.evq = s.evq ∧ onlyFields [F.LNK_DEVNUM_START] s t) ∧
  (∀ (self base : Nat) (renumber : Bool) (nums : List Nat) (links : List TopoLink) (s : State),
    (renumber = true → self = 0 →
      s.fbit F.LNK_DEVNUM_ROOT = true ∧ s.fbit F.LNK_DEVNUM_START = true ∧ base = s.fget F.LNK_DEVNUM_NUM) →
    leads (.lnkTopo self base renumber nums links) s fun t => t.fget F.LNK_DEVNUM_START = 0 ∧
      t.fp = topoPrint (topoRecords (topoNums base renumber nums links).1 links) ∧
      (∀ num hops, num < 2 ^ 18 → hops < 2 ^ 18 →
        (topoNums base renumber nums links).1.find? (fun e => e.1 == self) = some (self, num, hops) →
        t.fget F.LNK_DEVNUM_VALID = 1 ∧ t.fget F.LNK_HOPS_HOPS = hops ∧
        t.fget F.LNK_DEVNUM_NUM = (if renumber = true ∧ self ≠ 0 then num else s.fget F.LNK_DEVNUM_NUM) ∧
        posted F.LNKG_EVT_TOPO 9 10 [0xFF, t.fget F.LNK_DEVNUM_NUM, hops, (topoNums base renumber nums links).1.length,
          (topoNums base renumber nums links).2.toNat] s t) ∧
      ((topoNums base renumber nums links).1.find? (fun e => e.1 == self) = none →
        t.fget F.LNK_DEVNUM_VALID = s.fget F.LNK_DEVNUM_VALID ∧ t.fget F.LNK_DEVNUM_NUM = s.fget F.LNK_DEVNUM_NUM ∧
        t.fget F.LNKG_EVT_TOPO = 1) ∧
      steady s t ∧
      onlyFields [F.LNK_DEVNUM_START, F.LNK_DEVNUM_VALID, F.LNK_DEVNUM_NUM, F.LNK_HOPS_HOPS, F.LNKG_EVT_TOPO] s t) ∧
  (∀ (base : Nat) (nums : List Nat) (links : List TopoLink) (s : State), s.fbit F.LNK_DEVNUM_ROOT = false ∨
    s.fbit F.LNK_DEVNUM_START = false →
    exec (.lnkTopo 0 base true nums links) s = .next s) ∧
  (∀ (w : Word) (s : State), s.rsvChanged 0xE00028 w = false →
    leads (.devnumWrite w) s fun t => t.fget F.LNK_DEVNUM_VALID = fieldOf w 31 1 ∧
    t.fget F.LNK_DEVNUM_ROOT = fieldOf w 30 1 ∧ t.fget F.LNK_DEVNUM_NUM = fieldOf w 0 18 ∧
    (w.getLsbD 29 = true → t.fget F.LNK_DEVNUM_START = 1) ∧
    (w.getLsbD 29 = false → t.fget F.LNK_DEVNUM_START = s.fget F.LNK_DEVNUM_START) ∧
    t.fp = (if w.getLsbD 31 || w.getLsbD 29 then 0 else s.fp) ∧ t.links = s.links ∧ steady s t ∧ t.evq = s.evq ∧
    onlyFields [F.LNK_DEVNUM_START, F.LNK_DEVNUM_VALID, F.LNK_DEVNUM_ROOT, F.LNK_DEVNUM_NUM] s t)

/-- LNK_SPARE_GO, LANE_WORD_RECEIVE, LANE_LOSS, LANE_SPARE_COMPLETE, SPARE_LANE_TRAINED, SPARE_RETRAIN_TIMER and EYE_SCAN
(R260, R261, R263). -/
def Obligations.LanesSpare : Prop :=
  (∀ (l lane r : Nat) (s : State), lane < 4 →
    r = (if (s.link l).st ≠ .up ∧ (s.link l).st ≠ .active then 3 else if (s.link l).sparing ≠ none then 5
      else if 2 < lane ∨ lane = s.fget (F.LNK_STAT_SPARE l) then 2 else if s.fbit (F.LNK_STAT_SPARE_OK l) then 0 else 1) →
    (r ≠ 0 → leads (.lnkSpareGo l lane) s fun t => t.fget (F.LNK_SPARE_LANE l) = lane ∧ t.fget (F.LNK_SPARE_RESULT l) = r ∧
      posted (F.LNK_EVT_LANE l) 9 5 [l, lane, r, 0] s t ∧ t.links = s.links ∧ steady s t ∧
      onlyFields [F.LNK_SPARE_LANE l, F.LNK_SPARE_RESULT l, F.LNK_EVT_LANE l] s t) ∧
    (r = 0 → leads (.lnkSpareGo l lane) s fun t => t.fget (F.LNK_SPARE_LANE l) = lane ∧ t.fget (F.LNK_SPARE_GO l) = 1 ∧
      t.fget (F.LNK_STAT_SPARE_BUSY l) = 1 ∧
      t.link l = { s.link l with
        sparing := some { lane := lane, byGo := true, accepted := false, since := s.now }
        ctlq := (s.link l).ctlq ++ [laneWord 1 lane] } ∧ onlyLink l s t ∧ t.evq = s.evq ∧
      onlyFields [F.LNK_SPARE_LANE l, F.LNK_SPARE_GO l, F.LNK_STAT_SPARE_BUSY l] s t)) ∧
  (∀ (l lane : Nat) (s : State), (s.link l).st ∈ [.up, .active] → (s.link l).sparing = none → lane ≤ 2 →
    lane ≠ s.fget (F.LNK_STAT_SPARE l) → s.fbit (F.LNK_STAT_SPARE_OK l) = true → leads (.laneWordReceive l 1 lane) s fun t =>
      t.fget (F.LNK_STAT_SPARE_BUSY l) = 1 ∧
      t.link l = { s.link l with
        sparing := some { lane := lane, byGo := false, accepted := true, since := s.now }
        ctlq := (s.link l).ctlq ++ [laneWord 2 lane] } ∧ onlyLink l s t ∧ t.evq = s.evq ∧
      onlyFields [F.LNK_STAT_SPARE_BUSY l] s t) ∧
  (∀ (l lane : Nat) (s : State), (s.link l).st ∈ [.up, .active] →
    (s.link l).sparing ≠ none ∨ 2 < lane ∨ lane = s.fget (F.LNK_STAT_SPARE l) ∨ s.fbit (F.LNK_STAT_SPARE_OK l) = false →
    leads (.laneWordReceive l 1 lane) s fun t =>
      t.link l = { s.link l with ctlq := (s.link l).ctlq ++ [laneWord 3 lane] } ∧ onlyLink l s t ∧ t.evq = s.evq ∧
      onlyFields [] s t) ∧
  (∀ (l : Nat) (s : State) (a : Sparing), (s.link l).sparing = some a → leads (.laneWordReceive l 2 a.lane) s fun t =>
    t.link l = { s.link l with sparing := some { a with accepted := true } } ∧ onlyLink l s t ∧ t.evq = s.evq ∧
    onlyFields [] s t) ∧
  (∀ (l : Nat) (s : State) (a : Sparing) (i : Instr), i ∈ [.laneWordReceive l 3 a.lane, .laneSpareComplete l false] →
    (s.link l).sparing = some a → a.accepted = false → a.cal = false → leads i s fun t =>
      t.link l = { s.link l with sparing := none } ∧ t.fget (F.LNK_STAT_SPARE_BUSY l) = 0 ∧ t.fget (F.LNK_SPARE_GO l) = 0 ∧
      t.fget (F.LNK_SPARE_RESULT l) = 4 ∧ posted (F.LNK_EVT_LANE l) 9 5 [l, a.lane, 4, 0] s t ∧ onlyLink l s t ∧
      onlyFields [F.LNK_STAT_SPARE_BUSY l, F.LNK_SPARE_GO l, F.LNK_SPARE_RESULT l, F.LNK_EVT_LANE l] s t) ∧
  (∀ (l : Nat) (s : State) (a : Sparing), (s.link l).sparing = some a → a.cal = false → a.lane < 3 →
    leads (.laneSpareComplete l true) s fun t => (t.link l).sparing = none ∧ (t.link l).retrain = some s.now ∧
      (∀ k, k < 3 → (t.link l).lanes.getLsbD k = if k = s.fget (F.LNK_STAT_SPARE l) then true
        else if k = a.lane then false else (s.link l).lanes.getLsbD k) ∧
      (t.link l).ctlq = (if (s.link l).st = .active then (s.link l).ctlq ++ [resumeWord (tagOf (s.link l).expect)]
        else (s.link l).ctlq) ∧
      t.fget (F.LNK_STAT_SPARE l) = a.lane ∧ t.fget (F.LNK_STAT_SPARE_OK l) = 0 ∧ t.fget (F.LNK_STAT_SPARE_BUSY l) = 0 ∧
      t.fget (F.LNK_SPARE_GO l) = 0 ∧ t.fget (F.LNK_SPARE_RESULT l) = 0 ∧
      posted (F.LNK_EVT_LANE l) 9 5 [l, a.lane, 0, s.now - a.since] s t ∧ onlyLink l s t ∧
      onlyFields [F.LNK_STAT_SPARE l, F.LNK_STAT_SPARE_OK l, F.LNK_STAT_SPARE_BUSY l, F.LNK_SPARE_GO l,
        F.LNK_SPARE_RESULT l, F.LNK_EVT_LANE l] s t) ∧
  (∀ (l lane : Nat) (s : State), (s.link l).st ∈ [.up, .active, .resume] → lane = s.fget (F.LNK_STAT_SPARE l) →
    leads (.laneLoss l lane) s fun t => t.fget (F.LNK_STAT_SPARE_OK l) = 0 ∧ t.links = s.links ∧ steady s t ∧ t.evq = s.evq ∧
      onlyFields [F.LNK_STAT_SPARE_OK l] s t) ∧
  (∀ (l lane : Nat) (s : State), (s.link l).st = .active → lane ≠ s.fget (F.LNK_STAT_SPARE l) →
    s.fbit (F.LNK_CTL_AUTOSPARE l) = false → leads (.laneLoss l lane) s fun t => (t.link l).st = .resume ∧
      (t.link l).since = s.now ∧ onlyLink l s t ∧ t.evq = s.evq ∧ onlyFields [] s t) ∧
  (∀ (l lane : Nat) (s : State), (s.link l).st = .active → lane ≠ s.fget (F.LNK_STAT_SPARE l) → lane ≤ 2 →
    s.fbit (F.LNK_CTL_AUTOSPARE l) = true → (s.link l).sparing = none → s.fbit (F.LNK_STAT_SPARE_OK l) = true →
    leads (.laneLoss l lane) s fun t => t.fget (F.LNK_STAT_SPARE_BUSY l) = 1 ∧
      t.link l = { s.link l with
        sparing := some { lane := lane, byGo := false, accepted := false, since := s.now }
        ctlq := (s.link l).ctlq ++ [laneWord 1 lane] } ∧ onlyLink l s t ∧ t.evq = s.evq ∧
      onlyFields [F.LNK_STAT_SPARE_BUSY l] s t) ∧
  (∀ (l : Nat) (s : State), (s.link l).st ≠ .off → (s.link l).st ≠ .fail → leads (.spareLaneTrained l) s fun t =>
    t.link l = { s.link l with retrain := none } ∧ t.fget (F.LNK_STAT_SPARE_OK l) = 1 ∧ onlyLink l s t ∧ t.evq = s.evq ∧
    onlyFields [F.LNK_STAT_SPARE_OK l] s t) ∧
  (∀ (l r : Nat) (s : State), (s.link l).retrain = some r → leads (.spareRetrainTimer l) s fun t =>
    t.link l = { s.link l with retrain := some s.now } ∧ onlyLink l s t ∧ t.evq = s.evq ∧ onlyFields [] s t) ∧
  (∀ (l lane h w : Nat) (s : State), (s.link l).st ≠ .off → leads (.eyeScan l lane h w) s fun t =>
    kvGet 0 (t.link l).eye (2 * lane) = h ∧ kvGet 0 (t.link l).eye (2 * lane + 1) = w ∧ onlyLink l s t ∧
    (h < s.fget (F.LNK_EYETHR_THR_H l) ∨ w < s.fget (F.LNK_EYETHR_THR_W l) →
      posted (F.LNK_EVT_EYE_LOW l) 9 6 [l, lane, h, w] s t ∧ onlyFields [F.LNK_EVT_EYE_LOW l] s t) ∧
    (s.fget (F.LNK_EYETHR_THR_H l) ≤ h → s.fget (F.LNK_EYETHR_THR_W l) ≤ w → t.evq = s.evq ∧ onlyFields [] s t)) ∧
  (∀ (l lane h w : Nat) (s : State) (i : Instr), (s.link l).st = .off →
    i ∈ [.laneWordReceive l 1 lane, .laneLoss l lane, .spareLaneTrained l, .eyeScan l lane h w] → exec i s = .next s) ∧
  (∀ (l lane : Nat) (s : State), (s.link l).sparing = none → exec (.laneWordReceive l 3 lane) s = .next s) ∧
  (∀ (l : Nat) (ok : Bool) (s : State), (s.link l).sparing = none → leads (.laneSpareComplete l ok) s fun t =>
    t.links = s.links ∧ steady s t ∧ t.evq = s.evq ∧ onlyFields [] s t)

/-- SIG_START, SIG_STOP, SIG_POST_END, CAPTURE_DRAIN, CAP_OVERFLOW, MT_START and MT_STOP (R390 to R394, R400). -/
def Obligations.TracesStartStopDrain : Prop :=
  (∀ (s : State) (r : Nat), regionFault s.cap.sigBase s.cap.sigLog s.cap.mtBase s.cap.mtLog
      (!s.fbit F.CAP_SIGCTL_LOSSY && s.fbit F.CAP_SIGCTL_WRAP) = some r →
    leads .sigStart s fun t => t.fget F.CAP_SIGCTL_START = 0 ∧ posted F.CAP_EVT_REGION 12 4 [0, r] s t ∧ t.cap = s.cap ∧
      steady s t ∧ onlyFields [F.CAP_SIGCTL_START, F.CAP_EVT_REGION] s t) ∧
  (∀ (base log obase olog : Nat) (w : Bool), log < 12 ∨ 34 < log → regionFault base log obase olog w = some 1) ∧
  (∀ s : State, regionFault s.cap.sigBase s.cap.sigLog s.cap.mtBase s.cap.mtLog
      (!s.fbit F.CAP_SIGCTL_LOSSY && s.fbit F.CAP_SIGCTL_WRAP) = none → s.cap.sig.on = false →
    s.cap.sig.stopMark ≠ some s.seq.step → leads .sigStart s fun t => t.fget F.CAP_SIGCTL_START = 1 ∧
      t.cap = { s.cap with sig := { s.cap.sig with startReq := some (0, 0) } } ∧ steady s t ∧ t.evq = s.evq ∧
      onlyFields [F.CAP_SIGCTL_START] s t) ∧
  (∀ s : State, regionFault s.cap.sigBase s.cap.sigLog s.cap.mtBase s.cap.mtLog
      (!s.fbit F.CAP_SIGCTL_LOSSY && s.fbit F.CAP_SIGCTL_WRAP) = none → s.cap.sig.on = true ∨
        s.cap.sig.stopMark = some s.seq.step →
    exec .sigStart s = .next (s.fset F.CAP_SIGCTL_START 0)) ∧
  (∀ s : State, s.cap.sig.on = false ∨ s.cap.sig.stopAt ≠ none → leads .sigStop s fun t => t.fget F.CAP_SIGCTL_START = 0 ∧
    t.cap = { s.cap with sig := { s.cap.sig with startReq := none, stopMark := some s.seq.step } } ∧ steady s t ∧
    t.evq = s.evq ∧ onlyFields [F.CAP_SIGCTL_START] s t) ∧
  (∀ s : State, s.cap.sig.on = true → s.cap.sig.stopAt = none → leads .sigStop s fun t =>
    t.fget F.CAP_SIGCTL_START = 0 ∧ t.fget F.CAP_SIGCTL_STOP = 1 ∧
    t.cap = { s.cap with sig := { s.cap.sig with
      startReq := none, stopMark := some s.seq.step
      stopAt := some (s.seq.step + s.fget F.CAP_SIGPOST_POST), stopCause := 0, stopUnit := 0 } } ∧ steady s t ∧
    t.evq = s.evq ∧ onlyFields [F.CAP_SIGCTL_START, F.CAP_SIGCTL_STOP] s t) ∧
  (∀ (s : State) (e : Nat), s.cap.sig.stopAt = some e → s.seq.step < e → exec .sigPostEnd s = .next s) ∧
  (∀ (s : State) (e : Nat), s.cap.sig.stopAt = some e → e ≤ s.seq.step →
    (s.cap.sig.buf.length + 24) / 8 ≤ s.sigFree → leads .sigPostEnd s fun t => t.cap.sig.on = false ∧
      t.cap.sig.stopAt = none ∧ t.fget F.CAP_SIGCTL_STOP = 0 ∧ t.fget F.CAP_EVT_STOPPED = 1 ∧ t.seq = s.seq ∧
      t.clauses = s.clauses) ∧
  (∀ (s : State) (a wp : Nat), wp = s.fget F.CAP_SIGWP_WP → a = s.cap.sigBase + 64 * wp → a % 64 = 0 → isHbm a = true →
    8 ≤ s.cap.sig.buf.length → s.sigRoom = true → s.hbmHeld a = false → s.memClosed 2 a 64 = false →
      leads .captureDrain s fun t =>
      t.bytes a 64 = (s.cap.sig.buf.take 8).flatMap (fun w => leBytes 8 w.toNat) ∧
      (∀ x, (∀ i, i < 64 → s.phys (a + i) ≠ x) → memGet t.mem x = memGet s.mem x) ∧
      t.fget F.CAP_SIGWP_WP = (wp + 1) % regionLines s.cap.sigLog % 2 ^ 32 ∧
      t.cap = { s.cap with sig := { s.cap.sig with buf := s.cap.sig.buf.drop 8 } } ∧ t.seq = s.seq ∧ t.clauses = s.clauses ∧
      t.evq = s.evq ∧ onlyFields [F.CAP_SIGWP_WP] s t) ∧
  (∀ (s : State) (a wp : Nat), s.cap.sig.buf.length < 8 → wp = s.fget F.CAP_MTWP_WP → a = s.cap.mtBase + 64 * wp → a % 64 = 0 →
    isHbm a = true → 64 ≤ s.cap.mt.buf.length → s.mtRoom = true → s.hbmHeld a = false → s.memClosed 2 a 64 = false →
      leads .captureDrain s fun t =>
      t.bytes a 64 = s.cap.mt.buf.take 64 ∧
      (∀ x, (∀ i, i < 64 → s.phys (a + i) ≠ x) → memGet t.mem x = memGet s.mem x) ∧
      t.fget F.CAP_MTWP_WP = (wp + 1) % regionLines s.cap.mtLog % 2 ^ 32 ∧
      t.cap = { s.cap with mt := { s.cap.mt with buf := s.cap.mt.buf.drop 64 } } ∧ t.seq = s.seq ∧ t.clauses = s.clauses ∧
      t.evq = s.evq ∧ onlyFields [F.CAP_MTWP_WP] s t) ∧
  (∀ s : State, s.cap.sig.buf.length < 8 ∨ s.sigRoom = false → s.cap.mt.buf.length < 64 ∨ s.mtRoom = false →
    exec .captureDrain s = .next s) ∧
  (∀ (s : State) (a b n : Nat), s.cap.sig.lost = some (a, b, n) → s.capFill + 24 ≤ capBufBytes →
    leads (.capOverflow false) s fun t =>
      t.cap.sig.buf = s.cap.sig.buf ++ [sigHdr 3 2 a, BitVec.ofNat 64 (b % 2 ^ 48), BitVec.ofNat 64 n] ∧
      t.cap.sig.lost = none ∧ t.cap.sig.syncDue = true ∧ t.cap.mt = s.cap.mt ∧
      posted F.CAP_EVT_OVERFLOW 12 2 ([0] ++ w64 a ++ w64 b ++ [min n (2 ^ 32 - 1)]) s t ∧ steady s t ∧
      onlyFields [F.CAP_EVT_OVERFLOW] s t) ∧
  (∀ s : State, s.cap.mt.lost = none → exec (.capOverflow true) s = .next s) ∧
  (∀ (s : State) (r : Nat), regionFault s.cap.mtBase s.cap.mtLog s.cap.sigBase s.cap.sigLog false = some r →
    leads .mtStart s fun t => t.fget F.CAP_MTCTL_START = 0 ∧ posted F.CAP_EVT_REGION 12 4 [1, r] s t ∧ t.cap = s.cap ∧
      steady s t ∧ onlyFields [F.CAP_MTCTL_START, F.CAP_EVT_REGION] s t) ∧
  (∀ s : State, regionFault s.cap.mtBase s.cap.mtLog s.cap.sigBase s.cap.sigLog false = none → s.cap.mt.on = false →
    leads .mtStart s fun t => t.cap.mt.on = true ∧ t.fget F.CAP_MTCTL_START = 0 ∧ t.fget F.CAP_MTWP_WP = 0 ∧
      t.cap.sig = s.cap.sig ∧ steady s t ∧ t.evq = s.evq ∧ onlyFields [F.CAP_MTCTL_START, F.CAP_MTWP_WP] s t) ∧
  (∀ s : State, leads .mtStop s fun t => (s.cap.mt.on = true → t.cap.mt.on = false ∧ t.fget F.CAP_EVT_STOPPED = 1) ∧
    t.fget F.CAP_MTCTL_STOP = 0 ∧
    t.seq = s.seq ∧ t.clauses = s.clauses ∧ (s.cap.mt.on = false → steady s t ∧ t.cap = s.cap ∧
      onlyFields [F.CAP_MTCTL_STOP] s t))

/-- TU_ENABLE, TU_DISABLE, TU_REG_WRITE, PIN_CROSSING, TRIGGER_FIRE and HOLDOFF_END (R401 to R407, R413, R414). -/
def Obligations.TriggerUnitsFire : Prop :=
  (∀ (u : Nat) (w : Word) (s : State), s.rsvChanged (0x1100100 + 0x20 * u) w = false → s.fbit (F.CAP_TUCTL_EN u) = true →
    leads (.tuEnable u w) s fun t =>
    t.fget (F.CAP_TUSTAT_WERR u) = 1 ∧ t.cap = s.cap ∧ steady s t ∧ t.evq = s.evq ∧ onlyFields [F.CAP_TUSTAT_WERR u] s t) ∧
  (∀ (u : Nat) (w : Word) (s : State), s.rsvChanged (0x1100100 + 0x20 * u) w = false → s.fbit (F.CAP_TUCTL_EN u) = false →
    (tuCtlFields u w s).tuInvalid u = true →
    leads (.tuEnable u w) s fun t => t.fget (F.CAP_TUSTAT_CFGERR u) = 1 ∧ t.fbit (F.CAP_TUCTL_EN u) = false ∧
      posted F.CAP_EVT_CFGERR 12 6 [u] s t ∧ t.cap = s.cap ∧ steady s t ∧
      onlyFields [F.CAP_TUCTL_ACT u, F.CAP_TUCTL_COND u, F.CAP_TUCTL_POL u, F.CAP_TUCTL_INV u, F.CAP_TUCTL_HMODE u,
        F.CAP_TUCTL_XCH u, F.CAP_TUSTAT_CFGERR u, F.CAP_EVT_CFGERR] s t) ∧
  (∀ (u : Nat) (w : Word) (s : State), 6 ≤ fieldOf w 13 3 ∨ fieldOf w 11 2 = 3 ∨ fieldOf w 8 2 = 3 ∨ w.getLsbD 23 = true →
    (tuCtlFields u w s).tuInvalid u = true) ∧
  (∀ (u : Nat) (w : Word) (s : State), s.rsvChanged (0x1100100 + 0x20 * u) w = false → s.fbit (F.CAP_TUCTL_EN u) = false →
    (tuCtlFields u w s).tuInvalid u = false →
    leads (.tuEnable u w) s fun t => t.fget (F.CAP_TUCTL_EN u) = 1 ∧ t.fget (F.CAP_TUSTAT_CFGERR u) = 0 ∧
      t.fget (F.CAP_TUSTAT_DROP u) = 0 ∧ t.fget (F.CAP_TUCTL_ACT u) = fieldOf w 16 8 ∧
      t.fget (F.CAP_TUCTL_COND u) = fieldOf w 13 3 ∧ t.fget (F.CAP_TUCTL_POL u) = fieldOf w 11 2 ∧
      t.fget (F.CAP_TUCTL_INV u) = fieldOf w 10 1 ∧ t.fget (F.CAP_TUCTL_HMODE u) = fieldOf w 8 2 ∧
      t.fget (F.CAP_TUCTL_XCH u) = fieldOf w 4 2 ∧ (t.unit u).st = .armed ∧ (t.unit u).due = [] ∧ (t.unit u).skips = 0 ∧
      (∀ v, v ≠ u → t.unit v = s.unit v) ∧ steady s t ∧ t.evq = s.evq ∧
      onlyFields [F.CAP_TUCTL_EN u, F.CAP_TUCTL_ACT u, F.CAP_TUCTL_COND u, F.CAP_TUCTL_POL u, F.CAP_TUCTL_INV u,
        F.CAP_TUCTL_HMODE u, F.CAP_TUCTL_XCH u, F.CAP_TUSTAT_CFGERR u, F.CAP_TUSTAT_DROP u] s t) ∧
  (∀ (u : Nat) (s : State), leads (.tuDisable u) s fun t => t.fget (F.CAP_TUCTL_EN u) = 0 ∧
    t.unit u = { s.unit u with st := .off, due := [] } ∧ (∀ v, v ≠ u → t.unit v = s.unit v) ∧ steady s t ∧ t.evq = s.evq ∧
    onlyFields [F.CAP_TUCTL_EN u] s t) ∧
  (∀ (u off : Nat) (w : Word) (s : State), s.rsvChanged (0x1100100 + 0x20 * u + off) w = false → off ≠ 0 →
    s.fbit (F.CAP_TUCTL_EN u) = true → leads (.tuRegWrite u off w) s fun t =>
    t.fget (F.CAP_TUSTAT_WERR u) = 1 ∧ t.cap = s.cap ∧ steady s t ∧ t.evq = s.evq ∧ onlyFields [F.CAP_TUSTAT_WERR u] s t) ∧
  (∀ (u off : Nat) (f : Fld) (w : Word) (s : State), s.rsvChanged (0x1100100 + 0x20 * u + off) w = false →
    s.fbit (F.CAP_TUCTL_EN u) = false →
    (off, f) ∈ [(0x08, F.CAP_TUMIN_MIN u), (0x0C, F.CAP_TUMAX_MAX u), (0x14, F.CAP_TUHOLD_HOLD u)] →
    leads (.tuRegWrite u off w) s fun t => t.fget f = w.toNat ∧ t.cap = s.cap ∧ steady s t ∧ t.evq = s.evq ∧
      onlyFields [f] s t) ∧
  (∀ (u : Nat) (w : Word) (s : State), s.rsvChanged (0x1100100 + 0x20 * u + 0x10) w = false →
    s.fbit (F.CAP_TUCTL_EN u) = false → leads (.tuRegWrite u 0x10 w) s fun t =>
    t.fget (F.CAP_TUTHR_HI u) = fieldOf w 16 12 ∧ t.fget (F.CAP_TUTHR_LO u) = fieldOf w 0 12 ∧ t.cap = s.cap ∧ steady s t ∧
    t.evq = s.evq ∧ onlyFields [F.CAP_TUTHR_HI u, F.CAP_TUTHR_LO u] s t) ∧
  (∀ (u : Nat) (w : Word) (s : State), s.rsvChanged (0x1100100 + 0x20 * u + 0x04) w = false → s.fbit (F.CAP_TUCTL_EN u) = false →
    leads (.tuRegWrite u 0x04 w) s fun t => t.fget (F.CAP_TUSRC_KIND u) = fieldOf w 10 1 ∧
      t.fget (F.CAP_TUSRC_BANK u) = fieldOf w 7 3 ∧ t.fget (F.CAP_TUSRC_PIN u) = fieldOf w 0 6 ∧ t.cap = s.cap ∧ steady s t ∧
      t.evq = s.evq ∧ onlyFields [F.CAP_TUSRC_KIND u, F.CAP_TUSRC_BANK u, F.CAP_TUSRC_PIN u] s t) ∧
  (∀ (u : Nat) (w : Word) (s : State), w.getLsbD 31 = true → exec (.tuRegWrite u 0 w) s = exec (.tuEnable u w) s) ∧
  (∀ (bank pin mv fine : Nat) (hi up : Bool) (s : State), leads (.pinCrossing bank pin hi up mv fine) s fun t =>
    steady s t ∧ t.evq = s.evq ∧ onlyFields [] s t ∧ ∀ b, b ≠ bank → t.bank b = s.bank b) ∧
  (∀ (bank pin mv fine : Nat) (hi up : Bool) (s : State), (s.bank bank).st = .off →
    exec (.pinCrossing bank pin hi up mv fine) s = .next s) ∧
  (∀ (u bank pin mv fine : Nat) (s : State), u < 16 → (s.bank bank).st ≠ .off → (s.unit u).st ≠ .off →
    (∀ v, v ≠ u → (s.unit v).st = .off) → s.fbit (F.CAP_TUSRC_KIND u) = true → s.fget (F.CAP_TUSRC_BANK u) = bank →
    s.fget (F.CAP_TUSRC_PIN u) = pin → s.fget (F.CAP_TUTHR_HI u) = mv → (s.unit u).level = false →
    s.fget (F.CAP_TUCTL_COND u) = 1 → s.fget (F.CAP_TUCTL_POL u) ∈ [0, 2] →
    leads (.pinCrossing bank pin true true mv fine) s fun t => (t.unit u).level = true ∧
      (t.unit u).due = (s.unit u).due ++ [(s.seq.step - 1, s.ptime, fine % 32, 0)] ∧ (∀ v, v ≠ u → t.unit v = s.unit v) ∧
      steady s t ∧ t.evq = s.evq ∧ onlyFields [] s t) ∧
  (∀ (u ticks stamp time fine meas : Nat) (rest : List (Nat × Nat × Nat × Nat)) (s : State),
    (s.unit u).due = (stamp, time, fine, meas) :: rest → (s.unit u).st = .armed → s.fget (F.CAP_TUCTL_ACT u) = 0 →
    s.cap.sig.on = false → leads (.triggerFire u ticks) s fun t =>
      t.unit u = { s.unit u with
        st := if s.fget (F.CAP_TUHOLD_HOLD u) = 0 then .armed else .holdoff
        step := stamp, time := time, fine := fine, meas := meas, skipped := (s.unit u).skips, skips := 0, matches_ := 0
        due := rest } ∧
      counted (F.CAP_TUCNT_COUNT u) s t ∧ (∀ v, v ≠ u → t.unit v = s.unit v) ∧ steady s t ∧ t.evq = s.evq ∧
      onlyFields [F.CAP_TUCNT_COUNT u] s t) ∧
  (∀ (u ticks stamp time fine meas : Nat) (rest : List (Nat × Nat × Nat × Nat)) (s : State),
    (s.unit u).due = (stamp, time, fine, meas) :: rest → (s.unit u).st = .armed → s.fget (F.CAP_TUCTL_ACT u) = 1 →
    s.cap.sig.on = false → s.tuPosted u = false → s.fbit F.CAP_EVTEN_TRIG = true → leads (.triggerFire u ticks) s fun t =>
      t.fget F.CAP_EVT_TRIG = 1 ∧ t.evq = s.evq ++ [{
        src := 12, code := 1, step := stamp, time := time
        payload := [u, s.fget (F.CAP_TUSRC_KIND u), s.fget (F.CAP_TUSRC_BANK u), s.fget (F.CAP_TUSRC_PIN u),
          s.fget (F.CAP_TUCTL_COND u), meas, fine, (s.unit u).skips, s.fget (F.CAP_TUSTAT_DROP u)] }] ∧ steady s t ∧
      onlyFields [F.CAP_TUCNT_COUNT u, F.CAP_EVT_TRIG] s t) ∧
  (∀ (u ticks : Nat) (m : Nat × Nat × Nat × Nat) (rest : List (Nat × Nat × Nat × Nat)) (s : State),
    (s.unit u).due = m :: rest → (s.unit u).st = .holdoff → s.tuHeld u m.1 m.2.1 = false →
    leads (.triggerFire u ticks) s fun t =>
      t.unit u = { s.unit u with due := rest, skips := (s.unit u).skips + 1, matches_ := (s.unit u).matches_ + 1 } ∧
      (∀ v, v ≠ u → t.unit v = s.unit v) ∧ steady s t ∧ t.evq = s.evq ∧ onlyFields [] s t) ∧
  (∀ (u : Nat) (s : State), (s.unit u).st = .holdoff → (s.unit u).due = [] → s.tuHeld u s.seq.step s.ptime = true →
    leads (.holdoffEnd u) s fun t => t.unit u = { s.unit u with st := .armed } ∧ (∀ v, v ≠ u → t.unit v = s.unit v) ∧
      steady s t ∧ t.evq = s.evq ∧ onlyFields [] s t) ∧
  (∀ (u ticks : Nat) (s : State), (s.unit u).due = [] → s.tuStands u (32 * s.ptime + ticks % 32) = false →
    exec (.triggerFire u ticks) s = .next s) ∧
  (∀ (u : Nat) (s : State), (s.unit u).st ≠ .holdoff ∨ (s.unit u).due ≠ [] ∨ s.tuHeld u s.seq.step s.ptime = false →
    exec (.holdoffEnd u) s = .next s)

/-- DBG_AUTH_PASSWORD, DBG_AUTH_KEYX, KEYX_TIMEOUT and DBG_AUTH_DROP (R419 to R423). That the second phase grants the level of
the first is the model's choice (log 26). -/
def Obligations.DebugLevelsGranted : Prop :=
  (∀ (p : Path) (level r : Nat) (s : State), level < 4 →
    r = (if s.authBusy p = true then 6 else if 8 ≤ s.fget F.DBG_AUTH_FAILS then 4
      else if s.pwMax = 0 ∨ s.pwMax < level then 5 else 0) → r ≠ 0 → leads (.dbgAuthPassword p level) s fun t =>
      t.fget F.DBG_AUTH_LEVEL = level ∧ t.fget F.DBG_AUTH_METHOD = 0 ∧ t.fget F.DBG_AUTH_RESULT = r ∧
      posted F.DBG_EVT_AUTH 13 1 [pathNum p, level, 0, r] s t ∧
      t.dbg = { s.dbg with pw := [] } ∧ steady s t ∧
      onlyFields [F.DBG_AUTH_LEVEL, F.DBG_AUTH_METHOD, F.DBG_AUTH_RESULT, F.DBG_EVT_AUTH] s t) ∧
  (∀ (p : Path) (level : Nat) (s : State), s.authBusy p = false → s.fget F.DBG_AUTH_FAILS < 7 → 0 < s.pwMax →
    level ≤ s.pwMax → s.level p ≤ level → leads (.dbgAuthPassword p level) s fun t =>
      t.level p = (if s.pwMatches then level else s.level p) ∧ (∀ q, q ≠ p → t.level q = s.level q) ∧
      t.fget F.DBG_AUTH_RESULT = (if s.pwMatches then 0 else 1) ∧
      t.fget F.DBG_AUTH_FAILS = (if s.pwMatches then 0 else s.fget F.DBG_AUTH_FAILS + 1) ∧ t.dbg.pw = [] ∧
      posted F.DBG_EVT_AUTH 13 1 [pathNum p, level, 0, if s.pwMatches then 0 else 1] s t ∧ steady s t ∧
      onlyFields [F.DBG_AUTH_LEVEL, F.DBG_AUTH_METHOD, F.DBG_AUTH_RESULT, F.DBG_AUTH_FAILS, F.DBG_EVT_AUTH] s t) ∧
  (∀ (p : Path) (level : Nat) (s : State), s.authBusy p = false → s.fget F.DBG_AUTH_FAILS = 7 → 0 < s.pwMax →
    level ≤ s.pwMax → s.level p ≤ level → leads (.dbgAuthPassword p level) s fun t =>
      t.fget F.DBG_AUTH_FAILS = (if s.pwMatches then 0 else 8) ∧ t.fget F.DBG_EVT_AUTH = 1 ∧
      t.fget F.DBG_EVT_LOCKOUT = (if s.pwMatches then s.fget F.DBG_EVT_LOCKOUT else 1) ∧ t.dbg.pw = [] ∧ steady s t ∧
      onlyFields [F.DBG_AUTH_LEVEL, F.DBG_AUTH_METHOD, F.DBG_AUTH_RESULT, F.DBG_AUTH_FAILS, F.DBG_EVT_AUTH,
        F.DBG_EVT_LOCKOUT] s t) ∧
  (∀ (p : Path) (level : Nat) (s : State), s.authBusy p = false → s.fget F.DBG_AUTH_FAILS < 8 → 0 < s.pwMax →
    level ≤ s.pwMax → s.pwMatches = true → leads (.dbgAuthPassword p level) s fun t => t.level p = level ∧
      (∀ q, q ≠ p → t.level q = s.level q) ∧ t.fget F.DBG_AUTH_RESULT = 0 ∧ t.fget F.DBG_AUTH_FAILS = 0 ∧ t.dbg.pw = [] ∧
      t.fget F.DBG_EVT_AUTH = 1) ∧
  (∀ (p : Path) (level : Nat) (k : Keyx) (s : State), s.dbg.keyx = some k → k.path ≠ p →
    leads (.dbgAuthKeyx p level) s fun t => t.fget F.DBG_AUTH_RESULT = 6 ∧
      posted F.DBG_EVT_AUTH 13 1 [pathNum p, level, 1, 6] s t ∧ t.dbg = s.dbg ∧ steady s t) ∧
  (∀ (p : Path) (level : Nat) (s : State), s.dbg.keyx = none → leads (.dbgAuthKeyx p level) s fun t =>
    t.fget F.DBG_AUTH_RESULT = (if s.certOk level then 0xFE else 2) ∧
    (s.certOk level = false → posted F.DBG_EVT_AUTH 13 1 [pathNum p, level, 1, 2] s t ∧ t.dbg = s.dbg) ∧
    (s.certOk level = true → t.evq = s.evq ∧ ∃ sa, t.dbg.keyx = some ⟨p, level, s.now, sa⟩) ∧
    t.dbg.tapLevel = s.dbg.tapLevel ∧ t.dbg.hostLevel = s.dbg.hostLevel ∧ steady s t ∧
    onlyFields [F.DBG_AUTH_LEVEL, F.DBG_AUTH_METHOD, F.DBG_AUTH_RESULT, F.DBG_EVT_AUTH] s t) ∧
  (∀ (level : Nat) (k : Keyx) (s : State), s.dbg.keyx = some k → itemBytes s.dbg.sa 2 = k.sa → s.level k.path ≤ k.level →
    leads (.dbgAuthKeyx k.path level) s fun t => t.level k.path = k.level ∧ (∀ q, q ≠ k.path → t.level q = s.level q) ∧
      t.dbg.keyx = none ∧ t.dbg.sa = [] ∧ t.fget F.DBG_AUTH_RESULT = 0 ∧
      posted F.DBG_EVT_AUTH 13 1 [pathNum k.path, k.level, 1, 0] s t ∧ steady s t) ∧
  (∀ (level : Nat) (k : Keyx) (s : State), s.dbg.keyx = some k → itemBytes s.dbg.sa 2 = k.sa →
    leads (.dbgAuthKeyx k.path level) s fun t => t.level k.path = k.level ∧ (∀ q, q ≠ k.path → t.level q = s.level q) ∧
      t.dbg.keyx = none ∧ t.dbg.sa = [] ∧ t.fget F.DBG_AUTH_RESULT = 0 ∧ t.fget F.DBG_EVT_AUTH = 1) ∧
  (∀ (level : Nat) (k : Keyx) (s : State), s.dbg.keyx = some k → itemBytes s.dbg.sa 2 ≠ k.sa →
    leads (.dbgAuthKeyx k.path level) s fun t => t.dbg = { s.dbg with keyx := none, sa := [] } ∧
      t.fget F.DBG_AUTH_RESULT = 3 ∧ posted F.DBG_EVT_AUTH 13 1 [pathNum k.path, k.level, 1, 3] s t ∧ steady s t) ∧
  (∀ (k : Keyx) (s : State), s.dbg.keyx = some k → leads .keyxTimeout s fun t =>
    t.dbg = { s.dbg with keyx := none, sa := [] } ∧ t.fget F.DBG_AUTH_RESULT = 3 ∧
    posted F.DBG_EVT_AUTH 13 1 [pathNum k.path, k.level, 1, 3] s t ∧ steady s t) ∧
  (∀ s : State, s.dbg.keyx = none → exec .keyxTimeout s = .next s) ∧
  (∀ (p : Path) (s : State), leads (.dbgAuthDrop p) s fun t => t.level p = 0 ∧ (∀ q, q ≠ p → t.level q = s.level q) ∧
    (s.level p = 0 → t.evq = s.evq ∧ steady s t ∧ onlyFields [] s t))

/-- READ, DEPOSIT, FORCE, RELEASE, CQREAD, RELALL and ARR_DEFERRED_START (R138, R428 to R430). That refusals are told before an
operation waits, and that RELALL keeps the forces of closed clauses, are the model's choice (log 27). -/
def Obligations.ArraysUnderDebug : Prop :=
  (∀ (p : Path) (c bp entry op r key : Nat) (bank : Bool) (v : Val) (i : Instr) (s : State), s.dbg.arr = none →
    (i, op) ∈ [(.read p c bp bank entry, 0), (.deposit p c bp bank entry v, 1), (.force p c bp bank entry v, 2),
      (.release p c bp bank entry, 3), (.cqread p c bp entry, 4), (.relall p, 5)] → key = vsKey bp bank.toNat entry →
    r = (if s.level p < (if op = 0 ∨ op = 4 then 1 else 2) then 2 else if s.seq.st ∉ [.ready, .stopped, .dbgHold] then 1
      else if op = 5 then 0 else if (s.clause c).loaded = false then 1
      else if 511 < bp ∨ (bank = true ∧ s.seq.twostate = false ∧ op ≠ 4) ∨ op = 4 ∧ (s.cqOf c bp).length ≤ entry % 32 then 4
      else if s.closedTo (if op = 0 ∨ op = 4 then 1 else 2) c = true then 3
      else if op = 2 ∧ s.forced c key = none ∧ 64 ≤ s.forceCount then 5 else if op = 3 ∧ s.forced c key = none then 6 else 0) →
    r ≠ 0 → leads i s fun t => t.fget F.DBG_ARRD_RESULT = r ∧ t.fget F.DBG_ARR_GO = 0 ∧ t.dbg = s.dbg ∧ steady s t ∧
      t.evq = s.evq ∧ onlyFields [F.DBG_ARR_OP, F.DBG_ARR_CLAUSE, F.DBG_ARR_BP, F.DBG_ARR_BANK, F.DBG_ARR_ENTRY,
        F.DBG_ARR_GO, F.DBG_ARRD_VALUE, F.DBG_ARRD_RESULT] s t) ∧
  (∀ (p : Path) (c bp entry key : Nat) (bank : Bool) (s : State), s.dbg.arr = none → key = vsKey bp bank.toNat entry →
    s.arrRefusal ⟨p, 0, c, bp, bank, entry, v0⟩ = none → (s.clause c).mig = none →
    leads (.read p c bp bank entry) s fun t => t.fget F.DBG_ARRD_VALUE = (s.vsRead c key).toNat ∧
      t.fbit F.DBG_ARRD_FORCED = (s.forced c key).isSome ∧ t.fget F.DBG_ARRD_RESULT = 0 ∧ t.fget F.DBG_ARR_GO = 0 ∧
      t.dbg = s.dbg ∧ steady s t ∧ t.evq = s.evq ∧
      onlyFields [F.DBG_ARR_OP, F.DBG_ARR_CLAUSE, F.DBG_ARR_BP, F.DBG_ARR_BANK, F.DBG_ARR_ENTRY, F.DBG_ARR_GO,
        F.DBG_ARRD_VALUE, F.DBG_ARRD_FORCED, F.DBG_ARRD_RESULT] s t) ∧
  (∀ (p : Path) (c bp entry key : Nat) (bank : Bool) (v : Val) (s : State), s.dbg.arr = none →
    key = vsKey bp bank.toNat entry → s.arrRefusal ⟨p, 1, c, bp, bank, entry, v⟩ = none → (s.clause c).mig = none →
    leads (.deposit p c bp bank entry v) s fun t =>
      t.vsRead c key = (if (s.forced c key).isSome then s.vsRead c key else s.arrVal v) ∧
      (∀ k, k ≠ key → t.vsRead c k = s.vsRead c k) ∧ (∀ d, d ≠ c → t.clause d = s.clause d) ∧
      t.fget F.DBG_ARRD_RESULT = 0 ∧ t.fget F.DBG_ARR_GO = 0 ∧ t.dbg = s.dbg ∧ t.seq = s.seq ∧ t.mem = s.mem ∧
      t.evq = s.evq ∧ onlyFields [F.DBG_ARR_OP, F.DBG_ARR_CLAUSE, F.DBG_ARR_BP, F.DBG_ARR_BANK, F.DBG_ARR_ENTRY,
        F.DBG_ARR_GO, F.DBG_ARRD_VALUE, F.DBG_ARRD_RESULT] s t) ∧
  (∀ (p : Path) (c bp entry key : Nat) (bank : Bool) (v : Val) (s : State), s.dbg.arr = none →
    key = vsKey bp bank.toNat entry → s.arrRefusal ⟨p, 2, c, bp, bank, entry, v⟩ = none → (s.clause c).mig = none →
    leads (.force p c bp bank entry v) s fun t => t.forced c key = some (s.arrVal v) ∧ t.vsRead c key = s.arrVal v ∧
      (∀ k, k ≠ key → t.vsRead c k = s.vsRead c k) ∧ (∀ d, d ≠ c → t.clause d = s.clause d) ∧
      (∀ d k, forceKey d k ≠ forceKey c key → t.forced d k = s.forced d k) ∧
      t.fget F.DBG_ARRD_RESULT = 0 ∧ t.fget F.DBG_ARR_GO = 0 ∧ t.seq = s.seq ∧ t.mem = s.mem ∧ t.evq = s.evq) ∧
  (∀ (p : Path) (c bp entry key : Nat) (bank : Bool) (s : State), s.dbg.arr = none → key = vsKey bp bank.toNat entry →
    s.arrRefusal ⟨p, 3, c, bp, bank, entry, v0⟩ = none → (s.clause c).mig = none →
    leads (.release p c bp bank entry) s fun t => t.forced c key = none ∧
      (∀ d k, forceKey d k ≠ forceKey c key → t.forced d k = s.forced d k) ∧ t.fget F.DBG_ARRD_RESULT = 0 ∧
      t.fget F.DBG_ARR_GO = 0 ∧ steady s t ∧ t.evq = s.evq) ∧
  (∀ (p : Path) (c bp slot : Nat) (e : CqEntry) (s : State), s.dbg.arr = none →
    s.arrRefusal ⟨p, 4, c, bp, false, slot, v0⟩ = none → (s.clause c).mig = none →
    ((s.clause c).cq.filter fun e => e.bp == bp)[slot % 32]? = some e → leads (.cqread p c bp slot) s fun t =>
      t.fget F.DBG_ARRD_CQDST = e.dst % 256 ∧ t.fget F.DBG_ARRD_CQBANK = e.bank % 2 ∧ t.fget F.DBG_ARRD_VALUE = e.val.toNat ∧
      t.fget F.DBG_ARRD_CQFILL = ((s.clause c).cq.filter fun e => e.bp == bp).length % 64 ∧
      t.fget F.DBG_ARRD_RESULT = 0 ∧ t.fget F.DBG_ARR_GO = 0 ∧ t.dbg = s.dbg ∧ steady s t ∧ t.evq = s.evq) ∧
  (∀ (p : Path) (s : State), s.dbg.arr = none → 2 ≤ s.level p → s.seq.st ∈ [.ready, .stopped, .dbgHold] →
    leads (.relall p) s fun t => (∀ c k, k < 262144 → s.closedTo 2 c = false → t.forced c k = none) ∧
      t.fget F.DBG_ARRD_RESULT = 0 ∧ t.fget F.DBG_ARR_GO = 0 ∧ steady s t ∧ t.evq = s.evq) ∧
  (∀ (p : Path) (c bp entry : Nat) (bank : Bool) (v : Val) (i : Instr) (a : ArrOp) (s : State), s.dbg.arr = none →
    (i, a) ∈ [(.read p c bp bank entry, ⟨p, 0, c, bp, bank, entry, v0⟩), (.deposit p c bp bank entry v, ⟨p, 1, c, bp, bank, entry, v⟩),
      (.force p c bp bank entry v, ⟨p, 2, c, bp, bank, entry, v⟩), (.release p c bp bank entry, ⟨p, 3, c, bp, bank, entry, v0⟩),
      (.cqread p c bp entry, ⟨p, 4, c, bp, false, entry, v0⟩)] → s.arrRefusal a = none → (s.clause c).mig ≠ none →
    leads i s fun t => t.dbg = { s.dbg with arr := some a } ∧ t.fget F.DBG_ARR_GO = 1 ∧ steady s t ∧ t.evq = s.evq) ∧
  (∀ (p : Path) (c bp entry slot : Nat) (bank : Bool) (v : Val) (a : ArrOp) (i : Instr) (s : State), s.dbg.arr = some a →
    i ∈ [.read p c bp bank entry, .deposit p c bp bank entry v, .force p c bp bank entry v, .release p c bp bank entry,
      .cqread p c bp slot, .relall p] → exec i s = .next s) ∧
  (∀ (a : ArrOp) (s : State), s.dbg.arr = some a → (s.clause a.clause).mig ≠ none → exec .arrDeferredStart s = .next s) ∧
  (∀ s : State, s.dbg.arr = none → exec .arrDeferredStart s = .next s) ∧
  (∀ (a : ArrOp) (s : State), s.dbg.arr = some a → (s.clause a.clause).mig = none → leads .arrDeferredStart s fun t =>
    t.dbg.arr = none ∧ t.fget F.DBG_ARR_GO = 0 ∧ t.fget F.DBG_ARRD_RESULT = (s.arrRefusal a).getD 0 ∧ t.seq = s.seq ∧
    t.mem = s.mem ∧ t.evq = s.evq) ∧
  (∀ (p : Path) (c bp entry : Nat) (bank : Bool) (s : State), s.dbg.arr = some ⟨p, 0, c, bp, bank, entry, v0⟩ →
    (s.clause c).mig = none → s.arrRefusal ⟨p, 0, c, bp, bank, entry, v0⟩ = none → leads .arrDeferredStart s fun t =>
      t.fget F.DBG_ARRD_VALUE = (s.vsRead c (vsKey bp bank.toNat entry)).toNat ∧ t.fget F.DBG_ARRD_RESULT = 0 ∧
      t.fget F.DBG_ARR_GO = 0 ∧ t.dbg = { s.dbg with arr := none } ∧ steady s t ∧ t.evq = s.evq)

/-- DBG_HALT, DBG_RESUME, DBG_STEP, PAIR_HALT, PAIR_HALT_COMPLETE, PAIR_RESUME and PAIR_STEP (R426, R427, R432, R434). A fence
below the counter that a hold learned of stops it when it resumes: the model's choice (log 55). -/
def Obligations.DebugRunControl : Prop :=
  (∀ (p : Path) (q : Nat) (ups : List Upset) (eff : CoreEffect) (i : Instr) (s : State),
    (i ∈ [.dbgHalt (.dbgRun p), .dbgResume p, .dbgStep p ups] ∧ s.level p < 1) ∨
      (i = .pairHalt q (.dbgRun p) ∧ s.level p < (if q = 1 then 3 else 2)) ∨
      (i ∈ [.pairResume p q, .pairStep p q eff] ∧ s.level p < (if q = 1 ∨ (s.pair q).priv = 3 then 3 else 2)) →
    leads i s fun t => t.fget F.DBG_STAT_WREF = 1 ∧ t.dbg = s.dbg ∧ t.mgt = s.mgt ∧ steady s t ∧ t.evq = s.evq ∧
      onlyFields [F.DBG_STAT_WREF] s t) ∧
  (∀ (cause : HaltCause) (code : Nat) (s : State), (cause, code) ∈ [(.dbgRun .tap, 0), (.dbgRun .host, 0), (.crossTrigger, 1),
      (.brk, 2)] → (∀ p, cause = .dbgRun p → 1 ≤ s.level p) → s.seq.st ∈ [.running, .ellipsis] → s.xtChannels 5 = [] →
    leads (.dbgHalt cause) s fun t => t.seq.st = .dbgHold ∧ t.seq.step = s.seq.step ∧ t.seq.ucyc = s.seq.ucyc ∧
      t.fget F.DBG_STAT_HCAUSE = code ∧ posted F.DBG_EVT_HALT 13 2 ([0, 0, code] ++ w64 s.seq.step) s t ∧
      t.clauses = s.clauses ∧ t.mem = s.mem ∧ onlyFields [F.DBG_STAT_HCAUSE, F.DBG_EVT_HALT] s t) ∧
  (∀ (cause : HaltCause) (s : State), (∀ p, cause = .dbgRun p → 1 ≤ s.level p) → s.seq.st ∉ [.running, .ellipsis] →
    exec (.dbgHalt cause) s = .next s) ∧
  (∀ (p : Path) (s : State), 1 ≤ s.level p → s.seq.st = .dbgHold → (∀ f d, s.seq.fence = some (f, d) → s.seq.step ≤ f) →
    leads (.dbgResume p) s fun t => t.seq.st = .ellipsis ∧ t.seq.step = s.seq.step ∧
      posted F.DBG_EVT_HALT 13 2 ([0, 1, 0] ++ w64 s.seq.step) s t ∧ t.clauses = s.clauses ∧ t.mem = s.mem ∧
      onlyFields [F.DBG_EVT_HALT] s t) ∧
  (∀ (p : Path) (f d : Nat) (s : State), 1 ≤ s.level p → s.seq.st = .dbgHold → s.seq.fence = some (f, d) → f < s.seq.step →
    leads (.dbgResume p) s fun t => t.seq.st = .stopped ∧ t.seq.step = s.seq.step ∧ t.seq.lastFence = some f ∧
      t.fget F.DBG_EVT_HALT = 1 ∧ t.fget F.SEQ_EVT_FENCE_LATE = 1) ∧
  (∀ (p : Path) (ups : List Upset) (i : Instr) (s : State), i ∈ [.dbgResume p, .dbgStep p ups] → 1 ≤ s.level p →
    s.seq.st ≠ .dbgHold → exec i s = .next s) ∧
  (∀ (p : Path) (ups : List Upset) (s u : State), 1 ≤ s.level p → s.seq.st = .dbgHold →
    (∀ f d, s.seq.fence = some (f, d) → s.seq.step ≤ f) → s.seq.depth ≠ 0 → u = seqResume 1 s →
    ({ u with seq := { u.seq with haltAt := some ((s.seq.step + 1) % 2 ^ 64, 0) } } : State).causes = [] →
    leads (.dbgStep p ups) s fun t => t.seq.step = (s.seq.step + 1) % 2 ^ 64) ∧
  (∀ (p : Path) (ups : List Upset) (s u : State), 1 ≤ s.level p → s.seq.st = .dbgHold →
    (∀ f d, s.seq.fence = some (f, d) → s.seq.step ≤ f) → u = seqResume 1 s →
    ({ u with seq := { u.seq with haltAt := some ((s.seq.step + 1) % 2 ^ 64, 0) } } : State).causes ≠ [] →
    leads (.dbgStep p ups) s fun t => t.seq.st = .ellipsis ∧ t.seq.step = s.seq.step ∧
      t.seq.haltAt = some ((s.seq.step + 1) % 2 ^ 64, 0) ∧ posted F.DBG_EVT_HALT 13 2 ([0, 1, 1] ++ w64 s.seq.step) s t ∧
      t.clauses = s.clauses ∧ t.mem = s.mem ∧ onlyFields [F.DBG_EVT_HALT] s t) ∧
  (∀ (p : Path) (q : Nat) (s : State), (if q = 1 then 3 else 2) ≤ s.level p → (s.pair q).halted = false →
    leads (.pairHalt q (.dbgRun p)) s fun t =>
      t.pair q = { s.pair q with
        haltReq := some 0, waitM := q == 0 && (s.pair q).priv == 3 && decide (max s.dbg.tapLevel s.dbg.hostLevel < 3) } ∧
      (∀ r, r ≠ q → t.pair r = s.pair r) ∧ steady s t ∧ t.evq = s.evq ∧ onlyFields [] s t) ∧
  (∀ (q code : Nat) (cause : HaltCause) (s : State), (cause, code) ∈ [(.crossTrigger, 1), (.brk, 2)] →
    (if code = 1 then q = 1 → 3 ≤ s.topLevel else q = 0 ∧ s.mgt.breaks = true) → (s.pair q).halted = false →
    leads (.pairHalt q cause) s fun t => (t.pair q).haltReq = some code ∧ (t.pair q).halted = false ∧
      (∀ r, r ≠ q → t.pair r = s.pair r) ∧ steady s t ∧ t.evq = s.evq ∧ onlyFields [] s t) ∧
  (∀ (q : Nat) (cause : HaltCause) (s : State),
    ((∀ p, cause = .dbgRun p → (if q = 1 then 3 else 2) ≤ s.level p) ∧ (s.pair q).halted = true) ∨
      (cause = .crossTrigger ∧ q = 1 ∧ s.topLevel < 3) ∨ (cause = .brk ∧ (q ≠ 0 ∨ s.mgt.breaks = false)) →
    exec (.pairHalt q cause) s = .next s) ∧
  (∀ (q priv : Nat) (pc : DWord) (lr : Option (Nat × Nat)) (s : State), (s.pair q).haltReq = none →
    exec (.pairHaltComplete q priv pc lr) s = .next s) ∧
  (∀ (cause : Nat) (pc : DWord) (lr : Option (Nat × Nat)) (s : State), (s.pair 0).haltReq = some cause →
    max s.dbg.tapLevel s.dbg.hostLevel < 3 → leads (.pairHaltComplete 0 3 pc lr) s fun t =>
      t.pair 0 = { s.pair 0 with waitM := true, priv := 3 } ∧ (∀ r, r ≠ 0 → t.pair r = s.pair r) ∧ steady s t ∧
      t.evq = s.evq ∧ onlyFields [] s t) ∧
  (∀ (q priv cause : Nat) (pc : DWord) (lr : Option (Nat × Nat)) (s : State), (s.pair q).haltReq = some cause →
    ¬(q = 0 ∧ priv = 3 ∧ max s.dbg.tapLevel s.dbg.hostLevel < 3) → s.cap.mt.on = false → s.xtChannels (3 + q) = [] →
    priv < 4 → leads (.pairHaltComplete q priv pc lr) s fun t => (t.pair q).halted = true ∧ (t.pair q).haltReq = none ∧
      (t.pair q).waitM = false ∧ (t.pair q).priv = priv ∧ (t.pair q).pc = pc ∧ (t.pair q).lr = lr ∧
      (∀ r, r ≠ q → t.pair r = s.pair r) ∧ t.fget (F.DBG_PAIR_PRIV q) = priv ∧
      posted F.DBG_EVT_HALT 13 2 ([q + 1, 0, cause] ++ w64 pc.toNat) s t ∧ steady s t ∧
      onlyFields [F.DBG_PAIR_PRIV q, F.DBG_EVT_HALT] s t) ∧
  (∀ (p : Path) (q : Nat) (s : State), s.pairLevel q ≤ s.level p → (s.pair q).halted = true → s.cap.mt.on = false →
    leads (.pairResume p q) s fun t => t.pair q = { s.pair q with halted := false, haltReq := none, waitM := false } ∧
      (∀ r, r ≠ q → t.pair r = s.pair r) ∧ posted F.DBG_EVT_HALT 13 2 ([q + 1, 1, 0] ++ w64 (s.pair q).pc.toNat) s t ∧
      steady s t ∧ onlyFields [F.DBG_EVT_HALT] s t) ∧
  (∀ (p : Path) (q : Nat) (eff : CoreEffect) (i : Instr) (s : State), i ∈ [.pairResume p q, .pairStep p q eff] →
    s.pairLevel q ≤ s.level p → (s.pair q).halted = false → exec i s = .next s) ∧
  (∀ (p : Path) (q : Nat) (eff : CoreEffect) (s : State), s.pairLevel q ≤ s.level p → (s.pair q).halted = true →
    s.cap.mt.on = false → s.xtChannels (3 + q) = [] → eff.priv < 4 → leads (.pairStep p q eff) s fun t =>
      (t.pair q).halted = true ∧ (t.pair q).pc = eff.pc ∧ (t.pair q).priv = eff.priv ∧ (t.pair q).lr = eff.lr ∧
      (∀ r, r ≠ q → t.pair r = s.pair r) ∧ t.fget (F.DBG_PAIR_PRIV q) = eff.priv ∧ t.fget F.DBG_EVT_HALT = 1 ∧
      t.seq = s.seq ∧ t.clauses = s.clauses ∧
      (∀ x, (∀ e ∈ eff.stores, s.phys e.1 ≠ x) → memGet t.mem x = memGet s.mem x))

/-- XTRIG_IN, EXTEST, SAMPLE_PRELOAD, IDCODE, BYPASS, TEST_LOGIC_RESET, DBGACC, DBG_ACCESS_READ and DBG_ACCESS_WRITE (R418, R436,
R438, R439). -/
def Obligations.TapAndAccessEngine : Prop :=
  (∀ (ch : Nat) (s : State), nbit (s.fget (F.DBG_XT_IN ch)) 1 = false → exec (.xtrigIn ch) s = .next s) ∧
  (∀ (ch : Nat) (s : State), nbit (s.fget (F.DBG_XT_IN ch)) 1 = true → s.fget (F.DBG_XT_OUT ch) = 8 →
    s.fbit F.CAP_MTCTL_START_EN = false → s.fbit F.CAP_MTCTL_STOP_EN = false → leads (.xtrigIn ch) s fun t =>
      t = s.emit (.xtrig ch)) ∧
  (∀ (ch : Nat) (s : State), nbit (s.fget (F.DBG_XT_IN ch)) 1 = true → s.fget (F.DBG_XT_OUT ch) = 1 →
    s.fbit F.CAP_MTCTL_START_EN = false → s.fbit F.CAP_MTCTL_STOP_EN = false → (s.pair 0).halted = false →
    leads (.xtrigIn ch) s fun t => (t.pair 0).haltReq = some 1 ∧ (t.pair 0).halted = false ∧
      (∀ r, r ≠ 0 → t.pair r = s.pair r) ∧ t.out = s.out ∧ steady s t ∧ t.evq = s.evq ∧ onlyFields [] s t) ∧
  (∀ (ch : Nat) (s : State), nbit (s.fget (F.DBG_XT_IN ch)) 1 = true → s.fget (F.DBG_XT_OUT ch) = 4 →
    s.fbit F.CAP_MTCTL_START_EN = false → s.fbit F.CAP_MTCTL_STOP_EN = false → s.seq.st ∈ [.running, .ellipsis] →
    s.xtChannels 5 = [] → leads (.xtrigIn ch) s fun t => t.seq.st = .dbgHold ∧ t.seq.step = s.seq.step ∧
      t.fget F.DBG_STAT_HCAUSE = 1 ∧ posted F.DBG_EVT_HALT 13 2 ([0, 0, 1] ++ w64 s.seq.step) s t ∧
      onlyFields [F.DBG_STAT_HCAUSE, F.DBG_EVT_HALT] s t) ∧
  (∀ (i : Instr) (ir : Byte) (s : State), (i, ir) ∈ [(.extest, 0x00#8), (.samplePreload, 0x01#8), (.idcode, 0x02#8),
      (.bypass ir, ir)] → leads i s fun t => t.dbg = { s.dbg with ir := ir } ∧
      t.fbit F.DBG_STAT_EXTEST = (ir == 0x00#8) ∧
      (s.fbit F.DBG_STAT_EXTEST = (ir == 0x00#8) → t.evq = s.evq) ∧
      (s.fbit F.DBG_STAT_EXTEST = true → ir ≠ 0x00#8 → posted F.DBG_EVT_EXTEST 13 3 [1] s t) ∧
      (s.fbit F.DBG_STAT_EXTEST = false → ir = 0x00#8 → posted F.DBG_EVT_EXTEST 13 3 [0] s t) ∧
      t.out = (if i = .idcode then s.out ++ [.tap 32 (s.fuseByte 8 % 16 * 2 ^ 28 + 0x1D64 * 2 ^ 12 +
        Config.manufacturer.toNat * 2 + 1)] else s.out) ∧ steady s t ∧ onlyFields [F.DBG_STAT_EXTEST, F.DBG_EVT_EXTEST] s t) ∧
  (∀ (code : Byte) (s : State), code ≠ 0x00#8 → leads (.bypass code) s fun t => t.dbg = { s.dbg with ir := code } ∧
    t.fget F.DBG_STAT_EXTEST = 0 ∧ t.out = s.out ∧ steady s t) ∧
  (∀ s : State, leads .testLogicReset s fun t => t.dbg.ir = 0x02#8 ∧ t.dbg.tapLevel = 0 ∧ t.dbg.hostLevel = s.dbg.hostLevel ∧
    t.fget F.DBG_STAT_EXTEST = 0) ∧
  (∀ (write : Bool) (addr : Nat) (data : Word) (s : State), s.dbgWaits .tap = false →
    s.dbg.tapLevel < (if needsL3 (addr % 2 ^ 48 - addr % 4) then 3 else if write then 2 else 1) →
    leads (.dbgacc write addr data) s fun t => t.dbg = { s.dbg with ir := 0x10#8, accStat := 2 } ∧
      t.out = s.out ++ [.dbgacc s.dbg.accStat s.dbg.accData] ∧ steady s t) ∧
  (∀ (write : Bool) (addr : Nat) (data : Word) (s : State), s.dbgWaits .tap = true →
    leads (.dbgacc write addr data) s fun t => t.dbg = { s.dbg with ir := 0x10#8 } ∧
      t.out = s.out ++ [.dbgacc s.dbg.accStat s.dbg.accData] ∧ steady s t) ∧
  (∀ (addr : Nat) (data : Word) (s : State), s.dbgWaits .tap = false → isCtlSram (addr - addr % 4) = true →
    1 ≤ s.dbg.tapLevel → s.sramBad (addr - addr % 4) 4 = [] → leads (.dbgacc false addr data) s fun t =>
      t.dbg.accStat = 0 ∧ t.dbg.accData.toNat = ofLe (s.bytes (addr - addr % 4) 4) ∧ t.dbg.ir = 0x10#8 ∧
      t.out = s.out ++ [.dbgacc s.dbg.accStat s.dbg.accData] ∧ steady s t) ∧
  (∀ (addr : Nat) (data : Word) (s : State), s.dbgWaits .tap = false → isCtlSram (addr - addr % 4) = true →
    2 ≤ s.dbg.tapLevel → s.sramBad (addr - addr % 4) 4 = [] → leads (.dbgacc true addr data) s fun t =>
      t.dbg.accStat = 0 ∧ t.bytes (addr - addr % 4) 4 = leBytes 4 data.toNat ∧
      (∀ x, x < addr - addr % 4 ∨ addr - addr % 4 + 4 ≤ x → memGet t.mem x = memGet s.mem x) ∧ t.seq = s.seq ∧
      t.clauses = s.clauses) ∧
  (∀ (i : Instr) (wr : Bool) (s : State), (i, wr) ∈ [(.dbgAccessRead, false), (.dbgAccessWrite, true)] →
    s.dbgWaits .host = true → leads i s fun t => t.fget F.DBG_ACMD_RESULT = 4 ∧ t.fbit F.DBG_ACMD_WRITE = wr ∧
      t.dbg = s.dbg ∧ steady s t ∧ t.evq = s.evq ∧ onlyFields [F.DBG_ACMD_WRITE, F.DBG_ACMD_RESULT] s t) ∧
  (∀ (i : Instr) (wr : Bool) (a : Nat) (s : State), (i, wr) ∈ [(.dbgAccessRead, false), (.dbgAccessWrite, true)] →
    a = s.fget F.DBG_AADDR0_ADDR + s.fget F.DBG_AADDR1_ADDR * 2 ^ 32 → s.dbgWaits .host = false →
    s.dbg.hostLevel < (if needsL3 (a % 2 ^ 48 - a % 4) then 3 else if wr then 2 else 1) →
    leads i s fun t => t.fget F.DBG_ACMD_RESULT = 1 ∧ t.fget F.DBG_ACMD_GO = 0 ∧ t.dbg = s.dbg ∧ steady s t ∧
      t.evq = s.evq ∧ onlyFields [F.DBG_ACMD_WRITE, F.DBG_ACMD_GO, F.DBG_ACMD_RESULT] s t) ∧
  (∀ (a : Nat) (s : State), a = s.fget F.DBG_AADDR0_ADDR → s.fget F.DBG_AADDR1_ADDR = 0 → s.dbgWaits .host = false →
    isCtlSram (a - a % 4) = true → 1 ≤ s.dbg.hostLevel → s.sramBad (a - a % 4) 4 = [] → leads .dbgAccessRead s fun t =>
      t.fget F.DBG_ACMD_RESULT = 0 ∧ t.fget F.DBG_ACMD_GO = 0 ∧
      t.fget F.DBG_ADATA_DATA = ofLe (s.bytes (a - a % 4) 4) ∧ steady s t ∧ t.evq = s.evq ∧
      onlyFields [F.DBG_ACMD_WRITE, F.DBG_ACMD_GO, F.DBG_ACMD_RESULT, F.DBG_ADATA_DATA] s t) ∧
  (∀ (a : Nat) (s : State), a = s.fget F.DBG_AADDR0_ADDR → s.fget F.DBG_AADDR1_ADDR = 0 → s.dbgWaits .host = false →
    isCtlSram (a - a % 4) = true → 2 ≤ s.dbg.hostLevel → s.sramBad (a - a % 4) 4 = [] → leads .dbgAccessWrite s fun t =>
      t.fget F.DBG_ACMD_RESULT = 0 ∧ t.fget F.DBG_ACMD_GO = 0 ∧
      t.bytes (a - a % 4) 4 = leBytes 4 (s.fget F.DBG_ADATA_DATA) ∧
      (∀ x, x < a - a % 4 ∨ a - a % 4 + 4 ≤ x → memGet t.mem x = memGet s.mem x) ∧ t.seq = s.seq ∧ t.clauses = s.clauses ∧
      t.evq = s.evq ∧ onlyFields [F.DBG_ACMD_WRITE, F.DBG_ACMD_GO, F.DBG_ACMD_RESULT] s t)

/-- NOC_PACKET_FORWARD, AGE_INCREMENT and NOC_PACKET_RECEIVE (R456 to R461), with no rim port waiting. -/
def Obligations.PacketsForwarded : Prop :=
  (∀ (r port : Nat) (err : HopError) (s : State), s.noc.rsps = [] → s.noc.reqs = [] → s.chosen r port = none →
    exec (.nocPacketForward r port err) s = .next s) ∧
  (∀ (r : Nat) (f : Flight) (s : State), s.noc.rsps = [] → s.noc.reqs = [] → s.chosen r 4 = some f →
    leads (.nocPacketForward r 4 .none) s fun t => t.waitq r = (s.waitq r).erase f ∧ t.rxq r = s.rxq r ++ [⟨f.pkt, 4⟩] ∧
      (∀ x, x ≠ r → t.waitq x = s.waitq x ∧ t.rxq x = s.rxq x) ∧ t.noc.txns = s.noc.txns ∧ t.out = s.out ∧ steady s t ∧
      t.evq = s.evq ∧ onlyFields [] s t) ∧
  (∀ (r port q i : Nat) (f : Flight) (s : State), s.noc.rsps = [] → s.noc.reqs = [] → port ≠ 4 →
    rtNext r port = some (q, i) → q ≠ r → s.chosen r port = some f →
    leads (.nocPacketForward r port .none) s fun t => t.waitq r = (s.waitq r).erase f ∧
      t.waitq q = s.waitq q ++ [⟨f.pkt, i⟩] ∧ (∀ x, x ≠ r → x ≠ q → t.waitq x = s.waitq x) ∧ t.noc.rx = s.noc.rx ∧
      t.noc.txns = s.noc.txns ∧ t.out = s.out ∧ steady s t ∧ t.evq = s.evq ∧ onlyFields [] s t) ∧
  (∀ (r port q i : Nat) (f : Flight) (err : HopError) (s : State), s.noc.rsps = [] → s.noc.reqs = [] → port ≠ 4 →
    rtNext r port = some (q, i) → q ≠ r → s.chosen r port = some f → f.pkt.e2e = true → err ≠ .none →
    leads (.nocPacketForward r port err) s fun t => t.waitq r = (s.waitq r).erase f ∧
      t.waitq q = s.waitq q ++ [⟨{ f.pkt with crcOk := false }, i⟩] ∧ steady s t ∧ t.evq = s.evq ∧ onlyFields [] s t) ∧
  (∀ (r : Nat) (f : Flight) (err : HopError) (s : State), s.noc.rsps = [] → s.noc.reqs = [] → s.chosen r 4 = some f →
    f.pkt.e2e = true → err ≠ .none → leads (.nocPacketForward r 4 err) s fun t => t.waitq r = (s.waitq r).erase f ∧
      t.rxq r = s.rxq r ++ [⟨{ f.pkt with crcOk := false }, 4⟩] ∧ steady s t ∧ t.evq = s.evq ∧ onlyFields [] s t) ∧
  (∀ (r port q i : Nat) (f : Flight) (s : State), s.noc.rsps = [] → s.noc.reqs = [] → port ≠ 4 →
    rtNext r port = some (q, i) → q ≠ r → s.chosen r port = some f → f.pkt.e2e = false →
    leads (.nocPacketForward r port .corrected) s fun t => t.waitq r = (s.waitq r).erase f ∧
      t.waitq q = s.waitq q ++ [⟨f.pkt, i⟩] ∧ counted F.NOC_CNT_CE_COUNT s t ∧ steady s t ∧
      onlyFields [F.NOC_CNT_CE_COUNT, F.NOC_EVT_CE] s t) ∧
  (∀ (r port : Nat) (f : Flight) (err : HopError) (s : State), s.noc.rsps = [] → s.noc.reqs = [] →
    s.chosen r port = some f → f.pkt.e2e = false → err = .header ∨ (err = .data ∧ packetFlits f.pkt ≤ 1) →
    leads (.nocPacketForward r port err) s fun t => t.waitq r = (s.waitq r).erase f ∧
      (∀ x, x ≠ r → t.waitq x = s.waitq x) ∧ t.noc.rx = s.noc.rx ∧ counted F.NOC_CNT_UE_COUNT s t ∧
      posted F.NOC_EVT_UE 4 2 [r, f.port, opChannel f.pkt.op, 0] s t ∧ steady s t ∧
      onlyFields [F.NOC_CNT_UE_COUNT, F.NOC_EVT_UE] s t) ∧
  (∀ (r port q i : Nat) (f : Flight) (s : State), s.noc.rsps = [] → s.noc.reqs = [] → port ≠ 4 →
    rtNext r port = some (q, i) → q ≠ r → s.chosen r port = some f → f.pkt.e2e = false → 1 < packetFlits f.pkt →
    leads (.nocPacketForward r port .data) s fun t => t.waitq q = s.waitq q ++ [⟨{ f.pkt with poison := true }, i⟩] ∧
      counted F.NOC_CNT_UE_COUNT s t ∧ posted F.NOC_EVT_UE 4 2 [r, f.port, opChannel f.pkt.op, 1] s t ∧ steady s t ∧
      onlyFields [F.NOC_CNT_UE_COUNT, F.NOC_EVT_UE] s t) ∧
  (∀ (r : Nat) (s : State), leads (.ageIncrement r) s fun t =>
    t.waitq r = (s.waitq r).map (fun f => { f with pkt := { f.pkt with age := min 63 (f.pkt.age + 1) } }) ∧
    (∀ x, x ≠ r → t.waitq x = s.waitq x) ∧ t.noc.rx = s.noc.rx ∧ steady s t ∧ t.evq = s.evq ∧ onlyFields [] s t) ∧
  (∀ (r : Nat) (err : HopError) (s : State), s.rxq r = [] → exec (.nocPacketReceive r err) s = .next s) ∧
  (∀ (r : Nat) (f : Flight) (err : HopError) (s : State), s.noc.rsps = [] → s.noc.reqs = [] → s.rxq r = [f] →
    f.pkt.e2e = true → f.pkt.crcOk = false ∨ err ≠ .none → leads (.nocPacketReceive r err) s fun t => t.rxq r = [] ∧
      (∀ x, x ≠ r → t.rxq x = s.rxq x) ∧ t.noc.wait = s.noc.wait ∧ counted F.NOC_CNT_CRC_COUNT s t ∧
      posted F.NOC_EVT_CRC 4 3 [r, f.pkt.src, f.pkt.cls] s t ∧ steady s t ∧
      onlyFields [F.NOC_CNT_CRC_COUNT, F.NOC_EVT_CRC] s t) ∧
  (∀ (r : Nat) (f : Flight) (s : State), s.noc.rsps = [] → s.noc.reqs = [] → s.rxq r = [f] → f.pkt.e2e = false →
    leads (.nocPacketReceive r .header) s fun t => t.rxq r = [] ∧ t.noc.wait = s.noc.wait ∧
      counted F.NOC_CNT_UE_COUNT s t ∧ posted F.NOC_EVT_UE 4 2 [r, 4, opChannel f.pkt.op, 0] s t ∧ steady s t ∧
      onlyFields [F.NOC_CNT_UE_COUNT, F.NOC_EVT_UE] s t) ∧
  (∀ (r : Nat) (f : Flight) (s : State), s.noc.rsps = [] → s.noc.reqs = [] → s.rxq r = [f] → f.pkt.e2e = false →
    opClass f.pkt.op ≠ some f.pkt.cls → leads (.nocPacketReceive r .none) s fun t => t.rxq r = [] ∧
      t.noc.wait = s.noc.wait ∧ counted F.NOC_CNT_ROUTE_COUNT s t ∧
      posted F.NOC_EVT_ROUTE 4 5 [r, f.pkt.dst, f.pkt.epoch.toNat, f.pkt.op] s t ∧ steady s t ∧
      onlyFields [F.NOC_CNT_ROUTE_COUNT, F.NOC_EVT_ROUTE] s t) ∧
  (∀ (f : Flight) (s : State), s.noc.rsps = [] → s.noc.reqs = [] → s.rxq 65 = [f] → f.pkt.e2e = false → f.pkt.op = 5 →
    f.pkt.cls = 2 → leads (.nocPacketReceive 65 .none) s fun t => t.rxq 65 = [] ∧
      t.evq = s.evq ++ [recordOf f.pkt.payload] ∧ steady s t ∧ onlyFields [] s t) ∧
  (∀ (r : Nat) (f : Flight) (s : State), s.noc.rsps = [] → s.noc.reqs = [] → s.noc.txns = [] → s.rxq r = [f] →
    f.pkt.e2e = false → f.pkt.op ∈ [3, 4] → f.pkt.cls = 1 → leads (.nocPacketReceive r .none) s fun t => t.rxq r = [] ∧
      counted F.NOC_CNT_LATE_COUNT s t ∧ t.evq = s.evq ∧ steady s t ∧ onlyFields [F.NOC_CNT_LATE_COUNT] s t) ∧
  (∀ (f : Flight) (s : State), s.noc.rsps = [] → s.noc.reqs = [] → s.rxq 66 = [f] → f.pkt.e2e = false → f.pkt.op = 1 →
    f.pkt.cls = 0 → isCtlSram f.pkt.addr = true → s.sramBad f.pkt.addr f.pkt.size = [] → 0 < f.pkt.size →
    s.canSend 66 (response 66 f.pkt 0 (f.pkt.payload ++ List.replicate f.pkt.size 0)) = true →
    leads (.nocPacketReceive 66 .none) s fun t => t.rxq 66 = [] ∧
      t.waitq 66 = s.waitq 66 ++ [⟨s.stamp (response 66 f.pkt 0 (s.bytes f.pkt.addr f.pkt.size)), 4⟩] ∧ t.evq = s.evq ∧
      steady s t ∧ onlyFields [] s t)

/-- RIM_PORT_REQUEST, NOC_TIMEOUT, NOC_RT_FLIP, OLD_EPOCH_DRAINED, NOC_AGREE_COMMIT and DLMODE_SWITCH (R461, R464, R467, R469,
R471). -/
def Obligations.NetworkModes : Prop :=
  (∀ (x : RimReq) (s : State), s.noc.rsps = [] → s.noc.reqs = [] → s.portRuns x.port = false →
    leads (.rimPortRequest x.port x.write x.addr x.size x.tag x.data) s fun t => t.noc = { s.noc with reqs := [x] } ∧
      t.out = s.out ∧ steady s t ∧ t.evq = s.evq ∧ onlyFields [] s t) ∧
  (∀ (x : RimReq) (s : State), s.noc.rsps = [] → s.noc.reqs = [] → s.portRuns x.port = true → destOf x.addr = none →
    leads (.rimPortRequest x.port x.write x.addr x.size x.tag x.data) s fun t => t.noc = s.noc ∧
      t.out = s.out ++ [.rimResponse x.port x.tag 1 []] ∧ steady s t ∧ t.evq = s.evq ∧ onlyFields [] s t) ∧
  (∀ (x : RimReq) (d : Nat) (p : Packet) (s : State), s.noc.rsps = [] → s.noc.reqs = [] → s.portRuns x.port = true →
    destOf x.addr = some d → p = rimPacket x d (kvGet 0 s.noc.tid x.port) → s.portLoad x.port < 48 →
    nbit s.noc.modeWait 5 = false → s.canSend (rimRouter x.port) p = true →
    leads (.rimPortRequest x.port x.write x.addr x.size x.tag x.data) s fun t =>
      t.waitq (rimRouter x.port) = s.waitq (rimRouter x.port) ++ [⟨s.stamp p, 4⟩] ∧
      (∀ r, r ≠ rimRouter x.port → t.waitq r = s.waitq r) ∧
      t.noc.txns = s.noc.txns ++ [⟨x.port, kvGet 0 s.noc.tid x.port, x.tag, x.addr⟩] ∧
      kvGet 0 t.noc.tid x.port = (kvGet 0 s.noc.tid x.port + 1) % 4096 ∧ t.noc.reqs = [] ∧ t.out = s.out ∧ steady s t ∧
      t.evq = s.evq ∧ onlyFields [] s t) ∧
  (∀ (x : RimReq) (d : Nat) (s : State), s.noc.rsps = [] → s.noc.reqs = [] → s.portRuns x.port = true →
    destOf x.addr = some d → 48 ≤ s.portLoad x.port ∨ nbit s.noc.modeWait 5 = true ∨
      s.canSend (rimRouter x.port) (rimPacket x d (kvGet 0 s.noc.tid x.port)) = false →
    leads (.rimPortRequest x.port x.write x.addr x.size x.tag x.data) s fun t => t.noc = { s.noc with reqs := [x] } ∧
      t.out = s.out ∧ steady s t ∧ t.evq = s.evq ∧ onlyFields [] s t) ∧
  (∀ (k : Nat) (s : State), s.noc.txns[k]? = none → exec (.nocTimeout k) s = .next s) ∧
  (∀ (k : Nat) (x : Txn) (s : State), s.noc.txns[k]? = some x → s.noc.rsps = [] → s.noc.reqs = [] →
    s.portRuns x.port = true → leads (.nocTimeout k) s fun t => t.noc.txns = s.noc.txns.erase x ∧
      t.out = s.out ++ [.rimResponse x.port x.tag 5 []] ∧ counted F.NOC_CNT_TMO_COUNT s t ∧
      posted F.NOC_EVT_TIMEOUT 4 4 ([5, x.tid] ++ w64 x.addr) s t ∧ steady s t ∧
      onlyFields [F.NOC_CNT_TMO_COUNT, F.NOC_EVT_TIMEOUT] s t) ∧
  (∀ (k : Nat) (x : Txn) (s : State), s.noc.txns[k]? = some x → s.noc.rsps = [] → s.noc.reqs = [] →
    s.portRuns x.port = false → leads (.nocTimeout k) s fun t => t.noc.txns = s.noc.txns.erase x ∧
      t.noc.rsps = [⟨x.port, x.tag, 5, []⟩] ∧ t.out = s.out ∧ counted F.NOC_CNT_TMO_COUNT s t ∧
      posted F.NOC_EVT_TIMEOUT 4 4 ([5, x.tid] ++ w64 x.addr) s t ∧ steady s t ∧
      onlyFields [F.NOC_CNT_TMO_COUNT, F.NOC_EVT_TIMEOUT] s t) ∧
  (∀ s : State, s.fbit F.NOC_STAT_OLDBUSY = true → leads .nocRtFlip s fun t => t.fget F.NOC_RT_RESULT = 2 ∧
    t.noc = s.noc ∧ steady s t ∧ t.evq = s.evq ∧ onlyFields [F.NOC_RT_RESULT] s t) ∧
  (∀ s : State, s.fbit F.NOC_STAT_OLDBUSY = false → leads .nocRtFlip s fun t => t.noc = s.noc ∧ steady s t ∧
    (∀ r d, s.routeFault (1 - s.epoch) = some (r, d) → t.fget F.NOC_RT_RESULT = 1 ∧ t.epoch = s.epoch ∧
      (∃ v, posted F.NOC_EVT_RT 4 6 [1, r, d, v] s t) ∧ onlyFields [F.NOC_RT_RESULT, F.NOC_EVT_RT] s t) ∧
    (s.routeFault (1 - s.epoch) = none → t.epoch = (1 - s.epoch) ∧ t.fget F.NOC_STAT_OLDBUSY = 1 ∧
      t.fget F.NOC_RT_FLIP = 1 ∧ t.evq = s.evq ∧ onlyFields [F.NOC_STAT_EPOCH, F.NOC_STAT_OLDBUSY, F.NOC_RT_FLIP] s t)) ∧
  (∀ s : State, s.fbit F.NOC_STAT_OLDBUSY = false ∨ s.oldCount ≠ 0 → exec .oldEpochDrained s = .next s) ∧
  (∀ s : State, s.noc.rsps = [] → s.noc.reqs = [] → s.fbit F.NOC_STAT_OLDBUSY = true → s.oldCount = 0 →
    leads .oldEpochDrained s fun t => t.fget F.NOC_STAT_OLDBUSY = 0 ∧ t.fget F.NOC_RT_FLIP = 0 ∧
      t.fget F.NOC_RT_RESULT = 0 ∧ t.epoch = s.epoch ∧ (∃ u v, posted F.NOC_EVT_RT 4 6 [0, u, v, s.epoch] s t) ∧
      t.noc = s.noc ∧ steady s t ∧
      onlyFields [F.NOC_STAT_OLDBUSY, F.NOC_RT_FLIP, F.NOC_RT_RESULT, F.NOC_EVT_RT] s t) ∧
  (∀ (tag : Byte) (s : State), s.noc.modeWait ≠ 0 → leads (.nocAgreeCommit tag) s fun t => t.fget F.NOC_AGREE_RESULT = 4 ∧
    t.noc = s.noc ∧ steady s t ∧ t.evq = s.evq ∧ onlyFields [F.NOC_AGREE_RESULT] s t) ∧
  (∀ (tag : Byte) (r : Nat) (s : State), s.noc.modeWait = 0 →
    (r = (if s.fget F.NOC_TIME_TICK = 0 then 1 else if s.fget F.NOC_TIME_TMO < 4 * s.fget F.NOC_TIME_TICK then 2
      else if s.fget F.NOC_MODE_DLMODE ≠ s.fget F.NOC_MODEA_DLMODE ∧ s.fbit F.NOC_STAT_OLDBUSY = true then 3 else 0)) →
    leads (.nocAgreeCommit tag) s fun t => t.fget F.NOC_AGREE_TAG = tag.toNat ∧ t.fget F.NOC_AGREE_RESULT = r ∧
      posted F.NOC_EVT_AGREE 4 7 [tag.toNat, r] s t ∧ steady s t ∧
      (r ≠ 0 → t.noc = s.noc ∧ onlyFields [F.NOC_AGREE_TAG, F.NOC_AGREE_RESULT, F.NOC_EVT_AGREE] s t) ∧
      (r = 0 → t.fget F.NOC_MODEA_DLMODE = s.fget F.NOC_MODE_DLMODE % 2 ^ F.NOC_MODEA_DLMODE.width ∧
        t.fget F.NOC_MODEA_PROT = s.fget F.NOC_MODE_PROT % 2 ^ F.NOC_MODEA_PROT.width ∧
        t.fget F.NOC_MODEA_PRIO = s.fget F.NOC_MODE_PRIO % 2 ^ F.NOC_MODEA_PRIO.width ∧
        t.fget F.NOC_TIMEA_TMO = s.fget F.NOC_TIME_TMO % 2 ^ F.NOC_TIMEA_TMO.width ∧
        t.fget F.NOC_TIMEA_TICK = s.fget F.NOC_TIME_TICK % 2 ^ F.NOC_TIMEA_TICK.width ∧
        t.noc.modeWait = (if s.fget F.NOC_MODE_DLMODE =
          s.fget F.NOC_MODEA_DLMODE then 0 else maskOf 8 fun k => s.inFlight k != 0) ∧
        onlyFields [F.NOC_AGREE_TAG, F.NOC_AGREE_RESULT, F.NOC_EVT_AGREE, F.NOC_MODEA_DLMODE, F.NOC_MODEA_PROT,
          F.NOC_MODEA_PRIO, F.NOC_TIMEA_TMO, F.NOC_TIMEA_TICK, F.NOC_STAT_MODE_WAIT] s t)) ∧
  (∀ (row : Nat) (s : State), nbit s.noc.modeWait row = false ∨ s.inFlight row ≠ 0 →
    exec (.dlmodeSwitch row) s = .next s) ∧
  (∀ (row : Nat) (s : State), s.noc.rsps = [] → s.noc.reqs = [] → nbit s.noc.modeWait row = true →
    s.inFlight row = 0 → leads (.dlmodeSwitch row) s fun t =>
      t.noc = { s.noc with modeWait := putBit s.noc.modeWait row false } ∧
      t.fget F.NOC_STAT_MODE_WAIT = (putBit s.noc.modeWait row false != 0).toNat ∧ steady s t ∧ t.evq = s.evq ∧
      onlyFields [F.NOC_STAT_MODE_WAIT] s t)

/-- BAR2_READ, BAR2_WRITE, DMA_ENABLE, DMA_DISABLE, DMA_DOORBELL, DMA_DESC_COMPLETE and HIF_DMA_ERR (R485 to R493). -/
def Obligations.HostMovesData : Prop :=
  (∀ (off size : Nat) (s : State), s.bar2Addr off = none → leads (.bar2Read off size) s fun t =>
    t.out = s.out ++ [.unsupported] ∧ counted F.HIF_CNT_CPLERR_COUNT s t ∧ t.umem = s.umem ∧ steady s t ∧ t.evq = s.evq ∧
    onlyFields [F.HIF_CNT_CPLERR_COUNT] s t) ∧
  (∀ (off size a : Nat) (s : State), s.bar2Addr off = some a → 0 < size → isHbm a = true → isHbm (a + size - 1) = true →
    s.rangeHeld a size = false → s.umem.bad = [] → (∀ p ∈ packetsOf a size, s.busRefusal .hif false p.1 p.2 = none) →
    leads (.bar2Read off size) s fun t => t.out = s.out ++ [.completion false (s.bytes a size)] ∧ steady s t ∧ t.evq = s.evq ∧
      onlyFields [] s t) ∧
  (∀ (off size a : Nat) (s : State), s.bar2Addr off = some a → 0 < size →
    (isLex a = true ∧ isLex (a + size - 1) = true) ∨
      (isHbm a = true ∧ isHbm (a + size - 1) = true ∧ s.rangeHeld a size = true) →
    (∀ p ∈ packetsOf a size, s.busRefusal .hif false p.1 p.2 = none) → leads (.bar2Read off size) s fun t =>
      t.umem.nocq.length = s.umem.nocq.length + (packetsOf a size).length ∧ t.out = s.out ∧ steady s t ∧ t.evq = s.evq ∧
      onlyFields [] s t) ∧
  (∀ (off a : Nat) (data : List Byte) (s : State), s.bar2Addr off = some a → 0 < data.length →
    (isLex a = true ∧ isLex (a + data.length - 1) = true) ∨
      (isHbm a = true ∧ isHbm (a + data.length - 1) = true ∧ ∀ p ∈ packetsOf a data.length, s.hbmHeld p.1 = true) →
    (∀ p ∈ packetsOf a data.length, s.busRefusal .hif true p.1 p.2 = none) → leads (.bar2Write off data) s fun t =>
      t.umem.nocq.length = s.umem.nocq.length + (packetsOf a data.length).length ∧ t.out = s.out ∧ steady s t ∧
      t.evq = s.evq ∧ onlyFields [] s t) ∧
  (∀ (off : Nat) (data : List Byte) (s : State), s.bar2Addr off = none → leads (.bar2Write off data) s fun t =>
    counted F.HIF_CNT_PWERR_COUNT s t ∧ posted F.HIF_EVT_PWERR 3 4 ([2] ++ w64 off ++ [1]) s t ∧ t.umem = s.umem ∧
    t.out = s.out ∧ steady s t ∧ onlyFields [F.HIF_CNT_PWERR_COUNT, F.HIF_EVT_PWERR] s t) ∧
  (∀ (off a : Nat) (data : List Byte) (s : State), s.bar2Addr off = some a → 0 < data.length → isHbm a = true →
    isHbm (a + data.length - 1) = true → (∀ p ∈ packetsOf a data.length, s.hbmHeld p.1 = false) → s.umem.bad = [] →
    s.umem.hbmRet = [] → (∀ p ∈ packetsOf a data.length, s.busRefusal .hif true p.1 p.2 = none) →
      leads (.bar2Write off data) s fun t =>
      t.bytes a data.length = data ∧ (∀ x, x < a ∨ a + data.length ≤ x → memGet t.mem x = memGet s.mem x) ∧
      t.seq = s.seq ∧ t.clauses = s.clauses ∧ t.out = s.out ∧ t.evq = s.evq ∧ onlyFields [] s t) ∧
  (∀ (c : Nat) (w : Word) (s : State), s.rsvChanged (0x300200 + 0x10 * c) w = false → s.fbit (F.HIF_DCTL_EN c) = true →
    exec (.dmaEnable c w) s = .next s) ∧
  (∀ (c : Nat) (w : Word) (s : State), s.rsvChanged (0x300200 + 0x10 * c) w = false → s.fbit (F.HIF_DCTL_EN c) = false →
    leads (.dmaEnable c w) s fun t =>
    t.fget (F.HIF_DCTL_EN c) = 1 ∧ t.fget (F.HIF_DCTL_WB c) = fieldOf w 30 1 ∧ t.fget (F.HIF_DCTL_VEC c) = fieldOf w 20 6 ∧
    t.fget (F.HIF_DCTL_LOG2 c) = (if 4 ≤ fieldOf w 15 5 ∧ fieldOf w 15 5 ≤ 16 then fieldOf w 15 5 else 4) ∧
    t.dmaCh c = { s.dmaCh c with
      st := .idle, head := 0, hwrap := false, tail := 0, twrap := false, err := 0 } ∧ (∀ d, d ≠ c → t.dmaCh d = s.dmaCh d) ∧
    steady s t ∧ t.evq = s.evq ∧
    onlyFields [F.HIF_DCTL_EN c, F.HIF_DCTL_WB c, F.HIF_DCTL_VEC c, F.HIF_DCTL_LOG2 c] s t) ∧
  (∀ (c : Nat) (w : Word) (s : State), s.rsvChanged (0x300200 + 0x10 * c) w = false →
    leads (.dmaDisable c w) s fun t => t.fget (F.HIF_DCTL_EN c) = 0 ∧
    t.dmaCh c = { s.dmaCh c with st := .off } ∧ (∀ d, d ≠ c → t.dmaCh d = s.dmaCh d) ∧ steady s t ∧ t.evq = s.evq ∧
    onlyFields [F.HIF_DCTL_EN c, F.HIF_DCTL_WB c, F.HIF_DCTL_VEC c, F.HIF_DCTL_LOG2 c] s t) ∧
  (∀ (c log : Nat) (w : Word) (s : State), log = s.dmaLog c → fieldOf w 17 15 ≠ 0 ∨ 2 ^ log ≤ fieldOf w 0 16 ∨
      2 ^ log < ringAhead log (ringPos log (s.dmaCh c).head (s.dmaCh c).hwrap) (ringPos log (fieldOf w 0 16) (w.getLsbD 16)) →
    leads (.dmaDoorbell c w) s fun t => counted F.HIF_CNT_DBERR_COUNT s t ∧
      posted F.HIF_EVT_DBERR 3 5 [0x10000 + 0x1000 * c, w.toNat] s t ∧ t.hif = s.hif ∧ steady s t ∧
      onlyFields [F.HIF_CNT_DBERR_COUNT, F.HIF_EVT_DBERR] s t) ∧
  (∀ (c log : Nat) (w : Word) (s : State), log = s.dmaLog c → fieldOf w 17 15 = 0 → fieldOf w 0 16 < 2 ^ log →
    ringAhead log (ringPos log (s.dmaCh c).head (s.dmaCh c).hwrap) (ringPos log (fieldOf w 0 16) (w.getLsbD 16)) ≤ 2 ^ log →
    leads (.dmaDoorbell c w) s fun t => (t.dmaCh c).tail = fieldOf w 0 16 ∧ (t.dmaCh c).twrap = w.getLsbD 16 ∧
      (t.dmaCh c).head = (s.dmaCh c).head ∧ (t.dmaCh c).hwrap = (s.dmaCh c).hwrap ∧
      (t.dmaCh c).st = (if (s.dmaCh c).st = .idle ∧ t.dmaFill c ≠ 0 then .run else (s.dmaCh c).st) ∧
      (∀ d, d ≠ c → t.dmaCh d = s.dmaCh d) ∧ steady s t ∧ t.evq = s.evq ∧ onlyFields [] s t) ∧
  (∀ (c : Nat) (d data : List Byte) (s : State), (s.dmaCh c).st ≠ .run ∨ s.dmaFill c = 0 ∨ s.hif.bme = false ∨
      (descBad d = false ∧ s.rangeHeld (leAt d 16 6) (leAt d 4 4) = true) → exec (.dmaDescComplete c d data) s = .next s) ∧
  (∀ (c : Nat) (d data : List Byte) (s : State), (s.dmaCh c).st = .run → s.dmaFill c ≠ 0 → s.hif.bme = true →
    descBad d = true → leads (.dmaDescComplete c d data) s fun t => t.dmaCh c = { s.dmaCh c with st := .error, err := 1 } ∧
      (∀ e, e ≠ c → t.dmaCh e = s.dmaCh e) ∧ posted F.HIF_EVT_DMA_ERR 3 2 [c, (s.dmaCh c).head, 1, 0] s t ∧
      t.out = s.out ++ [.hostRead ((s.dmaCh c).base + 32 * (s.dmaCh c).head) 32] ∧ steady s t ∧
      onlyFields [F.HIF_EVT_DMA_ERR] s t) ∧
  (∀ (c na len : Nat) (d data : List Byte) (s : State), (s.dmaCh c).st = .run → s.dmaFill c ≠ 0 → s.hif.bme = true →
    descBad d = false → nbits (leAt d 0 4) 28 4 = 1 → na = leAt d 16 6 → len = leAt d 4 4 → data.length = len →
    isCtlSram na = true → isCtlSram (na + len - 1) = true → s.mgt.bad = [] → leads (.dmaDescComplete c d data) s fun t =>
      t.bytes na len = data ∧ (∀ x, x < na ∨ na + len ≤ x → memGet t.mem x = memGet s.mem x) ∧
      (t.dmaCh c).head = (if (s.dmaCh c).head + 1 = 2 ^ s.dmaLog c then 0 else (s.dmaCh c).head + 1) ∧
      (t.dmaCh c).tail = (s.dmaCh c).tail ∧ (∀ e, e ≠ c → t.dmaCh e = s.dmaCh e) ∧ t.seq = s.seq ∧
      t.clauses = s.clauses ∧ onlyFields [F.HIF_EVT_DMA_DONE] s t) ∧
  (∀ (c na len : Nat) (d data : List Byte) (s : State), (s.dmaCh c).st = .run → s.dmaFill c ≠ 0 → s.hif.bme = true →
    descBad d = false → nbits (leAt d 0 4) 28 4 = 2 → na = leAt d 16 6 → len = leAt d 4 4 →
    isCtlSram na = true → isCtlSram (na + len - 1) = true → s.mgt.bad = [] → leads (.dmaDescComplete c d data) s fun t =>
      .hostWrite (leAt d 8 8) (s.bytes na len) ∈ t.out ∧
      (t.dmaCh c).head = (if (s.dmaCh c).head + 1 = 2 ^ s.dmaLog c then 0 else (s.dmaCh c).head + 1) ∧
      (∀ e, e ≠ c → t.dmaCh e = s.dmaCh e) ∧ steady s t ∧ onlyFields [F.HIF_EVT_DMA_DONE] s t) ∧
  (∀ (c err st : Nat) (s : State), (s.dmaCh c).st = .run → s.dmaFill c ≠ 0 → leads (.hifDmaErr c err st) s fun t =>
    t.dmaCh c = { s.dmaCh c with st := .error, err := err } ∧ (∀ e, e ≠ c → t.dmaCh e = s.dmaCh e) ∧
    posted F.HIF_EVT_DMA_ERR 3 2 [c, (s.dmaCh c).head, err, st] s t ∧ steady s t ∧ onlyFields [F.HIF_EVT_DMA_ERR] s t) ∧
  (∀ (c err st : Nat) (s : State), (s.dmaCh c).st ≠ .run ∨ s.dmaFill c = 0 → exec (.hifDmaErr c err st) s = .next s)

/-- EVENT_ACCEPT, EVENT_RING_WRITE, MSIX_COALESCE_EXPIRE, RING_FULL_RESIGNAL, EVENT_DOORBELL, EVENT_RING_ENABLE, HIF_LINK,
PCIE_RESET and BUS_MASTER_ENABLE (R482, R483, R494 to R508). That a hot reset keeps the host path's level is this model's
reading (log 25). -/
def Obligations.EventsReachRings : Prop :=
  (∀ (k : Nat) (s : State), s.evq[k]? = none ∨ 256 ≤ s.hif.held.length → exec (.eventAccept k) s = .next s) ∧
  (∀ (k : Nat) (e : Ev) (s : State), s.evq[k]? = some e → s.hif.held.length < 256 → leads (.eventAccept k) s fun t =>
    t.evq = s.evq.eraseIdx k ∧
    t.hif = { s.hif with
      held := s.hif.held ++ [(s.hif.seqno, e)], seqno := (s.hif.seqno + 1) % 2 ^ 32 } ∧
    (evClass e ≠ 2 → t.flash = s.flash) ∧ t.out = s.out ∧ steady s t ∧ onlyFields [] s t) ∧
  (∀ s : State, s.hif.held = [] ∨ s.hif.bme = false ∨ s.ringWaited ≠ none → exec .eventRingWrite s = .next s) ∧
  (∀ (n r : Nat) (e : Ev) (rest : List (Nat × Ev)) (s : State), s.hif.held = (n, e) :: rest → s.hif.bme = true →
    s.ringWaited = none → r = s.ringOf e → leads .eventRingWrite s fun t =>
      t.hif.held = rest ∧ t.hif.seqno = s.hif.seqno ∧ t.evq = s.evq ∧
      (t.ring r).base = (s.ring r).base ∧ (t.ring r).cons = (s.ring r).cons ∧ (t.ring r).cwrap = (s.ring r).cwrap ∧
      (if (s.ring r).prod + 1 = 2 ^ s.ringLog r then (t.ring r).prod = 0 ∧ (t.ring r).pwrap = !(s.ring r).pwrap
        else (t.ring r).prod = (s.ring r).prod + 1 ∧ (t.ring r).pwrap = (s.ring r).pwrap) ∧
      (∀ q, q ≠ r → t.ring q = s.ring q) ∧
      (let a := (s.ring r).base + 64 * (s.ring r).prod
       let bs := recordBytes (!(s.ring r).pwrap) n e
       let two := s.out ++ [.hostWrite (a + 4) (bs.drop 4), .hostWrite a (bs.take 4)]
       let cnt := s.fget (F.HIF_EVCFG_CNT r)
       if cnt = 0 ∨ s.fget (F.HIF_EVCFG_TIME r) = 0 ∨ cnt ≤ (s.ring r).unsig + 1 then
         let v := s.fget (F.HIF_EVCFG_VEC r)
         (t.ring r).unsig = 0 ∧
           (if (s.msixWord (0x800 + 16 * v + 12)).getLsbD 0 = true then
             (t.msixWord (0xC00 + 4 * (v / 32))).getLsbD (v % 32) = true ∧ t.out = two
           else t.out = two ++ [.msix v])
       else (t.ring r).unsig = (s.ring r).unsig + 1 ∧ t.out = two) ∧
      steady s t ∧ onlyFields [] s t) ∧
  (∀ (r : Nat) (s : State), s.fbit (F.HIF_EVCFG_EN r) = false ∨ (s.ring r).unsig = 0 →
    exec (.msixCoalesceExpire r) s = .next s) ∧
  (∀ (r v : Nat) (s : State), s.fbit (F.HIF_EVCFG_EN r) = true → (s.ring r).unsig ≠ 0 → v = s.fget (F.HIF_EVCFG_VEC r) →
    leads (.msixCoalesceExpire r) s fun t => t.ring r = { s.ring r with unsig := 0 } ∧ (∀ q, q ≠ r → t.ring q = s.ring q) ∧
      (if s.hif.bme = false then v ∈ t.hif.msiWait ∧ t.out = s.out
        else if (s.msixWord (0x800 + 16 * v + 12)).getLsbD 0 = true then
          (t.msixWord (0xC00 + 4 * (v / 32))).getLsbD (v % 32) = true ∧ t.out = s.out
        else t.out = s.out ++ [.msix v]) ∧ t.hif.held = s.hif.held ∧ steady s t ∧ t.evq = s.evq ∧ onlyFields [] s t) ∧
  (∀ s : State, s.ringWaited = none → exec .ringFullResignal s = .next s) ∧
  (∀ (r : Nat) (s : State), s.ringWaited = some r → s.fbit (F.HIF_EVCFG_EN r) = false → exec .ringFullResignal s = .next s) ∧
  (∀ (r v : Nat) (s : State), s.ringWaited = some r → s.fbit (F.HIF_EVCFG_EN r) = true → v = s.fget (F.HIF_EVCFG_VEC r) →
    leads .ringFullResignal s fun t =>
      (if s.hif.bme = false then v ∈ t.hif.msiWait ∧ t.out = s.out
        else if (s.msixWord (0x800 + 16 * v + 12)).getLsbD 0 = true then
          (t.msixWord (0xC00 + 4 * (v / 32))).getLsbD (v % 32) = true ∧ t.out = s.out
        else t.out = s.out ++ [.msix v] ∧ t.hif = s.hif) ∧
      counted F.HIF_CNT_EVBLK_COUNT s t ∧ t.hif.rings = s.hif.rings ∧ t.hif.held = s.hif.held ∧ steady s t ∧
      t.evq = s.evq ∧ onlyFields [F.HIF_CNT_EVBLK_COUNT] s t) ∧
  (∀ (r log p : Nat) (w : Word) (s : State), log = s.ringLog r → p = ringPos log (fieldOf w 0 16) (w.getLsbD 16) →
    leads (.eventDoorbell r w) s fun t =>
      (if fieldOf w 17 15 ≠ 0 ∨ 2 ^ log ≤ fieldOf w 0 16 ∨
          s.ringFill r < ringAhead log (ringPos log (s.ring r).cons (s.ring r).cwrap) p then
        t.hif = s.hif ∧ counted F.HIF_CNT_DBERR_COUNT s t ∧ posted F.HIF_EVT_DBERR 3 5 [0x1000 * r, w.toNat] s t
      else
        t.ring r = { s.ring r with
          cons := fieldOf w 0 16, cwrap := w.getLsbD 16 } ∧ (∀ q, q ≠ r → t.ring q = s.ring q) ∧ t.evq = s.evq ∧
        onlyFields [] s t) ∧
      t.out = s.out ∧ steady s t ∧ onlyFields [F.HIF_CNT_DBERR_COUNT, F.HIF_EVT_DBERR] s t) ∧
  (∀ (r : Nat) (w : Word) (s : State), s.rsvChanged (0x300100 + 0x10 * r) w = false → leads (.eventRingEnable r w) s fun t =>
    t.fget (F.HIF_EVCFG_EN r) = 1 ∧
    t.ring r = { s.ring r with
      prod := 0, pwrap := false, cons := 0, cwrap := false, unsig := 0 } ∧ (∀ q, q ≠ r → t.ring q = s.ring q) ∧
    (if s.fbit (F.HIF_EVCFG_EN r) = true then onlyFields [] s t
      else t.fget (F.HIF_EVCFG_VEC r) = fieldOf w 25 6 ∧ t.fget (F.HIF_EVCFG_CNT r) = fieldOf w 12 8 ∧
        t.fget (F.HIF_EVCFG_TIME r) = fieldOf w 0 12 ∧
        t.fget (F.HIF_EVCFG_LOG2 r) = (if 6 ≤ fieldOf w 20 5 ∧ fieldOf w 20 5 ≤ 16 then fieldOf w 20 5 else 6)) ∧
    steady s t ∧ t.evq = s.evq ∧
    onlyFields [F.HIF_EVCFG_EN r, F.HIF_EVCFG_VEC r, F.HIF_EVCFG_LOG2 r, F.HIF_EVCFG_CNT r, F.HIF_EVCFG_TIME r] s t) ∧
  (∀ (speed width : Nat) (flit dlup : Bool) (s : State), speed < 16 → width < 4 →
    leads (.hifLink speed width flit dlup) s fun t =>
    t.fget F.HIF_STAT_SPEED = speed ∧ t.fget F.HIF_STAT_WIDTH = width ∧ t.fbit F.HIF_STAT_FLIT = flit ∧
    t.fbit F.HIF_STAT_DLUP = dlup ∧ posted F.HIF_EVT_LINK 3 3 [speed, width, flit.toNat, dlup.toNat] s t ∧ t.hif = s.hif ∧
    steady s t ∧
    onlyFields [F.HIF_STAT_SPEED, F.HIF_STAT_WIDTH, F.HIF_STAT_FLIT, F.HIF_STAT_DLUP, F.HIF_EVT_LINK] s t) ∧
  (∀ (kind : PcieReset) (s : State), leads (.pcieReset kind) s fun t =>
    (∀ n, n < 16 → t.fget (F.HIF_AWIN_EN n) = 0 ∧ t.fget (F.HIF_AWIN_BASE n) = 0) ∧
    (∀ r, r < 4 → t.fget (F.HIF_EVCFG_EN r) = 0) ∧
    (∀ c, c < 16 → t.fget (F.HIF_DCTL_EN c) = 0 ∧ t.dmaCh c = { s.dmaCh c with st := .off }) ∧
    (∀ r, t.ring r = s.ring r) ∧ t.hif.bme = false ∧ t.hif.msix = [] ∧ t.hif.seqno = s.hif.seqno ∧ t.hif.held = s.hif.held ∧
    t.fget F.HIF_EVT_RESET = 1 ∧ t.fget F.HIF_EVROUTE_RING = s.fget F.HIF_EVROUTE_RING ∧
    t.dbg.hostLevel = (if kind = .hot then s.dbg.hostLevel else 0) ∧ t.dbg.tapLevel = s.dbg.tapLevel) ∧
  (∀ s : State, leads (.pcieReset .hot) s fun t => posted F.HIF_EVT_RESET 3 6 [1] s t ∧ steady s t ∧ t.out = s.out ∧
    t.dbg = s.dbg) ∧
  (∀ s : State, s.dbg.hostLevel = 0 → leads (.pcieReset .conventional) s fun t => posted F.HIF_EVT_RESET 3 6 [0] s t ∧
    steady s t ∧ t.out = s.out) ∧
  (∀ s : State, s.dbg.hostLevel = 0 → leads (.pcieReset .functionLevel) s fun t => posted F.HIF_EVT_RESET 3 6 [2] s t ∧
    steady s t ∧ t.out = s.out) ∧
  (∀ s : State, leads (.busMasterEnable false) s fun t => t.hif = { s.hif with bme := false } ∧ t.out = s.out ∧ steady s t ∧
    t.evq = s.evq ∧ onlyFields [] s t) ∧
  (∀ s : State, (∀ v ∈ s.hif.msiWait, (s.msixWord (0x800 + 16 * v + 12)).getLsbD 0 = false) →
    leads (.busMasterEnable true) s fun t => t.hif = { s.hif with
      bme := true, msiWait := [] } ∧ t.out = s.out ++ s.hif.msiWait.map .msix ∧ steady s t ∧ t.evq = s.evq ∧
      onlyFields [] s t) ∧
  (∀ s : State, (∀ v ∈ s.hif.msiWait, v < 64) → leads (.busMasterEnable true) s fun t => t.hif.bme = true ∧
    t.hif.msiWait = [] ∧ t.hif.rings = s.hif.rings ∧ t.hif.held = s.hif.held ∧
    t.out = s.out ++ (s.hif.msiWait.filter fun v => !(s.msixWord (0x800 + 16 * v + 12)).getLsbD 0).map .msix ∧
    (∀ v ∈ s.hif.msiWait, (s.msixWord (0x800 + 16 * v + 12)).getLsbD 0 = true →
      (t.msixWord (0xC00 + 4 * (v / 32))).getLsbD (v % 32) = true) ∧ steady s t ∧ t.evq = s.evq ∧ onlyFields [] s t)

/-- MGT_LOCKSTEP, PAIR_RESTART_COMPLETE, MGT_WDT_ENABLE, WDT_KICK, MGT_WDT and MGT_SRAM_SCRUB (R515, R518 to R521). That REMAP
units are lost at a restart of either pair, and what a wrong key does, are this model's readings (log 30). -/
def Obligations.PairsRestart : Prop :=
  (∀ (p : Nat) (pc : DWord) (s : State), 1 < p ∨ (s.pair p).held = true ∨ (s.pair p).restarting = true ∨
    (s.pair p).halted = true → exec (.mgtLockstep p pc) s = .next s) ∧
  (∀ (p : Nat) (pc : DWord) (held : Bool) (s : State), p < 2 → (s.pair p).held = false → (s.pair p).restarting = false →
    (s.pair p).halted = false →
      held = (match (s.pair p).lastLock with | some u => decide (s.now < u + 1000000000) | none => false) →
    leads (.mgtLockstep p pc) s fun t =>
      t.pair p = { s.pair p with
        lastLock := some s.now, waitM := false, lr := none, expired := false, kickLeft := none, restarting := !held,
        held := held } ∧
      (∀ q, q ≠ p → t.pair q = s.pair q) ∧ t.fget F.MGT_STAT_RCAUSE = 1 ∧ counted F.MGT_STAT_RESTARTS s t ∧
      t.fget F.MGT_STAT_CTL_HELD = (if p = 0 ∧ held = true then 1 else s.fget F.MGT_STAT_CTL_HELD) ∧
      t.fget F.MGT_STAT_SEC_HELD = (if p = 1 ∧ held = true then 1 else s.fget F.MGT_STAT_SEC_HELD) ∧
      t.mgt.remap = false ∧ t.fget F.MGT_STAT_REMAP = 0 ∧ t.fget F.MGT_EVT_LOCKSTEP = 1 ∧
      (s.fbit (evten F.MGT_EVT_LOCKSTEP) = true → t.evq.getLast? = some
        { src := 2, code := 1, payload := [p] ++ w64 pc.toNat ++ [held.toNat], step := s.seq.step, time := s.ptime }) ∧
      (p = 0 → t.fget F.MGT_SVC_GO = 0 ∧ ∀ k, k < 4 → nbit (s.fget F.MGT_SVC_GO) k = true →
        fieldOf (kvGet 0#128 t.mgt.rsp (2 * k)) 0 32 = 4 * 2 ^ 24 + s.reqTag k * 2 ^ 16) ∧
      (p = 1 → t.dbg.keyx = none ∧ t.fget F.MGT_SVC_GO = s.fget F.MGT_SVC_GO) ∧ t.flash = s.flash ∧ steady s t) ∧
  (∀ (p : Nat) (s : State), 1 < p ∨ (s.pair p).held = true ∨ (s.pair p).restarting = false →
    exec (.pairRestartComplete p) s = .next s) ∧
  (∀ (p at_ : Nat) (s : State), p < 2 → (s.pair p).held = false → (s.pair p).restarting = true → (s.pair 0).held = false →
    s.mgt.revert = none → at_ = s.mgt.logPos → at_ % 1024 ≠ 0 → leads (.pairRestartComplete p) s fun t =>
      t.pair p = { s.pair p with
        restarting := false, priv := 3
        pc := BitVec.ofNat 64 ((if p = 0 then 0xB0000000 else 0x80180000) + (s.pair p).entry) } ∧
      (∀ q, q ≠ p → t.pair q = s.pair q) ∧ t.mgt.logSeq = s.mgt.logSeq + 1 ∧ t.mgt.logPos = (at_ + 1) % 8192 ∧
      t.flashRead (0x80000 + 64 * at_ + 8) 1 = [8] ∧
      (∀ o, o < 0x80000 + 64 * at_ ∨ 0x80000 + 64 * at_ + 64 ≤ o → t.flashGet o = s.flashGet o) ∧ steady s t ∧
      t.evq = s.evq ∧ onlyFields [] s t) ∧
  (∀ (p : Nat) (s : State), p < 2 → (s.pair p).held = false → (s.pair p).restarting = true → (s.pair 0).held = true →
    leads (.pairRestartComplete p) s fun t =>
      t.pair p = { s.pair p with
        restarting := false, priv := 3
        pc := BitVec.ofNat 64 ((if p = 0 then 0xB0000000 else 0x80180000) + (s.pair p).entry) } ∧
      (∀ q, q ≠ p → t.pair q = s.pair q) ∧ t.flash = s.flash ∧ t.mgt.logPos = s.mgt.logPos ∧ steady s t ∧ t.evq = s.evq ∧
      onlyFields [] s t) ∧
  (∀ (p at_ : Nat) (s : State), p < 2 → (s.pair p).held = false → (s.pair p).restarting = true → (s.pair 0).held = false →
    s.mgt.revert = none → at_ = s.mgt.logPos → at_ < 8192 → at_ % 1024 = 0 → leads (.pairRestartComplete p) s fun t =>
      t.pair p = { s.pair p with
        restarting := false, priv := 3
        pc := BitVec.ofNat 64 ((if p = 0 then 0xB0000000 else 0x80180000) + (s.pair p).entry) } ∧
      (∀ q, q ≠ p → t.pair q = s.pair q) ∧
      (∀ o, o < 0x80000 ∨ 0x100000 ≤ o → t.flashGet o = s.flashGet o) ∧ steady s t ∧
      t.evq = s.evq ∧ onlyFields [] s t) ∧
  (∀ (slot : Nat) (s : State), (s.pair 0).held = false → (s.pair 0).restarting = true → s.mgt.revert = some slot →
    leads (.pairRestartComplete 0) s fun t => t.mgt.revert = none ∧ (t.pair 0).restarting = false ∧ (t.pair 0).priv = 3 ∧
      (t.pair 0).pc = BitVec.ofNat 64 (0xB0000000 + (s.pair 0).entry) ∧ t.seq = s.seq ∧ t.clauses = s.clauses) ∧
  (∀ (p : Nat) (timeout : BitVec 24) (s : State), p < 2 → leads (.mgtWdtEnable p timeout) s fun t =>
    t.fget (F.MGT_WDT_EN p) = 1 ∧ t.fget (F.MGT_WDT_TIMEOUT p) = timeout.toNat ∧ t.mgt = s.mgt ∧ steady s t ∧ t.evq = s.evq ∧
    onlyFields [F.MGT_WDT_EN p, F.MGT_WDT_TIMEOUT p] s t) ∧
  (∀ (p : Nat) (s : State), leads (.wdtKick p 0xC35A#16) s fun t => t.pair p = { s.pair p with
      kickLeft := some 1024 } ∧ (∀ q, q ≠ p → t.pair q = s.pair q) ∧ steady s t ∧ t.evq = s.evq ∧ onlyFields [] s t) ∧
  (∀ (p : Nat) (s : State), (s.pair p).kickLeft ≠ none → leads (.wdtKick p 0x3CA5#16) s fun t => t.pair p = { s.pair p with
      kickLeft := none, expired := false } ∧ (∀ q, q ≠ p → t.pair q = s.pair q) ∧ steady s t ∧ t.evq = s.evq ∧
      onlyFields [] s t) ∧
  (∀ (p : Nat) (key : BitVec 16) (s : State), key ≠ 0xC35A#16 → key ≠ 0x3CA5#16 ∨ (s.pair p).kickLeft = none →
    exec (.wdtKick p key) s = .next s) ∧
  (∀ (p : Nat) (s : State), 1 < p ∨ s.fbit (F.MGT_WDT_EN p) = false ∨ (s.pair p).halted = true ∨ (s.pair p).held = true ∨
    (s.pair p).restarting = true → exec (.mgtWdt p) s = .next s) ∧
  (∀ (p : Nat) (s : State), p < 2 → s.fbit (F.MGT_WDT_EN p) = true → (s.pair p).halted = false → (s.pair p).held = false →
    (s.pair p).restarting = false → leads (.mgtWdt p) s fun t =>
      (if (s.pair p).expired = true then
        (t.pair p).restarting = true ∧ (t.pair p).expired = false ∧ t.fget F.MGT_STAT_RCAUSE = 2 ∧
        counted F.MGT_STAT_RESTARTS s t ∧ t.fget F.MGT_EVT_WDT = 1 ∧
        (s.fbit (evten F.MGT_EVT_WDT) = true → t.evq.getLast? = some
          { src := 2, code := 2, payload := [p, 1], step := s.seq.step, time := s.ptime })
      else
        t.pair p = { s.pair p with expired := true } ∧ posted F.MGT_EVT_WDT 2 2 [p, 0] s t ∧ t.out = s.out ++ [.irq p 2] ∧
        onlyFields [F.MGT_EVT_WDT] s t) ∧
      (∀ q, q ≠ p → t.pair q = s.pair q) ∧ t.flash = s.flash ∧ steady s t) ∧
  (∀ (a : Nat) (ue : Bool) (s : State), (isCtlSram a = false ∧ isSecSram a = false) ∨
    (ue = false ∧ kvGet false s.mgt.bad (a / 8) = false) → exec (.mgtSramScrub a ue) s = .next s) ∧
  (∀ (a : Nat) (ue : Bool) (s : State), isCtlSram a = true ∨ isSecSram a = true →
    ue = true ∨ kvGet false s.mgt.bad (a / 8) = true → leads (.mgtSramScrub a ue) s fun t =>
      kvGet false t.mgt.bad (a / 8) = true ∧ (∀ w, w ≠ a / 8 → kvGet false t.mgt.bad w = kvGet false s.mgt.bad w) ∧
      (∃ master, posted F.MGT_EVT_SRAM_UE 2 5 (w64 (8 * (a / 8)) ++ [master]) s t) ∧ t.flash = s.flash ∧ steady s t ∧
      onlyFields [F.MGT_EVT_SRAM_UE] s t)

/-- PROGRAM, ERASE4K, ERASE64K, FLASH_CMD_COMPLETE, MGT_FP_APPLY, CODEBASE_WRITE, SWAP_OK and SWAP_TIMEOUT (R517, R524 to R526,
R528, R531 to R535). The order in which BUSY, PROT and ALIGN are told is this model's reading (log 31). -/
def Obligations.FlashAndSwap : Prop :=
  (∀ (req : Requester) (w : Word) (off : Nat) (c : Instr) (s : State), req ≠ .control true →
    (off = 0x200048 ∧ c ∈ [.program req, .erase4k req, .erase64k req]) ∨ (off = 0x200020 ∧ c = .codebaseWrite req w) →
    leads c s fun t => t.flash = s.flash ∧ t.mgt = s.mgt ∧ steady s t ∧
      (if req = .hif then counted F.HIF_CNT_PWERR_COUNT s t ∧ posted F.HIF_EVT_PWERR 3 4 ([0] ++ w64 off ++ [6]) s t ∧
          t.out = s.out ∧ onlyFields [F.HIF_CNT_PWERR_COUNT, F.HIF_EVT_PWERR] s t
        else t.out = s.out ++ [.status 6] ∧ t.evq = s.evq ∧ onlyFields [] s t)) ∧
  (∀ (op : Nat) (c : Instr) (s : State),
    (op, c) ∈ [(1, .program (.control true)), (2, .erase4k (.control true)), (3, .erase64k (.control true))] →
    leads c s fun t =>
      (if s.mgt.flash ≠ none then t.fget F.MGT_FLCMD_RESULT = 4 ∧ t.mgt = s.mgt ∧ onlyFields [F.MGT_FLCMD_RESULT] s t
        else if s.flashProt (flashRange op (s.fget F.MGT_FLADDR_ADDR)).1 (flashRange op (s.fget F.MGT_FLADDR_ADDR)).2 = true then
          t.fget F.MGT_FLCMD_RESULT = 1 ∧ t.mgt = s.mgt ∧ onlyFields [F.MGT_FLCMD_OP, F.MGT_FLCMD_RESULT] s t
        else if op = 1 ∧ (s.fget F.MGT_FLADDR_ADDR % 256 ≠ 0 ∨ s.fget F.MGT_FLSRC_OFF % 256 ≠ 0) then
          t.fget F.MGT_FLCMD_RESULT = 2 ∧ t.mgt = s.mgt ∧ onlyFields [F.MGT_FLCMD_OP, F.MGT_FLCMD_RESULT] s t
        else t.mgt = { s.mgt with
            flash := some (op, s.fget F.MGT_FLADDR_ADDR, s.fget F.MGT_FLSRC_OFF) } ∧ t.fget F.MGT_FLCMD_GO = 1 ∧
          t.fget F.MGT_FLCMD_OP = op ∧ onlyFields [F.MGT_FLCMD_OP, F.MGT_FLCMD_GO] s t) ∧
      t.flash = s.flash ∧ t.out = s.out ∧ t.evq = s.evq ∧ steady s t) ∧
  (∀ (ok : Bool) (s : State), s.mgt.flash = none → exec (.flashCmdComplete ok) s = .next s) ∧
  (∀ (op a off : Nat) (ok : Bool) (s : State), s.mgt.flash = some (op, a, off) → off + 256 ≤ 0x180000 →
    (∀ i, i < (flashRange op a).2 → isGolden ((flashRange op a).1 + i) = false) →
    leads (.flashCmdComplete ok) s fun t => t.mgt = { s.mgt with flash := none } ∧ t.fget F.MGT_FLCMD_GO = 0 ∧
      t.fget F.MGT_FLCMD_RESULT = (if ok then 0 else 3) ∧
      (ok = true → op = 1 → t.flashRead (flashRange op a).1 256 = s.bytes (0x80000000 + off) 256) ∧
      (ok = true → op ≠ 1 → ∀ o, (flashRange op a).1 ≤ o → o < (flashRange op a).1 + (flashRange op a).2 →
        t.flashGet o = 0xFF#8) ∧
      (∀ o, o < (flashRange op a).1 ∨ (flashRange op a).1 + (flashRange op a).2 ≤ o → t.flashGet o = s.flashGet o) ∧
      steady s t ∧ t.evq = s.evq ∧ onlyFields [F.MGT_FLCMD_GO, F.MGT_FLCMD_RESULT] s t) ∧
  (∀ s : State, s.mgt.perm = true → leads .mgtFpApply s fun t => t.mgt = { s.mgt with perm := false } ∧
    t.fget F.MGT_FPCTL_RESULT = 1 ∧ steady s t ∧ t.evq = s.evq ∧ onlyFields [F.MGT_FPCTL_RESULT] s t) ∧
  (∀ s : State, s.mgt.perm = false → leads .mgtFpApply s fun t => (∀ u, u < 16 → kvGet none t.mgt.fpa u = some (s.fpStaged u)) ∧
    t.fbit F.MGT_STAT_REMAP = t.mgt.remap ∧ t.fget F.MGT_FPCTL_RESULT = 0 ∧ t.mgt.fpd = s.mgt.fpd ∧ steady s t ∧
    t.evq = s.evq ∧ onlyFields [F.MGT_STAT_REMAP, F.MGT_FPCTL_RESULT] s t) ∧
  (∀ (w : Word) (c : List Byte) (s : State), s.rsvChanged 0x200020 w = false → c = s.firmwareAt (fieldOf w 4 24 * 16) →
    leads (.codebaseWrite (.control true) w) s fun t =>
      t.fget F.MGT_CODEBASE_SECBASE = fieldOf w 4 24 ∧ t.fget F.MGT_STAT_SWAP_BUSY = 1 ∧
      (∃ k gen, (∀ n, slotOf (fieldOf w 4 24 * 16) = some n → k = n) ∧
        t.mgt.swap = some { secbase := s.fget F.MGT_CODEBASE_SECBASE, entry := (s.pair 0).entry, fwver := (s.pair 0).fwver,
                            dig := (s.pair 0).dig, old := (s.pair 0).from_, new := k, gen := gen } ∧
        t.pair 0 = { s.pair 0 with
          priv := 3, pc := BitVec.ofNat 64 (0xB0000000 + fwEntry c), lr := none, entry := fwEntry c, fwver := fwVer c
          dig := Config.sm3 c, from_ := k }) ∧
      (∀ q, q ≠ 0 → t.pair q = s.pair q) ∧ t.flash = s.flash ∧ t.out = s.out ∧ steady s t ∧ t.evq = s.evq ∧
      onlyFields [F.MGT_CODEBASE_SECBASE, F.MGT_STAT_SWAP_BUSY] s t) ∧
  (∀ s : State, s.mgt.swap = none → exec .swapOk s = .next s ∧ exec .swapTimeout s = .next s) ∧
  (∀ (w : Swap) (s : State), s.mgt.swap = some w → w.new < 4 → w.gen < 2 ^ 16 → leads .swapOk s fun t =>
    t.mgt.swap = none ∧ t.fget F.MGT_STAT_SWAP_BUSY = 0 ∧ t.fget F.MGT_SWAPCTL_RESULT = 0 ∧ t.fget F.SCH_BOOT_SRC = w.new ∧
    t.fget F.SCH_BOOT_GEN = w.gen ∧ t.fget F.MGT_EVT_SWAP = 1 ∧
    (s.mgt.taken = 0 → posted F.MGT_EVT_SWAP 2 3 [0, w.old, w.new, w.gen] s t) ∧
    (∀ k, k < 4 → nbit s.mgt.taken k = true → s.reqCode k = 3 → nbit (t.fget F.MGT_SVC_GO) k = false) ∧
    t.mgt.pairs = s.mgt.pairs ∧ t.flash = s.flash ∧ steady s t) ∧
  (∀ (w : Swap) (s : State), s.mgt.swap = some w → w.secbase < 2 ^ 24 → leads .swapTimeout s fun t =>
    t.mgt.swap = none ∧ t.mgt.revert = some w.old ∧ t.fget F.MGT_STAT_SWAP_BUSY = 0 ∧ t.fget F.MGT_SWAPCTL_RESULT = 1 ∧
    t.fget F.MGT_CODEBASE_SECBASE = w.secbase ∧ t.fget F.MGT_STAT_RCAUSE = 3 ∧ counted F.MGT_STAT_RESTARTS s t ∧
    t.fget F.MGT_EVT_SWAP = 1 ∧ (t.pair 0).restarting = true ∧ (t.pair 0).entry = w.entry ∧ (t.pair 0).from_ = w.old ∧
    (∀ q, q ≠ 0 → t.pair q = s.pair q) ∧ t.flash = s.flash ∧ steady s t)

/-- INFO, LOAD, LOG_READ, ATTEST, PATCH_SET and RESTORE, and what all nine services share (R293, R527, R528, R548, R597 to
R600). The class that a LOAD_CLASS of a busy loader names and LDEV of a report without an image are free values (log 4); a patch set of
an unknown number answered STATE before BUSY is told is this model's reading (log 32). -/
def Obligations.ServicesAnswered : Prop :=
  (∀ (slot code mask : Nat) (pl fw hf nonce : List Byte) (crc wr : Bool) (host : Option Ckpt) (c : Instr) (s : State),
    (code, mask, c) ∈ [(1, 6, .load slot pl), (2, 2, .fwUpdate slot fw), (3, 0, .fwSwap slot), (4, 2, .fwHotfix slot hf),
      (5, 9, .patchSet slot), (6, 2, .logRead slot), (7, 0, .info slot), (8, 2, .restore slot crc wr host),
      (9, 6, .attest slot nonce)] →
    (s.svcDue slot code = false ∨ s.svcFree slot = false → exec c s = .next s) ∧
    (s.svcDue slot code = true → s.svcFree slot = true → s.fget F.SCH_BOOT_SRC = 3 → code ≠ 1 → code ≠ 7 → leads c s fun t =>
      answered slot 1 0 [] s t ∧ steady s t ∧ onlyFields [F.MGT_SVC_GO, F.MGT_EVT_SVC] s t) ∧
    (s.svcDue slot code = true → s.svcFree slot = true → s.fget F.SCH_BOOT_SRC ≠ 3 → s.badArg slot mask = true →
      leads c s fun t =>
      answered slot 2 0 [] s t ∧ steady s t ∧ onlyFields [F.MGT_SVC_GO, F.MGT_EVT_SVC] s t)) ∧
  (∀ (slot : Nat) (s : State), s.svcDue slot 7 = true → s.svcFree slot = true → s.badArg slot 0 = false →
    leads (.info slot) s fun t =>
    answered slot 0 0 [(s.pair 0).fwver % 65536 + (s.pair 1).fwver % 65536 * 65536,
      s.fget F.SCH_BOOT_SRC + s.fget F.SCH_BOOT_GEN * 65536, s.fget F.MGT_STAT_RESTARTS] s t ∧ steady s t ∧
    onlyFields [F.MGT_SVC_GO, F.MGT_EVT_SVC] s t) ∧
  (∀ (slot : Nat) (pl : List Byte) (s : State), s.svcDue slot 1 = true → s.svcFree slot = true → s.badArg slot 6 = false →
    s.load.job ≠ none →
    leads (.load slot pl) s fun t => answered slot 3 0x1A [] s t ∧ t.load = s.load ∧ steady s t ∧
      onlyFields [F.MGT_SVC_GO, F.MGT_EVT_SVC, F.SCH_LDEVT_CLASS] s t) ∧
  (∀ (slot : Nat) (pl : List Byte) (s : State), s.svcDue slot 1 = true → s.svcFree slot = true → s.badArg slot 6 = false →
    s.load.job = none →
    isUser (s.reqAddr2 slot) = false → leads (.load slot pl) s fun t =>
      t.load = { s.load with
        job := some {
          boot := none, slot := slot, addr := s.reqAddr slot
          placement := if s.reqLen2 slot = 0 then none
            else some ((pl ++ List.replicate (s.reqLen2 slot - pl.length) 0#8).take (s.reqLen2 slot)) } } ∧
      t.out = s.out ++ (if s.reqLen2 slot = 0 then []
        else [.hostRead ((s.hostXlate (s.reqAddr2 slot)).getD 0) (s.reqLen2 slot)]) ∧
      t.fget F.SCH_LOAD_BUSY = 1 ∧ nbit t.mgt.taken slot = true ∧ nbit (t.fget F.MGT_SVC_GO) slot = true ∧ steady s t ∧
      t.evq = s.evq ∧ onlyFields [F.SCH_LOAD_BUSY] s t) ∧
  (∀ (slot a n : Nat) (pl : List Byte) (s : State), s.svcDue slot 1 = true → s.svcFree slot = true → s.badArg slot 6 = false →
    s.load.job = none → a = s.reqAddr2 slot → n = s.reqLen2 slot → 0 < n → isHbm a = true → isHbm (a + n - 1) = true →
    s.umem.bad = [] → leads (.load slot pl) s fun t =>
      t.load = { s.load with
        job := some { boot := none, slot := slot, addr := s.reqAddr slot, placement := some (s.bytes a n) } } ∧
      t.out = s.out ∧ t.fget F.SCH_LOAD_BUSY = 1 ∧ nbit t.mgt.taken slot = true ∧ steady s t ∧ t.evq = s.evq ∧
      onlyFields [F.SCH_LOAD_BUSY] s t) ∧
  (∀ (slot a n : Nat) (s : State), s.svcDue slot 6 = true → s.svcFree slot = true → s.fget F.SCH_BOOT_SRC ≠ 3 →
    s.badArg slot 2 = false →
    a = s.reqAddr slot → n = 64 * min s.logRecs.length (s.reqLen slot / 64) → isHbm a = true →
    isHbm (a + s.reqLen slot - 1) = true → s.umem.bad = [] → s.umem.hbmRet = [] →
    (∀ p ∈ packetsOf a n, s.busRefusal .control true p.1 p.2 = none) → leads (.logRead slot) s fun t =>
      answered slot 0 0 [n] s t ∧ t.bytes a n = (s.logRecs.flatten).take n ∧
      (∀ x, x < a ∨ a + n ≤ x → memGet t.mem x = memGet s.mem x) ∧ t.flash = s.flash ∧ t.seq = s.seq ∧
      t.clauses = s.clauses ∧ onlyFields [F.MGT_SVC_GO, F.MGT_EVT_SVC] s t) ∧
  (∀ (slot : Nat) (nonce : List Byte) (s : State), (s.pair 1).halted = true ∨ (s.pair 1).held = true ∨
    (s.pair 1).restarting = true → s.svcDue slot 9 = true → s.svcFree slot = true → s.fget F.SCH_BOOT_SRC ≠ 3 →
      s.badArg slot 6 = false →
    384 ≤ s.reqLen slot → s.reqLen2 slot = 32 → exec (.attest slot nonce) s = .next s) ∧
  (∀ (slot a : Nat) (nonce nb : List Byte) (s : State), s.svcDue slot 9 = true → s.svcFree slot = true →
    s.fget F.SCH_BOOT_SRC ≠ 3 →
    s.badArg slot 6 = false → 384 ≤ s.reqLen slot → s.reqLen2 slot = 32 → (s.pair 1).halted = false →
    (s.pair 1).held = false → (s.pair 1).restarting = false →
    ((isHost (s.reqAddr2 slot) = true ∧ nonce.length = 32 ∧ nb = nonce) ∨
      (isHbm (s.reqAddr2 slot) = true ∧ isHbm (s.reqAddr2 slot + 31) = true ∧ nb = s.bytes (s.reqAddr2 slot) 32)) →
    a = s.reqAddr slot →
    isHbm a = true → isHbm (a + s.reqLen slot - 1) = true → s.umem.bad = [] → s.umem.hbmRet = [] →
    (∀ p ∈ packetsOf a 384, s.busRefusal .security true p.1 p.2 = none) → leads (.attest slot nonce) s fun t =>
      answered slot 0 0 [384] s t ∧ (∃ ldev, t.bytes a 320 = s.report nb ldev) ∧
      t.bytes (a + 320) 64 = (Config.sm2Sign s.devSeed (t.bytes a 320) ++ List.replicate 64 0#8).take 64 ∧
      (∀ x, x < a ∨ a + 384 ≤ x → memGet t.mem x = memGet s.mem x) ∧ t.seq = s.seq ∧ t.clauses = s.clauses ∧
      onlyFields [F.MGT_SVC_GO, F.MGT_EVT_SVC] s t) ∧
  (∀ (slot : Nat) (known : Bool) (s : State), s.svcDue slot 5 = true → s.svcFree slot = true → s.fget F.SCH_BOOT_SRC ≠ 3 →
    s.badArg slot 9 = false →
    s.reqArg1 slot ≤ 1 →
    known = (match s.load.img with
      | none => false
      | some g => (patchRecs g.patches).any fun r => r.set == s.reqArg0 slot && r.flags == 0) →
    leads (.patchSet slot) s fun t =>
      (if known = false ∨ ((s.load.sets.any fun e => e.2 == s.reqArg0 slot) ≠ (s.reqArg1 slot == 1)) ∨ s.mgt.patch ≠ none then
        answered slot 5 0 [] s t ∧ t.sch = s.sch ∧ t.load = s.load ∧ onlyFields [F.MGT_SVC_GO, F.MGT_EVT_SVC] s t
      else if s.sch.patch ≠ none then
        answered slot 3 6 [4] s t ∧ t.fget F.SCH_PATCH_RESULT = 4 ∧ t.sch = s.sch ∧ t.load = s.load
      else if s.stepping = false ∧ s.atPhase0 = true ∧ s.migRuns = false then
        t.sch.patch = none ∧ t.mgt.patch = none ∧ (∃ st ev d, answered slot st ev d s t)
      else if s.reqArg1 slot = 1 then
        t.mgt.patch = some (slot, s.reqArg0 slot, true) ∧ nbit t.mgt.taken slot = true ∧ t.fget F.SCH_PATCH_APPLY = 1 ∧
        (∀ e ∈ s.load.sets, e.2 = s.reqArg0 slot → e.1 < 64 → t.fget (F.SCH_PU_MODE e.1) = 0) ∧ t.load = s.load
      else answered slot 5 0 [] s t ∨
        (t.mgt.patch = some (slot, s.reqArg0 slot, false) ∧ nbit t.mgt.taken slot = true ∧ t.fget F.SCH_PATCH_APPLY = 1)) ∧
      t.seq = s.seq ∧ t.mem = s.mem ∧ t.fab = s.fab ∧ t.links = s.links ∧ t.rim = s.rim ∧
      (s.stepping = true ∨ s.atPhase0 = false ∨ s.migRuns = true → t.clauses = s.clauses)) ∧
  (∀ (slot : Nat) (crc wr : Bool) (host : Option Ckpt) (s : State), s.svcDue slot 8 = true → s.svcFree slot = true →
    s.fget F.SCH_BOOT_SRC ≠ 3 →
    s.badArg slot 2 = false → s.load.img = none ∨ (s.seq.st ≠ .ready ∧ s.seq.st ≠ .stopped) →
    leads (.restore slot crc wr host) s fun t => answered slot 5 0 [1] s t ∧ steady s t ∧
      onlyFields [F.MGT_SVC_GO, F.MGT_EVT_SVC] s t) ∧
  (∀ (slot : Nat) (crc wr : Bool) (host : Option Ckpt) (s : State), s.svcDue slot 8 = true → s.svcFree slot = true →
    s.fget F.SCH_BOOT_SRC ≠ 3 →
    s.badArg slot 2 = false → s.load.img ≠ none → s.seq.st = .ready ∨ s.seq.st = .stopped → s.umem.hbmRet = [] →
    s.sound = true → leads (.restore slot crc wr host) s fun t =>
      match s.ckptAt (s.reqAddr slot) host with
      | none => answered slot 3 0 [2] s t ∧ steady s t ∧ onlyFields [F.MGT_SVC_GO, F.MGT_EVT_SVC] s t
      | some c =>
        match s.restoreFault (s.reqAddr slot) (s.reqLen slot) crc c with
        | some e => answered slot 3 e.2 (e.1 :: w64 c.ucyc) s t ∧ steady s t ∧
          (e.1 = 4 → t.fget ⟨0x60006c, 9, 1, 0⟩ = 1) ∧ (e.1 = 7 → t.fget ⟨0x60006c, 7, 1, 0⟩ = 1) ∧
          onlyFields [F.MGT_SVC_GO, F.MGT_EVT_SVC, ⟨0x60006c, 9, 1, 0⟩, ⟨0x60006c, 7, 1, 0⟩] s t
        | none =>
          answered slot (if wr then 0 else 3) 0 ((if wr then 0 else 9) :: w64 c.ucyc) s t ∧ t.seq.st = .ready ∧
          t.seq.step = c.step ∧ t.seq.ucyc = c.ucyc ∧ t.seq.fence = none ∧ t.dbg.forces = [] ∧ t.flash = s.flash ∧
          (∀ k ∈ s.loadedClauses, (t.clause k).vs = kvSetAll s.dfl [] (kvGet [] c.vs k) ∧ (t.clause k).cq = []) ∧
          (wr = true → Memory.wf c.mem = true → ∀ x, isUser x = true →
            memGet t.mem x = if inRanges c.regions x then memGet c.mem x else memGet s.mem x))

/-- FW_UPDATE, FW_SWAP, FW_HOTFIX, BOOT_TIMEOUT and BOOT_OK (R320 to R326, R522, R525, R527, R597). That a hotfix of other content
than the running one is answered REFUSED with code 0, and what a failed check answers, are this model's readings (log 33). -/
def Obligations.FirmwareMoves : Prop :=
  (∀ (slot tgt : Nat) (stream b : List Byte) (s : State), s.svcDue slot 2 = true → s.svcFree slot = true →
    s.fget F.SCH_BOOT_SRC ≠ 3 → s.badArg slot 2 = false → tgt = s.updateSlot →
    ((isHost (s.reqAddr slot) = true ∧ stream.length = s.reqLen slot ∧ b = stream) ∨
      (isHbm (s.reqAddr slot) = true ∧ isHbm (s.reqAddr slot + s.reqLen slot - 1) = true ∧ s.umem.bad = [] ∧
        b = s.bytes (s.reqAddr slot) (s.reqLen slot))) →
    leads (.fwUpdate slot stream) s fun t => steady s t ∧
      match s.updateRefusal b with
      | .inr e => answered slot 3 e.1 [] s t ∧ t.flash = s.flash ∧
        (∀ h p r, streamHeader b = some h → b.length ≤ streamMax → hdrClass h = clsBoot → s.newestRec = some (p, r) →
          genNewer (hdrGen h) (r.gen r.boot) = false → e.1 = 0x19)
      | .inl _ => t.flashRead (slotBase tgt) b.length = b ∧
        (∀ o, 0x10000 ≤ o → o < slotBase tgt ∨ slotBase tgt + slotSize tgt ≤ o → t.flashGet o = s.flashGet o) ∧
        match s.bootCheck b with
        | .inr e => answered slot 3 e.1 [] s t
        | .inl _ => answered slot 0 0 [tgt] s t) ∧
  (∀ (slot : Nat) (s : State), s.svcDue slot 3 = true → s.svcFree slot = true → s.fget F.SCH_BOOT_SRC ≠ 3 →
    s.badArg slot 0 = false →
    (∃ k, k < 4 ∧ k ≠ slot ∧ nbit s.mgt.taken k = true) → exec (.fwSwap slot) s = .next s) ∧
  (∀ (slot : Nat) (s : State), s.svcDue slot 3 = true → s.svcFree slot = true → s.fget F.SCH_BOOT_SRC ≠ 3 →
    s.badArg slot 0 = false →
    (∀ k, k < 4 → k ≠ slot → nbit s.mgt.taken k = false) → leads (.fwSwap slot) s fun t =>
      t.flash = s.flash ∧ t.seq = s.seq ∧ t.clauses = s.clauses ∧
      match s.newestRec with
      | none => answered slot 5 0 [] s t ∧ t.mgt.pairs = s.mgt.pairs
      | some (_, r) =>
        if r.boot = (s.pair 0).from_ then answered slot 5 0 [] s t ∧ t.mgt.pairs = s.mgt.pairs
        else
          match s.bootCheck (s.slotBytes r.boot) with
          | .inr e => answered slot 3 e.1 [] s t ∧ t.mgt.pairs = s.mgt.pairs
          | .inl x => t.fget F.MGT_STAT_SWAP_BUSY = 1 ∧ nbit t.mgt.taken slot = true ∧ t.mgt.swap ≠ none ∧
            t.fget F.MGT_CODEBASE_SECBASE = (slotBase r.boot + 528 * x.fwFrame 0) / 16 % 2 ^ 24 ∧
            t.pair 1 = { s.pair 1 with
              halted := false, waitM := false, lr := none, priv := 3
              pc := BitVec.ofNat 64 (0x80180000 + fwEntry (x.firmware 1)), entry := fwEntry (x.firmware 1)
              fwver := fwVer (x.firmware 1), dig := Config.sm3 (x.firmware 1), from_ := r.boot } ∧
            t.dbg.keyx = none) ∧
  (∀ (slot : Nat) (stream b : List Byte) (s : State), s.svcDue slot 4 = true → s.svcFree slot = true →
    s.fget F.SCH_BOOT_SRC ≠ 3 → s.badArg slot 2 = false →
    ((isHost (s.reqAddr slot) = true ∧ stream.length = s.reqLen slot ∧ b = stream) ∨
      (isHbm (s.reqAddr slot) = true ∧ isHbm (s.reqAddr slot + s.reqLen slot - 1) = true ∧ s.umem.bad = [] ∧
        b = s.bytes (s.reqAddr slot) (s.reqLen slot))) →
    leads (.fwHotfix slot stream) s fun t => t.flash = s.flash ∧ t.mgt.pairs = s.mgt.pairs ∧ steady s t ∧
      match s.bootCheck b with
      | .inr e => answered slot 3 e.1 [] s t ∧ t.mgt.fpa = s.mgt.fpa
      | .inl x =>
        if fwHotfix (x.firmware 0) = false ∨ fwBasedig (x.firmware 0) ≠ (s.pair 0).dig.toNat then
          answered slot 3 0 [] s t ∧ t.mgt.fpa = s.mgt.fpa
        else answered slot 0 0 [] s t ∧ t.fget F.MGT_FPCTL_RESULT = 0 ∧ t.fbit F.MGT_STAT_REMAP = t.mgt.remap ∧
          ∀ k, k < fwNpatch (x.firmware 0) → fwNpatch (x.firmware 0) ≤ 16 →
            ∃ u, kvGet none t.mgt.fpa k = some u ∧ u.en = true ∧ u.brk = false) ∧
  (∀ s : State, (∀ b : Boot, s.mgt.boot = some b → 3 ≤ b.src) → exec .bootTimeout s = .next s) ∧
  (∀ (b : Boot) (s : State), s.mgt.boot = some b → b.src < 3 → leads .bootTimeout s fun t =>
    t.pair 0 = {} ∧ t.pair 1 = {} ∧ t.flash = s.flash ∧ steady s t ∧
    (if b.src < 2 then t.mgt.boot = some { b with src := 2 } ∧ t.fget F.SCH_BOOT_FAIL = 5 ∧ t.fget F.SCH_LOAD_BUSY = 1 ∧
        t.load.job = some { boot := some 2, slot := 4, addr := slotBase 2, placement := none }
      else t.mgt.boot = none ∧ t.load.job = none ∧ t.fget F.SCH_LOAD_BUSY = 0 ∧ t.fget F.SCH_BOOT_SRC = 3 ∧
        t.fget F.SCH_LDEVT_RECOVERY = 1 ∧
        (∀ n, b.tried = some n → s.fbit (evten F.SCH_LDEVT_RECOVERY) = true → t.evq.getLast? = some
          { src := 6, code := 0x21, payload := [n, 5], step := s.seq.step, time := s.ptime }))) ∧
  (∀ s : State, s.mgt.boot = none → leads .bootOk s fun t => t.fget F.SCH_BOOT_OK = 1 ∧ t.mgt = s.mgt ∧ steady s t ∧
    t.evq = s.evq ∧ onlyFields [F.SCH_BOOT_OK] s t) ∧
  (∀ s : State, s.mgt.boot ≠ none → s.load.job ≠ none → exec .bootOk s = .next s) ∧
  (∀ (b : Boot) (s : State), s.mgt.boot = some b → s.load.job = none → s.logRecs = [] → b.src < 4 → b.gen < 2 ^ 16 →
    leads .bootOk s fun t => t.mgt = { s.mgt with boot := none } ∧ t.fget F.SCH_BOOT_OK = 1 ∧ t.fget F.SCH_BOOT_SRC = b.src ∧
      t.fget F.SCH_BOOT_GEN = b.gen ∧ (b.src = 2 → t.fget F.SCH_LDEVT_GOLDEN = 1) ∧ t.fget F.PLT_EVT_RESET = 1 ∧
      (s.fbit (evten F.PLT_EVT_RESET) = true → t.evq.getLast? = some
        { src := 0, code := 10, payload := [s.fget F.PLT_RSTCAUSE_CAUSE, s.fget F.PLT_RSTCAUSE_COUNT], step := s.seq.step
          time := s.ptime }) ∧ steady s t ∧
      onlyFields [F.SCH_BOOT_OK, F.SCH_BOOT_SRC, F.SCH_BOOT_GEN, F.SCH_LDEVT_GOLDEN, F.PLT_EVT_RESET] s t) ∧
  (∀ (b : Boot) (r : List Byte) (s : State), s.mgt.boot = some b → s.load.job = none → s.logRecs = [r] → leAt r 8 1 = 3 →
    leAt r 9 1 = 0 → leads .bootOk s fun t => t.mgt = { s.mgt with boot := none } ∧
      t.conn (leAt r 10 2) = { s.conn (leAt r 10 2) with spare := some (leAt r 12 4) } ∧
      (∀ k, k ≠ leAt r 10 2 → t.conn k = s.conn k) ∧ steady s t)

/-- FRAME_RECEIVE, LOAD_BEGIN and RELOAD_BOUNDARY_HOLD (R296 to R298, R307, R310, R311). That a DESIGN begins before its header is
checked is this model's reading (log 34). -/
def Obligations.FramesAreLoaded : Prop :=
  (∀ (bytes : List Byte) (ok : Bool) (s : State), s.load.job = none → exec (.frameReceive bytes ok) s = .next s) ∧
  (∀ (bytes : List Byte) (ok : Bool) (j : LoadJob) (s : State), s.load.job = some j →
    j.stage = .waiting ∨ j.stage = .links ∨ (j.stage = .sections ∧ s.reloadWaits j = true) →
    exec (.frameReceive bytes ok) s = .next s) ∧
  (∀ (bytes : List Byte) (ok : Bool) (j : LoadJob) (s : State), s.load.job = some j →
    (j.boot = none ∧ s.rangeHeld (j.addr + 528 * j.wire) 528 = true) ∨ (j.boot ≠ none ∧ 0 < s.mgt.flReset) →
    exec (.frameReceive bytes ok) s = .next s) ∧
  (∀ (bytes : List Byte) (ok : Bool) (j : LoadJob) (r : Option (List Byte)) (a : Nat) (s : State), s.load.job = some j →
    a = j.addr + 528 * j.wire →
    (j.boot = none ∧ isUser a = false ∧ s.rangeHeld a 528 = false ∧ r = (if ok then some bytes else none)) ∨
      (j.boot = none ∧ isHbm a = true ∧ isHbm (a + 527) = true ∧ s.rangeHeld a 528 = false ∧ s.umem.bad = [] ∧
        r = (if ok then some (s.bytes a 528) else none)) ∨
      (∃ src, j.boot = some src ∧ s.mgt.flReset = 0 ∧
        r = (if ok then some (s.flashRead (slotBase src + 528 * j.wire) 528) else none)) →
    j.stage = .header ∨ j.stage = .directory ∨ (j.stage = .sections ∧ s.reloadWaits j = false) →
    leads (.frameReceive bytes ok) s fun t =>
      let refused := fun c : Nat => t.fget F.SCH_LDEVT_FRAME = 1 ∧
        (j.boot = none → t.load.job = none ∧ t.fget F.SCH_LOAD_BUSY = 0 ∧ t.fget F.SCH_LOAD_RESULT = 0x13 ∧
          t.fget F.SCH_LOAD_REASON = c ∧
          (j.slot < 4 → nbit (s.fget F.MGT_SVC_GO) j.slot = true → answered j.slot 3 0x13 [] s t))
      match r.bind frameOf with
      | none =>
        if j.attempt < 4 then
          t.load.job = some { j with attempt := j.attempt + 1, bad := j.bad + 1 } ∧
          posted F.SCH_LDEVT_FRAME_BAD 6 0x12 ([j.expect.sect] ++ w64 j.expect.addr ++ [j.attempt]) s t ∧ steady s t ∧
          onlyFields [F.SCH_LDEVT_FRAME_BAD] s t
        else refused 1
      | some f =>
        match frameFault j.expect f with
        | some c => refused c
        | none =>
          (j.stage = .header → hdrClass f.payload = 2 ∨ hdrClass f.payload = 3 →
            t.load.job = some { j with hdr := f.payload, wire := j.wire + 1, attempt := 1, stage := .waiting } ∧
            t.fget F.SCH_LOAD_CLASS = hdrClass f.payload ∧ steady s t ∧ t.evq = s.evq ∧ onlyFields [F.SCH_LOAD_CLASS] s t) ∧
          (j.stage = .directory → j.expect.isLast f = false →
            t.load.job = some { j with
              content := j.content ++ f.content, wire := j.wire + 1, attempt := 1, frame := j.frame + 1
              next := f.addr + f.rep } ∧ steady s t ∧ t.evq = s.evq ∧ onlyFields [] s t) ∧
          (∀ e, j.stage = .sections → j.dir[j.sec]? = some e → e.ldev ≠ j.own → j.expect.isLast f = false →
            t.load.job = some { j with
              wire := j.wire + 1, attempt := 1, frame := j.frame + 1, next := f.addr + f.rep } ∧ steady s t ∧ t.evq = s.evq ∧
            onlyFields [] s t) ∧
          (∀ e, j.stage = .sections → j.dir[j.sec]? = some e → e.ldev = j.own → e.enc = false → e.ty ≠ tyRimbase →
            e.ty ≠ tyRimpart → j.expect.isLast f = false →
            t.load.job = some { j with
              wire := j.wire + 1, attempt := 1, frame := j.frame + 1, next := f.addr + f.rep
              key := if j.frame = 0 then [] else j.key, hashIn := j.hashIn ++ f.hashed, content := j.content ++ f.content } ∧
            t.seq = s.seq ∧ t.mem = s.mem ∧ t.evq = s.evq ∧ onlyFields [] s t ∧
            (s.sliceOf j e = none → t.clauses = s.clauses) ∧
            (∀ g pc, s.sliceOf j e = some (g, pc) → (∀ c, c ≠ pc → t.clause c = s.clause c) ∧
              (j.frame = 0 → (t.clause pc).loaded = false ∧ (t.clause pc).passed = false)))) ∧
  (∀ s : State, s.load.job = none → exec .loadBegin s = .next s ∧ exec .reloadBoundaryHold s = .next s) ∧
  (∀ (j : LoadJob) (s : State), s.load.job = some j →
    j.stage ≠ .waiting ∨ s.seq.ckpt ≠ none ∨ s.migRuns = true ∨ s.sch.patch ≠ none → exec .loadBegin s = .next s) ∧
  (∀ (j : LoadJob) (s : State), s.load.job = some j → j.stage = .waiting → s.seq.ckpt = none → s.migRuns = false →
    s.sch.patch = none → j.cls = clsDesign → leads .loadBegin s fun t =>
      t.seq.st = .idle ∧ t.load.img = none ∧ t.load.sets = [] ∧ t.sec.keys = [] ∧ t.sec.tokens = s.sec.tokens ∧
      (∀ c, c < 64 → (t.clause c).loaded = false ∧ (t.clause c).iso = false ∧ (t.clause c).vs = [] ∧
        (t.clause c).words = (s.clause c).words) ∧
      (∀ l, l < 32 → (t.link l).st ≠ .active ∧ (t.link l).released = false ∧ (t.link l).slot.en = false) ∧
      (∀ u, u < 64 → t.fget (F.SCH_PU_MODE u) = 0 ∧ puMode (kvGet 0 t.sch.actA u) = 0)) ∧
  (∀ (j : LoadJob) (s : State), s.load.job = some j → j.stage = .waiting → s.seq.ckpt = none → s.migRuns = false →
    s.sch.patch = none → j.cls = clsReload → j.boot = none → leads .loadBegin s fun t => t.seq = s.seq ∧ t.mem = s.mem ∧
      match s.headerFault j with
      | none => t.load.job = some { j with stage := .directory, frame := 0, next := 0, content := [] } ∧
        t.load.info.take 2 = [hdrGen j.hdr + 3 * 2 ^ 16 + hdrVmode j.hdr % 2 * 2 ^ 20 + hdrDepth j.hdr / 64 % 64 * 2 ^ 21,
          hdrNdev j.hdr] ∧ steady s t ∧ t.evq = s.evq ∧ onlyFields [] s t
      | some r => t.load.job = none ∧ t.fget F.SCH_LOAD_BUSY = 0 ∧ t.fget F.SCH_LOAD_RESULT = (0x10 + r.k) % 256) ∧
  (∀ (j : LoadJob) (s : State), s.load.job = some j → j.stage ≠ .sections ∨ s.reloadWaits j = false ∨ s.migRuns = true ∨
    (j.due = false ∧ (s.stepping = true ∨ s.atPhase0 = false)) → exec .reloadBoundaryHold s = .next s) ∧
  (∀ (j : LoadJob) (s : State), s.load.job = some j → j.stage = .sections → s.reloadWaits j = true → s.migRuns = false →
    j.due = true ∨ (s.stepping = false ∧ s.atPhase0 = true) → leads .reloadBoundaryHold s fun t =>
      t.load = { s.load with job := some { j with due := true, holding := true } } ∧ steady s t ∧ t.evq = s.evq ∧
      onlyFields [] s t)

/-- TOKEN_LOAD, TOKEN_UNLOAD and FUSE_PROGRAM (R537, R543, R544, R550). The signature check and the decryption of a token are open
functions (log 5); the partition that an empty slot reports and which bits a failed programming leaves are free values (log 4). -/
def Obligations.TokensAndFuses : Prop :=
  (∀ (slot : Nat) (s : State), slot < 16 → leads (.tokenLoad slot) s fun t =>
    (match s.tokenCheck slot with
      | .inl x => t.token slot = some x ∧ x.part = leAt s.tokenBytes 4 4 ∧ leAt s.tokenBytes 8 8 = s.serial ∧
        s.epochCount ≤ x.epoch ∧ (∀ k, k < 16 → k ≠ slot → ∀ y, s.token k = some y → y.part ≠ x.part) ∧
        t.fget F.SEC_TOKCTL_RESULT = 0 ∧ posted F.SEC_EVT_TOKEN 1 1 [slot, x.part, 0, 0] s t
      | .inr r => t.sec = s.sec ∧ t.fget F.SEC_TOKCTL_RESULT = r ∧
        posted F.SEC_EVT_TOKEN 1 1 [slot, leAt s.tokenBytes 4 4, 2, r] s t) ∧
    (leAt s.tokenBytes 0 4 ≠ 0x544B4B49 → t.sec = s.sec ∧ t.fget F.SEC_TOKCTL_RESULT = 1) ∧
    (∀ k, k ≠ slot → t.token k = s.token k) ∧ t.fget F.SEC_TOKCTL_SLOT = slot ∧ steady s t ∧
    onlyFields [F.SEC_TOKCTL_SLOT, F.SEC_TOKCTL_RESULT, F.SEC_EVT_TOKEN] s t) ∧
  (∀ (slot : Nat) (x : Token) (s : State), slot < 16 → s.token slot = some x → leads (.tokenUnload slot) s fun t =>
    t.token slot = none ∧ (∀ k, k ≠ slot → t.token k = s.token k) ∧ t.fget F.SEC_TOKCTL_RESULT = 0 ∧
    t.fget F.SEC_TOKCTL_SLOT = slot ∧ posted F.SEC_EVT_TOKEN 1 1 [slot, x.part, 1, 0] s t ∧ steady s t ∧
    onlyFields [F.SEC_TOKCTL_SLOT, F.SEC_TOKCTL_RESULT, F.SEC_EVT_TOKEN] s t) ∧
  (∀ (slot : Nat) (s : State), slot < 16 → s.token slot = none → leads (.tokenUnload slot) s fun t => t.sec = s.sec ∧
    t.fget F.SEC_TOKCTL_RESULT = 6 ∧ t.fget F.SEC_TOKCTL_SLOT = slot ∧
    (∃ part, posted F.SEC_EVT_TOKEN 1 1 [slot, part, 2, 6] s t) ∧ steady s t ∧
    onlyFields [F.SEC_TOKCTL_SLOT, F.SEC_TOKCTL_RESULT, F.SEC_EVT_TOKEN] s t) ∧
  (∀ (req : Requester) (word : Nat) (ok : Bool) (s : State), s.fusePath req = none →
    exec (.fuseProgram req word ok) s = .next s) ∧
  (∀ (req : Requester) (word path : Nat) (ok : Bool) (s : State), word < 128 → s.fusePath req = some path →
    (∃ b, b < 32 ∧ nbit (s.fget F.SEC_FUSEDATA_DATA) b = true ∧ s.fuseLocked word b = true) →
    leads (.fuseProgram req word ok) s fun t => t.sec = s.sec ∧ t.fget F.SEC_FUSEPGM_RESULT = 1 ∧
      t.fget F.SEC_FUSEPGM_WORD = word ∧ posted F.SEC_EVT_FUSE 1 2 [word, 1, path] s t ∧ steady s t ∧
      onlyFields [F.SEC_FUSEPGM_WORD, F.SEC_FUSEPGM_RESULT, F.SEC_EVT_FUSE] s t) ∧
  (∀ (req : Requester) (word path : Nat) (ok : Bool) (s : State), word < 128 → s.fusePath req = some path →
    (∀ b, b < 32 → nbit (s.fget F.SEC_FUSEDATA_DATA) b = true → s.fuseLocked word b = false) →
    leads (.fuseProgram req word ok) s fun t =>
      (∀ b, b < 32 → (s.fuseWord word).getLsbD b = true → (t.fuseWord word).getLsbD b = true) ∧
      (∀ b, b < 32 → (t.fuseWord word).getLsbD b = true → (s.fuseWord word).getLsbD b = true ∨
        nbit (s.fget F.SEC_FUSEDATA_DATA) b = true) ∧
      (ok = true → ∀ b, b < 32 → nbit (s.fget F.SEC_FUSEDATA_DATA) b = true → (t.fuseWord word).getLsbD b = true) ∧
      (∀ w, w ≠ word → t.fuseWord w = s.fuseWord w) ∧ t.fget F.SEC_FUSEPGM_RESULT = (if ok then 0 else 2) ∧
      t.fget F.SEC_FUSEPGM_WORD = word ∧ t.fget F.SEC_EVT_FUSE = 1 ∧
      (if t.epochCount ≤ s.epochCount then
        posted F.SEC_EVT_FUSE 1 2 [word, if ok then 0 else 2, path] s t ∧ t.sec.tokens = s.sec.tokens
      else t.fget F.SEC_EVT_EPOCH = 1 ∧
        ∀ k, k < 16 → t.token k = (match s.token k with
          | some x => if x.epoch < t.epochCount then none else some x
          | none => none)) ∧
      steady s t ∧
      onlyFields [F.SEC_FUSEPGM_WORD, F.SEC_FUSEPGM_RESULT, F.SEC_EVT_FUSE, F.SEC_EVT_EPOCH] s t)

/-- REGISTER_READ and REGISTER_WRITE of an address that no register occupies (R606). The page answers: its domain is powered
(R575). -/
def Obligations.UnoccupiedAddresses : Prop :=
  (∀ (req : Requester) (a : Nat) (w : DWord) (s : State), blockOf a ≠ none → a % 4 = 0 → findReg a = none → isMbx a = false →
    isMsix a = false → (∀ d, pageDomain a = some d → s.domOn d = true) →
    exec (.registerRead req a 4) s = .next { s with
      out := s.out ++ [if req = .hif then .completion false [0, 0, 0, 0] else .data [0, 0, 0, 0]] } ∧
    exec (.registerWrite req a 4 w) s = .next (if req = .hif then s else { s with out := s.out ++ [.status 0] })) ∧
  (∀ (a size : Nat) (w : DWord) (s : State), blockOf a = none → isAlias a = false →
    (leads (.registerRead .hif a size) s fun t => t.out = s.out ++ [.abort] ∧ counted F.HIF_CNT_CPLERR_COUNT s t ∧ t.evq = s.evq ∧
      steady s t ∧ onlyFields [F.HIF_CNT_CPLERR_COUNT] s t) ∧
    (leads (.registerWrite .hif a size w) s fun t => counted F.HIF_CNT_PWERR_COUNT s t ∧
      posted F.HIF_EVT_PWERR 3 4 ([0] ++ w64 a ++ [2]) s t ∧ t.out = s.out ∧ steady s t ∧
      onlyFields [F.HIF_CNT_PWERR_COUNT, F.HIF_EVT_PWERR] s t)) ∧
  (∀ (req : Requester) (a size : Nat) (w : DWord) (s : State), req ≠ .hif → blockOf a = none → isAlias a = false →
    exec (.registerRead req a size) s = .next { s with out := s.out ++ [.status 1] } ∧
    exec (.registerWrite req a size w) s = .next { s with out := s.out ++ [.status 1] })

/-- REGISTER_WRITE, REGISTER_READ, BIT_ALIAS_WRITE, MBX_ITEM_READ and MBX_ITEM_WRITE (R9 to R14, R605 to R619); RW and W1C fields
by those of HIF_EVT and HIF_EVTEN (R505). -/
def Obligations.RegistersByCode : Prop :=
  (∀ (req : Requester) (a : Nat) (w : Word) (r : RRow) (s : State), s.regRefusal req a 4 = none → isAlias a = false →
    isMbx a = false → isMsix a = false → findReg a = some r → s.rsvBroken a r w = true →
    exec (.registerWrite req a 4 (w.setWidth 64)) s = .fault (.rsvWritten a)) ∧
  (∀ (req : Requester) (a : Nat) (w : Word) (r : RRow) (s : State), s.regRefusal req a 4 = none → isAlias a = false →
    isMbx a = false → isMsix a = false → findReg a = some r → s.rsvBroken a r w = false → badCode req a w = true →
    exec (.registerWrite req a 4 (w.setWidth 64)) s = .fault (.reservedCode a)) ∧
  (∀ (u c off a : Nat) (w : Word) (i : Instr) (s : State),
    (i, a) ∈ [(.tuEnable u w, 0x1100100 + 0x20 * u), (.tuRegWrite u off w, 0x1100100 + 0x20 * u + off),
      (.dmaEnable c w, 0x300200 + 0x10 * c), (.dmaDisable c w, 0x300200 + 0x10 * c),
      (.eventRingEnable c w, 0x300100 + 0x10 * c), (.devnumWrite w, 0xE00028), (.codebaseWrite (.control true) w, 0x200020)] →
    s.rsvChanged a w = true → exec i s = .fault (.rsvWritten a)) ∧
  (∀ (req : Requester) (a size : Nat) (w : DWord) (s : State), req ≠ .hif → isAlias a = false → blockOf a ≠ none →
    size ≠ 4 ∨ a % 4 ≠ 0 → isMsix a = false →
    exec (.registerWrite req a size w) s = .next { s with out := s.out ++ [.status 2] } ∧
    exec (.registerRead req a size) s = .next { s with out := s.out ++ [.status 2] }) ∧
  (∀ (req : Requester) (a d : Nat) (w : DWord) (s : State), req ≠ .hif → isAlias a = false → blockOf a ≠ none → a % 4 = 0 →
    pageDomain a = some d → s.domOn d = false →
    exec (.registerWrite req a 4 w) s = .next { s with out := s.out ++ [.status 7] } ∧
    exec (.registerRead req a 4) s = .next { s with out := s.out ++ [.status 7] }) ∧
  (∀ (w : Word) (s : State), fieldOf w 6 26 = s.fget ⟨0x300010, 6, 26, 0⟩ →
    leads (.registerWrite .hif 0x300010 4 (w.setWidth 64)) s fun t =>
      (∀ k, k < 6 → t.fget ⟨0x300010, k, 1, 1⟩ = fieldOf w k 1) ∧ steady s t ∧ t.evq = s.evq ∧ t.out = s.out ∧
      onlyFields ((List.range 6).map fun k => ⟨0x300010, k, 1, 1⟩) s t) ∧
  (∀ (w : Word) (s : State), fieldOf w 6 26 = s.fget ⟨0x30000C, 6, 26, 0⟩ →
    leads (.registerWrite .hif 0x30000C 4 (w.setWidth 64)) s fun t =>
      (∀ k, k < 6 → t.fget ⟨0x30000C, k, 1, 0⟩ = if w.getLsbD k then 0 else s.fget ⟨0x30000C, k, 1, 0⟩) ∧ steady s t ∧
      t.evq = s.evq ∧ t.out = s.out ∧ onlyFields ((List.range 6).map fun k => ⟨0x30000C, k, 1, 0⟩) s t) ∧
  (∀ (k : Nat) (w : Word) (s : State), k < 6 → leads (.bitAliasWrite .hif (0x2060200 + 4 * k) w) s fun t =>
    t.fget ⟨0x300010, k, 1, 1⟩ = fieldOf w 0 1 ∧ steady s t ∧ t.evq = s.evq ∧ t.out = s.out ∧
    onlyFields [⟨0x300010, k, 1, 1⟩] s t) ∧
  (∀ (k : Nat) (w : Word) (s : State), k < 6 → leads (.bitAliasWrite .hif (0x2060180 + 4 * k) w) s fun t =>
    t.fget ⟨0x30000C, k, 1, 0⟩ = (if w.getLsbD 0 then 0 else s.fget ⟨0x30000C, k, 1, 0⟩) ∧ steady s t ∧ t.evq = s.evq ∧
    t.out = s.out ∧ onlyFields [⟨0x30000C, k, 1, 0⟩] s t) ∧
  (∀ (req : Requester) (a : Nat) (w : Word) (s : State), isAlias a = false → exec (.bitAliasWrite req a w) s = .next s) ∧
  (∀ (req : Requester) (a : Nat) (r : RRow) (s : State), req ≠ .hif → s.regRefusal req a 4 = none → isAlias a = false →
    isMbx a = false → isMsix a = false → findReg a = some r →
    exec (.registerRead req a 4) s = .next { s with out := s.out ++ [.data (leBytes 4 (s.readRow a r))] }) ∧
  (∀ (req : Requester) (page c : Nat) (s : State), req ≠ .hif → ctxOf req = some c → pageBase (page + 0xEC) = page →
    isAlias (page + 0xEC) = false → s.regRefusal req (page + 0xEC) 4 = none → isMbx (page + 0xEC) = true →
    leads (.registerRead req (page + 0xEC) 4) s fun t =>
      t.out = s.out ++ [.data (leBytes 4 (kvGet 0#32 (s.mbxCtx page c).d 3).toNat)] ∧
      t.mbxCtx page c = { s.mbxCtx page c with
        valid := (s.mbxCtx page c).valid && s.peek req } ∧
      steady s t ∧ t.evq = s.evq ∧ onlyFields [] s t) ∧
  (∀ (page item c : Nat) (req : Requester) (tag : Byte) (s : State), item < 2 ^ 16 → ctxOf req = some c → pageBase page = page →
    pageBase (page + 0xF0) = page → isAlias (page + 0xF0) = false → s.regRefusal req (page + 0xF0) 4 = none →
    isMbx (page + 0xF0) = true → leads (.mbxItemRead req page item tag) s fun t =>
      (match itemRead req page item s with
        | some x => t.mbxCtx page c = { d := mbxWords x.1, tag := tag.toNat, err := false, valid := true } ∧ t.seq = x.2.seq ∧
          t.umem = x.2.umem ∧ (∀ f, t.fget f = x.2.fget f) ∧ t.out = x.2.out ++ (if req = .hif then [] else [.status 0])
        | none => t.mbxCtx page c = { s.mbxCtx page c with
            tag := tag.toNat, err := true, valid := false } ∧ onlyFields [] s t ∧ t.seq = s.seq ∧
          t.out = s.out ++ (if req = .hif then [] else [.status 0]))) ∧
  (∀ (tag : Byte) (s : State), s.seq.step < 2 ^ 64 → leads (.mbxItemRead .hif 0x500000 0 tag) s fun t =>
    (t.mbxCtx 0x500000 0).valid = true ∧ (t.mbxCtx 0x500000 0).err = false ∧ (t.mbxCtx 0x500000 0).tag = tag.toNat ∧
    (kvGet 0#32 (t.mbxCtx 0x500000 0).d 0).toNat = s.seq.step % 2 ^ 32 ∧
    (kvGet 0#32 (t.mbxCtx 0x500000 0).d 1).toNat = s.seq.step / 2 ^ 32 ∧ steady s t ∧ t.out = s.out ∧ onlyFields [] s t) ∧
  (∀ (page item c : Nat) (req : Requester) (tag : Byte) (s : State), item < 2 ^ 16 → ctxOf req = some c → pageBase page = page →
    pageBase (page + 0xF0) = page → isAlias (page + 0xF0) = false → s.regRefusal req (page + 0xF0) 4 = none →
    isMbx (page + 0xF0) = true → leads (.mbxItemWrite req page item tag) s fun t =>
      (match itemWrite req page item (s.mbxCtx page c).val s with
        | some u => t.mbxCtx page c = { s.mbxCtx page c with
            tag := tag.toNat, err := false, valid := false } ∧ t.seq = u.seq ∧ t.umem = u.umem ∧ t.plt = u.plt ∧
          (∀ f, t.fget f = u.fget f)
        | none => t.mbxCtx page c = { s.mbxCtx page c with
            tag := tag.toNat, err := true, valid := false } ∧ t.seq = s.seq ∧ t.umem = s.umem ∧ t.plt = s.plt ∧
          onlyFields [] s t)) ∧
  (∀ (tag : Byte) (s : State), leads (.mbxItemWrite .hif 0x000000 1 tag) s fun t =>
    t.plt.ptNext = fieldOf (s.mbxCtx 0 0).val 0 64 ∧ (t.mbxCtx 0 0).err = false ∧ (t.mbxCtx 0 0).d = (s.mbxCtx 0 0).d ∧
    steady s t ∧ t.out = s.out ∧ onlyFields [] s t)

/-- OPP_WRITE, OPP_SETTLE, SSC_WRITE and AGING_CHECK (R23, R561 to R564). That OPP_BUSY clears when the voltage has settled, and
the median of 32 rings as the mean of the middle two, are this model's readings (log 35). -/
def Obligations.OperatingPoints : Prop :=
  (∀ (code : Nat) (s : State), 2 < code → exec (.oppWrite code) s = .next s) ∧
  (∀ (code : Nat) (s : State), code ≤ 2 → s.plt.opp ≠ none → leads (.oppWrite code) s fun t =>
    t.plt = { s.plt with oppNext := some code } ∧ t.fget F.PLT_CTL_OPP = code ∧ steady s t ∧ t.evq = s.evq ∧
    onlyFields [F.PLT_CTL_OPP] s t) ∧
  (∀ (code : Nat) (s : State), code ≤ 2 → s.plt.opp = none → leads (.oppWrite code) s fun t =>
    t.fget F.PLT_CTL_OPP = code ∧ steady s t ∧
    (if code = s.fget F.PLT_STAT_OPPACT then t.plt = s.plt ∧ t.evq = s.evq ∧ onlyFields [F.PLT_CTL_OPP] s t
      else if s.fget F.PLT_STAT_OPPACT < code then
        t.plt = { s.plt with opp := some (s.fget F.PLT_STAT_OPPACT, code, .rising) } ∧ t.fget F.PLT_STAT_OPP_BUSY = 1 ∧
        t.evq = s.evq ∧ onlyFields [F.PLT_CTL_OPP, F.PLT_STAT_OPP_BUSY] s t
      else if s.clockWaits = true then
        t.plt = { s.plt with opp := some (s.fget F.PLT_STAT_OPPACT, code, .downDue) } ∧ t.fget F.PLT_STAT_OPP_BUSY = 1 ∧
        t.evq = s.evq ∧ onlyFields [F.PLT_CTL_OPP, F.PLT_STAT_OPP_BUSY] s t
      else
        t.plt = { s.plt with opp := some (s.fget F.PLT_STAT_OPPACT, code, .falling) } ∧ t.fget F.PLT_STAT_OPP_BUSY = 1 ∧
        t.fget F.PLT_STAT_OPPACT = code ∧
        posted F.PLT_EVT_OPP 0 5 ([s.fget F.PLT_STAT_OPPACT, code] ++ w64 s.seq.step) s t ∧
        onlyFields [F.PLT_CTL_OPP, F.PLT_STAT_OPP_BUSY, F.PLT_STAT_OPPACT, F.PLT_EVT_OPP] s t)) ∧
  (∀ s : State, s.plt.opp = none ∨ (∃ a b, s.plt.opp = some (a, b, .upDue)) ∨ (∃ a b, s.plt.opp = some (a, b, .downDue)) →
    exec .oppSettle s = .next s) ∧
  (∀ (old new : Nat) (s : State), s.plt.opp = some (old, new, .rising) → s.clockWaits = true → leads .oppSettle s fun t =>
    t.plt = { s.plt with opp := some (old, new, .upDue) } ∧ t.fget F.PLT_STAT_OPP_BUSY = 0 ∧ steady s t ∧ t.evq = s.evq ∧
    onlyFields [F.PLT_STAT_OPP_BUSY] s t) ∧
  (∀ (old new : Nat) (s : State), s.plt.opp = some (old, new, .rising) → s.clockWaits = false → s.plt.oppNext = none → new < 4 →
    leads .oppSettle s fun t => t.plt = { s.plt with opp := none } ∧ t.fget F.PLT_STAT_OPPACT = new ∧
      t.fget F.PLT_STAT_OPP_BUSY = 0 ∧ posted F.PLT_EVT_OPP 0 5 ([old, new] ++ w64 s.seq.step) s t ∧ steady s t ∧
      onlyFields [F.PLT_STAT_OPP_BUSY, F.PLT_STAT_OPPACT, F.PLT_EVT_OPP] s t) ∧
  (∀ (old new : Nat) (s : State), s.plt.opp = some (old, new, .falling) →
    s.plt.oppNext = none ∨ s.plt.oppNext = some (s.fget F.PLT_STAT_OPPACT) → leads .oppSettle s fun t =>
      t.plt = { s.plt with opp := none, oppNext := none } ∧ t.fget F.PLT_STAT_OPP_BUSY = 0 ∧ steady s t ∧ t.evq = s.evq ∧
      onlyFields [F.PLT_STAT_OPP_BUSY] s t) ∧
  (∀ (old new c : Nat) (s : State), s.plt.opp = some (old, new, .falling) → s.plt.oppNext = some c →
    s.fget F.PLT_STAT_OPPACT < c → leads .oppSettle s fun t =>
      t.plt = { s.plt with opp := some (s.fget F.PLT_STAT_OPPACT, c, .rising), oppNext := none } ∧
      t.fget F.PLT_STAT_OPP_BUSY = 1 ∧ steady s t ∧ t.evq = s.evq ∧ onlyFields [F.PLT_STAT_OPP_BUSY] s t) ∧
  (∀ (old new c : Nat) (s : State), s.plt.opp = some (old, new, .falling) → s.plt.oppNext = some c →
    c < s.fget F.PLT_STAT_OPPACT → leads .oppSettle s fun t =>
      t.plt = { s.plt with
        opp := some (s.fget F.PLT_STAT_OPPACT, c, if s.clockWaits then .downDue else .falling), oppNext := none } ∧
      t.fget F.PLT_STAT_OPP_BUSY = 1 ∧ t.fget F.PLT_STAT_OPPACT = (if s.clockWaits then s.fget F.PLT_STAT_OPPACT else c) ∧
      steady s t ∧ onlyFields [F.PLT_STAT_OPP_BUSY, F.PLT_STAT_OPPACT, F.PLT_EVT_OPP] s t) ∧
  (∀ (old new c : Nat) (s : State), s.plt.opp = some (old, new, .rising) → s.clockWaits = false → s.plt.oppNext = some c →
    new < 4 → c < 4 → leads .oppSettle s fun t =>
      t.plt = { s.plt with
        opp := if c = new then none else some (new, c, if new < c then .rising else .falling), oppNext := none } ∧
      t.fget F.PLT_STAT_OPPACT = (if c < new then c else new) ∧ t.fget F.PLT_STAT_OPP_BUSY = (if c = new then 0 else 1) ∧
        steady s t ∧
      onlyFields [F.PLT_STAT_OPP_BUSY, F.PLT_STAT_OPPACT, F.PLT_EVT_OPP] s t) ∧
  (∀ (on : Bool) (s : State), leads (.sscWrite on) s fun t => t.fbit F.PLT_CTL_SSC_EN = on ∧
    t.plt = (if s.stepping then { s.plt with sscDue := some on } else { s.plt with ssc := on }) ∧ steady s t ∧
    t.evq = s.evq ∧ onlyFields [F.PLT_CTL_SSC_EN] s t) ∧
  (∀ (counts : List Word) (f c : Nat) (s : State), counts.length = 32 → f = median2 ((List.range 32).map Config.ageFactory) →
    c = median2 (counts.map BitVec.toNat) → leads (.agingCheck counts) s fun t =>
      (∀ k, k < 32 → some (kvGet 0 t.plt.age k) = (counts[k]?).map BitVec.toNat) ∧ t.plt.guard = 2 * (100 * (f - c) / f) ∧
      (if s.plt.agedRaised = false ∧ (∃ k, k < 3 ∧ 850 < t.rawTarget k) then
        t.plt.agedRaised = true ∧
        posted F.PLT_EVT_AGING 0 8 [1000 * (f - c) / f, maskOf 3 fun k => decide (850 < t.rawTarget k)] s t
      else t.plt.agedRaised = s.plt.agedRaised ∧ t.evq = s.evq ∧ onlyFields [] s t) ∧
      steady s t ∧ onlyFields [F.PLT_EVT_AGING] s t)

/-- THRMIN_WRITE, THROTTLE_UPDATE, DROOP_DETECT, DROOP_RELEASE, AVS_DEVIATION_CLEAR, PLT_AVS, SENSOR_SAMPLE, THERMTRIP and the six
SMB commands (R563 to R568, R581). What THRSRC reads at level 0, and which sources the packet of the return names, are this
model's readings (log 36). -/
def Obligations.SensorsAndThrottle : Prop :=
  let follows : State → State → Prop := fun s t =>
    t.fget F.PLT_STAT_THR = t.throttle ∧
    t.fget F.PLT_STAT_THRSRC = (if t.throttle = 0 then 0 else maskOf 4 fun i => t.throttleReqs.getD i 0 == t.throttle) ∧
    (if s.fget F.PLT_STAT_THR = 0 ∧ t.throttle ≠ 0 then
      posted F.PLT_EVT_THROTTLE 0 1 ([0, t.fget F.PLT_STAT_THRSRC] ++ w64 s.seq.step) s t
    else if s.fget F.PLT_STAT_THR ≠ 0 ∧ t.throttle = 0 then
      posted F.PLT_EVT_THROTTLE 0 1 ([1, s.fget F.PLT_STAT_THRSRC] ++ w64 s.seq.step) s t
    else t.evq = s.evq ∧ t.fget F.PLT_EVT_THROTTLE = s.fget F.PLT_EVT_THROTTLE) ∧
    t.out = s.out ++ (if t.alert = s.alert then [] else [.pin "ALERT_N" (!t.alert)]) ∧ steady s t ∧
    onlyFields [F.PLT_CTL_THRMIN, F.PLT_STAT_THR, F.PLT_STAT_THRSRC, F.PLT_EVT_THROTTLE] s t
  (∀ (level : BitVec 4) (s : State), s.plt.thermReq ≤ 15 → s.plt.powerReq ≤ 15 → leads (.thrminWrite level) s fun t =>
    t.plt = s.plt ∧ t.fget F.PLT_CTL_THRMIN = level.toNat ∧ follows s t) ∧
  (∀ (w lim : Nat) (s : State), s.plt.thermReq ≤ 15 → s.plt.powerReq ≤ 15 → lim = s.fget F.PLT_THR_PLIM →
    leads (.throttleUpdate .power w) s fun t => t.plt = { s.plt with
      power := w
      powerReq := if lim < w then min 15 (s.plt.powerReq + 1) else if 100 * w < 95 * lim then s.plt.powerReq - 1
        else s.plt.powerReq } ∧ follows s t ∧ t.fget F.PLT_CTL_THRMIN = s.fget F.PLT_CTL_THRMIN) ∧
  (∀ (w hot tm : Nat) (s : State), s.plt.thermReq ≤ 15 → s.plt.powerReq ≤ 15 → hot = s.fget F.PLT_THR_THOT →
    tm = s.fget F.PLT_STAT_TMAX → leads (.throttleUpdate .thermal w) s fun t => t.plt = { s.plt with
      thermReq := if hot ≤ tm then min 15 (s.plt.thermReq + 1) else if tm + 2 < hot then s.plt.thermReq - 1
        else s.plt.thermReq } ∧ follows s t ∧ t.fget F.PLT_CTL_THRMIN = s.fget F.PLT_CTL_THRMIN) ∧
  (∀ (m mv : Nat) (s : State), s.plt.thermReq ≤ 15 → s.plt.powerReq ≤ 15 → leads (.droopDetect m mv) s fun t =>
    kvGet 0 t.plt.vmon m = mv ∧
    kvGet none t.plt.vmin m = some (match kvGet none s.plt.vmin m with | some v => min v mv | none => mv) ∧
    t.plt.droop = (s.plt.droop || (decide (m < 48) && decide (mv + s.fget F.PLT_DROOP_DELTA ≤ s.target))) ∧
    t.plt.thermReq = s.plt.thermReq ∧ t.plt.powerReq = s.plt.powerReq ∧ t.plt.avsForce = s.plt.avsForce ∧ follows s t) ∧
  (∀ s : State, s.plt.thermReq ≤ 15 → s.plt.powerReq ≤ 15 →
    (leads .droopRelease s fun t => t.plt = { s.plt with droop := false } ∧ follows s t) ∧
    (leads .avsDeviationClear s fun t => t.plt = { s.plt with avsForce := false } ∧ follows s t)) ∧
  (∀ (kind mv : Nat) (s : State), s.plt.thermReq ≤ 15 → s.plt.powerReq ≤ 15 → leads (.pltAvs kind mv) s fun t =>
    t.plt = { s.plt with
      avsForce := true, mv := if kind = 0 then s.plt.mv else mv } ∧ t.fget F.PLT_STAT_THR = t.throttle ∧ 8 ≤ t.throttle ∧
    t.fget F.PLT_EVT_AVS = 1 ∧
    (s.fbit (evten F.PLT_EVT_AVS) = true → t.evq.getLast? = some
      { src := 0, code := 9, payload := [kind, s.target, mv], step := s.seq.step, time := s.ptime }) ∧ steady s t) ∧
  (∀ (temps : List (BitVec 16)) (s : State), temps.length = 48 → leads (.sensorSample temps) s fun t =>
    (∀ k, k < 48 → some (t.temp k) = (temps[k]?).map BitVec.toInt) ∧ t.fget F.PLT_STAT_TMAX = t.tmax % 256 ∧
    t.plt.hot = decide (s.fget F.PLT_THR_TALERT ≤ t.tmax) ∧
    (if t.plt.hot = true ∧ s.plt.hot = false then posted F.PLT_EVT_THERM 0 2 [t.hotSensor, t.tmax] s t
      else t.evq = s.evq ∧ t.fget F.PLT_EVT_THERM = s.fget F.PLT_EVT_THERM) ∧
    t.out = s.out ++ (if t.alert = s.alert then [] else [.pin "ALERT_N" (!t.alert)]) ∧ steady s t ∧
    onlyFields [F.PLT_STAT_TMAX, F.PLT_EVT_THERM] s t) ∧
  (∀ (k : Nat) (s : State), leads (.thermtrip k) s fun t => t.out = s.out ++ [.pin "THERMTRIP_N" false] ∧
    t.plt.thermTrip = true ∧ t.plt.inReset = true ∧ t.fget F.PLT_RSTCAUSE_CAUSE = 3 ∧
    t.fget F.PLT_RSTCAUSE_COUNT = satSucc 8 (s.fget F.PLT_RSTCAUSE_COUNT) ∧ t.seq.st = .idle ∧ t.load.img = none ∧
    t.mem = State.reset.mem ∧ t.flash = s.flash ∧ t.sec.fuses = s.sec.fuses ∧ t.sec.tokens = []) ∧
  (∀ s : State,
    exec .smbTmax s = .next { s with out := s.out ++ [.smbus (s.fget F.PLT_STAT_TMAX)] } ∧
    exec .smbThrottle s = .next { s with
      out := s.out ++ [.smbus (s.fget F.PLT_STAT_THR * 16 + s.fget F.PLT_STAT_OPPACT)] } ∧
    exec .smbRstcause s = .next { s with
      out := s.out ++ [.smbus (if s.plt.inReset = true then 0xFF else s.fget F.PLT_RSTCAUSE_CAUSE)] } ∧
    exec .smbAlertStatus s = .next { s with out := s.out ++ [.smbus (s.plt.thermTrip.toNat + 2 * s.alert.toNat)] } ∧
    exec .smbVddStepMv s = .next { s with out := s.out ++ [.smbus (s.plt.mv % 2 ^ 16)] } ∧
    exec .smbVddStepPower s = .next { s with out := s.out ++ [.smbus (s.plt.power % 2 ^ 16)] })

/-- ROOT_PLL_FAIL, STANDBY_ROOT_FAIL, SWREQ, SWITCHOVER_COMPLETE, ROOT_RETRAIN, ROOT_LOCK, PPS_LOAD, PPS_EDGE, PPS_MISSING and
CAL_SCHEDULE (R262, R557 to R559, R562, R569 to R572, R580). The change of platform time at a switchover and the rate correction are free
values within the bounds of R558 and R570 (log 4); which lane a rotation takes next is this model's choice (log 37). -/
def Obligations.RootsAndTime : Prop :=
  (∀ (kind : Nat) (s : State), s.rootOk (s.fget F.PLT_STAT_ROOT) = false → exec (.rootPllFail kind) s = .next s) ∧
  (∀ (kind a : Nat) (s : State), a = s.fget F.PLT_STAT_ROOT → s.rootOk a = true → s.rootOk (1 - a) = true →
    leads (.rootPllFail kind) s fun t => t.rootOk a = false ∧ t.rootOk (1 - a) = true ∧ t.plt = { s.plt with clockHold := true } ∧
      t.fget F.PLT_STAT_ROOT = a ∧ steady s t ∧ t.out = s.out ∧
      (if s.fbit F.PLT_CTL_AUTOSW = true then
        t.fget F.PLT_STAT_SW_BUSY = 1 ∧ posted F.PLT_EVT_PLL_FAIL 0 3 [a, kind, 1] s t
      else t.fget F.PLT_STAT_SW_BUSY = s.fget F.PLT_STAT_SW_BUSY ∧ posted F.PLT_EVT_PLL_FAIL 0 3 [a, kind, 0] s t) ∧
      onlyFields [F.PLT_STAT_ROOTA_OK, F.PLT_STAT_ROOTB_OK, F.PLT_STAT_SW_BUSY, F.PLT_EVT_PLL_FAIL] s t) ∧
  (∀ (kind a : Nat) (c : Instr) (s : State), a = s.fget F.PLT_STAT_ROOT →
    (c = .rootPllFail kind ∧ s.rootOk a = true ∧ s.rootOk (1 - a) = false) ∨
    (c = .standbyRootFail kind ∧ s.rootOk (1 - a) = true ∧ s.rootOk a = false) → leads c s fun t =>
      t.fget F.PLT_RSTCAUSE_CAUSE = 5 ∧ t.fget F.PLT_RSTCAUSE_COUNT = satSucc 8 (s.fget F.PLT_RSTCAUSE_COUNT) ∧
      t.mgt.boot ≠ none ∧ t.seq.st = .idle ∧ t.flash = s.flash ∧ t.out = s.out) ∧
  (∀ (kind : Nat) (s : State), s.rootOk (1 - s.fget F.PLT_STAT_ROOT) = false → exec (.standbyRootFail kind) s = .next s) ∧
  (∀ (kind a : Nat) (s : State), a = s.fget F.PLT_STAT_ROOT → s.rootOk a = true → s.rootOk (1 - a) = true →
    leads (.standbyRootFail kind) s fun t => t.rootOk (1 - a) = false ∧ t.rootOk a = true ∧
      posted F.PLT_EVT_PLL_FAIL 0 3 [1 - a, kind, 0] s t ∧ t.plt = s.plt ∧ steady s t ∧
      onlyFields [F.PLT_STAT_ROOTA_OK, F.PLT_STAT_ROOTB_OK, F.PLT_EVT_PLL_FAIL] s t) ∧
  (∀ s : State, s.rootOk (1 - s.fget F.PLT_STAT_ROOT) = false ∨ s.fbit F.PLT_STAT_SW_BUSY = true → exec .swreq s = .next s) ∧
  (∀ s : State, s.rootOk (1 - s.fget F.PLT_STAT_ROOT) = true → s.fbit F.PLT_STAT_SW_BUSY = false → leads .swreq s fun t =>
    t.fget F.PLT_CTL_SWREQ = 1 ∧ t.fget F.PLT_STAT_SW_BUSY = 1 ∧ t.plt = { s.plt with clockHold := true } ∧ steady s t ∧
    t.evq = s.evq ∧ onlyFields [F.PLT_CTL_SWREQ, F.PLT_STAT_SW_BUSY] s t) ∧
  (∀ s : State, s.fbit F.PLT_STAT_SW_BUSY = false → exec .switchoverComplete s = .next s) ∧
  (∀ s : State, s.fbit F.PLT_STAT_SW_BUSY = true → leads .switchoverComplete s fun t =>
    t.fget F.PLT_STAT_ROOT = 1 - s.fget F.PLT_STAT_ROOT ∧ t.fget F.PLT_STAT_SW_BUSY = 0 ∧ t.fget F.PLT_CTL_SWREQ = 0 ∧
    t.plt.clockHold = false ∧ s.ptime - 1 ≤ t.ptime ∧ t.ptime ≤ s.ptime + 1 ∧ steady s t ∧
    onlyFields [F.PLT_STAT_ROOT, F.PLT_STAT_SW_BUSY, F.PLT_CTL_SWREQ, F.PLT_STAT_OPPACT, F.PLT_STAT_OPP_BUSY,
      F.PLT_EVT_OPP] s t ∧
    (s.stepping = true ∨ ((∀ o n, s.plt.opp ≠ some (o, n, .upDue) ∧ s.plt.opp ≠ some (o, n, .downDue)) ∧ s.plt.sscDue = none) →
      t.plt = { s.plt with clockHold := false } ∧ t.evq = s.evq ∧
      onlyFields [F.PLT_STAT_ROOT, F.PLT_STAT_SW_BUSY, F.PLT_CTL_SWREQ] s t) ∧
    (s.stepping = false → t.plt.sscDue = none ∧ (∀ b, s.plt.sscDue = some b → t.plt.ssc = b) ∧
      (∀ o n, n < 4 → s.plt.opp = some (o, n, .downDue) → t.fget F.PLT_STAT_OPPACT = n ∧ t.plt.opp = some (o, n, .falling) ∧
        posted F.PLT_EVT_OPP 0 5 ([o, n] ++ w64 s.seq.step) { s with ptime := t.ptime } t) ∧
      (∀ o n, n < 4 → s.plt.opp = some (o, n, .upDue) → s.plt.oppNext = none → t.fget F.PLT_STAT_OPPACT = n ∧ t.plt.opp = none ∧
        t.fget F.PLT_STAT_OPP_BUSY = 0 ∧ posted F.PLT_EVT_OPP 0 5 ([o, n] ++ w64 s.seq.step) { s with ptime := t.ptime } t))) ∧
  (∀ (passed : Bool) (s : State), passed = false ∨ s.rootOk (1 - s.fget F.PLT_STAT_ROOT) = true →
    exec (.rootRetrain passed) s = .next s) ∧
  (∀ (b : Nat) (s : State), b = 1 - s.fget F.PLT_STAT_ROOT → s.rootOk b = false → leads (.rootRetrain true) s fun t =>
    t.rootOk b = true ∧ t.rootOk (1 - b) = s.rootOk (1 - b) ∧ steady s t ∧ t.evq = s.evq ∧
    onlyFields [F.PLT_STAT_ROOTA_OK, F.PLT_STAT_ROOTB_OK] s t) ∧
  (∀ s : State, leads .rootLock s fun t => t.ptime = 0 ∧ t.ptRun = true ∧ t.rootOk 0 = true ∧ t.rootOk 1 = true ∧
    t.fget F.PLT_STAT_ROOT = 0 ∧ steady s t ∧ t.evq = s.evq ∧
    onlyFields [F.PLT_STAT_ROOTA_OK, F.PLT_STAT_ROOTB_OK, F.PLT_STAT_ROOT] s t) ∧
  (∀ s : State, leads .ppsLoad s fun t => t.fget F.PLT_PTCTL_LOAD = 1 ∧ t.plt = s.plt ∧ t.ptime = s.ptime ∧ steady s t ∧
    t.evq = s.evq ∧ onlyFields [F.PLT_PTCTL_LOAD] s t) ∧
  (∀ s : State, s.fbit F.PLT_PTCTL_LOAD = false → s.fget F.PLT_PTCTL_MODE ≠ 1 → exec .ppsEdge s = .next s) ∧
  (∀ s : State, s.fbit F.PLT_PTCTL_LOAD = true → leads .ppsEdge s fun t => t.ptime = s.plt.ptNext ∧
    t.fget F.PLT_PTCTL_LOAD = 0 ∧ t.plt.ppsLast = some s.plt.ptNext ∧ t.fget F.PLT_EVT_PPS = 1 ∧
    (s.fbit (evten F.PLT_EVT_PPS) = true → ∃ e, t.evq = s.evq ++ [e] ∧ e.src = 0 ∧ e.code = 6 ∧ e.time = s.plt.ptNext ∧
      e.payload = [2, int32 ((s.plt.ptNext : Int) - (s.ptime : Int))]) ∧ steady s t ∧
    onlyFields [F.PLT_PTCTL_LOAD, F.PLT_EVT_PPS] s t) ∧
  (∀ s : State, s.fbit F.PLT_PTCTL_LOAD = false → s.fget F.PLT_PTCTL_MODE = 1 → s.plt.ppsLast = none → leads .ppsEdge s fun t =>
    t.plt = { s.plt with ppsLast := some s.ptime } ∧ t.ptime = s.ptime ∧ steady s t ∧ t.evq = s.evq ∧ onlyFields [] s t) ∧
  (∀ (v n : Nat) (err : Int) (s : State), s.fbit F.PLT_PTCTL_LOAD = false → s.fget F.PLT_PTCTL_MODE = 1 →
    s.plt.ppsLast = some v → err = (s.ptime : Int) - ((v : Int) + 1000000000) →
    n = (if -2 ≤ err ∧ err ≤ 2 then min 10 (s.plt.streak + 1) else 0) → leads .ppsEdge s fun t =>
      t.plt.ptErr = err ∧ t.plt.streak = n ∧ t.plt.ppsLast = some (v + 1000000000) ∧ -100000 ≤ t.plt.corr ∧
      t.plt.corr ≤ 100000 ∧ t.ptime = s.ptime ∧
      (if n = 10 ∧ s.fbit F.PLT_STAT_PPS_LOCK = false then
        t.fget F.PLT_STAT_PPS_LOCK = 1 ∧ posted F.PLT_EVT_PPS 0 6 [0, int32 err] s t
      else t.evq = s.evq ∧ onlyFields [] s t) ∧ steady s t ∧ onlyFields [F.PLT_STAT_PPS_LOCK, F.PLT_EVT_PPS] s t) ∧
  (∀ s : State, s.fget F.PLT_PTCTL_MODE ≠ 1 → exec .ppsMissing s = .next s) ∧
  (∀ s : State, s.fget F.PLT_PTCTL_MODE = 1 → leads .ppsMissing s fun t => t.fget F.PLT_STAT_PPS_LOCK = 0 ∧
    t.plt = { s.plt with streak := 0, corr := 0, ppsLast := none, edges := 0 } ∧
    posted F.PLT_EVT_PPS 0 6 [1, int32 s.plt.ptErr] s t ∧ t.ptime = s.ptime ∧ steady s t ∧
    onlyFields [F.PLT_STAT_PPS_LOCK, F.PLT_EVT_PPS] s t) ∧
  (∀ (kind : CalKind) (s : State), s.calDeferred = true ∨ (kind = .hbmInterval ∧ s.fget F.PLT_CAL_HBMMS = 0) ∨
    (∃ k, kind = .hbmTemp k ∧ s.tempMoved k = false) ∨ (∃ l, kind = .linkRotation l ∧ s.fget F.PLT_CAL_LNKMS = 0) →
    exec (.calSchedule kind) s = .next s) ∧
  (∀ s : State, s.calDeferred = false → s.fget F.PLT_CAL_HBMMS ≠ 0 → s.fget F.MEM_STAT_CAL_BUSY = 0 → s.plt.calNext < 4 →
    leads (.calSchedule .hbmInterval) s fun t => t.fget F.MEM_STAT_CAL_BUSY = 2 ^ s.plt.calNext ∧
      t.plt.calNext = (s.plt.calNext + 1) % 4 ∧ kvGet 0 t.plt.calTemp s.plt.calNext = s.fget (htempFld s.plt.calNext) ∧
      steady s t ∧ t.evq = s.evq ∧ onlyFields [F.MEM_STAT_CAL_BUSY] s t) ∧
  (∀ (k : Nat) (s : State), k < 4 → s.calDeferred = false → s.tempMoved k = true → s.fget F.MEM_STAT_CAL_BUSY = 0 →
    leads (.calSchedule (.hbmTemp k)) s fun t => t.fget F.MEM_STAT_CAL_BUSY = 2 ^ k ∧
      kvGet 0 t.plt.calTemp k = s.fget (htempFld k) ∧ t.plt.calNext = s.plt.calNext ∧ steady s t ∧ t.evq = s.evq ∧
      onlyFields [F.MEM_STAT_CAL_BUSY] s t) ∧
  (∀ (l lane : Nat) (s : State), s.calDeferred = false → s.fget F.PLT_CAL_LNKMS ≠ 0 →
    (s.link l).st = .up ∨ (s.link l).st = .active → s.fbit (F.LNK_STAT_SPARE_OK l) = true → (s.link l).sparing = none →
    ((List.range 32).filter fun k => ((s.link k).sparing.map (·.cal)).getD false).length < 4 → s.spareLane l < 3 →
    lane = (s.spareLane l + 1) % 3 → leads (.calSchedule (.linkRotation l)) s fun t =>
      t.link l = { s.link l with
        sparing := some { lane := lane, byGo := false, accepted := false, since := s.now, cal := true }
        ctlq := (s.link l).ctlq ++ [laneWord 1 lane] } ∧
      onlyLink l s t ∧ t.fget (F.LNK_STAT_SPARE_BUSY l) = 1 ∧ t.evq = s.evq ∧ onlyFields [F.LNK_STAT_SPARE_BUSY l] s t)

/-- PGREQ_GATE, PGREQ_POWER, DOMAIN_READY, HBM_TRAIN_COMPLETE, PLT_RST_KEY, DEVICE_RESET and PORST_N_RELEASE (R207, R568, R574,
R575, R578 to R580). The order of the refusals of a power request, and that a wrong key leaves the window of PLT_RST open, are
this model's readings (log 38). -/
def Obligations.PowerAndResets : Prop :=
  (∀ (d r : Nat) (on : Bool) (s : State), s.gateRefusal d on = some r → d < 32 →
    leads (if on then .pgreqPower d else .pgreqGate d) s fun t =>
      t.fget F.PLT_PGREQ_RESULT = r ∧ posted F.PLT_EVT_PGATE 0 4 [d, on.toNat, r] s t ∧
      t.fget F.PLT_PGSTAT_ON = s.fget F.PLT_PGSTAT_ON ∧ t.plt = s.plt ∧ steady s t ∧
      (if r = 5 then t.fget F.PLT_PGREQ_DOMAIN = s.fget F.PLT_PGREQ_DOMAIN else t.fget F.PLT_PGREQ_DOMAIN = d) ∧
      onlyFields [F.PLT_PGREQ_DOMAIN, F.PLT_PGREQ_ON, F.PLT_PGREQ_RESULT, F.PLT_EVT_PGATE] s t) ∧
  (∀ (d c : Nat) (on : Bool) (s : State),
    (s.fbit F.PLT_PGREQ_GO = true → s.gateRefusal d on = some 5) ∧
    (s.fbit F.PLT_PGREQ_GO = false → 30 ≤ d → s.gateRefusal d on = some 4) ∧
    (s.fbit F.PLT_PGREQ_GO = false → d < 5 → s.gateRefusal d on = some 1) ∧
    (s.fbit F.PLT_PGREQ_GO = false → 17 ≤ d → d < 25 → 8 * (d - 17) ≤ c → c < 8 * (d - 17) + 8 → (s.clause c).loaded = true →
      s.gateRefusal d false = some 2)) ∧
  (∀ (d : Nat) (s : State), s.gateRefusal d false = none → leads (.pgreqGate d) s fun t =>
    (∀ k, k < 30 → nbit (t.fget F.PLT_PGSTAT_ON) k = (nbit (s.fget F.PLT_PGSTAT_ON) k && k != d)) ∧
    t.fget F.PLT_PGREQ_RESULT = 0 ∧ t.fget F.PLT_EVT_PGATE = 1 ∧
    (s.fbit (evten F.PLT_EVT_PGATE) = true → t.evq.getLast? = some
      { src := 0, code := 4, payload := [d, 0, 0], step := s.seq.step, time := s.ptime }) ∧ t.seq = s.seq ∧ t.flash = s.flash ∧
    (∀ x, memGet t.mem x = if s.domOn d = true ∧ s.sleepEmu = false ∧ 5 ≤ d ∧ d < 9 ∧ stackLo (d - 5) ≤ x ∧
      x < stackLo (d - 5) + 0x600000000 then memDflt x else memGet s.mem x)) ∧
  (∀ (d : Nat) (s : State), s.gateRefusal d true = none → leads (.pgreqPower d) s fun t =>
    t.fget F.PLT_PGREQ_DOMAIN = d ∧ t.fbit F.PLT_PGREQ_ON = true ∧ t.fget F.PLT_PGSTAT_ON = s.fget F.PLT_PGSTAT_ON ∧ steady s t ∧
    (if s.domOn d = true then t.fget F.PLT_PGREQ_RESULT = 0 ∧ posted F.PLT_EVT_PGATE 0 4 [d, 1, 0] s t ∧ t.plt = s.plt
      else t.fget F.PLT_PGREQ_GO = 1 ∧ t.plt = { s.plt with pgReq := some d } ∧ t.evq = s.evq) ∧
    onlyFields [F.PLT_PGREQ_DOMAIN, F.PLT_PGREQ_ON, F.PLT_PGREQ_GO, F.PLT_PGREQ_RESULT, F.PLT_EVT_PGATE] s t) ∧
  (∀ (d : Nat) (s : State), s.plt.pgReq ≠ some d → exec (.domainReady d) s = .next s) ∧
  (∀ (d : Nat) (s : State), s.plt.pgReq = some d → d < 30 → leads (.domainReady d) s fun t =>
    (∀ k, k < 30 → nbit (t.fget F.PLT_PGSTAT_ON) k = (nbit (s.fget F.PLT_PGSTAT_ON) k || k == d)) ∧ t.plt.pgReq = none ∧
    t.fget F.PLT_PGREQ_GO = 0 ∧ t.fget F.PLT_PGREQ_RESULT = 0 ∧ t.fget F.PLT_EVT_PGATE = 1 ∧
    (5 ≤ d → d < 9 → nbit (t.fget F.MEM_STAT_HBM_UP) (d - 5) = true) ∧ steady s t) ∧
  (∀ (k : Nat) (s : State), s.domOn (5 + k) = false → s.plt.pgReq ≠ some (5 + k) → exec (.hbmTrainComplete k) s = .next s) ∧
  (∀ (k : Nat) (s : State), k < 4 → s.domOn (5 + k) = true ∨ s.plt.pgReq = some (5 + k) → leads (.hbmTrainComplete k) s fun t =>
    (∀ j, j < 4 → nbit (t.fget F.MEM_STAT_HBM_UP) j = (nbit (s.fget F.MEM_STAT_HBM_UP) j || j == k)) ∧ steady s t ∧
    t.evq = s.evq ∧ onlyFields [F.MEM_STAT_HBM_UP] s t) ∧
  (∀ (req : Requester) (key : BitVec 16) (s : State), s.rstPath req = none → exec (.pltRstKey req key) s = .next s) ∧
  (∀ (req : Requester) (p : Bool) (s : State), s.rstPath req = some p → leads (.pltRstKey req 0xA55A#16) s fun t =>
    t.plt = { s.plt with rstLeft := some (1024, p) } ∧ steady s t ∧ t.evq = s.evq ∧ onlyFields [] s t) ∧
  (∀ (req : Requester) (p : Bool) (n : Nat) (s : State), s.rstPath req = some p → s.plt.rstLeft = some (n, p) →
    exec (.pltRstKey req 0x5AA5#16) s = exec (.deviceReset .software) s) ∧
  (∀ (req : Requester) (p : Bool) (key : BitVec 16) (s : State), s.rstPath req = some p → key ≠ 0xA55A#16 →
    key ≠ 0x5AA5#16 ∨ s.plt.rstLeft.map Prod.snd ≠ some p → exec (.pltRstKey req key) s = .next s) ∧
  (∀ (cause : ResetCause) (s : State), leads (.deviceReset cause) s fun t =>
    t.fget F.PLT_RSTCAUSE_CAUSE = (match cause with
      | .power => 1 | .brownout => 2 | .thermtrip => 3 | .software => 4 | .root => 5) ∧
    t.fget F.PLT_RSTCAUSE_COUNT = (if cause = .power then 0 else satSucc 8 (s.fget F.PLT_RSTCAUSE_COUNT)) ∧
    (if cause = .power ∨ cause = .thermtrip then t.plt.inReset = true ∧ t.mgt.boot = none
      else t.plt.inReset = false ∧ t.mgt.boot ≠ none ∧ t.fget F.SCH_LOAD_BUSY = 1) ∧
    t.flash = s.flash ∧ t.sec.fuses = s.sec.fuses ∧ t.sec.tokens = [] ∧ t.mem = State.reset.mem ∧ t.seq.st = .idle ∧
    t.load.img = none ∧ t.evq = [] ∧ t.dbg.tapLevel = 0 ∧ t.dbg.hostLevel = 0 ∧ t.pending = s.pending ∧ t.out = s.out) ∧
  (∀ s : State, s.load.job = none → leads .porstNRelease s fun t => t.plt.inReset = false ∧ t.mgt.boot ≠ none ∧
    t.fget F.SCH_LOAD_BUSY = 1 ∧
    (∀ c, c < 64 → nbit (s.fuseByte (336 + c)) 7 = true →
      (t.clause c).spared = true ∧ (t.clause c).retired = s.fuseByte (336 + c) % 128) ∧
    (∀ c, c < 64 → nbit (s.fuseByte (336 + c)) 7 = false → t.clause c = s.clause c) ∧ t.mem = s.mem ∧ t.flash = s.flash ∧
    t.evq = s.evq)

/-- SPARING_DECISION and LIFE_RECORD (R595, R596). RESULT, UNIT and ITEM of a life record are free values (log 4); when the firmware
acts and what it waits for are this model's readings (log 39). -/
def Obligations.SparingAndRecords : Prop :=
  (∀ (t : SparingTrigger) (hours avg : DWord) (s : State), s.firmware = false →
    exec (.sparingDecision t) s = .next s ∧ exec (.lifeRecord hours avg) s = .next s) ∧
  (∀ (t : SparingTrigger) (s : State), t ∉ s.mgt.seen ∨ s.actFree t = false → s.mgt.acts = [] →
    exec (.sparingDecision t) s = .next s) ∧
  (∀ (t : SparingTrigger) (ty unit item at_ : Nat) (s : State), s.firmware = true → t ∉ s.mgt.seen →
    s.mgt.acts = [(ty, unit, item)] →
    s.actOver ty unit = true → ty < 256 → at_ = s.mgt.logPos → at_ % 1024 ≠ 0 → leads (.sparingDecision t) s fun u =>
      u.mgt = { s.mgt with acts := [], logSeq := s.mgt.logSeq + 1, logPos := (at_ + 1) % 8192 } ∧
      leAt (u.flashRead (0x80000 + 64 * at_) 64) 8 1 = ty ∧
      leAt (u.flashRead (0x80000 + 64 * at_) 64) 9 1 = s.actResult ty unit % 256 ∧
      leAt (u.flashRead (0x80000 + 64 * at_) 64) 10 2 = unit % 2 ^ 16 ∧
      leAt (u.flashRead (0x80000 + 64 * at_) 64) 12 4 = item % 2 ^ 32 ∧
      (∀ o, o < 0x80000 + 64 * at_ ∨ 0x80000 + 64 * at_ + 64 ≤ o → u.flashGet o = s.flashGet o) ∧ steady s u ∧
      u.evq = s.evq ∧ onlyFields [] s u) ∧
  (∀ (t : SparingTrigger) (s : State), s.firmware = true → t ∈ s.mgt.seen → s.actFree t = true →
    leads (.sparingDecision t) s fun u =>
    let v := actStart t { s with mgt := { s.mgt with seen := s.mgt.seen.filter fun x => x != t } }
    u.mgt.seen = v.mgt.seen ∧ t ∉ s.mgt.seen.filter (fun x => x != t) ∧ u.evq = v.evq ∧ u.clauses = v.clauses ∧ u.sch = v.sch ∧
    u.umem = v.umem ∧ u.links = v.links ∧ u.fab = v.fab ∧ u.mem = v.mem ∧ u.seq = v.seq ∧ (∀ f, u.fget f = v.fget f) ∧
    ((actOf t).1 ≠ 3 → v.actOver (actOf t).1 (actOf t).2.1 = false → actOf t ∈ u.mgt.acts)) ∧
  (∀ (c p : Nat) (s : State), exec (.clsSpareGo c p) s = .next (actStart (.phrase c p) s)) ∧
  (∀ (l n : Nat) (s : State), exec (.lnkSpareGo l n) s = .next (actStart (.linkLane l n) s)) ∧
  (∀ (hours avg : DWord) (at_ : Nat) (s : State), s.firmware = true → at_ = s.mgt.logPos → at_ % 1024 ≠ 0 →
    leads (.lifeRecord hours avg) s fun u =>
      u.mgt = { s.mgt with logSeq := s.mgt.logSeq + 1, logPos := (at_ + 1) % 8192 } ∧
      leAt (u.flashRead (0x80000 + 64 * at_) 64) 0 4 = 0x474F4C46 ∧
      leAt (u.flashRead (0x80000 + 64 * at_) 64) 8 1 = 9 ∧
      leAt (u.flashRead (0x80000 + 64 * at_) 64) 24 8 = hours.toNat ∧
      leAt (u.flashRead (0x80000 + 64 * at_) 64) 32 8 = avg.toNat ∧
      leAt (u.flashRead (0x80000 + 64 * at_) 64) 60 4 = 0x5AC33CA5 ∧
      (∀ o, o < 0x80000 + 64 * at_ ∨ 0x80000 + 64 * at_ + 64 ≤ o → u.flashGet o = s.flashGet o) ∧ steady s u ∧
      u.evq = s.evq ∧ onlyFields [] s u) ∧
  (∀ (hours avg : DWord) (s : State), s.firmware = true → s.mgt.logPos % 1024 = 0 → s.mgt.logPos < 8192 →
    leads (.lifeRecord hours avg) s fun u =>
      (∀ o, o < 0x80000 ∨ 0x100000 ≤ o → u.flashGet o = s.flashGet o) ∧ steady s u ∧ u.evq = s.evq ∧ onlyFields [] s u)
end

