-- ==== Sys2Proof/Laws/Kept.lean ====
section
/-! SUPPORT. Kept.lean: what every operation of the model keeps: the queue of commands, and the canonical form of the stored
bytes. -/
set_option Elab.async false
namespace Sys2Proof.Machine

/-! ### Canonical maps -/

theorem kvWfFrom_mono {α : Type} [DecidableEq α] {d : α} {m : List (Nat × α)} {lo lo' : Nat} (hl : lo' ≤ lo)
    (h : kvWfFrom d lo m = true) : kvWfFrom d lo' m = true := by
  cases m with
  | nil => rfl
  | cons e t =>
    simp only [kvWfFrom, Bool.and_eq_true, decide_eq_true_eq] at h ⊢
    exact ⟨⟨Nat.le_trans hl h.1.1, h.1.2⟩, h.2⟩

theorem kvErase_wfFrom {α : Type} [DecidableEq α] {d : α} (k : Nat) {m : List (Nat × α)} {lo : Nat}
    (h : kvWfFrom d lo m = true) : kvWfFrom d lo (kvErase m k) = true := by
  induction m generalizing lo with
  | nil => rfl
  | cons e t ih =>
    simp only [kvWfFrom, Bool.and_eq_true, decide_eq_true_eq] at h
    simp only [kvErase]
    split
    · exact kvWfFrom_mono (by omega) (ih h.2)
    · simp only [kvWfFrom, Bool.and_eq_true, decide_eq_true_eq]
      exact ⟨h.1, ih h.2⟩

theorem kvInsert_wfFrom {α : Type} [DecidableEq α] {d : α} (k : Nat) (v : α) (hv : v ≠ d) {m : List (Nat × α)} {lo : Nat}
    (hk : lo ≤ k) (h : kvWfFrom d lo m = true) : kvWfFrom d lo (kvInsert m k v) = true := by
  induction m generalizing lo with
  | nil => simp [kvInsert, kvWfFrom, hk, hv]
  | cons e t ih =>
    simp only [kvWfFrom, Bool.and_eq_true, decide_eq_true_eq] at h
    simp only [kvInsert]
    split
    · simp only [kvWfFrom, Bool.and_eq_true, decide_eq_true_eq]
      exact ⟨⟨hk, hv⟩, ⟨by omega, h.1.2⟩, h.2⟩
    · split
      · simp only [kvWfFrom, Bool.and_eq_true, decide_eq_true_eq]
        exact ⟨⟨hk, hv⟩, by subst_vars; exact h.2⟩
      · simp only [kvWfFrom, Bool.and_eq_true, decide_eq_true_eq]
        exact ⟨h.1, ih (by omega) h.2⟩

/-- A write keeps the canonical form. -/
theorem kvSet_wf {α : Type} [DecidableEq α] {d : α} {m : List (Nat × α)} (k : Nat) (v : α) (h : kvWf d m = true) :
    kvWf d (kvSet d m k v) = true := by
  unfold kvSet kvWf at *
  split
  · exact kvErase_wfFrom k h
  · exact kvInsert_wfFrom k v ‹_› (Nat.zero_le _) h

theorem kvFilter_wfFrom {α : Type} [DecidableEq α] {d : α} (p : Nat × α → Bool) {m : List (Nat × α)} {lo : Nat}
    (h : kvWfFrom d lo m = true) : kvWfFrom d lo (m.filter p) = true := by
  induction m generalizing lo with
  | nil => rfl
  | cons e t ih =>
    simp only [kvWfFrom, Bool.and_eq_true, decide_eq_true_eq] at h
    rw [List.filter_cons]
    split
    · simp only [kvWfFrom, Bool.and_eq_true, decide_eq_true_eq]
      exact ⟨h.1, ih h.2⟩
    · exact kvWfFrom_mono (by omega) (ih h.2)

theorem kvDrop_wf {α : Type} [DecidableEq α] {d : α} {m : List (Nat × α)} (lo hi : Nat) (h : kvWf d m = true) :
    kvWf d (kvDrop m lo hi) = true := kvFilter_wfFrom _ h

theorem kvSetAll_wf {α : Type} [DecidableEq α] {d : α} (ws : List (Nat × α)) {m : List (Nat × α)} (h : kvWf d m = true) :
    kvWf d (kvSetAll d m ws) = true := by
  unfold kvSetAll
  induction ws generalizing m with
  | nil => exact h
  | cons w t ih => exact ih (kvSet_wf _ _ h)

/-! ### Memory -/

theorem memErase_wfFrom (k : Nat) {m : List Host.Cell} {lo : Nat} (h : memWfFrom lo m = true) :
    memWfFrom lo (kvErase m k) = true := by
  induction m generalizing lo with
  | nil => rfl
  | cons e t ih =>
    simp only [memWfFrom, Bool.and_eq_true, decide_eq_true_eq] at h
    simp only [kvErase]
    split
    · have := ih h.2
      clear ih
      revert this
      cases kvErase t k with
      | nil => simp [memWfFrom]
      | cons e' t' =>
        simp only [memWfFrom, Bool.and_eq_true, decide_eq_true_eq]
        intro q
        exact ⟨⟨by omega, q.1.2⟩, q.2⟩
    · simp only [memWfFrom, Bool.and_eq_true, decide_eq_true_eq]
      exact ⟨h.1, ih h.2⟩

theorem memInsert_wfFrom (k : Nat) (v : Byte) (hv : v ≠ memDflt k) {m : List Host.Cell} {lo : Nat} (hk : lo ≤ k)
    (h : memWfFrom lo m = true) : memWfFrom lo (kvInsert m k v) = true := by
  induction m generalizing lo with
  | nil => simp [kvInsert, memWfFrom, hk, hv]
  | cons e t ih =>
    simp only [memWfFrom, Bool.and_eq_true, decide_eq_true_eq] at h
    simp only [kvInsert]
    split
    · simp only [memWfFrom, Bool.and_eq_true, decide_eq_true_eq]
      exact ⟨⟨hk, hv⟩, ⟨by omega, h.1.2⟩, h.2⟩
    · split
      · simp only [memWfFrom, Bool.and_eq_true, decide_eq_true_eq]
        exact ⟨⟨hk, hv⟩, by subst_vars; exact h.2⟩
      · simp only [memWfFrom, Bool.and_eq_true, decide_eq_true_eq]
        exact ⟨h.1, ih (by omega) h.2⟩

/-- A byte write keeps memory in canonical form. -/
theorem memPut_wf {m : List Host.Cell} (a : Nat) (b : Byte) (h : Memory.wf m = true) : Memory.wf (memPut m a b) = true := by
  unfold memPut kvSet Memory.wf at *
  split
  · exact memErase_wfFrom a h
  · exact memInsert_wfFrom a b ‹_› (Nat.zero_le _) h

theorem memFilter_wf (p : Host.Cell → Bool) {m : List Host.Cell} (h : Memory.wf m = true) : Memory.wf (m.filter p) = true := by
  have key : ∀ (m : List Host.Cell) (lo : Nat), memWfFrom lo m = true → memWfFrom lo (m.filter p) = true := by
    intro m
    induction m with
    | nil => intros; rfl
    | cons e t ih =>
      intro lo h
      simp only [memWfFrom, Bool.and_eq_true, decide_eq_true_eq] at h
      rw [List.filter_cons]
      split
      · simp only [memWfFrom, Bool.and_eq_true, decide_eq_true_eq]
        exact ⟨h.1, ih _ h.2⟩
      · have := ih _ h.2
        clear ih
        revert this
        cases t.filter p with
        | nil => simp [memWfFrom]
        | cons e' t' =>
          simp only [memWfFrom, Bool.and_eq_true, decide_eq_true_eq]
          intro q
          exact ⟨⟨by omega, q.1.2⟩, q.2⟩
  exact key m 0 h

/-! ### The relation -/

/-- The fuse words of a list, each with its content at manufacture as the default (R536). -/
def fuseGet (m : List (Nat × Word)) (k : Nat) : Word := kvGet (fuseDflt k) m k

/-- Every fuse bit set in m is set in m' (R536). -/
def FuseLe (m m' : List (Nat × Word)) : Prop := ∀ k b, (fuseGet m k).getLsbD b = true → (fuseGet m' k).getLsbD b = true

/-- From s to a state with queue p, memory m, flash f, held records q and fuses u: the queue is unchanged, memory and flash keep
their canonical form, the arbiter stays within its 256 records, and no fuse bit is cleared. -/
structure KeptF (s : State) (p : List Instr) (m f : List Host.Cell) (q : List (Nat × Ev)) (u : List (Nat × Word)) : Prop where
  pending : p = s.pending
  mem : Memory.wf s.mem = true → Memory.wf m = true
  flash : Flash.wf s.flash = true → Flash.wf f = true
  held : s.hif.held.length ≤ 256 → q.length ≤ 256
  fuses : FuseLe s.sec.fuses u

/-- From s to t the queue is unchanged, and so on. -/
def Kept (s t : State) : Prop := KeptF s t.pending t.mem t.flash t.hif.held t.sec.fuses

theorem Kept.refl (s : State) : Kept s s := ⟨rfl, id, id, id, fun _ _ => id⟩

theorem Kept.trans {s t u : State} (h : Kept s t) (g : Kept t u) : Kept s u :=
  ⟨g.pending.trans h.pending, fun x => g.mem (h.mem x), fun x => g.flash (h.flash x), fun x => g.held (h.held x),
    fun k b x => g.fuses k b (h.fuses k b x)⟩

/-- A state written out keeps what its fields keep. -/
theorem Kept.mk_eq {s : State} {pending out now ptime ptRun free fields mem flash evq mbx seq clauses fab sch umem links fp load rim
    cap dbg noc hif mgt sec plt} :
    Kept s (State.mk pending out now ptime ptRun free fields mem flash evq mbx seq clauses fab sch umem links fp load rim cap dbg
      noc hif mgt sec plt) = KeptF s pending mem flash hif.held sec.fuses := rfl

theorem KeptF.of {s t : State} (h : Kept s t) : KeptF s t.pending t.mem t.flash t.hif.held t.sec.fuses := h

theorem Kept.ite {s a b : State} {c : Prop} [Decidable c] (ha : Kept s a) (hb : Kept s b) : Kept s (if c then a else b) := by
  split <;> assumption

theorem Kept.foldl {s t : State} {α : Type} {f : State → α → State} {l : List α}
    (hf : ∀ (t : State) (a : α), Kept s t → Kept s (f t a)) (h : Kept s t) : Kept s (l.foldl f t) := by
  induction l generalizing t with
  | nil => exact h
  | cons a l ih => exact ih (hf t a h)

/-- A fold that carries a value beside the state. -/
theorem Kept.foldl_of {s : State} {α β : Type} (g : β → State) {f : β → α → β} {l : List α}
    (hf : ∀ (t : β) (a : α), Kept s (g t) → Kept s (g (f t a))) {t : β} (h : Kept s (g t)) : Kept s (g (l.foldl f t)) := by
  induction l generalizing t with
  | nil => exact h
  | cons a l ih => exact ih (hf t a h)

theorem Kept.getD {s t : State} {o : Option State} (h : Kept s t) (ho : ∀ u, o = some u → Kept s u) :
    Kept s (o.getD t) := by
  cases o with
  | none => exact h
  | some u => exact ho u rfl

/-! ### The changes of the fields that `Kept` is about -/

theorem KeptF.filterMem {s t : State} (p : Host.Cell → Bool) (h : Kept s t) :
    KeptF s t.pending (t.mem.filter p) t.flash t.hif.held t.sec.fuses :=
  ⟨h.pending, fun x => memFilter_wf _ (h.mem x), h.flash, h.held, h.fuses⟩

theorem KeptF.dropMem {s t : State} (lo hi : Nat) (h : Kept s t) :
    KeptF s t.pending (kvDrop t.mem lo hi) t.flash t.hif.held t.sec.fuses := KeptF.filterMem _ h

theorem kvErase_mem {α : Type} {k : Nat} {e : Nat × α} {m : List (Nat × α)} (h : e ∈ kvErase m k) : e ∈ m := by
  induction m with
  | nil => cases h
  | cons x t ih =>
    simp only [kvErase] at h
    split at h
    · exact List.mem_cons_of_mem _ (ih h)
    · rcases List.mem_cons.1 h with h | h
      · exact h ▸ List.mem_cons_self
      · exact List.mem_cons_of_mem _ (ih h)

theorem kvInsert_mem {α : Type} {k : Nat} {v : α} {e : Nat × α} {m : List (Nat × α)} (h : e ∈ kvInsert m k v) :
    e = (k, v) ∨ e ∈ m := by
  induction m with
  | nil => exact Or.inl (by simpa [kvInsert] using h)
  | cons x t ih =>
    simp only [kvInsert] at h
    split at h
    · exact List.mem_cons.1 h
    · split at h
      · rcases List.mem_cons.1 h with h | h
        · exact Or.inl h
        · exact Or.inr (List.mem_cons_of_mem _ h)
      · rcases List.mem_cons.1 h with h | h
        · exact Or.inr (h ▸ List.mem_cons_self)
        · exact (ih h).imp id (List.mem_cons_of_mem _)

/-- A key listed after writes was listed before or is one of those written. -/
theorem kvSetAll_mem {α : Type} [DecidableEq α] {d : α} (ws : List (Nat × α)) {e : Nat × α} {m : List (Nat × α)}
    (h : e ∈ kvSetAll d m ws) : e ∈ ws ∨ e ∈ m := by
  unfold kvSetAll at h
  induction ws generalizing m with
  | nil => exact Or.inr h
  | cons w t ih =>
    rcases ih h with h | h
    · exact Or.inl (List.mem_cons_of_mem _ h)
    · have h : e ∈ kvSet d m w.1 w.2 := h
      unfold kvSet at h
      split at h
      · exact Or.inr (kvErase_mem h)
      · rcases kvInsert_mem h with h | h
        · exact Or.inl (h ▸ List.mem_cons_self)
        · exact Or.inr h

/-- Writes outside the golden image keep the flash in canonical form. -/
theorem flashWrite_wf (ws : List Host.Cell) {m : List Host.Cell} (h : Flash.wf m = true) :
    Flash.wf (kvSetAll 0xFF#8 m (ws.filter fun e => !isGolden e.1)) = true := by
  simp only [Flash.wf, Bool.and_eq_true, List.all_eq_true] at h ⊢
  refine ⟨kvSetAll_wf _ h.1, fun e he => ?_⟩
  rcases kvSetAll_mem _ he with he | he
  · exact (List.mem_filter.1 he).2
  · exact h.2 e he

/-- An erase keeps the flash in canonical form. -/
theorem flashErase_wf (lo hi : Nat) {m : List Host.Cell} (h : Flash.wf m = true) : Flash.wf (kvDrop m lo hi) = true := by
  simp only [Flash.wf, Bool.and_eq_true, List.all_eq_true] at h ⊢
  exact ⟨kvDrop_wf _ _ h.1, fun e he => h.2 e (List.mem_filter.1 he).1⟩

theorem memFold_wf {α : Type} (a : α → Nat) (b : α → Byte) (l : List α) {m : List Host.Cell} (h : Memory.wf m = true) :
    Memory.wf (l.foldl (fun m e => memPut m (a e) (b e)) m) = true := by
  induction l generalizing m with
  | nil => exact h
  | cons e l ih => exact ih (memPut_wf _ _ h)

theorem kvGet_kvErase {α : Type} (d : α) (m : List (Nat × α)) (k j : Nat) :
    kvGet d (kvErase m k) j = if j = k then d else kvGet d m j := by
  induction m with
  | nil => simp [kvErase, kvGet]
  | cons e t ih =>
    obtain ⟨a, v⟩ := e
    simp only [kvErase]
    by_cases hak : a = k
    · rw [if_pos hak, ih]
      by_cases hj : j = k
      · rw [if_pos hj, if_pos hj]
      · rw [if_neg hj, if_neg hj]
        simp only [kvGet]
        rw [if_neg (by omega)]
    · rw [if_neg hak]
      simp only [kvGet]
      by_cases haj : a = j
      · rw [if_pos haj, if_pos haj, if_neg (by omega)]
      · rw [if_neg haj, if_neg haj, ih]

theorem kvGet_kvInsert {α : Type} (d : α) (m : List (Nat × α)) (k j : Nat) (v : α) :
    kvGet d (kvInsert m k v) j = if j = k then v else kvGet d m j := by
  induction m with
  | nil =>
    simp only [kvInsert, kvGet]
    by_cases h : k = j
    · rw [if_pos h, if_pos h.symm]
    · rw [if_neg h, if_neg (fun x => h x.symm)]
  | cons e t ih =>
    obtain ⟨a, w⟩ := e
    simp only [kvInsert]
    by_cases h1 : k < a
    · rw [if_pos h1]
      show (if k = j then v else kvGet d ((a, w) :: t) j) = if j = k then v else kvGet d ((a, w) :: t) j
      by_cases h : k = j
      · rw [if_pos h, if_pos h.symm]
      · rw [if_neg h, if_neg (fun x => h x.symm)]
    · rw [if_neg h1]
      by_cases h2 : a = k
      · rw [if_pos h2]
        simp only [kvGet]
        by_cases h : k = j
        · rw [if_pos h, if_pos h.symm]
        · rw [if_neg h, if_neg (fun x => h x.symm), if_neg (by omega)]
      · rw [if_neg h2]
        simp only [kvGet]
        by_cases haj : a = j
        · rw [if_pos haj, if_pos haj, if_neg (by omega)]
        · rw [if_neg haj, if_neg haj, ih]

/-- What a key reads as after a write: the value written, or what it read before. -/
theorem kvGet_kvSet {α : Type} [DecidableEq α] (d : α) (m : List (Nat × α)) (k j : Nat) (v : α) :
    kvGet d (kvSet d m k v) j = if j = k then v else kvGet d m j := by
  unfold kvSet
  split
  · rename_i h
    rw [kvGet_kvErase, h]
  · exact kvGet_kvInsert d m k j v

theorem KeptF.setFuse {s t : State} (k : Nat) (v : Word) (h : Kept s t) :
    KeptF s t.pending t.mem t.flash t.hif.held (kvSet (fuseDflt k) t.sec.fuses k (t.fuseWord k ||| v)) := by
  refine ⟨h.pending, h.mem, h.flash, h.held, fun j b x => ?_⟩
  have hx := h.fuses j b x
  unfold fuseGet at hx ⊢
  by_cases hj : j = k
  · subst hj
    rw [kvGet_kvSet, if_pos rfl]
    simp only [State.fuseWord, BitVec.getLsbD_or, hx, Bool.true_or]
  · have : ∀ d : Word, kvGet d (kvSet (fuseDflt k) t.sec.fuses k (t.fuseWord k ||| v)) j = kvGet d t.sec.fuses j := by
      intro d
      unfold kvSet
      split
      · rw [kvGet_kvErase, if_neg hj]
      · rw [kvGet_kvInsert, if_neg hj]
    rw [this]
    exact hx

theorem exc_map {α β ε : Type} {f : α → β} {x : Except ε α} {u : β} (e : Except.map f x = .ok u) : ∃ y, x = .ok y ∧ f y = u := by
  cases x with
  | error k => cases e
  | ok y => exact ⟨y, rfl, by cases e; rfl⟩

theorem bind_opt {α β : Type} {o : Option α} {f : α → Option β} {b : β} (e : o.bind f = some b) : ∃ a, o = some a ∧ f a = some b := by
  cases o with
  | none => cases e
  | some a => exact ⟨a, rfl, e⟩

theorem ok_kept {β : Type} {s u : State} {x : β × State} {v : β} (e : (Except.ok x : Except Fault (β × State)) = .ok (v, u))
    (h : Kept s x.2) : Kept s u := by
  cases e
  exact h

theorem some_kept {β : Type} {s u : State} {x : β × State} {v : β} (e : some x = some (v, u)) (h : Kept s x.2) : Kept s u := by
  cases e
  exact h

end Sys2Proof.Machine
end

