-- ==== Sys2Proof/Laws/State.lean ====
section
/-! SUPPORT. State.lean: what each update of the state leaves as it is, field by field, and what it writes. -/
set_option Elab.async false
namespace Sys2Proof.Machine

/-! ### Register fields -/

/-- A field reads as it was written, cut to its width. -/
@[simp] theorem State.fget_fset_same (s : State) (f : Fld) (v : Nat) : (s.fset f v).fget f = v % 2 ^ f.width := by
  simp only [State.fget, State.fset, kvGet_kvSet, if_pos]

theorem kvGet_kvSet_ne {α : Type} [DecidableEq α] (d e : α) (m : List (Nat × α)) {k j : Nat} (v : α) (h : j ≠ k) :
    kvGet d (kvSet e m k v) j = kvGet d m j := by
  unfold kvSet
  split
  · rw [kvGet_kvErase, if_neg h]
  · rw [kvGet_kvInsert, if_neg h]

/-- A write of another field leaves a field as it is. -/
theorem State.fget_fset_ne (s : State) {f g : Fld} (v : Nat) (h : g.key ≠ f.key) : (s.fset f v).fget g = s.fget g :=
  kvGet_kvSet_ne _ _ _ _ h

theorem State.fget_fsetb_ne (s : State) {f g : Fld} (b : Bool) (h : g.key ≠ f.key) : (s.fsetb f b).fget g = s.fget g :=
  s.fget_fset_ne _ h

theorem State.fget_count_ne (s : State) {f g : Fld} (h : g.key ≠ f.key) : (s.count f).fget g = s.fget g := s.fget_fset_ne _ h

/-- Raising an event writes its event bit and no other field. -/
theorem State.fields_raise (s : State) (f : Fld) (a b : Nat) (p : List Nat) : (s.raise f a b p).fields = (s.fset f 1).fields := by
  unfold State.raise State.raiseAt
  dsimp only
  split <;> rfl

theorem State.fget_raise (s : State) (f g : Fld) (a b : Nat) (p : List Nat) : (s.raise f a b p).fget g = (s.fset f 1).fget g := by
  unfold State.fget
  rw [State.fields_raise]

theorem State.fget_raise_ne (s : State) {f g : Fld} (a b : Nat) (p : List Nat) (h : g.key ≠ f.key) :
    (s.raise f a b p).fget g = s.fget g := by
  rw [State.fget_raise, State.fget_fset_ne _ _ h]

/-- While its enable bit is 1 an event posts one record with the present step and platform time (R494, R612). -/
theorem State.evq_raise_on (s : State) (f : Fld) (a b : Nat) (p : List Nat) (h : s.fbit (evten f) = true) :
    (s.raise f a b p).evq = s.evq ++ [{ src := a, code := b, payload := p, step := s.seq.step, time := s.ptime }] := by
  unfold State.raise State.raiseAt
  dsimp only
  rw [if_pos h]
  rfl

/-- While its enable bit is 0 an event posts nothing (R612). -/
theorem State.evq_raise_off (s : State) (f : Fld) (a b : Nat) (p : List Nat) (h : s.fbit (evten f) = false) :
    (s.raise f a b p).evq = s.evq := by
  unfold State.raise State.raiseAt
  dsimp only
  rw [if_neg (by rw [h]; decide)]
  rfl

/-! ### Instances -/

@[simp] theorem State.clause_modClause_same (s : State) (k : Nat) (g : Clause → Clause) : (s.modClause k g).clause k = g (s.clause k) := by
  simp [State.modClause, State.clause, State.setClause, kvGet_kvSet]

theorem State.clause_modClause_ne (s : State) {j k : Nat} (g : Clause → Clause) (h : j ≠ k) : (s.modClause k g).clause j = s.clause j :=
  kvGet_kvSet_ne _ _ _ _ h

@[simp] theorem State.link_modLink_same (s : State) (k : Nat) (g : Lnk → Lnk) : (s.modLink k g).link k = g (s.link k) := by
  simp [State.modLink, State.link, State.setLink, kvGet_kvSet]

theorem State.link_modLink_ne (s : State) {j k : Nat} (g : Lnk → Lnk) (h : j ≠ k) : (s.modLink k g).link j = s.link j :=
  kvGet_kvSet_ne _ _ _ _ h

@[simp] theorem State.conn_modConn_same (s : State) (k : Nat) (g : Conn → Conn) : (s.modConn k g).conn k = g (s.conn k) := by
  simp [State.modConn, State.conn, kvGet_kvSet]

theorem State.conn_modConn_ne (s : State) {j k : Nat} (g : Conn → Conn) (h : j ≠ k) : (s.modConn k g).conn j = s.conn j :=
  kvGet_kvSet_ne _ _ _ _ h

@[simp] theorem State.group_modGroup_same (s : State) (k : Nat) (g : RimGroup → RimGroup) : (s.modGroup k g).group k = g (s.group k) := by
  simp [State.modGroup, State.group, kvGet_kvSet]

theorem State.group_modGroup_ne (s : State) {j k : Nat} (g : RimGroup → RimGroup) (h : j ≠ k) : (s.modGroup k g).group j = s.group j :=
  kvGet_kvSet_ne _ _ _ _ h

@[simp] theorem State.bank_modBank_same (s : State) (k : Nat) (g : Bank → Bank) : (s.modBank k g).bank k = g (s.bank k) := by
  simp [State.modBank, State.bank, kvGet_kvSet]

theorem State.bank_modBank_ne (s : State) {j k : Nat} (g : Bank → Bank) (h : j ≠ k) : (s.modBank k g).bank j = s.bank j :=
  kvGet_kvSet_ne _ _ _ _ h

@[simp] theorem State.unit_modUnit_same (s : State) (k : Nat) (g : Tu → Tu) : (s.modUnit k g).unit k = g (s.unit k) := by
  simp [State.modUnit, State.unit, kvGet_kvSet]

theorem State.unit_modUnit_ne (s : State) {j k : Nat} (g : Tu → Tu) (h : j ≠ k) : (s.modUnit k g).unit j = s.unit j :=
  kvGet_kvSet_ne _ _ _ _ h

@[simp] theorem State.pair_modPair_same (s : State) (k : Nat) (g : Pair → Pair) : (s.modPair k g).pair k = g (s.pair k) := by
  simp [State.modPair, State.pair, kvGet_kvSet]

theorem State.pair_modPair_ne (s : State) {j k : Nat} (g : Pair → Pair) (h : j ≠ k) : (s.modPair k g).pair j = s.pair j :=
  kvGet_kvSet_ne _ _ _ _ h

@[simp] theorem State.dmaCh_modDma_same (s : State) (k : Nat) (g : Dma → Dma) : (s.modDma k g).dmaCh k = g (s.dmaCh k) := by
  simp [State.modDma, State.dmaCh, kvGet_kvSet]

theorem State.dmaCh_modDma_ne (s : State) {j k : Nat} (g : Dma → Dma) (h : j ≠ k) : (s.modDma k g).dmaCh j = s.dmaCh j :=
  kvGet_kvSet_ne _ _ _ _ h

@[simp] theorem State.ring_modRing_same (s : State) (k : Nat) (g : Ring → Ring) : (s.modRing k g).ring k = g (s.ring k) := by
  simp [State.modRing, State.ring, kvGet_kvSet]

theorem State.ring_modRing_ne (s : State) {j k : Nat} (g : Ring → Ring) (h : j ≠ k) : (s.modRing k g).ring j = s.ring j :=
  kvGet_kvSet_ne _ _ _ _ h

/-! ### Frames of the updates -/

@[simp] theorem State.pending_fset (s : State) (f : Fld) (v : Nat) : (s.fset f v).pending = s.pending := rfl
@[simp] theorem State.out_fset (s : State) (f : Fld) (v : Nat) : (s.fset f v).out = s.out := rfl
@[simp] theorem State.now_fset (s : State) (f : Fld) (v : Nat) : (s.fset f v).now = s.now := rfl
@[simp] theorem State.ptime_fset (s : State) (f : Fld) (v : Nat) : (s.fset f v).ptime = s.ptime := rfl
@[simp] theorem State.ptRun_fset (s : State) (f : Fld) (v : Nat) : (s.fset f v).ptRun = s.ptRun := rfl
@[simp] theorem State.free_fset (s : State) (f : Fld) (v : Nat) : (s.fset f v).free = s.free := rfl
@[simp] theorem State.mem_fset (s : State) (f : Fld) (v : Nat) : (s.fset f v).mem = s.mem := rfl
@[simp] theorem State.flash_fset (s : State) (f : Fld) (v : Nat) : (s.fset f v).flash = s.flash := rfl
@[simp] theorem State.evq_fset (s : State) (f : Fld) (v : Nat) : (s.fset f v).evq = s.evq := rfl
@[simp] theorem State.mbx_fset (s : State) (f : Fld) (v : Nat) : (s.fset f v).mbx = s.mbx := rfl
@[simp] theorem State.seq_fset (s : State) (f : Fld) (v : Nat) : (s.fset f v).seq = s.seq := rfl
@[simp] theorem State.clauses_fset (s : State) (f : Fld) (v : Nat) : (s.fset f v).clauses = s.clauses := rfl
@[simp] theorem State.fab_fset (s : State) (f : Fld) (v : Nat) : (s.fset f v).fab = s.fab := rfl
@[simp] theorem State.sch_fset (s : State) (f : Fld) (v : Nat) : (s.fset f v).sch = s.sch := rfl
@[simp] theorem State.umem_fset (s : State) (f : Fld) (v : Nat) : (s.fset f v).umem = s.umem := rfl
@[simp] theorem State.links_fset (s : State) (f : Fld) (v : Nat) : (s.fset f v).links = s.links := rfl
@[simp] theorem State.fp_fset (s : State) (f : Fld) (v : Nat) : (s.fset f v).fp = s.fp := rfl
@[simp] theorem State.load_fset (s : State) (f : Fld) (v : Nat) : (s.fset f v).load = s.load := rfl
@[simp] theorem State.rim_fset (s : State) (f : Fld) (v : Nat) : (s.fset f v).rim = s.rim := rfl
@[simp] theorem State.cap_fset (s : State) (f : Fld) (v : Nat) : (s.fset f v).cap = s.cap := rfl
@[simp] theorem State.dbg_fset (s : State) (f : Fld) (v : Nat) : (s.fset f v).dbg = s.dbg := rfl
@[simp] theorem State.noc_fset (s : State) (f : Fld) (v : Nat) : (s.fset f v).noc = s.noc := rfl
@[simp] theorem State.hif_fset (s : State) (f : Fld) (v : Nat) : (s.fset f v).hif = s.hif := rfl
@[simp] theorem State.mgt_fset (s : State) (f : Fld) (v : Nat) : (s.fset f v).mgt = s.mgt := rfl
@[simp] theorem State.sec_fset (s : State) (f : Fld) (v : Nat) : (s.fset f v).sec = s.sec := rfl
@[simp] theorem State.plt_fset (s : State) (f : Fld) (v : Nat) : (s.fset f v).plt = s.plt := rfl

@[simp] theorem State.pending_fsetb (s : State) (f : Fld) (b : Bool) : (s.fsetb f b).pending = s.pending := rfl
@[simp] theorem State.out_fsetb (s : State) (f : Fld) (b : Bool) : (s.fsetb f b).out = s.out := rfl
@[simp] theorem State.now_fsetb (s : State) (f : Fld) (b : Bool) : (s.fsetb f b).now = s.now := rfl
@[simp] theorem State.ptime_fsetb (s : State) (f : Fld) (b : Bool) : (s.fsetb f b).ptime = s.ptime := rfl
@[simp] theorem State.ptRun_fsetb (s : State) (f : Fld) (b : Bool) : (s.fsetb f b).ptRun = s.ptRun := rfl
@[simp] theorem State.free_fsetb (s : State) (f : Fld) (b : Bool) : (s.fsetb f b).free = s.free := rfl
@[simp] theorem State.mem_fsetb (s : State) (f : Fld) (b : Bool) : (s.fsetb f b).mem = s.mem := rfl
@[simp] theorem State.flash_fsetb (s : State) (f : Fld) (b : Bool) : (s.fsetb f b).flash = s.flash := rfl
@[simp] theorem State.evq_fsetb (s : State) (f : Fld) (b : Bool) : (s.fsetb f b).evq = s.evq := rfl
@[simp] theorem State.mbx_fsetb (s : State) (f : Fld) (b : Bool) : (s.fsetb f b).mbx = s.mbx := rfl
@[simp] theorem State.seq_fsetb (s : State) (f : Fld) (b : Bool) : (s.fsetb f b).seq = s.seq := rfl
@[simp] theorem State.clauses_fsetb (s : State) (f : Fld) (b : Bool) : (s.fsetb f b).clauses = s.clauses := rfl
@[simp] theorem State.fab_fsetb (s : State) (f : Fld) (b : Bool) : (s.fsetb f b).fab = s.fab := rfl
@[simp] theorem State.sch_fsetb (s : State) (f : Fld) (b : Bool) : (s.fsetb f b).sch = s.sch := rfl
@[simp] theorem State.umem_fsetb (s : State) (f : Fld) (b : Bool) : (s.fsetb f b).umem = s.umem := rfl
@[simp] theorem State.links_fsetb (s : State) (f : Fld) (b : Bool) : (s.fsetb f b).links = s.links := rfl
@[simp] theorem State.fp_fsetb (s : State) (f : Fld) (b : Bool) : (s.fsetb f b).fp = s.fp := rfl
@[simp] theorem State.load_fsetb (s : State) (f : Fld) (b : Bool) : (s.fsetb f b).load = s.load := rfl
@[simp] theorem State.rim_fsetb (s : State) (f : Fld) (b : Bool) : (s.fsetb f b).rim = s.rim := rfl
@[simp] theorem State.cap_fsetb (s : State) (f : Fld) (b : Bool) : (s.fsetb f b).cap = s.cap := rfl
@[simp] theorem State.dbg_fsetb (s : State) (f : Fld) (b : Bool) : (s.fsetb f b).dbg = s.dbg := rfl
@[simp] theorem State.noc_fsetb (s : State) (f : Fld) (b : Bool) : (s.fsetb f b).noc = s.noc := rfl
@[simp] theorem State.hif_fsetb (s : State) (f : Fld) (b : Bool) : (s.fsetb f b).hif = s.hif := rfl
@[simp] theorem State.mgt_fsetb (s : State) (f : Fld) (b : Bool) : (s.fsetb f b).mgt = s.mgt := rfl
@[simp] theorem State.sec_fsetb (s : State) (f : Fld) (b : Bool) : (s.fsetb f b).sec = s.sec := rfl
@[simp] theorem State.plt_fsetb (s : State) (f : Fld) (b : Bool) : (s.fsetb f b).plt = s.plt := rfl

@[simp] theorem State.pending_count (s : State) (f : Fld) : (s.count f).pending = s.pending := rfl
@[simp] theorem State.out_count (s : State) (f : Fld) : (s.count f).out = s.out := rfl
@[simp] theorem State.now_count (s : State) (f : Fld) : (s.count f).now = s.now := rfl
@[simp] theorem State.ptime_count (s : State) (f : Fld) : (s.count f).ptime = s.ptime := rfl
@[simp] theorem State.ptRun_count (s : State) (f : Fld) : (s.count f).ptRun = s.ptRun := rfl
@[simp] theorem State.free_count (s : State) (f : Fld) : (s.count f).free = s.free := rfl
@[simp] theorem State.mem_count (s : State) (f : Fld) : (s.count f).mem = s.mem := rfl
@[simp] theorem State.flash_count (s : State) (f : Fld) : (s.count f).flash = s.flash := rfl
@[simp] theorem State.evq_count (s : State) (f : Fld) : (s.count f).evq = s.evq := rfl
@[simp] theorem State.mbx_count (s : State) (f : Fld) : (s.count f).mbx = s.mbx := rfl
@[simp] theorem State.seq_count (s : State) (f : Fld) : (s.count f).seq = s.seq := rfl
@[simp] theorem State.clauses_count (s : State) (f : Fld) : (s.count f).clauses = s.clauses := rfl
@[simp] theorem State.fab_count (s : State) (f : Fld) : (s.count f).fab = s.fab := rfl
@[simp] theorem State.sch_count (s : State) (f : Fld) : (s.count f).sch = s.sch := rfl
@[simp] theorem State.umem_count (s : State) (f : Fld) : (s.count f).umem = s.umem := rfl
@[simp] theorem State.links_count (s : State) (f : Fld) : (s.count f).links = s.links := rfl
@[simp] theorem State.fp_count (s : State) (f : Fld) : (s.count f).fp = s.fp := rfl
@[simp] theorem State.load_count (s : State) (f : Fld) : (s.count f).load = s.load := rfl
@[simp] theorem State.rim_count (s : State) (f : Fld) : (s.count f).rim = s.rim := rfl
@[simp] theorem State.cap_count (s : State) (f : Fld) : (s.count f).cap = s.cap := rfl
@[simp] theorem State.dbg_count (s : State) (f : Fld) : (s.count f).dbg = s.dbg := rfl
@[simp] theorem State.noc_count (s : State) (f : Fld) : (s.count f).noc = s.noc := rfl
@[simp] theorem State.hif_count (s : State) (f : Fld) : (s.count f).hif = s.hif := rfl
@[simp] theorem State.mgt_count (s : State) (f : Fld) : (s.count f).mgt = s.mgt := rfl
@[simp] theorem State.sec_count (s : State) (f : Fld) : (s.count f).sec = s.sec := rfl
@[simp] theorem State.plt_count (s : State) (f : Fld) : (s.count f).plt = s.plt := rfl

@[simp] theorem State.pending_countBy (s : State) (f : Fld) (n : Nat) : (s.countBy f n).pending = s.pending := rfl
@[simp] theorem State.out_countBy (s : State) (f : Fld) (n : Nat) : (s.countBy f n).out = s.out := rfl
@[simp] theorem State.now_countBy (s : State) (f : Fld) (n : Nat) : (s.countBy f n).now = s.now := rfl
@[simp] theorem State.ptime_countBy (s : State) (f : Fld) (n : Nat) : (s.countBy f n).ptime = s.ptime := rfl
@[simp] theorem State.ptRun_countBy (s : State) (f : Fld) (n : Nat) : (s.countBy f n).ptRun = s.ptRun := rfl
@[simp] theorem State.free_countBy (s : State) (f : Fld) (n : Nat) : (s.countBy f n).free = s.free := rfl
@[simp] theorem State.mem_countBy (s : State) (f : Fld) (n : Nat) : (s.countBy f n).mem = s.mem := rfl
@[simp] theorem State.flash_countBy (s : State) (f : Fld) (n : Nat) : (s.countBy f n).flash = s.flash := rfl
@[simp] theorem State.evq_countBy (s : State) (f : Fld) (n : Nat) : (s.countBy f n).evq = s.evq := rfl
@[simp] theorem State.mbx_countBy (s : State) (f : Fld) (n : Nat) : (s.countBy f n).mbx = s.mbx := rfl
@[simp] theorem State.seq_countBy (s : State) (f : Fld) (n : Nat) : (s.countBy f n).seq = s.seq := rfl
@[simp] theorem State.clauses_countBy (s : State) (f : Fld) (n : Nat) : (s.countBy f n).clauses = s.clauses := rfl
@[simp] theorem State.fab_countBy (s : State) (f : Fld) (n : Nat) : (s.countBy f n).fab = s.fab := rfl
@[simp] theorem State.sch_countBy (s : State) (f : Fld) (n : Nat) : (s.countBy f n).sch = s.sch := rfl
@[simp] theorem State.umem_countBy (s : State) (f : Fld) (n : Nat) : (s.countBy f n).umem = s.umem := rfl
@[simp] theorem State.links_countBy (s : State) (f : Fld) (n : Nat) : (s.countBy f n).links = s.links := rfl
@[simp] theorem State.fp_countBy (s : State) (f : Fld) (n : Nat) : (s.countBy f n).fp = s.fp := rfl
@[simp] theorem State.load_countBy (s : State) (f : Fld) (n : Nat) : (s.countBy f n).load = s.load := rfl
@[simp] theorem State.rim_countBy (s : State) (f : Fld) (n : Nat) : (s.countBy f n).rim = s.rim := rfl
@[simp] theorem State.cap_countBy (s : State) (f : Fld) (n : Nat) : (s.countBy f n).cap = s.cap := rfl
@[simp] theorem State.dbg_countBy (s : State) (f : Fld) (n : Nat) : (s.countBy f n).dbg = s.dbg := rfl
@[simp] theorem State.noc_countBy (s : State) (f : Fld) (n : Nat) : (s.countBy f n).noc = s.noc := rfl
@[simp] theorem State.hif_countBy (s : State) (f : Fld) (n : Nat) : (s.countBy f n).hif = s.hif := rfl
@[simp] theorem State.mgt_countBy (s : State) (f : Fld) (n : Nat) : (s.countBy f n).mgt = s.mgt := rfl
@[simp] theorem State.sec_countBy (s : State) (f : Fld) (n : Nat) : (s.countBy f n).sec = s.sec := rfl
@[simp] theorem State.plt_countBy (s : State) (f : Fld) (n : Nat) : (s.countBy f n).plt = s.plt := rfl

@[simp] theorem State.pending_raise (s : State) (f : Fld) (a b : Nat) (p : List Nat) : (s.raise f a b p).pending = s.pending := by
  unfold State.raise State.raiseAt; dsimp only; split <;> rfl
@[simp] theorem State.out_raise (s : State) (f : Fld) (a b : Nat) (p : List Nat) : (s.raise f a b p).out = s.out := by
  unfold State.raise State.raiseAt; dsimp only; split <;> rfl
@[simp] theorem State.now_raise (s : State) (f : Fld) (a b : Nat) (p : List Nat) : (s.raise f a b p).now = s.now := by
  unfold State.raise State.raiseAt; dsimp only; split <;> rfl
@[simp] theorem State.ptime_raise (s : State) (f : Fld) (a b : Nat) (p : List Nat) : (s.raise f a b p).ptime = s.ptime := by
  unfold State.raise State.raiseAt; dsimp only; split <;> rfl
@[simp] theorem State.ptRun_raise (s : State) (f : Fld) (a b : Nat) (p : List Nat) : (s.raise f a b p).ptRun = s.ptRun := by
  unfold State.raise State.raiseAt; dsimp only; split <;> rfl
@[simp] theorem State.free_raise (s : State) (f : Fld) (a b : Nat) (p : List Nat) : (s.raise f a b p).free = s.free := by
  unfold State.raise State.raiseAt; dsimp only; split <;> rfl
@[simp] theorem State.mem_raise (s : State) (f : Fld) (a b : Nat) (p : List Nat) : (s.raise f a b p).mem = s.mem := by
  unfold State.raise State.raiseAt; dsimp only; split <;> rfl
@[simp] theorem State.flash_raise (s : State) (f : Fld) (a b : Nat) (p : List Nat) : (s.raise f a b p).flash = s.flash := by
  unfold State.raise State.raiseAt; dsimp only; split <;> rfl
@[simp] theorem State.mbx_raise (s : State) (f : Fld) (a b : Nat) (p : List Nat) : (s.raise f a b p).mbx = s.mbx := by
  unfold State.raise State.raiseAt; dsimp only; split <;> rfl
@[simp] theorem State.seq_raise (s : State) (f : Fld) (a b : Nat) (p : List Nat) : (s.raise f a b p).seq = s.seq := by
  unfold State.raise State.raiseAt; dsimp only; split <;> rfl
@[simp] theorem State.clauses_raise (s : State) (f : Fld) (a b : Nat) (p : List Nat) : (s.raise f a b p).clauses = s.clauses := by
  unfold State.raise State.raiseAt; dsimp only; split <;> rfl
@[simp] theorem State.fab_raise (s : State) (f : Fld) (a b : Nat) (p : List Nat) : (s.raise f a b p).fab = s.fab := by
  unfold State.raise State.raiseAt; dsimp only; split <;> rfl
@[simp] theorem State.sch_raise (s : State) (f : Fld) (a b : Nat) (p : List Nat) : (s.raise f a b p).sch = s.sch := by
  unfold State.raise State.raiseAt; dsimp only; split <;> rfl
@[simp] theorem State.umem_raise (s : State) (f : Fld) (a b : Nat) (p : List Nat) : (s.raise f a b p).umem = s.umem := by
  unfold State.raise State.raiseAt; dsimp only; split <;> rfl
@[simp] theorem State.links_raise (s : State) (f : Fld) (a b : Nat) (p : List Nat) : (s.raise f a b p).links = s.links := by
  unfold State.raise State.raiseAt; dsimp only; split <;> rfl
@[simp] theorem State.fp_raise (s : State) (f : Fld) (a b : Nat) (p : List Nat) : (s.raise f a b p).fp = s.fp := by
  unfold State.raise State.raiseAt; dsimp only; split <;> rfl
@[simp] theorem State.load_raise (s : State) (f : Fld) (a b : Nat) (p : List Nat) : (s.raise f a b p).load = s.load := by
  unfold State.raise State.raiseAt; dsimp only; split <;> rfl
@[simp] theorem State.rim_raise (s : State) (f : Fld) (a b : Nat) (p : List Nat) : (s.raise f a b p).rim = s.rim := by
  unfold State.raise State.raiseAt; dsimp only; split <;> rfl
@[simp] theorem State.cap_raise (s : State) (f : Fld) (a b : Nat) (p : List Nat) : (s.raise f a b p).cap = s.cap := by
  unfold State.raise State.raiseAt; dsimp only; split <;> rfl
@[simp] theorem State.dbg_raise (s : State) (f : Fld) (a b : Nat) (p : List Nat) : (s.raise f a b p).dbg = s.dbg := by
  unfold State.raise State.raiseAt; dsimp only; split <;> rfl
@[simp] theorem State.noc_raise (s : State) (f : Fld) (a b : Nat) (p : List Nat) : (s.raise f a b p).noc = s.noc := by
  unfold State.raise State.raiseAt; dsimp only; split <;> rfl
@[simp] theorem State.hif_raise (s : State) (f : Fld) (a b : Nat) (p : List Nat) : (s.raise f a b p).hif = s.hif := by
  unfold State.raise State.raiseAt; dsimp only; split <;> rfl
@[simp] theorem State.mgt_raise (s : State) (f : Fld) (a b : Nat) (p : List Nat) : (s.raise f a b p).mgt = s.mgt := by
  unfold State.raise State.raiseAt; dsimp only; split <;> rfl
@[simp] theorem State.sec_raise (s : State) (f : Fld) (a b : Nat) (p : List Nat) : (s.raise f a b p).sec = s.sec := by
  unfold State.raise State.raiseAt; dsimp only; split <;> rfl
@[simp] theorem State.plt_raise (s : State) (f : Fld) (a b : Nat) (p : List Nat) : (s.raise f a b p).plt = s.plt := by
  unfold State.raise State.raiseAt; dsimp only; split <;> rfl

@[simp] theorem State.pending_emit (s : State) (e : Emit) : (s.emit e).pending = s.pending := rfl
@[simp] theorem State.now_emit (s : State) (e : Emit) : (s.emit e).now = s.now := rfl
@[simp] theorem State.ptime_emit (s : State) (e : Emit) : (s.emit e).ptime = s.ptime := rfl
@[simp] theorem State.ptRun_emit (s : State) (e : Emit) : (s.emit e).ptRun = s.ptRun := rfl
@[simp] theorem State.free_emit (s : State) (e : Emit) : (s.emit e).free = s.free := rfl
@[simp] theorem State.fields_emit (s : State) (e : Emit) : (s.emit e).fields = s.fields := rfl
@[simp] theorem State.mem_emit (s : State) (e : Emit) : (s.emit e).mem = s.mem := rfl
@[simp] theorem State.flash_emit (s : State) (e : Emit) : (s.emit e).flash = s.flash := rfl
@[simp] theorem State.evq_emit (s : State) (e : Emit) : (s.emit e).evq = s.evq := rfl
@[simp] theorem State.mbx_emit (s : State) (e : Emit) : (s.emit e).mbx = s.mbx := rfl
@[simp] theorem State.seq_emit (s : State) (e : Emit) : (s.emit e).seq = s.seq := rfl
@[simp] theorem State.clauses_emit (s : State) (e : Emit) : (s.emit e).clauses = s.clauses := rfl
@[simp] theorem State.fab_emit (s : State) (e : Emit) : (s.emit e).fab = s.fab := rfl
@[simp] theorem State.sch_emit (s : State) (e : Emit) : (s.emit e).sch = s.sch := rfl
@[simp] theorem State.umem_emit (s : State) (e : Emit) : (s.emit e).umem = s.umem := rfl
@[simp] theorem State.links_emit (s : State) (e : Emit) : (s.emit e).links = s.links := rfl
@[simp] theorem State.fp_emit (s : State) (e : Emit) : (s.emit e).fp = s.fp := rfl
@[simp] theorem State.load_emit (s : State) (e : Emit) : (s.emit e).load = s.load := rfl
@[simp] theorem State.rim_emit (s : State) (e : Emit) : (s.emit e).rim = s.rim := rfl
@[simp] theorem State.cap_emit (s : State) (e : Emit) : (s.emit e).cap = s.cap := rfl
@[simp] theorem State.dbg_emit (s : State) (e : Emit) : (s.emit e).dbg = s.dbg := rfl
@[simp] theorem State.noc_emit (s : State) (e : Emit) : (s.emit e).noc = s.noc := rfl
@[simp] theorem State.hif_emit (s : State) (e : Emit) : (s.emit e).hif = s.hif := rfl
@[simp] theorem State.mgt_emit (s : State) (e : Emit) : (s.emit e).mgt = s.mgt := rfl
@[simp] theorem State.sec_emit (s : State) (e : Emit) : (s.emit e).sec = s.sec := rfl
@[simp] theorem State.plt_emit (s : State) (e : Emit) : (s.emit e).plt = s.plt := rfl

@[simp] theorem State.pending_modClause (s : State) (c : Nat) (g : Clause → Clause) : (s.modClause c g).pending = s.pending := rfl
@[simp] theorem State.out_modClause (s : State) (c : Nat) (g : Clause → Clause) : (s.modClause c g).out = s.out := rfl
@[simp] theorem State.now_modClause (s : State) (c : Nat) (g : Clause → Clause) : (s.modClause c g).now = s.now := rfl
@[simp] theorem State.ptime_modClause (s : State) (c : Nat) (g : Clause → Clause) : (s.modClause c g).ptime = s.ptime := rfl
@[simp] theorem State.ptRun_modClause (s : State) (c : Nat) (g : Clause → Clause) : (s.modClause c g).ptRun = s.ptRun := rfl
@[simp] theorem State.free_modClause (s : State) (c : Nat) (g : Clause → Clause) : (s.modClause c g).free = s.free := rfl
@[simp] theorem State.fields_modClause (s : State) (c : Nat) (g : Clause → Clause) : (s.modClause c g).fields = s.fields := rfl
@[simp] theorem State.mem_modClause (s : State) (c : Nat) (g : Clause → Clause) : (s.modClause c g).mem = s.mem := rfl
@[simp] theorem State.flash_modClause (s : State) (c : Nat) (g : Clause → Clause) : (s.modClause c g).flash = s.flash := rfl
@[simp] theorem State.evq_modClause (s : State) (c : Nat) (g : Clause → Clause) : (s.modClause c g).evq = s.evq := rfl
@[simp] theorem State.mbx_modClause (s : State) (c : Nat) (g : Clause → Clause) : (s.modClause c g).mbx = s.mbx := rfl
@[simp] theorem State.seq_modClause (s : State) (c : Nat) (g : Clause → Clause) : (s.modClause c g).seq = s.seq := rfl
@[simp] theorem State.fab_modClause (s : State) (c : Nat) (g : Clause → Clause) : (s.modClause c g).fab = s.fab := rfl
@[simp] theorem State.sch_modClause (s : State) (c : Nat) (g : Clause → Clause) : (s.modClause c g).sch = s.sch := rfl
@[simp] theorem State.umem_modClause (s : State) (c : Nat) (g : Clause → Clause) : (s.modClause c g).umem = s.umem := rfl
@[simp] theorem State.links_modClause (s : State) (c : Nat) (g : Clause → Clause) : (s.modClause c g).links = s.links := rfl
@[simp] theorem State.fp_modClause (s : State) (c : Nat) (g : Clause → Clause) : (s.modClause c g).fp = s.fp := rfl
@[simp] theorem State.load_modClause (s : State) (c : Nat) (g : Clause → Clause) : (s.modClause c g).load = s.load := rfl
@[simp] theorem State.rim_modClause (s : State) (c : Nat) (g : Clause → Clause) : (s.modClause c g).rim = s.rim := rfl
@[simp] theorem State.cap_modClause (s : State) (c : Nat) (g : Clause → Clause) : (s.modClause c g).cap = s.cap := rfl
@[simp] theorem State.dbg_modClause (s : State) (c : Nat) (g : Clause → Clause) : (s.modClause c g).dbg = s.dbg := rfl
@[simp] theorem State.noc_modClause (s : State) (c : Nat) (g : Clause → Clause) : (s.modClause c g).noc = s.noc := rfl
@[simp] theorem State.hif_modClause (s : State) (c : Nat) (g : Clause → Clause) : (s.modClause c g).hif = s.hif := rfl
@[simp] theorem State.mgt_modClause (s : State) (c : Nat) (g : Clause → Clause) : (s.modClause c g).mgt = s.mgt := rfl
@[simp] theorem State.sec_modClause (s : State) (c : Nat) (g : Clause → Clause) : (s.modClause c g).sec = s.sec := rfl
@[simp] theorem State.plt_modClause (s : State) (c : Nat) (g : Clause → Clause) : (s.modClause c g).plt = s.plt := rfl

@[simp] theorem State.pending_modLink (s : State) (l : Nat) (g : Lnk → Lnk) : (s.modLink l g).pending = s.pending := rfl
@[simp] theorem State.out_modLink (s : State) (l : Nat) (g : Lnk → Lnk) : (s.modLink l g).out = s.out := rfl
@[simp] theorem State.now_modLink (s : State) (l : Nat) (g : Lnk → Lnk) : (s.modLink l g).now = s.now := rfl
@[simp] theorem State.ptime_modLink (s : State) (l : Nat) (g : Lnk → Lnk) : (s.modLink l g).ptime = s.ptime := rfl
@[simp] theorem State.ptRun_modLink (s : State) (l : Nat) (g : Lnk → Lnk) : (s.modLink l g).ptRun = s.ptRun := rfl
@[simp] theorem State.free_modLink (s : State) (l : Nat) (g : Lnk → Lnk) : (s.modLink l g).free = s.free := rfl
@[simp] theorem State.fields_modLink (s : State) (l : Nat) (g : Lnk → Lnk) : (s.modLink l g).fields = s.fields := rfl
@[simp] theorem State.mem_modLink (s : State) (l : Nat) (g : Lnk → Lnk) : (s.modLink l g).mem = s.mem := rfl
@[simp] theorem State.flash_modLink (s : State) (l : Nat) (g : Lnk → Lnk) : (s.modLink l g).flash = s.flash := rfl
@[simp] theorem State.evq_modLink (s : State) (l : Nat) (g : Lnk → Lnk) : (s.modLink l g).evq = s.evq := rfl
@[simp] theorem State.mbx_modLink (s : State) (l : Nat) (g : Lnk → Lnk) : (s.modLink l g).mbx = s.mbx := rfl
@[simp] theorem State.seq_modLink (s : State) (l : Nat) (g : Lnk → Lnk) : (s.modLink l g).seq = s.seq := rfl
@[simp] theorem State.clauses_modLink (s : State) (l : Nat) (g : Lnk → Lnk) : (s.modLink l g).clauses = s.clauses := rfl
@[simp] theorem State.fab_modLink (s : State) (l : Nat) (g : Lnk → Lnk) : (s.modLink l g).fab = s.fab := rfl
@[simp] theorem State.sch_modLink (s : State) (l : Nat) (g : Lnk → Lnk) : (s.modLink l g).sch = s.sch := rfl
@[simp] theorem State.umem_modLink (s : State) (l : Nat) (g : Lnk → Lnk) : (s.modLink l g).umem = s.umem := rfl
@[simp] theorem State.fp_modLink (s : State) (l : Nat) (g : Lnk → Lnk) : (s.modLink l g).fp = s.fp := rfl
@[simp] theorem State.load_modLink (s : State) (l : Nat) (g : Lnk → Lnk) : (s.modLink l g).load = s.load := rfl
@[simp] theorem State.rim_modLink (s : State) (l : Nat) (g : Lnk → Lnk) : (s.modLink l g).rim = s.rim := rfl
@[simp] theorem State.cap_modLink (s : State) (l : Nat) (g : Lnk → Lnk) : (s.modLink l g).cap = s.cap := rfl
@[simp] theorem State.dbg_modLink (s : State) (l : Nat) (g : Lnk → Lnk) : (s.modLink l g).dbg = s.dbg := rfl
@[simp] theorem State.noc_modLink (s : State) (l : Nat) (g : Lnk → Lnk) : (s.modLink l g).noc = s.noc := rfl
@[simp] theorem State.hif_modLink (s : State) (l : Nat) (g : Lnk → Lnk) : (s.modLink l g).hif = s.hif := rfl
@[simp] theorem State.mgt_modLink (s : State) (l : Nat) (g : Lnk → Lnk) : (s.modLink l g).mgt = s.mgt := rfl
@[simp] theorem State.sec_modLink (s : State) (l : Nat) (g : Lnk → Lnk) : (s.modLink l g).sec = s.sec := rfl
@[simp] theorem State.plt_modLink (s : State) (l : Nat) (g : Lnk → Lnk) : (s.modLink l g).plt = s.plt := rfl

@[simp] theorem State.pending_modConn (s : State) (k : Nat) (g : Conn → Conn) : (s.modConn k g).pending = s.pending := rfl
@[simp] theorem State.out_modConn (s : State) (k : Nat) (g : Conn → Conn) : (s.modConn k g).out = s.out := rfl
@[simp] theorem State.now_modConn (s : State) (k : Nat) (g : Conn → Conn) : (s.modConn k g).now = s.now := rfl
@[simp] theorem State.ptime_modConn (s : State) (k : Nat) (g : Conn → Conn) : (s.modConn k g).ptime = s.ptime := rfl
@[simp] theorem State.ptRun_modConn (s : State) (k : Nat) (g : Conn → Conn) : (s.modConn k g).ptRun = s.ptRun := rfl
@[simp] theorem State.free_modConn (s : State) (k : Nat) (g : Conn → Conn) : (s.modConn k g).free = s.free := rfl
@[simp] theorem State.fields_modConn (s : State) (k : Nat) (g : Conn → Conn) : (s.modConn k g).fields = s.fields := rfl
@[simp] theorem State.mem_modConn (s : State) (k : Nat) (g : Conn → Conn) : (s.modConn k g).mem = s.mem := rfl
@[simp] theorem State.flash_modConn (s : State) (k : Nat) (g : Conn → Conn) : (s.modConn k g).flash = s.flash := rfl
@[simp] theorem State.evq_modConn (s : State) (k : Nat) (g : Conn → Conn) : (s.modConn k g).evq = s.evq := rfl
@[simp] theorem State.mbx_modConn (s : State) (k : Nat) (g : Conn → Conn) : (s.modConn k g).mbx = s.mbx := rfl
@[simp] theorem State.seq_modConn (s : State) (k : Nat) (g : Conn → Conn) : (s.modConn k g).seq = s.seq := rfl
@[simp] theorem State.clauses_modConn (s : State) (k : Nat) (g : Conn → Conn) : (s.modConn k g).clauses = s.clauses := rfl
@[simp] theorem State.sch_modConn (s : State) (k : Nat) (g : Conn → Conn) : (s.modConn k g).sch = s.sch := rfl
@[simp] theorem State.umem_modConn (s : State) (k : Nat) (g : Conn → Conn) : (s.modConn k g).umem = s.umem := rfl
@[simp] theorem State.links_modConn (s : State) (k : Nat) (g : Conn → Conn) : (s.modConn k g).links = s.links := rfl
@[simp] theorem State.fp_modConn (s : State) (k : Nat) (g : Conn → Conn) : (s.modConn k g).fp = s.fp := rfl
@[simp] theorem State.load_modConn (s : State) (k : Nat) (g : Conn → Conn) : (s.modConn k g).load = s.load := rfl
@[simp] theorem State.rim_modConn (s : State) (k : Nat) (g : Conn → Conn) : (s.modConn k g).rim = s.rim := rfl
@[simp] theorem State.cap_modConn (s : State) (k : Nat) (g : Conn → Conn) : (s.modConn k g).cap = s.cap := rfl
@[simp] theorem State.dbg_modConn (s : State) (k : Nat) (g : Conn → Conn) : (s.modConn k g).dbg = s.dbg := rfl
@[simp] theorem State.noc_modConn (s : State) (k : Nat) (g : Conn → Conn) : (s.modConn k g).noc = s.noc := rfl
@[simp] theorem State.hif_modConn (s : State) (k : Nat) (g : Conn → Conn) : (s.modConn k g).hif = s.hif := rfl
@[simp] theorem State.mgt_modConn (s : State) (k : Nat) (g : Conn → Conn) : (s.modConn k g).mgt = s.mgt := rfl
@[simp] theorem State.sec_modConn (s : State) (k : Nat) (g : Conn → Conn) : (s.modConn k g).sec = s.sec := rfl
@[simp] theorem State.plt_modConn (s : State) (k : Nat) (g : Conn → Conn) : (s.modConn k g).plt = s.plt := rfl

@[simp] theorem State.pending_modGroup (s : State) (k : Nat) (g : RimGroup → RimGroup) : (s.modGroup k g).pending = s.pending := rfl
@[simp] theorem State.out_modGroup (s : State) (k : Nat) (g : RimGroup → RimGroup) : (s.modGroup k g).out = s.out := rfl
@[simp] theorem State.now_modGroup (s : State) (k : Nat) (g : RimGroup → RimGroup) : (s.modGroup k g).now = s.now := rfl
@[simp] theorem State.ptime_modGroup (s : State) (k : Nat) (g : RimGroup → RimGroup) : (s.modGroup k g).ptime = s.ptime := rfl
@[simp] theorem State.ptRun_modGroup (s : State) (k : Nat) (g : RimGroup → RimGroup) : (s.modGroup k g).ptRun = s.ptRun := rfl
@[simp] theorem State.free_modGroup (s : State) (k : Nat) (g : RimGroup → RimGroup) : (s.modGroup k g).free = s.free := rfl
@[simp] theorem State.fields_modGroup (s : State) (k : Nat) (g : RimGroup → RimGroup) : (s.modGroup k g).fields = s.fields := rfl
@[simp] theorem State.mem_modGroup (s : State) (k : Nat) (g : RimGroup → RimGroup) : (s.modGroup k g).mem = s.mem := rfl
@[simp] theorem State.flash_modGroup (s : State) (k : Nat) (g : RimGroup → RimGroup) : (s.modGroup k g).flash = s.flash := rfl
@[simp] theorem State.evq_modGroup (s : State) (k : Nat) (g : RimGroup → RimGroup) : (s.modGroup k g).evq = s.evq := rfl
@[simp] theorem State.mbx_modGroup (s : State) (k : Nat) (g : RimGroup → RimGroup) : (s.modGroup k g).mbx = s.mbx := rfl
@[simp] theorem State.seq_modGroup (s : State) (k : Nat) (g : RimGroup → RimGroup) : (s.modGroup k g).seq = s.seq := rfl
@[simp] theorem State.clauses_modGroup (s : State) (k : Nat) (g : RimGroup → RimGroup) : (s.modGroup k g).clauses = s.clauses := rfl
@[simp] theorem State.fab_modGroup (s : State) (k : Nat) (g : RimGroup → RimGroup) : (s.modGroup k g).fab = s.fab := rfl
@[simp] theorem State.sch_modGroup (s : State) (k : Nat) (g : RimGroup → RimGroup) : (s.modGroup k g).sch = s.sch := rfl
@[simp] theorem State.umem_modGroup (s : State) (k : Nat) (g : RimGroup → RimGroup) : (s.modGroup k g).umem = s.umem := rfl
@[simp] theorem State.links_modGroup (s : State) (k : Nat) (g : RimGroup → RimGroup) : (s.modGroup k g).links = s.links := rfl
@[simp] theorem State.fp_modGroup (s : State) (k : Nat) (g : RimGroup → RimGroup) : (s.modGroup k g).fp = s.fp := rfl
@[simp] theorem State.load_modGroup (s : State) (k : Nat) (g : RimGroup → RimGroup) : (s.modGroup k g).load = s.load := rfl
@[simp] theorem State.cap_modGroup (s : State) (k : Nat) (g : RimGroup → RimGroup) : (s.modGroup k g).cap = s.cap := rfl
@[simp] theorem State.dbg_modGroup (s : State) (k : Nat) (g : RimGroup → RimGroup) : (s.modGroup k g).dbg = s.dbg := rfl
@[simp] theorem State.noc_modGroup (s : State) (k : Nat) (g : RimGroup → RimGroup) : (s.modGroup k g).noc = s.noc := rfl
@[simp] theorem State.hif_modGroup (s : State) (k : Nat) (g : RimGroup → RimGroup) : (s.modGroup k g).hif = s.hif := rfl
@[simp] theorem State.mgt_modGroup (s : State) (k : Nat) (g : RimGroup → RimGroup) : (s.modGroup k g).mgt = s.mgt := rfl
@[simp] theorem State.sec_modGroup (s : State) (k : Nat) (g : RimGroup → RimGroup) : (s.modGroup k g).sec = s.sec := rfl
@[simp] theorem State.plt_modGroup (s : State) (k : Nat) (g : RimGroup → RimGroup) : (s.modGroup k g).plt = s.plt := rfl

@[simp] theorem State.pending_modBank (s : State) (b : Nat) (g : Bank → Bank) : (s.modBank b g).pending = s.pending := rfl
@[simp] theorem State.out_modBank (s : State) (b : Nat) (g : Bank → Bank) : (s.modBank b g).out = s.out := rfl
@[simp] theorem State.now_modBank (s : State) (b : Nat) (g : Bank → Bank) : (s.modBank b g).now = s.now := rfl
@[simp] theorem State.ptime_modBank (s : State) (b : Nat) (g : Bank → Bank) : (s.modBank b g).ptime = s.ptime := rfl
@[simp] theorem State.ptRun_modBank (s : State) (b : Nat) (g : Bank → Bank) : (s.modBank b g).ptRun = s.ptRun := rfl
@[simp] theorem State.free_modBank (s : State) (b : Nat) (g : Bank → Bank) : (s.modBank b g).free = s.free := rfl
@[simp] theorem State.fields_modBank (s : State) (b : Nat) (g : Bank → Bank) : (s.modBank b g).fields = s.fields := rfl
@[simp] theorem State.mem_modBank (s : State) (b : Nat) (g : Bank → Bank) : (s.modBank b g).mem = s.mem := rfl
@[simp] theorem State.flash_modBank (s : State) (b : Nat) (g : Bank → Bank) : (s.modBank b g).flash = s.flash := rfl
@[simp] theorem State.evq_modBank (s : State) (b : Nat) (g : Bank → Bank) : (s.modBank b g).evq = s.evq := rfl
@[simp] theorem State.mbx_modBank (s : State) (b : Nat) (g : Bank → Bank) : (s.modBank b g).mbx = s.mbx := rfl
@[simp] theorem State.seq_modBank (s : State) (b : Nat) (g : Bank → Bank) : (s.modBank b g).seq = s.seq := rfl
@[simp] theorem State.clauses_modBank (s : State) (b : Nat) (g : Bank → Bank) : (s.modBank b g).clauses = s.clauses := rfl
@[simp] theorem State.fab_modBank (s : State) (b : Nat) (g : Bank → Bank) : (s.modBank b g).fab = s.fab := rfl
@[simp] theorem State.sch_modBank (s : State) (b : Nat) (g : Bank → Bank) : (s.modBank b g).sch = s.sch := rfl
@[simp] theorem State.umem_modBank (s : State) (b : Nat) (g : Bank → Bank) : (s.modBank b g).umem = s.umem := rfl
@[simp] theorem State.links_modBank (s : State) (b : Nat) (g : Bank → Bank) : (s.modBank b g).links = s.links := rfl
@[simp] theorem State.fp_modBank (s : State) (b : Nat) (g : Bank → Bank) : (s.modBank b g).fp = s.fp := rfl
@[simp] theorem State.load_modBank (s : State) (b : Nat) (g : Bank → Bank) : (s.modBank b g).load = s.load := rfl
@[simp] theorem State.cap_modBank (s : State) (b : Nat) (g : Bank → Bank) : (s.modBank b g).cap = s.cap := rfl
@[simp] theorem State.dbg_modBank (s : State) (b : Nat) (g : Bank → Bank) : (s.modBank b g).dbg = s.dbg := rfl
@[simp] theorem State.noc_modBank (s : State) (b : Nat) (g : Bank → Bank) : (s.modBank b g).noc = s.noc := rfl
@[simp] theorem State.hif_modBank (s : State) (b : Nat) (g : Bank → Bank) : (s.modBank b g).hif = s.hif := rfl
@[simp] theorem State.mgt_modBank (s : State) (b : Nat) (g : Bank → Bank) : (s.modBank b g).mgt = s.mgt := rfl
@[simp] theorem State.sec_modBank (s : State) (b : Nat) (g : Bank → Bank) : (s.modBank b g).sec = s.sec := rfl
@[simp] theorem State.plt_modBank (s : State) (b : Nat) (g : Bank → Bank) : (s.modBank b g).plt = s.plt := rfl

@[simp] theorem State.pending_modUnit (s : State) (u : Nat) (g : Tu → Tu) : (s.modUnit u g).pending = s.pending := rfl
@[simp] theorem State.out_modUnit (s : State) (u : Nat) (g : Tu → Tu) : (s.modUnit u g).out = s.out := rfl
@[simp] theorem State.now_modUnit (s : State) (u : Nat) (g : Tu → Tu) : (s.modUnit u g).now = s.now := rfl
@[simp] theorem State.ptime_modUnit (s : State) (u : Nat) (g : Tu → Tu) : (s.modUnit u g).ptime = s.ptime := rfl
@[simp] theorem State.ptRun_modUnit (s : State) (u : Nat) (g : Tu → Tu) : (s.modUnit u g).ptRun = s.ptRun := rfl
@[simp] theorem State.free_modUnit (s : State) (u : Nat) (g : Tu → Tu) : (s.modUnit u g).free = s.free := rfl
@[simp] theorem State.fields_modUnit (s : State) (u : Nat) (g : Tu → Tu) : (s.modUnit u g).fields = s.fields := rfl
@[simp] theorem State.mem_modUnit (s : State) (u : Nat) (g : Tu → Tu) : (s.modUnit u g).mem = s.mem := rfl
@[simp] theorem State.flash_modUnit (s : State) (u : Nat) (g : Tu → Tu) : (s.modUnit u g).flash = s.flash := rfl
@[simp] theorem State.evq_modUnit (s : State) (u : Nat) (g : Tu → Tu) : (s.modUnit u g).evq = s.evq := rfl
@[simp] theorem State.mbx_modUnit (s : State) (u : Nat) (g : Tu → Tu) : (s.modUnit u g).mbx = s.mbx := rfl
@[simp] theorem State.seq_modUnit (s : State) (u : Nat) (g : Tu → Tu) : (s.modUnit u g).seq = s.seq := rfl
@[simp] theorem State.clauses_modUnit (s : State) (u : Nat) (g : Tu → Tu) : (s.modUnit u g).clauses = s.clauses := rfl
@[simp] theorem State.fab_modUnit (s : State) (u : Nat) (g : Tu → Tu) : (s.modUnit u g).fab = s.fab := rfl
@[simp] theorem State.sch_modUnit (s : State) (u : Nat) (g : Tu → Tu) : (s.modUnit u g).sch = s.sch := rfl
@[simp] theorem State.umem_modUnit (s : State) (u : Nat) (g : Tu → Tu) : (s.modUnit u g).umem = s.umem := rfl
@[simp] theorem State.links_modUnit (s : State) (u : Nat) (g : Tu → Tu) : (s.modUnit u g).links = s.links := rfl
@[simp] theorem State.fp_modUnit (s : State) (u : Nat) (g : Tu → Tu) : (s.modUnit u g).fp = s.fp := rfl
@[simp] theorem State.load_modUnit (s : State) (u : Nat) (g : Tu → Tu) : (s.modUnit u g).load = s.load := rfl
@[simp] theorem State.rim_modUnit (s : State) (u : Nat) (g : Tu → Tu) : (s.modUnit u g).rim = s.rim := rfl
@[simp] theorem State.dbg_modUnit (s : State) (u : Nat) (g : Tu → Tu) : (s.modUnit u g).dbg = s.dbg := rfl
@[simp] theorem State.noc_modUnit (s : State) (u : Nat) (g : Tu → Tu) : (s.modUnit u g).noc = s.noc := rfl
@[simp] theorem State.hif_modUnit (s : State) (u : Nat) (g : Tu → Tu) : (s.modUnit u g).hif = s.hif := rfl
@[simp] theorem State.mgt_modUnit (s : State) (u : Nat) (g : Tu → Tu) : (s.modUnit u g).mgt = s.mgt := rfl
@[simp] theorem State.sec_modUnit (s : State) (u : Nat) (g : Tu → Tu) : (s.modUnit u g).sec = s.sec := rfl
@[simp] theorem State.plt_modUnit (s : State) (u : Nat) (g : Tu → Tu) : (s.modUnit u g).plt = s.plt := rfl

@[simp] theorem State.pending_modPair (s : State) (p : Nat) (g : Pair → Pair) : (s.modPair p g).pending = s.pending := rfl
@[simp] theorem State.out_modPair (s : State) (p : Nat) (g : Pair → Pair) : (s.modPair p g).out = s.out := rfl
@[simp] theorem State.now_modPair (s : State) (p : Nat) (g : Pair → Pair) : (s.modPair p g).now = s.now := rfl
@[simp] theorem State.ptime_modPair (s : State) (p : Nat) (g : Pair → Pair) : (s.modPair p g).ptime = s.ptime := rfl
@[simp] theorem State.ptRun_modPair (s : State) (p : Nat) (g : Pair → Pair) : (s.modPair p g).ptRun = s.ptRun := rfl
@[simp] theorem State.free_modPair (s : State) (p : Nat) (g : Pair → Pair) : (s.modPair p g).free = s.free := rfl
@[simp] theorem State.fields_modPair (s : State) (p : Nat) (g : Pair → Pair) : (s.modPair p g).fields = s.fields := rfl
@[simp] theorem State.mem_modPair (s : State) (p : Nat) (g : Pair → Pair) : (s.modPair p g).mem = s.mem := rfl
@[simp] theorem State.flash_modPair (s : State) (p : Nat) (g : Pair → Pair) : (s.modPair p g).flash = s.flash := rfl
@[simp] theorem State.evq_modPair (s : State) (p : Nat) (g : Pair → Pair) : (s.modPair p g).evq = s.evq := rfl
@[simp] theorem State.mbx_modPair (s : State) (p : Nat) (g : Pair → Pair) : (s.modPair p g).mbx = s.mbx := rfl
@[simp] theorem State.seq_modPair (s : State) (p : Nat) (g : Pair → Pair) : (s.modPair p g).seq = s.seq := rfl
@[simp] theorem State.clauses_modPair (s : State) (p : Nat) (g : Pair → Pair) : (s.modPair p g).clauses = s.clauses := rfl
@[simp] theorem State.fab_modPair (s : State) (p : Nat) (g : Pair → Pair) : (s.modPair p g).fab = s.fab := rfl
@[simp] theorem State.sch_modPair (s : State) (p : Nat) (g : Pair → Pair) : (s.modPair p g).sch = s.sch := rfl
@[simp] theorem State.umem_modPair (s : State) (p : Nat) (g : Pair → Pair) : (s.modPair p g).umem = s.umem := rfl
@[simp] theorem State.links_modPair (s : State) (p : Nat) (g : Pair → Pair) : (s.modPair p g).links = s.links := rfl
@[simp] theorem State.fp_modPair (s : State) (p : Nat) (g : Pair → Pair) : (s.modPair p g).fp = s.fp := rfl
@[simp] theorem State.load_modPair (s : State) (p : Nat) (g : Pair → Pair) : (s.modPair p g).load = s.load := rfl
@[simp] theorem State.rim_modPair (s : State) (p : Nat) (g : Pair → Pair) : (s.modPair p g).rim = s.rim := rfl
@[simp] theorem State.cap_modPair (s : State) (p : Nat) (g : Pair → Pair) : (s.modPair p g).cap = s.cap := rfl
@[simp] theorem State.dbg_modPair (s : State) (p : Nat) (g : Pair → Pair) : (s.modPair p g).dbg = s.dbg := rfl
@[simp] theorem State.noc_modPair (s : State) (p : Nat) (g : Pair → Pair) : (s.modPair p g).noc = s.noc := rfl
@[simp] theorem State.hif_modPair (s : State) (p : Nat) (g : Pair → Pair) : (s.modPair p g).hif = s.hif := rfl
@[simp] theorem State.sec_modPair (s : State) (p : Nat) (g : Pair → Pair) : (s.modPair p g).sec = s.sec := rfl
@[simp] theorem State.plt_modPair (s : State) (p : Nat) (g : Pair → Pair) : (s.modPair p g).plt = s.plt := rfl

@[simp] theorem State.pending_modDma (s : State) (c : Nat) (g : Dma → Dma) : (s.modDma c g).pending = s.pending := rfl
@[simp] theorem State.out_modDma (s : State) (c : Nat) (g : Dma → Dma) : (s.modDma c g).out = s.out := rfl
@[simp] theorem State.now_modDma (s : State) (c : Nat) (g : Dma → Dma) : (s.modDma c g).now = s.now := rfl
@[simp] theorem State.ptime_modDma (s : State) (c : Nat) (g : Dma → Dma) : (s.modDma c g).ptime = s.ptime := rfl
@[simp] theorem State.ptRun_modDma (s : State) (c : Nat) (g : Dma → Dma) : (s.modDma c g).ptRun = s.ptRun := rfl
@[simp] theorem State.free_modDma (s : State) (c : Nat) (g : Dma → Dma) : (s.modDma c g).free = s.free := rfl
@[simp] theorem State.fields_modDma (s : State) (c : Nat) (g : Dma → Dma) : (s.modDma c g).fields = s.fields := rfl
@[simp] theorem State.mem_modDma (s : State) (c : Nat) (g : Dma → Dma) : (s.modDma c g).mem = s.mem := rfl
@[simp] theorem State.flash_modDma (s : State) (c : Nat) (g : Dma → Dma) : (s.modDma c g).flash = s.flash := rfl
@[simp] theorem State.evq_modDma (s : State) (c : Nat) (g : Dma → Dma) : (s.modDma c g).evq = s.evq := rfl
@[simp] theorem State.mbx_modDma (s : State) (c : Nat) (g : Dma → Dma) : (s.modDma c g).mbx = s.mbx := rfl
@[simp] theorem State.seq_modDma (s : State) (c : Nat) (g : Dma → Dma) : (s.modDma c g).seq = s.seq := rfl
@[simp] theorem State.clauses_modDma (s : State) (c : Nat) (g : Dma → Dma) : (s.modDma c g).clauses = s.clauses := rfl
@[simp] theorem State.fab_modDma (s : State) (c : Nat) (g : Dma → Dma) : (s.modDma c g).fab = s.fab := rfl
@[simp] theorem State.sch_modDma (s : State) (c : Nat) (g : Dma → Dma) : (s.modDma c g).sch = s.sch := rfl
@[simp] theorem State.umem_modDma (s : State) (c : Nat) (g : Dma → Dma) : (s.modDma c g).umem = s.umem := rfl
@[simp] theorem State.links_modDma (s : State) (c : Nat) (g : Dma → Dma) : (s.modDma c g).links = s.links := rfl
@[simp] theorem State.fp_modDma (s : State) (c : Nat) (g : Dma → Dma) : (s.modDma c g).fp = s.fp := rfl
@[simp] theorem State.load_modDma (s : State) (c : Nat) (g : Dma → Dma) : (s.modDma c g).load = s.load := rfl
@[simp] theorem State.rim_modDma (s : State) (c : Nat) (g : Dma → Dma) : (s.modDma c g).rim = s.rim := rfl
@[simp] theorem State.cap_modDma (s : State) (c : Nat) (g : Dma → Dma) : (s.modDma c g).cap = s.cap := rfl
@[simp] theorem State.dbg_modDma (s : State) (c : Nat) (g : Dma → Dma) : (s.modDma c g).dbg = s.dbg := rfl
@[simp] theorem State.noc_modDma (s : State) (c : Nat) (g : Dma → Dma) : (s.modDma c g).noc = s.noc := rfl
@[simp] theorem State.mgt_modDma (s : State) (c : Nat) (g : Dma → Dma) : (s.modDma c g).mgt = s.mgt := rfl
@[simp] theorem State.sec_modDma (s : State) (c : Nat) (g : Dma → Dma) : (s.modDma c g).sec = s.sec := rfl
@[simp] theorem State.plt_modDma (s : State) (c : Nat) (g : Dma → Dma) : (s.modDma c g).plt = s.plt := rfl

@[simp] theorem State.pending_modRing (s : State) (r : Nat) (g : Ring → Ring) : (s.modRing r g).pending = s.pending := rfl
@[simp] theorem State.out_modRing (s : State) (r : Nat) (g : Ring → Ring) : (s.modRing r g).out = s.out := rfl
@[simp] theorem State.now_modRing (s : State) (r : Nat) (g : Ring → Ring) : (s.modRing r g).now = s.now := rfl
@[simp] theorem State.ptime_modRing (s : State) (r : Nat) (g : Ring → Ring) : (s.modRing r g).ptime = s.ptime := rfl
@[simp] theorem State.ptRun_modRing (s : State) (r : Nat) (g : Ring → Ring) : (s.modRing r g).ptRun = s.ptRun := rfl
@[simp] theorem State.free_modRing (s : State) (r : Nat) (g : Ring → Ring) : (s.modRing r g).free = s.free := rfl
@[simp] theorem State.fields_modRing (s : State) (r : Nat) (g : Ring → Ring) : (s.modRing r g).fields = s.fields := rfl
@[simp] theorem State.mem_modRing (s : State) (r : Nat) (g : Ring → Ring) : (s.modRing r g).mem = s.mem := rfl
@[simp] theorem State.flash_modRing (s : State) (r : Nat) (g : Ring → Ring) : (s.modRing r g).flash = s.flash := rfl
@[simp] theorem State.evq_modRing (s : State) (r : Nat) (g : Ring → Ring) : (s.modRing r g).evq = s.evq := rfl
@[simp] theorem State.mbx_modRing (s : State) (r : Nat) (g : Ring → Ring) : (s.modRing r g).mbx = s.mbx := rfl
@[simp] theorem State.seq_modRing (s : State) (r : Nat) (g : Ring → Ring) : (s.modRing r g).seq = s.seq := rfl
@[simp] theorem State.clauses_modRing (s : State) (r : Nat) (g : Ring → Ring) : (s.modRing r g).clauses = s.clauses := rfl
@[simp] theorem State.fab_modRing (s : State) (r : Nat) (g : Ring → Ring) : (s.modRing r g).fab = s.fab := rfl
@[simp] theorem State.sch_modRing (s : State) (r : Nat) (g : Ring → Ring) : (s.modRing r g).sch = s.sch := rfl
@[simp] theorem State.umem_modRing (s : State) (r : Nat) (g : Ring → Ring) : (s.modRing r g).umem = s.umem := rfl
@[simp] theorem State.links_modRing (s : State) (r : Nat) (g : Ring → Ring) : (s.modRing r g).links = s.links := rfl
@[simp] theorem State.fp_modRing (s : State) (r : Nat) (g : Ring → Ring) : (s.modRing r g).fp = s.fp := rfl
@[simp] theorem State.load_modRing (s : State) (r : Nat) (g : Ring → Ring) : (s.modRing r g).load = s.load := rfl
@[simp] theorem State.rim_modRing (s : State) (r : Nat) (g : Ring → Ring) : (s.modRing r g).rim = s.rim := rfl
@[simp] theorem State.cap_modRing (s : State) (r : Nat) (g : Ring → Ring) : (s.modRing r g).cap = s.cap := rfl
@[simp] theorem State.dbg_modRing (s : State) (r : Nat) (g : Ring → Ring) : (s.modRing r g).dbg = s.dbg := rfl
@[simp] theorem State.noc_modRing (s : State) (r : Nat) (g : Ring → Ring) : (s.modRing r g).noc = s.noc := rfl
@[simp] theorem State.mgt_modRing (s : State) (r : Nat) (g : Ring → Ring) : (s.modRing r g).mgt = s.mgt := rfl
@[simp] theorem State.sec_modRing (s : State) (r : Nat) (g : Ring → Ring) : (s.modRing r g).sec = s.sec := rfl
@[simp] theorem State.plt_modRing (s : State) (r : Nat) (g : Ring → Ring) : (s.modRing r g).plt = s.plt := rfl

/-! ### Fields and instances through the updates -/

@[simp] theorem State.clause_fset (s : State) (f : Fld) (v : Nat) (k : Nat) : (s.fset f v).clause k = s.clause k := rfl
@[simp] theorem State.link_fset (s : State) (f : Fld) (v : Nat) (k : Nat) : (s.fset f v).link k = s.link k := rfl
@[simp] theorem State.conn_fset (s : State) (f : Fld) (v : Nat) (k : Nat) : (s.fset f v).conn k = s.conn k := rfl
@[simp] theorem State.group_fset (s : State) (f : Fld) (v : Nat) (k : Nat) : (s.fset f v).group k = s.group k := rfl
@[simp] theorem State.bank_fset (s : State) (f : Fld) (v : Nat) (k : Nat) : (s.fset f v).bank k = s.bank k := rfl
@[simp] theorem State.unit_fset (s : State) (f : Fld) (v : Nat) (k : Nat) : (s.fset f v).unit k = s.unit k := rfl
@[simp] theorem State.pair_fset (s : State) (f : Fld) (v : Nat) (k : Nat) : (s.fset f v).pair k = s.pair k := rfl
@[simp] theorem State.dmaCh_fset (s : State) (f : Fld) (v : Nat) (k : Nat) : (s.fset f v).dmaCh k = s.dmaCh k := rfl
@[simp] theorem State.ring_fset (s : State) (f : Fld) (v : Nat) (k : Nat) : (s.fset f v).ring k = s.ring k := rfl
@[simp] theorem State.clause_fsetb (s : State) (f : Fld) (b : Bool) (k : Nat) : (s.fsetb f b).clause k = s.clause k := rfl
@[simp] theorem State.link_fsetb (s : State) (f : Fld) (b : Bool) (k : Nat) : (s.fsetb f b).link k = s.link k := rfl
@[simp] theorem State.conn_fsetb (s : State) (f : Fld) (b : Bool) (k : Nat) : (s.fsetb f b).conn k = s.conn k := rfl
@[simp] theorem State.group_fsetb (s : State) (f : Fld) (b : Bool) (k : Nat) : (s.fsetb f b).group k = s.group k := rfl
@[simp] theorem State.bank_fsetb (s : State) (f : Fld) (b : Bool) (k : Nat) : (s.fsetb f b).bank k = s.bank k := rfl
@[simp] theorem State.unit_fsetb (s : State) (f : Fld) (b : Bool) (k : Nat) : (s.fsetb f b).unit k = s.unit k := rfl
@[simp] theorem State.pair_fsetb (s : State) (f : Fld) (b : Bool) (k : Nat) : (s.fsetb f b).pair k = s.pair k := rfl
@[simp] theorem State.dmaCh_fsetb (s : State) (f : Fld) (b : Bool) (k : Nat) : (s.fsetb f b).dmaCh k = s.dmaCh k := rfl
@[simp] theorem State.ring_fsetb (s : State) (f : Fld) (b : Bool) (k : Nat) : (s.fsetb f b).ring k = s.ring k := rfl
@[simp] theorem State.clause_count (s : State) (f : Fld) (k : Nat) : (s.count f).clause k = s.clause k := rfl
@[simp] theorem State.link_count (s : State) (f : Fld) (k : Nat) : (s.count f).link k = s.link k := rfl
@[simp] theorem State.conn_count (s : State) (f : Fld) (k : Nat) : (s.count f).conn k = s.conn k := rfl
@[simp] theorem State.group_count (s : State) (f : Fld) (k : Nat) : (s.count f).group k = s.group k := rfl
@[simp] theorem State.bank_count (s : State) (f : Fld) (k : Nat) : (s.count f).bank k = s.bank k := rfl
@[simp] theorem State.unit_count (s : State) (f : Fld) (k : Nat) : (s.count f).unit k = s.unit k := rfl
@[simp] theorem State.pair_count (s : State) (f : Fld) (k : Nat) : (s.count f).pair k = s.pair k := rfl
@[simp] theorem State.dmaCh_count (s : State) (f : Fld) (k : Nat) : (s.count f).dmaCh k = s.dmaCh k := rfl
@[simp] theorem State.ring_count (s : State) (f : Fld) (k : Nat) : (s.count f).ring k = s.ring k := rfl
@[simp] theorem State.clause_countBy (s : State) (f : Fld) (n : Nat) (k : Nat) : (s.countBy f n).clause k = s.clause k := rfl
@[simp] theorem State.link_countBy (s : State) (f : Fld) (n : Nat) (k : Nat) : (s.countBy f n).link k = s.link k := rfl
@[simp] theorem State.conn_countBy (s : State) (f : Fld) (n : Nat) (k : Nat) : (s.countBy f n).conn k = s.conn k := rfl
@[simp] theorem State.group_countBy (s : State) (f : Fld) (n : Nat) (k : Nat) : (s.countBy f n).group k = s.group k := rfl
@[simp] theorem State.bank_countBy (s : State) (f : Fld) (n : Nat) (k : Nat) : (s.countBy f n).bank k = s.bank k := rfl
@[simp] theorem State.unit_countBy (s : State) (f : Fld) (n : Nat) (k : Nat) : (s.countBy f n).unit k = s.unit k := rfl
@[simp] theorem State.pair_countBy (s : State) (f : Fld) (n : Nat) (k : Nat) : (s.countBy f n).pair k = s.pair k := rfl
@[simp] theorem State.dmaCh_countBy (s : State) (f : Fld) (n : Nat) (k : Nat) : (s.countBy f n).dmaCh k = s.dmaCh k := rfl
@[simp] theorem State.ring_countBy (s : State) (f : Fld) (n : Nat) (k : Nat) : (s.countBy f n).ring k = s.ring k := rfl
@[simp] theorem State.clause_raise (s : State) (f : Fld) (a b : Nat) (p : List Nat) (k : Nat) : (s.raise f a b p).clause k = s.clause k := by
  unfold State.clause; rw [State.clauses_raise]
@[simp] theorem State.link_raise (s : State) (f : Fld) (a b : Nat) (p : List Nat) (k : Nat) : (s.raise f a b p).link k = s.link k := by
  unfold State.link; rw [State.links_raise]
@[simp] theorem State.conn_raise (s : State) (f : Fld) (a b : Nat) (p : List Nat) (k : Nat) : (s.raise f a b p).conn k = s.conn k := by
  unfold State.conn; rw [State.fab_raise]
@[simp] theorem State.group_raise (s : State) (f : Fld) (a b : Nat) (p : List Nat) (k : Nat) : (s.raise f a b p).group k = s.group k := by
  unfold State.group; rw [State.rim_raise]
@[simp] theorem State.bank_raise (s : State) (f : Fld) (a b : Nat) (p : List Nat) (k : Nat) : (s.raise f a b p).bank k = s.bank k := by
  unfold State.bank; rw [State.rim_raise]
@[simp] theorem State.unit_raise (s : State) (f : Fld) (a b : Nat) (p : List Nat) (k : Nat) : (s.raise f a b p).unit k = s.unit k := by
  unfold State.unit; rw [State.cap_raise]
@[simp] theorem State.pair_raise (s : State) (f : Fld) (a b : Nat) (p : List Nat) (k : Nat) : (s.raise f a b p).pair k = s.pair k := by
  unfold State.pair; rw [State.mgt_raise]
@[simp] theorem State.dmaCh_raise (s : State) (f : Fld) (a b : Nat) (p : List Nat) (k : Nat) : (s.raise f a b p).dmaCh k = s.dmaCh k := by
  unfold State.dmaCh; rw [State.hif_raise]
@[simp] theorem State.ring_raise (s : State) (f : Fld) (a b : Nat) (p : List Nat) (k : Nat) : (s.raise f a b p).ring k = s.ring k := by
  unfold State.ring; rw [State.hif_raise]
@[simp] theorem State.fget_emit (s : State) (e : Emit) (x : Fld) : (s.emit e).fget x = s.fget x := rfl
@[simp] theorem State.clause_emit (s : State) (e : Emit) (k : Nat) : (s.emit e).clause k = s.clause k := rfl
@[simp] theorem State.link_emit (s : State) (e : Emit) (k : Nat) : (s.emit e).link k = s.link k := rfl
@[simp] theorem State.conn_emit (s : State) (e : Emit) (k : Nat) : (s.emit e).conn k = s.conn k := rfl
@[simp] theorem State.group_emit (s : State) (e : Emit) (k : Nat) : (s.emit e).group k = s.group k := rfl
@[simp] theorem State.bank_emit (s : State) (e : Emit) (k : Nat) : (s.emit e).bank k = s.bank k := rfl
@[simp] theorem State.unit_emit (s : State) (e : Emit) (k : Nat) : (s.emit e).unit k = s.unit k := rfl
@[simp] theorem State.pair_emit (s : State) (e : Emit) (k : Nat) : (s.emit e).pair k = s.pair k := rfl
@[simp] theorem State.dmaCh_emit (s : State) (e : Emit) (k : Nat) : (s.emit e).dmaCh k = s.dmaCh k := rfl
@[simp] theorem State.ring_emit (s : State) (e : Emit) (k : Nat) : (s.emit e).ring k = s.ring k := rfl
@[simp] theorem State.fget_modClause (s : State) (c : Nat) (g : Clause → Clause) (x : Fld) : (s.modClause c g).fget x = s.fget x := rfl
@[simp] theorem State.link_modClause (s : State) (c : Nat) (g : Clause → Clause) (k : Nat) : (s.modClause c g).link k = s.link k := rfl
@[simp] theorem State.conn_modClause (s : State) (c : Nat) (g : Clause → Clause) (k : Nat) : (s.modClause c g).conn k = s.conn k := rfl
@[simp] theorem State.group_modClause (s : State) (c : Nat) (g : Clause → Clause) (k : Nat) : (s.modClause c g).group k = s.group k := rfl
@[simp] theorem State.bank_modClause (s : State) (c : Nat) (g : Clause → Clause) (k : Nat) : (s.modClause c g).bank k = s.bank k := rfl
@[simp] theorem State.unit_modClause (s : State) (c : Nat) (g : Clause → Clause) (k : Nat) : (s.modClause c g).unit k = s.unit k := rfl
@[simp] theorem State.pair_modClause (s : State) (c : Nat) (g : Clause → Clause) (k : Nat) : (s.modClause c g).pair k = s.pair k := rfl
@[simp] theorem State.dmaCh_modClause (s : State) (c : Nat) (g : Clause → Clause) (k : Nat) : (s.modClause c g).dmaCh k = s.dmaCh k := rfl
@[simp] theorem State.ring_modClause (s : State) (c : Nat) (g : Clause → Clause) (k : Nat) : (s.modClause c g).ring k = s.ring k := rfl
@[simp] theorem State.fget_modLink (s : State) (l : Nat) (g : Lnk → Lnk) (x : Fld) : (s.modLink l g).fget x = s.fget x := rfl
@[simp] theorem State.clause_modLink (s : State) (l : Nat) (g : Lnk → Lnk) (k : Nat) : (s.modLink l g).clause k = s.clause k := rfl
@[simp] theorem State.conn_modLink (s : State) (l : Nat) (g : Lnk → Lnk) (k : Nat) : (s.modLink l g).conn k = s.conn k := rfl
@[simp] theorem State.group_modLink (s : State) (l : Nat) (g : Lnk → Lnk) (k : Nat) : (s.modLink l g).group k = s.group k := rfl
@[simp] theorem State.bank_modLink (s : State) (l : Nat) (g : Lnk → Lnk) (k : Nat) : (s.modLink l g).bank k = s.bank k := rfl
@[simp] theorem State.unit_modLink (s : State) (l : Nat) (g : Lnk → Lnk) (k : Nat) : (s.modLink l g).unit k = s.unit k := rfl
@[simp] theorem State.pair_modLink (s : State) (l : Nat) (g : Lnk → Lnk) (k : Nat) : (s.modLink l g).pair k = s.pair k := rfl
@[simp] theorem State.dmaCh_modLink (s : State) (l : Nat) (g : Lnk → Lnk) (k : Nat) : (s.modLink l g).dmaCh k = s.dmaCh k := rfl
@[simp] theorem State.ring_modLink (s : State) (l : Nat) (g : Lnk → Lnk) (k : Nat) : (s.modLink l g).ring k = s.ring k := rfl
@[simp] theorem State.fget_modConn (s : State) (k : Nat) (g : Conn → Conn) (x : Fld) : (s.modConn k g).fget x = s.fget x := rfl
@[simp] theorem State.clause_modConn (s : State) (k : Nat) (g : Conn → Conn) (j : Nat) : (s.modConn k g).clause j = s.clause j := rfl
@[simp] theorem State.link_modConn (s : State) (k : Nat) (g : Conn → Conn) (j : Nat) : (s.modConn k g).link j = s.link j := rfl
@[simp] theorem State.group_modConn (s : State) (k : Nat) (g : Conn → Conn) (j : Nat) : (s.modConn k g).group j = s.group j := rfl
@[simp] theorem State.bank_modConn (s : State) (k : Nat) (g : Conn → Conn) (j : Nat) : (s.modConn k g).bank j = s.bank j := rfl
@[simp] theorem State.unit_modConn (s : State) (k : Nat) (g : Conn → Conn) (j : Nat) : (s.modConn k g).unit j = s.unit j := rfl
@[simp] theorem State.pair_modConn (s : State) (k : Nat) (g : Conn → Conn) (j : Nat) : (s.modConn k g).pair j = s.pair j := rfl
@[simp] theorem State.dmaCh_modConn (s : State) (k : Nat) (g : Conn → Conn) (j : Nat) : (s.modConn k g).dmaCh j = s.dmaCh j := rfl
@[simp] theorem State.ring_modConn (s : State) (k : Nat) (g : Conn → Conn) (j : Nat) : (s.modConn k g).ring j = s.ring j := rfl
@[simp] theorem State.fget_modGroup (s : State) (k : Nat) (g : RimGroup → RimGroup) (x : Fld) : (s.modGroup k g).fget x = s.fget x := rfl
@[simp] theorem State.clause_modGroup (s : State) (k : Nat) (g : RimGroup → RimGroup) (j : Nat) : (s.modGroup k g).clause j = s.clause j := rfl
@[simp] theorem State.link_modGroup (s : State) (k : Nat) (g : RimGroup → RimGroup) (j : Nat) : (s.modGroup k g).link j = s.link j := rfl
@[simp] theorem State.conn_modGroup (s : State) (k : Nat) (g : RimGroup → RimGroup) (j : Nat) : (s.modGroup k g).conn j = s.conn j := rfl
@[simp] theorem State.unit_modGroup (s : State) (k : Nat) (g : RimGroup → RimGroup) (j : Nat) : (s.modGroup k g).unit j = s.unit j := rfl
@[simp] theorem State.pair_modGroup (s : State) (k : Nat) (g : RimGroup → RimGroup) (j : Nat) : (s.modGroup k g).pair j = s.pair j := rfl
@[simp] theorem State.dmaCh_modGroup (s : State) (k : Nat) (g : RimGroup → RimGroup) (j : Nat) : (s.modGroup k g).dmaCh j = s.dmaCh j := rfl
@[simp] theorem State.ring_modGroup (s : State) (k : Nat) (g : RimGroup → RimGroup) (j : Nat) : (s.modGroup k g).ring j = s.ring j := rfl
@[simp] theorem State.fget_modBank (s : State) (b : Nat) (g : Bank → Bank) (x : Fld) : (s.modBank b g).fget x = s.fget x := rfl
@[simp] theorem State.clause_modBank (s : State) (b : Nat) (g : Bank → Bank) (k : Nat) : (s.modBank b g).clause k = s.clause k := rfl
@[simp] theorem State.link_modBank (s : State) (b : Nat) (g : Bank → Bank) (k : Nat) : (s.modBank b g).link k = s.link k := rfl
@[simp] theorem State.conn_modBank (s : State) (b : Nat) (g : Bank → Bank) (k : Nat) : (s.modBank b g).conn k = s.conn k := rfl
@[simp] theorem State.unit_modBank (s : State) (b : Nat) (g : Bank → Bank) (k : Nat) : (s.modBank b g).unit k = s.unit k := rfl
@[simp] theorem State.pair_modBank (s : State) (b : Nat) (g : Bank → Bank) (k : Nat) : (s.modBank b g).pair k = s.pair k := rfl
@[simp] theorem State.dmaCh_modBank (s : State) (b : Nat) (g : Bank → Bank) (k : Nat) : (s.modBank b g).dmaCh k = s.dmaCh k := rfl
@[simp] theorem State.ring_modBank (s : State) (b : Nat) (g : Bank → Bank) (k : Nat) : (s.modBank b g).ring k = s.ring k := rfl
@[simp] theorem State.fget_modUnit (s : State) (u : Nat) (g : Tu → Tu) (x : Fld) : (s.modUnit u g).fget x = s.fget x := rfl
@[simp] theorem State.clause_modUnit (s : State) (u : Nat) (g : Tu → Tu) (k : Nat) : (s.modUnit u g).clause k = s.clause k := rfl
@[simp] theorem State.link_modUnit (s : State) (u : Nat) (g : Tu → Tu) (k : Nat) : (s.modUnit u g).link k = s.link k := rfl
@[simp] theorem State.conn_modUnit (s : State) (u : Nat) (g : Tu → Tu) (k : Nat) : (s.modUnit u g).conn k = s.conn k := rfl
@[simp] theorem State.group_modUnit (s : State) (u : Nat) (g : Tu → Tu) (k : Nat) : (s.modUnit u g).group k = s.group k := rfl
@[simp] theorem State.bank_modUnit (s : State) (u : Nat) (g : Tu → Tu) (k : Nat) : (s.modUnit u g).bank k = s.bank k := rfl
@[simp] theorem State.pair_modUnit (s : State) (u : Nat) (g : Tu → Tu) (k : Nat) : (s.modUnit u g).pair k = s.pair k := rfl
@[simp] theorem State.dmaCh_modUnit (s : State) (u : Nat) (g : Tu → Tu) (k : Nat) : (s.modUnit u g).dmaCh k = s.dmaCh k := rfl
@[simp] theorem State.ring_modUnit (s : State) (u : Nat) (g : Tu → Tu) (k : Nat) : (s.modUnit u g).ring k = s.ring k := rfl
@[simp] theorem State.fget_modPair (s : State) (p : Nat) (g : Pair → Pair) (x : Fld) : (s.modPair p g).fget x = s.fget x := rfl
@[simp] theorem State.clause_modPair (s : State) (p : Nat) (g : Pair → Pair) (k : Nat) : (s.modPair p g).clause k = s.clause k := rfl
@[simp] theorem State.link_modPair (s : State) (p : Nat) (g : Pair → Pair) (k : Nat) : (s.modPair p g).link k = s.link k := rfl
@[simp] theorem State.conn_modPair (s : State) (p : Nat) (g : Pair → Pair) (k : Nat) : (s.modPair p g).conn k = s.conn k := rfl
@[simp] theorem State.group_modPair (s : State) (p : Nat) (g : Pair → Pair) (k : Nat) : (s.modPair p g).group k = s.group k := rfl
@[simp] theorem State.bank_modPair (s : State) (p : Nat) (g : Pair → Pair) (k : Nat) : (s.modPair p g).bank k = s.bank k := rfl
@[simp] theorem State.unit_modPair (s : State) (p : Nat) (g : Pair → Pair) (k : Nat) : (s.modPair p g).unit k = s.unit k := rfl
@[simp] theorem State.dmaCh_modPair (s : State) (p : Nat) (g : Pair → Pair) (k : Nat) : (s.modPair p g).dmaCh k = s.dmaCh k := rfl
@[simp] theorem State.ring_modPair (s : State) (p : Nat) (g : Pair → Pair) (k : Nat) : (s.modPair p g).ring k = s.ring k := rfl
@[simp] theorem State.fget_modDma (s : State) (c : Nat) (g : Dma → Dma) (x : Fld) : (s.modDma c g).fget x = s.fget x := rfl
@[simp] theorem State.clause_modDma (s : State) (c : Nat) (g : Dma → Dma) (k : Nat) : (s.modDma c g).clause k = s.clause k := rfl
@[simp] theorem State.link_modDma (s : State) (c : Nat) (g : Dma → Dma) (k : Nat) : (s.modDma c g).link k = s.link k := rfl
@[simp] theorem State.conn_modDma (s : State) (c : Nat) (g : Dma → Dma) (k : Nat) : (s.modDma c g).conn k = s.conn k := rfl
@[simp] theorem State.group_modDma (s : State) (c : Nat) (g : Dma → Dma) (k : Nat) : (s.modDma c g).group k = s.group k := rfl
@[simp] theorem State.bank_modDma (s : State) (c : Nat) (g : Dma → Dma) (k : Nat) : (s.modDma c g).bank k = s.bank k := rfl
@[simp] theorem State.unit_modDma (s : State) (c : Nat) (g : Dma → Dma) (k : Nat) : (s.modDma c g).unit k = s.unit k := rfl
@[simp] theorem State.pair_modDma (s : State) (c : Nat) (g : Dma → Dma) (k : Nat) : (s.modDma c g).pair k = s.pair k := rfl
@[simp] theorem State.fget_modRing (s : State) (r : Nat) (g : Ring → Ring) (x : Fld) : (s.modRing r g).fget x = s.fget x := rfl
@[simp] theorem State.clause_modRing (s : State) (r : Nat) (g : Ring → Ring) (k : Nat) : (s.modRing r g).clause k = s.clause k := rfl
@[simp] theorem State.link_modRing (s : State) (r : Nat) (g : Ring → Ring) (k : Nat) : (s.modRing r g).link k = s.link k := rfl
@[simp] theorem State.conn_modRing (s : State) (r : Nat) (g : Ring → Ring) (k : Nat) : (s.modRing r g).conn k = s.conn k := rfl
@[simp] theorem State.group_modRing (s : State) (r : Nat) (g : Ring → Ring) (k : Nat) : (s.modRing r g).group k = s.group k := rfl
@[simp] theorem State.bank_modRing (s : State) (r : Nat) (g : Ring → Ring) (k : Nat) : (s.modRing r g).bank k = s.bank k := rfl
@[simp] theorem State.unit_modRing (s : State) (r : Nat) (g : Ring → Ring) (k : Nat) : (s.modRing r g).unit k = s.unit k := rfl
@[simp] theorem State.pair_modRing (s : State) (r : Nat) (g : Ring → Ring) (k : Nat) : (s.modRing r g).pair k = s.pair k := rfl

/-- A raised event reads 1. -/
@[simp] theorem State.fget_raise_same (s : State) (f : Fld) (a b : Nat) (p : List Nat) : (s.raise f a b p).fget f = 1 % 2 ^ f.width := by
  rw [State.fget_raise, State.fget_fset_same]

/-- The records posted after an event. -/
theorem State.evq_raise (s : State) (f : Fld) (a b : Nat) (p : List Nat) : (s.raise f a b p).evq = s.evq ++
    (if s.fbit (evten f) then [{ src := a, code := b, payload := p, step := s.seq.step, time := s.ptime }] else []) := by
  by_cases h : s.fbit (evten f) = true
  · rw [State.evq_raise_on _ _ _ _ _ h, if_pos h]
  · rw [State.evq_raise_off _ _ _ _ _ (by simpa using h), if_neg h, List.append_nil]

/-- A field of a state written out. -/
theorem State.fget_mk {pending out now ptime ptRun free fields mem flash evq mbx seq clauses fab sch umem links fp load rim cap dbg noc hif mgt sec plt} (f : Fld) :
    (State.mk pending out now ptime ptRun free fields mem flash evq mbx seq clauses fab sch umem links fp load rim cap dbg noc hif mgt sec plt).fget f = kvGet f.reset fields f.key := rfl

theorem State.fget_eq (s : State) (f : Fld) : kvGet f.reset s.fields f.key = s.fget f := rfl

theorem State.clause_mk {pending out now ptime ptRun free fields mem flash evq mbx seq clauses fab sch umem links fp load rim cap dbg noc hif mgt sec plt} (k : Nat) :
    (State.mk pending out now ptime ptRun free fields mem flash evq mbx seq clauses fab sch umem links fp load rim cap dbg noc hif mgt sec plt).clause k = kvGet {} clauses k := rfl

theorem State.clause_eq (s : State) (k : Nat) : kvGet {} s.clauses k = s.clause k := rfl

theorem State.link_mk {pending out now ptime ptRun free fields mem flash evq mbx seq clauses fab sch umem links fp load rim cap dbg noc hif mgt sec plt} (k : Nat) :
    (State.mk pending out now ptime ptRun free fields mem flash evq mbx seq clauses fab sch umem links fp load rim cap dbg noc hif mgt sec plt).link k = kvGet {} links k := rfl

theorem State.link_eq (s : State) (k : Nat) : kvGet {} s.links k = s.link k := rfl

theorem State.conn_mk {pending out now ptime ptRun free fields mem flash evq mbx seq clauses fab sch umem links fp load rim cap dbg noc hif mgt sec plt} (k : Nat) :
    (State.mk pending out now ptime ptRun free fields mem flash evq mbx seq clauses fab sch umem links fp load rim cap dbg noc hif mgt sec plt).conn k = kvGet {} fab.conns k := rfl

theorem State.conn_eq (s : State) (k : Nat) : kvGet {} s.fab.conns k = s.conn k := rfl

theorem State.group_mk {pending out now ptime ptRun free fields mem flash evq mbx seq clauses fab sch umem links fp load rim cap dbg noc hif mgt sec plt} (k : Nat) :
    (State.mk pending out now ptime ptRun free fields mem flash evq mbx seq clauses fab sch umem links fp load rim cap dbg noc hif mgt sec plt).group k = kvGet {} rim.groups k := rfl

theorem State.group_eq (s : State) (k : Nat) : kvGet {} s.rim.groups k = s.group k := rfl

theorem State.bank_mk {pending out now ptime ptRun free fields mem flash evq mbx seq clauses fab sch umem links fp load rim cap dbg noc hif mgt sec plt} (k : Nat) :
    (State.mk pending out now ptime ptRun free fields mem flash evq mbx seq clauses fab sch umem links fp load rim cap dbg noc hif mgt sec plt).bank k = kvGet {} rim.banks k := rfl

theorem State.bank_eq (s : State) (k : Nat) : kvGet {} s.rim.banks k = s.bank k := rfl

theorem State.unit_mk {pending out now ptime ptRun free fields mem flash evq mbx seq clauses fab sch umem links fp load rim cap dbg noc hif mgt sec plt} (k : Nat) :
    (State.mk pending out now ptime ptRun free fields mem flash evq mbx seq clauses fab sch umem links fp load rim cap dbg noc hif mgt sec plt).unit k = kvGet {} cap.units k := rfl

theorem State.unit_eq (s : State) (k : Nat) : kvGet {} s.cap.units k = s.unit k := rfl

theorem State.pair_mk {pending out now ptime ptRun free fields mem flash evq mbx seq clauses fab sch umem links fp load rim cap dbg noc hif mgt sec plt} (k : Nat) :
    (State.mk pending out now ptime ptRun free fields mem flash evq mbx seq clauses fab sch umem links fp load rim cap dbg noc hif mgt sec plt).pair k = kvGet {} mgt.pairs k := rfl

theorem State.pair_eq (s : State) (k : Nat) : kvGet {} s.mgt.pairs k = s.pair k := rfl

theorem State.dmaCh_mk {pending out now ptime ptRun free fields mem flash evq mbx seq clauses fab sch umem links fp load rim cap dbg noc hif mgt sec plt} (k : Nat) :
    (State.mk pending out now ptime ptRun free fields mem flash evq mbx seq clauses fab sch umem links fp load rim cap dbg noc hif mgt sec plt).dmaCh k = kvGet {} hif.dma k := rfl

theorem State.dmaCh_eq (s : State) (k : Nat) : kvGet {} s.hif.dma k = s.dmaCh k := rfl

theorem State.ring_mk {pending out now ptime ptRun free fields mem flash evq mbx seq clauses fab sch umem links fp load rim cap dbg noc hif mgt sec plt} (k : Nat) :
    (State.mk pending out now ptime ptRun free fields mem flash evq mbx seq clauses fab sch umem links fp load rim cap dbg noc hif mgt sec plt).ring k = kvGet {} hif.rings k := rfl

theorem State.ring_eq (s : State) (k : Nat) : kvGet {} s.hif.rings k = s.ring k := rfl

end Sys2Proof.Machine
end

