-- ==== Sys2Proof/Laws/Frame.lean ====
section
/-! SUPPORT. Frame.lean: which parts of the state an operation may change. A set of parts is a mask: bit k stands for the k-th of
out, now, ptime, ptRun, free, mem, flash, evq, mbx, seq, clauses, fab, sch, umem, links, fp, load, rim, cap, dbg, noc, hif, mgt,
sec, plt; bit 25 + b for the register fields of the block with index b, bit 39 for no block. -/
set_option Elab.async false
namespace Sys2Proof.Machine

/-- Every part of a is one of b. -/
def Sub (a b : Nat) : Prop := a &&& b = a

theorem Sub.of {a b c : Nat} (h : Sub b c) (g : a &&& b = a) : Sub a c := by
  unfold Sub at *
  rw [← g, Nat.and_assoc, h]

theorem Sub.bit {a b k : Nat} (h : Sub a b) (g : a.testBit k = true) : b.testBit k = true := by
  unfold Sub at h
  rw [← h, Nat.testBit_and, Bool.and_eq_true] at g
  exact g.2

/-- The fields that stand outside the parts of E are those of s. -/
structure FrF (E : Nat) (s : State) (out : List Emit) (now : Nat) (ptime : Nat) (ptRun : Bool) (free : Nat) (mem : List Host.Cell) (flash : List Host.Cell) (evq : List Ev) (mbx : Kv Mbx) (seq : Seq) (clauses : Kv Clause) (fab : Fab) (sch : Sch) (umem : Mem) (links : Kv Lnk) (fp : BitVec 256) (load : Load) (rim : Rim) (cap : Cap) (dbg : Dbg) (noc : Noc) (hif : Hif) (mgt : Mgt) (sec : Sec) (plt : Plt) (fields : Kv Nat) : Prop where
  h_out : E.testBit 0 = false → out = s.out
  h_now : E.testBit 1 = false → now = s.now
  h_ptime : E.testBit 2 = false → ptime = s.ptime
  h_ptRun : E.testBit 3 = false → ptRun = s.ptRun
  h_free : E.testBit 4 = false → free = s.free
  h_mem : E.testBit 5 = false → mem = s.mem
  h_flash : E.testBit 6 = false → flash = s.flash
  h_evq : E.testBit 7 = false → evq = s.evq
  h_mbx : E.testBit 8 = false → mbx = s.mbx
  h_seq : E.testBit 9 = false → seq = s.seq
  h_clauses : E.testBit 10 = false → clauses = s.clauses
  h_fab : E.testBit 11 = false → fab = s.fab
  h_sch : E.testBit 12 = false → sch = s.sch
  h_umem : E.testBit 13 = false → umem = s.umem
  h_links : E.testBit 14 = false → links = s.links
  h_fp : E.testBit 15 = false → fp = s.fp
  h_load : E.testBit 16 = false → load = s.load
  h_rim : E.testBit 17 = false → rim = s.rim
  h_cap : E.testBit 18 = false → cap = s.cap
  h_dbg : E.testBit 19 = false → dbg = s.dbg
  h_noc : E.testBit 20 = false → noc = s.noc
  h_hif : E.testBit 21 = false → hif = s.hif
  h_mgt : E.testBit 22 = false → mgt = s.mgt
  h_sec : E.testBit 23 = false → sec = s.sec
  h_plt : E.testBit 24 = false → plt = s.plt
  h_regs : ∀ f : Fld, E.testBit (25 + f.block) = false → kvGet f.reset fields f.key = s.fget f

/-- From s to t nothing outside the parts of E changes. -/
def Fr (E : Nat) (s t : State) : Prop := FrF E s t.out t.now t.ptime t.ptRun t.free t.mem t.flash t.evq t.mbx t.seq t.clauses t.fab t.sch t.umem t.links t.fp t.load t.rim t.cap t.dbg t.noc t.hif t.mgt t.sec t.plt t.fields

theorem Fr.refl (E : Nat) (s : State) : Fr E s s := ⟨fun _ => rfl, fun _ => rfl, fun _ => rfl, fun _ => rfl, fun _ => rfl, fun _ => rfl, fun _ => rfl, fun _ => rfl, fun _ => rfl, fun _ => rfl, fun _ => rfl, fun _ => rfl, fun _ => rfl, fun _ => rfl, fun _ => rfl, fun _ => rfl, fun _ => rfl, fun _ => rfl, fun _ => rfl, fun _ => rfl, fun _ => rfl, fun _ => rfl, fun _ => rfl, fun _ => rfl, fun _ => rfl, fun _ _ => rfl⟩

theorem Fr.mk_eq {E : Nat} {s : State} {pending out now ptime ptRun free fields mem flash evq mbx seq clauses fab sch umem links fp load rim cap dbg noc hif mgt sec plt} :
    Fr E s (State.mk pending out now ptime ptRun free fields mem flash evq mbx seq clauses fab sch umem links fp load rim cap dbg noc hif mgt sec plt) = FrF E s out now ptime ptRun free mem flash evq mbx seq clauses fab sch umem links fp load rim cap dbg noc hif mgt sec plt fields := rfl

/-- A state written out changes what its fields change. -/
theorem FrF.upd {E : Nat} {s t : State} {out : List Emit} {now : Nat} {ptime : Nat} {ptRun : Bool} {free : Nat} {mem : List Host.Cell} {flash : List Host.Cell} {evq : List Ev} {mbx : Kv Mbx} {seq : Seq} {clauses : Kv Clause} {fab : Fab} {sch : Sch} {umem : Mem} {links : Kv Lnk} {fp : BitVec 256} {load : Load} {rim : Rim} {cap : Cap} {dbg : Dbg} {noc : Noc} {hif : Hif} {mgt : Mgt} {sec : Sec} {plt : Plt} {fields : Kv Nat}
    (g_out : out = t.out ∨ E.testBit 0 = true)
    (g_now : now = t.now ∨ E.testBit 1 = true)
    (g_ptime : ptime = t.ptime ∨ E.testBit 2 = true)
    (g_ptRun : ptRun = t.ptRun ∨ E.testBit 3 = true)
    (g_free : free = t.free ∨ E.testBit 4 = true)
    (g_mem : mem = t.mem ∨ E.testBit 5 = true)
    (g_flash : flash = t.flash ∨ E.testBit 6 = true)
    (g_evq : evq = t.evq ∨ E.testBit 7 = true)
    (g_mbx : mbx = t.mbx ∨ E.testBit 8 = true)
    (g_seq : seq = t.seq ∨ E.testBit 9 = true)
    (g_clauses : clauses = t.clauses ∨ E.testBit 10 = true)
    (g_fab : fab = t.fab ∨ E.testBit 11 = true)
    (g_sch : sch = t.sch ∨ E.testBit 12 = true)
    (g_umem : umem = t.umem ∨ E.testBit 13 = true)
    (g_links : links = t.links ∨ E.testBit 14 = true)
    (g_fp : fp = t.fp ∨ E.testBit 15 = true)
    (g_load : load = t.load ∨ E.testBit 16 = true)
    (g_rim : rim = t.rim ∨ E.testBit 17 = true)
    (g_cap : cap = t.cap ∨ E.testBit 18 = true)
    (g_dbg : dbg = t.dbg ∨ E.testBit 19 = true)
    (g_noc : noc = t.noc ∨ E.testBit 20 = true)
    (g_hif : hif = t.hif ∨ E.testBit 21 = true)
    (g_mgt : mgt = t.mgt ∨ E.testBit 22 = true)
    (g_sec : sec = t.sec ∨ E.testBit 23 = true)
    (g_plt : plt = t.plt ∨ E.testBit 24 = true)
    (g_fields : fields = t.fields)
    (h : Fr E s t) :
    FrF E s out now ptime ptRun free mem flash evq mbx seq clauses fab sch umem links fp load rim cap dbg noc hif mgt sec plt fields :=
  ⟨fun x => g_out.elim (fun y => y.trans (h.h_out x)) (fun y => absurd (x.symm.trans y) (by decide)), fun x => g_now.elim (fun y => y.trans (h.h_now x)) (fun y => absurd (x.symm.trans y) (by decide)), fun x => g_ptime.elim (fun y => y.trans (h.h_ptime x)) (fun y => absurd (x.symm.trans y) (by decide)), fun x => g_ptRun.elim (fun y => y.trans (h.h_ptRun x)) (fun y => absurd (x.symm.trans y) (by decide)), fun x => g_free.elim (fun y => y.trans (h.h_free x)) (fun y => absurd (x.symm.trans y) (by decide)), fun x => g_mem.elim (fun y => y.trans (h.h_mem x)) (fun y => absurd (x.symm.trans y) (by decide)), fun x => g_flash.elim (fun y => y.trans (h.h_flash x)) (fun y => absurd (x.symm.trans y) (by decide)), fun x => g_evq.elim (fun y => y.trans (h.h_evq x)) (fun y => absurd (x.symm.trans y) (by decide)), fun x => g_mbx.elim (fun y => y.trans (h.h_mbx x)) (fun y => absurd (x.symm.trans y) (by decide)), fun x => g_seq.elim (fun y => y.trans (h.h_seq x)) (fun y => absurd (x.symm.trans y) (by decide)), fun x => g_clauses.elim (fun y => y.trans (h.h_clauses x)) (fun y => absurd (x.symm.trans y) (by decide)), fun x => g_fab.elim (fun y => y.trans (h.h_fab x)) (fun y => absurd (x.symm.trans y) (by decide)), fun x => g_sch.elim (fun y => y.trans (h.h_sch x)) (fun y => absurd (x.symm.trans y) (by decide)), fun x => g_umem.elim (fun y => y.trans (h.h_umem x)) (fun y => absurd (x.symm.trans y) (by decide)), fun x => g_links.elim (fun y => y.trans (h.h_links x)) (fun y => absurd (x.symm.trans y) (by decide)), fun x => g_fp.elim (fun y => y.trans (h.h_fp x)) (fun y => absurd (x.symm.trans y) (by decide)), fun x => g_load.elim (fun y => y.trans (h.h_load x)) (fun y => absurd (x.symm.trans y) (by decide)), fun x => g_rim.elim (fun y => y.trans (h.h_rim x)) (fun y => absurd (x.symm.trans y) (by decide)), fun x => g_cap.elim (fun y => y.trans (h.h_cap x)) (fun y => absurd (x.symm.trans y) (by decide)), fun x => g_dbg.elim (fun y => y.trans (h.h_dbg x)) (fun y => absurd (x.symm.trans y) (by decide)), fun x => g_noc.elim (fun y => y.trans (h.h_noc x)) (fun y => absurd (x.symm.trans y) (by decide)), fun x => g_hif.elim (fun y => y.trans (h.h_hif x)) (fun y => absurd (x.symm.trans y) (by decide)), fun x => g_mgt.elim (fun y => y.trans (h.h_mgt x)) (fun y => absurd (x.symm.trans y) (by decide)), fun x => g_sec.elim (fun y => y.trans (h.h_sec x)) (fun y => absurd (x.symm.trans y) (by decide)), fun x => g_plt.elim (fun y => y.trans (h.h_plt x)) (fun y => absurd (x.symm.trans y) (by decide)), fun f x => by rw [g_fields]; exact h.h_regs f x⟩

theorem Fr.ite {E : Nat} {s a b : State} {c : Prop} [Decidable c] (ha : Fr E s a) (hb : Fr E s b) :
    Fr E s (if c then a else b) := by
  split <;> assumption

theorem Fr.foldl {E : Nat} {s t : State} {α : Type} {f : State → α → State} {l : List α}
    (hf : ∀ (t : State) (a : α), Fr E s t → Fr E s (f t a)) (h : Fr E s t) : Fr E s (l.foldl f t) := by
  induction l generalizing t with
  | nil => exact h
  | cons a l ih => exact ih (hf t a h)

/-- A fold whose step is given for the members of the list. -/
theorem Fr.foldl_mem {E : Nat} {s t : State} {α : Type} {f : State → α → State} {l : List α}
    (hf : ∀ (t : State) (a : α), a ∈ l → Fr E s t → Fr E s (f t a)) (h : Fr E s t) : Fr E s (l.foldl f t) := by
  induction l generalizing t with
  | nil => exact h
  | cons a l ih =>
    exact ih (fun t b hb => hf t b (List.mem_cons_of_mem a hb)) (hf t a List.mem_cons_self h)

/-- A fold that carries a value beside the state. -/
theorem Fr.foldl_of {E : Nat} {s : State} {α β : Type} (g : β → State) {f : β → α → β} {l : List α}
    (hf : ∀ (t : β) (a : α), Fr E s (g t) → Fr E s (g (f t a))) {t : β} (h : Fr E s (g t)) : Fr E s (g (l.foldl f t)) := by
  induction l generalizing t with
  | nil => exact h
  | cons a l ih => exact ih (hf t a h)

theorem ok_frame {β : Type} {E : Nat} {s u : State} {x : β × State} {v : β}
    (e : (Except.ok x : Except Fault (β × State)) = .ok (v, u)) (h : Fr E s x.2) : Fr E s u := by
  cases e
  exact h

theorem some_frame {β : Type} {E : Nat} {s u : State} {x : β × State} {v : β} (e : some x = some (v, u)) (h : Fr E s x.2) :
    Fr E s u := by
  cases e
  exact h

/-- A field written: the fields of other blocks stay. -/
theorem State.fset_frame {E : Nat} (f : Fld) (v : Nat) {s0 t : State} (h : Fr E s0 t) (hE : E.testBit (25 + f.block) = true) :
    Fr E s0 (t.fset f v) := by
  refine ⟨h.h_out, h.h_now, h.h_ptime, h.h_ptRun, h.h_free, h.h_mem, h.h_flash, h.h_evq, h.h_mbx, h.h_seq, h.h_clauses, h.h_fab, h.h_sch,
    h.h_umem, h.h_links, h.h_fp, h.h_load, h.h_rim, h.h_cap, h.h_dbg, h.h_noc, h.h_hif, h.h_mgt, h.h_sec, h.h_plt, fun g hg => ?_⟩
  rw [← h.h_regs g hg]
  have hk : g.key ≠ f.key := by
    intro hk
    have : g.block = f.block := by unfold Fld.block; rw [hk]
    rw [this, hE] at hg
    cases hg
  show kvGet g.reset (kvSet f.reset t.fields f.key _) g.key = _
  exact kvGet_kvSet_ne _ _ _ _ hk

theorem State.fsetb_frame {E : Nat} (f : Fld) (b : Bool) {s0 t : State} (h : Fr E s0 t) (hE : E.testBit (25 + f.block) = true) :
    Fr E s0 (t.fsetb f b) := State.fset_frame f _ h hE

theorem State.count_frame {E : Nat} (f : Fld) {s0 t : State} (h : Fr E s0 t) (hE : E.testBit (25 + f.block) = true) :
    Fr E s0 (t.count f) := State.fset_frame f _ h hE

theorem State.countBy_frame {E : Nat} (f : Fld) (n : Nat) {s0 t : State} (h : Fr E s0 t) (hE : E.testBit (25 + f.block) = true) :
    Fr E s0 (t.countBy f n) := State.fset_frame f _ h hE

theorem State.raiseAt_frame {E : Nat} (f : Fld) (a b : Nat) (p : List Nat) (n m : Nat) (c : Bool) {s0 t : State} (h : Fr E s0 t)
    (hE : E.testBit (25 + f.block) = true) (hQ : E.testBit 7 = true) : Fr E s0 (t.raiseAt f a b p n m c) := by
  have g := State.fset_frame f 1 h hE
  unfold State.raiseAt
  dsimp only
  split
  · simp only [Fr.mk_eq]
    exact ⟨g.h_out, g.h_now, g.h_ptime, g.h_ptRun, g.h_free, g.h_mem, g.h_flash, fun x => absurd (x.symm.trans hQ) (by decide), g.h_mbx,
      g.h_seq, g.h_clauses, g.h_fab, g.h_sch, g.h_umem, g.h_links, g.h_fp, g.h_load, g.h_rim, g.h_cap, g.h_dbg, g.h_noc, g.h_hif, g.h_mgt,
      g.h_sec, g.h_plt, g.h_regs⟩
  · exact g

theorem State.raise_frame {E : Nat} (f : Fld) (a b : Nat) (p : List Nat) {s0 t : State} (h : Fr E s0 t)
    (hE : E.testBit (25 + f.block) = true) (hQ : E.testBit 7 = true) : Fr E s0 (t.raise f a b p) :=
  State.raiseAt_frame f a b p _ _ _ h hE hQ

/-- The entries outside a dropped range stay. -/
theorem kvGet_kvDrop {α : Type} (d : α) (m : List (Nat × α)) (lo hi k : Nat) (h : k < lo ∨ hi ≤ k) :
    kvGet d (kvDrop m lo hi) k = kvGet d m k := by
  induction m with
  | nil => rfl
  | cons e m ih =>
    obtain ⟨a, v⟩ := e
    unfold kvDrop at ih ⊢
    by_cases hc : (!(decide (lo ≤ a) && decide (a < hi))) = true
    · rw [List.filter_cons_of_pos (by exact hc)]
      simp only [kvGet]
      rw [ih]
    · rw [List.filter_cons_of_neg (by exact hc), ih]
      have : a ≠ k := by
        simp only [Bool.not_eq_true, Bool.not_eq_false', Bool.and_eq_true, decide_eq_true_eq] at hc
        omega
      simp only [kvGet, if_neg this]

/-- A range of registers dropped: the fields of other blocks stay. -/
theorem dropFields_frame {E : Nat} (lo hi b : Nat) {s0 t : State} (h : Fr E s0 t)
    (hb : ∀ a, lo ≤ a → a < hi → blockOf a = some b) (hE : E.testBit (25 + b) = true) : Fr E s0 (dropFields lo hi t) := by
  refine ⟨h.h_out, h.h_now, h.h_ptime, h.h_ptRun, h.h_free, h.h_mem, h.h_flash, h.h_evq, h.h_mbx, h.h_seq, h.h_clauses, h.h_fab, h.h_sch,
    h.h_umem, h.h_links, h.h_fp, h.h_load, h.h_rim, h.h_cap, h.h_dbg, h.h_noc, h.h_hif, h.h_mgt, h.h_sec, h.h_plt, fun g hg => ?_⟩
  rw [← h.h_regs g hg]
  refine kvGet_kvDrop _ _ _ _ _ ?_
  by_contra hc
  have hk : g.block = b := by unfold Fld.block; rw [hb _ (by omega) (by omega)]; rfl
  rw [hk, hE] at hg
  cases hg

theorem Fld.block_lt (f : Fld) : f.block < 15 := by
  unfold Fld.block blockOf
  dsimp only
  split
  · simp only [Option.getD_some]; omega
  · split
    · decide
    · split
      · simp only [Option.getD_some]; omega
      · decide

/-- Any field written, where every register may change. -/
theorem Sub.anyFld {E : Nat} (f : Fld) (h : Sub 0xFFFE000000 E) : E.testBit (25 + f.block) = true := by
  refine Sub.bit h ?_
  have := f.block_lt
  generalize f.block = b at this ⊢
  interval_cases b <;> decide

theorem Fld.block_low {f : Fld} {m : Nat} (h : f.key / 32 / 1048576 = m) (hm : m ≤ 6) : f.block = m := by
  subst h
  unfold Fld.block blockOf
  simp only [if_pos hm, Option.getD_some]

theorem Fld.block_cls {f : Fld} (h : 8 ≤ f.key / 32 / 1048576 ∧ f.key / 32 / 1048576 ≤ 12) : f.block = 7 := by
  have h1 : ¬f.key / 32 / 1048576 ≤ 6 := by omega
  unfold Fld.block blockOf
  simp only [if_neg h1, if_pos h, Option.getD_some]

theorem Fld.block_high {f : Fld} {m : Nat} (h : f.key / 32 / 1048576 = m) (hm : 13 ≤ m ∧ m ≤ 18) : f.block = m - 5 := by
  subst h
  have h1 : ¬f.key / 32 / 1048576 ≤ 6 := by omega
  have h2 : ¬(8 ≤ f.key / 32 / 1048576 ∧ f.key / 32 / 1048576 ≤ 12) := by omega
  unfold Fld.block blockOf
  simp only [if_neg h1, if_neg h2, if_pos hm, Option.getD_some]

/-- The register fields of a trigger unit lie in the capture block. -/
theorem unitFields_block (u : Nat) (f : Fld) (h : f ∈ unitFields u) : f.block = 12 := by
  refine Fld.block_high (m := 17) ?_ (by decide)
  unfold unitFields at h
  simp only [List.mem_cons, List.not_mem_nil, or_false] at h
  rcases h with rfl | rfl | rfl | rfl | rfl | rfl | rfl | rfl | rfl | rfl | rfl | rfl | rfl | rfl | rfl
  all_goals simp only [Fld.key, F.CAP_TUCTL_EN, F.CAP_TUCTL_ACT, F.CAP_TUCTL_COND, F.CAP_TUCTL_POL, F.CAP_TUCTL_INV, F.CAP_TUCTL_HMODE,
    F.CAP_TUCTL_XCH, F.CAP_TUSRC_KIND, F.CAP_TUSRC_BANK, F.CAP_TUSRC_PIN, F.CAP_TUMIN_MIN, F.CAP_TUMAX_MAX, F.CAP_TUTHR_HI, F.CAP_TUTHR_LO,
    F.CAP_TUHOLD_HOLD]; omega

theorem F.MGT_WDT_EN_block (i : Nat) : (F.MGT_WDT_EN i).block = 2 :=
  Fld.block_low (by simp only [Fld.key, F.MGT_WDT_EN]; omega) (by decide)

theorem F.MGT_WDT_TIMEOUT_block (i : Nat) : (F.MGT_WDT_TIMEOUT i).block = 2 :=
  Fld.block_low (by simp only [Fld.key, F.MGT_WDT_TIMEOUT]; omega) (by decide)

theorem F.MGT_FPU_EN_block (i : Nat) : (F.MGT_FPU_EN i).block = 2 :=
  Fld.block_low (by simp only [Fld.key, F.MGT_FPU_EN]; omega) (by decide)

theorem F.MGT_FPU_MODE_block (i : Nat) : (F.MGT_FPU_MODE i).block = 2 :=
  Fld.block_low (by simp only [Fld.key, F.MGT_FPU_MODE]; omega) (by decide)

theorem F.MGT_FPU_LINE_block (i : Nat) : (F.MGT_FPU_LINE i).block = 2 :=
  Fld.block_low (by simp only [Fld.key, F.MGT_FPU_LINE]; omega) (by decide)

theorem F.HIF_AWIN_EN_block (i : Nat) : (F.HIF_AWIN_EN i).block = 3 :=
  Fld.block_low (by simp only [Fld.key, F.HIF_AWIN_EN]; omega) (by decide)

theorem F.HIF_AWIN_BASE_block (i : Nat) : (F.HIF_AWIN_BASE i).block = 3 :=
  Fld.block_low (by simp only [Fld.key, F.HIF_AWIN_BASE]; omega) (by decide)

theorem F.HIF_EVCFG_EN_block (i : Nat) : (F.HIF_EVCFG_EN i).block = 3 :=
  Fld.block_low (by simp only [Fld.key, F.HIF_EVCFG_EN]; omega) (by decide)

theorem F.HIF_EVCFG_VEC_block (i : Nat) : (F.HIF_EVCFG_VEC i).block = 3 :=
  Fld.block_low (by simp only [Fld.key, F.HIF_EVCFG_VEC]; omega) (by decide)

theorem F.HIF_EVCFG_LOG2_block (i : Nat) : (F.HIF_EVCFG_LOG2 i).block = 3 :=
  Fld.block_low (by simp only [Fld.key, F.HIF_EVCFG_LOG2]; omega) (by decide)

theorem F.HIF_EVCFG_CNT_block (i : Nat) : (F.HIF_EVCFG_CNT i).block = 3 :=
  Fld.block_low (by simp only [Fld.key, F.HIF_EVCFG_CNT]; omega) (by decide)

theorem F.HIF_EVCFG_TIME_block (i : Nat) : (F.HIF_EVCFG_TIME i).block = 3 :=
  Fld.block_low (by simp only [Fld.key, F.HIF_EVCFG_TIME]; omega) (by decide)

theorem F.HIF_DCTL_EN_block (i : Nat) : (F.HIF_DCTL_EN i).block = 3 :=
  Fld.block_low (by simp only [Fld.key, F.HIF_DCTL_EN]; omega) (by decide)

theorem F.HIF_DCTL_WB_block (i : Nat) : (F.HIF_DCTL_WB i).block = 3 :=
  Fld.block_low (by simp only [Fld.key, F.HIF_DCTL_WB]; omega) (by decide)

theorem F.HIF_DCTL_VEC_block (i : Nat) : (F.HIF_DCTL_VEC i).block = 3 :=
  Fld.block_low (by simp only [Fld.key, F.HIF_DCTL_VEC]; omega) (by decide)

theorem F.HIF_DCTL_LOG2_block (i : Nat) : (F.HIF_DCTL_LOG2 i).block = 3 :=
  Fld.block_low (by simp only [Fld.key, F.HIF_DCTL_LOG2]; omega) (by decide)

theorem F.SCH_PU_MODE_block (i : Nat) : (F.SCH_PU_MODE i).block = 6 :=
  Fld.block_low (by simp only [Fld.key, F.SCH_PU_MODE]; omega) (by decide)

theorem F.SCH_PU_CLAUSE_block (i : Nat) : (F.SCH_PU_CLAUSE i).block = 6 :=
  Fld.block_low (by simp only [Fld.key, F.SCH_PU_CLAUSE]; omega) (by decide)

theorem F.SCH_PU_KIND_block (i : Nat) : (F.SCH_PU_KIND i).block = 6 :=
  Fld.block_low (by simp only [Fld.key, F.SCH_PU_KIND]; omega) (by decide)

theorem F.SCH_PU_INDEX_block (i : Nat) : (F.SCH_PU_INDEX i).block = 6 :=
  Fld.block_low (by simp only [Fld.key, F.SCH_PU_INDEX]; omega) (by decide)

theorem F.SCH_PU_PHASE_block (i : Nat) : (F.SCH_PU_PHASE i).block = 6 :=
  Fld.block_low (by simp only [Fld.key, F.SCH_PU_PHASE]; omega) (by decide)

theorem F.CLS_EVT_SPARE_block (i : Nat) : (F.CLS_EVT_SPARE i).block = 7 :=
  Fld.block_cls (by simp only [Fld.key, F.CLS_EVT_SPARE]; omega)

theorem F.CLS_EVT_PORT_XADDR_block (i : Nat) : (F.CLS_EVT_PORT_XADDR i).block = 7 :=
  Fld.block_cls (by simp only [Fld.key, F.CLS_EVT_PORT_XADDR]; omega)

theorem F.CLS_EVT_CHECK_block (i : Nat) : (F.CLS_EVT_CHECK i).block = 7 :=
  Fld.block_cls (by simp only [Fld.key, F.CLS_EVT_CHECK]; omega)

theorem F.CLS_EVT_CQ_PARITY_block (i : Nat) : (F.CLS_EVT_CQ_PARITY i).block = 7 :=
  Fld.block_cls (by simp only [Fld.key, F.CLS_EVT_CQ_PARITY]; omega)

theorem F.CLS_EVT_VS_PARITY_block (i : Nat) : (F.CLS_EVT_VS_PARITY i).block = 7 :=
  Fld.block_cls (by simp only [Fld.key, F.CLS_EVT_VS_PARITY]; omega)

theorem F.CLS_EVT_DICT_UE_block (i : Nat) : (F.CLS_EVT_DICT_UE i).block = 7 :=
  Fld.block_cls (by simp only [Fld.key, F.CLS_EVT_DICT_UE]; omega)

theorem F.CLS_EVT_DICT_FIX_block (i : Nat) : (F.CLS_EVT_DICT_FIX i).block = 7 :=
  Fld.block_cls (by simp only [Fld.key, F.CLS_EVT_DICT_FIX]; omega)

theorem F.CLS_SPARE_RESULT_block (i : Nat) : (F.CLS_SPARE_RESULT i).block = 7 :=
  Fld.block_cls (by simp only [Fld.key, F.CLS_SPARE_RESULT]; omega)

theorem F.CLS_SPARE_GO_block (i : Nat) : (F.CLS_SPARE_GO i).block = 7 :=
  Fld.block_cls (by simp only [Fld.key, F.CLS_SPARE_GO]; omega)

theorem F.CLS_SPARE_TARGET_block (i : Nat) : (F.CLS_SPARE_TARGET i).block = 7 :=
  Fld.block_cls (by simp only [Fld.key, F.CLS_SPARE_TARGET]; omega)

theorem F.CLS_CNT_DFIX_COUNT_block (i : Nat) : (F.CLS_CNT_DFIX_COUNT i).block = 7 :=
  Fld.block_cls (by simp only [Fld.key, F.CLS_CNT_DFIX_COUNT]; omega)

theorem F.CLS_CNT_DUE_COUNT_block (i : Nat) : (F.CLS_CNT_DUE_COUNT i).block = 7 :=
  Fld.block_cls (by simp only [Fld.key, F.CLS_CNT_DUE_COUNT]; omega)

theorem F.CLS_CNT_VSPAR_COUNT_block (i : Nat) : (F.CLS_CNT_VSPAR_COUNT i).block = 7 :=
  Fld.block_cls (by simp only [Fld.key, F.CLS_CNT_VSPAR_COUNT]; omega)

theorem F.CLS_CNT_CQPAR_COUNT_block (i : Nat) : (F.CLS_CNT_CQPAR_COUNT i).block = 7 :=
  Fld.block_cls (by simp only [Fld.key, F.CLS_CNT_CQPAR_COUNT]; omega)

theorem F.CLS_CNT_CHECK_COUNT_block (i : Nat) : (F.CLS_CNT_CHECK_COUNT i).block = 7 :=
  Fld.block_cls (by simp only [Fld.key, F.CLS_CNT_CHECK_COUNT]; omega)

theorem F.CLS_CNT_CHKDROP_COUNT_block (i : Nat) : (F.CLS_CNT_CHKDROP_COUNT i).block = 7 :=
  Fld.block_cls (by simp only [Fld.key, F.CLS_CNT_CHKDROP_COUNT]; omega)

theorem F.CLS_PXW_COUNT_block (i q : Nat) : (F.CLS_PXW_COUNT i q).block = 7 :=
  Fld.block_cls (by simp only [Fld.key, F.CLS_PXW_COUNT]; omega)

theorem F.LNK_CTL_AUTOSPARE_block (i : Nat) : (F.LNK_CTL_AUTOSPARE i).block = 9 :=
  Fld.block_high (m := 14) (by simp only [Fld.key, F.LNK_CTL_AUTOSPARE]; omega) (by decide)

theorem F.LNK_CTL_MODE_block (i : Nat) : (F.LNK_CTL_MODE i).block = 9 :=
  Fld.block_high (m := 14) (by simp only [Fld.key, F.LNK_CTL_MODE]; omega) (by decide)

theorem F.LNK_CTL_EN_block (i : Nat) : (F.LNK_CTL_EN i).block = 9 :=
  Fld.block_high (m := 14) (by simp only [Fld.key, F.LNK_CTL_EN]; omega) (by decide)

theorem F.LNK_STAT_SPARE_block (i : Nat) : (F.LNK_STAT_SPARE i).block = 9 :=
  Fld.block_high (m := 14) (by simp only [Fld.key, F.LNK_STAT_SPARE]; omega) (by decide)

theorem F.LNK_STAT_SPARE_OK_block (i : Nat) : (F.LNK_STAT_SPARE_OK i).block = 9 :=
  Fld.block_high (m := 14) (by simp only [Fld.key, F.LNK_STAT_SPARE_OK]; omega) (by decide)

theorem F.LNK_STAT_SPARE_BUSY_block (i : Nat) : (F.LNK_STAT_SPARE_BUSY i).block = 9 :=
  Fld.block_high (m := 14) (by simp only [Fld.key, F.LNK_STAT_SPARE_BUSY]; omega) (by decide)

theorem F.LNK_STAT_REASON_block (i : Nat) : (F.LNK_STAT_REASON i).block = 9 :=
  Fld.block_high (m := 14) (by simp only [Fld.key, F.LNK_STAT_REASON]; omega) (by decide)

theorem F.LNK_EVT_MSG_block (i : Nat) : (F.LNK_EVT_MSG i).block = 9 :=
  Fld.block_high (m := 14) (by simp only [Fld.key, F.LNK_EVT_MSG]; omega) (by decide)

theorem F.LNK_EVT_RESUMED_block (i : Nat) : (F.LNK_EVT_RESUMED i).block = 9 :=
  Fld.block_high (m := 14) (by simp only [Fld.key, F.LNK_EVT_RESUMED]; omega) (by decide)

theorem F.LNK_EVT_RETRY_block (i : Nat) : (F.LNK_EVT_RETRY i).block = 9 :=
  Fld.block_high (m := 14) (by simp only [Fld.key, F.LNK_EVT_RETRY]; omega) (by decide)

theorem F.LNK_EVT_EYE_LOW_block (i : Nat) : (F.LNK_EVT_EYE_LOW i).block = 9 :=
  Fld.block_high (m := 14) (by simp only [Fld.key, F.LNK_EVT_EYE_LOW]; omega) (by decide)

theorem F.LNK_EVT_LANE_block (i : Nat) : (F.LNK_EVT_LANE i).block = 9 :=
  Fld.block_high (m := 14) (by simp only [Fld.key, F.LNK_EVT_LANE]; omega) (by decide)

theorem F.LNK_EVT_SLOT_block (i : Nat) : (F.LNK_EVT_SLOT i).block = 9 :=
  Fld.block_high (m := 14) (by simp only [Fld.key, F.LNK_EVT_SLOT]; omega) (by decide)

theorem F.LNK_EVT_MODE_block (i : Nat) : (F.LNK_EVT_MODE i).block = 9 :=
  Fld.block_high (m := 14) (by simp only [Fld.key, F.LNK_EVT_MODE]; omega) (by decide)

theorem F.LNK_EVT_DOWN_block (i : Nat) : (F.LNK_EVT_DOWN i).block = 9 :=
  Fld.block_high (m := 14) (by simp only [Fld.key, F.LNK_EVT_DOWN]; omega) (by decide)

theorem F.LNK_EVT_UP_block (i : Nat) : (F.LNK_EVT_UP i).block = 9 :=
  Fld.block_high (m := 14) (by simp only [Fld.key, F.LNK_EVT_UP]; omega) (by decide)

theorem F.LNK_SPARE_GO_block (i : Nat) : (F.LNK_SPARE_GO i).block = 9 :=
  Fld.block_high (m := 14) (by simp only [Fld.key, F.LNK_SPARE_GO]; omega) (by decide)

theorem F.LNK_SPARE_RESULT_block (i : Nat) : (F.LNK_SPARE_RESULT i).block = 9 :=
  Fld.block_high (m := 14) (by simp only [Fld.key, F.LNK_SPARE_RESULT]; omega) (by decide)

theorem F.LNK_SPARE_LANE_block (i : Nat) : (F.LNK_SPARE_LANE i).block = 9 :=
  Fld.block_high (m := 14) (by simp only [Fld.key, F.LNK_SPARE_LANE]; omega) (by decide)

theorem F.LNK_CNT_FECC_COUNT_block (i : Nat) : (F.LNK_CNT_FECC_COUNT i).block = 9 :=
  Fld.block_high (m := 14) (by simp only [Fld.key, F.LNK_CNT_FECC_COUNT]; omega) (by decide)

theorem F.LNK_CNT_FECU_COUNT_block (i : Nat) : (F.LNK_CNT_FECU_COUNT i).block = 9 :=
  Fld.block_high (m := 14) (by simp only [Fld.key, F.LNK_CNT_FECU_COUNT]; omega) (by decide)

theorem F.LNK_CNT_CRC_COUNT_block (i : Nat) : (F.LNK_CNT_CRC_COUNT i).block = 9 :=
  Fld.block_high (m := 14) (by simp only [Fld.key, F.LNK_CNT_CRC_COUNT]; omega) (by decide)

theorem F.LNK_CNT_TAG_COUNT_block (i : Nat) : (F.LNK_CNT_TAG_COUNT i).block = 9 :=
  Fld.block_high (m := 14) (by simp only [Fld.key, F.LNK_CNT_TAG_COUNT]; omega) (by decide)

theorem F.LNK_CNT_RETRY_COUNT_block (i : Nat) : (F.LNK_CNT_RETRY_COUNT i).block = 9 :=
  Fld.block_high (m := 14) (by simp only [Fld.key, F.LNK_CNT_RETRY_COUNT]; omega) (by decide)

theorem F.RIM_IOSTAT_RESULT_block (i : Nat) : (F.RIM_IOSTAT_RESULT i).block = 11 :=
  Fld.block_high (m := 16) (by simp only [Fld.key, F.RIM_IOSTAT_RESULT]; omega) (by decide)

theorem F.CAP_TUCTL_EN_block (i : Nat) : (F.CAP_TUCTL_EN i).block = 12 :=
  Fld.block_high (m := 17) (by simp only [Fld.key, F.CAP_TUCTL_EN]; omega) (by decide)

theorem F.CAP_TUCTL_ACT_block (i : Nat) : (F.CAP_TUCTL_ACT i).block = 12 :=
  Fld.block_high (m := 17) (by simp only [Fld.key, F.CAP_TUCTL_ACT]; omega) (by decide)

theorem F.CAP_TUCTL_COND_block (i : Nat) : (F.CAP_TUCTL_COND i).block = 12 :=
  Fld.block_high (m := 17) (by simp only [Fld.key, F.CAP_TUCTL_COND]; omega) (by decide)

theorem F.CAP_TUCTL_POL_block (i : Nat) : (F.CAP_TUCTL_POL i).block = 12 :=
  Fld.block_high (m := 17) (by simp only [Fld.key, F.CAP_TUCTL_POL]; omega) (by decide)

theorem F.CAP_TUCTL_INV_block (i : Nat) : (F.CAP_TUCTL_INV i).block = 12 :=
  Fld.block_high (m := 17) (by simp only [Fld.key, F.CAP_TUCTL_INV]; omega) (by decide)

theorem F.CAP_TUCTL_HMODE_block (i : Nat) : (F.CAP_TUCTL_HMODE i).block = 12 :=
  Fld.block_high (m := 17) (by simp only [Fld.key, F.CAP_TUCTL_HMODE]; omega) (by decide)

theorem F.CAP_TUCTL_XCH_block (i : Nat) : (F.CAP_TUCTL_XCH i).block = 12 :=
  Fld.block_high (m := 17) (by simp only [Fld.key, F.CAP_TUCTL_XCH]; omega) (by decide)

theorem F.CAP_TUSRC_KIND_block (i : Nat) : (F.CAP_TUSRC_KIND i).block = 12 :=
  Fld.block_high (m := 17) (by simp only [Fld.key, F.CAP_TUSRC_KIND]; omega) (by decide)

theorem F.CAP_TUSRC_BANK_block (i : Nat) : (F.CAP_TUSRC_BANK i).block = 12 :=
  Fld.block_high (m := 17) (by simp only [Fld.key, F.CAP_TUSRC_BANK]; omega) (by decide)

theorem F.CAP_TUSRC_PIN_block (i : Nat) : (F.CAP_TUSRC_PIN i).block = 12 :=
  Fld.block_high (m := 17) (by simp only [Fld.key, F.CAP_TUSRC_PIN]; omega) (by decide)

theorem F.CAP_TUMIN_MIN_block (i : Nat) : (F.CAP_TUMIN_MIN i).block = 12 :=
  Fld.block_high (m := 17) (by simp only [Fld.key, F.CAP_TUMIN_MIN]; omega) (by decide)

theorem F.CAP_TUMAX_MAX_block (i : Nat) : (F.CAP_TUMAX_MAX i).block = 12 :=
  Fld.block_high (m := 17) (by simp only [Fld.key, F.CAP_TUMAX_MAX]; omega) (by decide)

theorem F.CAP_TUTHR_HI_block (i : Nat) : (F.CAP_TUTHR_HI i).block = 12 :=
  Fld.block_high (m := 17) (by simp only [Fld.key, F.CAP_TUTHR_HI]; omega) (by decide)

theorem F.CAP_TUTHR_LO_block (i : Nat) : (F.CAP_TUTHR_LO i).block = 12 :=
  Fld.block_high (m := 17) (by simp only [Fld.key, F.CAP_TUTHR_LO]; omega) (by decide)

theorem F.CAP_TUHOLD_HOLD_block (i : Nat) : (F.CAP_TUHOLD_HOLD i).block = 12 :=
  Fld.block_high (m := 17) (by simp only [Fld.key, F.CAP_TUHOLD_HOLD]; omega) (by decide)

theorem F.CAP_TUSTAT_DROP_block (i : Nat) : (F.CAP_TUSTAT_DROP i).block = 12 :=
  Fld.block_high (m := 17) (by simp only [Fld.key, F.CAP_TUSTAT_DROP]; omega) (by decide)

theorem F.CAP_TUSTAT_CFGERR_block (i : Nat) : (F.CAP_TUSTAT_CFGERR i).block = 12 :=
  Fld.block_high (m := 17) (by simp only [Fld.key, F.CAP_TUSTAT_CFGERR]; omega) (by decide)

theorem F.CAP_TUSTAT_WERR_block (i : Nat) : (F.CAP_TUSTAT_WERR i).block = 12 :=
  Fld.block_high (m := 17) (by simp only [Fld.key, F.CAP_TUSTAT_WERR]; omega) (by decide)

theorem F.CAP_TUCNT_COUNT_block (i : Nat) : (F.CAP_TUCNT_COUNT i).block = 12 :=
  Fld.block_high (m := 17) (by simp only [Fld.key, F.CAP_TUCNT_COUNT]; omega) (by decide)

theorem F.DBG_PAIR_PRIV_block (i : Nat) : (F.DBG_PAIR_PRIV i).block = 13 :=
  Fld.block_high (m := 18) (by simp only [Fld.key, F.DBG_PAIR_PRIV]; omega) (by decide)

end Sys2Proof.Machine
end

