-- ==== Sys2Proof/Laws/Frame1.lean ====
section
/-! SUPPORT. Frame1.lean: the parts of the state each operation may change, part 1. -/
set_option Elab.async false
namespace Sys2Proof.Machine

theorem State.emit_frame (e : Emit) {s0 t : State} {E : Nat} (h : Fr E s0 t) (hE : Sub 0x1 E := by exact Sub.of (by assumption) (by decide)) :
    Fr E s0 (State.emit t e) := by
  unfold State.emit
  (try dsimp only)
  repeat' (first | with_reducible assumption | with_reducible exact Or.inr (Sub.bit (by assumption) (by decide)) | with_reducible exact Or.inl rfl | with_reducible rfl | (simp only [Fr.mk_eq]; with_reducible apply FrF.upd))

theorem State.flashErase_frame (o : Nat) (n : Nat) {s0 t : State} {E : Nat} (h : Fr E s0 t) (hE : Sub 0x40 E := by exact Sub.of (by assumption) (by decide)) :
    Fr E s0 (State.flashErase t o n) := by
  unfold State.flashErase
  (try dsimp only)
  repeat' (first | with_reducible assumption | with_reducible exact Or.inr (Sub.bit (by assumption) (by decide)) | with_reducible exact Or.inl rfl | with_reducible rfl | (simp only [Fr.mk_eq]; with_reducible apply FrF.upd))

theorem State.flashWrite_frame (o : Nat) (bs : List Byte) {s0 t : State} {E : Nat} (h : Fr E s0 t) (hE : Sub 0x40 E := by exact Sub.of (by assumption) (by decide)) :
    Fr E s0 (State.flashWrite t o bs) := by
  unfold State.flashWrite
  (try dsimp only)
  repeat' (first | with_reducible assumption | with_reducible exact Or.inr (Sub.bit (by assumption) (by decide)) | with_reducible exact Or.inl rfl | with_reducible rfl | (simp only [Fr.mk_eq]; with_reducible apply FrF.upd))

theorem State.fresh_frame {s0 t : State} {E : Nat} (h : Fr E s0 t) (hE : Sub 0x10 E := by exact Sub.of (by assumption) (by decide)) :
    Fr E s0 (State.fresh t).2 := by
  unfold State.fresh
  (try dsimp only)
  repeat' (first | with_reducible assumption | with_reducible exact Or.inr (Sub.bit (by assumption) (by decide)) | with_reducible exact Or.inl rfl | with_reducible rfl | (simp only [Fr.mk_eq]; with_reducible apply FrF.upd))

theorem State.fresh64_frame {s0 t : State} {E : Nat} (h : Fr E s0 t) (hE : Sub 0x10 E := by exact Sub.of (by assumption) (by decide)) :
    Fr E s0 (State.fresh64 t).2 := by
  unfold State.fresh64
  (try dsimp only)
  repeat' (first | with_reducible assumption | with_reducible apply State.fresh_frame | with_reducible exact Sub.of (by assumption) (by decide))

theorem State.freshBytes_frame (n : Nat) {s0 t : State} {E : Nat} (h : Fr E s0 t) (hE : Sub 0x10 E := by exact Sub.of (by assumption) (by decide)) :
    Fr E s0 (State.freshBytes t n).2 := by
  unfold State.freshBytes
  (try dsimp only)
  repeat' (first | with_reducible assumption | with_reducible exact Or.inr (Sub.bit (by assumption) (by decide)) | with_reducible exact Or.inl rfl | with_reducible rfl | (simp only [Fr.mk_eq]; with_reducible apply FrF.upd))

theorem State.freshNat_frame {s0 t : State} {E : Nat} (h : Fr E s0 t) (hE : Sub 0x10 E := by exact Sub.of (by assumption) (by decide)) :
    Fr E s0 (State.freshNat t).2 := by
  unfold State.freshNat
  (try dsimp only)
  repeat' (first | with_reducible assumption | with_reducible apply State.fresh_frame | with_reducible exact Sub.of (by assumption) (by decide))

theorem State.hostStatus_frame {s0 t : State} {E : Nat} (h : Fr E s0 t) (hE : Sub 0x10 E := by exact Sub.of (by assumption) (by decide)) :
    Fr E s0 (State.hostStatus t).2 := by
  unfold State.hostStatus
  (try dsimp only)
  repeat' (first | with_reducible assumption | with_reducible apply State.freshNat_frame | with_reducible exact Sub.of (by assumption) (by decide))

theorem State.modBank_frame (b : Nat) (f : Bank → Bank) {s0 t : State} {E : Nat} (h : Fr E s0 t) (hE : Sub 0x20000 E := by exact Sub.of (by assumption) (by decide)) :
    Fr E s0 (State.modBank t b f) := by
  unfold State.modBank
  (try dsimp only)
  repeat' (first | with_reducible assumption | with_reducible exact Or.inr (Sub.bit (by assumption) (by decide)) | with_reducible exact Or.inl rfl | with_reducible rfl | (simp only [Fr.mk_eq]; with_reducible apply FrF.upd))

theorem State.setClause_frame (c : Nat) (x : Clause) {s0 t : State} {E : Nat} (h : Fr E s0 t) (hE : Sub 0x400 E := by exact Sub.of (by assumption) (by decide)) :
    Fr E s0 (State.setClause t c x) := by
  unfold State.setClause
  (try dsimp only)
  repeat' (first | with_reducible assumption | with_reducible exact Or.inr (Sub.bit (by assumption) (by decide)) | with_reducible exact Or.inl rfl | with_reducible rfl | (simp only [Fr.mk_eq]; with_reducible apply FrF.upd))

theorem State.modClause_frame (c : Nat) (f : Clause → Clause) {s0 t : State} {E : Nat} (h : Fr E s0 t) (hE : Sub 0x400 E := by exact Sub.of (by assumption) (by decide)) :
    Fr E s0 (State.modClause t c f) := by
  unfold State.modClause
  (try dsimp only)
  repeat' (first | with_reducible assumption | with_reducible apply State.setClause_frame | with_reducible exact Sub.of (by assumption) (by decide))

theorem State.modConn_frame (k : Nat) (f : Conn → Conn) {s0 t : State} {E : Nat} (h : Fr E s0 t) (hE : Sub 0x800 E := by exact Sub.of (by assumption) (by decide)) :
    Fr E s0 (State.modConn t k f) := by
  unfold State.modConn
  (try dsimp only)
  repeat' (first | with_reducible assumption | with_reducible exact Or.inr (Sub.bit (by assumption) (by decide)) | with_reducible exact Or.inl rfl | with_reducible rfl | (simp only [Fr.mk_eq]; with_reducible apply FrF.upd))

theorem State.modDma_frame (c : Nat) (f : Dma → Dma) {s0 t : State} {E : Nat} (h : Fr E s0 t) (hE : Sub 0x200000 E := by exact Sub.of (by assumption) (by decide)) :
    Fr E s0 (State.modDma t c f) := by
  unfold State.modDma
  (try dsimp only)
  repeat' (first | with_reducible assumption | with_reducible exact Or.inr (Sub.bit (by assumption) (by decide)) | with_reducible exact Or.inl rfl | with_reducible rfl | (simp only [Fr.mk_eq]; with_reducible apply FrF.upd))

theorem State.modGroup_frame (g : Nat) (f : RimGroup → RimGroup) {s0 t : State} {E : Nat} (h : Fr E s0 t) (hE : Sub 0x20000 E := by exact Sub.of (by assumption) (by decide)) :
    Fr E s0 (State.modGroup t g f) := by
  unfold State.modGroup
  (try dsimp only)
  repeat' (first | with_reducible assumption | with_reducible exact Or.inr (Sub.bit (by assumption) (by decide)) | with_reducible exact Or.inl rfl | with_reducible rfl | (simp only [Fr.mk_eq]; with_reducible apply FrF.upd))

theorem State.setLink_frame (l : Nat) (x : Lnk) {s0 t : State} {E : Nat} (h : Fr E s0 t) (hE : Sub 0x4000 E := by exact Sub.of (by assumption) (by decide)) :
    Fr E s0 (State.setLink t l x) := by
  unfold State.setLink
  (try dsimp only)
  repeat' (first | with_reducible assumption | with_reducible exact Or.inr (Sub.bit (by assumption) (by decide)) | with_reducible exact Or.inl rfl | with_reducible rfl | (simp only [Fr.mk_eq]; with_reducible apply FrF.upd))

theorem State.modLink_frame (l : Nat) (f : Lnk → Lnk) {s0 t : State} {E : Nat} (h : Fr E s0 t) (hE : Sub 0x4000 E := by exact Sub.of (by assumption) (by decide)) :
    Fr E s0 (State.modLink t l f) := by
  unfold State.modLink
  (try dsimp only)
  repeat' (first | with_reducible assumption | with_reducible apply State.setLink_frame | with_reducible exact Sub.of (by assumption) (by decide))

theorem State.modMt_frame (f : MtCap → MtCap) {s0 t : State} {E : Nat} (h : Fr E s0 t) (hE : Sub 0x40000 E := by exact Sub.of (by assumption) (by decide)) :
    Fr E s0 (State.modMt t f) := by
  unfold State.modMt
  (try dsimp only)
  repeat' (first | with_reducible assumption | with_reducible exact Or.inr (Sub.bit (by assumption) (by decide)) | with_reducible exact Or.inl rfl | with_reducible rfl | (simp only [Fr.mk_eq]; with_reducible apply FrF.upd))

theorem State.modPair_frame (p : Nat) (f : Pair → Pair) {s0 t : State} {E : Nat} (h : Fr E s0 t) (hE : Sub 0x400000 E := by exact Sub.of (by assumption) (by decide)) :
    Fr E s0 (State.modPair t p f) := by
  unfold State.modPair
  (try dsimp only)
  repeat' (first | with_reducible assumption | with_reducible exact Or.inr (Sub.bit (by assumption) (by decide)) | with_reducible exact Or.inl rfl | with_reducible rfl | (simp only [Fr.mk_eq]; with_reducible apply FrF.upd))

theorem State.modRing_frame (r : Nat) (f : Ring → Ring) {s0 t : State} {E : Nat} (h : Fr E s0 t) (hE : Sub 0x200000 E := by exact Sub.of (by assumption) (by decide)) :
    Fr E s0 (State.modRing t r f) := by
  unfold State.modRing
  (try dsimp only)
  repeat' (first | with_reducible assumption | with_reducible exact Or.inr (Sub.bit (by assumption) (by decide)) | with_reducible exact Or.inl rfl | with_reducible rfl | (simp only [Fr.mk_eq]; with_reducible apply FrF.upd))

theorem State.modSig_frame (f : SigCap → SigCap) {s0 t : State} {E : Nat} (h : Fr E s0 t) (hE : Sub 0x40000 E := by exact Sub.of (by assumption) (by decide)) :
    Fr E s0 (State.modSig t f) := by
  unfold State.modSig
  (try dsimp only)
  repeat' (first | with_reducible assumption | with_reducible exact Or.inr (Sub.bit (by assumption) (by decide)) | with_reducible exact Or.inl rfl | with_reducible rfl | (simp only [Fr.mk_eq]; with_reducible apply FrF.upd))

theorem State.modUnit_frame (u : Nat) (f : Tu → Tu) {s0 t : State} {E : Nat} (h : Fr E s0 t) (hE : Sub 0x40000 E := by exact Sub.of (by assumption) (by decide)) :
    Fr E s0 (State.modUnit t u f) := by
  unfold State.modUnit
  (try dsimp only)
  repeat' (first | with_reducible assumption | with_reducible exact Or.inr (Sub.bit (by assumption) (by decide)) | with_reducible exact Or.inl rfl | with_reducible rfl | (simp only [Fr.mk_eq]; with_reducible apply FrF.upd))

theorem State.pick_frame (xs : List Nat) {s0 t : State} {E : Nat} (h : Fr E s0 t) (hE : Sub 0x10 E := by exact Sub.of (by assumption) (by decide)) :
    Fr E s0 (State.pick t xs).2 := by
  unfold State.pick
  (try dsimp only)
  repeat' (first | with_reducible assumption | with_reducible apply State.fresh_frame | with_reducible exact Sub.of (by assumption) (by decide))

theorem State.pickSpare_frame (stack : Nat) {s0 t : State} {E : Nat} (h : Fr E s0 t) (hE : Sub 0x10 E := by exact Sub.of (by assumption) (by decide)) :
    Fr E s0 (State.pickSpare t stack).2 := by
  unfold State.pickSpare
  (try dsimp only)
  repeat' (first | with_reducible assumption | with_reducible apply Fr.ite | with_reducible apply State.fresh_frame | with_reducible apply Fr.foldl | (intro _ _ _) | (intro _ _) | with_reducible exact Sub.of (by assumption) (by decide) | split)

theorem State.runRefused_frame {s0 t u : State} {E : Nat} (h : Fr E s0 t)
    (e : State.runRefused t = some u) (hE : Sub 0x40000080 E := by exact Sub.of (by assumption) (by decide)) : Fr E s0 u := by
  unfold State.runRefused at e
  (try dsimp only at e)
  repeat' (split at e)
  all_goals (try cases e)
  all_goals (repeat' (first | with_reducible assumption | with_reducible apply Fr.ite | with_reducible apply State.raise_frame | with_reducible exact Sub.of (by assumption) (by decide) | with_reducible exact Sub.bit (by assumption) (by decide) | split))

theorem State.setJob_frame (j : LoadJob) {s0 t : State} {E : Nat} (h : Fr E s0 t) (hE : Sub 0x10000 E := by exact Sub.of (by assumption) (by decide)) :
    Fr E s0 (State.setJob t j) := by
  unfold State.setJob
  (try dsimp only)
  repeat' (first | with_reducible assumption | with_reducible exact Or.inr (Sub.bit (by assumption) (by decide)) | with_reducible exact Or.inl rfl | with_reducible rfl | (simp only [Fr.mk_eq]; with_reducible apply FrF.upd))

theorem State.setMark_frame (a : Nat) (v : Nat) {s0 t : State} {E : Nat} (h : Fr E s0 t) (hE : Sub 0x2000 E := by exact Sub.of (by assumption) (by decide)) :
    Fr E s0 (State.setMark t a v) := by
  unfold State.setMark
  (try dsimp only)
  repeat' (first | with_reducible assumption | with_reducible exact Or.inr (Sub.bit (by assumption) (by decide)) | with_reducible exact Or.inl rfl | with_reducible rfl | (simp only [Fr.mk_eq]; with_reducible apply FrF.upd))

theorem State.setMbx_frame (page : Nat) (ctx : Nat) (x : Mbx) {s0 t : State} {E : Nat} (h : Fr E s0 t) (hE : Sub 0x100 E := by exact Sub.of (by assumption) (by decide)) :
    Fr E s0 (State.setMbx t page ctx x) := by
  unfold State.setMbx
  (try dsimp only)
  repeat' (first | with_reducible assumption | with_reducible exact Or.inr (Sub.bit (by assumption) (by decide)) | with_reducible exact Or.inl rfl | with_reducible rfl | (simp only [Fr.mk_eq]; with_reducible apply FrF.upd))

theorem State.setRxq_frame (r : Nat) (l : List Flight) {s0 t : State} {E : Nat} (h : Fr E s0 t) (hE : Sub 0x100000 E := by exact Sub.of (by assumption) (by decide)) :
    Fr E s0 (State.setRxq t r l) := by
  unfold State.setRxq
  (try dsimp only)
  repeat' (first | with_reducible assumption | with_reducible exact Or.inr (Sub.bit (by assumption) (by decide)) | with_reducible exact Or.inl rfl | with_reducible rfl | (simp only [Fr.mk_eq]; with_reducible apply FrF.upd))

theorem State.setWaitq_frame (r : Nat) (l : List Flight) {s0 t : State} {E : Nat} (h : Fr E s0 t) (hE : Sub 0x100000 E := by exact Sub.of (by assumption) (by decide)) :
    Fr E s0 (State.setWaitq t r l) := by
  unfold State.setWaitq
  (try dsimp only)
  repeat' (first | with_reducible assumption | with_reducible exact Or.inr (Sub.bit (by assumption) (by decide)) | with_reducible exact Or.inl rfl | with_reducible rfl | (simp only [Fr.mk_eq]; with_reducible apply FrF.upd))

theorem State.storeByte_frame (a : Nat) (b : Byte) {s0 t : State} {E : Nat} (h : Fr E s0 t) (hE : Sub 0x20 E := by exact Sub.of (by assumption) (by decide)) :
    Fr E s0 (State.storeByte t a b) := by
  unfold State.storeByte
  (try dsimp only)
  repeat' (first | with_reducible assumption | with_reducible exact Or.inr (Sub.bit (by assumption) (by decide)) | with_reducible exact Or.inl rfl | with_reducible rfl | (simp only [Fr.mk_eq]; with_reducible apply FrF.upd))

theorem State.store_frame (a1 : Nat) (a2 : List Byte) {s0 t : State} {E : Nat} (h : Fr E s0 t) (hE : Sub 0x20 E := by exact Sub.of (by assumption) (by decide)) :
    Fr E s0 (State.store t a1 a2) := by
  induction a2 generalizing a1 t with
  | nil => exact h
  | cons b l ih => exact ih _ (State.storeByte_frame _ _ h)

theorem spareReport_frame (c : Nat) (target : Nat) (result : Nat) (hold : Nat) {s0 t : State} {E : Nat} (h : Fr E s0 t) (hE : Sub 0x100000080 E := by exact Sub.of (by assumption) (by decide)) :
    Fr E s0 (spareReport c target result hold t) := by
  unfold spareReport
  (try dsimp only)
  repeat' (first | with_reducible assumption | with_reducible apply State.raise_frame | with_reducible apply State.fset_frame | with_reducible exact Sub.of (by assumption) (by decide) | with_reducible exact Sub.bit (by assumption) (by decide) | (rw [F.CLS_EVT_SPARE_block]; exact Sub.bit (by assumption) (by decide)) | (rw [F.CLS_SPARE_GO_block]; exact Sub.bit (by assumption) (by decide)) | (rw [F.CLS_SPARE_RESULT_block]; exact Sub.bit (by assumption) (by decide)))

theorem spareGo_frame (c : Nat) (target : Nat) {s0 t : State} {E : Nat} (h : Fr E s0 t) (hE : Sub 0x100000480 E := by exact Sub.of (by assumption) (by decide)) :
    Fr E s0 (spareGo c target t) := by
  unfold spareGo
  (try dsimp only)
  repeat' (first | with_reducible assumption | with_reducible apply Fr.ite | with_reducible apply State.fset_frame | with_reducible apply State.modClause_frame | with_reducible apply spareReport_frame | with_reducible exact Sub.of (by assumption) (by decide) | with_reducible exact Sub.bit (by assumption) (by decide) | (rw [F.CLS_SPARE_GO_block]; exact Sub.bit (by assumption) (by decide)) | (rw [F.CLS_SPARE_TARGET_block]; exact Sub.bit (by assumption) (by decide)) | split)

theorem rmapReport_frame (c : Nat) (row : Nat) (spare : Nat) (result : Nat) {s0 t : State} {E : Nat} (h : Fr E s0 t) (hE : Sub 0x80000080 E := by exact Sub.of (by assumption) (by decide)) :
    Fr E s0 (rmapReport c row spare result t) := by
  unfold rmapReport
  (try dsimp only)
  repeat' (first | with_reducible assumption | with_reducible apply State.raise_frame | with_reducible apply State.fset_frame | with_reducible exact Sub.of (by assumption) (by decide) | with_reducible exact Sub.bit (by assumption) (by decide))

theorem rmapGo_frame (c : Nat) (row : Nat) {s0 t : State} {E : Nat} (h : Fr E s0 t) (hE : Sub 0x80001090 E := by exact Sub.of (by assumption) (by decide)) :
    Fr E s0 (rmapGo c row t) := by
  unfold rmapGo
  (try dsimp only)
  repeat' (first | with_reducible assumption | with_reducible exact Or.inr (Sub.bit (by assumption) (by decide)) | with_reducible exact Or.inl rfl | with_reducible rfl | with_reducible apply State.fset_frame | with_reducible apply rmapReport_frame | with_reducible apply State.freshNat_frame | (simp only [Fr.mk_eq]; with_reducible apply FrF.upd) | with_reducible exact Sub.of (by assumption) (by decide) | with_reducible exact Sub.bit (by assumption) (by decide) | split)

theorem fabAgreeApply_frame {s0 t : State} {E : Nat} (h : Fr E s0 t) (hE : Sub 0x200000880 E := by exact Sub.of (by assumption) (by decide)) :
    Fr E s0 (fabAgreeApply t) := by
  unfold fabAgreeApply
  (try dsimp only)
  repeat' (first | with_reducible assumption | with_reducible exact Or.inr (Sub.bit (by assumption) (by decide)) | with_reducible exact Or.inl rfl | with_reducible rfl | with_reducible apply State.raise_frame | with_reducible apply State.fset_frame | with_reducible apply State.modConn_frame | (simp only [Fr.mk_eq]; with_reducible apply FrF.upd) | with_reducible exact Sub.of (by assumption) (by decide) | with_reducible exact Sub.bit (by assumption) (by decide) | split)

theorem fabAgree_frame (tag : Nat) {s0 t : State} {E : Nat} (h : Fr E s0 t) (hE : Sub 0x200000890 E := by exact Sub.of (by assumption) (by decide)) :
    Fr E s0 (fabAgree tag t) := by
  unfold fabAgree
  (try dsimp only)
  repeat' (first | with_reducible assumption | with_reducible exact Or.inr (Sub.bit (by assumption) (by decide)) | with_reducible exact Or.inl rfl | with_reducible rfl | with_reducible apply Fr.ite | with_reducible apply State.fset_frame | with_reducible apply State.fresh64_frame | with_reducible apply State.raise_frame | with_reducible apply fabAgreeApply_frame | (simp only [Fr.mk_eq]; with_reducible apply FrF.upd) | with_reducible exact Sub.of (by assumption) (by decide) | with_reducible exact Sub.bit (by assumption) (by decide) | split)

theorem spareMap_frame (k : Nat) (lane : Nat) {s0 t : State} {E : Nat} (h : Fr E s0 t) (hE : Sub 0x200000890 E := by exact Sub.of (by assumption) (by decide)) :
    Fr E s0 (spareMap k lane t) := by
  unfold spareMap
  (try dsimp only)
  repeat' (first | with_reducible assumption | with_reducible apply State.fset_frame | with_reducible apply State.freshNat_frame | with_reducible apply fabAgree_frame | with_reducible exact Sub.of (by assumption) (by decide) | with_reducible exact Sub.bit (by assumption) (by decide))

theorem lretReport_frame (bank : Nat) (word : Nat) (spare : Nat) (result : Nat) {s0 t : State} {E : Nat} (h : Fr E s0 t) (hE : Sub 0x800000080 E := by exact Sub.of (by assumption) (by decide)) :
    Fr E s0 (lretReport bank word spare result t) := by
  unfold lretReport
  (try dsimp only)
  repeat' (first | with_reducible assumption | with_reducible apply State.raise_frame | with_reducible apply State.fset_frame | with_reducible exact Sub.of (by assumption) (by decide) | with_reducible exact Sub.bit (by assumption) (by decide))

theorem lretRefuse_frame (bank : Nat) (word : Nat) (result : Nat) {s0 t : State} {E : Nat} (h : Fr E s0 t) (hE : Sub 0x800000090 E := by exact Sub.of (by assumption) (by decide)) :
    Fr E s0 (lretRefuse bank word result t) := by
  unfold lretRefuse
  (try dsimp only)
  repeat' (first | with_reducible assumption | with_reducible apply lretReport_frame | with_reducible apply State.freshNat_frame | with_reducible exact Sub.of (by assumption) (by decide))

theorem lretGo_frame (bank : Nat) (word : Nat) {s0 t : State} {E : Nat} (h : Fr E s0 t) (hE : Sub 0x800002090 E := by exact Sub.of (by assumption) (by decide)) :
    Fr E s0 (lretGo bank word t) := by
  unfold lretGo
  (try dsimp only)
  repeat' (first | with_reducible assumption | with_reducible exact Or.inr (Sub.bit (by assumption) (by decide)) | with_reducible exact Or.inl rfl | with_reducible rfl | with_reducible apply Fr.ite | with_reducible apply State.fset_frame | with_reducible apply lretRefuse_frame | with_reducible apply State.pick_frame | (simp only [Fr.mk_eq]; with_reducible apply FrF.upd) | with_reducible exact Sub.of (by assumption) (by decide) | with_reducible exact Sub.bit (by assumption) (by decide) | split)

theorem hretReport_frame (stack : Nat) (page : Nat) (spare : Nat) (result : Nat) {s0 t : State} {E : Nat} (h : Fr E s0 t) (hE : Sub 0x800000080 E := by exact Sub.of (by assumption) (by decide)) :
    Fr E s0 (hretReport stack page spare result t) := by
  unfold hretReport
  (try dsimp only)
  repeat' (first | with_reducible assumption | with_reducible apply State.raise_frame | with_reducible apply State.fset_frame | with_reducible exact Sub.of (by assumption) (by decide) | with_reducible exact Sub.bit (by assumption) (by decide))

theorem hretRefuse_frame (stack : Nat) (page : Nat) (result : Nat) {s0 t : State} {E : Nat} (h : Fr E s0 t) (hE : Sub 0x800000090 E := by exact Sub.of (by assumption) (by decide)) :
    Fr E s0 (hretRefuse stack page result t) := by
  unfold hretRefuse
  (try dsimp only)
  repeat' (first | with_reducible assumption | with_reducible apply hretReport_frame | with_reducible apply State.freshNat_frame | with_reducible exact Sub.of (by assumption) (by decide))

theorem hretGo_frame (stack : Nat) {s0 t : State} {E : Nat} (h : Fr E s0 t) (hE : Sub 0x800002090 E := by exact Sub.of (by assumption) (by decide)) :
    Fr E s0 (hretGo stack t) := by
  unfold hretGo
  (try dsimp only)
  repeat' (first | with_reducible assumption | with_reducible exact Or.inr (Sub.bit (by assumption) (by decide)) | with_reducible exact Or.inl rfl | with_reducible rfl | with_reducible apply Fr.ite | with_reducible apply State.fset_frame | with_reducible apply hretRefuse_frame | with_reducible apply State.pickSpare_frame | (simp only [Fr.mk_eq]; with_reducible apply FrF.upd) | with_reducible exact Sub.of (by assumption) (by decide) | with_reducible exact Sub.bit (by assumption) (by decide) | split)

theorem laneReport_frame (l : Nat) (lane : Nat) (result : Nat) (hold : Nat) {s0 t : State} {E : Nat} (h : Fr E s0 t) (hE : Sub 0x400000080 E := by exact Sub.of (by assumption) (by decide)) :
    Fr E s0 (laneReport l lane result hold t) := by
  unfold laneReport
  (try dsimp only)
  repeat' (first | with_reducible assumption | with_reducible apply State.raise_frame | with_reducible apply State.fset_frame | with_reducible exact Sub.of (by assumption) (by decide) | with_reducible exact Sub.bit (by assumption) (by decide) | (rw [F.LNK_EVT_LANE_block]; exact Sub.bit (by assumption) (by decide)) | (rw [F.LNK_SPARE_RESULT_block]; exact Sub.bit (by assumption) (by decide)))

theorem ctlPut_frame (l : Nat) (w : BitVec 64) {s0 t : State} {E : Nat} (h : Fr E s0 t) (hE : Sub 0x4000 E := by exact Sub.of (by assumption) (by decide)) :
    Fr E s0 (ctlPut l w t) := by
  unfold ctlPut
  (try dsimp only)
  repeat' (first | with_reducible assumption | with_reducible apply State.modLink_frame | with_reducible exact Sub.of (by assumption) (by decide))

theorem sparingStart_frame (l : Nat) (lane : Nat) (byGo : Bool) (accepted : Bool) {s0 t : State} {E : Nat} (h : Fr E s0 t) (hE : Sub 0x400004000 E := by exact Sub.of (by assumption) (by decide)) :
    Fr E s0 (sparingStart l lane byGo accepted t) := by
  unfold sparingStart
  (try dsimp only)
  repeat' (first | with_reducible assumption | with_reducible apply State.fset_frame | with_reducible apply State.modLink_frame | with_reducible exact Sub.of (by assumption) (by decide) | with_reducible exact Sub.bit (by assumption) (by decide) | (rw [F.LNK_STAT_SPARE_BUSY_block]; exact Sub.bit (by assumption) (by decide)))

theorem lnkSpareGo_frame (l : Nat) (lane : Nat) {s0 t : State} {E : Nat} (h : Fr E s0 t) (hE : Sub 0x400004080 E := by exact Sub.of (by assumption) (by decide)) :
    Fr E s0 (lnkSpareGo l lane t) := by
  unfold lnkSpareGo
  (try dsimp only)
  repeat' (first | with_reducible assumption | with_reducible apply State.fset_frame | with_reducible apply laneReport_frame | with_reducible apply ctlPut_frame | with_reducible apply sparingStart_frame | with_reducible exact Sub.of (by assumption) (by decide) | with_reducible exact Sub.bit (by assumption) (by decide) | (rw [F.LNK_SPARE_GO_block]; exact Sub.bit (by assumption) (by decide)) | (rw [F.LNK_SPARE_LANE_block]; exact Sub.bit (by assumption) (by decide)) | split)

theorem actStart_frame (t1 : SparingTrigger) {s0 t : State} {E : Nat} (h : Fr E s0 t) (hE : Sub 0xf80007c90 E := by exact Sub.of (by assumption) (by decide)) :
    Fr E s0 (actStart t1 t) := by
  unfold actStart
  (try dsimp only)
  repeat' (first | with_reducible assumption | with_reducible apply spareGo_frame | with_reducible apply rmapGo_frame | with_reducible apply spareMap_frame | with_reducible apply lretGo_frame | with_reducible apply hretGo_frame | with_reducible apply State.fset_frame | with_reducible apply lnkSpareGo_frame | with_reducible exact Sub.of (by assumption) (by decide) | with_reducible exact Sub.bit (by assumption) (by decide) | split)

theorem logPut_frame (ty : Nat) (result : Nat) (unit : Nat) (item : Nat) (step : Nat) (data : Nat) {s0 t : State} {E : Nat} (h : Fr E s0 t) (hE : Sub 0x400040 E := by exact Sub.of (by assumption) (by decide)) :
    Fr E s0 (logPut ty result unit item step data t) := by
  unfold logPut
  (try dsimp only)
  repeat' (first | with_reducible assumption | with_reducible exact Or.inr (Sub.bit (by assumption) (by decide)) | with_reducible exact Or.inl rfl | with_reducible rfl | with_reducible apply State.flashWrite_frame | (simp only [Fr.mk_eq]; with_reducible apply FrF.upd) | with_reducible exact Sub.of (by assumption) (by decide))

theorem logCarry_frame (recs : List (List Byte)) {s0 t : State} {E : Nat} (h : Fr E s0 t) (hE : Sub 0x400040 E := by exact Sub.of (by assumption) (by decide)) :
    Fr E s0 (logCarry recs t) := by
  unfold logCarry
  (try dsimp only)
  repeat' (first | with_reducible assumption | with_reducible exact Or.inr (Sub.bit (by assumption) (by decide)) | with_reducible exact Or.inl rfl | with_reducible rfl | with_reducible apply State.flashWrite_frame | (simp only [Fr.mk_eq]; with_reducible apply FrF.upd) | with_reducible apply Fr.foldl | (intro _ _ _) | (intro _ _) | with_reducible exact Sub.of (by assumption) (by decide))

theorem logWrite_frame (ty : Nat) (result : Nat) (unit : Nat) (item : Nat) (step : Nat) (data : Nat) {s0 t : State} {E : Nat} (h : Fr E s0 t) (hE : Sub 0x400040 E := by exact Sub.of (by assumption) (by decide)) :
    Fr E s0 (logWrite ty result unit item step data t) := by
  unfold logWrite
  (try dsimp only)
  repeat' (first | with_reducible assumption | with_reducible apply Fr.ite | with_reducible apply logPut_frame | with_reducible apply logCarry_frame | with_reducible apply State.flashErase_frame | with_reducible exact Sub.of (by assumption) (by decide) | split)

theorem actsLog_frame {s0 t : State} {E : Nat} (h : Fr E s0 t) (hE : Sub 0x400040 E := by exact Sub.of (by assumption) (by decide)) :
    Fr E s0 (actsLog t) := by
  unfold actsLog
  (try dsimp only)
  repeat' (first | with_reducible assumption | with_reducible exact Or.inr (Sub.bit (by assumption) (by decide)) | with_reducible exact Or.inl rfl | with_reducible rfl | with_reducible apply Fr.ite | with_reducible apply logWrite_frame | (simp only [Fr.mk_eq]; with_reducible apply FrF.upd) | with_reducible apply Fr.foldl | (intro _ _ _) | (intro _ _) | with_reducible exact Sub.of (by assumption) (by decide) | split)

theorem sendFence_frame (f : Nat) (dev : Nat) {s0 t : State} {E : Nat} (h : Fr E s0 t) (hE : Sub 0x4000 E := by exact Sub.of (by assumption) (by decide)) :
    Fr E s0 (sendFence f dev t) := by
  unfold sendFence
  (try dsimp only)
  repeat' (first | with_reducible assumption | with_reducible apply State.modLink_frame | with_reducible apply Fr.foldl | (intro _ _ _) | (intro _ _) | with_reducible exact Sub.of (by assumption) (by decide))

theorem adoptFence_frame (f : Nat) (dev : Nat) {s0 t : State} {E : Nat} (h : Fr E s0 t) (hE : Sub 0x4200 E := by exact Sub.of (by assumption) (by decide)) :
    Fr E s0 (adoptFence f dev t) := by
  unfold adoptFence
  (try dsimp only)
  repeat' (first | with_reducible assumption | with_reducible exact Or.inr (Sub.bit (by assumption) (by decide)) | with_reducible exact Or.inl rfl | with_reducible rfl | with_reducible apply Fr.ite | with_reducible apply sendFence_frame | (simp only [Fr.mk_eq]; with_reducible apply FrF.upd) | with_reducible exact Sub.of (by assumption) (by decide) | split)

theorem pairHaltReq_frame (p : Nat) (cause : Nat) {s0 t : State} {E : Nat} (h : Fr E s0 t) (hE : Sub 0x400000 E := by exact Sub.of (by assumption) (by decide)) :
    Fr E s0 (pairHaltReq p cause t) := by
  unfold pairHaltReq
  (try dsimp only)
  repeat' (first | with_reducible assumption | with_reducible apply Fr.ite | with_reducible apply State.modPair_frame | with_reducible exact Sub.of (by assumption) (by decide) | split)

theorem mtEach_frame (f : Nat → State → State) {s0 t : State} {E : Nat} (hf : ∀ (x0 : Nat) (u : State), Fr E s0 u → Fr E s0 (f x0 u)) (h : Fr E s0 t) (hE : Sub 0x0 E := by exact Sub.of (by assumption) (by decide)) :
    Fr E s0 (mtEach f t) := by
  unfold mtEach
  (try dsimp only)
  repeat' (first | with_reducible assumption | with_reducible apply Fr.ite | with_reducible apply hf | with_reducible apply Fr.foldl | (intro _ _ _) | (intro _ _) | split)

theorem mtPut_frame (src : Nat) (ty : Nat) (info : Nat) (zeroDelta : Bool) (body : List Byte) {s0 t : State} {E : Nat} (h : Fr E s0 t) (hE : Sub 0x40000 E := by exact Sub.of (by assumption) (by decide)) :
    Fr E s0 (mtPut src ty info zeroDelta body t) := by
  unfold mtPut
  (try dsimp only)
  repeat' (first | with_reducible assumption | with_reducible apply Fr.ite | with_reducible apply State.modMt_frame | with_reducible exact Sub.of (by assumption) (by decide) | split)

theorem mtSync_frame (src : Nat) (zeroDelta : Bool) {s0 t : State} {E : Nat} (h : Fr E s0 t) (hE : Sub 0x40000 E := by exact Sub.of (by assumption) (by decide)) :
    Fr E s0 (mtSync src zeroDelta t) := by
  unfold mtSync
  (try dsimp only)
  repeat' (first | with_reducible assumption | with_reducible apply State.modMt_frame | with_reducible apply mtPut_frame | with_reducible exact Sub.of (by assumption) (by decide))

theorem mtStartReq_frame (by_ : Nat) {s0 t : State} {E : Nat} (h : Fr E s0 t) (hE : Sub 0x2000040080 E := by exact Sub.of (by assumption) (by decide)) :
    Fr E s0 (mtStartReq by_ t) := by
  unfold mtStartReq
  (try dsimp only)
  repeat' (first | with_reducible assumption | with_reducible apply Fr.ite | with_reducible apply State.fset_frame | with_reducible apply State.raise_frame | with_reducible apply State.modMt_frame | with_reducible apply mtEach_frame | with_reducible apply mtSync_frame | with_reducible apply mtPut_frame | with_reducible apply Fr.foldl | (intro _ _ _) | (intro _ _) | with_reducible exact Sub.of (by assumption) (by decide) | with_reducible exact Sub.bit (by assumption) (by decide) | split)

theorem sparingSeen_frame (t1 : SparingTrigger) {s0 t : State} {E : Nat} (h : Fr E s0 t) (hE : Sub 0x400000 E := by exact Sub.of (by assumption) (by decide)) :
    Fr E s0 (sparingSeen t1 t) := by
  unfold sparingSeen
  (try dsimp only)
  repeat' (first | with_reducible assumption | with_reducible exact Or.inr (Sub.bit (by assumption) (by decide)) | with_reducible exact Or.inl rfl | with_reducible rfl | with_reducible apply Fr.ite | (simp only [Fr.mk_eq]; with_reducible apply FrF.upd) | split)

theorem memHot_frame (hbm : Bool) (unit : Nat) (loc : Nat) {s0 t : State} {E : Nat} (h : Fr E s0 t) (hE : Sub 0x800402080 E := by exact Sub.of (by assumption) (by decide)) :
    Fr E s0 (memHot hbm unit loc t) := by
  unfold memHot
  (try dsimp only)
  repeat' (first | with_reducible assumption | with_reducible exact Or.inr (Sub.bit (by assumption) (by decide)) | with_reducible exact Or.inl rfl | with_reducible rfl | with_reducible apply Fr.ite | with_reducible apply sparingSeen_frame | with_reducible apply State.raise_frame | (simp only [Fr.mk_eq]; with_reducible apply FrF.upd) | with_reducible exact Sub.of (by assumption) (by decide) | with_reducible exact Sub.bit (by assumption) (by decide) | split)

theorem memCe_frame (a : Nat) {s0 t : State} {E : Nat} (h : Fr E s0 t) (hE : Sub 0x800402080 E := by exact Sub.of (by assumption) (by decide)) :
    Fr E s0 (memCe a t) := by
  unfold memCe
  (try dsimp only)
  repeat' (first | with_reducible assumption | with_reducible exact Or.inr (Sub.bit (by assumption) (by decide)) | with_reducible exact Or.inl rfl | with_reducible rfl | with_reducible apply Fr.ite | with_reducible apply State.setMark_frame | with_reducible apply State.count_frame | with_reducible apply State.raise_frame | with_reducible apply memHot_frame | (simp only [Fr.mk_eq]; with_reducible apply FrF.upd) | with_reducible exact Sub.of (by assumption) (by decide) | with_reducible exact Sub.bit (by assumption) (by decide) | split)

theorem memUe_frame (a : Nat) (master : Nat) (write : Bool) {s0 t : State} {E : Nat} (h : Fr E s0 t) (hE : Sub 0x800402080 E := by exact Sub.of (by assumption) (by decide)) :
    Fr E s0 (memUe a master write t) := by
  unfold memUe
  (try dsimp only)
  repeat' (first | with_reducible assumption | with_reducible exact Or.inr (Sub.bit (by assumption) (by decide)) | with_reducible exact Or.inl rfl | with_reducible rfl | with_reducible apply Fr.ite | with_reducible apply State.raise_frame | with_reducible apply State.count_frame | with_reducible apply sparingSeen_frame | (simp only [Fr.mk_eq]; with_reducible apply FrF.upd) | with_reducible exact Sub.of (by assumption) (by decide) | with_reducible exact Sub.bit (by assumption) (by decide) | split)

theorem userWrite_frame (master : Nat) (a : Nat) (bs : List Byte) {s0 t : State} {E : Nat} (h : Fr E s0 t) (hE : Sub 0x8004020a0 E := by exact Sub.of (by assumption) (by decide)) :
    Fr E s0 (userWrite master a bs t) := by
  unfold userWrite
  (try dsimp only)
  repeat' (first | with_reducible assumption | with_reducible apply Fr.ite | with_reducible apply State.store_frame | with_reducible apply State.setMark_frame | with_reducible apply memCe_frame | with_reducible apply memUe_frame | with_reducible exact Sub.of (by assumption) (by decide) | split)

theorem nocWrite_frame (kind : Nat) (a : Nat) (bs : List Byte) {s0 t : State} {E : Nat} (h : Fr E s0 t) (hE : Sub 0x8004020a0 E := by exact Sub.of (by assumption) (by decide)) :
    Fr E s0 (nocWrite kind a bs t).2 := by
  unfold nocWrite
  exact Fr.foldl_of (g := fun r : Bool × State => r.2) (fun _ _ hr => userWrite_frame _ _ _ hr) h

theorem nocWaited_frame (kind : Nat) (waited : Nat) {s0 t : State} {E : Nat} (h : Fr E s0 t) (hE : Sub 0x2000 E := by exact Sub.of (by assumption) (by decide)) :
    Fr E s0 (nocWaited kind waited t) := by
  unfold nocWaited
  (try dsimp only)
  repeat' (first | with_reducible assumption | with_reducible exact Or.inr (Sub.bit (by assumption) (by decide)) | with_reducible exact Or.inl rfl | with_reducible rfl | with_reducible apply Fr.ite | (simp only [Fr.mk_eq]; with_reducible apply FrF.upd) | split)

theorem nocWaits_frame (bank : Nat) {s0 t : State} {E : Nat} (h : Fr E s0 t) (hE : Sub 0x2000 E := by exact Sub.of (by assumption) (by decide)) :
    Fr E s0 (nocWaits bank t) := by
  unfold nocWaits
  (try dsimp only)
  repeat' (first | with_reducible assumption | with_reducible exact Or.inr (Sub.bit (by assumption) (by decide)) | with_reducible exact Or.inl rfl | with_reducible rfl | with_reducible apply Fr.ite | (simp only [Fr.mk_eq]; with_reducible apply FrF.upd) | split)

theorem userRead_frame (master : Nat) (a : Nat) (n : Nat) {s0 t : State} {E : Nat} (h : Fr E s0 t) (hE : Sub 0x800402080 E := by exact Sub.of (by assumption) (by decide)) :
    Fr E s0 (userRead master a n t).2.2 := by
  unfold userRead
  (try dsimp only)
  repeat' (first | with_reducible assumption | with_reducible apply Fr.ite | with_reducible apply memCe_frame | with_reducible apply memUe_frame | with_reducible exact Sub.of (by assumption) (by decide) | split)

theorem performLex_frame (a : LexAcc) {s0 t : State} {E : Nat} (h : Fr E s0 t) (hE : Sub 0x8004020a0 E := by exact Sub.of (by assumption) (by decide)) :
    Fr E s0 (performLex a t) := by
  unfold performLex
  (try dsimp only)
  repeat' (first | with_reducible assumption | with_reducible exact Or.inr (Sub.bit (by assumption) (by decide)) | with_reducible exact Or.inl rfl | with_reducible rfl | with_reducible apply Fr.ite | with_reducible apply userWrite_frame | with_reducible apply userRead_frame | (simp only [Fr.mk_eq]; with_reducible apply FrF.upd) | with_reducible exact Sub.of (by assumption) (by decide) | split)

theorem lexServe_frame (bank : Nat) {s0 t : State} {E : Nat} (h : Fr E s0 t) (hE : Sub 0x8004020a0 E := by exact Sub.of (by assumption) (by decide)) :
    Fr E s0 (lexServe bank t) := by
  unfold lexServe
  (try dsimp only)
  repeat' (first | with_reducible assumption | with_reducible exact Or.inr (Sub.bit (by assumption) (by decide)) | with_reducible exact Or.inl rfl | with_reducible rfl | with_reducible apply Fr.ite | with_reducible apply nocWaits_frame | with_reducible apply performLex_frame | (simp only [Fr.mk_eq]; with_reducible apply FrF.upd) | with_reducible apply Fr.foldl | (intro _ _ _) | (intro _ _) | with_reducible exact Sub.of (by assumption) (by decide) | split)

theorem portWait_frame (kind : Nat) (bank : Nat) (a2 : Nat) (a3 : Nat) {s0 t : State} {E : Nat} (h : Fr E s0 t) (hE : Sub 0x8004020a0 E := by exact Sub.of (by assumption) (by decide)) :
    Fr E s0 (portWait kind bank a2 a3 t) := by
  induction a2 generalizing a3 t with
  | zero => exact nocWaited_frame _ _ h
  | succ k ih =>
    unfold portWait
    dsimp only
    refine Fr.ite (ih _ ?_) (nocWaited_frame _ _ h)
    exact Fr.ite (State.raise_frame _ _ _ _ (lexServe_frame _ h) (Sub.bit hE (by decide)) (Sub.bit hE (by decide))) (lexServe_frame _ h)

theorem lexWait_frame (kind : Nat) (a : Nat) (n : Nat) {s0 t : State} {E : Nat} (h : Fr E s0 t) (hE : Sub 0x8004020a0 E := by exact Sub.of (by assumption) (by decide)) :
    Fr E s0 (lexWait kind a n t) := by
  unfold lexWait
  (try dsimp only)
  repeat' (first | with_reducible assumption | with_reducible apply portWait_frame | with_reducible apply Fr.foldl | (intro _ _ _) | (intro _ _) | with_reducible exact Sub.of (by assumption) (by decide))

theorem portWrite_frame (kind : Nat) (a : Nat) (bs : List Byte) {s0 t : State} {E : Nat} (h : Fr E s0 t) (hE : Sub 0x8004020a0 E := by exact Sub.of (by assumption) (by decide)) :
    Fr E s0 (portWrite kind a bs t).2 := by
  unfold portWrite
  (try dsimp only)
  repeat' (first | with_reducible assumption | with_reducible apply nocWrite_frame | with_reducible apply lexWait_frame | with_reducible exact Sub.of (by assumption) (by decide))

theorem mtDrain1_frame {s0 t : State} {E : Nat} (h : Fr E s0 t) (hE : Sub 0x28004420a0 E := by exact Sub.of (by assumption) (by decide)) :
    Fr E s0 (mtDrain1 t) := by
  unfold mtDrain1
  (try dsimp only)
  repeat' (first | with_reducible assumption | with_reducible apply Fr.ite | with_reducible apply State.modMt_frame | with_reducible apply State.fset_frame | with_reducible apply portWrite_frame | with_reducible exact Sub.of (by assumption) (by decide) | with_reducible exact Sub.bit (by assumption) (by decide) | split)

theorem mtDrain_frame (a0 : Nat) {s0 t : State} {E : Nat} (h : Fr E s0 t) (hE : Sub 0x28004420a0 E := by exact Sub.of (by assumption) (by decide)) :
    Fr E s0 (mtDrain a0 t) := by
  induction a0 generalizing t with
  | zero => exact h
  | succ k ih => exact ih (mtDrain1_frame h)

theorem mtFlush_frame {s0 t : State} {E : Nat} (h : Fr E s0 t) (hE : Sub 0x28004420a0 E := by exact Sub.of (by assumption) (by decide)) :
    Fr E s0 (mtFlush t) := by
  unfold mtFlush
  (try dsimp only)
  repeat' (first | with_reducible assumption | with_reducible apply State.modMt_frame | with_reducible apply mtDrain_frame | with_reducible exact Sub.of (by assumption) (by decide))

theorem mtPacket_frame (src : Nat) (ty : Nat) (info : Nat) (body : List Byte) {s0 t : State} {E : Nat} (h : Fr E s0 t) (hE : Sub 0x40000 E := by exact Sub.of (by assumption) (by decide)) :
    Fr E s0 (mtPacket src ty info body t) := by
  unfold mtPacket
  (try dsimp only)
  repeat' (first | with_reducible assumption | with_reducible apply Fr.ite | with_reducible apply mtSync_frame | with_reducible apply mtPut_frame | with_reducible exact Sub.of (by assumption) (by decide) | split)

theorem mtBranch_frame (src : Nat) {s0 t : State} {E : Nat} (h : Fr E s0 t) (hE : Sub 0x40000 E := by exact Sub.of (by assumption) (by decide)) :
    Fr E s0 (mtBranch src t) := by
  unfold mtBranch
  (try dsimp only)
  repeat' (first | with_reducible assumption | with_reducible apply Fr.ite | with_reducible apply State.modMt_frame | with_reducible apply mtPacket_frame | with_reducible apply Fr.foldl | (intro _ _ _) | (intro _ _) | with_reducible exact Sub.of (by assumption) (by decide) | split)

theorem mtStopReq_frame (by_ : Nat) {s0 t : State} {E : Nat} (h : Fr E s0 t) (hE : Sub 0x28004420b0 E := by exact Sub.of (by assumption) (by decide)) :
    Fr E s0 (mtStopReq by_ t) := by
  unfold mtStopReq
  (try dsimp only)
  repeat' (first | with_reducible assumption | with_reducible apply Fr.ite | with_reducible apply State.fset_frame | with_reducible apply State.modMt_frame | with_reducible apply mtFlush_frame | with_reducible apply mtEach_frame | with_reducible apply mtPacket_frame | with_reducible apply mtBranch_frame | with_reducible apply State.freshNat_frame | with_reducible apply State.raise_frame | with_reducible apply Fr.foldl | (intro _ _ _) | (intro _ _) | with_reducible exact Sub.of (by assumption) (by decide) | with_reducible exact Sub.bit (by assumption) (by decide) | split)

theorem xtOutputs_frame (ch : Nat) (fromLink : Bool) {s0 t : State} {E : Nat} (h : Fr E s0 t) (hE : Sub 0x28004460b1 E := by exact Sub.of (by assumption) (by decide)) :
    Fr E s0 (xtOutputs ch fromLink t) := by
  unfold xtOutputs
  (try dsimp only)
  repeat' (first | with_reducible assumption | with_reducible apply Fr.ite | with_reducible apply pairHaltReq_frame | with_reducible apply State.emit_frame | with_reducible apply State.modLink_frame | with_reducible apply mtStartReq_frame | with_reducible apply mtStopReq_frame | with_reducible apply Fr.foldl | (intro _ _ _) | (intro _ _) | with_reducible exact Sub.of (by assumption) (by decide) | split)

theorem stopRequestAt_frame (t1 : Nat) {s0 t : State} {E : Nat} (h : Fr E s0 t) (hE : Sub 0x4200 E := by exact Sub.of (by assumption) (by decide)) :
    Fr E s0 (stopRequestAt t1 t) := by
  unfold stopRequestAt
  (try dsimp only)
  repeat' (first | with_reducible assumption | with_reducible apply Fr.ite | with_reducible apply adoptFence_frame | with_reducible exact Sub.of (by assumption) (by decide) | split)

theorem stopRequest_frame {s0 t : State} {E : Nat} (h : Fr E s0 t) (hE : Sub 0x4200 E := by exact Sub.of (by assumption) (by decide)) :
    Fr E s0 (stopRequest t) := by
  unfold stopRequest
  (try dsimp only)
  repeat' (first | with_reducible assumption | with_reducible apply stopRequestAt_frame | with_reducible exact Sub.of (by assumption) (by decide))

theorem ellipsisBegin_frame (st : SeqState) {s0 t : State} {E : Nat} (h : Fr E s0 t) (hE : Sub 0x200 E := by exact Sub.of (by assumption) (by decide)) :
    Fr E s0 (ellipsisBegin st t) := by
  unfold ellipsisBegin
  (try dsimp only)
  repeat' (first | with_reducible assumption | with_reducible exact Or.inr (Sub.bit (by assumption) (by decide)) | with_reducible exact Or.inl rfl | with_reducible rfl | (simp only [Fr.mk_eq]; with_reducible apply FrF.upd))

theorem ellipsisSample_frame {s0 t : State} {E : Nat} (h : Fr E s0 t) (hE : Sub 0x200 E := by exact Sub.of (by assumption) (by decide)) :
    Fr E s0 (ellipsisSample t) := by
  unfold ellipsisSample
  (try dsimp only)
  repeat' (first | with_reducible assumption | with_reducible exact Or.inr (Sub.bit (by assumption) (by decide)) | with_reducible exact Or.inl rfl | with_reducible rfl | with_reducible apply Fr.ite | (simp only [Fr.mk_eq]; with_reducible apply FrF.upd) | split)

theorem seqHalt_frame (cause : Nat) {s0 t : State} {E : Nat} (h : Fr E s0 t) (hE : Sub 0x68004462b1 E := by exact Sub.of (by assumption) (by decide)) :
    Fr E s0 (seqHalt cause t) := by
  unfold seqHalt
  (try dsimp only)
  repeat' (first | with_reducible assumption | with_reducible exact Or.inr (Sub.bit (by assumption) (by decide)) | with_reducible exact Or.inl rfl | with_reducible rfl | with_reducible apply Fr.ite | with_reducible apply stopRequest_frame | with_reducible apply ellipsisBegin_frame | with_reducible apply ellipsisSample_frame | with_reducible apply State.raise_frame | with_reducible apply State.fset_frame | with_reducible apply xtOutputs_frame | (simp only [Fr.mk_eq]; with_reducible apply FrF.upd) | with_reducible apply Fr.foldl | (intro _ _ _) | (intro _ _) | with_reducible exact Sub.of (by assumption) (by decide) | with_reducible exact Sub.bit (by assumption) (by decide) | split)

theorem xtAssert_frame (fromLink : Bool) (at_ : Option Nat) (ch : Nat) {s0 t : State} {E : Nat} (h : Fr E s0 t) (hE : Sub 0x68004462b1 E := by exact Sub.of (by assumption) (by decide)) :
    Fr E s0 (xtAssert fromLink at_ t ch) := by
  unfold xtAssert
  (try dsimp only)
  repeat' (first | with_reducible assumption | with_reducible exact Or.inr (Sub.bit (by assumption) (by decide)) | with_reducible exact Or.inl rfl | with_reducible rfl | with_reducible apply Fr.ite | with_reducible apply xtOutputs_frame | with_reducible apply seqHalt_frame | (simp only [Fr.mk_eq]; with_reducible apply FrF.upd) | with_reducible exact Sub.of (by assumption) (by decide) | split)

theorem xtInput_frame (bit : Nat) {s0 t : State} {E : Nat} (h : Fr E s0 t) (hE : Sub 0x68004462b1 E := by exact Sub.of (by assumption) (by decide)) :
    Fr E s0 (xtInput bit t) := by
  unfold xtInput
  (try dsimp only)
  repeat' (first | with_reducible assumption | with_reducible apply xtAssert_frame | with_reducible apply Fr.foldl | (intro _ _ _) | (intro _ _) | with_reducible exact Sub.of (by assumption) (by decide))

theorem seqStop_frame (reason : Nat) (at_ : Nat) (dev : Nat) {s0 t : State} {E : Nat} (h : Fr E s0 t) (hE : Sub 0x68404462b1 E := by exact Sub.of (by assumption) (by decide)) :
    Fr E s0 (seqStop reason at_ dev t) := by
  unfold seqStop
  (try dsimp only)
  repeat' (first | with_reducible assumption | with_reducible exact Or.inr (Sub.bit (by assumption) (by decide)) | with_reducible exact Or.inl rfl | with_reducible rfl | with_reducible apply Fr.ite | with_reducible apply xtInput_frame | with_reducible apply State.raise_frame | (simp only [Fr.mk_eq]; with_reducible apply FrF.upd) | with_reducible exact Sub.of (by assumption) (by decide) | with_reducible exact Sub.bit (by assumption) (by decide) | split)

theorem stopCheck_frame (n : Nat) {s0 t : State} {E : Nat} (h : Fr E s0 t) (hE : Sub 0x68404462b1 E := by exact Sub.of (by assumption) (by decide)) :
    Fr E s0 (stopCheck n t) := by
  unfold stopCheck
  (try dsimp only)
  repeat' (first | with_reducible assumption | with_reducible apply Fr.ite | with_reducible apply seqStop_frame | with_reducible exact Sub.of (by assumption) (by decide) | split)

theorem afterStep_frame (n : Nat) (brk : Bool) {s0 t : State} {E : Nat} (h : Fr E s0 t) (hE : Sub 0x68404462b1 E := by exact Sub.of (by assumption) (by decide)) :
    Fr E s0 (afterStep n brk t) := by
  unfold afterStep
  (try dsimp only)
  repeat' (first | with_reducible assumption | with_reducible apply Fr.ite | with_reducible apply stopCheck_frame | with_reducible apply seqHalt_frame | with_reducible apply ellipsisBegin_frame | with_reducible exact Sub.of (by assumption) (by decide) | split)

theorem agingCheck_frame (counts : List Word) {s0 t : State} {E : Nat} (h : Fr E s0 t) (hE : Sub 0x3000080 E := by exact Sub.of (by assumption) (by decide)) :
    Fr E s0 (agingCheck counts t) := by
  unfold agingCheck
  (try dsimp only)
  repeat' (first | with_reducible assumption | with_reducible exact Or.inr (Sub.bit (by assumption) (by decide)) | with_reducible exact Or.inl rfl | with_reducible rfl | with_reducible apply Fr.ite | with_reducible apply State.raise_frame | (simp only [Fr.mk_eq]; with_reducible apply FrF.upd) | with_reducible exact Sub.of (by assumption) (by decide) | with_reducible exact Sub.bit (by assumption) (by decide) | split)

theorem alertPin_frame (was : Bool) {s0 t : State} {E : Nat} (h : Fr E s0 t) (hE : Sub 0x1 E := by exact Sub.of (by assumption) (by decide)) :
    Fr E s0 (alertPin was t) := by
  unfold alertPin
  (try dsimp only)
  repeat' (first | with_reducible assumption | with_reducible apply Fr.ite | with_reducible apply State.emit_frame | with_reducible exact Sub.of (by assumption) (by decide) | split)

theorem signal_frame (v : Nat) {s0 t : State} {E : Nat} (h : Fr E s0 t) (hE : Sub 0x200001 E := by exact Sub.of (by assumption) (by decide)) :
    Fr E s0 (signal v t) := by
  unfold signal
  (try dsimp only)
  repeat' (first | with_reducible assumption | with_reducible exact Or.inr (Sub.bit (by assumption) (by decide)) | with_reducible exact Or.inl rfl | with_reducible rfl | with_reducible apply Fr.ite | with_reducible apply State.emit_frame | (simp only [Fr.mk_eq]; with_reducible apply FrF.upd) | with_reducible exact Sub.of (by assumption) (by decide) | split)

theorem msixUnmask_frame {s0 t : State} {E : Nat} (h : Fr E s0 t) (hE : Sub 0x200001 E := by exact Sub.of (by assumption) (by decide)) :
    Fr E s0 (msixUnmask t) := by
  unfold msixUnmask
  (try dsimp only)
  repeat' (first | with_reducible assumption | with_reducible exact Or.inr (Sub.bit (by assumption) (by decide)) | with_reducible exact Or.inl rfl | with_reducible rfl | with_reducible apply Fr.ite | with_reducible apply signal_frame | (simp only [Fr.mk_eq]; with_reducible apply FrF.upd) | with_reducible apply Fr.foldl | (intro _ _ _) | (intro _ _) | with_reducible exact Sub.of (by assumption) (by decide) | split)

theorem msixWrite_frame (a : Nat) (w : Word) {s0 t : State} {E : Nat} (h : Fr E s0 t) (hE : Sub 0x200001 E := by exact Sub.of (by assumption) (by decide)) :
    Fr E s0 (msixWrite a w t) := by
  unfold msixWrite
  (try dsimp only)
  repeat' (first | with_reducible assumption | with_reducible exact Or.inr (Sub.bit (by assumption) (by decide)) | with_reducible exact Or.inl rfl | with_reducible rfl | with_reducible apply Fr.ite | with_reducible apply msixUnmask_frame | (simp only [Fr.mk_eq]; with_reducible apply FrF.upd) | with_reducible exact Sub.of (by assumption) (by decide) | split)

theorem writePlt_frame (i : Nat) (v : QWord) {s0 t u : State} {E : Nat} (h : Fr E s0 t)
    (e : writePlt i v t = some u) (hE : Sub 0x1000000 E := by exact Sub.of (by assumption) (by decide)) : Fr E s0 u := by
  unfold writePlt at e
  (try dsimp only at e)
  repeat' (split at e)
  all_goals (try cases e)
  all_goals (repeat' (first | with_reducible assumption | with_reducible exact Or.inr (Sub.bit (by assumption) (by decide)) | with_reducible exact Or.inl rfl | with_reducible rfl | with_reducible apply Fr.ite | (simp only [Fr.mk_eq]; with_reducible apply FrF.upd) | split))

theorem writeSec_frame (i : Nat) (v : QWord) {s0 t u : State} {E : Nat} (h : Fr E s0 t)
    (e : writeSec i v t = some u) (hE : Sub 0x800000 E := by exact Sub.of (by assumption) (by decide)) : Fr E s0 u := by
  unfold writeSec at e
  (try dsimp only at e)
  repeat' (split at e)
  all_goals (try cases e)
  all_goals (repeat' (first | with_reducible assumption | with_reducible exact Or.inr (Sub.bit (by assumption) (by decide)) | with_reducible exact Or.inl rfl | with_reducible rfl | with_reducible apply Fr.ite | (simp only [Fr.mk_eq]; with_reducible apply FrF.upd) | split))

theorem writeMgt_frame (req : Requester) (i : Nat) (v : QWord) {s0 t u : State} {E : Nat} (h : Fr E s0 t)
    (e : writeMgt req i v t = some u) (hE : Sub 0x400000 E := by exact Sub.of (by assumption) (by decide)) : Fr E s0 u := by
  unfold writeMgt at e
  (try dsimp only at e)
  repeat' (split at e)
  all_goals (try cases e)
  all_goals (repeat' (first | with_reducible assumption | with_reducible exact Or.inr (Sub.bit (by assumption) (by decide)) | with_reducible exact Or.inl rfl | with_reducible rfl | with_reducible apply Fr.ite | (simp only [Fr.mk_eq]; with_reducible apply FrF.upd) | split))

theorem writeHif_frame (i : Nat) (v : QWord) {s0 t u : State} {E : Nat} (h : Fr E s0 t)
    (e : writeHif i v t = some u) (hE : Sub 0x200000 E := by exact Sub.of (by assumption) (by decide)) : Fr E s0 u := by
  unfold writeHif at e
  (try dsimp only at e)
  repeat' (split at e)
  all_goals (try cases e)
  all_goals (repeat' (first | with_reducible assumption | with_reducible exact Or.inr (Sub.bit (by assumption) (by decide)) | with_reducible exact Or.inl rfl | with_reducible rfl | with_reducible apply Fr.ite | with_reducible apply State.modRing_frame | with_reducible apply State.modDma_frame | (simp only [Fr.mk_eq]; with_reducible apply FrF.upd) | with_reducible exact Sub.of (by assumption) (by decide) | split))

theorem rtWrite_frame (k : Nat) (v : QWord) {s0 t : State} {E : Nat} (h : Fr E s0 t) (hE : Sub 0x100000 E := by exact Sub.of (by assumption) (by decide)) :
    Fr E s0 (rtWrite k v t) := by
  unfold rtWrite
  (try dsimp only)
  repeat' (first | with_reducible assumption | with_reducible exact Or.inr (Sub.bit (by assumption) (by decide)) | with_reducible exact Or.inl rfl | with_reducible rfl | (simp only [Fr.mk_eq]; with_reducible apply FrF.upd) | with_reducible apply Fr.foldl | (intro _ _ _) | (intro _ _))

theorem writeNoc_frame (i : Nat) (v : QWord) {s0 t u : State} {E : Nat} (h : Fr E s0 t)
    (e : writeNoc i v t = some u) (hE : Sub 0x100000 E := by exact Sub.of (by assumption) (by decide)) : Fr E s0 u := by
  unfold writeNoc at e
  (try dsimp only at e)
  repeat' (split at e)
  all_goals (try cases e)
  all_goals (repeat' (first | with_reducible assumption | with_reducible apply Fr.ite | with_reducible apply rtWrite_frame | with_reducible exact Sub.of (by assumption) (by decide) | split))

theorem stopatCheck_frame {s0 t : State} {E : Nat} (h : Fr E s0 t) (hE : Sub 0x40000080 E := by exact Sub.of (by assumption) (by decide)) :
    Fr E s0 (stopatCheck t) := by
  unfold stopatCheck
  (try dsimp only)
  repeat' (first | with_reducible assumption | with_reducible apply Fr.ite | with_reducible apply State.raise_frame | with_reducible apply State.fset_frame | with_reducible exact Sub.of (by assumption) (by decide) | with_reducible exact Sub.bit (by assumption) (by decide) | split)

theorem writeSeq_frame (i : Nat) (v : QWord) {s0 t u : State} {E : Nat} (h : Fr E s0 t)
    (e : writeSeq i v t = some u) (hE : Sub 0x40000280 E := by exact Sub.of (by assumption) (by decide)) : Fr E s0 u := by
  unfold writeSeq at e
  (try dsimp only at e)
  repeat' (split at e)
  all_goals (try cases e)
  all_goals (repeat' (first | with_reducible assumption | with_reducible exact Or.inr (Sub.bit (by assumption) (by decide)) | with_reducible exact Or.inl rfl | with_reducible rfl | with_reducible apply Fr.ite | with_reducible apply stopatCheck_frame | (simp only [Fr.mk_eq]; with_reducible apply FrF.upd) | with_reducible exact Sub.of (by assumption) (by decide) | split))

theorem writeSch_frame (i : Nat) (v : QWord) {s0 t u : State} {E : Nat} (h : Fr E s0 t)
    (e : writeSch i v t = some u) (hE : Sub 0x1000 E := by exact Sub.of (by assumption) (by decide)) : Fr E s0 u := by
  unfold writeSch at e
  (try dsimp only at e)
  repeat' (split at e)
  all_goals (try cases e)
  all_goals (repeat' (first | with_reducible assumption | with_reducible exact Or.inr (Sub.bit (by assumption) (by decide)) | with_reducible exact Or.inl rfl | with_reducible rfl | with_reducible apply Fr.ite | (simp only [Fr.mk_eq]; with_reducible apply FrF.upd) | split))

theorem writeLnk_frame (l : Nat) (i : Nat) (v : QWord) {s0 t u : State} {E : Nat} (h : Fr E s0 t)
    (e : writeLnk l i v t = some u) (hE : Sub 0x4000 E := by exact Sub.of (by assumption) (by decide)) : Fr E s0 u := by
  unfold writeLnk at e
  (try dsimp only at e)
  repeat' (split at e)
  all_goals (try cases e)
  all_goals (repeat' (first | with_reducible assumption | with_reducible apply Fr.ite | with_reducible apply ctlPut_frame | with_reducible exact Sub.of (by assumption) (by decide) | split))

theorem writeMem_frame (i : Nat) (v : QWord) {s0 t u : State} {E : Nat} (h : Fr E s0 t)
    (e : writeMem i v t = some u) (hE : Sub 0x2000 E := by exact Sub.of (by assumption) (by decide)) : Fr E s0 u := by
  unfold writeMem at e
  (try dsimp only at e)
  repeat' (split at e)
  all_goals (try cases e)
  all_goals (repeat' (first | with_reducible assumption | with_reducible exact Or.inr (Sub.bit (by assumption) (by decide)) | with_reducible exact Or.inl rfl | with_reducible rfl | with_reducible apply Fr.ite | (simp only [Fr.mk_eq]; with_reducible apply FrF.upd) | split))

theorem writeCap_frame (i : Nat) (v : QWord) {s0 t u : State} {E : Nat} (h : Fr E s0 t)
    (e : writeCap i v t = some u) (hE : Sub 0x40000 E := by exact Sub.of (by assumption) (by decide)) : Fr E s0 u := by
  unfold writeCap at e
  (try dsimp only at e)
  repeat' (split at e)
  all_goals (try cases e)
  all_goals (repeat' (first | with_reducible assumption | with_reducible exact Or.inr (Sub.bit (by assumption) (by decide)) | with_reducible exact Or.inl rfl | with_reducible rfl | with_reducible apply Fr.ite | (simp only [Fr.mk_eq]; with_reducible apply FrF.upd) | split))

theorem writeDbg_frame (req : Requester) (i : Nat) (v : QWord) {s0 t u : State} {E : Nat} (h : Fr E s0 t)
    (e : writeDbg req i v t = some u) (hE : Sub 0x480000 E := by exact Sub.of (by assumption) (by decide)) : Fr E s0 u := by
  unfold writeDbg at e
  (try dsimp only at e)
  repeat' (split at e)
  all_goals (try cases e)
  all_goals (repeat' (first | with_reducible assumption | with_reducible exact Or.inr (Sub.bit (by assumption) (by decide)) | with_reducible exact Or.inl rfl | with_reducible rfl | with_reducible apply Fr.ite | with_reducible apply State.modPair_frame | (simp only [Fr.mk_eq]; with_reducible apply FrF.upd) | with_reducible exact Sub.of (by assumption) (by decide) | split))

theorem itemWrite_frame (req : Requester) (page : Nat) (i : Nat) (v : QWord) {s0 t u : State} {E : Nat} (h : Fr E s0 t)
    (e : itemWrite req page i v t = some u) (hE : Sub 0x41fc7280 E := by exact Sub.of (by assumption) (by decide)) : Fr E s0 u := by
  unfold itemWrite at e
  (try dsimp only at e)
  repeat' (split at e)
  all_goals (try cases e)
  all_goals (repeat' (first | with_reducible assumption | (refine writePlt_frame _ _ ?_ (by assumption) ?_) | (refine writeSec_frame _ _ ?_ (by assumption) ?_) | (refine writeMgt_frame _ _ _ ?_ (by assumption) ?_) | (refine writeHif_frame _ _ ?_ (by assumption) ?_) | (refine writeNoc_frame _ _ ?_ (by assumption) ?_) | (refine writeSeq_frame _ _ ?_ (by assumption) ?_) | (refine writeSch_frame _ _ ?_ (by assumption) ?_) | (refine writeLnk_frame _ _ _ ?_ (by assumption) ?_) | (refine writeMem_frame _ _ ?_ (by assumption) ?_) | (refine writeCap_frame _ _ ?_ (by assumption) ?_) | (refine writeDbg_frame _ _ _ ?_ (by assumption) ?_) | with_reducible exact Sub.of (by assumption) (by decide) | split))

theorem stageIgnored_frame {s0 t : State} {E : Nat} (h : Fr E s0 t) (hE : Sub 0x400000 E := by exact Sub.of (by assumption) (by decide)) :
    Fr E s0 (stageIgnored t) := by
  unfold stageIgnored
  (try dsimp only)
  repeat' (first | with_reducible assumption | with_reducible exact Or.inr (Sub.bit (by assumption) (by decide)) | with_reducible exact Or.inl rfl | with_reducible rfl | (simp only [Fr.mk_eq]; with_reducible apply FrF.upd))

theorem mbxWrite_frame (req : Requester) (page : Nat) (ctx : Nat) (i : Nat) (tag : Nat) {s0 t : State} {E : Nat} (h : Fr E s0 t) (hE : Sub 0x41fc7380 E := by exact Sub.of (by assumption) (by decide)) :
    Fr E s0 (mbxWrite req page ctx i tag t) := by
  unfold mbxWrite
  (try dsimp only)
  repeat' (first | with_reducible assumption | with_reducible apply Fr.ite | with_reducible apply State.setMbx_frame | with_reducible apply stageIgnored_frame | (refine itemWrite_frame _ _ _ _ ?_ (by assumption) ?_) | with_reducible exact Sub.of (by assumption) (by decide) | split)

theorem readPlt_frame (i : Nat) {s0 t u : State} {E : Nat} {rv} (h : Fr E s0 t)
    (e : readPlt i t = some (rv, u)) (hE : Sub 0x0 E := by exact Sub.of (by assumption) (by decide)) : Fr E s0 u := by
  unfold readPlt at e
  (try dsimp only at e)
  repeat' (split at e)
  all_goals (try cases e)
  all_goals (repeat' (first | with_reducible assumption | with_reducible apply Fr.ite | split))

theorem readSec_frame (i : Nat) {s0 t u : State} {E : Nat} {rv} (h : Fr E s0 t)
    (e : readSec i t = some (rv, u)) (hE : Sub 0x0 E := by exact Sub.of (by assumption) (by decide)) : Fr E s0 u := by
  unfold readSec at e
  split at e
  · exact some_frame e h
  · split at e
    · dsimp only at e
      split at e
      · exact some_frame e h
      · exact some_frame e h
    · split at e
      · split at e
        · exact some_frame e h
        · exact some_frame e h
      · cases e

theorem readMgt_frame (i : Nat) {s0 t u : State} {E : Nat} {rv} (h : Fr E s0 t)
    (e : readMgt i t = some (rv, u)) (hE : Sub 0x0 E := by exact Sub.of (by assumption) (by decide)) : Fr E s0 u := by
  unfold readMgt at e
  (try dsimp only at e)
  repeat' (split at e)
  all_goals (try cases e)
  all_goals (repeat' (first | with_reducible assumption | with_reducible apply Fr.ite | split))

theorem readHif_frame (i : Nat) {s0 t u : State} {E : Nat} {rv} (h : Fr E s0 t)
    (e : readHif i t = some (rv, u)) (hE : Sub 0x0 E := by exact Sub.of (by assumption) (by decide)) : Fr E s0 u := by
  unfold readHif at e
  (try dsimp only at e)
  repeat' (split at e)
  all_goals (try cases e)
  all_goals (repeat' (first | with_reducible assumption | with_reducible apply Fr.ite | split))

theorem readNoc_frame (i : Nat) {s0 t u : State} {E : Nat} {rv} (h : Fr E s0 t)
    (e : readNoc i t = some (rv, u)) (hE : Sub 0x10 E := by exact Sub.of (by assumption) (by decide)) : Fr E s0 u := by
  unfold readNoc at e
  (try dsimp only at e)
  repeat' (split at e)
  all_goals (try cases e)
  all_goals (repeat' (first | with_reducible assumption | with_reducible apply Fr.ite | with_reducible apply State.fresh_frame | with_reducible apply State.freshNat_frame | with_reducible exact Sub.of (by assumption) (by decide) | split))

theorem readSeq_frame (i : Nat) {s0 t u : State} {E : Nat} {rv} (h : Fr E s0 t)
    (e : readSeq i t = some (rv, u)) (hE : Sub 0x10 E := by exact Sub.of (by assumption) (by decide)) : Fr E s0 u := by
  unfold readSeq at e
  (try dsimp only at e)
  repeat' (split at e)
  all_goals (try cases e)
  all_goals (repeat' (first | with_reducible assumption | with_reducible apply Fr.ite | with_reducible apply State.fresh_frame | with_reducible exact Sub.of (by assumption) (by decide) | split))

theorem readSch_frame (i : Nat) {s0 t u : State} {E : Nat} {rv} (h : Fr E s0 t)
    (e : readSch i t = some (rv, u)) (hE : Sub 0x0 E := by exact Sub.of (by assumption) (by decide)) : Fr E s0 u := by
  unfold readSch at e
  (try dsimp only at e)
  repeat' (split at e)
  all_goals (try cases e)
  all_goals (repeat' (first | with_reducible assumption | with_reducible apply Fr.ite | split))

theorem readCls_frame (c : Nat) (i : Nat) {s0 t u : State} {E : Nat} {rv} (h : Fr E s0 t)
    (e : readCls c i t = some (rv, u)) (hE : Sub 0x0 E := by exact Sub.of (by assumption) (by decide)) : Fr E s0 u := by
  unfold readCls at e
  (try dsimp only at e)
  repeat' (split at e)
  all_goals (try cases e)
  all_goals (repeat' (first | with_reducible assumption | with_reducible apply Fr.ite | split))

theorem readFab_frame (i : Nat) {s0 t u : State} {E : Nat} {rv} (h : Fr E s0 t)
    (e : readFab i t = some (rv, u)) (hE : Sub 0x0 E := by exact Sub.of (by assumption) (by decide)) : Fr E s0 u := by
  unfold readFab at e
  (try dsimp only at e)
  repeat' (split at e)
  all_goals (try cases e)
  all_goals (repeat' (first | with_reducible assumption | with_reducible apply Fr.ite | split))

theorem readLnk_frame (l : Nat) (i : Nat) {s0 t u : State} {E : Nat} {rv} (h : Fr E s0 t)
    (e : readLnk l i t = some (rv, u)) (hE : Sub 0x0 E := by exact Sub.of (by assumption) (by decide)) : Fr E s0 u := by
  unfold readLnk at e
  (try dsimp only at e)
  repeat' (split at e)
  all_goals (try cases e)
  all_goals (repeat' (first | with_reducible assumption | split))

theorem readMem_frame (i : Nat) {s0 t u : State} {E : Nat} {rv} (h : Fr E s0 t)
    (e : readMem i t = some (rv, u)) (hE : Sub 0x0 E := by exact Sub.of (by assumption) (by decide)) : Fr E s0 u := by
  unfold readMem at e
  (try dsimp only at e)
  repeat' (split at e)
  all_goals (try cases e)
  all_goals (repeat' (first | with_reducible assumption | with_reducible apply Fr.ite | split))

theorem readRim_frame (i : Nat) {s0 t u : State} {E : Nat} {rv} (h : Fr E s0 t)
    (e : readRim i t = some (rv, u)) (hE : Sub 0x10 E := by exact Sub.of (by assumption) (by decide)) : Fr E s0 u := by
  unfold readRim at e
  (try dsimp only at e)
  repeat' (split at e)
  all_goals (try cases e)
  all_goals (repeat' (first | with_reducible assumption | with_reducible apply Fr.ite | with_reducible apply State.freshNat_frame | with_reducible exact Sub.of (by assumption) (by decide) | split))

theorem readCap_frame (i : Nat) {s0 t u : State} {E : Nat} {rv} (h : Fr E s0 t)
    (e : readCap i t = some (rv, u)) (hE : Sub 0x0 E := by exact Sub.of (by assumption) (by decide)) : Fr E s0 u := by
  unfold readCap at e
  (try dsimp only at e)
  repeat' (split at e)
  all_goals (try cases e)
  all_goals (repeat' (first | with_reducible assumption | with_reducible apply Fr.ite | split))

theorem readDbg_frame (req : Requester) (i : Nat) {s0 t u : State} {E : Nat} {rv} (h : Fr E s0 t)
    (e : readDbg req i t = some (rv, u)) (hE : Sub 0x0 E := by exact Sub.of (by assumption) (by decide)) : Fr E s0 u := by
  unfold readDbg at e
  (try dsimp only at e)
  repeat' (split at e)
  all_goals (try cases e)
  all_goals (repeat' (first | with_reducible assumption | with_reducible apply Fr.ite | split))

theorem itemRead_frame (req : Requester) (page : Nat) (i : Nat) {s0 t u : State} {E : Nat} {rv} (h : Fr E s0 t)
    (e : itemRead req page i t = some (rv, u)) (hE : Sub 0x10 E := by exact Sub.of (by assumption) (by decide)) : Fr E s0 u := by
  unfold itemRead at e
  split at e
  · exact readPlt_frame _ h e
  · exact readSec_frame _ h e
  · exact readMgt_frame _ h e
  · exact readHif_frame _ h e
  · exact readNoc_frame _ h e
  · exact readSeq_frame _ h e
  · exact readSch_frame _ h e
  · obtain ⟨c, -, e⟩ := bind_opt e
    exact readCls_frame _ _ h e
  · exact readFab_frame _ h e
  · split at e
    · exact readLnk_frame _ _ h e
    · split at e
      · cases e; exact h
      · cases e
  · exact readMem_frame _ h e
  · exact readRim_frame _ h e
  · exact readCap_frame _ h e
  · exact readDbg_frame _ _ h e
  · cases e

theorem mbxRead_frame (req : Requester) (page : Nat) (ctx : Nat) (i : Nat) (tag : Nat) {s0 t : State} {E : Nat} (h : Fr E s0 t) (hE : Sub 0x110 E := by exact Sub.of (by assumption) (by decide)) :
    Fr E s0 (mbxRead req page ctx i tag t) := by
  unfold mbxRead
  (try dsimp only)
  repeat' (first | with_reducible assumption | with_reducible apply State.setMbx_frame | (refine itemRead_frame _ _ _ ?_ (by assumption) ?_) | with_reducible exact Sub.of (by assumption) (by decide) | split)

end Sys2Proof.Machine
end

