-- ==== Sys2Proof/Laws/Frame2.lean ====
section
/-! SUPPORT. Frame2.lean: the parts of the state each operation may change, part 2. -/
set_option Elab.async false
namespace Sys2Proof.Machine

theorem mbxSel_frame (req : Requester) (page : Nat) (ctx : Nat) (w : Word) {s0 t : State} {E : Nat} (h : Fr E s0 t) (hE : Sub 0x41fc7390 E := by exact Sub.of (by assumption) (by decide)) :
    Fr E s0 (mbxSel req page ctx w t) := by
  unfold mbxSel
  (try dsimp only)
  repeat' (first | with_reducible assumption | with_reducible apply Fr.ite | with_reducible apply mbxWrite_frame | with_reducible apply mbxRead_frame | with_reducible exact Sub.of (by assumption) (by decide) | split)

theorem mbxRegWrite_frame (req : Requester) (a : Nat) (w : Word) {s0 t u : State} {E : Nat} (h : Fr E s0 t)
    (e : mbxRegWrite req a w t = .ok u) (hE : Sub 0x41fc7390 E := by exact Sub.of (by assumption) (by decide)) : Fr E s0 u := by
  unfold mbxRegWrite at e
  (try dsimp only at e)
  repeat' (split at e)
  all_goals (try cases e)
  all_goals (repeat' (first | with_reducible assumption | with_reducible apply Fr.ite | with_reducible apply State.setMbx_frame | with_reducible apply mbxSel_frame | with_reducible exact Sub.of (by assumption) (by decide) | split))

theorem freqSwitch_frame (old : Nat) (new : Nat) {s0 t : State} {E : Nat} (h : Fr E s0 t) (hE : Sub 0x2000080 E := by exact Sub.of (by assumption) (by decide)) :
    Fr E s0 (freqSwitch old new t) := by
  unfold freqSwitch
  (try dsimp only)
  repeat' (first | with_reducible assumption | with_reducible apply State.raise_frame | with_reducible apply State.fset_frame | with_reducible exact Sub.of (by assumption) (by decide) | with_reducible exact Sub.bit (by assumption) (by decide))

theorem oppStart_frame (new : Nat) {s0 t : State} {E : Nat} (h : Fr E s0 t) (hE : Sub 0x3000080 E := by exact Sub.of (by assumption) (by decide)) :
    Fr E s0 (oppStart new t) := by
  unfold oppStart
  (try dsimp only)
  repeat' (first | with_reducible assumption | with_reducible exact Or.inr (Sub.bit (by assumption) (by decide)) | with_reducible exact Or.inl rfl | with_reducible rfl | with_reducible apply Fr.ite | with_reducible apply State.fset_frame | with_reducible apply freqSwitch_frame | (simp only [Fr.mk_eq]; with_reducible apply FrF.upd) | with_reducible exact Sub.of (by assumption) (by decide) | with_reducible exact Sub.bit (by assumption) (by decide) | split)

theorem oppWrite_frame (code : Nat) {s0 t : State} {E : Nat} (h : Fr E s0 t) (hE : Sub 0x3000080 E := by exact Sub.of (by assumption) (by decide)) :
    Fr E s0 (oppWrite code t) := by
  unfold oppWrite
  (try dsimp only)
  repeat' (first | with_reducible assumption | with_reducible exact Or.inr (Sub.bit (by assumption) (by decide)) | with_reducible exact Or.inl rfl | with_reducible rfl | with_reducible apply Fr.ite | with_reducible apply State.fset_frame | with_reducible apply oppStart_frame | (simp only [Fr.mk_eq]; with_reducible apply FrF.upd) | with_reducible exact Sub.of (by assumption) (by decide) | with_reducible exact Sub.bit (by assumption) (by decide) | split)

theorem throttleApply_frame {s0 t : State} {E : Nat} (h : Fr E s0 t) (hE : Sub 0x2000081 E := by exact Sub.of (by assumption) (by decide)) :
    Fr E s0 (throttleApply t) := by
  unfold throttleApply
  (try dsimp only)
  repeat' (first | with_reducible assumption | with_reducible apply Fr.ite | with_reducible apply State.fset_frame | with_reducible apply State.raise_frame | with_reducible apply alertPin_frame | with_reducible exact Sub.of (by assumption) (by decide) | with_reducible exact Sub.bit (by assumption) (by decide) | split)

theorem thrminWrite_frame (level : Nat) {s0 t : State} {E : Nat} (h : Fr E s0 t) (hE : Sub 0x2000081 E := by exact Sub.of (by assumption) (by decide)) :
    Fr E s0 (thrminWrite level t) := by
  unfold thrminWrite
  (try dsimp only)
  repeat' (first | with_reducible assumption | with_reducible apply throttleApply_frame | with_reducible apply State.fset_frame | with_reducible exact Sub.of (by assumption) (by decide) | with_reducible exact Sub.bit (by assumption) (by decide))

theorem sscWrite_frame (on : Bool) {s0 t : State} {E : Nat} (h : Fr E s0 t) (hE : Sub 0x3000000 E := by exact Sub.of (by assumption) (by decide)) :
    Fr E s0 (sscWrite on t) := by
  unfold sscWrite
  (try dsimp only)
  repeat' (first | with_reducible assumption | with_reducible exact Or.inr (Sub.bit (by assumption) (by decide)) | with_reducible exact Or.inl rfl | with_reducible rfl | with_reducible apply Fr.ite | with_reducible apply State.fsetb_frame | (simp only [Fr.mk_eq]; with_reducible apply FrF.upd) | with_reducible exact Sub.of (by assumption) (by decide) | with_reducible exact Sub.bit (by assumption) (by decide) | split)

theorem switchStart_frame {s0 t : State} {E : Nat} (h : Fr E s0 t) (hE : Sub 0x3000000 E := by exact Sub.of (by assumption) (by decide)) :
    Fr E s0 (switchStart t) := by
  unfold switchStart
  (try dsimp only)
  repeat' (first | with_reducible assumption | with_reducible exact Or.inr (Sub.bit (by assumption) (by decide)) | with_reducible exact Or.inl rfl | with_reducible rfl | with_reducible apply State.fset_frame | (simp only [Fr.mk_eq]; with_reducible apply FrF.upd) | with_reducible exact Sub.of (by assumption) (by decide) | with_reducible exact Sub.bit (by assumption) (by decide))

theorem swreq_frame {s0 t : State} {E : Nat} (h : Fr E s0 t) (hE : Sub 0x3000000 E := by exact Sub.of (by assumption) (by decide)) :
    Fr E s0 (swreq t) := by
  unfold swreq
  (try dsimp only)
  repeat' (first | with_reducible assumption | with_reducible apply Fr.ite | with_reducible apply switchStart_frame | with_reducible apply State.fset_frame | with_reducible exact Sub.of (by assumption) (by decide) | with_reducible exact Sub.bit (by assumption) (by decide) | split)

theorem gateReport_frame (d : Nat) (on : Bool) (result : Nat) {s0 t : State} {E : Nat} (h : Fr E s0 t) (hE : Sub 0x2000080 E := by exact Sub.of (by assumption) (by decide)) :
    Fr E s0 (gateReport d on result t) := by
  unfold gateReport
  (try dsimp only)
  repeat' (first | with_reducible assumption | with_reducible apply State.raise_frame | with_reducible apply State.fset_frame | with_reducible exact Sub.of (by assumption) (by decide) | with_reducible exact Sub.bit (by assumption) (by decide))

theorem linkOff_frame (l : Nat) {s0 t : State} {E : Nat} (h : Fr E s0 t) (hE : Sub 0x400004000 E := by exact Sub.of (by assumption) (by decide)) :
    Fr E s0 (linkOff l t) := by
  unfold linkOff
  (try dsimp only)
  repeat' (first | with_reducible assumption | with_reducible apply State.fset_frame | with_reducible apply State.setLink_frame | with_reducible exact Sub.of (by assumption) (by decide) | with_reducible exact Sub.bit (by assumption) (by decide) | (rw [F.LNK_SPARE_GO_block]; exact Sub.bit (by assumption) (by decide)) | (rw [F.LNK_STAT_REASON_block]; exact Sub.bit (by assumption) (by decide)) | (rw [F.LNK_STAT_SPARE_BUSY_block]; exact Sub.bit (by assumption) (by decide)) | (rw [F.LNK_STAT_SPARE_OK_block]; exact Sub.bit (by assumption) (by decide)))

theorem rimHalfLoses_frame (h_ : Nat) {s0 t : State} {E : Nat} (h : Fr E s0 t) (hE : Sub 0x20000 E := by exact Sub.of (by assumption) (by decide)) :
    Fr E s0 (rimHalfLoses h_ t) := by
  unfold rimHalfLoses
  (try dsimp only)
  repeat' (first | with_reducible assumption | with_reducible exact Or.inr (Sub.bit (by assumption) (by decide)) | with_reducible exact Or.inl rfl | with_reducible rfl | (simp only [Fr.mk_eq]; with_reducible apply FrF.upd))

theorem domainLoses_frame (d : Nat) {s0 t : State} {E : Nat} (h : Fr E s0 t) (hE : Sub 0x2d00066420 E := by exact Sub.of (by assumption) (by decide)) :
    Fr E s0 (domainLoses d t) := by
  have hl : ∀ l a, 0xE10000 + 0x4000 * l ≤ a → a < 0xE10000 + 0x4000 * (l + 1) → l < 32 → blockOf a = some 9 := by
    intro l a h1 h2 h3
    have : a / 0x100000 = 14 := by omega
    unfold blockOf
    rw [this]
    rfl
  have hc : ∀ c a, 0x810000 + 0x10000 * c ≤ a → a < 0x810000 + 0x10000 * (c + 1) → c < 64 → blockOf a = some 7 := by
    intro c a h1 h2 h3
    have h4 : ¬a / 0x100000 ≤ 6 := by omega
    have h5 : 8 ≤ a / 0x100000 ∧ a / 0x100000 ≤ 12 := by omega
    unfold blockOf
    simp only [if_neg h4, if_pos h5]
  unfold domainLoses
  dsimp only
  split
  · refine State.fset_frame _ _ (State.fset_frame _ _ ?_ (Sub.bit hE (by decide))) (Sub.bit hE (by decide))
    simp only [Fr.mk_eq]
    with_reducible apply FrF.upd
    all_goals first | exact Or.inr (Sub.bit hE (by decide)) | with_reducible exact Or.inl rfl | with_reducible rfl | with_reducible assumption
  split
  · refine Fr.foldl_mem (fun u i hi hu => ?_) h
    have hi := List.mem_range.1 hi
    exact dropFields_frame _ _ 9 (State.setLink_frame _ _ hu) (fun a h1 h2 => hl _ a h1 h2 (by omega)) (Sub.bit hE (by decide))
  split
  · refine Fr.foldl_mem (fun u i hi hu => ?_) h
    have hi := List.mem_range.1 hi
    exact dropFields_frame _ _ 7 (State.modClause_frame _ _ hu) (fun a h1 h2 => hc _ a h1 h2 (by omega)) (Sub.bit hE (by decide))
  split
  · exact rimHalfLoses_frame _ h
  split
  · exact Fr.foldl (fun u i hu => State.modBank_frame _ _ hu) h
  · refine dropFields_frame _ _ 12 ?_ (fun a h1 h2 => ?_) (Sub.bit hE (by decide))
    · simp only [Fr.mk_eq]
      with_reducible apply FrF.upd
      all_goals first | exact Or.inr (Sub.bit hE (by decide)) | with_reducible exact Or.inl rfl | with_reducible rfl | with_reducible assumption
    · have : a / 0x100000 = 17 := by omega
      unfold blockOf
      rw [this]
      rfl

theorem gateDomain_frame (d : Nat) {s0 t : State} {E : Nat} (h : Fr E s0 t) (hE : Sub 0x2d03066420 E := by exact Sub.of (by assumption) (by decide)) :
    Fr E s0 (gateDomain d t) := by
  unfold gateDomain
  (try dsimp only)
  repeat' (first | with_reducible assumption | with_reducible exact Or.inr (Sub.bit (by assumption) (by decide)) | with_reducible exact Or.inl rfl | with_reducible rfl | with_reducible apply Fr.ite | with_reducible apply State.fset_frame | with_reducible apply linkOff_frame | with_reducible apply domainLoses_frame | (simp only [Fr.mk_eq]; with_reducible apply FrF.upd) | with_reducible apply Fr.foldl | (intro _ _ _) | (intro _ _) | with_reducible exact Sub.of (by assumption) (by decide) | with_reducible exact Sub.bit (by assumption) (by decide) | split)

theorem gateRequest_frame (d : Nat) (on : Bool) {s0 t : State} {E : Nat} (h : Fr E s0 t) (hE : Sub 0x2d030664a0 E := by exact Sub.of (by assumption) (by decide)) :
    Fr E s0 (gateRequest d on t) := by
  unfold gateRequest
  (try dsimp only)
  repeat' (first | with_reducible assumption | with_reducible exact Or.inr (Sub.bit (by assumption) (by decide)) | with_reducible exact Or.inl rfl | with_reducible rfl | with_reducible apply Fr.ite | with_reducible apply gateReport_frame | with_reducible apply State.fsetb_frame | with_reducible apply State.fset_frame | with_reducible apply gateDomain_frame | (simp only [Fr.mk_eq]; with_reducible apply FrF.upd) | with_reducible exact Sub.of (by assumption) (by decide) | with_reducible exact Sub.bit (by assumption) (by decide) | split)

theorem plainWrite_frame (a : Nat) (r : RRow) (w : Word) {s0 t : State} {E : Nat} (h : Fr E s0 t) (hE : Sub 0xfffe000000 E := by exact Sub.of (by assumption) (by decide)) :
    Fr E s0 (plainWrite a r w t) := by
  unfold plainWrite
  refine Fr.foldl (fun u f hu => ?_) h
  split
  · exact State.fset_frame _ _ hu (Sub.anyFld _ hE)
  · exact State.fset_frame _ _ hu (Sub.anyFld _ hE)
  · exact hu

theorem loadPhraseMap_frame {s0 t : State} {E : Nat} (h : Fr E s0 t) (hE : Sub 0x400 E := by exact Sub.of (by assumption) (by decide)) :
    Fr E s0 (loadPhraseMap t) := by
  unfold loadPhraseMap
  (try dsimp only)
  repeat' (first | with_reducible assumption | with_reducible apply Fr.ite | with_reducible apply State.modClause_frame | with_reducible apply Fr.foldl | (intro _ _ _) | (intro _ _) | with_reducible exact Sub.of (by assumption) (by decide) | split)

theorem resetBlocks_frame {s0 t : State} {E : Nat} (h : Fr E s0 t) (hE : Sub 0xffffffffac E := by exact Sub.of (by assumption) (by decide)) :
    Fr E s0 (resetBlocks t) := by
  unfold resetBlocks
  refine loadPhraseMap_frame ?_
  refine ⟨h.h_out, h.h_now, fun x => absurd (x.symm.trans (Sub.bit hE (by decide))) (by decide), fun x => absurd (x.symm.trans (Sub.bit hE (by decide))) (by decide), h.h_free, fun x => absurd (x.symm.trans (Sub.bit hE (by decide))) (by decide), h.h_flash, fun x => absurd (x.symm.trans (Sub.bit hE (by decide))) (by decide), fun x => absurd (x.symm.trans (Sub.bit hE (by decide))) (by decide), fun x => absurd (x.symm.trans (Sub.bit hE (by decide))) (by decide), fun x => absurd (x.symm.trans (Sub.bit hE (by decide))) (by decide), fun x => absurd (x.symm.trans (Sub.bit hE (by decide))) (by decide), fun x => absurd (x.symm.trans (Sub.bit hE (by decide))) (by decide), fun x => absurd (x.symm.trans (Sub.bit hE (by decide))) (by decide), fun x => absurd (x.symm.trans (Sub.bit hE (by decide))) (by decide), fun x => absurd (x.symm.trans (Sub.bit hE (by decide))) (by decide), fun x => absurd (x.symm.trans (Sub.bit hE (by decide))) (by decide), fun x => absurd (x.symm.trans (Sub.bit hE (by decide))) (by decide), fun x => absurd (x.symm.trans (Sub.bit hE (by decide))) (by decide), fun x => absurd (x.symm.trans (Sub.bit hE (by decide))) (by decide), fun x => absurd (x.symm.trans (Sub.bit hE (by decide))) (by decide), fun x => absurd (x.symm.trans (Sub.bit hE (by decide))) (by decide), fun x => absurd (x.symm.trans (Sub.bit hE (by decide))) (by decide), fun x => absurd (x.symm.trans (Sub.bit hE (by decide))) (by decide), fun x => absurd (x.symm.trans (Sub.bit hE (by decide))) (by decide), fun f x => absurd (x.symm.trans (Sub.anyFld f (Sub.of hE (by decide)))) (by decide)⟩

theorem bootRead_frame (b : Boot) {s0 t : State} {E : Nat} (h : Fr E s0 t) (hE : Sub 0x80410000 E := by exact Sub.of (by assumption) (by decide)) :
    Fr E s0 (bootRead b t) := by
  unfold bootRead
  (try dsimp only)
  repeat' (first | with_reducible assumption | with_reducible exact Or.inr (Sub.bit (by assumption) (by decide)) | with_reducible exact Or.inl rfl | with_reducible rfl | with_reducible apply State.fset_frame | (simp only [Fr.mk_eq]; with_reducible apply FrF.upd) | with_reducible exact Sub.of (by assumption) (by decide) | with_reducible exact Sub.bit (by assumption) (by decide))

theorem bootSelect_frame {s0 t : State} {E : Nat} (h : Fr E s0 t) (hE : Sub 0x80410000 E := by exact Sub.of (by assumption) (by decide)) :
    Fr E s0 (bootSelect t) := by
  unfold bootSelect
  (try dsimp only)
  repeat' (first | with_reducible assumption | with_reducible apply bootRead_frame | with_reducible apply State.fset_frame | with_reducible exact Sub.of (by assumption) (by decide) | with_reducible exact Sub.bit (by assumption) (by decide) | split)

theorem deviceReset_frame (cause : ResetCause) {s0 t : State} {E : Nat} (h : Fr E s0 t) (hE : Sub 0xffffffffac E := by exact Sub.of (by assumption) (by decide)) :
    Fr E s0 (deviceReset cause t) := by
  unfold deviceReset
  (try dsimp only)
  repeat' (first | with_reducible assumption | with_reducible exact Or.inr (Sub.bit (by assumption) (by decide)) | with_reducible exact Or.inl rfl | with_reducible rfl | with_reducible apply resetBlocks_frame | with_reducible apply State.fset_frame | with_reducible apply bootSelect_frame | (simp only [Fr.mk_eq]; with_reducible apply FrF.upd) | with_reducible exact Sub.of (by assumption) (by decide) | with_reducible exact Sub.bit (by assumption) (by decide) | split)

theorem rstKey_frame (req : Requester) (key : BitVec 16) {s0 t : State} {E : Nat} (h : Fr E s0 t) (hE : Sub 0xffffffffac E := by exact Sub.of (by assumption) (by decide)) :
    Fr E s0 (rstKey req key t) := by
  unfold rstKey
  (try dsimp only)
  repeat' (first | with_reducible assumption | with_reducible exact Or.inr (Sub.bit (by assumption) (by decide)) | with_reducible exact Or.inl rfl | with_reducible rfl | with_reducible apply Fr.ite | with_reducible apply deviceReset_frame | (simp only [Fr.mk_eq]; with_reducible apply FrF.upd) | with_reducible exact Sub.of (by assumption) (by decide) | split)

theorem writePltReg_frame (req : Requester) (o : Nat) (a : Nat) (r : RRow) (w : Word) {s0 t : State} {E : Nat} (h : Fr E s0 t) (hE : Sub 0xffffffffad E := by exact Sub.of (by assumption) (by decide)) :
    Fr E s0 (writePltReg req o a r w t) := by
  unfold writePltReg
  (try dsimp only)
  repeat' (first | with_reducible assumption | with_reducible exact Or.inr (Sub.bit (by assumption) (by decide)) | with_reducible exact Or.inl rfl | with_reducible rfl | with_reducible apply Fr.ite | with_reducible apply oppWrite_frame | with_reducible apply thrminWrite_frame | with_reducible apply State.fset_frame | with_reducible apply sscWrite_frame | with_reducible apply swreq_frame | with_reducible apply gateRequest_frame | with_reducible apply plainWrite_frame | with_reducible apply alertPin_frame | with_reducible apply rstKey_frame | (simp only [Fr.mk_eq]; with_reducible apply FrF.upd) | with_reducible exact Sub.of (by assumption) (by decide) | with_reducible exact Sub.bit (by assumption) (by decide) | split)

theorem tokenReport_frame (slot : Nat) (part : Nat) (what : Nat) (result : Nat) {s0 t : State} {E : Nat} (h : Fr E s0 t) (hE : Sub 0x4000080 E := by exact Sub.of (by assumption) (by decide)) :
    Fr E s0 (tokenReport slot part what result t) := by
  unfold tokenReport
  (try dsimp only)
  repeat' (first | with_reducible assumption | with_reducible apply State.raise_frame | with_reducible apply State.fset_frame | with_reducible exact Sub.of (by assumption) (by decide) | with_reducible exact Sub.bit (by assumption) (by decide))

theorem tokenBoth_frame (slot : Nat) {s0 t : State} {E : Nat} (h : Fr E s0 t) (hE : Sub 0x4000090 E := by exact Sub.of (by assumption) (by decide)) :
    Fr E s0 (tokenBoth slot t) := by
  unfold tokenBoth
  (try dsimp only)
  repeat' (first | with_reducible assumption | with_reducible apply tokenReport_frame | with_reducible apply State.freshNat_frame | with_reducible exact Sub.of (by assumption) (by decide))

theorem tokenLoad_frame (slot : Nat) {s0 t : State} {E : Nat} (h : Fr E s0 t) (hE : Sub 0x4800080 E := by exact Sub.of (by assumption) (by decide)) :
    Fr E s0 (tokenLoad slot t) := by
  unfold tokenLoad
  (try dsimp only)
  repeat' (first | with_reducible assumption | with_reducible exact Or.inr (Sub.bit (by assumption) (by decide)) | with_reducible exact Or.inl rfl | with_reducible rfl | with_reducible apply tokenReport_frame | (simp only [Fr.mk_eq]; with_reducible apply FrF.upd) | with_reducible exact Sub.of (by assumption) (by decide) | split)

theorem tokenUnload_frame (slot : Nat) {s0 t : State} {E : Nat} (h : Fr E s0 t) (hE : Sub 0x4800090 E := by exact Sub.of (by assumption) (by decide)) :
    Fr E s0 (tokenUnload slot t) := by
  unfold tokenUnload
  (try dsimp only)
  repeat' (first | with_reducible assumption | with_reducible exact Or.inr (Sub.bit (by assumption) (by decide)) | with_reducible exact Or.inl rfl | with_reducible rfl | with_reducible apply tokenReport_frame | with_reducible apply State.freshNat_frame | (simp only [Fr.mk_eq]; with_reducible apply FrF.upd) | with_reducible exact Sub.of (by assumption) (by decide) | split)

theorem epochErase_frame {s0 t : State} {E : Nat} (h : Fr E s0 t) (hE : Sub 0x4800080 E := by exact Sub.of (by assumption) (by decide)) :
    Fr E s0 (epochErase t) := by
  unfold epochErase
  (try dsimp only)
  repeat' (first | with_reducible assumption | with_reducible exact Or.inr (Sub.bit (by assumption) (by decide)) | with_reducible exact Or.inl rfl | with_reducible rfl | with_reducible apply Fr.ite | with_reducible apply State.raise_frame | (simp only [Fr.mk_eq]; with_reducible apply FrF.upd) | with_reducible apply Fr.foldl | (intro _ _ _) | (intro _ _) | with_reducible exact Sub.of (by assumption) (by decide) | with_reducible exact Sub.bit (by assumption) (by decide) | split)

theorem fuseProgram_frame (req : Requester) (word : Nat) (readBackOk : Bool) {s0 t : State} {E : Nat} (h : Fr E s0 t) (hE : Sub 0x4800090 E := by exact Sub.of (by assumption) (by decide)) :
    Fr E s0 (fuseProgram req word readBackOk t) := by
  unfold fuseProgram
  (try dsimp only)
  repeat' (first | with_reducible assumption | with_reducible exact Or.inr (Sub.bit (by assumption) (by decide)) | with_reducible exact Or.inl rfl | with_reducible rfl | with_reducible apply Fr.ite | with_reducible apply State.fset_frame | with_reducible apply State.raise_frame | with_reducible apply State.fresh_frame | with_reducible apply epochErase_frame | (simp only [Fr.mk_eq]; with_reducible apply FrF.upd) | with_reducible exact Sub.of (by assumption) (by decide) | with_reducible exact Sub.bit (by assumption) (by decide) | split)

theorem writeSecReg_frame (req : Requester) (o : Nat) (a : Nat) (r : RRow) (w : Word) {s0 t : State} {E : Nat} (h : Fr E s0 t) (hE : Sub 0xfffe800090 E := by exact Sub.of (by assumption) (by decide)) :
    Fr E s0 (writeSecReg req o a r w t) := by
  unfold writeSecReg
  (try dsimp only)
  repeat' (first | with_reducible assumption | with_reducible apply Fr.ite | with_reducible apply tokenBoth_frame | with_reducible apply tokenLoad_frame | with_reducible apply tokenUnload_frame | with_reducible apply plainWrite_frame | with_reducible apply fuseProgram_frame | with_reducible exact Sub.of (by assumption) (by decide) | split)

theorem mmodeOnly_frame (req : Requester) (t1 : State) {s0 t : State} {E : Nat} (ht1 : Fr E s0 t1) (h : Fr E s0 t) (hE : Sub 0x0 E := by exact Sub.of (by assumption) (by decide)) :
    Fr E s0 (mmodeOnly req t1 t).2 := by
  unfold mmodeOnly
  (try dsimp only)
  repeat' (first | with_reducible assumption | with_reducible apply Fr.ite | split)

theorem codebaseSet_frame (secbase : Nat) {s0 t : State} {E : Nat} (h : Fr E s0 t) (hE : Sub 0x8400010 E := by exact Sub.of (by assumption) (by decide)) :
    Fr E s0 (codebaseSet secbase t) := by
  unfold codebaseSet
  (try dsimp only)
  repeat' (first | with_reducible assumption | with_reducible exact Or.inr (Sub.bit (by assumption) (by decide)) | with_reducible exact Or.inl rfl | with_reducible rfl | with_reducible apply State.freshNat_frame | with_reducible apply State.modPair_frame | with_reducible apply State.fset_frame | (simp only [Fr.mk_eq]; with_reducible apply FrF.upd) | with_reducible exact Sub.of (by assumption) (by decide) | with_reducible exact Sub.bit (by assumption) (by decide) | split)

theorem wdtWrite_frame (p : Nat) (en : Bool) (timeout : Nat) {s0 t : State} {E : Nat} (h : Fr E s0 t) (hE : Sub 0x8000000 E := by exact Sub.of (by assumption) (by decide)) :
    Fr E s0 (wdtWrite p en timeout t) := by
  unfold wdtWrite
  (try dsimp only)
  repeat' (first | with_reducible assumption | with_reducible apply Fr.ite | with_reducible apply State.fset_frame | with_reducible exact Sub.of (by assumption) (by decide) | with_reducible exact Sub.bit (by assumption) (by decide) | (rw [F.MGT_WDT_EN_block]; exact Sub.bit (by assumption) (by decide)) | (rw [F.MGT_WDT_TIMEOUT_block]; exact Sub.bit (by assumption) (by decide)) | split)

theorem wdtKick_frame (p : Nat) (key : BitVec 16) {s0 t : State} {E : Nat} (h : Fr E s0 t) (hE : Sub 0x400000 E := by exact Sub.of (by assumption) (by decide)) :
    Fr E s0 (wdtKick p key t) := by
  unfold wdtKick
  (try dsimp only)
  repeat' (first | with_reducible assumption | with_reducible apply Fr.ite | with_reducible apply State.modPair_frame | with_reducible exact Sub.of (by assumption) (by decide) | split)

theorem svcRespond_frame (slot : Nat) (status : Nat) (ev : Nat) (d : List Nat) {s0 t : State} {E : Nat} (h : Fr E s0 t) (hE : Sub 0x8400090 E := by exact Sub.of (by assumption) (by decide)) :
    Fr E s0 (svcRespond slot status ev d t) := by
  unfold svcRespond
  (try dsimp only)
  repeat' (first | with_reducible assumption | with_reducible exact Or.inr (Sub.bit (by assumption) (by decide)) | with_reducible exact Or.inl rfl | with_reducible rfl | with_reducible apply Fr.ite | with_reducible apply State.fresh_frame | with_reducible apply State.raise_frame | with_reducible apply State.fset_frame | (simp only [Fr.mk_eq]; with_reducible apply FrF.upd) | with_reducible apply Fr.foldl | (intro _ _ _) | (intro _ _) | with_reducible exact Sub.of (by assumption) (by decide) | with_reducible exact Sub.bit (by assumption) (by decide) | split)

theorem svcUnlisted_frame {s0 t : State} {E : Nat} (h : Fr E s0 t) (hE : Sub 0x8400090 E := by exact Sub.of (by assumption) (by decide)) :
    Fr E s0 (svcUnlisted t) := by
  unfold svcUnlisted
  (try dsimp only)
  repeat' (first | with_reducible assumption | with_reducible apply Fr.ite | with_reducible apply svcRespond_frame | with_reducible apply Fr.foldl | (intro _ _ _) | (intro _ _) | with_reducible exact Sub.of (by assumption) (by decide) | split)

theorem fpSwap_frame {s0 t : State} {E : Nat} (h : Fr E s0 t) (hE : Sub 0x8400000 E := by exact Sub.of (by assumption) (by decide)) :
    Fr E s0 (fpSwap t) := by
  unfold fpSwap
  (try dsimp only)
  repeat' (first | with_reducible assumption | with_reducible exact Or.inr (Sub.bit (by assumption) (by decide)) | with_reducible exact Or.inl rfl | with_reducible rfl | with_reducible apply State.fsetb_frame | (simp only [Fr.mk_eq]; with_reducible apply FrF.upd) | with_reducible apply Fr.foldl | (intro _ _ _) | (intro _ _) | with_reducible exact Sub.of (by assumption) (by decide) | with_reducible exact Sub.bit (by assumption) (by decide))

theorem fpApply_frame {s0 t : State} {E : Nat} (h : Fr E s0 t) (hE : Sub 0x8400000 E := by exact Sub.of (by assumption) (by decide)) :
    Fr E s0 (fpApply t) := by
  unfold fpApply
  (try dsimp only)
  repeat' (first | with_reducible assumption | with_reducible exact Or.inr (Sub.bit (by assumption) (by decide)) | with_reducible exact Or.inl rfl | with_reducible rfl | with_reducible apply Fr.ite | with_reducible apply State.fset_frame | with_reducible apply fpSwap_frame | (simp only [Fr.mk_eq]; with_reducible apply FrF.upd) | with_reducible exact Sub.of (by assumption) (by decide) | with_reducible exact Sub.bit (by assumption) (by decide) | split)

theorem flashCmd_frame (op : Nat) {s0 t : State} {E : Nat} (h : Fr E s0 t) (hE : Sub 0x8400000 E := by exact Sub.of (by assumption) (by decide)) :
    Fr E s0 (flashCmd op t) := by
  unfold flashCmd
  (try dsimp only)
  repeat' (first | with_reducible assumption | with_reducible exact Or.inr (Sub.bit (by assumption) (by decide)) | with_reducible exact Or.inl rfl | with_reducible rfl | with_reducible apply Fr.ite | with_reducible apply State.fset_frame | (simp only [Fr.mk_eq]; with_reducible apply FrF.upd) | with_reducible exact Sub.of (by assumption) (by decide) | with_reducible exact Sub.bit (by assumption) (by decide) | split)

theorem swapAnswer_frame {s0 t : State} {E : Nat} (h : Fr E s0 t) (hE : Sub 0x8400090 E := by exact Sub.of (by assumption) (by decide)) :
    Fr E s0 (swapAnswer t) := by
  unfold swapAnswer
  (try dsimp only)
  repeat' (first | with_reducible assumption | with_reducible apply Fr.ite | with_reducible apply svcRespond_frame | with_reducible apply Fr.foldl | (intro _ _ _) | (intro _ _) | with_reducible exact Sub.of (by assumption) (by decide) | split)

theorem swapOk_frame {s0 t : State} {E : Nat} (h : Fr E s0 t) (hE : Sub 0x88400090 E := by exact Sub.of (by assumption) (by decide)) :
    Fr E s0 (swapOk t) := by
  unfold swapOk
  (try dsimp only)
  repeat' (first | with_reducible assumption | with_reducible exact Or.inr (Sub.bit (by assumption) (by decide)) | with_reducible exact Or.inl rfl | with_reducible rfl | with_reducible apply State.fset_frame | with_reducible apply swapAnswer_frame | with_reducible apply State.raise_frame | (simp only [Fr.mk_eq]; with_reducible apply FrF.upd) | with_reducible exact Sub.of (by assumption) (by decide) | with_reducible exact Sub.bit (by assumption) (by decide) | split)

theorem writeMgtReg_frame (req : Requester) (o : Nat) (a : Nat) (r : RRow) (w : Word) {s0 t : State} {E : Nat} (h : Fr E s0 t) (hE : Sub 0xfffe400090 E := by exact Sub.of (by assumption) (by decide)) :
    Fr E s0 (writeMgtReg req o a r w t).2 := by
  unfold writeMgtReg
  (try dsimp only)
  repeat' (first | with_reducible assumption | with_reducible apply Fr.ite | with_reducible apply mmodeOnly_frame | with_reducible apply codebaseSet_frame | with_reducible apply wdtWrite_frame | with_reducible apply wdtKick_frame | with_reducible apply svcUnlisted_frame | with_reducible apply State.fset_frame | with_reducible apply fpApply_frame | with_reducible apply flashCmd_frame | with_reducible apply plainWrite_frame | with_reducible apply swapOk_frame | with_reducible apply stageIgnored_frame | with_reducible exact Sub.of (by assumption) (by decide) | with_reducible exact Sub.bit (by assumption) (by decide) | split)

theorem ringFields_frame (r : Nat) (w : Word) {s0 t : State} {E : Nat} (h : Fr E s0 t) (hE : Sub 0x10000000 E := by exact Sub.of (by assumption) (by decide)) :
    Fr E s0 (ringFields r w t) := by
  unfold ringFields
  (try dsimp only)
  repeat' (first | with_reducible assumption | with_reducible apply Fr.ite | with_reducible apply State.fset_frame | with_reducible exact Sub.of (by assumption) (by decide) | with_reducible exact Sub.bit (by assumption) (by decide) | (rw [F.HIF_EVCFG_CNT_block]; exact Sub.bit (by assumption) (by decide)) | (rw [F.HIF_EVCFG_LOG2_block]; exact Sub.bit (by assumption) (by decide)) | (rw [F.HIF_EVCFG_TIME_block]; exact Sub.bit (by assumption) (by decide)) | (rw [F.HIF_EVCFG_VEC_block]; exact Sub.bit (by assumption) (by decide)) | split)

theorem ringEnable_frame (r : Nat) (w : Word) {s0 t : State} {E : Nat} (h : Fr E s0 t) (hE : Sub 0x10200000 E := by exact Sub.of (by assumption) (by decide)) :
    Fr E s0 (ringEnable r w t) := by
  unfold ringEnable
  (try dsimp only)
  repeat' (first | with_reducible assumption | with_reducible apply Fr.ite | with_reducible apply ringFields_frame | with_reducible apply State.fset_frame | with_reducible apply State.modRing_frame | with_reducible exact Sub.of (by assumption) (by decide) | with_reducible exact Sub.bit (by assumption) (by decide) | (rw [F.HIF_EVCFG_EN_block]; exact Sub.bit (by assumption) (by decide)) | split)

theorem ringDisable_frame (r : Nat) (w : Word) {s0 t : State} {E : Nat} (h : Fr E s0 t) (hE : Sub 0x10000000 E := by exact Sub.of (by assumption) (by decide)) :
    Fr E s0 (ringDisable r w t) := by
  unfold ringDisable
  (try dsimp only)
  repeat' (first | with_reducible assumption | with_reducible apply Fr.ite | with_reducible apply State.fset_frame | with_reducible apply ringFields_frame | with_reducible exact Sub.of (by assumption) (by decide) | with_reducible exact Sub.bit (by assumption) (by decide) | (rw [F.HIF_EVCFG_EN_block]; exact Sub.bit (by assumption) (by decide)) | split)

theorem dmaFields_frame (c : Nat) (w : Word) {s0 t : State} {E : Nat} (h : Fr E s0 t) (hE : Sub 0x10000000 E := by exact Sub.of (by assumption) (by decide)) :
    Fr E s0 (dmaFields c w t) := by
  unfold dmaFields
  (try dsimp only)
  repeat' (first | with_reducible assumption | with_reducible apply Fr.ite | with_reducible apply State.fset_frame | with_reducible exact Sub.of (by assumption) (by decide) | with_reducible exact Sub.bit (by assumption) (by decide) | (rw [F.HIF_DCTL_LOG2_block]; exact Sub.bit (by assumption) (by decide)) | (rw [F.HIF_DCTL_VEC_block]; exact Sub.bit (by assumption) (by decide)) | (rw [F.HIF_DCTL_WB_block]; exact Sub.bit (by assumption) (by decide)) | split)

theorem dmaEnable_frame (c : Nat) (w : Word) {s0 t : State} {E : Nat} (h : Fr E s0 t) (hE : Sub 0x10200000 E := by exact Sub.of (by assumption) (by decide)) :
    Fr E s0 (dmaEnable c w t) := by
  unfold dmaEnable
  (try dsimp only)
  repeat' (first | with_reducible assumption | with_reducible apply Fr.ite | with_reducible apply State.modDma_frame | with_reducible apply State.fset_frame | with_reducible apply dmaFields_frame | with_reducible exact Sub.of (by assumption) (by decide) | with_reducible exact Sub.bit (by assumption) (by decide) | (rw [F.HIF_DCTL_EN_block]; exact Sub.bit (by assumption) (by decide)) | split)

theorem dmaDisable_frame (c : Nat) (w : Word) {s0 t : State} {E : Nat} (h : Fr E s0 t) (hE : Sub 0x10200000 E := by exact Sub.of (by assumption) (by decide)) :
    Fr E s0 (dmaDisable c w t) := by
  unfold dmaDisable
  (try dsimp only)
  repeat' (first | with_reducible assumption | with_reducible apply Fr.ite | with_reducible apply State.modDma_frame | with_reducible apply State.fset_frame | with_reducible apply dmaFields_frame | with_reducible exact Sub.of (by assumption) (by decide) | with_reducible exact Sub.bit (by assumption) (by decide) | (rw [F.HIF_DCTL_EN_block]; exact Sub.bit (by assumption) (by decide)) | split)

theorem writeHifReg_frame (o : Nat) (a : Nat) (r : RRow) (w : Word) {s0 t : State} {E : Nat} (h : Fr E s0 t) (hE : Sub 0xfffe200000 E := by exact Sub.of (by assumption) (by decide)) :
    Fr E s0 (writeHifReg o a r w t) := by
  unfold writeHifReg
  (try dsimp only)
  repeat' (first | with_reducible assumption | with_reducible apply Fr.ite | with_reducible apply ringEnable_frame | with_reducible apply ringDisable_frame | with_reducible apply dmaEnable_frame | with_reducible apply dmaDisable_frame | with_reducible apply plainWrite_frame | with_reducible exact Sub.of (by assumption) (by decide) | split)

theorem nocAgree_frame (tag : Nat) {s0 t : State} {E : Nat} (h : Fr E s0 t) (hE : Sub 0x20100080 E := by exact Sub.of (by assumption) (by decide)) :
    Fr E s0 (nocAgree tag t) := by
  unfold nocAgree
  (try dsimp only)
  repeat' (first | with_reducible assumption | with_reducible exact Or.inr (Sub.bit (by assumption) (by decide)) | with_reducible exact Or.inl rfl | with_reducible rfl | with_reducible apply Fr.ite | with_reducible apply State.fset_frame | with_reducible apply State.raise_frame | with_reducible apply State.fsetb_frame | (simp only [Fr.mk_eq]; with_reducible apply FrF.upd) | with_reducible exact Sub.of (by assumption) (by decide) | with_reducible exact Sub.bit (by assumption) (by decide) | split)

theorem rimAnswer_frame (x : RimRsp) {s0 t : State} {E : Nat} (h : Fr E s0 t) (hE : Sub 0x100001 E := by exact Sub.of (by assumption) (by decide)) :
    Fr E s0 (rimAnswer x t) := by
  unfold rimAnswer
  (try dsimp only)
  repeat' (first | with_reducible assumption | with_reducible exact Or.inr (Sub.bit (by assumption) (by decide)) | with_reducible exact Or.inl rfl | with_reducible rfl | with_reducible apply Fr.ite | with_reducible apply State.emit_frame | (simp only [Fr.mk_eq]; with_reducible apply FrF.upd) | with_reducible exact Sub.of (by assumption) (by decide) | split)

theorem send_frame (r : Nat) (p : Packet) {s0 t : State} {E : Nat} (h : Fr E s0 t) (hE : Sub 0x100000 E := by exact Sub.of (by assumption) (by decide)) :
    Fr E s0 (send r p t) := by
  unfold send
  (try dsimp only)
  repeat' (first | with_reducible assumption | with_reducible apply State.setWaitq_frame | with_reducible exact Sub.of (by assumption) (by decide))

theorem rimIssue_frame (x : RimReq) {s0 t u : State} {E : Nat} (h : Fr E s0 t)
    (e : rimIssue x t = some u) (hE : Sub 0x100001 E := by exact Sub.of (by assumption) (by decide)) : Fr E s0 u := by
  unfold rimIssue at e
  (try dsimp only at e)
  repeat' (split at e)
  all_goals (try cases e)
  all_goals (repeat' (first | with_reducible assumption | with_reducible exact Or.inr (Sub.bit (by assumption) (by decide)) | with_reducible exact Or.inl rfl | with_reducible rfl | with_reducible apply Fr.ite | with_reducible apply rimAnswer_frame | with_reducible apply send_frame | (simp only [Fr.mk_eq]; with_reducible apply FrF.upd) | with_reducible exact Sub.of (by assumption) (by decide) | split))

theorem rimIssueAll_frame (a0 : List RimReq) (a1 : List Nat) (a2 : List RimReq) {s0 t : State} {E : Nat} (h : Fr E s0 t) (hE : Sub 0x100001 E := by exact Sub.of (by assumption) (by decide)) :
    Fr E s0 (rimIssueAll a0 a1 a2 t) := by
  induction a0 generalizing a1 a2 t with
  | nil =>
    unfold rimIssueAll
    simp only [Fr.mk_eq]
    with_reducible apply FrF.upd
    all_goals first | exact Or.inr (Sub.bit hE (by decide)) | with_reducible exact Or.inl rfl | with_reducible rfl | with_reducible assumption
  | cons x l ih =>
    unfold rimIssueAll
    split
    · exact ih _ _ h
    · split
      · rename_i hs
        exact ih _ _ (rimIssue_frame _ h hs)
      · exact ih _ _ h

theorem nocPump_frame {s0 t : State} {E : Nat} (h : Fr E s0 t) (hE : Sub 0x100001 E := by exact Sub.of (by assumption) (by decide)) :
    Fr E s0 (nocPump t) := by
  unfold nocPump
  (try dsimp only)
  repeat' (first | with_reducible assumption | with_reducible exact Or.inr (Sub.bit (by assumption) (by decide)) | with_reducible exact Or.inl rfl | with_reducible rfl | with_reducible apply rimAnswer_frame | with_reducible apply rimIssueAll_frame | (simp only [Fr.mk_eq]; with_reducible apply FrF.upd) | with_reducible apply Fr.foldl | (intro _ _ _) | (intro _ _) | with_reducible exact Sub.of (by assumption) (by decide))

theorem rtFlip_frame {s0 t : State} {E : Nat} (h : Fr E s0 t) (hE : Sub 0x20000090 E := by exact Sub.of (by assumption) (by decide)) :
    Fr E s0 (rtFlip t) := by
  unfold rtFlip
  (try dsimp only)
  repeat' (first | with_reducible assumption | with_reducible apply Fr.ite | with_reducible apply State.fset_frame | with_reducible apply State.freshNat_frame | with_reducible apply State.raise_frame | with_reducible exact Sub.of (by assumption) (by decide) | with_reducible exact Sub.bit (by assumption) (by decide) | split)

theorem writeNocReg_frame (o : Nat) (a : Nat) (r : RRow) (w : Word) {s0 t : State} {E : Nat} (h : Fr E s0 t) (hE : Sub 0xfffe100091 E := by exact Sub.of (by assumption) (by decide)) :
    Fr E s0 (writeNocReg o a r w t) := by
  unfold writeNocReg
  (try dsimp only)
  repeat' (first | with_reducible assumption | with_reducible apply Fr.ite | with_reducible apply nocAgree_frame | with_reducible apply State.fset_frame | with_reducible apply nocPump_frame | with_reducible apply rtFlip_frame | with_reducible apply plainWrite_frame | with_reducible exact Sub.of (by assumption) (by decide) | with_reducible exact Sub.bit (by assumption) (by decide) | split)

theorem seqStopat_frame {s0 t : State} {E : Nat} (h : Fr E s0 t) (hE : Sub 0x40000080 E := by exact Sub.of (by assumption) (by decide)) :
    Fr E s0 (seqStopat t) := by
  unfold seqStopat
  (try dsimp only)
  repeat' (first | with_reducible assumption | with_reducible apply stopatCheck_frame | with_reducible apply State.fset_frame | with_reducible exact Sub.of (by assumption) (by decide) | with_reducible exact Sub.bit (by assumption) (by decide))

theorem sigEpoch_frame (bit : Nat) {s0 t : State} {E : Nat} (h : Fr E s0 t) (hE : Sub 0x40000 E := by exact Sub.of (by assumption) (by decide)) :
    Fr E s0 (sigEpoch bit t) := by
  unfold sigEpoch
  (try dsimp only)
  repeat' (first | with_reducible assumption | with_reducible apply Fr.ite | with_reducible apply State.modSig_frame | with_reducible exact Sub.of (by assumption) (by decide) | split)

theorem latchTokens_frame {s0 t : State} {E : Nat} (h : Fr E s0 t) (hE : Sub 0x840000 E := by exact Sub.of (by assumption) (by decide)) :
    Fr E s0 (latchTokens t) := by
  unfold latchTokens
  (try dsimp only)
  repeat' (first | with_reducible assumption | with_reducible exact Or.inr (Sub.bit (by assumption) (by decide)) | with_reducible exact Or.inl rfl | with_reducible rfl | with_reducible apply Fr.ite | with_reducible apply sigEpoch_frame | (simp only [Fr.mk_eq]; with_reducible apply FrF.upd) | with_reducible exact Sub.of (by assumption) (by decide) | split)

theorem seqGo_frame (bits : Nat) {s0 t : State} {E : Nat} (h : Fr E s0 t) (hE : Sub 0x40840280 E := by exact Sub.of (by assumption) (by decide)) :
    Fr E s0 (seqGo bits t) := by
  unfold seqGo
  (try dsimp only)
  repeat' (first | with_reducible assumption | with_reducible exact Or.inr (Sub.bit (by assumption) (by decide)) | with_reducible exact Or.inl rfl | with_reducible rfl | with_reducible apply Fr.ite | with_reducible apply State.raise_frame | with_reducible apply stopatCheck_frame | with_reducible apply latchTokens_frame | with_reducible apply ellipsisBegin_frame | (simp only [Fr.mk_eq]; with_reducible apply FrF.upd) | (refine State.runRefused_frame  ?_ (by assumption) ?_) | with_reducible exact Sub.of (by assumption) (by decide) | with_reducible exact Sub.bit (by assumption) (by decide) | split)

theorem seqStopWrite_frame {s0 t : State} {E : Nat} (h : Fr E s0 t) (hE : Sub 0x4200 E := by exact Sub.of (by assumption) (by decide)) :
    Fr E s0 (seqStopWrite t) := by
  unfold seqStopWrite
  (try dsimp only)
  repeat' (first | with_reducible assumption | with_reducible apply stopRequest_frame | with_reducible exact Sub.of (by assumption) (by decide))

theorem seqCtl_frame (en : Option Bool) (w : Word) {s0 t : State} {E : Nat} (h : Fr E s0 t) (hE : Sub 0x40844280 E := by exact Sub.of (by assumption) (by decide)) :
    Fr E s0 (seqCtl en w t) := by
  unfold seqCtl
  (try dsimp only)
  repeat' (first | with_reducible assumption | with_reducible apply Fr.ite | with_reducible apply seqStopat_frame | with_reducible apply State.fset_frame | with_reducible apply seqGo_frame | with_reducible apply seqStopWrite_frame | with_reducible exact Sub.of (by assumption) (by decide) | with_reducible exact Sub.bit (by assumption) (by decide) | split)

theorem writeSeqReg_frame (o : Nat) (a : Nat) (r : RRow) (w : Word) {s0 t : State} {E : Nat} (h : Fr E s0 t) (hE : Sub 0xfffe844280 E := by exact Sub.of (by assumption) (by decide)) :
    Fr E s0 (writeSeqReg o a r w t) := by
  unfold writeSeqReg
  (try dsimp only)
  repeat' (first | with_reducible assumption | with_reducible apply Fr.ite | with_reducible apply seqCtl_frame | with_reducible apply plainWrite_frame | with_reducible exact Sub.of (by assumption) (by decide) | split)

theorem paramWrote_frame (req : Requester) {s0 t : State} {E : Nat} (h : Fr E s0 t) (hE : Sub 0x21000 E := by exact Sub.of (by assumption) (by decide)) :
    Fr E s0 (paramWrote req t) := by
  unfold paramWrote
  (try dsimp only)
  repeat' (first | with_reducible assumption | with_reducible exact Or.inr (Sub.bit (by assumption) (by decide)) | with_reducible exact Or.inl rfl | with_reducible rfl | (simp only [Fr.mk_eq]; with_reducible apply FrF.upd) | split)

theorem schParamPost_frame {s0 t : State} {E : Nat} (h : Fr E s0 t) (hE : Sub 0x80001080 E := by exact Sub.of (by assumption) (by decide)) :
    Fr E s0 (schParamPost t) := by
  unfold schParamPost
  (try dsimp only)
  repeat' (first | with_reducible assumption | with_reducible exact Or.inr (Sub.bit (by assumption) (by decide)) | with_reducible exact Or.inl rfl | with_reducible rfl | with_reducible apply State.raise_frame | (simp only [Fr.mk_eq]; with_reducible apply FrF.upd) | with_reducible exact Sub.of (by assumption) (by decide) | with_reducible exact Sub.bit (by assumption) (by decide))

theorem dictWrite_frame (c : Nat) (e : Nat) (v : Word) {s0 t : State} {E : Nat} (h : Fr E s0 t) (hE : Sub 0x400 E := by exact Sub.of (by assumption) (by decide)) :
    Fr E s0 (dictWrite c e v t) := by
  unfold dictWrite
  (try dsimp only)
  repeat' (first | with_reducible assumption | with_reducible apply State.modClause_frame | with_reducible exact Sub.of (by assumption) (by decide))

theorem patchSwap_frame {s0 t : State} {E : Nat} (h : Fr E s0 t) (hE : Sub 0x80041400 E := by exact Sub.of (by assumption) (by decide)) :
    Fr E s0 (patchSwap t) := by
  unfold patchSwap
  refine sigEpoch_frame _ (Fr.foldl (fun u k hu => ?_) h)
  dsimp only
  by_cases h3 : puMode (u.puAddr k) = 3
  · simp only [if_pos h3]
    have g := State.fset_frame (F.SCH_PU_MODE k) 0 (dictWrite_frame (puClause (u.puAddr k)) (puIndex (u.puAddr k)) (BitVec.setWidth 32 (kvGet 0#128 u.sch.stgW k)) hu)
      (by rw [F.SCH_PU_MODE_block]; exact Sub.bit hE (by decide))
    simp only [Fr.mk_eq]
    with_reducible apply FrF.upd
    all_goals first | exact Or.inr (Sub.bit hE (by decide)) | with_reducible exact Or.inl rfl | with_reducible rfl | with_reducible assumption
  · simp only [if_neg h3]
    simp only [Fr.mk_eq]
    with_reducible apply FrF.upd
    all_goals first | exact Or.inr (Sub.bit hE (by decide)) | with_reducible exact Or.inl rfl | with_reducible rfl | with_reducible assumption

theorem patchReport_frame (result : Nat) (reason : Nat) (unit : Nat) (step : List Nat) {s0 t : State} {E : Nat} (h : Fr E s0 t) (hE : Sub 0x80001080 E := by exact Sub.of (by assumption) (by decide)) :
    Fr E s0 (patchReport result reason unit step t) := by
  unfold patchReport
  (try dsimp only)
  repeat' (first | with_reducible assumption | with_reducible exact Or.inr (Sub.bit (by assumption) (by decide)) | with_reducible exact Or.inl rfl | with_reducible rfl | with_reducible apply State.raise_frame | with_reducible apply State.fset_frame | (simp only [Fr.mk_eq]; with_reducible apply FrF.upd) | with_reducible exact Sub.of (by assumption) (by decide) | with_reducible exact Sub.bit (by assumption) (by decide))

theorem patchFinish_frame (loadTime : Bool) {s0 t : State} {E : Nat} (h : Fr E s0 t) (hE : Sub 0x80041490 E := by exact Sub.of (by assumption) (by decide)) :
    Fr E s0 (patchFinish loadTime t) := by
  unfold patchFinish
  (try dsimp only)
  repeat' (first | with_reducible assumption | with_reducible apply Fr.ite | with_reducible apply State.freshNat_frame | with_reducible apply patchSwap_frame | with_reducible apply patchReport_frame | with_reducible apply State.fresh64_frame | with_reducible exact Sub.of (by assumption) (by decide) | split)

theorem patchNow_frame {s0 t : State} {E : Nat} (h : Fr E s0 t) (hE : Sub 0x80041490 E := by exact Sub.of (by assumption) (by decide)) :
    Fr E s0 (patchNow t) := by
  unfold patchNow
  (try dsimp only)
  repeat' (first | with_reducible assumption | with_reducible apply Fr.ite | with_reducible apply patchFinish_frame | with_reducible exact Sub.of (by assumption) (by decide) | split)

theorem patchApply_frame {s0 t : State} {E : Nat} (h : Fr E s0 t) (hE : Sub 0x80041490 E := by exact Sub.of (by assumption) (by decide)) :
    Fr E s0 (patchApply t) := by
  unfold patchApply
  (try dsimp only)
  repeat' (first | with_reducible assumption | with_reducible exact Or.inr (Sub.bit (by assumption) (by decide)) | with_reducible exact Or.inl rfl | with_reducible rfl | with_reducible apply Fr.ite | with_reducible apply State.freshNat_frame | with_reducible apply State.fresh64_frame | with_reducible apply State.raise_frame | with_reducible apply State.fset_frame | with_reducible apply patchNow_frame | (simp only [Fr.mk_eq]; with_reducible apply FrF.upd) | with_reducible exact Sub.of (by assumption) (by decide) | with_reducible exact Sub.bit (by assumption) (by decide) | split)

theorem bootOk_frame {s0 t : State} {E : Nat} (h : Fr E s0 t) (hE : Sub 0x80400090 E := by exact Sub.of (by assumption) (by decide)) :
    Fr E s0 (bootOk t) := by
  unfold bootOk
  (try dsimp only)
  repeat' (first | with_reducible assumption | with_reducible exact Or.inr (Sub.bit (by assumption) (by decide)) | with_reducible exact Or.inl rfl | with_reducible rfl | with_reducible apply Fr.ite | with_reducible apply State.fset_frame | with_reducible apply State.freshNat_frame | with_reducible apply State.raise_frame | (simp only [Fr.mk_eq]; with_reducible apply FrF.upd) | with_reducible exact Sub.of (by assumption) (by decide) | with_reducible exact Sub.bit (by assumption) (by decide) | split)

theorem setSchMark_frame (c : Nat) (row : Nat) (word : Nat) (m : Nat) {s0 t : State} {E : Nat} (h : Fr E s0 t) (hE : Sub 0x400 E := by exact Sub.of (by assumption) (by decide)) :
    Fr E s0 (setSchMark c row word m t) := by
  unfold setSchMark
  (try dsimp only)
  repeat' (first | with_reducible assumption | with_reducible apply State.modClause_frame | with_reducible exact Sub.of (by assumption) (by decide))

theorem schCorrected_frame (c : Nat) (row : Nat) (word : Nat) (byScrub : Bool) {s0 t : State} {E : Nat} (h : Fr E s0 t) (hE : Sub 0x80400480 E := by exact Sub.of (by assumption) (by decide)) :
    Fr E s0 (schCorrected c row word byScrub t) := by
  unfold schCorrected
  (try dsimp only)
  repeat' (first | with_reducible assumption | with_reducible apply Fr.ite | with_reducible apply State.modClause_frame | with_reducible apply State.count_frame | with_reducible apply State.raise_frame | with_reducible apply sparingSeen_frame | with_reducible exact Sub.of (by assumption) (by decide) | with_reducible exact Sub.bit (by assumption) (by decide) | split)

theorem rmapCopy_frame (c : Nat) (row : Nat) {s0 t : State} {E : Nat} (h : Fr E s0 t) (hE : Sub 0x80400490 E := by exact Sub.of (by assumption) (by decide)) :
    Fr E s0 (rmapCopy c row t) := by
  unfold rmapCopy
  (try dsimp only)
  repeat' (first | with_reducible assumption | with_reducible apply Fr.ite | with_reducible apply State.freshNat_frame | with_reducible apply State.raise_frame | with_reducible apply State.modClause_frame | with_reducible apply setSchMark_frame | with_reducible apply schCorrected_frame | with_reducible apply Fr.foldl | (intro _ _ _) | (intro _ _) | with_reducible exact Sub.of (by assumption) (by decide) | with_reducible exact Sub.bit (by assumption) (by decide) | split)

theorem putLocation_frame (c : Nat) (row : Nat) (word : Nat) (v : QWord) {s0 t : State} {E : Nat} (h : Fr E s0 t) (hE : Sub 0x400 E := by exact Sub.of (by assumption) (by decide)) :
    Fr E s0 (putLocation c row word v t) := by
  unfold putLocation
  (try dsimp only)
  repeat' (first | with_reducible assumption | with_reducible apply Fr.ite | with_reducible apply State.modClause_frame | with_reducible apply Fr.foldl | (intro _ _ _) | (intro _ _) | with_reducible exact Sub.of (by assumption) (by decide) | split)

theorem copyAsRead_frame (c : Nat) (row : Nat) (word : Nat) {s0 t : State} {E : Nat} (h : Fr E s0 t) (hE : Sub 0x410 E := by exact Sub.of (by assumption) (by decide)) :
    Fr E s0 (copyAsRead c row word t) := by
  unfold copyAsRead
  (try dsimp only)
  repeat' (first | with_reducible assumption | with_reducible apply State.fresh_frame | with_reducible apply setSchMark_frame | with_reducible apply putLocation_frame | with_reducible exact Sub.of (by assumption) (by decide))

theorem rmapEnd_frame (mismatches : Nat) {s0 t : State} {E : Nat} (h : Fr E s0 t) (hE : Sub 0x80401490 E := by exact Sub.of (by assumption) (by decide)) :
    Fr E s0 (rmapEnd mismatches t) := by
  unfold rmapEnd
  (try dsimp only)
  repeat' (first | with_reducible assumption | with_reducible exact Or.inr (Sub.bit (by assumption) (by decide)) | with_reducible exact Or.inl rfl | with_reducible rfl | with_reducible apply Fr.ite | with_reducible apply rmapCopy_frame | with_reducible apply State.fset_frame | with_reducible apply State.pick_frame | with_reducible apply rmapReport_frame | with_reducible apply copyAsRead_frame | with_reducible apply State.modClause_frame | (simp only [Fr.mk_eq]; with_reducible apply FrF.upd) | with_reducible apply Fr.foldl | (intro _ _ _) | (intro _ _) | with_reducible exact Sub.of (by assumption) (by decide) | with_reducible exact Sub.bit (by assumption) (by decide) | split)

theorem lretEnd_frame (mismatches : Nat) {s0 t : State} {E : Nat} (h : Fr E s0 t) (hE : Sub 0x800402080 E := by exact Sub.of (by assumption) (by decide)) :
    Fr E s0 (lretEnd mismatches t) := by
  unfold lretEnd
  (try dsimp only)
  repeat' (first | with_reducible assumption | with_reducible exact Or.inr (Sub.bit (by assumption) (by decide)) | with_reducible exact Or.inl rfl | with_reducible rfl | with_reducible apply Fr.ite | with_reducible apply memCe_frame | with_reducible apply State.fset_frame | with_reducible apply lretReport_frame | (simp only [Fr.mk_eq]; with_reducible apply FrF.upd) | with_reducible exact Sub.of (by assumption) (by decide) | with_reducible exact Sub.bit (by assumption) (by decide) | split)

theorem copyPage_frame (from_ : Nat) (to_ : Nat) {s0 t : State} {E : Nat} (h : Fr E s0 t) (hE : Sub 0x2020 E := by exact Sub.of (by assumption) (by decide)) :
    Fr E s0 (copyPage from_ to_ t) := by
  unfold copyPage
  (try dsimp only)
  repeat' (first | with_reducible assumption | with_reducible exact Or.inr (Sub.bit (by assumption) (by decide)) | with_reducible exact Or.inl rfl | with_reducible rfl | (simp only [Fr.mk_eq]; with_reducible apply FrF.upd) | with_reducible apply Fr.foldl | (intro _ _ _) | (intro _ _))

theorem hretEnd_frame (mismatches : Nat) {s0 t : State} {E : Nat} (h : Fr E s0 t) (hE : Sub 0x8004020a0 E := by exact Sub.of (by assumption) (by decide)) :
    Fr E s0 (hretEnd mismatches t) := by
  unfold hretEnd
  (try dsimp only)
  repeat' (first | with_reducible assumption | with_reducible exact Or.inr (Sub.bit (by assumption) (by decide)) | with_reducible exact Or.inl rfl | with_reducible rfl | with_reducible apply Fr.ite | with_reducible apply memCe_frame | with_reducible apply State.fset_frame | with_reducible apply hretReport_frame | with_reducible apply copyPage_frame | (simp only [Fr.mk_eq]; with_reducible apply FrF.upd) | with_reducible apply Fr.foldl | (intro _ _ _) | (intro _ _) | with_reducible exact Sub.of (by assumption) (by decide) | with_reducible exact Sub.bit (by assumption) (by decide) | split)

theorem reapply_frame (b : List Byte) {s0 t : State} {E : Nat} (h : Fr E s0 t) (hE : Sub 0x980403cb0 E := by exact Sub.of (by assumption) (by decide)) :
    Fr E s0 (reapply t b) := by
  unfold reapply
  (try dsimp only)
  repeat' (first | with_reducible assumption | with_reducible apply Fr.ite | with_reducible apply spareGo_frame | with_reducible apply rmapEnd_frame | with_reducible apply rmapGo_frame | with_reducible apply State.modConn_frame | with_reducible apply lretEnd_frame | with_reducible apply lretGo_frame | with_reducible apply hretEnd_frame | with_reducible apply hretGo_frame | with_reducible apply State.fset_frame | with_reducible exact Sub.of (by assumption) (by decide) | with_reducible exact Sub.bit (by assumption) (by decide) | split)

theorem bootConfirm_frame {s0 t : State} {E : Nat} (h : Fr E s0 t) (hE : Sub 0x982403cb0 E := by exact Sub.of (by assumption) (by decide)) :
    Fr E s0 (bootConfirm t) := by
  unfold bootConfirm
  (try dsimp only)
  repeat' (first | with_reducible assumption | with_reducible apply Fr.ite | with_reducible apply bootOk_frame | with_reducible apply State.raise_frame | with_reducible apply reapply_frame | with_reducible apply Fr.foldl | (intro _ _ _) | (intro _ _) | with_reducible exact Sub.of (by assumption) (by decide) | with_reducible exact Sub.bit (by assumption) (by decide) | split)

theorem writeSchReg_frame (req : Requester) (o : Nat) (a : Nat) (r : RRow) (w : Word) {s0 t : State} {E : Nat} (h : Fr E s0 t) (hE : Sub 0xfffe463cb0 E := by exact Sub.of (by assumption) (by decide)) :
    Fr E s0 (writeSchReg req o a r w t) := by
  unfold writeSchReg
  (try dsimp only)
  repeat' (first | with_reducible assumption | with_reducible apply Fr.ite | with_reducible apply paramWrote_frame | with_reducible apply State.fset_frame | with_reducible apply plainWrite_frame | with_reducible apply schParamPost_frame | with_reducible apply rmapGo_frame | with_reducible apply patchApply_frame | with_reducible apply bootConfirm_frame | with_reducible exact Sub.of (by assumption) (by decide) | with_reducible exact Sub.bit (by assumption) (by decide) | split)

theorem writeClsReg_frame (c : Nat) (o : Nat) (a : Nat) (r : RRow) (w : Word) {s0 t : State} {E : Nat} (h : Fr E s0 t) (hE : Sub 0xfffe000480 E := by exact Sub.of (by assumption) (by decide)) :
    Fr E s0 (writeClsReg c o a r w t) := by
  unfold writeClsReg
  (try dsimp only)
  repeat' (first | with_reducible assumption | with_reducible apply Fr.ite | with_reducible apply spareGo_frame | with_reducible apply plainWrite_frame | with_reducible exact Sub.of (by assumption) (by decide) | split)

theorem isoApply_frame {s0 t : State} {E : Nat} (h : Fr E s0 t) (hE : Sub 0x200000c80 E := by exact Sub.of (by assumption) (by decide)) :
    Fr E s0 (isoApply t) := by
  unfold isoApply
  (try dsimp only)
  repeat' (first | with_reducible assumption | with_reducible exact Or.inr (Sub.bit (by assumption) (by decide)) | with_reducible exact Or.inl rfl | with_reducible rfl | with_reducible apply Fr.ite | with_reducible apply State.modClause_frame | with_reducible apply State.fset_frame | with_reducible apply State.raise_frame | (simp only [Fr.mk_eq]; with_reducible apply FrF.upd) | with_reducible exact Sub.of (by assumption) (by decide) | with_reducible exact Sub.bit (by assumption) (by decide) | split)

theorem isoWrite_frame (iso : Bool) (rel : Bool) (xinj : Bool) (c : Nat) {s0 t : State} {E : Nat} (h : Fr E s0 t) (hE : Sub 0x200000c80 E := by exact Sub.of (by assumption) (by decide)) :
    Fr E s0 (isoWrite iso rel xinj c t) := by
  unfold isoWrite
  (try dsimp only)
  repeat' (first | with_reducible assumption | with_reducible exact Or.inr (Sub.bit (by assumption) (by decide)) | with_reducible exact Or.inl rfl | with_reducible rfl | with_reducible apply Fr.ite | with_reducible apply isoApply_frame | with_reducible apply State.fset_frame | with_reducible apply State.raise_frame | (simp only [Fr.mk_eq]; with_reducible apply FrF.upd) | with_reducible exact Sub.of (by assumption) (by decide) | with_reducible exact Sub.bit (by assumption) (by decide) | split)

theorem writeFabReg_frame (o : Nat) (a : Nat) (r : RRow) (w : Word) {s0 t : State} {E : Nat} (h : Fr E s0 t) (hE : Sub 0xfffe000c90 E := by exact Sub.of (by assumption) (by decide)) :
    Fr E s0 (writeFabReg o a r w t) := by
  unfold writeFabReg
  (try dsimp only)
  repeat' (first | with_reducible assumption | with_reducible apply Fr.ite | with_reducible apply fabAgree_frame | with_reducible apply isoWrite_frame | with_reducible apply plainWrite_frame | with_reducible exact Sub.of (by assumption) (by decide) | split)

theorem linkTo_frame (st : LnkState) (l : Nat) {s0 t : State} {E : Nat} (h : Fr E s0 t) (hE : Sub 0x4000 E := by exact Sub.of (by assumption) (by decide)) :
    Fr E s0 (linkTo st l t) := by
  unfold linkTo
  (try dsimp only)
  repeat' (first | with_reducible assumption | with_reducible apply State.modLink_frame | with_reducible exact Sub.of (by assumption) (by decide))

theorem linkTrain_frame (l : Nat) {s0 t : State} {E : Nat} (h : Fr E s0 t) (hE : Sub 0x4000 E := by exact Sub.of (by assumption) (by decide)) :
    Fr E s0 (linkTrain l t) := by
  unfold linkTrain
  (try dsimp only)
  repeat' (first | with_reducible assumption | with_reducible apply State.modLink_frame | with_reducible apply linkTo_frame | with_reducible exact Sub.of (by assumption) (by decide))

theorem linkEnable_frame (l : Nat) {s0 t : State} {E : Nat} (h : Fr E s0 t) (hE : Sub 0x400004000 E := by exact Sub.of (by assumption) (by decide)) :
    Fr E s0 (linkEnable l t) := by
  unfold linkEnable
  (try dsimp only)
  repeat' (first | with_reducible assumption | with_reducible apply Fr.ite | with_reducible apply State.fset_frame | with_reducible apply linkTrain_frame | with_reducible exact Sub.of (by assumption) (by decide) | with_reducible exact Sub.bit (by assumption) (by decide) | (rw [F.LNK_CTL_EN_block]; exact Sub.bit (by assumption) (by decide)) | split)

theorem linkDisable_frame (l : Nat) {s0 t : State} {E : Nat} (h : Fr E s0 t) (hE : Sub 0x400004000 E := by exact Sub.of (by assumption) (by decide)) :
    Fr E s0 (linkDisable l t) := by
  unfold linkDisable
  (try dsimp only)
  repeat' (first | with_reducible assumption | with_reducible apply linkOff_frame | with_reducible apply State.fset_frame | with_reducible exact Sub.of (by assumption) (by decide) | with_reducible exact Sub.bit (by assumption) (by decide) | (rw [F.LNK_CTL_EN_block]; exact Sub.bit (by assumption) (by decide)))

theorem writeLnkReg_frame (l : Nat) (o : Nat) (a : Nat) (r : RRow) (w : Word) {s0 t : State} {E : Nat} (h : Fr E s0 t) (hE : Sub 0xfffe004080 E := by exact Sub.of (by assumption) (by decide)) :
    Fr E s0 (writeLnkReg l o a r w t) := by
  unfold writeLnkReg
  (try dsimp only)
  repeat' (first | with_reducible assumption | with_reducible apply Fr.ite | with_reducible apply State.fset_frame | with_reducible apply linkEnable_frame | with_reducible apply linkDisable_frame | with_reducible apply lnkSpareGo_frame | with_reducible apply plainWrite_frame | with_reducible exact Sub.of (by assumption) (by decide) | with_reducible exact Sub.bit (by assumption) (by decide) | (rw [F.LNK_CTL_AUTOSPARE_block]; exact Sub.bit (by assumption) (by decide)) | (rw [F.LNK_CTL_MODE_block]; exact Sub.bit (by assumption) (by decide)) | split)

theorem devnumStart_frame {s0 t : State} {E : Nat} (h : Fr E s0 t) (hE : Sub 0x400008000 E := by exact Sub.of (by assumption) (by decide)) :
    Fr E s0 (devnumStart t) := by
  unfold devnumStart
  (try dsimp only)
  repeat' (first | with_reducible assumption | with_reducible exact Or.inr (Sub.bit (by assumption) (by decide)) | with_reducible exact Or.inl rfl | with_reducible rfl | with_reducible apply State.fset_frame | (simp only [Fr.mk_eq]; with_reducible apply FrF.upd) | with_reducible exact Sub.of (by assumption) (by decide) | with_reducible exact Sub.bit (by assumption) (by decide))

theorem devnumWrite_frame (w : Word) {s0 t : State} {E : Nat} (h : Fr E s0 t) (hE : Sub 0x400008000 E := by exact Sub.of (by assumption) (by decide)) :
    Fr E s0 (devnumWrite w t) := by
  unfold devnumWrite
  (try dsimp only)
  repeat' (first | with_reducible assumption | with_reducible exact Or.inr (Sub.bit (by assumption) (by decide)) | with_reducible exact Or.inl rfl | with_reducible rfl | with_reducible apply Fr.ite | with_reducible apply State.fset_frame | with_reducible apply devnumStart_frame | (simp only [Fr.mk_eq]; with_reducible apply FrF.upd) | with_reducible exact Sub.of (by assumption) (by decide) | with_reducible exact Sub.bit (by assumption) (by decide) | split)

theorem calStart_frame (mask : Nat) (go : Bool) {s0 t : State} {E : Nat} (h : Fr E s0 t) (hE : Sub 0x801000000 E := by exact Sub.of (by assumption) (by decide)) :
    Fr E s0 (calStart mask go t) := by
  unfold calStart
  (try dsimp only)
  repeat' (first | with_reducible assumption | with_reducible exact Or.inr (Sub.bit (by assumption) (by decide)) | with_reducible exact Or.inl rfl | with_reducible rfl | with_reducible apply Fr.ite | with_reducible apply State.fset_frame | (simp only [Fr.mk_eq]; with_reducible apply FrF.upd) | with_reducible apply Fr.foldl | (intro _ _ _) | (intro _ _) | with_reducible exact Sub.of (by assumption) (by decide) | with_reducible exact Sub.bit (by assumption) (by decide) | split)

theorem writeMemReg_frame (o : Nat) (a : Nat) (r : RRow) (w : Word) {s0 t : State} {E : Nat} (h : Fr E s0 t) (hE : Sub 0xffff002090 E := by exact Sub.of (by assumption) (by decide)) :
    Fr E s0 (writeMemReg o a r w t) := by
  unfold writeMemReg
  (try dsimp only)
  repeat' (first | with_reducible assumption | with_reducible apply Fr.ite | with_reducible apply State.fset_frame | with_reducible apply lretGo_frame | with_reducible apply plainWrite_frame | with_reducible apply hretGo_frame | with_reducible apply calStart_frame | with_reducible exact Sub.of (by assumption) (by decide) | with_reducible exact Sub.bit (by assumption) (by decide) | split)

theorem rimParamPost_frame {s0 t : State} {E : Nat} (h : Fr E s0 t) (hE : Sub 0x1000020080 E := by exact Sub.of (by assumption) (by decide)) :
    Fr E s0 (rimParamPost t) := by
  unfold rimParamPost
  (try dsimp only)
  repeat' (first | with_reducible assumption | with_reducible exact Or.inr (Sub.bit (by assumption) (by decide)) | with_reducible exact Or.inl rfl | with_reducible rfl | with_reducible apply State.raise_frame | (simp only [Fr.mk_eq]; with_reducible apply FrF.upd) | with_reducible exact Sub.of (by assumption) (by decide) | with_reducible exact Sub.bit (by assumption) (by decide))

theorem prcReport_frame (r : Nat) (what : Nat) (result : Nat) {s0 t : State} {E : Nat} (h : Fr E s0 t) (hE : Sub 0x1000000080 E := by exact Sub.of (by assumption) (by decide)) :
    Fr E s0 (prcReport r what result t) := by
  unfold prcReport
  (try dsimp only)
  repeat' (first | with_reducible assumption | with_reducible apply State.raise_frame | with_reducible apply State.fset_frame | with_reducible exact Sub.of (by assumption) (by decide) | with_reducible exact Sub.bit (by assumption) (by decide))

theorem prcBoth_frame (r : Nat) {s0 t : State} {E : Nat} (h : Fr E s0 t) (hE : Sub 0x1000000090 E := by exact Sub.of (by assumption) (by decide)) :
    Fr E s0 (prcBoth r t) := by
  unfold prcBoth
  (try dsimp only)
  repeat' (first | with_reducible assumption | with_reducible apply State.fset_frame | with_reducible apply prcReport_frame | with_reducible apply State.freshNat_frame | with_reducible exact Sub.of (by assumption) (by decide) | with_reducible exact Sub.bit (by assumption) (by decide))

theorem regionTo_frame (r : Nat) (st : RegionState) {s0 t : State} {E : Nat} (h : Fr E s0 t) (hE : Sub 0x20000 E := by exact Sub.of (by assumption) (by decide)) :
    Fr E s0 (regionTo r st t) := by
  unfold regionTo
  (try dsimp only)
  repeat' (first | with_reducible assumption | with_reducible exact Or.inr (Sub.bit (by assumption) (by decide)) | with_reducible exact Or.inl rfl | with_reducible rfl | (simp only [Fr.mk_eq]; with_reducible apply FrF.upd))

theorem regionFence_frame (r : Nat) {s0 t : State} {E : Nat} (h : Fr E s0 t) (hE : Sub 0x20000 E := by exact Sub.of (by assumption) (by decide)) :
    Fr E s0 (regionFence r t) := by
  unfold regionFence
  (try dsimp only)
  repeat' (first | with_reducible assumption | with_reducible exact Or.inr (Sub.bit (by assumption) (by decide)) | with_reducible exact Or.inl rfl | with_reducible rfl | with_reducible apply regionTo_frame | (simp only [Fr.mk_eq]; with_reducible apply FrF.upd) | with_reducible exact Sub.of (by assumption) (by decide))

theorem rimFence_frame (r : Nat) {s0 t : State} {E : Nat} (h : Fr E s0 t) (hE : Sub 0x1000020080 E := by exact Sub.of (by assumption) (by decide)) :
    Fr E s0 (rimFence r t) := by
  unfold rimFence
  (try dsimp only)
  repeat' (first | with_reducible assumption | with_reducible apply Fr.ite | with_reducible apply State.fset_frame | with_reducible apply prcReport_frame | with_reducible apply regionFence_frame | with_reducible exact Sub.of (by assumption) (by decide) | with_reducible exact Sub.bit (by assumption) (by decide) | split)

theorem safeReport_frame (r : Nat) {s0 t : State} {E : Nat} (h : Fr E s0 t) (hE : Sub 0x1000020080 E := by exact Sub.of (by assumption) (by decide)) :
    Fr E s0 (safeReport r t) := by
  unfold safeReport
  (try dsimp only)
  repeat' (first | with_reducible assumption | with_reducible apply State.raise_frame | with_reducible apply State.modGroup_frame | with_reducible apply Fr.foldl | (intro _ _ _) | (intro _ _) | with_reducible exact Sub.of (by assumption) (by decide) | with_reducible exact Sub.bit (by assumption) (by decide) | split)

theorem rimRelease_frame (r : Nat) {s0 t : State} {E : Nat} (h : Fr E s0 t) (hE : Sub 0x1000020080 E := by exact Sub.of (by assumption) (by decide)) :
    Fr E s0 (rimRelease r t) := by
  unfold rimRelease
  (try dsimp only)
  repeat' (first | with_reducible assumption | with_reducible apply Fr.ite | with_reducible apply State.fset_frame | with_reducible apply prcReport_frame | with_reducible apply safeReport_frame | with_reducible apply regionTo_frame | with_reducible exact Sub.of (by assumption) (by decide) | with_reducible exact Sub.bit (by assumption) (by decide) | split)

theorem rimIoRaise_frame (k : Nat) (payload : List Nat) {s0 t : State} {E : Nat} (h : Fr E s0 t) (hE : Sub 0x1000000080 E := by exact Sub.of (by assumption) (by decide)) :
    Fr E s0 (rimIoRaise k payload t) := by
  unfold rimIoRaise
  (try dsimp only)
  repeat' (first | with_reducible assumption | with_reducible exact Or.inr (Sub.bit (by assumption) (by decide)) | with_reducible exact Or.inl rfl | with_reducible rfl | with_reducible apply Fr.ite | with_reducible apply State.fset_frame | (simp only [Fr.mk_eq]; with_reducible apply FrF.upd) | with_reducible exact Sub.of (by assumption) (by decide) | with_reducible exact Sub.bit (by assumption) (by decide) | split)

theorem bankReport_frame (b : Nat) (what : Nat) (result : Nat) {s0 t : State} {E : Nat} (h : Fr E s0 t) (hE : Sub 0x1000000080 E := by exact Sub.of (by assumption) (by decide)) :
    Fr E s0 (bankReport b what result t) := by
  unfold bankReport
  (try dsimp only)
  repeat' (first | with_reducible assumption | with_reducible apply rimIoRaise_frame | with_reducible apply State.fset_frame | with_reducible exact Sub.of (by assumption) (by decide) | with_reducible exact Sub.bit (by assumption) (by decide) | (rw [F.RIM_IOSTAT_RESULT_block]; exact Sub.bit (by assumption) (by decide)))

theorem rimDis_frame (b : Nat) {s0 t : State} {E : Nat} (h : Fr E s0 t) (hE : Sub 0x1000020080 E := by exact Sub.of (by assumption) (by decide)) :
    Fr E s0 (rimDis b t) := by
  unfold rimDis
  (try dsimp only)
  repeat' (first | with_reducible assumption | with_reducible apply bankReport_frame | with_reducible apply State.modBank_frame | with_reducible exact Sub.of (by assumption) (by decide) | split)

theorem rimRel_frame (b : Nat) (dis : Bool) {s0 t : State} {E : Nat} (h : Fr E s0 t) (hE : Sub 0x1000020080 E := by exact Sub.of (by assumption) (by decide)) :
    Fr E s0 (rimRel b dis t) := by
  unfold rimRel
  (try dsimp only)
  repeat' (first | with_reducible assumption | with_reducible apply Fr.ite | with_reducible apply bankReport_frame | with_reducible apply State.modBank_frame | with_reducible exact Sub.of (by assumption) (by decide) | split)

theorem writeRimReg_frame (req : Requester) (o : Nat) (a : Nat) (r : RRow) (w : Word) {s0 t : State} {E : Nat} (h : Fr E s0 t) (hE : Sub 0xfffe021090 E := by exact Sub.of (by assumption) (by decide)) :
    Fr E s0 (writeRimReg req o a r w t) := by
  unfold writeRimReg
  (try dsimp only)
  repeat' (first | with_reducible assumption | with_reducible apply Fr.ite | with_reducible apply paramWrote_frame | with_reducible apply State.fset_frame | with_reducible apply rimParamPost_frame | with_reducible apply prcBoth_frame | with_reducible apply rimFence_frame | with_reducible apply rimRelease_frame | with_reducible apply plainWrite_frame | with_reducible apply rimDis_frame | with_reducible apply rimRel_frame | with_reducible apply Fr.foldl | (intro _ _ _) | (intro _ _) | with_reducible exact Sub.of (by assumption) (by decide) | with_reducible exact Sub.bit (by assumption) (by decide) | split)

theorem modeBusy_frame (stream : Nat) {s0 t : State} {E : Nat} (h : Fr E s0 t) (hE : Sub 0x2000000080 E := by exact Sub.of (by assumption) (by decide)) :
    Fr E s0 (modeBusy stream t) := by
  unfold modeBusy
  (try dsimp only)
  repeat' (first | with_reducible assumption | with_reducible apply State.raise_frame | with_reducible exact Sub.of (by assumption) (by decide) | with_reducible exact Sub.bit (by assumption) (by decide))

theorem sigStartReq_frame (cause : Nat) (unit : Nat) {s0 t : State} {E : Nat} (h : Fr E s0 t) (hE : Sub 0x2000040080 E := by exact Sub.of (by assumption) (by decide)) :
    Fr E s0 (sigStartReq cause unit t) := by
  unfold sigStartReq
  (try dsimp only)
  repeat' (first | with_reducible assumption | with_reducible apply Fr.ite | with_reducible apply State.fset_frame | with_reducible apply State.raise_frame | with_reducible apply State.modSig_frame | with_reducible exact Sub.of (by assumption) (by decide) | with_reducible exact Sub.bit (by assumption) (by decide) | split)

theorem sigStopReq_frame (cause : Nat) (unit : Nat) (next : Nat) {s0 t : State} {E : Nat} (h : Fr E s0 t) (hE : Sub 0x2000040000 E := by exact Sub.of (by assumption) (by decide)) :
    Fr E s0 (sigStopReq cause unit next t) := by
  unfold sigStopReq
  (try dsimp only)
  repeat' (first | with_reducible assumption | with_reducible apply Fr.ite | with_reducible apply State.modSig_frame | with_reducible apply State.fset_frame | with_reducible exact Sub.of (by assumption) (by decide) | with_reducible exact Sub.bit (by assumption) (by decide) | split)

theorem tuWerr_frame (u : Nat) {s0 t : State} {E : Nat} (h : Fr E s0 t) (hE : Sub 0x2000000000 E := by exact Sub.of (by assumption) (by decide)) :
    Fr E s0 (tuWerr u t) := by
  unfold tuWerr
  (try dsimp only)
  repeat' (first | with_reducible assumption | with_reducible apply State.fset_frame | with_reducible exact Sub.of (by assumption) (by decide) | with_reducible exact Sub.bit (by assumption) (by decide) | (rw [F.CAP_TUSTAT_WERR_block]; exact Sub.bit (by assumption) (by decide)))

theorem tuCtlFields_frame (u : Nat) (w : Word) {s0 t : State} {E : Nat} (h : Fr E s0 t) (hE : Sub 0x2000000000 E := by exact Sub.of (by assumption) (by decide)) :
    Fr E s0 (tuCtlFields u w t) := by
  unfold tuCtlFields
  (try dsimp only)
  repeat' (first | with_reducible assumption | with_reducible apply State.fset_frame | with_reducible exact Sub.of (by assumption) (by decide) | with_reducible exact Sub.bit (by assumption) (by decide) | (rw [F.CAP_TUCTL_ACT_block]; exact Sub.bit (by assumption) (by decide)) | (rw [F.CAP_TUCTL_COND_block]; exact Sub.bit (by assumption) (by decide)) | (rw [F.CAP_TUCTL_HMODE_block]; exact Sub.bit (by assumption) (by decide)) | (rw [F.CAP_TUCTL_INV_block]; exact Sub.bit (by assumption) (by decide)) | (rw [F.CAP_TUCTL_POL_block]; exact Sub.bit (by assumption) (by decide)) | (rw [F.CAP_TUCTL_XCH_block]; exact Sub.bit (by assumption) (by decide)))

theorem tuEnable_frame (u : Nat) (w : Word) {s0 t : State} {E : Nat} (h : Fr E s0 t) (hE : Sub 0x2000040080 E := by exact Sub.of (by assumption) (by decide)) :
    Fr E s0 (tuEnable u w t) := by
  unfold tuEnable
  (try dsimp only)
  repeat' (first | with_reducible assumption | with_reducible apply Fr.ite | with_reducible apply tuWerr_frame | with_reducible apply tuCtlFields_frame | with_reducible apply State.raise_frame | with_reducible apply State.fset_frame | with_reducible apply State.modUnit_frame | with_reducible exact Sub.of (by assumption) (by decide) | with_reducible exact Sub.bit (by assumption) (by decide) | (rw [F.CAP_TUCTL_EN_block]; exact Sub.bit (by assumption) (by decide)) | (rw [F.CAP_TUSTAT_CFGERR_block]; exact Sub.bit (by assumption) (by decide)) | (rw [F.CAP_TUSTAT_DROP_block]; exact Sub.bit (by assumption) (by decide)) | split)

theorem tuDisable_frame (u : Nat) {s0 t : State} {E : Nat} (h : Fr E s0 t) (hE : Sub 0x2000040000 E := by exact Sub.of (by assumption) (by decide)) :
    Fr E s0 (tuDisable u t) := by
  unfold tuDisable
  (try dsimp only)
  repeat' (first | with_reducible assumption | with_reducible apply State.modUnit_frame | with_reducible apply State.fset_frame | with_reducible exact Sub.of (by assumption) (by decide) | with_reducible exact Sub.bit (by assumption) (by decide) | (rw [F.CAP_TUCTL_EN_block]; exact Sub.bit (by assumption) (by decide)))

theorem tuCtlWrite_frame (u : Nat) (w : Word) {s0 t : State} {E : Nat} (h : Fr E s0 t) (hE : Sub 0x2000040080 E := by exact Sub.of (by assumption) (by decide)) :
    Fr E s0 (tuCtlWrite u w t) := by
  unfold tuCtlWrite
  (try dsimp only)
  repeat' (first | with_reducible assumption | with_reducible apply Fr.ite | with_reducible apply tuEnable_frame | with_reducible apply tuCtlFields_frame | with_reducible apply tuDisable_frame | with_reducible exact Sub.of (by assumption) (by decide) | split)

theorem tuRegWrite_frame (u : Nat) (off : Nat) (w : Word) {s0 t : State} {E : Nat} (h : Fr E s0 t) (hE : Sub 0x2000040080 E := by exact Sub.of (by assumption) (by decide)) :
    Fr E s0 (tuRegWrite u off w t) := by
  unfold tuRegWrite
  (try dsimp only)
  repeat' (first | with_reducible assumption | with_reducible apply Fr.ite | with_reducible apply tuCtlWrite_frame | with_reducible apply tuWerr_frame | with_reducible apply State.fset_frame | with_reducible exact Sub.of (by assumption) (by decide) | with_reducible exact Sub.bit (by assumption) (by decide) | (rw [F.CAP_TUHOLD_HOLD_block]; exact Sub.bit (by assumption) (by decide)) | (rw [F.CAP_TUMAX_MAX_block]; exact Sub.bit (by assumption) (by decide)) | (rw [F.CAP_TUMIN_MIN_block]; exact Sub.bit (by assumption) (by decide)) | (rw [F.CAP_TUSRC_BANK_block]; exact Sub.bit (by assumption) (by decide)) | (rw [F.CAP_TUSRC_KIND_block]; exact Sub.bit (by assumption) (by decide)) | (rw [F.CAP_TUSRC_PIN_block]; exact Sub.bit (by assumption) (by decide)) | (rw [F.CAP_TUSTAT_WERR_block]; exact Sub.bit (by assumption) (by decide)) | (rw [F.CAP_TUTHR_HI_block]; exact Sub.bit (by assumption) (by decide)) | (rw [F.CAP_TUTHR_LO_block]; exact Sub.bit (by assumption) (by decide)) | split)

theorem writeCapReg_frame (o : Nat) (a : Nat) (r : RRow) (w : Word) {s0 t : State} {E : Nat} (h : Fr E s0 t) (hE : Sub 0xfffe4420b0 E := by exact Sub.of (by assumption) (by decide)) :
    Fr E s0 (writeCapReg o a r w t) := by
  unfold writeCapReg
  (try dsimp only)
  repeat' (first | with_reducible assumption | with_reducible apply Fr.ite | with_reducible apply State.fset_frame | with_reducible apply modeBusy_frame | with_reducible apply sigStartReq_frame | with_reducible apply sigStopReq_frame | with_reducible apply mtStartReq_frame | with_reducible apply mtStopReq_frame | with_reducible apply tuRegWrite_frame | with_reducible apply plainWrite_frame | with_reducible exact Sub.of (by assumption) (by decide) | with_reducible exact Sub.bit (by assumption) (by decide) | split)

theorem wref_frame {s0 t : State} {E : Nat} (h : Fr E s0 t) (hE : Sub 0x4000000000 E := by exact Sub.of (by assumption) (by decide)) :
    Fr E s0 (wref t) := by
  unfold wref
  (try dsimp only)
  repeat' (first | with_reducible assumption | with_reducible apply State.fset_frame | with_reducible exact Sub.of (by assumption) (by decide) | with_reducible exact Sub.bit (by assumption) (by decide))

theorem atLevel_frame (req : Requester) (l : Nat) (t1 : State) {s0 t : State} {E : Nat} (ht1 : Fr E s0 t1) (h : Fr E s0 t) (hE : Sub 0x4000000000 E := by exact Sub.of (by assumption) (by decide)) :
    Fr E s0 (atLevel req l t1 t) := by
  unfold atLevel
  (try dsimp only)
  repeat' (first | with_reducible assumption | with_reducible apply Fr.ite | with_reducible apply wref_frame | with_reducible exact Sub.of (by assumption) (by decide) | split)

theorem sleepEnd_frame {s0 t : State} {E : Nat} (h : Fr E s0 t) (hE : Sub 0x2d01066420 E := by exact Sub.of (by assumption) (by decide)) :
    Fr E s0 (sleepEnd t) := by
  unfold sleepEnd
  (try dsimp only)
  repeat' (first | with_reducible assumption | with_reducible exact Or.inr (Sub.bit (by assumption) (by decide)) | with_reducible exact Or.inl rfl | with_reducible rfl | with_reducible apply Fr.ite | with_reducible apply domainLoses_frame | (simp only [Fr.mk_eq]; with_reducible apply FrF.upd) | with_reducible apply Fr.foldl | (intro _ _ _) | (intro _ _) | with_reducible exact Sub.of (by assumption) (by decide) | split)

theorem authReport_frame (p : Path) (level : Nat) (method : Nat) (result : Nat) {s0 t : State} {E : Nat} (h : Fr E s0 t) (hE : Sub 0x4000000080 E := by exact Sub.of (by assumption) (by decide)) :
    Fr E s0 (authReport p level method result t) := by
  unfold authReport
  (try dsimp only)
  repeat' (first | with_reducible assumption | with_reducible apply Fr.ite | with_reducible apply State.fset_frame | with_reducible apply State.raise_frame | with_reducible exact Sub.of (by assumption) (by decide) | with_reducible exact Sub.bit (by assumption) (by decide) | split)

theorem mtWatch_frame (src : Nat) {s0 t : State} {E : Nat} (h : Fr E s0 t) (hE : Sub 0x40000 E := by exact Sub.of (by assumption) (by decide)) :
    Fr E s0 (mtWatch src t) := by
  unfold mtWatch
  (try dsimp only)
  repeat' (first | with_reducible assumption | with_reducible apply Fr.ite | with_reducible apply State.modMt_frame | with_reducible apply mtSync_frame | with_reducible apply mtPacket_frame | with_reducible exact Sub.of (by assumption) (by decide) | split)

theorem mtHalt_frame (src : Nat) (entry : Bool) {s0 t : State} {E : Nat} (h : Fr E s0 t) (hE : Sub 0x28004420a0 E := by exact Sub.of (by assumption) (by decide)) :
    Fr E s0 (mtHalt src entry t) := by
  unfold mtHalt
  (try dsimp only)
  repeat' (first | with_reducible assumption | with_reducible apply Fr.ite | with_reducible apply mtFlush_frame | with_reducible apply mtPacket_frame | with_reducible apply mtBranch_frame | with_reducible apply mtSync_frame | with_reducible exact Sub.of (by assumption) (by decide) | split)

end Sys2Proof.Machine
end

