-- ==== Sys2Proof/Laws/Frame3.lean ====
section
/-! SUPPORT. Frame3.lean: the parts of the state each operation may change, part 3. -/
set_option Elab.async false
namespace Sys2Proof.Machine

theorem pairResume_frame (p : Nat) (cause : Nat) {s0 t : State} {E : Nat} (h : Fr E s0 t) (hE : Sub 0x68004420a0 E := by exact Sub.of (by assumption) (by decide)) :
    Fr E s0 (pairResume p cause t) := by
  unfold pairResume
  (try dsimp only)
  repeat' (first | with_reducible assumption | with_reducible apply Fr.ite | with_reducible apply mtHalt_frame | with_reducible apply State.raise_frame | with_reducible apply State.modPair_frame | with_reducible exact Sub.of (by assumption) (by decide) | with_reducible exact Sub.bit (by assumption) (by decide) | split)

theorem ellipsisClose_frame {s0 t : State} {E : Nat} (h : Fr E s0 t) (hE : Sub 0x40000200 E := by exact Sub.of (by assumption) (by decide)) :
    Fr E s0 (ellipsisClose t) := by
  unfold ellipsisClose
  (try dsimp only)
  repeat' (first | with_reducible assumption | with_reducible exact Or.inr (Sub.bit (by assumption) (by decide)) | with_reducible exact Or.inl rfl | with_reducible rfl | with_reducible apply State.fset_frame | (simp only [Fr.mk_eq]; with_reducible apply FrF.upd) | with_reducible apply Fr.foldl | (intro _ _ _) | (intro _ _) | with_reducible exact Sub.of (by assumption) (by decide) | with_reducible exact Sub.bit (by assumption) (by decide))

theorem lateStop_frame (f : Nat) (dev : Nat) {s0 t : State} {E : Nat} (h : Fr E s0 t) (hE : Sub 0x68404462b1 E := by exact Sub.of (by assumption) (by decide)) :
    Fr E s0 (lateStop f dev t) := by
  unfold lateStop
  (try dsimp only)
  repeat' (first | with_reducible assumption | with_reducible exact Or.inr (Sub.bit (by assumption) (by decide)) | with_reducible exact Or.inl rfl | with_reducible rfl | with_reducible apply Fr.ite | with_reducible apply State.raise_frame | with_reducible apply ellipsisClose_frame | with_reducible apply seqStop_frame | (simp only [Fr.mk_eq]; with_reducible apply FrF.upd) | with_reducible exact Sub.of (by assumption) (by decide) | with_reducible exact Sub.bit (by assumption) (by decide) | split)

theorem seqResume_frame (cause : Nat) {s0 t : State} {E : Nat} (h : Fr E s0 t) (hE : Sub 0x68404462b1 E := by exact Sub.of (by assumption) (by decide)) :
    Fr E s0 (seqResume cause t) := by
  unfold seqResume
  (try dsimp only)
  repeat' (first | with_reducible assumption | with_reducible exact Or.inr (Sub.bit (by assumption) (by decide)) | with_reducible exact Or.inl rfl | with_reducible rfl | with_reducible apply Fr.ite | with_reducible apply ellipsisSample_frame | with_reducible apply State.raise_frame | with_reducible apply lateStop_frame | (simp only [Fr.mk_eq]; with_reducible apply FrF.upd) | with_reducible exact Sub.of (by assumption) (by decide) | with_reducible exact Sub.bit (by assumption) (by decide) | split)

theorem levelFell_frame {s0 t : State} {E : Nat} (h : Fr E s0 t) (hE : Sub 0x6d414666b1 E := by exact Sub.of (by assumption) (by decide)) :
    Fr E s0 (levelFell t) := by
  unfold levelFell
  (try dsimp only)
  repeat' (first | with_reducible assumption | with_reducible apply Fr.ite | with_reducible apply pairResume_frame | with_reducible apply sleepEnd_frame | with_reducible apply seqResume_frame | with_reducible apply Fr.foldl | (intro _ _ _) | (intro _ _) | with_reducible exact Sub.of (by assumption) (by decide) | split)

theorem setLevel_frame (p : Path) (l : Nat) {s0 t : State} {E : Nat} (h : Fr E s0 t) (hE : Sub 0x6d414e66b1 E := by exact Sub.of (by assumption) (by decide)) :
    Fr E s0 (setLevel p l t) := by
  unfold setLevel
  (try dsimp only)
  repeat' (first | with_reducible assumption | with_reducible exact Or.inr (Sub.bit (by assumption) (by decide)) | with_reducible exact Or.inl rfl | with_reducible rfl | with_reducible apply Fr.ite | with_reducible apply mtWatch_frame | with_reducible apply levelFell_frame | (simp only [Fr.mk_eq]; with_reducible apply FrF.upd) | with_reducible exact Sub.of (by assumption) (by decide) | split)

theorem keyxEnd_frame (k : Keyx) (result : Nat) {s0 t : State} {E : Nat} (h : Fr E s0 t) (hE : Sub 0x4000080080 E := by exact Sub.of (by assumption) (by decide)) :
    Fr E s0 (keyxEnd k result t) := by
  unfold keyxEnd
  (try dsimp only)
  repeat' (first | with_reducible assumption | with_reducible exact Or.inr (Sub.bit (by assumption) (by decide)) | with_reducible exact Or.inl rfl | with_reducible rfl | with_reducible apply authReport_frame | (simp only [Fr.mk_eq]; with_reducible apply FrF.upd) | with_reducible exact Sub.of (by assumption) (by decide))

theorem authKeyx_frame (p : Path) (level : Nat) {s0 t : State} {E : Nat} (h : Fr E s0 t) (hE : Sub 0x6d414e66b1 E := by exact Sub.of (by assumption) (by decide)) :
    Fr E s0 (authKeyx p level t) := by
  unfold authKeyx
  (try dsimp only)
  repeat' (first | with_reducible assumption | with_reducible exact Or.inr (Sub.bit (by assumption) (by decide)) | with_reducible exact Or.inl rfl | with_reducible rfl | with_reducible apply Fr.ite | with_reducible apply authReport_frame | with_reducible apply setLevel_frame | with_reducible apply keyxEnd_frame | (simp only [Fr.mk_eq]; with_reducible apply FrF.upd) | with_reducible exact Sub.of (by assumption) (by decide) | split)

theorem authPassword_frame (p : Path) (level : Nat) {s0 t : State} {E : Nat} (h : Fr E s0 t) (hE : Sub 0x6d414e66b1 E := by exact Sub.of (by assumption) (by decide)) :
    Fr E s0 (authPassword p level t) := by
  unfold authPassword
  (try dsimp only)
  repeat' (first | with_reducible assumption | with_reducible exact Or.inr (Sub.bit (by assumption) (by decide)) | with_reducible exact Or.inl rfl | with_reducible rfl | with_reducible apply Fr.ite | with_reducible apply authReport_frame | with_reducible apply setLevel_frame | with_reducible apply State.fset_frame | with_reducible apply State.raise_frame | (simp only [Fr.mk_eq]; with_reducible apply FrF.upd) | with_reducible exact Sub.of (by assumption) (by decide) | with_reducible exact Sub.bit (by assumption) (by decide) | split)

theorem writeAuth_frame (req : Requester) (a : Nat) (r : RRow) (w : Word) {s0 t : State} {E : Nat} (h : Fr E s0 t) (hE : Sub 0xffff4e66b1 E := by exact Sub.of (by assumption) (by decide)) :
    Fr E s0 (writeAuth req a r w t) := by
  unfold writeAuth
  (try dsimp only)
  repeat' (first | with_reducible assumption | with_reducible apply Fr.ite | with_reducible apply plainWrite_frame | with_reducible apply authKeyx_frame | with_reducible apply authPassword_frame | with_reducible apply setLevel_frame | with_reducible exact Sub.of (by assumption) (by decide) | split)

theorem oppDone_frame {s0 t : State} {E : Nat} (h : Fr E s0 t) (hE : Sub 0x3000080 E := by exact Sub.of (by assumption) (by decide)) :
    Fr E s0 (oppDone t) := by
  unfold oppDone
  (try dsimp only)
  repeat' (first | with_reducible assumption | with_reducible exact Or.inr (Sub.bit (by assumption) (by decide)) | with_reducible exact Or.inl rfl | with_reducible rfl | with_reducible apply State.fset_frame | with_reducible apply oppStart_frame | (simp only [Fr.mk_eq]; with_reducible apply FrF.upd) | with_reducible exact Sub.of (by assumption) (by decide) | with_reducible exact Sub.bit (by assumption) (by decide) | split)

theorem clockBoundary_frame {s0 t : State} {E : Nat} (h : Fr E s0 t) (hE : Sub 0x3000080 E := by exact Sub.of (by assumption) (by decide)) :
    Fr E s0 (clockBoundary t) := by
  unfold clockBoundary
  (try dsimp only)
  repeat' (first | with_reducible assumption | with_reducible exact Or.inr (Sub.bit (by assumption) (by decide)) | with_reducible exact Or.inl rfl | with_reducible rfl | with_reducible apply oppDone_frame | with_reducible apply freqSwitch_frame | (simp only [Fr.mk_eq]; with_reducible apply FrF.upd) | with_reducible exact Sub.of (by assumption) (by decide) | split)

theorem breakStep_frame (n : Nat) (us : List Nat) {s0 t : State} {E : Nat} (h : Fr E s0 t) (hE : Sub 0x80000080 E := by exact Sub.of (by assumption) (by decide)) :
    Fr E s0 (breakStep n us t) := by
  unfold breakStep
  (try dsimp only)
  repeat' (first | with_reducible assumption | with_reducible apply State.raise_frame | with_reducible apply Fr.foldl | (intro _ _ _) | (intro _ _) | with_reducible exact Sub.of (by assumption) (by decide) | with_reducible exact Sub.bit (by assumption) (by decide))

theorem loadReturns_frame (n : Nat) {s0 t : State} {E : Nat} (h : Fr E s0 t) (hE : Sub 0x2400 E := by exact Sub.of (by assumption) (by decide)) :
    Fr E s0 (loadReturns n t) := by
  unfold loadReturns
  (try dsimp only)
  repeat' (first | with_reducible assumption | with_reducible exact Or.inr (Sub.bit (by assumption) (by decide)) | with_reducible exact Or.inl rfl | with_reducible rfl | with_reducible apply Fr.ite | with_reducible apply State.modClause_frame | (simp only [Fr.mk_eq]; with_reducible apply FrF.upd) | with_reducible apply Fr.foldl | (intro _ _ _) | (intro _ _) | with_reducible exact Sub.of (by assumption) (by decide) | split)

theorem sigPut_frame (ws : List DWord) {s0 t : State} {E : Nat} (h : Fr E s0 t) (hE : Sub 0x40000 E := by exact Sub.of (by assumption) (by decide)) :
    Fr E s0 (sigPut ws t) := by
  unfold sigPut
  (try dsimp only)
  repeat' (first | with_reducible assumption | with_reducible apply State.modSig_frame | with_reducible exact Sub.of (by assumption) (by decide))

theorem sigMark_frame (stop : Bool) (cause : Nat) (unit : Nat) (step : Nat) {s0 t : State} {E : Nat} (h : Fr E s0 t) (hE : Sub 0x40000 E := by exact Sub.of (by assumption) (by decide)) :
    Fr E s0 (sigMark stop cause unit step t) := by
  unfold sigMark
  (try dsimp only)
  repeat' (first | with_reducible assumption | with_reducible apply sigPut_frame | with_reducible exact Sub.of (by assumption) (by decide))

theorem sigPad_frame {s0 t : State} {E : Nat} (h : Fr E s0 t) (hE : Sub 0x40000 E := by exact Sub.of (by assumption) (by decide)) :
    Fr E s0 (sigPad t) := by
  unfold sigPad
  (try dsimp only)
  repeat' (first | with_reducible assumption | with_reducible apply sigPut_frame | with_reducible exact Sub.of (by assumption) (by decide))

theorem sigSync_frame (step : Nat) {s0 t : State} {E : Nat} (h : Fr E s0 t) (hE : Sub 0x40000 E := by exact Sub.of (by assumption) (by decide)) :
    Fr E s0 (sigSync step t) := by
  unfold sigSync
  (try dsimp only)
  repeat' (first | with_reducible assumption | with_reducible apply State.modSig_frame | with_reducible apply sigPut_frame | with_reducible apply sigPad_frame | with_reducible exact Sub.of (by assumption) (by decide))

theorem sigBegin_frame (n : Nat) {s0 t : State} {E : Nat} (h : Fr E s0 t) (hE : Sub 0x2000040000 E := by exact Sub.of (by assumption) (by decide)) :
    Fr E s0 (sigBegin n t) := by
  unfold sigBegin
  (try dsimp only)
  repeat' (first | with_reducible assumption | with_reducible apply sigMark_frame | with_reducible apply sigSync_frame | with_reducible apply State.modSig_frame | with_reducible apply State.fset_frame | with_reducible exact Sub.of (by assumption) (by decide) | with_reducible exact Sub.bit (by assumption) (by decide) | split)

theorem upset_frame (u : Upset) {s0 t : State} {E : Nat} (h : Fr E s0 t) (hE : Sub 0x23430 E := by exact Sub.of (by assumption) (by decide)) :
    Fr E s0 (upset t u) := by
  unfold upset
  (try dsimp only)
  repeat' (first | with_reducible assumption | with_reducible exact Or.inr (Sub.bit (by assumption) (by decide)) | with_reducible exact Or.inl rfl | with_reducible rfl | with_reducible apply Fr.ite | with_reducible apply State.modClause_frame | with_reducible apply State.setMark_frame | with_reducible apply State.fresh_frame | with_reducible apply State.store_frame | (simp only [Fr.mk_eq]; with_reducible apply FrF.upd) | with_reducible exact Sub.of (by assumption) (by decide) | split)

theorem upsets_frame (ups : List Upset) {s0 t : State} {E : Nat} (h : Fr E s0 t) (hE : Sub 0x23430 E := by exact Sub.of (by assumption) (by decide)) :
    Fr E s0 (upsets ups t) := by
  unfold upsets
  (try dsimp only)
  repeat' (first | with_reducible assumption | with_reducible apply upset_frame | with_reducible apply Fr.foldl | (intro _ _ _) | (intro _ _) | with_reducible exact Sub.of (by assumption) (by decide))

theorem schUe_frame (c : Nat) (n : Nat) (loc : Nat) (kind : Nat) {s0 t : State} {E : Nat} (h : Fr E s0 t) (hE : Sub 0x80000480 E := by exact Sub.of (by assumption) (by decide)) :
    Fr E s0 (schUe c n loc kind t) := by
  unfold schUe
  (try dsimp only)
  repeat' (first | with_reducible assumption | with_reducible apply State.raise_frame | with_reducible apply State.modClause_frame | with_reducible apply State.count_frame | with_reducible exact Sub.of (by assumption) (by decide) | with_reducible exact Sub.bit (by assumption) (by decide))

theorem holdReads_frame (c : Nat) (n : Nat) (p : Nat) {s0 t : State} {E : Nat} (h : Fr E s0 t) (hE : Sub 0x280000480 E := by exact Sub.of (by assumption) (by decide)) :
    Fr E s0 (holdReads c n p t) := by
  unfold holdReads
  (try dsimp only)
  repeat' (first | with_reducible assumption | with_reducible apply Fr.ite | with_reducible apply schUe_frame | with_reducible apply State.raise_frame | with_reducible apply Fr.foldl | (intro _ _ _) | (intro _ _) | with_reducible exact Sub.of (by assumption) (by decide) | with_reducible exact Sub.bit (by assumption) (by decide) | split)

theorem schReads_frame (c : Nat) (n : Nat) (p : Nat) {s0 t : State} {E : Nat} (h : Fr E s0 t) (hE : Sub 0x280400480 E := by exact Sub.of (by assumption) (by decide)) :
    Fr E s0 (schReads c n p t) := by
  unfold schReads
  (try dsimp only)
  repeat' (first | with_reducible assumption | with_reducible apply Fr.ite | with_reducible apply holdReads_frame | with_reducible apply State.modClause_frame | with_reducible apply schCorrected_frame | with_reducible apply schUe_frame | with_reducible apply Fr.foldl | (intro _ _ _) | (intro _ _) | with_reducible exact Sub.of (by assumption) (by decide) | split)

theorem linkFree_frame (n : Nat) (l : Nat) {s0 t : State} {E : Nat} (h : Fr E s0 t) (hE : Sub 0x4000 E := by exact Sub.of (by assumption) (by decide)) :
    Fr E s0 (linkFree n l t) := by
  unfold linkFree
  (try dsimp only)
  repeat' (first | with_reducible assumption | with_reducible apply Fr.ite | with_reducible apply State.modLink_frame | with_reducible exact Sub.of (by assumption) (by decide) | split)

theorem linkAnnounce_frame (l : Nat) {s0 t : State} {E : Nat} (h : Fr E s0 t) (hE : Sub 0x4000 E := by exact Sub.of (by assumption) (by decide)) :
    Fr E s0 (linkAnnounce l t) := by
  unfold linkAnnounce
  (try dsimp only)
  repeat' (first | with_reducible assumption | with_reducible apply Fr.ite | with_reducible apply State.modLink_frame | with_reducible apply Fr.foldl | (intro _ _ _) | (intro _ _) | with_reducible exact Sub.of (by assumption) (by decide) | split)

theorem linkFrame_frame (l : Nat) (sstep : Nat) (idle : Bool) (payload : List Val) {s0 t : State} {E : Nat} (h : Fr E s0 t) (hE : Sub 0x4000 E := by exact Sub.of (by assumption) (by decide)) :
    Fr E s0 (linkFrame l sstep idle payload t).2 := by
  unfold linkFrame
  (try dsimp only)
  repeat' (first | with_reducible assumption | with_reducible apply Fr.ite | with_reducible apply linkAnnounce_frame | with_reducible apply State.modLink_frame | with_reducible exact Sub.of (by assumption) (by decide) | split)

theorem linkWire_frame (l : Nat) (bits : List Bool) {s0 t : State} {E : Nat} (h : Fr E s0 t) (hE : Sub 0x4001 E := by exact Sub.of (by assumption) (by decide)) :
    Fr E s0 (linkWire l bits t) := by
  unfold linkWire
  (try dsimp only)
  repeat' (first | with_reducible assumption | with_reducible apply Fr.ite | with_reducible apply State.modLink_frame | with_reducible apply State.emit_frame | with_reducible exact Sub.of (by assumption) (by decide) | split)

theorem linkEmit_frame (l : Nat) (f : Superframe) {s0 t : State} {E : Nat} (h : Fr E s0 t) (hE : Sub 0x4001 E := by exact Sub.of (by assumption) (by decide)) :
    Fr E s0 (linkEmit l f t) := by
  unfold linkEmit
  (try dsimp only)
  repeat' (first | with_reducible assumption | with_reducible apply linkWire_frame | with_reducible apply State.emit_frame | with_reducible exact Sub.of (by assumption) (by decide))

theorem linkSend_frame (n : Nat) (out : Nat → Val) (l : Nat) {s0 t : State} {E : Nat} (h : Fr E s0 t) (hE : Sub 0x4001 E := by exact Sub.of (by assumption) (by decide)) :
    Fr E s0 (linkSend n out l t) := by
  unfold linkSend
  (try dsimp only)
  repeat' (first | with_reducible assumption | with_reducible apply Fr.ite | with_reducible apply State.modLink_frame | with_reducible apply linkFrame_frame | with_reducible apply linkEmit_frame | with_reducible apply Fr.foldl | (intro _ _ _) | (intro _ _) | with_reducible exact Sub.of (by assumption) (by decide) | split)

theorem connCorrected_frame (k : Nat) (lane : Option Nat) (n : Nat) {s0 t : State} {E : Nat} (h : Fr E s0 t) (hE : Sub 0x200400880 E := by exact Sub.of (by assumption) (by decide)) :
    Fr E s0 (connCorrected k lane n t) := by
  unfold connCorrected
  (try dsimp only)
  repeat' (first | with_reducible assumption | with_reducible apply Fr.ite | with_reducible apply State.modConn_frame | with_reducible apply State.raise_frame | with_reducible apply sparingSeen_frame | with_reducible exact Sub.of (by assumption) (by decide) | with_reducible exact Sub.bit (by assumption) (by decide) | split)

theorem connUe_frame (k : Nat) (n : Nat) {s0 t : State} {E : Nat} (h : Fr E s0 t) (hE : Sub 0x200000880 E := by exact Sub.of (by assumption) (by decide)) :
    Fr E s0 (connUe k n t) := by
  unfold connUe
  (try dsimp only)
  repeat' (first | with_reducible assumption | with_reducible apply State.raise_frame | with_reducible apply State.modConn_frame | with_reducible exact Sub.of (by assumption) (by decide) | with_reducible exact Sub.bit (by assumption) (by decide))

theorem switchStep_frame (n : Nat) (ups : List Upset) (txs : Kv (Kv Val)) {s0 t : State} {E : Nat} (h : Fr E s0 t) (hE : Sub 0x200404c81 E := by exact Sub.of (by assumption) (by decide)) :
    Fr E s0 (switchStep n ups txs t) := by
  unfold switchStep
  (try dsimp only)
  repeat' (first | with_reducible assumption | with_reducible apply Fr.ite | with_reducible apply State.modClause_frame | with_reducible apply linkFree_frame | with_reducible apply linkSend_frame | with_reducible apply connCorrected_frame | with_reducible apply connUe_frame | with_reducible apply Fr.foldl | (intro _ _ _) | (intro _ _) | with_reducible exact Sub.of (by assumption) (by decide) | split)

theorem sparingFix_frame (c : Nat) (ph : Nat) (e : Nat) {s0 t : State} {E : Nat} (h : Fr E s0 t) (hE : Sub 0x400000 E := by exact Sub.of (by assumption) (by decide)) :
    Fr E s0 (sparingFix c ph e t) := by
  unfold sparingFix
  (try dsimp only)
  repeat' (first | with_reducible assumption | with_reducible exact Or.inr (Sub.bit (by assumption) (by decide)) | with_reducible exact Or.inl rfl | with_reducible rfl | with_reducible apply Fr.ite | with_reducible apply sparingSeen_frame | (simp only [Fr.mk_eq]; with_reducible apply FrF.upd) | with_reducible exact Sub.of (by assumption) (by decide) | split)

theorem dictOutcome_frame (c : Nat) (ph : Nat) (e : Nat) (step : List Nat) {s0 t : State} {E : Nat} (h : Fr E s0 t) (hE : Sub 0x100400480 E := by exact Sub.of (by assumption) (by decide)) :
    Fr E s0 (dictOutcome c ph e step t) := by
  unfold dictOutcome
  (try dsimp only)
  repeat' (first | with_reducible assumption | with_reducible apply Fr.ite | with_reducible apply sparingFix_frame | with_reducible apply State.raise_frame | with_reducible apply State.modClause_frame | with_reducible apply State.count_frame | with_reducible exact Sub.of (by assumption) (by decide) | with_reducible exact Sub.bit (by assumption) (by decide) | (rw [F.CLS_CNT_DFIX_COUNT_block]; exact Sub.bit (by assumption) (by decide)) | (rw [F.CLS_CNT_DUE_COUNT_block]; exact Sub.bit (by assumption) (by decide)) | (rw [F.CLS_EVT_DICT_FIX_block]; exact Sub.bit (by assumption) (by decide)) | (rw [F.CLS_EVT_DICT_UE_block]; exact Sub.bit (by assumption) (by decide)) | split)

theorem vsParity_frame (c : Nat) (n : Nat) (phys : Nat) {s0 t : State} {E : Nat} (h : Fr E s0 t) (hE : Sub 0x100000080 E := by exact Sub.of (by assumption) (by decide)) :
    Fr E s0 (vsParity c n phys t) := by
  unfold vsParity
  (try dsimp only)
  repeat' (first | with_reducible assumption | with_reducible apply Fr.ite | with_reducible apply State.raise_frame | with_reducible apply State.count_frame | with_reducible exact Sub.of (by assumption) (by decide) | with_reducible exact Sub.bit (by assumption) (by decide) | (rw [F.CLS_CNT_VSPAR_COUNT_block]; exact Sub.bit (by assumption) (by decide)) | (rw [F.CLS_EVT_VS_PARITY_block]; exact Sub.bit (by assumption) (by decide)) | split)

theorem vsWrite_frame (c : Nat) (key : Nat) (v : Val) {s0 t : State} {E : Nat} (h : Fr E s0 t) (hE : Sub 0x400 E := by exact Sub.of (by assumption) (by decide)) :
    Fr E s0 (vsWrite c key v t) := by
  unfold vsWrite
  (try dsimp only)
  repeat' (first | with_reducible assumption | with_reducible apply Fr.ite | with_reducible apply State.modClause_frame | with_reducible exact Sub.of (by assumption) (by decide) | split)

theorem clauseApply_frame (c : Nat) (n : Nat) (outs : List BpOut) {s0 t : State} {E : Nat} (h : Fr E s0 t) (hE : Sub 0x100400480 E := by exact Sub.of (by assumption) (by decide)) :
    Fr E s0 (clauseApply c n outs t) := by
  unfold clauseApply
  (try dsimp only)
  repeat' (first | with_reducible assumption | with_reducible apply dictOutcome_frame | with_reducible apply vsParity_frame | with_reducible apply vsWrite_frame | with_reducible apply State.modClause_frame | with_reducible apply Fr.foldl | (intro _ _ _) | (intro _ _) | with_reducible exact Sub.of (by assumption) (by decide) | split)

theorem outOfWindow_frame (m : Nat) (index : List Nat) (write : Bool) (n : Nat) {s0 t : State} {E : Nat} (h : Fr E s0 t) (hE : Sub 0x800002480 E := by exact Sub.of (by assumption) (by decide)) :
    Fr E s0 (outOfWindow m index write n t) := by
  unfold outOfWindow
  (try dsimp only)
  repeat' (first | with_reducible assumption | with_reducible exact Or.inr (Sub.bit (by assumption) (by decide)) | with_reducible exact Or.inl rfl | with_reducible rfl | with_reducible apply Fr.ite | with_reducible apply State.count_frame | with_reducible apply State.raise_frame | with_reducible apply State.modClause_frame | (simp only [Fr.mk_eq]; with_reducible apply FrF.upd) | with_reducible exact Sub.of (by assumption) (by decide) | with_reducible exact Sub.bit (by assumption) (by decide) | split)

theorem unknownWrite_frame (c : Nat) (q : Nat) (n : Nat) {s0 t : State} {E : Nat} (h : Fr E s0 t) (hE : Sub 0x100000480 E := by exact Sub.of (by assumption) (by decide)) :
    Fr E s0 (unknownWrite c q n t) := by
  unfold unknownWrite
  (try dsimp only)
  repeat' (first | with_reducible assumption | with_reducible apply Fr.ite | with_reducible apply State.modClause_frame | with_reducible apply State.count_frame | with_reducible apply State.raise_frame | with_reducible exact Sub.of (by assumption) (by decide) | with_reducible exact Sub.bit (by assumption) (by decide) | (rw [F.CLS_EVT_PORT_XADDR_block]; exact Sub.bit (by assumption) (by decide)) | (rw [F.CLS_PXW_COUNT_block]; exact Sub.bit (by assumption) (by decide)) | split)

theorem pushBlank_frame (m : Nat) (n : Nat) (hbm : Bool) {s0 t : State} {E : Nat} (h : Fr E s0 t) (hE : Sub 0x2000 E := by exact Sub.of (by assumption) (by decide)) :
    Fr E s0 (pushBlank m n hbm t) := by
  unfold pushBlank
  (try dsimp only)
  repeat' (first | with_reducible assumption | with_reducible exact Or.inr (Sub.bit (by assumption) (by decide)) | with_reducible exact Or.inl rfl | with_reducible rfl | with_reducible apply Fr.ite | (simp only [Fr.mk_eq]; with_reducible apply FrF.upd) | split)

theorem placeAccess_frame (m : Nat) (n : Nat) (w : QWord) (k : Nat) (write : Bool) (vals : List Val) {s0 t : State} {E : Nat} (h : Fr E s0 t) (hE : Sub 0x8004020a0 E := by exact Sub.of (by assumption) (by decide)) :
    Fr E s0 (placeAccess m n w k write vals t) := by
  unfold placeAccess
  (try dsimp only)
  repeat' (first | with_reducible assumption | with_reducible exact Or.inr (Sub.bit (by assumption) (by decide)) | with_reducible exact Or.inl rfl | with_reducible rfl | with_reducible apply Fr.ite | with_reducible apply userWrite_frame | with_reducible apply userRead_frame | (simp only [Fr.mk_eq]; with_reducible apply FrF.upd) | with_reducible exact Sub.of (by assumption) (by decide) | split)

theorem issueMgo_frame (c : Nat) (n : Nat) (q : Nat) (write : Bool) (en : Val) {s0 t : State} {E : Nat} (h : Fr E s0 t) (hE : Sub 0x9004024a0 E := by exact Sub.of (by assumption) (by decide)) :
    Fr E s0 (issueMgo c n q write en t) := by
  unfold issueMgo
  (try dsimp only)
  repeat' (first | with_reducible assumption | with_reducible apply Fr.ite | with_reducible apply State.modClause_frame | with_reducible apply outOfWindow_frame | with_reducible apply unknownWrite_frame | with_reducible apply pushBlank_frame | with_reducible apply placeAccess_frame | with_reducible exact Sub.of (by assumption) (by decide) | split)

theorem sigSyncDue_frame (step : Nat) {s0 t : State} {E : Nat} (h : Fr E s0 t) (hE : Sub 0x40000 E := by exact Sub.of (by assumption) (by decide)) :
    Fr E s0 (sigSyncDue step t) := by
  unfold sigSyncDue
  (try dsimp only)
  repeat' (first | with_reducible assumption | with_reducible apply Fr.ite | with_reducible apply sigSync_frame | with_reducible exact Sub.of (by assumption) (by decide) | split)

theorem sigOverflow_frame {s0 t : State} {E : Nat} (h : Fr E s0 t) (hE : Sub 0x2000040080 E := by exact Sub.of (by assumption) (by decide)) :
    Fr E s0 (sigOverflow t) := by
  unfold sigOverflow
  (try dsimp only)
  repeat' (first | with_reducible assumption | with_reducible apply State.raise_frame | with_reducible apply State.modSig_frame | with_reducible apply sigPut_frame | with_reducible exact Sub.of (by assumption) (by decide) | with_reducible exact Sub.bit (by assumption) (by decide) | split)

theorem sigStep_frame (n : Nat) (caps : List (Nat × List Val)) {s0 t : State} {E : Nat} (h : Fr E s0 t) (hE : Sub 0x2000040080 E := by exact Sub.of (by assumption) (by decide)) :
    Fr E s0 (sigStep n caps t) := by
  unfold sigStep
  (try dsimp only)
  repeat' (first | with_reducible assumption | with_reducible apply Fr.ite | with_reducible apply State.modSig_frame | with_reducible apply sigSyncDue_frame | with_reducible apply sigOverflow_frame | with_reducible apply sigSync_frame | with_reducible apply sigPut_frame | with_reducible exact Sub.of (by assumption) (by decide) | split)

theorem rimGroupEnd_frame (n : Nat) (lanes : List (Nat × Val)) (g : Nat) {s0 t : State} {E : Nat} (h : Fr E s0 t) (hE : Sub 0x20000 E := by exact Sub.of (by assumption) (by decide)) :
    Fr E s0 (rimGroupEnd n lanes t g) := by
  unfold rimGroupEnd
  (try dsimp only)
  repeat' (first | with_reducible assumption | with_reducible apply Fr.ite | with_reducible apply State.modGroup_frame | with_reducible exact Sub.of (by assumption) (by decide) | split)

theorem rimEnd_frame (n : Nat) (lanes : List (Nat × Val)) {s0 t : State} {E : Nat} (h : Fr E s0 t) (hE : Sub 0x20000 E := by exact Sub.of (by assumption) (by decide)) :
    Fr E s0 (rimEnd n lanes t) := by
  unfold rimEnd
  (try dsimp only)
  repeat' (first | with_reducible assumption | with_reducible apply rimGroupEnd_frame | with_reducible apply Fr.foldl | (intro _ _ _) | (intro _ _) | with_reducible exact Sub.of (by assumption) (by decide))

theorem clauseChecks_frame (c : Nat) (n : Nat) (outs : List BpOut) {s0 t : State} {E : Nat} (h : Fr E s0 t) (hE : Sub 0x100004680 E := by exact Sub.of (by assumption) (by decide)) :
    Fr E s0 (clauseChecks c n outs t) := by
  unfold clauseChecks
  (try dsimp only)
  repeat' (first | with_reducible assumption | with_reducible apply Fr.ite | with_reducible apply State.count_frame | with_reducible apply State.raiseAt_frame | with_reducible apply State.modClause_frame | with_reducible apply stopRequestAt_frame | with_reducible apply State.fset_frame | with_reducible apply Fr.foldl | (intro _ _ _) | (intro _ _) | with_reducible exact Sub.of (by assumption) (by decide) | with_reducible exact Sub.bit (by assumption) (by decide) | (rw [F.CLS_CNT_CHECK_COUNT_block]; exact Sub.bit (by assumption) (by decide)) | (rw [F.CLS_CNT_CHKDROP_COUNT_block]; exact Sub.bit (by assumption) (by decide)) | (rw [F.CLS_EVT_CHECK_block]; exact Sub.bit (by assumption) (by decide)) | split)

theorem measOf_frame (m : Nat) {s0 t : State} {E : Nat} (h : Fr E s0 t) (hE : Sub 0x10 E := by exact Sub.of (by assumption) (by decide)) :
    Fr E s0 (measOf m t).2 := by
  unfold measOf
  (try dsimp only)
  repeat' (first | with_reducible assumption | with_reducible apply Fr.ite | with_reducible apply State.fresh_frame | with_reducible exact Sub.of (by assumption) (by decide) | split)

theorem tuMatch_frame (u : Nat) (stamp : Nat) (time : Nat) (fine : Nat) (meas : Nat) {s0 t : State} {E : Nat} (h : Fr E s0 t) (hE : Sub 0x40000 E := by exact Sub.of (by assumption) (by decide)) :
    Fr E s0 (tuMatch u stamp time fine meas t) := by
  unfold tuMatch
  (try dsimp only)
  repeat' (first | with_reducible assumption | with_reducible apply Fr.ite | with_reducible apply State.modUnit_frame | with_reducible exact Sub.of (by assumption) (by decide) | split)

theorem tuLine_frame (n : Nat) (u : Nat) (old : Bool) (new : Bool) (since : Nat) {s0 t : State} {E : Nat} (h : Fr E s0 t) (hE : Sub 0x40010 E := by exact Sub.of (by assumption) (by decide)) :
    Fr E s0 (tuLine n u old new since t) := by
  unfold tuLine
  (try dsimp only)
  repeat' (first | with_reducible assumption | with_reducible apply Fr.ite | with_reducible apply measOf_frame | with_reducible apply tuMatch_frame | with_reducible apply State.modUnit_frame | with_reducible exact Sub.of (by assumption) (by decide) | split)

theorem tuLines_frame (n : Nat) (lines : Nat) {s0 t : State} {E : Nat} (h : Fr E s0 t) (hE : Sub 0x40010 E := by exact Sub.of (by assumption) (by decide)) :
    Fr E s0 (tuLines n lines t) := by
  unfold tuLines
  (try dsimp only)
  repeat' (first | with_reducible assumption | with_reducible exact Or.inr (Sub.bit (by assumption) (by decide)) | with_reducible exact Or.inl rfl | with_reducible rfl | with_reducible apply Fr.ite | with_reducible apply tuLine_frame | (simp only [Fr.mk_eq]; with_reducible apply FrF.upd) | with_reducible apply Fr.foldl | (intro _ _ _) | (intro _ _) | with_reducible exact Sub.of (by assumption) (by decide) | split)

theorem stepBody_frame (n : Nat) (ups : List Upset) {s0 t : State} {E : Nat} (h : Fr E s0 t) (hE : Sub 0x2b80467eb1 E := by exact Sub.of (by assumption) (by decide)) :
    Fr E s0 (stepBody n ups t) := by
  unfold stepBody
  (try dsimp only)
  repeat' (first | with_reducible assumption | with_reducible apply Fr.ite | with_reducible apply loadReturns_frame | with_reducible apply sigBegin_frame | with_reducible apply fabAgreeApply_frame | with_reducible apply isoApply_frame | with_reducible apply upsets_frame | with_reducible apply schReads_frame | with_reducible apply switchStep_frame | with_reducible apply clauseApply_frame | with_reducible apply issueMgo_frame | with_reducible apply sigStep_frame | with_reducible apply rimEnd_frame | with_reducible apply clauseChecks_frame | with_reducible apply tuLines_frame | with_reducible apply Fr.foldl | (intro _ _ _) | (intro _ _) | with_reducible exact Sub.of (by assumption) (by decide) | split)

theorem commitClause_frame (t1 : Nat) (c : Nat) {s0 t : State} {E : Nat} (h : Fr E s0 t) (hE : Sub 0x100000480 E := by exact Sub.of (by assumption) (by decide)) :
    Fr E s0 (commitClause t1 t c) := by
  unfold commitClause
  (try dsimp only)
  repeat' (first | with_reducible assumption | with_reducible apply State.raise_frame | with_reducible apply State.count_frame | with_reducible apply vsWrite_frame | with_reducible apply State.modClause_frame | with_reducible apply Fr.foldl | (intro _ _ _) | (intro _ _) | with_reducible exact Sub.of (by assumption) (by decide) | with_reducible exact Sub.bit (by assumption) (by decide) | (rw [F.CLS_CNT_CQPAR_COUNT_block]; exact Sub.bit (by assumption) (by decide)) | (rw [F.CLS_EVT_CQ_PARITY_block]; exact Sub.bit (by assumption) (by decide)))

theorem clearClause_frame (c : Nat) {s0 t : State} {E : Nat} (h : Fr E s0 t) (hE : Sub 0x400 E := by exact Sub.of (by assumption) (by decide)) :
    Fr E s0 (clearClause t c) := by
  unfold clearClause
  (try dsimp only)
  repeat' (first | with_reducible assumption | with_reducible apply State.modClause_frame | with_reducible exact Sub.of (by assumption) (by decide))

theorem boundaryDue_frame {s0 t : State} {E : Nat} (h : Fr E s0 t) (hE : Sub 0x11800 E := by exact Sub.of (by assumption) (by decide)) :
    Fr E s0 (boundaryDue t) := by
  unfold boundaryDue
  (try dsimp only)
  repeat' (first | with_reducible assumption | with_reducible exact Or.inr (Sub.bit (by assumption) (by decide)) | with_reducible exact Or.inl rfl | with_reducible rfl | with_reducible apply Fr.ite | (simp only [Fr.mk_eq]; with_reducible apply FrF.upd) | split)

theorem ckptBegin_frame {s0 t : State} {E : Nat} (h : Fr E s0 t) (hE : Sub 0x8404022a1 E := by exact Sub.of (by assumption) (by decide)) :
    Fr E s0 (ckptBegin t) := by
  unfold ckptBegin
  (try dsimp only)
  repeat' (first | with_reducible assumption | with_reducible exact Or.inr (Sub.bit (by assumption) (by decide)) | with_reducible exact Or.inl rfl | with_reducible rfl | with_reducible apply Fr.ite | with_reducible apply State.fset_frame | with_reducible apply State.emit_frame | with_reducible apply nocWrite_frame | (simp only [Fr.mk_eq]; with_reducible apply FrF.upd) | with_reducible exact Sub.of (by assumption) (by decide) | with_reducible exact Sub.bit (by assumption) (by decide) | split)

theorem ckptStart_frame {s0 t : State} {E : Nat} (h : Fr E s0 t) (hE : Sub 0x8404022a1 E := by exact Sub.of (by assumption) (by decide)) :
    Fr E s0 (ckptStart t) := by
  unfold ckptStart
  (try dsimp only)
  repeat' (first | with_reducible assumption | with_reducible exact Or.inr (Sub.bit (by assumption) (by decide)) | with_reducible exact Or.inl rfl | with_reducible rfl | with_reducible apply Fr.ite | with_reducible apply ckptBegin_frame | (simp only [Fr.mk_eq]; with_reducible apply FrF.upd) | with_reducible exact Sub.of (by assumption) (by decide) | split)

theorem boundary_frame {s0 t : State} {E : Nat} (h : Fr E s0 t) (hE : Sub 0x940c53ea1 E := by exact Sub.of (by assumption) (by decide)) :
    Fr E s0 (boundary t) := by
  unfold boundary
  (try dsimp only)
  repeat' (first | with_reducible assumption | with_reducible exact Or.inr (Sub.bit (by assumption) (by decide)) | with_reducible exact Or.inl rfl | with_reducible rfl | with_reducible apply Fr.ite | with_reducible apply commitClause_frame | with_reducible apply clearClause_frame | with_reducible apply State.modSig_frame | with_reducible apply sigEpoch_frame | with_reducible apply boundaryDue_frame | with_reducible apply latchTokens_frame | with_reducible apply ckptStart_frame | (simp only [Fr.mk_eq]; with_reducible apply FrF.upd) | with_reducible apply Fr.foldl | (intro _ _ _) | (intro _ _) | with_reducible exact Sub.of (by assumption) (by decide) | split)

theorem doStep_frame (ups : List Upset) {s0 t : State} {E : Nat} (h : Fr E s0 t) (hE : Sub 0x6bc3c77eb1 E := by exact Sub.of (by assumption) (by decide)) :
    Fr E s0 (doStep ups t) := by
  unfold doStep
  (try dsimp only)
  repeat' (first | with_reducible assumption | with_reducible exact Or.inr (Sub.bit (by assumption) (by decide)) | with_reducible exact Or.inl rfl | with_reducible rfl | with_reducible apply Fr.ite | with_reducible apply isoApply_frame | with_reducible apply breakStep_frame | with_reducible apply stepBody_frame | with_reducible apply boundary_frame | with_reducible apply clockBoundary_frame | with_reducible apply afterStep_frame | (simp only [Fr.mk_eq]; with_reducible apply FrF.upd) | with_reducible exact Sub.of (by assumption) (by decide) | split)

theorem seqEllipsisEnd_frame (ups : List Upset) {s0 t : State} {E : Nat} (h : Fr E s0 t) (hE : Sub 0x6bc3c77eb1 E := by exact Sub.of (by assumption) (by decide)) :
    Fr E s0 (seqEllipsisEnd ups t) := by
  unfold seqEllipsisEnd
  (try dsimp only)
  repeat' (first | with_reducible assumption | with_reducible exact Or.inr (Sub.bit (by assumption) (by decide)) | with_reducible exact Or.inl rfl | with_reducible rfl | with_reducible apply Fr.ite | with_reducible apply ellipsisClose_frame | with_reducible apply clockBoundary_frame | with_reducible apply doStep_frame | (simp only [Fr.mk_eq]; with_reducible apply FrF.upd) | with_reducible exact Sub.of (by assumption) (by decide) | split)

theorem runStep_frame (p : Path) (ups : List Upset) {s0 t : State} {E : Nat} (h : Fr E s0 t) (hE : Sub 0x6bc3c77eb1 E := by exact Sub.of (by assumption) (by decide)) :
    Fr E s0 (runStep p ups t) := by
  unfold runStep
  (try dsimp only)
  repeat' (first | with_reducible assumption | with_reducible exact Or.inr (Sub.bit (by assumption) (by decide)) | with_reducible exact Or.inl rfl | with_reducible rfl | with_reducible apply Fr.ite | with_reducible apply wref_frame | with_reducible apply seqResume_frame | with_reducible apply seqEllipsisEnd_frame | (simp only [Fr.mk_eq]; with_reducible apply FrF.upd) | with_reducible exact Sub.of (by assumption) (by decide) | split)

theorem runResume_frame (p : Path) {s0 t : State} {E : Nat} (h : Fr E s0 t) (hE : Sub 0x68404462b1 E := by exact Sub.of (by assumption) (by decide)) :
    Fr E s0 (runResume p t) := by
  unfold runResume
  (try dsimp only)
  repeat' (first | with_reducible assumption | with_reducible apply Fr.ite | with_reducible apply wref_frame | with_reducible apply seqResume_frame | with_reducible exact Sub.of (by assumption) (by decide) | split)

theorem runHalt_frame (cause : HaltCause) {s0 t : State} {E : Nat} (h : Fr E s0 t) (hE : Sub 0x68004462b1 E := by exact Sub.of (by assumption) (by decide)) :
    Fr E s0 (runHalt cause t) := by
  unfold runHalt
  (try dsimp only)
  repeat' (first | with_reducible assumption | with_reducible apply Fr.ite | with_reducible apply wref_frame | with_reducible apply seqHalt_frame | with_reducible exact Sub.of (by assumption) (by decide) | split)

theorem writeRun_frame (p : Path) (w : Word) {s0 t : State} {E : Nat} (h : Fr E s0 t) (hE : Sub 0x6bc3c77eb1 E := by exact Sub.of (by assumption) (by decide)) :
    Fr E s0 (writeRun p w t) := by
  unfold writeRun
  (try dsimp only)
  repeat' (first | with_reducible assumption | with_reducible apply Fr.ite | with_reducible apply runStep_frame | with_reducible apply runResume_frame | with_reducible apply runHalt_frame | with_reducible exact Sub.of (by assumption) (by decide) | split)

theorem setForce_frame (c : Nat) (key : Nat) (v : Option Val) {s0 t : State} {E : Nat} (h : Fr E s0 t) (hE : Sub 0x80000 E := by exact Sub.of (by assumption) (by decide)) :
    Fr E s0 (setForce c key v t) := by
  unfold setForce
  (try dsimp only)
  repeat' (first | with_reducible assumption | with_reducible exact Or.inr (Sub.bit (by assumption) (by decide)) | with_reducible exact Or.inl rfl | with_reducible rfl | (simp only [Fr.mk_eq]; with_reducible apply FrF.upd))

theorem arrAct_frame (a : ArrOp) {s0 t : State} {E : Nat} (h : Fr E s0 t) (hE : Sub 0x4000080400 E := by exact Sub.of (by assumption) (by decide)) :
    Fr E s0 (arrAct a t) := by
  unfold arrAct
  (try dsimp only)
  repeat' (first | with_reducible assumption | with_reducible exact Or.inr (Sub.bit (by assumption) (by decide)) | with_reducible exact Or.inl rfl | with_reducible rfl | with_reducible apply State.fsetb_frame | with_reducible apply State.fset_frame | with_reducible apply vsWrite_frame | with_reducible apply setForce_frame | (simp only [Fr.mk_eq]; with_reducible apply FrF.upd) | with_reducible exact Sub.of (by assumption) (by decide) | with_reducible exact Sub.bit (by assumption) (by decide) | split)

theorem arrRun_frame (a : ArrOp) {s0 t : State} {E : Nat} (h : Fr E s0 t) (hE : Sub 0x4000080400 E := by exact Sub.of (by assumption) (by decide)) :
    Fr E s0 (arrRun a t) := by
  unfold arrRun
  (try dsimp only)
  repeat' (first | with_reducible assumption | with_reducible exact Or.inr (Sub.bit (by assumption) (by decide)) | with_reducible exact Or.inl rfl | with_reducible rfl | with_reducible apply State.fset_frame | with_reducible apply arrAct_frame | (simp only [Fr.mk_eq]; with_reducible apply FrF.upd) | with_reducible exact Sub.of (by assumption) (by decide) | with_reducible exact Sub.bit (by assumption) (by decide) | split)

theorem arrGo_frame (a : ArrOp) {s0 t : State} {E : Nat} (h : Fr E s0 t) (hE : Sub 0x4000080400 E := by exact Sub.of (by assumption) (by decide)) :
    Fr E s0 (arrGo a t) := by
  unfold arrGo
  (try dsimp only)
  repeat' (first | with_reducible assumption | with_reducible exact Or.inr (Sub.bit (by assumption) (by decide)) | with_reducible exact Or.inl rfl | with_reducible rfl | with_reducible apply Fr.ite | with_reducible apply State.fset_frame | with_reducible apply State.fsetb_frame | with_reducible apply arrRun_frame | (simp only [Fr.mk_eq]; with_reducible apply FrF.upd) | with_reducible exact Sub.of (by assumption) (by decide) | with_reducible exact Sub.bit (by assumption) (by decide) | split)

theorem writeArr_frame (req : Requester) (a : Nat) (r : RRow) (w : Word) {s0 t : State} {E : Nat} (h : Fr E s0 t) (hE : Sub 0xfffe080400 E := by exact Sub.of (by assumption) (by decide)) :
    Fr E s0 (writeArr req a r w t) := by
  unfold writeArr
  (try dsimp only)
  repeat' (first | with_reducible assumption | with_reducible apply Fr.ite | with_reducible apply plainWrite_frame | with_reducible apply State.fset_frame | with_reducible apply arrGo_frame | with_reducible exact Sub.of (by assumption) (by decide) | with_reducible exact Sub.bit (by assumption) (by decide) | split)

theorem sramUe_frame (a : Nat) (kind : Nat) {s0 t : State} {E : Nat} (h : Fr E s0 t) (hE : Sub 0x8000080 E := by exact Sub.of (by assumption) (by decide)) :
    Fr E s0 (sramUe a kind t) := by
  unfold sramUe
  (try dsimp only)
  repeat' (first | with_reducible assumption | with_reducible apply State.raise_frame | with_reducible exact Sub.of (by assumption) (by decide) | with_reducible exact Sub.bit (by assumption) (by decide))

theorem memWrite_frame (m : Master) (a : Nat) (bs : List Byte) {s0 t : State} {E : Nat} (h : Fr E s0 t) (hE : Sub 0x8084020a1 E := by exact Sub.of (by assumption) (by decide)) :
    Fr E s0 (memWrite m a bs t).2 := by
  unfold memWrite
  (try dsimp only)
  repeat' (first | with_reducible assumption | with_reducible exact Or.inr (Sub.bit (by assumption) (by decide)) | with_reducible exact Or.inl rfl | with_reducible rfl | with_reducible apply Fr.ite | with_reducible apply portWrite_frame | with_reducible apply State.emit_frame | with_reducible apply sramUe_frame | with_reducible apply State.store_frame | (simp only [Fr.mk_eq]; with_reducible apply FrF.upd) | with_reducible apply Fr.foldl | (intro _ _ _) | (intro _ _) | with_reducible exact Sub.of (by assumption) (by decide) | split)

theorem busWrite_frame (m : Master) (a : Nat) (bs : List Byte) {s0 t : State} {E : Nat} (h : Fr E s0 t) (hE : Sub 0x8084020a1 E := by exact Sub.of (by assumption) (by decide)) :
    Fr E s0 (busWrite m a bs t).2 := by
  unfold busWrite
  (try dsimp only)
  repeat' (first | with_reducible assumption | with_reducible apply memWrite_frame | with_reducible exact Sub.of (by assumption) (by decide) | split)

theorem mtTarget_frame (src : Nat) (a : DWord) {s0 t : State} {E : Nat} (h : Fr E s0 t) (hE : Sub 0x40000 E := by exact Sub.of (by assumption) (by decide)) :
    Fr E s0 (mtTarget src a t) := by
  unfold mtTarget
  (try dsimp only)
  repeat' (first | with_reducible assumption | with_reducible apply State.modMt_frame | with_reducible apply mtPacket_frame | with_reducible apply mtBranch_frame | with_reducible exact Sub.of (by assumption) (by decide))

theorem mtTrap_frame (src : Nat) (priv : Nat) (cause : Nat) (pc : DWord) (handler : DWord) {s0 t : State} {E : Nat} (h : Fr E s0 t) (hE : Sub 0x40000 E := by exact Sub.of (by assumption) (by decide)) :
    Fr E s0 (mtTrap src priv cause pc handler t) := by
  unfold mtTrap
  (try dsimp only)
  repeat' (first | with_reducible assumption | with_reducible apply mtTarget_frame | with_reducible apply State.modMt_frame | with_reducible apply mtPacket_frame | with_reducible apply mtBranch_frame | with_reducible exact Sub.of (by assumption) (by decide))

theorem mtOutcome_frame (src : Nat) (taken : Bool) {s0 t : State} {E : Nat} (h : Fr E s0 t) (hE : Sub 0x40000 E := by exact Sub.of (by assumption) (by decide)) :
    Fr E s0 (mtOutcome src taken t) := by
  unfold mtOutcome
  (try dsimp only)
  repeat' (first | with_reducible assumption | with_reducible apply Fr.ite | with_reducible apply State.modMt_frame | with_reducible apply mtBranch_frame | with_reducible exact Sub.of (by assumption) (by decide) | split)

theorem mtFlow_frame (src : Nat) (insn : Nat) (priv : Nat) (pc : DWord) (next : DWord) (trap : Option DWord) {s0 t : State} {E : Nat} (h : Fr E s0 t) (hE : Sub 0x28004420a0 E := by exact Sub.of (by assumption) (by decide)) :
    Fr E s0 (mtFlow src insn priv pc next trap t) := by
  unfold mtFlow
  (try dsimp only)
  repeat' (first | with_reducible assumption | with_reducible apply Fr.ite | with_reducible apply mtSync_frame | with_reducible apply State.modMt_frame | with_reducible apply mtTrap_frame | with_reducible apply mtFlush_frame | with_reducible apply mtPacket_frame | with_reducible apply mtBranch_frame | with_reducible apply mtOutcome_frame | with_reducible apply mtTarget_frame | with_reducible exact Sub.of (by assumption) (by decide) | split)

theorem pairStepReq_frame (path : Path) (p : Nat) (eff : CoreEffect) {s0 t : State} {E : Nat} (h : Fr E s0 t) (hE : Sub 0x68084462b1 E := by exact Sub.of (by assumption) (by decide)) :
    Fr E s0 (pairStepReq path p eff t) := by
  unfold pairStepReq
  (try dsimp only)
  repeat' (first | with_reducible assumption | with_reducible apply Fr.ite | with_reducible apply wref_frame | with_reducible apply pairResume_frame | with_reducible apply busWrite_frame | with_reducible apply State.modPair_frame | with_reducible apply State.fset_frame | with_reducible apply mtWatch_frame | with_reducible apply mtFlow_frame | with_reducible apply mtHalt_frame | with_reducible apply State.raise_frame | with_reducible apply xtInput_frame | with_reducible apply Fr.foldl | (intro _ _ _) | (intro _ _) | with_reducible exact Sub.of (by assumption) (by decide) | with_reducible exact Sub.bit (by assumption) (by decide) | (rw [F.DBG_PAIR_PRIV_block]; exact Sub.bit (by assumption) (by decide)) | split)

theorem freeStep_frame (path : Path) (p : Nat) {s0 t : State} {E : Nat} (h : Fr E s0 t) (hE : Sub 0x68084462b1 E := by exact Sub.of (by assumption) (by decide)) :
    Fr E s0 (freeStep path p t) := by
  unfold freeStep
  (try dsimp only)
  repeat' (first | with_reducible assumption | with_reducible exact Or.inr (Sub.bit (by assumption) (by decide)) | with_reducible exact Or.inl rfl | with_reducible rfl | with_reducible apply Fr.ite | with_reducible apply pairStepReq_frame | with_reducible apply State.modPair_frame | (simp only [Fr.mk_eq]; with_reducible apply FrF.upd) | with_reducible exact Sub.of (by assumption) (by decide) | split)

theorem pairResumeReq_frame (path : Path) (p : Nat) {s0 t : State} {E : Nat} (h : Fr E s0 t) (hE : Sub 0x68004420a0 E := by exact Sub.of (by assumption) (by decide)) :
    Fr E s0 (pairResumeReq path p t) := by
  unfold pairResumeReq
  (try dsimp only)
  repeat' (first | with_reducible assumption | with_reducible apply Fr.ite | with_reducible apply wref_frame | with_reducible apply pairResume_frame | with_reducible exact Sub.of (by assumption) (by decide) | split)

theorem pairHalt_frame (p : Nat) (cause : HaltCause) {s0 t : State} {E : Nat} (h : Fr E s0 t) (hE : Sub 0x4000400000 E := by exact Sub.of (by assumption) (by decide)) :
    Fr E s0 (pairHalt p cause t) := by
  unfold pairHalt
  (try dsimp only)
  repeat' (first | with_reducible assumption | with_reducible apply Fr.ite | with_reducible apply wref_frame | with_reducible apply pairHaltReq_frame | with_reducible exact Sub.of (by assumption) (by decide) | split)

theorem writePair_frame (req : Requester) (p : Nat) (w : Word) {s0 t : State} {E : Nat} (h : Fr E s0 t) (hE : Sub 0x68084462b1 E := by exact Sub.of (by assumption) (by decide)) :
    Fr E s0 (writePair req p w t) := by
  unfold writePair
  (try dsimp only)
  repeat' (first | with_reducible assumption | with_reducible apply Fr.ite | with_reducible apply wref_frame | with_reducible apply freeStep_frame | with_reducible apply pairResumeReq_frame | with_reducible apply pairHalt_frame | with_reducible exact Sub.of (by assumption) (by decide) | split)

theorem writeDbgReg_frame (req : Requester) (o : Nat) (a : Nat) (r : RRow) (w : Word) {s0 t : State} {E : Nat} (h : Fr E s0 t) (hE : Sub 0xffffcf7eb1 E := by exact Sub.of (by assumption) (by decide)) :
    Fr E s0 (writeDbgReg req o a r w t) := by
  unfold writeDbgReg
  (try dsimp only)
  repeat' (first | with_reducible assumption | with_reducible apply Fr.ite | with_reducible apply atLevel_frame | with_reducible apply sleepEnd_frame | with_reducible apply plainWrite_frame | with_reducible apply writeAuth_frame | with_reducible apply writeRun_frame | with_reducible apply wref_frame | with_reducible apply writeArr_frame | with_reducible apply writePair_frame | with_reducible exact Sub.of (by assumption) (by decide) | split)

theorem regEffect_frame (req : Requester) (a : Nat) (r : RRow) (w : Word) {s0 t : State} {E : Nat} (h : Fr E s0 t) (hE : Sub 0xffffffffbd E := by exact Sub.of (by assumption) (by decide)) :
    Fr E s0 (regEffect req a r w t).2 := by
  unfold regEffect
  (try dsimp only)
  repeat' (first | with_reducible assumption | with_reducible apply Fr.ite | with_reducible apply writePltReg_frame | with_reducible apply writeSecReg_frame | with_reducible apply writeMgtReg_frame | with_reducible apply writeHifReg_frame | with_reducible apply writeNocReg_frame | with_reducible apply writeSeqReg_frame | with_reducible apply writeSchReg_frame | with_reducible apply writeClsReg_frame | with_reducible apply plainWrite_frame | with_reducible apply writeFabReg_frame | with_reducible apply writeLnkReg_frame | with_reducible apply devnumWrite_frame | with_reducible apply writeMemReg_frame | with_reducible apply writeRimReg_frame | with_reducible apply writeCapReg_frame | with_reducible apply writeDbgReg_frame | with_reducible exact Sub.of (by assumption) (by decide) | split)

theorem regWriteWord_frame (eng : Word → State → Except Fault State) (req : Requester) (a : Nat) (w : Word) {s0 t u : State} {E : Nat} {rv} (heng : ∀ (w : Word) (x y : State), Fr E s0 x → eng w x = .ok y → Fr E s0 y) (h : Fr E s0 t)
    (e : regWriteWord eng req a w t = .ok (rv, u)) (hE : Sub 0xffffffffbd E := by exact Sub.of (by assumption) (by decide)) : Fr E s0 u := by
  unfold regWriteWord at e
  split at e
  · obtain ⟨y, hy, e⟩ := exc_map e
    cases e; exact mbxRegWrite_frame _ _ _ h hy
  · split at e
    · cases e; exact msixWrite_frame _ _ h
    · split at e
      · cases e; exact h
      · split at e
        · cases e
        · split at e
          · cases e
          · split at e
            · obtain ⟨y, hy, e⟩ := exc_map e
              cases e; exact heng _ _ _ h hy
            · exact ok_frame e (regEffect_frame _ _ _ _ h)

theorem aliasWrite_frame (eng : Word → State → Except Fault State) (req : Requester) (a : Nat) (v : Bool) {s0 t u : State} {E : Nat} {rv} (heng : ∀ (w : Word) (x y : State), Fr E s0 x → eng w x = .ok y → Fr E s0 y) (h : Fr E s0 t)
    (e : aliasWrite eng req a v t = .ok (rv, u)) (hE : Sub 0xffffffffbd E := by exact Sub.of (by assumption) (by decide)) : Fr E s0 u := by
  unfold aliasWrite at e
  dsimp only at e
  split at e
  · cases e; exact msixWrite_frame _ _ h
  · split at e
    · cases e; exact h
    · split at e
      · cases e; exact h
      · split at e
        · exact regWriteWord_frame _ _ _ _ heng h e
        · split at e
          · exact regWriteWord_frame _ _ _ _ heng h e
          · cases e; exact h
        · split at e
          · cases e; exact h
          · split at e
            · cases e; exact seqCtl_frame _ _ h
            · exact regWriteWord_frame _ _ _ _ heng h e
        · cases e; exact h

theorem arrDeferred_frame {s0 t : State} {E : Nat} (h : Fr E s0 t) (hE : Sub 0x4000080400 E := by exact Sub.of (by assumption) (by decide)) :
    Fr E s0 (arrDeferred t) := by
  unfold arrDeferred
  (try dsimp only)
  repeat' (first | with_reducible assumption | with_reducible apply Fr.ite | with_reducible apply arrRun_frame | with_reducible exact Sub.of (by assumption) (by decide) | split)

theorem arrGoVal_frame (a : ArrOp) {s0 t : State} {E : Nat} (h : Fr E s0 t) (hE : Sub 0x4000080400 E := by exact Sub.of (by assumption) (by decide)) :
    Fr E s0 (arrGoVal a t) := by
  unfold arrGoVal
  (try dsimp only)
  repeat' (first | with_reducible assumption | with_reducible apply Fr.ite | with_reducible apply arrGo_frame | with_reducible apply State.fset_frame | with_reducible exact Sub.of (by assumption) (by decide) | with_reducible exact Sub.bit (by assumption) (by decide) | split)

theorem nocRead_frame (kind : Nat) (a : Nat) (n : Nat) {s0 t : State} {E : Nat} (h : Fr E s0 t) (hE : Sub 0x800402080 E := by exact Sub.of (by assumption) (by decide)) :
    Fr E s0 (nocRead kind a n t).2.2 := by
  unfold nocRead
  refine Fr.foldl_of (g := fun r : List Byte × Bool × State => r.2.2) (t := ([], true, t)) (fun r p hr => ?_) h
  exact userRead_frame (0x100 + kind) p.1 p.2 hr

theorem portRead_frame (kind : Nat) (a : Nat) (n : Nat) {s0 t : State} {E : Nat} (h : Fr E s0 t) (hE : Sub 0x8004020a0 E := by exact Sub.of (by assumption) (by decide)) :
    Fr E s0 (portRead kind a n t).2.2 := by
  unfold portRead
  (try dsimp only)
  repeat' (first | with_reducible assumption | with_reducible apply nocRead_frame | with_reducible apply lexWait_frame | with_reducible exact Sub.of (by assumption) (by decide))

theorem svcBytes_frame (a : Nat) (n : Nat) (host : List Byte) {s0 t : State} {E : Nat} (h : Fr E s0 t) (hE : Sub 0x8004020a1 E := by exact Sub.of (by assumption) (by decide)) :
    Fr E s0 (svcBytes a n host t).2 := by
  unfold svcBytes
  (try dsimp only)
  repeat' (first | with_reducible assumption | with_reducible apply Fr.ite | with_reducible apply portRead_frame | with_reducible apply State.emit_frame | with_reducible exact Sub.of (by assumption) (by decide) | split)

theorem busWriteAll_frame (m : Master) (a : Nat) (bs : List Byte) {s0 t : State} {E : Nat} (h : Fr E s0 t) (hE : Sub 0x8084020a1 E := by exact Sub.of (by assumption) (by decide)) :
    Fr E s0 (busWriteAll m a bs t).2 := by
  unfold busWriteAll
  refine Fr.foldl_of (g := fun r : Nat × State => r.2) (fun r _ hr => ?_) h
  split
  · exact hr
  · exact busWrite_frame _ _ _ hr

theorem attest_frame (slot : Nat) (nonce : List Byte) {s0 t : State} {E : Nat} (h : Fr E s0 t) (hE : Sub 0x8084020b1 E := by exact Sub.of (by assumption) (by decide)) :
    Fr E s0 (attest slot nonce t) := by
  unfold attest
  (try dsimp only)
  repeat' (first | with_reducible assumption | with_reducible apply Fr.ite | with_reducible apply svcBytes_frame | with_reducible apply State.freshNat_frame | with_reducible apply busWriteAll_frame | with_reducible apply svcRespond_frame | with_reducible exact Sub.of (by assumption) (by decide) | split)

theorem avsClear_frame {s0 t : State} {E : Nat} (h : Fr E s0 t) (hE : Sub 0x3000081 E := by exact Sub.of (by assumption) (by decide)) :
    Fr E s0 (avsClear t) := by
  unfold avsClear
  (try dsimp only)
  repeat' (first | with_reducible assumption | with_reducible exact Or.inr (Sub.bit (by assumption) (by decide)) | with_reducible exact Or.inl rfl | with_reducible rfl | with_reducible apply throttleApply_frame | (simp only [Fr.mk_eq]; with_reducible apply FrF.upd) | with_reducible exact Sub.of (by assumption) (by decide))

theorem avsFail_frame (kind : Nat) (measured : Nat) {s0 t : State} {E : Nat} (h : Fr E s0 t) (hE : Sub 0x3000081 E := by exact Sub.of (by assumption) (by decide)) :
    Fr E s0 (avsFail kind measured t) := by
  unfold avsFail
  (try dsimp only)
  repeat' (first | with_reducible assumption | with_reducible exact Or.inr (Sub.bit (by assumption) (by decide)) | with_reducible exact Or.inl rfl | with_reducible rfl | with_reducible apply Fr.ite | with_reducible apply State.raise_frame | with_reducible apply throttleApply_frame | (simp only [Fr.mk_eq]; with_reducible apply FrF.upd) | with_reducible exact Sub.of (by assumption) (by decide) | with_reducible exact Sub.bit (by assumption) (by decide) | split)

theorem bankChecked_frame (b : Nat) (key : Nat) (openMask : Nat) {s0 t : State} {E : Nat} (h : Fr E s0 t) (hE : Sub 0x1000020080 E := by exact Sub.of (by assumption) (by decide)) :
    Fr E s0 (bankChecked b key openMask t) := by
  unfold bankChecked
  (try dsimp only)
  repeat' (first | with_reducible assumption | with_reducible apply Fr.ite | with_reducible apply rimIoRaise_frame | with_reducible apply State.fset_frame | with_reducible apply State.modBank_frame | with_reducible apply bankReport_frame | with_reducible exact Sub.of (by assumption) (by decide) | with_reducible exact Sub.bit (by assumption) (by decide) | (rw [F.RIM_IOSTAT_RESULT_block]; exact Sub.bit (by assumption) (by decide)) | split)

theorem bankEdge_frame (ts : List Nat) (s0_ : State) (b : Nat) {s0 t : State} {E : Nat} (hs0_ : Fr E s0 s0_) (h : Fr E s0 t) (hE : Sub 0x20000 E := by exact Sub.of (by assumption) (by decide)) :
    Fr E s0 (bankEdge ts s0_ t b) := by
  unfold bankEdge
  (try dsimp only)
  repeat' (first | with_reducible assumption | with_reducible apply Fr.ite | with_reducible apply State.modBank_frame | with_reducible apply Fr.foldl | (intro _ _ _) | (intro _ _) | with_reducible exact Sub.of (by assumption) (by decide) | split)

theorem hostWriteErr_frame (bar : Nat) (off : Nat) (st : Nat) {s0 t : State} {E : Nat} (h : Fr E s0 t) (hE : Sub 0x10000080 E := by exact Sub.of (by assumption) (by decide)) :
    Fr E s0 (hostWriteErr bar off st t) := by
  unfold hostWriteErr
  (try dsimp only)
  repeat' (first | with_reducible assumption | with_reducible apply State.raise_frame | with_reducible apply State.count_frame | with_reducible exact Sub.of (by assumption) (by decide) | with_reducible exact Sub.bit (by assumption) (by decide))

theorem nocEnqueue_frame (reply : NocReply) (kind : Nat) (addr : Nat) (size : Nat) (write : Bool) (data : List Byte) {s0 t : State} {E : Nat} (h : Fr E s0 t) (hE : Sub 0x2000 E := by exact Sub.of (by assumption) (by decide)) :
    Fr E s0 (nocEnqueue reply kind addr size write data t) := by
  unfold nocEnqueue
  (try dsimp only)
  repeat' (first | with_reducible assumption | with_reducible exact Or.inr (Sub.bit (by assumption) (by decide)) | with_reducible exact Or.inl rfl | with_reducible rfl | (simp only [Fr.mk_eq]; with_reducible apply FrF.upd))

theorem bar2Packet_frame (off : Nat) (a : Nat) (bs : List Byte) {s0 t : State} {E : Nat} (h : Fr E s0 t) (hE : Sub 0x8184020a1 E := by exact Sub.of (by assumption) (by decide)) :
    Fr E s0 (bar2Packet off a bs t) := by
  unfold bar2Packet
  (try dsimp only)
  repeat' (first | with_reducible assumption | with_reducible apply Fr.ite | with_reducible apply hostWriteErr_frame | with_reducible apply nocEnqueue_frame | with_reducible apply memWrite_frame | with_reducible exact Sub.of (by assumption) (by decide) | split)

theorem hostAnswer_frame (st : Nat) (bs : List Byte) {s0 t : State} {E : Nat} (h : Fr E s0 t) (hE : Sub 0x10000001 E := by exact Sub.of (by assumption) (by decide)) :
    Fr E s0 (hostAnswer st bs t) := by
  unfold hostAnswer
  (try dsimp only)
  repeat' (first | with_reducible assumption | with_reducible apply State.emit_frame | with_reducible apply State.count_frame | with_reducible exact Sub.of (by assumption) (by decide) | with_reducible exact Sub.bit (by assumption) (by decide) | split)

theorem memRead_frame (m : Master) (a : Nat) (n : Nat) {s0 t : State} {E : Nat} (h : Fr E s0 t) (hE : Sub 0x8084020b1 E := by exact Sub.of (by assumption) (by decide)) :
    Fr E s0 (memRead m a n t).2.2 := by
  unfold memRead
  (try dsimp only)
  repeat' (first | with_reducible assumption | with_reducible apply Fr.ite | with_reducible apply portRead_frame | with_reducible apply State.freshBytes_frame | with_reducible apply State.hostStatus_frame | with_reducible apply State.emit_frame | with_reducible apply sramUe_frame | with_reducible exact Sub.of (by assumption) (by decide) | split)

theorem busRead_frame (m : Master) (a : Nat) (n : Nat) {s0 t : State} {E : Nat} (h : Fr E s0 t) (hE : Sub 0x8084020b1 E := by exact Sub.of (by assumption) (by decide)) :
    Fr E s0 (busRead m a n t).2.2 := by
  unfold busRead
  (try dsimp only)
  repeat' (first | with_reducible assumption | with_reducible apply memRead_frame | with_reducible exact Sub.of (by assumption) (by decide) | split)

theorem busReadAll_frame (m : Master) (a : Nat) (n : Nat) {s0 t : State} {E : Nat} (h : Fr E s0 t) (hE : Sub 0x8084020b1 E := by exact Sub.of (by assumption) (by decide)) :
    Fr E s0 (busReadAll m a n t).2.2 := by
  unfold busReadAll
  refine Fr.foldl_of (g := fun r : Nat × List Byte × State => r.2.2) (fun r _ hr => ?_) h
  dsimp only
  split
  · exact hr
  · exact busRead_frame _ _ _ hr

theorem bar2Read_frame (off : Nat) (size : Nat) {s0 t : State} {E : Nat} (h : Fr E s0 t) (hE : Sub 0x8184020b1 E := by exact Sub.of (by assumption) (by decide)) :
    Fr E s0 (bar2Read off size t) := by
  unfold bar2Read
  (try dsimp only)
  repeat' (first | with_reducible assumption | with_reducible apply Fr.ite | with_reducible apply hostAnswer_frame | with_reducible apply nocEnqueue_frame | with_reducible apply busReadAll_frame | with_reducible apply Fr.foldl | (intro _ _ _) | (intro _ _) | with_reducible exact Sub.of (by assumption) (by decide) | split)

theorem bar2Write_frame (off : Nat) (data : List Byte) {s0 t : State} {E : Nat} (h : Fr E s0 t) (hE : Sub 0x8184020a1 E := by exact Sub.of (by assumption) (by decide)) :
    Fr E s0 (bar2Write off data t) := by
  unfold bar2Write
  (try dsimp only)
  repeat' (first | with_reducible assumption | with_reducible apply hostWriteErr_frame | with_reducible apply bar2Packet_frame | with_reducible apply Fr.foldl | (intro _ _ _) | (intro _ _) | with_reducible exact Sub.of (by assumption) (by decide) | split)

theorem bootDone_frame (j : LoadJob) {s0 t : State} {E : Nat} (h : Fr E s0 t) (hE : Sub 0x8400020 E := by exact Sub.of (by assumption) (by decide)) :
    Fr E s0 (bootDone j t) := by
  unfold bootDone
  (try dsimp only)
  repeat' (first | with_reducible assumption | with_reducible exact Or.inr (Sub.bit (by assumption) (by decide)) | with_reducible exact Or.inl rfl | with_reducible rfl | with_reducible apply State.store_frame | with_reducible apply State.fset_frame | with_reducible apply State.modPair_frame | (simp only [Fr.mk_eq]; with_reducible apply FrF.upd) | with_reducible exact Sub.of (by assumption) (by decide) | with_reducible exact Sub.bit (by assumption) (by decide) | split)

theorem bootFail_frame (code : Nat) {s0 t : State} {E : Nat} (h : Fr E s0 t) (hE : Sub 0x80410090 E := by exact Sub.of (by assumption) (by decide)) :
    Fr E s0 (bootFail code t) := by
  unfold bootFail
  (try dsimp only)
  repeat' (first | with_reducible assumption | with_reducible exact Or.inr (Sub.bit (by assumption) (by decide)) | with_reducible exact Or.inl rfl | with_reducible rfl | with_reducible apply Fr.ite | with_reducible apply State.fset_frame | with_reducible apply bootRead_frame | with_reducible apply State.freshNat_frame | with_reducible apply State.raise_frame | (simp only [Fr.mk_eq]; with_reducible apply FrF.upd) | with_reducible exact Sub.of (by assumption) (by decide) | with_reducible exact Sub.bit (by assumption) (by decide) | split)

theorem bootFailCode_frame (k : Nat) {s0 t : State} {E : Nat} (h : Fr E s0 t) (hE : Sub 0x10 E := by exact Sub.of (by assumption) (by decide)) :
    Fr E s0 (bootFailCode k t).2 := by
  unfold bootFailCode
  (try dsimp only)
  repeat' (first | with_reducible assumption | with_reducible apply State.pick_frame | with_reducible exact Sub.of (by assumption) (by decide) | split)

theorem loadRaise_frame (k : Nat) (payload : List Nat) {s0 t : State} {E : Nat} (h : Fr E s0 t) (hE : Sub 0x80000080 E := by exact Sub.of (by assumption) (by decide)) :
    Fr E s0 (loadRaise k payload t) := by
  unfold loadRaise
  refine State.raise_frame _ _ _ _ h ?_ (Sub.bit hE (by decide))
  rw [Fld.block_low (m := 6) (by simp only [Fld.key]; omega) (by decide)]
  exact Sub.bit hE (by decide)

theorem bootRefuse_frame (slot : Nat) (r : Nat × Option (List Nat)) {s0 t : State} {E : Nat} (h : Fr E s0 t) (hE : Sub 0x88400090 E := by exact Sub.of (by assumption) (by decide)) :
    Fr E s0 (bootRefuse slot r t) := by
  unfold bootRefuse
  (try dsimp only)
  repeat' (first | with_reducible assumption | with_reducible apply svcRespond_frame | with_reducible apply loadRaise_frame | with_reducible apply State.freshNat_frame | with_reducible exact Sub.of (by assumption) (by decide) | split)

theorem keyxAbort_frame {s0 t : State} {E : Nat} (h : Fr E s0 t) (hE : Sub 0x4000080080 E := by exact Sub.of (by assumption) (by decide)) :
    Fr E s0 (keyxAbort t) := by
  unfold keyxAbort
  (try dsimp only)
  repeat' (first | with_reducible assumption | with_reducible apply keyxEnd_frame | with_reducible exact Sub.of (by assumption) (by decide) | split)

theorem bootTimeout_frame {s0 t : State} {E : Nat} (h : Fr E s0 t) (hE : Sub 0x4080490090 E := by exact Sub.of (by assumption) (by decide)) :
    Fr E s0 (bootTimeout t) := by
  unfold bootTimeout
  (try dsimp only)
  repeat' (first | with_reducible assumption | with_reducible apply Fr.ite | with_reducible apply bootFail_frame | with_reducible apply keyxAbort_frame | with_reducible apply State.modPair_frame | with_reducible exact Sub.of (by assumption) (by decide) | split)

theorem busMaster_frame (on : Bool) {s0 t : State} {E : Nat} (h : Fr E s0 t) (hE : Sub 0x200001 E := by exact Sub.of (by assumption) (by decide)) :
    Fr E s0 (busMaster on t) := by
  unfold busMaster
  (try dsimp only)
  repeat' (first | with_reducible assumption | with_reducible exact Or.inr (Sub.bit (by assumption) (by decide)) | with_reducible exact Or.inl rfl | with_reducible rfl | with_reducible apply Fr.ite | with_reducible apply signal_frame | (simp only [Fr.mk_eq]; with_reducible apply FrF.upd) | with_reducible apply Fr.foldl | (intro _ _ _) | (intro _ _) | with_reducible exact Sub.of (by assumption) (by decide) | split)

theorem calEnd_frame (k : Nat) (ok : Bool) (lanes : Nat) (ns : Nat) {s0 t : State} {E : Nat} (h : Fr E s0 t) (hE : Sub 0x802000080 E := by exact Sub.of (by assumption) (by decide)) :
    Fr E s0 (calEnd k ok lanes ns t) := by
  unfold calEnd
  (try dsimp only)
  repeat' (first | with_reducible assumption | with_reducible apply Fr.ite | with_reducible apply State.raise_frame | with_reducible apply State.fset_frame | with_reducible exact Sub.of (by assumption) (by decide) | with_reducible exact Sub.bit (by assumption) (by decide) | split)

theorem calSlice_frame (k : Nat) {s0 t : State} {E : Nat} (h : Fr E s0 t) (hE : Sub 0x801000000 E := by exact Sub.of (by assumption) (by decide)) :
    Fr E s0 (calSlice k t) := by
  unfold calSlice
  (try dsimp only)
  repeat' (first | with_reducible assumption | with_reducible apply Fr.ite | with_reducible apply calStart_frame | with_reducible exact Sub.of (by assumption) (by decide) | split)

theorem rotate_frame (l : Nat) {s0 t : State} {E : Nat} (h : Fr E s0 t) (hE : Sub 0x402004080 E := by exact Sub.of (by assumption) (by decide)) :
    Fr E s0 (rotate l t) := by
  unfold rotate
  (try dsimp only)
  repeat' (first | with_reducible assumption | with_reducible apply Fr.ite | with_reducible apply State.raise_frame | with_reducible apply State.modLink_frame | with_reducible apply ctlPut_frame | with_reducible apply sparingStart_frame | with_reducible exact Sub.of (by assumption) (by decide) | with_reducible exact Sub.bit (by assumption) (by decide) | split)

theorem calSchedule_frame (kind : CalKind) {s0 t : State} {E : Nat} (h : Fr E s0 t) (hE : Sub 0xc03004080 E := by exact Sub.of (by assumption) (by decide)) :
    Fr E s0 (calSchedule kind t) := by
  unfold calSchedule
  (try dsimp only)
  repeat' (first | with_reducible assumption | with_reducible exact Or.inr (Sub.bit (by assumption) (by decide)) | with_reducible exact Or.inl rfl | with_reducible rfl | with_reducible apply Fr.ite | with_reducible apply calSlice_frame | with_reducible apply rotate_frame | (simp only [Fr.mk_eq]; with_reducible apply FrF.upd) | with_reducible exact Sub.of (by assumption) (by decide) | split)

theorem engineEnd_frame (write : Bool) (code : Nat) (d : Word) {s0 t : State} {E : Nat} (h : Fr E s0 t) (hE : Sub 0x4000000000 E := by exact Sub.of (by assumption) (by decide)) :
    Fr E s0 (engineEnd write code d t) := by
  unfold engineEnd
  (try dsimp only)
  repeat' (first | with_reducible assumption | with_reducible apply Fr.ite | with_reducible apply State.fset_frame | with_reducible exact Sub.of (by assumption) (by decide) | with_reducible exact Sub.bit (by assumption) (by decide) | split)

theorem tapEnd_frame (write : Bool) (code : Nat) (d : Word) {s0 t : State} {E : Nat} (h : Fr E s0 t) (hE : Sub 0x80000 E := by exact Sub.of (by assumption) (by decide)) :
    Fr E s0 (tapEnd write code d t) := by
  unfold tapEnd
  (try dsimp only)
  repeat' (first | with_reducible assumption | with_reducible exact Or.inr (Sub.bit (by assumption) (by decide)) | with_reducible exact Or.inl rfl | with_reducible rfl | with_reducible apply Fr.ite | (simp only [Fr.mk_eq]; with_reducible apply FrF.upd) | split)

theorem nocAnswer_frame (x : NocAcc) (st : Nat) (bs : List Byte) {s0 t : State} {E : Nat} (h : Fr E s0 t) (hE : Sub 0x4010180081 E := by exact Sub.of (by assumption) (by decide)) :
    Fr E s0 (nocAnswer x st bs t) := by
  unfold nocAnswer
  (try dsimp only)
  repeat' (first | with_reducible assumption | with_reducible apply Fr.ite | with_reducible apply hostWriteErr_frame | with_reducible apply hostAnswer_frame | with_reducible apply nocPump_frame | with_reducible apply send_frame | with_reducible apply engineEnd_frame | with_reducible apply tapEnd_frame | with_reducible exact Sub.of (by assumption) (by decide) | split)

theorem calSliceEnd_frame (k : Nat) (ok : Bool) (lanes : Nat) (ns : Nat) {s0 t : State} {E : Nat} (h : Fr E s0 t) (hE : Sub 0x48125820a1 E := by exact Sub.of (by assumption) (by decide)) :
    Fr E s0 (calSliceEnd k ok lanes ns t) := by
  unfold calSliceEnd
  (try dsimp only)
  repeat' (first | with_reducible assumption | with_reducible exact Or.inr (Sub.bit (by assumption) (by decide)) | with_reducible exact Or.inl rfl | with_reducible rfl | with_reducible apply Fr.ite | with_reducible apply calEnd_frame | with_reducible apply nocWrite_frame | with_reducible apply nocAnswer_frame | with_reducible apply nocRead_frame | (simp only [Fr.mk_eq]; with_reducible apply FrF.upd) | with_reducible apply Fr.foldl | (intro _ _ _) | (intro _ _) | with_reducible exact Sub.of (by assumption) (by decide) | split)

theorem calTick_frame {s0 t : State} {E : Nat} (h : Fr E s0 t) (hE : Sub 0x400040 E := by exact Sub.of (by assumption) (by decide)) :
    Fr E s0 (calTick t) := by
  unfold calTick
  (try dsimp only)
  repeat' (first | with_reducible assumption | with_reducible exact Or.inr (Sub.bit (by assumption) (by decide)) | with_reducible exact Or.inl rfl | with_reducible rfl | with_reducible apply Fr.ite | with_reducible apply State.flashWrite_frame | (simp only [Fr.mk_eq]; with_reducible apply FrF.upd) | with_reducible exact Sub.of (by assumption) (by decide) | split)

theorem capOverflow_frame (mt : Bool) {s0 t : State} {E : Nat} (h : Fr E s0 t) (hE : Sub 0x2000040080 E := by exact Sub.of (by assumption) (by decide)) :
    Fr E s0 (capOverflow mt t) := by
  unfold capOverflow
  (try dsimp only)
  repeat' (first | with_reducible assumption | with_reducible apply Fr.ite | with_reducible apply State.raise_frame | with_reducible apply State.modMt_frame | with_reducible apply mtSync_frame | with_reducible apply mtPut_frame | with_reducible apply sigOverflow_frame | with_reducible apply Fr.foldl | (intro _ _ _) | (intro _ _) | with_reducible exact Sub.of (by assumption) (by decide) | with_reducible exact Sub.bit (by assumption) (by decide) | split)

theorem sigDrain1_frame {s0 t : State} {E : Nat} (h : Fr E s0 t) (hE : Sub 0x28004420a0 E := by exact Sub.of (by assumption) (by decide)) :
    Fr E s0 (sigDrain1 t) := by
  unfold sigDrain1
  (try dsimp only)
  repeat' (first | with_reducible assumption | with_reducible apply Fr.ite | with_reducible apply State.modSig_frame | with_reducible apply State.fset_frame | with_reducible apply portWrite_frame | with_reducible exact Sub.of (by assumption) (by decide) | with_reducible exact Sub.bit (by assumption) (by decide) | split)

theorem captureDrain_frame {s0 t : State} {E : Nat} (h : Fr E s0 t) (hE : Sub 0x28004420a0 E := by exact Sub.of (by assumption) (by decide)) :
    Fr E s0 (captureDrain t) := by
  unfold captureDrain
  (try dsimp only)
  repeat' (first | with_reducible assumption | with_reducible apply Fr.ite | with_reducible apply sigDrain1_frame | with_reducible apply mtDrain1_frame | with_reducible exact Sub.of (by assumption) (by decide) | split)

theorem crcDrop_frame (r : Nat) (p : Packet) {s0 t : State} {E : Nat} (h : Fr E s0 t) (hE : Sub 0x20000080 E := by exact Sub.of (by assumption) (by decide)) :
    Fr E s0 (crcDrop r p t) := by
  unfold crcDrop
  (try dsimp only)
  repeat' (first | with_reducible assumption | with_reducible apply State.raise_frame | with_reducible apply State.count_frame | with_reducible exact Sub.of (by assumption) (by decide) | with_reducible exact Sub.bit (by assumption) (by decide))

end Sys2Proof.Machine
end

