-- ==== Sys2Proof/Laws/Frame4.lean ====
section
/-! SUPPORT. Frame4.lean: the parts of the state each operation may change, part 4. -/
set_option Elab.async false
namespace Sys2Proof.Machine

theorem routeDrop_frame (r : Nat) (p : Packet) {s0 t : State} {E : Nat} (h : Fr E s0 t) (hE : Sub 0x20000080 E := by exact Sub.of (by assumption) (by decide)) :
    Fr E s0 (routeDrop r p t) := by
  unfold routeDrop
  (try dsimp only)
  repeat' (first | with_reducible assumption | with_reducible apply State.raise_frame | with_reducible apply State.count_frame | with_reducible exact Sub.of (by assumption) (by decide) | with_reducible exact Sub.bit (by assumption) (by decide))

theorem hopFixed_frame (r : Nat) (port : Nat) {s0 t : State} {E : Nat} (h : Fr E s0 t) (hE : Sub 0x20000080 E := by exact Sub.of (by assumption) (by decide)) :
    Fr E s0 (hopFixed r port t) := by
  unfold hopFixed
  (try dsimp only)
  repeat' (first | with_reducible assumption | with_reducible apply Fr.ite | with_reducible apply State.count_frame | with_reducible apply State.raise_frame | with_reducible exact Sub.of (by assumption) (by decide) | with_reducible exact Sub.bit (by assumption) (by decide) | split)

theorem hopUe_frame (r : Nat) (port : Nat) (vc : Nat) (what : Nat) {s0 t : State} {E : Nat} (h : Fr E s0 t) (hE : Sub 0x20000080 E := by exact Sub.of (by assumption) (by decide)) :
    Fr E s0 (hopUe r port vc what t) := by
  unfold hopUe
  (try dsimp only)
  repeat' (first | with_reducible assumption | with_reducible apply State.raise_frame | with_reducible apply State.count_frame | with_reducible exact Sub.of (by assumption) (by decide) | with_reducible exact Sub.bit (by assumption) (by decide))

theorem checkPacket_frame (r : Nat) (p : Packet) (err : HopError) {s0 t : State} {E : Nat} (h : Fr E s0 t) (hE : Sub 0x20000080 E := by exact Sub.of (by assumption) (by decide)) :
    Fr E s0 (checkPacket r p err t).2 := by
  unfold checkPacket
  (try dsimp only)
  repeat' (first | with_reducible assumption | with_reducible apply Fr.ite | with_reducible apply crcDrop_frame | with_reducible apply routeDrop_frame | with_reducible apply hopFixed_frame | with_reducible apply hopUe_frame | with_reducible exact Sub.of (by assumption) (by decide) | split)

theorem slotWrite_frame (a : Nat) (bs : List Byte) {s0 t : State} {E : Nat} (h : Fr E s0 t) (hE : Sub 0x8004020a1 E := by exact Sub.of (by assumption) (by decide)) :
    Fr E s0 (slotWrite a bs t) := by
  unfold slotWrite
  (try dsimp only)
  repeat' (first | with_reducible assumption | with_reducible apply Fr.ite | with_reducible apply State.emit_frame | with_reducible apply nocWrite_frame | with_reducible exact Sub.of (by assumption) (by decide) | split)

theorem ckptComplete_frame (ok : Bool) (failAddr : Nat) {s0 t : State} {E : Nat} (h : Fr E s0 t) (hE : Sub 0x8404022a1 E := by exact Sub.of (by assumption) (by decide)) :
    Fr E s0 (ckptComplete ok failAddr t) := by
  unfold ckptComplete
  (try dsimp only)
  repeat' (first | with_reducible assumption | with_reducible exact Or.inr (Sub.bit (by assumption) (by decide)) | with_reducible exact Or.inl rfl | with_reducible rfl | with_reducible apply Fr.ite | with_reducible apply slotWrite_frame | with_reducible apply State.raise_frame | with_reducible apply State.fset_frame | (simp only [Fr.mk_eq]; with_reducible apply FrF.upd) | with_reducible exact Sub.of (by assumption) (by decide) | with_reducible exact Sub.bit (by assumption) (by decide) | split)

theorem clauseCountsZero_frame (c : Nat) {s0 t : State} {E : Nat} (h : Fr E s0 t) (hE : Sub 0x100002000 E := by exact Sub.of (by assumption) (by decide)) :
    Fr E s0 (clauseCountsZero c t) := by
  unfold clauseCountsZero
  (try dsimp only)
  repeat' (first | with_reducible assumption | with_reducible exact Or.inr (Sub.bit (by assumption) (by decide)) | with_reducible exact Or.inl rfl | with_reducible rfl | with_reducible apply State.fset_frame | (simp only [Fr.mk_eq]; with_reducible apply FrF.upd) | with_reducible apply Fr.foldl | (intro _ _ _) | (intro _ _) | with_reducible exact Sub.of (by assumption) (by decide) | with_reducible exact Sub.bit (by assumption) (by decide) | (rw [F.CLS_CNT_CHECK_COUNT_block]; exact Sub.bit (by assumption) (by decide)) | (rw [F.CLS_CNT_CHKDROP_COUNT_block]; exact Sub.bit (by assumption) (by decide)) | (rw [F.CLS_CNT_CQPAR_COUNT_block]; exact Sub.bit (by assumption) (by decide)) | (rw [F.CLS_CNT_DFIX_COUNT_block]; exact Sub.bit (by assumption) (by decide)) | (rw [F.CLS_CNT_DUE_COUNT_block]; exact Sub.bit (by assumption) (by decide)) | (rw [F.CLS_CNT_VSPAR_COUNT_block]; exact Sub.bit (by assumption) (by decide)) | (rw [F.CLS_PXW_COUNT_block]; exact Sub.bit (by assumption) (by decide)))

theorem forcesGone_frame (c : Nat) {s0 t : State} {E : Nat} (h : Fr E s0 t) (hE : Sub 0x80000 E := by exact Sub.of (by assumption) (by decide)) :
    Fr E s0 (forcesGone c t) := by
  unfold forcesGone
  (try dsimp only)
  repeat' (first | with_reducible assumption | with_reducible exact Or.inr (Sub.bit (by assumption) (by decide)) | with_reducible exact Or.inl rfl | with_reducible rfl | (simp only [Fr.mk_eq]; with_reducible apply FrF.upd))

theorem sliceWrite_frame (xf : Nat) (depth : Nat) (c : Nat) (pc : Nat) (dict : List Byte) (sw : List Byte) (words : List Byte) (reload : Bool) {s0 t : State} {E : Nat} (h : Fr E s0 t) (hE : Sub 0x80400 E := by exact Sub.of (by assumption) (by decide)) :
    Fr E s0 (sliceWrite xf depth c pc dict sw words reload t) := by
  unfold sliceWrite
  (try dsimp only)
  repeat' (first | with_reducible assumption | with_reducible apply Fr.ite | with_reducible apply forcesGone_frame | with_reducible apply State.modClause_frame | with_reducible apply Fr.foldl | (intro _ _ _) | (intro _ _) | with_reducible exact Sub.of (by assumption) (by decide) | split)

theorem clauseLoad_frame (j : LoadJob) (g : Img) (c : Nat) {s0 t u : State} {E : Nat} (h : Fr E s0 t)
    (e : clauseLoad j g c t = .inr u) (hE : Sub 0x100082400 E := by exact Sub.of (by assumption) (by decide)) : Fr E s0 u := by
  unfold clauseLoad at e
  (try dsimp only at e)
  repeat' (split at e)
  all_goals (try cases e)
  all_goals (repeat' (first | with_reducible assumption | with_reducible apply Fr.ite | with_reducible apply sliceWrite_frame | with_reducible apply clauseCountsZero_frame | with_reducible apply State.modClause_frame | with_reducible exact Sub.of (by assumption) (by decide) | split))

theorem clauseUnload_frame (c : Nat) {s0 t : State} {E : Nat} (h : Fr E s0 t) (hE : Sub 0x80400 E := by exact Sub.of (by assumption) (by decide)) :
    Fr E s0 (clauseUnload c t) := by
  unfold clauseUnload
  (try dsimp only)
  repeat' (first | with_reducible assumption | with_reducible apply forcesGone_frame | with_reducible apply State.modClause_frame | with_reducible exact Sub.of (by assumption) (by decide))

theorem ringSignal_frame (r : Nat) {s0 t : State} {E : Nat} (h : Fr E s0 t) (hE : Sub 0x200001 E := by exact Sub.of (by assumption) (by decide)) :
    Fr E s0 (ringSignal r t) := by
  unfold ringSignal
  (try dsimp only)
  repeat' (first | with_reducible assumption | with_reducible apply signal_frame | with_reducible apply State.modRing_frame | with_reducible exact Sub.of (by assumption) (by decide))

theorem coalesceExpire_frame (r : Nat) {s0 t : State} {E : Nat} (h : Fr E s0 t) (hE : Sub 0x200001 E := by exact Sub.of (by assumption) (by decide)) :
    Fr E s0 (coalesceExpire r t) := by
  unfold coalesceExpire
  (try dsimp only)
  repeat' (first | with_reducible assumption | with_reducible apply Fr.ite | with_reducible apply ringSignal_frame | with_reducible exact Sub.of (by assumption) (by decide) | split)

theorem commitRec_frame (r : DirRec) {s0 t : State} {E : Nat} (h : Fr E s0 t) (hE : Sub 0x40 E := by exact Sub.of (by assumption) (by decide)) :
    Fr E s0 (commitRec r t) := by
  unfold commitRec
  (try dsimp only)
  repeat' (first | with_reducible assumption | with_reducible apply Fr.ite | with_reducible apply State.flashErase_frame | with_reducible apply State.flashWrite_frame | with_reducible exact Sub.of (by assumption) (by decide) | split)

theorem protWrite_frame (req : Requester) (off : Nat) {s0 t : State} {E : Nat} (h : Fr E s0 t) (hE : Sub 0x10000081 E := by exact Sub.of (by assumption) (by decide)) :
    Fr E s0 (protWrite req off t) := by
  unfold protWrite
  (try dsimp only)
  repeat' (first | with_reducible assumption | with_reducible apply Fr.ite | with_reducible apply hostWriteErr_frame | with_reducible apply State.emit_frame | with_reducible exact Sub.of (by assumption) (by decide) | split)

theorem ctlOnly_frame (req : Requester) (off : Nat) (f : State → State) {s0 t : State} {E : Nat} (hf : ∀ (u : State), Fr E s0 u → Fr E s0 (f u)) (h : Fr E s0 t) (hE : Sub 0x10000081 E := by exact Sub.of (by assumption) (by decide)) :
    Fr E s0 (ctlOnly req off f t) := by
  unfold ctlOnly
  (try dsimp only)
  repeat' (first | with_reducible assumption | with_reducible apply Fr.ite | with_reducible apply hf | with_reducible apply protWrite_frame | with_reducible apply Fr.foldl | (intro _ _ _) | (intro _ _) | with_reducible exact Sub.of (by assumption) (by decide) | split)

theorem lateFence_frame (f : Nat) (dev : Nat) {s0 t : State} {E : Nat} (h : Fr E s0 t) (hE : Sub 0x68404462b1 E := by exact Sub.of (by assumption) (by decide)) :
    Fr E s0 (lateFence f dev t) := by
  unfold lateFence
  (try dsimp only)
  repeat' (first | with_reducible assumption | with_reducible apply sendFence_frame | with_reducible apply lateStop_frame | with_reducible exact Sub.of (by assumption) (by decide))

theorem receiveFence_frame (f : Nat) (dev : Nat) {s0 t : State} {E : Nat} (h : Fr E s0 t) (hE : Sub 0x68404462b1 E := by exact Sub.of (by assumption) (by decide)) :
    Fr E s0 (receiveFence f dev t) := by
  unfold receiveFence
  (try dsimp only)
  repeat' (first | with_reducible assumption | with_reducible apply Fr.ite | with_reducible apply adoptFence_frame | with_reducible apply lateFence_frame | with_reducible apply sendFence_frame | with_reducible apply State.raise_frame | with_reducible exact Sub.of (by assumption) (by decide) | with_reducible exact Sub.bit (by assumption) (by decide) | split)

theorem fenceWordIn_frame (l : Nat) (dev : Nat) (fence : Nat) {s0 t : State} {E : Nat} (h : Fr E s0 t) (hE : Sub 0x68404462b1 E := by exact Sub.of (by assumption) (by decide)) :
    Fr E s0 (fenceWordIn l dev fence t) := by
  unfold fenceWordIn
  (try dsimp only)
  repeat' (first | with_reducible assumption | with_reducible apply Fr.ite | with_reducible apply receiveFence_frame | with_reducible exact Sub.of (by assumption) (by decide) | split)

theorem linkCompare_frame (l : Nat) {s0 t : State} {E : Nat} (h : Fr E s0 t) (hE : Sub 0x400004080 E := by exact Sub.of (by assumption) (by decide)) :
    Fr E s0 (linkCompare l t) := by
  unfold linkCompare
  (try dsimp only)
  repeat' (first | with_reducible assumption | with_reducible apply Fr.ite | with_reducible apply State.modLink_frame | with_reducible apply State.raise_frame | with_reducible exact Sub.of (by assumption) (by decide) | with_reducible exact Sub.bit (by assumption) (by decide) | (rw [F.LNK_EVT_SLOT_block]; exact Sub.bit (by assumption) (by decide)) | split)

theorem peerItemIn_frame (l : Nat) (item : Nat) (v : Nat) {s0 t : State} {E : Nat} (h : Fr E s0 t) (hE : Sub 0x40000c080 E := by exact Sub.of (by assumption) (by decide)) :
    Fr E s0 (peerItemIn l item v t) := by
  unfold peerItemIn
  (try dsimp only)
  repeat' (first | with_reducible assumption | with_reducible exact Or.inr (Sub.bit (by assumption) (by decide)) | with_reducible exact Or.inl rfl | with_reducible rfl | with_reducible apply Fr.ite | with_reducible apply State.modLink_frame | with_reducible apply linkCompare_frame | (simp only [Fr.mk_eq]; with_reducible apply FrF.upd) | with_reducible exact Sub.of (by assumption) (by decide) | split)

theorem sparingEnd_frame (l : Nat) (ok : Bool) {s0 t : State} {E : Nat} (h : Fr E s0 t) (hE : Sub 0x402004080 E := by exact Sub.of (by assumption) (by decide)) :
    Fr E s0 (sparingEnd l ok t) := by
  unfold sparingEnd
  (try dsimp only)
  repeat' (first | with_reducible assumption | with_reducible apply Fr.ite | with_reducible apply State.raise_frame | with_reducible apply State.fset_frame | with_reducible apply State.modLink_frame | with_reducible apply laneReport_frame | with_reducible apply ctlPut_frame | with_reducible exact Sub.of (by assumption) (by decide) | with_reducible exact Sub.bit (by assumption) (by decide) | (rw [F.LNK_SPARE_GO_block]; exact Sub.bit (by assumption) (by decide)) | (rw [F.LNK_STAT_SPARE_block]; exact Sub.bit (by assumption) (by decide)) | (rw [F.LNK_STAT_SPARE_BUSY_block]; exact Sub.bit (by assumption) (by decide)) | (rw [F.LNK_STAT_SPARE_OK_block]; exact Sub.bit (by assumption) (by decide)) | split)

theorem laneWordIn_frame (l : Nat) (op : Nat) (lane : Nat) {s0 t : State} {E : Nat} (h : Fr E s0 t) (hE : Sub 0x402004080 E := by exact Sub.of (by assumption) (by decide)) :
    Fr E s0 (laneWordIn l op lane t) := by
  unfold laneWordIn
  (try dsimp only)
  repeat' (first | with_reducible assumption | with_reducible apply Fr.ite | with_reducible apply ctlPut_frame | with_reducible apply sparingStart_frame | with_reducible apply State.modLink_frame | with_reducible apply sparingEnd_frame | with_reducible exact Sub.of (by assumption) (by decide) | split)

theorem linkGoBack_frame (l : Nat) (tag : BitVec 16) {s0 t : State} {E : Nat} (h : Fr E s0 t) (hE : Sub 0x4001 E := by exact Sub.of (by assumption) (by decide)) :
    Fr E s0 (linkGoBack l tag t) := by
  unfold linkGoBack
  (try dsimp only)
  repeat' (first | with_reducible assumption | with_reducible apply linkEmit_frame | with_reducible apply Fr.foldl | (intro _ _ _) | (intro _ _) | with_reducible exact Sub.of (by assumption) (by decide))

theorem resumeWordIn_frame (l : Nat) (tag : BitVec 16) {s0 t : State} {E : Nat} (h : Fr E s0 t) (hE : Sub 0x4001 E := by exact Sub.of (by assumption) (by decide)) :
    Fr E s0 (resumeWordIn l tag t) := by
  unfold resumeWordIn
  (try dsimp only)
  repeat' (first | with_reducible assumption | with_reducible apply Fr.ite | with_reducible apply linkGoBack_frame | with_reducible exact Sub.of (by assumption) (by decide) | split)

theorem msgWordIn_frame (l : Nat) (msg : Nat) {s0 t : State} {E : Nat} (h : Fr E s0 t) (hE : Sub 0x400004080 E := by exact Sub.of (by assumption) (by decide)) :
    Fr E s0 (msgWordIn l msg t) := by
  unfold msgWordIn
  (try dsimp only)
  repeat' (first | with_reducible assumption | with_reducible apply Fr.ite | with_reducible apply State.raise_frame | with_reducible apply State.modLink_frame | with_reducible exact Sub.of (by assumption) (by decide) | with_reducible exact Sub.bit (by assumption) (by decide) | (rw [F.LNK_EVT_MSG_block]; exact Sub.bit (by assumption) (by decide)) | split)

theorem ctlWordIn_frame (l : Nat) (v : Nat) (w : BitVec 64) {s0 t : State} {E : Nat} (h : Fr E s0 t) (hE : Sub 0x6c4244e2b1 E := by exact Sub.of (by assumption) (by decide)) :
    Fr E s0 (ctlWordIn l v w t) := by
  unfold ctlWordIn
  (try dsimp only)
  repeat' (first | with_reducible assumption | with_reducible apply fenceWordIn_frame | with_reducible apply peerItemIn_frame | with_reducible apply laneWordIn_frame | with_reducible apply resumeWordIn_frame | with_reducible apply msgWordIn_frame | with_reducible exact Sub.of (by assumption) (by decide) | split)

theorem regWriteWith_frame (eng : Word → State → Except Fault State) (req : Requester) (a : Nat) (size : Nat) (w : DWord) {s0 t u : State} {E : Nat} {rv} (heng : ∀ (w : Word) (x y : State), Fr E s0 x → eng w x = .ok y → Fr E s0 y) (h : Fr E s0 t)
    (e : regWriteWith eng req a size w t = .ok (rv, u)) (hE : Sub 0xffffffffbd E := by exact Sub.of (by assumption) (by decide)) : Fr E s0 u := by
  unfold regWriteWith at e
  split at e
  · cases e; exact h
  · split at e
    · exact aliasWrite_frame _ _ _ _ heng h e
    · split at e
      · cases e; exact msixWrite_frame _ _ (msixWrite_frame _ _ h)
      · exact regWriteWord_frame _ _ _ _ heng h e

theorem engineBusy_frame (w : Word) {s0 t u : State} {E : Nat} (h : Fr E s0 t)
    (e : engineBusy w t = .ok u) (hE : Sub 0x4000000000 E := by exact Sub.of (by assumption) (by decide)) : Fr E s0 u := by
  unfold engineBusy at e
  (try dsimp only at e)
  repeat' (split at e)
  all_goals (try cases e)
  all_goals (repeat' (first | with_reducible assumption | with_reducible apply State.fset_frame | with_reducible exact Sub.of (by assumption) (by decide) | with_reducible exact Sub.bit (by assumption) (by decide)))

theorem regReadWord_frame (req : Requester) (a : Nat) {s0 t : State} {E : Nat} (h : Fr E s0 t) (hE : Sub 0x100 E := by exact Sub.of (by assumption) (by decide)) :
    Fr E s0 (regReadWord req a t).2 := by
  unfold regReadWord
  (try dsimp only)
  repeat' (first | with_reducible assumption | with_reducible apply Fr.ite | with_reducible apply State.setMbx_frame | with_reducible exact Sub.of (by assumption) (by decide) | split)

theorem regRead_frame (req : Requester) (a : Nat) (size : Nat) {s0 t : State} {E : Nat} (h : Fr E s0 t) (hE : Sub 0x100 E := by exact Sub.of (by assumption) (by decide)) :
    Fr E s0 (regRead req a size t).2.2 := by
  unfold regRead
  (try dsimp only)
  repeat' (first | with_reducible assumption | with_reducible apply Fr.ite | with_reducible apply regReadWord_frame | with_reducible exact Sub.of (by assumption) (by decide) | split)

theorem lrBreak_frame (a : Nat) (n : Nat) {s0 t : State} {E : Nat} (h : Fr E s0 t) (hE : Sub 0x400000 E := by exact Sub.of (by assumption) (by decide)) :
    Fr E s0 (lrBreak a n t) := by
  unfold lrBreak
  (try dsimp only)
  repeat' (first | with_reducible assumption | with_reducible apply Fr.ite | with_reducible apply State.modPair_frame | with_reducible apply Fr.foldl | (intro _ _ _) | (intro _ _) | with_reducible exact Sub.of (by assumption) (by decide) | split)

theorem dbgAccess_frame (p : Path) (write : Bool) (addr : Nat) (data : Word) {s0 t u : State} {E : Nat} {rv} (h : Fr E s0 t)
    (e : dbgAccess p write addr data t = .ok (rv, u)) (hE : Sub 0xffffffffbd E := by exact Sub.of (by assumption) (by decide)) : Fr E s0 u := by
  unfold dbgAccess at e
  dsimp only at e
  by_cases h1 : t.level p < (if needsL3 (addr % 2 ^ 48 - addr % 4) then 3 else if write then 2 else 1)
  · rw [if_pos h1] at e; cases e; exact h
  · rw [if_neg h1] at e
    split at e
    · cases e; exact h
    · split at e
      · split at e
        · obtain ⟨y, hy, e⟩ := exc_map e
          have hu : u = y.2 := by rw [Prod.ext_iff] at e; exact e.2.symm
          rw [hu]
          exact regWriteWith_frame _ _ _ _ _ (fun _ _ _ a b => engineBusy_frame _ a b) h hy
        · exact ok_frame e (regRead_frame _ _ _ h)
      · by_cases h2 : (isUser (addr % 2 ^ 48 - addr % 4) && t.memClosed (if write then 2 else 1) (addr % 2 ^ 48 - addr % 4) 4) = true
        · rw [if_pos h2] at e; cases e; exact h
        · rw [if_neg h2] at e
          split at e
          · exact ok_frame e (nocEnqueue_frame _ _ _ _ _ _ (Fr.ite (lrBreak_frame _ _ h) h))
          · split at e
            · exact ok_frame e (Fr.ite (lrBreak_frame _ _ (busWrite_frame _ _ _ h)) (busWrite_frame _ _ _ h))
            · exact ok_frame e (busRead_frame _ _ _ h)

theorem tapSelect_frame (ir : Byte) {s0 t : State} {E : Nat} (h : Fr E s0 t) (hE : Sub 0x4000080080 E := by exact Sub.of (by assumption) (by decide)) :
    Fr E s0 (tapSelect ir t) := by
  unfold tapSelect
  (try dsimp only)
  repeat' (first | with_reducible assumption | with_reducible exact Or.inr (Sub.bit (by assumption) (by decide)) | with_reducible exact Or.inl rfl | with_reducible rfl | with_reducible apply Fr.ite | with_reducible apply State.fsetb_frame | with_reducible apply State.raise_frame | (simp only [Fr.mk_eq]; with_reducible apply FrF.upd) | with_reducible exact Sub.of (by assumption) (by decide) | with_reducible exact Sub.bit (by assumption) (by decide) | split)

theorem dbgacc_frame (write : Bool) (addr : Nat) (data : Word) {s0 t u : State} {E : Nat} (h : Fr E s0 t)
    (e : dbgacc write addr data t = .ok u) (hE : Sub 0xffffffffbd E := by exact Sub.of (by assumption) (by decide)) : Fr E s0 u := by
  unfold dbgacc at e
  dsimp only at e
  have g1 : Fr E s0 (State.emit (tapSelect 0x10#8 t) (.dbgacc (tapSelect 0x10#8 t).dbg.accStat (tapSelect 0x10#8 t).dbg.accData)) :=
    State.emit_frame _ (tapSelect_frame _ h)
  split at e
  · cases e; exact g1
  · obtain ⟨y, hy, rfl⟩ := exc_map e
    have g : Fr E s0 y.2 := dbgAccess_frame _ _ _ _ g1 hy
    split
    · exact tapEnd_frame _ _ _ g
    · simp only [Fr.mk_eq]
      with_reducible apply FrF.upd
      all_goals first | exact Or.inr (Sub.bit hE (by decide)) | with_reducible exact Or.inl rfl | with_reducible rfl | with_reducible assumption

theorem linkBegin_frame (l : Nat) {s0 t : State} {E : Nat} (h : Fr E s0 t) (hE : Sub 0x4000 E := by exact Sub.of (by assumption) (by decide)) :
    Fr E s0 (linkBegin t l) := by
  unfold linkBegin
  (try dsimp only)
  repeat' (first | with_reducible assumption | with_reducible apply State.modLink_frame | with_reducible apply linkTo_frame | with_reducible apply linkTrain_frame | with_reducible exact Sub.of (by assumption) (by decide) | split)

theorem isoEnd_frame {s0 t : State} {E : Nat} (h : Fr E s0 t) (hE : Sub 0x200000c80 E := by exact Sub.of (by assumption) (by decide)) :
    Fr E s0 (isoEnd t) := by
  unfold isoEnd
  (try dsimp only)
  repeat' (first | with_reducible assumption | with_reducible exact Or.inr (Sub.bit (by assumption) (by decide)) | with_reducible exact Or.inl rfl | with_reducible rfl | with_reducible apply Fr.ite | with_reducible apply isoApply_frame | with_reducible apply State.raise_frame | with_reducible apply State.fset_frame | (simp only [Fr.mk_eq]; with_reducible apply FrF.upd) | with_reducible exact Sub.of (by assumption) (by decide) | with_reducible exact Sub.bit (by assumption) (by decide) | split)

theorem unitsOff_frame (p : Nat → Bool) {s0 t : State} {E : Nat} (h : Fr E s0 t) (hE : Sub 0x80011000 E := by exact Sub.of (by assumption) (by decide)) :
    Fr E s0 (unitsOff p t) := by
  unfold unitsOff
  (try dsimp only)
  repeat' (first | with_reducible assumption | with_reducible exact Or.inr (Sub.bit (by assumption) (by decide)) | with_reducible exact Or.inl rfl | with_reducible rfl | with_reducible apply Fr.ite | with_reducible apply State.fset_frame | (simp only [Fr.mk_eq]; with_reducible apply FrF.upd) | with_reducible apply Fr.foldl | (intro _ _ _) | (intro _ _) | with_reducible exact Sub.of (by assumption) (by decide) | with_reducible exact Sub.bit (by assumption) (by decide) | (rw [F.SCH_PU_MODE_block]; exact Sub.bit (by assumption) (by decide)) | split)

theorem designBegin_frame {s0 t : State} {E : Nat} (h : Fr E s0 t) (hE : Sub 0x22c08d7e80 E := by exact Sub.of (by assumption) (by decide)) :
    Fr E s0 (designBegin t) := by
  unfold designBegin
  (try dsimp only)
  repeat' (first | with_reducible assumption | with_reducible exact Or.inr (Sub.bit (by assumption) (by decide)) | with_reducible exact Or.inl rfl | with_reducible rfl | with_reducible apply Fr.ite | with_reducible apply ellipsisClose_frame | with_reducible apply State.fset_frame | with_reducible apply linkBegin_frame | with_reducible apply isoEnd_frame | with_reducible apply unitsOff_frame | with_reducible apply clauseUnload_frame | (simp only [Fr.mk_eq]; with_reducible apply FrF.upd) | with_reducible apply Fr.foldl | (intro _ _ _) | (intro _ _) | with_reducible exact Sub.of (by assumption) (by decide) | with_reducible exact Sub.bit (by assumption) (by decide) | split)

theorem seqTake_frame (h_ : List Byte) (st : SeqState) {s0 t : State} {E : Nat} (h : Fr E s0 t) (hE : Sub 0x40000200 E := by exact Sub.of (by assumption) (by decide)) :
    Fr E s0 (seqTake h_ st t) := by
  unfold seqTake
  (try dsimp only)
  repeat' (first | with_reducible assumption | with_reducible exact Or.inr (Sub.bit (by assumption) (by decide)) | with_reducible exact Or.inl rfl | with_reducible rfl | with_reducible apply State.fset_frame | (simp only [Fr.mk_eq]; with_reducible apply FrF.upd) | with_reducible exact Sub.of (by assumption) (by decide) | with_reducible exact Sub.bit (by assumption) (by decide))

theorem putFrame_frame (a : Nat) (data : Nat) {s0 t : State} {E : Nat} (h : Fr E s0 t) (hE : Sub 0x20000 E := by exact Sub.of (by assumption) (by decide)) :
    Fr E s0 (putFrame a data t) := by
  unfold putFrame
  (try dsimp only)
  repeat' (first | with_reducible assumption | with_reducible exact Or.inr (Sub.bit (by assumption) (by decide)) | with_reducible exact Or.inl rfl | with_reducible rfl | (simp only [Fr.mk_eq]; with_reducible apply FrF.upd))

theorem rimClear_frame (fs : List (Nat × Nat)) {s0 t : State} {E : Nat} (h : Fr E s0 t) (hE : Sub 0x20000 E := by exact Sub.of (by assumption) (by decide)) :
    Fr E s0 (rimClear fs t) := by
  unfold rimClear
  (try dsimp only)
  repeat' (first | with_reducible assumption | with_reducible apply putFrame_frame | with_reducible apply Fr.foldl | (intro _ _ _) | (intro _ _) | with_reducible exact Sub.of (by assumption) (by decide))

theorem loadReport_frame (r : Nat) (what : Nat) {s0 t : State} {E : Nat} (h : Fr E s0 t) (hE : Sub 0x1000000090 E := by exact Sub.of (by assumption) (by decide)) :
    Fr E s0 (loadReport r what t) := by
  unfold loadReport
  (try dsimp only)
  repeat' (first | with_reducible assumption | with_reducible apply Fr.ite | with_reducible apply State.raise_frame | with_reducible apply State.freshNat_frame | with_reducible exact Sub.of (by assumption) (by decide) | with_reducible exact Sub.bit (by assumption) (by decide) | split)

theorem rimPartDone_frame (r : Nat) (what : Nat) {s0 t : State} {E : Nat} (h : Fr E s0 t) (hE : Sub 0x1000020090 E := by exact Sub.of (by assumption) (by decide)) :
    Fr E s0 (rimPartDone r what t) := by
  unfold rimPartDone
  (try dsimp only)
  repeat' (first | with_reducible assumption | with_reducible apply Fr.ite | with_reducible apply loadReport_frame | with_reducible apply regionTo_frame | with_reducible exact Sub.of (by assumption) (by decide) | split)

theorem sliceBlank_frame (c : Nat) {s0 t : State} {E : Nat} (h : Fr E s0 t) (hE : Sub 0x400 E := by exact Sub.of (by assumption) (by decide)) :
    Fr E s0 (sliceBlank c t) := by
  unfold sliceBlank
  (try dsimp only)
  repeat' (first | with_reducible assumption | with_reducible apply State.modClause_frame | with_reducible exact Sub.of (by assumption) (by decide))

theorem loadAbandon_frame (j : LoadJob) (k : Nat) {s0 t : State} {E : Nat} (h : Fr E s0 t) (hE : Sub 0x1080031490 E := by exact Sub.of (by assumption) (by decide)) :
    Fr E s0 (loadAbandon j k t) := by
  unfold loadAbandon
  (try dsimp only)
  repeat' (first | with_reducible assumption | with_reducible apply Fr.ite | with_reducible apply rimClear_frame | with_reducible apply rimPartDone_frame | with_reducible apply sliceBlank_frame | with_reducible apply State.modClause_frame | with_reducible apply unitsOff_frame | with_reducible apply Fr.foldl | (intro _ _ _) | (intro _ _) | with_reducible exact Sub.of (by assumption) (by decide) | split)

theorem spareDecide_frame {s0 t : State} {E : Nat} (h : Fr E s0 t) (hE : Sub 0x100000480 E := by exact Sub.of (by assumption) (by decide)) :
    Fr E s0 (spareDecide t) := by
  unfold spareDecide
  (try dsimp only)
  repeat' (first | with_reducible assumption | with_reducible apply spareGo_frame | with_reducible apply State.modClause_frame | with_reducible apply Fr.foldl | (intro _ _ _) | (intro _ _) | with_reducible exact Sub.of (by assumption) (by decide) | split)

theorem loadRefuse_frame (r : Ref) {s0 t : State} {E : Nat} (h : Fr E s0 t) (hE : Sub 0x1188431490 E := by exact Sub.of (by assumption) (by decide)) :
    Fr E s0 (loadRefuse r t) := by
  unfold loadRefuse
  (try dsimp only)
  repeat' (first | with_reducible assumption | with_reducible exact Or.inr (Sub.bit (by assumption) (by decide)) | with_reducible exact Or.inl rfl | with_reducible rfl | with_reducible apply Fr.ite | with_reducible apply loadAbandon_frame | with_reducible apply State.freshNat_frame | with_reducible apply spareDecide_frame | with_reducible apply State.fset_frame | with_reducible apply loadRaise_frame | with_reducible apply bootFailCode_frame | with_reducible apply bootFail_frame | with_reducible apply svcRespond_frame | (simp only [Fr.mk_eq]; with_reducible apply FrF.upd) | with_reducible exact Sub.of (by assumption) (by decide) | with_reducible exact Sub.bit (by assumption) (by decide) | split)

theorem stageUnit_frame (u : Nat) (addr : Nat) (w : QWord) {s0 t : State} {E : Nat} (h : Fr E s0 t) (hE : Sub 0x80001000 E := by exact Sub.of (by assumption) (by decide)) :
    Fr E s0 (stageUnit u addr w t) := by
  unfold stageUnit
  (try dsimp only)
  repeat' (first | with_reducible assumption | with_reducible exact Or.inr (Sub.bit (by assumption) (by decide)) | with_reducible exact Or.inl rfl | with_reducible rfl | with_reducible apply State.fset_frame | (simp only [Fr.mk_eq]; with_reducible apply FrF.upd) | with_reducible exact Sub.of (by assumption) (by decide) | with_reducible exact Sub.bit (by assumption) (by decide) | (rw [F.SCH_PU_CLAUSE_block]; exact Sub.bit (by assumption) (by decide)) | (rw [F.SCH_PU_INDEX_block]; exact Sub.bit (by assumption) (by decide)) | (rw [F.SCH_PU_KIND_block]; exact Sub.bit (by assumption) (by decide)) | (rw [F.SCH_PU_MODE_block]; exact Sub.bit (by assumption) (by decide)) | (rw [F.SCH_PU_PHASE_block]; exact Sub.bit (by assumption) (by decide)))

theorem stageSet_frame (set : Nat) (a1 : List (Nat × Nat × QWord)) {s0 t u : State} {E : Nat} (h : Fr E s0 t)
    (e : stageSet set a1 t = .inr u) (hE : Sub 0x80011000 E := by exact Sub.of (by assumption) (by decide)) : Fr E s0 u := by
  induction a1 generalizing t with
  | nil => cases e; exact h
  | cons r l ih =>
    obtain ⟨i, a, w⟩ := r
    unfold stageSet at e
    split at e
    · cases e
    · rename_i own _
      refine ih ?_ e
      have g : Fr E s0 (stageUnit own a w t) := stageUnit_frame own a w h
      simp only [Fr.mk_eq]
      with_reducible apply FrF.upd
      all_goals first | exact Or.inr (Sub.bit hE (by decide)) | with_reducible exact Or.inl rfl | with_reducible rfl | with_reducible assumption

theorem stageLoadSets_frame (g : Img) (a1 : List Nat) {s0 t u : State} {E : Nat} (h : Fr E s0 t)
    (e : stageLoadSets g a1 t = .inr u) (hE : Sub 0x80011000 E := by exact Sub.of (by assumption) (by decide)) : Fr E s0 u := by
  induction a1 generalizing t with
  | nil => cases e; exact h
  | cons k l ih =>
    unfold stageLoadSets at e
    split at e
    · cases e
    · exact ih (stageSet_frame _ _ h (by assumption)) e

theorem loadDone_frame (j : LoadJob) {s0 t : State} {E : Nat} (h : Fr E s0 t) (hE : Sub 0x88410090 E := by exact Sub.of (by assumption) (by decide)) :
    Fr E s0 (loadDone j t) := by
  unfold loadDone
  (try dsimp only)
  repeat' (first | with_reducible assumption | with_reducible exact Or.inr (Sub.bit (by assumption) (by decide)) | with_reducible exact Or.inl rfl | with_reducible rfl | with_reducible apply State.fset_frame | with_reducible apply svcRespond_frame | with_reducible apply loadRaise_frame | (simp only [Fr.mk_eq]; with_reducible apply FrF.upd) | with_reducible exact Sub.of (by assumption) (by decide) | with_reducible exact Sub.bit (by assumption) (by decide))

theorem rimPreload_frame (b : Nat) {s0 t : State} {E : Nat} (h : Fr E s0 t) (hE : Sub 0x20000 E := by exact Sub.of (by assumption) (by decide)) :
    Fr E s0 (rimPreload b t) := by
  unfold rimPreload
  (try dsimp only)
  repeat' (first | with_reducible assumption | with_reducible apply Fr.ite | with_reducible apply State.modGroup_frame | with_reducible apply Fr.foldl | (intro _ _ _) | (intro _ _) | with_reducible exact Sub.of (by assumption) (by decide) | split)

theorem linksRelease_frame {s0 t : State} {E : Nat} (h : Fr E s0 t) (hE : Sub 0x400004080 E := by exact Sub.of (by assumption) (by decide)) :
    Fr E s0 (linksRelease t) := by
  unfold linksRelease
  (try dsimp only)
  repeat' (first | with_reducible assumption | with_reducible apply State.modLink_frame | with_reducible apply linkCompare_frame | with_reducible apply Fr.foldl | (intro _ _ _) | (intro _ _) | with_reducible exact Sub.of (by assumption) (by decide))

theorem groupsGate_frame {s0 t : State} {E : Nat} (h : Fr E s0 t) (hE : Sub 0x2d03066420 E := by exact Sub.of (by assumption) (by decide)) :
    Fr E s0 (groupsGate t) := by
  unfold groupsGate
  (try dsimp only)
  repeat' (first | with_reducible assumption | with_reducible exact Or.inr (Sub.bit (by assumption) (by decide)) | with_reducible exact Or.inl rfl | with_reducible rfl | with_reducible apply Fr.ite | with_reducible apply State.fset_frame | with_reducible apply gateDomain_frame | (simp only [Fr.mk_eq]; with_reducible apply FrF.upd) | with_reducible apply Fr.foldl | (intro _ _ _) | (intro _ _) | with_reducible exact Sub.of (by assumption) (by decide) | with_reducible exact Sub.bit (by assumption) (by decide) | split)

theorem designFinish_frame (j : LoadJob) (g : Img) {s0 t : State} {E : Nat} (h : Fr E s0 t) (hE : Sub 0x3dcb4776b0 E := by exact Sub.of (by assumption) (by decide)) :
    Fr E s0 (designFinish j g t) := by
  unfold designFinish
  (try dsimp only)
  repeat' (first | with_reducible assumption | with_reducible exact Or.inr (Sub.bit (by assumption) (by decide)) | with_reducible exact Or.inl rfl | with_reducible rfl | with_reducible apply Fr.ite | with_reducible apply seqTake_frame | with_reducible apply loadRefuse_frame | with_reducible apply patchSwap_frame | with_reducible apply loadDone_frame | with_reducible apply rimPreload_frame | with_reducible apply linksRelease_frame | with_reducible apply groupsGate_frame | (simp only [Fr.mk_eq]; with_reducible apply FrF.upd) | (refine stageLoadSets_frame _ _ ?_ (by assumption) ?_) | with_reducible exact Sub.of (by assumption) (by decide) | split)

theorem dictRewrite_frame (c : Nat) (e : Nat) {s0 t : State} {E : Nat} (h : Fr E s0 t) (hE : Sub 0x400 E := by exact Sub.of (by assumption) (by decide)) :
    Fr E s0 (dictRewrite c e t) := by
  unfold dictRewrite
  (try dsimp only)
  repeat' (first | with_reducible assumption | with_reducible apply State.modClause_frame | with_reducible exact Sub.of (by assumption) (by decide))

theorem dictSweep_frame (c : Nat) (ph : Nat) (e : Nat) {s0 t : State} {E : Nat} (h : Fr E s0 t) (hE : Sub 0x100400480 E := by exact Sub.of (by assumption) (by decide)) :
    Fr E s0 (dictSweep c ph e t) := by
  unfold dictSweep
  (try dsimp only)
  repeat' (first | with_reducible assumption | with_reducible apply Fr.ite | with_reducible apply dictOutcome_frame | with_reducible exact Sub.of (by assumption) (by decide) | split)

theorem rimPartFence_frame (rs : List Nat) {s0 t : State} {E : Nat} (h : Fr E s0 t) (hE : Sub 0x1000020090 E := by exact Sub.of (by assumption) (by decide)) :
    Fr E s0 (rimPartFence rs t) := by
  unfold rimPartFence
  (try dsimp only)
  repeat' (first | with_reducible assumption | with_reducible apply Fr.ite | with_reducible apply loadReport_frame | with_reducible apply regionFence_frame | with_reducible apply Fr.foldl | (intro _ _ _) | (intro _ _) | with_reducible exact Sub.of (by assumption) (by decide) | split)

theorem directoryFrame_frame (f : Frame) (j0 : LoadJob) {s0 t : State} {E : Nat} (h : Fr E s0 t) (hE : Sub 0x1188431490 E := by exact Sub.of (by assumption) (by decide)) :
    Fr E s0 (directoryFrame f j0 t) := by
  unfold directoryFrame
  (try dsimp only)
  repeat' (first | with_reducible assumption | with_reducible exact Or.inr (Sub.bit (by assumption) (by decide)) | with_reducible exact Or.inl rfl | with_reducible rfl | with_reducible apply Fr.ite | with_reducible apply State.setJob_frame | with_reducible apply loadRefuse_frame | with_reducible apply State.freshNat_frame | with_reducible apply rimPartFence_frame | with_reducible apply spareDecide_frame | (simp only [Fr.mk_eq]; with_reducible apply FrF.upd) | with_reducible exact Sub.of (by assumption) (by decide) | split)

theorem dlSwitch_frame (row : Nat) {s0 t : State} {E : Nat} (h : Fr E s0 t) (hE : Sub 0x20100001 E := by exact Sub.of (by assumption) (by decide)) :
    Fr E s0 (dlSwitch row t) := by
  unfold dlSwitch
  (try dsimp only)
  repeat' (first | with_reducible assumption | with_reducible exact Or.inr (Sub.bit (by assumption) (by decide)) | with_reducible exact Or.inl rfl | with_reducible rfl | with_reducible apply Fr.ite | with_reducible apply nocPump_frame | with_reducible apply State.fsetb_frame | (simp only [Fr.mk_eq]; with_reducible apply FrF.upd) | with_reducible exact Sub.of (by assumption) (by decide) | with_reducible exact Sub.bit (by assumption) (by decide) | split)

theorem dmaFail_frame (c : Nat) (err : Nat) (status : Nat) {s0 t : State} {E : Nat} (h : Fr E s0 t) (hE : Sub 0x10200080 E := by exact Sub.of (by assumption) (by decide)) :
    Fr E s0 (dmaFail c err status t) := by
  unfold dmaFail
  (try dsimp only)
  repeat' (first | with_reducible assumption | with_reducible apply Fr.ite | with_reducible apply State.raise_frame | with_reducible apply State.modDma_frame | with_reducible exact Sub.of (by assumption) (by decide) | with_reducible exact Sub.bit (by assumption) (by decide) | split)

theorem dmaDone_frame (c : Nat) (d : List Byte) {s0 t : State} {E : Nat} (h : Fr E s0 t) (hE : Sub 0x10200081 E := by exact Sub.of (by assumption) (by decide)) :
    Fr E s0 (dmaDone c d t) := by
  unfold dmaDone
  (try dsimp only)
  repeat' (first | with_reducible assumption | with_reducible apply Fr.ite | with_reducible apply State.modDma_frame | with_reducible apply State.emit_frame | with_reducible apply signal_frame | with_reducible apply State.raise_frame | with_reducible exact Sub.of (by assumption) (by decide) | with_reducible exact Sub.bit (by assumption) (by decide) | split)

theorem dmaDesc_frame (c : Nat) (d : List Byte) (data : List Byte) {s0 t : State} {E : Nat} (h : Fr E s0 t) (hE : Sub 0x8186020b1 E := by exact Sub.of (by assumption) (by decide)) :
    Fr E s0 (dmaDesc c d data t) := by
  unfold dmaDesc
  (try dsimp only)
  repeat' (first | with_reducible assumption | with_reducible apply Fr.ite | with_reducible apply State.emit_frame | with_reducible apply dmaFail_frame | with_reducible apply busWriteAll_frame | with_reducible apply dmaDone_frame | with_reducible apply busReadAll_frame | with_reducible exact Sub.of (by assumption) (by decide) | split)

theorem doorbellErr_frame (off : Nat) (w : Word) {s0 t : State} {E : Nat} (h : Fr E s0 t) (hE : Sub 0x10000080 E := by exact Sub.of (by assumption) (by decide)) :
    Fr E s0 (doorbellErr off w t) := by
  unfold doorbellErr
  (try dsimp only)
  repeat' (first | with_reducible assumption | with_reducible apply State.raise_frame | with_reducible apply State.count_frame | with_reducible exact Sub.of (by assumption) (by decide) | with_reducible exact Sub.bit (by assumption) (by decide))

theorem dmaDoorbell_frame (c : Nat) (w : Word) {s0 t : State} {E : Nat} (h : Fr E s0 t) (hE : Sub 0x10200080 E := by exact Sub.of (by assumption) (by decide)) :
    Fr E s0 (dmaDoorbell c w t) := by
  unfold dmaDoorbell
  (try dsimp only)
  repeat' (first | with_reducible assumption | with_reducible apply Fr.ite | with_reducible apply doorbellErr_frame | with_reducible apply State.modDma_frame | with_reducible exact Sub.of (by assumption) (by decide) | split)

theorem hbmReady_frame (k : Nat) {s0 t : State} {E : Nat} (h : Fr E s0 t) (hE : Sub 0x800000000 E := by exact Sub.of (by assumption) (by decide)) :
    Fr E s0 (hbmReady k t) := by
  unfold hbmReady
  (try dsimp only)
  repeat' (first | with_reducible assumption | with_reducible apply Fr.ite | with_reducible apply State.fset_frame | with_reducible exact Sub.of (by assumption) (by decide) | with_reducible exact Sub.bit (by assumption) (by decide) | split)

theorem domainReady_frame (d : Nat) {s0 t : State} {E : Nat} (h : Fr E s0 t) (hE : Sub 0xc03004080 E := by exact Sub.of (by assumption) (by decide)) :
    Fr E s0 (domainReady d t) := by
  unfold domainReady
  (try dsimp only)
  repeat' (first | with_reducible assumption | with_reducible exact Or.inr (Sub.bit (by assumption) (by decide)) | with_reducible exact Or.inl rfl | with_reducible rfl | with_reducible apply Fr.ite | with_reducible apply State.fset_frame | with_reducible apply hbmReady_frame | with_reducible apply linkEnable_frame | with_reducible apply gateReport_frame | (simp only [Fr.mk_eq]; with_reducible apply FrF.upd) | with_reducible apply Fr.foldl | (intro _ _ _) | (intro _ _) | with_reducible exact Sub.of (by assumption) (by decide) | with_reducible exact Sub.bit (by assumption) (by decide) | split)

theorem droopDetect_frame (monitor : Nat) (mv : Nat) {s0 t : State} {E : Nat} (h : Fr E s0 t) (hE : Sub 0x3000081 E := by exact Sub.of (by assumption) (by decide)) :
    Fr E s0 (droopDetect monitor mv t) := by
  unfold droopDetect
  (try dsimp only)
  repeat' (first | with_reducible assumption | with_reducible exact Or.inr (Sub.bit (by assumption) (by decide)) | with_reducible exact Or.inl rfl | with_reducible rfl | with_reducible apply throttleApply_frame | (simp only [Fr.mk_eq]; with_reducible apply FrF.upd) | with_reducible exact Sub.of (by assumption) (by decide) | split)

theorem droopRelease_frame {s0 t : State} {E : Nat} (h : Fr E s0 t) (hE : Sub 0x3000081 E := by exact Sub.of (by assumption) (by decide)) :
    Fr E s0 (droopRelease t) := by
  unfold droopRelease
  (try dsimp only)
  repeat' (first | with_reducible assumption | with_reducible exact Or.inr (Sub.bit (by assumption) (by decide)) | with_reducible exact Or.inl rfl | with_reducible rfl | with_reducible apply throttleApply_frame | (simp only [Fr.mk_eq]; with_reducible apply FrF.upd) | with_reducible exact Sub.of (by assumption) (by decide))

theorem rimHeld_frame {s0 t : State} {E : Nat} (h : Fr E s0 t) (hE : Sub 0x20000 E := by exact Sub.of (by assumption) (by decide)) :
    Fr E s0 (rimHeld t) := by
  unfold rimHeld
  (try dsimp only)
  repeat' (first | with_reducible assumption | with_reducible apply Fr.ite | with_reducible apply State.modGroup_frame | with_reducible apply Fr.foldl | (intro _ _ _) | (intro _ _) | with_reducible exact Sub.of (by assumption) (by decide) | split)

theorem ellipsisTick_frame (d : Nat) {s0 t : State} {E : Nat} (h : Fr E s0 t) (hE : Sub 0x20200 E := by exact Sub.of (by assumption) (by decide)) :
    Fr E s0 (ellipsisTick d t) := by
  unfold ellipsisTick
  (try dsimp only)
  repeat' (first | with_reducible assumption | with_reducible exact Or.inr (Sub.bit (by assumption) (by decide)) | with_reducible exact Or.inl rfl | with_reducible rfl | with_reducible apply Fr.ite | with_reducible apply rimHeld_frame | with_reducible apply ellipsisSample_frame | (simp only [Fr.mk_eq]; with_reducible apply FrF.upd) | with_reducible apply Fr.foldl | (intro _ _ _) | (intro _ _) | with_reducible exact Sub.of (by assumption) (by decide) | split)

theorem engineGo_frame (w : Word) {s0 t u : State} {E : Nat} (h : Fr E s0 t)
    (e : engineGo w t = .ok u) (hE : Sub 0xffffffffbd E := by exact Sub.of (by assumption) (by decide)) : Fr E s0 u := by
  unfold engineGo at e
  split at e
  · exact engineBusy_frame _ h e
  · dsimp only at e
    obtain ⟨y, hy, rfl⟩ := exc_map e
    have g : Fr E s0 y.2 := dbgAccess_frame _ _ _ _ (State.fset_frame _ _ h (Sub.bit hE (by decide))) hy
    split
    · exact engineEnd_frame _ _ _ g
    · exact State.fset_frame _ _ g (Sub.bit hE (by decide))

theorem errorLog_frame (e : Ev) {s0 t : State} {E : Nat} (h : Fr E s0 t) (hE : Sub 0x400050 E := by exact Sub.of (by assumption) (by decide)) :
    Fr E s0 (errorLog e t) := by
  unfold errorLog
  (try dsimp only)
  repeat' (first | with_reducible assumption | with_reducible apply Fr.ite | with_reducible apply State.fresh_frame | with_reducible apply logWrite_frame | with_reducible exact Sub.of (by assumption) (by decide) | split)

theorem eventAccept_frame (k : Nat) {s0 t : State} {E : Nat} (h : Fr E s0 t) (hE : Sub 0x6000d0 E := by exact Sub.of (by assumption) (by decide)) :
    Fr E s0 (eventAccept k t) := by
  unfold eventAccept
  (try dsimp only)
  repeat' (first | with_reducible assumption | with_reducible exact Or.inr (Sub.bit (by assumption) (by decide)) | with_reducible exact Or.inl rfl | with_reducible rfl | with_reducible apply Fr.ite | with_reducible apply errorLog_frame | (simp only [Fr.mk_eq]; with_reducible apply FrF.upd) | with_reducible exact Sub.of (by assumption) (by decide) | split)

theorem eventDoorbell_frame (r : Nat) (w : Word) {s0 t : State} {E : Nat} (h : Fr E s0 t) (hE : Sub 0x10200080 E := by exact Sub.of (by assumption) (by decide)) :
    Fr E s0 (eventDoorbell r w t) := by
  unfold eventDoorbell
  (try dsimp only)
  repeat' (first | with_reducible assumption | with_reducible apply Fr.ite | with_reducible apply doorbellErr_frame | with_reducible apply State.modRing_frame | with_reducible exact Sub.of (by assumption) (by decide) | split)

theorem sparingEye_frame (l : Nat) (lane : Nat) (low : Bool) {s0 t : State} {E : Nat} (h : Fr E s0 t) (hE : Sub 0x400000 E := by exact Sub.of (by assumption) (by decide)) :
    Fr E s0 (sparingEye l lane low t) := by
  unfold sparingEye
  (try dsimp only)
  repeat' (first | with_reducible assumption | with_reducible exact Or.inr (Sub.bit (by assumption) (by decide)) | with_reducible exact Or.inl rfl | with_reducible rfl | with_reducible apply Fr.ite | with_reducible apply sparingSeen_frame | (simp only [Fr.mk_eq]; with_reducible apply FrF.upd) | with_reducible exact Sub.of (by assumption) (by decide) | split)

theorem eyeScan_frame (l : Nat) (lane : Nat) (h_ : Nat) (w : Nat) {s0 t : State} {E : Nat} (h : Fr E s0 t) (hE : Sub 0x400404080 E := by exact Sub.of (by assumption) (by decide)) :
    Fr E s0 (eyeScan l lane h_ w t) := by
  unfold eyeScan
  (try dsimp only)
  repeat' (first | with_reducible assumption | with_reducible apply Fr.ite | with_reducible apply State.modLink_frame | with_reducible apply sparingEye_frame | with_reducible apply State.raise_frame | with_reducible exact Sub.of (by assumption) (by decide) | with_reducible exact Sub.bit (by assumption) (by decide) | (rw [F.LNK_EVT_EYE_LOW_block]; exact Sub.bit (by assumption) (by decide)) | split)

theorem ffEdge_frame (ts : List Nat) (s : State) {s0 t : State} {E : Nat} (hs : Fr E s0 s) (h : Fr E s0 t) (hE : Sub 0x20000 E := by exact Sub.of (by assumption) (by decide)) :
    Fr E s0 (ffEdge ts s t) := by
  unfold ffEdge
  (try dsimp only)
  repeat' (first | with_reducible assumption | with_reducible exact Or.inr (Sub.bit (by assumption) (by decide)) | with_reducible exact Or.inl rfl | with_reducible rfl | (simp only [Fr.mk_eq]; with_reducible apply FrF.upd) | with_reducible apply Fr.foldl | (intro _ _ _) | (intro _ _))

theorem ffReset_frame {s0 t : State} {E : Nat} (h : Fr E s0 t) (hE : Sub 0x20000 E := by exact Sub.of (by assumption) (by decide)) :
    Fr E s0 (ffReset t) := by
  unfold ffReset
  (try dsimp only)
  repeat' (first | with_reducible assumption | with_reducible exact Or.inr (Sub.bit (by assumption) (by decide)) | with_reducible exact Or.inl rfl | with_reducible rfl | (simp only [Fr.mk_eq]; with_reducible apply FrF.upd) | with_reducible apply Fr.foldl | (intro _ _ _) | (intro _ _))

theorem flashDone_frame (ok : Bool) {s0 t : State} {E : Nat} (h : Fr E s0 t) (hE : Sub 0x8400050 E := by exact Sub.of (by assumption) (by decide)) :
    Fr E s0 (flashDone ok t) := by
  unfold flashDone
  (try dsimp only)
  repeat' (first | with_reducible assumption | with_reducible exact Or.inr (Sub.bit (by assumption) (by decide)) | with_reducible exact Or.inl rfl | with_reducible rfl | with_reducible apply Fr.ite | with_reducible apply State.fset_frame | with_reducible apply State.freshBytes_frame | with_reducible apply State.flashWrite_frame | with_reducible apply State.flashErase_frame | (simp only [Fr.mk_eq]; with_reducible apply FrF.upd) | with_reducible exact Sub.of (by assumption) (by decide) | with_reducible exact Sub.bit (by assumption) (by decide) | split)

theorem flashTick_frame {s0 t : State} {E : Nat} (h : Fr E s0 t) (hE : Sub 0x400000 E := by exact Sub.of (by assumption) (by decide)) :
    Fr E s0 (flashTick t) := by
  unfold flashTick
  (try dsimp only)
  repeat' (first | with_reducible assumption | with_reducible exact Or.inr (Sub.bit (by assumption) (by decide)) | with_reducible exact Or.inl rfl | with_reducible rfl | with_reducible apply Fr.ite | (simp only [Fr.mk_eq]; with_reducible apply FrF.upd) | split)

theorem fpStage_frame (c : List Byte) (k : Nat) {s0 t : State} {E : Nat} (h : Fr E s0 t) (hE : Sub 0x8400000 E := by exact Sub.of (by assumption) (by decide)) :
    Fr E s0 (fpStage c k t) := by
  unfold fpStage
  (try dsimp only)
  repeat' (first | with_reducible assumption | with_reducible exact Or.inr (Sub.bit (by assumption) (by decide)) | with_reducible exact Or.inl rfl | with_reducible rfl | with_reducible apply State.fset_frame | (simp only [Fr.mk_eq]; with_reducible apply FrF.upd) | with_reducible exact Sub.of (by assumption) (by decide) | with_reducible exact Sub.bit (by assumption) (by decide) | (rw [F.MGT_FPU_EN_block]; exact Sub.bit (by assumption) (by decide)) | (rw [F.MGT_FPU_LINE_block]; exact Sub.bit (by assumption) (by decide)) | (rw [F.MGT_FPU_MODE_block]; exact Sub.bit (by assumption) (by decide)))

theorem frameBad_frame (j : LoadJob) {s0 t : State} {E : Nat} (h : Fr E s0 t) (hE : Sub 0x1188431490 E := by exact Sub.of (by assumption) (by decide)) :
    Fr E s0 (frameBad j t) := by
  unfold frameBad
  (try dsimp only)
  repeat' (first | with_reducible assumption | with_reducible exact Or.inr (Sub.bit (by assumption) (by decide)) | with_reducible exact Or.inl rfl | with_reducible rfl | with_reducible apply Fr.ite | with_reducible apply loadRaise_frame | with_reducible apply State.setJob_frame | with_reducible apply loadRefuse_frame | (simp only [Fr.mk_eq]; with_reducible apply FrF.upd) | with_reducible exact Sub.of (by assumption) (by decide) | split)

theorem loadBytes_frame (j : LoadJob) (bytes : List Byte) (readOk : Bool) {s0 t : State} {E : Nat} (h : Fr E s0 t) (hE : Sub 0x8004020a0 E := by exact Sub.of (by assumption) (by decide)) :
    Fr E s0 (loadBytes j bytes readOk t).2 := by
  unfold loadBytes
  (try dsimp only)
  repeat' (first | with_reducible assumption | with_reducible apply Fr.ite | with_reducible apply portRead_frame | with_reducible exact Sub.of (by assumption) (by decide) | split)

theorem headerTake_frame (j : LoadJob) {s0 t : State} {E : Nat} (h : Fr E s0 t) (hE : Sub 0x1188431490 E := by exact Sub.of (by assumption) (by decide)) :
    Fr E s0 (headerTake j t) := by
  unfold headerTake
  (try dsimp only)
  repeat' (first | with_reducible assumption | with_reducible exact Or.inr (Sub.bit (by assumption) (by decide)) | with_reducible exact Or.inl rfl | with_reducible rfl | with_reducible apply loadRefuse_frame | with_reducible apply State.setJob_frame | (simp only [Fr.mk_eq]; with_reducible apply FrF.upd) | with_reducible exact Sub.of (by assumption) (by decide) | split)

theorem headerFrame_frame (f : Frame) (j0 : LoadJob) {s0 t : State} {E : Nat} (h : Fr E s0 t) (hE : Sub 0x1188431490 E := by exact Sub.of (by assumption) (by decide)) :
    Fr E s0 (headerFrame f j0 t) := by
  unfold headerFrame
  (try dsimp only)
  repeat' (first | with_reducible assumption | with_reducible apply Fr.ite | with_reducible apply State.fset_frame | with_reducible apply State.setJob_frame | with_reducible apply headerTake_frame | with_reducible exact Sub.of (by assumption) (by decide) | with_reducible exact Sub.bit (by assumption) (by decide) | split)

theorem reloadFinish_frame (j : LoadJob) {s0 t : State} {E : Nat} (h : Fr E s0 t) (hE : Sub 0x1188471490 E := by exact Sub.of (by assumption) (by decide)) :
    Fr E s0 (reloadFinish j t) := by
  unfold reloadFinish
  (try dsimp only)
  repeat' (first | with_reducible assumption | with_reducible apply loadRefuse_frame | with_reducible apply loadDone_frame | with_reducible apply sigEpoch_frame | with_reducible apply unitsOff_frame | with_reducible exact Sub.of (by assumption) (by decide) | split)

theorem loadFinish_frame (j : LoadJob) {s0 t : State} {E : Nat} (h : Fr E s0 t) (hE : Sub 0x3dcb4776b0 E := by exact Sub.of (by assumption) (by decide)) :
    Fr E s0 (loadFinish j t) := by
  unfold loadFinish
  (try dsimp only)
  repeat' (first | with_reducible assumption | with_reducible apply Fr.ite | with_reducible apply designFinish_frame | with_reducible apply reloadFinish_frame | with_reducible apply loadDone_frame | with_reducible apply bootDone_frame | with_reducible exact Sub.of (by assumption) (by decide) | split)

theorem sectionNext_frame (j : LoadJob) {s0 t : State} {E : Nat} (h : Fr E s0 t) (hE : Sub 0x3dcb4776b0 E := by exact Sub.of (by assumption) (by decide)) :
    Fr E s0 (sectionNext j t) := by
  unfold sectionNext
  (try dsimp only)
  repeat' (first | with_reducible assumption | with_reducible apply Fr.ite | with_reducible apply State.setJob_frame | with_reducible apply loadFinish_frame | with_reducible exact Sub.of (by assumption) (by decide) | split)

theorem rimBaseBegin_frame {s0 t : State} {E : Nat} (h : Fr E s0 t) (hE : Sub 0x1000020080 E := by exact Sub.of (by assumption) (by decide)) :
    Fr E s0 (rimBaseBegin t) := by
  unfold rimBaseBegin
  (try dsimp only)
  repeat' (first | with_reducible assumption | with_reducible exact Or.inr (Sub.bit (by assumption) (by decide)) | with_reducible exact Or.inl rfl | with_reducible rfl | with_reducible apply State.modBank_frame | with_reducible apply bankReport_frame | (simp only [Fr.mk_eq]; with_reducible apply FrF.upd) | with_reducible apply Fr.foldl | (intro _ _ _) | (intro _ _) | with_reducible exact Sub.of (by assumption) (by decide) | split)

theorem rimPartBegin_frame (r : Nat) {s0 t : State} {E : Nat} (h : Fr E s0 t) (hE : Sub 0x20000 E := by exact Sub.of (by assumption) (by decide)) :
    Fr E s0 (rimPartBegin r t) := by
  unfold rimPartBegin
  (try dsimp only)
  repeat' (first | with_reducible assumption | with_reducible apply Fr.ite | with_reducible apply regionTo_frame | with_reducible apply regionFence_frame | with_reducible exact Sub.of (by assumption) (by decide) | split)

theorem sliceBegin_frame (j : LoadJob) (e : DirEnt) {s0 t : State} {E : Nat} (h : Fr E s0 t) (hE : Sub 0x400 E := by exact Sub.of (by assumption) (by decide)) :
    Fr E s0 (sliceBegin j e t) := by
  unfold sliceBegin
  (try dsimp only)
  repeat' (first | with_reducible assumption | with_reducible apply State.modClause_frame | with_reducible exact Sub.of (by assumption) (by decide) | split)

theorem rimWrite_frame (fs : List (Nat × Nat)) {s0 t : State} {E : Nat} (h : Fr E s0 t) (hE : Sub 0x20000 E := by exact Sub.of (by assumption) (by decide)) :
    Fr E s0 (rimWrite fs t) := by
  unfold rimWrite
  (try dsimp only)
  repeat' (first | with_reducible assumption | with_reducible apply putFrame_frame | with_reducible apply Fr.foldl | (intro _ _ _) | (intro _ _) | with_reducible exact Sub.of (by assumption) (by decide))

theorem sliceUnit_frame (xf : Nat) (pc : Nat) (ty : Nat) (k : Nat) (c : List Byte) {s0 t : State} {E : Nat} (h : Fr E s0 t) (hE : Sub 0x400 E := by exact Sub.of (by assumption) (by decide)) :
    Fr E s0 (sliceUnit xf pc ty k c t) := by
  unfold sliceUnit
  (try dsimp only)
  repeat' (first | with_reducible assumption | with_reducible apply Fr.ite | with_reducible apply setSchMark_frame | with_reducible apply State.modClause_frame | with_reducible apply dictWrite_frame | with_reducible apply Fr.foldl | (intro _ _ _) | (intro _ _) | with_reducible exact Sub.of (by assumption) (by decide) | split)

theorem sliceUnits_frame (xf : Nat) (pc : Nat) (ty : Nat) (lo : Nat) (hi : Nat) (c : List Byte) {s0 t : State} {E : Nat} (h : Fr E s0 t) (hE : Sub 0x400 E := by exact Sub.of (by assumption) (by decide)) :
    Fr E s0 (sliceUnits xf pc ty lo hi c t) := by
  unfold sliceUnits
  (try dsimp only)
  repeat' (first | with_reducible assumption | with_reducible apply Fr.ite | with_reducible apply sliceUnit_frame | with_reducible apply Fr.foldl | (intro _ _ _) | (intro _ _) | with_reducible exact Sub.of (by assumption) (by decide) | split)

theorem sliceArrives_frame (j : LoadJob) (e : DirEnt) (lo : Nat) (c : List Byte) {s0 t : State} {E : Nat} (h : Fr E s0 t) (hE : Sub 0x400 E := by exact Sub.of (by assumption) (by decide)) :
    Fr E s0 (sliceArrives j e lo c t) := by
  unfold sliceArrives
  (try dsimp only)
  repeat' (first | with_reducible assumption | with_reducible apply sliceUnits_frame | with_reducible exact Sub.of (by assumption) (by decide) | split)

theorem lastErr_frame (a : Nat) (word : Nat) {s0 t : State} {E : Nat} (h : Fr E s0 t) (hE : Sub 0x20000 E := by exact Sub.of (by assumption) (by decide)) :
    Fr E s0 (lastErr a word t) := by
  unfold lastErr
  (try dsimp only)
  repeat' (first | with_reducible assumption | with_reducible exact Or.inr (Sub.bit (by assumption) (by decide)) | with_reducible exact Or.inl rfl | with_reducible rfl | (simp only [Fr.mk_eq]; with_reducible apply FrF.upd))

theorem rimBaseDone_frame {s0 t : State} {E : Nat} (h : Fr E s0 t) (hE : Sub 0x20000 E := by exact Sub.of (by assumption) (by decide)) :
    Fr E s0 (rimBaseDone t) := by
  unfold rimBaseDone
  (try dsimp only)
  repeat' (first | with_reducible assumption | with_reducible exact Or.inr (Sub.bit (by assumption) (by decide)) | with_reducible exact Or.inl rfl | with_reducible rfl | (simp only [Fr.mk_eq]; with_reducible apply FrF.upd) | with_reducible apply Fr.foldl | (intro _ _ _) | (intro _ _))

theorem sectionApply.sectionNext'_frame (e : DirEnt) (c : List Byte) (j : LoadJob) {s0 t : State} {E : Nat} (h : Fr E s0 t) (hE : Sub 0x3dcb4776b0 E := by exact Sub.of (by assumption) (by decide)) :
    Fr E s0 (sectionApply.sectionNext' e c j t) := by
  unfold sectionApply.sectionNext'
  (try dsimp only)
  repeat' (first | with_reducible assumption | with_reducible apply Fr.ite | with_reducible apply loadRefuse_frame | with_reducible apply lastErr_frame | with_reducible apply State.freshNat_frame | with_reducible apply rimWrite_frame | with_reducible apply sectionNext_frame | with_reducible apply rimBaseDone_frame | with_reducible apply rimPartDone_frame | with_reducible apply Fr.foldl | (intro _ _ _) | (intro _ _) | with_reducible exact Sub.of (by assumption) (by decide) | split)

theorem slotsWrite_frame (g : Img) (c : List Byte) {s0 t : State} {E : Nat} (h : Fr E s0 t) (hE : Sub 0x4000 E := by exact Sub.of (by assumption) (by decide)) :
    Fr E s0 (slotsWrite g c t) := by
  unfold slotsWrite
  (try dsimp only)
  repeat' (first | with_reducible assumption | with_reducible apply State.modLink_frame | with_reducible apply Fr.foldl | (intro _ _ _) | (intro _ _) | with_reducible exact Sub.of (by assumption) (by decide) | split)

theorem slotsFinish_frame (j : LoadJob) (g : Img) (c : List Byte) {s0 t : State} {E : Nat} (h : Fr E s0 t) (hE : Sub 0x3dcb4776b0 E := by exact Sub.of (by assumption) (by decide)) :
    Fr E s0 (slotsFinish j g c t) := by
  unfold slotsFinish
  (try dsimp only)
  repeat' (first | with_reducible assumption | with_reducible apply Fr.ite | with_reducible apply State.setJob_frame | with_reducible apply loadRefuse_frame | with_reducible apply sectionNext_frame | with_reducible apply slotsWrite_frame | with_reducible exact Sub.of (by assumption) (by decide) | split)

theorem linkRemode_frame (l : Nat) (mode : Nat) {s0 t : State} {E : Nat} (h : Fr E s0 t) (hE : Sub 0x400004000 E := by exact Sub.of (by assumption) (by decide)) :
    Fr E s0 (linkRemode l mode t) := by
  unfold linkRemode
  (try dsimp only)
  repeat' (first | with_reducible assumption | with_reducible apply Fr.ite | with_reducible apply State.fset_frame | with_reducible apply State.modLink_frame | with_reducible apply linkOff_frame | with_reducible apply linkTrain_frame | with_reducible exact Sub.of (by assumption) (by decide) | with_reducible exact Sub.bit (by assumption) (by decide) | (rw [F.LNK_CTL_MODE_block]; exact Sub.bit (by assumption) (by decide)) | split)

theorem linksRemode_frame (g : Img) (j : LoadJob) (c : List Byte) {s0 t : State} {E : Nat} (h : Fr E s0 t) (hE : Sub 0x400004000 E := by exact Sub.of (by assumption) (by decide)) :
    Fr E s0 (linksRemode g j c t) := by
  unfold linksRemode
  (try dsimp only)
  repeat' (first | with_reducible assumption | with_reducible apply linkRemode_frame | with_reducible apply Fr.foldl | (intro _ _ _) | (intro _ _) | with_reducible exact Sub.of (by assumption) (by decide) | split)

theorem sectionApply_frame (e : DirEnt) (c : List Byte) (j0 : LoadJob) {s0 t : State} {E : Nat} (h : Fr E s0 t) (hE : Sub 0x3dcb4f76b0 E := by exact Sub.of (by assumption) (by decide)) :
    Fr E s0 (sectionApply e c j0 t) := by
  unfold sectionApply
  (try dsimp only)
  repeat' (first | with_reducible assumption | with_reducible exact Or.inr (Sub.bit (by assumption) (by decide)) | with_reducible exact Or.inl rfl | with_reducible rfl | with_reducible apply Fr.ite | with_reducible apply sectionApply.sectionNext'_frame | with_reducible apply loadRefuse_frame | with_reducible apply sectionNext_frame | with_reducible apply State.freshNat_frame | with_reducible apply slotsFinish_frame | with_reducible apply linksRemode_frame | (simp only [Fr.mk_eq]; with_reducible apply FrF.upd) | (refine clauseLoad_frame _ _ _ ?_ (by assumption) ?_) | with_reducible exact Sub.of (by assumption) (by decide) | split)

theorem sectionComplete_frame (e : DirEnt) (j : LoadJob) {s0 t : State} {E : Nat} (h : Fr E s0 t) (hE : Sub 0x3dcb4f76b0 E := by exact Sub.of (by assumption) (by decide)) :
    Fr E s0 (sectionComplete e j t) := by
  unfold sectionComplete
  (try dsimp only)
  repeat' (first | with_reducible assumption | with_reducible apply Fr.ite | with_reducible apply sectionNext_frame | with_reducible apply loadRefuse_frame | with_reducible apply State.setJob_frame | with_reducible apply sectionApply_frame | with_reducible exact Sub.of (by assumption) (by decide) | split)

theorem sectionFrame_frame (f : Frame) (j : LoadJob) {s0 t : State} {E : Nat} (h : Fr E s0 t) (hE : Sub 0x3dcbcf76b0 E := by exact Sub.of (by assumption) (by decide)) :
    Fr E s0 (sectionFrame f j t) := by
  unfold sectionFrame
  (try dsimp only)
  repeat' (first | with_reducible assumption | with_reducible exact Or.inr (Sub.bit (by assumption) (by decide)) | with_reducible exact Or.inl rfl | with_reducible rfl | with_reducible apply Fr.ite | with_reducible apply sectionNext_frame | with_reducible apply State.setJob_frame | with_reducible apply loadRefuse_frame | with_reducible apply rimBaseBegin_frame | with_reducible apply rimPartBegin_frame | with_reducible apply sliceBegin_frame | with_reducible apply rimWrite_frame | with_reducible apply sliceArrives_frame | with_reducible apply sectionComplete_frame | (simp only [Fr.mk_eq]; with_reducible apply FrF.upd) | with_reducible exact Sub.of (by assumption) (by decide) | split)

theorem frameReceive_frame (bytes : List Byte) (readOk : Bool) {s0 t : State} {E : Nat} (h : Fr E s0 t) (hE : Sub 0x3dcbcf76b0 E := by exact Sub.of (by assumption) (by decide)) :
    Fr E s0 (frameReceive bytes readOk t) := by
  unfold frameReceive
  (try dsimp only)
  repeat' (first | with_reducible assumption | with_reducible exact Or.inr (Sub.bit (by assumption) (by decide)) | with_reducible exact Or.inl rfl | with_reducible rfl | with_reducible apply Fr.ite | with_reducible apply loadBytes_frame | with_reducible apply frameBad_frame | with_reducible apply loadRefuse_frame | with_reducible apply headerFrame_frame | with_reducible apply directoryFrame_frame | with_reducible apply sectionFrame_frame | (simp only [Fr.mk_eq]; with_reducible apply FrF.upd) | with_reducible exact Sub.of (by assumption) (by decide) | split)

theorem framingLock_frame (l : Nat) (trip : Nat) (decode : Nat) {s0 t : State} {E : Nat} (h : Fr E s0 t) (hE : Sub 0x4000 E := by exact Sub.of (by assumption) (by decide)) :
    Fr E s0 (framingLock l trip decode t) := by
  unfold framingLock
  (try dsimp only)
  repeat' (first | with_reducible assumption | with_reducible apply Fr.ite | with_reducible apply State.modLink_frame | with_reducible apply linkTo_frame | with_reducible exact Sub.of (by assumption) (by decide) | split)

theorem framingLost_frame (l : Nat) {s0 t : State} {E : Nat} (h : Fr E s0 t) (hE : Sub 0x4000 E := by exact Sub.of (by assumption) (by decide)) :
    Fr E s0 (framingLost l t) := by
  unfold framingLost
  (try dsimp only)
  repeat' (first | with_reducible assumption | with_reducible apply linkTrain_frame | with_reducible apply ctlPut_frame | with_reducible apply linkTo_frame | with_reducible exact Sub.of (by assumption) (by decide) | split)

theorem fwHotfixSvc_frame (slot : Nat) (stream : List Byte) {s0 t : State} {E : Nat} (h : Fr E s0 t) (hE : Sub 0x8884020b1 E := by exact Sub.of (by assumption) (by decide)) :
    Fr E s0 (fwHotfixSvc slot stream t) := by
  unfold fwHotfixSvc
  (try dsimp only)
  repeat' (first | with_reducible assumption | with_reducible apply Fr.ite | with_reducible apply svcBytes_frame | with_reducible apply bootRefuse_frame | with_reducible apply svcRespond_frame | with_reducible apply fpStage_frame | with_reducible apply fpApply_frame | with_reducible apply Fr.foldl | (intro _ _ _) | (intro _ _) | with_reducible exact Sub.of (by assumption) (by decide) | split)

theorem secReload_frame (content : List Byte) (from_ : Nat) {s0 t : State} {E : Nat} (h : Fr E s0 t) (hE : Sub 0x40004800a0 E := by exact Sub.of (by assumption) (by decide)) :
    Fr E s0 (secReload content from_ t) := by
  unfold secReload
  (try dsimp only)
  repeat' (first | with_reducible assumption | with_reducible apply keyxAbort_frame | with_reducible apply State.modPair_frame | with_reducible apply State.store_frame | with_reducible exact Sub.of (by assumption) (by decide))

theorem fwSwap_frame (slot : Nat) {s0 t : State} {E : Nat} (h : Fr E s0 t) (hE : Sub 0x48884820b1 E := by exact Sub.of (by assumption) (by decide)) :
    Fr E s0 (fwSwap slot t) := by
  unfold fwSwap
  (try dsimp only)
  repeat' (first | with_reducible assumption | with_reducible exact Or.inr (Sub.bit (by assumption) (by decide)) | with_reducible exact Or.inl rfl | with_reducible rfl | with_reducible apply Fr.ite | with_reducible apply svcRespond_frame | with_reducible apply bootRefuse_frame | with_reducible apply secReload_frame | with_reducible apply State.freshBytes_frame | with_reducible apply memWrite_frame | with_reducible apply codebaseSet_frame | (simp only [Fr.mk_eq]; with_reducible apply FrF.upd) | with_reducible exact Sub.of (by assumption) (by decide) | split)

theorem fwUpdate_frame (slot : Nat) (stream : List Byte) {s0 t : State} {E : Nat} (h : Fr E s0 t) (hE : Sub 0x8884020f1 E := by exact Sub.of (by assumption) (by decide)) :
    Fr E s0 (fwUpdate slot stream t) := by
  unfold fwUpdate
  (try dsimp only)
  repeat' (first | with_reducible assumption | with_reducible apply Fr.ite | with_reducible apply svcBytes_frame | with_reducible apply bootRefuse_frame | with_reducible apply commitRec_frame | with_reducible apply State.flashWrite_frame | with_reducible apply State.flashErase_frame | with_reducible apply svcRespond_frame | with_reducible exact Sub.of (by assumption) (by decide) | split)

theorem hbmArrive_frame (m : Nat) (struck : Nat → Bool) {s0 t : State} {E : Nat} (h : Fr E s0 t) (hE : Sub 0x800402080 E := by exact Sub.of (by assumption) (by decide)) :
    Fr E s0 (hbmArrive m struck t) := by
  unfold hbmArrive
  (try dsimp only)
  repeat' (first | with_reducible assumption | with_reducible exact Or.inr (Sub.bit (by assumption) (by decide)) | with_reducible exact Or.inl rfl | with_reducible rfl | with_reducible apply Fr.ite | with_reducible apply userRead_frame | (simp only [Fr.mk_eq]; with_reducible apply FrF.upd) | with_reducible exact Sub.of (by assumption) (by decide) | split)

theorem hifLink_frame (speed : Nat) (width : Nat) (flit : Bool) (dlup : Bool) {s0 t : State} {E : Nat} (h : Fr E s0 t) (hE : Sub 0x10000080 E := by exact Sub.of (by assumption) (by decide)) :
    Fr E s0 (hifLink speed width flit dlup t) := by
  unfold hifLink
  (try dsimp only)
  repeat' (first | with_reducible assumption | with_reducible apply State.raise_frame | with_reducible apply State.fsetb_frame | with_reducible apply State.fset_frame | with_reducible exact Sub.of (by assumption) (by decide) | with_reducible exact Sub.bit (by assumption) (by decide))

theorem hifReset_frame {s0 t : State} {E : Nat} (h : Fr E s0 t) (hE : Sub 0x10200000 E := by exact Sub.of (by assumption) (by decide)) :
    Fr E s0 (hifReset t) := by
  unfold hifReset
  (try dsimp only)
  repeat' (first | with_reducible assumption | with_reducible exact Or.inr (Sub.bit (by assumption) (by decide)) | with_reducible exact Or.inl rfl | with_reducible rfl | with_reducible apply State.fset_frame | with_reducible apply State.modDma_frame | (simp only [Fr.mk_eq]; with_reducible apply FrF.upd) | with_reducible apply Fr.foldl | (intro _ _ _) | (intro _ _) | with_reducible exact Sub.of (by assumption) (by decide) | with_reducible exact Sub.bit (by assumption) (by decide) | (rw [F.HIF_AWIN_BASE_block]; exact Sub.bit (by assumption) (by decide)) | (rw [F.HIF_AWIN_EN_block]; exact Sub.bit (by assumption) (by decide)) | (rw [F.HIF_DCTL_EN_block]; exact Sub.bit (by assumption) (by decide)) | (rw [F.HIF_EVCFG_EN_block]; exact Sub.bit (by assumption) (by decide)))

theorem holdoffEnd_frame (u : Nat) {s0 t : State} {E : Nat} (h : Fr E s0 t) (hE : Sub 0x40000 E := by exact Sub.of (by assumption) (by decide)) :
    Fr E s0 (holdoffEnd u t) := by
  unfold holdoffEnd
  (try dsimp only)
  repeat' (first | with_reducible assumption | with_reducible apply Fr.ite | with_reducible apply State.modUnit_frame | with_reducible exact Sub.of (by assumption) (by decide) | split)

theorem identDone_frame (l : Nat) (serial : DWord) (plink : Nat) {s0 t : State} {E : Nat} (h : Fr E s0 t) (hE : Sub 0x400004080 E := by exact Sub.of (by assumption) (by decide)) :
    Fr E s0 (identDone l serial plink t) := by
  unfold identDone
  (try dsimp only)
  repeat' (first | with_reducible assumption | with_reducible apply Fr.ite | with_reducible apply State.fset_frame | with_reducible apply State.modLink_frame | with_reducible apply linkTo_frame | with_reducible apply linkAnnounce_frame | with_reducible apply State.raise_frame | with_reducible exact Sub.of (by assumption) (by decide) | with_reducible exact Sub.bit (by assumption) (by decide) | (rw [F.LNK_EVT_UP_block]; exact Sub.bit (by assumption) (by decide)) | (rw [F.LNK_STAT_REASON_block]; exact Sub.bit (by assumption) (by decide)) | split)

theorem ioShort_frame (b : Nat) (pin : Nat) (level : Bool) {s0 t : State} {E : Nat} (h : Fr E s0 t) (hE : Sub 0x1000020080 E := by exact Sub.of (by assumption) (by decide)) :
    Fr E s0 (ioShort b pin level t) := by
  unfold ioShort
  (try dsimp only)
  repeat' (first | with_reducible assumption | with_reducible apply Fr.ite | with_reducible apply rimIoRaise_frame | with_reducible apply State.modBank_frame | with_reducible exact Sub.of (by assumption) (by decide) | split)

theorem keySample_frame (b : Nat) (key : Nat) {s0 t : State} {E : Nat} (h : Fr E s0 t) (hE : Sub 0x1000020080 E := by exact Sub.of (by assumption) (by decide)) :
    Fr E s0 (keySample b key t) := by
  unfold keySample
  (try dsimp only)
  repeat' (first | with_reducible assumption | with_reducible apply Fr.ite | with_reducible apply State.modBank_frame | with_reducible apply rimIoRaise_frame | with_reducible exact Sub.of (by assumption) (by decide) | split)

theorem kickTick_frame (p : Nat) {s0 t : State} {E : Nat} (h : Fr E s0 t) (hE : Sub 0x400000 E := by exact Sub.of (by assumption) (by decide)) :
    Fr E s0 (kickTick p t) := by
  unfold kickTick
  (try dsimp only)
  repeat' (first | with_reducible assumption | with_reducible apply Fr.ite | with_reducible apply State.modPair_frame | with_reducible exact Sub.of (by assumption) (by decide) | split)

theorem laneLoss_frame (l : Nat) (lane : Nat) {s0 t : State} {E : Nat} (h : Fr E s0 t) (hE : Sub 0x400004000 E := by exact Sub.of (by assumption) (by decide)) :
    Fr E s0 (laneLoss l lane t) := by
  unfold laneLoss
  (try dsimp only)
  repeat' (first | with_reducible assumption | with_reducible apply Fr.ite | with_reducible apply State.fset_frame | with_reducible apply ctlPut_frame | with_reducible apply sparingStart_frame | with_reducible apply framingLost_frame | with_reducible exact Sub.of (by assumption) (by decide) | with_reducible exact Sub.bit (by assumption) (by decide) | (rw [F.LNK_STAT_SPARE_OK_block]; exact Sub.bit (by assumption) (by decide)) | split)

theorem nocWord_frame (x : NocAcc) {s0 t : State} {E : Nat} (h : Fr E s0 t) (hE : Sub 0x8004020a0 E := by exact Sub.of (by assumption) (by decide)) :
    Fr E s0 (nocWord x t).2 := by
  unfold nocWord
  (try dsimp only)
  repeat' (first | with_reducible assumption | with_reducible apply Fr.ite | with_reducible apply nocWrite_frame | with_reducible apply nocRead_frame | with_reducible exact Sub.of (by assumption) (by decide) | split)

theorem nocServe_frame (bank : Nat) {s0 t u : State} {E : Nat} {rv} (h : Fr E s0 t)
    (e : nocServe bank t = some (rv, u)) (hE : Sub 0x8004020a0 E := by exact Sub.of (by assumption) (by decide)) : Fr E s0 u := by
  unfold nocServe at e
  split at e
  · cases e
  · obtain ⟨y, -, hy⟩ := Option.map_eq_some_iff.1 e
    have hw := nocWord_frame y h
    dsimp only at hy
    split at hy
    · cases hy
      simp only [Fr.mk_eq]
      with_reducible apply FrF.upd
      all_goals first | exact Or.inr (Sub.bit hE (by decide)) | with_reducible exact Or.inl rfl | with_reducible rfl | with_reducible assumption
    · cases hy
      refine nocWaited_frame _ _ ?_
      simp only [Fr.mk_eq]
      with_reducible apply FrF.upd
      all_goals first | exact Or.inr (Sub.bit hE (by decide)) | with_reducible exact Or.inl rfl | with_reducible rfl | with_reducible assumption

theorem lexNoc_frame (bank : Nat) {s0 t : State} {E : Nat} (h : Fr E s0 t) (hE : Sub 0x48105820a1 E := by exact Sub.of (by assumption) (by decide)) :
    Fr E s0 (lexNoc bank t) := by
  unfold lexNoc
  (try dsimp only)
  repeat' (first | with_reducible assumption | with_reducible apply Fr.ite | with_reducible apply nocAnswer_frame | (refine nocServe_frame _ ?_ (by assumption) ?_) | with_reducible exact Sub.of (by assumption) (by decide) | split)

theorem lifeRecord_frame (hours : Nat) (avg : Nat) {s0 t : State} {E : Nat} (h : Fr E s0 t) (hE : Sub 0x400050 E := by exact Sub.of (by assumption) (by decide)) :
    Fr E s0 (lifeRecord hours avg t) := by
  unfold lifeRecord
  (try dsimp only)
  repeat' (first | with_reducible assumption | with_reducible apply Fr.ite | with_reducible apply State.fresh_frame | with_reducible apply logWrite_frame | with_reducible exact Sub.of (by assumption) (by decide) | split)

theorem linkDiscard_frame (l : Nat) {s0 t : State} {E : Nat} (h : Fr E s0 t) (hE : Sub 0x400004080 E := by exact Sub.of (by assumption) (by decide)) :
    Fr E s0 (linkDiscard l t) := by
  unfold linkDiscard
  (try dsimp only)
  repeat' (first | with_reducible assumption | with_reducible apply Fr.ite | with_reducible apply State.modLink_frame | with_reducible apply State.count_frame | with_reducible apply ctlPut_frame | with_reducible apply State.raise_frame | with_reducible exact Sub.of (by assumption) (by decide) | with_reducible exact Sub.bit (by assumption) (by decide) | (rw [F.LNK_CNT_RETRY_COUNT_block]; exact Sub.bit (by assumption) (by decide)) | (rw [F.LNK_EVT_RETRY_block]; exact Sub.bit (by assumption) (by decide)) | split)

end Sys2Proof.Machine
end

