-- ==== Sys2Proof/Laws/Frame5.lean ====
section
/-! SUPPORT. Frame5.lean: the parts of the state each operation may change, part 5. -/
set_option Elab.async false
namespace Sys2Proof.Machine

theorem linkFail_frame (l : Nat) (reason : Nat) {s0 t : State} {E : Nat} (h : Fr E s0 t) (hE : Sub 0x400004000 E := by exact Sub.of (by assumption) (by decide)) :
    Fr E s0 (linkFail l reason t) := by
  unfold linkFail
  (try dsimp only)
  repeat' (first | with_reducible assumption | with_reducible apply State.fset_frame | with_reducible apply State.modLink_frame | with_reducible apply linkTo_frame | with_reducible exact Sub.of (by assumption) (by decide) | with_reducible exact Sub.bit (by assumption) (by decide) | (rw [F.LNK_STAT_REASON_block]; exact Sub.bit (by assumption) (by decide)))

theorem linkDown_frame (l : Nat) (reason : Nat) {s0 t : State} {E : Nat} (h : Fr E s0 t) (hE : Sub 0x400004080 E := by exact Sub.of (by assumption) (by decide)) :
    Fr E s0 (linkDown l reason t) := by
  unfold linkDown
  (try dsimp only)
  repeat' (first | with_reducible assumption | with_reducible apply State.raise_frame | with_reducible apply linkFail_frame | with_reducible exact Sub.of (by assumption) (by decide) | with_reducible exact Sub.bit (by assumption) (by decide) | (rw [F.LNK_EVT_DOWN_block]; exact Sub.bit (by assumption) (by decide)))

theorem linkIdle_frame (l : Nat) {s0 t : State} {E : Nat} (h : Fr E s0 t) (hE : Sub 0x4001 E := by exact Sub.of (by assumption) (by decide)) :
    Fr E s0 (linkIdle l t) := by
  unfold linkIdle
  (try dsimp only)
  repeat' (first | with_reducible assumption | with_reducible apply Fr.ite | with_reducible apply linkFrame_frame | with_reducible apply linkEmit_frame | with_reducible exact Sub.of (by assumption) (by decide) | split)

theorem linkModeFail_frame (l : Nat) {s0 t : State} {E : Nat} (h : Fr E s0 t) (hE : Sub 0x400004080 E := by exact Sub.of (by assumption) (by decide)) :
    Fr E s0 (linkModeFail l t) := by
  unfold linkModeFail
  (try dsimp only)
  repeat' (first | with_reducible assumption | with_reducible apply State.raise_frame | with_reducible apply linkFail_frame | with_reducible exact Sub.of (by assumption) (by decide) | with_reducible exact Sub.bit (by assumption) (by decide) | (rw [F.LNK_EVT_MODE_block]; exact Sub.bit (by assumption) (by decide)))

theorem xtDeliver_frame (l : Nat) (v : Nat) (xt : BitVec 4) {s0 t : State} {E : Nat} (h : Fr E s0 t) (hE : Sub 0x68004462b1 E := by exact Sub.of (by assumption) (by decide)) :
    Fr E s0 (xtDeliver l v xt t) := by
  unfold xtDeliver
  (try dsimp only)
  repeat' (first | with_reducible assumption | with_reducible apply Fr.ite | with_reducible apply State.modLink_frame | with_reducible apply xtAssert_frame | with_reducible apply Fr.foldl | (intro _ _ _) | (intro _ _) | with_reducible exact Sub.of (by assumption) (by decide) | split)

theorem linkUse_frame (l : Nat) (v : Nat) (f : Superframe) {s0 t : State} {E : Nat} (h : Fr E s0 t) (hE : Sub 0x6c4244e2b1 E := by exact Sub.of (by assumption) (by decide)) :
    Fr E s0 (linkUse l v f t) := by
  unfold linkUse
  (try dsimp only)
  repeat' (first | with_reducible assumption | with_reducible apply xtDeliver_frame | with_reducible apply ctlWordIn_frame | with_reducible apply Fr.foldl | (intro _ _ _) | (intro _ _) | with_reducible exact Sub.of (by assumption) (by decide))

theorem topoEnd_frame (self : Nat) (base : Nat) (renumber : Bool) (nums : List Nat) (links : List TopoLink) {s0 t : State} {E : Nat} (h : Fr E s0 t) (hE : Sub 0x40000c080 E := by exact Sub.of (by assumption) (by decide)) :
    Fr E s0 (topoEnd self base renumber nums links t) := by
  unfold topoEnd
  (try dsimp only)
  repeat' (first | with_reducible assumption | with_reducible exact Or.inr (Sub.bit (by assumption) (by decide)) | with_reducible exact Or.inl rfl | with_reducible rfl | with_reducible apply Fr.ite | with_reducible apply State.fset_frame | with_reducible apply State.modLink_frame | with_reducible apply State.raise_frame | (simp only [Fr.mk_eq]; with_reducible apply FrF.upd) | with_reducible apply Fr.foldl | (intro _ _ _) | (intro _ _) | with_reducible exact Sub.of (by assumption) (by decide) | with_reducible exact Sub.bit (by assumption) (by decide) | split)

theorem lnkTopo_frame (self : Nat) (base : Nat) (renumber : Bool) (nums : List Nat) (links : List TopoLink) {s0 t : State} {E : Nat} (h : Fr E s0 t) (hE : Sub 0x40000c080 E := by exact Sub.of (by assumption) (by decide)) :
    Fr E s0 (lnkTopo self base renumber nums links t) := by
  unfold lnkTopo
  (try dsimp only)
  repeat' (first | with_reducible assumption | with_reducible apply Fr.ite | with_reducible apply topoEnd_frame | with_reducible exact Sub.of (by assumption) (by decide) | split)

theorem loadBegin_frame {s0 t : State} {E : Nat} (h : Fr E s0 t) (hE : Sub 0x33c8cf7e90 E := by exact Sub.of (by assumption) (by decide)) :
    Fr E s0 (loadBegin t) := by
  unfold loadBegin
  (try dsimp only)
  repeat' (first | with_reducible assumption | with_reducible apply Fr.ite | with_reducible apply headerTake_frame | with_reducible apply designBegin_frame | with_reducible exact Sub.of (by assumption) (by decide) | split)

theorem loadPoll_frame {s0 t : State} {E : Nat} (h : Fr E s0 t) (hE : Sub 0x3dcb4776b0 E := by exact Sub.of (by assumption) (by decide)) :
    Fr E s0 (loadPoll t) := by
  unfold loadPoll
  (try dsimp only)
  repeat' (first | with_reducible assumption | with_reducible apply Fr.ite | with_reducible apply slotsFinish_frame | with_reducible exact Sub.of (by assumption) (by decide) | split)

theorem remapDrop_frame {s0 t : State} {E : Nat} (h : Fr E s0 t) (hE : Sub 0x8400000 E := by exact Sub.of (by assumption) (by decide)) :
    Fr E s0 (remapDrop t) := by
  unfold remapDrop
  (try dsimp only)
  repeat' (first | with_reducible assumption | with_reducible exact Or.inr (Sub.bit (by assumption) (by decide)) | with_reducible exact Or.inl rfl | with_reducible rfl | with_reducible apply Fr.ite | with_reducible apply State.fset_frame | (simp only [Fr.mk_eq]; with_reducible apply FrF.upd) | with_reducible apply Fr.foldl | (intro _ _ _) | (intro _ _) | with_reducible exact Sub.of (by assumption) (by decide) | with_reducible exact Sub.bit (by assumption) (by decide) | (rw [F.MGT_FPU_EN_block]; exact Sub.bit (by assumption) (by decide)) | split)

theorem servicesRestart_frame {s0 t : State} {E : Nat} (h : Fr E s0 t) (hE : Sub 0x8410090 E := by exact Sub.of (by assumption) (by decide)) :
    Fr E s0 (servicesRestart t) := by
  unfold servicesRestart
  (try dsimp only)
  repeat' (first | with_reducible assumption | with_reducible exact Or.inr (Sub.bit (by assumption) (by decide)) | with_reducible exact Or.inl rfl | with_reducible rfl | with_reducible apply svcRespond_frame | (simp only [Fr.mk_eq]; with_reducible apply FrF.upd) | with_reducible apply Fr.foldl | (intro _ _ _) | (intro _ _) | with_reducible exact Sub.of (by assumption) (by decide))

theorem pairRestart_frame (p : Nat) (cause : Nat) (held : Bool) {s0 t : State} {E : Nat} (h : Fr E s0 t) (hE : Sub 0x4008490090 E := by exact Sub.of (by assumption) (by decide)) :
    Fr E s0 (pairRestart p cause held t) := by
  unfold pairRestart
  (try dsimp only)
  repeat' (first | with_reducible assumption | with_reducible apply Fr.ite | with_reducible apply State.count_frame | with_reducible apply State.fset_frame | with_reducible apply State.modPair_frame | with_reducible apply remapDrop_frame | with_reducible apply servicesRestart_frame | with_reducible apply keyxAbort_frame | with_reducible exact Sub.of (by assumption) (by decide) | with_reducible exact Sub.bit (by assumption) (by decide) | split)

theorem lockstep_frame (p : Nat) (pc : DWord) {s0 t : State} {E : Nat} (h : Fr E s0 t) (hE : Sub 0x4008490090 E := by exact Sub.of (by assumption) (by decide)) :
    Fr E s0 (lockstep p pc t) := by
  unfold lockstep
  (try dsimp only)
  repeat' (first | with_reducible assumption | with_reducible apply Fr.ite | with_reducible apply State.modPair_frame | with_reducible apply State.raise_frame | with_reducible apply pairRestart_frame | with_reducible exact Sub.of (by assumption) (by decide) | with_reducible exact Sub.bit (by assumption) (by decide) | split)

theorem logRead_frame (slot : Nat) {s0 t : State} {E : Nat} (h : Fr E s0 t) (hE : Sub 0x8084020b1 E := by exact Sub.of (by assumption) (by decide)) :
    Fr E s0 (logRead slot t) := by
  unfold logRead
  (try dsimp only)
  repeat' (first | with_reducible assumption | with_reducible apply Fr.ite | with_reducible apply busWriteAll_frame | with_reducible apply svcRespond_frame | with_reducible exact Sub.of (by assumption) (by decide) | split)

theorem masterFix_frame (c : Nat) (e : Nat) {s0 t : State} {E : Nat} (h : Fr E s0 t) (hE : Sub 0x80000480 E := by exact Sub.of (by assumption) (by decide)) :
    Fr E s0 (masterFix c e t).2 := by
  unfold masterFix
  (try dsimp only)
  repeat' (first | with_reducible assumption | with_reducible apply State.modClause_frame | with_reducible apply State.raise_frame | with_reducible exact Sub.of (by assumption) (by decide) | with_reducible exact Sub.bit (by assumption) (by decide) | split)

theorem setContent_frame (k : Nat) (e : Nat × Bool) {s0 t : State} {E : Nat} (h : Fr E s0 t) (hE : Sub 0x20000 E := by exact Sub.of (by assumption) (by decide)) :
    Fr E s0 (setContent k t e) := by
  unfold setContent
  (try dsimp only)
  repeat' (first | with_reducible assumption | with_reducible exact Or.inr (Sub.bit (by assumption) (by decide)) | with_reducible exact Or.inl rfl | with_reducible rfl | (simp only [Fr.mk_eq]; with_reducible apply FrF.upd))

theorem memEdge_frame (ts : List Nat) (s0_ : State) (k : Nat) {s0 t : State} {E : Nat} (hs0_ : Fr E s0 s0_) (h : Fr E s0 t) (hE : Sub 0x20000 E := by exact Sub.of (by assumption) (by decide)) :
    Fr E s0 (memEdge ts s0_ t k) := by
  unfold memEdge
  (try dsimp only)
  repeat' (first | with_reducible assumption | with_reducible exact Or.inr (Sub.bit (by assumption) (by decide)) | with_reducible exact Or.inl rfl | with_reducible rfl | with_reducible apply Fr.ite | with_reducible apply setContent_frame | (simp only [Fr.mk_eq]; with_reducible apply FrF.upd) | with_reducible apply Fr.foldl | (intro _ _ _) | (intro _ _) | with_reducible exact Sub.of (by assumption) (by decide) | split)

theorem memRequest_frame (r : Nat) (p : Packet) {s0 t : State} {E : Nat} (h : Fr E s0 t) (hE : Sub 0x8085020b1 E := by exact Sub.of (by assumption) (by decide)) :
    Fr E s0 (memRequest r p t) := by
  unfold memRequest
  (try dsimp only)
  repeat' (first | with_reducible assumption | with_reducible apply Fr.ite | with_reducible apply send_frame | with_reducible apply nocEnqueue_frame | with_reducible apply memWrite_frame | with_reducible apply memRead_frame | with_reducible exact Sub.of (by assumption) (by decide) | split)

theorem migrateParity_frame (c : Nat) (target : Nat) {s0 t : State} {E : Nat} (h : Fr E s0 t) (hE : Sub 0x100000080 E := by exact Sub.of (by assumption) (by decide)) :
    Fr E s0 (migrateParity c target t) := by
  unfold migrateParity
  (try dsimp only)
  repeat' (first | with_reducible assumption | with_reducible apply State.raise_frame | with_reducible apply State.count_frame | with_reducible apply Fr.foldl | (intro _ _ _) | (intro _ _) | with_reducible exact Sub.of (by assumption) (by decide) | with_reducible exact Sub.bit (by assumption) (by decide) | (rw [F.CLS_CNT_CQPAR_COUNT_block]; exact Sub.bit (by assumption) (by decide)) | (rw [F.CLS_CNT_VSPAR_COUNT_block]; exact Sub.bit (by assumption) (by decide)) | (rw [F.CLS_EVT_CQ_PARITY_block]; exact Sub.bit (by assumption) (by decide)) | (rw [F.CLS_EVT_VS_PARITY_block]; exact Sub.bit (by assumption) (by decide)))

theorem migrationEnd_frame (c : Nat) (mismatches : Nat) (cycles : Nat) {s0 t : State} {E : Nat} (h : Fr E s0 t) (hE : Sub 0x9c04436b1 E := by exact Sub.of (by assumption) (by decide)) :
    Fr E s0 (migrationEnd c mismatches cycles t) := by
  unfold migrationEnd
  (try dsimp only)
  repeat' (first | with_reducible assumption | with_reducible apply Fr.ite | with_reducible apply State.modClause_frame | with_reducible apply migrateParity_frame | with_reducible apply patchNow_frame | with_reducible apply ckptStart_frame | with_reducible apply spareReport_frame | with_reducible exact Sub.of (by assumption) (by decide) | split)

theorem modeRetry_frame (l : Nat) {s0 t : State} {E : Nat} (h : Fr E s0 t) (hE : Sub 0x4000 E := by exact Sub.of (by assumption) (by decide)) :
    Fr E s0 (modeRetry l t) := by
  unfold modeRetry
  (try dsimp only)
  repeat' (first | with_reducible assumption | with_reducible apply Fr.ite | with_reducible apply linkTrain_frame | with_reducible exact Sub.of (by assumption) (by decide) | split)

theorem nocAge_frame (r : Nat) {s0 t : State} {E : Nat} (h : Fr E s0 t) (hE : Sub 0x100000 E := by exact Sub.of (by assumption) (by decide)) :
    Fr E s0 (nocAge r t) := by
  unfold nocAge
  (try dsimp only)
  repeat' (first | with_reducible assumption | with_reducible apply State.setWaitq_frame | with_reducible exact Sub.of (by assumption) (by decide))

theorem nocForward_frame (r : Nat) (port : Nat) (err : HopError) {s0 t : State} {E : Nat} (h : Fr E s0 t) (hE : Sub 0x20100080 E := by exact Sub.of (by assumption) (by decide)) :
    Fr E s0 (nocForward r port err t) := by
  unfold nocForward
  (try dsimp only)
  repeat' (first | with_reducible assumption | with_reducible exact Or.inr (Sub.bit (by assumption) (by decide)) | with_reducible exact Or.inl rfl | with_reducible rfl | with_reducible apply Fr.ite | with_reducible apply State.setWaitq_frame | with_reducible apply State.setRxq_frame | with_reducible apply hopFixed_frame | with_reducible apply hopUe_frame | (simp only [Fr.mk_eq]; with_reducible apply FrF.upd) | with_reducible exact Sub.of (by assumption) (by decide) | split)

theorem txnDone_frame (t1 : Txn) (status : Nat) (bs : List Byte) {s0 t : State} {E : Nat} (h : Fr E s0 t) (hE : Sub 0x100001 E := by exact Sub.of (by assumption) (by decide)) :
    Fr E s0 (txnDone t1 status bs t) := by
  unfold txnDone
  (try dsimp only)
  repeat' (first | with_reducible assumption | with_reducible exact Or.inr (Sub.bit (by assumption) (by decide)) | with_reducible exact Or.inl rfl | with_reducible rfl | with_reducible apply nocPump_frame | with_reducible apply rimAnswer_frame | (simp only [Fr.mk_eq]; with_reducible apply FrF.upd) | with_reducible exact Sub.of (by assumption) (by decide))

theorem takeResponse_frame (r : Nat) (p : Packet) {s0 t : State} {E : Nat} (h : Fr E s0 t) (hE : Sub 0x20100001 E := by exact Sub.of (by assumption) (by decide)) :
    Fr E s0 (takeResponse r p t) := by
  unfold takeResponse
  (try dsimp only)
  repeat' (first | with_reducible assumption | with_reducible apply Fr.ite | with_reducible apply txnDone_frame | with_reducible apply State.count_frame | with_reducible exact Sub.of (by assumption) (by decide) | with_reducible exact Sub.bit (by assumption) (by decide) | split)

theorem regWrite_frame (req : Requester) (a : Nat) (size : Nat) (w : DWord) {s0 t u : State} {E : Nat} {rv} (h : Fr E s0 t)
    (e : regWrite req a size w t = .ok (rv, u)) (hE : Sub 0xffffffffbd E := by exact Sub.of (by assumption) (by decide)) : Fr E s0 u := regWriteWith_frame _ _ _ _ _ (fun _ _ _ a b => engineGo_frame _ a b) h e

theorem regRequest_frame (r : Nat) (p : Packet) {s0 t u : State} {E : Nat} (h : Fr E s0 t)
    (e : regRequest r p t = .ok u) (hE : Sub 0xffffffffbd E := by exact Sub.of (by assumption) (by decide)) : Fr E s0 u := by
  unfold regRequest at e
  dsimp only at e
  split at e
  · cases e; exact send_frame _ _ h
  · split at e
    · cases e; exact send_frame _ _ h
    · split at e
      · split at e
        · cases e; exact send_frame _ _ h
        · obtain ⟨y, hy, rfl⟩ := exc_map e
          exact send_frame _ _ (regWrite_frame _ _ _ _ h hy)
      · rw [← Except.ok.inj e]
        exact send_frame _ _ (regRead_frame _ _ _ h)

theorem takeTrace_frame (bs : List Byte) {s0 t u : State} {E : Nat} (h : Fr E s0 t)
    (e : takeTrace bs t = some u) (hE : Sub 0x40000 E := by exact Sub.of (by assumption) (by decide)) : Fr E s0 u := by
  unfold takeTrace at e
  (try dsimp only at e)
  repeat' (split at e)
  all_goals (try cases e)
  all_goals (repeat' (first | with_reducible assumption | with_reducible apply Fr.ite | with_reducible apply State.modMt_frame | with_reducible exact Sub.of (by assumption) (by decide) | split))

theorem takePacket_frame (r : Nat) (p : Packet) {s0 t u : State} {E : Nat} (h : Fr E s0 t)
    (e : takePacket r p t = .ok (some u)) (hE : Sub 0xffffffffbd E := by exact Sub.of (by assumption) (by decide)) : Fr E s0 u := by
  unfold takePacket at e
  split at e
  · cases e; exact takeResponse_frame _ _ h
  · split at e
    · by_cases hc : (!t.canSend r (response r p 0 (if p.op = 1 then p.payload ++ List.replicate p.size 0#8 else []))) = true
      · rw [if_pos hc] at e; cases e
      · rw [if_neg hc] at e
        split at e
        · cases e
        · split at e
          · cases e; exact memRequest_frame _ _ h
          · obtain ⟨y, hy, e⟩ := exc_map e
            cases e; exact regRequest_frame _ _ h hy
    · split at e
      · rw [← Option.some.inj (Except.ok.inj e)]
        refine Fr.ite ?_ (routeDrop_frame _ _ h)
        simp only [Fr.mk_eq]
        with_reducible apply FrF.upd
        all_goals first | exact Or.inr (Sub.bit hE (by decide)) | with_reducible exact Or.inl rfl | with_reducible rfl | with_reducible assumption
      · split at e
        · exact takeTrace_frame _ h (Except.ok.inj e)
        · cases e; exact routeDrop_frame _ _ h

theorem nocReceive_frame (r : Nat) (err : HopError) (a3 : List Flight) {s0 t u : State} {E : Nat} (h : Fr E s0 t)
    (e : nocReceive r err t a3 = .ok u) (hE : Sub 0xffffffffbd E := by exact Sub.of (by assumption) (by decide)) : Fr E s0 u := by
  induction a3 generalizing t with
  | nil => cases e; exact h
  | cons f l ih =>
    unfold nocReceive at e
    dsimp only at e
    have g := checkPacket_frame r f.pkt err (State.setRxq_frame r ((t.rxq r).erase f) h)
    split at e
    · rename_i hc
      rw [hc] at g
      rw [← Except.ok.inj e]; exact nocPump_frame g
    · rename_i hc
      rw [hc] at g
      split at e
      · cases e
      · rename_i hp
        rw [← Except.ok.inj e]; exact nocPump_frame (takePacket_frame _ _ g hp)
      · exact ih h e

theorem nocStarve_frame (k : Nat) {s0 t : State} {E : Nat} (h : Fr E s0 t) (hE : Sub 0x800002080 E := by exact Sub.of (by assumption) (by decide)) :
    Fr E s0 (nocStarve k t) := by
  unfold nocStarve
  (try dsimp only)
  repeat' (first | with_reducible assumption | with_reducible exact Or.inr (Sub.bit (by assumption) (by decide)) | with_reducible exact Or.inl rfl | with_reducible rfl | with_reducible apply Fr.ite | with_reducible apply State.raise_frame | (simp only [Fr.mk_eq]; with_reducible apply FrF.upd) | with_reducible exact Sub.of (by assumption) (by decide) | with_reducible exact Sub.bit (by assumption) (by decide) | split)

theorem nocTimeout_frame (k : Nat) {s0 t : State} {E : Nat} (h : Fr E s0 t) (hE : Sub 0x20100081 E := by exact Sub.of (by assumption) (by decide)) :
    Fr E s0 (nocTimeout k t) := by
  unfold nocTimeout
  (try dsimp only)
  repeat' (first | with_reducible assumption | with_reducible exact Or.inr (Sub.bit (by assumption) (by decide)) | with_reducible exact Or.inl rfl | with_reducible rfl | with_reducible apply txnDone_frame | with_reducible apply State.raise_frame | with_reducible apply State.count_frame | (simp only [Fr.mk_eq]; with_reducible apply FrF.upd) | with_reducible exact Sub.of (by assumption) (by decide) | with_reducible exact Sub.bit (by assumption) (by decide) | split)

theorem oldDrained_frame {s0 t : State} {E : Nat} (h : Fr E s0 t) (hE : Sub 0x20100091 E := by exact Sub.of (by assumption) (by decide)) :
    Fr E s0 (oldDrained t) := by
  unfold oldDrained
  (try dsimp only)
  repeat' (first | with_reducible assumption | with_reducible apply Fr.ite | with_reducible apply State.freshNat_frame | with_reducible apply nocPump_frame | with_reducible apply State.raise_frame | with_reducible apply State.fset_frame | with_reducible exact Sub.of (by assumption) (by decide) | with_reducible exact Sub.bit (by assumption) (by decide) | split)

theorem oppSettle_frame {s0 t : State} {E : Nat} (h : Fr E s0 t) (hE : Sub 0x3000080 E := by exact Sub.of (by assumption) (by decide)) :
    Fr E s0 (oppSettle t) := by
  unfold oppSettle
  (try dsimp only)
  repeat' (first | with_reducible assumption | with_reducible exact Or.inr (Sub.bit (by assumption) (by decide)) | with_reducible exact Or.inl rfl | with_reducible rfl | with_reducible apply Fr.ite | with_reducible apply State.fset_frame | with_reducible apply oppDone_frame | with_reducible apply freqSwitch_frame | (simp only [Fr.mk_eq]; with_reducible apply FrF.upd) | with_reducible exact Sub.of (by assumption) (by decide) | with_reducible exact Sub.bit (by assumption) (by decide) | split)

theorem padCross_frame (b : Nat) (p : Nat) (hi : Bool) (up : Bool) {s0 t : State} {E : Nat} (h : Fr E s0 t) (hE : Sub 0x20000 E := by exact Sub.of (by assumption) (by decide)) :
    Fr E s0 (padCross b p hi up t) := by
  unfold padCross
  (try dsimp only)
  repeat' (first | with_reducible assumption | with_reducible apply Fr.ite | with_reducible apply State.modBank_frame | with_reducible exact Sub.of (by assumption) (by decide) | split)

theorem padTick_frame (b : Nat) {s0 t : State} {E : Nat} (h : Fr E s0 t) (hE : Sub 0x20000 E := by exact Sub.of (by assumption) (by decide)) :
    Fr E s0 (padTick b t) := by
  unfold padTick
  (try dsimp only)
  repeat' (first | with_reducible assumption | with_reducible apply Fr.ite | with_reducible apply State.modBank_frame | with_reducible apply Fr.foldl | (intro _ _ _) | (intro _ _) | with_reducible exact Sub.of (by assumption) (by decide) | split)

theorem pairHalted_frame (p : Nat) (priv : Nat) (pc : DWord) (lr : Option (Nat × Nat)) {s0 t : State} {E : Nat} (h : Fr E s0 t) (hE : Sub 0x68004462b1 E := by exact Sub.of (by assumption) (by decide)) :
    Fr E s0 (pairHalted p priv pc lr t) := by
  unfold pairHalted
  (try dsimp only)
  repeat' (first | with_reducible assumption | with_reducible exact Or.inr (Sub.bit (by assumption) (by decide)) | with_reducible exact Or.inl rfl | with_reducible rfl | with_reducible apply Fr.ite | with_reducible apply mtWatch_frame | with_reducible apply State.modPair_frame | with_reducible apply State.fset_frame | with_reducible apply mtHalt_frame | with_reducible apply State.raise_frame | with_reducible apply xtInput_frame | (simp only [Fr.mk_eq]; with_reducible apply FrF.upd) | with_reducible apply Fr.foldl | (intro _ _ _) | (intro _ _) | with_reducible exact Sub.of (by assumption) (by decide) | with_reducible exact Sub.bit (by assumption) (by decide) | (rw [F.DBG_PAIR_PRIV_block]; exact Sub.bit (by assumption) (by decide)) | split)

theorem paramCheck_frame (rim : Bool) (struck : Option (Nat × Nat)) {s0 t : State} {E : Nat} (h : Fr E s0 t) (hE : Sub 0x1080021080 E := by exact Sub.of (by assumption) (by decide)) :
    Fr E s0 (paramCheck rim struck t) := by
  unfold paramCheck
  (try dsimp only)
  repeat' (first | with_reducible assumption | with_reducible exact Or.inr (Sub.bit (by assumption) (by decide)) | with_reducible exact Or.inl rfl | with_reducible rfl | with_reducible apply Fr.ite | with_reducible apply State.fset_frame | with_reducible apply rimParamPost_frame | with_reducible apply schParamPost_frame | (simp only [Fr.mk_eq]; with_reducible apply FrF.upd) | with_reducible exact Sub.of (by assumption) (by decide) | with_reducible exact Sub.bit (by assumption) (by decide) | split)

theorem partnerMode_frame (l : Nat) {s0 t : State} {E : Nat} (h : Fr E s0 t) (hE : Sub 0x400004080 E := by exact Sub.of (by assumption) (by decide)) :
    Fr E s0 (partnerMode l t) := by
  unfold partnerMode
  (try dsimp only)
  repeat' (first | with_reducible assumption | with_reducible apply Fr.ite | with_reducible apply State.modLink_frame | with_reducible apply State.fset_frame | with_reducible apply linkTrain_frame | with_reducible apply linkModeFail_frame | with_reducible exact Sub.of (by assumption) (by decide) | with_reducible exact Sub.bit (by assumption) (by decide) | (rw [F.LNK_STAT_REASON_block]; exact Sub.bit (by assumption) (by decide)) | split)

theorem setForget_frame (set : Nat) {s0 t : State} {E : Nat} (h : Fr E s0 t) (hE : Sub 0x10000 E := by exact Sub.of (by assumption) (by decide)) :
    Fr E s0 (setForget set t) := by
  unfold setForget
  (try dsimp only)
  repeat' (first | with_reducible assumption | with_reducible exact Or.inr (Sub.bit (by assumption) (by decide)) | with_reducible exact Or.inl rfl | with_reducible rfl | (simp only [Fr.mk_eq]; with_reducible apply FrF.upd))

theorem setRestage_frame (set : Nat) (off : Bool) {s0 t : State} {E : Nat} (h : Fr E s0 t) (hE : Sub 0x80000000 E := by exact Sub.of (by assumption) (by decide)) :
    Fr E s0 (setRestage set off t) := by
  unfold setRestage
  (try dsimp only)
  repeat' (first | with_reducible assumption | with_reducible apply Fr.ite | with_reducible apply State.fset_frame | with_reducible apply Fr.foldl | (intro _ _ _) | (intro _ _) | with_reducible exact Sub.of (by assumption) (by decide) | with_reducible exact Sub.bit (by assumption) (by decide) | (rw [F.SCH_PU_MODE_block]; exact Sub.bit (by assumption) (by decide)) | split)

theorem patchSetEnd_frame {s0 t : State} {E : Nat} (h : Fr E s0 t) (hE : Sub 0x88410090 E := by exact Sub.of (by assumption) (by decide)) :
    Fr E s0 (patchSetEnd t) := by
  unfold patchSetEnd
  (try dsimp only)
  repeat' (first | with_reducible assumption | with_reducible exact Or.inr (Sub.bit (by assumption) (by decide)) | with_reducible exact Or.inl rfl | with_reducible rfl | with_reducible apply Fr.ite | with_reducible apply setForget_frame | with_reducible apply setRestage_frame | with_reducible apply svcRespond_frame | (simp only [Fr.mk_eq]; with_reducible apply FrF.upd) | with_reducible exact Sub.of (by assumption) (by decide) | split)

theorem patchAnswer_frame {s0 t : State} {E : Nat} (h : Fr E s0 t) (hE : Sub 0x88410090 E := by exact Sub.of (by assumption) (by decide)) :
    Fr E s0 (patchAnswer t) := by
  unfold patchAnswer
  (try dsimp only)
  repeat' (first | with_reducible assumption | with_reducible apply Fr.ite | with_reducible apply patchSetEnd_frame | with_reducible exact Sub.of (by assumption) (by decide) | split)

theorem patchHoldBegin_frame {s0 t : State} {E : Nat} (h : Fr E s0 t) (hE : Sub 0x1000 E := by exact Sub.of (by assumption) (by decide)) :
    Fr E s0 (patchHoldBegin t) := by
  unfold patchHoldBegin
  (try dsimp only)
  repeat' (first | with_reducible assumption | with_reducible exact Or.inr (Sub.bit (by assumption) (by decide)) | with_reducible exact Or.inl rfl | with_reducible rfl | with_reducible apply Fr.ite | (simp only [Fr.mk_eq]; with_reducible apply FrF.upd) | split)

theorem patchHoldEnd_frame {s0 t : State} {E : Nat} (h : Fr E s0 t) (hE : Sub 0x80041490 E := by exact Sub.of (by assumption) (by decide)) :
    Fr E s0 (patchHoldEnd t) := by
  unfold patchHoldEnd
  (try dsimp only)
  repeat' (first | with_reducible assumption | with_reducible apply Fr.ite | with_reducible apply patchFinish_frame | with_reducible exact Sub.of (by assumption) (by decide) | split)

theorem patchSet_frame (slot : Nat) {s0 t : State} {E : Nat} (h : Fr E s0 t) (hE : Sub 0x88451490 E := by exact Sub.of (by assumption) (by decide)) :
    Fr E s0 (patchSet slot t) := by
  unfold patchSet
  dsimp only
  split
  · exact svcRespond_frame _ _ _ _ h
  · refine Fr.ite (svcRespond_frame _ _ _ _ h) (Fr.ite (svcRespond_frame _ _ _ _ (patchApply_frame h)) ?_)
    split
    · exact svcRespond_frame _ _ _ _ h
    · rename_i u hs
      have hu : Fr E s0 u := by
        split at hs
        · cases hs; exact setRestage_frame _ _ h
        · exact stageSet_frame _ _ h hs
      refine patchAnswer_frame (patchApply_frame ?_)
      simp only [Fr.mk_eq]
      with_reducible apply FrF.upd
      all_goals first | exact Or.inr (Sub.bit hE (by decide)) | with_reducible exact Or.inl rfl | with_reducible rfl | with_reducible assumption

theorem pcieReset_frame (k : Nat) {s0 t : State} {E : Nat} (h : Fr E s0 t) (hE : Sub 0x6d516e66b1 E := by exact Sub.of (by assumption) (by decide)) :
    Fr E s0 (pcieReset k t) := by
  unfold pcieReset
  (try dsimp only)
  repeat' (first | with_reducible assumption | with_reducible apply Fr.ite | with_reducible apply State.raise_frame | with_reducible apply hifReset_frame | with_reducible apply setLevel_frame | with_reducible exact Sub.of (by assumption) (by decide) | with_reducible exact Sub.bit (by assumption) (by decide) | split)

theorem peerRepeat_frame (l : Nat) {s0 t : State} {E : Nat} (h : Fr E s0 t) (hE : Sub 0x4000 E := by exact Sub.of (by assumption) (by decide)) :
    Fr E s0 (peerRepeat l t) := by
  unfold peerRepeat
  (try dsimp only)
  repeat' (first | with_reducible assumption | with_reducible apply Fr.ite | with_reducible apply linkAnnounce_frame | with_reducible apply State.modLink_frame | with_reducible exact Sub.of (by assumption) (by decide) | split)

theorem tuCross_frame (u : Nat) (hi : Bool) (up : Bool) (tick : Nat) (fine : Nat) {s0 t : State} {E : Nat} (h : Fr E s0 t) (hE : Sub 0x40010 E := by exact Sub.of (by assumption) (by decide)) :
    Fr E s0 (tuCross u hi up tick fine t) := by
  unfold tuCross
  (try dsimp only)
  repeat' (first | with_reducible assumption | with_reducible apply Fr.ite | with_reducible apply State.modUnit_frame | with_reducible apply measOf_frame | with_reducible apply tuMatch_frame | with_reducible exact Sub.of (by assumption) (by decide) | split)

theorem pinCrossing_frame (bank : Nat) (pin : Nat) (hi : Bool) (up : Bool) (mv : Nat) (fine : Nat) {s0 t : State} {E : Nat} (h : Fr E s0 t) (hE : Sub 0x60010 E := by exact Sub.of (by assumption) (by decide)) :
    Fr E s0 (pinCrossing bank pin hi up mv fine t) := by
  unfold pinCrossing
  (try dsimp only)
  repeat' (first | with_reducible assumption | with_reducible apply Fr.ite | with_reducible apply tuCross_frame | with_reducible apply padCross_frame | with_reducible apply Fr.foldl | (intro _ _ _) | (intro _ _) | with_reducible exact Sub.of (by assumption) (by decide) | split)

theorem pllLock_frame (p : Nat) (on : Bool) {s0 t : State} {E : Nat} (h : Fr E s0 t) (hE : Sub 0x1000020080 E := by exact Sub.of (by assumption) (by decide)) :
    Fr E s0 (pllLock p on t) := by
  unfold pllLock
  (try dsimp only)
  repeat' (first | with_reducible assumption | with_reducible exact Or.inr (Sub.bit (by assumption) (by decide)) | with_reducible exact Or.inl rfl | with_reducible rfl | with_reducible apply Fr.ite | with_reducible apply State.raise_frame | (simp only [Fr.mk_eq]; with_reducible apply FrF.upd) | with_reducible exact Sub.of (by assumption) (by decide) | with_reducible exact Sub.bit (by assumption) (by decide) | split)

theorem porstRelease_frame {s0 t : State} {E : Nat} (h : Fr E s0 t) (hE : Sub 0x81410400 E := by exact Sub.of (by assumption) (by decide)) :
    Fr E s0 (porstRelease t) := by
  unfold porstRelease
  (try dsimp only)
  repeat' (first | with_reducible assumption | with_reducible exact Or.inr (Sub.bit (by assumption) (by decide)) | with_reducible exact Or.inl rfl | with_reducible rfl | with_reducible apply Fr.ite | with_reducible apply loadPhraseMap_frame | with_reducible apply bootSelect_frame | (simp only [Fr.mk_eq]; with_reducible apply FrF.upd) | with_reducible exact Sub.of (by assumption) (by decide) | split)

theorem ppsEdge_frame {s0 t : State} {E : Nat} (h : Fr E s0 t) (hE : Sub 0x3000094 E := by exact Sub.of (by assumption) (by decide)) :
    Fr E s0 (ppsEdge t) := by
  unfold ppsEdge
  (try dsimp only)
  repeat' (first | with_reducible assumption | with_reducible exact Or.inr (Sub.bit (by assumption) (by decide)) | with_reducible exact Or.inl rfl | with_reducible rfl | with_reducible apply Fr.ite | with_reducible apply State.raise_frame | with_reducible apply State.fset_frame | with_reducible apply State.freshNat_frame | (simp only [Fr.mk_eq]; with_reducible apply FrF.upd) | with_reducible exact Sub.of (by assumption) (by decide) | with_reducible exact Sub.bit (by assumption) (by decide) | split)

theorem ppsMissing_frame {s0 t : State} {E : Nat} (h : Fr E s0 t) (hE : Sub 0x3000080 E := by exact Sub.of (by assumption) (by decide)) :
    Fr E s0 (ppsMissing t) := by
  unfold ppsMissing
  (try dsimp only)
  repeat' (first | with_reducible assumption | with_reducible exact Or.inr (Sub.bit (by assumption) (by decide)) | with_reducible exact Or.inl rfl | with_reducible rfl | with_reducible apply Fr.ite | with_reducible apply State.raise_frame | with_reducible apply State.fset_frame | (simp only [Fr.mk_eq]; with_reducible apply FrF.upd) | with_reducible exact Sub.of (by assumption) (by decide) | with_reducible exact Sub.bit (by assumption) (by decide) | split)

theorem ptimeTick_frame {s0 t : State} {E : Nat} (h : Fr E s0 t) (hE : Sub 0x1000004 E := by exact Sub.of (by assumption) (by decide)) :
    Fr E s0 (ptimeTick t) := by
  unfold ptimeTick
  (try dsimp only)
  repeat' (first | with_reducible assumption | with_reducible exact Or.inr (Sub.bit (by assumption) (by decide)) | with_reducible exact Or.inl rfl | with_reducible rfl | with_reducible apply Fr.ite | (simp only [Fr.mk_eq]; with_reducible apply FrF.upd) | split)

theorem readAnswer_frame (req : Requester) (st : Nat) (bs : List Byte) {s0 t : State} {E : Nat} (h : Fr E s0 t) (hE : Sub 0x10000001 E := by exact Sub.of (by assumption) (by decide)) :
    Fr E s0 (readAnswer req st bs t) := by
  unfold readAnswer
  (try dsimp only)
  repeat' (first | with_reducible assumption | with_reducible apply Fr.ite | with_reducible apply hostAnswer_frame | with_reducible apply State.emit_frame | with_reducible exact Sub.of (by assumption) (by decide) | split)

theorem regReadCmd_frame (req : Requester) (a : Nat) (size : Nat) {s0 t : State} {E : Nat} (h : Fr E s0 t) (hE : Sub 0x10000101 E := by exact Sub.of (by assumption) (by decide)) :
    Fr E s0 (regReadCmd req a size t) := by
  unfold regReadCmd
  (try dsimp only)
  repeat' (first | with_reducible assumption | with_reducible apply regRead_frame | with_reducible apply readAnswer_frame | with_reducible exact Sub.of (by assumption) (by decide))

theorem writeAnswer_frame (req : Requester) (off : Nat) (st : Nat) {s0 t : State} {E : Nat} (h : Fr E s0 t) (hE : Sub 0x10000081 E := by exact Sub.of (by assumption) (by decide)) :
    Fr E s0 (writeAnswer req off st t) := by
  unfold writeAnswer
  (try dsimp only)
  repeat' (first | with_reducible assumption | with_reducible apply Fr.ite | with_reducible apply hostWriteErr_frame | with_reducible apply State.emit_frame | with_reducible exact Sub.of (by assumption) (by decide) | split)

theorem regWriteCmd_frame (req : Requester) (a : Nat) (size : Nat) (w : DWord) {s0 t u : State} {E : Nat} (h : Fr E s0 t)
    (e : regWriteCmd req a size w t = .ok u) (hE : Sub 0xffffffffbd E := by exact Sub.of (by assumption) (by decide)) : Fr E s0 u := by
  obtain ⟨y, hy, rfl⟩ := exc_map e
  exact writeAnswer_frame _ _ _ (regWrite_frame _ _ _ _ h hy)

theorem reloadHoldBegin_frame {s0 t : State} {E : Nat} (h : Fr E s0 t) (hE : Sub 0x10000 E := by exact Sub.of (by assumption) (by decide)) :
    Fr E s0 (reloadHoldBegin t) := by
  unfold reloadHoldBegin
  (try dsimp only)
  repeat' (first | with_reducible assumption | with_reducible apply Fr.ite | with_reducible apply State.setJob_frame | with_reducible exact Sub.of (by assumption) (by decide) | split)

theorem revertEnd_frame (slot : Nat) {s0 t : State} {E : Nat} (h : Fr E s0 t) (hE : Sub 0x40004800e0 E := by exact Sub.of (by assumption) (by decide)) :
    Fr E s0 (revertEnd slot t) := by
  unfold revertEnd
  (try dsimp only)
  repeat' (first | with_reducible assumption | with_reducible apply Fr.ite | with_reducible apply secReload_frame | with_reducible apply commitRec_frame | with_reducible exact Sub.of (by assumption) (by decide) | split)

theorem restartDone_frame (p : Nat) {s0 t : State} {E : Nat} (h : Fr E s0 t) (hE : Sub 0x40004c00f0 E := by exact Sub.of (by assumption) (by decide)) :
    Fr E s0 (restartDone p t) := by
  unfold restartDone
  (try dsimp only)
  repeat' (first | with_reducible assumption | with_reducible exact Or.inr (Sub.bit (by assumption) (by decide)) | with_reducible exact Or.inl rfl | with_reducible rfl | with_reducible apply Fr.ite | with_reducible apply mtWatch_frame | with_reducible apply State.modPair_frame | with_reducible apply State.fresh_frame | with_reducible apply logWrite_frame | with_reducible apply revertEnd_frame | (simp only [Fr.mk_eq]; with_reducible apply FrF.upd) | with_reducible exact Sub.of (by assumption) (by decide) | split)

theorem restoreEvent_frame (c : Ckpt) (reason : Nat) {s0 t : State} {E : Nat} (h : Fr E s0 t) (hE : Sub 0x80000090 E := by exact Sub.of (by assumption) (by decide)) :
    Fr E s0 (restoreEvent c reason t) := by
  unfold restoreEvent
  (try dsimp only)
  repeat' (first | with_reducible assumption | with_reducible apply Fr.ite | with_reducible apply State.freshNat_frame | with_reducible apply loadRaise_frame | with_reducible exact Sub.of (by assumption) (by decide) | split)

theorem restoreClause_frame (c : Ckpt) (k : Nat) {s0 t : State} {E : Nat} (h : Fr E s0 t) (hE : Sub 0x400 E := by exact Sub.of (by assumption) (by decide)) :
    Fr E s0 (restoreClause c t k) := by
  unfold restoreClause
  (try dsimp only)
  repeat' (first | with_reducible assumption | with_reducible apply State.modClause_frame | with_reducible exact Sub.of (by assumption) (by decide))

theorem restoreRets_frame (c : Ckpt) {s0 t : State} {E : Nat} (h : Fr E s0 t) (hE : Sub 0x2000 E := by exact Sub.of (by assumption) (by decide)) :
    Fr E s0 (restoreRets c t) := by
  unfold restoreRets
  (try dsimp only)
  repeat' (first | with_reducible assumption | with_reducible exact Or.inr (Sub.bit (by assumption) (by decide)) | with_reducible exact Or.inl rfl | with_reducible rfl | (simp only [Fr.mk_eq]; with_reducible apply FrF.upd))

theorem restoreMem_frame (c : Ckpt) (ok : Bool) {s0 t : State} {E : Nat} (h : Fr E s0 t) (hE : Sub 0x2030 E := by exact Sub.of (by assumption) (by decide)) :
    Fr E s0 (restoreMem c ok t) := by
  unfold restoreMem
  (try dsimp only)
  repeat' (first | with_reducible assumption | with_reducible exact Or.inr (Sub.bit (by assumption) (by decide)) | with_reducible exact Or.inl rfl | with_reducible rfl | with_reducible apply Fr.ite | with_reducible apply State.fresh_frame | with_reducible apply State.storeByte_frame | (simp only [Fr.mk_eq]; with_reducible apply FrF.upd) | with_reducible apply Fr.foldl | (intro _ _ _) | (intro _ _) | with_reducible exact Sub.of (by assumption) (by decide) | split)

theorem restoreUnit_frame (c : Ckpt) (u : Nat) {s0 t : State} {E : Nat} (h : Fr E s0 t) (hE : Sub 0x2000040000 E := by exact Sub.of (by assumption) (by decide)) :
    Fr E s0 (restoreUnit c t u) := by
  have hf : ∀ (l : List (Fld × Nat)) (v : State), (∀ e ∈ l, e.1 ∈ unitFields u) → Fr E s0 v →
      Fr E s0 (l.foldl (fun s e => s.fset e.1 e.2) v) := by
    intro l v hl hv
    refine Fr.foldl_mem (fun w e he hw => State.fset_frame _ _ hw ?_) hv
    have := unitFields_block u e.1 (hl e he)
    rw [this]
    exact Sub.bit hE (by decide)
  have g := hf ((unitFields u).zip (kvGet [] c.trig u)) t (fun e he => (List.of_mem_zip he).1) h
  revert g
  unfold restoreUnit
  dsimp only
  generalize List.foldl _ t _ = v
  intro g
  split
  · simp only [Fr.mk_eq]
    with_reducible apply FrF.upd
    all_goals first | exact Or.inr (Sub.bit hE (by decide)) | with_reducible exact Or.inl rfl | with_reducible rfl | exact State.modUnit_frame _ _ (by with_reducible assumption)
  · exact State.modUnit_frame _ _ g

theorem restoreRim_frame (c : Ckpt) {s0 t : State} {E : Nat} (h : Fr E s0 t) (hE : Sub 0x20000 E := by exact Sub.of (by assumption) (by decide)) :
    Fr E s0 (restoreRim c t) := by
  unfold restoreRim
  (try dsimp only)
  repeat' (first | with_reducible assumption | with_reducible apply Fr.ite | with_reducible apply State.modGroup_frame | with_reducible apply Fr.foldl | (intro _ _ _) | (intro _ _) | with_reducible exact Sub.of (by assumption) (by decide) | split)

theorem restoreLink_frame (c : Ckpt) (l : Nat) {s0 t : State} {E : Nat} (h : Fr E s0 t) (hE : Sub 0x4000 E := by exact Sub.of (by assumption) (by decide)) :
    Fr E s0 (restoreLink c t l) := by
  unfold restoreLink
  (try dsimp only)
  repeat' (first | with_reducible assumption | with_reducible apply Fr.ite | with_reducible apply linkTo_frame | with_reducible apply State.modLink_frame | with_reducible apply linkAnnounce_frame | with_reducible exact Sub.of (by assumption) (by decide) | split)

theorem sigOff_frame {s0 t : State} {E : Nat} (h : Fr E s0 t) (hE : Sub 0x2000040000 E := by exact Sub.of (by assumption) (by decide)) :
    Fr E s0 (sigOff t) := by
  unfold sigOff
  (try dsimp only)
  repeat' (first | with_reducible assumption | with_reducible apply State.fset_frame | with_reducible apply State.modSig_frame | with_reducible exact Sub.of (by assumption) (by decide) | with_reducible exact Sub.bit (by assumption) (by decide))

theorem restoreApply_frame (c : Ckpt) (ok : Bool) {s0 t : State} {E : Nat} (h : Fr E s0 t) (hE : Sub 0x24000e66b0 E := by exact Sub.of (by assumption) (by decide)) :
    Fr E s0 (restoreApply c ok t) := by
  unfold restoreApply
  (try dsimp only)
  repeat' (first | with_reducible assumption | with_reducible exact Or.inr (Sub.bit (by assumption) (by decide)) | with_reducible exact Or.inl rfl | with_reducible rfl | with_reducible apply restoreClause_frame | with_reducible apply restoreRets_frame | with_reducible apply restoreMem_frame | with_reducible apply restoreUnit_frame | with_reducible apply restoreRim_frame | with_reducible apply restoreLink_frame | with_reducible apply sigOff_frame | with_reducible apply linkCompare_frame | (simp only [Fr.mk_eq]; with_reducible apply FrF.upd) | with_reducible apply Fr.foldl | (intro _ _ _) | (intro _ _) | with_reducible exact Sub.of (by assumption) (by decide))

theorem restore_frame (slot : Nat) (crcOk : Bool) (writeOk : Bool) (host : Option Ckpt) {s0 t : State} {E : Nat} (h : Fr E s0 t) (hE : Sub 0x24884e66b0 E := by exact Sub.of (by assumption) (by decide)) :
    Fr E s0 (restore slot crcOk writeOk host t) := by
  unfold restore
  (try dsimp only)
  repeat' (first | with_reducible assumption | with_reducible apply Fr.ite | with_reducible apply svcRespond_frame | with_reducible apply restoreEvent_frame | with_reducible apply restoreApply_frame | with_reducible exact Sub.of (by assumption) (by decide) | split)

theorem resumeDone_frame (l : Nat) (tag : BitVec 16) {s0 t : State} {E : Nat} (h : Fr E s0 t) (hE : Sub 0x400004081 E := by exact Sub.of (by assumption) (by decide)) :
    Fr E s0 (resumeDone l tag t) := by
  unfold resumeDone
  (try dsimp only)
  repeat' (first | with_reducible assumption | with_reducible apply Fr.ite | with_reducible apply linkGoBack_frame | with_reducible apply State.raise_frame | with_reducible apply State.modLink_frame | with_reducible apply linkTo_frame | with_reducible exact Sub.of (by assumption) (by decide) | with_reducible exact Sub.bit (by assumption) (by decide) | (rw [F.LNK_EVT_RESUMED_block]; exact Sub.bit (by assumption) (by decide)) | split)

theorem resumeFail_frame (l : Nat) (reason : Nat) {s0 t : State} {E : Nat} (h : Fr E s0 t) (hE : Sub 0x400004080 E := by exact Sub.of (by assumption) (by decide)) :
    Fr E s0 (resumeFail l reason t) := by
  unfold resumeFail
  (try dsimp only)
  repeat' (first | with_reducible assumption | with_reducible apply Fr.ite | with_reducible apply linkDown_frame | with_reducible exact Sub.of (by assumption) (by decide) | split)

theorem retryAgain_frame (l : Nat) {s0 t : State} {E : Nat} (h : Fr E s0 t) (hE : Sub 0x4000 E := by exact Sub.of (by assumption) (by decide)) :
    Fr E s0 (retryAgain l t) := by
  unfold retryAgain
  (try dsimp only)
  repeat' (first | with_reducible assumption | with_reducible apply Fr.ite | with_reducible apply State.modLink_frame | with_reducible apply ctlPut_frame | with_reducible exact Sub.of (by assumption) (by decide) | split)

theorem rimEdge_frame (ts : List Nat) {s0 t : State} {E : Nat} (h : Fr E s0 t) (hE : Sub 0x20000 E := by exact Sub.of (by assumption) (by decide)) :
    Fr E s0 (rimEdge ts t) := by
  unfold rimEdge
  (try dsimp only)
  repeat' (first | with_reducible assumption | with_reducible apply Fr.ite | with_reducible apply ffEdge_frame | with_reducible apply memEdge_frame | with_reducible apply bankEdge_frame | with_reducible apply State.modGroup_frame | with_reducible apply Fr.foldl | (intro _ _ _) | (intro _ _) | with_reducible exact Sub.of (by assumption) (by decide) | split)

theorem rimInWrite_frame (g : Nat) (e : DWord) {s0 t : State} {E : Nat} (h : Fr E s0 t) (hE : Sub 0x20000 E := by exact Sub.of (by assumption) (by decide)) :
    Fr E s0 (rimInWrite g e t) := by
  unfold rimInWrite
  (try dsimp only)
  repeat' (first | with_reducible assumption | with_reducible apply Fr.ite | with_reducible apply State.modGroup_frame | with_reducible exact Sub.of (by assumption) (by decide) | split)

theorem rimOnehot_frame (a : Nat) (mux : Nat) {s0 t : State} {E : Nat} (h : Fr E s0 t) (hE : Sub 0x1000020080 E := by exact Sub.of (by assumption) (by decide)) :
    Fr E s0 (rimOnehot a mux t) := by
  unfold rimOnehot
  (try dsimp only)
  repeat' (first | with_reducible assumption | with_reducible exact Or.inr (Sub.bit (by assumption) (by decide)) | with_reducible exact Or.inl rfl | with_reducible rfl | with_reducible apply Fr.ite | with_reducible apply lastErr_frame | with_reducible apply State.count_frame | with_reducible apply State.raise_frame | (simp only [Fr.mk_eq]; with_reducible apply FrF.upd) | with_reducible exact Sub.of (by assumption) (by decide) | with_reducible exact Sub.bit (by assumption) (by decide) | split)

theorem rimOutRead_frame (g : Nat) {s0 t : State} {E : Nat} (h : Fr E s0 t) (hE : Sub 0x20001 E := by exact Sub.of (by assumption) (by decide)) :
    Fr E s0 (rimOutRead g t) := by
  unfold rimOutRead
  (try dsimp only)
  repeat' (first | with_reducible assumption | with_reducible apply Fr.ite | with_reducible apply State.emit_frame | with_reducible apply State.modGroup_frame | with_reducible exact Sub.of (by assumption) (by decide) | split)

theorem rimRequest_frame (x : RimReq) {s0 t : State} {E : Nat} (h : Fr E s0 t) (hE : Sub 0x100001 E := by exact Sub.of (by assumption) (by decide)) :
    Fr E s0 (rimRequest x t) := by
  unfold rimRequest
  (try dsimp only)
  repeat' (first | with_reducible assumption | with_reducible exact Or.inr (Sub.bit (by assumption) (by decide)) | with_reducible exact Or.inl rfl | with_reducible rfl | with_reducible apply nocPump_frame | (simp only [Fr.mk_eq]; with_reducible apply FrF.upd) | with_reducible exact Sub.of (by assumption) (by decide))

theorem scrubWord_frame (a : Nat) (w : Nat) {s0 t : State} {E : Nat} (h : Fr E s0 t) (hE : Sub 0x1000020080 E := by exact Sub.of (by assumption) (by decide)) :
    Fr E s0 (scrubWord a w t) := by
  unfold scrubWord
  (try dsimp only)
  repeat' (first | with_reducible assumption | with_reducible exact Or.inr (Sub.bit (by assumption) (by decide)) | with_reducible exact Or.inl rfl | with_reducible rfl | with_reducible apply Fr.ite | with_reducible apply State.count_frame | with_reducible apply State.raise_frame | with_reducible apply lastErr_frame | (simp only [Fr.mk_eq]; with_reducible apply FrF.upd) | with_reducible exact Sub.of (by assumption) (by decide) | with_reducible exact Sub.bit (by assumption) (by decide) | split)

theorem rimScrub_frame {s0 t : State} {E : Nat} (h : Fr E s0 t) (hE : Sub 0x1000020080 E := by exact Sub.of (by assumption) (by decide)) :
    Fr E s0 (rimScrub t) := by
  unfold rimScrub
  (try dsimp only)
  repeat' (first | with_reducible assumption | with_reducible exact Or.inr (Sub.bit (by assumption) (by decide)) | with_reducible exact Or.inl rfl | with_reducible rfl | with_reducible apply scrubWord_frame | (simp only [Fr.mk_eq]; with_reducible apply FrF.upd) | with_reducible apply Fr.foldl | (intro _ _ _) | (intro _ _) | with_reducible exact Sub.of (by assumption) (by decide) | split)

theorem rimTick_frame {s0 t : State} {E : Nat} (h : Fr E s0 t) (hE : Sub 0x20000 E := by exact Sub.of (by assumption) (by decide)) :
    Fr E s0 (rimTick t) := by
  unfold rimTick
  (try dsimp only)
  repeat' (first | with_reducible assumption | with_reducible exact Or.inr (Sub.bit (by assumption) (by decide)) | with_reducible exact Or.inl rfl | with_reducible rfl | with_reducible apply Fr.ite | with_reducible apply padTick_frame | with_reducible apply rimEdge_frame | with_reducible apply ffReset_frame | (simp only [Fr.mk_eq]; with_reducible apply FrF.upd) | with_reducible apply Fr.foldl | (intro _ _ _) | (intro _ _) | with_reducible exact Sub.of (by assumption) (by decide) | split)

theorem ringResignal_frame {s0 t : State} {E : Nat} (h : Fr E s0 t) (hE : Sub 0x10200001 E := by exact Sub.of (by assumption) (by decide)) :
    Fr E s0 (ringResignal t) := by
  unfold ringResignal
  (try dsimp only)
  repeat' (first | with_reducible assumption | with_reducible apply Fr.ite | with_reducible apply State.count_frame | with_reducible apply signal_frame | with_reducible exact Sub.of (by assumption) (by decide) | with_reducible exact Sub.bit (by assumption) (by decide) | split)

theorem ringWrite_frame {s0 t : State} {E : Nat} (h : Fr E s0 t) (hE : Sub 0x200001 E := by exact Sub.of (by assumption) (by decide)) :
    Fr E s0 (ringWrite t) := by
  unfold ringWrite
  (try dsimp only)
  repeat' (first | with_reducible assumption | with_reducible exact Or.inr (Sub.bit (by assumption) (by decide)) | with_reducible exact Or.inl rfl | with_reducible rfl | with_reducible apply Fr.ite | with_reducible apply State.emit_frame | with_reducible apply State.modRing_frame | with_reducible apply ringSignal_frame | (simp only [Fr.mk_eq]; with_reducible apply FrF.upd) | with_reducible exact Sub.of (by assumption) (by decide) | split)

theorem rootLock_frame {s0 t : State} {E : Nat} (h : Fr E s0 t) (hE : Sub 0x300000c E := by exact Sub.of (by assumption) (by decide)) :
    Fr E s0 (rootLock t) := by
  unfold rootLock
  (try dsimp only)
  repeat' (first | with_reducible assumption | with_reducible exact Or.inr (Sub.bit (by assumption) (by decide)) | with_reducible exact Or.inl rfl | with_reducible rfl | with_reducible apply State.fset_frame | (simp only [Fr.mk_eq]; with_reducible apply FrF.upd) | with_reducible exact Sub.of (by assumption) (by decide) | with_reducible exact Sub.bit (by assumption) (by decide))

theorem setRoot_frame (r : Nat) (ok : Bool) {s0 t : State} {E : Nat} (h : Fr E s0 t) (hE : Sub 0x2000000 E := by exact Sub.of (by assumption) (by decide)) :
    Fr E s0 (setRoot r ok t) := by
  unfold setRoot
  (try dsimp only)
  repeat' (first | with_reducible assumption | with_reducible apply Fr.ite | with_reducible apply State.fsetb_frame | with_reducible exact Sub.of (by assumption) (by decide) | with_reducible exact Sub.bit (by assumption) (by decide) | split)

theorem rootPllFail_frame (kind : Nat) {s0 t : State} {E : Nat} (h : Fr E s0 t) (hE : Sub 0xffffffffac E := by exact Sub.of (by assumption) (by decide)) :
    Fr E s0 (rootPllFail kind t) := by
  unfold rootPllFail
  (try dsimp only)
  repeat' (first | with_reducible assumption | with_reducible exact Or.inr (Sub.bit (by assumption) (by decide)) | with_reducible exact Or.inl rfl | with_reducible rfl | with_reducible apply Fr.ite | with_reducible apply setRoot_frame | with_reducible apply deviceReset_frame | with_reducible apply State.raise_frame | with_reducible apply switchStart_frame | (simp only [Fr.mk_eq]; with_reducible apply FrF.upd) | with_reducible exact Sub.of (by assumption) (by decide) | with_reducible exact Sub.bit (by assumption) (by decide) | split)

theorem rootRetrain_frame (passed : Bool) {s0 t : State} {E : Nat} (h : Fr E s0 t) (hE : Sub 0x2000000 E := by exact Sub.of (by assumption) (by decide)) :
    Fr E s0 (rootRetrain passed t) := by
  unfold rootRetrain
  (try dsimp only)
  repeat' (first | with_reducible assumption | with_reducible apply Fr.ite | with_reducible apply setRoot_frame | with_reducible exact Sub.of (by assumption) (by decide) | split)

theorem rstTick_frame {s0 t : State} {E : Nat} (h : Fr E s0 t) (hE : Sub 0x1000000 E := by exact Sub.of (by assumption) (by decide)) :
    Fr E s0 (rstTick t) := by
  unfold rstTick
  (try dsimp only)
  repeat' (first | with_reducible assumption | with_reducible exact Or.inr (Sub.bit (by assumption) (by decide)) | with_reducible exact Or.inl rfl | with_reducible rfl | with_reducible apply Fr.ite | (simp only [Fr.mk_eq]; with_reducible apply FrF.upd) | split)

theorem scrubUe_frame (c : Nat) (row : Nat) (word : Nat) {s0 t : State} {E : Nat} (h : Fr E s0 t) (hE : Sub 0x80000480 E := by exact Sub.of (by assumption) (by decide)) :
    Fr E s0 (scrubUe c row word t) := by
  have hm : Fr E s0 ((List.range 4).foldl (fun (r : Bool × State) k =>
      (r.1 && (masterFix c (512 * (row - 8704) + 4 * word + k) r.2).1,
        (masterFix c (512 * (row - 8704) + 4 * word + k) r.2).2)) (true, t)).2 := by
    refine Fr.foldl_of (g := fun r : Bool × State => r.2) (t := (true, t)) (fun r p hr => ?_) h
    exact masterFix_frame _ _ hr
  unfold scrubUe
  dsimp only
  revert hm
  generalize List.foldl _ (true, t) (List.range 4) = r
  intro hm
  refine Fr.ite (setSchMark_frame _ _ _ _ (Fr.ite hm (State.raise_frame _ _ _ _ hm (Sub.bit hE (by decide)) (Sub.bit hE (by decide))))) (Fr.ite ?_ ?_)
  · exact setSchMark_frame _ _ _ _ (State.raise_frame _ _ _ _ h (Sub.bit hE (by decide)) (Sub.bit hE (by decide)))
  · exact State.raise_frame _ _ _ _ h (Sub.bit hE (by decide)) (Sub.bit hE (by decide))

theorem scrubRow_frame (c : Nat) {s0 t : State} {E : Nat} (h : Fr E s0 t) (hE : Sub 0x80400480 E := by exact Sub.of (by assumption) (by decide)) :
    Fr E s0 (scrubRow c t) := by
  unfold scrubRow
  (try dsimp only)
  repeat' (first | with_reducible assumption | with_reducible apply Fr.ite | with_reducible apply scrubUe_frame | with_reducible apply setSchMark_frame | with_reducible apply schCorrected_frame | with_reducible apply State.modClause_frame | with_reducible apply Fr.foldl | (intro _ _ _) | (intro _ _) | with_reducible exact Sub.of (by assumption) (by decide) | split)

theorem sensorSample_frame (temps : List (BitVec 16)) {s0 t : State} {E : Nat} (h : Fr E s0 t) (hE : Sub 0x3000081 E := by exact Sub.of (by assumption) (by decide)) :
    Fr E s0 (sensorSample temps t) := by
  unfold sensorSample
  (try dsimp only)
  repeat' (first | with_reducible assumption | with_reducible exact Or.inr (Sub.bit (by assumption) (by decide)) | with_reducible exact Or.inl rfl | with_reducible rfl | with_reducible apply Fr.ite | with_reducible apply State.fset_frame | with_reducible apply State.raise_frame | with_reducible apply alertPin_frame | (simp only [Fr.mk_eq]; with_reducible apply FrF.upd) | with_reducible exact Sub.of (by assumption) (by decide) | with_reducible exact Sub.bit (by assumption) (by decide) | split)

theorem seqLong_frame {s0 t : State} {E : Nat} (h : Fr E s0 t) (hE : Sub 0x40000280 E := by exact Sub.of (by assumption) (by decide)) :
    Fr E s0 (seqLong t) := by
  unfold seqLong
  (try dsimp only)
  repeat' (first | with_reducible assumption | with_reducible exact Or.inr (Sub.bit (by assumption) (by decide)) | with_reducible exact Or.inl rfl | with_reducible rfl | with_reducible apply Fr.ite | with_reducible apply State.raise_frame | (simp only [Fr.mk_eq]; with_reducible apply FrF.upd) | with_reducible exact Sub.of (by assumption) (by decide) | with_reducible exact Sub.bit (by assumption) (by decide) | split)

theorem seqStep_frame (ups : List Upset) {s0 t : State} {E : Nat} (h : Fr E s0 t) (hE : Sub 0x6bc3c77eb1 E := by exact Sub.of (by assumption) (by decide)) :
    Fr E s0 (seqStep ups t) := by
  unfold seqStep
  (try dsimp only)
  repeat' (first | with_reducible assumption | with_reducible apply Fr.ite | with_reducible apply doStep_frame | with_reducible apply ellipsisBegin_frame | with_reducible exact Sub.of (by assumption) (by decide) | split)

theorem service_frame (slot : Nat) (code : Nat) (mask : Nat) (bad : Bool) (f : State → State) {s0 t : State} {E : Nat} (hf : ∀ (u : State), Fr E s0 u → Fr E s0 (f u)) (h : Fr E s0 t) (hE : Sub 0x8400090 E := by exact Sub.of (by assumption) (by decide)) :
    Fr E s0 (service slot code mask bad f t) := by
  unfold service
  (try dsimp only)
  repeat' (first | with_reducible assumption | with_reducible apply Fr.ite | with_reducible apply hf | with_reducible apply svcRespond_frame | with_reducible apply Fr.foldl | (intro _ _ _) | (intro _ _) | with_reducible exact Sub.of (by assumption) (by decide) | split)

theorem sigDrain_frame (a0 : Nat) {s0 t : State} {E : Nat} (h : Fr E s0 t) (hE : Sub 0x28004420a0 E := by exact Sub.of (by assumption) (by decide)) :
    Fr E s0 (sigDrain a0 t) := by
  induction a0 generalizing t with
  | zero => exact h
  | succ k ih => exact ih (sigDrain1_frame h)

theorem sigPostEnd_frame {s0 t : State} {E : Nat} (h : Fr E s0 t) (hE : Sub 0x28004420b0 E := by exact Sub.of (by assumption) (by decide)) :
    Fr E s0 (sigPostEnd t) := by
  unfold sigPostEnd
  (try dsimp only)
  repeat' (first | with_reducible assumption | with_reducible apply Fr.ite | with_reducible apply State.freshNat_frame | with_reducible apply sigOverflow_frame | with_reducible apply sigPad_frame | with_reducible apply sigMark_frame | with_reducible apply sigSyncDue_frame | with_reducible apply sigDrain_frame | with_reducible apply State.raise_frame | with_reducible apply State.fset_frame | with_reducible apply State.modSig_frame | with_reducible exact Sub.of (by assumption) (by decide) | with_reducible exact Sub.bit (by assumption) (by decide) | split)

theorem spareRetrain_frame (l : Nat) {s0 t : State} {E : Nat} (h : Fr E s0 t) (hE : Sub 0x4000 E := by exact Sub.of (by assumption) (by decide)) :
    Fr E s0 (spareRetrain l t) := by
  unfold spareRetrain
  (try dsimp only)
  repeat' (first | with_reducible assumption | with_reducible apply State.modLink_frame | with_reducible exact Sub.of (by assumption) (by decide))

theorem spareTrained_frame (l : Nat) {s0 t : State} {E : Nat} (h : Fr E s0 t) (hE : Sub 0x400004000 E := by exact Sub.of (by assumption) (by decide)) :
    Fr E s0 (spareTrained l t) := by
  unfold spareTrained
  (try dsimp only)
  repeat' (first | with_reducible assumption | with_reducible apply Fr.ite | with_reducible apply State.fset_frame | with_reducible apply State.modLink_frame | with_reducible exact Sub.of (by assumption) (by decide) | with_reducible exact Sub.bit (by assumption) (by decide) | (rw [F.LNK_STAT_SPARE_OK_block]; exact Sub.bit (by assumption) (by decide)) | split)

theorem sparingDecision_frame (t1 : SparingTrigger) {s0 t : State} {E : Nat} (h : Fr E s0 t) (hE : Sub 0xf80407cd0 E := by exact Sub.of (by assumption) (by decide)) :
    Fr E s0 (sparingDecision t1 t) := by
  unfold sparingDecision
  (try dsimp only)
  repeat' (first | with_reducible assumption | with_reducible exact Or.inr (Sub.bit (by assumption) (by decide)) | with_reducible exact Or.inl rfl | with_reducible rfl | with_reducible apply Fr.ite | with_reducible apply actsLog_frame | with_reducible apply actStart_frame | with_reducible apply logWrite_frame | (simp only [Fr.mk_eq]; with_reducible apply FrF.upd) | with_reducible exact Sub.of (by assumption) (by decide) | split)

theorem sramScrub_frame (a : Nat) (ue : Bool) {s0 t : State} {E : Nat} (h : Fr E s0 t) (hE : Sub 0x8400090 E := by exact Sub.of (by assumption) (by decide)) :
    Fr E s0 (sramScrub a ue t) := by
  unfold sramScrub
  (try dsimp only)
  repeat' (first | with_reducible assumption | with_reducible exact Or.inr (Sub.bit (by assumption) (by decide)) | with_reducible exact Or.inl rfl | with_reducible rfl | with_reducible apply Fr.ite | with_reducible apply State.freshNat_frame | with_reducible apply sramUe_frame | (simp only [Fr.mk_eq]; with_reducible apply FrF.upd) | with_reducible exact Sub.of (by assumption) (by decide) | split)

theorem standbyFail_frame (kind : Nat) {s0 t : State} {E : Nat} (h : Fr E s0 t) (hE : Sub 0xffffffffac E := by exact Sub.of (by assumption) (by decide)) :
    Fr E s0 (standbyFail kind t) := by
  unfold standbyFail
  (try dsimp only)
  repeat' (first | with_reducible assumption | with_reducible apply Fr.ite | with_reducible apply State.raise_frame | with_reducible apply setRoot_frame | with_reducible apply deviceReset_frame | with_reducible exact Sub.of (by assumption) (by decide) | with_reducible exact Sub.bit (by assumption) (by decide) | split)

theorem superframeIn_frame (l : Nat) (f : Superframe) (fecFix : Nat) (fecUe : Option Nat) {s0 t : State} {E : Nat} (h : Fr E s0 t) (hE : Sub 0x6c4244e2b1 E := by exact Sub.of (by assumption) (by decide)) :
    Fr E s0 (superframeIn l f fecFix fecUe t) := by
  unfold superframeIn
  (try dsimp only)
  repeat' (first | with_reducible assumption | with_reducible apply Fr.ite | with_reducible apply State.countBy_frame | with_reducible apply linkDiscard_frame | with_reducible apply State.count_frame | with_reducible apply linkUse_frame | with_reducible apply State.modLink_frame | with_reducible apply linkGoBack_frame | with_reducible exact Sub.of (by assumption) (by decide) | with_reducible exact Sub.bit (by assumption) (by decide) | (rw [F.LNK_CNT_CRC_COUNT_block]; exact Sub.bit (by assumption) (by decide)) | (rw [F.LNK_CNT_FECC_COUNT_block]; exact Sub.bit (by assumption) (by decide)) | (rw [F.LNK_CNT_FECU_COUNT_block]; exact Sub.bit (by assumption) (by decide)) | (rw [F.LNK_CNT_TAG_COUNT_block]; exact Sub.bit (by assumption) (by decide)) | split)

theorem svcInfo_frame (slot : Nat) {s0 t : State} {E : Nat} (h : Fr E s0 t) (hE : Sub 0x8400090 E := by exact Sub.of (by assumption) (by decide)) :
    Fr E s0 (svcInfo slot t) := by
  unfold svcInfo
  (try dsimp only)
  repeat' (first | with_reducible assumption | with_reducible apply svcRespond_frame | with_reducible exact Sub.of (by assumption) (by decide))

theorem svcLoad_frame (slot : Nat) (placement : List Byte) {s0 t : State} {E : Nat} (h : Fr E s0 t) (hE : Sub 0x8884120b1 E := by exact Sub.of (by assumption) (by decide)) :
    Fr E s0 (svcLoad slot placement t) := by
  unfold svcLoad
  (try dsimp only)
  repeat' (first | with_reducible assumption | with_reducible exact Or.inr (Sub.bit (by assumption) (by decide)) | with_reducible exact Or.inl rfl | with_reducible rfl | with_reducible apply Fr.ite | with_reducible apply State.freshNat_frame | with_reducible apply svcRespond_frame | with_reducible apply loadRaise_frame | with_reducible apply svcBytes_frame | with_reducible apply State.fset_frame | (simp only [Fr.mk_eq]; with_reducible apply FrF.upd) | with_reducible exact Sub.of (by assumption) (by decide) | with_reducible exact Sub.bit (by assumption) (by decide) | split)

theorem swapExpire_frame {s0 t : State} {E : Nat} (h : Fr E s0 t) (hE : Sub 0x4008490090 E := by exact Sub.of (by assumption) (by decide)) :
    Fr E s0 (swapExpire t) := by
  unfold swapExpire
  (try dsimp only)
  repeat' (first | with_reducible assumption | with_reducible exact Or.inr (Sub.bit (by assumption) (by decide)) | with_reducible exact Or.inl rfl | with_reducible rfl | with_reducible apply State.fset_frame | with_reducible apply State.modPair_frame | with_reducible apply pairRestart_frame | with_reducible apply State.raise_frame | (simp only [Fr.mk_eq]; with_reducible apply FrF.upd) | with_reducible exact Sub.of (by assumption) (by decide) | with_reducible exact Sub.bit (by assumption) (by decide) | split)

theorem switchDone_frame {s0 t : State} {E : Nat} (h : Fr E s0 t) (hE : Sub 0x3000094 E := by exact Sub.of (by assumption) (by decide)) :
    Fr E s0 (switchDone t) := by
  unfold switchDone
  (try dsimp only)
  repeat' (first | with_reducible assumption | with_reducible exact Or.inr (Sub.bit (by assumption) (by decide)) | with_reducible exact Or.inl rfl | with_reducible rfl | with_reducible apply Fr.ite | with_reducible apply State.pick_frame | with_reducible apply State.fset_frame | with_reducible apply clockBoundary_frame | (simp only [Fr.mk_eq]; with_reducible apply FrF.upd) | with_reducible exact Sub.of (by assumption) (by decide) | with_reducible exact Sub.bit (by assumption) (by decide) | split)

theorem thermtrip_frame {s0 t : State} {E : Nat} (h : Fr E s0 t) (hE : Sub 0xffffffffad E := by exact Sub.of (by assumption) (by decide)) :
    Fr E s0 (thermtrip t) := by
  unfold thermtrip
  (try dsimp only)
  repeat' (first | with_reducible assumption | with_reducible exact Or.inr (Sub.bit (by assumption) (by decide)) | with_reducible exact Or.inl rfl | with_reducible rfl | with_reducible apply deviceReset_frame | with_reducible apply State.emit_frame | (simp only [Fr.mk_eq]; with_reducible apply FrF.upd) | with_reducible exact Sub.of (by assumption) (by decide))

theorem throttleStep_frame (thermal : Bool) (powerW : Nat) {s0 t : State} {E : Nat} (h : Fr E s0 t) (hE : Sub 0x3000081 E := by exact Sub.of (by assumption) (by decide)) :
    Fr E s0 (throttleStep thermal powerW t) := by
  unfold throttleStep
  (try dsimp only)
  repeat' (first | with_reducible assumption | with_reducible exact Or.inr (Sub.bit (by assumption) (by decide)) | with_reducible exact Or.inl rfl | with_reducible rfl | with_reducible apply Fr.ite | with_reducible apply throttleApply_frame | (simp only [Fr.mk_eq]; with_reducible apply FrF.upd) | with_reducible exact Sub.of (by assumption) (by decide) | split)

theorem tick_frame {s0 t : State} {E : Nat} (h : Fr E s0 t) (hE : Sub 0x94202d6 E := by exact Sub.of (by assumption) (by decide)) :
    Fr E s0 (tick t) := by
  unfold tick
  (try dsimp only)
  repeat' (first | with_reducible assumption | with_reducible exact Or.inr (Sub.bit (by assumption) (by decide)) | with_reducible exact Or.inl rfl | with_reducible rfl | with_reducible apply ptimeTick_frame | with_reducible apply svcUnlisted_frame | with_reducible apply calTick_frame | with_reducible apply flashTick_frame | with_reducible apply rstTick_frame | with_reducible apply kickTick_frame | with_reducible apply rimTick_frame | with_reducible apply ellipsisTick_frame | (simp only [Fr.mk_eq]; with_reducible apply FrF.upd) | with_reducible exact Sub.of (by assumption) (by decide))

theorem trainDone_frame (l : Nat) (m : BitVec 3) {s0 t : State} {E : Nat} (h : Fr E s0 t) (hE : Sub 0x400004000 E := by exact Sub.of (by assumption) (by decide)) :
    Fr E s0 (trainDone l m t) := by
  unfold trainDone
  (try dsimp only)
  repeat' (first | with_reducible assumption | with_reducible apply Fr.ite | with_reducible apply State.fset_frame | with_reducible apply State.modLink_frame | with_reducible apply linkTo_frame | with_reducible exact Sub.of (by assumption) (by decide) | with_reducible exact Sub.bit (by assumption) (by decide) | (rw [F.LNK_STAT_SPARE_block]; exact Sub.bit (by assumption) (by decide)) | (rw [F.LNK_STAT_SPARE_OK_block]; exact Sub.bit (by assumption) (by decide)) | split)

theorem trainTimeout_frame (l : Nat) {s0 t : State} {E : Nat} (h : Fr E s0 t) (hE : Sub 0x400004000 E := by exact Sub.of (by assumption) (by decide)) :
    Fr E s0 (trainTimeout l t) := by
  unfold trainTimeout
  (try dsimp only)
  repeat' (first | with_reducible assumption | with_reducible apply Fr.ite | with_reducible apply linkFail_frame | with_reducible exact Sub.of (by assumption) (by decide) | split)

theorem tuStop_frame (stamp : Nat) {s0 t : State} {E : Nat} (h : Fr E s0 t) (hE : Sub 0x68404462b1 E := by exact Sub.of (by assumption) (by decide)) :
    Fr E s0 (tuStop stamp t) := by
  unfold tuStop
  (try dsimp only)
  repeat' (first | with_reducible assumption | with_reducible apply Fr.ite | with_reducible apply stopRequestAt_frame | with_reducible apply receiveFence_frame | with_reducible exact Sub.of (by assumption) (by decide) | split)

theorem tuPost_frame (u : Nat) (stamp : Nat) (time : Nat) {s0 t : State} {E : Nat} (h : Fr E s0 t) (hE : Sub 0x2000000080 E := by exact Sub.of (by assumption) (by decide)) :
    Fr E s0 (tuPost u stamp time t) := by
  unfold tuPost
  (try dsimp only)
  repeat' (first | with_reducible assumption | with_reducible apply Fr.ite | with_reducible apply State.fset_frame | with_reducible apply State.raiseAt_frame | with_reducible exact Sub.of (by assumption) (by decide) | with_reducible exact Sub.bit (by assumption) (by decide) | (rw [F.CAP_TUSTAT_DROP_block]; exact Sub.bit (by assumption) (by decide)) | split)

theorem tuActions_frame (u : Nat) (stamp : Nat) (time : Nat) {s0 t : State} {E : Nat} (h : Fr E s0 t) (hE : Sub 0x68404462b1 E := by exact Sub.of (by assumption) (by decide)) :
    Fr E s0 (tuActions u stamp time t) := by
  unfold tuActions
  (try dsimp only)
  repeat' (first | with_reducible assumption | with_reducible apply Fr.ite | with_reducible apply xtAssert_frame | with_reducible apply mtStopReq_frame | with_reducible apply mtStartReq_frame | with_reducible apply sigStopReq_frame | with_reducible apply sigStartReq_frame | with_reducible apply tuStop_frame | with_reducible apply tuPost_frame | with_reducible exact Sub.of (by assumption) (by decide) | split)

theorem tuAcquire_frame (u : Nat) (stamp : Nat) (time : Nat) (fine : Nat) (meas : Nat) {s0 t : State} {E : Nat} (h : Fr E s0 t) (hE : Sub 0x2000040000 E := by exact Sub.of (by assumption) (by decide)) :
    Fr E s0 (tuAcquire u stamp time fine meas t) := by
  unfold tuAcquire
  (try dsimp only)
  repeat' (first | with_reducible assumption | with_reducible apply Fr.ite | with_reducible apply State.modUnit_frame | with_reducible apply State.count_frame | with_reducible apply sigPut_frame | with_reducible exact Sub.of (by assumption) (by decide) | with_reducible exact Sub.bit (by assumption) (by decide) | (rw [F.CAP_TUCNT_COUNT_block]; exact Sub.bit (by assumption) (by decide)) | split)

theorem tuAct_frame (u : Nat) (m : Nat × Nat × Nat × Nat) {s0 t : State} {E : Nat} (h : Fr E s0 t) (hE : Sub 0x68404462b1 E := by exact Sub.of (by assumption) (by decide)) :
    Fr E s0 (tuAct u m t) := by
  unfold tuAct
  (try dsimp only)
  repeat' (first | with_reducible assumption | with_reducible apply Fr.ite | with_reducible apply tuActions_frame | with_reducible apply tuAcquire_frame | with_reducible apply State.modUnit_frame | with_reducible exact Sub.of (by assumption) (by decide) | split)

theorem triggerFire_frame (u : Nat) (ticks : Nat) {s0 t : State} {E : Nat} (h : Fr E s0 t) (hE : Sub 0x68404462b1 E := by exact Sub.of (by assumption) (by decide)) :
    Fr E s0 (triggerFire u ticks t) := by
  unfold triggerFire
  (try dsimp only)
  repeat' (first | with_reducible assumption | with_reducible apply Fr.ite | with_reducible apply tuAct_frame | with_reducible apply State.modUnit_frame | with_reducible exact Sub.of (by assumption) (by decide) | split)

theorem vccioGood_frame (b : Nat) (mv : Nat) (strap : Nat) {s0 t : State} {E : Nat} (h : Fr E s0 t) (hE : Sub 0x1000020080 E := by exact Sub.of (by assumption) (by decide)) :
    Fr E s0 (vccioGood b mv strap t) := by
  unfold vccioGood
  (try dsimp only)
  repeat' (first | with_reducible assumption | with_reducible apply Fr.ite | with_reducible apply rimIoRaise_frame | with_reducible apply State.modBank_frame | with_reducible exact Sub.of (by assumption) (by decide) | split)

theorem vccioLost_frame (b : Nat) (mv : Nat) {s0 t : State} {E : Nat} (h : Fr E s0 t) (hE : Sub 0x1000020080 E := by exact Sub.of (by assumption) (by decide)) :
    Fr E s0 (vccioLost b mv t) := by
  unfold vccioLost
  (try dsimp only)
  repeat' (first | with_reducible assumption | with_reducible apply Fr.ite | with_reducible apply rimIoRaise_frame | with_reducible apply State.modBank_frame | with_reducible exact Sub.of (by assumption) (by decide) | split)

theorem wdtExpire_frame (p : Nat) {s0 t : State} {E : Nat} (h : Fr E s0 t) (hE : Sub 0x4008490091 E := by exact Sub.of (by assumption) (by decide)) :
    Fr E s0 (wdtExpire p t) := by
  unfold wdtExpire
  (try dsimp only)
  repeat' (first | with_reducible assumption | with_reducible apply Fr.ite | with_reducible apply State.raise_frame | with_reducible apply pairRestart_frame | with_reducible apply State.emit_frame | with_reducible apply State.modPair_frame | with_reducible exact Sub.of (by assumption) (by decide) | with_reducible exact Sub.bit (by assumption) (by decide) | split)

theorem windowClose_frame (l : Nat) {s0 t : State} {E : Nat} (h : Fr E s0 t) (hE : Sub 0x400004080 E := by exact Sub.of (by assumption) (by decide)) :
    Fr E s0 (windowClose l t) := by
  unfold windowClose
  (try dsimp only)
  repeat' (first | with_reducible assumption | with_reducible apply Fr.ite | with_reducible apply State.modLink_frame | with_reducible apply linkModeFail_frame | with_reducible apply linkFail_frame | with_reducible exact Sub.of (by assumption) (by decide) | split)

theorem writeBack_frame (c : Nat) (row : Nat) (word : Nat) {s0 t : State} {E : Nat} (h : Fr E s0 t) (hE : Sub 0x400 E := by exact Sub.of (by assumption) (by decide)) :
    Fr E s0 (writeBack c row word t) := by
  unfold writeBack
  (try dsimp only)
  repeat' (first | with_reducible assumption | with_reducible apply Fr.ite | with_reducible apply setSchMark_frame | with_reducible exact Sub.of (by assumption) (by decide) | split)

theorem xtrigIn_frame (ch : Nat) {s0 t : State} {E : Nat} (h : Fr E s0 t) (hE : Sub 0x68004462b1 E := by exact Sub.of (by assumption) (by decide)) :
    Fr E s0 (xtrigIn ch t) := by
  unfold xtrigIn
  (try dsimp only)
  repeat' (first | with_reducible assumption | with_reducible apply Fr.ite | with_reducible apply xtAssert_frame | with_reducible exact Sub.of (by assumption) (by decide) | split)

end Sys2Proof.Machine
end

