-- ==== Sys2Proof/Laws/FrameExec.lean ====
section
/-! SUPPORT. FrameExec.lean: the parts of the state each command may change. -/
set_option Elab.async false
namespace Sys2Proof.Machine

theorem orFault_frame {E : Nat} {s t : State} {x : Except Fault State} (h : ∀ u, x = .ok u → Fr E s u) (e : orFault x = .next t) : Fr E s t := by
  cases x with
  | error k => cases e
  | ok u => cases e; exact h _ rfl

theorem regCmd_frame {E : Nat} {s t : State} {a : Nat} {w : Word} {f : State → State} (h : Fr E s (f s)) (e : s.regCmd a w f = .next t) : Fr E s t := by
  unfold State.regCmd at e
  split at e
  · cases e
  · cases e; exact h

theorem execStepExecute_frame (ups : List Upset) (s : State) {t : State} (e : execStepExecute ups s = .next t) : Fr 0x6bc3c77eb1 s t := by
  have hE : Sub 0x6bc3c77eb1 0x6bc3c77eb1 := Nat.and_self _
  have h := Fr.refl 0x6bc3c77eb1 s
  unfold execStepExecute at e
  cases e
  repeat' (first | with_reducible assumption | with_reducible apply seqStep_frame | with_reducible exact Sub.of (by assumption) (by decide))

theorem execEllipsisEnd_frame (ups : List Upset) (s : State) {t : State} (e : execEllipsisEnd ups s = .next t) : Fr 0x6bc3c77eb1 s t := by
  have hE : Sub 0x6bc3c77eb1 0x6bc3c77eb1 := Nat.and_self _
  have h := Fr.refl 0x6bc3c77eb1 s
  unfold execEllipsisEnd at e
  cases e
  repeat' (first | with_reducible assumption | with_reducible apply seqEllipsisEnd_frame | with_reducible exact Sub.of (by assumption) (by decide))

theorem execSeqLongEllipsis_frame (s : State) {t : State} (e : execSeqLongEllipsis s = .next t) : Fr 0x40000280 s t := by
  have hE : Sub 0x40000280 0x40000280 := Nat.and_self _
  have h := Fr.refl 0x40000280 s
  unfold execSeqLongEllipsis at e
  cases e
  repeat' (first | with_reducible assumption | with_reducible apply seqLong_frame | with_reducible exact Sub.of (by assumption) (by decide))

theorem execRun_frame (s : State) {t : State} (e : execRun s = .next t) : Fr 0x40840280 s t := by
  have hE : Sub 0x40840280 0x40840280 := Nat.and_self _
  have h := Fr.refl 0x40840280 s
  unfold execRun at e
  cases e
  repeat' (first | with_reducible assumption | with_reducible apply seqGo_frame | with_reducible exact Sub.of (by assumption) (by decide))

theorem execStep1_frame (s : State) {t : State} (e : execStep1 s = .next t) : Fr 0x40840280 s t := by
  have hE : Sub 0x40840280 0x40840280 := Nat.and_self _
  have h := Fr.refl 0x40840280 s
  unfold execStep1 at e
  cases e
  repeat' (first | with_reducible assumption | with_reducible apply seqGo_frame | with_reducible exact Sub.of (by assumption) (by decide))

theorem execUcyc1_frame (s : State) {t : State} (e : execUcyc1 s = .next t) : Fr 0x40840280 s t := by
  have hE : Sub 0x40840280 0x40840280 := Nat.and_self _
  have h := Fr.refl 0x40840280 s
  unfold execUcyc1 at e
  cases e
  repeat' (first | with_reducible assumption | with_reducible apply seqGo_frame | with_reducible exact Sub.of (by assumption) (by decide))

theorem execStop_frame (s : State) {t : State} (e : execStop s = .next t) : Fr 0x4200 s t := by
  have hE : Sub 0x4200 0x4200 := Nat.and_self _
  have h := Fr.refl 0x4200 s
  unfold execStop at e
  cases e
  repeat' (first | with_reducible assumption | with_reducible apply seqStopWrite_frame | with_reducible exact Sub.of (by assumption) (by decide))

theorem execStopatEnable_frame (s : State) {t : State} (e : execStopatEnable s = .next t) : Fr 0x40000080 s t := by
  have hE : Sub 0x40000080 0x40000080 := Nat.and_self _
  have h := Fr.refl 0x40000080 s
  unfold execStopatEnable at e
  cases e
  repeat' (first | with_reducible assumption | with_reducible apply seqStopat_frame | with_reducible exact Sub.of (by assumption) (by decide))

theorem execCheckpointComplete_frame (ok : Bool) (failAddr : DWord) (s : State) {t : State} (e : execCheckpointComplete ok failAddr s = .next t) : Fr 0x8404022a1 s t := by
  have hE : Sub 0x8404022a1 0x8404022a1 := Nat.and_self _
  have h := Fr.refl 0x8404022a1 s
  unfold execCheckpointComplete at e
  cases e
  repeat' (first | with_reducible assumption | with_reducible apply ckptComplete_frame | with_reducible exact Sub.of (by assumption) (by decide))

theorem execSeqTmr_frame (mask : Word) (s : State) {t : State} (e : execSeqTmr mask s = .next t) : Fr 0x40000080 s t := by
  have hE : Sub 0x40000080 0x40000080 := Nat.and_self _
  have h := Fr.refl 0x40000080 s
  unfold execSeqTmr at e
  cases e
  repeat' (first | with_reducible assumption | with_reducible apply State.raise_frame | with_reducible exact Sub.of (by assumption) (by decide) | with_reducible exact Sub.bit (by assumption) (by decide))

theorem execDictSweepRead_frame (c : Nat) (ph : Nat) (e : Nat) (ups : List Upset) (s : State) {t : State} (e : execDictSweepRead c ph e ups s = .next t) : Fr 0x1004234b0 s t := by
  have hE : Sub 0x1004234b0 0x1004234b0 := Nat.and_self _
  have h := Fr.refl 0x1004234b0 s
  unfold execDictSweepRead at e
  cases e
  repeat' (first | with_reducible assumption | with_reducible apply dictSweep_frame | with_reducible apply upsets_frame | with_reducible exact Sub.of (by assumption) (by decide))

theorem execDictUeRewrite_frame (c : Nat) (e : Nat) (s : State) {t : State} (e : execDictUeRewrite c e s = .next t) : Fr 0x400 s t := by
  have hE : Sub 0x400 0x400 := Nat.and_self _
  have h := Fr.refl 0x400 s
  unfold execDictUeRewrite at e
  cases e
  repeat' (first | with_reducible assumption | with_reducible apply dictRewrite_frame | with_reducible exact Sub.of (by assumption) (by decide))

theorem execClsSpareGo_frame (c : Nat) (target : Nat) (s : State) {t : State} (e : execClsSpareGo c target s = .next t) : Fr 0x100000480 s t := by
  have hE : Sub 0x100000480 0x100000480 := Nat.and_self _
  have h := Fr.refl 0x100000480 s
  unfold execClsSpareGo at e
  cases e
  repeat' (first | with_reducible assumption | with_reducible apply spareGo_frame | with_reducible exact Sub.of (by assumption) (by decide))

theorem execMigrationComplete_frame (c : Nat) (mismatches : Nat) (cycles : Nat) (s : State) {t : State} (e : execMigrationComplete c mismatches cycles s = .next t) : Fr 0x9c84536f1 s t := by
  have hE : Sub 0x9c84536f1 0x9c84536f1 := Nat.and_self _
  have h := Fr.refl 0x9c84536f1 s
  unfold execMigrationComplete at e
  cases e
  repeat' (first | with_reducible assumption | with_reducible apply Fr.ite | with_reducible apply actsLog_frame | with_reducible apply patchAnswer_frame | with_reducible apply migrationEnd_frame | with_reducible exact Sub.of (by assumption) (by decide) | split)

theorem execSpareMarchPass_frame (c : Nat) (passed : Bool) (s : State) {t : State} (e : execSpareMarchPass c passed s = .next t) : Fr 0x400 s t := by
  have hE : Sub 0x400 0x400 := Nat.and_self _
  have h := Fr.refl 0x400 s
  unfold execSpareMarchPass at e
  cases e
  repeat' (first | with_reducible assumption | with_reducible apply Fr.ite | with_reducible apply State.modClause_frame | with_reducible exact Sub.of (by assumption) (by decide) | split)

theorem execLexAccessServe_frame (bank : Nat) (ups : List Upset) (s : State) {t : State} (e : execLexAccessServe bank ups s = .next t) : Fr 0x8004234b0 s t := by
  have hE : Sub 0x8004234b0 0x8004234b0 := Nat.and_self _
  have h := Fr.refl 0x8004234b0 s
  unfold execLexAccessServe at e
  cases e
  repeat' (first | with_reducible assumption | with_reducible apply lexServe_frame | with_reducible apply upsets_frame | with_reducible exact Sub.of (by assumption) (by decide))

theorem execLexNocServe_frame (bank : Nat) (ups : List Upset) (s : State) {t : State} (e : execLexNocServe bank ups s = .next t) : Fr 0x48105a34b1 s t := by
  have hE : Sub 0x48105a34b1 0x48105a34b1 := Nat.and_self _
  have h := Fr.refl 0x48105a34b1 s
  unfold execLexNocServe at e
  cases e
  repeat' (first | with_reducible assumption | with_reducible apply lexNoc_frame | with_reducible apply upsets_frame | with_reducible exact Sub.of (by assumption) (by decide))

theorem execMemNocStarve_frame (k : Nat) (s : State) {t : State} (e : execMemNocStarve k s = .next t) : Fr 0x800002080 s t := by
  have hE : Sub 0x800002080 0x800002080 := Nat.and_self _
  have h := Fr.refl 0x800002080 s
  unfold execMemNocStarve at e
  cases e
  repeat' (first | with_reducible assumption | with_reducible apply nocStarve_frame | with_reducible exact Sub.of (by assumption) (by decide))

theorem execMemReturnArrive_frame (m : Nat) (s : State) {t : State} (e : execMemReturnArrive m s = .next t) : Fr 0x2000 s t := by
  have hE : Sub 0x2000 0x2000 := Nat.and_self _
  have h := Fr.refl 0x2000 s
  unfold execMemReturnArrive at e
  cases e
  repeat' (first | with_reducible assumption | with_reducible exact Or.inr (Sub.bit (by assumption) (by decide)) | with_reducible exact Or.inl rfl | with_reducible rfl | (simp only [Fr.mk_eq]; with_reducible apply FrF.upd))

theorem execHbmReturn_frame (m : Nat) (ups : List Upset) (s : State) {t : State} (e : execHbmReturn m ups s = .next t) : Fr 0x8004234b0 s t := by
  have hE : Sub 0x8004234b0 0x8004234b0 := Nat.and_self _
  have h := Fr.refl 0x8004234b0 s
  unfold execHbmReturn at e
  cases e
  repeat' (first | with_reducible assumption | with_reducible apply upsets_frame | with_reducible apply hbmArrive_frame | with_reducible exact Sub.of (by assumption) (by decide))

theorem execHbmRefresh_frame (stack : Nat) (allBank : Bool) (s : State) {t : State} (e : execHbmRefresh stack allBank s = .next t) : Fr 0x0 s t := by
  have hE : Sub 0x0 0x0 := Nat.and_self _
  have h := Fr.refl 0x0 s
  unfold execHbmRefresh at e
  cases e
  repeat' (first | with_reducible assumption)

theorem execHbmTempRead_frame (stack : Nat) (temp : Byte) (s : State) {t : State} (e : execHbmTempRead stack temp s = .next t) : Fr 0x800000000 s t := by
  have hE : Sub 0x800000000 0x800000000 := Nat.and_self _
  have hb : (htempFld stack).block = 10 := by unfold htempFld; split <;> rfl
  cases e
  refine State.fset_frame _ _ (Fr.refl _ _) ?_
  rw [hb]
  decide

theorem execMemCalGo_frame (mask : BitVec 4) (s : State) {t : State} (e : execMemCalGo mask s = .next t) : Fr 0x801000000 s t := by
  have hE : Sub 0x801000000 0x801000000 := Nat.and_self _
  have h := Fr.refl 0x801000000 s
  unfold execMemCalGo at e
  cases e
  repeat' (first | with_reducible assumption | with_reducible apply calStart_frame | with_reducible exact Sub.of (by assumption) (by decide))

theorem execCalSliceEnd_frame (stack : Nat) (ok : Bool) (lanes : Nat) (ns : Nat) (s : State) {t : State} (e : execCalSliceEnd stack ok lanes ns s = .next t) : Fr 0x48125820a1 s t := by
  have hE : Sub 0x48125820a1 0x48125820a1 := Nat.and_self _
  have h := Fr.refl 0x48125820a1 s
  unfold execCalSliceEnd at e
  cases e
  repeat' (first | with_reducible assumption | with_reducible apply calSliceEnd_frame | with_reducible exact Sub.of (by assumption) (by decide))

theorem execMemLretGo_frame (bank : Nat) (word : Nat) (s : State) {t : State} (e : execMemLretGo bank word s = .next t) : Fr 0x800002090 s t := by
  have hE : Sub 0x800002090 0x800002090 := Nat.and_self _
  have h := Fr.refl 0x800002090 s
  unfold execMemLretGo at e
  cases e
  repeat' (first | with_reducible assumption | with_reducible apply lretGo_frame | with_reducible exact Sub.of (by assumption) (by decide))

theorem execLretComplete_frame (mismatches : Nat) (s : State) {t : State} (e : execLretComplete mismatches s = .next t) : Fr 0x8004020c0 s t := by
  have hE : Sub 0x8004020c0 0x8004020c0 := Nat.and_self _
  have h := Fr.refl 0x8004020c0 s
  unfold execLretComplete at e
  cases e
  repeat' (first | with_reducible assumption | with_reducible apply actsLog_frame | with_reducible apply lretEnd_frame | with_reducible exact Sub.of (by assumption) (by decide))

theorem execMemHretGo_frame (stack : Nat) (s : State) {t : State} (e : execMemHretGo stack s = .next t) : Fr 0x800002090 s t := by
  have hE : Sub 0x800002090 0x800002090 := Nat.and_self _
  have h := Fr.refl 0x800002090 s
  unfold execMemHretGo at e
  cases e
  repeat' (first | with_reducible assumption | with_reducible apply hretGo_frame | with_reducible exact Sub.of (by assumption) (by decide))

theorem execHretComplete_frame (mismatches : Nat) (s : State) {t : State} (e : execHretComplete mismatches s = .next t) : Fr 0x8004020e0 s t := by
  have hE : Sub 0x8004020e0 0x8004020e0 := Nat.and_self _
  have h := Fr.refl 0x8004020e0 s
  unfold execHretComplete at e
  cases e
  repeat' (first | with_reducible assumption | with_reducible apply actsLog_frame | with_reducible apply hretEnd_frame | with_reducible exact Sub.of (by assumption) (by decide))

theorem execFabIsoRequest_frame (c : Nat) (xinj : Bool) (s : State) {t : State} (e : execFabIsoRequest c xinj s = .next t) : Fr 0x200000c80 s t := by
  have hE : Sub 0x200000c80 0x200000c80 := Nat.and_self _
  have h := Fr.refl 0x200000c80 s
  unfold execFabIsoRequest at e
  cases e
  repeat' (first | with_reducible assumption | with_reducible apply isoWrite_frame | with_reducible exact Sub.of (by assumption) (by decide))

theorem execFabRelRequest_frame (c : Nat) (s : State) {t : State} (e : execFabRelRequest c s = .next t) : Fr 0x200000c80 s t := by
  have hE : Sub 0x200000c80 0x200000c80 := Nat.and_self _
  have h := Fr.refl 0x200000c80 s
  unfold execFabRelRequest at e
  cases e
  repeat' (first | with_reducible assumption | with_reducible apply isoWrite_frame | with_reducible exact Sub.of (by assumption) (by decide))

theorem execIsoBoundaryApply_frame (s : State) {t : State} (e : execIsoBoundaryApply s = .next t) : Fr 0x200000c80 s t := by
  have hE : Sub 0x200000c80 0x200000c80 := Nat.and_self _
  have h := Fr.refl 0x200000c80 s
  unfold execIsoBoundaryApply at e
  cases e
  repeat' (first | with_reducible assumption | with_reducible apply isoApply_frame | with_reducible exact Sub.of (by assumption) (by decide))

theorem execFabAgreeCommit_frame (tag : Byte) (s : State) {t : State} (e : execFabAgreeCommit tag s = .next t) : Fr 0x200000890 s t := by
  have hE : Sub 0x200000890 0x200000890 := Nat.and_self _
  have h := Fr.refl 0x200000890 s
  unfold execFabAgreeCommit at e
  cases e
  repeat' (first | with_reducible assumption | with_reducible apply fabAgree_frame | with_reducible exact Sub.of (by assumption) (by decide))

theorem execReadRepairWriteback_frame (c : Nat) (row : Nat) (word : Nat) (s : State) {t : State} (e : execReadRepairWriteback c row word s = .next t) : Fr 0x400 s t := by
  have hE : Sub 0x400 0x400 := Nat.and_self _
  have h := Fr.refl 0x400 s
  unfold execReadRepairWriteback at e
  cases e
  repeat' (first | with_reducible assumption | with_reducible apply writeBack_frame | with_reducible exact Sub.of (by assumption) (by decide))

theorem execScrubRowRead_frame (c : Nat) (ups : List Upset) (s : State) {t : State} (e : execScrubRowRead c ups s = .next t) : Fr 0x804234b0 s t := by
  have hE : Sub 0x804234b0 0x804234b0 := Nat.and_self _
  have h := Fr.refl 0x804234b0 s
  unfold execScrubRowRead at e
  cases e
  repeat' (first | with_reducible assumption | with_reducible apply scrubRow_frame | with_reducible apply upsets_frame | with_reducible exact Sub.of (by assumption) (by decide))

theorem execParamCheck_frame (rim : Bool) (struck : Option (Nat × Nat)) (s : State) {t : State} (e : execParamCheck rim struck s = .next t) : Fr 0x1080021080 s t := by
  have hE : Sub 0x1080021080 0x1080021080 := Nat.and_self _
  have h := Fr.refl 0x1080021080 s
  unfold execParamCheck at e
  cases e
  repeat' (first | with_reducible assumption | with_reducible apply paramCheck_frame | with_reducible exact Sub.of (by assumption) (by decide))

theorem execSchParam_frame (s : State) {t : State} (e : execSchParam s = .next t) : Fr 0x80001080 s t := by
  have hE : Sub 0x80001080 0x80001080 := Nat.and_self _
  have h := Fr.refl 0x80001080 s
  unfold execSchParam at e
  cases e
  repeat' (first | with_reducible assumption | with_reducible apply schParamPost_frame | with_reducible exact Sub.of (by assumption) (by decide))

theorem execSchRmapGo_frame (c : Nat) (row : Nat) (s : State) {t : State} (e : execSchRmapGo c row s = .next t) : Fr 0x80001090 s t := by
  have hE : Sub 0x80001090 0x80001090 := Nat.and_self _
  have h := Fr.refl 0x80001090 s
  unfold execSchRmapGo at e
  cases e
  repeat' (first | with_reducible assumption | with_reducible apply rmapGo_frame | with_reducible exact Sub.of (by assumption) (by decide))

theorem execRmapComplete_frame (mismatches : Nat) (s : State) {t : State} (e : execRmapComplete mismatches s = .next t) : Fr 0x804014d0 s t := by
  have hE : Sub 0x804014d0 0x804014d0 := Nat.and_self _
  have h := Fr.refl 0x804014d0 s
  unfold execRmapComplete at e
  cases e
  repeat' (first | with_reducible assumption | with_reducible apply actsLog_frame | with_reducible apply rmapEnd_frame | with_reducible exact Sub.of (by assumption) (by decide))

theorem execSchPatchApply_frame (s : State) {t : State} (e : execSchPatchApply s = .next t) : Fr 0x80041490 s t := by
  have hE : Sub 0x80041490 0x80041490 := Nat.and_self _
  have h := Fr.refl 0x80041490 s
  unfold execSchPatchApply at e
  cases e
  repeat' (first | with_reducible assumption | with_reducible apply patchApply_frame | with_reducible exact Sub.of (by assumption) (by decide))

theorem execPatchBoundaryHold_frame (s : State) {t : State} (e : execPatchBoundaryHold s = .next t) : Fr 0x1000 s t := by
  have hE : Sub 0x1000 0x1000 := Nat.and_self _
  have h := Fr.refl 0x1000 s
  unfold execPatchBoundaryHold at e
  cases e
  repeat' (first | with_reducible assumption | with_reducible apply patchHoldBegin_frame | with_reducible exact Sub.of (by assumption) (by decide))

theorem execPatchHoldEnd_frame (s : State) {t : State} (e : execPatchHoldEnd s = .next t) : Fr 0x88451490 s t := by
  have hE : Sub 0x88451490 0x88451490 := Nat.and_self _
  have h := Fr.refl 0x88451490 s
  unfold execPatchHoldEnd at e
  cases e
  repeat' (first | with_reducible assumption | with_reducible apply Fr.ite | with_reducible apply patchSetEnd_frame | with_reducible apply patchHoldEnd_frame | with_reducible exact Sub.of (by assumption) (by decide) | split)

theorem execIdleSuperframeSend_frame (l : Nat) (s : State) {t : State} (e : execIdleSuperframeSend l s = .next t) : Fr 0x4001 s t := by
  have hE : Sub 0x4001 0x4001 := Nat.and_self _
  have h := Fr.refl 0x4001 s
  unfold execIdleSuperframeSend at e
  cases e
  repeat' (first | with_reducible assumption | with_reducible apply linkIdle_frame | with_reducible exact Sub.of (by assumption) (by decide))

theorem execSuperframeReceive_frame (l : Nat) (sf : Superframe) (fecFix : Nat) (fecUe : Option Nat) (s : State) {t : State} (e : execSuperframeReceive l sf fecFix fecUe s = .next t) : Fr 0x6c4244e2b1 s t := by
  have hE : Sub 0x6c4244e2b1 0x6c4244e2b1 := Nat.and_self _
  have h := Fr.refl 0x6c4244e2b1 s
  unfold execSuperframeReceive at e
  cases e
  repeat' (first | with_reducible assumption | with_reducible apply superframeIn_frame | with_reducible exact Sub.of (by assumption) (by decide))

theorem execRetryTimeout_frame (l : Nat) (s : State) {t : State} (e : execRetryTimeout l s = .next t) : Fr 0x4000 s t := by
  have hE : Sub 0x4000 0x4000 := Nat.and_self _
  have h := Fr.refl 0x4000 s
  unfold execRetryTimeout at e
  cases e
  repeat' (first | with_reducible assumption | with_reducible apply retryAgain_frame | with_reducible exact Sub.of (by assumption) (by decide))

theorem execResumeWordReceive_frame (l : Nat) (tag : BitVec 16) (s : State) {t : State} (e : execResumeWordReceive l tag s = .next t) : Fr 0x4001 s t := by
  have hE : Sub 0x4001 0x4001 := Nat.and_self _
  have h := Fr.refl 0x4001 s
  unfold execResumeWordReceive at e
  cases e
  repeat' (first | with_reducible assumption | with_reducible apply resumeWordIn_frame | with_reducible exact Sub.of (by assumption) (by decide))

theorem execFenceWordReceive_frame (l : Nat) (dev : BitVec 18) (fence : DWord) (s : State) {t : State} (e : execFenceWordReceive l dev fence s = .next t) : Fr 0x68404462b1 s t := by
  have hE : Sub 0x68404462b1 0x68404462b1 := Nat.and_self _
  have h := Fr.refl 0x68404462b1 s
  unfold execFenceWordReceive at e
  cases e
  repeat' (first | with_reducible assumption | with_reducible apply fenceWordIn_frame | with_reducible exact Sub.of (by assumption) (by decide))

theorem execPeerItemReceive_frame (l : Nat) (item : Nat) (val : Word) (s : State) {t : State} (e : execPeerItemReceive l item val s = .next t) : Fr 0x40000c080 s t := by
  have hE : Sub 0x40000c080 0x40000c080 := Nat.and_self _
  have h := Fr.refl 0x40000c080 s
  unfold execPeerItemReceive at e
  cases e
  repeat' (first | with_reducible assumption | with_reducible apply peerItemIn_frame | with_reducible exact Sub.of (by assumption) (by decide))

theorem execLaneWordReceive_frame (l : Nat) (op : Nat) (lane : Nat) (s : State) {t : State} (e : execLaneWordReceive l op lane s = .next t) : Fr 0x402004080 s t := by
  have hE : Sub 0x402004080 0x402004080 := Nat.and_self _
  have h := Fr.refl 0x402004080 s
  unfold execLaneWordReceive at e
  cases e
  repeat' (first | with_reducible assumption | with_reducible apply laneWordIn_frame | with_reducible exact Sub.of (by assumption) (by decide))

theorem execMsgWordReceive_frame (l : Nat) (msg : BitVec 60) (s : State) {t : State} (e : execMsgWordReceive l msg s = .next t) : Fr 0x400004080 s t := by
  have hE : Sub 0x400004080 0x400004080 := Nat.and_self _
  have h := Fr.refl 0x400004080 s
  unfold execMsgWordReceive at e
  cases e
  repeat' (first | with_reducible assumption | with_reducible apply msgWordIn_frame | with_reducible exact Sub.of (by assumption) (by decide))

theorem execPeerRepeat_frame (l : Nat) (s : State) {t : State} (e : execPeerRepeat l s = .next t) : Fr 0x4000 s t := by
  have hE : Sub 0x4000 0x4000 := Nat.and_self _
  have h := Fr.refl 0x4000 s
  unfold execPeerRepeat at e
  cases e
  repeat' (first | with_reducible assumption | with_reducible apply peerRepeat_frame | with_reducible exact Sub.of (by assumption) (by decide))

theorem execLnkEnable_frame (l : Nat) (s : State) {t : State} (e : execLnkEnable l s = .next t) : Fr 0x400004000 s t := by
  have hE : Sub 0x400004000 0x400004000 := Nat.and_self _
  have h := Fr.refl 0x400004000 s
  unfold execLnkEnable at e
  cases e
  repeat' (first | with_reducible assumption | with_reducible apply linkEnable_frame | with_reducible exact Sub.of (by assumption) (by decide))

theorem execLnkDisable_frame (l : Nat) (s : State) {t : State} (e : execLnkDisable l s = .next t) : Fr 0x400004000 s t := by
  have hE : Sub 0x400004000 0x400004000 := Nat.and_self _
  have h := Fr.refl 0x400004000 s
  unfold execLnkDisable at e
  cases e
  repeat' (first | with_reducible assumption | with_reducible apply linkDisable_frame | with_reducible exact Sub.of (by assumption) (by decide))

theorem execTrainComplete_frame (l : Nat) (lanes : BitVec 3) (s : State) {t : State} (e : execTrainComplete l lanes s = .next t) : Fr 0x400004000 s t := by
  have hE : Sub 0x400004000 0x400004000 := Nat.and_self _
  have h := Fr.refl 0x400004000 s
  unfold execTrainComplete at e
  cases e
  repeat' (first | with_reducible assumption | with_reducible apply trainDone_frame | with_reducible exact Sub.of (by assumption) (by decide))

theorem execTrainTimeout_frame (l : Nat) (s : State) {t : State} (e : execTrainTimeout l s = .next t) : Fr 0x400004000 s t := by
  have hE : Sub 0x400004000 0x400004000 := Nat.and_self _
  have h := Fr.refl 0x400004000 s
  unfold execTrainTimeout at e
  cases e
  repeat' (first | with_reducible assumption | with_reducible apply trainTimeout_frame | with_reducible exact Sub.of (by assumption) (by decide))

theorem execFramingLock_frame (l : Nat) (trip : Nat) (decode : Nat) (s : State) {t : State} (e : execFramingLock l trip decode s = .next t) : Fr 0x4000 s t := by
  have hE : Sub 0x4000 0x4000 := Nat.and_self _
  have h := Fr.refl 0x4000 s
  unfold execFramingLock at e
  cases e
  repeat' (first | with_reducible assumption | with_reducible apply framingLock_frame | with_reducible exact Sub.of (by assumption) (by decide))

theorem execPartnerModeDetect_frame (l : Nat) (s : State) {t : State} (e : execPartnerModeDetect l s = .next t) : Fr 0x400004080 s t := by
  have hE : Sub 0x400004080 0x400004080 := Nat.and_self _
  have h := Fr.refl 0x400004080 s
  unfold execPartnerModeDetect at e
  cases e
  repeat' (first | with_reducible assumption | with_reducible apply partnerMode_frame | with_reducible exact Sub.of (by assumption) (by decide))

theorem execModeRetry_frame (l : Nat) (s : State) {t : State} (e : execModeRetry l s = .next t) : Fr 0x4000 s t := by
  have hE : Sub 0x4000 0x4000 := Nat.and_self _
  have h := Fr.refl 0x4000 s
  unfold execModeRetry at e
  cases e
  repeat' (first | with_reducible assumption | with_reducible apply modeRetry_frame | with_reducible exact Sub.of (by assumption) (by decide))

theorem execModeWindowClose_frame (l : Nat) (s : State) {t : State} (e : execModeWindowClose l s = .next t) : Fr 0x3dcb4776b0 s t := by
  have hE : Sub 0x3dcb4776b0 0x3dcb4776b0 := Nat.and_self _
  have h := Fr.refl 0x3dcb4776b0 s
  unfold execModeWindowClose at e
  cases e
  repeat' (first | with_reducible assumption | with_reducible apply loadPoll_frame | with_reducible apply windowClose_frame | with_reducible exact Sub.of (by assumption) (by decide))

theorem execIdentComplete_frame (l : Nat) (serial : DWord) (plink : Nat) (s : State) {t : State} (e : execIdentComplete l serial plink s = .next t) : Fr 0x3dcb4776b0 s t := by
  have hE : Sub 0x3dcb4776b0 0x3dcb4776b0 := Nat.and_self _
  have h := Fr.refl 0x3dcb4776b0 s
  unfold execIdentComplete at e
  cases e
  repeat' (first | with_reducible assumption | with_reducible apply loadPoll_frame | with_reducible apply identDone_frame | with_reducible exact Sub.of (by assumption) (by decide))

theorem execFramingLost_frame (l : Nat) (s : State) {t : State} (e : execFramingLost l s = .next t) : Fr 0x4000 s t := by
  have hE : Sub 0x4000 0x4000 := Nat.and_self _
  have h := Fr.refl 0x4000 s
  unfold execFramingLost at e
  cases e
  repeat' (first | with_reducible assumption | with_reducible apply framingLost_frame | with_reducible exact Sub.of (by assumption) (by decide))

theorem execResumeComplete_frame (l : Nat) (tag : BitVec 16) (s : State) {t : State} (e : execResumeComplete l tag s = .next t) : Fr 0x400004081 s t := by
  have hE : Sub 0x400004081 0x400004081 := Nat.and_self _
  have h := Fr.refl 0x400004081 s
  unfold execResumeComplete at e
  cases e
  repeat' (first | with_reducible assumption | with_reducible apply resumeDone_frame | with_reducible exact Sub.of (by assumption) (by decide))

theorem execResumeTimeout_frame (l : Nat) (s : State) {t : State} (e : execResumeTimeout l s = .next t) : Fr 0x400004080 s t := by
  have hE : Sub 0x400004080 0x400004080 := Nat.and_self _
  have h := Fr.refl 0x400004080 s
  unfold execResumeTimeout at e
  cases e
  repeat' (first | with_reducible assumption | with_reducible apply resumeFail_frame | with_reducible exact Sub.of (by assumption) (by decide))

theorem execPartnerOffReport_frame (l : Nat) (s : State) {t : State} (e : execPartnerOffReport l s = .next t) : Fr 0x400004080 s t := by
  have hE : Sub 0x400004080 0x400004080 := Nat.and_self _
  have h := Fr.refl 0x400004080 s
  unfold execPartnerOffReport at e
  cases e
  repeat' (first | with_reducible assumption | with_reducible apply resumeFail_frame | with_reducible exact Sub.of (by assumption) (by decide))

theorem execLnkSpareGo_frame (l : Nat) (lane : Nat) (s : State) {t : State} (e : execLnkSpareGo l lane s = .next t) : Fr 0x400004080 s t := by
  have hE : Sub 0x400004080 0x400004080 := Nat.and_self _
  have h := Fr.refl 0x400004080 s
  unfold execLnkSpareGo at e
  cases e
  repeat' (first | with_reducible assumption | with_reducible apply lnkSpareGo_frame | with_reducible exact Sub.of (by assumption) (by decide))

theorem execLaneLoss_frame (l : Nat) (lane : Nat) (s : State) {t : State} (e : execLaneLoss l lane s = .next t) : Fr 0x400004000 s t := by
  have hE : Sub 0x400004000 0x400004000 := Nat.and_self _
  have h := Fr.refl 0x400004000 s
  unfold execLaneLoss at e
  cases e
  repeat' (first | with_reducible assumption | with_reducible apply laneLoss_frame | with_reducible exact Sub.of (by assumption) (by decide))

theorem execLaneSpareComplete_frame (l : Nat) (accepted : Bool) (s : State) {t : State} (e : execLaneSpareComplete l accepted s = .next t) : Fr 0x4024040c0 s t := by
  have hE : Sub 0x4024040c0 0x4024040c0 := Nat.and_self _
  have h := Fr.refl 0x4024040c0 s
  unfold execLaneSpareComplete at e
  cases e
  repeat' (first | with_reducible assumption | with_reducible apply actsLog_frame | with_reducible apply sparingEnd_frame | with_reducible exact Sub.of (by assumption) (by decide))

theorem execSpareLaneTrained_frame (l : Nat) (s : State) {t : State} (e : execSpareLaneTrained l s = .next t) : Fr 0x400004000 s t := by
  have hE : Sub 0x400004000 0x400004000 := Nat.and_self _
  have h := Fr.refl 0x400004000 s
  unfold execSpareLaneTrained at e
  cases e
  repeat' (first | with_reducible assumption | with_reducible apply spareTrained_frame | with_reducible exact Sub.of (by assumption) (by decide))

theorem execSpareRetrainTimer_frame (l : Nat) (s : State) {t : State} (e : execSpareRetrainTimer l s = .next t) : Fr 0x4000 s t := by
  have hE : Sub 0x4000 0x4000 := Nat.and_self _
  have h := Fr.refl 0x4000 s
  unfold execSpareRetrainTimer at e
  cases e
  repeat' (first | with_reducible assumption | with_reducible apply spareRetrain_frame | with_reducible exact Sub.of (by assumption) (by decide))

theorem execEyeScan_frame (l : Nat) (lane : Nat) (height : Nat) (width : Nat) (s : State) {t : State} (e : execEyeScan l lane height width s = .next t) : Fr 0x400404080 s t := by
  have hE : Sub 0x400404080 0x400404080 := Nat.and_self _
  have h := Fr.refl 0x400404080 s
  unfold execEyeScan at e
  cases e
  repeat' (first | with_reducible assumption | with_reducible apply eyeScan_frame | with_reducible exact Sub.of (by assumption) (by decide))

theorem execLnkDevnumStart_frame (s : State) {t : State} (e : execLnkDevnumStart s = .next t) : Fr 0x400008000 s t := by
  have hE : Sub 0x400008000 0x400008000 := Nat.and_self _
  have h := Fr.refl 0x400008000 s
  unfold execLnkDevnumStart at e
  cases e
  repeat' (first | with_reducible assumption | with_reducible apply devnumStart_frame | with_reducible exact Sub.of (by assumption) (by decide))

theorem execLnkTopo_frame (self : Nat) (base : Nat) (renumber : Bool) (nums : List Nat) (links : List TopoLink) (s : State) {t : State} (e : execLnkTopo self base renumber nums links s = .next t) : Fr 0x40000c080 s t := by
  have hE : Sub 0x40000c080 0x40000c080 := Nat.and_self _
  have h := Fr.refl 0x40000c080 s
  unfold execLnkTopo at e
  cases e
  repeat' (first | with_reducible assumption | with_reducible apply lnkTopo_frame | with_reducible exact Sub.of (by assumption) (by decide))

theorem execDevnumWrite_frame (w : Word) (s : State) {t : State} (e : execDevnumWrite w s = .next t) : Fr 0x400008000 s t := by
  have hE : Sub 0x400008000 0x400008000 := Nat.and_self _
  have h := Fr.refl 0x400008000 s
  unfold execDevnumWrite at e
  exact regCmd_frame (devnumWrite_frame _ h) e

theorem execRimPllUnlock_frame (p : Nat) (s : State) {t : State} (e : execRimPllUnlock p s = .next t) : Fr 0x1000020080 s t := by
  have hE : Sub 0x1000020080 0x1000020080 := Nat.and_self _
  have h := Fr.refl 0x1000020080 s
  unfold execRimPllUnlock at e
  cases e
  repeat' (first | with_reducible assumption | with_reducible apply pllLock_frame | with_reducible exact Sub.of (by assumption) (by decide))

theorem execRimPllRelock_frame (p : Nat) (s : State) {t : State} (e : execRimPllRelock p s = .next t) : Fr 0x1000120081 s t := by
  have hE : Sub 0x1000120081 0x1000120081 := Nat.and_self _
  have h := Fr.refl 0x1000120081 s
  unfold execRimPllRelock at e
  cases e
  repeat' (first | with_reducible assumption | with_reducible apply nocPump_frame | with_reducible apply pllLock_frame | with_reducible exact Sub.of (by assumption) (by decide))

theorem execRimOnehot_frame (rfa : Nat) (mux : Nat) (s : State) {t : State} (e : execRimOnehot rfa mux s = .next t) : Fr 0x1000020080 s t := by
  have hE : Sub 0x1000020080 0x1000020080 := Nat.and_self _
  have h := Fr.refl 0x1000020080 s
  unfold execRimOnehot at e
  cases e
  repeat' (first | with_reducible assumption | with_reducible apply rimOnehot_frame | with_reducible exact Sub.of (by assumption) (by decide))

theorem execRimOutboundRead_frame (g : Nat) (s : State) {t : State} (e : execRimOutboundRead g s = .next t) : Fr 0x20001 s t := by
  have hE : Sub 0x20001 0x20001 := Nat.and_self _
  have h := Fr.refl 0x20001 s
  unfold execRimOutboundRead at e
  cases e
  repeat' (first | with_reducible assumption | with_reducible apply rimOutRead_frame | with_reducible exact Sub.of (by assumption) (by decide))

theorem execRimInboundWrite_frame (g : Nat) (entry : DWord) (s : State) {t : State} (e : execRimInboundWrite g entry s = .next t) : Fr 0x20000 s t := by
  have hE : Sub 0x20000 0x20000 := Nat.and_self _
  have h := Fr.refl 0x20000 s
  unfold execRimInboundWrite at e
  cases e
  repeat' (first | with_reducible assumption | with_reducible apply rimInWrite_frame | with_reducible exact Sub.of (by assumption) (by decide))

theorem execRimPrcFence_frame (region : Nat) (s : State) {t : State} (e : execRimPrcFence region s = .next t) : Fr 0x1000020080 s t := by
  have hE : Sub 0x1000020080 0x1000020080 := Nat.and_self _
  have h := Fr.refl 0x1000020080 s
  unfold execRimPrcFence at e
  cases e
  repeat' (first | with_reducible assumption | with_reducible apply rimFence_frame | with_reducible exact Sub.of (by assumption) (by decide))

theorem execRimPrcRel_frame (region : Nat) (s : State) {t : State} (e : execRimPrcRel region s = .next t) : Fr 0x1000020080 s t := by
  have hE : Sub 0x1000020080 0x1000020080 := Nat.and_self _
  have h := Fr.refl 0x1000020080 s
  unfold execRimPrcRel at e
  cases e
  repeat' (first | with_reducible assumption | with_reducible apply rimRelease_frame | with_reducible exact Sub.of (by assumption) (by decide))

theorem execRimFrameScrub_frame (ups : List Upset) (s : State) {t : State} (e : execRimFrameScrub ups s = .next t) : Fr 0x10000234b0 s t := by
  have hE : Sub 0x10000234b0 0x10000234b0 := Nat.and_self _
  have h := Fr.refl 0x10000234b0 s
  unfold execRimFrameScrub at e
  cases e
  repeat' (first | with_reducible assumption | with_reducible apply rimScrub_frame | with_reducible apply upsets_frame | with_reducible exact Sub.of (by assumption) (by decide))

theorem execRimParam_frame (s : State) {t : State} (e : execRimParam s = .next t) : Fr 0x1000020080 s t := by
  have hE : Sub 0x1000020080 0x1000020080 := Nat.and_self _
  have h := Fr.refl 0x1000020080 s
  unfold execRimParam at e
  cases e
  repeat' (first | with_reducible assumption | with_reducible apply rimParamPost_frame | with_reducible exact Sub.of (by assumption) (by decide))

theorem execRimPortRequest_frame (port : Nat) (write : Bool) (addr : Nat) (size : Nat) (tag : Nat) (data : List Byte) (s : State) {t : State} (e : execRimPortRequest port write addr size tag data s = .next t) : Fr 0x100001 s t := by
  have hE : Sub 0x100001 0x100001 := Nat.and_self _
  have h := Fr.refl 0x100001 s
  unfold execRimPortRequest at e
  cases e
  repeat' (first | with_reducible assumption | with_reducible apply rimRequest_frame | with_reducible exact Sub.of (by assumption) (by decide))

theorem execVccioGood_frame (b : Nat) (mv : Nat) (strap : Nat) (s : State) {t : State} (e : execVccioGood b mv strap s = .next t) : Fr 0x1000020080 s t := by
  have hE : Sub 0x1000020080 0x1000020080 := Nat.and_self _
  have h := Fr.refl 0x1000020080 s
  unfold execVccioGood at e
  cases e
  repeat' (first | with_reducible assumption | with_reducible apply vccioGood_frame | with_reducible exact Sub.of (by assumption) (by decide))

theorem execVccioLost_frame (b : Nat) (mv : Nat) (s : State) {t : State} (e : execVccioLost b mv s = .next t) : Fr 0x1000020080 s t := by
  have hE : Sub 0x1000020080 0x1000020080 := Nat.and_self _
  have h := Fr.refl 0x1000020080 s
  unfold execVccioLost at e
  cases e
  repeat' (first | with_reducible assumption | with_reducible apply vccioLost_frame | with_reducible exact Sub.of (by assumption) (by decide))

theorem execRimRel_frame (b : Nat) (s : State) {t : State} (e : execRimRel b s = .next t) : Fr 0x1000020080 s t := by
  have hE : Sub 0x1000020080 0x1000020080 := Nat.and_self _
  have h := Fr.refl 0x1000020080 s
  unfold execRimRel at e
  cases e
  repeat' (first | with_reducible assumption | with_reducible apply rimRel_frame | with_reducible exact Sub.of (by assumption) (by decide))

theorem execRimDis_frame (b : Nat) (s : State) {t : State} (e : execRimDis b s = .next t) : Fr 0x1000020080 s t := by
  have hE : Sub 0x1000020080 0x1000020080 := Nat.and_self _
  have h := Fr.refl 0x1000020080 s
  unfold execRimDis at e
  cases e
  repeat' (first | with_reducible assumption | with_reducible apply rimDis_frame | with_reducible exact Sub.of (by assumption) (by decide))

theorem execBankCheckComplete_frame (b : Nat) (key : BitVec 2) (openMask : BitVec 48) (s : State) {t : State} (e : execBankCheckComplete b key openMask s = .next t) : Fr 0x1000020080 s t := by
  have hE : Sub 0x1000020080 0x1000020080 := Nat.and_self _
  have h := Fr.refl 0x1000020080 s
  unfold execBankCheckComplete at e
  cases e
  repeat' (first | with_reducible assumption | with_reducible apply bankChecked_frame | with_reducible exact Sub.of (by assumption) (by decide))

theorem execKeySample_frame (b : Nat) (key : BitVec 2) (s : State) {t : State} (e : execKeySample b key s = .next t) : Fr 0x1000020080 s t := by
  have hE : Sub 0x1000020080 0x1000020080 := Nat.and_self _
  have h := Fr.refl 0x1000020080 s
  unfold execKeySample at e
  cases e
  repeat' (first | with_reducible assumption | with_reducible apply keySample_frame | with_reducible exact Sub.of (by assumption) (by decide))

theorem execRimIoShort_frame (b : Nat) (pin : Nat) (level : Bool) (s : State) {t : State} (e : execRimIoShort b pin level s = .next t) : Fr 0x1000020080 s t := by
  have hE : Sub 0x1000020080 0x1000020080 := Nat.and_self _
  have h := Fr.refl 0x1000020080 s
  unfold execRimIoShort at e
  cases e
  repeat' (first | with_reducible assumption | with_reducible apply ioShort_frame | with_reducible exact Sub.of (by assumption) (by decide))

theorem execSigStart_frame (s : State) {t : State} (e : execSigStart s = .next t) : Fr 0x2000040080 s t := by
  have hE : Sub 0x2000040080 0x2000040080 := Nat.and_self _
  have h := Fr.refl 0x2000040080 s
  unfold execSigStart at e
  cases e
  repeat' (first | with_reducible assumption | with_reducible apply sigStartReq_frame | with_reducible exact Sub.of (by assumption) (by decide))

theorem execSigStop_frame (s : State) {t : State} (e : execSigStop s = .next t) : Fr 0x2000040000 s t := by
  have hE : Sub 0x2000040000 0x2000040000 := Nat.and_self _
  have h := Fr.refl 0x2000040000 s
  unfold execSigStop at e
  cases e
  repeat' (first | with_reducible assumption | with_reducible apply sigStopReq_frame | with_reducible exact Sub.of (by assumption) (by decide))

theorem execSigPostEnd_frame (s : State) {t : State} (e : execSigPostEnd s = .next t) : Fr 0x28004420b0 s t := by
  have hE : Sub 0x28004420b0 0x28004420b0 := Nat.and_self _
  have h := Fr.refl 0x28004420b0 s
  unfold execSigPostEnd at e
  cases e
  repeat' (first | with_reducible assumption | with_reducible apply sigPostEnd_frame | with_reducible exact Sub.of (by assumption) (by decide))

theorem execCaptureDrain_frame (s : State) {t : State} (e : execCaptureDrain s = .next t) : Fr 0x28004420a0 s t := by
  have hE : Sub 0x28004420a0 0x28004420a0 := Nat.and_self _
  have h := Fr.refl 0x28004420a0 s
  unfold execCaptureDrain at e
  cases e
  repeat' (first | with_reducible assumption | with_reducible apply captureDrain_frame | with_reducible exact Sub.of (by assumption) (by decide))

theorem execCapOverflow_frame (mt : Bool) (s : State) {t : State} (e : execCapOverflow mt s = .next t) : Fr 0x2000040080 s t := by
  have hE : Sub 0x2000040080 0x2000040080 := Nat.and_self _
  have h := Fr.refl 0x2000040080 s
  unfold execCapOverflow at e
  cases e
  repeat' (first | with_reducible assumption | with_reducible apply capOverflow_frame | with_reducible exact Sub.of (by assumption) (by decide))

theorem execMtStart_frame (s : State) {t : State} (e : execMtStart s = .next t) : Fr 0x2000040080 s t := by
  have hE : Sub 0x2000040080 0x2000040080 := Nat.and_self _
  have h := Fr.refl 0x2000040080 s
  unfold execMtStart at e
  cases e
  repeat' (first | with_reducible assumption | with_reducible apply mtStartReq_frame | with_reducible exact Sub.of (by assumption) (by decide))

theorem execMtStop_frame (s : State) {t : State} (e : execMtStop s = .next t) : Fr 0x28004420b0 s t := by
  have hE : Sub 0x28004420b0 0x28004420b0 := Nat.and_self _
  have h := Fr.refl 0x28004420b0 s
  unfold execMtStop at e
  cases e
  repeat' (first | with_reducible assumption | with_reducible apply mtStopReq_frame | with_reducible exact Sub.of (by assumption) (by decide))

theorem execTuEnable_frame (u : Nat) (w : Word) (s : State) {t : State} (e : execTuEnable u w s = .next t) : Fr 0x2000040080 s t := by
  have hE : Sub 0x2000040080 0x2000040080 := Nat.and_self _
  have h := Fr.refl 0x2000040080 s
  unfold execTuEnable at e
  exact regCmd_frame (tuEnable_frame _ _ h) e

theorem execTuDisable_frame (u : Nat) (s : State) {t : State} (e : execTuDisable u s = .next t) : Fr 0x2000040000 s t := by
  have hE : Sub 0x2000040000 0x2000040000 := Nat.and_self _
  have h := Fr.refl 0x2000040000 s
  unfold execTuDisable at e
  cases e
  repeat' (first | with_reducible assumption | with_reducible apply tuDisable_frame | with_reducible exact Sub.of (by assumption) (by decide))

theorem execTuRegWrite_frame (u : Nat) (off : Nat) (w : Word) (s : State) {t : State} (e : execTuRegWrite u off w s = .next t) : Fr 0x2000040080 s t := by
  have hE : Sub 0x2000040080 0x2000040080 := Nat.and_self _
  have h := Fr.refl 0x2000040080 s
  unfold execTuRegWrite at e
  exact regCmd_frame (tuRegWrite_frame _ _ _ h) e

theorem execPinCrossing_frame (bank : Nat) (pin : Nat) (hi : Bool) (up : Bool) (mv : Nat) (fine : Nat) (s : State) {t : State} (e : execPinCrossing bank pin hi up mv fine s = .next t) : Fr 0x60010 s t := by
  have hE : Sub 0x60010 0x60010 := Nat.and_self _
  have h := Fr.refl 0x60010 s
  unfold execPinCrossing at e
  cases e
  repeat' (first | with_reducible assumption | with_reducible apply pinCrossing_frame | with_reducible exact Sub.of (by assumption) (by decide))

theorem execTriggerFire_frame (u : Nat) (ticks : Nat) (s : State) {t : State} (e : execTriggerFire u ticks s = .next t) : Fr 0x68404462b1 s t := by
  have hE : Sub 0x68404462b1 0x68404462b1 := Nat.and_self _
  have h := Fr.refl 0x68404462b1 s
  unfold execTriggerFire at e
  cases e
  repeat' (first | with_reducible assumption | with_reducible apply triggerFire_frame | with_reducible exact Sub.of (by assumption) (by decide))

theorem execHoldoffEnd_frame (u : Nat) (s : State) {t : State} (e : execHoldoffEnd u s = .next t) : Fr 0x40000 s t := by
  have hE : Sub 0x40000 0x40000 := Nat.and_self _
  have h := Fr.refl 0x40000 s
  unfold execHoldoffEnd at e
  cases e
  repeat' (first | with_reducible assumption | with_reducible apply holdoffEnd_frame | with_reducible exact Sub.of (by assumption) (by decide))

theorem execDbgAuthPassword_frame (p : Path) (level : Nat) (s : State) {t : State} (e : execDbgAuthPassword p level s = .next t) : Fr 0x6d414e66b1 s t := by
  have hE : Sub 0x6d414e66b1 0x6d414e66b1 := Nat.and_self _
  have h := Fr.refl 0x6d414e66b1 s
  unfold execDbgAuthPassword at e
  cases e
  repeat' (first | with_reducible assumption | with_reducible apply authPassword_frame | with_reducible exact Sub.of (by assumption) (by decide))

theorem execDbgAuthKeyx_frame (p : Path) (level : Nat) (s : State) {t : State} (e : execDbgAuthKeyx p level s = .next t) : Fr 0x6d414e66b1 s t := by
  have hE : Sub 0x6d414e66b1 0x6d414e66b1 := Nat.and_self _
  have h := Fr.refl 0x6d414e66b1 s
  unfold execDbgAuthKeyx at e
  cases e
  repeat' (first | with_reducible assumption | with_reducible apply authKeyx_frame | with_reducible exact Sub.of (by assumption) (by decide))

theorem execKeyxTimeout_frame (s : State) {t : State} (e : execKeyxTimeout s = .next t) : Fr 0x4000080080 s t := by
  have hE : Sub 0x4000080080 0x4000080080 := Nat.and_self _
  have h := Fr.refl 0x4000080080 s
  unfold execKeyxTimeout at e
  cases e
  repeat' (first | with_reducible assumption | with_reducible apply keyxAbort_frame | with_reducible exact Sub.of (by assumption) (by decide))

theorem execDbgAuthDrop_frame (p : Path) (s : State) {t : State} (e : execDbgAuthDrop p s = .next t) : Fr 0x6d414e66b1 s t := by
  have hE : Sub 0x6d414e66b1 0x6d414e66b1 := Nat.and_self _
  have h := Fr.refl 0x6d414e66b1 s
  unfold execDbgAuthDrop at e
  cases e
  repeat' (first | with_reducible assumption | with_reducible apply setLevel_frame | with_reducible exact Sub.of (by assumption) (by decide))

theorem execDbgAccessRead_frame (s : State) {t : State} (e : execDbgAccessRead s = .next t) : Fr 0xffffffffbd s t := by
  have hE : Sub 0xffffffffbd 0xffffffffbd := Nat.and_self _
  have h := Fr.refl 0xffffffffbd s
  unfold execDbgAccessRead at e
  exact orFault_frame (fun u hu => engineGo_frame _ h hu) e

theorem execDbgAccessWrite_frame (s : State) {t : State} (e : execDbgAccessWrite s = .next t) : Fr 0xffffffffbd s t := by
  have hE : Sub 0xffffffffbd 0xffffffffbd := Nat.and_self _
  have h := Fr.refl 0xffffffffbd s
  unfold execDbgAccessWrite at e
  exact orFault_frame (fun u hu => engineGo_frame _ h hu) e

theorem execRead_frame (p : Path) (c : Nat) (bp : Nat) (bank : Bool) (entry : Nat) (s : State) {t : State} (e : execRead p c bp bank entry s = .next t) : Fr 0x4000080400 s t := by
  have hE : Sub 0x4000080400 0x4000080400 := Nat.and_self _
  have h := Fr.refl 0x4000080400 s
  unfold execRead at e
  cases e
  repeat' (first | with_reducible assumption | with_reducible apply arrGo_frame | with_reducible exact Sub.of (by assumption) (by decide))

theorem execDeposit_frame (p : Path) (c : Nat) (bp : Nat) (bank : Bool) (entry : Nat) (v : Val) (s : State) {t : State} (e : execDeposit p c bp bank entry v s = .next t) : Fr 0x4000080400 s t := by
  have hE : Sub 0x4000080400 0x4000080400 := Nat.and_self _
  have h := Fr.refl 0x4000080400 s
  unfold execDeposit at e
  cases e
  repeat' (first | with_reducible assumption | with_reducible apply arrGoVal_frame | with_reducible exact Sub.of (by assumption) (by decide))

theorem execForce_frame (p : Path) (c : Nat) (bp : Nat) (bank : Bool) (entry : Nat) (v : Val) (s : State) {t : State} (e : execForce p c bp bank entry v s = .next t) : Fr 0x4000080400 s t := by
  have hE : Sub 0x4000080400 0x4000080400 := Nat.and_self _
  have h := Fr.refl 0x4000080400 s
  unfold execForce at e
  cases e
  repeat' (first | with_reducible assumption | with_reducible apply arrGoVal_frame | with_reducible exact Sub.of (by assumption) (by decide))

theorem execRelease_frame (p : Path) (c : Nat) (bp : Nat) (bank : Bool) (entry : Nat) (s : State) {t : State} (e : execRelease p c bp bank entry s = .next t) : Fr 0x4000080400 s t := by
  have hE : Sub 0x4000080400 0x4000080400 := Nat.and_self _
  have h := Fr.refl 0x4000080400 s
  unfold execRelease at e
  cases e
  repeat' (first | with_reducible assumption | with_reducible apply arrGo_frame | with_reducible exact Sub.of (by assumption) (by decide))

theorem execCqread_frame (p : Path) (c : Nat) (bp : Nat) (slot : Nat) (s : State) {t : State} (e : execCqread p c bp slot s = .next t) : Fr 0x4000080400 s t := by
  have hE : Sub 0x4000080400 0x4000080400 := Nat.and_self _
  have h := Fr.refl 0x4000080400 s
  unfold execCqread at e
  cases e
  repeat' (first | with_reducible assumption | with_reducible apply arrGo_frame | with_reducible exact Sub.of (by assumption) (by decide))

theorem execRelall_frame (p : Path) (s : State) {t : State} (e : execRelall p s = .next t) : Fr 0x4000080400 s t := by
  have hE : Sub 0x4000080400 0x4000080400 := Nat.and_self _
  have h := Fr.refl 0x4000080400 s
  unfold execRelall at e
  cases e
  repeat' (first | with_reducible assumption | with_reducible apply arrGo_frame | with_reducible exact Sub.of (by assumption) (by decide))

theorem execArrDeferredStart_frame (s : State) {t : State} (e : execArrDeferredStart s = .next t) : Fr 0x4000080400 s t := by
  have hE : Sub 0x4000080400 0x4000080400 := Nat.and_self _
  have h := Fr.refl 0x4000080400 s
  unfold execArrDeferredStart at e
  cases e
  repeat' (first | with_reducible assumption | with_reducible apply arrDeferred_frame | with_reducible exact Sub.of (by assumption) (by decide))

theorem execDbgHalt_frame (cause : HaltCause) (s : State) {t : State} (e : execDbgHalt cause s = .next t) : Fr 0x68004462b1 s t := by
  have hE : Sub 0x68004462b1 0x68004462b1 := Nat.and_self _
  have h := Fr.refl 0x68004462b1 s
  unfold execDbgHalt at e
  cases e
  repeat' (first | with_reducible assumption | with_reducible apply runHalt_frame | with_reducible exact Sub.of (by assumption) (by decide))

theorem execDbgResume_frame (p : Path) (s : State) {t : State} (e : execDbgResume p s = .next t) : Fr 0x68404462b1 s t := by
  have hE : Sub 0x68404462b1 0x68404462b1 := Nat.and_self _
  have h := Fr.refl 0x68404462b1 s
  unfold execDbgResume at e
  cases e
  repeat' (first | with_reducible assumption | with_reducible apply runResume_frame | with_reducible exact Sub.of (by assumption) (by decide))

theorem execDbgStep_frame (p : Path) (ups : List Upset) (s : State) {t : State} (e : execDbgStep p ups s = .next t) : Fr 0x6bc3c77eb1 s t := by
  have hE : Sub 0x6bc3c77eb1 0x6bc3c77eb1 := Nat.and_self _
  have h := Fr.refl 0x6bc3c77eb1 s
  unfold execDbgStep at e
  cases e
  repeat' (first | with_reducible assumption | with_reducible apply runStep_frame | with_reducible exact Sub.of (by assumption) (by decide))

theorem execPairHalt_frame (pair : Nat) (cause : HaltCause) (s : State) {t : State} (e : execPairHalt pair cause s = .next t) : Fr 0x4000400000 s t := by
  have hE : Sub 0x4000400000 0x4000400000 := Nat.and_self _
  have h := Fr.refl 0x4000400000 s
  unfold execPairHalt at e
  cases e
  repeat' (first | with_reducible assumption | with_reducible apply pairHalt_frame | with_reducible exact Sub.of (by assumption) (by decide))

theorem execPairHaltComplete_frame (pair : Nat) (priv : Nat) (pc : DWord) (lr : Option (Nat × Nat)) (s : State) {t : State} (e : execPairHaltComplete pair priv pc lr s = .next t) : Fr 0x68004462b1 s t := by
  have hE : Sub 0x68004462b1 0x68004462b1 := Nat.and_self _
  have h := Fr.refl 0x68004462b1 s
  unfold execPairHaltComplete at e
  cases e
  repeat' (first | with_reducible assumption | with_reducible apply pairHalted_frame | with_reducible exact Sub.of (by assumption) (by decide))

theorem execPairResume_frame (p : Path) (pair : Nat) (s : State) {t : State} (e : execPairResume p pair s = .next t) : Fr 0x68004420a0 s t := by
  have hE : Sub 0x68004420a0 0x68004420a0 := Nat.and_self _
  have h := Fr.refl 0x68004420a0 s
  unfold execPairResume at e
  cases e
  repeat' (first | with_reducible assumption | with_reducible apply pairResumeReq_frame | with_reducible exact Sub.of (by assumption) (by decide))

theorem execPairStep_frame (p : Path) (pair : Nat) (eff : CoreEffect) (s : State) {t : State} (e : execPairStep p pair eff s = .next t) : Fr 0x68084462b1 s t := by
  have hE : Sub 0x68084462b1 0x68084462b1 := Nat.and_self _
  have h := Fr.refl 0x68084462b1 s
  unfold execPairStep at e
  cases e
  repeat' (first | with_reducible assumption | with_reducible apply pairStepReq_frame | with_reducible exact Sub.of (by assumption) (by decide))

theorem execXtrigIn_frame (ch : Nat) (s : State) {t : State} (e : execXtrigIn ch s = .next t) : Fr 0x68004462b1 s t := by
  have hE : Sub 0x68004462b1 0x68004462b1 := Nat.and_self _
  have h := Fr.refl 0x68004462b1 s
  unfold execXtrigIn at e
  cases e
  repeat' (first | with_reducible assumption | with_reducible apply xtrigIn_frame | with_reducible exact Sub.of (by assumption) (by decide))

theorem execTestLogicReset_frame (s : State) {t : State} (e : execTestLogicReset s = .next t) : Fr 0x6d414e66b1 s t := by
  have hE : Sub 0x6d414e66b1 0x6d414e66b1 := Nat.and_self _
  have h := Fr.refl 0x6d414e66b1 s
  unfold execTestLogicReset at e
  cases e
  repeat' (first | with_reducible assumption | with_reducible apply setLevel_frame | with_reducible apply tapSelect_frame | with_reducible exact Sub.of (by assumption) (by decide))

theorem execExtest_frame (s : State) {t : State} (e : execExtest s = .next t) : Fr 0x4000080080 s t := by
  have hE : Sub 0x4000080080 0x4000080080 := Nat.and_self _
  have h := Fr.refl 0x4000080080 s
  unfold execExtest at e
  cases e
  repeat' (first | with_reducible assumption | with_reducible apply tapSelect_frame | with_reducible exact Sub.of (by assumption) (by decide))

theorem execSamplePreload_frame (s : State) {t : State} (e : execSamplePreload s = .next t) : Fr 0x4000080080 s t := by
  have hE : Sub 0x4000080080 0x4000080080 := Nat.and_self _
  have h := Fr.refl 0x4000080080 s
  unfold execSamplePreload at e
  cases e
  repeat' (first | with_reducible assumption | with_reducible apply tapSelect_frame | with_reducible exact Sub.of (by assumption) (by decide))

theorem execIdcode_frame (s : State) {t : State} (e : execIdcode s = .next t) : Fr 0x4000080081 s t := by
  have hE : Sub 0x4000080081 0x4000080081 := Nat.and_self _
  have h := Fr.refl 0x4000080081 s
  unfold execIdcode at e
  cases e
  repeat' (first | with_reducible assumption | with_reducible apply State.emit_frame | with_reducible apply tapSelect_frame | with_reducible exact Sub.of (by assumption) (by decide))

theorem execDbgacc_frame (write : Bool) (addr : Nat) (data : Word) (s : State) {t : State} (e : execDbgacc write addr data s = .next t) : Fr 0xffffffffbd s t := by
  have hE : Sub 0xffffffffbd 0xffffffffbd := Nat.and_self _
  have h := Fr.refl 0xffffffffbd s
  unfold execDbgacc at e
  exact orFault_frame (fun u hu => dbgacc_frame _ _ _ h hu) e

theorem execBypass_frame (code : Byte) (s : State) {t : State} (e : execBypass code s = .next t) : Fr 0x4000080080 s t := by
  have hE : Sub 0x4000080080 0x4000080080 := Nat.and_self _
  have h := Fr.refl 0x4000080080 s
  unfold execBypass at e
  cases e
  repeat' (first | with_reducible assumption | with_reducible apply tapSelect_frame | with_reducible exact Sub.of (by assumption) (by decide))

theorem execNocPacketForward_frame (router : Nat) (port : Nat) (err : HopError) (s : State) {t : State} (e : execNocPacketForward router port err s = .next t) : Fr 0x20100081 s t := by
  have hE : Sub 0x20100081 0x20100081 := Nat.and_self _
  have h := Fr.refl 0x20100081 s
  unfold execNocPacketForward at e
  cases e
  repeat' (first | with_reducible assumption | with_reducible apply nocPump_frame | with_reducible apply nocForward_frame | with_reducible exact Sub.of (by assumption) (by decide))

theorem execAgeIncrement_frame (router : Nat) (s : State) {t : State} (e : execAgeIncrement router s = .next t) : Fr 0x100000 s t := by
  have hE : Sub 0x100000 0x100000 := Nat.and_self _
  have h := Fr.refl 0x100000 s
  unfold execAgeIncrement at e
  cases e
  repeat' (first | with_reducible assumption | with_reducible apply nocAge_frame | with_reducible exact Sub.of (by assumption) (by decide))

theorem execNocPacketReceive_frame (router : Nat) (err : HopError) (s : State) {t : State} (e : execNocPacketReceive router err s = .next t) : Fr 0xffffffffbd s t := by
  have hE : Sub 0xffffffffbd 0xffffffffbd := Nat.and_self _
  have h := Fr.refl 0xffffffffbd s
  unfold execNocPacketReceive at e
  exact orFault_frame (fun u hu => nocReceive_frame _ _ _ h hu) e

theorem execNocTimeout_frame (k : Nat) (s : State) {t : State} (e : execNocTimeout k s = .next t) : Fr 0x20100081 s t := by
  have hE : Sub 0x20100081 0x20100081 := Nat.and_self _
  have h := Fr.refl 0x20100081 s
  unfold execNocTimeout at e
  cases e
  repeat' (first | with_reducible assumption | with_reducible apply nocTimeout_frame | with_reducible exact Sub.of (by assumption) (by decide))

theorem execNocRtFlip_frame (s : State) {t : State} (e : execNocRtFlip s = .next t) : Fr 0x20000090 s t := by
  have hE : Sub 0x20000090 0x20000090 := Nat.and_self _
  have h := Fr.refl 0x20000090 s
  unfold execNocRtFlip at e
  cases e
  repeat' (first | with_reducible assumption | with_reducible apply rtFlip_frame | with_reducible exact Sub.of (by assumption) (by decide))

theorem execOldEpochDrained_frame (s : State) {t : State} (e : execOldEpochDrained s = .next t) : Fr 0x20100091 s t := by
  have hE : Sub 0x20100091 0x20100091 := Nat.and_self _
  have h := Fr.refl 0x20100091 s
  unfold execOldEpochDrained at e
  cases e
  repeat' (first | with_reducible assumption | with_reducible apply oldDrained_frame | with_reducible exact Sub.of (by assumption) (by decide))

theorem execNocAgreeCommit_frame (tag : Byte) (s : State) {t : State} (e : execNocAgreeCommit tag s = .next t) : Fr 0x20100080 s t := by
  have hE : Sub 0x20100080 0x20100080 := Nat.and_self _
  have h := Fr.refl 0x20100080 s
  unfold execNocAgreeCommit at e
  cases e
  repeat' (first | with_reducible assumption | with_reducible apply nocAgree_frame | with_reducible exact Sub.of (by assumption) (by decide))

theorem execDlmodeSwitch_frame (row : Nat) (s : State) {t : State} (e : execDlmodeSwitch row s = .next t) : Fr 0x20100001 s t := by
  have hE : Sub 0x20100001 0x20100001 := Nat.and_self _
  have h := Fr.refl 0x20100001 s
  unfold execDlmodeSwitch at e
  cases e
  repeat' (first | with_reducible assumption | with_reducible apply dlSwitch_frame | with_reducible exact Sub.of (by assumption) (by decide))

theorem execBar2Read_frame (off : Nat) (size : Nat) (s : State) {t : State} (e : execBar2Read off size s = .next t) : Fr 0x8184020b1 s t := by
  have hE : Sub 0x8184020b1 0x8184020b1 := Nat.and_self _
  have h := Fr.refl 0x8184020b1 s
  unfold execBar2Read at e
  cases e
  repeat' (first | with_reducible assumption | with_reducible apply bar2Read_frame | with_reducible exact Sub.of (by assumption) (by decide))

theorem execBar2Write_frame (off : Nat) (data : List Byte) (s : State) {t : State} (e : execBar2Write off data s = .next t) : Fr 0x8184020a1 s t := by
  have hE : Sub 0x8184020a1 0x8184020a1 := Nat.and_self _
  have h := Fr.refl 0x8184020a1 s
  unfold execBar2Write at e
  cases e
  repeat' (first | with_reducible assumption | with_reducible apply bar2Write_frame | with_reducible exact Sub.of (by assumption) (by decide))

theorem execEventDoorbell_frame (r : Nat) (w : Word) (s : State) {t : State} (e : execEventDoorbell r w s = .next t) : Fr 0x10200080 s t := by
  have hE : Sub 0x10200080 0x10200080 := Nat.and_self _
  have h := Fr.refl 0x10200080 s
  unfold execEventDoorbell at e
  cases e
  repeat' (first | with_reducible assumption | with_reducible apply eventDoorbell_frame | with_reducible exact Sub.of (by assumption) (by decide))

theorem execDmaDoorbell_frame (c : Nat) (w : Word) (s : State) {t : State} (e : execDmaDoorbell c w s = .next t) : Fr 0x10200080 s t := by
  have hE : Sub 0x10200080 0x10200080 := Nat.and_self _
  have h := Fr.refl 0x10200080 s
  unfold execDmaDoorbell at e
  cases e
  repeat' (first | with_reducible assumption | with_reducible apply dmaDoorbell_frame | with_reducible exact Sub.of (by assumption) (by decide))

theorem execPcieReset_frame (kind : PcieReset) (s : State) {t : State} (e : execPcieReset kind s = .next t) : Fr 0x6d516e66b1 s t := by
  have hE : Sub 0x6d516e66b1 0x6d516e66b1 := Nat.and_self _
  have h := Fr.refl 0x6d516e66b1 s
  unfold execPcieReset at e
  rw [← Host.Outcome.next.inj e]
  exact pcieReset_frame _ h

theorem execDmaEnable_frame (c : Nat) (w : Word) (s : State) {t : State} (e : execDmaEnable c w s = .next t) : Fr 0x10200000 s t := by
  have hE : Sub 0x10200000 0x10200000 := Nat.and_self _
  have h := Fr.refl 0x10200000 s
  unfold execDmaEnable at e
  exact regCmd_frame (dmaEnable_frame _ _ h) e

theorem execDmaDisable_frame (c : Nat) (w : Word) (s : State) {t : State} (e : execDmaDisable c w s = .next t) : Fr 0x10200000 s t := by
  have hE : Sub 0x10200000 0x10200000 := Nat.and_self _
  have h := Fr.refl 0x10200000 s
  unfold execDmaDisable at e
  exact regCmd_frame (dmaDisable_frame _ _ h) e

theorem execDmaDescComplete_frame (c : Nat) (desc : List Byte) (data : List Byte) (s : State) {t : State} (e : execDmaDescComplete c desc data s = .next t) : Fr 0x8186020b1 s t := by
  have hE : Sub 0x8186020b1 0x8186020b1 := Nat.and_self _
  have h := Fr.refl 0x8186020b1 s
  unfold execDmaDescComplete at e
  cases e
  repeat' (first | with_reducible assumption | with_reducible apply dmaDesc_frame | with_reducible exact Sub.of (by assumption) (by decide))

theorem execHifDmaErr_frame (c : Nat) (err : Nat) (status : Nat) (s : State) {t : State} (e : execHifDmaErr c err status s = .next t) : Fr 0x10200080 s t := by
  have hE : Sub 0x10200080 0x10200080 := Nat.and_self _
  have h := Fr.refl 0x10200080 s
  unfold execHifDmaErr at e
  cases e
  repeat' (first | with_reducible assumption | with_reducible apply dmaFail_frame | with_reducible exact Sub.of (by assumption) (by decide))

theorem execEventAccept_frame (k : Nat) (s : State) {t : State} (e : execEventAccept k s = .next t) : Fr 0x6000d0 s t := by
  have hE : Sub 0x6000d0 0x6000d0 := Nat.and_self _
  have h := Fr.refl 0x6000d0 s
  unfold execEventAccept at e
  cases e
  repeat' (first | with_reducible assumption | with_reducible apply eventAccept_frame | with_reducible exact Sub.of (by assumption) (by decide))

theorem execEventRingWrite_frame (s : State) {t : State} (e : execEventRingWrite s = .next t) : Fr 0x200001 s t := by
  have hE : Sub 0x200001 0x200001 := Nat.and_self _
  have h := Fr.refl 0x200001 s
  unfold execEventRingWrite at e
  cases e
  repeat' (first | with_reducible assumption | with_reducible apply ringWrite_frame | with_reducible exact Sub.of (by assumption) (by decide))

theorem execMsixCoalesceExpire_frame (r : Nat) (s : State) {t : State} (e : execMsixCoalesceExpire r s = .next t) : Fr 0x200001 s t := by
  have hE : Sub 0x200001 0x200001 := Nat.and_self _
  have h := Fr.refl 0x200001 s
  unfold execMsixCoalesceExpire at e
  cases e
  repeat' (first | with_reducible assumption | with_reducible apply coalesceExpire_frame | with_reducible exact Sub.of (by assumption) (by decide))

theorem execRingFullResignal_frame (s : State) {t : State} (e : execRingFullResignal s = .next t) : Fr 0x10200001 s t := by
  have hE : Sub 0x10200001 0x10200001 := Nat.and_self _
  have h := Fr.refl 0x10200001 s
  unfold execRingFullResignal at e
  cases e
  repeat' (first | with_reducible assumption | with_reducible apply ringResignal_frame | with_reducible exact Sub.of (by assumption) (by decide))

theorem execEventRingEnable_frame (r : Nat) (w : Word) (s : State) {t : State} (e : execEventRingEnable r w s = .next t) : Fr 0x10200000 s t := by
  have hE : Sub 0x10200000 0x10200000 := Nat.and_self _
  have h := Fr.refl 0x10200000 s
  unfold execEventRingEnable at e
  exact regCmd_frame (ringEnable_frame _ _ h) e

theorem execMgtLockstep_frame (pair : Nat) (pc : DWord) (s : State) {t : State} (e : execMgtLockstep pair pc s = .next t) : Fr 0x4008490090 s t := by
  have hE : Sub 0x4008490090 0x4008490090 := Nat.and_self _
  have h := Fr.refl 0x4008490090 s
  unfold execMgtLockstep at e
  cases e
  repeat' (first | with_reducible assumption | with_reducible apply lockstep_frame | with_reducible exact Sub.of (by assumption) (by decide))

theorem execPairRestartComplete_frame (pair : Nat) (s : State) {t : State} (e : execPairRestartComplete pair s = .next t) : Fr 0x40004c00f0 s t := by
  have hE : Sub 0x40004c00f0 0x40004c00f0 := Nat.and_self _
  have h := Fr.refl 0x40004c00f0 s
  unfold execPairRestartComplete at e
  cases e
  repeat' (first | with_reducible assumption | with_reducible apply restartDone_frame | with_reducible exact Sub.of (by assumption) (by decide))

theorem execMgtWdtEnable_frame (pair : Nat) (timeout : BitVec 24) (s : State) {t : State} (e : execMgtWdtEnable pair timeout s = .next t) : Fr 0x8000000 s t := by
  have hE : Sub 0x8000000 0x8000000 := Nat.and_self _
  have h := Fr.refl 0x8000000 s
  unfold execMgtWdtEnable at e
  cases e
  repeat' (first | with_reducible assumption | with_reducible apply wdtWrite_frame | with_reducible exact Sub.of (by assumption) (by decide))

theorem execWdtKick_frame (pair : Nat) (key : BitVec 16) (s : State) {t : State} (e : execWdtKick pair key s = .next t) : Fr 0x400000 s t := by
  have hE : Sub 0x400000 0x400000 := Nat.and_self _
  have h := Fr.refl 0x400000 s
  unfold execWdtKick at e
  cases e
  repeat' (first | with_reducible assumption | with_reducible apply wdtKick_frame | with_reducible exact Sub.of (by assumption) (by decide))

theorem execMgtWdt_frame (pair : Nat) (s : State) {t : State} (e : execMgtWdt pair s = .next t) : Fr 0x4008490091 s t := by
  have hE : Sub 0x4008490091 0x4008490091 := Nat.and_self _
  have h := Fr.refl 0x4008490091 s
  unfold execMgtWdt at e
  cases e
  repeat' (first | with_reducible assumption | with_reducible apply wdtExpire_frame | with_reducible exact Sub.of (by assumption) (by decide))

theorem execProgram_frame (req : Requester) (s : State) {t : State} (e : execProgram req s = .next t) : Fr 0x18400081 s t := by
  have hE : Sub 0x18400081 0x18400081 := Nat.and_self _
  have h := Fr.refl 0x18400081 s
  unfold execProgram at e
  cases e
  repeat' (first | with_reducible assumption | with_reducible apply ctlOnly_frame | with_reducible apply flashCmd_frame | with_reducible apply Fr.foldl | (intro _ _ _) | (intro _ _) | with_reducible exact Sub.of (by assumption) (by decide))

theorem execErase4k_frame (req : Requester) (s : State) {t : State} (e : execErase4k req s = .next t) : Fr 0x18400081 s t := by
  have hE : Sub 0x18400081 0x18400081 := Nat.and_self _
  have h := Fr.refl 0x18400081 s
  unfold execErase4k at e
  cases e
  repeat' (first | with_reducible assumption | with_reducible apply ctlOnly_frame | with_reducible apply flashCmd_frame | with_reducible apply Fr.foldl | (intro _ _ _) | (intro _ _) | with_reducible exact Sub.of (by assumption) (by decide))

theorem execErase64k_frame (req : Requester) (s : State) {t : State} (e : execErase64k req s = .next t) : Fr 0x18400081 s t := by
  have hE : Sub 0x18400081 0x18400081 := Nat.and_self _
  have h := Fr.refl 0x18400081 s
  unfold execErase64k at e
  cases e
  repeat' (first | with_reducible assumption | with_reducible apply ctlOnly_frame | with_reducible apply flashCmd_frame | with_reducible apply Fr.foldl | (intro _ _ _) | (intro _ _) | with_reducible exact Sub.of (by assumption) (by decide))

theorem execFlashCmdComplete_frame (ok : Bool) (s : State) {t : State} (e : execFlashCmdComplete ok s = .next t) : Fr 0x8400050 s t := by
  have hE : Sub 0x8400050 0x8400050 := Nat.and_self _
  have h := Fr.refl 0x8400050 s
  unfold execFlashCmdComplete at e
  cases e
  repeat' (first | with_reducible assumption | with_reducible apply flashDone_frame | with_reducible exact Sub.of (by assumption) (by decide))

theorem execMgtFpApply_frame (s : State) {t : State} (e : execMgtFpApply s = .next t) : Fr 0x8400000 s t := by
  have hE : Sub 0x8400000 0x8400000 := Nat.and_self _
  have h := Fr.refl 0x8400000 s
  unfold execMgtFpApply at e
  cases e
  repeat' (first | with_reducible assumption | with_reducible apply fpApply_frame | with_reducible exact Sub.of (by assumption) (by decide))

theorem execCodebaseWrite_frame (req : Requester) (w : Word) (s : State) {t : State} (e : execCodebaseWrite req w s = .next t) : Fr 0x18400091 s t := by
  have hE : Sub 0x18400091 0x18400091 := Nat.and_self _
  have h := Fr.refl 0x18400091 s
  unfold execCodebaseWrite at e
  split at e
  · exact regCmd_frame (codebaseSet_frame _ h) e
  · cases e; exact ctlOnly_frame _ _ _ (fun _ hu => hu) h

theorem execSwapOk_frame (s : State) {t : State} (e : execSwapOk s = .next t) : Fr 0x88400090 s t := by
  have hE : Sub 0x88400090 0x88400090 := Nat.and_self _
  have h := Fr.refl 0x88400090 s
  unfold execSwapOk at e
  cases e
  repeat' (first | with_reducible assumption | with_reducible apply swapOk_frame | with_reducible exact Sub.of (by assumption) (by decide))

theorem execSwapTimeout_frame (s : State) {t : State} (e : execSwapTimeout s = .next t) : Fr 0x4008490090 s t := by
  have hE : Sub 0x4008490090 0x4008490090 := Nat.and_self _
  have h := Fr.refl 0x4008490090 s
  unfold execSwapTimeout at e
  cases e
  repeat' (first | with_reducible assumption | with_reducible apply swapExpire_frame | with_reducible exact Sub.of (by assumption) (by decide))

theorem execLoad_frame (slot : Nat) (placement : List Byte) (s : State) {t : State} (e : execLoad slot placement s = .next t) : Fr 0x8884120b1 s t := by
  have hE : Sub 0x8884120b1 0x8884120b1 := Nat.and_self _
  have h := Fr.refl 0x8884120b1 s
  unfold execLoad at e
  cases e
  repeat' (first | with_reducible assumption | with_reducible apply service_frame | with_reducible apply svcLoad_frame | with_reducible apply Fr.foldl | (intro _ _ _) | (intro _ _) | with_reducible exact Sub.of (by assumption) (by decide))

theorem execFwUpdate_frame (slot : Nat) (stream : List Byte) (s : State) {t : State} (e : execFwUpdate slot stream s = .next t) : Fr 0x8884020f1 s t := by
  have hE : Sub 0x8884020f1 0x8884020f1 := Nat.and_self _
  have h := Fr.refl 0x8884020f1 s
  unfold execFwUpdate at e
  cases e
  repeat' (first | with_reducible assumption | with_reducible apply service_frame | with_reducible apply fwUpdate_frame | with_reducible apply Fr.foldl | (intro _ _ _) | (intro _ _) | with_reducible exact Sub.of (by assumption) (by decide))

theorem execFwSwap_frame (slot : Nat) (s : State) {t : State} (e : execFwSwap slot s = .next t) : Fr 0x48884820b1 s t := by
  have hE : Sub 0x48884820b1 0x48884820b1 := Nat.and_self _
  have h := Fr.refl 0x48884820b1 s
  unfold execFwSwap at e
  cases e
  repeat' (first | with_reducible assumption | with_reducible apply service_frame | with_reducible apply fwSwap_frame | with_reducible apply Fr.foldl | (intro _ _ _) | (intro _ _) | with_reducible exact Sub.of (by assumption) (by decide))

theorem execFwHotfix_frame (slot : Nat) (stream : List Byte) (s : State) {t : State} (e : execFwHotfix slot stream s = .next t) : Fr 0x8884020b1 s t := by
  have hE : Sub 0x8884020b1 0x8884020b1 := Nat.and_self _
  have h := Fr.refl 0x8884020b1 s
  unfold execFwHotfix at e
  cases e
  repeat' (first | with_reducible assumption | with_reducible apply service_frame | with_reducible apply fwHotfixSvc_frame | with_reducible apply Fr.foldl | (intro _ _ _) | (intro _ _) | with_reducible exact Sub.of (by assumption) (by decide))

theorem execPatchSet_frame (slot : Nat) (s : State) {t : State} (e : execPatchSet slot s = .next t) : Fr 0x88451490 s t := by
  have hE : Sub 0x88451490 0x88451490 := Nat.and_self _
  have h := Fr.refl 0x88451490 s
  unfold execPatchSet at e
  cases e
  repeat' (first | with_reducible assumption | with_reducible apply service_frame | with_reducible apply patchSet_frame | with_reducible apply Fr.foldl | (intro _ _ _) | (intro _ _) | with_reducible exact Sub.of (by assumption) (by decide))

theorem execLogRead_frame (slot : Nat) (s : State) {t : State} (e : execLogRead slot s = .next t) : Fr 0x8084020b1 s t := by
  have hE : Sub 0x8084020b1 0x8084020b1 := Nat.and_self _
  have h := Fr.refl 0x8084020b1 s
  unfold execLogRead at e
  cases e
  repeat' (first | with_reducible assumption | with_reducible apply service_frame | with_reducible apply logRead_frame | with_reducible apply Fr.foldl | (intro _ _ _) | (intro _ _) | with_reducible exact Sub.of (by assumption) (by decide))

theorem execInfo_frame (slot : Nat) (s : State) {t : State} (e : execInfo slot s = .next t) : Fr 0x8400090 s t := by
  have hE : Sub 0x8400090 0x8400090 := Nat.and_self _
  have h := Fr.refl 0x8400090 s
  unfold execInfo at e
  cases e
  repeat' (first | with_reducible assumption | with_reducible apply service_frame | with_reducible apply svcInfo_frame | with_reducible apply Fr.foldl | (intro _ _ _) | (intro _ _) | with_reducible exact Sub.of (by assumption) (by decide))

theorem execRestore_frame (slot : Nat) (crcOk : Bool) (writeOk : Bool) (host : Option Ckpt) (s : State) {t : State} (e : execRestore slot crcOk writeOk host s = .next t) : Fr 0x24884e66b0 s t := by
  have hE : Sub 0x24884e66b0 0x24884e66b0 := Nat.and_self _
  have h := Fr.refl 0x24884e66b0 s
  unfold execRestore at e
  cases e
  repeat' (first | with_reducible assumption | with_reducible apply service_frame | with_reducible apply restore_frame | with_reducible apply Fr.foldl | (intro _ _ _) | (intro _ _) | with_reducible exact Sub.of (by assumption) (by decide))

theorem execAttest_frame (slot : Nat) (nonce : List Byte) (s : State) {t : State} (e : execAttest slot nonce s = .next t) : Fr 0x8084020b1 s t := by
  have hE : Sub 0x8084020b1 0x8084020b1 := Nat.and_self _
  have h := Fr.refl 0x8084020b1 s
  unfold execAttest at e
  cases e
  repeat' (first | with_reducible assumption | with_reducible apply service_frame | with_reducible apply attest_frame | with_reducible apply Fr.foldl | (intro _ _ _) | (intro _ _) | with_reducible exact Sub.of (by assumption) (by decide))

theorem execLoadBegin_frame (s : State) {t : State} (e : execLoadBegin s = .next t) : Fr 0x33c8cf7e90 s t := by
  have hE : Sub 0x33c8cf7e90 0x33c8cf7e90 := Nat.and_self _
  have h := Fr.refl 0x33c8cf7e90 s
  unfold execLoadBegin at e
  cases e
  repeat' (first | with_reducible assumption | with_reducible apply loadBegin_frame | with_reducible exact Sub.of (by assumption) (by decide))

theorem execFrameReceive_frame (bytes : List Byte) (readOk : Bool) (s : State) {t : State} (e : execFrameReceive bytes readOk s = .next t) : Fr 0x3dcbcf76b0 s t := by
  have hE : Sub 0x3dcbcf76b0 0x3dcbcf76b0 := Nat.and_self _
  have h := Fr.refl 0x3dcbcf76b0 s
  unfold execFrameReceive at e
  cases e
  repeat' (first | with_reducible assumption | with_reducible apply frameReceive_frame | with_reducible exact Sub.of (by assumption) (by decide))

theorem execReloadBoundaryHold_frame (s : State) {t : State} (e : execReloadBoundaryHold s = .next t) : Fr 0x10000 s t := by
  have hE : Sub 0x10000 0x10000 := Nat.and_self _
  have h := Fr.refl 0x10000 s
  unfold execReloadBoundaryHold at e
  cases e
  repeat' (first | with_reducible assumption | with_reducible apply reloadHoldBegin_frame | with_reducible exact Sub.of (by assumption) (by decide))

theorem execBootTimeout_frame (s : State) {t : State} (e : execBootTimeout s = .next t) : Fr 0x4080490090 s t := by
  have hE : Sub 0x4080490090 0x4080490090 := Nat.and_self _
  have h := Fr.refl 0x4080490090 s
  unfold execBootTimeout at e
  cases e
  repeat' (first | with_reducible assumption | with_reducible apply bootTimeout_frame | with_reducible exact Sub.of (by assumption) (by decide))

theorem execBootOk_frame (s : State) {t : State} (e : execBootOk s = .next t) : Fr 0x982403cb0 s t := by
  have hE : Sub 0x982403cb0 0x982403cb0 := Nat.and_self _
  have h := Fr.refl 0x982403cb0 s
  unfold execBootOk at e
  cases e
  repeat' (first | with_reducible assumption | with_reducible apply bootConfirm_frame | with_reducible exact Sub.of (by assumption) (by decide))

theorem execTokenLoad_frame (slot : Nat) (s : State) {t : State} (e : execTokenLoad slot s = .next t) : Fr 0x4800080 s t := by
  have hE : Sub 0x4800080 0x4800080 := Nat.and_self _
  have h := Fr.refl 0x4800080 s
  unfold execTokenLoad at e
  cases e
  repeat' (first | with_reducible assumption | with_reducible apply tokenLoad_frame | with_reducible exact Sub.of (by assumption) (by decide))

theorem execTokenUnload_frame (slot : Nat) (s : State) {t : State} (e : execTokenUnload slot s = .next t) : Fr 0x4800090 s t := by
  have hE : Sub 0x4800090 0x4800090 := Nat.and_self _
  have h := Fr.refl 0x4800090 s
  unfold execTokenUnload at e
  cases e
  repeat' (first | with_reducible assumption | with_reducible apply tokenUnload_frame | with_reducible exact Sub.of (by assumption) (by decide))

theorem execFuseProgram_frame (req : Requester) (word : Nat) (readBackOk : Bool) (s : State) {t : State} (e : execFuseProgram req word readBackOk s = .next t) : Fr 0x4800090 s t := by
  have hE : Sub 0x4800090 0x4800090 := Nat.and_self _
  have h := Fr.refl 0x4800090 s
  unfold execFuseProgram at e
  cases e
  repeat' (first | with_reducible assumption | with_reducible apply fuseProgram_frame | with_reducible exact Sub.of (by assumption) (by decide))

theorem execOppWrite_frame (code : Nat) (s : State) {t : State} (e : execOppWrite code s = .next t) : Fr 0x3000080 s t := by
  have hE : Sub 0x3000080 0x3000080 := Nat.and_self _
  have h := Fr.refl 0x3000080 s
  unfold execOppWrite at e
  cases e
  repeat' (first | with_reducible assumption | with_reducible apply oppWrite_frame | with_reducible exact Sub.of (by assumption) (by decide))

theorem execOppSettle_frame (s : State) {t : State} (e : execOppSettle s = .next t) : Fr 0x3000080 s t := by
  have hE : Sub 0x3000080 0x3000080 := Nat.and_self _
  have h := Fr.refl 0x3000080 s
  unfold execOppSettle at e
  cases e
  repeat' (first | with_reducible assumption | with_reducible apply oppSettle_frame | with_reducible exact Sub.of (by assumption) (by decide))

theorem execSscWrite_frame (on : Bool) (s : State) {t : State} (e : execSscWrite on s = .next t) : Fr 0x3000000 s t := by
  have hE : Sub 0x3000000 0x3000000 := Nat.and_self _
  have h := Fr.refl 0x3000000 s
  unfold execSscWrite at e
  cases e
  repeat' (first | with_reducible assumption | with_reducible apply sscWrite_frame | with_reducible exact Sub.of (by assumption) (by decide))

theorem execThrminWrite_frame (level : BitVec 4) (s : State) {t : State} (e : execThrminWrite level s = .next t) : Fr 0x2000081 s t := by
  have hE : Sub 0x2000081 0x2000081 := Nat.and_self _
  have h := Fr.refl 0x2000081 s
  unfold execThrminWrite at e
  cases e
  repeat' (first | with_reducible assumption | with_reducible apply thrminWrite_frame | with_reducible exact Sub.of (by assumption) (by decide))

theorem execRootPllFail_frame (kind : Nat) (s : State) {t : State} (e : execRootPllFail kind s = .next t) : Fr 0xffffffffac s t := by
  have hE : Sub 0xffffffffac 0xffffffffac := Nat.and_self _
  have h := Fr.refl 0xffffffffac s
  unfold execRootPllFail at e
  cases e
  repeat' (first | with_reducible assumption | with_reducible apply rootPllFail_frame | with_reducible exact Sub.of (by assumption) (by decide))

theorem execSwreq_frame (s : State) {t : State} (e : execSwreq s = .next t) : Fr 0x3000000 s t := by
  have hE : Sub 0x3000000 0x3000000 := Nat.and_self _
  have h := Fr.refl 0x3000000 s
  unfold execSwreq at e
  cases e
  repeat' (first | with_reducible assumption | with_reducible apply swreq_frame | with_reducible exact Sub.of (by assumption) (by decide))

theorem execSwitchoverComplete_frame (s : State) {t : State} (e : execSwitchoverComplete s = .next t) : Fr 0x3000094 s t := by
  have hE : Sub 0x3000094 0x3000094 := Nat.and_self _
  have h := Fr.refl 0x3000094 s
  unfold execSwitchoverComplete at e
  cases e
  repeat' (first | with_reducible assumption | with_reducible apply switchDone_frame | with_reducible exact Sub.of (by assumption) (by decide))

theorem execRootRetrain_frame (passed : Bool) (s : State) {t : State} (e : execRootRetrain passed s = .next t) : Fr 0x2000000 s t := by
  have hE : Sub 0x2000000 0x2000000 := Nat.and_self _
  have h := Fr.refl 0x2000000 s
  unfold execRootRetrain at e
  cases e
  repeat' (first | with_reducible assumption | with_reducible apply rootRetrain_frame | with_reducible exact Sub.of (by assumption) (by decide))

theorem execSensorSample_frame (temps : List (BitVec 16)) (s : State) {t : State} (e : execSensorSample temps s = .next t) : Fr 0x3000081 s t := by
  have hE : Sub 0x3000081 0x3000081 := Nat.and_self _
  have h := Fr.refl 0x3000081 s
  unfold execSensorSample at e
  cases e
  repeat' (first | with_reducible assumption | with_reducible apply sensorSample_frame | with_reducible exact Sub.of (by assumption) (by decide))

theorem execThrottleUpdate_frame (src : ThrottleSource) (powerW : Nat) (s : State) {t : State} (e : execThrottleUpdate src powerW s = .next t) : Fr 0x3000081 s t := by
  have hE : Sub 0x3000081 0x3000081 := Nat.and_self _
  have h := Fr.refl 0x3000081 s
  unfold execThrottleUpdate at e
  cases e
  repeat' (first | with_reducible assumption | with_reducible apply throttleStep_frame | with_reducible exact Sub.of (by assumption) (by decide))

theorem execDroopDetect_frame (monitor : Nat) (mv : Nat) (s : State) {t : State} (e : execDroopDetect monitor mv s = .next t) : Fr 0x3000081 s t := by
  have hE : Sub 0x3000081 0x3000081 := Nat.and_self _
  have h := Fr.refl 0x3000081 s
  unfold execDroopDetect at e
  cases e
  repeat' (first | with_reducible assumption | with_reducible apply droopDetect_frame | with_reducible exact Sub.of (by assumption) (by decide))

theorem execThermtrip_frame (sensor : Nat) (s : State) {t : State} (e : execThermtrip sensor s = .next t) : Fr 0xffffffffad s t := by
  have hE : Sub 0xffffffffad 0xffffffffad := Nat.and_self _
  have h := Fr.refl 0xffffffffad s
  unfold execThermtrip at e
  cases e
  repeat' (first | with_reducible assumption | with_reducible apply thermtrip_frame | with_reducible exact Sub.of (by assumption) (by decide))

theorem execPltAvs_frame (kind : Nat) (measured : Nat) (s : State) {t : State} (e : execPltAvs kind measured s = .next t) : Fr 0x3000081 s t := by
  have hE : Sub 0x3000081 0x3000081 := Nat.and_self _
  have h := Fr.refl 0x3000081 s
  unfold execPltAvs at e
  cases e
  repeat' (first | with_reducible assumption | with_reducible apply avsFail_frame | with_reducible exact Sub.of (by assumption) (by decide))

theorem execAgingCheck_frame (counts : List Word) (s : State) {t : State} (e : execAgingCheck counts s = .next t) : Fr 0x3000080 s t := by
  have hE : Sub 0x3000080 0x3000080 := Nat.and_self _
  have h := Fr.refl 0x3000080 s
  unfold execAgingCheck at e
  cases e
  repeat' (first | with_reducible assumption | with_reducible apply agingCheck_frame | with_reducible exact Sub.of (by assumption) (by decide))

theorem execPpsLoad_frame (s : State) {t : State} (e : execPpsLoad s = .next t) : Fr 0x2000000 s t := by
  have hE : Sub 0x2000000 0x2000000 := Nat.and_self _
  have h := Fr.refl 0x2000000 s
  unfold execPpsLoad at e
  cases e
  repeat' (first | with_reducible assumption | with_reducible apply State.fset_frame | with_reducible exact Sub.of (by assumption) (by decide) | with_reducible exact Sub.bit (by assumption) (by decide))

theorem execPpsEdge_frame (s : State) {t : State} (e : execPpsEdge s = .next t) : Fr 0x3000094 s t := by
  have hE : Sub 0x3000094 0x3000094 := Nat.and_self _
  have h := Fr.refl 0x3000094 s
  unfold execPpsEdge at e
  cases e
  repeat' (first | with_reducible assumption | with_reducible apply ppsEdge_frame | with_reducible exact Sub.of (by assumption) (by decide))

theorem execPpsMissing_frame (s : State) {t : State} (e : execPpsMissing s = .next t) : Fr 0x3000080 s t := by
  have hE : Sub 0x3000080 0x3000080 := Nat.and_self _
  have h := Fr.refl 0x3000080 s
  unfold execPpsMissing at e
  cases e
  repeat' (first | with_reducible assumption | with_reducible apply ppsMissing_frame | with_reducible exact Sub.of (by assumption) (by decide))

theorem execCalSchedule_frame (kind : CalKind) (s : State) {t : State} (e : execCalSchedule kind s = .next t) : Fr 0xc03004080 s t := by
  have hE : Sub 0xc03004080 0xc03004080 := Nat.and_self _
  have h := Fr.refl 0xc03004080 s
  unfold execCalSchedule at e
  cases e
  repeat' (first | with_reducible assumption | with_reducible apply calSchedule_frame | with_reducible exact Sub.of (by assumption) (by decide))

theorem execPgreqGate_frame (domain : Nat) (s : State) {t : State} (e : execPgreqGate domain s = .next t) : Fr 0x2d030664a0 s t := by
  have hE : Sub 0x2d030664a0 0x2d030664a0 := Nat.and_self _
  have h := Fr.refl 0x2d030664a0 s
  unfold execPgreqGate at e
  cases e
  repeat' (first | with_reducible assumption | with_reducible apply gateRequest_frame | with_reducible exact Sub.of (by assumption) (by decide))

theorem execPgreqPower_frame (domain : Nat) (s : State) {t : State} (e : execPgreqPower domain s = .next t) : Fr 0x2d030664a0 s t := by
  have hE : Sub 0x2d030664a0 0x2d030664a0 := Nat.and_self _
  have h := Fr.refl 0x2d030664a0 s
  unfold execPgreqPower at e
  cases e
  repeat' (first | with_reducible assumption | with_reducible apply gateRequest_frame | with_reducible exact Sub.of (by assumption) (by decide))

theorem execDomainReady_frame (domain : Nat) (s : State) {t : State} (e : execDomainReady domain s = .next t) : Fr 0xc03004080 s t := by
  have hE : Sub 0xc03004080 0xc03004080 := Nat.and_self _
  have h := Fr.refl 0xc03004080 s
  unfold execDomainReady at e
  cases e
  repeat' (first | with_reducible assumption | with_reducible apply domainReady_frame | with_reducible exact Sub.of (by assumption) (by decide))

theorem execPltRstKey_frame (req : Requester) (key : BitVec 16) (s : State) {t : State} (e : execPltRstKey req key s = .next t) : Fr 0xffffffffac s t := by
  have hE : Sub 0xffffffffac 0xffffffffac := Nat.and_self _
  have h := Fr.refl 0xffffffffac s
  unfold execPltRstKey at e
  cases e
  repeat' (first | with_reducible assumption | with_reducible apply rstKey_frame | with_reducible exact Sub.of (by assumption) (by decide))

theorem execDeviceReset_frame (cause : ResetCause) (s : State) {t : State} (e : execDeviceReset cause s = .next t) : Fr 0xffffffffac s t := by
  have hE : Sub 0xffffffffac 0xffffffffac := Nat.and_self _
  have h := Fr.refl 0xffffffffac s
  unfold execDeviceReset at e
  cases e
  repeat' (first | with_reducible assumption | with_reducible apply deviceReset_frame | with_reducible exact Sub.of (by assumption) (by decide))

theorem execRootLock_frame (s : State) {t : State} (e : execRootLock s = .next t) : Fr 0x300000c s t := by
  have hE : Sub 0x300000c 0x300000c := Nat.and_self _
  have h := Fr.refl 0x300000c s
  unfold execRootLock at e
  cases e
  repeat' (first | with_reducible assumption | with_reducible apply rootLock_frame | with_reducible exact Sub.of (by assumption) (by decide))

theorem execHbmTrainComplete_frame (stack : Nat) (s : State) {t : State} (e : execHbmTrainComplete stack s = .next t) : Fr 0x800000000 s t := by
  have hE : Sub 0x800000000 0x800000000 := Nat.and_self _
  have h := Fr.refl 0x800000000 s
  unfold execHbmTrainComplete at e
  cases e
  repeat' (first | with_reducible assumption | with_reducible apply hbmReady_frame | with_reducible exact Sub.of (by assumption) (by decide))

theorem execSmbTmax_frame (s : State) {t : State} (e : execSmbTmax s = .next t) : Fr 0x1 s t := by
  have hE : Sub 0x1 0x1 := Nat.and_self _
  have h := Fr.refl 0x1 s
  unfold execSmbTmax at e
  cases e
  repeat' (first | with_reducible assumption | with_reducible apply State.emit_frame | with_reducible exact Sub.of (by assumption) (by decide))

theorem execSmbThrottle_frame (s : State) {t : State} (e : execSmbThrottle s = .next t) : Fr 0x1 s t := by
  have hE : Sub 0x1 0x1 := Nat.and_self _
  have h := Fr.refl 0x1 s
  unfold execSmbThrottle at e
  cases e
  repeat' (first | with_reducible assumption | with_reducible apply State.emit_frame | with_reducible exact Sub.of (by assumption) (by decide))

theorem execSmbRstcause_frame (s : State) {t : State} (e : execSmbRstcause s = .next t) : Fr 0x1 s t := by
  have hE : Sub 0x1 0x1 := Nat.and_self _
  have h := Fr.refl 0x1 s
  unfold execSmbRstcause at e
  cases e
  repeat' (first | with_reducible assumption | with_reducible apply Fr.ite | with_reducible apply State.emit_frame | with_reducible exact Sub.of (by assumption) (by decide) | split)

theorem execSmbAlertStatus_frame (s : State) {t : State} (e : execSmbAlertStatus s = .next t) : Fr 0x1 s t := by
  have hE : Sub 0x1 0x1 := Nat.and_self _
  have h := Fr.refl 0x1 s
  unfold execSmbAlertStatus at e
  cases e
  repeat' (first | with_reducible assumption | with_reducible apply State.emit_frame | with_reducible exact Sub.of (by assumption) (by decide))

theorem execSmbVddStepMv_frame (s : State) {t : State} (e : execSmbVddStepMv s = .next t) : Fr 0x1 s t := by
  have hE : Sub 0x1 0x1 := Nat.and_self _
  have h := Fr.refl 0x1 s
  unfold execSmbVddStepMv at e
  cases e
  repeat' (first | with_reducible assumption | with_reducible apply State.emit_frame | with_reducible exact Sub.of (by assumption) (by decide))

theorem execSmbVddStepPower_frame (s : State) {t : State} (e : execSmbVddStepPower s = .next t) : Fr 0x1 s t := by
  have hE : Sub 0x1 0x1 := Nat.and_self _
  have h := Fr.refl 0x1 s
  unfold execSmbVddStepPower at e
  cases e
  repeat' (first | with_reducible assumption | with_reducible apply State.emit_frame | with_reducible exact Sub.of (by assumption) (by decide))

theorem execSparingDecision_frame (tr : SparingTrigger) (s : State) {t : State} (e : execSparingDecision tr s = .next t) : Fr 0xf80407cd0 s t := by
  have hE : Sub 0xf80407cd0 0xf80407cd0 := Nat.and_self _
  have h := Fr.refl 0xf80407cd0 s
  unfold execSparingDecision at e
  cases e
  repeat' (first | with_reducible assumption | with_reducible apply sparingDecision_frame | with_reducible exact Sub.of (by assumption) (by decide))

theorem execLifeRecord_frame (hours : DWord) (avg : DWord) (s : State) {t : State} (e : execLifeRecord hours avg s = .next t) : Fr 0x400050 s t := by
  have hE : Sub 0x400050 0x400050 := Nat.and_self _
  have h := Fr.refl 0x400050 s
  unfold execLifeRecord at e
  cases e
  repeat' (first | with_reducible assumption | with_reducible apply lifeRecord_frame | with_reducible exact Sub.of (by assumption) (by decide))

theorem execMbxItemRead_frame (req : Requester) (page : Nat) (item : Nat) (tag : Byte) (s : State) {t : State} (e : execMbxItemRead req page item tag s = .next t) : Fr 0xffffffffbd s t := by
  have hE : Sub 0xffffffffbd 0xffffffffbd := Nat.and_self _
  have h := Fr.refl 0xffffffffbd s
  unfold execMbxItemRead at e
  exact orFault_frame (fun u hu => regWriteCmd_frame _ _ _ _ h hu) e

theorem execMbxItemWrite_frame (req : Requester) (page : Nat) (item : Nat) (tag : Byte) (s : State) {t : State} (e : execMbxItemWrite req page item tag s = .next t) : Fr 0xffffffffbd s t := by
  have hE : Sub 0xffffffffbd 0xffffffffbd := Nat.and_self _
  have h := Fr.refl 0xffffffffbd s
  unfold execMbxItemWrite at e
  exact orFault_frame (fun u hu => regWriteCmd_frame _ _ _ _ h hu) e

theorem execBitAliasWrite_frame (req : Requester) (addr : Nat) (w : Word) (s : State) {t : State} (e : execBitAliasWrite req addr w s = .next t) : Fr 0xffffffffbd s t := by
  have hE : Sub 0xffffffffbd 0xffffffffbd := Nat.and_self _
  have h := Fr.refl 0xffffffffbd s
  unfold execBitAliasWrite at e
  split at e
  · exact orFault_frame (fun u hu => regWriteCmd_frame _ _ _ _ h hu) e
  · cases e; exact h

theorem execRegisterWrite_frame (req : Requester) (addr : Nat) (size : Nat) (w : DWord) (s : State) {t : State} (e : execRegisterWrite req addr size w s = .next t) : Fr 0xffffffffbd s t := by
  have hE : Sub 0xffffffffbd 0xffffffffbd := Nat.and_self _
  have h := Fr.refl 0xffffffffbd s
  unfold execRegisterWrite at e
  exact orFault_frame (fun u hu => regWriteCmd_frame _ _ _ _ h hu) e

theorem execRegisterRead_frame (req : Requester) (addr : Nat) (size : Nat) (s : State) {t : State} (e : execRegisterRead req addr size s = .next t) : Fr 0x10000101 s t := by
  have hE : Sub 0x10000101 0x10000101 := Nat.and_self _
  have h := Fr.refl 0x10000101 s
  unfold execRegisterRead at e
  cases e
  repeat' (first | with_reducible assumption | with_reducible apply regReadCmd_frame | with_reducible exact Sub.of (by assumption) (by decide))

theorem execHifLink_frame (speed : Nat) (width : Nat) (flit : Bool) (dlup : Bool) (s : State) {t : State} (e : execHifLink speed width flit dlup s = .next t) : Fr 0x10000080 s t := by
  have hE : Sub 0x10000080 0x10000080 := Nat.and_self _
  have h := Fr.refl 0x10000080 s
  unfold execHifLink at e
  cases e
  repeat' (first | with_reducible assumption | with_reducible apply hifLink_frame | with_reducible exact Sub.of (by assumption) (by decide))

theorem execBusMasterEnable_frame (on : Bool) (s : State) {t : State} (e : execBusMasterEnable on s = .next t) : Fr 0x200001 s t := by
  have hE : Sub 0x200001 0x200001 := Nat.and_self _
  have h := Fr.refl 0x200001 s
  unfold execBusMasterEnable at e
  cases e
  repeat' (first | with_reducible assumption | with_reducible apply busMaster_frame | with_reducible exact Sub.of (by assumption) (by decide))

theorem execStandbyRootFail_frame (kind : Nat) (s : State) {t : State} (e : execStandbyRootFail kind s = .next t) : Fr 0xffffffffac s t := by
  have hE : Sub 0xffffffffac 0xffffffffac := Nat.and_self _
  have h := Fr.refl 0xffffffffac s
  unfold execStandbyRootFail at e
  cases e
  repeat' (first | with_reducible assumption | with_reducible apply standbyFail_frame | with_reducible exact Sub.of (by assumption) (by decide))

theorem execDroopRelease_frame (s : State) {t : State} (e : execDroopRelease s = .next t) : Fr 0x3000081 s t := by
  have hE : Sub 0x3000081 0x3000081 := Nat.and_self _
  have h := Fr.refl 0x3000081 s
  unfold execDroopRelease at e
  cases e
  repeat' (first | with_reducible assumption | with_reducible apply droopRelease_frame | with_reducible exact Sub.of (by assumption) (by decide))

theorem execAvsDeviationClear_frame (s : State) {t : State} (e : execAvsDeviationClear s = .next t) : Fr 0x3000081 s t := by
  have hE : Sub 0x3000081 0x3000081 := Nat.and_self _
  have h := Fr.refl 0x3000081 s
  unfold execAvsDeviationClear at e
  cases e
  repeat' (first | with_reducible assumption | with_reducible apply avsClear_frame | with_reducible exact Sub.of (by assumption) (by decide))

theorem execPorstNRelease_frame (s : State) {t : State} (e : execPorstNRelease s = .next t) : Fr 0x81410400 s t := by
  have hE : Sub 0x81410400 0x81410400 := Nat.and_self _
  have h := Fr.refl 0x81410400 s
  unfold execPorstNRelease at e
  cases e
  repeat' (first | with_reducible assumption | with_reducible apply porstRelease_frame | with_reducible exact Sub.of (by assumption) (by decide))

theorem execMgtSramScrub_frame (addr : Nat) (ue : Bool) (s : State) {t : State} (e : execMgtSramScrub addr ue s = .next t) : Fr 0x8400090 s t := by
  have hE : Sub 0x8400090 0x8400090 := Nat.and_self _
  have h := Fr.refl 0x8400090 s
  unfold execMgtSramScrub at e
  cases e
  repeat' (first | with_reducible assumption | with_reducible apply sramScrub_frame | with_reducible exact Sub.of (by assumption) (by decide))

/-- The parts a command may change, as a mask. -/
def instrMask : Instr → Nat
  | .stepExecute _ => 0x6bc3c77eb1
  | .ellipsisEnd _ => 0x6bc3c77eb1
  | .seqLongEllipsis => 0x40000280
  | .run => 0x40840280
  | .step1 => 0x40840280
  | .ucyc1 => 0x40840280
  | .stop => 0x4200
  | .stopatEnable => 0x40000080
  | .checkpointComplete _ _ => 0x8404022a1
  | .seqTmr _ => 0x40000080
  | .dictSweepRead _ _ _ _ => 0x1004234b0
  | .dictUeRewrite _ _ => 0x400
  | .clsSpareGo _ _ => 0x100000480
  | .migrationComplete _ _ _ => 0x9c84536f1
  | .spareMarchPass _ _ => 0x400
  | .lexAccessServe _ _ => 0x8004234b0
  | .lexNocServe _ _ => 0x48105a34b1
  | .memNocStarve _ => 0x800002080
  | .memReturnArrive _ => 0x2000
  | .hbmReturn _ _ => 0x8004234b0
  | .hbmRefresh _ _ => 0x0
  | .hbmTempRead _ _ => 0x800000000
  | .memCalGo _ => 0x801000000
  | .calSliceEnd _ _ _ _ => 0x48125820a1
  | .memLretGo _ _ => 0x800002090
  | .lretComplete _ => 0x8004020c0
  | .memHretGo _ => 0x800002090
  | .hretComplete _ => 0x8004020e0
  | .fabIsoRequest _ _ => 0x200000c80
  | .fabRelRequest _ => 0x200000c80
  | .isoBoundaryApply => 0x200000c80
  | .fabAgreeCommit _ => 0x200000890
  | .readRepairWriteback _ _ _ => 0x400
  | .scrubRowRead _ _ => 0x804234b0
  | .paramCheck _ _ => 0x1080021080
  | .schParam => 0x80001080
  | .schRmapGo _ _ => 0x80001090
  | .rmapComplete _ => 0x804014d0
  | .schPatchApply => 0x80041490
  | .patchBoundaryHold => 0x1000
  | .patchHoldEnd => 0x88451490
  | .idleSuperframeSend _ => 0x4001
  | .superframeReceive _ _ _ _ => 0x6c4244e2b1
  | .retryTimeout _ => 0x4000
  | .resumeWordReceive _ _ => 0x4001
  | .fenceWordReceive _ _ _ => 0x68404462b1
  | .peerItemReceive _ _ _ => 0x40000c080
  | .laneWordReceive _ _ _ => 0x402004080
  | .msgWordReceive _ _ => 0x400004080
  | .peerRepeat _ => 0x4000
  | .lnkEnable _ => 0x400004000
  | .lnkDisable _ => 0x400004000
  | .trainComplete _ _ => 0x400004000
  | .trainTimeout _ => 0x400004000
  | .framingLock _ _ _ => 0x4000
  | .partnerModeDetect _ => 0x400004080
  | .modeRetry _ => 0x4000
  | .modeWindowClose _ => 0x3dcb4776b0
  | .identComplete _ _ _ => 0x3dcb4776b0
  | .framingLost _ => 0x4000
  | .resumeComplete _ _ => 0x400004081
  | .resumeTimeout _ => 0x400004080
  | .partnerOffReport _ => 0x400004080
  | .lnkSpareGo _ _ => 0x400004080
  | .laneLoss _ _ => 0x400004000
  | .laneSpareComplete _ _ => 0x4024040c0
  | .spareLaneTrained _ => 0x400004000
  | .spareRetrainTimer _ => 0x4000
  | .eyeScan _ _ _ _ => 0x400404080
  | .lnkDevnumStart => 0x400008000
  | .lnkTopo _ _ _ _ _ => 0x40000c080
  | .devnumWrite _ => 0x400008000
  | .rimPllUnlock _ => 0x1000020080
  | .rimPllRelock _ => 0x1000120081
  | .rimOnehot _ _ => 0x1000020080
  | .rimOutboundRead _ => 0x20001
  | .rimInboundWrite _ _ => 0x20000
  | .rimPrcFence _ => 0x1000020080
  | .rimPrcRel _ => 0x1000020080
  | .rimFrameScrub _ => 0x10000234b0
  | .rimParam => 0x1000020080
  | .rimPortRequest _ _ _ _ _ _ => 0x100001
  | .vccioGood _ _ _ => 0x1000020080
  | .vccioLost _ _ => 0x1000020080
  | .rimRel _ => 0x1000020080
  | .rimDis _ => 0x1000020080
  | .bankCheckComplete _ _ _ => 0x1000020080
  | .keySample _ _ => 0x1000020080
  | .rimIoShort _ _ _ => 0x1000020080
  | .sigStart => 0x2000040080
  | .sigStop => 0x2000040000
  | .sigPostEnd => 0x28004420b0
  | .captureDrain => 0x28004420a0
  | .capOverflow _ => 0x2000040080
  | .mtStart => 0x2000040080
  | .mtStop => 0x28004420b0
  | .tuEnable _ _ => 0x2000040080
  | .tuDisable _ => 0x2000040000
  | .tuRegWrite _ _ _ => 0x2000040080
  | .pinCrossing _ _ _ _ _ _ => 0x60010
  | .triggerFire _ _ => 0x68404462b1
  | .holdoffEnd _ => 0x40000
  | .dbgAuthPassword _ _ => 0x6d414e66b1
  | .dbgAuthKeyx _ _ => 0x6d414e66b1
  | .keyxTimeout => 0x4000080080
  | .dbgAuthDrop _ => 0x6d414e66b1
  | .dbgAccessRead => 0xffffffffbd
  | .dbgAccessWrite => 0xffffffffbd
  | .read _ _ _ _ _ => 0x4000080400
  | .deposit _ _ _ _ _ _ => 0x4000080400
  | .force _ _ _ _ _ _ => 0x4000080400
  | .release _ _ _ _ _ => 0x4000080400
  | .cqread _ _ _ _ => 0x4000080400
  | .relall _ => 0x4000080400
  | .arrDeferredStart => 0x4000080400
  | .dbgHalt _ => 0x68004462b1
  | .dbgResume _ => 0x68404462b1
  | .dbgStep _ _ => 0x6bc3c77eb1
  | .pairHalt _ _ => 0x4000400000
  | .pairHaltComplete _ _ _ _ => 0x68004462b1
  | .pairResume _ _ => 0x68004420a0
  | .pairStep _ _ _ => 0x68084462b1
  | .xtrigIn _ => 0x68004462b1
  | .testLogicReset => 0x6d414e66b1
  | .extest => 0x4000080080
  | .samplePreload => 0x4000080080
  | .idcode => 0x4000080081
  | .dbgacc _ _ _ => 0xffffffffbd
  | .bypass _ => 0x4000080080
  | .nocPacketForward _ _ _ => 0x20100081
  | .ageIncrement _ => 0x100000
  | .nocPacketReceive _ _ => 0xffffffffbd
  | .nocTimeout _ => 0x20100081
  | .nocRtFlip => 0x20000090
  | .oldEpochDrained => 0x20100091
  | .nocAgreeCommit _ => 0x20100080
  | .dlmodeSwitch _ => 0x20100001
  | .bar2Read _ _ => 0x8184020b1
  | .bar2Write _ _ => 0x8184020a1
  | .eventDoorbell _ _ => 0x10200080
  | .dmaDoorbell _ _ => 0x10200080
  | .pcieReset _ => 0x6d516e66b1
  | .dmaEnable _ _ => 0x10200000
  | .dmaDisable _ _ => 0x10200000
  | .dmaDescComplete _ _ _ => 0x8186020b1
  | .hifDmaErr _ _ _ => 0x10200080
  | .eventAccept _ => 0x6000d0
  | .eventRingWrite => 0x200001
  | .msixCoalesceExpire _ => 0x200001
  | .ringFullResignal => 0x10200001
  | .eventRingEnable _ _ => 0x10200000
  | .mgtLockstep _ _ => 0x4008490090
  | .pairRestartComplete _ => 0x40004c00f0
  | .mgtWdtEnable _ _ => 0x8000000
  | .wdtKick _ _ => 0x400000
  | .mgtWdt _ => 0x4008490091
  | .program _ => 0x18400081
  | .erase4k _ => 0x18400081
  | .erase64k _ => 0x18400081
  | .flashCmdComplete _ => 0x8400050
  | .mgtFpApply => 0x8400000
  | .codebaseWrite _ _ => 0x18400091
  | .swapOk => 0x88400090
  | .swapTimeout => 0x4008490090
  | .load _ _ => 0x8884120b1
  | .fwUpdate _ _ => 0x8884020f1
  | .fwSwap _ => 0x48884820b1
  | .fwHotfix _ _ => 0x8884020b1
  | .patchSet _ => 0x88451490
  | .logRead _ => 0x8084020b1
  | .info _ => 0x8400090
  | .restore _ _ _ _ => 0x24884e66b0
  | .attest _ _ => 0x8084020b1
  | .loadBegin => 0x33c8cf7e90
  | .frameReceive _ _ => 0x3dcbcf76b0
  | .reloadBoundaryHold => 0x10000
  | .bootTimeout => 0x4080490090
  | .bootOk => 0x982403cb0
  | .tokenLoad _ => 0x4800080
  | .tokenUnload _ => 0x4800090
  | .fuseProgram _ _ _ => 0x4800090
  | .oppWrite _ => 0x3000080
  | .oppSettle => 0x3000080
  | .sscWrite _ => 0x3000000
  | .thrminWrite _ => 0x2000081
  | .rootPllFail _ => 0xffffffffac
  | .swreq => 0x3000000
  | .switchoverComplete => 0x3000094
  | .rootRetrain _ => 0x2000000
  | .sensorSample _ => 0x3000081
  | .throttleUpdate _ _ => 0x3000081
  | .droopDetect _ _ => 0x3000081
  | .thermtrip _ => 0xffffffffad
  | .pltAvs _ _ => 0x3000081
  | .agingCheck _ => 0x3000080
  | .ppsLoad => 0x2000000
  | .ppsEdge => 0x3000094
  | .ppsMissing => 0x3000080
  | .calSchedule _ => 0xc03004080
  | .pgreqGate _ => 0x2d030664a0
  | .pgreqPower _ => 0x2d030664a0
  | .domainReady _ => 0xc03004080
  | .pltRstKey _ _ => 0xffffffffac
  | .deviceReset _ => 0xffffffffac
  | .rootLock => 0x300000c
  | .hbmTrainComplete _ => 0x800000000
  | .smbTmax => 0x1
  | .smbThrottle => 0x1
  | .smbRstcause => 0x1
  | .smbAlertStatus => 0x1
  | .smbVddStepMv => 0x1
  | .smbVddStepPower => 0x1
  | .sparingDecision _ => 0xf80407cd0
  | .lifeRecord _ _ => 0x400050
  | .mbxItemRead _ _ _ _ => 0xffffffffbd
  | .mbxItemWrite _ _ _ _ => 0xffffffffbd
  | .bitAliasWrite _ _ _ => 0xffffffffbd
  | .registerWrite _ _ _ _ => 0xffffffffbd
  | .registerRead _ _ _ => 0x10000101
  | .hifLink _ _ _ _ => 0x10000080
  | .busMasterEnable _ => 0x200001
  | .standbyRootFail _ => 0xffffffffac
  | .droopRelease => 0x3000081
  | .avsDeviationClear => 0x3000081
  | .porstNRelease => 0x81410400
  | .mgtSramScrub _ _ => 0x8400090

/-- What every command may change. -/
theorem exec_frame (i : Instr) {s t : State} (e : exec i s = .next t) : Fr (instrMask i) s t := by
  cases i with
  | stepExecute a0 => exact execStepExecute_frame a0 _ e
  | ellipsisEnd a0 => exact execEllipsisEnd_frame a0 _ e
  | seqLongEllipsis => exact execSeqLongEllipsis_frame  _ e
  | run => exact execRun_frame  _ e
  | step1 => exact execStep1_frame  _ e
  | ucyc1 => exact execUcyc1_frame  _ e
  | stop => exact execStop_frame  _ e
  | stopatEnable => exact execStopatEnable_frame  _ e
  | checkpointComplete a0 a1 => exact execCheckpointComplete_frame a0 a1 _ e
  | seqTmr a0 => exact execSeqTmr_frame a0 _ e
  | dictSweepRead a0 a1 a2 a3 => exact execDictSweepRead_frame a0 a1 a2 a3 _ e
  | dictUeRewrite a0 a1 => exact execDictUeRewrite_frame a0 a1 _ e
  | clsSpareGo a0 a1 => exact execClsSpareGo_frame a0 a1 _ e
  | migrationComplete a0 a1 a2 => exact execMigrationComplete_frame a0 a1 a2 _ e
  | spareMarchPass a0 a1 => exact execSpareMarchPass_frame a0 a1 _ e
  | lexAccessServe a0 a1 => exact execLexAccessServe_frame a0 a1 _ e
  | lexNocServe a0 a1 => exact execLexNocServe_frame a0 a1 _ e
  | memNocStarve a0 => exact execMemNocStarve_frame a0 _ e
  | memReturnArrive a0 => exact execMemReturnArrive_frame a0 _ e
  | hbmReturn a0 a1 => exact execHbmReturn_frame a0 a1 _ e
  | hbmRefresh a0 a1 => exact execHbmRefresh_frame a0 a1 _ e
  | hbmTempRead a0 a1 => exact execHbmTempRead_frame a0 a1 _ e
  | memCalGo a0 => exact execMemCalGo_frame a0 _ e
  | calSliceEnd a0 a1 a2 a3 => exact execCalSliceEnd_frame a0 a1 a2 a3 _ e
  | memLretGo a0 a1 => exact execMemLretGo_frame a0 a1 _ e
  | lretComplete a0 => exact execLretComplete_frame a0 _ e
  | memHretGo a0 => exact execMemHretGo_frame a0 _ e
  | hretComplete a0 => exact execHretComplete_frame a0 _ e
  | fabIsoRequest a0 a1 => exact execFabIsoRequest_frame a0 a1 _ e
  | fabRelRequest a0 => exact execFabRelRequest_frame a0 _ e
  | isoBoundaryApply => exact execIsoBoundaryApply_frame  _ e
  | fabAgreeCommit a0 => exact execFabAgreeCommit_frame a0 _ e
  | readRepairWriteback a0 a1 a2 => exact execReadRepairWriteback_frame a0 a1 a2 _ e
  | scrubRowRead a0 a1 => exact execScrubRowRead_frame a0 a1 _ e
  | paramCheck a0 a1 => exact execParamCheck_frame a0 a1 _ e
  | schParam => exact execSchParam_frame  _ e
  | schRmapGo a0 a1 => exact execSchRmapGo_frame a0 a1 _ e
  | rmapComplete a0 => exact execRmapComplete_frame a0 _ e
  | schPatchApply => exact execSchPatchApply_frame  _ e
  | patchBoundaryHold => exact execPatchBoundaryHold_frame  _ e
  | patchHoldEnd => exact execPatchHoldEnd_frame  _ e
  | idleSuperframeSend a0 => exact execIdleSuperframeSend_frame a0 _ e
  | superframeReceive a0 a1 a2 a3 => exact execSuperframeReceive_frame a0 a1 a2 a3 _ e
  | retryTimeout a0 => exact execRetryTimeout_frame a0 _ e
  | resumeWordReceive a0 a1 => exact execResumeWordReceive_frame a0 a1 _ e
  | fenceWordReceive a0 a1 a2 => exact execFenceWordReceive_frame a0 a1 a2 _ e
  | peerItemReceive a0 a1 a2 => exact execPeerItemReceive_frame a0 a1 a2 _ e
  | laneWordReceive a0 a1 a2 => exact execLaneWordReceive_frame a0 a1 a2 _ e
  | msgWordReceive a0 a1 => exact execMsgWordReceive_frame a0 a1 _ e
  | peerRepeat a0 => exact execPeerRepeat_frame a0 _ e
  | lnkEnable a0 => exact execLnkEnable_frame a0 _ e
  | lnkDisable a0 => exact execLnkDisable_frame a0 _ e
  | trainComplete a0 a1 => exact execTrainComplete_frame a0 a1 _ e
  | trainTimeout a0 => exact execTrainTimeout_frame a0 _ e
  | framingLock a0 a1 a2 => exact execFramingLock_frame a0 a1 a2 _ e
  | partnerModeDetect a0 => exact execPartnerModeDetect_frame a0 _ e
  | modeRetry a0 => exact execModeRetry_frame a0 _ e
  | modeWindowClose a0 => exact execModeWindowClose_frame a0 _ e
  | identComplete a0 a1 a2 => exact execIdentComplete_frame a0 a1 a2 _ e
  | framingLost a0 => exact execFramingLost_frame a0 _ e
  | resumeComplete a0 a1 => exact execResumeComplete_frame a0 a1 _ e
  | resumeTimeout a0 => exact execResumeTimeout_frame a0 _ e
  | partnerOffReport a0 => exact execPartnerOffReport_frame a0 _ e
  | lnkSpareGo a0 a1 => exact execLnkSpareGo_frame a0 a1 _ e
  | laneLoss a0 a1 => exact execLaneLoss_frame a0 a1 _ e
  | laneSpareComplete a0 a1 => exact execLaneSpareComplete_frame a0 a1 _ e
  | spareLaneTrained a0 => exact execSpareLaneTrained_frame a0 _ e
  | spareRetrainTimer a0 => exact execSpareRetrainTimer_frame a0 _ e
  | eyeScan a0 a1 a2 a3 => exact execEyeScan_frame a0 a1 a2 a3 _ e
  | lnkDevnumStart => exact execLnkDevnumStart_frame  _ e
  | lnkTopo a0 a1 a2 a3 a4 => exact execLnkTopo_frame a0 a1 a2 a3 a4 _ e
  | devnumWrite a0 => exact execDevnumWrite_frame a0 _ e
  | rimPllUnlock a0 => exact execRimPllUnlock_frame a0 _ e
  | rimPllRelock a0 => exact execRimPllRelock_frame a0 _ e
  | rimOnehot a0 a1 => exact execRimOnehot_frame a0 a1 _ e
  | rimOutboundRead a0 => exact execRimOutboundRead_frame a0 _ e
  | rimInboundWrite a0 a1 => exact execRimInboundWrite_frame a0 a1 _ e
  | rimPrcFence a0 => exact execRimPrcFence_frame a0 _ e
  | rimPrcRel a0 => exact execRimPrcRel_frame a0 _ e
  | rimFrameScrub a0 => exact execRimFrameScrub_frame a0 _ e
  | rimParam => exact execRimParam_frame  _ e
  | rimPortRequest a0 a1 a2 a3 a4 a5 => exact execRimPortRequest_frame a0 a1 a2 a3 a4 a5 _ e
  | vccioGood a0 a1 a2 => exact execVccioGood_frame a0 a1 a2 _ e
  | vccioLost a0 a1 => exact execVccioLost_frame a0 a1 _ e
  | rimRel a0 => exact execRimRel_frame a0 _ e
  | rimDis a0 => exact execRimDis_frame a0 _ e
  | bankCheckComplete a0 a1 a2 => exact execBankCheckComplete_frame a0 a1 a2 _ e
  | keySample a0 a1 => exact execKeySample_frame a0 a1 _ e
  | rimIoShort a0 a1 a2 => exact execRimIoShort_frame a0 a1 a2 _ e
  | sigStart => exact execSigStart_frame  _ e
  | sigStop => exact execSigStop_frame  _ e
  | sigPostEnd => exact execSigPostEnd_frame  _ e
  | captureDrain => exact execCaptureDrain_frame  _ e
  | capOverflow a0 => exact execCapOverflow_frame a0 _ e
  | mtStart => exact execMtStart_frame  _ e
  | mtStop => exact execMtStop_frame  _ e
  | tuEnable a0 a1 => exact execTuEnable_frame a0 a1 _ e
  | tuDisable a0 => exact execTuDisable_frame a0 _ e
  | tuRegWrite a0 a1 a2 => exact execTuRegWrite_frame a0 a1 a2 _ e
  | pinCrossing a0 a1 a2 a3 a4 a5 => exact execPinCrossing_frame a0 a1 a2 a3 a4 a5 _ e
  | triggerFire a0 a1 => exact execTriggerFire_frame a0 a1 _ e
  | holdoffEnd a0 => exact execHoldoffEnd_frame a0 _ e
  | dbgAuthPassword a0 a1 => exact execDbgAuthPassword_frame a0 a1 _ e
  | dbgAuthKeyx a0 a1 => exact execDbgAuthKeyx_frame a0 a1 _ e
  | keyxTimeout => exact execKeyxTimeout_frame  _ e
  | dbgAuthDrop a0 => exact execDbgAuthDrop_frame a0 _ e
  | dbgAccessRead => exact execDbgAccessRead_frame  _ e
  | dbgAccessWrite => exact execDbgAccessWrite_frame  _ e
  | read a0 a1 a2 a3 a4 => exact execRead_frame a0 a1 a2 a3 a4 _ e
  | deposit a0 a1 a2 a3 a4 a5 => exact execDeposit_frame a0 a1 a2 a3 a4 a5 _ e
  | force a0 a1 a2 a3 a4 a5 => exact execForce_frame a0 a1 a2 a3 a4 a5 _ e
  | release a0 a1 a2 a3 a4 => exact execRelease_frame a0 a1 a2 a3 a4 _ e
  | cqread a0 a1 a2 a3 => exact execCqread_frame a0 a1 a2 a3 _ e
  | relall a0 => exact execRelall_frame a0 _ e
  | arrDeferredStart => exact execArrDeferredStart_frame  _ e
  | dbgHalt a0 => exact execDbgHalt_frame a0 _ e
  | dbgResume a0 => exact execDbgResume_frame a0 _ e
  | dbgStep a0 a1 => exact execDbgStep_frame a0 a1 _ e
  | pairHalt a0 a1 => exact execPairHalt_frame a0 a1 _ e
  | pairHaltComplete a0 a1 a2 a3 => exact execPairHaltComplete_frame a0 a1 a2 a3 _ e
  | pairResume a0 a1 => exact execPairResume_frame a0 a1 _ e
  | pairStep a0 a1 a2 => exact execPairStep_frame a0 a1 a2 _ e
  | xtrigIn a0 => exact execXtrigIn_frame a0 _ e
  | testLogicReset => exact execTestLogicReset_frame  _ e
  | extest => exact execExtest_frame  _ e
  | samplePreload => exact execSamplePreload_frame  _ e
  | idcode => exact execIdcode_frame  _ e
  | dbgacc a0 a1 a2 => exact execDbgacc_frame a0 a1 a2 _ e
  | bypass a0 => exact execBypass_frame a0 _ e
  | nocPacketForward a0 a1 a2 => exact execNocPacketForward_frame a0 a1 a2 _ e
  | ageIncrement a0 => exact execAgeIncrement_frame a0 _ e
  | nocPacketReceive a0 a1 => exact execNocPacketReceive_frame a0 a1 _ e
  | nocTimeout a0 => exact execNocTimeout_frame a0 _ e
  | nocRtFlip => exact execNocRtFlip_frame  _ e
  | oldEpochDrained => exact execOldEpochDrained_frame  _ e
  | nocAgreeCommit a0 => exact execNocAgreeCommit_frame a0 _ e
  | dlmodeSwitch a0 => exact execDlmodeSwitch_frame a0 _ e
  | bar2Read a0 a1 => exact execBar2Read_frame a0 a1 _ e
  | bar2Write a0 a1 => exact execBar2Write_frame a0 a1 _ e
  | eventDoorbell a0 a1 => exact execEventDoorbell_frame a0 a1 _ e
  | dmaDoorbell a0 a1 => exact execDmaDoorbell_frame a0 a1 _ e
  | pcieReset a0 => exact execPcieReset_frame a0 _ e
  | dmaEnable a0 a1 => exact execDmaEnable_frame a0 a1 _ e
  | dmaDisable a0 a1 => exact execDmaDisable_frame a0 a1 _ e
  | dmaDescComplete a0 a1 a2 => exact execDmaDescComplete_frame a0 a1 a2 _ e
  | hifDmaErr a0 a1 a2 => exact execHifDmaErr_frame a0 a1 a2 _ e
  | eventAccept a0 => exact execEventAccept_frame a0 _ e
  | eventRingWrite => exact execEventRingWrite_frame  _ e
  | msixCoalesceExpire a0 => exact execMsixCoalesceExpire_frame a0 _ e
  | ringFullResignal => exact execRingFullResignal_frame  _ e
  | eventRingEnable a0 a1 => exact execEventRingEnable_frame a0 a1 _ e
  | mgtLockstep a0 a1 => exact execMgtLockstep_frame a0 a1 _ e
  | pairRestartComplete a0 => exact execPairRestartComplete_frame a0 _ e
  | mgtWdtEnable a0 a1 => exact execMgtWdtEnable_frame a0 a1 _ e
  | wdtKick a0 a1 => exact execWdtKick_frame a0 a1 _ e
  | mgtWdt a0 => exact execMgtWdt_frame a0 _ e
  | program a0 => exact execProgram_frame a0 _ e
  | erase4k a0 => exact execErase4k_frame a0 _ e
  | erase64k a0 => exact execErase64k_frame a0 _ e
  | flashCmdComplete a0 => exact execFlashCmdComplete_frame a0 _ e
  | mgtFpApply => exact execMgtFpApply_frame  _ e
  | codebaseWrite a0 a1 => exact execCodebaseWrite_frame a0 a1 _ e
  | swapOk => exact execSwapOk_frame  _ e
  | swapTimeout => exact execSwapTimeout_frame  _ e
  | load a0 a1 => exact execLoad_frame a0 a1 _ e
  | fwUpdate a0 a1 => exact execFwUpdate_frame a0 a1 _ e
  | fwSwap a0 => exact execFwSwap_frame a0 _ e
  | fwHotfix a0 a1 => exact execFwHotfix_frame a0 a1 _ e
  | patchSet a0 => exact execPatchSet_frame a0 _ e
  | logRead a0 => exact execLogRead_frame a0 _ e
  | info a0 => exact execInfo_frame a0 _ e
  | restore a0 a1 a2 a3 => exact execRestore_frame a0 a1 a2 a3 _ e
  | attest a0 a1 => exact execAttest_frame a0 a1 _ e
  | loadBegin => exact execLoadBegin_frame  _ e
  | frameReceive a0 a1 => exact execFrameReceive_frame a0 a1 _ e
  | reloadBoundaryHold => exact execReloadBoundaryHold_frame  _ e
  | bootTimeout => exact execBootTimeout_frame  _ e
  | bootOk => exact execBootOk_frame  _ e
  | tokenLoad a0 => exact execTokenLoad_frame a0 _ e
  | tokenUnload a0 => exact execTokenUnload_frame a0 _ e
  | fuseProgram a0 a1 a2 => exact execFuseProgram_frame a0 a1 a2 _ e
  | oppWrite a0 => exact execOppWrite_frame a0 _ e
  | oppSettle => exact execOppSettle_frame  _ e
  | sscWrite a0 => exact execSscWrite_frame a0 _ e
  | thrminWrite a0 => exact execThrminWrite_frame a0 _ e
  | rootPllFail a0 => exact execRootPllFail_frame a0 _ e
  | swreq => exact execSwreq_frame  _ e
  | switchoverComplete => exact execSwitchoverComplete_frame  _ e
  | rootRetrain a0 => exact execRootRetrain_frame a0 _ e
  | sensorSample a0 => exact execSensorSample_frame a0 _ e
  | throttleUpdate a0 a1 => exact execThrottleUpdate_frame a0 a1 _ e
  | droopDetect a0 a1 => exact execDroopDetect_frame a0 a1 _ e
  | thermtrip a0 => exact execThermtrip_frame a0 _ e
  | pltAvs a0 a1 => exact execPltAvs_frame a0 a1 _ e
  | agingCheck a0 => exact execAgingCheck_frame a0 _ e
  | ppsLoad => exact execPpsLoad_frame  _ e
  | ppsEdge => exact execPpsEdge_frame  _ e
  | ppsMissing => exact execPpsMissing_frame  _ e
  | calSchedule a0 => exact execCalSchedule_frame a0 _ e
  | pgreqGate a0 => exact execPgreqGate_frame a0 _ e
  | pgreqPower a0 => exact execPgreqPower_frame a0 _ e
  | domainReady a0 => exact execDomainReady_frame a0 _ e
  | pltRstKey a0 a1 => exact execPltRstKey_frame a0 a1 _ e
  | deviceReset a0 => exact execDeviceReset_frame a0 _ e
  | rootLock => exact execRootLock_frame  _ e
  | hbmTrainComplete a0 => exact execHbmTrainComplete_frame a0 _ e
  | smbTmax => exact execSmbTmax_frame  _ e
  | smbThrottle => exact execSmbThrottle_frame  _ e
  | smbRstcause => exact execSmbRstcause_frame  _ e
  | smbAlertStatus => exact execSmbAlertStatus_frame  _ e
  | smbVddStepMv => exact execSmbVddStepMv_frame  _ e
  | smbVddStepPower => exact execSmbVddStepPower_frame  _ e
  | sparingDecision a0 => exact execSparingDecision_frame a0 _ e
  | lifeRecord a0 a1 => exact execLifeRecord_frame a0 a1 _ e
  | mbxItemRead a0 a1 a2 a3 => exact execMbxItemRead_frame a0 a1 a2 a3 _ e
  | mbxItemWrite a0 a1 a2 a3 => exact execMbxItemWrite_frame a0 a1 a2 a3 _ e
  | bitAliasWrite a0 a1 a2 => exact execBitAliasWrite_frame a0 a1 a2 _ e
  | registerWrite a0 a1 a2 a3 => exact execRegisterWrite_frame a0 a1 a2 a3 _ e
  | registerRead a0 a1 a2 => exact execRegisterRead_frame a0 a1 a2 _ e
  | hifLink a0 a1 a2 a3 => exact execHifLink_frame a0 a1 a2 a3 _ e
  | busMasterEnable a0 => exact execBusMasterEnable_frame a0 _ e
  | standbyRootFail a0 => exact execStandbyRootFail_frame a0 _ e
  | droopRelease => exact execDroopRelease_frame  _ e
  | avsDeviationClear => exact execAvsDeviationClear_frame  _ e
  | porstNRelease => exact execPorstNRelease_frame  _ e
  | mgtSramScrub a0 a1 => exact execMgtSramScrub_frame a0 a1 _ e

end Sys2Proof.Machine
end

