-- ==== Sys2Proof/Laws/Counters.lean ====
section
/-! SUPPORT. Counters.lean: the counters of the sequencer through a step (R25, R26, R32): the step counter, the user-cycle counter,
the schedule depth and the counts of ellipses. -/
set_option Elab.async false
namespace Sys2Proof.Machine

/-- The counters of the sequencer stay. -/
def Ctr (s t : State) : Prop :=
  t.seq.step = s.seq.step ∧ t.seq.ucyc = s.seq.ucyc ∧ t.seq.depth = s.seq.depth ∧
    t.seq.ellTotal = s.seq.ellTotal ∧ t.seq.causeCnt = s.seq.causeCnt

theorem Ctr.refl (s : State) : Ctr s s := ⟨rfl, rfl, rfl, rfl, rfl⟩

theorem Ctr.trans {s t u : State} (h : Ctr s t) (g : Ctr t u) : Ctr s u :=
  ⟨g.1.trans h.1, g.2.1.trans h.2.1, g.2.2.1.trans h.2.2.1, g.2.2.2.1.trans h.2.2.2.1, g.2.2.2.2.trans h.2.2.2.2⟩

theorem Ctr.seq {s t u : State} (h : Ctr s t) (g : u.seq = t.seq) : Ctr s u := by
  unfold Ctr at *
  rw [g]
  exact h

theorem Ctr.foldl {s t : State} {α : Type} {f : State → α → State} {l : List α}
    (hf : ∀ (t : State) (a : α), Ctr s t → Ctr s (f t a)) (h : Ctr s t) : Ctr s (l.foldl f t) := by
  induction l generalizing t with
  | nil => exact h
  | cons a l ih => exact ih (hf t a h)

theorem upsets_ctr (ups : List Upset) {s0 t : State} (h : Ctr s0 t) : Ctr s0 (upsets ups t) :=
  h.seq ((upsets_frame _ (Fr.refl 0x23430 t) (Nat.and_self _)).h_seq rfl)

theorem isoApply_ctr {s0 t : State} (h : Ctr s0 t) : Ctr s0 (isoApply t) :=
  h.seq ((isoApply_frame  (Fr.refl 0x200000c80 t) (Nat.and_self _)).h_seq rfl)

theorem fabAgreeApply_ctr {s0 t : State} (h : Ctr s0 t) : Ctr s0 (fabAgreeApply t) :=
  h.seq ((fabAgreeApply_frame  (Fr.refl 0x200000880 t) (Nat.and_self _)).h_seq rfl)

theorem sigBegin_ctr (n : Nat) {s0 t : State} (h : Ctr s0 t) : Ctr s0 (sigBegin n t) :=
  h.seq ((sigBegin_frame _ (Fr.refl 0x2000040000 t) (Nat.and_self _)).h_seq rfl)

theorem loadReturns_ctr (n : Nat) {s0 t : State} (h : Ctr s0 t) : Ctr s0 (loadReturns n t) :=
  h.seq ((loadReturns_frame _ (Fr.refl 0x2400 t) (Nat.and_self _)).h_seq rfl)

theorem schReads_ctr (c : Nat) (n : Nat) (p : Nat) {s0 t : State} (h : Ctr s0 t) : Ctr s0 (schReads c n p t) :=
  h.seq ((schReads_frame _ _ _ (Fr.refl 0x280400480 t) (Nat.and_self _)).h_seq rfl)

theorem switchStep_ctr (n : Nat) (ups : List Upset) (txs : Kv (Kv Val)) {s0 t : State} (h : Ctr s0 t) : Ctr s0 (switchStep n ups txs t) :=
  h.seq ((switchStep_frame _ _ _ (Fr.refl 0x200404c81 t) (Nat.and_self _)).h_seq rfl)

theorem clauseApply_ctr (c : Nat) (n : Nat) (outs : List BpOut) {s0 t : State} (h : Ctr s0 t) : Ctr s0 (clauseApply c n outs t) :=
  h.seq ((clauseApply_frame _ _ _ (Fr.refl 0x100400480 t) (Nat.and_self _)).h_seq rfl)

theorem issueMgo_ctr (c : Nat) (n : Nat) (q : Nat) (write : Bool) (en : Val) {s0 t : State} (h : Ctr s0 t) : Ctr s0 (issueMgo c n q write en t) :=
  h.seq ((issueMgo_frame _ _ _ _ _ (Fr.refl 0x9004024a0 t) (Nat.and_self _)).h_seq rfl)

theorem rimEnd_ctr (n : Nat) (lanes : List (Nat × Val)) {s0 t : State} (h : Ctr s0 t) : Ctr s0 (rimEnd n lanes t) :=
  h.seq ((rimEnd_frame _ _ (Fr.refl 0x20000 t) (Nat.and_self _)).h_seq rfl)

theorem sigStep_ctr (n : Nat) (caps : List (Nat × List Val)) {s0 t : State} (h : Ctr s0 t) : Ctr s0 (sigStep n caps t) :=
  h.seq ((sigStep_frame _ _ (Fr.refl 0x2000040080 t) (Nat.and_self _)).h_seq rfl)

theorem tuLines_ctr (n : Nat) (lines : Nat) {s0 t : State} (h : Ctr s0 t) : Ctr s0 (tuLines n lines t) :=
  h.seq ((tuLines_frame _ _ (Fr.refl 0x40010 t) (Nat.and_self _)).h_seq rfl)

theorem breakStep_ctr (n : Nat) (us : List Nat) {s0 t : State} (h : Ctr s0 t) : Ctr s0 (breakStep n us t) :=
  h.seq ((breakStep_frame _ _ (Fr.refl 0x80000080 t) (Nat.and_self _)).h_seq rfl)

theorem commitClause_ctr (t1 : Nat) (c : Nat) {s0 t : State} (h : Ctr s0 t) : Ctr s0 (commitClause t1 t c) :=
  h.seq ((commitClause_frame _ _ (Fr.refl 0x100000480 t) (Nat.and_self _)).h_seq rfl)

theorem clearClause_ctr (c : Nat) {s0 t : State} (h : Ctr s0 t) : Ctr s0 (clearClause t c) :=
  h.seq ((clearClause_frame _ (Fr.refl 0x400 t) (Nat.and_self _)).h_seq rfl)

theorem sigEpoch_ctr (bit : Nat) {s0 t : State} (h : Ctr s0 t) : Ctr s0 (sigEpoch bit t) :=
  h.seq ((sigEpoch_frame _ (Fr.refl 0x40000 t) (Nat.and_self _)).h_seq rfl)

theorem latchTokens_ctr {s0 t : State} (h : Ctr s0 t) : Ctr s0 (latchTokens t) :=
  h.seq ((latchTokens_frame  (Fr.refl 0x840000 t) (Nat.and_self _)).h_seq rfl)

theorem boundaryDue_ctr {s0 t : State} (h : Ctr s0 t) : Ctr s0 (boundaryDue t) :=
  h.seq ((boundaryDue_frame  (Fr.refl 0x11800 t) (Nat.and_self _)).h_seq rfl)

theorem clockBoundary_ctr {s0 t : State} (h : Ctr s0 t) : Ctr s0 (clockBoundary t) :=
  h.seq ((clockBoundary_frame  (Fr.refl 0x3000080 t) (Nat.and_self _)).h_seq rfl)

theorem xtOutputs_ctr (ch : Nat) (fromLink : Bool) {s0 t : State} (h : Ctr s0 t) : Ctr s0 (xtOutputs ch fromLink t) :=
  h.seq ((xtOutputs_frame _ _ (Fr.refl 0x28004460b1 t) (Nat.and_self _)).h_seq rfl)

theorem sendFence_ctr (f : Nat) (dev : Nat) {s0 t : State} (h : Ctr s0 t) : Ctr s0 (sendFence f dev t) :=
  h.seq ((sendFence_frame _ _ (Fr.refl 0x4000 t) (Nat.and_self _)).h_seq rfl)

theorem State.modSig_ctr (f : SigCap → SigCap) {s0 t : State} (h : Ctr s0 t) : Ctr s0 (State.modSig t f) :=
  h.seq ((State.modSig_frame _ (Fr.refl 0x40000 t) (Nat.and_self _)).h_seq rfl)

theorem State.raise_ctr (f : Fld) (a b : Nat) (p : List Nat) {s0 t : State} (h : Ctr s0 t) : Ctr s0 (t.raise f a b p) :=
  h.seq (State.seq_raise _ _ _ _ _)

theorem adoptFence_ctr (f dev : Nat) {s0 t : State} (h : Ctr s0 t) : Ctr s0 (adoptFence f dev t) := by
  unfold adoptFence
  split
  · split
    · exact sendFence_ctr _ _ h
    · exact h
  · exact sendFence_ctr _ _ h

theorem stopRequestAt_ctr (n : Nat) {s0 t : State} (h : Ctr s0 t) : Ctr s0 (stopRequestAt n t) := adoptFence_ctr _ _ h

theorem clauseChecks_ctr (c n : Nat) (outs : List BpOut) {s0 t : State} (h : Ctr s0 t) : Ctr s0 (clauseChecks c n outs t) := by
  have hr : ∀ (f : Fld) (a b : Nat) (p : List Nat) (x y : Nat) (k : Bool) (u : State), Ctr s0 u → Ctr s0 (u.raiseAt f a b p x y k) := by
    intro f a b p x y k u hu
    unfold State.raiseAt
    dsimp only
    split <;> exact hu
  unfold clauseChecks
  dsimp only
  split
  · exact h
  · rename_i bp id stop sa _
    have h1 : Ctr s0 ((outs.filterMap fun o => o.check.map fun k => (o.bp, k)).foldl (fun s _ => s.count (F.CLS_CNT_CHECK_COUNT c)) t) :=
      Ctr.foldl (fun _ _ hu => hu) h
    split
    · have h2 := hr (F.CLS_EVT_CHECK c) (0x80 + c) 5 (w64 n ++ [bp, n % t.seq.depth, id, sa.toNat, stop.toNat,
        (outs.filterMap fun o => o.check.map fun k => (o.bp, k)).length, (t.clause c).chkDrop]) n t.ptime stop _ h1
      repeat' split
      all_goals first | exact stopRequestAt_ctr _ h2 | exact h2
    · exact h1

theorem ellipsisBegin_ctr (st : SeqState) {s0 t : State} (h : Ctr s0 t) : Ctr s0 (ellipsisBegin st t) := h

theorem seqHalt_ctr (cause : Nat) {s0 t : State} (h : Ctr s0 t) : Ctr s0 (seqHalt cause t) := by
  unfold seqHalt
  split
  · exact h
  · have h1 : Ctr s0 (stopRequest t) := stopRequestAt_ctr _ h
    refine Ctr.foldl (fun u ch hu => xtOutputs_ctr _ _ hu) ?_
    refine State.raise_ctr _ _ _ _ ?_
    split
    · exact h1
    · exact h1

theorem xtAssert_ctr (fl : Bool) (at_ : Option Nat) (ch : Nat) {s0 t : State} (h : Ctr s0 t) : Ctr s0 (xtAssert fl at_ t ch) := by
  have h1 := xtOutputs_ctr ch fl h
  unfold xtAssert
  dsimp only
  split
  · split
    · split
      · exact h1
      · exact seqHalt_ctr _ h1
    · exact seqHalt_ctr _ h1
  · exact h1

theorem xtInput_ctr (bit : Nat) {s0 t : State} (h : Ctr s0 t) : Ctr s0 (xtInput bit t) :=
  Ctr.foldl (fun _ _ hu => xtAssert_ctr _ _ _ hu) h

theorem seqStop_ctr (reason at_ dev : Nat) {s0 t : State} (h : Ctr s0 t) : Ctr s0 (seqStop reason at_ dev t) := by
  unfold seqStop
  exact xtInput_ctr _ (State.raise_ctr _ _ _ _ h)

theorem stopCheck_ctr (n : Nat) {s0 t : State} (h : Ctr s0 t) : Ctr s0 (stopCheck n t) := by
  unfold stopCheck
  repeat' split
  all_goals first | exact seqStop_ctr _ _ _ h | exact h

theorem afterStep_ctr (n : Nat) (brk : Bool) {s0 t : State} (h : Ctr s0 t) : Ctr s0 (afterStep n brk t) := by
  unfold afterStep
  lift_lets
  intro s1 s2 s3
  have h1 : Ctr s0 s1 := stopCheck_ctr n h
  have h2 : Ctr s0 s2 := by
    show Ctr s0 (if brk then seqHalt 2 s1 else s1)
    split
    · exact seqHalt_ctr _ h1
    · exact h1
  have h3 : Ctr s0 s3 := by
    clear_value s2
    show Ctr s0 (match s2.seq.haltAt with
      | some (a, cause) => if a ≤ s2.seq.step then seqHalt cause s2 else s2
      | none => s2)
    split
    · split
      · exact seqHalt_ctr _ h2
      · exact h2
    · exact h2
  clear_value s3 s2 s1
  split
  · exact h1
  · split
    · exact ellipsisBegin_ctr _ h3
    · exact h3

theorem stepBody_ctr (n : Nat) (ups : List Upset) {s0 t : State} (h : Ctr s0 t) : Ctr s0 (stepBody n ups t) := by
  have h1 := loadReturns_ctr n (sigBegin_ctr n (fabAgreeApply_ctr (isoApply_ctr (upsets_ctr ups h))))
  unfold stepBody
  dsimp only
  refine tuLines_ctr _ _ (Ctr.foldl (fun _ _ hu => clauseChecks_ctr _ _ _ hu) (sigStep_ctr _ _ (rimEnd_ctr _ _ ?_)))
  refine Ctr.foldl (fun u e hu => Ctr.foldl (fun v q hv => ?_) hu) ?_
  · split
    · exact issueMgo_ctr _ _ _ _ _ hv
    · exact hv
  · exact Ctr.foldl (fun _ _ hu => clauseApply_ctr _ _ _ hu) (switchStep_ctr _ _ _ (Ctr.foldl (fun _ _ hu => schReads_ctr _ _ _ hu) h1))

theorem ckptBegin_ctr {s0 t : State} (h : Ctr s0 t) : Ctr s0 (ckptBegin t) := by
  unfold ckptBegin
  extract_lets base q s1 s2 zero
  have h1 : Ctr s0 s1 := h
  clear_value s1 zero base
  have h2 : Ctr s0 s2 := h1.seq (by simp only [s2, State.seq_fset])
  clear_value s2
  split
  · exact h2.seq (State.seq_emit _ _)
  · split
    · exact h2.seq ((nocWrite_frame _ _ _ (Fr.refl 0x8004020a0 _) (Nat.and_self _)).h_seq rfl)
    · exact h2

theorem ckptStart_ctr {s0 t : State} (h : Ctr s0 t) : Ctr s0 (ckptStart t) := by
  unfold ckptStart
  split
  · exact ckptBegin_ctr h
  · exact h

/-- A state with other counters. -/
def State.atCounts (s : State) (n u : Nat) : State := { s with seq := { s.seq with step := n, ucyc := u } }

/-- A boundary counts one user cycle and leaves the step counter, the depth and the counts of ellipses (R27: 64 bits). -/
theorem boundary_counts (t : State) : Ctr (t.atCounts t.seq.step ((t.seq.ucyc + 1) % 2 ^ 64)) (boundary t) := by
  unfold boundary
  extract_lets s1 s2 q s3 wg s4 s5 n
  have h2 : Ctr t s2 :=
    Ctr.foldl (fun _ _ hu => clearClause_ctr _ hu) (Ctr.foldl (fun _ _ hu => commitClause_ctr _ _ hu) (Ctr.refl t))
  clear_value s2
  have h3 : Ctr (t.atCounts t.seq.step ((t.seq.ucyc + 1) % 2 ^ 64)) s3 :=
    ⟨h2.1, congrArg (fun n => (n + 1) % 2 ^ 64) h2.2.1, h2.2.2⟩
  have h4 : Ctr s3 s4 := by
    clear_value s3
    show Ctr s3 (if _ then _ else _)
    split
    · exact State.modSig_ctr _ (sigEpoch_ctr _ (Ctr.refl s3))
    · exact Ctr.refl s3
  have h5 : Ctr s3 s5 := boundaryDue_ctr (latchTokens_ctr h4)
  have h6 : Ctr s3 (if (n != 0 && s5.seq.ucyc != 0 && s5.seq.ucyc % n == 0) = true then
      ckptStart { s5 with seq := { s5.seq with ckptPend := true } } else s5) := by
    clear_value n s5
    split
    · exact ckptStart_ctr h5
    · exact h5
  exact h3.trans h6

/-- The counters after a step from a counter of n steps and u user cycles (R25 to R27). -/
theorem doStep_counts (ups : List Upset) (s : State) :
    Ctr (s.atCounts ((s.seq.step + 1) % 2 ^ 64)
      (if (s.seq.step + 1) % 2 ^ 64 % s.seq.depth = 0 then (s.seq.ucyc + 1) % 2 ^ 64 else s.seq.ucyc)) (doStep ups s) := by
  unfold doStep
  extract_lets n brk s1 q s2 s3
  have h1 : Ctr s s1 := breakStep_ctr n brk (stepBody_ctr n ups (Ctr.refl s))
  have h2 : Ctr (s.atCounts ((s.seq.step + 1) % 2 ^ 64) s.seq.ucyc) s2 := ⟨rfl, h1.2⟩
  have h3 : Ctr (s.atCounts ((s.seq.step + 1) % 2 ^ 64)
      (if (s.seq.step + 1) % 2 ^ 64 % s.seq.depth = 0 then (s.seq.ucyc + 1) % 2 ^ 64 else s.seq.ucyc)) s3 := by
    show Ctr _ (if s2.seq.step % s.seq.depth = 0 then boundary s2 else s2)
    have e2 : s2.seq.step = (s.seq.step + 1) % 2 ^ 64 := h2.1
    rw [← e2]
    rw [← e2] at h2
    clear_value s2
    split
    · have hb := boundary_counts s2
      exact ⟨hb.1, hb.2.1.trans (congrArg (fun n => (n + 1) % 2 ^ 64) h2.2.1), hb.2.2.1.trans h2.2.2.1,
        hb.2.2.2.1.trans h2.2.2.2.1, hb.2.2.2.2.trans h2.2.2.2.2⟩
    · exact ⟨rfl, h2.2⟩
  clear_value s3
  exact h3.trans (clockBoundary_ctr (afterStep_ctr _ _ (Ctr.refl s3)))

end Sys2Proof.Machine
end

