-- ==== Sys2Proof/Laws/Fields.lean ====
section
/-! SUPPORT. Fields.lean: the widths of the register fields. -/
set_option Elab.async false
namespace Sys2Proof.Machine

@[simp] theorem F.PLT_ID_INDEX_width : F.PLT_ID_INDEX.width = 8 := rfl
@[simp] theorem F.PLT_ID_INST_width : F.PLT_ID_INST.width = 8 := rfl
@[simp] theorem F.PLT_ID_VERSION_width : F.PLT_ID_VERSION.width = 4 := rfl
@[simp] theorem F.SEC_ID_INDEX_width : F.SEC_ID_INDEX.width = 8 := rfl
@[simp] theorem F.SEC_ID_INST_width : F.SEC_ID_INST.width = 8 := rfl
@[simp] theorem F.SEC_ID_VERSION_width : F.SEC_ID_VERSION.width = 4 := rfl
@[simp] theorem F.MGT_ID_INDEX_width : F.MGT_ID_INDEX.width = 8 := rfl
@[simp] theorem F.MGT_ID_INST_width : F.MGT_ID_INST.width = 8 := rfl
@[simp] theorem F.MGT_ID_VERSION_width : F.MGT_ID_VERSION.width = 4 := rfl
@[simp] theorem F.HIF_ID_INDEX_width : F.HIF_ID_INDEX.width = 8 := rfl
@[simp] theorem F.HIF_ID_INST_width : F.HIF_ID_INST.width = 8 := rfl
@[simp] theorem F.HIF_ID_VERSION_width : F.HIF_ID_VERSION.width = 4 := rfl
@[simp] theorem F.NOC_ID_INDEX_width : F.NOC_ID_INDEX.width = 8 := rfl
@[simp] theorem F.NOC_ID_INST_width : F.NOC_ID_INST.width = 8 := rfl
@[simp] theorem F.NOC_ID_VERSION_width : F.NOC_ID_VERSION.width = 4 := rfl
@[simp] theorem F.SEQ_ID_INDEX_width : F.SEQ_ID_INDEX.width = 8 := rfl
@[simp] theorem F.SEQ_ID_INST_width : F.SEQ_ID_INST.width = 8 := rfl
@[simp] theorem F.SEQ_ID_VERSION_width : F.SEQ_ID_VERSION.width = 4 := rfl
@[simp] theorem F.SCH_ID_INDEX_width : F.SCH_ID_INDEX.width = 8 := rfl
@[simp] theorem F.SCH_ID_INST_width : F.SCH_ID_INST.width = 8 := rfl
@[simp] theorem F.SCH_ID_VERSION_width : F.SCH_ID_VERSION.width = 4 := rfl
@[simp] theorem F.CLS_ID_INDEX_width : F.CLS_ID_INDEX.width = 8 := rfl
@[simp] theorem F.CLS_ID_INST_width : F.CLS_ID_INST.width = 8 := rfl
@[simp] theorem F.CLS_ID_VERSION_width : F.CLS_ID_VERSION.width = 4 := rfl
@[simp] theorem F.FAB_ID_INDEX_width : F.FAB_ID_INDEX.width = 8 := rfl
@[simp] theorem F.FAB_ID_INST_width : F.FAB_ID_INST.width = 8 := rfl
@[simp] theorem F.FAB_ID_VERSION_width : F.FAB_ID_VERSION.width = 4 := rfl
@[simp] theorem F.LNK_ID_INDEX_width : F.LNK_ID_INDEX.width = 8 := rfl
@[simp] theorem F.LNK_ID_INST_width : F.LNK_ID_INST.width = 8 := rfl
@[simp] theorem F.LNK_ID_VERSION_width : F.LNK_ID_VERSION.width = 4 := rfl
@[simp] theorem F.MEM_ID_INDEX_width : F.MEM_ID_INDEX.width = 8 := rfl
@[simp] theorem F.MEM_ID_INST_width : F.MEM_ID_INST.width = 8 := rfl
@[simp] theorem F.MEM_ID_VERSION_width : F.MEM_ID_VERSION.width = 4 := rfl
@[simp] theorem F.RIM_ID_INDEX_width : F.RIM_ID_INDEX.width = 8 := rfl
@[simp] theorem F.RIM_ID_INST_width : F.RIM_ID_INST.width = 8 := rfl
@[simp] theorem F.RIM_ID_VERSION_width : F.RIM_ID_VERSION.width = 4 := rfl
@[simp] theorem F.CAP_ID_INDEX_width : F.CAP_ID_INDEX.width = 8 := rfl
@[simp] theorem F.CAP_ID_INST_width : F.CAP_ID_INST.width = 8 := rfl
@[simp] theorem F.CAP_ID_VERSION_width : F.CAP_ID_VERSION.width = 4 := rfl
@[simp] theorem F.DBG_ID_INDEX_width : F.DBG_ID_INDEX.width = 8 := rfl
@[simp] theorem F.DBG_ID_INST_width : F.DBG_ID_INST.width = 8 := rfl
@[simp] theorem F.DBG_ID_VERSION_width : F.DBG_ID_VERSION.width = 4 := rfl
@[simp] theorem F.CLSC_ID_INDEX_width (i : Nat) : (F.CLSC_ID_INDEX i).width = 8 := rfl
@[simp] theorem F.CLSC_ID_INST_width (i : Nat) : (F.CLSC_ID_INST i).width = 8 := rfl
@[simp] theorem F.CLSC_ID_VERSION_width (i : Nat) : (F.CLSC_ID_VERSION i).width = 4 := rfl
@[simp] theorem F.LNKL_ID_INDEX_width (i : Nat) : (F.LNKL_ID_INDEX i).width = 8 := rfl
@[simp] theorem F.LNKL_ID_INST_width (i : Nat) : (F.LNKL_ID_INST i).width = 8 := rfl
@[simp] theorem F.LNKL_ID_VERSION_width (i : Nat) : (F.LNKL_ID_VERSION i).width = 4 := rfl
@[simp] theorem F.PLT_CTL_SSC_EN_width : F.PLT_CTL_SSC_EN.width = 1 := rfl
@[simp] theorem F.PLT_CTL_AUTOSW_width : F.PLT_CTL_AUTOSW.width = 1 := rfl
@[simp] theorem F.PLT_CTL_SWREQ_width : F.PLT_CTL_SWREQ.width = 1 := rfl
@[simp] theorem F.PLT_CTL_THRMIN_width : F.PLT_CTL_THRMIN.width = 4 := rfl
@[simp] theorem F.PLT_CTL_OPP_width : F.PLT_CTL_OPP.width = 2 := rfl
@[simp] theorem F.PLT_STAT_TMAX_width : F.PLT_STAT_TMAX.width = 8 := rfl
@[simp] theorem F.PLT_STAT_THR_width : F.PLT_STAT_THR.width = 4 := rfl
@[simp] theorem F.PLT_STAT_THRSRC_width : F.PLT_STAT_THRSRC.width = 4 := rfl
@[simp] theorem F.PLT_STAT_PPS_LOCK_width : F.PLT_STAT_PPS_LOCK.width = 1 := rfl
@[simp] theorem F.PLT_STAT_ROOTB_OK_width : F.PLT_STAT_ROOTB_OK.width = 1 := rfl
@[simp] theorem F.PLT_STAT_ROOTA_OK_width : F.PLT_STAT_ROOTA_OK.width = 1 := rfl
@[simp] theorem F.PLT_STAT_ROOT_width : F.PLT_STAT_ROOT.width = 1 := rfl
@[simp] theorem F.PLT_STAT_SW_BUSY_width : F.PLT_STAT_SW_BUSY.width = 1 := rfl
@[simp] theorem F.PLT_STAT_OPP_BUSY_width : F.PLT_STAT_OPP_BUSY.width = 1 := rfl
@[simp] theorem F.PLT_STAT_OPPACT_width : F.PLT_STAT_OPPACT.width = 2 := rfl
@[simp] theorem F.PLT_EVT_RESET_width : F.PLT_EVT_RESET.width = 1 := rfl
@[simp] theorem F.PLT_EVT_AVS_width : F.PLT_EVT_AVS.width = 1 := rfl
@[simp] theorem F.PLT_EVT_AGING_width : F.PLT_EVT_AGING.width = 1 := rfl
@[simp] theorem F.PLT_EVT_CAL_width : F.PLT_EVT_CAL.width = 1 := rfl
@[simp] theorem F.PLT_EVT_PPS_width : F.PLT_EVT_PPS.width = 1 := rfl
@[simp] theorem F.PLT_EVT_OPP_width : F.PLT_EVT_OPP.width = 1 := rfl
@[simp] theorem F.PLT_EVT_PGATE_width : F.PLT_EVT_PGATE.width = 1 := rfl
@[simp] theorem F.PLT_EVT_PLL_FAIL_width : F.PLT_EVT_PLL_FAIL.width = 1 := rfl
@[simp] theorem F.PLT_EVT_THERM_width : F.PLT_EVT_THERM.width = 1 := rfl
@[simp] theorem F.PLT_EVT_THROTTLE_width : F.PLT_EVT_THROTTLE.width = 1 := rfl
@[simp] theorem F.PLT_EVTEN_RESET_width : F.PLT_EVTEN_RESET.width = 1 := rfl
@[simp] theorem F.PLT_EVTEN_AVS_width : F.PLT_EVTEN_AVS.width = 1 := rfl
@[simp] theorem F.PLT_EVTEN_AGING_width : F.PLT_EVTEN_AGING.width = 1 := rfl
@[simp] theorem F.PLT_EVTEN_CAL_width : F.PLT_EVTEN_CAL.width = 1 := rfl
@[simp] theorem F.PLT_EVTEN_PPS_width : F.PLT_EVTEN_PPS.width = 1 := rfl
@[simp] theorem F.PLT_EVTEN_OPP_width : F.PLT_EVTEN_OPP.width = 1 := rfl
@[simp] theorem F.PLT_EVTEN_PGATE_width : F.PLT_EVTEN_PGATE.width = 1 := rfl
@[simp] theorem F.PLT_EVTEN_PLL_FAIL_width : F.PLT_EVTEN_PLL_FAIL.width = 1 := rfl
@[simp] theorem F.PLT_EVTEN_THERM_width : F.PLT_EVTEN_THERM.width = 1 := rfl
@[simp] theorem F.PLT_EVTEN_THROTTLE_width : F.PLT_EVTEN_THROTTLE.width = 1 := rfl
@[simp] theorem F.PLT_PGREQ_GO_width : F.PLT_PGREQ_GO.width = 1 := rfl
@[simp] theorem F.PLT_PGREQ_ON_width : F.PLT_PGREQ_ON.width = 1 := rfl
@[simp] theorem F.PLT_PGREQ_RESULT_width : F.PLT_PGREQ_RESULT.width = 8 := rfl
@[simp] theorem F.PLT_PGREQ_DOMAIN_width : F.PLT_PGREQ_DOMAIN.width = 5 := rfl
@[simp] theorem F.PLT_PGSTAT_ON_width : F.PLT_PGSTAT_ON.width = 30 := rfl
@[simp] theorem F.PLT_THR_PLIM_width : F.PLT_THR_PLIM.width = 12 := rfl
@[simp] theorem F.PLT_THR_TALERT_width : F.PLT_THR_TALERT.width = 8 := rfl
@[simp] theorem F.PLT_THR_THOT_width : F.PLT_THR_THOT.width = 8 := rfl
@[simp] theorem F.PLT_DROOP_DELTA_width : F.PLT_DROOP_DELTA.width = 8 := rfl
@[simp] theorem F.PLT_CAL_LNKMS_width : F.PLT_CAL_LNKMS.width = 16 := rfl
@[simp] theorem F.PLT_CAL_HBMMS_width : F.PLT_CAL_HBMMS.width = 16 := rfl
@[simp] theorem F.PLT_PTCTL_LOAD_width : F.PLT_PTCTL_LOAD.width = 1 := rfl
@[simp] theorem F.PLT_PTCTL_MODE_width : F.PLT_PTCTL_MODE.width = 2 := rfl
@[simp] theorem F.PLT_RST_KEY_width : F.PLT_RST_KEY.width = 16 := rfl
@[simp] theorem F.PLT_RSTCAUSE_COUNT_width : F.PLT_RSTCAUSE_COUNT.width = 8 := rfl
@[simp] theorem F.PLT_RSTCAUSE_CAUSE_width : F.PLT_RSTCAUSE_CAUSE.width = 4 := rfl
@[simp] theorem F.SEC_STAT_TOKVALID_width : F.SEC_STAT_TOKVALID.width = 16 := rfl
@[simp] theorem F.SEC_STAT_EPOCHCNT_width : F.SEC_STAT_EPOCHCNT.width = 8 := rfl
@[simp] theorem F.SEC_STAT_KEYOK_width : F.SEC_STAT_KEYOK.width = 4 := rfl
@[simp] theorem F.SEC_STAT_FUSE_BUSY_width : F.SEC_STAT_FUSE_BUSY.width = 1 := rfl
@[simp] theorem F.SEC_STAT_TOK_BUSY_width : F.SEC_STAT_TOK_BUSY.width = 1 := rfl
@[simp] theorem F.SEC_EVT_EPOCH_width : F.SEC_EVT_EPOCH.width = 1 := rfl
@[simp] theorem F.SEC_EVT_FUSE_width : F.SEC_EVT_FUSE.width = 1 := rfl
@[simp] theorem F.SEC_EVT_TOKEN_width : F.SEC_EVT_TOKEN.width = 1 := rfl
@[simp] theorem F.SEC_EVTEN_EPOCH_width : F.SEC_EVTEN_EPOCH.width = 1 := rfl
@[simp] theorem F.SEC_EVTEN_FUSE_width : F.SEC_EVTEN_FUSE.width = 1 := rfl
@[simp] theorem F.SEC_EVTEN_TOKEN_width : F.SEC_EVTEN_TOKEN.width = 1 := rfl
@[simp] theorem F.SEC_TOKCTL_LOAD_width : F.SEC_TOKCTL_LOAD.width = 1 := rfl
@[simp] theorem F.SEC_TOKCTL_UNLOAD_width : F.SEC_TOKCTL_UNLOAD.width = 1 := rfl
@[simp] theorem F.SEC_TOKCTL_RESULT_width : F.SEC_TOKCTL_RESULT.width = 8 := rfl
@[simp] theorem F.SEC_TOKCTL_SLOT_width : F.SEC_TOKCTL_SLOT.width = 4 := rfl
@[simp] theorem F.SEC_FUSEDATA_DATA_width : F.SEC_FUSEDATA_DATA.width = 32 := rfl
@[simp] theorem F.SEC_FUSEPGM_GO_width : F.SEC_FUSEPGM_GO.width = 1 := rfl
@[simp] theorem F.SEC_FUSEPGM_RESULT_width : F.SEC_FUSEPGM_RESULT.width = 8 := rfl
@[simp] theorem F.SEC_FUSEPGM_WORD_width : F.SEC_FUSEPGM_WORD.width = 7 := rfl
@[simp] theorem F.MGT_STAT_RESTARTS_width : F.MGT_STAT_RESTARTS.width = 8 := rfl
@[simp] theorem F.MGT_STAT_RCAUSE_width : F.MGT_STAT_RCAUSE.width = 2 := rfl
@[simp] theorem F.MGT_STAT_SEC_HELD_width : F.MGT_STAT_SEC_HELD.width = 1 := rfl
@[simp] theorem F.MGT_STAT_CTL_HELD_width : F.MGT_STAT_CTL_HELD.width = 1 := rfl
@[simp] theorem F.MGT_STAT_SWAP_BUSY_width : F.MGT_STAT_SWAP_BUSY.width = 1 := rfl
@[simp] theorem F.MGT_STAT_REMAP_width : F.MGT_STAT_REMAP.width = 1 := rfl
@[simp] theorem F.MGT_EVT_SRAM_UE_width : F.MGT_EVT_SRAM_UE.width = 1 := rfl
@[simp] theorem F.MGT_EVT_SVC_width : F.MGT_EVT_SVC.width = 1 := rfl
@[simp] theorem F.MGT_EVT_SWAP_width : F.MGT_EVT_SWAP.width = 1 := rfl
@[simp] theorem F.MGT_EVT_WDT_width : F.MGT_EVT_WDT.width = 1 := rfl
@[simp] theorem F.MGT_EVT_LOCKSTEP_width : F.MGT_EVT_LOCKSTEP.width = 1 := rfl
@[simp] theorem F.MGT_EVTEN_SRAM_UE_width : F.MGT_EVTEN_SRAM_UE.width = 1 := rfl
@[simp] theorem F.MGT_EVTEN_SVC_width : F.MGT_EVTEN_SVC.width = 1 := rfl
@[simp] theorem F.MGT_EVTEN_SWAP_width : F.MGT_EVTEN_SWAP.width = 1 := rfl
@[simp] theorem F.MGT_EVTEN_WDT_width : F.MGT_EVTEN_WDT.width = 1 := rfl
@[simp] theorem F.MGT_EVTEN_LOCKSTEP_width : F.MGT_EVTEN_LOCKSTEP.width = 1 := rfl
@[simp] theorem F.MGT_CODEBASE_SECBASE_width : F.MGT_CODEBASE_SECBASE.width = 24 := rfl
@[simp] theorem F.MGT_WDT_EN_width (i : Nat) : (F.MGT_WDT_EN i).width = 1 := rfl
@[simp] theorem F.MGT_WDT_TIMEOUT_width (i : Nat) : (F.MGT_WDT_TIMEOUT i).width = 24 := rfl
@[simp] theorem F.MGT_WDKICK_KEY_width (i : Nat) : (F.MGT_WDKICK_KEY i).width = 16 := rfl
@[simp] theorem F.MGT_SVC_GO_width : F.MGT_SVC_GO.width = 4 := rfl
@[simp] theorem F.MGT_FPCTL_APPLY_width : F.MGT_FPCTL_APPLY.width = 1 := rfl
@[simp] theorem F.MGT_FPCTL_RESULT_width : F.MGT_FPCTL_RESULT.width = 8 := rfl
@[simp] theorem F.MGT_SWAPCTL_OK_width : F.MGT_SWAPCTL_OK.width = 1 := rfl
@[simp] theorem F.MGT_SWAPCTL_RESULT_width : F.MGT_SWAPCTL_RESULT.width = 8 := rfl
@[simp] theorem F.MGT_FLCMD_GO_width : F.MGT_FLCMD_GO.width = 1 := rfl
@[simp] theorem F.MGT_FLCMD_OP_width : F.MGT_FLCMD_OP.width = 3 := rfl
@[simp] theorem F.MGT_FLCMD_RESULT_width : F.MGT_FLCMD_RESULT.width = 8 := rfl
@[simp] theorem F.MGT_FLADDR_ADDR_width : F.MGT_FLADDR_ADDR.width = 28 := rfl
@[simp] theorem F.MGT_FLSRC_OFF_width : F.MGT_FLSRC_OFF.width = 21 := rfl
@[simp] theorem F.MGT_FPU_EN_width (i : Nat) : (F.MGT_FPU_EN i).width = 1 := rfl
@[simp] theorem F.MGT_FPU_MODE_width (i : Nat) : (F.MGT_FPU_MODE i).width = 1 := rfl
@[simp] theorem F.MGT_FPU_LINE_width (i : Nat) : (F.MGT_FPU_LINE i).width = 21 := rfl
@[simp] theorem F.HIF_STAT_FLIT_width : F.HIF_STAT_FLIT.width = 1 := rfl
@[simp] theorem F.HIF_STAT_DLUP_width : F.HIF_STAT_DLUP.width = 1 := rfl
@[simp] theorem F.HIF_STAT_SPEED_width : F.HIF_STAT_SPEED.width = 4 := rfl
@[simp] theorem F.HIF_STAT_WIDTH_width : F.HIF_STAT_WIDTH.width = 2 := rfl
@[simp] theorem F.HIF_EVT_RESET_width : F.HIF_EVT_RESET.width = 1 := rfl
@[simp] theorem F.HIF_EVT_DBERR_width : F.HIF_EVT_DBERR.width = 1 := rfl
@[simp] theorem F.HIF_EVT_PWERR_width : F.HIF_EVT_PWERR.width = 1 := rfl
@[simp] theorem F.HIF_EVT_LINK_width : F.HIF_EVT_LINK.width = 1 := rfl
@[simp] theorem F.HIF_EVT_DMA_ERR_width : F.HIF_EVT_DMA_ERR.width = 1 := rfl
@[simp] theorem F.HIF_EVT_DMA_DONE_width : F.HIF_EVT_DMA_DONE.width = 1 := rfl
@[simp] theorem F.HIF_EVTEN_RESET_width : F.HIF_EVTEN_RESET.width = 1 := rfl
@[simp] theorem F.HIF_EVTEN_DBERR_width : F.HIF_EVTEN_DBERR.width = 1 := rfl
@[simp] theorem F.HIF_EVTEN_PWERR_width : F.HIF_EVTEN_PWERR.width = 1 := rfl
@[simp] theorem F.HIF_EVTEN_LINK_width : F.HIF_EVTEN_LINK.width = 1 := rfl
@[simp] theorem F.HIF_EVTEN_DMA_ERR_width : F.HIF_EVTEN_DMA_ERR.width = 1 := rfl
@[simp] theorem F.HIF_EVTEN_DMA_DONE_width : F.HIF_EVTEN_DMA_DONE.width = 1 := rfl
@[simp] theorem F.HIF_AWIN_EN_width (i : Nat) : (F.HIF_AWIN_EN i).width = 1 := rfl
@[simp] theorem F.HIF_AWIN_BASE_width (i : Nat) : (F.HIF_AWIN_BASE i).width = 18 := rfl
@[simp] theorem F.HIF_EVCFG_EN_width (i : Nat) : (F.HIF_EVCFG_EN i).width = 1 := rfl
@[simp] theorem F.HIF_EVCFG_VEC_width (i : Nat) : (F.HIF_EVCFG_VEC i).width = 6 := rfl
@[simp] theorem F.HIF_EVCFG_LOG2_width (i : Nat) : (F.HIF_EVCFG_LOG2 i).width = 5 := rfl
@[simp] theorem F.HIF_EVCFG_CNT_width (i : Nat) : (F.HIF_EVCFG_CNT i).width = 8 := rfl
@[simp] theorem F.HIF_EVCFG_TIME_width (i : Nat) : (F.HIF_EVCFG_TIME i).width = 12 := rfl
@[simp] theorem F.HIF_EVPROD_WRAP_width (i : Nat) : (F.HIF_EVPROD_WRAP i).width = 1 := rfl
@[simp] theorem F.HIF_EVPROD_INDEX_width (i : Nat) : (F.HIF_EVPROD_INDEX i).width = 16 := rfl
@[simp] theorem F.HIF_EVCONS_WRAP_width (i : Nat) : (F.HIF_EVCONS_WRAP i).width = 1 := rfl
@[simp] theorem F.HIF_EVCONS_INDEX_width (i : Nat) : (F.HIF_EVCONS_INDEX i).width = 16 := rfl
@[simp] theorem F.HIF_EVROUTE_RING_width : F.HIF_EVROUTE_RING.width = 12 := rfl
@[simp] theorem F.HIF_EVSTAT_HELD_width : F.HIF_EVSTAT_HELD.width = 9 := rfl
@[simp] theorem F.HIF_EVSTAT_FULL_width : F.HIF_EVSTAT_FULL.width = 4 := rfl
@[simp] theorem F.HIF_EVSTAT_WAIT_width : F.HIF_EVSTAT_WAIT.width = 4 := rfl
@[simp] theorem F.HIF_DCTL_EN_width (i : Nat) : (F.HIF_DCTL_EN i).width = 1 := rfl
@[simp] theorem F.HIF_DCTL_WB_width (i : Nat) : (F.HIF_DCTL_WB i).width = 1 := rfl
@[simp] theorem F.HIF_DCTL_VEC_width (i : Nat) : (F.HIF_DCTL_VEC i).width = 6 := rfl
@[simp] theorem F.HIF_DCTL_LOG2_width (i : Nat) : (F.HIF_DCTL_LOG2 i).width = 5 := rfl
@[simp] theorem F.HIF_DSTAT_ERR_width (i : Nat) : (F.HIF_DSTAT_ERR i).width = 8 := rfl
@[simp] theorem F.HIF_DSTAT_STATE_width (i : Nat) : (F.HIF_DSTAT_STATE i).width = 3 := rfl
@[simp] theorem F.HIF_DSTAT_HWRAP_width (i : Nat) : (F.HIF_DSTAT_HWRAP i).width = 1 := rfl
@[simp] theorem F.HIF_DSTAT_HEAD_width (i : Nat) : (F.HIF_DSTAT_HEAD i).width = 16 := rfl
@[simp] theorem F.HIF_CNT_PWERR_COUNT_width : F.HIF_CNT_PWERR_COUNT.width = 32 := rfl
@[simp] theorem F.HIF_CNT_CPLERR_COUNT_width : F.HIF_CNT_CPLERR_COUNT.width = 32 := rfl
@[simp] theorem F.HIF_CNT_DBERR_COUNT_width : F.HIF_CNT_DBERR_COUNT.width = 32 := rfl
@[simp] theorem F.HIF_CNT_EVBLK_COUNT_width : F.HIF_CNT_EVBLK_COUNT.width = 32 := rfl
@[simp] theorem F.NOC_STAT_DRAIN_HOLD_width : F.NOC_STAT_DRAIN_HOLD.width = 1 := rfl
@[simp] theorem F.NOC_STAT_OLDBUSY_width : F.NOC_STAT_OLDBUSY.width = 1 := rfl
@[simp] theorem F.NOC_STAT_EPOCH_width : F.NOC_STAT_EPOCH.width = 1 := rfl
@[simp] theorem F.NOC_STAT_MODE_WAIT_width : F.NOC_STAT_MODE_WAIT.width = 1 := rfl
@[simp] theorem F.NOC_EVT_AGREE_width : F.NOC_EVT_AGREE.width = 1 := rfl
@[simp] theorem F.NOC_EVT_RT_width : F.NOC_EVT_RT.width = 1 := rfl
@[simp] theorem F.NOC_EVT_ROUTE_width : F.NOC_EVT_ROUTE.width = 1 := rfl
@[simp] theorem F.NOC_EVT_TIMEOUT_width : F.NOC_EVT_TIMEOUT.width = 1 := rfl
@[simp] theorem F.NOC_EVT_CRC_width : F.NOC_EVT_CRC.width = 1 := rfl
@[simp] theorem F.NOC_EVT_UE_width : F.NOC_EVT_UE.width = 1 := rfl
@[simp] theorem F.NOC_EVT_CE_width : F.NOC_EVT_CE.width = 1 := rfl
@[simp] theorem F.NOC_EVTEN_AGREE_width : F.NOC_EVTEN_AGREE.width = 1 := rfl
@[simp] theorem F.NOC_EVTEN_RT_width : F.NOC_EVTEN_RT.width = 1 := rfl
@[simp] theorem F.NOC_EVTEN_ROUTE_width : F.NOC_EVTEN_ROUTE.width = 1 := rfl
@[simp] theorem F.NOC_EVTEN_TIMEOUT_width : F.NOC_EVTEN_TIMEOUT.width = 1 := rfl
@[simp] theorem F.NOC_EVTEN_CRC_width : F.NOC_EVTEN_CRC.width = 1 := rfl
@[simp] theorem F.NOC_EVTEN_UE_width : F.NOC_EVTEN_UE.width = 1 := rfl
@[simp] theorem F.NOC_EVTEN_CE_width : F.NOC_EVTEN_CE.width = 1 := rfl
@[simp] theorem F.NOC_AGREE_BUSY_width : F.NOC_AGREE_BUSY.width = 1 := rfl
@[simp] theorem F.NOC_AGREE_RESULT_width : F.NOC_AGREE_RESULT.width = 8 := rfl
@[simp] theorem F.NOC_AGREE_TAG_width : F.NOC_AGREE_TAG.width = 8 := rfl
@[simp] theorem F.NOC_MODE_DLMODE_width : F.NOC_MODE_DLMODE.width = 1 := rfl
@[simp] theorem F.NOC_MODE_PROT_width : F.NOC_MODE_PROT.width = 4 := rfl
@[simp] theorem F.NOC_MODE_PRIO_width : F.NOC_MODE_PRIO.width = 8 := rfl
@[simp] theorem F.NOC_TIME_TMO_width : F.NOC_TIME_TMO.width = 24 := rfl
@[simp] theorem F.NOC_TIME_TICK_width : F.NOC_TIME_TICK.width = 8 := rfl
@[simp] theorem F.NOC_MODEA_DLMODE_width : F.NOC_MODEA_DLMODE.width = 1 := rfl
@[simp] theorem F.NOC_MODEA_PROT_width : F.NOC_MODEA_PROT.width = 4 := rfl
@[simp] theorem F.NOC_MODEA_PRIO_width : F.NOC_MODEA_PRIO.width = 8 := rfl
@[simp] theorem F.NOC_TIMEA_TMO_width : F.NOC_TIMEA_TMO.width = 24 := rfl
@[simp] theorem F.NOC_TIMEA_TICK_width : F.NOC_TIMEA_TICK.width = 8 := rfl
@[simp] theorem F.NOC_RT_FLIP_width : F.NOC_RT_FLIP.width = 1 := rfl
@[simp] theorem F.NOC_RT_DRAIN_width : F.NOC_RT_DRAIN.width = 1 := rfl
@[simp] theorem F.NOC_RT_RESULT_width : F.NOC_RT_RESULT.width = 8 := rfl
@[simp] theorem F.NOC_RTSEL_ROUTER_width : F.NOC_RTSEL_ROUTER.width = 7 := rfl
@[simp] theorem F.NOC_OLDCNT_COUNT_width : F.NOC_OLDCNT_COUNT.width = 14 := rfl
@[simp] theorem F.NOC_RIMP_TREE_width : F.NOC_RIMP_TREE.width = 12 := rfl
@[simp] theorem F.NOC_CNT_CE_COUNT_width : F.NOC_CNT_CE_COUNT.width = 32 := rfl
@[simp] theorem F.NOC_CNT_UE_COUNT_width : F.NOC_CNT_UE_COUNT.width = 32 := rfl
@[simp] theorem F.NOC_CNT_CRC_COUNT_width : F.NOC_CNT_CRC_COUNT.width = 32 := rfl
@[simp] theorem F.NOC_CNT_TMO_COUNT_width : F.NOC_CNT_TMO_COUNT.width = 32 := rfl
@[simp] theorem F.NOC_CNT_ROUTE_COUNT_width : F.NOC_CNT_ROUTE_COUNT.width = 32 := rfl
@[simp] theorem F.NOC_CNT_LATE_COUNT_width : F.NOC_CNT_LATE_COUNT.width = 32 := rfl
@[simp] theorem F.SEQ_CTL_STOPAT_EN_width : F.SEQ_CTL_STOPAT_EN.width = 1 := rfl
@[simp] theorem F.SEQ_CTL_UCYC1_width : F.SEQ_CTL_UCYC1.width = 1 := rfl
@[simp] theorem F.SEQ_CTL_STEP1_width : F.SEQ_CTL_STEP1.width = 1 := rfl
@[simp] theorem F.SEQ_CTL_STOP_width : F.SEQ_CTL_STOP.width = 1 := rfl
@[simp] theorem F.SEQ_CTL_RUN_width : F.SEQ_CTL_RUN.width = 1 := rfl
@[simp] theorem F.SEQ_STAT_CKPT_BUSY_width : F.SEQ_STAT_CKPT_BUSY.width = 1 := rfl
@[simp] theorem F.SEQ_STAT_FENCE_PEND_width : F.SEQ_STAT_FENCE_PEND.width = 1 := rfl
@[simp] theorem F.SEQ_STAT_DEPTH_width : F.SEQ_STAT_DEPTH.width = 6 := rfl
@[simp] theorem F.SEQ_STAT_VMODE_width : F.SEQ_STAT_VMODE.width = 1 := rfl
@[simp] theorem F.SEQ_STAT_STATE_width : F.SEQ_STAT_STATE.width = 3 := rfl
@[simp] theorem F.SEQ_EVT_CMD_width : F.SEQ_EVT_CMD.width = 1 := rfl
@[simp] theorem F.SEQ_EVT_TMR_width : F.SEQ_EVT_TMR.width = 1 := rfl
@[simp] theorem F.SEQ_EVT_FENCE_SHORT_width : F.SEQ_EVT_FENCE_SHORT.width = 1 := rfl
@[simp] theorem F.SEQ_EVT_CKPT_FAIL_width : F.SEQ_EVT_CKPT_FAIL.width = 1 := rfl
@[simp] theorem F.SEQ_EVT_CKPT_DONE_width : F.SEQ_EVT_CKPT_DONE.width = 1 := rfl
@[simp] theorem F.SEQ_EVT_PEER_width : F.SEQ_EVT_PEER.width = 1 := rfl
@[simp] theorem F.SEQ_EVT_FENCE_LATE_width : F.SEQ_EVT_FENCE_LATE.width = 1 := rfl
@[simp] theorem F.SEQ_EVT_STOPPED_width : F.SEQ_EVT_STOPPED.width = 1 := rfl
@[simp] theorem F.SEQ_EVT_LONG_width : F.SEQ_EVT_LONG.width = 1 := rfl
@[simp] theorem F.SEQ_EVTEN_CMD_width : F.SEQ_EVTEN_CMD.width = 1 := rfl
@[simp] theorem F.SEQ_EVTEN_TMR_width : F.SEQ_EVTEN_TMR.width = 1 := rfl
@[simp] theorem F.SEQ_EVTEN_FENCE_SHORT_width : F.SEQ_EVTEN_FENCE_SHORT.width = 1 := rfl
@[simp] theorem F.SEQ_EVTEN_CKPT_FAIL_width : F.SEQ_EVTEN_CKPT_FAIL.width = 1 := rfl
@[simp] theorem F.SEQ_EVTEN_CKPT_DONE_width : F.SEQ_EVTEN_CKPT_DONE.width = 1 := rfl
@[simp] theorem F.SEQ_EVTEN_PEER_width : F.SEQ_EVTEN_PEER.width = 1 := rfl
@[simp] theorem F.SEQ_EVTEN_FENCE_LATE_width : F.SEQ_EVTEN_FENCE_LATE.width = 1 := rfl
@[simp] theorem F.SEQ_EVTEN_STOPPED_width : F.SEQ_EVTEN_STOPPED.width = 1 := rfl
@[simp] theorem F.SEQ_EVTEN_LONG_width : F.SEQ_EVTEN_LONG.width = 1 := rfl
@[simp] theorem F.SEQ_FENCE_DIST_width : F.SEQ_FENCE_DIST.width = 32 := rfl
@[simp] theorem F.SEQ_DIAM_DIAM_width : F.SEQ_DIAM_DIAM.width = 18 := rfl
@[simp] theorem F.SEQ_ELLIM_LIMIT_US_width : F.SEQ_ELLIM_LIMIT_US.width = 24 := rfl
@[simp] theorem F.SEQ_ELLCAUSE_NOW_width : F.SEQ_ELLCAUSE_NOW.width = 16 := rfl
@[simp] theorem F.SEQ_ELLLAST_LAST_width : F.SEQ_ELLLAST_LAST.width = 8 := rfl
@[simp] theorem F.SEQ_CKPT_INTERVAL_width : F.SEQ_CKPT_INTERVAL.width = 24 := rfl
@[simp] theorem F.SEQ_CKPT_STAT_LAST_OK_width : F.SEQ_CKPT_STAT_LAST_OK.width = 1 := rfl
@[simp] theorem F.SEQ_CKPT_STAT_LAST_SLOT_width : F.SEQ_CKPT_STAT_LAST_SLOT.width = 1 := rfl
@[simp] theorem F.SCH_STAT_RMAP_BUSY_width : F.SCH_STAT_RMAP_BUSY.width = 1 := rfl
@[simp] theorem F.SCH_STAT_PATCH_BUSY_width : F.SCH_STAT_PATCH_BUSY.width = 1 := rfl
@[simp] theorem F.SCH_EVT_DICT_MFIX_width : F.SCH_EVT_DICT_MFIX.width = 1 := rfl
@[simp] theorem F.SCH_EVT_PARAM_width : F.SCH_EVT_PARAM.width = 1 := rfl
@[simp] theorem F.SCH_EVT_BREAK_width : F.SCH_EVT_BREAK.width = 1 := rfl
@[simp] theorem F.SCH_EVT_PATCH_width : F.SCH_EVT_PATCH.width = 1 := rfl
@[simp] theorem F.SCH_EVT_RMAP_width : F.SCH_EVT_RMAP.width = 1 := rfl
@[simp] theorem F.SCH_EVT_ROW_HOT_width : F.SCH_EVT_ROW_HOT.width = 1 := rfl
@[simp] theorem F.SCH_EVT_SCRUB_UE_width : F.SCH_EVT_SCRUB_UE.width = 1 := rfl
@[simp] theorem F.SCH_EVT_UE_width : F.SCH_EVT_UE.width = 1 := rfl
@[simp] theorem F.SCH_EVT_CE_width : F.SCH_EVT_CE.width = 1 := rfl
@[simp] theorem F.SCH_EVTEN_DICT_MFIX_width : F.SCH_EVTEN_DICT_MFIX.width = 1 := rfl
@[simp] theorem F.SCH_EVTEN_PARAM_width : F.SCH_EVTEN_PARAM.width = 1 := rfl
@[simp] theorem F.SCH_EVTEN_BREAK_width : F.SCH_EVTEN_BREAK.width = 1 := rfl
@[simp] theorem F.SCH_EVTEN_PATCH_width : F.SCH_EVTEN_PATCH.width = 1 := rfl
@[simp] theorem F.SCH_EVTEN_RMAP_width : F.SCH_EVTEN_RMAP.width = 1 := rfl
@[simp] theorem F.SCH_EVTEN_ROW_HOT_width : F.SCH_EVTEN_ROW_HOT.width = 1 := rfl
@[simp] theorem F.SCH_EVTEN_SCRUB_UE_width : F.SCH_EVTEN_SCRUB_UE.width = 1 := rfl
@[simp] theorem F.SCH_EVTEN_UE_width : F.SCH_EVTEN_UE.width = 1 := rfl
@[simp] theorem F.SCH_EVTEN_CE_width : F.SCH_EVTEN_CE.width = 1 := rfl
@[simp] theorem F.SCH_SCRUB_INTERVAL_width : F.SCH_SCRUB_INTERVAL.width = 16 := rfl
@[simp] theorem F.SCH_ROWHOT_THR_width : F.SCH_ROWHOT_THR.width = 8 := rfl
@[simp] theorem F.SCH_PCHK_RELOADED_width : F.SCH_PCHK_RELOADED.width = 1 := rfl
@[simp] theorem F.SCH_RMAP_GO_width : F.SCH_RMAP_GO.width = 1 := rfl
@[simp] theorem F.SCH_RMAP_RESULT_width : F.SCH_RMAP_RESULT.width = 8 := rfl
@[simp] theorem F.SCH_RMAP_CLAUSE_width : F.SCH_RMAP_CLAUSE.width = 6 := rfl
@[simp] theorem F.SCH_RMAP_ROW_width : F.SCH_RMAP_ROW.width = 14 := rfl
@[simp] theorem F.SCH_PATCH_APPLY_width : F.SCH_PATCH_APPLY.width = 1 := rfl
@[simp] theorem F.SCH_PATCH_RESULT_width : F.SCH_PATCH_RESULT.width = 8 := rfl
@[simp] theorem F.SCH_PATCH_REASON_width : F.SCH_PATCH_REASON.width = 8 := rfl
@[simp] theorem F.SCH_PATCH_UNIT_width : F.SCH_PATCH_UNIT.width = 6 := rfl
@[simp] theorem F.SCH_CNT_CE_COUNT_width : F.SCH_CNT_CE_COUNT.width = 32 := rfl
@[simp] theorem F.SCH_CNT_UE_COUNT_width : F.SCH_CNT_UE_COUNT.width = 32 := rfl
@[simp] theorem F.SCH_CNT_SCRUB_COUNT_width : F.SCH_CNT_SCRUB_COUNT.width = 32 := rfl
@[simp] theorem F.SCH_LOAD_BUSY_width : F.SCH_LOAD_BUSY.width = 1 := rfl
@[simp] theorem F.SCH_LOAD_RESULT_width : F.SCH_LOAD_RESULT.width = 8 := rfl
@[simp] theorem F.SCH_LOAD_REASON_width : F.SCH_LOAD_REASON.width = 8 := rfl
@[simp] theorem F.SCH_LOAD_CLASS_width : F.SCH_LOAD_CLASS.width = 4 := rfl
@[simp] theorem F.SCH_BOOT_GEN_width : F.SCH_BOOT_GEN.width = 16 := rfl
@[simp] theorem F.SCH_BOOT_FAIL_width : F.SCH_BOOT_FAIL.width = 4 := rfl
@[simp] theorem F.SCH_BOOT_OK_width : F.SCH_BOOT_OK.width = 1 := rfl
@[simp] theorem F.SCH_BOOT_SRC_width : F.SCH_BOOT_SRC.width = 2 := rfl
@[simp] theorem F.SCH_LDEVT_RECOVERY_width : F.SCH_LDEVT_RECOVERY.width = 1 := rfl
@[simp] theorem F.SCH_LDEVT_GOLDEN_width : F.SCH_LDEVT_GOLDEN.width = 1 := rfl
@[simp] theorem F.SCH_LDEVT_DONE_width : F.SCH_LDEVT_DONE.width = 1 := rfl
@[simp] theorem F.SCH_LDEVT_CLASS_width : F.SCH_LDEVT_CLASS.width = 1 := rfl
@[simp] theorem F.SCH_LDEVT_GEN_width : F.SCH_LDEVT_GEN.width = 1 := rfl
@[simp] theorem F.SCH_LDEVT_FP_width : F.SCH_LDEVT_FP.width = 1 := rfl
@[simp] theorem F.SCH_LDEVT_DECRYPT_width : F.SCH_LDEVT_DECRYPT.width = 1 := rfl
@[simp] theorem F.SCH_LDEVT_DIGEST_width : F.SCH_LDEVT_DIGEST.width = 1 := rfl
@[simp] theorem F.SCH_LDEVT_SIG_width : F.SCH_LDEVT_SIG.width = 1 := rfl
@[simp] theorem F.SCH_LDEVT_HDR_width : F.SCH_LDEVT_HDR.width = 1 := rfl
@[simp] theorem F.SCH_LDEVT_FRAME_width : F.SCH_LDEVT_FRAME.width = 1 := rfl
@[simp] theorem F.SCH_LDEVT_FRAME_BAD_width : F.SCH_LDEVT_FRAME_BAD.width = 1 := rfl
@[simp] theorem F.SCH_LDEVT_LAT_width : F.SCH_LDEVT_LAT.width = 1 := rfl
@[simp] theorem F.SCH_LDEVT_PARSE_width : F.SCH_LDEVT_PARSE.width = 1 := rfl
@[simp] theorem F.SCH_LDEVTEN_RECOVERY_width : F.SCH_LDEVTEN_RECOVERY.width = 1 := rfl
@[simp] theorem F.SCH_LDEVTEN_GOLDEN_width : F.SCH_LDEVTEN_GOLDEN.width = 1 := rfl
@[simp] theorem F.SCH_LDEVTEN_DONE_width : F.SCH_LDEVTEN_DONE.width = 1 := rfl
@[simp] theorem F.SCH_LDEVTEN_CLASS_width : F.SCH_LDEVTEN_CLASS.width = 1 := rfl
@[simp] theorem F.SCH_LDEVTEN_GEN_width : F.SCH_LDEVTEN_GEN.width = 1 := rfl
@[simp] theorem F.SCH_LDEVTEN_FP_width : F.SCH_LDEVTEN_FP.width = 1 := rfl
@[simp] theorem F.SCH_LDEVTEN_DECRYPT_width : F.SCH_LDEVTEN_DECRYPT.width = 1 := rfl
@[simp] theorem F.SCH_LDEVTEN_DIGEST_width : F.SCH_LDEVTEN_DIGEST.width = 1 := rfl
@[simp] theorem F.SCH_LDEVTEN_SIG_width : F.SCH_LDEVTEN_SIG.width = 1 := rfl
@[simp] theorem F.SCH_LDEVTEN_HDR_width : F.SCH_LDEVTEN_HDR.width = 1 := rfl
@[simp] theorem F.SCH_LDEVTEN_FRAME_width : F.SCH_LDEVTEN_FRAME.width = 1 := rfl
@[simp] theorem F.SCH_LDEVTEN_FRAME_BAD_width : F.SCH_LDEVTEN_FRAME_BAD.width = 1 := rfl
@[simp] theorem F.SCH_LDEVTEN_LAT_width : F.SCH_LDEVTEN_LAT.width = 1 := rfl
@[simp] theorem F.SCH_LDEVTEN_PARSE_width : F.SCH_LDEVTEN_PARSE.width = 1 := rfl
@[simp] theorem F.SCH_PU_MODE_width (i : Nat) : (F.SCH_PU_MODE i).width = 2 := rfl
@[simp] theorem F.SCH_PU_CLAUSE_width (i : Nat) : (F.SCH_PU_CLAUSE i).width = 6 := rfl
@[simp] theorem F.SCH_PU_KIND_width (i : Nat) : (F.SCH_PU_KIND i).width = 1 := rfl
@[simp] theorem F.SCH_PU_INDEX_width (i : Nat) : (F.SCH_PU_INDEX i).width = 10 := rfl
@[simp] theorem F.SCH_PU_PHASE_width (i : Nat) : (F.SCH_PU_PHASE i).width = 11 := rfl
@[simp] theorem F.CLS_LOAD0_CLAUSES_width : F.CLS_LOAD0_CLAUSES.width = 32 := rfl
@[simp] theorem F.CLS_LOAD1_CLAUSES_width : F.CLS_LOAD1_CLAUSES.width = 32 := rfl
@[simp] theorem F.CLS_PASS0_CLAUSES_width : F.CLS_PASS0_CLAUSES.width = 32 := rfl
@[simp] theorem F.CLS_PASS1_CLAUSES_width : F.CLS_PASS1_CLAUSES.width = 32 := rfl
@[simp] theorem F.CLS_EVTSUM0_CLAUSES_width : F.CLS_EVTSUM0_CLAUSES.width = 32 := rfl
@[simp] theorem F.CLS_EVTSUM1_CLAUSES_width : F.CLS_EVTSUM1_CLAUSES.width = 32 := rfl
@[simp] theorem F.CLS_STAT_PERIM_width (i : Nat) : (F.CLS_STAT_PERIM i).width = 1 := rfl
@[simp] theorem F.CLS_STAT_SPARE_BUSY_width (i : Nat) : (F.CLS_STAT_SPARE_BUSY i).width = 1 := rfl
@[simp] theorem F.CLS_STAT_PASSED_width (i : Nat) : (F.CLS_STAT_PASSED i).width = 1 := rfl
@[simp] theorem F.CLS_STAT_LOADED_width (i : Nat) : (F.CLS_STAT_LOADED i).width = 1 := rfl
@[simp] theorem F.CLS_EVT_SPARE_width (i : Nat) : (F.CLS_EVT_SPARE i).width = 1 := rfl
@[simp] theorem F.CLS_EVT_PORT_XADDR_width (i : Nat) : (F.CLS_EVT_PORT_XADDR i).width = 1 := rfl
@[simp] theorem F.CLS_EVT_CHECK_width (i : Nat) : (F.CLS_EVT_CHECK i).width = 1 := rfl
@[simp] theorem F.CLS_EVT_CQ_PARITY_width (i : Nat) : (F.CLS_EVT_CQ_PARITY i).width = 1 := rfl
@[simp] theorem F.CLS_EVT_VS_PARITY_width (i : Nat) : (F.CLS_EVT_VS_PARITY i).width = 1 := rfl
@[simp] theorem F.CLS_EVT_DICT_UE_width (i : Nat) : (F.CLS_EVT_DICT_UE i).width = 1 := rfl
@[simp] theorem F.CLS_EVT_DICT_FIX_width (i : Nat) : (F.CLS_EVT_DICT_FIX i).width = 1 := rfl
@[simp] theorem F.CLS_EVTEN_SPARE_width (i : Nat) : (F.CLS_EVTEN_SPARE i).width = 1 := rfl
@[simp] theorem F.CLS_EVTEN_PORT_XADDR_width (i : Nat) : (F.CLS_EVTEN_PORT_XADDR i).width = 1 := rfl
@[simp] theorem F.CLS_EVTEN_CHECK_width (i : Nat) : (F.CLS_EVTEN_CHECK i).width = 1 := rfl
@[simp] theorem F.CLS_EVTEN_CQ_PARITY_width (i : Nat) : (F.CLS_EVTEN_CQ_PARITY i).width = 1 := rfl
@[simp] theorem F.CLS_EVTEN_VS_PARITY_width (i : Nat) : (F.CLS_EVTEN_VS_PARITY i).width = 1 := rfl
@[simp] theorem F.CLS_EVTEN_DICT_UE_width (i : Nat) : (F.CLS_EVTEN_DICT_UE i).width = 1 := rfl
@[simp] theorem F.CLS_EVTEN_DICT_FIX_width (i : Nat) : (F.CLS_EVTEN_DICT_FIX i).width = 1 := rfl
@[simp] theorem F.CLS_SPARE_RESULT_width (i : Nat) : (F.CLS_SPARE_RESULT i).width = 8 := rfl
@[simp] theorem F.CLS_SPARE_GO_width (i : Nat) : (F.CLS_SPARE_GO i).width = 1 := rfl
@[simp] theorem F.CLS_SPARE_TARGET_width (i : Nat) : (F.CLS_SPARE_TARGET i).width = 7 := rfl
@[simp] theorem F.CLS_PMAP_SPARED_width (i : Nat) : (F.CLS_PMAP_SPARED i).width = 1 := rfl
@[simp] theorem F.CLS_PMAP_RETIRED_width (i : Nat) : (F.CLS_PMAP_RETIRED i).width = 7 := rfl
@[simp] theorem F.CLS_CNT_DFIX_COUNT_width (i : Nat) : (F.CLS_CNT_DFIX_COUNT i).width = 32 := rfl
@[simp] theorem F.CLS_CNT_DUE_COUNT_width (i : Nat) : (F.CLS_CNT_DUE_COUNT i).width = 32 := rfl
@[simp] theorem F.CLS_CNT_VSPAR_COUNT_width (i : Nat) : (F.CLS_CNT_VSPAR_COUNT i).width = 32 := rfl
@[simp] theorem F.CLS_CNT_CQPAR_COUNT_width (i : Nat) : (F.CLS_CNT_CQPAR_COUNT i).width = 32 := rfl
@[simp] theorem F.CLS_CNT_CHECK_COUNT_width (i : Nat) : (F.CLS_CNT_CHECK_COUNT i).width = 32 := rfl
@[simp] theorem F.CLS_CNT_CHKDROP_COUNT_width (i : Nat) : (F.CLS_CNT_CHKDROP_COUNT i).width = 32 := rfl
@[simp] theorem F.CLS_PXW_COUNT_width (i q : Nat) : (F.CLS_PXW_COUNT i q).width = 32 := rfl
@[simp] theorem F.FAB_STAT_AGREE_BUSY_width : F.FAB_STAT_AGREE_BUSY.width = 1 := rfl
@[simp] theorem F.FAB_STAT_ISO_BUSY_width : F.FAB_STAT_ISO_BUSY.width = 1 := rfl
@[simp] theorem F.FAB_EVT_AGREE_width : F.FAB_EVT_AGREE.width = 1 := rfl
@[simp] theorem F.FAB_EVT_HOLD_UE_width : F.FAB_EVT_HOLD_UE.width = 1 := rfl
@[simp] theorem F.FAB_EVT_ISO_REF_width : F.FAB_EVT_ISO_REF.width = 1 := rfl
@[simp] theorem F.FAB_EVT_ISO_width : F.FAB_EVT_ISO.width = 1 := rfl
@[simp] theorem F.FAB_EVT_CONN_UE_width : F.FAB_EVT_CONN_UE.width = 1 := rfl
@[simp] theorem F.FAB_EVT_CONN_FIX_width : F.FAB_EVT_CONN_FIX.width = 1 := rfl
@[simp] theorem F.FAB_EVTEN_AGREE_width : F.FAB_EVTEN_AGREE.width = 1 := rfl
@[simp] theorem F.FAB_EVTEN_HOLD_UE_width : F.FAB_EVTEN_HOLD_UE.width = 1 := rfl
@[simp] theorem F.FAB_EVTEN_ISO_REF_width : F.FAB_EVTEN_ISO_REF.width = 1 := rfl
@[simp] theorem F.FAB_EVTEN_ISO_width : F.FAB_EVTEN_ISO.width = 1 := rfl
@[simp] theorem F.FAB_EVTEN_CONN_UE_width : F.FAB_EVTEN_CONN_UE.width = 1 := rfl
@[simp] theorem F.FAB_EVTEN_CONN_FIX_width : F.FAB_EVTEN_CONN_FIX.width = 1 := rfl
@[simp] theorem F.FAB_AGREE_BUSY_width : F.FAB_AGREE_BUSY.width = 1 := rfl
@[simp] theorem F.FAB_AGREE_RESULT_width : F.FAB_AGREE_RESULT.width = 8 := rfl
@[simp] theorem F.FAB_AGREE_TAG_width : F.FAB_AGREE_TAG.width = 8 := rfl
@[simp] theorem F.FAB_ISO_RESULT_width : F.FAB_ISO_RESULT.width = 8 := rfl
@[simp] theorem F.FAB_ISO_REL_width : F.FAB_ISO_REL.width = 1 := rfl
@[simp] theorem F.FAB_ISO_ISO_width : F.FAB_ISO_ISO.width = 1 := rfl
@[simp] theorem F.FAB_ISO_XINJ_width : F.FAB_ISO_XINJ.width = 1 := rfl
@[simp] theorem F.FAB_ISO_CLAUSE_width : F.FAB_ISO_CLAUSE.width = 6 := rfl
@[simp] theorem F.FAB_ISOMASK0_CLAUSES_width : F.FAB_ISOMASK0_CLAUSES.width = 32 := rfl
@[simp] theorem F.FAB_ISOMASK1_CLAUSES_width : F.FAB_ISOMASK1_CLAUSES.width = 32 := rfl
@[simp] theorem F.FAB_XMASK0_CLAUSES_width : F.FAB_XMASK0_CLAUSES.width = 32 := rfl
@[simp] theorem F.FAB_XMASK1_CLAUSES_width : F.FAB_XMASK1_CLAUSES.width = 32 := rfl
@[simp] theorem F.FAB_SPSEL_CONN_width : F.FAB_SPSEL_CONN.width = 8 := rfl
@[simp] theorem F.FAB_SPTX_EN_width : F.FAB_SPTX_EN.width = 1 := rfl
@[simp] theorem F.FAB_SPTX_LANE_width : F.FAB_SPTX_LANE.width = 6 := rfl
@[simp] theorem F.FAB_SPRX_EN_width : F.FAB_SPRX_EN.width = 1 := rfl
@[simp] theorem F.FAB_SPRX_LANE_width : F.FAB_SPRX_LANE.width = 6 := rfl
@[simp] theorem F.LNK_UPMASK_LINKS_width : F.LNK_UPMASK_LINKS.width = 32 := rfl
@[simp] theorem F.LNK_ACTMASK_LINKS_width : F.LNK_ACTMASK_LINKS.width = 32 := rfl
@[simp] theorem F.LNK_DEVNUM_VALID_width : F.LNK_DEVNUM_VALID.width = 1 := rfl
@[simp] theorem F.LNK_DEVNUM_ROOT_width : F.LNK_DEVNUM_ROOT.width = 1 := rfl
@[simp] theorem F.LNK_DEVNUM_START_width : F.LNK_DEVNUM_START.width = 1 := rfl
@[simp] theorem F.LNK_DEVNUM_NUM_width : F.LNK_DEVNUM_NUM.width = 18 := rfl
@[simp] theorem F.LNK_HOPS_HOPS_width : F.LNK_HOPS_HOPS.width = 18 := rfl
@[simp] theorem F.LNKG_EVT_TOPO_width : F.LNKG_EVT_TOPO.width = 1 := rfl
@[simp] theorem F.LNKG_EVTEN_TOPO_width : F.LNKG_EVTEN_TOPO.width = 1 := rfl
@[simp] theorem F.LNK_CTL_AUTOSPARE_width (i : Nat) : (F.LNK_CTL_AUTOSPARE i).width = 1 := rfl
@[simp] theorem F.LNK_CTL_MODE_width (i : Nat) : (F.LNK_CTL_MODE i).width = 1 := rfl
@[simp] theorem F.LNK_CTL_EN_width (i : Nat) : (F.LNK_CTL_EN i).width = 1 := rfl
@[simp] theorem F.LNK_STAT_SPARE_width (i : Nat) : (F.LNK_STAT_SPARE i).width = 2 := rfl
@[simp] theorem F.LNK_STAT_SPARE_OK_width (i : Nat) : (F.LNK_STAT_SPARE_OK i).width = 1 := rfl
@[simp] theorem F.LNK_STAT_SPARE_BUSY_width (i : Nat) : (F.LNK_STAT_SPARE_BUSY i).width = 1 := rfl
@[simp] theorem F.LNK_STAT_REASON_width (i : Nat) : (F.LNK_STAT_REASON i).width = 8 := rfl
@[simp] theorem F.LNK_STAT_STATE_width (i : Nat) : (F.LNK_STAT_STATE i).width = 3 := rfl
@[simp] theorem F.LNK_EVT_MSG_width (i : Nat) : (F.LNK_EVT_MSG i).width = 1 := rfl
@[simp] theorem F.LNK_EVT_RESUMED_width (i : Nat) : (F.LNK_EVT_RESUMED i).width = 1 := rfl
@[simp] theorem F.LNK_EVT_RETRY_width (i : Nat) : (F.LNK_EVT_RETRY i).width = 1 := rfl
@[simp] theorem F.LNK_EVT_EYE_LOW_width (i : Nat) : (F.LNK_EVT_EYE_LOW i).width = 1 := rfl
@[simp] theorem F.LNK_EVT_LANE_width (i : Nat) : (F.LNK_EVT_LANE i).width = 1 := rfl
@[simp] theorem F.LNK_EVT_SLOT_width (i : Nat) : (F.LNK_EVT_SLOT i).width = 1 := rfl
@[simp] theorem F.LNK_EVT_MODE_width (i : Nat) : (F.LNK_EVT_MODE i).width = 1 := rfl
@[simp] theorem F.LNK_EVT_DOWN_width (i : Nat) : (F.LNK_EVT_DOWN i).width = 1 := rfl
@[simp] theorem F.LNK_EVT_UP_width (i : Nat) : (F.LNK_EVT_UP i).width = 1 := rfl
@[simp] theorem F.LNK_EVTEN_MSG_width (i : Nat) : (F.LNK_EVTEN_MSG i).width = 1 := rfl
@[simp] theorem F.LNK_EVTEN_RESUMED_width (i : Nat) : (F.LNK_EVTEN_RESUMED i).width = 1 := rfl
@[simp] theorem F.LNK_EVTEN_RETRY_width (i : Nat) : (F.LNK_EVTEN_RETRY i).width = 1 := rfl
@[simp] theorem F.LNK_EVTEN_EYE_LOW_width (i : Nat) : (F.LNK_EVTEN_EYE_LOW i).width = 1 := rfl
@[simp] theorem F.LNK_EVTEN_LANE_width (i : Nat) : (F.LNK_EVTEN_LANE i).width = 1 := rfl
@[simp] theorem F.LNK_EVTEN_SLOT_width (i : Nat) : (F.LNK_EVTEN_SLOT i).width = 1 := rfl
@[simp] theorem F.LNK_EVTEN_MODE_width (i : Nat) : (F.LNK_EVTEN_MODE i).width = 1 := rfl
@[simp] theorem F.LNK_EVTEN_DOWN_width (i : Nat) : (F.LNK_EVTEN_DOWN i).width = 1 := rfl
@[simp] theorem F.LNK_EVTEN_UP_width (i : Nat) : (F.LNK_EVTEN_UP i).width = 1 := rfl
@[simp] theorem F.LNK_SPARE_GO_width (i : Nat) : (F.LNK_SPARE_GO i).width = 1 := rfl
@[simp] theorem F.LNK_SPARE_RESULT_width (i : Nat) : (F.LNK_SPARE_RESULT i).width = 8 := rfl
@[simp] theorem F.LNK_SPARE_LANE_width (i : Nat) : (F.LNK_SPARE_LANE i).width = 2 := rfl
@[simp] theorem F.LNK_XT_RXMASK_width (i : Nat) : (F.LNK_XT_RXMASK i).width = 4 := rfl
@[simp] theorem F.LNK_XT_TXMASK_width (i : Nat) : (F.LNK_XT_TXMASK i).width = 4 := rfl
@[simp] theorem F.LNK_EYETHR_THR_W_width (i : Nat) : (F.LNK_EYETHR_THR_W i).width = 8 := rfl
@[simp] theorem F.LNK_EYETHR_THR_H_width (i : Nat) : (F.LNK_EYETHR_THR_H i).width = 8 := rfl
@[simp] theorem F.LNK_CNT_FECC_COUNT_width (i : Nat) : (F.LNK_CNT_FECC_COUNT i).width = 32 := rfl
@[simp] theorem F.LNK_CNT_FECU_COUNT_width (i : Nat) : (F.LNK_CNT_FECU_COUNT i).width = 32 := rfl
@[simp] theorem F.LNK_CNT_CRC_COUNT_width (i : Nat) : (F.LNK_CNT_CRC_COUNT i).width = 32 := rfl
@[simp] theorem F.LNK_CNT_TAG_COUNT_width (i : Nat) : (F.LNK_CNT_TAG_COUNT i).width = 32 := rfl
@[simp] theorem F.LNK_CNT_RETRY_COUNT_width (i : Nat) : (F.LNK_CNT_RETRY_COUNT i).width = 32 := rfl
@[simp] theorem F.MEM_STAT_HRET_BUSY_width : F.MEM_STAT_HRET_BUSY.width = 1 := rfl
@[simp] theorem F.MEM_STAT_LRET_BUSY_width : F.MEM_STAT_LRET_BUSY.width = 1 := rfl
@[simp] theorem F.MEM_STAT_CAL_BUSY_width : F.MEM_STAT_CAL_BUSY.width = 4 := rfl
@[simp] theorem F.MEM_STAT_HBM_UP_width : F.MEM_STAT_HBM_UP.width = 4 := rfl
@[simp] theorem F.MEM_EVT_CAL_width : F.MEM_EVT_CAL.width = 1 := rfl
@[simp] theorem F.MEM_EVT_NOC_STARVE_width : F.MEM_EVT_NOC_STARVE.width = 1 := rfl
@[simp] theorem F.MEM_EVT_WIN_RANGE_width : F.MEM_EVT_WIN_RANGE.width = 1 := rfl
@[simp] theorem F.MEM_EVT_HRET_width : F.MEM_EVT_HRET.width = 1 := rfl
@[simp] theorem F.MEM_EVT_LRET_width : F.MEM_EVT_LRET.width = 1 := rfl
@[simp] theorem F.MEM_EVT_HOT_width : F.MEM_EVT_HOT.width = 1 := rfl
@[simp] theorem F.MEM_EVT_HBM_UE_width : F.MEM_EVT_HBM_UE.width = 1 := rfl
@[simp] theorem F.MEM_EVT_HBM_CE_width : F.MEM_EVT_HBM_CE.width = 1 := rfl
@[simp] theorem F.MEM_EVT_LEX_UE_width : F.MEM_EVT_LEX_UE.width = 1 := rfl
@[simp] theorem F.MEM_EVT_LEX_CE_width : F.MEM_EVT_LEX_CE.width = 1 := rfl
@[simp] theorem F.MEM_EVTEN_CAL_width : F.MEM_EVTEN_CAL.width = 1 := rfl
@[simp] theorem F.MEM_EVTEN_NOC_STARVE_width : F.MEM_EVTEN_NOC_STARVE.width = 1 := rfl
@[simp] theorem F.MEM_EVTEN_WIN_RANGE_width : F.MEM_EVTEN_WIN_RANGE.width = 1 := rfl
@[simp] theorem F.MEM_EVTEN_HRET_width : F.MEM_EVTEN_HRET.width = 1 := rfl
@[simp] theorem F.MEM_EVTEN_LRET_width : F.MEM_EVTEN_LRET.width = 1 := rfl
@[simp] theorem F.MEM_EVTEN_HOT_width : F.MEM_EVTEN_HOT.width = 1 := rfl
@[simp] theorem F.MEM_EVTEN_HBM_UE_width : F.MEM_EVTEN_HBM_UE.width = 1 := rfl
@[simp] theorem F.MEM_EVTEN_HBM_CE_width : F.MEM_EVTEN_HBM_CE.width = 1 := rfl
@[simp] theorem F.MEM_EVTEN_LEX_UE_width : F.MEM_EVTEN_LEX_UE.width = 1 := rfl
@[simp] theorem F.MEM_EVTEN_LEX_CE_width : F.MEM_EVTEN_LEX_CE.width = 1 := rfl
@[simp] theorem F.MEM_NOCWAIT_LIMIT_width : F.MEM_NOCWAIT_LIMIT.width = 24 := rfl
@[simp] theorem F.MEM_HSPARE_MIB_width : F.MEM_HSPARE_MIB.width = 11 := rfl
@[simp] theorem F.MEM_HOTTHR_THR_width : F.MEM_HOTTHR_THR.width = 8 := rfl
@[simp] theorem F.MEM_LRET_GO_width : F.MEM_LRET_GO.width = 1 := rfl
@[simp] theorem F.MEM_LRET_RESULT_width : F.MEM_LRET_RESULT.width = 8 := rfl
@[simp] theorem F.MEM_LRET_BANK_width : F.MEM_LRET_BANK.width = 8 := rfl
@[simp] theorem F.MEM_LRET_WORD_width : F.MEM_LRET_WORD.width = 13 := rfl
@[simp] theorem F.MEM_HRET_GO_width : F.MEM_HRET_GO.width = 1 := rfl
@[simp] theorem F.MEM_HRET_RESULT_width : F.MEM_HRET_RESULT.width = 8 := rfl
@[simp] theorem F.MEM_HRET_STACK_width : F.MEM_HRET_STACK.width = 2 := rfl
@[simp] theorem F.MEM_HRETPG_PAGE_width : F.MEM_HRETPG_PAGE.width = 23 := rfl
@[simp] theorem F.MEM_CAL_GO_width : F.MEM_CAL_GO.width = 4 := rfl
@[simp] theorem F.MEM_HTEMP_T3_width : F.MEM_HTEMP_T3.width = 8 := rfl
@[simp] theorem F.MEM_HTEMP_T2_width : F.MEM_HTEMP_T2.width = 8 := rfl
@[simp] theorem F.MEM_HTEMP_T1_width : F.MEM_HTEMP_T1.width = 8 := rfl
@[simp] theorem F.MEM_HTEMP_T0_width : F.MEM_HTEMP_T0.width = 8 := rfl
@[simp] theorem F.MEM_CNT_LCE_COUNT_width : F.MEM_CNT_LCE_COUNT.width = 32 := rfl
@[simp] theorem F.MEM_CNT_LUE_COUNT_width : F.MEM_CNT_LUE_COUNT.width = 32 := rfl
@[simp] theorem F.MEM_CNT_HCE_COUNT_width : F.MEM_CNT_HCE_COUNT.width = 32 := rfl
@[simp] theorem F.MEM_CNT_HUE_COUNT_width : F.MEM_CNT_HUE_COUNT.width = 32 := rfl
@[simp] theorem F.MEM_CNT_WIN_COUNT_width : F.MEM_CNT_WIN_COUNT.width = 32 := rfl
@[simp] theorem F.RIM_STAT_TREE_ON_width : F.RIM_STAT_TREE_ON.width = 8 := rfl
@[simp] theorem F.RIM_STAT_PLL_LOCK_width : F.RIM_STAT_PLL_LOCK.width = 4 := rfl
@[simp] theorem F.RIM_STAT_BASE_width : F.RIM_STAT_BASE.width = 1 := rfl
@[simp] theorem F.RIM_EVT_IO_width : F.RIM_EVT_IO.width = 16 := rfl
@[simp] theorem F.RIM_EVT_SAFE_width : F.RIM_EVT_SAFE.width = 1 := rfl
@[simp] theorem F.RIM_EVT_PLL_width : F.RIM_EVT_PLL.width = 1 := rfl
@[simp] theorem F.RIM_EVT_PR_width : F.RIM_EVT_PR.width = 1 := rfl
@[simp] theorem F.RIM_EVT_PARAM_width : F.RIM_EVT_PARAM.width = 1 := rfl
@[simp] theorem F.RIM_EVT_ONEHOT_width : F.RIM_EVT_ONEHOT.width = 1 := rfl
@[simp] theorem F.RIM_EVT_FRAME_UE_width : F.RIM_EVT_FRAME_UE.width = 1 := rfl
@[simp] theorem F.RIM_EVT_FRAME_FIX_width : F.RIM_EVT_FRAME_FIX.width = 1 := rfl
@[simp] theorem F.RIM_EVTEN_IO_width : F.RIM_EVTEN_IO.width = 16 := rfl
@[simp] theorem F.RIM_EVTEN_SAFE_width : F.RIM_EVTEN_SAFE.width = 1 := rfl
@[simp] theorem F.RIM_EVTEN_PLL_width : F.RIM_EVTEN_PLL.width = 1 := rfl
@[simp] theorem F.RIM_EVTEN_PR_width : F.RIM_EVTEN_PR.width = 1 := rfl
@[simp] theorem F.RIM_EVTEN_PARAM_width : F.RIM_EVTEN_PARAM.width = 1 := rfl
@[simp] theorem F.RIM_EVTEN_ONEHOT_width : F.RIM_EVTEN_ONEHOT.width = 1 := rfl
@[simp] theorem F.RIM_EVTEN_FRAME_UE_width : F.RIM_EVTEN_FRAME_UE.width = 1 := rfl
@[simp] theorem F.RIM_EVTEN_FRAME_FIX_width : F.RIM_EVTEN_FRAME_FIX.width = 1 := rfl
@[simp] theorem F.RIM_SCRUB_INTERVAL_width : F.RIM_SCRUB_INTERVAL.width = 16 := rfl
@[simp] theorem F.RIM_PCHK_RELOADED_width : F.RIM_PCHK_RELOADED.width = 1 := rfl
@[simp] theorem F.RIM_SLCFG_OUT_EN_width : F.RIM_SLCFG_OUT_EN.width = 16 := rfl
@[simp] theorem F.RIM_SLCFG_IN_EN_width : F.RIM_SLCFG_IN_EN.width = 16 := rfl
@[simp] theorem F.RIM_SLPOL_NATIVE_width : F.RIM_SLPOL_NATIVE.width = 4 := rfl
@[simp] theorem F.RIM_SLPOL_TREE_width : F.RIM_SLPOL_TREE.width = 3 := rfl
@[simp] theorem F.RIM_SLPOL_SAFE_width : F.RIM_SLPOL_SAFE.width = 16 := rfl
@[simp] theorem F.RIM_SLWAIT_OUTFULL_width : F.RIM_SLWAIT_OUTFULL.width = 16 := rfl
@[simp] theorem F.RIM_SLWAIT_INWAIT_width : F.RIM_SLWAIT_INWAIT.width = 16 := rfl
@[simp] theorem F.RIM_PRC_FENCE_width : F.RIM_PRC_FENCE.width = 1 := rfl
@[simp] theorem F.RIM_PRC_REL_width : F.RIM_PRC_REL.width = 1 := rfl
@[simp] theorem F.RIM_PRC_RESULT_width : F.RIM_PRC_RESULT.width = 8 := rfl
@[simp] theorem F.RIM_PRC_REGION_width : F.RIM_PRC_REGION.width = 4 := rfl
@[simp] theorem F.RIM_PRSTAT_DEFINED_width : F.RIM_PRSTAT_DEFINED.width = 16 := rfl
@[simp] theorem F.RIM_PRSTAT_FENCED_width : F.RIM_PRSTAT_FENCED.width = 16 := rfl
@[simp] theorem F.RIM_CNT_FIX_COUNT_width : F.RIM_CNT_FIX_COUNT.width = 32 := rfl
@[simp] theorem F.RIM_CNT_UE_COUNT_width : F.RIM_CNT_UE_COUNT.width = 32 := rfl
@[simp] theorem F.RIM_CNT_ONEHOT_COUNT_width : F.RIM_CNT_ONEHOT_COUNT.width = 32 := rfl
@[simp] theorem F.RIM_REL_DIS_width : F.RIM_REL_DIS.width = 8 := rfl
@[simp] theorem F.RIM_REL_REL_width : F.RIM_REL_REL.width = 8 := rfl
@[simp] theorem F.RIM_IOSTAT_RESULT_width (i : Nat) : (F.RIM_IOSTAT_RESULT i).width = 8 := rfl
@[simp] theorem F.RIM_IOSTAT_STATE_width (i : Nat) : (F.RIM_IOSTAT_STATE i).width = 3 := rfl
@[simp] theorem F.RIM_IOSTAT_KEY_width (i : Nat) : (F.RIM_IOSTAT_KEY i).width = 2 := rfl
@[simp] theorem F.RIM_IOSTAT_STRAP_width (i : Nat) : (F.RIM_IOSTAT_STRAP i).width = 2 := rfl
@[simp] theorem F.RIM_IOSTAT_VCCMV_width (i : Nat) : (F.RIM_IOSTAT_VCCMV i).width = 12 := rfl
@[simp] theorem F.CAP_STAT_MT_ON_width : F.CAP_STAT_MT_ON.width = 1 := rfl
@[simp] theorem F.CAP_STAT_SIG_WAIT_width : F.CAP_STAT_SIG_WAIT.width = 1 := rfl
@[simp] theorem F.CAP_STAT_SIG_POST_width : F.CAP_STAT_SIG_POST.width = 1 := rfl
@[simp] theorem F.CAP_STAT_SIG_ON_width : F.CAP_STAT_SIG_ON.width = 1 := rfl
@[simp] theorem F.CAP_EVT_CFGERR_width : F.CAP_EVT_CFGERR.width = 1 := rfl
@[simp] theorem F.CAP_EVT_STOPPED_width : F.CAP_EVT_STOPPED.width = 1 := rfl
@[simp] theorem F.CAP_EVT_REGION_width : F.CAP_EVT_REGION.width = 1 := rfl
@[simp] theorem F.CAP_EVT_MODE_BUSY_width : F.CAP_EVT_MODE_BUSY.width = 1 := rfl
@[simp] theorem F.CAP_EVT_OVERFLOW_width : F.CAP_EVT_OVERFLOW.width = 1 := rfl
@[simp] theorem F.CAP_EVT_TRIG_width : F.CAP_EVT_TRIG.width = 1 := rfl
@[simp] theorem F.CAP_EVTEN_CFGERR_width : F.CAP_EVTEN_CFGERR.width = 1 := rfl
@[simp] theorem F.CAP_EVTEN_STOPPED_width : F.CAP_EVTEN_STOPPED.width = 1 := rfl
@[simp] theorem F.CAP_EVTEN_REGION_width : F.CAP_EVTEN_REGION.width = 1 := rfl
@[simp] theorem F.CAP_EVTEN_MODE_BUSY_width : F.CAP_EVTEN_MODE_BUSY.width = 1 := rfl
@[simp] theorem F.CAP_EVTEN_OVERFLOW_width : F.CAP_EVTEN_OVERFLOW.width = 1 := rfl
@[simp] theorem F.CAP_EVTEN_TRIG_width : F.CAP_EVTEN_TRIG.width = 1 := rfl
@[simp] theorem F.CAP_SIGCTL_START_width : F.CAP_SIGCTL_START.width = 1 := rfl
@[simp] theorem F.CAP_SIGCTL_STOP_width : F.CAP_SIGCTL_STOP.width = 1 := rfl
@[simp] theorem F.CAP_SIGCTL_WGMASK_width : F.CAP_SIGCTL_WGMASK.width = 8 := rfl
@[simp] theorem F.CAP_SIGCTL_WRAP_width : F.CAP_SIGCTL_WRAP.width = 1 := rfl
@[simp] theorem F.CAP_SIGCTL_LOSSY_width : F.CAP_SIGCTL_LOSSY.width = 1 := rfl
@[simp] theorem F.CAP_SIGPOST_POST_width : F.CAP_SIGPOST_POST.width = 32 := rfl
@[simp] theorem F.CAP_SIGRP_RP_width : F.CAP_SIGRP_RP.width = 32 := rfl
@[simp] theorem F.CAP_SIGWP_WP_width : F.CAP_SIGWP_WP.width = 32 := rfl
@[simp] theorem F.CAP_MTRP_RP_width : F.CAP_MTRP_RP.width = 32 := rfl
@[simp] theorem F.CAP_MTWP_WP_width : F.CAP_MTWP_WP.width = 32 := rfl
@[simp] theorem F.CAP_MTCTL_START_width : F.CAP_MTCTL_START.width = 1 := rfl
@[simp] theorem F.CAP_MTCTL_STOP_width : F.CAP_MTCTL_STOP.width = 1 := rfl
@[simp] theorem F.CAP_MTCTL_WRAP_width : F.CAP_MTCTL_WRAP.width = 1 := rfl
@[simp] theorem F.CAP_MTCTL_SRCMASK_width : F.CAP_MTCTL_SRCMASK.width = 2 := rfl
@[simp] theorem F.CAP_MTCTL_STOP_EN_width : F.CAP_MTCTL_STOP_EN.width = 1 := rfl
@[simp] theorem F.CAP_MTCTL_STOP_CH_width : F.CAP_MTCTL_STOP_CH.width = 2 := rfl
@[simp] theorem F.CAP_MTCTL_START_EN_width : F.CAP_MTCTL_START_EN.width = 1 := rfl
@[simp] theorem F.CAP_MTCTL_START_CH_width : F.CAP_MTCTL_START_CH.width = 2 := rfl
@[simp] theorem F.CAP_TUCTL_EN_width (i : Nat) : (F.CAP_TUCTL_EN i).width = 1 := rfl
@[simp] theorem F.CAP_TUCTL_ACT_width (i : Nat) : (F.CAP_TUCTL_ACT i).width = 8 := rfl
@[simp] theorem F.CAP_TUCTL_COND_width (i : Nat) : (F.CAP_TUCTL_COND i).width = 3 := rfl
@[simp] theorem F.CAP_TUCTL_POL_width (i : Nat) : (F.CAP_TUCTL_POL i).width = 2 := rfl
@[simp] theorem F.CAP_TUCTL_INV_width (i : Nat) : (F.CAP_TUCTL_INV i).width = 1 := rfl
@[simp] theorem F.CAP_TUCTL_HMODE_width (i : Nat) : (F.CAP_TUCTL_HMODE i).width = 2 := rfl
@[simp] theorem F.CAP_TUCTL_XCH_width (i : Nat) : (F.CAP_TUCTL_XCH i).width = 2 := rfl
@[simp] theorem F.CAP_TUSRC_KIND_width (i : Nat) : (F.CAP_TUSRC_KIND i).width = 1 := rfl
@[simp] theorem F.CAP_TUSRC_BANK_width (i : Nat) : (F.CAP_TUSRC_BANK i).width = 3 := rfl
@[simp] theorem F.CAP_TUSRC_PIN_width (i : Nat) : (F.CAP_TUSRC_PIN i).width = 6 := rfl
@[simp] theorem F.CAP_TUMIN_MIN_width (i : Nat) : (F.CAP_TUMIN_MIN i).width = 32 := rfl
@[simp] theorem F.CAP_TUMAX_MAX_width (i : Nat) : (F.CAP_TUMAX_MAX i).width = 32 := rfl
@[simp] theorem F.CAP_TUTHR_HI_width (i : Nat) : (F.CAP_TUTHR_HI i).width = 12 := rfl
@[simp] theorem F.CAP_TUTHR_LO_width (i : Nat) : (F.CAP_TUTHR_LO i).width = 12 := rfl
@[simp] theorem F.CAP_TUHOLD_HOLD_width (i : Nat) : (F.CAP_TUHOLD_HOLD i).width = 32 := rfl
@[simp] theorem F.CAP_TUSTAT_DROP_width (i : Nat) : (F.CAP_TUSTAT_DROP i).width = 8 := rfl
@[simp] theorem F.CAP_TUSTAT_CFGERR_width (i : Nat) : (F.CAP_TUSTAT_CFGERR i).width = 1 := rfl
@[simp] theorem F.CAP_TUSTAT_WERR_width (i : Nat) : (F.CAP_TUSTAT_WERR i).width = 1 := rfl
@[simp] theorem F.CAP_TUSTAT_STATE_width (i : Nat) : (F.CAP_TUSTAT_STATE i).width = 2 := rfl
@[simp] theorem F.CAP_TUCNT_COUNT_width (i : Nat) : (F.CAP_TUCNT_COUNT i).width = 32 := rfl
@[simp] theorem F.DBG_CTL_SLEEPEMU_width : F.DBG_CTL_SLEEPEMU.width = 1 := rfl
@[simp] theorem F.DBG_CTL_PEEK_width : F.DBG_CTL_PEEK.width = 1 := rfl
@[simp] theorem F.DBG_STAT_WREF_width : F.DBG_STAT_WREF.width = 1 := rfl
@[simp] theorem F.DBG_STAT_EXTEST_width : F.DBG_STAT_EXTEST.width = 1 := rfl
@[simp] theorem F.DBG_STAT_ATTACHED_width : F.DBG_STAT_ATTACHED.width = 1 := rfl
@[simp] theorem F.DBG_STAT_HCAUSE_width : F.DBG_STAT_HCAUSE.width = 2 := rfl
@[simp] theorem F.DBG_EVT_LOCKOUT_width : F.DBG_EVT_LOCKOUT.width = 1 := rfl
@[simp] theorem F.DBG_EVT_EXTEST_width : F.DBG_EVT_EXTEST.width = 1 := rfl
@[simp] theorem F.DBG_EVT_HALT_width : F.DBG_EVT_HALT.width = 1 := rfl
@[simp] theorem F.DBG_EVT_AUTH_width : F.DBG_EVT_AUTH.width = 1 := rfl
@[simp] theorem F.DBG_EVTEN_LOCKOUT_width : F.DBG_EVTEN_LOCKOUT.width = 1 := rfl
@[simp] theorem F.DBG_EVTEN_EXTEST_width : F.DBG_EVTEN_EXTEST.width = 1 := rfl
@[simp] theorem F.DBG_EVTEN_HALT_width : F.DBG_EVTEN_HALT.width = 1 := rfl
@[simp] theorem F.DBG_EVTEN_AUTH_width : F.DBG_EVTEN_AUTH.width = 1 := rfl
@[simp] theorem F.DBG_AUTH_REQ_width : F.DBG_AUTH_REQ.width = 1 := rfl
@[simp] theorem F.DBG_AUTH_DROP_width : F.DBG_AUTH_DROP.width = 1 := rfl
@[simp] theorem F.DBG_AUTH_LEVEL_width : F.DBG_AUTH_LEVEL.width = 2 := rfl
@[simp] theorem F.DBG_AUTH_METHOD_width : F.DBG_AUTH_METHOD.width = 1 := rfl
@[simp] theorem F.DBG_AUTH_RESULT_width : F.DBG_AUTH_RESULT.width = 8 := rfl
@[simp] theorem F.DBG_AUTH_TAPLVL_width : F.DBG_AUTH_TAPLVL.width = 2 := rfl
@[simp] theorem F.DBG_AUTH_HOSTLVL_width : F.DBG_AUTH_HOSTLVL.width = 2 := rfl
@[simp] theorem F.DBG_AUTH_FAILS_width : F.DBG_AUTH_FAILS.width = 4 := rfl
@[simp] theorem F.DBG_RUN_HALT_width : F.DBG_RUN_HALT.width = 1 := rfl
@[simp] theorem F.DBG_RUN_RESUME_width : F.DBG_RUN_RESUME.width = 1 := rfl
@[simp] theorem F.DBG_RUN_STEP_width : F.DBG_RUN_STEP.width = 1 := rfl
@[simp] theorem F.DBG_AADDR0_ADDR_width : F.DBG_AADDR0_ADDR.width = 32 := rfl
@[simp] theorem F.DBG_AADDR1_ADDR_width : F.DBG_AADDR1_ADDR.width = 16 := rfl
@[simp] theorem F.DBG_ADATA_DATA_width : F.DBG_ADATA_DATA.width = 32 := rfl
@[simp] theorem F.DBG_ACMD_GO_width : F.DBG_ACMD_GO.width = 1 := rfl
@[simp] theorem F.DBG_ACMD_WRITE_width : F.DBG_ACMD_WRITE.width = 1 := rfl
@[simp] theorem F.DBG_ACMD_RESULT_width : F.DBG_ACMD_RESULT.width = 8 := rfl
@[simp] theorem F.DBG_ARR_GO_width : F.DBG_ARR_GO.width = 1 := rfl
@[simp] theorem F.DBG_ARR_OP_width : F.DBG_ARR_OP.width = 3 := rfl
@[simp] theorem F.DBG_ARR_CLAUSE_width : F.DBG_ARR_CLAUSE.width = 6 := rfl
@[simp] theorem F.DBG_ARR_BP_width : F.DBG_ARR_BP.width = 9 := rfl
@[simp] theorem F.DBG_ARR_BANK_width : F.DBG_ARR_BANK.width = 1 := rfl
@[simp] theorem F.DBG_ARR_ENTRY_width : F.DBG_ARR_ENTRY.width = 8 := rfl
@[simp] theorem F.DBG_ARRD_RESULT_width : F.DBG_ARRD_RESULT.width = 8 := rfl
@[simp] theorem F.DBG_ARRD_CQFILL_width : F.DBG_ARRD_CQFILL.width = 6 := rfl
@[simp] theorem F.DBG_ARRD_FORCED_width : F.DBG_ARRD_FORCED.width = 1 := rfl
@[simp] theorem F.DBG_ARRD_CQBANK_width : F.DBG_ARRD_CQBANK.width = 1 := rfl
@[simp] theorem F.DBG_ARRD_CQDST_width : F.DBG_ARRD_CQDST.width = 8 := rfl
@[simp] theorem F.DBG_ARRD_VALUE_width : F.DBG_ARRD_VALUE.width = 2 := rfl
@[simp] theorem F.DBG_FCNT_COUNT_width : F.DBG_FCNT_COUNT.width = 7 := rfl
@[simp] theorem F.DBG_PAIR_HALT_width (i : Nat) : (F.DBG_PAIR_HALT i).width = 1 := rfl
@[simp] theorem F.DBG_PAIR_RESUME_width (i : Nat) : (F.DBG_PAIR_RESUME i).width = 1 := rfl
@[simp] theorem F.DBG_PAIR_STEP_width (i : Nat) : (F.DBG_PAIR_STEP i).width = 1 := rfl
@[simp] theorem F.DBG_PAIR_WAITM_width (i : Nat) : (F.DBG_PAIR_WAITM i).width = 1 := rfl
@[simp] theorem F.DBG_PAIR_PRIV_width (i : Nat) : (F.DBG_PAIR_PRIV i).width = 2 := rfl
@[simp] theorem F.DBG_PAIR_HALTED_width (i : Nat) : (F.DBG_PAIR_HALTED i).width = 1 := rfl
@[simp] theorem F.DBG_CSRSEL_PAIR_width : F.DBG_CSRSEL_PAIR.width = 1 := rfl
@[simp] theorem F.DBG_CSRSEL_CSR_width : F.DBG_CSRSEL_CSR.width = 12 := rfl
@[simp] theorem F.DBG_XT_OUT_width (i : Nat) : (F.DBG_XT_OUT i).width = 5 := rfl
@[simp] theorem F.DBG_XT_IN_width (i : Nat) : (F.DBG_XT_IN i).width = 7 := rfl

end Sys2Proof.Machine
end

