-- ==== Sys2Proof/Laws/Kept1.lean ====
section
/-! SUPPORT. Kept1.lean: each operation keeps what `Kept` names, part 1. -/
set_option Elab.async false
namespace Sys2Proof.Machine

theorem State.fset_kept (f : Fld) (v : Nat) {s0 t : State} (h : Kept s0 t) :
    Kept s0 (State.fset t f v) := by
  unfold State.fset
  repeat' (first | with_reducible assumption | (simp only [Kept.mk_eq]; with_reducible apply KeptF.of))

theorem State.count_kept (f : Fld) {s0 t : State} (h : Kept s0 t) :
    Kept s0 (State.count t f) := by
  unfold State.count
  repeat' (first | with_reducible assumption | with_reducible apply State.fset_kept)

theorem State.countBy_kept (f : Fld) (n : Nat) {s0 t : State} (h : Kept s0 t) :
    Kept s0 (State.countBy t f n) := by
  unfold State.countBy
  repeat' (first | with_reducible assumption | with_reducible apply State.fset_kept)

theorem State.emit_kept (e : Emit) {s0 t : State} (h : Kept s0 t) :
    Kept s0 (State.emit t e) := by
  unfold State.emit
  repeat' (first | with_reducible assumption | (simp only [Kept.mk_eq]; with_reducible apply KeptF.of))

theorem State.flashErase_kept (o : Nat) (n : Nat) {s0 t : State} (h : Kept s0 t) :
    Kept s0 (State.flashErase t o n) := ⟨h.pending, h.mem, fun x => flashErase_wf _ _ (h.flash x), h.held, h.fuses⟩

theorem State.flashWrite_kept (o : Nat) (bs : List Byte) {s0 t : State} (h : Kept s0 t) :
    Kept s0 (State.flashWrite t o bs) := ⟨h.pending, h.mem, fun x => flashWrite_wf _ (h.flash x), h.held, h.fuses⟩

theorem State.fresh_kept {s0 t : State} (h : Kept s0 t) :
    Kept s0 (State.fresh t).2 := by
  unfold State.fresh
  (try dsimp only)
  repeat' (first | with_reducible assumption | (simp only [Kept.mk_eq]; with_reducible apply KeptF.of))

theorem State.fresh64_kept {s0 t : State} (h : Kept s0 t) :
    Kept s0 (State.fresh64 t).2 := by
  unfold State.fresh64
  (try dsimp only)
  repeat' (first | with_reducible assumption | with_reducible apply State.fresh_kept)

theorem State.freshBytes_kept (n : Nat) {s0 t : State} (h : Kept s0 t) :
    Kept s0 (State.freshBytes t n).2 := by
  unfold State.freshBytes
  (try dsimp only)
  repeat' (first | with_reducible assumption | (simp only [Kept.mk_eq]; with_reducible apply KeptF.of))

theorem State.freshNat_kept {s0 t : State} (h : Kept s0 t) :
    Kept s0 (State.freshNat t).2 := by
  unfold State.freshNat
  (try dsimp only)
  repeat' (first | with_reducible assumption | with_reducible apply State.fresh_kept)

theorem State.fsetb_kept (f : Fld) (b : Bool) {s0 t : State} (h : Kept s0 t) :
    Kept s0 (State.fsetb t f b) := by
  unfold State.fsetb
  repeat' (first | with_reducible assumption | with_reducible apply State.fset_kept)

theorem State.hostStatus_kept {s0 t : State} (h : Kept s0 t) :
    Kept s0 (State.hostStatus t).2 := by
  unfold State.hostStatus
  (try dsimp only)
  repeat' (first | with_reducible assumption | with_reducible apply State.freshNat_kept)

theorem State.modBank_kept (b : Nat) (f : Bank → Bank) {s0 t : State} (h : Kept s0 t) :
    Kept s0 (State.modBank t b f) := by
  unfold State.modBank
  (try dsimp only)
  repeat' (first | with_reducible assumption | (simp only [Kept.mk_eq]; with_reducible apply KeptF.of))

theorem State.setClause_kept (c : Nat) (x : Clause) {s0 t : State} (h : Kept s0 t) :
    Kept s0 (State.setClause t c x) := by
  unfold State.setClause
  repeat' (first | with_reducible assumption | (simp only [Kept.mk_eq]; with_reducible apply KeptF.of))

theorem State.modClause_kept (c : Nat) (f : Clause → Clause) {s0 t : State} (h : Kept s0 t) :
    Kept s0 (State.modClause t c f) := by
  unfold State.modClause
  repeat' (first | with_reducible assumption | with_reducible apply State.setClause_kept)

theorem State.modConn_kept (k : Nat) (f : Conn → Conn) {s0 t : State} (h : Kept s0 t) :
    Kept s0 (State.modConn t k f) := by
  unfold State.modConn
  (try dsimp only)
  repeat' (first | with_reducible assumption | (simp only [Kept.mk_eq]; with_reducible apply KeptF.of))

theorem State.modDma_kept (c : Nat) (f : Dma → Dma) {s0 t : State} (h : Kept s0 t) :
    Kept s0 (State.modDma t c f) := by
  unfold State.modDma
  (try dsimp only)
  repeat' (first | with_reducible assumption | (simp only [Kept.mk_eq]; with_reducible apply KeptF.of))

theorem State.modGroup_kept (g : Nat) (f : RimGroup → RimGroup) {s0 t : State} (h : Kept s0 t) :
    Kept s0 (State.modGroup t g f) := by
  unfold State.modGroup
  (try dsimp only)
  repeat' (first | with_reducible assumption | (simp only [Kept.mk_eq]; with_reducible apply KeptF.of))

theorem State.setLink_kept (l : Nat) (x : Lnk) {s0 t : State} (h : Kept s0 t) :
    Kept s0 (State.setLink t l x) := by
  unfold State.setLink
  repeat' (first | with_reducible assumption | (simp only [Kept.mk_eq]; with_reducible apply KeptF.of))

theorem State.modLink_kept (l : Nat) (f : Lnk → Lnk) {s0 t : State} (h : Kept s0 t) :
    Kept s0 (State.modLink t l f) := by
  unfold State.modLink
  repeat' (first | with_reducible assumption | with_reducible apply State.setLink_kept)

theorem State.modMt_kept (f : MtCap → MtCap) {s0 t : State} (h : Kept s0 t) :
    Kept s0 (State.modMt t f) := by
  unfold State.modMt
  (try dsimp only)
  repeat' (first | with_reducible assumption | (simp only [Kept.mk_eq]; with_reducible apply KeptF.of))

theorem State.modPair_kept (p : Nat) (f : Pair → Pair) {s0 t : State} (h : Kept s0 t) :
    Kept s0 (State.modPair t p f) := by
  unfold State.modPair
  (try dsimp only)
  repeat' (first | with_reducible assumption | (simp only [Kept.mk_eq]; with_reducible apply KeptF.of))

theorem State.modRing_kept (r : Nat) (f : Ring → Ring) {s0 t : State} (h : Kept s0 t) :
    Kept s0 (State.modRing t r f) := by
  unfold State.modRing
  (try dsimp only)
  repeat' (first | with_reducible assumption | (simp only [Kept.mk_eq]; with_reducible apply KeptF.of))

theorem State.modSig_kept (f : SigCap → SigCap) {s0 t : State} (h : Kept s0 t) :
    Kept s0 (State.modSig t f) := by
  unfold State.modSig
  (try dsimp only)
  repeat' (first | with_reducible assumption | (simp only [Kept.mk_eq]; with_reducible apply KeptF.of))

theorem State.modUnit_kept (u : Nat) (f : Tu → Tu) {s0 t : State} (h : Kept s0 t) :
    Kept s0 (State.modUnit t u f) := by
  unfold State.modUnit
  (try dsimp only)
  repeat' (first | with_reducible assumption | (simp only [Kept.mk_eq]; with_reducible apply KeptF.of))

theorem State.pick_kept (xs : List Nat) {s0 t : State} (h : Kept s0 t) :
    Kept s0 (State.pick t xs).2 := by
  unfold State.pick
  (try dsimp only)
  repeat' (first | with_reducible assumption | with_reducible apply State.fresh_kept)

theorem State.pickSpare_kept (stack : Nat) {s0 t : State} (h : Kept s0 t) :
    Kept s0 (State.pickSpare t stack).2 := by
  unfold State.pickSpare
  (try dsimp only)
  repeat' (first | with_reducible assumption | with_reducible apply Kept.ite | with_reducible apply State.fresh_kept)

theorem State.raiseAt_kept (f : Fld) (src : Nat) (code : Nat) (payload : List Nat) (step : Nat) (time : Nat) (chk : Bool) {s0 t : State} (h : Kept s0 t) :
    Kept s0 (State.raiseAt t f src code payload step time chk) := by
  unfold State.raiseAt
  (try dsimp only)
  repeat' (first | with_reducible assumption | with_reducible apply Kept.ite | with_reducible apply State.fset_kept | (simp only [Kept.mk_eq]; with_reducible apply KeptF.of))

theorem State.raise_kept (f : Fld) (src : Nat) (code : Nat) (payload : List Nat) {s0 t : State} (h : Kept s0 t) :
    Kept s0 (State.raise t f src code payload) := by
  unfold State.raise
  repeat' (first | with_reducible assumption | with_reducible apply State.raiseAt_kept)

theorem State.runRefused_kept {s0 t u : State} (h : Kept s0 t)
    (e : State.runRefused t = some u) : Kept s0 u := by
  unfold State.runRefused at e
  (try dsimp only at e)
  repeat' (split at e)
  all_goals (try cases e)
  all_goals (repeat' (first | with_reducible assumption | with_reducible apply Kept.ite | with_reducible apply State.raise_kept))

theorem State.setJob_kept (j : LoadJob) {s0 t : State} (h : Kept s0 t) :
    Kept s0 (State.setJob t j) := by
  unfold State.setJob
  (try dsimp only)
  repeat' (first | with_reducible assumption | (simp only [Kept.mk_eq]; with_reducible apply KeptF.of))

theorem State.setMark_kept (a : Nat) (v : Nat) {s0 t : State} (h : Kept s0 t) :
    Kept s0 (State.setMark t a v) := by
  unfold State.setMark
  (try dsimp only)
  repeat' (first | with_reducible assumption | (simp only [Kept.mk_eq]; with_reducible apply KeptF.of))

theorem State.setMbx_kept (page : Nat) (ctx : Nat) (x : Mbx) {s0 t : State} (h : Kept s0 t) :
    Kept s0 (State.setMbx t page ctx x) := by
  unfold State.setMbx
  repeat' (first | with_reducible assumption | (simp only [Kept.mk_eq]; with_reducible apply KeptF.of))

theorem State.setRxq_kept (r : Nat) (l : List Flight) {s0 t : State} (h : Kept s0 t) :
    Kept s0 (State.setRxq t r l) := by
  unfold State.setRxq
  (try dsimp only)
  repeat' (first | with_reducible assumption | (simp only [Kept.mk_eq]; with_reducible apply KeptF.of))

theorem State.setWaitq_kept (r : Nat) (l : List Flight) {s0 t : State} (h : Kept s0 t) :
    Kept s0 (State.setWaitq t r l) := by
  unfold State.setWaitq
  (try dsimp only)
  repeat' (first | with_reducible assumption | (simp only [Kept.mk_eq]; with_reducible apply KeptF.of))

theorem State.storeByte_kept (a : Nat) (b : Byte) {s0 t : State} (h : Kept s0 t) :
    Kept s0 (State.storeByte t a b) := ⟨h.pending, fun x => memPut_wf _ _ (h.mem x), h.flash, h.held, h.fuses⟩

theorem State.store_kept (a1 : Nat) (a2 : List Byte) {s0 t : State} (h : Kept s0 t) :
    Kept s0 (State.store t a1 a2) := by
  induction a2 generalizing a1 t with
  | nil => exact h
  | cons b l ih => exact ih _ (State.storeByte_kept _ _ h)

theorem spareReport_kept (c : Nat) (target : Nat) (result : Nat) (hold : Nat) {s0 t : State} (h : Kept s0 t) :
    Kept s0 (spareReport c target result hold t) := by
  unfold spareReport
  repeat' (first | with_reducible assumption | with_reducible apply State.raise_kept | with_reducible apply State.fset_kept)

theorem spareGo_kept (c : Nat) (target : Nat) {s0 t : State} (h : Kept s0 t) :
    Kept s0 (spareGo c target t) := by
  unfold spareGo
  (try dsimp only)
  repeat' (first | with_reducible assumption | with_reducible apply Kept.ite | with_reducible apply State.fset_kept | with_reducible apply State.modClause_kept | with_reducible apply spareReport_kept | split)

theorem rmapReport_kept (c : Nat) (row : Nat) (spare : Nat) (result : Nat) {s0 t : State} (h : Kept s0 t) :
    Kept s0 (rmapReport c row spare result t) := by
  unfold rmapReport
  repeat' (first | with_reducible assumption | with_reducible apply State.raise_kept | with_reducible apply State.fset_kept)

theorem rmapGo_kept (c : Nat) (row : Nat) {s0 t : State} (h : Kept s0 t) :
    Kept s0 (rmapGo c row t) := by
  unfold rmapGo
  (try dsimp only)
  repeat' (first | with_reducible assumption | with_reducible apply State.fset_kept | with_reducible apply rmapReport_kept | with_reducible apply State.freshNat_kept | (simp only [Kept.mk_eq]; with_reducible apply KeptF.of) | split)

theorem fabAgreeApply_kept {s0 t : State} (h : Kept s0 t) :
    Kept s0 (fabAgreeApply t) := by
  unfold fabAgreeApply
  (try dsimp only)
  repeat' (first | with_reducible assumption | with_reducible apply State.raise_kept | with_reducible apply State.fset_kept | with_reducible apply State.modConn_kept | (simp only [Kept.mk_eq]; with_reducible apply KeptF.of) | split)

theorem fabAgree_kept (tag : Nat) {s0 t : State} (h : Kept s0 t) :
    Kept s0 (fabAgree tag t) := by
  unfold fabAgree
  (try dsimp only)
  repeat' (first | with_reducible assumption | with_reducible apply Kept.ite | with_reducible apply State.fset_kept | with_reducible apply State.fresh64_kept | with_reducible apply State.raise_kept | with_reducible apply fabAgreeApply_kept | (simp only [Kept.mk_eq]; with_reducible apply KeptF.of) | split)

theorem spareMap_kept (k : Nat) (lane : Nat) {s0 t : State} (h : Kept s0 t) :
    Kept s0 (spareMap k lane t) := by
  unfold spareMap
  (try dsimp only)
  repeat' (first | with_reducible assumption | with_reducible apply State.fset_kept | with_reducible apply State.freshNat_kept | with_reducible apply fabAgree_kept)

theorem lretReport_kept (bank : Nat) (word : Nat) (spare : Nat) (result : Nat) {s0 t : State} (h : Kept s0 t) :
    Kept s0 (lretReport bank word spare result t) := by
  unfold lretReport
  repeat' (first | with_reducible assumption | with_reducible apply State.raise_kept | with_reducible apply State.fset_kept)

theorem lretRefuse_kept (bank : Nat) (word : Nat) (result : Nat) {s0 t : State} (h : Kept s0 t) :
    Kept s0 (lretRefuse bank word result t) := by
  unfold lretRefuse
  repeat' (first | with_reducible assumption | with_reducible apply lretReport_kept | with_reducible apply State.freshNat_kept)

theorem lretGo_kept (bank : Nat) (word : Nat) {s0 t : State} (h : Kept s0 t) :
    Kept s0 (lretGo bank word t) := by
  unfold lretGo
  (try dsimp only)
  repeat' (first | with_reducible assumption | with_reducible apply Kept.ite | with_reducible apply State.fset_kept | with_reducible apply lretRefuse_kept | with_reducible apply State.pick_kept | (simp only [Kept.mk_eq]; with_reducible apply KeptF.of))

theorem hretReport_kept (stack : Nat) (page : Nat) (spare : Nat) (result : Nat) {s0 t : State} (h : Kept s0 t) :
    Kept s0 (hretReport stack page spare result t) := by
  unfold hretReport
  repeat' (first | with_reducible assumption | with_reducible apply State.raise_kept | with_reducible apply State.fset_kept)

theorem hretRefuse_kept (stack : Nat) (page : Nat) (result : Nat) {s0 t : State} (h : Kept s0 t) :
    Kept s0 (hretRefuse stack page result t) := by
  unfold hretRefuse
  repeat' (first | with_reducible assumption | with_reducible apply hretReport_kept | with_reducible apply State.freshNat_kept)

theorem hretGo_kept (stack : Nat) {s0 t : State} (h : Kept s0 t) :
    Kept s0 (hretGo stack t) := by
  unfold hretGo
  (try dsimp only)
  repeat' (first | with_reducible assumption | with_reducible apply Kept.ite | with_reducible apply State.fset_kept | with_reducible apply hretRefuse_kept | with_reducible apply State.pickSpare_kept | (simp only [Kept.mk_eq]; with_reducible apply KeptF.of))

theorem laneReport_kept (l : Nat) (lane : Nat) (result : Nat) (hold : Nat) {s0 t : State} (h : Kept s0 t) :
    Kept s0 (laneReport l lane result hold t) := by
  unfold laneReport
  repeat' (first | with_reducible assumption | with_reducible apply State.raise_kept | with_reducible apply State.fset_kept)

theorem ctlPut_kept (l : Nat) (w : BitVec 64) {s0 t : State} (h : Kept s0 t) :
    Kept s0 (ctlPut l w t) := by
  unfold ctlPut
  repeat' (first | with_reducible assumption | with_reducible apply State.modLink_kept)

theorem sparingStart_kept (l : Nat) (lane : Nat) (byGo : Bool) (accepted : Bool) {s0 t : State} (h : Kept s0 t) :
    Kept s0 (sparingStart l lane byGo accepted t) := by
  unfold sparingStart
  repeat' (first | with_reducible assumption | with_reducible apply State.fset_kept | with_reducible apply State.modLink_kept)

theorem lnkSpareGo_kept (l : Nat) (lane : Nat) {s0 t : State} (h : Kept s0 t) :
    Kept s0 (lnkSpareGo l lane t) := by
  unfold lnkSpareGo
  (try dsimp only)
  repeat' (first | with_reducible assumption | with_reducible apply State.fset_kept | with_reducible apply laneReport_kept | with_reducible apply ctlPut_kept | with_reducible apply sparingStart_kept | split)

theorem actStart_kept (t1 : SparingTrigger) {s0 t : State} (h : Kept s0 t) :
    Kept s0 (actStart t1 t) := by
  unfold actStart
  repeat' (first | with_reducible assumption | with_reducible apply spareGo_kept | with_reducible apply rmapGo_kept | with_reducible apply spareMap_kept | with_reducible apply lretGo_kept | with_reducible apply hretGo_kept | with_reducible apply State.fset_kept | with_reducible apply lnkSpareGo_kept | split)

theorem logPut_kept (ty : Nat) (result : Nat) (unit : Nat) (item : Nat) (step : Nat) (data : Nat) {s0 t : State} (h : Kept s0 t) :
    Kept s0 (logPut ty result unit item step data t) := by
  unfold logPut
  (try dsimp only)
  repeat' (first | with_reducible assumption | with_reducible apply State.flashWrite_kept | (simp only [Kept.mk_eq]; with_reducible apply KeptF.of))

theorem logCarry_kept (recs : List (List Byte)) {s0 t : State} (h : Kept s0 t) :
    Kept s0 (logCarry recs t) := by
  unfold logCarry
  (try dsimp only)
  repeat' (first | with_reducible assumption | with_reducible apply State.flashWrite_kept | (simp only [Kept.mk_eq]; with_reducible apply KeptF.of) | with_reducible apply Kept.foldl | (intro _ _ _))

theorem logWrite_kept (ty : Nat) (result : Nat) (unit : Nat) (item : Nat) (step : Nat) (data : Nat) {s0 t : State} (h : Kept s0 t) :
    Kept s0 (logWrite ty result unit item step data t) := by
  unfold logWrite
  (try dsimp only)
  repeat' (first | with_reducible assumption | with_reducible apply Kept.ite | with_reducible apply logPut_kept | with_reducible apply logCarry_kept | with_reducible apply State.flashErase_kept)

theorem actsLog_kept {s0 t : State} (h : Kept s0 t) :
    Kept s0 (actsLog t) := by
  unfold actsLog
  (try dsimp only)
  repeat' (first | with_reducible assumption | with_reducible apply Kept.ite | with_reducible apply logWrite_kept | (simp only [Kept.mk_eq]; with_reducible apply KeptF.of) | with_reducible apply Kept.foldl | (intro _ _ _))

theorem sendFence_kept (f : Nat) (dev : Nat) {s0 t : State} (h : Kept s0 t) :
    Kept s0 (sendFence f dev t) := by
  unfold sendFence
  repeat' (first | with_reducible assumption | with_reducible apply State.modLink_kept | with_reducible apply Kept.foldl | (intro _ _ _))

theorem adoptFence_kept (f : Nat) (dev : Nat) {s0 t : State} (h : Kept s0 t) :
    Kept s0 (adoptFence f dev t) := by
  unfold adoptFence
  (try dsimp only)
  repeat' (first | with_reducible assumption | with_reducible apply Kept.ite | with_reducible apply sendFence_kept | (simp only [Kept.mk_eq]; with_reducible apply KeptF.of) | split)

theorem pairHaltReq_kept (p : Nat) (cause : Nat) {s0 t : State} (h : Kept s0 t) :
    Kept s0 (pairHaltReq p cause t) := by
  unfold pairHaltReq
  (try dsimp only)
  repeat' (first | with_reducible assumption | with_reducible apply Kept.ite | with_reducible apply State.modPair_kept)

theorem mtEach_kept (f : Nat → State → State) {s0 t : State} (hf : ∀ (x0 : Nat) (u : State), Kept s0 u → Kept s0 (f x0 u)) (h : Kept s0 t) :
    Kept s0 (mtEach f t) := by
  unfold mtEach
  repeat' (first | with_reducible assumption | with_reducible apply Kept.ite | with_reducible apply hf | with_reducible apply Kept.foldl | (intro _ _ _))

theorem mtPut_kept (src : Nat) (ty : Nat) (info : Nat) (zeroDelta : Bool) (body : List Byte) {s0 t : State} (h : Kept s0 t) :
    Kept s0 (mtPut src ty info zeroDelta body t) := by
  unfold mtPut
  (try dsimp only)
  repeat' (first | with_reducible assumption | with_reducible apply Kept.ite | with_reducible apply State.modMt_kept)

theorem mtSync_kept (src : Nat) (zeroDelta : Bool) {s0 t : State} (h : Kept s0 t) :
    Kept s0 (mtSync src zeroDelta t) := by
  unfold mtSync
  repeat' (first | with_reducible assumption | with_reducible apply State.modMt_kept | with_reducible apply mtPut_kept)

theorem mtStartReq_kept (by_ : Nat) {s0 t : State} (h : Kept s0 t) :
    Kept s0 (mtStartReq by_ t) := by
  unfold mtStartReq
  (try dsimp only)
  repeat' (first | with_reducible assumption | with_reducible apply Kept.ite | with_reducible apply State.fset_kept | with_reducible apply State.raise_kept | with_reducible apply State.modMt_kept | with_reducible apply mtEach_kept | with_reducible apply mtSync_kept | with_reducible apply mtPut_kept | with_reducible apply Kept.foldl | (intro _ _ _) | split)

theorem sparingSeen_kept (t1 : SparingTrigger) {s0 t : State} (h : Kept s0 t) :
    Kept s0 (sparingSeen t1 t) := by
  unfold sparingSeen
  (try dsimp only)
  repeat' (first | with_reducible assumption | with_reducible apply Kept.ite | (simp only [Kept.mk_eq]; with_reducible apply KeptF.of))

theorem memHot_kept (hbm : Bool) (unit : Nat) (loc : Nat) {s0 t : State} (h : Kept s0 t) :
    Kept s0 (memHot hbm unit loc t) := by
  unfold memHot
  (try dsimp only)
  repeat' (first | with_reducible assumption | with_reducible apply Kept.ite | with_reducible apply sparingSeen_kept | with_reducible apply State.raise_kept | (simp only [Kept.mk_eq]; with_reducible apply KeptF.of))

theorem memCe_kept (a : Nat) {s0 t : State} (h : Kept s0 t) :
    Kept s0 (memCe a t) := by
  unfold memCe
  (try dsimp only)
  repeat' (first | with_reducible assumption | with_reducible apply Kept.ite | with_reducible apply State.setMark_kept | with_reducible apply State.count_kept | with_reducible apply State.raise_kept | with_reducible apply memHot_kept | (simp only [Kept.mk_eq]; with_reducible apply KeptF.of))

theorem memUe_kept (a : Nat) (master : Nat) (write : Bool) {s0 t : State} (h : Kept s0 t) :
    Kept s0 (memUe a master write t) := by
  unfold memUe
  (try dsimp only)
  repeat' (first | with_reducible assumption | with_reducible apply Kept.ite | with_reducible apply State.raise_kept | with_reducible apply State.count_kept | with_reducible apply sparingSeen_kept | (simp only [Kept.mk_eq]; with_reducible apply KeptF.of))

theorem userWrite_kept (master : Nat) (a : Nat) (bs : List Byte) {s0 t : State} (h : Kept s0 t) :
    Kept s0 (userWrite master a bs t) := by
  unfold userWrite
  (try dsimp only)
  repeat' (first | with_reducible assumption | with_reducible apply Kept.ite | with_reducible apply State.store_kept | with_reducible apply State.setMark_kept | with_reducible apply memCe_kept | with_reducible apply memUe_kept)

theorem nocWrite_kept (kind : Nat) (a : Nat) (bs : List Byte) {s0 t : State} (h : Kept s0 t) :
    Kept s0 (nocWrite kind a bs t).2 := by
  unfold nocWrite
  exact Kept.foldl_of (g := fun r : Bool × State => r.2) (fun _ _ hr => userWrite_kept _ _ _ hr) h

theorem nocWaited_kept (kind : Nat) (waited : Nat) {s0 t : State} (h : Kept s0 t) :
    Kept s0 (nocWaited kind waited t) := by
  unfold nocWaited
  (try dsimp only)
  repeat' (first | with_reducible assumption | with_reducible apply Kept.ite | (simp only [Kept.mk_eq]; with_reducible apply KeptF.of))

theorem nocWaits_kept (bank : Nat) {s0 t : State} (h : Kept s0 t) :
    Kept s0 (nocWaits bank t) := by
  unfold nocWaits
  (try dsimp only)
  repeat' (first | with_reducible assumption | with_reducible apply Kept.ite | (simp only [Kept.mk_eq]; with_reducible apply KeptF.of))

theorem userRead_kept (master : Nat) (a : Nat) (n : Nat) {s0 t : State} (h : Kept s0 t) :
    Kept s0 (userRead master a n t).2.2 := by
  unfold userRead
  (try dsimp only)
  repeat' (first | with_reducible assumption | with_reducible apply Kept.ite | with_reducible apply memCe_kept | with_reducible apply memUe_kept)

theorem performLex_kept (a : LexAcc) {s0 t : State} (h : Kept s0 t) :
    Kept s0 (performLex a t) := by
  unfold performLex
  (try dsimp only)
  repeat' (first | with_reducible assumption | with_reducible apply Kept.ite | with_reducible apply userWrite_kept | with_reducible apply userRead_kept | (simp only [Kept.mk_eq]; with_reducible apply KeptF.of))

theorem lexServe_kept (bank : Nat) {s0 t : State} (h : Kept s0 t) :
    Kept s0 (lexServe bank t) := by
  unfold lexServe
  (try dsimp only)
  repeat' (first | with_reducible assumption | with_reducible apply Kept.ite | with_reducible apply nocWaits_kept | with_reducible apply performLex_kept | (simp only [Kept.mk_eq]; with_reducible apply KeptF.of) | with_reducible apply Kept.foldl | (intro _ _ _))

theorem portWait_kept (kind : Nat) (bank : Nat) (a2 : Nat) (a3 : Nat) {s0 t : State} (h : Kept s0 t) :
    Kept s0 (portWait kind bank a2 a3 t) := by
  induction a2 generalizing a3 t with
  | zero => exact nocWaited_kept _ _ h
  | succ k ih =>
    unfold portWait
    dsimp only
    refine Kept.ite (ih _ ?_) (nocWaited_kept _ _ h)
    exact Kept.ite (State.raise_kept _ _ _ _ (lexServe_kept _ h)) (lexServe_kept _ h)

theorem lexWait_kept (kind : Nat) (a : Nat) (n : Nat) {s0 t : State} (h : Kept s0 t) :
    Kept s0 (lexWait kind a n t) := by
  unfold lexWait
  repeat' (first | with_reducible assumption | with_reducible apply portWait_kept | with_reducible apply Kept.foldl | (intro _ _ _))

theorem portWrite_kept (kind : Nat) (a : Nat) (bs : List Byte) {s0 t : State} (h : Kept s0 t) :
    Kept s0 (portWrite kind a bs t).2 := by
  unfold portWrite
  repeat' (first | with_reducible assumption | with_reducible apply nocWrite_kept | with_reducible apply lexWait_kept)

theorem mtDrain1_kept {s0 t : State} (h : Kept s0 t) :
    Kept s0 (mtDrain1 t) := by
  unfold mtDrain1
  (try dsimp only)
  repeat' (first | with_reducible assumption | with_reducible apply Kept.ite | with_reducible apply State.modMt_kept | with_reducible apply State.fset_kept | with_reducible apply portWrite_kept)

theorem mtDrain_kept (a0 : Nat) {s0 t : State} (h : Kept s0 t) :
    Kept s0 (mtDrain a0 t) := by
  induction a0 generalizing t with
  | zero => exact h
  | succ k ih => exact ih (mtDrain1_kept h)

theorem mtFlush_kept {s0 t : State} (h : Kept s0 t) :
    Kept s0 (mtFlush t) := by
  unfold mtFlush
  (try dsimp only)
  repeat' (first | with_reducible assumption | with_reducible apply State.modMt_kept | with_reducible apply mtDrain_kept)

theorem mtPacket_kept (src : Nat) (ty : Nat) (info : Nat) (body : List Byte) {s0 t : State} (h : Kept s0 t) :
    Kept s0 (mtPacket src ty info body t) := by
  unfold mtPacket
  (try dsimp only)
  repeat' (first | with_reducible assumption | with_reducible apply Kept.ite | with_reducible apply mtSync_kept | with_reducible apply mtPut_kept)

theorem mtBranch_kept (src : Nat) {s0 t : State} (h : Kept s0 t) :
    Kept s0 (mtBranch src t) := by
  unfold mtBranch
  (try dsimp only)
  repeat' (first | with_reducible assumption | with_reducible apply Kept.ite | with_reducible apply State.modMt_kept | with_reducible apply mtPacket_kept | with_reducible apply Kept.foldl | (intro _ _ _) | split)

theorem mtStopReq_kept (by_ : Nat) {s0 t : State} (h : Kept s0 t) :
    Kept s0 (mtStopReq by_ t) := by
  unfold mtStopReq
  (try dsimp only)
  repeat' (first | with_reducible assumption | with_reducible apply Kept.ite | with_reducible apply State.fset_kept | with_reducible apply State.modMt_kept | with_reducible apply mtFlush_kept | with_reducible apply mtEach_kept | with_reducible apply mtPacket_kept | with_reducible apply mtBranch_kept | with_reducible apply State.freshNat_kept | with_reducible apply State.raise_kept | with_reducible apply Kept.foldl | (intro _ _ _))

theorem xtOutputs_kept (ch : Nat) (fromLink : Bool) {s0 t : State} (h : Kept s0 t) :
    Kept s0 (xtOutputs ch fromLink t) := by
  unfold xtOutputs
  (try dsimp only)
  repeat' (first | with_reducible assumption | with_reducible apply Kept.ite | with_reducible apply pairHaltReq_kept | with_reducible apply State.emit_kept | with_reducible apply State.modLink_kept | with_reducible apply mtStartReq_kept | with_reducible apply mtStopReq_kept | with_reducible apply Kept.foldl | (intro _ _ _))

theorem stopRequestAt_kept (t1 : Nat) {s0 t : State} (h : Kept s0 t) :
    Kept s0 (stopRequestAt t1 t) := by
  unfold stopRequestAt
  repeat' (first | with_reducible assumption | with_reducible apply Kept.ite | with_reducible apply adoptFence_kept)

theorem stopRequest_kept {s0 t : State} (h : Kept s0 t) :
    Kept s0 (stopRequest t) := by
  unfold stopRequest
  repeat' (first | with_reducible assumption | with_reducible apply stopRequestAt_kept)

theorem ellipsisBegin_kept (st : SeqState) {s0 t : State} (h : Kept s0 t) :
    Kept s0 (ellipsisBegin st t) := by
  unfold ellipsisBegin
  (try dsimp only)
  repeat' (first | with_reducible assumption | (simp only [Kept.mk_eq]; with_reducible apply KeptF.of))

theorem ellipsisSample_kept {s0 t : State} (h : Kept s0 t) :
    Kept s0 (ellipsisSample t) := by
  unfold ellipsisSample
  (try dsimp only)
  repeat' (first | with_reducible assumption | with_reducible apply Kept.ite | (simp only [Kept.mk_eq]; with_reducible apply KeptF.of))

theorem seqHalt_kept (cause : Nat) {s0 t : State} (h : Kept s0 t) :
    Kept s0 (seqHalt cause t) := by
  unfold seqHalt
  (try dsimp only)
  repeat' (first | with_reducible assumption | with_reducible apply Kept.ite | with_reducible apply stopRequest_kept | with_reducible apply ellipsisBegin_kept | with_reducible apply ellipsisSample_kept | with_reducible apply State.raise_kept | with_reducible apply State.fset_kept | with_reducible apply xtOutputs_kept | (simp only [Kept.mk_eq]; with_reducible apply KeptF.of) | with_reducible apply Kept.foldl | (intro _ _ _))

theorem xtAssert_kept (fromLink : Bool) (at_ : Option Nat) (ch : Nat) {s0 t : State} (h : Kept s0 t) :
    Kept s0 (xtAssert fromLink at_ t ch) := by
  unfold xtAssert
  (try dsimp only)
  repeat' (first | with_reducible assumption | with_reducible apply Kept.ite | with_reducible apply xtOutputs_kept | with_reducible apply seqHalt_kept | (simp only [Kept.mk_eq]; with_reducible apply KeptF.of) | split)

theorem xtInput_kept (bit : Nat) {s0 t : State} (h : Kept s0 t) :
    Kept s0 (xtInput bit t) := by
  unfold xtInput
  repeat' (first | with_reducible assumption | with_reducible apply xtAssert_kept | with_reducible apply Kept.foldl | (intro _ _ _))

theorem seqStop_kept (reason : Nat) (at_ : Nat) (dev : Nat) {s0 t : State} (h : Kept s0 t) :
    Kept s0 (seqStop reason at_ dev t) := by
  unfold seqStop
  (try dsimp only)
  repeat' (first | with_reducible assumption | with_reducible apply Kept.ite | with_reducible apply xtInput_kept | with_reducible apply State.raise_kept | (simp only [Kept.mk_eq]; with_reducible apply KeptF.of))

theorem stopCheck_kept (n : Nat) {s0 t : State} (h : Kept s0 t) :
    Kept s0 (stopCheck n t) := by
  unfold stopCheck
  repeat' (first | with_reducible assumption | with_reducible apply Kept.ite | with_reducible apply seqStop_kept | split)

theorem afterStep_kept (n : Nat) (brk : Bool) {s0 t : State} (h : Kept s0 t) :
    Kept s0 (afterStep n brk t) := by
  unfold afterStep
  (try dsimp only)
  repeat' (first | with_reducible assumption | with_reducible apply Kept.ite | with_reducible apply stopCheck_kept | with_reducible apply seqHalt_kept | with_reducible apply ellipsisBegin_kept | split)

theorem agingCheck_kept (counts : List Word) {s0 t : State} (h : Kept s0 t) :
    Kept s0 (agingCheck counts t) := by
  unfold agingCheck
  (try dsimp only)
  repeat' (first | with_reducible assumption | with_reducible apply Kept.ite | with_reducible apply State.raise_kept | (simp only [Kept.mk_eq]; with_reducible apply KeptF.of))

theorem alertPin_kept (was : Bool) {s0 t : State} (h : Kept s0 t) :
    Kept s0 (alertPin was t) := by
  unfold alertPin
  repeat' (first | with_reducible assumption | with_reducible apply Kept.ite | with_reducible apply State.emit_kept)

theorem signal_kept (v : Nat) {s0 t : State} (h : Kept s0 t) :
    Kept s0 (signal v t) := by
  unfold signal
  (try dsimp only)
  repeat' (first | with_reducible assumption | with_reducible apply Kept.ite | with_reducible apply State.emit_kept | (simp only [Kept.mk_eq]; with_reducible apply KeptF.of))

theorem msixUnmask_kept {s0 t : State} (h : Kept s0 t) :
    Kept s0 (msixUnmask t) := by
  unfold msixUnmask
  (try dsimp only)
  repeat' (first | with_reducible assumption | with_reducible apply Kept.ite | with_reducible apply signal_kept | (simp only [Kept.mk_eq]; with_reducible apply KeptF.of) | with_reducible apply Kept.foldl | (intro _ _ _))

theorem msixWrite_kept (a : Nat) (w : Word) {s0 t : State} (h : Kept s0 t) :
    Kept s0 (msixWrite a w t) := by
  unfold msixWrite
  (try dsimp only)
  repeat' (first | with_reducible assumption | with_reducible apply Kept.ite | with_reducible apply msixUnmask_kept | (simp only [Kept.mk_eq]; with_reducible apply KeptF.of))

theorem writePlt_kept (i : Nat) (v : QWord) {s0 t u : State} (h : Kept s0 t)
    (e : writePlt i v t = some u) : Kept s0 u := by
  unfold writePlt at e
  (try dsimp only at e)
  repeat' (split at e)
  all_goals (try cases e)
  all_goals (repeat' (first | with_reducible assumption | with_reducible apply Kept.ite | (simp only [Kept.mk_eq]; with_reducible apply KeptF.of)))

theorem writeSec_kept (i : Nat) (v : QWord) {s0 t u : State} (h : Kept s0 t)
    (e : writeSec i v t = some u) : Kept s0 u := by
  unfold writeSec at e
  (try dsimp only at e)
  repeat' (split at e)
  all_goals (try cases e)
  all_goals (repeat' (first | with_reducible assumption | with_reducible apply Kept.ite | (simp only [Kept.mk_eq]; with_reducible apply KeptF.of)))

theorem writeMgt_kept (req : Requester) (i : Nat) (v : QWord) {s0 t u : State} (h : Kept s0 t)
    (e : writeMgt req i v t = some u) : Kept s0 u := by
  unfold writeMgt at e
  (try dsimp only at e)
  repeat' (split at e)
  all_goals (try cases e)
  all_goals (repeat' (first | with_reducible assumption | with_reducible apply Kept.ite | (simp only [Kept.mk_eq]; with_reducible apply KeptF.of)))

theorem writeHif_kept (i : Nat) (v : QWord) {s0 t u : State} (h : Kept s0 t)
    (e : writeHif i v t = some u) : Kept s0 u := by
  unfold writeHif at e
  (try dsimp only at e)
  repeat' (split at e)
  all_goals (try cases e)
  all_goals (repeat' (first | with_reducible assumption | with_reducible apply Kept.ite | with_reducible apply State.modRing_kept | with_reducible apply State.modDma_kept | (simp only [Kept.mk_eq]; with_reducible apply KeptF.of)))

theorem rtWrite_kept (k : Nat) (v : QWord) {s0 t : State} (h : Kept s0 t) :
    Kept s0 (rtWrite k v t) := by
  unfold rtWrite
  (try dsimp only)
  repeat' (first | with_reducible assumption | (simp only [Kept.mk_eq]; with_reducible apply KeptF.of))

theorem writeNoc_kept (i : Nat) (v : QWord) {s0 t u : State} (h : Kept s0 t)
    (e : writeNoc i v t = some u) : Kept s0 u := by
  unfold writeNoc at e
  (try dsimp only at e)
  repeat' (split at e)
  all_goals (try cases e)
  all_goals (repeat' (first | with_reducible assumption | with_reducible apply Kept.ite | with_reducible apply rtWrite_kept))

theorem stopatCheck_kept {s0 t : State} (h : Kept s0 t) :
    Kept s0 (stopatCheck t) := by
  unfold stopatCheck
  repeat' (first | with_reducible assumption | with_reducible apply Kept.ite | with_reducible apply State.raise_kept | with_reducible apply State.fset_kept)

theorem writeSeq_kept (i : Nat) (v : QWord) {s0 t u : State} (h : Kept s0 t)
    (e : writeSeq i v t = some u) : Kept s0 u := by
  unfold writeSeq at e
  (try dsimp only at e)
  repeat' (split at e)
  all_goals (try cases e)
  all_goals (repeat' (first | with_reducible assumption | with_reducible apply Kept.ite | with_reducible apply stopatCheck_kept | (simp only [Kept.mk_eq]; with_reducible apply KeptF.of)))

theorem writeSch_kept (i : Nat) (v : QWord) {s0 t u : State} (h : Kept s0 t)
    (e : writeSch i v t = some u) : Kept s0 u := by
  unfold writeSch at e
  (try dsimp only at e)
  repeat' (split at e)
  all_goals (try cases e)
  all_goals (repeat' (first | with_reducible assumption | with_reducible apply Kept.ite | (simp only [Kept.mk_eq]; with_reducible apply KeptF.of)))

theorem writeLnk_kept (l : Nat) (i : Nat) (v : QWord) {s0 t u : State} (h : Kept s0 t)
    (e : writeLnk l i v t = some u) : Kept s0 u := by
  unfold writeLnk at e
  (try dsimp only at e)
  repeat' (split at e)
  all_goals (try cases e)
  all_goals (repeat' (first | with_reducible assumption | with_reducible apply Kept.ite | with_reducible apply ctlPut_kept))

theorem writeMem_kept (i : Nat) (v : QWord) {s0 t u : State} (h : Kept s0 t)
    (e : writeMem i v t = some u) : Kept s0 u := by
  unfold writeMem at e
  (try dsimp only at e)
  repeat' (split at e)
  all_goals (try cases e)
  all_goals (repeat' (first | with_reducible assumption | with_reducible apply Kept.ite | (simp only [Kept.mk_eq]; with_reducible apply KeptF.of)))

theorem writeCap_kept (i : Nat) (v : QWord) {s0 t u : State} (h : Kept s0 t)
    (e : writeCap i v t = some u) : Kept s0 u := by
  unfold writeCap at e
  (try dsimp only at e)
  repeat' (split at e)
  all_goals (try cases e)
  all_goals (repeat' (first | with_reducible assumption | with_reducible apply Kept.ite | (simp only [Kept.mk_eq]; with_reducible apply KeptF.of)))

theorem writeDbg_kept (req : Requester) (i : Nat) (v : QWord) {s0 t u : State} (h : Kept s0 t)
    (e : writeDbg req i v t = some u) : Kept s0 u := by
  unfold writeDbg at e
  (try dsimp only at e)
  repeat' (split at e)
  all_goals (try cases e)
  all_goals (repeat' (first | with_reducible assumption | with_reducible apply Kept.ite | with_reducible apply State.modPair_kept | (simp only [Kept.mk_eq]; with_reducible apply KeptF.of)))

theorem itemWrite_kept (req : Requester) (page : Nat) (i : Nat) (v : QWord) {s0 t u : State} (h : Kept s0 t)
    (e : itemWrite req page i v t = some u) : Kept s0 u := by
  unfold itemWrite at e
  (try dsimp only at e)
  repeat' (split at e)
  all_goals (try cases e)
  all_goals (repeat' (first | with_reducible assumption | (refine writePlt_kept _ _ ?_ (by assumption)) | (refine writeSec_kept _ _ ?_ (by assumption)) | (refine writeMgt_kept _ _ _ ?_ (by assumption)) | (refine writeHif_kept _ _ ?_ (by assumption)) | (refine writeNoc_kept _ _ ?_ (by assumption)) | (refine writeSeq_kept _ _ ?_ (by assumption)) | (refine writeSch_kept _ _ ?_ (by assumption)) | (refine writeLnk_kept _ _ _ ?_ (by assumption)) | (refine writeMem_kept _ _ ?_ (by assumption)) | (refine writeCap_kept _ _ ?_ (by assumption)) | (refine writeDbg_kept _ _ _ ?_ (by assumption))))

theorem stageIgnored_kept {s0 t : State} (h : Kept s0 t) :
    Kept s0 (stageIgnored t) := by
  unfold stageIgnored
  (try dsimp only)
  repeat' (first | with_reducible assumption | (simp only [Kept.mk_eq]; with_reducible apply KeptF.of))

theorem mbxWrite_kept (req : Requester) (page : Nat) (ctx : Nat) (i : Nat) (tag : Nat) {s0 t : State} (h : Kept s0 t) :
    Kept s0 (mbxWrite req page ctx i tag t) := by
  unfold mbxWrite
  (try dsimp only)
  repeat' (first | with_reducible assumption | with_reducible apply Kept.ite | with_reducible apply State.setMbx_kept | with_reducible apply stageIgnored_kept | (refine itemWrite_kept _ _ _ _ ?_ (by assumption)) | split)

theorem readPlt_kept (i : Nat) {s0 t u : State} {rv} (h : Kept s0 t)
    (e : readPlt i t = some (rv, u)) : Kept s0 u := by
  unfold readPlt at e
  (try dsimp only at e)
  repeat' (split at e)
  all_goals (try cases e)
  all_goals (repeat' (first | with_reducible assumption))

theorem readSec_kept (i : Nat) {s0 t u : State} {rv} (h : Kept s0 t)
    (e : readSec i t = some (rv, u)) : Kept s0 u := by
  unfold readSec at e
  split at e
  · exact some_kept e h
  · split at e
    · dsimp only at e
      split at e
      · exact some_kept e h
      · exact some_kept e h
    · split at e
      · split at e
        · exact some_kept e h
        · exact some_kept e h
      · cases e

theorem readMgt_kept (i : Nat) {s0 t u : State} {rv} (h : Kept s0 t)
    (e : readMgt i t = some (rv, u)) : Kept s0 u := by
  unfold readMgt at e
  (try dsimp only at e)
  repeat' (split at e)
  all_goals (try cases e)
  all_goals (repeat' (first | with_reducible assumption))

theorem readHif_kept (i : Nat) {s0 t u : State} {rv} (h : Kept s0 t)
    (e : readHif i t = some (rv, u)) : Kept s0 u := by
  unfold readHif at e
  (try dsimp only at e)
  repeat' (split at e)
  all_goals (try cases e)
  all_goals (repeat' (first | with_reducible assumption))

theorem readNoc_kept (i : Nat) {s0 t u : State} {rv} (h : Kept s0 t)
    (e : readNoc i t = some (rv, u)) : Kept s0 u := by
  unfold readNoc at e
  (try dsimp only at e)
  repeat' (split at e)
  all_goals (try cases e)
  all_goals (repeat' (first | with_reducible assumption | with_reducible apply Kept.ite | with_reducible apply State.fresh_kept | with_reducible apply State.freshNat_kept))

theorem readSeq_kept (i : Nat) {s0 t u : State} {rv} (h : Kept s0 t)
    (e : readSeq i t = some (rv, u)) : Kept s0 u := by
  unfold readSeq at e
  (try dsimp only at e)
  repeat' (split at e)
  all_goals (try cases e)
  all_goals (repeat' (first | with_reducible assumption | with_reducible apply Kept.ite | with_reducible apply State.fresh_kept))

theorem readSch_kept (i : Nat) {s0 t u : State} {rv} (h : Kept s0 t)
    (e : readSch i t = some (rv, u)) : Kept s0 u := by
  unfold readSch at e
  (try dsimp only at e)
  repeat' (split at e)
  all_goals (try cases e)
  all_goals (repeat' (first | with_reducible assumption))

theorem readCls_kept (c : Nat) (i : Nat) {s0 t u : State} {rv} (h : Kept s0 t)
    (e : readCls c i t = some (rv, u)) : Kept s0 u := by
  unfold readCls at e
  (try dsimp only at e)
  repeat' (split at e)
  all_goals (try cases e)
  all_goals (repeat' (first | with_reducible assumption))

theorem readFab_kept (i : Nat) {s0 t u : State} {rv} (h : Kept s0 t)
    (e : readFab i t = some (rv, u)) : Kept s0 u := by
  unfold readFab at e
  (try dsimp only at e)
  repeat' (split at e)
  all_goals (try cases e)
  all_goals (repeat' (first | with_reducible assumption))

theorem readLnk_kept (l : Nat) (i : Nat) {s0 t u : State} {rv} (h : Kept s0 t)
    (e : readLnk l i t = some (rv, u)) : Kept s0 u := by
  unfold readLnk at e
  (try dsimp only at e)
  repeat' (split at e)
  all_goals (try cases e)
  all_goals (repeat' (first | with_reducible assumption))

theorem readMem_kept (i : Nat) {s0 t u : State} {rv} (h : Kept s0 t)
    (e : readMem i t = some (rv, u)) : Kept s0 u := by
  unfold readMem at e
  (try dsimp only at e)
  repeat' (split at e)
  all_goals (try cases e)
  all_goals (repeat' (first | with_reducible assumption))

theorem readRim_kept (i : Nat) {s0 t u : State} {rv} (h : Kept s0 t)
    (e : readRim i t = some (rv, u)) : Kept s0 u := by
  unfold readRim at e
  (try dsimp only at e)
  repeat' (split at e)
  all_goals (try cases e)
  all_goals (repeat' (first | with_reducible assumption | with_reducible apply Kept.ite | with_reducible apply State.freshNat_kept))

theorem readCap_kept (i : Nat) {s0 t u : State} {rv} (h : Kept s0 t)
    (e : readCap i t = some (rv, u)) : Kept s0 u := by
  unfold readCap at e
  (try dsimp only at e)
  repeat' (split at e)
  all_goals (try cases e)
  all_goals (repeat' (first | with_reducible assumption))

theorem readDbg_kept (req : Requester) (i : Nat) {s0 t u : State} {rv} (h : Kept s0 t)
    (e : readDbg req i t = some (rv, u)) : Kept s0 u := by
  unfold readDbg at e
  (try dsimp only at e)
  repeat' (split at e)
  all_goals (try cases e)
  all_goals (repeat' (first | with_reducible assumption))

theorem itemRead_kept (req : Requester) (page : Nat) (i : Nat) {s0 t u : State} {rv} (h : Kept s0 t)
    (e : itemRead req page i t = some (rv, u)) : Kept s0 u := by
  unfold itemRead at e
  split at e
  · exact readPlt_kept _ h e
  · exact readSec_kept _ h e
  · exact readMgt_kept _ h e
  · exact readHif_kept _ h e
  · exact readNoc_kept _ h e
  · exact readSeq_kept _ h e
  · exact readSch_kept _ h e
  · obtain ⟨c, -, e⟩ := bind_opt e
    exact readCls_kept _ _ h e
  · exact readFab_kept _ h e
  · split at e
    · exact readLnk_kept _ _ h e
    · split at e
      · cases e; exact h
      · cases e
  · exact readMem_kept _ h e
  · exact readRim_kept _ h e
  · exact readCap_kept _ h e
  · exact readDbg_kept _ _ h e
  · cases e

theorem mbxRead_kept (req : Requester) (page : Nat) (ctx : Nat) (i : Nat) (tag : Nat) {s0 t : State} (h : Kept s0 t) :
    Kept s0 (mbxRead req page ctx i tag t) := by
  unfold mbxRead
  repeat' (first | with_reducible assumption | with_reducible apply State.setMbx_kept | (refine itemRead_kept _ _ _ ?_ (by assumption)) | split)

theorem mbxSel_kept (req : Requester) (page : Nat) (ctx : Nat) (w : Word) {s0 t : State} (h : Kept s0 t) :
    Kept s0 (mbxSel req page ctx w t) := by
  unfold mbxSel
  repeat' (first | with_reducible assumption | with_reducible apply Kept.ite | with_reducible apply mbxWrite_kept | with_reducible apply mbxRead_kept)

theorem mbxRegWrite_kept (req : Requester) (a : Nat) (w : Word) {s0 t u : State} (h : Kept s0 t)
    (e : mbxRegWrite req a w t = .ok u) : Kept s0 u := by
  unfold mbxRegWrite at e
  (try dsimp only at e)
  repeat' (split at e)
  all_goals (try cases e)
  all_goals (repeat' (first | with_reducible assumption | with_reducible apply Kept.ite | with_reducible apply State.setMbx_kept | with_reducible apply mbxSel_kept))

theorem freqSwitch_kept (old : Nat) (new : Nat) {s0 t : State} (h : Kept s0 t) :
    Kept s0 (freqSwitch old new t) := by
  unfold freqSwitch
  repeat' (first | with_reducible assumption | with_reducible apply State.raise_kept | with_reducible apply State.fset_kept)

theorem oppStart_kept (new : Nat) {s0 t : State} (h : Kept s0 t) :
    Kept s0 (oppStart new t) := by
  unfold oppStart
  (try dsimp only)
  repeat' (first | with_reducible assumption | with_reducible apply Kept.ite | with_reducible apply State.fset_kept | with_reducible apply freqSwitch_kept | (simp only [Kept.mk_eq]; with_reducible apply KeptF.of))

theorem oppWrite_kept (code : Nat) {s0 t : State} (h : Kept s0 t) :
    Kept s0 (oppWrite code t) := by
  unfold oppWrite
  (try dsimp only)
  repeat' (first | with_reducible assumption | with_reducible apply Kept.ite | with_reducible apply State.fset_kept | with_reducible apply oppStart_kept | (simp only [Kept.mk_eq]; with_reducible apply KeptF.of))

theorem throttleApply_kept {s0 t : State} (h : Kept s0 t) :
    Kept s0 (throttleApply t) := by
  unfold throttleApply
  (try dsimp only)
  repeat' (first | with_reducible assumption | with_reducible apply Kept.ite | with_reducible apply State.fset_kept | with_reducible apply State.raise_kept | with_reducible apply alertPin_kept)

theorem thrminWrite_kept (level : Nat) {s0 t : State} (h : Kept s0 t) :
    Kept s0 (thrminWrite level t) := by
  unfold thrminWrite
  repeat' (first | with_reducible assumption | with_reducible apply throttleApply_kept | with_reducible apply State.fset_kept)

theorem sscWrite_kept (on : Bool) {s0 t : State} (h : Kept s0 t) :
    Kept s0 (sscWrite on t) := by
  unfold sscWrite
  (try dsimp only)
  repeat' (first | with_reducible assumption | with_reducible apply Kept.ite | with_reducible apply State.fsetb_kept | (simp only [Kept.mk_eq]; with_reducible apply KeptF.of))

theorem switchStart_kept {s0 t : State} (h : Kept s0 t) :
    Kept s0 (switchStart t) := by
  unfold switchStart
  (try dsimp only)
  repeat' (first | with_reducible assumption | with_reducible apply State.fset_kept | (simp only [Kept.mk_eq]; with_reducible apply KeptF.of))

theorem swreq_kept {s0 t : State} (h : Kept s0 t) :
    Kept s0 (swreq t) := by
  unfold swreq
  repeat' (first | with_reducible assumption | with_reducible apply Kept.ite | with_reducible apply switchStart_kept | with_reducible apply State.fset_kept)

theorem gateReport_kept (d : Nat) (on : Bool) (result : Nat) {s0 t : State} (h : Kept s0 t) :
    Kept s0 (gateReport d on result t) := by
  unfold gateReport
  repeat' (first | with_reducible assumption | with_reducible apply State.raise_kept | with_reducible apply State.fset_kept)

theorem linkOff_kept (l : Nat) {s0 t : State} (h : Kept s0 t) :
    Kept s0 (linkOff l t) := by
  unfold linkOff
  (try dsimp only)
  repeat' (first | with_reducible assumption | with_reducible apply State.fset_kept | with_reducible apply State.setLink_kept)

theorem dropFields_kept (lo : Nat) (hi : Nat) {s0 t : State} (h : Kept s0 t) :
    Kept s0 (dropFields lo hi t) := by
  unfold dropFields
  repeat' (first | with_reducible assumption | (simp only [Kept.mk_eq]; with_reducible apply KeptF.of))

theorem rimHalfLoses_kept (h_ : Nat) {s0 t : State} (h : Kept s0 t) :
    Kept s0 (rimHalfLoses h_ t) := by
  unfold rimHalfLoses
  (try dsimp only)
  repeat' (first | with_reducible assumption | (simp only [Kept.mk_eq]; with_reducible apply KeptF.of))

theorem domainLoses_kept (d : Nat) {s0 t : State} (h : Kept s0 t) :
    Kept s0 (domainLoses d t) := by
  unfold domainLoses
  (try dsimp only)
  repeat' (first | with_reducible assumption | with_reducible apply Kept.ite | with_reducible apply State.fset_kept | with_reducible apply dropFields_kept | with_reducible apply State.setLink_kept | with_reducible apply State.modClause_kept | with_reducible apply State.modBank_kept | with_reducible apply rimHalfLoses_kept | (simp only [Kept.mk_eq]; with_reducible apply KeptF.of) | (simp only [Kept.mk_eq]; with_reducible apply KeptF.dropMem) | with_reducible apply Kept.foldl | (intro _ _ _))

theorem gateDomain_kept (d : Nat) {s0 t : State} (h : Kept s0 t) :
    Kept s0 (gateDomain d t) := by
  unfold gateDomain
  (try dsimp only)
  repeat' (first | with_reducible assumption | with_reducible apply Kept.ite | with_reducible apply State.fset_kept | with_reducible apply linkOff_kept | with_reducible apply domainLoses_kept | (simp only [Kept.mk_eq]; with_reducible apply KeptF.of) | with_reducible apply Kept.foldl | (intro _ _ _))

theorem gateRequest_kept (d : Nat) (on : Bool) {s0 t : State} (h : Kept s0 t) :
    Kept s0 (gateRequest d on t) := by
  unfold gateRequest
  (try dsimp only)
  repeat' (first | with_reducible assumption | with_reducible apply Kept.ite | with_reducible apply gateReport_kept | with_reducible apply State.fsetb_kept | with_reducible apply State.fset_kept | with_reducible apply gateDomain_kept | (simp only [Kept.mk_eq]; with_reducible apply KeptF.of) | split)

theorem plainWrite_kept (a : Nat) (r : RRow) (w : Word) {s0 t : State} (h : Kept s0 t) :
    Kept s0 (plainWrite a r w t) := by
  unfold plainWrite
  repeat' (first | with_reducible assumption | with_reducible apply State.fset_kept | with_reducible apply Kept.foldl | (intro _ _ _) | split)

theorem loadPhraseMap_kept {s0 t : State} (h : Kept s0 t) :
    Kept s0 (loadPhraseMap t) := by
  unfold loadPhraseMap
  (try dsimp only)
  repeat' (first | with_reducible assumption | with_reducible apply Kept.ite | with_reducible apply State.modClause_kept | with_reducible apply Kept.foldl | (intro _ _ _))

theorem resetBlocks_kept {s0 t : State} (h : Kept s0 t) :
    Kept s0 (resetBlocks t) := loadPhraseMap_kept ⟨h.pending, fun _ => rfl, h.flash, fun _ => Nat.zero_le _, h.fuses⟩

theorem bootRead_kept (b : Boot) {s0 t : State} (h : Kept s0 t) :
    Kept s0 (bootRead b t) := by
  unfold bootRead
  (try dsimp only)
  repeat' (first | with_reducible assumption | with_reducible apply State.fset_kept | (simp only [Kept.mk_eq]; with_reducible apply KeptF.of))

theorem bootSelect_kept {s0 t : State} (h : Kept s0 t) :
    Kept s0 (bootSelect t) := by
  unfold bootSelect
  repeat' (first | with_reducible assumption | with_reducible apply bootRead_kept | with_reducible apply State.fset_kept | split)

theorem deviceReset_kept (cause : ResetCause) {s0 t : State} (h : Kept s0 t) :
    Kept s0 (deviceReset cause t) := by
  unfold deviceReset
  (try dsimp only)
  repeat' (first | with_reducible assumption | with_reducible apply resetBlocks_kept | with_reducible apply State.fset_kept | with_reducible apply bootSelect_kept | (simp only [Kept.mk_eq]; with_reducible apply KeptF.of) | split)

theorem rstKey_kept (req : Requester) (key : BitVec 16) {s0 t : State} (h : Kept s0 t) :
    Kept s0 (rstKey req key t) := by
  unfold rstKey
  (try dsimp only)
  repeat' (first | with_reducible assumption | with_reducible apply Kept.ite | with_reducible apply deviceReset_kept | (simp only [Kept.mk_eq]; with_reducible apply KeptF.of) | split)

theorem writePltReg_kept (req : Requester) (o : Nat) (a : Nat) (r : RRow) (w : Word) {s0 t : State} (h : Kept s0 t) :
    Kept s0 (writePltReg req o a r w t) := by
  unfold writePltReg
  (try dsimp only)
  repeat' (first | with_reducible assumption | with_reducible apply Kept.ite | with_reducible apply oppWrite_kept | with_reducible apply thrminWrite_kept | with_reducible apply State.fset_kept | with_reducible apply sscWrite_kept | with_reducible apply swreq_kept | with_reducible apply gateRequest_kept | with_reducible apply plainWrite_kept | with_reducible apply alertPin_kept | with_reducible apply rstKey_kept | (simp only [Kept.mk_eq]; with_reducible apply KeptF.of) | split)

theorem tokenReport_kept (slot : Nat) (part : Nat) (what : Nat) (result : Nat) {s0 t : State} (h : Kept s0 t) :
    Kept s0 (tokenReport slot part what result t) := by
  unfold tokenReport
  repeat' (first | with_reducible assumption | with_reducible apply State.raise_kept | with_reducible apply State.fset_kept)

theorem tokenBoth_kept (slot : Nat) {s0 t : State} (h : Kept s0 t) :
    Kept s0 (tokenBoth slot t) := by
  unfold tokenBoth
  repeat' (first | with_reducible assumption | with_reducible apply tokenReport_kept | with_reducible apply State.freshNat_kept)

theorem tokenLoad_kept (slot : Nat) {s0 t : State} (h : Kept s0 t) :
    Kept s0 (tokenLoad slot t) := by
  unfold tokenLoad
  (try dsimp only)
  repeat' (first | with_reducible assumption | with_reducible apply tokenReport_kept | (simp only [Kept.mk_eq]; with_reducible apply KeptF.of) | split)

end Sys2Proof.Machine
end

