-- ==== Sys2Proof/Laws/Kept2.lean ====
section
/-! SUPPORT. Kept2.lean: each operation keeps what `Kept` names, part 2. -/
set_option Elab.async false
namespace Sys2Proof.Machine

theorem tokenUnload_kept (slot : Nat) {s0 t : State} (h : Kept s0 t) :
    Kept s0 (tokenUnload slot t) := by
  unfold tokenUnload
  (try dsimp only)
  repeat' (first | with_reducible assumption | with_reducible apply tokenReport_kept | with_reducible apply State.freshNat_kept | (simp only [Kept.mk_eq]; with_reducible apply KeptF.of) | split)

theorem epochErase_kept {s0 t : State} (h : Kept s0 t) :
    Kept s0 (epochErase t) := by
  unfold epochErase
  (try dsimp only)
  repeat' (first | with_reducible assumption | with_reducible apply Kept.ite | with_reducible apply State.raise_kept | (simp only [Kept.mk_eq]; with_reducible apply KeptF.of))

theorem fuseProgram_kept (req : Requester) (word : Nat) (readBackOk : Bool) {s0 t : State} (h : Kept s0 t) :
    Kept s0 (fuseProgram req word readBackOk t) := by
  unfold fuseProgram
  (try dsimp only)
  repeat' (first | with_reducible assumption | with_reducible apply Kept.ite | with_reducible apply State.fset_kept | with_reducible apply State.raise_kept | with_reducible apply State.fresh_kept | with_reducible apply epochErase_kept | (simp only [Kept.mk_eq]; with_reducible apply KeptF.of) | (simp only [Kept.mk_eq]; with_reducible apply KeptF.setFuse) | with_reducible apply Kept.foldl | (intro _ _ _) | (split))

theorem writeSecReg_kept (req : Requester) (o : Nat) (a : Nat) (r : RRow) (w : Word) {s0 t : State} (h : Kept s0 t) :
    Kept s0 (writeSecReg req o a r w t) := by
  unfold writeSecReg
  (try dsimp only)
  repeat' (first | with_reducible assumption | with_reducible apply Kept.ite | with_reducible apply tokenBoth_kept | with_reducible apply tokenLoad_kept | with_reducible apply tokenUnload_kept | with_reducible apply plainWrite_kept | with_reducible apply fuseProgram_kept | split)

theorem mmodeOnly_kept (req : Requester) (t1 : State) {s0 t : State} (ht1 : Kept s0 t1) (h : Kept s0 t) :
    Kept s0 (mmodeOnly req t1 t).2 := by
  unfold mmodeOnly
  repeat' (first | with_reducible assumption | with_reducible apply Kept.ite | split)

theorem codebaseSet_kept (secbase : Nat) {s0 t : State} (h : Kept s0 t) :
    Kept s0 (codebaseSet secbase t) := by
  unfold codebaseSet
  (try dsimp only)
  repeat' (first | with_reducible assumption | with_reducible apply State.freshNat_kept | with_reducible apply State.modPair_kept | with_reducible apply State.fset_kept | (simp only [Kept.mk_eq]; with_reducible apply KeptF.of))

theorem wdtWrite_kept (p : Nat) (en : Bool) (timeout : Nat) {s0 t : State} (h : Kept s0 t) :
    Kept s0 (wdtWrite p en timeout t) := by
  unfold wdtWrite
  (try dsimp only)
  repeat' (first | with_reducible assumption | with_reducible apply Kept.ite | with_reducible apply State.fset_kept)

theorem wdtKick_kept (p : Nat) (key : BitVec 16) {s0 t : State} (h : Kept s0 t) :
    Kept s0 (wdtKick p key t) := by
  unfold wdtKick
  repeat' (first | with_reducible assumption | with_reducible apply Kept.ite | with_reducible apply State.modPair_kept)

theorem svcRespond_kept (slot : Nat) (status : Nat) (ev : Nat) (d : List Nat) {s0 t : State} (h : Kept s0 t) :
    Kept s0 (svcRespond slot status ev d t) := by
  unfold svcRespond
  (try dsimp only)
  repeat' (first | with_reducible assumption | with_reducible apply Kept.ite | with_reducible apply State.fresh_kept | with_reducible apply State.raise_kept | with_reducible apply State.fset_kept | (simp only [Kept.mk_eq]; with_reducible apply KeptF.of))

theorem svcUnlisted_kept {s0 t : State} (h : Kept s0 t) :
    Kept s0 (svcUnlisted t) := by
  unfold svcUnlisted
  (try dsimp only)
  repeat' (first | with_reducible assumption | with_reducible apply Kept.ite | with_reducible apply svcRespond_kept | with_reducible apply Kept.foldl | (intro _ _ _))

theorem fpSwap_kept {s0 t : State} (h : Kept s0 t) :
    Kept s0 (fpSwap t) := by
  unfold fpSwap
  (try dsimp only)
  repeat' (first | with_reducible assumption | with_reducible apply State.fsetb_kept | (simp only [Kept.mk_eq]; with_reducible apply KeptF.of))

theorem fpApply_kept {s0 t : State} (h : Kept s0 t) :
    Kept s0 (fpApply t) := by
  unfold fpApply
  (try dsimp only)
  repeat' (first | with_reducible assumption | with_reducible apply Kept.ite | with_reducible apply State.fset_kept | with_reducible apply fpSwap_kept | (simp only [Kept.mk_eq]; with_reducible apply KeptF.of))

theorem flashCmd_kept (op : Nat) {s0 t : State} (h : Kept s0 t) :
    Kept s0 (flashCmd op t) := by
  unfold flashCmd
  (try dsimp only)
  repeat' (first | with_reducible assumption | with_reducible apply Kept.ite | with_reducible apply State.fset_kept | (simp only [Kept.mk_eq]; with_reducible apply KeptF.of))

theorem swapAnswer_kept {s0 t : State} (h : Kept s0 t) :
    Kept s0 (swapAnswer t) := by
  unfold swapAnswer
  repeat' (first | with_reducible assumption | with_reducible apply Kept.ite | with_reducible apply svcRespond_kept | with_reducible apply Kept.foldl | (intro _ _ _))

theorem swapOk_kept {s0 t : State} (h : Kept s0 t) :
    Kept s0 (swapOk t) := by
  unfold swapOk
  (try dsimp only)
  repeat' (first | with_reducible assumption | with_reducible apply State.fset_kept | with_reducible apply swapAnswer_kept | with_reducible apply State.raise_kept | (simp only [Kept.mk_eq]; with_reducible apply KeptF.of) | split)

theorem writeMgtReg_kept (req : Requester) (o : Nat) (a : Nat) (r : RRow) (w : Word) {s0 t : State} (h : Kept s0 t) :
    Kept s0 (writeMgtReg req o a r w t).2 := by
  unfold writeMgtReg
  repeat' (first | with_reducible assumption | with_reducible apply Kept.ite | with_reducible apply mmodeOnly_kept | with_reducible apply codebaseSet_kept | with_reducible apply wdtWrite_kept | with_reducible apply wdtKick_kept | with_reducible apply svcUnlisted_kept | with_reducible apply State.fset_kept | with_reducible apply fpApply_kept | with_reducible apply flashCmd_kept | with_reducible apply plainWrite_kept | with_reducible apply swapOk_kept | with_reducible apply stageIgnored_kept | split)

theorem ringFields_kept (r : Nat) (w : Word) {s0 t : State} (h : Kept s0 t) :
    Kept s0 (ringFields r w t) := by
  unfold ringFields
  (try dsimp only)
  repeat' (first | with_reducible assumption | with_reducible apply Kept.ite | with_reducible apply State.fset_kept)

theorem ringEnable_kept (r : Nat) (w : Word) {s0 t : State} (h : Kept s0 t) :
    Kept s0 (ringEnable r w t) := by
  unfold ringEnable
  (try dsimp only)
  repeat' (first | with_reducible assumption | with_reducible apply Kept.ite | with_reducible apply ringFields_kept | with_reducible apply State.fset_kept | with_reducible apply State.modRing_kept)

theorem ringDisable_kept (r : Nat) (w : Word) {s0 t : State} (h : Kept s0 t) :
    Kept s0 (ringDisable r w t) := by
  unfold ringDisable
  repeat' (first | with_reducible assumption | with_reducible apply Kept.ite | with_reducible apply State.fset_kept | with_reducible apply ringFields_kept)

theorem dmaFields_kept (c : Nat) (w : Word) {s0 t : State} (h : Kept s0 t) :
    Kept s0 (dmaFields c w t) := by
  unfold dmaFields
  (try dsimp only)
  repeat' (first | with_reducible assumption | with_reducible apply Kept.ite | with_reducible apply State.fset_kept)

theorem dmaEnable_kept (c : Nat) (w : Word) {s0 t : State} (h : Kept s0 t) :
    Kept s0 (dmaEnable c w t) := by
  unfold dmaEnable
  repeat' (first | with_reducible assumption | with_reducible apply Kept.ite | with_reducible apply State.modDma_kept | with_reducible apply State.fset_kept | with_reducible apply dmaFields_kept)

theorem dmaDisable_kept (c : Nat) (w : Word) {s0 t : State} (h : Kept s0 t) :
    Kept s0 (dmaDisable c w t) := by
  unfold dmaDisable
  repeat' (first | with_reducible assumption | with_reducible apply Kept.ite | with_reducible apply State.modDma_kept | with_reducible apply State.fset_kept | with_reducible apply dmaFields_kept)

theorem writeHifReg_kept (o : Nat) (a : Nat) (r : RRow) (w : Word) {s0 t : State} (h : Kept s0 t) :
    Kept s0 (writeHifReg o a r w t) := by
  unfold writeHifReg
  (try dsimp only)
  repeat' (first | with_reducible assumption | with_reducible apply Kept.ite | with_reducible apply ringEnable_kept | with_reducible apply ringDisable_kept | with_reducible apply dmaEnable_kept | with_reducible apply dmaDisable_kept | with_reducible apply plainWrite_kept)

theorem nocAgree_kept (tag : Nat) {s0 t : State} (h : Kept s0 t) :
    Kept s0 (nocAgree tag t) := by
  unfold nocAgree
  (try dsimp only)
  repeat' (first | with_reducible assumption | with_reducible apply Kept.ite | with_reducible apply State.fset_kept | with_reducible apply State.raise_kept | with_reducible apply State.fsetb_kept | (simp only [Kept.mk_eq]; with_reducible apply KeptF.of) | split)

theorem rimAnswer_kept (x : RimRsp) {s0 t : State} (h : Kept s0 t) :
    Kept s0 (rimAnswer x t) := by
  unfold rimAnswer
  (try dsimp only)
  repeat' (first | with_reducible assumption | with_reducible apply Kept.ite | with_reducible apply State.emit_kept | (simp only [Kept.mk_eq]; with_reducible apply KeptF.of))

theorem send_kept (r : Nat) (p : Packet) {s0 t : State} (h : Kept s0 t) :
    Kept s0 (send r p t) := by
  unfold send
  repeat' (first | with_reducible assumption | with_reducible apply State.setWaitq_kept)

theorem rimIssue_kept (x : RimReq) {s0 t u : State} (h : Kept s0 t)
    (e : rimIssue x t = some u) : Kept s0 u := by
  unfold rimIssue at e
  (try dsimp only at e)
  repeat' (split at e)
  all_goals (try cases e)
  all_goals (repeat' (first | with_reducible assumption | with_reducible apply Kept.ite | with_reducible apply rimAnswer_kept | with_reducible apply send_kept | (simp only [Kept.mk_eq]; with_reducible apply KeptF.of)))

theorem rimIssueAll_kept (a0 : List RimReq) (a1 : List Nat) (a2 : List RimReq) {s0 t : State} (h : Kept s0 t) :
    Kept s0 (rimIssueAll a0 a1 a2 t) := by
  induction a0 generalizing a1 a2 t with
  | nil => exact KeptF.of h
  | cons x l ih =>
    unfold rimIssueAll
    split
    · exact ih _ _ h
    · split
      · rename_i hs
        exact ih _ _ (rimIssue_kept _ h hs)
      · exact ih _ _ h

theorem nocPump_kept {s0 t : State} (h : Kept s0 t) :
    Kept s0 (nocPump t) := by
  unfold nocPump
  (try dsimp only)
  repeat' (first | with_reducible assumption | with_reducible apply rimAnswer_kept | with_reducible apply rimIssueAll_kept | (simp only [Kept.mk_eq]; with_reducible apply KeptF.of) | with_reducible apply Kept.foldl | (intro _ _ _))

theorem rtFlip_kept {s0 t : State} (h : Kept s0 t) :
    Kept s0 (rtFlip t) := by
  unfold rtFlip
  (try dsimp only)
  repeat' (first | with_reducible assumption | with_reducible apply Kept.ite | with_reducible apply State.fset_kept | with_reducible apply State.freshNat_kept | with_reducible apply State.raise_kept | split)

theorem writeNocReg_kept (o : Nat) (a : Nat) (r : RRow) (w : Word) {s0 t : State} (h : Kept s0 t) :
    Kept s0 (writeNocReg o a r w t) := by
  unfold writeNocReg
  (try dsimp only)
  repeat' (first | with_reducible assumption | with_reducible apply Kept.ite | with_reducible apply nocAgree_kept | with_reducible apply State.fset_kept | with_reducible apply nocPump_kept | with_reducible apply rtFlip_kept | with_reducible apply plainWrite_kept | split)

theorem seqStopat_kept {s0 t : State} (h : Kept s0 t) :
    Kept s0 (seqStopat t) := by
  unfold seqStopat
  repeat' (first | with_reducible assumption | with_reducible apply stopatCheck_kept | with_reducible apply State.fset_kept)

theorem sigEpoch_kept (bit : Nat) {s0 t : State} (h : Kept s0 t) :
    Kept s0 (sigEpoch bit t) := by
  unfold sigEpoch
  repeat' (first | with_reducible assumption | with_reducible apply Kept.ite | with_reducible apply State.modSig_kept)

theorem latchTokens_kept {s0 t : State} (h : Kept s0 t) :
    Kept s0 (latchTokens t) := by
  unfold latchTokens
  split
  · exact h
  · have g := sigEpoch_kept 3 h
    exact ⟨g.pending, g.mem, g.flash, g.held, h.fuses⟩

theorem seqGo_kept (bits : Nat) {s0 t : State} (h : Kept s0 t) :
    Kept s0 (seqGo bits t) := by
  unfold seqGo
  (try dsimp only)
  repeat' (first | with_reducible assumption | with_reducible apply Kept.ite | with_reducible apply State.raise_kept | with_reducible apply stopatCheck_kept | with_reducible apply latchTokens_kept | with_reducible apply ellipsisBegin_kept | (simp only [Kept.mk_eq]; with_reducible apply KeptF.of) | (refine State.runRefused_kept  ?_ (by assumption)) | split)

theorem seqStopWrite_kept {s0 t : State} (h : Kept s0 t) :
    Kept s0 (seqStopWrite t) := by
  unfold seqStopWrite
  repeat' (first | with_reducible assumption | with_reducible apply stopRequest_kept)

theorem seqCtl_kept (en : Option Bool) (w : Word) {s0 t : State} (h : Kept s0 t) :
    Kept s0 (seqCtl en w t) := by
  unfold seqCtl
  (try dsimp only)
  repeat' (first | with_reducible assumption | with_reducible apply Kept.ite | with_reducible apply seqStopat_kept | with_reducible apply State.fset_kept | with_reducible apply seqGo_kept | with_reducible apply seqStopWrite_kept | split)

theorem writeSeqReg_kept (o : Nat) (a : Nat) (r : RRow) (w : Word) {s0 t : State} (h : Kept s0 t) :
    Kept s0 (writeSeqReg o a r w t) := by
  unfold writeSeqReg
  repeat' (first | with_reducible assumption | with_reducible apply Kept.ite | with_reducible apply seqCtl_kept | with_reducible apply plainWrite_kept | split)

theorem paramWrote_kept (req : Requester) {s0 t : State} (h : Kept s0 t) :
    Kept s0 (paramWrote req t) := by
  unfold paramWrote
  (try dsimp only)
  repeat' (first | with_reducible assumption | (simp only [Kept.mk_eq]; with_reducible apply KeptF.of) | split)

theorem schParamPost_kept {s0 t : State} (h : Kept s0 t) :
    Kept s0 (schParamPost t) := by
  unfold schParamPost
  (try dsimp only)
  repeat' (first | with_reducible assumption | with_reducible apply State.raise_kept | (simp only [Kept.mk_eq]; with_reducible apply KeptF.of))

theorem dictWrite_kept (c : Nat) (e : Nat) (v : Word) {s0 t : State} (h : Kept s0 t) :
    Kept s0 (dictWrite c e v t) := by
  unfold dictWrite
  repeat' (first | with_reducible assumption | with_reducible apply State.modClause_kept)

theorem patchSwap_kept {s0 t : State} (h : Kept s0 t) :
    Kept s0 (patchSwap t) := by
  unfold patchSwap
  refine sigEpoch_kept _ (Kept.foldl (fun u k hu => ?_) h)
  dsimp only
  by_cases h3 : puMode (u.puAddr k) = 3
  · simp only [if_pos h3]
    exact KeptF.of (State.fset_kept (F.SCH_PU_MODE k) 0 (dictWrite_kept (puClause (u.puAddr k)) (puIndex (u.puAddr k)) (BitVec.setWidth 32 (kvGet 0#128 u.sch.stgW k)) hu))
  · simp only [if_neg h3]
    exact KeptF.of hu

theorem patchReport_kept (result : Nat) (reason : Nat) (unit : Nat) (step : List Nat) {s0 t : State} (h : Kept s0 t) :
    Kept s0 (patchReport result reason unit step t) := by
  unfold patchReport
  (try dsimp only)
  repeat' (first | with_reducible assumption | with_reducible apply State.raise_kept | with_reducible apply State.fset_kept | (simp only [Kept.mk_eq]; with_reducible apply KeptF.of))

theorem patchFinish_kept (loadTime : Bool) {s0 t : State} (h : Kept s0 t) :
    Kept s0 (patchFinish loadTime t) := by
  unfold patchFinish
  (try dsimp only)
  repeat' (first | with_reducible assumption | with_reducible apply Kept.ite | with_reducible apply State.freshNat_kept | with_reducible apply patchSwap_kept | with_reducible apply patchReport_kept | with_reducible apply State.fresh64_kept | split)

theorem patchNow_kept {s0 t : State} (h : Kept s0 t) :
    Kept s0 (patchNow t) := by
  unfold patchNow
  repeat' (first | with_reducible assumption | with_reducible apply Kept.ite | with_reducible apply patchFinish_kept)

theorem patchApply_kept {s0 t : State} (h : Kept s0 t) :
    Kept s0 (patchApply t) := by
  unfold patchApply
  (try dsimp only)
  repeat' (first | with_reducible assumption | with_reducible apply Kept.ite | with_reducible apply State.freshNat_kept | with_reducible apply State.fresh64_kept | with_reducible apply State.raise_kept | with_reducible apply State.fset_kept | with_reducible apply patchNow_kept | (simp only [Kept.mk_eq]; with_reducible apply KeptF.of))

theorem bootOk_kept {s0 t : State} (h : Kept s0 t) :
    Kept s0 (bootOk t) := by
  unfold bootOk
  (try dsimp only)
  repeat' (first | with_reducible assumption | with_reducible apply Kept.ite | with_reducible apply State.fset_kept | with_reducible apply State.freshNat_kept | with_reducible apply State.raise_kept | (simp only [Kept.mk_eq]; with_reducible apply KeptF.of) | split)

theorem setSchMark_kept (c : Nat) (row : Nat) (word : Nat) (m : Nat) {s0 t : State} (h : Kept s0 t) :
    Kept s0 (setSchMark c row word m t) := by
  unfold setSchMark
  repeat' (first | with_reducible assumption | with_reducible apply State.modClause_kept)

theorem schCorrected_kept (c : Nat) (row : Nat) (word : Nat) (byScrub : Bool) {s0 t : State} (h : Kept s0 t) :
    Kept s0 (schCorrected c row word byScrub t) := by
  unfold schCorrected
  (try dsimp only)
  repeat' (first | with_reducible assumption | with_reducible apply Kept.ite | with_reducible apply State.modClause_kept | with_reducible apply State.count_kept | with_reducible apply State.raise_kept | with_reducible apply sparingSeen_kept)

theorem rmapCopy_kept (c : Nat) (row : Nat) {s0 t : State} (h : Kept s0 t) :
    Kept s0 (rmapCopy c row t) := by
  unfold rmapCopy
  (try dsimp only)
  repeat' (first | with_reducible assumption | with_reducible apply Kept.ite | with_reducible apply State.freshNat_kept | with_reducible apply State.raise_kept | with_reducible apply State.modClause_kept | with_reducible apply setSchMark_kept | with_reducible apply schCorrected_kept | with_reducible apply Kept.foldl | (intro _ _ _) | split)

theorem putLocation_kept (c : Nat) (row : Nat) (word : Nat) (v : QWord) {s0 t : State} (h : Kept s0 t) :
    Kept s0 (putLocation c row word v t) := by
  unfold putLocation
  (try dsimp only)
  repeat' (first | with_reducible assumption | with_reducible apply Kept.ite | with_reducible apply State.modClause_kept)

theorem copyAsRead_kept (c : Nat) (row : Nat) (word : Nat) {s0 t : State} (h : Kept s0 t) :
    Kept s0 (copyAsRead c row word t) := by
  unfold copyAsRead
  (try dsimp only)
  repeat' (first | with_reducible assumption | with_reducible apply State.fresh_kept | with_reducible apply setSchMark_kept | with_reducible apply putLocation_kept)

theorem rmapEnd_kept (mismatches : Nat) {s0 t : State} (h : Kept s0 t) :
    Kept s0 (rmapEnd mismatches t) := by
  unfold rmapEnd
  (try dsimp only)
  repeat' (first | with_reducible assumption | with_reducible apply Kept.ite | with_reducible apply rmapCopy_kept | with_reducible apply State.fset_kept | with_reducible apply State.pick_kept | with_reducible apply rmapReport_kept | with_reducible apply copyAsRead_kept | with_reducible apply State.modClause_kept | (simp only [Kept.mk_eq]; with_reducible apply KeptF.of) | with_reducible apply Kept.foldl | (intro _ _ _) | split)

theorem lretEnd_kept (mismatches : Nat) {s0 t : State} (h : Kept s0 t) :
    Kept s0 (lretEnd mismatches t) := by
  unfold lretEnd
  (try dsimp only)
  repeat' (first | with_reducible assumption | with_reducible apply Kept.ite | with_reducible apply memCe_kept | with_reducible apply State.fset_kept | with_reducible apply lretReport_kept | (simp only [Kept.mk_eq]; with_reducible apply KeptF.of) | split)

theorem copyPage_kept (from_ : Nat) (to_ : Nat) {s0 t : State} (h : Kept s0 t) :
    Kept s0 (copyPage from_ to_ t) := ⟨h.pending, fun x => memFold_wf _ _ _ (memFilter_wf _ (h.mem x)), h.flash, h.held, h.fuses⟩

theorem hretEnd_kept (mismatches : Nat) {s0 t : State} (h : Kept s0 t) :
    Kept s0 (hretEnd mismatches t) := by
  unfold hretEnd
  (try dsimp only)
  repeat' (first | with_reducible assumption | with_reducible apply Kept.ite | with_reducible apply memCe_kept | with_reducible apply State.fset_kept | with_reducible apply hretReport_kept | with_reducible apply copyPage_kept | (simp only [Kept.mk_eq]; with_reducible apply KeptF.of) | with_reducible apply Kept.foldl | (intro _ _ _) | split)

theorem reapply_kept (b : List Byte) {s0 t : State} (h : Kept s0 t) :
    Kept s0 (reapply t b) := by
  unfold reapply
  (try dsimp only)
  repeat' (first | with_reducible assumption | with_reducible apply Kept.ite | with_reducible apply spareGo_kept | with_reducible apply rmapEnd_kept | with_reducible apply rmapGo_kept | with_reducible apply State.modConn_kept | with_reducible apply lretEnd_kept | with_reducible apply lretGo_kept | with_reducible apply hretEnd_kept | with_reducible apply hretGo_kept | with_reducible apply State.fset_kept | split)

theorem bootConfirm_kept {s0 t : State} (h : Kept s0 t) :
    Kept s0 (bootConfirm t) := by
  unfold bootConfirm
  (try dsimp only)
  repeat' (first | with_reducible assumption | with_reducible apply Kept.ite | with_reducible apply bootOk_kept | with_reducible apply State.raise_kept | with_reducible apply reapply_kept | with_reducible apply Kept.foldl | (intro _ _ _))

theorem writeSchReg_kept (req : Requester) (o : Nat) (a : Nat) (r : RRow) (w : Word) {s0 t : State} (h : Kept s0 t) :
    Kept s0 (writeSchReg req o a r w t) := by
  unfold writeSchReg
  repeat' (first | with_reducible assumption | with_reducible apply Kept.ite | with_reducible apply paramWrote_kept | with_reducible apply State.fset_kept | with_reducible apply plainWrite_kept | with_reducible apply schParamPost_kept | with_reducible apply rmapGo_kept | with_reducible apply patchApply_kept | with_reducible apply bootConfirm_kept | split)

theorem writeClsReg_kept (c : Nat) (o : Nat) (a : Nat) (r : RRow) (w : Word) {s0 t : State} (h : Kept s0 t) :
    Kept s0 (writeClsReg c o a r w t) := by
  unfold writeClsReg
  repeat' (first | with_reducible assumption | with_reducible apply Kept.ite | with_reducible apply spareGo_kept | with_reducible apply plainWrite_kept)

theorem isoApply_kept {s0 t : State} (h : Kept s0 t) :
    Kept s0 (isoApply t) := by
  unfold isoApply
  (try dsimp only)
  repeat' (first | with_reducible assumption | with_reducible apply Kept.ite | with_reducible apply State.modClause_kept | with_reducible apply State.fset_kept | with_reducible apply State.raise_kept | (simp only [Kept.mk_eq]; with_reducible apply KeptF.of) | split)

theorem isoWrite_kept (iso : Bool) (rel : Bool) (xinj : Bool) (c : Nat) {s0 t : State} (h : Kept s0 t) :
    Kept s0 (isoWrite iso rel xinj c t) := by
  unfold isoWrite
  (try dsimp only)
  repeat' (first | with_reducible assumption | with_reducible apply Kept.ite | with_reducible apply isoApply_kept | with_reducible apply State.fset_kept | with_reducible apply State.raise_kept | (simp only [Kept.mk_eq]; with_reducible apply KeptF.of) | split)

theorem writeFabReg_kept (o : Nat) (a : Nat) (r : RRow) (w : Word) {s0 t : State} (h : Kept s0 t) :
    Kept s0 (writeFabReg o a r w t) := by
  unfold writeFabReg
  repeat' (first | with_reducible assumption | with_reducible apply Kept.ite | with_reducible apply fabAgree_kept | with_reducible apply isoWrite_kept | with_reducible apply plainWrite_kept | split)

theorem linkTo_kept (st : LnkState) (l : Nat) {s0 t : State} (h : Kept s0 t) :
    Kept s0 (linkTo st l t) := by
  unfold linkTo
  repeat' (first | with_reducible assumption | with_reducible apply State.modLink_kept)

theorem linkTrain_kept (l : Nat) {s0 t : State} (h : Kept s0 t) :
    Kept s0 (linkTrain l t) := by
  unfold linkTrain
  repeat' (first | with_reducible assumption | with_reducible apply State.modLink_kept | with_reducible apply linkTo_kept)

theorem linkEnable_kept (l : Nat) {s0 t : State} (h : Kept s0 t) :
    Kept s0 (linkEnable l t) := by
  unfold linkEnable
  (try dsimp only)
  repeat' (first | with_reducible assumption | with_reducible apply Kept.ite | with_reducible apply State.fset_kept | with_reducible apply linkTrain_kept)

theorem linkDisable_kept (l : Nat) {s0 t : State} (h : Kept s0 t) :
    Kept s0 (linkDisable l t) := by
  unfold linkDisable
  repeat' (first | with_reducible assumption | with_reducible apply linkOff_kept | with_reducible apply State.fset_kept)

theorem writeLnkReg_kept (l : Nat) (o : Nat) (a : Nat) (r : RRow) (w : Word) {s0 t : State} (h : Kept s0 t) :
    Kept s0 (writeLnkReg l o a r w t) := by
  unfold writeLnkReg
  (try dsimp only)
  repeat' (first | with_reducible assumption | with_reducible apply Kept.ite | with_reducible apply State.fset_kept | with_reducible apply linkEnable_kept | with_reducible apply linkDisable_kept | with_reducible apply lnkSpareGo_kept | with_reducible apply plainWrite_kept | split)

theorem devnumStart_kept {s0 t : State} (h : Kept s0 t) :
    Kept s0 (devnumStart t) := by
  unfold devnumStart
  (try dsimp only)
  repeat' (first | with_reducible assumption | with_reducible apply State.fset_kept | (simp only [Kept.mk_eq]; with_reducible apply KeptF.of))

theorem devnumWrite_kept (w : Word) {s0 t : State} (h : Kept s0 t) :
    Kept s0 (devnumWrite w t) := by
  unfold devnumWrite
  (try dsimp only)
  repeat' (first | with_reducible assumption | with_reducible apply Kept.ite | with_reducible apply State.fset_kept | with_reducible apply devnumStart_kept | (simp only [Kept.mk_eq]; with_reducible apply KeptF.of))

theorem calStart_kept (mask : Nat) (go : Bool) {s0 t : State} (h : Kept s0 t) :
    Kept s0 (calStart mask go t) := by
  unfold calStart
  (try dsimp only)
  repeat' (first | with_reducible assumption | with_reducible apply Kept.ite | with_reducible apply State.fset_kept | (simp only [Kept.mk_eq]; with_reducible apply KeptF.of))

theorem writeMemReg_kept (o : Nat) (a : Nat) (r : RRow) (w : Word) {s0 t : State} (h : Kept s0 t) :
    Kept s0 (writeMemReg o a r w t) := by
  unfold writeMemReg
  repeat' (first | with_reducible assumption | with_reducible apply Kept.ite | with_reducible apply State.fset_kept | with_reducible apply lretGo_kept | with_reducible apply plainWrite_kept | with_reducible apply hretGo_kept | with_reducible apply calStart_kept | split)

theorem rimParamPost_kept {s0 t : State} (h : Kept s0 t) :
    Kept s0 (rimParamPost t) := by
  unfold rimParamPost
  (try dsimp only)
  repeat' (first | with_reducible assumption | with_reducible apply State.raise_kept | (simp only [Kept.mk_eq]; with_reducible apply KeptF.of))

theorem prcReport_kept (r : Nat) (what : Nat) (result : Nat) {s0 t : State} (h : Kept s0 t) :
    Kept s0 (prcReport r what result t) := by
  unfold prcReport
  repeat' (first | with_reducible assumption | with_reducible apply State.raise_kept | with_reducible apply State.fset_kept)

theorem prcBoth_kept (r : Nat) {s0 t : State} (h : Kept s0 t) :
    Kept s0 (prcBoth r t) := by
  unfold prcBoth
  (try dsimp only)
  repeat' (first | with_reducible assumption | with_reducible apply State.fset_kept | with_reducible apply prcReport_kept | with_reducible apply State.freshNat_kept)

theorem regionTo_kept (r : Nat) (st : RegionState) {s0 t : State} (h : Kept s0 t) :
    Kept s0 (regionTo r st t) := by
  unfold regionTo
  (try dsimp only)
  repeat' (first | with_reducible assumption | (simp only [Kept.mk_eq]; with_reducible apply KeptF.of))

theorem regionFence_kept (r : Nat) {s0 t : State} (h : Kept s0 t) :
    Kept s0 (regionFence r t) := by
  unfold regionFence
  (try dsimp only)
  repeat' (first | with_reducible assumption | with_reducible apply regionTo_kept | (simp only [Kept.mk_eq]; with_reducible apply KeptF.of))

theorem rimFence_kept (r : Nat) {s0 t : State} (h : Kept s0 t) :
    Kept s0 (rimFence r t) := by
  unfold rimFence
  (try dsimp only)
  repeat' (first | with_reducible assumption | with_reducible apply Kept.ite | with_reducible apply State.fset_kept | with_reducible apply prcReport_kept | with_reducible apply regionFence_kept)

theorem safeReport_kept (r : Nat) {s0 t : State} (h : Kept s0 t) :
    Kept s0 (safeReport r t) := by
  unfold safeReport
  (try dsimp only)
  repeat' (first | with_reducible assumption | with_reducible apply State.raise_kept | with_reducible apply State.modGroup_kept | with_reducible apply Kept.foldl | (intro _ _ _) | split)

theorem rimRelease_kept (r : Nat) {s0 t : State} (h : Kept s0 t) :
    Kept s0 (rimRelease r t) := by
  unfold rimRelease
  (try dsimp only)
  repeat' (first | with_reducible assumption | with_reducible apply Kept.ite | with_reducible apply State.fset_kept | with_reducible apply prcReport_kept | with_reducible apply safeReport_kept | with_reducible apply regionTo_kept | split)

theorem rimIoRaise_kept (k : Nat) (payload : List Nat) {s0 t : State} (h : Kept s0 t) :
    Kept s0 (rimIoRaise k payload t) := by
  unfold rimIoRaise
  (try dsimp only)
  repeat' (first | with_reducible assumption | with_reducible apply Kept.ite | with_reducible apply State.fset_kept | (simp only [Kept.mk_eq]; with_reducible apply KeptF.of))

theorem bankReport_kept (b : Nat) (what : Nat) (result : Nat) {s0 t : State} (h : Kept s0 t) :
    Kept s0 (bankReport b what result t) := by
  unfold bankReport
  repeat' (first | with_reducible assumption | with_reducible apply rimIoRaise_kept | with_reducible apply State.fset_kept)

theorem rimDis_kept (b : Nat) {s0 t : State} (h : Kept s0 t) :
    Kept s0 (rimDis b t) := by
  unfold rimDis
  (try dsimp only)
  repeat' (first | with_reducible assumption | with_reducible apply bankReport_kept | with_reducible apply State.modBank_kept | split)

theorem rimRel_kept (b : Nat) (dis : Bool) {s0 t : State} (h : Kept s0 t) :
    Kept s0 (rimRel b dis t) := by
  unfold rimRel
  repeat' (first | with_reducible assumption | with_reducible apply Kept.ite | with_reducible apply bankReport_kept | with_reducible apply State.modBank_kept)

theorem writeRimReg_kept (req : Requester) (o : Nat) (a : Nat) (r : RRow) (w : Word) {s0 t : State} (h : Kept s0 t) :
    Kept s0 (writeRimReg req o a r w t) := by
  unfold writeRimReg
  (try dsimp only)
  repeat' (first | with_reducible assumption | with_reducible apply Kept.ite | with_reducible apply paramWrote_kept | with_reducible apply State.fset_kept | with_reducible apply rimParamPost_kept | with_reducible apply prcBoth_kept | with_reducible apply rimFence_kept | with_reducible apply rimRelease_kept | with_reducible apply plainWrite_kept | with_reducible apply rimDis_kept | with_reducible apply rimRel_kept | with_reducible apply Kept.foldl | (intro _ _ _) | split)

theorem modeBusy_kept (stream : Nat) {s0 t : State} (h : Kept s0 t) :
    Kept s0 (modeBusy stream t) := by
  unfold modeBusy
  repeat' (first | with_reducible assumption | with_reducible apply State.raise_kept)

theorem sigStartReq_kept (cause : Nat) (unit : Nat) {s0 t : State} (h : Kept s0 t) :
    Kept s0 (sigStartReq cause unit t) := by
  unfold sigStartReq
  (try dsimp only)
  repeat' (first | with_reducible assumption | with_reducible apply Kept.ite | with_reducible apply State.fset_kept | with_reducible apply State.raise_kept | with_reducible apply State.modSig_kept | split)

theorem sigStopReq_kept (cause : Nat) (unit : Nat) (next : Nat) {s0 t : State} (h : Kept s0 t) :
    Kept s0 (sigStopReq cause unit next t) := by
  unfold sigStopReq
  (try dsimp only)
  repeat' (first | with_reducible assumption | with_reducible apply Kept.ite | with_reducible apply State.modSig_kept | with_reducible apply State.fset_kept)

theorem tuWerr_kept (u : Nat) {s0 t : State} (h : Kept s0 t) :
    Kept s0 (tuWerr u t) := by
  unfold tuWerr
  repeat' (first | with_reducible assumption | with_reducible apply State.fset_kept)

theorem tuCtlFields_kept (u : Nat) (w : Word) {s0 t : State} (h : Kept s0 t) :
    Kept s0 (tuCtlFields u w t) := by
  unfold tuCtlFields
  repeat' (first | with_reducible assumption | with_reducible apply State.fset_kept)

theorem tuEnable_kept (u : Nat) (w : Word) {s0 t : State} (h : Kept s0 t) :
    Kept s0 (tuEnable u w t) := by
  unfold tuEnable
  (try dsimp only)
  repeat' (first | with_reducible assumption | with_reducible apply Kept.ite | with_reducible apply tuWerr_kept | with_reducible apply tuCtlFields_kept | with_reducible apply State.raise_kept | with_reducible apply State.fset_kept | with_reducible apply State.modUnit_kept)

theorem tuDisable_kept (u : Nat) {s0 t : State} (h : Kept s0 t) :
    Kept s0 (tuDisable u t) := by
  unfold tuDisable
  repeat' (first | with_reducible assumption | with_reducible apply State.modUnit_kept | with_reducible apply State.fset_kept)

theorem tuCtlWrite_kept (u : Nat) (w : Word) {s0 t : State} (h : Kept s0 t) :
    Kept s0 (tuCtlWrite u w t) := by
  unfold tuCtlWrite
  repeat' (first | with_reducible assumption | with_reducible apply Kept.ite | with_reducible apply tuEnable_kept | with_reducible apply tuCtlFields_kept | with_reducible apply tuDisable_kept)

theorem tuRegWrite_kept (u : Nat) (off : Nat) (w : Word) {s0 t : State} (h : Kept s0 t) :
    Kept s0 (tuRegWrite u off w t) := by
  unfold tuRegWrite
  repeat' (first | with_reducible assumption | with_reducible apply Kept.ite | with_reducible apply tuCtlWrite_kept | with_reducible apply tuWerr_kept | with_reducible apply State.fset_kept | split)

theorem writeCapReg_kept (o : Nat) (a : Nat) (r : RRow) (w : Word) {s0 t : State} (h : Kept s0 t) :
    Kept s0 (writeCapReg o a r w t) := by
  unfold writeCapReg
  (try dsimp only)
  repeat' (first | with_reducible assumption | with_reducible apply Kept.ite | with_reducible apply State.fset_kept | with_reducible apply modeBusy_kept | with_reducible apply sigStartReq_kept | with_reducible apply sigStopReq_kept | with_reducible apply mtStartReq_kept | with_reducible apply mtStopReq_kept | with_reducible apply tuRegWrite_kept | with_reducible apply plainWrite_kept)

theorem wref_kept {s0 t : State} (h : Kept s0 t) :
    Kept s0 (wref t) := by
  unfold wref
  repeat' (first | with_reducible assumption | with_reducible apply State.fset_kept)

theorem atLevel_kept (req : Requester) (l : Nat) (t1 : State) {s0 t : State} (ht1 : Kept s0 t1) (h : Kept s0 t) :
    Kept s0 (atLevel req l t1 t) := by
  unfold atLevel
  repeat' (first | with_reducible assumption | with_reducible apply Kept.ite | with_reducible apply wref_kept)

theorem sleepEnd_kept {s0 t : State} (h : Kept s0 t) :
    Kept s0 (sleepEnd t) := by
  unfold sleepEnd
  (try dsimp only)
  repeat' (first | with_reducible assumption | with_reducible apply Kept.ite | with_reducible apply domainLoses_kept | (simp only [Kept.mk_eq]; with_reducible apply KeptF.of) | with_reducible apply Kept.foldl | (intro _ _ _))

theorem authReport_kept (p : Path) (level : Nat) (method : Nat) (result : Nat) {s0 t : State} (h : Kept s0 t) :
    Kept s0 (authReport p level method result t) := by
  unfold authReport
  (try dsimp only)
  repeat' (first | with_reducible assumption | with_reducible apply Kept.ite | with_reducible apply State.fset_kept | with_reducible apply State.raise_kept)

theorem mtWatch_kept (src : Nat) {s0 t : State} (h : Kept s0 t) :
    Kept s0 (mtWatch src t) := by
  unfold mtWatch
  (try dsimp only)
  repeat' (first | with_reducible assumption | with_reducible apply Kept.ite | with_reducible apply State.modMt_kept | with_reducible apply mtSync_kept | with_reducible apply mtPacket_kept)

theorem mtHalt_kept (src : Nat) (entry : Bool) {s0 t : State} (h : Kept s0 t) :
    Kept s0 (mtHalt src entry t) := by
  unfold mtHalt
  repeat' (first | with_reducible assumption | with_reducible apply Kept.ite | with_reducible apply mtFlush_kept | with_reducible apply mtPacket_kept | with_reducible apply mtBranch_kept | with_reducible apply mtSync_kept)

theorem pairResume_kept (p : Nat) (cause : Nat) {s0 t : State} (h : Kept s0 t) :
    Kept s0 (pairResume p cause t) := by
  unfold pairResume
  repeat' (first | with_reducible assumption | with_reducible apply Kept.ite | with_reducible apply mtHalt_kept | with_reducible apply State.raise_kept | with_reducible apply State.modPair_kept)

theorem ellipsisClose_kept {s0 t : State} (h : Kept s0 t) :
    Kept s0 (ellipsisClose t) := by
  unfold ellipsisClose
  (try dsimp only)
  repeat' (first | with_reducible assumption | with_reducible apply State.fset_kept | (simp only [Kept.mk_eq]; with_reducible apply KeptF.of))

theorem lateStop_kept (f : Nat) (dev : Nat) {s0 t : State} (h : Kept s0 t) :
    Kept s0 (lateStop f dev t) := by
  unfold lateStop
  (try dsimp only)
  repeat' (first | with_reducible assumption | with_reducible apply Kept.ite | with_reducible apply State.raise_kept | with_reducible apply ellipsisClose_kept | with_reducible apply seqStop_kept | (simp only [Kept.mk_eq]; with_reducible apply KeptF.of))

theorem seqResume_kept (cause : Nat) {s0 t : State} (h : Kept s0 t) :
    Kept s0 (seqResume cause t) := by
  unfold seqResume
  (try dsimp only)
  repeat' (first | with_reducible assumption | with_reducible apply Kept.ite | with_reducible apply ellipsisSample_kept | with_reducible apply State.raise_kept | with_reducible apply lateStop_kept | (simp only [Kept.mk_eq]; with_reducible apply KeptF.of) | split)

theorem levelFell_kept {s0 t : State} (h : Kept s0 t) :
    Kept s0 (levelFell t) := by
  unfold levelFell
  (try dsimp only)
  repeat' (first | with_reducible assumption | with_reducible apply Kept.ite | with_reducible apply pairResume_kept | with_reducible apply sleepEnd_kept | with_reducible apply seqResume_kept | with_reducible apply Kept.foldl | (intro _ _ _))

theorem setLevel_kept (p : Path) (l : Nat) {s0 t : State} (h : Kept s0 t) :
    Kept s0 (setLevel p l t) := by
  unfold setLevel
  (try dsimp only)
  repeat' (first | with_reducible assumption | with_reducible apply Kept.ite | with_reducible apply mtWatch_kept | with_reducible apply levelFell_kept | (simp only [Kept.mk_eq]; with_reducible apply KeptF.of))

theorem keyxEnd_kept (k : Keyx) (result : Nat) {s0 t : State} (h : Kept s0 t) :
    Kept s0 (keyxEnd k result t) := by
  unfold keyxEnd
  (try dsimp only)
  repeat' (first | with_reducible assumption | with_reducible apply authReport_kept | (simp only [Kept.mk_eq]; with_reducible apply KeptF.of))

theorem authKeyx_kept (p : Path) (level : Nat) {s0 t : State} (h : Kept s0 t) :
    Kept s0 (authKeyx p level t) := by
  unfold authKeyx
  (try dsimp only)
  repeat' (first | with_reducible assumption | with_reducible apply Kept.ite | with_reducible apply authReport_kept | with_reducible apply setLevel_kept | with_reducible apply keyxEnd_kept | (simp only [Kept.mk_eq]; with_reducible apply KeptF.of) | split)

theorem authPassword_kept (p : Path) (level : Nat) {s0 t : State} (h : Kept s0 t) :
    Kept s0 (authPassword p level t) := by
  unfold authPassword
  (try dsimp only)
  repeat' (first | with_reducible assumption | with_reducible apply Kept.ite | with_reducible apply authReport_kept | with_reducible apply setLevel_kept | with_reducible apply State.fset_kept | with_reducible apply State.raise_kept | (simp only [Kept.mk_eq]; with_reducible apply KeptF.of))

theorem writeAuth_kept (req : Requester) (a : Nat) (r : RRow) (w : Word) {s0 t : State} (h : Kept s0 t) :
    Kept s0 (writeAuth req a r w t) := by
  unfold writeAuth
  (try dsimp only)
  repeat' (first | with_reducible assumption | with_reducible apply Kept.ite | with_reducible apply plainWrite_kept | with_reducible apply authKeyx_kept | with_reducible apply authPassword_kept | with_reducible apply setLevel_kept | split)

theorem oppDone_kept {s0 t : State} (h : Kept s0 t) :
    Kept s0 (oppDone t) := by
  unfold oppDone
  (try dsimp only)
  repeat' (first | with_reducible assumption | with_reducible apply State.fset_kept | with_reducible apply oppStart_kept | (simp only [Kept.mk_eq]; with_reducible apply KeptF.of) | split)

theorem clockBoundary_kept {s0 t : State} (h : Kept s0 t) :
    Kept s0 (clockBoundary t) := by
  unfold clockBoundary
  (try dsimp only)
  repeat' (first | with_reducible assumption | with_reducible apply oppDone_kept | with_reducible apply freqSwitch_kept | (simp only [Kept.mk_eq]; with_reducible apply KeptF.of) | split)

theorem breakStep_kept (n : Nat) (us : List Nat) {s0 t : State} (h : Kept s0 t) :
    Kept s0 (breakStep n us t) := by
  unfold breakStep
  (try dsimp only)
  repeat' (first | with_reducible assumption | with_reducible apply State.raise_kept | with_reducible apply Kept.foldl | (intro _ _ _))

theorem loadReturns_kept (n : Nat) {s0 t : State} (h : Kept s0 t) :
    Kept s0 (loadReturns n t) := by
  unfold loadReturns
  (try dsimp only)
  repeat' (first | with_reducible assumption | with_reducible apply Kept.ite | with_reducible apply State.modClause_kept | (simp only [Kept.mk_eq]; with_reducible apply KeptF.of) | with_reducible apply Kept.foldl | (intro _ _ _))

theorem sigPut_kept (ws : List DWord) {s0 t : State} (h : Kept s0 t) :
    Kept s0 (sigPut ws t) := by
  unfold sigPut
  repeat' (first | with_reducible assumption | with_reducible apply State.modSig_kept)

theorem sigMark_kept (stop : Bool) (cause : Nat) (unit : Nat) (step : Nat) {s0 t : State} (h : Kept s0 t) :
    Kept s0 (sigMark stop cause unit step t) := by
  unfold sigMark
  repeat' (first | with_reducible assumption | with_reducible apply sigPut_kept)

theorem sigPad_kept {s0 t : State} (h : Kept s0 t) :
    Kept s0 (sigPad t) := by
  unfold sigPad
  repeat' (first | with_reducible assumption | with_reducible apply sigPut_kept)

theorem sigSync_kept (step : Nat) {s0 t : State} (h : Kept s0 t) :
    Kept s0 (sigSync step t) := by
  unfold sigSync
  (try dsimp only)
  repeat' (first | with_reducible assumption | with_reducible apply State.modSig_kept | with_reducible apply sigPut_kept | with_reducible apply sigPad_kept)

theorem sigBegin_kept (n : Nat) {s0 t : State} (h : Kept s0 t) :
    Kept s0 (sigBegin n t) := by
  unfold sigBegin
  repeat' (first | with_reducible assumption | with_reducible apply sigMark_kept | with_reducible apply sigSync_kept | with_reducible apply State.modSig_kept | with_reducible apply State.fset_kept | split)

theorem upset_kept (u : Upset) {s0 t : State} (h : Kept s0 t) :
    Kept s0 (upset t u) := by
  unfold upset
  (try dsimp only)
  repeat' (first | with_reducible assumption | with_reducible apply Kept.ite | with_reducible apply State.modClause_kept | with_reducible apply State.setMark_kept | with_reducible apply State.fresh_kept | with_reducible apply State.store_kept | (simp only [Kept.mk_eq]; with_reducible apply KeptF.of) | split)

theorem upsets_kept (ups : List Upset) {s0 t : State} (h : Kept s0 t) :
    Kept s0 (upsets ups t) := by
  unfold upsets
  repeat' (first | with_reducible assumption | with_reducible apply upset_kept | with_reducible apply Kept.foldl | (intro _ _ _))

theorem schUe_kept (c : Nat) (n : Nat) (loc : Nat) (kind : Nat) {s0 t : State} (h : Kept s0 t) :
    Kept s0 (schUe c n loc kind t) := by
  unfold schUe
  repeat' (first | with_reducible assumption | with_reducible apply State.raise_kept | with_reducible apply State.modClause_kept | with_reducible apply State.count_kept)

theorem holdReads_kept (c : Nat) (n : Nat) (p : Nat) {s0 t : State} (h : Kept s0 t) :
    Kept s0 (holdReads c n p t) := by
  unfold holdReads
  (try dsimp only)
  repeat' (first | with_reducible assumption | with_reducible apply Kept.ite | with_reducible apply schUe_kept | with_reducible apply State.raise_kept | with_reducible apply Kept.foldl | (intro _ _ _))

theorem schReads_kept (c : Nat) (n : Nat) (p : Nat) {s0 t : State} (h : Kept s0 t) :
    Kept s0 (schReads c n p t) := by
  unfold schReads
  (try dsimp only)
  repeat' (first | with_reducible assumption | with_reducible apply Kept.ite | with_reducible apply holdReads_kept | with_reducible apply State.modClause_kept | with_reducible apply schCorrected_kept | with_reducible apply schUe_kept | with_reducible apply Kept.foldl | (intro _ _ _))

theorem linkFree_kept (n : Nat) (l : Nat) {s0 t : State} (h : Kept s0 t) :
    Kept s0 (linkFree n l t) := by
  unfold linkFree
  repeat' (first | with_reducible assumption | with_reducible apply Kept.ite | with_reducible apply State.modLink_kept)

theorem linkAnnounce_kept (l : Nat) {s0 t : State} (h : Kept s0 t) :
    Kept s0 (linkAnnounce l t) := by
  unfold linkAnnounce
  (try dsimp only)
  repeat' (first | with_reducible assumption | with_reducible apply Kept.ite | with_reducible apply State.modLink_kept)

theorem linkFrame_kept (l : Nat) (sstep : Nat) (idle : Bool) (payload : List Val) {s0 t : State} (h : Kept s0 t) :
    Kept s0 (linkFrame l sstep idle payload t).2 := by
  unfold linkFrame
  (try dsimp only)
  repeat' (first | with_reducible assumption | with_reducible apply Kept.ite | with_reducible apply linkAnnounce_kept | with_reducible apply State.modLink_kept)

theorem linkWire_kept (l : Nat) (bits : List Bool) {s0 t : State} (h : Kept s0 t) :
    Kept s0 (linkWire l bits t) := by
  unfold linkWire
  (try dsimp only)
  repeat' (first | with_reducible assumption | with_reducible apply Kept.ite | with_reducible apply State.modLink_kept | with_reducible apply State.emit_kept)

theorem linkEmit_kept (l : Nat) (f : Superframe) {s0 t : State} (h : Kept s0 t) :
    Kept s0 (linkEmit l f t) := by
  unfold linkEmit
  repeat' (first | with_reducible assumption | with_reducible apply linkWire_kept | with_reducible apply State.emit_kept)

theorem linkSend_kept (n : Nat) (out : Nat → Val) (l : Nat) {s0 t : State} (h : Kept s0 t) :
    Kept s0 (linkSend n out l t) := by
  unfold linkSend
  (try dsimp only)
  repeat' (first | with_reducible assumption | with_reducible apply Kept.ite | with_reducible apply State.modLink_kept | with_reducible apply linkFrame_kept | with_reducible apply linkEmit_kept)

theorem connCorrected_kept (k : Nat) (lane : Option Nat) (n : Nat) {s0 t : State} (h : Kept s0 t) :
    Kept s0 (connCorrected k lane n t) := by
  unfold connCorrected
  (try dsimp only)
  repeat' (first | with_reducible assumption | with_reducible apply Kept.ite | with_reducible apply State.modConn_kept | with_reducible apply State.raise_kept | with_reducible apply sparingSeen_kept)

theorem connUe_kept (k : Nat) (n : Nat) {s0 t : State} (h : Kept s0 t) :
    Kept s0 (connUe k n t) := by
  unfold connUe
  repeat' (first | with_reducible assumption | with_reducible apply State.raise_kept | with_reducible apply State.modConn_kept)

theorem switchStep_kept (n : Nat) (ups : List Upset) (txs : Kv (Kv Val)) {s0 t : State} (h : Kept s0 t) :
    Kept s0 (switchStep n ups txs t) := by
  unfold switchStep
  (try dsimp only)
  repeat' (first | with_reducible assumption | with_reducible apply Kept.ite | with_reducible apply State.modClause_kept | with_reducible apply linkFree_kept | with_reducible apply linkSend_kept | with_reducible apply connCorrected_kept | with_reducible apply connUe_kept | with_reducible apply Kept.foldl | (intro _ _ _) | split)

theorem sparingFix_kept (c : Nat) (ph : Nat) (e : Nat) {s0 t : State} (h : Kept s0 t) :
    Kept s0 (sparingFix c ph e t) := by
  unfold sparingFix
  (try dsimp only)
  repeat' (first | with_reducible assumption | with_reducible apply Kept.ite | with_reducible apply sparingSeen_kept | (simp only [Kept.mk_eq]; with_reducible apply KeptF.of))

theorem dictOutcome_kept (c : Nat) (ph : Nat) (e : Nat) (step : List Nat) {s0 t : State} (h : Kept s0 t) :
    Kept s0 (dictOutcome c ph e step t) := by
  unfold dictOutcome
  (try dsimp only)
  repeat' (first | with_reducible assumption | with_reducible apply Kept.ite | with_reducible apply sparingFix_kept | with_reducible apply State.raise_kept | with_reducible apply State.modClause_kept | with_reducible apply State.count_kept | split)

theorem vsParity_kept (c : Nat) (n : Nat) (phys : Nat) {s0 t : State} (h : Kept s0 t) :
    Kept s0 (vsParity c n phys t) := by
  unfold vsParity
  repeat' (first | with_reducible assumption | with_reducible apply Kept.ite | with_reducible apply State.raise_kept | with_reducible apply State.count_kept)

theorem vsWrite_kept (c : Nat) (key : Nat) (v : Val) {s0 t : State} (h : Kept s0 t) :
    Kept s0 (vsWrite c key v t) := by
  unfold vsWrite
  repeat' (first | with_reducible assumption | with_reducible apply Kept.ite | with_reducible apply State.modClause_kept)

theorem clauseApply_kept (c : Nat) (n : Nat) (outs : List BpOut) {s0 t : State} (h : Kept s0 t) :
    Kept s0 (clauseApply c n outs t) := by
  unfold clauseApply
  (try dsimp only)
  repeat' (first | with_reducible assumption | with_reducible apply dictOutcome_kept | with_reducible apply vsParity_kept | with_reducible apply vsWrite_kept | with_reducible apply State.modClause_kept | with_reducible apply Kept.foldl | (intro _ _ _) | split)

theorem outOfWindow_kept (m : Nat) (index : List Nat) (write : Bool) (n : Nat) {s0 t : State} (h : Kept s0 t) :
    Kept s0 (outOfWindow m index write n t) := by
  unfold outOfWindow
  (try dsimp only)
  repeat' (first | with_reducible assumption | with_reducible apply Kept.ite | with_reducible apply State.count_kept | with_reducible apply State.raise_kept | with_reducible apply State.modClause_kept | (simp only [Kept.mk_eq]; with_reducible apply KeptF.of))

theorem unknownWrite_kept (c : Nat) (q : Nat) (n : Nat) {s0 t : State} (h : Kept s0 t) :
    Kept s0 (unknownWrite c q n t) := by
  unfold unknownWrite
  (try dsimp only)
  repeat' (first | with_reducible assumption | with_reducible apply Kept.ite | with_reducible apply State.modClause_kept | with_reducible apply State.count_kept | with_reducible apply State.raise_kept)

theorem pushBlank_kept (m : Nat) (n : Nat) (hbm : Bool) {s0 t : State} (h : Kept s0 t) :
    Kept s0 (pushBlank m n hbm t) := by
  unfold pushBlank
  (try dsimp only)
  repeat' (first | with_reducible assumption | with_reducible apply Kept.ite | (simp only [Kept.mk_eq]; with_reducible apply KeptF.of))

theorem placeAccess_kept (m : Nat) (n : Nat) (w : QWord) (k : Nat) (write : Bool) (vals : List Val) {s0 t : State} (h : Kept s0 t) :
    Kept s0 (placeAccess m n w k write vals t) := by
  unfold placeAccess
  (try dsimp only)
  repeat' (first | with_reducible assumption | with_reducible apply Kept.ite | with_reducible apply userWrite_kept | with_reducible apply userRead_kept | (simp only [Kept.mk_eq]; with_reducible apply KeptF.of))

theorem issueMgo_kept (c : Nat) (n : Nat) (q : Nat) (write : Bool) (en : Val) {s0 t : State} (h : Kept s0 t) :
    Kept s0 (issueMgo c n q write en t) := by
  unfold issueMgo
  (try dsimp only)
  repeat' (first | with_reducible assumption | with_reducible apply Kept.ite | with_reducible apply State.modClause_kept | with_reducible apply outOfWindow_kept | with_reducible apply unknownWrite_kept | with_reducible apply pushBlank_kept | with_reducible apply placeAccess_kept)

theorem sigSyncDue_kept (step : Nat) {s0 t : State} (h : Kept s0 t) :
    Kept s0 (sigSyncDue step t) := by
  unfold sigSyncDue
  repeat' (first | with_reducible assumption | with_reducible apply Kept.ite | with_reducible apply sigSync_kept)

theorem sigOverflow_kept {s0 t : State} (h : Kept s0 t) :
    Kept s0 (sigOverflow t) := by
  unfold sigOverflow
  repeat' (first | with_reducible assumption | with_reducible apply State.raise_kept | with_reducible apply State.modSig_kept | with_reducible apply sigPut_kept | split)

theorem sigStep_kept (n : Nat) (caps : List (Nat × List Val)) {s0 t : State} (h : Kept s0 t) :
    Kept s0 (sigStep n caps t) := by
  unfold sigStep
  (try dsimp only)
  repeat' (first | with_reducible assumption | with_reducible apply Kept.ite | with_reducible apply State.modSig_kept | with_reducible apply sigSyncDue_kept | with_reducible apply sigOverflow_kept | with_reducible apply sigSync_kept | with_reducible apply sigPut_kept)

theorem rimGroupEnd_kept (n : Nat) (lanes : List (Nat × Val)) (g : Nat) {s0 t : State} (h : Kept s0 t) :
    Kept s0 (rimGroupEnd n lanes t g) := by
  unfold rimGroupEnd
  (try dsimp only)
  repeat' (first | with_reducible assumption | with_reducible apply Kept.ite | with_reducible apply State.modGroup_kept)

theorem rimEnd_kept (n : Nat) (lanes : List (Nat × Val)) {s0 t : State} (h : Kept s0 t) :
    Kept s0 (rimEnd n lanes t) := by
  unfold rimEnd
  repeat' (first | with_reducible assumption | with_reducible apply rimGroupEnd_kept | with_reducible apply Kept.foldl | (intro _ _ _))

theorem clauseChecks_kept (c : Nat) (n : Nat) (outs : List BpOut) {s0 t : State} (h : Kept s0 t) :
    Kept s0 (clauseChecks c n outs t) := by
  unfold clauseChecks
  (try dsimp only)
  repeat' (first | with_reducible assumption | with_reducible apply Kept.ite | with_reducible apply State.count_kept | with_reducible apply State.raiseAt_kept | with_reducible apply State.modClause_kept | with_reducible apply stopRequestAt_kept | with_reducible apply State.fset_kept | with_reducible apply Kept.foldl | (intro _ _ _) | split)

theorem measOf_kept (m : Nat) {s0 t : State} (h : Kept s0 t) :
    Kept s0 (measOf m t).2 := by
  unfold measOf
  repeat' (first | with_reducible assumption | with_reducible apply Kept.ite | with_reducible apply State.fresh_kept | split)

theorem tuMatch_kept (u : Nat) (stamp : Nat) (time : Nat) (fine : Nat) (meas : Nat) {s0 t : State} (h : Kept s0 t) :
    Kept s0 (tuMatch u stamp time fine meas t) := by
  unfold tuMatch
  repeat' (first | with_reducible assumption | with_reducible apply Kept.ite | with_reducible apply State.modUnit_kept)

theorem tuLine_kept (n : Nat) (u : Nat) (old : Bool) (new : Bool) (since : Nat) {s0 t : State} (h : Kept s0 t) :
    Kept s0 (tuLine n u old new since t) := by
  unfold tuLine
  (try dsimp only)
  repeat' (first | with_reducible assumption | with_reducible apply Kept.ite | with_reducible apply measOf_kept | with_reducible apply tuMatch_kept | with_reducible apply State.modUnit_kept | split)

theorem tuLines_kept (n : Nat) (lines : Nat) {s0 t : State} (h : Kept s0 t) :
    Kept s0 (tuLines n lines t) := by
  unfold tuLines
  (try dsimp only)
  repeat' (first | with_reducible assumption | with_reducible apply Kept.ite | with_reducible apply tuLine_kept | (simp only [Kept.mk_eq]; with_reducible apply KeptF.of) | with_reducible apply Kept.foldl | (intro _ _ _))

theorem stepBody_kept (n : Nat) (ups : List Upset) {s0 t : State} (h : Kept s0 t) :
    Kept s0 (stepBody n ups t) := by
  unfold stepBody
  (try dsimp only)
  repeat' (first | with_reducible assumption | with_reducible apply Kept.ite | with_reducible apply loadReturns_kept | with_reducible apply sigBegin_kept | with_reducible apply fabAgreeApply_kept | with_reducible apply isoApply_kept | with_reducible apply upsets_kept | with_reducible apply schReads_kept | with_reducible apply switchStep_kept | with_reducible apply clauseApply_kept | with_reducible apply issueMgo_kept | with_reducible apply sigStep_kept | with_reducible apply rimEnd_kept | with_reducible apply clauseChecks_kept | with_reducible apply tuLines_kept | with_reducible apply Kept.foldl | (intro _ _ _) | split)

theorem commitClause_kept (t1 : Nat) (c : Nat) {s0 t : State} (h : Kept s0 t) :
    Kept s0 (commitClause t1 t c) := by
  unfold commitClause
  (try dsimp only)
  repeat' (first | with_reducible assumption | with_reducible apply State.raise_kept | with_reducible apply State.count_kept | with_reducible apply vsWrite_kept | with_reducible apply State.modClause_kept | with_reducible apply Kept.foldl | (intro _ _ _))

theorem clearClause_kept (c : Nat) {s0 t : State} (h : Kept s0 t) :
    Kept s0 (clearClause t c) := by
  unfold clearClause
  repeat' (first | with_reducible assumption | with_reducible apply State.modClause_kept)

theorem boundaryDue_kept {s0 t : State} (h : Kept s0 t) :
    Kept s0 (boundaryDue t) := by
  unfold boundaryDue
  (try dsimp only)
  repeat' (first | with_reducible assumption | with_reducible apply Kept.ite | (simp only [Kept.mk_eq]; with_reducible apply KeptF.of) | split)

theorem ckptBegin_kept {s0 t : State} (h : Kept s0 t) :
    Kept s0 (ckptBegin t) := by
  unfold ckptBegin
  (try dsimp only)
  repeat' (first | with_reducible assumption | with_reducible apply Kept.ite | with_reducible apply State.fset_kept | with_reducible apply State.emit_kept | with_reducible apply nocWrite_kept | (simp only [Kept.mk_eq]; with_reducible apply KeptF.of))

theorem ckptStart_kept {s0 t : State} (h : Kept s0 t) :
    Kept s0 (ckptStart t) := by
  unfold ckptStart
  (try dsimp only)
  repeat' (first | with_reducible assumption | with_reducible apply Kept.ite | with_reducible apply ckptBegin_kept | (simp only [Kept.mk_eq]; with_reducible apply KeptF.of))

theorem boundary_kept {s0 t : State} (h : Kept s0 t) :
    Kept s0 (boundary t) := by
  unfold boundary
  (try dsimp only)
  repeat' (first | with_reducible assumption | with_reducible apply Kept.ite | with_reducible apply commitClause_kept | with_reducible apply clearClause_kept | with_reducible apply State.modSig_kept | with_reducible apply sigEpoch_kept | with_reducible apply boundaryDue_kept | with_reducible apply latchTokens_kept | with_reducible apply ckptStart_kept | (simp only [Kept.mk_eq]; with_reducible apply KeptF.of) | with_reducible apply Kept.foldl | (intro _ _ _))

theorem doStep_kept (ups : List Upset) {s0 t : State} (h : Kept s0 t) :
    Kept s0 (doStep ups t) := by
  unfold doStep
  (try dsimp only)
  repeat' (first | with_reducible assumption | with_reducible apply Kept.ite | with_reducible apply isoApply_kept | with_reducible apply breakStep_kept | with_reducible apply stepBody_kept | with_reducible apply boundary_kept | with_reducible apply clockBoundary_kept | with_reducible apply afterStep_kept | (simp only [Kept.mk_eq]; with_reducible apply KeptF.of))

end Sys2Proof.Machine
end

