-- ==== Sys2Proof/Laws/Kept3.lean ====
section
/-! SUPPORT. Kept3.lean: each operation keeps what `Kept` names, part 3. -/
set_option Elab.async false
namespace Sys2Proof.Machine

theorem seqEllipsisEnd_kept (ups : List Upset) {s0 t : State} (h : Kept s0 t) :
    Kept s0 (seqEllipsisEnd ups t) := by
  unfold seqEllipsisEnd
  (try dsimp only)
  repeat' (first | with_reducible assumption | with_reducible apply Kept.ite | with_reducible apply ellipsisClose_kept | with_reducible apply clockBoundary_kept | with_reducible apply doStep_kept | (simp only [Kept.mk_eq]; with_reducible apply KeptF.of))

theorem runStep_kept (p : Path) (ups : List Upset) {s0 t : State} (h : Kept s0 t) :
    Kept s0 (runStep p ups t) := by
  unfold runStep
  (try dsimp only)
  repeat' (first | with_reducible assumption | with_reducible apply Kept.ite | with_reducible apply wref_kept | with_reducible apply seqResume_kept | with_reducible apply seqEllipsisEnd_kept | (simp only [Kept.mk_eq]; with_reducible apply KeptF.of))

theorem runResume_kept (p : Path) {s0 t : State} (h : Kept s0 t) :
    Kept s0 (runResume p t) := by
  unfold runResume
  repeat' (first | with_reducible assumption | with_reducible apply Kept.ite | with_reducible apply wref_kept | with_reducible apply seqResume_kept)

theorem runHalt_kept (cause : HaltCause) {s0 t : State} (h : Kept s0 t) :
    Kept s0 (runHalt cause t) := by
  unfold runHalt
  repeat' (first | with_reducible assumption | with_reducible apply Kept.ite | with_reducible apply wref_kept | with_reducible apply seqHalt_kept | split)

theorem writeRun_kept (p : Path) (w : Word) {s0 t : State} (h : Kept s0 t) :
    Kept s0 (writeRun p w t) := by
  unfold writeRun
  repeat' (first | with_reducible assumption | with_reducible apply Kept.ite | with_reducible apply runStep_kept | with_reducible apply runResume_kept | with_reducible apply runHalt_kept)

theorem setForce_kept (c : Nat) (key : Nat) (v : Option Val) {s0 t : State} (h : Kept s0 t) :
    Kept s0 (setForce c key v t) := by
  unfold setForce
  (try dsimp only)
  repeat' (first | with_reducible assumption | (simp only [Kept.mk_eq]; with_reducible apply KeptF.of))

theorem arrAct_kept (a : ArrOp) {s0 t : State} (h : Kept s0 t) :
    Kept s0 (arrAct a t) := by
  unfold arrAct
  (try dsimp only)
  repeat' (first | with_reducible assumption | with_reducible apply State.fsetb_kept | with_reducible apply State.fset_kept | with_reducible apply vsWrite_kept | with_reducible apply setForce_kept | (simp only [Kept.mk_eq]; with_reducible apply KeptF.of) | split)

theorem arrRun_kept (a : ArrOp) {s0 t : State} (h : Kept s0 t) :
    Kept s0 (arrRun a t) := by
  unfold arrRun
  (try dsimp only)
  repeat' (first | with_reducible assumption | with_reducible apply State.fset_kept | with_reducible apply arrAct_kept | (simp only [Kept.mk_eq]; with_reducible apply KeptF.of) | split)

theorem arrGo_kept (a : ArrOp) {s0 t : State} (h : Kept s0 t) :
    Kept s0 (arrGo a t) := by
  unfold arrGo
  (try dsimp only)
  repeat' (first | with_reducible assumption | with_reducible apply Kept.ite | with_reducible apply State.fset_kept | with_reducible apply State.fsetb_kept | with_reducible apply arrRun_kept | (simp only [Kept.mk_eq]; with_reducible apply KeptF.of))

theorem writeArr_kept (req : Requester) (a : Nat) (r : RRow) (w : Word) {s0 t : State} (h : Kept s0 t) :
    Kept s0 (writeArr req a r w t) := by
  unfold writeArr
  repeat' (first | with_reducible assumption | with_reducible apply Kept.ite | with_reducible apply plainWrite_kept | with_reducible apply State.fset_kept | with_reducible apply arrGo_kept | split)

theorem sramUe_kept (a : Nat) (kind : Nat) {s0 t : State} (h : Kept s0 t) :
    Kept s0 (sramUe a kind t) := by
  unfold sramUe
  repeat' (first | with_reducible assumption | with_reducible apply State.raise_kept)

theorem memWrite_kept (m : Master) (a : Nat) (bs : List Byte) {s0 t : State} (h : Kept s0 t) :
    Kept s0 (memWrite m a bs t).2 := by
  unfold memWrite
  (try dsimp only)
  repeat' (first | with_reducible assumption | with_reducible apply Kept.ite | with_reducible apply portWrite_kept | with_reducible apply State.emit_kept | with_reducible apply sramUe_kept | with_reducible apply State.store_kept | (simp only [Kept.mk_eq]; with_reducible apply KeptF.of) | with_reducible apply Kept.foldl | (intro _ _ _) | split)

theorem busWrite_kept (m : Master) (a : Nat) (bs : List Byte) {s0 t : State} (h : Kept s0 t) :
    Kept s0 (busWrite m a bs t).2 := by
  unfold busWrite
  repeat' (first | with_reducible assumption | with_reducible apply memWrite_kept | split)

theorem mtTarget_kept (src : Nat) (a : DWord) {s0 t : State} (h : Kept s0 t) :
    Kept s0 (mtTarget src a t) := by
  unfold mtTarget
  (try dsimp only)
  repeat' (first | with_reducible assumption | with_reducible apply State.modMt_kept | with_reducible apply mtPacket_kept | with_reducible apply mtBranch_kept)

theorem mtTrap_kept (src : Nat) (priv : Nat) (cause : Nat) (pc : DWord) (handler : DWord) {s0 t : State} (h : Kept s0 t) :
    Kept s0 (mtTrap src priv cause pc handler t) := by
  unfold mtTrap
  repeat' (first | with_reducible assumption | with_reducible apply mtTarget_kept | with_reducible apply State.modMt_kept | with_reducible apply mtPacket_kept | with_reducible apply mtBranch_kept)

theorem mtOutcome_kept (src : Nat) (taken : Bool) {s0 t : State} (h : Kept s0 t) :
    Kept s0 (mtOutcome src taken t) := by
  unfold mtOutcome
  (try dsimp only)
  repeat' (first | with_reducible assumption | with_reducible apply Kept.ite | with_reducible apply State.modMt_kept | with_reducible apply mtBranch_kept)

theorem mtFlow_kept (src : Nat) (insn : Nat) (priv : Nat) (pc : DWord) (next : DWord) (trap : Option DWord) {s0 t : State} (h : Kept s0 t) :
    Kept s0 (mtFlow src insn priv pc next trap t) := by
  unfold mtFlow
  (try dsimp only)
  repeat' (first | with_reducible assumption | with_reducible apply Kept.ite | with_reducible apply mtSync_kept | with_reducible apply State.modMt_kept | with_reducible apply mtTrap_kept | with_reducible apply mtFlush_kept | with_reducible apply mtPacket_kept | with_reducible apply mtBranch_kept | with_reducible apply mtOutcome_kept | with_reducible apply mtTarget_kept | split)

theorem pairStepReq_kept (path : Path) (p : Nat) (eff : CoreEffect) {s0 t : State} (h : Kept s0 t) :
    Kept s0 (pairStepReq path p eff t) := by
  unfold pairStepReq
  (try dsimp only)
  repeat' (first | with_reducible assumption | with_reducible apply Kept.ite | with_reducible apply wref_kept | with_reducible apply pairResume_kept | with_reducible apply busWrite_kept | with_reducible apply State.modPair_kept | with_reducible apply State.fset_kept | with_reducible apply mtWatch_kept | with_reducible apply mtFlow_kept | with_reducible apply mtHalt_kept | with_reducible apply State.raise_kept | with_reducible apply xtInput_kept | with_reducible apply Kept.foldl | (intro _ _ _))

theorem freeStep_kept (path : Path) (p : Nat) {s0 t : State} (h : Kept s0 t) :
    Kept s0 (freeStep path p t) := by
  unfold freeStep
  (try dsimp only)
  repeat' (first | with_reducible assumption | with_reducible apply Kept.ite | with_reducible apply pairStepReq_kept | with_reducible apply State.modPair_kept | (simp only [Kept.mk_eq]; with_reducible apply KeptF.of))

theorem pairResumeReq_kept (path : Path) (p : Nat) {s0 t : State} (h : Kept s0 t) :
    Kept s0 (pairResumeReq path p t) := by
  unfold pairResumeReq
  repeat' (first | with_reducible assumption | with_reducible apply Kept.ite | with_reducible apply wref_kept | with_reducible apply pairResume_kept)

theorem pairHalt_kept (p : Nat) (cause : HaltCause) {s0 t : State} (h : Kept s0 t) :
    Kept s0 (pairHalt p cause t) := by
  unfold pairHalt
  repeat' (first | with_reducible assumption | with_reducible apply Kept.ite | with_reducible apply wref_kept | with_reducible apply pairHaltReq_kept | split)

theorem writePair_kept (req : Requester) (p : Nat) (w : Word) {s0 t : State} (h : Kept s0 t) :
    Kept s0 (writePair req p w t) := by
  unfold writePair
  repeat' (first | with_reducible assumption | with_reducible apply Kept.ite | with_reducible apply wref_kept | with_reducible apply freeStep_kept | with_reducible apply pairResumeReq_kept | with_reducible apply pairHalt_kept | split)

theorem writeDbgReg_kept (req : Requester) (o : Nat) (a : Nat) (r : RRow) (w : Word) {s0 t : State} (h : Kept s0 t) :
    Kept s0 (writeDbgReg req o a r w t) := by
  unfold writeDbgReg
  repeat' (first | with_reducible assumption | with_reducible apply Kept.ite | with_reducible apply atLevel_kept | with_reducible apply sleepEnd_kept | with_reducible apply plainWrite_kept | with_reducible apply writeAuth_kept | with_reducible apply writeRun_kept | with_reducible apply wref_kept | with_reducible apply writeArr_kept | with_reducible apply writePair_kept | split)

theorem regEffect_kept (req : Requester) (a : Nat) (r : RRow) (w : Word) {s0 t : State} (h : Kept s0 t) :
    Kept s0 (regEffect req a r w t).2 := by
  unfold regEffect
  (try dsimp only)
  repeat' (first | with_reducible assumption | with_reducible apply Kept.ite | with_reducible apply writePltReg_kept | with_reducible apply writeSecReg_kept | with_reducible apply writeMgtReg_kept | with_reducible apply writeHifReg_kept | with_reducible apply writeNocReg_kept | with_reducible apply writeSeqReg_kept | with_reducible apply writeSchReg_kept | with_reducible apply writeClsReg_kept | with_reducible apply plainWrite_kept | with_reducible apply writeFabReg_kept | with_reducible apply writeLnkReg_kept | with_reducible apply devnumWrite_kept | with_reducible apply writeMemReg_kept | with_reducible apply writeRimReg_kept | with_reducible apply writeCapReg_kept | with_reducible apply writeDbgReg_kept | split)

theorem regWriteWord_kept (eng : Word → State → Except Fault State) (req : Requester) (a : Nat) (w : Word) {s0 t u : State} {rv} (heng : ∀ (w : Word) (x y : State), Kept s0 x → eng w x = .ok y → Kept s0 y) (h : Kept s0 t)
    (e : regWriteWord eng req a w t = .ok (rv, u)) : Kept s0 u := by
  unfold regWriteWord at e
  split at e
  · obtain ⟨y, hy, e⟩ := exc_map e
    cases e; exact mbxRegWrite_kept _ _ _ h hy
  · split at e
    · cases e; exact msixWrite_kept _ _ h
    · split at e
      · cases e; exact h
      · split at e
        · cases e
        · split at e
          · cases e
          · split at e
            · obtain ⟨y, hy, e⟩ := exc_map e
              cases e; exact heng _ _ _ h hy
            · exact ok_kept e (regEffect_kept _ _ _ _ h)

theorem aliasWrite_kept (eng : Word → State → Except Fault State) (req : Requester) (a : Nat) (v : Bool) {s0 t u : State} {rv} (heng : ∀ (w : Word) (x y : State), Kept s0 x → eng w x = .ok y → Kept s0 y) (h : Kept s0 t)
    (e : aliasWrite eng req a v t = .ok (rv, u)) : Kept s0 u := by
  unfold aliasWrite at e
  dsimp only at e
  split at e
  · cases e; exact msixWrite_kept _ _ h
  · split at e
    · cases e; exact h
    · split at e
      · cases e; exact h
      · split at e
        · exact regWriteWord_kept _ _ _ _ heng h e
        · split at e
          · exact regWriteWord_kept _ _ _ _ heng h e
          · cases e; exact h
        · split at e
          · cases e; exact h
          · split at e
            · cases e; exact seqCtl_kept _ _ h
            · exact regWriteWord_kept _ _ _ _ heng h e
        · cases e; exact h

theorem arrDeferred_kept {s0 t : State} (h : Kept s0 t) :
    Kept s0 (arrDeferred t) := by
  unfold arrDeferred
  repeat' (first | with_reducible assumption | with_reducible apply Kept.ite | with_reducible apply arrRun_kept | split)

theorem arrGoVal_kept (a : ArrOp) {s0 t : State} (h : Kept s0 t) :
    Kept s0 (arrGoVal a t) := by
  unfold arrGoVal
  repeat' (first | with_reducible assumption | with_reducible apply Kept.ite | with_reducible apply arrGo_kept | with_reducible apply State.fset_kept)

theorem nocRead_kept (kind : Nat) (a : Nat) (n : Nat) {s0 t : State} (h : Kept s0 t) :
    Kept s0 (nocRead kind a n t).2.2 := by
  unfold nocRead
  refine Kept.foldl_of (g := fun r : List Byte × Bool × State => r.2.2) (t := ([], true, t)) (fun r p hr => ?_) h
  exact userRead_kept (0x100 + kind) p.1 p.2 hr

theorem portRead_kept (kind : Nat) (a : Nat) (n : Nat) {s0 t : State} (h : Kept s0 t) :
    Kept s0 (portRead kind a n t).2.2 := by
  unfold portRead
  repeat' (first | with_reducible assumption | with_reducible apply nocRead_kept | with_reducible apply lexWait_kept)

theorem svcBytes_kept (a : Nat) (n : Nat) (host : List Byte) {s0 t : State} (h : Kept s0 t) :
    Kept s0 (svcBytes a n host t).2 := by
  unfold svcBytes
  (try dsimp only)
  repeat' (first | with_reducible assumption | with_reducible apply Kept.ite | with_reducible apply portRead_kept | with_reducible apply State.emit_kept | split)

theorem busWriteAll_kept (m : Master) (a : Nat) (bs : List Byte) {s0 t : State} (h : Kept s0 t) :
    Kept s0 (busWriteAll m a bs t).2 := by
  unfold busWriteAll
  refine Kept.foldl_of (g := fun r : Nat × State => r.2) (fun r _ hr => ?_) h
  split
  · exact hr
  · exact busWrite_kept _ _ _ hr

theorem attest_kept (slot : Nat) (nonce : List Byte) {s0 t : State} (h : Kept s0 t) :
    Kept s0 (attest slot nonce t) := by
  unfold attest
  (try dsimp only)
  repeat' (first | with_reducible assumption | with_reducible apply Kept.ite | with_reducible apply svcBytes_kept | with_reducible apply State.freshNat_kept | with_reducible apply busWriteAll_kept | with_reducible apply svcRespond_kept)

theorem avsClear_kept {s0 t : State} (h : Kept s0 t) :
    Kept s0 (avsClear t) := by
  unfold avsClear
  (try dsimp only)
  repeat' (first | with_reducible assumption | with_reducible apply throttleApply_kept | (simp only [Kept.mk_eq]; with_reducible apply KeptF.of))

theorem avsFail_kept (kind : Nat) (measured : Nat) {s0 t : State} (h : Kept s0 t) :
    Kept s0 (avsFail kind measured t) := by
  unfold avsFail
  (try dsimp only)
  repeat' (first | with_reducible assumption | with_reducible apply Kept.ite | with_reducible apply State.raise_kept | with_reducible apply throttleApply_kept | (simp only [Kept.mk_eq]; with_reducible apply KeptF.of))

theorem bankChecked_kept (b : Nat) (key : Nat) (openMask : Nat) {s0 t : State} (h : Kept s0 t) :
    Kept s0 (bankChecked b key openMask t) := by
  unfold bankChecked
  (try dsimp only)
  repeat' (first | with_reducible assumption | with_reducible apply Kept.ite | with_reducible apply rimIoRaise_kept | with_reducible apply State.fset_kept | with_reducible apply State.modBank_kept | with_reducible apply bankReport_kept | split)

theorem bankEdge_kept (ts : List Nat) (s0_ : State) (b : Nat) {s0 t : State} (hs0_ : Kept s0 s0_) (h : Kept s0 t) :
    Kept s0 (bankEdge ts s0_ t b) := by
  unfold bankEdge
  (try dsimp only)
  repeat' (first | with_reducible assumption | with_reducible apply Kept.ite | with_reducible apply State.modBank_kept)

theorem hostWriteErr_kept (bar : Nat) (off : Nat) (st : Nat) {s0 t : State} (h : Kept s0 t) :
    Kept s0 (hostWriteErr bar off st t) := by
  unfold hostWriteErr
  repeat' (first | with_reducible assumption | with_reducible apply State.raise_kept | with_reducible apply State.count_kept)

theorem nocEnqueue_kept (reply : NocReply) (kind : Nat) (addr : Nat) (size : Nat) (write : Bool) (data : List Byte) {s0 t : State} (h : Kept s0 t) :
    Kept s0 (nocEnqueue reply kind addr size write data t) := by
  unfold nocEnqueue
  (try dsimp only)
  repeat' (first | with_reducible assumption | (simp only [Kept.mk_eq]; with_reducible apply KeptF.of))

theorem bar2Packet_kept (off : Nat) (a : Nat) (bs : List Byte) {s0 t : State} (h : Kept s0 t) :
    Kept s0 (bar2Packet off a bs t) := by
  unfold bar2Packet
  (try dsimp only)
  repeat' (first | with_reducible assumption | with_reducible apply Kept.ite | with_reducible apply hostWriteErr_kept | with_reducible apply nocEnqueue_kept | with_reducible apply memWrite_kept | split)

theorem hostAnswer_kept (st : Nat) (bs : List Byte) {s0 t : State} (h : Kept s0 t) :
    Kept s0 (hostAnswer st bs t) := by
  unfold hostAnswer
  repeat' (first | with_reducible assumption | with_reducible apply State.emit_kept | with_reducible apply State.count_kept | split)

theorem memRead_kept (m : Master) (a : Nat) (n : Nat) {s0 t : State} (h : Kept s0 t) :
    Kept s0 (memRead m a n t).2.2 := by
  unfold memRead
  (try dsimp only)
  repeat' (first | with_reducible assumption | with_reducible apply Kept.ite | with_reducible apply portRead_kept | with_reducible apply State.freshBytes_kept | with_reducible apply State.hostStatus_kept | with_reducible apply State.emit_kept | with_reducible apply sramUe_kept | split)

theorem busRead_kept (m : Master) (a : Nat) (n : Nat) {s0 t : State} (h : Kept s0 t) :
    Kept s0 (busRead m a n t).2.2 := by
  unfold busRead
  repeat' (first | with_reducible assumption | with_reducible apply memRead_kept | split)

theorem busReadAll_kept (m : Master) (a : Nat) (n : Nat) {s0 t : State} (h : Kept s0 t) :
    Kept s0 (busReadAll m a n t).2.2 := by
  unfold busReadAll
  refine Kept.foldl_of (g := fun r : Nat × List Byte × State => r.2.2) (fun r _ hr => ?_) h
  dsimp only
  split
  · exact hr
  · exact busRead_kept _ _ _ hr

theorem bar2Read_kept (off : Nat) (size : Nat) {s0 t : State} (h : Kept s0 t) :
    Kept s0 (bar2Read off size t) := by
  unfold bar2Read
  (try dsimp only)
  repeat' (first | with_reducible assumption | with_reducible apply Kept.ite | with_reducible apply hostAnswer_kept | with_reducible apply nocEnqueue_kept | with_reducible apply busReadAll_kept | with_reducible apply Kept.foldl | (intro _ _ _) | split)

theorem bar2Write_kept (off : Nat) (data : List Byte) {s0 t : State} (h : Kept s0 t) :
    Kept s0 (bar2Write off data t) := by
  unfold bar2Write
  (try dsimp only)
  repeat' (first | with_reducible assumption | with_reducible apply hostWriteErr_kept | with_reducible apply bar2Packet_kept | with_reducible apply Kept.foldl | (intro _ _ _) | split)

theorem bootDone_kept (j : LoadJob) {s0 t : State} (h : Kept s0 t) :
    Kept s0 (bootDone j t) := by
  unfold bootDone
  (try dsimp only)
  repeat' (first | with_reducible assumption | with_reducible apply State.store_kept | with_reducible apply State.fset_kept | with_reducible apply State.modPair_kept | (simp only [Kept.mk_eq]; with_reducible apply KeptF.of) | split)

theorem bootFail_kept (code : Nat) {s0 t : State} (h : Kept s0 t) :
    Kept s0 (bootFail code t) := by
  unfold bootFail
  (try dsimp only)
  repeat' (first | with_reducible assumption | with_reducible apply Kept.ite | with_reducible apply State.fset_kept | with_reducible apply bootRead_kept | with_reducible apply State.freshNat_kept | with_reducible apply State.raise_kept | (simp only [Kept.mk_eq]; with_reducible apply KeptF.of) | split)

theorem bootFailCode_kept (k : Nat) {s0 t : State} (h : Kept s0 t) :
    Kept s0 (bootFailCode k t).2 := by
  unfold bootFailCode
  repeat' (first | with_reducible assumption | with_reducible apply State.pick_kept | split)

theorem loadRaise_kept (k : Nat) (payload : List Nat) {s0 t : State} (h : Kept s0 t) :
    Kept s0 (loadRaise k payload t) := by
  unfold loadRaise
  repeat' (first | with_reducible assumption | with_reducible apply State.raise_kept)

theorem bootRefuse_kept (slot : Nat) (r : Nat × Option (List Nat)) {s0 t : State} (h : Kept s0 t) :
    Kept s0 (bootRefuse slot r t) := by
  unfold bootRefuse
  (try dsimp only)
  repeat' (first | with_reducible assumption | with_reducible apply svcRespond_kept | with_reducible apply loadRaise_kept | with_reducible apply State.freshNat_kept | split)

theorem keyxAbort_kept {s0 t : State} (h : Kept s0 t) :
    Kept s0 (keyxAbort t) := by
  unfold keyxAbort
  repeat' (first | with_reducible assumption | with_reducible apply keyxEnd_kept | split)

theorem bootTimeout_kept {s0 t : State} (h : Kept s0 t) :
    Kept s0 (bootTimeout t) := by
  unfold bootTimeout
  repeat' (first | with_reducible assumption | with_reducible apply Kept.ite | with_reducible apply bootFail_kept | with_reducible apply keyxAbort_kept | with_reducible apply State.modPair_kept)

theorem busMaster_kept (on : Bool) {s0 t : State} (h : Kept s0 t) :
    Kept s0 (busMaster on t) := by
  unfold busMaster
  (try dsimp only)
  repeat' (first | with_reducible assumption | with_reducible apply Kept.ite | with_reducible apply signal_kept | (simp only [Kept.mk_eq]; with_reducible apply KeptF.of) | with_reducible apply Kept.foldl | (intro _ _ _))

theorem calEnd_kept (k : Nat) (ok : Bool) (lanes : Nat) (ns : Nat) {s0 t : State} (h : Kept s0 t) :
    Kept s0 (calEnd k ok lanes ns t) := by
  unfold calEnd
  (try dsimp only)
  repeat' (first | with_reducible assumption | with_reducible apply Kept.ite | with_reducible apply State.raise_kept | with_reducible apply State.fset_kept)

theorem calSlice_kept (k : Nat) {s0 t : State} (h : Kept s0 t) :
    Kept s0 (calSlice k t) := by
  unfold calSlice
  repeat' (first | with_reducible assumption | with_reducible apply Kept.ite | with_reducible apply calStart_kept)

theorem rotate_kept (l : Nat) {s0 t : State} (h : Kept s0 t) :
    Kept s0 (rotate l t) := by
  unfold rotate
  (try dsimp only)
  repeat' (first | with_reducible assumption | with_reducible apply Kept.ite | with_reducible apply State.raise_kept | with_reducible apply State.modLink_kept | with_reducible apply ctlPut_kept | with_reducible apply sparingStart_kept | split)

theorem calSchedule_kept (kind : CalKind) {s0 t : State} (h : Kept s0 t) :
    Kept s0 (calSchedule kind t) := by
  unfold calSchedule
  (try dsimp only)
  repeat' (first | with_reducible assumption | with_reducible apply Kept.ite | with_reducible apply calSlice_kept | with_reducible apply rotate_kept | (simp only [Kept.mk_eq]; with_reducible apply KeptF.of) | split)

theorem engineEnd_kept (write : Bool) (code : Nat) (d : Word) {s0 t : State} (h : Kept s0 t) :
    Kept s0 (engineEnd write code d t) := by
  unfold engineEnd
  (try dsimp only)
  repeat' (first | with_reducible assumption | with_reducible apply Kept.ite | with_reducible apply State.fset_kept)

theorem tapEnd_kept (write : Bool) (code : Nat) (d : Word) {s0 t : State} (h : Kept s0 t) :
    Kept s0 (tapEnd write code d t) := by
  unfold tapEnd
  (try dsimp only)
  repeat' (first | with_reducible assumption | with_reducible apply Kept.ite | (simp only [Kept.mk_eq]; with_reducible apply KeptF.of))

theorem nocAnswer_kept (x : NocAcc) (st : Nat) (bs : List Byte) {s0 t : State} (h : Kept s0 t) :
    Kept s0 (nocAnswer x st bs t) := by
  unfold nocAnswer
  repeat' (first | with_reducible assumption | with_reducible apply Kept.ite | with_reducible apply hostWriteErr_kept | with_reducible apply hostAnswer_kept | with_reducible apply nocPump_kept | with_reducible apply send_kept | with_reducible apply engineEnd_kept | with_reducible apply tapEnd_kept | split)

theorem calSliceEnd_kept (k : Nat) (ok : Bool) (lanes : Nat) (ns : Nat) {s0 t : State} (h : Kept s0 t) :
    Kept s0 (calSliceEnd k ok lanes ns t) := by
  unfold calSliceEnd
  (try dsimp only)
  repeat' (first | with_reducible assumption | with_reducible apply Kept.ite | with_reducible apply calEnd_kept | with_reducible apply nocWrite_kept | with_reducible apply nocAnswer_kept | with_reducible apply nocRead_kept | (simp only [Kept.mk_eq]; with_reducible apply KeptF.of) | with_reducible apply Kept.foldl | (intro _ _ _))

theorem calTick_kept {s0 t : State} (h : Kept s0 t) :
    Kept s0 (calTick t) := by
  unfold calTick
  (try dsimp only)
  repeat' (first | with_reducible assumption | with_reducible apply Kept.ite | with_reducible apply State.flashWrite_kept | (simp only [Kept.mk_eq]; with_reducible apply KeptF.of))

theorem capOverflow_kept (mt : Bool) {s0 t : State} (h : Kept s0 t) :
    Kept s0 (capOverflow mt t) := by
  unfold capOverflow
  repeat' (first | with_reducible assumption | with_reducible apply Kept.ite | with_reducible apply State.raise_kept | with_reducible apply State.modMt_kept | with_reducible apply mtSync_kept | with_reducible apply mtPut_kept | with_reducible apply sigOverflow_kept | with_reducible apply Kept.foldl | (intro _ _ _) | split)

theorem sigDrain1_kept {s0 t : State} (h : Kept s0 t) :
    Kept s0 (sigDrain1 t) := by
  unfold sigDrain1
  (try dsimp only)
  repeat' (first | with_reducible assumption | with_reducible apply Kept.ite | with_reducible apply State.modSig_kept | with_reducible apply State.fset_kept | with_reducible apply portWrite_kept)

theorem captureDrain_kept {s0 t : State} (h : Kept s0 t) :
    Kept s0 (captureDrain t) := by
  unfold captureDrain
  repeat' (first | with_reducible assumption | with_reducible apply Kept.ite | with_reducible apply sigDrain1_kept | with_reducible apply mtDrain1_kept)

theorem crcDrop_kept (r : Nat) (p : Packet) {s0 t : State} (h : Kept s0 t) :
    Kept s0 (crcDrop r p t) := by
  unfold crcDrop
  repeat' (first | with_reducible assumption | with_reducible apply State.raise_kept | with_reducible apply State.count_kept)

theorem routeDrop_kept (r : Nat) (p : Packet) {s0 t : State} (h : Kept s0 t) :
    Kept s0 (routeDrop r p t) := by
  unfold routeDrop
  repeat' (first | with_reducible assumption | with_reducible apply State.raise_kept | with_reducible apply State.count_kept)

theorem hopFixed_kept (r : Nat) (port : Nat) {s0 t : State} (h : Kept s0 t) :
    Kept s0 (hopFixed r port t) := by
  unfold hopFixed
  (try dsimp only)
  repeat' (first | with_reducible assumption | with_reducible apply Kept.ite | with_reducible apply State.count_kept | with_reducible apply State.raise_kept)

theorem hopUe_kept (r : Nat) (port : Nat) (vc : Nat) (what : Nat) {s0 t : State} (h : Kept s0 t) :
    Kept s0 (hopUe r port vc what t) := by
  unfold hopUe
  repeat' (first | with_reducible assumption | with_reducible apply State.raise_kept | with_reducible apply State.count_kept)

theorem checkPacket_kept (r : Nat) (p : Packet) (err : HopError) {s0 t : State} (h : Kept s0 t) :
    Kept s0 (checkPacket r p err t).2 := by
  unfold checkPacket
  (try dsimp only)
  repeat' (first | with_reducible assumption | with_reducible apply Kept.ite | with_reducible apply crcDrop_kept | with_reducible apply routeDrop_kept | with_reducible apply hopFixed_kept | with_reducible apply hopUe_kept | split)

theorem slotWrite_kept (a : Nat) (bs : List Byte) {s0 t : State} (h : Kept s0 t) :
    Kept s0 (slotWrite a bs t) := by
  unfold slotWrite
  repeat' (first | with_reducible assumption | with_reducible apply Kept.ite | with_reducible apply State.emit_kept | with_reducible apply nocWrite_kept)

theorem ckptComplete_kept (ok : Bool) (failAddr : Nat) {s0 t : State} (h : Kept s0 t) :
    Kept s0 (ckptComplete ok failAddr t) := by
  unfold ckptComplete
  (try dsimp only)
  repeat' (first | with_reducible assumption | with_reducible apply Kept.ite | with_reducible apply slotWrite_kept | with_reducible apply State.raise_kept | with_reducible apply State.fset_kept | (simp only [Kept.mk_eq]; with_reducible apply KeptF.of) | split)

theorem clauseCountsZero_kept (c : Nat) {s0 t : State} (h : Kept s0 t) :
    Kept s0 (clauseCountsZero c t) := by
  unfold clauseCountsZero
  (try dsimp only)
  repeat' (first | with_reducible assumption | with_reducible apply State.fset_kept | (simp only [Kept.mk_eq]; with_reducible apply KeptF.of) | with_reducible apply Kept.foldl | (intro _ _ _))

theorem forcesGone_kept (c : Nat) {s0 t : State} (h : Kept s0 t) :
    Kept s0 (forcesGone c t) := by
  unfold forcesGone
  (try dsimp only)
  repeat' (first | with_reducible assumption | (simp only [Kept.mk_eq]; with_reducible apply KeptF.of))

theorem sliceWrite_kept (xf : Nat) (depth : Nat) (c : Nat) (pc : Nat) (dict : List Byte) (sw : List Byte) (words : List Byte) (reload : Bool) {s0 t : State} (h : Kept s0 t) :
    Kept s0 (sliceWrite xf depth c pc dict sw words reload t) := by
  unfold sliceWrite
  (try dsimp only)
  repeat' (first | with_reducible assumption | with_reducible apply Kept.ite | with_reducible apply forcesGone_kept | with_reducible apply State.modClause_kept)

theorem clauseLoad_kept (j : LoadJob) (g : Img) (c : Nat) {s0 t u : State} (h : Kept s0 t)
    (e : clauseLoad j g c t = .inr u) : Kept s0 u := by
  unfold clauseLoad at e
  (try dsimp only at e)
  repeat' (split at e)
  all_goals (try cases e)
  all_goals (repeat' (first | with_reducible assumption | with_reducible apply Kept.ite | with_reducible apply sliceWrite_kept | with_reducible apply clauseCountsZero_kept | with_reducible apply State.modClause_kept))

theorem clauseUnload_kept (c : Nat) {s0 t : State} (h : Kept s0 t) :
    Kept s0 (clauseUnload c t) := by
  unfold clauseUnload
  (try dsimp only)
  repeat' (first | with_reducible assumption | with_reducible apply forcesGone_kept | with_reducible apply State.modClause_kept)

theorem ringSignal_kept (r : Nat) {s0 t : State} (h : Kept s0 t) :
    Kept s0 (ringSignal r t) := by
  unfold ringSignal
  repeat' (first | with_reducible assumption | with_reducible apply signal_kept | with_reducible apply State.modRing_kept)

theorem coalesceExpire_kept (r : Nat) {s0 t : State} (h : Kept s0 t) :
    Kept s0 (coalesceExpire r t) := by
  unfold coalesceExpire
  repeat' (first | with_reducible assumption | with_reducible apply Kept.ite | with_reducible apply ringSignal_kept)

theorem commitRec_kept (r : DirRec) {s0 t : State} (h : Kept s0 t) :
    Kept s0 (commitRec r t) := by
  unfold commitRec
  (try dsimp only)
  repeat' (first | with_reducible assumption | with_reducible apply Kept.ite | with_reducible apply State.flashErase_kept | with_reducible apply State.flashWrite_kept)

theorem protWrite_kept (req : Requester) (off : Nat) {s0 t : State} (h : Kept s0 t) :
    Kept s0 (protWrite req off t) := by
  unfold protWrite
  repeat' (first | with_reducible assumption | with_reducible apply Kept.ite | with_reducible apply hostWriteErr_kept | with_reducible apply State.emit_kept)

theorem ctlOnly_kept (req : Requester) (off : Nat) (f : State → State) {s0 t : State} (hf : ∀ (u : State), Kept s0 u → Kept s0 (f u)) (h : Kept s0 t) :
    Kept s0 (ctlOnly req off f t) := by
  unfold ctlOnly
  repeat' (first | with_reducible assumption | with_reducible apply Kept.ite | with_reducible apply hf | with_reducible apply protWrite_kept)

theorem lateFence_kept (f : Nat) (dev : Nat) {s0 t : State} (h : Kept s0 t) :
    Kept s0 (lateFence f dev t) := by
  unfold lateFence
  repeat' (first | with_reducible assumption | with_reducible apply sendFence_kept | with_reducible apply lateStop_kept)

theorem receiveFence_kept (f : Nat) (dev : Nat) {s0 t : State} (h : Kept s0 t) :
    Kept s0 (receiveFence f dev t) := by
  unfold receiveFence
  repeat' (first | with_reducible assumption | with_reducible apply Kept.ite | with_reducible apply adoptFence_kept | with_reducible apply lateFence_kept | with_reducible apply sendFence_kept | with_reducible apply State.raise_kept | split)

theorem fenceWordIn_kept (l : Nat) (dev : Nat) (fence : Nat) {s0 t : State} (h : Kept s0 t) :
    Kept s0 (fenceWordIn l dev fence t) := by
  unfold fenceWordIn
  repeat' (first | with_reducible assumption | with_reducible apply Kept.ite | with_reducible apply receiveFence_kept)

theorem linkCompare_kept (l : Nat) {s0 t : State} (h : Kept s0 t) :
    Kept s0 (linkCompare l t) := by
  unfold linkCompare
  (try dsimp only)
  repeat' (first | with_reducible assumption | with_reducible apply Kept.ite | with_reducible apply State.modLink_kept | with_reducible apply State.raise_kept | split)

theorem peerItemIn_kept (l : Nat) (item : Nat) (v : Nat) {s0 t : State} (h : Kept s0 t) :
    Kept s0 (peerItemIn l item v t) := by
  unfold peerItemIn
  (try dsimp only)
  repeat' (first | with_reducible assumption | with_reducible apply Kept.ite | with_reducible apply State.modLink_kept | with_reducible apply linkCompare_kept | (simp only [Kept.mk_eq]; with_reducible apply KeptF.of))

theorem sparingEnd_kept (l : Nat) (ok : Bool) {s0 t : State} (h : Kept s0 t) :
    Kept s0 (sparingEnd l ok t) := by
  unfold sparingEnd
  (try dsimp only)
  repeat' (first | with_reducible assumption | with_reducible apply Kept.ite | with_reducible apply State.raise_kept | with_reducible apply State.fset_kept | with_reducible apply State.modLink_kept | with_reducible apply laneReport_kept | with_reducible apply ctlPut_kept | split)

theorem laneWordIn_kept (l : Nat) (op : Nat) (lane : Nat) {s0 t : State} (h : Kept s0 t) :
    Kept s0 (laneWordIn l op lane t) := by
  unfold laneWordIn
  repeat' (first | with_reducible assumption | with_reducible apply Kept.ite | with_reducible apply ctlPut_kept | with_reducible apply sparingStart_kept | with_reducible apply State.modLink_kept | with_reducible apply sparingEnd_kept | split)

theorem linkGoBack_kept (l : Nat) (tag : BitVec 16) {s0 t : State} (h : Kept s0 t) :
    Kept s0 (linkGoBack l tag t) := by
  unfold linkGoBack
  (try dsimp only)
  repeat' (first | with_reducible assumption | with_reducible apply linkEmit_kept | with_reducible apply Kept.foldl | (intro _ _ _))

theorem resumeWordIn_kept (l : Nat) (tag : BitVec 16) {s0 t : State} (h : Kept s0 t) :
    Kept s0 (resumeWordIn l tag t) := by
  unfold resumeWordIn
  repeat' (first | with_reducible assumption | with_reducible apply Kept.ite | with_reducible apply linkGoBack_kept)

theorem msgWordIn_kept (l : Nat) (msg : Nat) {s0 t : State} (h : Kept s0 t) :
    Kept s0 (msgWordIn l msg t) := by
  unfold msgWordIn
  (try dsimp only)
  repeat' (first | with_reducible assumption | with_reducible apply Kept.ite | with_reducible apply State.raise_kept | with_reducible apply State.modLink_kept)

theorem ctlWordIn_kept (l : Nat) (v : Nat) (w : BitVec 64) {s0 t : State} (h : Kept s0 t) :
    Kept s0 (ctlWordIn l v w t) := by
  unfold ctlWordIn
  repeat' (first | with_reducible assumption | with_reducible apply fenceWordIn_kept | with_reducible apply peerItemIn_kept | with_reducible apply laneWordIn_kept | with_reducible apply resumeWordIn_kept | with_reducible apply msgWordIn_kept | split)

theorem regWriteWith_kept (eng : Word → State → Except Fault State) (req : Requester) (a : Nat) (size : Nat) (w : DWord) {s0 t u : State} {rv} (heng : ∀ (w : Word) (x y : State), Kept s0 x → eng w x = .ok y → Kept s0 y) (h : Kept s0 t)
    (e : regWriteWith eng req a size w t = .ok (rv, u)) : Kept s0 u := by
  unfold regWriteWith at e
  split at e
  · cases e; exact h
  · split at e
    · exact aliasWrite_kept _ _ _ _ heng h e
    · split at e
      · cases e; exact msixWrite_kept _ _ (msixWrite_kept _ _ h)
      · exact regWriteWord_kept _ _ _ _ heng h e

theorem engineBusy_kept (w : Word) {s0 t u : State} (h : Kept s0 t)
    (e : engineBusy w t = .ok u) : Kept s0 u := by
  unfold engineBusy at e
  (try dsimp only at e)
  repeat' (split at e)
  all_goals (try cases e)
  all_goals (repeat' (first | with_reducible assumption | with_reducible apply State.fset_kept))

theorem regReadWord_kept (req : Requester) (a : Nat) {s0 t : State} (h : Kept s0 t) :
    Kept s0 (regReadWord req a t).2 := by
  unfold regReadWord
  (try dsimp only)
  repeat' (first | with_reducible assumption | with_reducible apply Kept.ite | with_reducible apply State.setMbx_kept | split)

theorem regRead_kept (req : Requester) (a : Nat) (size : Nat) {s0 t : State} (h : Kept s0 t) :
    Kept s0 (regRead req a size t).2.2 := by
  unfold regRead
  (try dsimp only)
  repeat' (first | with_reducible assumption | with_reducible apply Kept.ite | with_reducible apply regReadWord_kept | split)

theorem lrBreak_kept (a : Nat) (n : Nat) {s0 t : State} (h : Kept s0 t) :
    Kept s0 (lrBreak a n t) := by
  unfold lrBreak
  repeat' (first | with_reducible assumption | with_reducible apply Kept.ite | with_reducible apply State.modPair_kept | with_reducible apply Kept.foldl | (intro _ _ _) | split)

theorem dbgAccess_kept (p : Path) (write : Bool) (addr : Nat) (data : Word) {s0 t u : State} {rv} (h : Kept s0 t)
    (e : dbgAccess p write addr data t = .ok (rv, u)) : Kept s0 u := by
  unfold dbgAccess at e
  dsimp only at e
  by_cases h1 : t.level p < (if needsL3 (addr % 2 ^ 48 - addr % 4) then 3 else if write then 2 else 1)
  · rw [if_pos h1] at e; cases e; exact h
  · rw [if_neg h1] at e
    split at e
    · cases e; exact h
    · split at e
      · split at e
        · obtain ⟨y, hy, e⟩ := exc_map e
          have hu : u = y.2 := by rw [Prod.ext_iff] at e; exact e.2.symm
          rw [hu]
          exact regWriteWith_kept _ _ _ _ _ (fun _ _ _ a b => engineBusy_kept _ a b) h hy
        · exact ok_kept e (regRead_kept _ _ _ h)
      · by_cases h2 : (isUser (addr % 2 ^ 48 - addr % 4) && t.memClosed (if write then 2 else 1) (addr % 2 ^ 48 - addr % 4) 4) = true
        · rw [if_pos h2] at e; cases e; exact h
        · rw [if_neg h2] at e
          split at e
          · exact ok_kept e (nocEnqueue_kept _ _ _ _ _ _ (Kept.ite (lrBreak_kept _ _ h) h))
          · split at e
            · exact ok_kept e (Kept.ite (lrBreak_kept _ _ (busWrite_kept _ _ _ h)) (busWrite_kept _ _ _ h))
            · exact ok_kept e (busRead_kept _ _ _ h)

theorem tapSelect_kept (ir : Byte) {s0 t : State} (h : Kept s0 t) :
    Kept s0 (tapSelect ir t) := by
  unfold tapSelect
  (try dsimp only)
  repeat' (first | with_reducible assumption | with_reducible apply Kept.ite | with_reducible apply State.fsetb_kept | with_reducible apply State.raise_kept | (simp only [Kept.mk_eq]; with_reducible apply KeptF.of))

theorem dbgacc_kept (write : Bool) (addr : Nat) (data : Word) {s0 t u : State} (h : Kept s0 t)
    (e : dbgacc write addr data t = .ok u) : Kept s0 u := by
  unfold dbgacc at e
  dsimp only at e
  have g1 : Kept s0 (State.emit (tapSelect 0x10#8 t) (.dbgacc (tapSelect 0x10#8 t).dbg.accStat (tapSelect 0x10#8 t).dbg.accData)) :=
    State.emit_kept _ (tapSelect_kept _ h)
  split at e
  · cases e; exact g1
  · obtain ⟨y, hy, rfl⟩ := exc_map e
    have g : Kept s0 y.2 := dbgAccess_kept _ _ _ _ g1 hy
    split
    · exact tapEnd_kept _ _ _ g
    · exact KeptF.of g

theorem linkBegin_kept (l : Nat) {s0 t : State} (h : Kept s0 t) :
    Kept s0 (linkBegin t l) := by
  unfold linkBegin
  (try dsimp only)
  repeat' (first | with_reducible assumption | with_reducible apply State.modLink_kept | with_reducible apply linkTo_kept | with_reducible apply linkTrain_kept | split)

theorem isoEnd_kept {s0 t : State} (h : Kept s0 t) :
    Kept s0 (isoEnd t) := by
  unfold isoEnd
  (try dsimp only)
  repeat' (first | with_reducible assumption | with_reducible apply Kept.ite | with_reducible apply isoApply_kept | with_reducible apply State.raise_kept | with_reducible apply State.fset_kept | (simp only [Kept.mk_eq]; with_reducible apply KeptF.of) | split)

theorem unitsOff_kept (p : Nat → Bool) {s0 t : State} (h : Kept s0 t) :
    Kept s0 (unitsOff p t) := by
  unfold unitsOff
  (try dsimp only)
  repeat' (first | with_reducible assumption | with_reducible apply Kept.ite | with_reducible apply State.fset_kept | (simp only [Kept.mk_eq]; with_reducible apply KeptF.of) | with_reducible apply Kept.foldl | (intro _ _ _))

theorem designBegin_kept {s0 t : State} (h : Kept s0 t) :
    Kept s0 (designBegin t) := by
  unfold designBegin
  (try dsimp only)
  repeat' (first | with_reducible assumption | with_reducible apply Kept.ite | with_reducible apply ellipsisClose_kept | with_reducible apply State.fset_kept | with_reducible apply linkBegin_kept | with_reducible apply isoEnd_kept | with_reducible apply unitsOff_kept | with_reducible apply clauseUnload_kept | (simp only [Kept.mk_eq]; with_reducible apply KeptF.of) | with_reducible apply Kept.foldl | (intro _ _ _))

theorem seqTake_kept (h_ : List Byte) (st : SeqState) {s0 t : State} (h : Kept s0 t) :
    Kept s0 (seqTake h_ st t) := by
  unfold seqTake
  (try dsimp only)
  repeat' (first | with_reducible assumption | with_reducible apply State.fset_kept | (simp only [Kept.mk_eq]; with_reducible apply KeptF.of))

theorem putFrame_kept (a : Nat) (data : Nat) {s0 t : State} (h : Kept s0 t) :
    Kept s0 (putFrame a data t) := by
  unfold putFrame
  (try dsimp only)
  repeat' (first | with_reducible assumption | (simp only [Kept.mk_eq]; with_reducible apply KeptF.of))

theorem rimClear_kept (fs : List (Nat × Nat)) {s0 t : State} (h : Kept s0 t) :
    Kept s0 (rimClear fs t) := by
  unfold rimClear
  repeat' (first | with_reducible assumption | with_reducible apply putFrame_kept | with_reducible apply Kept.foldl | (intro _ _ _))

theorem loadReport_kept (r : Nat) (what : Nat) {s0 t : State} (h : Kept s0 t) :
    Kept s0 (loadReport r what t) := by
  unfold loadReport
  repeat' (first | with_reducible assumption | with_reducible apply Kept.ite | with_reducible apply State.raise_kept | with_reducible apply State.freshNat_kept)

theorem rimPartDone_kept (r : Nat) (what : Nat) {s0 t : State} (h : Kept s0 t) :
    Kept s0 (rimPartDone r what t) := by
  unfold rimPartDone
  repeat' (first | with_reducible assumption | with_reducible apply Kept.ite | with_reducible apply loadReport_kept | with_reducible apply regionTo_kept)

theorem sliceBlank_kept (c : Nat) {s0 t : State} (h : Kept s0 t) :
    Kept s0 (sliceBlank c t) := by
  unfold sliceBlank
  (try dsimp only)
  repeat' (first | with_reducible assumption | with_reducible apply State.modClause_kept)

theorem loadAbandon_kept (j : LoadJob) (k : Nat) {s0 t : State} (h : Kept s0 t) :
    Kept s0 (loadAbandon j k t) := by
  unfold loadAbandon
  (try dsimp only)
  repeat' (first | with_reducible assumption | with_reducible apply Kept.ite | with_reducible apply rimClear_kept | with_reducible apply rimPartDone_kept | with_reducible apply sliceBlank_kept | with_reducible apply State.modClause_kept | with_reducible apply unitsOff_kept | with_reducible apply Kept.foldl | (intro _ _ _) | split)

theorem spareDecide_kept {s0 t : State} (h : Kept s0 t) :
    Kept s0 (spareDecide t) := by
  unfold spareDecide
  repeat' (first | with_reducible assumption | with_reducible apply spareGo_kept | with_reducible apply State.modClause_kept | with_reducible apply Kept.foldl | (intro _ _ _) | split)

theorem loadRefuse_kept (r : Ref) {s0 t : State} (h : Kept s0 t) :
    Kept s0 (loadRefuse r t) := by
  unfold loadRefuse
  (try dsimp only)
  repeat' (first | with_reducible assumption | with_reducible apply Kept.ite | with_reducible apply loadAbandon_kept | with_reducible apply State.freshNat_kept | with_reducible apply spareDecide_kept | with_reducible apply State.fset_kept | with_reducible apply loadRaise_kept | with_reducible apply bootFailCode_kept | with_reducible apply bootFail_kept | with_reducible apply svcRespond_kept | (simp only [Kept.mk_eq]; with_reducible apply KeptF.of) | split)

theorem stageUnit_kept (u : Nat) (addr : Nat) (w : QWord) {s0 t : State} (h : Kept s0 t) :
    Kept s0 (stageUnit u addr w t) := by
  unfold stageUnit
  (try dsimp only)
  repeat' (first | with_reducible assumption | with_reducible apply State.fset_kept | (simp only [Kept.mk_eq]; with_reducible apply KeptF.of))

theorem stageSet_kept (set : Nat) (a1 : List (Nat × Nat × QWord)) {s0 t u : State} (h : Kept s0 t)
    (e : stageSet set a1 t = .inr u) : Kept s0 u := by
  induction a1 generalizing t with
  | nil => cases e; exact h
  | cons r l ih =>
    obtain ⟨i, a, w⟩ := r
    unfold stageSet at e
    split at e
    · cases e
    · rename_i own _
      refine ih ?_ e
      exact KeptF.of (stageUnit_kept own a w h)

theorem stageLoadSets_kept (g : Img) (a1 : List Nat) {s0 t u : State} (h : Kept s0 t)
    (e : stageLoadSets g a1 t = .inr u) : Kept s0 u := by
  induction a1 generalizing t with
  | nil => cases e; exact h
  | cons k l ih =>
    unfold stageLoadSets at e
    split at e
    · cases e
    · exact ih (stageSet_kept _ _ h (by assumption)) e

theorem loadDone_kept (j : LoadJob) {s0 t : State} (h : Kept s0 t) :
    Kept s0 (loadDone j t) := by
  unfold loadDone
  (try dsimp only)
  repeat' (first | with_reducible assumption | with_reducible apply State.fset_kept | with_reducible apply svcRespond_kept | with_reducible apply loadRaise_kept | (simp only [Kept.mk_eq]; with_reducible apply KeptF.of))

theorem rimPreload_kept (b : Nat) {s0 t : State} (h : Kept s0 t) :
    Kept s0 (rimPreload b t) := by
  unfold rimPreload
  repeat' (first | with_reducible assumption | with_reducible apply Kept.ite | with_reducible apply State.modGroup_kept | with_reducible apply Kept.foldl | (intro _ _ _))

theorem linksRelease_kept {s0 t : State} (h : Kept s0 t) :
    Kept s0 (linksRelease t) := by
  unfold linksRelease
  (try dsimp only)
  repeat' (first | with_reducible assumption | with_reducible apply State.modLink_kept | with_reducible apply linkCompare_kept | with_reducible apply Kept.foldl | (intro _ _ _))

theorem groupsGate_kept {s0 t : State} (h : Kept s0 t) :
    Kept s0 (groupsGate t) := by
  unfold groupsGate
  (try dsimp only)
  repeat' (first | with_reducible assumption | with_reducible apply Kept.ite | with_reducible apply State.fset_kept | with_reducible apply gateDomain_kept | (simp only [Kept.mk_eq]; with_reducible apply KeptF.of) | with_reducible apply Kept.foldl | (intro _ _ _))

theorem designFinish_kept (j : LoadJob) (g : Img) {s0 t : State} (h : Kept s0 t) :
    Kept s0 (designFinish j g t) := by
  unfold designFinish
  (try dsimp only)
  repeat' (first | with_reducible assumption | with_reducible apply Kept.ite | with_reducible apply seqTake_kept | with_reducible apply loadRefuse_kept | with_reducible apply patchSwap_kept | with_reducible apply loadDone_kept | with_reducible apply rimPreload_kept | with_reducible apply linksRelease_kept | with_reducible apply groupsGate_kept | (simp only [Kept.mk_eq]; with_reducible apply KeptF.of) | (refine stageLoadSets_kept _ _ ?_ (by assumption)) | split)

theorem dictRewrite_kept (c : Nat) (e : Nat) {s0 t : State} (h : Kept s0 t) :
    Kept s0 (dictRewrite c e t) := by
  unfold dictRewrite
  repeat' (first | with_reducible assumption | with_reducible apply State.modClause_kept)

theorem dictSweep_kept (c : Nat) (ph : Nat) (e : Nat) {s0 t : State} (h : Kept s0 t) :
    Kept s0 (dictSweep c ph e t) := by
  unfold dictSweep
  (try dsimp only)
  repeat' (first | with_reducible assumption | with_reducible apply Kept.ite | with_reducible apply dictOutcome_kept)

theorem rimPartFence_kept (rs : List Nat) {s0 t : State} (h : Kept s0 t) :
    Kept s0 (rimPartFence rs t) := by
  unfold rimPartFence
  repeat' (first | with_reducible assumption | with_reducible apply Kept.ite | with_reducible apply loadReport_kept | with_reducible apply regionFence_kept | with_reducible apply Kept.foldl | (intro _ _ _))

theorem directoryFrame_kept (f : Frame) (j0 : LoadJob) {s0 t : State} (h : Kept s0 t) :
    Kept s0 (directoryFrame f j0 t) := by
  unfold directoryFrame
  (try dsimp only)
  repeat' (first | with_reducible assumption | with_reducible apply Kept.ite | with_reducible apply State.setJob_kept | with_reducible apply loadRefuse_kept | with_reducible apply State.freshNat_kept | with_reducible apply rimPartFence_kept | with_reducible apply spareDecide_kept | (simp only [Kept.mk_eq]; with_reducible apply KeptF.of) | split)

theorem dlSwitch_kept (row : Nat) {s0 t : State} (h : Kept s0 t) :
    Kept s0 (dlSwitch row t) := by
  unfold dlSwitch
  (try dsimp only)
  repeat' (first | with_reducible assumption | with_reducible apply Kept.ite | with_reducible apply nocPump_kept | with_reducible apply State.fsetb_kept | (simp only [Kept.mk_eq]; with_reducible apply KeptF.of))

theorem dmaFail_kept (c : Nat) (err : Nat) (status : Nat) {s0 t : State} (h : Kept s0 t) :
    Kept s0 (dmaFail c err status t) := by
  unfold dmaFail
  repeat' (first | with_reducible assumption | with_reducible apply Kept.ite | with_reducible apply State.raise_kept | with_reducible apply State.modDma_kept)

theorem dmaDone_kept (c : Nat) (d : List Byte) {s0 t : State} (h : Kept s0 t) :
    Kept s0 (dmaDone c d t) := by
  unfold dmaDone
  (try dsimp only)
  repeat' (first | with_reducible assumption | with_reducible apply Kept.ite | with_reducible apply State.modDma_kept | with_reducible apply State.emit_kept | with_reducible apply signal_kept | with_reducible apply State.raise_kept)

theorem dmaDesc_kept (c : Nat) (d : List Byte) (data : List Byte) {s0 t : State} (h : Kept s0 t) :
    Kept s0 (dmaDesc c d data t) := by
  unfold dmaDesc
  (try dsimp only)
  repeat' (first | with_reducible assumption | with_reducible apply Kept.ite | with_reducible apply State.emit_kept | with_reducible apply dmaFail_kept | with_reducible apply busWriteAll_kept | with_reducible apply dmaDone_kept | with_reducible apply busReadAll_kept)

theorem doorbellErr_kept (off : Nat) (w : Word) {s0 t : State} (h : Kept s0 t) :
    Kept s0 (doorbellErr off w t) := by
  unfold doorbellErr
  repeat' (first | with_reducible assumption | with_reducible apply State.raise_kept | with_reducible apply State.count_kept)

theorem dmaDoorbell_kept (c : Nat) (w : Word) {s0 t : State} (h : Kept s0 t) :
    Kept s0 (dmaDoorbell c w t) := by
  unfold dmaDoorbell
  (try dsimp only)
  repeat' (first | with_reducible assumption | with_reducible apply Kept.ite | with_reducible apply doorbellErr_kept | with_reducible apply State.modDma_kept)

theorem hbmReady_kept (k : Nat) {s0 t : State} (h : Kept s0 t) :
    Kept s0 (hbmReady k t) := by
  unfold hbmReady
  repeat' (first | with_reducible assumption | with_reducible apply Kept.ite | with_reducible apply State.fset_kept)

theorem domainReady_kept (d : Nat) {s0 t : State} (h : Kept s0 t) :
    Kept s0 (domainReady d t) := by
  unfold domainReady
  (try dsimp only)
  repeat' (first | with_reducible assumption | with_reducible apply Kept.ite | with_reducible apply State.fset_kept | with_reducible apply hbmReady_kept | with_reducible apply linkEnable_kept | with_reducible apply gateReport_kept | (simp only [Kept.mk_eq]; with_reducible apply KeptF.of) | with_reducible apply Kept.foldl | (intro _ _ _))

theorem droopDetect_kept (monitor : Nat) (mv : Nat) {s0 t : State} (h : Kept s0 t) :
    Kept s0 (droopDetect monitor mv t) := by
  unfold droopDetect
  (try dsimp only)
  repeat' (first | with_reducible assumption | with_reducible apply throttleApply_kept | (simp only [Kept.mk_eq]; with_reducible apply KeptF.of))

theorem droopRelease_kept {s0 t : State} (h : Kept s0 t) :
    Kept s0 (droopRelease t) := by
  unfold droopRelease
  (try dsimp only)
  repeat' (first | with_reducible assumption | with_reducible apply throttleApply_kept | (simp only [Kept.mk_eq]; with_reducible apply KeptF.of))

theorem rimHeld_kept {s0 t : State} (h : Kept s0 t) :
    Kept s0 (rimHeld t) := by
  unfold rimHeld
  repeat' (first | with_reducible assumption | with_reducible apply Kept.ite | with_reducible apply State.modGroup_kept | with_reducible apply Kept.foldl | (intro _ _ _))

theorem ellipsisTick_kept (d : Nat) {s0 t : State} (h : Kept s0 t) :
    Kept s0 (ellipsisTick d t) := by
  unfold ellipsisTick
  (try dsimp only)
  repeat' (first | with_reducible assumption | with_reducible apply Kept.ite | with_reducible apply rimHeld_kept | with_reducible apply ellipsisSample_kept | (simp only [Kept.mk_eq]; with_reducible apply KeptF.of))

theorem engineGo_kept (w : Word) {s0 t u : State} (h : Kept s0 t)
    (e : engineGo w t = .ok u) : Kept s0 u := by
  unfold engineGo at e
  split at e
  · exact engineBusy_kept _ h e
  · dsimp only at e
    obtain ⟨y, hy, rfl⟩ := exc_map e
    have g : Kept s0 y.2 := dbgAccess_kept _ _ _ _ (State.fset_kept _ _ h) hy
    split
    · exact engineEnd_kept _ _ _ g
    · exact State.fset_kept _ _ g

theorem errorLog_kept (e : Ev) {s0 t : State} (h : Kept s0 t) :
    Kept s0 (errorLog e t) := by
  unfold errorLog
  (try dsimp only)
  repeat' (first | with_reducible assumption | with_reducible apply Kept.ite | with_reducible apply State.fresh_kept | with_reducible apply logWrite_kept)

theorem eventAccept_kept (k : Nat) {s0 t : State} (h : Kept s0 t) :
    Kept s0 (eventAccept k t) := by
  unfold eventAccept
  split
  · exact h
  · split
    · exact h
    · refine errorLog_kept _ ⟨h.pending, h.mem, h.flash, fun _ => ?_, h.fuses⟩
      simp only [List.length_append, List.length_cons, List.length_nil]
      omega

theorem eventDoorbell_kept (r : Nat) (w : Word) {s0 t : State} (h : Kept s0 t) :
    Kept s0 (eventDoorbell r w t) := by
  unfold eventDoorbell
  (try dsimp only)
  repeat' (first | with_reducible assumption | with_reducible apply Kept.ite | with_reducible apply doorbellErr_kept | with_reducible apply State.modRing_kept)

theorem sparingEye_kept (l : Nat) (lane : Nat) (low : Bool) {s0 t : State} (h : Kept s0 t) :
    Kept s0 (sparingEye l lane low t) := by
  unfold sparingEye
  (try dsimp only)
  repeat' (first | with_reducible assumption | with_reducible apply Kept.ite | with_reducible apply sparingSeen_kept | (simp only [Kept.mk_eq]; with_reducible apply KeptF.of))

theorem eyeScan_kept (l : Nat) (lane : Nat) (h_ : Nat) (w : Nat) {s0 t : State} (h : Kept s0 t) :
    Kept s0 (eyeScan l lane h_ w t) := by
  unfold eyeScan
  (try dsimp only)
  repeat' (first | with_reducible assumption | with_reducible apply Kept.ite | with_reducible apply State.modLink_kept | with_reducible apply sparingEye_kept | with_reducible apply State.raise_kept)

theorem ffEdge_kept (ts : List Nat) (s : State) {s0 t : State} (hs : Kept s0 s) (h : Kept s0 t) :
    Kept s0 (ffEdge ts s t) := by
  unfold ffEdge
  (try dsimp only)
  repeat' (first | with_reducible assumption | (simp only [Kept.mk_eq]; with_reducible apply KeptF.of))

theorem ffReset_kept {s0 t : State} (h : Kept s0 t) :
    Kept s0 (ffReset t) := by
  unfold ffReset
  (try dsimp only)
  repeat' (first | with_reducible assumption | (simp only [Kept.mk_eq]; with_reducible apply KeptF.of))

theorem flashDone_kept (ok : Bool) {s0 t : State} (h : Kept s0 t) :
    Kept s0 (flashDone ok t) := by
  unfold flashDone
  (try dsimp only)
  repeat' (first | with_reducible assumption | with_reducible apply Kept.ite | with_reducible apply State.fset_kept | with_reducible apply State.freshBytes_kept | with_reducible apply State.flashWrite_kept | with_reducible apply State.flashErase_kept | (simp only [Kept.mk_eq]; with_reducible apply KeptF.of) | split)

theorem flashTick_kept {s0 t : State} (h : Kept s0 t) :
    Kept s0 (flashTick t) := by
  unfold flashTick
  (try dsimp only)
  repeat' (first | with_reducible assumption | with_reducible apply Kept.ite | (simp only [Kept.mk_eq]; with_reducible apply KeptF.of) | split)

theorem fpStage_kept (c : List Byte) (k : Nat) {s0 t : State} (h : Kept s0 t) :
    Kept s0 (fpStage c k t) := by
  unfold fpStage
  (try dsimp only)
  repeat' (first | with_reducible assumption | with_reducible apply State.fset_kept | (simp only [Kept.mk_eq]; with_reducible apply KeptF.of))

theorem frameBad_kept (j : LoadJob) {s0 t : State} (h : Kept s0 t) :
    Kept s0 (frameBad j t) := by
  unfold frameBad
  (try dsimp only)
  repeat' (first | with_reducible assumption | with_reducible apply Kept.ite | with_reducible apply loadRaise_kept | with_reducible apply State.setJob_kept | with_reducible apply loadRefuse_kept | (simp only [Kept.mk_eq]; with_reducible apply KeptF.of))

theorem loadBytes_kept (j : LoadJob) (bytes : List Byte) (readOk : Bool) {s0 t : State} (h : Kept s0 t) :
    Kept s0 (loadBytes j bytes readOk t).2 := by
  unfold loadBytes
  (try dsimp only)
  repeat' (first | with_reducible assumption | with_reducible apply Kept.ite | with_reducible apply portRead_kept | split)

theorem headerTake_kept (j : LoadJob) {s0 t : State} (h : Kept s0 t) :
    Kept s0 (headerTake j t) := by
  unfold headerTake
  (try dsimp only)
  repeat' (first | with_reducible assumption | with_reducible apply loadRefuse_kept | with_reducible apply State.setJob_kept | (simp only [Kept.mk_eq]; with_reducible apply KeptF.of) | split)

theorem headerFrame_kept (f : Frame) (j0 : LoadJob) {s0 t : State} (h : Kept s0 t) :
    Kept s0 (headerFrame f j0 t) := by
  unfold headerFrame
  (try dsimp only)
  repeat' (first | with_reducible assumption | with_reducible apply Kept.ite | with_reducible apply State.fset_kept | with_reducible apply State.setJob_kept | with_reducible apply headerTake_kept)

theorem reloadFinish_kept (j : LoadJob) {s0 t : State} (h : Kept s0 t) :
    Kept s0 (reloadFinish j t) := by
  unfold reloadFinish
  repeat' (first | with_reducible assumption | with_reducible apply loadRefuse_kept | with_reducible apply loadDone_kept | with_reducible apply sigEpoch_kept | with_reducible apply unitsOff_kept | split)

theorem loadFinish_kept (j : LoadJob) {s0 t : State} (h : Kept s0 t) :
    Kept s0 (loadFinish j t) := by
  unfold loadFinish
  repeat' (first | with_reducible assumption | with_reducible apply Kept.ite | with_reducible apply designFinish_kept | with_reducible apply reloadFinish_kept | with_reducible apply loadDone_kept | with_reducible apply bootDone_kept | split)

theorem sectionNext_kept (j : LoadJob) {s0 t : State} (h : Kept s0 t) :
    Kept s0 (sectionNext j t) := by
  unfold sectionNext
  (try dsimp only)
  repeat' (first | with_reducible assumption | with_reducible apply Kept.ite | with_reducible apply State.setJob_kept | with_reducible apply loadFinish_kept)

theorem rimBaseBegin_kept {s0 t : State} (h : Kept s0 t) :
    Kept s0 (rimBaseBegin t) := by
  unfold rimBaseBegin
  (try dsimp only)
  repeat' (first | with_reducible assumption | with_reducible apply State.modBank_kept | with_reducible apply bankReport_kept | (simp only [Kept.mk_eq]; with_reducible apply KeptF.of) | with_reducible apply Kept.foldl | (intro _ _ _) | split)

theorem rimPartBegin_kept (r : Nat) {s0 t : State} (h : Kept s0 t) :
    Kept s0 (rimPartBegin r t) := by
  unfold rimPartBegin
  repeat' (first | with_reducible assumption | with_reducible apply Kept.ite | with_reducible apply regionTo_kept | with_reducible apply regionFence_kept)

theorem sliceBegin_kept (j : LoadJob) (e : DirEnt) {s0 t : State} (h : Kept s0 t) :
    Kept s0 (sliceBegin j e t) := by
  unfold sliceBegin
  repeat' (first | with_reducible assumption | with_reducible apply State.modClause_kept | split)

theorem rimWrite_kept (fs : List (Nat × Nat)) {s0 t : State} (h : Kept s0 t) :
    Kept s0 (rimWrite fs t) := by
  unfold rimWrite
  repeat' (first | with_reducible assumption | with_reducible apply putFrame_kept | with_reducible apply Kept.foldl | (intro _ _ _))

theorem sliceUnit_kept (xf : Nat) (pc : Nat) (ty : Nat) (k : Nat) (c : List Byte) {s0 t : State} (h : Kept s0 t) :
    Kept s0 (sliceUnit xf pc ty k c t) := by
  unfold sliceUnit
  (try dsimp only)
  repeat' (first | with_reducible assumption | with_reducible apply Kept.ite | with_reducible apply setSchMark_kept | with_reducible apply State.modClause_kept | with_reducible apply dictWrite_kept | with_reducible apply Kept.foldl | (intro _ _ _))

end Sys2Proof.Machine
end

