-- ==== Sys2Proof/Laws/Kept4.lean ====
section
/-! SUPPORT. Kept4.lean: each operation keeps what `Kept` names, part 4. -/
set_option Elab.async false
namespace Sys2Proof.Machine

theorem sliceUnits_kept (xf : Nat) (pc : Nat) (ty : Nat) (lo : Nat) (hi : Nat) (c : List Byte) {s0 t : State} (h : Kept s0 t) :
    Kept s0 (sliceUnits xf pc ty lo hi c t) := by
  unfold sliceUnits
  (try dsimp only)
  repeat' (first | with_reducible assumption | with_reducible apply Kept.ite | with_reducible apply sliceUnit_kept | with_reducible apply Kept.foldl | (intro _ _ _))

theorem sliceArrives_kept (j : LoadJob) (e : DirEnt) (lo : Nat) (c : List Byte) {s0 t : State} (h : Kept s0 t) :
    Kept s0 (sliceArrives j e lo c t) := by
  unfold sliceArrives
  repeat' (first | with_reducible assumption | with_reducible apply sliceUnits_kept | split)

theorem lastErr_kept (a : Nat) (word : Nat) {s0 t : State} (h : Kept s0 t) :
    Kept s0 (lastErr a word t) := by
  unfold lastErr
  (try dsimp only)
  repeat' (first | with_reducible assumption | (simp only [Kept.mk_eq]; with_reducible apply KeptF.of))

theorem rimBaseDone_kept {s0 t : State} (h : Kept s0 t) :
    Kept s0 (rimBaseDone t) := by
  unfold rimBaseDone
  (try dsimp only)
  repeat' (first | with_reducible assumption | (simp only [Kept.mk_eq]; with_reducible apply KeptF.of))

theorem sectionApply.sectionNext'_kept (e : DirEnt) (c : List Byte) (j : LoadJob) {s0 t : State} (h : Kept s0 t) :
    Kept s0 (sectionApply.sectionNext' e c j t) := by
  unfold sectionApply.sectionNext'
  (try dsimp only)
  repeat' (first | with_reducible assumption | with_reducible apply Kept.ite | with_reducible apply loadRefuse_kept | with_reducible apply lastErr_kept | with_reducible apply State.freshNat_kept | with_reducible apply rimWrite_kept | with_reducible apply sectionNext_kept | with_reducible apply rimBaseDone_kept | with_reducible apply rimPartDone_kept | with_reducible apply Kept.foldl | (intro _ _ _) | split)

theorem slotsWrite_kept (g : Img) (c : List Byte) {s0 t : State} (h : Kept s0 t) :
    Kept s0 (slotsWrite g c t) := by
  unfold slotsWrite
  (try dsimp only)
  repeat' (first | with_reducible assumption | with_reducible apply State.modLink_kept | with_reducible apply Kept.foldl | (intro _ _ _) | split)

theorem slotsFinish_kept (j : LoadJob) (g : Img) (c : List Byte) {s0 t : State} (h : Kept s0 t) :
    Kept s0 (slotsFinish j g c t) := by
  unfold slotsFinish
  repeat' (first | with_reducible assumption | with_reducible apply Kept.ite | with_reducible apply State.setJob_kept | with_reducible apply loadRefuse_kept | with_reducible apply sectionNext_kept | with_reducible apply slotsWrite_kept | split)

theorem linkRemode_kept (l : Nat) (mode : Nat) {s0 t : State} (h : Kept s0 t) :
    Kept s0 (linkRemode l mode t) := by
  unfold linkRemode
  (try dsimp only)
  repeat' (first | with_reducible assumption | with_reducible apply Kept.ite | with_reducible apply State.fset_kept | with_reducible apply State.modLink_kept | with_reducible apply linkOff_kept | with_reducible apply linkTrain_kept)

theorem linksRemode_kept (g : Img) (j : LoadJob) (c : List Byte) {s0 t : State} (h : Kept s0 t) :
    Kept s0 (linksRemode g j c t) := by
  unfold linksRemode
  repeat' (first | with_reducible assumption | with_reducible apply linkRemode_kept | with_reducible apply Kept.foldl | (intro _ _ _) | split)

theorem sectionApply_kept (e : DirEnt) (c : List Byte) (j0 : LoadJob) {s0 t : State} (h : Kept s0 t) :
    Kept s0 (sectionApply e c j0 t) := by
  unfold sectionApply
  (try dsimp only)
  repeat' (first | with_reducible assumption | with_reducible apply Kept.ite | with_reducible apply sectionApply.sectionNext'_kept | with_reducible apply loadRefuse_kept | with_reducible apply sectionNext_kept | with_reducible apply State.freshNat_kept | with_reducible apply slotsFinish_kept | with_reducible apply linksRemode_kept | (simp only [Kept.mk_eq]; with_reducible apply KeptF.of) | (refine clauseLoad_kept _ _ _ ?_ (by assumption)) | split)

theorem sectionComplete_kept (e : DirEnt) (j : LoadJob) {s0 t : State} (h : Kept s0 t) :
    Kept s0 (sectionComplete e j t) := by
  unfold sectionComplete
  repeat' (first | with_reducible assumption | with_reducible apply Kept.ite | with_reducible apply sectionNext_kept | with_reducible apply loadRefuse_kept | with_reducible apply State.setJob_kept | with_reducible apply sectionApply_kept)

theorem sectionFrame_kept (f : Frame) (j : LoadJob) {s0 t : State} (h : Kept s0 t) :
    Kept s0 (sectionFrame f j t) := by
  unfold sectionFrame
  (try dsimp only)
  repeat' (first | with_reducible assumption | with_reducible apply Kept.ite | with_reducible apply sectionNext_kept | with_reducible apply State.setJob_kept | with_reducible apply loadRefuse_kept | with_reducible apply rimBaseBegin_kept | with_reducible apply rimPartBegin_kept | with_reducible apply sliceBegin_kept | with_reducible apply rimWrite_kept | with_reducible apply sliceArrives_kept | with_reducible apply sectionComplete_kept | (simp only [Kept.mk_eq]; with_reducible apply KeptF.of) | split)

theorem frameReceive_kept (bytes : List Byte) (readOk : Bool) {s0 t : State} (h : Kept s0 t) :
    Kept s0 (frameReceive bytes readOk t) := by
  unfold frameReceive
  (try dsimp only)
  repeat' (first | with_reducible assumption | with_reducible apply Kept.ite | with_reducible apply loadBytes_kept | with_reducible apply frameBad_kept | with_reducible apply loadRefuse_kept | with_reducible apply headerFrame_kept | with_reducible apply directoryFrame_kept | with_reducible apply sectionFrame_kept | (simp only [Kept.mk_eq]; with_reducible apply KeptF.of) | split)

theorem framingLock_kept (l : Nat) (trip : Nat) (decode : Nat) {s0 t : State} (h : Kept s0 t) :
    Kept s0 (framingLock l trip decode t) := by
  unfold framingLock
  repeat' (first | with_reducible assumption | with_reducible apply Kept.ite | with_reducible apply State.modLink_kept | with_reducible apply linkTo_kept)

theorem framingLost_kept (l : Nat) {s0 t : State} (h : Kept s0 t) :
    Kept s0 (framingLost l t) := by
  unfold framingLost
  (try dsimp only)
  repeat' (first | with_reducible assumption | with_reducible apply linkTrain_kept | with_reducible apply ctlPut_kept | with_reducible apply linkTo_kept | split)

theorem fwHotfixSvc_kept (slot : Nat) (stream : List Byte) {s0 t : State} (h : Kept s0 t) :
    Kept s0 (fwHotfixSvc slot stream t) := by
  unfold fwHotfixSvc
  (try dsimp only)
  repeat' (first | with_reducible assumption | with_reducible apply Kept.ite | with_reducible apply svcBytes_kept | with_reducible apply bootRefuse_kept | with_reducible apply svcRespond_kept | with_reducible apply fpStage_kept | with_reducible apply fpApply_kept | with_reducible apply Kept.foldl | (intro _ _ _) | split)

theorem secReload_kept (content : List Byte) (from_ : Nat) {s0 t : State} (h : Kept s0 t) :
    Kept s0 (secReload content from_ t) := by
  unfold secReload
  repeat' (first | with_reducible assumption | with_reducible apply keyxAbort_kept | with_reducible apply State.modPair_kept | with_reducible apply State.store_kept)

theorem fwSwap_kept (slot : Nat) {s0 t : State} (h : Kept s0 t) :
    Kept s0 (fwSwap slot t) := by
  unfold fwSwap
  (try dsimp only)
  repeat' (first | with_reducible assumption | with_reducible apply Kept.ite | with_reducible apply svcRespond_kept | with_reducible apply bootRefuse_kept | with_reducible apply secReload_kept | with_reducible apply State.freshBytes_kept | with_reducible apply memWrite_kept | with_reducible apply codebaseSet_kept | (simp only [Kept.mk_eq]; with_reducible apply KeptF.of) | split)

theorem fwUpdate_kept (slot : Nat) (stream : List Byte) {s0 t : State} (h : Kept s0 t) :
    Kept s0 (fwUpdate slot stream t) := by
  unfold fwUpdate
  (try dsimp only)
  repeat' (first | with_reducible assumption | with_reducible apply Kept.ite | with_reducible apply svcBytes_kept | with_reducible apply bootRefuse_kept | with_reducible apply commitRec_kept | with_reducible apply State.flashWrite_kept | with_reducible apply State.flashErase_kept | with_reducible apply svcRespond_kept | split)

theorem hbmArrive_kept (m : Nat) (struck : Nat → Bool) {s0 t : State} (h : Kept s0 t) :
    Kept s0 (hbmArrive m struck t) := by
  unfold hbmArrive
  (try dsimp only)
  repeat' (first | with_reducible assumption | with_reducible apply Kept.ite | with_reducible apply userRead_kept | (simp only [Kept.mk_eq]; with_reducible apply KeptF.of) | split)

theorem hifLink_kept (speed : Nat) (width : Nat) (flit : Bool) (dlup : Bool) {s0 t : State} (h : Kept s0 t) :
    Kept s0 (hifLink speed width flit dlup t) := by
  unfold hifLink
  repeat' (first | with_reducible assumption | with_reducible apply State.raise_kept | with_reducible apply State.fsetb_kept | with_reducible apply State.fset_kept)

theorem hifReset_kept {s0 t : State} (h : Kept s0 t) :
    Kept s0 (hifReset t) := by
  unfold hifReset
  (try dsimp only)
  repeat' (first | with_reducible assumption | with_reducible apply State.fset_kept | with_reducible apply State.modDma_kept | (simp only [Kept.mk_eq]; with_reducible apply KeptF.of) | with_reducible apply Kept.foldl | (intro _ _ _))

theorem holdoffEnd_kept (u : Nat) {s0 t : State} (h : Kept s0 t) :
    Kept s0 (holdoffEnd u t) := by
  unfold holdoffEnd
  repeat' (first | with_reducible assumption | with_reducible apply Kept.ite | with_reducible apply State.modUnit_kept)

theorem identDone_kept (l : Nat) (serial : DWord) (plink : Nat) {s0 t : State} (h : Kept s0 t) :
    Kept s0 (identDone l serial plink t) := by
  unfold identDone
  (try dsimp only)
  repeat' (first | with_reducible assumption | with_reducible apply Kept.ite | with_reducible apply State.fset_kept | with_reducible apply State.modLink_kept | with_reducible apply linkTo_kept | with_reducible apply linkAnnounce_kept | with_reducible apply State.raise_kept)

theorem ioShort_kept (b : Nat) (pin : Nat) (level : Bool) {s0 t : State} (h : Kept s0 t) :
    Kept s0 (ioShort b pin level t) := by
  unfold ioShort
  repeat' (first | with_reducible assumption | with_reducible apply Kept.ite | with_reducible apply rimIoRaise_kept | with_reducible apply State.modBank_kept)

theorem keySample_kept (b : Nat) (key : Nat) {s0 t : State} (h : Kept s0 t) :
    Kept s0 (keySample b key t) := by
  unfold keySample
  (try dsimp only)
  repeat' (first | with_reducible assumption | with_reducible apply Kept.ite | with_reducible apply State.modBank_kept | with_reducible apply rimIoRaise_kept | split)

theorem kickTick_kept (p : Nat) {s0 t : State} (h : Kept s0 t) :
    Kept s0 (kickTick p t) := by
  unfold kickTick
  repeat' (first | with_reducible assumption | with_reducible apply Kept.ite | with_reducible apply State.modPair_kept)

theorem laneLoss_kept (l : Nat) (lane : Nat) {s0 t : State} (h : Kept s0 t) :
    Kept s0 (laneLoss l lane t) := by
  unfold laneLoss
  (try dsimp only)
  repeat' (first | with_reducible assumption | with_reducible apply Kept.ite | with_reducible apply State.fset_kept | with_reducible apply ctlPut_kept | with_reducible apply sparingStart_kept | with_reducible apply framingLost_kept)

theorem nocWord_kept (x : NocAcc) {s0 t : State} (h : Kept s0 t) :
    Kept s0 (nocWord x t).2 := by
  unfold nocWord
  (try dsimp only)
  repeat' (first | with_reducible assumption | with_reducible apply Kept.ite | with_reducible apply nocWrite_kept | with_reducible apply nocRead_kept | split)

theorem nocServe_kept (bank : Nat) {s0 t u : State} {rv} (h : Kept s0 t)
    (e : nocServe bank t = some (rv, u)) : Kept s0 u := by
  unfold nocServe at e
  split at e
  · cases e
  · obtain ⟨y, -, hy⟩ := Option.map_eq_some_iff.1 e
    have hw := nocWord_kept y h
    dsimp only at hy
    split at hy
    · cases hy
      exact KeptF.of hw
    · cases hy
      exact nocWaited_kept _ _ (KeptF.of hw)

theorem lexNoc_kept (bank : Nat) {s0 t : State} (h : Kept s0 t) :
    Kept s0 (lexNoc bank t) := by
  unfold lexNoc
  repeat' (first | with_reducible assumption | with_reducible apply Kept.ite | with_reducible apply nocAnswer_kept | (refine nocServe_kept _ ?_ (by assumption)) | split)

theorem lifeRecord_kept (hours : Nat) (avg : Nat) {s0 t : State} (h : Kept s0 t) :
    Kept s0 (lifeRecord hours avg t) := by
  unfold lifeRecord
  (try dsimp only)
  repeat' (first | with_reducible assumption | with_reducible apply Kept.ite | with_reducible apply State.fresh_kept | with_reducible apply logWrite_kept)

theorem linkDiscard_kept (l : Nat) {s0 t : State} (h : Kept s0 t) :
    Kept s0 (linkDiscard l t) := by
  unfold linkDiscard
  (try dsimp only)
  repeat' (first | with_reducible assumption | with_reducible apply Kept.ite | with_reducible apply State.modLink_kept | with_reducible apply State.count_kept | with_reducible apply ctlPut_kept | with_reducible apply State.raise_kept)

theorem linkFail_kept (l : Nat) (reason : Nat) {s0 t : State} (h : Kept s0 t) :
    Kept s0 (linkFail l reason t) := by
  unfold linkFail
  (try dsimp only)
  repeat' (first | with_reducible assumption | with_reducible apply State.fset_kept | with_reducible apply State.modLink_kept | with_reducible apply linkTo_kept)

theorem linkDown_kept (l : Nat) (reason : Nat) {s0 t : State} (h : Kept s0 t) :
    Kept s0 (linkDown l reason t) := by
  unfold linkDown
  repeat' (first | with_reducible assumption | with_reducible apply State.raise_kept | with_reducible apply linkFail_kept)

theorem linkIdle_kept (l : Nat) {s0 t : State} (h : Kept s0 t) :
    Kept s0 (linkIdle l t) := by
  unfold linkIdle
  (try dsimp only)
  repeat' (first | with_reducible assumption | with_reducible apply Kept.ite | with_reducible apply linkFrame_kept | with_reducible apply linkEmit_kept)

theorem linkModeFail_kept (l : Nat) {s0 t : State} (h : Kept s0 t) :
    Kept s0 (linkModeFail l t) := by
  unfold linkModeFail
  repeat' (first | with_reducible assumption | with_reducible apply State.raise_kept | with_reducible apply linkFail_kept)

theorem xtDeliver_kept (l : Nat) (v : Nat) (xt : BitVec 4) {s0 t : State} (h : Kept s0 t) :
    Kept s0 (xtDeliver l v xt t) := by
  unfold xtDeliver
  (try dsimp only)
  repeat' (first | with_reducible assumption | with_reducible apply Kept.ite | with_reducible apply State.modLink_kept | with_reducible apply xtAssert_kept | with_reducible apply Kept.foldl | (intro _ _ _))

theorem linkUse_kept (l : Nat) (v : Nat) (f : Superframe) {s0 t : State} (h : Kept s0 t) :
    Kept s0 (linkUse l v f t) := by
  unfold linkUse
  repeat' (first | with_reducible assumption | with_reducible apply xtDeliver_kept | with_reducible apply ctlWordIn_kept | with_reducible apply Kept.foldl | (intro _ _ _))

theorem topoEnd_kept (self : Nat) (base : Nat) (renumber : Bool) (nums : List Nat) (links : List TopoLink) {s0 t : State} (h : Kept s0 t) :
    Kept s0 (topoEnd self base renumber nums links t) := by
  unfold topoEnd
  (try dsimp only)
  repeat' (first | with_reducible assumption | with_reducible apply Kept.ite | with_reducible apply State.fset_kept | with_reducible apply State.modLink_kept | with_reducible apply State.raise_kept | (simp only [Kept.mk_eq]; with_reducible apply KeptF.of) | with_reducible apply Kept.foldl | (intro _ _ _) | split)

theorem lnkTopo_kept (self : Nat) (base : Nat) (renumber : Bool) (nums : List Nat) (links : List TopoLink) {s0 t : State} (h : Kept s0 t) :
    Kept s0 (lnkTopo self base renumber nums links t) := by
  unfold lnkTopo
  repeat' (first | with_reducible assumption | with_reducible apply Kept.ite | with_reducible apply topoEnd_kept)

theorem loadBegin_kept {s0 t : State} (h : Kept s0 t) :
    Kept s0 (loadBegin t) := by
  unfold loadBegin
  repeat' (first | with_reducible assumption | with_reducible apply Kept.ite | with_reducible apply headerTake_kept | with_reducible apply designBegin_kept | split)

theorem loadPoll_kept {s0 t : State} (h : Kept s0 t) :
    Kept s0 (loadPoll t) := by
  unfold loadPoll
  repeat' (first | with_reducible assumption | with_reducible apply Kept.ite | with_reducible apply slotsFinish_kept | split)

theorem remapDrop_kept {s0 t : State} (h : Kept s0 t) :
    Kept s0 (remapDrop t) := by
  unfold remapDrop
  (try dsimp only)
  repeat' (first | with_reducible assumption | with_reducible apply Kept.ite | with_reducible apply State.fset_kept | (simp only [Kept.mk_eq]; with_reducible apply KeptF.of) | with_reducible apply Kept.foldl | (intro _ _ _))

theorem servicesRestart_kept {s0 t : State} (h : Kept s0 t) :
    Kept s0 (servicesRestart t) := by
  unfold servicesRestart
  (try dsimp only)
  repeat' (first | with_reducible assumption | with_reducible apply svcRespond_kept | (simp only [Kept.mk_eq]; with_reducible apply KeptF.of) | with_reducible apply Kept.foldl | (intro _ _ _))

theorem pairRestart_kept (p : Nat) (cause : Nat) (held : Bool) {s0 t : State} (h : Kept s0 t) :
    Kept s0 (pairRestart p cause held t) := by
  unfold pairRestart
  (try dsimp only)
  repeat' (first | with_reducible assumption | with_reducible apply Kept.ite | with_reducible apply State.count_kept | with_reducible apply State.fset_kept | with_reducible apply State.modPair_kept | with_reducible apply remapDrop_kept | with_reducible apply servicesRestart_kept | with_reducible apply keyxAbort_kept)

theorem lockstep_kept (p : Nat) (pc : DWord) {s0 t : State} (h : Kept s0 t) :
    Kept s0 (lockstep p pc t) := by
  unfold lockstep
  (try dsimp only)
  repeat' (first | with_reducible assumption | with_reducible apply Kept.ite | with_reducible apply State.modPair_kept | with_reducible apply State.raise_kept | with_reducible apply pairRestart_kept)

theorem logRead_kept (slot : Nat) {s0 t : State} (h : Kept s0 t) :
    Kept s0 (logRead slot t) := by
  unfold logRead
  (try dsimp only)
  repeat' (first | with_reducible assumption | with_reducible apply Kept.ite | with_reducible apply busWriteAll_kept | with_reducible apply svcRespond_kept)

theorem masterFix_kept (c : Nat) (e : Nat) {s0 t : State} (h : Kept s0 t) :
    Kept s0 (masterFix c e t).2 := by
  unfold masterFix
  (try dsimp only)
  repeat' (first | with_reducible assumption | with_reducible apply State.modClause_kept | with_reducible apply State.raise_kept | split)

theorem setContent_kept (k : Nat) (e : Nat × Bool) {s0 t : State} (h : Kept s0 t) :
    Kept s0 (setContent k t e) := by
  unfold setContent
  (try dsimp only)
  repeat' (first | with_reducible assumption | (simp only [Kept.mk_eq]; with_reducible apply KeptF.of))

theorem memEdge_kept (ts : List Nat) (s0_ : State) (k : Nat) {s0 t : State} (hs0_ : Kept s0 s0_) (h : Kept s0 t) :
    Kept s0 (memEdge ts s0_ t k) := by
  unfold memEdge
  (try dsimp only)
  repeat' (first | with_reducible assumption | with_reducible apply Kept.ite | with_reducible apply setContent_kept | (simp only [Kept.mk_eq]; with_reducible apply KeptF.of) | with_reducible apply Kept.foldl | (intro _ _ _) | split)

theorem memRequest_kept (r : Nat) (p : Packet) {s0 t : State} (h : Kept s0 t) :
    Kept s0 (memRequest r p t) := by
  unfold memRequest
  (try dsimp only)
  repeat' (first | with_reducible assumption | with_reducible apply Kept.ite | with_reducible apply send_kept | with_reducible apply nocEnqueue_kept | with_reducible apply memWrite_kept | with_reducible apply memRead_kept | split)

theorem migrateParity_kept (c : Nat) (target : Nat) {s0 t : State} (h : Kept s0 t) :
    Kept s0 (migrateParity c target t) := by
  unfold migrateParity
  (try dsimp only)
  repeat' (first | with_reducible assumption | with_reducible apply State.raise_kept | with_reducible apply State.count_kept | with_reducible apply Kept.foldl | (intro _ _ _))

theorem migrationEnd_kept (c : Nat) (mismatches : Nat) (cycles : Nat) {s0 t : State} (h : Kept s0 t) :
    Kept s0 (migrationEnd c mismatches cycles t) := by
  unfold migrationEnd
  (try dsimp only)
  repeat' (first | with_reducible assumption | with_reducible apply Kept.ite | with_reducible apply State.modClause_kept | with_reducible apply migrateParity_kept | with_reducible apply patchNow_kept | with_reducible apply ckptStart_kept | with_reducible apply spareReport_kept | split)

theorem modeRetry_kept (l : Nat) {s0 t : State} (h : Kept s0 t) :
    Kept s0 (modeRetry l t) := by
  unfold modeRetry
  repeat' (first | with_reducible assumption | with_reducible apply Kept.ite | with_reducible apply linkTrain_kept)

theorem nocAge_kept (r : Nat) {s0 t : State} (h : Kept s0 t) :
    Kept s0 (nocAge r t) := by
  unfold nocAge
  (try dsimp only)
  repeat' (first | with_reducible assumption | with_reducible apply State.setWaitq_kept)

theorem nocForward_kept (r : Nat) (port : Nat) (err : HopError) {s0 t : State} (h : Kept s0 t) :
    Kept s0 (nocForward r port err t) := by
  unfold nocForward
  (try dsimp only)
  repeat' (first | with_reducible assumption | with_reducible apply Kept.ite | with_reducible apply State.setWaitq_kept | with_reducible apply State.setRxq_kept | with_reducible apply hopFixed_kept | with_reducible apply hopUe_kept | (simp only [Kept.mk_eq]; with_reducible apply KeptF.of) | split)

theorem txnDone_kept (t1 : Txn) (status : Nat) (bs : List Byte) {s0 t : State} (h : Kept s0 t) :
    Kept s0 (txnDone t1 status bs t) := by
  unfold txnDone
  (try dsimp only)
  repeat' (first | with_reducible assumption | with_reducible apply nocPump_kept | with_reducible apply rimAnswer_kept | (simp only [Kept.mk_eq]; with_reducible apply KeptF.of))

theorem takeResponse_kept (r : Nat) (p : Packet) {s0 t : State} (h : Kept s0 t) :
    Kept s0 (takeResponse r p t) := by
  unfold takeResponse
  repeat' (first | with_reducible assumption | with_reducible apply Kept.ite | with_reducible apply txnDone_kept | with_reducible apply State.count_kept | split)

theorem regWrite_kept (req : Requester) (a : Nat) (size : Nat) (w : DWord) {s0 t u : State} {rv} (h : Kept s0 t)
    (e : regWrite req a size w t = .ok (rv, u)) : Kept s0 u := regWriteWith_kept _ _ _ _ _ (fun _ _ _ a b => engineGo_kept _ a b) h e

theorem regRequest_kept (r : Nat) (p : Packet) {s0 t u : State} (h : Kept s0 t)
    (e : regRequest r p t = .ok u) : Kept s0 u := by
  unfold regRequest at e
  dsimp only at e
  split at e
  · cases e; exact send_kept _ _ h
  · split at e
    · cases e; exact send_kept _ _ h
    · split at e
      · split at e
        · cases e; exact send_kept _ _ h
        · obtain ⟨y, hy, rfl⟩ := exc_map e
          exact send_kept _ _ (regWrite_kept _ _ _ _ h hy)
      · rw [← Except.ok.inj e]
        exact send_kept _ _ (regRead_kept _ _ _ h)

theorem takeTrace_kept (bs : List Byte) {s0 t u : State} (h : Kept s0 t)
    (e : takeTrace bs t = some u) : Kept s0 u := by
  unfold takeTrace at e
  (try dsimp only at e)
  repeat' (split at e)
  all_goals (try cases e)
  all_goals (repeat' (first | with_reducible assumption | with_reducible apply Kept.ite | with_reducible apply State.modMt_kept))

theorem takePacket_kept (r : Nat) (p : Packet) {s0 t u : State} (h : Kept s0 t)
    (e : takePacket r p t = .ok (some u)) : Kept s0 u := by
  unfold takePacket at e
  split at e
  · cases e; exact takeResponse_kept _ _ h
  · split at e
    · by_cases hc : (!t.canSend r (response r p 0 (if p.op = 1 then p.payload ++ List.replicate p.size 0#8 else []))) = true
      · rw [if_pos hc] at e; cases e
      · rw [if_neg hc] at e
        split at e
        · cases e
        · split at e
          · cases e; exact memRequest_kept _ _ h
          · obtain ⟨y, hy, e⟩ := exc_map e
            cases e; exact regRequest_kept _ _ h hy
    · split at e
      · rw [← Option.some.inj (Except.ok.inj e)]
        exact Kept.ite (KeptF.of h) (routeDrop_kept _ _ h)
      · split at e
        · exact takeTrace_kept _ h (Except.ok.inj e)
        · cases e; exact routeDrop_kept _ _ h

theorem nocReceive_kept (r : Nat) (err : HopError) (a3 : List Flight) {s0 t u : State} (h : Kept s0 t)
    (e : nocReceive r err t a3 = .ok u) : Kept s0 u := by
  induction a3 generalizing t with
  | nil => cases e; exact h
  | cons f l ih =>
    unfold nocReceive at e
    dsimp only at e
    have g := checkPacket_kept r f.pkt err (State.setRxq_kept r ((t.rxq r).erase f) h)
    split at e
    · rename_i hc
      rw [hc] at g
      rw [← Except.ok.inj e]; exact nocPump_kept g
    · rename_i hc
      rw [hc] at g
      split at e
      · cases e
      · rename_i hp
        rw [← Except.ok.inj e]; exact nocPump_kept (takePacket_kept _ _ g hp)
      · exact ih h e

theorem nocStarve_kept (k : Nat) {s0 t : State} (h : Kept s0 t) :
    Kept s0 (nocStarve k t) := by
  unfold nocStarve
  (try dsimp only)
  repeat' (first | with_reducible assumption | with_reducible apply Kept.ite | with_reducible apply State.raise_kept | (simp only [Kept.mk_eq]; with_reducible apply KeptF.of) | split)

theorem nocTimeout_kept (k : Nat) {s0 t : State} (h : Kept s0 t) :
    Kept s0 (nocTimeout k t) := by
  unfold nocTimeout
  (try dsimp only)
  repeat' (first | with_reducible assumption | with_reducible apply txnDone_kept | with_reducible apply State.raise_kept | with_reducible apply State.count_kept | (simp only [Kept.mk_eq]; with_reducible apply KeptF.of) | split)

theorem oldDrained_kept {s0 t : State} (h : Kept s0 t) :
    Kept s0 (oldDrained t) := by
  unfold oldDrained
  (try dsimp only)
  repeat' (first | with_reducible assumption | with_reducible apply Kept.ite | with_reducible apply State.freshNat_kept | with_reducible apply nocPump_kept | with_reducible apply State.raise_kept | with_reducible apply State.fset_kept)

theorem oppSettle_kept {s0 t : State} (h : Kept s0 t) :
    Kept s0 (oppSettle t) := by
  unfold oppSettle
  (try dsimp only)
  repeat' (first | with_reducible assumption | with_reducible apply Kept.ite | with_reducible apply State.fset_kept | with_reducible apply oppDone_kept | with_reducible apply freqSwitch_kept | (simp only [Kept.mk_eq]; with_reducible apply KeptF.of) | split)

theorem padCross_kept (b : Nat) (p : Nat) (hi : Bool) (up : Bool) {s0 t : State} (h : Kept s0 t) :
    Kept s0 (padCross b p hi up t) := by
  unfold padCross
  repeat' (first | with_reducible assumption | with_reducible apply Kept.ite | with_reducible apply State.modBank_kept)

theorem padTick_kept (b : Nat) {s0 t : State} (h : Kept s0 t) :
    Kept s0 (padTick b t) := by
  unfold padTick
  (try dsimp only)
  repeat' (first | with_reducible assumption | with_reducible apply Kept.ite | with_reducible apply State.modBank_kept)

theorem pairHalted_kept (p : Nat) (priv : Nat) (pc : DWord) (lr : Option (Nat × Nat)) {s0 t : State} (h : Kept s0 t) :
    Kept s0 (pairHalted p priv pc lr t) := by
  unfold pairHalted
  (try dsimp only)
  repeat' (first | with_reducible assumption | with_reducible apply Kept.ite | with_reducible apply mtWatch_kept | with_reducible apply State.modPair_kept | with_reducible apply State.fset_kept | with_reducible apply mtHalt_kept | with_reducible apply State.raise_kept | with_reducible apply xtInput_kept | (simp only [Kept.mk_eq]; with_reducible apply KeptF.of) | with_reducible apply Kept.foldl | (intro _ _ _) | split)

theorem paramCheck_kept (rim : Bool) (struck : Option (Nat × Nat)) {s0 t : State} (h : Kept s0 t) :
    Kept s0 (paramCheck rim struck t) := by
  unfold paramCheck
  (try dsimp only)
  repeat' (first | with_reducible assumption | with_reducible apply Kept.ite | with_reducible apply State.fset_kept | with_reducible apply rimParamPost_kept | with_reducible apply schParamPost_kept | (simp only [Kept.mk_eq]; with_reducible apply KeptF.of) | split)

theorem partnerMode_kept (l : Nat) {s0 t : State} (h : Kept s0 t) :
    Kept s0 (partnerMode l t) := by
  unfold partnerMode
  (try dsimp only)
  repeat' (first | with_reducible assumption | with_reducible apply Kept.ite | with_reducible apply State.modLink_kept | with_reducible apply State.fset_kept | with_reducible apply linkTrain_kept | with_reducible apply linkModeFail_kept)

theorem setForget_kept (set : Nat) {s0 t : State} (h : Kept s0 t) :
    Kept s0 (setForget set t) := by
  unfold setForget
  (try dsimp only)
  repeat' (first | with_reducible assumption | (simp only [Kept.mk_eq]; with_reducible apply KeptF.of))

theorem setRestage_kept (set : Nat) (off : Bool) {s0 t : State} (h : Kept s0 t) :
    Kept s0 (setRestage set off t) := by
  unfold setRestage
  repeat' (first | with_reducible assumption | with_reducible apply Kept.ite | with_reducible apply State.fset_kept | with_reducible apply Kept.foldl | (intro _ _ _))

theorem patchSetEnd_kept {s0 t : State} (h : Kept s0 t) :
    Kept s0 (patchSetEnd t) := by
  unfold patchSetEnd
  (try dsimp only)
  repeat' (first | with_reducible assumption | with_reducible apply Kept.ite | with_reducible apply setForget_kept | with_reducible apply setRestage_kept | with_reducible apply svcRespond_kept | (simp only [Kept.mk_eq]; with_reducible apply KeptF.of) | split)

theorem patchAnswer_kept {s0 t : State} (h : Kept s0 t) :
    Kept s0 (patchAnswer t) := by
  unfold patchAnswer
  repeat' (first | with_reducible assumption | with_reducible apply Kept.ite | with_reducible apply patchSetEnd_kept)

theorem patchHoldBegin_kept {s0 t : State} (h : Kept s0 t) :
    Kept s0 (patchHoldBegin t) := by
  unfold patchHoldBegin
  (try dsimp only)
  repeat' (first | with_reducible assumption | with_reducible apply Kept.ite | (simp only [Kept.mk_eq]; with_reducible apply KeptF.of))

theorem patchHoldEnd_kept {s0 t : State} (h : Kept s0 t) :
    Kept s0 (patchHoldEnd t) := by
  unfold patchHoldEnd
  repeat' (first | with_reducible assumption | with_reducible apply Kept.ite | with_reducible apply patchFinish_kept)

theorem patchSet_kept (slot : Nat) {s0 t : State} (h : Kept s0 t) :
    Kept s0 (patchSet slot t) := by
  unfold patchSet
  dsimp only
  split
  · exact svcRespond_kept _ _ _ _ h
  · refine Kept.ite (svcRespond_kept _ _ _ _ h) (Kept.ite (svcRespond_kept _ _ _ _ (patchApply_kept h)) ?_)
    split
    · exact svcRespond_kept _ _ _ _ h
    · rename_i u hs
      have hu : Kept s0 u := by
        split at hs
        · cases hs; exact setRestage_kept _ _ h
        · exact stageSet_kept _ _ h hs
      exact patchAnswer_kept (patchApply_kept (KeptF.of hu))

theorem pcieReset_kept (k : Nat) {s0 t : State} (h : Kept s0 t) :
    Kept s0 (pcieReset k t) := by
  unfold pcieReset
  repeat' (first | with_reducible assumption | with_reducible apply Kept.ite | with_reducible apply State.raise_kept | with_reducible apply hifReset_kept | with_reducible apply setLevel_kept)

theorem peerRepeat_kept (l : Nat) {s0 t : State} (h : Kept s0 t) :
    Kept s0 (peerRepeat l t) := by
  unfold peerRepeat
  repeat' (first | with_reducible assumption | with_reducible apply Kept.ite | with_reducible apply linkAnnounce_kept | with_reducible apply State.modLink_kept)

theorem tuCross_kept (u : Nat) (hi : Bool) (up : Bool) (tick : Nat) (fine : Nat) {s0 t : State} (h : Kept s0 t) :
    Kept s0 (tuCross u hi up tick fine t) := by
  unfold tuCross
  (try dsimp only)
  repeat' (first | with_reducible assumption | with_reducible apply Kept.ite | with_reducible apply State.modUnit_kept | with_reducible apply measOf_kept | with_reducible apply tuMatch_kept | split)

theorem pinCrossing_kept (bank : Nat) (pin : Nat) (hi : Bool) (up : Bool) (mv : Nat) (fine : Nat) {s0 t : State} (h : Kept s0 t) :
    Kept s0 (pinCrossing bank pin hi up mv fine t) := by
  unfold pinCrossing
  (try dsimp only)
  repeat' (first | with_reducible assumption | with_reducible apply Kept.ite | with_reducible apply tuCross_kept | with_reducible apply padCross_kept | with_reducible apply Kept.foldl | (intro _ _ _))

theorem pllLock_kept (p : Nat) (on : Bool) {s0 t : State} (h : Kept s0 t) :
    Kept s0 (pllLock p on t) := by
  unfold pllLock
  (try dsimp only)
  repeat' (first | with_reducible assumption | with_reducible apply Kept.ite | with_reducible apply State.raise_kept | (simp only [Kept.mk_eq]; with_reducible apply KeptF.of))

theorem porstRelease_kept {s0 t : State} (h : Kept s0 t) :
    Kept s0 (porstRelease t) := by
  unfold porstRelease
  (try dsimp only)
  repeat' (first | with_reducible assumption | with_reducible apply Kept.ite | with_reducible apply loadPhraseMap_kept | with_reducible apply bootSelect_kept | (simp only [Kept.mk_eq]; with_reducible apply KeptF.of))

theorem ppsEdge_kept {s0 t : State} (h : Kept s0 t) :
    Kept s0 (ppsEdge t) := by
  unfold ppsEdge
  (try dsimp only)
  repeat' (first | with_reducible assumption | with_reducible apply Kept.ite | with_reducible apply State.raise_kept | with_reducible apply State.fset_kept | with_reducible apply State.freshNat_kept | (simp only [Kept.mk_eq]; with_reducible apply KeptF.of) | split)

theorem ppsMissing_kept {s0 t : State} (h : Kept s0 t) :
    Kept s0 (ppsMissing t) := by
  unfold ppsMissing
  (try dsimp only)
  repeat' (first | with_reducible assumption | with_reducible apply Kept.ite | with_reducible apply State.raise_kept | with_reducible apply State.fset_kept | (simp only [Kept.mk_eq]; with_reducible apply KeptF.of))

theorem ptimeTick_kept {s0 t : State} (h : Kept s0 t) :
    Kept s0 (ptimeTick t) := by
  unfold ptimeTick
  (try dsimp only)
  repeat' (first | with_reducible assumption | with_reducible apply Kept.ite | (simp only [Kept.mk_eq]; with_reducible apply KeptF.of))

theorem readAnswer_kept (req : Requester) (st : Nat) (bs : List Byte) {s0 t : State} (h : Kept s0 t) :
    Kept s0 (readAnswer req st bs t) := by
  unfold readAnswer
  repeat' (first | with_reducible assumption | with_reducible apply Kept.ite | with_reducible apply hostAnswer_kept | with_reducible apply State.emit_kept)

theorem regReadCmd_kept (req : Requester) (a : Nat) (size : Nat) {s0 t : State} (h : Kept s0 t) :
    Kept s0 (regReadCmd req a size t) := by
  unfold regReadCmd
  (try dsimp only)
  repeat' (first | with_reducible assumption | with_reducible apply regRead_kept | with_reducible apply readAnswer_kept)

theorem writeAnswer_kept (req : Requester) (off : Nat) (st : Nat) {s0 t : State} (h : Kept s0 t) :
    Kept s0 (writeAnswer req off st t) := by
  unfold writeAnswer
  repeat' (first | with_reducible assumption | with_reducible apply Kept.ite | with_reducible apply hostWriteErr_kept | with_reducible apply State.emit_kept)

theorem regWriteCmd_kept (req : Requester) (a : Nat) (size : Nat) (w : DWord) {s0 t u : State} (h : Kept s0 t)
    (e : regWriteCmd req a size w t = .ok u) : Kept s0 u := by
  obtain ⟨y, hy, rfl⟩ := exc_map e
  exact writeAnswer_kept _ _ _ (regWrite_kept _ _ _ _ h hy)

theorem reloadHoldBegin_kept {s0 t : State} (h : Kept s0 t) :
    Kept s0 (reloadHoldBegin t) := by
  unfold reloadHoldBegin
  repeat' (first | with_reducible assumption | with_reducible apply Kept.ite | with_reducible apply State.setJob_kept | split)

theorem revertEnd_kept (slot : Nat) {s0 t : State} (h : Kept s0 t) :
    Kept s0 (revertEnd slot t) := by
  unfold revertEnd
  (try dsimp only)
  repeat' (first | with_reducible assumption | with_reducible apply Kept.ite | with_reducible apply secReload_kept | with_reducible apply commitRec_kept | split)

theorem restartDone_kept (p : Nat) {s0 t : State} (h : Kept s0 t) :
    Kept s0 (restartDone p t) := by
  unfold restartDone
  (try dsimp only)
  repeat' (first | with_reducible assumption | with_reducible apply Kept.ite | with_reducible apply mtWatch_kept | with_reducible apply State.modPair_kept | with_reducible apply State.fresh_kept | with_reducible apply logWrite_kept | with_reducible apply revertEnd_kept | (simp only [Kept.mk_eq]; with_reducible apply KeptF.of) | split)

theorem restoreEvent_kept (c : Ckpt) (reason : Nat) {s0 t : State} (h : Kept s0 t) :
    Kept s0 (restoreEvent c reason t) := by
  unfold restoreEvent
  (try dsimp only)
  repeat' (first | with_reducible assumption | with_reducible apply Kept.ite | with_reducible apply State.freshNat_kept | with_reducible apply loadRaise_kept)

theorem restoreClause_kept (c : Ckpt) (k : Nat) {s0 t : State} (h : Kept s0 t) :
    Kept s0 (restoreClause c t k) := by
  unfold restoreClause
  repeat' (first | with_reducible assumption | with_reducible apply State.modClause_kept)

theorem restoreRets_kept (c : Ckpt) {s0 t : State} (h : Kept s0 t) :
    Kept s0 (restoreRets c t) := by
  unfold restoreRets
  (try dsimp only)
  repeat' (first | with_reducible assumption | (simp only [Kept.mk_eq]; with_reducible apply KeptF.of))

theorem restoreMem_kept (c : Ckpt) (ok : Bool) {s0 t : State} (h : Kept s0 t) :
    Kept s0 (restoreMem c ok t) := by
  unfold restoreMem
  refine Kept.foldl (fun u e hu => State.storeByte_kept _ _ hu) ?_
  dsimp only
  split
  · exact KeptF.filterMem _ h
  · exact KeptF.filterMem _ h

theorem restoreUnit_kept (c : Ckpt) (u : Nat) {s0 t : State} (h : Kept s0 t) :
    Kept s0 (restoreUnit c t u) := by
  unfold restoreUnit
  (try dsimp only)
  repeat' (first | with_reducible assumption | with_reducible apply Kept.ite | with_reducible apply State.fset_kept | with_reducible apply State.modUnit_kept | (simp only [Kept.mk_eq]; with_reducible apply KeptF.of) | with_reducible apply Kept.foldl | (intro _ _ _) | split)

theorem restoreRim_kept (c : Ckpt) {s0 t : State} (h : Kept s0 t) :
    Kept s0 (restoreRim c t) := by
  unfold restoreRim
  repeat' (first | with_reducible assumption | with_reducible apply Kept.ite | with_reducible apply State.modGroup_kept | with_reducible apply Kept.foldl | (intro _ _ _))

theorem restoreLink_kept (c : Ckpt) (l : Nat) {s0 t : State} (h : Kept s0 t) :
    Kept s0 (restoreLink c t l) := by
  unfold restoreLink
  (try dsimp only)
  repeat' (first | with_reducible assumption | with_reducible apply Kept.ite | with_reducible apply linkTo_kept | with_reducible apply State.modLink_kept | with_reducible apply linkAnnounce_kept)

theorem sigOff_kept {s0 t : State} (h : Kept s0 t) :
    Kept s0 (sigOff t) := by
  unfold sigOff
  repeat' (first | with_reducible assumption | with_reducible apply State.fset_kept | with_reducible apply State.modSig_kept)

theorem restoreApply_kept (c : Ckpt) (ok : Bool) {s0 t : State} (h : Kept s0 t) :
    Kept s0 (restoreApply c ok t) := by
  unfold restoreApply
  (try dsimp only)
  repeat' (first | with_reducible assumption | with_reducible apply restoreClause_kept | with_reducible apply restoreRets_kept | with_reducible apply restoreMem_kept | with_reducible apply restoreUnit_kept | with_reducible apply restoreRim_kept | with_reducible apply restoreLink_kept | with_reducible apply sigOff_kept | with_reducible apply linkCompare_kept | (simp only [Kept.mk_eq]; with_reducible apply KeptF.of) | with_reducible apply Kept.foldl | (intro _ _ _))

theorem restore_kept (slot : Nat) (crcOk : Bool) (writeOk : Bool) (host : Option Ckpt) {s0 t : State} (h : Kept s0 t) :
    Kept s0 (restore slot crcOk writeOk host t) := by
  unfold restore
  (try dsimp only)
  repeat' (first | with_reducible assumption | with_reducible apply Kept.ite | with_reducible apply svcRespond_kept | with_reducible apply restoreEvent_kept | with_reducible apply restoreApply_kept | split)

theorem resumeDone_kept (l : Nat) (tag : BitVec 16) {s0 t : State} (h : Kept s0 t) :
    Kept s0 (resumeDone l tag t) := by
  unfold resumeDone
  (try dsimp only)
  repeat' (first | with_reducible assumption | with_reducible apply Kept.ite | with_reducible apply linkGoBack_kept | with_reducible apply State.raise_kept | with_reducible apply State.modLink_kept | with_reducible apply linkTo_kept)

theorem resumeFail_kept (l : Nat) (reason : Nat) {s0 t : State} (h : Kept s0 t) :
    Kept s0 (resumeFail l reason t) := by
  unfold resumeFail
  repeat' (first | with_reducible assumption | with_reducible apply Kept.ite | with_reducible apply linkDown_kept)

theorem retryAgain_kept (l : Nat) {s0 t : State} (h : Kept s0 t) :
    Kept s0 (retryAgain l t) := by
  unfold retryAgain
  (try dsimp only)
  repeat' (first | with_reducible assumption | with_reducible apply Kept.ite | with_reducible apply State.modLink_kept | with_reducible apply ctlPut_kept)

theorem rimEdge_kept (ts : List Nat) {s0 t : State} (h : Kept s0 t) :
    Kept s0 (rimEdge ts t) := by
  unfold rimEdge
  (try dsimp only)
  repeat' (first | with_reducible assumption | with_reducible apply Kept.ite | with_reducible apply ffEdge_kept | with_reducible apply memEdge_kept | with_reducible apply bankEdge_kept | with_reducible apply State.modGroup_kept | with_reducible apply Kept.foldl | (intro _ _ _))

theorem rimInWrite_kept (g : Nat) (e : DWord) {s0 t : State} (h : Kept s0 t) :
    Kept s0 (rimInWrite g e t) := by
  unfold rimInWrite
  repeat' (first | with_reducible assumption | with_reducible apply Kept.ite | with_reducible apply State.modGroup_kept)

theorem rimOnehot_kept (a : Nat) (mux : Nat) {s0 t : State} (h : Kept s0 t) :
    Kept s0 (rimOnehot a mux t) := by
  unfold rimOnehot
  (try dsimp only)
  repeat' (first | with_reducible assumption | with_reducible apply Kept.ite | with_reducible apply lastErr_kept | with_reducible apply State.count_kept | with_reducible apply State.raise_kept | (simp only [Kept.mk_eq]; with_reducible apply KeptF.of))

theorem rimOutRead_kept (g : Nat) {s0 t : State} (h : Kept s0 t) :
    Kept s0 (rimOutRead g t) := by
  unfold rimOutRead
  repeat' (first | with_reducible assumption | with_reducible apply Kept.ite | with_reducible apply State.emit_kept | with_reducible apply State.modGroup_kept | split)

theorem rimRequest_kept (x : RimReq) {s0 t : State} (h : Kept s0 t) :
    Kept s0 (rimRequest x t) := by
  unfold rimRequest
  (try dsimp only)
  repeat' (first | with_reducible assumption | with_reducible apply nocPump_kept | (simp only [Kept.mk_eq]; with_reducible apply KeptF.of))

theorem scrubWord_kept (a : Nat) (w : Nat) {s0 t : State} (h : Kept s0 t) :
    Kept s0 (scrubWord a w t) := by
  unfold scrubWord
  (try dsimp only)
  repeat' (first | with_reducible assumption | with_reducible apply Kept.ite | with_reducible apply State.count_kept | with_reducible apply State.raise_kept | with_reducible apply lastErr_kept | (simp only [Kept.mk_eq]; with_reducible apply KeptF.of) | split)

theorem rimScrub_kept {s0 t : State} (h : Kept s0 t) :
    Kept s0 (rimScrub t) := by
  unfold rimScrub
  (try dsimp only)
  repeat' (first | with_reducible assumption | with_reducible apply scrubWord_kept | (simp only [Kept.mk_eq]; with_reducible apply KeptF.of) | with_reducible apply Kept.foldl | (intro _ _ _) | split)

theorem rimTick_kept {s0 t : State} (h : Kept s0 t) :
    Kept s0 (rimTick t) := by
  unfold rimTick
  (try dsimp only)
  repeat' (first | with_reducible assumption | with_reducible apply Kept.ite | with_reducible apply padTick_kept | with_reducible apply rimEdge_kept | with_reducible apply ffReset_kept | (simp only [Kept.mk_eq]; with_reducible apply KeptF.of) | with_reducible apply Kept.foldl | (intro _ _ _))

theorem ringResignal_kept {s0 t : State} (h : Kept s0 t) :
    Kept s0 (ringResignal t) := by
  unfold ringResignal
  repeat' (first | with_reducible assumption | with_reducible apply Kept.ite | with_reducible apply State.count_kept | with_reducible apply signal_kept | split)

theorem ringWrite_kept {s0 t : State} (h : Kept s0 t) :
    Kept s0 (ringWrite t) := by
  unfold ringWrite
  split
  · exact h
  · rename_i n e l he
    dsimp only
    refine Kept.ite h ?_
    have h1 : Kept s0 { t with hif := { t.hif with held := l } } := by
      refine ⟨h.pending, h.mem, h.flash, fun x => ?_, h.fuses⟩
      have := h.held x
      rw [he] at this
      exact Nat.le_of_succ_le this
    refine Kept.ite (ringSignal_kept _ ?_) ?_
    · exact State.modRing_kept _ _ (State.emit_kept _ (State.emit_kept _ h1))
    · exact State.modRing_kept _ _ (State.emit_kept _ (State.emit_kept _ h1))

theorem rootLock_kept {s0 t : State} (h : Kept s0 t) :
    Kept s0 (rootLock t) := by
  unfold rootLock
  (try dsimp only)
  repeat' (first | with_reducible assumption | with_reducible apply State.fset_kept | (simp only [Kept.mk_eq]; with_reducible apply KeptF.of))

theorem setRoot_kept (r : Nat) (ok : Bool) {s0 t : State} (h : Kept s0 t) :
    Kept s0 (setRoot r ok t) := by
  unfold setRoot
  repeat' (first | with_reducible assumption | with_reducible apply Kept.ite | with_reducible apply State.fsetb_kept)

theorem rootPllFail_kept (kind : Nat) {s0 t : State} (h : Kept s0 t) :
    Kept s0 (rootPllFail kind t) := by
  unfold rootPllFail
  (try dsimp only)
  repeat' (first | with_reducible assumption | with_reducible apply Kept.ite | with_reducible apply setRoot_kept | with_reducible apply deviceReset_kept | with_reducible apply State.raise_kept | with_reducible apply switchStart_kept | (simp only [Kept.mk_eq]; with_reducible apply KeptF.of))

theorem rootRetrain_kept (passed : Bool) {s0 t : State} (h : Kept s0 t) :
    Kept s0 (rootRetrain passed t) := by
  unfold rootRetrain
  (try dsimp only)
  repeat' (first | with_reducible assumption | with_reducible apply Kept.ite | with_reducible apply setRoot_kept)

theorem rstTick_kept {s0 t : State} (h : Kept s0 t) :
    Kept s0 (rstTick t) := by
  unfold rstTick
  (try dsimp only)
  repeat' (first | with_reducible assumption | with_reducible apply Kept.ite | (simp only [Kept.mk_eq]; with_reducible apply KeptF.of) | split)

theorem scrubUe_kept (c : Nat) (row : Nat) (word : Nat) {s0 t : State} (h : Kept s0 t) :
    Kept s0 (scrubUe c row word t) := by
  have hm : Kept s0 ((List.range 4).foldl (fun (r : Bool × State) k =>
      (r.1 && (masterFix c (512 * (row - 8704) + 4 * word + k) r.2).1,
        (masterFix c (512 * (row - 8704) + 4 * word + k) r.2).2)) (true, t)).2 := by
    refine Kept.foldl_of (g := fun r : Bool × State => r.2) (t := (true, t)) (fun r p hr => ?_) h
    exact masterFix_kept _ _ hr
  unfold scrubUe
  dsimp only
  revert hm
  generalize List.foldl _ (true, t) (List.range 4) = r
  intro hm
  refine Kept.ite (setSchMark_kept _ _ _ _ (Kept.ite hm (State.raise_kept _ _ _ _ hm))) (Kept.ite ?_ ?_)
  · exact setSchMark_kept _ _ _ _ (State.raise_kept _ _ _ _ h)
  · exact State.raise_kept _ _ _ _ h

theorem scrubRow_kept (c : Nat) {s0 t : State} (h : Kept s0 t) :
    Kept s0 (scrubRow c t) := by
  unfold scrubRow
  (try dsimp only)
  repeat' (first | with_reducible assumption | with_reducible apply Kept.ite | with_reducible apply scrubUe_kept | with_reducible apply setSchMark_kept | with_reducible apply schCorrected_kept | with_reducible apply State.modClause_kept | with_reducible apply Kept.foldl | (intro _ _ _))

theorem sensorSample_kept (temps : List (BitVec 16)) {s0 t : State} (h : Kept s0 t) :
    Kept s0 (sensorSample temps t) := by
  unfold sensorSample
  (try dsimp only)
  repeat' (first | with_reducible assumption | with_reducible apply Kept.ite | with_reducible apply State.fset_kept | with_reducible apply State.raise_kept | with_reducible apply alertPin_kept | (simp only [Kept.mk_eq]; with_reducible apply KeptF.of))

theorem seqLong_kept {s0 t : State} (h : Kept s0 t) :
    Kept s0 (seqLong t) := by
  unfold seqLong
  (try dsimp only)
  repeat' (first | with_reducible assumption | with_reducible apply Kept.ite | with_reducible apply State.raise_kept | (simp only [Kept.mk_eq]; with_reducible apply KeptF.of))

theorem seqStep_kept (ups : List Upset) {s0 t : State} (h : Kept s0 t) :
    Kept s0 (seqStep ups t) := by
  unfold seqStep
  repeat' (first | with_reducible assumption | with_reducible apply Kept.ite | with_reducible apply doStep_kept | with_reducible apply ellipsisBegin_kept)

theorem service_kept (slot : Nat) (code : Nat) (mask : Nat) (bad : Bool) (f : State → State) {s0 t : State} (hf : ∀ (u : State), Kept s0 u → Kept s0 (f u)) (h : Kept s0 t) :
    Kept s0 (service slot code mask bad f t) := by
  unfold service
  repeat' (first | with_reducible assumption | with_reducible apply Kept.ite | with_reducible apply hf | with_reducible apply svcRespond_kept)

theorem sigDrain_kept (a0 : Nat) {s0 t : State} (h : Kept s0 t) :
    Kept s0 (sigDrain a0 t) := by
  induction a0 generalizing t with
  | zero => exact h
  | succ k ih => exact ih (sigDrain1_kept h)

theorem sigPostEnd_kept {s0 t : State} (h : Kept s0 t) :
    Kept s0 (sigPostEnd t) := by
  unfold sigPostEnd
  (try dsimp only)
  repeat' (first | with_reducible assumption | with_reducible apply Kept.ite | with_reducible apply State.freshNat_kept | with_reducible apply sigOverflow_kept | with_reducible apply sigPad_kept | with_reducible apply sigMark_kept | with_reducible apply sigSyncDue_kept | with_reducible apply sigDrain_kept | with_reducible apply State.raise_kept | with_reducible apply State.fset_kept | with_reducible apply State.modSig_kept | split)

theorem spareRetrain_kept (l : Nat) {s0 t : State} (h : Kept s0 t) :
    Kept s0 (spareRetrain l t) := by
  unfold spareRetrain
  repeat' (first | with_reducible assumption | with_reducible apply State.modLink_kept)

theorem spareTrained_kept (l : Nat) {s0 t : State} (h : Kept s0 t) :
    Kept s0 (spareTrained l t) := by
  unfold spareTrained
  repeat' (first | with_reducible assumption | with_reducible apply Kept.ite | with_reducible apply State.fset_kept | with_reducible apply State.modLink_kept)

theorem sparingDecision_kept (t1 : SparingTrigger) {s0 t : State} (h : Kept s0 t) :
    Kept s0 (sparingDecision t1 t) := by
  unfold sparingDecision
  (try dsimp only)
  repeat' (first | with_reducible assumption | with_reducible apply Kept.ite | with_reducible apply actsLog_kept | with_reducible apply actStart_kept | with_reducible apply logWrite_kept | (simp only [Kept.mk_eq]; with_reducible apply KeptF.of))

theorem sramScrub_kept (a : Nat) (ue : Bool) {s0 t : State} (h : Kept s0 t) :
    Kept s0 (sramScrub a ue t) := by
  unfold sramScrub
  (try dsimp only)
  repeat' (first | with_reducible assumption | with_reducible apply Kept.ite | with_reducible apply State.freshNat_kept | with_reducible apply sramUe_kept | (simp only [Kept.mk_eq]; with_reducible apply KeptF.of))

theorem standbyFail_kept (kind : Nat) {s0 t : State} (h : Kept s0 t) :
    Kept s0 (standbyFail kind t) := by
  unfold standbyFail
  (try dsimp only)
  repeat' (first | with_reducible assumption | with_reducible apply Kept.ite | with_reducible apply State.raise_kept | with_reducible apply setRoot_kept | with_reducible apply deviceReset_kept)

theorem superframeIn_kept (l : Nat) (f : Superframe) (fecFix : Nat) (fecUe : Option Nat) {s0 t : State} (h : Kept s0 t) :
    Kept s0 (superframeIn l f fecFix fecUe t) := by
  unfold superframeIn
  (try dsimp only)
  repeat' (first | with_reducible assumption | with_reducible apply Kept.ite | with_reducible apply State.countBy_kept | with_reducible apply linkDiscard_kept | with_reducible apply State.count_kept | with_reducible apply linkUse_kept | with_reducible apply State.modLink_kept | with_reducible apply linkGoBack_kept | split)

theorem svcInfo_kept (slot : Nat) {s0 t : State} (h : Kept s0 t) :
    Kept s0 (svcInfo slot t) := by
  unfold svcInfo
  repeat' (first | with_reducible assumption | with_reducible apply svcRespond_kept)

theorem svcLoad_kept (slot : Nat) (placement : List Byte) {s0 t : State} (h : Kept s0 t) :
    Kept s0 (svcLoad slot placement t) := by
  unfold svcLoad
  (try dsimp only)
  repeat' (first | with_reducible assumption | with_reducible apply Kept.ite | with_reducible apply State.freshNat_kept | with_reducible apply svcRespond_kept | with_reducible apply loadRaise_kept | with_reducible apply svcBytes_kept | with_reducible apply State.fset_kept | (simp only [Kept.mk_eq]; with_reducible apply KeptF.of))

theorem swapExpire_kept {s0 t : State} (h : Kept s0 t) :
    Kept s0 (swapExpire t) := by
  unfold swapExpire
  (try dsimp only)
  repeat' (first | with_reducible assumption | with_reducible apply State.fset_kept | with_reducible apply State.modPair_kept | with_reducible apply pairRestart_kept | with_reducible apply State.raise_kept | (simp only [Kept.mk_eq]; with_reducible apply KeptF.of) | split)

theorem switchDone_kept {s0 t : State} (h : Kept s0 t) :
    Kept s0 (switchDone t) := by
  unfold switchDone
  (try dsimp only)
  repeat' (first | with_reducible assumption | with_reducible apply Kept.ite | with_reducible apply State.pick_kept | with_reducible apply State.fset_kept | with_reducible apply clockBoundary_kept | (simp only [Kept.mk_eq]; with_reducible apply KeptF.of))

theorem thermtrip_kept {s0 t : State} (h : Kept s0 t) :
    Kept s0 (thermtrip t) := by
  unfold thermtrip
  (try dsimp only)
  repeat' (first | with_reducible assumption | with_reducible apply deviceReset_kept | with_reducible apply State.emit_kept | (simp only [Kept.mk_eq]; with_reducible apply KeptF.of))

theorem throttleStep_kept (thermal : Bool) (powerW : Nat) {s0 t : State} (h : Kept s0 t) :
    Kept s0 (throttleStep thermal powerW t) := by
  unfold throttleStep
  (try dsimp only)
  repeat' (first | with_reducible assumption | with_reducible apply Kept.ite | with_reducible apply throttleApply_kept | (simp only [Kept.mk_eq]; with_reducible apply KeptF.of))

theorem tick_kept {s0 t : State} (h : Kept s0 t) :
    Kept s0 (tick t) := by
  unfold tick
  (try dsimp only)
  repeat' (first | with_reducible assumption | with_reducible apply ptimeTick_kept | with_reducible apply svcUnlisted_kept | with_reducible apply calTick_kept | with_reducible apply flashTick_kept | with_reducible apply rstTick_kept | with_reducible apply kickTick_kept | with_reducible apply rimTick_kept | with_reducible apply ellipsisTick_kept | (simp only [Kept.mk_eq]; with_reducible apply KeptF.of))

theorem trainDone_kept (l : Nat) (m : BitVec 3) {s0 t : State} (h : Kept s0 t) :
    Kept s0 (trainDone l m t) := by
  unfold trainDone
  (try dsimp only)
  repeat' (first | with_reducible assumption | with_reducible apply Kept.ite | with_reducible apply State.fset_kept | with_reducible apply State.modLink_kept | with_reducible apply linkTo_kept)

theorem trainTimeout_kept (l : Nat) {s0 t : State} (h : Kept s0 t) :
    Kept s0 (trainTimeout l t) := by
  unfold trainTimeout
  repeat' (first | with_reducible assumption | with_reducible apply Kept.ite | with_reducible apply linkFail_kept)

theorem tuStop_kept (stamp : Nat) {s0 t : State} (h : Kept s0 t) :
    Kept s0 (tuStop stamp t) := by
  unfold tuStop
  repeat' (first | with_reducible assumption | with_reducible apply Kept.ite | with_reducible apply stopRequestAt_kept | with_reducible apply receiveFence_kept)

theorem tuPost_kept (u : Nat) (stamp : Nat) (time : Nat) {s0 t : State} (h : Kept s0 t) :
    Kept s0 (tuPost u stamp time t) := by
  unfold tuPost
  (try dsimp only)
  repeat' (first | with_reducible assumption | with_reducible apply Kept.ite | with_reducible apply State.fset_kept | with_reducible apply State.raiseAt_kept)

theorem tuActions_kept (u : Nat) (stamp : Nat) (time : Nat) {s0 t : State} (h : Kept s0 t) :
    Kept s0 (tuActions u stamp time t) := by
  unfold tuActions
  (try dsimp only)
  repeat' (first | with_reducible assumption | with_reducible apply Kept.ite | with_reducible apply xtAssert_kept | with_reducible apply mtStopReq_kept | with_reducible apply mtStartReq_kept | with_reducible apply sigStopReq_kept | with_reducible apply sigStartReq_kept | with_reducible apply tuStop_kept | with_reducible apply tuPost_kept)

theorem tuAcquire_kept (u : Nat) (stamp : Nat) (time : Nat) (fine : Nat) (meas : Nat) {s0 t : State} (h : Kept s0 t) :
    Kept s0 (tuAcquire u stamp time fine meas t) := by
  unfold tuAcquire
  (try dsimp only)
  repeat' (first | with_reducible assumption | with_reducible apply Kept.ite | with_reducible apply State.modUnit_kept | with_reducible apply State.count_kept | with_reducible apply sigPut_kept)

theorem tuAct_kept (u : Nat) (m : Nat × Nat × Nat × Nat) {s0 t : State} (h : Kept s0 t) :
    Kept s0 (tuAct u m t) := by
  unfold tuAct
  (try dsimp only)
  repeat' (first | with_reducible assumption | with_reducible apply Kept.ite | with_reducible apply tuActions_kept | with_reducible apply tuAcquire_kept | with_reducible apply State.modUnit_kept | split)

theorem triggerFire_kept (u : Nat) (ticks : Nat) {s0 t : State} (h : Kept s0 t) :
    Kept s0 (triggerFire u ticks t) := by
  unfold triggerFire
  repeat' (first | with_reducible assumption | with_reducible apply Kept.ite | with_reducible apply tuAct_kept | with_reducible apply State.modUnit_kept | split)

theorem vccioGood_kept (b : Nat) (mv : Nat) (strap : Nat) {s0 t : State} (h : Kept s0 t) :
    Kept s0 (vccioGood b mv strap t) := by
  unfold vccioGood
  repeat' (first | with_reducible assumption | with_reducible apply Kept.ite | with_reducible apply rimIoRaise_kept | with_reducible apply State.modBank_kept)

theorem vccioLost_kept (b : Nat) (mv : Nat) {s0 t : State} (h : Kept s0 t) :
    Kept s0 (vccioLost b mv t) := by
  unfold vccioLost
  (try dsimp only)
  repeat' (first | with_reducible assumption | with_reducible apply Kept.ite | with_reducible apply rimIoRaise_kept | with_reducible apply State.modBank_kept)

theorem wdtExpire_kept (p : Nat) {s0 t : State} (h : Kept s0 t) :
    Kept s0 (wdtExpire p t) := by
  unfold wdtExpire
  (try dsimp only)
  repeat' (first | with_reducible assumption | with_reducible apply Kept.ite | with_reducible apply State.raise_kept | with_reducible apply pairRestart_kept | with_reducible apply State.emit_kept | with_reducible apply State.modPair_kept)

theorem windowClose_kept (l : Nat) {s0 t : State} (h : Kept s0 t) :
    Kept s0 (windowClose l t) := by
  unfold windowClose
  (try dsimp only)
  repeat' (first | with_reducible assumption | with_reducible apply Kept.ite | with_reducible apply State.modLink_kept | with_reducible apply linkModeFail_kept | with_reducible apply linkFail_kept | split)

theorem writeBack_kept (c : Nat) (row : Nat) (word : Nat) {s0 t : State} (h : Kept s0 t) :
    Kept s0 (writeBack c row word t) := by
  unfold writeBack
  repeat' (first | with_reducible assumption | with_reducible apply Kept.ite | with_reducible apply setSchMark_kept)

theorem xtrigIn_kept (ch : Nat) {s0 t : State} (h : Kept s0 t) :
    Kept s0 (xtrigIn ch t) := by
  unfold xtrigIn
  repeat' (first | with_reducible assumption | with_reducible apply Kept.ite | with_reducible apply xtAssert_kept)

end Sys2Proof.Machine
end

