-- ==== Sys2Proof/Laws/KeptExec.lean ====
section
/-! SUPPORT. KeptExec.lean: every command, the tick and the step keep what `Kept` names. -/
set_option Elab.async false
namespace Sys2Proof.Machine

theorem orFault_kept {s t : State} {x : Except Fault State} (h : ∀ u, x = .ok u → Kept s u) (e : orFault x = .next t) : Kept s t := by
  cases x with
  | error k => cases e
  | ok u => cases e; exact h _ rfl

theorem regCmd_kept {s t : State} {a : Nat} {w : Word} {f : State → State} (h : Kept s (f s)) (e : s.regCmd a w f = .next t) : Kept s t := by
  unfold State.regCmd at e
  split at e
  · cases e
  · cases e; exact h

theorem execStepExecute_kept (ups : List Upset) (s : State) {t : State} (e : execStepExecute ups s = .next t) : Kept s t := by
  have h := Kept.refl s
  unfold execStepExecute at e
  cases e
  repeat' (first | with_reducible assumption | with_reducible apply seqStep_kept)

theorem execEllipsisEnd_kept (ups : List Upset) (s : State) {t : State} (e : execEllipsisEnd ups s = .next t) : Kept s t := by
  have h := Kept.refl s
  unfold execEllipsisEnd at e
  cases e
  repeat' (first | with_reducible assumption | with_reducible apply seqEllipsisEnd_kept)

theorem execSeqLongEllipsis_kept (s : State) {t : State} (e : execSeqLongEllipsis s = .next t) : Kept s t := by
  have h := Kept.refl s
  unfold execSeqLongEllipsis at e
  cases e
  repeat' (first | with_reducible assumption | with_reducible apply seqLong_kept)

theorem execRun_kept (s : State) {t : State} (e : execRun s = .next t) : Kept s t := by
  have h := Kept.refl s
  unfold execRun at e
  cases e
  repeat' (first | with_reducible assumption | with_reducible apply seqGo_kept)

theorem execStep1_kept (s : State) {t : State} (e : execStep1 s = .next t) : Kept s t := by
  have h := Kept.refl s
  unfold execStep1 at e
  cases e
  repeat' (first | with_reducible assumption | with_reducible apply seqGo_kept)

theorem execUcyc1_kept (s : State) {t : State} (e : execUcyc1 s = .next t) : Kept s t := by
  have h := Kept.refl s
  unfold execUcyc1 at e
  cases e
  repeat' (first | with_reducible assumption | with_reducible apply seqGo_kept)

theorem execStop_kept (s : State) {t : State} (e : execStop s = .next t) : Kept s t := by
  have h := Kept.refl s
  unfold execStop at e
  cases e
  repeat' (first | with_reducible assumption | with_reducible apply seqStopWrite_kept)

theorem execStopatEnable_kept (s : State) {t : State} (e : execStopatEnable s = .next t) : Kept s t := by
  have h := Kept.refl s
  unfold execStopatEnable at e
  cases e
  repeat' (first | with_reducible assumption | with_reducible apply seqStopat_kept)

theorem execCheckpointComplete_kept (ok : Bool) (failAddr : DWord) (s : State) {t : State} (e : execCheckpointComplete ok failAddr s = .next t) : Kept s t := by
  have h := Kept.refl s
  unfold execCheckpointComplete at e
  cases e
  repeat' (first | with_reducible assumption | with_reducible apply ckptComplete_kept)

theorem execSeqTmr_kept (mask : Word) (s : State) {t : State} (e : execSeqTmr mask s = .next t) : Kept s t := by
  have h := Kept.refl s
  unfold execSeqTmr at e
  cases e
  repeat' (first | with_reducible assumption | with_reducible apply State.raise_kept)

theorem execDictSweepRead_kept (c : Nat) (ph : Nat) (e : Nat) (ups : List Upset) (s : State) {t : State} (e : execDictSweepRead c ph e ups s = .next t) : Kept s t := by
  have h := Kept.refl s
  unfold execDictSweepRead at e
  cases e
  repeat' (first | with_reducible assumption | with_reducible apply dictSweep_kept | with_reducible apply upsets_kept)

theorem execDictUeRewrite_kept (c : Nat) (e : Nat) (s : State) {t : State} (e : execDictUeRewrite c e s = .next t) : Kept s t := by
  have h := Kept.refl s
  unfold execDictUeRewrite at e
  cases e
  repeat' (first | with_reducible assumption | with_reducible apply dictRewrite_kept)

theorem execClsSpareGo_kept (c : Nat) (target : Nat) (s : State) {t : State} (e : execClsSpareGo c target s = .next t) : Kept s t := by
  have h := Kept.refl s
  unfold execClsSpareGo at e
  cases e
  repeat' (first | with_reducible assumption | with_reducible apply spareGo_kept)

theorem execMigrationComplete_kept (c : Nat) (mismatches : Nat) (cycles : Nat) (s : State) {t : State} (e : execMigrationComplete c mismatches cycles s = .next t) : Kept s t := by
  have h := Kept.refl s
  unfold execMigrationComplete at e
  cases e
  repeat' (first | with_reducible assumption | with_reducible apply Kept.ite | with_reducible apply actsLog_kept | with_reducible apply patchAnswer_kept | with_reducible apply migrationEnd_kept)

theorem execSpareMarchPass_kept (c : Nat) (passed : Bool) (s : State) {t : State} (e : execSpareMarchPass c passed s = .next t) : Kept s t := by
  have h := Kept.refl s
  unfold execSpareMarchPass at e
  cases e
  repeat' (first | with_reducible assumption | with_reducible apply Kept.ite | with_reducible apply State.modClause_kept)

theorem execLexAccessServe_kept (bank : Nat) (ups : List Upset) (s : State) {t : State} (e : execLexAccessServe bank ups s = .next t) : Kept s t := by
  have h := Kept.refl s
  unfold execLexAccessServe at e
  cases e
  repeat' (first | with_reducible assumption | with_reducible apply lexServe_kept | with_reducible apply upsets_kept)

theorem execLexNocServe_kept (bank : Nat) (ups : List Upset) (s : State) {t : State} (e : execLexNocServe bank ups s = .next t) : Kept s t := by
  have h := Kept.refl s
  unfold execLexNocServe at e
  cases e
  repeat' (first | with_reducible assumption | with_reducible apply lexNoc_kept | with_reducible apply upsets_kept)

theorem execMemNocStarve_kept (k : Nat) (s : State) {t : State} (e : execMemNocStarve k s = .next t) : Kept s t := by
  have h := Kept.refl s
  unfold execMemNocStarve at e
  cases e
  repeat' (first | with_reducible assumption | with_reducible apply nocStarve_kept)

theorem execMemReturnArrive_kept (m : Nat) (s : State) {t : State} (e : execMemReturnArrive m s = .next t) : Kept s t := by
  have h := Kept.refl s
  unfold execMemReturnArrive at e
  cases e
  repeat' (first | with_reducible assumption | (simp only [Kept.mk_eq]; with_reducible apply KeptF.of))

theorem execHbmReturn_kept (m : Nat) (ups : List Upset) (s : State) {t : State} (e : execHbmReturn m ups s = .next t) : Kept s t := by
  have h := Kept.refl s
  unfold execHbmReturn at e
  cases e
  repeat' (first | with_reducible assumption | with_reducible apply upsets_kept | with_reducible apply hbmArrive_kept)

theorem execHbmRefresh_kept (stack : Nat) (allBank : Bool) (s : State) {t : State} (e : execHbmRefresh stack allBank s = .next t) : Kept s t := by
  have h := Kept.refl s
  unfold execHbmRefresh at e
  cases e
  repeat' (first | with_reducible assumption)

theorem execHbmTempRead_kept (stack : Nat) (temp : Byte) (s : State) {t : State} (e : execHbmTempRead stack temp s = .next t) : Kept s t := by
  have h := Kept.refl s
  unfold execHbmTempRead at e
  cases e
  repeat' (first | with_reducible assumption | with_reducible apply State.fset_kept)

theorem execMemCalGo_kept (mask : BitVec 4) (s : State) {t : State} (e : execMemCalGo mask s = .next t) : Kept s t := by
  have h := Kept.refl s
  unfold execMemCalGo at e
  cases e
  repeat' (first | with_reducible assumption | with_reducible apply calStart_kept)

theorem execCalSliceEnd_kept (stack : Nat) (ok : Bool) (lanes : Nat) (ns : Nat) (s : State) {t : State} (e : execCalSliceEnd stack ok lanes ns s = .next t) : Kept s t := by
  have h := Kept.refl s
  unfold execCalSliceEnd at e
  cases e
  repeat' (first | with_reducible assumption | with_reducible apply calSliceEnd_kept)

theorem execMemLretGo_kept (bank : Nat) (word : Nat) (s : State) {t : State} (e : execMemLretGo bank word s = .next t) : Kept s t := by
  have h := Kept.refl s
  unfold execMemLretGo at e
  cases e
  repeat' (first | with_reducible assumption | with_reducible apply lretGo_kept)

theorem execLretComplete_kept (mismatches : Nat) (s : State) {t : State} (e : execLretComplete mismatches s = .next t) : Kept s t := by
  have h := Kept.refl s
  unfold execLretComplete at e
  cases e
  repeat' (first | with_reducible assumption | with_reducible apply actsLog_kept | with_reducible apply lretEnd_kept)

theorem execMemHretGo_kept (stack : Nat) (s : State) {t : State} (e : execMemHretGo stack s = .next t) : Kept s t := by
  have h := Kept.refl s
  unfold execMemHretGo at e
  cases e
  repeat' (first | with_reducible assumption | with_reducible apply hretGo_kept)

theorem execHretComplete_kept (mismatches : Nat) (s : State) {t : State} (e : execHretComplete mismatches s = .next t) : Kept s t := by
  have h := Kept.refl s
  unfold execHretComplete at e
  cases e
  repeat' (first | with_reducible assumption | with_reducible apply actsLog_kept | with_reducible apply hretEnd_kept)

theorem execFabIsoRequest_kept (c : Nat) (xinj : Bool) (s : State) {t : State} (e : execFabIsoRequest c xinj s = .next t) : Kept s t := by
  have h := Kept.refl s
  unfold execFabIsoRequest at e
  cases e
  repeat' (first | with_reducible assumption | with_reducible apply isoWrite_kept)

theorem execFabRelRequest_kept (c : Nat) (s : State) {t : State} (e : execFabRelRequest c s = .next t) : Kept s t := by
  have h := Kept.refl s
  unfold execFabRelRequest at e
  cases e
  repeat' (first | with_reducible assumption | with_reducible apply isoWrite_kept)

theorem execIsoBoundaryApply_kept (s : State) {t : State} (e : execIsoBoundaryApply s = .next t) : Kept s t := by
  have h := Kept.refl s
  unfold execIsoBoundaryApply at e
  cases e
  repeat' (first | with_reducible assumption | with_reducible apply isoApply_kept)

theorem execFabAgreeCommit_kept (tag : Byte) (s : State) {t : State} (e : execFabAgreeCommit tag s = .next t) : Kept s t := by
  have h := Kept.refl s
  unfold execFabAgreeCommit at e
  cases e
  repeat' (first | with_reducible assumption | with_reducible apply fabAgree_kept)

theorem execReadRepairWriteback_kept (c : Nat) (row : Nat) (word : Nat) (s : State) {t : State} (e : execReadRepairWriteback c row word s = .next t) : Kept s t := by
  have h := Kept.refl s
  unfold execReadRepairWriteback at e
  cases e
  repeat' (first | with_reducible assumption | with_reducible apply writeBack_kept)

theorem execScrubRowRead_kept (c : Nat) (ups : List Upset) (s : State) {t : State} (e : execScrubRowRead c ups s = .next t) : Kept s t := by
  have h := Kept.refl s
  unfold execScrubRowRead at e
  cases e
  repeat' (first | with_reducible assumption | with_reducible apply scrubRow_kept | with_reducible apply upsets_kept)

theorem execParamCheck_kept (rim : Bool) (struck : Option (Nat × Nat)) (s : State) {t : State} (e : execParamCheck rim struck s = .next t) : Kept s t := by
  have h := Kept.refl s
  unfold execParamCheck at e
  cases e
  repeat' (first | with_reducible assumption | with_reducible apply paramCheck_kept)

theorem execSchParam_kept (s : State) {t : State} (e : execSchParam s = .next t) : Kept s t := by
  have h := Kept.refl s
  unfold execSchParam at e
  cases e
  repeat' (first | with_reducible assumption | with_reducible apply schParamPost_kept)

theorem execSchRmapGo_kept (c : Nat) (row : Nat) (s : State) {t : State} (e : execSchRmapGo c row s = .next t) : Kept s t := by
  have h := Kept.refl s
  unfold execSchRmapGo at e
  cases e
  repeat' (first | with_reducible assumption | with_reducible apply rmapGo_kept)

theorem execRmapComplete_kept (mismatches : Nat) (s : State) {t : State} (e : execRmapComplete mismatches s = .next t) : Kept s t := by
  have h := Kept.refl s
  unfold execRmapComplete at e
  cases e
  repeat' (first | with_reducible assumption | with_reducible apply actsLog_kept | with_reducible apply rmapEnd_kept)

theorem execSchPatchApply_kept (s : State) {t : State} (e : execSchPatchApply s = .next t) : Kept s t := by
  have h := Kept.refl s
  unfold execSchPatchApply at e
  cases e
  repeat' (first | with_reducible assumption | with_reducible apply patchApply_kept)

theorem execPatchBoundaryHold_kept (s : State) {t : State} (e : execPatchBoundaryHold s = .next t) : Kept s t := by
  have h := Kept.refl s
  unfold execPatchBoundaryHold at e
  cases e
  repeat' (first | with_reducible assumption | with_reducible apply patchHoldBegin_kept)

theorem execPatchHoldEnd_kept (s : State) {t : State} (e : execPatchHoldEnd s = .next t) : Kept s t := by
  have h := Kept.refl s
  unfold execPatchHoldEnd at e
  cases e
  repeat' (first | with_reducible assumption | with_reducible apply Kept.ite | with_reducible apply patchSetEnd_kept | with_reducible apply patchHoldEnd_kept)

theorem execIdleSuperframeSend_kept (l : Nat) (s : State) {t : State} (e : execIdleSuperframeSend l s = .next t) : Kept s t := by
  have h := Kept.refl s
  unfold execIdleSuperframeSend at e
  cases e
  repeat' (first | with_reducible assumption | with_reducible apply linkIdle_kept)

theorem execSuperframeReceive_kept (l : Nat) (sf : Superframe) (fecFix : Nat) (fecUe : Option Nat) (s : State) {t : State} (e : execSuperframeReceive l sf fecFix fecUe s = .next t) : Kept s t := by
  have h := Kept.refl s
  unfold execSuperframeReceive at e
  cases e
  repeat' (first | with_reducible assumption | with_reducible apply superframeIn_kept)

theorem execRetryTimeout_kept (l : Nat) (s : State) {t : State} (e : execRetryTimeout l s = .next t) : Kept s t := by
  have h := Kept.refl s
  unfold execRetryTimeout at e
  cases e
  repeat' (first | with_reducible assumption | with_reducible apply retryAgain_kept)

theorem execResumeWordReceive_kept (l : Nat) (tag : BitVec 16) (s : State) {t : State} (e : execResumeWordReceive l tag s = .next t) : Kept s t := by
  have h := Kept.refl s
  unfold execResumeWordReceive at e
  cases e
  repeat' (first | with_reducible assumption | with_reducible apply resumeWordIn_kept)

theorem execFenceWordReceive_kept (l : Nat) (dev : BitVec 18) (fence : DWord) (s : State) {t : State} (e : execFenceWordReceive l dev fence s = .next t) : Kept s t := by
  have h := Kept.refl s
  unfold execFenceWordReceive at e
  cases e
  repeat' (first | with_reducible assumption | with_reducible apply fenceWordIn_kept)

theorem execPeerItemReceive_kept (l : Nat) (item : Nat) (val : Word) (s : State) {t : State} (e : execPeerItemReceive l item val s = .next t) : Kept s t := by
  have h := Kept.refl s
  unfold execPeerItemReceive at e
  cases e
  repeat' (first | with_reducible assumption | with_reducible apply peerItemIn_kept)

theorem execLaneWordReceive_kept (l : Nat) (op : Nat) (lane : Nat) (s : State) {t : State} (e : execLaneWordReceive l op lane s = .next t) : Kept s t := by
  have h := Kept.refl s
  unfold execLaneWordReceive at e
  cases e
  repeat' (first | with_reducible assumption | with_reducible apply laneWordIn_kept)

theorem execMsgWordReceive_kept (l : Nat) (msg : BitVec 60) (s : State) {t : State} (e : execMsgWordReceive l msg s = .next t) : Kept s t := by
  have h := Kept.refl s
  unfold execMsgWordReceive at e
  cases e
  repeat' (first | with_reducible assumption | with_reducible apply msgWordIn_kept)

theorem execPeerRepeat_kept (l : Nat) (s : State) {t : State} (e : execPeerRepeat l s = .next t) : Kept s t := by
  have h := Kept.refl s
  unfold execPeerRepeat at e
  cases e
  repeat' (first | with_reducible assumption | with_reducible apply peerRepeat_kept)

theorem execLnkEnable_kept (l : Nat) (s : State) {t : State} (e : execLnkEnable l s = .next t) : Kept s t := by
  have h := Kept.refl s
  unfold execLnkEnable at e
  cases e
  repeat' (first | with_reducible assumption | with_reducible apply linkEnable_kept)

theorem execLnkDisable_kept (l : Nat) (s : State) {t : State} (e : execLnkDisable l s = .next t) : Kept s t := by
  have h := Kept.refl s
  unfold execLnkDisable at e
  cases e
  repeat' (first | with_reducible assumption | with_reducible apply linkDisable_kept)

theorem execTrainComplete_kept (l : Nat) (lanes : BitVec 3) (s : State) {t : State} (e : execTrainComplete l lanes s = .next t) : Kept s t := by
  have h := Kept.refl s
  unfold execTrainComplete at e
  cases e
  repeat' (first | with_reducible assumption | with_reducible apply trainDone_kept)

theorem execTrainTimeout_kept (l : Nat) (s : State) {t : State} (e : execTrainTimeout l s = .next t) : Kept s t := by
  have h := Kept.refl s
  unfold execTrainTimeout at e
  cases e
  repeat' (first | with_reducible assumption | with_reducible apply trainTimeout_kept)

theorem execFramingLock_kept (l : Nat) (trip : Nat) (decode : Nat) (s : State) {t : State} (e : execFramingLock l trip decode s = .next t) : Kept s t := by
  have h := Kept.refl s
  unfold execFramingLock at e
  cases e
  repeat' (first | with_reducible assumption | with_reducible apply framingLock_kept)

theorem execPartnerModeDetect_kept (l : Nat) (s : State) {t : State} (e : execPartnerModeDetect l s = .next t) : Kept s t := by
  have h := Kept.refl s
  unfold execPartnerModeDetect at e
  cases e
  repeat' (first | with_reducible assumption | with_reducible apply partnerMode_kept)

theorem execModeRetry_kept (l : Nat) (s : State) {t : State} (e : execModeRetry l s = .next t) : Kept s t := by
  have h := Kept.refl s
  unfold execModeRetry at e
  cases e
  repeat' (first | with_reducible assumption | with_reducible apply modeRetry_kept)

theorem execModeWindowClose_kept (l : Nat) (s : State) {t : State} (e : execModeWindowClose l s = .next t) : Kept s t := by
  have h := Kept.refl s
  unfold execModeWindowClose at e
  cases e
  repeat' (first | with_reducible assumption | with_reducible apply loadPoll_kept | with_reducible apply windowClose_kept)

theorem execIdentComplete_kept (l : Nat) (serial : DWord) (plink : Nat) (s : State) {t : State} (e : execIdentComplete l serial plink s = .next t) : Kept s t := by
  have h := Kept.refl s
  unfold execIdentComplete at e
  cases e
  repeat' (first | with_reducible assumption | with_reducible apply loadPoll_kept | with_reducible apply identDone_kept)

theorem execFramingLost_kept (l : Nat) (s : State) {t : State} (e : execFramingLost l s = .next t) : Kept s t := by
  have h := Kept.refl s
  unfold execFramingLost at e
  cases e
  repeat' (first | with_reducible assumption | with_reducible apply framingLost_kept)

theorem execResumeComplete_kept (l : Nat) (tag : BitVec 16) (s : State) {t : State} (e : execResumeComplete l tag s = .next t) : Kept s t := by
  have h := Kept.refl s
  unfold execResumeComplete at e
  cases e
  repeat' (first | with_reducible assumption | with_reducible apply resumeDone_kept)

theorem execResumeTimeout_kept (l : Nat) (s : State) {t : State} (e : execResumeTimeout l s = .next t) : Kept s t := by
  have h := Kept.refl s
  unfold execResumeTimeout at e
  cases e
  repeat' (first | with_reducible assumption | with_reducible apply resumeFail_kept)

theorem execPartnerOffReport_kept (l : Nat) (s : State) {t : State} (e : execPartnerOffReport l s = .next t) : Kept s t := by
  have h := Kept.refl s
  unfold execPartnerOffReport at e
  cases e
  repeat' (first | with_reducible assumption | with_reducible apply resumeFail_kept)

theorem execLnkSpareGo_kept (l : Nat) (lane : Nat) (s : State) {t : State} (e : execLnkSpareGo l lane s = .next t) : Kept s t := by
  have h := Kept.refl s
  unfold execLnkSpareGo at e
  cases e
  repeat' (first | with_reducible assumption | with_reducible apply lnkSpareGo_kept)

theorem execLaneLoss_kept (l : Nat) (lane : Nat) (s : State) {t : State} (e : execLaneLoss l lane s = .next t) : Kept s t := by
  have h := Kept.refl s
  unfold execLaneLoss at e
  cases e
  repeat' (first | with_reducible assumption | with_reducible apply laneLoss_kept)

theorem execLaneSpareComplete_kept (l : Nat) (accepted : Bool) (s : State) {t : State} (e : execLaneSpareComplete l accepted s = .next t) : Kept s t := by
  have h := Kept.refl s
  unfold execLaneSpareComplete at e
  cases e
  repeat' (first | with_reducible assumption | with_reducible apply actsLog_kept | with_reducible apply sparingEnd_kept)

theorem execSpareLaneTrained_kept (l : Nat) (s : State) {t : State} (e : execSpareLaneTrained l s = .next t) : Kept s t := by
  have h := Kept.refl s
  unfold execSpareLaneTrained at e
  cases e
  repeat' (first | with_reducible assumption | with_reducible apply spareTrained_kept)

theorem execSpareRetrainTimer_kept (l : Nat) (s : State) {t : State} (e : execSpareRetrainTimer l s = .next t) : Kept s t := by
  have h := Kept.refl s
  unfold execSpareRetrainTimer at e
  cases e
  repeat' (first | with_reducible assumption | with_reducible apply spareRetrain_kept)

theorem execEyeScan_kept (l : Nat) (lane : Nat) (height : Nat) (width : Nat) (s : State) {t : State} (e : execEyeScan l lane height width s = .next t) : Kept s t := by
  have h := Kept.refl s
  unfold execEyeScan at e
  cases e
  repeat' (first | with_reducible assumption | with_reducible apply eyeScan_kept)

theorem execLnkDevnumStart_kept (s : State) {t : State} (e : execLnkDevnumStart s = .next t) : Kept s t := by
  have h := Kept.refl s
  unfold execLnkDevnumStart at e
  cases e
  repeat' (first | with_reducible assumption | with_reducible apply devnumStart_kept)

theorem execLnkTopo_kept (self : Nat) (base : Nat) (renumber : Bool) (nums : List Nat) (links : List TopoLink) (s : State) {t : State} (e : execLnkTopo self base renumber nums links s = .next t) : Kept s t := by
  have h := Kept.refl s
  unfold execLnkTopo at e
  cases e
  repeat' (first | with_reducible assumption | with_reducible apply lnkTopo_kept)

theorem execDevnumWrite_kept (w : Word) (s : State) {t : State} (e : execDevnumWrite w s = .next t) : Kept s t := by
  have h := Kept.refl s
  unfold execDevnumWrite at e
  exact regCmd_kept (devnumWrite_kept _ h) e

theorem execRimPllUnlock_kept (p : Nat) (s : State) {t : State} (e : execRimPllUnlock p s = .next t) : Kept s t := by
  have h := Kept.refl s
  unfold execRimPllUnlock at e
  cases e
  repeat' (first | with_reducible assumption | with_reducible apply pllLock_kept)

theorem execRimPllRelock_kept (p : Nat) (s : State) {t : State} (e : execRimPllRelock p s = .next t) : Kept s t := by
  have h := Kept.refl s
  unfold execRimPllRelock at e
  cases e
  repeat' (first | with_reducible assumption | with_reducible apply nocPump_kept | with_reducible apply pllLock_kept)

theorem execRimOnehot_kept (rfa : Nat) (mux : Nat) (s : State) {t : State} (e : execRimOnehot rfa mux s = .next t) : Kept s t := by
  have h := Kept.refl s
  unfold execRimOnehot at e
  cases e
  repeat' (first | with_reducible assumption | with_reducible apply rimOnehot_kept)

theorem execRimOutboundRead_kept (g : Nat) (s : State) {t : State} (e : execRimOutboundRead g s = .next t) : Kept s t := by
  have h := Kept.refl s
  unfold execRimOutboundRead at e
  cases e
  repeat' (first | with_reducible assumption | with_reducible apply rimOutRead_kept)

theorem execRimInboundWrite_kept (g : Nat) (entry : DWord) (s : State) {t : State} (e : execRimInboundWrite g entry s = .next t) : Kept s t := by
  have h := Kept.refl s
  unfold execRimInboundWrite at e
  cases e
  repeat' (first | with_reducible assumption | with_reducible apply rimInWrite_kept)

theorem execRimPrcFence_kept (region : Nat) (s : State) {t : State} (e : execRimPrcFence region s = .next t) : Kept s t := by
  have h := Kept.refl s
  unfold execRimPrcFence at e
  cases e
  repeat' (first | with_reducible assumption | with_reducible apply rimFence_kept)

theorem execRimPrcRel_kept (region : Nat) (s : State) {t : State} (e : execRimPrcRel region s = .next t) : Kept s t := by
  have h := Kept.refl s
  unfold execRimPrcRel at e
  cases e
  repeat' (first | with_reducible assumption | with_reducible apply rimRelease_kept)

theorem execRimFrameScrub_kept (ups : List Upset) (s : State) {t : State} (e : execRimFrameScrub ups s = .next t) : Kept s t := by
  have h := Kept.refl s
  unfold execRimFrameScrub at e
  cases e
  repeat' (first | with_reducible assumption | with_reducible apply rimScrub_kept | with_reducible apply upsets_kept)

theorem execRimParam_kept (s : State) {t : State} (e : execRimParam s = .next t) : Kept s t := by
  have h := Kept.refl s
  unfold execRimParam at e
  cases e
  repeat' (first | with_reducible assumption | with_reducible apply rimParamPost_kept)

theorem execRimPortRequest_kept (port : Nat) (write : Bool) (addr : Nat) (size : Nat) (tag : Nat) (data : List Byte) (s : State) {t : State} (e : execRimPortRequest port write addr size tag data s = .next t) : Kept s t := by
  have h := Kept.refl s
  unfold execRimPortRequest at e
  cases e
  repeat' (first | with_reducible assumption | with_reducible apply rimRequest_kept)

theorem execVccioGood_kept (b : Nat) (mv : Nat) (strap : Nat) (s : State) {t : State} (e : execVccioGood b mv strap s = .next t) : Kept s t := by
  have h := Kept.refl s
  unfold execVccioGood at e
  cases e
  repeat' (first | with_reducible assumption | with_reducible apply vccioGood_kept)

theorem execVccioLost_kept (b : Nat) (mv : Nat) (s : State) {t : State} (e : execVccioLost b mv s = .next t) : Kept s t := by
  have h := Kept.refl s
  unfold execVccioLost at e
  cases e
  repeat' (first | with_reducible assumption | with_reducible apply vccioLost_kept)

theorem execRimRel_kept (b : Nat) (s : State) {t : State} (e : execRimRel b s = .next t) : Kept s t := by
  have h := Kept.refl s
  unfold execRimRel at e
  cases e
  repeat' (first | with_reducible assumption | with_reducible apply rimRel_kept)

theorem execRimDis_kept (b : Nat) (s : State) {t : State} (e : execRimDis b s = .next t) : Kept s t := by
  have h := Kept.refl s
  unfold execRimDis at e
  cases e
  repeat' (first | with_reducible assumption | with_reducible apply rimDis_kept)

theorem execBankCheckComplete_kept (b : Nat) (key : BitVec 2) (openMask : BitVec 48) (s : State) {t : State} (e : execBankCheckComplete b key openMask s = .next t) : Kept s t := by
  have h := Kept.refl s
  unfold execBankCheckComplete at e
  cases e
  repeat' (first | with_reducible assumption | with_reducible apply bankChecked_kept)

theorem execKeySample_kept (b : Nat) (key : BitVec 2) (s : State) {t : State} (e : execKeySample b key s = .next t) : Kept s t := by
  have h := Kept.refl s
  unfold execKeySample at e
  cases e
  repeat' (first | with_reducible assumption | with_reducible apply keySample_kept)

theorem execRimIoShort_kept (b : Nat) (pin : Nat) (level : Bool) (s : State) {t : State} (e : execRimIoShort b pin level s = .next t) : Kept s t := by
  have h := Kept.refl s
  unfold execRimIoShort at e
  cases e
  repeat' (first | with_reducible assumption | with_reducible apply ioShort_kept)

theorem execSigStart_kept (s : State) {t : State} (e : execSigStart s = .next t) : Kept s t := by
  have h := Kept.refl s
  unfold execSigStart at e
  cases e
  repeat' (first | with_reducible assumption | with_reducible apply sigStartReq_kept)

theorem execSigStop_kept (s : State) {t : State} (e : execSigStop s = .next t) : Kept s t := by
  have h := Kept.refl s
  unfold execSigStop at e
  cases e
  repeat' (first | with_reducible assumption | with_reducible apply sigStopReq_kept)

theorem execSigPostEnd_kept (s : State) {t : State} (e : execSigPostEnd s = .next t) : Kept s t := by
  have h := Kept.refl s
  unfold execSigPostEnd at e
  cases e
  repeat' (first | with_reducible assumption | with_reducible apply sigPostEnd_kept)

theorem execCaptureDrain_kept (s : State) {t : State} (e : execCaptureDrain s = .next t) : Kept s t := by
  have h := Kept.refl s
  unfold execCaptureDrain at e
  cases e
  repeat' (first | with_reducible assumption | with_reducible apply captureDrain_kept)

theorem execCapOverflow_kept (mt : Bool) (s : State) {t : State} (e : execCapOverflow mt s = .next t) : Kept s t := by
  have h := Kept.refl s
  unfold execCapOverflow at e
  cases e
  repeat' (first | with_reducible assumption | with_reducible apply capOverflow_kept)

theorem execMtStart_kept (s : State) {t : State} (e : execMtStart s = .next t) : Kept s t := by
  have h := Kept.refl s
  unfold execMtStart at e
  cases e
  repeat' (first | with_reducible assumption | with_reducible apply mtStartReq_kept)

theorem execMtStop_kept (s : State) {t : State} (e : execMtStop s = .next t) : Kept s t := by
  have h := Kept.refl s
  unfold execMtStop at e
  cases e
  repeat' (first | with_reducible assumption | with_reducible apply mtStopReq_kept)

theorem execTuEnable_kept (u : Nat) (w : Word) (s : State) {t : State} (e : execTuEnable u w s = .next t) : Kept s t := by
  have h := Kept.refl s
  unfold execTuEnable at e
  exact regCmd_kept (tuEnable_kept _ _ h) e

theorem execTuDisable_kept (u : Nat) (s : State) {t : State} (e : execTuDisable u s = .next t) : Kept s t := by
  have h := Kept.refl s
  unfold execTuDisable at e
  cases e
  repeat' (first | with_reducible assumption | with_reducible apply tuDisable_kept)

theorem execTuRegWrite_kept (u : Nat) (off : Nat) (w : Word) (s : State) {t : State} (e : execTuRegWrite u off w s = .next t) : Kept s t := by
  have h := Kept.refl s
  unfold execTuRegWrite at e
  exact regCmd_kept (tuRegWrite_kept _ _ _ h) e

theorem execPinCrossing_kept (bank : Nat) (pin : Nat) (hi : Bool) (up : Bool) (mv : Nat) (fine : Nat) (s : State) {t : State} (e : execPinCrossing bank pin hi up mv fine s = .next t) : Kept s t := by
  have h := Kept.refl s
  unfold execPinCrossing at e
  cases e
  repeat' (first | with_reducible assumption | with_reducible apply pinCrossing_kept)

theorem execTriggerFire_kept (u : Nat) (ticks : Nat) (s : State) {t : State} (e : execTriggerFire u ticks s = .next t) : Kept s t := by
  have h := Kept.refl s
  unfold execTriggerFire at e
  cases e
  repeat' (first | with_reducible assumption | with_reducible apply triggerFire_kept)

theorem execHoldoffEnd_kept (u : Nat) (s : State) {t : State} (e : execHoldoffEnd u s = .next t) : Kept s t := by
  have h := Kept.refl s
  unfold execHoldoffEnd at e
  cases e
  repeat' (first | with_reducible assumption | with_reducible apply holdoffEnd_kept)

theorem execDbgAuthPassword_kept (p : Path) (level : Nat) (s : State) {t : State} (e : execDbgAuthPassword p level s = .next t) : Kept s t := by
  have h := Kept.refl s
  unfold execDbgAuthPassword at e
  cases e
  repeat' (first | with_reducible assumption | with_reducible apply authPassword_kept)

theorem execDbgAuthKeyx_kept (p : Path) (level : Nat) (s : State) {t : State} (e : execDbgAuthKeyx p level s = .next t) : Kept s t := by
  have h := Kept.refl s
  unfold execDbgAuthKeyx at e
  cases e
  repeat' (first | with_reducible assumption | with_reducible apply authKeyx_kept)

theorem execKeyxTimeout_kept (s : State) {t : State} (e : execKeyxTimeout s = .next t) : Kept s t := by
  have h := Kept.refl s
  unfold execKeyxTimeout at e
  cases e
  repeat' (first | with_reducible assumption | with_reducible apply keyxAbort_kept)

theorem execDbgAuthDrop_kept (p : Path) (s : State) {t : State} (e : execDbgAuthDrop p s = .next t) : Kept s t := by
  have h := Kept.refl s
  unfold execDbgAuthDrop at e
  cases e
  repeat' (first | with_reducible assumption | with_reducible apply setLevel_kept)

theorem execDbgAccessRead_kept (s : State) {t : State} (e : execDbgAccessRead s = .next t) : Kept s t := by
  have h := Kept.refl s
  unfold execDbgAccessRead at e
  exact orFault_kept (fun u hu => engineGo_kept _ h hu) e

theorem execDbgAccessWrite_kept (s : State) {t : State} (e : execDbgAccessWrite s = .next t) : Kept s t := by
  have h := Kept.refl s
  unfold execDbgAccessWrite at e
  exact orFault_kept (fun u hu => engineGo_kept _ h hu) e

theorem execRead_kept (p : Path) (c : Nat) (bp : Nat) (bank : Bool) (entry : Nat) (s : State) {t : State} (e : execRead p c bp bank entry s = .next t) : Kept s t := by
  have h := Kept.refl s
  unfold execRead at e
  cases e
  repeat' (first | with_reducible assumption | with_reducible apply arrGo_kept)

theorem execDeposit_kept (p : Path) (c : Nat) (bp : Nat) (bank : Bool) (entry : Nat) (v : Val) (s : State) {t : State} (e : execDeposit p c bp bank entry v s = .next t) : Kept s t := by
  have h := Kept.refl s
  unfold execDeposit at e
  cases e
  repeat' (first | with_reducible assumption | with_reducible apply arrGoVal_kept)

theorem execForce_kept (p : Path) (c : Nat) (bp : Nat) (bank : Bool) (entry : Nat) (v : Val) (s : State) {t : State} (e : execForce p c bp bank entry v s = .next t) : Kept s t := by
  have h := Kept.refl s
  unfold execForce at e
  cases e
  repeat' (first | with_reducible assumption | with_reducible apply arrGoVal_kept)

theorem execRelease_kept (p : Path) (c : Nat) (bp : Nat) (bank : Bool) (entry : Nat) (s : State) {t : State} (e : execRelease p c bp bank entry s = .next t) : Kept s t := by
  have h := Kept.refl s
  unfold execRelease at e
  cases e
  repeat' (first | with_reducible assumption | with_reducible apply arrGo_kept)

theorem execCqread_kept (p : Path) (c : Nat) (bp : Nat) (slot : Nat) (s : State) {t : State} (e : execCqread p c bp slot s = .next t) : Kept s t := by
  have h := Kept.refl s
  unfold execCqread at e
  cases e
  repeat' (first | with_reducible assumption | with_reducible apply arrGo_kept)

theorem execRelall_kept (p : Path) (s : State) {t : State} (e : execRelall p s = .next t) : Kept s t := by
  have h := Kept.refl s
  unfold execRelall at e
  cases e
  repeat' (first | with_reducible assumption | with_reducible apply arrGo_kept)

theorem execArrDeferredStart_kept (s : State) {t : State} (e : execArrDeferredStart s = .next t) : Kept s t := by
  have h := Kept.refl s
  unfold execArrDeferredStart at e
  cases e
  repeat' (first | with_reducible assumption | with_reducible apply arrDeferred_kept)

theorem execDbgHalt_kept (cause : HaltCause) (s : State) {t : State} (e : execDbgHalt cause s = .next t) : Kept s t := by
  have h := Kept.refl s
  unfold execDbgHalt at e
  cases e
  repeat' (first | with_reducible assumption | with_reducible apply runHalt_kept)

theorem execDbgResume_kept (p : Path) (s : State) {t : State} (e : execDbgResume p s = .next t) : Kept s t := by
  have h := Kept.refl s
  unfold execDbgResume at e
  cases e
  repeat' (first | with_reducible assumption | with_reducible apply runResume_kept)

theorem execDbgStep_kept (p : Path) (ups : List Upset) (s : State) {t : State} (e : execDbgStep p ups s = .next t) : Kept s t := by
  have h := Kept.refl s
  unfold execDbgStep at e
  cases e
  repeat' (first | with_reducible assumption | with_reducible apply runStep_kept)

theorem execPairHalt_kept (pair : Nat) (cause : HaltCause) (s : State) {t : State} (e : execPairHalt pair cause s = .next t) : Kept s t := by
  have h := Kept.refl s
  unfold execPairHalt at e
  cases e
  repeat' (first | with_reducible assumption | with_reducible apply pairHalt_kept)

theorem execPairHaltComplete_kept (pair : Nat) (priv : Nat) (pc : DWord) (lr : Option (Nat × Nat)) (s : State) {t : State} (e : execPairHaltComplete pair priv pc lr s = .next t) : Kept s t := by
  have h := Kept.refl s
  unfold execPairHaltComplete at e
  cases e
  repeat' (first | with_reducible assumption | with_reducible apply pairHalted_kept)

theorem execPairResume_kept (p : Path) (pair : Nat) (s : State) {t : State} (e : execPairResume p pair s = .next t) : Kept s t := by
  have h := Kept.refl s
  unfold execPairResume at e
  cases e
  repeat' (first | with_reducible assumption | with_reducible apply pairResumeReq_kept)

theorem execPairStep_kept (p : Path) (pair : Nat) (eff : CoreEffect) (s : State) {t : State} (e : execPairStep p pair eff s = .next t) : Kept s t := by
  have h := Kept.refl s
  unfold execPairStep at e
  cases e
  repeat' (first | with_reducible assumption | with_reducible apply pairStepReq_kept)

theorem execXtrigIn_kept (ch : Nat) (s : State) {t : State} (e : execXtrigIn ch s = .next t) : Kept s t := by
  have h := Kept.refl s
  unfold execXtrigIn at e
  cases e
  repeat' (first | with_reducible assumption | with_reducible apply xtrigIn_kept)

theorem execTestLogicReset_kept (s : State) {t : State} (e : execTestLogicReset s = .next t) : Kept s t := by
  have h := Kept.refl s
  unfold execTestLogicReset at e
  cases e
  repeat' (first | with_reducible assumption | with_reducible apply setLevel_kept | with_reducible apply tapSelect_kept)

theorem execExtest_kept (s : State) {t : State} (e : execExtest s = .next t) : Kept s t := by
  have h := Kept.refl s
  unfold execExtest at e
  cases e
  repeat' (first | with_reducible assumption | with_reducible apply tapSelect_kept)

theorem execSamplePreload_kept (s : State) {t : State} (e : execSamplePreload s = .next t) : Kept s t := by
  have h := Kept.refl s
  unfold execSamplePreload at e
  cases e
  repeat' (first | with_reducible assumption | with_reducible apply tapSelect_kept)

theorem execIdcode_kept (s : State) {t : State} (e : execIdcode s = .next t) : Kept s t := by
  have h := Kept.refl s
  unfold execIdcode at e
  cases e
  repeat' (first | with_reducible assumption | with_reducible apply State.emit_kept | with_reducible apply tapSelect_kept)

theorem execDbgacc_kept (write : Bool) (addr : Nat) (data : Word) (s : State) {t : State} (e : execDbgacc write addr data s = .next t) : Kept s t := by
  have h := Kept.refl s
  unfold execDbgacc at e
  exact orFault_kept (fun u hu => dbgacc_kept _ _ _ h hu) e

theorem execBypass_kept (code : Byte) (s : State) {t : State} (e : execBypass code s = .next t) : Kept s t := by
  have h := Kept.refl s
  unfold execBypass at e
  cases e
  repeat' (first | with_reducible assumption | with_reducible apply tapSelect_kept)

theorem execNocPacketForward_kept (router : Nat) (port : Nat) (err : HopError) (s : State) {t : State} (e : execNocPacketForward router port err s = .next t) : Kept s t := by
  have h := Kept.refl s
  unfold execNocPacketForward at e
  cases e
  repeat' (first | with_reducible assumption | with_reducible apply nocPump_kept | with_reducible apply nocForward_kept)

theorem execAgeIncrement_kept (router : Nat) (s : State) {t : State} (e : execAgeIncrement router s = .next t) : Kept s t := by
  have h := Kept.refl s
  unfold execAgeIncrement at e
  cases e
  repeat' (first | with_reducible assumption | with_reducible apply nocAge_kept)

theorem execNocPacketReceive_kept (router : Nat) (err : HopError) (s : State) {t : State} (e : execNocPacketReceive router err s = .next t) : Kept s t := by
  have h := Kept.refl s
  unfold execNocPacketReceive at e
  exact orFault_kept (fun u hu => nocReceive_kept _ _ _ h hu) e

theorem execNocTimeout_kept (k : Nat) (s : State) {t : State} (e : execNocTimeout k s = .next t) : Kept s t := by
  have h := Kept.refl s
  unfold execNocTimeout at e
  cases e
  repeat' (first | with_reducible assumption | with_reducible apply nocTimeout_kept)

theorem execNocRtFlip_kept (s : State) {t : State} (e : execNocRtFlip s = .next t) : Kept s t := by
  have h := Kept.refl s
  unfold execNocRtFlip at e
  cases e
  repeat' (first | with_reducible assumption | with_reducible apply rtFlip_kept)

theorem execOldEpochDrained_kept (s : State) {t : State} (e : execOldEpochDrained s = .next t) : Kept s t := by
  have h := Kept.refl s
  unfold execOldEpochDrained at e
  cases e
  repeat' (first | with_reducible assumption | with_reducible apply oldDrained_kept)

theorem execNocAgreeCommit_kept (tag : Byte) (s : State) {t : State} (e : execNocAgreeCommit tag s = .next t) : Kept s t := by
  have h := Kept.refl s
  unfold execNocAgreeCommit at e
  cases e
  repeat' (first | with_reducible assumption | with_reducible apply nocAgree_kept)

theorem execDlmodeSwitch_kept (row : Nat) (s : State) {t : State} (e : execDlmodeSwitch row s = .next t) : Kept s t := by
  have h := Kept.refl s
  unfold execDlmodeSwitch at e
  cases e
  repeat' (first | with_reducible assumption | with_reducible apply dlSwitch_kept)

theorem execBar2Read_kept (off : Nat) (size : Nat) (s : State) {t : State} (e : execBar2Read off size s = .next t) : Kept s t := by
  have h := Kept.refl s
  unfold execBar2Read at e
  cases e
  repeat' (first | with_reducible assumption | with_reducible apply bar2Read_kept)

theorem execBar2Write_kept (off : Nat) (data : List Byte) (s : State) {t : State} (e : execBar2Write off data s = .next t) : Kept s t := by
  have h := Kept.refl s
  unfold execBar2Write at e
  cases e
  repeat' (first | with_reducible assumption | with_reducible apply bar2Write_kept)

theorem execEventDoorbell_kept (r : Nat) (w : Word) (s : State) {t : State} (e : execEventDoorbell r w s = .next t) : Kept s t := by
  have h := Kept.refl s
  unfold execEventDoorbell at e
  cases e
  repeat' (first | with_reducible assumption | with_reducible apply eventDoorbell_kept)

theorem execDmaDoorbell_kept (c : Nat) (w : Word) (s : State) {t : State} (e : execDmaDoorbell c w s = .next t) : Kept s t := by
  have h := Kept.refl s
  unfold execDmaDoorbell at e
  cases e
  repeat' (first | with_reducible assumption | with_reducible apply dmaDoorbell_kept)

theorem execPcieReset_kept (kind : PcieReset) (s : State) {t : State} (e : execPcieReset kind s = .next t) : Kept s t := by
  have h := Kept.refl s
  unfold execPcieReset at e
  rw [← Host.Outcome.next.inj e]
  exact pcieReset_kept _ h

theorem execDmaEnable_kept (c : Nat) (w : Word) (s : State) {t : State} (e : execDmaEnable c w s = .next t) : Kept s t := by
  have h := Kept.refl s
  unfold execDmaEnable at e
  exact regCmd_kept (dmaEnable_kept _ _ h) e

theorem execDmaDisable_kept (c : Nat) (w : Word) (s : State) {t : State} (e : execDmaDisable c w s = .next t) : Kept s t := by
  have h := Kept.refl s
  unfold execDmaDisable at e
  exact regCmd_kept (dmaDisable_kept _ _ h) e

theorem execDmaDescComplete_kept (c : Nat) (desc : List Byte) (data : List Byte) (s : State) {t : State} (e : execDmaDescComplete c desc data s = .next t) : Kept s t := by
  have h := Kept.refl s
  unfold execDmaDescComplete at e
  cases e
  repeat' (first | with_reducible assumption | with_reducible apply dmaDesc_kept)

theorem execHifDmaErr_kept (c : Nat) (err : Nat) (status : Nat) (s : State) {t : State} (e : execHifDmaErr c err status s = .next t) : Kept s t := by
  have h := Kept.refl s
  unfold execHifDmaErr at e
  cases e
  repeat' (first | with_reducible assumption | with_reducible apply dmaFail_kept)

theorem execEventAccept_kept (k : Nat) (s : State) {t : State} (e : execEventAccept k s = .next t) : Kept s t := by
  have h := Kept.refl s
  unfold execEventAccept at e
  cases e
  repeat' (first | with_reducible assumption | with_reducible apply eventAccept_kept)

theorem execEventRingWrite_kept (s : State) {t : State} (e : execEventRingWrite s = .next t) : Kept s t := by
  have h := Kept.refl s
  unfold execEventRingWrite at e
  cases e
  repeat' (first | with_reducible assumption | with_reducible apply ringWrite_kept)

theorem execMsixCoalesceExpire_kept (r : Nat) (s : State) {t : State} (e : execMsixCoalesceExpire r s = .next t) : Kept s t := by
  have h := Kept.refl s
  unfold execMsixCoalesceExpire at e
  cases e
  repeat' (first | with_reducible assumption | with_reducible apply coalesceExpire_kept)

theorem execRingFullResignal_kept (s : State) {t : State} (e : execRingFullResignal s = .next t) : Kept s t := by
  have h := Kept.refl s
  unfold execRingFullResignal at e
  cases e
  repeat' (first | with_reducible assumption | with_reducible apply ringResignal_kept)

theorem execEventRingEnable_kept (r : Nat) (w : Word) (s : State) {t : State} (e : execEventRingEnable r w s = .next t) : Kept s t := by
  have h := Kept.refl s
  unfold execEventRingEnable at e
  exact regCmd_kept (ringEnable_kept _ _ h) e

theorem execMgtLockstep_kept (pair : Nat) (pc : DWord) (s : State) {t : State} (e : execMgtLockstep pair pc s = .next t) : Kept s t := by
  have h := Kept.refl s
  unfold execMgtLockstep at e
  cases e
  repeat' (first | with_reducible assumption | with_reducible apply lockstep_kept)

theorem execPairRestartComplete_kept (pair : Nat) (s : State) {t : State} (e : execPairRestartComplete pair s = .next t) : Kept s t := by
  have h := Kept.refl s
  unfold execPairRestartComplete at e
  cases e
  repeat' (first | with_reducible assumption | with_reducible apply restartDone_kept)

theorem execMgtWdtEnable_kept (pair : Nat) (timeout : BitVec 24) (s : State) {t : State} (e : execMgtWdtEnable pair timeout s = .next t) : Kept s t := by
  have h := Kept.refl s
  unfold execMgtWdtEnable at e
  cases e
  repeat' (first | with_reducible assumption | with_reducible apply wdtWrite_kept)

theorem execWdtKick_kept (pair : Nat) (key : BitVec 16) (s : State) {t : State} (e : execWdtKick pair key s = .next t) : Kept s t := by
  have h := Kept.refl s
  unfold execWdtKick at e
  cases e
  repeat' (first | with_reducible assumption | with_reducible apply wdtKick_kept)

theorem execMgtWdt_kept (pair : Nat) (s : State) {t : State} (e : execMgtWdt pair s = .next t) : Kept s t := by
  have h := Kept.refl s
  unfold execMgtWdt at e
  cases e
  repeat' (first | with_reducible assumption | with_reducible apply wdtExpire_kept)

theorem execProgram_kept (req : Requester) (s : State) {t : State} (e : execProgram req s = .next t) : Kept s t := by
  have h := Kept.refl s
  unfold execProgram at e
  cases e
  repeat' (first | with_reducible assumption | with_reducible apply ctlOnly_kept | with_reducible apply flashCmd_kept)

theorem execErase4k_kept (req : Requester) (s : State) {t : State} (e : execErase4k req s = .next t) : Kept s t := by
  have h := Kept.refl s
  unfold execErase4k at e
  cases e
  repeat' (first | with_reducible assumption | with_reducible apply ctlOnly_kept | with_reducible apply flashCmd_kept)

theorem execErase64k_kept (req : Requester) (s : State) {t : State} (e : execErase64k req s = .next t) : Kept s t := by
  have h := Kept.refl s
  unfold execErase64k at e
  cases e
  repeat' (first | with_reducible assumption | with_reducible apply ctlOnly_kept | with_reducible apply flashCmd_kept)

theorem execFlashCmdComplete_kept (ok : Bool) (s : State) {t : State} (e : execFlashCmdComplete ok s = .next t) : Kept s t := by
  have h := Kept.refl s
  unfold execFlashCmdComplete at e
  cases e
  repeat' (first | with_reducible assumption | with_reducible apply flashDone_kept)

theorem execMgtFpApply_kept (s : State) {t : State} (e : execMgtFpApply s = .next t) : Kept s t := by
  have h := Kept.refl s
  unfold execMgtFpApply at e
  cases e
  repeat' (first | with_reducible assumption | with_reducible apply fpApply_kept)

theorem execCodebaseWrite_kept (req : Requester) (w : Word) (s : State) {t : State} (e : execCodebaseWrite req w s = .next t) : Kept s t := by
  have h := Kept.refl s
  unfold execCodebaseWrite at e
  split at e
  · exact regCmd_kept (codebaseSet_kept _ h) e
  · cases e; exact ctlOnly_kept _ _ _ (fun _ hu => hu) h

theorem execSwapOk_kept (s : State) {t : State} (e : execSwapOk s = .next t) : Kept s t := by
  have h := Kept.refl s
  unfold execSwapOk at e
  cases e
  repeat' (first | with_reducible assumption | with_reducible apply swapOk_kept)

theorem execSwapTimeout_kept (s : State) {t : State} (e : execSwapTimeout s = .next t) : Kept s t := by
  have h := Kept.refl s
  unfold execSwapTimeout at e
  cases e
  repeat' (first | with_reducible assumption | with_reducible apply swapExpire_kept)

theorem execLoad_kept (slot : Nat) (placement : List Byte) (s : State) {t : State} (e : execLoad slot placement s = .next t) : Kept s t := by
  have h := Kept.refl s
  unfold execLoad at e
  cases e
  repeat' (first | with_reducible assumption | with_reducible apply service_kept | with_reducible apply svcLoad_kept)

theorem execFwUpdate_kept (slot : Nat) (stream : List Byte) (s : State) {t : State} (e : execFwUpdate slot stream s = .next t) : Kept s t := by
  have h := Kept.refl s
  unfold execFwUpdate at e
  cases e
  repeat' (first | with_reducible assumption | with_reducible apply service_kept | with_reducible apply fwUpdate_kept)

theorem execFwSwap_kept (slot : Nat) (s : State) {t : State} (e : execFwSwap slot s = .next t) : Kept s t := by
  have h := Kept.refl s
  unfold execFwSwap at e
  cases e
  repeat' (first | with_reducible assumption | with_reducible apply service_kept | with_reducible apply fwSwap_kept)

theorem execFwHotfix_kept (slot : Nat) (stream : List Byte) (s : State) {t : State} (e : execFwHotfix slot stream s = .next t) : Kept s t := by
  have h := Kept.refl s
  unfold execFwHotfix at e
  cases e
  repeat' (first | with_reducible assumption | with_reducible apply service_kept | with_reducible apply fwHotfixSvc_kept)

theorem execPatchSet_kept (slot : Nat) (s : State) {t : State} (e : execPatchSet slot s = .next t) : Kept s t := by
  have h := Kept.refl s
  unfold execPatchSet at e
  cases e
  repeat' (first | with_reducible assumption | with_reducible apply service_kept | with_reducible apply patchSet_kept)

theorem execLogRead_kept (slot : Nat) (s : State) {t : State} (e : execLogRead slot s = .next t) : Kept s t := by
  have h := Kept.refl s
  unfold execLogRead at e
  cases e
  repeat' (first | with_reducible assumption | with_reducible apply service_kept | with_reducible apply logRead_kept)

theorem execInfo_kept (slot : Nat) (s : State) {t : State} (e : execInfo slot s = .next t) : Kept s t := by
  have h := Kept.refl s
  unfold execInfo at e
  cases e
  repeat' (first | with_reducible assumption | with_reducible apply service_kept | with_reducible apply svcInfo_kept)

theorem execRestore_kept (slot : Nat) (crcOk : Bool) (writeOk : Bool) (host : Option Ckpt) (s : State) {t : State} (e : execRestore slot crcOk writeOk host s = .next t) : Kept s t := by
  have h := Kept.refl s
  unfold execRestore at e
  cases e
  repeat' (first | with_reducible assumption | with_reducible apply service_kept | with_reducible apply restore_kept)

theorem execAttest_kept (slot : Nat) (nonce : List Byte) (s : State) {t : State} (e : execAttest slot nonce s = .next t) : Kept s t := by
  have h := Kept.refl s
  unfold execAttest at e
  cases e
  repeat' (first | with_reducible assumption | with_reducible apply service_kept | with_reducible apply attest_kept)

theorem execLoadBegin_kept (s : State) {t : State} (e : execLoadBegin s = .next t) : Kept s t := by
  have h := Kept.refl s
  unfold execLoadBegin at e
  cases e
  repeat' (first | with_reducible assumption | with_reducible apply loadBegin_kept)

theorem execFrameReceive_kept (bytes : List Byte) (readOk : Bool) (s : State) {t : State} (e : execFrameReceive bytes readOk s = .next t) : Kept s t := by
  have h := Kept.refl s
  unfold execFrameReceive at e
  cases e
  repeat' (first | with_reducible assumption | with_reducible apply frameReceive_kept)

theorem execReloadBoundaryHold_kept (s : State) {t : State} (e : execReloadBoundaryHold s = .next t) : Kept s t := by
  have h := Kept.refl s
  unfold execReloadBoundaryHold at e
  cases e
  repeat' (first | with_reducible assumption | with_reducible apply reloadHoldBegin_kept)

theorem execBootTimeout_kept (s : State) {t : State} (e : execBootTimeout s = .next t) : Kept s t := by
  have h := Kept.refl s
  unfold execBootTimeout at e
  cases e
  repeat' (first | with_reducible assumption | with_reducible apply bootTimeout_kept)

theorem execBootOk_kept (s : State) {t : State} (e : execBootOk s = .next t) : Kept s t := by
  have h := Kept.refl s
  unfold execBootOk at e
  cases e
  repeat' (first | with_reducible assumption | with_reducible apply bootConfirm_kept)

theorem execTokenLoad_kept (slot : Nat) (s : State) {t : State} (e : execTokenLoad slot s = .next t) : Kept s t := by
  have h := Kept.refl s
  unfold execTokenLoad at e
  cases e
  repeat' (first | with_reducible assumption | with_reducible apply tokenLoad_kept)

theorem execTokenUnload_kept (slot : Nat) (s : State) {t : State} (e : execTokenUnload slot s = .next t) : Kept s t := by
  have h := Kept.refl s
  unfold execTokenUnload at e
  cases e
  repeat' (first | with_reducible assumption | with_reducible apply tokenUnload_kept)

theorem execFuseProgram_kept (req : Requester) (word : Nat) (readBackOk : Bool) (s : State) {t : State} (e : execFuseProgram req word readBackOk s = .next t) : Kept s t := by
  have h := Kept.refl s
  unfold execFuseProgram at e
  cases e
  repeat' (first | with_reducible assumption | with_reducible apply fuseProgram_kept)

theorem execOppWrite_kept (code : Nat) (s : State) {t : State} (e : execOppWrite code s = .next t) : Kept s t := by
  have h := Kept.refl s
  unfold execOppWrite at e
  cases e
  repeat' (first | with_reducible assumption | with_reducible apply oppWrite_kept)

theorem execOppSettle_kept (s : State) {t : State} (e : execOppSettle s = .next t) : Kept s t := by
  have h := Kept.refl s
  unfold execOppSettle at e
  cases e
  repeat' (first | with_reducible assumption | with_reducible apply oppSettle_kept)

theorem execSscWrite_kept (on : Bool) (s : State) {t : State} (e : execSscWrite on s = .next t) : Kept s t := by
  have h := Kept.refl s
  unfold execSscWrite at e
  cases e
  repeat' (first | with_reducible assumption | with_reducible apply sscWrite_kept)

theorem execThrminWrite_kept (level : BitVec 4) (s : State) {t : State} (e : execThrminWrite level s = .next t) : Kept s t := by
  have h := Kept.refl s
  unfold execThrminWrite at e
  cases e
  repeat' (first | with_reducible assumption | with_reducible apply thrminWrite_kept)

theorem execRootPllFail_kept (kind : Nat) (s : State) {t : State} (e : execRootPllFail kind s = .next t) : Kept s t := by
  have h := Kept.refl s
  unfold execRootPllFail at e
  cases e
  repeat' (first | with_reducible assumption | with_reducible apply rootPllFail_kept)

theorem execSwreq_kept (s : State) {t : State} (e : execSwreq s = .next t) : Kept s t := by
  have h := Kept.refl s
  unfold execSwreq at e
  cases e
  repeat' (first | with_reducible assumption | with_reducible apply swreq_kept)

theorem execSwitchoverComplete_kept (s : State) {t : State} (e : execSwitchoverComplete s = .next t) : Kept s t := by
  have h := Kept.refl s
  unfold execSwitchoverComplete at e
  cases e
  repeat' (first | with_reducible assumption | with_reducible apply switchDone_kept)

theorem execRootRetrain_kept (passed : Bool) (s : State) {t : State} (e : execRootRetrain passed s = .next t) : Kept s t := by
  have h := Kept.refl s
  unfold execRootRetrain at e
  cases e
  repeat' (first | with_reducible assumption | with_reducible apply rootRetrain_kept)

theorem execSensorSample_kept (temps : List (BitVec 16)) (s : State) {t : State} (e : execSensorSample temps s = .next t) : Kept s t := by
  have h := Kept.refl s
  unfold execSensorSample at e
  cases e
  repeat' (first | with_reducible assumption | with_reducible apply sensorSample_kept)

theorem execThrottleUpdate_kept (src : ThrottleSource) (powerW : Nat) (s : State) {t : State} (e : execThrottleUpdate src powerW s = .next t) : Kept s t := by
  have h := Kept.refl s
  unfold execThrottleUpdate at e
  cases e
  repeat' (first | with_reducible assumption | with_reducible apply throttleStep_kept)

theorem execDroopDetect_kept (monitor : Nat) (mv : Nat) (s : State) {t : State} (e : execDroopDetect monitor mv s = .next t) : Kept s t := by
  have h := Kept.refl s
  unfold execDroopDetect at e
  cases e
  repeat' (first | with_reducible assumption | with_reducible apply droopDetect_kept)

theorem execThermtrip_kept (sensor : Nat) (s : State) {t : State} (e : execThermtrip sensor s = .next t) : Kept s t := by
  have h := Kept.refl s
  unfold execThermtrip at e
  cases e
  repeat' (first | with_reducible assumption | with_reducible apply thermtrip_kept)

theorem execPltAvs_kept (kind : Nat) (measured : Nat) (s : State) {t : State} (e : execPltAvs kind measured s = .next t) : Kept s t := by
  have h := Kept.refl s
  unfold execPltAvs at e
  cases e
  repeat' (first | with_reducible assumption | with_reducible apply avsFail_kept)

theorem execAgingCheck_kept (counts : List Word) (s : State) {t : State} (e : execAgingCheck counts s = .next t) : Kept s t := by
  have h := Kept.refl s
  unfold execAgingCheck at e
  cases e
  repeat' (first | with_reducible assumption | with_reducible apply agingCheck_kept)

theorem execPpsLoad_kept (s : State) {t : State} (e : execPpsLoad s = .next t) : Kept s t := by
  have h := Kept.refl s
  unfold execPpsLoad at e
  cases e
  repeat' (first | with_reducible assumption | with_reducible apply State.fset_kept)

theorem execPpsEdge_kept (s : State) {t : State} (e : execPpsEdge s = .next t) : Kept s t := by
  have h := Kept.refl s
  unfold execPpsEdge at e
  cases e
  repeat' (first | with_reducible assumption | with_reducible apply ppsEdge_kept)

theorem execPpsMissing_kept (s : State) {t : State} (e : execPpsMissing s = .next t) : Kept s t := by
  have h := Kept.refl s
  unfold execPpsMissing at e
  cases e
  repeat' (first | with_reducible assumption | with_reducible apply ppsMissing_kept)

theorem execCalSchedule_kept (kind : CalKind) (s : State) {t : State} (e : execCalSchedule kind s = .next t) : Kept s t := by
  have h := Kept.refl s
  unfold execCalSchedule at e
  cases e
  repeat' (first | with_reducible assumption | with_reducible apply calSchedule_kept)

theorem execPgreqGate_kept (domain : Nat) (s : State) {t : State} (e : execPgreqGate domain s = .next t) : Kept s t := by
  have h := Kept.refl s
  unfold execPgreqGate at e
  cases e
  repeat' (first | with_reducible assumption | with_reducible apply gateRequest_kept)

theorem execPgreqPower_kept (domain : Nat) (s : State) {t : State} (e : execPgreqPower domain s = .next t) : Kept s t := by
  have h := Kept.refl s
  unfold execPgreqPower at e
  cases e
  repeat' (first | with_reducible assumption | with_reducible apply gateRequest_kept)

theorem execDomainReady_kept (domain : Nat) (s : State) {t : State} (e : execDomainReady domain s = .next t) : Kept s t := by
  have h := Kept.refl s
  unfold execDomainReady at e
  cases e
  repeat' (first | with_reducible assumption | with_reducible apply domainReady_kept)

theorem execPltRstKey_kept (req : Requester) (key : BitVec 16) (s : State) {t : State} (e : execPltRstKey req key s = .next t) : Kept s t := by
  have h := Kept.refl s
  unfold execPltRstKey at e
  cases e
  repeat' (first | with_reducible assumption | with_reducible apply rstKey_kept)

theorem execDeviceReset_kept (cause : ResetCause) (s : State) {t : State} (e : execDeviceReset cause s = .next t) : Kept s t := by
  have h := Kept.refl s
  unfold execDeviceReset at e
  cases e
  repeat' (first | with_reducible assumption | with_reducible apply deviceReset_kept)

theorem execRootLock_kept (s : State) {t : State} (e : execRootLock s = .next t) : Kept s t := by
  have h := Kept.refl s
  unfold execRootLock at e
  cases e
  repeat' (first | with_reducible assumption | with_reducible apply rootLock_kept)

theorem execHbmTrainComplete_kept (stack : Nat) (s : State) {t : State} (e : execHbmTrainComplete stack s = .next t) : Kept s t := by
  have h := Kept.refl s
  unfold execHbmTrainComplete at e
  cases e
  repeat' (first | with_reducible assumption | with_reducible apply hbmReady_kept)

theorem execSmbTmax_kept (s : State) {t : State} (e : execSmbTmax s = .next t) : Kept s t := by
  have h := Kept.refl s
  unfold execSmbTmax at e
  cases e
  repeat' (first | with_reducible assumption | with_reducible apply State.emit_kept)

theorem execSmbThrottle_kept (s : State) {t : State} (e : execSmbThrottle s = .next t) : Kept s t := by
  have h := Kept.refl s
  unfold execSmbThrottle at e
  cases e
  repeat' (first | with_reducible assumption | with_reducible apply State.emit_kept)

theorem execSmbRstcause_kept (s : State) {t : State} (e : execSmbRstcause s = .next t) : Kept s t := by
  have h := Kept.refl s
  unfold execSmbRstcause at e
  cases e
  repeat' (first | with_reducible assumption | with_reducible apply Kept.ite | with_reducible apply State.emit_kept)

theorem execSmbAlertStatus_kept (s : State) {t : State} (e : execSmbAlertStatus s = .next t) : Kept s t := by
  have h := Kept.refl s
  unfold execSmbAlertStatus at e
  cases e
  repeat' (first | with_reducible assumption | with_reducible apply State.emit_kept)

theorem execSmbVddStepMv_kept (s : State) {t : State} (e : execSmbVddStepMv s = .next t) : Kept s t := by
  have h := Kept.refl s
  unfold execSmbVddStepMv at e
  cases e
  repeat' (first | with_reducible assumption | with_reducible apply State.emit_kept)

theorem execSmbVddStepPower_kept (s : State) {t : State} (e : execSmbVddStepPower s = .next t) : Kept s t := by
  have h := Kept.refl s
  unfold execSmbVddStepPower at e
  cases e
  repeat' (first | with_reducible assumption | with_reducible apply State.emit_kept)

theorem execSparingDecision_kept (tr : SparingTrigger) (s : State) {t : State} (e : execSparingDecision tr s = .next t) : Kept s t := by
  have h := Kept.refl s
  unfold execSparingDecision at e
  cases e
  repeat' (first | with_reducible assumption | with_reducible apply sparingDecision_kept)

theorem execLifeRecord_kept (hours : DWord) (avg : DWord) (s : State) {t : State} (e : execLifeRecord hours avg s = .next t) : Kept s t := by
  have h := Kept.refl s
  unfold execLifeRecord at e
  cases e
  repeat' (first | with_reducible assumption | with_reducible apply lifeRecord_kept)

theorem execMbxItemRead_kept (req : Requester) (page : Nat) (item : Nat) (tag : Byte) (s : State) {t : State} (e : execMbxItemRead req page item tag s = .next t) : Kept s t := by
  have h := Kept.refl s
  unfold execMbxItemRead at e
  exact orFault_kept (fun u hu => regWriteCmd_kept _ _ _ _ h hu) e

theorem execMbxItemWrite_kept (req : Requester) (page : Nat) (item : Nat) (tag : Byte) (s : State) {t : State} (e : execMbxItemWrite req page item tag s = .next t) : Kept s t := by
  have h := Kept.refl s
  unfold execMbxItemWrite at e
  exact orFault_kept (fun u hu => regWriteCmd_kept _ _ _ _ h hu) e

theorem execBitAliasWrite_kept (req : Requester) (addr : Nat) (w : Word) (s : State) {t : State} (e : execBitAliasWrite req addr w s = .next t) : Kept s t := by
  have h := Kept.refl s
  unfold execBitAliasWrite at e
  split at e
  · exact orFault_kept (fun u hu => regWriteCmd_kept _ _ _ _ h hu) e
  · cases e; exact h

theorem execRegisterWrite_kept (req : Requester) (addr : Nat) (size : Nat) (w : DWord) (s : State) {t : State} (e : execRegisterWrite req addr size w s = .next t) : Kept s t := by
  have h := Kept.refl s
  unfold execRegisterWrite at e
  exact orFault_kept (fun u hu => regWriteCmd_kept _ _ _ _ h hu) e

theorem execRegisterRead_kept (req : Requester) (addr : Nat) (size : Nat) (s : State) {t : State} (e : execRegisterRead req addr size s = .next t) : Kept s t := by
  have h := Kept.refl s
  unfold execRegisterRead at e
  cases e
  repeat' (first | with_reducible assumption | with_reducible apply regReadCmd_kept)

theorem execHifLink_kept (speed : Nat) (width : Nat) (flit : Bool) (dlup : Bool) (s : State) {t : State} (e : execHifLink speed width flit dlup s = .next t) : Kept s t := by
  have h := Kept.refl s
  unfold execHifLink at e
  cases e
  repeat' (first | with_reducible assumption | with_reducible apply hifLink_kept)

theorem execBusMasterEnable_kept (on : Bool) (s : State) {t : State} (e : execBusMasterEnable on s = .next t) : Kept s t := by
  have h := Kept.refl s
  unfold execBusMasterEnable at e
  cases e
  repeat' (first | with_reducible assumption | with_reducible apply busMaster_kept)

theorem execStandbyRootFail_kept (kind : Nat) (s : State) {t : State} (e : execStandbyRootFail kind s = .next t) : Kept s t := by
  have h := Kept.refl s
  unfold execStandbyRootFail at e
  cases e
  repeat' (first | with_reducible assumption | with_reducible apply standbyFail_kept)

theorem execDroopRelease_kept (s : State) {t : State} (e : execDroopRelease s = .next t) : Kept s t := by
  have h := Kept.refl s
  unfold execDroopRelease at e
  cases e
  repeat' (first | with_reducible assumption | with_reducible apply droopRelease_kept)

theorem execAvsDeviationClear_kept (s : State) {t : State} (e : execAvsDeviationClear s = .next t) : Kept s t := by
  have h := Kept.refl s
  unfold execAvsDeviationClear at e
  cases e
  repeat' (first | with_reducible assumption | with_reducible apply avsClear_kept)

theorem execPorstNRelease_kept (s : State) {t : State} (e : execPorstNRelease s = .next t) : Kept s t := by
  have h := Kept.refl s
  unfold execPorstNRelease at e
  cases e
  repeat' (first | with_reducible assumption | with_reducible apply porstRelease_kept)

theorem execMgtSramScrub_kept (addr : Nat) (ue : Bool) (s : State) {t : State} (e : execMgtSramScrub addr ue s = .next t) : Kept s t := by
  have h := Kept.refl s
  unfold execMgtSramScrub at e
  cases e
  repeat' (first | with_reducible assumption | with_reducible apply sramScrub_kept)

/-- What every command keeps. -/
theorem exec_kept (i : Instr) {s t : State} (e : exec i s = .next t) : Kept s t := by
  cases i with
  | stepExecute a0 => exact execStepExecute_kept a0 _ e
  | ellipsisEnd a0 => exact execEllipsisEnd_kept a0 _ e
  | seqLongEllipsis => exact execSeqLongEllipsis_kept  _ e
  | run => exact execRun_kept  _ e
  | step1 => exact execStep1_kept  _ e
  | ucyc1 => exact execUcyc1_kept  _ e
  | stop => exact execStop_kept  _ e
  | stopatEnable => exact execStopatEnable_kept  _ e
  | checkpointComplete a0 a1 => exact execCheckpointComplete_kept a0 a1 _ e
  | seqTmr a0 => exact execSeqTmr_kept a0 _ e
  | dictSweepRead a0 a1 a2 a3 => exact execDictSweepRead_kept a0 a1 a2 a3 _ e
  | dictUeRewrite a0 a1 => exact execDictUeRewrite_kept a0 a1 _ e
  | clsSpareGo a0 a1 => exact execClsSpareGo_kept a0 a1 _ e
  | migrationComplete a0 a1 a2 => exact execMigrationComplete_kept a0 a1 a2 _ e
  | spareMarchPass a0 a1 => exact execSpareMarchPass_kept a0 a1 _ e
  | lexAccessServe a0 a1 => exact execLexAccessServe_kept a0 a1 _ e
  | lexNocServe a0 a1 => exact execLexNocServe_kept a0 a1 _ e
  | memNocStarve a0 => exact execMemNocStarve_kept a0 _ e
  | memReturnArrive a0 => exact execMemReturnArrive_kept a0 _ e
  | hbmReturn a0 a1 => exact execHbmReturn_kept a0 a1 _ e
  | hbmRefresh a0 a1 => exact execHbmRefresh_kept a0 a1 _ e
  | hbmTempRead a0 a1 => exact execHbmTempRead_kept a0 a1 _ e
  | memCalGo a0 => exact execMemCalGo_kept a0 _ e
  | calSliceEnd a0 a1 a2 a3 => exact execCalSliceEnd_kept a0 a1 a2 a3 _ e
  | memLretGo a0 a1 => exact execMemLretGo_kept a0 a1 _ e
  | lretComplete a0 => exact execLretComplete_kept a0 _ e
  | memHretGo a0 => exact execMemHretGo_kept a0 _ e
  | hretComplete a0 => exact execHretComplete_kept a0 _ e
  | fabIsoRequest a0 a1 => exact execFabIsoRequest_kept a0 a1 _ e
  | fabRelRequest a0 => exact execFabRelRequest_kept a0 _ e
  | isoBoundaryApply => exact execIsoBoundaryApply_kept  _ e
  | fabAgreeCommit a0 => exact execFabAgreeCommit_kept a0 _ e
  | readRepairWriteback a0 a1 a2 => exact execReadRepairWriteback_kept a0 a1 a2 _ e
  | scrubRowRead a0 a1 => exact execScrubRowRead_kept a0 a1 _ e
  | paramCheck a0 a1 => exact execParamCheck_kept a0 a1 _ e
  | schParam => exact execSchParam_kept  _ e
  | schRmapGo a0 a1 => exact execSchRmapGo_kept a0 a1 _ e
  | rmapComplete a0 => exact execRmapComplete_kept a0 _ e
  | schPatchApply => exact execSchPatchApply_kept  _ e
  | patchBoundaryHold => exact execPatchBoundaryHold_kept  _ e
  | patchHoldEnd => exact execPatchHoldEnd_kept  _ e
  | idleSuperframeSend a0 => exact execIdleSuperframeSend_kept a0 _ e
  | superframeReceive a0 a1 a2 a3 => exact execSuperframeReceive_kept a0 a1 a2 a3 _ e
  | retryTimeout a0 => exact execRetryTimeout_kept a0 _ e
  | resumeWordReceive a0 a1 => exact execResumeWordReceive_kept a0 a1 _ e
  | fenceWordReceive a0 a1 a2 => exact execFenceWordReceive_kept a0 a1 a2 _ e
  | peerItemReceive a0 a1 a2 => exact execPeerItemReceive_kept a0 a1 a2 _ e
  | laneWordReceive a0 a1 a2 => exact execLaneWordReceive_kept a0 a1 a2 _ e
  | msgWordReceive a0 a1 => exact execMsgWordReceive_kept a0 a1 _ e
  | peerRepeat a0 => exact execPeerRepeat_kept a0 _ e
  | lnkEnable a0 => exact execLnkEnable_kept a0 _ e
  | lnkDisable a0 => exact execLnkDisable_kept a0 _ e
  | trainComplete a0 a1 => exact execTrainComplete_kept a0 a1 _ e
  | trainTimeout a0 => exact execTrainTimeout_kept a0 _ e
  | framingLock a0 a1 a2 => exact execFramingLock_kept a0 a1 a2 _ e
  | partnerModeDetect a0 => exact execPartnerModeDetect_kept a0 _ e
  | modeRetry a0 => exact execModeRetry_kept a0 _ e
  | modeWindowClose a0 => exact execModeWindowClose_kept a0 _ e
  | identComplete a0 a1 a2 => exact execIdentComplete_kept a0 a1 a2 _ e
  | framingLost a0 => exact execFramingLost_kept a0 _ e
  | resumeComplete a0 a1 => exact execResumeComplete_kept a0 a1 _ e
  | resumeTimeout a0 => exact execResumeTimeout_kept a0 _ e
  | partnerOffReport a0 => exact execPartnerOffReport_kept a0 _ e
  | lnkSpareGo a0 a1 => exact execLnkSpareGo_kept a0 a1 _ e
  | laneLoss a0 a1 => exact execLaneLoss_kept a0 a1 _ e
  | laneSpareComplete a0 a1 => exact execLaneSpareComplete_kept a0 a1 _ e
  | spareLaneTrained a0 => exact execSpareLaneTrained_kept a0 _ e
  | spareRetrainTimer a0 => exact execSpareRetrainTimer_kept a0 _ e
  | eyeScan a0 a1 a2 a3 => exact execEyeScan_kept a0 a1 a2 a3 _ e
  | lnkDevnumStart => exact execLnkDevnumStart_kept  _ e
  | lnkTopo a0 a1 a2 a3 a4 => exact execLnkTopo_kept a0 a1 a2 a3 a4 _ e
  | devnumWrite a0 => exact execDevnumWrite_kept a0 _ e
  | rimPllUnlock a0 => exact execRimPllUnlock_kept a0 _ e
  | rimPllRelock a0 => exact execRimPllRelock_kept a0 _ e
  | rimOnehot a0 a1 => exact execRimOnehot_kept a0 a1 _ e
  | rimOutboundRead a0 => exact execRimOutboundRead_kept a0 _ e
  | rimInboundWrite a0 a1 => exact execRimInboundWrite_kept a0 a1 _ e
  | rimPrcFence a0 => exact execRimPrcFence_kept a0 _ e
  | rimPrcRel a0 => exact execRimPrcRel_kept a0 _ e
  | rimFrameScrub a0 => exact execRimFrameScrub_kept a0 _ e
  | rimParam => exact execRimParam_kept  _ e
  | rimPortRequest a0 a1 a2 a3 a4 a5 => exact execRimPortRequest_kept a0 a1 a2 a3 a4 a5 _ e
  | vccioGood a0 a1 a2 => exact execVccioGood_kept a0 a1 a2 _ e
  | vccioLost a0 a1 => exact execVccioLost_kept a0 a1 _ e
  | rimRel a0 => exact execRimRel_kept a0 _ e
  | rimDis a0 => exact execRimDis_kept a0 _ e
  | bankCheckComplete a0 a1 a2 => exact execBankCheckComplete_kept a0 a1 a2 _ e
  | keySample a0 a1 => exact execKeySample_kept a0 a1 _ e
  | rimIoShort a0 a1 a2 => exact execRimIoShort_kept a0 a1 a2 _ e
  | sigStart => exact execSigStart_kept  _ e
  | sigStop => exact execSigStop_kept  _ e
  | sigPostEnd => exact execSigPostEnd_kept  _ e
  | captureDrain => exact execCaptureDrain_kept  _ e
  | capOverflow a0 => exact execCapOverflow_kept a0 _ e
  | mtStart => exact execMtStart_kept  _ e
  | mtStop => exact execMtStop_kept  _ e
  | tuEnable a0 a1 => exact execTuEnable_kept a0 a1 _ e
  | tuDisable a0 => exact execTuDisable_kept a0 _ e
  | tuRegWrite a0 a1 a2 => exact execTuRegWrite_kept a0 a1 a2 _ e
  | pinCrossing a0 a1 a2 a3 a4 a5 => exact execPinCrossing_kept a0 a1 a2 a3 a4 a5 _ e
  | triggerFire a0 a1 => exact execTriggerFire_kept a0 a1 _ e
  | holdoffEnd a0 => exact execHoldoffEnd_kept a0 _ e
  | dbgAuthPassword a0 a1 => exact execDbgAuthPassword_kept a0 a1 _ e
  | dbgAuthKeyx a0 a1 => exact execDbgAuthKeyx_kept a0 a1 _ e
  | keyxTimeout => exact execKeyxTimeout_kept  _ e
  | dbgAuthDrop a0 => exact execDbgAuthDrop_kept a0 _ e
  | dbgAccessRead => exact execDbgAccessRead_kept  _ e
  | dbgAccessWrite => exact execDbgAccessWrite_kept  _ e
  | read a0 a1 a2 a3 a4 => exact execRead_kept a0 a1 a2 a3 a4 _ e
  | deposit a0 a1 a2 a3 a4 a5 => exact execDeposit_kept a0 a1 a2 a3 a4 a5 _ e
  | force a0 a1 a2 a3 a4 a5 => exact execForce_kept a0 a1 a2 a3 a4 a5 _ e
  | release a0 a1 a2 a3 a4 => exact execRelease_kept a0 a1 a2 a3 a4 _ e
  | cqread a0 a1 a2 a3 => exact execCqread_kept a0 a1 a2 a3 _ e
  | relall a0 => exact execRelall_kept a0 _ e
  | arrDeferredStart => exact execArrDeferredStart_kept  _ e
  | dbgHalt a0 => exact execDbgHalt_kept a0 _ e
  | dbgResume a0 => exact execDbgResume_kept a0 _ e
  | dbgStep a0 a1 => exact execDbgStep_kept a0 a1 _ e
  | pairHalt a0 a1 => exact execPairHalt_kept a0 a1 _ e
  | pairHaltComplete a0 a1 a2 a3 => exact execPairHaltComplete_kept a0 a1 a2 a3 _ e
  | pairResume a0 a1 => exact execPairResume_kept a0 a1 _ e
  | pairStep a0 a1 a2 => exact execPairStep_kept a0 a1 a2 _ e
  | xtrigIn a0 => exact execXtrigIn_kept a0 _ e
  | testLogicReset => exact execTestLogicReset_kept  _ e
  | extest => exact execExtest_kept  _ e
  | samplePreload => exact execSamplePreload_kept  _ e
  | idcode => exact execIdcode_kept  _ e
  | dbgacc a0 a1 a2 => exact execDbgacc_kept a0 a1 a2 _ e
  | bypass a0 => exact execBypass_kept a0 _ e
  | nocPacketForward a0 a1 a2 => exact execNocPacketForward_kept a0 a1 a2 _ e
  | ageIncrement a0 => exact execAgeIncrement_kept a0 _ e
  | nocPacketReceive a0 a1 => exact execNocPacketReceive_kept a0 a1 _ e
  | nocTimeout a0 => exact execNocTimeout_kept a0 _ e
  | nocRtFlip => exact execNocRtFlip_kept  _ e
  | oldEpochDrained => exact execOldEpochDrained_kept  _ e
  | nocAgreeCommit a0 => exact execNocAgreeCommit_kept a0 _ e
  | dlmodeSwitch a0 => exact execDlmodeSwitch_kept a0 _ e
  | bar2Read a0 a1 => exact execBar2Read_kept a0 a1 _ e
  | bar2Write a0 a1 => exact execBar2Write_kept a0 a1 _ e
  | eventDoorbell a0 a1 => exact execEventDoorbell_kept a0 a1 _ e
  | dmaDoorbell a0 a1 => exact execDmaDoorbell_kept a0 a1 _ e
  | pcieReset a0 => exact execPcieReset_kept a0 _ e
  | dmaEnable a0 a1 => exact execDmaEnable_kept a0 a1 _ e
  | dmaDisable a0 a1 => exact execDmaDisable_kept a0 a1 _ e
  | dmaDescComplete a0 a1 a2 => exact execDmaDescComplete_kept a0 a1 a2 _ e
  | hifDmaErr a0 a1 a2 => exact execHifDmaErr_kept a0 a1 a2 _ e
  | eventAccept a0 => exact execEventAccept_kept a0 _ e
  | eventRingWrite => exact execEventRingWrite_kept  _ e
  | msixCoalesceExpire a0 => exact execMsixCoalesceExpire_kept a0 _ e
  | ringFullResignal => exact execRingFullResignal_kept  _ e
  | eventRingEnable a0 a1 => exact execEventRingEnable_kept a0 a1 _ e
  | mgtLockstep a0 a1 => exact execMgtLockstep_kept a0 a1 _ e
  | pairRestartComplete a0 => exact execPairRestartComplete_kept a0 _ e
  | mgtWdtEnable a0 a1 => exact execMgtWdtEnable_kept a0 a1 _ e
  | wdtKick a0 a1 => exact execWdtKick_kept a0 a1 _ e
  | mgtWdt a0 => exact execMgtWdt_kept a0 _ e
  | program a0 => exact execProgram_kept a0 _ e
  | erase4k a0 => exact execErase4k_kept a0 _ e
  | erase64k a0 => exact execErase64k_kept a0 _ e
  | flashCmdComplete a0 => exact execFlashCmdComplete_kept a0 _ e
  | mgtFpApply => exact execMgtFpApply_kept  _ e
  | codebaseWrite a0 a1 => exact execCodebaseWrite_kept a0 a1 _ e
  | swapOk => exact execSwapOk_kept  _ e
  | swapTimeout => exact execSwapTimeout_kept  _ e
  | load a0 a1 => exact execLoad_kept a0 a1 _ e
  | fwUpdate a0 a1 => exact execFwUpdate_kept a0 a1 _ e
  | fwSwap a0 => exact execFwSwap_kept a0 _ e
  | fwHotfix a0 a1 => exact execFwHotfix_kept a0 a1 _ e
  | patchSet a0 => exact execPatchSet_kept a0 _ e
  | logRead a0 => exact execLogRead_kept a0 _ e
  | info a0 => exact execInfo_kept a0 _ e
  | restore a0 a1 a2 a3 => exact execRestore_kept a0 a1 a2 a3 _ e
  | attest a0 a1 => exact execAttest_kept a0 a1 _ e
  | loadBegin => exact execLoadBegin_kept  _ e
  | frameReceive a0 a1 => exact execFrameReceive_kept a0 a1 _ e
  | reloadBoundaryHold => exact execReloadBoundaryHold_kept  _ e
  | bootTimeout => exact execBootTimeout_kept  _ e
  | bootOk => exact execBootOk_kept  _ e
  | tokenLoad a0 => exact execTokenLoad_kept a0 _ e
  | tokenUnload a0 => exact execTokenUnload_kept a0 _ e
  | fuseProgram a0 a1 a2 => exact execFuseProgram_kept a0 a1 a2 _ e
  | oppWrite a0 => exact execOppWrite_kept a0 _ e
  | oppSettle => exact execOppSettle_kept  _ e
  | sscWrite a0 => exact execSscWrite_kept a0 _ e
  | thrminWrite a0 => exact execThrminWrite_kept a0 _ e
  | rootPllFail a0 => exact execRootPllFail_kept a0 _ e
  | swreq => exact execSwreq_kept  _ e
  | switchoverComplete => exact execSwitchoverComplete_kept  _ e
  | rootRetrain a0 => exact execRootRetrain_kept a0 _ e
  | sensorSample a0 => exact execSensorSample_kept a0 _ e
  | throttleUpdate a0 a1 => exact execThrottleUpdate_kept a0 a1 _ e
  | droopDetect a0 a1 => exact execDroopDetect_kept a0 a1 _ e
  | thermtrip a0 => exact execThermtrip_kept a0 _ e
  | pltAvs a0 a1 => exact execPltAvs_kept a0 a1 _ e
  | agingCheck a0 => exact execAgingCheck_kept a0 _ e
  | ppsLoad => exact execPpsLoad_kept  _ e
  | ppsEdge => exact execPpsEdge_kept  _ e
  | ppsMissing => exact execPpsMissing_kept  _ e
  | calSchedule a0 => exact execCalSchedule_kept a0 _ e
  | pgreqGate a0 => exact execPgreqGate_kept a0 _ e
  | pgreqPower a0 => exact execPgreqPower_kept a0 _ e
  | domainReady a0 => exact execDomainReady_kept a0 _ e
  | pltRstKey a0 a1 => exact execPltRstKey_kept a0 a1 _ e
  | deviceReset a0 => exact execDeviceReset_kept a0 _ e
  | rootLock => exact execRootLock_kept  _ e
  | hbmTrainComplete a0 => exact execHbmTrainComplete_kept a0 _ e
  | smbTmax => exact execSmbTmax_kept  _ e
  | smbThrottle => exact execSmbThrottle_kept  _ e
  | smbRstcause => exact execSmbRstcause_kept  _ e
  | smbAlertStatus => exact execSmbAlertStatus_kept  _ e
  | smbVddStepMv => exact execSmbVddStepMv_kept  _ e
  | smbVddStepPower => exact execSmbVddStepPower_kept  _ e
  | sparingDecision a0 => exact execSparingDecision_kept a0 _ e
  | lifeRecord a0 a1 => exact execLifeRecord_kept a0 a1 _ e
  | mbxItemRead a0 a1 a2 a3 => exact execMbxItemRead_kept a0 a1 a2 a3 _ e
  | mbxItemWrite a0 a1 a2 a3 => exact execMbxItemWrite_kept a0 a1 a2 a3 _ e
  | bitAliasWrite a0 a1 a2 => exact execBitAliasWrite_kept a0 a1 a2 _ e
  | registerWrite a0 a1 a2 a3 => exact execRegisterWrite_kept a0 a1 a2 a3 _ e
  | registerRead a0 a1 a2 => exact execRegisterRead_kept a0 a1 a2 _ e
  | hifLink a0 a1 a2 a3 => exact execHifLink_kept a0 a1 a2 a3 _ e
  | busMasterEnable a0 => exact execBusMasterEnable_kept a0 _ e
  | standbyRootFail a0 => exact execStandbyRootFail_kept a0 _ e
  | droopRelease => exact execDroopRelease_kept  _ e
  | avsDeviationClear => exact execAvsDeviationClear_kept  _ e
  | porstNRelease => exact execPorstNRelease_kept  _ e
  | mgtSramScrub a0 a1 => exact execMgtSramScrub_kept a0 a1 _ e

end Sys2Proof.Machine
end

