-- ==== Sys2Proof/Laws/PerInstr.lean ====
section
/-! SUPPORT. PerInstr.lean: for each command, well-formed says that each of its operands lies below its bound. -/
namespace Sys2Proof.Laws.WF

/-- A command is well-formed just when every operand lies below the bound that the manual gives it. -/
def Statement (i : Instr) : Prop := i.wf = true ↔ ∀ b ∈ i.bounds, b.1 < b.2

theorem of_bounds (i : Instr) : Statement i := by
  unfold Statement Instr.wf
  rw [List.all_eq_true]
  exact ⟨fun h b hb => of_decide_eq_true (h b hb), fun h b hb => decide_eq_true (h b hb)⟩

theorem stepExecute (ups : List Upset) :
    Statement (.stepExecute ups) := of_bounds _
theorem ellipsisEnd (ups : List Upset) :
    Statement (.ellipsisEnd ups) := of_bounds _
theorem seqLongEllipsis : Statement .seqLongEllipsis := of_bounds _
theorem run : Statement .run := of_bounds _
theorem step1 : Statement .step1 := of_bounds _
theorem ucyc1 : Statement .ucyc1 := of_bounds _
theorem stop : Statement .stop := of_bounds _
theorem stopatEnable : Statement .stopatEnable := of_bounds _
theorem checkpointComplete (ok : Bool) (failAddr : DWord) :
    Statement (.checkpointComplete ok failAddr) := of_bounds _
theorem seqTmr (mask : Word) :
    Statement (.seqTmr mask) := of_bounds _
theorem dictSweepRead (c phrase e : Nat) (ups : List Upset) :
    Statement (.dictSweepRead c phrase e ups) := of_bounds _
theorem dictUeRewrite (c e : Nat) :
    Statement (.dictUeRewrite c e) := of_bounds _
theorem clsSpareGo (c target : Nat) :
    Statement (.clsSpareGo c target) := of_bounds _
theorem migrationComplete (c mismatches cycles : Nat) :
    Statement (.migrationComplete c mismatches cycles) := of_bounds _
theorem spareMarchPass (c : Nat) (passed : Bool) :
    Statement (.spareMarchPass c passed) := of_bounds _
theorem lexAccessServe (bank : Nat) (ups : List Upset) :
    Statement (.lexAccessServe bank ups) := of_bounds _
theorem lexNocServe (bank : Nat) (ups : List Upset) :
    Statement (.lexNocServe bank ups) := of_bounds _
theorem memNocStarve (k : Nat) :
    Statement (.memNocStarve k) := of_bounds _
theorem memReturnArrive (m : Nat) :
    Statement (.memReturnArrive m) := of_bounds _
theorem hbmReturn (m : Nat) (ups : List Upset) :
    Statement (.hbmReturn m ups) := of_bounds _
theorem hbmRefresh (stack : Nat) (allBank : Bool) :
    Statement (.hbmRefresh stack allBank) := of_bounds _
theorem hbmTempRead (stack : Nat) (temp : Byte) :
    Statement (.hbmTempRead stack temp) := of_bounds _
theorem memCalGo (mask : BitVec 4) :
    Statement (.memCalGo mask) := of_bounds _
theorem calSliceEnd (stack : Nat) (ok : Bool) (lanes ns : Nat) :
    Statement (.calSliceEnd stack ok lanes ns) := of_bounds _
theorem memLretGo (bank word : Nat) :
    Statement (.memLretGo bank word) := of_bounds _
theorem lretComplete (mismatches : Nat) :
    Statement (.lretComplete mismatches) := of_bounds _
theorem memHretGo (stack : Nat) :
    Statement (.memHretGo stack) := of_bounds _
theorem hretComplete (mismatches : Nat) :
    Statement (.hretComplete mismatches) := of_bounds _
theorem fabIsoRequest (c : Nat) (xinj : Bool) :
    Statement (.fabIsoRequest c xinj) := of_bounds _
theorem fabRelRequest (c : Nat) :
    Statement (.fabRelRequest c) := of_bounds _
theorem isoBoundaryApply : Statement .isoBoundaryApply := of_bounds _
theorem fabAgreeCommit (tag : Byte) :
    Statement (.fabAgreeCommit tag) := of_bounds _
theorem readRepairWriteback (c row word : Nat) :
    Statement (.readRepairWriteback c row word) := of_bounds _
theorem scrubRowRead (c : Nat) (ups : List Upset) :
    Statement (.scrubRowRead c ups) := of_bounds _
theorem paramCheck (rim : Bool) (struck : Option (Nat × Nat)) :
    Statement (.paramCheck rim struck) := of_bounds _
theorem schParam : Statement .schParam := of_bounds _
theorem schRmapGo (c row : Nat) :
    Statement (.schRmapGo c row) := of_bounds _
theorem rmapComplete (mismatches : Nat) :
    Statement (.rmapComplete mismatches) := of_bounds _
theorem schPatchApply : Statement .schPatchApply := of_bounds _
theorem patchBoundaryHold : Statement .patchBoundaryHold := of_bounds _
theorem patchHoldEnd : Statement .patchHoldEnd := of_bounds _
theorem idleSuperframeSend (l : Nat) :
    Statement (.idleSuperframeSend l) := of_bounds _
theorem superframeReceive (l : Nat) (sf : Superframe) (fecFix : Nat) (fecUe : Option Nat) :
    Statement (.superframeReceive l sf fecFix fecUe) := of_bounds _
theorem retryTimeout (l : Nat) :
    Statement (.retryTimeout l) := of_bounds _
theorem resumeWordReceive (l : Nat) (tag : BitVec 16) :
    Statement (.resumeWordReceive l tag) := of_bounds _
theorem fenceWordReceive (l : Nat) (dev : BitVec 18) (fence : DWord) :
    Statement (.fenceWordReceive l dev fence) := of_bounds _
theorem peerItemReceive (l item : Nat) (val : Word) :
    Statement (.peerItemReceive l item val) := of_bounds _
theorem laneWordReceive (l op lane : Nat) :
    Statement (.laneWordReceive l op lane) := of_bounds _
theorem msgWordReceive (l : Nat) (msg : BitVec 60) :
    Statement (.msgWordReceive l msg) := of_bounds _
theorem peerRepeat (l : Nat) :
    Statement (.peerRepeat l) := of_bounds _
theorem lnkEnable (l : Nat) :
    Statement (.lnkEnable l) := of_bounds _
theorem lnkDisable (l : Nat) :
    Statement (.lnkDisable l) := of_bounds _
theorem trainComplete (l : Nat) (lanes : BitVec 3) :
    Statement (.trainComplete l lanes) := of_bounds _
theorem trainTimeout (l : Nat) :
    Statement (.trainTimeout l) := of_bounds _
theorem framingLock (l trip decode : Nat) :
    Statement (.framingLock l trip decode) := of_bounds _
theorem partnerModeDetect (l : Nat) :
    Statement (.partnerModeDetect l) := of_bounds _
theorem modeRetry (l : Nat) :
    Statement (.modeRetry l) := of_bounds _
theorem modeWindowClose (l : Nat) :
    Statement (.modeWindowClose l) := of_bounds _
theorem identComplete (l : Nat) (serial : DWord) (plink : Nat) :
    Statement (.identComplete l serial plink) := of_bounds _
theorem framingLost (l : Nat) :
    Statement (.framingLost l) := of_bounds _
theorem resumeComplete (l : Nat) (tag : BitVec 16) :
    Statement (.resumeComplete l tag) := of_bounds _
theorem resumeTimeout (l : Nat) :
    Statement (.resumeTimeout l) := of_bounds _
theorem partnerOffReport (l : Nat) :
    Statement (.partnerOffReport l) := of_bounds _
theorem lnkSpareGo (l lane : Nat) :
    Statement (.lnkSpareGo l lane) := of_bounds _
theorem laneLoss (l lane : Nat) :
    Statement (.laneLoss l lane) := of_bounds _
theorem laneSpareComplete (l : Nat) (accepted : Bool) :
    Statement (.laneSpareComplete l accepted) := of_bounds _
theorem spareLaneTrained (l : Nat) :
    Statement (.spareLaneTrained l) := of_bounds _
theorem spareRetrainTimer (l : Nat) :
    Statement (.spareRetrainTimer l) := of_bounds _
theorem eyeScan (l lane height width : Nat) :
    Statement (.eyeScan l lane height width) := of_bounds _
theorem lnkDevnumStart : Statement .lnkDevnumStart := of_bounds _
theorem lnkTopo (self base : Nat) (renumber : Bool) (nums : List Nat) (links : List TopoLink) :
    Statement (.lnkTopo self base renumber nums links) := of_bounds _
theorem devnumWrite (w : Word) :
    Statement (.devnumWrite w) := of_bounds _
theorem rimPllUnlock (p : Nat) :
    Statement (.rimPllUnlock p) := of_bounds _
theorem rimPllRelock (p : Nat) :
    Statement (.rimPllRelock p) := of_bounds _
theorem rimOnehot (rfa mux : Nat) :
    Statement (.rimOnehot rfa mux) := of_bounds _
theorem rimOutboundRead (g : Nat) :
    Statement (.rimOutboundRead g) := of_bounds _
theorem rimInboundWrite (g : Nat) (entry : DWord) :
    Statement (.rimInboundWrite g entry) := of_bounds _
theorem rimPrcFence (region : Nat) :
    Statement (.rimPrcFence region) := of_bounds _
theorem rimPrcRel (region : Nat) :
    Statement (.rimPrcRel region) := of_bounds _
theorem rimFrameScrub (ups : List Upset) :
    Statement (.rimFrameScrub ups) := of_bounds _
theorem rimParam : Statement .rimParam := of_bounds _
theorem rimPortRequest (port : Nat) (write : Bool) (addr size tag : Nat) (data : List Byte) :
    Statement (.rimPortRequest port write addr size tag data) := of_bounds _
theorem vccioGood (b mv strap : Nat) :
    Statement (.vccioGood b mv strap) := of_bounds _
theorem vccioLost (b mv : Nat) :
    Statement (.vccioLost b mv) := of_bounds _
theorem rimRel (b : Nat) :
    Statement (.rimRel b) := of_bounds _
theorem rimDis (b : Nat) :
    Statement (.rimDis b) := of_bounds _
theorem bankCheckComplete (b : Nat) (key : BitVec 2) (openMask : BitVec 48) :
    Statement (.bankCheckComplete b key openMask) := of_bounds _
theorem keySample (b : Nat) (key : BitVec 2) :
    Statement (.keySample b key) := of_bounds _
theorem rimIoShort (b pin : Nat) (level : Bool) :
    Statement (.rimIoShort b pin level) := of_bounds _
theorem sigStart : Statement .sigStart := of_bounds _
theorem sigStop : Statement .sigStop := of_bounds _
theorem sigPostEnd : Statement .sigPostEnd := of_bounds _
theorem captureDrain : Statement .captureDrain := of_bounds _
theorem capOverflow (mt : Bool) :
    Statement (.capOverflow mt) := of_bounds _
theorem mtStart : Statement .mtStart := of_bounds _
theorem mtStop : Statement .mtStop := of_bounds _
theorem tuEnable (u : Nat) (w : Word) :
    Statement (.tuEnable u w) := of_bounds _
theorem tuDisable (u : Nat) :
    Statement (.tuDisable u) := of_bounds _
theorem tuRegWrite (u off : Nat) (w : Word) :
    Statement (.tuRegWrite u off w) := of_bounds _
theorem pinCrossing (bank pin : Nat) (hi up : Bool) (mv fine : Nat) :
    Statement (.pinCrossing bank pin hi up mv fine) := of_bounds _
theorem triggerFire (u : Nat) (ticks : Nat) :
    Statement (.triggerFire u ticks) := of_bounds _
theorem holdoffEnd (u : Nat) :
    Statement (.holdoffEnd u) := of_bounds _
theorem dbgAuthPassword (p : Path) (level : Nat) :
    Statement (.dbgAuthPassword p level) := of_bounds _
theorem dbgAuthKeyx (p : Path) (level : Nat) :
    Statement (.dbgAuthKeyx p level) := of_bounds _
theorem keyxTimeout : Statement .keyxTimeout := of_bounds _
theorem dbgAuthDrop (p : Path) :
    Statement (.dbgAuthDrop p) := of_bounds _
theorem dbgAccessRead : Statement .dbgAccessRead := of_bounds _
theorem dbgAccessWrite : Statement .dbgAccessWrite := of_bounds _
theorem read (p : Path) (c bp : Nat) (bank : Bool) (entry : Nat) :
    Statement (.read p c bp bank entry) := of_bounds _
theorem deposit (p : Path) (c bp : Nat) (bank : Bool) (entry : Nat) (v : Val) :
    Statement (.deposit p c bp bank entry v) := of_bounds _
theorem force (p : Path) (c bp : Nat) (bank : Bool) (entry : Nat) (v : Val) :
    Statement (.force p c bp bank entry v) := of_bounds _
theorem release (p : Path) (c bp : Nat) (bank : Bool) (entry : Nat) :
    Statement (.release p c bp bank entry) := of_bounds _
theorem cqread (p : Path) (c bp slot : Nat) :
    Statement (.cqread p c bp slot) := of_bounds _
theorem relall (p : Path) :
    Statement (.relall p) := of_bounds _
theorem arrDeferredStart : Statement .arrDeferredStart := of_bounds _
theorem dbgHalt (cause : HaltCause) :
    Statement (.dbgHalt cause) := of_bounds _
theorem dbgResume (p : Path) :
    Statement (.dbgResume p) := of_bounds _
theorem dbgStep (p : Path) (ups : List Upset) :
    Statement (.dbgStep p ups) := of_bounds _
theorem pairHalt (pair : Nat) (cause : HaltCause) :
    Statement (.pairHalt pair cause) := of_bounds _
theorem pairHaltComplete (pair priv : Nat) (pc : DWord) (lr : Option (Nat × Nat)) :
    Statement (.pairHaltComplete pair priv pc lr) := of_bounds _
theorem pairResume (p : Path) (pair : Nat) :
    Statement (.pairResume p pair) := of_bounds _
theorem pairStep (p : Path) (pair : Nat) (eff : CoreEffect) :
    Statement (.pairStep p pair eff) := of_bounds _
theorem xtrigIn (ch : Nat) :
    Statement (.xtrigIn ch) := of_bounds _
theorem testLogicReset : Statement .testLogicReset := of_bounds _
theorem extest : Statement .extest := of_bounds _
theorem samplePreload : Statement .samplePreload := of_bounds _
theorem idcode : Statement .idcode := of_bounds _
theorem dbgacc (write : Bool) (addr : Nat) (data : Word) :
    Statement (.dbgacc write addr data) := of_bounds _
theorem bypass (code : Byte) :
    Statement (.bypass code) := of_bounds _
theorem nocPacketForward (router port : Nat) (err : HopError) :
    Statement (.nocPacketForward router port err) := of_bounds _
theorem ageIncrement (router : Nat) :
    Statement (.ageIncrement router) := of_bounds _
theorem nocPacketReceive (router : Nat) (err : HopError) :
    Statement (.nocPacketReceive router err) := of_bounds _
theorem nocTimeout (k : Nat) :
    Statement (.nocTimeout k) := of_bounds _
theorem nocRtFlip : Statement .nocRtFlip := of_bounds _
theorem oldEpochDrained : Statement .oldEpochDrained := of_bounds _
theorem nocAgreeCommit (tag : Byte) :
    Statement (.nocAgreeCommit tag) := of_bounds _
theorem dlmodeSwitch (row : Nat) :
    Statement (.dlmodeSwitch row) := of_bounds _
theorem bar2Read (off size : Nat) :
    Statement (.bar2Read off size) := of_bounds _
theorem bar2Write (off : Nat) (data : List Byte) :
    Statement (.bar2Write off data) := of_bounds _
theorem eventDoorbell (r : Nat) (w : Word) :
    Statement (.eventDoorbell r w) := of_bounds _
theorem dmaDoorbell (c : Nat) (w : Word) :
    Statement (.dmaDoorbell c w) := of_bounds _
theorem pcieReset (kind : PcieReset) :
    Statement (.pcieReset kind) := of_bounds _
theorem dmaEnable (c : Nat) (w : Word) :
    Statement (.dmaEnable c w) := of_bounds _
theorem dmaDisable (c : Nat) (w : Word) :
    Statement (.dmaDisable c w) := of_bounds _
theorem dmaDescComplete (c : Nat) (desc : List Byte) (data : List Byte) :
    Statement (.dmaDescComplete c desc data) := of_bounds _
theorem hifDmaErr (c err status : Nat) :
    Statement (.hifDmaErr c err status) := of_bounds _
theorem eventAccept (k : Nat) :
    Statement (.eventAccept k) := of_bounds _
theorem eventRingWrite : Statement .eventRingWrite := of_bounds _
theorem msixCoalesceExpire (r : Nat) :
    Statement (.msixCoalesceExpire r) := of_bounds _
theorem ringFullResignal : Statement .ringFullResignal := of_bounds _
theorem eventRingEnable (r : Nat) (w : Word) :
    Statement (.eventRingEnable r w) := of_bounds _
theorem mgtLockstep (pair : Nat) (pc : DWord) :
    Statement (.mgtLockstep pair pc) := of_bounds _
theorem pairRestartComplete (pair : Nat) :
    Statement (.pairRestartComplete pair) := of_bounds _
theorem mgtWdtEnable (pair : Nat) (timeout : BitVec 24) :
    Statement (.mgtWdtEnable pair timeout) := of_bounds _
theorem wdtKick (pair : Nat) (key : BitVec 16) :
    Statement (.wdtKick pair key) := of_bounds _
theorem mgtWdt (pair : Nat) :
    Statement (.mgtWdt pair) := of_bounds _
theorem program (req : Requester) :
    Statement (.program req) := of_bounds _
theorem erase4k (req : Requester) :
    Statement (.erase4k req) := of_bounds _
theorem erase64k (req : Requester) :
    Statement (.erase64k req) := of_bounds _
theorem flashCmdComplete (ok : Bool) :
    Statement (.flashCmdComplete ok) := of_bounds _
theorem mgtFpApply : Statement .mgtFpApply := of_bounds _
theorem codebaseWrite (req : Requester) (w : Word) :
    Statement (.codebaseWrite req w) := of_bounds _
theorem swapOk : Statement .swapOk := of_bounds _
theorem swapTimeout : Statement .swapTimeout := of_bounds _
theorem load (slot : Nat) (placement : List Byte) :
    Statement (.load slot placement) := of_bounds _
theorem fwUpdate (slot : Nat) (stream : List Byte) :
    Statement (.fwUpdate slot stream) := of_bounds _
theorem fwSwap (slot : Nat) :
    Statement (.fwSwap slot) := of_bounds _
theorem fwHotfix (slot : Nat) (stream : List Byte) :
    Statement (.fwHotfix slot stream) := of_bounds _
theorem patchSet (slot : Nat) :
    Statement (.patchSet slot) := of_bounds _
theorem logRead (slot : Nat) :
    Statement (.logRead slot) := of_bounds _
theorem info (slot : Nat) :
    Statement (.info slot) := of_bounds _
theorem restore (slot : Nat) (crcOk writeOk : Bool) (host : Option Ckpt) :
    Statement (.restore slot crcOk writeOk host) := of_bounds _
theorem attest (slot : Nat) (nonce : List Byte) :
    Statement (.attest slot nonce) := of_bounds _
theorem loadBegin : Statement .loadBegin := of_bounds _
theorem frameReceive (bytes : List Byte) (readOk : Bool) :
    Statement (.frameReceive bytes readOk) := of_bounds _
theorem reloadBoundaryHold : Statement .reloadBoundaryHold := of_bounds _
theorem bootTimeout : Statement .bootTimeout := of_bounds _
theorem bootOk : Statement .bootOk := of_bounds _
theorem tokenLoad (slot : Nat) :
    Statement (.tokenLoad slot) := of_bounds _
theorem tokenUnload (slot : Nat) :
    Statement (.tokenUnload slot) := of_bounds _
theorem fuseProgram (req : Requester) (word : Nat) (readBackOk : Bool) :
    Statement (.fuseProgram req word readBackOk) := of_bounds _
theorem oppWrite (code : Nat) :
    Statement (.oppWrite code) := of_bounds _
theorem oppSettle : Statement .oppSettle := of_bounds _
theorem sscWrite (on : Bool) :
    Statement (.sscWrite on) := of_bounds _
theorem thrminWrite (level : BitVec 4) :
    Statement (.thrminWrite level) := of_bounds _
theorem rootPllFail (kind : Nat) :
    Statement (.rootPllFail kind) := of_bounds _
theorem swreq : Statement .swreq := of_bounds _
theorem switchoverComplete : Statement .switchoverComplete := of_bounds _
theorem rootRetrain (passed : Bool) :
    Statement (.rootRetrain passed) := of_bounds _
theorem sensorSample (temps : List (BitVec 16)) :
    Statement (.sensorSample temps) := of_bounds _
theorem throttleUpdate (src : ThrottleSource) (powerW : Nat) :
    Statement (.throttleUpdate src powerW) := of_bounds _
theorem droopDetect (monitor mv : Nat) :
    Statement (.droopDetect monitor mv) := of_bounds _
theorem thermtrip (sensor : Nat) :
    Statement (.thermtrip sensor) := of_bounds _
theorem pltAvs (kind measured : Nat) :
    Statement (.pltAvs kind measured) := of_bounds _
theorem agingCheck (counts : List Word) :
    Statement (.agingCheck counts) := of_bounds _
theorem ppsLoad : Statement .ppsLoad := of_bounds _
theorem ppsEdge : Statement .ppsEdge := of_bounds _
theorem ppsMissing : Statement .ppsMissing := of_bounds _
theorem calSchedule (kind : CalKind) :
    Statement (.calSchedule kind) := of_bounds _
theorem pgreqGate (domain : Nat) :
    Statement (.pgreqGate domain) := of_bounds _
theorem pgreqPower (domain : Nat) :
    Statement (.pgreqPower domain) := of_bounds _
theorem domainReady (domain : Nat) :
    Statement (.domainReady domain) := of_bounds _
theorem pltRstKey (req : Requester) (key : BitVec 16) :
    Statement (.pltRstKey req key) := of_bounds _
theorem deviceReset (cause : ResetCause) :
    Statement (.deviceReset cause) := of_bounds _
theorem rootLock : Statement .rootLock := of_bounds _
theorem hbmTrainComplete (stack : Nat) :
    Statement (.hbmTrainComplete stack) := of_bounds _
theorem smbTmax : Statement .smbTmax := of_bounds _
theorem smbThrottle : Statement .smbThrottle := of_bounds _
theorem smbRstcause : Statement .smbRstcause := of_bounds _
theorem smbAlertStatus : Statement .smbAlertStatus := of_bounds _
theorem smbVddStepMv : Statement .smbVddStepMv := of_bounds _
theorem smbVddStepPower : Statement .smbVddStepPower := of_bounds _
theorem sparingDecision (t : SparingTrigger) :
    Statement (.sparingDecision t) := of_bounds _
theorem lifeRecord (hours avg : DWord) :
    Statement (.lifeRecord hours avg) := of_bounds _
theorem mbxItemRead (req : Requester) (page item : Nat) (tag : Byte) :
    Statement (.mbxItemRead req page item tag) := of_bounds _
theorem mbxItemWrite (req : Requester) (page item : Nat) (tag : Byte) :
    Statement (.mbxItemWrite req page item tag) := of_bounds _
theorem bitAliasWrite (req : Requester) (addr : Nat) (w : Word) :
    Statement (.bitAliasWrite req addr w) := of_bounds _
theorem registerWrite (req : Requester) (addr size : Nat) (w : DWord) :
    Statement (.registerWrite req addr size w) := of_bounds _
theorem registerRead (req : Requester) (addr size : Nat) :
    Statement (.registerRead req addr size) := of_bounds _
theorem hifLink (speed width : Nat) (flit dlup : Bool) :
    Statement (.hifLink speed width flit dlup) := of_bounds _
theorem busMasterEnable (on : Bool) :
    Statement (.busMasterEnable on) := of_bounds _
theorem standbyRootFail (kind : Nat) :
    Statement (.standbyRootFail kind) := of_bounds _
theorem droopRelease : Statement .droopRelease := of_bounds _
theorem avsDeviationClear : Statement .avsDeviationClear := of_bounds _
theorem porstNRelease : Statement .porstNRelease := of_bounds _
theorem mgtSramScrub (addr : Nat) (ue : Bool) :
    Statement (.mgtSramScrub addr ue) := of_bounds _

end Sys2Proof.Laws.WF
end

