-- ==== Sys2Proof/Laws/Safety.lean ====
section
/-! SUPPORT. Safety.lean: what the terms of the statements mean for the operations of the model. -/
set_option Elab.async false
namespace Sys2Proof.Machine

theorem leads_of {i : Instr} {s t : State} {P : State → Prop} (e : exec i s = .next t) (h : P t) : leads i s P := ⟨t, e, h⟩

/-- Raising a one-bit event posts it. -/
theorem State.raise_posted (s : State) (f : Fld) (a b : Nat) (p : List Nat) (w : f.width = 1) : posted f a b p s (s.raise f a b p) := by
  refine ⟨?_, ?_⟩
  · rw [State.fget_raise, State.fget_fset_same, w]
    rfl
  · by_cases h : s.fbit (evten f) = true
    · rw [State.evq_raise_on _ _ _ _ _ h, if_pos h]
    · rw [State.evq_raise_off _ _ _ _ _ (by simpa using h), if_neg h, List.append_nil]

/-- What an event needs of the state it is raised in. -/
theorem posted_from {f : Fld} {a b : Nat} {p : List Nat} {s u t : State} (h : posted f a b p u t) (h1 : u.evq = s.evq)
    (h2 : u.fget (evten f) = s.fget (evten f)) (h3 : u.seq.step = s.seq.step) (h4 : u.ptime = s.ptime) : posted f a b p s t := by
  unfold posted State.fbit at *
  rw [h1, h2, h3, h4] at h
  exact h

/-- What leaves an event standing. -/
theorem posted_to {f : Fld} {a b : Nat} {p : List Nat} {s t v : State} (h : posted f a b p s t) (h1 : v.evq = t.evq)
    (h2 : v.fget f = t.fget f) : posted f a b p s v := by
  unfold posted at *
  rw [h1, h2]
  exact h

/-- A count counts. -/
theorem State.fget_count_same (s : State) (f : Fld) : (s.count f).fget f = min (2 ^ f.width - 1) (s.fget f + 1) := by
  have := Nat.two_pow_pos f.width
  have key : satSucc f.width (s.fget f) = min (2 ^ f.width - 1) (s.fget f + 1) := by
    unfold satSucc
    split <;> omega
  rw [State.count, State.fget_fset_same, key, Nat.mod_eq_of_lt]
  omega

theorem onlyFields_refl (fs : List Fld) (s : State) : onlyFields fs s s := fun _ _ => rfl

theorem onlyFields_fset {fs : List Fld} {s t : State} {f : Fld} (v : Nat) (h : onlyFields fs s t) (hf : f ∈ fs) :
    onlyFields fs s (t.fset f v) := fun g hg => (t.fget_fset_ne v (hg f hf)).trans (h g hg)

theorem onlyFields_fsetb {fs : List Fld} {s t : State} {f : Fld} (v : Bool) (h : onlyFields fs s t) (hf : f ∈ fs) :
    onlyFields fs s (t.fsetb f v) := onlyFields_fset _ h hf

theorem onlyFields_count {fs : List Fld} {s t : State} {f : Fld} (h : onlyFields fs s t) (hf : f ∈ fs) :
    onlyFields fs s (t.count f) := onlyFields_fset _ h hf

theorem onlyFields_raise {fs : List Fld} {s t : State} {f : Fld} (a b : Nat) (p : List Nat) (h : onlyFields fs s t) (hf : f ∈ fs) :
    onlyFields fs s (t.raise f a b p) := fun g hg => (t.fget_raise_ne a b p (hg f hf)).trans (h g hg)

/-- A change that leaves the register fields alone. -/
theorem onlyFields_to {fs : List Fld} {s t v : State} (h : onlyFields fs s t) (e : v.fields = t.fields) : onlyFields fs s v :=
  fun g hg => (show kvGet g.reset v.fields g.key = _ by rw [e]; exact h g hg)

/-- A change that stays out of every register leaves every field. -/
theorem Fr.fget {E : Nat} {s t : State} (h : Fr E s t) (hE : E < 2 ^ 25) (f : Fld) : t.fget f = s.fget f :=
  h.h_regs f (Nat.testBit_lt_two_pow (lt_of_lt_of_le hE (Nat.pow_le_pow_right (by decide) (by omega))))

/-- The bit of a part in a mask. -/
def Part.bit : Part → Nat
  | .out => 0
  | .now => 1
  | .ptime => 2
  | .ptRun => 3
  | .free => 4
  | .mem => 5
  | .flash => 6
  | .evq => 7
  | .mbx => 8
  | .seq => 9
  | .clauses => 10
  | .fab => 11
  | .sch => 12
  | .umem => 13
  | .links => 14
  | .fp => 15
  | .load => 16
  | .rim => 17
  | .cap => 18
  | .dbg => 19
  | .noc => 20
  | .hif => 21
  | .mgt => 22
  | .sec => 23
  | .plt => 24
  | .regs b => 25 + b.index

/-- What stands outside a mask is the same. -/
theorem Fr.same {E : Nat} {s t : State} (h : Fr E s t) (p : Part) (hp : E.testBit p.bit = false) : State.same s t p := by
  cases p with
  | out => exact h.h_out hp
  | now => exact h.h_now hp
  | ptime => exact h.h_ptime hp
  | ptRun => exact h.h_ptRun hp
  | free => exact h.h_free hp
  | mem => exact h.h_mem hp
  | flash => exact h.h_flash hp
  | evq => exact h.h_evq hp
  | mbx => exact h.h_mbx hp
  | seq => exact h.h_seq hp
  | clauses => exact h.h_clauses hp
  | fab => exact h.h_fab hp
  | sch => exact h.h_sch hp
  | umem => exact h.h_umem hp
  | links => exact h.h_links hp
  | fp => exact h.h_fp hp
  | load => exact h.h_load hp
  | rim => exact h.h_rim hp
  | cap => exact h.h_cap hp
  | dbg => exact h.h_dbg hp
  | noc => exact h.h_noc hp
  | hif => exact h.h_hif hp
  | mgt => exact h.h_mgt hp
  | sec => exact h.h_sec hp
  | plt => exact h.h_plt hp
  | regs b =>
    intro f hf
    refine h.h_regs f ?_
    rw [hf]
    exact hp

end Sys2Proof.Machine
end

