-- ==== Sys2Proof/Machine/Pins.lean ====
section
/-! DEFINITION. Pins.lean: the states of the pin groups, as functions of the machine's state (R238, R254, R362 to R377, R436,
R438, R516, R567, R568). -/
namespace Sys2Proof.Machine

/-- What a pin shows to the board: not driven, a weak pull, a driven level, or the stream of a unit that is in use. -/
inductive PinState where
  | noDrive
  | highZ
  | pulledUp
  | pulledDown
  | low
  | high
  | idle
  | active
  deriving DecidableEq, Repr

/-- A weak pull as RIM_IOSTAT codes the strap (R372, R382). -/
def pullState (k : Nat) : PinState := match k with | 1 => .pulledDown | 2 => .pulledUp | _ => .highZ

/-- A rim I/O pin (R364, R372, R375 to R377). -/
def State.rimPin (s : State) (b p : Nat) : PinState :=
  match s.pinDrive b p with
  | some v => if v then .high else .low
  | none => pullState (s.pinPull b p)

/-- A key pin: pulled up weakly while its bank has its supply (R370, R375, R377). -/
def State.keyPin (s : State) (b : Nat) : PinState := if (s.bank b).st == .off then .highZ else .pulledUp

/-- A transmit lane of a link (R238, R254, R377): idle while the link is OFF. -/
def State.linkLane (s : State) (l : Nat) : PinState := if (s.link l).st == .off then .idle else .active

/-- The flash pins (R377, R516): FL_RESET_N is low for 10 µs after reset; FL_CS_N is pulled high and FL_SCK low until the
controller drives them. -/
def State.flResetPin (s : State) : PinState := if s.plt.inReset || decide (0 < s.mgt.flReset) then .low else .high
def State.flCsPin (s : State) : PinState := if s.plt.inReset || decide (0 < s.mgt.flReset) then .pulledUp else .active
def State.flSckPin (s : State) : PinState := if s.plt.inReset || decide (0 < s.mgt.flReset) then .low else .active

/-- The flash clock's highest rate in MHz, and bytes moved in a µs at it (R516). -/
def State.flashMHz (s : State) : Nat := if s.mgt.fl8d then 200 else 50
def State.flashRate (s : State) : Nat := if s.mgt.fl8d then 400 else 6

/-- TDO is driven only while the TAP shifts (R377). -/
def tdoPin (shifting : Bool) : PinState := if shifting then .active else .highZ

/-- THERMTRIP_N and ALERT_N are open drain (R377, R567, R568). -/
def State.thermtripPin (s : State) : PinState := if s.plt.thermTrip then .low else .highZ
def State.alertPin (s : State) : PinState := if !s.plt.inReset && s.alert then .low else .highZ

/-- XTRIG_OUT pins are low but for the pulses of R436 (R377). -/
def xtrigPin (pulse : Bool) : PinState := if pulse then .high else .low

end Sys2Proof.Machine
end

