-- ==== Sys2Proof/Tests/Slice0.lean ====
section
/-! SUPPORT. Slice0.lean: tests: states and operands that meet the hypotheses of every statement, an ill-formed command for each
check of WellFormed, and single steps with results worked out from spec/. -/
set_option Elab.async false
namespace Sys2Proof.Tests
open Sys2Proof.Machine

/-! ### Witnesses of the statements -/

theorem witness_stepRunsFrontCommand : ({ State.reset with pending := [.stop, .run] } : State).pending =
  .stop :: [.run] := by decide

theorem witness_emptyQueueLetsTimePass : State.reset.pending = [] ∧ State.reset.ptRun = false ∧
    (let s : State := { State.reset with ptRun := true, ptime := 5 }
     s.pending = [] ∧ s.ptRun = true ∧ s.fbit F.PLT_PTCTL_MODE = false ∧ s.plt.ptFrac < 1000000000 ∧
       s.ptime + 1 < 2 ^ 64) := by decide

theorem witness_resetLeavesDefaults : isUser 0x40000000 = true ∧ isUser 0x27FFFFFFFF = true := by decide

theorem witness_stepKeepsSound : State.reset.sound = true ∧ step State.reset = .next (tick State.reset) ∧
    ({ State.reset with mem := [(0x40000000, 0x12#8)], flash := [(5, 0x00#8)] } : State).sound = true := by
  refine ⟨by decide, rfl, by decide⟩

theorem witness_queueIsFifo : exec .stop State.reset = .next (seqStopWrite State.reset) ∧
    step { State.reset with pending := [.stop] } = .next (seqStopWrite State.reset) := ⟨rfl, rfl⟩

theorem witness_fuseBitsOnlySet : step State.reset = .next (tick State.reset) ∧ (State.reset.fuseWord 2).getLsbD 4 = true := by
  refine ⟨rfl, by decide⟩

theorem witness_arbiterHoldsAtMost256 : State.reset.hif.held.length ≤ 256 ∧ step State.reset = .next (tick State.reset) ∧
    ({ State.reset with hif := { held := [(0, ⟨5, 1, [], 0, 0, false⟩), (1, ⟨5, 2, [], 0, 0, false⟩)] } } : State).hif.held.length ≤ 256 := by
  refine ⟨by decide, rfl, by decide⟩

theorem witness_commandsTouchOnlyTheirParts : exec .stop State.reset = .next (seqStopWrite State.reset) ∧
    mayStop .stop = false ∧ mayStop (.ellipsisEnd []) = false ∧ Part.mem ∉ touches .stop ∧ Part.regs .seq ∉ touches .stop := by
  refine ⟨rfl, rfl, rfl, by decide, by decide⟩

/-- A device that steps with no condition missing, and one that a debug hold's missing condition keeps waiting. -/
def runningState (st : SeqState) : State := { State.reset with seq := { st := st, step := 7, depth := 8, ucyc := 0 } }

theorem witness_stepsAdvanceCounters :
    ((runningState .running).seq.st = .running ∧ (runningState .running).seq.depth ≠ 0 ∧ (runningState .running).causes = []) ∧
    (let s := { runningState .running with plt := { clockHold := true } }
     s.seq.st = .running ∧ s.seq.depth ≠ 0 ∧ s.causes ≠ []) ∧
    ((runningState .ellipsis).seq.st = .ellipsis ∧ (runningState .ellipsis).seq.depth ≠ 0 ∧
      (runningState .ellipsis).causes = []) ∧
    (let s := { runningState .ellipsis with plt := { clockHold := true } }
     s.seq.st = .ellipsis ∧ s.causes ≠ []) ∧ (runningState .stopped).seq.st ≠ .running := by decide

theorem witness_runControlStarts : ((Instr.step1, 4) ∈ [(Instr.run, 1), (.step1, 4), (.ucyc1, 8)] ∧
    (runningState .ready).seq.st = .ready ∧ (runningState .ready).runRefused = none) ∧
    (runningState .idle).seq.st = .idle ∧ (runningState .dbgHold).seq.st = .dbgHold := by
  refine ⟨⟨?_, by decide, by decide⟩, by decide, by decide⟩
  simp

theorem witness_stopsSetFence :
    (7 = (if (runningState .running).usedLinks = [] then (runningState .running).seq.step
      else (runningState .running).seq.step + (runningState .running).fget F.SEQ_FENCE_DIST - 1) ∧
      (runningState .running).seq.fence = none) ∧
    (let s : State := { State.reset with seq := { st := .running, step := 7, depth := 8, fence := some (3, 1) } }
     s.seq.fence = some (3, 1) ∧ 3 ≤ (if s.usedLinks = [] then s.seq.step else s.seq.step + s.fget F.SEQ_FENCE_DIST - 1)) ∧
    State.reset.seq.step ≤ State.reset.seq.stopAt ∧
      (runningState .running).seq.stopAt < (runningState .running).seq.step := by decide

/-- A checkpoint of an empty image at user cycle 1. -/
def emptyCkpt : Ckpt := ⟨0x1000000000, 8, 1, 0, false, [], [], [], [], [], [], [], [], [], [], []⟩

theorem witness_sequencerReports :
    (let s : State := { State.reset with seq := { st := .ellipsis, depth := 8, ellNs := 10000000000 }, fields := [(F.SEQ_ELLIM_LIMIT_US.key, 5)] }
     (s.seq.st = .ellipsis ∨ s.seq.st = .dbgHold) ∧ s.fget F.SEQ_ELLIM_LIMIT_US ≠ 0 ∧
     s.fget F.SEQ_ELLIM_LIMIT_US * 1000 < s.seq.ellNs ∧ s.seq.longRaised = false) ∧
    (let s : State := { State.reset with seq := { st := .ellipsis, step := 8, depth := 8, ckpt := some (0, emptyCkpt) } }
     s.seq.ckpt = some (0, emptyCkpt) ∧ s.ckptFramesIn = true ∧ F.SEQ_CTL_STOPAT_EN.block ≠ 10) ∧
    isHost 0x800000001000 = true ∧ isHost (0x800000001000 + 64) = true := by decide

/-- Clause 2 with two loaded dictionary copies: copies of phrase 5 (and 6) of entry 7 fail parity. -/
def badCopies (ps : List Nat) : State :=
  { State.reset with clauses := [(2, { loaded := true, passed := true, dictBad := ps.map fun p => (1024 * p + 7, some (3, false)) })] }

theorem witness_sweepChecksEntry :
    (((upsets [] State.reset).clause 2).dictCopy 5 7).2 = true ∧
    (let u := upsets [] (badCopies [5])
     ((u.clause 2).spared = true → (u.clause 2).retired ≠ 5) ∧ ((u.clause 2).dictCopy 5 7).2 = false ∧
       ∀ d, d ∈ [64, 1] → (u.clause 2).dictCopy ((u.clause 2).nextPhrase 5 d) 7 = (0, true)) ∧
    (let u := upsets [] (badCopies [5, 6])
     ((u.clause 2).spared = true → (u.clause 2).retired ≠ 5) ∧ ((u.clause 2).dictCopy 5 7).2 = false ∧
       ((u.clause 2).dictCopy ((u.clause 2).nextPhrase 5 1) 7).2 = false) := by decide

theorem witness_rewriteRestoresEntry : 7 < 1024 ∧ ((badCopies [5]).clause 2).spared = false ∧
  ((badCopies [5]).clause 2).mig = none := by decide

theorem witness_spareGoDecides :
    ((badCopies []).clause 2).mig = none ∧ ((badCopies []).clause 2).sparePend = none ∧ (badCopies []).reloadUnread = false ∧
      63 < 64 ∧ (63 ≤ 63 ∧ (badCopies []).loadingClause 2 = false) ∧
    ((badCopies []).clause 2).spared = false ∧ ((badCopies []).clause 2).marchOk = true ∧
      ((badCopies []).clause 2).loaded = true ∧
    ((badCopies []).clause 3).loaded = false ∧ ((badCopies []).clause 3).mig = none ∧
    (let s := { badCopies [] with load := { job := some { boot := none, slot := 0, addr := 0, placement := none, named := [2] } } }
     s.reloadUnread = false ∧ s.loadingClause 2 = true) ∧
    (let s := { badCopies [] with load := { job := some { boot := none, slot := 0, addr := 0, placement := none, stage := .directory, hdr := List.replicate 8 0 ++ [3] } } }
     (s.clause 2).mig = none ∧ (s.clause 2).sparePend = none ∧ s.reloadUnread = true) ∧
    (let s := (badCopies []).modClause 2 fun x => { x with spared := true, retired := 4 }
     s.loadingClause 2 = false ∧ (s.clause 2).spared = true) ∧
    (let s := (badCopies []).modClause 2 fun x => { x with marchOk := false }
     s.loadingClause 2 = false ∧ (s.clause 2).spared = false ∧ (s.clause 2).marchOk = false) ∧
    (((badCopies []).modClause 2 fun x => { x with mig := some ⟨4, false⟩ }).clause 2).mig.isSome = true := by decide

theorem witness_migrationSwitchesOrKeeps :
    (((badCopies []).modClause 2 fun x => { x with mig := some ⟨4, false⟩ }).clause 2).mig = some ⟨4, false⟩ := by decide

/-- A stopped device, schedule depth 8, with clause 2 loaded, passed, isolated or not, and clause 3 empty. -/
def loadedClause (iso : Bool) : State :=
  { State.reset with
    seq := { st := .stopped, step := 16, depth := 8 }
    clauses := [(2, { loaded := true, passed := true, iso := iso })] }

theorem witness_isolationRequests :
    (let s := { loadedClause false with fab := { iso := some ⟨2, false, true, true⟩ } }
     s.fab.iso = some ⟨2, false, true, true⟩ ∧ exec .isoBoundaryApply s = .next (isoApply s)) ∧
    (let s := { loadedClause false with fab := { iso := some ⟨2, false, true, false⟩ } }
     s.fab.iso ≠ none ∧ ∀ q, s.fab.iso = some q → q.due = false) ∧
    ((loadedClause false).fab.iso = none ∧ ((loadedClause false).clause 3).loaded = false ∧
      ((loadedClause false).clause 3).passed = false ∧
      ((loadedClause true).clause 2).iso = true ∧ ((loadedClause false).clause 2).iso = false ∧
      ((loadedClause false).clause 2).loaded = true ∧ ((loadedClause true).clause 2).passed = true) ∧
    ((loadedClause false).stepping = false ∧ (loadedClause false).atPhase0 = true) ∧
    ({ loadedClause false with seq := { st := .running, step := 16, depth := 8 } } : State).stepping = true := by
  refine ⟨⟨rfl, rfl⟩, ⟨by simp, by simp⟩, by decide, by decide, by decide⟩

theorem witness_agreeCommits :
    ({ State.reset with fab := { agree := some (1, 4, none) } } : State).fab.agree ≠ none ∧
    (State.reset.fab.agree = none ∧
      linkOf (State.reset.fget F.FAB_SPSEL_CONN / 4) (State.reset.fget F.FAB_SPSEL_CONN % 4) ≠ none) ∧
    (let s := (State.reset.fset F.FAB_SPSEL_CONN 1).fset F.FAB_SPTX_EN 1
     s.fab.agree = none ∧ linkOf (s.fget F.FAB_SPSEL_CONN / 4) (s.fget F.FAB_SPSEL_CONN % 4) = none ∧
       s.fbit F.FAB_SPTX_EN ≠ s.fbit F.FAB_SPRX_EN) ∧
    (let s := State.reset.fset F.FAB_SPSEL_CONN 1
     s.fab.agree = none ∧ s.sparingFault = none ∧ s.stepping = false) ∧
    (let s := (runningState .running).fset F.FAB_SPSEL_CONN 1
     s.fab.agree = none ∧ s.sparingFault = none ∧ s.stepping = true) := by decide

/-- Clause 2 powered, with an error mark m at word 9 of row 3, which the scrubber reads next; row 3 is mapped to spare row 5. -/
def markedRow (m : Nat) : State :=
  { State.reset.fset F.PLT_PGSTAT_ON (2 ^ 17) with clauses := [(2, { loaded := true, scrub := 3, rowMap := [(3, some 5)]
                                                                     schBad := if m = 0 then [] else [(128 * (9216 + 5) + 9, m)] })] }

/-- The same clause with the mark on spare row 200, the one that the scrubber reads next. -/
def markedSpare : State := (markedRow 0).modClause 2 fun x => { x with scrub := 9416, schBad := [(128 * 9416 + 9, 2)] }

theorem witness_scrubberReadsRows :
    (markedRow 3).markAt 2 (128 * 3 + 9) = 3 ∧ (markedRow 1).markAt 2 (128 * 3 + 9) ≠ 3 ∧
    (upsets [] State.reset).gated 2 = true ∧ (upsets [] (markedRow 0)).gated 2 = false ∧
    (let u := upsets [] (markedRow 0)
     (u.clause 2).schBad.filter (fun e => e.1 / 128 == u.arrayRow 2 (u.clause 2).scrub) = []) ∧
    (∀ m, m ∈ [1, 2] → (let u := upsets [] (markedRow m)
     u.gated 2 = false ∧ (u.clause 2).scrub < 8704 ∧
       (u.clause 2).schBad.filter (fun e => e.1 / 128 == u.arrayRow 2 (u.clause 2).scrub) =
         [(128 * u.arrayRow 2 (u.clause 2).scrub + 9, m)])) ∧
    (let u := upsets [] markedSpare
     u.gated 2 = false ∧ (u.clause 2).scrub ≠ 8704 ∧ (u.clause 2).scrub ≠ 8705 ∧
       (u.clause 2).schBad.filter (fun e => e.1 / 128 == u.arrayRow 2 (u.clause 2).scrub) =
         [(128 * u.arrayRow 2 (u.clause 2).scrub + 9, 2)]) := by decide

theorem witness_parameterChecks : exec .schParam State.reset = .next (schParamPost State.reset) ∧
    exec .rimParam State.reset = .next (rimParamPost State.reset) ∧
    exec (.paramCheck false none) State.reset = .next (paramCheck false none State.reset) ∧
    exec (.paramCheck true (some (9, 0))) State.reset = .next (paramCheck true (some (9, 0)) State.reset) := ⟨rfl, rfl, rfl, rfl⟩

/-- Some row of a slice that no run-time mapping has touched is mapped nowhere: the factory maps at most 128. -/
theorem unmapped_exists (s : State) (c : Nat) (h : (s.clause c).rowMap = []) : ∃ row, row ≤ 9215 ∧ s.spareOf c row = none := by
  by_contra hn
  simp only [not_exists, not_and] at hn
  have hk : ∀ (m : List (Nat × Nat)) (r k : Nat), m.lookup r = some k → r ∈ m.map Prod.fst := by
    intro m
    induction m with
    | nil => intro r k h; cases h
    | cons a m ih =>
      obtain ⟨x, y⟩ := a
      intro r k h
      rw [List.lookup_cons] at h
      split at h
      · rename_i hx
        rw [eq_of_beq hx]
        exact List.mem_cons_self
      · exact List.mem_cons_of_mem _ (ih r k h)
  have hs : Finset.range 129 ⊆ ((factoryRows c).map Prod.fst).toFinset := by
    intro r hr
    obtain ⟨k, hk'⟩ := Option.ne_none_iff_exists'.mp (hn r (by simp at hr; omega))
    unfold State.spareOf at hk'
    rw [h] at hk'
    rw [List.mem_toFinset]
    exact hk _ r k hk'
  have h1 := Finset.card_le_card hs
  have h2 := List.toFinset_card_le ((factoryRows c).map Prod.fst)
  rw [Finset.card_range] at h1
  rw [List.length_map] at h2
  have h3 : (factoryRows c).length ≤ 128 := List.length_take_le 128 _
  omega

theorem witness_rowsAreMapped :
    (let s := { markedRow 0 with sch := { rmap := some (2, 7) } }
     s.sch.rmap = some (2, 7) ∧ (s.clause 2).schBad.filter (fun e => e.1 / 128 == 7) = [] ∧
       (∀ e, e ∈ (s.clause 2).rowMap → e.1 ≠ 7) ∧ s.rowFree 2 ≠ 0) ∧
    (State.reset.sch.rmap = none ∧ State.reset.gated 2 = true) ∧
    ((markedRow 0).sch.rmap = none ∧ (markedRow 0).gated 2 = false ∧ (markedRow 0).spareOf 2 3 ≠ none) ∧
    (let s := (markedRow 0).modClause 2 fun x => { x with rowMap := [] }
     s.sch.rmap = none ∧ s.gated 2 = false ∧ s.rowFree 2 ≠ 0 ∧ ∃ row, row ≤ 9215 ∧ s.spareOf 2 row = none) ∧
    (let s := (markedRow 0).modClause 2 fun x => { x with rowMap := List.replicate 256 (9300, some 0) }
     s.sch.rmap = none ∧ s.gated 2 = false ∧ s.rowFree 2 = 0) := by
  have h3 : ∀ c, (factoryRows c).length ≤ 128 := fun c => List.length_take_le 128 _
  have hl : ∀ (s : State) (c : Nat), (s.clause c).rowMap.length ≤ 1 → s.rowFree c ≠ 0 := by
    intro s c h
    unfold State.rowFree
    have := h3 c
    omega
  refine ⟨⟨rfl, by decide, by decide, hl _ _ (by decide)⟩, by decide, by decide, ⟨by decide, by decide, hl _ _ (by decide), ?_⟩,
    by decide, by decide, ?_⟩
  · exact unmapped_exists _ _ (by decide)
  · unfold State.rowFree
    rw [State.clause_modClause_same]
    dsimp only
    rw [List.length_replicate]
    omega

theorem witness_patchesApplyTogether :
    ({ State.reset with sch := { patch := some .pending } } : State).sch.patch ≠ none ∧ State.reset.sch.patch = none ∧
    (State.reset.stepping = false ∧ State.reset.atPhase0 = true ∧ State.reset.migRuns = false ∧
      State.reset.patchFault false = some (3, 0, 0)) ∧ (runningState .running).stepping = true ∧
    (let s : State := { State.reset with sch := { patch := some .due } }
     s.sch.patch = some .due ∧ s.migRuns = false) ∧
    (let s : State := { State.reset with sch := { patch := some .hold }, load := { img := some ⟨1, 0, [], 1, 0, false, 0, 0, 0, [], [], [], []⟩ } }
     s.sch.patch = some .hold ∧ s.mgt.patch = none ∧ s.patchFault false = none) ∧
    (let s : State := { State.reset with sch := { patch := some .hold }, mgt := { patch := some (1, 2, false) } }
     s.sch.patch = some .hold ∧ s.mgt.patch = some (1, 2, false)) := by decide

/-- A rim base with step-lane group 0 enabled both ways on tree 0, fed by PLL 0, one outbound entry of step 70000, and region 1
that owns group 0. -/
def laneState (region : RegionState) (lock : Bool := true) : State :=
  { State.reset with rim := {
      base := true, frames := [(rfaOf 4 0 0, 2 ^ 24), (rfaOf 4 4 0, 2 ^ 4), (0x60000000, 2 ^ 8 + 2 ^ 24), (0x70000001, 1 + 2 ^ 32)]
      pll := if lock then [(0, true)] else [], regions := if region = .active then [] else [(1, region)]
      groups := [(0, { outq := [(70000, 5)], inNext := 3 })] } }

theorem witness_stepLanesKeepOrder :
    ((laneState .active).group 0).outq = [(70000, 5)] ∧ (laneState .active).groupFenced 0 = false ∧
    (laneState .active).inEn 0 = true ∧ ((laneState .active).group 0).inq.length < 64 ∧ (laneState .fenced).groupFenced 0 = true ∧
    ((laneState .active).group 1).outq = [] ∧ (laneState .active).inEn 1 = false ∧ (laneState .active).slRuns = true ∧
    (laneState .active false).slRuns = false ∧ ((laneState .active).group 0).outMoved < 4 ∧
      ((laneState .active).group 0).inMoved < 4 ∧
    4 ≤ (((laneState .active).modGroup 0 fun x => { x with inMoved := 4, outMoved := 4 }).group 0).outMoved ∧
    4 ≤ (((laneState .active).modGroup 0 fun x => { x with inMoved := 4, outMoved := 4 }).group 0).inMoved := by decide

theorem witness_regionsFenceAndRelease :
    (laneState .active).regionDef 0 = false ∧ (laneState .active).regionDef 1 = true ∧ (laneState .active).regionSt 1 = .active ∧
    (laneState .fenced).regionDef 1 = true ∧ (laneState .fenced).regionSt 1 = .fenced ∧
      (laneState .loading).regionSt 1 = .loading ∧
    (laneState .loading).regionDef 1 = true ∧ ((laneState .fenced).group 0).filled = none ∧
      (laneState .fenced).regionOf 0 = some 1 ∧
    (((laneState .fenced).modGroup 0 fun x => { x with filled := some (4, 6) }).group 0).filled = some (4, 6) ∧
    ((laneState .fenced).modGroup 0 fun x => { x with filled := some (4, 6) }).regionOf 0 = some 1 := by decide

/-- A rim base whose PLL 1 is enabled and whose frame 0x40000100 has an error mark m at word 2. -/
def pllState (locked : Bool) (m : Nat) : State :=
  { State.reset with rim := {
      base := true, frames := [(0x40000100, 2 ^ 24)], pll := if locked then [(1, true)] else []
      bad := if m = 0 then [] else [(4 * 0x40000100 + 2, m)] } }

theorem witness_rimWatchesItself :
    nbit ((pllState true 0).pllFrame 1) 24 = true ∧ (pllState true 0).pllLocked 1 = true ∧
      (pllState false 0).pllLocked 1 = false ∧
    nbit ((pllState false 0).pllFrame 1) 24 = true ∧ nbit ((pllState true 0).pllFrame 2) 24 = false ∧
    kvGet false State.reset.rim.onehot 5 = false ∧ (upsets [] State.reset).nextFrame = none ∧
    (upsets [] (pllState true 1)).nextFrame = some 0x40000100 ∧
      kvGet 0 (upsets [] (pllState true 1)).rim.bad (4 * 0x40000100 + 2) = 1 ∧
    kvGet 0 (upsets [] (pllState true 2)).rim.bad (4 * 0x40000100 + 2) = 2 ∧
    nbits ((pllState true 0).treeFrame 2) 0 4 / 2 = 0 := by decide

/-- Bank 3 in a state, with a measured VCCIO, with or without a rim base (whose bank frame declares 1,200 mV). -/
def bankState (st : BankState) (base : Bool) (mv : Nat) : State :=
  { State.reset with rim := { base := base, banks := if st = .off then [] else [(3, { st := st, vccmv := mv })] } }

theorem witness_banksFollowPower :
    ((bankState .off false 0).bank 3).st = .off ∧ ((bankState .unrel false 1200).bank 3).st = .unrel ∧
    (bankState .unrel false 1200).rim.base = false ∧ (bankState .unrel true 1200).rim.base = true ∧
    (bankState .unrel true 1200).vccOk 3 = true ∧ (bankState .unrel true 1500).vccOk 3 = false ∧
    ((bankState .released true 1200).bank 3).st = .released ∧ ((bankState .fault true 1200).bank 3).st = .fault := by decide

set_option maxRecDepth 4000 in
theorem witness_banksCheckKeyAndWires :
    ((bankState .check true 1200).bank 3).st = .check ∧ nbit ((bankState .check true 1200).bankFrame 3) 771 = false ∧
    (let s : State := { bankState .check true 1200 with rim := { base := true, banks := [(3, { st := .check })], frames := [(rfaOf 5 3 0, 1 <<< 771)] } }
     nbit (s.bankFrame 3) 771 = true ∧ (s.bank 3).st = .check) ∧
    ((bankState .released true 1200).bank 3).refused + 1 < 3 ∧ nbit ((bankState .released true 1200).bank 3).short 7 = false ∧
    3 ≤ (((bankState .released true 1200).modBank 3 fun x => { x with refused := 2 }).bank 3).refused + 1 ∧
    nbit (((bankState .released true 1200).modBank 3 fun x => { x with short := 128 }).bank 3).short 7 = true ∧
    ((bankState .check true 1200).fset F.DBG_STAT_EXTEST 1).fbit F.DBG_STAT_EXTEST = true := by decide

/-- Bank 0's queue with one access of master 8: a write of three bytes, or a read of an element of width 8; its word is
marked m. -/
def lexState (write : Bool) (m : Nat := 0) : State :=
  { State.reset with umem := {
      bad := if m = 0 then [] else [(0x40000020, m)]
      lexq := [⟨8, 5, write, 0x40000020, 2, if write then [1, 2, 3] else [], false⟩]
      rets := if write then [] else [⟨8, 12, false, [], false, false, 0x40000020, 2, 8⟩] } }

theorem witness_lexiconServesClauses :
    (upsets [] State.reset).umem.lexq.filter (fun x => lexBank x.addr == 0) = [] ∧
    (let u := upsets [] (lexState true)
     lexHeads 0 u.umem.lexq = [⟨8, 5, true, 0x40000020, 2, [1, 2, 3], false⟩] ∧ isLex 0x40000020 = true ∧
       isLex (0x40000020 + 3) = true ∧
       u.memMark 0x40000020 = 0) ∧
    (let u := upsets [] (lexState false)
     lexHeads 0 u.umem.lexq = [⟨8, 5, false, 0x40000020, 2, [], false⟩] ∧ u.memMark 0x40000020 = 0 ∧
       u.umem.rets = [] ++ ⟨8, 12, false, [], false, false, 0x40000020, 2, 8⟩ :: []) ∧
    (let u := upsets [] (lexState false 2)
     lexHeads 0 u.umem.lexq = [⟨8, 5, false, 0x40000020, 2, [], false⟩] ∧ u.memMark 0x40000020 = 2 ∧ u.seq.twostate = false ∧
       u.umem.rets = [] ++ ⟨8, 12, false, [], false, false, 0x40000020, 2, 8⟩ :: []) := by decide

/-- A waiting host access of n bytes, which has waited w cycles. -/
def nocAcc (write : Bool) (n w : Nat) : NocAcc :=
  { reply := .bar2 0, kind := 0, write := write, addr := 0x40000020, size := n, data := if write then List.replicate n 7 else []
    waited := w, starved := false, pos := 0, got := [], good := true }

/-- Bank 0 with one waiting host access. -/
def nocState (write : Bool) (n w : Nat) : State := { State.reset with umem := { nocq := [nocAcc write n w] } }

theorem witness_lexiconServesNetwork :
    ({ lexState true with umem := { (lexState true).umem with lexq := [⟨8, 5, true, 0x40000020, 2, [1], true⟩] } } : State).nocBlocked 0 = true ∧
    (upsets [] (nocState true 4 0)).nocBlocked 0 = false ∧ (upsets [] (nocState true 4 0)).memMark 0x40000020 = 0 ∧
    (upsets [] (nocState true 4 0)).umem.nocq = [nocAcc true 4 0] ∧
      (upsets [] (nocState false 4 0)).umem.nocq = [nocAcc false 4 0] ∧
    (nocAcc true 4 0).size = (nocAcc true 4 0).data.length ∧ isLex 0x40000020 = true ∧ isLex (0x40000020 + 4) = true ∧
    lexBank 0x40000020 = 0 ∧ (0x40000020 + 0) % 32 + (4 - 0) ≤ 32 ∧ 32 - (0x40000020 + 0) % 32 < (nocAcc false 64 0).size - 0 ∧
    (∀ x ∈ (upsets [] (nocState false 4 0)).umem.nocq, isLex x.addr = true → lexBank x.addr ≠ 1) ∧
    ((nocState false 4 70000).fset F.MEM_NOCWAIT_LIMIT 5).umem.nocq[0]? = some (nocAcc false 4 70000) ∧
    ((nocState false 4 70000).fset F.MEM_NOCWAIT_LIMIT 5).fget F.MEM_NOCWAIT_LIMIT = 5 := by decide

/-- One return of master 8, served and not arrived, its burst marked m. -/
def returnState (hbm : Bool) (m : Nat) : State :=
  { State.reset with umem := {
      rets := [⟨8, 200, hbm, List.replicate 128 v0, false, true, if hbm then 0x1000000000 else 0x40000000, 8, 4⟩]
      bad := if m = 0 then [] else [(0x1000000000, m)] } }

theorem witness_returnsAndCalibration :
    (let x : MemRet := ⟨8, 200, false, List.replicate 128 v0, false, true, 0x40000000, 8, 4⟩
     (returnState false 0).umem.rets = [] ++ x :: []) ∧ State.reset.umem.rets = [] ∧ (upsets [] State.reset).umem.rets = [] ∧
    (let x : MemRet := ⟨8, 200, true, List.replicate 128 v0, false, true, 0x1000000000, 8, 4⟩
     let u := upsets [] (returnState true 0)
     u.umem.rets = [] ++ x :: [] ∧ x ∈ u.hbmTracked (hbmStack x.addr) ∧ u.hbmHeld x.addr = false ∧ u.pageCopied x.addr = false ∧
       u.memMark x.addr = (returnState true 0).memMark x.addr) ∧
    (let x : MemRet := ⟨8, 200, true, List.replicate 128 v0, false, true, 0x1000000000, 8, 4⟩
     let u := upsets [.memUncorrectable 0x1000000000] (returnState true 0)
     u.umem.rets = [] ++ x :: [] ∧ x ∈ u.hbmTracked (hbmStack x.addr) ∧ u.hbmHeld x.addr = false ∧ u.pageCopied x.addr = false ∧
       (returnState true 0).memMark x.addr ≠ 2 ∧ u.memMark x.addr = 2 ∧ isLex x.addr = false ∧ u.seq.twostate = false) ∧
    (let s := State.reset.fset F.MEM_STAT_CAL_BUSY 2
     nbit (s.fget F.MEM_STAT_CAL_BUSY) 1 = true ∧ nbit (s.fget F.MEM_CAL_GO) 1 = false ∧
       ∀ x ∈ s.umem.nocq, isHbm x.addr = true → hbmStack x.addr ≠ 1) ∧
    (let x : NocAcc := { nocAcc false 4 0 with addr := 0x1000000000 + 0x600000000 }
     let s := { State.reset with umem := { nocq := [x] } }.fset F.MEM_STAT_CAL_BUSY 2
     nbit (s.fget F.MEM_STAT_CAL_BUSY) 1 = true ∧ s.umem.nocq = [x] ∧ isHbm x.addr = true ∧ hbmStack x.addr = 1 ∧
       x.addr % 32 + x.size ≤ 32 ∧ s.memMark x.addr = 0) ∧
    (let s := (State.reset.fset F.MEM_STAT_CAL_BUSY 2).fset F.MEM_CAL_GO 2
     nbit (s.fget F.MEM_STAT_CAL_BUSY) 1 = true ∧ nbit (s.fget F.MEM_CAL_GO) 1 = true ∧
       nbit (s.fget F.MEM_STAT_CAL_BUSY) 0 = false) ∧
    State.reset.fget F.MEM_STAT_CAL_BUSY = 0 ∧ State.reset.fget F.MEM_CAL_GO = 0 := by decide

theorem witness_lexiconWordsRetire :
    (State.reset.umem.lretReq = none ∧ kvGet none State.reset.umem.lexRet (255 * 8192 + 8191) = none ∧
      63 ∉ State.reset.lexSpares 255) ∧
    ({ State.reset with umem := { lretReq := some (3, 4, 5) } } : State).umem.lretReq = some (3, 4, 5) ∧
    kvGet none ({ State.reset with umem := { lexRet := [(3 * 8192 + 4, some 5)] } } : State).umem.lexRet (3 * 8192 + 4) ≠ none ∧
    (let s : State := { State.reset with umem := { lexRet := (List.range 64).map fun k => (k, some k) } }
     ∀ k, k < 64 → k ∈ s.lexSpares 0) := by decide

theorem witness_hbmPagesRetire :
    (State.reset.umem.hretReq = none ∧ State.reset.fget F.MEM_HRETPG_PAGE < State.reset.poolFirst ∧
      (State.reset.hbmSpares 3).length < 4096 ∧ (State.reset.hbmSpares 3).length < State.reset.poolPages ∧
      State.reset.poolFirst ≤ (State.reset.fset F.MEM_HRETPG_PAGE 6291455).fget F.MEM_HRETPG_PAGE) ∧
    (let s : State := { State.reset with umem := { hretReq := some (1, 7, 6291455) } }
     s.umem.hretReq = some (1, 7, 6291455) ∧ s.sound = true ∧ kvGet none s.umem.hbmRet (1 * 6291456 + 7) = none) ∧
    (let s : State := { State.reset with umem := { hretReq := some (1, 7, 6291455) } }
     ∀ a, ¬(0x1000000000 + 1 * 0x600000000 + 6291455 * 4096 ≤ a ∧ a < 0x1000000000 + 1 * 0x600000000 + 6291455 * 4096 + 4096) →
      ¬(0x1000000000 + 1 * 0x600000000 + 6291455 * 4096 ≤ s.phys a ∧
        s.phys a < 0x1000000000 + 1 * 0x600000000 + 6291455 * 4096 + 4096)) ∧
    kvGet none ({ State.reset with umem := { hbmRet := [(1 * 6291456, some 6291455)] } } : State).umem.hbmRet (1 * 6291456) ≠ none ∧
    ((State.reset.fset F.MEM_HSPARE_MIB 0).hbmSpares 1).length = 0 ∧ (State.reset.fset F.MEM_HSPARE_MIB 0).poolPages = 0 := by
  refine ⟨by decide, by decide, ?_, by decide, by decide, by decide⟩
  intro s a h
  have e : s.phys a = a := by
    unfold State.phys
    split <;> rfl
  rw [e]
  exact h

/-- Link 0 in a state of its bring-up. -/
def linkState (st : LnkState) : State := State.reset.setLink 0 { st := st }

theorem witness_linksComeUp :
    (State.reset.link 0).st = .off ∧ ((linkState .train).link 0).st = .train ∧ ((linkState .train).link 0).window = none ∧
    ((7 : BitVec 3), (3 : BitVec 3), 2, 1) ∈ [((7 : BitVec 3), (3 : BitVec 3), 2, 1), (3, 3, 2, 0), (5, 5, 1, 0), (6, 6, 0, 0)] ∧
    (1 : BitVec 3) ∈ [(0 : BitVec 3), 1, 2, 4] ∧ ((linkState .align).link 0).st = .align ∧
    ((linkState .ident).link 0).st = .ident ∧ (linkState .ident).load.job = none ∧ (State.reset.link 0).st ≠ .align ∧
    (State.reset.link 0).st ≠ .ident ∧ (State.reset.link 0).st ≠ .train := by decide

/-- Link 0 in a state of its bring-up, with or without a mode-change window. -/
def linkWindow (st : LnkState) (w : Option Nat) (other : Bool) : State :=
  State.reset.setLink 0 { st := st, window := w, otherMode := other }

theorem witness_linksFailAndResume :
    (let s := linkWindow .align none false; (s.link 0).st = .align ∧ (s.link 0).window = none) ∧
    (let s := linkWindow .align (some 5) false; (s.link 0).st = .align ∧ (s.link 0).window = some 5) ∧
    (let s := linkWindow .train (some 5) true
     s.load.job = none ∧ (s.link 0).st = .train ∧ (s.link 0).window = some 5 ∧ (s.link 0).otherMode = true) ∧
    (let s := linkWindow .ident (some 5) false
     s.load.job = none ∧ (s.link 0).st ∈ [.train, .align, .ident] ∧ (s.link 0).window = some 5 ∧
       (s.link 0).otherMode = false) ∧
    (let s := linkWindow .up (some 5) false; (s.link 0).window = some 5 ∧ (s.link 0).st = .up) ∧
    ((linkWindow .active none false).link 0).st = .active ∧ ((linkWindow .resume none false).link 0).st = .resume ∧
    ((Instr.resumeTimeout 0, 3) ∈ [(Instr.resumeTimeout 0, 3), (Instr.partnerOffReport 0, 4)]) ∧
    (let s := linkWindow .off none false
     (s.link 0).st ≠ .align ∧ (s.link 0).st ≠ .train ∧ (s.link 0).window = none ∧ s.load.job = none ∧ (s.link 0).st ≠ .resume ∧
       (s.link 0).st ∈ [.off, .train, .resume, .fail]) ∧
    Instr.resumeComplete 0 5 ∈ [Instr.resumeComplete 0 5, .resumeTimeout 0, .partnerOffReport 0] := by decide

/-- Link 0 in LITE mode, with or without a retry wanted. -/
def liteState (st : LnkState) (retry : Option Nat) : State := State.reset.setLink 0 { st := st, mode := 1, retry := retry }
/-- A superframe of a tag, with a credit and a CRC. -/
def someFrame (tag : BitVec 16) (crc : BitVec 16) (ctl : List (BitVec 64) := []) : Superframe :=
  { xt := 0, idle := false, credit := 1, tag := tag, nak := false, naktag := 0, payload := [], ctl := ctl, crc := crc, sync := 0xB4D2 }

theorem witness_superframesInSequence :
    (let s := State.reset; (s.link 0).st ≠ .up ∧ (s.link 0).st ≠ .active) ∧
    (let s := liteState .active none; (s.link 0).st = .active ∧ (s.link 0).mode = 1 ∧ (s.link 0).retry = none) ∧
    (let s := liteState .active (some 3); (s.link 0).st = .active ∧ (s.link 0).mode = 1 ∧ (s.link 0).retry = some 3) ∧
    (let s := State.reset.setLink 0 { st := .active }
     (s.link 0).st = .active ∧ (s.link 0).mode = 0 ∧ (s.link 0).retry = none) ∧
    fullStep 0 0 = some ((liteState .active none).link 0).expect ∧
    (let s := State.reset.setLink 0 { st := .active, mode := 1, expect := 8 }; 0 < (s.link 0).expect) ∧
    (let s := liteState .active none; fullStep s.seq.step 8 = some 8 ∧ (s.link 0).expect < 8) ∧
    ((liteState .up none).link 0).st ∈ [.up, .active, .resume] ∧ ((liteState .off none).link 0).st ∉ [.up, .active, .resume] ∧
    (someFrame 0 0).sync = 0xB4D2 ∧ { someFrame 0 0 with sync := 0 }.sync ≠ 0xB4D2 ∧
    (someFrame 0 0 [0xF000000000000000]).ctl.any ctlReserved = true := by decide

theorem witness_superframe_checks : ∃ c d, (someFrame 0 c).crc = sfCrc (someFrame 0 c) ∧
    (someFrame 0 d).crc ≠ sfCrc (someFrame 0 d) := by
  have h : ∀ c, sfCrc (someFrame 0 c) = sfCrc (someFrame 0 0) := fun _ => rfl
  generalize sfCrc (someFrame 0 0) = y at h
  have h1 : ∀ x : BitVec 16, x + 1 ≠ x := by intro x; bv_omega
  refine ⟨y, y + 1, ?_, ?_⟩
  · rw [h]; rfl
  · rw [h]; exact h1 y

/-- Link 0 UP, used and released, with a slot map of latency 32. -/
def slotState : State :=
  State.reset.setLink 0 {
    st := .up, released := true
    slot := { en := true, mode := 0, srx := 0, stx := 0, lat := 32, peer := 0, txl := [], rxl := [] } }

theorem witness_linkWordsTakeEffect :
    ((linkState .up).link 0).st ∈ [LnkState.up, .active] ∧ (linkState .up).seq.lastFence ≠ some 40 ∧
    (linkState .up).seq.step ≤ 40 ∧ (linkState .up).seq.fence = none ∧
    ({ State.reset with seq := { lastFence := some 40 } } : State).seq.lastFence = some (40 : DWord).toNat ∧
    ((linkState .active).link 0).st ∈ [LnkState.up, .active, .resume] ∧ ((linkState .active).link 0).restored = none ∧
    (slotState.link 0).st = .up ∧ (slotState.link 0).slot.en = true ∧ (slotState.link 0).released = true ∧
    (slotState.link 0).dropped = false ∧ (slotState.link 0).restored = none ∧
    (0x80000020 : Word).getLsbD 31 = true ∧ fieldOf (0x80000020 : Word) 27 1 = (slotState.link 0).slot.mode ∧
    fieldOf (0x80000020 : Word) 20 7 = (slotState.link 0).slot.stx ∧
      fieldOf (0x80000020 : Word) 13 7 = (slotState.link 0).slot.srx ∧
    fieldOf (0x80000020 : Word) 0 13 = (slotState.link 0).slot.lat ∧
      fieldOf (0x80000028 : Word) 0 13 ≠ (slotState.link 0).slot.lat ∧
    (State.reset.link 0).st ∉ [LnkState.up, .active, .resume] ∧ State.reset.fbit F.LNK_DEVNUM_ROOT = false ∧
    State.reset.rsvChanged 0xE00028 0x80000005 = false ∧
    (let s := (State.reset.fset F.LNK_DEVNUM_ROOT 1).fset F.LNK_DEVNUM_START 1
     s.fbit F.LNK_DEVNUM_ROOT = true ∧ s.fbit F.LNK_DEVNUM_START = true ∧ 0 = s.fget F.LNK_DEVNUM_NUM) := by decide

/-- The ring of the example at R259: P, Q, R, S. -/
def ring : List TopoLink := [⟨0, 3, 1, 20⟩, ⟨0, 17, 3, 6⟩, ⟨1, 9, 2, 5⟩, ⟨3, 30, 2, 7⟩]

theorem witness_topoRing :
    topoNums 0 true [0, 0, 0, 0] ring = ([(0, 0, 0), (1, 1, 1), (3, 2, 1), (2, 3, 2)], false) ∧
    topoRecords (topoNums 0 true [0, 0, 0, 0] ring).1 ring = [(0, 1), (0, 2), (1, 3), (2, 3)] ∧
    (topoNums 0 true [0, 0, 0, 0] ring).1.find? (fun e => e.1 == 2) = some (2, 3, 2) ∧
    (topoNums 0 true [0, 0, 0, 0] ring).1.find? (fun e => e.1 == 4) = none := by decide

/-- Link 0 with or without a spare that trained and a sparing action. -/
def spareState (st : LnkState) (ok auto : Nat) (act : Option Sparing) : State :=
  (((State.reset.setLink 0 { st := st, lanes := 3, sparing := act, retrain := some 4 }).fset (F.LNK_STAT_SPARE 0) 2).fset
    (F.LNK_STAT_SPARE_OK 0) ok).fset (F.LNK_CTL_AUTOSPARE 0) auto

theorem witness_lanesSpare :
    (let s := spareState .up 1 0 none
     (s.link 0).st ∈ [.up, .active] ∧ (s.link 0).sparing = none ∧ 1 ≠ s.fget (F.LNK_STAT_SPARE 0) ∧
       s.fbit (F.LNK_STAT_SPARE_OK 0) = true ∧ (s.link 0).retrain = some 4 ∧ (s.link 0).st ≠ .off ∧ (s.link 0).st ≠ .fail) ∧
    (let s := spareState .active 0 0 none
     s.fbit (F.LNK_STAT_SPARE_OK 0) = false ∧ (s.link 0).st = .active ∧ s.fbit (F.LNK_CTL_AUTOSPARE 0) = false ∧
       2 = s.fget (F.LNK_STAT_SPARE 0)) ∧
    (let s := spareState .active 1 1 none
     (s.link 0).st = .active ∧ s.fbit (F.LNK_CTL_AUTOSPARE 0) = true ∧ (s.link 0).sparing = none ∧
       1 ≠ s.fget (F.LNK_STAT_SPARE 0)) ∧
    (let s := spareState .up 1 0 (some { lane := 1, byGo := true, accepted := false, since := 0 })
     (s.link 0).sparing = some { lane := 1, byGo := true, accepted := false, since := 0 }) ∧
    (State.reset.link 0).st = .off ∧ (State.reset.link 0).sparing = none := by decide

/-- A capture region of 4 KiB, with a buffered line and a stop at step e. -/
def capState (on : Bool) (stopAt : Option Nat) (n : Nat) : State :=
  { State.reset with cap := {
      sigBase := 0x1000000000, sigLog := 12, mtBase := 0x1000001000, mtLog := 12
      sig := { on := on, stopAt := stopAt, buf := List.replicate n 7#64 }
      mt := { buf := List.replicate 64 9#8 } } }

set_option maxRecDepth 4000 in
theorem witness_tracesStartStopDrain :
    regionFault State.reset.cap.sigBase State.reset.cap.sigLog State.reset.cap.mtBase State.reset.cap.mtLog
      (!State.reset.fbit F.CAP_SIGCTL_LOSSY && State.reset.fbit F.CAP_SIGCTL_WRAP) = some 1 ∧
    (let s := capState false none 0
     regionFault s.cap.sigBase s.cap.sigLog s.cap.mtBase s.cap.mtLog
       (!s.fbit F.CAP_SIGCTL_LOSSY && s.fbit F.CAP_SIGCTL_WRAP) = none ∧ s.cap.sig.on = false ∧
       s.cap.sig.stopMark ≠ some s.seq.step ∧ s.cap.sig.lost = none ∧
       regionFault s.cap.mtBase s.cap.mtLog s.cap.sigBase s.cap.sigLog false = none ∧ s.cap.mt.on = false) ∧
    ((capState true none 0).cap.sig.on = true ∧ (capState true none 0).cap.sig.stopAt = none) ∧
    (let s := capState true none 0
     regionFault s.cap.sigBase s.cap.sigLog s.cap.mtBase s.cap.mtLog
       (!s.fbit F.CAP_SIGCTL_LOSSY && s.fbit F.CAP_SIGCTL_WRAP) = none ∧ s.cap.sig.on = true) ∧
    (let s := capState true (some 5) 0; s.cap.sig.stopAt = some 5 ∧ s.seq.step < 5) ∧
    (let s := capState true (some 0) 0
     s.cap.sig.stopAt = some 0 ∧ 0 ≤ s.seq.step ∧ (s.cap.sig.buf.length + 24) / 8 ≤ s.sigFree) ∧
    (let s := capState true none 8
     0 = s.fget F.CAP_SIGWP_WP ∧ 0x1000000000 = s.cap.sigBase + 64 * 0 ∧ isHbm 0x1000000000 = true ∧
       8 ≤ s.cap.sig.buf.length ∧ s.sigRoom = true ∧ s.hbmHeld 0x1000000000 = false ∧ s.memClosed 2 0x1000000000 64 = false) ∧
    (let s := capState true none 0
     s.cap.sig.buf.length < 8 ∧ 0 = s.fget F.CAP_MTWP_WP ∧ 0x1000001000 = s.cap.mtBase + 64 * 0 ∧ isHbm 0x1000001000 = true ∧
       64 ≤ s.cap.mt.buf.length ∧ s.mtRoom = true ∧ s.hbmHeld 0x1000001000 = false ∧ s.memClosed 2 0x1000001000 64 = false) ∧
    (State.reset.cap.sig.buf.length < 8 ∧ State.reset.cap.mt.buf.length < 64 ∧ State.reset.cap.mt.lost = none) ∧
    (let s : State := { State.reset with cap := { sig := { lost := some (3, 5, 2) } } }
     s.cap.sig.lost = some (3, 5, 2) ∧ s.capFill + 24 ≤ capBufBytes) := by decide

/-- Unit 0 with an action, a source kind and matches seen; bank 0 has power. -/
def unitState (st : TuState) (act hold : Nat) (due : List (Nat × Nat × Nat × Nat)) : State :=
  (((((({ State.reset with
      cap := { units := kvSet {} [] 0 { st := st, due := due } }
      rim := { banks := kvSet {} [] 0 { st := .unrel } }
      seq := { step := 9 } } : State).fset (F.CAP_TUCTL_EN 0) (if st = .off then 0 else 1)).fset
    (F.CAP_TUCTL_ACT 0) act).fset (F.CAP_TUCTL_COND 0) 1).fset (F.CAP_TUSRC_KIND 0) 1).fset (F.CAP_TUHOLD_HOLD 0) hold).fset
    F.CAP_EVTEN_TRIG 1

set_option maxRecDepth 4000 in
theorem witness_triggerUnitsFire :
    (unitState .armed 0 0 []).fbit (F.CAP_TUCTL_EN 0) = true ∧ (unitState .off 0 0 []).fbit (F.CAP_TUCTL_EN 0) = false ∧
    (tuCtlFields 0 0xE000 (unitState .off 0 0 [])).tuInvalid 0 = true ∧ 6 ≤ fieldOf (0xE000 : Word) 13 3 ∧
    (tuCtlFields 0 0x2000 State.reset).tuInvalid 0 = false ∧ (State.reset.bank 0).st = .off ∧
    (let s := unitState .armed 0 0 []
     (s.bank 0).st ≠ .off ∧ (s.unit 0).st ≠ .off ∧ s.fbit (F.CAP_TUSRC_KIND 0) = true ∧ s.fget (F.CAP_TUSRC_BANK 0) = 0 ∧
       s.fget (F.CAP_TUSRC_PIN 0) = 0 ∧ s.fget (F.CAP_TUTHR_HI 0) = 0 ∧ (s.unit 0).level = false ∧
       s.fget (F.CAP_TUCTL_COND 0) = 1 ∧ s.fget (F.CAP_TUCTL_POL 0) ∈ [0, 2]) ∧
    (let s := unitState .armed 1 5 [(3, 4, 0, 0)]
     (s.unit 0).due = [(3, 4, 0, 0)] ∧ (s.unit 0).st = .armed ∧ s.fget (F.CAP_TUCTL_ACT 0) = 1 ∧ s.cap.sig.on = false ∧
       s.tuPosted 0 = false ∧ s.fbit F.CAP_EVTEN_TRIG = true) ∧
    (unitState .armed 0 5 [(3, 4, 0, 0)]).fget (F.CAP_TUCTL_ACT 0) = 0 ∧
    (let s := unitState .holdoff 0 5 [(3, 4, 0, 0)]; (s.unit 0).st = .holdoff ∧ s.tuHeld 0 3 4 = false) ∧
    (let s := unitState .holdoff 0 0 []
     (s.unit 0).st = .holdoff ∧ (s.unit 0).due = [] ∧ s.tuHeld 0 s.seq.step s.ptime = true) ∧
    (let s := unitState .off 0 0 []
     s.rsvChanged 0x1100100 0x8000E000 = false ∧ s.rsvChanged 0x1100100 0x80002000 = false ∧
       s.rsvChanged 0x1100104 0x405 = false ∧
       s.rsvChanged 0x1100108 7 = false ∧ s.rsvChanged 0x110010C 7 = false ∧ s.rsvChanged 0x1100110 0x100020 = false ∧
       s.rsvChanged 0x1100114 7 = false ∧ (0x8000E000 : Word).getLsbD 31 = true ∧ (s.unit 0).st ≠ .holdoff ∧ (s.unit 0).due = [] ∧
       s.tuStands 0 (32 * s.ptime + 3 % 32) = false) := by decide

theorem witness_triggerUnits_alone : ∀ v, v ≠ 0 → ((unitState .armed 0 0 []).unit v).st = .off := by
  intro v hv
  simp [unitState, State.unit, kvGet_kvSet, hv]
  rfl

/-- Passwords allowed up to level 2, with n failures so far and perhaps an exchange of the host path. -/
def authState (n : Nat) (k : Option Keyx) : State :=
  { State.reset with dbg := { keyx := k } }.fset F.DBG_AUTH_FAILS n

theorem witness_debugLevelsGranted :
    (authState 0 (some ⟨.host, 2, 0, []⟩)).authBusy .tap = true ∧ 8 ≤ (authState 8 none).fget F.DBG_AUTH_FAILS ∧
    (let s := authState 0 none
     s.authBusy .tap = false ∧ s.fget F.DBG_AUTH_FAILS < 7 ∧ 0 < s.pwMax ∧ 1 ≤ s.pwMax ∧ s.level .tap ≤ 1 ∧
       s.pwMax < 3) ∧
    (authState 7 none).fget F.DBG_AUTH_FAILS = 7 ∧
    (let s := authState 0 (some ⟨.host, 2, 0, List.replicate 32 0⟩)
     s.dbg.keyx = some ⟨.host, 2, 0, List.replicate 32 0⟩ ∧ Path.host ≠ Path.tap ∧
       itemBytes s.dbg.sa 2 = List.replicate 32 0 ∧ s.level .host ≤ 2) ∧
    (let s := authState 0 (some ⟨.host, 2, 0, []⟩); s.dbg.keyx = some ⟨.host, 2, 0, []⟩ ∧ itemBytes s.dbg.sa 2 ≠ []) ∧
    State.reset.dbg.keyx = none := by decide

/-- A device whose fuses hold a hash h of the password (R421). -/
def hashState (h : Nat) : State :=
  { State.reset with sec := { fuses := (List.range 8).map fun k => (12 + k, BitVec.ofNat 32 (h / 2 ^ (32 * k))) } }

theorem ofLe_digits (n h : Nat) : ofLe ((List.range n).map fun i => BitVec.ofNat 8 (h / 256 ^ i)) = h % 256 ^ n := by
  induction n generalizing h with
  | zero => simp [ofLe, Nat.mod_one]
  | succ n ih =>
    rw [List.range_succ_eq_map, List.map_cons, List.map_map]
    have : ((fun i => BitVec.ofNat 8 (h / 256 ^ i)) ∘ Nat.succ) = fun i => BitVec.ofNat 8 ((h / 256) / 256 ^ i) := by
      funext i
      simp [Nat.div_div_eq_div_mul, Nat.pow_succ, Nat.mul_comm]
    rw [this]
    show (BitVec.ofNat 8 (h / 256 ^ 0)).toNat + 256 * ofLe _ = _
    rw [ih, Nat.pow_succ, Nat.mul_comm (256 ^ n), Nat.mod_mul]
    simp

theorem hashState_bytes (h : Nat) : (hashState h).fuseBytes 48 32 =
  (List.range 32).map fun i => BitVec.ofNat 8 (h / 256 ^ i) := by
  unfold State.fuseBytes
  apply List.map_congr_left
  intro i hi
  have hi : i < 32 := by simpa using hi
  apply BitVec.eq_of_toNat_eq
  simp only [BitVec.toNat_ofNat]
  have e : ∀ k, k < 8 → (hashState h).fuseWord (12 + k) = BitVec.ofNat 32 (h / 2 ^ (32 * k)) := by
    intro k hk
    interval_cases k <;> rfl
  unfold State.fuseByte
  rw [show (48 + i) / 4 = 12 + i / 4 by omega, e _ (by omega)]
  unfold fieldOf nbits
  rw [BitVec.toNat_ofNat, Nat.shiftRight_eq_div_pow]
  interval_cases i <;> norm_num <;> omega

theorem hashState_low (h k : Nat) (hk : k < 8) : (hashState h).fuseWord k = State.reset.fuseWord k := by
  interval_cases k <;> rfl

theorem hashState_serial (h : Nat) : (hashState h).serial = State.reset.serial := by
  unfold State.serial State.fuseBytes
  congr 1

theorem hashState_pwMax (h : Nat) : (hashState h).pwMax = State.reset.pwMax := by
  unfold State.pwMax State.fuseByte
  rw [hashState_low _ _ (by omega)]

theorem witness_passwordMatches : ∃ s : State, s.authBusy .tap = false ∧ s.fget F.DBG_AUTH_FAILS = 0 ∧ 0 < s.pwMax ∧ 1 ≤ s.pwMax ∧
    s.pwMatches = true ∧ s.level .tap = 0 := by
  have hm : State.reset.pwMax = 2 := by decide
  refine ⟨hashState (Config.sm3 (leBytes 8 State.reset.serial ++ itemBytes [] 2)).toNat, rfl, rfl, ?_, ?_, ?_, rfl⟩
  · rw [hashState_pwMax, hm]; decide
  · rw [hashState_pwMax, hm]; decide
  · unfold State.pwMatches
    rw [hashState_bytes, ofLe_digits, hashState_serial, beq_iff_eq]
    exact (Nat.mod_eq_of_lt (Config.sm3 (leBytes 8 State.reset.serial ++ itemBytes [] 2)).isLt).symm

/-- A stopped device with clause 0 loaded, one queued cycle entry, and the TAP path at a level. -/
def arrState (level : Nat) (mig : Bool) (arr : Option ArrOp) (forces : Kv (Option Val)) : State :=
  { State.reset with
    seq := { st := .stopped }
    clauses := [(0, {
      loaded := true, cq := [{ bp := 3, dst := 4, bank := 0, val := v0 }]
      mig := if mig then some ⟨511, false⟩ else none })]
    dbg := { tapLevel := level, arr := arr, forces := forces } }

set_option maxRecDepth 4000 in
theorem witness_arraysUnderDebug :
    (arrState 0 false none []).level .tap < 2 ∧ (Instr.relall .tap, 5) ∈ [(Instr.relall .tap, 5)] ∧
      State.reset.seq.st ∉ [SeqState.ready, .stopped, .dbgHold] ∧
    (let s := arrState 2 false none []
     s.dbg.arr = none ∧ s.arrRefusal ⟨.tap, 0, 0, 3, false, 7, v0⟩ = none ∧ s.arrRefusal ⟨.tap, 1, 0, 3, false, 7, v0⟩ = none ∧
       s.arrRefusal ⟨.tap, 2, 0, 3, false, 7, v0⟩ = none ∧ s.arrRefusal ⟨.tap, 3, 0, 3, false, 7, v0⟩ = some 6 ∧
       s.arrRefusal ⟨.tap, 4, 0, 3, false, 0, v0⟩ = none ∧ (s.clause 0).mig = none ∧
       ((s.clause 0).cq.filter fun e => e.bp == 3)[0 % 32]? = some { bp := 3, dst := 4, bank := 0, val := v0 } ∧
       2 ≤ s.level .tap ∧ s.seq.st ∈ [.ready, .stopped, .dbgHold] ∧ s.closedTo 2 0 = false) ∧
    (arrState 2 false none [(forceKey 0 (vsKey 3 0 7), some v0)]).arrRefusal ⟨.tap, 3, 0, 3, false, 7, v0⟩ = none ∧
    (let s := arrState 2 true none []
     s.dbg.arr = none ∧ s.arrRefusal ⟨.tap, 0, 0, 3, false, 7, v0⟩ = none ∧ (s.clause 0).mig ≠ none) ∧
    (let a : ArrOp := ⟨.tap, 0, 0, 3, false, 7, v0⟩
     (arrState 2 true (some a) []).dbg.arr = some a ∧ ((arrState 2 true (some a) []).clause 0).mig ≠ none ∧
       ((arrState 2 false (some a) []).clause 0).mig = none ∧ (arrState 2 false (some a) []).arrRefusal a = none) := by decide

/-- A device in DBG_HOLD or stepping, with the TAP path at a level and pair 0 halted or asked to halt. -/
def haltState (st : SeqState) (level : Nat) (halted : Bool) (req : Option Nat) : State :=
  { State.reset with
    seq := { st := st, depth := 8 }
    dbg := { tapLevel := level }
    mgt := { pairs := [(0, { halted := halted, haltReq := req, priv := 1 })] } }

set_option maxRecDepth 4000 in
theorem witness_debugRunControl :
    (haltState .running 0 false none).level .tap < 1 ∧
    (let s := haltState .running 3 false none
     1 ≤ s.level .tap ∧ s.seq.st ∈ [SeqState.running, .ellipsis] ∧ s.xtChannels 5 = [] ∧ s.seq.st ≠ .dbgHold ∧
       2 ≤ s.level .tap ∧ (s.pair 0).halted = false ∧ (s.pair 0).haltReq = none ∧ s.pairLevel 0 ≤ s.level .tap) ∧
    (haltState .ready 3 false none).seq.st ∉ [SeqState.running, .ellipsis] ∧
    (let s := haltState .dbgHold 3 false none
     let u := seqResume 1 s
     s.seq.st = .dbgHold ∧ s.seq.depth ≠ 0 ∧
       s.seq.fence = none ∧
       ({ u with seq := { u.seq with haltAt := some ((s.seq.step + 1) % 2 ^ 64, 0) } } : State).causes = []) ∧
    (let s := { haltState .dbgHold 3 false none with
       seq := { (haltState .dbgHold 3 false none).seq with step := 9, fence := some (8, 0) } }
     1 ≤ s.level .tap ∧ s.seq.st = .dbgHold ∧ s.seq.fence = some (8, 0) ∧ 8 < s.seq.step) ∧
    (let s := { haltState .dbgHold 3 false none with plt := { clockHold := true } }
     let u := seqResume 1 s
     ({ u with seq := { u.seq with haltAt := some ((s.seq.step + 1) % 2 ^ 64, 0) } } : State).causes ≠ []) ∧
    (let s := { haltState .ready 3 false none with mgt := { fpa := [(0, some { line := 0, brk := true, en := true, data := [] })] } }
     3 ≤ s.topLevel ∧ s.mgt.breaks = true ∧ (s.pair 0).halted = false ∧ (s.pair 1).halted = false) ∧
    ((haltState .ready 2 true none).pair 0).halted = true ∧ (haltState .ready 2 true none).topLevel < 3 ∧
    (haltState .ready 2 true none).mgt.breaks = false ∧
    (let s := haltState .ready 2 false (some 0)
     (s.pair 0).haltReq = some 0 ∧ max s.dbg.tapLevel s.dbg.hostLevel < 3 ∧ s.cap.mt.on = false ∧ s.xtChannels (3 + 0) = []) ∧
    (let s := haltState .ready 2 true none; (s.pair 0).halted = true ∧ s.pairLevel 0 ≤ s.level .tap) := by decide

/-- Both paths at a level, the engine's address in control SRAM, channel 0 routed from its pin to its output pin. -/
def tapState (level : Nat) : State :=
  ((({ State.reset with dbg := { tapLevel := level, hostLevel := level } } : State).fset F.DBG_AADDR0_ADDR 0x80000000).fset
    (F.DBG_XT_IN 0) 2).fset (F.DBG_XT_OUT 0) 8

/-- An access of the host path waits at a lexicon bank. -/
def engineWaits : State := nocEnqueue (.debug .host) 5 0x40000000 4 false [] State.reset

set_option maxRecDepth 4000 in
theorem witness_tapAndAccessEngine :
    nbit (State.reset.fget (F.DBG_XT_IN 0)) 1 = false ∧
    (let s := tapState 2
     nbit (s.fget (F.DBG_XT_IN 0)) 1 = true ∧ s.fget (F.DBG_XT_OUT 0) = 8 ∧ s.fbit F.CAP_MTCTL_START_EN = false ∧
       s.fbit F.CAP_MTCTL_STOP_EN = false ∧ s.fbit F.DBG_STAT_EXTEST = false ∧ s.dbgWaits .tap = false ∧
       isCtlSram (0x80000005 - 0x80000005 % 4) = true ∧ 2 ≤ s.dbg.tapLevel ∧ s.sramBad 0x80000004 4 = [] ∧
       s.dbgWaits .host = false ∧ 0x80000000 = s.fget F.DBG_AADDR0_ADDR ∧ s.fget F.DBG_AADDR1_ADDR = 0 ∧
       isCtlSram (0x80000000 - 0x80000000 % 4) = true ∧ 2 ≤ s.dbg.hostLevel ∧ s.sramBad 0x80000000 4 = []) ∧
    (let s := (tapState 0).fset (F.DBG_XT_OUT 0) 1
     nbit (s.fget (F.DBG_XT_IN 0)) 1 = true ∧ s.fget (F.DBG_XT_OUT 0) = 1 ∧ (s.pair 0).halted = false) ∧
    (let s := { (tapState 0).fset (F.DBG_XT_OUT 0) 4 with seq := { st := .running, depth := 8 } }
     nbit (s.fget (F.DBG_XT_IN 0)) 1 = true ∧ s.fget (F.DBG_XT_OUT 0) = 4 ∧ s.seq.st ∈ [SeqState.running, .ellipsis] ∧
       s.xtChannels 5 = []) ∧
    (nocEnqueue (.debug .tap) 5 0x40000000 4 false [] State.reset).dbgWaits .tap = true ∧
    (tapState 0).dbg.tapLevel < 1 ∧ (tapState 0).dbg.hostLevel < 1 ∧
      ((tapState 2).fset F.DBG_STAT_EXTEST 1).fbit F.DBG_STAT_EXTEST = true ∧
    engineWaits.dbgWaits .host = true := by decide

/-- A packet. -/
def somePacket (op cls addr dst size : Nat) (e2e : Bool) (data : List Byte) : Packet :=
  { addr := addr, dst := dst, src := 64, sep := 0, tid := 5, cls := cls, age := 3, epoch := false, e2e := e2e, op := op
    status := 0, size := size, payload := data, poison := false, crcOk := !e2e }

/-- One packet at the inputs, or at the endpoints, of a router. -/
def waitState (r : Nat) (p : Packet) : State := { State.reset with noc := { wait := [(r, [⟨p, 4⟩])] } }
def rxState (r : Nat) (p : Packet) : State := { State.reset with noc := { rx := [(r, [⟨p, 4⟩])] } }

set_option maxRecDepth 8000 in
theorem witness_packetsForwarded :
    (State.reset.noc.rsps = [] ∧ State.reset.noc.reqs = [] ∧ State.reset.chosen 3 1 = none ∧ State.reset.rxq 3 = []) ∧
    (waitState 4 (somePacket 1 0 0x40000000 4 32 false [])).chosen 4 4 = some ⟨somePacket 1 0 0x40000000 4 32 false [], 4⟩ ∧
    rtNext 3 1 = some (4, 3) ∧
    (waitState 3 (somePacket 2 0 0x40000000 4 32 false (List.replicate 32 1))).chosen 3 1 =
      some ⟨somePacket 2 0 0x40000000 4 32 false (List.replicate 32 1), 4⟩ ∧
    1 < packetFlits (somePacket 2 0 0x40000000 4 32 false (List.replicate 32 1)) ∧
    packetFlits (somePacket 1 0 0x40000000 4 32 false []) ≤ 1 ∧
    (waitState 4 (somePacket 1 0 0x40000000 4 32 true [])).chosen 4 4 = some ⟨somePacket 1 0 0x40000000 4 32 true [], 4⟩ ∧
    (waitState 3 (somePacket 1 0 0x40000000 4 32 true [])).chosen 3 1 = some ⟨somePacket 1 0 0x40000000 4 32 true [], 4⟩ ∧
    (rxState 4 (somePacket 1 0 0x40000000 4 32 true [])).rxq 4 = [⟨somePacket 1 0 0x40000000 4 32 true [], 4⟩] ∧
    opClass (somePacket 1 3 0x40000000 4 32 false []).op ≠ some 3 ∧
    (rxState 65 (somePacket 5 2 0 65 64 false [])).rxq 65 = [⟨somePacket 5 2 0 65 64 false [], 4⟩] ∧
    (rxState 70 (somePacket 3 1 0 70 4 false [])).noc.txns = [] ∧
    (let p := somePacket 1 0 0x80000000 66 4 false []
     isCtlSram p.addr = true ∧ (rxState 66 p).sramBad p.addr p.size = [] ∧
       (rxState 66 p).canSend 66 (response 66 p 0 (p.payload ++ List.replicate p.size 0)) = true) := by decide

/-- A port whose tree runs on a reference clock, with a transaction or not, and with mode changes that wait. -/
def portState (runs old : Bool) (txns : List Txn) (wait : Nat) : State :=
  ({ State.reset with
    noc := { txns := txns, modeWait := wait }
    rim := { base := true, frames := if runs then [(0x40000400, 24)] else [], banks := [(0, { st := .released })] } } : State).fsetb F.NOC_STAT_OLDBUSY old

set_option maxRecDepth 4000 in
theorem witness_networkModes :
    (let s := portState false false [] 0
     s.noc.rsps = [] ∧ s.noc.reqs = [] ∧ s.portRuns 0 = false ∧ s.noc.txns[0]? = none ∧ s.fbit F.NOC_STAT_OLDBUSY = false ∧
       s.noc.modeWait = 0 ∧ nbit s.noc.modeWait 5 = false) ∧
    (let s := portState true false [] 0
     s.portRuns 0 = true ∧ destOf 0x2800000000 = none ∧ destOf 0x1000000000 = some 68 ∧ s.portLoad 0 < 48 ∧
       s.canSend (rimRouter 0) (rimPacket ⟨0, false, 0x1000000000, 32, 3, []⟩ 68 (kvGet 0 s.noc.tid 0)) = true) ∧
    (let s := portState true false [⟨0, 7, 3, 0x1000000000⟩] 0
     s.noc.txns[0]? = some ⟨0, 7, 3, 0x1000000000⟩ ∧ s.portRuns 0 = true) ∧
    (let s := portState false false [⟨0, 7, 3, 0x1000000000⟩] 32
     s.noc.txns[0]? = some ⟨0, 7, 3, 0x1000000000⟩ ∧ s.portRuns 0 = false ∧ s.inFlight 5 ≠ 0) ∧
    (let s := portState true false [] 32; s.portRuns 0 = true ∧ nbit s.noc.modeWait 5 = true) ∧
    (let s := portState true true [] 0; s.fbit F.NOC_STAT_OLDBUSY = true ∧ s.oldCount = 0) ∧
    (let s := portState true false [] 32; s.noc.modeWait ≠ 0 ∧ s.noc.modeWait = 32 ∧ s.inFlight 5 = 0) := by decide

/-- Window 0 enabled at a base of 2^30 units; channel 3 in a state with two descriptors waiting; every domain powered. -/
def hostState (base : Nat) (st : DmaState) : State :=
  ((({ State.reset with hif := { bme := true, dma := [(3, { st := st, tail := 2 })] } } : State).fset (F.HIF_AWIN_EN 0) 1).fset
    (F.HIF_AWIN_BASE 0) base).fset F.PLT_PGSTAT_ON 0x3FFFFFFF

/-- A descriptor of an operation on four bytes of control SRAM. -/
def someDesc (op : Nat) : List Byte :=
  leBytes 4 (op * 2 ^ 28) ++ leBytes 4 4 ++ leBytes 8 0x1000 ++ leBytes 6 0x80000000 ++ leBytes 2 0 ++ leBytes 8 0

set_option maxRecDepth 8000 in
theorem witness_hostMovesData :
    State.reset.bar2Addr 0 = none ∧
    (let s := hostState 64 .idle
     s.bar2Addr 0x20 = some 0x1000000020 ∧ isHbm 0x1000000020 = true ∧ isHbm (0x1000000020 + 16 - 1) = true ∧ s.umem.bad = [] ∧
       s.umem.hbmRet = [] ∧ s.rangeHeld 0x1000000020 16 = false ∧
       (∀ p ∈ packetsOf 0x1000000020 16, s.hbmHeld p.1 = false) ∧
         (∀ p ∈ packetsOf 0x1000000020 16, s.busRefusal .hif false p.1 p.2 = none) ∧
       (∀ p ∈ packetsOf 0x1000000020 16, s.busRefusal .hif true p.1 p.2 = none)) ∧
    (let s := hostState 1 .idle
     s.bar2Addr 0x20 = some 0x40000020 ∧ isLex 0x40000020 = true ∧ isLex (0x40000020 + 16 - 1) = true ∧
       (∀ p ∈ packetsOf 0x40000020 16, s.busRefusal .hif false p.1 p.2 = none) ∧
       (∀ p ∈ packetsOf 0x40000020 16, s.busRefusal .hif true p.1 p.2 = none)) ∧
    (let s := (hostState 64 .idle).fset F.MEM_STAT_CAL_BUSY 15
     s.rangeHeld 0x1000000020 16 = true ∧ (∀ p ∈ packetsOf 0x1000000020 16, s.hbmHeld p.1 = true) ∧
       (∀ p ∈ packetsOf 0x1000000020 16, s.busRefusal .hif true p.1 p.2 = none)) ∧
    (let s := hostState 1 .idle
     s.fbit (F.HIF_DCTL_EN 3) = false ∧ s.rsvChanged 0x300230 0x80000000 = false ∧
       (s.fset (F.HIF_DCTL_EN 3) 1).fbit (F.HIF_DCTL_EN 3) = true ∧
       2 ^ s.dmaLog 3 ≤ fieldOf (16 : Word) 0 16 ∧ fieldOf (15 : Word) 17 15 = 0 ∧ fieldOf (15 : Word) 0 16 < 2 ^ s.dmaLog 3 ∧
       ringAhead (s.dmaLog 3) (ringPos (s.dmaLog 3) (s.dmaCh 3).head (s.dmaCh 3).hwrap)
         (ringPos (s.dmaLog 3) (fieldOf (15 : Word) 0 16) ((15 : Word).getLsbD 16)) ≤ 2 ^ s.dmaLog 3 ∧ (s.dmaCh 3).st ≠ .run) ∧
    (let s := hostState 1 .run
     (s.dmaCh 3).st = .run ∧ s.dmaFill 3 ≠ 0 ∧ s.hif.bme = true ∧ s.dmaFill 2 = 0 ∧ descBad (someDesc 0) = true ∧
       descBad (someDesc 1) = false ∧
       nbits (leAt (someDesc 1) 0 4) 28 4 = 1 ∧ leAt (someDesc 1) 16 6 = 0x80000000 ∧ leAt (someDesc 1) 4 4 = 4 ∧
       descBad (someDesc 2) = false ∧ nbits (leAt (someDesc 2) 0 4) 28 4 = 2 ∧ isCtlSram 0x80000000 = true ∧
       isCtlSram (0x80000000 + 4 - 1) = true ∧ s.mgt.bad = []) := by decide

/-- A record of a link change. -/
def someEv : Ev := { src := 3, code := 3, payload := [], step := 0, time := 0 }

/-- Ring 1 with 64 records, the producer at 62 and the consumer at 60, two records to a message, and INFO events routed to
it; a record held and one waiting (the worked example of R503). -/
def ringState (en : Bool) (bme : Bool) (prod : Nat) (wrap : Bool) (unsig : Nat) : State :=
  ((((({ State.reset with
    evq := [someEv]
    hif := {
      bme := bme
      held := [(0x12A00, someEv)]
      msiWait := [5]
      rings := [(1, { base := 0x10000, prod := prod, pwrap := wrap, cons := 60, unsig := unsig })] } } : State).fsetb
        (F.HIF_EVCFG_EN 1) en).fset (F.HIF_EVCFG_LOG2 1) 6).fset (F.HIF_EVCFG_CNT 1) 2).fset (F.HIF_EVCFG_TIME 1) 50).fset
    F.HIF_EVROUTE_RING 1

set_option maxRecDepth 8000 in
theorem witness_eventsReachRings :
    (let s := ringState true true 62 false 0
     s.evq[0]? = some someEv ∧ s.evq[1]? = none ∧ s.hif.held.length < 256 ∧
       s.hif.held = [(0x12A00, someEv)] ∧ s.ringWaited = none ∧ 1 = s.ringOf someEv ∧
       (s.msixWord (0x800 + 16 * s.fget (F.HIF_EVCFG_VEC 1) + 12)).getLsbD 0 = false ∧ (s.ring 1).unsig = 0 ∧
       s.hif.bme = true ∧ s.rsvChanged 0x300110 0x80000000 = false ∧ (∀ v ∈ s.hif.msiWait, v < 64) ∧
       (∀ v ∈ s.hif.msiWait, (s.msixWord (0x800 + 16 * v + 12)).getLsbD 0 = false)) ∧
    (let s := ringState true true 63 false 1
     s.ringWaited = none ∧ (s.ring 1).prod + 1 = 2 ^ s.ringLog 1 ∧ s.fget (F.HIF_EVCFG_CNT 1) ≤ (s.ring 1).unsig + 1 ∧
       s.fbit (F.HIF_EVCFG_EN 1) = true ∧ (s.ring 1).unsig ≠ 0) ∧
    (let s := ringState true true 60 true 0; s.ringWaited = some 1 ∧ s.fbit (F.HIF_EVCFG_EN 1) = true) ∧
    (let s := ringState false false 62 false 0
     s.ringWaited = some 1 ∧ s.ringWaited ≠ none ∧ s.fbit (F.HIF_EVCFG_EN 1) = false ∧ s.hif.bme = false) ∧
    (let s := ringState true true 62 false 0
     s.ringLog 1 = 6 ∧ ringPos 6 (fieldOf (62 : Word) 0 16) ((62 : Word).getLsbD 16) = 62 ∧
       ¬ s.ringFill 1 < ringAhead 6 (ringPos 6 (s.ring 1).cons (s.ring 1).cwrap) 62 ∧
       s.ringFill 1 < ringAhead 6 (ringPos 6 (s.ring 1).cons (s.ring 1).cwrap) 63) ∧
    State.reset.dbg.hostLevel = 0 := by decide

/-- A pair with its watchdog running; the fault log at its second record. -/
def mgtPairState (p : Nat) (x : Pair) : State :=
  ({ State.reset with now := 1500000000, mgt := { State.reset.mgt with pairs := [(p, x)], logPos := 1 } } : State).fset
    (F.MGT_WDT_EN p) 1

theorem witness_pairsRestart :
    (State.reset.pair 1).held = false ∧ (State.reset.pair 1).restarting = false ∧ (State.reset.pair 1).halted = false ∧
    (State.reset.pair 1).lastLock = none ∧ (State.reset.pair 1).kickLeft = none ∧ State.reset.fbit (F.MGT_WDT_EN 1) = false ∧
    (let s := mgtPairState 0 { lastLock := some 900000000 }
     (s.pair 0).lastLock = some 900000000 ∧ s.now < 900000000 + 1000000000) ∧
    (let s := mgtPairState 0 { lastLock := some 500000000 }
     (s.pair 0).lastLock = some 500000000 ∧ ¬ s.now < 500000000 + 1000000000) ∧
    (let s := mgtPairState 1 { restarting := true }
     (s.pair 1).restarting = true ∧ (s.pair 1).held = false ∧ (s.pair 0).held = false ∧ s.mgt.revert = none ∧
       s.mgt.logPos % 1024 ≠ 0) ∧
    (let s := { mgtPairState 1 { restarting := true } with mgt := { State.reset.mgt with pairs := [(1, { restarting := true }),
       (0, { held := true })] } }
     (s.pair 1).restarting = true ∧ (s.pair 1).held = false ∧ (s.pair 0).held = true) ∧
    (let s := { State.reset with mgt := { State.reset.mgt with pairs := [(0, { restarting := true })], revert := some 1 } }
     (s.pair 0).restarting = true ∧ (s.pair 0).held = false ∧ s.mgt.revert = some 1 ∧ s.mgt.logPos < 8192 ∧
       s.mgt.logPos % 1024 = 0) ∧
    (let s := mgtPairState 0 { kickLeft := some 1024, expired := true }
     (s.pair 0).kickLeft ≠ none ∧ s.fbit (F.MGT_WDT_EN 0) = true ∧ (s.pair 0).expired = true ∧ (s.pair 0).halted = false) ∧
    (let s := mgtPairState 1 { expired := false }
     s.fbit (F.MGT_WDT_EN 1) = true ∧ (s.pair 1).expired = false ∧ (s.pair 1).halted = false) ∧
    isCtlSram 0x8017FFFF = true ∧ isSecSram 0x80180000 = true ∧ isCtlSram 0x90000000 = false ∧ isSecSram 0x90000000 = false ∧
    kvGet false State.reset.mgt.bad 0 = false := by decide

/-- A flash command or a swap under way, or a staging write that was ignored. -/
def swapState (flash : Option (Nat × Nat × Nat)) (swap : Option Swap) (perm : Bool) : State :=
  { State.reset with mgt := { State.reset.mgt with flash := flash, swap := swap, perm := perm } }

set_option maxRecDepth 8000 in
theorem witness_flashAndSwap :
    (let s := swapState none none false
     s.mgt.flash = none ∧ s.mgt.swap = none ∧ s.mgt.perm = false ∧ s.mgt.taken = 0 ∧
       (s.fset F.MGT_FLADDR_ADDR 0xF000000).flashProt (flashRange 1 0xF000000).1 (flashRange 1 0xF000000).2 = true ∧
       (s.fset F.MGT_FLADDR_ADDR 0x70001).fget F.MGT_FLADDR_ADDR % 256 ≠ 0 ∧
       s.flashProt (flashRange 1 0x70001).1 (flashRange 1 0x70001).2 = false) ∧
    slotOf (fieldOf (0x08200000 : Word) 4 24 * 16) = some 1 ∧ State.reset.rsvChanged 0x200020 0x08200000 = false ∧
    (let s := swapState (some (1, 0x70000, 0x17FF00)) (some ⟨0x10000, 0, 1, 0, 0, 1, 7⟩) true
     s.mgt.flash = some (1, 0x70000, 0x17FF00) ∧ 0x17FF00 + 256 ≤ 0x180000 ∧
       (∀ i, i < (flashRange 1 0x70000).2 → isGolden ((flashRange 1 0x70000).1 + i) = false) ∧ s.mgt.perm = true ∧
       s.mgt.swap = some ⟨0x10000, 0, 1, 0, 0, 1, 7⟩) := by decide

/-- A request of a code in slot 2, with one committed fault-log record in flash. -/
def svcState (code : Nat) (a n a2 n2 : Nat) (src : Nat) : State :=
  (((({ State.reset with mgt := { State.reset.mgt with
    req := [(4, BitVec.ofNat 128 (code * 2 ^ 24 + 0x550000 + a * 2 ^ 32 + n * 2 ^ 96)),
            (5, BitVec.ofNat 128 (a2 + n2 * 2 ^ 64))] } } : State).fset F.MGT_SVC_GO 4).fset F.SCH_BOOT_SRC src).fset
    F.PLT_PGSTAT_ON 0x3FFFFFFF)

/-- An image with no patch, in a READY device. -/
def loadedImg (st : SeqState) (s : State) : State :=
  { s with
    load := { s.load with
      img := some ⟨1, 1, [], 1, 0, false, 0, 0, 0, [], [], [], []⟩ }
    seq := { s.seq with st := st } }

set_option maxRecDepth 8000 in
theorem witness_servicesAnswered :
    State.reset.svcDue 2 7 = false ∧
    ((svcState 2 0x1000000000 128 0 0 0).fset F.MEM_STAT_CAL_BUSY 15).svcFree 2 = false ∧
    (let s := svcState 6 0x1000000000 128 0 0 3; s.svcDue 2 6 = true ∧ s.svcFree 2 = true ∧ s.fget F.SCH_BOOT_SRC = 3) ∧
    (let s := svcState 6 0x1000000000 0 0 0 0; s.svcDue 2 6 = true ∧ s.svcFree 2 = true ∧ s.fget F.SCH_BOOT_SRC ≠ 3 ∧
      s.badArg 2 2 = true) ∧
    (let s := svcState 7 0 0 0 0 0; s.svcDue 2 7 = true ∧ s.svcFree 2 = true ∧ s.badArg 2 0 = false) ∧
    (let s := svcState 1 0x1000000000 528 0x800000000000 32 0
     s.svcDue 2 1 = true ∧ s.svcFree 2 = true ∧ s.badArg 2 6 = false ∧ s.load.job = none ∧ isUser (s.reqAddr2 2) = false ∧
       s.reqLen2 2 ≠ 0) ∧
    (let s := svcState 1 0x1000000000 528 0x1000004000 32 0
     s.svcDue 2 1 = true ∧ s.svcFree 2 = true ∧ s.badArg 2 6 = false ∧ s.load.job = none ∧ isHbm (s.reqAddr2 2) = true ∧
       0 < s.reqLen2 2 ∧ isHbm (s.reqAddr2 2 + s.reqLen2 2 - 1) = true ∧ s.umem.bad = []) ∧
    (let s : State := { svcState 1 0x1000000000 528 0 0 0 with
       load := { State.reset.load with job := some { boot := none, slot := 0, addr := 0, placement := none } } }
     s.svcDue 2 1 = true ∧ s.svcFree 2 = true ∧ s.badArg 2 6 = false ∧ s.load.job ≠ none) ∧
    (let s := svcState 6 0x1000000000 128 0 0 0
     s.svcDue 2 6 = true ∧ s.svcFree 2 = true ∧ s.badArg 2 2 = false ∧ 64 * min s.logRecs.length (s.reqLen 2 / 64) = 0 ∧
       isHbm (0x1000000000 + s.reqLen 2 - 1) = true ∧ s.umem.bad = [] ∧ s.umem.hbmRet = [] ∧
       (∀ p ∈ packetsOf 0x1000000000 128, s.busRefusal .control true p.1 p.2 = none)) := by
  decide

set_option maxRecDepth 8000 in
theorem witness_servicesAnswered_state :
    (let s := svcState 9 0x1000000000 384 0x800000000000 32 0
     s.svcDue 2 9 = true ∧ s.svcFree 2 = true ∧ s.badArg 2 6 = false ∧ 384 ≤ s.reqLen 2 ∧ s.reqLen2 2 = 32 ∧
       (s.pair 1).halted = false ∧
       isHost (s.reqAddr2 2) = true ∧ isHbm (0x1000000000 + s.reqLen 2 - 1) = true ∧
       (∀ p ∈ packetsOf 0x1000000000 384, s.busRefusal .security true p.1 p.2 = none) ∧
       ((s.modPair 1 fun x => { x with restarting := true }).pair 1).restarting = true) ∧
    (let s := svcState 5 0 0 0 0 0; s.svcDue 2 5 = true ∧ s.svcFree 2 = true ∧ s.badArg 2 9 = false ∧ s.reqArg1 2 ≤ 1 ∧
      s.load.img = none ∧
       s.stepping = false ∧ s.atPhase0 = true ∧ s.migRuns = false) ∧
    (let s := svcState 8 0x1000000000 4096 0 0 0; s.svcDue 2 8 = true ∧ s.svcFree 2 = true ∧ s.badArg 2 2 = false ∧
      s.load.img = none) ∧
    (let s := loadedImg .ready (svcState 8 0x1000000000 4096 0 0 0)
     s.svcDue 2 8 = true ∧ s.svcFree 2 = true ∧ s.badArg 2 2 = false ∧ s.load.img ≠ none ∧ s.seq.st = .ready ∧
       s.umem.hbmRet = [] ∧ s.sound = true) := by
  decide

/-- A boot attempt under way, with bytes of the flash. -/
def bootState (src : Nat) (job : Bool) (flash : List Host.Cell) : State :=
  { State.reset with
    flash := flash
    mgt := { State.reset.mgt with boot := some ⟨src, some 0, some 9, 7⟩ }
    load := { State.reset.load with
      job := if job then some { boot := some src, slot := 4, addr := 0, placement := none } else none } }

/-- The cells of the fault-log record of connection 5 with spare entry 17. -/
def spareRecord : List Host.Cell :=
  let b := logBytes 0 3 0 5 17 0 0 0
  ((List.range 64).map fun i => (0x80000 + i, b.getD i 0#8)).filter fun e => e.2 != 0xFF#8

set_option maxRecDepth 20000 in
theorem witness_firmwareMoves :
    (let s := svcState 2 0x800000000000 4 0 0 0
     s.svcDue 2 2 = true ∧ s.svcFree 2 = true ∧ s.fget F.SCH_BOOT_SRC ≠ 3 ∧ s.badArg 2 2 = false ∧
       isHost (s.reqAddr 2) = true ∧ 4 = s.reqLen 2 ∧
       s.updateSlot = 1) ∧
    (let s := svcState 2 0x1000000000 528 0 0 0
     s.svcDue 2 2 = true ∧ s.svcFree 2 = true ∧ s.badArg 2 2 = false ∧ isHbm (s.reqAddr 2) = true ∧
       isHbm (s.reqAddr 2 + s.reqLen 2 - 1) = true ∧ s.umem.bad = []) ∧
    (let s := svcState 3 0 0 0 0 0
     s.svcDue 2 3 = true ∧ s.svcFree 2 = true ∧ s.fget F.SCH_BOOT_SRC ≠ 3 ∧ s.badArg 2 0 = false ∧ s.mgt.taken = 0 ∧
       ({ s with mgt := { s.mgt with taken := 1 } } : State).svcDue 2 3 = true) ∧
    (let s := svcState 4 0x800000000000 4 0 0 0
     s.svcDue 2 4 = true ∧ s.svcFree 2 = true ∧ s.badArg 2 2 = false ∧ isHost (s.reqAddr 2) = true ∧ 4 = s.reqLen 2) ∧
    State.reset.mgt.boot = none ∧
    (let s := bootState 0 true []; s.mgt.boot = some ⟨0, some 0, some 9, 7⟩ ∧ s.load.job ≠ none) ∧
    (let s := bootState 3 true []; s.mgt.boot = some ⟨3, some 0, some 9, 7⟩) ∧
    (let s := bootState 2 false []; s.mgt.boot = some ⟨2, some 0, some 9, 7⟩ ∧ s.load.job = none ∧ s.logRecs = []) := by decide

set_option maxRecDepth 20000 in
theorem witness_faultLogRecord :
    let s := bootState 0 false spareRecord
    s.logRecs = [logBytes 0 3 0 5 17 0 0 0] ∧ leAt (logBytes 0 3 0 5 17 0 0 0) 8 1 = 3 ∧
      leAt (logBytes 0 3 0 5 17 0 0 0) 9 1 = 0 := by decide

/-- A load at a stage, of a header with a class, in a device whose clause 3 is loaded and active. -/
def jobState (stage : LoadStage) (cls : Nat) (due : Bool) : State :=
  let s : State := { State.reset with load := { State.reset.load with
    job := some { boot := none, slot := 1, addr := 0x800000000000, placement := none, stage := stage
                  hdr := List.replicate 8 0#8 ++ [BitVec.ofNat 8 cls], named := [3], due := due } } }
  { s with seq := { s.seq with st := .ready } }.modClause 3 fun x => { x with loaded := true, passed := true }

theorem witness_framesAreLoaded :
    State.reset.load.job = none ∧
    (let s := jobState .waiting 2 false
     (s.load.job.map fun j => (j.stage, j.cls, j.boot)) = some (.waiting, clsDesign, none) ∧ s.seq.ckpt = none ∧
       s.migRuns = false ∧ s.sch.patch = none) ∧
    (let s := jobState .waiting 3 false
     (s.load.job.map fun j => (j.stage, j.cls, j.boot)) = some (.waiting, clsReload, none) ∧ s.seq.ckpt = none ∧
       s.migRuns = false ∧ s.sch.patch = none) ∧
    (let s := jobState .header 2 false
     (s.load.job.map fun j => (j.stage, isUser (j.addr + 528 * j.wire), s.reloadWaits j)) = some (.header, false, false)) ∧
    (let s := jobState .header 2 false
     let t := { s with load := { s.load with job := s.load.job.map fun (j : LoadJob) => { j with addr := 0x1000000000 } } }
     (t.load.job.map fun j => (j.stage, isHbm (j.addr + 528 * j.wire), isHbm (j.addr + 528 * j.wire + 527),
       t.rangeHeld (j.addr + 528 * j.wire) 528, (t.fset F.MEM_STAT_CAL_BUSY 15).rangeHeld (j.addr + 528 * j.wire) 528)) =
       some (.header, true, true, false, true) ∧ t.umem.bad = []) ∧
    (let s := jobState .header 2 false
     let t := { s with load := { s.load with job := s.load.job.map fun (j : LoadJob) => { j with boot := some 1 } } }
     (t.load.job.map fun j => (j.stage, j.boot)) = some (.header, some 1) ∧ { t.mgt with flReset := 0 }.flReset = 0 ∧
       0 < { t.mgt with flReset := 5 }.flReset) ∧
    (let s := jobState .sections 3 true
     (s.load.job.map fun j => (j.stage, s.reloadWaits j, j.due)) = some (.sections, true, true) ∧ s.migRuns = false) ∧
    (let s := jobState .directory 3 false
     s.load.job.map (·.stage) = some .directory) := by decide

/-- A debug path of level 3 and bits to be programmed. -/
def secState (level data : Nat) : State :=
  ({ State.reset with dbg := { State.reset.dbg with tapLevel := level }
                      sec := { State.reset.sec with tokens := [(2, some ⟨7, 1, 0, 0, []⟩)] } } : State).fset F.SEC_FUSEDATA_DATA data

theorem witness_tokensAndFuses :
    (let s := secState 3 1
     leAt s.tokenBytes 0 4 ≠ 0x544B4B49 ∧ s.token 2 = some ⟨7, 1, 0, 0, []⟩ ∧ s.token 15 = none ∧
       s.fusePath (.dbg .tap) = some 0 ∧ s.fusePath .hif = none ∧ nbit (s.fget F.SEC_FUSEDATA_DATA) 0 = true ∧
       s.fuseLocked 127 0 = true) ∧
    (let s := secState 3 0x80000000
     s.fusePath (.dbg .tap) = some 0 ∧
       (∀ b, b < 32 → nbit (s.fget F.SEC_FUSEDATA_DATA) b = true → s.fuseLocked 101 b = false)) := by decide

theorem witness_unoccupiedAddresses :
    blockOf 0x500F00 ≠ none ∧ 0x500F00 % 4 = 0 ∧ findReg 0x500F00 = none ∧ isMbx 0x500F00 = false ∧ isMsix 0x500F00 = false ∧
    pageDomain 0x500F00 = none ∧ blockOf 0x1FFFFFF = none ∧ isAlias 0x1FFFFFF = false ∧ blockOf 0x700000 = none ∧
    isAlias 0x700000 = false ∧ Requester.security ≠ .hif := by decide

set_option maxRecDepth 8000 in
theorem witness_registersByCode :
    (let s := State.reset
     s.regRefusal .security 0x300010 4 = none ∧ isAlias 0x300010 = false ∧ isMbx 0x300010 = false ∧ isMsix 0x300010 = false ∧
       (findReg 0x300010).map (s.rsvBroken 0x300010 · 0x40) = some true ∧
       (findReg 0x1200040).map (s.rsvBroken 0x1200040 · 0xE0000000) = some false ∧
       badCode .security 0x1200040 0xE0000000 = true ∧ s.regRefusal .security 0x1200040 4 = none ∧
       pageDomain 0x1100000 = some 29 ∧ ((s.fset F.PLT_PGSTAT_ON 0).domOn 29) = false ∧
       fieldOf (0x3F : Word) 6 26 = s.fget ⟨0x300010, 6, 26, 0⟩ ∧ fieldOf (0x3F : Word) 6 26 = s.fget ⟨0x30000C, 6, 26, 0⟩ ∧
       s.rsvChanged 0xE00028 0x7FFFFFFF = true ∧ ctxOf .security = some 2 ∧ pageBase 0x500000 = 0x500000 ∧
         pageBase (0x500000 + 0xEC) = 0x500000 ∧
       pageBase (0x500000 + 0xF0) = 0x500000 ∧ s.regRefusal .security (0x500000 + 0xEC) 4 = none ∧
       s.regRefusal .security (0x500000 + 0xF0) 4 = none ∧ isMbx (0x500000 + 0xEC) = true ∧ isMbx (0x500000 + 0xF0) = true ∧
       isAlias (0x500000 + 0xF0) = false ∧ s.seq.step < 2 ^ 64) := by decide

/-- An operating-point change under way, in a device that steps or does not. -/
def oppState (opp : Option (Nat × Nat × OppStage)) (next : Option Nat) (st : SeqState) : State :=
  { State.reset with plt := { State.reset.plt with opp := opp, oppNext := next }, seq := { State.reset.seq with st := st } }

theorem witness_operatingPoints :
    (let s := oppState none none .ready
     s.plt.opp = none ∧ s.stepping = false ∧ s.fget F.PLT_STAT_OPPACT = 1) ∧
    (let s := oppState (some (1, 2, .rising)) none .running
     s.plt.opp = some (1, 2, .rising) ∧ s.plt.opp ≠ none ∧ s.stepping = true ∧ s.clockWaits = true) ∧
    (let s := oppState (some (1, 2, .rising)) none .stopped; s.clockWaits = false ∧ s.plt.oppNext = none) ∧
    (let s := oppState (some (1, 2, .rising)) (some 0) .stopped; s.clockWaits = false ∧ s.plt.oppNext = some 0) ∧
    (let s := oppState (some (2, 1, .falling)) (some 0) .stopped
     s.plt.oppNext = some 0 ∧ 0 < s.fget F.PLT_STAT_OPPACT) ∧
    (let s := oppState (some (2, 1, .falling)) (some 1) .running; s.plt.oppNext = some (s.fget F.PLT_STAT_OPPACT)) ∧
    (let s := oppState (some (2, 1, .falling)) (some 2) .running
     s.plt.oppNext = some 2 ∧ s.fget F.PLT_STAT_OPPACT < 2) ∧
    (List.replicate 32 (1 : Word)).length = 32 := by decide

theorem witness_sensorsAndThrottle :
    State.reset.plt.thermReq ≤ 15 ∧ State.reset.plt.powerReq ≤ 15 ∧ 760 = State.reset.fget F.PLT_THR_PLIM ∧
    100 = State.reset.fget F.PLT_THR_THOT ∧ 0 = State.reset.fget F.PLT_STAT_TMAX ∧
    (List.replicate 48 (1600 : BitVec 16)).length = 48 := by decide

/-- Root A active, with both roots, one or none of them good; platform time controls and a rate. -/
def rootState (a b : Bool) (busy : Bool) (mode load : Nat) (last : Option Nat) : State :=
  (((((({ State.reset with ptime := 1000000001, plt := { State.reset.plt with ppsLast := last } } : State).fsetb
    F.PLT_STAT_ROOTA_OK a).fsetb F.PLT_STAT_ROOTB_OK b).fsetb F.PLT_STAT_SW_BUSY busy).fset F.PLT_PTCTL_MODE mode).fset
    F.PLT_PTCTL_LOAD load)

/-- A link in UP with a good spare lane, and a stack whose temperature has moved. -/
def calState : State :=
  ((State.reset.modLink 5 fun x => { x with st := .up }).fset (F.LNK_STAT_SPARE_OK 5) 1).fset (htempFld 2) 40

set_option maxRecDepth 8000 in
theorem witness_rootsAndTime :
    (let s := rootState true true false 0 0 none
     s.fget F.PLT_STAT_ROOT = 0 ∧ s.rootOk 0 = true ∧ s.rootOk (1 - 0) = true ∧ s.fbit F.PLT_STAT_SW_BUSY = false ∧
       s.fbit F.PLT_PTCTL_LOAD = false ∧ s.fget F.PLT_PTCTL_MODE ≠ 1) ∧
    (let s := rootState true false false 1 0 none
     s.rootOk 0 = true ∧ s.rootOk (1 - 0) = false ∧ s.fget F.PLT_PTCTL_MODE = 1 ∧ s.plt.ppsLast = none) ∧
    (let s := rootState false true true 1 0 (some 0)
     s.rootOk 0 = false ∧ s.rootOk (1 - 0) = true ∧ s.fbit F.PLT_STAT_SW_BUSY = true ∧ s.plt.ppsLast = some 0 ∧
       (1 : Int) = (s.ptime : Int) - ((0 : Int) + 1000000000)) ∧
    (rootState true true false 0 1 none).fbit F.PLT_PTCTL_LOAD = true ∧
    (let s := calState
     s.calDeferred = false ∧ s.fget F.PLT_CAL_HBMMS ≠ 0 ∧ s.fget F.MEM_STAT_CAL_BUSY = 0 ∧ s.plt.calNext < 4 ∧
       s.tempMoved 2 = true ∧ s.tempMoved 3 = false ∧ s.fget F.PLT_CAL_LNKMS ≠ 0 ∧ (s.link 5).st = .up ∧
       s.fbit (F.LNK_STAT_SPARE_OK 5) = true ∧ (s.link 5).sparing = none ∧ s.spareLane 5 < 3 ∧
       ((List.range 32).filter fun k => ((s.link k).sparing.map (·.cal)).getD false).length < 4) ∧
    (let s : State := { rootState true true true 0 0 none with plt := { State.reset.plt with opp := some (2, 1, .downDue), sscDue := some true } }
     s.fbit F.PLT_STAT_SW_BUSY = true ∧ s.stepping = false ∧ s.plt.opp = some (2, 1, .downDue) ∧ s.plt.sscDue = some true) ∧
    (let s : State := { rootState true true true 0 0 none with plt := { State.reset.plt with opp := some (1, 2, .upDue) } }
     s.fbit F.PLT_STAT_SW_BUSY = true ∧ s.stepping = false ∧ s.plt.opp = some (1, 2, .upDue) ∧ s.plt.oppNext = none ∧
       s.plt.sscDue = none) := by decide

/-- Power requests and keys: the domains that are on, the request under way, and the PLT_RST window. -/
def powerState (on : Nat) (go : Nat) (req : Option Nat) (key : Option (Nat × Bool)) : State :=
  (({ State.reset with plt := { State.reset.plt with pgReq := req, rstLeft := key } } : State).fset F.PLT_PGSTAT_ON on).fset
    F.PLT_PGREQ_GO go

set_option maxRecDepth 8000 in
theorem witness_powerAndResets :
    (let s := powerState 0x3FFFFFFF 0 none none
     s.gateRefusal 31 true = some 4 ∧ s.gateRefusal 0 false = some 1 ∧ s.gateRefusal 29 false = none ∧
       s.gateRefusal 8 true = none ∧
       s.domOn 8 = true ∧ s.plt.pgReq ≠ some 8 ∧ s.fbit F.PLT_PGREQ_GO = false ∧
       (((s.modClause 63 fun x => { x with loaded := true }).clause 63).loaded = true)) ∧
    (let s := powerState 0x1F 1 (some 8) (some (1024, true))
     s.gateRefusal 8 true = some 5 ∧ s.plt.pgReq = some 8 ∧ s.domOn 8 = false ∧ s.fbit F.PLT_PGREQ_GO = true ∧
       s.rstPath (.control true) = some true ∧ s.plt.rstLeft = some (1024, true) ∧ s.rstPath .security = none) ∧
    (let s := powerState 0x1F 0 none none
     s.gateRefusal 8 true = none ∧ s.domOn 8 = false ∧ s.domOn 5 = false ∧ s.load.job = none ∧
       s.plt.rstLeft.map Prod.snd ≠ some true) := by decide

/-- A trigger that has occurred, and actions that run, in a device whose log stands at its second record. -/
def policyState (seen : List SparingTrigger) (acts : List (Nat × Nat × Nat)) (held : Bool) : State :=
  { State.reset with mgt := { State.reset.mgt with
    seen := seen, acts := acts, logPos := 1, pairs := [(0, { held := held })] } }

theorem witness_sparingAndRecords :
    (policyState [] [] true).firmware = false ∧
    (let s := policyState [] [(1, 3, 7)] false
     s.firmware = true ∧ SparingTrigger.phrase 3 7 ∉ s.mgt.seen ∧ s.actOver 1 3 = true ∧ s.mgt.logPos % 1024 ≠ 0) ∧
    (let s := policyState [.lexWord 9 100] [] false
     s.firmware = true ∧ SparingTrigger.lexWord 9 100 ∈ s.mgt.seen ∧ s.actFree (.lexWord 9 100) = true ∧ s.mgt.acts = []) ∧
    State.reset.firmware = true ∧ State.reset.mgt.logPos = 0 := by decide

/-! ### Ill-formed commands -/

set_option maxRecDepth 8000 in
/-- An operand at its bound is refused. -/
theorem test_wf_refuses_0 :
    List.all ([
    .dictSweepRead 64 0 0 [], .dictSweepRead 0 65 0 [], .dictSweepRead 0 0 1024 [], .dictUeRewrite 64 0,
    .dictUeRewrite 0 1024, .clsSpareGo 64 0, .clsSpareGo 0 128, .migrationComplete 64 0 0, .migrationComplete 0 (2 ^ 32) 0,
    .migrationComplete 0 0 (2 ^ 32), .spareMarchPass 64 false, .lexAccessServe 256 [], .lexNocServe 256 [],
    .memReturnArrive 256, .hbmReturn 256 [], .hbmRefresh 4 false, .hbmTempRead 4 0, .calSliceEnd 4 false 0 0,
    .calSliceEnd 0 false (2 ^ 32) 0, .calSliceEnd 0 false 0 (2 ^ 32), .memLretGo 256 0, .memLretGo 0 8192,
    .lretComplete (2 ^ 32), .memHretGo 4, .hretComplete (2 ^ 32)] : List Instr) (fun i => !i.wf) = true := by decide

set_option maxRecDepth 8000 in
/-- An operand at its bound is refused. -/
theorem test_wf_refuses_1 :
    List.all ([
    .fabIsoRequest 64 false, .fabRelRequest 64, .readRepairWriteback 64 0 0, .readRepairWriteback 0 16384 0,
    .readRepairWriteback 0 0 128, .scrubRowRead 64 [], .schRmapGo 64 0, .schRmapGo 0 16384, .rmapComplete (2 ^ 32),
    .idleSuperframeSend 32, .superframeReceive 32 ⟨0, false, 0, 0, false, 0, [], [], 0, 0⟩ 0 none,
    .superframeReceive 0 ⟨0, false, 0, 0, false, 0, [], [], 0, 0⟩ (2 ^ 32) none, .retryTimeout 32, .resumeWordReceive 32 0,
    .fenceWordReceive 32 0 0, .peerItemReceive 32 0 0, .peerItemReceive 0 16 0, .laneWordReceive 32 0 0,
    .laneWordReceive 0 16 0, .laneWordReceive 0 0 4, .msgWordReceive 32 0, .peerRepeat 32, .lnkEnable 32, .lnkDisable 32,
    .trainComplete 32 0] : List Instr) (fun i => !i.wf) = true := by decide

set_option maxRecDepth 8000 in
/-- An operand at its bound is refused. -/
theorem test_wf_refuses_2 :
    List.all ([
    .trainTimeout 32, .framingLock 32 0 0, .framingLock 0 (2 ^ 32) 0, .framingLock 0 0 (2 ^ 32), .partnerModeDetect 32,
    .modeRetry 32, .modeWindowClose 32, .identComplete 32 0 0, .identComplete 0 0 32, .framingLost 32,
    .resumeComplete 32 0, .resumeTimeout 32, .partnerOffReport 32, .lnkSpareGo 32 0, .lnkSpareGo 0 4, .laneLoss 32 0,
    .laneLoss 0 4, .laneSpareComplete 32 false, .spareLaneTrained 32, .spareRetrainTimer 32, .eyeScan 32 0 0 0,
    .eyeScan 0 4 0 0, .eyeScan 0 0 65536 0, .eyeScan 0 0 0 65536, .lnkTopo 0 0 false [] []] : List Instr) (fun i => !i.wf) = true := by decide

set_option maxRecDepth 8000 in
/-- An operand at its bound is refused. -/
theorem test_wf_refuses_3 :
    List.all ([
    .lnkTopo 0 (2 ^ 18) false [] [], .rimPllUnlock 4, .rimPllRelock 4, .rimOnehot (2 ^ 32) 0, .rimOnehot 0 (2 ^ 32),
    .rimOutboundRead 16, .rimInboundWrite 16 0, .rimPrcFence 16, .rimPrcRel 16, .rimPortRequest 4 false 0 0 0 [],
    .rimPortRequest 0 false (2 ^ 48) 0 0 [], .rimPortRequest 0 false 0 257 0 [], .rimPortRequest 0 false 0 0 64 [],
    .vccioGood 8 0 0, .vccioGood 0 65536 0, .vccioGood 0 0 3, .vccioLost 8 0, .vccioLost 0 65536, .rimRel 8, .rimDis 8,
    .bankCheckComplete 8 0 0, .keySample 8 0, .rimIoShort 8 0 false, .rimIoShort 0 48 false, .tuEnable 16 0] : List Instr) (fun i => !i.wf) = true := by decide

set_option maxRecDepth 8000 in
/-- An operand at its bound is refused. -/
theorem test_wf_refuses_4 :
    List.all ([
    .tuDisable 16, .tuRegWrite 16 0 0, .tuRegWrite 0 32 0, .pinCrossing 8 0 false false 0 0,
    .pinCrossing 0 48 false false 0 0, .pinCrossing 0 0 false false 65536 0, .pinCrossing 0 0 false false 0 65536,
    .triggerFire 16 0, .triggerFire 0 65536, .holdoffEnd 16, .dbgAuthPassword .tap 4, .dbgAuthKeyx .tap 4,
    .read .tap 64 0 false 0, .read .tap 0 512 false 0, .read .tap 0 0 false 256, .deposit .tap 64 0 false 0 0,
    .deposit .tap 0 512 false 0 0, .deposit .tap 0 0 false 256 0, .force .tap 64 0 false 0 0, .force .tap 0 512 false 0 0,
    .force .tap 0 0 false 256 0, .release .tap 64 0 false 0, .release .tap 0 512 false 0, .release .tap 0 0 false 256,
    .cqread .tap 64 0 0] : List Instr) (fun i => !i.wf) = true := by decide

set_option maxRecDepth 8000 in
/-- An operand at its bound is refused. -/
theorem test_wf_refuses_5 :
    List.all ([
    .cqread .tap 0 512 0, .cqread .tap 0 0 256, .pairHalt 2 .brk, .pairHaltComplete 2 0 0 none,
    .pairHaltComplete 0 4 0 none, .pairResume .tap 2, .pairStep .tap 2 ⟨[], [], 0, 0, [], none⟩, .xtrigIn 4,
    .dbgacc false (2 ^ 48) 0, .nocPacketForward 80 0 .none, .nocPacketForward 0 6 .none, .ageIncrement 80,
    .nocPacketReceive 80 .none, .dlmodeSwitch 8, .bar2Read (2 ^ 36) 0, .bar2Read 0 4097, .bar2Write (2 ^ 36) [],
    .eventDoorbell 4 0, .dmaDoorbell 16 0, .dmaEnable 16 0, .dmaDisable 16 0, .dmaDescComplete 16 [] [],
    .dmaDescComplete 0 (List.replicate 33 0) [], .hifDmaErr 16 0 0, .hifDmaErr 0 8 0] : List Instr) (fun i => !i.wf) = true := by decide

set_option maxRecDepth 8000 in
/-- An operand at its bound is refused. -/
theorem test_wf_refuses_6 :
    List.all ([
    .hifDmaErr 0 0 256, .msixCoalesceExpire 4, .eventRingEnable 4 0, .mgtLockstep 2 0, .pairRestartComplete 2,
    .mgtWdtEnable 2 0, .wdtKick 2 0, .mgtWdt 2, .load 4 [], .fwUpdate 4 [], .fwSwap 4, .fwHotfix 4 [], .patchSet 4,
    .logRead 4, .info 4, .restore 4 false false none, .attest 4 [], .attest 0 (List.replicate 33 0),
    .frameReceive (List.replicate 529 0) false, .tokenLoad 16, .tokenUnload 16, .fuseProgram .hif 128 false, .oppWrite 4,
    .rootPllFail 4, .sensorSample (List.replicate 49 0)] : List Instr) (fun i => !i.wf) = true := by decide

set_option maxRecDepth 8000 in
/-- An operand at its bound is refused. -/
theorem test_wf_refuses_7 :
    List.all ([
    .throttleUpdate .thermal 65536, .droopDetect 96 0, .droopDetect 0 65536, .thermtrip 48, .pltAvs 4 0, .pltAvs 0 65536,
    .agingCheck (List.replicate 33 0), .pgreqGate 32, .pgreqPower 32, .domainReady 32, .hbmTrainComplete 4,
    .mbxItemRead .hif (2 ^ 25) 0 0, .mbxItemRead .hif 0 65536 0, .mbxItemWrite .hif (2 ^ 25) 0 0,
    .mbxItemWrite .hif 0 65536 0, .bitAliasWrite .hif (2 ^ 26) 0, .registerWrite .hif (2 ^ 26) 0 0,
    .registerWrite .hif 0 9 0, .registerRead .hif (2 ^ 26) 0, .registerRead .hif 0 9, .hifLink 16 0 false false,
    .hifLink 0 4 false false, .standbyRootFail 4, .mgtSramScrub (2 ^ 48) false, .paramCheck false (some (2 ^ 32, 0))] : List Instr) (fun i => !i.wf) = true := by decide

set_option maxRecDepth 8000 in
/-- An operand at its bound is refused. -/
theorem test_wf_refuses_8 :
    List.all ([
    .paramCheck false (some (0, 2 ^ 32)), .superframeReceive 0 ⟨0, false, 0, 0, false, 0, [], [], 0, 0⟩ 0 (some (2 ^ 32))] : List Instr) (fun i => !i.wf) = true := by decide

/-! ### Single steps -/

/-- R37, worked example: step 262,016 and tag 0x0010 give 262,160. -/
theorem test_full_step_example : fullStep 262016 0x0010#16 = some 262160 := by decide

/-- R319, worked example: generation 0x0003 is newer than 0xFFF0, and not the other way round. -/
theorem test_generation_example : genNewer 0x0003 0xFFF0 = true ∧ genNewer 0xFFF0 0x0003 = false := by decide

/-- R71 and R72, worked example of the multiplexer 0xCACA_CACA with both data inputs 1, the select X and SD, SE X. -/
theorem test_mux_exact_and_pessimistic :
    evalExact 0xCACACACA#32 [v1, v1, vX, vX, vX] = v1 ∧ evalPess 0xCACACACA#32 [v1, v1, vX, vX, vX] = vX ∧
    evalExact 0xCACACACA#32 [v1, v0, vX, vX, vX] = vX ∧ evalPess 0xCACACACA#32 [v1, v0, v0, vX, vX] = v1 := by decide

/-- R83, worked example: the fields of the word 0x1294_8489_0000_0105_FFF0_0FFF_0000_0000. -/
theorem test_word_fields_eval :
    let w := bpWord 0x1294848900000105FFF00FFF00000000#128
    [w.opc, w.fn, w.sa, w.sb, w.sc, w.sd, w.se, w.dst, w.we.toNat, w.c0src, w.c1src] =
      [1, 0x0A5, 0x21, 0x22, 0x40, 0, 0, 0x41, 1, 0xFFF, 0xFFF] := by decide

/-- R87, worked example: the idle word is a NOP with both captures disabled. -/
theorem test_word_fields_idle :
    let w := bpWord idleWord
    [w.opc, w.fn, w.dst, w.bc.toNat, w.we.toNat, w.fx, w.tag, w.bnk, w.c0src, w.c1src] = [0, 0, 0, 0, 0, 0, 0, 0, 0xFFF, 0xFFF] := by
  decide

/-- R112 and R113, worked examples: a TRIG on line 3 from entry 0x44 and a CHECK with FN 0x0AB from entry 0x2C. -/
theorem test_word_fields_trig_check :
    let t := bpWord 0xC001100000000000FFF00FFF00000300#128
    let c := bpWord 0xD2ACB00000000000FFF00FFF00000000#128
    (t.opc, nbit t.fn 0, t.sa, t.tag) = (0xC, false, 0x44, 3) ∧ (c.opc, c.fn, c.sa, c.fn / 4) = (0xD, 0x0AB, 0x2C, 0x2A) := by decide

/-- R112 and R113: X fires a TRIG only with FN[0] = 1, and fails a CHECK only with XFAIL = 1; 0 always fails one. -/
theorem test_trig_check_on_x :
    (trigAsserts false v1, trigAsserts false vX, trigAsserts true vX, trigAsserts true v0) = (true, false, true, false) ∧
    (checkFails false v0, checkFails false vX, checkFails true vX, checkFails true v1) = (true, false, true, false) := by decide

/-- R98, worked example of the latch with an active-low reset (FN = 0x018), row by row: D, G, Q, S, R. -/
theorem test_latch_example :
    [[v0, v1, v1, v0, v1], [v1, v0, v0, v0, v1], [v1, vX, v1, v0, v1], [v0, vX, v1, v0, v1], [v1, v0, v0, v0, vX],
      [v1, v0, v1, v0, vX], [v1, v1, v1, v0, v0]].map (evalLatch false 0x018) = [v0, v0, v1, vX, v0, vX, v0] := by decide

/-- R100 and R101, worked example of the shared status bus: WIRE (FN = 0x038) and TRI1 (FN = 0x03C) over three drivers. -/
theorem test_resolve_example :
    [[vZ, vZ, vZ], [v1, vZ, vZ], [v1, v0, vZ], [vX, vZ, vZ]].map (resolve 0x038) = [vZ, v1, vX, vX] ∧
    [[vZ, vZ, vZ], [v1, vZ, vZ], [v1, v0, vZ], [vX, vZ, vZ]].map (resolve 0x03C) = [v1, v1, vX, vX] ∧
    [[v0, v1], [v1, v1], [vX, v0]].map (resolve 0x01E) = [vZ, v1, vX] := by decide

/-- R209, worked example: 20 values of a FOURSTATE element take 8 bytes. -/
theorem test_stride_example : elemStride false 20 = 8 := by decide

/-- R283 to R285, worked example: XF = 1 turns clauses 2 and 3 to 23 and 31, port N to E and W to N, link 2 to 10. -/
theorem test_placement_example :
    physOf 1 0 0 2 = some 23 ∧ physOf 1 0 0 3 = some 31 ∧ xfPort 1 0 = 1 ∧ xfPort 1 3 = 0 ∧
    linkOf 2 0 = some 2 ∧ linkOf 23 1 = some 10 ∧ linkOf 31 1 = some 11 := by decide

/-- R485, worked example: window 3 with BASE 0x41 takes BAR2 offset 0x3_0000_1000 to 0x0010_4000_1000. -/
theorem test_bar2_example :
    ((State.reset.fset (F.HIF_AWIN_EN 3) 1).fset (F.HIF_AWIN_BASE 3) 0x41).bar2Addr 0x300001000 = some 0x1040001000 := by decide

/-- R606: an address that no register of a block occupies reads 0. -/
theorem test_hole_reads_zero : (regRead .hif 0x400FFC 4 State.reset).2.1 = [0, 0, 0, 0] := by decide

/-- R40: RUN in IDLE is refused with SEQ_CMD_REFUSED (event 9 of SOURCE 5) and the sequencer stays in IDLE. -/
theorem test_run_in_idle : (match exec .run State.reset with
    | .next t => (t.seq.st == .idle) && t.fbit F.SEQ_EVT_CMD && (t.evq.map fun e => (e.src, e.code)) == [(5, 9)]
    | _ => false) = true := by decide

/-- R520: 0xC35A and then 0x3CA5 kick a watchdog that has expired once. -/
theorem test_kick : (match exec (.wdtKick 0 0xC35A#16) (State.reset.modPair 0 fun x => { x with expired := true }) with
    | .next t => (match exec (.wdtKick 0 0x3CA5#16) t with
      | .next u => !(u.pair 0).expired && (t.pair 0).expired
      | _ => false)
    | _ => false) = true := by decide

/-- R579: 0xA55A from the control pair in M-mode opens the window of 1,024 ns; 0x5AA5 alone resets nothing. -/
theorem test_reset_keys : (match exec (.pltRstKey (.control true) 0x5AA5#16) State.reset,
      exec (.pltRstKey (.control true) 0xA55A#16) State.reset with
    | .next t, .next u => t.fget F.PLT_RSTCAUSE_COUNT == 0 && (u.plt.rstLeft.map fun e => e.1) == some 1024
    | _, _ => false) = true := by decide

end Sys2Proof.Tests
end

section
/-! Register writes by the access codes alone (R9), and the write of HIF_EVT that refutes O55. -/
namespace Sys2Proof.Machine

/-! ### The effect of an access code on its field -/

/-- What one field of a written register becomes by its access code (R9). -/
def codeWrite (a : Nat) (w : Word) (s : State) (f : FRow) : State :=
  match f.acc with
  | .rw => s.fset (f.fld a) (f.of w)
  | .w1c => s.fset (f.fld a) (nbits (s.fget (f.fld a) - (s.fget (f.fld a) &&& f.of w)) 0 (f.hi - f.lo + 1))
  | _ => s

/-- A plain write runs through the fields of the row. -/
theorem plainWrite_eq_foldl (a : Nat) (r : RRow) (w : Word) (s : State) :
    plainWrite a r w s = r.fields.foldl (codeWrite a w) s := rfl

theorem fget_codeWrite_ne {a : Nat} {f : FRow} {g : Fld} (w : Word) (s : State) (h : g.key ≠ (f.fld a).key) :
    (codeWrite a w s f).fget g = s.fget g := by
  unfold codeWrite
  split
  · exact s.fget_fset_ne _ h
  · exact s.fget_fset_ne _ h
  · rfl

theorem fget_foldl_codeWrite_ne {a : Nat} {fs : List FRow} {g : Fld} (w : Word) (s : State)
    (h : ∀ f ∈ fs, g.key ≠ (f.fld a).key) : (fs.foldl (codeWrite a w) s).fget g = s.fget g := by
  induction fs generalizing s with
  | nil => rfl
  | cons f fs ih =>
    calc (fs.foldl (codeWrite a w) (codeWrite a w s f)).fget g
        = (codeWrite a w s f).fget g := ih _ fun x hx => h x (List.mem_cons_of_mem f hx)
      _ = s.fget g := fget_codeWrite_ne w s (h f List.mem_cons_self)

/-- Fields of one register with different lowest bits are held under different keys. -/
theorem key_fld_ne {f g : FRow} (a : Nat) (h : g.lo ≠ f.lo) : (g.fld a).key ≠ (f.fld a).key := fun e =>
  h (Nat.add_left_cancel e)

/-- A W1C field written 0 reads as before, cut to the width of its field (R9: 0 has no effect). -/
theorem fget_codeWrite_w1c_zero {a : Nat} {f : FRow} {w : Word} (s : State) (hacc : f.acc = .w1c) (hw : f.of w = 0) :
    (codeWrite a w s f).fget (f.fld a) = s.fget (f.fld a) % 2 ^ (f.hi - f.lo + 1) := by
  unfold codeWrite
  rw [hacc]
  simp [hw, nbits, FRow.fld]

/-- In a plain write of a register whose fields begin at different bits, a W1C field written 0 reads as before, cut to its
width. -/
theorem fget_plainWrite_w1c_zero {a : Nat} {r : RRow} {f : FRow} {w : Word} (s : State)
    (hlo : r.fields.Pairwise fun x y => x.lo ≠ y.lo) (hf : f ∈ r.fields) (hacc : f.acc = .w1c) (hw : f.of w = 0) :
    (plainWrite a r w s).fget (f.fld a) = s.fget (f.fld a) % 2 ^ (f.hi - f.lo + 1) := by
  obtain ⟨before, after, hsplit⟩ := List.append_of_mem hf
  rw [hsplit, List.pairwise_append, List.pairwise_cons] at hlo
  obtain ⟨-, ⟨hafter, -⟩, hbefore⟩ := hlo
  rw [plainWrite_eq_foldl, hsplit, List.foldl_append, List.foldl_cons,
    fget_foldl_codeWrite_ne w _ fun x hx => key_fld_ne a (hafter x hx), fget_codeWrite_w1c_zero _ hacc hw,
    fget_foldl_codeWrite_ne w _ fun x hx => key_fld_ne a (hbefore x hx f List.mem_cons_self).symm]

/-! ### A register write that nothing answers before the register -/

/-- REGISTER_WRITE of a register that no rule answers before it and no reserved value stops does what the register's description
says (R9 to R14, R605). -/
theorem exec_registerWrite_of_findReg {req : Requester} {a : Nat} {w : Word} {r : RRow} {s : State}
    (hrefuse : s.regRefusal req a 4 = none) (halias : isAlias a = false) (hmbx : isMbx a = false) (hmsix : isMsix a = false)
    (hreg : findReg a = some r) (hrsv : s.rsvBroken a r w = false) (hcode : badCode req a w = false)
    (heng : startsEngine a w = false) :
    exec (.registerWrite req a 4 (w.setWidth 64)) s =
      .next (writeAnswer req a (regEffect req a r w s).1 (regEffect req a r w s).2) := by
  have hw : (w.setWidth 64).setWidth 32 = w := by simp
  have hword : regWriteWord engineGo req a w s = .ok (regEffect req a r w s) := by
    simp [regWriteWord, hmbx, hmsix, hreg, hrsv, hcode, heng]
  have hwrite : regWrite req a 4 (w.setWidth 64) s = .ok (regEffect req a r w s) := by
    simp [regWrite, regWriteWith, hrefuse, halias, hw, hword]
  show orFault (regWriteCmd req a 4 (w.setWidth 64) s) = _
  rw [regWriteCmd, hwrite]
  rfl

/-! ### HIF_EVT (R505) -/

/-- The row of HIF_EVT: six event bits below a reserved field. -/
def hifEvtRow : RRow :=
  ⟨"HIF_EVT", 0x30000C, 1, 0, 1, 0, ⟨31, 6, .rsv, 0⟩ :: [5, 4, 3, 2, 1, 0].map fun k => ⟨k, k, .w1c, 0⟩⟩

theorem findReg_hifEvt : findReg 0x30000C = some hifEvtRow := by decide

theorem hifEvtRow_lo_pairwise : hifEvtRow.fields.Pairwise fun x y => x.lo ≠ y.lo := by decide

theorem rsvBroken_hifEvt {w : Word} {s : State} (h : fieldOf w 6 26 = s.fget ⟨0x30000C, 6, 26, 0⟩) :
    s.rsvBroken 0x30000C hifEvtRow w = false := by
  simp [State.rsvBroken, hifEvtRow, FRow.of, State.readFld, FRow.fld, h]

/-- The host's write of HIF_EVT that keeps the reserved bits acts by the access codes alone (R505). -/
theorem exec_hifEvt_write {w : Word} {s : State} (h : fieldOf w 6 26 = s.fget ⟨0x30000C, 6, 26, 0⟩) :
    exec (.registerWrite .hif 0x30000C 4 (w.setWidth 64)) s = .next (plainWrite 0x30000C hifEvtRow w s) :=
  exec_registerWrite_of_findReg rfl rfl rfl rfl findReg_hifEvt (rsvBroken_hifEvt h) rfl rfl

/-- An event bit of HIF_EVT written 0 is held again cut to its one bit. -/
theorem fget_hifEvt_write_zero {k : Nat} {w : Word} (s : State) (hk : k < 6) (hw : fieldOf w k 1 = 0) :
    (plainWrite 0x30000C hifEvtRow w s).fget ⟨0x30000C, k, 1, 0⟩ = s.fget ⟨0x30000C, k, 1, 0⟩ % 2 := by
  have hmem : (⟨k, k, .w1c, 0⟩ : FRow) ∈ hifEvtRow.fields := by
    simp [hifEvtRow]
    omega
  have hof : (⟨k, k, .w1c, 0⟩ : FRow).of w = 0 := by simpa [FRow.of] using hw
  simpa [FRow.fld] using fget_plainWrite_w1c_zero (a := 0x30000C) s hifEvtRow_lo_pairwise hmem rfl hof

/-- Refutes O55, at its clause on HIF_EVT: an event bit written 0 is said to stay as it is, and the model holds it again cut to
its one bit. The clause ranges over every state as plain data and bounds no value of the register file: here HIF_EVT[0] holds 2,
and the write of 0 leaves 0. The model's own writes cut a field to its width (`State.fget_fset_same`), so the clause lacks a
hypothesis: that the six event bits are below 2. -/
theorem not_registersByCode : ¬ Obligations.RegistersByCode := by
  unfold Obligations.RegistersByCode
  rintro ⟨-, -, -, -, -, -, hw1c, -⟩
  obtain ⟨t, ht, hbits, -⟩ := hw1c 0#32 { State.reset with fields := [((⟨0x30000C, 0, 1, 0⟩ : Fld).key, 2)] } rfl
  rw [exec_hifEvt_write rfl] at ht
  cases ht
  have hkept := (fget_hifEvt_write_zero _ (by decide) rfl).symm.trans (hbits 0 (by decide))
  exact absurd hkept (by decide)

end Sys2Proof.Machine
end

section
/-! What OPP_SETTLE leaves in OPPACT when a lower operating point waits (R562), and the change that refutes O56. -/
namespace Sys2Proof.Machine

/-! ### The operating point in effect after a change (R562) -/

@[simp] theorem State.fget_mk_plt (s : State) (p : Plt) (f : Fld) : ({ s with plt := p } : State).fget f = s.fget f := rfl

/-- A write of OPP_BUSY does not change whether a frequency change waits for a step boundary. -/
theorem State.clockWaits_fset_oppBusy (s : State) (v : Nat) : (s.fset F.PLT_STAT_OPP_BUSY v).clockWaits = s.clockWaits := by
  have hsw : (s.fset F.PLT_STAT_OPP_BUSY v).fget F.PLT_STAT_SW_BUSY = s.fget F.PLT_STAT_SW_BUSY :=
    s.fget_fset_ne v (by decide)
  simp only [State.clockWaits, State.fbit, hsw]
  rfl

/-- The frequency switch stores the new operating point cut to the two bits of OPPACT. -/
theorem fget_oppact_freqSwitch (old new : Nat) (s : State) :
    (freqSwitch old new s).fget F.PLT_STAT_OPPACT = new % 2 ^ 2 :=
  (State.fget_raise_ne _ _ _ _ (by decide)).trans (s.fget_fset_same F.PLT_STAT_OPPACT new)

/-- A change downward switches the frequency at once where no step boundary is waited for. -/
theorem fget_oppact_oppStart_down {c : Nat} {s : State} (hc : c < s.fget F.PLT_STAT_OPPACT) (hw : s.clockWaits = false) :
    (oppStart c s).fget F.PLT_STAT_OPPACT = c % 2 ^ 2 := by
  simp [oppStart, hc.ne, hc.not_gt, hw, fget_oppact_freqSwitch]

/-- When the voltage has settled on the way down and a lower operating point was written meanwhile, OPPACT holds that one, cut
to two bits, where no step boundary is waited for. -/
theorem fget_oppact_oppSettle_lower {old new c : Nat} {s : State} (hopp : s.plt.opp = some (old, new, .falling))
    (hnext : s.plt.oppNext = some c) (hc : c < s.fget F.PLT_STAT_OPPACT) (hw : s.clockWaits = false) :
    (oppSettle s).fget F.PLT_STAT_OPPACT = c % 2 ^ 2 := by
  let u := { s with plt := { s.plt with opp := none, oppNext := none } }
  have hset : oppSettle s = oppStart c (u.fset F.PLT_STAT_OPP_BUSY 0) := by
    simp [oppSettle, oppDone, hopp, hnext, u]
  have hact : (u.fset F.PLT_STAT_OPP_BUSY 0).fget F.PLT_STAT_OPPACT = s.fget F.PLT_STAT_OPPACT :=
    u.fget_fset_ne 0 (by decide)
  rw [hset]
  exact fget_oppact_oppStart_down (hact ▸ hc) ((u.clockWaits_fset_oppBusy 0).trans hw)

/-- A device in IDLE whose OPPACT holds 6, on the way down, with 5 written meanwhile. -/
def oppBeyondWidth : State :=
  { State.reset with
    fields := [(F.PLT_STAT_OPPACT.key, 6)]
    plt := { State.reset.plt with opp := some (0, 0, .falling), oppNext := some 5 } }

/-- Refutes O56, at its clause on a lower operating point that waits while the voltage falls: OPPACT is said to hold the waiting
value where no step boundary is waited for, and the model holds that value cut to the two bits of OPPACT. The clause ranges over
every state as plain data and bounds neither the value that waits nor the register file: here OPPACT holds 6 and 5 waits, and
OPP_SETTLE leaves 1. OPP_WRITE keeps codes up to 2 only, so the clause lacks the hypothesis that the clause on the way up has:
that the value waiting is below 4. -/
theorem not_operatingPoints : ¬ Obligations.OperatingPoints := by
  unfold Obligations.OperatingPoints
  rintro ⟨-, -, -, -, -, -, -, -, hlower, -⟩
  obtain ⟨t, ht, -, -, hact, -⟩ := hlower 0 0 5 oppBeyondWidth rfl rfl (by decide)
  have hidle : oppBeyondWidth.clockWaits = false := by decide
  have hcut := fget_oppact_oppSettle_lower (s := oppBeyondWidth) rfl rfl (by decide) hidle
  cases ht
  rw [hcut, hidle] at hact
  exact absurd hact (by decide)

end Sys2Proof.Machine
end

section
/-! What a command changes in the register file and what it posts, in the terms of Safety.lean. -/
namespace Sys2Proof.Machine

theorem onlyFields.refl (fs : List Fld) (s : State) : onlyFields fs s s := fun _ _ => rfl

theorem onlyFields.fset {fs : List Fld} {s t : State} {f : Fld} (h : onlyFields fs s t) (hf : f ∈ fs) (v : Nat) :
    onlyFields fs s (t.fset f v) := fun g hg => (t.fget_fset_ne v (hg f hf)).trans (h g hg)

theorem onlyFields.raise {fs : List Fld} {s t : State} {f : Fld} (h : onlyFields fs s t) (hf : f ∈ fs) (src code : Nat)
    (payload : List Nat) : onlyFields fs s (t.raise f src code payload) :=
  fun g hg => (t.fget_raise_ne src code payload (hg f hf)).trans (h g hg)

/-- A frame outside the registers changes no field. -/
theorem onlyFields.of_frame {E : Nat} {s t : State} (fs : List Fld) (hE : E < 2 ^ 25) (h : Fr E s t) : onlyFields fs s t :=
  fun g _ => h.h_regs g (Nat.testBit_lt_two_pow (hE.trans_le (Nat.pow_le_pow_right (by decide) (Nat.le_add_right 25 _))))

/-- An event raised in a state with the records, the step, the platform time and the enable bit of s is posted from s on. -/
theorem posted_raise {s t : State} {f : Fld} (src code : Nat) (payload : List Nat) (hw : f.width = 1) (hevq : t.evq = s.evq)
    (hstep : t.seq.step = s.seq.step) (htime : t.ptime = s.ptime) (hen : t.fget (evten f) = s.fget (evten f)) :
    posted f src code payload s (t.raise f src code payload) := by
  refine ⟨by simp [hw], ?_⟩
  rw [State.evq_raise, hevq, hstep, htime, State.fbit, hen]
  rfl

end Sys2Proof.Machine
end

section
/-! Steps and ellipses of the sequencer (R25 to R32). -/
namespace Sys2Proof.Machine

/-- A running sequencer whose next step nothing holds executes it (R28). -/
theorem seqStep_of_ready {s : State} (ups : List Upset) (hrun : s.seq.st = .running) (hdepth : s.seq.depth ≠ 0)
    (hcauses : s.causes = []) : seqStep ups s = doStep ups s := by
  simp [seqStep, hrun, hdepth, hcauses]

/-- A running sequencer whose next step a cause holds begins an ellipsis (R29). -/
theorem seqStep_of_cause {s : State} (ups : List Upset) (hrun : s.seq.st = .running) (hdepth : s.seq.depth ≠ 0)
    (hcauses : s.causes ≠ []) : seqStep ups s = ellipsisBegin .ellipsis s := by
  simp [seqStep, hrun, hdepth, hcauses]

theorem seqStep_of_not_running {s : State} (ups : List Upset) (hrun : s.seq.st ≠ .running) : seqStep ups s = s := by
  simp [seqStep, hrun]

theorem seqEllipsisEnd_of_cause {s : State} (ups : List Upset) (hcauses : s.causes ≠ []) : seqEllipsisEnd ups s = s := by
  simp [seqEllipsisEnd, hcauses]

/-- The boundary at which an ellipsis ends: it is counted, the sequencer runs, and a clock change that waits takes effect. -/
def ellipsisLeft (s : State) : State :=
  clockBoundary { ellipsisClose s with seq := { (ellipsisClose s).seq with st := .running } }

theorem seq_ellipsisLeft (s : State) : (ellipsisLeft s).seq = { (ellipsisClose s).seq with st := .running } :=
  (clockBoundary_frame (Fr.refl 0x3000080 _) (Nat.and_self _)).h_seq rfl

/-- Once nothing holds the next step the ellipsis ends and the step executes (R29). -/
theorem seqEllipsisEnd_of_ready {s : State} (ups : List Upset) (hst : s.seq.st = .ellipsis) (hdepth : s.seq.depth ≠ 0)
    (hcauses : s.causes = []) : seqEllipsisEnd ups s = doStep ups (ellipsisLeft s) := by
  have hleft : (ellipsisLeft s).seq.depth ≠ 0 := by
    rw [seq_ellipsisLeft]
    exact hdepth
  unfold ellipsisLeft at hleft ⊢
  simp [seqEllipsisEnd, hst, hcauses, hleft]

/-- Counting one for each key of a list raises the count of a key by how often the list names it. -/
theorem kvGet_foldl_succ (ks : List Nat) (m : Kv Nat) (k : Nat) :
    kvGet 0 (ks.foldl (fun m k => kvMod 0 m k (· + 1)) m) k = kvGet 0 m k + ks.count k := by
  induction ks generalizing m with
  | nil => rfl
  | cons a ks ih =>
    rw [List.foldl_cons, ih, kvMod, kvGet_kvSet, List.count_cons]
    by_cases h : k = a
    · subst h
      simp
      omega
    · simp [h, Ne.symm h]

/-- Each cause code whose bit was seen is counted once (R32). -/
theorem kvGet_causeCnt_ellipsisClose (s : State) {k : Nat} (hk : k < 16) :
    kvGet 0 (ellipsisClose s).seq.causeCnt k = kvGet 0 s.seq.causeCnt k + (s.seq.seen.getLsbD k).toNat := by
  have hnodup : ((List.range 16).filter fun k => s.seq.seen.getLsbD k).Nodup := List.nodup_range.filter _
  have hcount : ((List.range 16).filter fun k => s.seq.seen.getLsbD k).count k = (s.seq.seen.getLsbD k).toNat := by
    simp only [hnodup.count, List.mem_filter, List.mem_range, hk, true_and]
    cases s.seq.seen.getLsbD k <;> rfl
  exact (kvGet_foldl_succ _ _ k).trans (congrArg _ hcount)

/-- Settles O9: `doStep_counts` gives the counters of the step itself, `kvGet_causeCnt_ellipsisClose` those of the ellipsis that
ends before it. -/
theorem stepsAdvanceCounters : Obligations.StepsAdvanceCounters := by
  unfold Obligations.StepsAdvanceCounters
  refine ⟨fun ups s hrun hdepth hcauses => ?_, fun ups s hrun hdepth hcauses => ?_, fun ups s hst hdepth hcauses => ?_,
    fun ups s hst hcauses => ?_, fun ups s hrun => ?_⟩
  · refine ⟨seqStep ups s, rfl, ?_⟩
    rw [seqStep_of_ready ups hrun hdepth hcauses]
    obtain ⟨hstep, hucyc, hdep, htotal, hcnt⟩ := doStep_counts ups s
    exact ⟨hstep, hdep, hucyc, htotal, hcnt⟩
  · refine ⟨seqStep ups s, rfl, ?_⟩
    rw [seqStep_of_cause ups hrun hdepth hcauses]
    exact ⟨rfl, rfl, rfl, rfl, rfl, rfl, rfl, onlyFields.refl _ _⟩
  · refine ⟨seqEllipsisEnd ups s, rfl, ?_⟩
    rw [seqEllipsisEnd_of_ready ups hst hdepth hcauses]
    obtain ⟨hstep, hucyc, hdep, htotal, hcnt⟩ := doStep_counts ups (ellipsisLeft s)
    simp only [State.atCounts, seq_ellipsisLeft] at hstep hucyc hdep htotal hcnt
    exact ⟨hstep, hdep, hucyc, htotal, fun k hk => hcnt ▸ kvGet_causeCnt_ellipsisClose s hk⟩
  · exact congrArg Host.Outcome.next (seqEllipsisEnd_of_cause ups hcauses)
  · exact congrArg Host.Outcome.next (seqStep_of_not_running ups hrun)

end Sys2Proof.Machine
end

section
/-! The start of a run (R40, R41, R46, R47). -/
namespace Sys2Proof.Machine

theorem exec_go {i : Instr} {b : Nat} (h : (i, b) ∈ [(Instr.run, 1), (.step1, 4), (.ucyc1, 8)]) (s : State) :
    exec i s = .next (seqGo b s) := by
  simp only [List.mem_cons, Prod.mk.injEq, List.not_mem_nil, or_false] at h
  obtain ⟨rfl, rfl⟩ | ⟨rfl, rfl⟩ | ⟨rfl, rfl⟩ := h <;> rfl

/-- What a start does before it runs: at phase 0 the OBSERVE rights take effect, and a STOPAT below the step counter is discarded
(R46, R386). -/
def startChecks (s : State) : State := stopatCheck (if s.atPhase0 then latchTokens s else s)

theorem startChecks_frame (s : State) : Fr 0x40840080 s (startChecks s) :=
  have hs : Fr 0x40840080 s s := Fr.refl _ s
  stopatCheck_frame (Fr.ite (latchTokens_frame hs rfl) hs) rfl

/-- The stop step of RUN, STEP1 and UCYC1 (R40). -/
def goStop (bits : Nat) (s : State) : Option Nat :=
  if nbit bits 2 then some s.seq.step
  else if nbit bits 3 then some (s.seq.step - s.seq.step % s.seq.depth + s.seq.depth - 1) else none

/-- The sequencer runs to a stop step with the parameters of its start, or waits where a condition is missing (R29, R41). -/
def startRun (stop : Option Nat) (s : State) : State :=
  let t := { s with seq := { s.seq with
    st := .running, stopStep := stop
    lastStart := (s.fget F.SEQ_FENCE_DIST, s.fget F.SEQ_DIAM_DIAM, s.fget F.SEQ_CKPT_INTERVAL) } }
  if t.causes.isEmpty then t else ellipsisBegin .ellipsis t

theorem startRun_spec (stop : Option Nat) (s : State) :
    ((startRun stop s).seq.st = .running ∨ (startRun stop s).seq.st = .ellipsis) ∧ (startRun stop s).seq.step = s.seq.step ∧
      (startRun stop s).seq.ucyc = s.seq.ucyc ∧ (startRun stop s).mem = s.mem ∧ (startRun stop s).clauses = s.clauses ∧
      (startRun stop s).seq.stopStep = stop := by
  unfold startRun
  extract_lets t
  split
  · exact ⟨.inl rfl, rfl, rfl, rfl, rfl, rfl⟩
  · exact ⟨.inr rfl, rfl, rfl, rfl, rfl, rfl⟩

/-- A start that passes the checks of R41. -/
theorem seqGo_of_accepted {s : State} (bits : Nat) (hst : s.seq.st = .ready ∨ s.seq.st = .stopped) (hok : s.runRefused = none) :
    seqGo bits s = startRun (goStop bits s) (startChecks s) := by
  unfold seqGo
  rcases hst with h | h <;> rw [h, hok] <;> rfl

/-- A start in IDLE is refused with reason 0 and the bit written (R47). -/
theorem seqGo_of_idle {s : State} (bits : Nat) (hst : s.seq.st = .idle) :
    seqGo bits s = s.raise F.SEQ_EVT_CMD 5 9 ([0] ++ w64 bits ++ w64 s.seq.step) := by
  simp [seqGo, hst]

theorem seqGo_of_started {s : State} (bits : Nat) (hst : s.seq.st = .running ∨ s.seq.st = .ellipsis ∨ s.seq.st = .dbgHold) :
    seqGo bits s = s := by
  rcases hst with h | h | h <;> simp [seqGo, h]

/-- The bit written tells the stop step. -/
theorem goStop_of_mem {i : Instr} {b : Nat} (h : (i, b) ∈ [(Instr.run, 1), (.step1, 4), (.ucyc1, 8)]) (s : State) :
    goStop b s = (if b = 4 then some s.seq.step
      else if b = 8 then some (s.seq.step - s.seq.step % s.seq.depth + s.seq.depth - 1) else none) := by
  simp only [List.mem_cons, Prod.mk.injEq, List.not_mem_nil, or_false] at h
  obtain ⟨-, rfl⟩ | ⟨-, rfl⟩ | ⟨-, rfl⟩ := h <;> rfl

/-- Settles O10, from what RUN, STEP1 and UCYC1 do in each state of the sequencer. -/
theorem runControlStarts : Obligations.RunControlStarts := by
  unfold Obligations.RunControlStarts
  refine ⟨fun i b s hi hst hok => ⟨_, exec_go hi s, ?_⟩, fun i b s hi hst => ⟨_, exec_go hi s, ?_⟩, fun i b s hi hst => ?_⟩
  · have hchecks := startChecks_frame s
    obtain ⟨hrun, hstep, hucyc, hmem, hclauses, hstop⟩ := startRun_spec (goStop b s) (startChecks s)
    rw [hchecks.h_seq rfl] at hstep hucyc
    rw [seqGo_of_accepted b hst hok]
    exact ⟨hrun, hstep, hucyc, hmem.trans (hchecks.h_mem rfl), hclauses.trans (hchecks.h_clauses rfl),
      hstop.trans (goStop_of_mem hi s)⟩
  · rw [seqGo_of_idle b hst]
    exact ⟨posted_raise _ _ _ rfl rfl rfl rfl rfl, s.seq_raise _ _ _ _, s.mem_raise _ _ _ _, s.clauses_raise _ _ _ _,
      (onlyFields.refl _ s).raise List.mem_cons_self _ _ _⟩
  · rw [exec_go hi, seqGo_of_started b hst]

end Sys2Proof.Machine
end

section
/-! Fences and stops (R42 to R46). -/
namespace Sys2Proof.Machine

theorem link_foldl_modLink_ne {g : Lnk → Lnk} {ls : List Nat} {l : Nat} (hl : l ∉ ls) (s : State) :
    (ls.foldl (fun s k => s.modLink k g) s).link l = s.link l := by
  induction ls generalizing s with
  | nil => rfl
  | cons k ls ih =>
    rw [List.mem_cons, not_or] at hl
    exact (ih hl.2 _).trans (s.link_modLink_ne g hl.1)

/-- A link of the list, and one that holds the fence word already, holds it after the fence word has gone to every link of the
list. -/
theorem mem_fences_foldl {e : Nat × Nat} {ls : List Nat} {l : Nat} {s : State} (h : l ∈ ls ∨ e ∈ (s.link l).fences) :
    e ∈ ((ls.foldl (fun s k => s.modLink k fun x => { x with fences := x.fences ++ [e] }) s).link l).fences := by
  induction ls generalizing s with
  | nil => simpa using h
  | cons k ls ih =>
    refine ih ?_
    by_cases hk : l = k
    · subst hk
      right
      simp
    · rw [State.link_modLink_ne _ _ hk]
      simpa [hk] using h

theorem mem_fences_sendFence {s : State} {l : Nat} (f dev : Nat) (hl : l ∈ s.usedLinks) :
    (f, dev) ∈ ((sendFence f dev s).link l).fences := mem_fences_foldl (.inl hl)

theorem link_sendFence_of_unused {s : State} {l : Nat} (f dev : Nat) (hl : l ∉ s.usedLinks) :
    (sendFence f dev s).link l = s.link l := link_foldl_modLink_ne hl s

/-- A fence step below the pending one is adopted and sent (R43). -/
theorem adoptFence_of_below {f : Nat} {s : State} (dev : Nat) (h : ∀ p d, s.seq.fence = some (p, d) → f < p) :
    adoptFence f dev s = sendFence f dev { s with seq := { s.seq with fence := some (f, dev) } } := by
  unfold adoptFence
  split
  next p d hp => rw [if_pos (h p d hp)]
  next => rfl

/-- A pending fence step that is smaller or equal stays (R43). -/
theorem adoptFence_of_pending {f p d : Nat} {s : State} (dev : Nat) (hp : s.seq.fence = some (p, d)) (h : p ≤ f) :
    adoptFence f dev s = s := by
  simp [adoptFence, hp, h]

/-- STOP adopts the step counter, or with used links the last step begun plus DIST (R42). -/
theorem seqStopWrite_eq (s : State) :
    seqStopWrite s = adoptFence (if s.usedLinks = [] then s.seq.step else s.seq.step + s.fget F.SEQ_FENCE_DIST - 1) s.devnum s := by
  simp [seqStopWrite, stopRequest, stopRequestAt]

theorem stopatCheck_of_le {s : State} (h : s.seq.step ≤ s.seq.stopAt) : stopatCheck s = s := by
  simp [stopatCheck, h]

theorem stopatCheck_of_lt {s : State} (hen : s.fget F.SEQ_CTL_STOPAT_EN = 1) (h : s.seq.stopAt < s.seq.step) :
    stopatCheck s =
      (s.fset F.SEQ_CTL_STOPAT_EN 0).raise F.SEQ_EVT_CMD 5 9 ([1] ++ w64 s.seq.stopAt ++ w64 s.seq.step) := by
  simp [stopatCheck, State.fbit, hen, h]

/-- Settles O11: STOP is the adoption of a fence step, STOPAT_ENABLE the check of STOPAT against the step counter. -/
theorem stopsSetFence : Obligations.StopsSetFence := by
  unfold Obligations.StopsSetFence
  refine ⟨fun s f hf hbelow => ⟨seqStopWrite s, rfl, ?_⟩, fun s p d hp hle => ?_, fun s hle => ⟨seqStopat s, rfl, ?_⟩,
    fun s hlt => ⟨seqStopat s, rfl, ?_⟩⟩
  · rw [seqStopWrite_eq, ← hf, adoptFence_of_below _ hbelow]
    have hsend := sendFence_frame f s.devnum (Fr.refl 0x4000 { s with seq := { s.seq with fence := some (f, s.devnum) } }) rfl
    have hseq := hsend.h_seq rfl
    exact ⟨(congrArg Seq.fence hseq :), (congrArg Seq.st hseq :), (congrArg Seq.step hseq :), hsend.h_mem rfl, hsend.h_evq rfl,
      (onlyFields.of_frame [] (by decide) hsend :), fun l hl => mem_fences_sendFence _ _ hl,
      fun l hl => link_sendFence_of_unused _ _ hl⟩
  · exact congrArg Host.Outcome.next ((seqStopWrite_eq s).trans (adoptFence_of_pending _ hp hle))
  · have ht : seqStopat s = s.fset F.SEQ_CTL_STOPAT_EN 1 := stopatCheck_of_le hle
    rw [ht]
    exact ⟨s.fget_fset_same _ 1, rfl, rfl, (onlyFields.refl _ s).fset List.mem_cons_self 1⟩
  · let u := (s.fset F.SEQ_CTL_STOPAT_EN 1).fset F.SEQ_CTL_STOPAT_EN 0
    have ht : seqStopat s = u.raise F.SEQ_EVT_CMD 5 9 ([1] ++ w64 s.seq.stopAt ++ w64 s.seq.step) :=
      stopatCheck_of_lt (s.fget_fset_same _ 1) hlt
    have hen : u.fget (evten F.SEQ_EVT_CMD) = s.fget (evten F.SEQ_EVT_CMD) := by
      rw [State.fget_fset_ne _ _ (by decide), State.fget_fset_ne _ _ (by decide)]
    have hoff : u.fget F.SEQ_CTL_STOPAT_EN = 0 := State.fget_fset_same _ _ 0
    have hu : onlyFields [F.SEQ_CTL_STOPAT_EN, F.SEQ_EVT_CMD] s u :=
      ((onlyFields.refl _ s).fset List.mem_cons_self 1).fset List.mem_cons_self 0
    rw [ht]
    exact ⟨(u.fget_raise_ne _ _ _ (by decide)).trans hoff, posted_raise _ _ _ rfl rfl rfl rfl hen, u.seq_raise _ _ _ _,
      hu.raise (List.mem_cons_of_mem _ List.mem_cons_self) _ _ _⟩

end Sys2Proof.Machine
end

section
/-! The ellipsis limit, checkpoints and votes of the sequencer (R34, R49, R50, R53). -/
namespace Sys2Proof.Machine

theorem seqLong_of_passed {s : State} (hst : s.seq.st = .ellipsis ∨ s.seq.st = .dbgHold) (hlim : s.fget F.SEQ_ELLIM_LIMIT_US ≠ 0)
    (hns : s.fget F.SEQ_ELLIM_LIMIT_US * 1000 < s.seq.ellNs) (honce : s.seq.longRaised = false) :
    seqLong s = ({ s with seq := { s.seq with longRaised := true } } : State).raise F.SEQ_EVT_LONG 5 1
      (w64 s.seq.step ++ [s.causeBits.toNat, s.seq.ellNs / 1000]) := by
  rcases hst with h | h <;> simp [seqLong, h, hlim, hns, honce]

/-- A checkpoint as it is committed: with the frames and the rim entries that arrived before the boundary (R48). -/
def ckptClosed (s : State) (c : Ckpt) : Ckpt :=
  { c with
    frames := s.usedLinks.map fun l => (l, s.ckptFrames l)
    lanes := ((List.range 16).filter s.inEn).map fun g => (g, s.ckptLanes g) }

/-- The body and the commit record of a checkpoint written to its slot (R49). -/
def ckptWritten (c : Ckpt) (s : State) : State := slotWrite c.base (ckptRecord c) (slotWrite (c.base + 64) (ckptBody c) s)

theorem ckptWritten_frame (c : Ckpt) (s : State) : Fr 0x8004020a1 s (ckptWritten c s) :=
  slotWrite_frame _ _ (slotWrite_frame _ _ (Fr.refl _ s) rfl) rfl

/-- What a frame with the memory block as its only registers leaves of the other blocks. -/
theorem fget_of_memFrame {s t : State} {g : Fld} (h : Fr 0x8004020a1 s t) (hg : g.block ≠ 10) : t.fget g = s.fget g := by
  have hbit : Nat.testBit (0x8004020a1 >>> 25) g.block = false := Nat.testBit_two_pow_of_ne (n := 10) hg.symm
  exact h.h_regs g (by rwa [Nat.testBit_shiftRight] at hbit)

/-- A slot in host memory is written by messages to the host alone. -/
theorem ckptWritten_of_host {c : Ckpt} (s : State) (h : isHost c.base = true) (h64 : isHost (c.base + 64) = true) :
    ckptWritten c s = (s.emit (.hostWrite (c.base + 64) (ckptBody c))).emit (.hostWrite c.base (ckptRecord c)) := by
  simp [ckptWritten, slotWrite, h, h64]

/-- The sequencer once a checkpoint has been committed: its slot holds it, and the other slot is the next (R49). -/
def Seq.committed (q : Seq) (slot : Nat) (c : Ckpt) : Seq :=
  { q with ckpt := none, ckptNext := 1 - slot, ckpts := kvSet none q.ckpts c.base (some c) }

theorem kvGet_committed_slot (q : Seq) (slot : Nat) (c : Ckpt) : kvGet none (q.committed slot c).ckpts c.base = some c :=
  (kvGet_kvSet none q.ckpts c.base c.base (some c)).trans (if_pos rfl)

theorem kvGet_committed_ne {b : Nat} {c : Ckpt} (q : Seq) (slot : Nat) (hb : b ≠ c.base) :
    kvGet none (q.committed slot c).ckpts b = kvGet none q.ckpts b :=
  kvGet_kvSet_ne none none q.ckpts (some c) hb

/-- The state in which SEQ_CKPT_DONE is raised. -/
def ckptCommitted (slot : Nat) (c : Ckpt) (s : State) : State :=
  ({ ckptWritten c s with seq := (ckptWritten c s).seq.committed slot c } : State).fset F.SEQ_CKPT_STAT_LAST_OK 1

theorem ckptComplete_of_ok {s : State} {slot : Nat} {c : Ckpt} (failAddr : Nat) (hck : s.seq.ckpt = some (slot, c))
    (hin : s.ckptFramesIn = true) :
    ckptComplete true failAddr s =
      (ckptCommitted slot (ckptClosed s c) s).raise F.SEQ_EVT_CKPT_DONE 5 6 (w64 c.ucyc ++ [slot]) := by
  unfold ckptComplete
  rw [hck]
  simp only [hin, if_true, Bool.not_true, Bool.false_eq_true, if_false]
  rfl

theorem seq_ckptCommitted (slot : Nat) (c : Ckpt) (s : State) : (ckptCommitted slot c s).seq = s.seq.committed slot c :=
  congrArg (Seq.committed · slot c) ((ckptWritten_frame c s).h_seq rfl)

theorem step_ckptCommitted (slot : Nat) (c : Ckpt) (s : State) : (ckptCommitted slot c s).seq.step = s.seq.step :=
  (congrArg Seq.step (seq_ckptCommitted slot c s) :)

theorem ptime_ckptCommitted (slot : Nat) (c : Ckpt) (s : State) : (ckptCommitted slot c s).ptime = s.ptime :=
  (ckptWritten_frame c s).h_ptime rfl

/-- A committed checkpoint changes, outside the memory block, LAST_OK alone. -/
theorem fget_ckptCommitted_ne {g : Fld} (slot : Nat) (c : Ckpt) (s : State) (hg : g.block ≠ 10)
    (hk : g.key ≠ F.SEQ_CKPT_STAT_LAST_OK.key) : (ckptCommitted slot c s).fget g = s.fget g :=
  (State.fget_fset_ne _ _ hk).trans (fget_of_memFrame (ckptWritten_frame c s) hg :)

theorem fget_ckptDone_evten_ckptCommitted (slot : Nat) (c : Ckpt) (s : State) :
    (ckptCommitted slot c s).fget (evten F.SEQ_EVT_CKPT_DONE) = s.fget (evten F.SEQ_EVT_CKPT_DONE) :=
  fget_ckptCommitted_ne slot c s (by decide) (by decide)

theorem evq_ckptCommitted_of_host {c : Ckpt} (slot : Nat) (s : State) (h : isHost c.base = true)
    (h64 : isHost (c.base + 64) = true) : (ckptCommitted slot c s).evq = s.evq :=
  (congrArg State.evq (ckptWritten_of_host s h h64) :)

theorem mem_ckptCommitted_of_host {c : Ckpt} (slot : Nat) (s : State) (h : isHost c.base = true)
    (h64 : isHost (c.base + 64) = true) : (ckptCommitted slot c s).mem = s.mem :=
  (congrArg State.mem (ckptWritten_of_host s h h64) :)

theorem ckptComplete_of_fail {s : State} {slot : Nat} {c : Ckpt} (failAddr : Nat) (hck : s.seq.ckpt = some (slot, c)) :
    ckptComplete false failAddr s =
      (({ s with seq := { s.seq with ckpt := none } } : State).fset F.SEQ_CKPT_STAT_LAST_OK 0).raise F.SEQ_EVT_CKPT_FAIL 5 7
        (w64 c.ucyc ++ [slot] ++ w64 failAddr) := by
  simp [ckptComplete, hck]

/-- Settles O12: each report is one event raised in a state that the lemmas above describe. -/
theorem sequencerReports : Obligations.SequencerReports := by
  unfold Obligations.SequencerReports
  refine ⟨fun s hst hlim hns honce => ⟨seqLong s, rfl, ?_⟩, fun a s slot c hck hin => ⟨ckptComplete true a.toNat s, rfl, ?_⟩,
    fun a s slot c hck => ⟨ckptComplete false a.toNat s, rfl, ?_⟩, fun m s => ⟨_, rfl, ?_⟩⟩
  · rw [seqLong_of_passed hst hlim hns honce]
    let u : State := { s with seq := { s.seq with longRaised := true } }
    have hseq : ∀ p, (u.raise F.SEQ_EVT_LONG 5 1 p).seq = { s.seq with longRaised := true } := fun p => u.seq_raise _ _ _ _
    have hu : onlyFields [F.SEQ_EVT_LONG] s u := onlyFields.refl _ s
    exact ⟨posted_raise _ _ _ rfl rfl rfl rfl rfl, (congrArg Seq.longRaised (hseq _) :), (congrArg Seq.st (hseq _) :),
      (congrArg Seq.step (hseq _) :), hu.raise List.mem_cons_self _ _ _⟩
  · rw [ckptComplete_of_ok _ hck hin]
    let d := ckptClosed s c
    let u := ckptCommitted slot d s
    have hseq : ∀ p, (u.raise F.SEQ_EVT_CKPT_DONE 5 6 p).seq = s.seq.committed slot d := fun p =>
      (u.seq_raise _ _ _ _).trans (seq_ckptCommitted slot d s)
    have hstep : u.seq.step = s.seq.step := step_ckptCommitted slot d s
    have htime : u.ptime = s.ptime := ptime_ckptCommitted slot d s
    have hen : u.fget (evten F.SEQ_EVT_CKPT_DONE) = s.fget (evten F.SEQ_EVT_CKPT_DONE) :=
      fget_ckptDone_evten_ckptCommitted slot d s
    refine ⟨State.fget_raise_same _ _ _ _ _, fun hon => ?_, fun hbase hbody => ?_, (congrArg Seq.ckpt (hseq _) :),
      (congrArg Seq.ckptNext (hseq _) :), ?_, ?_, fun b hb => ?_, (congrArg Seq.step (hseq _) :), fun g hblock hok hdone => ?_⟩
    · have hon' : u.fbit (evten F.SEQ_EVT_CKPT_DONE) = true := (congrArg (· == 1) hen).trans hon
      rw [State.evq_raise_on _ _ _ _ _ hon', List.getLast?_concat, hstep, htime]
    · exact ⟨posted_raise _ _ _ rfl (evq_ckptCommitted_of_host slot s hbase hbody) hstep htime hen,
        (u.mem_raise _ _ _ _).trans (mem_ckptCommitted_of_host slot s hbase hbody)⟩
    · exact (u.fget_raise_ne _ _ _ (by decide)).trans (State.fget_fset_same _ _ 1)
    · rw [hseq]
      exact congrArg Option.isSome (kvGet_committed_slot s.seq slot d)
    · rw [hseq]
      exact kvGet_committed_ne s.seq slot hb
    · exact (u.fget_raise_ne _ _ _ hdone).trans (fget_ckptCommitted_ne slot d s hblock hok)
  · rw [ckptComplete_of_fail _ hck]
    let u := ({ s with seq := { s.seq with ckpt := none } } : State).fset F.SEQ_CKPT_STAT_LAST_OK 0
    have hseq : ∀ p, (u.raise F.SEQ_EVT_CKPT_FAIL 5 7 p).seq = { s.seq with ckpt := none } := fun p => u.seq_raise _ _ _ _
    have hu : onlyFields [F.SEQ_CKPT_STAT_LAST_OK, F.SEQ_EVT_CKPT_FAIL] s u :=
      onlyFields.fset (t := { s with seq := _ }) (onlyFields.refl _ s) List.mem_cons_self 0
    exact ⟨posted_raise _ _ _ rfl rfl rfl rfl (State.fget_fset_ne _ _ (by decide)), (congrArg Seq.ckpt (hseq _) :),
      (congrArg Seq.ckpts (hseq _) :), u.mem_raise _ _ _ _, u.out_raise _ _ _ _,
      (u.fget_raise_ne _ _ _ (by decide)).trans (State.fget_fset_same _ _ 0), (congrArg Seq.step (hseq _) :),
      hu.raise (List.mem_cons_of_mem _ List.mem_cons_self) _ _ _⟩
  · exact ⟨posted_raise _ _ _ rfl rfl rfl rfl rfl, s.seq_raise _ _ _ _, s.mem_raise _ _ _ _,
      (onlyFields.refl _ s).raise List.mem_cons_self _ _ _⟩

end Sys2Proof.Machine
end

section
/-! LNK_TOPO where LNK_DEVNUM.NUM holds more than its 18 bits (R258), and the refutation of O36. -/
namespace Sys2Proof.Machine

/-- A device alone in a collection is the only one in its list, 0 hops from itself. -/
theorem topoNums_alone : (topoNums 0 false [] []).1.find? (fun e => e.1 == 0) = some (0, 0, 0) := by decide

/-- The registers of a device that keeps NUM and stands 0 hops from itself, once the field has cut NUM to 18 bits. -/
def collectedAlone (s : State) : State :=
  (((s.fset F.LNK_DEVNUM_START 0).fset F.LNK_DEVNUM_VALID 1).fset F.LNK_DEVNUM_NUM (s.fget F.LNK_DEVNUM_NUM)).fset
    F.LNK_HOPS_HOPS 0

theorem fget_num_collectedAlone (s : State) :
    (collectedAlone s).fget F.LNK_DEVNUM_NUM = s.fget F.LNK_DEVNUM_NUM % 2 ^ 18 :=
  (State.fget_fset_ne _ _ (by decide)).trans (State.fget_fset_same _ _ _)

/-- A collection ends at a device that stands alone in it (R258, R259, R272). -/
theorem exec_lnkTopo_alone (s : State) :
    exec (.lnkTopo 0 0 false [] []) s = .next (({ collectedAlone s with fp := topoPrint [] } : State).raise F.LNKG_EVT_TOPO 9 10
      [0xFF, s.fget F.LNK_DEVNUM_NUM, 0, 1, 0]) := rfl

/-- A device in IDLE whose NUM holds 2^18. -/
def numBeyondWidth : State := { State.reset with fields := [(F.LNK_DEVNUM_NUM.key, 2 ^ 18)] }

/-- Refutes O36, at its clause on LNK_TOPO: a device of a collection is said to keep NUM, and the model writes NUM back cut to the
18 bits of the field. The clause ranges over every state as plain data and bounds no value of the register file: here NUM holds
2^18, and a collection in which the device stands alone leaves 0. The model's own writes cut a field to its width
(`State.fget_fset_same`), so the clause lacks a hypothesis: that NUM is below 2^18. -/
theorem not_linkWordsTakeEffect : ¬ Obligations.LinkWordsTakeEffect := by
  unfold Obligations.LinkWordsTakeEffect
  rintro ⟨-, -, -, -, -, -, -, -, -, htopo, -⟩
  obtain ⟨t, ht, -, -, hfound, -⟩ := htopo 0 0 false [] [] numBeyondWidth (fun h => absurd h (by decide))
  obtain ⟨-, -, hnum, -⟩ := hfound 0 0 (by decide) (by decide) topoNums_alone
  rw [exec_lnkTopo_alone] at ht
  cases ht
  rw [State.fget_raise_ne _ _ _ _ (by decide)] at hnum
  have hkept := (fget_num_collectedAlone numBeyondWidth).symm.trans hnum
  exact absurd hkept (by decide)

end Sys2Proof.Machine
end

section
/-! PAIR_STEP of a store that waits for a clause access at its lexicon bank (R216, R432), and the refutation of O42. -/
namespace Sys2Proof.Machine

/-- The write of a zero byte to the first lexicon address that a clause has issued, through the port that the NoC uses (R216). -/
def queuedWrite : LexAcc :=
  { m := 0, step := 0, write := true, addr := 0x40000000, stride := 1, data := [0#8], portB := true }

/-- The control pair is halted, the host path stands at L3, and the clause write waits at its bank. -/
def haltedBehindWrite : State :=
  { State.reset with
    umem := { State.reset.umem with lexq := [queuedWrite] }
    mgt := { State.reset.mgt with pairs := [(0, { halted := true })] }
    dbg := { State.reset.dbg with hostLevel := 3 } }

/-- An instruction that stores one byte to the next word of the same bank. -/
def storeNextWord : CoreEffect := { gpr := [], csr := [], priv := 3, pc := 0, stores := [(0x40000020, 0xAA#8)], lr := none }

/-- The store waits for the bank's port, which serves the clause write first. -/
theorem memGet_pairStepReq_queuedWrite :
    memGet (pairStepReq .host 0 storeNextWord haltedBehindWrite).mem 0x40000000 = 0#8 := by decide

/-- Refutes O42, at its clause on PAIR_STEP: memory is said to change only where the instruction stores. A store to the lexicon
waits for its bank port, and the bank serves the clause accesses queued there first (R216): here a clause's write to address
0x40000000 waits, the instruction stores to 0x40000020 of the same bank, and both bytes change. The clause lacks a hypothesis: that
no clause write waits at a bank the instruction stores to. -/
theorem not_debugRunControl : ¬ Obligations.DebugRunControl := by
  unfold Obligations.DebugRunControl
  rintro ⟨-, -, -, -, -, -, -, -, -, -, -, -, -, -, -, -, hstep⟩
  obtain ⟨t, ht, -, -, -, -, -, -, -, -, -, hmem⟩ :=
    hstep .host 0 storeNextWord haltedBehindWrite (by decide) rfl rfl (by decide) (by decide)
  have hkept := hmem 0x40000000 (by decide)
  cases ht
  exact absurd (memGet_pairStepReq_queuedWrite.symm.trans hkept) (by decide)

end Sys2Proof.Machine
end

section
/-! The working copies of a clause's dictionary: the sweep, the repair, and the rewrite from the master (R76, R77, R89, R133). -/
namespace Sys2Proof.Machine

/-- A map whose entries are filtered by key reads as before at the keys kept, and as the default at the others. -/
theorem kvGet_filter_key {α : Type} (d : α) (m : List (Nat × α)) (p : Nat → Bool) (k : Nat) :
    kvGet d (m.filter fun b => p b.1) k = if p k then kvGet d m k else d := by
  induction m with
  | nil => simp [kvGet]
  | cons b m ih =>
    obtain ⟨a, v⟩ := b
    by_cases hak : a = k
    · subst hak
      cases hp : p a <;> simp [kvGet, hp, ih]
    · cases hp : p a <;> simp [kvGet, hp, ih, hak]

/-! ### Reading a working copy (R76) -/

theorem Clause.dictRead_of_good {x : Clause} {ph e : Nat} (h : (x.dictCopy ph e).2 = true) :
    x.dictRead ph e = ((x.dictCopy ph e).1, none) := by
  simp [Clause.dictRead, h]

theorem Clause.dictRead_of_neighbours {x : Clause} {ph e : Nat} {v : Word} (hbad : (x.dictCopy ph e).2 = false)
    (hnext : ∀ d, d ∈ [64, 1] → x.dictCopy (x.nextPhrase ph d) e = (v, true)) : x.dictRead ph e = (v, some true) := by
  simp [Clause.dictRead, hbad, hnext 64, hnext 1]

theorem Clause.dictRead_of_disagreement {x : Clause} {ph e : Nat} (hbad : (x.dictCopy ph e).2 = false)
    (hnext : (x.dictCopy (x.nextPhrase ph 64) e).2 = false ∨ (x.dictCopy (x.nextPhrase ph 1) e).2 = false ∨
      (x.dictCopy (x.nextPhrase ph 64) e).1 ≠ (x.dictCopy (x.nextPhrase ph 1) e).1) :
    x.dictRead ph e = ((x.dictCopy ph e).1, some false) := by
  rcases hnext with h | h | h <;> simp [Clause.dictRead, hbad, h]

/-- A copy that is written reads the value with good parity. -/
@[simp] theorem Clause.dictCopy_putCopy_same (x : Clause) (ph e : Nat) (v : Word) :
    (x.putCopy ph e v).dictCopy ph e = (v, true) := by
  rw [Clause.dictCopy, Clause.putCopy, kvGet_kvSet, if_pos rfl]
  by_cases h : v = kvGet 0 x.dictW e
  · rw [if_pos h]
    exact congrArg (·, true) h.symm
  · rw [if_neg h]
    rfl

theorem Clause.dictRead_putCopy_same (x : Clause) (ph e : Nat) (v : Word) :
    (x.putCopy ph e v).dictRead ph e = (v, none) := by
  simp [Clause.dictRead_of_good]

/-! ### What a sweep does (R77, R89) -/

theorem dictSweep_of_retired {c ph e : Nat} {s : State} (hsp : (s.clause c).spared = true) (hret : (s.clause c).retired = ph) :
    dictSweep c ph e s = s := by
  simp [dictSweep, hsp, hret]

theorem dictSweep_of_good {c ph e : Nat} {s : State} (h : ((s.clause c).dictCopy ph e).2 = true) : dictSweep c ph e s = s := by
  simp [dictSweep, dictOutcome, Clause.dictRead_of_good h]

/-- The copy of a phrase in use is read. -/
theorem dictSweep_of_in_use {c ph e : Nat} {s : State} (huse : (s.clause c).spared = true → (s.clause c).retired ≠ ph) :
    dictSweep c ph e s = dictOutcome c ph e w64none s := by
  by_cases hsp : (s.clause c).spared = true
  · simp [dictSweep, huse hsp]
  · simp [dictSweep, hsp]

/-- The copy written with v, and the repair counted. -/
def copyRepaired (c ph e : Nat) (v : Word) (s : State) : State :=
  (s.count (F.CLS_CNT_DFIX_COUNT c)).modClause c fun x => x.putCopy ph e v

/-- An uncorrectable failure counted, and kept as raised. -/
def copyFailed (c ph e : Nat) (s : State) : State :=
  (s.count (F.CLS_CNT_DUE_COUNT c)).modClause c fun x => { x with dictUe := kvSet false x.dictUe (1024 * ph + e) true }

theorem dictOutcome_of_repair {c ph e : Nat} {v : Word} {s : State} (step : List Nat)
    (h : (s.clause c).dictRead ph e = (v, some true)) :
    dictOutcome c ph e step s =
      sparingFix c ph e ((copyRepaired c ph e v s).raise (F.CLS_EVT_DICT_FIX c) (0x80 + c) 1 ([ph, e] ++ step)) := by
  simp [dictOutcome, h, copyRepaired]

theorem dictOutcome_of_failure_raised {c ph e : Nat} {s : State} (step : List Nat)
    (h : ((s.clause c).dictRead ph e).2 = some false) (hue : kvGet false (s.clause c).dictUe (1024 * ph + e) = true) :
    dictOutcome c ph e step s = s.count (F.CLS_CNT_DUE_COUNT c) := by
  simp [dictOutcome, h, hue]

theorem dictOutcome_of_failure_new {c ph e : Nat} {s : State} (step : List Nat)
    (h : ((s.clause c).dictRead ph e).2 = some false) (hue : kvGet false (s.clause c).dictUe (1024 * ph + e) = false) :
    dictOutcome c ph e step s =
      (copyFailed c ph e s).raise (F.CLS_EVT_DICT_UE c) (0x80 + c) 2 ([ph, e] ++ step) := by
  simp [dictOutcome, h, hue, copyFailed]

/-! ### The registers of a clause that report the dictionary (R142, R145) -/

theorem F.key_CLS_CNT_DFIX_COUNT_ne_evt (c : Nat) : (F.CLS_CNT_DFIX_COUNT c).key ≠ (F.CLS_EVT_DICT_FIX c).key := by
  simp only [Fld.key, F.CLS_CNT_DFIX_COUNT, F.CLS_EVT_DICT_FIX]
  omega

theorem F.key_evten_CLS_EVT_DICT_FIX_ne_count (c : Nat) :
    (evten (F.CLS_EVT_DICT_FIX c)).key ≠ (F.CLS_CNT_DFIX_COUNT c).key := by
  simp only [Fld.key, evten, F.CLS_CNT_DFIX_COUNT, F.CLS_EVT_DICT_FIX]
  omega

theorem F.key_CLS_CNT_DUE_COUNT_ne_evt (c : Nat) : (F.CLS_CNT_DUE_COUNT c).key ≠ (F.CLS_EVT_DICT_UE c).key := by
  simp only [Fld.key, F.CLS_CNT_DUE_COUNT, F.CLS_EVT_DICT_UE]
  omega

theorem F.key_evten_CLS_EVT_DICT_UE_ne_count (c : Nat) :
    (evten (F.CLS_EVT_DICT_UE c)).key ≠ (F.CLS_CNT_DUE_COUNT c).key := by
  simp only [Fld.key, evten, F.CLS_CNT_DUE_COUNT, F.CLS_EVT_DICT_UE]
  omega

/-! ### A repair and an uncorrectable failure (R76, R89) -/

/-- A repaired read posts CLS_DICT_FIX, counts the repair and rewrites the copy alone. -/
theorem dictOutcome_repairs {c ph e : Nat} {v : Word} {s t : State} (step : List Nat)
    (h : (s.clause c).dictRead ph e = (v, some true)) (ht : t = dictOutcome c ph e step s) :
    posted (F.CLS_EVT_DICT_FIX c) (0x80 + c) 1 ([ph, e] ++ step) s t ∧ counted (F.CLS_CNT_DFIX_COUNT c) s t ∧
      t.clause c = (s.clause c).putCopy ph e v ∧ onlyFields [F.CLS_CNT_DFIX_COUNT c, F.CLS_EVT_DICT_FIX c] s t ∧
      t.mem = s.mem ∧ t.seq = s.seq := by
  let r := (copyRepaired c ph e v s).raise (F.CLS_EVT_DICT_FIX c) (0x80 + c) 1 ([ph, e] ++ step)
  have htr : t = sparingFix c ph e r := ht.trans (dictOutcome_of_repair step h)
  have hfr : Fr 0x400000 r t := htr ▸ sparingFix_frame c ph e (Fr.refl _ r) (Nat.and_self _)
  have hfget : ∀ g, t.fget g = r.fget g := hfr.fget (by decide)
  have hposted : posted (F.CLS_EVT_DICT_FIX c) (0x80 + c) 1 ([ph, e] ++ step) s r :=
    posted_raise _ _ _ rfl rfl rfl rfl (s.fget_count_ne (F.key_evten_CLS_EVT_DICT_FIX_ne_count c))
  have hcounted : counted (F.CLS_CNT_DFIX_COUNT c) s r :=
    (State.fget_raise_ne _ _ _ _ (F.key_CLS_CNT_DFIX_COUNT_ne_evt c)).trans (s.fget_count_same (F.CLS_CNT_DFIX_COUNT c))
  have hsame : t.clause c = r.clause c := congrArg (kvGet ({} : Clause) · c) (hfr.h_clauses rfl)
  have hclause : r.clause c = (s.clause c).putCopy ph e v := by
    simp [r, copyRepaired]
  have hfields : onlyFields [F.CLS_CNT_DFIX_COUNT c, F.CLS_EVT_DICT_FIX c] s r :=
    onlyFields_raise (t := copyRepaired c ph e v s) _ _ _ (onlyFields_count (onlyFields_refl _ s) List.mem_cons_self)
      (List.mem_cons_of_mem _ List.mem_cons_self)
  exact ⟨posted_to hposted (hfr.h_evq rfl) (hfget _), (hfget _).trans hcounted,
    hsame.trans hclause, fun g hg => (hfget g).trans (hfields g hg),
    (hfr.h_mem rfl).trans (State.mem_raise _ _ _ _ _), (hfr.h_seq rfl).trans (State.seq_raise _ _ _ _ _)⟩

/-- An uncorrectable read counts the failure and posts CLS_DICT_UE unless it has done so since the copy was last written; no copy
changes. -/
theorem dictOutcome_fails {c ph e : Nat} {s t : State} (step : List Nat) (h : ((s.clause c).dictRead ph e).2 = some false)
    (ht : t = dictOutcome c ph e step s) :
    counted (F.CLS_CNT_DUE_COUNT c) s t ∧ (kvGet false (s.clause c).dictUe (1024 * ph + e) = true → t.evq = s.evq) ∧
      (kvGet false (s.clause c).dictUe (1024 * ph + e) = false →
        posted (F.CLS_EVT_DICT_UE c) (0x80 + c) 2 ([ph, e] ++ step) s t) ∧
      kvGet false (t.clause c).dictUe (1024 * ph + e) = true ∧
      t.clause c = { s.clause c with dictUe := (t.clause c).dictUe } ∧
      onlyFields [F.CLS_CNT_DUE_COUNT c, F.CLS_EVT_DICT_UE c] s t ∧ t.mem = s.mem ∧ t.seq = s.seq := by
  have hcount : onlyFields [F.CLS_CNT_DUE_COUNT c, F.CLS_EVT_DICT_UE c] s (s.count (F.CLS_CNT_DUE_COUNT c)) :=
    onlyFields_count (onlyFields_refl _ s) List.mem_cons_self
  cases hue : kvGet false (s.clause c).dictUe (1024 * ph + e) with
  | true =>
    rw [dictOutcome_of_failure_raised step h hue] at ht
    subst ht
    exact ⟨s.fget_count_same _, fun _ => rfl, nofun, hue, rfl, hcount, rfl, rfl⟩
  | false =>
    rw [dictOutcome_of_failure_new step h hue] at ht
    subst ht
    have hclause : ∀ p, ((copyFailed c ph e s).raise (F.CLS_EVT_DICT_UE c) (0x80 + c) 2 p).clause c =
        { s.clause c with dictUe := kvSet false (s.clause c).dictUe (1024 * ph + e) true } := by
      simp [copyFailed]
    refine ⟨(State.fget_raise_ne _ _ _ _ (F.key_CLS_CNT_DUE_COUNT_ne_evt c)).trans (s.fget_count_same _), nofun,
      fun _ => posted_raise _ _ _ rfl rfl rfl rfl (s.fget_count_ne (F.key_evten_CLS_EVT_DICT_UE_ne_count c)), ?_, ?_,
      onlyFields_raise (t := copyFailed c ph e s) _ _ _ hcount (List.mem_cons_of_mem _ List.mem_cons_self),
      State.mem_raise _ _ _ _ _, State.seq_raise _ _ _ _ _⟩
    · simp [hclause, kvGet_kvSet]
    · simp [hclause]

/-- Settles O13: the sweep reads the copy of a phrase in use, and `dictOutcome_repairs` and `dictOutcome_fails` say what a read
that fails parity does. -/
theorem sweepChecksEntry : Obligations.SweepChecksEntry := by
  unfold Obligations.SweepChecksEntry
  refine ⟨fun c ph e ups s u hu hgood => ?_, fun c ph e ups s u v hu huse hbad hnext => ?_,
    fun c ph e ups s u hu huse hbad hnext => ?_⟩
  · subst hu
    exact congrArg Host.Outcome.next (hgood.elim dictSweep_of_good fun ⟨hsp, hret⟩ => dictSweep_of_retired hsp hret)
  · obtain ⟨hposted, hcounted, hclause, hfields, hmem, hseq⟩ := dictOutcome_repairs w64none
      (Clause.dictRead_of_neighbours hbad hnext) (dictSweep_of_in_use huse)
    refine ⟨dictSweep c ph e u, hu ▸ rfl, hposted, hcounted, ?_, ?_, hfields, hmem, hseq⟩
    · rw [hclause, Clause.dictRead_putCopy_same]
    · rw [hclause]
      rfl
  · obtain ⟨hcounted, hagain, hposted, hue, hclause, hfields, hmem, hseq⟩ := dictOutcome_fails w64none
      (congrArg Prod.snd (Clause.dictRead_of_disagreement hbad hnext)) (dictSweep_of_in_use huse)
    refine ⟨dictSweep c ph e u, hu ▸ rfl, hcounted, hagain, hposted, hue, ?_, ?_, ?_, hfields, hmem, hseq⟩ <;> rw [hclause]

/-! ### The rewrite from the master (R76) -/

/-- What the clause holds once every working copy of an entry is written from the master. -/
def Clause.rewritten (x : Clause) (e : Nat) : Clause :=
  { x with
    dictW := kvSet 0 x.dictW e (kvGet 0 x.dictM e)
    dictBad := x.dictBad.filter fun b => b.1 % 1024 != e
    dictUe := x.dictUe.filter fun b => b.1 % 1024 != e }

theorem clause_dictRewrite_same (c e : Nat) (s : State) : (dictRewrite c e s).clause c = (s.clause c).rewritten e :=
  s.clause_modClause_same c fun x => x.rewritten e

theorem clause_dictRewrite_ne {c d : Nat} (e : Nat) (s : State) (h : d ≠ c) : (dictRewrite c e s).clause d = s.clause d :=
  s.clause_modClause_ne _ h

/-- The key of a copy of an entry below 1024 names the entry. -/
theorem copyKey_mod {x : Nat} (ph : Nat) (hx : x < 1024) : (1024 * ph + x) % 1024 = x := by omega

theorem Clause.dictBad_rewritten {x : Nat} (cl : Clause) (ph e : Nat) (hx : x < 1024) :
    kvGet none (cl.rewritten e).dictBad (1024 * ph + x) = if x = e then none else kvGet none cl.dictBad (1024 * ph + x) := by
  rw [Clause.rewritten, kvGet_filter_key none cl.dictBad (· % 1024 != e), copyKey_mod ph hx]
  by_cases h : x = e <;> simp [h]

theorem Clause.dictUe_rewritten_same {e : Nat} (cl : Clause) (ph : Nat) (he : e < 1024) :
    kvGet false (cl.rewritten e).dictUe (1024 * ph + e) = false := by
  rw [Clause.rewritten, kvGet_filter_key false cl.dictUe (· % 1024 != e), copyKey_mod ph he]
  simp

theorem Clause.dictW_rewritten (cl : Clause) (e x : Nat) :
    kvGet 0 (cl.rewritten e).dictW x = if x = e then kvGet 0 cl.dictM e else kvGet 0 cl.dictW x :=
  kvGet_kvSet 0 cl.dictW e x _

/-- Every copy of a rewritten entry reads the master's value with good parity. -/
theorem Clause.dictRead_rewritten {e : Nat} (cl : Clause) (ph : Nat) (he : e < 1024) :
    (cl.rewritten e).dictRead ph e = (kvGet 0 cl.dictM e, none) := by
  have hcopy : (cl.rewritten e).dictCopy ph e = (kvGet 0 cl.dictM e, true) := by
    rw [Clause.dictCopy, Clause.dictBad_rewritten cl ph e he, if_pos rfl, Clause.dictW_rewritten, if_pos rfl]
    rfl
  rw [Clause.dictRead_of_good (by rw [hcopy]), hcopy]

/-! ### The march test of the spare phrase (R133) -/

theorem exec_spareMarchPass_of_unused {c : Nat} {s : State} (ok : Bool) (hsp : (s.clause c).spared = false)
    (hmig : (s.clause c).mig = none) :
    exec (.spareMarchPass c ok) s = .next (s.modClause c fun x => { x with marchOk := ok }) := by
  show execSpareMarchPass c ok s = _
  simp [execSpareMarchPass, hsp, hmig]

/-- Settles O14: a rewritten clause reads the master's value in every copy of the entry, and the other entries keep their keys. -/
theorem rewriteRestoresEntry : Obligations.RewriteRestoresEntry := by
  unfold Obligations.RewriteRestoresEntry
  refine ⟨fun c e s he => ⟨dictRewrite c e s, rfl, ?_⟩,
    fun c ok s hsp hmig => ⟨_, exec_spareMarchPass_of_unused ok hsp hmig, s.clause_modClause_same c _,
      fun d hd => s.clause_modClause_ne _ hd, onlyFields_refl _ s, rfl, rfl, rfl⟩⟩
  simp only [clause_dictRewrite_same]
  exact ⟨fun ph => (s.clause c).dictRead_rewritten ph he, fun ph => (s.clause c).dictUe_rewritten_same ph he,
    fun ph x hx hne => ⟨by rw [Clause.dictBad_rewritten _ _ _ hx, if_neg hne], by rw [Clause.dictW_rewritten, if_neg hne]⟩,
    rfl, rfl, fun d hd => clause_dictRewrite_ne e s hd, onlyFields_refl _ s, rfl, rfl, rfl⟩

end Sys2Proof.Machine
end

section
/-! The clause accesses that a lexicon bank serves in one cycle (R107, R212, R214, R215, R223). -/
namespace Sys2Proof.Machine

/-! ### The traffic of user memory through an access -/

/-- What waits at the banks and what is on its way back: the part of user memory that error handling and stores leave alone. -/
def State.traffic (s : State) : List LexAcc × List NocAcc × List MemRet := (s.umem.lexq, s.umem.nocq, s.umem.rets)

theorem umem_sparingSeen (t : SparingTrigger) (s : State) : (sparingSeen t s).umem = s.umem :=
  (sparingSeen_frame t (Fr.refl 0x400000 s) rfl).h_umem rfl

theorem umem_store (a : Nat) (bs : List Byte) (s : State) : (s.store a bs).umem = s.umem :=
  (State.store_frame a bs (Fr.refl 0x20 s) rfl).h_umem rfl

theorem traffic_of_umem {s t : State} (h : t.umem = s.umem) : t.traffic = s.traffic := by rw [State.traffic, h]; rfl

theorem traffic_raise (s : State) (f : Fld) (src code : Nat) (p : List Nat) : (s.raise f src code p).traffic = s.traffic :=
  traffic_of_umem (s.umem_raise f src code p)

theorem traffic_memHot (hbm : Bool) (unit loc : Nat) (s : State) : (memHot hbm unit loc s).traffic = s.traffic := by
  unfold memHot
  dsimp only
  rw [apply_ite State.traffic, traffic_of_umem (umem_sparingSeen _ _), traffic_raise, ite_self]
  cases hbm <;> rfl

theorem traffic_memCe (a : Nat) (s : State) : (memCe a s).traffic = s.traffic := by
  unfold memCe
  dsimp only
  by_cases hlex : isLex a = true
  · rw [if_pos hlex, traffic_memHot, apply_ite State.traffic, traffic_raise, ite_self]
    rfl
  · rw [if_neg hlex, traffic_memHot, apply_ite State.traffic, traffic_raise, ite_self]
    rfl

theorem traffic_memUe (a master : Nat) (write : Bool) (s : State) : (memUe a master write s).traffic = s.traffic := by
  unfold memUe
  dsimp only
  by_cases hlex : isLex a = true
  · rw [if_pos hlex]
    exact traffic_raise _ _ _ _ _
  · rw [if_neg hlex]
    exact (traffic_of_umem (umem_sparingSeen _ _)).trans (traffic_raise _ _ _ _ _)

/-- The error handling of the word at an address, for a read or a write of a part of it (R223). -/
def wordChecked (master a : Nat) (write : Bool) (s : State) : State :=
  if s.memMark a == 1 then memCe a s else if s.memMark a == 2 then memUe a master write s else s

theorem userRead_eq (master a n : Nat) (s : State) :
    userRead master a n s = (s.bytes a n, s.memMark a == 2, wordChecked master a false s) := rfl

/-- The state in which a write stores its bytes: a whole word drops its mark, a part of one is checked (R223). -/
def wordOpened (master a : Nat) (bs : List Byte) (s : State) : State :=
  if bs.length == 32 then s.setMark a 0 else wordChecked master a true s

theorem userWrite_eq (master a : Nat) (bs : List Byte) (s : State) :
    userWrite master a bs s = (wordOpened master a bs s).store a bs := by
  unfold userWrite wordOpened
  split <;> rfl

theorem traffic_wordChecked (master a : Nat) (write : Bool) (s : State) : (wordChecked master a write s).traffic = s.traffic := by
  unfold wordChecked
  split_ifs
  · exact traffic_memCe a s
  · exact traffic_memUe a master write s
  · rfl

theorem traffic_userWrite (master a : Nat) (bs : List Byte) (s : State) : (userWrite master a bs s).traffic = s.traffic := by
  rw [userWrite_eq, traffic_of_umem (umem_store _ _ _), wordOpened]
  split
  · rfl
  · exact traffic_wordChecked master a true s

/-- A clause access that is performed leaves both queues. -/
theorem queues_performLex (a : LexAcc) (s : State) :
    (performLex a s).umem.lexq = s.umem.lexq ∧ (performLex a s).umem.nocq = s.umem.nocq := by
  unfold performLex
  split
  · have h := traffic_userWrite a.m a.addr a.data s
    exact ⟨congrArg (·.1) h, congrArg (·.2.1) h⟩
  · have h := traffic_wordChecked a.m a.addr false s
    exact ⟨congrArg (·.1) h, congrArg (·.2.1) h⟩

theorem queues_foldl_performLex (as : List LexAcc) (s : State) :
    (as.foldl (fun s a => performLex a s) s).umem.lexq = s.umem.lexq ∧
      (as.foldl (fun s a => performLex a s) s).umem.nocq = s.umem.nocq := by
  induction as generalizing s with
  | nil => exact ⟨rfl, rfl⟩
  | cons a as ih =>
    obtain ⟨hlexq, hnocq⟩ := queues_performLex a s
    exact ⟨(ih _).1.trans hlexq, (ih _).2.trans hnocq⟩

/-! ### What a bank takes out of its queue (R214, R215, R216) -/

/-- The state in which a bank performs the accesses it has taken: they are out of its queue, and the NoC accesses that wait for a
blocked port have waited one cycle more. -/
def lexTaken (bank : Nat) (s : State) : State :=
  { s with umem := { s.umem with
    lexq := lexDrop bank (lexHeads bank s.umem.lexq).length s.umem.lexq
    nocq := if s.nocBlocked bank then
        s.umem.nocq.map fun x => if lexBank x.addr = bank then { x with waited := x.waited + 1 } else x
      else s.umem.nocq } }

theorem lexServe_eq_foldl (bank : Nat) (s : State) :
    lexServe bank s = (lexHeads bank s.umem.lexq).foldl (fun s a => performLex a s) (lexTaken bank s) := by
  unfold lexServe lexTaken
  cases s.nocBlocked bank <;> rfl

theorem lexServe_of_single {bank : Nat} {s : State} {a : LexAcc} (h : lexHeads bank s.umem.lexq = [a]) :
    lexServe bank s = performLex a (lexTaken bank s) := by
  rw [lexServe_eq_foldl, h]
  rfl

/-- A bank with nothing queued serves nothing, and blocks no port. -/
theorem lexServe_of_empty {bank : Nat} {s : State} (h : s.umem.lexq.filter (fun x => lexBank x.addr == bank) = []) :
    lexServe bank s = s := by
  have hheads : lexHeads bank s.umem.lexq = [] := by rw [lexHeads, h]
  have hfree : s.nocBlocked bank = false := by
    rw [List.filter_eq_nil_iff] at h
    simp only [State.nocBlocked, List.any_eq_false]
    intro x hx hport
    exact h x hx (Bool.and_eq_true_iff.mp hport).1
  rw [lexServe_eq_foldl, hheads, lexTaken, hheads, hfree, List.length_nil, lexDrop]
  rfl

/-! ### Bytes stored in the lexicon (R206, R226) -/

theorem phys_of_isLex {a : Nat} (s : State) (h : isLex a = true) : s.phys a = a := by
  have hhbm : isHbm a = false := by
    simp only [isLex, isHbm, Bool.and_eq_true, decide_eq_true_eq, Bool.and_eq_false_iff, decide_eq_false_iff_not] at h ⊢
    omega
  rw [State.phys, hhbm]
  rfl

/-- No HBM page is redirected into the lexicon. -/
theorem eq_of_phys_isLex {a b : Nat} {s : State} (h : isLex b = true) (e : s.phys a = b) : a = b := by
  unfold State.phys at e
  simp only [isLex, Bool.and_eq_true, decide_eq_true_eq] at h
  split at e
  · split at e
    · omega
    · exact e
  · exact e

theorem byteAt_storeByte_same (a : Nat) (b : Byte) (s : State) : (s.storeByte a b).byteAt a = b :=
  (kvGet_kvSet _ s.mem _ _ b).trans (if_pos rfl)

theorem byteAt_storeByte_ne {a x : Nat} (b : Byte) (s : State) (ha : isLex a = true) (h : x ≠ a) :
    (s.storeByte a b).byteAt x = s.byteAt x := by
  have hphys : s.phys x ≠ s.phys a := by
    rw [phys_of_isLex s ha]
    exact fun e => h (eq_of_phys_isLex ha e)
  exact kvGet_kvSet_ne _ _ s.mem b hphys

/-- The lexicon is one range. -/
theorem isLex_of_between {a b x : Nat} (ha : isLex a = true) (hb : isLex b = true) (hax : a ≤ x) (hxb : x ≤ b) :
    isLex x = true := by
  simp only [isLex, Bool.and_eq_true, decide_eq_true_eq] at ha hb ⊢
  omega

theorem byteAt_store_outside {a x : Nat} {bs : List Byte} (s : State) (ha : isLex a = true)
    (hend : isLex (a + bs.length) = true) (hx : x < a ∨ a + bs.length ≤ x) : (s.store a bs).byteAt x = s.byteAt x := by
  induction bs generalizing a s with
  | nil => rfl
  | cons b bs ih =>
    rw [List.length_cons] at hend hx
    have hend' : isLex (a + 1 + bs.length) = true := by rwa [Nat.add_assoc, Nat.add_comm 1]
    calc ((s.storeByte a b).store (a + 1) bs).byteAt x
        = (s.storeByte a b).byteAt x :=
          ih _ (isLex_of_between ha hend (by omega) (by omega)) hend' (by omega)
      _ = s.byteAt x := byteAt_storeByte_ne b s ha (by omega)

theorem byteAt_store_inside {a i : Nat} {bs : List Byte} (s : State) (ha : isLex a = true)
    (hend : isLex (a + bs.length) = true) (hi : i < bs.length) : some ((s.store a bs).byteAt (a + i)) = bs[i]? := by
  induction bs generalizing a i s with
  | nil => exact absurd hi (Nat.not_lt_zero i)
  | cons b bs ih =>
    rw [List.length_cons] at hend hi
    have hnext : isLex (a + 1) = true := isLex_of_between ha hend (by omega) (by omega)
    have hend' : isLex (a + 1 + bs.length) = true := by rwa [Nat.add_assoc, Nat.add_comm 1]
    cases i with
    | zero =>
      have hfirst : ((s.storeByte a b).store (a + 1) bs).byteAt a = (s.storeByte a b).byteAt a :=
        byteAt_store_outside _ hnext hend' (Or.inl a.lt_succ_self)
      exact congrArg some (hfirst.trans (byteAt_storeByte_same a b s))
    | succ i =>
      rw [show a + (i + 1) = a + 1 + i by omega]
      exact ih (s.storeByte a b) hnext hend' (by omega)

/-! ### A write of a word without an error mark (R212, R223) -/

theorem wordChecked_of_unmarked {a : Nat} {s : State} (master : Nat) (write : Bool) (h : s.memMark a = 0) :
    wordChecked master a write s = s := by
  rw [wordChecked, h]
  rfl

theorem byteAt_wordOpened_of_unmarked {a : Nat} {s : State} (master x : Nat) (bs : List Byte) (h : s.memMark a = 0) :
    (wordOpened master a bs s).byteAt x = s.byteAt x := by
  rw [wordOpened, wordChecked_of_unmarked master true h]
  split <;> rfl

/-- A write of a word without an error mark changes user memory and the stored bytes alone. -/
theorem userWrite_frame_of_unmarked {a : Nat} {s : State} (master : Nat) (bs : List Byte) (h : s.memMark a = 0) :
    Fr 0x2020 s (userWrite master a bs s) := by
  rw [userWrite_eq, wordOpened, wordChecked_of_unmarked master true h]
  exact State.store_frame a bs (Fr.ite (State.setMark_frame a 0 (Fr.refl 0x2020 s) rfl) (Fr.refl 0x2020 s)) rfl

theorem byteAt_userWrite_outside {a x : Nat} {bs : List Byte} {s : State} (master : Nat) (hmark : s.memMark a = 0)
    (ha : isLex a = true) (hend : isLex (a + bs.length) = true) (hx : x < a ∨ a + bs.length ≤ x) :
    (userWrite master a bs s).byteAt x = s.byteAt x := by
  rw [userWrite_eq, byteAt_store_outside _ ha hend hx, byteAt_wordOpened_of_unmarked master x bs hmark]

theorem byteAt_userWrite_inside {a i : Nat} {bs : List Byte} (master : Nat) (s : State)
    (ha : isLex a = true) (hend : isLex (a + bs.length) = true) (hi : i < bs.length) :
    some ((userWrite master a bs s).byteAt (a + i)) = bs[i]? := by
  rw [userWrite_eq]
  exact byteAt_store_inside _ ha hend hi

theorem performLex_of_write {a : LexAcc} (s : State) (h : a.write = true) : performLex a s = userWrite a.m a.addr a.data s := by
  rw [performLex, if_pos h]

/-! ### A read, and the return it answers (R107, R214, R223) -/

/-- The return waits for the access: that of its master and step, not served yet. -/
def LexAcc.answers (a : LexAcc) (y : MemRet) : Prop := y.m = a.m ∧ y.hbm = false ∧ y.due = a.step + 7 ∧ y.served = false

theorem LexAcc.not_answers {a : LexAcc} {y : MemRet} (h : y.m = a.m → y.hbm = true ∨ y.due ≠ a.step + 7 ∨ y.served = true) :
    ¬ a.answers y := by
  rintro ⟨hm, hhbm, hdue, hserved⟩
  rcases h hm with h | h | h
  · exact absurd (hhbm.symm.trans h) Bool.false_ne_true
  · exact h hdue
  · exact absurd (hserved.symm.trans h) Bool.false_ne_true

theorem performLex_go_cons_of_answers {a : LexAcc} {x : MemRet} (put : MemRet → MemRet) (rest : List MemRet)
    (h : a.answers x) : performLex.go a put (x :: rest) = put x :: rest := by
  obtain ⟨hm, hhbm, hdue, hserved⟩ := h
  simp [performLex.go, hm, hhbm, hdue, hserved]

theorem performLex_go_cons_of_not_answers {a : LexAcc} {y : MemRet} (put : MemRet → MemRet) (rest : List MemRet)
    (h : ¬ a.answers y) : performLex.go a put (y :: rest) = y :: performLex.go a put rest := by
  rw [performLex.go, if_neg]
  simpa [LexAcc.answers, and_assoc] using h

/-- The first return that waits for the access is the one it answers. -/
theorem performLex_go_append {a : LexAcc} {x : MemRet} {pre : List MemRet} (put : MemRet → MemRet) (rest : List MemRet)
    (hpre : ∀ y ∈ pre, ¬ a.answers y) (hx : a.answers x) :
    performLex.go a put (pre ++ x :: rest) = pre ++ put x :: rest := by
  induction pre with
  | nil => exact performLex_go_cons_of_answers put rest hx
  | cons y pre ih =>
    rw [List.cons_append, performLex_go_cons_of_not_answers put _ (hpre y List.mem_cons_self),
      ih fun z hz => hpre z (List.mem_cons_of_mem y hz), List.cons_append]

/-- The state with other returns on their way. -/
def State.setRets (s : State) (rets : List MemRet) : State := { s with umem := { s.umem with rets := rets } }

/-- The return served by a read: the bytes read, as values (R209, R223). -/
def MemRet.servedBy (x : MemRet) (s : State) (bytes : List Byte) (ue : Bool) : MemRet :=
  { x with served := true, vals := s.readVals x.width bytes ue }

/-- A read serves the return it answers, and does no more than the error handling of its word. -/
theorem performLex_of_read {a : LexAcc} {x : MemRet} {pre rest : List MemRet} {s : State} (hw : a.write = false)
    (hrets : s.umem.rets = pre ++ x :: rest) (hpre : ∀ y ∈ pre, ¬ a.answers y) (hx : a.answers x) :
    performLex a s = (wordChecked a.m a.addr false s).setRets
      (pre ++ x.servedBy s (s.bytes a.addr a.stride) (s.memMark a.addr == 2) :: rest) := by
  have hkept : (wordChecked a.m a.addr false s).umem.rets = pre ++ x :: rest :=
    (congrArg (·.2.2) (traffic_wordChecked a.m a.addr false s)).trans hrets
  simp only [performLex, hw, userRead_eq, Bool.false_eq_true, if_false, hkept, performLex_go_append _ rest hpre hx]
  rfl

/-! ### The values of a read (R209, R223) -/

theorem readVals_of_twostate {s : State} (width : Nat) (bytes : List Byte) (ue : Bool) (h : s.seq.twostate = true) :
    s.readVals width bytes ue = elemVals true width bytes := by
  simp [State.readVals, h]

theorem readVals_of_uncorrectable {s : State} {width j : Nat} (bytes : List Byte) (h : s.seq.twostate = false)
    (hj : j < width) (hj128 : j < 128) : (s.readVals width bytes true).getD j v0 = vX := by
  simp [State.readVals, h, hj, hj128]

/-! ### An uncorrectable word of the lexicon (R223) -/

theorem wordChecked_of_uncorrectable {a : Nat} {s : State} (master : Nat) (write : Bool) (h : s.memMark a = 2) :
    wordChecked master a write s = memUe a master write s := by
  rw [wordChecked, h]
  rfl

/-- The state in which MEM_LEX_UE is raised: the error counted for the device and for its bank. -/
def lexUeCounted (a : Nat) (s : State) : State :=
  { s.count F.MEM_CNT_LUE_COUNT with umem := { s.umem with lexUe := kvMod 0 s.umem.lexUe (lexBank a) (satSucc 32) } }

theorem memUe_of_isLex {a : Nat} (master : Nat) (write : Bool) (s : State) (h : isLex a = true) :
    memUe a master write s = (lexUeCounted a s).raise F.MEM_EVT_LEX_UE 10 2
      ([lexBank a, lexWord a, master, write.toNat] ++ if master < 256 then w64 s.seq.step else w64none) := by
  rw [memUe, if_pos h]
  rfl

/-- An uncorrectable word of the lexicon is counted and raised; no stored byte, no clause, no step and no other register changes. -/
theorem memUe_reports {a : Nat} {s t : State} (master : Nat) (write : Bool) (h : isLex a = true)
    (ht : t = memUe a master write s) :
    counted F.MEM_CNT_LUE_COUNT s t ∧ t.fget F.MEM_EVT_LEX_UE = 1 ∧ t.mem = s.mem ∧ t.clauses = s.clauses ∧ t.seq = s.seq ∧
      onlyFields [F.MEM_CNT_LUE_COUNT, F.MEM_EVT_LEX_UE] s t := by
  rw [ht, memUe_of_isLex master write s h]
  let w := lexUeCounted a s
  have hw : onlyFields [F.MEM_CNT_LUE_COUNT, F.MEM_EVT_LEX_UE] s w :=
    (onlyFields.refl _ s).fset List.mem_cons_self (satSucc 32 (s.fget F.MEM_CNT_LUE_COUNT))
  exact ⟨(w.fget_raise_ne _ _ _ (by decide)).trans (s.fget_count_same F.MEM_CNT_LUE_COUNT), w.fget_raise_same _ _ _ _,
    w.mem_raise _ _ _ _, w.clauses_raise _ _ _ _, w.seq_raise _ _ _ _,
    hw.raise (List.mem_cons_of_mem _ List.mem_cons_self) _ _ _⟩

/-! ### LEX_ACCESS_SERVE -/

theorem exec_lexAccessServe {ups : List Upset} {s u : State} (bank : Nat) (hu : u = upsets ups s) :
    exec (.lexAccessServe bank ups) s = .next (lexServe bank u) := by
  rw [hu]
  rfl

theorem queues_lexServe (bank : Nat) (s : State) :
    (lexServe bank s).umem.lexq = (lexTaken bank s).umem.lexq ∧ (lexServe bank s).umem.nocq = (lexTaken bank s).umem.nocq := by
  rw [lexServe_eq_foldl]
  exact queues_foldl_performLex _ _

theorem lexServe_kept_parts (bank : Nat) (s : State) :
    (lexServe bank s).clauses = s.clauses ∧ (lexServe bank s).seq = s.seq := by
  have h : Fr 0x8004020a0 s (lexServe bank s) := lexServe_frame bank (Fr.refl _ s) rfl
  exact ⟨h.h_clauses rfl, h.h_seq rfl⟩

/-- What a bank does with one read to serve: it checks the word and serves the return (R107, R214). -/
theorem lexServe_of_read {bank : Nat} {s : State} {a : LexAcc} {x : MemRet} {pre rest : List MemRet}
    (hone : lexHeads bank s.umem.lexq = [a]) (hw : a.write = false) (hrets : s.umem.rets = pre ++ x :: rest)
    (hpre : ∀ y ∈ pre, y.m = a.m → y.hbm = true ∨ y.due ≠ a.step + 7 ∨ y.served = true)
    (hx : a.answers x) :
    lexServe bank s = (wordChecked a.m a.addr false (lexTaken bank s)).setRets
      (pre ++ x.servedBy s (s.bytes a.addr a.stride) (s.memMark a.addr == 2) :: rest) :=
  (lexServe_of_single hone).trans
    (performLex_of_read (s := lexTaken bank s) hw hrets (fun y hy => LexAcc.not_answers (hpre y hy)) hx)

theorem lexq_lexServe_of_single {bank : Nat} {s : State} {a : LexAcc} (h : lexHeads bank s.umem.lexq = [a]) :
    (lexServe bank s).umem.lexq = lexDrop bank 1 s.umem.lexq := by
  rw [(queues_lexServe bank s).1, lexTaken, h]
  rfl

/-- Settles O28: a bank performs the accesses it takes in `lexTaken`; `byteAt_store_inside` and `byteAt_store_outside` give the
bytes of a write, `lexServe_of_read` the return of a read, `memUe_reports` the report of an uncorrectable word. -/
theorem lexiconServesClauses : Obligations.LexiconServesClauses := by
  unfold Obligations.LexiconServesClauses
  refine ⟨fun bank ups s u hu => leads_of (exec_lexAccessServe bank hu) ?_,
    fun bank ups s u hu hnone => (exec_lexAccessServe bank hu).trans (congrArg _ (lexServe_of_empty hnone)),
    fun bank ups s u a hu hone hw hlex hend hmark => leads_of (exec_lexAccessServe bank hu) ?_,
    fun bank ups s u a x pre rest hu hone hw hmark hrets hpre hm hhbm hdue hserved =>
      leads_of (exec_lexAccessServe bank hu) ?_,
    fun bank ups s u a x pre rest hu hone hw hlex hmark hrets hpre hm hhbm hdue hserved =>
      leads_of (exec_lexAccessServe bank hu) ?_⟩
  · exact ⟨(queues_lexServe bank u).1, (queues_lexServe bank u).2, lexServe_kept_parts bank u⟩
  · let w := lexTaken bank u
    have hserve : lexServe bank u = userWrite a.m a.addr a.data w :=
      (lexServe_of_single hone).trans (performLex_of_write w hw)
    have hfr : Fr 0x2020 w (userWrite a.m a.addr a.data w) := userWrite_frame_of_unmarked a.m a.data hmark
    have hrets : (userWrite a.m a.addr a.data w).umem.rets = u.umem.rets :=
      congrArg (·.2.2) (traffic_userWrite a.m a.addr a.data w)
    have hfields : onlyFields [] w (userWrite a.m a.addr a.data w) := onlyFields.of_frame [] (by decide) hfr
    refine ⟨?_, ?_, lexq_lexServe_of_single hone, ?_⟩ <;> rw [hserve]
    · exact fun i hi => byteAt_userWrite_inside a.m w hlex hend hi
    · exact fun x hx => byteAt_userWrite_outside a.m hmark hlex hend hx
    · exact ⟨hrets, hfr.h_clauses rfl, hfr.h_seq rfl, hfr.h_evq rfl, hfields⟩
  · have hserve := lexServe_of_read hone hw hrets hpre ⟨hm, hhbm, hdue, hserved⟩
    rw [wordChecked_of_unmarked (s := lexTaken bank u) a.m false hmark, hmark] at hserve
    refine ⟨?_, lexq_lexServe_of_single hone, ?_⟩ <;> rw [hserve]
    · rfl
    · exact ⟨rfl, rfl, rfl, rfl, onlyFields.refl [] u⟩
  · have hserve := lexServe_of_read hone hw hrets hpre ⟨hm, hhbm, hdue, hserved⟩
    rw [wordChecked_of_uncorrectable (s := lexTaken bank u) a.m false hmark, hmark] at hserve
    obtain ⟨hcount, hevent, hmem, hclauses, hseq, hfields⟩ := memUe_reports (s := lexTaken bank u) a.m false hlex rfl
    refine ⟨⟨x.servedBy u (u.bytes a.addr a.stride) true, ?_, rfl, rfl, fun htwo => readVals_of_twostate _ _ _ htwo,
      fun hfour j hj hj128 => readVals_of_uncorrectable _ hfour hj hj128⟩, ?_, ?_, lexq_lexServe_of_single hone, ?_⟩ <;>
      rw [hserve]
    · rfl
    · exact hcount
    · exact hevent
    · exact ⟨hmem, hclauses, hseq, hfields⟩

end Sys2Proof.Machine
end

section
/-! Changes one after the other, in the terms of Safety.lean. -/
namespace Sys2Proof.Machine

theorem onlyFields.trans {fs : List Fld} {s t u : State} (h : onlyFields fs s t) (g : onlyFields fs t u) : onlyFields fs s u :=
  fun x hx => (g x hx).trans (h x hx)

theorem onlyFields.mono {fs gs : List Fld} {s t : State} (h : onlyFields fs s t) (hsub : fs ⊆ gs) : onlyFields gs s t :=
  fun x hx => h x fun f hf => hx f (hsub hf)

theorem State.clause_congr {s t : State} (h : t.clauses = s.clauses) (c : Nat) : t.clause c = s.clause c :=
  congrArg (kvGet ({} : Clause) · c) h

end Sys2Proof.Machine
end

section
/-! Requests for phrase sparing (R133 to R137). -/
namespace Sys2Proof.Machine

/-- Where the fields of CLS_SPARE, its event bit and that bit's enable lie, as seen from CLS_SPARE.TARGET (R141, R142). -/
theorem F.keys_CLS_SPARE (c : Nat) :
    (F.CLS_SPARE_GO c).key = (F.CLS_SPARE_TARGET c).key + 7 ∧ (F.CLS_SPARE_RESULT c).key = (F.CLS_SPARE_TARGET c).key + 8 ∧
      (F.CLS_EVT_SPARE c).key + 634 = (F.CLS_SPARE_TARGET c).key ∧
      (evten (F.CLS_EVT_SPARE c)).key + 506 = (F.CLS_SPARE_TARGET c).key := by
  refine ⟨rfl, rfl, ?_, ?_⟩
  · simp only [Fld.key, F.CLS_SPARE_TARGET, F.CLS_EVT_SPARE]
    omega
  · simp only [Fld.key, evten, F.CLS_SPARE_TARGET, F.CLS_EVT_SPARE]
    omega

/-- The end of a sparing request sets RESULT, drops GO and posts CLS_SPARE; nothing else changes (R137, R147). -/
theorem spareReport_reports {c target result hold : Nat} {s t : State} (hr : result < 256)
    (ht : t = spareReport c target result hold s) :
    posted (F.CLS_EVT_SPARE c) (0x80 + c) 7 ([target, result] ++ w64 s.seq.step ++ [hold]) s t ∧
      t.fget (F.CLS_SPARE_GO c) = 0 ∧ t.fget (F.CLS_SPARE_RESULT c) = result ∧ t.clauses = s.clauses ∧ t.mem = s.mem ∧
      t.seq = s.seq ∧ onlyFields [F.CLS_SPARE_GO c, F.CLS_SPARE_RESULT c, F.CLS_EVT_SPARE c] s t := by
  obtain ⟨hgo, hres, hevt, hen⟩ := F.keys_CLS_SPARE c
  let u := (s.fset (F.CLS_SPARE_GO c) 0).fset (F.CLS_SPARE_RESULT c) result
  have hu : onlyFields [F.CLS_SPARE_GO c, F.CLS_SPARE_RESULT c, F.CLS_EVT_SPARE c] s u :=
    ((onlyFields.refl _ s).fset (by simp) 0).fset (by simp) result
  have hugo : u.fget (F.CLS_SPARE_GO c) = 0 := (State.fget_fset_ne _ _ (by omega)).trans (s.fget_fset_same _ 0)
  have hures : u.fget (F.CLS_SPARE_RESULT c) = result := (State.fget_fset_same _ _ _).trans (Nat.mod_eq_of_lt hr)
  have huen : u.fget (evten (F.CLS_EVT_SPARE c)) = s.fget (evten (F.CLS_EVT_SPARE c)) :=
    (State.fget_fset_ne _ _ (by omega)).trans (State.fget_fset_ne _ _ (by omega))
  subst ht
  exact ⟨posted_raise (t := u) _ _ _ rfl rfl rfl rfl huen, (u.fget_raise_ne _ _ _ (by omega)).trans hugo,
    (u.fget_raise_ne _ _ _ (by omega)).trans hures, u.clauses_raise _ _ _ _, u.mem_raise _ _ _ _, u.seq_raise _ _ _ _,
    hu.raise (by simp) _ _ _⟩

/-- The refusals of a sparing request in the order in which they are told (R133). -/
theorem State.spareRefusal_of_refused {c target r : Nat} {s : State}
    (h : 63 < target ∧ r = 2 ∨ target ≤ 63 ∧ s.loadingClause c = true ∧ r = 5 ∨
      target ≤ 63 ∧ s.loadingClause c = false ∧ (s.clause c).spared = true ∧ r = 1 ∨
      target ≤ 63 ∧ s.loadingClause c = false ∧ (s.clause c).spared = false ∧ (s.clause c).marchOk = false ∧ r = 3) :
    s.spareRefusal c target = some r := by
  unfold State.spareRefusal
  rcases h with ⟨ht, rfl⟩ | ⟨ht, hl, rfl⟩ | ⟨ht, hl, hs, rfl⟩ | ⟨ht, hl, hs, hm, rfl⟩
  · simp [ht, spareTarget]
  · simp [ht.not_gt, hl, spareLoading]
  · simp [ht.not_gt, hl, hs, spareInUse]
  · simp [ht.not_gt, hl, hs, hm, spareSelftest]

theorem State.spareRefusal_of_granted {c target : Nat} {s : State} (ht : target ≤ 63) (hl : s.loadingClause c = false)
    (hs : (s.clause c).spared = false) (hm : (s.clause c).marchOk = true) : s.spareRefusal c target = none := by
  simp [State.spareRefusal, ht.not_gt, hl, hs, hm]

/-! ### What a request does (R133 to R135) -/

/-- While a migration runs or a request waits only TARGET is written. -/
theorem spareGo_of_busy {c : Nat} {s : State} (target : Nat)
    (h : (s.clause c).mig.isSome = true ∨ (s.clause c).sparePend.isSome = true) :
    spareGo c target s = s.fset (F.CLS_SPARE_TARGET c) target := by
  simp [spareGo, h]

/-- A request waits for the directory of a RELOAD (log 56). -/
theorem spareGo_of_unread {c target : Nat} {s : State} (hmig : (s.clause c).mig = none) (hpend : (s.clause c).sparePend = none)
    (hun : s.reloadUnread = true) (ht : target ≤ 63) :
    spareGo c target s = ((s.fset (F.CLS_SPARE_TARGET c) target).fset (F.CLS_SPARE_GO c) 1).modClause c fun x =>
      { x with sparePend := some target } := by
  simp [spareGo, hmig, hpend, hun, ht]

/-- Whether a request waits for the directory of a RELOAD (log 56). -/
theorem not_waitsForDirectory {target : Nat} {s : State} (hread : target ≤ 63 → s.reloadUnread = false) :
    (decide (target ≤ 63) && s.reloadUnread) = false := by
  by_cases ht : target ≤ 63 <;> simp [ht, hread]

section
variable {c target : Nat} {s : State} (hmig : (s.clause c).mig = none) (hpend : (s.clause c).sparePend = none)
  (hread : target ≤ 63 → s.reloadUnread = false)
include hmig hpend hread

/-- A refused request reports at once (R133). -/
theorem spareGo_of_refused {r : Nat} (h : s.spareRefusal c target = some r) :
    spareGo c target s = spareReport c target r 0 (s.fset (F.CLS_SPARE_TARGET c) target) := by
  simp [-Bool.and_eq_true, spareGo, hmig, hpend, not_waitsForDirectory hread, h]

/-- A clause that is not loaded takes the mapping at once (R134). -/
theorem spareGo_of_unloaded (h : s.spareRefusal c target = none) (hl : (s.clause c).loaded = false) :
    spareGo c target s = spareReport c target 0 0 ((s.fset (F.CLS_SPARE_TARGET c) target).modClause c fun x =>
      { x with spared := true, retired := target }) := by
  simp [-Bool.and_eq_true, spareGo, hmig, hpend, not_waitsForDirectory hread, h, hl, spareDone]

/-- A loaded clause begins the migration (R135). -/
theorem spareGo_of_loaded (h : s.spareRefusal c target = none) (hl : (s.clause c).loaded = true) :
    spareGo c target s = ((s.fset (F.CLS_SPARE_TARGET c) target).fset (F.CLS_SPARE_GO c) 1).modClause c fun x =>
      { x with mig := some { target := target, noHold := s.migFree }, spareStep := s.seq.step } := by
  simp [-Bool.and_eq_true, spareGo, hmig, hpend, not_waitsForDirectory hread, h, hl]

end

/-- Settles O15: `spareReport_reports` says what the end of a request reports, and the lemmas above which requests end at once. -/
theorem spareGoDecides : Obligations.SpareGoDecides := by
  unfold Obligations.SpareGoDecides
  refine ⟨fun c target r s hmig hpend hread hrefused => leads_of rfl ?_,
    fun c target s hmig hpend hread ht hl hs hm hload => leads_of rfl ?_,
    fun c target s hmig hpend hread ht hl hs hm hload => leads_of rfl ?_,
    fun c target s hmig hpend hun ht => leads_of rfl ?_, fun c target s hbusy => leads_of rfl ?_⟩ <;>
  obtain ⟨hgo, hres, hevt, hen⟩ := F.keys_CLS_SPARE c <;>
  let u := s.fset (F.CLS_SPARE_TARGET c) target
  · have hr : r < 256 := by omega
    obtain ⟨hpost, hgo0, hresult, hclauses, hmem, hseq, hfields⟩ := spareReport_reports hr
      (spareGo_of_refused hmig hpend hread (State.spareRefusal_of_refused hrefused))
    have hu : onlyFields [F.CLS_SPARE_TARGET c] s u := (onlyFields.refl _ s).fset (by simp) target
    have htarget := hfields (F.CLS_SPARE_TARGET c) (by simp; omega)
    exact ⟨posted_from hpost rfl (s.fget_fset_ne _ (by omega)) rfl rfl, hgo0, hresult,
      htarget.trans (s.fget_fset_same _ target), hclauses, hmem, hseq,
      (hu.mono (by simp)).trans (hfields.mono (by simp))⟩
  · obtain ⟨hpost, -, hresult, hclauses, hmem, hseq, -⟩ := spareReport_reports (by decide)
      (spareGo_of_unloaded hmig hpend (fun _ => hread) (State.spareRefusal_of_granted ht hl hs hm) hload)
    refine ⟨posted_from hpost rfl (s.fget_fset_ne _ (by omega)) rfl rfl, hresult, ?_, fun d hd => ?_, hmem, hseq⟩
    · exact (State.clause_congr hclauses c).trans (u.clause_modClause_same c _)
    · exact (State.clause_congr hclauses d).trans (u.clause_modClause_ne _ hd)
  · rw [spareGo_of_loaded hmig hpend (fun _ => hread) (State.spareRefusal_of_granted ht hl hs hm) hload]
    let v := u.fset (F.CLS_SPARE_GO c) 1
    have hv : onlyFields [F.CLS_SPARE_TARGET c, F.CLS_SPARE_GO c] s v :=
      ((onlyFields.refl _ s).fset (by simp) target).fset (by simp) 1
    have hclause : ∀ g, (v.modClause c g).clause c = g (s.clause c) := v.clause_modClause_same c
    refine ⟨rfl, u.fget_fset_same _ 1, ?_, ?_, ?_, fun d hd => v.clause_modClause_ne _ hd, rfl, rfl, hv⟩ <;> rw [hclause]
    · rfl
    · exact hs
  · rw [spareGo_of_unread hmig hpend hun ht]
    let v := u.fset (F.CLS_SPARE_GO c) 1
    have hv : onlyFields [F.CLS_SPARE_TARGET c, F.CLS_SPARE_GO c] s v :=
      ((onlyFields.refl _ s).fset (by simp) target).fset (by simp) 1
    exact ⟨v.clause_modClause_same c _, fun d hd => v.clause_modClause_ne _ hd, u.fget_fset_same _ 1, rfl, rfl, rfl, hv⟩
  · rw [spareGo_of_busy target hbusy]
    exact ⟨rfl, rfl, rfl, rfl, (onlyFields.refl _ s).fset (by simp) target⟩

end Sys2Proof.Machine
end

section
/-! A fault log that stands inside the golden image (R317, R596), and the refutation of O60. -/
namespace Sys2Proof.Machine

/-- The golden image reads as the factory wrote it, whatever is stored (R317). -/
theorem State.flashRead_of_golden {o n : Nat} (s t : State) (h : ∀ i, i < n → isGolden (o + i) = true) :
    s.flashRead o n = t.flashRead o n := by
  refine List.map_congr_left fun i hi => ?_
  have hgold := h i (List.mem_range.mp hi)
  rw [State.flashGet, State.flashGet, if_pos hgold, if_pos hgold]

/-- The control pair's firmware runs, and the next place of its fault log is the second 64 bytes of the golden image. -/
def logInGolden : State := { State.reset with mgt := { State.reset.mgt with logPos := 0x3BE001 } }

theorem isGolden_logInGolden {i : Nat} (h : i < 64) : isGolden (0x80000 + 64 * 0x3BE001 + i) = true := by
  simp only [isGolden, Bool.and_eq_true, decide_eq_true_eq]
  omega

/-- Refutes O60, at its clause on LIFE_RECORD where the record's place begins no sector: the record is said to be readable at the
place that the log's position names, and the golden image cannot be written (R317). The clause bounds neither the position nor the
place: here position 0x3BE001 lies in the golden image, and records of 0 and of 1 powered hours both leave the factory's bytes
there. The log has 8,192 positions, and the clause lacks the hypothesis that its last clause has: that the position is below
8,192. -/
theorem not_sparingAndRecords : ¬ Obligations.SparingAndRecords := by
  unfold Obligations.SparingAndRecords
  rintro ⟨-, -, -, -, -, -, hlife, -⟩
  obtain ⟨t, -, -, -, -, hnone, -⟩ := hlife 0 0 0x3BE001 logInGolden (by decide) rfl (by decide)
  obtain ⟨u, -, -, -, -, hone, -⟩ := hlife 1 0 0x3BE001 logInGolden (by decide) rfl (by decide)
  rw [t.flashRead_of_golden u fun i => isGolden_logInGolden] at hnone
  exact absurd (hnone.symm.trans hone) (by decide)

end Sys2Proof.Machine
end

section
/-! Array operations under debug (R138, R428 to R430, R446). -/
namespace Sys2Proof.Machine

/-! ### What is refused, and in which order (R430) -/

/-- RESULT of an operation as it is decided at GO (R430): 0 where it is carried out. -/
def State.arrCode (s : State) (a : ArrOp) : Nat :=
  if s.level a.path < arrLevel a.op then 2
  else if s.seq.st ∉ [.ready, .stopped, .dbgHold] then 1
  else if a.op = 5 then 0
  else if (s.clause a.clause).loaded = false then 1
  else if 511 < a.bp ∨ (a.bank = true ∧ s.seq.twostate = false) ∨
      a.op = 4 ∧ (s.cqOf a.clause a.bp).length ≤ a.entry % 32 then 4
  else if s.closedTo (arrLevel a.op) a.clause = true then 3
  else if a.op = 2 ∧ s.forced a.clause (vsKey a.bp a.bank.toNat a.entry) = none ∧ 64 ≤ s.forceCount then 5
  else if a.op = 3 ∧ s.forced a.clause (vsKey a.bp a.bank.toNat a.entry) = none then 6
  else 0

/-- A RESULT other than 0 is a refusal. -/
def refusalOf (r : Nat) : Option Nat := if r = 0 then none else some r

theorem refusalOf_ite (p : Prop) [Decidable p] (r q : Nat) :
    refusalOf (if p then r else q) = if p then refusalOf r else refusalOf q := apply_ite refusalOf p r q

theorem State.arrRefusal_eq (s : State) (a : ArrOp) : s.arrRefusal a = refusalOf (s.arrCode a) := by
  unfold State.arrRefusal State.arrCode
  simp only [refusalOf_ite]
  simp [refusalOf, or_assoc, and_assoc]

theorem State.arrCode_lt (s : State) (a : ArrOp) : s.arrCode a < 256 := by
  unfold State.arrCode
  split_ifs <;> decide

theorem State.arrCode_of_granted {s : State} {a : ArrOp} (h : s.arrRefusal a = none) : s.arrCode a = 0 := by
  rw [State.arrRefusal_eq, refusalOf] at h
  by_contra hne
  simp [hne] at h

theorem State.arrRefusal_getD (s : State) (a : ArrOp) : (s.arrRefusal a).getD 0 = s.arrCode a := by
  rw [State.arrRefusal_eq, refusalOf]
  by_cases h : s.arrCode a = 0 <;> simp [h]

/-! ### The end of an operation (R446) -/

/-- RESULT is written and GO falls. -/
def arrDone (r : Nat) (s : State) : State := (s.fset F.DBG_ARRD_RESULT r).fset F.DBG_ARR_GO 0

/-- No operation waits any longer. -/
def State.clearArr (s : State) : State := { s with dbg := { s.dbg with arr := none } }

theorem State.clearArr_of_none {s : State} (h : s.dbg.arr = none) : s.clearArr = s := by
  rw [State.clearArr, ← h]

theorem fget_result_arrDone {r : Nat} (s : State) (hr : r < 256) : (arrDone r s).fget F.DBG_ARRD_RESULT = r :=
  (State.fget_fset_ne _ _ (by decide)).trans ((s.fget_fset_same _ r).trans (Nat.mod_eq_of_lt hr))

theorem fget_go_arrDone (r : Nat) (s : State) : (arrDone r s).fget F.DBG_ARR_GO = 0 := State.fget_fset_same _ _ 0

/-- The end of an operation leaves the other fields. -/
theorem fget_arrDone_ne {g : Fld} (r : Nat) (s : State) (hres : g.key ≠ F.DBG_ARRD_RESULT.key)
    (hgo : g.key ≠ F.DBG_ARR_GO.key) : (arrDone r s).fget g = s.fget g :=
  (State.fget_fset_ne _ _ hgo).trans (s.fget_fset_ne r hres)

theorem forced_arrDone (r c k : Nat) (s : State) : (arrDone r s).forced c k = s.forced c k := rfl

theorem vsRead_arrDone (r c k : Nat) (s : State) : (arrDone r s).vsRead c k = s.vsRead c k := rfl

theorem clause_arrDone (r c : Nat) (s : State) : (arrDone r s).clause c = s.clause c := rfl

theorem onlyFields.arrDone {fs : List Fld} {s t : State} (h : onlyFields fs s t) (r : Nat) (hres : F.DBG_ARRD_RESULT ∈ fs)
    (hgo : F.DBG_ARR_GO ∈ fs) : onlyFields fs s (arrDone r t) := (h.fset hres r).fset hgo 0

/-- What an operation does that is carried out or refused. -/
theorem arrRun_eq (a : ArrOp) (s : State) :
    arrRun a s = arrDone (s.arrCode a) (if s.arrCode a = 0 then arrAct a s.clearArr else s.clearArr) := by
  unfold arrRun
  rw [State.arrRefusal_eq, refusalOf]
  by_cases h : s.arrCode a = 0
  · rw [if_pos h, if_pos h, h]
    rfl
  · rw [if_neg h, if_neg h]
    rfl

/-! ### An operation as it is written (R428, R446) -/

/-- The state with other register fields. -/
def State.withFields (s : State) (fs : Kv Nat) : State := { s with fields := fs }

/-- From s to t nothing changes but register fields. -/
def RegsOnly (s t : State) : Prop := ∃ fs, t = s.withFields fs

theorem RegsOnly.refl (s : State) : RegsOnly s s := ⟨s.fields, rfl⟩

theorem RegsOnly.fset {s t : State} (h : RegsOnly s t) (f : Fld) (v : Nat) : RegsOnly s (t.fset f v) := by
  obtain ⟨fs, rfl⟩ := h
  exact ⟨_, rfl⟩

/-- DBG_ARR names an operation. -/
def arrNamed (a : ArrOp) (s : State) : State :=
  ((((s.fset F.DBG_ARR_OP a.op).fset F.DBG_ARR_CLAUSE a.clause).fset F.DBG_ARR_BP a.bp).fset F.DBG_ARR_BANK a.bank.toNat).fset
    F.DBG_ARR_ENTRY a.entry

/-- DBG_ARRD.VALUE holds the operand of DEPOSIT and FORCE. -/
def arrOperand (a : ArrOp) (s : State) : State :=
  if a.op = 1 ∨ a.op = 2 then s.fset F.DBG_ARRD_VALUE a.val.toNat else s

/-- The registers that name an operation and its operand. -/
def arrNames : List Fld :=
  [F.DBG_ARR_OP, F.DBG_ARR_CLAUSE, F.DBG_ARR_BP, F.DBG_ARR_BANK, F.DBG_ARR_ENTRY, F.DBG_ARRD_VALUE]

theorem arrNamed_changes (a : ArrOp) (s : State) :
    RegsOnly s (arrNamed a (arrOperand a s)) ∧ onlyFields arrNames s (arrNamed a (arrOperand a s)) := by
  have hop : RegsOnly s (arrOperand a s) ∧ onlyFields arrNames s (arrOperand a s) := by
    unfold arrOperand
    split
    · exact ⟨(RegsOnly.refl s).fset _ _, (onlyFields.refl _ s).fset (by simp [arrNames]) _⟩
    · exact ⟨RegsOnly.refl s, onlyFields.refl _ s⟩
  obtain ⟨hregs, hfields⟩ := hop
  exact ⟨((((hregs.fset _ _).fset _ _).fset _ _).fset _ _).fset _ _,
    ((((hfields.fset (by simp [arrNames]) _).fset (by simp [arrNames]) _).fset (by simp [arrNames]) _).fset
      (by simp [arrNames]) _).fset (by simp [arrNames]) _⟩

/-- What GO does: an operation that is granted on a clause with a migration waits, every other is carried out or refused. -/
def arrStart (a : ArrOp) (s : State) : State :=
  if s.arrCode a = 0 ∧ a.op ≠ 5 ∧ (s.clause a.clause).mig ≠ none then
    ({ s with dbg := { s.dbg with arr := some a } } : State).fset F.DBG_ARR_GO 1
  else arrRun a s

theorem arrGo_of_free {a : ArrOp} {s : State} (h : s.dbg.arr = none) : arrGo a s = arrStart a (arrNamed a s) := by
  simp only [arrGo, h, Option.isSome_none, Bool.false_eq_true, if_false]
  show (if (((arrNamed a s).arrRefusal a).isNone && a.op != 5 && ((arrNamed a s).clause a.clause).mig.isSome) = true then _
    else _) = arrStart a (arrNamed a s)
  refine if_congr ?_ rfl rfl
  rw [State.arrRefusal_eq, refusalOf]
  by_cases hc : (arrNamed a s).arrCode a = 0 <;> simp [hc, Option.isSome_iff_ne_none]

theorem arrGo_of_waiting {a b : ArrOp} {s : State} (h : s.dbg.arr = some b) : arrGo a s = s := by
  simp [arrGo, h]

theorem arrGoVal_of_waiting {a b : ArrOp} {s : State} (h : s.dbg.arr = some b) : arrGoVal a s = s := by
  simp [arrGoVal, h]

/-- The operation that RELALL names: the address fields are ignored and keep what they hold (R428). -/
def relallOp (p : Path) (s : State) : ArrOp :=
  ⟨p, 5, s.fget F.DBG_ARR_CLAUSE, s.fget F.DBG_ARR_BP, s.fbit F.DBG_ARR_BANK, s.fget F.DBG_ARR_ENTRY, v0⟩

/-- The commands on an entry or a queue slot, each with the operation it writes. -/
def entryOps (p : Path) (c bp entry : Nat) (bank : Bool) (v : Val) : List (Instr × ArrOp) :=
  [(.read p c bp bank entry, ⟨p, 0, c, bp, bank, entry, v0⟩), (.deposit p c bp bank entry v, ⟨p, 1, c, bp, bank, entry, v⟩),
    (.force p c bp bank entry v, ⟨p, 2, c, bp, bank, entry, v⟩), (.release p c bp bank entry, ⟨p, 3, c, bp, bank, entry, v0⟩),
    (.cqread p c bp entry, ⟨p, 4, c, bp, false, entry, v0⟩)]

theorem exec_relall {p : Path} {s : State} (hfree : s.dbg.arr = none) :
    exec (.relall p) s = .next (arrStart (relallOp p s) (arrNamed (relallOp p s) (arrOperand (relallOp p s) s))) :=
  congrArg Host.Outcome.next (arrGo_of_free hfree)

theorem exec_entryOp {p : Path} {c bp entry : Nat} {bank : Bool} {v : Val} {i : Instr} {a : ArrOp} {s : State}
    (h : (i, a) ∈ entryOps p c bp entry bank v) (hfree : s.dbg.arr = none) :
    exec i s = .next (arrStart a (arrNamed a (arrOperand a s))) := by
  have hval : ∀ a, arrGoVal a s = arrGo a (s.fset F.DBG_ARRD_VALUE a.val.toNat) := fun a => by simp [arrGoVal, hfree]
  simp only [entryOps, List.mem_cons, Prod.mk.injEq, List.not_mem_nil, or_false] at h
  obtain ⟨rfl, rfl⟩ | ⟨rfl, rfl⟩ | ⟨rfl, rfl⟩ | ⟨rfl, rfl⟩ | ⟨rfl, rfl⟩ := h
  · exact congrArg Host.Outcome.next (arrGo_of_free hfree)
  · exact congrArg Host.Outcome.next ((hval _).trans (arrGo_of_free hfree))
  · exact congrArg Host.Outcome.next ((hval _).trans (arrGo_of_free hfree))
  · exact congrArg Host.Outcome.next (arrGo_of_free hfree)
  · exact congrArg Host.Outcome.next (arrGo_of_free hfree)

theorem op_clause_of_mem_entryOps {p : Path} {c bp entry : Nat} {bank : Bool} {v : Val} {i : Instr} {a : ArrOp}
    (h : (i, a) ∈ entryOps p c bp entry bank v) : a.op ≠ 5 ∧ a.clause = c := by
  simp only [entryOps, List.mem_cons, Prod.mk.injEq, List.not_mem_nil, or_false] at h
  obtain ⟨-, rfl⟩ | ⟨-, rfl⟩ | ⟨-, rfl⟩ | ⟨-, rfl⟩ | ⟨-, rfl⟩ := h <;> exact ⟨by simp, rfl⟩

/-! ### Refused, granted and waiting operations, once they are written -/

section
variable {a : ArrOp} {s u : State} (hregs : RegsOnly s u)
include hregs

theorem arrCode_of_regsOnly : u.arrCode a = s.arrCode a := by
  obtain ⟨fs, rfl⟩ := hregs
  rfl

theorem clearArr_of_regsOnly (hfree : s.dbg.arr = none) : u.clearArr = u := by
  obtain ⟨fs, rfl⟩ := hregs
  exact State.clearArr_of_none hfree

theorem arrStart_of_refused (hfree : s.dbg.arr = none) (hcode : s.arrCode a ≠ 0) : arrStart a u = arrDone (s.arrCode a) u := by
  rw [← arrCode_of_regsOnly hregs] at hcode ⊢
  rw [arrStart, if_neg (fun h => hcode h.1), arrRun_eq, if_neg hcode, clearArr_of_regsOnly hregs hfree]

theorem arrStart_of_granted (hfree : s.dbg.arr = none) (hcode : s.arrCode a = 0)
    (hmig : a.op = 5 ∨ (s.clause a.clause).mig = none) : arrStart a u = arrDone 0 (arrAct a u) := by
  have hnow : ¬ (a.op ≠ 5 ∧ (u.clause a.clause).mig ≠ none) := by
    obtain ⟨fs, rfl⟩ := hregs
    exact fun h => hmig.elim h.1 h.2
  rw [← arrCode_of_regsOnly hregs] at hcode
  rw [arrStart, if_neg (fun h => hnow h.2), arrRun_eq, if_pos hcode, hcode, clearArr_of_regsOnly hregs hfree]

theorem arrStart_of_migration (hcode : s.arrCode a = 0) (hop : a.op ≠ 5) (hmig : (s.clause a.clause).mig ≠ none) :
    arrStart a u = ({ u with dbg := { u.dbg with arr := some a } } : State).fset F.DBG_ARR_GO 1 := by
  have hwait : (u.clause a.clause).mig ≠ none := by
    obtain ⟨fs, rfl⟩ := hregs
    exact hmig
  rw [← arrCode_of_regsOnly hregs] at hcode
  rw [arrStart, if_pos ⟨hcode, hop, hwait⟩]

end

/-- A granted operation acts in the state that has taken its name and operand. -/
theorem exec_entryOp_of_granted {p : Path} {c bp entry : Nat} {bank : Bool} {v : Val} {i : Instr} {a : ArrOp} {s : State}
    (h : (i, a) ∈ entryOps p c bp entry bank v) (hfree : s.dbg.arr = none) (hok : s.arrRefusal a = none)
    (hmig : (s.clause a.clause).mig = none) :
    ∃ fs, onlyFields arrNames s (s.withFields fs) ∧ exec i s = .next (arrDone 0 (arrAct a (s.withFields fs))) := by
  obtain ⟨hregs, hfields⟩ := arrNamed_changes a s
  have hexec := (exec_entryOp h hfree).trans
    (congrArg _ (arrStart_of_granted hregs hfree (State.arrCode_of_granted hok) (.inr hmig)))
  obtain ⟨fs, hfs⟩ := hregs
  rw [hfs] at hfields hexec
  exact ⟨fs, hfields, hexec⟩

/-- What the end of a refused operation leaves (R430). -/
theorem arrDone_refused {r : Nat} {s u : State} (hregs : RegsOnly s u) (hfields : onlyFields arrNames s u) (hr : r < 256) :
    (arrDone r u).fget F.DBG_ARRD_RESULT = r ∧ (arrDone r u).fget F.DBG_ARR_GO = 0 ∧ (arrDone r u).dbg = s.dbg ∧
      steady s (arrDone r u) ∧ (arrDone r u).evq = s.evq ∧
      onlyFields [F.DBG_ARR_OP, F.DBG_ARR_CLAUSE, F.DBG_ARR_BP, F.DBG_ARR_BANK, F.DBG_ARR_ENTRY, F.DBG_ARR_GO,
        F.DBG_ARRD_VALUE, F.DBG_ARRD_RESULT] s (arrDone r u) := by
  have hall := (hfields.mono (gs := [F.DBG_ARR_OP, F.DBG_ARR_CLAUSE, F.DBG_ARR_BP, F.DBG_ARR_BANK, F.DBG_ARR_ENTRY,
    F.DBG_ARR_GO, F.DBG_ARRD_VALUE, F.DBG_ARRD_RESULT]) (by simp [arrNames])).arrDone r (by simp) (by simp)
  obtain ⟨fs, rfl⟩ := hregs
  exact ⟨fget_result_arrDone _ hr, fget_go_arrDone _ _, rfl, ⟨rfl, rfl, rfl⟩, rfl, hall⟩

/-! ### Value stores and forces (R61, R65, R429) -/

theorem vsWrite_of_forced {c key : Nat} {s : State} (v : Val) (h : (s.forced c key).isSome = true) : vsWrite c key v s = s := by
  simp [vsWrite, h]

theorem vsRead_vsWrite_same {c key : Nat} {s : State} (v : Val) (h : s.forced c key = none) :
    (vsWrite c key v s).vsRead c key = v := by
  rw [vsWrite, h, Option.isSome_none, if_neg Bool.false_ne_true, State.vsRead, State.clause_modClause_same]
  exact (kvGet_kvSet s.dfl _ key key v).trans (if_pos rfl)

theorem vsRead_vsWrite_ne {c key k : Nat} (v : Val) (s : State) (h : k ≠ key) :
    (vsWrite c key v s).vsRead c k = s.vsRead c k := by
  unfold vsWrite
  split
  · rfl
  · rw [State.vsRead, State.clause_modClause_same]
    exact kvGet_kvSet_ne _ _ _ _ h

theorem clause_vsWrite_ne {c d : Nat} (key : Nat) (v : Val) (s : State) (h : d ≠ c) :
    (vsWrite c key v s).clause d = s.clause d := by
  unfold vsWrite
  split
  · rfl
  · exact s.clause_modClause_ne _ h

theorem forced_setForce_same (c key : Nat) (v : Option Val) (s : State) : (setForce c key v s).forced c key = v :=
  (kvGet_kvSet none s.dbg.forces _ _ v).trans (if_pos rfl)

theorem forced_setForce_ne {c d key k : Nat} (v : Option Val) (s : State) (h : forceKey d k ≠ forceKey c key) :
    (setForce c key v s).forced d k = s.forced d k := kvGet_kvSet_ne _ _ s.dbg.forces v h

/-- An entry that a force no longer names is released (R429, R546). -/
theorem forced_of_filter {c k : Nat} {s t : State} (p : Nat → Bool) (ht : t.dbg.forces = s.dbg.forces.filter fun e => p (e.1 / 262144))
    (hk : k < 262144) (hc : p c = false) : t.forced c k = none := by
  have hclause : forceKey c k / 262144 = c := by
    unfold forceKey
    omega
  rw [State.forced, ht, kvGet_filter_key none s.dbg.forces fun x => p (x / 262144), hclause, hc]
  rfl

/-! ### The commands -/

/-- RESULT of an operation as the statement writes it, by the number of the operation (R430). -/
theorem exists_arrOp_of_listed {p : Path} {c bp entry op r key : Nat} {bank : Bool} {v : Val} {i : Instr} {s : State}
    (hfree : s.dbg.arr = none)
    (hi : (i, op) ∈ [(.read p c bp bank entry, 0), (.deposit p c bp bank entry v, 1), (.force p c bp bank entry v, 2),
      (.release p c bp bank entry, 3), (.cqread p c bp entry, 4), (.relall p, 5)]) (hkey : key = vsKey bp bank.toNat entry)
    (hr : r = (if s.level p < (if op = 0 ∨ op = 4 then 1 else 2) then 2 else if s.seq.st ∉ [.ready, .stopped, .dbgHold] then 1
      else if op = 5 then 0 else if (s.clause c).loaded = false then 1
      else if 511 < bp ∨ (bank = true ∧ s.seq.twostate = false ∧ op ≠ 4) ∨ op = 4 ∧ (s.cqOf c bp).length ≤ entry % 32 then 4
      else if s.closedTo (if op = 0 ∨ op = 4 then 1 else 2) c = true then 3
      else if op = 2 ∧ s.forced c key = none ∧ 64 ≤ s.forceCount then 5 else if op = 3 ∧ s.forced c key = none then 6 else 0)) :
    ∃ a, exec i s = .next (arrStart a (arrNamed a (arrOperand a s))) ∧ s.arrCode a = r := by
  have hexec : ∀ j a, (j, a) ∈ entryOps p c bp entry bank v →
      exec j s = .next (arrStart a (arrNamed a (arrOperand a s))) := fun _ _ h => exec_entryOp h hfree
  subst hkey hr
  simp only [List.mem_cons, Prod.mk.injEq, List.not_mem_nil, or_false] at hi
  obtain ⟨rfl, rfl⟩ | ⟨rfl, rfl⟩ | ⟨rfl, rfl⟩ | ⟨rfl, rfl⟩ | ⟨rfl, rfl⟩ | ⟨rfl, rfl⟩ := hi
  · exact ⟨⟨p, 0, c, bp, bank, entry, v0⟩, hexec _ _ (by simp [entryOps]), by simp [State.arrCode, arrLevel]⟩
  · exact ⟨⟨p, 1, c, bp, bank, entry, v⟩, hexec _ _ (by simp [entryOps]), by simp [State.arrCode, arrLevel]⟩
  · exact ⟨⟨p, 2, c, bp, bank, entry, v⟩, hexec _ _ (by simp [entryOps]), by simp [State.arrCode, arrLevel]⟩
  · exact ⟨⟨p, 3, c, bp, bank, entry, v0⟩, hexec _ _ (by simp [entryOps]), by simp [State.arrCode, arrLevel]⟩
  · exact ⟨⟨p, 4, c, bp, false, entry, v0⟩, hexec _ _ (by simp [entryOps]), by simp [State.arrCode, arrLevel]⟩
  · exact ⟨relallOp p s, exec_relall hfree, by simp [State.arrCode, arrLevel, relallOp]⟩

/-! ### What a granted operation does (R428, R429) -/

/-- READ returns the value of the entry and whether it is forced. -/
theorem read_returns (p : Path) (c bp entry : Nat) (bank : Bool) (s : State) :
    (arrAct ⟨p, 0, c, bp, bank, entry, v0⟩ s).fget F.DBG_ARRD_VALUE = (s.vsRead c (vsKey bp bank.toNat entry)).toNat ∧
      (arrAct ⟨p, 0, c, bp, bank, entry, v0⟩ s).fbit F.DBG_ARRD_FORCED = (s.forced c (vsKey bp bank.toNat entry)).isSome := by
  let key := vsKey bp bank.toNat entry
  constructor
  · calc (arrAct ⟨p, 0, c, bp, bank, entry, v0⟩ s).fget F.DBG_ARRD_VALUE
        = (s.fset F.DBG_ARRD_VALUE (s.vsRead c key).toNat).fget F.DBG_ARRD_VALUE := State.fget_fset_ne _ _ (by decide)
      _ = (s.vsRead c key).toNat := (s.fget_fset_same _ _).trans (Nat.mod_eq_of_lt (s.vsRead c key).isLt)
  · have hbit : (arrAct ⟨p, 0, c, bp, bank, entry, v0⟩ s).fget F.DBG_ARRD_FORCED = (s.forced c key).isSome.toNat % 2 ^ 1 :=
      State.fget_fset_same _ _ _
    rw [State.fbit, hbit]
    cases (s.forced c key).isSome <;> rfl

/-- READ changes DBG_ARRD alone. -/
theorem read_changes (p : Path) (c bp entry : Nat) (bank : Bool) (s : State) :
    RegsOnly s (arrAct ⟨p, 0, c, bp, bank, entry, v0⟩ s) ∧
      onlyFields [F.DBG_ARRD_VALUE, F.DBG_ARRD_FORCED] s (arrAct ⟨p, 0, c, bp, bank, entry, v0⟩ s) :=
  ⟨((RegsOnly.refl s).fset F.DBG_ARRD_VALUE _).fset F.DBG_ARRD_FORCED _,
    ((onlyFields.refl _ s).fset (f := F.DBG_ARRD_VALUE) (by simp) _).fset (f := F.DBG_ARRD_FORCED) (by simp) _⟩

/-- DEPOSIT stores the value of an entry that is not forced. -/
theorem vsRead_deposit (p : Path) (c bp entry : Nat) (bank : Bool) (v : Val) (s : State) :
    (arrAct ⟨p, 1, c, bp, bank, entry, v⟩ s).vsRead c (vsKey bp bank.toNat entry) =
      if (s.forced c (vsKey bp bank.toNat entry)).isSome then s.vsRead c (vsKey bp bank.toNat entry) else s.arrVal v := by
  have hact : arrAct ⟨p, 1, c, bp, bank, entry, v⟩ s = vsWrite c (vsKey bp bank.toNat entry) (s.arrVal v) s := rfl
  rw [hact]
  cases hforced : s.forced c (vsKey bp bank.toNat entry) with
  | none => exact vsRead_vsWrite_same (s.arrVal v) hforced
  | some w => rw [vsWrite_of_forced _ (by rw [hforced]; rfl)]; rfl

/-- FORCE stores the value and holds it; the other entries and the other forces stay. -/
theorem force_holds (p : Path) (c bp entry : Nat) (bank : Bool) (v : Val) {key : Nat} {s t : State}
    (hkey : key = vsKey bp bank.toNat entry) (ht : t = arrAct ⟨p, 2, c, bp, bank, entry, v⟩ s) :
    t.forced c key = some (s.arrVal v) ∧ t.vsRead c key = s.arrVal v ∧ (∀ k, k ≠ key → t.vsRead c k = s.vsRead c k) ∧
      (∀ d, d ≠ c → t.clause d = s.clause d) ∧ ∀ d k, forceKey d k ≠ forceKey c key → t.forced d k = s.forced d k := by
  let u := setForce c key none s
  have hu : u.forced c key = none := forced_setForce_same c key none s
  have hact : t = setForce c key (some (s.arrVal v)) (vsWrite c key (s.arrVal v) u) := by subst hkey; exact ht
  have hdbg : (vsWrite c key (s.arrVal v) u).dbg = u.dbg := (vsWrite_frame c key (s.arrVal v) (Fr.refl 0x400 u) rfl).h_dbg rfl
  rw [hact]
  refine ⟨forced_setForce_same _ _ _ _, vsRead_vsWrite_same _ hu, fun k hk => vsRead_vsWrite_ne _ u hk,
    fun d hd => clause_vsWrite_ne key _ u hd, fun d k hk => ?_⟩
  calc _ = (vsWrite c key (s.arrVal v) u).forced d k := forced_setForce_ne _ _ hk
    _ = u.forced d k := congrArg (fun x : Dbg => kvGet none x.forces (forceKey d k)) hdbg
    _ = s.forced d k := forced_setForce_ne _ s hk

/-- The queue entry that CQREAD returns, with the fill of the queue. -/
def cqReturned (e : CqEntry) (n : Nat) (s : State) : State :=
  (((s.fset F.DBG_ARRD_CQDST (e.dst % 256)).fset F.DBG_ARRD_CQBANK e.bank).fset F.DBG_ARRD_VALUE e.val.toNat).fset
    F.DBG_ARRD_CQFILL n

theorem arrAct_cqread (p : Path) (c bp slot : Nat) {e : CqEntry} {s : State} (h : (s.cqOf c bp)[slot % 32]? = some e) :
    arrAct ⟨p, 4, c, bp, false, slot, v0⟩ s = cqReturned e (s.cqOf c bp).length s := by
  simp only [arrAct, h]
  rfl

theorem cqReturned_returns (e : CqEntry) (n : Nat) (s : State) :
    (cqReturned e n s).fget F.DBG_ARRD_CQDST = e.dst % 256 ∧ (cqReturned e n s).fget F.DBG_ARRD_CQBANK = e.bank % 2 ∧
      (cqReturned e n s).fget F.DBG_ARRD_VALUE = e.val.toNat ∧ (cqReturned e n s).fget F.DBG_ARRD_CQFILL = n % 64 := by
  unfold cqReturned
  refine ⟨?_, ?_, ?_, State.fget_fset_same _ _ _⟩
  · rw [State.fget_fset_ne _ _ (by decide), State.fget_fset_ne _ _ (by decide), State.fget_fset_ne _ _ (by decide)]
    exact (s.fget_fset_same _ _).trans (Nat.mod_mod _ _)
  · rw [State.fget_fset_ne _ _ (by decide), State.fget_fset_ne _ _ (by decide)]
    exact State.fget_fset_same _ _ _
  · rw [State.fget_fset_ne _ _ (by decide)]
    exact (State.fget_fset_same _ _ _).trans (Nat.mod_eq_of_lt e.val.isLt)

/-! ### An operation that has waited (R138) -/

theorem arrDeferred_of_migration {a : ArrOp} {s : State} (h : s.dbg.arr = some a) (hmig : (s.clause a.clause).mig ≠ none) :
    arrDeferred s = s := by
  simp [arrDeferred, h, Option.isSome_iff_ne_none.mpr hmig]

theorem arrDeferred_of_none {s : State} (h : s.dbg.arr = none) : arrDeferred s = s := by
  simp [arrDeferred, h]

theorem arrDeferred_of_ended {a : ArrOp} {s : State} (h : s.dbg.arr = some a) (hmig : (s.clause a.clause).mig = none) :
    arrDeferred s = arrRun a s := by
  simp [arrDeferred, h, hmig]

/-- No operation waits once one has been carried out. -/
theorem arr_arrAct (a : ArrOp) (s : State) : (arrAct a s).dbg.arr = s.dbg.arr := by
  unfold arrAct
  dsimp only
  split
  · rfl
  · exact congrArg Dbg.arr ((vsWrite_frame _ _ _ (Fr.refl 0x400 s) rfl).h_dbg rfl)
  · let u := setForce a.clause (vsKey a.bp a.bank.toNat a.entry) none s
    have hdbg : (vsWrite a.clause (vsKey a.bp a.bank.toNat a.entry) (s.arrVal a.val) u).dbg = u.dbg :=
      (vsWrite_frame _ _ _ (Fr.refl 0x400 u) rfl).h_dbg rfl
    show (vsWrite a.clause (vsKey a.bp a.bank.toNat a.entry) (s.arrVal a.val) u).dbg.arr = s.dbg.arr
    rw [hdbg]
    rfl
  · rfl
  · split <;> rfl
  · rfl

theorem arr_arrRun (a : ArrOp) (s : State) : (arrRun a s).dbg.arr = none := by
  rw [arrRun_eq]
  show (if s.arrCode a = 0 then arrAct a s.clearArr else s.clearArr).dbg.arr = none
  split
  · exact arr_arrAct a s.clearArr
  · rfl

/-! ### The commands under debug -/

/-- READ returns the value of its entry and changes DBG_ARR and DBG_ARRD alone (R428, R446). -/
theorem leads_read : ∀ (p : Path) (c bp entry key : Nat) (bank : Bool) (s : State), s.dbg.arr = none → key = vsKey bp bank.toNat entry →
    s.arrRefusal ⟨p, 0, c, bp, bank, entry, v0⟩ = none → (s.clause c).mig = none →
    leads (.read p c bp bank entry) s fun t => t.fget F.DBG_ARRD_VALUE = (s.vsRead c key).toNat ∧
      t.fbit F.DBG_ARRD_FORCED = (s.forced c key).isSome ∧ t.fget F.DBG_ARRD_RESULT = 0 ∧ t.fget F.DBG_ARR_GO = 0 ∧
      t.dbg = s.dbg ∧ steady s t ∧ t.evq = s.evq ∧
      onlyFields [F.DBG_ARR_OP, F.DBG_ARR_CLAUSE, F.DBG_ARR_BP, F.DBG_ARR_BANK, F.DBG_ARR_ENTRY, F.DBG_ARR_GO,
        F.DBG_ARRD_VALUE, F.DBG_ARRD_FORCED, F.DBG_ARRD_RESULT] s t := by
  intro p c bp entry key bank s hfree hkey hok hmig
  obtain ⟨fs, hfields, hexec⟩ := exec_entryOp_of_granted (v := v0) (List.Mem.head _) hfree hok hmig
  obtain ⟨hvalue, hforced⟩ := read_returns p c bp entry bank (s.withFields fs)
  obtain ⟨hregs, hread⟩ := read_changes p c bp entry bank (s.withFields fs)
  generalize arrAct ⟨p, 0, c, bp, bank, entry, v0⟩ (s.withFields fs) = r at hvalue hforced hregs hread hexec
  obtain ⟨fs', rfl⟩ := hregs
  subst hkey
  refine leads_of hexec ⟨(fget_arrDone_ne 0 _ (by decide) (by decide)).trans hvalue, ?_, fget_result_arrDone _ (by decide),
    fget_go_arrDone _ _, rfl, ⟨rfl, rfl, rfl⟩, rfl, ?_⟩
  · rw [State.fbit, fget_arrDone_ne 0 _ (by decide) (by decide)]
    exact hforced
  · exact ((hfields.mono (by simp [arrNames])).trans (hread.mono (by simp))).arrDone 0 (by simp) (by simp)

/-- DEPOSIT stores its value in an entry that is not forced (R428, R429). -/
theorem leads_deposit : ∀ (p : Path) (c bp entry key : Nat) (bank : Bool) (v : Val) (s : State), s.dbg.arr = none →
    key = vsKey bp bank.toNat entry → s.arrRefusal ⟨p, 1, c, bp, bank, entry, v⟩ = none → (s.clause c).mig = none →
    leads (.deposit p c bp bank entry v) s fun t =>
      t.vsRead c key = (if (s.forced c key).isSome then s.vsRead c key else s.arrVal v) ∧
      (∀ k, k ≠ key → t.vsRead c k = s.vsRead c k) ∧ (∀ d, d ≠ c → t.clause d = s.clause d) ∧
      t.fget F.DBG_ARRD_RESULT = 0 ∧ t.fget F.DBG_ARR_GO = 0 ∧ t.dbg = s.dbg ∧ t.seq = s.seq ∧ t.mem = s.mem ∧
      t.evq = s.evq ∧ onlyFields [F.DBG_ARR_OP, F.DBG_ARR_CLAUSE, F.DBG_ARR_BP, F.DBG_ARR_BANK, F.DBG_ARR_ENTRY,
        F.DBG_ARR_GO, F.DBG_ARRD_VALUE, F.DBG_ARRD_RESULT] s t := by
  intro p c bp entry key bank v s hfree hkey hok hmig
  obtain ⟨fs, hfields, hexec⟩ := exec_entryOp_of_granted (.tail _ (List.Mem.head _)) hfree hok hmig
  let u := s.withFields fs
  have hfr : Fr 0x400 u (vsWrite c (vsKey bp bank.toNat entry) (s.arrVal v) u) := vsWrite_frame _ _ _ (Fr.refl _ u) rfl
  have hu : onlyFields [F.DBG_ARR_OP, F.DBG_ARR_CLAUSE, F.DBG_ARR_BP, F.DBG_ARR_BANK, F.DBG_ARR_ENTRY, F.DBG_ARR_GO,
      F.DBG_ARRD_VALUE, F.DBG_ARRD_RESULT] s u := hfields.mono (by simp [arrNames])
  subst hkey
  exact leads_of hexec ⟨vsRead_deposit p c bp entry bank v u, fun k hk => vsRead_vsWrite_ne _ u hk,
    fun d hd => clause_vsWrite_ne _ _ u hd, fget_result_arrDone _ (by decide), fget_go_arrDone _ _, hfr.h_dbg rfl,
    hfr.h_seq rfl, hfr.h_mem rfl, hfr.h_evq rfl,
    (hu.trans (onlyFields.of_frame _ (by decide) hfr)).arrDone 0 (by simp) (by simp)⟩

/-- FORCE stores its value and holds it (R428, R429). -/
theorem leads_force : ∀ (p : Path) (c bp entry key : Nat) (bank : Bool) (v : Val) (s : State), s.dbg.arr = none →
    key = vsKey bp bank.toNat entry → s.arrRefusal ⟨p, 2, c, bp, bank, entry, v⟩ = none → (s.clause c).mig = none →
    leads (.force p c bp bank entry v) s fun t => t.forced c key = some (s.arrVal v) ∧ t.vsRead c key = s.arrVal v ∧
      (∀ k, k ≠ key → t.vsRead c k = s.vsRead c k) ∧ (∀ d, d ≠ c → t.clause d = s.clause d) ∧
      (∀ d k, forceKey d k ≠ forceKey c key → t.forced d k = s.forced d k) ∧
      t.fget F.DBG_ARRD_RESULT = 0 ∧ t.fget F.DBG_ARR_GO = 0 ∧ t.seq = s.seq ∧ t.mem = s.mem ∧ t.evq = s.evq := by
  intro p c bp entry key bank v s hfree hkey hok hmig
  obtain ⟨fs, hfields, hexec⟩ := exec_entryOp_of_granted (.tail _ (.tail _ (List.Mem.head _))) hfree hok hmig
  let u := s.withFields fs
  obtain ⟨hforced, hread, hreads, hclauses, hforces⟩ := force_holds p c bp entry bank v (s := u) hkey rfl
  have hfr : Fr 0x4000080400 u (arrAct ⟨p, 2, c, bp, bank, entry, v⟩ u) := arrAct_frame _ (Fr.refl _ u) rfl
  refine leads_of hexec ⟨?_, ?_, ?_, ?_, ?_, fget_result_arrDone _ (by decide), fget_go_arrDone _ _, hfr.h_seq rfl,
    hfr.h_mem rfl, hfr.h_evq rfl⟩
  · exact (forced_arrDone _ _ _ _).trans hforced
  · exact (vsRead_arrDone _ _ _ _).trans hread
  · exact fun k hk => (vsRead_arrDone _ _ _ _).trans (hreads k hk)
  · exact fun d hd => (clause_arrDone _ _ _).trans (hclauses d hd)
  · exact fun d k hk => (forced_arrDone _ _ _ _).trans (hforces d k hk)

/-- CQREAD returns an entry of the queue with its fill (R428). -/
theorem leads_cqread : ∀ (p : Path) (c bp slot : Nat) (e : CqEntry) (s : State), s.dbg.arr = none →
    s.arrRefusal ⟨p, 4, c, bp, false, slot, v0⟩ = none → (s.clause c).mig = none →
    ((s.clause c).cq.filter fun e => e.bp == bp)[slot % 32]? = some e → leads (.cqread p c bp slot) s fun t =>
      t.fget F.DBG_ARRD_CQDST = e.dst % 256 ∧ t.fget F.DBG_ARRD_CQBANK = e.bank % 2 ∧ t.fget F.DBG_ARRD_VALUE = e.val.toNat ∧
      t.fget F.DBG_ARRD_CQFILL = ((s.clause c).cq.filter fun e => e.bp == bp).length % 64 ∧
      t.fget F.DBG_ARRD_RESULT = 0 ∧ t.fget F.DBG_ARR_GO = 0 ∧ t.dbg = s.dbg ∧ steady s t ∧ t.evq = s.evq := by
  intro p c bp slot e s hfree hok hmig hslot
  obtain ⟨fs, -, hexec⟩ := exec_entryOp_of_granted (v := v0) (bank := false)
    (.tail _ (.tail _ (.tail _ (.tail _ (List.Mem.head _))))) hfree hok hmig
  have hact : arrAct ⟨p, 4, c, bp, false, slot, v0⟩ (s.withFields fs) = cqReturned e (s.cqOf c bp).length (s.withFields fs) :=
    arrAct_cqread p c bp slot (s := s.withFields fs) hslot
  have hret := cqReturned_returns e (s.cqOf c bp).length (s.withFields fs)
  have hregs : RegsOnly s (cqReturned e (s.cqOf c bp).length (s.withFields fs)) :=
    (((RegsOnly.fset ⟨fs, rfl⟩ _ _).fset _ _).fset _ _).fset _ _
  rw [hact] at hexec
  generalize cqReturned e (s.cqOf c bp).length (s.withFields fs) = r at hret hregs hexec
  obtain ⟨hdst, hbank, hval, hfill⟩ := hret
  obtain ⟨fs', rfl⟩ := hregs
  have hkept := fun g hres hgo => fget_arrDone_ne (g := g) 0 (s.withFields fs') hres hgo
  exact leads_of hexec ⟨(hkept _ (by decide) (by decide)).trans hdst, (hkept _ (by decide) (by decide)).trans hbank,
    (hkept _ (by decide) (by decide)).trans hval, (hkept _ (by decide) (by decide)).trans hfill,
    fget_result_arrDone _ (by decide), fget_go_arrDone _ _, rfl, ⟨rfl, rfl, rfl⟩, rfl⟩

/-- A READ that has waited returns the value of its entry (R138, R428). -/
theorem leads_deferredRead : ∀ (p : Path) (c bp entry : Nat) (bank : Bool) (s : State),
    s.dbg.arr = some ⟨p, 0, c, bp, bank, entry, v0⟩ →
    (s.clause c).mig = none → s.arrRefusal ⟨p, 0, c, bp, bank, entry, v0⟩ = none → leads .arrDeferredStart s fun t =>
      t.fget F.DBG_ARRD_VALUE = (s.vsRead c (vsKey bp bank.toNat entry)).toNat ∧ t.fget F.DBG_ARRD_RESULT = 0 ∧
      t.fget F.DBG_ARR_GO = 0 ∧ t.dbg = { s.dbg with arr := none } ∧ steady s t ∧ t.evq = s.evq := by
  intro p c bp entry bank s hwait hmig hok
  have hrun : arrRun ⟨p, 0, c, bp, bank, entry, v0⟩ s = arrDone 0 (arrAct ⟨p, 0, c, bp, bank, entry, v0⟩ s.clearArr) := by
    rw [arrRun_eq, State.arrCode_of_granted hok, if_pos rfl]
  have hret := (read_returns p c bp entry bank s.clearArr).1
  have hregs := (read_changes p c bp entry bank s.clearArr).1
  generalize arrAct ⟨p, 0, c, bp, bank, entry, v0⟩ s.clearArr = r at hret hregs hrun
  obtain ⟨fs, rfl⟩ := hregs
  exact leads_of (congrArg Host.Outcome.next ((arrDeferred_of_ended hwait hmig).trans hrun))
    ⟨(fget_arrDone_ne 0 _ (by decide) (by decide)).trans hret, fget_result_arrDone _ (by decide), fget_go_arrDone _ _, rfl,
      ⟨rfl, rfl, rfl⟩, rfl⟩

/-- Settles O41: an operation is written, and then refused (`arrDone_refused`), carried out (`exec_entryOp_of_granted`) or left
waiting (`arrStart_of_migration`); the lemmas on `arrAct` say what one does that is carried out. -/
theorem arraysUnderDebug : Obligations.ArraysUnderDebug := by
  unfold Obligations.ArraysUnderDebug
  refine ⟨?refused, ?read, ?deposit, ?force, ?release, ?cqread, ?relall, ?waits, ?ignored, ?stillRuns, ?noneWaits, ?deferred,
    ?deferredRead⟩
  case refused =>
    intro p c bp entry op r key bank v i s hfree hi hkey hr hne
    obtain ⟨a, hexec, hcode⟩ := exists_arrOp_of_listed hfree hi hkey hr
    obtain ⟨hregs, hfields⟩ := arrNamed_changes a s
    rw [arrStart_of_refused hregs hfree (hcode ▸ hne), hcode] at hexec
    exact leads_of hexec (arrDone_refused hregs hfields (hcode ▸ s.arrCode_lt a))
  case read => exact leads_read
  case deposit => exact leads_deposit
  case force => exact leads_force
  case release =>
    intro p c bp entry key bank s hfree hkey hok hmig
    obtain ⟨fs, -, hexec⟩ := exec_entryOp_of_granted (v := v0) (.tail _ (.tail _ (.tail _ (List.Mem.head _)))) hfree hok hmig
    subst hkey
    exact leads_of hexec ⟨forced_setForce_same _ _ none _, fun d k hk => forced_setForce_ne none _ hk,
      fget_result_arrDone _ (by decide), fget_go_arrDone _ _, ⟨rfl, rfl, rfl⟩, rfl⟩
  case cqread => exact leads_cqread
  case relall =>
    intro p s hfree hlevel hst
    obtain ⟨⟨fs, hfs⟩, -⟩ := arrNamed_changes (relallOp p s) s
    have hcode : s.arrCode (relallOp p s) = 0 := by
      simp only [State.arrCode, relallOp, arrLevel]
      simp [hlevel.not_gt, hst]
    have hexec := (exec_relall (p := p) hfree).trans
      (congrArg _ (arrStart_of_granted ⟨fs, hfs⟩ hfree hcode (.inl rfl)))
    rw [hfs] at hexec
    exact leads_of hexec ⟨fun c k hk hc => forced_of_filter (s := s) (s.closedTo 2) rfl hk hc,
      fget_result_arrDone _ (by decide), fget_go_arrDone _ _, ⟨rfl, rfl, rfl⟩, rfl⟩
  case waits =>
    intro p c bp entry bank v i a s hfree hi hok hmig
    have hi' : (i, a) ∈ entryOps p c bp entry bank v := hi
    obtain ⟨⟨fs, hfs⟩, -⟩ := arrNamed_changes a s
    obtain ⟨hop, hclause⟩ := op_clause_of_mem_entryOps hi'
    have hexec := (exec_entryOp hi' hfree).trans
      (congrArg _ (arrStart_of_migration ⟨fs, hfs⟩ (State.arrCode_of_granted hok) hop (hclause ▸ hmig)))
    rw [hfs] at hexec
    exact leads_of hexec ⟨rfl, State.fget_fset_same _ _ 1, ⟨rfl, rfl, rfl⟩, rfl⟩
  case ignored =>
    intro p c bp entry slot bank v a i s hwait hi
    simp only [List.mem_cons, List.not_mem_nil, or_false] at hi
    obtain rfl | rfl | rfl | rfl | rfl | rfl := hi
    · exact congrArg Host.Outcome.next (arrGo_of_waiting hwait)
    · exact congrArg Host.Outcome.next (arrGoVal_of_waiting hwait)
    · exact congrArg Host.Outcome.next (arrGoVal_of_waiting hwait)
    · exact congrArg Host.Outcome.next (arrGo_of_waiting hwait)
    · exact congrArg Host.Outcome.next (arrGo_of_waiting hwait)
    · exact congrArg Host.Outcome.next (arrGo_of_waiting hwait)
  case stillRuns => exact fun a s hwait hmig => congrArg Host.Outcome.next (arrDeferred_of_migration hwait hmig)
  case noneWaits => exact fun s hfree => congrArg Host.Outcome.next (arrDeferred_of_none hfree)
  case deferred =>
    intro a s hwait hmig
    have hfr : Fr 0x4000080400 s (arrRun a s) := arrRun_frame a (Fr.refl _ s) rfl
    refine leads_of (congrArg Host.Outcome.next (arrDeferred_of_ended hwait hmig))
      ⟨arr_arrRun a s, ?_, ?_, hfr.h_seq rfl, hfr.h_mem rfl, hfr.h_evq rfl⟩ <;> rw [arrRun_eq]
    · exact fget_go_arrDone _ _
    · rw [State.arrRefusal_getD]
      exact fget_result_arrDone _ (s.arrCode_lt a)
  case deferredRead => exact leads_deferredRead

end Sys2Proof.Machine
end

section
/-! Power domains, the fill of HBM and device resets (R207, R568, R574, R575, R578 to R580). -/
namespace Sys2Proof.Machine

/-! ### One bit of a field -/

theorem nbit_eq_testBit (w k : Nat) : nbit w k = w.testBit k := by
  rw [nbit, Nat.testBit_eq_decide_div_mod_eq, Nat.shiftRight_eq_div_pow]
  rfl

theorem nbit_putBit (w k j : Nat) (b : Bool) : nbit (putBit w k b) j = if j = k then b else nbit w j := by
  have hlow : w % 2 ^ k < 2 ^ k := Nat.mod_lt _ (Nat.two_pow_pos k)
  have hput : putBit w k b = 2 ^ k * (2 * (w >>> (k + 1)) + b.toNat) + w % 2 ^ k := by
    have hbit : b.toNat % 2 ^ 1 = b.toNat := Nat.mod_eq_of_lt b.toNat_lt
    rw [putBit, putBits, hbit, pow_succ]
    ring
  rw [nbit_eq_testBit, nbit_eq_testBit, hput, Nat.testBit_two_pow_mul_add _ hlow]
  by_cases hlt : j < k
  · rw [if_pos hlt, if_neg hlt.ne, Nat.testBit_mod_two_pow, decide_eq_true hlt, Bool.true_and]
  · rw [if_neg hlt]
    obtain ⟨i, rfl⟩ := Nat.exists_eq_add_of_le (not_lt.mp hlt)
    rw [Nat.add_sub_cancel_left]
    cases i with
    | zero => cases b <;> simp
    | succ i =>
      have hhalf : (2 * (w >>> (k + 1)) + b.toNat) / 2 = w >>> (k + 1) := by
        have := b.toNat_lt
        omega
      rw [if_neg (by omega), Nat.testBit_succ, hhalf, Nat.testBit_shiftRight]
      congr 1
      omega

/-- A field in which one bit is set to a value. -/
theorem nbit_fset_putBit (s : State) (f : Fld) {d k : Nat} (b : Bool) (hk : k < f.width) :
    nbit ((s.fset f (putBit (s.fget f) d b)).fget f) k = if k = d then b else nbit (s.fget f) k := by
  rw [State.fget_fset_same, ← nbit_putBit, nbit_eq_testBit, nbit_eq_testBit, Nat.testBit_mod_two_pow, decide_eq_true hk,
    Bool.true_and]

/-! ### What a request is refused for (R575) -/

theorem State.gateRefusal_of_none {d : Nat} {on : Bool} {s : State} (h : s.gateRefusal d on = none) : 5 ≤ d ∧ d < 30 := by
  have hif : ∀ (p : Prop) [Decidable p] (n : Nat) (o : Option Nat), (if p then some n else o) = none → ¬ p ∧ o = none := by
    intro p _ n o hite
    split at hite
    · cases hite
    · exact ⟨‹_›, hite⟩
  obtain ⟨-, hrange⟩ := hif _ 5 _ h
  obtain ⟨hlt, halways⟩ := hif _ 4 _ hrange
  exact ⟨not_lt.mp (hif _ 1 _ halways).1, not_le.mp hlt⟩

theorem gateRequest_of_refused {d r : Nat} {on : Bool} {s : State} (h : s.gateRefusal d on = some r) :
    gateRequest d on s = gateReport d on r (if r = 5 then s else (s.fset F.PLT_PGREQ_DOMAIN d).fsetb F.PLT_PGREQ_ON on) := by
  simp only [gateRequest, h]

/-- A request that is not refused is written to PLT_PGREQ. -/
def requested (d : Nat) (on : Bool) (s : State) : State := (s.fset F.PLT_PGREQ_DOMAIN d).fsetb F.PLT_PGREQ_ON on

/-- PGREQ_GATE before its answer: the domain is gated where it is on. -/
def gatedState (d : Nat) (s : State) : State := if s.domOn d then gateDomain d (requested d false s) else requested d false s

theorem gateRequest_off {d : Nat} {s : State} (h : s.gateRefusal d false = none) :
    gateRequest d false s = gateReport d false 0 (gatedState d s) := by
  simp only [gateRequest, h]
  rfl

theorem gateRequest_on {d : Nat} {s : State} (h : s.gateRefusal d true = none) :
    gateRequest d true s = if s.domOn d then gateReport d true 0 (requested d true s)
      else { requested d true s with plt := { s.plt with pgReq := some d } }.fset F.PLT_PGREQ_GO 1 := by
  simp only [gateRequest, h]
  rfl

theorem onlyFields.requested {fs : List Fld} (d : Nat) (on : Bool) (s : State) (hd : F.PLT_PGREQ_DOMAIN ∈ fs)
    (hon : F.PLT_PGREQ_ON ∈ fs) : onlyFields fs s (requested d on s) :=
  ((onlyFields.refl fs s).fset hd d).fset hon on.toNat

theorem onlyFields.gateReport {fs : List Fld} {s t : State} (h : onlyFields fs s t) (d : Nat) (on : Bool) (r : Nat)
    (hres : F.PLT_PGREQ_RESULT ∈ fs) (hevt : F.PLT_EVT_PGATE ∈ fs) : onlyFields fs s (gateReport d on r t) :=
  (h.fset hres r).raise hevt _ _ _

/-- A request is answered: RESULT is set and PLT_PGATE posted (R585). -/
theorem gateReport_reports {s t : State} {r : Nat} (d : Nat) (on : Bool) (hr : r < 256) (hevq : t.evq = s.evq) (hseq : t.seq = s.seq)
    (htime : t.ptime = s.ptime) (hen : t.fget (evten F.PLT_EVT_PGATE) = s.fget (evten F.PLT_EVT_PGATE)) :
    (gateReport d on r t).fget F.PLT_PGREQ_RESULT = r ∧ posted F.PLT_EVT_PGATE 0 4 [d, on.toNat, r] s (gateReport d on r t) :=
  ⟨(State.fget_raise_ne _ _ _ _ (by decide)).trans ((t.fget_fset_same _ r).trans (Nat.mod_eq_of_lt hr)),
    posted_raise 0 4 _ rfl hevq (congrArg Seq.step hseq) htime ((State.fget_fset_ne _ _ (by decide)).trans hen)⟩

theorem fget_gateReport_ne {g : Fld} (d : Nat) (on : Bool) (r : Nat) (s : State) (hres : g.key ≠ F.PLT_PGREQ_RESULT.key)
    (hevt : g.key ≠ F.PLT_EVT_PGATE.key) : (gateReport d on r s).fget g = s.fget g :=
  (State.fget_raise_ne _ _ _ _ hevt).trans (s.fget_fset_ne _ hres)

theorem plt_gateReport (d : Nat) (on : Bool) (r : Nat) (s : State) : (gateReport d on r s).plt = s.plt :=
  State.plt_raise _ _ _ _ _

theorem steady_gateReport {s t : State} (d : Nat) (on : Bool) (r : Nat) (h : steady s t) : steady s (gateReport d on r t) :=
  have hfr : Fr 0x2000080 t (gateReport d on r t) := gateReport_frame d on r (Fr.refl _ t) rfl
  ⟨(hfr.h_seq rfl).trans h.1, (hfr.h_clauses rfl).trans h.2.1, (hfr.h_mem rfl).trans h.2.2⟩

theorem State.gateRefusal_le {d r : Nat} {on : Bool} {s : State} (h : s.gateRefusal d on = some r) : r ≤ 5 := by
  have hif : ∀ (p : Prop) [Decidable p] (n : Nat) (o : Option Nat), n ≤ 5 → (o = some r → r ≤ 5) →
      (if p then some n else o) = some r → r ≤ 5 := by
    intro p _ n o hn ho hite
    split at hite
    · exact Option.some.inj hite ▸ hn
    · exact ho hite
  refine hif _ _ _ (by decide) (hif _ _ _ (by decide) (hif _ _ _ (by decide) fun hlast => ?_)) h
  split at hlast
  · cases hlast
  · exact hif _ 2 _ (by decide) (hif _ 3 none (by decide) nofun) hlast

/-- The loaded clauses of its group keep a CGRP domain on. -/
theorem State.gateRefusal_of_loaded {d c : Nat} {s : State} (hgo : s.fbit F.PLT_PGREQ_GO = false) (hlo : 17 ≤ d) (hhi : d < 25)
    (hc : 8 * (d - 17) ≤ c) (hc' : c < 8 * (d - 17) + 8) (hload : (s.clause c).loaded = true) : s.gateRefusal d false = some 2 := by
  have hany : ((List.range 8).any fun i => (s.clause (8 * (d - 17) + i)).loaded) = true :=
    List.any_eq_true.mpr ⟨c - 8 * (d - 17), List.mem_range.mpr (by omega), by rwa [Nat.add_sub_cancel' hc]⟩
  simp [State.gateRefusal, hgo, hany, hlo, hhi, show ¬ 30 ≤ d by omega, show ¬ d < 5 by omega]

/-! ### What a gated domain loses (R574, R575) -/

/-- A part of the state that no step of a fold changes. -/
theorem foldl_same {α β : Type} (part : State → β) {f : State → α → State} (hf : ∀ t a, part (f t a) = part t) (l : List α)
    (s : State) : part (l.foldl f s) = part s :=
  List.foldlRecOn l f (motive := fun t => part t = part s) rfl fun t ht a _ => (hf t a).trans ht

/-- Memory goes with an HBM domain alone. -/
theorem mem_domainLoses (d : Nat) (s : State) : (domainLoses d s).mem =
    if d < 9 then kvDrop s.mem (stackLo (d - 5)) (stackLo (d - 5) + 0x600000000) else s.mem := by
  unfold domainLoses
  by_cases hhbm : d < 9
  · rw [if_pos hhbm, if_pos hhbm]
    rfl
  · rw [if_neg hhbm, if_neg hhbm]
    split_ifs
    · exact foldl_same State.mem (by intros; rfl) _ s
    · exact foldl_same State.mem (by intros; rfl) _ s
    · rfl
    · exact foldl_same State.mem (by intros; rfl) _ s
    · rfl

theorem kvGet_kvDrop_inside {α : Type} (d : α) (m : List (Nat × α)) {lo hi k : Nat} (hlo : lo ≤ k) (hhi : k < hi) :
    kvGet d (kvDrop m lo hi) k = d := by
  rw [kvDrop, kvGet_filter_key d m fun a => !(decide (lo ≤ a) && decide (a < hi))]
  simp [hlo, hhi]

theorem memGet_kvDrop (m : List Host.Cell) (lo hi x : Nat) :
    memGet (kvDrop m lo hi) x = if lo ≤ x ∧ x < hi then memDflt x else memGet m x := by
  by_cases hin : lo ≤ x ∧ x < hi
  · rw [if_pos hin]
    exact kvGet_kvDrop_inside _ _ hin.1 hin.2
  · rw [if_neg hin]
    exact kvGet_kvDrop _ _ _ _ _ (by omega)

/-- Gating up to the loss of what the domain holds: its units read as absent, its links go off. -/
def gateUnits (d : Nat) (s : State) : State :=
  let s1 := s.fset F.PLT_PGSTAT_ON (putBit (s.fget F.PLT_PGSTAT_ON) d false)
  let s2 := if 5 ≤ d && decide (d < 9) then
      s1.fset F.MEM_STAT_HBM_UP (putBit (s.fget F.MEM_STAT_HBM_UP) (d - 5) false) else s1
  if 9 ≤ d && decide (d < 17) then (List.range 4).foldl (fun s i => linkOff (4 * (d - 9) + i) s) s2 else s2

theorem gateDomain_eq (d : Nat) (s : State) : gateDomain d s =
    if s.sleepEmu then { gateUnits d s with plt := { (gateUnits d s).plt with emu := putBit (gateUnits d s).plt.emu d true } }
    else domainLoses d (gateUnits d s) := rfl

/-- Of the platform's registers, gating a domain's units writes PLT_PGSTAT alone. -/
theorem gateUnits_frame (d : Nat) (s : State) :
    Fr 0xc00004000 (s.fset F.PLT_PGSTAT_ON (putBit (s.fget F.PLT_PGSTAT_ON) d false)) (gateUnits d s) := by
  let s1 := s.fset F.PLT_PGSTAT_ON (putBit (s.fget F.PLT_PGSTAT_ON) d false)
  have hup : Fr 0xc00004000 s1 (if 5 ≤ d && decide (d < 9) then
      s1.fset F.MEM_STAT_HBM_UP (putBit (s.fget F.MEM_STAT_HBM_UP) (d - 5) false) else s1) :=
    Fr.ite (State.fset_frame _ _ (Fr.refl _ s1) rfl) (Fr.refl _ s1)
  exact Fr.ite (Fr.foldl (fun _ i h => linkOff_frame (4 * (d - 9) + i) h rfl) hup) hup

/-- A platform register after a domain is gated. -/
theorem fget_gateDomain (d : Nat) (s : State) (f : Fld) (hf : f.block = 0) : (gateDomain d s).fget f =
    (s.fset F.PLT_PGSTAT_ON (putBit (s.fget F.PLT_PGSTAT_ON) d false)).fget f := by
  have hunits : (gateUnits d s).fget f = _ := (gateUnits_frame d s).h_regs f (by rw [hf]; rfl)
  rw [gateDomain_eq]
  split
  · exact hunits
  · have hlose : Fr 0x2d00066420 (gateUnits d s) (domainLoses d (gateUnits d s)) := domainLoses_frame d (Fr.refl _ _) rfl
    exact (hlose.h_regs f (by rw [hf]; rfl)).trans hunits

theorem mem_gateDomain (d : Nat) (s : State) : (gateDomain d s).mem =
    if s.sleepEmu = false ∧ d < 9 then kvDrop s.mem (stackLo (d - 5)) (stackLo (d - 5) + 0x600000000) else s.mem := by
  have hunits : (gateUnits d s).mem = s.mem := (gateUnits_frame d s).h_mem rfl
  rw [gateDomain_eq]
  cases s.sleepEmu with
  | true => rw [if_pos rfl, if_neg (by simp)]; exact hunits
  | false => rw [if_neg Bool.false_ne_true, mem_domainLoses, hunits]; simp

/-- A write to PLT_PGREQ leaves the other fields. -/
theorem fget_requested_ne {g : Fld} (d : Nat) (on : Bool) (s : State) (hd : g.key ≠ F.PLT_PGREQ_DOMAIN.key)
    (hon : g.key ≠ F.PLT_PGREQ_ON.key) : (requested d on s).fget g = s.fget g :=
  (State.fget_fset_ne _ _ hon).trans (s.fget_fset_ne _ hd)

theorem sleepEmu_requested (d : Nat) (on : Bool) (s : State) : (requested d on s).sleepEmu = s.sleepEmu := by
  unfold State.sleepEmu State.fbit
  rw [fget_requested_ne d on s (by decide) (by decide)]
  rfl

theorem nbit_pgstat_gatedState (d : Nat) (s : State) {k : Nat} (hk : k < 30) :
    nbit ((gatedState d s).fget F.PLT_PGSTAT_ON) k = (nbit (s.fget F.PLT_PGSTAT_ON) k && k != d) := by
  have hreq : (requested d false s).fget F.PLT_PGSTAT_ON = s.fget F.PLT_PGSTAT_ON :=
    fget_requested_ne d false s (by decide) (by decide)
  unfold gatedState
  by_cases hon : s.domOn d = true
  · rw [if_pos hon, fget_gateDomain d _ _ rfl, nbit_fset_putBit _ _ _ hk, hreq]
    by_cases hkd : k = d <;> simp [hkd]
  · rw [if_neg hon, hreq]
    by_cases hkd : k = d
    · subst hkd
      simpa [State.domOn] using hon
    · simp [hkd]

theorem memGet_gatedState (d x : Nat) (s : State) (hd : 5 ≤ d) : memGet (gatedState d s).mem x =
    if s.domOn d = true ∧ s.sleepEmu = false ∧ 5 ≤ d ∧ d < 9 ∧ stackLo (d - 5) ≤ x ∧ x < stackLo (d - 5) + 0x600000000
      then memDflt x else memGet s.mem x := by
  have hreq : (requested d false s).mem = s.mem := rfl
  unfold gatedState
  by_cases hon : s.domOn d = true
  · rw [if_pos hon, mem_gateDomain, sleepEmu_requested, hreq]
    by_cases hdrop : s.sleepEmu = false ∧ d < 9
    · rw [if_pos hdrop, memGet_kvDrop]
      exact if_congr (by simp [hon, hdrop, hd]) rfl rfl
    · rw [if_neg hdrop, if_neg (fun h => hdrop ⟨h.2.1, h.2.2.2.1⟩)]
  · rw [if_neg hon, if_neg (fun h => hon h.1), hreq]

theorem gatedState_frame (d : Nat) (s : State) : Fr 0x2d03066420 s (gatedState d s) := by
  have hreq : Fr 0x2d03066420 s (requested d false s) := State.fset_frame _ _ (State.fset_frame _ _ (Fr.refl _ s) rfl) rfl
  exact Fr.ite (gateDomain_frame d hreq rfl) hreq

theorem fget_pgateEn_gatedState (d : Nat) (s : State) :
    (gatedState d s).fget (evten F.PLT_EVT_PGATE) = s.fget (evten F.PLT_EVT_PGATE) := by
  have hreq : (requested d false s).fget (evten F.PLT_EVT_PGATE) = s.fget (evten F.PLT_EVT_PGATE) :=
    fget_requested_ne d false s (by decide) (by decide)
  unfold gatedState
  split
  · rw [fget_gateDomain d _ _ rfl]
    exact (State.fget_fset_ne _ _ (by decide)).trans hreq
  · exact hreq

/-! ### Domains that become ready, and stacks that are filled (R207, R575) -/

theorem hbmReady_of_powered {k : Nat} {s : State} (h : s.domOn (5 + k) = true ∨ s.plt.pgReq = some (5 + k)) :
    hbmReady k s = s.fset F.MEM_STAT_HBM_UP (putBit (s.fget F.MEM_STAT_HBM_UP) k true) :=
  if_pos (by simpa using h)

theorem hbmReady_of_off {k : Nat} {s : State} (hon : s.domOn (5 + k) = false) (hreq : s.plt.pgReq ≠ some (5 + k)) :
    hbmReady k s = s :=
  if_neg (by simp [hon, hreq])

/-- The domain is on and its request is over. -/
def powered (d : Nat) (s : State) : State :=
  let s1 := (s.fset F.PLT_PGSTAT_ON (putBit (s.fget F.PLT_PGSTAT_ON) d true)).fset F.PLT_PGREQ_GO 0
  { s1 with plt := { s1.plt with emu := putBit s1.plt.emu d false, pgReq := none } }

theorem nbit_pgstat_powered (d : Nat) (s : State) {k : Nat} (hk : k < 30) :
    nbit ((powered d s).fget F.PLT_PGSTAT_ON) k = (nbit (s.fget F.PLT_PGSTAT_ON) k || k == d) := by
  have hget : (powered d s).fget F.PLT_PGSTAT_ON =
      (s.fset F.PLT_PGSTAT_ON (putBit (s.fget F.PLT_PGSTAT_ON) d true)).fget F.PLT_PGSTAT_ON :=
    State.fget_fset_ne (f := F.PLT_PGREQ_GO) _ 0 (by decide)
  rw [hget, nbit_fset_putBit _ _ _ hk]
  by_cases hkd : k = d <;> simp [hkd]

theorem fget_pgreqGo_powered (d : Nat) (s : State) : (powered d s).fget F.PLT_PGREQ_GO = 0 := State.fget_fset_same _ _ 0

/-- What a powered domain does: a stack is reported up, the enabled links begin to train. -/
def unitsReady (d : Nat) (s : State) : State :=
  let s3 := if 5 ≤ d && decide (d < 9) then hbmReady (d - 5) s else s
  if 9 ≤ d && decide (d < 17) then
    (List.range 4).foldl (fun s i =>
      let l := 4 * (d - 9) + i
      if s.fbit (F.LNK_CTL_EN l) then linkEnable l s else s) s3
  else s3

theorem unitsReady_frame (d : Nat) (s : State) : Fr 0xc00004000 s (unitsReady d s) := by
  have hup : Fr 0xc00004000 s (if 5 ≤ d && decide (d < 9) then hbmReady (d - 5) s else s) :=
    Fr.ite (hbmReady_frame _ (Fr.refl _ s) rfl) (Fr.refl _ s)
  exact Fr.ite (Fr.foldl (fun _ i h => Fr.ite (linkEnable_frame (4 * (d - 9) + i) h rfl) h) hup) hup

theorem unitsReady_of_hbm {d : Nat} {s : State} (hlo : 5 ≤ d) (hhi : d < 9) : unitsReady d s = hbmReady (d - 5) s := by
  simp [unitsReady, hlo, hhi, show ¬ 9 ≤ d by omega]

theorem domainReady_of_requested {d : Nat} {s : State} (h : s.plt.pgReq = some d) :
    domainReady d s = gateReport d true 0 (unitsReady d (powered d s)) := by
  unfold domainReady
  rw [if_neg (by simp [h])]
  rfl

theorem domainReady_of_other {d : Nat} {s : State} (h : s.plt.pgReq ≠ some d) : domainReady d s = s :=
  if_pos (by simpa using h)

/-! ### Resets (R578 to R580) -/

theorem rstKey_of_none {req : Requester} {s : State} (key : BitVec 16) (h : s.rstPath req = none) : rstKey req key s = s := by
  simp only [rstKey, h]

theorem rstKey_first {req : Requester} {p : Bool} {s : State} (h : s.rstPath req = some p) :
    rstKey req 0xA55A#16 s = { s with plt := { s.plt with rstLeft := some (1024, p) } } := by
  simp only [rstKey, h]
  rfl

theorem rstKey_second {req : Requester} {p : Bool} {n : Nat} {s : State} (h : s.rstPath req = some p)
    (hwin : s.plt.rstLeft = some (n, p)) : rstKey req 0x5AA5#16 s = deviceReset .software s := by
  simp [rstKey, h, hwin]

theorem rstKey_of_other {req : Requester} {p : Bool} {key : BitVec 16} {s : State} (h : s.rstPath req = some p)
    (hkey : key ≠ 0xA55A#16) (hother : key ≠ 0x5AA5#16 ∨ s.plt.rstLeft.map Prod.snd ≠ some p) : rstKey req key s = s := by
  simp only [rstKey, h, if_neg hkey]
  refine if_neg fun hsecond => hother.elim (fun hne => hne hsecond.1) fun hne => hne ?_
  cases hwin : s.plt.rstLeft with
  | none => simp [hwin] at hsecond
  | some e => simpa [hwin] using hsecond.2

/-- CLS_PMAP of a clause after the phrase map of the fuses is loaded (R139). -/
def fusedClause (s : State) (c : Nat) : Clause :=
  if nbit (s.fuseByte (336 + c)) 7 then { s.clause c with spared := true, retired := s.fuseByte (336 + c) % 128 } else s.clause c

/-- The load of one clause's entry. -/
def loadPhraseEntry (s : State) (c : Nat) : State :=
  let b := s.fuseByte (336 + c)
  if nbit b 7 then s.modClause c fun x => { x with spared := true, retired := b % 128 } else s

theorem clause_loadPhraseEntry_ne (s : State) {c d : Nat} (h : c ≠ d) : (loadPhraseEntry s d).clause c = s.clause c := by
  unfold loadPhraseEntry
  dsimp only
  split
  · exact s.clause_modClause_ne _ h
  · rfl

theorem clause_loadPhraseEntry_same (s : State) (c : Nat) : (loadPhraseEntry s c).clause c = fusedClause s c := by
  unfold loadPhraseEntry fusedClause
  dsimp only
  split
  · exact s.clause_modClause_same c _
  · rfl

theorem sec_foldl_loadPhraseEntry (l : List Nat) (s : State) : (l.foldl loadPhraseEntry s).sec = s.sec :=
  foldl_same State.sec (by intro t c; unfold loadPhraseEntry; dsimp only; split <;> rfl) l s

theorem clause_foldl_loadPhraseEntry (s : State) (n c : Nat) :
    ((List.range n).foldl loadPhraseEntry s).clause c = if c < n then fusedClause s c else s.clause c := by
  induction n with
  | zero => rfl
  | succ n ih =>
    rw [List.range_succ, List.foldl_append]
    show (loadPhraseEntry ((List.range n).foldl loadPhraseEntry s) n).clause c = _
    by_cases hcn : c = n
    · subst hcn
      have hfuse : ((List.range c).foldl loadPhraseEntry s).fuseByte (336 + c) = s.fuseByte (336 + c) := by
        unfold State.fuseByte State.fuseWord
        rw [sec_foldl_loadPhraseEntry]
      rw [if_neg (lt_irrefl c)] at ih
      rw [clause_loadPhraseEntry_same, if_pos (Nat.lt_succ_self c), fusedClause, hfuse, ih]
      rfl
    · rw [clause_loadPhraseEntry_ne _ hcn, ih]
      exact if_congr (by omega) rfl rfl

theorem clause_loadPhraseMap (s : State) {c : Nat} (hc : c < 64) : (loadPhraseMap s).clause c = fusedClause s c :=
  (clause_foldl_loadPhraseEntry s 64 c).trans (if_pos hc)

/-- The boot ROM has begun: it reads an image under its timer (R321). -/
theorem bootSelect_begins (s : State) : (bootSelect s).mgt.boot ≠ none ∧ (bootSelect s).fget F.SCH_LOAD_BUSY = 1 ∧
    (bootSelect s).load.img = s.load.img := by
  have hread : ∀ (b : Boot) (t : State), (bootRead b t).mgt.boot ≠ none ∧ (bootRead b t).fget F.SCH_LOAD_BUSY = 1 ∧
      (bootRead b t).load.img = t.load.img := fun b t => ⟨nofun, State.fget_fset_same _ _ 1, rfl⟩
  unfold bootSelect
  split
  · exact hread _ _
  · exact hread _ _

theorem satSucc_lt (n : Nat) : satSucc 8 n < 2 ^ 8 := by
  unfold satSucc
  split <;> omega

/-! ### The obligation -/

theorem leads_refused (d r : Nat) (on : Bool) (s : State) (hr : s.gateRefusal d on = some r) (hd : d < 32) :
    leads (if on then .pgreqPower d else .pgreqGate d) s fun t =>
      t.fget F.PLT_PGREQ_RESULT = r ∧ posted F.PLT_EVT_PGATE 0 4 [d, on.toNat, r] s t ∧
      t.fget F.PLT_PGSTAT_ON = s.fget F.PLT_PGSTAT_ON ∧ t.plt = s.plt ∧ steady s t ∧
      (if r = 5 then t.fget F.PLT_PGREQ_DOMAIN = s.fget F.PLT_PGREQ_DOMAIN else t.fget F.PLT_PGREQ_DOMAIN = d) ∧
      onlyFields [F.PLT_PGREQ_DOMAIN, F.PLT_PGREQ_ON, F.PLT_PGREQ_RESULT, F.PLT_EVT_PGATE] s t := by
  have hexec : exec (if on then .pgreqPower d else .pgreqGate d) s = .next (gateRequest d on s) := by cases on <;> rfl
  have hr' : r < 256 := (State.gateRefusal_le hr).trans_lt (by decide)
  have hdom : (requested d on s).fget F.PLT_PGREQ_DOMAIN = d :=
    (State.fget_fset_ne _ _ (by decide)).trans ((s.fget_fset_same _ d).trans (Nat.mod_eq_of_lt hd))
  rw [gateRequest_of_refused hr] at hexec
  refine leads_of hexec ?_
  split
  · obtain ⟨hres, hpost⟩ := gateReport_reports (s := s) d on hr' rfl rfl rfl rfl
    exact ⟨hres, hpost, fget_gateReport_ne d on r s (by decide) (by decide), plt_gateReport d on r s,
      steady_gateReport d on r ⟨rfl, rfl, rfl⟩, fget_gateReport_ne d on r s (by decide) (by decide),
      (onlyFields.refl _ s).gateReport d on r (by simp) (by simp)⟩
  · obtain ⟨hres, hpost⟩ := gateReport_reports (s := s) (t := requested d on s) d on hr' rfl rfl rfl
      (fget_requested_ne d on s (by decide) (by decide))
    exact ⟨hres, hpost,
      (fget_gateReport_ne d on r _ (by decide) (by decide)).trans (fget_requested_ne d on s (by decide) (by decide)),
      plt_gateReport d on r _, steady_gateReport d on r ⟨rfl, rfl, rfl⟩,
      (fget_gateReport_ne d on r _ (by decide) (by decide)).trans hdom,
      (onlyFields.requested d on s (by simp) (by simp)).gateReport d on r (by simp) (by simp)⟩

theorem leads_gate (d : Nat) (s : State) (hok : s.gateRefusal d false = none) : leads (.pgreqGate d) s fun t =>
    (∀ k, k < 30 → nbit (t.fget F.PLT_PGSTAT_ON) k = (nbit (s.fget F.PLT_PGSTAT_ON) k && k != d)) ∧
    t.fget F.PLT_PGREQ_RESULT = 0 ∧ t.fget F.PLT_EVT_PGATE = 1 ∧
    (s.fbit (evten F.PLT_EVT_PGATE) = true → t.evq.getLast? = some
      { src := 0, code := 4, payload := [d, 0, 0], step := s.seq.step, time := s.ptime }) ∧ t.seq = s.seq ∧ t.flash = s.flash ∧
    (∀ x, memGet t.mem x = if s.domOn d = true ∧ s.sleepEmu = false ∧ 5 ≤ d ∧ d < 9 ∧ stackLo (d - 5) ≤ x ∧
      x < stackLo (d - 5) + 0x600000000 then memDflt x else memGet s.mem x) := by
  have hd := (State.gateRefusal_of_none hok).1
  have hgate := gatedState_frame d s
  have hreport : Fr 0x2000080 (gatedState d s) (gateReport d false 0 (gatedState d s)) := gateReport_frame d _ _ (Fr.refl _ _) rfl
  obtain ⟨hres, hpost, hevq⟩ := gateReport_reports (s := gatedState d s) d false (r := 0) (by decide) rfl rfl rfl rfl
  refine leads_of (congrArg Host.Outcome.next (gateRequest_off hok)) ⟨fun k hk => ?_, hres, hpost, fun hen => ?_,
    (hreport.h_seq rfl).trans (hgate.h_seq rfl), (hreport.h_flash rfl).trans (hgate.h_flash rfl), fun x => ?_⟩
  · rw [← nbit_pgstat_gatedState d s hk]
    exact congrArg (nbit · k) (fget_gateReport_ne d false 0 _ (by decide) (by decide))
  · have hen' : (gatedState d s).fbit (evten F.PLT_EVT_PGATE) = true := by
      rwa [State.fbit, fget_pgateEn_gatedState]
    rw [if_pos hen', hgate.h_seq rfl, hgate.h_ptime rfl] at hevq
    exact (congrArg List.getLast? hevq).trans List.getLast?_concat
  · rw [← memGet_gatedState d x s hd]
    exact congrArg (memGet · x) (hreport.h_mem rfl)

theorem leads_power (d : Nat) (s : State) (hok : s.gateRefusal d true = none) : leads (.pgreqPower d) s fun t =>
    t.fget F.PLT_PGREQ_DOMAIN = d ∧ t.fbit F.PLT_PGREQ_ON = true ∧ t.fget F.PLT_PGSTAT_ON = s.fget F.PLT_PGSTAT_ON ∧ steady s t ∧
    (if s.domOn d = true then t.fget F.PLT_PGREQ_RESULT = 0 ∧ posted F.PLT_EVT_PGATE 0 4 [d, 1, 0] s t ∧ t.plt = s.plt
      else t.fget F.PLT_PGREQ_GO = 1 ∧ t.plt = { s.plt with pgReq := some d } ∧ t.evq = s.evq) ∧
    onlyFields [F.PLT_PGREQ_DOMAIN, F.PLT_PGREQ_ON, F.PLT_PGREQ_GO, F.PLT_PGREQ_RESULT, F.PLT_EVT_PGATE] s t := by
  obtain ⟨-, hd⟩ := State.gateRefusal_of_none hok
  have hdom : (requested d true s).fget F.PLT_PGREQ_DOMAIN = d :=
    (State.fget_fset_ne _ _ (by decide)).trans
      ((s.fget_fset_same _ d).trans (Nat.mod_eq_of_lt (hd.trans (by decide))))
  have hon : (requested d true s).fget F.PLT_PGREQ_ON = 1 := State.fget_fset_same _ _ 1
  have hstat : (requested d true s).fget F.PLT_PGSTAT_ON = s.fget F.PLT_PGSTAT_ON :=
    fget_requested_ne d true s (by decide) (by decide)
  refine leads_of (congrArg Host.Outcome.next (gateRequest_on hok)) ?_
  by_cases hnow : s.domOn d = true
  · rw [if_pos hnow, if_pos hnow]
    have hkept := fun g hres hevt => fget_gateReport_ne (g := g) d true 0 (requested d true s) hres hevt
    obtain ⟨hres, hpost⟩ := gateReport_reports (s := s) (t := requested d true s) d true (r := 0) (by decide) rfl rfl rfl
      (fget_requested_ne d true s (by decide) (by decide))
    exact ⟨(hkept _ (by decide) (by decide)).trans hdom,
      beq_iff_eq.mpr ((hkept _ (by decide) (by decide)).trans hon), (hkept _ (by decide) (by decide)).trans hstat,
      steady_gateReport d true 0 ⟨rfl, rfl, rfl⟩, ⟨hres, hpost, plt_gateReport d true 0 _⟩,
      (onlyFields.requested d true s (by simp) (by simp)).gateReport d true 0 (by simp) (by simp)⟩
  · rw [if_neg hnow, if_neg hnow]
    have hkept := fun (g : Fld) (hgo : g.key ≠ F.PLT_PGREQ_GO.key) =>
      State.fget_fset_ne ({ requested d true s with plt := { s.plt with pgReq := some d } } : State) 1 hgo
    exact ⟨(hkept F.PLT_PGREQ_DOMAIN (by decide)).trans hdom,
      beq_iff_eq.mpr ((hkept F.PLT_PGREQ_ON (by decide)).trans hon), (hkept F.PLT_PGSTAT_ON (by decide)).trans hstat,
      ⟨rfl, rfl, rfl⟩, ⟨State.fget_fset_same _ _ 1, rfl, rfl⟩,
      onlyFields.fset (onlyFields.requested d true s (by simp) (by simp)) (by simp) 1⟩

theorem leads_domainReady (d : Nat) (s : State) (hreq : s.plt.pgReq = some d) (hd : d < 30) : leads (.domainReady d) s fun t =>
    (∀ k, k < 30 → nbit (t.fget F.PLT_PGSTAT_ON) k = (nbit (s.fget F.PLT_PGSTAT_ON) k || k == d)) ∧ t.plt.pgReq = none ∧
    t.fget F.PLT_PGREQ_GO = 0 ∧ t.fget F.PLT_PGREQ_RESULT = 0 ∧ t.fget F.PLT_EVT_PGATE = 1 ∧
    (5 ≤ d → d < 9 → nbit (t.fget F.MEM_STAT_HBM_UP) (d - 5) = true) ∧ steady s t := by
  have hunits := unitsReady_frame d (powered d s)
  obtain ⟨hres, hpost, -⟩ := gateReport_reports (s := unitsReady d (powered d s)) d true (r := 0) (by decide) rfl rfl rfl rfl
  have hkept := fun g hres hevt => fget_gateReport_ne (g := g) d true 0 (unitsReady d (powered d s)) hres hevt
  refine leads_of (congrArg Host.Outcome.next (domainReady_of_requested hreq)) ⟨fun k hk => ?_, ?_,
    ((hkept _ (by decide) (by decide)).trans (hunits.h_regs _ rfl)).trans (fget_pgreqGo_powered d s), hres, hpost,
    fun hlo hhi => ?_, steady_gateReport d true 0 ⟨hunits.h_seq rfl, hunits.h_clauses rfl, hunits.h_mem rfl⟩⟩
  · rw [← nbit_pgstat_powered d s hk]
    exact congrArg (nbit · k) ((hkept _ (by decide) (by decide)).trans (hunits.h_regs _ rfl))
  · rw [plt_gateReport, hunits.h_plt rfl]
    rfl
  · have hon : (powered d s).domOn (5 + (d - 5)) = true := by
      rw [Nat.add_sub_cancel' hlo, State.domOn, nbit_pgstat_powered d s hd]
      simp
    rw [hkept _ (by decide) (by decide), unitsReady_of_hbm hlo hhi, hbmReady_of_powered (.inl hon),
      nbit_fset_putBit _ _ _ (show d - 5 < 4 by omega), if_pos rfl]

theorem leads_hbmTrainComplete (k : Nat) (s : State) (hon : s.domOn (5 + k) = true ∨ s.plt.pgReq = some (5 + k)) :
    leads (.hbmTrainComplete k) s fun t =>
      (∀ j, j < 4 → nbit (t.fget F.MEM_STAT_HBM_UP) j = (nbit (s.fget F.MEM_STAT_HBM_UP) j || j == k)) ∧ steady s t ∧
      t.evq = s.evq ∧ onlyFields [F.MEM_STAT_HBM_UP] s t := by
  refine leads_of (congrArg Host.Outcome.next (hbmReady_of_powered hon)) ⟨fun j hj => ?_, ⟨rfl, rfl, rfl⟩, rfl,
    (onlyFields.refl _ s).fset (by simp) _⟩
  rw [nbit_fset_putBit _ _ _ hj]
  by_cases hjk : j = k <;> simp [hjk]

/-- A frame that admits the platform's state admits another one. -/
theorem Fr.withPlt {E : Nat} {s t : State} (h : Fr E s t) (p : Plt) (hE : E.testBit 24 = true) : Fr E s { t with plt := p } :=
  { h with h_plt := fun hf => absurd (hf.symm.trans hE) (by decide) }

/-- What every reset leaves (R579), whatever follows it in the boot registers. -/
theorem resetBlocks_leaves {s t : State} (h : Fr 0x83410000 (resetBlocks s) t) :
    t.flash = s.flash ∧ t.sec.fuses = s.sec.fuses ∧ t.sec.tokens = [] ∧ t.mem = State.reset.mem ∧ t.seq.st = .idle ∧
      t.evq = [] ∧ t.dbg.tapLevel = 0 ∧ t.dbg.hostLevel = 0 ∧ t.out = s.out := by
  have hmap : ∀ u : State, Fr 0x400 u (loadPhraseMap u) := fun u => loadPhraseMap_frame (Fr.refl _ u) rfl
  have hsec : t.sec = { State.reset.sec with fuses := s.sec.fuses } := (h.h_sec rfl).trans ((hmap _).h_sec rfl)
  have hseq : t.seq = { State.reset.seq with ckpts := s.seq.ckpts.filter fun e => isHost e.1 } :=
    (h.h_seq rfl).trans ((hmap _).h_seq rfl)
  have hdbg : t.dbg = State.reset.dbg := (h.h_dbg rfl).trans ((hmap _).h_dbg rfl)
  refine ⟨(h.h_flash rfl).trans ((hmap _).h_flash rfl), ?_, ?_, (h.h_mem rfl).trans ((hmap _).h_mem rfl), ?_,
    (h.h_evq rfl).trans ((hmap _).h_evq rfl), ?_, ?_, (h.h_out rfl).trans ((hmap _).h_out rfl)⟩
  · rw [hsec]
  · rw [hsec]; rfl
  · rw [hseq]; rfl
  · rw [hdbg]; rfl
  · rw [hdbg]; rfl

theorem resetBlocks_parts (s : State) : (resetBlocks s).plt.inReset = false ∧ (resetBlocks s).mgt.boot = none ∧
    (resetBlocks s).load.img = none ∧ ∀ f, (resetBlocks s).fget f = f.reset := by
  have hmap : ∀ u : State, Fr 0x400 u (loadPhraseMap u) := fun u => loadPhraseMap_frame (Fr.refl _ u) rfl
  exact ⟨congrArg Plt.inReset ((hmap _).h_plt rfl), congrArg Mgt.boot ((hmap _).h_mgt rfl),
    congrArg Load.img ((hmap _).h_load rfl), fun f => (hmap _).fget (by decide) f⟩

/-- The state in which the boot ROM selects an image: cause and count are set. -/
def resetCounted (cause : ResetCause) (s : State) : State :=
  ((resetBlocks s).fset F.PLT_RSTCAUSE_CAUSE (causeCode cause)).fset F.PLT_RSTCAUSE_COUNT (satSucc 8 (s.fget F.PLT_RSTCAUSE_COUNT))

theorem deviceReset_boots {cause : ResetCause} {s : State} (h : ¬ (cause = .power ∨ cause = .thermtrip)) :
    deviceReset cause s = bootSelect (resetCounted cause s) := by
  cases cause with
  | power => exact absurd (.inl rfl) h
  | thermtrip => exact absurd (.inr rfl) h
  | brownout => rfl
  | software => rfl
  | root => rfl

theorem fget_cause_count (n : Nat) {code : Nat} (s : State) (hcode : code < 16) :
    ((s.fset F.PLT_RSTCAUSE_CAUSE code).fset F.PLT_RSTCAUSE_COUNT (satSucc 8 n)).fget F.PLT_RSTCAUSE_CAUSE = code ∧
      ((s.fset F.PLT_RSTCAUSE_CAUSE code).fset F.PLT_RSTCAUSE_COUNT (satSucc 8 n)).fget F.PLT_RSTCAUSE_COUNT = satSucc 8 n :=
  ⟨(State.fget_fset_ne _ _ (by decide)).trans ((s.fget_fset_same _ code).trans (Nat.mod_eq_of_lt hcode)),
    (State.fget_fset_same _ _ _).trans (Nat.mod_eq_of_lt (satSucc_lt n))⟩

theorem deviceReset_power_eq (s : State) : deviceReset .power s =
    { resetBlocks s with plt := { (resetBlocks s).plt with thermTrip := false, inReset := true } } := rfl

theorem deviceReset_thermtrip_eq (s : State) : deviceReset .thermtrip s =
    (({ resetBlocks s with plt := { (resetBlocks s).plt with inReset := true } } : State).fset F.PLT_RSTCAUSE_CAUSE 3).fset
      F.PLT_RSTCAUSE_COUNT (satSucc 8 (s.fget F.PLT_RSTCAUSE_COUNT)) := rfl

/-- CAUSE and COUNT after a reset (R578). -/
theorem fget_deviceReset (cause : ResetCause) (s : State) :
    (deviceReset cause s).fget F.PLT_RSTCAUSE_CAUSE = causeCode cause ∧
    (deviceReset cause s).fget F.PLT_RSTCAUSE_COUNT =
      (if cause = .power then 0 else satSucc 8 (s.fget F.PLT_RSTCAUSE_COUNT)) := by
  obtain ⟨-, -, -, hfld⟩ := resetBlocks_parts s
  by_cases hwait : cause = .power ∨ cause = .thermtrip
  · obtain rfl | rfl := hwait
    · rw [deviceReset_power_eq, if_pos rfl]
      exact ⟨hfld _, hfld _⟩
    · rw [deviceReset_thermtrip_eq, if_neg (by decide)]
      exact fget_cause_count _ _ (by decide)
  · rw [if_neg (fun h => hwait (.inl h)), deviceReset_boots hwait]
    obtain ⟨hcause, hcount⟩ := fget_cause_count (s.fget F.PLT_RSTCAUSE_COUNT) (resetBlocks s)
      (show causeCode cause < 16 by cases cause <;> decide)
    have hsel : Fr 0x80410000 (resetCounted cause s) (bootSelect (resetCounted cause s)) := bootSelect_frame (Fr.refl _ _) rfl
    exact ⟨(hsel.h_regs _ rfl).trans hcause, (hsel.h_regs _ rfl).trans hcount⟩

/-- Whether a reset starts the boot (R568, R580). -/
theorem deviceReset_boot (cause : ResetCause) (s : State) :
    if cause = .power ∨ cause = .thermtrip then (deviceReset cause s).plt.inReset = true ∧ (deviceReset cause s).mgt.boot = none
    else (deviceReset cause s).plt.inReset = false ∧ (deviceReset cause s).mgt.boot ≠ none ∧
      (deviceReset cause s).fget F.SCH_LOAD_BUSY = 1 := by
  obtain ⟨hin, hboot, -, -⟩ := resetBlocks_parts s
  by_cases hwait : cause = .power ∨ cause = .thermtrip
  · rw [if_pos hwait]
    obtain rfl | rfl := hwait
    · rw [deviceReset_power_eq]
      exact ⟨rfl, hboot⟩
    · rw [deviceReset_thermtrip_eq]
      exact ⟨rfl, hboot⟩
  · rw [if_neg hwait, deviceReset_boots hwait]
    obtain ⟨hbegun, hbusy, -⟩ := bootSelect_begins (resetCounted cause s)
    have hsel : Fr 0x80410000 (resetCounted cause s) (bootSelect (resetCounted cause s)) := bootSelect_frame (Fr.refl _ _) rfl
    exact ⟨(congrArg Plt.inReset (hsel.h_plt rfl)).trans hin, hbegun, hbusy⟩

theorem deviceReset_from (cause : ResetCause) (s : State) :
    (deviceReset cause s).load.img = none ∧ Fr 0x83410000 (resetBlocks s) (deviceReset cause s) := by
  obtain ⟨-, -, himg, -⟩ := resetBlocks_parts s
  by_cases hwait : cause = .power ∨ cause = .thermtrip
  · obtain rfl | rfl := hwait
    · rw [deviceReset_power_eq]
      exact ⟨himg, (Fr.refl _ _).withPlt _ rfl⟩
    · rw [deviceReset_thermtrip_eq]
      exact ⟨himg, State.fset_frame _ _ (State.fset_frame _ _ ((Fr.refl _ _).withPlt _ rfl) rfl) rfl⟩
  · rw [deviceReset_boots hwait]
    obtain ⟨-, -, hkeep⟩ := bootSelect_begins (resetCounted cause s)
    exact ⟨hkeep.trans himg, bootSelect_frame (State.fset_frame _ _ (State.fset_frame _ _ (Fr.refl _ _) rfl) rfl) rfl⟩

theorem leads_porstRelease (s : State) (hjob : s.load.job = none) : leads .porstNRelease s fun t =>
    t.plt.inReset = false ∧ t.mgt.boot ≠ none ∧ t.fget F.SCH_LOAD_BUSY = 1 ∧
    (∀ c, c < 64 → nbit (s.fuseByte (336 + c)) 7 = true →
      (t.clause c).spared = true ∧ (t.clause c).retired = s.fuseByte (336 + c) % 128) ∧
    (∀ c, c < 64 → nbit (s.fuseByte (336 + c)) 7 = false → t.clause c = s.clause c) ∧ t.mem = s.mem ∧ t.flash = s.flash ∧
    t.evq = s.evq := by
  let u : State := { s with plt := { s.plt with inReset := false } }
  have hmap : Fr 0x400 u (loadPhraseMap u) := loadPhraseMap_frame (Fr.refl _ u) rfl
  have hsel : Fr 0x80410000 (loadPhraseMap u) (bootSelect (loadPhraseMap u)) := bootSelect_frame (Fr.refl _ _) rfl
  have hexec : exec .porstNRelease s = .next (bootSelect (loadPhraseMap u)) := by
    have hfree : ¬ (loadPhraseMap u).load.job.isSome = true := by
      rw [hmap.h_load rfl]
      show ¬ s.load.job.isSome = true
      simp [hjob]
    exact congrArg Host.Outcome.next (if_neg hfree)
  have hclause : ∀ c, c < 64 → (bootSelect (loadPhraseMap u)).clause c = fusedClause u c := fun c hc =>
    (State.clause_congr (hsel.h_clauses rfl) c).trans (clause_loadPhraseMap u hc)
  obtain ⟨hbegun, hbusy, -⟩ := bootSelect_begins (loadPhraseMap u)
  refine leads_of hexec ⟨congrArg Plt.inReset ((hsel.h_plt rfl).trans (hmap.h_plt rfl)), hbegun, hbusy, fun c hc hfuse => ?_,
    fun c hc hfuse => ?_, (hsel.h_mem rfl).trans (hmap.h_mem rfl), (hsel.h_flash rfl).trans (hmap.h_flash rfl),
    (hsel.h_evq rfl).trans (hmap.h_evq rfl)⟩
  · rw [hclause c hc, fusedClause, if_pos (show nbit (u.fuseByte (336 + c)) 7 = true from hfuse)]
    exact ⟨rfl, rfl⟩
  · exact (hclause c hc).trans (if_neg (ne_true_of_eq_false hfuse))

/-- Settles O59: a power request is answered as `gateRefusal` decides it; a gated domain loses what `gateDomain` says and a powered
one is on once it is ready; every reset starts from `resetBlocks` and, unless it waits for PORST_N, enters the boot. -/
theorem powerAndResets : Obligations.PowerAndResets := by
  unfold Obligations.PowerAndResets
  refine ⟨leads_refused, fun d c on s => ⟨?busy, ?range, ?always, ?loaded⟩, leads_gate, leads_power, ?other, leads_domainReady, ?absent,
    ?trained, ?noPath, ?firstKey, ?secondKey, ?otherKey, ?reset, leads_porstRelease⟩
  case busy => exact fun hgo => if_pos hgo
  case range => exact fun hgo hd => by simp [State.gateRefusal, hgo, hd]
  case always => exact fun hgo hd => by simp [State.gateRefusal, hgo, hd, show ¬ 30 ≤ d by omega]
  case loaded => exact State.gateRefusal_of_loaded
  case other => exact fun d s h => congrArg Host.Outcome.next (domainReady_of_other h)
  case absent => exact fun k s hon hreq => congrArg Host.Outcome.next (hbmReady_of_off hon hreq)
  case trained => exact fun k s _ hon => leads_hbmTrainComplete k s hon
  case noPath => exact fun req key s h => congrArg Host.Outcome.next (rstKey_of_none key h)
  case firstKey =>
    exact fun req p s h => leads_of (congrArg Host.Outcome.next (rstKey_first h)) ⟨rfl, ⟨rfl, rfl, rfl⟩, rfl, onlyFields.refl _ s⟩
  case secondKey => exact fun req p n s h hwin => congrArg Host.Outcome.next (rstKey_second h hwin)
  case otherKey => exact fun req p key s h hkey hother => congrArg Host.Outcome.next (rstKey_of_other h hkey hother)
  case reset =>
    intro cause s
    have hcode : causeCode cause = (match cause with
        | .power => 1 | .brownout => 2 | .thermtrip => 3 | .software => 4 | .root => 5) := by cases cause <;> rfl
    obtain ⟨hcause, hcount⟩ := fget_deviceReset cause s
    obtain ⟨himg, hfr⟩ := deviceReset_from cause s
    obtain ⟨hflash, hfuses, htokens, hmem, hst, hevq, htap, hhost, hout⟩ := resetBlocks_leaves hfr
    exact leads_of rfl ⟨hcause.trans hcode, hcount, deviceReset_boot cause s, hflash, hfuses, htokens, hmem, hst, himg, hevq, htap, hhost,
      (deviceReset_kept cause (Kept.refl s)).pending, hout⟩

end Sys2Proof.Machine
end

section
/-! Patch applications (R138, R191, R193, R194, R293). -/
namespace Sys2Proof.Machine

/-! ### The staged addresses (R203) -/

/-- The staged addresses lie in the register file. -/
theorem puAddr_congr {s t : State} (h : t.fields = s.fields) (u : Nat) : t.puAddr u = s.puAddr u := by
  unfold State.puAddr State.fget
  rw [h]

/-- A register below SCH_PU is none of its fields. -/
theorem puAddr_fset_low {f : Fld} (v u : Nat) (s : State) (h : f.key < 32 * 0x600100) : (s.fset f v).puAddr u = s.puAddr u := by
  have hne : ∀ g : Fld, 0x600100 ≤ g.addr → (s.fset f v).fget g = s.fget g := fun g hg =>
    s.fget_fset_ne v (by unfold Fld.key at h ⊢; omega)
  unfold State.puAddr
  rw [hne _ (Nat.le_add_right _ _), hne _ (Nat.le_add_right _ _), hne _ (Nat.le_add_right _ _), hne _ (Nat.le_add_right _ _),
    hne _ (Nat.le_add_right _ _)]

/-- MODE of one unit is no field of another. -/
theorem puAddr_fset_mode_ne {u k : Nat} (v : Nat) (s : State) (hu : u < 64) (hk : k < 64) (hne : k ≠ u) :
    (s.fset (F.SCH_PU_MODE u) v).puAddr k = s.puAddr k := by
  have hkeep : ∀ g : Fld, g.addr = 0x600100 + 0x4 * (k % 64) → g.lo < 32 → (s.fset (F.SCH_PU_MODE u) v).fget g = s.fget g :=
    fun g hg hlo => s.fget_fset_ne v (by simp only [Fld.key, F.SCH_PU_MODE]; omega)
  unfold State.puAddr
  rw [hkeep (F.SCH_PU_MODE k) rfl (by decide : 30 < 32), hkeep (F.SCH_PU_CLAUSE k) rfl (by decide : 24 < 32),
    hkeep (F.SCH_PU_KIND k) rfl (by decide : 23 < 32),
    hkeep (F.SCH_PU_INDEX k) rfl (by decide : 11 < 32), hkeep (F.SCH_PU_PHASE k) rfl (by decide : 0 < 32)]

/-- The staged units lie in SCH_PU and in the staged words alone. -/
theorem staged_congr {s t : State} (haddr : ∀ u, t.puAddr u = s.puAddr u) (hword : t.sch.stgW = s.sch.stgW) :
    t.staged = s.staged := by
  unfold State.staged
  simp only [haddr, hword]

/-- What the check of an application reads beside the staged units (R194). -/
theorem patchFault_of_parts {s t : State} (loadTime : Bool) (hstaged : t.staged = s.staged) (hload : t.load = s.load)
    (hunit : t.unitFault = s.unitFault) (hparse : t.parseCtx = s.parseCtx) (hclauses : t.loadedClauses = s.loadedClauses)
    (hdepth : t.seq.depth = s.seq.depth) : t.patchFault loadTime = s.patchFault loadTime := by
  unfold State.patchFault State.designLoad
  rw [hstaged, hload, hunit, hparse, hclauses, hdepth]

/-! ### The swap (R191, R193) -/

/-- The address a unit has once its staged address is active: a DICT unit is spent (R191). -/
def activeAddr (a : Nat) : Nat := if puMode a = 3 then a % 2 ^ 30 else a

/-- One unit becomes active; a DICT unit writes its entry first. -/
def swapUnit (s : State) (u : Nat) : State :=
  let a := s.puAddr u
  let w := kvGet 0#128 s.sch.stgW u
  let s := if puMode a = 3 then
      (dictWrite (puClause a) (puIndex a) (w.setWidth 32) s).fset (F.SCH_PU_MODE u) 0
    else s
  { s with sch := { s.sch with actA := kvSet 0 s.sch.actA u (activeAddr a), actW := kvSet 0#128 s.sch.actW u w } }

theorem patchSwap_eq (s : State) : patchSwap s = sigEpoch 0 ((List.range 64).foldl swapUnit s) := rfl

theorem sch_swapUnit (s : State) (u : Nat) : (swapUnit s u).sch = { s.sch with
    actA := kvSet 0 s.sch.actA u (activeAddr (s.puAddr u))
    actW := kvSet 0#128 s.sch.actW u (kvGet 0#128 s.sch.stgW u) } := by
  unfold swapUnit
  dsimp only
  split <;> rfl

theorem puAddr_swapUnit_ne {s : State} {u k : Nat} (hu : u < 64) (hk : k < 64) (hne : k ≠ u) :
    (swapUnit s u).puAddr k = s.puAddr k := by
  unfold swapUnit
  dsimp only
  split
  · exact puAddr_fset_mode_ne 0 (dictWrite _ _ _ s) hu hk hne
  · rfl

/-- After the swap of the units below n, those have what was staged, and the others still have it staged. -/
theorem swapUnits_below (s : State) (n : Nat) (hn : n ≤ 64) :
    ((List.range n).foldl swapUnit s).sch.stgW = s.sch.stgW ∧
    ((List.range n).foldl swapUnit s).sch.patch = s.sch.patch ∧
    (∀ u, n ≤ u → u < 64 → ((List.range n).foldl swapUnit s).puAddr u = s.puAddr u) ∧
    ∀ u, u < n → kvGet 0#128 ((List.range n).foldl swapUnit s).sch.actW u = kvGet 0#128 s.sch.stgW u ∧
      kvGet 0 ((List.range n).foldl swapUnit s).sch.actA u = activeAddr (s.puAddr u) := by
  induction n with
  | zero => exact ⟨rfl, rfl, fun _ _ _ => rfl, fun u hu => absurd hu u.not_lt_zero⟩
  | succ n ih =>
    obtain ⟨hstg, hpatch, hrest, hdone⟩ := ih (Nat.le_of_succ_le hn)
    rw [List.range_succ, List.foldl_append]
    generalize (List.range n).foldl swapUnit s = t at hstg hpatch hrest hdone
    show (swapUnit t n).sch.stgW = _ ∧ (swapUnit t n).sch.patch = _ ∧ (∀ u, _ → _ → (swapUnit t n).puAddr u = _) ∧
      ∀ u, _ → kvGet 0#128 (swapUnit t n).sch.actW u = _ ∧ kvGet 0 (swapUnit t n).sch.actA u = _
    rw [sch_swapUnit]
    refine ⟨hstg, hpatch, fun u hu hu' => (puAddr_swapUnit_ne hn hu' (by omega)).trans (hrest u (by omega) hu'), fun u hu => ?_⟩
    dsimp only
    rw [kvGet_kvSet, kvGet_kvSet]
    by_cases hun : u = n
    · rw [if_pos hun, if_pos hun, hun, hstg, hrest n le_rfl hn]
      exact ⟨rfl, rfl⟩
    · rw [if_neg hun, if_neg hun]
      exact hdone u (by omega)

theorem patchSwap_swaps (s : State) : (patchSwap s).sch.stgW = s.sch.stgW ∧
    ∀ u, u < 64 → kvGet 0#128 (patchSwap s).sch.actW u = kvGet 0#128 s.sch.stgW u ∧
      kvGet 0 (patchSwap s).sch.actA u = activeAddr (s.puAddr u) := by
  obtain ⟨hstg, -, -, hdone⟩ := swapUnits_below s 64 le_rfl
  have hsch : (patchSwap s).sch = ((List.range 64).foldl swapUnit s).sch := by
    rw [patchSwap_eq]
    exact (sigEpoch_frame 0 (Fr.refl 0x40000 _) rfl).h_sch rfl
  rw [hsch]
  exact ⟨hstg, hdone⟩

/-! ### The end of an application (R194, R205) -/

/-- What the report of an application leaves. -/
theorem patchReport_leaves {res unit : Nat} (reason : Nat) (step : List Nat) (s : State) (hres : res < 256) (hunit : unit < 64) :
    (patchReport res reason unit step s).sch = { s.sch with patch := none } ∧
    (patchReport res reason unit step s).fget F.SCH_PATCH_RESULT = res ∧
    (patchReport res reason unit step s).fget F.SCH_PATCH_UNIT = unit ∧
    (patchReport res reason unit step s).fget F.SCH_PATCH_APPLY = 0 ∧
    (patchReport res reason unit step s).fget F.SCH_STAT_PATCH_BUSY = 0 ∧
    (patchReport res reason unit step s).fget F.SCH_EVT_PATCH = 1 := by
  unfold patchReport
  refine ⟨State.sch_raise _ _ _ _ _, ?_, ?_, ?_, ?_, State.fget_raise_same _ _ _ _ _⟩ <;> rw [State.fget_raise_ne _ _ _ _ (by decide)]
  · rw [State.fget_fset_ne _ _ (by decide), State.fget_fset_ne _ _ (by decide)]
    exact (State.fget_fset_same _ _ _).trans (Nat.mod_eq_of_lt hres)
  · exact (State.fget_fset_same _ _ _).trans (Nat.mod_eq_of_lt hunit)
  · rw [State.fget_fset_ne _ _ (by decide), State.fget_fset_ne _ _ (by decide), State.fget_fset_ne _ _ (by decide)]
    exact State.fget_fset_same _ _ 0
  · rw [State.fget_fset_ne _ _ (by decide), State.fget_fset_ne _ _ (by decide), State.fget_fset_ne _ _ (by decide),
      State.fget_fset_ne _ _ (by decide)]
    exact State.fget_fset_same _ _ 0

theorem units_patchReport (res reason unit : Nat) (step : List Nat) (s : State) :
    (patchReport res reason unit step s).sch.patch = none ∧ (patchReport res reason unit step s).sch.stgW = s.sch.stgW ∧
    (patchReport res reason unit step s).sch.actW = s.sch.actW ∧ (patchReport res reason unit step s).sch.actA = s.sch.actA := by
  have hsch : (patchReport res reason unit step s).sch = { s.sch with patch := none } := State.sch_raise _ _ _ _ _
  rw [hsch]
  exact ⟨rfl, rfl, rfl, rfl⟩

/-- An application whose check fails leaves the units and the clauses. -/
theorem patchFinish_of_fault {res reason unit : Nat} {s : State} (h : s.patchFault false = some (res, reason, unit)) (hres : res < 256)
    (hunit : unit < 64) :
    (patchFinish false s).sch = { s.sch with patch := none } ∧ (patchFinish false s).clauses = s.clauses ∧
    (patchFinish false s).fget F.SCH_PATCH_RESULT = res ∧
    (s.staged ≠ [] → (patchFinish false s).fget F.SCH_PATCH_UNIT = unit) ∧ (patchFinish false s).fget F.SCH_PATCH_APPLY = 0 ∧
    (patchFinish false s).fget F.SCH_STAT_PATCH_BUSY = 0 ∧ (patchFinish false s).fget F.SCH_EVT_PATCH = 1 := by
  have hfinish : patchFinish false s =
      patchReport res (if res = 1 then reason else s.freshNat.1 % 256) (if s.staged.isEmpty then s.freshNat.1 / 256 % 64 else unit)
        s.freshNat.2.fresh64.1 s.freshNat.2.fresh64.2 := by
    simp only [patchFinish, h]
  have hu : (if s.staged.isEmpty then s.freshNat.1 / 256 % 64 else unit) < 64 := by
    split
    · exact Nat.mod_lt _ (by decide)
    · exact hunit
  obtain ⟨hsch, hr, hun, happly, hbusy, hevt⟩ := patchReport_leaves (if res = 1 then reason else s.freshNat.1 % 256)
    s.freshNat.2.fresh64.1 s.freshNat.2.fresh64.2 hres hu
  rw [hfinish]
  exact ⟨hsch, (patchReport_frame _ _ _ _ (Fr.refl 0x80001080 _) rfl).h_clauses rfl, hr,
    fun hne => hun.trans (if_neg (by simpa using hne)), happly, hbusy, hevt⟩

theorem patchFinish_eq_swap {s : State} (h : s.patchFault false = none) : patchFinish false s =
    patchReport 0 (s.freshNat.1 % 256) (s.freshNat.1 / 256 % 64) (w64 s.seq.step) (patchSwap s.freshNat.2) := by
  simp only [patchFinish, h]

/-- An application that passes makes what is staged active. -/
theorem patchFinish_of_passed {s : State} (h : s.patchFault false = none) :
    (patchFinish false s).sch.patch = none ∧ (patchFinish false s).sch.stgW = s.sch.stgW ∧
    (∀ u, u < 64 → kvGet 0#128 (patchFinish false s).sch.actW u = kvGet 0#128 s.sch.stgW u ∧
      kvGet 0 (patchFinish false s).sch.actA u = activeAddr (s.puAddr u)) ∧
    (patchFinish false s).fget F.SCH_PATCH_RESULT = 0 ∧ (patchFinish false s).fget F.SCH_PATCH_APPLY = 0 ∧
    (patchFinish false s).fget F.SCH_STAT_PATCH_BUSY = 0 ∧ (patchFinish false s).fget F.SCH_EVT_PATCH = 1 := by
  have hfresh : Fr 0x10 s s.freshNat.2 := State.freshNat_frame (Fr.refl _ s) rfl
  obtain ⟨-, hr, -, happly, hbusy, hevt⟩ := patchReport_leaves (s.freshNat.1 % 256) (w64 s.seq.step) (patchSwap s.freshNat.2)
    (res := 0) (by decide) (Nat.mod_lt (s.freshNat.1 / 256) (by decide : 0 < 64))
  obtain ⟨hpatch, hstg, hactW, hactA⟩ := units_patchReport 0 (s.freshNat.1 % 256) (s.freshNat.1 / 256 % 64) (w64 s.seq.step)
    (patchSwap s.freshNat.2)
  obtain ⟨hstg', hact⟩ := patchSwap_swaps s.freshNat.2
  simp only [hfresh.h_sch rfl, puAddr_congr (show s.freshNat.2.fields = s.fields from rfl)] at hstg' hact
  rw [patchFinish_eq_swap h, hstg, hactW, hactA]
  exact ⟨hpatch, hstg', hact, hr, happly, hbusy, hevt⟩

/-! ### SCH_PATCH_APPLY (R193, R194) -/

/-- An application that comes while none is pending is noted, with APPLY and PATCH_BUSY reading 1. -/
def applyNoted (p : PatchPhase) (s : State) : State :=
  (({ s with sch := { s.sch with patch := some p } } : State).fset F.SCH_PATCH_APPLY 1).fset F.SCH_STAT_PATCH_BUSY 1

/-- Whether the boundary of an application has come already. -/
def State.applyPhase (s : State) : PatchPhase := if s.stepping = false ∧ s.atPhase0 = true then .due else .pending

theorem puAddr_applyNoted (p : PatchPhase) (s : State) (u : Nat) : (applyNoted p s).puAddr u = s.puAddr u :=
  (puAddr_fset_low 1 u _ (by decide)).trans ((puAddr_fset_low 1 u _ (by decide)).trans (puAddr_congr rfl u))

/-- The check reads neither the progress of the application nor, outside SCH_PU, a register. -/
theorem patchFault_applyNoted (p : PatchPhase) (s : State) (loadTime : Bool) :
    (applyNoted p s).patchFault loadTime = s.patchFault loadTime :=
  patchFault_of_parts loadTime (staged_congr (puAddr_applyNoted p s) rfl) rfl rfl rfl rfl rfl

theorem applyNoted_fields (p : PatchPhase) (s : State) : (applyNoted p s).fget F.SCH_PATCH_APPLY = 1 ∧
    (applyNoted p s).fget F.SCH_STAT_PATCH_BUSY = 1 ∧
    onlyFields [F.SCH_PATCH_APPLY, F.SCH_STAT_PATCH_BUSY] s (applyNoted p s) := by
  have honly : onlyFields [F.SCH_PATCH_APPLY, F.SCH_STAT_PATCH_BUSY] s { s with sch := { s.sch with patch := some p } } :=
    fun _ _ => rfl
  exact ⟨(State.fget_fset_ne _ _ (by decide)).trans (State.fget_fset_same _ _ 1), State.fget_fset_same _ _ 1,
    (honly.fset (by simp) 1).fset (by simp) 1⟩

theorem patchApply_of_none {s : State} (h : s.sch.patch = none) : patchApply s = patchNow (applyNoted s.applyPhase s) := by
  unfold patchApply State.applyPhase
  rw [h, Option.isSome_none, if_neg Bool.false_ne_true]
  simp only [Bool.and_eq_true, Bool.not_eq_true']
  rfl

/-- An application whose boundary has not come, or that a migration keeps waiting, stays noted. -/
theorem patchNow_applyNoted_waits {s : State} (h : s.stepping = true ∨ s.atPhase0 = false ∨ s.migRuns = true) :
    patchNow (applyNoted s.applyPhase s) = applyNoted s.applyPhase s := by
  have hguard : (s.applyPhase = .due ∧ s.stepping = false) ∧ s.atPhase0 = true → s.migRuns = true := by
    rintro ⟨⟨-, hst⟩, hph⟩
    simpa [hst, hph] using h
  refine if_neg fun hnow => ?_
  have hnow' : ((some s.applyPhase == some PatchPhase.due) && !s.stepping && s.atPhase0 && !s.migRuns) = true := hnow
  have hparts : ((s.applyPhase = .due ∧ s.stepping = false) ∧ s.atPhase0 = true) ∧ s.migRuns = false := by
    simpa only [Bool.and_eq_true, Bool.not_eq_true', beq_iff_eq, Option.some.injEq] using hnow'
  rw [hguard hparts.1] at hparts
  exact Bool.noConfusion hparts.2

theorem patchNow_applyNoted_ends {s : State} (hst : s.stepping = false) (hph : s.atPhase0 = true) (hmig : s.migRuns = false) :
    patchNow (applyNoted s.applyPhase s) = patchFinish false (applyNoted .due s) := by
  have hphase : s.applyPhase = .due := if_pos ⟨hst, hph⟩
  rw [hphase]
  refine if_pos ?_
  show ((some PatchPhase.due == some PatchPhase.due) && !s.stepping && s.atPhase0 && !s.migRuns) = true
  rw [hst, hph, hmig]
  rfl

theorem patchApply_of_pending {s : State} (h : s.sch.patch ≠ none) :
    patchApply s = (s.freshNat.2.fresh64.2.fset F.SCH_PATCH_RESULT 4).raise F.SCH_EVT_PATCH 6 6
      ([4, s.freshNat.1 % 256, s.freshNat.1 / 256 % 64] ++ s.freshNat.2.fresh64.1) :=
  if_pos (Option.isSome_iff_ne_none.mpr h)

/-! ### The holds (R138, R194) -/

theorem patchHoldBegin_of_due {s : State} (h : s.sch.patch = some .due) (hmig : s.migRuns = false) :
    patchHoldBegin s = { s with sch := { s.sch with patch := some .hold } } :=
  if_pos (by simp [h, hmig])

theorem patchHoldBegin_of_other {s : State} (h : s.sch.patch ≠ some .due ∨ s.migRuns = true) : patchHoldBegin s = s :=
  if_neg (by simpa [imp_iff_not_or] using h)

theorem exec_patchHoldEnd_of_hold {s : State} (h : s.sch.patch = some .hold) :
    exec .patchHoldEnd s = .next (patchSetEnd (patchFinish false s)) := by
  have hend : patchHoldEnd s = patchFinish false s := if_pos (by simp [h])
  have hexec : exec .patchHoldEnd s = .next (if s.sch.patch == some .hold then patchSetEnd (patchHoldEnd s) else s) := rfl
  rw [hexec, if_pos (by simp [h]), hend]

theorem exec_patchHoldEnd_of_other {s : State} (h : s.sch.patch ≠ some .hold) : exec .patchHoldEnd s = .next s :=
  congrArg Host.Outcome.next (if_neg (by simpa using h))

theorem patchSetEnd_of_none {s : State} (h : s.mgt.patch = none) : patchSetEnd s = s := by
  simp only [patchSetEnd, h]

/-- An answered slot has its GO bit clear (R527). -/
theorem svcRespond_answers {slot : Nat} (status ev : Nat) (d : List Nat) (s : State) (hslot : slot < 4) :
    nbit ((svcRespond slot status ev d s).fget F.MGT_SVC_GO) slot = false := by
  unfold svcRespond
  split
  · rename_i hskip
    simpa [hslot.not_ge] using hskip
  · rw [State.fget_raise_ne _ _ _ _ (by decide)]
    exact (nbit_fset_putBit s F.MGT_SVC_GO false hslot).trans (if_pos rfl)

theorem mgtPatch_svcRespond (slot status ev : Nat) (d : List Nat) (s : State) :
    (svcRespond slot status ev d s).mgt.patch = s.mgt.patch := by
  unfold svcRespond
  split
  · rfl
  · rw [State.mgt_raise]
    rfl

/-- A PATCH_SET that waits for the application is answered (R293). -/
theorem patchSetEnd_answers {slot set : Nat} {withdraw : Bool} {s : State} (h : s.mgt.patch = some (slot, set, withdraw)) :
    (patchSetEnd s).mgt.patch = none ∧ (slot < 4 → nbit ((patchSetEnd s).fget F.MGT_SVC_GO) slot = false) := by
  simp only [patchSetEnd, h]
  refine ⟨(mgtPatch_svcRespond _ _ _ _ _).trans ?_, fun hslot => svcRespond_answers _ _ _ _ hslot⟩
  have hrestage : ∀ off (u : State), (setRestage set off u).mgt = u.mgt := fun off u =>
    (setRestage_frame set off (Fr.refl 0x80000000 u) rfl).h_mgt rfl
  split_ifs
  · rfl
  · rfl
  · rw [hrestage]
  · show (setRestage set true _).mgt.patch = none
    rw [hrestage]

/-! ### The obligation -/

/-- The ways an application ends with no PATCH_SET to answer: in a state that differs from s in its progress alone. -/
theorem exec_applicationEnds {i : Instr} {s : State} (h : i = .patchHoldEnd ∧ s.sch.patch = some .hold ∧ s.mgt.patch = none ∨
      i = .schPatchApply ∧ s.sch.patch = none ∧ s.stepping = false ∧ s.atPhase0 = true ∧ s.migRuns = false) :
    ∃ u, exec i s = .next (patchFinish false u) ∧ u.patchFault false = s.patchFault false ∧ u.staged = s.staged ∧
      (∀ k, u.puAddr k = s.puAddr k) ∧ { u.sch with patch := none } = ({ s.sch with patch := none } : Sch) ∧
      u.clauses = s.clauses ∧ u.seq = s.seq ∧ u.mem = s.mem := by
  obtain ⟨rfl, hhold, hset⟩ | ⟨rfl, hnone, hst, hph, hmig⟩ := h
  · have hmgt : (patchFinish false s).mgt.patch = none := by
      rw [(patchFinish_frame false (Fr.refl 0x80041490 s) rfl).h_mgt rfl, hset]
    exact ⟨s, by rw [exec_patchHoldEnd_of_hold hhold, patchSetEnd_of_none hmgt], rfl, rfl, fun _ => rfl, rfl, rfl, rfl, rfl⟩
  · have happly : patchApply s = patchFinish false (applyNoted .due s) :=
      (patchApply_of_none hnone).trans (patchNow_applyNoted_ends hst hph hmig)
    exact ⟨applyNoted .due s, congrArg Host.Outcome.next happly, patchFault_applyNoted .due s false,
      staged_congr (puAddr_applyNoted .due s) rfl, puAddr_applyNoted .due s, rfl, rfl, rfl, rfl⟩

/-- An application while another is pending is refused BUSY (R193, R205). -/
theorem leads_applyBusy (s : State) (h : s.sch.patch ≠ none) : leads .schPatchApply s fun t =>
    t.fget F.SCH_PATCH_RESULT = 4 ∧ t.fget F.SCH_EVT_PATCH = 1 ∧ t.sch = s.sch ∧ t.clauses = s.clauses ∧ t.seq = s.seq ∧
    onlyFields [F.SCH_PATCH_RESULT, F.SCH_EVT_PATCH] s t := by
  refine leads_of (congrArg Host.Outcome.next (patchApply_of_pending h)) ⟨?_, State.fget_raise_same _ _ _ _ _,
    State.sch_raise _ _ _ _ _, State.clauses_raise _ _ _ _ _, State.seq_raise _ _ _ _ _, ?_⟩
  · exact (State.fget_raise_ne _ _ _ _ (by decide)).trans (State.fget_fset_same _ _ 4)
  · have hfresh : Fr 0x10 s s.freshNat.2.fresh64.2 := State.fresh64_frame (State.freshNat_frame (Fr.refl _ s) rfl) rfl
    exact ((onlyFields.of_frame _ (by decide) hfresh).fset (by simp) 4).raise (by simp) _ _ _

theorem leads_fault (i : Instr) (s : State) (res reason unit : Nat)
    (hi : i = .patchHoldEnd ∧ s.sch.patch = some .hold ∧ s.mgt.patch = none ∨
      i = .schPatchApply ∧ s.sch.patch = none ∧ s.stepping = false ∧ s.atPhase0 = true ∧ s.migRuns = false)
    (hfault : s.patchFault false = some (res, reason, unit)) (hres : res < 256) (hunit : unit < 64) :
    leads i s fun t => t.sch = { s.sch with patch := none } ∧ t.clauses = s.clauses ∧ t.fget F.SCH_PATCH_RESULT = res ∧
      (s.staged ≠ [] → t.fget F.SCH_PATCH_UNIT = unit) ∧ t.fget F.SCH_PATCH_APPLY = 0 ∧
      t.fget F.SCH_STAT_PATCH_BUSY = 0 ∧ t.fget F.SCH_EVT_PATCH = 1 ∧ t.seq = s.seq ∧ t.mem = s.mem := by
  obtain ⟨u, hexec, hcheck, hstaged, -, hprog, hclauses, hseq, hmem⟩ := exec_applicationEnds hi
  have hfr : Fr 0x80041490 u (patchFinish false u) := patchFinish_frame false (Fr.refl _ u) rfl
  obtain ⟨hsch, hcl, hr, hun, happly, hbusy, hevt⟩ := patchFinish_of_fault (hcheck.trans hfault) hres hunit
  exact leads_of hexec ⟨hsch.trans hprog, hcl.trans hclauses, hr, fun hne => hun (by rwa [hstaged]), happly, hbusy, hevt,
    (hfr.h_seq rfl).trans hseq, (hfr.h_mem rfl).trans hmem⟩

theorem leads_passed (i : Instr) (s : State)
    (hi : i = .patchHoldEnd ∧ s.sch.patch = some .hold ∧ s.mgt.patch = none ∨
      i = .schPatchApply ∧ s.sch.patch = none ∧ s.stepping = false ∧ s.atPhase0 = true ∧ s.migRuns = false)
    (hpass : s.patchFault false = none) : leads i s fun t =>
      t.sch.patch = none ∧ t.sch.stgW = s.sch.stgW ∧
      (∀ u, u < 64 → kvGet 0#128 t.sch.actW u = kvGet 0#128 s.sch.stgW u ∧
        kvGet 0 t.sch.actA u = (if puMode (s.puAddr u) = 3 then s.puAddr u % 2 ^ 30 else s.puAddr u)) ∧
      t.fget F.SCH_PATCH_RESULT = 0 ∧ t.fget F.SCH_PATCH_APPLY = 0 ∧ t.fget F.SCH_STAT_PATCH_BUSY = 0 ∧
      t.fget F.SCH_EVT_PATCH = 1 ∧ t.seq = s.seq ∧ t.mem = s.mem := by
  obtain ⟨u, hexec, hcheck, -, haddr, hprog, -, hseq, hmem⟩ := exec_applicationEnds hi
  have hfr : Fr 0x80041490 u (patchFinish false u) := patchFinish_frame false (Fr.refl _ u) rfl
  have hword := congrArg Sch.stgW hprog
  dsimp only at hword
  obtain ⟨hpatch, hstg, hact, hr, happly, hbusy, hevt⟩ := patchFinish_of_passed (hcheck.trans hpass)
  simp only [hword, haddr] at hstg hact
  exact leads_of hexec ⟨hpatch, hstg, hact, hr, happly, hbusy, hevt, (hfr.h_seq rfl).trans hseq, (hfr.h_mem rfl).trans hmem⟩

theorem leads_patchSet (s : State) (slot set : Nat) (withdraw : Bool) (hhold : s.sch.patch = some .hold)
    (hset : s.mgt.patch = some (slot, set, withdraw)) : leads .patchHoldEnd s fun t => t.sch.patch = none ∧ t.mgt.patch = none ∧
      (slot < 4 → nbit (t.fget F.MGT_SVC_GO) slot = false) ∧ t.seq = s.seq ∧ t.mem = s.mem := by
  have hfin : Fr 0x80041490 s (patchFinish false s) := patchFinish_frame false (Fr.refl _ s) rfl
  have hend : Fr 0x88410090 (patchFinish false s) (patchSetEnd (patchFinish false s)) := patchSetEnd_frame (Fr.refl _ _) rfl
  have hpatch : (patchFinish false s).sch.patch = none := by
    unfold patchFinish
    dsimp only
    split
    · exact (units_patchReport _ _ _ _ _).1
    · exact (units_patchReport _ _ _ _ _).1
  obtain ⟨hnone, hgo⟩ := patchSetEnd_answers (s := patchFinish false s) (hfin.h_mgt rfl ▸ hset)
  exact leads_of (exec_patchHoldEnd_of_hold hhold) ⟨(congrArg Sch.patch (hend.h_sch rfl)).trans hpatch, hnone, hgo,
    (hend.h_seq rfl).trans (hfin.h_seq rfl), (hend.h_mem rfl).trans (hfin.h_mem rfl)⟩

/-- Settles O22: an application is noted (`applyNoted`), waits for its boundary, and ends in `patchFinish`, whose check does not see
the note (`patchFault_applyNoted`) and whose swap makes all units active together (`patchSwap_swaps`). -/
theorem patchesApplyTogether : Obligations.PatchesApplyTogether := by
  unfold Obligations.PatchesApplyTogether
  refine ⟨leads_applyBusy, fun s hnone hwait => ?_, fun s hdue hmig => congrArg Host.Outcome.next (patchHoldBegin_of_due hdue hmig),
    fun s hother => congrArg Host.Outcome.next (patchHoldBegin_of_other hother), leads_fault, leads_passed, leads_patchSet,
    fun s hother => exec_patchHoldEnd_of_other hother⟩
  obtain ⟨happly, hbusy, honly⟩ := applyNoted_fields s.applyPhase s
  have hwaits : patchApply s = applyNoted s.applyPhase s :=
    (patchApply_of_none hnone).trans (patchNow_applyNoted_waits hwait)
  exact leads_of (congrArg Host.Outcome.next hwaits) ⟨rfl, happly, hbusy, rfl, rfl, rfl, honly⟩

end Sys2Proof.Machine
end

section
/-! The end of a migration (R135 to R138). -/
namespace Sys2Proof.Machine

/-! ### What a patch application leaves of a clause (R75, R191) -/

/-- What a migration decides in a clause, with the value store and the bus: a patch application touches none of it. -/
def Clause.mapping (x : Clause) : Bool × Nat × Kv Val × Kv Val × Option Migration := (x.spared, x.retired, x.vs, x.bus, x.mig)

theorem Clause.mapping_eq_iff (x y : Clause) : x.mapping = y.mapping ↔
    x.spared = y.spared ∧ x.retired = y.retired ∧ x.vs = y.vs ∧ x.bus = y.bus ∧ x.mig = y.mig := by
  simp only [Clause.mapping, Prod.mk.injEq]

theorem mapping_dictWrite (c e : Nat) (v : Word) (s : State) (d : Nat) :
    ((dictWrite c e v s).clause d).mapping = (s.clause d).mapping := by
  unfold dictWrite
  by_cases hd : d = c
  · subst hd
    rw [State.clause_modClause_same]
    rfl
  · rw [State.clause_modClause_ne _ _ hd]

theorem mapping_swapUnit (s : State) (u d : Nat) : ((swapUnit s u).clause d).mapping = (s.clause d).mapping := by
  unfold swapUnit
  dsimp only
  split
  · exact mapping_dictWrite _ _ _ s d
  · rfl

theorem mapping_patchSwap (s : State) (d : Nat) : ((patchSwap s).clause d).mapping = (s.clause d).mapping := by
  have hepoch : (patchSwap s).clauses = ((List.range 64).foldl swapUnit s).clauses := by
    rw [patchSwap_eq]
    exact (sigEpoch_frame 0 (Fr.refl 0x40000 _) rfl).h_clauses rfl
  rw [State.clause_congr hepoch]
  exact foldl_same (fun t => (t.clause d).mapping) (fun t u => mapping_swapUnit t u d) _ s

theorem mapping_patchFinish (loadTime : Bool) (s : State) (d : Nat) :
    ((patchFinish loadTime s).clause d).mapping = (s.clause d).mapping := by
  have hreport : ∀ res reason unit step u, ((patchReport res reason unit step u).clause d).mapping = (u.clause d).mapping :=
    fun res reason unit step u => congrArg Clause.mapping
      (State.clause_congr ((patchReport_frame res reason unit step (Fr.refl 0x80001080 u) rfl).h_clauses rfl) d)
  unfold patchFinish
  dsimp only
  split
  · exact (hreport _ _ _ _ _).trans (mapping_patchSwap _ d)
  · exact hreport _ _ _ _ _

theorem mapping_patchNow (s : State) (d : Nat) : ((patchNow s).clause d).mapping = (s.clause d).mapping := by
  unfold patchNow
  split
  · exact mapping_patchFinish false s d
  · rfl

theorem patchNow_of_not_due {s : State} (h : s.sch.patch ≠ some .due) : patchNow s = s :=
  if_neg (by simp [h])

theorem ckptStart_of_none {s : State} (h : s.seq.ckptPend = false) : ckptStart s = s :=
  if_neg (by simp [h])

/-! ### What follows a migration at its boundary (R138, R193, R293, R596) -/

/-- The PATCH_SET of an application that has ended is answered, and firmware writes its record. -/
def recorded (answer : Bool) (s : State) : State := actsLog (if answer then patchAnswer s else s)

theorem recorded_frame (answer : Bool) (s : State) : Fr 0x884100d0 s (recorded answer s) := by
  have hanswer : Fr 0x884100d0 s (if answer then patchAnswer s else s) :=
    Fr.ite (patchAnswer_frame (Fr.refl _ s) rfl) (Fr.refl _ s)
  exact actsLog_frame hanswer rfl

theorem exec_migrationComplete (c m cycles : Nat) (s : State) :
    exec (.migrationComplete c m cycles) s = .next (recorded s.sch.patch.isSome (migrationEnd c m cycles s)) := rfl

/-- A checkpoint, a patch application and the records that follow leave the mapping of every clause and the step. -/
theorem boundaryWork_keeps (answer : Bool) {w t : State} (ht : t = recorded answer (patchNow (ckptStart w))) :
    (∀ f, f.block = 7 → t.fget f = w.fget f) ∧ (∀ d, (t.clause d).mapping = (w.clause d).mapping) ∧ t.seq.step = w.seq.step ∧
    (w.seq.ckptPend = false → t.seq = w.seq ∧ t.mem = w.mem) ∧ (w.sch.patch ≠ some .due → t.clauses = w.clauses) := by
  have hckpt : Fr 0x8404022a1 w (ckptStart w) := ckptStart_frame (Fr.refl _ w) rfl
  have hpatch : Fr 0x80041490 (ckptStart w) (patchNow (ckptStart w)) := patchNow_frame (Fr.refl _ _) rfl
  have hrec : Fr 0x884100d0 (patchNow (ckptStart w)) t := ht ▸ recorded_frame answer _
  have hseq : t.seq = (ckptStart w).seq := (hrec.h_seq rfl).trans (hpatch.h_seq rfl)
  have hmem : t.mem = (ckptStart w).mem := (hrec.h_mem rfl).trans (hpatch.h_mem rfl)
  refine ⟨fun f hf => ?_, fun d => ?_, ?_, fun hnone => ?_, fun hother => ?_⟩
  · exact (hrec.h_regs f (by rw [hf]; rfl)).trans ((hpatch.h_regs f (by rw [hf]; rfl)).trans (hckpt.h_regs f (by rw [hf]; rfl)))
  · rw [State.clause_congr (hrec.h_clauses rfl), mapping_patchNow, State.clause_congr (hckpt.h_clauses rfl)]
  · rw [hseq]
    exact (ckptStart_ctr (Ctr.refl w)).1
  · rw [hseq, hmem, ckptStart_of_none hnone]
    exact ⟨rfl, rfl⟩
  · rw [hrec.h_clauses rfl, patchNow_of_not_due (by rwa [hckpt.h_sch rfl]), hckpt.h_clauses rfl]

/-! ### The migration itself (R135 to R137) -/

/-- The clause with the switch to the spare phrase (R135). -/
def Clause.switched (x : Clause) (target : Nat) : Clause :=
  { x with
    spared := true, retired := target
    vsBad := x.vsBad.filter fun e => !(e.1 / 256 / 8 == target)
    cq := x.cq.map fun q => if q.bp / 8 == target then { q with bad := false } else q }

/-- The state in which the end of a migration is reported. -/
def migrated (c m : Nat) (g : Migration) (s : State) : State :=
  let s1 := (migrateParity c g.target s).modClause c fun x => { x with mig := none }
  if 2 ≤ m then s1 else s1.modClause c fun x => x.switched g.target

/-- RESULT of a migration after m failed comparisons (R137). -/
def migResult (m : Nat) : Nat := if m < 2 then 0 else 4

theorem migrationEnd_of_none {c m cycles : Nat} {s : State} (h : (s.clause c).mig = none) : migrationEnd c m cycles s = s := by
  simp only [migrationEnd, h]

theorem migrationEnd_of_some {c m cycles : Nat} {g : Migration} {s : State} (h : (s.clause c).mig = some g) :
    migrationEnd c m cycles s =
      patchNow (ckptStart (spareReport c g.target (migResult m) cycles (migrated c m g s))) := by
  simp only [migrationEnd, h, migResult, migrated]
  by_cases hm : 2 ≤ m
  · rw [if_pos hm, if_pos hm, if_neg hm.not_gt]
    rfl
  · rw [if_neg hm, if_neg hm, if_pos (not_le.mp hm)]
    rfl

theorem clause_migrated_ne {c d m : Nat} {g : Migration} (s : State) (h : d ≠ c) : (migrated c m g s).clause d = s.clause d := by
  have hparity : (migrateParity c g.target s).clauses = s.clauses :=
    (migrateParity_frame c g.target (Fr.refl 0x100000080 s) rfl).h_clauses rfl
  unfold migrated
  dsimp only
  split
  · rw [State.clause_modClause_ne _ _ h, State.clause_congr hparity]
  · rw [State.clause_modClause_ne _ _ h, State.clause_modClause_ne _ _ h, State.clause_congr hparity]

theorem clause_migrated_same (c m : Nat) (g : Migration) (s : State) : (migrated c m g s).clause c =
    if 2 ≤ m then { s.clause c with mig := none } else ({ s.clause c with mig := none } : Clause).switched g.target := by
  have hparity : (migrateParity c g.target s).clauses = s.clauses :=
    (migrateParity_frame c g.target (Fr.refl 0x100000080 s) rfl).h_clauses rfl
  unfold migrated
  dsimp only
  split
  · rw [State.clause_modClause_same, State.clause_congr hparity]
  · rw [State.clause_modClause_same, State.clause_modClause_same, State.clause_congr hparity]

theorem migrated_frame (c m : Nat) (g : Migration) (s : State) : Fr 0x100000480 s (migrated c m g s) := by
  have hparity : Fr 0x100000480 s (migrateParity c g.target s) := migrateParity_frame c g.target (Fr.refl _ s) rfl
  unfold migrated
  dsimp only
  split
  · exact State.modClause_frame _ _ hparity rfl
  · exact State.modClause_frame _ _ (State.modClause_frame _ _ hparity rfl) rfl

/-! ### The obligation -/

theorem leads_noMigration (c m cycles : Nat) (s : State) (h : (s.clause c).mig = none) :
    leads (.migrationComplete c m cycles) s fun t =>
      steady s t ∧ t.sch = s.sch ∧ t.load = s.load ∧ t.evq = s.evq ∧ onlyFields [] s t := by
  have hanswer : (if s.sch.patch.isSome then patchAnswer s else s) = s := by
    split
    · rename_i hsome
      exact if_neg (by simpa [Option.isSome_iff_ne_none] using hsome)
    · rfl
  have hexec : exec (.migrationComplete c m cycles) s = .next (actsLog s) := by
    rw [exec_migrationComplete, migrationEnd_of_none h, recorded, hanswer]
  have hlog : Fr 0x400040 s (actsLog s) := actsLog_frame (Fr.refl _ s) rfl
  exact leads_of hexec ⟨⟨hlog.h_seq rfl, hlog.h_clauses rfl, hlog.h_mem rfl⟩, hlog.h_sch rfl, hlog.h_load rfl, hlog.h_evq rfl,
    onlyFields.of_frame _ (by decide) hlog⟩

/-- Settles O16: a migration ends in `migrated` and its report; what follows at the same boundary keeps every mapping
(`boundaryWork_keeps`). -/
theorem migrationSwitchesOrKeeps : Obligations.MigrationSwitchesOrKeeps := by
  unfold Obligations.MigrationSwitchesOrKeeps
  refine ⟨leads_noMigration, fun c m cycles s g hmig => ?_⟩
  have hexec := exec_migrationComplete c m cycles s
  rw [migrationEnd_of_some hmig] at hexec
  refine leads_of hexec ?_
  have hresult : migResult m < 256 := by
    unfold migResult
    split <;> decide
  have hmigd := migrated_frame c m g s
  obtain ⟨⟨hevt, -⟩, hgo, hres, hclauses, hmem, hseq, -⟩ :=
    spareReport_reports (c := c) (target := g.target) (hold := cycles) (s := migrated c m g s) hresult rfl
  have hsch : (spareReport c g.target (migResult m) cycles (migrated c m g s)).sch = s.sch :=
    ((spareReport_frame _ _ _ _ (Fr.refl 0x100000080 _) rfl).h_sch rfl).trans (hmigd.h_sch rfl)
  generalize spareReport c g.target (migResult m) cycles (migrated c m g s) = w at hevt hgo hres hclauses hmem hseq hsch
  obtain ⟨hregs, hmap, hstep, hckpt, hpatch⟩ := boundaryWork_keeps s.sch.patch.isSome (w := w) rfl
  rw [hseq, hmigd.h_seq rfl] at hstep hckpt
  rw [hmem, hmigd.h_mem rfl] at hckpt
  rw [hsch] at hpatch
  have hother : ∀ d, d ≠ c → w.clause d = s.clause d := fun d hd =>
    (State.clause_congr hclauses d).trans (clause_migrated_ne s hd)
  have hsame := hmap c
  rw [State.clause_congr hclauses, clause_migrated_same] at hsame
  obtain ⟨hspared, hretired, hvs, hbus, hover⟩ := (Clause.mapping_eq_iff _ _).mp hsame
  refine ⟨hover.trans (by split <;> rfl), (hregs _ (F.CLS_SPARE_GO_block c)).trans hgo, (hregs _ (F.CLS_EVT_SPARE_block c)).trans hevt,
    (hregs _ (F.CLS_SPARE_RESULT_block c)).trans hres, fun hm => ?_, fun hm => ?_, hvs.trans (by split <;> rfl),
    hbus.trans (by split <;> rfl), hstep, fun d hd => ?_, hckpt,
    fun hnot d hd => (State.clause_congr (hpatch hnot) d).trans (hother d hd)⟩
  · rw [hspared, hretired, if_neg hm.not_ge]
    exact ⟨rfl, rfl⟩
  · rw [hspared, hretired, if_pos hm]
    exact ⟨rfl, rfl⟩
  · obtain ⟨hsp, hret, hvals, -, hmg⟩ := (Clause.mapping_eq_iff _ _).mp (hmap d)
    rw [hother d hd] at hsp hret hvals hmg
    exact ⟨hsp, hret, hvals, hmg⟩

end Sys2Proof.Machine
end

section
/-! Isolation and release of a clause (R165, R171). -/
namespace Sys2Proof.Machine

/-! ### An isolation or release at its boundary (R165) -/

/-- The clause once its isolation or release has taken effect. -/
def Clause.isolated (x : Clause) (q : IsoReq) : Clause := { x with iso := !q.rel, xinj := !q.rel && q.xinj }

/-- The state in which an isolation or release that takes effect is reported. -/
def isoSwitched (q : IsoReq) (s : State) : State :=
  (((({ s with fab := { s.fab with iso := none } } : State).fset F.FAB_ISO_ISO 0).fset F.FAB_ISO_REL 0).fset
    F.FAB_ISO_RESULT 0).modClause q.clause fun x => x.isolated q

/-- The payload of FAB_ISO (R165). -/
def isoPayload (q : IsoReq) (s : State) : List Nat :=
  [q.clause, q.rel.toNat, (if q.rel then (s.clause q.clause).xinj else q.xinj).toNat] ++ w64 s.seq.step

theorem isoApply_of_due {q : IsoReq} {s : State} (hiso : s.fab.iso = some q) (hdue : q.due = true) :
    isoApply s = (isoSwitched q s).raise F.FAB_EVT_ISO 8 3 (isoPayload q s) := by
  simp only [isoApply, hiso, hdue]
  rfl

theorem isoApply_of_not_due {s : State} (h : ∀ q, s.fab.iso = some q → q.due = false) : isoApply s = s := by
  unfold isoApply
  split
  · rfl
  · rename_i q hiso
    rw [h q hiso]
    rfl

/-- What an isolation or release that takes effect does from s to t. -/
structure IsoApplied (q : IsoReq) (s t : State) : Prop where
  iso : t.fab.iso = none
  clause : t.clause q.clause = (s.clause q.clause).isolated q
  other : ∀ d, d ≠ q.clause → t.clause d = s.clause d
  result : t.fget F.FAB_ISO_RESULT = 0
  isoBit : t.fget F.FAB_ISO_ISO = 0
  relBit : t.fget F.FAB_ISO_REL = 0
  report : posted F.FAB_EVT_ISO 8 3 (isoPayload q s) s t
  seq : t.seq = s.seq
  mem : t.mem = s.mem
  only : onlyFields [F.FAB_ISO_ISO, F.FAB_ISO_REL, F.FAB_ISO_RESULT, F.FAB_EVT_ISO] s t

theorem onlyFields_isoSwitched (q : IsoReq) (s : State) :
    onlyFields [F.FAB_ISO_ISO, F.FAB_ISO_REL, F.FAB_ISO_RESULT, F.FAB_EVT_ISO] s (isoSwitched q s) := by
  have hfab : onlyFields [F.FAB_ISO_ISO, F.FAB_ISO_REL, F.FAB_ISO_RESULT, F.FAB_EVT_ISO] s
      { s with fab := { s.fab with iso := none } } := fun _ _ => rfl
  exact onlyFields_to (((hfab.fset (by simp) 0).fset (by simp) 0).fset (by simp) 0) (State.fields_modClause _ _ _)

theorem isoApply_applies {q : IsoReq} {s : State} (hiso : s.fab.iso = some q) (hdue : q.due = true) :
    IsoApplied q s (isoApply s) := by
  have honly := onlyFields_isoSwitched q s
  rw [isoApply_of_due hiso hdue]
  exact {
    iso := by simp [isoSwitched]
    clause := (State.clause_raise _ _ _ _ _ _).trans (State.clause_modClause_same _ _ _)
    other := fun d hd => (State.clause_raise _ _ _ _ _ _).trans (State.clause_modClause_ne _ _ hd)
    result := by simp (disch := decide) [isoSwitched, State.fget_raise_ne]
    isoBit := by simp (disch := decide) [isoSwitched, State.fget_raise_ne, State.fget_fset_ne]
    relBit := by simp (disch := decide) [isoSwitched, State.fget_raise_ne, State.fget_fset_ne]
    report := posted_raise _ _ _ rfl rfl rfl rfl (honly _ (by decide))
    seq := State.seq_raise _ _ _ _ _
    mem := State.mem_raise _ _ _ _ _
    only := honly.raise (by simp) _ _ _ }

/-- Either no boundary has come, and nothing changes, or the pending request takes effect. -/
theorem isoApply_cases (s : State) :
    (∀ q, s.fab.iso = some q → q.due = false) ∧ isoApply s = s ∨ ∃ q, IsoApplied q s (isoApply s) := by
  by_cases h : ∀ q, s.fab.iso = some q → q.due = false
  · exact .inl ⟨h, isoApply_of_not_due h⟩
  · push Not at h
    obtain ⟨q, hiso, hdue⟩ := h
    exact .inr ⟨q, isoApply_applies hiso (Bool.eq_true_of_not_eq_false hdue)⟩

theorem isoApply_isoApply (s : State) : isoApply (isoApply s) = isoApply s := by
  refine isoApply_of_not_due fun q hq => ?_
  rcases isoApply_cases s with ⟨hwait, hsame⟩ | ⟨p, hdone⟩
  · exact hwait q (hsame ▸ hq)
  · cases hdone.iso.symm.trans hq

/-- Applying what is due leaves XINJ of FAB_ISO. -/
theorem fbit_xinj_isoApply (s : State) : (isoApply s).fbit F.FAB_ISO_XINJ = s.fbit F.FAB_ISO_XINJ := by
  have hkeep : (isoApply s).fget F.FAB_ISO_XINJ = s.fget F.FAB_ISO_XINJ := by
    rcases isoApply_cases s with ⟨-, hsame⟩ | ⟨q, hdone⟩
    · rw [hsame]
    · exact hdone.only _ (by decide)
  exact congrArg (· == 1) hkeep

/-- A request finds an earlier one whose boundary has come applied (R165). -/
theorem isoWrite_isoApply (iso rel xinj : Bool) (c : Nat) (s : State) :
    isoWrite iso rel xinj c (isoApply s) = isoWrite iso rel xinj c s := by
  simp only [isoWrite, isoApply_isoApply]

/-! ### A request (R165, R171) -/

/-- FAB_ISO with the clause and XINJ of a request written. -/
def isoNamed (xinj : Bool) (c : Nat) (s : State) : State := (s.fset F.FAB_ISO_CLAUSE c).fset F.FAB_ISO_XINJ xinj.toNat

/-- The state in which an accepted request is pending. -/
def isoPending (q : IsoReq) (s : State) : State :=
  ((isoNamed q.xinj q.clause { s with fab := { s.fab with iso := some q } }).fset F.FAB_ISO_ISO (!q.rel).toNat).fset
    F.FAB_ISO_REL q.rel.toNat

theorem isoWrite_of_refused {iso rel xinj : Bool} {c r : Nat} {s : State} (hnow : isoApply s = s)
    (h : s.isoResult iso rel c = some r) : isoWrite iso rel xinj c s =
      ((isoNamed xinj c s).fset F.FAB_ISO_RESULT r).raise F.FAB_EVT_ISO_REF 8 4 [c, r] := by
  simp only [isoWrite, hnow, h]
  rfl

theorem isoWrite_of_accepted {rel xinj : Bool} {c : Nat} {s : State} (hnow : isoApply s = s)
    (h : s.isoResult (!rel) rel c = none) : isoWrite (!rel) rel xinj c s =
      if (!s.stepping && s.atPhase0) = true then isoApply (isoPending ⟨c, rel, xinj, true⟩ s)
      else isoPending ⟨c, rel, xinj, false⟩ s := by
  simp only [isoWrite, hnow, h]
  cases !s.stepping && s.atPhase0 <;> rfl

/-- The reasons of R165 in the order in which they are told. -/
theorem isoResult_of_refused {rel : Bool} {c r : Nat} {s : State}
    (h : s.fab.iso ≠ none ∧ r = 4 ∨ s.fab.iso = none ∧ rel = false ∧ (s.clause c).loaded = false ∧ r = 1 ∨
      s.fab.iso = none ∧ rel = true ∧ (s.clause c).passed = false ∧ r = 2 ∨
      s.fab.iso = none ∧ rel = false ∧ (s.clause c).loaded = true ∧ (s.clause c).iso = true ∧ r = 3 ∨
      s.fab.iso = none ∧ rel = true ∧ (s.clause c).passed = true ∧ (s.clause c).iso = false ∧ r = 3) :
    s.isoResult (!rel) rel c = some r := by
  rcases h with ⟨hbusy, rfl⟩ | ⟨hfree, rfl, hload, rfl⟩ | ⟨hfree, rfl, hpass, rfl⟩ | ⟨hfree, rfl, hload, hiso, rfl⟩ |
    ⟨hfree, rfl, hpass, hiso, rfl⟩
  · simp [State.isoResult, Option.isSome_iff_ne_none.mpr hbusy]
  · simp [State.isoResult, hfree, hload]
  · simp [State.isoResult, hfree, hpass]
  · simp [State.isoResult, hfree, hload, hiso]
  · simp [State.isoResult, hfree, hpass, hiso]

/-- The command requests the isolation of clause c, or its release (R165). -/
def isoRequest (i : Instr) (c : Nat) (rel xinj : Bool) : Prop :=
  i = .fabIsoRequest c xinj ∧ rel = false ∨ i = .fabRelRequest c ∧ rel = true

/-- XINJ of a request: a release keeps the register's. -/
def requestXinj (rel xinj : Bool) (s : State) : Bool := if rel then s.fbit F.FAB_ISO_XINJ else xinj

/-- Both commands write FAB_ISO (R171). -/
theorem exec_isoRequest {i : Instr} {c : Nat} {rel xinj : Bool} (s : State)
    (hi : isoRequest i c rel xinj) :
    exec i s = .next (isoWrite (!rel) rel (requestXinj rel xinj s) c s) := by
  rcases hi with ⟨rfl, rfl⟩ | ⟨rfl, rfl⟩ <;> rfl

theorem onlyFields_isoNamed (xinj : Bool) (c : Nat) (s : State) :
    onlyFields [F.FAB_ISO_CLAUSE, F.FAB_ISO_XINJ] s (isoNamed xinj c s) :=
  ((onlyFields.refl _ s).fset (by simp) c).fset (by simp) _

theorem onlyFields_isoPending (q : IsoReq) (s : State) :
    onlyFields [F.FAB_ISO_CLAUSE, F.FAB_ISO_XINJ, F.FAB_ISO_ISO, F.FAB_ISO_REL] s (isoPending q s) := by
  have hfab : onlyFields [F.FAB_ISO_CLAUSE, F.FAB_ISO_XINJ] s { s with fab := { s.fab with iso := some q } } := fun _ _ => rfl
  exact (((hfab.trans (onlyFields_isoNamed q.xinj q.clause _)).mono (by simp)).fset (by simp) _).fset (by simp) _

theorem isoPending_keeps (q : IsoReq) (s : State) :
    (isoPending q s).clauses = s.clauses ∧ (isoPending q s).evq = s.evq ∧ (isoPending q s).seq = s.seq ∧
      (isoPending q s).mem = s.mem := ⟨rfl, rfl, rfl, rfl⟩

theorem fget_isoPending_iso (q : IsoReq) (s : State) : (isoPending q s).fget F.FAB_ISO_ISO = if q.rel then 0 else 1 := by
  rw [isoPending, State.fget_fset_ne _ _ (by decide), State.fget_fset_same]
  cases q.rel <;> rfl

theorem fget_isoPending_rel (q : IsoReq) (s : State) : (isoPending q s).fget F.FAB_ISO_REL = if q.rel then 1 else 0 := by
  rw [isoPending, State.fget_fset_same]
  cases q.rel <;> rfl

/-! ### The obligation -/

/-- A refused request sets RESULT and raises FAB_ISO_REF. -/
theorem leads_isoRefused {i : Instr} {c r : Nat} {rel xinj : Bool} {s : State}
    (hi : isoRequest i c rel xinj) (hc : c < 64)
    (hdue : ∀ q, s.fab.iso = some q → q.due = false) (hr : r < 256) (hres : s.isoResult (!rel) rel c = some r) :
    leads i s fun t => posted F.FAB_EVT_ISO_REF 8 4 [c, r] s t ∧ t.fget F.FAB_ISO_RESULT = r ∧ t.fget F.FAB_ISO_CLAUSE = c ∧
      t.clauses = s.clauses ∧ t.fab = s.fab ∧ t.seq = s.seq ∧ t.mem = s.mem ∧
      onlyFields [F.FAB_ISO_CLAUSE, F.FAB_ISO_XINJ, F.FAB_ISO_RESULT, F.FAB_EVT_ISO_REF] s t := by
  have hexec := exec_isoRequest s hi
  rw [isoWrite_of_refused (isoApply_of_not_due hdue) hres] at hexec
  have honly : onlyFields [F.FAB_ISO_CLAUSE, F.FAB_ISO_XINJ, F.FAB_ISO_RESULT, F.FAB_EVT_ISO_REF] s
      ((isoNamed (requestXinj rel xinj s) c s).fset F.FAB_ISO_RESULT r) :=
    ((onlyFields_isoNamed _ c s).mono (by simp)).fset (by simp) r
  refine leads_of hexec ⟨posted_raise _ _ _ rfl rfl rfl rfl (honly _ (by decide)), ?_, ?_, State.clauses_raise _ _ _ _ _,
    State.fab_raise _ _ _ _ _, State.seq_raise _ _ _ _ _, State.mem_raise _ _ _ _ _, honly.raise (by simp) _ _ _⟩
  · rw [State.fget_raise_ne _ _ _ _ (by decide), State.fget_fset_same]
    exact Nat.mod_eq_of_lt hr
  · rw [State.fget_raise_ne _ _ _ _ (by decide), State.fget_fset_ne _ _ (by decide), isoNamed,
      State.fget_fset_ne _ _ (by decide), State.fget_fset_same]
    exact Nat.mod_eq_of_lt hc

/-- A request that is accepted away from a stopped phase 0 is left pending. -/
theorem leads_isoPending {i : Instr} {c : Nat} {rel xinj : Bool} {s : State}
    (hi : isoRequest i c rel xinj) (hfree : s.fab.iso = none)
    (hres : s.isoResult (!rel) rel c = none) (hwait : s.stepping = true ∨ s.atPhase0 = false) :
    leads i s fun t => (∃ x, t.fab.iso = some { clause := c, rel := rel, xinj := x, due := false }) ∧ t.clauses = s.clauses ∧
      t.evq = s.evq ∧ t.fget F.FAB_ISO_ISO = (if rel then 0 else 1) ∧ t.fget F.FAB_ISO_REL = (if rel then 1 else 0) ∧
      t.seq = s.seq ∧ onlyFields [F.FAB_ISO_CLAUSE, F.FAB_ISO_XINJ, F.FAB_ISO_ISO, F.FAB_ISO_REL] s t := by
  have hnow : (!s.stepping && s.atPhase0) ≠ true := by
    rcases hwait with h | h <;> simp [h]
  have hexec := exec_isoRequest s hi
  rw [isoWrite_of_accepted (isoApply_of_not_due (by simp [hfree])) hres, if_neg hnow] at hexec
  generalize requestXinj rel xinj s = x at hexec
  obtain ⟨hclauses, hevq, hseq, -⟩ := isoPending_keeps ⟨c, rel, x, false⟩ s
  exact leads_of hexec ⟨⟨_, rfl⟩, hclauses, hevq, fget_isoPending_iso _ s, fget_isoPending_rel _ s, hseq,
    onlyFields_isoPending _ s⟩

/-- A request that is accepted at a stopped phase 0 takes effect at once. -/
theorem leads_isoAtOnce {i : Instr} {c : Nat} {rel xinj : Bool} {s : State}
    (hi : isoRequest i c rel xinj) (hfree : s.fab.iso = none)
    (hres : s.isoResult (!rel) rel c = none) (hst : s.stepping = false) (hph : s.atPhase0 = true) :
    leads i s fun t => t.fab.iso = none ∧ t.clause c = { s.clause c with iso := !rel, xinj := !rel && xinj } ∧
      (∀ d, d ≠ c → t.clause d = s.clause d) ∧ t.fget F.FAB_ISO_RESULT = 0 ∧ t.fget F.FAB_ISO_ISO = 0 ∧
      t.fget F.FAB_ISO_REL = 0 ∧ t.fget F.FAB_EVT_ISO = 1 ∧ t.seq = s.seq ∧ t.mem = s.mem ∧
      onlyFields [F.FAB_ISO_CLAUSE, F.FAB_ISO_XINJ, F.FAB_ISO_ISO, F.FAB_ISO_REL, F.FAB_ISO_RESULT, F.FAB_EVT_ISO] s t := by
  have hexec := exec_isoRequest s hi
  rw [isoWrite_of_accepted (isoApply_of_not_due (by simp [hfree])) hres, if_pos (by simp [hst, hph])] at hexec
  have hx : (!rel && requestXinj rel xinj s) = (!rel && xinj) := by cases rel <;> rfl
  generalize requestXinj rel xinj s = x at hexec hx
  have honly := onlyFields_isoPending ⟨c, rel, x, true⟩ s
  obtain ⟨hclauses, -, hseq, hmem⟩ := isoPending_keeps ⟨c, rel, x, true⟩ s
  have hdone := isoApply_applies (s := isoPending ⟨c, rel, x, true⟩ s) rfl rfl
  generalize isoPending ⟨c, rel, x, true⟩ s = w at hexec honly hclauses hseq hmem hdone
  have hclause : ∀ d, w.clause d = s.clause d := State.clause_congr hclauses
  refine leads_of hexec ⟨hdone.iso, hdone.clause.trans ?_, fun d hd => (hdone.other d hd).trans (hclause d), hdone.result,
    hdone.isoBit, hdone.relBit, hdone.report.1, hdone.seq.trans hseq, hdone.mem.trans hmem,
    (honly.mono (by simp)).trans (hdone.only.mono (by simp))⟩
  rw [hclause, ← hx]
  rfl

/-- An accepted request breaks none of the rules. -/
theorem isoResult_of_accepted {i : Instr} {c : Nat} {rel xinj : Bool} {s : State} (hfree : s.fab.iso = none)
    (h : i = .fabIsoRequest c xinj ∧ rel = false ∧ (s.clause c).loaded = true ∧ (s.clause c).iso = false ∨
      i = .fabRelRequest c ∧ rel = true ∧ (s.clause c).passed = true ∧ (s.clause c).iso = true) :
    isoRequest i c rel xinj ∧ s.isoResult (!rel) rel c = none := by
  rcases h with ⟨hi, rfl, hload, hiso⟩ | ⟨hi, rfl, hpass, hiso⟩
  · exact ⟨.inl ⟨hi, rfl⟩, by simp [State.isoResult, hfree, hload, hiso]⟩
  · exact ⟨.inr ⟨hi, rfl⟩, by simp [State.isoResult, hfree, hpass, hiso]⟩

/-- Settles O17: a request writes FAB_ISO (`exec_isoRequest`) and is refused with the first rule it breaks
(`isoResult_of_refused`), left pending, or applied at once; `isoApply_applies` says what applying a request does, at its boundary
and at once alike. -/
theorem isolationRequests : Obligations.IsolationRequests := by
  unfold Obligations.IsolationRequests
  refine ⟨fun i c rel xinj s r hi hc hdue hrule => leads_isoRefused hi hc hdue (by omega) (isoResult_of_refused hrule),
    fun i c rel xinj s hrule hfree _ => ?_, fun s q hiso hdue => ?_,
    fun s h => congrArg Host.Outcome.next (isoApply_of_not_due h), fun i c xinj s u q hi _ _ hu => ?_⟩
  · obtain ⟨hi, hres⟩ := isoResult_of_accepted hfree hrule
    exact ⟨leads_isoPending hi hfree hres, leads_isoAtOnce hi hfree hres⟩
  · have h := isoApply_applies hiso hdue
    exact ⟨_, rfl, h.iso, h.clause, h.other, h.result, h.report, h.seq, h.mem, h.only⟩
  · cases hu
    rcases hi with rfl | rfl
    · exact congrArg Host.Outcome.next (isoWrite_isoApply true false xinj c s).symm
    · show Host.Outcome.next (isoWrite false true (s.fbit F.FAB_ISO_XINJ) c s) =
        Host.Outcome.next (isoWrite false true ((isoApply s).fbit F.FAB_ISO_XINJ) c (isoApply s))
      rw [fbit_xinj_isoApply, isoWrite_isoApply]

end Sys2Proof.Machine
end

section
/-! The sparing of a connection's lane (R162, R170, R613). -/
namespace Sys2Proof.Machine

/-! ### What a commit does -/

/-- The spare lane that a commit gives its connection: the one of FAB_SPTX (R162). -/
def State.sparingMap (s : State) : Option Nat := if s.fbit F.FAB_SPTX_EN then some (s.fget F.FAB_SPTX_LANE) else none

/-- The state in which a commit that passed waits for the next step. -/
def agreePending (tag : Nat) (s : State) : State :=
  ({ s.fset F.FAB_AGREE_TAG tag with
    fab := { s.fab with agree := some (tag, s.fget F.FAB_SPSEL_CONN, s.sparingMap) } } : State).fset F.FAB_AGREE_BUSY 1

/-- The state in which a map that takes effect is reported. -/
def agreeSwitched (k : Nat) (map : Option Nat) (s : State) : State :=
  ((({ s with fab := { s.fab with agree := none } } : State).modConn k fun x => { x with spare := map }).fset
    F.FAB_AGREE_BUSY 0).fset F.FAB_AGREE_RESULT 0

theorem conn_agreeSwitched_same (k : Nat) (map : Option Nat) (s : State) :
    (agreeSwitched k map s).conn k = { s.conn k with spare := map } := by
  rw [agreeSwitched, State.conn_fset, State.conn_fset, State.conn_modConn_same]
  rfl

theorem conn_agreeSwitched_ne {j k : Nat} (map : Option Nat) (s : State) (h : j ≠ k) :
    (agreeSwitched k map s).conn j = s.conn j := by
  rw [agreeSwitched, State.conn_fset, State.conn_fset, State.conn_modConn_ne _ _ h]
  rfl

theorem agreePending_keeps (tag : Nat) (s : State) :
    (∀ k, (agreePending tag s).conn k = s.conn k) ∧ (agreePending tag s).clauses = s.clauses ∧
      (agreePending tag s).seq = s.seq ∧ (agreePending tag s).mem = s.mem ∧ (agreePending tag s).evq = s.evq ∧
      (agreePending tag s).ptime = s.ptime := ⟨fun _ => rfl, rfl, rfl, rfl, rfl, rfl⟩

theorem fabAgree_of_busy {s : State} (tag : Nat) (h : s.fab.agree ≠ none) : fabAgree tag s = s.fset F.FAB_AGREE_RESULT 4 :=
  if_pos (Option.isSome_iff_ne_none.mpr h)

theorem fabAgree_of_fault {r : Nat} {s : State} (tag : Nat) (hfree : s.fab.agree = none) (h : s.sparingFault = some r) :
    fabAgree tag s = ((s.fset F.FAB_AGREE_TAG tag).fresh64.2.fset F.FAB_AGREE_RESULT r).raise F.FAB_EVT_AGREE 8 6
      ([tag, s.fget F.FAB_SPSEL_CONN, r] ++ (s.fset F.FAB_AGREE_TAG tag).fresh64.1) := by
  simp [fabAgree, hfree, h]

theorem fabAgree_of_passed {s : State} (tag : Nat) (hfree : s.fab.agree = none) (h : s.sparingFault = none) :
    fabAgree tag s = if s.stepping then agreePending tag s else fabAgreeApply (agreePending tag s) := by
  simp only [fabAgree, hfree, h, Option.isSome_none, Bool.false_eq_true, if_false]
  rfl

theorem fabAgreeApply_of_some {tag k : Nat} {map : Option Nat} {s : State} (h : s.fab.agree = some (tag, k, map)) :
    fabAgreeApply s = (agreeSwitched k map s).raise F.FAB_EVT_AGREE 8 6 ([tag, k, 0] ++ w64 s.seq.step) := by
  simp only [fabAgreeApply, h]
  rfl

/-- What a map that takes effect does. -/
theorem fabAgreeApply_applies {tag k : Nat} {map : Option Nat} {s : State} (h : s.fab.agree = some (tag, k, map)) :
    posted F.FAB_EVT_AGREE 8 6 ([tag, k, 0] ++ w64 s.seq.step) s (fabAgreeApply s) ∧
    (fabAgreeApply s).fget F.FAB_AGREE_RESULT = 0 ∧ (fabAgreeApply s).fget F.FAB_AGREE_BUSY = 0 ∧
    (fabAgreeApply s).conn k = { s.conn k with spare := map } ∧ (∀ j, j ≠ k → (fabAgreeApply s).conn j = s.conn j) ∧
    (fabAgreeApply s).clauses = s.clauses ∧ (fabAgreeApply s).seq = s.seq ∧ (fabAgreeApply s).mem = s.mem := by
  have hen : (agreeSwitched k map s).fget (evten F.FAB_EVT_AGREE) = s.fget (evten F.FAB_EVT_AGREE) := by
    rw [agreeSwitched, State.fget_fset_ne _ _ (by decide), State.fget_fset_ne _ _ (by decide)]
    rfl
  rw [fabAgreeApply_of_some h]
  refine ⟨posted_raise _ _ _ rfl rfl rfl rfl hen, ?_, ?_, ?_, fun j hj => ?_, State.clauses_raise _ _ _ _ _,
    State.seq_raise _ _ _ _ _, State.mem_raise _ _ _ _ _⟩
  · rw [State.fget_raise_ne _ _ _ _ (by decide)]
    exact State.fget_fset_same _ _ 0
  · rw [State.fget_raise_ne _ _ _ _ (by decide), agreeSwitched, State.fget_fset_ne _ _ (by decide)]
    exact State.fget_fset_same _ _ 0
  · exact (State.conn_raise _ _ _ _ _ _).trans (conn_agreeSwitched_same k map s)
  · exact (State.conn_raise _ _ _ _ _ _).trans (conn_agreeSwitched_ne map s hj)

/-! ### The rules that a commit breaks (R162) -/

theorem sparingFault_of_edge {s : State} (h : linkOf (s.fget F.FAB_SPSEL_CONN / 4) (s.fget F.FAB_SPSEL_CONN % 4) ≠ none) :
    s.sparingFault = some 1 :=
  if_pos (Option.isSome_iff_ne_none.mpr h)

theorem sparingFault_of_difference {s : State}
    (hedge : linkOf (s.fget F.FAB_SPSEL_CONN / 4) (s.fget F.FAB_SPSEL_CONN % 4) = none)
    (h : s.fbit F.FAB_SPTX_EN ≠ s.fbit F.FAB_SPRX_EN ∨ s.fbit F.FAB_SPTX_EN = true ∧ s.fbit F.FAB_SPRX_EN = true ∧
      s.fget F.FAB_SPTX_LANE ≠ s.fget F.FAB_SPRX_LANE) : s.sparingFault = some 2 := by
  rcases h with hen | ⟨htx, hrx, hlane⟩
  · simp [State.sparingFault, hedge, hen]
  · simp [State.sparingFault, hedge, htx, hrx, hlane]

/-! ### The obligation -/

theorem exec_fabAgreeCommit (tag : Byte) (s : State) : exec (.fabAgreeCommit tag) s = .next (fabAgree tag.toNat s) := rfl

theorem leads_agreeBusy (tag : Byte) (s : State) (h : s.fab.agree ≠ none) :
    leads (.fabAgreeCommit tag) s fun t => t.fget F.FAB_AGREE_RESULT = 4 ∧ t.evq = s.evq ∧ t.fab = s.fab ∧ t.clauses = s.clauses ∧
      onlyFields [F.FAB_AGREE_RESULT] s t :=
  leads_of (congrArg Host.Outcome.next (fabAgree_of_busy tag.toNat h))
    ⟨State.fget_fset_same _ _ 4, rfl, rfl, rfl, (onlyFields.refl _ s).fset (by simp) 4⟩

/-- A commit that breaks a rule reports it and leaves every map. -/
theorem leads_agreeFault {r : Nat} {s : State} (tag : Byte) (hfree : s.fab.agree = none) (h : s.sparingFault = some r)
    (hr : r < 256) : leads (.fabAgreeCommit tag) s fun t => t.fget F.FAB_AGREE_RESULT = r ∧ t.fget F.FAB_AGREE_TAG = tag.toNat ∧
      t.fget F.FAB_EVT_AGREE = 1 ∧ t.fab = s.fab ∧ t.clauses = s.clauses ∧ t.seq = s.seq ∧ t.mem = s.mem ∧
      onlyFields [F.FAB_AGREE_TAG, F.FAB_AGREE_RESULT, F.FAB_EVT_AGREE] s t := by
  have hexec := exec_fabAgreeCommit tag s
  rw [fabAgree_of_fault tag.toNat hfree h] at hexec
  have htag : onlyFields [F.FAB_AGREE_TAG, F.FAB_AGREE_RESULT, F.FAB_EVT_AGREE] s (s.fset F.FAB_AGREE_TAG tag.toNat) :=
    (onlyFields.refl _ s).fset (by simp) _
  have hfresh : onlyFields [F.FAB_AGREE_TAG, F.FAB_AGREE_RESULT, F.FAB_EVT_AGREE] s
      (s.fset F.FAB_AGREE_TAG tag.toNat).fresh64.2 := onlyFields_to htag rfl
  refine leads_of hexec ⟨?_, ?_, State.fget_raise_same _ _ _ _ _, State.fab_raise _ _ _ _ _, State.clauses_raise _ _ _ _ _,
    State.seq_raise _ _ _ _ _, State.mem_raise _ _ _ _ _, (hfresh.fset (by simp) r).raise (by simp) _ _ _⟩
  · rw [State.fget_raise_ne _ _ _ _ (by decide), State.fget_fset_same]
    exact Nat.mod_eq_of_lt hr
  · rw [State.fget_raise_ne _ _ _ _ (by decide), State.fget_fset_ne _ _ (by decide)]
    exact (State.fget_fset_same s F.FAB_AGREE_TAG tag.toNat).trans (Nat.mod_eq_of_lt tag.isLt)

theorem onlyFields_agreePending (tag : Nat) (s : State) :
    onlyFields [F.FAB_AGREE_TAG, F.FAB_AGREE_BUSY] s (agreePending tag s) :=
  (onlyFields_to ((onlyFields.refl _ s).fset (by simp) tag) rfl).fset (by simp) 1

/-- A commit that passes takes effect at once in a device that is not stepping. -/
theorem leads_agreeAtOnce (tag : Byte) (s : State) (hfree : s.fab.agree = none) (h : s.sparingFault = none)
    (hst : s.stepping = false) : leads (.fabAgreeCommit tag) s fun t =>
      posted F.FAB_EVT_AGREE 8 6 ([tag.toNat, s.fget F.FAB_SPSEL_CONN, 0] ++ w64 s.seq.step) s t ∧ t.fget F.FAB_AGREE_RESULT = 0 ∧
      t.fget F.FAB_AGREE_BUSY = 0 ∧ t.conn (s.fget F.FAB_SPSEL_CONN) = { s.conn (s.fget F.FAB_SPSEL_CONN) with
        spare := s.sparingMap } ∧
      (∀ k, k ≠ s.fget F.FAB_SPSEL_CONN → t.conn k = s.conn k) ∧ t.clauses = s.clauses ∧ t.seq = s.seq ∧ t.mem = s.mem := by
  have hexec := exec_fabAgreeCommit tag s
  rw [fabAgree_of_passed tag.toNat hfree h, hst, if_neg Bool.false_ne_true] at hexec
  have hen := onlyFields_agreePending tag.toNat s (evten F.FAB_EVT_AGREE) (by decide)
  obtain ⟨hconn, hclauses, hseq, hmem, hevq, htime⟩ := agreePending_keeps tag.toNat s
  have hdone := fabAgreeApply_applies (s := agreePending tag.toNat s) rfl
  generalize agreePending tag.toNat s = w at hexec hen hconn hclauses hseq hmem hevq htime hdone
  rw [hclauses, hseq, hmem, hconn] at hdone
  obtain ⟨hposted, hresult, hbusy, hsame, hother, hkept⟩ := hdone
  exact leads_of hexec ⟨posted_from hposted hevq hen (congrArg Seq.step hseq) htime, hresult, hbusy, hsame,
    fun k hk => (hother k hk).trans (hconn k), hkept⟩

/-- A commit that passes waits in a device that steps. -/
theorem leads_agreePending (tag : Byte) (s : State) (hfree : s.fab.agree = none) (h : s.sparingFault = none)
    (hst : s.stepping = true) : leads (.fabAgreeCommit tag) s fun t =>
      t.fget F.FAB_AGREE_BUSY = 1 ∧ t.fab.agree.isSome = true ∧ (∀ k, t.conn k = s.conn k) ∧ t.evq = s.evq ∧
      t.clauses = s.clauses ∧ t.seq = s.seq ∧ onlyFields [F.FAB_AGREE_TAG, F.FAB_AGREE_BUSY] s t := by
  have hexec := exec_fabAgreeCommit tag s
  rw [fabAgree_of_passed tag.toNat hfree h, if_pos hst] at hexec
  obtain ⟨hconn, hclauses, hseq, -, hevq, -⟩ := agreePending_keeps tag.toNat s
  exact leads_of hexec ⟨State.fget_fset_same _ _ 1, rfl, hconn, hevq, hclauses, hseq, onlyFields_agreePending tag.toNat s⟩

/-- Settles O18: a commit is answered BUSY, reports the rule it breaks (`sparingFault_of_edge`, `sparingFault_of_difference`), or
passes and then takes effect at once or waits for the next step. -/
theorem agreeCommits : Obligations.AgreeCommits := by
  unfold Obligations.AgreeCommits
  refine ⟨leads_agreeBusy, fun tag s r hfree hrule => ?_, leads_agreeAtOnce, leads_agreePending⟩
  rcases hrule with ⟨hedge, rfl⟩ | ⟨hedge, rfl, hdiff⟩
  · exact leads_agreeFault tag hfree (sparingFault_of_edge hedge) (by decide)
  · exact leads_agreeFault tag hfree (sparingFault_of_difference hedge hdiff) (by decide)

end Sys2Proof.Machine
end

section
/-! Writes of registers, in the terms of Safety.lean. -/
namespace Sys2Proof.Machine

/-- From s to t nothing changes but the registers listed. -/
def registersSet (fs : List Fld) (s t : State) : Prop := (∃ m, t = { s with fields := m }) ∧ onlyFields fs s t

theorem registersSet.refl (fs : List Fld) (s : State) : registersSet fs s s := ⟨⟨s.fields, rfl⟩, onlyFields.refl fs s⟩

theorem registersSet.fset {fs : List Fld} {s t : State} {f : Fld} (h : registersSet fs s t) (hf : f ∈ fs) (v : Nat) :
    registersSet fs s (t.fset f v) := by
  obtain ⟨⟨m, rfl⟩, honly⟩ := h
  exact ⟨⟨_, rfl⟩, honly.fset hf v⟩

theorem registersSet.sch {fs : List Fld} {s t : State} (h : registersSet fs s t) : t.sch = s.sch := by
  obtain ⟨⟨m, rfl⟩, -⟩ := h
  rfl

theorem registersSet.rim {fs : List Fld} {s t : State} (h : registersSet fs s t) : t.rim = s.rim := by
  obtain ⟨⟨m, rfl⟩, -⟩ := h
  rfl

/-- An event raised after writes of other registers is posted from the state before them. -/
theorem registersSet.posted_raise {fs : List Fld} {s t : State} {f : Fld} (h : registersSet fs s t) (src code : Nat)
    (payload : List Nat) (hw : f.width = 1) (hen : ∀ g ∈ fs, (evten f).key ≠ g.key) :
    posted f src code payload s (t.raise f src code payload) := by
  obtain ⟨⟨m, rfl⟩, honly⟩ := h
  exact Machine.posted_raise src code payload hw rfl rfl rfl (honly _ hen)

end Sys2Proof.Machine
end

section
/-! Parameter checks of the schedule store and the rim (R187, R199, R355, R360). -/
namespace Sys2Proof.Machine

/-- The parameters of the schedule store with what an upset has left in them, if one has struck. -/
def schStruck (struck : Option (Nat × Nat)) (s : State) : State :=
  struck.elim s fun v => (s.fset F.SCH_SCRUB_INTERVAL v.1).fset F.SCH_ROWHOT_THR v.2

/-- The parameter of the rim with what an upset has left in it, if one has struck. -/
def rimStruck (struck : Option (Nat × Nat)) (s : State) : State := struck.elim s fun v => s.fset F.RIM_SCRUB_INTERVAL v.1

theorem fget_interval_schStruck (struck : Option (Nat × Nat)) (s : State) : (schStruck struck s).fget F.SCH_SCRUB_INTERVAL =
    (struck.map fun v => v.1 % 2 ^ F.SCH_SCRUB_INTERVAL.width).getD (s.fget F.SCH_SCRUB_INTERVAL) := by
  cases struck with
  | none => rfl
  | some v => exact (State.fget_fset_ne _ _ (by decide)).trans (State.fget_fset_same _ _ _)

theorem fget_threshold_schStruck (struck : Option (Nat × Nat)) (s : State) : (schStruck struck s).fget F.SCH_ROWHOT_THR =
    (struck.map fun v => v.2 % 2 ^ F.SCH_ROWHOT_THR.width).getD (s.fget F.SCH_ROWHOT_THR) := by
  cases struck with
  | none => rfl
  | some v => exact State.fget_fset_same _ _ _

theorem fget_interval_rimStruck (struck : Option (Nat × Nat)) (s : State) : (rimStruck struck s).fget F.RIM_SCRUB_INTERVAL =
    (struck.map fun v => v.1 % 2 ^ F.RIM_SCRUB_INTERVAL.width).getD (s.fget F.RIM_SCRUB_INTERVAL) := by
  cases struck with
  | none => rfl
  | some v => exact State.fget_fset_same _ _ _

theorem schStruck_registers (struck : Option (Nat × Nat)) (s : State) :
    registersSet [F.SCH_SCRUB_INTERVAL, F.SCH_ROWHOT_THR] s (schStruck struck s) := by
  cases struck with
  | none => exact .refl _ s
  | some v => exact ((registersSet.refl _ s).fset (by simp) v.1).fset (by simp) v.2

theorem rimStruck_registers (struck : Option (Nat × Nat)) (s : State) : registersSet [F.RIM_SCRUB_INTERVAL] s (rimStruck struck s) := by
  cases struck with
  | none => exact .refl _ s
  | some v => exact (registersSet.refl _ s).fset (by simp) v.1

/-- The rewrite of the store's parameters with what firmware last wrote (R187). -/
def schRewritten (s : State) : State := (s.fset F.SCH_SCRUB_INTERVAL s.sch.wrote.1).fset F.SCH_ROWHOT_THR s.sch.wrote.2

/-- The rewrite of the rim's parameter with what firmware last wrote (R355). -/
def rimRewritten (s : State) : State := s.fset F.RIM_SCRUB_INTERVAL s.rim.wrote

theorem paramCheck_sch (struck : Option (Nat × Nat)) (s : State) : paramCheck false struck s =
    if Config.sm3 (paramBytes ((schStruck struck s).fget F.SCH_SCRUB_INTERVAL) ((schStruck struck s).fget F.SCH_ROWHOT_THR)
        s.sch.dis.toNat) = Config.sm3 (paramBytes s.sch.wrote.1 s.sch.wrote.2 0) then
      { schStruck struck s with sch := { s.sch with dis := 0 } }
    else schParamPost (schRewritten (schStruck struck s)) := by
  cases struck <;> rfl

theorem paramCheck_rim (struck : Option (Nat × Nat)) (s : State) : paramCheck true struck s =
    if Config.sm3 (paramBytes ((rimStruck struck s).fget F.RIM_SCRUB_INTERVAL) s.rim.dis.toNat 0) =
        Config.sm3 (paramBytes s.rim.wrote 0 0) then
      { rimStruck struck s with rim := { s.rim with dis := false } }
    else rimParamPost (rimRewritten (rimStruck struck s)) := by
  cases struck <;> rfl

/-- SCH_PARAM posts the disagreement seen and clears it (R187, R199). -/
theorem schParamPost_posts {fs : List Fld} {s t : State} (h : registersSet fs s t)
    (hen : ∀ g ∈ fs, (evten F.SCH_EVT_PARAM).key ≠ g.key) :
    posted F.SCH_EVT_PARAM 6 8 [s.sch.dis.toNat] s (schParamPost t) ∧ (schParamPost t).sch = { s.sch with dis := 0 } ∧
    (schParamPost t).clauses = s.clauses ∧ (schParamPost t).rim = s.rim ∧ (schParamPost t).seq = s.seq ∧
    (schParamPost t).mem = s.mem ∧ onlyFields (fs ++ [F.SCH_EVT_PARAM]) s (schParamPost t) := by
  have hposted := h.posted_raise (f := F.SCH_EVT_PARAM) 6 8 [t.sch.dis.toNat] rfl hen
  obtain ⟨⟨m, rfl⟩, honly⟩ := h
  refine ⟨posted_to hposted rfl rfl, ?_, State.clauses_raise _ _ _ _ _, State.rim_raise _ _ _ _ _, State.seq_raise _ _ _ _ _,
    State.mem_raise _ _ _ _ _, onlyFields_to ((honly.mono (List.subset_append_left fs _)).raise (by simp) _ _ _) rfl⟩
  exact congrArg (fun x : Sch => { x with dis := 0 }) (State.sch_raise _ _ _ _ _)

/-- RIM_PARAM posts the disagreement seen and clears it (R355, R360). -/
theorem rimParamPost_posts {fs : List Fld} {s t : State} (h : registersSet fs s t)
    (hen : ∀ g ∈ fs, (evten F.RIM_EVT_PARAM).key ≠ g.key) :
    posted F.RIM_EVT_PARAM 11 4 [s.rim.dis.toNat] s (rimParamPost t) ∧ (rimParamPost t).rim = { s.rim with dis := false } ∧
    (rimParamPost t).clauses = s.clauses ∧ (rimParamPost t).sch = s.sch ∧ (rimParamPost t).seq = s.seq ∧
    (rimParamPost t).mem = s.mem ∧ onlyFields (fs ++ [F.RIM_EVT_PARAM]) s (rimParamPost t) := by
  have hposted := h.posted_raise (f := F.RIM_EVT_PARAM) 11 4 [t.rim.dis.toNat] rfl hen
  obtain ⟨⟨m, rfl⟩, honly⟩ := h
  refine ⟨posted_to hposted rfl rfl, ?_, State.clauses_raise _ _ _ _ _, State.sch_raise _ _ _ _ _, State.seq_raise _ _ _ _ _,
    State.mem_raise _ _ _ _ _, onlyFields_to ((honly.mono (List.subset_append_left fs _)).raise (by simp) _ _ _) rfl⟩
  exact congrArg (fun x : Rim => { x with dis := false }) (State.rim_raise _ _ _ _ _)

/-- After a mismatch the store's registers hold what firmware last wrote (R187). -/
theorem fget_schParamPost_schRewritten (s : State) :
    (schParamPost (schRewritten s)).fget F.SCH_SCRUB_INTERVAL = s.sch.wrote.1 % 2 ^ F.SCH_SCRUB_INTERVAL.width ∧
    (schParamPost (schRewritten s)).fget F.SCH_ROWHOT_THR = s.sch.wrote.2 % 2 ^ F.SCH_ROWHOT_THR.width := by
  refine ⟨(State.fget_raise_ne _ _ _ _ (by decide)).trans ?_, (State.fget_raise_ne _ _ _ _ (by decide)).trans ?_⟩
  · exact (State.fget_fset_ne _ _ (by decide)).trans (State.fget_fset_same _ _ _)
  · exact State.fget_fset_same _ _ _

/-- After a mismatch the rim's register holds what firmware last wrote (R355). -/
theorem fget_rimParamPost_rimRewritten (s : State) :
    (rimParamPost (rimRewritten s)).fget F.RIM_SCRUB_INTERVAL = s.rim.wrote % 2 ^ F.RIM_SCRUB_INTERVAL.width :=
  (State.fget_raise_ne _ _ _ _ (by decide)).trans (State.fget_fset_same _ _ _)

/-- Settles O20: a check agrees, or rewrites the registers (`schRewritten`, `rimRewritten`) and posts the disagreement as
SCH_PARAM and RIM_PARAM do (`schParamPost_posts`, `rimParamPost_posts`). -/
theorem parameterChecks : Obligations.ParameterChecks := by
  unfold Obligations.ParameterChecks
  refine ⟨fun s => leads_of rfl (schParamPost_posts (.refl [] s) (by simp)),
    fun s => leads_of rfl (rimParamPost_posts (.refl [] s) (by simp)), fun struck iv th s hiv hth => ?_, fun struck iv s hiv => ?_⟩
  · rw [← fget_interval_schStruck] at hiv
    rw [← fget_threshold_schStruck] at hth
    subst hiv hth
    have hstruck := schStruck_registers struck s
    refine leads_of (congrArg Host.Outcome.next (paramCheck_sch struck s)) ?_
    split
    · obtain ⟨⟨m, hm⟩, honly⟩ := hstruck
      rw [hm] at honly ⊢
      exact ⟨rfl, rfl, rfl, rfl, rfl, rfl, rfl, rfl, honly⟩
    · obtain ⟨hposted, hsch, hclauses, hrim, hseq, hmem, honly⟩ := schParamPost_posts (t := schRewritten (schStruck struck s))
        ((hstruck.fset (by simp) _).fset (by simp) _) (by decide)
      obtain ⟨hinterval, hthreshold⟩ := fget_schParamPost_schRewritten (schStruck struck s)
      rw [hstruck.sch] at hinterval hthreshold
      exact ⟨hsch, hclauses, hrim, hseq, hmem, hposted, hinterval, hthreshold, honly⟩
  · rw [← fget_interval_rimStruck] at hiv
    subst hiv
    have hstruck := rimStruck_registers struck s
    refine leads_of (congrArg Host.Outcome.next (paramCheck_rim struck s)) ?_
    split
    · obtain ⟨⟨m, hm⟩, honly⟩ := hstruck
      rw [hm] at honly ⊢
      exact ⟨rfl, rfl, rfl, rfl, rfl, rfl, rfl, honly⟩
    · obtain ⟨hposted, hrim, hclauses, hsch, hseq, hmem, honly⟩ := rimParamPost_posts (t := rimRewritten (rimStruck struck s))
        (hstruck.fset (by simp) _) (by decide)
      have hinterval := fget_rimParamPost_rimRewritten (rimStruck struck s)
      rw [hstruck.rim] at hinterval
      exact ⟨hrim, hclauses, hsch, hseq, hmem, hposted, hinterval, honly⟩

end Sys2Proof.Machine
end

section
/-! Read repair and the schedule scrubber (R179, R183, R188, R190). -/
namespace Sys2Proof.Machine

/-! ### Error marks of a slice (R179, R188) -/

/-- Where a row of a slice lies depends on the rows mapped at run time alone. -/
theorem arrayLoc_congr {s t : State} {c : Nat} (h : (t.clause c).rowMap = (s.clause c).rowMap) : t.arrayLoc c = s.arrayLoc c := by
  unfold State.arrayLoc State.arrayRow State.spareOf
  rw [h]

/-- The location of a row and a word of it lies at that word of the array row. -/
theorem arrayLoc_locKey (s : State) (c row : Nat) {word : Nat} (h : word < 128) :
    s.arrayLoc c (locKey row word) = 128 * s.arrayRow c row + word := by
  have hrow : locKey row word / 128 = row := by unfold locKey; omega
  have hword : locKey row word % 128 = word := by unfold locKey; omega
  rw [State.arrayLoc, hrow, hword]

theorem clause_setSchMark_same (c row word m : Nat) (s : State) : (setSchMark c row word m s).clause c =
    { s.clause c with schBad := kvSet 0 (s.clause c).schBad (s.arrayLoc c (locKey row word)) m } :=
  State.clause_modClause_same _ _ _

theorem clause_setSchMark_ne {c d : Nat} (row word m : Nat) (s : State) (h : d ≠ c) :
    (setSchMark c row word m s).clause d = s.clause d :=
  State.clause_modClause_ne _ _ h

theorem arrayLoc_setSchMark (c row word m : Nat) (s : State) : (setSchMark c row word m s).arrayLoc c = s.arrayLoc c :=
  arrayLoc_congr (by rw [clause_setSchMark_same])

/-- A mark that is set is that of one location of the array (R188). -/
theorem markAt_setSchMark (c row word m k : Nat) (s : State) : (setSchMark c row word m s).markAt c k =
    if s.arrayLoc c k = s.arrayLoc c (locKey row word) then m else s.markAt c k := by
  rw [State.markAt, arrayLoc_setSchMark, clause_setSchMark_same]
  exact kvGet_kvSet 0 _ _ _ m

/-! ### READ_REPAIR_WRITEBACK (R179) -/

theorem leads_writeBack (c row word : Nat) (s : State) (h : s.markAt c (128 * row + word) = 3) :
    leads (.readRepairWriteback c row word) s fun t => t.markAt c (128 * row + word) = 0 ∧
      (∀ k, s.arrayLoc c k ≠ s.arrayLoc c (128 * row + word) → t.markAt c k = s.markAt c k) ∧
        (t.clause c).words = (s.clause c).words ∧
      (∀ d, d ≠ c → t.clause d = s.clause d) ∧ onlyFields [] s t ∧ t.evq = s.evq ∧ t.seq = s.seq ∧ t.mem = s.mem := by
  have hback : writeBack c row word s = setSchMark c row word 0 s := if_pos h
  exact leads_of (congrArg Host.Outcome.next hback) ⟨(markAt_setSchMark _ _ _ _ _ _).trans (if_pos rfl),
    fun k hk => (markAt_setSchMark _ _ _ _ _ _).trans (if_neg hk), by rw [clause_setSchMark_same],
    fun d hd => clause_setSchMark_ne _ _ _ _ hd, onlyFields.refl [] s, rfl, rfl, rfl⟩

/-! ### A corrected error (R179, R183, R190) -/

/-- The count of corrections by the scrubber, and by the reads of a step (R205). -/
def correctionCount (byScrub : Bool) : Fld := if byScrub then F.SCH_CNT_SCRUB_COUNT else F.SCH_CNT_CE_COUNT

theorem satSucc_eq_min (w n : Nat) : satSucc w n = min (2 ^ w - 1) (n + 1) := by
  have := Nat.two_pow_pos w
  unfold satSucc
  split <;> omega

/-- A slice once an error of a row has been corrected, with the threshold of SCH_ROWHOT (R190, R205). -/
def Clause.corrected (x : Clause) (row thr : Nat) : Clause :=
  let k := if x.hotRow == row then x.hotCnt + 1 else 1
  { x with ce := satSucc 32 x.ce, hotRow := row, hotCnt := if thr != 0 && decide (thr ≤ k) then 0 else k }

/-- A correction as it is counted, before its events. -/
def correctionCounted (c row : Nat) (byScrub : Bool) (s : State) : State :=
  (s.count (correctionCount byScrub)).modClause c fun x => x.corrected row (s.fget F.SCH_ROWHOT_THR)

theorem sparingSeen_fields (t : SparingTrigger) (s : State) : (sparingSeen t s).fields = s.fields := by
  unfold sparingSeen
  split <;> rfl

/-- After its counts a correction raises events and reports its row to the sparing policy, no more. -/
theorem schCorrected_counts (c row word : Nat) (byScrub : Bool) (s : State) :
    (schCorrected c row word byScrub s).clauses = (correctionCounted c row byScrub s).clauses ∧
    onlyFields [F.SCH_EVT_CE, F.SCH_EVT_ROW_HOT] (correctionCounted c row byScrub s) (schCorrected c row word byScrub s) := by
  unfold schCorrected
  extract_lets x n k thr hot s1 s2
  show _ = s1.clauses ∧ onlyFields _ s1 _
  have h2 : s2.clauses = s1.clauses ∧ onlyFields [F.SCH_EVT_CE, F.SCH_EVT_ROW_HOT] s1 s2 := by
    simp only [s2]
    split
    · exact ⟨State.clauses_raise _ _ _ _ _, (onlyFields.refl _ s1).raise (by simp) _ _ _⟩
    · exact ⟨rfl, onlyFields.refl _ s1⟩
  split
  · refine ⟨((sparingSeen_frame _ (Fr.refl 0x400000 _) rfl).h_clauses rfl).trans ((State.clauses_raise _ _ _ _ _).trans h2.1),
      onlyFields_to (h2.2.raise (by simp) 6 4 [c, row, thr]) (sparingSeen_fields _ _)⟩
  · exact h2

/-- A correction counts in its register and in the slice's own count, and changes no other clause (R179, R183, R190, R205). -/
theorem schCorrected_corrects (c row word : Nat) (byScrub : Bool) (s : State) :
    (schCorrected c row word byScrub s).clause c = (s.clause c).corrected row (s.fget F.SCH_ROWHOT_THR) ∧
    (∀ d, d ≠ c → (schCorrected c row word byScrub s).clause d = s.clause d) ∧
    counted (correctionCount byScrub) s (schCorrected c row word byScrub s) ∧
    onlyFields [correctionCount byScrub, F.SCH_EVT_CE, F.SCH_EVT_ROW_HOT] s (schCorrected c row word byScrub s) := by
  obtain ⟨hclauses, hfields⟩ := schCorrected_counts c row word byScrub s
  generalize schCorrected c row word byScrub s = t at hclauses hfields
  refine ⟨(State.clause_congr hclauses c).trans (State.clause_modClause_same _ _ _),
    fun d hd => (State.clause_congr hclauses d).trans (State.clause_modClause_ne _ _ hd), ?_, ?_⟩
  · refine (hfields _ ?_).trans (s.fget_count_same _)
    cases byScrub <;> decide
  · have hcount : onlyFields [correctionCount byScrub] s (correctionCounted c row byScrub s) :=
      onlyFields_count (onlyFields.refl _ s) (by simp)
    exact (hcount.mono (by simp)).trans (hfields.mono (by simp))

/-! ### The scrubber (R183) -/

/-- The scrubber moves on from a row of a slice to the next (R183). -/
def scrubNext (c row : Nat) (s : State) : State :=
  s.modClause c fun x => { x with scrub := if row + 1 < 9472 then row + 1 else 0 }

/-- The error marks that the scrubber reads: those of the array row that its row is mapped to (R183, R188). -/
def State.scrubMarks (s : State) (c : Nat) : Kv Nat :=
  (s.clause c).schBad.filter fun e => e.1 / 128 == s.arrayRow c (s.clause c).scrub

/-- What the scrubber does with one error mark of a row (R183). -/
def scrubMark (c row : Nat) (s : State) (e : Nat × Nat) : State :=
  if e.2 = 2 then scrubUe c row (e.1 % 128) s else setSchMark c row (e.1 % 128) 0 (schCorrected c row (e.1 % 128) true s)

theorem scrubRow_of_gated {c : Nat} {s : State} (h : s.gated c = true) : scrubRow c s = s := if_pos h

theorem scrubRow_of_powered {c : Nat} {s : State} (h : s.gated c = false) : scrubRow c s =
    scrubNext c (s.clause c).scrub ((s.scrubMarks c).foldl (scrubMark c (s.clause c).scrub) s) :=
  if_neg (by simp [h])

theorem exec_scrubRowRead {c : Nat} {ups : List Upset} {s u : State} (h : u = upsets ups s) :
    exec (.scrubRowRead c ups) s = .next (scrubRow c u) := h ▸ rfl

theorem leads_scrubClean (c : Nat) (ups : List Upset) (s u : State) (hu : u = upsets ups s) (hpow : u.gated c = false)
    (hmarks : u.scrubMarks c = []) : leads (.scrubRowRead c ups) s fun t =>
      t.clause c = { u.clause c with scrub := if (u.clause c).scrub + 1 < 9472 then (u.clause c).scrub + 1 else 0 } ∧
      (∀ d, d ≠ c → t.clause d = u.clause d) ∧ onlyFields [] u t ∧ t.evq = u.evq ∧ t.seq = u.seq ∧ t.mem = u.mem := by
  have hrow : scrubRow c u = scrubNext c (u.clause c).scrub u := by rw [scrubRow_of_powered hpow, hmarks]; rfl
  exact leads_of ((exec_scrubRowRead hu).trans (congrArg Host.Outcome.next hrow)) ⟨State.clause_modClause_same _ _ _,
    fun d hd => State.clause_modClause_ne _ _ hd, onlyFields.refl [] u, rfl, rfl, rfl⟩

theorem scrubMark_of_correctable {row word m : Nat} (c : Nat) (s : State) (hword : word < 128) (hm : m ≠ 2) (a : Nat) :
    scrubMark c row s (128 * a + word, m) = setSchMark c row word 0 (schCorrected c row word true s) := by
  have hmod : (128 * a + word) % 128 = word := by omega
  simp only [scrubMark, hmod, if_neg hm]

theorem leads_scrubCorrects (c word m : Nat) (ups : List Upset) (s u : State) (hu : u = upsets ups s) (hpow : u.gated c = false)
    (hword : word < 128) (hm : m ≠ 2)
    (hmarks : u.scrubMarks c = [(128 * u.arrayRow c (u.clause c).scrub + word, m)]) : leads (.scrubRowRead c ups) s fun t =>
      kvGet 0 (t.clause c).schBad (128 * u.arrayRow c (u.clause c).scrub + word) = 0 ∧
      counted F.SCH_CNT_SCRUB_COUNT u t ∧ (t.clause c).ce = min (2 ^ 32 - 1) ((u.clause c).ce + 1) ∧
      (t.clause c).scrub = (if (u.clause c).scrub + 1 < 9472 then (u.clause c).scrub + 1 else 0) ∧
      (t.clause c).words = (u.clause c).words ∧ (t.clause c).vs = (u.clause c).vs ∧
      (∀ d, d ≠ c → t.clause d = u.clause d) ∧ t.seq = u.seq ∧ t.mem = u.mem ∧
      onlyFields [F.SCH_CNT_SCRUB_COUNT, F.SCH_EVT_CE, F.SCH_EVT_ROW_HOT] u t := by
  have hrow : scrubRow c u = scrubNext c (u.clause c).scrub
      (setSchMark c (u.clause c).scrub word 0 (schCorrected c (u.clause c).scrub word true u)) := by
    rw [scrubRow_of_powered hpow, hmarks, List.foldl_cons, List.foldl_nil, scrubMark_of_correctable c u hword hm]
  obtain ⟨hclause, hother, hcounted, hfields⟩ := schCorrected_corrects c (u.clause c).scrub word true u
  have hfr := schCorrected_frame c (u.clause c).scrub word true (Fr.refl 0x80400480 u) rfl
  have hloc := arrayLoc_locKey u c (u.clause c).scrub hword
  rw [← arrayLoc_congr (t := schCorrected c (u.clause c).scrub word true u) (by rw [hclause]; rfl)] at hloc
  generalize schCorrected c (u.clause c).scrub word true u = v at *
  refine leads_of ((exec_scrubRowRead hu).trans (congrArg Host.Outcome.next hrow)) ?_
  have hnext : (scrubNext c (u.clause c).scrub (setSchMark c (u.clause c).scrub word 0 v)).clause c =
      { (u.clause c).corrected (u.clause c).scrub (u.fget F.SCH_ROWHOT_THR) with
        schBad := kvSet 0 (u.clause c).schBad (128 * u.arrayRow c (u.clause c).scrub + word) 0
        scrub := if (u.clause c).scrub + 1 < 9472 then (u.clause c).scrub + 1 else 0 } := by
    rw [scrubNext, State.clause_modClause_same, clause_setSchMark_same, hloc, hclause]
    rfl
  rw [hnext]
  exact ⟨(kvGet_kvSet 0 _ _ _ 0).trans (if_pos rfl), hcounted, satSucc_eq_min 32 _, rfl, rfl, rfl,
    fun d hd => (State.clause_modClause_ne _ _ hd).trans ((clause_setSchMark_ne _ _ _ _ hd).trans (hother d hd)),
    hfr.h_seq rfl, hfr.h_mem rfl, hfields⟩

/-! ### An uncorrectable location (R183, R185, R188) -/

/-- Outside the master dictionary an uncorrectable location is reported, and the test pattern of a spare row in no use is
rewritten (R183). -/
theorem scrubUe_reports {c row word : Nat} {s : State} (h0 : row ≠ 8704) (h1 : row ≠ 8705) :
    scrubUe c row word s = if 9216 ≤ row ∧ s.logicalRow c row = none then
      setSchMark c row word 0 (s.raise F.SCH_EVT_SCRUB_UE 6 3 [c, row, word])
    else s.raise F.SCH_EVT_SCRUB_UE 6 3 [c, row, word] := by
  unfold scrubUe
  rw [if_neg (by simp [h0, h1])]
  simp only [Bool.and_eq_true, decide_eq_true_eq, Option.isNone_iff_eq_none]

/-- A report leaves the slice but for the test pattern of a spare row in no use. -/
theorem scrubUe_leaves {c row : Nat} (word : Nat) (s : State) (h0 : row ≠ 8704) (h1 : row ≠ 8705) :
    posted F.SCH_EVT_SCRUB_UE 6 3 [c, row, word] s (scrubUe c row word s) ∧
    (scrubUe c row word s).clause c = { s.clause c with
      schBad := if 9216 ≤ row ∧ s.logicalRow c row = none then kvSet 0 (s.clause c).schBad (s.arrayLoc c (locKey row word)) 0
        else (s.clause c).schBad } ∧
    (∀ d, d ≠ c → (scrubUe c row word s).clause d = s.clause d) ∧ (scrubUe c row word s).seq = s.seq ∧
    (scrubUe c row word s).mem = s.mem ∧ onlyFields [F.SCH_EVT_SCRUB_UE] s (scrubUe c row word s) := by
  have hposted := s.raise_posted F.SCH_EVT_SCRUB_UE 6 3 [c, row, word] rfl
  have honly := (onlyFields.refl [F.SCH_EVT_SCRUB_UE] s).raise (List.mem_singleton_self _) 6 3 [c, row, word]
  have hclauses := s.clauses_raise F.SCH_EVT_SCRUB_UE 6 3 [c, row, word]
  have hseq := s.seq_raise F.SCH_EVT_SCRUB_UE 6 3 [c, row, word]
  have hmem := s.mem_raise F.SCH_EVT_SCRUB_UE 6 3 [c, row, word]
  rw [scrubUe_reports h0 h1]
  generalize s.raise F.SCH_EVT_SCRUB_UE 6 3 [c, row, word] = v at *
  have hclause := State.clause_congr hclauses
  have hloc := arrayLoc_congr (congrArg Clause.rowMap (hclause c))
  split
  · refine ⟨posted_to hposted rfl rfl, ?_, fun d hd => (clause_setSchMark_ne _ _ _ _ hd).trans (hclause d), hseq, hmem,
      onlyFields_to honly rfl⟩
    rw [clause_setSchMark_same, hloc, hclause c]
  · exact ⟨hposted, hclause c, fun d _ => hclause d, hseq, hmem, honly⟩

theorem leads_scrubReports (c word : Nat) (ups : List Upset) (s u : State) (hu : u = upsets ups s) (hpow : u.gated c = false)
    (hword : word < 128) (h0 : (u.clause c).scrub ≠ 8704) (h1 : (u.clause c).scrub ≠ 8705)
    (hmarks : u.scrubMarks c = [(128 * u.arrayRow c (u.clause c).scrub + word, 2)]) : leads (.scrubRowRead c ups) s fun t =>
      posted F.SCH_EVT_SCRUB_UE 6 3 [c, (u.clause c).scrub, word] u t ∧
      t.clause c = { u.clause c with
        scrub := if (u.clause c).scrub + 1 < 9472 then (u.clause c).scrub + 1 else 0
        schBad := if 9216 ≤ (u.clause c).scrub ∧ u.logicalRow c (u.clause c).scrub = none then
            kvSet 0 (u.clause c).schBad (u.arrayLoc c (128 * (u.clause c).scrub + word)) 0
          else (u.clause c).schBad } ∧
      (∀ d, d ≠ c → t.clause d = u.clause d) ∧ t.seq = u.seq ∧ t.mem = u.mem ∧ onlyFields [F.SCH_EVT_SCRUB_UE] u t := by
  have hmod : (128 * u.arrayRow c (u.clause c).scrub + word) % 128 = word := by omega
  have hrow : scrubRow c u = scrubNext c (u.clause c).scrub (scrubUe c (u.clause c).scrub word u) := by
    rw [scrubRow_of_powered hpow, hmarks, List.foldl_cons, List.foldl_nil]
    simp only [scrubMark, hmod, if_pos]
  obtain ⟨hposted, hclause, hother, hseq, hmem, honly⟩ := scrubUe_leaves (c := c) word u h0 h1
  refine leads_of ((exec_scrubRowRead hu).trans (congrArg Host.Outcome.next hrow)) ⟨posted_to hposted rfl rfl, ?_,
    fun d hd => (State.clause_modClause_ne _ _ hd).trans (hother d hd), hseq, hmem, onlyFields_to honly rfl⟩
  rw [scrubNext, State.clause_modClause_same, hclause]
  rfl

/-- Settles O19: a write-back clears the mark 3 alone, and the scrubber moves on (`scrubNext`) after it has corrected
(`schCorrected_corrects`) or reported (`scrubUe_reports`) the error of its row. -/
theorem scrubberReadsRows : Obligations.ScrubberReadsRows := by
  unfold Obligations.ScrubberReadsRows
  exact ⟨leads_writeBack, fun c row word s h => congrArg Host.Outcome.next (if_neg h),
    fun c ups s u hu hgated => (exec_scrubRowRead hu).trans (congrArg Host.Outcome.next (scrubRow_of_gated hgated)),
    leads_scrubClean, leads_scrubCorrects, leads_scrubReports⟩

end Sys2Proof.Machine
end

section
/-! Row mapping of a slice (R188, R189, R205). -/
namespace Sys2Proof.Machine

/-! ### The rows of a slice (R188, R204) -/

theorem spareOf_congr {s t : State} {c : Nat} (h : (t.clause c).rowMap = (s.clause c).rowMap) : t.spareOf c = s.spareOf c := by
  unfold State.spareOf
  rw [h]

theorem rowFree_congr {s t : State} {c : Nat} (h : (t.clause c).rowMap = (s.clause c).rowMap) : t.rowFree c = s.rowFree c := by
  unfold State.rowFree
  rw [h]

/-- A value that a map reads and that is not the default is listed. -/
theorem mem_of_kvGet_ne {α : Type} {d : α} {m : List (Nat × α)} {k : Nat} (h : kvGet d m k ≠ d) : (k, kvGet d m k) ∈ m := by
  induction m with
  | nil => exact absurd rfl h
  | cons e m ih =>
    obtain ⟨a, v⟩ := e
    simp only [kvGet] at h ⊢
    split
    · rename_i hak
      rw [hak]
      exact List.mem_cons_self
    · rename_i hak
      rw [if_neg hak] at h
      exact List.mem_cons_of_mem _ (ih h)

/-- A key that a map does not list adds an entry to it. -/
theorem length_kvInsert {α : Type} {m : List (Nat × α)} {k : Nat} (v : α) (h : ∀ e ∈ m, e.1 ≠ k) :
    (kvInsert m k v).length = m.length + 1 := by
  induction m with
  | nil => rfl
  | cons e m ih =>
    obtain ⟨a, w⟩ := e
    have ha : a ≠ k := h _ List.mem_cons_self
    simp only [kvInsert, if_neg ha]
    split
    · rfl
    · rw [List.length_cons, ih fun e he => h e (List.mem_cons_of_mem _ he), List.length_cons]

/-- The spare rows of a slice that rows are mapped to, by the factory or at run time (R188). -/
def State.spareRows (s : State) (c : Nat) : List Nat :=
  (s.clause c).rowMap.filterMap Prod.snd ++ (factoryRows c).map Prod.snd

theorem mem_spareRows_of_spareOf {s : State} {c r k : Nat} (h : s.spareOf c r = some k) : k ∈ s.spareRows c := by
  unfold State.spareOf at h
  rw [State.spareRows, List.mem_append, List.mem_filterMap, List.mem_map]
  cases hmap : kvGet none (s.clause c).rowMap r with
  | none =>
    rw [hmap] at h
    obtain ⟨l, l', hl, -⟩ := List.lookup_eq_some_iff.mp h
    exact .inr ⟨(r, k), by simp [hl], rfl⟩
  | some k' =>
    have hmem := mem_of_kvGet_ne (d := none) (m := (s.clause c).rowMap) (k := r) (by simp [hmap])
    rw [hmap] at h hmem
    exact .inl ⟨(r, some k'), hmem, h⟩

/-- The spare rows of a slice that no row is mapped to. -/
def State.freeRows (s : State) (c : Nat) : List Nat := (List.range 256).filter fun k => !(s.spareRows c).contains k

theorem mem_freeRows {s : State} {c k : Nat} : k ∈ s.freeRows c ↔ k < 256 ∧ k ∉ s.spareRows c := by
  simp [State.freeRows]

/-- A slice whose count of free rows is not 0 has a free row: each mapping takes at most one. -/
theorem freeRows_ne_nil {s : State} {c : Nat} (h : s.rowFree c ≠ 0) : s.freeRows c ≠ [] := by
  have hlen : (s.spareRows c).length < 256 := by
    have hmap : ((s.clause c).rowMap.filterMap Prod.snd).length ≤ (s.clause c).rowMap.length := List.length_filterMap_le _ _
    rw [State.spareRows, List.length_append, List.length_map]
    unfold State.rowFree at h
    omega
  obtain ⟨k, hk, hfree⟩ := Finset.exists_mem_notMem_of_card_lt_card (s := (s.spareRows c).toFinset) (t := Finset.range 256)
    (by rw [Finset.card_range]; exact (List.toFinset_card_le _).trans_lt hlen)
  exact List.ne_nil_of_mem (mem_freeRows.mpr ⟨Finset.mem_range.mp hk, by simpa using hfree⟩)

/-- Whichever of several numbers is taken is one of them. -/
theorem pick_mem {xs : List Nat} (s : State) (h : xs ≠ []) : (s.pick xs).1 ∈ xs := by
  have hlen : s.fresh.1.toNat % max 1 xs.length < xs.length := by
    have hpos := List.length_pos_iff.mpr h
    rw [Nat.max_eq_right hpos]
    exact Nat.mod_lt _ hpos
  show xs.getD _ 0 ∈ xs
  rw [List.getD_eq_getElem _ _ hlen]
  exact List.getElem_mem hlen

/-! ### SCH_RMAP_GO (R189) -/

/-- The request word of SCH_RMAP as it is written. -/
def rmapWritten (c row : Nat) (s : State) : State := (s.fset F.SCH_RMAP_CLAUSE c).fset F.SCH_RMAP_ROW row

theorem rmapRefusal_of_rule {s : State} {c row r : Nat}
    (h : s.sch.rmap ≠ none ∧ r = 5 ∨ s.sch.rmap = none ∧ (s.gated c = true ∧ r = 6 ∨ s.gated c = false ∧
      (9215 < row ∧ r = 2 ∨ row ≤ 9215 ∧ (s.spareOf c row ≠ none ∧ r = 3 ∨
        s.spareOf c row = none ∧ s.rowFree c = 0 ∧ r = 1)))) : s.rmapRefusal c row = some r ∧ r < 256 := by
  unfold State.rmapRefusal
  rcases h with ⟨hbusy, rfl⟩ | ⟨hidle, ⟨hgated, rfl⟩ | ⟨hpow, ⟨hrow, rfl⟩ | ⟨hrow, ⟨hmap, rfl⟩ | ⟨hmap, hfree, rfl⟩⟩⟩⟩
  · simp [Option.isSome_iff_ne_none, hbusy]
  · simp [hidle, hgated]
  · simp [hidle, hpow, hrow]
  · simp [hidle, hpow, hrow.not_gt, Option.isSome_iff_ne_none, hmap]
  · simp [hidle, hpow, hrow.not_gt, hmap, hfree]

theorem rmapRefusal_of_free {s : State} {c row : Nat} (hidle : s.sch.rmap = none) (hpow : s.gated c = false) (hrow : row ≤ 9215)
    (hmap : s.spareOf c row = none) (hfree : s.rowFree c ≠ 0) : s.rmapRefusal c row = none := by
  simp [State.rmapRefusal, hidle, hpow, hrow.not_gt, hmap, hfree]

/-- The report of a request (R189, R205). -/
theorem rmapReport_reports {result : Nat} (c row spare : Nat) (s : State) (h : result < 256) :
    (rmapReport c row spare result s).fget F.SCH_RMAP_RESULT = result ∧
    (rmapReport c row spare result s).fget F.SCH_EVT_RMAP = 1 ∧
    (rmapReport c row spare result s).clauses = s.clauses ∧ (rmapReport c row spare result s).sch = s.sch ∧
    onlyFields [F.SCH_RMAP_RESULT, F.SCH_EVT_RMAP] s (rmapReport c row spare result s) := by
  refine ⟨(State.fget_raise_ne _ _ _ _ (by decide)).trans ((State.fget_fset_same _ _ _).trans (Nat.mod_eq_of_lt h)),
    State.fget_raise_same _ _ _ _ _, State.clauses_raise _ _ _ _ _, State.sch_raise _ _ _ _ _,
    ((onlyFields.refl _ s).fset (by simp) _).raise (by simp) _ _ _⟩

theorem leads_rmapRefused (c row r : Nat) (s : State) (hc : c < 64) (hrow : row < 2 ^ 14)
    (hrule : s.sch.rmap ≠ none ∧ r = 5 ∨ s.sch.rmap = none ∧ (s.gated c = true ∧ r = 6 ∨ s.gated c = false ∧
      (9215 < row ∧ r = 2 ∨ row ≤ 9215 ∧ (s.spareOf c row ≠ none ∧ r = 3 ∨
        s.spareOf c row = none ∧ s.rowFree c = 0 ∧ r = 1)))) :
    leads (.schRmapGo c row) s fun t => t.fget F.SCH_RMAP_RESULT = r ∧ t.fget F.SCH_EVT_RMAP = 1 ∧ t.fget F.SCH_RMAP_CLAUSE = c ∧
      t.fget F.SCH_RMAP_ROW = row ∧ t.clauses = s.clauses ∧ t.sch = s.sch ∧ t.seq = s.seq ∧ t.mem = s.mem ∧
      onlyFields [F.SCH_RMAP_CLAUSE, F.SCH_RMAP_ROW, F.SCH_RMAP_RESULT, F.SCH_EVT_RMAP] s t := by
  obtain ⟨hrefused, hr⟩ := rmapRefusal_of_rule hrule
  have hgo : rmapGo c row s =
      rmapReport c row (rmapWritten c row s).freshNat.1 r (rmapWritten c row s).freshNat.2 := by
    simp only [rmapGo, hrefused, rmapWritten]
  have hwritten : onlyFields [F.SCH_RMAP_CLAUSE, F.SCH_RMAP_ROW] s (rmapWritten c row s).freshNat.2 :=
    onlyFields_to (((onlyFields.refl _ s).fset (by simp) c).fset (by simp) row) rfl
  obtain ⟨hresult, hevt, hclauses, hsch, honly⟩ := rmapReport_reports c row (rmapWritten c row s).freshNat.1
    (rmapWritten c row s).freshNat.2 hr
  have hfr := rmapReport_frame c row (rmapWritten c row s).freshNat.1 r (Fr.refl 0x80000080 (rmapWritten c row s).freshNat.2) rfl
  refine leads_of (congrArg Host.Outcome.next hgo) ⟨hresult, hevt, (honly _ (by decide)).trans ?_, (honly _ (by decide)).trans ?_,
    hclauses, hsch, hfr.h_seq rfl, hfr.h_mem rfl, (hwritten.mono (by simp)).trans (honly.mono (by simp))⟩
  · exact (State.fget_fset_ne _ _ (by decide)).trans ((State.fget_fset_same _ _ _).trans (Nat.mod_eq_of_lt hc))
  · exact (State.fget_fset_same _ _ _).trans (Nat.mod_eq_of_lt hrow)

theorem leads_rmapRuns (c row : Nat) (s : State) (hidle : s.sch.rmap = none) (hpow : s.gated c = false) (hrow : row ≤ 9215)
    (hmap : s.spareOf c row = none) (hfree : s.rowFree c ≠ 0) : leads (.schRmapGo c row) s fun t =>
      t.sch.rmap = some (c, row) ∧ t.fget F.SCH_RMAP_GO = 1 ∧ t.fget F.SCH_STAT_RMAP_BUSY = 1 ∧
      t.evq = s.evq ∧ t.clauses = s.clauses ∧ t.seq = s.seq ∧ t.mem = s.mem ∧
      onlyFields [F.SCH_RMAP_CLAUSE, F.SCH_RMAP_ROW, F.SCH_RMAP_GO, F.SCH_STAT_RMAP_BUSY] s t := by
  have hgo : rmapGo c row s = (({ rmapWritten c row s with sch := { s.sch with rmap := some (c, row) } } : State).fset
      F.SCH_RMAP_GO 1).fset F.SCH_STAT_RMAP_BUSY 1 := by
    simp only [rmapGo, rmapRefusal_of_free hidle hpow hrow hmap hfree]
    rfl
  have hwritten : onlyFields [F.SCH_RMAP_CLAUSE, F.SCH_RMAP_ROW, F.SCH_RMAP_GO, F.SCH_STAT_RMAP_BUSY] s
      { rmapWritten c row s with sch := { s.sch with rmap := some (c, row) } } :=
    onlyFields_to (((onlyFields.refl _ s).fset (by simp) c).fset (by simp) row) rfl
  exact leads_of (congrArg Host.Outcome.next hgo) ⟨rfl, (State.fget_fset_ne _ _ (by decide)).trans (State.fget_fset_same _ _ 1),
    State.fget_fset_same _ _ 1, rfl, rfl, rfl, rfl, (hwritten.fset (by simp) 1).fset (by simp) 1⟩

/-! ### The copy of a row (R189) -/

/-- The registers that the copy of a row counts and reports in. -/
def copyFields : List Fld := [F.SCH_CNT_SCRUB_COUNT, F.SCH_EVT_CE, F.SCH_EVT_ROW_HOT, F.SCH_EVT_UE]

/-- From s to t no mapping of slice c changes, no other slice, and no register but those of a copy. -/
structure rowsKept (c : Nat) (s t : State) : Prop where
  rowMap : (t.clause c).rowMap = (s.clause c).rowMap
  other : ∀ d, d ≠ c → t.clause d = s.clause d
  fields : onlyFields copyFields s t

theorem rowsKept.refl (c : Nat) (s : State) : rowsKept c s s := ⟨rfl, fun _ _ => rfl, onlyFields.refl _ s⟩

theorem rowsKept.trans {c : Nat} {s t u : State} (h : rowsKept c s t) (g : rowsKept c t u) : rowsKept c s u :=
  ⟨g.rowMap.trans h.rowMap, fun d hd => (g.other d hd).trans (h.other d hd), h.fields.trans g.fields⟩

theorem rowsKept.foldl {α : Type} {c : Nat} {f : State → α → State} (hf : ∀ t a, rowsKept c t (f t a)) (l : List α) (s : State) :
    rowsKept c s (l.foldl f s) :=
  List.foldlRecOn l f (motive := rowsKept c s) (.refl c s) fun _ ht _ _ => ht.trans (hf _ _)

theorem rowsKept_fresh (c : Nat) (s : State) : rowsKept c s s.fresh.2 := ⟨rfl, fun _ _ => rfl, fun _ _ => rfl⟩

theorem rowsKept_modClause {c : Nat} {g : Clause → Clause} (s : State) (h : (g (s.clause c)).rowMap = (s.clause c).rowMap) :
    rowsKept c s (s.modClause c g) :=
  ⟨by rw [State.clause_modClause_same, h], fun _ hd => State.clause_modClause_ne _ _ hd, onlyFields.refl _ s⟩

theorem rowsKept_setSchMark (c row word m : Nat) (s : State) : rowsKept c s (setSchMark c row word m s) :=
  rowsKept_modClause s rfl

theorem rowsKept_raise {f : Fld} (c src code : Nat) (payload : List Nat) (s : State) (hf : f ∈ copyFields) :
    rowsKept c s (s.raise f src code payload) :=
  ⟨congrArg Clause.rowMap (State.clause_raise _ _ _ _ _ _), fun _ _ => State.clause_raise _ _ _ _ _ _,
    (onlyFields.refl _ s).raise hf _ _ _⟩

theorem rowsKept_schCorrected (c row word : Nat) (s : State) : rowsKept c s (schCorrected c row word true s) := by
  obtain ⟨hclause, hother, -, hfields⟩ := schCorrected_corrects c row word true s
  exact ⟨by rw [hclause]; rfl, hother, hfields.mono (by decide)⟩

theorem rowsKept_rmapCopy (c row : Nat) (s : State) : rowsKept c s (rmapCopy c row s) := by
  refine rowsKept.foldl (fun t e => ?_) _ s
  dsimp only
  split
  · have hreport : ∀ (u : State) (kind : Nat), rowsKept c u ((u.modClause c fun x => { x with ue := satSucc 32 x.ue }).raise
        F.SCH_EVT_UE 6 2 ([c, row, e.1 % 128, kind] ++ w64 t.seq.step)) := fun u kind =>
      (rowsKept_modClause u rfl).trans (rowsKept_raise c 6 2 _ _ (by decide))
    cases locKind row (e.1 % 128) with
    | none => exact (rowsKept_fresh c t).trans (hreport t.freshNat.2 t.freshNat.1)
    | some k => exact hreport t k
  · exact (rowsKept_schCorrected _ _ _ t).trans (rowsKept_setSchMark _ _ _ _ _)

theorem rowsKept_putLocation (c row word : Nat) (v : QWord) (s : State) : rowsKept c s (putLocation c row word v s) := by
  refine rowsKept_modClause s ?_
  dsimp only
  split_ifs <;> rfl

theorem rowsKept_copyAsRead (c row word : Nat) (s : State) : rowsKept c s (copyAsRead c row word s) :=
  ((rowsKept_fresh c s).trans (rowsKept_putLocation c row word s.fresh.1 s.fresh.2)).trans (rowsKept_setSchMark c row word 0 _)

/-! ### RMAP_COMPLETE (R189) -/

/-- The request in progress is over: GO and RMAP_BUSY read 0. -/
def rmapOver (s : State) : State :=
  (({ s with sch := { s.sch with rmap := none } } : State).fset F.SCH_RMAP_GO 0).fset F.SCH_STAT_RMAP_BUSY 0

/-- What row mapping takes from the copy of the row: the spare row, and the state that has used its choice (log 4). -/
def rmapTaken (c row : Nat) (s : State) : Nat × State := (rmapCopy c row (rmapOver s)).pick (s.freeRows c)

/-- The uncorrectable locations of a row are copied as they were read (R189). -/
def rowCopied (c row : Nat) (l : Kv Nat) (s : State) : State := l.foldl (fun s e => copyAsRead c row (e.1 % 128) s) s

theorem rowsKept_rowCopied (c row : Nat) (l : Kv Nat) (s : State) : rowsKept c s (rowCopied c row l s) := by
  refine rowsKept.foldl (fun t e => ?_) l s
  exact rowsKept_copyAsRead c row (e.1 % 128) t

theorem sch_rowCopied (c row : Nat) (l : Kv Nat) (s : State) : (rowCopied c row l s).sch = s.sch := by
  refine foldl_same State.sch (fun t e => ?_) l s
  exact (copyAsRead_frame c row (e.1 % 128) (Fr.refl 0x410 t) rfl).h_sch rfl

/-- The spare row holds what was read of the row. -/
def rmapFilled (c row : Nat) (s : State) : State :=
  rowCopied c row ((s.clause c).schBad.filter fun e => e.1 / 128 == row && e.2 == 2) (rmapTaken c row s).2

/-- The row is mapped to a spare row, which the copy has written with fresh check bits. -/
def rowMapped (c row k : Nat) (s : State) : State :=
  s.modClause c fun x => { x with
    rowMap := kvSet none x.rowMap row (some k), schBad := kvDrop x.schBad (128 * (9216 + k)) (128 * (9217 + k)) }

theorem rmapEnd_of_verified {c row m : Nat} {s : State} (h : s.sch.rmap = some (c, row)) (hm : m < 2) : rmapEnd m s =
    rmapReport c row (rmapTaken c row s).1 0 (rowMapped c row (rmapTaken c row s).1 (rmapFilled c row s)) := by
  simp only [rmapEnd, h]
  rw [if_neg (by omega)]
  rfl

theorem rmapEnd_of_mismatch {c row m : Nat} {s : State} (h : s.sch.rmap = some (c, row)) (hm : 2 ≤ m) : rmapEnd m s =
    rmapReport c row (rmapTaken c row s).1 4 (rmapTaken c row s).2 := by
  simp only [rmapEnd, h]
  rw [if_pos hm]
  rfl

/-- The end of a request whose work left a state u: GO and RMAP_BUSY read 0, and its result is reported. What firmware then
records (R596) changes none of it. -/
theorem rmapReport_ends {c row k result : Nat} {s t u : State} (ht : t = actsLog (rmapReport c row k result u))
    (hresult : result < 256) (hsch : u.sch.rmap = none) (hfields : onlyFields copyFields (rmapOver s) u) :
    t.sch.rmap = none ∧ t.fget F.SCH_RMAP_GO = 0 ∧ t.fget F.SCH_STAT_RMAP_BUSY = 0 ∧ t.fget F.SCH_RMAP_RESULT = result ∧
      t.fget F.SCH_EVT_RMAP = 1 ∧ ∀ d, t.clause d = u.clause d := by
  obtain ⟨hr, hevt, hclauses, hsch', honly⟩ := rmapReport_reports c row k u hresult
  have hlog : Fr 0x400040 (rmapReport c row k result u) t := ht ▸ actsLog_frame (Fr.refl _ _) rfl
  have hfget := hlog.fget (by decide)
  refine ⟨(congrArg Sch.rmap ((hlog.h_sch rfl).trans hsch')).trans hsch, (hfget _).trans ?_, (hfget _).trans ?_,
    (hfget _).trans hr, (hfget _).trans hevt, State.clause_congr ((hlog.h_clauses rfl).trans hclauses)⟩
  · exact (honly _ (by decide)).trans ((hfields _ (by decide)).trans ((State.fget_fset_ne _ _ (by decide)).trans (State.fget_fset_same _ _ 0)))
  · exact (honly _ (by decide)).trans ((hfields _ (by decide)).trans (State.fget_fset_same _ _ 0))

/-- A free spare row that is taken serves no row. -/
theorem rmapTaken_free {c : Nat} (row : Nat) {s : State} (h : s.rowFree c ≠ 0) :
    (rmapTaken c row s).1 < 256 ∧ ∀ r, s.spareOf c r ≠ some (rmapTaken c row s).1 := by
  obtain ⟨hlt, hfree⟩ := mem_freeRows.mp (pick_mem (rmapCopy c row (rmapOver s)) (freeRows_ne_nil h))
  exact ⟨hlt, fun r hr => hfree (mem_spareRows_of_spareOf hr)⟩

/-- The mapping of a row, in the rows that a slice reads. -/
theorem spareOf_of_rowMap {c row k : Nat} {s t : State} (h : (t.clause c).rowMap = kvSet none (s.clause c).rowMap row (some k)) :
    t.spareOf c row = some k ∧ ∀ r, r ≠ row → t.spareOf c r = s.spareOf c r := by
  simp only [State.spareOf, h, kvGet_kvSet]
  exact ⟨by rw [if_pos trivial]; rfl, fun r hr => by rw [if_neg hr]⟩

/-- A row that no mapping names takes one spare row from its slice. -/
theorem rowFree_of_rowMap {c row k : Nat} {s t : State} (h : (t.clause c).rowMap = kvSet none (s.clause c).rowMap row (some k))
    (hnew : ∀ e, e ∈ (s.clause c).rowMap → e.1 ≠ row) : t.rowFree c = s.rowFree c - 1 := by
  have hlen : (t.clause c).rowMap.length = (s.clause c).rowMap.length + 1 := by
    rw [h, kvSet, if_neg (by simp), length_kvInsert _ hnew]
  unfold State.rowFree
  omega

theorem rmapCopy_of_clean {c row : Nat} {s : State} (h : (s.clause c).schBad.filter (fun e => e.1 / 128 == row) = []) :
    rmapCopy c row s = s := by
  unfold rmapCopy
  rw [h]
  rfl

theorem rowsKept_rmapTaken (c row : Nat) (s : State) : rowsKept c (rmapOver s) (rmapTaken c row s).2 :=
  (rowsKept_rmapCopy c row (rmapOver s)).trans (rowsKept_fresh c _)

theorem rowsKept_rmapFilled (c row : Nat) (s : State) : rowsKept c (rmapOver s) (rmapFilled c row s) :=
  (rowsKept_rmapTaken c row s).trans (rowsKept_rowCopied c row _ _)

theorem sch_rmapTaken (c row : Nat) (s : State) : (rmapTaken c row s).2.sch = { s.sch with rmap := none } :=
  (State.pick_frame (s.freeRows c) (rmapCopy_frame c row (Fr.refl 0x80400490 (rmapOver s)) rfl) rfl).h_sch rfl

theorem sch_rmapFilled (c row : Nat) (s : State) : (rmapFilled c row s).sch = { s.sch with rmap := none } :=
  (sch_rowCopied c row _ _).trans (sch_rmapTaken c row s)

theorem leads_rmapComplete (m c row : Nat) (s : State) (h : s.sch.rmap = some (c, row)) : leads (.rmapComplete m) s fun t =>
      t.sch.rmap = none ∧ t.fget F.SCH_RMAP_GO = 0 ∧ t.fget F.SCH_STAT_RMAP_BUSY = 0 ∧
      t.fget F.SCH_RMAP_RESULT = (if m < 2 then 0 else 4) ∧ t.fget F.SCH_EVT_RMAP = 1 ∧
      (m < 2 → s.rowFree c ≠ 0 → ∃ k, k < 256 ∧ t.spareOf c row = some k ∧ ∀ r, s.spareOf c r ≠ some k) ∧
      (m < 2 → (∀ e, e ∈ (s.clause c).rowMap → e.1 ≠ row) → t.rowFree c = s.rowFree c - 1) ∧
      (2 ≤ m → t.spareOf c row = s.spareOf c row ∧ t.rowFree c = s.rowFree c) ∧
      (2 ≤ m → (s.clause c).schBad.filter (fun e => e.1 / 128 == row) = [] → t.clause c = s.clause c) ∧
      (∀ r, r ≠ row → t.spareOf c r = s.spareOf c r) ∧ (∀ d, d ≠ c → t.clause d = s.clause d) ∧ t.seq = s.seq ∧
      t.mem = s.mem := by
  obtain ⟨t, ht⟩ : ∃ t, t = actsLog (rmapEnd m s) := ⟨_, rfl⟩
  have hfr : Fr 0x804014d0 s t := ht ▸ actsLog_frame (rmapEnd_frame m (Fr.refl _ s) rfl) rfl
  refine leads_of (congrArg Host.Outcome.next ht.symm) ?_
  by_cases hm : m < 2
  · have hfilled := rowsKept_rmapFilled c row s
    rw [rmapEnd_of_verified h hm] at ht
    obtain ⟨hidle, hgo, hbusy, hresult, hevt, hclause⟩ :=
      rmapReport_ends (s := s) ht (by decide) (congrArg Sch.rmap (sch_rmapFilled c row s)) hfilled.fields
    have hmap : (t.clause c).rowMap = kvSet none (s.clause c).rowMap row (some (rmapTaken c row s).1) := by
      rw [hclause, rowMapped, State.clause_modClause_same]
      exact congrArg (fun map => kvSet none map row (some (rmapTaken c row s).1)) hfilled.rowMap
    obtain ⟨hrow, hrows⟩ := spareOf_of_rowMap hmap
    refine ⟨hidle, hgo, hbusy, by rw [hresult, if_pos hm], hevt, fun _ hfree => ?_, fun _ hnew => rowFree_of_rowMap hmap hnew,
      fun hge => absurd hge (by omega), fun hge => absurd hge (by omega), hrows, fun d hd => ?_, hfr.h_seq rfl, hfr.h_mem rfl⟩
    · obtain ⟨hlt, hnone⟩ := rmapTaken_free row hfree
      exact ⟨_, hlt, hrow, hnone⟩
    · exact (hclause d).trans ((State.clause_modClause_ne _ _ hd).trans (hfilled.other d hd))
  · have htaken := rowsKept_rmapTaken c row s
    rw [rmapEnd_of_mismatch h (not_lt.mp hm)] at ht
    obtain ⟨hidle, hgo, hbusy, hresult, hevt, hclause⟩ :=
      rmapReport_ends (s := s) ht (by decide) (congrArg Sch.rmap (sch_rmapTaken c row s)) htaken.fields
    have hmap : (t.clause c).rowMap = (s.clause c).rowMap := by
      rw [hclause]
      exact htaken.rowMap
    have hrows := spareOf_congr hmap
    refine ⟨hidle, hgo, hbusy, by rw [hresult, if_neg hm], hevt, fun hlt => absurd hlt hm, fun hlt => absurd hlt hm,
      fun _ => ⟨congrFun hrows row, rowFree_congr hmap⟩, fun _ hclean => ?_, fun r _ => congrFun hrows r,
      fun d hd => (hclause d).trans (htaken.other d hd), hfr.h_seq rfl, hfr.h_mem rfl⟩
    rw [hclause, rmapTaken, rmapCopy_of_clean (s := rmapOver s) hclean]
    rfl

/-- Settles O21: a request is refused (`rmapRefusal_of_rule`) or runs; its end maps the row to a spare row that serves none
(`rmapTaken_free`, `spareOf_of_rowMap`), or leaves every mapping (`rowsKept_rmapTaken`). -/
theorem rowsAreMapped : Obligations.RowsAreMapped := by
  unfold Obligations.RowsAreMapped
  exact ⟨leads_rmapRefused, leads_rmapRuns, leads_rmapComplete⟩

end Sys2Proof.Machine
end

section
/-! The answer of a service slot and the end of a load that is refused (R307, R312, R322, R326, R527, R528). -/
namespace Sys2Proof.Machine

/-! ### The answer of a slot (R527, R528) -/

/-- The first word of an item whose first word is put. -/
theorem fieldOf_putBits_low (w v : Nat) (hv : v < 2 ^ 32) : fieldOf (BitVec.ofNat 128 (putBits w 0 32 v)) 0 32 = v := by
  have hput : putBits w 0 32 v = v + 2 ^ 32 * (w >>> 32) := by
    simp only [putBits, Nat.pow_zero, Nat.mod_one, Nat.zero_add, Nat.mul_one, Nat.mod_eq_of_lt hv]
    ring
  rw [fieldOf, BitVec.toNat_ofNat, nbits, Nat.shiftRight_zero, Nat.mod_mod_of_dvd _ (by decide), hput, Nat.add_mul_mod_self_left,
    Nat.mod_eq_of_lt hv]

theorem reqTag_lt (s : State) (slot : Nat) : s.reqTag slot < 2 ^ 8 := Nat.mod_lt _ (Nat.two_pow_pos 8)

/-- The response item of a slot that is answered with no words of its own beside the first. -/
def slotAnswered (slot status ev : Nat) (s : State) : State :=
  { s.fresh.2.fresh.2 with mgt := { s.mgt with
    rsp := kvSet 0#128 (kvSet 0#128 s.mgt.rsp (2 * slot) (BitVec.ofNat 128
      (putBits s.fresh.1.toNat 0 32 (status * 2 ^ 24 + s.reqTag slot * 2 ^ 16 + ev)))) (2 * slot + 1) s.fresh.2.fresh.1
    taken := putBit s.mgt.taken slot false } }

theorem svcRespond_of_requested {slot : Nat} {s : State} (status ev : Nat) (hslot : slot < 4)
    (hgo : nbit (s.fget F.MGT_SVC_GO) slot = true) : svcRespond slot status ev [] s =
      ((slotAnswered slot status ev s).fset F.MGT_SVC_GO (putBit (s.fget F.MGT_SVC_GO) slot false)).raise F.MGT_EVT_SVC 2 4
        [slot, s.reqCode slot, status, s.reqTag slot] := by
  unfold svcRespond
  rw [if_neg (by simp [hslot, hgo])]
  simp only [List.getElem?_nil, List.foldl_fixed]
  rfl

theorem fieldOf_slotAnswered {slot status ev : Nat} (s : State) (hstatus : status < 2 ^ 8) (hev : ev < 2 ^ 16) :
    fieldOf (kvGet 0#128 (slotAnswered slot status ev s).mgt.rsp (2 * slot)) 0 32 =
      status * 2 ^ 24 + s.reqTag slot * 2 ^ 16 + ev := by
  have htag := reqTag_lt s slot
  rw [slotAnswered, kvGet_kvSet, if_neg (by omega), kvGet_kvSet, if_pos rfl]
  exact fieldOf_putBits_low _ _ (by omega)

/-- A slot with GO = 1 is answered. -/
theorem svcRespond_answered {slot status ev : Nat} (s : State) (hslot : slot < 4) (hgo : nbit (s.fget F.MGT_SVC_GO) slot = true)
    (hstatus : status < 2 ^ 8) (hev : ev < 2 ^ 16) : answered slot status ev [] s (svcRespond slot status ev [] s) := by
  have hitem := fieldOf_slotAnswered (slot := slot) s hstatus hev
  have hgone : ∀ k, k < 4 → nbit (((slotAnswered slot status ev s).fset F.MGT_SVC_GO
      (putBit (s.fget F.MGT_SVC_GO) slot false)).fget F.MGT_SVC_GO) k = (nbit (s.fget F.MGT_SVC_GO) k && k != slot) := by
    intro k hk
    refine (nbit_fset_putBit s F.MGT_SVC_GO false hk).trans ?_
    by_cases hks : k = slot <;> simp [hks]
  have hevq : (slotAnswered slot status ev s).evq = s.evq := rfl
  have hstep : (slotAnswered slot status ev s).seq = s.seq := rfl
  have htime : (slotAnswered slot status ev s).ptime = s.ptime := rfl
  have hen : (slotAnswered slot status ev s).fget (evten F.MGT_EVT_SVC) = s.fget (evten F.MGT_EVT_SVC) := rfl
  rw [svcRespond_of_requested status ev hslot hgo]
  generalize slotAnswered slot status ev s = u at *
  refine ⟨fun k hk => ?_, ?_, fun _ _ _ hd => absurd hd (by simp), State.fget_raise_same _ _ _ _ _, fun hon => ?_⟩
  · rw [State.fget_raise_ne _ _ _ _ (by decide)]
    exact hgone k hk
  · rwa [State.mgt_raise]
  · have hon' : (u.fset F.MGT_SVC_GO (putBit (s.fget F.MGT_SVC_GO) slot false)).fbit (evten F.MGT_EVT_SVC) = true := by
      rw [State.fbit, State.fget_fset_ne _ _ (by decide), hen]
      exact hon
    rw [State.evq_raise_on _ _ _ _ _ hon', List.getLast?_append, State.seq_raise, State.ptime_raise]
    rfl

/-- What an answer needs of the state it is given in. -/
theorem answered_from {slot status ev : Nat} {d : List Nat} {s u t : State} (h : answered slot status ev d u t)
    (hmgt : u.mgt = s.mgt) (hfields : ∀ f : Fld, f.block = 2 → u.fget f = s.fget f) : answered slot status ev d s t := by
  have hgo := hfields F.MGT_SVC_GO (by decide)
  have hen := hfields (evten F.MGT_EVT_SVC) (by decide)
  unfold answered State.reqTag State.reqCode State.reqA State.fbit at *
  rw [hmgt, hgo, hen] at h
  exact h

/-! ### A refused load (R307, R322, R326) -/

/-- What firmware abandons as a load is refused, with the reason it gives where the refusal names none. -/
def loadLeft (r : Ref) (j : LoadJob) (s : State) : Nat × State :=
  if r.reason.isNone then (loadAbandon j r.k s).freshNat else (0, loadAbandon j r.k s)

/-- The load is over, and requests for sparing that waited for its end are decided (R133, R306, R312). -/
def loadDropped (r : Ref) (j : LoadJob) (s : State) : State :=
  spareDecide { (loadLeft r j s).2 with load := { (loadLeft r j s).2.load with job := none } }

/-- A refused load as its registers and its event report it, before what asked for it is answered. -/
def loadReported (r : Ref) (j : LoadJob) (s : State) : State :=
  loadRaise r.k r.payload ((((loadDropped r j s).fset F.SCH_LOAD_RESULT (0x10 + r.k)).fset F.SCH_LOAD_REASON
    (r.reason.getD (loadLeft r j s).1)).fset F.SCH_LOAD_BUSY 0)

theorem loadRefuse_of_boot {r : Ref} {j : LoadJob} {s : State} (hjob : s.load.job = some j) (hboot : j.boot.isSome = true) :
    loadRefuse r s = bootFail (bootFailCode r.k (loadReported r j s)).1 (bootFailCode r.k (loadReported r j s)).2 := by
  simp only [loadRefuse, hjob, hboot, if_true, loadReported, loadDropped, loadLeft]

theorem loadRefuse_of_service {r : Ref} {j : LoadJob} {s : State} (hjob : s.load.job = some j) (hboot : j.boot = none) :
    loadRefuse r s = svcRespond j.slot 3 (0x10 + r.k) [] (loadReported r j s) := by
  simp only [loadRefuse, hjob, hboot, Option.isSome_none, Bool.false_eq_true, if_false, loadReported, loadDropped, loadLeft]

/-- A replaced loader part is outside a frame that leaves the loader out. -/
theorem Fr.withLoad {E : Nat} {s t : State} (h : Fr E s t) (x : Load) (hE : E.testBit 16 = true) : Fr E s { t with load := x } :=
  { h with h_load := fun hf => absurd (hf.symm.trans hE) (by decide) }

theorem loadLeft_frame (r : Ref) (j : LoadJob) (s : State) : Fr 0x1180031490 s (loadLeft r j s).2 := by
  have habandon := loadAbandon_frame j r.k (Fr.refl 0x1180031490 s) rfl
  unfold loadLeft
  split
  · exact State.freshNat_frame habandon rfl
  · exact habandon

theorem loadDropped_frame (r : Ref) (j : LoadJob) (s : State) : Fr 0x1180031490 s (loadDropped r j s) :=
  spareDecide_frame ((loadLeft_frame r j s).withLoad _ rfl) rfl

theorem loadDropped_job (r : Ref) (j : LoadJob) (s : State) : (loadDropped r j s).load.job = none := by
  have hload := (spareDecide_frame (Fr.refl 0x100000480
    { (loadLeft r j s).2 with load := { (loadLeft r j s).2.load with job := none } }) rfl).h_load rfl
  rw [loadDropped, hload]

theorem loadReported_frame (r : Ref) (j : LoadJob) (s : State) : Fr 0x1180031490 s (loadReported r j s) :=
  loadRaise_frame _ _ (State.fset_frame _ _ (State.fset_frame _ _ (State.fset_frame _ _ (loadDropped_frame r j s) rfl) rfl) rfl) rfl

/-- The event that reports a load's end is a field of another register than SCH_LOAD's. -/
theorem key_ne_ldevt (k : Nat) {f : Fld} (hf : f.key < 0x60006c * 32) : f.key ≠ (⟨0x60006c, k % 32, 1, 0⟩ : Fld).key := by
  have hkey : (⟨0x60006c, k % 32, 1, 0⟩ : Fld).key = 0x60006c * 32 + k % 32 := rfl
  omega

theorem fget_loadReported (r : Ref) (j : LoadJob) (s : State) :
    (loadReported r j s).fget F.SCH_LOAD_BUSY = 0 ∧ (loadReported r j s).fget F.SCH_LOAD_RESULT = (0x10 + r.k) % 256 ∧
      (∀ c, r.reason = some c → (loadReported r j s).fget F.SCH_LOAD_REASON = c % 256) ∧
      (loadReported r j s).fget ⟨0x60006c, r.k % 32, 1, 0⟩ = 1 := by
  unfold loadReported loadRaise
  generalize loadDropped r j s = u
  refine ⟨?_, ?_, fun c hc => ?_, State.fget_raise_same _ _ _ _ _⟩
  · rw [State.fget_raise_ne _ _ _ _ (key_ne_ldevt _ (by decide)), State.fget_fset_same]
    rfl
  · rw [State.fget_raise_ne _ _ _ _ (key_ne_ldevt _ (by decide)), State.fget_fset_ne _ _ (by decide),
      State.fget_fset_ne _ _ (by decide), State.fget_fset_same]
    rfl
  · rw [State.fget_raise_ne _ _ _ _ (key_ne_ldevt _ (by decide)), State.fget_fset_ne _ _ (by decide),
      State.fget_fset_same, hc]
    rfl

theorem loadReported_job (r : Ref) (j : LoadJob) (s : State) : (loadReported r j s).load.job = none := by
  simp only [loadReported, loadRaise, State.load_raise, State.load_fset, loadDropped_job]

/-- A failed boot writes the registers of the boot alone. -/
theorem onlyFields_bootFail (code : Nat) (s : State) :
    onlyFields [F.SCH_LOAD_BUSY, F.SCH_BOOT_FAIL, F.SCH_BOOT_SRC, F.SCH_LDEVT_RECOVERY] s (bootFail code s) := by
  have hover : onlyFields [F.SCH_LOAD_BUSY, F.SCH_BOOT_FAIL, F.SCH_BOOT_SRC, F.SCH_LDEVT_RECOVERY] s
      ({ s with load := { s.load with job := none } }.fset F.SCH_LOAD_BUSY 0) :=
    onlyFields.fset (fun _ _ => rfl) (by simp) 0
  unfold bootFail
  split
  · exact onlyFields.refl _ s
  · split
    · exact onlyFields.fset (onlyFields_to (hover.fset (by simp) code) rfl) (by simp) 1
    · dsimp only
      refine onlyFields.raise (onlyFields.fset (onlyFields_to hover ?_) (by simp) 3) (by simp) _ _ _
      rfl

/-- What a refused load leaves, whatever asked for it (R307, R326). -/
theorem loadRefuse_reports {r : Ref} {j : LoadJob} {s : State} (hjob : s.load.job = some j) (hk : r.k = 3) :
    (loadRefuse r s).fget F.SCH_LDEVT_FRAME = 1 := by
  obtain ⟨_, _, _, hevent⟩ := fget_loadReported r j s
  rw [hk] at hevent
  by_cases hboot : j.boot.isSome = true
  · have hcode := (bootFailCode_frame r.k (Fr.refl 0x10 (loadReported r j s)) rfl).fget (by decide) F.SCH_LDEVT_FRAME
    rw [loadRefuse_of_boot hjob hboot, onlyFields_bootFail _ _ _ (by decide), hcode]
    exact hevent
  · have hanswer := (svcRespond_frame j.slot 3 (0x10 + r.k) [] (Fr.refl 0x8400090 (loadReported r j s)) rfl).h_regs
      F.SCH_LDEVT_FRAME rfl
    rw [loadRefuse_of_service hjob (by simpa using hboot)]
    exact hanswer.trans hevent

/-- What a refused load leaves that a service asked for (R307, R326). -/
theorem loadRefuse_service {r : Ref} {j : LoadJob} {s : State} (hjob : s.load.job = some j) (hboot : j.boot = none) :
    (loadRefuse r s).load.job = none ∧ (loadRefuse r s).fget F.SCH_LOAD_BUSY = 0 ∧
      (loadRefuse r s).fget F.SCH_LOAD_RESULT = (0x10 + r.k) % 256 ∧
      ∀ c, r.reason = some c → (loadRefuse r s).fget F.SCH_LOAD_REASON = c % 256 := by
  have hanswer := svcRespond_frame j.slot 3 (0x10 + r.k) [] (Fr.refl 0x8400090 (loadReported r j s)) rfl
  obtain ⟨hbusy, hresult, hreason, _⟩ := fget_loadReported r j s
  rw [loadRefuse_of_service hjob hboot]
  exact ⟨by rw [hanswer.h_load rfl, loadReported_job], (hanswer.h_regs F.SCH_LOAD_BUSY rfl).trans hbusy,
    (hanswer.h_regs F.SCH_LOAD_RESULT rfl).trans hresult,
    fun c hc => (hanswer.h_regs F.SCH_LOAD_REASON rfl).trans (hreason c hc)⟩

/-- The service slot that asked for a refused load is answered (R307, R528). -/
theorem loadRefuse_answered {r : Ref} {j : LoadJob} {s : State} (hjob : s.load.job = some j) (hboot : j.boot = none)
    (hk : r.k < 16) (hslot : j.slot < 4) (hgo : nbit (s.fget F.MGT_SVC_GO) j.slot = true) :
    answered j.slot 3 (0x10 + r.k) [] s (loadRefuse r s) := by
  have hframe := loadReported_frame r j s
  rw [loadRefuse_of_service hjob hboot]
  exact answered_from (svcRespond_answered _ hslot ((congrArg (nbit · j.slot) (hframe.h_regs F.MGT_SVC_GO rfl)).trans hgo)
    (by decide) (by omega)) (hframe.h_mgt rfl) fun f hf => hframe.h_regs f (by rw [hf]; rfl)

end Sys2Proof.Machine
end

section
/-! What a frame is read from: memory of no errors, the flash, the host (R294, R297). -/
namespace Sys2Proof.Machine

/-! ### A read of memory in pieces (R216, R223) -/

/-- One piece of a read of user memory. -/
def readPiece (kind : Nat) (r : List Byte × Bool × State) (p : Nat × Nat) : List Byte × Bool × State :=
  let x := userRead (0x100 + kind) p.1 p.2 r.2.2
  (r.1 ++ x.1, r.2.1 && !x.2.1, x.2.2)

theorem nocRead_eq_foldl (kind a n : Nat) (s : State) : nocRead kind a n s = (memPieces a n).foldl (readPiece kind) ([], true, s) :=
  rfl

theorem userRead_of_clean (master a n : Nat) {s : State} (hbad : s.umem.bad = []) : userRead master a n s = (s.bytes a n, false, s) := by
  have hmark : s.memMark a = 0 := by
    rw [State.memMark, hbad]
    rfl
  simp [userRead, hmark]

theorem readPiece_of_clean (kind : Nat) (b : List Byte) (p : Nat × Nat) {s : State} (hbad : s.umem.bad = []) :
    readPiece kind (b, true, s) p = (b ++ s.bytes p.1 p.2, true, s) := by
  rw [readPiece, userRead_of_clean _ _ _ hbad]
  rfl

theorem foldl_readPiece_of_clean (kind : Nat) (ps : List (Nat × Nat)) (b : List Byte) {s : State} (hbad : s.umem.bad = []) :
    ps.foldl (readPiece kind) (b, true, s) = (b ++ ps.flatMap fun p => s.bytes p.1 p.2, true, s) := by
  induction ps generalizing b with
  | nil => simp
  | cons p ps ih => rw [List.foldl_cons, readPiece_of_clean _ _ _ hbad, ih, List.flatMap_cons, List.append_assoc]

theorem bytes_eq_map_range' (s : State) (a n : Nat) : s.bytes a n = (List.range' a n).map s.byteAt := by
  rw [State.bytes, List.range'_eq_map_range, List.map_map]
  rfl

/-- The first pieces of a range make up its addresses to the end of the last one. -/
theorem flatMap_pieces (a n k : Nat) :
    (List.range k).flatMap (fun i => List.range' (max a (wordBase a + 32 * i))
      (min (a + n) (wordBase a + 32 * (i + 1)) - max a (wordBase a + 32 * i))) =
      List.range' a (min (a + n) (wordBase a + 32 * k) - a) := by
  have hbase : wordBase a ≤ a := Nat.sub_le _ _
  induction k with
  | zero =>
    have hnone : min (a + n) (wordBase a + 32 * 0) - a = 0 := by omega
    rw [hnone]
    rfl
  | succ k ih =>
    rw [List.range_succ, List.flatMap_append, ih, List.flatMap_singleton]
    by_cases hend : wordBase a + 32 * k ≤ a + n
    · have hnext : max a (wordBase a + 32 * k) = a + (min (a + n) (wordBase a + 32 * k) - a) := by omega
      rw [hnext, List.range'_append_1]
      congr 1
      omega
    · rw [show min (a + n) (wordBase a + 32 * (k + 1)) - max a (wordBase a + 32 * k) = 0 by omega, List.range'_zero,
        List.append_nil]
      congr 1
      omega

theorem flatMap_memPieces (a n : Nat) : (memPieces a n).flatMap (fun p => List.range' p.1 p.2) = List.range' a n := by
  have hend : min (a + n) (wordBase a + 32 * ((a % 32 + n + 31) / 32)) - a = n := by
    unfold wordBase
    omega
  rw [memPieces, List.flatMap_map, flatMap_pieces, hend]

/-- A read of memory that holds no error gives its bytes and leaves the state as it is. -/
theorem nocRead_of_clean (kind a n : Nat) {s : State} (hbad : s.umem.bad = []) : nocRead kind a n s = (s.bytes a n, true, s) := by
  have hbytes : (memPieces a n).flatMap (fun p => s.bytes p.1 p.2) = s.bytes a n := by
    simp only [bytes_eq_map_range', ← List.map_flatMap, flatMap_memPieces]
  rw [nocRead_eq_foldl, foldl_readPiece_of_clean _ _ _ hbad, hbytes, List.nil_append]

theorem le_of_mem_memPieces {a n : Nat} {p : Nat × Nat} (hp : p ∈ memPieces a n) : a ≤ p.1 := by
  obtain ⟨i, _, rfl⟩ := List.mem_map.1 hp
  exact le_max_left _ _

/-- A range of HBM lies in no bank of the lexicon. -/
theorem lexBanks_of_isHbm {a : Nat} (n : Nat) (ha : isHbm a = true) : lexBanks a n = [] := by
  have hlow : 0x001000000000 ≤ a := by
    simp only [isHbm, Bool.and_eq_true, decide_eq_true_eq] at ha
    exact ha.1
  have hnone : (memPieces a n).filter (fun p => isLex p.1) = [] := by
    refine List.filter_eq_nil_iff.2 fun p hp => ?_
    have hle := le_of_mem_memPieces hp
    simp only [isLex, Bool.and_eq_true, decide_eq_true_eq]
    omega
  rw [lexBanks, hnone]
  rfl

theorem portRead_of_clean_hbm {kind a n : Nat} {s : State} (ha : isHbm a = true) (hbad : s.umem.bad = []) :
    portRead kind a n s = (s.bytes a n, true, s) := by
  rw [portRead, lexWait, lexBanks_of_isHbm n ha]
  exact nocRead_of_clean kind a n hbad

/-! ### The frame that is read (R294) -/

theorem loadBytes_of_flash {j : LoadJob} {src : Nat} (hboot : j.boot = some src) (bytes : List Byte) (ok : Bool) (s : State) :
    loadBytes j bytes ok s = (if ok then some (s.flashRead (slotBase src + 528 * j.wire) 528) else none, s) := by
  simp only [loadBytes, hboot]

theorem loadBytes_of_host {j : LoadJob} (hboot : j.boot = none) (huser : isUser (j.addr + 528 * j.wire) = false) (bytes : List Byte)
    (ok : Bool) (s : State) : loadBytes j bytes ok s = (if ok then some bytes else none, s) := by
  simp [loadBytes, hboot, huser]

theorem loadBytes_of_hbm {j : LoadJob} {s : State} (hboot : j.boot = none) (hhbm : isHbm (j.addr + 528 * j.wire) = true)
    (hbad : s.umem.bad = []) (bytes : List Byte) (ok : Bool) :
    loadBytes j bytes ok s = (if ok then some (s.bytes (j.addr + 528 * j.wire) 528) else none, s) := by
  have huser : isUser (j.addr + 528 * j.wire) = true := by rw [isUser, hhbm, Bool.or_true]
  simp [loadBytes, hboot, huser, portRead_of_clean_hbm hhbm hbad]

end Sys2Proof.Machine
end

section
/-! FRAME_RECEIVE (R296 to R298, R307). -/
namespace Sys2Proof.Machine

/-! ### What becomes of a frame -/

/-- The load with the position of the frame that is read (R325). -/
def framePosed (j : LoadJob) (s : State) : State :=
  { s with load := { s.load with posWire := 528 * j.wire, posSect := j.expect.sect, posAddr := j.expect.addr } }

/-- The loader expects a frame and can read it. -/
structure frameDue (j : LoadJob) (s : State) : Prop where
  stage : j.stage = .header ∨ j.stage = .directory ∨ (j.stage = .sections ∧ s.reloadWaits j = false)
  memory : j.boot = none → s.rangeHeld (j.addr + 528 * j.wire) 528 = false
  flash : j.boot.isSome = true → s.mgt.flReset = 0

theorem frameDue.not_held {j : LoadJob} {s : State} (h : frameDue j s) :
    ¬(j.stage = .waiting ∨ j.stage = .links ∨ (j.stage = .sections ∧ s.reloadWaits j = true) ∨
      (j.boot = none ∧ s.rangeHeld (j.addr + 528 * j.wire) 528 = true) ∨ (j.boot.isSome = true ∧ 0 < s.mgt.flReset)) := by
  obtain ⟨hstage, hmemory, hflash⟩ := h
  rintro (hw | hl | ⟨hs, hr⟩ | ⟨hb, hr⟩ | ⟨hb, hr⟩)
  · simp [hw] at hstage
  · simp [hl] at hstage
  · simp [hs, hr] at hstage
  · exact absurd (hmemory hb) (by simp [hr])
  · exact absurd (hflash hb) (by omega)

theorem frameReceive_of_idle {s : State} (hjob : s.load.job = none) (bytes : List Byte) (ok : Bool) :
    frameReceive bytes ok s = s := by
  rw [frameReceive, hjob]

theorem frameReceive_of_held {j : LoadJob} {s : State} (hjob : s.load.job = some j)
    (h : j.stage = .waiting ∨ j.stage = .links ∨ (j.stage = .sections ∧ s.reloadWaits j = true) ∨
      (j.boot = none ∧ s.rangeHeld (j.addr + 528 * j.wire) 528 = true) ∨ (j.boot.isSome = true ∧ 0 < s.mgt.flReset))
    (bytes : List Byte) (ok : Bool) : frameReceive bytes ok s = s := by
  simp only [frameReceive, hjob, if_pos h]

section
variable {j : LoadJob} {r : Option (List Byte)} {bytes : List Byte} {ok : Bool} {s : State}

theorem frameReceive_of_bad (hjob : s.load.job = some j) (hdue : frameDue j s) (hread : loadBytes j bytes ok s = (r, s))
    (hbad : r.bind frameOf = none) : frameReceive bytes ok s = frameBad j (framePosed j s) := by
  unfold frameReceive
  rw [hjob]
  simp only [if_neg hdue.not_held, hread, hbad, framePosed]

theorem frameReceive_of_fault {f : Frame} {c : Nat} (hjob : s.load.job = some j) (hdue : frameDue j s)
    (hread : loadBytes j bytes ok s = (r, s)) (hframe : r.bind frameOf = some f) (hfault : frameFault j.expect f = some c) :
    frameReceive bytes ok s = loadRefuse ⟨3, some c, [f.sect] ++ w64 f.addr ++ [c]⟩ (framePosed j s) := by
  unfold frameReceive
  rw [hjob]
  simp only [if_neg hdue.not_held, hread, hframe, hfault, framePosed]

/-- A frame that breaks no rule is taken as the stage of the load says. -/
def stageFrame (f : Frame) (j : LoadJob) (s : State) : State :=
  match j.stage with
  | .header => headerFrame f j s
  | .directory => directoryFrame f j s
  | .sections => sectionFrame f j s
  | .waiting | .links => s

theorem frameReceive_of_frame {f : Frame} (hjob : s.load.job = some j) (hdue : frameDue j s)
    (hread : loadBytes j bytes ok s = (r, s)) (hframe : r.bind frameOf = some f) (hfault : frameFault j.expect f = none) :
    frameReceive bytes ok s = stageFrame f j (framePosed j s) := by
  unfold frameReceive
  rw [hjob]
  simp only [if_neg hdue.not_held, hread, hframe, hfault]
  rfl

end

theorem framePosed_frame {E : Nat} (hE : E.testBit 16 = true) (j : LoadJob) (s : State) : Fr E s (framePosed j s) :=
  (Fr.refl E s).withLoad _ hE

/-- What a frame that is taken leaves: the load goes on, and no clause, step, byte of memory or record changes. -/
theorem setJob_steady {s u : State} (k : LoadJob) (h : Fr 0x10000 s u) :
    steady s (u.setJob k) ∧ (u.setJob k).evq = s.evq ∧ onlyFields [] s (u.setJob k) :=
  have hframe := State.setJob_frame k h rfl
  ⟨⟨hframe.h_seq rfl, hframe.h_clauses rfl, hframe.h_mem rfl⟩, hframe.h_evq rfl, onlyFields.of_frame [] (by decide) hframe⟩

/-! ### A bad frame, and a frame that is refused (R296, R297) -/

/-- A bad frame is reported, and its next attempt is due. -/
def frameBadNoted (j : LoadJob) (s : State) : State :=
  let u := loadRaise 2 ([j.expect.sect] ++ w64 j.expect.addr ++ [j.attempt]) s
  { u with load := { u.load with
    job := some { j with attempt := j.attempt + 1, bad := j.bad + 1 }
    info := (List.range 3).map (u.load.info.getD · 0) ++ [j.bad + 1] } }

theorem frameBad_eq (j : LoadJob) (s : State) : frameBad j s = if j.attempt < 4 then frameBadNoted j s else
    loadRefuse ⟨3, some 1, [j.expect.sect] ++ w64 j.expect.addr ++ [1]⟩ (frameBadNoted j s) := rfl

theorem frameBadNoted_frame (j : LoadJob) (s : State) : Fr 0x80010080 s (frameBadNoted j (framePosed j s)) :=
  (loadRaise_frame 2 _ (framePosed_frame (E := 0x80010080) rfl j s) rfl).withLoad _ rfl

theorem frameBadNoted_reports (j : LoadJob) (s : State) :
    posted F.SCH_LDEVT_FRAME_BAD 6 0x12 ([j.expect.sect] ++ w64 j.expect.addr ++ [j.attempt]) s (frameBadNoted j (framePosed j s)) ∧
      onlyFields [F.SCH_LDEVT_FRAME_BAD] s (frameBadNoted j (framePosed j s)) := by
  have hposted := State.raise_posted (framePosed j s) F.SCH_LDEVT_FRAME_BAD 6 0x12
    ([j.expect.sect] ++ w64 j.expect.addr ++ [j.attempt]) rfl
  have honly := (onlyFields.of_frame [F.SCH_LDEVT_FRAME_BAD] (by decide) (framePosed_frame (E := 0x10000) rfl j s)).raise
    (List.mem_singleton_self _) 6 0x12 ([j.expect.sect] ++ w64 j.expect.addr ++ [j.attempt])
  exact ⟨posted_to (posted_from hposted rfl rfl rfl rfl) rfl rfl, onlyFields_to honly rfl⟩

/-- A load is refused with LOAD_FRAME and a reason: the service slot that asked for it is answered (R297, R307). -/
def frameRefused (j : LoadJob) (c : Nat) (s t : State) : Prop :=
  t.fget F.SCH_LDEVT_FRAME = 1 ∧
    (j.boot = none → t.load.job = none ∧ t.fget F.SCH_LOAD_BUSY = 0 ∧ t.fget F.SCH_LOAD_RESULT = 0x13 ∧
      t.fget F.SCH_LOAD_REASON = c ∧
      (j.slot < 4 → nbit (s.fget F.MGT_SVC_GO) j.slot = true → answered j.slot 3 0x13 [] s t))

theorem loadRefuse_frameRefused {j k : LoadJob} {c : Nat} {s u : State} (p : List Nat) (hjob : u.load.job = some k)
    (hslot : k.slot = j.slot) (hboot : k.boot = j.boot) (hc : c < 256) (h : Fr 0x80010080 s u) :
    frameRefused j c s (loadRefuse ⟨3, some c, p⟩ u) := by
  refine ⟨loadRefuse_reports hjob rfl, fun hservice => ?_⟩
  obtain ⟨hdone, hbusy, hresult, hreason⟩ := loadRefuse_service (r := ⟨3, some c, p⟩) hjob (hboot.trans hservice)
  refine ⟨hdone, hbusy, hresult, (hreason c rfl).trans (Nat.mod_eq_of_lt hc), fun hs hgo => ?_⟩
  have hanswered := loadRefuse_answered (r := ⟨3, some c, p⟩) hjob (hboot.trans hservice) (show 3 < 16 by decide) (hslot ▸ hs)
    ((congrArg (nbit · k.slot) (h.h_regs F.MGT_SVC_GO rfl)).trans (hslot ▸ hgo))
  rw [← hslot]
  exact answered_from hanswered (h.h_mgt rfl) fun f hf => h.h_regs f (by rw [hf]; rfl)

/-- The reasons of R297 are codes of one byte. -/
theorem frameFault_lt {x : Expect} {f : Frame} {c : Nat} (h : frameFault x f = some c) : c < 256 := by
  obtain ⟨e, hfind, rfl⟩ := Option.map_eq_some_iff.1 h
  have hmem := List.mem_of_find?_eq_some hfind
  simp only [frameRules, List.mem_cons, List.not_mem_nil, or_false] at hmem
  obtain rfl | rfl | rfl | rfl | rfl | rfl | rfl := hmem <;> simp

/-- A frame that cannot be read, or fails its CRC, is read again up to three times (R296). -/
theorem frameBad_bad (j : LoadJob) (s : State) :
    if j.attempt < 4 then
      (frameBad j (framePosed j s)).load.job = some { j with attempt := j.attempt + 1, bad := j.bad + 1 } ∧
      posted F.SCH_LDEVT_FRAME_BAD 6 0x12 ([j.expect.sect] ++ w64 j.expect.addr ++ [j.attempt]) s (frameBad j (framePosed j s)) ∧
      steady s (frameBad j (framePosed j s)) ∧ onlyFields [F.SCH_LDEVT_FRAME_BAD] s (frameBad j (framePosed j s))
    else frameRefused j 1 s (frameBad j (framePosed j s)) := by
  have hframe := frameBadNoted_frame j s
  obtain ⟨hposted, honly⟩ := frameBadNoted_reports j s
  rw [frameBad_eq]
  split
  · exact ⟨rfl, hposted, ⟨hframe.h_seq rfl, hframe.h_clauses rfl, hframe.h_mem rfl⟩, honly⟩
  · exact loadRefuse_frameRefused _ rfl rfl rfl (by decide) hframe

end Sys2Proof.Machine
end

section
/-! The frames that a load takes, by its stage (R298, R301, R303 to R306, R310). -/
namespace Sys2Proof.Machine

/-! ### Header and directory -/

/-- The header frame of a DESIGN or a RELOAD waits to begin (R310). -/
theorem headerFrame_waits {f : Frame} (j : LoadJob) (s : State) (hcls : hdrClass f.payload = 2 ∨ hdrClass f.payload = 3) :
    (headerFrame f j (framePosed j s)).load.job =
        some { j with hdr := f.payload, wire := j.wire + 1, attempt := 1, stage := .waiting } ∧
      (headerFrame f j (framePosed j s)).fget F.SCH_LOAD_CLASS = hdrClass f.payload ∧
      steady s (headerFrame f j (framePosed j s)) ∧ (headerFrame f j (framePosed j s)).evq = s.evq ∧
      onlyFields [F.SCH_LOAD_CLASS] s (headerFrame f j (framePosed j s)) := by
  have hwaits : headerFrame f j (framePosed j s) = ((framePosed j s).fset F.SCH_LOAD_CLASS (hdrClass f.payload % 16)).setJob
      { j with hdr := f.payload, wire := j.wire + 1, attempt := 1, stage := .waiting } := if_pos hcls
  have hclass : hdrClass f.payload % 16 % 2 ^ 4 = hdrClass f.payload := by omega
  have honly := (onlyFields.of_frame [F.SCH_LOAD_CLASS] (by decide) (framePosed_frame (E := 0x10000) rfl j s)).fset
    (List.mem_singleton_self _) (hdrClass f.payload % 16)
  rw [hwaits]
  exact ⟨rfl, (State.fget_fset_same _ _ _).trans hclass, ⟨rfl, rfl, rfl⟩, rfl, onlyFields_to honly rfl⟩

/-- A directory frame that is not the last is appended. -/
theorem directoryFrame_of_not_last {f : Frame} {j : LoadJob} (s : State) (hlast : j.expect.isLast f = false) :
    directoryFrame f j s = s.setJob { j with
      content := j.content ++ f.content, wire := j.wire + 1, attempt := 1, frame := j.frame + 1, next := f.addr + f.rep } := by
  simp only [directoryFrame, hlast, Bool.not_false, if_true]

/-! ### Sections (R303 to R306) -/

/-- A frame of another device's section is passed over. -/
theorem sectionFrame_of_other {f : Frame} {j : LoadJob} {e : DirEnt} (s : State) (he : j.dir[j.sec]? = some e)
    (hother : e.ldev ≠ j.own) (hlast : j.expect.isLast f = false) :
    sectionFrame f j s = s.setJob { j with wire := j.wire + 1, attempt := 1, frame := j.frame + 1, next := f.addr + f.rep } := by
  simp only [sectionFrame, he, if_pos hother, hlast, Bool.false_eq_true, if_false]

/-- From s to t nothing of a clause but the contents of its slice changes, and no other clause. -/
structure sliceWritten (pc : Nat) (s t : State) : Prop where
  other : ∀ c, c ≠ pc → t.clause c = s.clause c
  loaded : (t.clause pc).loaded = (s.clause pc).loaded
  passed : (t.clause pc).passed = (s.clause pc).passed

theorem sliceWritten.refl (pc : Nat) (s : State) : sliceWritten pc s s := ⟨fun _ _ => rfl, rfl, rfl⟩

theorem sliceWritten.trans {pc : Nat} {s t u : State} (h : sliceWritten pc s t) (g : sliceWritten pc t u) : sliceWritten pc s u :=
  ⟨fun c hc => (g.other c hc).trans (h.other c hc), g.loaded.trans h.loaded, g.passed.trans h.passed⟩

theorem sliceWritten.foldl {α : Type} {pc : Nat} {f : State → α → State} (hf : ∀ t a, sliceWritten pc t (f t a)) (l : List α)
    (s : State) : sliceWritten pc s (l.foldl f s) :=
  List.foldlRecOn l f (motive := sliceWritten pc s) (.refl pc s) fun _ ht _ _ => ht.trans (hf _ _)

theorem sliceWritten_modClause {pc : Nat} {g : Clause → Clause} (s : State) (hloaded : ∀ x : Clause, (g x).loaded = x.loaded)
    (hpassed : ∀ x : Clause, (g x).passed = x.passed) : sliceWritten pc s (s.modClause pc g) :=
  ⟨fun _ hc => State.clause_modClause_ne _ _ hc, by rw [State.clause_modClause_same, hloaded],
    by rw [State.clause_modClause_same, hpassed]⟩

theorem sliceWritten_setSchMark (pc row word m : Nat) (s : State) : sliceWritten pc s (setSchMark pc row word m s) :=
  ⟨fun _ hc => clause_setSchMark_ne row word m s hc, by rw [clause_setSchMark_same], by rw [clause_setSchMark_same]⟩

theorem sliceWritten_dictWrite (pc e : Nat) (v : Word) (s : State) : sliceWritten pc s (dictWrite pc e v s) := by
  refine sliceWritten_modClause s ?_ ?_ <;> exact fun _ => rfl

/-- Units written to a slice, with fresh check bits for the locations of l. -/
theorem sliceWritten_cleaned {pc : Nat} {g : Clause → Clause} (l : List (Nat × Nat)) (s : State)
    (hloaded : ∀ x : Clause, (g x).loaded = x.loaded) (hpassed : ∀ x : Clause, (g x).passed = x.passed) :
    sliceWritten pc s (l.foldl (fun s e => setSchMark pc e.1 e.2 0 s) (s.modClause pc g)) := by
  refine (sliceWritten_modClause s hloaded hpassed).trans (sliceWritten.foldl (fun t e => ?_) l _)
  exact sliceWritten_setSchMark pc e.1 e.2 0 t

theorem sliceWritten_sliceUnit (xf pc ty k : Nat) (c : List Byte) (s : State) : sliceWritten pc s (sliceUnit xf pc ty k c s) := by
  unfold sliceUnit
  dsimp only
  split
  · refine sliceWritten_cleaned _ s ?_ ?_ <;> exact fun _ => rfl
  · split
    · refine sliceWritten_cleaned _ s ?_ ?_ <;> exact fun _ => rfl
    · refine (sliceWritten_modClause s ?_ ?_).trans (sliceWritten_dictWrite pc _ _ _) <;> exact fun _ => rfl

theorem sliceWritten_sliceUnits (xf pc ty lo hi : Nat) (c : List Byte) (s : State) :
    sliceWritten pc s (sliceUnits xf pc ty lo hi c s) :=
  sliceWritten.foldl (fun t k => sliceWritten_sliceUnit xf pc ty k c t) _ s

/-- The slice as an own plain frame of a clause section leaves it. -/
def sliceTaken (f : Frame) (j : LoadJob) (e : DirEnt) (s : State) : State :=
  sliceArrives j e j.content.length (j.content ++ f.content) (if j.frame = 0 then sliceBegin j e s else s)

/-- A frame of an own plain section is appended, and written into its clause's slice. -/
theorem sectionFrame_of_own {f : Frame} {j : LoadJob} {e : DirEnt} (s : State) (he : j.dir[j.sec]? = some e)
    (hown : e.ldev = j.own) (hplain : e.enc = false) (hbase : e.ty ≠ tyRimbase) (hpart : e.ty ≠ tyRimpart)
    (hlast : j.expect.isLast f = false) :
    sectionFrame f j s = (sliceTaken f j e s).setJob { j with
      wire := j.wire + 1, attempt := 1, frame := j.frame + 1, next := f.addr + f.rep
      key := if j.frame = 0 then [] else j.key, hashIn := j.hashIn ++ f.hashed, content := j.content ++ f.content } := by
  by_cases hfirst : j.frame = 0
  · simp only [sectionFrame, he, hown, ne_eq, not_true_eq_false, if_false, hfirst, if_true, State.sectionKey, hplain, Bool.not_false,
      hbase, hpart, or_self, Bool.false_and, Bool.false_eq_true, hlast, sliceTaken]
  · simp only [sectionFrame, he, hown, ne_eq, not_true_eq_false, if_false, hfirst, hplain, hbase, hpart, or_self, Bool.false_and,
      Bool.false_eq_true, hlast, sliceTaken]

theorem sliceOf_congr {s t : State} (h : t.load.img = s.load.img) (j : LoadJob) (e : DirEnt) : t.sliceOf j e = s.sliceOf j e := by
  rw [State.sliceOf, State.sliceOf, State.jobImg, State.jobImg, h]

theorem sliceTaken_frame {E : Nat} (f : Frame) (j : LoadJob) (e : DirEnt) {s u : State} (h : Fr E s u) (hE : Sub 0x400 E) :
    Fr E s (sliceTaken f j e u) :=
  sliceArrives_frame j e _ _ (.ite (sliceBegin_frame j e h hE) h) hE

/-- A section that lies in no slice leaves every clause. -/
theorem sliceTaken_of_none {j : LoadJob} {e : DirEnt} {s : State} (f : Frame) (hnone : s.sliceOf j e = none) :
    sliceTaken f j e s = s := by
  have hbegin : sliceBegin j e s = s := by rw [sliceBegin, hnone]
  rw [sliceTaken, hbegin, ite_self, sliceArrives, hnone]

/-- A section of a clause changes that clause alone, and its first frame unloads it (R306). -/
theorem sliceTaken_of_some {j : LoadJob} {e : DirEnt} {g : Img} {pc : Nat} {s : State} (f : Frame)
    (hsome : s.sliceOf j e = some (g, pc)) : (∀ c, c ≠ pc → (sliceTaken f j e s).clause c = s.clause c) ∧
      (j.frame = 0 → ((sliceTaken f j e s).clause pc).loaded = false ∧ ((sliceTaken f j e s).clause pc).passed = false) := by
  have hwritten : ∀ u : State, u.load.img = s.load.img → sliceWritten pc u
      (sliceArrives j e j.content.length (j.content ++ f.content) u) := by
    intro u hu
    rw [sliceArrives, sliceOf_congr hu, hsome]
    exact sliceWritten_sliceUnits _ _ _ _ _ _ _
  by_cases hfirst : j.frame = 0
  · have hbegin : sliceBegin j e s = s.modClause pc fun x => { x with loaded := false, passed := false } := by
      rw [sliceBegin, hsome]
    have h := hwritten (sliceBegin j e s) (by rw [(sliceBegin_frame j e (Fr.refl 0x400 s) rfl).h_load rfl])
    rw [sliceTaken, if_pos hfirst]
    exact ⟨fun c hc => (h.other c hc).trans (by rw [hbegin, State.clause_modClause_ne _ _ hc]),
      fun _ => ⟨h.loaded.trans (by rw [hbegin, State.clause_modClause_same]),
        h.passed.trans (by rw [hbegin, State.clause_modClause_same])⟩⟩
  · have h := hwritten s rfl
    rw [sliceTaken, if_neg hfirst]
    exact ⟨h.other, fun hzero => absurd hzero hfirst⟩

end Sys2Proof.Machine
end

section
/-! What FRAME_RECEIVE does with the frame that it reads (R294, R296, R297). -/
namespace Sys2Proof.Machine

/-- A frame that the host gives, that memory of no errors holds, or that the flash holds at boot (R294). -/
def frameSource (bytes : List Byte) (ok : Bool) (j : LoadJob) (r : Option (List Byte)) (a : Nat) (s : State) : Prop :=
  (j.boot = none ∧ isUser a = false ∧ s.rangeHeld a 528 = false ∧ r = (if ok then some bytes else none)) ∨
    (j.boot = none ∧ isHbm a = true ∧ isHbm (a + 527) = true ∧ s.rangeHeld a 528 = false ∧ s.umem.bad = [] ∧
      r = (if ok then some (s.bytes a 528) else none)) ∨
    (∃ src, j.boot = some src ∧ s.mgt.flReset = 0 ∧
      r = (if ok then some (s.flashRead (slotBase src + 528 * j.wire) 528) else none))

theorem frameSource.due {bytes : List Byte} {ok : Bool} {j : LoadJob} {r : Option (List Byte)} {s : State}
    (h : frameSource bytes ok j r (j.addr + 528 * j.wire) s)
    (hstage : j.stage = .header ∨ j.stage = .directory ∨ (j.stage = .sections ∧ s.reloadWaits j = false)) : frameDue j s := by
  obtain ⟨hboot, _, hheld, _⟩ | ⟨hboot, _, _, hheld, _, _⟩ | ⟨src, hboot, hflash, _⟩ := h
  · exact ⟨hstage, fun _ => hheld, fun hsome => absurd hsome (by simp [hboot])⟩
  · exact ⟨hstage, fun _ => hheld, fun hsome => absurd hsome (by simp [hboot])⟩
  · exact ⟨hstage, fun hnone => absurd hnone (by simp [hboot]), fun _ => hflash⟩

theorem frameSource.read {bytes : List Byte} {ok : Bool} {j : LoadJob} {r : Option (List Byte)} {s : State}
    (h : frameSource bytes ok j r (j.addr + 528 * j.wire) s) : loadBytes j bytes ok s = (r, s) := by
  obtain ⟨hboot, huser, _, rfl⟩ | ⟨hboot, hhbm, _, _, hbad, rfl⟩ | ⟨src, hboot, _, rfl⟩ := h
  · exact loadBytes_of_host hboot huser bytes ok s
  · exact loadBytes_of_hbm hboot hhbm hbad bytes ok
  · exact loadBytes_of_flash hboot bytes ok s

section
variable {f : Frame} {j : LoadJob} {s : State}

theorem stageFrame_header (hstage : j.stage = .header) (s : State) : stageFrame f j s = headerFrame f j s := by
  rw [stageFrame, hstage]

theorem stageFrame_directory (hstage : j.stage = .directory) (s : State) : stageFrame f j s = directoryFrame f j s := by
  rw [stageFrame, hstage]

theorem stageFrame_sections (hstage : j.stage = .sections) (s : State) : stageFrame f j s = sectionFrame f j s := by
  rw [stageFrame, hstage]

theorem stageFrame_of_directory (hstage : j.stage = .directory) (hlast : j.expect.isLast f = false) :
    stageFrame f j (framePosed j s) = (framePosed j s).setJob { j with
      content := j.content ++ f.content, wire := j.wire + 1, attempt := 1, frame := j.frame + 1, next := f.addr + f.rep } := by
  rw [stageFrame_directory hstage, directoryFrame_of_not_last _ hlast]

theorem stageFrame_of_other {e : DirEnt} (hstage : j.stage = .sections) (he : j.dir[j.sec]? = some e) (hother : e.ldev ≠ j.own)
    (hlast : j.expect.isLast f = false) : stageFrame f j (framePosed j s) =
      (framePosed j s).setJob { j with wire := j.wire + 1, attempt := 1, frame := j.frame + 1, next := f.addr + f.rep } := by
  rw [stageFrame_sections hstage, sectionFrame_of_other _ he hother hlast]

/-- What an own plain frame of a section leaves (R303 to R306). -/
theorem stageFrame_of_own {e : DirEnt} (hstage : j.stage = .sections) (he : j.dir[j.sec]? = some e) (hown : e.ldev = j.own)
    (hplain : e.enc = false) (hbase : e.ty ≠ tyRimbase) (hpart : e.ty ≠ tyRimpart) (hlast : j.expect.isLast f = false) :
    let t := stageFrame f j (framePosed j s)
    t.load.job = some { j with
        wire := j.wire + 1, attempt := 1, frame := j.frame + 1, next := f.addr + f.rep
        key := if j.frame = 0 then [] else j.key, hashIn := j.hashIn ++ f.hashed, content := j.content ++ f.content } ∧
      t.seq = s.seq ∧ t.mem = s.mem ∧ t.evq = s.evq ∧ onlyFields [] s t ∧ (s.sliceOf j e = none → t.clauses = s.clauses) ∧
      ∀ g pc, s.sliceOf j e = some (g, pc) → (∀ c, c ≠ pc → t.clause c = s.clause c) ∧
        (j.frame = 0 → (t.clause pc).loaded = false ∧ (t.clause pc).passed = false) := by
  have hframe := sliceTaken_frame f j e (framePosed_frame (E := 0x10400) rfl j s) rfl
  have hslice : (framePosed j s).sliceOf j e = s.sliceOf j e := sliceOf_congr rfl j e
  rw [stageFrame_sections hstage, sectionFrame_of_own _ he hown hplain hbase hpart hlast]
  refine ⟨rfl, hframe.h_seq rfl, hframe.h_mem rfl, hframe.h_evq rfl,
    onlyFields_to (onlyFields.of_frame [] (by decide) hframe) rfl, fun hnone => ?_, fun g pc hsome => ?_⟩
  · have hleft : (sliceTaken f j e (framePosed j s)).clauses = s.clauses := by
      rw [sliceTaken_of_none f (hslice.trans hnone), framePosed]
    exact hleft
  · exact sliceTaken_of_some f (hslice.trans hsome)

end

end Sys2Proof.Machine
end

section
/-! What the beginning of a DESIGN leaves (R195, R254, R310, R313, R545, R623). -/
namespace Sys2Proof.Machine

/-- What each step brings about for its element, and no step undoes, holds of every element after the steps. -/
theorem foldl_establishes {α : Type} {f : State → α → State} {P : α → State → Prop} (hdo : ∀ s a, P a (f s a))
    (hkeep : ∀ s a b, P a s → P a (f s b)) {l : List α} {a : α} (ha : a ∈ l) (s : State) : P a (l.foldl f s) := by
  induction l generalizing s with
  | nil => exact absurd ha List.not_mem_nil
  | cons b l ih =>
    rcases List.mem_cons.1 ha with rfl | hmem
    · exact List.foldlRecOn l f (motive := P a) (hdo s a) fun t ht x _ => hkeep t a x ht
    · exact ih hmem (f s b)

/-! ### Patch units (R195) -/

/-- A unit is OFF in its staged copy, and in its active one. -/
def unitStagedOff (u : Nat) (s : State) : Prop := s.fget (F.SCH_PU_MODE u) = 0

def unitActiveOff (u : Nat) (s : State) : Prop := puMode (kvGet 0 s.sch.actA u) = 0

/-- The staged copy of a unit is turned OFF. -/
def unitStagedEnd (p : Nat → Bool) (s : State) (u : Nat) : State :=
  if s.fget (F.SCH_PU_MODE u) != 0 && p (s.fget (F.SCH_PU_CLAUSE u)) then s.fset (F.SCH_PU_MODE u) 0 else s

/-- The active copy of a unit is turned OFF. -/
def unitActiveEnd (p : Nat → Bool) (s : State) (u : Nat) : State :=
  if puMode (kvGet 0 s.sch.actA u) != 0 && p (puClause (kvGet 0 s.sch.actA u)) then
    { s with
      sch := { s.sch with actA := kvSet 0 s.sch.actA u (kvGet 0 s.sch.actA u % 2 ^ 30) }
      load := { s.load with sets := s.load.sets.filter fun (e : Nat × Nat) => e.1 != u } }
  else s

/-- One patch unit turns OFF, staged and active (R195). -/
def unitOff (p : Nat → Bool) (s : State) (u : Nat) : State := unitActiveEnd p (unitStagedEnd p s u) u

theorem unitsOff_eq_foldl (p : Nat → Bool) (s : State) : unitsOff p s = (List.range 64).foldl (unitOff p) s := rfl

theorem fget_unitActiveEnd (p : Nat → Bool) (s : State) (u : Nat) (f : Fld) : (unitActiveEnd p s u).fget f = s.fget f := by
  unfold unitActiveEnd
  split <;> rfl

theorem actA_unitStagedEnd (p : Nat → Bool) (s : State) (u : Nat) : (unitStagedEnd p s u).sch.actA = s.sch.actA := by
  unfold unitStagedEnd
  split <;> rfl

theorem unitStagedOff_fset {k u : Nat} {s : State} (h : k % 64 = u % 64 ∨ unitStagedOff k s) :
    unitStagedOff k (s.fset (F.SCH_PU_MODE u) 0) := by
  by_cases hku : k % 64 = u % 64
  · have hfld : F.SCH_PU_MODE k = F.SCH_PU_MODE u := by rw [F.SCH_PU_MODE, F.SCH_PU_MODE, hku]
    rw [unitStagedOff, hfld, State.fget_fset_same, Nat.zero_mod]
  · have hne : (F.SCH_PU_MODE k).key ≠ (F.SCH_PU_MODE u).key := by
      simp only [F.SCH_PU_MODE, Fld.key]
      omega
    rw [unitStagedOff, State.fget_fset_ne _ _ hne]
    exact h.resolve_left hku

theorem unitStagedOff_unitStagedEnd {k : Nat} {s : State} (p : Nat → Bool) (u : Nat) (h : unitStagedOff k s) :
    unitStagedOff k (unitStagedEnd p s u) := by
  unfold unitStagedEnd
  split
  · exact unitStagedOff_fset (.inr h)
  · exact h

theorem unitStagedEnd_off (s : State) (u : Nat) : unitStagedOff u (unitStagedEnd (fun _ => true) s u) := by
  unfold unitStagedEnd
  split
  next => exact unitStagedOff_fset (.inl rfl)
  next h => simpa [unitStagedOff] using h

theorem puMode_mod (a : Nat) : puMode (a % 2 ^ 30) = 0 := by
  rw [puMode, nbits, Nat.shiftRight_eq_div_pow]
  omega

theorem unitActiveEnd_off (s : State) (u : Nat) : unitActiveOff u (unitActiveEnd (fun _ => true) s u) := by
  unfold unitActiveEnd
  split
  next =>
    simp only [unitActiveOff, kvGet_kvSet, if_true]
    exact puMode_mod _
  next h => simpa [unitActiveOff] using h

theorem unitActiveOff_unitActiveEnd {k : Nat} {s : State} (p : Nat → Bool) (u : Nat) (h : unitActiveOff k s) :
    unitActiveOff k (unitActiveEnd p s u) := by
  unfold unitActiveEnd
  split
  next =>
    simp only [unitActiveOff, kvGet_kvSet]
    split
    · exact puMode_mod _
    · exact h
  next => exact h

/-- A unit is OFF in both its copies. -/
def unitIsOff (u : Nat) (s : State) : Prop := unitStagedOff u s ∧ unitActiveOff u s

theorem unitIsOff_unitOff (s : State) (u : Nat) : unitIsOff u (unitOff (fun _ => true) s u) :=
  ⟨(fget_unitActiveEnd _ _ _ _).trans (unitStagedEnd_off s u), unitActiveEnd_off _ u⟩

theorem unitIsOff.unitOff {k : Nat} {s : State} (h : unitIsOff k s) (p : Nat → Bool) (u : Nat) : unitIsOff k (unitOff p s u) := by
  obtain ⟨hstaged, hactive⟩ := h
  have hkept : unitActiveOff k (unitStagedEnd p s u) := by rwa [unitActiveOff, actA_unitStagedEnd]
  exact ⟨(fget_unitActiveEnd _ _ _ _).trans (unitStagedOff_unitStagedEnd p u hstaged), unitActiveOff_unitActiveEnd p u hkept⟩

/-- Every patch unit is OFF after all are turned OFF. -/
theorem unitsOff_off {u : Nat} (hu : u < 64) (s : State) : unitIsOff u (unitsOff (fun _ => true) s) := by
  rw [unitsOff_eq_foldl]
  exact foldl_establishes (P := unitIsOff) unitIsOff_unitOff (fun _ _ b h => h.unitOff _ b) (List.mem_range.2 hu) s

theorem load_unitOff (p : Nat → Bool) (s : State) (u : Nat) :
    (unitOff p s u).load.img = s.load.img ∧ (s.load.sets = [] → (unitOff p s u).load.sets = []) := by
  have hstaged : (unitStagedEnd p s u).load = s.load := by
    unfold unitStagedEnd
    split <;> rfl
  unfold unitOff unitActiveEnd
  split <;> simp_all

/-- Units turned OFF leave the image, and no set is staged that was not. -/
theorem load_unitsOff (p : Nat → Bool) {s : State} (hsets : s.load.sets = []) :
    (unitsOff p s).load.img = s.load.img ∧ (unitsOff p s).load.sets = [] := by
  rw [unitsOff_eq_foldl]
  exact List.foldlRecOn (List.range 64) (unitOff p) (motive := fun t => t.load.img = s.load.img ∧ t.load.sets = []) ⟨rfl, hsets⟩
    fun t ht u _ => ⟨(load_unitOff p t u).1.trans ht.1, (load_unitOff p t u).2 ht.2⟩

/-! ### Links (R254, R310) -/

/-- A link as a DESIGN load begins. -/
def linkIsBegun (l : Nat) (s : State) : Prop := (s.link l).st ≠ .active ∧ (s.link l).released = false ∧ (s.link l).slot.en = false

theorem link_linkTo_ne {k l : Nat} (st : LnkState) (s : State) (h : k ≠ l) : (linkTo st l s).link k = s.link k :=
  State.link_modLink_ne _ _ h

theorem link_linkTrain_ne {k l : Nat} (s : State) (h : k ≠ l) : (linkTrain l s).link k = s.link k :=
  (State.link_modLink_ne _ _ h).trans (link_linkTo_ne _ _ h)

theorem linkIsBegun_linkBegin (s : State) (l : Nat) : linkIsBegun l (linkBegin s l) := by
  unfold linkBegin
  dsimp only
  split
  next => simp [linkIsBegun, linkTo]
  next => simp [linkIsBegun, linkTrain, linkTo]
  next hactive _ => simpa [linkIsBegun] using hactive

theorem link_linkBegin_ne {k l : Nat} (s : State) (h : k ≠ l) : (linkBegin s l).link k = s.link k := by
  unfold linkBegin
  dsimp only
  split
  next => rw [link_linkTo_ne _ _ h, State.link_modLink_ne _ _ h]
  next => rw [link_linkTrain_ne _ h, State.link_modLink_ne _ _ h]
  next => exact State.link_modLink_ne _ _ h

theorem linkIsBegun.linkBegin {k : Nat} {s : State} (h : linkIsBegun k s) (l : Nat) : linkIsBegun k (linkBegin s l) := by
  by_cases hkl : k = l
  · exact hkl ▸ linkIsBegun_linkBegin s k
  · rwa [linkIsBegun, link_linkBegin_ne s hkl]

/-- Every link has begun after all have. -/
theorem linksBegin_begun {l : Nat} (hl : l < 32) (s : State) : linkIsBegun l ((List.range 32).foldl linkBegin s) :=
  foldl_establishes (P := linkIsBegun) linkIsBegun_linkBegin (fun _ _ b h => h.linkBegin b) (List.mem_range.2 hl) s

/-! ### Clauses (R67, R313, R623) -/

/-- A clause that is unloaded: not loaded, not isolated, no value stored. -/
def clauseIsUnloaded (c : Nat) (s : State) : Prop :=
  (s.clause c).loaded = false ∧ (s.clause c).iso = false ∧ (s.clause c).vs = []

theorem clause_forcesGone (c : Nat) (s : State) (d : Nat) : (forcesGone c s).clause d = s.clause d := rfl

theorem clause_clauseUnload_same (s : State) (c : Nat) :
    (clauseUnload c s).clause c = { (s.clause c).fresh with iso := false, xinj := false, hold := [] } := by
  rw [clauseUnload, clause_forcesGone, State.clause_modClause_same]

theorem clause_clauseUnload_ne {c d : Nat} (s : State) (h : d ≠ c) : (clauseUnload c s).clause d = s.clause d := by
  rw [clauseUnload, clause_forcesGone, State.clause_modClause_ne _ _ h]

theorem clauseIsUnloaded_clauseUnload (s : State) (c : Nat) : clauseIsUnloaded c (clauseUnload c s) := by
  rw [clauseIsUnloaded, clause_clauseUnload_same]
  exact ⟨rfl, rfl, rfl⟩

theorem clauseIsUnloaded.clauseUnload {d : Nat} {s : State} (h : clauseIsUnloaded d s) (c : Nat) :
    clauseIsUnloaded d (clauseUnload c s) := by
  by_cases hdc : d = c
  · exact hdc ▸ clauseIsUnloaded_clauseUnload s d
  · rwa [clauseIsUnloaded, clause_clauseUnload_ne s hdc]

theorem words_clauseUnload (d : Nat) (s : State) (c : Nat) : ((clauseUnload c s).clause d).words = (s.clause d).words := by
  by_cases hdc : d = c
  · rw [hdc, clause_clauseUnload_same]
    rfl
  · rw [clause_clauseUnload_ne s hdc]

/-- Every clause is unloaded after all have been; the words of its slice stay. -/
theorem clausesUnload_unloaded {c : Nat} (hc : c < 64) (s : State) :
    clauseIsUnloaded c ((List.range 64).foldl (fun s c => clauseUnload c s) s) ∧
      (((List.range 64).foldl (fun s c => clauseUnload c s) s).clause c).words = (s.clause c).words :=
  ⟨foldl_establishes (P := clauseIsUnloaded) clauseIsUnloaded_clauseUnload (fun _ _ b h => h.clauseUnload b)
    (List.mem_range.2 hc) s,
    foldl_same (fun t => (t.clause c).words) (words_clauseUnload c) _ s⟩

/-- The end of a pending isolation leaves the words of every slice. -/
theorem words_isoEnd (c : Nat) (s : State) : ((isoEnd s).clause c).words = (s.clause c).words := by
  unfold isoEnd
  split
  next => rfl
  next q hiso =>
    split
    next =>
      rcases isoApply_cases s with ⟨_, hsame⟩ | ⟨p, happlied⟩
      · rw [hsame]
      · by_cases hc : c = p.clause
        · rw [hc, happlied.clause]
          rfl
        · rw [happlied.other c hc]
    next =>
      simp only [State.clause_raise, State.clause_fset]
      rfl

end Sys2Proof.Machine
end

section
/-! LOAD_BEGIN of a DESIGN (R310, R313, R545). -/
namespace Sys2Proof.Machine

/-- A DESIGN has begun in s: the sequencer is in IDLE, and no image, set, key, clause, link or patch unit of before is left. -/
structure designBegun (s t : State) : Prop where
  idle : t.seq.st = .idle
  img : t.load.img = none
  sets : t.load.sets = []
  keys : t.sec.keys = []
  tokens : t.sec.tokens = s.sec.tokens
  clause : ∀ c, c < 64 → clauseIsUnloaded c t ∧ (t.clause c).words = (s.clause c).words
  link : ∀ l, l < 32 → linkIsBegun l t
  unit : ∀ u, u < 64 → unitIsOff u t

/-- An ellipsis ends as a DESIGN begins. -/
def designClosed (s : State) : State :=
  if s.seq.st == .ellipsis || s.seq.st == .dbgHold then ellipsisClose s else s

/-- The sequencer, the image, the lexicon's queues, the capture and the connection keys as a DESIGN begins. -/
def designCleared (s : State) : State :=
  let u : State := { s with
    seq := { s.seq with
      st := .idle, fence := none, lastFence := none, stopAt := 0, stopStep := none, haltAt := none, depth := 0
      ellTotal := 0, causeCnt := [], causeDur := [] }
    load := { s.load with img := none, sets := [] }
    umem := { s.umem with lexq := [], rets := [] }
    cap := { s.cap with sig := {}, lines := 0, lineSince := [] }
    sec := { s.sec with keys := [] } }
  ((u.fset F.SEQ_CTL_STOPAT_EN 0).fset F.CAP_SIGCTL_START 0).fset F.CAP_SIGCTL_STOP 0

/-- Links leave ACTIVE as a DESIGN begins, and every clause is unloaded. -/
def designLinks (s : State) : State := (List.range 32).foldl linkBegin (isoEnd s)
def designClauses (s : State) : State := (List.range 64).foldl (fun s c => clauseUnload c s) s

theorem designBegin_eq (s : State) : designBegin s =
    unitsOff (fun _ => true) (designClauses (designLinks (designCleared (designClosed s)))) := rfl

theorem designClosed_frame (s : State) : Fr 0x40000200 s (designClosed s) :=
  .ite (ellipsisClose_frame (Fr.refl _ s) rfl) (Fr.refl _ s)

theorem designLinks_frame (s : State) : Fr 0x200004c80 s (designLinks s) := by
  refine Fr.foldl (fun t l h => ?_) (isoEnd_frame (Fr.refl _ s) rfl)
  exact linkBegin_frame l h rfl

theorem designClauses_frame (s : State) : Fr 0x80400 s (designClauses s) := by
  refine Fr.foldl (fun t c h => ?_) (Fr.refl _ s)
  exact clauseUnload_frame c h rfl

theorem words_designLinks (c : Nat) (s : State) : ((designLinks s).clause c).words = (s.clause c).words := by
  have hlinks : ∀ (t : State) (l : Nat), ((linkBegin t l).clause c).words = (t.clause c).words := by
    intro t l
    rw [State.clause_congr ((linkBegin_frame l (Fr.refl 0x4000 t) rfl).h_clauses rfl)]
  exact (foldl_same (fun t => (t.clause c).words) hlinks _ _).trans (words_isoEnd c s)

/-- Once the sequencer, the image and the keys are cleared, the links, the clauses and the patch units follow. -/
theorem designBegun_of_cleared {s u : State} (hidle : u.seq.st = .idle) (himg : u.load.img = none) (hsets : u.load.sets = [])
    (hkeys : u.sec.keys = []) (htokens : u.sec.tokens = s.sec.tokens) (hclauses : u.clauses = s.clauses) :
    designBegun s (unitsOff (fun _ => true) (designClauses (designLinks u))) := by
  have hl := designLinks_frame u
  have hc := designClauses_frame (designLinks u)
  have hu := unitsOff_frame (fun _ => true) (Fr.refl 0x80011000 (designClauses (designLinks u))) rfl
  have hload := (hc.h_load rfl).trans (hl.h_load rfl)
  have hsec := (hu.h_sec rfl).trans ((hc.h_sec rfl).trans (hl.h_sec rfl))
  obtain ⟨himgOff, hsetsOff⟩ := load_unitsOff (fun _ => true) ((congrArg Load.sets hload).trans hsets)
  refine ⟨?_, himgOff.trans ((congrArg Load.img hload).trans himg), hsetsOff, (congrArg Sec.keys hsec).trans hkeys,
    (congrArg Sec.tokens hsec).trans htokens, fun c hc64 => ?_, fun l hl32 => ?_, fun u hu64 => unitsOff_off hu64 _⟩
  · rw [hu.h_seq rfl, hc.h_seq rfl, hl.h_seq rfl, hidle]
  · obtain ⟨hunloaded, hwords⟩ := clausesUnload_unloaded hc64 (designLinks u)
    rw [clauseIsUnloaded, State.clause_congr (hu.h_clauses rfl)]
    exact ⟨hunloaded, hwords.trans ((words_designLinks c u).trans (by rw [State.clause_congr hclauses]))⟩
  · have hlink : (unitsOff (fun _ => true) (designClauses (designLinks u))).link l = (designLinks u).link l :=
      congrArg (kvGet ({} : Lnk) · l) ((hu.h_links rfl).trans (hc.h_links rfl))
    have hbegun : linkIsBegun l (designLinks u) := linksBegin_begun hl32 (isoEnd u)
    rw [linkIsBegun, hlink]
    exact hbegun

theorem designBegin_begun (s : State) : designBegun s (designBegin s) := by
  have hclosed := designClosed_frame s
  have hsec : (designCleared (designClosed s)).sec = { s.sec with keys := [] } := by
    rw [← hclosed.h_sec rfl, designCleared]
    rfl
  rw [designBegin_eq]
  exact designBegun_of_cleared rfl rfl rfl rfl (by rw [hsec]) (hclosed.h_clauses rfl)

end Sys2Proof.Machine
end

section
/-! What the header of a DESIGN, taken or refused, leaves of its beginning (R307, R310). -/
namespace Sys2Proof.Machine

/-- A clause is as it was but for its sparing and its release: none is loaded that was not. -/
structure clauseKept (x y : Clause) : Prop where
  iso : y.iso = x.iso
  vs : y.vs = x.vs
  words : y.words = x.words
  loaded : x.loaded = false → y.loaded = false

/-- From s to t nothing changes of what the beginning of a DESIGN sets. -/
structure designKept (s t : State) : Prop where
  seq : t.seq = s.seq
  sec : t.sec = s.sec
  links : t.links = s.links
  sch : t.sch = s.sch
  img : t.load.img = s.load.img
  sets : t.load.sets = s.load.sets
  clause : ∀ c, clauseKept (s.clause c) (t.clause c)
  unit : ∀ u, t.fget (F.SCH_PU_MODE u) = s.fget (F.SCH_PU_MODE u)

theorem clauseKept.refl (x : Clause) : clauseKept x x := ⟨rfl, rfl, rfl, id⟩

theorem clauseKept.trans {x y z : Clause} (h : clauseKept x y) (g : clauseKept y z) : clauseKept x z :=
  ⟨g.iso.trans h.iso, g.vs.trans h.vs, g.words.trans h.words, fun hx => g.loaded (h.loaded hx)⟩

theorem designKept.trans {s t u : State} (h : designKept s t) (g : designKept t u) : designKept s u :=
  ⟨g.seq.trans h.seq, g.sec.trans h.sec, g.links.trans h.links, g.sch.trans h.sch, g.img.trans h.img, g.sets.trans h.sets,
    fun c => (h.clause c).trans (g.clause c), fun u => (g.unit u).trans (h.unit u)⟩

theorem designKept.refl (s : State) : designKept s s :=
  ⟨rfl, rfl, rfl, rfl, rfl, rfl, fun _ => .refl _, fun _ => rfl⟩

theorem designBegun.kept {s t u : State} (h : designBegun s t) (g : designKept t u) : designBegun s u where
  idle := by rw [g.seq, h.idle]
  img := g.img.trans h.img
  sets := g.sets.trans h.sets
  keys := by rw [g.sec, h.keys]
  tokens := by rw [g.sec, h.tokens]
  clause := fun c hc =>
    have ⟨⟨hloaded, hiso, hvs⟩, hwords⟩ := h.clause c hc
    have hk := g.clause c
    ⟨⟨hk.loaded hloaded, hk.iso.trans hiso, hk.vs.trans hvs⟩, hk.words.trans hwords⟩
  link := fun l hl => by
    have hlink : u.link l = t.link l := congrArg (kvGet ({} : Lnk) · l) g.links
    have hbegun := h.link l hl
    rwa [linkIsBegun, hlink]
  unit := fun k hk => by
    obtain ⟨hstaged, hactive⟩ := h.unit k hk
    exact ⟨(g.unit k).trans hstaged, by rwa [unitActiveOff, g.sch]⟩

/-! ### The operations of a refusal -/

/-- Outside the parts of the beginning a frame keeps them. -/
theorem designKept.of_frame {s t : State} (h : Fr 0x8400090 s t) : designKept s t where
  seq := h.h_seq rfl
  sec := h.h_sec rfl
  links := h.h_links rfl
  sch := h.h_sch rfl
  img := by rw [h.h_load rfl]
  sets := by rw [h.h_load rfl]
  clause := fun c => by
    rw [State.clause_congr (h.h_clauses rfl) c]
    exact .refl _
  unit := fun u => h.h_regs _ (by rw [F.SCH_PU_MODE_block]; rfl)

theorem key_ne_of_block {f g : Fld} (h : f.block ≠ g.block) : f.key ≠ g.key := fun hkey =>
  h (by rw [Fld.block, Fld.block, hkey])

/-- The registers of the patch units lie above those of the load. -/
theorem key_puMode_ne {f : Fld} (hf : f.key < 0x600100 * 32) (u : Nat) : (F.SCH_PU_MODE u).key ≠ f.key := by
  have hkey : (F.SCH_PU_MODE u).key = (0x600100 + 0x4 * (u % 64)) * 32 + 30 := rfl
  omega

theorem designKept.fset {s t : State} (h : designKept s t) (f : Fld) (hf : ∀ u, (F.SCH_PU_MODE u).key ≠ f.key) (v : Nat) :
    designKept s (t.fset f v) :=
  h.trans ⟨rfl, rfl, rfl, rfl, rfl, rfl, fun _ => .refl _, fun u => State.fget_fset_ne _ _ (hf u)⟩

theorem designKept.raise {s t : State} (h : designKept s t) (f : Fld) (hf : ∀ u, (F.SCH_PU_MODE u).key ≠ f.key) (src code : Nat)
    (payload : List Nat) : designKept s (t.raise f src code payload) :=
  h.trans ⟨State.seq_raise _ _ _ _ _, State.sec_raise _ _ _ _ _, State.links_raise _ _ _ _ _, State.sch_raise _ _ _ _ _,
    by rw [State.load_raise], by rw [State.load_raise], fun c => by rw [State.clause_raise]; exact .refl _,
    fun u => State.fget_raise_ne _ _ _ _ (hf u)⟩

theorem designKept.setLoad {s t : State} (h : designKept s t) (x : Load) (himg : x.img = t.load.img) (hsets : x.sets = t.load.sets) :
    designKept s { t with load := x } :=
  h.trans ⟨rfl, rfl, rfl, rfl, himg, hsets, fun _ => .refl _, fun _ => rfl⟩

theorem designKept.setJob {s t : State} (h : designKept s t) (j : LoadJob) : designKept s (t.setJob j) := h.setLoad _ rfl rfl

theorem designKept.endJob {s t : State} (h : designKept s t) : designKept s { t with load := { t.load with job := none } } :=
  h.setLoad _ rfl rfl

theorem designKept.setMgt {s t : State} (h : designKept s t) (m : Mgt) : designKept s { t with mgt := m } :=
  h.trans ⟨rfl, rfl, rfl, rfl, rfl, rfl, fun _ => .refl _, fun _ => rfl⟩

theorem designKept.modClause {s t : State} (h : designKept s t) (c : Nat) {g : Clause → Clause} (hg : ∀ x, clauseKept x (g x)) :
    designKept s (t.modClause c g) := by
  refine h.trans ⟨rfl, rfl, rfl, rfl, rfl, rfl, fun d => ?_, fun _ => rfl⟩
  by_cases hdc : d = c
  · rw [hdc, State.clause_modClause_same]
    exact hg _
  · rw [State.clause_modClause_ne _ _ hdc]
    exact .refl _

theorem designKept.foldl {α : Type} {f : State → α → State} (hf : ∀ t a, designKept t (f t a)) (l : List α) (s : State) :
    designKept s (l.foldl f s) :=
  List.foldlRecOn l f (motive := designKept s) (.refl s) fun _ ht _ _ => ht.trans (hf _ _)

/-! ### Requests for sparing that are decided (R133) -/

theorem designKept.spareReport {s t : State} (h : designKept s t) (c target result hold : Nat) :
    designKept s (spareReport c target result hold t) :=
  ((h.fset _ (fun u => key_ne_of_block (by rw [F.SCH_PU_MODE_block, F.CLS_SPARE_GO_block]; decide)) 0).fset
    _ (fun u => key_ne_of_block (by rw [F.SCH_PU_MODE_block, F.CLS_SPARE_RESULT_block]; decide)) result).raise
    _ (fun u => key_ne_of_block (by rw [F.SCH_PU_MODE_block, F.CLS_EVT_SPARE_block]; decide)) _ _ _

theorem designKept_spareGo (c target : Nat) (s : State) : designKept s (spareGo c target s) := by
  have htarget : designKept s (s.fset (F.CLS_SPARE_TARGET c) target) :=
    (designKept.refl s).fset _ (fun u => key_ne_of_block (by rw [F.SCH_PU_MODE_block, F.CLS_SPARE_TARGET_block]; decide)) target
  have hgo : designKept s ((s.fset (F.CLS_SPARE_TARGET c) target).fset (F.CLS_SPARE_GO c) 1) :=
    htarget.fset _ (fun u => key_ne_of_block (by rw [F.SCH_PU_MODE_block, F.CLS_SPARE_GO_block]; decide)) 1
  unfold spareGo
  dsimp only
  split
  · exact htarget
  · split
    · exact hgo.modClause c fun _ => ⟨rfl, rfl, rfl, id⟩
    · split
      · exact htarget.spareReport c target _ 0
      · split
        · refine (htarget.modClause c fun _ => ?_).spareReport c target _ 0
          exact ⟨rfl, rfl, rfl, id⟩
        · exact hgo.modClause c fun _ => ⟨rfl, rfl, rfl, id⟩

theorem designKept_spareDecide (s : State) : designKept s (spareDecide s) := by
  refine designKept.foldl (fun t c => ?_) _ s
  split
  · refine ((designKept.refl t).modClause c fun _ => ?_).trans (designKept_spareGo c _ _)
    exact ⟨rfl, rfl, rfl, id⟩
  · exact .refl t

/-! ### The refusal of a header (R306, R307) -/

theorem designKept_bootRead (b : Boot) (s : State) : designKept s (bootRead b s) :=
  (((designKept.refl s).setMgt { s.mgt with boot := some b }).setJob
    { boot := some b.src, slot := 4, addr := slotBase b.src, placement := none }).fset F.SCH_LOAD_BUSY (key_puMode_ne (by decide)) 1

theorem designKept_bootFail (code : Nat) (s : State) : designKept s (bootFail code s) := by
  have hover := (designKept.refl s).endJob.fset F.SCH_LOAD_BUSY (key_puMode_ne (by decide)) 0
  unfold bootFail
  split
  · exact .refl s
  · dsimp only
    split
    · exact (hover.fset F.SCH_BOOT_FAIL (key_puMode_ne (by decide)) code).trans (designKept_bootRead _ _)
    · have hfree := hover.trans (.of_frame (State.freshNat_frame (Fr.refl 0x8400090 _) rfl))
      exact ((hfree.setMgt _).fset F.SCH_BOOT_SRC (key_puMode_ne (by decide)) 3).raise F.SCH_LDEVT_RECOVERY
        (key_puMode_ne (by decide)) _ _ _

/-- A DESIGN that is refused before its sections releases no clause. -/
theorem designKept_loadAbandon {j : LoadJob} (k : Nat) (s : State) (hstage : j.stage ≠ .sections) (himg : j.img.isSome = true) :
    designKept s (loadAbandon j k s) := by
  simp only [loadAbandon, hstage, himg, if_false, if_true]
  refine designKept.foldl (fun t c => (designKept.refl t).modClause c fun _ => ?_) _ s
  exact ⟨rfl, rfl, rfl, fun _ => rfl⟩

section
variable {r : Ref} {j : LoadJob} {s : State} (hstage : j.stage ≠ .sections) (himg : j.img.isSome = true)
include hstage himg

theorem designKept_loadLeft : designKept s (loadLeft r j s).2 := by
  have habandon := designKept_loadAbandon r.k s hstage himg
  unfold loadLeft
  split
  · exact habandon.trans (.of_frame (State.freshNat_frame (Fr.refl 0x8400090 _) rfl))
  · exact habandon

theorem designKept_loadReported : designKept s (loadReported r j s) := by
  have hdropped : designKept s (loadDropped r j s) :=
    (designKept_loadLeft hstage himg).endJob.trans (designKept_spareDecide _)
  have hevent : ∀ u, (F.SCH_PU_MODE u).key ≠ (⟨0x60006c, r.k % 32, 1, 0⟩ : Fld).key := by
    refine fun u => key_puMode_ne ?_ u
    simp only [Fld.key]
    omega
  exact (((hdropped.fset F.SCH_LOAD_RESULT (key_puMode_ne (by decide)) _).fset F.SCH_LOAD_REASON (key_puMode_ne (by decide)) _).fset
    F.SCH_LOAD_BUSY (key_puMode_ne (by decide)) 0).raise _ hevent _ _ _

theorem designKept_loadRefuse (hjob : s.load.job = some j) : designKept s (loadRefuse r s) := by
  have hreported := designKept_loadReported (r := r) (s := s) hstage himg
  by_cases hboot : j.boot.isSome = true
  · rw [loadRefuse_of_boot hjob hboot]
    exact (hreported.trans (.of_frame (bootFailCode_frame _ (Fr.refl 0x8400090 _) rfl))).trans (designKept_bootFail _ _)
  · rw [loadRefuse_of_service hjob (by simpa using hboot)]
    exact hreported.trans (.of_frame (svcRespond_frame _ _ _ _ (Fr.refl 0x8400090 _) rfl))

end

/-- The header of a DESIGN, taken or refused. -/
theorem designKept_headerTake {j : LoadJob} (s : State) (hstage : j.stage ≠ .sections) (himg : j.img.isSome = true) :
    designKept s (headerTake j s) := by
  unfold headerTake
  split
  next r _ => exact ((designKept.refl s).setJob j).trans (designKept_loadRefuse hstage himg rfl)
  next => exact ((designKept.refl s).setJob _).setLoad _ rfl rfl

end Sys2Proof.Machine
end

section
/-! LOAD_BEGIN and RELOAD_BOUNDARY_HOLD, and the loader's statement (R296 to R298, R307, R310, R311). -/
namespace Sys2Proof.Machine

/-! ### LOAD_BEGIN (R310) -/

theorem loadBegin_of_idle {s : State} (hjob : s.load.job = none) : loadBegin s = s := by
  rw [loadBegin, hjob]

theorem loadBegin_of_held {j : LoadJob} {s : State} (hjob : s.load.job = some j)
    (h : j.stage ≠ .waiting ∨ s.seq.ckpt ≠ none ∨ s.migRuns = true ∨ s.sch.patch ≠ none) : loadBegin s = s := by
  have hheld : (decide (j.stage ≠ .waiting) || s.seq.ckpt.isSome || s.migRuns || s.sch.patch.isSome) = true := by
    simp only [Bool.or_eq_true, decide_eq_true_eq, Option.isSome_iff_ne_none]
    tauto
  unfold loadBegin
  rw [hjob]
  exact if_pos hheld

theorem loadBegin_of_free {j : LoadJob} {s : State} (hjob : s.load.job = some j) (hstage : j.stage = .waiting)
    (hckpt : s.seq.ckpt = none) (hmig : s.migRuns = false) (hpatch : s.sch.patch = none) : loadBegin s =
      if j.cls = clsDesign then headerTake { j with img := some (imgOf j.hdr) } (designBegin s) else headerTake j s := by
  unfold loadBegin
  rw [hjob]
  simp [hstage, hckpt, hmig, hpatch]

/-- A header that a rule of R307 refuses, and one that is taken: the directory is expected next. -/
theorem headerTake_of_fault {j : LoadJob} {s : State} {r : Ref} (h : s.headerFault j = some r) :
    headerTake j s = loadRefuse r (s.setJob j) := by
  rw [headerTake, h]

theorem headerTake_of_none {j : LoadJob} {s : State} (h : s.headerFault j = none) :
    (headerTake j s).load.job = some { j with stage := .directory, frame := 0, next := 0, content := [] } ∧
      (headerTake j s).load.info.take 2 = [hdrGen j.hdr + j.cls * 2 ^ 16 + hdrVmode j.hdr % 2 * 2 ^ 20 +
        hdrDepth j.hdr / 64 % 64 * 2 ^ 21, hdrNdev j.hdr] ∧
      Fr 0x10000 s (headerTake j s) := by
  rw [headerTake, h]
  exact ⟨rfl, rfl, (State.setJob_frame _ (Fr.refl 0x10000 s) rfl).withLoad _ rfl⟩

/-! ### RELOAD_BOUNDARY_HOLD (R311) -/

theorem reloadHoldBegin_of_idle {s : State} (hjob : s.load.job = none) : reloadHoldBegin s = s := by
  rw [reloadHoldBegin, hjob]

theorem reloadHoldBegin_of_job {j : LoadJob} {s : State} (hjob : s.load.job = some j) : reloadHoldBegin s =
    if (decide (j.stage = .sections) && s.reloadWaits j && (j.due || (!s.stepping && s.atPhase0)) && !s.migRuns) = true then
      s.setJob { j with due := true, holding := true } else s := by
  unfold reloadHoldBegin
  rw [hjob]

theorem reloadHoldBegin_of_held {j : LoadJob} {s : State} (hjob : s.load.job = some j)
    (h : j.stage ≠ .sections ∨ s.reloadWaits j = false ∨ s.migRuns = true ∨
      (j.due = false ∧ (s.stepping = true ∨ s.atPhase0 = false))) : reloadHoldBegin s = s := by
  rw [reloadHoldBegin_of_job hjob]
  refine if_neg fun hopen => ?_
  simp only [Bool.and_eq_true, Bool.or_eq_true, decide_eq_true_eq, Bool.not_eq_true'] at hopen
  obtain ⟨⟨⟨hstage, hwaits⟩, hdue⟩, hmig⟩ := hopen
  rcases h with h | h | h | ⟨hnot, h⟩
  · exact h hstage
  · simp [h] at hwaits
  · simp [h] at hmig
  · rcases hdue with hdue | ⟨hstep, hphase⟩
    · simp [hnot] at hdue
    · rcases h with h | h
      · simp [h] at hstep
      · simp [h] at hphase

theorem reloadHoldBegin_of_due {j : LoadJob} {s : State} (hjob : s.load.job = some j) (hstage : j.stage = .sections)
    (hwaits : s.reloadWaits j = true) (hmig : s.migRuns = false)
    (hdue : j.due = true ∨ (s.stepping = false ∧ s.atPhase0 = true)) :
    reloadHoldBegin s = s.setJob { j with due := true, holding := true } := by
  rw [reloadHoldBegin_of_job hjob]
  refine if_pos ?_
  simp only [Bool.and_eq_true, Bool.or_eq_true, decide_eq_true_eq, Bool.not_eq_true']
  exact ⟨⟨⟨hstage, hwaits⟩, hdue⟩, hmig⟩

/-! ### The statement -/

/-- Settles O52: a frame is taken as its stage says, or refuses the load; a DESIGN begins with nothing of before left. -/
theorem framesAreLoaded : Obligations.FramesAreLoaded := by
  unfold Obligations.FramesAreLoaded
  refine ⟨fun bytes ok s hjob => ?_, fun bytes ok j s hjob hheld => ?_, fun bytes ok j s hjob hheld => ?_,
    fun bytes ok j r a s hjob ha hsource hstage => leads_of rfl ?_, fun s hjob => ⟨?_, ?_⟩, fun j s hjob hheld => ?_,
    fun j s hjob hstage hckpt hmig hpatch hcls => leads_of rfl ?_,
    fun j s hjob hstage hckpt hmig hpatch hcls hboot => leads_of rfl ?_, fun j s hjob hheld => ?_,
    fun j s hjob hstage hwaits hmig hdue => leads_of rfl ?_⟩
  · exact congrArg _ (frameReceive_of_idle hjob bytes ok)
  · exact congrArg _ (frameReceive_of_held hjob (by tauto) bytes ok)
  · rw [← Option.isSome_iff_ne_none] at hheld
    exact congrArg _ (frameReceive_of_held hjob (by tauto) bytes ok)
  · subst ha
    have hdue : frameDue j s := frameSource.due hsource hstage
    have hread : loadBytes j bytes ok s = (r, s) := frameSource.read hsource
    intro refused
    have hrefused : ∀ c, refused c = frameRefused j c s (frameReceive bytes ok s) := fun _ => rfl
    split
    next hnone =>
      rw [hrefused, frameReceive_of_bad hjob hdue hread hnone]
      exact frameBad_bad j s
    next f hframe =>
      split
      next c hfault =>
        rw [hrefused, frameReceive_of_fault hjob hdue hread hframe hfault]
        exact loadRefuse_frameRefused _ hjob rfl rfl (frameFault_lt hfault) (framePosed_frame rfl j s)
      next hfault =>
        rw [frameReceive_of_frame hjob hdue hread hframe hfault]
        refine ⟨fun hheader hcls => ?_, fun hdir hlast => ?_, fun e hsections he hother hlast => ?_,
          fun e hsections he hown hplain hbase hpart hlast => stageFrame_of_own hsections he hown hplain hbase hpart hlast⟩
        · rw [stageFrame_header hheader]
          exact headerFrame_waits j s hcls
        · rw [stageFrame_of_directory hdir hlast]
          exact ⟨rfl, setJob_steady _ (framePosed_frame rfl j s)⟩
        · rw [stageFrame_of_other hsections he hother hlast]
          exact ⟨rfl, setJob_steady _ (framePosed_frame rfl j s)⟩
  · exact congrArg _ (loadBegin_of_idle hjob)
  · exact congrArg _ (reloadHoldBegin_of_idle hjob)
  · exact congrArg _ (loadBegin_of_held hjob hheld)
  · rw [loadBegin_of_free hjob hstage hckpt hmig hpatch, if_pos hcls]
    have hbegun := (designBegin_begun s).kept
      (designKept_headerTake (j := { j with img := some (imgOf j.hdr) }) (designBegin s) (by simp [hstage]) rfl)
    refine ⟨hbegun.idle, hbegun.img, hbegun.sets, hbegun.keys, hbegun.tokens, fun c hc => ?_, hbegun.link, hbegun.unit⟩
    obtain ⟨⟨hloaded, hiso, hvs⟩, hwords⟩ := hbegun.clause c hc
    exact ⟨hloaded, hiso, hvs, hwords⟩
  · have hframe := headerTake_frame j (Fr.refl 0x1188431490 s) rfl
    rw [loadBegin_of_free hjob hstage hckpt hmig hpatch, if_neg (by rw [hcls]; decide)]
    refine ⟨hframe.h_seq rfl, hframe.h_mem rfl, ?_⟩
    split
    next hnone =>
      obtain ⟨hnext, hinfo, hsteady⟩ := headerTake_of_none hnone
      rw [hcls] at hinfo
      exact ⟨hnext, hinfo, ⟨hsteady.h_seq rfl, hsteady.h_clauses rfl, hsteady.h_mem rfl⟩, hsteady.h_evq rfl,
        onlyFields.of_frame [] (by decide) hsteady⟩
    next r hfault =>
      obtain ⟨hdone, hbusy, hresult, _⟩ := loadRefuse_service (r := r) (s := s.setJob j) rfl hboot
      rw [headerTake_of_fault hfault]
      exact ⟨hdone, hbusy, hresult⟩
  · exact congrArg _ (reloadHoldBegin_of_held hjob hheld)
  · rw [reloadHoldBegin_of_due hjob hstage hwaits hmig hdue]
    exact ⟨rfl, setJob_steady _ (Fr.refl _ s)⟩

end Sys2Proof.Machine
end

section
/-! The NoC accesses that a lexicon bank serves one word at a time, and the report of one that starves (R206, R216, R223, R237). -/
namespace Sys2Proof.Machine

/-! ### An access of user memory within one word (R223) -/

theorem memPieces_of_word {a n : Nat} (hn : 0 < n) (hword : a % 32 + n ≤ 32) : memPieces a n = [(a, n)] := by
  have hone : (a % 32 + n + 31) / 32 = 1 := by omega
  have hstart : max a (wordBase a + 32 * 0) = a := by unfold wordBase; omega
  have hend : min (a + n) (wordBase a + 32 * (0 + 1)) - a = n := by unfold wordBase; omega
  rw [memPieces, hone, List.range_one, List.map_singleton]
  simp only [hstart, hend]

theorem nocRead_of_word {a n : Nat} {s : State} (kind : Nat) (hn : 0 < n) (hword : a % 32 + n ≤ 32) (hmark : s.memMark a = 0) :
    nocRead kind a n s = (s.bytes a n, true, s) := by
  rw [nocRead_eq_foldl, memPieces_of_word hn hword, List.foldl_cons, List.foldl_nil, readPiece, userRead_eq,
    wordChecked_of_unmarked _ false hmark, hmark]
  rfl

theorem nocWrite_of_word {a : Nat} {bs : List Byte} {s : State} (kind : Nat) (hn : 0 < bs.length) (hword : a % 32 + bs.length ≤ 32)
    (hmark : s.memMark a = 0) : nocWrite kind a bs s = (true, userWrite (0x100 + kind) a bs s) := by
  simp [nocWrite, memPieces_of_word hn hword, hmark]

/-! ### One word of a waiting access (R206, R216) -/

/-- The bytes of the word that an access reaches next. -/
def NocAcc.wordLen (x : NocAcc) : Nat := min (x.size - x.pos) (32 - (x.addr + x.pos) % 32)

theorem nocWord_of_read {x : NocAcc} {s : State} (hread : x.write = false) (hmore : x.pos < x.size)
    (hmark : s.memMark (x.addr + x.pos) = 0) : nocWord x s =
      ({ x with pos := x.pos + x.wordLen, got := x.got ++ s.bytes (x.addr + x.pos) x.wordLen }, s) := by
  have hpos : 0 < x.wordLen := by unfold NocAcc.wordLen; omega
  have hword : (x.addr + x.pos) % 32 + x.wordLen ≤ 32 := by unfold NocAcc.wordLen; omega
  have hserved : nocRead x.kind (x.addr + x.pos) x.wordLen s = (s.bytes (x.addr + x.pos) x.wordLen, true, s) :=
    nocRead_of_word x.kind hpos hword hmark
  rw [NocAcc.wordLen] at hserved ⊢
  simp [nocWord, hread, hserved]

/-- A write that lies within one word is done in one. -/
theorem nocWord_of_write {x : NocAcc} {s : State} (hwrite : x.write = true) (hpos : x.pos = 0) (hsize : x.size = x.data.length)
    (hsome : 0 < x.size) (hword : x.addr % 32 + x.data.length ≤ 32) (hmark : s.memMark x.addr = 0) :
    nocWord x s = ({ x with pos := x.size }, userWrite (0x100 + x.kind) x.addr x.data s) := by
  have hlen : min x.data.length (32 - x.addr % 32) = x.data.length := by omega
  have hserved := nocWrite_of_word x.kind (hsize ▸ hsome) hword hmark
  simp [nocWord, hwrite, hpos, hsize, hlen, hserved]

/-! ### The oldest access that waits for a bank (R216) -/

/-- The state with other NoC accesses waiting. -/
def State.setNocq (s : State) (q : List NocAcc) : State := { s with umem := { s.umem with nocq := q } }

theorem nocHead_of_front {bank : Nat} {x : NocAcc} {rest : List NocAcc} {s : State} (hq : s.umem.nocq = x :: rest)
    (hlex : isLex x.addr = true) (hbank : lexBank x.addr = bank) : s.nocHead bank = some x := by
  rw [State.nocHead, hq]
  exact List.find?_cons_of_pos (by simp [hlex, hbank])

theorem lexNoc_of_blocked {bank : Nat} {s : State} (h : s.nocBlocked bank = true) : lexNoc bank s = s := by
  rw [lexNoc, nocServe, if_pos h]

theorem lexNoc_of_none {bank : Nat} {s : State} (h : s.nocHead bank = none) : lexNoc bank s = s := by
  rw [lexNoc, nocServe, h, Option.map_none, ite_self]

section
variable {bank : Nat} {x y : NocAcc} {rest : List NocAcc} {s w : State}

/-- A word that is not the last of its access: the access keeps its place. -/
theorem lexNoc_of_further (hfree : s.nocBlocked bank = false) (hq : s.umem.nocq = x :: rest) (hlex : isLex x.addr = true)
    (hbank : lexBank x.addr = bank) (hword : nocWord x s = (y, w)) (hwq : w.umem.nocq = x :: rest) (hsize : y.size = x.size)
    (hmore : y.pos < x.size) : lexNoc bank s = w.setNocq (y :: rest) := by
  simp [lexNoc, nocServe, hfree, nocHead_of_front hq hlex hbank, hword, hwq, hsize, hmore, State.setNocq]

/-- The last word of a host access that did not wait: the access leaves the queue and is answered. -/
theorem lexNoc_of_last {off : Nat} (hfree : s.nocBlocked bank = false) (hq : s.umem.nocq = x :: rest) (hlex : isLex x.addr = true)
    (hbank : lexBank x.addr = bank) (hword : nocWord x s = (y, w)) (hwq : w.umem.nocq = x :: rest) (hsize : y.size = x.size)
    (hlast : ¬ y.pos < x.size) (hwaited : x.waited = 0) (hreply : y.reply = .bar2 off) :
    lexNoc bank s = nocAnswer y y.result.1 y.result.2 (w.setNocq rest) := by
  have hroom : s.nocAnswerRoom y y.result.2 = true := by rw [State.nocAnswerRoom, hreply]
  simp [lexNoc, nocServe, hfree, nocHead_of_front hq hlex hbank, hword, hwq, hsize, hlast, nocWaited, hwaited, hroom, State.setNocq]

end

/-! ### A starving access (R216, R237) -/

theorem nocStarve_of_none {k : Nat} {s : State} (h : s.umem.nocq[k]? = none) : nocStarve k s = s := by rw [nocStarve, h]

theorem nocStarve_of_some {k : Nat} {s : State} {x : NocAcc} (h : s.umem.nocq[k]? = some x) : nocStarve k s =
    if s.fget F.MEM_NOCWAIT_LIMIT ≠ 0 ∧ s.fget F.MEM_NOCWAIT_LIMIT < x.waited ∧ x.starved = false then
      (s.setNocq (s.umem.nocq.set k { x with starved := true })).raise F.MEM_EVT_NOC_STARVE 10 9 [x.kind, lexBank x.addr, x.waited]
    else s := by
  simp [nocStarve, h, State.setNocq, and_assoc]

/-! ### The commands -/

theorem exec_lexNocServe {ups : List Upset} {s u : State} (bank : Nat) (hu : u = upsets ups s) :
    exec (.lexNocServe bank ups) s = .next (lexNoc bank u) := by
  rw [hu]
  rfl

/-- Settles O29: `nocWord_of_read` and `nocWord_of_write` give the word that is served, `lexNoc_of_further` and `lexNoc_of_last` what
becomes of its access. -/
theorem lexiconServesNetwork : Obligations.LexiconServesNetwork := by
  unfold Obligations.LexiconServesNetwork
  refine ⟨fun bank ups s u hu hblocked => (exec_lexNocServe bank hu).trans (congrArg _ (lexNoc_of_blocked hblocked)),
    fun bank off ups s u x rest hu hfree hq hbank hreply hwrite hwaited hpos hgood hsize hsome hlex hend hword hmark =>
      leads_of (exec_lexNocServe bank hu) ?_,
    fun bank off ups s u x rest hu hfree hq hbank hreply hread hwaited hmore hgood hlex hword hmark =>
      leads_of (exec_lexNocServe bank hu) ?_,
    fun bank n ups s u x rest hu hfree hq hbank hread hgood hlex hn hmore hmark => leads_of (exec_lexNocServe bank hu) ?_,
    fun bank ups s u hu hnone => (exec_lexNocServe bank hu).trans (congrArg _ (lexNoc_of_none ?_)),
    fun k s x hx hlimit hlong hstarved => leads_of rfl ?_, fun k s hnone => congrArg Host.Outcome.next (?_ : nocStarve k s = s)⟩
  · let w := userWrite (0x100 + x.kind) x.addr x.data u
    have hfr : Fr 0x2020 u w := userWrite_frame_of_unmarked _ x.data hmark
    have hfields : onlyFields [] u w := onlyFields.of_frame [] (by decide) hfr
    have hwq : w.umem.nocq = x :: rest := (congrArg (·.2.1) (traffic_userWrite (0x100 + x.kind) x.addr x.data u)).trans hq
    have hserve : lexNoc bank u = w.setNocq rest := by
      rw [lexNoc_of_last hfree hq hlex hbank (nocWord_of_write hwrite hpos hsize hsome hword hmark) hwq rfl (lt_irrefl _) hwaited
        hreply]
      simp [nocAnswer, hreply, hwrite, hgood, NocAcc.result, w]
    rw [hserve]
    exact ⟨fun i hi => byteAt_userWrite_inside _ u hlex hend hi, fun a ha => byteAt_userWrite_outside _ hmark hlex hend ha, rfl,
      hfr.h_out rfl, hfr.h_clauses rfl, hfr.h_seq rfl, hfr.h_evq rfl, hfields⟩
  · have hlen : x.wordLen = x.size - x.pos := by unfold NocAcc.wordLen; omega
    have hserved := nocWord_of_read hread hmore hmark
    rw [hlen] at hserved
    rw [lexNoc_of_last hfree hq hlex hbank hserved hq rfl (by show ¬ x.pos + (x.size - x.pos) < x.size; omega) hwaited hreply]
    simp only [nocAnswer, hreply, hread, hgood, NocAcc.result, if_true, hostAnswer, Bool.false_eq_true, if_false]
    exact ⟨rfl, rfl, rfl, rfl, rfl, rfl, onlyFields.refl [] u⟩
  · have hlen : x.wordLen = n := by unfold NocAcc.wordLen; omega
    have hserved := nocWord_of_read hread (by omega) hmark
    rw [hlen] at hserved
    rw [lexNoc_of_further hfree hq hlex hbank hserved hq rfl (by show x.pos + n < x.size; omega)]
    exact ⟨rfl, rfl, rfl, rfl, rfl, rfl, onlyFields.refl [] u⟩
  · refine List.find?_eq_none.mpr fun x hx => ?_
    simpa using hnone x hx
  · rw [nocStarve_of_some hx, if_pos ⟨hlimit, hlong, hstarved⟩]
    let w := s.setNocq (s.umem.nocq.set k { x with starved := true })
    exact ⟨posted_raise (t := w) _ _ _ rfl rfl rfl rfl rfl, congrArg Mem.nocq (w.umem_raise _ _ _ _), w.mem_raise _ _ _ _,
      w.seq_raise _ _ _ _, (onlyFields.refl _ s).raise (t := w) List.mem_cons_self _ _ _⟩
  · cases hx : s.umem.nocq[k]? with
    | none => exact nocStarve_of_none hx
    | some x =>
      rw [nocStarve_of_some hx, if_neg]
      rintro ⟨hlimit, hlong, hstarved⟩
      rcases hnone x hx with h | h | h
      · exact hlimit h
      · omega
      · simp [hstarved] at h

end Sys2Proof.Machine
end

section
/-! Retirement of user memory: the report of a request, and what error handling and reports leave of the retired words and pages
(R223, R225 to R227, R237). -/
namespace Sys2Proof.Machine

/-! ### Reports -/

/-- A request is reported: its RESULT field, and its event of the memory block (R227, R237). -/
def retireReport (res evt : Fld) (code : Nat) (payload : List Nat) (result : Nat) (s : State) : State :=
  (s.fset res result).raise evt 10 code payload

theorem lretReport_eq (bank word spare result : Nat) (s : State) : lretReport bank word spare result s =
    retireReport F.MEM_LRET_RESULT F.MEM_EVT_LRET 6 [bank, word, spare, result] result s := rfl

theorem hretReport_eq (stack page spare result : Nat) (s : State) : hretReport stack page spare result s =
    retireReport F.MEM_HRET_RESULT F.MEM_EVT_HRET 7 [stack, page, spare, result] result s := rfl

section
variable {res evt : Fld} {result : Nat} (code : Nat) (payload : List Nat) (s : State)

theorem retireReport_reports (hkey : res.key ≠ evt.key) (hwidth : evt.width = 1) (hresult : result < 2 ^ res.width) :
    (retireReport res evt code payload result s).fget res = result ∧ (retireReport res evt code payload result s).fget evt = 1 ∧
      onlyFields [res, evt] s (retireReport res evt code payload result s) := by
  refine ⟨?_, ?_, ((onlyFields.refl _ s).fset (by simp) _).raise (by simp) _ _ _⟩
  · rw [retireReport, State.fget_raise_ne _ _ _ _ hkey, State.fget_fset_same, Nat.mod_eq_of_lt hresult]
  · rw [retireReport, State.fget_raise_same, hwidth]
    rfl

theorem retireReport_keeps : (retireReport res evt code payload result s).umem = s.umem ∧
    (retireReport res evt code payload result s).mem = s.mem ∧ (retireReport res evt code payload result s).seq = s.seq ∧
      (retireReport res evt code payload result s).clauses = s.clauses :=
  ⟨State.umem_raise _ _ _ _ _, State.mem_raise _ _ _ _ _, State.seq_raise _ _ _ _ _, State.clauses_raise _ _ _ _ _⟩

end

/-! ### Retired words and pages through the error handling of a word (R223) -/

/-- What is retired, and what is being retired. -/
def State.retirements (s : State) : Kv (Option Nat) × Kv (Option Nat) × Option (Nat × Nat × Nat) × Option (Nat × Nat × Nat) :=
  (s.umem.lexRet, s.umem.hbmRet, s.umem.lretReq, s.umem.hretReq)

theorem retirements_of_umem {s t : State} (h : t.umem = s.umem) : t.retirements = s.retirements := by rw [State.retirements, h]; rfl

theorem retirements_raise (s : State) (f : Fld) (src code : Nat) (p : List Nat) :
    (s.raise f src code p).retirements = s.retirements := retirements_of_umem (s.umem_raise f src code p)

theorem retirements_memHot (hbm : Bool) (unit loc : Nat) (s : State) : (memHot hbm unit loc s).retirements = s.retirements := by
  unfold memHot
  dsimp only
  rw [apply_ite State.retirements, retirements_of_umem (umem_sparingSeen _ _), retirements_raise, ite_self]
  cases hbm <;> rfl

/-- A correctable error leaves what is retired, in the lexicon and in HBM. -/
theorem retirements_memCe (a : Nat) (s : State) : (memCe a s).retirements = s.retirements := by
  unfold memCe
  dsimp only
  by_cases hlex : isLex a = true
  · rw [if_pos hlex, retirements_memHot, apply_ite State.retirements, retirements_raise, ite_self]
    rfl
  · rw [if_neg hlex, retirements_memHot, apply_ite State.retirements, retirements_raise, ite_self]
    rfl

/-- The byte at an address depends on the stored bytes and the retired pages alone (R226). -/
theorem byteAt_congr {s t : State} (hmem : t.mem = s.mem) (hret : t.umem.hbmRet = s.umem.hbmRet) (a : Nat) :
    t.byteAt a = s.byteAt a := by
  unfold State.byteAt State.phys
  rw [hmem, hret]

/-! ### The record of the firmware after a completion (R596) -/

theorem actsLog_keeps {s t : State} (h : t = actsLog s) : t.umem = s.umem ∧ t.mem = s.mem ∧ t.evq = s.evq ∧ t.seq = s.seq ∧
    t.clauses = s.clauses ∧ onlyFields [] s t := by
  have hfr : Fr 0x400040 s t := h ▸ actsLog_frame (Fr.refl _ s) rfl
  exact ⟨hfr.h_umem rfl, hfr.h_mem rfl, hfr.h_evq rfl, hfr.h_seq rfl, hfr.h_clauses rfl, onlyFields.of_frame [] (by decide) hfr⟩

theorem onlyFields.fget_eq {s t : State} (h : onlyFields [] s t) (f : Fld) : t.fget f = s.fget f := h f (by simp)

end Sys2Proof.Machine
end

section
/-! Words of the lexicon are retired (R225, R227, R237). -/
namespace Sys2Proof.Machine

/-! ### MEM_LRET_GO -/

/-- The request as it is written. -/
def lretWritten (bank word : Nat) (s : State) : State := (s.fset F.MEM_LRET_BANK bank).fset F.MEM_LRET_WORD word

theorem onlyFields_lretWritten {fs : List Fld} (bank word : Nat) (s : State) (hbank : F.MEM_LRET_BANK ∈ fs)
    (hword : F.MEM_LRET_WORD ∈ fs) : onlyFields fs s (lretWritten bank word s) :=
  ((onlyFields.refl _ s).fset hbank bank).fset hword word

/-- The spare words of a bank that no retired word uses. -/
def State.freeWords (s : State) (bank : Nat) : List Nat := (List.range 64).filter fun k => !(s.lexSpares bank).contains k

theorem mem_freeWords {s : State} {bank k : Nat} : k ∈ s.freeWords bank ↔ k < 64 ∧ k ∉ s.lexSpares bank := by
  simp [State.freeWords]

theorem lretGo_eq (bank word : Nat) (s : State) : lretGo bank word s =
    if s.umem.lretReq.isSome then lretRefuse bank word 5 (lretWritten bank word s)
    else if 255 < bank ∨ 8191 < word then lretRefuse bank word 2 (lretWritten bank word s)
    else if (kvGet none s.umem.lexRet (bank * 8192 + word)).isSome then lretRefuse bank word 3 (lretWritten bank word s)
    else if (s.freeWords bank).isEmpty then lretRefuse bank word 1 (lretWritten bank word s)
    else
      let r := (lretWritten bank word s).pick (s.freeWords bank)
      ((({ r.2 with umem := { r.2.umem with lretReq := some (bank, word, r.1) } }).fset F.MEM_LRET_GO 1).fset
        F.MEM_STAT_LRET_BUSY 1) := rfl

/-- The rule that refuses a request, in the order in which the rules are told. -/
def lretRule (bank word r : Nat) (s : State) : Prop :=
  s.umem.lretReq ≠ none ∧ r = 5 ∨ s.umem.lretReq = none ∧ ((255 < bank ∨ 8191 < word) ∧ r = 2 ∨ bank ≤ 255 ∧ word ≤ 8191 ∧
    (kvGet none s.umem.lexRet (bank * 8192 + word) ≠ none ∧ r = 3 ∨ kvGet none s.umem.lexRet (bank * 8192 + word) = none ∧
      (∀ k, k < 64 → k ∈ s.lexSpares bank) ∧ r = 1))

theorem lretGo_of_rule {bank word r : Nat} {s : State} (h : lretRule bank word r s) :
    lretGo bank word s = lretRefuse bank word r (lretWritten bank word s) ∧ r < 256 := by
  rw [lretGo_eq]
  rcases h with ⟨hbusy, rfl⟩ | ⟨hidle, ⟨hrange, rfl⟩ | ⟨hbank, hword, ⟨hret, rfl⟩ | ⟨hnew, hused, rfl⟩⟩⟩
  · simp [Option.isSome_iff_ne_none.mpr hbusy]
  · simp [hidle, hrange]
  · simp [hidle, hbank.not_gt, hword.not_gt, Option.isSome_iff_ne_none.mpr hret]
  · have hfull : s.freeWords bank = [] := List.eq_nil_iff_forall_not_mem.mpr fun k hk =>
      (mem_freeWords.mp hk).2 (hused k (mem_freeWords.mp hk).1)
    simp [hidle, hbank.not_gt, hword.not_gt, hnew, hfull]

/-- The state in which a retirement runs with a spare. -/
def lretRunning (bank word spare : Nat) (s : State) : State :=
  (({ s with umem := { s.umem with lretReq := some (bank, word, spare) } }).fset F.MEM_LRET_GO 1).fset F.MEM_STAT_LRET_BUSY 1

theorem lretGo_of_free {bank word : Nat} {s : State} (hidle : s.umem.lretReq = none) (hbank : bank ≤ 255) (hword : word ≤ 8191)
    (hnew : kvGet none s.umem.lexRet (bank * 8192 + word) = none) (hfree : s.freeWords bank ≠ []) : lretGo bank word s =
      lretRunning bank word ((lretWritten bank word s).pick (s.freeWords bank)).1
        ((lretWritten bank word s).pick (s.freeWords bank)).2 := by
  simp [lretGo_eq, hidle, hbank.not_gt, hword.not_gt, hnew, hfree, lretRunning]

/-! ### LRET_COMPLETE -/

/-- The copy has read the word: a correctable error of it is corrected (R223). -/
def wordCorrected (a : Nat) (s : State) : State := if s.memMark a == 1 then memCe a s else s

theorem wordCorrected_keeps (a : Nat) (s : State) : (wordCorrected a s).retirements = s.retirements ∧
    (wordCorrected a s).mem = s.mem ∧ (wordCorrected a s).seq = s.seq ∧ (wordCorrected a s).clauses = s.clauses := by
  have hfr : Fr 0x800402080 s (wordCorrected a s) := Fr.ite (memCe_frame a (Fr.refl _ s) rfl) (Fr.refl _ s)
  refine ⟨?_, hfr.h_mem rfl, hfr.h_seq rfl, hfr.h_clauses rfl⟩
  rw [wordCorrected, apply_ite State.retirements, retirements_memCe, ite_self]

/-- The retirement runs no more. -/
def lretOver (s : State) : State :=
  (({ s with umem := { s.umem with lretReq := none } }).fset F.MEM_LRET_GO 0).fset F.MEM_STAT_LRET_BUSY 0

/-- The word is retired where the copy was verified, with fewer than two mismatches. -/
def wordRetired (m key spare : Nat) (s : State) : State :=
  if 2 ≤ m then s else { s with umem := { s.umem with lexRet := kvSet none s.umem.lexRet key (some spare) } }

theorem wordRetired_keeps (m key spare : Nat) (s : State) : (wordRetired m key spare s).fields = s.fields ∧
    (wordRetired m key spare s).mem = s.mem ∧ (wordRetired m key spare s).umem.hbmRet = s.umem.hbmRet ∧
    (wordRetired m key spare s).umem.lretReq = s.umem.lretReq ∧ (wordRetired m key spare s).seq = s.seq ∧
    (wordRetired m key spare s).clauses = s.clauses := by
  unfold wordRetired
  split <;> exact ⟨rfl, rfl, rfl, rfl, rfl, rfl⟩

theorem lexRet_wordRetired (m key spare : Nat) (s : State) : (wordRetired m key spare s).umem.lexRet =
    if m < 2 then kvSet none s.umem.lexRet key (some spare) else s.umem.lexRet := by
  unfold wordRetired
  by_cases h : m < 2
  · rw [if_neg h.not_ge, if_pos h]
  · rw [if_pos (not_lt.mp h), if_neg h]

theorem lretEnd_of_none {s : State} (m : Nat) (h : s.umem.lretReq = none) : lretEnd m s = s := by rw [lretEnd, h]

theorem lretEnd_of_some {m bank word spare : Nat} {s : State} (h : s.umem.lretReq = some (bank, word, spare)) : lretEnd m s =
    lretReport bank word spare (if m < 2 then 0 else 4) (wordRetired m (bank * 8192 + word) spare
      (lretOver (wordCorrected (0x40000000 + bank * 0x40000 + word * 32) s))) := by
  rw [lretEnd, h]
  by_cases hm : 2 ≤ m
  · simp only [wordRetired, if_pos hm, if_neg hm.not_gt]
    rfl
  · simp only [wordRetired, if_neg hm, if_pos (not_le.mp hm)]
    rfl

/-- Settles O31: `lretGo_of_rule` gives the refusals, `lretGo_of_free` the retirement that runs, `lretEnd_of_some` its end. -/
theorem lexiconWordsRetire : Obligations.LexiconWordsRetire := by
  unfold Obligations.LexiconWordsRetire
  refine ⟨fun bank word r s hrule => ?_, fun bank word k s hidle hbank hword hnew hk hspare => ?_,
    fun m bank word spare s hreq => ?_, fun m s hidle => leads_of rfl ?_⟩
  · obtain ⟨hgo, hr⟩ := lretGo_of_rule hrule
    let w := (lretWritten bank word s).freshNat.2
    have hw : onlyFields [F.MEM_LRET_BANK, F.MEM_LRET_WORD, F.MEM_LRET_RESULT, F.MEM_EVT_LRET] s w :=
      onlyFields_lretWritten bank word s (by simp) (by simp)
    obtain ⟨hres, hevt, honly⟩ := retireReport_reports (res := F.MEM_LRET_RESULT) (evt := F.MEM_EVT_LRET) 6
      [bank, word, (lretWritten bank word s).freshNat.1, r] w (by decide) rfl hr
    obtain ⟨humem, hmem, hseq, -⟩ := retireReport_keeps (res := F.MEM_LRET_RESULT) (evt := F.MEM_EVT_LRET) (result := r) 6
      [bank, word, (lretWritten bank word s).freshNat.1, r] w
    exact leads_of (congrArg Host.Outcome.next hgo) ⟨hres, hevt, humem, hmem, hseq, hw.trans (honly.mono (by simp))⟩
  · have hfree : s.freeWords bank ≠ [] := List.ne_nil_of_mem (mem_freeWords.mpr ⟨hk, hspare⟩)
    obtain ⟨hsp, hunused⟩ := mem_freeWords.mp (pick_mem (lretWritten bank word s) hfree)
    have hw : onlyFields [F.MEM_LRET_BANK, F.MEM_LRET_WORD, F.MEM_LRET_GO, F.MEM_STAT_LRET_BUSY] s
        ((lretWritten bank word s).pick (s.freeWords bank)).2 := onlyFields_lretWritten bank word s (by simp) (by simp)
    refine leads_of (congrArg Host.Outcome.next (lretGo_of_free hidle hbank hword hnew hfree)) ⟨⟨_, rfl, hsp, hunused⟩, ?_,
      State.fget_fset_same _ _ 1, rfl, rfl, rfl, rfl, (onlyFields.fset hw (by simp) 1).fset (by simp) 1⟩
    exact (State.fget_fset_ne _ _ (by decide)).trans (State.fget_fset_same _ _ 1)
  · let c := wordCorrected (0x40000000 + bank * 0x40000 + word * 32) s
    let w := wordRetired m (bank * 8192 + word) spare (lretOver c)
    obtain ⟨hret, hcmem, hcseq, hcclauses⟩ := wordCorrected_keeps (0x40000000 + bank * 0x40000 + word * 32) s
    obtain ⟨hfields, hwmem, hhbm, hreqw, hwseq, hwclauses⟩ := wordRetired_keeps m (bank * 8192 + word) spare (lretOver c)
    have hlex : w.umem.lexRet = if m < 2 then kvSet none s.umem.lexRet (bank * 8192 + word) (some spare) else s.umem.lexRet := by
      rw [lexRet_wordRetired, show (lretOver c).umem.lexRet = s.umem.lexRet from congrArg (·.1) hret]
    let result := if m < 2 then 0 else 4
    have hsmall : result < 2 ^ F.MEM_LRET_RESULT.width := by
      show ite _ _ _ < _
      split <;> decide
    obtain ⟨hres, hevt, honly⟩ := retireReport_reports (res := F.MEM_LRET_RESULT) (evt := F.MEM_EVT_LRET) 6
      [bank, word, spare, result] w (by decide) rfl hsmall
    obtain ⟨humem, hmem, hseq, hclauses⟩ := retireReport_keeps (res := F.MEM_LRET_RESULT) (evt := F.MEM_EVT_LRET)
      (result := result) 6 [bank, word, spare, result] w
    have hend := lretEnd_of_some (m := m) hreq
    obtain ⟨hlumem, hlmem, -, hlseq, hlclauses, hlfields⟩ := actsLog_keeps (congrArg actsLog hend)
    have hwfget : ∀ f, w.fget f = (lretOver c).fget f := fun f => congrArg (kvGet f.reset · f.key) hfields
    refine leads_of rfl ⟨?_, ?_, ?_, ?_, ?_, ?_, ?_, ?_, ?_, ?_⟩
    · rw [hlumem, lretReport_eq, humem, hreqw]
      rfl
    · rw [hlfields.fget_eq, lretReport_eq, honly _ (by decide), hwfget]
      exact (State.fget_fset_ne _ _ (by decide)).trans (State.fget_fset_same _ _ 0)
    · rw [hlfields.fget_eq, lretReport_eq, honly _ (by decide), hwfget]
      exact State.fget_fset_same _ _ 0
    · rw [hlfields.fget_eq]
      exact hres
    · rw [hlfields.fget_eq]
      exact hevt
    · intro hm
      rw [hlumem, lretReport_eq, humem, hlex, if_pos hm, kvGet_kvSet, if_pos rfl]
    · intro k hk
      rw [hlumem, lretReport_eq, humem, hlex]
      split
      next hm => rw [kvGet_kvSet, if_neg (hk hm)]
      next => rfl
    · refine byteAt_congr (hlmem.trans (hmem.trans (hwmem.trans hcmem))) ?_
      rw [hlumem, lretReport_eq, humem, hhbm]
      exact congrArg (·.2.1) hret
    · exact hlseq.trans (hseq.trans (hwseq.trans hcseq))
    · exact hlclauses.trans (hclauses.trans (hwclauses.trans hcclauses))
  · obtain ⟨humem, hmem, hevq, hseq, -, hfields⟩ := actsLog_keeps (congrArg actsLog (lretEnd_of_none m hidle))
    exact ⟨humem, hmem, hevq, hseq, hfields⟩

end Sys2Proof.Machine
end

section
/-! Pages of HBM are retired (R226, R227, R237). -/
namespace Sys2Proof.Machine

/-! ### MEM_HRET_GO -/

theorem hretGo_eq (stack : Nat) (s : State) : hretGo stack s =
    if s.umem.hretReq.isSome then hretRefuse stack (s.fget F.MEM_HRETPG_PAGE) 5 (s.fset F.MEM_HRET_STACK stack)
    else if s.poolFirst ≤ s.fget F.MEM_HRETPG_PAGE then
      hretRefuse stack (s.fget F.MEM_HRETPG_PAGE) 2 (s.fset F.MEM_HRET_STACK stack)
    else if (kvGet none s.umem.hbmRet (stack * 6291456 + s.fget F.MEM_HRETPG_PAGE)).isSome then
      hretRefuse stack (s.fget F.MEM_HRETPG_PAGE) 3 (s.fset F.MEM_HRET_STACK stack)
    else if 4096 ≤ (s.hbmSpares stack).length ∨ s.poolPages ≤ (s.hbmSpares stack).length then
      hretRefuse stack (s.fget F.MEM_HRETPG_PAGE) 1 (s.fset F.MEM_HRET_STACK stack)
    else
      let r := (s.fset F.MEM_HRET_STACK stack).pickSpare stack
      ((({ r.2 with umem := { r.2.umem with hretReq := some (stack, s.fget F.MEM_HRETPG_PAGE, r.1) } }).fset
        F.MEM_HRET_GO 1).fset F.MEM_STAT_HRET_BUSY 1) := rfl

/-- The rule that refuses a request, in the order in which the rules are told. -/
def hretRule (stack r : Nat) (s : State) : Prop :=
  s.umem.hretReq ≠ none ∧ r = 5 ∨ s.umem.hretReq = none ∧ (s.poolFirst ≤ s.fget F.MEM_HRETPG_PAGE ∧ r = 2 ∨
    s.fget F.MEM_HRETPG_PAGE < s.poolFirst ∧ (kvGet none s.umem.hbmRet (stack * 6291456 + s.fget F.MEM_HRETPG_PAGE) ≠ none ∧
      r = 3 ∨
      kvGet none s.umem.hbmRet (stack * 6291456 + s.fget F.MEM_HRETPG_PAGE) = none ∧
      (4096 ≤ (s.hbmSpares stack).length ∨ s.poolPages ≤ (s.hbmSpares stack).length) ∧ r = 1))

theorem hretGo_of_rule {stack r : Nat} {s : State} (h : hretRule stack r s) :
    hretGo stack s = hretRefuse stack (s.fget F.MEM_HRETPG_PAGE) r (s.fset F.MEM_HRET_STACK stack) ∧ r < 256 := by
  rw [hretGo_eq]
  rcases h with ⟨hbusy, rfl⟩ | ⟨hidle, ⟨hpool, rfl⟩ | ⟨hpage, ⟨hret, rfl⟩ | ⟨hnew, hfull, rfl⟩⟩⟩
  · simp [Option.isSome_iff_ne_none.mpr hbusy]
  · simp [hidle, hpool]
  · simp [hidle, hpage.not_ge, Option.isSome_iff_ne_none.mpr hret]
  · simp [hidle, hpage.not_ge, hnew, hfull]

/-- The state in which a retirement runs with a spare. -/
def hretRunning (stack page spare : Nat) (s : State) : State :=
  (({ s with umem := { s.umem with hretReq := some (stack, page, spare) } }).fset F.MEM_HRET_GO 1).fset F.MEM_STAT_HRET_BUSY 1

theorem hretGo_of_free {stack : Nat} {s : State} (hidle : s.umem.hretReq = none)
    (hpage : s.fget F.MEM_HRETPG_PAGE < s.poolFirst)
    (hnew : kvGet none s.umem.hbmRet (stack * 6291456 + s.fget F.MEM_HRETPG_PAGE) = none)
    (hcount : (s.hbmSpares stack).length < 4096) (hpool : (s.hbmSpares stack).length < s.poolPages) : hretGo stack s =
      hretRunning stack (s.fget F.MEM_HRETPG_PAGE) ((s.fset F.MEM_HRET_STACK stack).pickSpare stack).1
        ((s.fset F.MEM_HRET_STACK stack).pickSpare stack).2 := by
  simp [hretGo_eq, hidle, hpage.not_ge, hnew, hcount.not_ge, hpool.not_ge, hretRunning]

/-! ### The copy of a page (R226) -/

/-- No address stands twice in a memory in canonical form. -/
theorem nodup_of_memWf {m : List Host.Cell} (h : Memory.wf m = true) : (m.map Prod.fst).Nodup := by
  have hrising : ∀ (m : List Host.Cell) (lo : Nat), memWfFrom lo m = true →
      (∀ a ∈ m.map Prod.fst, lo ≤ a) ∧ (m.map Prod.fst).Nodup := by
    intro m
    induction m with
    | nil => simp
    | cons e m ih =>
      obtain ⟨a, b⟩ := e
      intro lo hwf
      simp only [memWfFrom, Bool.and_eq_true, decide_eq_true_eq] at hwf
      obtain ⟨hbound, hnodup⟩ := ih (a + 1) hwf.2
      refine ⟨?_, List.nodup_cons.mpr ⟨fun ha => absurd (hbound a ha) (by omega), hnodup⟩⟩
      intro x hx
      rcases List.mem_cons.mp hx with rfl | hx
      · exact hwf.1.1
      · exact hwf.1.1.trans (Nat.le_of_succ_le (hbound x hx))
  exact (hrising m 0 h).2

theorem kvGet_of_not_mem {α : Type} (d : α) {m : List (Nat × α)} {k : Nat} (h : k ∉ m.map Prod.fst) : kvGet d m k = d := by
  induction m with
  | nil => rfl
  | cons e m ih =>
    obtain ⟨a, v⟩ := e
    rw [List.map_cons, List.mem_cons, not_or] at h
    rw [kvGet, if_neg (Ne.symm h.1), ih h.2]

theorem memGet_memPut (m : List Host.Cell) (a x : Nat) (b : Byte) :
    memGet (memPut m a b) x = if x = a then b else memGet m x := by
  by_cases h : x = a
  · rw [if_pos h, h]
    exact (kvGet_kvSet _ _ _ _ _).trans (if_pos rfl)
  · rw [if_neg h]
    exact kvGet_kvSet_ne _ _ m b h

/-- Cells are put at an offset from their addresses. -/
def putCells (f t : Nat) (cells m : List Host.Cell) : List Host.Cell := cells.foldl (fun m e => memPut m (e.1 - f + t) e.2) m

theorem memGet_putCells_ne {f t x : Nat} {cells : List Host.Cell} (m : List Host.Cell) (h : ∀ e ∈ cells, e.1 - f + t ≠ x) :
    memGet (putCells f t cells m) x = memGet m x := by
  induction cells generalizing m with
  | nil => rfl
  | cons e cells ih =>
    refine (ih _ fun e he => h e (List.mem_cons_of_mem _ he)).trans ?_
    rw [memGet_memPut, if_neg (h e List.mem_cons_self).symm]

/-- Where a cell of an address was put, its byte stands; elsewhere what stood before. -/
theorem memGet_putCells {f t k : Nat} {cells : List Host.Cell} (m : List Host.Cell) (hf : ∀ e ∈ cells, f ≤ e.1) (hk : f ≤ k)
    (hnodup : (cells.map Prod.fst).Nodup) :
    memGet (putCells f t cells m) (k - f + t) = kvGet (memGet m (k - f + t)) cells k := by
  induction cells generalizing m with
  | nil => rfl
  | cons e cells ih =>
    obtain ⟨a, v⟩ := e
    obtain ⟨hnot, hrest⟩ := List.nodup_cons.mp hnodup
    have ha : f ≤ a := hf (a, v) List.mem_cons_self
    refine (ih _ (fun e he => hf e (List.mem_cons_of_mem _ he)) hrest).trans ?_
    by_cases hak : a = k
    · subst hak
      rw [kvGet_of_not_mem _ hnot, memGet_memPut, if_pos rfl, kvGet, if_pos rfl]
    · rw [memGet_memPut, if_neg (by omega), kvGet, if_neg hak]

/-- The address lies in the page that begins at an address. -/
def inPage (p a : Nat) : Bool := decide (p ≤ a) && decide (a < p + 4096)

theorem inPage_iff {p a : Nat} : inPage p a = true ↔ p ≤ a ∧ a < p + 4096 := by simp [inPage]

theorem mem_copyPage (f t : Nat) (s : State) : (copyPage f t s).mem =
    putCells f t (s.mem.filter fun e => inPage f e.1) (s.mem.filter fun e => !inPage t e.1) := rfl

theorem memGet_copyPage_outside {f t x : Nat} (s : State) (hx : ¬ (t ≤ x ∧ x < t + 4096)) :
    memGet (copyPage f t s).mem x = memGet s.mem x := by
  have hout : inPage t x = false := by rwa [← Bool.not_eq_true, inPage_iff]
  rw [mem_copyPage, memGet_putCells_ne]
  · exact (kvGet_filter_key _ s.mem (fun a => !inPage t a) x).trans (if_pos (by rw [hout]; rfl))
  · intro e he hex
    have hin := inPage_iff.mp (List.mem_filter.mp he).2
    omega

/-- A byte of the spare page reads as that of the page did, both being fill bytes where nothing was stored. -/
theorem memGet_copyPage_inside {f t k : Nat} {s : State} (hwf : Memory.wf s.mem = true) (hlo : f ≤ k) (hhi : k < f + 4096)
    (hdflt : memDflt (k - f + t) = memDflt k) : memGet (copyPage f t s).mem (k - f + t) = memGet s.mem k := by
  have hin : inPage f k = true := inPage_iff.mpr ⟨hlo, hhi⟩
  have hspare : inPage t (k - f + t) = true := inPage_iff.mpr (by omega)
  have hbelow : memGet (s.mem.filter fun e => !inPage t e.1) (k - f + t) = memDflt k :=
    ((kvGet_filter_key _ s.mem (fun a => !inPage t a) _).trans (if_neg (by rw [hspare]; decide))).trans hdflt
  rw [mem_copyPage, memGet_putCells _ (fun e he => (inPage_iff.mp (List.mem_filter.mp he).2).1) hlo
    ((nodup_of_memWf hwf).sublist (List.filter_sublist.map _)), hbelow, kvGet_filter_key _ _ (inPage f), if_pos hin]
  rfl

/-! ### HRET_COMPLETE -/

/-- The copy has read the page: its correctable errors are corrected (R223). -/
def pageCorrected (a : Nat) (s : State) : State :=
  (s.umem.bad.filter fun e => decide (a ≤ e.1) && decide (e.1 < a + 4096) && e.2 == 1).foldl (fun s e => memCe e.1 s) s

theorem pageCorrected_keeps (a : Nat) (s : State) : (pageCorrected a s).retirements = s.retirements ∧
    (pageCorrected a s).mem = s.mem ∧ (pageCorrected a s).seq = s.seq ∧ (pageCorrected a s).clauses = s.clauses := by
  have hfr : Fr 0x800402080 s (pageCorrected a s) := Fr.foldl (fun _ e h => memCe_frame e.1 h rfl) (Fr.refl _ s)
  have hret : (pageCorrected a s).retirements = s.retirements :=
    foldl_same State.retirements (f := fun t (e : Nat × Nat) => memCe e.1 t) (fun t e => retirements_memCe e.1 t) _ s
  exact ⟨hret, hfr.h_mem rfl, hfr.h_seq rfl, hfr.h_clauses rfl⟩

/-- The retirement runs no more. -/
def hretOver (s : State) : State :=
  (({ s with umem := { s.umem with hretReq := none } }).fset F.MEM_HRET_GO 0).fset F.MEM_STAT_HRET_BUSY 0

/-- The first byte of a page of a stack (R218). -/
def pageStart (stack page : Nat) : Nat := 0x001000000000 + stack * 0x600000000 + page * 4096

/-- The page is redirected to its copy where that was verified, with fewer than two mismatches. -/
def pageRetired (m stack page spare : Nat) (s : State) : State :=
  if 2 ≤ m then s
  else
    let c := copyPage (pageStart stack page) (pageStart stack spare) s
    { c with umem := { c.umem with hbmRet := kvSet none c.umem.hbmRet (stack * 6291456 + page) (some spare) } }

theorem pageRetired_of_mismatch {m : Nat} (stack page spare : Nat) (s : State) (hm : ¬ m < 2) : pageRetired m stack page spare s = s :=
  if_pos (not_lt.mp hm)

theorem pageRetired_of_verified {m : Nat} (stack page spare : Nat) (s : State) (hm : m < 2) :
    (pageRetired m stack page spare s).mem = (copyPage (pageStart stack page) (pageStart stack spare) s).mem ∧
      (pageRetired m stack page spare s).umem.hbmRet = kvSet none s.umem.hbmRet (stack * 6291456 + page) (some spare) := by
  rw [pageRetired, if_neg hm.not_ge]
  exact ⟨rfl, rfl⟩

theorem pageRetired_keeps (m stack page spare : Nat) (s : State) : (pageRetired m stack page spare s).fields = s.fields ∧
    (pageRetired m stack page spare s).umem.hretReq = s.umem.hretReq ∧ (pageRetired m stack page spare s).seq = s.seq ∧
    (pageRetired m stack page spare s).clauses = s.clauses := by
  unfold pageRetired
  split <;> exact ⟨rfl, rfl, rfl, rfl⟩

theorem hretEnd_of_none {s : State} (m : Nat) (h : s.umem.hretReq = none) : hretEnd m s = s := by rw [hretEnd, h]

theorem hretEnd_of_some {m stack page spare : Nat} {s : State} (h : s.umem.hretReq = some (stack, page, spare)) : hretEnd m s =
    hretReport stack page spare (if m < 2 then 0 else 4)
      (pageRetired m stack page spare (hretOver (pageCorrected (pageStart stack page) s))) := by
  rw [hretEnd, h]
  by_cases hm : 2 ≤ m
  · simp only [pageRetired, if_pos hm, if_neg hm.not_gt]
    rfl
  · simp only [pageRetired, if_neg hm, if_pos (not_le.mp hm)]
    rfl

/-! ### The bytes after a retirement (R226) -/

/-- An address of a page, by the page's first byte. -/
theorem mem_page_iff {stack page a : Nat} (hpage : page < 6291456) (ha : isHbm a = true) :
    hbmStack a * 6291456 + hbmPage a = stack * 6291456 + page ↔ pageStart stack page ≤ a ∧ a < pageStart stack page + 4096 := by
  simp only [isHbm, Bool.and_eq_true, decide_eq_true_eq] at ha
  unfold hbmStack hbmPage pageStart
  omega

theorem isHbm_of_page {stack page a : Nat} (hstack : stack < 4) (hpage : page < 6291456) (hlo : pageStart stack page ≤ a)
    (hhi : a < pageStart stack page + 4096) : isHbm a = true := by
  simp only [isHbm, Bool.and_eq_true, decide_eq_true_eq]
  unfold pageStart at hlo hhi
  omega

theorem memDflt_of_isHbm {a : Nat} (h : isHbm a = true) : memDflt a = 0x55#8 := by
  rw [memDflt, isUser, h, Bool.or_true, if_pos rfl]

/-- An address of a page that is redirected lies at the same place of its spare page. -/
theorem phys_of_redirected {stack page spare a : Nat} {s : State} (hpage : page < 6291456)
    (hret : kvGet none s.umem.hbmRet (stack * 6291456 + page) = some spare) (ha : isHbm a = true)
    (hlo : pageStart stack page ≤ a) (hhi : a < pageStart stack page + 4096) :
    s.phys a = a - pageStart stack page + pageStart stack spare := by
  have hkey := (mem_page_iff hpage ha).mpr ⟨hlo, hhi⟩
  have hstack : hbmStack a = stack := by
    simp only [isHbm, Bool.and_eq_true, decide_eq_true_eq] at ha
    unfold pageStart at hlo hhi
    unfold hbmStack
    omega
  rw [State.phys, if_pos ha, hkey, hret, hstack]
  unfold pageStart at *
  show _ + _ + _ + _ = _
  omega

/-- Every byte outside the spare page reads after the redirection as it did before. -/
theorem byteAt_of_redirected {stack page spare a : Nat} {s w : State} (hstack : stack < 4) (hpage : page < 6291456)
    (hspare : spare < 6291456) (hsound : Memory.wf s.mem = true)
    (hnew : kvGet none s.umem.hbmRet (stack * 6291456 + page) = none)
    (hphys : ¬ (pageStart stack spare ≤ s.phys a ∧ s.phys a < pageStart stack spare + 4096))
    (hmem : w.mem = (copyPage (pageStart stack page) (pageStart stack spare) s).mem)
    (hret : w.umem.hbmRet = kvSet none s.umem.hbmRet (stack * 6291456 + page) (some spare)) : w.byteAt a = s.byteAt a := by
  have hkept : w.phys a = s.phys a → w.byteAt a = s.byteAt a := by
    intro h
    rw [State.byteAt, h, hmem, memGet_copyPage_outside s hphys]
    rfl
  by_cases ha : isHbm a = true
  · by_cases hin : pageStart stack page ≤ a ∧ a < pageStart stack page + 4096
    · obtain ⟨hlo, hhi⟩ := hin
      have hw : w.phys a = a - pageStart stack page + pageStart stack spare :=
        phys_of_redirected hpage (by rw [hret, kvGet_kvSet, if_pos rfl]) ha hlo hhi
      have hs : s.phys a = a := by rw [State.phys, if_pos ha, (mem_page_iff hpage ha).mpr ⟨hlo, hhi⟩, hnew]
      have htarget : isHbm (a - pageStart stack page + pageStart stack spare) = true :=
        isHbm_of_page hstack hspare (by omega) (by omega)
      rw [State.byteAt, State.byteAt, hw, hs, hmem,
        memGet_copyPage_inside hsound hlo hhi (by rw [memDflt_of_isHbm htarget, memDflt_of_isHbm ha])]
    · refine hkept ?_
      rw [State.phys, State.phys, hret, kvGet_kvSet, if_neg (mt (mem_page_iff hpage ha).mp hin)]
  · refine hkept ?_
    rw [State.phys, State.phys, if_neg ha, if_neg ha]

/-- Settles O32: `hretGo_of_rule` gives the refusals, `hretGo_of_free` the retirement that runs, `byteAt_of_redirected` the bytes after
its end. -/
theorem hbmPagesRetire : Obligations.HbmPagesRetire := by
  unfold Obligations.HbmPagesRetire
  refine ⟨fun stack r s hstack hrule => ?_, fun stack s hstack hidle hpage hnew hcount hpool => ?_,
    fun m stack page spare s hreq hstack hpage hspare hne hsound hnew hphys => ?_, fun m s hidle => leads_of rfl ?_⟩
  · obtain ⟨hgo, hr⟩ := hretGo_of_rule hrule
    let page := s.fget F.MEM_HRETPG_PAGE
    let w := (s.fset F.MEM_HRET_STACK stack).freshNat.2
    have hw : onlyFields [F.MEM_HRET_STACK, F.MEM_HRET_RESULT, F.MEM_EVT_HRET] s w := (onlyFields.refl _ s).fset (by simp) stack
    obtain ⟨hres, hevt, honly⟩ := retireReport_reports (res := F.MEM_HRET_RESULT) (evt := F.MEM_EVT_HRET) 7
      [stack, page, (s.fset F.MEM_HRET_STACK stack).freshNat.1, r] w (by decide) rfl hr
    obtain ⟨humem, hmem, hseq, -⟩ := retireReport_keeps (res := F.MEM_HRET_RESULT) (evt := F.MEM_EVT_HRET) (result := r) 7
      [stack, page, (s.fset F.MEM_HRET_STACK stack).freshNat.1, r] w
    exact leads_of (congrArg Host.Outcome.next hgo) ⟨hres, hevt, humem, hmem, hseq, hw.trans (honly.mono (by simp))⟩
  · have hw : onlyFields [F.MEM_HRET_STACK, F.MEM_HRET_GO, F.MEM_STAT_HRET_BUSY] s
        ((s.fset F.MEM_HRET_STACK stack).pickSpare stack).2 := (onlyFields.refl _ s).fset (by simp) stack
    refine leads_of (congrArg Host.Outcome.next (hretGo_of_free hidle hpage hnew hcount hpool)) ⟨⟨_, rfl⟩, ?_,
      State.fget_fset_same _ _ 1, rfl, rfl, rfl, rfl, (onlyFields.fset hw (by simp) 1).fset (by simp) 1⟩
    exact (State.fget_fset_ne _ _ (by decide)).trans (State.fget_fset_same _ _ 1)
  · let c := pageCorrected (pageStart stack page) s
    let w := pageRetired m stack page spare (hretOver c)
    obtain ⟨hret, hcmem, hcseq, hcclauses⟩ := pageCorrected_keeps (pageStart stack page) s
    have hcret : c.umem.hbmRet = s.umem.hbmRet := congrArg (·.2.1) hret
    obtain ⟨hfields, hreqw, hwseq, hwclauses⟩ := pageRetired_keeps m stack page spare (hretOver c)
    let result := if m < 2 then 0 else 4
    have hsmall : result < 2 ^ F.MEM_HRET_RESULT.width := by
      show ite _ _ _ < _
      split <;> decide
    obtain ⟨hres, hevt, honly⟩ := retireReport_reports (res := F.MEM_HRET_RESULT) (evt := F.MEM_EVT_HRET) 7
      [stack, page, spare, result] w (by decide) rfl hsmall
    obtain ⟨humem, hmem, hseq, hclauses⟩ := retireReport_keeps (res := F.MEM_HRET_RESULT) (evt := F.MEM_EVT_HRET)
      (result := result) 7 [stack, page, spare, result] w
    obtain ⟨hlumem, hlmem, -, hlseq, hlclauses, hlfields⟩ := actsLog_keeps (congrArg actsLog (hretEnd_of_some (m := m) hreq))
    have hwfget : ∀ f, w.fget f = (hretOver c).fget f := fun f => congrArg (kvGet f.reset · f.key) hfields
    refine leads_of rfl ⟨?_, ?_, ?_, ?_, ?_, ?_, ?_, ?_, ?_⟩
    · rw [hlumem, hretReport_eq, humem, hreqw]
      rfl
    · rw [hlfields.fget_eq, hretReport_eq, honly _ (by decide), hwfget]
      exact (State.fget_fset_ne _ _ (by decide)).trans (State.fget_fset_same _ _ 0)
    · rw [hlfields.fget_eq, hretReport_eq, honly _ (by decide), hwfget]
      exact State.fget_fset_same _ _ 0
    · rw [hlfields.fget_eq]
      exact hres
    · rw [hlfields.fget_eq]
      exact hevt
    · intro hm
      rw [hlumem, hretReport_eq, humem, (pageRetired_of_verified stack page spare (hretOver c) hm).2, kvGet_kvSet, if_pos rfl]
    · intro a ha
      have hwbyte : w.byteAt a = c.byteAt a := by
        by_cases hm : m < 2
        · obtain ⟨hcopied, hredirected⟩ := pageRetired_of_verified stack page spare (hretOver c) hm
          have hcphys : (hretOver c).phys a = s.phys a := by
            unfold State.phys
            rw [← hcret]
            rfl
          refine byteAt_of_redirected (s := hretOver c) hstack hpage hspare ?_ ?_ ?_ hcopied hredirected
          · exact (congrArg Memory.wf hcmem).trans (Bool.and_eq_true_iff.mp hsound).1
          · exact (congrArg (kvGet none · _) hcret).trans hnew
          · rw [hcphys]
            exact hphys a ha
        · rw [show w = hretOver c from pageRetired_of_mismatch stack page spare _ hm]
          rfl
      refine (byteAt_congr (hlmem.trans hmem) ?_ a).trans (hwbyte.trans (byteAt_congr hcmem hcret a))
      rw [hlumem, hretReport_eq, humem]
    · exact hlseq.trans (hseq.trans (hwseq.trans hcseq))
    · exact hlclauses.trans (hclauses.trans (hwclauses.trans hcclauses))
  · obtain ⟨humem, hmem, hevq, hseq, -, hfields⟩ := actsLog_keeps (congrArg actsLog (hretEnd_of_none m hidle))
    exact ⟨humem, hmem, hevq, hseq, hfields⟩

end Sys2Proof.Machine
end

section
/-! Returns on their way, the temperatures of the stacks, and calibration slices (R214, R219, R221 to R223, R234, R237). -/
namespace Sys2Proof.Machine

/-! ### The return of a port that arrives (R214, R221) -/

/-- The return is the one that a port waits for: served, and not arrived. -/
def MemRet.comes (m : Nat) (hbm : Bool) (y : MemRet) : Prop := y.m = m ∧ y.hbm = hbm ∧ y.served = true ∧ y.arrived = false

theorem MemRet.not_comes {m : Nat} {hbm : Bool} {y : MemRet} (h : y.m = m → y.hbm = !hbm ∨ y.served = false ∨ y.arrived = true) :
    ¬ y.comes m hbm := by
  rintro ⟨hm, hhbm, hserved, harrived⟩
  rcases h hm with h | h | h
  · simp [hhbm] at h
  · simp [hserved] at h
  · simp [harrived] at h

theorem arrive_cons_of_not_comes {m : Nat} {hbm : Bool} {y : MemRet} (f : MemRet → MemRet) (rest : List MemRet)
    (h : ¬ y.comes m hbm) : arrive m hbm f (y :: rest) = y :: arrive m hbm f rest := by
  rw [arrive, if_neg]
  simpa [MemRet.comes, and_assoc] using h

theorem arrive_cons_of_comes {m : Nat} {hbm : Bool} {x : MemRet} (f : MemRet → MemRet) (rest : List MemRet)
    (h : x.comes m hbm) : arrive m hbm f (x :: rest) = { f x with arrived := true } :: rest := by
  obtain ⟨hm, hhbm, hserved, harrived⟩ := h
  simp [arrive, hm, hhbm, hserved, harrived]

theorem arrive_of_none {m : Nat} {hbm : Bool} {rets : List MemRet} (f : MemRet → MemRet) (h : ∀ y ∈ rets, ¬ y.comes m hbm) :
    arrive m hbm f rets = rets := by
  induction rets with
  | nil => rfl
  | cons y rest ih =>
    rw [arrive_cons_of_not_comes f rest (h y List.mem_cons_self), ih fun z hz => h z (List.mem_cons_of_mem y hz)]

/-- The first return that comes is the one that arrives. -/
theorem arrive_append {m : Nat} {hbm : Bool} {x : MemRet} {pre : List MemRet} (f : MemRet → MemRet) (rest : List MemRet)
    (hpre : ∀ y ∈ pre, ¬ y.comes m hbm) (hx : x.comes m hbm) :
    arrive m hbm f (pre ++ x :: rest) = pre ++ { f x with arrived := true } :: rest := by
  induction pre with
  | nil => exact arrive_cons_of_comes f rest hx
  | cons y pre ih =>
    rw [List.cons_append, arrive_cons_of_not_comes f _ (hpre y List.mem_cons_self),
      ih fun z hz => hpre z (List.mem_cons_of_mem y hz), List.cons_append]

theorem exec_memReturnArrive (m : Nat) (s : State) :
    exec (.memReturnArrive m) s = .next (s.setRets (arrive m false id s.umem.rets)) := rfl

/-! ### An HBM return (R220 to R223, R226) -/

theorem exec_hbmReturn {ups : List Upset} {s u : State} (m : Nat) (hu : u = upsets ups s) :
    exec (.hbmReturn m ups) s = .next (hbmArrive m (fun a => u.memMark a != s.memMark a) u) := by
  rw [hu]
  rfl

/-- `MemRet.comes` for an HBM return, as the model tests it. -/
def MemRet.hbmComes (m : Nat) (x : MemRet) : Bool := x.m == m && x.hbm && x.served && !x.arrived

theorem MemRet.hbmComes_iff {m : Nat} {x : MemRet} : x.hbmComes m = true ↔ x.comes m true := by
  simp [MemRet.hbmComes, MemRet.comes, and_assoc]

/-- The return that an HBM port waits for. -/
def State.hbmDue (s : State) (m : Nat) : Option MemRet := s.umem.rets.find? (MemRet.hbmComes m)

theorem hbmDue_eq (m : Nat) (s : State) :
    s.umem.rets.find? (fun x => x.m == m && x.hbm && x.served && !x.arrived) = s.hbmDue m := rfl

theorem hbmDue_of_first {m : Nat} {s : State} {x : MemRet} {pre rest : List MemRet} (hrets : s.umem.rets = pre ++ x :: rest)
    (hpre : ∀ y ∈ pre, ¬ y.comes m true) (hx : x.comes m true) : s.hbmDue m = some x := by
  have hnone : pre.find? (MemRet.hbmComes m) = none := List.find?_eq_none.mpr fun y hy => mt MemRet.hbmComes_iff.mp (hpre y hy)
  rw [State.hbmDue, hrets, List.find?_append, hnone, Option.none_or, List.find?_cons_of_pos (MemRet.hbmComes_iff.mpr hx)]

theorem hbmDue_comes {m : Nat} {s : State} {x : MemRet} (h : s.hbmDue m = some x) : x ∈ s.umem.rets ∧ x.comes m true :=
  ⟨List.mem_of_find?_eq_some h, MemRet.hbmComes_iff.mp (List.find?_some h)⟩

theorem hbmArrive_of_none {m : Nat} {s : State} (struck : Nat → Bool) (h : s.hbmDue m = none) : hbmArrive m struck s = s := by
  simp only [hbmArrive, hbmDue_eq, h]

/-- Nothing holds a return back: its controller tracks it, and neither a calibration slice nor a page copy holds its place. -/
def State.retFree (s : State) (x : MemRet) : Prop :=
  x ∈ s.hbmTracked (hbmStack x.addr) ∧ s.hbmHeld x.addr = false ∧ s.pageCopied x.addr = false

theorem hbmArrive_of_held {m : Nat} {s : State} {x : MemRet} (struck : Nat → Bool) (h : s.hbmDue m = some x)
    (hheld : ¬ s.retFree x) : hbmArrive m struck s = s := by
  simp only [hbmArrive, hbmDue_eq, h]
  rw [if_pos]
  by_contra hnone
  simp only [Bool.or_eq_true, Bool.not_eq_true', List.contains_eq_mem, decide_eq_false_iff_not, not_or, not_not,
    Bool.not_eq_true] at hnone
  exact hheld ⟨hnone.1.1, hnone.1.2, hnone.2⟩

/-- The values of a return whose burst an upset struck: read again where that is uncorrectable, else as they stand. -/
def MemRet.reread (x : MemRet) (s : State) : List Val :=
  if s.memMark x.addr == 2 then s.readVals x.width (s.bytes x.addr x.stride) true else x.vals

theorem hbmArrive_of_free {m : Nat} {s : State} {x : MemRet} {struck : Nat → Bool} (h : s.hbmDue m = some x) (hfree : s.retFree x) :
    hbmArrive m struck s =
      if struck x.addr then (wordChecked m x.addr false s).setRets
        (arrive m true (fun y => { y with vals := x.reread s }) (wordChecked m x.addr false s).umem.rets)
      else s.setRets (arrive m true id s.umem.rets) := by
  obtain ⟨htracked, hheld, hcopied⟩ := hfree
  simp only [hbmArrive, hbmDue_eq, h]
  rw [if_neg (by simp [htracked, hheld, hcopied])]
  rfl

/-! ### An uncorrectable burst of HBM (R223) -/

/-- The state in which MEM_HBM_UE is raised: the error counted for the device and for its stack. -/
def hbmUeCounted (a : Nat) (s : State) : State :=
  { s.count F.MEM_CNT_HUE_COUNT with umem := { s.umem with hbmUe := kvMod 0 s.umem.hbmUe (hbmStack a) (satSucc 32) } }

theorem memUe_of_not_isLex {a : Nat} (master : Nat) (write : Bool) (s : State) (h : isLex a = false) :
    memUe a master write s = sparingSeen (.hbmPage (hbmStack a) (hbmPage a)) ((hbmUeCounted a s).raise F.MEM_EVT_HBM_UE 10 4
      ([hbmStack a, hbmPage a, master, write.toNat] ++ if master < 256 then w64 s.seq.step else w64none)) := by
  rw [memUe, if_neg (by rw [h]; decide)]
  rfl

/-- An uncorrectable burst of HBM is counted and raised; no stored byte, no clause, no step and no other register changes. -/
theorem memUe_hbm_reports {a : Nat} {s t : State} (master : Nat) (write : Bool) (h : isLex a = false)
    (ht : t = memUe a master write s) :
    counted F.MEM_CNT_HUE_COUNT s t ∧ t.fget F.MEM_EVT_HBM_UE = 1 ∧ t.mem = s.mem ∧ t.clauses = s.clauses ∧ t.seq = s.seq ∧
      onlyFields [F.MEM_CNT_HUE_COUNT, F.MEM_EVT_HBM_UE] s t := by
  rw [memUe_of_not_isLex master write s h] at ht
  let w := hbmUeCounted a s
  let v := w.raise F.MEM_EVT_HBM_UE 10 4
    ([hbmStack a, hbmPage a, master, write.toNat] ++ if master < 256 then w64 s.seq.step else w64none)
  have hfr : Fr 0x400000 v t := ht ▸ sparingSeen_frame _ (Fr.refl _ v) rfl
  have hseen : onlyFields [] v t := onlyFields.of_frame [] (by decide) hfr
  have hw : onlyFields [F.MEM_CNT_HUE_COUNT, F.MEM_EVT_HBM_UE] s w :=
    (onlyFields.refl _ s).fset List.mem_cons_self (satSucc 32 (s.fget F.MEM_CNT_HUE_COUNT))
  refine ⟨?_, (hseen.fget_eq _).trans (w.fget_raise_same _ _ _ _), (hfr.h_mem rfl).trans (w.mem_raise _ _ _ _),
    (hfr.h_clauses rfl).trans (w.clauses_raise _ _ _ _), (hfr.h_seq rfl).trans (w.seq_raise _ _ _ _),
    (hw.raise (by simp) _ _ _).trans (hseen.mono (by simp))⟩
  exact (hseen.fget_eq _).trans ((w.fget_raise_ne _ _ _ (by decide)).trans (s.fget_count_same F.MEM_CNT_HUE_COUNT))

/-! ### Calibration slices begin (R222) -/

theorem maskOf_succ (n : Nat) (p : Nat → Bool) : maskOf (n + 1) p = maskOf n p + (p n).toNat * 2 ^ n := by
  rw [maskOf, List.range_succ, List.foldl_append]
  rfl

/-- The mask of the bits of a number is the number cut to its width. -/
theorem maskOf_nbit (n w : Nat) : maskOf n (nbit w) = w % 2 ^ n := by
  induction n with
  | zero => exact (Nat.mod_one w).symm
  | succ n ih =>
    have hbit : (nbit w n).toNat = w / 2 ^ n % 2 := by
      rw [nbit, Nat.shiftRight_eq_div_pow]
      rcases Nat.mod_two_eq_zero_or_one (w / 2 ^ n) with h | h <;> rw [h] <;> rfl
    rw [maskOf_succ, ih, hbit, Nat.mod_pow_succ, Nat.mul_comm]

/-- The stacks of a mask that run no slice. -/
def State.calNew (s : State) (mask : Nat) : Nat := maskOf 4 fun k => nbit mask k && !nbit (s.fget F.MEM_STAT_CAL_BUSY) k

/-- The temperatures at which slices begin are noted (R572). -/
def calNoted (mask : Nat) (s : State) : State :=
  { s with plt := { s.plt with
    calTemp := (maskBits 4 (s.calNew mask)).foldl (fun m k => kvSet 0 m k (s.fget (htempFld k))) s.plt.calTemp } }

theorem calStart_go (mask : Nat) (s : State) : calStart mask true s =
    ((calNoted mask s).fset F.MEM_STAT_CAL_BUSY (s.fget F.MEM_STAT_CAL_BUSY + s.calNew mask)).fset F.MEM_CAL_GO
      (maskOf 4 fun k => nbit (s.fget F.MEM_CAL_GO) k || nbit (s.calNew mask) k) := rfl

theorem calNew_of_idle {s : State} (mask : BitVec 4) (h : s.fget F.MEM_STAT_CAL_BUSY = 0) : s.calNew mask.toNat = mask.toNat := by
  have hnone : (fun k => nbit mask.toNat k && !nbit 0 k) = nbit mask.toNat := by
    funext k
    simp [nbit_eq_testBit]
  rw [State.calNew, h, hnone, maskOf_nbit, Nat.mod_eq_of_lt mask.isLt]

/-! ### A calibration slice ends (R222, R234, R237) -/

/-- A slice that the scheduler asked for is reported to it (R572). -/
def calReported (k : Nat) (ok : Bool) (s : State) : State :=
  if nbit (s.fget F.MEM_CAL_GO) k then s else s.raise F.PLT_EVT_CAL 0 7 [0, k, (!ok).toNat]

/-- The stack runs no slice. -/
def calCleared (k : Nat) (s : State) : State :=
  (s.fset F.MEM_STAT_CAL_BUSY (putBit (s.fget F.MEM_STAT_CAL_BUSY) k false)).fset F.MEM_CAL_GO
    (putBit (s.fget F.MEM_CAL_GO) k false)

theorem fget_calReported_ne {f : Fld} (k : Nat) (ok : Bool) (s : State) (h : f.key ≠ F.PLT_EVT_CAL.key) :
    (calReported k ok s).fget f = s.fget f := by
  unfold calReported
  split
  · rfl
  · exact s.fget_raise_ne _ _ _ h

theorem nbit_fset_cleared {k : Nat} (s : State) (f : Fld) (v : Nat) :
    nbit ((s.fset f (putBit v k false)).fget f) k = false := by
  rw [State.fget_fset_same, nbit_eq_testBit, Nat.testBit_mod_two_pow, ← nbit_eq_testBit, nbit_putBit, if_pos rfl, Bool.and_false]

/-- The end of a slice as its stack reports it (R237). -/
def calEnded (k : Nat) (payload : List Nat) (s : State) : State := (calCleared k s).raise F.MEM_EVT_CAL 10 10 payload

/-- The end of a slice is posted, and leaves neither the slice nor its request standing. -/
theorem calEnded_ends (k : Nat) (payload : List Nat) (q : List NocAcc) (s : State) {t : State}
    (ht : t = (calEnded k payload s).setNocq q) :
    posted F.MEM_EVT_CAL 10 10 payload s t ∧ nbit (t.fget F.MEM_STAT_CAL_BUSY) k = false ∧
      nbit (t.fget F.MEM_CAL_GO) k = false ∧ t.mem = s.mem ∧ t.seq = s.seq ∧
      onlyFields [F.MEM_STAT_CAL_BUSY, F.MEM_CAL_GO, F.MEM_EVT_CAL] s t := by
  let w := calCleared k s
  have hw : onlyFields [F.MEM_STAT_CAL_BUSY, F.MEM_CAL_GO, F.MEM_EVT_CAL] s w :=
    ((onlyFields.refl _ s).fset (by simp) _).fset (by simp) _
  have hfget : ∀ f, t.fget f = (calEnded k payload s).fget f := fun f => by rw [ht]; rfl
  have hposted : posted F.MEM_EVT_CAL 10 10 payload s (calEnded k payload s) :=
    posted_raise (t := w) 10 10 payload rfl rfl rfl rfl (hw (evten F.MEM_EVT_CAL) (by decide))
  refine ⟨⟨(hfget _).trans hposted.1, by rw [ht]; exact hposted.2⟩, ?_, ?_, by rw [ht]; exact w.mem_raise _ _ _ _,
    by rw [ht]; exact w.seq_raise _ _ _ _, fun g hg => (hfget g).trans (hw.raise (by simp) _ _ _ g hg)⟩
  · rw [hfget, calEnded, State.fget_raise_ne _ _ _ _ (by decide), calCleared, State.fget_fset_ne _ _ (by decide),
      nbit_fset_cleared]
  · rw [hfget, calEnded, State.fget_raise_ne _ _ _ _ (by decide), calCleared, nbit_fset_cleared]

theorem calEnd_of_busy {k : Nat} {s : State} (ok : Bool) (lanes ns : Nat) (h : nbit (s.fget F.MEM_STAT_CAL_BUSY) k = true) :
    calEnd k ok lanes ns s = calEnded k [k, (!ok).toNat, ns, if ok then lanes else 0] (calReported k ok s) := by
  simp only [calEnd, h, if_true, calEnded, calCleared, fget_calReported_ne k ok s (f := F.MEM_STAT_CAL_BUSY) (by decide)]
  rfl

/-- A NoC access waits for a stack. -/
def NocAcc.waitsFor (k : Nat) (x : NocAcc) : Bool := isHbm x.addr && hbmStack x.addr == k

/-- An access that waited for a stack is served as a whole (R222). -/
def stackServe (s : State) (x : NocAcc) : State :=
  if x.write then nocAnswer x (if (nocWrite x.kind x.addr x.data s).1 then 0 else 2) [] (nocWrite x.kind x.addr x.data s).2
  else
    let r := nocRead x.kind x.addr x.size s
    nocAnswer x (if r.2.1 then 0 else 2) (if r.2.1 then r.1 else []) r.2.2

theorem calSliceEnd_of_busy {k : Nat} {s : State} (ok : Bool) (lanes ns : Nat) (h : nbit (s.fget F.MEM_STAT_CAL_BUSY) k = true) :
    calSliceEnd k ok lanes ns s = (s.umem.nocq.filter (NocAcc.waitsFor k)).foldl stackServe
      ((calEnd k ok lanes ns s).setNocq (s.umem.nocq.filter fun x => !x.waitsFor k)) := by
  have humem : (calEnd k ok lanes ns s).umem = s.umem := (calEnd_frame k ok lanes ns (Fr.refl 0x802000080 s) rfl).h_umem rfl
  simp only [calSliceEnd, h, Bool.not_true, Bool.false_eq_true, if_false, State.setNocq, humem]
  rfl

theorem calSliceEnd_of_idle {k : Nat} {s : State} (ok : Bool) (lanes ns : Nat) (h : nbit (s.fget F.MEM_STAT_CAL_BUSY) k = false) :
    calSliceEnd k ok lanes ns s = s := by
  rw [calSliceEnd, h]
  rfl

/-- Where no access waits for the stack, the end of its slice changes no queue. -/
theorem calSliceEnd_of_none_waiting {k : Nat} {s : State} (ok : Bool) (lanes ns : Nat)
    (h : nbit (s.fget F.MEM_STAT_CAL_BUSY) k = true) (hnone : ∀ x ∈ s.umem.nocq, isHbm x.addr = true → hbmStack x.addr ≠ k) :
    calSliceEnd k ok lanes ns s = (calEnded k [k, (!ok).toNat, ns, if ok then lanes else 0] (calReported k ok s)).setNocq
      (s.umem.nocq.filter fun x => !x.waitsFor k) := by
  have hempty : s.umem.nocq.filter (NocAcc.waitsFor k) = [] :=
    List.filter_eq_nil_iff.mpr fun x hx => by simpa [NocAcc.waitsFor] using hnone x hx
  rw [calSliceEnd_of_busy ok lanes ns h, hempty, calEnd_of_busy ok lanes ns h]
  rfl

/-- A host read within one burst without an error mark is answered with its bytes. -/
theorem stackServe_of_read {off : Nat} {x : NocAcc} {s : State} (hreply : x.reply = .bar2 off) (hread : x.write = false)
    (hsome : 0 < x.size) (hword : x.addr % 32 + x.size ≤ 32) (hmark : s.memMark x.addr = 0) :
    stackServe s x = s.emit (.completion false (s.bytes x.addr x.size)) := by
  simp [stackServe, hread, nocRead_of_word x.kind hsome hword hmark, nocAnswer, hreply, hostAnswer]

/-! ### The statement -/

theorem leads_hbmUe (m : Nat) (ups : List Upset) (s u : State) (x : MemRet) (pre rest : List MemRet) (hu : u = upsets ups s)
    (hrets : u.umem.rets = pre ++ x :: rest) (hpre : ∀ y ∈ pre, ¬ y.comes m true) (hx : x.comes m true) (hfree : u.retFree x)
    (hbefore : s.memMark x.addr ≠ 2) (hmark : u.memMark x.addr = 2) (hlex : isLex x.addr = false) :
    leads (.hbmReturn m ups) s fun t =>
      (∃ y, t.umem.rets = pre ++ y :: rest ∧ y.arrived = true ∧ y.m = m ∧
        (u.seq.twostate = true → y.vals = elemVals true x.width (u.bytes x.addr x.stride)) ∧
        (u.seq.twostate = false → ∀ j, j < x.width → j < 128 → y.vals.getD j v0 = vX)) ∧
      t.mem = u.mem ∧ t.clauses = u.clauses ∧ t.seq = u.seq ∧ t.fget F.MEM_EVT_HBM_UE = 1 ∧ counted F.MEM_CNT_HUE_COUNT u t ∧
      onlyFields [F.MEM_CNT_HUE_COUNT, F.MEM_EVT_HBM_UE] u t := by
  have hkept : (memUe x.addr m false u).umem.rets = pre ++ x :: rest :=
    (congrArg (·.2.2) (traffic_memUe x.addr m false u)).trans hrets
  obtain ⟨hcount, hevent, hmem, hclauses, hseq, hfields⟩ := memUe_hbm_reports (s := u) m false hlex rfl
  refine leads_of (exec_hbmReturn m hu) ?_
  rw [hbmArrive_of_free (hbmDue_of_first hrets hpre hx) hfree, if_pos (by simp [hmark, Ne.symm hbefore]),
    wordChecked_of_uncorrectable m false hmark, hkept, arrive_append _ rest hpre hx]
  refine ⟨⟨_, rfl, rfl, hx.1, fun htwo => ?_, fun hfour j hj hj128 => ?_⟩, hmem, hclauses, hseq, hevent, hcount, hfields⟩
  · rw [MemRet.reread, hmark]
    exact readVals_of_twostate _ _ _ htwo
  · rw [MemRet.reread, hmark]
    exact readVals_of_uncorrectable _ hfour hj hj128

theorem leads_memCalGo (mask : BitVec 4) (s : State) : leads (.memCalGo mask) s fun t =>
    t.mem = s.mem ∧ t.evq = s.evq ∧ t.seq = s.seq ∧ t.clauses = s.clauses ∧ onlyFields [F.MEM_STAT_CAL_BUSY, F.MEM_CAL_GO] s t ∧
    (s.fget F.MEM_STAT_CAL_BUSY = 0 → t.fget F.MEM_STAT_CAL_BUSY = mask.toNat) ∧
    (s.fget F.MEM_STAT_CAL_BUSY = 0 → s.fget F.MEM_CAL_GO = 0 → t.fget F.MEM_CAL_GO = mask.toNat) := by
  refine leads_of (congrArg Host.Outcome.next (calStart_go mask.toNat s)) ⟨rfl, rfl, rfl, rfl, ?_, fun hidle => ?_,
    fun hidle hgo => ?_⟩
  · exact (onlyFields.fset (onlyFields.refl _ s) (by simp) _).fset (by simp) _
  · rw [State.fget_fset_ne _ _ (by decide), State.fget_fset_same, hidle, calNew_of_idle mask hidle, Nat.zero_add]
    exact Nat.mod_eq_of_lt mask.isLt
  · have hmask : (fun k => nbit 0 k || nbit mask.toNat k) = nbit mask.toNat := by
      funext k
      simp [nbit_eq_testBit]
    rw [State.fget_fset_same, hgo, calNew_of_idle mask hidle, hmask, maskOf_nbit]
    simp [Nat.mod_eq_of_lt mask.isLt]

section
variable {k : Nat} {s : State} (lanes ns : Nat) (ok : Bool) (hbusy : nbit (s.fget F.MEM_STAT_CAL_BUSY) k = true)
include hbusy

theorem leads_sliceEnds (hgo : nbit (s.fget F.MEM_CAL_GO) k = true)
    (hnone : ∀ x ∈ s.umem.nocq, isHbm x.addr = true → hbmStack x.addr ≠ k) :
    leads (.calSliceEnd k ok lanes ns) s fun t => posted F.MEM_EVT_CAL 10 10 [k, (!ok).toNat, ns, if ok then lanes else 0] s t ∧
      nbit (t.fget F.MEM_STAT_CAL_BUSY) k = false ∧ nbit (t.fget F.MEM_CAL_GO) k = false ∧ t.mem = s.mem ∧ t.seq = s.seq ∧
      onlyFields [F.MEM_STAT_CAL_BUSY, F.MEM_CAL_GO, F.MEM_EVT_CAL] s t := by
  have hend := calSliceEnd_of_none_waiting ok lanes ns hbusy hnone
  rw [show calReported k ok s = s from if_pos hgo] at hend
  exact leads_of rfl (calEnded_ends k _ _ s hend)

theorem leads_scheduledSliceEnds (hgo : nbit (s.fget F.MEM_CAL_GO) k = false)
    (hnone : ∀ x ∈ s.umem.nocq, isHbm x.addr = true → hbmStack x.addr ≠ k) :
    leads (.calSliceEnd k ok lanes ns) s fun t => posted F.PLT_EVT_CAL 0 7 [0, k, (!ok).toNat] s
        { t with evq := t.evq.take (s.evq.length + (s.fbit (evten F.PLT_EVT_CAL)).toNat) } ∧
      t.fget F.MEM_EVT_CAL = 1 ∧ nbit (t.fget F.MEM_STAT_CAL_BUSY) k = false ∧ t.mem = s.mem ∧ t.seq = s.seq ∧
      onlyFields [F.MEM_STAT_CAL_BUSY, F.MEM_CAL_GO, F.MEM_EVT_CAL, F.PLT_EVT_CAL] s t := by
  have hend := calSliceEnd_of_none_waiting ok lanes ns hbusy hnone
  rw [show calReported k ok s = s.raise F.PLT_EVT_CAL 0 7 [0, k, (!ok).toNat] from if_neg (by rw [hgo]; decide)] at hend
  let r := s.raise F.PLT_EVT_CAL 0 7 [0, k, (!ok).toNat]
  have hr : onlyFields [F.MEM_STAT_CAL_BUSY, F.MEM_CAL_GO, F.MEM_EVT_CAL, F.PLT_EVT_CAL] s r :=
    (onlyFields.refl _ s).raise (by simp) _ _ _
  obtain ⟨⟨hevent, hevq⟩, hnobusy, -, hmem, hseq, hfields⟩ := calEnded_ends k _ _ r hend
  have hlen : s.evq.length + (s.fbit (evten F.PLT_EVT_CAL)).toNat = r.evq.length := by
    rw [s.evq_raise, List.length_append]
    cases s.fbit (evten F.PLT_EVT_CAL) <;> rfl
  refine leads_of rfl ⟨⟨(hfields _ (by decide)).trans (s.fget_raise_same _ _ _ _), ?_⟩, hevent, hnobusy,
    hmem.trans (s.mem_raise _ _ _ _), hseq.trans (s.seq_raise _ _ _ _), hr.trans (hfields.mono (by simp))⟩
  show List.take _ (calSliceEnd k ok lanes ns s).evq = _
  rw [hevq, hlen, List.take_left]
  exact s.evq_raise _ _ _ _

theorem leads_sliceEndServes {off : Nat} {x : NocAcc} (hq : s.umem.nocq = [x]) (hwaits : x.waitsFor k = true)
    (hreply : x.reply = .bar2 off) (hread : x.write = false) (hsome : 0 < x.size) (hword : x.addr % 32 + x.size ≤ 32)
    (hmark : s.memMark x.addr = 0) : leads (.calSliceEnd k ok lanes ns) s fun t =>
      t.out = s.out ++ [.completion false (s.bytes x.addr x.size)] ∧
      t.umem.nocq = [] ∧ t.fget F.MEM_EVT_CAL = 1 ∧ t.mem = s.mem ∧ t.clauses = s.clauses ∧ t.seq = s.seq := by
  let e := calEnd k ok lanes ns s
  have hfr : Fr 0x802000080 s e := calEnd_frame k ok lanes ns (Fr.refl _ s) rfl
  have humem : e.umem = s.umem := hfr.h_umem rfl
  have hend : calSliceEnd k ok lanes ns s = stackServe (e.setNocq []) x := by
    rw [calSliceEnd_of_busy ok lanes ns hbusy, hq, List.filter_cons_of_pos hwaits, List.filter_cons_of_neg (by simp [hwaits])]
    rfl
  have hret : (e.setNocq []).umem.hbmRet = s.umem.hbmRet := (congrArg Mem.hbmRet humem : e.umem.hbmRet = _)
  have hsame : (e.setNocq []).memMark x.addr = s.memMark x.addr := by
    unfold State.memMark State.phys
    rw [hret, show (e.setNocq []).umem.bad = s.umem.bad from (congrArg Mem.bad humem : e.umem.bad = _)]
  have hbytes : (e.setNocq []).bytes x.addr x.size = s.bytes x.addr x.size :=
    List.map_congr_left fun i _ => byteAt_congr (hfr.h_mem rfl) hret _
  have hevent : e.fget F.MEM_EVT_CAL = 1 := by
    rw [show e = _ from calEnd_of_busy ok lanes ns hbusy]
    exact State.fget_raise_same _ _ _ _ _
  refine leads_of (congrArg Host.Outcome.next hend) ?_
  rw [stackServe_of_read hreply hread hsome hword (hsame.trans hmark), hbytes]
  exact ⟨congrArg (· ++ _) (hfr.h_out rfl), rfl, hevent, hfr.h_mem rfl, hfr.h_clauses rfl, hfr.h_seq rfl⟩

end

theorem width_htempFld (k : Nat) : (htempFld k).width = 8 := by
  unfold htempFld
  split <;> rfl

/-- Settles O30: `arrive_append` and `hbmArrive_of_free` give the return that arrives, `calStart_go` and `calSliceEnd_of_busy` the
slices. -/
theorem returnsAndCalibration : Obligations.ReturnsAndCalibration := by
  unfold Obligations.ReturnsAndCalibration
  refine ⟨fun m s x pre rest hrets hpre hm hhbm hserved harrived => ?_, fun m s hnone => ?_,
    fun m ups s u x pre rest hu hrets hpre hm hhbm hserved harrived htracked hheld hcopied hmark => ?_,
    fun m ups s u x pre rest hu hrets hpre hm hhbm hserved harrived htracked hheld hcopied hbefore hmark hlex =>
      leads_hbmUe m ups s u x pre rest hu hrets (fun y hy => MemRet.not_comes (hpre y hy)) ⟨hm, hhbm, hserved, harrived⟩
        ⟨htracked, hheld, hcopied⟩ hbefore hmark hlex,
    fun m ups s u hu hnone => (exec_hbmReturn m hu).trans (congrArg Host.Outcome.next ?_), fun k all s => rfl,
    fun k b s _ => leads_of rfl ⟨?_, (onlyFields.refl _ s).fset List.mem_cons_self _, rfl, rfl, rfl⟩, leads_memCalGo,
    fun k lanes ns ok s _ hbusy hgo hnone => leads_sliceEnds lanes ns ok hbusy hgo hnone,
    fun k lanes ns ok s _ hbusy hgo hnone => leads_scheduledSliceEnds lanes ns ok hbusy hgo hnone,
    fun k lanes ns off ok s x _ hbusy hq hhbm hstack hreply hread hsome hword hmark =>
      leads_sliceEndServes lanes ns ok hbusy hq (by simp [NocAcc.waitsFor, hhbm, hstack]) hreply hread hsome hword hmark,
    fun k lanes ns ok s hidle => congrArg Host.Outcome.next (calSliceEnd_of_idle ok lanes ns hidle)⟩
  · rw [exec_memReturnArrive, hrets,
      arrive_append id rest (fun y hy => MemRet.not_comes (hpre y hy)) ⟨hm, hhbm, hserved, harrived⟩]
    rfl
  · rw [exec_memReturnArrive, arrive_of_none id fun y hy => MemRet.not_comes (hnone y hy)]
    rfl
  · have hpre' : ∀ y ∈ pre, ¬ y.comes m true := fun y hy => MemRet.not_comes (hpre y hy)
    have hx : x.comes m true := ⟨hm, hhbm, hserved, harrived⟩
    rw [exec_hbmReturn m hu, hbmArrive_of_free (hbmDue_of_first hrets hpre' hx) ⟨htracked, hheld, hcopied⟩,
      if_neg (by simp [hmark]), hrets, arrive_append id rest hpre' hx]
    rfl
  · cases hdue : u.hbmDue m with
    | none => exact hbmArrive_of_none _ hdue
    | some x =>
      obtain ⟨hx, hm, hhbm, hserved, harrived⟩ := hbmDue_comes hdue
      refine hbmArrive_of_held _ hdue ?_
      rintro ⟨htracked, hheld, hcopied⟩
      simpa [hhbm, hserved, harrived, htracked, hheld, hcopied] using hnone x hx hm
  · rw [State.fget_fset_same, width_htempFld]
    exact Nat.mod_eq_of_lt b.isLt

end Sys2Proof.Machine
end

section
/-! Accesses of memory in pieces: words, bursts and packets that tile a range, and what a write and a read of all of them do
(R223, R455, R461, R515). -/
namespace Sys2Proof.Machine

/-! ### Pieces that tile a range -/

/-- The pieces, each an address and a length, follow one another from an address to another. -/
def tiles (a e : Nat) : List (Nat × Nat) → Prop
  | [] => a = e
  | p :: ps => p.1 = a ∧ tiles (a + p.2) e ps

theorem le_of_tiles {a e : Nat} {ps : List (Nat × Nat)} (h : tiles a e ps) : a ≤ e := by
  induction ps generalizing a with
  | nil => exact h.le
  | cons p ps ih => exact (Nat.le_add_right a p.2).trans (ih h.2)

theorem mem_of_tiles {a e : Nat} {ps : List (Nat × Nat)} (h : tiles a e ps) {p : Nat × Nat} (hp : p ∈ ps) :
    a ≤ p.1 ∧ p.1 + p.2 ≤ e := by
  induction ps generalizing a with
  | nil => cases hp
  | cons q ps ih =>
    obtain ⟨hq, hrest⟩ := h
    rcases List.mem_cons.mp hp with rfl | hp
    · exact ⟨hq.ge, hq ▸ le_of_tiles hrest⟩
    · obtain ⟨hlo, hhi⟩ := ih hrest hp
      exact ⟨(Nat.le_add_right a q.2).trans hlo, hhi⟩

/-- The part of a range in block i of a row of blocks of one width. -/
def blockPart (w b a n i : Nat) : Nat × Nat := (max a (b + w * i), min (a + n) (b + w * (i + 1)) - max a (b + w * i))

/-- The parts of a range in the blocks that it touches tile it. -/
theorem tiles_blockPart {w b a n k : Nat} (hb : b ≤ a) (hbw : a < b + w) (hin : ∀ i, i < k → b + w * i ≤ a + n)
    (hend : a + n ≤ b + w * k) : tiles a (a + n) ((List.range k).map (blockPart w b a n)) := by
  have hfrom : ∀ j i, i + j = k →
      tiles (min (a + n) (max a (b + w * i))) (a + n) ((List.range' i j).map (blockPart w b a n)) := by
    intro j
    induction j with
    | zero =>
      rintro i rfl
      show min (a + n) (max a (b + w * i)) = a + n
      have hend' : a + n ≤ b + w * i := hend
      omega
    | succ j ih =>
      intro i hij
      have hi := hin i (by omega)
      have hnext := ih (i + 1) (by omega)
      rw [List.range'_succ, List.map_cons]
      refine ⟨by simp only [blockPart]; omega, ?_⟩
      convert hnext using 1
      rw [Nat.mul_succ] at *
      simp only [blockPart, Nat.mul_succ]
      omega
  have hall := hfrom k 0 (Nat.zero_add k)
  rw [← List.range_eq_range', Nat.mul_zero, Nat.add_zero, Nat.max_eq_left hb, Nat.min_eq_right (Nat.le_add_right a n)] at hall
  exact hall

theorem tiles_memPieces (a n : Nat) : tiles a (a + n) (memPieces a n) :=
  tiles_blockPart (w := 32) (b := wordBase a) (by unfold wordBase; omega) (by unfold wordBase; omega)
    (by unfold wordBase; omega) (by unfold wordBase; omega)

theorem tiles_packetsOf (a n : Nat) : tiles a (a + n) (packetsOf a n) :=
  tiles_blockPart (w := 256) (b := a - a % 256) (by omega) (by omega) (by omega) (by omega)

/-- No packet of an access of some bytes is empty. -/
theorem packetsOf_pos {a n : Nat} (hn : 0 < n) {p : Nat × Nat} (hp : p ∈ packetsOf a n) : 0 < p.2 := by
  obtain ⟨i, hi, rfl⟩ := List.mem_map.mp hp
  have hi := List.mem_range.mp hi
  dsimp only
  omega

/-! ### Bytes read piece by piece -/

theorem bytes_append (s : State) (a n m : Nat) : s.bytes a n ++ s.bytes (a + n) m = s.bytes a (n + m) := by
  simp only [bytes_eq_map_range', ← List.map_append, List.range'_append_1]

theorem flatMap_bytes_of_tiles {a e : Nat} {ps : List (Nat × Nat)} (s : State) (h : tiles a e ps) :
    ps.flatMap (fun p => s.bytes p.1 p.2) = s.bytes a (e - a) := by
  induction ps generalizing a with
  | nil => rw [show e = a from h.symm, Nat.sub_self]; rfl
  | cons p ps ih =>
    obtain ⟨rfl, hrest⟩ := h
    have hle := le_of_tiles hrest
    rw [List.flatMap_cons, ih hrest, bytes_append]
    congr 1
    omega

/-! ### Bytes stored piece by piece -/

/-- A store changes the stored bytes alone. -/
theorem store_mem_only (s : State) (a : Nat) (bs : List Byte) : ∃ m, s.store a bs = { s with mem := m } := by
  induction bs generalizing a s with
  | nil => exact ⟨s.mem, rfl⟩
  | cons b bs ih =>
    obtain ⟨m, hm⟩ := ih (s.storeByte a b) (a + 1)
    exact ⟨m, hm⟩

theorem store_append (s : State) (a : Nat) (bs cs : List Byte) :
    s.store a (bs ++ cs) = (s.store a bs).store (a + bs.length) cs := by
  induction bs generalizing a s with
  | nil => rfl
  | cons b bs ih =>
    rw [List.cons_append, List.length_cons, Nat.add_comm bs.length, ← Nat.add_assoc]
    exact ih _ _

/-- One piece of the bytes that go to an address is stored. -/
def storePiece (a : Nat) (data : List Byte) (s : State) (p : Nat × Nat) : State := s.store p.1 ((data.drop (p.1 - a)).take p.2)

theorem foldl_storePiece {a b : Nat} {data : List Byte} {ps : List (Nat × Nat)} (s : State)
    (h : tiles b (a + data.length) ps) (hab : a ≤ b) : ps.foldl (storePiece a data) s = s.store b (data.drop (b - a)) := by
  induction ps generalizing b s with
  | nil =>
    have hnone : data.drop (b - a) = [] := List.drop_eq_nil_of_le (by have : b = a + data.length := h; omega)
    rw [hnone]
    rfl
  | cons p ps ih =>
    obtain ⟨rfl, hrest⟩ := h
    have hle := le_of_tiles hrest
    have hlen : ((data.drop (p.1 - a)).take p.2).length = p.2 := by
      rw [List.length_take, List.length_drop]
      omega
    have hsplit : data.drop (p.1 - a) = (data.drop (p.1 - a)).take p.2 ++ data.drop (p.1 + p.2 - a) := by
      rw [Nat.sub_add_comm hab, ← List.drop_drop, List.take_append_drop]
    rw [List.foldl_cons, ih _ hrest (hab.trans (Nat.le_add_right _ _))]
    conv_rhs => rw [hsplit, store_append, hlen]
    rfl

/-- A fold that stores each piece, whatever it carries beside the state, stores the bytes. -/
theorem foldl_stores {β : Type} {f : β → Nat × Nat → β} (carry : State → β) {a : Nat} {data : List Byte} {ps : List (Nat × Nat)}
    {s : State} (htiles : tiles a (a + data.length) ps)
    (hstep : ∀ p ∈ ps, ∀ m, f (carry { s with mem := m }) p = carry (storePiece a data { s with mem := m } p)) :
    ps.foldl f (carry s) = carry (s.store a data) := by
  have hall : ∀ (ps : List (Nat × Nat)) (s : State),
      (∀ p ∈ ps, ∀ m, f (carry { s with mem := m }) p = carry (storePiece a data { s with mem := m } p)) →
      ps.foldl f (carry s) = carry (ps.foldl (storePiece a data) s) := by
    intro ps
    induction ps with
    | nil => exact fun _ _ => rfl
    | cons p ps ih =>
      intro s h
      obtain ⟨m, hm⟩ := store_mem_only s p.1 ((data.drop (p.1 - a)).take p.2)
      have hfirst : storePiece a data s p = { s with mem := m } := hm
      rw [List.foldl_cons, List.foldl_cons, show f (carry s) p = _ from h p List.mem_cons_self s.mem]
      refine ih _ ?_
      rw [show storePiece a data { s with mem := s.mem } p = { s with mem := m } from hfirst]
      exact fun q hq => h q (List.mem_cons_of_mem p hq)
  rw [hall ps s hstep, foldl_storePiece s htiles le_rfl, Nat.sub_self, List.drop_zero]

/-! ### The bytes of a store where no page is redirected (R226) -/

section
variable {s : State} {a : Nat} {bs : List Byte}

theorem memGet_store_outside {x : Nat} (hdirect : ∀ i, i < bs.length → s.phys (a + i) = a + i)
    (hx : x < a ∨ a + bs.length ≤ x) : memGet (s.store a bs).mem x = memGet s.mem x := by
  induction bs generalizing a s with
  | nil => rfl
  | cons b bs ih =>
    rw [List.length_cons] at hdirect hx
    have hrest : ∀ i, i < bs.length → (s.storeByte a b).phys (a + 1 + i) = a + 1 + i := fun i hi => by
      rw [Nat.add_assoc, Nat.add_comm 1]
      exact hdirect (i + 1) (by omega)
    have hfirst : s.phys a = a := hdirect 0 (by omega)
    refine (ih hrest (by omega)).trans ?_
    show memGet (memPut s.mem (s.phys a) b) x = _
    rw [hfirst, memGet_memPut, if_neg (by omega)]

theorem memGet_store_inside {i : Nat} (hdirect : ∀ i, i < bs.length → s.phys (a + i) = a + i) (hi : i < bs.length) :
    memGet (s.store a bs).mem (a + i) = bs[i] := by
  induction bs generalizing a s i with
  | nil => exact absurd hi (Nat.not_lt_zero i)
  | cons b bs ih =>
    rw [List.length_cons] at hdirect hi
    have hrest : ∀ i, i < bs.length → (s.storeByte a b).phys (a + 1 + i) = a + 1 + i := fun i hi => by
      rw [Nat.add_assoc, Nat.add_comm 1]
      exact hdirect (i + 1) (by omega)
    have hfirst : s.phys a = a := hdirect 0 (by omega)
    cases i with
    | zero =>
      refine (memGet_store_outside (s := s.storeByte a b) hrest (by omega)).trans ?_
      show memGet (memPut s.mem (s.phys a) b) (a + 0) = b
      rw [hfirst, memGet_memPut, Nat.add_zero, if_pos rfl]
    | succ i =>
      rw [show a + (i + 1) = a + 1 + i by omega]
      exact ih (s := s.storeByte a b) hrest (by omega)

theorem bytes_store (hdirect : ∀ i, i < bs.length → s.phys (a + i) = a + i) : (s.store a bs).bytes a bs.length = bs := by
  obtain ⟨m, hm⟩ := store_mem_only s a bs
  refine List.ext_getElem (by simp [State.bytes]) fun i _ hi => ?_
  have hphys : (s.store a bs).phys (a + i) = a + i := (congrArg (State.phys · (a + i)) hm).trans (hdirect i hi)
  rw [← memGet_store_inside hdirect hi]
  simp only [State.bytes, List.getElem_map, List.getElem_range, State.byteAt, hphys]

end

theorem phys_of_no_retired {s : State} (h : s.umem.hbmRet = []) (a : Nat) : s.phys a = a := by
  rw [State.phys, h]
  exact ite_self a

theorem phys_of_not_isHbm {a : Nat} (s : State) (h : isHbm a = false) : s.phys a = a := by
  rw [State.phys, h]
  rfl

/-! ### User memory that holds no error (R223) -/

theorem userWrite_of_clean (master a : Nat) (bs : List Byte) {s : State} (hbad : s.umem.bad = []) :
    userWrite master a bs s = s.store a bs := by
  have hmark : s.memMark a = 0 := by rw [State.memMark, hbad]; rfl
  have hsame : s.setMark a 0 = s := by
    show ({ s with umem := { s.umem with bad := kvSet 0 s.umem.bad _ 0 } } : State) = s
    rw [hbad, show kvSet 0 ([] : Kv Nat) (wordBase (s.phys a)) 0 = [] from rfl, ← hbad]
  rw [userWrite_eq, wordOpened, hsame, wordChecked_of_unmarked master true hmark, ite_self]

theorem nocWrite_of_clean (kind a : Nat) (bs : List Byte) {s : State} (hbad : s.umem.bad = []) :
    nocWrite kind a bs s = (true, s.store a bs) := by
  refine foldl_stores (fun t => (true, t)) (tiles_memPieces a bs.length) fun p _ m => ?_
  have hbad' : ({ s with mem := m } : State).umem.bad = [] := hbad
  have hmark : ({ s with mem := m } : State).memMark p.1 = 0 := by rw [State.memMark, hbad']; rfl
  simp only [hmark, userWrite_of_clean _ _ _ hbad']
  simp [storePiece]

theorem portWrite_of_clean_hbm {kind a : Nat} {bs : List Byte} {s : State} (ha : isHbm a = true) (hbad : s.umem.bad = []) :
    portWrite kind a bs s = (true, s.store a bs) := by
  rw [portWrite, lexWait, lexBanks_of_isHbm _ ha]
  exact nocWrite_of_clean kind a bs hbad

/-! ### An access of all its packets (R455, R461) -/

/-- A read of which every packet gives its bytes gives the bytes. -/
theorem busReadAll_of_each {m : Master} {a n : Nat} {s : State}
    (h : ∀ p ∈ packetsOf a n, busRead m p.1 p.2 s = (0, s.bytes p.1 p.2, s)) : busReadAll m a n s = (0, s.bytes a n, s) := by
  have hall : ∀ (ps : List (Nat × Nat)) (bs : List Byte), (∀ p ∈ ps, busRead m p.1 p.2 s = (0, s.bytes p.1 p.2, s)) →
      ps.foldl (fun (r : Nat × List Byte × State) p => if r.1 ≠ 0 then r else
        let x := busRead m p.1 p.2 r.2.2
        (x.1, r.2.1 ++ x.2.1, x.2.2)) (0, bs, s) = (0, bs ++ ps.flatMap fun p => s.bytes p.1 p.2, s) := by
    intro ps
    induction ps with
    | nil => simp
    | cons p ps ih =>
      intro bs h
      simp only [List.foldl_cons, h p List.mem_cons_self, ne_eq, not_true_eq_false, if_false]
      rw [ih _ fun q hq => h q (List.mem_cons_of_mem p hq), List.flatMap_cons, List.append_assoc]
  refine (hall _ [] h).trans ?_
  rw [flatMap_bytes_of_tiles s (tiles_packetsOf a n), Nat.add_sub_cancel_left, List.nil_append]

/-- A write of which every packet stores its bytes stores the bytes. -/
theorem busWriteAll_of_each {m : Master} {a : Nat} {bs : List Byte} {s : State}
    (h : ∀ p ∈ packetsOf a bs.length, ∀ w cs, busWrite m p.1 cs { s with mem := w } = (0, ({ s with mem := w } : State).store p.1 cs)) :
    busWriteAll m a bs s = (0, s.store a bs) := by
  refine foldl_stores (fun t => (0, t)) (tiles_packetsOf a bs.length) fun p hp w => ?_
  simp only [ne_eq, not_true_eq_false, if_false, h p hp w]
  rfl

/-! ### The SRAM of the control pair (R515) -/

theorem isHbm_of_isCtlSram {a : Nat} (h : isCtlSram a = true) : isHbm a = false := by
  simp only [isCtlSram, isHbm, Bool.and_eq_true, decide_eq_true_eq, Bool.and_eq_false_iff, decide_eq_false_iff_not] at h ⊢
  omega

/-- Control SRAM is none of the ranges that are looked at before it. -/
theorem ranges_of_isCtlSram {a : Nat} (h : isCtlSram a = true) :
    isRegs a = false ∧ isUser a = false ∧ isFlash a = false ∧ isHost a = false := by
  simp only [isCtlSram, isRegs, isUser, isLex, isHbm, isFlash, isHost, Bool.and_eq_true, Bool.or_eq_false_iff, decide_eq_true_eq,
    Bool.and_eq_false_iff, decide_eq_false_iff_not] at h ⊢
  omega

theorem isCtlSram_of_between {a b x : Nat} (ha : isCtlSram a = true) (hb : isCtlSram b = true) (hax : a ≤ x) (hxb : x ≤ b) :
    isCtlSram x = true := by
  simp only [isCtlSram, Bool.and_eq_true, decide_eq_true_eq] at ha hb ⊢
  omega

theorem busRefusal_of_isCtlSram {a : Nat} (m : Master) (write : Bool) (n : Nat) (s : State) (h : isCtlSram a = true) :
    s.busRefusal m write a n = none := by
  obtain ⟨hregs, huser, -, -⟩ := ranges_of_isCtlSram h
  rw [State.busRefusal, hregs, huser, h]
  rfl

section
variable {a : Nat} {s : State} (m : Master) (hsram : isCtlSram a = true) (hbad : s.mgt.bad = [])
include hsram hbad

theorem busRead_of_isCtlSram (n : Nat) : busRead m a n s = (0, s.bytes a n, s) := by
  obtain ⟨-, huser, hflash, hhost⟩ := ranges_of_isCtlSram hsram
  have hclean : s.sramBad a n = [] := by
    rw [State.sramBad, hbad]
    exact List.filter_eq_nil_iff.mpr fun _ _ => Bool.false_ne_true
  simp [busRead, busRefusal_of_isCtlSram m false n s hsram, memRead, huser, hflash, hhost, hclean]

theorem busWrite_of_isCtlSram (bs : List Byte) : busWrite m a bs s = (0, s.store a bs) := by
  obtain ⟨-, huser, -, hhost⟩ := ranges_of_isCtlSram hsram
  have hclean : s.sramBad a bs.length = [] := by
    rw [State.sramBad, hbad]
    exact List.filter_eq_nil_iff.mpr fun _ _ => Bool.false_ne_true
  have hpart : ((partWords a bs.length).filter fun w => kvGet false s.mgt.bad w) = [] := by
    rw [hbad]
    exact List.filter_eq_nil_iff.mpr fun _ _ => Bool.false_ne_true
  obtain ⟨w, hw⟩ := store_mem_only s a bs
  simp [busWrite, busRefusal_of_isCtlSram m true bs.length s hsram, memWrite, huser, hhost, hclean, hpart, hw]

end

end Sys2Proof.Machine
end

section
/-! BAR2: the host's reads and writes through its aperture windows (R216, R222, R485 to R487, R510). -/
namespace Sys2Proof.Machine

/-! ### Counted and reported failures (R510, R512) -/

/-- A failure is counted and raised. -/
theorem countRaise_reports {f g : Fld} (src code : Nat) (payload : List Nat) (s : State) (hkey : f.key ≠ g.key)
    (hen : (evten g).key ≠ f.key) (hwidth : g.width = 1) {t : State} (ht : t = (s.count f).raise g src code payload) :
    counted f s t ∧ posted g src code payload s t ∧ t.umem = s.umem ∧ t.hif = s.hif ∧ t.out = s.out ∧ steady s t ∧
      onlyFields [f, g] s t := by
  have hcount : onlyFields [f, g] s (s.count f) := (onlyFields.refl _ s).fset (by simp) _
  subst ht
  exact ⟨(State.fget_raise_ne _ _ _ _ hkey).trans (s.fget_count_same f),
    posted_raise (t := s.count f) src code payload hwidth rfl rfl rfl (s.fget_count_ne hen), State.umem_raise _ _ _ _ _,
    State.hif_raise _ _ _ _ _, State.out_raise _ _ _ _ _,
    ⟨State.seq_raise _ _ _ _ _, State.clauses_raise _ _ _ _ _, State.mem_raise _ _ _ _ _⟩, hcount.raise (by simp) _ _ _⟩

/-! ### The range of an access (R485) -/

/-- The first and the last byte of a range lie both in the lexicon, or both in HBM. -/
def userRange (a n : Nat) : Prop := (isLex a = true ∧ isLex (a + n - 1) = true) ∨ (isHbm a = true ∧ isHbm (a + n - 1) = true)

theorem isHbm_of_between {a b x : Nat} (ha : isHbm a = true) (hb : isHbm b = true) (hax : a ≤ x) (hxb : x ≤ b) :
    isHbm x = true := by
  simp only [isHbm, Bool.and_eq_true, decide_eq_true_eq] at ha hb ⊢
  omega

theorem isUser_of_userRange {a n x : Nat} (h : userRange a n) (hlo : a ≤ x) (hhi : x < a + n) : isUser x = true := by
  rcases h with ⟨ha, hb⟩ | ⟨ha, hb⟩
  · rw [isUser, isLex_of_between ha hb hlo (by omega), Bool.true_or]
  · rw [isUser, isHbm_of_between ha hb hlo (by omega), Bool.or_true]

theorem isLex_of_isHbm {a : Nat} (h : isHbm a = true) : isLex a = false := by
  simp only [isHbm, isLex, Bool.and_eq_true, decide_eq_true_eq, Bool.and_eq_false_iff, decide_eq_false_iff_not] at h ⊢
  omega

/-- In user memory every packet is one run. -/
theorem userRuns_of_userRange {a n : Nat} (hn : 0 < n) (h : userRange a n) : userRuns a n = packetsOf a n := by
  have hrun : ∀ p ∈ packetsOf a n, (match (List.range p.2).filter fun i => isUser (p.1 + i) with
      | [] => none
      | i :: t => some (p.1 + i, t.length + 1)) = some p := by
    intro p hp
    obtain ⟨hlo, hhi⟩ := mem_of_tiles (tiles_packetsOf a n) hp
    have hall : (List.range p.2).filter (fun i => isUser (p.1 + i)) = List.range p.2 :=
      List.filter_eq_self.mpr fun i hi => isUser_of_userRange h (by omega) (by have := List.mem_range.mp hi; omega)
    obtain ⟨k, hk⟩ := Nat.exists_eq_succ_of_ne_zero (packetsOf_pos hn hp).ne'
    rw [hall, hk, List.range_succ_eq_map]
    simp [← Nat.succ_eq_add_one, ← hk]
  rw [userRuns]
  exact (List.filterMap_congr hrun).trans List.filterMap_some

/-! ### Packets that wait (R216, R222) -/

/-- From s to t so many NoC accesses more wait, and nothing else changes. -/
def enqueued (n : Nat) (s t : State) : Prop := ∃ q, t = s.setNocq q ∧ q.length = s.umem.nocq.length + n

theorem enqueued.keeps {n : Nat} {s t : State} (h : enqueued n s t) : t.umem.nocq.length = s.umem.nocq.length + n ∧
    t.out = s.out ∧ steady s t ∧ t.evq = s.evq ∧ onlyFields [] s t := by
  obtain ⟨q, rfl, hq⟩ := h
  exact ⟨hq, rfl, ⟨rfl, rfl, rfl⟩, rfl, onlyFields.refl [] s⟩

/-- A fold that lets each packet wait. -/
theorem enqueued_foldl {f : State → Nat × Nat → State} {ps : List (Nat × Nat)} {s : State}
    (h : ∀ p ∈ ps, ∀ q, ∃ x, f (s.setNocq q) p = s.setNocq (q ++ [x])) : enqueued ps.length s (ps.foldl f s) := by
  have hall : ∀ (ps : List (Nat × Nat)) (q : List NocAcc), (∀ p ∈ ps, ∀ q, ∃ x, f (s.setNocq q) p = s.setNocq (q ++ [x])) →
      ∃ q', ps.foldl f (s.setNocq q) = s.setNocq q' ∧ q'.length = q.length + ps.length := by
    intro ps
    induction ps with
    | nil => exact fun q _ => ⟨q, rfl, rfl⟩
    | cons p ps ih =>
      intro q h
      obtain ⟨x, hx⟩ := h p List.mem_cons_self q
      obtain ⟨q', hq', hlen⟩ := ih (q ++ [x]) fun r hr => h r (List.mem_cons_of_mem p hr)
      refine ⟨q', by rw [List.foldl_cons, hx, hq'], ?_⟩
      rw [hlen, List.length_append, List.length_singleton, List.length_cons]
      omega
  exact hall ps s.umem.nocq h

/-! ### BAR2_READ -/

section
variable {off size a : Nat} {s : State}

theorem bar2Read_of_disabled (size : Nat) (h : s.bar2Addr off = none) :
    bar2Read off size s = (s.count F.HIF_CNT_CPLERR_COUNT).emit .unsupported := by
  rw [bar2Read, h]
  rfl

theorem bar2Read_of_accepted (h : s.bar2Addr off = some a) (huser : userRange a size)
    (hok : ∀ p ∈ packetsOf a size, s.busRefusal .hif false p.1 p.2 = none) : bar2Read off size s =
      if isLex a || s.rangeHeld a size then
        (packetsOf a size).foldl (fun s p => nocEnqueue (.bar2 (off + (p.1 - a))) 0 p.1 p.2 false [] s) s
      else hostAnswer (busReadAll .hif a size s).1 (busReadAll .hif a size s).2.1 (busReadAll .hif a size s).2.2 := by
  have hall : ((List.range size).all fun i => isUser (a + i)) = true :=
    List.all_eq_true.mpr fun i hi => isUser_of_userRange huser (by omega) (by have := List.mem_range.mp hi; omega)
  have hnone : ((packetsOf a size).findSome? fun p => s.busRefusal .hif false p.1 p.2) = none := List.findSome?_eq_none_iff.mpr hok
  simp only [bar2Read, h, hall, hnone, Bool.not_true, Bool.false_eq_true, if_false]

theorem busReadAll_of_clean_hbm (ha : isHbm a = true) (hend : isHbm (a + size - 1) = true) (hsome : 0 < size)
    (hbad : s.umem.bad = []) (hok : ∀ p ∈ packetsOf a size, s.busRefusal .hif false p.1 p.2 = none) :
    busReadAll .hif a size s = (0, s.bytes a size, s) := by
  refine busReadAll_of_each fun p hp => ?_
  obtain ⟨hlo, hhi⟩ := mem_of_tiles (tiles_packetsOf a size) hp
  have hpos := packetsOf_pos hsome hp
  have hhbm : isHbm p.1 = true := isHbm_of_between ha hend hlo (by omega)
  simp [busRead, hok p hp, memRead, isUser, hhbm, portRead_of_clean_hbm hhbm hbad]

end

/-! ### BAR2_WRITE -/

section
variable {off a : Nat} {data : List Byte} {s : State}

theorem bar2Write_of_disabled (data : List Byte) (h : s.bar2Addr off = none) : bar2Write off data s = hostWriteErr 2 off 1 s := by
  rw [bar2Write, h]

theorem bar2Write_of_userRange (h : s.bar2Addr off = some a) (hsome : 0 < data.length) (huser : userRange a data.length) :
    bar2Write off data s = (packetsOf a data.length).foldl
      (fun s p => bar2Packet (off + (p.1 - a)) p.1 ((data.drop (p.1 - a)).take p.2) s) s := by
  have hnone : ((List.range data.length).find? fun i => !isUser (a + i)) = none :=
    List.find?_eq_none.mpr fun i hi => by
      simp [isUser_of_userRange huser (Nat.le_add_right a i) (by have := List.mem_range.mp hi; omega)]
  simp only [bar2Write, h, hnone, userRuns_of_userRange hsome huser]

/-- The part of the data that goes in a packet is as long as the packet. -/
theorem length_packetData {p : Nat × Nat} (hp : p ∈ packetsOf a data.length) :
    ((data.drop (p.1 - a)).take p.2).length = p.2 := by
  obtain ⟨hlo, hhi⟩ := mem_of_tiles (tiles_packetsOf a data.length) hp
  rw [List.length_take, List.length_drop]
  omega

theorem bar2Packet_of_waiting (off a : Nat) (bs : List Byte) (hok : s.busRefusal .hif true a bs.length = none)
    (hwait : (isLex a || s.hbmHeld a) = true) : bar2Packet off a bs s = nocEnqueue (.bar2 off) 0 a bs.length true bs s := by
  rw [bar2Packet, hok]
  exact if_pos hwait

theorem bar2Packet_of_clean_hbm (off a : Nat) (bs : List Byte) (hok : s.busRefusal .hif true a bs.length = none)
    (ha : isHbm a = true) (hfree : s.hbmHeld a = false) (hbad : s.umem.bad = []) : bar2Packet off a bs s = s.store a bs := by
  simp [bar2Packet, hok, isLex_of_isHbm ha, hfree, memWrite, isUser, ha, portWrite_of_clean_hbm ha hbad]

theorem bar2Write_of_waiting (h : s.bar2Addr off = some a) (hsome : 0 < data.length) (huser : userRange a data.length)
    (hwait : ∀ p ∈ packetsOf a data.length, (isLex p.1 || s.hbmHeld p.1) = true)
    (hok : ∀ p ∈ packetsOf a data.length, s.busRefusal .hif true p.1 p.2 = none) :
    enqueued (packetsOf a data.length).length s (bar2Write off data s) := by
  rw [bar2Write_of_userRange h hsome huser]
  refine enqueued_foldl fun p hp q => ⟨_, bar2Packet_of_waiting (s := s.setNocq q) _ _ _ ?_ (hwait p hp)⟩
  rw [length_packetData hp]
  exact hok p hp

theorem bar2Write_of_clean_hbm (h : s.bar2Addr off = some a) (hsome : 0 < data.length) (ha : isHbm a = true)
    (hend : isHbm (a + data.length - 1) = true) (hfree : ∀ p ∈ packetsOf a data.length, s.hbmHeld p.1 = false)
    (hbad : s.umem.bad = []) (hok : ∀ p ∈ packetsOf a data.length, s.busRefusal .hif true p.1 p.2 = none) :
    bar2Write off data s = s.store a data := by
  rw [bar2Write_of_userRange h hsome (.inr ⟨ha, hend⟩)]
  refine foldl_stores id (tiles_packetsOf a data.length) fun p hp m => ?_
  obtain ⟨hlo, hhi⟩ := mem_of_tiles (tiles_packetsOf a data.length) hp
  have hpos := packetsOf_pos hsome hp
  refine bar2Packet_of_clean_hbm (s := { s with mem := m }) _ _ _ ?_ (isHbm_of_between ha hend hlo (by omega)) (hfree p hp) hbad
  rw [length_packetData hp]
  exact hok p hp

end

/-! ### What the commands lead to -/

theorem leads_readDisabled (off size : Nat) (s : State) (h : s.bar2Addr off = none) : leads (.bar2Read off size) s fun t =>
    t.out = s.out ++ [.unsupported] ∧ counted F.HIF_CNT_CPLERR_COUNT s t ∧ t.umem = s.umem ∧ steady s t ∧ t.evq = s.evq ∧
    onlyFields [F.HIF_CNT_CPLERR_COUNT] s t :=
  leads_of (congrArg Host.Outcome.next (bar2Read_of_disabled size h)) ⟨rfl, s.fget_count_same _, rfl, ⟨rfl, rfl, rfl⟩, rfl,
    (onlyFields.refl _ s).fset List.mem_cons_self _⟩

theorem leads_readHbm (off size a : Nat) (s : State) (h : s.bar2Addr off = some a) (hsome : 0 < size) (ha : isHbm a = true)
    (hend : isHbm (a + size - 1) = true) (hfree : s.rangeHeld a size = false) (hbad : s.umem.bad = [])
    (hok : ∀ p ∈ packetsOf a size, s.busRefusal .hif false p.1 p.2 = none) : leads (.bar2Read off size) s fun t =>
      t.out = s.out ++ [.completion false (s.bytes a size)] ∧ steady s t ∧ t.evq = s.evq ∧ onlyFields [] s t := by
  have hread : bar2Read off size s = s.emit (.completion false (s.bytes a size)) := by
    rw [bar2Read_of_accepted h (.inr ⟨ha, hend⟩) hok, isLex_of_isHbm ha, hfree, busReadAll_of_clean_hbm ha hend hsome hbad hok]
    rfl
  exact leads_of (congrArg Host.Outcome.next hread) ⟨rfl, ⟨rfl, rfl, rfl⟩, rfl, onlyFields.refl [] s⟩

theorem leads_readWaits (off size a : Nat) (s : State) (h : s.bar2Addr off = some a)
    (hwhere : (isLex a = true ∧ isLex (a + size - 1) = true) ∨
      (isHbm a = true ∧ isHbm (a + size - 1) = true ∧ s.rangeHeld a size = true))
    (hok : ∀ p ∈ packetsOf a size, s.busRefusal .hif false p.1 p.2 = none) : leads (.bar2Read off size) s fun t =>
      t.umem.nocq.length = s.umem.nocq.length + (packetsOf a size).length ∧ t.out = s.out ∧ steady s t ∧ t.evq = s.evq ∧
      onlyFields [] s t := by
  have huser : userRange a size := hwhere.imp_right fun hhbm => ⟨hhbm.1, hhbm.2.1⟩
  have hwait : (isLex a || s.rangeHeld a size) = true := by
    rcases hwhere with ⟨hlex, -⟩ | ⟨-, -, hheld⟩
    · rw [hlex, Bool.true_or]
    · rw [hheld, Bool.or_true]
  have hread := bar2Read_of_accepted h huser hok
  rw [if_pos hwait] at hread
  exact leads_of (congrArg Host.Outcome.next hread) (enqueued_foldl fun p _ q => ⟨_, rfl⟩).keeps

theorem leads_writeWaits (off a : Nat) (data : List Byte) (s : State) (h : s.bar2Addr off = some a) (hsome : 0 < data.length)
    (hwhere : (isLex a = true ∧ isLex (a + data.length - 1) = true) ∨
      (isHbm a = true ∧ isHbm (a + data.length - 1) = true ∧ ∀ p ∈ packetsOf a data.length, s.hbmHeld p.1 = true))
    (hok : ∀ p ∈ packetsOf a data.length, s.busRefusal .hif true p.1 p.2 = none) : leads (.bar2Write off data) s fun t =>
      t.umem.nocq.length = s.umem.nocq.length + (packetsOf a data.length).length ∧ t.out = s.out ∧ steady s t ∧
      t.evq = s.evq ∧ onlyFields [] s t := by
  have huser : userRange a data.length := hwhere.imp_right fun hhbm => ⟨hhbm.1, hhbm.2.1⟩
  refine leads_of rfl (bar2Write_of_waiting h hsome huser (fun p hp => ?_) hok).keeps
  rcases hwhere with ⟨ha, hend⟩ | ⟨-, -, hheld⟩
  · obtain ⟨hlo, hhi⟩ := mem_of_tiles (tiles_packetsOf a data.length) hp
    have hpos := packetsOf_pos hsome hp
    rw [isLex_of_between ha hend hlo (by omega), Bool.true_or]
  · rw [hheld p hp, Bool.or_true]

theorem leads_writeDisabled (off : Nat) (data : List Byte) (s : State) (h : s.bar2Addr off = none) :
    leads (.bar2Write off data) s fun t =>
    counted F.HIF_CNT_PWERR_COUNT s t ∧ posted F.HIF_EVT_PWERR 3 4 ([2] ++ w64 off ++ [1]) s t ∧ t.umem = s.umem ∧
    t.out = s.out ∧ steady s t ∧ onlyFields [F.HIF_CNT_PWERR_COUNT, F.HIF_EVT_PWERR] s t := by
  obtain ⟨hcount, hposted, humem, -, hout, hsteady, hfields⟩ := countRaise_reports (f := F.HIF_CNT_PWERR_COUNT) 3 4
    ([2] ++ w64 off ++ [1]) s (by decide) (by decide) rfl (bar2Write_of_disabled data h)
  exact leads_of rfl ⟨hcount, hposted, humem, hout, hsteady, hfields⟩

theorem leads_writeHbm (off a : Nat) (data : List Byte) (s : State) (h : s.bar2Addr off = some a) (hsome : 0 < data.length)
    (ha : isHbm a = true) (hend : isHbm (a + data.length - 1) = true)
    (hfree : ∀ p ∈ packetsOf a data.length, s.hbmHeld p.1 = false) (hbad : s.umem.bad = []) (hret : s.umem.hbmRet = [])
    (hok : ∀ p ∈ packetsOf a data.length, s.busRefusal .hif true p.1 p.2 = none) : leads (.bar2Write off data) s fun t =>
      t.bytes a data.length = data ∧ (∀ x, x < a ∨ a + data.length ≤ x → memGet t.mem x = memGet s.mem x) ∧
      t.seq = s.seq ∧ t.clauses = s.clauses ∧ t.out = s.out ∧ t.evq = s.evq ∧ onlyFields [] s t := by
  have hdirect : ∀ i, i < data.length → s.phys (a + i) = a + i := fun i _ => phys_of_no_retired hret _
  have hfr : Fr 0x20 s (s.store a data) := State.store_frame a data (Fr.refl _ s) rfl
  exact leads_of (congrArg Host.Outcome.next (bar2Write_of_clean_hbm h hsome ha hend hfree hbad hok))
    ⟨bytes_store hdirect, fun x hx => memGet_store_outside hdirect hx, hfr.h_seq rfl, hfr.h_clauses rfl, hfr.h_out rfl,
      hfr.h_evq rfl, onlyFields.of_frame [] (by decide) hfr⟩

end Sys2Proof.Machine
end

section
/-! DMA channels: enabling, doorbells, descriptors and their ends (R489 to R493, R509, R512). -/
namespace Sys2Proof.Machine

/-! ### A channel is changed -/

theorem dmaCh_of_dma {s t : State} (h : t.hif.dma = s.hif.dma) (c : Nat) : t.dmaCh c = s.dmaCh c :=
  congrArg (kvGet ({} : Dma) · c) h

theorem dmaCh_modDma_others (s : State) (c : Nat) (g : Dma → Dma) : ∀ d, d ≠ c → (s.modDma c g).dmaCh d = s.dmaCh d :=
  fun _ hd => s.dmaCh_modDma_ne g hd

/-! ### HIF_DCTL (R492, R509) -/

theorem fieldOf_lt {n : Nat} (w : BitVec n) (lo len : Nat) : fieldOf w lo len < 2 ^ len := Nat.mod_lt _ (Nat.two_pow_pos len)

/-- The fields of HIF_DCTL of a channel. -/
def dctlFields (c : Nat) : List Fld := [F.HIF_DCTL_EN c, F.HIF_DCTL_WB c, F.HIF_DCTL_VEC c, F.HIF_DCTL_LOG2 c]

theorem dctlFields_key_ne (c : Nat) : (dctlFields c).Pairwise fun f g => f.key ≠ g.key := by
  simp only [dctlFields, List.pairwise_cons, List.forall_mem_cons, List.not_mem_nil, false_implies, implies_true, and_true,
    List.Pairwise.nil, Fld.key, F.HIF_DCTL_EN, F.HIF_DCTL_WB, F.HIF_DCTL_VEC, F.HIF_DCTL_LOG2]
  omega

theorem onlyFields_dmaFields (c : Nat) (w : Word) (s : State) : onlyFields (dctlFields c) s (dmaFields c w s) :=
  (((onlyFields.refl _ s).fset (by simp [dctlFields]) _).fset (by simp [dctlFields]) _).fset (by simp [dctlFields]) _

/-- DMA_ENABLE of a disabled channel as it takes effect. -/
theorem dmaEnable_of_disabled {c : Nat} {s : State} (w : Word) (h : s.fbit (F.HIF_DCTL_EN c) = false) : dmaEnable c w s =
    ((dmaFields c w s).fset (F.HIF_DCTL_EN c) 1).modDma c fun x => { x with
      st := .idle, head := 0, hwrap := false, tail := 0, twrap := false, err := 0 } := if_neg (by rw [h]; decide)

theorem dmaEnable_of_enabled {c : Nat} {s : State} (w : Word) (h : s.fbit (F.HIF_DCTL_EN c) = true) : dmaEnable c w s = s := if_pos h

theorem regCmd_of_kept {a : Nat} {w : Word} {s : State} (f : State → State) (h : s.rsvChanged a w = false) :
    s.regCmd a w f = .next (f s) := if_neg (by rw [h]; decide)

theorem exec_dmaEnable {c : Nat} {w : Word} {s : State} (h : s.rsvChanged (0x300200 + 0x10 * c) w = false) :
    exec (.dmaEnable c w) s = .next (dmaEnable c w s) := regCmd_of_kept _ h

theorem exec_dmaDisable {c : Nat} {w : Word} {s : State} (h : s.rsvChanged (0x300200 + 0x10 * c) w = false) :
    exec (.dmaDisable c w) s = .next (dmaDisable c w s) := regCmd_of_kept _ h

section
variable (c : Nat) (w : Word) (s : State)

/-- The fields of HIF_DCTL as DMA_ENABLE writes them. -/
theorem fget_dmaFields :
    ((dmaFields c w s).fset (F.HIF_DCTL_EN c) 1).fget (F.HIF_DCTL_WB c) = fieldOf w 30 1 ∧
    ((dmaFields c w s).fset (F.HIF_DCTL_EN c) 1).fget (F.HIF_DCTL_VEC c) = fieldOf w 20 6 ∧
    ((dmaFields c w s).fset (F.HIF_DCTL_EN c) 1).fget (F.HIF_DCTL_LOG2 c) =
      if 4 ≤ fieldOf w 15 5 ∧ fieldOf w 15 5 ≤ 16 then fieldOf w 15 5 else 4 := by
  obtain ⟨⟨henwb, henvec, henlog⟩, ⟨hwbvec, hwblog⟩, hveclog⟩ : ((F.HIF_DCTL_EN c).key ≠ (F.HIF_DCTL_WB c).key ∧
      (F.HIF_DCTL_EN c).key ≠ (F.HIF_DCTL_VEC c).key ∧ (F.HIF_DCTL_EN c).key ≠ (F.HIF_DCTL_LOG2 c).key) ∧
      ((F.HIF_DCTL_WB c).key ≠ (F.HIF_DCTL_VEC c).key ∧ (F.HIF_DCTL_WB c).key ≠ (F.HIF_DCTL_LOG2 c).key) ∧
      (F.HIF_DCTL_VEC c).key ≠ (F.HIF_DCTL_LOG2 c).key := by
    simpa [dctlFields, and_assoc] using dctlFields_key_ne c
  have hsize : (if 4 ≤ fieldOf w 15 5 ∧ fieldOf w 15 5 ≤ 16 then fieldOf w 15 5 else 4) < 2 ^ (F.HIF_DCTL_LOG2 c).width := by
    show _ < 32
    split <;> omega
  refine ⟨?_, ?_, ?_⟩
  · rw [State.fget_fset_ne _ _ henwb.symm, dmaFields, State.fget_fset_ne _ _ hwblog, State.fget_fset_ne _ _ hwbvec,
      State.fget_fset_same]
    exact Nat.mod_eq_of_lt (fieldOf_lt w 30 1)
  · rw [State.fget_fset_ne _ _ henvec.symm, dmaFields, State.fget_fset_ne _ _ hveclog, State.fget_fset_same]
    exact Nat.mod_eq_of_lt (fieldOf_lt w 20 6)
  · rw [State.fget_fset_ne _ _ henlog.symm, dmaFields, State.fget_fset_same, Nat.mod_eq_of_lt hsize]

end

theorem leads_dmaEnable (c : Nat) (w : Word) (s : State) (hrsv : s.rsvChanged (0x300200 + 0x10 * c) w = false)
    (hoff : s.fbit (F.HIF_DCTL_EN c) = false) : leads (.dmaEnable c w) s fun t =>
    t.fget (F.HIF_DCTL_EN c) = 1 ∧ t.fget (F.HIF_DCTL_WB c) = fieldOf w 30 1 ∧ t.fget (F.HIF_DCTL_VEC c) = fieldOf w 20 6 ∧
    t.fget (F.HIF_DCTL_LOG2 c) = (if 4 ≤ fieldOf w 15 5 ∧ fieldOf w 15 5 ≤ 16 then fieldOf w 15 5 else 4) ∧
    t.dmaCh c = { s.dmaCh c with
      st := .idle, head := 0, hwrap := false, tail := 0, twrap := false, err := 0 } ∧ (∀ d, d ≠ c → t.dmaCh d = s.dmaCh d) ∧
    steady s t ∧ t.evq = s.evq ∧ onlyFields (dctlFields c) s t := by
  obtain ⟨hwb, hvec, hlog⟩ := fget_dmaFields c w s
  have hen := State.fget_fset_same (dmaFields c w s) (F.HIF_DCTL_EN c) 1
  have hfields : onlyFields (dctlFields c) s ((dmaFields c w s).fset (F.HIF_DCTL_EN c) 1) :=
    (onlyFields_dmaFields c w s).fset List.mem_cons_self 1
  have hsteady : steady s ((dmaFields c w s).fset (F.HIF_DCTL_EN c) 1) := ⟨rfl, rfl, rfl⟩
  have hevq : ((dmaFields c w s).fset (F.HIF_DCTL_EN c) 1).evq = s.evq := rfl
  have hdma : ∀ d, ((dmaFields c w s).fset (F.HIF_DCTL_EN c) 1).dmaCh d = s.dmaCh d := dmaCh_of_dma rfl
  have hexec := (exec_dmaEnable hrsv).trans (congrArg _ (dmaEnable_of_disabled w hoff))
  generalize (dmaFields c w s).fset (F.HIF_DCTL_EN c) 1 = v at *
  refine leads_of hexec ⟨hen, hwb, hvec, hlog, ?_, fun d hd => ?_, hsteady, hevq, onlyFields_to hfields rfl⟩
  · rw [State.dmaCh_modDma_same, hdma]
  · rw [dmaCh_modDma_others v c _ d hd, hdma]

theorem leads_dmaDisable (c : Nat) (w : Word) (s : State) (hrsv : s.rsvChanged (0x300200 + 0x10 * c) w = false) :
    leads (.dmaDisable c w) s fun t => t.fget (F.HIF_DCTL_EN c) = 0 ∧
    t.dmaCh c = { s.dmaCh c with st := .off } ∧ (∀ d, d ≠ c → t.dmaCh d = s.dmaCh d) ∧ steady s t ∧ t.evq = s.evq ∧
    onlyFields (dctlFields c) s t := by
  let u := if s.fbit (F.HIF_DCTL_EN c) then s else dmaFields c w s
  have hu : onlyFields (dctlFields c) s u ∧ u.hif = s.hif ∧ steady s u ∧ u.evq = s.evq := by
    show onlyFields (dctlFields c) s (ite _ _ _) ∧ State.hif (ite _ _ _) = _ ∧ steady s (ite _ _ _) ∧ State.evq (ite _ _ _) = _
    split
    · exact ⟨onlyFields.refl _ s, rfl, ⟨rfl, rfl, rfl⟩, rfl⟩
    · exact ⟨onlyFields_dmaFields c w s, rfl, ⟨rfl, rfl, rfl⟩, rfl⟩
  obtain ⟨hfields, hhif, hsteady, hevq⟩ := hu
  let v := u.fset (F.HIF_DCTL_EN c) 0
  have hch : ∀ d, v.dmaCh d = s.dmaCh d := fun d => dmaCh_of_dma (congrArg Hif.dma hhif) d
  refine leads_of (exec_dmaDisable hrsv) ⟨State.fget_fset_same _ _ 0, ?_, fun d hd => ?_, hsteady, hevq,
    hfields.fset List.mem_cons_self 0⟩
  · exact (State.dmaCh_modDma_same v c _).trans (by rw [hch])
  · exact (dmaCh_modDma_others v c _ d hd).trans (hch d)

/-! ### The doorbell (R489, R492) -/

section
variable {c log : Nat} {w : Word} {s : State}

/-- A doorbell word names no tail that the ring can take. -/
def doorbellBad (c log : Nat) (w : Word) (s : State) : Prop :=
  fieldOf w 17 15 ≠ 0 ∨ 2 ^ log ≤ fieldOf w 0 16 ∨
    2 ^ log < ringAhead log (ringPos log (s.dmaCh c).head (s.dmaCh c).hwrap) (ringPos log (fieldOf w 0 16) (w.getLsbD 16))

theorem dmaDoorbell_of_bad (hlog : log = s.dmaLog c) (h : doorbellBad c log w s) :
    dmaDoorbell c w s = doorbellErr (0x10000 + 0x1000 * c) w s := by
  subst hlog
  exact if_pos h

/-- The tail that the doorbell sets. -/
def dmaTail (c : Nat) (w : Word) (s : State) : State :=
  s.modDma c fun x => { x with tail := fieldOf w 0 16, twrap := w.getLsbD 16 }

theorem dmaDoorbell_of_good (hlog : log = s.dmaLog c) (h : ¬ doorbellBad c log w s) : dmaDoorbell c w s =
    if (s.dmaCh c).st = .idle ∧ (dmaTail c w s).dmaFill c ≠ 0 then (dmaTail c w s).modDma c fun x => { x with st := .run }
    else dmaTail c w s := by
  subst hlog
  exact if_neg h

theorem leads_doorbellBad (hlog : log = s.dmaLog c) (h : doorbellBad c log w s) :
    leads (.dmaDoorbell c w) s fun t => counted F.HIF_CNT_DBERR_COUNT s t ∧
      posted F.HIF_EVT_DBERR 3 5 [0x10000 + 0x1000 * c, w.toNat] s t ∧ t.hif = s.hif ∧ steady s t ∧
      onlyFields [F.HIF_CNT_DBERR_COUNT, F.HIF_EVT_DBERR] s t := by
  obtain ⟨hcount, hposted, -, hhif, -, hsteady, hfields⟩ := countRaise_reports (f := F.HIF_CNT_DBERR_COUNT) 3 5
    [0x10000 + 0x1000 * c, w.toNat] s (by decide) (by decide) rfl (dmaDoorbell_of_bad hlog h)
  exact leads_of rfl ⟨hcount, hposted, hhif, hsteady, hfields⟩

theorem leads_doorbellGood (hlog : log = s.dmaLog c) (h : ¬ doorbellBad c log w s) :
    leads (.dmaDoorbell c w) s fun t => (t.dmaCh c).tail = fieldOf w 0 16 ∧ (t.dmaCh c).twrap = w.getLsbD 16 ∧
      (t.dmaCh c).head = (s.dmaCh c).head ∧ (t.dmaCh c).hwrap = (s.dmaCh c).hwrap ∧
      (t.dmaCh c).st = (if (s.dmaCh c).st = .idle ∧ t.dmaFill c ≠ 0 then .run else (s.dmaCh c).st) ∧
      (∀ d, d ≠ c → t.dmaCh d = s.dmaCh d) ∧ steady s t ∧ t.evq = s.evq ∧ onlyFields [] s t := by
  have htail : (dmaTail c w s).dmaCh c = { s.dmaCh c with tail := fieldOf w 0 16, twrap := w.getLsbD 16 } :=
    State.dmaCh_modDma_same s c _
  have hothers : ∀ d, d ≠ c → (dmaTail c w s).dmaCh d = s.dmaCh d := dmaCh_modDma_others s c _
  refine leads_of (congrArg Host.Outcome.next (dmaDoorbell_of_good hlog h)) ?_
  by_cases hstart : (s.dmaCh c).st = .idle ∧ (dmaTail c w s).dmaFill c ≠ 0
  · rw [if_pos hstart]
    let t := (dmaTail c w s).modDma c fun x => { x with st := .run }
    have hch : t.dmaCh c = { (dmaTail c w s).dmaCh c with st := .run } := State.dmaCh_modDma_same _ c _
    have hfill : t.dmaFill c = (dmaTail c w s).dmaFill c := by
      unfold State.dmaFill
      rw [hch]
      rfl
    refine ⟨by rw [hch, htail], by rw [hch, htail], by rw [hch, htail], by rw [hch, htail], ?_,
      fun d hd => (dmaCh_modDma_others _ c _ d hd).trans (hothers d hd), ⟨rfl, rfl, rfl⟩, rfl, onlyFields.refl [] s⟩
    rw [hfill, if_pos hstart, hch]
  · rw [if_neg hstart]
    exact ⟨by rw [htail], by rw [htail], by rw [htail], by rw [htail], by rw [if_neg hstart, htail], hothers, ⟨rfl, rfl, rfl⟩, rfl,
      onlyFields.refl [] s⟩

end

/-! ### A descriptor that fails (R492, R493, R512) -/

theorem dmaFail_reports {c : Nat} {s : State} (err status : Nat) (hrun : (s.dmaCh c).st = .run) (hfill : s.dmaFill c ≠ 0) {t : State}
    (ht : t = dmaFail c err status s) : t.dmaCh c = { s.dmaCh c with st := .error, err := err } ∧
      (∀ e, e ≠ c → t.dmaCh e = s.dmaCh e) ∧ posted F.HIF_EVT_DMA_ERR 3 2 [c, (s.dmaCh c).head, err, status] s t ∧
      t.out = s.out ∧ steady s t ∧ onlyFields [F.HIF_EVT_DMA_ERR] s t := by
  let v := s.modDma c fun x => { x with st := .error, err := err }
  rw [dmaFail, if_pos ⟨hrun, hfill⟩] at ht
  subst ht
  have hch : ∀ d, (v.raise F.HIF_EVT_DMA_ERR 3 2 [c, (s.dmaCh c).head, err, status]).dmaCh d = v.dmaCh d :=
    fun d => dmaCh_of_dma (congrArg Hif.dma (v.hif_raise _ _ _ _)) d
  exact ⟨(hch c).trans (State.dmaCh_modDma_same s c _), fun e he => (hch e).trans (dmaCh_modDma_others s c _ e he),
    posted_raise (t := v) _ _ _ rfl rfl rfl rfl rfl, v.out_raise _ _ _ _,
    ⟨v.seq_raise _ _ _ _, v.clauses_raise _ _ _ _, v.mem_raise _ _ _ _⟩,
    (onlyFields.refl [F.HIF_EVT_DMA_ERR] s).raise (t := v) List.mem_cons_self _ _ _⟩

theorem dmaFail_of_stopped {c : Nat} {s : State} (err status : Nat) (h : (s.dmaCh c).st ≠ .run ∨ s.dmaFill c = 0) :
    dmaFail c err status s = s := if_neg (by tauto)

/-! ### A descriptor that is complete (R491) -/

/-- From s to t no channel changes, what left the device stays, and of the registers HIF_DMA_DONE alone may change. -/
structure dmaKept (s t : State) : Prop where
  dma : t.hif.dma = s.hif.dma
  out : ∃ es, t.out = s.out ++ es
  fields : onlyFields [F.HIF_EVT_DMA_DONE] s t

theorem dmaKept.refl (s : State) : dmaKept s s := ⟨rfl, ⟨[], (List.append_nil _).symm⟩, onlyFields.refl _ s⟩

theorem dmaKept.trans {s t u : State} (h : dmaKept s t) (g : dmaKept t u) : dmaKept s u := by
  obtain ⟨es, hes⟩ := h.out
  obtain ⟨fs, hfs⟩ := g.out
  exact ⟨g.dma.trans h.dma, ⟨es ++ fs, by rw [hfs, hes, List.append_assoc]⟩, h.fields.trans g.fields⟩

theorem dmaKept.ite {s a b : State} {p : Prop} [Decidable p] (ha : dmaKept s a) (hb : dmaKept s b) :
    dmaKept s (if p then a else b) := by split <;> assumption

theorem dmaKept_emit (s : State) (e : Emit) : dmaKept s (s.emit e) := ⟨rfl, ⟨[e], rfl⟩, onlyFields.refl _ s⟩

theorem dmaKept_signal (v : Nat) (s : State) : dmaKept s (signal v s) := by
  have hsame : ∀ t : State, t.hif.dma = s.hif.dma → t.out = s.out → t.fields = s.fields → dmaKept s t := fun t hdma hout hfields =>
    ⟨hdma, ⟨[], hout.trans (List.append_nil _).symm⟩, onlyFields_to (onlyFields.refl _ s) hfields⟩
  unfold signal
  exact .ite (.ite (.refl s) (hsame _ rfl rfl rfl)) (.ite (hsame _ rfl rfl rfl) (dmaKept_emit s _))

theorem dmaKept_raise (code : Nat) (payload : List Nat) (s : State) : dmaKept s (s.raise F.HIF_EVT_DMA_DONE 3 code payload) :=
  ⟨congrArg Hif.dma (s.hif_raise _ _ _ _), ⟨[], (s.out_raise _ _ _ _).trans (List.append_nil _).symm⟩,
    (onlyFields.refl _ s).raise List.mem_cons_self _ _ _⟩

/-- The head moves past the descriptor. -/
def dmaAdvanced (c : Nat) (s : State) : State :=
  s.modDma c fun x => { x with
    head := if (s.dmaCh c).head + 1 == 2 ^ s.dmaLog c then 0 else x.head + 1
    hwrap := if (s.dmaCh c).head + 1 == 2 ^ s.dmaLog c then !x.hwrap else x.hwrap }

/-- The write-back of the head. -/
def dmaWroteBack (c wb : Nat) (s : State) : State :=
  if s.fbit (F.HIF_DCTL_WB c) then
    s.emit (.hostWrite wb (leBytes 4 ((s.dmaCh c).head + (s.dmaCh c).hwrap.toNat * 2 ^ 16)))
  else s

/-- The vector and HIF_DMA_DONE, as the descriptor asks for them. -/
def dmaSignalled (c : Nat) (d : List Byte) (s : State) : State :=
  if nbit (leAt d 0 4) 27 then signal (s.fget (F.HIF_DCTL_VEC c)) s else s

def dmaPosted (head c : Nat) (d : List Byte) (s : State) : State :=
  if nbit (leAt d 0 4) 26 then s.raise F.HIF_EVT_DMA_DONE 3 1 [c, head, leAt d 24 4] else s

theorem dmaWroteBack_kept (c wb : Nat) (s : State) : dmaKept s (dmaWroteBack c wb s) := .ite (dmaKept_emit s _) (.refl s)

theorem dmaSignalled_kept (c : Nat) (d : List Byte) (s : State) : dmaKept s (dmaSignalled c d s) :=
  .ite (dmaKept_signal _ s) (.refl s)

theorem dmaPosted_kept (head c : Nat) (d : List Byte) (s : State) : dmaKept s (dmaPosted head c d s) :=
  .ite (dmaKept_raise 1 _ s) (.refl s)

/-- A channel without descriptors left is idle. -/
def dmaRested (c : Nat) (s : State) : State := if s.dmaFill c = 0 then s.modDma c fun x => { x with st := .idle } else s

theorem dmaDone_eq (c : Nat) (d : List Byte) (s : State) : dmaDone c d s =
    dmaRested c (dmaPosted (s.dmaCh c).head c d (dmaSignalled c d (dmaWroteBack c (s.dmaCh c).wb (dmaAdvanced c s)))) := rfl

theorem dmaRested_keeps (c : Nat) (s : State) : ((dmaRested c s).dmaCh c).head = (s.dmaCh c).head ∧
    ((dmaRested c s).dmaCh c).tail = (s.dmaCh c).tail ∧ (∀ e, e ≠ c → (dmaRested c s).dmaCh e = s.dmaCh e) ∧
    (dmaRested c s).out = s.out ∧ (dmaRested c s).fields = s.fields := by
  unfold dmaRested
  split
  · exact ⟨by rw [State.dmaCh_modDma_same], by rw [State.dmaCh_modDma_same], dmaCh_modDma_others s c _, rfl, rfl⟩
  · exact ⟨rfl, rfl, fun _ _ => rfl, rfl, rfl⟩

/-- The descriptor at the head is complete: the head advances; no tail, no other channel and no byte changes. -/
theorem dmaDone_advances (c : Nat) (d : List Byte) (s : State) {t : State} (ht : t = dmaDone c d s) :
    (t.dmaCh c).head = (if (s.dmaCh c).head + 1 = 2 ^ s.dmaLog c then 0 else (s.dmaCh c).head + 1) ∧
      (t.dmaCh c).tail = (s.dmaCh c).tail ∧ (∀ e, e ≠ c → t.dmaCh e = s.dmaCh e) ∧ (∃ es, t.out = s.out ++ es) ∧
      t.umem = s.umem ∧ steady s t ∧ onlyFields [F.HIF_EVT_DMA_DONE] s t := by
  have hfr : Fr 0x10200081 s t := ht ▸ dmaDone_frame c d (Fr.refl _ s) rfl
  let w := dmaPosted (s.dmaCh c).head c d (dmaSignalled c d (dmaWroteBack c (s.dmaCh c).wb (dmaAdvanced c s)))
  have hkept : dmaKept (dmaAdvanced c s) w := by
    exact ((dmaWroteBack_kept _ _ _).trans (dmaSignalled_kept _ _ _)).trans (dmaPosted_kept _ _ _ _)
  obtain ⟨hhead, htail, hothers, hout, hfields⟩ := dmaRested_keeps c w
  have hch : ∀ e, w.dmaCh e = (dmaAdvanced c s).dmaCh e := dmaCh_of_dma hkept.dma
  obtain ⟨es, hes⟩ := hkept.out
  rw [dmaDone_eq] at ht
  subst ht
  refine ⟨?_, ?_, fun e he => (hothers e he).trans ((hch e).trans (dmaCh_modDma_others s c _ e he)), ⟨es, hout.trans hes⟩,
    hfr.h_umem rfl, ⟨hfr.h_seq rfl, hfr.h_clauses rfl, hfr.h_mem rfl⟩, onlyFields_to hkept.fields hfields⟩
  · rw [hhead, hch, dmaAdvanced, State.dmaCh_modDma_same]
    simp only [beq_iff_eq]
  · rw [htail, hch, dmaAdvanced, State.dmaCh_modDma_same]

/-! ### The descriptor at the head (R489 to R493) -/

/-- The channel carries out no descriptor now (R222, R489). -/
def dmaStuck (c : Nat) (d : List Byte) (s : State) : Prop :=
  (s.dmaCh c).st ≠ .run ∨ s.dmaFill c = 0 ∨ s.hif.bme = false ∨
    (descBad d = false ∧ s.rangeHeld (leAt d 16 6) (leAt d 4 4) = true)

/-- The descriptor at the head is fetched from the host. -/
def dmaFetched (c : Nat) (s : State) : State := s.emit (.hostRead ((s.dmaCh c).base + 32 * (s.dmaCh c).head) 32)

section
variable {c : Nat} {d : List Byte} {s : State} (data : List Byte)

theorem dmaDesc_of_stuck (h : dmaStuck c d s) : dmaDesc c d data s = s := by
  unfold dmaDesc
  rcases h with h | h | h | ⟨hgood, hheld⟩
  · rw [if_pos (.inl h)]
  · rw [if_pos (.inr (.inl h))]
  · rw [if_pos (.inr (.inr (by rw [h]; rfl)))]
  · simp [hgood, hheld]

theorem dmaDesc_of_bad (h : ¬ dmaStuck c d s) (hbad : descBad d = true) : dmaDesc c d data s = dmaFail c 1 0 (dmaFetched c s) := by
  simp only [dmaStuck, not_or, not_and, Bool.not_eq_true, Bool.not_eq_false, not_not] at h
  obtain ⟨hrun, hfill, hbme, -⟩ := h
  simp [dmaDesc, hrun, hfill, hbme, hbad, dmaFetched]

theorem dmaDesc_of_h2d (h : ¬ dmaStuck c d s) (hgood : descBad d = false) (hop : nbits (leAt d 0 4) 28 4 = 1) {t : State}
    (ht : busWriteAll .hif (leAt d 16 6) (data.take (leAt d 4 4))
      ((dmaFetched c s).emit (.hostRead (leAt d 8 8) (leAt d 4 4))) = (0, t)) : dmaDesc c d data s = dmaDone c d t := by
  simp only [dmaStuck, not_or, not_and, Bool.not_eq_true, Bool.not_eq_false, not_not] at h
  obtain ⟨hrun, hfill, hbme, hfree⟩ := h
  rw [dmaFetched] at ht
  simp [dmaDesc, hrun, hfill, hbme, hgood, hfree hgood, hop, ht]

theorem dmaDesc_of_d2h (h : ¬ dmaStuck c d s) (hgood : descBad d = false) (hop : nbits (leAt d 0 4) 28 4 = 2) {bs : List Byte}
    {t : State} (ht : busReadAll .hif (leAt d 16 6) (leAt d 4 4) (dmaFetched c s) = (0, bs, t)) :
    dmaDesc c d data s = dmaDone c d (t.emit (.hostWrite (leAt d 8 8) bs)) := by
  simp only [dmaStuck, not_or, not_and, Bool.not_eq_true, Bool.not_eq_false, not_not] at h
  obtain ⟨hrun, hfill, hbme, hfree⟩ := h
  rw [dmaFetched] at ht
  simp [dmaDesc, hrun, hfill, hbme, hgood, hfree hgood, hop, ht]

end

/-- A good descriptor moves at least one byte. -/
theorem len_pos_of_good {d : List Byte} (h : descBad d = false) : 0 < leAt d 4 4 := by
  rw [Nat.pos_iff_ne_zero]
  intro hzero
  simp [descBad, hzero] at h

/-- No calibration slice holds control SRAM. -/
theorem rangeHeld_of_isCtlSram {a n : Nat} (s : State) (ha : isCtlSram a = true) (hend : isCtlSram (a + n - 1) = true) :
    s.rangeHeld a n = false := by
  rw [State.rangeHeld, State.hbmHeld, State.hbmHeld, isHbm_of_isCtlSram ha, isHbm_of_isCtlSram hend]
  rfl

theorem leads_descBad (c : Nat) (d data : List Byte) (s : State) (hrun : (s.dmaCh c).st = .run) (hfill : s.dmaFill c ≠ 0)
    (hbme : s.hif.bme = true) (hbad : descBad d = true) : leads (.dmaDescComplete c d data) s fun t =>
      t.dmaCh c = { s.dmaCh c with st := .error, err := 1 } ∧
      (∀ e, e ≠ c → t.dmaCh e = s.dmaCh e) ∧ posted F.HIF_EVT_DMA_ERR 3 2 [c, (s.dmaCh c).head, 1, 0] s t ∧
      t.out = s.out ++ [.hostRead ((s.dmaCh c).base + 32 * (s.dmaCh c).head) 32] ∧ steady s t ∧
      onlyFields [F.HIF_EVT_DMA_ERR] s t := by
  have hdesc : dmaDesc c d data s = dmaFail c 1 0 (dmaFetched c s) :=
    dmaDesc_of_bad data (by simp [dmaStuck, hrun, hfill, hbme, hbad]) hbad
  exact leads_of rfl (dmaFail_reports (s := dmaFetched c s) 1 0 hrun hfill hdesc)

section
variable (c na len : Nat) (d data : List Byte) (s : State) (hrun : (s.dmaCh c).st = .run) (hfill : s.dmaFill c ≠ 0)
  (hbme : s.hif.bme = true) (hgood : descBad d = false) (hna : na = leAt d 16 6) (hlen : len = leAt d 4 4)
  (ha : isCtlSram na = true) (hend : isCtlSram (na + len - 1) = true) (hbad : s.mgt.bad = [])
include hrun hfill hbme hna hlen ha hend

theorem not_dmaStuck_of_isCtlSram : ¬ dmaStuck c d s := by
  have hfree : s.rangeHeld (leAt d 16 6) (leAt d 4 4) = false := hna ▸ hlen ▸ rangeHeld_of_isCtlSram s ha hend
  simp [dmaStuck, hrun, hfill, hbme, hfree]

include hgood hbad

theorem leads_h2d (hop : nbits (leAt d 0 4) 28 4 = 1) (hdata : data.length = len) : leads (.dmaDescComplete c d data) s fun t =>
      t.bytes na len = data ∧ (∀ x, x < na ∨ na + len ≤ x → memGet t.mem x = memGet s.mem x) ∧
      (t.dmaCh c).head = (if (s.dmaCh c).head + 1 = 2 ^ s.dmaLog c then 0 else (s.dmaCh c).head + 1) ∧
      (t.dmaCh c).tail = (s.dmaCh c).tail ∧ (∀ e, e ≠ c → t.dmaCh e = s.dmaCh e) ∧ t.seq = s.seq ∧
      t.clauses = s.clauses ∧ onlyFields [F.HIF_EVT_DMA_DONE] s t := by
  have hlive := not_dmaStuck_of_isCtlSram c na len d s hrun hfill hbme hna hlen ha hend
  have hpos : 0 < len := hlen ▸ len_pos_of_good hgood
  let u := (dmaFetched c s).emit (.hostRead (leAt d 8 8) (leAt d 4 4))
  have hsram : ∀ x, na ≤ x → x < na + len → isCtlSram x = true := fun x hlo hhi => isCtlSram_of_between ha hend hlo (by omega)
  have hwrite : busWriteAll .hif na data u = (0, u.store na data) := by
    refine busWriteAll_of_each fun p hp m cs => ?_
    obtain ⟨hlo, hhi⟩ := mem_of_tiles (tiles_packetsOf na data.length) hp
    have := packetsOf_pos (hdata ▸ hpos) hp
    exact busWrite_of_isCtlSram (s := { u with mem := m }) .hif (hsram p.1 hlo (by omega)) hbad cs
  have hdesc : dmaDesc c d data s = dmaDone c d (u.store na data) := by
    refine dmaDesc_of_h2d data hlive hgood hop ?_
    rw [← hna, ← hlen, ← hdata, List.take_length, hdata, hlen]
    exact hwrite
  have hdirect : ∀ i, i < data.length → u.phys (na + i) = na + i := fun i hi =>
    phys_of_not_isHbm u (isHbm_of_isCtlSram (hsram _ (Nat.le_add_right _ _) (by omega)))
  have hfr : Fr 0x20 u (u.store na data) := State.store_frame na data (Fr.refl _ u) rfl
  have hstored : onlyFields [F.HIF_EVT_DMA_DONE] u (u.store na data) := onlyFields.of_frame _ (by decide) hfr
  have hch : ∀ e, (u.store na data).dmaCh e = s.dmaCh e := dmaCh_of_dma (congrArg Hif.dma (hfr.h_hif rfl))
  have hlog : (u.store na data).dmaLog c = s.dmaLog c := hfr.h_regs (F.HIF_DCTL_LOG2 c) (Nat.testBit_lt_two_pow (lt_of_lt_of_le
    (by decide : 0x20 < 2 ^ 25) (Nat.pow_le_pow_right (by decide) (Nat.le_add_right 25 _))))
  obtain ⟨hhead, htail, hothers, -, humem, ⟨hseq, hclauses, hmem⟩, hfields⟩ := dmaDone_advances c d (u.store na data) hdesc
  rw [hch, hlog] at hhead
  refine leads_of rfl ⟨?_, fun x hx => ?_, hhead, htail.trans (congrArg Dma.tail (hch c)), fun e he => (hothers e he).trans (hch e),
    hseq.trans (hfr.h_seq rfl), hclauses.trans (hfr.h_clauses rfl), hstored.trans hfields⟩
  · have hsame : (dmaDesc c d data s).bytes na len = (u.store na data).bytes na len :=
      List.map_congr_left fun i _ => byteAt_congr hmem (congrArg Mem.hbmRet humem) _
    exact hsame.trans (hdata ▸ bytes_store hdirect)
  · exact (congrArg (memGet · x) hmem).trans (memGet_store_outside (s := u) hdirect (hdata ▸ hx))

theorem leads_d2h (hop : nbits (leAt d 0 4) 28 4 = 2) : leads (.dmaDescComplete c d data) s fun t =>
      .hostWrite (leAt d 8 8) (s.bytes na len) ∈ t.out ∧
      (t.dmaCh c).head = (if (s.dmaCh c).head + 1 = 2 ^ s.dmaLog c then 0 else (s.dmaCh c).head + 1) ∧
      (∀ e, e ≠ c → t.dmaCh e = s.dmaCh e) ∧ steady s t ∧ onlyFields [F.HIF_EVT_DMA_DONE] s t := by
  have hlive := not_dmaStuck_of_isCtlSram c na len d s hrun hfill hbme hna hlen ha hend
  have hpos : 0 < len := hlen ▸ len_pos_of_good hgood
  have hread : busReadAll .hif na len (dmaFetched c s) = (0, s.bytes na len, dmaFetched c s) := by
    refine busReadAll_of_each fun p hp => ?_
    obtain ⟨hlo, hhi⟩ := mem_of_tiles (tiles_packetsOf na len) hp
    have := packetsOf_pos hpos hp
    exact busRead_of_isCtlSram (s := dmaFetched c s) .hif (isCtlSram_of_between ha hend hlo (by omega)) hbad p.2
  have hdesc := dmaDesc_of_d2h data hlive hgood hop (hna ▸ hlen ▸ hread)
  obtain ⟨hhead, -, hothers, ⟨es, hout⟩, -, hsteady, hfields⟩ := dmaDone_advances c d _ hdesc
  refine leads_of rfl ⟨?_, hhead, hothers, hsteady, hfields⟩
  show _ ∈ (dmaDesc c d data s).out
  rw [hout]
  simp [State.emit, hna, hlen]

end

/-! ### The statement -/

/-- Settles O46: the lemmas of BAR2 and of the channels, `bar2Write_of_clean_hbm` and `busWriteAll_of_each` giving the bytes of a write
and `dmaDone_advances` the end of a descriptor. -/
theorem hostMovesData : Obligations.HostMovesData := by
  unfold Obligations.HostMovesData
  refine ⟨leads_readDisabled, leads_readHbm, fun off size a s h _ => leads_readWaits off size a s h, leads_writeWaits,
    leads_writeDisabled, leads_writeHbm,
    fun c w s hrsv hon => (exec_dmaEnable hrsv).trans (congrArg _ (dmaEnable_of_enabled w hon)), leads_dmaEnable, leads_dmaDisable,
    fun c log w s hlog hbad => leads_doorbellBad hlog hbad,
    fun c log w s hlog hkept hin hroom => leads_doorbellGood hlog ?_,
    fun c d data s hstuck => congrArg Host.Outcome.next (dmaDesc_of_stuck data hstuck), leads_descBad,
    fun c na len d data s hrun hfill hbme hgood hop hna hlen hdata ha hend hbad =>
      leads_h2d c na len d data s hrun hfill hbme hgood hna hlen ha hend hbad hop hdata,
    fun c na len d data s hrun hfill hbme hgood hop hna hlen ha hend hbad =>
      leads_d2h c na len d data s hrun hfill hbme hgood hna hlen ha hend hbad hop,
    fun c err st s hrun hfill => leads_of rfl ?_,
    fun c err st s hstopped => congrArg Host.Outcome.next (dmaFail_of_stopped err st hstopped)⟩
  · rintro (h | h | h)
    · exact h hkept
    · omega
    · omega
  · obtain ⟨hch, hothers, hposted, -, hsteady, hfields⟩ := dmaFail_reports err st hrun hfill rfl
    exact ⟨hch, hothers, hposted, hsteady, hfields⟩

end Sys2Proof.Machine
end

section
/-! Changes on one link, in the terms of Safety.lean (R254, R267). -/
namespace Sys2Proof.Machine

/-! ### The registers of a link (R267) -/

/-- The key of bit 0 of the first register of a link's page. -/
def linkKey (l : Nat) : Nat := (0xe10000 + 0x4000 * (l % 32)) * 32

/-- The keys of the fields that the rules of the links write or read, by register offset and lowest bit. -/
@[simp] theorem keys_LNK (l : Nat) :
    (F.LNK_CTL_EN l).key = linkKey l + 0x4 * 32 ∧ (F.LNK_CTL_MODE l).key = linkKey l + (0x4 * 32 + 1) ∧
    (F.LNK_CTL_AUTOSPARE l).key = linkKey l + (0x4 * 32 + 2) ∧ (F.LNK_STAT_REASON l).key = linkKey l + (0x8 * 32 + 8) ∧
    (F.LNK_STAT_SPARE_BUSY l).key = linkKey l + (0x8 * 32 + 16) ∧ (F.LNK_STAT_SPARE_OK l).key = linkKey l + (0x8 * 32 + 17) ∧
    (F.LNK_STAT_SPARE l).key = linkKey l + (0x8 * 32 + 18) ∧ (F.LNK_SPARE_LANE l).key = linkKey l + 0x20 * 32 ∧
    (F.LNK_SPARE_RESULT l).key = linkKey l + (0x20 * 32 + 16) ∧ (F.LNK_SPARE_GO l).key = linkKey l + (0x20 * 32 + 31) ∧
    (F.LNK_XT_TXMASK l).key = linkKey l + 0x24 * 32 ∧ (F.LNK_EYETHR_THR_H l).key = linkKey l + 0x28 * 32 ∧
    (F.LNK_EYETHR_THR_W l).key = linkKey l + (0x28 * 32 + 8) ∧ (F.LNK_CNT_FECC_COUNT l).key = linkKey l + 0x40 * 32 ∧
    (F.LNK_CNT_FECU_COUNT l).key = linkKey l + 0x44 * 32 ∧ (F.LNK_CNT_CRC_COUNT l).key = linkKey l + 0x48 * 32 ∧
    (F.LNK_CNT_TAG_COUNT l).key = linkKey l + 0x4c * 32 ∧ (F.LNK_CNT_RETRY_COUNT l).key = linkKey l + 0x50 * 32 := by
  simp only [Fld.key, linkKey, F.LNK_CTL_EN, F.LNK_CTL_MODE, F.LNK_CTL_AUTOSPARE, F.LNK_STAT_REASON, F.LNK_STAT_SPARE_BUSY,
    F.LNK_STAT_SPARE_OK, F.LNK_STAT_SPARE, F.LNK_SPARE_LANE, F.LNK_SPARE_RESULT, F.LNK_SPARE_GO, F.LNK_XT_TXMASK,
    F.LNK_EYETHR_THR_H, F.LNK_EYETHR_THR_W, F.LNK_CNT_FECC_COUNT, F.LNK_CNT_FECU_COUNT, F.LNK_CNT_CRC_COUNT,
    F.LNK_CNT_TAG_COUNT, F.LNK_CNT_RETRY_COUNT]
  omega

/-- The keys of the events of a link (R272). -/
@[simp] theorem keys_LNK_EVT (l : Nat) :
    (F.LNK_EVT_UP l).key = linkKey l + 0xc * 32 ∧ (F.LNK_EVT_DOWN l).key = linkKey l + (0xc * 32 + 1) ∧
    (F.LNK_EVT_MODE l).key = linkKey l + (0xc * 32 + 2) ∧ (F.LNK_EVT_LANE l).key = linkKey l + (0xc * 32 + 4) ∧
    (F.LNK_EVT_EYE_LOW l).key = linkKey l + (0xc * 32 + 5) ∧ (F.LNK_EVT_RETRY l).key = linkKey l + (0xc * 32 + 6) ∧
    (F.LNK_EVT_RESUMED l).key = linkKey l + (0xc * 32 + 7) := by
  simp only [Fld.key, linkKey, F.LNK_EVT_UP, F.LNK_EVT_DOWN, F.LNK_EVT_MODE, F.LNK_EVT_LANE, F.LNK_EVT_EYE_LOW, F.LNK_EVT_RETRY,
    F.LNK_EVT_RESUMED]
  omega

/-- The enable bit of an event stands one register on (R612). -/
@[simp] theorem key_evten (f : Fld) : (evten f).key = f.key + 128 := by
  show (f.addr + 4) * 32 + f.lo = f.addr * 32 + f.lo + 128
  omega

/-- A field below the pages of the links is none of theirs. -/
theorem key_ne_linkKey {f : Fld} (l n : Nat) (h : f.key < 0xe10000 * 32) : f.key ≠ linkKey l + n := by
  have : 0xe10000 * 32 ≤ linkKey l := Nat.mul_le_mul_right 32 (Nat.le_add_right _ _)
  omega

@[simp] theorem State.fget_setLink (s : State) (l : Nat) (x : Lnk) (f : Fld) : (s.setLink l x).fget f = s.fget f := rfl

@[simp] theorem State.link_setLink_same (s : State) (l : Nat) (x : Lnk) : (s.setLink l x).link l = x :=
  s.link_modLink_same l fun _ => x

@[simp] theorem State.evq_setLink (s : State) (l : Nat) (x : Lnk) : (s.setLink l x).evq = s.evq := rfl

/-! ### A change of one link -/

/-- From s to t only link l changes, and of the registers the fields of fs, whatever leaves and is posted. -/
structure linkMoves (l : Nat) (fs : List Fld) (s t : State) : Prop where
  link : onlyLink l s t
  fields : onlyFields fs s t
  ptime : t.ptime = s.ptime

theorem linkMoves.refl (l : Nat) (fs : List Fld) (s : State) : linkMoves l fs s s :=
  ⟨⟨⟨rfl, rfl, rfl⟩, fun _ _ => rfl⟩, onlyFields.refl fs s, rfl⟩

section
variable {l : Nat} {fs : List Fld} {s t u : State}

theorem linkMoves.trans (h : linkMoves l fs s t) (g : linkMoves l fs t u) : linkMoves l fs s u := by
  obtain ⟨⟨⟨hseq, hclauses, hmem⟩, hothers⟩, hfields, htime⟩ := h
  obtain ⟨⟨⟨gseq, gclauses, gmem⟩, gothers⟩, gfields, gtime⟩ := g
  exact ⟨⟨⟨gseq.trans hseq, gclauses.trans hclauses, gmem.trans hmem⟩, fun k hk => (gothers k hk).trans (hothers k hk)⟩,
    hfields.trans gfields, gtime.trans htime⟩

theorem linkMoves.modLink (h : linkMoves l fs s t) (g : Lnk → Lnk) : linkMoves l fs s (t.modLink l g) :=
  ⟨⟨h.link.1, fun k hk => (t.link_modLink_ne g hk).trans (h.link.2 k hk)⟩, h.fields, h.ptime⟩

theorem linkMoves.fset {f : Fld} (h : linkMoves l fs s t) (hf : f ∈ fs) (v : Nat) : linkMoves l fs s (t.fset f v) :=
  ⟨h.link, h.fields.fset hf v, h.ptime⟩

theorem linkMoves.emit (h : linkMoves l fs s t) (e : Emit) : linkMoves l fs s (t.emit e) := ⟨h.link, h.fields, h.ptime⟩

theorem linkMoves.raise {f : Fld} (h : linkMoves l fs s t) (hf : f ∈ fs) (src code : Nat) (payload : List Nat) :
    linkMoves l fs s (t.raise f src code payload) := by
  refine h.trans ⟨⟨⟨?_, ?_, ?_⟩, ?_⟩, (onlyFields.refl fs t).raise hf src code payload, ?_⟩ <;> simp

theorem linkMoves.mono {gs : List Fld} (h : linkMoves l fs s t) (hsub : fs ⊆ gs) : linkMoves l gs s t :=
  ⟨h.link, h.fields.mono hsub, h.ptime⟩

theorem linkMoves.steady (h : linkMoves l fs s t) : steady s t := h.link.1

/-- An event that follows a change of a link. -/
theorem linkMoves.posts {f : Fld} (h : linkMoves l fs s t) (src code : Nat) (payload : List Nat) (hw : f.width = 1)
    (hevq : t.evq = s.evq) (hen : ∀ g ∈ fs, (evten f).key ≠ g.key) : posted f src code payload s (t.raise f src code payload) :=
  posted_raise src code payload hw hevq (congrArg Seq.step h.link.1.1) h.ptime (h.fields _ hen)

end

/-! ### Changes of state (R254) -/

theorem link_linkTrain_same (l : Nat) (s : State) : (linkTrain l s).link l =
    { s.link l with st := .train, since := s.now, mode := s.fget (F.LNK_CTL_MODE l), lanes := 0 } := by
  simp [linkTrain, linkTo]

/-- A link was ACTIVE, or in RESUME, before it left. -/
def Lnk.wasActive (x : Lnk) : Bool := x.st == .active || x.st == .resume

theorem link_linkFail_same (l reason : Nat) (s : State) : (linkFail l reason s).link l =
    { s.link l with st := .fail, since := s.now, dropped := (s.link l).dropped || (s.link l).wasActive, window := none } := by
  simp [linkFail, linkTo, Lnk.wasActive]

theorem linkMoves.linkTrain {l : Nat} {fs : List Fld} {s t : State} (h : linkMoves l fs s t) : linkMoves l fs s (linkTrain l t) :=
  (h.modLink _).modLink _

theorem linkMoves.ctlPut {l : Nat} {fs : List Fld} {s t : State} (h : linkMoves l fs s t) (w : BitVec 64) :
    linkMoves l fs s (ctlPut l w t) := h.modLink _

theorem linkMoves.linkFail {l : Nat} {fs : List Fld} {s t : State} (h : linkMoves l fs s t) (hf : F.LNK_STAT_REASON l ∈ fs)
    (reason : Nat) : linkMoves l fs s (linkFail l reason t) :=
  ((h.modLink _).modLink _).fset hf reason

/-- A link that was not ACTIVE fails with a reason (R254). -/
theorem linkFail_fails {l reason : Nat} {s : State} (hr : reason < 256) (hwas : (s.link l).wasActive = false) :
    (linkFail l reason s).link l = { s.link l with st := .fail, since := s.now, window := none } ∧
    (linkFail l reason s).fget (F.LNK_STAT_REASON l) = reason ∧ (linkFail l reason s).evq = s.evq ∧
    linkMoves l [F.LNK_STAT_REASON l] s (linkFail l reason s) := by
  refine ⟨?_, ?_, ?_, (linkMoves.refl l _ s).linkFail (by simp) reason⟩
  · rw [link_linkFail_same, hwas, Bool.or_false]
  · simpa [linkFail] using Nat.mod_eq_of_lt hr
  · simp [linkFail, linkTo]

theorem loadPoll_of_idle {s : State} (h : s.load.job = none) : loadPoll s = s := by rw [loadPoll, h]

end Sys2Proof.Machine
end

section
/-! A link comes up (R238, R251, R254, R255, R267, R272). -/
namespace Sys2Proof.Machine

/-! ### LNK_ENABLE and LNK_DISABLE (R254) -/

theorem linkEnable_of_powered {l : Nat} {s : State} (h : (s.link l).st = .off ∧ s.domOn (9 + l / 4) = true) :
    linkEnable l s = linkTrain l (s.fset (F.LNK_CTL_EN l) 1) := by
  obtain ⟨hoff, hon⟩ := h
  simp [linkEnable, hoff, hon]

theorem linkEnable_of_other {l : Nat} {s : State} (h : ¬ ((s.link l).st = .off ∧ s.domOn (9 + l / 4) = true)) :
    linkEnable l s = s.fset (F.LNK_CTL_EN l) 1 := by
  unfold linkEnable
  exact if_neg (by simpa using h)

theorem leads_lnkEnable (l : Nat) (s : State) : leads (.lnkEnable l) s fun t => t.fget (F.LNK_CTL_EN l) = 1 ∧
    t.link l = (if (s.link l).st = .off ∧ s.domOn (9 + l / 4) = true then
      { s.link l with st := .train, since := s.now, mode := s.fget (F.LNK_CTL_MODE l), lanes := 0 } else s.link l) ∧
    onlyLink l s t ∧ onlyFields [F.LNK_CTL_EN l] s t ∧ t.evq = s.evq := by
  let u := s.fset (F.LNK_CTL_EN l) 1
  have hmoves : linkMoves l [F.LNK_CTL_EN l] s u := (linkMoves.refl l _ s).fset (by simp) 1
  have hen : u.fget (F.LNK_CTL_EN l) = 1 := s.fget_fset_same _ 1
  have hmode : u.fget (F.LNK_CTL_MODE l) = s.fget (F.LNK_CTL_MODE l) := s.fget_fset_ne 1 (by simp)
  by_cases h : (s.link l).st = .off ∧ s.domOn (9 + l / 4) = true
  · rw [if_pos h]
    refine leads_of (congrArg Host.Outcome.next (linkEnable_of_powered h))
      ⟨hen, ?_, hmoves.linkTrain.link, hmoves.linkTrain.fields, rfl⟩
    rw [link_linkTrain_same, hmode]
    rfl
  · rw [if_neg h]
    exact leads_of (congrArg Host.Outcome.next (linkEnable_of_other h)) ⟨hen, rfl, hmoves.link, hmoves.fields, rfl⟩

/-- What a link that goes OFF keeps (R254). -/
def Lnk.dark (x : Lnk) (now : Nat) : Lnk :=
  { st := .off, since := now, slot := x.slot, released := x.released, dropped := x.dropped || x.wasActive
    window := x.window, otherMode := x.otherMode, msgRx := x.msgRx, msgCnt := x.msgCnt, eye := x.eye, mode := x.mode }

theorem link_linkDisable_same (l : Nat) (s : State) : (linkDisable l s).link l = (s.link l).dark s.now := by
  simp [linkDisable, linkOff, Lnk.dark, Lnk.wasActive]

theorem leads_lnkDisable (l : Nat) (s : State) : leads (.lnkDisable l) s fun t => t.fget (F.LNK_CTL_EN l) = 0 ∧ (t.link l).st = .off ∧
    (t.link l).rxq = [] ∧ (t.link l).replay = [] ∧ (t.link l).ctlq = [] ∧ (t.link l).fences = [] ∧
    (t.link l).sparing = none ∧ (t.link l).slot = (s.link l).slot ∧ (t.link l).released = (s.link l).released ∧
    t.fget (F.LNK_STAT_REASON l) = 0 ∧ onlyLink l s t ∧
    onlyFields [F.LNK_CTL_EN l, F.LNK_STAT_REASON l, F.LNK_STAT_SPARE_OK l, F.LNK_STAT_SPARE_BUSY l, F.LNK_SPARE_GO l] s t ∧
    t.evq = s.evq := by
  have hmoves : linkMoves l [F.LNK_CTL_EN l, F.LNK_STAT_REASON l, F.LNK_STAT_SPARE_OK l, F.LNK_STAT_SPARE_BUSY l, F.LNK_SPARE_GO l] s
      (linkDisable l s) :=
    (((((linkMoves.refl l _ s).fset (f := F.LNK_CTL_EN l) (by simp) 0).modLink fun _ => (s.link l).dark s.now).fset
      (f := F.LNK_STAT_REASON l) (by simp) 0 |>.fset (f := F.LNK_STAT_SPARE_OK l) (by simp) 0).fset
      (f := F.LNK_STAT_SPARE_BUSY l) (by simp) 0).fset (f := F.LNK_SPARE_GO l) (by simp) 0
  have hen : (linkDisable l s).fget (F.LNK_CTL_EN l) = 0 := by simp [linkDisable, linkOff, State.fget_fset_ne]
  have hreason : (linkDisable l s).fget (F.LNK_STAT_REASON l) = 0 := by simp [linkDisable, linkOff, State.fget_fset_ne]
  have hevq : (linkDisable l s).evq = s.evq := by simp [linkDisable, linkOff]
  refine ⟨linkDisable l s, rfl, hen, ?_⟩
  rw [link_linkDisable_same]
  exact ⟨rfl, rfl, rfl, rfl, rfl, rfl, rfl, rfl, hreason, hmoves.link, hmoves.fields, hevq⟩

/-! ### TRAIN_COMPLETE and TRAIN_TIMEOUT (R254, R267) -/

/-- The two lowest of the trained lanes, as LNK_STAT shows them. -/
def activeLanes (m : BitVec 3) : BitVec 3 := BitVec.ofNat 3 (maskOf 3 fun k => ((maskBits 3 m.toNat).take 2).contains k)

/-- The lane that is left as the spare. -/
def leftLane (m : BitVec 3) : Nat := ((List.range 3).filter fun k => !((maskBits 3 m.toNat).take 2).contains k).headD 2

/-- The link after its lanes have trained. -/
def aligned (l : Nat) (m : BitVec 3) (s : State) : State :=
  (((linkTo .align l s).modLink l fun x => { x with lanes := activeLanes m }).fset (F.LNK_STAT_SPARE l) (leftLane m)).fset
    (F.LNK_STAT_SPARE_OK l) (m.getLsbD (leftLane m)).toNat

theorem trainDone_of_trained {l : Nat} {m : BitVec 3} {s : State} (hst : (s.link l).st = .train) (hm : 2 ≤ laneCount m) :
    trainDone l m s = aligned l m s := by
  unfold trainDone
  exact if_pos (by simp [hst, hm])

theorem trainDone_of_other {l : Nat} {m : BitVec 3} {s : State} (h : (s.link l).st ≠ .train ∨ laneCount m < 2) :
    trainDone l m s = s := by
  unfold trainDone
  refine if_neg ?_
  rcases h with h | h <;> simp [h]

theorem laneCount_lt_of_mem {m : BitVec 3} (h : m ∈ [0, 1, 2, 4]) : laneCount m < 2 := by
  simp only [List.mem_cons, List.not_mem_nil, or_false] at h
  rcases h with rfl | rfl | rfl | rfl <;> decide

/-- The four ways in which at least two of three lanes train. -/
theorem lanes_of_mem {m act : BitVec 3} {spare ok : Nat}
    (h : (m, act, spare, ok) ∈ [((7, 3, 2, 1) : BitVec 3 × BitVec 3 × Nat × Nat), (3, 3, 2, 0), (5, 5, 1, 0), (6, 6, 0, 0)]) :
    2 ≤ laneCount m ∧ activeLanes m = act ∧ leftLane m = spare ∧ (m.getLsbD spare).toNat = ok ∧ spare < 4 ∧ ok < 2 := by
  simp only [List.mem_cons, List.not_mem_nil, or_false, Prod.mk.injEq] at h
  rcases h with ⟨rfl, rfl, rfl, rfl⟩ | ⟨rfl, rfl, rfl, rfl⟩ | ⟨rfl, rfl, rfl, rfl⟩ | ⟨rfl, rfl, rfl, rfl⟩ <;> decide

theorem leads_trainComplete (l : Nat) (s : State) (m act : BitVec 3) (spare ok : Nat) (hst : (s.link l).st = .train)
    (hm : (m, act, spare, ok) ∈ [((7, 3, 2, 1) : BitVec 3 × BitVec 3 × Nat × Nat), (3, 3, 2, 0), (5, 5, 1, 0), (6, 6, 0, 0)]) :
    leads (.trainComplete l m) s fun t => t.link l = { s.link l with st := .align, since := s.now, lanes := act } ∧
      t.fget (F.LNK_STAT_SPARE l) = spare ∧ t.fget (F.LNK_STAT_SPARE_OK l) = ok ∧ onlyLink l s t ∧
      onlyFields [F.LNK_STAT_SPARE l, F.LNK_STAT_SPARE_OK l] s t ∧ t.evq = s.evq := by
  obtain ⟨hcount, hact, hspare, hok, hlt, hlt'⟩ := lanes_of_mem hm
  have hmoves : linkMoves l [F.LNK_STAT_SPARE l, F.LNK_STAT_SPARE_OK l] s (aligned l m s) :=
    ((((linkMoves.refl l _ s).modLink _).modLink _).fset (by simp) _).fset (by simp) _
  refine ⟨aligned l m s, congrArg Host.Outcome.next (trainDone_of_trained hst hcount), ?_, ?_, ?_, hmoves.link, hmoves.fields, ?_⟩
  · simp [aligned, linkTo, hact]
  · simpa [aligned, State.fget_fset_ne, hspare] using Nat.mod_eq_of_lt hlt
  · simpa [aligned, hspare, hok] using Nat.mod_eq_of_lt hlt'
  · simp [aligned, linkTo]

theorem trainTimeout_of_closed {l : Nat} {s : State} (hst : (s.link l).st = .train) (hwin : (s.link l).window = none) :
    trainTimeout l s = linkFail l 1 s := by
  simp [trainTimeout, hst, hwin, reasonTrain]

theorem trainTimeout_of_other {l : Nat} {s : State} (h : (s.link l).st ≠ .train ∨ (s.link l).window.isSome = true) :
    trainTimeout l s = s := by
  unfold trainTimeout
  refine if_neg ?_
  rcases h with h | h
  · simp [h]
  · simp [Option.isSome_iff_ne_none.mp h]

theorem leads_trainTimeout (l : Nat) (s : State) (hst : (s.link l).st = .train) (hwin : (s.link l).window = none) :
    leads (.trainTimeout l) s fun t => t.link l = { s.link l with st := .fail, since := s.now } ∧
      t.fget (F.LNK_STAT_REASON l) = 1 ∧ onlyLink l s t ∧ onlyFields [F.LNK_STAT_REASON l] s t ∧ t.evq = s.evq := by
  obtain ⟨hlink, hreason, hevq, hmoves⟩ := linkFail_fails (l := l) (reason := 1) (s := s) (by decide) (by simp [Lnk.wasActive, hst])
  refine leads_of (congrArg Host.Outcome.next (trainTimeout_of_closed hst hwin))
    ⟨hlink.trans ?_, hreason, hmoves.link, hmoves.fields, hevq⟩
  rw [← hwin]

/-! ### FRAMING_LOCK and IDENT_COMPLETE (R251, R254, R255) -/

theorem leads_framingLock (l trip decode : Nat) (s : State) (hst : (s.link l).st = .align) :
    leads (.framingLock l trip decode) s fun t =>
    t.link l = { s.link l with
      st := .ident, since := s.now, oneWay := trip / 2, native := ((trip + 2 * decode) * 36 + 7 * 70 + 559) / 560 * 8
      otherMode := false } ∧
    onlyLink l s t ∧ onlyFields [] s t ∧ t.evq = s.evq := by
  have hlock : framingLock l trip decode s = (linkTo .ident l s).modLink l fun x => { x with
      oneWay := trip / 2, native := nativeSteps trip decode, otherMode := false } := if_pos (by simp [hst])
  have hmoves : linkMoves l [] s (framingLock l trip decode s) := hlock ▸ ((linkMoves.refl l _ s).modLink _).modLink _
  refine ⟨_, rfl, ?_, hmoves.link, hmoves.fields, ?_⟩ <;> rw [hlock]
  · simp [linkTo, nativeSteps]
  · rfl

theorem framingLock_of_other {l trip decode : Nat} {s : State} (h : (s.link l).st ≠ .align) : framingLock l trip decode s = s :=
  if_neg (by simp [h])

/-- What a device reports to a partner depends on its sequencer, its image, its slot map and registers below the links' pages. -/
theorem peerItem_congr {l : Nat} {s t : State} (hseq : t.seq = s.seq) (hload : t.load = s.load)
    (hslot : (t.link l).slot = (s.link l).slot) (hrel : (t.link l).released = (s.link l).released)
    (hfields : ∀ f : Fld, f.key < 0xe10000 * 32 → t.fget f = s.fget f) (k : Nat) : t.peerItem l k = s.peerItem l k := by
  have hdist := hfields F.SEQ_FENCE_DIST (by decide)
  have hdiam := hfields F.SEQ_DIAM_DIAM (by decide)
  have hckpt := hfields F.SEQ_CKPT_INTERVAL (by decide)
  have hvalid := hfields F.LNK_DEVNUM_VALID (by decide)
  have hnum := hfields F.LNK_DEVNUM_NUM (by decide)
  simp only [State.peerItem, State.stepping, State.gen, hseq, hload, hslot, hrel, hdist, hdiam, hckpt, hvalid, hnum]
  rfl

/-- All ten items go to a partner that has been sent none. -/
theorem linkAnnounce_of_unsent {l : Nat} {s : State} (hst : (s.link l).st = .up) (hsent : (s.link l).sent = []) :
    ((linkAnnounce l s).link l).ctlq = (s.link l).ctlq ++ (List.range 10).map fun k => peerWord k (s.peerItem l k) := by
  have hall : ((List.range 10).filter fun k => kvGet none (s.link l).sent k != some (s.peerItem l k)) = List.range 10 :=
    List.filter_eq_self.mpr fun k _ => by rw [hsent]; rfl
  simp [linkAnnounce, hst, hall]

theorem linkMoves.linkAnnounce {l : Nat} {fs : List Fld} {s t : State} (h : linkMoves l fs s t) : linkMoves l fs s (linkAnnounce l t) := by
  unfold Machine.linkAnnounce
  extract_lets x
  split
  · exact h.modLink _
  · exact h

/-- The link once its partner has told its serial and link number, before the event and the items. -/
def identified (l plink : Nat) (serial : DWord) (s : State) : State :=
  ((linkTo .up l s).modLink l fun x => { x with
    pserial := serial.toNat, plink := plink, window := none, otherMode := false, items := [], sent := [] }).fset
    (F.LNK_STAT_REASON l) 0

theorem identDone_of_ident {l plink : Nat} {serial : DWord} {s : State} (hst : (s.link l).st = .ident) :
    identDone l serial plink s = linkAnnounce l ((identified l plink serial s).raise (F.LNK_EVT_UP l) 9 1
      ([l, (s.link l).mode] ++ w64 serial.toNat ++ [plink])) := if_pos (by simp [hst])

theorem identDone_of_other {l plink : Nat} {serial : DWord} {s : State} (hst : (s.link l).st ≠ .ident) :
    identDone l serial plink s = s := if_neg (by simp [hst])

theorem link_identified_same (l plink : Nat) (serial : DWord) (s : State) : (identified l plink serial s).link l =
    { s.link l with
      st := .up, since := s.now, pserial := serial.toNat, plink := plink, window := none, otherMode := false, items := []
      sent := [] } := by
  simp [identified, linkTo]

theorem linkMoves_identified (l plink : Nat) (serial : DWord) (s : State) :
    linkMoves l [F.LNK_STAT_REASON l] s (identified l plink serial s) :=
  (((linkMoves.refl l _ s).modLink _).modLink _).fset (by simp) 0

theorem link_linkAnnounce_same (l : Nat) (s : State) :
    ∃ q m, (linkAnnounce l s).link l = { s.link l with ctlq := q, sent := m } := by
  unfold linkAnnounce
  extract_lets x
  split
  · exact ⟨_, _, s.link_modLink_same l _⟩
  · exact ⟨_, _, rfl⟩

theorem leads_identComplete (l plink : Nat) (serial : DWord) (s : State) (hst : (s.link l).st = .ident) (hjob : s.load.job = none) :
    leads (.identComplete l serial plink) s fun t => (t.link l).st = .up ∧ (t.link l).pserial = serial.toNat ∧
      (t.link l).plink = plink ∧ t.fget (F.LNK_STAT_REASON l) = 0 ∧
      (t.link l).ctlq = (s.link l).ctlq ++ (List.range 10).map (fun k => peerWord k (s.peerItem l k)) ∧
      posted (F.LNK_EVT_UP l) 9 1 ([l, (s.link l).mode] ++ w64 serial.toNat ++ [plink]) s t ∧ onlyLink l s t ∧
      onlyFields [F.LNK_STAT_REASON l, F.LNK_EVT_UP l] s t := by
  let payload := [l, (s.link l).mode] ++ w64 serial.toNat ++ [plink]
  let u := identified l plink serial s
  let v := u.raise (F.LNK_EVT_UP l) 9 1 payload
  have hu : linkMoves l [F.LNK_STAT_REASON l] s u := linkMoves_identified l plink serial s
  have hv : linkMoves l [F.LNK_STAT_REASON l, F.LNK_EVT_UP l] s v := (hu.mono (by simp)).raise (by simp) 9 1 payload
  have hvlink : v.link l = _ := (State.link_raise _ _ _ _ _ _).trans (link_identified_same l plink serial s)
  have hann : Fr 0x4000 v (linkAnnounce l v) := linkAnnounce_frame l (Fr.refl _ v) rfl
  obtain ⟨q, m, hlink⟩ := link_linkAnnounce_same l v
  rw [hvlink] at hlink
  have hreason : v.fget (F.LNK_STAT_REASON l) = 0 := (State.fget_raise_ne _ _ _ _ (by simp)).trans (State.fget_fset_same _ _ 0)
  have hposted : posted (F.LNK_EVT_UP l) 9 1 payload s v := hu.posts 9 1 payload rfl rfl (by simp)
  have hload : v.load = s.load := State.load_raise _ _ _ _ _
  have hitems : v.peerItem l = s.peerItem l := funext <| peerItem_congr hv.link.1.1 hload (by rw [hvlink]) (by rw [hvlink]) fun f hf =>
    hv.fields f (by simp [key_ne_linkKey l _ hf])
  have hall := linkAnnounce_of_unsent (l := l) (s := v) (by rw [hvlink]) (by rw [hvlink])
  have hpoll : loadPoll (linkAnnounce l v) = linkAnnounce l v := loadPoll_of_idle (by rw [hann.h_load rfl, hload, hjob])
  refine leads_of (t := linkAnnounce l v) ?_ ⟨by rw [hlink], by rw [hlink], by rw [hlink], (hann.fget (by decide) _).trans hreason, ?_,
    posted_to hposted (hann.h_evq rfl) (hann.fget (by decide) _), hv.linkAnnounce.link, hv.linkAnnounce.fields⟩
  · exact congrArg Host.Outcome.next ((congrArg loadPoll (identDone_of_ident hst)).trans hpoll)
  · rw [hall, hitems, hvlink]

/-- Settles O33: `linkEnable`, `linkDisable`, `aligned`, `framingLock`, `identified` and `linkFail` give the link after each command,
`linkMoves` what stays. -/
theorem linksComeUp : Obligations.LinksComeUp := by
  unfold Obligations.LinksComeUp
  exact ⟨leads_lnkEnable, leads_lnkDisable, leads_trainComplete,
    fun l s m hm => congrArg Host.Outcome.next (trainDone_of_other (.inr (laneCount_lt_of_mem hm))),
    fun l s m hst => congrArg Host.Outcome.next (trainDone_of_other (.inl hst)), leads_framingLock,
    fun l trip decode s hst => congrArg Host.Outcome.next (framingLock_of_other hst),
    fun l plink serial s hst hjob => congrArg Host.Outcome.next
      ((congrArg loadPoll (identDone_of_other hst)).trans (loadPoll_of_idle hjob)),
    leads_identComplete, leads_trainTimeout, fun l s h => congrArg Host.Outcome.next (trainTimeout_of_other h)⟩

end Sys2Proof.Machine
end

section
/-! Superframes that leave on a link (R238 to R240, R247). -/
namespace Sys2Proof.Machine

/-- From s to t link l sends superframes: its stream moves on, and nothing else changes. -/
structure linkSends (l : Nat) (fs : List (Nat × Superframe)) (s t : State) : Prop where
  moves : linkMoves l [] s t
  link : t.link l = { s.link l with tx := (t.link l).tx }
  evq : t.evq = s.evq
  sent : sentFrames fs s t

theorem linkSends.refl (l : Nat) (s : State) : linkSends l [] s s :=
  ⟨linkMoves.refl l [] s, rfl, rfl, [], (List.append_nil _).symm, rfl⟩

theorem linkSends.trans {l : Nat} {fs gs : List (Nat × Superframe)} {s t u : State} (h : linkSends l fs s t)
    (g : linkSends l gs t u) : linkSends l (fs ++ gs) s u := by
  obtain ⟨hmoves, hlink, hevq, a, ha, hfs⟩ := h
  obtain ⟨gmoves, glink, gevq, b, hb, hgs⟩ := g
  refine ⟨hmoves.trans gmoves, ?_, gevq.trans hevq, a ++ b, by rw [hb, ha, List.append_assoc], by rw [List.filterMap_append, hfs, hgs]⟩
  rw [glink, hlink]

/-- The symbols of a superframe are no superframe. -/
theorem sentFrames_linkWire (l : Nat) (bits : List Bool) (s : State) : sentFrames [] s (linkWire l bits s) := by
  refine ⟨_, (List.append_assoc _ _ _).trans (List.append_assoc _ _ _), ?_⟩
  rfl

theorem linkSends_linkWire (l : Nat) (bits : List Bool) (s : State) : linkSends l [] s (linkWire l bits s) where
  moves := ((((linkMoves.refl l [] s).modLink _).emit _).emit _).emit _
  link := by simp [linkWire]
  evq := rfl
  sent := sentFrames_linkWire l bits s

theorem linkSends_linkEmit (l : Nat) (f : Superframe) (s : State) : linkSends l [(l, f)] s (linkEmit l f s) :=
  have hframe : linkSends l [(l, f)] s (s.emit (.superframe l f)) :=
    ⟨(linkMoves.refl l [] s).emit _, rfl, rfl, [.superframe l f], rfl, rfl⟩
  hframe.trans (linkSends_linkWire l _ _)

theorem linkSends_foldl {α : Type} (l : Nat) (g : α → Superframe) (es : List α) (s : State) :
    linkSends l (es.map fun e => (l, g e)) s (es.foldl (fun s e => linkEmit l (g e) s) s) := by
  induction es generalizing s with
  | nil => exact linkSends.refl l s
  | cons e es ih => exact (linkSends_linkEmit l (g e) s).trans (ih _)

/-- The kept superframes from a tag on, as they are sent again (R247). -/
def Lnk.resent (l : Nat) (x : Lnk) (tag : BitVec 16) : List (Nat × Superframe) :=
  (x.replay.dropWhile fun e => tagOf e.1 != tag).map fun e => (l, refreshFrame x e.2)

theorem linkSends_linkGoBack (l : Nat) (tag : BitVec 16) (s : State) :
    linkSends l ((s.link l).resent l tag) s (linkGoBack l tag s) := linkSends_foldl l _ _ s

end Sys2Proof.Machine
end

section
/-! A link fails, tries its other mode and resumes (R247, R254, R257, R267, R272). -/
namespace Sys2Proof.Machine

/-! ### A partner in the other mode (R254, R257) -/

/-- An event that an operation posts after a change of a link. -/
theorem linkMoves.posts_from {l : Nat} {fs : List Fld} {s u t : State} {f : Fld} {src code : Nat} {payload : List Nat}
    (h : linkMoves l fs s u) (hevq : u.evq = s.evq) (hen : ∀ g ∈ fs, (evten f).key ≠ g.key) (hpost : posted f src code payload u t) :
    posted f src code payload s t :=
  posted_from hpost hevq (h.fields _ hen) (congrArg Seq.step h.link.1.1) h.ptime

/-- A link that was not ACTIVE fails for its partner's mode (R254). -/
theorem linkModeFail_fails {l : Nat} {s : State} (hwas : (s.link l).wasActive = false) :
    (linkModeFail l s).link l = { s.link l with st := .fail, since := s.now, window := none } ∧
    (linkModeFail l s).fget (F.LNK_STAT_REASON l) = 2 ∧ posted (F.LNK_EVT_MODE l) 9 3 [l, (s.link l).mode] s (linkModeFail l s) ∧
    linkMoves l [F.LNK_STAT_REASON l, F.LNK_EVT_MODE l] s (linkModeFail l s) := by
  obtain ⟨hlink, hreason, hevq, hmoves⟩ := linkFail_fails (reason := 2) (by decide) hwas
  exact ⟨(State.link_raise _ _ _ _ _ _).trans hlink, (State.fget_raise_ne _ _ _ _ (by simp)).trans hreason,
    hmoves.posts 9 3 _ rfl hevq (by simp), (hmoves.mono (by simp)).raise (by simp) 9 3 _⟩

/-- The partner was seen in the other mode. -/
def otherSeen (l : Nat) (s : State) : State := s.modLink l fun x => { x with otherMode := true }

theorem partnerMode_of_closed {l : Nat} {s : State} (hst : (s.link l).st = .align) (hwin : (s.link l).window = none) :
    partnerMode l s = linkModeFail l (otherSeen l s) := by
  simp [partnerMode, hst, hwin, otherSeen]

/-- The link trains again while a window is open, and waits for its next try (R257). -/
def trainedAgain (l : Nat) (s : State) : State :=
  ((linkTrain l (otherSeen l s)).modLink l fun x => { x with retryAt := s.now + 10000000 }).fset (F.LNK_STAT_REASON l) 2

theorem partnerMode_of_open {l w : Nat} {s : State} (hst : (s.link l).st = .align) (hwin : (s.link l).window = some w) :
    partnerMode l s = trainedAgain l s := by
  simp [partnerMode, hst, hwin, otherSeen, trainedAgain, reasonMode]

theorem partnerMode_of_other {l : Nat} {s : State} (h : (s.link l).st ≠ .align) : partnerMode l s = s := if_neg (by simp [h])

theorem leads_partnerModeFails (l : Nat) (s : State) (hst : (s.link l).st = .align) (hwin : (s.link l).window = none) :
    leads (.partnerModeDetect l) s fun t => t.link l = { s.link l with st := .fail, since := s.now, otherMode := true } ∧
    t.fget (F.LNK_STAT_REASON l) = 2 ∧ posted (F.LNK_EVT_MODE l) 9 3 [l, (s.link l).mode] s t ∧ onlyLink l s t ∧
    onlyFields [F.LNK_STAT_REASON l, F.LNK_EVT_MODE l] s t := by
  let u := otherSeen l s
  have hu : ∀ fs, linkMoves l fs s u := fun fs => (linkMoves.refl l fs s).modLink _
  have hulink : u.link l = { s.link l with otherMode := true } := s.link_modLink_same l _
  obtain ⟨hlink, hreason, hpost, hmoves⟩ := linkModeFail_fails (l := l) (s := u) (by simp [Lnk.wasActive, hulink, hst])
  rw [hulink] at hlink hpost
  refine leads_of (congrArg Host.Outcome.next (partnerMode_of_closed hst hwin)) ⟨hlink.trans ?_, hreason,
    (hu []).posts_from rfl (by simp) hpost, ((hu _).trans hmoves).link, ((hu _).trans hmoves).fields⟩
  rw [← hwin]
  rfl

theorem leads_partnerModeTrains (l w : Nat) (s : State) (hst : (s.link l).st = .align) (hwin : (s.link l).window = some w) :
    leads (.partnerModeDetect l) s fun t => t.link l = { s.link l with
      st := .train, since := s.now, mode := s.fget (F.LNK_CTL_MODE l), lanes := 0
      otherMode := true, retryAt := s.now + 10000000 } ∧ t.fget (F.LNK_STAT_REASON l) = 2 ∧ t.evq = s.evq ∧ onlyLink l s t ∧
    onlyFields [F.LNK_STAT_REASON l] s t := by
  have hmoves : linkMoves l [F.LNK_STAT_REASON l] s (trainedAgain l s) :=
    ((((linkMoves.refl l _ s).modLink _).linkTrain).modLink _).fset (by simp) 2
  refine leads_of (congrArg Host.Outcome.next (partnerMode_of_open hst hwin)) ⟨?_, ?_, ?_, hmoves.link, hmoves.fields⟩
  · simp [trainedAgain, otherSeen, link_linkTrain_same]
  · exact State.fget_fset_same _ _ 2
  · simp [trainedAgain, otherSeen, linkTrain, linkTo]

/-! ### MODE_RETRY and MODE_WINDOW_CLOSE (R257) -/

theorem modeRetry_of_other {l : Nat} {s : State}
    (h : (s.link l).st ≠ .train ∨ (s.link l).window = none ∨ (s.link l).otherMode = false) : modeRetry l s = s := by
  refine if_neg ?_
  rcases h with h | h | h <;> simp [h]

theorem leads_modeRetry (l w : Nat) (s : State) (hst : (s.link l).st = .train) (hwin : (s.link l).window = some w)
    (hother : (s.link l).otherMode = true) : leads (.modeRetry l) s fun t =>
      t.link l = { s.link l with since := s.now, mode := s.fget (F.LNK_CTL_MODE l), lanes := 0 } ∧ t.evq = s.evq ∧
      onlyLink l s t ∧ onlyFields [] s t := by
  have htrain : modeRetry l s = linkTrain l s := if_pos (by simp [hst, hwin, hother])
  have hmoves : linkMoves l [] s (linkTrain l s) := (linkMoves.refl l [] s).linkTrain
  refine leads_of (congrArg Host.Outcome.next htrain) ⟨?_, rfl, hmoves.link, hmoves.fields⟩
  rw [link_linkTrain_same, ← hst]

/-- The window is over. -/
def windowOver (l : Nat) (s : State) : State := s.modLink l fun x => { x with window := none }

theorem windowClose_of_none {l : Nat} {s : State} (h : (s.link l).window = none) : windowClose l s = s := by
  simp [windowClose, h]

theorem windowClose_of_up {l w : Nat} {s : State} (hwin : (s.link l).window = some w) (hst : (s.link l).st = .up) :
    windowClose l s = windowOver l s := by
  simp [windowClose, windowOver, hwin, hst]

/-- A link that is still coming up when the window closes fails (R257). -/
theorem windowClose_of_rising {l w : Nat} {s : State} (hwin : (s.link l).window = some w)
    (hst : (s.link l).st ∈ [LnkState.train, .align, .ident]) : windowClose l s =
      if (s.link l).otherMode then linkModeFail l (windowOver l s) else linkFail l 1 (windowOver l s) := by
  simp only [List.mem_cons, List.not_mem_nil, or_false] at hst
  rcases hst with h | h | h <;> simp [windowClose, windowOver, hwin, h, reasonTrain]

theorem wasActive_of_rising {x : Lnk} (hst : x.st ∈ [LnkState.train, .align, .ident]) : x.wasActive = false := by
  simp only [List.mem_cons, List.not_mem_nil, or_false] at hst
  rcases hst with h | h | h <;> simp [Lnk.wasActive, h]

/-- MODE_WINDOW_CLOSE while no load waits. -/
theorem exec_modeWindowClose {l : Nat} {s t : State} (hjob : s.load.job = none) (ht : windowClose l s = t) :
    exec (.modeWindowClose l) s = .next t :=
  have hload : t.load.job = s.load.job := ht ▸ congrArg Load.job ((windowClose_frame l (Fr.refl 0x400004080 s) rfl).h_load rfl)
  congrArg Host.Outcome.next ((congrArg loadPoll ht).trans (loadPoll_of_idle (hload.trans hjob)))

section
variable (l w : Nat) (s : State) (hjob : s.load.job = none) (hwin : (s.link l).window = some w)
include hjob hwin

theorem leads_windowCloseMode (hst : (s.link l).st ∈ [LnkState.train, .align, .ident]) (hother : (s.link l).otherMode = true) :
    leads (.modeWindowClose l) s fun t =>
      t.link l = { s.link l with st := .fail, since := s.now, window := none } ∧ t.fget (F.LNK_STAT_REASON l) = 2 ∧
      posted (F.LNK_EVT_MODE l) 9 3 [l, (s.link l).mode] s t ∧ onlyLink l s t ∧
      onlyFields [F.LNK_STAT_REASON l, F.LNK_EVT_MODE l] s t := by
  let u := windowOver l s
  have hu : ∀ fs, linkMoves l fs s u := fun fs => (linkMoves.refl l fs s).modLink _
  have hulink : u.link l = { s.link l with window := none } := s.link_modLink_same l _
  obtain ⟨hlink, hreason, hpost, hmoves⟩ := linkModeFail_fails (l := l) (s := u) (by rw [hulink]; exact wasActive_of_rising hst)
  rw [hulink] at hlink hpost
  exact leads_of (exec_modeWindowClose hjob ((windowClose_of_rising hwin hst).trans (if_pos hother)))
    ⟨hlink, hreason, (hu []).posts_from rfl (by simp) hpost, ((hu _).trans hmoves).link, ((hu _).trans hmoves).fields⟩

theorem leads_windowCloseTimeout (hst : (s.link l).st ∈ [LnkState.train, .align, .ident]) (hother : (s.link l).otherMode = false) :
    leads (.modeWindowClose l) s fun t =>
      t.link l = { s.link l with st := .fail, since := s.now, window := none } ∧ t.fget (F.LNK_STAT_REASON l) = 1 ∧
      t.evq = s.evq ∧ onlyLink l s t ∧ onlyFields [F.LNK_STAT_REASON l] s t := by
  let u := windowOver l s
  have hu : linkMoves l [F.LNK_STAT_REASON l] s u := (linkMoves.refl l _ s).modLink _
  have hulink : u.link l = { s.link l with window := none } := s.link_modLink_same l _
  obtain ⟨hlink, hreason, hevq, hmoves⟩ := linkFail_fails (l := l) (reason := 1) (s := u) (by decide)
    (by rw [hulink]; exact wasActive_of_rising hst)
  rw [hulink] at hlink
  exact leads_of (exec_modeWindowClose hjob ((windowClose_of_rising hwin hst).trans (if_neg (ne_true_of_eq_false hother))))
    ⟨hlink, hreason, hevq, (hu.trans hmoves).link, (hu.trans hmoves).fields⟩

theorem leads_windowCloseUp (hst : (s.link l).st = .up) : leads (.modeWindowClose l) s fun t =>
    t.link l = { s.link l with window := none } ∧ t.evq = s.evq ∧ onlyLink l s t ∧ onlyFields [] s t := by
  have hu : linkMoves l [] s (windowOver l s) := (linkMoves.refl l [] s).modLink _
  exact leads_of (exec_modeWindowClose hjob (windowClose_of_up hwin hst)) ⟨s.link_modLink_same l _, rfl, hu.link, hu.fields⟩

end

/-! ### Framing is lost (R254) -/

theorem framingLost_of_rising {l : Nat} {s : State} (h : (s.link l).st ∈ [LnkState.align, .ident, .up]) :
    framingLost l s = linkTrain l s := by
  simp only [List.mem_cons, List.not_mem_nil, or_false] at h
  rcases h with h | h | h <;> simp [framingLost, h]

theorem framingLost_of_active {l : Nat} {s : State} (h : (s.link l).st = .active) :
    framingLost l s = ctlPut l (resumeWord (tagOf (s.link l).expect)) (linkTo .resume l s) := by
  simp [framingLost, h]

theorem framingLost_of_other {l : Nat} {s : State} (h : (s.link l).st ∈ [LnkState.off, .train, .resume, .fail]) :
    framingLost l s = s := by
  simp only [List.mem_cons, List.not_mem_nil, or_false] at h
  rcases h with h | h | h | h <;> simp [framingLost, h]

theorem leads_framingLostTrains (l : Nat) (s : State) (h : (s.link l).st ∈ [LnkState.align, .ident, .up]) :
    leads (.framingLost l) s fun t =>
    t.link l = { s.link l with st := .train, since := s.now, mode := s.fget (F.LNK_CTL_MODE l), lanes := 0 } ∧
    t.evq = s.evq ∧ onlyLink l s t ∧ onlyFields [] s t := by
  have hmoves : linkMoves l [] s (linkTrain l s) := (linkMoves.refl l [] s).linkTrain
  exact leads_of (congrArg Host.Outcome.next (framingLost_of_rising h)) ⟨link_linkTrain_same l s, rfl, hmoves.link, hmoves.fields⟩

theorem framingLost_resumes {l : Nat} {s : State} (h : (s.link l).st = .active) :
    (framingLost l s).link l = { s.link l with
      st := .resume, since := s.now
      ctlq := (s.link l).ctlq ++ [resumeWord (tagOf (s.link l).expect)] } ∧ (framingLost l s).evq = s.evq ∧
    linkMoves l [] s (framingLost l s) := by
  rw [framingLost_of_active h]
  exact ⟨by simp [ctlPut, linkTo], rfl, ((linkMoves.refl l [] s).modLink _).modLink _⟩

theorem leads_framingLostResumes (l : Nat) (s : State) (h : (s.link l).st = .active) : leads (.framingLost l) s fun t =>
    t.link l = { s.link l with
      st := .resume, since := s.now
      ctlq := (s.link l).ctlq ++ [resumeWord (tagOf (s.link l).expect)] } ∧ t.evq = s.evq ∧ onlyLink l s t ∧
    onlyFields [] s t := by
  obtain ⟨hlink, hevq, hmoves⟩ := framingLost_resumes h
  exact ⟨framingLost l s, rfl, hlink, hevq, hmoves.link, hmoves.fields⟩

/-! ### The end of RESUME (R247, R254) -/

/-- The link is ACTIVE again, with LNK_RESUMED posted, before it goes back (R254, R272). -/
def resumed (l : Nat) (tag : BitVec 16) (s : State) : State :=
  ((linkTo .active l s).modLink l fun x => { x with retry := none }).raise (F.LNK_EVT_RESUMED l) 9 8
    [l, tag.toNat, (s.now - (s.link l).since) / 1000]

theorem resumeDone_of_resume {l : Nat} {tag : BitVec 16} {s : State} (h : (s.link l).st = .resume) :
    resumeDone l tag s = linkGoBack l tag (resumed l tag s) := if_pos (by simp [h])

theorem resumeDone_of_other {l : Nat} {tag : BitVec 16} {s : State} (h : (s.link l).st ≠ .resume) : resumeDone l tag s = s :=
  if_neg (by simp [h])

theorem resumeFail_of_resume {l : Nat} {s : State} (reason : Nat) (h : (s.link l).st = .resume) :
    resumeFail l reason s = linkDown l reason s := if_pos (by simp [h])

theorem resumeFail_of_other {l : Nat} {s : State} (reason : Nat) (h : (s.link l).st ≠ .resume) : resumeFail l reason s = s :=
  if_neg (by simp [h])

theorem leads_resumeComplete (l : Nat) (tag : BitVec 16) (s : State) (h : (s.link l).st = .resume) :
    leads (.resumeComplete l tag) s fun t =>
    t.link l = { s.link l with st := .active, since := s.now, retry := none, tx := (t.link l).tx } ∧
    sentFrames (((s.link l).replay.dropWhile fun e => tagOf e.1 != tag).map
      fun e => (l, refreshFrame { s.link l with retry := none } e.2)) s t ∧
    posted (F.LNK_EVT_RESUMED l) 9 8 [l, tag.toNat, (s.now - (s.link l).since) / 1000] s t ∧ onlyLink l s t ∧
    onlyFields [F.LNK_EVT_RESUMED l] s t := by
  let u := resumed l tag s
  have hactive : ∀ fs, linkMoves l fs s ((linkTo .active l s).modLink l fun x => { x with retry := none }) := fun fs =>
    ((linkMoves.refl l fs s).modLink _).modLink _
  have hu : linkMoves l [F.LNK_EVT_RESUMED l] s u := (hactive _).raise (by simp) 9 8 _
  have hpost : posted (F.LNK_EVT_RESUMED l) 9 8 _ s u := (hactive []).posts 9 8 _ rfl rfl (by simp)
  have hulink : u.link l = { s.link l with st := .active, since := s.now, retry := none } := by simp [u, resumed, linkTo]
  have hout : u.out = s.out := by simp [u, resumed, linkTo]
  obtain ⟨hmoves, hlink, hevq, hsent⟩ := linkSends_linkGoBack l tag u
  rw [hulink] at hlink hsent
  have hall := hu.trans (hmoves.mono (List.nil_subset _))
  refine leads_of (congrArg Host.Outcome.next (resumeDone_of_resume h)) ⟨hlink, ?_,
    posted_to hpost hevq (hmoves.fields.fget_eq _), hall.link, hall.fields⟩
  rw [sentFrames, hout] at hsent
  exact hsent

theorem leads_resumeFails (l : Nat) (s : State) (i : Instr) (reason : Nat)
    (hi : (i, reason) ∈ [(Instr.resumeTimeout l, 3), (.partnerOffReport l, 4)]) (h : (s.link l).st = .resume) : leads i s fun t =>
      t.link l = { s.link l with st := .fail, since := s.now, dropped := true, window := none } ∧
      t.fget (F.LNK_STAT_REASON l) = reason ∧ posted (F.LNK_EVT_DOWN l) 9 2 [l, 6, reason] s t ∧ onlyLink l s t ∧
      onlyFields [F.LNK_STAT_REASON l, F.LNK_EVT_DOWN l] s t := by
  have hexec : exec i s = .next (linkDown l reason s) ∧ reason < 256 := by
    simp only [List.mem_cons, Prod.mk.injEq, List.not_mem_nil, or_false] at hi
    obtain ⟨rfl, rfl⟩ | ⟨rfl, rfl⟩ := hi
    · exact ⟨congrArg Host.Outcome.next (resumeFail_of_resume 3 h), by decide⟩
    · exact ⟨congrArg Host.Outcome.next (resumeFail_of_resume 4 h), by decide⟩
  have hfail : ∀ fs, F.LNK_STAT_REASON l ∈ fs → linkMoves l fs s (linkFail l reason s) := fun fs hf =>
    (linkMoves.refl l fs s).linkFail hf reason
  have hdown : linkMoves l [F.LNK_STAT_REASON l, F.LNK_EVT_DOWN l] s (linkDown l reason s) := (hfail _ (by simp)).raise (by simp) 9 2 _
  refine leads_of hexec.1 ⟨?_, ?_, (hfail [F.LNK_STAT_REASON l] (by simp)).posts 9 2 _ rfl ?_ (by simp), hdown.link, hdown.fields⟩
  · simp [linkDown, link_linkFail_same, Lnk.wasActive, h]
  · simpa [linkDown, linkFail, State.fget_raise_ne] using Nat.mod_eq_of_lt hexec.2
  · simp [linkFail, linkTo]

/-- Settles O34: `linkFail_fails` and `linkModeFail_fails` give a failed link, `linkSends_linkGoBack` what a resumed one sends
again. -/
theorem linksFailAndResume : Obligations.LinksFailAndResume := by
  unfold Obligations.LinksFailAndResume
  refine ⟨leads_partnerModeFails, leads_partnerModeTrains, leads_modeRetry, leads_windowCloseMode, leads_windowCloseTimeout,
    leads_windowCloseUp, leads_framingLostTrains, leads_framingLostResumes, leads_resumeComplete, leads_resumeFails,
    fun l s h => congrArg Host.Outcome.next (partnerMode_of_other h), fun l s h => congrArg Host.Outcome.next (modeRetry_of_other h),
    fun l s hjob hwin => exec_modeWindowClose hjob (windowClose_of_none hwin),
    fun l s h => congrArg Host.Outcome.next (framingLost_of_other h), fun l tag s i hi h => ?_⟩
  simp only [List.mem_cons, List.not_mem_nil, or_false] at hi
  rcases hi with rfl | rfl | rfl
  · exact congrArg Host.Outcome.next (resumeDone_of_other h)
  · exact congrArg Host.Outcome.next (resumeFail_of_other 3 h)
  · exact congrArg Host.Outcome.next (resumeFail_of_other 4 h)

end Sys2Proof.Machine
end

section
/-! A lane of a link is spared (R260, R261, R263, R267, R271, R272). -/
namespace Sys2Proof.Machine

/-! ### Records of the firmware and of the sparing policy beside a link (R595, R596) -/

theorem State.link_congr {s t : State} (h : t.links = s.links) (l : Nat) : t.link l = s.link l := by
  rw [State.link, State.link, h]

theorem linkMoves.record {l : Nat} {fs : List Fld} {s t u : State} (h : linkMoves l fs s t) (g : Fr 0x400040 t u) :
    linkMoves l fs s u :=
  h.trans ⟨⟨⟨g.h_seq rfl, g.h_clauses rfl, g.h_mem rfl⟩, fun k _ => State.link_congr (g.h_links rfl) k⟩,
    onlyFields.of_frame _ (by decide) g, g.h_ptime rfl⟩

/-! ### What refuses an action (R263) -/

/-- RESULT of a sparing action as this end tells it: 0 where it begins. -/
def State.sparingCode (s : State) (l lane : Nat) : Nat :=
  if (s.link l).st ≠ .up ∧ (s.link l).st ≠ .active then 3 else if (s.link l).sparing ≠ none then 5
  else if 2 < lane ∨ lane = s.fget (F.LNK_STAT_SPARE l) then 2 else if s.fbit (F.LNK_STAT_SPARE_OK l) then 0 else 1

theorem State.sparingRefusal_eq (s : State) (l lane : Nat) : s.sparingRefusal l lane = refusalOf (s.sparingCode l lane) := by
  unfold State.sparingRefusal State.sparingCode
  simp only [refusalOf_ite]
  cases hok : s.fbit (F.LNK_STAT_SPARE_OK l) <;> simp [refusalOf, State.spareLane, Option.isSome_iff_ne_none]

theorem State.sparingCode_le (s : State) (l lane : Nat) : s.sparingCode l lane ≤ 5 := by
  unfold State.sparingCode
  split_ifs <;> decide

/-- What this end needs for a sparing action (R261). -/
theorem State.sparingRefusal_of_granted {s : State} {l lane : Nat} (hst : (s.link l).st ∈ [LnkState.up, .active])
    (hfree : (s.link l).sparing = none) (hlane : lane ≤ 2) (hne : lane ≠ s.fget (F.LNK_STAT_SPARE l))
    (hok : s.fbit (F.LNK_STAT_SPARE_OK l) = true) : s.sparingRefusal l lane = none := by
  simp only [List.mem_cons, List.not_mem_nil, or_false] at hst
  rcases hst with h | h <;> simp [State.sparingRefusal, State.spareLane, h, hfree, hlane, hne, hok]

theorem State.sparingRefusal_of_busy {s : State} {l lane : Nat}
    (h : (s.link l).sparing ≠ none ∨ 2 < lane ∨ lane = s.fget (F.LNK_STAT_SPARE l) ∨ s.fbit (F.LNK_STAT_SPARE_OK l) = false) :
    ∃ r, s.sparingRefusal l lane = some r := by
  have hcode : s.sparingCode l lane ≠ 0 := by
    unfold State.sparingCode
    split_ifs <;> simp_all
  exact ⟨_, (s.sparingRefusal_eq l lane).trans (if_neg hcode)⟩

/-! ### An action begins, and is reported (R261, R263, R272) -/

/-- A sparing action with the control word that tells the partner (R261). -/
def sparingSent (l lane : Nat) (byGo accepted : Bool) (w : BitVec 64) (s : State) : State :=
  ctlPut l w (sparingStart l lane byGo accepted s)

theorem fget_sparingSent_ne {l lane : Nat} {byGo accepted : Bool} {w : BitVec 64} {s : State} {g : Fld}
    (h : g.key ≠ (F.LNK_STAT_SPARE_BUSY l).key) : (sparingSent l lane byGo accepted w s).fget g = s.fget g :=
  State.fget_fset_ne _ 1 h

theorem linkMoves.sparingSent {l : Nat} {fs : List Fld} {s t : State} (h : linkMoves l fs s t) (hf : F.LNK_STAT_SPARE_BUSY l ∈ fs)
    (lane : Nat) (byGo accepted : Bool) (w : BitVec 64) : linkMoves l fs s (sparingSent l lane byGo accepted w t) :=
  have hstart : linkMoves l fs s (sparingStart l lane byGo accepted t) := (h.modLink _).fset hf 1
  hstart.ctlPut w

theorem sparingSent_begins {l lane : Nat} {byGo accepted : Bool} {w : BitVec 64} {fs : List Fld} {s u : State}
    (h : linkMoves l fs s u) (hlinks : u.links = s.links) (hnow : u.now = s.now) (hevq : u.evq = s.evq)
    (hf : F.LNK_STAT_SPARE_BUSY l ∈ fs) :
    (sparingSent l lane byGo accepted w u).fget (F.LNK_STAT_SPARE_BUSY l) = 1 ∧
    (sparingSent l lane byGo accepted w u).link l = { s.link l with
      sparing := some { lane := lane, byGo := byGo, accepted := accepted, since := s.now }
      ctlq := (s.link l).ctlq ++ [w] } ∧
    linkMoves l fs s (sparingSent l lane byGo accepted w u) ∧ (sparingSent l lane byGo accepted w u).evq = s.evq := by
  refine ⟨State.fget_fset_same _ _ 1, ?_, h.sparingSent hf lane byGo accepted w, hevq⟩
  simp [sparingSent, ctlPut, sparingStart, State.link_congr hlinks, hnow]

theorem laneReport_reports {l lane result hold : Nat} {fs : List Fld} {s u : State} (h : linkMoves l fs s u) (hevq : u.evq = s.evq)
    (hres : F.LNK_SPARE_RESULT l ∈ fs) (hen : ∀ g ∈ fs, (evten (F.LNK_EVT_LANE l)).key ≠ g.key) (hr : result < 256) :
    (laneReport l lane result hold u).fget (F.LNK_SPARE_RESULT l) = result ∧
    posted (F.LNK_EVT_LANE l) 9 5 [l, lane, result, hold] s (laneReport l lane result hold u) ∧
    linkMoves l (fs ++ [F.LNK_EVT_LANE l]) s (laneReport l lane result hold u) :=
  ⟨(State.fget_raise_ne _ _ _ _ (by simp)).trans ((u.fget_fset_same _ result).trans (Nat.mod_eq_of_lt hr)),
    (h.fset hres result).posts 9 5 _ rfl hevq hen, ((h.fset hres result).mono (by simp)).raise (by simp) 9 5 _⟩

theorem links_laneReport (l lane result hold : Nat) (s : State) : (laneReport l lane result hold s).links = s.links :=
  State.links_raise _ _ _ _ _

/-! ### LNK_SPARE_GO (R263) -/

theorem lnkSpareGo_of_refused {l lane r : Nat} {s : State} (h : s.sparingRefusal l lane = some r) :
    lnkSpareGo l lane s = laneReport l lane r 0 (s.fset (F.LNK_SPARE_LANE l) lane) := by
  simp only [lnkSpareGo, h]

theorem lnkSpareGo_of_granted {l lane : Nat} {s : State} (h : s.sparingRefusal l lane = none) :
    lnkSpareGo l lane s = sparingSent l lane true false (laneWord 1 lane)
      ((s.fset (F.LNK_SPARE_LANE l) lane).fset (F.LNK_SPARE_GO l) 1) := by
  simp only [lnkSpareGo, h]
  rfl

theorem leads_spareGo (l lane r : Nat) (s : State) (hlane : lane < 4) (hr : r = s.sparingCode l lane) :
    (r ≠ 0 → leads (.lnkSpareGo l lane) s fun t => t.fget (F.LNK_SPARE_LANE l) = lane ∧ t.fget (F.LNK_SPARE_RESULT l) = r ∧
      posted (F.LNK_EVT_LANE l) 9 5 [l, lane, r, 0] s t ∧ t.links = s.links ∧ steady s t ∧
      onlyFields [F.LNK_SPARE_LANE l, F.LNK_SPARE_RESULT l, F.LNK_EVT_LANE l] s t) ∧
    (r = 0 → leads (.lnkSpareGo l lane) s fun t => t.fget (F.LNK_SPARE_LANE l) = lane ∧ t.fget (F.LNK_SPARE_GO l) = 1 ∧
      t.fget (F.LNK_STAT_SPARE_BUSY l) = 1 ∧
      t.link l = { s.link l with
        sparing := some { lane := lane, byGo := true, accepted := false, since := s.now }
        ctlq := (s.link l).ctlq ++ [laneWord 1 lane] } ∧ onlyLink l s t ∧ t.evq = s.evq ∧
      onlyFields [F.LNK_SPARE_LANE l, F.LNK_SPARE_GO l, F.LNK_STAT_SPARE_BUSY l] s t) := by
  let u := s.fset (F.LNK_SPARE_LANE l) lane
  have hu : u.fget (F.LNK_SPARE_LANE l) = lane := (s.fget_fset_same _ lane).trans (Nat.mod_eq_of_lt hlane)
  have hrule : s.sparingRefusal l lane = refusalOf r := hr ▸ s.sparingRefusal_eq l lane
  constructor
  · intro hne
    obtain ⟨hres, hpost, hmoves⟩ := laneReport_reports (lane := lane) (hold := 0) (fs := [F.LNK_SPARE_LANE l, F.LNK_SPARE_RESULT l])
      (result := r) (((linkMoves.refl l _ s).fset (by simp) lane) : linkMoves l _ s u) rfl (by simp) (by simp)
      (hr ▸ (s.sparingCode_le l lane).trans_lt (by decide))
    refine leads_of (congrArg Host.Outcome.next (lnkSpareGo_of_refused (hrule.trans (if_neg hne)))) ⟨?_, hres, hpost,
      links_laneReport l lane r 0 u, hmoves.steady, hmoves.fields⟩
    exact ((State.fget_raise_ne _ _ _ _ (by simp)).trans (State.fget_fset_ne _ _ (by simp))).trans hu
  · intro hzero
    obtain ⟨hbusy, hlink, hmoves, hevq⟩ := sparingSent_begins (lane := lane) (byGo := true) (accepted := false) (w := laneWord 1 lane)
      (fs := [F.LNK_SPARE_LANE l, F.LNK_SPARE_GO l, F.LNK_STAT_SPARE_BUSY l]) (u := u.fset (F.LNK_SPARE_GO l) 1)
      (((linkMoves.refl l _ s).fset (by simp) lane).fset (by simp) 1) rfl rfl rfl (by simp)
    refine leads_of (congrArg Host.Outcome.next (lnkSpareGo_of_granted (hrule.trans (if_pos hzero)))) ⟨?_, ?_, hbusy, hlink, hmoves.link,
      hevq, hmoves.fields⟩
    · exact ((fget_sparingSent_ne (by simp)).trans (u.fget_fset_ne 1 (by simp))).trans hu
    · exact (fget_sparingSent_ne (by simp)).trans (u.fget_fset_same _ 1)

/-! ### LANE words (R261) -/

theorem laneWordIn_of_request {l lane : Nat} {s : State} (hlive : (s.link l).live = true) (h : s.sparingRefusal l lane = none) :
    laneWordIn l 1 lane s = sparingSent l lane false true (laneWord 2 lane) s := by
  simp only [laneWordIn, hlive, h]
  rfl

theorem laneWordIn_of_refused {l lane r : Nat} {s : State} (hlive : (s.link l).live = true) (h : s.sparingRefusal l lane = some r) :
    laneWordIn l 1 lane s = ctlPut l (laneWord 3 lane) s := by
  simp only [laneWordIn, hlive, h]
  rfl

theorem live_of_mem {x : Lnk} (h : x.st ∈ [LnkState.up, .active]) : x.live = true := by
  simp only [List.mem_cons, List.not_mem_nil, or_false] at h
  rcases h with h | h <;> simp [Lnk.live, h]

theorem leads_request (l lane : Nat) (s : State) (hst : (s.link l).st ∈ [LnkState.up, .active]) (hfree : (s.link l).sparing = none)
    (hlane : lane ≤ 2) (hne : lane ≠ s.fget (F.LNK_STAT_SPARE l)) (hok : s.fbit (F.LNK_STAT_SPARE_OK l) = true) :
    leads (.laneWordReceive l 1 lane) s fun t => t.fget (F.LNK_STAT_SPARE_BUSY l) = 1 ∧
      t.link l = { s.link l with
        sparing := some { lane := lane, byGo := false, accepted := true, since := s.now }
        ctlq := (s.link l).ctlq ++ [laneWord 2 lane] } ∧ onlyLink l s t ∧ t.evq = s.evq ∧
      onlyFields [F.LNK_STAT_SPARE_BUSY l] s t := by
  have hgrant := State.sparingRefusal_of_granted hst hfree hlane hne hok
  obtain ⟨hbusy, hlink, hmoves, hevq⟩ := sparingSent_begins (lane := lane) (byGo := false) (accepted := true) (w := laneWord 2 lane)
    (fs := [F.LNK_STAT_SPARE_BUSY l]) (linkMoves.refl l _ s) rfl rfl rfl (by simp)
  exact leads_of (congrArg Host.Outcome.next (laneWordIn_of_request (live_of_mem hst) hgrant))
    ⟨hbusy, hlink, hmoves.link, hevq, hmoves.fields⟩

theorem leads_requestRefused (l lane : Nat) (s : State) (hst : (s.link l).st ∈ [LnkState.up, .active])
    (h : (s.link l).sparing ≠ none ∨ 2 < lane ∨ lane = s.fget (F.LNK_STAT_SPARE l) ∨ s.fbit (F.LNK_STAT_SPARE_OK l) = false) :
    leads (.laneWordReceive l 1 lane) s fun t =>
      t.link l = { s.link l with ctlq := (s.link l).ctlq ++ [laneWord 3 lane] } ∧ onlyLink l s t ∧ t.evq = s.evq ∧
      onlyFields [] s t := by
  obtain ⟨r, hr⟩ := State.sparingRefusal_of_busy h
  have hmoves : linkMoves l [] s (ctlPut l (laneWord 3 lane) s) := (linkMoves.refl l [] s).modLink _
  exact leads_of (congrArg Host.Outcome.next (laneWordIn_of_refused (live_of_mem hst) hr))
    ⟨s.link_modLink_same l _, hmoves.link, rfl, hmoves.fields⟩

/-- The partner has accepted the action on a lane (R261). -/
def laneAccepted (l lane : Nat) (s : State) : State := s.modLink l fun x =>
  { x with sparing := x.sparing.map fun (a : Sparing) => if a.lane = lane then { a with accepted := true } else a }

theorem leads_accept (l : Nat) (s : State) (a : Sparing) (h : (s.link l).sparing = some a) :
    leads (.laneWordReceive l 2 a.lane) s fun t => t.link l = { s.link l with sparing := some { a with accepted := true } } ∧
      onlyLink l s t ∧ t.evq = s.evq ∧ onlyFields [] s t := by
  have hmoves : linkMoves l [] s (laneAccepted l a.lane s) := (linkMoves.refl l [] s).modLink _
  refine ⟨laneAccepted l a.lane s, rfl, ?_, hmoves.link, rfl, hmoves.fields⟩
  simp [laneAccepted, h]

/-! ### The end of an action (R261, R263) -/

/-- The action is over at this end. -/
def sparingOver (l : Nat) (s : State) : State :=
  ((s.modLink l fun x => { x with sparing := none }).fset (F.LNK_STAT_SPARE_BUSY l) 0).fset (F.LNK_SPARE_GO l) 0

theorem sparingEnd_of_none {l : Nat} {s : State} (ok : Bool) (h : (s.link l).sparing = none) : sparingEnd l ok s = s := by
  simp only [sparingEnd, h]

theorem sparingEnd_of_refused {l : Nat} {s : State} {a : Sparing} (h : (s.link l).sparing = some a) (hcal : a.cal = false) :
    sparingEnd l false s = laneReport l a.lane 4 0 (sparingOver l s) := by
  simp only [sparingEnd, h, hcal]
  rfl

/-- The active lanes once a lane has become the spare and the spare active. -/
def swapLanes (lanes : BitVec 3) (lane spare : Nat) : BitVec 3 :=
  BitVec.ofNat 3 (putBit (putBit lanes.toNat lane false) spare true)

theorem getLsbD_swapLanes (lanes : BitVec 3) (lane spare : Nat) {k : Nat} (hk : k < 3) : (swapLanes lanes lane spare).getLsbD k =
    if k = spare then true else if k = lane then false else lanes.getLsbD k := by
  rw [swapLanes, BitVec.getLsbD_ofNat, decide_eq_true hk, Bool.true_and, ← nbit_eq_testBit, nbit_putBit, nbit_putBit, nbit_eq_testBit]
  rfl

/-- The lane is switched with the spare, which is not trained yet (R261). -/
def laneSwitched (l lane : Nat) (s : State) : State :=
  (((sparingOver l s).modLink l fun x => { x with
    lanes := swapLanes x.lanes lane (s.spareLane l), retrain := some s.now }).fset (F.LNK_STAT_SPARE l) lane).fset (F.LNK_STAT_SPARE_OK l) 0

/-- An ACTIVE link asks for the superframes that the switch has lost (R261). -/
def laneResumed (l lane : Nat) (s : State) : State :=
  if (s.link l).st = .active then ctlPut l (resumeWord (tagOf (s.link l).expect)) (laneSwitched l lane s) else laneSwitched l lane s

theorem sparingEnd_of_accepted {l : Nat} {s : State} {a : Sparing} (h : (s.link l).sparing = some a) (hcal : a.cal = false) :
    sparingEnd l true s = laneReport l a.lane 0 (s.now - a.since) (laneResumed l a.lane s) := by
  have hst : ((s.link l).st == LnkState.active) = decide ((s.link l).st = .active) := rfl
  simp only [sparingEnd, h, hcal]
  simp [laneResumed, laneSwitched, sparingOver, swapLanes]

theorem linkMoves_sparingOver {l : Nat} {fs : List Fld} (s : State) (hbusy : F.LNK_STAT_SPARE_BUSY l ∈ fs)
    (hgo : F.LNK_SPARE_GO l ∈ fs) : linkMoves l fs s (sparingOver l s) := (((linkMoves.refl l fs s).modLink _).fset hbusy 0).fset hgo 0

theorem laneWordIn_of_refusal {l : Nat} {s : State} {a : Sparing} (h : (s.link l).sparing = some a) (hacc : a.accepted = false) :
    laneWordIn l 3 a.lane s = sparingEnd l false s := by
  simp [laneWordIn, h, hacc]

theorem laneWordIn_of_none {l : Nat} {s : State} (lane : Nat) (h : (s.link l).sparing = none) : laneWordIn l 3 lane s = s := by
  simp [laneWordIn, h]

/-- The commands by which a partner refuses an action, up to the firmware's record of it. -/
theorem exec_partnerRefuses {l : Nat} {s : State} {a : Sparing} {i : Instr}
    (hi : i ∈ [Instr.laneWordReceive l 3 a.lane, .laneSpareComplete l false]) (h : (s.link l).sparing = some a)
    (hacc : a.accepted = false) : ∃ t, exec i s = .next t ∧ Fr 0x400040 (sparingEnd l false s) t := by
  simp only [List.mem_cons, List.not_mem_nil, or_false] at hi
  rcases hi with rfl | rfl
  · exact ⟨_, congrArg Host.Outcome.next (laneWordIn_of_refusal h hacc), Fr.refl _ _⟩
  · exact ⟨_, rfl, actsLog_frame (Fr.refl _ _) rfl⟩

theorem leads_partnerRefuses (l : Nat) (s : State) (a : Sparing) (i : Instr)
    (hi : i ∈ [Instr.laneWordReceive l 3 a.lane, .laneSpareComplete l false]) (h : (s.link l).sparing = some a)
    (hacc : a.accepted = false) (hcal : a.cal = false) : leads i s fun t =>
      t.link l = { s.link l with sparing := none } ∧ t.fget (F.LNK_STAT_SPARE_BUSY l) = 0 ∧ t.fget (F.LNK_SPARE_GO l) = 0 ∧
      t.fget (F.LNK_SPARE_RESULT l) = 4 ∧ posted (F.LNK_EVT_LANE l) 9 5 [l, a.lane, 4, 0] s t ∧ onlyLink l s t ∧
      onlyFields [F.LNK_STAT_SPARE_BUSY l, F.LNK_SPARE_GO l, F.LNK_SPARE_RESULT l, F.LNK_EVT_LANE l] s t := by
  obtain ⟨t, ht, hrec⟩ := exec_partnerRefuses hi h hacc
  rw [sparingEnd_of_refused h hcal] at hrec
  have hover : linkMoves l [F.LNK_STAT_SPARE_BUSY l, F.LNK_SPARE_GO l, F.LNK_SPARE_RESULT l] s (sparingOver l s) :=
    linkMoves_sparingOver s (by simp) (by simp)
  obtain ⟨hres, hpost, hmoves⟩ := laneReport_reports (lane := a.lane) (result := 4) (hold := 0) hover rfl (by simp)
    (by simp) (by decide)
  have hfget : ∀ f, t.fget f = (laneReport l a.lane 4 0 (sparingOver l s)).fget f := hrec.fget (by decide)
  have hlink : (laneReport l a.lane 4 0 (sparingOver l s)).link l = { s.link l with sparing := none } := by
    simp [laneReport, sparingOver]
  have hall := hmoves.record hrec
  refine ⟨t, ht, (State.link_congr (hrec.h_links rfl) l).trans hlink, (hfget _).trans ?_, (hfget _).trans ?_, (hfget _).trans hres,
    posted_to hpost (hrec.h_evq rfl) (hfget _), hall.link, hall.fields⟩ <;>
    simp [laneReport, sparingOver, State.fget_raise_ne, State.fget_fset_ne]

theorem link_laneResumed (l lane : Nat) (s : State) : (laneResumed l lane s).link l = { s.link l with
    sparing := none, retrain := some s.now, lanes := swapLanes (s.link l).lanes lane (s.fget (F.LNK_STAT_SPARE l))
    ctlq := if (s.link l).st = .active then (s.link l).ctlq ++ [resumeWord (tagOf (s.link l).expect)] else (s.link l).ctlq } := by
  unfold laneResumed
  split_ifs <;> simp [ctlPut, laneSwitched, sparingOver, State.spareLane]

theorem fget_ctlPut (l : Nat) (w : BitVec 64) (s : State) (f : Fld) : (ctlPut l w s).fget f = s.fget f := rfl

theorem evq_ctlPut (l : Nat) (w : BitVec 64) (s : State) : (ctlPut l w s).evq = s.evq := rfl

/-- What a resend request leaves of a switched lane. -/
theorem fget_laneResumed (l lane : Nat) (s : State) (f : Fld) : (laneResumed l lane s).fget f = (laneSwitched l lane s).fget f := by
  unfold laneResumed
  split_ifs
  · exact fget_ctlPut ..
  · rfl

theorem linkMoves_laneResumed {l : Nat} {fs : List Fld} (lane : Nat) (s : State) (hbusy : F.LNK_STAT_SPARE_BUSY l ∈ fs)
    (hgo : F.LNK_SPARE_GO l ∈ fs) (hspare : F.LNK_STAT_SPARE l ∈ fs) (hok : F.LNK_STAT_SPARE_OK l ∈ fs) :
    linkMoves l fs s (laneResumed l lane s) := by
  have hswitch : linkMoves l fs s (laneSwitched l lane s) :=
    (((linkMoves_sparingOver s hbusy hgo).modLink _).fset hspare lane).fset hok 0
  unfold laneResumed
  split_ifs
  · exact hswitch.ctlPut _
  · exact hswitch

theorem evq_laneResumed (l lane : Nat) (s : State) : (laneResumed l lane s).evq = s.evq := by
  have hswitch : (laneSwitched l lane s).evq = s.evq := by simp [laneSwitched, sparingOver]
  unfold laneResumed
  split_ifs
  · exact (evq_ctlPut ..).trans hswitch
  · exact hswitch

/-- The fields that a switch writes. -/
def switchFields (l : Nat) : List Fld :=
  [F.LNK_STAT_SPARE l, F.LNK_STAT_SPARE_OK l, F.LNK_STAT_SPARE_BUSY l, F.LNK_SPARE_GO l, F.LNK_SPARE_RESULT l]

/-- What LANE_SPARE_COMPLETE does at an accepted action: the firmware's record follows the report. -/
theorem fr_laneCompletes {l : Nat} {s : State} {a : Sparing} (h : (s.link l).sparing = some a) (hcal : a.cal = false) :
    Fr 0x400040 (laneReport l a.lane 0 (s.now - a.since) (laneResumed l a.lane s)) (actsLog (sparingEnd l true s)) := by
  rw [sparingEnd_of_accepted h hcal]
  exact actsLog_frame (Fr.refl _ _) rfl

theorem link_laneCompletes {l : Nat} {s : State} {a : Sparing} (h : (s.link l).sparing = some a) (hcal : a.cal = false) :
    (actsLog (sparingEnd l true s)).link l = (laneResumed l a.lane s).link l :=
  (State.link_congr ((fr_laneCompletes h hcal).h_links rfl) l).trans (State.link_congr (links_laneReport _ _ _ _ _) l)

theorem fget_laneCompletes {l : Nat} {s : State} {a : Sparing} (h : (s.link l).sparing = some a) (hcal : a.cal = false) (f : Fld)
    (hres : f.key ≠ (F.LNK_SPARE_RESULT l).key) (hevt : f.key ≠ (F.LNK_EVT_LANE l).key) :
    (actsLog (sparingEnd l true s)).fget f = (laneSwitched l a.lane s).fget f := by
  rw [(fr_laneCompletes h hcal).fget (by decide) f, ← fget_laneResumed, laneReport, State.fget_raise_ne _ _ _ _ hevt,
    State.fget_fset_ne _ _ hres]

theorem leads_laneSwitches (l : Nat) (s : State) (a : Sparing) (h : (s.link l).sparing = some a) (hcal : a.cal = false)
    (hlane : a.lane < 3) : leads (.laneSpareComplete l true) s fun t => (t.link l).sparing = none ∧ (t.link l).retrain = some s.now ∧
      (∀ k, k < 3 → (t.link l).lanes.getLsbD k = if k = s.fget (F.LNK_STAT_SPARE l) then true
        else if k = a.lane then false else (s.link l).lanes.getLsbD k) ∧
      (t.link l).ctlq = (if (s.link l).st = .active then (s.link l).ctlq ++ [resumeWord (tagOf (s.link l).expect)]
        else (s.link l).ctlq) ∧
      t.fget (F.LNK_STAT_SPARE l) = a.lane ∧ t.fget (F.LNK_STAT_SPARE_OK l) = 0 ∧ t.fget (F.LNK_STAT_SPARE_BUSY l) = 0 ∧
      t.fget (F.LNK_SPARE_GO l) = 0 ∧ t.fget (F.LNK_SPARE_RESULT l) = 0 ∧
      posted (F.LNK_EVT_LANE l) 9 5 [l, a.lane, 0, s.now - a.since] s t ∧ onlyLink l s t ∧
      onlyFields [F.LNK_STAT_SPARE l, F.LNK_STAT_SPARE_OK l, F.LNK_STAT_SPARE_BUSY l, F.LNK_SPARE_GO l,
        F.LNK_SPARE_RESULT l, F.LNK_EVT_LANE l] s t := by
  obtain ⟨hres, hpost, hmoves⟩ := laneReport_reports (lane := a.lane) (result := 0) (hold := s.now - a.since)
    (linkMoves_laneResumed (fs := switchFields l) a.lane s (by simp [switchFields]) (by simp [switchFields]) (by simp [switchFields])
      (by simp [switchFields])) (evq_laneResumed l a.lane s) (by simp [switchFields]) (by simp [switchFields]) (by decide)
  have hrec := fr_laneCompletes h hcal
  have hlink := (link_laneCompletes h hcal).trans (link_laneResumed l a.lane s)
  have hfget := fget_laneCompletes h hcal
  have hall := hmoves.record hrec
  refine ⟨actsLog (sparingEnd l true s), rfl, ?_⟩
  beta_reduce
  rw [hlink]
  refine ⟨rfl, rfl, fun k hk => getLsbD_swapLanes _ _ _ hk, rfl, (hfget _ (by simp) (by simp)).trans ?_,
    (hfget _ (by simp) (by simp)).trans ?_, (hfget _ (by simp) (by simp)).trans ?_, (hfget _ (by simp) (by simp)).trans ?_,
    (hrec.fget (by decide) _).trans hres, posted_to hpost (hrec.h_evq rfl) (hrec.fget (by decide) _), hall.link, hall.fields⟩
  · simpa [laneSwitched, State.fget_fset_ne] using Nat.mod_eq_of_lt (hlane.trans (by decide : 3 < 4))
  all_goals simp [laneSwitched, sparingOver, State.fget_fset_ne]

/-! ### LANE_LOSS (R254, R261) -/

theorem laneLoss_of_off {l lane : Nat} {s : State} (h : (s.link l).st = .off) : laneLoss l lane s = s := by
  simp [laneLoss, Lnk.live, h]

theorem leads_spareLost (l lane : Nat) (s : State) (hst : (s.link l).st ∈ [LnkState.up, .active, .resume])
    (hlane : lane = s.fget (F.LNK_STAT_SPARE l)) : leads (.laneLoss l lane) s fun t =>
      t.fget (F.LNK_STAT_SPARE_OK l) = 0 ∧ t.links = s.links ∧ steady s t ∧ t.evq = s.evq ∧
      onlyFields [F.LNK_STAT_SPARE_OK l] s t := by
  have hlive : (s.link l).live = true := by
    simp only [List.mem_cons, List.not_mem_nil, or_false] at hst
    rcases hst with h | h | h <;> simp [Lnk.live, h]
  have hloss : laneLoss l lane s = s.fset (F.LNK_STAT_SPARE_OK l) 0 := by
    simp [laneLoss, hlive, State.spareLane, hlane]
  exact leads_of (congrArg Host.Outcome.next hloss)
    ⟨s.fget_fset_same _ 0, rfl, ⟨rfl, rfl, rfl⟩, rfl, (onlyFields.refl _ s).fset (by simp) 0⟩

theorem leads_laneLost (l lane : Nat) (s : State) (hst : (s.link l).st = .active) (hlane : lane ≠ s.fget (F.LNK_STAT_SPARE l))
    (hauto : s.fbit (F.LNK_CTL_AUTOSPARE l) = false) : leads (.laneLoss l lane) s fun t => (t.link l).st = .resume ∧
      (t.link l).since = s.now ∧ onlyLink l s t ∧ t.evq = s.evq ∧ onlyFields [] s t := by
  have hloss : laneLoss l lane s = framingLost l s := by
    simp [laneLoss, Lnk.live, hst, State.spareLane, hlane, hauto]
  obtain ⟨hlink, hevq, hmoves⟩ := framingLost_resumes hst
  exact leads_of (congrArg Host.Outcome.next hloss) ⟨by rw [hlink], by rw [hlink], hmoves.link, hevq, hmoves.fields⟩

theorem leads_laneAutospared (l lane : Nat) (s : State) (hst : (s.link l).st = .active) (hne : lane ≠ s.fget (F.LNK_STAT_SPARE l))
    (hlane : lane ≤ 2) (hauto : s.fbit (F.LNK_CTL_AUTOSPARE l) = true) (hfree : (s.link l).sparing = none)
    (hok : s.fbit (F.LNK_STAT_SPARE_OK l) = true) : leads (.laneLoss l lane) s fun t => t.fget (F.LNK_STAT_SPARE_BUSY l) = 1 ∧
      t.link l = { s.link l with
        sparing := some { lane := lane, byGo := false, accepted := false, since := s.now }
        ctlq := (s.link l).ctlq ++ [laneWord 1 lane] } ∧ onlyLink l s t ∧ t.evq = s.evq ∧
      onlyFields [F.LNK_STAT_SPARE_BUSY l] s t := by
  have hgrant : s.sparingRefusal l lane = none := State.sparingRefusal_of_granted (by simp [hst]) hfree hlane hne hok
  have hloss : laneLoss l lane s = sparingSent l lane false false (laneWord 1 lane) s := by
    simp [laneLoss, Lnk.live, hst, State.spareLane, hne, hauto, hgrant, sparingSent]
  obtain ⟨hbusy, hlink, hmoves, hevq⟩ := sparingSent_begins (lane := lane) (byGo := false) (accepted := false) (w := laneWord 1 lane)
    (fs := [F.LNK_STAT_SPARE_BUSY l]) (linkMoves.refl l _ s) rfl rfl rfl (by simp)
  exact leads_of (congrArg Host.Outcome.next hloss) ⟨hbusy, hlink, hmoves.link, hevq, hmoves.fields⟩

/-! ### The spare trains, and eyes are scanned (R260, R261) -/

theorem spareTrained_of_off {l : Nat} {s : State} (h : (s.link l).st = .off) : spareTrained l s = s := if_pos (by simp [h])

theorem leads_spareTrained (l : Nat) (s : State) (hoff : (s.link l).st ≠ .off) (hfail : (s.link l).st ≠ .fail) :
    leads (.spareLaneTrained l) s fun t =>
    t.link l = { s.link l with retrain := none } ∧ t.fget (F.LNK_STAT_SPARE_OK l) = 1 ∧ onlyLink l s t ∧ t.evq = s.evq ∧
    onlyFields [F.LNK_STAT_SPARE_OK l] s t := by
  let u := s.modLink l fun x => { x with retrain := none }
  have htrained : spareTrained l s = u.fset (F.LNK_STAT_SPARE_OK l) 1 := if_neg (by simp [hoff, hfail])
  have hmoves : linkMoves l [F.LNK_STAT_SPARE_OK l] s (u.fset (F.LNK_STAT_SPARE_OK l) 1) :=
    ((linkMoves.refl l _ s).modLink _).fset (by simp) 1
  exact leads_of (congrArg Host.Outcome.next htrained)
    ⟨by simp [u], u.fget_fset_same _ 1, hmoves.link, rfl, hmoves.fields⟩

theorem leads_spareRetrains (l r : Nat) (s : State) (h : (s.link l).retrain = some r) : leads (.spareRetrainTimer l) s fun t =>
    t.link l = { s.link l with retrain := some s.now } ∧ onlyLink l s t ∧ t.evq = s.evq ∧ onlyFields [] s t := by
  have hmoves : linkMoves l [] s (spareRetrain l s) := (linkMoves.refl l [] s).modLink _
  refine ⟨spareRetrain l s, rfl, ?_, hmoves.link, rfl, hmoves.fields⟩
  simp [spareRetrain, h]

/-- The eye of a lane is kept (R271). -/
def eyeKept (l lane h w : Nat) (s : State) : State :=
  s.modLink l fun x => { x with eye := kvSet 0 (kvSet 0 x.eye (2 * lane) h) (2 * lane + 1) w }

theorem eyeScan_of_off {l lane h w : Nat} {s : State} (hst : (s.link l).st = .off) : eyeScan l lane h w s = s := if_pos (by simp [hst])

theorem eyeScan_of_low {l lane h w : Nat} {s : State} (hst : (s.link l).st ≠ .off)
    (hlow : h < s.fget (F.LNK_EYETHR_THR_H l) ∨ w < s.fget (F.LNK_EYETHR_THR_W l)) : eyeScan l lane h w s =
      sparingEye l lane true ((eyeKept l lane h w s).raise (F.LNK_EVT_EYE_LOW l) 9 6 [l, lane, h, w]) := by
  simp [eyeScan, hst, hlow, eyeKept]

theorem eyeScan_of_open {l lane h w : Nat} {s : State} (hst : (s.link l).st ≠ .off)
    (hopen : ¬ (h < s.fget (F.LNK_EYETHR_THR_H l) ∨ w < s.fget (F.LNK_EYETHR_THR_W l))) : eyeScan l lane h w s =
      sparingEye l lane false (eyeKept l lane h w s) := by
  simp [eyeScan, hst, hopen, eyeKept]

theorem eye_eyeKept (l lane h w : Nat) (s : State) : kvGet 0 ((eyeKept l lane h w s).link l).eye (2 * lane) = h ∧
    kvGet 0 ((eyeKept l lane h w s).link l).eye (2 * lane + 1) = w := by
  simp [eyeKept, kvGet_kvSet]

theorem leads_eyeScan (l lane h w : Nat) (s : State) (hst : (s.link l).st ≠ .off) : leads (.eyeScan l lane h w) s fun t =>
    kvGet 0 (t.link l).eye (2 * lane) = h ∧ kvGet 0 (t.link l).eye (2 * lane + 1) = w ∧ onlyLink l s t ∧
    (h < s.fget (F.LNK_EYETHR_THR_H l) ∨ w < s.fget (F.LNK_EYETHR_THR_W l) →
      posted (F.LNK_EVT_EYE_LOW l) 9 6 [l, lane, h, w] s t ∧ onlyFields [F.LNK_EVT_EYE_LOW l] s t) ∧
    (s.fget (F.LNK_EYETHR_THR_H l) ≤ h → s.fget (F.LNK_EYETHR_THR_W l) ≤ w → t.evq = s.evq ∧ onlyFields [] s t) := by
  let u := eyeKept l lane h w s
  have hu : ∀ fs, linkMoves l fs s u := fun fs => (linkMoves.refl l fs s).modLink _
  obtain ⟨hheight, hwidth⟩ := eye_eyeKept l lane h w s
  by_cases hlow : h < s.fget (F.LNK_EYETHR_THR_H l) ∨ w < s.fget (F.LNK_EYETHR_THR_W l)
  · let v := u.raise (F.LNK_EVT_EYE_LOW l) 9 6 [l, lane, h, w]
    have hrec : Fr 0x400040 v (sparingEye l lane true v) := sparingEye_frame l lane true (Fr.refl _ v) rfl
    have hlink : (sparingEye l lane true v).link l = u.link l :=
      (State.link_congr (hrec.h_links rfl) l).trans (State.link_raise _ _ _ _ _ _)
    have hall : linkMoves l [F.LNK_EVT_EYE_LOW l] s (sparingEye l lane true v) := ((hu _).raise (by simp) 9 6 _).record hrec
    have hpost := posted_to ((hu []).posts (f := F.LNK_EVT_EYE_LOW l) 9 6 [l, lane, h, w] rfl rfl (by simp)) (hrec.h_evq rfl)
      (hrec.fget (by decide) _)
    exact leads_of (congrArg Host.Outcome.next (eyeScan_of_low hst hlow)) ⟨hlink ▸ hheight, hlink ▸ hwidth, hall.link,
      fun _ => ⟨hpost, hall.fields⟩, fun hh hw => absurd hlow (by omega)⟩
  · have hrec : Fr 0x400040 u (sparingEye l lane false u) := sparingEye_frame l lane false (Fr.refl _ u) rfl
    have hlink : (sparingEye l lane false u).link l = u.link l := State.link_congr (hrec.h_links rfl) l
    have hall : linkMoves l [] s (sparingEye l lane false u) := (hu _).record hrec
    exact leads_of (congrArg Host.Outcome.next (eyeScan_of_open hst hlow)) ⟨hlink ▸ hheight, hlink ▸ hwidth, hall.link,
      fun h => absurd h hlow, fun _ _ => ⟨hrec.h_evq rfl, hall.fields⟩⟩

/-! ### The statement -/

theorem laneWordIn_of_off {l lane : Nat} {s : State} (h : (s.link l).st = .off) : laneWordIn l 1 lane s = s := by
  simp [laneWordIn, Lnk.live, h]

/-- Settles O37: `sparingCode` decides a request, `sparingSent` begins an action, and `sparingEnd` ends it, refused in `sparingOver`
or switched in `laneResumed`. -/
theorem lanesSpare : Obligations.LanesSpare := by
  unfold Obligations.LanesSpare
  refine ⟨leads_spareGo, leads_request, leads_requestRefused, leads_accept, leads_partnerRefuses, leads_laneSwitches, leads_spareLost,
    leads_laneLost, leads_laneAutospared, leads_spareTrained, leads_spareRetrains, leads_eyeScan, fun l lane h w s i hst hi => ?_,
    fun l lane s h => congrArg Host.Outcome.next (laneWordIn_of_none lane h), fun l ok s h => ?_⟩
  · simp only [List.mem_cons, List.not_mem_nil, or_false] at hi
    rcases hi with rfl | rfl | rfl | rfl
    · exact congrArg Host.Outcome.next (laneWordIn_of_off hst)
    · exact congrArg Host.Outcome.next (laneLoss_of_off hst)
    · exact congrArg Host.Outcome.next (spareTrained_of_off hst)
    · exact congrArg Host.Outcome.next (eyeScan_of_off hst)
  · have hrec : Fr 0x400040 s (actsLog s) := actsLog_frame (Fr.refl _ s) rfl
    exact leads_of (congrArg (fun t => Host.Outcome.next (actsLog t)) (sparingEnd_of_none ok h)) ⟨hrec.h_links rfl,
      ⟨hrec.h_seq rfl, hrec.h_clauses rfl, hrec.h_mem rfl⟩, hrec.h_evq rfl, onlyFields.of_frame _ (by decide) hrec⟩

end Sys2Proof.Machine
end

section
/-! Superframes are checked, kept in sequence and asked for again (R238 to R242, R246 to R248, R253, R270). -/
namespace Sys2Proof.Machine

/-! ### The scrambler (R238) -/

theorem descramble_scramble (r : BitVec 58) (bits : List Bool) : descramble r (scramble r bits).1 = bits := by
  induction bits generalizing r with
  | nil => rfl
  | cons b bs ih =>
    simp only [scramble, descramble, scrambleBit, ih, List.cons.injEq, and_true]
    cases b <;> cases r.getLsbD 57 <;> cases r.getLsbD 38 <;> rfl

/-! ### Counts of a link (R270) -/

theorem State.fget_countBy_same (s : State) (f : Fld) (n : Nat) : (s.countBy f n).fget f = min (2 ^ f.width - 1) (s.fget f + n) := by
  have := Nat.two_pow_pos f.width
  rw [State.countBy, State.fget_fset_same, Nat.mod_eq_of_lt]
  omega

theorem State.fget_countBy_ne (s : State) {f g : Fld} (n : Nat) (h : g.key ≠ f.key) : (s.countBy f n).fget g = s.fget g :=
  s.fget_fset_ne _ h

theorem linkMoves.count {l : Nat} {fs : List Fld} {f : Fld} {s t : State} (h : linkMoves l fs s t) (hf : f ∈ fs) :
    linkMoves l fs s (t.count f) := h.fset hf _

theorem linkMoves.countBy {l : Nat} {fs : List Fld} {f : Fld} {s t : State} (h : linkMoves l fs s t) (hf : f ∈ fs) (n : Nat) :
    linkMoves l fs s (t.countBy f n) := h.fset hf _

theorem counted_from {f : Fld} {s t u : State} (h : counted f t u) (hf : t.fget f = s.fget f) : counted f s u := by
  rwa [counted, hf] at h

/-! ### The first superframe lost asks for a retry (R248) -/

/-- A link that asks for the superframe it expects: in FEC mode by a RESUME word, in LITE by the NAK of the next superframe. -/
def Lnk.asking (x : Lnk) (now : Nat) : Lnk :=
  { x with retry := some now, ctlq := if x.mode = 1 then x.ctlq else x.ctlq ++ [resumeWord (tagOf x.expect)] }

theorem Lnk.asking_lite {x : Lnk} (now : Nat) (h : x.mode = 1) : x.asking now = { x with retry := some now } := by
  simp [Lnk.asking, h]

theorem Lnk.asking_fec {x : Lnk} (now : Nat) (h : x.mode = 0) :
    x.asking now = { x with retry := some now, ctlq := x.ctlq ++ [resumeWord (tagOf x.expect)] } := by
  simp [Lnk.asking, h]

/-- Link l asks. -/
def askRetry (l : Nat) (s : State) : State :=
  let u := s.modLink l fun x => { x with retry := some s.now }
  if (s.link l).mode = 1 then u else ctlPut l (resumeWord (tagOf (s.link l).expect)) u

theorem link_askRetry_same (l : Nat) (s : State) : (askRetry l s).link l = (s.link l).asking s.now := by
  by_cases h : (s.link l).mode = 1 <;> simp [askRetry, Lnk.asking, ctlPut, h]

theorem linkMoves.askRetry {l : Nat} {fs : List Fld} {s t : State} (h : linkMoves l fs s t) : linkMoves l fs s (askRetry l t) := by
  unfold Machine.askRetry
  extract_lets u
  split_ifs
  · exact h.modLink _
  · exact (h.modLink _).modLink _

theorem askRetry_leaves (l : Nat) (s : State) : (askRetry l s).out = s.out ∧ (askRetry l s).evq = s.evq ∧
    ∀ f, (askRetry l s).fget f = s.fget f := by
  unfold askRetry
  extract_lets u
  split_ifs
  · exact ⟨rfl, rfl, fun _ => rfl⟩
  · exact ⟨rfl, rfl, fun _ => rfl⟩

/-- LNK_RETRY reports a count that is a power of two (R272). -/
def reportRetry (l : Nat) (tag : BitVec 16) (s : State) : State :=
  if isPow2 (s.fget (F.LNK_CNT_RETRY_COUNT l)) then
    s.raise (F.LNK_EVT_RETRY l) 9 7 [l, s.fget (F.LNK_CNT_RETRY_COUNT l), tag.toNat] else s

theorem linkDiscard_of_first {l : Nat} {s : State} (hst : (s.link l).st = .active) (hnone : (s.link l).retry = none) :
    linkDiscard l s = reportRetry l (tagOf (s.link l).expect) (askRetry l (s.count (F.LNK_CNT_RETRY_COUNT l))) := by
  simp only [linkDiscard, reportRetry, hst, hnone]
  rfl

theorem linkDiscard_of_later {l r : Nat} {s : State} (hsome : (s.link l).retry = some r) : linkDiscard l s = s := by
  simp [linkDiscard, hsome]

theorem reportRetry_leaves (l : Nat) (tag : BitVec 16) (s : State) : (reportRetry l tag s).link l = s.link l ∧
    (reportRetry l tag s).fget (F.LNK_CNT_RETRY_COUNT l) = s.fget (F.LNK_CNT_RETRY_COUNT l) ∧ (reportRetry l tag s).out = s.out ∧
    linkMoves l [F.LNK_EVT_RETRY l] s (reportRetry l tag s) := by
  unfold reportRetry
  split_ifs
  · exact ⟨State.link_raise _ _ _ _ _ _, State.fget_raise_ne _ _ _ _ (by simp), State.out_raise _ _ _ _ _,
      (linkMoves.refl l _ s).raise (by simp) 9 7 _⟩
  · exact ⟨rfl, rfl, rfl, linkMoves.refl l _ s⟩

theorem linkDiscard_asks {l : Nat} {s : State} (hst : (s.link l).st = .active) (hnone : (s.link l).retry = none) :
    (linkDiscard l s).link l = (s.link l).asking s.now ∧ counted (F.LNK_CNT_RETRY_COUNT l) s (linkDiscard l s) ∧
    (linkDiscard l s).out = s.out ∧ linkMoves l [F.LNK_CNT_RETRY_COUNT l, F.LNK_EVT_RETRY l] s (linkDiscard l s) := by
  let u := s.count (F.LNK_CNT_RETRY_COUNT l)
  have hu : linkMoves l [F.LNK_CNT_RETRY_COUNT l, F.LNK_EVT_RETRY l] s (askRetry l u) :=
    ((linkMoves.refl l _ s).count (by simp)).askRetry
  obtain ⟨houtAsk, -, hfget⟩ := askRetry_leaves l u
  obtain ⟨hlink, hcount, hout, hmoves⟩ := reportRetry_leaves l (tagOf (s.link l).expect) (askRetry l u)
  rw [linkDiscard_of_first hst hnone]
  exact ⟨hlink.trans (link_askRetry_same l u), hcount.trans ((hfget _).trans (s.fget_count_same _)), hout.trans houtAsk,
    hu.trans (hmoves.mono (by simp))⟩

/-! ### What passes its check (R239, R240, R249) -/

/-- In FEC mode the codewords that end with a superframe are counted (R270). -/
def fecCounted (l fix new : Nat) (s : State) : State :=
  (s.countBy (F.LNK_CNT_FECC_COUNT l) fix).countBy (F.LNK_CNT_FECU_COUNT l) new

theorem linkMoves_fecCounted {l : Nat} {fs : List Fld} (fix new : Nat) (s : State) (hfix : F.LNK_CNT_FECC_COUNT l ∈ fs)
    (hnew : F.LNK_CNT_FECU_COUNT l ∈ fs) : linkMoves l fs s (fecCounted l fix new s) :=
  ((linkMoves.refl l fs s).countBy hfix fix).countBy hnew new

/-- A superframe that an ACTIVE link has checked (R246 to R248): its credit, its retry request and its place in sequence. -/
def superframeTaken (l : Nat) (f : Superframe) (s : State) : State :=
  let u := s.modLink l (linkCredit f.credit)
  let t := if (s.link l).mode == 1 && f.nak then linkGoBack l f.naktag u else u
  match fullStep s.seq.step f.tag with
  | none => t
  | some v =>
    if v < (s.link l).expect then t
    else if (s.link l).expect < v then linkDiscard l (t.count (F.LNK_CNT_TAG_COUNT l))
    else if f.idle then (if (s.link l).retry.isSome then t else linkUse l v f t)
    else linkUse l v f (t.modLink l fun x => { x with
      rxq := x.rxq ++ [(v + x.slot.lat, f.payload)], expect := v + 8, retry := none })

/-- A LITE superframe as it must come in to be checked at all, on an ACTIVE link (log 60). -/
structure liteArrives (l : Nat) (f : Superframe) (s : State) : Prop where
  active : (s.link l).st = .active
  lite : (s.link l).mode = 1
  synced : f.sync = sfSync

section
variable {l fix : Nat} {f : Superframe} {ue : Option Nat} {s : State}

theorem superframeIn_of_idleLink (hup : (s.link l).st ≠ .up) (hactive : (s.link l).st ≠ .active) : superframeIn l f fix ue s = s := by
  simp [superframeIn, hup, hactive]

theorem superframeIn_of_unsynced (hlite : (s.link l).mode = 1) (hsync : f.sync ≠ sfSync) : superframeIn l f fix ue s = s := by
  simp [superframeIn, hlite, hsync]

theorem superframeIn_of_badCrc (h : liteArrives l f s) (hcrc : f.crc ≠ sfCrc f) :
    superframeIn l f fix ue s = linkDiscard l (s.count (F.LNK_CNT_CRC_COUNT l)) := by
  obtain ⟨hst, hmode, hsync⟩ := h
  simp [superframeIn, hst, hmode, hsync, hcrc]

theorem superframeIn_of_reserved (h : liteArrives l f s) (hcrc : f.crc = sfCrc f) (hctl : f.ctl.any ctlReserved = true) :
    superframeIn l f fix ue s = linkDiscard l s := by
  obtain ⟨hst, hmode, hsync⟩ := h
  simp only [superframeIn, hst, hmode, hsync, hctl, hcrc, bne_self_eq_false, Bool.and_false]
  rfl

theorem superframeIn_of_lite (h : liteArrives l f s) (hcrc : f.crc = sfCrc f) (hctl : f.ctl.any ctlReserved = false) :
    superframeIn l f fix ue s = superframeTaken l f s := by
  obtain ⟨hst, hmode, hsync⟩ := h
  simp only [superframeIn, superframeTaken, hst, hmode, hsync, hctl, hcrc, bne_self_eq_false, Bool.and_false]
  rfl

theorem superframeIn_of_uncorrectable {new : Nat} (hst : (s.link l).st = .active) (hfec : (s.link l).mode = 0) :
    superframeIn l f fix (some new) s = linkDiscard l (fecCounted l fix new s) := by
  simp [superframeIn, hst, hfec, fecCounted]

theorem superframeIn_of_fec (hst : (s.link l).st = .active) (hfec : (s.link l).mode = 0) (hctl : f.ctl.any ctlReserved = false) :
    superframeIn l f fix none s = superframeTaken l f (fecCounted l fix 0 s) := by
  simp only [superframeIn, superframeTaken, fecCounted, State.link_countBy, State.seq_countBy, hst, hfec, hctl]
  rfl

end

/-! ### A superframe that is lost (R239, R248, R249, R270) -/

theorem leads_crcLost (l fix : Nat) (f : Superframe) (ue : Option Nat) (s : State) (hst : (s.link l).st = .active)
    (hmode : (s.link l).mode = 1) (hsync : f.sync = 0xB4D2) (hcrc : f.crc ≠ sfCrc f) (hnone : (s.link l).retry = none) :
    leads (.superframeReceive l f fix ue) s fun t =>
      counted (F.LNK_CNT_CRC_COUNT l) s t ∧ counted (F.LNK_CNT_RETRY_COUNT l) s t ∧
      t.link l = { s.link l with retry := some s.now } ∧ onlyLink l s t ∧ t.out = s.out ∧
      onlyFields [F.LNK_CNT_CRC_COUNT l, F.LNK_CNT_RETRY_COUNT l, F.LNK_EVT_RETRY l] s t := by
  let u := s.count (F.LNK_CNT_CRC_COUNT l)
  obtain ⟨hlink, hcount, hout, hmoves⟩ := linkDiscard_asks (l := l) (s := u) hst hnone
  have hall : linkMoves l [F.LNK_CNT_CRC_COUNT l, F.LNK_CNT_RETRY_COUNT l, F.LNK_EVT_RETRY l] s (linkDiscard l u) :=
    ((linkMoves.refl l _ s).count (by simp)).trans (hmoves.mono (by simp))
  exact leads_of (congrArg Host.Outcome.next (superframeIn_of_badCrc ⟨hst, hmode, hsync⟩ hcrc))
    ⟨(hmoves.fields _ (by simp)).trans (s.fget_count_same _), counted_from hcount (s.fget_fset_ne _ (by simp)),
      hlink.trans (Lnk.asking_lite _ hmode), hall.link, hout, hall.fields⟩

theorem leads_crcLostAgain (l fix r : Nat) (f : Superframe) (ue : Option Nat) (s : State) (hst : (s.link l).st = .active)
    (hmode : (s.link l).mode = 1) (hsync : f.sync = 0xB4D2) (hcrc : f.crc ≠ sfCrc f) (hsome : (s.link l).retry = some r) :
    leads (.superframeReceive l f fix ue) s fun t => counted (F.LNK_CNT_CRC_COUNT l) s t ∧ t.link l = s.link l ∧ onlyLink l s t ∧
      t.out = s.out ∧ onlyFields [F.LNK_CNT_CRC_COUNT l] s t := by
  let u := s.count (F.LNK_CNT_CRC_COUNT l)
  have hmoves : linkMoves l [F.LNK_CNT_CRC_COUNT l] s u := (linkMoves.refl l _ s).count (by simp)
  have hlost : superframeIn l f fix ue s = u :=
    (superframeIn_of_badCrc ⟨hst, hmode, hsync⟩ hcrc).trans (linkDiscard_of_later (r := r) hsome)
  exact leads_of (congrArg Host.Outcome.next hlost) ⟨s.fget_count_same _, rfl, hmoves.link, rfl, hmoves.fields⟩

theorem leads_codewordLost (l fix new : Nat) (f : Superframe) (s : State) (hst : (s.link l).st = .active)
    (hmode : (s.link l).mode = 0) (hnone : (s.link l).retry = none) :
    leads (.superframeReceive l f fix (some new)) s fun t =>
      t.fget (F.LNK_CNT_FECC_COUNT l) = min (2 ^ 32 - 1) (s.fget (F.LNK_CNT_FECC_COUNT l) + fix) ∧
      t.fget (F.LNK_CNT_FECU_COUNT l) = min (2 ^ 32 - 1) (s.fget (F.LNK_CNT_FECU_COUNT l) + new) ∧
      counted (F.LNK_CNT_RETRY_COUNT l) s t ∧
      t.link l = { s.link l with
        retry := some s.now, ctlq := (s.link l).ctlq ++ [resumeWord (tagOf (s.link l).expect)] } ∧
      onlyLink l s t ∧ t.out = s.out ∧
      onlyFields [F.LNK_CNT_FECC_COUNT l, F.LNK_CNT_FECU_COUNT l, F.LNK_CNT_RETRY_COUNT l, F.LNK_EVT_RETRY l] s t := by
  let u := s.countBy (F.LNK_CNT_FECC_COUNT l) fix
  let v := fecCounted l fix new s
  obtain ⟨hlink, hcount, hout, hmoves⟩ := linkDiscard_asks (l := l) (s := v) hst hnone
  have hall : linkMoves l [F.LNK_CNT_FECC_COUNT l, F.LNK_CNT_FECU_COUNT l, F.LNK_CNT_RETRY_COUNT l, F.LNK_EVT_RETRY l] s
      (linkDiscard l v) := (linkMoves_fecCounted fix new s (by simp) (by simp)).trans (hmoves.mono (by simp))
  have hasks : (linkDiscard l v).link l = (s.link l).asking s.now := hlink
  have hfecc : v.fget (F.LNK_CNT_FECC_COUNT l) = min (2 ^ 32 - 1) (s.fget (F.LNK_CNT_FECC_COUNT l) + fix) :=
    (u.fget_countBy_ne new (by simp)).trans (s.fget_countBy_same _ fix)
  have hfecu : v.fget (F.LNK_CNT_FECU_COUNT l) = min (2 ^ 32 - 1) (s.fget (F.LNK_CNT_FECU_COUNT l) + new) := by
    rw [← s.fget_countBy_ne (f := F.LNK_CNT_FECC_COUNT l) fix (by simp)]
    exact u.fget_countBy_same _ new
  have hretry : v.fget (F.LNK_CNT_RETRY_COUNT l) = s.fget (F.LNK_CNT_RETRY_COUNT l) :=
    (u.fget_countBy_ne new (by simp)).trans (s.fget_countBy_ne fix (by simp))
  exact leads_of (congrArg Host.Outcome.next (superframeIn_of_uncorrectable hst hmode))
    ⟨(hmoves.fields _ (by simp)).trans hfecc, (hmoves.fields _ (by simp)).trans hfecu, counted_from hcount hretry,
      hasks.trans (Lnk.asking_fec _ hmode), hall.link, hout, hall.fields⟩

theorem leads_reservedLost (l fix : Nat) (f : Superframe) (ue : Option Nat) (s : State) (hst : (s.link l).st = .active)
    (hmode : (s.link l).mode = 1) (hsync : f.sync = 0xB4D2) (hcrc : f.crc = sfCrc f) (hctl : f.ctl.any ctlReserved = true)
    (hnone : (s.link l).retry = none) : leads (.superframeReceive l f fix ue) s fun t => counted (F.LNK_CNT_RETRY_COUNT l) s t ∧
      t.link l = { s.link l with retry := some s.now } ∧ onlyLink l s t ∧ t.out = s.out ∧
      onlyFields [F.LNK_CNT_RETRY_COUNT l, F.LNK_EVT_RETRY l] s t := by
  obtain ⟨hlink, hcount, hout, hmoves⟩ := linkDiscard_asks hst hnone
  exact leads_of (congrArg Host.Outcome.next (superframeIn_of_reserved ⟨hst, hmode, hsync⟩ hcrc hctl))
    ⟨hcount, hlink.trans (Lnk.asking_lite _ hmode), hmoves.link, hout, hmoves.fields⟩

/-! ### A superframe in, before and ahead of its sequence (R246 to R248, R253) -/

/-- Without cross triggers nothing reaches the matrix. -/
theorem xtDeliver_zero (l v : Nat) (s : State) : xtDeliver l v 0 s = s := by
  simp [xtDeliver, List.range_succ]

theorem linkUse_of_empty {l v : Nat} {f : Superframe} {s : State} (hctl : f.ctl = []) (hxt : f.xt = 0) : linkUse l v f s = s := by
  rw [linkUse, hctl, hxt]
  exact xtDeliver_zero l v s

/-- A superframe of the step expected next joins the receive buffer (R155, R246). -/
def superframeKept (l v : Nat) (f : Superframe) (s : State) : State :=
  (s.modLink l (linkCredit f.credit)).modLink l fun x => { x with
    rxq := x.rxq ++ [(v + x.slot.lat, f.payload)], expect := v + 8, retry := none }

section
variable {l v : Nat} {f : Superframe} {s : State} (hstep : fullStep s.seq.step f.tag = some v)
include hstep

theorem superframeTaken_of_next (hnext : v = (s.link l).expect) (hnak : ((s.link l).mode == 1 && f.nak) = false) (hctl : f.ctl = [])
    (hxt : f.xt = 0) (hidle : f.idle = false) : superframeTaken l f s = superframeKept l v f s := by
  simp [superframeTaken, hstep, hnext, hnak, hidle, linkUse_of_empty hctl hxt, superframeKept]

theorem superframeTaken_of_past (hpast : v < (s.link l).expect) (hlite : (s.link l).mode = 1) : superframeTaken l f s =
    if f.nak then linkGoBack l f.naktag (s.modLink l (linkCredit f.credit)) else s.modLink l (linkCredit f.credit) := by
  simp [superframeTaken, hstep, hpast, hlite]

theorem superframeTaken_of_ahead (hahead : (s.link l).expect < v) (hnak : f.nak = false) : superframeTaken l f s =
    linkDiscard l ((s.modLink l (linkCredit f.credit)).count (F.LNK_CNT_TAG_COUNT l)) := by
  simp [superframeTaken, hstep, hahead, hahead.not_gt, hnak]

end

theorem link_superframeKept_same (l v : Nat) (f : Superframe) (s : State) : (superframeKept l v f s).link l =
    { linkCredit f.credit (s.link l) with
      rxq := (s.link l).rxq ++ [(v + (s.link l).slot.lat, f.payload)], expect := v + 8, retry := none } := by
  simp [superframeKept, linkCredit]

/-- An expected superframe that passes its check, in either mode, up to what is counted of its codewords. -/
theorem superframeIn_of_next {l fix : Nat} {f : Superframe} {ue : Option Nat} {s : State} (hst : (s.link l).st = .active)
    (hcheck : (s.link l).mode = 1 ∧ f.sync = 0xB4D2 ∧ f.crc = sfCrc f ∧ f.nak = false ∨ (s.link l).mode = 0 ∧ ue = none)
    (hctl : f.ctl = []) (hxt : f.xt = 0) (hidle : f.idle = false) (hstep : fullStep s.seq.step f.tag = some (s.link l).expect) :
    ∃ u, superframeIn l f fix ue s = superframeKept l (s.link l).expect f u ∧ (u = s ∨ u = fecCounted l fix 0 s) := by
  have hres : f.ctl.any ctlReserved = false := by rw [hctl]; rfl
  rcases hcheck with ⟨hmode, hsync, hcrc, hnak⟩ | ⟨hmode, rfl⟩
  · exact ⟨s, (superframeIn_of_lite ⟨hst, hmode, hsync⟩ hcrc hres).trans
      (superframeTaken_of_next hstep rfl (by simp [hnak]) hctl hxt hidle), .inl rfl⟩
  · exact ⟨fecCounted l fix 0 s, (superframeIn_of_fec hst hmode hres).trans
      (superframeTaken_of_next (s := fecCounted l fix 0 s) hstep rfl (by simp [fecCounted, hmode]) hctl hxt hidle), .inr rfl⟩

theorem leads_superframeNext (l fix : Nat) (f : Superframe) (ue : Option Nat) (s : State) (hst : (s.link l).st = .active)
    (hcheck : (s.link l).mode = 1 ∧ f.sync = 0xB4D2 ∧ f.crc = sfCrc f ∧ f.nak = false ∨ (s.link l).mode = 0 ∧ ue = none)
    (hctl : f.ctl = []) (hxt : f.xt = 0) (hidle : f.idle = false) (hstep : fullStep s.seq.step f.tag = some (s.link l).expect) :
    leads (.superframeReceive l f fix ue) s fun t =>
      t.link l = { linkCredit f.credit (s.link l) with
        rxq := (s.link l).rxq ++ [((s.link l).expect + (s.link l).slot.lat, f.payload)]
        expect := (s.link l).expect + 8, retry := none } ∧
      onlyLink l s t ∧ t.out = s.out ∧ t.evq = s.evq ∧ onlyFields [F.LNK_CNT_FECC_COUNT l, F.LNK_CNT_FECU_COUNT l] s t := by
  obtain ⟨u, hin, hu⟩ := superframeIn_of_next (fix := fix) hst hcheck hctl hxt hidle hstep
  have hcounts : u.link l = s.link l ∧ u.out = s.out ∧ u.evq = s.evq ∧
      linkMoves l [F.LNK_CNT_FECC_COUNT l, F.LNK_CNT_FECU_COUNT l] s u := by
    rcases hu with rfl | rfl
    · exact ⟨rfl, rfl, rfl, linkMoves.refl l _ u⟩
    · exact ⟨rfl, rfl, rfl, linkMoves_fecCounted fix 0 s (by simp) (by simp)⟩
  obtain ⟨hlink, hout, hevq, hmoves⟩ := hcounts
  have hall : linkMoves l _ s (superframeKept l (s.link l).expect f u) := (hmoves.modLink _).modLink _
  refine leads_of (congrArg Host.Outcome.next hin) ⟨?_, hall.link, hout, hevq, hall.fields⟩
  rw [link_superframeKept_same, hlink]

theorem leads_superframePast (l fix v : Nat) (f : Superframe) (ue : Option Nat) (s : State) (hst : (s.link l).st = .active)
    (hmode : (s.link l).mode = 1) (hsync : f.sync = 0xB4D2) (hcrc : f.crc = sfCrc f) (hctl : f.ctl.any ctlReserved = false)
    (hstep : fullStep s.seq.step f.tag = some v) (hpast : v < (s.link l).expect) : leads (.superframeReceive l f fix ue) s fun t =>
      t.link l = { linkCredit f.credit (s.link l) with tx := (t.link l).tx } ∧
      sentFrames (if f.nak then ((linkCredit f.credit (s.link l)).replay.dropWhile fun e => tagOf e.1 != f.naktag).map
        fun e => (l, refreshFrame (linkCredit f.credit (s.link l)) e.2) else []) s t ∧
      onlyLink l s t ∧ t.evq = s.evq ∧ onlyFields [] s t := by
  let u := s.modLink l (linkCredit f.credit)
  have hu : linkMoves l [] s u := (linkMoves.refl l [] s).modLink _
  have hulink : u.link l = linkCredit f.credit (s.link l) := s.link_modLink_same l _
  have hsends : linkSends l (if f.nak then (u.link l).resent l f.naktag else []) u (if f.nak then linkGoBack l f.naktag u else u) := by
    split_ifs
    · exact linkSends_linkGoBack l f.naktag u
    · exact linkSends.refl l u
  obtain ⟨hmoves, hlink, hevq, hsent⟩ := hsends
  rw [hulink] at hlink hsent
  have hall := hu.trans hmoves
  exact leads_of (congrArg Host.Outcome.next ((superframeIn_of_lite ⟨hst, hmode, hsync⟩ hcrc hctl).trans
    (superframeTaken_of_past hstep hpast hmode))) ⟨hlink, hsent, hall.link, hevq, hall.fields⟩

theorem leads_superframeAhead (l fix v : Nat) (f : Superframe) (ue : Option Nat) (s : State) (hst : (s.link l).st = .active)
    (hmode : (s.link l).mode = 1) (hsync : f.sync = 0xB4D2) (hcrc : f.crc = sfCrc f) (hctl : f.ctl.any ctlReserved = false)
    (hnak : f.nak = false) (hstep : fullStep s.seq.step f.tag = some v) (hahead : (s.link l).expect < v)
    (hnone : (s.link l).retry = none) : leads (.superframeReceive l f fix ue) s fun t =>
      counted (F.LNK_CNT_TAG_COUNT l) s t ∧ counted (F.LNK_CNT_RETRY_COUNT l) s t ∧
      t.link l = { linkCredit f.credit (s.link l) with retry := some s.now } ∧ onlyLink l s t ∧ t.out = s.out ∧
      onlyFields [F.LNK_CNT_TAG_COUNT l, F.LNK_CNT_RETRY_COUNT l, F.LNK_EVT_RETRY l] s t := by
  let u := s.modLink l (linkCredit f.credit)
  let w := u.count (F.LNK_CNT_TAG_COUNT l)
  have hwlink : w.link l = linkCredit f.credit (s.link l) := s.link_modLink_same l _
  obtain ⟨hlink, hcount, hout, hmoves⟩ := linkDiscard_asks (l := l) (s := w) (by rw [hwlink]; exact hst) (by rw [hwlink]; exact hnone)
  have hall : linkMoves l [F.LNK_CNT_TAG_COUNT l, F.LNK_CNT_RETRY_COUNT l, F.LNK_EVT_RETRY l] s (linkDiscard l w) :=
    (((linkMoves.refl l _ s).modLink _).count (by simp)).trans (hmoves.mono (by simp))
  rw [hwlink] at hlink
  exact leads_of (congrArg Host.Outcome.next ((superframeIn_of_lite ⟨hst, hmode, hsync⟩ hcrc hctl).trans
      (superframeTaken_of_ahead hstep hahead hnak)))
    ⟨(hmoves.fields _ (by simp)).trans (u.fget_count_same _), counted_from hcount (u.fget_fset_ne _ (by simp)),
      hlink.trans (Lnk.asking_lite _ hmode), hall.link, hout, hall.fields⟩

/-! ### RETRY_TIMEOUT and RESUME words (R247, R248) -/

theorem retryAgain_of_asked {l r : Nat} {s : State} (hst : (s.link l).st = .active) (hsome : (s.link l).retry = some r) :
    retryAgain l s = askRetry l s :=
  if_pos (by simp [hst, hsome])

theorem retryAgain_of_other {l : Nat} {s : State} (h : (s.link l).st ≠ .active ∨ (s.link l).retry = none) : retryAgain l s = s := by
  refine if_neg ?_
  rcases h with h | h <;> simp [h]

theorem leads_retryTimeout (l r : Nat) (s : State) (hst : (s.link l).st = .active) (hsome : (s.link l).retry = some r) :
    leads (.retryTimeout l) s fun t =>
    t.link l = { s.link l with
      retry := some s.now
      ctlq := if (s.link l).mode = 1 then (s.link l).ctlq else
        (s.link l).ctlq ++ [resumeWord (tagOf (s.link l).expect)] } ∧
    onlyLink l s t ∧ t.out = s.out ∧ t.evq = s.evq ∧ onlyFields [] s t := by
  have hmoves : linkMoves l [] s (askRetry l s) := (linkMoves.refl l [] s).askRetry
  obtain ⟨hout, hevq, -⟩ := askRetry_leaves l s
  exact leads_of (congrArg Host.Outcome.next (retryAgain_of_asked hst hsome))
    ⟨link_askRetry_same l s, hmoves.link, hout, hevq, hmoves.fields⟩

theorem leads_resumeWord (l : Nat) (tag : BitVec 16) (s : State) (hst : (s.link l).st = .active) :
    leads (.resumeWordReceive l tag) s fun t =>
    sentFrames (((s.link l).replay.dropWhile fun e => tagOf e.1 != tag).map fun e => (l, refreshFrame (s.link l) e.2)) s t ∧
    t.link l = { s.link l with tx := (t.link l).tx } ∧ onlyLink l s t ∧ t.evq = s.evq ∧ onlyFields [] s t := by
  obtain ⟨hmoves, hlink, hevq, hsent⟩ := linkSends_linkGoBack l tag s
  have hword : resumeWordIn l tag s = linkGoBack l tag s := if_pos (by simp [hst])
  exact leads_of (congrArg Host.Outcome.next hword) ⟨hsent, hlink, hmoves.link, hevq, hmoves.fields⟩

theorem resumeWordIn_of_other {l : Nat} {tag : BitVec 16} {s : State} (h : (s.link l).st ≠ .active) : resumeWordIn l tag s = s :=
  if_neg (by simp [h])

/-! ### Idle superframes (R240, R242, R253) -/

theorem live_iff_mem (x : Lnk) : x.live = true ↔ x.st ∈ [LnkState.up, .active, .resume] := by
  cases h : x.st <;> simp [Lnk.live, h]

theorem linkIdle_of_live {l : Nat} {s : State} (h : (s.link l).live = true) : linkIdle l s =
    linkEmit l (linkFrame l (s.seq.step - s.seq.step % 8) true [] s).1 (linkFrame l (s.seq.step - s.seq.step % 8) true [] s).2 :=
  if_pos h

theorem linkIdle_of_other {l : Nat} {s : State} (h : (s.link l).st ∉ [LnkState.up, .active, .resume]) : linkIdle l s = s :=
  if_neg (mt (live_iff_mem _).mp h)

/-- What a superframe says of the link that sends it (R240). -/
theorem linkFrame_says (l sstep : Nat) (idle : Bool) (payload : List Val) (s : State) :
    let f := (linkFrame l sstep idle payload s).1
    f.idle = idle ∧ f.payload = payload ∧ f.ctl.length ≤ 3 ∧ f.tag = tagOf sstep ∧ f.credit = BitVec.ofNat 8 (s.link l).freed ∧
    f.xt = (if idle then (s.link l).xtAcc else (s.link l).xtStep) &&& BitVec.ofNat 4 (s.fget (F.LNK_XT_TXMASK l)) ∧
    ((s.link l).mode = 1 → f.sync = 0xB4D2 ∧ f.crc = sfCrc { f with crc := 0 }) := by
  obtain ⟨q, m, hlink⟩ := link_linkAnnounce_same l s
  have hmask : (linkAnnounce l s).fget (F.LNK_XT_TXMASK l) = s.fget (F.LNK_XT_TXMASK l) :=
    (linkAnnounce_frame (E := 0x4000) l (Fr.refl _ s) rfl).fget (by decide) _
  simp only [linkFrame, hlink, hmask]
  by_cases hmode : (s.link l).mode = 1
  · simp [hmode, sfSync]
  · simp [hmode]

/-- The words and the cross triggers that a superframe takes with it (R250, R253). -/
def Lnk.framed (x : Lnk) (idle : Bool) : Lnk :=
  { x with
    fences := x.fences.drop 3, ctlq := x.ctlq.drop (3 - min 3 x.fences.length)
    xtAcc := 0, xtStep := if idle then x.xtStep else 0 }

theorem linkFrame_snd (l sstep : Nat) (idle : Bool) (payload : List Val) (s : State) :
    (linkFrame l sstep idle payload s).2 = (linkAnnounce l s).modLink l fun x => x.framed idle := rfl

theorem linkFrame_leaves (l sstep : Nat) (idle : Bool) (payload : List Val) (s : State) :
    let t := (linkFrame l sstep idle payload s).2
    (t.link l).xtAcc = 0 ∧ t.out = s.out ∧ t.evq = s.evq ∧ linkMoves l [] s t := by
  have hann : Fr 0x4000 s (linkAnnounce l s) := linkAnnounce_frame l (Fr.refl _ s) rfl
  rw [linkFrame_snd]
  exact ⟨by simp [Lnk.framed], hann.h_out rfl, hann.h_evq rfl, ((linkMoves.refl l [] s).linkAnnounce).modLink _⟩

theorem leads_idleSuperframe (l : Nat) (s : State) (hst : (s.link l).st ∈ [LnkState.up, .active, .resume]) :
    leads (.idleSuperframeSend l) s fun t =>
    ∃ f : Superframe, sentFrames [(l, f)] s t ∧ f.idle = true ∧ f.payload = [] ∧ f.ctl.length ≤ 3 ∧
      f.tag = tagOf (s.seq.step - s.seq.step % 8) ∧ f.credit = BitVec.ofNat 8 (s.link l).freed ∧
      f.xt = (s.link l).xtAcc &&& BitVec.ofNat 4 (s.fget (F.LNK_XT_TXMASK l)) ∧
      ((s.link l).mode = 1 → f.sync = 0xB4D2 ∧ f.crc = sfCrc { f with crc := 0 }) ∧ (t.link l).xtAcc = 0 ∧ onlyLink l s t ∧
      t.evq = s.evq ∧ onlyFields [] s t := by
  obtain ⟨hidle, hpayload, hctl, htag, hcredit, hxt, hlite⟩ := linkFrame_says l (s.seq.step - s.seq.step % 8) true [] s
  obtain ⟨hacc, hout, hevq, hmoves⟩ := linkFrame_leaves l (s.seq.step - s.seq.step % 8) true [] s
  obtain ⟨gmoves, glink, gevq, gsent⟩ := linkSends_linkEmit l (linkFrame l (s.seq.step - s.seq.step % 8) true [] s).1
    (linkFrame l (s.seq.step - s.seq.step % 8) true [] s).2
  have hall := hmoves.trans gmoves
  rw [sentFrames, hout] at gsent
  exact leads_of (congrArg Host.Outcome.next (linkIdle_of_live ((live_iff_mem _).mpr hst)))
    ⟨_, gsent, hidle, hpayload, hctl, htag, hcredit, hxt, hlite, by rw [glink]; exact hacc, hall.link, gevq.trans hevq, hall.fields⟩

/-- Settles O35: `linkDiscard_asks` gives a lost superframe, `superframeTaken` one that passes its check, by its place in sequence,
`linkSends_linkGoBack` what is sent again and `linkFrame_says` an idle superframe. -/
theorem superframesInSequence : Obligations.SuperframesInSequence := by
  unfold Obligations.SuperframesInSequence
  exact ⟨fun l fix f ue s hup hactive => congrArg Host.Outcome.next (superframeIn_of_idleLink hup hactive),
    fun l fix f ue s hmode hsync => congrArg Host.Outcome.next (superframeIn_of_unsynced hmode hsync),
    leads_crcLost, leads_crcLostAgain, leads_codewordLost, leads_reservedLost, leads_superframeNext, leads_superframePast,
    leads_superframeAhead, leads_retryTimeout, fun l s h => congrArg Host.Outcome.next (retryAgain_of_other h), leads_resumeWord,
    fun l tag s h => congrArg Host.Outcome.next (resumeWordIn_of_other h), leads_idleSuperframe,
    fun l s h => congrArg Host.Outcome.next (linkIdle_of_other h), descramble_scramble⟩

end Sys2Proof.Machine
end

section
/-! Root PLLs (R557 to R559, R562, R569, R580). -/
namespace Sys2Proof.Machine

/-! ### A change of the platform block -/

/-- From s to t, besides the platform's own state, its time and events, only the fields of fs change. -/
structure platMoves (fs : List Fld) (s t : State) : Prop where
  steady : steady s t
  fields : onlyFields fs s t
  out : t.out = s.out

theorem platMoves.refl (fs : List Fld) (s : State) : platMoves fs s s := ⟨⟨rfl, rfl, rfl⟩, onlyFields.refl fs s, rfl⟩

section
variable {fs : List Fld} {s t : State}

theorem platMoves.fset {f : Fld} (h : platMoves fs s t) (hf : f ∈ fs) (v : Nat) : platMoves fs s (t.fset f v) :=
  ⟨h.steady, h.fields.fset hf v, h.out⟩

theorem platMoves.withPlt (h : platMoves fs s t) (p : Plt) : platMoves fs s { t with plt := p } := ⟨h.steady, h.fields, h.out⟩

theorem platMoves.raise {f : Fld} (h : platMoves fs s t) (hf : f ∈ fs) (src code : Nat) (payload : List Nat) :
    platMoves fs s (t.raise f src code payload) := by
  obtain ⟨⟨hseq, hclauses, hmem⟩, hfields, hout⟩ := h
  refine ⟨⟨?_, ?_, ?_⟩, hfields.raise hf src code payload, ?_⟩ <;> simpa

theorem platMoves.mono {gs : List Fld} (h : platMoves fs s t) (hsub : fs ⊆ gs) : platMoves gs s t :=
  ⟨h.steady, h.fields.mono hsub, h.out⟩

theorem platMoves.trans {u : State} (h : platMoves fs s t) (g : platMoves fs t u) : platMoves fs s u := by
  obtain ⟨⟨hseq, hclauses, hmem⟩, hfields, hout⟩ := h
  obtain ⟨⟨gseq, gclauses, gmem⟩, gfields, gout⟩ := g
  exact ⟨⟨gseq.trans hseq, gclauses.trans hclauses, gmem.trans hmem⟩, hfields.trans gfields, gout.trans hout⟩

/-- An event that follows a change of the platform block. -/
theorem platMoves.posts {f : Fld} (h : platMoves fs s t) (src code : Nat) (payload : List Nat) (hw : f.width = 1) (hevq : t.evq = s.evq)
    (htime : t.ptime = s.ptime) (hen : ∀ g ∈ fs, (evten f).key ≠ g.key) : posted f src code payload s (t.raise f src code payload) :=
  posted_raise src code payload hw hevq (congrArg Seq.step h.steady.1) htime (h.fields _ hen)

end

/-! ### The state of the roots (R557) -/

/-- The field that says whether a root is good. -/
def rootFld (r : Nat) : Fld := if r = 0 then F.PLT_STAT_ROOTA_OK else F.PLT_STAT_ROOTB_OK

theorem State.rootOk_eq (s : State) (r : Nat) : s.rootOk r = (s.fget (rootFld r) == 1) := by
  unfold State.rootOk rootFld
  split_ifs <;> rfl

theorem setRoot_eq (r : Nat) (ok : Bool) (s : State) : setRoot r ok s = s.fset (rootFld r) ok.toNat := by
  unfold setRoot rootFld
  split_ifs <;> rfl

theorem rootFld_mem (r : Nat) : rootFld r ∈ [F.PLT_STAT_ROOTA_OK, F.PLT_STAT_ROOTB_OK] := by
  unfold rootFld
  split_ifs <;> simp

/-- The other root has a field of its own. -/
theorem rootFld_ne_other (r : Nat) : (rootFld r).key ≠ (rootFld (1 - r)).key := by
  unfold rootFld
  rcases r with - | r
  · decide
  · rw [if_neg (by omega), if_pos (by omega)]
    decide

theorem State.rootOk_congr {s t : State} (h : ∀ r, t.fget (rootFld r) = s.fget (rootFld r)) (r : Nat) : t.rootOk r = s.rootOk r := by
  rw [State.rootOk_eq, State.rootOk_eq, h]

theorem rootOk_setRoot_same (r : Nat) (ok : Bool) (s : State) : (setRoot r ok s).rootOk r = ok := by
  have hwidth : (rootFld r).width = 1 := by
    unfold rootFld
    split_ifs <;> rfl
  rw [setRoot_eq, State.rootOk_eq, State.fget_fset_same, hwidth]
  cases ok <;> rfl

theorem rootOk_setRoot_ne {r q : Nat} (ok : Bool) (s : State) (h : (rootFld q).key ≠ (rootFld r).key) :
    (setRoot r ok s).rootOk q = s.rootOk q := by
  rw [setRoot_eq, State.rootOk_eq, State.rootOk_eq, State.fget_fset_ne _ _ h]

theorem platMoves.setRoot {fs : List Fld} {s t : State} (h : platMoves fs s t) (ha : F.PLT_STAT_ROOTA_OK ∈ fs)
    (hb : F.PLT_STAT_ROOTB_OK ∈ fs) (r : Nat) (ok : Bool) : platMoves fs s (setRoot r ok t) := by
  rw [setRoot_eq]
  refine h.fset ?_ _
  have hmem := rootFld_mem r
  simp only [List.mem_cons, List.not_mem_nil, or_false] at hmem
  rcases hmem with h | h <;> rw [h] <;> assumption

/-- What a change of a root leaves: everything but its field. -/
theorem registersSet_setRoot (r : Nat) (ok : Bool) (s : State) :
    registersSet [F.PLT_STAT_ROOTA_OK, F.PLT_STAT_ROOTB_OK] s (setRoot r ok s) := by
  rw [setRoot_eq]
  exact (registersSet.refl _ s).fset (rootFld_mem r) _

theorem setRoot_leaves (r : Nat) (ok : Bool) (s : State) : (setRoot r ok s).plt = s.plt ∧ (setRoot r ok s).evq = s.evq ∧
    (setRoot r ok s).ptime = s.ptime ∧ (setRoot r ok s).flash = s.flash := by
  obtain ⟨⟨m, hm⟩, -⟩ := registersSet_setRoot r ok s
  rw [hm]
  exact ⟨rfl, rfl, rfl, rfl⟩

theorem rootFld_ne_event {f : Fld} (h : f.addr ≠ 8) (hf : f.lo < 32) (r : Nat) : (rootFld r).key ≠ f.key := by
  unfold rootFld
  split_ifs <;> simp only [Fld.key, F.PLT_STAT_ROOTA_OK, F.PLT_STAT_ROOTB_OK] <;> omega

/-! ### The active root fails (R558, R559) -/

/-- STEP is held at a step boundary. -/
def clockHeld (s : State) : State := { s with plt := { s.plt with clockHold := true } }

theorem switchStart_eq (s : State) : switchStart s = (clockHeld s).fset F.PLT_STAT_SW_BUSY 1 := rfl

section
variable {kind a : Nat} {s : State} (ha : a = s.fget F.PLT_STAT_ROOT)
include ha

theorem rootPllFail_of_bad (hbad : s.rootOk a = false) : rootPllFail kind s = s := by
  simp [rootPllFail, ← ha, hbad]

theorem rootPllFail_of_last (hok : s.rootOk a = true) (hother : s.rootOk (1 - a) = false) : rootPllFail kind s =
    deviceReset .root ((setRoot a false s).raise F.PLT_EVT_PLL_FAIL 0 3 [a, kind, 0]) := by
  simp [rootPllFail, ← ha, hok, hother, rootOk_setRoot_ne false s (rootFld_ne_other a).symm]

theorem rootPllFail_of_switch (hok : s.rootOk a = true) (hother : s.rootOk (1 - a) = true)
    (hauto : s.fbit F.PLT_CTL_AUTOSW = true) : rootPllFail kind s =
      (switchStart (setRoot a false s)).raise F.PLT_EVT_PLL_FAIL 0 3 [a, kind, 1] := by
  simp [rootPllFail, ← ha, hok, hother, rootOk_setRoot_ne false s (rootFld_ne_other a).symm, hauto]

theorem rootPllFail_of_hold (hok : s.rootOk a = true) (hother : s.rootOk (1 - a) = true)
    (hauto : s.fbit F.PLT_CTL_AUTOSW = false) : rootPllFail kind s =
      (clockHeld (setRoot a false s)).raise F.PLT_EVT_PLL_FAIL 0 3 [a, kind, 0] := by
  simp [rootPllFail, ← ha, hok, hother, rootOk_setRoot_ne false s (rootFld_ne_other a).symm, hauto, clockHeld]

theorem standbyFail_of_bad (hbad : s.rootOk (1 - a) = false) : standbyFail kind s = s := by
  simp [standbyFail, ← ha, hbad]

/-- Whether the active root is good is not touched by the report on the standby. -/
theorem standbyFail_of_good (hok : s.rootOk (1 - a) = true) : standbyFail kind s =
    if s.rootOk a = true then (setRoot (1 - a) false s).raise F.PLT_EVT_PLL_FAIL 0 3 [1 - a, kind, 0]
    else deviceReset .root ((setRoot (1 - a) false s).raise F.PLT_EVT_PLL_FAIL 0 3 [1 - a, kind, 0]) := by
  have hraise : ((setRoot (1 - a) false s).raise F.PLT_EVT_PLL_FAIL 0 3 [1 - a, kind, 0]).rootOk a = s.rootOk a :=
    (State.rootOk_congr (fun r => State.fget_raise_ne _ _ _ _ (rootFld_ne_event (by decide) (by decide) r)) a).trans
      (rootOk_setRoot_ne false s (rootFld_ne_other a))
  simp [standbyFail, ← ha, hok, hraise]

end

/-- A failure of the active root that the standby survives, whatever is held, is posted, and leaves the other registers. -/
theorem pllFail_reports {a kind sw : Nat} {s w : State} (hw : platMoves [F.PLT_STAT_ROOTA_OK, F.PLT_STAT_ROOTB_OK, F.PLT_STAT_SW_BUSY] s w)
    (hevq : w.evq = s.evq) (htime : w.ptime = s.ptime) :
    let t := w.raise F.PLT_EVT_PLL_FAIL 0 3 [a, kind, sw]
    posted F.PLT_EVT_PLL_FAIL 0 3 [a, kind, sw] s t ∧ t.plt = w.plt ∧ (∀ r, t.rootOk r = w.rootOk r) ∧
    t.fget F.PLT_STAT_ROOT = s.fget F.PLT_STAT_ROOT ∧ t.fget F.PLT_STAT_SW_BUSY = w.fget F.PLT_STAT_SW_BUSY ∧
    platMoves [F.PLT_STAT_ROOTA_OK, F.PLT_STAT_ROOTB_OK, F.PLT_STAT_SW_BUSY, F.PLT_EVT_PLL_FAIL] s t :=
  ⟨hw.posts 0 3 _ rfl hevq htime (by decide), State.plt_raise _ _ _ _ _,
    State.rootOk_congr fun r => State.fget_raise_ne _ _ _ _ (rootFld_ne_event (by decide) (by decide) r),
    (State.fget_raise_ne _ _ _ _ (by decide)).trans (hw.fields _ (by decide)), State.fget_raise_ne _ _ _ _ (by decide),
    (hw.mono (by simp)).raise (by simp) 0 3 _⟩

theorem rootFld_ne_swBusy (r : Nat) : (rootFld r).key ≠ F.PLT_STAT_SW_BUSY.key := by
  unfold rootFld
  split_ifs <;> decide

theorem leads_rootPllFail (kind a : Nat) (s : State) (ha : a = s.fget F.PLT_STAT_ROOT) (hok : s.rootOk a = true)
    (hother : s.rootOk (1 - a) = true) :
    leads (.rootPllFail kind) s fun t => t.rootOk a = false ∧ t.rootOk (1 - a) = true ∧ t.plt = { s.plt with clockHold := true } ∧
      t.fget F.PLT_STAT_ROOT = a ∧ steady s t ∧ t.out = s.out ∧
      (if s.fbit F.PLT_CTL_AUTOSW = true then
        t.fget F.PLT_STAT_SW_BUSY = 1 ∧ posted F.PLT_EVT_PLL_FAIL 0 3 [a, kind, 1] s t
      else t.fget F.PLT_STAT_SW_BUSY = s.fget F.PLT_STAT_SW_BUSY ∧ posted F.PLT_EVT_PLL_FAIL 0 3 [a, kind, 0] s t) ∧
      onlyFields [F.PLT_STAT_ROOTA_OK, F.PLT_STAT_ROOTB_OK, F.PLT_STAT_SW_BUSY, F.PLT_EVT_PLL_FAIL] s t := by
  let u := clockHeld (setRoot a false s)
  obtain ⟨hplt, hevq, htime, -⟩ := setRoot_leaves a false s
  have hu : platMoves [F.PLT_STAT_ROOTA_OK, F.PLT_STAT_ROOTB_OK, F.PLT_STAT_SW_BUSY] s u :=
    ((platMoves.refl _ s).setRoot (by simp) (by simp) a false).withPlt _
  have huplt : u.plt = { s.plt with clockHold := true } := congrArg (fun p => { p with clockHold := true }) hplt
  have hroot : u.rootOk a = false := rootOk_setRoot_same a false s
  have hstandby : u.rootOk (1 - a) = true := (rootOk_setRoot_ne false s (rootFld_ne_other a).symm).trans hother
  by_cases hauto : s.fbit F.PLT_CTL_AUTOSW = true
  · obtain ⟨hpost, hp, hroots, hactive, hbusy, hall⟩ := pllFail_reports (a := a) (kind := kind) (sw := 1)
      (hu.fset (f := F.PLT_STAT_SW_BUSY) (by simp) 1) hevq htime
    have hsame : ∀ r, (u.fset F.PLT_STAT_SW_BUSY 1).rootOk r = u.rootOk r :=
      State.rootOk_congr fun r => u.fget_fset_ne 1 (rootFld_ne_swBusy r)
    simp only [if_pos hauto]
    exact leads_of (congrArg Host.Outcome.next (rootPllFail_of_switch ha hok hother hauto))
      ⟨(hroots a).trans ((hsame a).trans hroot), (hroots _).trans ((hsame _).trans hstandby), hp.trans huplt, hactive.trans ha.symm,
        hall.steady, hall.out, ⟨hbusy.trans (u.fget_fset_same _ 1), hpost⟩, hall.fields⟩
  · obtain ⟨hpost, hp, hroots, hactive, hbusy, hall⟩ := pllFail_reports (a := a) (kind := kind) (sw := 0) hu hevq htime
    have hkept : u.fget F.PLT_STAT_SW_BUSY = s.fget F.PLT_STAT_SW_BUSY :=
      (registersSet_setRoot a false s).2 _ (by decide)
    simp only [if_neg hauto]
    exact leads_of (congrArg Host.Outcome.next (rootPllFail_of_hold ha hok hother (by simpa using hauto)))
      ⟨(hroots a).trans hroot, (hroots _).trans hstandby, hp.trans huplt, hactive.trans ha.symm, hall.steady, hall.out,
        ⟨hbusy.trans hkept, hpost⟩, hall.fields⟩

/-- With no root good the device resets, after the report of the root that failed last. -/
theorem exec_lastRootFails {kind a : Nat} {c : Instr} {s : State} (ha : a = s.fget F.PLT_STAT_ROOT)
    (hc : (c = .rootPllFail kind ∧ s.rootOk a = true ∧ s.rootOk (1 - a) = false) ∨
      (c = .standbyRootFail kind ∧ s.rootOk (1 - a) = true ∧ s.rootOk a = false)) :
    ∃ r, exec c s = .next (deviceReset .root ((setRoot r false s).raise F.PLT_EVT_PLL_FAIL 0 3 [r, kind, 0])) := by
  rcases hc with ⟨rfl, hok, hother⟩ | ⟨rfl, hok, hother⟩
  · exact ⟨a, congrArg Host.Outcome.next (rootPllFail_of_last ha hok hother)⟩
  · exact ⟨1 - a, congrArg Host.Outcome.next ((standbyFail_of_good ha hok).trans (if_neg (by simp [hother])))⟩

theorem leads_lastRootFails (kind a : Nat) (c : Instr) (s : State) (ha : a = s.fget F.PLT_STAT_ROOT)
    (hc : (c = .rootPllFail kind ∧ s.rootOk a = true ∧ s.rootOk (1 - a) = false) ∨
      (c = .standbyRootFail kind ∧ s.rootOk (1 - a) = true ∧ s.rootOk a = false)) : leads c s fun t =>
      t.fget F.PLT_RSTCAUSE_CAUSE = 5 ∧ t.fget F.PLT_RSTCAUSE_COUNT = satSucc 8 (s.fget F.PLT_RSTCAUSE_COUNT) ∧
      t.mgt.boot ≠ none ∧ t.seq.st = .idle ∧ t.flash = s.flash ∧ t.out = s.out := by
  obtain ⟨r, hexec⟩ := exec_lastRootFails ha hc
  let u := (setRoot r false s).raise F.PLT_EVT_PLL_FAIL 0 3 [r, kind, 0]
  have hu : platMoves [F.PLT_STAT_ROOTA_OK, F.PLT_STAT_ROOTB_OK, F.PLT_EVT_PLL_FAIL] s u :=
    ((platMoves.refl _ s).setRoot (by simp) (by simp) r false).raise (by simp) 0 3 _
  obtain ⟨-, -, -, hsetFlash⟩ := setRoot_leaves r false s
  have huflash : u.flash = s.flash := (State.flash_raise _ _ _ _ _).trans hsetFlash
  obtain ⟨hcause, hcount⟩ := fget_deviceReset .root u
  rw [hu.fields _ (by decide)] at hcount
  obtain ⟨-, hfr⟩ := deviceReset_from .root u
  obtain ⟨hflash, -, -, -, hst, -, -, -, hout⟩ := resetBlocks_leaves hfr
  obtain ⟨-, hboot, -⟩ := deviceReset_boot .root u
  exact leads_of hexec ⟨hcause, hcount, hboot, hst, hflash.trans huflash, hout.trans hu.out⟩

/-! ### The standby root fails, and is retrained (R559) -/

theorem leads_standbyFail (kind a : Nat) (s : State) (ha : a = s.fget F.PLT_STAT_ROOT) (hok : s.rootOk a = true)
    (hother : s.rootOk (1 - a) = true) :
    leads (.standbyRootFail kind) s fun t => t.rootOk (1 - a) = false ∧ t.rootOk a = true ∧
      posted F.PLT_EVT_PLL_FAIL 0 3 [1 - a, kind, 0] s t ∧ t.plt = s.plt ∧ steady s t ∧
      onlyFields [F.PLT_STAT_ROOTA_OK, F.PLT_STAT_ROOTB_OK, F.PLT_EVT_PLL_FAIL] s t := by
  let u := setRoot (1 - a) false s
  obtain ⟨hplt, hevq, htime, -⟩ := setRoot_leaves (1 - a) false s
  have hu : ∀ fs, F.PLT_STAT_ROOTA_OK ∈ fs → F.PLT_STAT_ROOTB_OK ∈ fs → platMoves fs s u := fun fs hfa hfb =>
    (platMoves.refl fs s).setRoot hfa hfb _ _
  have hall : platMoves [F.PLT_STAT_ROOTA_OK, F.PLT_STAT_ROOTB_OK, F.PLT_EVT_PLL_FAIL] s
      (u.raise F.PLT_EVT_PLL_FAIL 0 3 [1 - a, kind, 0]) := (hu _ (by simp) (by simp)).raise (by simp) 0 3 _
  obtain ⟨hpost, hp, hroots, -⟩ := pllFail_reports (a := 1 - a) (kind := kind) (sw := 0) (hu _ (by simp) (by simp)) hevq htime
  exact leads_of (congrArg Host.Outcome.next ((standbyFail_of_good ha hother).trans (if_pos hok)))
    ⟨(hroots _).trans (rootOk_setRoot_same _ false s), (hroots _).trans ((rootOk_setRoot_ne false s (rootFld_ne_other a)).trans hok),
      hpost, hp.trans hplt, hall.steady, hall.fields⟩

theorem rootRetrain_of_other {passed : Bool} {s : State} (h : passed = false ∨ s.rootOk (1 - s.fget F.PLT_STAT_ROOT) = true) :
    rootRetrain passed s = s := by
  refine if_neg ?_
  rcases h with h | h <;> simp [h]

theorem leads_rootRetrain (b : Nat) (s : State) (hb : b = 1 - s.fget F.PLT_STAT_ROOT) (hbad : s.rootOk b = false) :
    leads (.rootRetrain true) s fun t =>
    t.rootOk b = true ∧ t.rootOk (1 - b) = s.rootOk (1 - b) ∧ steady s t ∧ t.evq = s.evq ∧
    onlyFields [F.PLT_STAT_ROOTA_OK, F.PLT_STAT_ROOTB_OK] s t := by
  have hmoves : platMoves [F.PLT_STAT_ROOTA_OK, F.PLT_STAT_ROOTB_OK] s (setRoot b true s) :=
    (platMoves.refl _ s).setRoot (by simp) (by simp) b true
  obtain ⟨-, hevq, -⟩ := setRoot_leaves b true s
  have htrained : rootRetrain true s = setRoot b true s := by simp [rootRetrain, ← hb, hbad]
  exact leads_of (congrArg Host.Outcome.next htrained) ⟨rootOk_setRoot_same b true s,
    rootOk_setRoot_ne true s (rootFld_ne_other b).symm, hmoves.steady, hevq, hmoves.fields⟩

theorem leads_rootLock (s : State) : leads .rootLock s fun t =>
    t.ptime = 0 ∧ t.ptRun = true ∧ t.rootOk 0 = true ∧ t.rootOk 1 = true ∧ t.fget F.PLT_STAT_ROOT = 0 ∧ steady s t ∧ t.evq = s.evq ∧
    onlyFields [F.PLT_STAT_ROOTA_OK, F.PLT_STAT_ROOTB_OK, F.PLT_STAT_ROOT] s t := by
  have hstart : platMoves [F.PLT_STAT_ROOTA_OK, F.PLT_STAT_ROOTB_OK, F.PLT_STAT_ROOT] s
      { s with ptime := 0, ptRun := true, plt := { s.plt with ptFrac := 0 } } := ⟨⟨rfl, rfl, rfl⟩, onlyFields.refl _ s, rfl⟩
  have hmoves : platMoves _ s (rootLock s) := ((hstart.fset (by simp) 1).fset (by simp) 1).fset (by simp) 0
  have ha : (rootLock s).fget F.PLT_STAT_ROOTA_OK = 1 :=
    (State.fget_fset_ne _ _ (by decide)).trans ((State.fget_fset_ne _ _ (by decide)).trans (State.fget_fset_same _ _ _))
  have hb : (rootLock s).fget F.PLT_STAT_ROOTB_OK = 1 := (State.fget_fset_ne _ _ (by decide)).trans (State.fget_fset_same _ _ _)
  refine leads_of rfl ⟨rfl, rfl, ?_, ?_, State.fget_fset_same _ _ 0, hmoves.steady, rfl, hmoves.fields⟩
  · rw [State.rootOk_eq]
    exact beq_iff_eq.mpr ha
  · rw [State.rootOk_eq]
    exact beq_iff_eq.mpr hb

/-! ### A switchover starts (R558) -/

theorem swreq_of_other {s : State} (h : s.rootOk (1 - s.fget F.PLT_STAT_ROOT) = false ∨ s.fbit F.PLT_STAT_SW_BUSY = true) :
    swreq s = s := by
  refine if_pos ?_
  rcases h with h | h <;> simp [h]

theorem leads_swreq (s : State) (hok : s.rootOk (1 - s.fget F.PLT_STAT_ROOT) = true) (hidle : s.fbit F.PLT_STAT_SW_BUSY = false) :
    leads .swreq s fun t =>
    t.fget F.PLT_CTL_SWREQ = 1 ∧ t.fget F.PLT_STAT_SW_BUSY = 1 ∧ t.plt = { s.plt with clockHold := true } ∧ steady s t ∧
    t.evq = s.evq ∧ onlyFields [F.PLT_CTL_SWREQ, F.PLT_STAT_SW_BUSY] s t := by
  let u := clockHeld (s.fset F.PLT_CTL_SWREQ 1)
  have hstarts : swreq s = u.fset F.PLT_STAT_SW_BUSY 1 := by
    rw [swreq, if_neg (by simp [hok, hidle]), switchStart_eq]
  have hu : platMoves [F.PLT_CTL_SWREQ, F.PLT_STAT_SW_BUSY] s u := ((platMoves.refl _ s).fset (by simp) 1).withPlt _
  have hmoves := hu.fset (f := F.PLT_STAT_SW_BUSY) (by simp) 1
  exact leads_of (congrArg Host.Outcome.next hstarts) ⟨(u.fget_fset_ne 1 (by decide)).trans (s.fget_fset_same _ 1),
    u.fget_fset_same _ 1, rfl, hmoves.steady, rfl, hmoves.fields⟩

/-! ### What waits for a boundary (R23, R562) -/

/-- The fields of a change of the operating point. -/
def oppFields : List Fld := [F.PLT_STAT_OPPACT, F.PLT_STAT_OPP_BUSY, F.PLT_EVT_OPP]

/-- From s to t the change of the operating point moves on; the time, the hold of the clock and the spread stay. -/
structure oppMoves (s t : State) : Prop where
  moves : platMoves oppFields s t
  ptime : t.ptime = s.ptime
  hold : t.plt.clockHold = s.plt.clockHold
  sscDue : t.plt.sscDue = s.plt.sscDue
  ssc : t.plt.ssc = s.plt.ssc

theorem oppMoves.refl (s : State) : oppMoves s s := ⟨platMoves.refl _ s, rfl, rfl, rfl, rfl⟩

section
variable {s t : State}

theorem oppMoves.fset {f : Fld} (h : oppMoves s t) (hf : f ∈ oppFields) (v : Nat) : oppMoves s (t.fset f v) :=
  ⟨h.moves.fset hf v, h.ptime, h.hold, h.sscDue, h.ssc⟩

theorem oppMoves.withOpp (h : oppMoves s t) (o : Option (Nat × Nat × OppStage)) (n : Option Nat) :
    oppMoves s { t with plt := { t.plt with opp := o, oppNext := n } } := ⟨h.moves.withPlt _, h.ptime, h.hold, h.sscDue, h.ssc⟩

theorem oppMoves.freqSwitch (h : oppMoves s t) (old new : Nat) : oppMoves s (freqSwitch old new t) := by
  obtain ⟨hmoves, htime, hhold, hdue, hssc⟩ := h.fset (f := F.PLT_STAT_OPPACT) (by simp [oppFields]) new
  have hraised : ∀ p : List Nat, oppMoves s ((t.fset F.PLT_STAT_OPPACT new).raise F.PLT_EVT_OPP 0 5 p) := fun p =>
    ⟨hmoves.raise (by simp [oppFields]) 0 5 p, by simpa using htime, by simpa using hhold, by simpa using hdue, by simpa using hssc⟩
  exact hraised _

theorem oppMoves.oppStart (h : oppMoves s t) (new : Nat) : oppMoves s (oppStart new t) := by
  have hbusy := h.fset (f := F.PLT_STAT_OPP_BUSY) (by simp [oppFields]) 1
  unfold Machine.oppStart
  extract_lets old s1 s2
  split_ifs
  · exact h
  · exact hbusy.withOpp _ _
  · exact hbusy.withOpp _ _
  · exact (hbusy.freqSwitch _ _).withOpp _ _

theorem oppMoves.oppDone (h : oppMoves s t) : oppMoves s (oppDone t) := by
  have hdone := (h.withOpp none none).fset (f := F.PLT_STAT_OPP_BUSY) (by simp [oppFields]) 0
  unfold Machine.oppDone
  extract_lets next s1
  cases next with
  | none => exact hdone
  | some c => exact hdone.oppStart c

end

/-- A change of spread that waited is in effect. -/
def sscTaken (s : State) : State :=
  match s.plt.sscDue with
  | some b => { s with plt := { s.plt with ssc := b, sscDue := none } }
  | none => s

theorem sscTaken_leaves (s : State) : platMoves oppFields s (sscTaken s) ∧ (sscTaken s).ptime = s.ptime ∧ (sscTaken s).evq = s.evq ∧
    (sscTaken s).plt.clockHold = s.plt.clockHold ∧ (sscTaken s).plt.opp = s.plt.opp ∧ (sscTaken s).plt.oppNext = s.plt.oppNext ∧
    (sscTaken s).plt.sscDue = none ∧ ∀ b, s.plt.sscDue = some b → (sscTaken s).plt.ssc = b := by
  unfold sscTaken
  split
  · next b hdue => exact ⟨(platMoves.refl _ s).withPlt _, rfl, rfl, rfl, rfl, rfl, rfl,
      fun c hc => Option.some.inj (hdue.symm.trans hc)⟩
  · next hdue => exact ⟨platMoves.refl _ s, rfl, rfl, rfl, rfl, rfl, hdue, fun c hc => nomatch hdue.symm.trans hc⟩

/-- A frequency that falls at the boundary; the voltage follows (R562). -/
def oppFalls (old new : Nat) (s : State) : State :=
  { freqSwitch old new s with plt := { (freqSwitch old new s).plt with opp := some (old, new, .falling) } }

theorem clockBoundary_eq (s : State) : clockBoundary s =
    match (sscTaken s).plt.opp with
    | some (old, new, .upDue) => oppDone (freqSwitch old new (sscTaken s))
    | some (old, new, .downDue) => oppFalls old new (sscTaken s)
    | _ => sscTaken s := rfl

theorem clockBoundary_of_up {s : State} {old new : Nat} (h : s.plt.opp = some (old, new, .upDue)) :
    clockBoundary s = oppDone (freqSwitch old new (sscTaken s)) := by
  obtain ⟨-, -, -, -, hopp, -⟩ := sscTaken_leaves s
  rw [clockBoundary_eq, hopp, h]

theorem clockBoundary_of_down {s : State} {old new : Nat} (h : s.plt.opp = some (old, new, .downDue)) :
    clockBoundary s = oppFalls old new (sscTaken s) := by
  obtain ⟨-, -, -, -, hopp, -⟩ := sscTaken_leaves s
  rw [clockBoundary_eq, hopp, h]

theorem clockBoundary_of_settled {s : State} (hopp : ∀ o n, s.plt.opp ≠ some (o, n, .upDue) ∧ s.plt.opp ≠ some (o, n, .downDue))
    (hssc : s.plt.sscDue = none) : clockBoundary s = s := by
  have htaken : sscTaken s = s := by simp only [sscTaken, hssc]
  rw [clockBoundary_eq, htaken]
  split
  · next o n h => exact absurd h (hopp o n).1
  · next o n h => exact absurd h (hopp o n).2
  · rfl

/-- What a boundary leaves, whichever change is due. -/
theorem oppMoves_clockBoundary (s : State) : oppMoves (sscTaken s) (clockBoundary s) := by
  rw [clockBoundary_eq]
  split
  · exact ((oppMoves.refl _).freqSwitch _ _).oppDone
  · exact ((oppMoves.refl _).freqSwitch _ _).withOpp _ _
  · exact oppMoves.refl _

theorem freqSwitch_posts (old new : Nat) (s : State) :
    posted F.PLT_EVT_OPP 0 5 ([old, new] ++ w64 s.seq.step) s (freqSwitch old new s) :=
  ((platMoves.refl [F.PLT_STAT_OPPACT] s).fset (by simp) new).posts 0 5 _ rfl rfl rfl (by decide)

/-- The operating point in effect after a boundary, with its event, as a change downward and one upward leave it. -/
theorem oppFalls_leaves {old new : Nat} (s : State) (hnew : new < 4) : (oppFalls old new s).fget F.PLT_STAT_OPPACT = new ∧
    (oppFalls old new s).plt.opp = some (old, new, .falling) ∧
    posted F.PLT_EVT_OPP 0 5 ([old, new] ++ w64 s.seq.step) s (oppFalls old new s) :=
  ⟨(fget_oppact_freqSwitch old new s).trans (Nat.mod_eq_of_lt hnew), rfl, posted_to (freqSwitch_posts old new s) rfl rfl⟩

theorem oppDone_of_last {s : State} (h : s.plt.oppNext = none) :
    oppDone s = ({ s with plt := { s.plt with opp := none, oppNext := none } } : State).fset F.PLT_STAT_OPP_BUSY 0 := by
  simp only [oppDone, h]

theorem oppRisen_leaves {old new : Nat} (s : State) (hnew : new < 4) (hnext : s.plt.oppNext = none) :
    let t := oppDone (freqSwitch old new s)
    t.fget F.PLT_STAT_OPPACT = new ∧ t.plt.opp = none ∧ t.fget F.PLT_STAT_OPP_BUSY = 0 ∧
    posted F.PLT_EVT_OPP 0 5 ([old, new] ++ w64 s.seq.step) s t := by
  let u := freqSwitch old new s
  have hulast : u.plt.oppNext = none := (congrArg Plt.oppNext (State.plt_raise _ _ _ _ _)).trans hnext
  have hact : u.fget F.PLT_STAT_OPPACT = new := (fget_oppact_freqSwitch old new s).trans (Nat.mod_eq_of_lt hnew)
  rw [oppDone_of_last hulast]
  exact ⟨(State.fget_fset_ne _ _ (by decide)).trans hact, rfl, State.fget_fset_same _ _ 0,
    posted_to (freqSwitch_posts old new s) rfl (State.fget_fset_ne _ _ (by decide))⟩

/-! ### A switchover ends (R558, R562) -/

/-- The standby is the active root: what follows at a boundary comes after. -/
def switched (s : State) : State :=
  let p := s.pick [s.ptime, s.ptime + 1, s.ptime - 1]
  let u : State := { p.2 with ptime := p.1, plt := { p.2.plt with clockHold := false } }
  ((u.fset F.PLT_STAT_ROOT (1 - s.fget F.PLT_STAT_ROOT)).fset F.PLT_STAT_SW_BUSY 0).fset F.PLT_CTL_SWREQ 0

theorem switchDone_of_idle {s : State} (h : s.fbit F.PLT_STAT_SW_BUSY = false) : switchDone s = s := if_pos (by simp [h])

theorem switchDone_of_busy {s : State} (h : s.fbit F.PLT_STAT_SW_BUSY = true) :
    switchDone s = if s.stepping then switched s else clockBoundary (switched s) := if_neg (by simp [h])

/-- The fields of a switchover. -/
def switchoverFields : List Fld := [F.PLT_STAT_ROOT, F.PLT_STAT_SW_BUSY, F.PLT_CTL_SWREQ]

theorem ptime_switched (s : State) : s.ptime - 1 ≤ (switched s).ptime ∧ (switched s).ptime ≤ s.ptime + 1 := by
  have hmem : (switched s).ptime ∈ [s.ptime, s.ptime + 1, s.ptime - 1] := pick_mem s (by simp)
  simp only [List.mem_cons, List.not_mem_nil, or_false] at hmem
  omega

theorem switched_leaves (s : State) : platMoves switchoverFields s (switched s) ∧ (switched s).evq = s.evq ∧
    (switched s).plt = { s.plt with clockHold := false } ∧ (switched s).fget F.PLT_STAT_ROOT = 1 - s.fget F.PLT_STAT_ROOT ∧
    (switched s).fget F.PLT_STAT_SW_BUSY = 0 ∧ (switched s).fget F.PLT_CTL_SWREQ = 0 := by
  let p := s.pick [s.ptime, s.ptime + 1, s.ptime - 1]
  let u : State := { p.2 with ptime := p.1, plt := { p.2.plt with clockHold := false } }
  have hu : platMoves switchoverFields s u := ⟨⟨rfl, rfl, rfl⟩, onlyFields.refl _ s, rfl⟩
  refine ⟨((hu.fset (by simp [switchoverFields]) _).fset (by simp [switchoverFields]) 0).fset (by simp [switchoverFields]) 0, rfl, rfl, ?_,
    (State.fget_fset_ne _ _ (by decide)).trans (State.fget_fset_same _ _ 0), State.fget_fset_same _ _ 0⟩
  refine (State.fget_fset_ne _ _ (by decide)).trans ((State.fget_fset_ne _ _ (by decide)).trans ((u.fget_fset_same _ _).trans ?_))
  exact Nat.mod_eq_of_lt ((Nat.sub_le _ _).trans_lt (by decide : 1 < 2 ^ 1))

end Sys2Proof.Machine
end

section
/-! Switchovers, platform time and the calibration schedule (R262, R558, R562, R569 to R572). -/
namespace Sys2Proof.Machine

/-! ### SWITCHOVER_COMPLETE (R558, R562) -/

/-- The fields of a switchover that ends at a boundary. -/
def switchoverAllFields : List Fld :=
  [F.PLT_STAT_ROOT, F.PLT_STAT_SW_BUSY, F.PLT_CTL_SWREQ, F.PLT_STAT_OPPACT, F.PLT_STAT_OPP_BUSY, F.PLT_EVT_OPP]

theorem sscTaken_switched_leaves (s : State) : platMoves switchoverAllFields s (sscTaken (switched s)) ∧
    (sscTaken (switched s)).evq = s.evq ∧ (sscTaken (switched s)).plt.clockHold = false ∧
    (sscTaken (switched s)).plt.oppNext = s.plt.oppNext ∧ (sscTaken (switched s)).plt.sscDue = none ∧
    ∀ b, s.plt.sscDue = some b → (sscTaken (switched s)).plt.ssc = b := by
  obtain ⟨hmoves, hevq, hplt, -⟩ := switched_leaves s
  obtain ⟨gmoves, -, gevq, ghold, -, gnext, gdue, gssc⟩ := sscTaken_leaves (switched s)
  rw [hplt] at ghold gnext gssc
  exact ⟨(hmoves.mono (by simp [switchoverFields, switchoverAllFields])).trans (gmoves.mono (by simp [oppFields, switchoverAllFields])),
    gevq.trans hevq, ghold, gnext, gdue, gssc⟩

/-- What a boundary at the end of a switchover leaves, whichever change is due. -/
theorem boundary_switched_leaves (s : State) : platMoves switchoverAllFields s (clockBoundary (switched s)) ∧
    (clockBoundary (switched s)).ptime = (switched s).ptime ∧ (clockBoundary (switched s)).plt.clockHold = false ∧
    (clockBoundary (switched s)).plt.sscDue = none ∧ (∀ b, s.plt.sscDue = some b → (clockBoundary (switched s)).plt.ssc = b) ∧
    ∀ f : Fld, (∀ g ∈ oppFields, f.key ≠ g.key) → (clockBoundary (switched s)).fget f = (switched s).fget f := by
  obtain ⟨hmoves, -, hhold, -, hdue, hssc⟩ := sscTaken_switched_leaves s
  obtain ⟨gmoves, gtime, -⟩ := sscTaken_leaves (switched s)
  obtain ⟨kmoves, ktime, khold, kdue, kssc⟩ := oppMoves_clockBoundary (switched s)
  exact ⟨hmoves.trans (kmoves.mono (by simp [oppFields, switchoverAllFields])), ktime.trans gtime, khold.trans hhold, kdue.trans hdue,
    fun b hb => kssc.trans (hssc b hb), (gmoves.trans kmoves).fields⟩

/-- The event of a change of frequency at the boundary carries the platform time after the switchover. -/
theorem posted_switched {o n : Nat} {s : State}
    (h : posted F.PLT_EVT_OPP 0 5 ([o, n] ++ w64 (sscTaken (switched s)).seq.step) (sscTaken (switched s)) (clockBoundary (switched s))) :
    posted F.PLT_EVT_OPP 0 5 ([o, n] ++ w64 s.seq.step) { s with ptime := (clockBoundary (switched s)).ptime }
      (clockBoundary (switched s)) := by
  obtain ⟨hmoves, hevq, -⟩ := sscTaken_switched_leaves s
  have hstep : (sscTaken (switched s)).seq.step = s.seq.step := congrArg Seq.step hmoves.steady.1
  obtain ⟨-, ktime, -⟩ := oppMoves_clockBoundary (switched s)
  rw [hstep] at h
  exact posted_from h hevq (hmoves.fields _ (by decide)) hstep ktime.symm

theorem boundary_switched_down {o n : Nat} {s : State} (hn : n < 4) (hopp : s.plt.opp = some (o, n, .downDue)) :
    (clockBoundary (switched s)).fget F.PLT_STAT_OPPACT = n ∧ (clockBoundary (switched s)).plt.opp = some (o, n, .falling) ∧
    posted F.PLT_EVT_OPP 0 5 ([o, n] ++ w64 s.seq.step) { s with ptime := (clockBoundary (switched s)).ptime }
      (clockBoundary (switched s)) := by
  obtain ⟨-, -, hplt, -⟩ := switched_leaves s
  have hdown : clockBoundary (switched s) = oppFalls o n (sscTaken (switched s)) := clockBoundary_of_down (by rw [hplt]; exact hopp)
  obtain ⟨hact, hstage, hpost⟩ := oppFalls_leaves (old := o) (sscTaken (switched s)) hn
  rw [← hdown] at hact hstage hpost
  exact ⟨hact, hstage, posted_switched hpost⟩

theorem boundary_switched_up {o n : Nat} {s : State} (hn : n < 4) (hopp : s.plt.opp = some (o, n, .upDue))
    (hnext : s.plt.oppNext = none) : (clockBoundary (switched s)).fget F.PLT_STAT_OPPACT = n ∧
    (clockBoundary (switched s)).plt.opp = none ∧ (clockBoundary (switched s)).fget F.PLT_STAT_OPP_BUSY = 0 ∧
    posted F.PLT_EVT_OPP 0 5 ([o, n] ++ w64 s.seq.step) { s with ptime := (clockBoundary (switched s)).ptime }
      (clockBoundary (switched s)) := by
  obtain ⟨-, -, hplt, -⟩ := switched_leaves s
  obtain ⟨-, -, -, hlast, -⟩ := sscTaken_switched_leaves s
  have hup : clockBoundary (switched s) = oppDone (freqSwitch o n (sscTaken (switched s))) :=
    clockBoundary_of_up (by rw [hplt]; exact hopp)
  obtain ⟨hact, hstage, hbusy, hpost⟩ := oppRisen_leaves (old := o) (sscTaken (switched s)) hn (hlast.trans hnext)
  rw [← hup] at hact hstage hbusy hpost
  exact ⟨hact, hstage, hbusy, posted_switched hpost⟩

theorem leads_switchover (s : State) (hbusy : s.fbit F.PLT_STAT_SW_BUSY = true) : leads .switchoverComplete s fun t =>
    t.fget F.PLT_STAT_ROOT = 1 - s.fget F.PLT_STAT_ROOT ∧ t.fget F.PLT_STAT_SW_BUSY = 0 ∧ t.fget F.PLT_CTL_SWREQ = 0 ∧
    t.plt.clockHold = false ∧ s.ptime - 1 ≤ t.ptime ∧ t.ptime ≤ s.ptime + 1 ∧ steady s t ∧
    onlyFields [F.PLT_STAT_ROOT, F.PLT_STAT_SW_BUSY, F.PLT_CTL_SWREQ, F.PLT_STAT_OPPACT, F.PLT_STAT_OPP_BUSY,
      F.PLT_EVT_OPP] s t ∧
    (s.stepping = true ∨ ((∀ o n, s.plt.opp ≠ some (o, n, .upDue) ∧ s.plt.opp ≠ some (o, n, .downDue)) ∧ s.plt.sscDue = none) →
      t.plt = { s.plt with clockHold := false } ∧ t.evq = s.evq ∧
      onlyFields [F.PLT_STAT_ROOT, F.PLT_STAT_SW_BUSY, F.PLT_CTL_SWREQ] s t) ∧
    (s.stepping = false → t.plt.sscDue = none ∧ (∀ b, s.plt.sscDue = some b → t.plt.ssc = b) ∧
      (∀ o n, n < 4 → s.plt.opp = some (o, n, .downDue) → t.fget F.PLT_STAT_OPPACT = n ∧ t.plt.opp = some (o, n, .falling) ∧
        posted F.PLT_EVT_OPP 0 5 ([o, n] ++ w64 s.seq.step) { s with ptime := t.ptime } t) ∧
      (∀ o n, n < 4 → s.plt.opp = some (o, n, .upDue) → s.plt.oppNext = none → t.fget F.PLT_STAT_OPPACT = n ∧ t.plt.opp = none ∧
        t.fget F.PLT_STAT_OPP_BUSY = 0 ∧ posted F.PLT_EVT_OPP 0 5 ([o, n] ++ w64 s.seq.step) { s with ptime := t.ptime } t)) := by
  obtain ⟨hmoves, hevq, hplt, hroot, hsw, hreq⟩ := switched_leaves s
  obtain ⟨hlow, hhigh⟩ := ptime_switched s
  cases hstep : s.stepping
  · have hdone : switchDone s = clockBoundary (switched s) := (switchDone_of_busy hbusy).trans (if_neg (by simp [hstep]))
    obtain ⟨gmoves, gtime, ghold, gdue, gssc, gfget⟩ := boundary_switched_leaves s
    refine leads_of (congrArg Host.Outcome.next hdone) ⟨(gfget _ (by decide)).trans hroot, (gfget _ (by decide)).trans hsw,
      (gfget _ (by decide)).trans hreq, ghold, gtime ▸ hlow, gtime ▸ hhigh, gmoves.steady, gmoves.fields, ?_,
      fun _ => ⟨gdue, gssc, fun o n hn hopp => boundary_switched_down hn hopp,
        fun o n hn hopp hnext => boundary_switched_up hn hopp hnext⟩⟩
    rintro (h | ⟨hopp, hssc⟩)
    · exact nomatch h
    · have hsettled : clockBoundary (switched s) = switched s :=
        clockBoundary_of_settled (by rw [hplt]; exact hopp) (by rw [hplt]; exact hssc)
      rw [hsettled]
      exact ⟨hplt, hevq, hmoves.fields⟩
  · have hdone : switchDone s = switched s := (switchDone_of_busy hbusy).trans (if_pos hstep)
    exact leads_of (congrArg Host.Outcome.next hdone) ⟨hroot, hsw, hreq, by rw [hplt], hlow, hhigh, hmoves.steady,
      hmoves.fields.mono (by simp [switchoverFields]), fun _ => ⟨hplt, hevq, hmoves.fields⟩, fun h => nomatch h⟩

/-! ### Platform time (R569 to R571) -/

/-- PTNEXT is in the counter, and is what the next edge is measured against. -/
def ppsLoaded (s : State) : State :=
  ({ s with ptime := s.plt.ptNext, plt := { s.plt with ppsLast := some s.plt.ptNext, streak := 0 } } : State).fset F.PLT_PTCTL_LOAD 0

theorem ppsEdge_of_load {s : State} (h : s.fbit F.PLT_PTCTL_LOAD = true) : ppsEdge s =
    (ppsLoaded s).raise F.PLT_EVT_PPS 0 6 [2, int32 ((s.plt.ptNext : Int) - (s.ptime : Int))] := if_pos h

theorem ppsEdge_of_free {s : State} (hload : s.fbit F.PLT_PTCTL_LOAD = false) (hmode : s.fget F.PLT_PTCTL_MODE ≠ 1) : ppsEdge s = s := by
  simp [ppsEdge, hload, hmode]

theorem ppsEdge_of_first {s : State} (hload : s.fbit F.PLT_PTCTL_LOAD = false) (hmode : s.fget F.PLT_PTCTL_MODE = 1)
    (hlast : s.plt.ppsLast = none) : ppsEdge s = { s with plt := { s.plt with ppsLast := some s.ptime } } := by
  simp [ppsEdge, hload, hmode, hlast]

/-- The error of an edge is measured, and the counter slews by a rate that the manual does not give (R570). -/
def ppsMeasured (v n : Nat) (err : Int) (s : State) : State :=
  { s.freshNat.2 with plt := { s.plt with
    ptErr := err, corr := (s.freshNat.1 % 200001 : Nat) - (100000 : Int), ppsLast := some (v + 1000000000), streak := n
    edges := if s.fbit F.PLT_STAT_PPS_LOCK then s.plt.edges + 1 else 0 } }

theorem ppsEdge_of_edge {v n : Nat} {err : Int} {s : State} (hload : s.fbit F.PLT_PTCTL_LOAD = false)
    (hmode : s.fget F.PLT_PTCTL_MODE = 1) (hlast : s.plt.ppsLast = some v) (herr : err = (s.ptime : Int) - ((v : Int) + 1000000000))
    (hn : n = if -2 ≤ err ∧ err ≤ 2 then min 10 (s.plt.streak + 1) else 0) : ppsEdge s =
      if n = 10 ∧ s.fbit F.PLT_STAT_PPS_LOCK = false then
        ((ppsMeasured v n err s).fset F.PLT_STAT_PPS_LOCK 1).raise F.PLT_EVT_PPS 0 6 [0, int32 err]
      else ppsMeasured v n err s := by
  have hcast : err = (s.ptime : Int) - ((v + 1000000000 : Nat) : Int) := herr
  simp only [ppsEdge, hload, hmode, hlast, ← hcast, ← hn, Bool.not_eq_true]
  rfl

theorem leads_ppsLoads (s : State) (h : s.fbit F.PLT_PTCTL_LOAD = true) : leads .ppsEdge s fun t => t.ptime = s.plt.ptNext ∧
    t.fget F.PLT_PTCTL_LOAD = 0 ∧ t.plt.ppsLast = some s.plt.ptNext ∧ t.fget F.PLT_EVT_PPS = 1 ∧
    (s.fbit (evten F.PLT_EVT_PPS) = true → ∃ e, t.evq = s.evq ++ [e] ∧ e.src = 0 ∧ e.code = 6 ∧ e.time = s.plt.ptNext ∧
      e.payload = [2, int32 ((s.plt.ptNext : Int) - (s.ptime : Int))]) ∧ steady s t ∧
    onlyFields [F.PLT_PTCTL_LOAD, F.PLT_EVT_PPS] s t := by
  let u : State := { s with ptime := s.plt.ptNext }
  have hu : ∀ fs, F.PLT_PTCTL_LOAD ∈ fs → platMoves fs u (ppsLoaded s) := fun fs hf => ((platMoves.refl fs u).withPlt _).fset hf 0
  have hall : platMoves [F.PLT_PTCTL_LOAD, F.PLT_EVT_PPS] u _ := (hu _ (by simp)).raise (f := F.PLT_EVT_PPS) (by simp) 0 6
    [2, int32 ((s.plt.ptNext : Int) - (s.ptime : Int))]
  obtain ⟨hevt, hevq⟩ := (hu [F.PLT_PTCTL_LOAD] (by simp)).posts (f := F.PLT_EVT_PPS) 0 6
    [2, int32 ((s.plt.ptNext : Int) - (s.ptime : Int))] rfl rfl rfl (by decide)
  refine leads_of (congrArg Host.Outcome.next (ppsEdge_of_load h)) ⟨State.ptime_raise _ _ _ _ _,
    (State.fget_raise_ne _ _ _ _ (by decide)).trans (State.fget_fset_same _ _ 0), congrArg Plt.ppsLast (State.plt_raise _ _ _ _ _), hevt,
    fun hen => ⟨_, hevq.trans (congrArg (s.evq ++ ·) (if_pos hen)), rfl, rfl, rfl, rfl⟩, hall.steady, hall.fields⟩

theorem leads_ppsFirst (s : State) (hload : s.fbit F.PLT_PTCTL_LOAD = false) (hmode : s.fget F.PLT_PTCTL_MODE = 1)
    (hlast : s.plt.ppsLast = none) : leads .ppsEdge s fun t => t.plt = { s.plt with ppsLast := some s.ptime } ∧ t.ptime = s.ptime ∧
      steady s t ∧ t.evq = s.evq ∧ onlyFields [] s t := by
  have hmoves := (platMoves.refl [] s).withPlt { s.plt with ppsLast := some s.ptime }
  exact leads_of (congrArg Host.Outcome.next (ppsEdge_of_first hload hmode hlast)) ⟨rfl, rfl, hmoves.steady, rfl, hmoves.fields⟩

theorem leads_ppsEdge (v n : Nat) (err : Int) (s : State) (hload : s.fbit F.PLT_PTCTL_LOAD = false)
    (hmode : s.fget F.PLT_PTCTL_MODE = 1) (hlast : s.plt.ppsLast = some v) (herr : err = (s.ptime : Int) - ((v : Int) + 1000000000))
    (hn : n = if -2 ≤ err ∧ err ≤ 2 then min 10 (s.plt.streak + 1) else 0) : leads .ppsEdge s fun t =>
      t.plt.ptErr = err ∧ t.plt.streak = n ∧ t.plt.ppsLast = some (v + 1000000000) ∧ -100000 ≤ t.plt.corr ∧
      t.plt.corr ≤ 100000 ∧ t.ptime = s.ptime ∧
      (if n = 10 ∧ s.fbit F.PLT_STAT_PPS_LOCK = false then
        t.fget F.PLT_STAT_PPS_LOCK = 1 ∧ posted F.PLT_EVT_PPS 0 6 [0, int32 err] s t
      else t.evq = s.evq ∧ onlyFields [] s t) ∧ steady s t ∧ onlyFields [F.PLT_STAT_PPS_LOCK, F.PLT_EVT_PPS] s t := by
  let u := ppsMeasured v n err s
  have hu : ∀ fs, platMoves fs s u := fun fs => ⟨⟨rfl, rfl, rfl⟩, onlyFields.refl fs s, rfl⟩
  have hlow : -100000 ≤ u.plt.corr := by
    show -100000 ≤ ((s.freshNat.1 % 200001 : Nat) : Int) - 100000
    omega
  have hhigh : u.plt.corr ≤ 100000 := by
    show ((s.freshNat.1 % 200001 : Nat) : Int) - 100000 ≤ 100000
    omega
  have hedge := ppsEdge_of_edge hload hmode hlast herr hn
  by_cases hlock : n = 10 ∧ s.fbit F.PLT_STAT_PPS_LOCK = false
  · have hset : ∀ fs, F.PLT_STAT_PPS_LOCK ∈ fs → platMoves fs s (u.fset F.PLT_STAT_PPS_LOCK 1) := fun fs hf => (hu fs).fset hf 1
    have hall : platMoves [F.PLT_STAT_PPS_LOCK, F.PLT_EVT_PPS] s _ :=
      (hset _ (by simp)).raise (f := F.PLT_EVT_PPS) (by simp) 0 6 [0, int32 err]
    have hplt : ((u.fset F.PLT_STAT_PPS_LOCK 1).raise F.PLT_EVT_PPS 0 6 [0, int32 err]).plt = u.plt := State.plt_raise _ _ _ _ _
    simp only [if_pos hlock]
    exact leads_of (congrArg Host.Outcome.next (hedge.trans (if_pos hlock))) ⟨by rw [hplt]; rfl, by rw [hplt]; rfl, by rw [hplt]; rfl,
      hplt ▸ hlow, hplt ▸ hhigh, State.ptime_raise _ _ _ _ _, ⟨(State.fget_raise_ne _ _ _ _ (by decide)).trans (u.fget_fset_same _ 1),
      (hset [F.PLT_STAT_PPS_LOCK] (by simp)).posts 0 6 _ rfl rfl rfl (by decide)⟩, hall.steady, hall.fields⟩
  · simp only [if_neg hlock]
    exact leads_of (congrArg Host.Outcome.next (hedge.trans (if_neg hlock))) ⟨rfl, rfl, rfl, hlow, hhigh, rfl, ⟨rfl, (hu []).fields⟩,
      (hu []).steady, (hu _).fields⟩

theorem leads_ppsMissing (s : State) (hmode : s.fget F.PLT_PTCTL_MODE = 1) : leads .ppsMissing s fun t =>
    t.fget F.PLT_STAT_PPS_LOCK = 0 ∧ t.plt = { s.plt with streak := 0, corr := 0, ppsLast := none, edges := 0 } ∧
    posted F.PLT_EVT_PPS 0 6 [1, int32 s.plt.ptErr] s t ∧ t.ptime = s.ptime ∧ steady s t ∧
    onlyFields [F.PLT_STAT_PPS_LOCK, F.PLT_EVT_PPS] s t := by
  let u : State := { s with plt := { s.plt with streak := 0, corr := 0, ppsLast := none, edges := 0 } }
  have hset : ∀ fs, F.PLT_STAT_PPS_LOCK ∈ fs → platMoves fs s (u.fset F.PLT_STAT_PPS_LOCK 0) := fun fs hf =>
    ((platMoves.refl fs s).withPlt _).fset hf 0
  have hmissing : ppsMissing s = (u.fset F.PLT_STAT_PPS_LOCK 0).raise F.PLT_EVT_PPS 0 6 [1, int32 s.plt.ptErr] :=
    if_neg (not_not_intro hmode)
  have hall : platMoves [F.PLT_STAT_PPS_LOCK, F.PLT_EVT_PPS] s _ :=
    (hset _ (by simp)).raise (f := F.PLT_EVT_PPS) (by simp) 0 6 [1, int32 s.plt.ptErr]
  exact leads_of (congrArg Host.Outcome.next hmissing) ⟨(State.fget_raise_ne _ _ _ _ (by decide)).trans (u.fget_fset_same _ 0),
    State.plt_raise _ _ _ _ _, (hset [F.PLT_STAT_PPS_LOCK] (by simp)).posts 0 6 _ rfl rfl rfl (by decide), State.ptime_raise _ _ _ _ _,
    hall.steady, hall.fields⟩

/-! ### Slices of the memory (R222, R572) -/

theorem maskBits_single {k : Nat} (h : k < 4) : maskBits 4 (2 ^ k) = [k] := by
  interval_cases k <;> rfl

theorem calNew_single {k : Nat} {s : State} (h : k < 4) (hidle : s.fget F.MEM_STAT_CAL_BUSY = 0) : s.calNew (2 ^ k) = 2 ^ k := by
  have hlt : 2 ^ k < 2 ^ 4 := Nat.pow_lt_pow_right (by decide) h
  have hmask := calNew_of_idle (BitVec.ofNat 4 (2 ^ k)) hidle
  rwa [BitVec.toNat_ofNat, Nat.mod_eq_of_lt hlt] at hmask

/-- A slice of an idle scheduler: its stack is busy, and the temperature of the stack is kept. -/
theorem calSlice_starts {k : Nat} {s : State} (h : k < 4) (hidle : s.fget F.MEM_STAT_CAL_BUSY = 0) :
    (calSlice k s).fget F.MEM_STAT_CAL_BUSY = 2 ^ k ∧ kvGet 0 (calSlice k s).plt.calTemp k = s.fget (htempFld k) ∧
    (calSlice k s).plt.calNext = s.plt.calNext ∧ (calSlice k s).evq = s.evq ∧ platMoves [F.MEM_STAT_CAL_BUSY] s (calSlice k s) := by
  have hlt : 2 ^ k < 2 ^ 4 := Nat.pow_lt_pow_right (by decide) h
  have hstart : calSlice k s = (calNoted (2 ^ k) s).fset F.MEM_STAT_CAL_BUSY (s.fget F.MEM_STAT_CAL_BUSY + s.calNew (2 ^ k)) :=
    if_neg (not_not_intro hidle)
  rw [calNew_single h hidle, hidle, Nat.zero_add] at hstart
  rw [hstart]
  refine ⟨(State.fget_fset_same _ _ _).trans (Nat.mod_eq_of_lt hlt), ?_, rfl, rfl, ((platMoves.refl _ s).withPlt _).fset (by simp) _⟩
  show kvGet 0 (calNoted (2 ^ k) s).plt.calTemp k = _
  simp [calNoted, calNew_single h hidle, maskBits_single h, kvGet_kvSet]

theorem leads_calInterval (s : State) (hdefer : s.calDeferred = false) (hon : s.fget F.PLT_CAL_HBMMS ≠ 0)
    (hidle : s.fget F.MEM_STAT_CAL_BUSY = 0) (hnext : s.plt.calNext < 4) :
    leads (.calSchedule .hbmInterval) s fun t => t.fget F.MEM_STAT_CAL_BUSY = 2 ^ s.plt.calNext ∧
      t.plt.calNext = (s.plt.calNext + 1) % 4 ∧ kvGet 0 t.plt.calTemp s.plt.calNext = s.fget (htempFld s.plt.calNext) ∧
      steady s t ∧ t.evq = s.evq ∧ onlyFields [F.MEM_STAT_CAL_BUSY] s t := by
  let u : State := { s with plt := { s.plt with calNext := (s.plt.calNext + 1) % 4 } }
  have hrequest : calSchedule .hbmInterval s = calSlice s.plt.calNext u := by simp [calSchedule, hdefer, hon, u]
  obtain ⟨hbusy, htemp, hstack, hevq, hmoves⟩ := calSlice_starts (s := u) hnext hidle
  have hall := ((platMoves.refl [F.MEM_STAT_CAL_BUSY] s).withPlt u.plt).trans hmoves
  exact leads_of (congrArg Host.Outcome.next hrequest) ⟨hbusy, hstack, htemp, hall.steady, hevq, hall.fields⟩

theorem leads_calTemp (k : Nat) (s : State) (hk : k < 4) (hdefer : s.calDeferred = false) (hmoved : s.tempMoved k = true)
    (hidle : s.fget F.MEM_STAT_CAL_BUSY = 0) : leads (.calSchedule (.hbmTemp k)) s fun t => t.fget F.MEM_STAT_CAL_BUSY = 2 ^ k ∧
      kvGet 0 t.plt.calTemp k = s.fget (htempFld k) ∧ t.plt.calNext = s.plt.calNext ∧ steady s t ∧ t.evq = s.evq ∧
      onlyFields [F.MEM_STAT_CAL_BUSY] s t := by
  have hrequest : calSchedule (.hbmTemp k) s = calSlice k s := by simp [calSchedule, hdefer, hmoved]
  obtain ⟨hbusy, htemp, hstack, hevq, hmoves⟩ := calSlice_starts hk hidle
  exact leads_of (congrArg Host.Outcome.next hrequest) ⟨hbusy, htemp, hstack, hmoves.steady, hevq, hmoves.fields⟩

/-! ### Rotations of the spare lane (R262, R572) -/

/-- The sparing action of a rotation is marked as the scheduler's. -/
def rotationSent (l lane : Nat) (s : State) : State :=
  (sparingSent l lane false false (laneWord 1 lane) s).modLink l fun x =>
    { x with sparing := x.sparing.map fun (a : Sparing) => { a with cal := true } }

theorem rotationSent_leaves (l lane : Nat) (s : State) :
    (rotationSent l lane s).evq = (sparingSent l lane false false (laneWord 1 lane) s).evq ∧
    ∀ f, (rotationSent l lane s).fget f = (sparingSent l lane false false (laneWord 1 lane) s).fget f :=
  ⟨State.evq_modLink _ _ _, State.fget_modLink _ _ _⟩

/-- The links whose spare lane rotates. -/
def State.rotating (s : State) : List Nat := (List.range 32).filter fun k => ((s.link k).sparing.map (·.cal)).getD false

theorem rotate_of_granted {l lane : Nat} {s : State} (hst : (s.link l).st = .up ∨ (s.link l).st = .active)
    (hok : s.fbit (F.LNK_STAT_SPARE_OK l) = true) (hfew : s.rotating.length < 4) (hlane : lane = (s.spareLane l + 1) % 3)
    (hgrant : s.sparingRefusal l lane = none) : rotate l s = rotationSent l lane s := by
  have hstb : ((s.link l).st == .up || (s.link l).st == .active) = true := by rcases hst with h | h <;> simp [h]
  have hfewb : decide (((List.range 32).filter fun k => ((s.link k).sparing.map (·.cal)).getD false).length < 4) = true :=
    decide_eq_true hfew
  simp only [rotate, ← hlane, hstb, hok, hfewb, hgrant]
  rfl

theorem leads_rotation (l lane : Nat) (s : State) (hdefer : s.calDeferred = false) (hon : s.fget F.PLT_CAL_LNKMS ≠ 0)
    (hst : (s.link l).st = .up ∨ (s.link l).st = .active) (hok : s.fbit (F.LNK_STAT_SPARE_OK l) = true)
    (hfree : (s.link l).sparing = none)
    (hfew : ((List.range 32).filter fun k => ((s.link k).sparing.map (·.cal)).getD false).length < 4) (_ : s.spareLane l < 3)
    (hlane : lane = (s.spareLane l + 1) % 3) : leads (.calSchedule (.linkRotation l)) s fun t =>
      t.link l = { s.link l with
        sparing := some { lane := lane, byGo := false, accepted := false, since := s.now, cal := true }
        ctlq := (s.link l).ctlq ++ [laneWord 1 lane] } ∧
      onlyLink l s t ∧ t.fget (F.LNK_STAT_SPARE_BUSY l) = 1 ∧ t.evq = s.evq ∧ onlyFields [F.LNK_STAT_SPARE_BUSY l] s t := by
  have hother : lane ≤ 2 ∧ lane ≠ s.fget (F.LNK_STAT_SPARE l) := by
    rw [State.spareLane] at hlane
    omega
  have hgrant : s.sparingRefusal l lane = none :=
    State.sparingRefusal_of_granted (by simpa using hst) hfree hother.1 hother.2 hok
  have hrequest : calSchedule (.linkRotation l) s = rotationSent l lane s := by
    rw [← rotate_of_granted hst hok hfew hlane hgrant]
    simp [calSchedule, hdefer, hon]
  obtain ⟨hbusy, hlink, hmoves, hevq⟩ := sparingSent_begins (lane := lane) (byGo := false) (accepted := false) (w := laneWord 1 lane)
    (fs := [F.LNK_STAT_SPARE_BUSY l]) (linkMoves.refl l _ s) rfl rfl rfl (by simp)
  have hall : linkMoves l [F.LNK_STAT_SPARE_BUSY l] s (rotationSent l lane s) := hmoves.modLink _
  obtain ⟨gevq, gfget⟩ := rotationSent_leaves l lane s
  refine leads_of (congrArg Host.Outcome.next hrequest) ⟨?_, hall.link, (gfget _).trans hbusy, gevq.trans hevq, hall.fields⟩
  rw [rotationSent, State.link_modLink_same, hlink]
  rfl

/-! ### The statement -/

theorem calSchedule_of_other {kind : CalKind} {s : State}
    (h : s.calDeferred = true ∨ (kind = .hbmInterval ∧ s.fget F.PLT_CAL_HBMMS = 0) ∨
      (∃ k, kind = .hbmTemp k ∧ s.tempMoved k = false) ∨ (∃ l, kind = .linkRotation l ∧ s.fget F.PLT_CAL_LNKMS = 0)) :
    calSchedule kind s = s := by
  rcases h with h | ⟨rfl, h⟩ | ⟨k, rfl, h⟩ | ⟨l, rfl, h⟩ <;> simp [calSchedule, h]

theorem leads_ppsLoad (s : State) : leads .ppsLoad s fun t => t.fget F.PLT_PTCTL_LOAD = 1 ∧ t.plt = s.plt ∧ t.ptime = s.ptime ∧
    steady s t ∧ t.evq = s.evq ∧ onlyFields [F.PLT_PTCTL_LOAD] s t :=
  have hmoves : platMoves [F.PLT_PTCTL_LOAD] s (s.fset F.PLT_PTCTL_LOAD 1) := (platMoves.refl _ s).fset (by simp) 1
  leads_of rfl ⟨s.fget_fset_same _ 1, rfl, rfl, hmoves.steady, rfl, hmoves.fields⟩

/-- Settles O58: `pllFail_reports` and `deviceReset_from` give the failures of the roots, `switched` and `clockBoundary_eq` the end of a
switchover, `ppsLoaded` and `ppsMeasured` the edges, `calSlice_starts` and `rotationSent` what the scheduler requests. -/
theorem rootsAndTime : Obligations.RootsAndTime := by
  unfold Obligations.RootsAndTime
  exact ⟨fun kind s h => congrArg Host.Outcome.next (rootPllFail_of_bad rfl h), leads_rootPllFail, leads_lastRootFails,
    fun kind s h => congrArg Host.Outcome.next (standbyFail_of_bad rfl h), leads_standbyFail,
    fun s h => congrArg Host.Outcome.next (swreq_of_other h), leads_swreq,
    fun s h => congrArg Host.Outcome.next (switchDone_of_idle h), leads_switchover,
    fun passed s h => congrArg Host.Outcome.next (rootRetrain_of_other h), leads_rootRetrain, leads_rootLock, leads_ppsLoad,
    fun s hload hmode => congrArg Host.Outcome.next (ppsEdge_of_free hload hmode), leads_ppsLoads, leads_ppsFirst, leads_ppsEdge,
    fun s h => congrArg Host.Outcome.next (if_pos h), leads_ppsMissing,
    fun kind s h => congrArg Host.Outcome.next (calSchedule_of_other h), leads_calInterval, leads_calTemp, leads_rotation⟩

end Sys2Proof.Machine
end

section
/-! The words of a service's response item (R527, R528), and the refutation of O50 at what INFO answers (R527). -/
namespace Sys2Proof.Machine

/-! ### The response item (R527, R528) -/

/-- A word of an item that is put reads as the number put, cut to 32 bits. -/
theorem fieldOf_putBits_word {k : Nat} (w v : Nat) (hk : k < 3) :
    fieldOf (BitVec.ofNat 128 (putBits w (32 + 32 * k) 32 v)) (32 + 32 * k) 32 = v % 2 ^ 32 := by
  simp only [fieldOf, BitVec.toNat_ofNat, nbits, putBits, Nat.shiftRight_eq_div_pow]
  interval_cases k <;> omega

/-- A word of an item keeps its value as a later word is put. -/
theorem fieldOf_putBits_later {k m : Nat} (w v : Nat) (hkm : k < m) (hm : m < 3) :
    fieldOf (BitVec.ofNat 128 (putBits w (32 + 32 * m) 32 v)) (32 + 32 * k) 32 = fieldOf (BitVec.ofNat 128 w) (32 + 32 * k) 32 := by
  simp only [fieldOf, BitVec.toNat_ofNat, nbits, putBits, Nat.shiftRight_eq_div_pow]
  interval_cases m <;> interval_cases k <;> omega

/-- Word k of an answer put into its response item, where the answer has one. -/
def putWord (d : List Nat) (w k : Nat) : Nat :=
  match d[k]? with
  | some v => putBits w (32 + 32 * k) 32 v
  | none => w

theorem fieldOf_putWord_same {d : List Nat} {k v : Nat} (w : Nat) (hd : d[k]? = some v) (hk : k < 3) :
    fieldOf (BitVec.ofNat 128 (putWord d w k)) (32 + 32 * k) 32 = v % 2 ^ 32 := by
  rw [putWord, hd]
  exact fieldOf_putBits_word w v hk

theorem fieldOf_putWord_later {k m : Nat} (d : List Nat) (w : Nat) (hkm : k < m) (hm : m < 3) :
    fieldOf (BitVec.ofNat 128 (putWord d w m)) (32 + 32 * k) 32 = fieldOf (BitVec.ofNat 128 w) (32 + 32 * k) 32 := by
  unfold putWord
  split
  · exact fieldOf_putBits_later w _ hkm hm
  · rfl

/-- Once the first n words of an answer are put, each of them stands in the item. -/
theorem fieldOf_foldl_putWord {d : List Nat} {k v n : Nat} (w : Nat) (hd : d[k]? = some v) (hk : k < n) (hn : n ≤ 3) :
    fieldOf (BitVec.ofNat 128 ((List.range n).foldl (putWord d) w)) (32 + 32 * k) 32 = v % 2 ^ 32 := by
  induction n with
  | zero => exact absurd hk (Nat.not_lt_zero k)
  | succ n ih =>
    rw [List.range_succ, List.foldl_append, List.foldl_cons, List.foldl_nil]
    obtain hlt | rfl := Nat.lt_succ_iff_lt_or_eq.mp hk
    · exact (fieldOf_putWord_later d _ hlt hn).trans (ih hlt (Nat.le_of_succ_le hn))
    · exact fieldOf_putWord_same _ hd hn

/-- The response item of a slot that is answered: STATUS, TAG and event code, and after them the words of the answer. -/
theorem kvGet_rsp_svcRespond {slot status ev : Nat} {d : List Nat} {s : State} (hslot : slot < 4)
    (hgo : nbit (s.fget F.MGT_SVC_GO) slot = true) :
    kvGet 0#128 (svcRespond slot status ev d s).mgt.rsp (2 * slot) = BitVec.ofNat 128 ((List.range 3).foldl (putWord d)
      (putBits s.fresh.1.toNat 0 32 (status * 2 ^ 24 + s.reqTag slot * 2 ^ 16 + ev))) := by
  unfold svcRespond
  rw [if_neg (by simp [hslot, hgo]), State.mgt_raise, State.mgt_fset]
  exact (kvGet_kvSet_ne _ _ _ _ (by omega)).trans ((kvGet_kvSet _ _ _ _ _).trans (if_pos rfl))

/-! ### INFO (R527) -/

/-- A due request reads GO = 1 in one of the four slots. -/
theorem requested_of_svcDue {slot code : Nat} {s : State} (hdue : s.svcDue slot code = true) :
    slot < 4 ∧ nbit (s.fget F.MGT_SVC_GO) slot = true := by
  simp only [State.svcDue, Bool.and_eq_true, decide_eq_true_eq, and_assoc] at hdue
  obtain ⟨hslot, hgo, -⟩ := hdue
  exact ⟨hslot, hgo⟩

theorem exec_info_of_due {slot : Nat} {s : State} (hdue : s.svcDue slot 7 = true) (hfree : s.svcFree slot = true)
    (harg : s.badArg slot 0 = false) : exec (.info slot) s = .next (svcInfo slot s) := by
  simp only [State.svcFree, Bool.and_eq_true, Bool.not_eq_true'] at hfree
  show Host.Outcome.next (service slot 7 0 false (svcInfo slot) s) = _
  simp [service, hdue, hfree, harg]

/-- D2 of INFO's answer: the boot source cut to its two bits, and the generation (R527). -/
theorem fieldOf_svcInfo_boot {slot : Nat} {s : State} (hdue : s.svcDue slot 7 = true) :
    fieldOf (kvGet 0#128 (svcInfo slot s).mgt.rsp (2 * slot)) 64 32 =
      (s.fget F.SCH_BOOT_SRC % 4 + s.fget F.SCH_BOOT_GEN * 65536) % 2 ^ 32 := by
  obtain ⟨hslot, hgo⟩ := requested_of_svcDue hdue
  rw [svcInfo, kvGet_rsp_svcRespond hslot hgo]
  exact fieldOf_foldl_putWord (k := 1) _ rfl (by decide) le_rfl

/-- A due INFO in slot 0, in a device whose SCH_BOOT.SRC holds 4. -/
def infoBeyondWidth : State :=
  { State.reset with
    fields := [(F.MGT_SVC_GO.key, 1), (F.SCH_BOOT_SRC.key, 4)]
    mgt := { State.reset.mgt with req := [(0, BitVec.ofNat 128 (7 * 2 ^ 24))] } }

/-- Refutes O50, at its clause on INFO: D2 of the answer is said to hold SCH_BOOT.SRC as it stands, and the model answers it cut to
the two bits of the field. The clause ranges over every state as plain data and bounds no value of the register file: here SRC holds
4, and the answer holds 0. The model's own writes cut a field to its width (`State.fget_fset_same`), so the clause lacks a
hypothesis: that SRC is below 4. -/
theorem not_servicesAnswered : ¬ Obligations.ServicesAnswered := by
  unfold Obligations.ServicesAnswered
  rintro ⟨-, hinfo, -⟩
  have hdue : infoBeyondWidth.svcDue 0 7 = true := by decide
  have hfree : infoBeyondWidth.svcFree 0 = true := by decide
  have harg : infoBeyondWidth.badArg 0 0 = false := by decide
  obtain ⟨t, ht, ⟨-, -, hwords, -⟩, -⟩ := hinfo 0 infoBeyondWidth hdue hfree harg
  rw [exec_info_of_due hdue hfree harg] at ht
  cases ht
  have hboot := (fieldOf_svcInfo_boot hdue).symm.trans (hwords 1 _ (by decide) rfl)
  exact absurd hboot (by decide)

end Sys2Proof.Machine
end

section
/-! The invariants and frames of every step: soundness, the queue, fuses, the arbiter, touched parts, and the passing of time. -/
namespace Sys2Proof.Machine

/-! ### A step, by the queue (log 2) -/

/-- Settles O1: the match of `step` on the queue takes its second arm. -/
theorem stepRunsFrontCommand : Obligations.StepRunsFrontCommand := by
  unfold Obligations.StepRunsFrontCommand
  intro s c rest h
  unfold step
  rw [h]

theorem step_of_empty {s : State} (h : s.pending = []) : step s = .next (tick s) := by
  unfold step
  rw [h]

/-- A step keeps everything that `Kept` is about, seen from the state without its front command. -/
theorem step_kept {s t : State} (h : step s = .next t) : Kept { s with pending := s.pending.tail } t := by
  cases hq : s.pending with
  | nil =>
    rw [step_of_empty hq] at h
    cases h
    have hs : ({ s with pending := ([] : List Instr).tail } : State) = s := by rw [List.tail_nil, ← hq]
    rw [hs]
    exact tick_kept (Kept.refl s)
  | cons c rest =>
    rw [stepRunsFrontCommand s c rest hq] at h
    exact exec_kept c h

/-! ### What every step keeps -/

/-- Settles O4: `Kept` carries the canonical form of memory and of flash. -/
theorem stepKeepsSound : Obligations.StepKeepsSound := by
  unfold Obligations.StepKeepsSound
  intro s t hs h
  simp only [State.sound, Bool.and_eq_true] at hs ⊢
  exact ⟨(step_kept h).mem hs.1, (step_kept h).flash hs.2⟩

/-- Settles O5: `Kept` carries the queue. -/
theorem queueIsFifo : Obligations.QueueIsFifo := by
  unfold Obligations.QueueIsFifo
  exact ⟨fun c s t h => (exec_kept c h).pending, fun s t h => (step_kept h).pending⟩

/-- Settles O6: `Kept` carries the set fuse bits (R536). -/
theorem fuseBitsOnlySet : Obligations.FuseBitsOnlySet := by
  unfold Obligations.FuseBitsOnlySet
  exact fun s t h k j => (step_kept h).fuses k j

/-- Settles O7: `Kept` carries the bound of the arbiter's hold buffer (R502). -/
theorem arbiterHoldsAtMost256 : Obligations.ArbiterHoldsAtMost256 := by
  unfold Obligations.ArbiterHoldsAtMost256
  exact fun s t hs h => (step_kept h).held hs

/-! ### The table of touched parts -/

theorem Part.mem_all (p : Part) : p ∈ Part.all := by
  cases p with
  | regs b => cases b <;> decide
  | _ => decide

/-- The mask of a command's frame names no part that the table does not list. -/
theorem instrMask_within_touches (i : Instr) :
    (Part.all.all fun p => (touches i).contains p || !(instrMask i).testBit p.bit) = true := by
  cases i with
  | _ => simp only [instrMask, touches]; rfl

theorem testBit_instrMask_of_untouched {i : Instr} {p : Part} (h : p ∉ touches i) : (instrMask i).testBit p.bit = false := by
  have hall := List.all_eq_true.1 (instrMask_within_touches i) p p.mem_all
  simpa [h] using hall

/-- Every command that carries no register write and no access goes on. -/
theorem exec_completes {i : Instr} (h : mayStop i = false) (s : State) : ∃ t, exec i s = .next t := by
  cases i with
  | registerWrite | bitAliasWrite | mbxItemRead | mbxItemWrite | dbgAccessRead | dbgAccessWrite | dbgacc | nocPacketReceive
  | tuEnable | tuRegWrite | dmaEnable | dmaDisable | eventRingEnable | devnumWrite | codebaseWrite => cases h
  | _ => exact ⟨_, rfl⟩

/-- Settles O8: by the frame of every command, whose mask lies within the table. -/
theorem commandsTouchOnlyTheirParts : Obligations.CommandsTouchOnlyTheirParts := by
  unfold Obligations.CommandsTouchOnlyTheirParts
  have hframe : ∀ (i : Instr) (s t : State), exec i s = .next t → ∀ p, p ∉ touches i → State.same s t p :=
    fun i s t h p hp => (exec_frame i h).same p (testBit_instrMask_of_untouched hp)
  refine ⟨hframe, fun i s h => ?_⟩
  obtain ⟨t, ht⟩ := exec_completes h s
  exact ⟨t, ht, hframe i s t ht⟩

/-! ### One nanosecond (log 2) -/

/-- What a nanosecond changes after the platform time and the timer of an ellipsis have advanced. -/
def tickUnits (s : State) : State :=
  svcUnlisted (calTick (flashTick (rstTick (kickTick 1 (kickTick 0 (rimTick s))))))

theorem tickUnits_frame (s : State) : Fr 0x94200d0 s (tickUnits s) := by
  have h := kickTick_frame 1 (kickTick_frame 0 (rimTick_frame (Fr.refl 0x94200d0 s) rfl) rfl) rfl
  exact svcUnlisted_frame (calTick_frame (flashTick_frame (rstTick_frame h rfl) rfl) rfl) rfl

theorem tick_eq (s : State) : tick s = tickUnits (ellipsisTick
    (((ptimeTick { s with now := s.now + 1 }).ptime + 2 ^ 64 - s.ptime) % 2 ^ 64) (ptimeTick { s with now := s.now + 1 })) := rfl

/-- The timer of an ellipsis moves neither the step counter nor the state of the sequencer (R32). -/
theorem seq_ellipsisTick (d : Nat) (s : State) :
    (ellipsisTick d s).seq.step = s.seq.step ∧ (ellipsisTick d s).seq.st = s.seq.st := by
  have hheld : (rimHeld (ellipsisSample s)).seq = (ellipsisSample s).seq := (rimHeld_frame (Fr.refl 0x20000 _) (Nat.and_self _)).h_seq rfl
  unfold ellipsisTick
  split
  · dsimp only
    rw [hheld]
    exact ⟨rfl, rfl⟩
  · exact ⟨rfl, rfl⟩

/-- Nothing but the advance of the platform time moves it in a nanosecond. -/
theorem ptime_tick (s : State) : (tick s).ptime = (ptimeTick { s with now := s.now + 1 }).ptime := by
  rw [tick_eq]
  exact ((tickUnits_frame _).h_ptime rfl).trans ((ellipsisTick_frame _ (Fr.refl 0x20200 _) (Nat.and_self _)).h_ptime rfl)

theorem now_tick (s : State) : (tick s).now = s.now + 1 := by
  rw [tick_eq]
  exact ((tickUnits_frame _).h_now rfl).trans (((ellipsisTick_frame _ (Fr.refl 0x20200 _) (Nat.and_self _)).h_now rfl).trans
    ((ptimeTick_frame (Fr.refl 0x1000004 _) (Nat.and_self _)).h_now rfl))

theorem seq_tick (s : State) : (tick s).seq.step = s.seq.step ∧ (tick s).seq.st = s.seq.st := by
  have hunits := fun u => (tickUnits_frame u).h_seq rfl
  have hptime : (ptimeTick { s with now := s.now + 1 }).seq = s.seq := (ptimeTick_frame (Fr.refl 0x1000004 _) (Nat.and_self _)).h_seq rfl
  rw [tick_eq, hunits, (seq_ellipsisTick _ _).1, (seq_ellipsisTick _ _).2, hptime]
  exact ⟨rfl, rfl⟩

theorem ptime_ptimeTick_of_stopped {s : State} (h : s.ptRun = false) : (ptimeTick s).ptime = s.ptime := by
  unfold ptimeTick
  rw [h]
  rfl

theorem ptime_ptimeTick_of_free {s : State} (hrun : s.ptRun = true) (hmode : s.fbit F.PLT_PTCTL_MODE = false)
    (hfrac : s.plt.ptFrac < 1000000000) (htime : s.ptime + 1 < 2 ^ 64) : (ptimeTick s).ptime = s.ptime + 1 := by
  have hadd : (s.plt.ptFrac + 1000000000) / 1000000000 = 1 := by omega
  unfold ptimeTick
  rw [if_pos hrun, hmode]
  show (s.ptime + (s.plt.ptFrac + 1000000000) / 1000000000) % 2 ^ 64 = s.ptime + 1
  rw [hadd, Nat.mod_eq_of_lt htime]

/-- The parts that a nanosecond may change are those of its frame. -/
theorem testBit_tickMask_of_unlisted {p : Part}
    (h : p ∉ [Part.now, .ptime, .free, .flash, .evq, .seq, .rim, .mgt, .plt, .regs .mgt]) : (0x94202d6 : Nat).testBit p.bit = false := by
  cases p with
  | now | ptime | free | flash | evq | seq | rim | mgt | plt => exact absurd (by decide) h
  | regs b =>
    cases b with
    | mgt => exact absurd (by decide) h
    | _ => rfl
  | _ => rfl

/-- Settles O2: by the parts of `tick`, of which only the platform time and the timer of an ellipsis need a closer look. -/
theorem emptyQueueLetsTimePass : Obligations.EmptyQueueLetsTimePass := by
  unfold Obligations.EmptyQueueLetsTimePass
  intro s hq
  have hpending : (tick s).pending = [] := (tick_kept (Kept.refl s)).pending.trans hq
  refine ⟨tick s, step_of_empty hq, hpending, now_tick s, (seq_tick s).1, (seq_tick s).2, ?_, ?_, ?_⟩
  · exact fun h => (ptime_tick s).trans (ptime_ptimeTick_of_stopped h)
  · exact fun hrun hmode hfrac htime => (ptime_tick s).trans (ptime_ptimeTick_of_free hrun hmode hfrac htime)
  · exact fun p hp => (tick_frame (Fr.refl 0x94202d6 s) (Nat.and_self _)).same p (testBit_tickMask_of_unlisted hp)

/-! ### Power-on reset -/

theorem State.flashGet_of_erased {s : State} (h : s.flash = []) (o : Nat) :
    s.flashGet o = if isGolden o then Config.goldenByte (o - 0x0F000000) else 0xFF#8 := by
  unfold State.flashGet
  rw [h]
  rfl

/-- Settles O3: `State.reset` lists nothing, so everything reads as its default. -/
theorem resetLeavesDefaults : Obligations.ResetLeavesDefaults := by
  unfold Obligations.ResetLeavesDefaults
  refine ⟨fun _ => rfl, rfl, rfl, rfl, rfl, rfl, fun _ => rfl, fun _ => rfl, fun a ha => ?_, fun o => ?_, rfl⟩
  · show memDflt a = 0x55#8
    rw [memDflt, if_pos ha]
  · exact State.flashGet_of_erased rfl o

end Sys2Proof.Machine
end

section
/-! The frame scrubber of the rim where a count holds more than its 32 bits (R354), and the refutation of O25. -/
namespace Sys2Proof.Machine

/-- A device with one clean rim frame, whose RIM_CNT_FIX holds 2^32. -/
def fixBeyondWidth : State :=
  { State.reset with
    fields := [(F.RIM_CNT_FIX_COUNT.key, 2 ^ 32)]
    rim := { State.reset.rim with frames := [(0, 1)] } }

/-- Refutes O25, at its clause on the frame that the scrubber takes up: RIM_CNT_FIX is said to hold its count and the corrected
words, at most 2^32 - 1, after the frame has been read. A frame without errors counts nothing, so the model leaves the count as it
stands. The clause ranges over every state as plain data and bounds no value of the register file: here the count holds 2^32 and
stays there. The model's own writes cut a field to its width (`State.fget_fset_same`), so the clause lacks a hypothesis: that the
counts are below 2^32. -/
theorem not_rimWatchesItself : ¬ Obligations.RimWatchesItself := by
  unfold Obligations.RimWatchesItself
  rintro ⟨-, -, -, -, -, hscrub⟩
  have hnext : fixBeyondWidth.nextFrame = some 0 := by decide
  obtain ⟨t, ht, -, -, -, -, hcount, -⟩ := hscrub [] fixBeyondWidth fixBeyondWidth 0 rfl hnext
  cases ht
  exact absurd hcount (by decide)

end Sys2Proof.Machine
end

section
/-! The throttle level where PLT_CTL.THRMIN holds more than its 4 bits (R566), and the refutation of O57. -/
namespace Sys2Proof.Machine

/-- A device whose THRMIN holds 16. -/
def thrminBeyondWidth : State := { State.reset with fields := [(F.PLT_CTL_THRMIN.key, 16)] }

/-- Refutes O57, at its clause on THROTTLE_UPDATE of the power request: THR is said to hold the throttle level, the largest request,
and the model holds it cut to the four bits of THR. The clause bounds the thermal and the power request but ranges over every state
as plain data and bounds no value of the register file: here THRMIN holds 16, the level is 16 and THR holds 0. The model's own
writes cut a field to its width (`State.fget_fset_same`), so the clause lacks a hypothesis: that THRMIN is below 16. -/
theorem not_sensorsAndThrottle : ¬ Obligations.SensorsAndThrottle := by
  unfold Obligations.SensorsAndThrottle
  intro h
  obtain ⟨-, hpower, -⟩ := h
  obtain ⟨t, ht, -, ⟨hthr, -⟩, -⟩ := hpower 760 760 thrminBeyondWidth (by decide) (by decide) rfl
  cases ht
  exact absurd hthr (by decide)

end Sys2Proof.Machine
end

section
/-! The rim step lanes on their rim side (R343 to R345, R351) and O23. -/
namespace Sys2Proof.Machine

/-- Settles O23: each command is one guard over one change of the group's record. -/
theorem stepLanesKeepOrder : Obligations.StepLanesKeepOrder := by
  unfold Obligations.StepLanesKeepOrder
  refine ⟨?read, ?readIdle, ?write, ?writeIdle⟩
  case read =>
    intro g n e rest s hq hfenced hruns hmoved
    have hexec : exec (.rimOutboundRead g) s =
        .next ((s.modGroup g fun x => { x with outq := rest, outMoved := x.outMoved + 1 }).emit (.rimEntry g (n % 65536) e)) := by
      simp only [exec, execRimOutboundRead, rimOutRead, hq, hfenced, hruns]
      simp [hmoved]
    refine leads_of hexec ⟨by simp, rfl, by simp, by simp, fun d hd => ?_, onlyFields.refl _ _, rfl, rfl, rfl, rfl⟩
    rw [State.group_emit, State.group_modGroup_ne _ _ hd]
  case readIdle =>
    intro g s hidle
    simp only [exec, execRimOutboundRead, rimOutRead]
    split
    · rfl
    · rename_i hq
      have hstop : (s.groupFenced g || !s.slRuns || decide (4 ≤ (s.group g).outMoved)) = true := by simpa [hq, or_assoc] using hidle
      rw [if_pos hstop]
  case write =>
    intro g e s hen hfenced hroom hruns hmoved
    have hexec : exec (.rimInboundWrite g e) s = .next (s.modGroup g fun x =>
        { x with inq := x.inq ++ [(x.inNext, e)], inNext := x.inNext + 1, inMoved := x.inMoved + 1 }) := by
      simp [exec, execRimInboundWrite, rimInWrite, hen, hfenced, hruns, hmoved, hroom]
    exact leads_of hexec ⟨by simp, by simp, by simp, by simp, fun d hd => State.group_modGroup_ne _ _ hd, onlyFields.refl _ _,
      rfl, rfl, rfl, rfl, rfl⟩
  case writeIdle =>
    intro g e s hidle
    have hstop : (!s.inEn g || s.groupFenced g || decide (64 ≤ (s.group g).inq.length) || !s.slRuns ||
        decide (4 ≤ (s.group g).inMoved)) = true := by simpa [or_assoc] using hidle
    simp only [exec, execRimInboundWrite, rimInWrite]
    rw [if_pos hstop]

end Sys2Proof.Machine
end

section
/-! The regions of the rim (R350 to R352) and O24. -/
namespace Sys2Proof.Machine

/-- The registers that RIM_PRC and its report write. -/
def prcFields : List Fld := [F.RIM_PRC_REGION, F.RIM_PRC_RESULT, F.RIM_EVT_PR]

theorem fget_result_prcReport (r what : Nat) {x : Nat} (hx : x < 256) (u : State) :
    (prcReport r what x u).fget F.RIM_PRC_RESULT = x := by
  rw [prcReport, State.fget_raise_ne _ _ _ _ (by decide), State.fget_fset_same]
  exact Nat.mod_eq_of_lt hx

/-- A report of RIM_PRC posts its event and keeps RESULT, where REGION alone was written before it. -/
theorem posted_prcReport {r what x : Nat} (hx : x < 256) {s u : State} (hevq : u.evq = s.evq) (hseq : u.seq = s.seq)
    (htime : u.ptime = s.ptime) (h : onlyFields [F.RIM_PRC_REGION] s u) :
    posted F.RIM_EVT_PR 11 5 [r, what, x] s (prcReport r what x u) ∧ (prcReport r what x u).fget F.RIM_PRC_RESULT = x := by
  refine ⟨posted_raise 11 5 [r, what, x] rfl hevq (congrArg Seq.step hseq) htime ?_, ?_⟩
  · rw [State.fget_fset_ne _ _ (by decide)]
    exact h _ (by decide)
  · rw [prcReport, State.fget_raise_ne _ _ _ _ (by decide), State.fget_fset_same]
    exact Nat.mod_eq_of_lt hx

theorem regionNamed (r : Nat) (s : State) : onlyFields [F.RIM_PRC_REGION] s (s.fset F.RIM_PRC_REGION r) :=
  (onlyFields.refl _ s).fset (List.mem_singleton.2 rfl) r

/-- What a refused request of RIM_PRC leaves: its report, and every region as it was. -/
theorem prcRefused {r what x : Nat} (hr : r < 16) (hx : x < 256) (s : State) :
    let t := prcReport r what x (s.fset F.RIM_PRC_REGION r)
    posted F.RIM_EVT_PR 11 5 [r, what, x] s t ∧ t.fget F.RIM_PRC_RESULT = x ∧ t.fget F.RIM_PRC_REGION = r ∧ t.rim = s.rim ∧
      t.clauses = s.clauses ∧ t.seq = s.seq ∧ t.mem = s.mem ∧ onlyFields prcFields s t := by
  obtain ⟨hposted, hresult⟩ := posted_prcReport (r := r) (what := what) (s := s) (u := s.fset F.RIM_PRC_REGION r) hx rfl rfl rfl (regionNamed r s)
  refine ⟨hposted, hresult, ?_, by simp [prcReport], by simp [prcReport], by simp [prcReport], by simp [prcReport], ?_⟩
  · rw [prcReport, State.fget_raise_ne _ _ _ _ (by decide), State.fget_fset_ne _ _ (by decide), State.fget_fset_same]
    exact Nat.mod_eq_of_lt hr
  · exact (((onlyFields.refl prcFields s).fset (by simp [prcFields]) r).fset (by simp [prcFields]) x).raise (by simp [prcFields]) _ _ _

theorem prcReport_leaves (r what x : Nat) (u : State) : (prcReport r what x u).rim = u.rim ∧
    (prcReport r what x u).clauses = u.clauses ∧ (prcReport r what x u).seq = u.seq ∧ (prcReport r what x u).mem = u.mem := by
  simp [prcReport]

theorem regionSt_regionTo_same (r : Nat) (st : RegionState) (s : State) : (regionTo r st s).regionSt r = st := by
  simp [regionTo, State.regionSt, kvGet_kvSet]

theorem regionSt_regionTo_ne {r d : Nat} (st : RegionState) (s : State) (h : d ≠ r) :
    (regionTo r st s).regionSt d = s.regionSt d := by
  simp [regionTo, State.regionSt, kvGet_kvSet, h]

/-- The place of the row group that a flip-flop's key names (R331, R338). -/
theorem rfaPlace_flipflop {u f : Nat} (hu : u < 12288) (hf : f < 16) : rfaPlace (rfaOf 1 ((16 * u + f) / 16) 0) = some (groupPlace u) := by
  have hkey : (16 * u + f) / 16 = u := by omega
  have htype : rfaType (rfaOf 1 u 0) = 1 := by simp only [rfaType, rfaOf, nbits]; omega
  have hunit : rfaUnit (rfaOf 1 u 0) = u := by simp only [rfaUnit, rfaOf, nbits]; omega
  simp [hkey, rfaPlace, htype, hunit, groupPlace]

/-- A fence gives INIT back to the flip-flops of its rectangle (R350). -/
theorem ff_regionFence {u f : Nat} (r : Nat) (s : State) (hu : u < 12288) (hf : f < 16) :
    kvGet none (regionFence r s).rim.ff (16 * u + f) =
      if inRegion (s.regionFrame r) (groupPlace u) then none else kvGet none s.rim.ff (16 * u + f) := by
  have hkept := kvGet_filter_key none s.rim.ff
    (fun k => !((rfaPlace (rfaOf 1 (k / 16) 0)).any (inRegion (s.regionFrame r)))) (16 * u + f)
  simp only [regionFence]
  refine hkept.trans ?_
  simp only [rfaPlace_flipflop hu hf, Option.any_some, Bool.not_eq_true']
  cases inRegion (s.regionFrame r) (groupPlace u) <;> rfl

/-! ### The report of the groups that were filled (R351) -/

theorem foldl_min_le (t : List (Nat × Nat)) : ∀ a : Nat, t.foldl (fun m e => min m e.1) a ≤ a ∧
    ∀ e ∈ t, t.foldl (fun m e => min m e.1) a ≤ e.1 := by
  induction t with
  | nil => simp
  | cons x t ih =>
    intro a
    obtain ⟨hstart, hrest⟩ := ih (min a x.1)
    refine ⟨hstart.trans (min_le_left _ _), fun e he => ?_⟩
    rcases List.mem_cons.1 he with rfl | he
    · exact hstart.trans (min_le_right _ _)
    · exact hrest e he

theorem le_foldl_max (t : List (Nat × Nat)) : ∀ b : Nat, b ≤ t.foldl (fun m e => max m e.2) b ∧
    ∀ e ∈ t, e.2 ≤ t.foldl (fun m e => max m e.2) b := by
  induction t with
  | nil => simp
  | cons x t ih =>
    intro b
    obtain ⟨hstart, hrest⟩ := ih (max b x.2)
    refine ⟨(le_max_left _ _).trans hstart, fun e he => ?_⟩
    rcases List.mem_cons.1 he with rfl | he
    · exact (le_max_right _ _).trans hstart
    · exact hrest e he

/-- The groups of a list forget what was filled. -/
def forgetFilled (gs : List Nat) (s : State) : State := gs.foldl (fun s g => s.modGroup g fun x => { x with filled := none }) s

theorem forgetFilled_nil (s : State) : forgetFilled [] s = s := rfl

theorem forgetFilled_cons (g : Nat) (gs : List Nat) (s : State) :
    forgetFilled (g :: gs) s = forgetFilled gs (s.modGroup g fun x => { x with filled := none }) := rfl

theorem group_forgetFilled (gs : List Nat) : ∀ (s : State) (g : Nat),
    (forgetFilled gs s).group g = if g ∈ gs then { s.group g with filled := none } else s.group g := by
  induction gs with
  | nil => simp [forgetFilled_nil]
  | cons h gs ih =>
    intro s g
    rw [forgetFilled_cons, ih]
    by_cases hg : g = h
    · subst hg
      simp
    · simp [hg, State.group_modGroup_ne]

/-- Forgetting the filled groups changes nothing but the groups. -/
theorem forgetFilled_eq (gs : List Nat) : ∀ s : State,
    forgetFilled gs s = { s with rim := { s.rim with groups := (forgetFilled gs s).rim.groups } } := by
  induction gs with
  | nil => intro s; rfl
  | cons g gs ih =>
    intro s
    rw [forgetFilled_cons, ih]
    rfl

/-- The groups that a region owns and that were filled, with their first and last steps. -/
def State.filledGroups (s : State) (r : Nat) : List (Nat × Nat) := (s.ownedGroups r).filterMap fun g => (s.group g).filled

theorem mem_ownedGroups {s : State} {r g : Nat} : g ∈ s.ownedGroups r ↔ g < 16 ∧ s.regionOf g = some r := by
  simp [State.ownedGroups]

theorem mem_filledGroups {s : State} {r g n m : Nat} (hg : g < 16) (howned : s.regionOf g = some r)
    (hfilled : (s.group g).filled = some (n, m)) : (n, m) ∈ s.filledGroups r :=
  List.mem_filterMap.2 ⟨g, mem_ownedGroups.2 ⟨hg, howned⟩, hfilled⟩

/-- No group of the region was filled: there is nothing to report. -/
theorem safeReport_of_none {s : State} {r : Nat} (h : s.filledGroups r = []) : safeReport r s = s := by
  unfold safeReport
  rw [show ((s.ownedGroups r).filterMap fun g => (s.group g).filled) = [] from h]

/-- Groups were filled: they forget it, and RIM_SAFE names steps that bound every filled step. -/
theorem safeReport_of_filled {s : State} {r : Nat} (h : s.filledGroups r ≠ []) :
    ∃ lo hi, (∀ e ∈ s.filledGroups r, lo ≤ e.1 ∧ e.2 ≤ hi) ∧
      safeReport r s = (forgetFilled (s.ownedGroups r) s).raise F.RIM_EVT_SAFE 11 7 ([r] ++ w64 lo ++ w64 hi) := by
  obtain ⟨⟨a, b⟩, t, hcons⟩ := List.exists_cons_of_ne_nil h
  obtain ⟨hlo, hlos⟩ := foldl_min_le t a
  obtain ⟨hhi, hhis⟩ := le_foldl_max t b
  refine ⟨t.foldl (fun m e => min m e.1) a, t.foldl (fun m e => max m e.2) b, ?_, ?_⟩
  · rw [hcons]
    intro e he
    rcases List.mem_cons.1 he with rfl | he
    · exact ⟨hlo, hhi⟩
    · exact ⟨hlos e he, hhis e he⟩
  · unfold safeReport
    rw [show ((s.ownedGroups r).filterMap fun g => (s.group g).filled) = (a, b) :: t from hcons]
    rfl

/-- A report of filled groups changes the groups, its event and the records, and nothing else of a state. -/
theorem safeReport_leaves (r : Nat) (s : State) : (safeReport r s).rim.regions = s.rim.regions ∧
    (safeReport r s).rim.frames = s.rim.frames ∧ (safeReport r s).clauses = s.clauses ∧ (safeReport r s).seq = s.seq ∧
      (safeReport r s).mem = s.mem := by
  by_cases h : s.filledGroups r = []
  · rw [safeReport_of_none h]
    exact ⟨rfl, rfl, rfl, rfl, rfl⟩
  · obtain ⟨lo, hi, -, he⟩ := safeReport_of_filled h
    rw [he, forgetFilled_eq]
    simp

/-- A report of filled groups leaves every entry; a group of the region has nothing filled after it. -/
theorem group_safeReport (r g : Nat) (s : State) : ((safeReport r s).group g).inq = (s.group g).inq ∧
    ((safeReport r s).group g).outq = (s.group g).outq ∧ ((safeReport r s).group g).inNext = (s.group g).inNext ∧
      (g < 16 → s.regionOf g = some r → ((safeReport r s).group g).filled = none) := by
  by_cases h : s.filledGroups r = []
  · rw [safeReport_of_none h]
    refine ⟨rfl, rfl, rfl, fun hg howned => ?_⟩
    by_contra hfilled
    obtain ⟨⟨n, m⟩, hnm⟩ := Option.ne_none_iff_exists'.1 hfilled
    exact List.ne_nil_of_mem (mem_filledGroups hg howned hnm) h
  · obtain ⟨lo, hi, -, he⟩ := safeReport_of_filled h
    rw [he]
    simp only [State.group_raise, group_forgetFilled]
    split
    · simp
    · next hg => exact ⟨rfl, rfl, rfl, fun hlt howned => absurd (mem_ownedGroups.2 ⟨hlt, howned⟩) hg⟩

/-- RIM_SAFE of a group that was filled: its steps lie within those that the event names. -/
theorem safeReport_event {r g n m : Nat} {s : State} (hg : g < 16) (howned : s.regionOf g = some r)
    (hfilled : (s.group g).filled = some (n, m)) : (safeReport r s).fget F.RIM_EVT_SAFE = 1 ∧
      (s.fbit (evten F.RIM_EVT_SAFE) = true → ∃ lo hi : Nat, lo ≤ n ∧ m ≤ hi ∧
        ∃ e ∈ (safeReport r s).evq, e.src = 11 ∧ e.code = 7 ∧ e.payload = [r] ++ w64 lo ++ w64 hi) := by
  have hmem := mem_filledGroups hg howned hfilled
  obtain ⟨lo, hi, hbound, he⟩ := safeReport_of_filled (List.ne_nil_of_mem hmem)
  rw [he]
  refine ⟨by simp, fun hen => ⟨lo, hi, (hbound _ hmem).1, (hbound _ hmem).2, ?_⟩⟩
  have hen' : (forgetFilled (s.ownedGroups r) s).fbit (evten F.RIM_EVT_SAFE) = true := by rw [forgetFilled_eq]; exact hen
  rw [State.evq_raise_on _ _ _ _ _ hen']
  exact ⟨_, List.mem_append_right _ (List.mem_singleton.2 rfl), rfl, rfl, rfl⟩

/-- The release of a fenced region, from the report of what was filled on. -/
def released (r : Nat) (s : State) : State := safeReport r (regionTo r .active (s.fset F.RIM_PRC_REGION r))

theorem released_of_none {r : Nat} {s : State} (h : ∀ g, s.regionOf g = some r → (s.group g).filled = none) :
    released r s = regionTo r .active (s.fset F.RIM_PRC_REGION r) := by
  refine safeReport_of_none (List.filterMap_eq_nil_iff.2 fun g hg => ?_)
  exact h g (mem_ownedGroups.1 hg).2

/-- A report of RIM_PRC leaves the records that wait. -/
theorem evq_subset_prcReport (r what x : Nat) (u : State) : u.evq ⊆ (prcReport r what x u).evq := by
  rw [prcReport, State.evq_raise]
  exact List.subset_append_left _ _

theorem exec_rimPrcRel_fenced {r : Nat} {s : State} (hdef : s.regionDef r = true) (hst : s.regionSt r = .fenced) :
    exec (.rimPrcRel r) s = .next (prcReport r 1 0 (released r s)) := by
  have hdef' : (s.fset F.RIM_PRC_REGION r).rim = s.rim := rfl
  simp [exec, execRimPrcRel, rimRelease, hdef, hst, released]

theorem exec_rimPrcFence_active {r : Nat} {s : State} (hdef : s.regionDef r = true) (hst : s.regionSt r = .active) :
    exec (.rimPrcFence r) s = .next (prcReport r 0 0 (regionFence r (s.fset F.RIM_PRC_REGION r))) := by
  simp [exec, execRimPrcFence, rimFence, hdef, hst]

/-- Settles O24: a refused request only reports (`prcRefused`); a fence filters the flip-flops by the place of their row group
(`ff_regionFence`), and a release reports bounds of every filled step (`safeReport_of_filled`). -/
theorem regionsFenceAndRelease : Obligations.RegionsFenceAndRelease := by
  unfold Obligations.RegionsFenceAndRelease
  refine ⟨?fenceRefused, ?fence, ?releaseRefused, ?release⟩
  case fenceRefused =>
    intro r x s hr hwhy
    have hexec : x < 256 ∧ exec (.rimPrcFence r) s = .next (prcReport r 0 x (s.fset F.RIM_PRC_REGION r)) := by
      rcases hwhy with ⟨hdef, rfl⟩ | ⟨hdef, hst, rfl⟩
      · simp [exec, execRimPrcFence, rimFence, hdef]
      · simp [exec, execRimPrcFence, rimFence, hdef, hst]
    exact leads_of hexec.2 (prcRefused hr hexec.1 s)
  case fence =>
    intro r s hr hdef hst
    obtain ⟨hrim, hcl, hseq, hmem⟩ := prcReport_leaves r 0 0 (regionFence r (s.fset F.RIM_PRC_REGION r))
    refine leads_of (exec_rimPrcFence_active hdef hst) ⟨?_, ?_, ?_, fun d hd => ?_, ?_, fun u f hu hf => ?_, ?_, hcl, hseq, hmem⟩
    · exact (posted_prcReport (s := s) (u := regionFence r (s.fset F.RIM_PRC_REGION r)) (Nat.zero_lt_succ _) rfl rfl rfl (regionNamed r s)).1
    · exact fget_result_prcReport r 0 (by decide) _
    · rw [State.regionSt, hrim]
      exact regionSt_regionTo_same r .fenced s
    · rw [State.regionSt, hrim]
      exact regionSt_regionTo_ne .fenced s hd
    · rw [hrim]; rfl
    · rw [hrim, ff_regionFence _ _ hu hf]; rfl
    · rw [hrim]; rfl
  case releaseRefused =>
    intro r x s hr hwhy
    have hexec : x < 256 ∧ exec (.rimPrcRel r) s = .next (prcReport r 1 x (s.fset F.RIM_PRC_REGION r)) := by
      rcases hwhy with ⟨hdef, rfl⟩ | ⟨hdef, hst, rfl⟩ | ⟨hdef, hst, rfl⟩
      · simp [exec, execRimPrcRel, rimRelease, hdef]
      · simp [exec, execRimPrcRel, rimRelease, hdef, hst]
      · simp [exec, execRimPrcRel, rimRelease, hdef, hst]
    obtain ⟨hposted, hresult, -, hrest⟩ := prcRefused (what := 1) hr hexec.1 s
    exact leads_of hexec.2 ⟨hposted, hresult, hrest⟩
  case release =>
    intro r s hr hdef hst
    have hevent (g n m : Nat) (hg : g < 16) (howned : s.regionOf g = some r) (hfilled : (s.group g).filled = some (n, m)) :=
      safeReport_event (s := regionTo r .active (s.fset F.RIM_PRC_REGION r)) hg howned hfilled
    obtain ⟨hrim, hcl, hseq, hmem⟩ := prcReport_leaves r 1 0 (released r s)
    obtain ⟨hregions, hframes, hcl', hseq', hmem'⟩ := safeReport_leaves r (regionTo r .active (s.fset F.RIM_PRC_REGION r))
    refine leads_of (exec_rimPrcRel_fenced hdef hst) ⟨?_, ?_, ?_, fun d hd => ?_, ?_, fun hnone => ⟨?_, ?_⟩,
      fun g n m hg howned hfilled => ⟨?_, fun hen => ?_⟩, fun g hg howned => ?_, fun g => ?_, hcl.trans hcl', hseq.trans hseq',
      hmem.trans hmem'⟩
    · exact fget_result_prcReport r 1 (by decide) _
    · simp [prcReport]
    · rw [State.regionSt, hrim, released, hregions]
      exact regionSt_regionTo_same r .active s
    · rw [State.regionSt, hrim, released, hregions]
      exact regionSt_regionTo_ne .active s hd
    · exact (congrArg Rim.frames hrim).trans hframes
    · rw [released_of_none hnone]
      exact (posted_prcReport (s := s) (u := regionTo r .active (s.fset F.RIM_PRC_REGION r)) (Nat.zero_lt_succ _) rfl rfl rfl
        (regionNamed r s)).1
    · rw [hrim, released_of_none hnone]
      rfl
    · rw [prcReport, State.fget_raise_ne _ _ _ _ (by decide), State.fget_fset_ne _ _ (by decide)]
      exact (hevent g n m hg howned hfilled).1
    · have hen' : (regionTo r .active (s.fset F.RIM_PRC_REGION r)).fbit (evten F.RIM_EVT_SAFE) = true :=
        (congrArg (· == 1) (State.fget_fset_ne s r (f := F.RIM_PRC_REGION) (by decide))).trans hen
      obtain ⟨lo, hi, hlo, hhi, e, he, hrest⟩ := (hevent g n m hg howned hfilled).2 hen'
      exact ⟨lo, hi, hlo, hhi, e, evq_subset_prcReport r 1 0 _ he, hrest⟩
    · rw [State.group, hrim]
      exact (group_safeReport r g _).2.2.2 hg howned
    · simp only [State.group, hrim]
      obtain ⟨hin, hout, hnext, -⟩ := group_safeReport r g (regionTo r .active (s.fset F.RIM_PRC_REGION r))
      exact ⟨hin, hout, hnext⟩

end Sys2Proof.Machine
end

section
/-! The rim I/O banks (R368, R371 to R376, R382 to R384), O26 and O27. -/
namespace Sys2Proof.Machine

/-! ### Their events -/

theorem rimIostatResult_ne_evtIo (b : Nat) : (F.RIM_IOSTAT_RESULT b).key ≠ F.RIM_EVT_IO.key := by
  simp only [F.RIM_IOSTAT_RESULT, F.RIM_EVT_IO, Fld.key]
  omega

theorem rimIostatResult_ne_evtenIo (b : Nat) : (F.RIM_IOSTAT_RESULT b).key ≠ F.RIM_EVTEN_IO.key := by
  simp only [F.RIM_IOSTAT_RESULT, F.RIM_EVTEN_IO, Fld.key]
  omega

/-- A rim I/O event changes its register and the records, and nothing else of a state. -/
theorem rimIoRaise_leaves (k : Nat) (p : List Nat) (s : State) : (rimIoRaise k p s).rim = s.rim ∧
    (rimIoRaise k p s).clauses = s.clauses ∧ (rimIoRaise k p s).seq = s.seq ∧ (rimIoRaise k p s).mem = s.mem := by
  unfold rimIoRaise
  split <;> exact ⟨rfl, rfl, rfl, rfl⟩

theorem fget_rimIoRaise (k : Nat) (p : List Nat) (s : State) (g : Fld) :
    (rimIoRaise k p s).fget g = (s.fset F.RIM_EVT_IO (putBit (s.fget F.RIM_EVT_IO) k true)).fget g := by
  unfold rimIoRaise
  split <;> rfl

theorem fget_rimIoRaise_ne {g : Fld} (k : Nat) (p : List Nat) (s : State) (h : g.key ≠ F.RIM_EVT_IO.key) :
    (rimIoRaise k p s).fget g = s.fget g := (fget_rimIoRaise k p s g).trans (s.fget_fset_ne _ h)

theorem nbit_evtIo_rimIoRaise {j : Nat} (k : Nat) (p : List Nat) (s : State) (hj : j < 16) :
    nbit ((rimIoRaise k p s).fget F.RIM_EVT_IO) j = if j = k then true else nbit (s.fget F.RIM_EVT_IO) j := by
  rw [fget_rimIoRaise]
  exact nbit_fset_putBit s F.RIM_EVT_IO true hj

theorem onlyFields_rimIoRaise {fs : List Fld} {s t : State} (h : onlyFields fs s t) (hio : F.RIM_EVT_IO ∈ fs) (k : Nat)
    (p : List Nat) : onlyFields fs s (rimIoRaise k p t) :=
  fun g hg => (fget_rimIoRaise_ne k p t (hg _ hio)).trans (h g hg)

/-- A rim I/O event in a state with the records, the step, the platform time and the enable bits of s is posted from s on. -/
theorem postedIo_rimIoRaise {k : Nat} (p : List Nat) {s t : State} (hk : k < 16) (hevq : t.evq = s.evq) (hseq : t.seq = s.seq)
    (htime : t.ptime = s.ptime) (hen : t.fget F.RIM_EVTEN_IO = s.fget F.RIM_EVTEN_IO) : postedIo k p s (rimIoRaise k p t) := by
  refine ⟨by rw [nbit_evtIo_rimIoRaise _ _ _ hk, if_pos rfl], ?_⟩
  simp only [rimIoRaise, hen]
  split
  · simp [hevq, hseq, htime]
  · simp [hevq]

/-- A rim I/O event after a change of one bank. -/
theorem bankEvent {k : Nat} (b : Nat) (f : Bank → Bank) (p : List Nat) (s : State) (hk : k < 16) :
    let t := rimIoRaise k p (s.modBank b f)
    t.bank b = f (s.bank b) ∧ (∀ d, d ≠ b → t.bank d = s.bank d) ∧ postedIo k p s t ∧ t.clauses = s.clauses ∧ t.seq = s.seq ∧
      t.mem = s.mem ∧ onlyFields [F.RIM_EVT_IO] s t := by
  obtain ⟨hrim, hcl, hseq, hmem⟩ := rimIoRaise_leaves k p (s.modBank b f)
  refine ⟨?_, fun d hd => ?_, postedIo_rimIoRaise p hk rfl rfl rfl rfl, hcl, hseq, hmem,
    onlyFields_rimIoRaise (t := s.modBank b f) (onlyFields.refl _ s) (List.mem_singleton.2 rfl) k p⟩
  · rw [State.bank, hrim]
    exact s.bank_modBank_same b f
  · rw [State.bank, hrim]
    exact s.bank_modBank_ne f hd

/-- A rim I/O event after a change of one bank and a write of its RESULT. -/
theorem bankResultEvent {k x : Nat} (b : Nat) (f : Bank → Bank) (p : List Nat) (s : State) (hk : k < 16) (hx : x < 256) :
    let t := rimIoRaise k p ((s.modBank b f).fset (F.RIM_IOSTAT_RESULT b) x)
    t.bank b = f (s.bank b) ∧ (∀ d, d ≠ b → t.bank d = s.bank d) ∧ postedIo k p s t ∧ t.fget (F.RIM_IOSTAT_RESULT b) = x ∧
      t.clauses = s.clauses ∧ t.seq = s.seq ∧ t.mem = s.mem ∧ onlyFields [F.RIM_IOSTAT_RESULT b, F.RIM_EVT_IO] s t := by
  obtain ⟨hrim, hcl, hseq, hmem⟩ := rimIoRaise_leaves k p ((s.modBank b f).fset (F.RIM_IOSTAT_RESULT b) x)
  refine ⟨?_, fun d hd => ?_, ?_, ?_, hcl, hseq, hmem, ?_⟩
  · rw [State.bank, hrim]
    exact s.bank_modBank_same b f
  · rw [State.bank, hrim]
    exact s.bank_modBank_ne f hd
  · exact postedIo_rimIoRaise p hk rfl rfl rfl ((s.modBank b f).fget_fset_ne _ (rimIostatResult_ne_evtenIo b).symm)
  · rw [fget_rimIoRaise_ne _ _ _ (rimIostatResult_ne_evtIo b), State.fget_fset_same]
    exact Nat.mod_eq_of_lt hx
  · have honly : onlyFields [F.RIM_IOSTAT_RESULT b, F.RIM_EVT_IO] s (s.modBank b f) := onlyFields.refl _ s
    exact onlyFields_rimIoRaise (honly.fset List.mem_cons_self x) (List.mem_cons_of_mem _ List.mem_cons_self) k p

/-- A report of RIM_IO_REL. -/
theorem bankReported {what x : Nat} (b : Nat) (s : State) (hx : x < 256) :
    let t := bankReport b what x s
    postedIo 0 [b, what, x] s t ∧ t.fget (F.RIM_IOSTAT_RESULT b) = x ∧ t.rim = s.rim ∧ t.clauses = s.clauses ∧ t.seq = s.seq ∧
      t.mem = s.mem ∧ onlyFields [F.RIM_IOSTAT_RESULT b, F.RIM_EVT_IO] s t := by
  obtain ⟨hrim, hcl, hseq, hmem⟩ := rimIoRaise_leaves 0 [b, what, x] (s.fset (F.RIM_IOSTAT_RESULT b) x)
  refine ⟨?_, ?_, hrim, hcl, hseq, hmem, ?_⟩
  · exact postedIo_rimIoRaise _ (by decide) rfl rfl rfl (s.fget_fset_ne _ (rimIostatResult_ne_evtenIo b).symm)
  · rw [bankReport, fget_rimIoRaise_ne _ _ _ (rimIostatResult_ne_evtIo b), State.fget_fset_same]
    exact Nat.mod_eq_of_lt hx
  · exact onlyFields_rimIoRaise ((onlyFields.refl _ s).fset (by simp) x) (by simp) 0 _

/-! ### Power and release (R371, R375) -/

theorem exec_rimRel_refused {b x : Nat} {s : State} (h : (s.bank b).st ≠ .unrel ∧ x = 6 ∨
    (s.bank b).st = .unrel ∧ s.rim.base = false ∧ x = 1 ∨ (s.bank b).st = .unrel ∧ s.rim.base = true ∧ s.vccOk b = false ∧ x = 2) :
    exec (.rimRel b) s = .next (bankReport b 0 x s) := by
  rcases h with ⟨hst, rfl⟩ | ⟨hst, hbase, rfl⟩ | ⟨hst, hbase, hvcc, rfl⟩
  · simp [exec, execRimRel, rimRel, hst]
  · simp [exec, execRimRel, rimRel, hst, hbase]
  · simp [exec, execRimRel, rimRel, hst, hbase, hvcc]

theorem exec_rimDis_of_on {b : Nat} {s : State} (h : (s.bank b).st = .released ∨ (s.bank b).st = .fault) :
    exec (.rimDis b) s = .next (bankReport b 1 0 (s.modBank b fun x => { x.quiet with st := .unrel })) := by
  rcases h with hst | hst <;> simp [exec, execRimDis, rimDis, hst]

theorem exec_rimDis_refused {b : Nat} {s : State} (hrel : (s.bank b).st ≠ .released) (hfault : (s.bank b).st ≠ .fault) :
    exec (.rimDis b) s = .next (bankReport b 1 6 s) := by
  cases hst : (s.bank b).st with
  | released => exact absurd hst hrel
  | fault => exact absurd hst hfault
  | _ => simp only [exec, execRimDis, rimDis, hst]

/-- Settles O26: each command is one guard over a bank's record, a RESULT and an event (`bankEvent`, `bankResultEvent`,
`bankReported`). -/
theorem banksFollowPower : Obligations.BanksFollowPower := by
  unfold Obligations.BanksFollowPower
  refine ⟨?good, ?goodIdle, ?lost, ?lostIdle, ?release, ?releaseRefused, ?disable, ?disableRefused⟩
  case good =>
    intro b mv strap s hst hmv
    have hexec : exec (.vccioGood b mv strap) s = .next (rimIoRaise 4 [b, 1, mv]
        (s.modBank b fun x => { x with st := .unrel, vccmv := mv, strap := strap, refused := 0 })) := by
      simp [exec, execVccioGood, vccioGood, hst, hmv]
    exact leads_of hexec (bankEvent b _ _ s (by decide))
  case goodIdle =>
    intro b mv strap s hidle
    simp only [exec, execVccioGood, vccioGood]
    rw [if_neg]
    rcases hidle with hst | hmv
    · simp [hst]
    · simp [not_le.2 hmv]
  case lost =>
    intro b mv s hst hmv
    have hexec : exec (.vccioLost b mv) s = .next (rimIoRaise 4 [b, 0, mv]
        (s.modBank b fun x => { x.quiet with st := .off, vccmv := mv, refused := 0 })) := by
      simp [exec, execVccioLost, vccioLost, hst, hmv]
    exact leads_of hexec (bankEvent b _ _ s (by decide))
  case lostIdle =>
    intro b mv s hidle
    simp only [exec, execVccioLost, vccioLost]
    rw [if_pos (by simpa using hidle)]
  case release =>
    intro b s hst hbase hvcc
    have hexec : exec (.rimRel b) s =
        .next (s.modBank b fun x => { x with st := .check, open_ := 0, short := 0, refused := 0 }) := by
      simp [exec, execRimRel, rimRel, hst, hbase, hvcc]
    exact leads_of hexec ⟨by simp, fun d hd => State.bank_modBank_ne _ _ hd, rfl, rfl, rfl, rfl, onlyFields.refl _ _⟩
  case releaseRefused =>
    intro b x s hwhy
    exact leads_of (exec_rimRel_refused hwhy) (bankReported b s (by omega))
  case disable =>
    intro b s hst
    exact leads_of (exec_rimDis_of_on hst) (bankResultEvent b _ _ s (by decide) (by decide))
  case disableRefused =>
    intro b s hrel hfault
    exact leads_of (exec_rimDis_refused hrel hfault) (bankReported b s (by decide))

/-! ### Keys and wires (R368, R373 to R375) -/

theorem keyRefusal_refused {b r : Nat} {key : BitVec 2} {s : State}
    (h : key = 2#2 ∧ r = 3 ∨ key = 3#2 ∧ nbit (s.bankFrame b) 771 = true ∧ r = 4 ∨ key = 0#2 ∧ r = 5) :
    s.keyRefusal b key.toNat = some r := by
  rcases h with ⟨rfl, rfl⟩ | ⟨rfl, hkey, rfl⟩ | ⟨rfl, rfl⟩
  · rfl
  · exact if_pos hkey
  · rfl

theorem keyRefusal_accepted {b : Nat} {key : BitVec 2} {s : State}
    (h : key = 1#2 ∨ key = 3#2 ∧ nbit (s.bankFrame b) 771 = false) : s.keyRefusal b key.toNat = none := by
  rcases h with rfl | ⟨rfl, hkey⟩
  · rfl
  · exact if_neg (by simp [hkey])

/-- A bank that its check releases (R375). -/
def Bank.checked (key openMask : Nat) (x : Bank) : Bank :=
  { x with st := .released, key := key, open_ := openMask, short := 0, refused := 0 }

/-- A bank that its check releases, with RIM_IO_OPEN where a pin of EXPECT is open (R374). -/
def bankOpened (b key openMask : Nat) (s : State) : State :=
  if openMask &&& nbits (s.bankFrame b) 800 48 = 0 then s.modBank b (Bank.checked key openMask)
  else rimIoRaise 2 ([b] ++ w64 openMask) (s.modBank b (Bank.checked key openMask))

theorem bankChecked_accepted {b key openMask : Nat} {s : State} (hst : (s.bank b).st = .check) (h : s.keyRefusal b key = none) :
    bankChecked b key openMask s = bankReport b 0 0 (bankOpened b key openMask s) := by
  simp only [bankChecked, hst, h, bankOpened]
  rfl

theorem bankOpened_leaves (b key openMask : Nat) (s : State) :
    (bankOpened b key openMask s).bank b = Bank.checked key openMask (s.bank b) ∧
      (∀ d, d ≠ b → (bankOpened b key openMask s).bank d = s.bank d) ∧ (bankOpened b key openMask s).seq = s.seq ∧
      (bankOpened b key openMask s).mem = s.mem ∧ onlyFields [F.RIM_IOSTAT_RESULT b, F.RIM_EVT_IO] s (bankOpened b key openMask s) ∧
      (openMask &&& nbits (s.bankFrame b) 800 48 ≠ 0 → nbit ((bankOpened b key openMask s).fget F.RIM_EVT_IO) 2 = true) := by
  unfold bankOpened
  split
  · next hnone => exact ⟨s.bank_modBank_same b _, fun d hd => s.bank_modBank_ne _ hd, rfl, rfl, onlyFields.refl _ s, fun h => absurd hnone h⟩
  · obtain ⟨hb, hd, hposted, -, hseq, hmem, honly⟩ :=
      bankEvent b (Bank.checked key openMask) ([b] ++ w64 openMask) s (k := 2) (by decide)
    exact ⟨hb, hd, hseq, hmem, honly.mono (by simp), fun _ => hposted.1⟩

theorem keySample_accepted {b key : Nat} {s : State} (hst : (s.bank b).st = .released) (h : s.keyRefusal b key = none) :
    keySample b key s = s.modBank b fun x => { x with key := key, refused := 0 } := by
  simp only [keySample, hst, h]
  rfl

theorem keySample_counted {b key r : Nat} {s : State} (hst : (s.bank b).st = .released) (h : s.keyRefusal b key = some r)
    (hrun : (s.bank b).refused + 1 < 3) :
    keySample b key s = s.modBank b fun x => { x with key := key, refused := x.refused + 1 } := by
  simp only [keySample, hst, h, if_pos hrun]
  rfl

theorem keySample_third {b key r : Nat} {s : State} (hst : (s.bank b).st = .released) (h : s.keyRefusal b key = some r)
    (hrun : 3 ≤ (s.bank b).refused + 1) : keySample b key s =
      rimIoRaise 1 [b, key, 4] (s.modBank b fun x => { x.quiet with st := .fault, key := key, refused := 0 }) := by
  simp only [keySample, hst, h, if_neg (not_lt.2 hrun)]
  rfl

/-- A change of one bank that raises nothing. -/
theorem bankChanged (b : Nat) (f : Bank → Bank) (s : State) : (s.modBank b f).bank b = f (s.bank b) ∧
    (∀ d, d ≠ b → (s.modBank b f).bank d = s.bank d) ∧ (s.modBank b f).evq = s.evq ∧ onlyFields [] s (s.modBank b f) ∧
      (s.modBank b f).seq = s.seq ∧ (s.modBank b f).mem = s.mem :=
  ⟨s.bank_modBank_same b f, fun _ hd => s.bank_modBank_ne f hd, rfl, onlyFields.refl _ s, rfl, rfl⟩

/-- Settles O27: a key code is refused as R373 lists (`keyRefusal_refused`), and each answer is a bank's record, a RESULT and an
event. -/
theorem banksCheckKeyAndWires : Obligations.BanksCheckKeyAndWires := by
  unfold Obligations.BanksCheckKeyAndWires
  refine ⟨?refused, ?accepted, ?checkIdle, ?sampleAccepted, ?sampleRefused, ?sampleIdle, ?short, ?shortIdle⟩
  case refused =>
    intro b r key m s hst hkey
    have hexec : exec (.bankCheckComplete b key m) s = .next (rimIoRaise 1 [b, key.toNat, 1]
        ((s.modBank b fun x => { x with st := .unrel, key := key.toNat }).fset (F.RIM_IOSTAT_RESULT b) r)) := by
      simp only [exec, execBankCheckComplete, bankChecked, hst, keyRefusal_refused hkey]
      rfl
    obtain ⟨hb, hd, hposted, hresult, -, hseq, hmem, honly⟩ := bankResultEvent (x := r) b
      (fun x => { x with st := .unrel, key := key.toNat }) [b, key.toNat, 1] s (k := 1) (by decide) (by omega)
    exact leads_of hexec ⟨hb, hd, hresult, hposted, hseq, hmem, honly⟩
  case accepted =>
    intro b key m s hst hkey
    have hexec : exec (.bankCheckComplete b key m) s = .next (bankReport b 0 0 (bankOpened b key.toNat m.toNat s)) :=
      congrArg _ (bankChecked_accepted hst (keyRefusal_accepted hkey))
    obtain ⟨hb, hd, hseq, hmem, honly, hopen⟩ := bankOpened_leaves b key.toNat m.toNat s
    obtain ⟨hposted, hresult, hrim, -, hseq', hmem', honly'⟩ :=
      bankReported (what := 0) (x := 0) b (bankOpened b key.toNat m.toNat s) (by decide)
    refine leads_of hexec ⟨?_, fun d hd' => ?_, hresult, hposted.1, fun hm => ?_, hseq'.trans hseq, hmem'.trans hmem,
      honly.trans honly'⟩
    · rw [State.bank, hrim]
      exact hb
    · rw [State.bank, hrim]
      exact hd d hd'
    · rw [bankReport, nbit_evtIo_rimIoRaise _ _ _ (by decide), if_neg (by decide),
        State.fget_fset_ne _ _ (rimIostatResult_ne_evtIo b).symm]
      exact hopen hm
  case checkIdle =>
    intro b key m s hst
    simp [exec, execBankCheckComplete, bankChecked, hst]
  case sampleAccepted =>
    intro b key s hst hkey
    exact leads_of (congrArg Host.Outcome.next (keySample_accepted hst (keyRefusal_accepted hkey))) (bankChanged b _ s)
  case sampleRefused =>
    intro b key s hst hkey
    have hrefused : ∃ r, s.keyRefusal b key.toNat = some r := by
      rcases hkey with hkey | hkey | hkey
      · exact ⟨3, keyRefusal_refused (.inl ⟨hkey, rfl⟩)⟩
      · exact ⟨5, keyRefusal_refused (.inr (.inr ⟨hkey, rfl⟩))⟩
      · exact ⟨4, keyRefusal_refused (.inr (.inl ⟨hkey.1, hkey.2, rfl⟩))⟩
    obtain ⟨r, hr⟩ := hrefused
    refine ⟨fun hrun => leads_of (congrArg Host.Outcome.next (keySample_counted hst hr hrun)) (bankChanged b _ s), fun hrun => ?_⟩
    obtain ⟨hb, hd, hposted, -, hseq, hmem, honly⟩ := bankEvent b
      (fun x => { x.quiet with st := .fault, key := key.toNat, refused := 0 }) [b, key.toNat, 4] s (k := 1) (by decide)
    exact leads_of (congrArg Host.Outcome.next (keySample_third hst hr hrun)) ⟨hb, hd, hposted, honly, hseq, hmem⟩
  case sampleIdle =>
    intro b key s hst
    simp [exec, execKeySample, keySample, hst]
  case short =>
    intro b pin level s hdrives hpin
    have hexec : exec (.rimIoShort b pin level) s = .next (rimIoRaise 3 [b, pin, level.toNat]
        (s.modBank b fun x => { x with short := putBit x.short pin true })) := by
      have hguard : (!((s.bank b).st == .released || (s.fbit F.DBG_STAT_EXTEST && (s.bank b).st != .off)) ||
          nbit (s.bank b).short pin) = false := by simpa [hpin, or_iff_not_imp_left] using hdrives
      simp only [exec, execRimIoShort, ioShort, hguard]
      rfl
    obtain ⟨hb, hd, hposted, -, hseq, hmem, honly⟩ := bankEvent b (fun x => { x with short := putBit x.short pin true })
      [b, pin, level.toNat] s (k := 3) (by decide)
    exact leads_of hexec ⟨by rw [hb], by rw [hb], hd, hposted, honly, hseq, hmem⟩
  case shortIdle =>
    intro b pin level s hidle
    have hguard : (!((s.bank b).st == .released || (s.fbit F.DBG_STAT_EXTEST && (s.bank b).st != .off)) ||
        nbit (s.bank b).short pin) = true := by
      rcases hidle with ⟨hst, hext | hoff⟩ | hpin
      · simp [hst, hext]
      · simp [hoff]
      · simp [hpin]
    simp only [exec, execRimIoShort, ioShort, hguard]
    rfl

end Sys2Proof.Machine
end

section
/-! Accesses of addresses that no register occupies (R606) and O54. -/
namespace Sys2Proof.Machine

/-- The blocks end below the bit aliases (R608, R619). -/
theorem isAlias_of_block {a : Nat} (h : blockOf a ≠ none) : isAlias a = false := by
  by_contra hal
  simp only [Bool.not_eq_false, isAlias, Bool.and_eq_true, decide_eq_true_eq] at hal
  refine h ?_
  simp only [blockOf]
  rw [if_neg (by omega), if_neg (by omega), if_neg (by omega)]

/-- A powered page of a block answers an aligned word that is no mailbox (R605, R606, R615). -/
theorem regRefusal_of_word {a : Nat} {s : State} (req : Requester) (hblock : blockOf a ≠ none) (halign : a % 4 = 0)
    (hmbx : isMbx a = false) (hpower : ∀ d, pageDomain a = some d → s.domOn d = true) : s.regRefusal req a 4 = none := by
  obtain ⟨b, hb⟩ := Option.ne_none_iff_exists'.1 hblock
  have hon : ((pageDomain a).map fun d => !s.domOn d) ≠ some true := by
    cases hd : pageDomain a with
    | none => simp
    | some d => simp [hpower d hd]
  simp [State.regRefusal, isAlias_of_block hblock, hb, halign, hmbx, hon]

/-- Outside the blocks and the aliases no register answers (R606). -/
theorem regRefusal_of_no_block {a size : Nat} {s : State} (req : Requester) (hblock : blockOf a = none) (hal : isAlias a = false) :
    s.regRefusal req a size = some (if req = .hif then 2 else 1) := by
  simp [State.regRefusal, hal, hblock]

theorem regRead_of_refused {req : Requester} {a size st : Nat} {s : State} (h : s.regRefusal req a size = some st) :
    regRead req a size s = (st, [], s) := by
  simp [regRead, h]

theorem regWrite_of_refused {req : Requester} {a size st : Nat} {s : State} (w : DWord) (h : s.regRefusal req a size = some st) :
    regWrite req a size w s = .ok (st, s) := by
  simp [regWrite, regWriteWith, h]

theorem exec_registerRead_of {req : Requester} {a size st : Nat} {bs : List Byte} {s t : State}
    (h : regRead req a size s = (st, bs, t)) : exec (.registerRead req a size) s = .next (readAnswer req st bs t) := by
  simp only [exec, execRegisterRead, regReadCmd, h]

theorem exec_registerWrite_of {req : Requester} {a size st : Nat} {w : DWord} {s t : State}
    (h : regWrite req a size w s = .ok (st, t)) : exec (.registerWrite req a size w) s = .next (writeAnswer req a st t) := by
  simp only [exec, execRegisterWrite, regWriteCmd, h]
  rfl

/-- A failed host write is counted and reported (R487, R512). -/
theorem hostWriteErr_reported (bar off st : Nat) (s : State) :
    let t := hostWriteErr bar off st s
    counted F.HIF_CNT_PWERR_COUNT s t ∧ posted F.HIF_EVT_PWERR 3 4 ([bar] ++ w64 off ++ [st]) s t ∧ t.out = s.out ∧ steady s t ∧
      onlyFields [F.HIF_CNT_PWERR_COUNT, F.HIF_EVT_PWERR] s t := by
  refine ⟨?_, posted_raise _ _ _ rfl rfl rfl rfl (s.fget_count_ne (by decide)), by simp [hostWriteErr], ?_, ?_⟩
  · exact (State.fget_raise_ne _ _ _ _ (by decide)).trans (s.fget_count_same _)
  · exact ⟨by simp [hostWriteErr], by simp [hostWriteErr], by simp [hostWriteErr]⟩
  · exact onlyFields_raise _ _ _ (onlyFields_count (onlyFields.refl _ s) (by simp)) (by simp)

/-- Settles O54: what answers before a register is `State.regRefusal` (`regRefusal_of_word`, `regRefusal_of_no_block`). -/
theorem unoccupiedAddresses : Obligations.UnoccupiedAddresses := by
  unfold Obligations.UnoccupiedAddresses
  refine ⟨?word, ?host, ?other⟩
  case word =>
    intro req a w s hblock halign hreg hmbx hmsix hpower
    have hanswers := regRefusal_of_word req hblock halign hmbx hpower
    have hal := isAlias_of_block hblock
    have hread : regRead req a 4 s = (0, [0, 0, 0, 0], s) := by
      simp [regRead, hanswers, hal, regReadWord, hmbx, hmsix, hreg]
      rfl
    have hwrite : regWrite req a 4 w s = .ok (0, s) := by
      simp [regWrite, regWriteWith, hanswers, hal, regWriteWord, hmbx, hmsix, hreg]
    rw [exec_registerRead_of hread, exec_registerWrite_of hwrite, readAnswer, writeAnswer]
    by_cases hreq : req = .hif
    · simp only [if_pos hreq]
      exact ⟨rfl, rfl⟩
    · simp only [if_neg hreq]
      exact ⟨rfl, rfl⟩
  case host =>
    intro a size w s hblock hal
    have hrefused := regRefusal_of_no_block (size := size) (s := s) .hif hblock hal
    refine ⟨leads_of (exec_registerRead_of (regRead_of_refused hrefused))
        ⟨rfl, s.fget_count_same _, rfl, ⟨rfl, rfl, rfl⟩, onlyFields_count (onlyFields.refl _ s) (List.mem_singleton.2 rfl)⟩,
      leads_of (exec_registerWrite_of (regWrite_of_refused w hrefused)) (hostWriteErr_reported 0 a 2 s)⟩
  case other =>
    intro req a size w s hreq hblock hal
    have hrefused := regRefusal_of_no_block (size := size) (s := s) req hblock hal
    rw [if_neg hreq] at hrefused
    rw [exec_registerRead_of (regRead_of_refused hrefused), exec_registerWrite_of (regWrite_of_refused w hrefused), readAnswer,
      writeAnswer, if_neg hreq, if_neg hreq, if_neg (by decide)]
    exact ⟨rfl, rfl⟩

end Sys2Proof.Machine
end

section
/-! Partition tokens and fuse programming (R536, R537, R543, R544, R550) and O53. -/
namespace Sys2Proof.Machine

/-! ### What a token's checks accept and refuse (R544) -/

/-- A token that passes every check names its partition, this device and an epoch not below the count, and no other slot holds its
partition. -/
theorem tokenCheck_accepted {s : State} {slot : Nat} {x : Token} (h : s.tokenCheck slot = .inl x) :
    x.part = leAt s.tokenBytes 4 4 ∧ leAt s.tokenBytes 8 8 = s.serial ∧ s.epochCount ≤ x.epoch ∧
      ∀ k, k < 16 → k ≠ slot → ∀ y, s.token k = some y → y.part ≠ x.part := by
  simp only [State.tokenCheck] at h
  split at h
  · cases h
  split at h
  · cases h
  next hserial =>
  split at h
  · cases h
  next hepoch =>
  split at h
  · cases h
  split at h
  · cases h
  next hpart =>
  split at h
  · cases h
  cases h
  refine ⟨rfl, not_not.1 hserial, not_lt.1 hepoch, fun k hk hne y hy heq => hpart ?_⟩
  exact List.any_eq_true.2 ⟨k, List.mem_range.2 hk, by simp [hne, hy, heq]⟩

/-- A refusal fits RESULT. -/
theorem tokenCheck_refused {s : State} {slot r : Nat} (h : s.tokenCheck slot = .inr r) : r < 256 := by
  simp only [State.tokenCheck] at h
  split at h
  · cases h; decide
  split at h
  · cases h; decide
  split at h
  · cases h; decide
  split at h
  · cases h; decide
  split at h
  · cases h; decide
  split at h
  · cases h; decide
  · cases h

/-- MAGIC is checked first. -/
theorem tokenCheck_of_magic {s : State} (slot : Nat) (h : leAt s.tokenBytes 0 4 ≠ 0x544B4B49) : s.tokenCheck slot = .inr 1 :=
  if_pos (.inl h)

/-! ### The report of a token (R544, R555) -/

/-- The registers that a token's load or unload writes. -/
def tokenFields : List Fld := [F.SEC_TOKCTL_SLOT, F.SEC_TOKCTL_RESULT, F.SEC_EVT_TOKEN]

/-- A report of a token, after a change of the tokens or of the free values alone. -/
theorem tokenReported {slot part what r : Nat} {s u : State} (hslot : slot < 16) (hr : r < 256) (hfields : u.fields = s.fields)
    (hevq : u.evq = s.evq) (hseq : u.seq = s.seq) (htime : u.ptime = s.ptime) (hcl : u.clauses = s.clauses)
    (hmem : u.mem = s.mem) :
    let t := tokenReport slot part what r u
    t.sec = u.sec ∧ t.fget F.SEC_TOKCTL_RESULT = r ∧ t.fget F.SEC_TOKCTL_SLOT = slot ∧
      posted F.SEC_EVT_TOKEN 1 1 [slot, part, what, r] s t ∧ steady s t ∧ onlyFields tokenFields s t := by
  have honly : onlyFields [F.SEC_TOKCTL_SLOT, F.SEC_TOKCTL_RESULT] s
      ((u.fset F.SEC_TOKCTL_SLOT slot).fset F.SEC_TOKCTL_RESULT r) :=
    ((onlyFields_to (onlyFields.refl _ s) hfields).fset (by simp) slot).fset (by simp) r
  refine ⟨by simp [tokenReport], ?_, ?_, ?_, ?_, ?_⟩
  · rw [tokenReport, State.fget_raise_ne _ _ _ _ (by decide), State.fget_fset_same]
    exact Nat.mod_eq_of_lt hr
  · rw [tokenReport, State.fget_raise_ne _ _ _ _ (by decide), State.fget_fset_ne _ _ (by decide), State.fget_fset_same]
    exact Nat.mod_eq_of_lt hslot
  · exact posted_raise _ _ _ rfl hevq (congrArg Seq.step hseq) htime (honly _ (by decide))
  · exact ⟨by simp [tokenReport, hseq], by simp [tokenReport, hcl], by simp [tokenReport, hmem]⟩
  · exact (honly.mono (by simp [tokenFields])).raise (by simp [tokenFields]) _ _ _

/-- The tokens with one slot written. -/
def State.withToken (s : State) (slot : Nat) (x : Option Token) : State :=
  { s with sec := { s.sec with tokens := kvSet none s.sec.tokens slot x } }

theorem token_of_sec {s u : State} (h : u.sec = s.sec) (k : Nat) : u.token k = s.token k := by rw [State.token, State.token, h]

theorem token_withToken_same (s : State) (slot : Nat) (x : Option Token) : (s.withToken slot x).token slot = x := by
  simp [State.token, State.withToken, kvGet_kvSet]

theorem token_withToken_ne (s : State) {slot k : Nat} (x : Option Token) (h : k ≠ slot) :
    (s.withToken slot x).token k = s.token k := by
  simp [State.token, State.withToken, kvGet_kvSet, h]

theorem exec_tokenLoad_accepted {slot : Nat} {x : Token} {s : State} (h : s.tokenCheck slot = .inl x) :
    exec (.tokenLoad slot) s = .next (tokenReport slot x.part 0 0 (s.withToken slot (some x))) := by
  simp only [exec, execTokenLoad, tokenLoad, h]
  rfl

theorem exec_tokenLoad_refused {slot r : Nat} {s : State} (h : s.tokenCheck slot = .inr r) :
    exec (.tokenLoad slot) s = .next (tokenReport slot (leAt s.tokenBytes 4 4) 2 r s) := by
  simp only [exec, execTokenLoad, tokenLoad, h]

theorem exec_tokenUnload_held {slot : Nat} {x : Token} {s : State} (h : s.token slot = some x) :
    exec (.tokenUnload slot) s = .next (tokenReport slot x.part 1 0 (s.withToken slot none)) := by
  simp only [exec, execTokenUnload, tokenUnload, h]
  rfl

theorem exec_tokenUnload_empty {slot : Nat} {s : State} (h : s.token slot = none) :
    exec (.tokenUnload slot) s = .next (tokenReport slot s.freshNat.1 2 6 s.freshNat.2) := by
  simp only [exec, execTokenUnload, tokenUnload, h]

/-! ### Fuse programming (R537, R550) -/

/-- The report of a fuse programming (R537). -/
def fuseReport (word r path : Nat) (s : State) : State :=
  (s.fset F.SEC_FUSEPGM_RESULT r).raise F.SEC_EVT_FUSE 1 2 [word, r, path]

/-- The registers that a fuse programming writes and its report. -/
def fuseFields : List Fld := [F.SEC_FUSEPGM_WORD, F.SEC_FUSEPGM_RESULT, F.SEC_EVT_FUSE]

/-- The report of a programming, after a write of WORD and a change outside the registers and the records. -/
theorem fuseReported {word r path : Nat} {s u : State} (hword : word < 128) (hr : r < 256)
    (hfields : u.fields = (s.fset F.SEC_FUSEPGM_WORD word).fields) (hevq : u.evq = s.evq) (hseq : u.seq = s.seq)
    (htime : u.ptime = s.ptime) (hcl : u.clauses = s.clauses) (hmem : u.mem = s.mem) :
    let t := fuseReport word r path u
    t.sec = u.sec ∧ t.fget F.SEC_FUSEPGM_RESULT = r ∧ t.fget F.SEC_FUSEPGM_WORD = word ∧
      posted F.SEC_EVT_FUSE 1 2 [word, r, path] s t ∧ steady s t ∧ onlyFields fuseFields s t := by
  have honly : onlyFields [F.SEC_FUSEPGM_WORD, F.SEC_FUSEPGM_RESULT] s (u.fset F.SEC_FUSEPGM_RESULT r) :=
    (onlyFields_to ((onlyFields.refl _ s).fset (by simp) word) hfields).fset (by simp) r
  refine ⟨by simp [fuseReport], ?_, ?_, ?_, ?_, ?_⟩
  · rw [fuseReport, State.fget_raise_ne _ _ _ _ (by decide), State.fget_fset_same]
    exact Nat.mod_eq_of_lt hr
  · have hnamed : u.fget F.SEC_FUSEPGM_WORD = word := by
      rw [State.fget, hfields]
      exact ((s.fget_fset_same F.SEC_FUSEPGM_WORD word).trans (Nat.mod_eq_of_lt hword))
    rw [fuseReport, State.fget_raise_ne _ _ _ _ (by decide), State.fget_fset_ne _ _ (by decide), hnamed]
  · exact posted_raise _ _ _ rfl hevq (congrArg Seq.step hseq) htime (honly _ (by decide))
  · exact ⟨by simp [fuseReport, hseq], by simp [fuseReport, hcl], by simp [fuseReport, hmem]⟩
  · exact (honly.mono (by simp [fuseFields])).raise (by simp [fuseFields]) _ _ _

/-- The bits that FUSEDATA requests. -/
def State.fuseData (s : State) : Word := BitVec.ofNat 32 (s.fget F.SEC_FUSEDATA_DATA)

theorem getLsbD_fuseData (s : State) {b : Nat} (hb : b < 32) :
    s.fuseData.getLsbD b = nbit (s.fget F.SEC_FUSEDATA_DATA) b := by
  rw [State.fuseData, BitVec.getLsbD_ofNat, decide_eq_true hb, Bool.true_and, nbit_eq_testBit]

/-- The bits that a programming sets: those requested, or, after a read-back mismatch, some of them. -/
def State.fuseSets (s : State) (ok : Bool) : Word := if ok then s.fuseData else s.fuseData &&& s.fresh.1.setWidth 32

theorem fuseSets_requested {s : State} {ok : Bool} {b : Nat} (h : (s.fuseSets ok).getLsbD b = true) :
    s.fuseData.getLsbD b = true := by
  unfold State.fuseSets at h
  split at h
  · exact h
  · rw [BitVec.getLsbD_and, Bool.and_eq_true] at h
    exact h.1

/-- The device with the requested bits of a fuse word set and WORD written, before the report. -/
def fuseSet (word : Nat) (ok : Bool) (s : State) : State :=
  let u := s.fset F.SEC_FUSEPGM_WORD word
  { (if ok then u else u.fresh.2) with
    sec := { s.sec with fuses := kvSet (fuseDflt word) s.sec.fuses word (s.fuseWord word ||| s.fuseSets ok) } }

theorem fuseWord_fuseSet (word w : Nat) (ok : Bool) (s : State) :
    (fuseSet word ok s).fuseWord w = if w = word then s.fuseWord word ||| s.fuseSets ok else s.fuseWord w := by
  unfold State.fuseWord fuseSet
  by_cases h : w = word
  · subst h
    simp [kvGet_kvSet, State.fuseWord]
  · rw [if_neg h]
    exact kvGet_kvSet_ne _ _ _ _ h

/-- A fuse word's bits after the programming: those of before and those set. -/
theorem getLsbD_fuseSet {word : Nat} (ok : Bool) (s : State) (b : Nat) :
    ((fuseSet word ok s).fuseWord word).getLsbD b = ((s.fuseWord word).getLsbD b || (s.fuseSets ok).getLsbD b) := by
  rw [fuseWord_fuseSet, if_pos rfl, BitVec.getLsbD_or]

theorem fuseProgram_locked {req : Requester} {word path : Nat} {ok : Bool} {s : State} (hpath : s.fusePath req = some path)
    (h : ∃ b, b < 32 ∧ nbit (s.fget F.SEC_FUSEDATA_DATA) b = true ∧ s.fuseLocked word b = true) :
    fuseProgram req word ok s = fuseReport word 1 path (s.fset F.SEC_FUSEPGM_WORD word) := by
  obtain ⟨b, hb, hreq, hlocked⟩ := h
  have hany : ((List.range 32).any fun b => s.fuseData.getLsbD b && s.fuseLocked word b) = true :=
    List.any_eq_true.2 ⟨b, List.mem_range.2 hb, by rw [getLsbD_fuseData s hb, hreq, hlocked]; rfl⟩
  simp only [fuseProgram, hpath]
  exact if_pos hany

theorem fuseProgram_open {req : Requester} {word path : Nat} {ok : Bool} {s : State} (hpath : s.fusePath req = some path)
    (h : ∀ b, b < 32 → nbit (s.fget F.SEC_FUSEDATA_DATA) b = true → s.fuseLocked word b = false) :
    fuseProgram req word ok s =
      let t := fuseReport word (if ok then 0 else 2) path (fuseSet word ok s)
      if s.epochCount < t.epochCount then epochErase t else t := by
  have hany : ¬ ((List.range 32).any fun b => s.fuseData.getLsbD b && s.fuseLocked word b) = true := by
    simp only [List.any_eq_true, List.mem_range, Bool.and_eq_true, not_exists, not_and]
    rintro b hb hreq
    rw [getLsbD_fuseData s hb] at hreq
    simp [h b hb hreq]
  simp only [fuseProgram, hpath]
  refine (if_neg hany).trans ?_
  cases ok <;> rfl

/-- The tokens of the slots of a list that fail a test are erased. -/
theorem kvGet_foldl_erased (gone : Nat → Bool) (l : List Nat) : ∀ (m : Kv (Option Token)) (k : Nat),
    kvGet none (l.foldl (fun m k => if gone k then kvSet none m k none else m) m) k =
      if k ∈ l ∧ gone k = true then none else kvGet none m k := by
  induction l with
  | nil => simp
  | cons j l ih =>
    intro m k
    rw [List.foldl_cons, ih]
    by_cases hj : gone j = true
    · by_cases hk : k = j
      · subst hk
        simp [hj, kvGet_kvSet]
      · simp [hj, kvGet_kvSet, hk]
    · by_cases hk : k = j
      · subst hk
        simp [hj]
      · simp [hj, hk]

/-- After an erasure a slot holds its token unless the token's epoch lies below the count (R550). -/
theorem token_epochErase {s : State} {k : Nat} (hk : k < 16) : (epochErase s).token k =
    (s.token k).bind fun x => if x.epoch < s.epochCount then none else some x := by
  have hsec : (epochErase s).token k = kvGet none ((List.range 16).foldl
      (fun m k => if ((s.token k).map fun t => decide (t.epoch < s.epochCount)).getD false then kvSet none m k none else m)
      s.sec.tokens) k := by
    rw [epochErase, State.token, State.sec_raise]
  rw [hsec, kvGet_foldl_erased]
  change (if _ then none else s.token k) = _
  cases htok : s.token k with
  | none => simp
  | some x => simp [hk]

theorem epochErase_leaves (s : State) : (epochErase s).sec.fuses = s.sec.fuses ∧ steady s (epochErase s) ∧
    (epochErase s).fget F.SEC_EVT_EPOCH = 1 ∧ onlyFields [F.SEC_EVT_EPOCH] s (epochErase s) := by
  refine ⟨by simp [epochErase], ⟨by simp [epochErase], by simp [epochErase], by simp [epochErase]⟩, by simp [epochErase], ?_⟩
  exact onlyFields_raise _ _ _ (onlyFields.refl _ s) (List.mem_singleton.2 rfl)

theorem fuseWord_of_fuses {s u : State} (h : u.sec.fuses = s.sec.fuses) (w : Nat) : u.fuseWord w = s.fuseWord w := by
  rw [State.fuseWord, State.fuseWord, h]

theorem epochCount_of_fuses {s u : State} (h : u.sec.fuses = s.sec.fuses) : u.epochCount = s.epochCount := by
  simp only [State.epochCount, State.fuseByte, fuseWord_of_fuses h]

/-- A state whose fuses are those of a programming holds the bits of before, the requested ones at most besides, and all of them
where the read-back agrees (R537). -/
theorem fuseBits_programmed {word : Nat} {ok : Bool} {s t : State} (h : t.sec.fuses = (fuseSet word ok s).sec.fuses) :
    (∀ b, b < 32 → (s.fuseWord word).getLsbD b = true → (t.fuseWord word).getLsbD b = true) ∧
      (∀ b, b < 32 → (t.fuseWord word).getLsbD b = true → (s.fuseWord word).getLsbD b = true ∨
        nbit (s.fget F.SEC_FUSEDATA_DATA) b = true) ∧
      (ok = true → ∀ b, b < 32 → nbit (s.fget F.SEC_FUSEDATA_DATA) b = true → (t.fuseWord word).getLsbD b = true) ∧
      ∀ w, w ≠ word → t.fuseWord w = s.fuseWord w := by
  have hbit : ∀ b, (t.fuseWord word).getLsbD b = ((s.fuseWord word).getLsbD b || (s.fuseSets ok).getLsbD b) := fun b => by
    rw [fuseWord_of_fuses h, getLsbD_fuseSet]
  refine ⟨fun b _ hold => by rw [hbit, hold, Bool.true_or], fun b hb hnew => ?_, fun hok b hb hreq => ?_, fun w hw => ?_⟩
  · rw [hbit, Bool.or_eq_true] at hnew
    exact hnew.imp_right fun hset => (getLsbD_fuseData s hb).symm.trans (fuseSets_requested hset)
  · rw [hbit, State.fuseSets, if_pos hok, getLsbD_fuseData s hb, hreq, Bool.or_true]
  · rw [fuseWord_of_fuses h, fuseWord_fuseSet, if_neg hw]

theorem fuseSet_leaves (word : Nat) (ok : Bool) (s : State) : (fuseSet word ok s).fields = (s.fset F.SEC_FUSEPGM_WORD word).fields ∧
    (fuseSet word ok s).evq = s.evq ∧ (fuseSet word ok s).seq = s.seq ∧ (fuseSet word ok s).ptime = s.ptime ∧
      (fuseSet word ok s).clauses = s.clauses ∧ (fuseSet word ok s).mem = s.mem ∧
      (fuseSet word ok s).sec.tokens = s.sec.tokens := by
  cases ok <;> exact ⟨rfl, rfl, rfl, rfl, rfl, rfl, rfl⟩

/-- Settles O53: a token is written where `State.tokenCheck` passes it; a programming ORs the bits it sets into one fuse word
(`getLsbD_fuseSet`) and erases the tokens below a count that rose (`token_epochErase`). -/
theorem tokensAndFuses : Obligations.TokensAndFuses := by
  unfold Obligations.TokensAndFuses
  refine ⟨?load, ?unload, ?unloadEmpty, ?noPath, ?locked, ?program⟩
  case load =>
    intro slot s hslot
    cases hcheck : s.tokenCheck slot with
    | inl x =>
      obtain ⟨hpart, hserial, hepoch, hother⟩ := tokenCheck_accepted hcheck
      obtain ⟨hsec, hresult, hslot', hposted, hsteady, honly⟩ := tokenReported (part := x.part) (what := 0) (r := 0) (s := s)
        (u := s.withToken slot (some x)) hslot (by decide) rfl rfl rfl rfl rfl rfl
      refine leads_of (exec_tokenLoad_accepted hcheck) ⟨⟨?_, hpart, hserial, hepoch, hother, hresult, hposted⟩, fun hmagic => ?_,
        fun k hk => ?_, hslot', hsteady, honly⟩
      · exact (token_of_sec hsec slot).trans (token_withToken_same s slot _)
      · rw [tokenCheck_of_magic slot hmagic] at hcheck
        cases hcheck
      · exact (token_of_sec hsec k).trans (token_withToken_ne s _ hk)
    | inr r =>
      obtain ⟨hsec, hresult, hslot', hposted, hsteady, honly⟩ := tokenReported (part := leAt s.tokenBytes 4 4) (what := 2)
        (s := s) (u := s) hslot (tokenCheck_refused hcheck) rfl rfl rfl rfl rfl rfl
      refine leads_of (exec_tokenLoad_refused hcheck) ⟨⟨hsec, hresult, hposted⟩, fun hmagic => ⟨hsec, ?_⟩,
        fun k _ => token_of_sec hsec k, hslot', hsteady, honly⟩
      rw [tokenCheck_of_magic slot hmagic] at hcheck
      cases hcheck
      exact hresult
  case unload =>
    intro slot x s hslot hheld
    obtain ⟨hsec, hresult, hslot', hposted, hsteady, honly⟩ := tokenReported (part := x.part) (what := 1) (r := 0) (s := s)
      (u := s.withToken slot none) hslot (by decide) rfl rfl rfl rfl rfl rfl
    exact leads_of (exec_tokenUnload_held hheld) ⟨(token_of_sec hsec slot).trans (token_withToken_same s slot _),
      fun k hk => (token_of_sec hsec k).trans (token_withToken_ne s _ hk), hresult, hslot', hposted, hsteady, honly⟩
  case unloadEmpty =>
    intro slot s hslot hempty
    obtain ⟨hsec, hresult, hslot', hposted, hsteady, honly⟩ := tokenReported (part := s.freshNat.1) (what := 2) (r := 6) (s := s)
      (u := s.freshNat.2) hslot (by decide) rfl rfl rfl rfl rfl rfl
    exact leads_of (exec_tokenUnload_empty hempty) ⟨hsec, hresult, hslot', ⟨_, hposted⟩, hsteady, honly⟩
  case noPath =>
    intro req word ok s hpath
    simp only [exec, execFuseProgram, fuseProgram, hpath]
  case locked =>
    intro req word path ok s hword hpath hlocked
    obtain ⟨hsec, hresult, hnamed, hposted, hsteady, honly⟩ := fuseReported (r := 1) (path := path) (s := s)
      (u := s.fset F.SEC_FUSEPGM_WORD word) hword (by decide) rfl rfl rfl rfl rfl rfl
    exact leads_of (congrArg Host.Outcome.next (fuseProgram_locked hpath hlocked)) ⟨hsec, hresult, hnamed, hposted, hsteady, honly⟩
  case program =>
    intro req word path ok s hword hpath hopen
    obtain ⟨hfields, hevq, hseq, htime, hcl, hmem, htokens⟩ := fuseSet_leaves word ok s
    obtain ⟨hsec, hresult, hnamed, hposted, hsteady, honly⟩ := fuseReported (r := if ok then 0 else 2) (path := path) hword
      (by split <;> decide) hfields hevq hseq htime hcl hmem
    have hexec : exec (.fuseProgram req word ok) s = .next _ := congrArg Host.Outcome.next (fuseProgram_open hpath hopen)
    set u := fuseReport word (if ok then 0 else 2) path (fuseSet word ok s)
    have honly' : onlyFields [F.SEC_FUSEPGM_WORD, F.SEC_FUSEPGM_RESULT, F.SEC_EVT_FUSE, F.SEC_EVT_EPOCH] s u :=
      honly.mono (by simp [fuseFields])
    by_cases hrise : s.epochCount < u.epochCount
    · rw [if_pos hrise] at hexec
      obtain ⟨hfuses, ⟨hseq', hcl', hmem'⟩, hepoch, honlyE⟩ := epochErase_leaves u
      have hcount : (epochErase u).epochCount = u.epochCount := epochCount_of_fuses hfuses
      obtain ⟨hkeep, hnew, hall, hwords⟩ := fuseBits_programmed (t := epochErase u) (hfuses.trans (congrArg Sec.fuses hsec))
      refine leads_of hexec ⟨hkeep, hnew, hall, hwords, ?_, ?_, ?_, ?_, ?_, ?_⟩
      · exact (honlyE _ (by decide)).trans hresult
      · exact (honlyE _ (by decide)).trans hnamed
      · exact (honlyE _ (by decide)).trans hposted.1
      · rw [if_neg (by omega)]
        refine ⟨hepoch, fun k hk => ?_⟩
        have htoken : u.token k = s.token k := by rw [State.token, State.token, hsec, htokens]
        rw [token_epochErase hk, htoken, hcount]
        cases s.token k <;> rfl
      · obtain ⟨hseqR, hclR, hmemR⟩ := hsteady
        exact ⟨hseq'.trans hseqR, hcl'.trans hclR, hmem'.trans hmemR⟩
      · exact honly'.trans (honlyE.mono (by simp))
    · rw [if_neg hrise] at hexec
      obtain ⟨hkeep, hnew, hall, hwords⟩ := fuseBits_programmed (t := u) (congrArg Sec.fuses hsec)
      refine leads_of hexec ⟨hkeep, hnew, hall, hwords, hresult, hnamed, hposted.1, ?_, hsteady, honly'⟩
      rw [if_pos (not_lt.1 hrise)]
      exact ⟨hposted, (congrArg Sec.tokens hsec).trans htokens⟩

end Sys2Proof.Machine
end

section
/-! A line of 64 bytes that the capture drain stores in HBM (R223, R226, R392). -/
namespace Sys2Proof.Machine

/-! ### The bytes of a store, wherever its page lies (R226) -/

section
variable {s : State} {a : Nat} {bs : List Byte}

/-- A store leaves what none of its bytes goes to. -/
theorem memGet_store_of_ne {x : Nat} (hx : ∀ i, i < bs.length → s.phys (a + i) ≠ x) :
    memGet (s.store a bs).mem x = memGet s.mem x := by
  induction bs generalizing a s with
  | nil => rfl
  | cons b bs ih =>
    have hrest : ∀ i, i < bs.length → (s.storeByte a b).phys (a + 1 + i) ≠ x := fun i hi => by
      rw [Nat.add_assoc, Nat.add_comm 1]
      exact hx (i + 1) (by simpa using hi)
    refine (ih hrest).trans ?_
    show memGet (memPut s.mem (s.phys a) b) x = _
    have hfirst : s.phys a ≠ x := hx 0 (by simp)
    rw [memGet_memPut, if_neg hfirst.symm]

/-- Bytes that go to different places are held after their store. -/
theorem bytes_store_of_injective (hinj : ∀ i j, i < bs.length → j < bs.length → s.phys (a + i) = s.phys (a + j) → i = j) :
    (s.store a bs).bytes a bs.length = bs := by
  have hget : ∀ i, (hi : i < bs.length) → memGet (s.store a bs).mem (s.phys (a + i)) = bs[i] := by
    induction bs generalizing a s with
    | nil => exact fun i hi => absurd hi (Nat.not_lt_zero i)
    | cons b bs ih =>
      intro i hi
      have hshift : ∀ j, a + (j + 1) = a + 1 + j := fun j => by omega
      cases i with
      | zero =>
        have hne : ∀ j, j < bs.length → (s.storeByte a b).phys (a + 1 + j) ≠ s.phys (a + 0) := fun j hj heq =>
          absurd (hinj (j + 1) 0 (by simpa using hj) (by simp) (by rw [hshift]; exact heq)) (by omega)
        refine (memGet_store_of_ne (s := s.storeByte a b) hne).trans ?_
        show memGet (memPut s.mem (s.phys a) b) (s.phys (a + 0)) = b
        rw [memGet_memPut, Nat.add_zero, if_pos rfl]
      | succ i =>
        rw [hshift]
        refine ih (s := s.storeByte a b) (fun j k hj hk heq => ?_) i (by simpa using hi)
        have hjk := hinj (j + 1) (k + 1) (by simpa using hj) (by simpa using hk) (by rw [hshift j, hshift k]; exact heq)
        omega
  obtain ⟨m, hm⟩ := store_mem_only s a bs
  refine List.ext_getElem (by simp [State.bytes]) fun i _ hi => ?_
  have hphys : (s.store a bs).phys (a + i) = s.phys (a + i) := by
    rw [hm]
    rfl
  rw [← hget i hi]
  simp only [State.bytes, List.getElem_map, List.getElem_range, State.byteAt, hphys]

/-- The mark of a word is no byte of it. -/
theorem setMark_store (b v : Nat) : (s.setMark b v).store a bs = (s.store a bs).setMark b v := by
  induction bs generalizing a s with
  | nil => rfl
  | cons c bs ih => exact ih (s := s.storeByte a c)

end

/-- Addresses of one 64-byte line of HBM lie in one page, so their bytes lie at different places (R226). -/
theorem phys_line_injective {s : State} {a i j : Nat} (ha : isHbm a = true) (hline : a % 64 = 0) (hi : i < 64) (hj : j < 64)
    (h : s.phys (a + i) = s.phys (a + j)) : i = j := by
  have hbounds : 0x001000000000 ≤ a ∧ a < 0x002800000000 := by simpa [isHbm] using ha
  have hplace : ∀ k, k < 64 → s.phys (a + k) = s.phys a + k := by
    intro k hk
    have hin : isHbm (a + k) = true := by
      simp only [isHbm, Bool.and_eq_true, decide_eq_true_eq]
      omega
    have hstack : hbmStack (a + k) = hbmStack a := by unfold hbmStack; omega
    have hpage : hbmPage (a + k) = hbmPage a := by unfold hbmPage; omega
    simp only [State.phys, hin, ha, hstack, hpage]
    cases kvGet none s.umem.hbmRet (hbmStack a * 6291456 + hbmPage a) with
    | none => simp
    | some p =>
      have hlow : (a + k) % 4096 = a % 4096 + k := by omega
      simp [hlow, Nat.add_assoc]
  rw [hplace i hi, hplace j hj] at h
  omega

/-- The device with a line of two bursts stored and their marks cleared. -/
def lineStored (a : Nat) (bs : List Byte) (s : State) : State := ((s.store a bs).setMark a 0).setMark (a + 32) 0

/-- A write of a whole line replaces its two bursts, whatever their marks were (R223). -/
theorem portWrite_line {kind a : Nat} {bs : List Byte} {s : State} (ha : isHbm a = true) (hline : a % 64 = 0)
    (hlen : bs.length = 64) : portWrite kind a bs s = (true, lineStored a bs s) := by
  have hpieces : memPieces a 64 = [(a, 32), (a + 32, 32)] := by
    have hword : a % 32 = 0 := by omega
    simp [memPieces, wordBase, hword, List.range_succ]
  rw [portWrite, lexWait, lexBanks_of_isHbm _ ha]
  have hfirst : (bs.take 32).length = 32 := by rw [List.length_take]; omega
  have hsecond : ((bs.drop 32).take 32).length = 32 := by rw [List.length_take, List.length_drop]; omega
  have hwhole : ∀ (b : Nat) (cs : List Byte) (u : State), cs.length = 32 → userWrite (0x100 + kind) b cs u = (u.store b cs).setMark b 0 :=
    fun b cs u hcs => by
      rw [userWrite, hcs]
      exact setMark_store b 0
  have hall : bs.take 32 ++ (bs.drop 32).take 32 = bs := by
    rw [List.take_of_length_le (l := bs.drop 32) (by rw [List.length_drop]; omega), List.take_append_drop]
  have hfold : nocWrite kind a bs s =
      (true, userWrite (0x100 + kind) (a + 32) ((bs.drop 32).take 32) (userWrite (0x100 + kind) a (bs.take 32) s)) := by
    simp [nocWrite, hlen, hpieces]
  have hsplit : s.store a bs = (s.store a (bs.take 32)).store (a + 32) ((bs.drop 32).take 32) := by
    conv_lhs => rw [← hall, store_append, hfirst]
  show nocWrite kind a bs s = _
  rw [hfold, hwhole _ _ _ hfirst, hwhole _ _ _ hsecond, setMark_store, lineStored, hsplit]

/-- A line that is stored reads back, and every byte elsewhere stands. -/
theorem lineStored_bytes {a : Nat} {bs : List Byte} {s : State} (ha : isHbm a = true) (hline : a % 64 = 0) (hlen : bs.length = 64) :
    (lineStored a bs s).bytes a 64 = bs ∧
      ∀ x, (∀ i, i < 64 → s.phys (a + i) ≠ x) → memGet (lineStored a bs s).mem x = memGet s.mem x := by
  refine ⟨?_, fun x hx => memGet_store_of_ne (hlen ▸ hx)⟩
  have hstore : (s.store a bs).bytes a bs.length = bs :=
    bytes_store_of_injective fun i j hi hj h => phys_line_injective ha hline (hlen ▸ hi) (hlen ▸ hj) h
  rw [hlen] at hstore
  exact hstore

/-- A stored line changes memory and its marks alone. -/
theorem lineStored_eq (a : Nat) (bs : List Byte) (s : State) :
    ∃ m u, lineStored a bs s = { s with mem := m, umem := u } := by
  obtain ⟨m, hm⟩ := store_mem_only s a bs
  exact ⟨m, _, by rw [lineStored, hm]; rfl⟩

end Sys2Proof.Machine
end

section
/-! The two trace streams (R387 to R400) and O38. -/
namespace Sys2Proof.Machine

theorem length_leBytes (n w : Nat) : (leBytes n w).length = n := by
  induction n generalizing w with
  | zero => rfl
  | succ n ih => rw [leBytes, List.length_cons, ih]

@[simp] theorem State.fget_modSig (s : State) (f : SigCap → SigCap) (g : Fld) : (s.modSig f).fget g = s.fget g := rfl

@[simp] theorem State.fget_modMt (s : State) (f : MtCap → MtCap) (g : Fld) : (s.modMt f).fget g = s.fget g := rfl

/-! ### Changes of the management trace alone -/

/-- From s to t nothing changes but the management trace, which stays on or off. -/
def mtMoved (s t : State) : Prop := ∃ m, t = s.modMt (fun _ => m) ∧ m.on = s.cap.mt.on

theorem mtMoved.refl (s : State) : mtMoved s s := ⟨s.cap.mt, rfl, rfl⟩

theorem mtMoved.modMt {s t : State} (h : mtMoved s t) (f : MtCap → MtCap) (hf : ∀ x, (f x).on = x.on) : mtMoved s (t.modMt f) := by
  obtain ⟨m, rfl, hm⟩ := h
  exact ⟨f m, rfl, (hf m).trans hm⟩

theorem mtMoved.ite {s t u : State} {c : Prop} [Decidable c] (ht : mtMoved s t) (hu : mtMoved s u) :
    mtMoved s (if c then t else u) := by
  split
  · exact ht
  · exact hu

theorem mtMoved.mtPut {s t : State} (h : mtMoved s t) (src ty info : Nat) (zero : Bool) (body : List Byte) :
    mtMoved s (mtPut src ty info zero body t) := by
  unfold Machine.mtPut
  exact .ite (h.modMt _ fun _ => rfl) (h.modMt _ fun _ => rfl)

theorem mtMoved.mtSync {s t : State} (h : mtMoved s t) (src : Nat) (zero : Bool) : mtMoved s (mtSync src zero t) :=
  (h.mtPut _ _ _ _ _).modMt _ fun _ => rfl

theorem mtMoved.mtPacket {s t : State} (h : mtMoved s t) (src ty info : Nat) (body : List Byte) :
    mtMoved s (mtPacket src ty info body t) := by
  unfold Machine.mtPacket
  exact (mtMoved.ite (h.mtSync _ _) h).mtPut _ _ _ _ _

theorem mtMoved.mtBranch {s t : State} (h : mtMoved s t) (src : Nat) : mtMoved s (mtBranch src t) := by
  unfold Machine.mtBranch
  split
  · exact h
  · exact (h.mtPacket _ _ _ _).modMt _ fun _ => rfl

theorem mtMoved.mtEach {s t : State} (h : mtMoved s t) {f : Nat → State → State}
    (hf : ∀ src u, mtMoved s u → mtMoved s (f src u)) : mtMoved s (mtEach f t) := by
  have hone : ∀ src u, mtMoved s u → mtMoved s (if u.mtAllowed src then f src u else u) := fun src u hu => .ite (hf src u hu) hu
  exact hone 1 _ (hone 0 _ h)

/-! ### The drain (R392) -/

/-- A register outside MEM and other than the write pointer stands while the management trace drains. -/
theorem fget_mtDrain1 (s : State) {g : Fld} (hblock : (0x8004020a0).testBit (25 + g.block) = false)
    (hkey : g.key ≠ F.CAP_MTWP_WP.key) : (mtDrain1 s).fget g = s.fget g := by
  unfold mtDrain1
  dsimp only
  split
  · rfl
  · exact (State.fget_fset_ne _ _ hkey).trans ((portWrite_frame 2 _ _ (Fr.refl 0x8004020a0 s) rfl).h_regs g hblock)

theorem fget_mtDrain (k : Nat) (s : State) {g : Fld} (hblock : (0x8004020a0).testBit (25 + g.block) = false)
    (hkey : g.key ≠ F.CAP_MTWP_WP.key) : (mtDrain k s).fget g = s.fget g := by
  induction k generalizing s with
  | zero => rfl
  | succ k ih => exact (ih _).trans (fget_mtDrain1 s hblock hkey)

theorem fget_mtFlush (s : State) {g : Fld} (hblock : (0x8004020a0).testBit (25 + g.block) = false)
    (hkey : g.key ≠ F.CAP_MTWP_WP.key) : (mtFlush s).fget g = s.fget g := fget_mtDrain _ _ hblock hkey

theorem length_sigLine {buf : List DWord} (h : 8 ≤ buf.length) :
    ((buf.take 8).flatMap fun w => leBytes 8 w.toNat).length = 64 := by
  simp [List.length_flatMap, length_leBytes, h]

/-- A line of the signal stream that has room is stored, and leaves the buffer (R392). -/
theorem sigDrain1_of_room {s : State} (hbuf : 8 ≤ s.cap.sig.buf.length) (hroom : s.sigRoom = true)
    (hhbm : isHbm (s.cap.sigBase + 64 * s.fget F.CAP_SIGWP_WP) = true)
    (hline : (s.cap.sigBase + 64 * s.fget F.CAP_SIGWP_WP) % 64 = 0)
    (hfree : s.hbmHeld (s.cap.sigBase + 64 * s.fget F.CAP_SIGWP_WP) = false)
    (hopen : s.memClosed 2 (s.cap.sigBase + 64 * s.fget F.CAP_SIGWP_WP) 64 = false) :
    sigDrain1 s = ((lineStored (s.cap.sigBase + 64 * s.fget F.CAP_SIGWP_WP)
        ((s.cap.sig.buf.take 8).flatMap fun w => leBytes 8 w.toNat) s).fset F.CAP_SIGWP_WP
          ((s.fget F.CAP_SIGWP_WP + 1) % regionLines s.cap.sigLog)).modSig fun x => { x with buf := x.buf.drop 8 } := by
  unfold sigDrain1
  dsimp only
  rw [if_neg (by simp [hbuf, hroom, hfree, hopen]), portWrite_line hhbm hline (length_sigLine hbuf)]

/-- A line of the management trace that has room is stored, and leaves the buffer (R392). -/
theorem mtDrain1_of_room {s : State} (hbuf : 64 ≤ s.cap.mt.buf.length) (hroom : s.mtRoom = true)
    (hhbm : isHbm (s.cap.mtBase + 64 * s.fget F.CAP_MTWP_WP) = true)
    (hline : (s.cap.mtBase + 64 * s.fget F.CAP_MTWP_WP) % 64 = 0)
    (hfree : s.hbmHeld (s.cap.mtBase + 64 * s.fget F.CAP_MTWP_WP) = false)
    (hopen : s.memClosed 2 (s.cap.mtBase + 64 * s.fget F.CAP_MTWP_WP) 64 = false) :
    mtDrain1 s = ((lineStored (s.cap.mtBase + 64 * s.fget F.CAP_MTWP_WP) (s.cap.mt.buf.take 64) s).fset F.CAP_MTWP_WP
      ((s.fget F.CAP_MTWP_WP + 1) % regionLines s.cap.mtLog)).modMt fun x => { x with buf := x.buf.drop 64 } := by
  unfold mtDrain1
  dsimp only
  rw [if_neg (by simp [hbuf, hroom, hfree, hopen]), portWrite_line hhbm hline (by simp [hbuf])]

/-! ### The end of a capture (R389, R390) -/

/-- The words that wait in the buffer of the signal stream. -/
def State.sigLen (s : State) : Nat := s.cap.sig.buf.length

theorem sigLen_sigPut (ws : List DWord) (s : State) : (sigPut ws s).sigLen = s.sigLen + ws.length := by
  simp [sigPut, State.sigLen, State.modSig]

theorem sigLen_sigPad (s : State) : (sigPad s).sigLen ≤ s.sigLen + 7 := by
  rw [sigPad, sigLen_sigPut, List.length_replicate]
  omega

theorem sigLen_sigSync (step : Nat) (s : State) : (sigSync step s).sigLen ≤ s.sigLen + 12 := by
  have hput := sigLen_sigPut [sigHdr 1 4 0,
    BitVec.ofNat 64 (0x53594E43 * 2 ^ 32 + s.gen * 2 ^ 16 + s.seq.twostate.toNat * 2 ^ 15 + s.seq.depth / 64 * 2 ^ 9),
    BitVec.ofNat 64 step, BitVec.ofNat 64 s.ptime,
    BitVec.ofNat 64 (s.cap.sig.epoch % 2 ^ 32 * 2 ^ 32 + s.cap.sig.stepPkts % 2 ^ 32)] (sigPad s)
  have hpad := sigLen_sigPad s
  exact (hput.le.trans (Nat.add_le_add_right hpad 5))

theorem sigLen_sigSyncDue (step : Nat) (s : State) : (sigSyncDue step s).sigLen ≤ s.sigLen + 12 := by
  unfold sigSyncDue
  split
  · exact sigLen_sigSync step s
  · exact Nat.le_add_right _ _

theorem sigLen_sigMark (stop : Bool) (cause unit step : Nat) (s : State) :
    (sigMark stop cause unit step s).sigLen = s.sigLen + 2 := sigLen_sigPut _ _

/-- The OVERFLOW packet and its event, of a capture that has dropped packets (R394). -/
theorem sigOverflow_of_lost {s : State} {a b n : Nat} (h : s.cap.sig.lost = some (a, b, n)) : sigOverflow s =
    ((sigPut [sigHdr 3 2 a, BitVec.ofNat 64 (b % 2 ^ 48), BitVec.ofNat 64 n] s).modSig fun x => { x with
      lost := none, syncDue := true }).raise F.CAP_EVT_OVERFLOW 12 2 ([0] ++ w64 a ++ w64 b ++ [min n (2 ^ 32 - 1)]) := by
  simp only [sigOverflow, h]

theorem sigLen_sigOverflow (s : State) : (sigOverflow s).sigLen ≤ s.sigLen + 3 := by
  cases h : s.cap.sig.lost with
  | none => simp [sigOverflow, h]
  | some l =>
    obtain ⟨a, b, n⟩ := l
    rw [sigOverflow_of_lost h, State.sigLen, State.cap_raise]
    exact (sigLen_sigPut [sigHdr 3 2 a, BitVec.ofNat 64 (b % 2 ^ 48), BitVec.ofNat 64 n] s).le

/-- What the end of a capture adds to the stream: what is due, MARK and padding (R389, R390). -/
def sigTail (e : Nat) (s : State) : State :=
  let f := (sigOverflow s).freshNat
  sigPad (sigMark true s.cap.sig.stopCause s.cap.sig.stopUnit (e - 1) (sigSyncDue f.1 f.2))

theorem sigLen_sigTail (e : Nat) (s : State) : (sigTail e s).sigLen ≤ s.sigLen + 24 := by
  have hover := sigLen_sigOverflow s
  have hfresh : (sigOverflow s).freshNat.2.sigLen = (sigOverflow s).sigLen := rfl
  have hsync := sigLen_sigSyncDue (sigOverflow s).freshNat.1 (sigOverflow s).freshNat.2
  have hmark := sigLen_sigMark true s.cap.sig.stopCause s.cap.sig.stopUnit (e - 1)
    (sigSyncDue (sigOverflow s).freshNat.1 (sigOverflow s).freshNat.2)
  have hpad := sigLen_sigPad (sigMark true s.cap.sig.stopCause s.cap.sig.stopUnit (e - 1)
    (sigSyncDue (sigOverflow s).freshNat.1 (sigOverflow s).freshNat.2))
  unfold sigTail
  dsimp only
  omega

/-- A capture whose last step has passed and whose remainder has room ends, whatever the drain of the remainder gives (R390). -/
theorem sigPostEnd_of_room {s : State} {e : Nat} (hstop : s.cap.sig.stopAt = some e) (hstep : e ≤ s.seq.step)
    (hroom : (s.sigLen + 24) / 8 ≤ s.sigFree) : ∃ u : State, ∃ p : List Nat, sigPostEnd s =
      ((u.modSig fun y => { y with on := false, stopAt := none }).fset F.CAP_SIGCTL_STOP 0).raise F.CAP_EVT_STOPPED 12 5 p := by
  have hlen : (sigTail e s).cap.sig.buf.length ≤ s.sigLen + 24 := sigLen_sigTail e s
  have hfits : ¬ s.sigFree < (sigTail e s).cap.sig.buf.length / 8 := by
    have := Nat.div_le_div_right (c := 8) hlen
    omega
  unfold sigPostEnd
  rw [hstop]
  dsimp only
  rw [if_neg (not_lt.2 hstep)]
  exact ⟨_, _, if_neg hfits⟩

/-! ### Starts and stops (R390, R391, R400) -/

theorem exec_sigStart_refused {s : State} {r : Nat} (h : regionFault s.cap.sigBase s.cap.sigLog s.cap.mtBase s.cap.mtLog
    (!s.fbit F.CAP_SIGCTL_LOSSY && s.fbit F.CAP_SIGCTL_WRAP) = some r) :
    exec .sigStart s = .next ((s.raise F.CAP_EVT_REGION 12 4 [0, r]).fset F.CAP_SIGCTL_START 0) := by
  simp only [exec, execSigStart, sigStartReq, h]

/-- A start that no region refuses. -/
theorem exec_sigStart_of_region {s : State} (h : regionFault s.cap.sigBase s.cap.sigLog s.cap.mtBase s.cap.mtLog
    (!s.fbit F.CAP_SIGCTL_LOSSY && s.fbit F.CAP_SIGCTL_WRAP) = none) :
    exec .sigStart s = .next (if s.cap.sig.on || s.cap.sig.stopMark == some s.seq.step then s.fset F.CAP_SIGCTL_START 0
      else (s.fset F.CAP_SIGCTL_START 1).modSig fun x => { x with startReq := some (0, 0) }) := by
  simp only [exec, execSigStart, sigStartReq, h]

theorem exec_mtStart_refused {s : State} {r : Nat}
    (h : regionFault s.cap.mtBase s.cap.mtLog s.cap.sigBase s.cap.sigLog false = some r) :
    exec .mtStart s = .next ((s.raise F.CAP_EVT_REGION 12 4 [1, r]).fset F.CAP_MTCTL_START 0) := by
  simp only [exec, execMtStart, mtStartReq, h]

/-- A region's refusal is posted and clears the start bit. -/
theorem regionRefused (which r : Nat) (f : Fld) (s : State) (hf : f.key ≠ F.CAP_EVT_REGION.key) :
    let t := (s.raise F.CAP_EVT_REGION 12 4 [which, r]).fset f 0
    t.fget f = 0 ∧ posted F.CAP_EVT_REGION 12 4 [which, r] s t ∧ t.cap = s.cap ∧ steady s t ∧
      onlyFields [f, F.CAP_EVT_REGION] s t := by
  refine ⟨by simp, posted_to (s.raise_posted _ _ _ _ rfl) rfl (State.fget_fset_ne _ _ hf.symm), by simp,
    ⟨by simp, by simp, by simp⟩, ?_⟩
  exact onlyFields_fset 0 (onlyFields_raise _ _ _ (onlyFields.refl _ s) (by simp)) (by simp)

/-- A management trace that starts: what it changes besides its own record is START and WP (R400). -/
theorem exec_mtStart_of_region {s : State} (h : regionFault s.cap.mtBase s.cap.mtLog s.cap.sigBase s.cap.sigLog false = none)
    (hoff : s.cap.mt.on = false) : ∃ m : MtCap, m.on = true ∧
      exec .mtStart s = .next (((s.fset F.CAP_MTCTL_START 0).fset F.CAP_MTWP_WP 0).modMt fun _ => m) := by
  have hbegun : ∃ m : MtCap, m.on = true ∧ mtStartReq 0 s =
      mtEach (fun src s => mtSync src false (mtPut src 8 0 false [BitVec.ofNat 8 0] s))
        (((s.fset F.CAP_MTCTL_START 0).fset F.CAP_MTWP_WP 0).modMt fun _ => m) := by
    unfold mtStartReq
    rw [h]
    dsimp only
    rw [if_neg (by simp [hoff])]
    exact ⟨_, rfl, rfl⟩
  obtain ⟨m, hm, hstart⟩ := hbegun
  obtain ⟨m', hall, hm'⟩ := (mtMoved.refl (((s.fset F.CAP_MTCTL_START 0).fset F.CAP_MTWP_WP 0).modMt fun _ => m)).mtEach
    (f := fun src s => mtSync src false (mtPut src 8 0 false [BitVec.ofNat 8 0] s)) fun src u hu => (hu.mtPut _ _ _ _ _).mtSync _ _
  exact ⟨m', hm'.trans hm, congrArg Host.Outcome.next (hstart.trans hall)⟩

/-- A running management trace that stops: STOP is 0 before the last packets and their drain, and the trace is off after (R400). -/
theorem exec_mtStop_of_on {s : State} (hon : s.cap.mt.on = true) : ∃ u : State, ∃ p : List Nat, mtMoved (s.fset F.CAP_MTCTL_STOP 0) u ∧
    exec .mtStop s = .next (((mtFlush u).modMt fun x => { x with on := false }).freshNat.2.raise F.CAP_EVT_STOPPED 12 5 p) := by
  have hmoved : mtMoved (s.fset F.CAP_MTCTL_STOP 0) (mtEach (fun src s => mtPacket src 8 1 [BitVec.ofNat 8 0] (mtBranch src s))
      (s.fset F.CAP_MTCTL_STOP 0)) :=
    (mtMoved.refl _).mtEach fun src u hu => (hu.mtBranch src).mtPacket _ _ _ _
  have hstop : ∃ p, mtStopReq 0 s = ((mtFlush (mtEach (fun src s => mtPacket src 8 1 [BitVec.ofNat 8 0] (mtBranch src s))
      (s.fset F.CAP_MTCTL_STOP 0))).modMt fun x => { x with on := false }).freshNat.2.raise F.CAP_EVT_STOPPED 12 5 p := by
    unfold mtStopReq
    dsimp only
    rw [if_neg (by simp [hon])]
    exact ⟨_, rfl⟩
  obtain ⟨p, hp⟩ := hstop
  exact ⟨_, p, hmoved, congrArg Host.Outcome.next hp⟩

theorem exec_mtStop_of_off {s : State} (hoff : s.cap.mt.on = false) : exec .mtStop s = .next (s.fset F.CAP_MTCTL_STOP 0) := by
  simp [exec, execMtStop, mtStopReq, hoff]

theorem exec_sigStop (s : State) : exec .sigStop s = .next
    (if s.cap.sig.on && s.cap.sig.stopAt.isNone then
      (((s.modSig fun x => { x with startReq := none, stopMark := some s.seq.step }).fset F.CAP_SIGCTL_START 0).fset
        F.CAP_SIGCTL_STOP 1).modSig fun x => { x with
          stopAt := some (s.seq.step + s.fget F.CAP_SIGPOST_POST), stopCause := 0, stopUnit := 0 }
    else (s.modSig fun x => { x with startReq := none, stopMark := some s.seq.step }).fset F.CAP_SIGCTL_START 0) := rfl

theorem exec_captureDrain (s : State) : exec .captureDrain s =
    .next (if 8 ≤ s.cap.sig.buf.length ∧ s.sigRoom then sigDrain1 s else mtDrain1 s) := rfl

/-- A drained line of the signal stream, in its region and out of the buffer (R392). -/
theorem sigLine_drained {s : State} {a wp n : Nat} {bs : List Byte} (hhbm : isHbm a = true) (hline : a % 64 = 0)
    (hlen : bs.length = 64) :
    let t := ((lineStored a bs s).fset F.CAP_SIGWP_WP ((wp + 1) % n)).modSig fun x => { x with buf := x.buf.drop 8 }
    t.bytes a 64 = bs ∧ (∀ x, (∀ i, i < 64 → s.phys (a + i) ≠ x) → memGet t.mem x = memGet s.mem x) ∧
      t.fget F.CAP_SIGWP_WP = (wp + 1) % n % 2 ^ 32 ∧
      t.cap = { s.cap with sig := { s.cap.sig with buf := s.cap.sig.buf.drop 8 } } ∧ t.seq = s.seq ∧ t.clauses = s.clauses ∧
      t.evq = s.evq ∧ onlyFields [F.CAP_SIGWP_WP] s t := by
  obtain ⟨hbytes, hother⟩ := lineStored_bytes (s := s) hhbm hline hlen
  obtain ⟨m, u, heq⟩ := lineStored_eq a bs s
  refine ⟨hbytes, hother, (State.fget_modSig _ _ _).trans (State.fget_fset_same _ _ _), ?_, ?_, ?_, ?_, ?_⟩
  all_goals rw [heq]
  · rfl
  · rfl
  · rfl
  · rfl
  · exact onlyFields_fset _ (onlyFields.refl _ s) (List.mem_singleton.2 rfl)

/-- A drained line of the management trace, in its region and out of the buffer (R392). -/
theorem mtLine_drained {s : State} {a wp n : Nat} (hhbm : isHbm a = true) (hline : a % 64 = 0) (hbuf : 64 ≤ s.cap.mt.buf.length) :
    let t := ((lineStored a (s.cap.mt.buf.take 64) s).fset F.CAP_MTWP_WP ((wp + 1) % n)).modMt fun x => { x with buf := x.buf.drop 64 }
    t.bytes a 64 = s.cap.mt.buf.take 64 ∧
      (∀ x, (∀ i, i < 64 → s.phys (a + i) ≠ x) → memGet t.mem x = memGet s.mem x) ∧
      t.fget F.CAP_MTWP_WP = (wp + 1) % n % 2 ^ 32 ∧
      t.cap = { s.cap with mt := { s.cap.mt with buf := s.cap.mt.buf.drop 64 } } ∧ t.seq = s.seq ∧ t.clauses = s.clauses ∧
      t.evq = s.evq ∧ onlyFields [F.CAP_MTWP_WP] s t := by
  obtain ⟨hbytes, hother⟩ := lineStored_bytes (bs := s.cap.mt.buf.take 64) (s := s) hhbm hline (by simp [hbuf])
  obtain ⟨m, u, heq⟩ := lineStored_eq a (s.cap.mt.buf.take 64) s
  refine ⟨hbytes, hother, (State.fget_modMt _ _ _).trans (State.fget_fset_same _ _ _), ?_, ?_, ?_, ?_, ?_⟩
  all_goals rw [heq]
  · rfl
  · rfl
  · rfl
  · rfl
  · exact onlyFields_fset _ (onlyFields.refl _ s) (List.mem_singleton.2 rfl)

/-- What an end of a capture leaves, after any drain (R390). -/
theorem capture_ended (u : State) (p : List Nat) :
    let t := ((u.modSig fun y => { y with on := false, stopAt := none }).fset F.CAP_SIGCTL_STOP 0).raise F.CAP_EVT_STOPPED 12 5 p
    t.cap.sig.on = false ∧ t.cap.sig.stopAt = none ∧ t.fget F.CAP_SIGCTL_STOP = 0 ∧ t.fget F.CAP_EVT_STOPPED = 1 := by
  refine ⟨?_, ?_, ?_, (State.raise_posted _ _ _ _ _ rfl).1⟩
  · rw [State.cap_raise]
    rfl
  · rw [State.cap_raise]
    rfl
  · exact (State.fget_raise_ne _ _ _ _ (by decide)).trans (State.fget_fset_same _ _ _)

/-- What a stop of a running management trace leaves, after any drain (R400). -/
theorem trace_stopped (m : MtCap) (s : State) (p : List Nat) :
    let t := ((mtFlush ((s.fset F.CAP_MTCTL_STOP 0).modMt fun _ => m)).modMt fun x => { x with on := false }).freshNat.2.raise
      F.CAP_EVT_STOPPED 12 5 p
    t.cap.mt.on = false ∧ t.fget F.CAP_EVT_STOPPED = 1 ∧ t.fget F.CAP_MTCTL_STOP = 0 := by
  refine ⟨?_, (State.raise_posted _ _ _ _ _ rfl).1, ?_⟩
  · rw [State.cap_raise]
    rfl
  · have hflush : (mtFlush ((s.fset F.CAP_MTCTL_STOP 0).modMt fun _ => m)).fget F.CAP_MTCTL_STOP = 0 := by
      rw [fget_mtFlush _ (by decide) (by decide), State.fget_modMt, State.fget_fset_same]
      rfl
    exact (State.fget_raise_ne _ _ _ _ (by decide)).trans hflush

/-- What an OVERFLOW packet leaves (R394). -/
theorem overflow_written {s : State} {a b n : Nat} (hlost : s.cap.sig.lost = some (a, b, n)) :
    let t := sigOverflow s
    t.cap.sig.buf = s.cap.sig.buf ++ [sigHdr 3 2 a, BitVec.ofNat 64 (b % 2 ^ 48), BitVec.ofNat 64 n] ∧
      t.cap.sig.lost = none ∧ t.cap.sig.syncDue = true ∧ t.cap.mt = s.cap.mt ∧
      posted F.CAP_EVT_OVERFLOW 12 2 ([0] ++ w64 a ++ w64 b ++ [min n (2 ^ 32 - 1)]) s t ∧ steady s t ∧
      onlyFields [F.CAP_EVT_OVERFLOW] s t := by
  rw [sigOverflow_of_lost hlost]
  refine ⟨?_, ?_, ?_, ?_, posted_raise _ _ _ rfl rfl rfl rfl rfl, ⟨?_, ?_, ?_⟩, ?_⟩
  · rw [State.cap_raise]; rfl
  · rw [State.cap_raise]; rfl
  · rw [State.cap_raise]; rfl
  · rw [State.cap_raise]; rfl
  · rw [State.seq_raise]; rfl
  · rw [State.clauses_raise]; rfl
  · rw [State.mem_raise]; rfl
  · exact onlyFields_raise _ _ _ (onlyFields.refl _ s) (List.mem_singleton.2 rfl)

/-- Settles O38: starts and stops are one guard each; a line that has room is stored whole (`portWrite_line`), and the end of a
capture adds at most 24 words (`sigLen_sigTail`). -/
theorem tracesStartStopDrain : Obligations.TracesStartStopDrain := by
  unfold Obligations.TracesStartStopDrain
  refine ⟨?sigRefused, ?size, ?sigStarts, ?sigOnly, ?sigStopOff, ?sigStops, ?early, ?ends, ?sigLine, ?mtLine, ?noLine, ?overflow,
    fun s hlost => ?noOverflow, ?mtRefused, ?mtStarts, ?mtStops⟩
  case sigRefused =>
    intro s r h
    exact leads_of (exec_sigStart_refused h) (regionRefused 0 r F.CAP_SIGCTL_START s (by decide))
  case size =>
    intro base log obase olog w h
    simp [regionFault, h]
  case sigStarts =>
    intro s h hoff hmark
    refine leads_of ((exec_sigStart_of_region h).trans (congrArg Host.Outcome.next (if_neg (by simp [hoff, hmark]))))
      ⟨(State.fget_modSig _ _ _).trans (s.fget_fset_same _ _), rfl, ⟨rfl, rfl, rfl⟩, rfl, ?_⟩
    exact onlyFields_fset 1 (onlyFields.refl _ s) (List.mem_singleton.2 rfl)
  case sigOnly =>
    intro s h hon
    exact (exec_sigStart_of_region h).trans (congrArg Host.Outcome.next (if_pos (by simpa using hon)))
  case sigStopOff =>
    intro s h
    refine leads_of ((exec_sigStop s).trans (congrArg Host.Outcome.next (if_neg ?_)))
      ⟨State.fget_fset_same _ _ _, rfl, ⟨rfl, rfl, rfl⟩, rfl, ?_⟩
    · rcases h with h | h
      · simp [h]
      · simp [h]
    · exact (onlyFields.refl _ s).fset (List.mem_singleton.2 rfl) 0
  case sigStops =>
    intro s hon hstop
    refine leads_of ((exec_sigStop s).trans (congrArg Host.Outcome.next (if_pos (by simp [hon, hstop]))))
      ⟨?_, ?_, rfl, ⟨rfl, rfl, rfl⟩, rfl, ?_⟩
    · rw [State.fget_modSig, State.fget_fset_ne _ _ (by decide), State.fget_fset_same]
      rfl
    · rw [State.fget_modSig, State.fget_fset_same]
      rfl
    · have hsig : onlyFields [F.CAP_SIGCTL_START, F.CAP_SIGCTL_STOP] s
          (s.modSig fun x => { x with startReq := none, stopMark := some s.seq.step }) := onlyFields.refl _ s
      exact (hsig.fset (f := F.CAP_SIGCTL_START) (by simp) 0).fset (f := F.CAP_SIGCTL_STOP) (by simp) 1
  case early =>
    intro s e hstop hstep
    simp [exec, execSigPostEnd, sigPostEnd, hstop, hstep]
  case ends =>
    intro s e hstop hstep hroom
    obtain ⟨u, p, hend⟩ := sigPostEnd_of_room hstop hstep hroom
    have hexec : exec .sigPostEnd s = .next _ := congrArg Host.Outcome.next hend
    have hframe : Fr 0x28004420b0 s _ := exec_frame _ hexec
    obtain ⟨hon, hnone, hstop', hevt⟩ := capture_ended u p
    exact leads_of hexec ⟨hon, hnone, hstop', hevt, hframe.h_seq rfl, hframe.h_clauses rfl⟩
  case sigLine =>
    rintro s a wp rfl rfl hline hhbm hbuf hroom hfree hopen
    exact leads_of ((exec_captureDrain s).trans (congrArg Host.Outcome.next
      ((if_pos ⟨hbuf, hroom⟩).trans (sigDrain1_of_room hbuf hroom hhbm hline hfree hopen)))) (sigLine_drained hhbm hline (length_sigLine hbuf))
  case mtLine =>
    rintro s a wp hsig rfl rfl hline hhbm hbuf hroom hfree hopen
    exact leads_of ((exec_captureDrain s).trans (congrArg Host.Outcome.next
      ((if_neg (by omega)).trans (mtDrain1_of_room hbuf hroom hhbm hline hfree hopen)))) (mtLine_drained hhbm hline hbuf)
  case noLine =>
    intro s hsig hmt
    have hnosig : ¬ (8 ≤ s.cap.sig.buf.length ∧ s.sigRoom = true) := by
      rintro ⟨hbuf, hroom⟩
      rcases hsig with hsig | hsig
      · omega
      · simp [hsig] at hroom
    rw [exec_captureDrain, if_neg hnosig, mtDrain1]
    rcases hmt with hmt | hmt
    · simp [hmt]
    · simp [hmt]
  case overflow =>
    intro s a b n hlost hfill
    have hexec : exec (.capOverflow false) s = .next (sigOverflow s) := by
      simp [exec, execCapOverflow, capOverflow, hfill]
    exact leads_of hexec (overflow_written hlost)
  case noOverflow =>
    simp [exec, execCapOverflow, capOverflow, hlost]
  case mtRefused =>
    intro s r h
    exact leads_of (exec_mtStart_refused h) (regionRefused 1 r F.CAP_MTCTL_START s (by decide))
  case mtStarts =>
    intro s h hoff
    obtain ⟨m, hm, hexec⟩ := exec_mtStart_of_region h hoff
    refine leads_of hexec ⟨hm, ?_, ?_, rfl, ⟨rfl, rfl, rfl⟩, rfl, ?_⟩
    · rw [State.fget_modMt, State.fget_fset_ne _ _ (by decide), State.fget_fset_same]
      rfl
    · rw [State.fget_modMt, State.fget_fset_same]
      rfl
    · exact ((onlyFields.refl _ s).fset (f := F.CAP_MTCTL_START) (by simp) 0).fset (f := F.CAP_MTWP_WP) (by simp) 0
  case mtStops =>
    intro s
    cases hon : s.cap.mt.on with
    | false =>
      refine leads_of (exec_mtStop_of_off hon) ⟨fun h => absurd h (by simp), State.fget_fset_same _ _ _, rfl, rfl,
        fun _ => ⟨⟨rfl, rfl, rfl⟩, rfl, (onlyFields.refl _ s).fset (List.mem_singleton.2 rfl) 0⟩⟩
    | true =>
      obtain ⟨u, p, ⟨m, rfl, -⟩, hexec⟩ := exec_mtStop_of_on hon
      have hframe : Fr 0x28004420b0 s _ := exec_frame _ hexec
      obtain ⟨hon', hevt, hstop⟩ := trace_stopped m s p
      exact leads_of hexec ⟨fun _ => ⟨hon', hevt⟩, hstop, hframe.h_seq rfl, hframe.h_clauses rfl, fun h => absurd h (by simp)⟩

end Sys2Proof.Machine
end

section
/-! The trigger units (R401 to R407, R413, R414) and O39. -/
namespace Sys2Proof.Machine

/-! ### Their registers -/

/-- Fields are set one after another. -/
def fsetAll (l : List (Fld × Nat)) (s : State) : State := l.foldl (fun s e => s.fset e.1 e.2) s

theorem fget_fsetAll_ne {l : List (Fld × Nat)} {g : Fld} (s : State) (h : ∀ e ∈ l, g.key ≠ e.1.key) :
    (fsetAll l s).fget g = s.fget g := by
  induction l generalizing s with
  | nil => rfl
  | cons e l ih =>
    exact (ih _ fun x hx => h x (List.mem_cons_of_mem e hx)).trans (s.fget_fset_ne _ (h e List.mem_cons_self))

/-- Each of the fields set holds its value cut to its width. -/
theorem fget_fsetAll {l : List (Fld × Nat)} {f : Fld} {v : Nat} (hnd : (l.map fun e => e.1.key).Nodup) (h : (f, v) ∈ l) (s : State) :
    (fsetAll l s).fget f = v % 2 ^ f.width := by
  induction l generalizing s with
  | nil => cases h
  | cons e l ih =>
    rw [List.map_cons, List.nodup_cons] at hnd
    obtain ⟨hnew, hnd⟩ := hnd
    rcases List.mem_cons.1 h with rfl | h
    · refine (fget_fsetAll_ne (l := l) (s.fset f v) fun x hx heq => hnew ?_).trans (s.fget_fset_same f v)
      exact List.mem_map.2 ⟨x, hx, heq.symm⟩
    · exact ih hnd h _

theorem onlyFields_fsetAll {l : List (Fld × Nat)} {fs : List Fld} (s : State) (h : l.map Prod.fst ⊆ fs) :
    onlyFields fs s (fsetAll l s) := fun _ hg =>
  fget_fsetAll_ne s fun e he => hg e.1 (h (List.mem_map.2 ⟨e, he, rfl⟩))

theorem fsetAll_eq (l : List (Fld × Nat)) (s : State) : ∃ m, fsetAll l s = { s with fields := m } := by
  induction l generalizing s with
  | nil => exact ⟨s.fields, rfl⟩
  | cons e l ih => exact ih (s.fset e.1 e.2)

/-- The fields of CAP_TUCTL but EN. -/
def tuCtlList (u : Nat) : List Fld :=
  [F.CAP_TUCTL_ACT u, F.CAP_TUCTL_COND u, F.CAP_TUCTL_POL u, F.CAP_TUCTL_INV u, F.CAP_TUCTL_HMODE u, F.CAP_TUCTL_XCH u]

/-- The fields of CAP_TUCTL with what a written word gives them (R413). -/
def tuCtlValues (u : Nat) (w : Word) : List (Fld × Nat) :=
  [(F.CAP_TUCTL_ACT u, fieldOf w 16 8), (F.CAP_TUCTL_COND u, fieldOf w 13 3), (F.CAP_TUCTL_POL u, fieldOf w 11 2),
    (F.CAP_TUCTL_INV u, fieldOf w 10 1), (F.CAP_TUCTL_HMODE u, fieldOf w 8 2), (F.CAP_TUCTL_XCH u, fieldOf w 4 2)]

theorem tuCtlFields_eq_fsetAll (u : Nat) (w : Word) (s : State) : tuCtlFields u w s = fsetAll (tuCtlValues u w) s := rfl

/-- A write of the fields of CAP_TUCTL changes registers alone. -/
theorem tuCtlFields_eq (u : Nat) (w : Word) (s : State) : ∃ m, tuCtlFields u w s = { s with fields := m } :=
  fsetAll_eq (tuCtlValues u w) s

theorem onlyFields_tuCtlFields (u : Nat) (w : Word) (s : State) : onlyFields (tuCtlList u) s (tuCtlFields u w s) :=
  onlyFields_fsetAll (l := tuCtlValues u w) s (List.Subset.refl _)

theorem tuCtlValues_nodup (u : Nat) (w : Word) : ((tuCtlValues u w).map fun e => e.1.key).Nodup := by
  simp [tuCtlValues, Fld.key, F.CAP_TUCTL_ACT, F.CAP_TUCTL_COND, F.CAP_TUCTL_POL, F.CAP_TUCTL_INV, F.CAP_TUCTL_HMODE,
    F.CAP_TUCTL_XCH]

/-- The fields of CAP_TUCTL hold what was written (R413). -/
theorem fget_tuCtlFields (u : Nat) (w : Word) (s : State) :
    (tuCtlFields u w s).fget (F.CAP_TUCTL_ACT u) = fieldOf w 16 8 ∧ (tuCtlFields u w s).fget (F.CAP_TUCTL_COND u) = fieldOf w 13 3 ∧
      (tuCtlFields u w s).fget (F.CAP_TUCTL_POL u) = fieldOf w 11 2 ∧
      (tuCtlFields u w s).fget (F.CAP_TUCTL_INV u) = fieldOf w 10 1 ∧
      (tuCtlFields u w s).fget (F.CAP_TUCTL_HMODE u) = fieldOf w 8 2 ∧
      (tuCtlFields u w s).fget (F.CAP_TUCTL_XCH u) = fieldOf w 4 2 := by
  have hget : ∀ f v, (f, v) ∈ tuCtlValues u w → (tuCtlFields u w s).fget f = v % 2 ^ f.width := fun f v h => by
    rw [tuCtlFields_eq_fsetAll]
    exact fget_fsetAll (tuCtlValues_nodup u w) h s
  exact ⟨(hget _ _ (by simp [tuCtlValues])).trans (Nat.mod_eq_of_lt (fieldOf_lt w 16 8)),
    (hget _ _ (by simp [tuCtlValues])).trans (Nat.mod_eq_of_lt (fieldOf_lt w 13 3)),
    (hget _ _ (by simp [tuCtlValues])).trans (Nat.mod_eq_of_lt (fieldOf_lt w 11 2)),
    (hget _ _ (by simp [tuCtlValues])).trans (Nat.mod_eq_of_lt (fieldOf_lt w 10 1)),
    (hget _ _ (by simp [tuCtlValues])).trans (Nat.mod_eq_of_lt (fieldOf_lt w 8 2)),
    (hget _ _ (by simp [tuCtlValues])).trans (Nat.mod_eq_of_lt (fieldOf_lt w 4 2))⟩

/-- The fields of CAP_TUCTL are neither EN nor fields of CAP_TUSTAT. -/
theorem key_ne_of_tuCtl {u : Nat} {f g : Fld} (hf : f ∈ tuCtlList u)
    (hg : g ∈ [F.CAP_TUCTL_EN u, F.CAP_TUSTAT_CFGERR u, F.CAP_TUSTAT_DROP u, F.CAP_EVT_CFGERR, evten F.CAP_EVT_CFGERR]) :
    f.key ≠ g.key := by
  simp only [tuCtlList, List.mem_cons, List.not_mem_nil, or_false] at hf hg
  rcases hf with rfl | rfl | rfl | rfl | rfl | rfl <;> rcases hg with rfl | rfl | rfl | rfl | rfl <;>
    simp only [Fld.key, evten, F.CAP_TUCTL_ACT, F.CAP_TUCTL_COND, F.CAP_TUCTL_POL, F.CAP_TUCTL_INV, F.CAP_TUCTL_HMODE,
      F.CAP_TUCTL_XCH, F.CAP_TUCTL_EN, F.CAP_TUSTAT_CFGERR, F.CAP_TUSTAT_DROP, F.CAP_EVT_CFGERR, ne_eq] <;> omega

/-- A configuration that R407 refuses whatever the other registers hold. -/
theorem tuInvalid_of_word {u : Nat} {w : Word} (s : State)
    (h : 6 ≤ fieldOf w 13 3 ∨ fieldOf w 11 2 = 3 ∨ fieldOf w 8 2 = 3 ∨ w.getLsbD 23 = true) :
    (tuCtlFields u w s).tuInvalid u = true := by
  obtain ⟨hact, hcond, hpol, -, hmode, -⟩ := fget_tuCtlFields u w s
  rw [State.tuInvalid, hact, hcond, hpol, hmode]
  rcases h with h | h | h | h
  · simp [h]
  · simp [h]
  · simp [h]
  · have hbit : nbit (fieldOf w 16 8) 7 = true := by
      rw [nbit_eq_testBit, fieldOf, nbits, Nat.testBit_mod_two_pow, Nat.testBit_shiftRight]
      exact h
    simp [hbit]

/-! ### Writes of a unit that is on (R407) -/

theorem tuEnable_of_on {u : Nat} {w : Word} {s : State} (h : s.fbit (F.CAP_TUCTL_EN u) = true) : tuEnable u w s = tuWerr u s :=
  if_pos h

theorem tuRegWrite_of_on {u off : Nat} {w : Word} {s : State} (hoff : off ≠ 0) (h : s.fbit (F.CAP_TUCTL_EN u) = true) :
    tuRegWrite u off w s = tuWerr u s := (if_neg hoff).trans (if_pos h)

theorem tuWerr_sets (u : Nat) (s : State) : (tuWerr u s).fget (F.CAP_TUSTAT_WERR u) = 1 ∧ (tuWerr u s).cap = s.cap ∧
    steady s (tuWerr u s) ∧ (tuWerr u s).evq = s.evq ∧ onlyFields [F.CAP_TUSTAT_WERR u] s (tuWerr u s) :=
  ⟨s.fget_fset_same _ 1, rfl, ⟨rfl, rfl, rfl⟩, rfl, (onlyFields.refl _ s).fset (List.mem_singleton.2 rfl) 1⟩

/-! ### Writes of a unit that is off (R403, R407, R414) -/

/-- The registers that an enable of a valid configuration sets besides the fields of CAP_TUCTL. -/
def tuArmValues (u : Nat) : List (Fld × Nat) := [(F.CAP_TUCTL_EN u, 1), (F.CAP_TUSTAT_CFGERR u, 0), (F.CAP_TUSTAT_DROP u, 0)]

theorem tuArmValues_nodup (u : Nat) : ((tuArmValues u).map fun e => e.1.key).Nodup := by
  simp [tuArmValues, Fld.key, F.CAP_TUCTL_EN, F.CAP_TUSTAT_CFGERR, F.CAP_TUSTAT_DROP]
  omega

/-- A unit as an enable arms it (R403). -/
def Tu.enabled (x : Tu) : Tu :=
  { x with
    st := .armed, skips := 0, matches_ := 0, due := [], timedOut := false
    level := false, edgeAt := none, riseAt := none, fallAt := none }

theorem tuEnable_invalid {u : Nat} {w : Word} {s : State} (hoff : s.fbit (F.CAP_TUCTL_EN u) = false)
    (h : (tuCtlFields u w s).tuInvalid u = true) :
    tuEnable u w s = ((tuCtlFields u w s).fset (F.CAP_TUSTAT_CFGERR u) 1).raise F.CAP_EVT_CFGERR 12 6 [u] := by
  rw [tuEnable, if_neg (by simp [hoff])]
  exact if_pos h

theorem tuEnable_valid {u : Nat} {w : Word} {s : State} (hoff : s.fbit (F.CAP_TUCTL_EN u) = false)
    (h : (tuCtlFields u w s).tuInvalid u = false) :
    tuEnable u w s = (fsetAll (tuArmValues u) (tuCtlFields u w s)).modUnit u Tu.enabled := by
  rw [tuEnable, if_neg (by simp [hoff])]
  exact if_neg (by simp [h])

/-- What a refused configuration leaves (R407). -/
theorem tuRefused_sets (u : Nat) (w : Word) (s : State) (hoff : s.fbit (F.CAP_TUCTL_EN u) = false) :
    let t := ((tuCtlFields u w s).fset (F.CAP_TUSTAT_CFGERR u) 1).raise F.CAP_EVT_CFGERR 12 6 [u]
    t.fget (F.CAP_TUSTAT_CFGERR u) = 1 ∧ t.fbit (F.CAP_TUCTL_EN u) = false ∧ posted F.CAP_EVT_CFGERR 12 6 [u] s t ∧ t.cap = s.cap ∧
      steady s t ∧ onlyFields [F.CAP_TUCTL_ACT u, F.CAP_TUCTL_COND u, F.CAP_TUCTL_POL u, F.CAP_TUCTL_INV u, F.CAP_TUCTL_HMODE u,
        F.CAP_TUCTL_XCH u, F.CAP_TUSTAT_CFGERR u, F.CAP_EVT_CFGERR] s t := by
  obtain ⟨m, hm⟩ := tuCtlFields_eq u w s
  have hctl : ∀ g, g ∈ [F.CAP_TUCTL_EN u, evten F.CAP_EVT_CFGERR] → (tuCtlFields u w s).fget g = s.fget g := fun g hg =>
    onlyFields_tuCtlFields u w s g fun f hf => (key_ne_of_tuCtl hf (by
      simp only [List.mem_cons, List.not_mem_nil, or_false] at hg
      rcases hg with rfl | rfl <;> simp)).symm
  have hcfg : (F.CAP_TUSTAT_CFGERR u).key ≠ F.CAP_EVT_CFGERR.key ∧ (F.CAP_TUCTL_EN u).key ≠ F.CAP_EVT_CFGERR.key ∧
      (F.CAP_TUCTL_EN u).key ≠ (F.CAP_TUSTAT_CFGERR u).key ∧ (evten F.CAP_EVT_CFGERR).key ≠ (F.CAP_TUSTAT_CFGERR u).key := by
    simp only [Fld.key, evten, F.CAP_TUSTAT_CFGERR, F.CAP_EVT_CFGERR, F.CAP_TUCTL_EN]
    omega
  obtain ⟨hcfgEvt, henEvt, henCfg, hevtenCfg⟩ := hcfg
  refine ⟨?_, ?_, posted_raise _ _ _ rfl ?_ ?_ ?_ ?_, ?_, ⟨?_, ?_, ?_⟩, ?_⟩
  · exact (State.fget_raise_ne _ _ _ _ hcfgEvt).trans (State.fget_fset_same _ _ 1)
  · rw [State.fbit, State.fget_raise_ne _ _ _ _ henEvt, State.fget_fset_ne _ _ henCfg, hctl _ (by simp)]
    exact hoff
  · rw [hm]; rfl
  · rw [hm]; rfl
  · rw [hm]; rfl
  · rw [State.fget_fset_ne _ _ hevtenCfg, hctl _ (by simp)]
  · rw [State.cap_raise, hm]; rfl
  · rw [State.seq_raise, hm]; rfl
  · rw [State.clauses_raise, hm]; rfl
  · rw [State.mem_raise, hm]; rfl
  · have honly := (onlyFields_tuCtlFields u w s).mono (gs := [F.CAP_TUCTL_ACT u, F.CAP_TUCTL_COND u, F.CAP_TUCTL_POL u,
      F.CAP_TUCTL_INV u, F.CAP_TUCTL_HMODE u, F.CAP_TUCTL_XCH u, F.CAP_TUSTAT_CFGERR u, F.CAP_EVT_CFGERR]) (by simp [tuCtlList])
    exact onlyFields_raise _ _ _ (onlyFields_fset 1 honly (by simp)) (by simp)

/-- What an enable of a valid configuration leaves (R403, R407). -/
theorem tuEnabled_sets (u : Nat) (w : Word) (s : State) :
    let t := (fsetAll (tuArmValues u) (tuCtlFields u w s)).modUnit u Tu.enabled
    t.fget (F.CAP_TUCTL_EN u) = 1 ∧ t.fget (F.CAP_TUSTAT_CFGERR u) = 0 ∧
      t.fget (F.CAP_TUSTAT_DROP u) = 0 ∧ t.fget (F.CAP_TUCTL_ACT u) = fieldOf w 16 8 ∧
      t.fget (F.CAP_TUCTL_COND u) = fieldOf w 13 3 ∧ t.fget (F.CAP_TUCTL_POL u) = fieldOf w 11 2 ∧
      t.fget (F.CAP_TUCTL_INV u) = fieldOf w 10 1 ∧ t.fget (F.CAP_TUCTL_HMODE u) = fieldOf w 8 2 ∧
      t.fget (F.CAP_TUCTL_XCH u) = fieldOf w 4 2 ∧ (t.unit u).st = .armed ∧ (t.unit u).due = [] ∧ (t.unit u).skips = 0 ∧
      (∀ v, v ≠ u → t.unit v = s.unit v) ∧ steady s t ∧ t.evq = s.evq ∧
      onlyFields [F.CAP_TUCTL_EN u, F.CAP_TUCTL_ACT u, F.CAP_TUCTL_COND u, F.CAP_TUCTL_POL u, F.CAP_TUCTL_INV u,
        F.CAP_TUCTL_HMODE u, F.CAP_TUCTL_XCH u, F.CAP_TUSTAT_CFGERR u, F.CAP_TUSTAT_DROP u] s t := by
  obtain ⟨hact, hcond, hpol, hinv, hmode, hxch⟩ := fget_tuCtlFields u w s
  obtain ⟨m, hm⟩ := tuCtlFields_eq u w s
  obtain ⟨n, hn⟩ := fsetAll_eq (tuArmValues u) (tuCtlFields u w s)
  have hunits : ∀ v, (fsetAll (tuArmValues u) (tuCtlFields u w s)).unit v = s.unit v := fun v => by rw [hn, hm]; rfl
  have hctl : ∀ f, f ∈ tuCtlList u → (fsetAll (tuArmValues u) (tuCtlFields u w s)).fget f = (tuCtlFields u w s).fget f :=
    fun f hf => fget_fsetAll_ne _ fun e he => key_ne_of_tuCtl hf (by
      simp only [tuArmValues, List.mem_cons, List.not_mem_nil, or_false] at he
      rcases he with rfl | rfl | rfl <;> simp)
  have harm : ∀ f v, (f, v) ∈ tuArmValues u → (fsetAll (tuArmValues u) (tuCtlFields u w s)).fget f = v % 2 ^ f.width :=
    fun f v h => fget_fsetAll (tuArmValues_nodup u) h _
  refine ⟨harm _ 1 (by simp [tuArmValues]), harm _ 0 (by simp [tuArmValues]), harm _ 0 (by simp [tuArmValues]),
    (hctl _ (by simp [tuCtlList])).trans hact, (hctl _ (by simp [tuCtlList])).trans hcond, (hctl _ (by simp [tuCtlList])).trans hpol,
    (hctl _ (by simp [tuCtlList])).trans hinv, (hctl _ (by simp [tuCtlList])).trans hmode,
    (hctl _ (by simp [tuCtlList])).trans hxch, ?_, ?_, ?_, fun v hv => ?_, ⟨?_, ?_, ?_⟩, ?_, ?_⟩
  · rw [State.unit_modUnit_same]; rfl
  · rw [State.unit_modUnit_same]; rfl
  · rw [State.unit_modUnit_same]; rfl
  · rw [State.unit_modUnit_ne _ _ hv, hunits]
  · rw [hn, hm]; rfl
  · rw [hn, hm]; rfl
  · rw [hn, hm]; rfl
  · rw [hn, hm]; rfl
  · have honly := (onlyFields_tuCtlFields u w s).mono (gs := [F.CAP_TUCTL_EN u, F.CAP_TUCTL_ACT u, F.CAP_TUCTL_COND u,
      F.CAP_TUCTL_POL u, F.CAP_TUCTL_INV u, F.CAP_TUCTL_HMODE u, F.CAP_TUCTL_XCH u, F.CAP_TUSTAT_CFGERR u, F.CAP_TUSTAT_DROP u])
      (by simp [tuCtlList])
    exact honly.trans (onlyFields_fsetAll _ (by simp [tuArmValues]))

/-- A write of some registers, seen field by field. -/
theorem fsetAll_sets (l : List (Fld × Nat)) (s : State) : (fsetAll l s).cap = s.cap ∧ steady s (fsetAll l s) ∧
    (fsetAll l s).evq = s.evq ∧ onlyFields (l.map Prod.fst) s (fsetAll l s) := by
  obtain ⟨m, hm⟩ := fsetAll_eq l s
  have honly := onlyFields_fsetAll (l := l) s (List.Subset.refl _)
  rw [hm] at honly ⊢
  exact ⟨rfl, ⟨rfl, rfl, rfl⟩, rfl, honly⟩

theorem tuRegWrite_thr {u : Nat} {w : Word} {s : State} (hoff : s.fbit (F.CAP_TUCTL_EN u) = false) :
    tuRegWrite u 0x10 w s = fsetAll [(F.CAP_TUTHR_HI u, fieldOf w 16 12), (F.CAP_TUTHR_LO u, fieldOf w 0 12)] s := by
  rw [tuRegWrite, if_neg (by decide), if_neg (by simp [hoff])]
  rfl

theorem tuRegWrite_src {u : Nat} {w : Word} {s : State} (hoff : s.fbit (F.CAP_TUCTL_EN u) = false) :
    tuRegWrite u 0x04 w s = fsetAll [(F.CAP_TUSRC_KIND u, fieldOf w 10 1), (F.CAP_TUSRC_BANK u, fieldOf w 7 3),
      (F.CAP_TUSRC_PIN u, fieldOf w 0 6)] s := by
  rw [tuRegWrite, if_neg (by decide), if_neg (by simp [hoff])]
  rfl

/-- MIN, MAX and HOLD take the whole word (R414). -/
theorem tuRegWrite_word {u off : Nat} {f : Fld} {w : Word} {s : State} (hoff : s.fbit (F.CAP_TUCTL_EN u) = false)
    (h : (off, f) ∈ [(0x08, F.CAP_TUMIN_MIN u), (0x0C, F.CAP_TUMAX_MAX u), (0x14, F.CAP_TUHOLD_HOLD u)]) :
    tuRegWrite u off w s = s.fset f w.toNat ∧ f.width = 32 := by
  simp only [List.mem_cons, Prod.mk.injEq, List.not_mem_nil, or_false] at h
  rcases h with ⟨rfl, rfl⟩ | ⟨rfl, rfl⟩ | ⟨rfl, rfl⟩
  all_goals
    rw [tuRegWrite, if_neg (by decide), if_neg (by simp [hoff])]
    exact ⟨rfl, rfl⟩

/-! ### Crossings (R401, R402) -/

/-- A match of a unit that is on waits (R404). -/
theorem tuMatch_of_on {u stamp time fine meas : Nat} {s : State} (h : (s.unit u).st ≠ .off) :
    tuMatch u stamp time fine meas s = s.modUnit u fun x => { x with due := x.due ++ [(stamp, time, fine, meas)] } := by
  rw [tuMatch, if_neg (by simpa using h)]

/-- A pin crosses a threshold for one unit, where the unit watches it (R401). -/
def unitCrossing (bank pin : Nat) (hi up : Bool) (mv fine : Nat) (s : State) (u : Nat) : State :=
  let thr := if hi then s.fget (F.CAP_TUTHR_HI u) else s.fget (F.CAP_TUTHR_LO u)
  if (s.unit u).st != .off && s.fbit (F.CAP_TUSRC_KIND u) && s.fget (F.CAP_TUSRC_BANK u) == bank &&
      s.fget (F.CAP_TUSRC_PIN u) == pin && thr == mv then
    tuCross u hi up (32 * s.ptime + fine % 32) (fine % 32) s
  else s

theorem exec_pinCrossing_of_on {bank pin mv fine : Nat} {hi up : Bool} {s : State} (h : (s.bank bank).st ≠ .off) :
    exec (.pinCrossing bank pin hi up mv fine) s =
      .next ((List.range 16).foldl (unitCrossing bank pin hi up mv fine) (padCross bank pin hi up s)) :=
  congrArg Host.Outcome.next (if_neg (by simpa using h))

theorem exec_pinCrossing_of_off {bank pin mv fine : Nat} {hi up : Bool} {s : State} (h : (s.bank bank).st = .off) :
    exec (.pinCrossing bank pin hi up mv fine) s = .next s :=
  congrArg Host.Outcome.next (if_pos (by simp [h]))

theorem unitCrossing_of_off {bank pin mv fine u : Nat} {hi up : Bool} {s : State} (h : (s.unit u).st = .off) :
    unitCrossing bank pin hi up mv fine s u = s := if_neg (by simp [h])

theorem bank_unitCrossing (bank pin : Nat) (hi up : Bool) (mv fine : Nat) (s : State) (u b : Nat) :
    (unitCrossing bank pin hi up mv fine s u).bank b = s.bank b := by
  have hframe : Fr 0x40010 s (unitCrossing bank pin hi up mv fine s u) :=
    Fr.ite (tuCross_frame u hi up _ _ (Fr.refl 0x40010 s) rfl) (Fr.refl 0x40010 s)
  rw [State.bank, hframe.h_rim rfl]
  rfl

theorem padCross_leaves (b p : Nat) (hi up : Bool) (s : State) : (∀ u, (padCross b p hi up s).unit u = s.unit u) ∧
    (∀ d, d ≠ b → (padCross b p hi up s).bank d = s.bank d) ∧ (∀ f, (padCross b p hi up s).fget f = s.fget f) ∧
      (padCross b p hi up s).seq = s.seq ∧ (padCross b p hi up s).ptime = s.ptime := by
  unfold padCross
  split
  · exact ⟨fun _ => rfl, fun _ _ => rfl, fun _ => rfl, rfl, rfl⟩
  · exact ⟨fun _ => rfl, fun d hd => s.bank_modBank_ne _ hd, fun _ => rfl, rfl, rfl⟩

/-- A fold over elements that each leave the state leaves it. -/
theorem foldl_of_fixed {α β : Type} {f : β → α → β} {l : List α} {s : β} (h : ∀ a ∈ l, f s a = s) : l.foldl f s = s := by
  induction l with
  | nil => rfl
  | cons a l ih =>
    rw [List.foldl_cons, h a List.mem_cons_self]
    exact ih fun b hb => h b (List.mem_cons_of_mem a hb)

/-- With every other unit off, a crossing reaches one unit alone. -/
theorem foldl_unitCrossing {bank pin mv fine u : Nat} {hi up : Bool} {s : State} (hu : u < 16)
    (hoff : ∀ v, v ≠ u → (s.unit v).st = .off)
    (hoff' : ∀ v, v ≠ u → ((unitCrossing bank pin hi up mv fine s u).unit v).st = .off) :
    (List.range 16).foldl (unitCrossing bank pin hi up mv fine) s = unitCrossing bank pin hi up mv fine s u := by
  obtain ⟨before, after, hsplit⟩ := List.append_of_mem (List.mem_range.2 hu)
  have hnd := hsplit ▸ List.nodup_range (n := 16)
  obtain ⟨-, hcons, hdisj⟩ := List.nodup_append.1 hnd
  rw [hsplit, List.foldl_append, List.foldl_cons, foldl_of_fixed (l := before), foldl_of_fixed (l := after)]
  · exact fun v hv => unitCrossing_of_off (hoff' v fun h => (List.nodup_cons.1 hcons).1 (h ▸ hv))
  · exact fun v hv => unitCrossing_of_off (hoff v fun h => hdisj v hv u List.mem_cons_self h)

/-- A crossing of HI upwards at a unit that is low and watches for rising edges raises its level, and is kept as a match. -/
theorem unit_tuCross_rising {u tick fine : Nat} {s : State} (hon : (s.unit u).st ≠ .off) (hlevel : (s.unit u).level = false)
    (hcond : s.fget (F.CAP_TUCTL_COND u) = 1) (hpol : polRise (s.fget (F.CAP_TUCTL_POL u)) = true) :
    ((tuCross u true true tick fine s).unit u).level = true ∧
      ((tuCross u true true tick fine s).unit u).due = (s.unit u).due ++ [(s.seq.step - 1, s.ptime, fine, 0)] ∧
      ∀ v, v ≠ u → (tuCross u true true tick fine s).unit v = s.unit v := by
  have hfire : ∃ y : Tu, y.level = true ∧ y.st = (s.unit u).st ∧ y.due = (s.unit u).due ∧
      tuCross u true true tick fine s = tuMatch u (s.seq.step - 1) s.ptime fine 0 (s.modUnit u fun _ => y) := by
    simp only [tuCross, hcond, hlevel, hpol]
    exact ⟨_, by rfl, by rfl, by rfl, rfl⟩
  obtain ⟨y, hy, hst, hdue, hcross⟩ := hfire
  have hon' : ((s.modUnit u fun _ => y).unit u).st ≠ .off := by rwa [State.unit_modUnit_same, hst]
  rw [hcross, tuMatch_of_on hon']
  refine ⟨by simp [hy], by simp [hdue], fun v hv => ?_⟩
  rw [State.unit_modUnit_ne _ _ hv, State.unit_modUnit_ne _ _ hv]

theorem unitCrossing_of_watch {bank pin mv fine u : Nat} {s : State} (hon : (s.unit u).st ≠ .off)
    (hkind : s.fbit (F.CAP_TUSRC_KIND u) = true) (hbank : s.fget (F.CAP_TUSRC_BANK u) = bank)
    (hpin : s.fget (F.CAP_TUSRC_PIN u) = pin) (hthr : s.fget (F.CAP_TUTHR_HI u) = mv) :
    unitCrossing bank pin true true mv fine s u = tuCross u true true (32 * s.ptime + fine % 32) (fine % 32) s :=
  if_pos (by simp [hon, hkind, hbank, hpin, hthr])

/-! ### Firing (R403 to R405) -/

/-- The unit's record after an acquisition (R404). -/
def Tu.acquired (hold stamp time fine meas : Nat) (x : Tu) : Tu :=
  { x with
    st := if hold = 0 then .armed else .holdoff
    step := stamp, time := time, fine := fine, meas := meas, skipped := x.skips, skips := 0, matches_ := 0 }

theorem tuAcquire_of_off {u stamp time fine meas : Nat} {s : State} (hsig : s.cap.sig.on = false) :
    tuAcquire u stamp time fine meas s =
      (s.count (F.CAP_TUCNT_COUNT u)).modUnit u (Tu.acquired (s.fget (F.CAP_TUHOLD_HOLD u)) stamp time fine meas) :=
  if_neg (by simp [hsig])

theorem tuActions_of_none {u stamp time : Nat} {s : State} (h : s.fget (F.CAP_TUCTL_ACT u) = 0) : tuActions u stamp time s = s := by
  rw [tuActions, h]
  rfl

theorem tuActions_of_post {u stamp time : Nat} {s : State} (h : s.fget (F.CAP_TUCTL_ACT u) = 1) :
    tuActions u stamp time s = tuPost u stamp time s := by
  rw [tuActions, h]
  rfl

/-- The unit's oldest match leaves the list of those that wait. -/
def tuTaken (u : Nat) (rest : List (Nat × Nat × Nat × Nat)) (s : State) : State := s.modUnit u fun x => { x with due := rest }

theorem exec_triggerFire_match {u ticks : Nat} {m : Nat × Nat × Nat × Nat} {rest : List (Nat × Nat × Nat × Nat)} {s : State}
    (hdue : (s.unit u).due = m :: rest) : exec (.triggerFire u ticks) s = .next (tuAct u m (tuTaken u rest s)) := by
  simp only [exec, execTriggerFire, triggerFire, hdue]
  rfl

theorem tuAct_of_armed {u : Nat} {m : Nat × Nat × Nat × Nat} {s : State} (h : (s.unit u).st = .armed) :
    tuAct u m s = tuActions u m.1 m.2.1 (tuAcquire u m.1 m.2.1 m.2.2.1 m.2.2.2 s) := by
  simp only [tuAct, h]

theorem tuAct_of_held {u : Nat} {m : Nat × Nat × Nat × Nat} {s : State} (h : (s.unit u).st = .holdoff)
    (hheld : s.tuHeld u m.1 m.2.1 = false) :
    tuAct u m s = s.modUnit u fun x => { x with skips := x.skips + 1, matches_ := x.matches_ + 1 } := by
  simp only [tuAct, h, hheld]
  rfl

/-- What a match leaves in its unit does not decide whether a hold-off has passed. -/
theorem tuHeld_tuTaken (u v step time : Nat) (rest : List (Nat × Nat × Nat × Nat)) (s : State) :
    (tuTaken u rest s).tuHeld v step time = s.tuHeld v step time := by
  have hunit : ((tuTaken u rest s).unit v).time = (s.unit v).time ∧ ((tuTaken u rest s).unit v).matches_ = (s.unit v).matches_ ∧
      ((tuTaken u rest s).unit v).step = (s.unit v).step := by
    by_cases hv : v = u
    · subst hv
      simp [tuTaken]
    · simp [tuTaken, State.unit_modUnit_ne _ _ hv]
  obtain ⟨htime, hmatches, hstep⟩ := hunit
  simp only [State.tuHeld, htime, hmatches, hstep]
  rfl

theorem key_count_ne (u : Nat) {f : Fld} (hf : f ∈ [F.CAP_TUCTL_ACT u, F.CAP_TUSRC_KIND u, F.CAP_TUSRC_BANK u, F.CAP_TUSRC_PIN u,
    F.CAP_TUCTL_COND u, F.CAP_TUSTAT_DROP u, F.CAP_EVT_TRIG, F.CAP_EVTEN_TRIG]) : f.key ≠ (F.CAP_TUCNT_COUNT u).key := by
  simp only [List.mem_cons, List.not_mem_nil, or_false] at hf
  rcases hf with rfl | rfl | rfl | rfl | rfl | rfl | rfl | rfl <;>
    simp only [Fld.key, F.CAP_TUCTL_ACT, F.CAP_TUSRC_KIND, F.CAP_TUSRC_BANK, F.CAP_TUSRC_PIN, F.CAP_TUCTL_COND, F.CAP_TUSTAT_DROP,
      F.CAP_EVT_TRIG, F.CAP_EVTEN_TRIG, F.CAP_TUCNT_COUNT, ne_eq] <;> omega

/-- An armed unit of a device that captures no signals acquires its oldest match. -/
def tuFired (u stamp time fine meas : Nat) (rest : List (Nat × Nat × Nat × Nat)) (s : State) : State :=
  ((tuTaken u rest s).count (F.CAP_TUCNT_COUNT u)).modUnit u (Tu.acquired (s.fget (F.CAP_TUHOLD_HOLD u)) stamp time fine meas)

theorem exec_triggerFire_armed {u ticks stamp time fine meas : Nat} {rest : List (Nat × Nat × Nat × Nat)} {s : State}
    (hdue : (s.unit u).due = (stamp, time, fine, meas) :: rest) (hst : (s.unit u).st = .armed) (hsig : s.cap.sig.on = false) :
    exec (.triggerFire u ticks) s = .next (tuActions u stamp time (tuFired u stamp time fine meas rest s)) := by
  have hst' : ((tuTaken u rest s).unit u).st = .armed := by simp [tuTaken, hst]
  rw [exec_triggerFire_match hdue, tuAct_of_armed hst', tuAcquire_of_off (s := tuTaken u rest s) hsig]
  rfl

theorem fget_tuFired {u stamp time fine meas : Nat} {rest : List (Nat × Nat × Nat × Nat)} {s : State} {g : Fld}
    (h : g.key ≠ (F.CAP_TUCNT_COUNT u).key) : (tuFired u stamp time fine meas rest s).fget g = s.fget g := by
  rw [tuFired, State.fget_modUnit, State.fget_count_ne _ h]
  rfl

theorem unit_tuFired (u stamp time fine meas : Nat) (rest : List (Nat × Nat × Nat × Nat)) (s : State) :
    (tuFired u stamp time fine meas rest s).unit u =
        Tu.acquired (s.fget (F.CAP_TUHOLD_HOLD u)) stamp time fine meas { s.unit u with due := rest } ∧
      ∀ v, v ≠ u → (tuFired u stamp time fine meas rest s).unit v = s.unit v := by
  refine ⟨by simp [tuFired, tuTaken], fun v hv => ?_⟩
  rw [tuFired, State.unit_modUnit_ne _ _ hv, State.unit_count, tuTaken, State.unit_modUnit_ne _ _ hv]

theorem onlyFields_tuFired (u stamp time fine meas : Nat) (rest : List (Nat × Nat × Nat × Nat)) (s : State) :
    onlyFields [F.CAP_TUCNT_COUNT u] s (tuFired u stamp time fine meas rest s) :=
  fun _ hg => fget_tuFired (hg _ (List.mem_singleton.2 rfl))

/-- A rising crossing of the one unit that is on, as the 16 units see it. -/
theorem foldl_unitCrossing_rising {u bank pin mv fine : Nat} {s : State} (hu : u < 16) (hon : (s.unit u).st ≠ .off)
    (hothers : ∀ v, v ≠ u → (s.unit v).st = .off) (hkind : s.fbit (F.CAP_TUSRC_KIND u) = true)
    (hbank : s.fget (F.CAP_TUSRC_BANK u) = bank) (hpin : s.fget (F.CAP_TUSRC_PIN u) = pin)
    (hthr : s.fget (F.CAP_TUTHR_HI u) = mv) (hlevel : (s.unit u).level = false) (hcond : s.fget (F.CAP_TUCTL_COND u) = 1)
    (hrise : polRise (s.fget (F.CAP_TUCTL_POL u)) = true) :
    let t := (List.range 16).foldl (unitCrossing bank pin true true mv fine) (padCross bank pin true true s)
    (t.unit u).level = true ∧ (t.unit u).due = (s.unit u).due ++ [(s.seq.step - 1, s.ptime, fine % 32, 0)] ∧
      ∀ v, v ≠ u → t.unit v = s.unit v := by
  obtain ⟨hunits, -, hfget, hseq, htime⟩ := padCross_leaves bank pin true true s
  generalize padCross bank pin true true s = s0 at hunits hfget hseq htime ⊢
  have hkind' : s0.fbit (F.CAP_TUSRC_KIND u) = true := by rw [State.fbit, hfget]; exact hkind
  have hcross : unitCrossing bank pin true true mv fine s0 u = tuCross u true true (32 * s0.ptime + fine % 32) (fine % 32) s0 :=
    unitCrossing_of_watch (by rwa [hunits]) hkind' ((hfget _).trans hbank) ((hfget _).trans hpin) ((hfget _).trans hthr)
  obtain ⟨hlev, hdue, hrest⟩ := unit_tuCross_rising (u := u) (tick := 32 * s0.ptime + fine % 32) (fine := fine % 32) (s := s0)
    (by rwa [hunits]) (by rwa [hunits]) ((hfget _).trans hcond) (by rwa [hfget])
  have hfold : (List.range 16).foldl (unitCrossing bank pin true true mv fine) s0 = _ :=
    (foldl_unitCrossing hu (fun v hv => by rw [hunits]; exact hothers v hv)
      (fun v hv => by rw [hcross, hrest v hv, hunits]; exact hothers v hv)).trans hcross
  refine ⟨?_, ?_, fun v hv => ?_⟩
  · rw [hfold, hlev]
  · rw [hfold, hdue, hunits, hseq, htime]
  · rw [hfold, hrest v hv, hunits]

/-- CAP_TRIG of an acquisition carries the stamp and what the unit watches (R404, R405). -/
theorem tuPost_tuFired {u stamp time fine meas : Nat} {rest : List (Nat × Nat × Nat × Nat)} {s : State} (hposted : s.tuPosted u = false)
    (hen : s.fbit F.CAP_EVTEN_TRIG = true) :
    let t := tuPost u stamp time (tuFired u stamp time fine meas rest s)
    t.fget F.CAP_EVT_TRIG = 1 ∧ t.evq = s.evq ++ [{
        src := 12, code := 1, step := stamp, time := time
        payload := [u, s.fget (F.CAP_TUSRC_KIND u), s.fget (F.CAP_TUSRC_BANK u), s.fget (F.CAP_TUSRC_PIN u),
          s.fget (F.CAP_TUCTL_COND u), meas, fine, (s.unit u).skips, s.fget (F.CAP_TUSTAT_DROP u)] }] ∧ steady s t ∧
      onlyFields [F.CAP_TUCNT_COUNT u, F.CAP_EVT_TRIG] s t := by
  have hkeep : ∀ f, f ∈ [F.CAP_TUCTL_ACT u, F.CAP_TUSRC_KIND u, F.CAP_TUSRC_BANK u, F.CAP_TUSRC_PIN u, F.CAP_TUCTL_COND u,
      F.CAP_TUSTAT_DROP u, F.CAP_EVT_TRIG, F.CAP_EVTEN_TRIG] → (tuFired u stamp time fine meas rest s).fget f = s.fget f :=
    fun f hf => fget_tuFired (key_count_ne u hf)
  have hunit := (unit_tuFired u stamp time fine meas rest s).1
  have honly := (onlyFields_tuFired u stamp time fine meas rest s).mono (gs := [F.CAP_TUCNT_COUNT u, F.CAP_EVT_TRIG]) (by simp)
  have hsteady : steady s (tuFired u stamp time fine meas rest s) := ⟨rfl, rfl, rfl⟩
  have hevq : (tuFired u stamp time fine meas rest s).evq = s.evq := rfl
  have hen' : (tuFired u stamp time fine meas rest s).fbit (evten F.CAP_EVT_TRIG) = true :=
    (congrArg (· == 1) (hkeep F.CAP_EVTEN_TRIG (by simp))).trans hen
  have hposted' : (tuFired u stamp time fine meas rest s).tuPosted u = false := hposted
  generalize tuFired u stamp time fine meas rest s = v at hkeep hunit honly hsteady hevq hen' hposted'
  rw [tuPost, if_neg (by simp [hposted']), State.raiseAt]
  dsimp only
  rw [if_pos hen', hunit, hkeep (F.CAP_TUSRC_KIND u) (by simp), hkeep (F.CAP_TUSRC_BANK u) (by simp),
    hkeep (F.CAP_TUSRC_PIN u) (by simp), hkeep (F.CAP_TUCTL_COND u) (by simp), hkeep (F.CAP_TUSTAT_DROP u) (by simp)]
  refine ⟨?_, ?_, hsteady, onlyFields_to (honly.fset (f := F.CAP_EVT_TRIG) (by simp) 1) rfl⟩
  · exact State.fget_fset_same v F.CAP_EVT_TRIG 1
  · exact congrArg (· ++ _) hevq

/-- Settles O39: an enable, a register write and a firing are one guard each; of the 16 units a crossing reaches those that watch
the pin (`foldl_unitCrossing`). -/
theorem triggerUnitsFire : Obligations.TriggerUnitsFire := by
  unfold Obligations.TriggerUnitsFire
  refine ⟨?enableOn, ?enableInvalid, fun u w s h => tuInvalid_of_word s h, ?enable, ?disable, ?writeOn, ?writeWord, ?writeThr,
    ?writeSrc, ?writeCtl, ?crossing, fun bank pin mv fine hi up s h => exec_pinCrossing_of_off h, ?crossingMatch, ?fire, ?firePost,
    ?fireHeld, ?holdoff, ?fireNone, ?holdoffNone⟩
  case enableOn =>
    intro u w s hrsv hon
    exact leads_of ((regCmd_of_kept _ hrsv).trans (congrArg Host.Outcome.next (tuEnable_of_on hon))) (tuWerr_sets u s)
  case enableInvalid =>
    intro u w s hrsv hoff hinv
    exact leads_of ((regCmd_of_kept _ hrsv).trans (congrArg Host.Outcome.next (tuEnable_invalid hoff hinv)))
      (tuRefused_sets u w s hoff)
  case enable =>
    intro u w s hrsv hoff hval
    exact leads_of ((regCmd_of_kept _ hrsv).trans (congrArg Host.Outcome.next (tuEnable_valid hoff hval))) (tuEnabled_sets u w s)
  case disable =>
    intro u s
    exact leads_of (t := tuDisable u s) rfl ⟨s.fget_fset_same _ 0, State.unit_modUnit_same _ _ _, fun v hv => State.unit_modUnit_ne _ _ hv,
      ⟨rfl, rfl, rfl⟩, rfl, onlyFields_fset 0 (onlyFields.refl _ s) (List.mem_singleton.2 rfl)⟩
  case writeOn =>
    intro u off w s hrsv hoff hon
    exact leads_of ((regCmd_of_kept _ hrsv).trans (congrArg Host.Outcome.next (tuRegWrite_of_on hoff hon))) (tuWerr_sets u s)
  case writeWord =>
    intro u off f w s hrsv hoff hf
    obtain ⟨hwrite, hwidth⟩ := tuRegWrite_word (w := w) hoff hf
    refine leads_of ((regCmd_of_kept _ hrsv).trans (congrArg Host.Outcome.next hwrite))
      ⟨?_, rfl, ⟨rfl, rfl, rfl⟩, rfl, (onlyFields.refl _ s).fset (List.mem_singleton.2 rfl) _⟩
    rw [State.fget_fset_same, hwidth]
    exact Nat.mod_eq_of_lt w.isLt
  case writeThr =>
    intro u w s hrsv hoff
    obtain ⟨hcap, hsteady, hevq, honly⟩ := fsetAll_sets [(F.CAP_TUTHR_HI u, fieldOf w 16 12), (F.CAP_TUTHR_LO u, fieldOf w 0 12)] s
    have hnd : ([(F.CAP_TUTHR_HI u, fieldOf w 16 12), (F.CAP_TUTHR_LO u, fieldOf w 0 12)].map fun e => e.1.key).Nodup := by
      simp [Fld.key, F.CAP_TUTHR_HI, F.CAP_TUTHR_LO]
    exact leads_of ((regCmd_of_kept _ hrsv).trans (congrArg Host.Outcome.next (tuRegWrite_thr hoff)))
      ⟨(fget_fsetAll hnd (by simp) s).trans (Nat.mod_eq_of_lt (fieldOf_lt w 16 12)),
        (fget_fsetAll hnd (by simp) s).trans (Nat.mod_eq_of_lt (fieldOf_lt w 0 12)), hcap, hsteady, hevq, honly⟩
  case writeSrc =>
    intro u w s hrsv hoff
    obtain ⟨hcap, hsteady, hevq, honly⟩ := fsetAll_sets [(F.CAP_TUSRC_KIND u, fieldOf w 10 1), (F.CAP_TUSRC_BANK u, fieldOf w 7 3),
      (F.CAP_TUSRC_PIN u, fieldOf w 0 6)] s
    have hnd : ([(F.CAP_TUSRC_KIND u, fieldOf w 10 1), (F.CAP_TUSRC_BANK u, fieldOf w 7 3),
        (F.CAP_TUSRC_PIN u, fieldOf w 0 6)].map fun e => e.1.key).Nodup := by
      simp [Fld.key, F.CAP_TUSRC_KIND, F.CAP_TUSRC_BANK, F.CAP_TUSRC_PIN]
    exact leads_of ((regCmd_of_kept _ hrsv).trans (congrArg Host.Outcome.next (tuRegWrite_src hoff)))
      ⟨(fget_fsetAll hnd (by simp) s).trans (Nat.mod_eq_of_lt (fieldOf_lt w 10 1)),
        (fget_fsetAll hnd (by simp) s).trans (Nat.mod_eq_of_lt (fieldOf_lt w 7 3)),
        (fget_fsetAll hnd (by simp) s).trans (Nat.mod_eq_of_lt (fieldOf_lt w 0 6)), hcap, hsteady, hevq, honly⟩
  case writeCtl =>
    intro u w s h
    have hwrite : tuRegWrite u 0 w = tuEnable u w := funext fun s => (if_pos rfl).trans (if_pos h)
    simp only [exec, execTuRegWrite, execTuEnable, hwrite, Nat.add_zero]
  case crossing =>
    intro bank pin mv fine hi up s
    by_cases hbank : (s.bank bank).st = .off
    · exact leads_of (exec_pinCrossing_of_off hbank) ⟨⟨rfl, rfl, rfl⟩, rfl, onlyFields.refl _ s, fun _ _ => rfl⟩
    have hexec := exec_pinCrossing_of_on (pin := pin) (mv := mv) (fine := fine) (hi := hi) (up := up) hbank
    have hframe : Fr 0x60010 s _ := exec_frame _ hexec
    refine leads_of hexec ⟨⟨hframe.h_seq rfl, hframe.h_clauses rfl, hframe.h_mem rfl⟩, hframe.h_evq rfl,
      onlyFields.of_frame _ (by decide) hframe, fun b hb => ?_⟩
    rw [foldl_same (fun t => t.bank b) fun t v => bank_unitCrossing bank pin hi up mv fine t v b]
    exact (padCross_leaves bank pin hi up s).2.1 b hb
  case crossingMatch =>
    intro u bank pin mv fine s hu hbank hon hothers hkind hb hp hthr hlevel hcond hpol
    have hexec := exec_pinCrossing_of_on (pin := pin) (mv := mv) (fine := fine) (hi := true) (up := true) hbank
    have hframe : Fr 0x60010 s _ := exec_frame _ hexec
    have hrise : polRise (s.fget (F.CAP_TUCTL_POL u)) = true := by
      simp only [List.mem_cons, List.not_mem_nil, or_false] at hpol
      rcases hpol with h | h <;> rw [h] <;> rfl
    obtain ⟨hlev, hdue, hrest⟩ := foldl_unitCrossing_rising (fine := fine) hu hon hothers hkind hb hp hthr hlevel hcond hrise
    exact leads_of hexec ⟨hlev, hdue, hrest, ⟨hframe.h_seq rfl, hframe.h_clauses rfl, hframe.h_mem rfl⟩, hframe.h_evq rfl,
      onlyFields.of_frame _ (by decide) hframe⟩
  case fire =>
    intro u ticks stamp time fine meas rest s hdue hst hact hsig
    obtain ⟨hunit, hothers⟩ := unit_tuFired u stamp time fine meas rest s
    have hact' : (tuFired u stamp time fine meas rest s).fget (F.CAP_TUCTL_ACT u) = 0 :=
      (fget_tuFired (key_count_ne u (by simp))).trans hact
    refine leads_of ((exec_triggerFire_armed hdue hst hsig).trans (congrArg Host.Outcome.next (tuActions_of_none hact')))
      ⟨hunit, ?_, hothers, ⟨rfl, rfl, rfl⟩, rfl, onlyFields_tuFired u stamp time fine meas rest s⟩
    exact State.fget_count_same (tuTaken u rest s) _
  case firePost =>
    intro u ticks stamp time fine meas rest s hdue hst hact hsig hposted hen
    have hact' : (tuFired u stamp time fine meas rest s).fget (F.CAP_TUCTL_ACT u) = 1 :=
      (fget_tuFired (key_count_ne u (by simp))).trans hact
    exact leads_of ((exec_triggerFire_armed hdue hst hsig).trans (congrArg Host.Outcome.next (tuActions_of_post hact')))
      (tuPost_tuFired hposted hen)
  case fireHeld =>
    intro u ticks m rest s hdue hst hheld
    have hst' : ((tuTaken u rest s).unit u).st = .holdoff := by simp [tuTaken, hst]
    refine leads_of ((exec_triggerFire_match hdue).trans (congrArg Host.Outcome.next
      (tuAct_of_held hst' ((tuHeld_tuTaken u u m.1 m.2.1 rest s).trans hheld)))) ⟨?_, fun v hv => ?_, ⟨rfl, rfl, rfl⟩, rfl, onlyFields.refl _ _⟩
    · simp [tuTaken]
    · rw [State.unit_modUnit_ne _ _ hv, tuTaken, State.unit_modUnit_ne _ _ hv]
  case holdoff =>
    intro u s hst hdue hheld
    refine leads_of (t := s.modUnit u fun x => { x with st := .armed }) ?_ ⟨s.unit_modUnit_same _ _, fun v hv => s.unit_modUnit_ne _ hv,
      ⟨rfl, rfl, rfl⟩, rfl, onlyFields.refl _ _⟩
    exact congrArg Host.Outcome.next (if_pos (by simp [hst, hdue, hheld]))
  case fireNone =>
    intro u ticks s hdue hstands
    simp only [exec, execTriggerFire, triggerFire, hdue, hstands]
    rfl
  case holdoffNone =>
    intro u s h
    refine congrArg Host.Outcome.next (if_neg ?_)
    rcases h with h | h | h
    · simp [h]
    · simp [h]
    · simp [h]

end Sys2Proof.Machine
end

section
/-! What a change of a debug level leaves of the registers of authorisation (R396, R424, R432, R436). -/
namespace Sys2Proof.Machine

/-- The registers of an authorisation's outcome, and EXTEST. -/
def authRegs : List Fld :=
  [F.DBG_AUTH_LEVEL, F.DBG_AUTH_METHOD, F.DBG_AUTH_RESULT, F.DBG_AUTH_FAILS, F.DBG_EVT_AUTH, F.DBG_EVT_LOCKOUT, F.DBG_STAT_EXTEST]

/-- From s to t the registers of authorisation and EXTEST stand. -/
def authKept (s t : State) : Prop := ∀ g ∈ authRegs, t.fget g = s.fget g

theorem authKept.refl (s : State) : authKept s s := fun _ _ => rfl

theorem authKept.trans {s t u : State} (h : authKept s t) (g : authKept t u) : authKept s u :=
  fun f hf => (g f hf).trans (h f hf)

theorem authRegs_block : ∀ g ∈ authRegs, g.block = 13 := by decide

/-- What stays out of the registers of DBG leaves them. -/
theorem authKept.of_frame {E : Nat} {s t : State} (h : Fr E s t) (hE : E.testBit 38 = false) : authKept s t :=
  fun g hg => h.h_regs g (by rw [authRegs_block g hg]; exact hE)

theorem authKept.fset {s t : State} (h : authKept s t) {f : Fld} (v : Nat) (hf : ∀ g ∈ authRegs, g.key ≠ f.key) :
    authKept s (t.fset f v) := fun g hg => (t.fget_fset_ne v (hf g hg)).trans (h g hg)

theorem authKept.raise {s t : State} (h : authKept s t) {f : Fld} (src code : Nat) (p : List Nat)
    (hf : ∀ g ∈ authRegs, g.key ≠ f.key) : authKept s (t.raise f src code p) :=
  fun g hg => (t.fget_raise_ne src code p (hf g hg)).trans (h g hg)

theorem authKept.ite {s t u : State} {c : Prop} [Decidable c] (ht : authKept s t) (hu : authKept s u) :
    authKept s (if c then t else u) := by
  split
  · exact ht
  · exact hu

theorem authKept.foldl {α : Type} {f : State → α → State} (hf : ∀ t a, authKept t (f t a)) (l : List α) {s t : State}
    (h : authKept s t) : authKept s (l.foldl f t) :=
  List.foldlRecOn l f (motive := authKept s) h fun t ht a _ => ht.trans (hf t a)

/-! ### The sequencer's debug hold and what it asserts (R40, R426, R436) -/

theorem authKept_xtOutputs (ch : Nat) (fromLink : Bool) (s : State) : authKept s (xtOutputs ch fromLink s) :=
  .of_frame (xtOutputs_frame ch fromLink (Fr.refl 0x28004460b1 s) rfl) rfl

/-- The device with the sequencer in DBG_HOLD, before its event. -/
def heldState (s : State) : State :=
  if s.seq.st == .running then ellipsisBegin .dbgHold (stopRequest s)
  else ellipsisSample { stopRequest s with seq := { (stopRequest s).seq with st := .dbgHold } }

theorem authKept_heldState (s : State) : authKept s (heldState s) := by
  have hstop : authKept s (stopRequest s) := .of_frame (stopRequest_frame (Fr.refl 0x4200 s) rfl) rfl
  have hbegin : authKept (stopRequest s) (ellipsisBegin .dbgHold (stopRequest s)) :=
    .of_frame (ellipsisBegin_frame .dbgHold (Fr.refl 0x200 (stopRequest s)) rfl) rfl
  exact .ite (hstop.trans hbegin) hstop

theorem authKept_seqHalt (cause : Nat) (s : State) : authKept s (seqHalt cause s) := by
  unfold seqHalt
  refine .ite (.refl s) (authKept.foldl (fun t ch => authKept_xtOutputs ch false t) _ (authKept.raise ?_ _ _ _ (by decide)))
  exact authKept.fset (f := F.DBG_STAT_HCAUSE) (authKept_heldState s) cause (by decide)

theorem authKept_xtAssert (fromLink : Bool) (at_ : Option Nat) (s : State) (ch : Nat) : authKept s (xtAssert fromLink at_ s ch) := by
  have hout := authKept_xtOutputs ch fromLink s
  have hhalt := hout.trans (authKept_seqHalt 1 (xtOutputs ch fromLink s))
  unfold xtAssert
  refine .ite ?_ hout
  cases at_ with
  | none => exact hhalt
  | some t => exact .ite hout hhalt

theorem authKept_xtInput (bit : Nat) (s : State) : authKept s (xtInput bit s) :=
  authKept.foldl (fun t ch => authKept_xtAssert (bit == 2) none t ch) _ (.refl s)

theorem authKept_seqStop (reason at_ dev : Nat) (s : State) : authKept s (seqStop reason at_ dev s) := by
  refine authKept.trans ?_ (authKept_xtInput 6 _)
  exact authKept.raise (fun _ _ => rfl) _ _ _ (by decide)

theorem authKept_lateStop (f dev : Nat) (s : State) : authKept s (lateStop f dev s) := by
  have hclose : authKept s (if s.seq.st == .ellipsis then ellipsisClose s else s) :=
    .ite (.of_frame (ellipsisClose_frame (Fr.refl 0x40000200 s) rfl) rfl) (.refl s)
  exact (hclose.raise (f := F.SEQ_EVT_FENCE_LATE) _ _ _ (by decide)).trans (authKept_seqStop 3 (s.seq.step - 1) dev _)

theorem authKept_seqResume (cause : Nat) (s : State) : authKept s (seqResume cause s) := by
  have hraise : authKept s (ellipsisSample ({ s with seq := { s.seq with st := .ellipsis } }.raise F.DBG_EVT_HALT 13 2
      ([0, 1, cause] ++ w64 s.seq.step))) :=
    authKept.raise (f := F.DBG_EVT_HALT) (s := s) (t := { s with seq := { s.seq with st := .ellipsis } }) (fun _ _ => rfl) _ _ _
      (by decide)
  unfold seqResume
  refine .ite ?_ (.refl s)
  dsimp only
  split
  · exact .ite (hraise.trans (authKept_lateStop _ _ _)) hraise
  · exact hraise

/-! ### Pairs and sleep (R432, R435, R447) -/

theorem authKept_pairResume (p cause : Nat) (s : State) : authKept s (pairResume p cause s) := by
  unfold pairResume
  refine .ite (authKept.trans ?_ (.of_frame (mtHalt_frame p false (Fr.refl 0x28004420a0 _) rfl) rfl)) (.refl s)
  exact authKept.raise (fun _ _ => rfl) _ _ _ (by decide)

theorem authKept_levelFell (s : State) : authKept s (levelFell s) := by
  have hpairs : authKept s ([0, 1].foldl (fun s p => if s.topLevel < s.pairLevel p then pairResume p 2 s else s) s) :=
    authKept.foldl (fun t p => .ite (authKept_pairResume p 2 t) (.refl t)) _ (.refl s)
  unfold levelFell
  refine authKept.trans (t := _) ?_ (.of_frame (sleepEnd_frame (Fr.refl 0x2d01066420 _) rfl) rfl)
  exact .ite (hpairs.trans (authKept_seqResume 2 _)) hpairs

end Sys2Proof.Machine
end

section
/-! The levels of the debug paths (R417, R419, R421 to R424) and O40. -/
namespace Sys2Proof.Machine

theorem mtMoved.mtWatch {s t : State} (h : mtMoved s t) (src : Nat) : mtMoved s (mtWatch src t) := by
  unfold Machine.mtWatch
  refine .ite h (.ite (.ite (mtMoved.mtSync ?_ _ _) h) (.ite h ?_))
  · exact h.modMt (fun x => { x with excl := kvSet false x.excl src false }) fun _ => rfl
  · exact (h.mtPacket _ _ _ _).modMt (fun x => { x with excl := kvSet false x.excl src true }) fun _ => rfl

/-- The device with a path's level set, before what follows from it. -/
def State.withLevel (s : State) (p : Path) (l : Nat) : State :=
  { s with dbg := match p with
    | .tap => { s.dbg with tapLevel := l }
    | .host => { s.dbg with hostLevel := l } }

theorem level_withLevel_same (s : State) (p : Path) (l : Nat) : (s.withLevel p l).level p = l := by
  cases p <;> rfl

theorem level_withLevel_ne (s : State) {p q : Path} (l : Nat) (h : q ≠ p) : (s.withLevel p l).level q = s.level q := by
  cases p <;> cases q <;> first | rfl | exact absurd rfl h

theorem level_of_dbg {s t : State} (h : t.dbg = s.dbg) (p : Path) : t.level p = s.level p := by
  cases p
  · exact congrArg Dbg.tapLevel h
  · exact congrArg Dbg.hostLevel h

theorem setLevel_eq (p : Path) (l : Nat) (s : State) : setLevel p l s =
    mtWatch 1 (mtWatch 0 (if l < s.level p then levelFell (s.withLevel p l) else s.withLevel p l)) := by
  cases p <;> rfl

/-- A level that does not fall changes besides itself the management trace alone (R396). -/
theorem setLevel_of_not_lt {p : Path} {l : Nat} {s : State} (h : s.level p ≤ l) : mtMoved (s.withLevel p l) (setLevel p l s) := by
  rw [setLevel_eq, if_neg (not_lt.2 h)]
  exact ((mtMoved.refl _).mtWatch 0).mtWatch 1

/-- Whatever follows from it, a new level is the path's, and the rest of what DBG holds stands. -/
theorem dbg_setLevel (p : Path) (l : Nat) (s : State) : (setLevel p l s).dbg = (s.withLevel p l).dbg := by
  rw [setLevel_eq, (mtWatch_frame 1 (Fr.refl 0x40000 _) rfl).h_dbg rfl, (mtWatch_frame 0 (Fr.refl 0x40000 _) rfl).h_dbg rfl]
  split
  · exact (levelFell_frame (Fr.refl 0x6d414666b1 _) rfl).h_dbg rfl
  · rfl

theorem level_setLevel_same (p : Path) (l : Nat) (s : State) : (setLevel p l s).level p = l :=
  (level_of_dbg (dbg_setLevel p l s) p).trans (level_withLevel_same s p l)

theorem level_setLevel_ne {p q : Path} (l : Nat) (s : State) (h : q ≠ p) : (setLevel p l s).level q = s.level q :=
  (level_of_dbg (dbg_setLevel p l s) q).trans (level_withLevel_ne s l h)

theorem authKept_setLevel (p : Path) (l : Nat) (s : State) : authKept s (setLevel p l s) := by
  rw [setLevel_eq]
  refine authKept.trans (authKept.trans ?_ (.of_frame (mtWatch_frame 0 (Fr.refl 0x40000 _) rfl) rfl))
    (.of_frame (mtWatch_frame 1 (Fr.refl 0x40000 _) rfl) rfl)
  exact .ite (authKept.trans (t := s.withLevel p l) (fun _ _ => rfl) (authKept_levelFell _)) (fun _ _ => rfl)

/-! ### Reports of an authorisation (R423, R443) -/

/-- The registers that a report writes. -/
def authFields : List Fld := [F.DBG_AUTH_LEVEL, F.DBG_AUTH_METHOD, F.DBG_AUTH_RESULT, F.DBG_EVT_AUTH]

theorem onlyFields_authReport (p : Path) (level method r : Nat) (s : State) :
    onlyFields authFields s (authReport p level method r s) := by
  have hset : onlyFields authFields s (((s.fset F.DBG_AUTH_LEVEL level).fset F.DBG_AUTH_METHOD method).fset F.DBG_AUTH_RESULT r) :=
    (((onlyFields.refl _ s).fset (by simp [authFields]) _).fset (by simp [authFields]) _).fset (by simp [authFields]) _
  unfold authReport
  dsimp only
  split
  · exact hset
  · exact hset.raise (by simp [authFields]) _ _ _

theorem authReport_leaves (p : Path) (level method r : Nat) (s : State) : (authReport p level method r s).dbg = s.dbg ∧
    (authReport p level method r s).seq = s.seq ∧ (authReport p level method r s).clauses = s.clauses ∧
      (authReport p level method r s).mem = s.mem := by
  unfold authReport
  dsimp only
  split
  · exact ⟨rfl, rfl, rfl, rfl⟩
  · simp

/-- LEVEL, METHOD and RESULT as a report writes them. -/
theorem fget_authReport (p : Path) (level method r : Nat) (s : State) :
    (authReport p level method r s).fget F.DBG_AUTH_LEVEL = level % 4 ∧
      (authReport p level method r s).fget F.DBG_AUTH_METHOD = method % 2 ∧
      (authReport p level method r s).fget F.DBG_AUTH_RESULT = r % 256 := by
  have hset : let u := ((s.fset F.DBG_AUTH_LEVEL level).fset F.DBG_AUTH_METHOD method).fset F.DBG_AUTH_RESULT r
      u.fget F.DBG_AUTH_LEVEL = level % 4 ∧ u.fget F.DBG_AUTH_METHOD = method % 2 ∧ u.fget F.DBG_AUTH_RESULT = r % 256 := by
    refine ⟨?_, ?_, ?_⟩
    · rw [State.fget_fset_ne _ _ (by decide), State.fget_fset_ne _ _ (by decide), State.fget_fset_same]
      rfl
    · rw [State.fget_fset_ne _ _ (by decide), State.fget_fset_same]
      rfl
    · rw [State.fget_fset_same]
      rfl
  obtain ⟨hlevel, hmethod, hresult⟩ := hset
  unfold authReport
  dsimp only
  split
  · exact ⟨hlevel, hmethod, hresult⟩
  · exact ⟨(State.fget_raise_ne _ _ _ _ (by decide)).trans hlevel, (State.fget_raise_ne _ _ _ _ (by decide)).trans hmethod,
      (State.fget_raise_ne _ _ _ _ (by decide)).trans hresult⟩

/-- A report other than WAIT is posted, seen from a state with the records, the clocks and the enable bit of the one it is made in. -/
theorem posted_authReport (p : Path) (level method : Nat) {r : Nat} {s u : State} (hr : r ≠ 0xFE) (hevq : u.evq = s.evq)
    (hseq : u.seq = s.seq) (htime : u.ptime = s.ptime) (hen : u.fget (evten F.DBG_EVT_AUTH) = s.fget (evten F.DBG_EVT_AUTH)) :
    posted F.DBG_EVT_AUTH 13 1 [pathNum p, level, method, r] s (authReport p level method r u) := by
  have hen' : (((u.fset F.DBG_AUTH_LEVEL level).fset F.DBG_AUTH_METHOD method).fset F.DBG_AUTH_RESULT r).fget
      (evten F.DBG_EVT_AUTH) = s.fget (evten F.DBG_EVT_AUTH) := by
    rw [State.fget_fset_ne _ _ (by decide), State.fget_fset_ne _ _ (by decide), State.fget_fset_ne _ _ (by decide), hen]
  unfold authReport
  dsimp only
  rw [if_neg hr]
  exact posted_raise _ _ _ rfl hevq (congrArg Seq.step hseq) htime hen'

/-- A level that does not fall leaves the records, the sequencer, memory, every register and the items of authorisation. -/
theorem setLevel_leaves {p : Path} {l : Nat} {s : State} (h : s.level p ≤ l) : (setLevel p l s).evq = s.evq ∧
    (setLevel p l s).seq = s.seq ∧ (setLevel p l s).clauses = s.clauses ∧ (setLevel p l s).mem = s.mem ∧
      (setLevel p l s).dbg.pw = s.dbg.pw ∧ (setLevel p l s).dbg.keyx = s.dbg.keyx ∧ (setLevel p l s).dbg.sa = s.dbg.sa ∧
      ∀ g, (setLevel p l s).fget g = s.fget g := by
  obtain ⟨m, hm, -⟩ := setLevel_of_not_lt h
  rw [hm]
  cases p <;> exact ⟨rfl, rfl, rfl, rfl, rfl, rfl, rfl, fun _ => rfl⟩

/-! ### Passwords (R421) -/

/-- The password items are cleared by every answer (R421). -/
def pwCleared (s : State) : State := { s with dbg := { s.dbg with pw := [] } }

theorem authPassword_refused {p : Path} {level r : Nat} {s : State} (hr : r = (if s.authBusy p = true then 6 else
    if 8 ≤ s.fget F.DBG_AUTH_FAILS then 4 else if s.pwMax = 0 ∨ s.pwMax < level then 5 else 0)) (hne : r ≠ 0) :
    authPassword p level s = authReport p level 0 r (pwCleared s) := by
  unfold authPassword
  dsimp only
  by_cases hbusy : s.authBusy p = true
  · rw [if_pos hbusy] at hr
    rw [if_pos hbusy, hr]
    rfl
  rw [if_neg hbusy] at hr
  rw [if_neg hbusy]
  by_cases hlock : 8 ≤ s.fget F.DBG_AUTH_FAILS
  · rw [if_pos hlock] at hr
    rw [if_pos hlock, hr]
    rfl
  rw [if_neg hlock] at hr
  rw [if_neg hlock]
  by_cases hmax : s.pwMax = 0 ∨ s.pwMax < level
  · rw [if_pos hmax] at hr
    rw [if_pos hmax, hr]
    rfl
  · rw [if_neg hmax] at hr
    exact absurd hr hne

section
variable {p : Path} {level : Nat} {s : State} (hbusy : s.authBusy p = false) (hfails : s.fget F.DBG_AUTH_FAILS < 8)
  (hmax : 0 < s.pwMax) (hlevel : level ≤ s.pwMax)

include hbusy hfails hmax hlevel

/-- A password that is right sets the level after its report. -/
theorem authPassword_right (hmatch : s.pwMatches = true) : authPassword p level s =
    setLevel p level (authReport p level 0 0 ((pwCleared s).fset F.DBG_AUTH_FAILS 0)) := by
  unfold authPassword
  dsimp only
  rw [if_neg (by simp [hbusy]), if_neg (by omega), if_neg (by omega), if_pos hmatch]
  rfl

/-- A password that is wrong is counted; the eighth also raises the lockout. -/
theorem authPassword_wrong (hmatch : s.pwMatches = false) : authPassword p level s =
    (let u := authReport p level 0 1 ((pwCleared s).fset F.DBG_AUTH_FAILS (s.fget F.DBG_AUTH_FAILS + 1))
    if s.fget F.DBG_AUTH_FAILS + 1 = 8 then u.raise F.DBG_EVT_LOCKOUT 13 4 [8] else u) := by
  unfold authPassword
  dsimp only
  rw [if_neg (by simp [hbusy]), if_neg (by omega), if_neg (by omega), if_neg (by simp [hmatch])]
  rfl

end

/-- The state that answers a password, with FAILS as the answer leaves it, before a change of level. -/
def pwAnswered (p : Path) (level r fails : Nat) (s : State) : State :=
  authReport p level 0 r ((pwCleared s).fset F.DBG_AUTH_FAILS fails)

theorem pwAnswered_sets {p : Path} {level r fails : Nat} (s : State) (hr : r < 2) (hfails : fails < 16) :
    let t := pwAnswered p level r fails s
    t.dbg = { s.dbg with pw := [] } ∧ t.fget F.DBG_AUTH_RESULT = r ∧ t.fget F.DBG_AUTH_FAILS = fails ∧
      t.fget F.DBG_EVT_LOCKOUT = s.fget F.DBG_EVT_LOCKOUT ∧ posted F.DBG_EVT_AUTH 13 1 [pathNum p, level, 0, r] s t ∧ steady s t ∧
      onlyFields [F.DBG_AUTH_LEVEL, F.DBG_AUTH_METHOD, F.DBG_AUTH_RESULT, F.DBG_AUTH_FAILS, F.DBG_EVT_AUTH] s t := by
  have hcounted : onlyFields [F.DBG_AUTH_FAILS] s ((pwCleared s).fset F.DBG_AUTH_FAILS fails) :=
    (show onlyFields [F.DBG_AUTH_FAILS] s (pwCleared s) from onlyFields.refl _ s).fset (List.mem_singleton.2 rfl) fails
  obtain ⟨hdbg, hseq, hcl, hmem⟩ := authReport_leaves p level 0 r ((pwCleared s).fset F.DBG_AUTH_FAILS fails)
  have honly := onlyFields_authReport p level 0 r ((pwCleared s).fset F.DBG_AUTH_FAILS fails)
  refine ⟨hdbg, (fget_authReport p level 0 r _).2.2.trans (Nat.mod_eq_of_lt (by omega)), ?_, ?_,
    posted_authReport p level 0 (by omega) rfl rfl rfl (hcounted _ (by decide)), ⟨hseq, hcl, hmem⟩,
    (hcounted.mono (by simp)).trans (honly.mono (by simp [authFields]))⟩
  · exact (honly _ (by decide)).trans ((State.fget_fset_same _ _ _).trans (Nat.mod_eq_of_lt hfails))
  · exact (honly _ (by decide)).trans (hcounted _ (by decide))

theorem level_pwAnswered (p : Path) (level r fails : Nat) (q : Path) (s : State) :
    (pwAnswered p level r fails s).level q = s.level q := by
  have hdbg := (authReport_leaves p level 0 r ((pwCleared s).fset F.DBG_AUTH_FAILS fails)).1
  exact (level_of_dbg hdbg q).trans (by cases q <;> rfl)

/-- A password that grants a level not below the path's (R421). -/
theorem pwGranted_sets {p : Path} {level : Nat} (s : State) (hlevel : s.level p ≤ level) :
    let t := setLevel p level (pwAnswered p level 0 0 s)
    t.fget F.DBG_AUTH_RESULT = 0 ∧ t.fget F.DBG_AUTH_FAILS = 0 ∧ t.fget F.DBG_EVT_LOCKOUT = s.fget F.DBG_EVT_LOCKOUT ∧
      t.dbg.pw = [] ∧ posted F.DBG_EVT_AUTH 13 1 [pathNum p, level, 0, 0] s t ∧ steady s t ∧
      onlyFields [F.DBG_AUTH_LEVEL, F.DBG_AUTH_METHOD, F.DBG_AUTH_RESULT, F.DBG_AUTH_FAILS, F.DBG_EVT_AUTH] s t := by
  obtain ⟨hdbg, hres, hf, hlock, hposted, ⟨hseq, hcl, hmem⟩, honly⟩ := pwAnswered_sets (p := p) (level := level) (r := 0) (fails := 0) s
    (by decide) (by decide)
  have hlvl : (pwAnswered p level 0 0 s).level p ≤ level := by rwa [level_pwAnswered]
  generalize pwAnswered p level 0 0 s = u at hdbg hres hf hlock hposted hseq hcl hmem honly hlvl ⊢
  obtain ⟨hevq', hseq', hcl', hmem', hpw', -, -, hfget'⟩ := setLevel_leaves hlvl
  exact ⟨(hfget' _).trans hres, (hfget' _).trans hf, (hfget' _).trans hlock, hpw'.trans (congrArg Dbg.pw hdbg),
    posted_to hposted hevq' (hfget' _), ⟨hseq'.trans hseq, hcl'.trans hcl, hmem'.trans hmem⟩,
    fun g hg => (hfget' g).trans (honly g hg)⟩

/-! ### Key exchange (R422) -/

theorem keyxEnd_sets {k : Keyx} {r : Nat} (s : State) (hr : r < 254) :
    let t := keyxEnd k r s
    t.dbg = { s.dbg with keyx := none, sa := [] } ∧ t.fget F.DBG_AUTH_RESULT = r ∧
      posted F.DBG_EVT_AUTH 13 1 [pathNum k.path, k.level, 1, r] s t ∧ steady s t := by
  obtain ⟨hdbg, hseq, hcl, hmem⟩ := authReport_leaves k.path k.level 1 r { s with dbg := { s.dbg with keyx := none, sa := [] } }
  exact ⟨hdbg, (fget_authReport k.path k.level 1 r _).2.2.trans (Nat.mod_eq_of_lt (by omega)),
    posted_authReport k.path k.level 1 (by omega) rfl rfl rfl rfl, hseq, hcl, hmem⟩

theorem level_keyxEnd (k : Keyx) (r : Nat) (q : Path) (s : State) : (keyxEnd k r s).level q = s.level q := by
  have hdbg := (authReport_leaves k.path k.level 1 r { s with dbg := { s.dbg with keyx := none, sa := [] } }).1
  exact (level_of_dbg hdbg q).trans (by cases q <;> rfl)

/-- Nothing of a key exchange is kept once it has granted its level. -/
theorem keyxGranted_cleared (k : Keyx) (l : Nat) (s : State) : (setLevel k.path l (keyxEnd k 0 s)).dbg.keyx = none ∧
    (setLevel k.path l (keyxEnd k 0 s)).dbg.sa = [] := by
  obtain ⟨hdbg, -, -, -⟩ := keyxEnd_sets (k := k) (r := 0) s (by decide)
  rw [dbg_setLevel]
  cases k.path <;> simp [State.withLevel, hdbg]

theorem authKeyx_right {k : Keyx} {level : Nat} {s : State} (hk : s.dbg.keyx = some k) (hsa : itemBytes s.dbg.sa 2 = k.sa) :
    authKeyx k.path level s = setLevel k.path k.level (keyxEnd k 0 s) := by
  simp [authKeyx, hk, hsa]

theorem authKeyx_wrong {k : Keyx} {level : Nat} {s : State} (hk : s.dbg.keyx = some k) (hsa : itemBytes s.dbg.sa 2 ≠ k.sa) :
    authKeyx k.path level s = keyxEnd k 3 s := by
  simp [authKeyx, hk, hsa]

theorem authKeyx_busy {k : Keyx} {p : Path} {level : Nat} {s : State} (hk : s.dbg.keyx = some k) (hp : k.path ≠ p) :
    authKeyx p level s = authReport p level 1 6 s := by
  simp [authKeyx, hk, hp]

theorem authKeyx_refused {p : Path} {level : Nat} {s : State} (hk : s.dbg.keyx = none) (hcert : s.certOk level = false) :
    authKeyx p level s = authReport p level 1 2 s := by
  simp [authKeyx, hk, hcert]

/-- The device with an exchange open. -/
def keyxOpened (k : Keyx) (dpub sb : Kv QWord) (s : State) : State :=
  { s with free := s.free + 1, dbg := { s.dbg with dpub := dpub, sb := sb, keyx := some k } }

/-- A certificate that allows the level opens an exchange. -/
theorem authKeyx_opened {p : Path} {level : Nat} {s : State} (hk : s.dbg.keyx = none) (hcert : s.certOk level = true) :
    ∃ dpub sb sa, authKeyx p level s = authReport p level 1 0xFE (keyxOpened ⟨p, level, s.now, sa⟩ dpub sb s) := by
  unfold authKeyx
  rw [hk]
  dsimp only
  rw [if_neg (by simp [hcert])]
  exact ⟨_, _, _, rfl⟩

/-- Settles O40: each answer is one report (`authReport`); a level that does not fall moves the management trace alone
(`setLevel_of_not_lt`), and one that falls leaves the registers of authorisation (`authKept_setLevel`). -/
theorem debugLevelsGranted : Obligations.DebugLevelsGranted := by
  unfold Obligations.DebugLevelsGranted
  refine ⟨?refused, ?password, ?eighth, ?passwordFell, ?busy, ?first, ?second, ?secondFell, ?wrong, ?timeout, ?noTimeout, ?drop⟩
  case refused =>
    intro p level r s hlevel hr hne
    have hlt : r < 254 := by
      rw [hr]
      split_ifs <;> decide
    obtain ⟨hdbg, hseq, hcl, hmem⟩ := authReport_leaves p level 0 r (pwCleared s)
    obtain ⟨hl, hm, hres⟩ := fget_authReport p level 0 r (pwCleared s)
    exact leads_of (congrArg Host.Outcome.next (authPassword_refused hr hne)) ⟨hl.trans (Nat.mod_eq_of_lt hlevel), hm,
      hres.trans (Nat.mod_eq_of_lt (by omega)), posted_authReport p level 0 (by omega) rfl rfl rfl rfl, hdbg, ⟨hseq, hcl, hmem⟩,
      onlyFields_authReport p level 0 r (pwCleared s)⟩
  case password =>
    intro p level s hbusy hfails hmax hle hlevel
    cases hmatch : s.pwMatches with
    | true =>
      obtain ⟨hres, hf, -, hpw, hposted, hsteady, honly⟩ := pwGranted_sets s hlevel
      exact leads_of (congrArg Host.Outcome.next (authPassword_right hbusy (by omega) hmax hle hmatch))
        ⟨level_setLevel_same _ _ _, fun q hq => (level_setLevel_ne _ _ hq).trans (level_pwAnswered _ _ _ _ q s), hres, hf, hpw,
          hposted, hsteady, honly⟩
    | false =>
      obtain ⟨hdbg, hres, hf, -, hposted, hsteady, honly⟩ := pwAnswered_sets (p := p) (level := level) (r := 1)
        (fails := s.fget F.DBG_AUTH_FAILS + 1) s (by decide) (by omega)
      exact leads_of (congrArg Host.Outcome.next ((authPassword_wrong hbusy (by omega) hmax hle hmatch).trans
        (if_neg (by omega)))) ⟨level_pwAnswered _ _ _ _ p s, fun q _ => level_pwAnswered _ _ _ _ q s, hres, hf,
          congrArg Dbg.pw hdbg, hposted, hsteady, honly⟩
  case eighth =>
    intro p level s hbusy hfails hmax hle hlevel
    cases hmatch : s.pwMatches with
    | true =>
      obtain ⟨-, hf, hlock, hpw, hposted, hsteady, honly⟩ := pwGranted_sets s hlevel
      exact leads_of (congrArg Host.Outcome.next (authPassword_right hbusy (by omega) hmax hle hmatch))
        ⟨hf, hposted.1, hlock, hpw, hsteady, honly.mono (by simp)⟩
    | false =>
      obtain ⟨hdbg, -, hf, -, hposted, ⟨hseq, hcl, hmem⟩, honly⟩ := pwAnswered_sets (p := p) (level := level) (r := 1)
        (fails := s.fget F.DBG_AUTH_FAILS + 1) s (by decide) (by omega)
      have hf8 : s.fget F.DBG_AUTH_FAILS + 1 = 8 := by omega
      refine leads_of (congrArg Host.Outcome.next ((authPassword_wrong hbusy (by omega) hmax hle hmatch).trans (if_pos hf8)))
        ⟨?_, ?_, ?_, ?_, ⟨?_, ?_, ?_⟩, ?_⟩
      · exact (State.fget_raise_ne _ _ _ _ (by decide)).trans (hf.trans hf8)
      · exact (State.fget_raise_ne _ _ _ _ (by decide)).trans hposted.1
      · exact (State.raise_posted _ _ _ _ _ rfl).1
      · exact (congrArg Dbg.pw (State.dbg_raise _ _ _ _ _)).trans (congrArg Dbg.pw hdbg)
      · exact (State.seq_raise _ _ _ _ _).trans hseq
      · exact (State.clauses_raise _ _ _ _ _).trans hcl
      · exact (State.mem_raise _ _ _ _ _).trans hmem
      · exact onlyFields_raise _ _ _ (honly.mono (by simp)) (by simp)
  case passwordFell =>
    intro p level s hbusy hfails hmax hle hmatch
    obtain ⟨hdbg, hres, hf, -, hposted, -, -⟩ := pwAnswered_sets (p := p) (level := level) (r := 0) (fails := 0) s
      (by decide) (by decide)
    have hkept := authKept_setLevel p level (pwAnswered p level 0 0 s)
    have hpw : ((pwAnswered p level 0 0 s).withLevel p level).dbg.pw = [] := by
      cases p <;> simp [State.withLevel, hdbg]
    exact leads_of (congrArg Host.Outcome.next (authPassword_right hbusy hfails hmax hle hmatch))
      ⟨level_setLevel_same _ _ _, fun q hq => (level_setLevel_ne _ _ hq).trans (level_pwAnswered _ _ _ _ q s),
        (hkept _ (by simp [authRegs])).trans hres, (hkept _ (by simp [authRegs])).trans hf,
        (congrArg Dbg.pw (dbg_setLevel _ _ _)).trans hpw, (hkept _ (by simp [authRegs])).trans hposted.1⟩
  case busy =>
    intro p level k s hk hp
    obtain ⟨hdbg, hseq, hcl, hmem⟩ := authReport_leaves p level 1 6 s
    exact leads_of (congrArg Host.Outcome.next (authKeyx_busy hk hp)) ⟨(fget_authReport p level 1 6 s).2.2,
      posted_authReport p level 1 (by decide) rfl rfl rfl rfl, hdbg, hseq, hcl, hmem⟩
  case first =>
    intro p level s hk
    cases hcert : s.certOk level with
    | false =>
      obtain ⟨hdbg, hseq, hcl, hmem⟩ := authReport_leaves p level 1 2 s
      exact leads_of (congrArg Host.Outcome.next (authKeyx_refused hk hcert)) ⟨(fget_authReport p level 1 2 s).2.2,
        fun _ => ⟨posted_authReport p level 1 (by decide) rfl rfl rfl rfl, hdbg⟩, fun h => absurd h (by simp),
        congrArg Dbg.tapLevel hdbg, congrArg Dbg.hostLevel hdbg, ⟨hseq, hcl, hmem⟩, onlyFields_authReport p level 1 2 s⟩
    | true =>
      obtain ⟨dpub, sb, sa, hopened⟩ := authKeyx_opened hk hcert
      obtain ⟨hdbg, hseq, hcl, hmem⟩ := authReport_leaves p level 1 0xFE (keyxOpened ⟨p, level, s.now, sa⟩ dpub sb s)
      exact leads_of (congrArg Host.Outcome.next hopened) ⟨(fget_authReport p level 1 0xFE _).2.2, fun h => absurd h (by simp),
        fun _ => ⟨rfl, sa, congrArg Dbg.keyx hdbg⟩, (congrArg Dbg.tapLevel hdbg).trans rfl,
        (congrArg Dbg.hostLevel hdbg).trans rfl, ⟨hseq, hcl, hmem⟩,
        onlyFields_authReport p level 1 0xFE _⟩
  case second =>
    intro level k s hk hsa hlevel
    obtain ⟨hdbg, hres, hposted, hseq, hcl, hmem⟩ := keyxEnd_sets (k := k) (r := 0) s (by decide)
    obtain ⟨hkeyx, hsaNil⟩ := keyxGranted_cleared k k.level s
    obtain ⟨hevq', hseq', hcl', hmem', -, -, -, hfget'⟩ := setLevel_leaves (p := k.path) (l := k.level) (s := keyxEnd k 0 s)
      (by rwa [level_keyxEnd])
    exact leads_of (congrArg Host.Outcome.next (authKeyx_right hk hsa)) ⟨level_setLevel_same _ _ _,
      fun q hq => (level_setLevel_ne _ _ hq).trans (level_keyxEnd k 0 q s), hkeyx, hsaNil, (hfget' _).trans hres,
      posted_to hposted hevq' (hfget' _), hseq'.trans hseq, hcl'.trans hcl, hmem'.trans hmem⟩
  case secondFell =>
    intro level k s hk hsa
    obtain ⟨-, hres, hposted, -⟩ := keyxEnd_sets (k := k) (r := 0) s (by decide)
    obtain ⟨hkeyx, hsaNil⟩ := keyxGranted_cleared k k.level s
    have hkept := authKept_setLevel k.path k.level (keyxEnd k 0 s)
    exact leads_of (congrArg Host.Outcome.next (authKeyx_right hk hsa)) ⟨level_setLevel_same _ _ _,
      fun q hq => (level_setLevel_ne _ _ hq).trans (level_keyxEnd k 0 q s), hkeyx, hsaNil,
      (hkept _ (by simp [authRegs])).trans hres, (hkept _ (by simp [authRegs])).trans hposted.1⟩
  case wrong =>
    intro level k s hk hsa
    obtain ⟨hdbg, hres, hposted, hsteady⟩ := keyxEnd_sets (k := k) (r := 3) s (by decide)
    exact leads_of (congrArg Host.Outcome.next (authKeyx_wrong hk hsa)) ⟨hdbg, hres, hposted, hsteady⟩
  case timeout =>
    intro k s hk
    obtain ⟨hdbg, hres, hposted, hsteady⟩ := keyxEnd_sets (k := k) (r := 3) s (by decide)
    refine leads_of (t := keyxEnd k 3 s) ?_ ⟨hdbg, hres, hposted, hsteady⟩
    simp [exec, execKeyxTimeout, keyxAbort, hk]
  case noTimeout =>
    intro s hk
    simp [exec, execKeyxTimeout, keyxAbort, hk]
  case drop =>
    intro p s
    refine leads_of (t := setLevel p 0 s) rfl ⟨level_setLevel_same p 0 s, fun q hq => level_setLevel_ne 0 s hq, fun hzero => ?_⟩
    obtain ⟨hevq, hseq, hcl, hmem, -, -, -, hfget⟩ := setLevel_leaves (p := p) (l := 0) (s := s) hzero.le
    exact ⟨hevq, ⟨hseq, hcl, hmem⟩, fun g _ => hfget g⟩

end Sys2Proof.Machine
end

section
/-! Cross-trigger inputs and the TAP's instructions (R436 to R439). -/
namespace Sys2Proof.Machine

section
variable {ch : Nat} {s : State}

/-- With MTCTL's starts and stops off and no link among its outputs, a channel reaches its pairs and its pin alone (R436). -/
theorem xtOutputs_of_pins (hlink : nbit (s.fget (F.DBG_XT_OUT ch)) 4 = false) (hpair : nbit (s.fget (F.DBG_XT_OUT ch)) 1 = false)
    (hstart : s.fbit F.CAP_MTCTL_START_EN = false) (hstop : s.fbit F.CAP_MTCTL_STOP_EN = false) :
    xtOutputs ch false s =
      (let u := if nbit (s.fget (F.DBG_XT_OUT ch)) 0 = true then pairHaltReq 0 1 s else s
      if nbit (s.fget (F.DBG_XT_OUT ch)) 3 = true then u.emit (.xtrig ch) else u) := by
  simp [xtOutputs, hlink, hpair, hstart, hstop]

theorem xtrigIn_of_selected (hin : nbit (s.fget (F.DBG_XT_IN ch)) 1 = true) : xtrigIn ch s =
    (if nbit (s.fget (F.DBG_XT_OUT ch)) 2 = true then seqHalt 1 (xtOutputs ch false s) else xtOutputs ch false s) := by
  rw [xtrigIn, if_pos hin]
  rfl

theorem pairHaltReq_of_running {p : Nat} (cause : Nat) (h : (s.pair p).halted = false) : pairHaltReq p cause s =
    s.modPair p fun x => { x with
      haltReq := some cause, waitM := p == 0 && x.priv == 3 && decide (max s.dbg.tapLevel s.dbg.hostLevel < 3) } := by
  simp [pairHaltReq, h]

end

/-- A stop request reaches the pending fence and the links alone (R42, R43). -/
theorem stopRequest_eq (s : State) : ∃ f l, stopRequest s = { s with links := l, seq := { s.seq with fence := f } } := by
  have hsend : ∀ (f dev : Nat) (t : State), ∃ l, sendFence f dev t = { t with links := l } := by
    intro f dev t
    refine List.foldlRecOn t.usedLinks _ (motive := fun u : State => ∃ l, u = { t with links := l }) ⟨t.links, rfl⟩ ?_
    rintro _ ⟨_, rfl⟩ k _
    exact ⟨_, rfl⟩
  have hadopt : ∀ f dev, ∃ g l, adoptFence f dev s = { s with links := l, seq := { s.seq with fence := g } } := by
    intro f dev
    unfold adoptFence
    split
    · split
      · obtain ⟨l, hl⟩ := hsend f dev { s with seq := { s.seq with fence := some (f, dev) } }
        exact ⟨_, l, hl⟩
      · exact ⟨s.seq.fence, s.links, rfl⟩
    · obtain ⟨l, hl⟩ := hsend f dev { s with seq := { s.seq with fence := some (f, dev) } }
      exact ⟨_, l, hl⟩
  exact hadopt _ _

/-- The hold itself changes the sequencer's state, its pending fence, its causes and the links (R40, R426). -/
theorem heldState_leaves (s : State) : (heldState s).seq.st = .dbgHold ∧ (heldState s).seq.step = s.seq.step ∧
    (heldState s).evq = s.evq ∧ (heldState s).ptime = s.ptime ∧ (heldState s).fields = s.fields := by
  obtain ⟨f, l, h⟩ := stopRequest_eq s
  unfold heldState
  rw [h]
  split
  · exact ⟨rfl, rfl, rfl, rfl, rfl⟩
  · exact ⟨rfl, rfl, rfl, rfl, rfl⟩

theorem key_xtIn_ne (ch : Nat) {f : Fld} (hf : f.key < 0x1200080 * 32 ∨ 0x1200090 * 32 ≤ f.key) : (F.DBG_XT_IN ch).key ≠ f.key := by
  have hkey : (F.DBG_XT_IN ch).key = (0x1200080 + 0x4 * (ch % 4)) * 32 := rfl
  omega

/-- A hold that asserts no channel (R40, R426). -/
theorem seqHalt_eq {s : State} (cause : Nat) (hst : s.stepping = true) (hch : s.xtChannels 5 = []) : seqHalt cause s =
    ({ heldState s with seq := { (heldState s).seq with haltAt := none } }.fset F.DBG_STAT_HCAUSE cause).raise
      F.DBG_EVT_HALT 13 2 ([0, 0, cause] ++ w64 s.seq.step) := by
  unfold seqHalt
  rw [if_neg (by simp [hst])]
  have hnone : ∀ u : State, (∀ ch, u.fget (F.DBG_XT_IN ch) = s.fget (F.DBG_XT_IN ch)) → u.xtChannels 5 = [] := fun u hu =>
    (congrArg (List.filter · _) (funext fun ch => by rw [hu ch])).trans hch
  dsimp only
  rw [hnone]
  · rfl
  · intro ch
    rw [State.fget_raise_ne _ _ _ _ (key_xtIn_ne ch (by decide)), State.fget_fset_ne _ _ (key_xtIn_ne ch (by decide))]
    exact congrArg (fun m => State.fget { s with fields := m } _) (heldState_leaves s).2.2.2.2

theorem seqHalt_sets {cause : Nat} {s : State} (hst : s.stepping = true) (hch : s.xtChannels 5 = []) (hcause : cause < 4) :
    let t := seqHalt cause s
    t.seq.st = .dbgHold ∧ t.seq.step = s.seq.step ∧ t.fget F.DBG_STAT_HCAUSE = cause ∧
      posted F.DBG_EVT_HALT 13 2 ([0, 0, cause] ++ w64 s.seq.step) s t ∧ onlyFields [F.DBG_STAT_HCAUSE, F.DBG_EVT_HALT] s t := by
  obtain ⟨hheld, hstep, hevq, htime, hfields⟩ := heldState_leaves s
  have hfget : ∀ g, (heldState s).fget g = s.fget g := fun g => congrArg (fun m => State.fget { s with fields := m } g) hfields
  dsimp only
  rw [seqHalt_eq cause hst hch]
  generalize heldState s = u at hheld hstep hevq htime hfget ⊢
  have honly : onlyFields [F.DBG_STAT_HCAUSE, F.DBG_EVT_HALT] s { u with seq := { u.seq with haltAt := none } } := fun g _ => hfget g
  refine ⟨?_, ?_, ?_, posted_raise _ _ _ rfl hevq hstep htime ?_, (honly.fset List.mem_cons_self cause).raise
    (List.mem_cons_of_mem _ List.mem_cons_self) _ _ _⟩
  · simpa using hheld
  · simpa using hstep
  · rw [State.fget_raise_ne _ _ _ _ (by decide), State.fget_fset_same]
    exact Nat.mod_eq_of_lt hcause
  · exact (State.fget_fset_ne _ _ (by decide)).trans (hfget _)

/-! ### Instructions of the TAP (R438, R439) -/

theorem tapSelect_leaves (ir : Byte) (s : State) : (tapSelect ir s).dbg = { s.dbg with ir := ir } ∧ (tapSelect ir s).out = s.out ∧
    (tapSelect ir s).mem = s.mem ∧ (tapSelect ir s).umem = s.umem ∧ (tapSelect ir s).mgt = s.mgt ∧ steady s (tapSelect ir s) := by
  unfold tapSelect
  dsimp only
  split
  · simp [steady, State.fsetb]
  · split
    · simp [steady, State.fsetb]
    · exact ⟨rfl, rfl, rfl, rfl, rfl, rfl, rfl, rfl⟩

theorem fbit_tapSelect (ir : Byte) (s : State) : (tapSelect ir s).fget F.DBG_STAT_EXTEST = (ir == 0x00#8).toNat := by
  have hset : ∀ u : State, (u.fsetb F.DBG_STAT_EXTEST (ir == 0x00#8)).fget F.DBG_STAT_EXTEST = (ir == 0x00#8).toNat := fun u => by
    rw [State.fsetb, State.fget_fset_same]
    exact Nat.mod_eq_of_lt (Bool.toNat_lt _)
  unfold tapSelect
  dsimp only
  split
  · rw [State.fget_raise_ne _ _ _ _ (by decide), hset]
  · split
    · rw [State.fget_raise_ne _ _ _ _ (by decide), hset]
    · exact hset _

theorem onlyFields_tapSelect (ir : Byte) (s : State) :
    onlyFields [F.DBG_STAT_EXTEST, F.DBG_EVT_EXTEST] s (tapSelect ir s) := by
  have hset : onlyFields [F.DBG_STAT_EXTEST, F.DBG_EVT_EXTEST] s
      (({ s with dbg := { s.dbg with ir := ir } } : State).fsetb F.DBG_STAT_EXTEST (ir == 0x00#8)) :=
    onlyFields_fsetb (t := { s with dbg := { s.dbg with ir := ir } }) _ (onlyFields.refl _ s) (by simp)
  unfold tapSelect
  dsimp only
  split
  · exact hset.raise (by simp) _ _ _
  · split
    · exact hset.raise (by simp) _ _ _
    · exact hset

section
variable {ir : Byte} {s : State}

theorem evq_tapSelect_of_same (h : s.fbit F.DBG_STAT_EXTEST = (ir == 0x00#8)) : (tapSelect ir s).evq = s.evq := by
  simp only [tapSelect, h, Bool.and_not_self, Bool.false_eq_true, if_false]
  rfl

/-- Both reports of EXTEST, code 0 where it begins and 1 where it ends. -/
theorem posted_tapSelect {code : Nat} (h : s.fbit F.DBG_STAT_EXTEST = !(ir == 0x00#8)) (hcode : code = (s.fbit F.DBG_STAT_EXTEST).toNat) :
    posted F.DBG_EVT_EXTEST 13 3 [code] s (tapSelect ir s) := by
  have hen : ∀ v : Bool, (({ s with dbg := { s.dbg with ir := ir } } : State).fsetb F.DBG_STAT_EXTEST v).fget (evten F.DBG_EVT_EXTEST) =
      s.fget (evten F.DBG_EVT_EXTEST) := fun v => State.fget_fset_ne _ _ (by decide)
  unfold tapSelect
  dsimp only
  cases hir : (ir == 0x00#8) with
  | true =>
    simp only [hir, Bool.not_true] at h
    rw [hcode, h]
    exact posted_raise _ _ _ rfl rfl rfl rfl (hen true)
  | false =>
    simp only [hir, Bool.not_false] at h
    rw [hcode, h]
    exact posted_raise _ _ _ rfl rfl rfl rfl (hen false)

end

end Sys2Proof.Machine
end

section
/-! Accesses of the debug paths to control SRAM (R418, R438, R445) and O43. -/
namespace Sys2Proof.Machine

theorem ofLe_lt (bs : List Byte) : ofLe bs < 256 ^ bs.length := by
  induction bs with
  | nil => simp [ofLe]
  | cons b bs ih =>
    have hb : b.toNat < 256 := b.isLt
    rw [ofLe, List.length_cons, Nat.pow_succ]
    omega

theorem ofLe_bytes_lt (s : State) (a : Nat) : ofLe (s.bytes a 4) < 2 ^ 32 := by
  have h := ofLe_lt (s.bytes a 4)
  rwa [show (s.bytes a 4).length = 4 by simp [State.bytes]] at h

theorem leBytes_mod (n w : Nat) : leBytes n (w % 256 ^ n) = leBytes n w := by
  induction n generalizing w with
  | zero => rfl
  | succ n ih =>
    have hdiv : w % 256 ^ (n + 1) / 256 = w / 256 % 256 ^ n := by
      rw [Nat.pow_succ', Nat.mod_mul_right_div_self]
    have hlow : BitVec.ofNat 8 (w % 256 ^ (n + 1)) = BitVec.ofNat 8 w := by
      refine BitVec.eq_of_toNat_eq ?_
      rw [BitVec.toNat_ofNat, BitVec.toNat_ofNat, Nat.pow_succ']
      exact Nat.mod_mul_right_mod w 256 _
    rw [leBytes, leBytes, hlow, hdiv, ih]

section
variable {p : Path} {a : Nat} {s : State}

/-- Below the level that an access needs nothing is accessed (R417, R418). -/
theorem dbgAccess_of_low {write : Bool} {data : Word}
    (h : s.level p < (if needsL3 (a % 2 ^ 48 - a % 4) then 3 else if write then 2 else 1)) :
    dbgAccess p write a data s = .ok (some (1, 0), s) := by
  unfold dbgAccess
  exact if_pos h

theorem lrBreak_leaves (n : Nat) : (lrBreak a n s).mem = s.mem ∧ (lrBreak a n s).umem = s.umem ∧ (lrBreak a n s).seq = s.seq ∧
    (lrBreak a n s).clauses = s.clauses ∧ (lrBreak a n s).evq = s.evq ∧ onlyFields [] s (lrBreak a n s) := by
  have h := lrBreak_frame a n (Fr.refl 0x400000 s) rfl
  exact ⟨h.h_mem rfl, h.h_umem rfl, h.h_seq rfl, h.h_clauses rfl, h.h_evq rfl, onlyFields.of_frame [] (by decide) h⟩

theorem bytes_of_same {s t : State} (hmem : t.mem = s.mem) (humem : t.umem = s.umem) (a n : Nat) : t.bytes a n = s.bytes a n := by
  simp only [State.bytes, State.byteAt, State.phys, hmem, humem]

section
variable (hsram : isCtlSram (a - a % 4) = true)
include hsram

/-- An aligned address in control SRAM lies in none of the ranges that an access looks at before memory (R418). -/
theorem ranges_of_debugSram (s : State) : a % 2 ^ 48 - a % 4 = a - a % 4 ∧ needsL3 (a - a % 4) = false ∧
    isHost (a - a % 4) = false ∧ isRegs (a - a % 4) = false ∧ isUser (a - a % 4) = false ∧
      (isLex (a - a % 4) || s.hbmHeld (a - a % 4)) = false := by
  obtain ⟨hregs, huser, -, hhost⟩ := ranges_of_isCtlSram hsram
  have hlex : isLex (a - a % 4) = false := (Bool.or_eq_false_iff.1 huser).1
  have hheld : s.hbmHeld (a - a % 4) = false := by rw [State.hbmHeld, isHbm_of_isCtlSram hsram]; rfl
  have hrange := hsram
  simp only [isCtlSram, Bool.and_eq_true, decide_eq_true_eq] at hrange
  have hl3 : needsL3 (a - a % 4) = false := by
    simp only [needsL3, isSecSram, Bool.or_eq_false_iff, Bool.and_eq_false_iff, decide_eq_false_iff_not]
    omega
  exact ⟨by omega, hl3, hhost, hregs, huser, by rw [hlex, hheld]; rfl⟩

theorem phys_of_debugSram (s : State) {i : Nat} (hi : i < 4) : s.phys (a - a % 4 + i) = a - a % 4 + i := by
  refine phys_of_not_isHbm s ?_
  simp only [isCtlSram, Bool.and_eq_true, decide_eq_true_eq] at hsram
  simp only [isHbm, Bool.and_eq_false_iff, decide_eq_false_iff_not]
  omega

variable (hbad : s.sramBad (a - a % 4) 4 = [])
include hbad

theorem busRead_of_goodSram (m : Master) : busRead m (a - a % 4) 4 s = (0, s.bytes (a - a % 4) 4, s) := by
  obtain ⟨-, huser, hflash, hhost⟩ := ranges_of_isCtlSram hsram
  simp [busRead, busRefusal_of_isCtlSram m false 4 s hsram, memRead, huser, hflash, hhost, hbad]

theorem busWrite_of_goodSram (m : Master) {bs : List Byte} (hlen : bs.length = 4) :
    busWrite m (a - a % 4) bs s = (0, s.store (a - a % 4) bs) := by
  obtain ⟨-, huser, -, hhost⟩ := ranges_of_isCtlSram hsram
  have hpart : ((partWords (a - a % 4) 4).filter fun w => kvGet false s.mgt.bad w) = [] := by
    rw [partWords, List.filter_comm]
    rw [State.sramBad] at hbad
    rw [hbad]
    rfl
  obtain ⟨w, hw⟩ := store_mem_only s (a - a % 4) bs
  simp [busWrite, busRefusal_of_isCtlSram m true 4 s hsram, memWrite, huser, hhost, hlen, hbad, hpart, hw]

theorem dbgAccess_read (data : Word) (hlevel : 1 ≤ s.level p) : dbgAccess p false a data s =
    .ok (some (0, BitVec.ofNat 32 (ofLe (s.bytes (a - a % 4) 4))), s) := by
  obtain ⟨haddr, hl3, hhost, hregs, huser, hwait⟩ := ranges_of_debugSram hsram s
  unfold dbgAccess
  dsimp only
  rw [haddr, hl3, if_neg (by simp; omega), if_neg (by simp [hhost]), if_neg (by simp [hregs]), if_neg (by simp [huser]),
    if_neg (by simp [hwait]), if_neg (by simp), busRead_of_goodSram hsram hbad]
  rfl

theorem dbgAccess_write (data : Word) (hlevel : 2 ≤ s.level p) : dbgAccess p true a data s =
    .ok (some (0, 0), lrBreak (a - a % 4) 4 (s.store (a - a % 4) (leBytes 4 data.toNat))) := by
  obtain ⟨haddr, hl3, hhost, hregs, huser, hwait⟩ := ranges_of_debugSram hsram s
  unfold dbgAccess
  dsimp only
  rw [haddr, hl3, if_neg (by simp; omega), if_neg (by simp [hhost]), if_neg (by simp [hregs]), if_neg (by simp [huser]),
    if_neg (by simp [hwait]), if_pos rfl, busWrite_of_goodSram hsram hbad _ (length_leBytes 4 _)]
  rfl

end

/-- What a write of a debug path stores and leaves. -/
theorem wroteSram (hsram : isCtlSram (a - a % 4) = true) (data : Word) :
    let t := lrBreak (a - a % 4) 4 (s.store (a - a % 4) (leBytes 4 data.toNat))
    t.bytes (a - a % 4) 4 = leBytes 4 data.toNat ∧
      (∀ x, x < a - a % 4 ∨ a - a % 4 + 4 ≤ x → memGet t.mem x = memGet s.mem x) ∧ t.seq = s.seq ∧ t.clauses = s.clauses ∧
      t.evq = s.evq ∧ onlyFields [] s t := by
  have hlen := length_leBytes 4 data.toNat
  have hdirect : ∀ i, i < (leBytes 4 data.toNat).length → s.phys (a - a % 4 + i) = a - a % 4 + i := fun i hi =>
    phys_of_debugSram hsram s (hlen ▸ hi)
  have hbytes := bytes_store hdirect
  have hout := fun x => memGet_store_outside (x := x) hdirect
  rw [hlen] at hbytes hout
  obtain ⟨m, hm⟩ := store_mem_only s (a - a % 4) (leBytes 4 data.toNat)
  obtain ⟨hmem, humem, hseq, hcl, hevq, hfields⟩ := lrBreak_leaves (a := a - a % 4)
    (s := s.store (a - a % 4) (leBytes 4 data.toNat)) 4
  refine ⟨(bytes_of_same hmem humem _ _).trans hbytes, fun x hx => ?_, ?_, ?_, ?_, ?_⟩
  · rw [hmem]
    exact hout x hx
  · rw [hseq, hm]
  · rw [hcl, hm]
  · rw [hevq, hm]
  · refine onlyFields.trans (t := s.store (a - a % 4) (leBytes 4 data.toNat)) ?_ hfields
    rw [hm]
    exact onlyFields.refl [] s

end

/-! ### The access engine and DBGACC (R418, R438, R445) -/

theorem engineEnd_sets (write : Bool) {code : Nat} (d : Word) (u : State) (hcode : code < 2 ^ 8) :
    (engineEnd write code d u).fget F.DBG_ACMD_RESULT = code ∧ (engineEnd write code d u).fget F.DBG_ACMD_GO = 0 ∧
      onlyFields [F.DBG_ACMD_GO, F.DBG_ACMD_RESULT, F.DBG_ADATA_DATA] u (engineEnd write code d u) := by
  have hgo : ((u.fset F.DBG_ACMD_GO 0).fset F.DBG_ACMD_RESULT code).fget F.DBG_ACMD_GO = 0 := by
    rw [State.fget_fset_ne _ _ (by decide), State.fget_fset_same]
    rfl
  have hres : ((u.fset F.DBG_ACMD_GO 0).fset F.DBG_ACMD_RESULT code).fget F.DBG_ACMD_RESULT = code := by
    rw [State.fget_fset_same]
    exact Nat.mod_eq_of_lt hcode
  have honly : onlyFields [F.DBG_ACMD_GO, F.DBG_ACMD_RESULT, F.DBG_ADATA_DATA] u
      ((u.fset F.DBG_ACMD_GO 0).fset F.DBG_ACMD_RESULT code) := ((onlyFields.refl _ u).fset (by simp) 0).fset (by simp) code
  unfold engineEnd
  dsimp only
  split
  · exact ⟨(State.fget_fset_ne _ _ (by decide)).trans hres, (State.fget_fset_ne _ _ (by decide)).trans hgo, honly.fset (by simp) _⟩
  · exact ⟨hres, hgo, honly⟩

/-- An access that gives no data leaves ADATA. -/
theorem onlyFields_engineEnd {write : Bool} {code : Nat} (d : Word) (u : State) (h : ¬(code = 0 ∧ (!write) = true)) :
    onlyFields [F.DBG_ACMD_GO, F.DBG_ACMD_RESULT] u (engineEnd write code d u) := by
  unfold engineEnd
  dsimp only
  rw [if_neg h]
  exact ((onlyFields.refl _ u).fset (by simp) 0).fset (by simp) code

theorem engineEnd_leaves (write : Bool) (code : Nat) (d : Word) (u : State) : (engineEnd write code d u).dbg = u.dbg ∧
    (engineEnd write code d u).evq = u.evq ∧ (engineEnd write code d u).umem = u.umem ∧ steady u (engineEnd write code d u) := by
  unfold engineEnd
  dsimp only
  split
  · exact ⟨rfl, rfl, rfl, rfl, rfl, rfl⟩
  · exact ⟨rfl, rfl, rfl, rfl, rfl, rfl⟩

theorem engineGo_of_access {w : Word} {wr : Bool} {code : Nat} {d : Word} {s u : State} (hw : wbit w 30 = wr)
    (hfree : s.dbgWaits .host = false)
    (h : dbgAccess .host wr (s.fget F.DBG_AADDR0_ADDR + s.fget F.DBG_AADDR1_ADDR * 2 ^ 32)
      (BitVec.ofNat 32 (s.fget F.DBG_ADATA_DATA)) (s.fset F.DBG_ACMD_WRITE wr.toNat) = .ok (some (code, d), u)) :
    orFault (engineGo w s) = .next (engineEnd wr code d u) := by
  unfold engineGo
  dsimp only
  rw [if_neg (by simp [hfree]), hw, h]
  rfl

/-- The engine's two commands, by the bit that makes the access a write. -/
theorem exec_engine {i : Instr} {wr : Bool} (hi : (i, wr) ∈ [(Instr.dbgAccessRead, false), (.dbgAccessWrite, true)]) (s : State) :
    ∃ w, exec i s = orFault (engineGo w s) ∧ wbit w 30 = wr ∧ fieldOf w 30 1 = wr.toNat := by
  simp only [List.mem_cons, Prod.mk.injEq, List.not_mem_nil, or_false] at hi
  obtain ⟨rfl, rfl⟩ | ⟨rfl, rfl⟩ := hi
  · exact ⟨0x80000000#32, rfl, by decide, by decide⟩
  · exact ⟨0xC0000000#32, rfl, by decide, by decide⟩

/-- An access of the engine below its level (R417, R418). -/
theorem engine_low {i : Instr} {wr : Bool} {a : Nat} {s : State}
    (hi : (i, wr) ∈ [(Instr.dbgAccessRead, false), (.dbgAccessWrite, true)])
    (ha : a = s.fget F.DBG_AADDR0_ADDR + s.fget F.DBG_AADDR1_ADDR * 2 ^ 32) (hfree : s.dbgWaits .host = false)
    (hlevel : s.dbg.hostLevel < (if needsL3 (a % 2 ^ 48 - a % 4) then 3 else if wr then 2 else 1)) :
    leads i s fun t => t.fget F.DBG_ACMD_RESULT = 1 ∧ t.fget F.DBG_ACMD_GO = 0 ∧ t.dbg = s.dbg ∧ steady s t ∧
      t.evq = s.evq ∧ onlyFields [F.DBG_ACMD_WRITE, F.DBG_ACMD_GO, F.DBG_ACMD_RESULT] s t := by
  obtain ⟨w, hexec, hw, -⟩ := exec_engine hi s
  subst ha
  obtain ⟨hres, hgo, -⟩ := engineEnd_sets wr (code := 1) 0 (s.fset F.DBG_ACMD_WRITE wr.toNat) (by decide)
  obtain ⟨hdbg, hevq, -, hsteady⟩ := engineEnd_leaves wr 1 0 (s.fset F.DBG_ACMD_WRITE wr.toNat)
  have honly := onlyFields_engineEnd (write := wr) (code := 1) 0 (s.fset F.DBG_ACMD_WRITE wr.toNat) (by simp)
  exact leads_of (hexec.trans (engineGo_of_access hw hfree (dbgAccess_of_low (p := .host) hlevel)))
    ⟨hres, hgo, hdbg, hsteady, hevq, ((onlyFields.refl _ s).fset (by simp) _).trans (honly.mono (by simp))⟩

section
variable {a : Nat} {s : State} (ha : a = s.fget F.DBG_AADDR0_ADDR) (hzero : s.fget F.DBG_AADDR1_ADDR = 0)
  (hfree : s.dbgWaits .host = false) (hsram : isCtlSram (a - a % 4) = true) (hbad : s.sramBad (a - a % 4) 4 = [])

include ha hzero hfree hsram hbad

/-- A read of the engine in control SRAM (R418). -/
theorem engine_read (hlevel : 1 ≤ s.dbg.hostLevel) : leads .dbgAccessRead s fun t =>
    t.fget F.DBG_ACMD_RESULT = 0 ∧ t.fget F.DBG_ACMD_GO = 0 ∧ t.fget F.DBG_ADATA_DATA = ofLe (s.bytes (a - a % 4) 4) ∧
      steady s t ∧ t.evq = s.evq ∧
      onlyFields [F.DBG_ACMD_WRITE, F.DBG_ACMD_GO, F.DBG_ACMD_RESULT, F.DBG_ADATA_DATA] s t := by
  have haddr : s.fget F.DBG_AADDR0_ADDR + s.fget F.DBG_AADDR1_ADDR * 2 ^ 32 = a := by rw [hzero, ha, Nat.zero_mul, Nat.add_zero]
  have hread := dbgAccess_read (p := .host) (s := s.fset F.DBG_ACMD_WRITE 0) hsram hbad
    (BitVec.ofNat 32 (s.fget F.DBG_ADATA_DATA)) hlevel
  obtain ⟨hres, hgo, honly⟩ := engineEnd_sets false (code := 0)
    (BitVec.ofNat 32 (ofLe (s.bytes (a - a % 4) 4))) (s.fset F.DBG_ACMD_WRITE 0) (by decide)
  obtain ⟨-, hevq, -, hsteady⟩ := engineEnd_leaves false 0
    (BitVec.ofNat 32 (ofLe (s.bytes (a - a % 4) 4))) (s.fset F.DBG_ACMD_WRITE 0)
  refine leads_of (engineGo_of_access (w := 0x80000000#32) (wr := false) (by decide) hfree (haddr ▸ hread))
    ⟨hres, hgo, ?_, hsteady, hevq, ((onlyFields.refl _ s).fset (by simp) _).trans (honly.mono (by simp))⟩
  rw [engineEnd, if_pos (by simp), State.fget_fset_same, BitVec.toNat_ofNat, Nat.mod_eq_of_lt (ofLe_bytes_lt s _)]
  exact Nat.mod_eq_of_lt (ofLe_bytes_lt s _)

/-- A write of the engine in control SRAM (R418). -/
theorem engine_write (hlevel : 2 ≤ s.dbg.hostLevel) : leads .dbgAccessWrite s fun t =>
    t.fget F.DBG_ACMD_RESULT = 0 ∧ t.fget F.DBG_ACMD_GO = 0 ∧
      t.bytes (a - a % 4) 4 = leBytes 4 (s.fget F.DBG_ADATA_DATA) ∧
      (∀ x, x < a - a % 4 ∨ a - a % 4 + 4 ≤ x → memGet t.mem x = memGet s.mem x) ∧ t.seq = s.seq ∧ t.clauses = s.clauses ∧
      t.evq = s.evq ∧ onlyFields [F.DBG_ACMD_WRITE, F.DBG_ACMD_GO, F.DBG_ACMD_RESULT] s t := by
  have haddr : s.fget F.DBG_AADDR0_ADDR + s.fget F.DBG_AADDR1_ADDR * 2 ^ 32 = a := by rw [hzero, ha, Nat.zero_mul, Nat.add_zero]
  have hwrite := dbgAccess_write (p := .host) (s := s.fset F.DBG_ACMD_WRITE 1) hsram hbad
    (BitVec.ofNat 32 (s.fget F.DBG_ADATA_DATA)) hlevel
  obtain ⟨hbytes, hrest, hseq, hcl, hevq, hfields⟩ := wroteSram (s := s.fset F.DBG_ACMD_WRITE 1) hsram
    (BitVec.ofNat 32 (s.fget F.DBG_ADATA_DATA))
  generalize hu : lrBreak (a - a % 4) 4 _ = u at hwrite hbytes hrest hseq hcl hevq hfields
  obtain ⟨hres, hgo, -⟩ := engineEnd_sets true (code := 0) 0 u (by decide)
  have honly := onlyFields_engineEnd (write := true) (code := 0) 0 u (by simp)
  obtain ⟨-, hevq', humem', hseq', hcl', hmem'⟩ := engineEnd_leaves true 0 0 u
  refine leads_of (engineGo_of_access (w := 0xC0000000#32) (wr := true) (by decide) hfree (haddr ▸ hwrite))
    ⟨hres, hgo, ?_, fun x hx => ?_, hseq'.trans hseq, hcl'.trans hcl, hevq'.trans hevq,
      ((onlyFields.fset (onlyFields.refl _ s) (by simp) _).trans (hfields.mono (by simp))).trans (honly.mono (by simp))⟩
  · rw [bytes_of_same hmem' humem', hbytes, BitVec.toNat_ofNat]
    exact leBytes_mod 4 _
  · rw [hmem']
    exact hrest x hx

end

/-- DBGACC selected, with the outcome of the last access shifted out. -/
def dbgaccShifted (s : State) : State := (tapSelect 0x10#8 s).emit (.dbgacc s.dbg.accStat s.dbg.accData)

theorem dbgaccShifted_leaves (s : State) : (dbgaccShifted s).dbg = { s.dbg with ir := 0x10#8 } ∧
    (dbgaccShifted s).out = s.out ++ [.dbgacc s.dbg.accStat s.dbg.accData] ∧ (dbgaccShifted s).mem = s.mem ∧
      (dbgaccShifted s).umem = s.umem ∧ (dbgaccShifted s).mgt = s.mgt ∧ steady s (dbgaccShifted s) := by
  obtain ⟨hdbg, hout, hmem, humem, hmgt, hsteady⟩ := tapSelect_leaves 0x10#8 s
  exact ⟨hdbg, congrArg (· ++ _) hout, hmem, humem, hmgt, hsteady⟩

theorem dbgacc_eq (write : Bool) (addr : Nat) (data : Word) (s : State) : dbgacc write addr data s =
    if s.dbgWaits .tap then .ok (dbgaccShifted s)
    else (dbgAccess .tap write addr data (dbgaccShifted s)).map fun x =>
      match x.1 with
      | some (code, d) => tapEnd write code d x.2
      | none => { x.2 with dbg := { x.2.dbg with accStat := 1 } } := by
  obtain ⟨hdbg, -, -, humem, -, -⟩ := tapSelect_leaves 0x10#8 s
  have hwaits : (tapSelect 0x10#8 s).dbgWaits .tap = s.dbgWaits .tap := by rw [State.dbgWaits, humem]; rfl
  have hshifted : (tapSelect 0x10#8 s).emit (.dbgacc (tapSelect 0x10#8 s).dbg.accStat (tapSelect 0x10#8 s).dbg.accData) =
      dbgaccShifted s := by rw [hdbg]; rfl
  unfold dbgacc
  dsimp only
  rw [hwaits, hshifted] <;> rfl

theorem dbgacc_of_access {write : Bool} {addr : Nat} {data : Word} {code : Nat} {d : Word} {s u : State}
    (hfree : s.dbgWaits .tap = false) (h : dbgAccess .tap write addr data (dbgaccShifted s) = .ok (some (code, d), u)) :
    exec (.dbgacc write addr data) s = .next (tapEnd write code d u) := by
  show orFault (dbgacc write addr data s) = _
  rw [dbgacc_eq, if_neg (by simp [hfree]), h]
  rfl

/-- What the accesses of DBGACC see of the state is as it was before the instruction. -/
theorem seen_dbgaccShifted (s : State) (a n : Nat) : (dbgaccShifted s).level .tap = s.dbg.tapLevel ∧
    (dbgaccShifted s).sramBad a n = s.sramBad a n ∧ (dbgaccShifted s).bytes a n = s.bytes a n := by
  obtain ⟨hdbg, -, hmem, humem, hmgt, -⟩ := dbgaccShifted_leaves s
  exact ⟨(congrArg Dbg.tapLevel hdbg :), by simp only [State.sramBad, hmgt], bytes_of_same hmem humem a n⟩

/-- A write of DBGACC in control SRAM (R438). -/
theorem dbgacc_write {addr : Nat} {data : Word} {s : State} (hfree : s.dbgWaits .tap = false)
    (hsram : isCtlSram (addr - addr % 4) = true) (hlevel : 2 ≤ s.dbg.tapLevel) (hbad : s.sramBad (addr - addr % 4) 4 = []) :
    leads (.dbgacc true addr data) s fun t => t.dbg.accStat = 0 ∧ t.bytes (addr - addr % 4) 4 = leBytes 4 data.toNat ∧
      (∀ x, x < addr - addr % 4 ∨ addr - addr % 4 + 4 ≤ x → memGet t.mem x = memGet s.mem x) ∧ t.seq = s.seq ∧
      t.clauses = s.clauses := by
  obtain ⟨-, -, hmem, -, -, hseq, hcl, -⟩ := dbgaccShifted_leaves s
  obtain ⟨hlvl, hbad', -⟩ := seen_dbgaccShifted s (addr - addr % 4) 4
  have hwrite := dbgAccess_write (p := .tap) hsram (hbad'.trans hbad) data (hlvl.symm ▸ hlevel)
  obtain ⟨hbytes, hrest, hseq', hcl', -, -⟩ := wroteSram (s := dbgaccShifted s) hsram data
  have hexec := dbgacc_of_access hfree hwrite
  generalize lrBreak (addr - addr % 4) 4 _ = u at hexec hbytes hrest hseq' hcl'
  exact leads_of hexec ⟨rfl, hbytes, fun x hx => (hrest x hx).trans (by rw [hmem]), hseq'.trans hseq, hcl'.trans hcl⟩

/-- Settles O43: a channel with one output does that alone (`xtOutputs_of_pins`), an instruction of the TAP keeps EXTEST
(`tapSelect`), and an access to good control SRAM reads or writes its four bytes (`dbgAccess_read`, `dbgAccess_write`). -/
theorem tapAndAccessEngine : Obligations.TapAndAccessEngine := by
  unfold Obligations.TapAndAccessEngine
  refine ⟨?unselected, ?pin, ?pair, ?hold, ?select, ?bypass, ?reset, ?tapLow, ?tapWaits, ?tapRead, ?tapWrite, ?busy, ?low, ?read,
    ?write⟩
  case unselected =>
    intro ch s hin
    exact congrArg Host.Outcome.next (if_neg (by simp [hin]))
  case pin =>
    intro ch s hin hout hstart hstop
    refine leads_of (congrArg Host.Outcome.next (xtrigIn_of_selected hin)) ?_
    rw [hout, if_neg (by decide), xtOutputs_of_pins (by rw [hout]; decide) (by rw [hout]; decide) hstart hstop, hout]
    rfl
  case pair =>
    intro ch s hin hout hstart hstop hrun
    refine leads_of (t := pairHaltReq 0 1 s) (congrArg Host.Outcome.next ?_) ?_
    · rw [xtrigIn_of_selected hin, hout, if_neg (by decide),
        xtOutputs_of_pins (by rw [hout]; decide) (by rw [hout]; decide) hstart hstop, hout]
      rfl
    · rw [pairHaltReq_of_running 1 hrun]
      refine ⟨?_, ?_, fun r hr => State.pair_modPair_ne _ _ hr, rfl, ⟨rfl, rfl, rfl⟩, rfl, onlyFields.refl _ s⟩
      · rw [State.pair_modPair_same]
      · rw [State.pair_modPair_same]
        exact hrun
  case hold =>
    intro ch s hin hout hstart hstop hst hch
    have hstep : s.stepping = true := by
      simp only [List.mem_cons, List.not_mem_nil, or_false] at hst
      obtain hst | hst := hst <;> simp [State.stepping, hst]
    refine leads_of (t := seqHalt 1 s) (congrArg Host.Outcome.next ?_) (seqHalt_sets hstep hch (by decide))
    rw [xtrigIn_of_selected hin, hout, if_pos (by decide),
      xtOutputs_of_pins (by rw [hout]; decide) (by rw [hout]; decide) hstart hstop, hout]
    rfl
  case select =>
    intro i ir s hi
    obtain ⟨hdbg, hout, -, -, -, hsteady⟩ := tapSelect_leaves ir s
    have hbit : (tapSelect ir s).fbit F.DBG_STAT_EXTEST = (ir == 0x00#8) := by
      rw [State.fbit, fbit_tapSelect]
      cases (ir == 0x00#8) <;> rfl
    have hended : s.fbit F.DBG_STAT_EXTEST = true → ir ≠ 0x00#8 → posted F.DBG_EVT_EXTEST 13 3 [1] s (tapSelect ir s) :=
      fun h hir => posted_tapSelect (by simp [h, hir]) (by simp [h])
    have hbegun : s.fbit F.DBG_STAT_EXTEST = false → ir = 0x00#8 → posted F.DBG_EVT_EXTEST 13 3 [0] s (tapSelect ir s) :=
      fun h hir => posted_tapSelect (by simp [h, hir]) (by simp [h])
    simp only [List.mem_cons, Prod.mk.injEq, List.not_mem_nil, or_false] at hi
    obtain ⟨rfl, rfl⟩ | ⟨rfl, rfl⟩ | ⟨rfl, rfl⟩ | ⟨rfl, -⟩ := hi
    case inr.inr.inl =>
      refine leads_of (t := (tapSelect 0x02#8 s).emit (.tap 32 s.idcode)) rfl
        ⟨hdbg, hbit, evq_tapSelect_of_same, hended, hbegun, ?_, hsteady, onlyFields_tapSelect _ s⟩
      rw [if_pos rfl]
      exact congrArg (· ++ [Emit.tap 32 s.idcode]) hout
    all_goals
      refine leads_of (t := tapSelect _ s) rfl ⟨hdbg, hbit, evq_tapSelect_of_same, hended, hbegun, ?_, hsteady,
        onlyFields_tapSelect _ s⟩
      rw [if_neg Instr.noConfusion, hout]
  case bypass =>
    intro code s hcode
    obtain ⟨hdbg, hout, -, -, -, hsteady⟩ := tapSelect_leaves code s
    refine leads_of (t := tapSelect code s) rfl ⟨hdbg, ?_, hout, hsteady⟩
    rw [fbit_tapSelect]
    simp [hcode]
  case reset =>
    intro s
    obtain ⟨hdbg, -⟩ := tapSelect_leaves 0x02#8 s
    have hset := dbg_setLevel .tap 0 (tapSelect 0x02#8 s)
    refine leads_of (t := setLevel .tap 0 (tapSelect 0x02#8 s)) rfl ⟨?_, ?_, ?_, ?_⟩
    · rw [hset]
      exact congrArg Dbg.ir hdbg
    · rw [hset]
      rfl
    · rw [hset]
      exact (congrArg Dbg.hostLevel hdbg :)
    · rw [authKept_setLevel .tap 0 _ _ (by simp [authRegs]), fbit_tapSelect]
      rfl
  case tapLow =>
    intro write addr data s hfree hlevel
    obtain ⟨hdbg, hout, -, -, -, hsteady⟩ := dbgaccShifted_leaves s
    refine leads_of (dbgacc_of_access hfree (dbgAccess_of_low (p := .tap) ?_)) ⟨?_, hout, hsteady⟩
    · exact (congrArg Dbg.tapLevel hdbg).trans_lt hlevel
    · show ({ (dbgaccShifted s).dbg with accStat := 2, accData := (dbgaccShifted s).dbg.accData } : Dbg) = _
      rw [hdbg]
  case tapWaits =>
    intro write addr data s hwaits
    obtain ⟨hdbg, hout, -, -, -, hsteady⟩ := dbgaccShifted_leaves s
    exact leads_of (congrArg orFault ((dbgacc_eq write addr data s).trans (if_pos hwaits))) ⟨hdbg, hout, hsteady⟩
  case tapRead =>
    intro addr data s hfree hsram hlevel hbad
    obtain ⟨hdbg, hout, -, -, -, hsteady⟩ := dbgaccShifted_leaves s
    obtain ⟨hlvl, hbad', hbytes⟩ := seen_dbgaccShifted s (addr - addr % 4) 4
    refine leads_of (dbgacc_of_access hfree (dbgAccess_read hsram (hbad'.trans hbad) data (hlvl.symm ▸ hlevel)))
      ⟨rfl, ?_, congrArg Dbg.ir hdbg, hout, hsteady⟩
    rw [hbytes]
    exact (BitVec.toNat_ofNat _ _).trans (Nat.mod_eq_of_lt (ofLe_bytes_lt s _))
  case tapWrite => exact fun addr data s hfree hsram hlevel hbad => dbgacc_write hfree hsram hlevel hbad
  case busy =>
    intro i wr s hi hwaits
    obtain ⟨w, hexec, -, hfield⟩ := exec_engine hi s
    have hgo : engineGo w s = engineBusy w s := if_pos hwaits
    refine leads_of (hexec.trans (congrArg orFault hgo)) ⟨?_, ?_, rfl, ⟨rfl, rfl, rfl⟩, rfl,
      ((onlyFields.refl _ s).fset (by simp) _).fset (by simp) _⟩
    · rw [State.fget_fset_same]
      rfl
    · rw [State.fbit, State.fget_fset_ne _ _ (by decide), State.fget_fset_same, hfield]
      cases wr <;> rfl
  case low => exact fun i wr a s hi ha hfree hlevel => engine_low hi ha hfree hlevel
  case read => exact fun a s ha hzero hfree hsram hlevel hbad => engine_read ha hzero hfree hsram hbad hlevel
  case write => exact fun a s ha hzero hfree hsram hlevel hbad => engine_write ha hzero hfree hsram hbad hlevel

end Sys2Proof.Machine
end

section
/-! Routers: what a forwarded packet leaves behind and what an error of a hop reports (R457 to R460). -/
namespace Sys2Proof.Machine

/-- Nothing waits in a rim port, so nothing goes on there (R471). -/
theorem nocPump_of_idle {s : State} (hrsps : s.noc.rsps = []) (hreqs : s.noc.reqs = []) : nocPump s = s := by
  have hnoc : ({ s.noc with rsps := [], reqs := [] } : Noc) = s.noc := by rw [← hrsps, ← hreqs]
  unfold nocPump
  rw [hrsps]
  dsimp only [List.foldl_nil]
  rw [hreqs]
  exact congrArg (fun n => ({ s with noc := n } : State)) hnoc

theorem waitq_setWaitq_same (s : State) (r : Nat) (l : List Flight) : (s.setWaitq r l).waitq r = l := by
  rw [State.waitq, State.setWaitq, kvGet_kvSet, if_pos rfl]

theorem waitq_setWaitq_ne (s : State) {r x : Nat} (l : List Flight) (h : x ≠ r) : (s.setWaitq r l).waitq x = s.waitq x :=
  kvGet_kvSet_ne _ _ _ _ h

theorem rxq_setRxq_same (s : State) (r : Nat) (l : List Flight) : (s.setRxq r l).rxq r = l := by
  rw [State.rxq, State.setRxq, kvGet_kvSet, if_pos rfl]

theorem rxq_setRxq_ne (s : State) {r x : Nat} (l : List Flight) (h : x ≠ r) : (s.setRxq r l).rxq x = s.rxq x :=
  kvGet_kvSet_ne _ _ _ _ h

/-- A count that goes up with its event, in a state that differs from s in the network alone. -/
theorem countRaise_sets {f g : Fld} (src code : Nat) (p : List Nat) (s : State) (n : Noc) (hw : g.width = 1)
    (hfg : f.key ≠ g.key) (hen : (evten g).key ≠ f.key) :
    let t := (({ s with noc := n } : State).count f).raise g src code p
    t.noc = n ∧ counted f s t ∧ posted g src code p s t ∧ steady s t ∧ onlyFields [f, g] s t := by
  have honly : onlyFields [f, g] s (({ s with noc := n } : State).count f) :=
    onlyFields_count (t := { s with noc := n }) (onlyFields.refl _ s) List.mem_cons_self
  refine ⟨State.noc_raise _ _ _ _ _, ?_, posted_raise _ _ _ hw rfl rfl rfl (State.fget_fset_ne _ _ hen), ?_,
    honly.raise (List.mem_cons_of_mem _ List.mem_cons_self) _ _ _⟩
  · exact (State.fget_raise_ne _ _ _ _ hfg).trans (State.fget_count_same _ _)
  · exact ⟨State.seq_raise _ _ _ _ _, State.clauses_raise _ _ _ _ _, State.mem_raise _ _ _ _ _⟩

theorem hopUe_sets (r port vc what : Nat) (s : State) (n : Noc) :
    let t := hopUe r port vc what { s with noc := n }
    t.noc = n ∧ counted F.NOC_CNT_UE_COUNT s t ∧ posted F.NOC_EVT_UE 4 2 [r, port, vc, what] s t ∧ steady s t ∧
      onlyFields [F.NOC_CNT_UE_COUNT, F.NOC_EVT_UE] s t :=
  countRaise_sets 4 2 _ s n rfl (by decide) (by decide)

theorem hopFixed_sets (r port : Nat) (s : State) (n : Noc) :
    let t := hopFixed r port { s with noc := n }
    t.noc = n ∧ counted F.NOC_CNT_CE_COUNT s t ∧ steady s t ∧ onlyFields [F.NOC_CNT_CE_COUNT, F.NOC_EVT_CE] s t := by
  have hcount : counted F.NOC_CNT_CE_COUNT s (({ s with noc := n } : State).count F.NOC_CNT_CE_COUNT) := State.fget_count_same _ _
  have honly : onlyFields [F.NOC_CNT_CE_COUNT, F.NOC_EVT_CE] s (({ s with noc := n } : State).count F.NOC_CNT_CE_COUNT) :=
    onlyFields_count (t := { s with noc := n }) (onlyFields.refl _ s) List.mem_cons_self
  unfold hopFixed
  dsimp only
  split
  · exact ⟨State.noc_raise _ _ _ _ _, (State.fget_raise_ne _ _ _ _ (by decide)).trans hcount,
      ⟨State.seq_raise _ _ _ _ _, State.clauses_raise _ _ _ _ _, State.mem_raise _ _ _ _ _⟩, honly.raise (by simp) _ _ _⟩
  · exact ⟨rfl, hcount, ⟨rfl, rfl, rfl⟩, honly⟩

/-! ### A router forwards (R457 to R459) -/

/-- The network once a router has taken a packet from its inputs for an output. -/
def takenOut (r port : Nat) (f : Flight) (s : State) : Noc :=
  { s.noc with wait := kvSet [] s.noc.wait r ((s.waitq r).erase f), rr := kvSet 0 s.noc.rr (8 * r + port) ((f.slot + 1) % 64) }

/-- A packet leaves a router through an output: to its endpoints, or to the router next to it. -/
def passOn (r port : Nat) (p : Packet) (s : State) : State :=
  if port = 4 then s.setRxq r (s.rxq r ++ [⟨p, 4⟩])
  else match rtNext r port with | some (q, i) => s.setWaitq q (s.waitq q ++ [⟨p, i⟩]) | none => s

theorem passOn_endpoint (r : Nat) (p : Packet) (s : State) : passOn r 4 p s = s.setRxq r (s.rxq r ++ [⟨p, 4⟩]) := rfl

theorem passOn_next {r port q i : Nat} (p : Packet) (s : State) (hport : port ≠ 4) (hnext : rtNext r port = some (q, i)) :
    passOn r port p s = s.setWaitq q (s.waitq q ++ [⟨p, i⟩]) := by
  rw [passOn, if_neg hport, hnext]

section
variable {r port : Nat} {f : Flight} {s : State}

theorem nocForward_of_none {err : HopError} (h : s.chosen r port = none) : nocForward r port err s = s := by
  rw [nocForward, h]

variable (h : s.chosen r port = some f)
include h

theorem nocForward_of_e2e (err : HopError) (he : f.pkt.e2e = true) : nocForward r port err s =
    passOn r port { f.pkt with crcOk := f.pkt.crcOk && err == .none } { s with noc := takenOut r port f s } := by
  rw [nocForward, h]
  exact if_pos he

/-- A packet without an error goes on as it is, protected or not. -/
theorem nocForward_of_good : nocForward r port .none s = passOn r port f.pkt { s with noc := takenOut r port f s } := by
  by_cases he : f.pkt.e2e = true
  · rw [nocForward_of_e2e h .none he, show (HopError.none == .none) = true from rfl, Bool.and_true]
  · rw [nocForward, h]
    exact if_neg he

variable (he : f.pkt.e2e = false)
include he

theorem nocForward_of_corrected : nocForward r port .corrected s =
    passOn r port f.pkt (hopFixed r f.port { s with noc := takenOut r port f s }) := by
  rw [nocForward, h]
  exact if_neg (by simp [he])

theorem nocForward_of_data (hflits : 1 < packetFlits f.pkt) : nocForward r port .data s =
    passOn r port { f.pkt with poison := true } (hopUe r f.port (opChannel f.pkt.op) 1 { s with noc := takenOut r port f s }) := by
  rw [nocForward, h]
  exact (if_neg (by simp [he])).trans (if_pos hflits)

theorem nocForward_of_bad {err : HopError} (herr : err = .header ∨ (err = .data ∧ packetFlits f.pkt ≤ 1)) :
    nocForward r port err s = hopUe r f.port (opChannel f.pkt.op) 0 { s with noc := takenOut r port f s } := by
  rw [nocForward, h]
  obtain rfl | ⟨rfl, hflits⟩ := herr
  · exact if_neg (by simp [he])
  · exact (if_neg (by simp [he])).trans (if_neg (by omega))

end

/-- What a router has taken waits there no longer; nothing else of the lists changes. -/
theorem waitq_takenOut (r port : Nat) (f : Flight) (s : State) :
    kvGet [] (takenOut r port f s).wait r = (s.waitq r).erase f ∧
      (∀ x, x ≠ r → kvGet [] (takenOut r port f s).wait x = s.waitq x) := by
  refine ⟨?_, fun x hx => kvGet_kvSet_ne _ _ _ _ hx⟩
  rw [takenOut, kvGet_kvSet, if_pos rfl]

section
variable {r port q i : Nat} {f : Flight} {s u : State}

/-- The lists after a packet has passed to the next router, in a state that holds the network as the router left it. -/
theorem lists_passOn_next (p : Packet) (hport : port ≠ 4) (hnext : rtNext r port = some (q, i)) (hq : q ≠ r)
    (hu : u.noc = takenOut r port f s) :
    (passOn r port p u).waitq r = (s.waitq r).erase f ∧ (passOn r port p u).waitq q = s.waitq q ++ [⟨p, i⟩] ∧
      (∀ x, x ≠ r → x ≠ q → (passOn r port p u).waitq x = s.waitq x) ∧ (passOn r port p u).noc.rx = s.noc.rx ∧
      (passOn r port p u).noc.txns = s.noc.txns ∧ (passOn r port p u).noc.rsps = s.noc.rsps ∧
      (passOn r port p u).noc.reqs = s.noc.reqs := by
  obtain ⟨hself, hother⟩ := waitq_takenOut r port f s
  rw [passOn_next p u hport hnext]
  refine ⟨?_, ?_, fun x hr hxq => ?_, ?_, ?_, ?_, ?_⟩
  · rw [waitq_setWaitq_ne _ _ hq.symm, State.waitq, hu, hself]
  · rw [waitq_setWaitq_same, State.waitq, hu, hother q hq]
  · rw [waitq_setWaitq_ne _ _ hxq, State.waitq, hu, hother x hr]
  all_goals
    rw [State.setWaitq, hu]
    rfl

/-- The lists after a packet has passed to the endpoints. -/
theorem lists_passOn_endpoint (p : Packet) (hu : u.noc = takenOut r 4 f s) :
    (passOn r 4 p u).waitq r = (s.waitq r).erase f ∧ (passOn r 4 p u).rxq r = s.rxq r ++ [⟨p, 4⟩] ∧
      (∀ x, x ≠ r → (passOn r 4 p u).waitq x = s.waitq x ∧ (passOn r 4 p u).rxq x = s.rxq x) ∧
      (passOn r 4 p u).noc.txns = s.noc.txns ∧ (passOn r 4 p u).noc.rsps = s.noc.rsps ∧
      (passOn r 4 p u).noc.reqs = s.noc.reqs := by
  obtain ⟨hself, hother⟩ := waitq_takenOut r 4 f s
  have hrx : ∀ x, u.rxq x = s.rxq x := fun x => by rw [State.rxq, hu]; rfl
  have hwait : ∀ x, (passOn r 4 p u).waitq x = kvGet [] (takenOut r 4 f s).wait x := fun x => by rw [← hu]; rfl
  rw [hwait, hself]
  refine ⟨rfl, ?_, fun x hx => ⟨(hwait x).trans (hother x hx), ?_⟩, ?_, ?_, ?_⟩
  · rw [passOn_endpoint, rxq_setRxq_same, hrx]
  · rw [passOn_endpoint, rxq_setRxq_ne _ _ hx, hrx]
  all_goals
    rw [passOn_endpoint, State.setRxq, hu]
    rfl

/-- A packet that passes on touches the network alone. -/
theorem passOn_leaves (p : Packet) (u : State) : ∃ n, passOn r port p u = { u with noc := n } := by
  unfold passOn
  split
  · exact ⟨_, rfl⟩
  · cases rtNext r port with
    | none => exact ⟨u.noc, rfl⟩
    | some x => exact ⟨_, rfl⟩

end

end Sys2Proof.Machine
end

section
/-! Endpoints: what a lone packet at a router's endpoints becomes (R456, R459 to R461), and O44. -/
namespace Sys2Proof.Machine

/-- The network once a lone packet has been taken from a router's endpoints. -/
def rxEmptied (r : Nat) (s : State) : Noc := { s.noc with rx := kvSet [] s.noc.rx r [] }

theorem rxq_rxEmptied (r : Nat) (s : State) : kvGet [] (rxEmptied r s).rx r = [] ∧
    ∀ x, x ≠ r → kvGet [] (rxEmptied r s).rx x = s.rxq x := by
  refine ⟨?_, fun x hx => ?_⟩
  · rw [rxEmptied, kvGet_kvSet, if_pos rfl]
  · rw [rxEmptied, kvGet_kvSet, if_neg hx]
    rfl

theorem exec_nocPacketReceive_of_empty {r : Nat} {err : HopError} {s : State} (h : s.rxq r = []) :
    exec (.nocPacketReceive r err) s = .next s := by
  show orFault (nocReceive r err s (heads (s.rxq r) [])) = _
  rw [h]
  rfl

section
variable {r : Nat} {f : Flight} {err : HopError} {s u : State} (hone : s.rxq r = [f])
include hone

theorem setRxq_erase_lone : s.setRxq r ((s.rxq r).erase f) = { s with noc := rxEmptied r s } := by
  rw [hone, List.erase_cons_head]
  rfl

/-- A packet that fails its checks is dropped. -/
theorem exec_nocPacketReceive_of_dropped (hcheck : checkPacket r f.pkt err { s with noc := rxEmptied r s } = (none, u))
    (hrsps : u.noc.rsps = []) (hreqs : u.noc.reqs = []) : exec (.nocPacketReceive r err) s = .next u := by
  have hreceive : nocReceive r err s (heads (s.rxq r) []) = .ok (nocPump u) := by
    rw [show heads (s.rxq r) [] = [f] by rw [hone]; rfl, nocReceive, setRxq_erase_lone hone, hcheck]
  show orFault (nocReceive r err s (heads (s.rxq r) [])) = _
  rw [hreceive, nocPump_of_idle hrsps hreqs]
  rfl

/-- A packet that passes its checks is taken. -/
theorem exec_nocPacketReceive_of_taken {p : Packet} {v : State}
    (hcheck : checkPacket r f.pkt err { s with noc := rxEmptied r s } = (some p, u)) (htake : takePacket r p u = .ok (some v))
    (hrsps : v.noc.rsps = []) (hreqs : v.noc.reqs = []) : exec (.nocPacketReceive r err) s = .next v := by
  have hreceive : nocReceive r err s (heads (s.rxq r) []) = .ok (nocPump v) := by
    rw [show heads (s.rxq r) [] = [f] by rw [hone]; rfl, nocReceive, setRxq_erase_lone hone, hcheck]
    simp only [htake]
  show orFault (nocReceive r err s (heads (s.rxq r) [])) = _
  rw [hreceive, nocPump_of_idle hrsps hreqs]
  rfl

end

/-! ### The checks (R456, R459, R460) -/

section
variable {r : Nat} {p : Packet} {err : HopError} {s : State}

theorem checkPacket_of_crc (he : p.e2e = true) (hbad : p.crcOk = false ∨ err ≠ .none) :
    checkPacket r p err s = (none, crcDrop r p s) := by
  have hdrop : (!p.crcOk || err != .none) = true := by
    obtain h | h := hbad
    · simp [h]
    · simp [h]
  rw [checkPacket, if_pos he, if_pos hdrop]

variable (he : p.e2e = false)
include he

theorem checkPacket_of_header : checkPacket r p .header s = (none, hopUe r 4 (opChannel p.op) 0 s) := by
  rw [checkPacket, if_neg (by simp [he])]

theorem checkPacket_of_class (h : opClass p.op ≠ some p.cls) : checkPacket r p .none s = (none, routeDrop r p s) := by
  rw [checkPacket, if_neg (by simp [he])]
  exact if_pos h

theorem checkPacket_of_good (h : opClass p.op = some p.cls) : checkPacket r p .none s = (some p, s) := by
  rw [checkPacket, if_neg (by simp [he])]
  exact if_neg (by simp [h])

end

/-! ### A read of control SRAM (R456, R461, R515) -/

theorem takePacket_of_event {p : Packet} (s : State) (hop : p.op = 5) :
    takePacket 65 p s = .ok (some { s with evq := s.evq ++ [recordOf p.payload] }) := by
  simp [takePacket, hop, isResponse, isRequest]

theorem takePacket_of_late {r : Nat} {p : Packet} {s : State} (hop : p.op ∈ [3, 4]) (htxns : s.noc.txns = []) :
    takePacket r p s = .ok (some (s.count F.NOC_CNT_LATE_COUNT)) := by
  have hresp : isResponse p.op = true := by
    simp only [List.mem_cons, List.not_mem_nil, or_false] at hop
    obtain h | h := hop <;> simp [isResponse, h]
  rw [takePacket, if_pos hresp, takeResponse, htxns]
  rfl

/-- A router whose input has room for the response holds no more than that input's flits (R457). -/
theorem size_of_canSend {r n : Nat} {p : Packet} {s : State} (bs : List Byte) (hroom : s.canSend r (response r p 0 (bs ++ List.replicate n 0)) = true) :
    n ≤ 544 := by
  have hflits : packetFlits (response r p 0 (bs ++ List.replicate n 0)) ≤ 18 := by
    simp only [State.canSend, State.room, Bool.and_eq_true, decide_eq_true_eq] at hroom
    omega
  have hlen : (response r p 0 (bs ++ List.replicate n 0)).payload.length = bs.length + n := by simp [response]
  rw [packetFlits, hlen] at hflits
  split at hflits <;> omega

theorem memRequest_of_sram {p : Packet} {s : State} (hop : p.op = 1) (hsram : isCtlSram p.addr = true)
    (hbad : s.sramBad p.addr p.size = []) :
    memRequest 66 p s = send 66 (response 66 p 0 (s.bytes p.addr p.size)) s := by
  obtain ⟨hregs, huser, hflash, hhost⟩ := ranges_of_isCtlSram hsram
  have hlex : isLex p.addr = false := (Bool.or_eq_false_iff.1 huser).1
  have hdest : destOf p.addr = some 66 := by
    simp [destOf, hregs, hlex, isHbm_of_isCtlSram hsram, hsram]
  have hread : memRead (s.packetMaster p) p.addr p.size s = (0, s.bytes p.addr p.size, s) := by
    simp [memRead, huser, hflash, hhost, hbad]
  simp only [memRequest, hregs, hdest, busRefusal_of_isCtlSram _ _ _ s hsram, hop, hlex, hread]
  rfl

theorem takePacket_of_sram {p : Packet} {s : State} (hop : p.op = 1) (hsram : isCtlSram p.addr = true)
    (hbad : s.sramBad p.addr p.size = []) (hsize : 0 < p.size)
    (hroom : s.canSend 66 (response 66 p 0 (p.payload ++ List.replicate p.size 0)) = true) :
    takePacket 66 p s = .ok (some (send 66 (response 66 p 0 (s.bytes p.addr p.size)) s)) := by
  have hbound := size_of_canSend _ hroom
  have hend : isHbm (p.addr + p.size - 1) = false := by
    simp only [isCtlSram, Bool.and_eq_true, decide_eq_true_eq] at hsram
    simp only [isHbm, Bool.and_eq_false_iff, decide_eq_false_iff_not]
    omega
  have hheld : s.rangeHeld p.addr p.size = false := by
    rw [State.rangeHeld, State.hbmHeld, State.hbmHeld, isHbm_of_isCtlSram hsram, hend]
    rfl
  have hroom' : s.canSend 66 (response 66 p 0 (p.payload ++ List.replicate p.size 0#8)) = true := hroom
  unfold takePacket
  rw [if_neg (by simp [hop, isResponse]), if_pos (by simp [hop, isRequest]), if_pos hop, hroom', if_neg (by simp),
    if_neg (by simp [hheld]), if_pos (.inl hop), memRequest_of_sram hop hsram hbad]

/-! ### O44 -/

/-- What a router forwards while nothing waits in a rim port. -/
theorem exec_nocPacketForward {r port : Nat} {err : HopError} {s t : State} (h : nocForward r port err s = t)
    (hrsps : t.noc.rsps = []) (hreqs : t.noc.reqs = []) : exec (.nocPacketForward r port err) s = .next t := by
  subst h
  exact congrArg Host.Outcome.next (nocPump_of_idle hrsps hreqs)

section
variable {r port q i : Nat} {f : Flight} {s : State} (hrsps : s.noc.rsps = []) (hreqs : s.noc.reqs = [])
include hrsps hreqs

/-- A packet that reaches the next router. -/
theorem leads_hop {err : HopError} {p : Packet} {u : State} (hport : port ≠ 4) (hnext : rtNext r port = some (q, i)) (hq : q ≠ r)
    (hu : u.noc = takenOut r port f s) (h : nocForward r port err s = passOn r port p u) :
    leads (.nocPacketForward r port err) s fun t => t.waitq r = (s.waitq r).erase f ∧ t.waitq q = s.waitq q ++ [⟨p, i⟩] ∧
      (∀ x, x ≠ r → x ≠ q → t.waitq x = s.waitq x) ∧ t.noc.rx = s.noc.rx ∧ t.noc.txns = s.noc.txns ∧
      ∃ n, t = { u with noc := n } := by
  obtain ⟨hself, hto, hother, hrx, htxns, hrsps', hreqs'⟩ := lists_passOn_next p hport hnext hq hu
  exact leads_of (exec_nocPacketForward h (hrsps'.trans hrsps) (hreqs'.trans hreqs))
    ⟨hself, hto, hother, hrx, htxns, passOn_leaves p u⟩

/-- A packet that reaches the endpoints. -/
theorem leads_toEndpoint {err : HopError} {p : Packet} {u : State} (hu : u.noc = takenOut r 4 f s)
    (h : nocForward r 4 err s = passOn r 4 p u) :
    leads (.nocPacketForward r 4 err) s fun t => t.waitq r = (s.waitq r).erase f ∧ t.rxq r = s.rxq r ++ [⟨p, 4⟩] ∧
      (∀ x, x ≠ r → t.waitq x = s.waitq x ∧ t.rxq x = s.rxq x) ∧ t.noc.txns = s.noc.txns ∧ ∃ n, t = { u with noc := n } := by
  obtain ⟨hself, hto, hother, htxns, hrsps', hreqs'⟩ := lists_passOn_endpoint p hu
  exact leads_of (exec_nocPacketForward h (hrsps'.trans hrsps) (hreqs'.trans hreqs))
    ⟨hself, hto, hother, htxns, passOn_leaves p u⟩

/-- A packet that an error of the hop drops. -/
theorem leads_dropped {err : HopError} (hf : s.chosen r port = some f) (he : f.pkt.e2e = false)
    (herr : err = .header ∨ (err = .data ∧ packetFlits f.pkt ≤ 1)) :
    leads (.nocPacketForward r port err) s fun t => t.waitq r = (s.waitq r).erase f ∧ (∀ x, x ≠ r → t.waitq x = s.waitq x) ∧
      t.noc.rx = s.noc.rx ∧ counted F.NOC_CNT_UE_COUNT s t ∧ posted F.NOC_EVT_UE 4 2 [r, f.port, opChannel f.pkt.op, 0] s t ∧
      steady s t ∧ onlyFields [F.NOC_CNT_UE_COUNT, F.NOC_EVT_UE] s t := by
  obtain ⟨hnoc, hcount, hposted, hsteady, honly⟩ := hopUe_sets r f.port (opChannel f.pkt.op) 0 s (takenOut r port f s)
  obtain ⟨hself, hother⟩ := waitq_takenOut r port f s
  have h := nocForward_of_bad hf he herr
  generalize hopUe r f.port _ 0 _ = t at h hnoc hcount hposted hsteady honly
  refine leads_of (exec_nocPacketForward h (by rw [hnoc]; exact hrsps) (by rw [hnoc]; exact hreqs))
    ⟨?_, fun x hx => ?_, by rw [hnoc]; rfl, hcount, hposted, hsteady, honly⟩
  · rw [State.waitq, hnoc, hself]
  · rw [State.waitq, hnoc, hother x hx]

/-- A lone packet that an endpoint drops with a count and its event. -/
theorem leads_dropAtEndpoint {err : HopError} {u : State} (hone : s.rxq r = [f])
    (hcheck : checkPacket r f.pkt err { s with noc := rxEmptied r s } = (none, u)) (hnoc : u.noc = rxEmptied r s) :
    leads (.nocPacketReceive r err) s fun t => t.rxq r = [] ∧ (∀ x, x ≠ r → t.rxq x = s.rxq x) ∧ t.noc.wait = s.noc.wait ∧
      t = u := by
  obtain ⟨hself, hother⟩ := rxq_rxEmptied r s
  refine leads_of (exec_nocPacketReceive_of_dropped hone hcheck (by rw [hnoc]; exact hrsps) (by rw [hnoc]; exact hreqs))
    ⟨?_, fun x hx => ?_, by rw [hnoc]; rfl, rfl⟩
  · rw [State.rxq, hnoc, hself]
  · rw [State.rxq, hnoc, hother x hx]

end

theorem leads_mono {i : Instr} {s : State} {P Q : State → Prop} (h : leads i s P) (hPQ : ∀ t, P t → Q t) : leads i s Q := by
  obtain ⟨t, he, hP⟩ := h
  exact ⟨t, he, hPQ t hP⟩

/-- Settles O44: a router's output passes its packet on with the network alone changed (`passOn`), an error of the hop is counted
and reported before (`hopUe_sets`), and a lone packet at an endpoint is dropped or taken (`checkPacket`, `takePacket`). -/
theorem packetsForwarded : Obligations.PacketsForwarded := by
  unfold Obligations.PacketsForwarded
  refine ⟨?none, ?toEndpoint, ?hop, ?hopCrc, ?endpointCrc, ?corrected, ?bad, ?poisoned, ?age, ?empty, ?crc, ?header, ?cls, ?event,
    ?late, ?read⟩
  case none =>
    intro r port err s hrsps hreqs hf
    exact exec_nocPacketForward (nocForward_of_none hf) hrsps hreqs
  case toEndpoint =>
    intro r f s hrsps hreqs hf
    refine leads_mono (leads_toEndpoint hrsps hreqs rfl (nocForward_of_good hf)) fun t ⟨hself, hto, hother, htxns, n, ht⟩ => ?_
    subst ht
    exact ⟨hself, hto, hother, htxns, rfl, ⟨rfl, rfl, rfl⟩, rfl, onlyFields.refl _ s⟩
  case hop =>
    intro r port q i f s hrsps hreqs hport hnext hq hf
    refine leads_mono (leads_hop hrsps hreqs hport hnext hq rfl (nocForward_of_good hf))
      fun t ⟨hself, hto, hother, hrx, htxns, n, ht⟩ => ?_
    subst ht
    exact ⟨hself, hto, hother, hrx, htxns, rfl, ⟨rfl, rfl, rfl⟩, rfl, onlyFields.refl _ s⟩
  case hopCrc =>
    intro r port q i f err s hrsps hreqs hport hnext hq hf he herr
    have h := nocForward_of_e2e hf err he
    rw [show (f.pkt.crcOk && err == .none) = false by simp [herr]] at h
    refine leads_mono (leads_hop hrsps hreqs hport hnext hq rfl h) fun t ⟨hself, hto, _, _, _, n, ht⟩ => ?_
    subst ht
    exact ⟨hself, hto, ⟨rfl, rfl, rfl⟩, rfl, onlyFields.refl _ s⟩
  case endpointCrc =>
    intro r f err s hrsps hreqs hf he herr
    have h := nocForward_of_e2e hf err he
    rw [show (f.pkt.crcOk && err == .none) = false by simp [herr]] at h
    refine leads_mono (leads_toEndpoint hrsps hreqs rfl h) fun t ⟨hself, hto, _, _, n, ht⟩ => ?_
    subst ht
    exact ⟨hself, hto, ⟨rfl, rfl, rfl⟩, rfl, onlyFields.refl _ s⟩
  case corrected =>
    intro r port q i f s hrsps hreqs hport hnext hq hf he
    obtain ⟨hnoc, hcount, hsteady, honly⟩ := hopFixed_sets r f.port s (takenOut r port f s)
    refine leads_mono (leads_hop hrsps hreqs hport hnext hq hnoc (nocForward_of_corrected hf he))
      fun t ⟨hself, hto, _, _, _, n, ht⟩ => ?_
    subst ht
    exact ⟨hself, hto, hcount, hsteady, honly⟩
  case bad => exact fun r port f err s hrsps hreqs hf he herr => leads_dropped hrsps hreqs hf he herr
  case poisoned =>
    intro r port q i f s hrsps hreqs hport hnext hq hf he hflits
    obtain ⟨hnoc, hcount, hposted, hsteady, honly⟩ := hopUe_sets r f.port (opChannel f.pkt.op) 1 s (takenOut r port f s)
    refine leads_mono (leads_hop hrsps hreqs hport hnext hq hnoc (nocForward_of_data hf he hflits))
      fun t ⟨_, hto, _, _, _, n, ht⟩ => ?_
    subst ht
    exact ⟨hto, hcount, hposted, hsteady, honly⟩
  case age =>
    intro r s
    exact leads_of (t := nocAge r s) rfl ⟨waitq_setWaitq_same _ _ _, fun x hx => waitq_setWaitq_ne _ _ hx, rfl, ⟨rfl, rfl, rfl⟩,
      rfl, onlyFields.refl _ s⟩
  case empty => exact fun r err s h => exec_nocPacketReceive_of_empty h
  case crc =>
    intro r f err s hrsps hreqs hone he hbad
    obtain ⟨hnoc, hcount, hposted, hsteady, honly⟩ := countRaise_sets (f := F.NOC_CNT_CRC_COUNT) (g := F.NOC_EVT_CRC) 4 3
      [r, f.pkt.src, f.pkt.cls] s (rxEmptied r s) rfl (by decide) (by decide)
    refine leads_mono (leads_dropAtEndpoint hrsps hreqs hone (checkPacket_of_crc he hbad) hnoc)
      fun t ⟨hself, hother, hwait, ht⟩ => ⟨hself, hother, hwait, ?_⟩
    subst ht
    exact ⟨hcount, hposted, hsteady, honly⟩
  case header =>
    intro r f s hrsps hreqs hone he
    obtain ⟨hnoc, hcount, hposted, hsteady, honly⟩ := hopUe_sets r 4 (opChannel f.pkt.op) 0 s (rxEmptied r s)
    refine leads_mono (leads_dropAtEndpoint hrsps hreqs hone (checkPacket_of_header he) hnoc)
      fun t ⟨hself, _, hwait, ht⟩ => ⟨hself, hwait, ?_⟩
    subst ht
    exact ⟨hcount, hposted, hsteady, honly⟩
  case cls =>
    intro r f s hrsps hreqs hone he hcls
    obtain ⟨hnoc, hcount, hposted, hsteady, honly⟩ := countRaise_sets (f := F.NOC_CNT_ROUTE_COUNT) (g := F.NOC_EVT_ROUTE) 4 5
      [r, f.pkt.dst, f.pkt.epoch.toNat, f.pkt.op] s (rxEmptied r s) rfl (by decide) (by decide)
    refine leads_mono (leads_dropAtEndpoint hrsps hreqs hone (checkPacket_of_class he hcls) hnoc)
      fun t ⟨hself, _, hwait, ht⟩ => ⟨hself, hwait, ?_⟩
    subst ht
    exact ⟨hcount, hposted, hsteady, honly⟩
  case event =>
    intro f s hrsps hreqs hone he hop hcls
    have hgood : opClass f.pkt.op = some f.pkt.cls := by rw [hop, hcls]; rfl
    exact leads_of (exec_nocPacketReceive_of_taken hone (checkPacket_of_good he hgood) (takePacket_of_event _ hop) hrsps hreqs)
      ⟨(rxq_rxEmptied 65 s).1, rfl, ⟨rfl, rfl, rfl⟩, onlyFields.refl _ s⟩
  case late =>
    intro r f s hrsps hreqs htxns hone he hop hcls
    have hgood : opClass f.pkt.op = some f.pkt.cls := by
      rw [hcls]
      simp only [List.mem_cons, List.not_mem_nil, or_false] at hop
      obtain h | h := hop <;> rw [h] <;> rfl
    exact leads_of (exec_nocPacketReceive_of_taken hone (checkPacket_of_good he hgood)
      (takePacket_of_late (s := { s with noc := rxEmptied r s }) hop htxns) hrsps hreqs)
      ⟨(rxq_rxEmptied r s).1, State.fget_count_same _ _, rfl, ⟨rfl, rfl, rfl⟩,
        onlyFields_count (t := { s with noc := rxEmptied r s }) (onlyFields.refl _ s) (by simp)⟩
  case read =>
    intro f s hrsps hreqs hone he hop hcls hsram hbad hsize hroom
    have hgood : opClass f.pkt.op = some f.pkt.cls := by rw [hop, hcls]; rfl
    exact leads_of (exec_nocPacketReceive_of_taken hone (checkPacket_of_good he hgood)
      (takePacket_of_sram (s := { s with noc := rxEmptied 66 s }) hop hsram hbad hsize hroom) hrsps hreqs)
      ⟨(rxq_rxEmptied 66 s).1, waitq_setWaitq_same _ _ _, rfl, ⟨rfl, rfl, rfl⟩, onlyFields.refl _ s⟩

end Sys2Proof.Machine
end

section
/-! Rim master ports, route epochs and mode agreement (R461 to R471) and O45. -/
namespace Sys2Proof.Machine

/-! ### Rim master ports (R463, R471) -/

/-- Whether a port's tree runs is a matter of the rim's state and of two fields. -/
theorem portRuns_of_same {s t : State} (p : Nat) (hrim : t.rim = s.rim) (htree : t.fget F.NOC_RIMP_TREE = s.fget F.NOC_RIMP_TREE)
    (hext : t.fget F.DBG_STAT_EXTEST = s.fget F.DBG_STAT_EXTEST) : t.portRuns p = s.portRuns p := by
  simp only [State.portRuns, State.treeRuns, State.treeFrame, State.pllFrame, State.pllLocked, State.bank, State.frame, State.fbit,
    hrim, htree, hext] <;> rfl

theorem noc_of_idle {s : State} (hrsps : s.noc.rsps = []) (hreqs : s.noc.reqs = []) : ({ s.noc with rsps := [], reqs := [] } : Noc) = s.noc := by
  rw [← hrsps, ← hreqs]

section
variable {x : RimReq} {s : State} (hrsps : s.noc.rsps = []) (hreqs : s.noc.reqs = [])
include hrsps hreqs

/-- A request that cannot be issued waits in its port. -/
theorem rimRequest_of_waiting (h : rimIssue x { s with noc := { s.noc with reqs := [x] } } = none) :
    rimRequest x s = { s with noc := { s.noc with reqs := [x] } } := by
  have hnoc : ({ s.noc with rsps := [], reqs := [x] } : Noc) = { s.noc with reqs := [x] } := by rw [← hrsps]
  unfold rimRequest nocPump
  rw [hreqs, List.nil_append]
  dsimp only
  rw [hrsps, List.foldl_nil, hnoc, rimIssueAll, if_neg (by simp), h]
  rfl

/-- A request that is issued is the only one, so none is left waiting. -/
theorem rimRequest_of_issued {u : State} (h : rimIssue x { s with noc := { s.noc with reqs := [x] } } = some u) :
    rimRequest x s = { u with noc := { u.noc with reqs := [] } } := by
  have hnoc : ({ s.noc with rsps := [], reqs := [x] } : Noc) = { s.noc with reqs := [x] } := by rw [← hrsps]
  unfold rimRequest nocPump
  rw [hreqs, List.nil_append]
  dsimp only
  rw [hrsps, List.foldl_nil, hnoc, rimIssueAll, if_neg (by simp), h]
  rfl

end

/-- The state of a port's transactions and the request once it is issued (R471). -/
def rimIssued (x : RimReq) (d : Nat) (s : State) : State :=
  let tid := kvGet 0 s.noc.tid x.port
  let u := send (rimRouter x.port) (rimPacket x d tid) s
  let txns := s.noc.txns ++ [⟨x.port, tid, x.tag, x.addr⟩]
  { u with noc := { u.noc with
    txns := txns, tid := kvSet 0 s.noc.tid x.port ((tid + 1) % 4096), peak := kvMod 0 s.noc.peak 5 fun k => max k txns.length } }

/-- What an issued request changes is the network: its router's input, the transactions and the next TID. -/
theorem rimIssued_eq (x : RimReq) (d : Nat) (s : State) : ∃ n, rimIssued x d s = { s with noc := n } ∧
    n.wait = kvSet [] s.noc.wait (rimRouter x.port)
      (s.waitq (rimRouter x.port) ++ [⟨s.stamp (rimPacket x d (kvGet 0 s.noc.tid x.port)), 4⟩]) ∧
    n.txns = s.noc.txns ++ [⟨x.port, kvGet 0 s.noc.tid x.port, x.tag, x.addr⟩] ∧
    n.tid = kvSet 0 s.noc.tid x.port ((kvGet 0 s.noc.tid x.port + 1) % 4096) :=
  ⟨_, rfl, rfl, rfl, rfl⟩

section
variable {x : RimReq} {s : State}

theorem rimIssue_of_stopped (h : s.portRuns x.port = false) : rimIssue x s = none := by
  rw [rimIssue, h]
  rfl

variable (hruns : s.portRuns x.port = true)
include hruns

theorem rimIssue_of_nowhere (h : destOf x.addr = none) : rimIssue x s = some (s.emit (.rimResponse x.port x.tag 1 [])) := by
  rw [rimIssue, hruns, h]
  exact congrArg some (if_pos hruns)

theorem rimIssue_of_held {d : Nat} (hd : destOf x.addr = some d) (h : 48 ≤ s.portLoad x.port ∨ nbit s.noc.modeWait 5 = true ∨
    s.canSend (rimRouter x.port) (rimPacket x d (kvGet 0 s.noc.tid x.port)) = false) : rimIssue x s = none := by
  rw [rimIssue, hruns, hd]
  refine (if_neg (by simp)).trans (if_pos ?_)
  simp only [Bool.or_eq_true, decide_eq_true_eq, Bool.not_eq_true', or_assoc]
  exact h

theorem rimIssue_of_free {d : Nat} (hd : destOf x.addr = some d) (hload : s.portLoad x.port < 48) (hmode : nbit s.noc.modeWait 5 = false)
    (hroom : s.canSend (rimRouter x.port) (rimPacket x d (kvGet 0 s.noc.tid x.port)) = true) :
    rimIssue x s = some (rimIssued x d s) := by
  rw [rimIssue, hruns, hd]
  refine (if_neg (by simp)).trans (if_neg ?_)
  simp [hmode, hroom, hload]

end

/-- An answer buffered for a stopped tree stays where it is. -/
theorem nocPump_of_buffered {y : RimRsp} {u : State} (hrsps : u.noc.rsps = [y]) (hreqs : u.noc.reqs = [])
    (hstopped : u.portRuns y.port = false) : nocPump u = u := by
  have hnoc : ({ u.noc with rsps := [y], reqs := [] } : Noc) = u.noc := by rw [← hrsps, ← hreqs]
  have hkept : rimAnswer y { u with noc := { u.noc with rsps := [] } } = { u with noc := { u.noc with rsps := [y] } } :=
    if_neg (Bool.eq_false_iff.1 hstopped)
  unfold nocPump
  rw [hrsps]
  dsimp only [List.foldl_cons, List.foldl_nil]
  rw [hkept]
  dsimp only
  rw [hreqs]
  exact congrArg (fun n => ({ u with noc := n } : State)) hnoc

section
variable {x : Txn} {k status : Nat} {bs : List Byte} {s : State} (hrsps : s.noc.rsps = []) (hreqs : s.noc.reqs = [])
include hrsps hreqs

/-- A transaction completes at its port while the port's tree runs, and no other waits. -/
theorem txnDone_of_running (hruns : s.portRuns x.port = true) : txnDone x status bs s =
    ({ s with noc := { s.noc with txns := s.noc.txns.erase x } } : State).emit (.rimResponse x.port x.tag status bs) := by
  have hanswer : rimAnswer ⟨x.port, x.tag, status, bs⟩ { s with noc := { s.noc with txns := s.noc.txns.erase x } } =
      ({ s with noc := { s.noc with txns := s.noc.txns.erase x } } : State).emit (.rimResponse x.port x.tag status bs) := if_pos hruns
  rw [txnDone, hanswer]
  exact nocPump_of_idle hrsps hreqs

/-- While the tree is stopped its answer is buffered (R471). -/
theorem txnDone_of_stopped (hruns : s.portRuns x.port = false) : txnDone x status bs s =
    { s with noc := { s.noc with txns := s.noc.txns.erase x, rsps := [⟨x.port, x.tag, status, bs⟩] } } := by
  have hbuffered : rimAnswer ⟨x.port, x.tag, status, bs⟩ { s with noc := { s.noc with txns := s.noc.txns.erase x } } =
      { s with noc := { s.noc with txns := s.noc.txns.erase x, rsps := s.noc.rsps ++ [⟨x.port, x.tag, status, bs⟩] } } :=
    if_neg (Bool.eq_false_iff.1 hruns)
  rw [hrsps, List.nil_append] at hbuffered
  exact (congrArg nocPump hbuffered).trans (nocPump_of_buffered rfl hreqs hruns)

end

/-- A timeout is counted in the network's own counters besides. -/
def tmoCounted (s : State) : Noc := { s.noc with tmo := kvMod 0 s.noc.tmo 5 (· + 1) }

/-- The state in which a timed-out transaction is answered. -/
def timedOut (x : Txn) (s : State) : State :=
  (({ s with noc := tmoCounted s } : State).count F.NOC_CNT_TMO_COUNT).raise F.NOC_EVT_TIMEOUT 4 4 ([5, x.tid] ++ w64 x.addr)

theorem nocTimeout_of_some {k : Nat} {x : Txn} {s : State} (h : s.noc.txns[k]? = some x) :
    nocTimeout k s = txnDone x 5 [] (timedOut x s) := by
  rw [nocTimeout, h]
  rfl

theorem timedOut_sets (x : Txn) (s : State) : (timedOut x s).noc = tmoCounted s ∧ counted F.NOC_CNT_TMO_COUNT s (timedOut x s) ∧
    posted F.NOC_EVT_TIMEOUT 4 4 ([5, x.tid] ++ w64 x.addr) s (timedOut x s) ∧ steady s (timedOut x s) ∧
    onlyFields [F.NOC_CNT_TMO_COUNT, F.NOC_EVT_TIMEOUT] s (timedOut x s) :=
  countRaise_sets 4 4 _ s (tmoCounted s) rfl (by decide) (by decide)

theorem portRuns_timedOut (x : Txn) (p : Nat) (s : State) : (timedOut x s).portRuns p = s.portRuns p := by
  obtain ⟨-, -, -, -, honly⟩ := timedOut_sets x s
  exact portRuns_of_same p (State.rim_raise _ _ _ _ _) (honly _ (by decide)) (honly _ (by decide))

end Sys2Proof.Machine
end

section
/-! Route epochs, mode agreement (R464, R467, R469), and O45. -/
namespace Sys2Proof.Machine

/-! ### Route epochs (R467, R480) -/

theorem rtFlip_of_busy {s : State} (h : s.fbit F.NOC_STAT_OLDBUSY = true) : rtFlip s = s.fset F.NOC_RT_RESULT 2 := if_pos h

section
variable {s : State} (h : s.fbit F.NOC_STAT_OLDBUSY = false)
include h

theorem rtFlip_of_fault {r d : Nat} (hfault : s.routeFault (1 - s.epoch) = some (r, d)) : rtFlip s =
    (({ s with free := s.free + 1 } : State).fset F.NOC_RT_RESULT 1).raise F.NOC_EVT_RT 4 6 [1, r, d, s.freshNat.1 % 2] := by
  rw [rtFlip, if_neg (by simp [h]), hfault]
  rfl

theorem rtFlip_of_good (hgood : s.routeFault (1 - s.epoch) = none) : rtFlip s =
    ((s.fset F.NOC_STAT_EPOCH (1 - s.epoch)).fset F.NOC_STAT_OLDBUSY 1).fset F.NOC_RT_FLIP 1 := by
  rw [rtFlip, if_neg (by simp [h]), hgood]

end

/-- A bank that breaks R466 is refused with NOC_RT. -/
theorem flip_fault {s : State} (h : s.fbit F.NOC_STAT_OLDBUSY = false) {r d : Nat} (hfault : s.routeFault (1 - s.epoch) = some (r, d)) :
    let t := rtFlip s
    t.noc = s.noc ∧ steady s t ∧ t.fget F.NOC_RT_RESULT = 1 ∧ t.epoch = s.epoch ∧ (∃ v, posted F.NOC_EVT_RT 4 6 [1, r, d, v] s t) ∧
      onlyFields [F.NOC_RT_RESULT, F.NOC_EVT_RT] s t := by
  have honly : onlyFields [F.NOC_RT_RESULT, F.NOC_EVT_RT] s (({ s with free := s.free + 1 } : State).fset F.NOC_RT_RESULT 1) :=
    onlyFields.fset (t := { s with free := s.free + 1 }) (onlyFields.refl _ s) List.mem_cons_self 1
  have hlast := honly.raise (List.mem_cons_of_mem _ List.mem_cons_self) 4 6 [1, r, d, s.freshNat.1 % 2] (f := F.NOC_EVT_RT)
  dsimp only
  rw [rtFlip_of_fault h hfault]
  refine ⟨State.noc_raise _ _ _ _ _, ⟨State.seq_raise _ _ _ _ _, State.clauses_raise _ _ _ _ _, State.mem_raise _ _ _ _ _⟩, ?_,
    hlast _ (by decide), ⟨_, posted_raise _ _ _ rfl rfl rfl rfl (State.fget_fset_ne _ _ (by decide))⟩, hlast⟩
  rw [State.fget_raise_ne _ _ _ _ (by decide), State.fget_fset_same]
  rfl

/-- A bank that keeps R466 becomes the epoch's. -/
theorem flip_good {s : State} (h : s.fbit F.NOC_STAT_OLDBUSY = false) (hgood : s.routeFault (1 - s.epoch) = none) :
    let t := rtFlip s
    t.noc = s.noc ∧ steady s t ∧ t.epoch = (1 - s.epoch) ∧ t.fget F.NOC_STAT_OLDBUSY = 1 ∧ t.fget F.NOC_RT_FLIP = 1 ∧ t.evq = s.evq ∧
      onlyFields [F.NOC_STAT_EPOCH, F.NOC_STAT_OLDBUSY, F.NOC_RT_FLIP] s t := by
  dsimp only
  rw [rtFlip_of_good h hgood]
  refine ⟨rfl, ⟨rfl, rfl, rfl⟩, ?_, ?_, State.fget_fset_same _ _ _, rfl,
    (((onlyFields.refl _ s).fset (by simp) _).fset (by simp) _).fset (by simp) _⟩
  · rw [State.epoch, State.fget_fset_ne _ _ (by decide), State.fget_fset_ne _ _ (by decide), State.fget_fset_same]
    exact Nat.mod_eq_of_lt (show 1 - s.epoch < 2 by omega)
  · rw [State.fget_fset_ne _ _ (by decide), State.fget_fset_same]
    rfl

theorem oldDrained_of_left {s : State} (h : s.fbit F.NOC_STAT_OLDBUSY = false ∨ s.oldCount ≠ 0) : oldDrained s = s :=
  if_pos (by simpa using h)

/-- The end of a drain, before what waited goes on. -/
def epochRetired (s : State) : State :=
  (((({ s with free := s.free + 2 } : State).fset F.NOC_STAT_OLDBUSY 0).fset F.NOC_RT_FLIP 0).fset F.NOC_RT_RESULT 0).raise
    F.NOC_EVT_RT 4 6 [0, s.freshNat.1 % 128, s.freshNat.2.freshNat.1 % 128, s.epoch]

theorem oldDrained_of_empty {s : State} (hrsps : s.noc.rsps = []) (hreqs : s.noc.reqs = []) (h : s.fbit F.NOC_STAT_OLDBUSY = true)
    (hzero : s.oldCount = 0) : oldDrained s = epochRetired s := by
  have hnoc : (epochRetired s).noc = s.noc := State.noc_raise _ _ _ _ _
  refine (if_neg (by simp [h, hzero])).trans (nocPump_of_idle (s := epochRetired s) ?_ ?_)
  · rw [hnoc, hrsps]
  · rw [hnoc, hreqs]

theorem epochRetired_sets (s : State) : let t := epochRetired s
    t.fget F.NOC_STAT_OLDBUSY = 0 ∧ t.fget F.NOC_RT_FLIP = 0 ∧ t.fget F.NOC_RT_RESULT = 0 ∧ t.epoch = s.epoch ∧
      (∃ u v, posted F.NOC_EVT_RT 4 6 [0, u, v, s.epoch] s t) ∧ t.noc = s.noc ∧ steady s t ∧
      onlyFields [F.NOC_STAT_OLDBUSY, F.NOC_RT_FLIP, F.NOC_RT_RESULT, F.NOC_EVT_RT] s t := by
  have hset := onlyFields_fsetAll (l := [(F.NOC_STAT_OLDBUSY, 0), (F.NOC_RT_FLIP, 0), (F.NOC_RT_RESULT, 0)])
    (fs := [F.NOC_STAT_OLDBUSY, F.NOC_RT_FLIP, F.NOC_RT_RESULT, F.NOC_EVT_RT]) { s with free := s.free + 2 } (by simp)
  have hget := fun f v => fget_fsetAll (l := [(F.NOC_STAT_OLDBUSY, 0), (F.NOC_RT_FLIP, 0), (F.NOC_RT_RESULT, 0)]) (f := f) (v := v)
    (by decide)
  have hlast : onlyFields [F.NOC_STAT_OLDBUSY, F.NOC_RT_FLIP, F.NOC_RT_RESULT, F.NOC_EVT_RT] s (epochRetired s) :=
    hset.raise (f := F.NOC_EVT_RT) (by simp) _ _ _
  refine ⟨(State.fget_raise_ne _ _ _ _ (by decide)).trans (hget F.NOC_STAT_OLDBUSY 0 (by simp) _),
    (State.fget_raise_ne _ _ _ _ (by decide)).trans (hget F.NOC_RT_FLIP 0 (by simp) _),
    (State.fget_raise_ne _ _ _ _ (by decide)).trans (hget F.NOC_RT_RESULT 0 (by simp) _), hlast _ (by decide),
    ⟨_, _, posted_raise _ _ _ rfl rfl rfl rfl (hset _ (by decide))⟩, State.noc_raise _ _ _ _ _,
    ⟨State.seq_raise _ _ _ _ _, State.clauses_raise _ _ _ _ _, State.mem_raise _ _ _ _ _⟩, hlast⟩

/-! ### Mode agreement (R464, R469, R613) -/

/-- The rule that the shadows break, as a number: 0 for none. -/
theorem modeFault_eq (s : State) {r : Nat} (hr : r = (if s.fget F.NOC_TIME_TICK = 0 then 1
    else if s.fget F.NOC_TIME_TMO < 4 * s.fget F.NOC_TIME_TICK then 2
    else if s.fget F.NOC_MODE_DLMODE ≠ s.fget F.NOC_MODEA_DLMODE ∧ s.fbit F.NOC_STAT_OLDBUSY = true then 3 else 0)) :
    r < 4 ∧ s.modeFault = if r = 0 then none else some r := by
  subst hr
  unfold State.modeFault
  split_ifs <;> simp_all

/-- The requesters that a change of DLMODE makes wait. -/
def modeWaits (s : State) : Nat :=
  if s.fget F.NOC_MODE_DLMODE = s.fget F.NOC_MODEA_DLMODE then 0 else maskOf 8 fun k => s.inFlight k != 0

/-- The fields that an agreement takes, with their values. -/
def agreeValues (tag : Nat) (s : State) : List (Fld × Nat) :=
  [(F.NOC_AGREE_TAG, tag), (F.NOC_MODEA_DLMODE, s.fget F.NOC_MODE_DLMODE), (F.NOC_MODEA_PROT, s.fget F.NOC_MODE_PROT),
    (F.NOC_MODEA_PRIO, s.fget F.NOC_MODE_PRIO), (F.NOC_TIMEA_TMO, s.fget F.NOC_TIME_TMO),
    (F.NOC_TIMEA_TICK, s.fget F.NOC_TIME_TICK), (F.NOC_STAT_MODE_WAIT, (modeWaits s != 0).toNat), (F.NOC_AGREE_RESULT, 0)]

section
variable {tag : Nat} {s : State}

theorem nocAgree_of_waiting (h : s.noc.modeWait ≠ 0) : nocAgree tag s = s.fset F.NOC_AGREE_RESULT 4 := if_pos h

variable (h : s.noc.modeWait = 0)
include h

theorem nocAgree_of_fault {r : Nat} (hfault : s.modeFault = some r) : nocAgree tag s =
    (fsetAll [(F.NOC_AGREE_TAG, tag), (F.NOC_AGREE_RESULT, r)] s).raise F.NOC_EVT_AGREE 4 7 [tag, r] := by
  rw [nocAgree, if_neg (by simp [h]), hfault]
  rfl

theorem nocAgree_of_good (hgood : s.modeFault = none) : nocAgree tag s =
    (fsetAll (agreeValues tag s) { s with noc := { s.noc with modeWait := modeWaits s } }).raise F.NOC_EVT_AGREE 4 7 [tag, 0] := by
  rw [nocAgree, if_neg (by simp [h]), hgood]
  rfl

end

/-- The fields of an agreement that takes the shadows, its event among them. -/
def agreeFields : List Fld :=
  [F.NOC_AGREE_TAG, F.NOC_AGREE_RESULT, F.NOC_EVT_AGREE, F.NOC_MODEA_DLMODE, F.NOC_MODEA_PROT, F.NOC_MODEA_PRIO,
    F.NOC_TIMEA_TMO, F.NOC_TIMEA_TICK, F.NOC_STAT_MODE_WAIT]

/-- Fields set and an event raised, in a state that differs from s in the network alone. -/
theorem fsetAll_raise_sets {l : List (Fld × Nat)} {fs : List Fld} {g : Fld} (src code : Nat) (p : List Nat) (s : State) (n : Noc)
    (hw : g.width = 1) (hnd : (l.map fun e => e.1.key).Nodup) (hev : ∀ e ∈ l, e.1.key ≠ g.key ∧ (evten g).key ≠ e.1.key)
    (hfs : g :: l.map Prod.fst ⊆ fs) : let t := (fsetAll l { s with noc := n }).raise g src code p
    (∀ f v, (f, v) ∈ l → t.fget f = v % 2 ^ f.width) ∧ t.noc = n ∧ t.hif = s.hif ∧ posted g src code p s t ∧ steady s t ∧
      onlyFields fs s t := by
  obtain ⟨m, hm⟩ := fsetAll_eq l { s with noc := n }
  have honly : onlyFields fs s (fsetAll l { s with noc := n }) :=
    onlyFields_fsetAll (fs := fs) { s with noc := n } fun f hf => hfs (List.mem_cons_of_mem _ hf)
  have hen : (fsetAll l { s with noc := n }).fget (evten g) = s.fget (evten g) :=
    fget_fsetAll_ne { s with noc := n } fun e he => (hev e he).2
  have hget : ∀ f v, (f, v) ∈ l → (fsetAll l { s with noc := n }).fget f = v % 2 ^ f.width := fun f v hf => fget_fsetAll hnd hf _
  rw [hm] at honly hen hget ⊢
  exact ⟨fun f v hf => (State.fget_raise_ne _ _ _ _ (hev _ hf).1).trans (hget f v hf), State.noc_raise _ _ _ _ _,
    State.hif_raise _ _ _ _ _, posted_raise _ _ _ hw rfl rfl rfl hen,
    ⟨State.seq_raise _ _ _ _ _, State.clauses_raise _ _ _ _ _, State.mem_raise _ _ _ _ _⟩, honly.raise (hfs List.mem_cons_self) _ _ _⟩

theorem dlSwitch_of_not {row : Nat} {s : State} (h : nbit s.noc.modeWait row = false ∨ s.inFlight row ≠ 0) : dlSwitch row s = s :=
  if_neg (by
    obtain h | h := h
    · simp [h]
    · simp [h])

theorem dlSwitch_of_done {row : Nat} {s : State} (hrsps : s.noc.rsps = []) (hreqs : s.noc.reqs = [])
    (hbit : nbit s.noc.modeWait row = true) (hzero : s.inFlight row = 0) : dlSwitch row s =
      ({ s with noc := { s.noc with modeWait := putBit s.noc.modeWait row false } } : State).fsetb F.NOC_STAT_MODE_WAIT
        (putBit s.noc.modeWait row false != 0) :=
  (if_pos (by simp [hbit, hzero])).trans (nocPump_of_idle hrsps hreqs)

/-! ### O45 -/

/-- A request that is issued (R463, R471). -/
theorem leads_issued {x : RimReq} {d : Nat} {p : Packet} {s : State} (hrsps : s.noc.rsps = []) (hreqs : s.noc.reqs = [])
    (hruns : s.portRuns x.port = true) (hd : destOf x.addr = some d) (hp : p = rimPacket x d (kvGet 0 s.noc.tid x.port))
    (hload : s.portLoad x.port < 48) (hmode : nbit s.noc.modeWait 5 = false) (hroom : s.canSend (rimRouter x.port) p = true) :
    leads (.rimPortRequest x.port x.write x.addr x.size x.tag x.data) s fun t =>
      t.waitq (rimRouter x.port) = s.waitq (rimRouter x.port) ++ [⟨s.stamp p, 4⟩] ∧
      (∀ r, r ≠ rimRouter x.port → t.waitq r = s.waitq r) ∧
      t.noc.txns = s.noc.txns ++ [⟨x.port, kvGet 0 s.noc.tid x.port, x.tag, x.addr⟩] ∧
      kvGet 0 t.noc.tid x.port = (kvGet 0 s.noc.tid x.port + 1) % 4096 ∧ t.noc.reqs = [] ∧ t.out = s.out ∧ steady s t ∧
      t.evq = s.evq ∧ onlyFields [] s t := by
  subst hp
  obtain ⟨n, hn, hwait, htxns, htid⟩ := rimIssued_eq x d { s with noc := { s.noc with reqs := [x] } }
  have hissue := rimIssue_of_free (s := { s with noc := { s.noc with reqs := [x] } }) hruns hd hload hmode hroom
  rw [hn] at hissue
  refine leads_of (congrArg Host.Outcome.next (rimRequest_of_issued hrsps hreqs hissue)) ⟨?_, fun r hr => ?_, htxns, ?_, rfl, rfl,
    ⟨rfl, rfl, rfl⟩, rfl, onlyFields.refl _ s⟩
  · show kvGet [] n.wait (rimRouter x.port) = _
    rw [hwait, kvGet_kvSet, if_pos rfl]
    rfl
  · show kvGet [] n.wait r = _
    rw [hwait, kvGet_kvSet, if_neg hr]
    rfl
  · show kvGet 0 n.tid x.port = _
    rw [htid, kvGet_kvSet, if_pos rfl]

/-- A transaction without a response in time, at a port whose tree runs (R461). -/
theorem leads_timeout_running {k : Nat} {x : Txn} {s : State} (hx : s.noc.txns[k]? = some x) (hrsps : s.noc.rsps = [])
    (hreqs : s.noc.reqs = []) (hruns : s.portRuns x.port = true) : leads (.nocTimeout k) s fun t =>
      t.noc.txns = s.noc.txns.erase x ∧ t.out = s.out ++ [.rimResponse x.port x.tag 5 []] ∧ counted F.NOC_CNT_TMO_COUNT s t ∧
      posted F.NOC_EVT_TIMEOUT 4 4 ([5, x.tid] ++ w64 x.addr) s t ∧ steady s t ∧
      onlyFields [F.NOC_CNT_TMO_COUNT, F.NOC_EVT_TIMEOUT] s t := by
  obtain ⟨hnoc, hcount, hposted, hsteady, honly⟩ := timedOut_sets x s
  have hout : (timedOut x s).out = s.out := State.out_raise _ _ _ _ _
  have hdone := txnDone_of_running (x := x) (status := 5) (bs := []) (s := timedOut x s) (by rw [hnoc]; exact hrsps)
    (by rw [hnoc]; exact hreqs) ((portRuns_timedOut x x.port s).trans hruns)
  have hexec := (nocTimeout_of_some hx).trans hdone
  generalize timedOut x s = u at hnoc hcount hposted hsteady honly hout hexec
  refine leads_of (congrArg Host.Outcome.next hexec) ⟨?_, ?_, hcount, hposted, hsteady, honly⟩
  · exact (congrArg (fun n : Noc => n.txns.erase x) hnoc :)
  · exact congrArg (· ++ [Emit.rimResponse x.port x.tag 5 []]) hout

/-- The same at a port whose tree is stopped (R471). -/
theorem leads_timeout_stopped {k : Nat} {x : Txn} {s : State} (hx : s.noc.txns[k]? = some x) (hrsps : s.noc.rsps = [])
    (hreqs : s.noc.reqs = []) (hruns : s.portRuns x.port = false) : leads (.nocTimeout k) s fun t =>
      t.noc.txns = s.noc.txns.erase x ∧ t.noc.rsps = [⟨x.port, x.tag, 5, []⟩] ∧ t.out = s.out ∧ counted F.NOC_CNT_TMO_COUNT s t ∧
      posted F.NOC_EVT_TIMEOUT 4 4 ([5, x.tid] ++ w64 x.addr) s t ∧ steady s t ∧
      onlyFields [F.NOC_CNT_TMO_COUNT, F.NOC_EVT_TIMEOUT] s t := by
  obtain ⟨hnoc, hcount, hposted, hsteady, honly⟩ := timedOut_sets x s
  have hout : (timedOut x s).out = s.out := State.out_raise _ _ _ _ _
  have hdone := txnDone_of_stopped (x := x) (status := 5) (bs := []) (s := timedOut x s) (by rw [hnoc]; exact hrsps)
    (by rw [hnoc]; exact hreqs) ((portRuns_timedOut x x.port s).trans hruns)
  have hexec := (nocTimeout_of_some hx).trans hdone
  generalize timedOut x s = u at hnoc hcount hposted hsteady honly hout hexec
  exact leads_of (congrArg Host.Outcome.next hexec)
    ⟨(congrArg (fun n : Noc => n.txns.erase x) hnoc :), rfl, hout, hcount, hposted, hsteady, honly⟩

/-- An agreement that takes the shadows (R469). -/
theorem agree_good (tag : Byte) {s : State} (h : s.noc.modeWait = 0) (hgood : s.modeFault = none) : let t := nocAgree tag.toNat s
    (∀ f v, (f, v) ∈ agreeValues tag.toNat s → t.fget f = v % 2 ^ f.width) ∧
      t.noc = { s.noc with modeWait := modeWaits s } ∧ posted F.NOC_EVT_AGREE 4 7 [tag.toNat, 0] s t ∧ steady s t ∧
      onlyFields agreeFields s t := by
  dsimp only
  rw [nocAgree_of_good h hgood]
  obtain ⟨hget, hnoc, -, hrest⟩ := fsetAll_raise_sets (l := agreeValues tag.toNat s) (fs := agreeFields) (g := F.NOC_EVT_AGREE) 4 7
    [tag.toNat, 0] s { s.noc with modeWait := modeWaits s } rfl (by simp [agreeValues]; decide) (by simp [agreeValues]; decide)
    (by simp [agreeValues, agreeFields])
  exact ⟨hget, hnoc, hrest⟩

/-- An agreement that breaks a rule (R469). -/
theorem agree_fault (tag : Byte) {r : Nat} {s : State} (h : s.noc.modeWait = 0) (hfault : s.modeFault = some r) :
    let t := nocAgree tag.toNat s
    (∀ f v, (f, v) ∈ [(F.NOC_AGREE_TAG, tag.toNat), (F.NOC_AGREE_RESULT, r)] → t.fget f = v % 2 ^ f.width) ∧
      t.noc = s.noc ∧ posted F.NOC_EVT_AGREE 4 7 [tag.toNat, r] s t ∧ steady s t ∧
      onlyFields [F.NOC_AGREE_TAG, F.NOC_AGREE_RESULT, F.NOC_EVT_AGREE] s t := by
  dsimp only
  rw [nocAgree_of_fault h hfault]
  obtain ⟨hget, hnoc, -, hrest⟩ := fsetAll_raise_sets (l := [(F.NOC_AGREE_TAG, tag.toNat), (F.NOC_AGREE_RESULT, r)])
    (fs := [F.NOC_AGREE_TAG, F.NOC_AGREE_RESULT, F.NOC_EVT_AGREE]) (g := F.NOC_EVT_AGREE) 4 7 [tag.toNat, r] s s.noc rfl
    (by simp; decide) (by simp; decide) (by simp)
  exact ⟨hget, hnoc, hrest⟩

/-- Settles O45: a request is issued or waits (`rimIssue`), a timed-out transaction is answered or buffered (`txnDone`), and the
epoch and the mode change where their checks let them (`rtFlip`, `nocAgree`). -/
theorem networkModes : Obligations.NetworkModes := by
  unfold Obligations.NetworkModes
  refine ⟨?stopped, ?nowhere, ?issued, ?held, ?noTxn, ?running, ?buffered, ?flipBusy, ?flip, ?left, ?drained, ?agreeWaits, ?agree,
    ?noSwitch, ?switch⟩
  case stopped =>
    intro x s hrsps hreqs hruns
    exact leads_of (congrArg Host.Outcome.next (rimRequest_of_waiting hrsps hreqs
      (rimIssue_of_stopped (s := { s with noc := { s.noc with reqs := [x] } }) hruns)))
      ⟨rfl, rfl, ⟨rfl, rfl, rfl⟩, rfl, onlyFields.refl _ s⟩
  case nowhere =>
    intro x s hrsps hreqs hruns hdest
    refine leads_of (congrArg Host.Outcome.next (rimRequest_of_issued hrsps hreqs
      (rimIssue_of_nowhere (s := { s with noc := { s.noc with reqs := [x] } }) hruns hdest)))
      ⟨?_, rfl, ⟨rfl, rfl, rfl⟩, rfl, onlyFields.refl _ s⟩
    show ({ s.noc with reqs := [] } : Noc) = s.noc
    rw [← hreqs]
  case issued =>
    exact fun x d p s hrsps hreqs hruns hd hp hload hmode hroom => leads_issued hrsps hreqs hruns hd hp hload hmode hroom
  case held =>
    intro x d s hrsps hreqs hruns hd hheld
    exact leads_of (congrArg Host.Outcome.next (rimRequest_of_waiting hrsps hreqs
      (rimIssue_of_held (s := { s with noc := { s.noc with reqs := [x] } }) hruns hd hheld)))
      ⟨rfl, rfl, ⟨rfl, rfl, rfl⟩, rfl, onlyFields.refl _ s⟩
  case noTxn =>
    intro k s h
    show Host.Outcome.next (nocTimeout k s) = _
    rw [nocTimeout, h]
  case running => exact fun k x s hx hrsps hreqs hruns => leads_timeout_running hx hrsps hreqs hruns
  case buffered => exact fun k x s hx hrsps hreqs hruns => leads_timeout_stopped hx hrsps hreqs hruns
  case flipBusy =>
    intro s h
    exact leads_of (congrArg Host.Outcome.next (rtFlip_of_busy h))
      ⟨State.fget_fset_same _ _ _, rfl, ⟨rfl, rfl, rfl⟩, rfl, (onlyFields.refl _ s).fset (by simp) 2⟩
  case flip =>
    intro s h
    cases hfault : s.routeFault (1 - s.epoch) with
    | none =>
      obtain ⟨hnoc, hsteady, hgood⟩ := flip_good h hfault
      exact leads_of (t := rtFlip s) rfl ⟨hnoc, hsteady, fun _ _ hrd => absurd hrd (by simp), fun _ => hgood⟩
    | some x =>
      obtain ⟨r, d⟩ := x
      obtain ⟨hnoc, hsteady, hbad⟩ := flip_fault h hfault
      refine leads_of (t := rtFlip s) rfl ⟨hnoc, hsteady, fun r' d' hrd => ?_, fun hnone => absurd hnone (by simp)⟩
      obtain ⟨rfl, rfl⟩ : r = r' ∧ d = d' := by simpa using hrd
      exact hbad
  case left => exact fun s h => congrArg Host.Outcome.next (oldDrained_of_left h)
  case drained =>
    intro s hrsps hreqs hbusy hzero
    exact leads_of (congrArg Host.Outcome.next (oldDrained_of_empty hrsps hreqs hbusy hzero)) (epochRetired_sets s)
  case agreeWaits =>
    intro tag s h
    exact leads_of (congrArg Host.Outcome.next (nocAgree_of_waiting h))
      ⟨State.fget_fset_same _ _ _, rfl, ⟨rfl, rfl, rfl⟩, rfl, (onlyFields.refl _ s).fset (by simp) 4⟩
  case agree =>
    intro tag r s h hr
    obtain ⟨hlt, hfault⟩ := modeFault_eq s hr
    have htag : tag.toNat % 2 ^ F.NOC_AGREE_TAG.width = tag.toNat := Nat.mod_eq_of_lt tag.isLt
    by_cases hzero : r = 0
    · rw [if_pos hzero] at hfault
      obtain ⟨hget, hnoc, hposted, hsteady, honly⟩ := agree_good tag h hfault
      refine leads_of (t := nocAgree tag.toNat s) rfl ⟨(hget _ _ (by simp [agreeValues])).trans htag,
        (hget F.NOC_AGREE_RESULT 0 (by simp [agreeValues])).trans hzero.symm, hzero ▸ hposted, hsteady, fun hne => absurd hzero hne,
        fun _ => ⟨hget _ _ (by simp [agreeValues]), hget _ _ (by simp [agreeValues]), hget _ _ (by simp [agreeValues]),
          hget _ _ (by simp [agreeValues]), hget _ _ (by simp [agreeValues]), congrArg Noc.modeWait hnoc, honly⟩⟩
    · rw [if_neg hzero] at hfault
      obtain ⟨hget, hnoc, hposted, hsteady, honly⟩ := agree_fault tag h hfault
      exact leads_of (t := nocAgree tag.toNat s) rfl ⟨(hget _ _ (by simp)).trans htag,
        (hget F.NOC_AGREE_RESULT r (by simp)).trans (Nat.mod_eq_of_lt (show r < 2 ^ 8 by omega)), hposted, hsteady,
        fun _ => ⟨hnoc, honly⟩, fun heq => absurd heq hzero⟩
  case noSwitch => exact fun row s h => congrArg Host.Outcome.next (dlSwitch_of_not h)
  case switch =>
    intro row s hrsps hreqs hbit hzero
    refine leads_of (congrArg Host.Outcome.next (dlSwitch_of_done hrsps hreqs hbit hzero)) ⟨rfl, ?_, ⟨rfl, rfl, rfl⟩, rfl,
      onlyFields_fsetb (t := { s with noc := { s.noc with modeWait := putBit s.noc.modeWait row false } }) _ (onlyFields.refl _ s)
        (by simp)⟩
    rw [State.fsetb, State.fget_fset_same]
    exact Nat.mod_eq_of_lt (Bool.toNat_lt _)

end Sys2Proof.Machine
end

section
/-! Vectors: what a signal does (R483, R501). -/
namespace Sys2Proof.Machine

/-- The table entry of vector v is masked. -/
def State.masked (s : State) (v : Nat) : Bool := (s.msixWord (0x800 + 16 * v + 12)).getLsbD 0

/-- The pending bit of vector v stands. -/
def State.pends (s : State) (v : Nat) : Bool := (s.msixWord (0xC00 + 4 * (v / 32))).getLsbD (v % 32)

/-- The state with the pending bit of vector v set. -/
def pendSet (v : Nat) (s : State) : State :=
  let w := BitVec.ofNat 32 (putBit (s.msixWord (0xC00 + 4 * (v / 32))).toNat (v % 32) true)
  { s with hif := { s.hif with msix := kvSet 0#32 s.hif.msix (0xC00 + 4 * (v / 32)) w } }

section
variable {v : Nat} {s : State}

theorem signal_of_off (h : s.hif.bme = false) : signal v s =
    if s.hif.msiWait.contains v = true then s else { s with hif := { s.hif with msiWait := s.hif.msiWait ++ [v] } } :=
  if_pos (by simp [h])

theorem signal_of_masked (h : s.hif.bme = true) (hmask : s.masked v = true) : signal v s = pendSet v s :=
  (if_neg (by simp [h])).trans (if_pos hmask)

theorem signal_of_unmasked (h : s.hif.bme = true) (hmask : s.masked v = false) : signal v s = s.emit (.msix v) :=
  (if_neg (by simp [h])).trans (if_neg (Bool.eq_false_iff.1 hmask))

end

theorem msixWord_pendSet (v o : Nat) (s : State) : (pendSet v s).msixWord o = if o = 0xC00 + 4 * (v / 32)
    then BitVec.ofNat 32 (putBit (s.msixWord (0xC00 + 4 * (v / 32))).toNat (v % 32) true) else s.msixWord o :=
  kvGet_kvSet _ _ _ _ _

/-- A pending bit stands once it or its vector's is set. -/
theorem pends_pendSet (v w : Nat) (s : State) : (pendSet v s).pends w = (decide (w = v) || s.pends w) := by
  have hw : w % 32 < 32 := Nat.mod_lt _ (by decide)
  rw [State.pends, msixWord_pendSet]
  by_cases hword : w / 32 = v / 32
  · rw [if_pos (by rw [hword]), BitVec.getLsbD_ofNat, decide_eq_true hw, Bool.true_and, ← nbit_eq_testBit, nbit_putBit]
    by_cases hbit : w % 32 = v % 32
    · have heq : w = v := by omega
      rw [if_pos hbit, heq, decide_eq_true rfl, Bool.true_or]
    · have hne : w ≠ v := fun heq => hbit (by rw [heq])
      rw [if_neg hbit, decide_eq_false hne, Bool.false_or, nbit_eq_testBit, BitVec.testBit_toNat, State.pends, hword]
  · have hne : w ≠ v := fun heq => hword (by rw [heq])
    rw [if_neg (by omega), decide_eq_false hne, Bool.false_or]
    rfl

/-- The mask of a table entry is no pending bit. -/
theorem masked_pendSet {w : Nat} (v : Nat) (s : State) (hw : w < 64) : (pendSet v s).masked w = s.masked w := by
  rw [State.masked, msixWord_pendSet, if_neg (by omega)]
  rfl

/-- A signal changes what waits, what pends and what goes out. -/
theorem signal_eq (v : Nat) (s : State) : ∃ o w m, signal v s = { s with out := o, hif := { s.hif with msiWait := w, msix := m } } := by
  unfold signal
  split
  · split
    · exact ⟨_, _, _, rfl⟩
    · exact ⟨_, _, _, rfl⟩
  · dsimp only
    split
    · exact ⟨_, _, _, rfl⟩
    · exact ⟨_, _, _, rfl⟩

/-- The outcome of a signal: it waits, pends or goes out (R483, R501). -/
theorem signal_outcome (v : Nat) (s : State) :
    if s.hif.bme = false then v ∈ (signal v s).hif.msiWait ∧ (signal v s).out = s.out
      else if (s.msixWord (0x800 + 16 * v + 12)).getLsbD 0 = true then
        ((signal v s).msixWord (0xC00 + 4 * (v / 32))).getLsbD (v % 32) = true ∧ (signal v s).out = s.out
      else (signal v s).out = s.out ++ [.msix v] ∧ (signal v s).hif = s.hif := by
  split
  case isTrue h =>
    rw [signal_of_off h]
    by_cases hmem : s.hif.msiWait.contains v = true
    · rw [if_pos hmem]
      exact ⟨by simpa using hmem, rfl⟩
    · rw [if_neg hmem]
      exact ⟨List.mem_append_right _ (List.mem_singleton.2 rfl), rfl⟩
  case isFalse h =>
    have hbme : s.hif.bme = true := by simpa using h
    split
    case isTrue hmask =>
      rw [signal_of_masked hbme hmask]
      refine ⟨?_, rfl⟩
      have hpend := pends_pendSet v v s
      rwa [decide_eq_true rfl, Bool.true_or] at hpend
    case isFalse hmask =>
      rw [signal_of_unmasked hbme (Bool.eq_false_iff.2 hmask)]
      exact ⟨rfl, rfl⟩

/-! ### All vectors that waited (R483) -/

theorem foldl_signal_unmasked (vs : List Nat) {s : State} (hbme : s.hif.bme = true) (h : ∀ v ∈ vs, s.masked v = false) :
    vs.foldl (fun s v => signal v s) s = { s with out := s.out ++ vs.map .msix } := by
  induction vs generalizing s with
  | nil => rw [List.map_nil, List.append_nil]; rfl
  | cons v vs ih =>
    rw [List.foldl_cons, signal_of_unmasked hbme (h v List.mem_cons_self)]
    have hrest := ih (s := s.emit (.msix v)) hbme fun w hw => h w (List.mem_cons_of_mem v hw)
    rw [hrest, List.map_cons]
    exact congrArg (fun o => ({ s with out := o } : State)) (List.append_assoc _ _ _)

/-- What vectors sent one after another change, with Bus Master Enable. -/
theorem foldl_signal_eq (vs : List Nat) {s : State} (hbme : s.hif.bme = true) :
    ∃ o m, vs.foldl (fun s v => signal v s) s = { s with out := o, hif := { s.hif with msix := m } } := by
  induction vs generalizing s with
  | nil => exact ⟨s.out, s.hif.msix, rfl⟩
  | cons v vs ih =>
    rw [List.foldl_cons]
    cases hmask : s.masked v with
    | true =>
      rw [signal_of_masked hbme hmask]
      obtain ⟨o, m, h⟩ := ih (s := pendSet v s) hbme
      exact ⟨o, m, h⟩
    | false =>
      rw [signal_of_unmasked hbme hmask]
      obtain ⟨o, m, h⟩ := ih (s := s.emit (.msix v)) hbme
      exact ⟨o, m, h⟩

/-- Those that are not masked go out; every pending bit that stood stands, and those of the masked ones besides. -/
theorem foldl_signal_sends {vs : List Nat} {s : State} (hbme : s.hif.bme = true) (hvs : ∀ v ∈ vs, v < 64) :
    (vs.foldl (fun s v => signal v s) s).out = s.out ++ (vs.filter fun v => !s.masked v).map .msix ∧
      ∀ v, s.pends v = true ∨ (v ∈ vs ∧ s.masked v = true) → (vs.foldl (fun s v => signal v s) s).pends v = true := by
  induction vs generalizing s with
  | nil => exact ⟨(List.append_nil _).symm, fun v h => h.resolve_right fun h => by simp at h⟩
  | cons w vs ih =>
    have hvs' : ∀ v ∈ vs, v < 64 := fun v hv => hvs v (List.mem_cons_of_mem w hv)
    rw [List.foldl_cons]
    cases hmask : s.masked w with
    | true =>
      have hsame : ∀ v ∈ vs, (pendSet w s).masked v = s.masked v := fun v hv => masked_pendSet w s (hvs' v hv)
      obtain ⟨hout, hpends⟩ := ih (s := pendSet w s) hbme hvs'
      rw [signal_of_masked hbme hmask]
      refine ⟨?_, fun v hv => hpends v ?_⟩
      · rw [hout, List.filter_congr fun v hv => congrArg (!·) (hsame v hv), List.filter_cons_of_neg (by simp [hmask])]
        rfl
      · rw [pends_pendSet, Bool.or_eq_true, decide_eq_true_eq]
        rcases hv with hv | ⟨hv, hm⟩
        · exact .inl (.inr hv)
        · rcases List.mem_cons.1 hv with rfl | hv
          · exact .inl (.inl rfl)
          · exact .inr ⟨hv, (hsame v hv).trans hm⟩
    | false =>
      obtain ⟨hout, hpends⟩ := ih (s := s.emit (.msix w)) hbme hvs'
      rw [signal_of_unmasked hbme hmask]
      refine ⟨?_, fun v hv => hpends v ?_⟩
      · rw [hout, List.filter_cons_of_pos (by simp [hmask]), List.map_cons]
        exact List.append_assoc s.out _ _
      · rcases hv with hv | ⟨hv, hm⟩
        · exact .inl hv
        · rcases List.mem_cons.1 hv with rfl | hv
          · exact absurd (hmask.symm.trans hm) Bool.false_ne_true
          · exact .inr ⟨hv, hm⟩

end Sys2Proof.Machine
end

section
/-! The arbiter and the rings (R494 to R502, R507). -/
namespace Sys2Proof.Machine

/-! ### The arbiter (R494, R502) -/

theorem eventAccept_of_none {k : Nat} {s : State} (h : s.evq[k]? = none ∨ 256 ≤ s.hif.held.length) : eventAccept k s = s := by
  unfold eventAccept
  cases hk : s.evq[k]? with
  | none => rfl
  | some e => exact if_pos (h.resolve_left (by simp [hk]))

/-- The state with a waiting record in the hold buffer. -/
def accepted (k : Nat) (e : Ev) (s : State) : State :=
  { s with
    evq := s.evq.eraseIdx k
    hif := { s.hif with held := s.hif.held ++ [(s.hif.seqno, e)], seqno := (s.hif.seqno + 1) % 2 ^ 32 } }

theorem eventAccept_of_some {k : Nat} {e : Ev} {s : State} (h : s.evq[k]? = some e) (hroom : s.hif.held.length < 256) :
    eventAccept k s = errorLog e (accepted k e s) := by
  rw [eventAccept, h]
  exact if_neg (by omega)

theorem errorLog_of_class {e : Ev} (s : State) (h : evClass e ≠ 2) : errorLog e s = s := if_neg fun hc => h hc.1

/-! ### A record reaches its ring (R498, R499, R501) -/

/-- The state with the oldest held record written to its ring, its vector not signalled. -/
def ringFilled (n : Nat) (e : Ev) (rest : List (Nat × Ev)) (s : State) : State :=
  let r := s.ringOf e
  let x := s.ring r
  let bs := recordBytes (!x.pwrap) n e
  let a := x.base + 64 * x.prod
  let last := x.prod + 1 == 2 ^ s.ringLog r
  ((({ s with hif := { s.hif with held := rest } }.emit (.hostWrite (a + 4) (bs.drop 4))).emit (.hostWrite a (bs.take 4))).modRing r
    fun x => { x with
      prod := if last then 0 else x.prod + 1, pwrap := if last then !x.pwrap else x.pwrap, unsig := x.unsig + 1 })

section
variable {n r : Nat} {e : Ev} {rest : List (Nat × Ev)} {s : State}

theorem ring_ringFilled (hr : r = s.ringOf e) : (ringFilled n e rest s).ring r = { s.ring r with
    prod := if (s.ring r).prod + 1 == 2 ^ s.ringLog r then 0 else (s.ring r).prod + 1
    pwrap := if (s.ring r).prod + 1 == 2 ^ s.ringLog r then !(s.ring r).pwrap else (s.ring r).pwrap
    unsig := (s.ring r).unsig + 1 } := by
  rw [hr]
  exact State.ring_modRing_same _ _ _

theorem ring_ringFilled_ne {q : Nat} (hr : r = s.ringOf e) (hq : q ≠ r) : (ringFilled n e rest s).ring q = s.ring q :=
  (State.ring_modRing_ne _ _ (hr ▸ hq)).trans rfl

/-- The producer moves on, or wraps (R498). -/
theorem prod_ringFilled (hr : r = s.ringOf e) :
    if (s.ring r).prod + 1 = 2 ^ s.ringLog r then
      ((ringFilled n e rest s).ring r).prod = 0 ∧ ((ringFilled n e rest s).ring r).pwrap = !(s.ring r).pwrap
    else ((ringFilled n e rest s).ring r).prod = (s.ring r).prod + 1 ∧ ((ringFilled n e rest s).ring r).pwrap = (s.ring r).pwrap := by
  rw [ring_ringFilled hr]
  split
  case isTrue h => simp [h]
  case isFalse h => simp [h]

theorem ringWrite_of_room (hheld : s.hif.held = (n, e) :: rest) (hbme : s.hif.bme = true) (hroom : s.ringWaited = none)
    (hr : r = s.ringOf e) : ringWrite s =
      if s.fget (F.HIF_EVCFG_CNT r) = 0 ∨ s.fget (F.HIF_EVCFG_TIME r) = 0 ∨ s.fget (F.HIF_EVCFG_CNT r) ≤ (s.ring r).unsig + 1 then
        ringSignal r (ringFilled n e rest s) else ringFilled n e rest s := by
  have hunsig : ((ringFilled n e rest s).ring r).unsig = (s.ring r).unsig + 1 := congrArg Ring.unsig (ring_ringFilled hr)
  unfold ringWrite
  rw [hheld]
  dsimp only
  rw [if_neg (by simp [hbme, hroom]), ← hunsig, hr]
  rfl

end

theorem ringWrite_of_held {s : State} (h : s.hif.held = [] ∨ s.hif.bme = false ∨ s.ringWaited ≠ none) : ringWrite s = s := by
  unfold ringWrite
  cases hheld : s.hif.held with
  | nil => rfl
  | cons x rest =>
    obtain ⟨n, e⟩ := x
    refine if_pos ?_
    rw [Bool.or_eq_true, Bool.not_eq_true']
    exact (h.resolve_left (by simp [hheld])).imp_right Option.isSome_iff_ne_none.2

/-- No record of the ring is left to be signalled. -/
def ringCleared (r : Nat) (u : State) : State := u.modRing r fun x => { x with unsig := 0 }

/-- A ring's signal leaves the other rings, the records and what is no part of the host interface. -/
theorem ringSignal_sets (r : Nat) (u : State) : let t := ringSignal r u
    t.hif.held = u.hif.held ∧ t.hif.seqno = u.hif.seqno ∧ t.ring r = { u.ring r with unsig := 0 } ∧
      (∀ q, q ≠ r → t.ring q = u.ring q) ∧ t.evq = u.evq ∧ steady u t ∧ onlyFields [] u t := by
  have hsame : (ringCleared r u).ring r = { u.ring r with unsig := 0 } := State.ring_modRing_same u r _
  have hother : ∀ q, q ≠ r → (ringCleared r u).ring q = u.ring q := fun q hq => State.ring_modRing_ne u _ hq
  obtain ⟨o, w, m, h⟩ := signal_eq (u.fget (F.HIF_EVCFG_VEC r)) (ringCleared r u)
  have ht : ringSignal r u = { ringCleared r u with out := o, hif := { (ringCleared r u).hif with msiWait := w, msix := m } } := h
  dsimp only
  rw [ht]
  exact ⟨rfl, rfl, hsame, hother, rfl, ⟨rfl, rfl, rfl⟩, onlyFields.refl _ u⟩

/-- The vector of a ring's signal waits, pends or goes out. -/
theorem ringSignal_outcome {r v : Nat} {u : State} (hv : v = u.fget (F.HIF_EVCFG_VEC r)) :
    if u.hif.bme = false then v ∈ (ringSignal r u).hif.msiWait ∧ (ringSignal r u).out = u.out
      else if (u.msixWord (0x800 + 16 * v + 12)).getLsbD 0 = true then
        ((ringSignal r u).msixWord (0xC00 + 4 * (v / 32))).getLsbD (v % 32) = true ∧ (ringSignal r u).out = u.out
      else (ringSignal r u).out = u.out ++ [.msix v] := by
  have h := signal_outcome v (ringCleared r u)
  rw [show signal v (ringCleared r u) = ringSignal r u by rw [hv]; rfl] at h
  by_cases hbme : u.hif.bme = false
  · rw [if_pos (show (ringCleared r u).hif.bme = false from hbme)] at h
    rw [if_pos hbme]
    exact h
  rw [if_neg (show ¬(ringCleared r u).hif.bme = false from hbme)] at h
  rw [if_neg hbme]
  by_cases hmask : (u.msixWord (0x800 + 16 * v + 12)).getLsbD 0 = true
  · rw [if_pos (show ((ringCleared r u).msixWord (0x800 + 16 * v + 12)).getLsbD 0 = true from hmask)] at h
    rw [if_pos hmask]
    exact h
  · rw [if_neg (show ¬((ringCleared r u).msixWord (0x800 + 16 * v + 12)).getLsbD 0 = true from hmask)] at h
    rw [if_neg hmask]
    exact h.1

/-- EVENT_RING_WRITE (R498, R499, R501), as O47 states it. -/
theorem leads_ringWrite {n r : Nat} {e : Ev} {rest : List (Nat × Ev)} {s : State} (hheld : s.hif.held = (n, e) :: rest)
    (hbme : s.hif.bme = true) (hroom : s.ringWaited = none) (hr : r = s.ringOf e) : leads .eventRingWrite s fun t =>
      t.hif.held = rest ∧ t.hif.seqno = s.hif.seqno ∧ t.evq = s.evq ∧
      (t.ring r).base = (s.ring r).base ∧ (t.ring r).cons = (s.ring r).cons ∧ (t.ring r).cwrap = (s.ring r).cwrap ∧
      (if (s.ring r).prod + 1 = 2 ^ s.ringLog r then (t.ring r).prod = 0 ∧ (t.ring r).pwrap = !(s.ring r).pwrap
        else (t.ring r).prod = (s.ring r).prod + 1 ∧ (t.ring r).pwrap = (s.ring r).pwrap) ∧
      (∀ q, q ≠ r → t.ring q = s.ring q) ∧
      (let a := (s.ring r).base + 64 * (s.ring r).prod
       let bs := recordBytes (!(s.ring r).pwrap) n e
       let two := s.out ++ [.hostWrite (a + 4) (bs.drop 4), .hostWrite a (bs.take 4)]
       let cnt := s.fget (F.HIF_EVCFG_CNT r)
       if cnt = 0 ∨ s.fget (F.HIF_EVCFG_TIME r) = 0 ∨ cnt ≤ (s.ring r).unsig + 1 then
         let v := s.fget (F.HIF_EVCFG_VEC r)
         (t.ring r).unsig = 0 ∧
           (if (s.msixWord (0x800 + 16 * v + 12)).getLsbD 0 = true then
             (t.msixWord (0xC00 + 4 * (v / 32))).getLsbD (v % 32) = true ∧ t.out = two
           else t.out = two ++ [.msix v])
       else (t.ring r).unsig = (s.ring r).unsig + 1 ∧ t.out = two) ∧
      steady s t ∧ onlyFields [] s t := by
  have hring := ring_ringFilled (n := n) (rest := rest) hr
  have hprod := prod_ringFilled (n := n) (rest := rest) hr
  have hother : ∀ q, q ≠ r → (ringFilled n e rest s).ring q = s.ring q := fun q hq => ring_ringFilled_ne hr hq
  have hout : (ringFilled n e rest s).out = s.out ++
      [.hostWrite ((s.ring r).base + 64 * (s.ring r).prod + 4) ((recordBytes (!(s.ring r).pwrap) n e).drop 4),
        .hostWrite ((s.ring r).base + 64 * (s.ring r).prod) ((recordBytes (!(s.ring r).pwrap) n e).take 4)] := by
    rw [hr]
    exact List.append_assoc s.out [_] [_]
  have hleft : (ringFilled n e rest s).hif.held = rest ∧ (ringFilled n e rest s).hif.seqno = s.hif.seqno ∧
      (ringFilled n e rest s).hif.bme = true ∧ (ringFilled n e rest s).evq = s.evq ∧ steady s (ringFilled n e rest s) :=
    ⟨rfl, rfl, hbme, rfl, rfl, rfl, rfl⟩
  have hfields : (ringFilled n e rest s).fields = s.fields := rfl
  have hmsix : (ringFilled n e rest s).hif.msix = s.hif.msix := rfl
  have hexec := ringWrite_of_room hheld hbme hroom hr
  generalize ringFilled n e rest s = u at hring hprod hother hout hleft hfields hmsix hexec
  obtain ⟨hrest, hseqno, hbmeu, hevq, hseq, hcl, hmem⟩ := hleft
  have hfget : ∀ g, u.fget g = s.fget g := fun g => congrArg (fun m => State.fget { s with fields := m } g) hfields
  by_cases hdue : s.fget (F.HIF_EVCFG_CNT r) = 0 ∨ s.fget (F.HIF_EVCFG_TIME r) = 0 ∨ s.fget (F.HIF_EVCFG_CNT r) ≤ (s.ring r).unsig + 1
  · rw [if_pos hdue] at hexec
    obtain ⟨hrest', hseqno', hring', hother', hevq', ⟨hseq', hcl', hmem'⟩, honly'⟩ := ringSignal_sets r u
    have hsig := ringSignal_outcome (r := r) (u := u) (hfget _).symm
    rw [if_neg (by simp [hbmeu]), State.msixWord, hmsix, hout] at hsig
    have hkept := congrArg (fun x : Ring => (x.base, x.cons, x.cwrap, x.prod, x.pwrap)) hring'
    simp only [Prod.mk.injEq] at hkept
    obtain ⟨hbase, hcons, hcwrap, hp, hpw⟩ := hkept
    rw [← hp, ← hpw] at hprod
    refine leads_of (congrArg Host.Outcome.next hexec) ⟨hrest'.trans hrest, hseqno'.trans hseqno, hevq'.trans hevq,
      by rw [hbase, hring], by rw [hcons, hring], by rw [hcwrap, hring], hprod, fun q hq => (hother' q hq).trans (hother q hq), ?_,
      ⟨hseq'.trans hseq, hcl'.trans hcl, hmem'.trans hmem⟩, fun g hg => (honly' g hg).trans (hfget g)⟩
    dsimp only
    rw [if_pos hdue]
    exact ⟨by rw [hring'], hsig⟩
  · rw [if_neg hdue] at hexec
    refine leads_of (congrArg Host.Outcome.next hexec) ⟨hrest, hseqno, hevq, by rw [hring], by rw [hring], by rw [hring], hprod,
      hother, ?_, ⟨hseq, hcl, hmem⟩, fun g _ => hfget g⟩
    dsimp only
    rw [if_neg hdue]
    exact ⟨by rw [hring], hout⟩

/-! ### The consumer's doorbell and the ring's configuration (R500, R507) -/

/-- A field that holds a value other than its reset keeps it under every write of that value. -/
theorem onlyFields_fset_same {f : Fld} {v : Nat} {s : State} (hv : s.fget f = v) (hreset : v ≠ f.reset) (hlt : v < 2 ^ f.width) :
    onlyFields [] s (s.fset f v) := by
  have hentry : ∀ (m : Kv Nat) (d : Nat), kvGet f.reset m f.key = v → kvGet d m f.key = v := by
    intro m d
    induction m with
    | nil => exact fun h => absurd h.symm hreset
    | cons e m ih =>
      rw [kvGet, kvGet]
      split
      · exact id
      · exact ih
  intro g _
  by_cases hkey : g.key = f.key
  · have hset : (s.fset f v).fget f = v := (State.fget_fset_same _ _ _).trans (Nat.mod_eq_of_lt hlt)
    rw [State.fget, State.fget, hkey, hentry _ _ hv]
    exact hentry _ _ hset
  · exact State.fget_fset_ne _ _ hkey

/-- The fields of HIF_EVCFG_r that a word gives while EN is 0 (R507). -/
def ringValues (r : Nat) (w : Word) : List (Fld × Nat) :=
  [(F.HIF_EVCFG_VEC r, fieldOf w 25 6),
    (F.HIF_EVCFG_LOG2 r, if 6 ≤ fieldOf w 20 5 ∧ fieldOf w 20 5 ≤ 16 then fieldOf w 20 5 else 6),
    (F.HIF_EVCFG_CNT r, fieldOf w 12 8), (F.HIF_EVCFG_TIME r, fieldOf w 0 12)]

/-- An enabled ring is empty. -/
def ringEmptied (r : Nat) (s : State) : State :=
  s.modRing r fun x => { x with prod := 0, pwrap := false, cons := 0, cwrap := false, unsig := 0 }

theorem ringEnable_of_on {r : Nat} {w : Word} {s : State} (h : s.fbit (F.HIF_EVCFG_EN r) = true) :
    ringEnable r w s = (ringEmptied r s).fset (F.HIF_EVCFG_EN r) 1 := by
  rw [ringEnable, if_pos h]
  rfl

theorem ringEnable_of_off {r : Nat} {w : Word} {s : State} (h : s.fbit (F.HIF_EVCFG_EN r) = false) :
    ringEnable r w s = fsetAll (ringValues r w ++ [(F.HIF_EVCFG_EN r, 1)]) (ringEmptied r s) := by
  rw [ringEnable, if_neg (by simp [h])]
  rfl

theorem ringValues_nodup (r : Nat) (w : Word) : ((ringValues r w ++ [(F.HIF_EVCFG_EN r, 1)]).map fun e : Fld × Nat => e.1.key).Nodup := by
  simp [ringValues, Fld.key, F.HIF_EVCFG_VEC, F.HIF_EVCFG_LOG2, F.HIF_EVCFG_CNT, F.HIF_EVCFG_TIME, F.HIF_EVCFG_EN]

theorem ring_ringEmptied (r : Nat) (s : State) : (ringEmptied r s).ring r = { s.ring r with
    prod := 0, pwrap := false, cons := 0, cwrap := false, unsig := 0 } := State.ring_modRing_same _ _ _

theorem ring_ringEmptied_ne {r q : Nat} (s : State) (h : q ≠ r) : (ringEmptied r s).ring q = s.ring q := State.ring_modRing_ne _ _ h

/-- HIF_EVCFG_r written with EN = 1 while EN is 1 (R507). -/
theorem ringEnable_on_sets {r : Nat} {w : Word} {s : State} (h : s.fbit (F.HIF_EVCFG_EN r) = true) : let t := ringEnable r w s
    t.fget (F.HIF_EVCFG_EN r) = 1 ∧ t.hif = (ringEmptied r s).hif ∧ steady s t ∧ t.evq = s.evq ∧ onlyFields [] s t := by
  have hone : s.fget (F.HIF_EVCFG_EN r) = 1 := by simpa [State.fbit] using h
  have honly : onlyFields [] s (s.fset (F.HIF_EVCFG_EN r) 1) :=
    onlyFields_fset_same (f := F.HIF_EVCFG_EN r) (v := 1) hone (show 1 ≠ 0 by decide) (show 1 < 2 ^ 1 by decide)
  dsimp only
  rw [ringEnable_of_on h]
  exact ⟨State.fget_fset_same _ _ _, rfl, ⟨rfl, rfl, rfl⟩, rfl, honly⟩

/-- HIF_EVCFG_r written with EN = 1 while EN is 0 (R507). -/
theorem ringEnable_off_sets {r : Nat} {w : Word} {s : State} (h : s.fbit (F.HIF_EVCFG_EN r) = false) : let t := ringEnable r w s
    (∀ f v, (f, v) ∈ ringValues r w ++ [(F.HIF_EVCFG_EN r, 1)] → t.fget f = v % 2 ^ f.width) ∧ t.hif = (ringEmptied r s).hif ∧
      steady s t ∧ t.evq = s.evq ∧
      onlyFields [F.HIF_EVCFG_EN r, F.HIF_EVCFG_VEC r, F.HIF_EVCFG_LOG2 r, F.HIF_EVCFG_CNT r, F.HIF_EVCFG_TIME r] s t := by
  obtain ⟨m, hm⟩ := fsetAll_eq (ringValues r w ++ [(F.HIF_EVCFG_EN r, 1)]) (ringEmptied r s)
  have honly : onlyFields [F.HIF_EVCFG_EN r, F.HIF_EVCFG_VEC r, F.HIF_EVCFG_LOG2 r, F.HIF_EVCFG_CNT r, F.HIF_EVCFG_TIME r]
      (ringEmptied r s) (fsetAll (ringValues r w ++ [(F.HIF_EVCFG_EN r, 1)]) (ringEmptied r s)) :=
    onlyFields_fsetAll _ (by simp [ringValues])
  have hget := fun f v hf => fget_fsetAll (f := f) (v := v) (ringValues_nodup r w) hf (ringEmptied r s)
  dsimp only
  rw [ringEnable_of_off h]
  rw [hm] at honly hget ⊢
  exact ⟨hget, rfl, ⟨rfl, rfl, rfl⟩, rfl, honly⟩

/-- The values that a ring's configuration takes fit their fields. -/
theorem ringValues_fit {r : Nat} {w : Word} {f : Fld} {v : Nat} (h : (f, v) ∈ ringValues r w) : v % 2 ^ f.width = v := by
  simp only [ringValues, List.mem_cons, Prod.mk.injEq, List.not_mem_nil, or_false] at h
  obtain ⟨rfl, rfl⟩ | ⟨rfl, rfl⟩ | ⟨rfl, rfl⟩ | ⟨rfl, rfl⟩ := h
  · exact Nat.mod_eq_of_lt (fieldOf_lt w 25 6)
  · refine Nat.mod_eq_of_lt ?_
    split
    · exact fieldOf_lt w 20 5
    · exact (by decide : 6 < 2 ^ 5)
  · exact Nat.mod_eq_of_lt (fieldOf_lt w 12 8)
  · exact Nat.mod_eq_of_lt (fieldOf_lt w 0 12)

end Sys2Proof.Machine
end

section
/-! PCIe resets and Bus Master Enable (R482, R483), and O47. -/
namespace Sys2Proof.Machine

/-- The fields of the named windows, rings and channels, cleared. -/
def clearedFields (windows rings channels : List Nat) : List (Fld × Nat) :=
  (windows.flatMap fun n => [(F.HIF_AWIN_EN n, 0), (F.HIF_AWIN_BASE n, 0)]) ++ (rings.map fun r => (F.HIF_EVCFG_EN r, 0)) ++
    (channels.map fun c => (F.HIF_DCTL_EN c, 0))

/-- The fields that a PCIe reset clears (R482). -/
def resetFields : List (Fld × Nat) := clearedFields (List.range 16) (List.range 4) (List.range 16)

/-- The named windows, rings and channels disabled one after another, the channels off. -/
def hifCleared (windows rings channels : List Nat) (s : State) : State :=
  channels.foldl (fun s c => (s.fset (F.HIF_DCTL_EN c) 0).modDma c fun x => { x with st := .off })
    (rings.foldl (fun s r => s.fset (F.HIF_EVCFG_EN r) 0)
      (windows.foldl (fun s n => (s.fset (F.HIF_AWIN_EN n) 0).fset (F.HIF_AWIN_BASE n) 0) s))

theorem hifReset_eq (s : State) : ∃ x, hifReset s = { hifCleared (List.range 16) (List.range 4) (List.range 16) s with
    hif := { (hifCleared (List.range 16) (List.range 4) (List.range 16) s).hif with
      bme := false, msix := [], msiWait := [], xwin := x } } := by
  unfold hifReset hifCleared
  exact ⟨_, rfl⟩

theorem fields_hifCleared (windows rings channels : List Nat) (s : State) :
    (hifCleared windows rings channels s).fields = (fsetAll (clearedFields windows rings channels) s).fields := by
  have hsteps : ∀ u : State, (channels.foldl (fun s c => (s.fset (F.HIF_DCTL_EN c) 0).modDma c fun x => { x with st := .off }) u).fields =
      (channels.foldl (fun s c => s.fset (F.HIF_DCTL_EN c) 0) u).fields := by
    intro u
    rw [← List.foldl_hom State.fields (g₂ := fun m c => kvSet (F.HIF_DCTL_EN c).reset m (F.HIF_DCTL_EN c).key
        (0 % 2 ^ (F.HIF_DCTL_EN c).width)) fun t c => rfl,
      ← List.foldl_hom State.fields (g₂ := fun m c => kvSet (F.HIF_DCTL_EN c).reset m (F.HIF_DCTL_EN c).key
        (0 % 2 ^ (F.HIF_DCTL_EN c).width)) fun t c => rfl]
  rw [fsetAll, clearedFields, List.foldl_append, List.foldl_append, List.foldl_flatMap, List.foldl_map, List.foldl_map]
  exact hsteps _

/-- A PCIe reset clears those fields and no other. -/
theorem fget_hifReset (s : State) (g : Fld) : (hifReset s).fget g = (fsetAll resetFields s).fget g := by
  obtain ⟨x, h⟩ := hifReset_eq s
  have hfields := fields_hifCleared (List.range 16) (List.range 4) (List.range 16) s
  rw [h, resetFields]
  generalize hifCleared (List.range 16) (List.range 4) (List.range 16) s = u at hfields ⊢
  generalize fsetAll (clearedFields _ _ _) s = v at hfields ⊢
  exact congrArg (fun m => State.fget { s with fields := m } g) hfields

theorem resetFields_nodup : (resetFields.map fun e => e.1.key).Nodup := by decide

theorem fget_hifReset_zero (s : State) {f : Fld} (h : (f, 0) ∈ resetFields) : (hifReset s).fget f = 0 := by
  rw [fget_hifReset, fget_fsetAll resetFields_nodup h, Nat.zero_mod]

theorem fget_hifReset_ne (s : State) {g : Fld} (h : ∀ e ∈ resetFields, g.key ≠ e.1.key) : (hifReset s).fget g = s.fget g :=
  (fget_hifReset s g).trans (fget_fsetAll_ne s h)

/-- Each of the named channels is off. -/
theorem dmaCh_channelsOff {cs : List Nat} (hnd : cs.Nodup) (s : State) (k : Nat) :
    (cs.foldl (fun s c => (s.fset (F.HIF_DCTL_EN c) 0).modDma c fun x => { x with st := .off }) s).dmaCh k =
      if k ∈ cs then { s.dmaCh k with st := .off } else s.dmaCh k := by
  induction cs generalizing s with
  | nil => rfl
  | cons c cs ih =>
    obtain ⟨hnew, hnd⟩ := List.nodup_cons.1 hnd
    rw [List.foldl_cons, ih hnd]
    by_cases hk : k = c
    · subst hk
      rw [if_neg hnew, State.dmaCh_modDma_same, if_pos List.mem_cons_self]
      rfl
    · rw [State.dmaCh_modDma_ne _ _ hk]
      simp [hk]

theorem hif_hifCleared {windows rings channels : List Nat} (hnd : channels.Nodup) (s : State) :
    (∀ c ∈ channels, (hifCleared windows rings channels s).dmaCh c = { s.dmaCh c with st := .off }) ∧
      (hifCleared windows rings channels s).hif.rings = s.hif.rings ∧
      (hifCleared windows rings channels s).hif.seqno = s.hif.seqno ∧
      (hifCleared windows rings channels s).hif.held = s.hif.held := by
  have hwin := foldl_same State.hif (f := fun s n => (s.fset (F.HIF_AWIN_EN n) 0).fset (F.HIF_AWIN_BASE n) 0) (fun _ _ => rfl)
    windows s
  have hcfg := fun u => foldl_same State.hif (f := fun s r => s.fset (F.HIF_EVCFG_EN r) 0) (fun _ _ => rfl) rings u
  have hoff := fun u => foldl_same (fun t : State => (t.hif.rings, t.hif.seqno, t.hif.held))
    (f := fun s c => (s.fset (F.HIF_DCTL_EN c) 0).modDma c fun x => { x with st := .off }) (fun _ _ => rfl) channels u
  have hhif := (hcfg _).trans hwin
  have hkept := (hoff _).trans (congrArg (fun h : Hif => (h.rings, h.seqno, h.held)) hhif)
  simp only [Prod.mk.injEq] at hkept
  refine ⟨fun c hc => ?_, hkept⟩
  refine (dmaCh_channelsOff hnd _ c).trans ((if_pos hc).trans ?_)
  rw [State.dmaCh, State.dmaCh, hhif]

/-- What a PCIe reset makes of the host interface (R482). -/
theorem hif_hifReset (s : State) : (∀ c, c < 16 → (hifReset s).dmaCh c = { s.dmaCh c with st := .off }) ∧
    (∀ r, (hifReset s).ring r = s.ring r) ∧ (hifReset s).hif.bme = false ∧ (hifReset s).hif.msix = [] ∧
    (hifReset s).hif.seqno = s.hif.seqno ∧ (hifReset s).hif.held = s.hif.held := by
  obtain ⟨x, h⟩ := hifReset_eq s
  obtain ⟨hch, hrings, hseqno, hheld⟩ := hif_hifCleared (windows := List.range 16) (rings := List.range 4) (List.nodup_range (n := 16)) s
  have hring : ∀ r, (hifReset s).ring r = s.ring r := fun r => by rw [h, State.ring, State.ring, hrings]
  have hdma : (hifReset s).hif.dma = (hifCleared (List.range 16) (List.range 4) (List.range 16) s).hif.dma := by rw [h]
  refine ⟨fun c hc => (dmaCh_of_dma hdma c).trans (hch c (List.mem_range.2 hc)), hring, ?_, ?_, ?_, ?_⟩
  · rw [h]
  · rw [h]
  · rw [h]
    exact hseqno
  · rw [h]
    exact hheld

/-- HIF_RESET after a PCIe reset from a state u (R482, R512). -/
def resetReported (k : Nat) (u : State) : State := (hifReset u).raise F.HIF_EVT_RESET 3 6 [k]

theorem resetFields_apart : ∀ e ∈ resetFields, e.1.key ≠ F.HIF_EVT_RESET.key ∧ (evten F.HIF_EVT_RESET).key ≠ e.1.key ∧
    F.HIF_EVROUTE_RING.key ≠ e.1.key := by decide

theorem mem_resetFields : (∀ n, n < 16 → (F.HIF_AWIN_EN n, 0) ∈ resetFields ∧ (F.HIF_AWIN_BASE n, 0) ∈ resetFields) ∧
    (∀ r, r < 4 → (F.HIF_EVCFG_EN r, 0) ∈ resetFields) ∧ ∀ c, c < 16 → (F.HIF_DCTL_EN c, 0) ∈ resetFields := by decide

theorem fget_resetReported_zero (k : Nat) (u : State) {f : Fld} (h : (f, 0) ∈ resetFields) : (resetReported k u).fget f = 0 :=
  (State.fget_raise_ne _ _ _ _ (resetFields_apart _ h).1).trans (fget_hifReset_zero u h)

/-- What a PCIe reset leaves and clears. -/
theorem resetReported_sets (k : Nat) (u : State) : let t := resetReported k u
    (∀ c, c < 16 → t.dmaCh c = { u.dmaCh c with st := .off }) ∧ (∀ r, t.ring r = u.ring r) ∧ t.hif.bme = false ∧ t.hif.msix = [] ∧
      t.hif.seqno = u.hif.seqno ∧ t.hif.held = u.hif.held ∧ t.fget F.HIF_EVROUTE_RING = u.fget F.HIF_EVROUTE_RING ∧
      t.dbg = u.dbg ∧ posted F.HIF_EVT_RESET 3 6 [k] u t ∧ steady u t ∧ t.out = u.out := by
  obtain ⟨hch, hring, hbme, hmsix, hseqno, hheld⟩ := hif_hifReset u
  have hroute : (hifReset u).fget F.HIF_EVROUTE_RING = u.fget F.HIF_EVROUTE_RING :=
    fget_hifReset_ne u fun e he => (resetFields_apart e he).2.2
  have hen : (hifReset u).fget (evten F.HIF_EVT_RESET) = u.fget (evten F.HIF_EVT_RESET) :=
    fget_hifReset_ne u fun e he => (resetFields_apart e he).2.1
  have hfr := hifReset_frame (Fr.refl 0x10200000 u) rfl
  unfold resetReported
  generalize hifReset u = v at hch hring hbme hmsix hseqno hheld hroute hen hfr
  have hhif : (v.raise F.HIF_EVT_RESET 3 6 [k]).hif = v.hif := State.hif_raise _ _ _ _ _
  refine ⟨fun c hc => (dmaCh_of_dma (congrArg Hif.dma hhif) c).trans (hch c hc), fun r => ?_, (congrArg Hif.bme hhif).trans hbme,
    (congrArg Hif.msix hhif).trans hmsix, (congrArg Hif.seqno hhif).trans hseqno, (congrArg Hif.held hhif).trans hheld,
    (State.fget_raise_ne _ _ _ _ (by decide)).trans hroute, (State.dbg_raise _ _ _ _ _).trans (hfr.h_dbg rfl),
    posted_raise _ _ _ rfl (hfr.h_evq rfl) (congrArg Seq.step (hfr.h_seq rfl)) (hfr.h_ptime rfl) hen,
    ⟨(State.seq_raise _ _ _ _ _).trans (hfr.h_seq rfl), (State.clauses_raise _ _ _ _ _).trans (hfr.h_clauses rfl),
      (State.mem_raise _ _ _ _ _).trans (hfr.h_mem rfl)⟩, (State.out_raise _ _ _ _ _).trans (hfr.h_out rfl)⟩
  rw [State.ring, hhif]
  exact hring r

theorem exec_pcieReset (kind : PcieReset) (s : State) : exec (.pcieReset kind) s = .next (resetReported
    (match kind with | .conventional => 0 | .hot => 1 | .functionLevel => 2)
    (if kind = .hot then s else setLevel .host 0 s)) := by
  cases kind <;> rfl

/-- What the level that a reset takes leaves of the host interface and its registers. -/
theorem leveled_leaves (kind : PcieReset) (s : State) : let u := if kind = .hot then s else setLevel .host 0 s
    u.hif = s.hif ∧ u.fget F.HIF_EVROUTE_RING = s.fget F.HIF_EVROUTE_RING ∧
      u.dbg.hostLevel = (if kind = .hot then s.dbg.hostLevel else 0) ∧ u.dbg.tapLevel = s.dbg.tapLevel := by
  dsimp only
  split
  · exact ⟨rfl, rfl, rfl, rfl⟩
  · have hfr := setLevel_frame .host 0 (Fr.refl 0x6d414e66b1 s) rfl
    exact ⟨hfr.h_hif rfl, hfr.h_regs _ rfl, level_setLevel_same .host 0 s, level_setLevel_ne (q := .tap) 0 s (by decide)⟩

theorem leads_pcieReset (kind : PcieReset) (s : State) : leads (.pcieReset kind) s fun t =>
    (∀ n, n < 16 → t.fget (F.HIF_AWIN_EN n) = 0 ∧ t.fget (F.HIF_AWIN_BASE n) = 0) ∧
    (∀ r, r < 4 → t.fget (F.HIF_EVCFG_EN r) = 0) ∧
    (∀ c, c < 16 → t.fget (F.HIF_DCTL_EN c) = 0 ∧ t.dmaCh c = { s.dmaCh c with st := .off }) ∧
    (∀ r, t.ring r = s.ring r) ∧ t.hif.bme = false ∧ t.hif.msix = [] ∧ t.hif.seqno = s.hif.seqno ∧ t.hif.held = s.hif.held ∧
    t.fget F.HIF_EVT_RESET = 1 ∧ t.fget F.HIF_EVROUTE_RING = s.fget F.HIF_EVROUTE_RING ∧
    t.dbg.hostLevel = (if kind = .hot then s.dbg.hostLevel else 0) ∧ t.dbg.tapLevel = s.dbg.tapLevel := by
  obtain ⟨hhif, hroute, hhost, htap⟩ := leveled_leaves kind s
  have hexec := exec_pcieReset kind s
  generalize (if kind = PcieReset.hot then s else setLevel .host 0 s) = u at hhif hroute hhost htap hexec
  generalize (match kind with | .conventional => 0 | .hot => 1 | .functionLevel => 2) = k at hexec
  obtain ⟨hawin, hcfg, hdctl⟩ := mem_resetFields
  obtain ⟨hch, hring, hbme, hmsix, hseqno, hheld, hroute', hdbg, hposted, -, -⟩ := resetReported_sets k u
  refine leads_of hexec ⟨fun n hn => ⟨fget_resetReported_zero k u (hawin n hn).1, fget_resetReported_zero k u (hawin n hn).2⟩,
    fun r hr => fget_resetReported_zero k u (hcfg r hr), fun c hc => ⟨fget_resetReported_zero k u (hdctl c hc), ?_⟩,
    fun r => (hring r).trans (by rw [State.ring, State.ring, hhif]), hbme, hmsix, hseqno.trans (congrArg Hif.seqno hhif),
    hheld.trans (congrArg Hif.held hhif), hposted.1, hroute'.trans hroute, (congrArg Dbg.hostLevel hdbg).trans hhost,
    (congrArg Dbg.tapLevel hdbg).trans htap⟩
  rw [hch c hc, State.dmaCh, State.dmaCh, hhif]

/-- A reset that finds the host path at level 0 changes nothing by its level. -/
theorem leads_pcieReset_low {kind : PcieReset} {k : Nat} {s : State} (hk : (kind, k) ∈ [(PcieReset.conventional, 0), (.functionLevel, 2)])
    (hlevel : s.dbg.hostLevel = 0) : leads (.pcieReset kind) s fun t =>
      posted F.HIF_EVT_RESET 3 6 [k] s t ∧ steady s t ∧ t.out = s.out := by
  have hexec : exec (.pcieReset kind) s = .next (resetReported k (setLevel .host 0 s)) := by
    simp only [List.mem_cons, Prod.mk.injEq, List.not_mem_nil, or_false] at hk
    obtain ⟨rfl, rfl⟩ | ⟨rfl, rfl⟩ := hk <;> rfl
  obtain ⟨m, hm, -⟩ := setLevel_of_not_lt (p := .host) (l := 0) (s := s) hlevel.le
  rw [hm] at hexec
  obtain ⟨-, -, -, -, -, -, -, -, hposted, hsteady, hout⟩ := resetReported_sets k ((s.withLevel .host 0).modMt fun _ => m)
  exact leads_of hexec ⟨hposted, hsteady, hout⟩

/-- HIF_LINK (R504, R512). -/
theorem leads_hifLink {speed width : Nat} (flit dlup : Bool) (s : State) (hspeed : speed < 16) (hwidth : width < 4) :
    leads (.hifLink speed width flit dlup) s fun t =>
    t.fget F.HIF_STAT_SPEED = speed ∧ t.fget F.HIF_STAT_WIDTH = width ∧ t.fbit F.HIF_STAT_FLIT = flit ∧
    t.fbit F.HIF_STAT_DLUP = dlup ∧ posted F.HIF_EVT_LINK 3 3 [speed, width, flit.toNat, dlup.toNat] s t ∧ t.hif = s.hif ∧
    steady s t ∧ onlyFields [F.HIF_STAT_SPEED, F.HIF_STAT_WIDTH, F.HIF_STAT_FLIT, F.HIF_STAT_DLUP, F.HIF_EVT_LINK] s t := by
  obtain ⟨hget, -, hhif, hposted, hsteady, honly⟩ := fsetAll_raise_sets (l := [(F.HIF_STAT_SPEED, speed), (F.HIF_STAT_WIDTH, width),
    (F.HIF_STAT_FLIT, flit.toNat), (F.HIF_STAT_DLUP, dlup.toNat)]) (g := F.HIF_EVT_LINK)
    (fs := [F.HIF_STAT_SPEED, F.HIF_STAT_WIDTH, F.HIF_STAT_FLIT, F.HIF_STAT_DLUP, F.HIF_EVT_LINK]) 3 3
    [speed, width, flit.toNat, dlup.toNat] s s.noc rfl (by simp; decide) (by simp; decide) (by simp)
  refine leads_of (t := hifLink speed width flit dlup s) rfl ⟨(hget _ _ (by simp)).trans (Nat.mod_eq_of_lt hspeed),
    (hget _ _ (by simp)).trans (Nat.mod_eq_of_lt hwidth), ?_, ?_, hposted, hhif, hsteady, honly⟩
  · rw [State.fbit, show (hifLink speed width flit dlup s).fget F.HIF_STAT_FLIT = flit.toNat % 2 from hget _ _ (by simp)]
    cases flit <;> rfl
  · rw [State.fbit, show (hifLink speed width flit dlup s).fget F.HIF_STAT_DLUP = dlup.toNat % 2 from hget _ _ (by simp)]
    cases dlup <;> rfl

/-- Settles O47: a signal waits, pends or goes out (`signal_outcome`), a record moves one ring's producer (`ringFilled`), a
doorbell or a configuration changes one ring, and a PCIe reset clears what it names (`resetReported_sets`). -/
theorem eventsReachRings : Obligations.EventsReachRings := by
  unfold Obligations.EventsReachRings
  refine ⟨?noAccept, ?accept, ?noWrite, ?write, ?noExpire, ?expire, ?noWaiting, ?disabled, ?resignal, ?doorbell, ?enable, ?link, ?reset,
    ?hot, ?conventional, ?functionLevel, ?masterOff, ?masterOn, ?masterSends⟩
  case noAccept => exact fun k s h => congrArg Host.Outcome.next (eventAccept_of_none h)
  case accept =>
    intro k e s hk hroom
    have hfr := errorLog_frame e (Fr.refl 0x400050 (accepted k e s)) rfl
    exact leads_of (congrArg Host.Outcome.next (eventAccept_of_some hk hroom)) ⟨hfr.h_evq rfl, hfr.h_hif rfl,
      fun hcls => (congrArg State.flash (errorLog_of_class (accepted k e s) hcls) :), hfr.h_out rfl,
      ⟨hfr.h_seq rfl, hfr.h_clauses rfl, hfr.h_mem rfl⟩, (onlyFields.of_frame [] (by decide) hfr :)⟩
  case noWrite => exact fun s h => congrArg Host.Outcome.next (ringWrite_of_held h)
  case write => exact fun n r e rest s hheld hbme hroom hr => leads_ringWrite hheld hbme hroom hr
  case noExpire =>
    intro r s h
    refine congrArg Host.Outcome.next (if_neg ?_)
    obtain h | h := h <;> simp [h]
  case expire =>
    intro r v s hen hunsig hv
    obtain ⟨hheld, -, hring, hother, hevq, hsteady, honly⟩ := ringSignal_sets r s
    exact leads_of (congrArg Host.Outcome.next (if_pos (by simp [hen, hunsig])))
      ⟨hring, hother, ringSignal_outcome hv, hheld, hsteady, hevq, honly⟩
  case noWaiting =>
    intro s h
    show Host.Outcome.next (ringResignal s) = _
    rw [ringResignal, h]
  case disabled =>
    intro r s h hen
    show Host.Outcome.next (ringResignal s) = _
    rw [ringResignal, h]
    exact congrArg Host.Outcome.next (if_neg (by simp [hen]))
  case resignal =>
    intro r v s h hen hv
    have hexec : ringResignal s = (signal v s).count F.HIF_CNT_EVBLK_COUNT := by
      rw [ringResignal, h, hv]
      exact if_pos hen
    have hsig := signal_outcome v s
    obtain ⟨o, w, m, heq⟩ := signal_eq v s
    rw [heq] at hexec hsig
    exact leads_of (congrArg Host.Outcome.next hexec) ⟨hsig, State.fget_count_same _ _, rfl, rfl, ⟨rfl, rfl, rfl⟩, rfl,
      onlyFields_count (t := { s with out := o, hif := { s.hif with msiWait := w, msix := m } }) (onlyFields.refl _ s) (by simp)⟩
  case doorbell =>
    intro r log p w s hlog hp
    subst hlog hp
    by_cases hbad : fieldOf w 17 15 ≠ 0 ∨ 2 ^ s.ringLog r ≤ fieldOf w 0 16 ∨ s.ringFill r < ringAhead (s.ringLog r)
        (ringPos (s.ringLog r) (s.ring r).cons (s.ring r).cwrap) (ringPos (s.ringLog r) (fieldOf w 0 16) (w.getLsbD 16))
    · obtain ⟨hcount, hposted, -, hhif, hout, hsteady, honly⟩ := countRaise_reports (f := F.HIF_CNT_DBERR_COUNT)
        (g := F.HIF_EVT_DBERR) 3 5 [0x1000 * r, w.toNat] s (by decide) (by decide) rfl (t := eventDoorbell r w s) (if_pos hbad)
      refine leads_of (t := eventDoorbell r w s) rfl ⟨?_, hout, hsteady, honly⟩
      rw [if_pos hbad]
      exact ⟨hhif, hcount, hposted⟩
    · refine leads_of (congrArg Host.Outcome.next (if_neg hbad)) ⟨?_, rfl, ⟨rfl, rfl, rfl⟩, onlyFields.refl _ s⟩
      rw [if_neg hbad]
      exact ⟨State.ring_modRing_same _ _ _, fun q hq => State.ring_modRing_ne _ _ hq, rfl, onlyFields.refl _ s⟩
  case enable =>
    intro r w s hkept
    have hring : ∀ {t : State}, t.hif = (ringEmptied r s).hif → ∀ q, t.ring q = (ringEmptied r s).ring q := fun h q => by
      rw [State.ring, h, State.ring]
    have hexec : exec (.eventRingEnable r w) s = .next (ringEnable r w s) := regCmd_of_kept _ hkept
    cases hen : s.fbit (F.HIF_EVCFG_EN r) with
    | true =>
      obtain ⟨hone, hhif, hsteady, hevq, honly⟩ := ringEnable_on_sets (w := w) hen
      exact leads_of hexec ⟨hone, (hring hhif r).trans (ring_ringEmptied r s),
        fun q hq => (hring hhif q).trans (ring_ringEmptied_ne s hq), honly, hsteady, hevq, honly.mono (by simp)⟩
    | false =>
      obtain ⟨hget, hhif, hsteady, hevq, honly⟩ := ringEnable_off_sets (w := w) hen
      have hfit : ∀ {f v}, (f, v) ∈ ringValues r w → (ringEnable r w s).fget f = v := fun h =>
        (hget _ _ (List.mem_append_left _ h)).trans (ringValues_fit h)
      refine leads_of hexec ⟨hget (F.HIF_EVCFG_EN r) 1 (by simp), (hring hhif r).trans (ring_ringEmptied r s),
        fun q hq => (hring hhif q).trans (ring_ringEmptied_ne s hq), ?_, hsteady, hevq, honly⟩
      rw [if_neg (by simp)]
      exact ⟨hfit (by simp [ringValues]), hfit (by simp [ringValues]), hfit (by simp [ringValues]), hfit (by simp [ringValues])⟩
  case link => exact fun speed width flit dlup s hspeed hwidth => leads_hifLink flit dlup s hspeed hwidth
  case reset => exact leads_pcieReset
  case hot =>
    intro s
    obtain ⟨-, -, -, -, -, -, -, hdbg, hposted, hsteady, hout⟩ := resetReported_sets 1 s
    exact leads_of (t := resetReported 1 s) rfl ⟨hposted, hsteady, hout, hdbg⟩
  case conventional => exact fun s hlevel => leads_pcieReset_low (by simp) hlevel
  case functionLevel => exact fun s hlevel => leads_pcieReset_low (by simp) hlevel
  case masterOff =>
    intro s
    exact leads_of (t := { s with hif := { s.hif with bme := false } }) rfl ⟨rfl, rfl, ⟨rfl, rfl, rfl⟩, rfl, onlyFields.refl _ s⟩
  case masterOn =>
    intro s hmask
    exact leads_of (congrArg Host.Outcome.next (foldl_signal_unmasked s.hif.msiWait
      (s := { s with hif := { s.hif with bme := true, msiWait := [] } }) rfl hmask))
      ⟨rfl, rfl, ⟨rfl, rfl, rfl⟩, rfl, onlyFields.refl _ s⟩
  case masterSends =>
    intro s hvs
    obtain ⟨hout, hpends⟩ := foldl_signal_sends (s := { s with hif := { s.hif with bme := true, msiWait := [] } }) rfl hvs
    obtain ⟨o, m, heq⟩ := foldl_signal_eq s.hif.msiWait (s := { s with hif := { s.hif with bme := true, msiWait := [] } }) rfl
    rw [heq] at hout hpends
    exact leads_of (congrArg Host.Outcome.next heq) ⟨rfl, rfl, rfl, rfl, hout, fun v hv hmask => hpends v (.inr ⟨hv, hmask⟩),
      ⟨rfl, rfl, rfl⟩, rfl, onlyFields.refl _ s⟩

end Sys2Proof.Machine
end

section
/-! A restart of the control pair where MGT_SVC.GO holds more than its four bits (R519), and the refutation of O48. -/
namespace Sys2Proof.Machine

/-- A device whose GO holds 16, the bit above those of the four slots. -/
def goBeyondWidth : State := { State.reset with fields := [(F.MGT_SVC_GO.key, 16)] }

set_option maxRecDepth 8000 in
/-- Refutes O48, at its clause on MGT_LOCKSTEP: GO is said to be 0 after a restart of the control pair. The restart answers each
busy slot and clears its bit; with no slot busy it writes nothing. The clause ranges over every state as plain data and bounds no
value of the register file: here GO holds 16, no slot is busy, and GO stays 16. The model's own writes cut a field to its width
(`State.fget_fset_same`), so the clause lacks a hypothesis: that GO is below 16. -/
theorem not_pairsRestart : ¬ Obligations.PairsRestart := by
  unfold Obligations.PairsRestart
  rintro ⟨-, hlockstep, -⟩
  obtain ⟨t, ht, -, -, -, -, -, -, -, -, -, -, hgo, -⟩ := hlockstep 0 0 false goBeyondWidth (by decide) (by decide) (by decide)
    (by decide) (by decide)
  cases ht
  exact absurd (hgo rfl).1 (by decide)

end Sys2Proof.Machine
end

section
/-! The bytes of the flash after a write or an erasure (R516, R517). -/
namespace Sys2Proof.Machine

section
variable {α : Type} [DecidableEq α] (d : α)

theorem kvGet_kvSetAll_of_not_mem {k : Nat} : ∀ {ws : List (Nat × α)} (m : List (Nat × α)), k ∉ ws.map Prod.fst →
    kvGet d (kvSetAll d m ws) k = kvGet d m k
  | [], _, _ => rfl
  | w :: ws, m, h => by
    obtain ⟨hne, hrest⟩ := not_or.1 (mt List.mem_cons.2 h)
    exact (kvGet_kvSetAll_of_not_mem (ws := ws) _ hrest).trans (kvGet_kvSet_ne _ _ _ _ hne)

theorem kvGet_kvSetAll_of_mem {k : Nat} {v : α} : ∀ {ws : List (Nat × α)} (m : List (Nat × α)), (ws.map Prod.fst).Nodup →
    (k, v) ∈ ws → kvGet d (kvSetAll d m ws) k = v
  | [], _, _, h => absurd h List.not_mem_nil
  | w :: ws, m, hnd, h => by
    obtain ⟨hnew, hnd⟩ := List.nodup_cons.1 hnd
    obtain rfl | h := List.mem_cons.1 h
    · exact (kvGet_kvSetAll_of_not_mem d (ws := ws) _ hnew).trans ((kvGet_kvSet _ _ _ _ _).trans (if_pos rfl))
    · exact kvGet_kvSetAll_of_mem (ws := ws) _ hnd h

/-- A key that a list of writes covers holds what is written to it. -/
theorem kvGet_foldl_kvSet (f : Nat → α) {k : Nat} : ∀ {ks : List Nat} (m : List (Nat × α)), k ∈ ks →
    kvGet d (ks.foldl (fun m j => kvSet d m j (f j)) m) k = f k := by
  intro ks
  induction ks using List.reverseRecOn with
  | nil => exact fun _ h => absurd h List.not_mem_nil
  | append_singleton ks j ih =>
    intro m h
    rw [List.foldl_append, List.foldl_cons, List.foldl_nil, kvGet_kvSet]
    split_ifs with hk
    · rw [hk]
    · exact ih m ((List.mem_append.1 h).resolve_right fun hj => hk (List.mem_singleton.1 hj))

end

/-- The cells that a write of bytes from an offset on covers. -/
def flashCells (o : Nat) (bs : List Byte) : List Host.Cell :=
  ((List.range bs.length).map (o + ·) |>.zip bs).filter fun e => !isGolden e.1

theorem map_fst_zip_offsets (o : Nat) (bs : List Byte) :
    (((List.range bs.length).map (o + ·)).zip bs).map Prod.fst = (List.range bs.length).map (o + ·) :=
  List.map_fst_zip (by simp)

theorem flashCells_keys_nodup (o : Nat) (bs : List Byte) : ((flashCells o bs).map Prod.fst).Nodup := by
  refine List.Nodup.sublist (List.filter_sublist.map _) ?_
  rw [map_fst_zip_offsets]
  exact List.nodup_range.map fun _ _ h => Nat.add_left_cancel h

theorem not_mem_flashCells_keys {o x : Nat} {bs : List Byte} (h : x < o ∨ o + bs.length ≤ x) :
    x ∉ (flashCells o bs).map Prod.fst := by
  intro hx
  have hx := (List.filter_sublist.map Prod.fst).subset hx
  rw [map_fst_zip_offsets] at hx
  simp only [List.mem_map, List.mem_range] at hx
  omega

theorem mem_flashCells {o i : Nat} {bs : List Byte} (hi : i < bs.length) (hg : isGolden (o + i) = false) :
    (o + i, bs[i]) ∈ flashCells o bs := by
  refine List.mem_filter.2 ⟨List.mem_iff_getElem.2 ⟨i, by simpa using hi, by simp⟩, by simp [hg]⟩

section
variable {s : State} {o : Nat}

theorem flashGet_of_flash {s t : State} (h : t.flash = s.flash) (x : Nat) : t.flashGet x = s.flashGet x := by
  rw [State.flashGet, State.flashGet, h]

theorem flashGet_flashWrite_outside {bs : List Byte} {x : Nat} (h : x < o ∨ o + bs.length ≤ x) :
    (s.flashWrite o bs).flashGet x = s.flashGet x := by
  have hkey : kvGet 0xFF#8 (kvSetAll 0xFF#8 s.flash (flashCells o bs)) x = kvGet 0xFF#8 s.flash x :=
    kvGet_kvSetAll_of_not_mem _ _ (not_mem_flashCells_keys h)
  exact congrArg (fun b => if isGolden x then Config.goldenByte (x - 0x0F000000) else b) hkey

theorem flashGet_flashWrite_inside {bs : List Byte} {i : Nat} (hi : i < bs.length) (hg : isGolden (o + i) = false) :
    (s.flashWrite o bs).flashGet (o + i) = bs[i] :=
  (if_neg (Bool.eq_false_iff.1 hg)).trans
    (kvGet_kvSetAll_of_mem 0xFF#8 s.flash (flashCells_keys_nodup o bs) (mem_flashCells hi hg))

/-- Bytes written outside the golden image read back. -/
theorem flashRead_flashWrite {bs : List Byte} (hg : ∀ i, i < bs.length → isGolden (o + i) = false) :
    (s.flashWrite o bs).flashRead o bs.length = bs := by
  refine List.ext_getElem (by simp [State.flashRead]) fun i _ hi => ?_
  simpa [State.flashRead] using flashGet_flashWrite_inside hi (hg i hi)

theorem flashGet_flashErase_outside {n x : Nat} (h : x < o ∨ o + n ≤ x) : (s.flashErase o n).flashGet x = s.flashGet x :=
  congrArg (fun b => if isGolden x then Config.goldenByte (x - 0x0F000000) else b) (kvGet_kvDrop _ _ _ _ _ h)

theorem flashGet_flashErase_inside {n x : Nat} (hlo : o ≤ x) (hhi : x < o + n) (hg : isGolden x = false) :
    (s.flashErase o n).flashGet x = 0xFF#8 :=
  (if_neg (Bool.eq_false_iff.1 hg)).trans (kvGet_kvDrop_inside _ _ hlo hhi)

end

end Sys2Proof.Machine
end

section
/-! Flash commands, firmware patches and the firmware swap (R517, R524 to R526, R528, R531 to R535): O49. -/
namespace Sys2Proof.Machine

/-! ### Writes of other requesters (R528) -/

theorem exec_ctlOnly_of_other {req : Requester} {w : Word} {off : Nat} {c : Instr} (hreq : req ≠ .control true)
    (hc : (off = 0x200048 ∧ c ∈ [.program req, .erase4k req, .erase64k req]) ∨ (off = 0x200020 ∧ c = .codebaseWrite req w))
    (s : State) : exec c s = .next (protWrite req off s) := by
  have hprot : ∀ f, ctlOnly req off f s = protWrite req off s := fun f => if_neg hreq
  obtain ⟨rfl, hc⟩ | ⟨rfl, rfl⟩ := hc
  · simp only [List.mem_cons, List.not_mem_nil, or_false] at hc
    obtain rfl | rfl | rfl := hc <;> exact congrArg Host.Outcome.next (hprot _)
  · exact (if_neg hreq).trans (congrArg Host.Outcome.next (hprot id))

theorem protWrite_refuses (req : Requester) (off : Nat) (s : State) :
    let t := protWrite req off s
    t.flash = s.flash ∧ t.mgt = s.mgt ∧ steady s t ∧
      (if req = .hif then counted F.HIF_CNT_PWERR_COUNT s t ∧ posted F.HIF_EVT_PWERR 3 4 ([0] ++ w64 off ++ [6]) s t ∧
          t.out = s.out ∧ onlyFields [F.HIF_CNT_PWERR_COUNT, F.HIF_EVT_PWERR] s t
        else t.out = s.out ++ [.status 6] ∧ t.evq = s.evq ∧ onlyFields [] s t) := by
  unfold protWrite
  split_ifs with hreq
  · obtain ⟨hcount, hpost, hout, hsteady, honly⟩ := hostWriteErr_reported 0 off 6 s
    refine ⟨?_, ?_, hsteady, hcount, hpost, hout, honly⟩
    · exact State.flash_raise _ _ _ _ _
    · exact State.mgt_raise _ _ _ _ _
  · exact ⟨rfl, rfl, ⟨rfl, rfl, rfl⟩, rfl, rfl, onlyFields.refl _ _⟩

/-! ### Flash commands (R517, R532) -/

/-- What a flash command answers in MGT_FLCMD and what it starts. -/
theorem flashCmd_sets {op : Nat} (hop : op < 8) (s : State) :
    let t := flashCmd op s
    (if s.mgt.flash ≠ none then t.fget F.MGT_FLCMD_RESULT = 4 ∧ t.mgt = s.mgt ∧ onlyFields [F.MGT_FLCMD_RESULT] s t
      else if s.flashProt (flashRange op (s.fget F.MGT_FLADDR_ADDR)).1 (flashRange op (s.fget F.MGT_FLADDR_ADDR)).2 = true then
        t.fget F.MGT_FLCMD_RESULT = 1 ∧ t.mgt = s.mgt ∧ onlyFields [F.MGT_FLCMD_OP, F.MGT_FLCMD_RESULT] s t
      else if op = 1 ∧ (s.fget F.MGT_FLADDR_ADDR % 256 ≠ 0 ∨ s.fget F.MGT_FLSRC_OFF % 256 ≠ 0) then
        t.fget F.MGT_FLCMD_RESULT = 2 ∧ t.mgt = s.mgt ∧ onlyFields [F.MGT_FLCMD_OP, F.MGT_FLCMD_RESULT] s t
      else t.mgt = { s.mgt with
          flash := some (op, s.fget F.MGT_FLADDR_ADDR, s.fget F.MGT_FLSRC_OFF) } ∧ t.fget F.MGT_FLCMD_GO = 1 ∧
        t.fget F.MGT_FLCMD_OP = op ∧ onlyFields [F.MGT_FLCMD_OP, F.MGT_FLCMD_GO] s t) ∧
    t.flash = s.flash ∧ t.out = s.out ∧ t.evq = s.evq ∧ steady s t := by
  have hbusy : s.mgt.flash ≠ none ↔ s.mgt.flash.isSome = true := by rw [Option.isSome_iff_ne_none]
  have hrefused : ∀ code, onlyFields [F.MGT_FLCMD_OP, F.MGT_FLCMD_RESULT] s
      ((s.fset F.MGT_FLCMD_OP op).fset F.MGT_FLCMD_RESULT code) :=
    fun code => ((onlyFields.refl _ s).fset (by simp) op).fset (by simp) code
  unfold flashCmd
  simp only [hbusy]
  split_ifs
  · exact ⟨⟨State.fget_fset_same _ _ _, rfl, (onlyFields.refl _ s).fset (by simp) _⟩, rfl, rfl, rfl, rfl, rfl, rfl⟩
  · exact ⟨⟨State.fget_fset_same _ _ _, rfl, hrefused 1⟩, rfl, rfl, rfl, rfl, rfl, rfl⟩
  · exact ⟨⟨State.fget_fset_same _ _ _, rfl, hrefused 2⟩, rfl, rfl, rfl, rfl, rfl, rfl⟩
  · refine ⟨⟨rfl, State.fget_fset_same _ _ _, ?_, ?_⟩, rfl, rfl, rfl, rfl, rfl, rfl⟩
    · rw [State.fget_fset_ne _ _ (by decide)]
      exact (State.fget_fset_same s _ op).trans (Nat.mod_eq_of_lt hop)
    · exact onlyFields.fset (t := { s.fset F.MGT_FLCMD_OP op with mgt := _ })
        ((onlyFields.refl [F.MGT_FLCMD_OP, F.MGT_FLCMD_GO] s).fset (by simp) op) (by simp) 1

theorem exec_flashCmd {op : Nat} {c : Instr}
    (hc : (op, c) ∈ [(1, .program (.control true)), (2, .erase4k (.control true)), (3, Instr.erase64k (.control true))]) (s : State) :
    exec c s = .next (flashCmd op s) ∧ op < 8 := by
  simp only [List.mem_cons, List.not_mem_nil, or_false, Prod.mk.injEq] at hc
  obtain ⟨rfl, rfl⟩ | ⟨rfl, rfl⟩ | ⟨rfl, rfl⟩ := hc <;> exact ⟨rfl, by decide⟩

/-- The end of a flash command, but for the flash itself. -/
def flashIdle (ok : Bool) (s : State) : State :=
  ({ s with mgt := { s.mgt with flash := none } }.fset F.MGT_FLCMD_GO 0).fset F.MGT_FLCMD_RESULT (if ok then 0 else 3)

section
variable {op a off : Nat} {ok : Bool} {s : State} (h : s.mgt.flash = some (op, a, off))
include h

theorem flashDone_eq : flashDone ok s =
    if (!ok) = true then ((flashIdle ok s).freshBytes (flashRange op a).2).2.flashWrite (flashRange op a).1
      ((flashIdle ok s).freshBytes (flashRange op a).2).1
    else if op = 1 then
      if 0x180000 ≤ off then ((flashIdle ok s).freshBytes (flashRange op a).2).2.flashWrite (flashRange op a).1
        ((flashIdle ok s).freshBytes (flashRange op a).2).1
      else (flashIdle ok s).flashWrite (flashRange op a).1 ((flashIdle ok s).bytes (0x80000000 + off) 256)
    else (flashIdle ok s).flashErase (flashRange op a).1 (flashRange op a).2 := by
  unfold flashDone
  rw [h]
  rfl

/-- Only the flash tells the ends of a command apart. -/
theorem flashDone_idle : ∃ fl fr, flashDone ok s = { flashIdle ok s with flash := fl, free := fr } := by
  rw [flashDone_eq h]
  split_ifs <;> exact ⟨_, _, rfl⟩

theorem flashDone_programs (hok : ok = true) (hop : op = 1) (hoff : off + 256 ≤ 0x180000) :
    flashDone ok s = (flashIdle ok s).flashWrite (flashRange op a).1 (s.bytes (0x80000000 + off) 256) := by
  rw [flashDone_eq h, if_neg (by simp [hok]), if_pos hop, if_neg (by omega)]
  exact congrArg (State.flashWrite _ _) (bytes_of_same rfl rfl _ _)

theorem flashDone_erases (hok : ok = true) (hop : op ≠ 1) :
    flashDone ok s = (flashIdle ok s).flashErase (flashRange op a).1 (flashRange op a).2 := by
  rw [flashDone_eq h, if_neg (by simp [hok]), if_neg hop]

theorem flashDone_failed (hok : ok = false) : flashDone ok s =
    ((flashIdle ok s).freshBytes (flashRange op a).2).2.flashWrite (flashRange op a).1
      ((flashIdle ok s).freshBytes (flashRange op a).2).1 := by
  rw [flashDone_eq h, if_pos (by simp [hok])]

theorem flashDone_outside (hoff : off + 256 ≤ 0x180000) {o : Nat}
    (ho : o < (flashRange op a).1 ∨ (flashRange op a).1 + (flashRange op a).2 ≤ o) : (flashDone ok s).flashGet o = s.flashGet o := by
  cases ok with
  | false =>
    rw [flashDone_failed h rfl, flashGet_flashWrite_outside (by simpa [State.freshBytes] using ho)]
    rfl
  | true =>
    by_cases hop : op = 1
    · have hsize : (flashRange op a).2 = 256 := by simp [flashRange, hop]
      rw [flashDone_programs h rfl hop hoff, flashGet_flashWrite_outside (by simpa [State.bytes, hsize] using ho)]
      rfl
    · rw [flashDone_erases h rfl hop, flashGet_flashErase_outside ho]
      rfl

theorem flashDone_sets (hoff : off + 256 ≤ 0x180000)
    (hgold : ∀ i, i < (flashRange op a).2 → isGolden ((flashRange op a).1 + i) = false) :
    let t := flashDone ok s
    t.mgt = { s.mgt with flash := none } ∧ t.fget F.MGT_FLCMD_GO = 0 ∧
    t.fget F.MGT_FLCMD_RESULT = (if ok then 0 else 3) ∧
    (ok = true → op = 1 → t.flashRead (flashRange op a).1 256 = s.bytes (0x80000000 + off) 256) ∧
    (ok = true → op ≠ 1 → ∀ o, (flashRange op a).1 ≤ o → o < (flashRange op a).1 + (flashRange op a).2 →
      t.flashGet o = 0xFF#8) ∧
    (∀ o, o < (flashRange op a).1 ∨ (flashRange op a).1 + (flashRange op a).2 ≤ o → t.flashGet o = s.flashGet o) ∧
    steady s t ∧ t.evq = s.evq ∧ onlyFields [F.MGT_FLCMD_GO, F.MGT_FLCMD_RESULT] s t := by
  obtain ⟨fl, fr, hidle⟩ := flashDone_idle (ok := ok) h
  have hresult : (flashIdle ok s).fget F.MGT_FLCMD_RESULT = if ok then 0 else 3 := by
    refine (State.fget_fset_same _ _ _).trans ?_
    cases ok <;> rfl
  have hgo : (flashIdle ok s).fget F.MGT_FLCMD_GO = 0 :=
    (State.fget_fset_ne _ _ (by decide)).trans (State.fget_fset_same _ _ _)
  have honly : onlyFields [F.MGT_FLCMD_GO, F.MGT_FLCMD_RESULT] s (flashIdle ok s) :=
    onlyFields.fset (onlyFields.fset (t := { s with mgt := { s.mgt with flash := none } }) (onlyFields.refl _ s) (by simp) 0)
      (by simp) _
  have hpage : ok = true → op = 1 → (flashDone ok s).flashRead (flashRange op a).1 256 = s.bytes (0x80000000 + off) 256 := by
    intro hok hop
    have hlen : (s.bytes (0x80000000 + off) 256).length = 256 := by simp [State.bytes]
    have hsize : (flashRange op a).2 = 256 := by simp [flashRange, hop]
    rw [flashDone_programs h hok hop hoff]
    rw [hsize, ← hlen] at hgold
    exact (congrArg _ hlen.symm).trans (flashRead_flashWrite hgold)
  have herased : ok = true → op ≠ 1 → ∀ o, (flashRange op a).1 ≤ o → o < (flashRange op a).1 + (flashRange op a).2 →
      (flashDone ok s).flashGet o = 0xFF#8 := by
    intro hok hop o hlo hhi
    have hout : isGolden o = false := by
      have hat := hgold (o - (flashRange op a).1) (by omega)
      rwa [Nat.add_sub_cancel' hlo] at hat
    rw [flashDone_erases h hok hop]
    exact flashGet_flashErase_inside hlo hhi hout
  have hmgt : (flashDone ok s).mgt = { s.mgt with flash := none } := by rw [hidle]; rfl
  have hfields : (flashDone ok s).fields = (flashIdle ok s).fields := by rw [hidle]
  refine ⟨hmgt, ?_, ?_, hpage, herased, fun o => flashDone_outside h hoff, ?_, ?_, ?_⟩
  · rw [hidle]; exact hgo
  · rw [hidle]; exact hresult
  · rw [hidle]; exact ⟨rfl, rfl, rfl⟩
  · rw [hidle]; rfl
  · exact onlyFields_to honly hfields

end

/-! ### Patch units (R524) -/

theorem fpApply_refused {s : State} (h : s.mgt.perm = true) : fpApply s =
    { s with mgt := { s.mgt with perm := false } }.fset F.MGT_FPCTL_RESULT 1 := if_pos h

theorem fpSwap_eq (s : State) : ∃ m, (∀ u, u < 16 → kvGet none m u = some (s.fpStaged u)) ∧
    fpSwap s = ({ s with mgt := { s.mgt with fpa := m } } : State).fsetb F.MGT_STAT_REMAP ({ s.mgt with fpa := m } : Mgt).remap :=
  ⟨_, fun _ hu => kvGet_foldl_kvSet none (fun u => some (s.fpStaged u)) s.mgt.fpa (List.mem_range.2 hu), rfl⟩

theorem fpApply_active {s : State} (h : s.mgt.perm = false) :
    let t := fpApply s
    (∀ u, u < 16 → kvGet none t.mgt.fpa u = some (s.fpStaged u)) ∧ t.fbit F.MGT_STAT_REMAP = t.mgt.remap ∧
      t.fget F.MGT_FPCTL_RESULT = 0 ∧ t.mgt.fpd = s.mgt.fpd ∧ steady s t ∧ t.evq = s.evq ∧
      onlyFields [F.MGT_STAT_REMAP, F.MGT_FPCTL_RESULT] s t := by
  obtain ⟨m, hm, hfp⟩ := fpSwap_eq s
  have happly : fpApply s = (({ s with mgt := { s.mgt with fpa := m } } : State).fsetb F.MGT_STAT_REMAP
      ({ s.mgt with fpa := m } : Mgt).remap).fset F.MGT_FPCTL_RESULT 0 :=
    (if_neg (Bool.eq_false_iff.1 h)).trans (congrArg (State.fset · F.MGT_FPCTL_RESULT 0) hfp)
  rw [happly]
  refine ⟨hm, ?_, State.fget_fset_same _ _ _, rfl, ⟨rfl, rfl, rfl⟩, rfl, onlyFields.fset (onlyFields_fsetb _ ?_ (by simp)) (by simp) 0⟩
  · rw [State.fbit, State.fget_fset_ne _ _ (by decide), State.fsetb, State.fget_fset_same, State.mgt_fset, State.mgt_fset]
    cases Mgt.remap _ <;> rfl
  · exact onlyFields.refl _ s

/-! ### The code alias (R525) -/

/-- A pair that starts new content c from slot k. -/
def Pair.starts (c : List Byte) (k : Nat) (x : Pair) : Pair :=
  { x with priv := 3, pc := BitVec.ofNat 64 (0xB0000000 + fwEntry c), lr := none, entry := fwEntry c, fwver := fwVer c
           dig := Config.sm3 c, from_ := k }

/-- What a swap to slot k of generation gen can be undone to. -/
def State.swapTo (s : State) (k gen : Nat) : Swap :=
  { secbase := s.fget F.MGT_CODEBASE_SECBASE, entry := (s.pair 0).entry, fwver := (s.pair 0).fwver, dig := (s.pair 0).dig
    old := (s.pair 0).from_, new := k, gen := gen }

/-- The control pair runs new content c while the swap timer runs. -/
def swapStarted (c : List Byte) (k gen : Nat) (s : State) : State :=
  { s with free := s.free + 2, mgt := { s.mgt with swap := some (s.swapTo k gen) } }.modPair 0 (Pair.starts c k)

theorem codebaseSet_eq (v : Nat) (s : State) : ∃ k gen, (∀ n, slotOf (v % 2 ^ 24 * 16) = some n → k = n) ∧
    codebaseSet v s = ((swapStarted (s.firmwareAt (v % 2 ^ 24 * 16)) k gen s).fset F.MGT_CODEBASE_SECBASE v).fset
      F.MGT_STAT_SWAP_BUSY 1 :=
  ⟨(slotOf (v % 2 ^ 24 * 16)).getD (s.freshNat.1 % 4), _, fun n hn => by rw [hn]; rfl, rfl⟩

theorem swapStarted_sets (c : List Byte) (k gen : Nat) (s : State) :
    let t := swapStarted c k gen s
    t.mgt.swap = some (s.swapTo k gen) ∧ t.pair 0 = (s.pair 0).starts c k ∧ (∀ q, q ≠ 0 → t.pair q = s.pair q) :=
  ⟨rfl, State.pair_modPair_same _ _ _, fun _ hq => State.pair_modPair_ne _ _ hq⟩

theorem codebaseSet_sets {v : Nat} (hv : v < 2 ^ 24) (s : State) :
    let c := s.firmwareAt (v * 16)
    let t := codebaseSet v s
    t.fget F.MGT_CODEBASE_SECBASE = v ∧ t.fget F.MGT_STAT_SWAP_BUSY = 1 ∧
      (∃ k gen, (∀ n, slotOf (v * 16) = some n → k = n) ∧ t.mgt.swap = some (s.swapTo k gen) ∧
        t.pair 0 = (s.pair 0).starts c k) ∧
      (∀ q, q ≠ 0 → t.pair q = s.pair q) ∧ t.flash = s.flash ∧ t.out = s.out ∧ steady s t ∧ t.evq = s.evq ∧
      onlyFields [F.MGT_CODEBASE_SECBASE, F.MGT_STAT_SWAP_BUSY] s t := by
  have hmod : v % 2 ^ 24 = v := Nat.mod_eq_of_lt hv
  obtain ⟨k, gen, hk, heq⟩ := codebaseSet_eq v s
  rw [hmod] at hk heq
  intro c t
  obtain ⟨hswap, hpair, hpairs⟩ := swapStarted_sets c k gen s
  have honly : onlyFields [F.MGT_CODEBASE_SECBASE, F.MGT_STAT_SWAP_BUSY] s (swapStarted c k gen s) := onlyFields.refl _ s
  have ht : t = ((swapStarted c k gen s).fset F.MGT_CODEBASE_SECBASE v).fset F.MGT_STAT_SWAP_BUSY 1 := heq
  rw [ht]
  refine ⟨?_, State.fget_fset_same _ _ _, ⟨k, gen, hk, hswap, hpair⟩, hpairs, rfl, rfl, ⟨rfl, rfl, rfl⟩, rfl,
    (honly.fset (by simp) v).fset (by simp) 1⟩
  rw [State.fget_fset_ne _ _ (by decide), State.fget_fset_same]
  exact hmod

/-! ### Answers to waiting requests (R525, R527) -/

/-- From s to t service requests are answered at most: of the registers GO and the event change, of the management complex the
response items and the marks of requests taken up. -/
def answersOnly (s t : State) : Prop :=
  (∃ r k, t.mgt = { s.mgt with rsp := r, taken := k }) ∧ onlyFields [F.MGT_SVC_GO, F.MGT_EVT_SVC] s t

theorem answersOnly.refl (s : State) : answersOnly s s := ⟨⟨_, _, rfl⟩, onlyFields.refl _ s⟩

theorem answersOnly.trans {s t u : State} (h : answersOnly s t) (g : answersOnly t u) : answersOnly s u := by
  obtain ⟨⟨_, _, h⟩, hf⟩ := h
  obtain ⟨⟨r, k, g⟩, gf⟩ := g
  exact ⟨⟨r, k, by rw [g, h]⟩, hf.trans gf⟩

theorem answersOnly.foldl {f : State → Nat → State} (hf : ∀ t k, answersOnly t (f t k)) :
    ∀ (ks : List Nat) (s : State), answersOnly s (ks.foldl f s)
  | [], s => answersOnly.refl s
  | k :: ks, s => (hf s k).trans (answersOnly.foldl hf ks (f s k))

theorem answersOnly_svcRespond (slot status ev : Nat) (d : List Nat) (s : State) : answersOnly s (svcRespond slot status ev d s) := by
  unfold svcRespond
  split_ifs
  · exact answersOnly.refl s
  · refine ⟨⟨_, _, State.mgt_raise _ _ _ _ _⟩, onlyFields.raise (onlyFields.fset ?_ (by simp) _) (by simp) _ _ _⟩
    exact onlyFields.refl _ s

/-- One step of the answer to a swap: slot k's request is answered if it is a swap that was taken up. -/
def swapAnswerAt (s : State) (k : Nat) : State :=
  if nbit s.mgt.taken k && s.reqCode k == 3 then svcRespond k 0 0 [] s else s

theorem answersOnly_swapAnswerAt (s : State) (k : Nat) : answersOnly s (swapAnswerAt s k) := by
  unfold swapAnswerAt
  split_ifs
  · exact answersOnly_svcRespond _ _ _ _ s
  · exact answersOnly.refl s

theorem answersOnly_swapAnswer (s : State) : answersOnly s (swapAnswer s) := answersOnly.foldl answersOnly_swapAnswerAt _ s

/-- Slot k holds a swap that was taken up, or no request. -/
def swapHeld (k : Nat) (s : State) : Prop := s.reqCode k = 3 ∧ (nbit s.mgt.taken k = true ∨ nbit (s.fget F.MGT_SVC_GO) k = false)

theorem svcRespond_keeps_free {k slot : Nat} (status ev : Nat) (d : List Nat) {s : State} (hk : k < 4)
    (h : nbit (s.fget F.MGT_SVC_GO) k = false) : nbit ((svcRespond slot status ev d s).fget F.MGT_SVC_GO) k = false := by
  unfold svcRespond
  split_ifs
  · exact h
  · rw [State.fget_raise_ne _ _ _ _ (by decide)]
    refine (nbit_fset_putBit s F.MGT_SVC_GO false hk).trans ?_
    split_ifs
    · rfl
    · exact h

theorem swapAnswerAt_keeps_free {k : Nat} (j : Nat) {s : State} (hk : k < 4) (h : nbit (s.fget F.MGT_SVC_GO) k = false) :
    nbit ((swapAnswerAt s j).fget F.MGT_SVC_GO) k = false := by
  unfold swapAnswerAt
  split_ifs
  · exact svcRespond_keeps_free 0 0 [] hk h
  · exact h

theorem swapAnswerAt_frees {k : Nat} {s : State} (hk : k < 4) (h : swapHeld k s) :
    nbit ((swapAnswerAt s k).fget F.MGT_SVC_GO) k = false := by
  obtain ⟨hcode, htaken | hfree⟩ := h
  · rw [swapAnswerAt, if_pos (by simp [htaken, hcode])]
    exact svcRespond_answers 0 0 [] s hk
  · exact swapAnswerAt_keeps_free k hk hfree

/-- An answer to another slot does not touch slot k's request. -/
theorem taken_svcRespond_ne {k j : Nat} (status ev : Nat) (d : List Nat) (s : State) (h : k ≠ j) :
    nbit (svcRespond j status ev d s).mgt.taken k = nbit s.mgt.taken k := by
  unfold svcRespond
  split_ifs
  · rfl
  · rw [State.mgt_raise, State.mgt_fset]
    exact (nbit_putBit _ _ _ _).trans (if_neg h)

theorem swapHeld_swapAnswerAt {k : Nat} (j : Nat) {s : State} (hk : k < 4) (h : swapHeld k s) : swapHeld k (swapAnswerAt s j) := by
  obtain ⟨⟨r, t, hmgt⟩, -⟩ := answersOnly_swapAnswerAt s j
  have hcode : (swapAnswerAt s j).reqCode k = s.reqCode k := by rw [State.reqCode, State.reqCode, State.reqA, State.reqA, hmgt]
  refine ⟨hcode.trans h.1, ?_⟩
  by_cases hkj : k = j
  · exact Or.inr (hkj ▸ swapAnswerAt_frees hk h)
  · refine h.2.imp (fun htaken => ?_) (swapAnswerAt_keeps_free j hk)
    rw [swapAnswerAt]
    split_ifs
    · rw [taken_svcRespond_ne _ _ _ _ hkj]
      exact htaken
    · exact htaken

theorem foldl_swapAnswerAt_keeps_free {k : Nat} (hk : k < 4) : ∀ (js : List Nat) {s : State},
    nbit (s.fget F.MGT_SVC_GO) k = false → nbit ((js.foldl swapAnswerAt s).fget F.MGT_SVC_GO) k = false
  | [], _, h => h
  | j :: js, _, h => foldl_swapAnswerAt_keeps_free hk js (swapAnswerAt_keeps_free j hk h)

theorem foldl_swapAnswerAt_frees {k : Nat} (hk : k < 4) : ∀ {js : List Nat} {s : State}, k ∈ js → swapHeld k s →
    nbit ((js.foldl swapAnswerAt s).fget F.MGT_SVC_GO) k = false
  | [], _, hmem, _ => absurd hmem List.not_mem_nil
  | j :: js, s, hmem, h => by
    obtain rfl | hmem := List.mem_cons.1 hmem
    · exact foldl_swapAnswerAt_keeps_free hk js (swapAnswerAt_frees hk h)
    · exact foldl_swapAnswerAt_frees (js := js) hk hmem (swapHeld_swapAnswerAt j hk h)

theorem swapAnswer_frees {k : Nat} {s : State} (hk : k < 4) (h : swapHeld k s) :
    nbit ((swapAnswer s).fget F.MGT_SVC_GO) k = false := foldl_swapAnswerAt_frees hk (List.mem_range.2 hk) h

/-- With no request taken up the swap has none to answer. -/
theorem swapAnswer_of_none {s : State} (h : s.mgt.taken = 0) : swapAnswer s = s := by
  have hat : ∀ k, swapAnswerAt s k = s := fun k => if_neg (by simp [h, nbit])
  have hall : ∀ ks : List Nat, ks.foldl swapAnswerAt s = s := fun ks => by
    induction ks with
    | nil => rfl
    | cons k ks ih => rw [List.foldl_cons, hat, ih]
  exact hall _

/-! ### The end of a swap (R525, R526) -/

/-- The registers of a swap confirmed. -/
def swapKept (w : Swap) (s : State) : State :=
  ((({ s with mgt := { s.mgt with swap := none } }.fset F.MGT_STAT_SWAP_BUSY 0).fset F.MGT_SWAPCTL_RESULT 0).fset
    F.SCH_BOOT_SRC w.new).fset F.SCH_BOOT_GEN w.gen

/-- The event of a swap confirmed. -/
def swapTold (w : Swap) (s : State) : State := (swapKept w s).raise F.MGT_EVT_SWAP 2 3 [0, w.old, w.new, w.gen]

section
variable {w : Swap} {s : State}

theorem swapOk_eq (h : s.mgt.swap = some w) : swapOk s = swapAnswer (swapTold w s) := by
  unfold swapOk
  rw [h]
  rfl

theorem swapTold_posted (w : Swap) (s : State) : posted F.MGT_EVT_SWAP 2 3 [0, w.old, w.new, w.gen] s (swapTold w s) := by
  refine posted_raise (t := swapKept w s) _ _ _ rfl rfl rfl rfl ?_
  unfold swapKept
  repeat rw [State.fget_fset_ne _ _ (by decide)]
  rfl

theorem swapOk_fields (hnew : w.new < 4) (hgen : w.gen < 2 ^ 16) (h : s.mgt.swap = some w) :
    let t := swapOk s
    t.fget F.MGT_STAT_SWAP_BUSY = 0 ∧ t.fget F.MGT_SWAPCTL_RESULT = 0 ∧ t.fget F.SCH_BOOT_SRC = w.new ∧
      t.fget F.SCH_BOOT_GEN = w.gen ∧ t.fget F.MGT_EVT_SWAP = 1 := by
  intro t
  have hkept : ∀ f : Fld, f.key ≠ F.MGT_SVC_GO.key → f.key ≠ F.MGT_EVT_SVC.key → t.fget f = (swapTold w s).fget f := by
    intro f hgo hevt
    rw [show t = swapAnswer (swapTold w s) from swapOk_eq h]
    exact (answersOnly_swapAnswer _).2 f (by simp [hgo, hevt])
  rw [hkept _ (by decide) (by decide), hkept _ (by decide) (by decide), hkept _ (by decide) (by decide),
    hkept _ (by decide) (by decide), hkept _ (by decide) (by decide), swapTold, swapKept]
  refine ⟨?_, ?_, ?_, ?_, State.fget_raise_same _ _ _ _ _⟩
  · rw [State.fget_raise_ne _ _ _ _ (by decide), State.fget_fset_ne _ _ (by decide), State.fget_fset_ne _ _ (by decide),
      State.fget_fset_ne _ _ (by decide), State.fget_fset_same]
    rfl
  · rw [State.fget_raise_ne _ _ _ _ (by decide), State.fget_fset_ne _ _ (by decide), State.fget_fset_ne _ _ (by decide),
      State.fget_fset_same]
    rfl
  · rw [State.fget_raise_ne _ _ _ _ (by decide), State.fget_fset_ne _ _ (by decide), State.fget_fset_same]
    exact Nat.mod_eq_of_lt hnew
  · rw [State.fget_raise_ne _ _ _ _ (by decide), State.fget_fset_same]
    exact Nat.mod_eq_of_lt hgen

theorem swapOk_mgt (h : s.mgt.swap = some w) : ∃ r k, (swapOk s).mgt = { s.mgt with swap := none, rsp := r, taken := k } := by
  obtain ⟨⟨r, k, hmgt⟩, -⟩ := answersOnly_swapAnswer (swapTold w s)
  rw [swapTold, State.mgt_raise] at hmgt
  exact ⟨r, k, by rw [swapOk_eq h]; exact hmgt⟩

theorem swapOk_answers {k : Nat} (h : s.mgt.swap = some w) (hk : k < 4) (htaken : nbit s.mgt.taken k = true)
    (hcode : s.reqCode k = 3) : nbit ((swapOk s).fget F.MGT_SVC_GO) k = false := by
  have hmgt : (swapTold w s).mgt = { s.mgt with swap := none } := State.mgt_raise _ _ _ _ _
  rw [swapOk_eq h]
  refine swapAnswer_frees hk ⟨?_, Or.inl ?_⟩
  · rw [State.reqCode, State.reqA, hmgt]
    exact hcode
  · rw [hmgt]
    exact htaken

theorem swapOk_posted (h : s.mgt.swap = some w) (htaken : s.mgt.taken = 0) :
    posted F.MGT_EVT_SWAP 2 3 [0, w.old, w.new, w.gen] s (swapOk s) := by
  have hmgt : (swapTold w s).mgt = { s.mgt with swap := none } := State.mgt_raise _ _ _ _ _
  rw [swapOk_eq h, swapAnswer_of_none (by rw [hmgt]; exact htaken)]
  exact swapTold_posted w s

/-- The registers and the pair as a swap not confirmed leaves them, before the control pair restarts. -/
def swapUndone (w : Swap) (s : State) : State :=
  (((({ s with mgt := { s.mgt with swap := none, revert := some w.old } }.fset F.MGT_STAT_SWAP_BUSY 0).fset
    F.MGT_SWAPCTL_RESULT 1).fset F.MGT_CODEBASE_SECBASE w.secbase).modPair 0 fun x =>
      { x with entry := w.entry, fwver := w.fwver, dig := w.dig, from_ := w.old }).raise F.MGT_EVT_SWAP 2 3 [1, w.old, w.new, w.gen]

theorem swapExpire_eq (h : s.mgt.swap = some w) : swapExpire s = pairRestart 0 3 false (swapUndone w s) := by
  unfold swapExpire
  rw [h]
  rfl

end

/-! ### The restart of a pair (R518, R519, R524) -/

/-- The registers that the loss of REMAP units changes. -/
def remapFields : List Fld := F.MGT_STAT_REMAP :: (List.range 16).map F.MGT_FPU_EN

theorem onlyFields_foldl_stagedOff : ∀ {us : List Nat}, us.map F.MGT_FPU_EN ⊆ remapFields → ∀ s : State,
    registersSet remapFields s (us.foldl (fun s u => if s.fbit (F.MGT_FPU_MODE u) then s else s.fset (F.MGT_FPU_EN u) 0) s)
  | [], _, s => registersSet.refl _ s
  | u :: us, hsub, s => by
    obtain ⟨hu, hus⟩ := List.cons_subset.1 hsub
    rw [List.foldl_cons]
    split_ifs
    · exact onlyFields_foldl_stagedOff hus s
    · obtain ⟨⟨m, hm⟩, honly⟩ := onlyFields_foldl_stagedOff hus (s.fset (F.MGT_FPU_EN u) 0)
      exact ⟨⟨m, hm⟩, ((onlyFields.refl _ s).fset hu 0).trans honly⟩

/-- The state without its active REMAP units. -/
def activeOff (s : State) : State :=
  { s with mgt := { s.mgt with fpa := s.mgt.fpa.filter fun e => !(e.2.any fun (u : FpUnit) => u.en && !u.brk) } }

theorem remapDrop_sets (s : State) : (∃ m a, remapDrop s = { s with fields := m, mgt := { s.mgt with fpa := a } }) ∧
    onlyFields remapFields s (remapDrop s) := by
  obtain ⟨⟨m, hm⟩, honly⟩ := onlyFields_foldl_stagedOff (List.subset_cons_self _ _) (activeOff s)
  have hdrop : remapDrop s = State.fset { activeOff s with fields := m } F.MGT_STAT_REMAP 0 :=
    congrArg (State.fset · F.MGT_STAT_REMAP 0) hm
  rw [hm] at honly
  rw [hdrop]
  exact ⟨⟨_, _, rfl⟩, onlyFields.fset honly List.mem_cons_self 0⟩

/-- A load already begun goes on without its slot, and no patch set waits. -/
def slotsLost (s : State) : State :=
  { s with
    load := { s.load with job := s.load.job.map fun (j : LoadJob) => { j with slot := 4 } }
    mgt := { s.mgt with patch := none } }

/-- One step of the answers at a restart. -/
def restartAnswerAt (s : State) (k : Nat) : State := svcRespond k 4 0 [] s

theorem servicesRestart_eq (s : State) : servicesRestart s = (List.range 4).foldl restartAnswerAt (slotsLost s) := rfl

theorem servicesRestart_sets (s : State) :
    (∃ r k, (servicesRestart s).mgt = { s.mgt with patch := none, rsp := r, taken := k }) ∧
      onlyFields [F.MGT_SVC_GO, F.MGT_EVT_SVC] s (servicesRestart s) := by
  rw [servicesRestart_eq]
  generalize List.range 4 = ks
  obtain ⟨⟨r, k, hmgt⟩, honly⟩ := answersOnly.foldl (fun t k => answersOnly_svcRespond k 4 0 [] t) ks (slotsLost s)
  exact ⟨⟨r, k, hmgt⟩, honly⟩

/-- The registers that a restart of the control pair changes, but for its cause and their count. -/
def restartFields : List Fld := [F.MGT_SVC_GO, F.MGT_EVT_SVC] ++ remapFields

/-- The control pair as a restart that does not hold it leaves it. -/
def Pair.restarts (x : Pair) : Pair :=
  { x with halted := false, waitM := false, lr := none, expired := false, kickLeft := none, restarting := true, held := false }

/-- The registers and the pair at a restart of the control pair, before the units and the services that it ends. -/
def restartBegun (cause : Nat) (s : State) : State :=
  ((s.fset F.MGT_STAT_RCAUSE cause).count F.MGT_STAT_RESTARTS).modPair 0 Pair.restarts

theorem pairRestart_control (cause : Nat) (s : State) :
    pairRestart 0 cause false s = servicesRestart (remapDrop (restartBegun cause s)) := by
  unfold pairRestart
  exact (if_pos rfl).trans (congrArg (fun u => servicesRestart (remapDrop u)) rfl)

theorem fget_restartBegun (cause : Nat) (s : State) (f : Fld) :
    (restartBegun cause s).fget f = ((s.fset F.MGT_STAT_RCAUSE cause).count F.MGT_STAT_RESTARTS).fget f := rfl

theorem pairRestart_control_sets {cause : Nat} (hcause : cause < 4) (s : State) :
    let t := pairRestart 0 cause false s
    (∃ a r k, t.mgt = { (s.modPair 0 Pair.restarts).mgt with fpa := a, patch := none, rsp := r, taken := k }) ∧
      t.fget F.MGT_STAT_RCAUSE = cause ∧ counted F.MGT_STAT_RESTARTS s t ∧
      onlyFields ([F.MGT_STAT_RCAUSE, F.MGT_STAT_RESTARTS] ++ restartFields) s t := by
  rw [pairRestart_control]
  obtain ⟨⟨m, a, hdrop⟩, hdropOnly⟩ := remapDrop_sets (restartBegun cause s)
  obtain ⟨⟨r, k, hserv⟩, hservOnly⟩ := servicesRestart_sets (remapDrop (restartBegun cause s))
  have honly : onlyFields restartFields (restartBegun cause s) (servicesRestart (remapDrop (restartBegun cause s))) :=
    (hdropOnly.mono (List.subset_append_right _ _)).trans (hservOnly.mono (List.subset_append_left _ _))
  have hbegun : onlyFields [F.MGT_STAT_RCAUSE, F.MGT_STAT_RESTARTS] s (restartBegun cause s) :=
    onlyFields_count ((onlyFields.refl _ s).fset (by simp) cause) (by simp)
  refine ⟨⟨a, r, k, by rw [hserv, hdrop]; rfl⟩, ?_, ?_,
    (hbegun.mono (List.subset_append_left _ _)).trans (honly.mono (List.subset_append_right _ _))⟩
  · rw [honly _ (by decide), fget_restartBegun, State.fget_count_ne _ (by decide), State.fget_fset_same]
    exact Nat.mod_eq_of_lt hcause
  · rw [counted, honly _ (by decide), fget_restartBegun, State.fget_count_same, State.fget_fset_ne _ _ (by decide)]

section
variable {w : Swap} {s : State} (h : s.mgt.swap = some w)
include h

theorem swapExpire_fields (hbase : w.secbase < 2 ^ 24) :
    let t := swapExpire s
    t.fget F.MGT_STAT_SWAP_BUSY = 0 ∧ t.fget F.MGT_SWAPCTL_RESULT = 1 ∧ t.fget F.MGT_CODEBASE_SECBASE = w.secbase ∧
      t.fget F.MGT_STAT_RCAUSE = 3 ∧ counted F.MGT_STAT_RESTARTS s t ∧ t.fget F.MGT_EVT_SWAP = 1 := by
  rw [swapExpire_eq h]
  obtain ⟨-, hcause, hcount, honly⟩ := pairRestart_control_sets (cause := 3) (by decide) (swapUndone w s)
  have hother : (swapUndone w s).fget F.MGT_STAT_RESTARTS = s.fget F.MGT_STAT_RESTARTS := by
    refine (State.fget_raise_ne _ _ _ _ (by decide)).trans ?_
    exact (State.fget_fset_ne _ _ (by decide)).trans ((State.fget_fset_ne _ _ (by decide)).trans (State.fget_fset_ne _ _ (by decide)))
  refine ⟨?_, ?_, ?_, hcause, hcount.trans (by rw [hother]), ?_⟩
  · refine (honly _ (by decide)).trans ((State.fget_raise_ne _ _ _ _ (by decide)).trans ?_)
    exact (State.fget_fset_ne _ _ (by decide)).trans ((State.fget_fset_ne _ _ (by decide)).trans (State.fget_fset_same _ _ _))
  · refine (honly _ (by decide)).trans ((State.fget_raise_ne _ _ _ _ (by decide)).trans ?_)
    exact (State.fget_fset_ne _ _ (by decide)).trans (State.fget_fset_same _ _ _)
  · refine (honly _ (by decide)).trans ((State.fget_raise_ne _ _ _ _ (by decide)).trans ?_)
    exact (State.fget_fset_same _ _ _).trans (Nat.mod_eq_of_lt hbase)
  · exact (honly _ (by decide)).trans (State.fget_raise_same _ _ _ _ _)

theorem swapExpire_mgt :
    let t := swapExpire s
    t.mgt.swap = none ∧ t.mgt.revert = some w.old ∧ (t.pair 0).restarting = true ∧ (t.pair 0).entry = w.entry ∧
      (t.pair 0).from_ = w.old ∧ ∀ q, q ≠ 0 → t.pair q = s.pair q := by
  rw [swapExpire_eq h]
  obtain ⟨⟨a, r, k, hmgt⟩, -⟩ := pairRestart_control_sets (cause := 3) (by decide) (swapUndone w s)
  have hpair : ∀ q, (pairRestart 0 3 false (swapUndone w s)).pair q = ((swapUndone w s).modPair 0 Pair.restarts).pair q :=
    fun q => by rw [State.pair, hmgt, State.pair]
  have hundone : (swapUndone w s).mgt = (State.modPair { s with mgt := { s.mgt with swap := none, revert := some w.old } } 0 fun x =>
      { x with entry := w.entry, fwver := w.fwver, dig := w.dig, from_ := w.old }).mgt := State.mgt_raise _ _ _ _ _
  have hcontrol : (swapUndone w s).pair 0 =
      { s.pair 0 with entry := w.entry, fwver := w.fwver, dig := w.dig, from_ := w.old } := by
    rw [State.pair, hundone]
    exact State.pair_modPair_same _ _ _
  have hothers : ∀ q, q ≠ 0 → (swapUndone w s).pair q = s.pair q := fun q hq => by
    rw [State.pair, hundone]
    exact State.pair_modPair_ne _ _ hq
  have hend : (pairRestart 0 3 false (swapUndone w s)).pair 0 =
      Pair.restarts { s.pair 0 with entry := w.entry, fwver := w.fwver, dig := w.dig, from_ := w.old } := by
    rw [hpair, State.pair_modPair_same, hcontrol]
  refine ⟨?_, ?_, (congrArg Pair.restarting hend :), (congrArg Pair.entry hend :), (congrArg Pair.from_ hend :), fun q hq => ?_⟩
  · rw [hmgt]
    exact (congrArg Mgt.swap hundone :)
  · rw [hmgt]
    exact (congrArg Mgt.revert hundone :)
  · rw [hpair, State.pair_modPair_ne _ _ hq]
    exact hothers q hq

end

/-! ### The obligation -/

theorem swapOk_steady (s : State) : (swapOk s).flash = s.flash ∧ steady s (swapOk s) :=
  have hframe := swapOk_frame (Fr.refl 0x88400090 s) rfl
  ⟨hframe.h_flash rfl, hframe.h_seq rfl, hframe.h_clauses rfl, hframe.h_mem rfl⟩

theorem swapExpire_steady (s : State) : (swapExpire s).flash = s.flash ∧ steady s (swapExpire s) :=
  have hframe := swapExpire_frame (Fr.refl 0x4008490090 s) rfl
  ⟨hframe.h_flash rfl, hframe.h_seq rfl, hframe.h_clauses rfl, hframe.h_mem rfl⟩

/-- Settles O49: each command by the lemma that says what it sets. -/
theorem flashAndSwap : Obligations.FlashAndSwap := by
  unfold Obligations.FlashAndSwap
  refine ⟨?refused, ?started, ?idle, ?done, ?perm, ?applied, ?codebase, ?none, ?ok, ?expired⟩
  case refused => exact fun req w off c s hreq hc => leads_of (exec_ctlOnly_of_other hreq hc s) (protWrite_refuses req off s)
  case started =>
    intro op c s hc
    obtain ⟨hexec, hop⟩ := exec_flashCmd hc s
    exact leads_of hexec (flashCmd_sets hop s)
  case idle =>
    intro ok s h
    refine congrArg Host.Outcome.next ?_
    rw [flashDone, h]
  case done => exact fun op a off ok s h hoff hgold => leads_of rfl (flashDone_sets h hoff hgold)
  case perm =>
    intro s h
    refine leads_of rfl ?_
    rw [fpApply_refused h]
    exact ⟨rfl, State.fget_fset_same _ _ _, ⟨rfl, rfl, rfl⟩, rfl,
      onlyFields.fset (t := { s with mgt := { s.mgt with perm := false } }) (onlyFields.refl _ s) (by simp) 1⟩
  case applied => exact fun s h => leads_of rfl (fpApply_active h)
  case codebase =>
    intro w c s hkept hc
    subst hc
    have hexec : exec (.codebaseWrite (.control true) w) s = .next (codebaseSet (fieldOf w 4 24) s) :=
      (if_pos rfl : execCodebaseWrite (.control true) w s = _).trans (regCmd_of_kept _ hkept)
    exact leads_of hexec (codebaseSet_sets (fieldOf_lt _ _ _) s)
  case none =>
    intro s h
    refine ⟨congrArg Host.Outcome.next ?_, congrArg Host.Outcome.next ?_⟩
    · rw [swapOk, h]
    · rw [swapExpire, h]
  case ok =>
    intro w s h hnew hgen
    obtain ⟨hbusy, hresult, hsrc, hgenOut, hevt⟩ := swapOk_fields hnew hgen h
    obtain ⟨r, k, hmgt⟩ := swapOk_mgt h
    obtain ⟨hflash, hsteady⟩ := swapOk_steady s
    refine leads_of rfl ⟨by rw [hmgt], hbusy, hresult, hsrc, hgenOut, hevt, swapOk_posted h, fun k hk => swapOk_answers h hk,
      by rw [hmgt], hflash, hsteady⟩
  case expired =>
    intro w s h hbase
    obtain ⟨hbusy, hresult, hsecbase, hcause, hcount, hevt⟩ := swapExpire_fields h hbase
    obtain ⟨hswap, hrevert, hrestarting, hentry, hfrom, hpairs⟩ := swapExpire_mgt h
    obtain ⟨hflash, hsteady⟩ := swapExpire_steady s
    exact leads_of rfl ⟨hswap, hrevert, hbusy, hresult, hsecbase, hcause, hcount, hevt, hrestarting, hentry, hfrom, hpairs, hflash,
      hsteady⟩

end Sys2Proof.Machine
end

section
/-! Records of the slot directory, and what a commit writes (R318 to R320). -/
namespace Sys2Proof.Machine

theorem dirRec_boot_lt {s : State} {p : Nat} {r : DirRec} (h : s.dirRec p = some r) : r.boot < 2 := by
  unfold State.dirRec at h
  dsimp only at h
  split_ifs at h with hok
  cases h
  simp only [Bool.and_eq_true, decide_eq_true_eq] at hok
  obtain ⟨⟨-, hboot⟩, -⟩ := hok
  exact hboot

/-- The newer of a record seen and the one at a position. -/
def State.newerRec (s : State) (m : Option (Nat × DirRec)) (p : Nat) : Option (Nat × DirRec) :=
  match s.dirRec p, m with
  | some r, some (q, o) => if o.seq < r.seq then some (p, r) else some (q, o)
  | some r, none => some (p, r)
  | none, m => m

/-- A record of the directory: its position lies in the two sectors, and it names slot A or B. -/
def inDirectory (m : Option (Nat × DirRec)) : Prop := ∀ q r, m = some (q, r) → q < 512 ∧ r.boot < 2

theorem inDirectory_newerRec {s : State} {m : Option (Nat × DirRec)} {p : Nat} (hm : inDirectory m) (hp : p < 512) :
    inDirectory (s.newerRec m p) := by
  have hhere : ∀ r, s.dirRec p = some r → inDirectory (some (p, r)) := by
    intro r hr q o ho
    cases ho
    exact ⟨hp, dirRec_boot_lt hr⟩
  unfold State.newerRec
  split
  · split_ifs
    · exact hhere _ ‹_›
    · exact hm
  · exact hhere _ ‹_›
  · exact hm

theorem inDirectory_foldl_newerRec {s : State} : ∀ {ps : List Nat} {m : Option (Nat × DirRec)}, inDirectory m →
    (∀ q ∈ ps, q < 512) → inDirectory (ps.foldl s.newerRec m)
  | [], _, hm, _ => hm
  | q :: ps, _, hm, hps => inDirectory_foldl_newerRec (ps := ps) (inDirectory_newerRec hm (hps q List.mem_cons_self))
      fun x hx => hps x (List.mem_cons_of_mem _ hx)

theorem newestRec_eq (s : State) : s.newestRec =
    (((s.flash.filter fun e => decide (e.1 < 0x10000)).map fun (e : Host.Cell) => e.1 / 128).dedup).foldl s.newerRec none := rfl

theorem inDirectory_newestRec (s : State) : inDirectory s.newestRec := by
  rw [newestRec_eq]
  refine inDirectory_foldl_newerRec (fun _ _ h => nomatch h) fun q hq => ?_
  obtain ⟨e, he, rfl⟩ := List.mem_map.1 (List.mem_dedup.1 hq)
  have hlt := of_decide_eq_true (List.mem_filter.1 he).2
  omega

/-- The next erased position for a record lies in the directory. -/
theorem nextPos_lt (s : State) : s.nextPos < 512 := by
  unfold State.nextPos
  split
  · decide
  · rename_i p r hnew
    have hp := (inDirectory_newestRec s p r hnew).1
    dsimp only
    cases hfind : ((List.range (255 - p % 256)).map (p + 1 + ·)).find? (s.posErased ·) with
    | none => exact lt_of_le_of_lt (Nat.mul_le_mul_left 256 (Nat.sub_le 1 _)) (by decide)
    | some q =>
      obtain ⟨i, hi, rfl⟩ := List.mem_map.1 (List.mem_of_find?_eq_some hfind)
      have hi := List.mem_range.1 hi
      show p + 1 + i < 512
      omega

theorem length_recordBytes (r : DirRec) : (r.bytes ++ leBytes 4 0x5AC33CA5).length = 68 := by
  simp [DirRec.bytes, leBytes]

/-- From s to t the flash changes at most, and of it the directory at most. -/
def directoryOnly (s t : State) : Prop := (∃ f, t = { s with flash := f }) ∧ ∀ o, 0x10000 ≤ o → t.flashGet o = s.flashGet o

theorem directoryOnly.refl (s : State) : directoryOnly s s := ⟨⟨s.flash, rfl⟩, fun _ _ => rfl⟩

theorem directoryOnly_commitRec (r : DirRec) (s : State) : directoryOnly s (commitRec r s) := by
  have hpos := nextPos_lt s
  unfold commitRec
  dsimp only
  split_ifs
  · refine ⟨⟨_, rfl⟩, fun o ho => ?_⟩
    rw [flashGet_flashWrite_outside (by rw [length_recordBytes]; omega), flashGet_flashErase_outside (by omega)]
  · refine ⟨⟨_, rfl⟩, fun o ho => ?_⟩
    rw [flashGet_flashWrite_outside (by rw [length_recordBytes]; omega)]

end Sys2Proof.Machine
end

section
/-! What services answer, and the streams that they read (R527, R528). -/
namespace Sys2Proof.Machine

section
variable {slot code mask : Nat} {s : State}

/-- A service that is due, free, served and well-formed runs. -/
theorem service_of_due (f : State → State) (hdue : s.svcDue slot code = true) (hfree : s.svcFree slot = true)
    (hsrc : s.fget F.SCH_BOOT_SRC ≠ 3) (harg : s.badArg slot mask = false) : service slot code mask false f s = f s := by
  simp only [State.svcFree, Bool.and_eq_true, Bool.not_eq_true'] at hfree
  simp [service, hdue, hfree, harg, hsrc]

end

theorem fieldOf_putWord_low (d : List Nat) (w : Nat) {k : Nat} (hk : k < 3) :
    fieldOf (BitVec.ofNat 128 (putWord d w k)) 0 32 = fieldOf (BitVec.ofNat 128 w) 0 32 := by
  unfold putWord
  split
  · simp only [fieldOf, BitVec.toNat_ofNat, nbits, putBits, Nat.shiftRight_eq_div_pow]
    interval_cases k <;> omega
  · rfl

/-- The words of an answer stand behind its first word. -/
theorem fieldOf_foldl_putWord_low (d : List Nat) (w : Nat) : ∀ {ks : List Nat}, (∀ k ∈ ks, k < 3) →
    fieldOf (BitVec.ofNat 128 (ks.foldl (putWord d) w)) 0 32 = fieldOf (BitVec.ofNat 128 w) 0 32 := by
  intro ks
  induction ks using List.reverseRecOn with
  | nil => exact fun _ => rfl
  | append_singleton ks k ih =>
    intro h
    rw [List.foldl_append, List.foldl_cons, List.foldl_nil, fieldOf_putWord_low d _ (h k (by simp))]
    exact ih fun j hj => h j (List.mem_append_left _ hj)

/-- A slot with GO = 1 is answered with the words given. -/
theorem svcRespond_answered_words {slot status ev : Nat} (d : List Nat) (s : State) (hslot : slot < 4)
    (hgo : nbit (s.fget F.MGT_SVC_GO) slot = true) (hstatus : status < 2 ^ 8) (hev : ev < 2 ^ 16) :
    answered slot status ev d s (svcRespond slot status ev d s) := by
  have hrsp := kvGet_rsp_svcRespond (status := status) (ev := ev) (d := d) hslot hgo
  have htag := reqTag_lt s slot
  obtain ⟨u, hevq, hseq, hptime, hregs, heq⟩ : ∃ u : State, u.evq = s.evq ∧ u.seq = s.seq ∧ u.ptime = s.ptime ∧
      u.fields = s.fields ∧ svcRespond slot status ev d s =
        (u.fset F.MGT_SVC_GO (putBit (s.fget F.MGT_SVC_GO) slot false)).raise F.MGT_EVT_SVC 2 4
          [slot, s.reqCode slot, status, s.reqTag slot] := by
    unfold svcRespond
    rw [if_neg (by simp [hslot, hgo])]
    refine ⟨_, ?_, ?_, ?_, ?_, rfl⟩ <;> rfl
  have hfget : ∀ f, u.fget f = s.fget f := fun f => by rw [State.fget, State.fget, hregs]
  refine ⟨fun k hk => ?_, ?_, fun k v hk hd => ?_, ?_, fun hon => ?_⟩
  · rw [heq, State.fget_raise_ne _ _ _ _ (by decide), ← hfget]
    refine (nbit_fset_putBit u F.MGT_SVC_GO false hk).trans ?_
    by_cases hks : k = slot <;> simp [hks]
  · rw [hrsp, fieldOf_foldl_putWord_low d _ (fun k hk => List.mem_range.1 hk)]
    exact fieldOf_putBits_low _ _ (by omega)
  · rw [hrsp]
    exact fieldOf_foldl_putWord _ hd hk le_rfl
  · rw [heq]
    exact State.fget_raise_same _ _ _ _ _
  · have hon' : (u.fset F.MGT_SVC_GO (putBit (s.fget F.MGT_SVC_GO) slot false)).fbit (evten F.MGT_EVT_SVC) = true := by
      rw [State.fbit, State.fget_fset_ne _ _ (by decide), hfget]
      exact hon
    rw [heq, State.evq_raise_on _ _ _ _ _ hon', List.getLast?_append, State.seq_raise, State.ptime_raise]
    rfl

/-- The events of the loader are registers of SCH. -/
theorem key_ne_ldevt_of_block (k : Nat) {f : Fld} (hf : f.block ≠ 6) : f.key ≠ (⟨0x60006c, k % 32, 1, 0⟩ : Fld).key := by
  intro h
  have hkey : (⟨0x60006c, k % 32, 1, 0⟩ : Fld).key = 0x60006c * 32 + k % 32 := rfl
  have haddr : f.key / 32 = 0x60006c := by omega
  exact hf (by rw [Fld.block, haddr]; rfl)

/-- What a refused BOOT stream leaves: the event of its check, no pair changed. -/
theorem bootRefuse_sets {slot : Nat} {r : Nat × Option (List Nat)} {s : State} (hslot : slot < 4)
    (hgo : nbit (s.fget F.MGT_SVC_GO) slot = true) (hcode : r.1 < 2 ^ 16) :
    let t := bootRefuse slot r s
    answered slot 3 r.1 [] s t ∧ t.mgt.pairs = s.mgt.pairs ∧ t.mgt.fpa = s.mgt.fpa := by
  obtain ⟨p, u, hmgt, hregs, heq⟩ : ∃ p, ∃ u : State, u.mgt = s.mgt ∧ u.fields = s.fields ∧
      bootRefuse slot r s = svcRespond slot 3 r.1 [] (loadRaise (r.1 - 0x10) p u) := by
    unfold bootRefuse
    split
    · exact ⟨_, s, rfl, rfl, rfl⟩
    · exact ⟨_, s.freshNat.2.freshNat.2, rfl, rfl, rfl⟩
  have hraised : (loadRaise (r.1 - 0x10) p u).mgt = s.mgt := (State.mgt_raise _ _ _ _ _).trans hmgt
  have hfields : ∀ f : Fld, f.block = 2 → (loadRaise (r.1 - 0x10) p u).fget f = s.fget f := by
    intro f hf
    rw [loadRaise, State.fget_raise_ne _ _ _ _ (key_ne_ldevt_of_block _ (by rw [hf]; decide)), State.fget, State.fget, hregs]
  obtain ⟨⟨a, k, hans⟩, -⟩ := answersOnly_svcRespond slot 3 r.1 [] (loadRaise (r.1 - 0x10) p u)
  intro t
  have ht : t = svcRespond slot 3 r.1 [] (loadRaise (r.1 - 0x10) p u) := heq
  rw [ht]
  refine ⟨answered_from (svcRespond_answered_words [] _ hslot ?_ (by decide) hcode) hraised hfields, ?_, ?_⟩
  · rw [hfields _ (by decide)]
    exact hgo
  · rw [hans, hraised]
  · rw [hans, hraised]

end Sys2Proof.Machine
end

section
/-! FW_UPDATE (R320, R527). -/
namespace Sys2Proof.Machine

/-- The bytes of a stream that the host gives, or that HBM holds without errors. -/
def streamGiven (a n : Nat) (stream b : List Byte) (s : State) : Prop :=
  (isHost a = true ∧ stream.length = n ∧ b = stream) ∨
    (isHbm a = true ∧ isHbm (a + n - 1) = true ∧ s.umem.bad = [] ∧ b = s.bytes a n)

theorem isUser_of_isHost {a : Nat} (h : isHost a = true) : isUser a = false := by
  simp only [isHost, Bool.and_eq_true, decide_eq_true_eq] at h
  simp only [isUser, isLex, isHbm, Bool.or_eq_false_iff, Bool.and_eq_false_iff, decide_eq_false_iff_not]
  omega

/-- Firmware reads a given stream as it stands. -/
theorem svcBytes_of_given {a n : Nat} {stream b : List Byte} {s : State} (h : streamGiven a n stream b s) :
    ∃ o, svcBytes a n stream s = (b, { s with out := o }) := by
  obtain ⟨hhost, hlen, rfl⟩ | ⟨hhbm, -, hbad, rfl⟩ := h
  · refine ⟨s.out ++ [.hostRead ((s.hostXlate a).getD 0) n], ?_⟩
    rw [svcBytes, if_neg (Bool.eq_false_iff.1 (isUser_of_isHost hhost)), hlen, Nat.sub_self,
      List.replicate_zero, List.append_nil, List.take_of_length_le hlen.le]
    rfl
  · have huser : isUser a = true := by rw [isUser, hhbm, Bool.or_true]
    refine ⟨s.out, (if_pos huser).trans ?_⟩
    rw [portRead_of_clean_hbm hhbm hbad]

/-! ### What refuses a stream -/

theorem bootStream_code {b : List Byte} {c : Nat} (h : bootStream b = .inr c) : c < 2 ^ 16 := by
  unfold bootStream at h
  split at h
  · cases h; decide
  · split_ifs at h
    · cases h; decide
    · dsimp only at h
      split at h
      · cases h; decide
      · split_ifs at h
        · cases h; decide
        · split at h
          · cases h; decide
          · cases h

theorem bootCheck_code {b : List Byte} {s : State} {e : Nat × Option (List Nat)} (h : s.bootCheck b = .inr e) : e.1 < 2 ^ 16 := by
  unfold State.bootCheck at h
  split at h
  · rename_i c hc
    cases h
    exact bootStream_code hc
  · split_ifs at h
    · cases h; exact (by decide : 0x1A < 2 ^ 16)
    · cases h; exact (by decide : 0x15 < 2 ^ 16)
    · cases h; exact (by decide : 0x16 < 2 ^ 16)
    · split at h
      · cases h; exact (by decide : 0x16 < 2 ^ 16)
      · cases h; exact (by decide : 0x14 < 2 ^ 16)
    · split at h
      · cases h; exact (by decide : 0x16 < 2 ^ 16)
      · cases h

theorem updateRefusal_code {b : List Byte} {s : State} {e : Nat × Option (List Nat)} (h : s.updateRefusal b = .inr e) :
    e.1 < 2 ^ 16 := by
  unfold State.updateRefusal at h
  split at h
  · cases h; exact (by decide : 0x13 < 2 ^ 16)
  · split_ifs at h
    · cases h; exact (by decide : 0x13 < 2 ^ 16)
    · cases h; exact (by decide : 0x1A < 2 ^ 16)
    · split at h
      · split_ifs at h
        cases h; exact (by decide : 0x19 < 2 ^ 16)
      · cases h

/-- A stream of a generation that is not newer is refused with LOAD_GEN. -/
theorem updateRefusal_of_older {b h : List Byte} {p : Nat} {r : DirRec} {s : State} (hhead : streamHeader b = some h)
    (hlen : b.length ≤ streamMax) (hcls : hdrClass h = clsBoot) (hrec : s.newestRec = some (p, r))
    (hold : genNewer (hdrGen h) (r.gen r.boot) = false) :
    s.updateRefusal b = .inr (0x19, some [hdrGen h, r.gen r.boot, s.freshNat.1]) := by
  simp [State.updateRefusal, hhead, hlen.not_gt, hcls, hrec, hold]

theorem length_of_updateRefusal {b h : List Byte} {s : State} (hok : s.updateRefusal b = .inl h) : b.length ≤ streamMax := by
  unfold State.updateRefusal at hok
  split at hok
  · cases hok
  · split_ifs at hok
    all_goals omega

theorem updateRefusal_of_out (b : List Byte) (o : List Emit) (s : State) :
    ({ s with out := o } : State).updateRefusal b = s.updateRefusal b := rfl

/-- The checks of a stream read the fuses and the keys alone. -/
theorem bootCheck_of_same {b : List Byte} (o : List Emit) (f : List Host.Cell) (s : State) :
    ({ s with out := o, flash := f } : State).bootCheck b = s.bootCheck b := rfl

/-! ### The slot that is written -/

theorem updateSlot_lt (s : State) : s.updateSlot < 2 := by
  unfold State.updateSlot
  dsimp only
  split_ifs
  · omega
  · split
    · omega
    · decide

/-- A slot erased and written. -/
def slotWritten (k : Nat) (b : List Byte) (s : State) : State :=
  (s.flashErase (slotBase k) (slotSize k)).flashWrite (slotBase k) b

theorem slotWritten_sets {k : Nat} {b : List Byte} (hk : k < 2) (hb : b.length ≤ streamMax) (s : State) :
    let t := slotWritten k b s
    (∃ f, t = { s with flash := f }) ∧ t.flashRead (slotBase k) b.length = b ∧
      ∀ o, o < slotBase k ∨ slotBase k + slotSize k ≤ o → t.flashGet o = s.flashGet o := by
  have hfits : b.length ≤ slotSize k ∧ 0x10000 ≤ slotBase k ∧ slotBase k + b.length ≤ 0x0F000000 := by
    unfold streamMax at hb
    interval_cases k <;> simp only [slotSize, slotBase] <;> omega
  obtain ⟨hsize, hbase, hend⟩ := hfits
  have hgold : ∀ i, i < b.length → isGolden (slotBase k + i) = false := by
    intro i hi
    simp only [isGolden, Bool.and_eq_false_iff, decide_eq_false_iff_not]
    omega
  refine ⟨⟨_, rfl⟩, flashRead_flashWrite hgold, fun o ho => ?_⟩
  rw [slotWritten, flashGet_flashWrite_outside (by omega), flashGet_flashErase_outside ho]

/-! ### The service -/

/-- The newest record once it no longer names the slot to be written. -/
def updateMid (run tgt : Nat) (cur : Option DirRec) : Option DirRec :=
  cur.map fun r => if r.boot = tgt then { r with seq := r.seq + 1, boot := run, valid := putBit r.valid tgt false } else r

/-- The flash once its newest record no longer names the slot to be written. -/
def updateNamed (tgt : Nat) (cur mid : Option DirRec) (s : State) : State :=
  match cur, mid with
  | some r, some m => if r.boot = tgt then commitRec m s else s
  | _, _ => s

/-- The record that names the slot written. -/
def updateRec (tgt gen len : Nat) (mid : Option DirRec) : DirRec :=
  let old : DirRec := mid.getD ⟨0, 0, 0, 0, 0, 0, 0⟩
  DirRec.put { old with seq := if mid.isSome then old.seq + 1 else 0, boot := tgt } tgt gen len

theorem directoryOnly_updateNamed (tgt : Nat) (cur mid : Option DirRec) (s : State) : directoryOnly s (updateNamed tgt cur mid s) := by
  unfold updateNamed
  split
  · split_ifs
    · exact directoryOnly_commitRec _ s
    · exact directoryOnly.refl s
  · exact directoryOnly.refl s

/-- The state in which an update reads back what it has written. -/
def updateWritten (b : List Byte) (s u : State) : State :=
  let cur := s.newestRec.map Prod.snd
  slotWritten s.updateSlot b (updateNamed s.updateSlot cur (updateMid (s.fget F.SCH_BOOT_SRC) s.updateSlot cur) u)

/-- The end of an update: what was read back is refused, or a record names it. -/
def updateEnd (slot tgt : Nat) (r : DirRec) (s : State) : BootStream ⊕ Nat × Option (List Nat) → State
  | .inr e => bootRefuse slot e s
  | .inl _ => svcRespond slot 0 0 [tgt] (commitRec r s)

section
variable {slot : Nat} {stream b : List Byte} {s u : State} (hb : svcBytes (s.reqAddr slot) (s.reqLen slot) stream s = (b, u))
include hb

theorem fwUpdate_of_refused {e : Nat × Option (List Nat)} (h : u.updateRefusal b = .inr e) :
    fwUpdate slot stream s = bootRefuse slot e u := by
  simp only [fwUpdate, hb, h]

theorem fwUpdate_of_newer {h : List Byte} (hok : u.updateRefusal b = .inl h) : ∃ r, fwUpdate slot stream s =
    updateEnd slot s.updateSlot r (updateWritten b s u)
      ((updateWritten b s u).bootCheck ((updateWritten b s u).flashRead (slotBase s.updateSlot) b.length)) := by
  refine ⟨updateRec s.updateSlot (hdrGen h) b.length
    (updateMid (s.fget F.SCH_BOOT_SRC) s.updateSlot (s.newestRec.map Prod.snd)), ?_⟩
  unfold fwUpdate
  simp only [hb, hok]
  rfl

end

end Sys2Proof.Machine
end

section
/-! The outcome of FW_UPDATE (R320). -/
namespace Sys2Proof.Machine

theorem bootRefuse_steady (slot : Nat) (r : Nat × Option (List Nat)) (s : State) :
    (bootRefuse slot r s).flash = s.flash ∧ steady s (bootRefuse slot r s) :=
  have hframe := bootRefuse_frame slot r (Fr.refl 0x88400090 s) rfl
  ⟨hframe.h_flash rfl, hframe.h_seq rfl, hframe.h_clauses rfl, hframe.h_mem rfl⟩

theorem svcRespond_steady (slot status ev : Nat) (d : List Nat) (s : State) :
    (svcRespond slot status ev d s).flash = s.flash ∧ steady s (svcRespond slot status ev d s) :=
  have hframe := svcRespond_frame slot status ev d (Fr.refl 0x8400090 s) rfl
  ⟨hframe.h_flash rfl, hframe.h_seq rfl, hframe.h_clauses rfl, hframe.h_mem rfl⟩

/-- From s to t what goes out and the flash change at most. -/
def storeOnly (s t : State) : Prop := ∃ o f, t = { s with out := o, flash := f }

theorem storeOnly.steady {s t : State} (h : storeOnly s t) : steady s t := by
  obtain ⟨o, f, rfl⟩ := h
  exact ⟨rfl, rfl, rfl⟩

theorem storeOnly.of_directory {s t u : State} (h : storeOnly s t) (g : directoryOnly t u) : storeOnly s u := by
  obtain ⟨o, f, rfl⟩ := h
  obtain ⟨⟨f, rfl⟩, -⟩ := g
  exact ⟨o, f, rfl⟩

theorem storeOnly.bootCheck {s t : State} (h : storeOnly s t) (b : List Byte) : t.bootCheck b = s.bootCheck b := by
  obtain ⟨o, f, rfl⟩ := h
  exact bootCheck_of_same o f s

theorem storeOnly.answered {slot status ev : Nat} {d : List Nat} {s t u : State} (h : storeOnly s t)
    (hans : answered slot status ev d t u) : answered slot status ev d s u := by
  obtain ⟨o, f, rfl⟩ := h
  exact answered_from hans rfl fun _ _ => rfl

theorem storeOnly.fget {s t : State} (h : storeOnly s t) (f : Fld) : t.fget f = s.fget f := by
  obtain ⟨o, f, rfl⟩ := h
  rfl

theorem steady.trans {s t u : State} (h : steady s t) (g : steady t u) : steady s u :=
  ⟨g.1.trans h.1, g.2.1.trans h.2.1, g.2.2.trans h.2.2⟩

section
variable {slot : Nat} {b : List Byte} {s : State} (hslot : slot < 4) (hgo : nbit (s.fget F.MGT_SVC_GO) slot = true)

/-- What an update has written before it reads it back. -/
theorem updateWritten_sets {o : List Emit} (hb : b.length ≤ streamMax) :
    let w := updateWritten b s { s with out := o }
    storeOnly s w ∧ w.flashRead (slotBase s.updateSlot) b.length = b ∧
      ∀ a, 0x10000 ≤ a → a < slotBase s.updateSlot ∨ slotBase s.updateSlot + slotSize s.updateSlot ≤ a →
        w.flashGet a = s.flashGet a := by
  obtain ⟨⟨g, hg⟩, hdir⟩ := directoryOnly_updateNamed s.updateSlot (s.newestRec.map Prod.snd)
    (updateMid (s.fget F.SCH_BOOT_SRC) s.updateSlot (s.newestRec.map Prod.snd)) { s with out := o }
  obtain ⟨⟨f, hf⟩, hread, hout⟩ := slotWritten_sets (updateSlot_lt s) hb (updateNamed s.updateSlot (s.newestRec.map Prod.snd)
    (updateMid (s.fget F.SCH_BOOT_SRC) s.updateSlot (s.newestRec.map Prod.snd)) { s with out := o })
  refine ⟨⟨o, f, ?_⟩, hread, fun a ha hslotOut => (hout a hslotOut).trans (hdir a ha)⟩
  rw [updateWritten, hf, hg]

include hslot hgo

/-- What an update that wrote its slot answers. -/
theorem updateEnd_sets {w : State} (r : DirRec) (hw : storeOnly s w) :
    let t := updateEnd slot s.updateSlot r w (s.bootCheck b)
    steady s t ∧ (∀ a, 0x10000 ≤ a → t.flashGet a = w.flashGet a) ∧
      (∀ e, s.bootCheck b = .inr e → answered slot 3 e.1 [] s t) ∧
      (∀ x, s.bootCheck b = .inl x → answered slot 0 0 [s.updateSlot] s t) := by
  have hgo' : ∀ {v : State}, storeOnly s v → nbit (v.fget F.MGT_SVC_GO) slot = true := fun hv => by rw [hv.fget]; exact hgo
  cases hcheck : s.bootCheck b with
  | inr e =>
    obtain ⟨hans, -, -⟩ := bootRefuse_sets hslot (hgo' hw) (bootCheck_code hcheck)
    obtain ⟨hflash, hsteady⟩ := bootRefuse_steady slot e w
    refine ⟨hw.steady.trans hsteady, fun a _ => flashGet_of_flash hflash a, fun e' he => ?_, fun x hx => nomatch hx⟩
    cases he
    exact hw.answered hans
  | inl x =>
    have hdir := directoryOnly_commitRec r w
    have hv := hw.of_directory hdir
    obtain ⟨hflash, hsteady⟩ := svcRespond_steady slot 0 0 [s.updateSlot] (commitRec r w)
    refine ⟨hv.steady.trans hsteady, fun a ha => (flashGet_of_flash hflash a).trans (hdir.2 a ha), (fun e he => nomatch he),
      fun _ _ => ?_⟩
    exact hv.answered (svcRespond_answered_words [s.updateSlot] _ hslot (hgo' hv) (by decide) (by decide))

end

section
variable {slot : Nat} {stream b : List Byte} {s : State} (hdue : s.svcDue slot 2 = true) (hfree : s.svcFree slot = true)
  (hsrc : s.fget F.SCH_BOOT_SRC ≠ 3) (harg : s.badArg slot 2 = false)
  (hgiven : streamGiven (s.reqAddr slot) (s.reqLen slot) stream b s)
include hdue hfree hsrc harg

theorem exec_fwUpdate_of_due : exec (.fwUpdate slot stream) s = .next (fwUpdate slot stream s) :=
  congrArg Host.Outcome.next (service_of_due (fwUpdate slot stream) hdue hfree hsrc harg)

omit hfree hsrc harg

include hgiven

theorem fwUpdate_refused {e : Nat × Option (List Nat)} (h : s.updateRefusal b = .inr e) :
    let t := fwUpdate slot stream s
    steady s t ∧ answered slot 3 e.1 [] s t ∧ t.flash = s.flash ∧
      (∀ hd p r, streamHeader b = some hd → b.length ≤ streamMax → hdrClass hd = clsBoot → s.newestRec = some (p, r) →
        genNewer (hdrGen hd) (r.gen r.boot) = false → e.1 = 0x19) := by
  obtain ⟨hslot, hgo⟩ := requested_of_svcDue hdue
  obtain ⟨o, hb⟩ := svcBytes_of_given hgiven
  have hu : storeOnly s { s with out := o } := ⟨o, s.flash, rfl⟩
  obtain ⟨hans, -, -⟩ := bootRefuse_sets (s := { s with out := o }) hslot hgo (updateRefusal_code h)
  obtain ⟨hflash, hsteady⟩ := bootRefuse_steady slot e { s with out := o }
  rw [fwUpdate_of_refused hb h]
  refine ⟨hu.steady.trans hsteady, hu.answered hans, hflash, fun hd p r hhead hlen hcls hrec hold => ?_⟩
  cases h.symm.trans (updateRefusal_of_older hhead hlen hcls hrec hold)
  rfl

theorem fwUpdate_newer {h : List Byte} (hok : s.updateRefusal b = .inl h) :
    let t := fwUpdate slot stream s
    steady s t ∧ t.flashRead (slotBase s.updateSlot) b.length = b ∧
      (∀ a, 0x10000 ≤ a → a < slotBase s.updateSlot ∨ slotBase s.updateSlot + slotSize s.updateSlot ≤ a →
        t.flashGet a = s.flashGet a) ∧
      (∀ e, s.bootCheck b = .inr e → answered slot 3 e.1 [] s t) ∧
      (∀ x, s.bootCheck b = .inl x → answered slot 0 0 [s.updateSlot] s t) := by
  obtain ⟨hslot, hgo⟩ := requested_of_svcDue hdue
  obtain ⟨o, hb⟩ := svcBytes_of_given hgiven
  obtain ⟨hw, hread, hout⟩ := updateWritten_sets (s := s) (o := o) (length_of_updateRefusal hok)
  obtain ⟨r, heq⟩ := fwUpdate_of_newer hb hok
  rw [hread, hw.bootCheck] at heq
  obtain ⟨hsteady, hflash, hrefused, hanswered⟩ := updateEnd_sets (b := b) hslot hgo r hw
  have hbase : 0x10000 ≤ slotBase s.updateSlot := by
    have hlt := updateSlot_lt s
    interval_cases s.updateSlot <;> decide
  rw [heq]
  refine ⟨hsteady, ?_, fun a ha hs => (hflash a ha).trans (hout a ha hs), hrefused, hanswered⟩
  refine (List.map_congr_left fun i _ => ?_).trans hread
  exact hflash _ (by omega)

end

end Sys2Proof.Machine
end

section
/-! FW_SWAP (R525). -/
namespace Sys2Proof.Machine

/-! ### The security pair moves (R522, R525) -/

/-- A pair that the boot ROM starts with content c from an image. -/
def Pair.reloads (c : List Byte) (from_ : Nat) (x : Pair) : Pair :=
  { x with
    halted := false, waitM := false, lr := none, priv := 3, pc := BitVec.ofNat 64 (0x80180000 + fwEntry c)
    entry := fwEntry c, fwver := fwVer c, dig := Config.sm3 c, from_ := from_ }

theorem keyxAbort_mgt (s : State) : (keyxAbort s).mgt = s.mgt := (keyxAbort_frame (Fr.refl 0x4000080080 s) rfl).h_mgt rfl

/-- No key exchange is open after one is aborted. -/
theorem keyx_keyxAbort (s : State) : (keyxAbort s).dbg.keyx = none := by
  unfold keyxAbort
  split
  · exact (congrArg Dbg.keyx (keyxEnd_sets (r := 3) s (by decide)).1 :)
  · assumption

theorem mgt_store (a : Nat) (bs : List Byte) (s : State) : (s.store a bs).mgt = s.mgt := by
  obtain ⟨m, hm⟩ := store_mem_only s a bs
  rw [hm]

theorem secReload_sets (c : List Byte) (k : Nat) (s : State) :
    let t := secReload c k s
    t.mgt = (s.modPair 1 (Pair.reloads c k)).mgt ∧ t.dbg.keyx = none := by
  refine ⟨(keyxAbort_mgt _).trans ?_, keyx_keyxAbort _⟩
  have hmgt := mgt_store 0x80180000 c s
  show ((s.store 0x80180000 c).modPair 1 (Pair.reloads c k)).mgt = _
  rw [State.modPair, State.modPair, State.pair, State.pair, hmgt]

/-- A write of control SRAM changes of the management complex the marks of uncorrectable words at most. -/
theorem memWrite_sram_mgt {a : Nat} (m : Master) (bs : List Byte) (s : State) (huser : isUser a = false) (hhost : isHost a = false) :
    ∃ b, (memWrite m a bs s).2.mgt = { s.mgt with bad := b } := by
  unfold memWrite
  rw [if_neg (by simp [huser]), if_neg (by simp [hhost])]
  split
  · exact ⟨s.mgt.bad, State.mgt_raise _ _ _ _ _⟩
  · exact ⟨_, rfl⟩

/-! ### The swap begins -/

/-- The security pair reloaded and the handover record written: what a swap does before MGT_CODEBASE moves. -/
def swapHandover (slot : Nat) (x : BootStream) (k : Nat) (s : State) : State :=
  let s1 := secReload (x.firmware 1) k s
  let f := s1.freshBytes 4096
  let s2 := (memWrite .control 0x80000000 f.1 f.2).2
  { s2 with mgt := { s2.mgt with taken := putBit s2.mgt.taken slot true } }

theorem swapHandover_sets (slot : Nat) (x : BootStream) (k : Nat) (s : State) :
    let t := swapHandover slot x k s
    t.pair 1 = (s.pair 1).reloads (x.firmware 1) k ∧ nbit t.mgt.taken slot = true ∧ t.dbg.keyx = none := by
  obtain ⟨hmgt, hkeyx⟩ := secReload_sets (x.firmware 1) k s
  generalize hr : secReload (x.firmware 1) k s = r at hmgt hkeyx
  obtain ⟨b, hwrite⟩ := memWrite_sram_mgt (a := 0x80000000) .control (r.freshBytes 4096).1 (r.freshBytes 4096).2 (by decide) (by decide)
  have hdbg := (memWrite_frame .control 0x80000000 (r.freshBytes 4096).1 (Fr.refl 0x8084020a1 (r.freshBytes 4096).2) rfl).h_dbg rfl
  have heq : swapHandover slot x k s = { (memWrite .control 0x80000000 (r.freshBytes 4096).1 (r.freshBytes 4096).2).2 with
      mgt := { (memWrite .control 0x80000000 (r.freshBytes 4096).1 (r.freshBytes 4096).2).2.mgt with
        taken := putBit (memWrite .control 0x80000000 (r.freshBytes 4096).1 (r.freshBytes 4096).2).2.mgt.taken slot true } } := by
    rw [← hr]
    rfl
  generalize (memWrite .control 0x80000000 (r.freshBytes 4096).1 (r.freshBytes 4096).2).2 = v at hwrite hdbg heq
  have hpairs : v.mgt.pairs = (s.modPair 1 (Pair.reloads (x.firmware 1) k)).mgt.pairs := by
    rw [hwrite]
    exact (congrArg Mgt.pairs hmgt :)
  rw [heq]
  refine ⟨?_, (nbit_putBit _ _ _ _).trans (if_pos rfl), ?_⟩
  · show kvGet {} v.mgt.pairs 1 = _
    rw [hpairs]
    exact State.pair_modPair_same s 1 _
  · exact (congrArg Dbg.keyx hdbg :).trans hkeyx

/-- What moving MGT_CODEBASE starts, and what it leaves to the security pair. -/
theorem codebaseSet_begins (v : Nat) (s : State) :
    let t := codebaseSet v s
    t.fget F.MGT_STAT_SWAP_BUSY = 1 ∧ t.fget F.MGT_CODEBASE_SECBASE = v % 2 ^ 24 ∧ t.mgt.swap ≠ none ∧
      t.mgt.taken = s.mgt.taken ∧ t.pair 1 = s.pair 1 ∧ t.dbg = s.dbg := by
  obtain ⟨k, gen, -, heq⟩ := codebaseSet_eq v s
  generalize s.firmwareAt (v % 2 ^ 24 * 16) = c at heq
  obtain ⟨hswap, -, hpairs⟩ := swapStarted_sets c k gen s
  have hleft : (swapStarted c k gen s).mgt.taken = s.mgt.taken ∧ (swapStarted c k gen s).dbg = s.dbg := ⟨rfl, rfl⟩
  obtain ⟨htaken, hdbg⟩ := hleft
  generalize swapStarted c k gen s = u at *
  rw [heq]
  refine ⟨State.fget_fset_same _ _ _, ?_, ?_, htaken, hpairs 1 (by decide), hdbg⟩
  · rw [State.fget_fset_ne _ _ (by decide), State.fget_fset_same]
    rfl
  · rw [State.mgt_fset, State.mgt_fset, hswap]
    exact Option.some_ne_none _

theorem fwSwap_frames (slot : Nat) (s : State) :
    (fwSwap slot s).flash = s.flash ∧ (fwSwap slot s).seq = s.seq ∧ (fwSwap slot s).clauses = s.clauses :=
  have hframe := fwSwap_frame slot (Fr.refl 0x48884820b1 s) rfl
  ⟨hframe.h_flash rfl, hframe.h_seq rfl, hframe.h_clauses rfl⟩

section
variable {slot : Nat} {s : State}

theorem fwSwap_of_waiting (h : ∃ k, k < 4 ∧ k ≠ slot ∧ nbit s.mgt.taken k = true) : fwSwap slot s = s := by
  obtain ⟨k, hk, hne, htaken⟩ := h
  exact if_pos (List.any_eq_true.2 ⟨k, List.mem_range.2 hk, by simp [hne, htaken]⟩)

variable (halone : ∀ k, k < 4 → k ≠ slot → nbit s.mgt.taken k = false)
include halone

theorem no_service_waits : ((List.range 4).any fun k => k != slot && nbit s.mgt.taken k) ≠ true := by
  intro h
  obtain ⟨k, hk, hother⟩ := List.any_eq_true.1 h
  simp only [Bool.and_eq_true, bne_iff_ne] at hother
  exact absurd (halone k (List.mem_range.1 hk) hother.1) (by simp [hother.2])

theorem fwSwap_of_no_record (hrec : s.newestRec = none) : fwSwap slot s = svcRespond slot 5 0 [] s := by
  rw [fwSwap, if_neg (no_service_waits halone)]
  simp only [hrec]

variable {p : Nat} {r : DirRec} (hrec : s.newestRec = some (p, r))
include hrec

theorem fwSwap_of_running (hrun : r.boot = (s.pair 0).from_) : fwSwap slot s = svcRespond slot 5 0 [] s := by
  rw [fwSwap, if_neg (no_service_waits halone)]
  simp only [hrec, if_pos hrun]

variable (hrun : r.boot ≠ (s.pair 0).from_)
include hrun

theorem fwSwap_of_refused {e : Nat × Option (List Nat)} (hcheck : s.bootCheck (s.slotBytes r.boot) = .inr e) :
    fwSwap slot s = bootRefuse slot e s := by
  rw [fwSwap, if_neg (no_service_waits halone)]
  simp only [hrec, if_neg hrun, hcheck]

theorem fwSwap_of_accepted {x : BootStream} (hcheck : s.bootCheck (s.slotBytes r.boot) = .inl x) :
    fwSwap slot s = codebaseSet ((slotBase r.boot + 528 * x.fwFrame 0) / 16) (swapHandover slot x r.boot s) := by
  rw [fwSwap, if_neg (no_service_waits halone)]
  simp only [hrec, if_neg hrun, hcheck]
  rfl

theorem fwSwap_begins {x : BootStream} (hcheck : s.bootCheck (s.slotBytes r.boot) = .inl x) :
    let t := fwSwap slot s
    t.fget F.MGT_STAT_SWAP_BUSY = 1 ∧ nbit t.mgt.taken slot = true ∧ t.mgt.swap ≠ none ∧
      t.fget F.MGT_CODEBASE_SECBASE = (slotBase r.boot + 528 * x.fwFrame 0) / 16 % 2 ^ 24 ∧
      t.pair 1 = (s.pair 1).reloads (x.firmware 1) r.boot ∧ t.dbg.keyx = none := by
  obtain ⟨hpair, htaken, hkeyx⟩ := swapHandover_sets slot x r.boot s
  obtain ⟨hbusy, hbase, hswap, htaken', hpair', hdbg⟩ :=
    codebaseSet_begins ((slotBase r.boot + 528 * x.fwFrame 0) / 16) (swapHandover slot x r.boot s)
  rw [fwSwap_of_accepted halone hrec hrun hcheck]
  exact ⟨hbusy, (congrArg (nbit · slot) htaken').trans htaken, hswap, hbase, hpair'.trans hpair, (congrArg Dbg.keyx hdbg).trans hkeyx⟩

end

end Sys2Proof.Machine
end

section
/-! FW_HOTFIX (R523, R524, R527). -/
namespace Sys2Proof.Machine

/-- The registers of the staged patch units. -/
def fpuFields : List Fld := (List.range 16).flatMap fun u => [F.MGT_FPU_LINE u, F.MGT_FPU_MODE u, F.MGT_FPU_EN u]

theorem mem_fpuFields (u : Nat) : F.MGT_FPU_LINE u ∈ fpuFields ∧ F.MGT_FPU_MODE u ∈ fpuFields ∧ F.MGT_FPU_EN u ∈ fpuFields := by
  have hwrap : F.MGT_FPU_LINE u = F.MGT_FPU_LINE (u % 16) ∧ F.MGT_FPU_MODE u = F.MGT_FPU_MODE (u % 16) ∧
      F.MGT_FPU_EN u = F.MGT_FPU_EN (u % 16) := by
    simp only [F.MGT_FPU_LINE, F.MGT_FPU_MODE, F.MGT_FPU_EN, Nat.mod_mod, and_self]
  obtain ⟨hline, hmode, hen⟩ := hwrap
  have hunit := List.mem_range.2 (Nat.mod_lt u (show 16 > 0 by decide))
  rw [hline, hmode, hen]
  exact ⟨List.mem_flatMap.2 ⟨_, hunit, by simp⟩, List.mem_flatMap.2 ⟨_, hunit, by simp⟩, List.mem_flatMap.2 ⟨_, hunit, by simp⟩⟩

/-- From s to t patches are staged at most. -/
def stagesOnly (s t : State) : Prop :=
  (∃ m d, t = { s with fields := m, mgt := { s.mgt with fpd := d } }) ∧ onlyFields fpuFields s t

theorem stagesOnly_fpStage (c : List Byte) (k : Nat) (s : State) : stagesOnly s (fpStage c k s) := by
  obtain ⟨hline, hmode, hen⟩ := mem_fpuFields k
  refine ⟨⟨_, _, rfl⟩, ?_⟩
  exact onlyFields_to ((((onlyFields.refl _ s).fset hline ((fwPatch c k).1 / 32)).fset hmode 0).fset hen 1) rfl

/-- The patches of some numbers staged in turn. -/
def stagedAll (c : List Byte) (ks : List Nat) (s : State) : State := ks.foldl (fun s k => fpStage c k s) s

theorem stagesOnly_stagedAll (c : List Byte) : ∀ (ks : List Nat) (s : State), stagesOnly s (stagedAll c ks s)
  | [], s => ⟨⟨s.fields, s.mgt.fpd, rfl⟩, onlyFields.refl _ s⟩
  | k :: ks, s => by
    obtain ⟨⟨m, d, hk⟩, honly⟩ := stagesOnly_fpStage c k s
    obtain ⟨⟨m', d', hks⟩, honly'⟩ := stagesOnly_stagedAll c ks (fpStage c k s)
    refine ⟨⟨m', d', ?_⟩, honly.trans honly'⟩
    rw [hk] at hks
    exact (congrArg (stagedAll c ks) hk).trans hks

theorem fget_fpStage (c : List Byte) (k : Nat) (s : State) (f : Fld) : (fpStage c k s).fget f =
    (((s.fset (F.MGT_FPU_LINE k) ((fwPatch c k).1 / 32)).fset (F.MGT_FPU_MODE k) 0).fset (F.MGT_FPU_EN k) 1).fget f := rfl

theorem fget_fpStage_same (c : List Byte) (k : Nat) (s : State) :
    (fpStage c k s).fget (F.MGT_FPU_EN k) = 1 ∧ (fpStage c k s).fget (F.MGT_FPU_MODE k) = 0 := by
  have hne : (F.MGT_FPU_MODE k).key ≠ (F.MGT_FPU_EN k).key := by
    simp only [Fld.key, F.MGT_FPU_MODE, F.MGT_FPU_EN]
    omega
  rw [fget_fpStage, fget_fpStage, State.fget_fset_ne _ _ hne, State.fget_fset_same, State.fget_fset_same]
  exact ⟨rfl, rfl⟩

theorem fget_fpStage_ne (c : List Byte) {j k : Nat} (s : State) (hj : j < 16) (hk : k < 16) (hne : k ≠ j) :
    (fpStage c j s).fget (F.MGT_FPU_EN k) = s.fget (F.MGT_FPU_EN k) ∧
      (fpStage c j s).fget (F.MGT_FPU_MODE k) = s.fget (F.MGT_FPU_MODE k) := by
  have hkeys : ∀ f ∈ [F.MGT_FPU_EN k, F.MGT_FPU_MODE k],
      f.key ≠ (F.MGT_FPU_EN j).key ∧ f.key ≠ (F.MGT_FPU_MODE j).key ∧ f.key ≠ (F.MGT_FPU_LINE j).key := by
    simp only [List.mem_cons, List.not_mem_nil, or_false]
    rintro f (rfl | rfl) <;> simp only [Fld.key, F.MGT_FPU_LINE, F.MGT_FPU_MODE, F.MGT_FPU_EN] <;> omega
  have hget : ∀ f ∈ [F.MGT_FPU_EN k, F.MGT_FPU_MODE k], (fpStage c j s).fget f = s.fget f := by
    intro f hf
    obtain ⟨hen, hmode, hline⟩ := hkeys f hf
    rw [fget_fpStage, State.fget_fset_ne _ _ hen, State.fget_fset_ne _ _ hmode, State.fget_fset_ne _ _ hline]
  exact ⟨hget _ (by simp), hget _ (by simp)⟩

/-- Each patch of the list is staged as an enabled REMAP unit. -/
theorem fget_stagedAll (c : List Byte) {k : Nat} : ∀ {ks : List Nat} (s : State), (∀ j ∈ ks, j < 16) → k ∈ ks →
    (stagedAll c ks s).fget (F.MGT_FPU_EN k) = 1 ∧ (stagedAll c ks s).fget (F.MGT_FPU_MODE k) = 0 := by
  intro ks
  induction ks using List.reverseRecOn with
  | nil => exact fun _ _ h => absurd h List.not_mem_nil
  | append_singleton ks j ih =>
    intro s hks hk
    have hlast : stagedAll c (ks ++ [j]) s = fpStage c j (stagedAll c ks s) := by
      rw [stagedAll, List.foldl_append]
      rfl
    rw [hlast]
    by_cases hkj : k = j
    · rw [hkj]
      exact fget_fpStage_same c j _
    · obtain ⟨hen, hmode⟩ := fget_fpStage_ne c (stagedAll c ks s) (hks j (by simp)) (hks k hk) hkj
      rw [hen, hmode]
      exact ih s (fun i hi => hks i (List.mem_append_left _ hi))
        ((List.mem_append.1 hk).resolve_right fun h => hkj (List.mem_singleton.1 h))

/-! ### The units become active (R524) -/

/-- The state in which staged units become active, whatever PERM told of an earlier one. -/
def permCleared (s : State) : State :=
  if s.mgt.perm then { s with mgt := { s.mgt with perm := false } }.fset F.MGT_FPCTL_RESULT 1 else s

/-- Firmware applies a second time where the first answered PERM. -/
def fpApplied (perm : Bool) (s : State) : State := if perm then fpApply (fpApply s) else fpApply s

theorem fpApplied_eq (s : State) : fpApplied s.mgt.perm s = fpApply (permCleared s) := by
  unfold fpApplied permCleared
  split_ifs with hperm
  · rw [fpApply_refused hperm]
  · rfl

theorem permCleared_sets (s : State) :
    (permCleared s).mgt = { s.mgt with perm := false } ∧ onlyFields [F.MGT_FPCTL_RESULT] s (permCleared s) := by
  unfold permCleared
  split_ifs with hperm
  · exact ⟨rfl, onlyFields.fset (t := { s with mgt := { s.mgt with perm := false } }) (onlyFields.refl _ s) (by simp) 1⟩
  · refine ⟨?_, onlyFields.refl _ s⟩
    rw [← Bool.eq_false_iff.2 hperm]

theorem fpApply_mgt {s : State} (h : s.mgt.perm = false) : ∃ a, (fpApply s).mgt = { s.mgt with fpa := a } := by
  obtain ⟨m, -, hfp⟩ := fpSwap_eq s
  have happly : fpApply s = (fpSwap s).fset F.MGT_FPCTL_RESULT 0 := if_neg (Bool.eq_false_iff.1 h)
  rw [happly, hfp]
  exact ⟨m, rfl⟩

theorem fpApply_leaves (s : State) : (fpApply s).flash = s.flash ∧ steady s (fpApply s) :=
  have hframe := fpApply_frame (Fr.refl 0x8400000 s) rfl
  ⟨hframe.h_flash rfl, hframe.h_seq rfl, hframe.h_clauses rfl, hframe.h_mem rfl⟩

end Sys2Proof.Machine
end

section
/-! The outcome of FW_HOTFIX (R527). -/
namespace Sys2Proof.Machine

/-- What an answer needs of the state it is given in: the request, its GO bit and the enable of its event. -/
theorem answered_of_request {slot status ev : Nat} {d : List Nat} {s u t : State} (h : answered slot status ev d u t)
    (hreq : u.mgt.req = s.mgt.req) (hgo : u.fget F.MGT_SVC_GO = s.fget F.MGT_SVC_GO)
    (hen : u.fget (evten F.MGT_EVT_SVC) = s.fget (evten F.MGT_EVT_SVC)) : answered slot status ev d s t := by
  unfold answered State.reqTag State.reqCode State.reqA State.fbit at *
  rw [hreq, hgo, hen] at h
  exact h

/-- The registers that a hotfix changes. -/
def hotfixFields : List Fld := [F.MGT_STAT_REMAP, F.MGT_FPCTL_RESULT] ++ fpuFields

/-- The patches of a hotfix staged and active. -/
def hotfixed (c : List Byte) (s : State) : State := fpApply (permCleared (stagedAll c (List.range (fwNpatch c)) s))

theorem permCleared_leaves (s : State) : (permCleared s).flash = s.flash ∧ steady s (permCleared s) := by
  unfold permCleared
  split_ifs
  · exact ⟨rfl, rfl, rfl, rfl⟩
  · exact ⟨rfl, rfl, rfl, rfl⟩

theorem hotfixed_leaves (c : List Byte) (s : State) :
    let t := hotfixed c s
    (∃ d a, t.mgt = { s.mgt with fpd := d, perm := false, fpa := a }) ∧ t.flash = s.flash ∧ steady s t ∧
      onlyFields hotfixFields s t := by
  obtain ⟨⟨m, d, hstaged⟩, honly⟩ := stagesOnly_stagedAll c (List.range (fwNpatch c)) s
  unfold hotfixed
  generalize stagedAll c (List.range (fwNpatch c)) s = w at hstaged honly ⊢
  obtain ⟨hmgt, hclear⟩ := permCleared_sets w
  obtain ⟨hflash, hsteady⟩ := permCleared_leaves w
  have hperm : (permCleared w).mgt.perm = false := by rw [hmgt]
  obtain ⟨a, happly⟩ := fpApply_mgt hperm
  obtain ⟨hflash', hsteady'⟩ := fpApply_leaves (permCleared w)
  obtain ⟨-, -, -, -, -, -, hactive⟩ := fpApply_active hperm
  have hw : w.mgt = { s.mgt with fpd := d } ∧ w.flash = s.flash ∧ steady s w := by
    rw [hstaged]
    exact ⟨rfl, rfl, rfl, rfl, rfl⟩
  obtain ⟨hwMgt, hwFlash, hwSteady⟩ := hw
  refine ⟨⟨d, a, by rw [happly, hmgt, hwMgt]⟩, hflash'.trans (hflash.trans hwFlash), hwSteady.trans (hsteady.trans hsteady'), ?_⟩
  exact (honly.mono (List.subset_append_right _ _)).trans
    ((hclear.mono (by simp)).trans (hactive.mono (List.subset_append_left _ _)))

theorem hotfixed_active (c : List Byte) (s : State) :
    let t := hotfixed c s
    t.fget F.MGT_FPCTL_RESULT = 0 ∧ t.fbit F.MGT_STAT_REMAP = t.mgt.remap ∧
      ∀ k, k < fwNpatch c → fwNpatch c ≤ 16 → ∃ u, kvGet none t.mgt.fpa k = some u ∧ u.en = true ∧ u.brk = false := by
  unfold hotfixed
  have hstaged := fun (k : Nat) (hk : k < fwNpatch c) (hn : fwNpatch c ≤ 16) =>
    fget_stagedAll c (k := k) s (fun j hj => lt_of_lt_of_le (List.mem_range.1 hj) hn) (List.mem_range.2 hk)
  generalize stagedAll c (List.range (fwNpatch c)) s = w at hstaged ⊢
  obtain ⟨hmgt, hclear⟩ := permCleared_sets w
  have hperm : (permCleared w).mgt.perm = false := by rw [hmgt]
  obtain ⟨hunits, hremap, hresult, -⟩ := fpApply_active hperm
  refine ⟨hresult, hremap, fun k hk hn => ⟨_, hunits k (by omega), ?_, ?_⟩⟩
  · have hne : (F.MGT_FPU_EN k).key ≠ F.MGT_FPCTL_RESULT.key := by
      simp only [Fld.key, F.MGT_FPU_EN, F.MGT_FPCTL_RESULT]
      omega
    show (permCleared w).fbit (F.MGT_FPU_EN k) = true
    rw [State.fbit, hclear _ (by simpa using hne), (hstaged k hk hn).1]
    rfl
  · have hne : (F.MGT_FPU_MODE k).key ≠ F.MGT_FPCTL_RESULT.key := by
      simp only [Fld.key, F.MGT_FPU_MODE, F.MGT_FPCTL_RESULT]
      omega
    show (permCleared w).fbit (F.MGT_FPU_MODE k) = false
    rw [State.fbit, hclear _ (by simpa using hne), (hstaged k hk hn).2]
    rfl

section
variable {slot : Nat} {stream b : List Byte} {s u : State} (hb : svcBytes (s.reqAddr slot) (s.reqLen slot) stream s = (b, u))
include hb

theorem fwHotfixSvc_of_refused {e : Nat × Option (List Nat)} (h : s.bootCheck b = .inr e) :
    fwHotfixSvc slot stream s = bootRefuse slot e u := by
  simp only [fwHotfixSvc, hb, h]

theorem fwHotfixSvc_of_other {x : BootStream} (h : s.bootCheck b = .inl x)
    (hother : fwHotfix (x.firmware 0) = false ∨ fwBasedig (x.firmware 0) ≠ (s.pair 0).dig.toNat) :
    fwHotfixSvc slot stream s = svcRespond slot 3 0 [] u := by
  have hcond : (!fwHotfix (x.firmware 0) || fwBasedig (x.firmware 0) != (s.pair 0).dig.toNat) = true := by simpa using hother
  simp only [fwHotfixSvc, hb, h]
  exact if_pos hcond

theorem fwHotfixSvc_of_running {x : BootStream} (h : s.bootCheck b = .inl x) (hperm : u.mgt.perm = s.mgt.perm)
    (hrun : ¬(fwHotfix (x.firmware 0) = false ∨ fwBasedig (x.firmware 0) ≠ (s.pair 0).dig.toNat)) :
    fwHotfixSvc slot stream s = svcRespond slot 0 0 [] (hotfixed (x.firmware 0) u) := by
  have hcond : ¬(!fwHotfix (x.firmware 0) || fwBasedig (x.firmware 0) != (s.pair 0).dig.toNat) = true := by simpa using hrun
  obtain ⟨⟨m, d, hstaged⟩, -⟩ := stagesOnly_stagedAll (x.firmware 0) (List.range (fwNpatch (x.firmware 0))) u
  have hkept : s.mgt.perm = (stagedAll (x.firmware 0) (List.range (fwNpatch (x.firmware 0))) u).mgt.perm := by
    rw [hstaged]
    exact hperm.symm
  have hrespond : fwHotfixSvc slot stream s = svcRespond slot 0 0 []
      (fpApplied s.mgt.perm (stagedAll (x.firmware 0) (List.range (fwNpatch (x.firmware 0))) u)) := by
    simp only [fwHotfixSvc, hb, h]
    exact if_neg hcond
  rw [hrespond, hkept, fpApplied_eq]
  rfl

end

section
variable {slot : Nat} {stream b : List Byte} {s : State} (hdue : s.svcDue slot 4 = true)
  (hgiven : streamGiven (s.reqAddr slot) (s.reqLen slot) stream b s)
include hdue hgiven

theorem fwHotfix_refused {e : Nat × Option (List Nat)} (h : s.bootCheck b = .inr e) :
    let t := fwHotfixSvc slot stream s
    (t.flash = s.flash ∧ t.mgt.pairs = s.mgt.pairs ∧ steady s t) ∧ answered slot 3 e.1 [] s t ∧ t.mgt.fpa = s.mgt.fpa := by
  obtain ⟨hslot, hgo⟩ := requested_of_svcDue hdue
  obtain ⟨o, hb⟩ := svcBytes_of_given hgiven
  have hu : storeOnly s { s with out := o } := ⟨o, s.flash, rfl⟩
  obtain ⟨hans, hpairs, hfpa⟩ := bootRefuse_sets (s := { s with out := o }) hslot hgo (bootCheck_code h)
  obtain ⟨hflash, hsteady⟩ := bootRefuse_steady slot e { s with out := o }
  rw [fwHotfixSvc_of_refused hb h]
  exact ⟨⟨hflash, hpairs, hu.steady.trans hsteady⟩, hu.answered hans, hfpa⟩

theorem fwHotfix_other {x : BootStream} (h : s.bootCheck b = .inl x)
    (hother : fwHotfix (x.firmware 0) = false ∨ fwBasedig (x.firmware 0) ≠ (s.pair 0).dig.toNat) :
    let t := fwHotfixSvc slot stream s
    (t.flash = s.flash ∧ t.mgt.pairs = s.mgt.pairs ∧ steady s t) ∧ answered slot 3 0 [] s t ∧ t.mgt.fpa = s.mgt.fpa := by
  obtain ⟨hslot, hgo⟩ := requested_of_svcDue hdue
  obtain ⟨o, hb⟩ := svcBytes_of_given hgiven
  have hu : storeOnly s { s with out := o } := ⟨o, s.flash, rfl⟩
  obtain ⟨⟨r, k, hmgt⟩, -⟩ := answersOnly_svcRespond slot 3 0 [] { s with out := o }
  obtain ⟨hflash, hsteady⟩ := svcRespond_steady slot 3 0 [] { s with out := o }
  rw [fwHotfixSvc_of_other hb h hother]
  refine ⟨⟨hflash, by rw [hmgt], hu.steady.trans hsteady⟩, hu.answered ?_, by rw [hmgt]⟩
  exact svcRespond_answered_words [] _ hslot hgo (by decide) (by decide)

theorem fwHotfix_applied {x : BootStream} (h : s.bootCheck b = .inl x)
    (hrun : ¬(fwHotfix (x.firmware 0) = false ∨ fwBasedig (x.firmware 0) ≠ (s.pair 0).dig.toNat)) :
    let t := fwHotfixSvc slot stream s
    (t.flash = s.flash ∧ t.mgt.pairs = s.mgt.pairs ∧ steady s t) ∧ answered slot 0 0 [] s t ∧ t.fget F.MGT_FPCTL_RESULT = 0 ∧
      t.fbit F.MGT_STAT_REMAP = t.mgt.remap ∧
      ∀ k, k < fwNpatch (x.firmware 0) → fwNpatch (x.firmware 0) ≤ 16 →
        ∃ u, kvGet none t.mgt.fpa k = some u ∧ u.en = true ∧ u.brk = false := by
  obtain ⟨hslot, hgo⟩ := requested_of_svcDue hdue
  obtain ⟨o, hb⟩ := svcBytes_of_given hgiven
  have hu : storeOnly s { s with out := o } := ⟨o, s.flash, rfl⟩
  rw [fwHotfixSvc_of_running hb h rfl hrun]
  obtain ⟨⟨d, a, hmgt⟩, hflash, hsteady, honly⟩ := hotfixed_leaves (x.firmware 0) { s with out := o }
  obtain ⟨hresult, hremap, hunits⟩ := hotfixed_active (x.firmware 0) { s with out := o }
  generalize hotfixed (x.firmware 0) { s with out := o } = z at *
  have hgoSame : z.fget F.MGT_SVC_GO = s.fget F.MGT_SVC_GO := honly _ (by decide)
  have henSame : z.fget (evten F.MGT_EVT_SVC) = s.fget (evten F.MGT_EVT_SVC) := honly _ (by decide)
  have hans : answered slot 0 0 [] z (svcRespond slot 0 0 [] z) :=
    svcRespond_answered_words [] z hslot (by rw [hgoSame]; exact hgo) (by decide) (by decide)
  obtain ⟨⟨r, k, hrespond⟩, hfields⟩ := answersOnly_svcRespond slot 0 0 [] z
  obtain ⟨hflash', hsteady'⟩ := svcRespond_steady slot 0 0 [] z
  have hreq : z.mgt.req = s.mgt.req := by rw [hmgt]
  have hfpa : (svcRespond slot 0 0 [] z).mgt.fpa = z.mgt.fpa := by rw [hrespond]
  refine ⟨⟨hflash'.trans hflash, by rw [hrespond, hmgt], hu.steady.trans (hsteady.trans hsteady')⟩,
    answered_of_request hans hreq hgoSame henSame, (hfields _ (by decide)).trans hresult, ?_, fun k hk hn => ?_⟩
  · rw [State.fbit, hfields _ (by decide), Mgt.remap, hfpa]
    exact hremap
  · rw [hfpa]
    exact hunits k hk hn

end

end Sys2Proof.Machine
end

section
/-! BOOT_TIMEOUT and BOOT_OK (R321, R323, R578, R597), and O51. -/
namespace Sys2Proof.Machine

/-! ### The boot timer expires (R321) -/

/-- Both pairs as their reset leaves them. -/
def pairsReset (s : State) : State := (s.modPair 0 fun _ => {}).modPair 1 fun _ => {}

theorem pair_pairsReset (s : State) : (pairsReset s).pair 0 = {} ∧ (pairsReset s).pair 1 = {} :=
  ⟨(State.pair_modPair_ne _ _ (by decide)).trans (State.pair_modPair_same _ _ _), State.pair_modPair_same _ _ _⟩

/-- What both pairs' reset leaves of what an attempt to boot goes by. -/
theorem keyxAbort_pairsReset (s : State) :
    let u := keyxAbort (pairsReset s)
    u.mgt = (pairsReset s).mgt ∧ u.load = s.load ∧ u.flash = s.flash ∧ u.ptime = s.ptime ∧ steady s u ∧
      u.fbit (evten F.SCH_LDEVT_RECOVERY) = s.fbit (evten F.SCH_LDEVT_RECOVERY) :=
  have hframe := keyxAbort_frame (Fr.refl 0x4000080080 (pairsReset s)) rfl
  ⟨keyxAbort_mgt _, hframe.h_load rfl, hframe.h_flash rfl, hframe.h_ptime rfl,
    ⟨hframe.h_seq rfl, hframe.h_clauses rfl, hframe.h_mem rfl⟩,
    congrArg (decide <| · = 1) (hframe.h_regs (evten F.SCH_LDEVT_RECOVERY) rfl)⟩

/-- The loader once an attempt has failed. -/
def loadEnded (s : State) : State := { s with load := { s.load with job := none } }.fset F.SCH_LOAD_BUSY 0

theorem fget_loadEnded (s : State) (f : Fld) : (loadEnded s).fget f = (s.fset F.SCH_LOAD_BUSY 0).fget f := rfl

theorem fget_bootRead (b : Boot) (s : State) (f : Fld) : (bootRead b s).fget f = (s.fset F.SCH_LOAD_BUSY 1).fget f := rfl

section
variable {b : Boot} {s : State}

theorem bootFail_of_slot (code : Nat) (h : s.mgt.boot = some b) (hsrc : b.src < 2) :
    bootFail code s = bootRead { b with src := 2 } ((loadEnded s).fset F.SCH_BOOT_FAIL code) := by
  simp only [bootFail, h, if_pos hsrc]
  rfl

/-- Recovery: no attempt is under way. -/
def recovering (s : State) : State :=
  let r := (loadEnded s).freshNat
  { r.2 with mgt := { r.2.mgt with boot := none } }.fset F.SCH_BOOT_SRC 3

theorem fget_recovering (s : State) (f : Fld) :
    (recovering s).fget f = ((s.fset F.SCH_LOAD_BUSY 0).fset F.SCH_BOOT_SRC 3).fget f := rfl

theorem bootFail_of_golden (code : Nat) (h : s.mgt.boot = some b) (hsrc : ¬b.src < 2) :
    bootFail code s = (recovering s).raise F.SCH_LDEVT_RECOVERY 6 0x21 [b.tried.getD (loadEnded s).freshNat.1, code] := by
  simp only [bootFail, h, if_neg hsrc]
  rfl

theorem bootFail_slot_sets (h : s.mgt.boot = some b) (hsrc : b.src < 2) :
    let t := bootFail 5 s
    t.mgt = { s.mgt with boot := some { b with src := 2 } } ∧ t.fget F.SCH_BOOT_FAIL = 5 ∧ t.fget F.SCH_LOAD_BUSY = 1 ∧
      t.load.job = some { boot := some 2, slot := 4, addr := slotBase 2, placement := none } ∧ t.flash = s.flash ∧ steady s t := by
  rw [bootFail_of_slot 5 h hsrc]
  refine ⟨rfl, ?_, ?_, rfl, rfl, rfl, rfl, rfl⟩
  · rw [fget_bootRead, State.fget_fset_ne _ _ (by decide), State.fget_fset_same]
    rfl
  · rw [fget_bootRead, State.fget_fset_same]
    rfl

theorem bootFail_golden_sets (h : s.mgt.boot = some b) (hsrc : ¬b.src < 2) :
    let t := bootFail 5 s
    t.mgt = { s.mgt with boot := none } ∧ t.load.job = none ∧ t.fget F.SCH_LOAD_BUSY = 0 ∧ t.fget F.SCH_BOOT_SRC = 3 ∧
      t.fget F.SCH_LDEVT_RECOVERY = 1 ∧ t.flash = s.flash ∧ steady s t ∧
      (∀ n, b.tried = some n → s.fbit (evten F.SCH_LDEVT_RECOVERY) = true → t.evq.getLast? = some
        { src := 6, code := 0x21, payload := [n, 5], step := s.seq.step, time := s.ptime }) := by
  rw [bootFail_of_golden 5 h hsrc]
  refine ⟨State.mgt_raise _ _ _ _ _, ?_, ?_, ?_, State.fget_raise_same _ _ _ _ _, State.flash_raise _ _ _ _ _,
    ⟨State.seq_raise _ _ _ _ _, State.clauses_raise _ _ _ _ _, State.mem_raise _ _ _ _ _⟩, fun n hn hon => ?_⟩
  · rw [State.load_raise]
    rfl
  · rw [State.fget_raise_ne _ _ _ _ (by decide), fget_recovering, State.fget_fset_ne _ _ (by decide), State.fget_fset_same]
    rfl
  · rw [State.fget_raise_ne _ _ _ _ (by decide), fget_recovering, State.fget_fset_same]
    rfl
  · have hon' : (recovering s).fbit (evten F.SCH_LDEVT_RECOVERY) = true := by
      rw [State.fbit, fget_recovering, State.fget_fset_ne _ _ (by decide), State.fget_fset_ne _ _ (by decide)]
      exact hon
    rw [State.evq_raise_on _ _ _ _ _ hon', List.getLast?_append, hn]
    rfl

theorem bootTimeout_of_boot (h : s.mgt.boot = some b) (hsrc : b.src < 3) :
    bootTimeout s = bootFail 5 (keyxAbort (pairsReset s)) := by
  rw [bootTimeout, if_neg (by simp [h, hsrc])]
  rfl

theorem bootTimeout_of_other (h : ∀ b : Boot, s.mgt.boot = some b → 3 ≤ b.src) : bootTimeout s = s := by
  refine if_pos ?_
  cases hb : s.mgt.boot with
  | none => rfl
  | some b => exact decide_eq_true (h b hb)

end

/-! ### Firmware confirms its start-up (R321, R578, R597) -/

theorem logRecs_of_flash {s t : State} (h : t.flash = s.flash) : t.logRecs = s.logRecs := by
  have hread : t.flashRead = s.flashRead := by
    funext o n
    exact List.map_congr_left fun i _ => flashGet_of_flash h _
  have hrec : t.logRec = s.logRec := by
    funext p
    rw [State.logRec, State.logRec, hread]
  rw [State.logRecs, State.logRecs, State.logRecsIn, State.logRecsIn, hrec, h]

/-- The registers that name the image that runs. -/
def bootNamed (b : Boot) (s : State) : State :=
  (({ s with mgt := { s.mgt with boot := none } }.fset F.SCH_BOOT_OK 1).fset F.SCH_BOOT_SRC b.src).fset F.SCH_BOOT_GEN b.gen

/-- From s to t a boot attempt has ended: the registers of the boot and the event of the golden image change at most. -/
def bootEnded (s t : State) : Prop :=
  t.mgt = { s.mgt with boot := none } ∧ t.flash = s.flash ∧ t.fab = s.fab ∧ t.ptime = s.ptime ∧ steady s t ∧
    onlyFields [F.SCH_BOOT_OK, F.SCH_BOOT_SRC, F.SCH_BOOT_GEN, F.SCH_LDEVT_GOLDEN] s t

section
variable {b : Boot} {s : State} (h : s.mgt.boot = some b) (hjob : s.load.job = none)
include h hjob

theorem bootOk_eq : (b.src ≠ 2 ∧ bootOk s = bootNamed b s) ∨
    ∃ n p, b.src = 2 ∧ bootOk s = ({ bootNamed b s with free := n } : State).raise F.SCH_LDEVT_GOLDEN 6 0x20 p := by
  simp only [bootOk, h, hjob]
  by_cases hsrc : b.src = 2
  · refine Or.inr ⟨s.free + 2, _, hsrc, (if_neg (by simp)).trans ((if_pos hsrc).trans rfl)⟩
  · exact Or.inl ⟨hsrc, (if_neg (by simp)).trans (if_neg hsrc)⟩

theorem bootOk_sets :
    let t := bootOk s
    bootEnded s t ∧ t.fget F.SCH_BOOT_OK = 1 ∧ t.fget F.SCH_BOOT_SRC = b.src % 4 ∧ t.fget F.SCH_BOOT_GEN = b.gen % 2 ^ 16 ∧
      (b.src = 2 → t.fget F.SCH_LDEVT_GOLDEN = 1) := by
  have hfields : onlyFields [F.SCH_BOOT_OK, F.SCH_BOOT_SRC, F.SCH_BOOT_GEN, F.SCH_LDEVT_GOLDEN] s (bootNamed b s) :=
    ((onlyFields.fset (t := { s with mgt := { s.mgt with boot := none } }) (onlyFields.refl _ s) (by simp) 1).fset (by simp) _).fset
      (by simp) _
  have hok : (bootNamed b s).fget F.SCH_BOOT_OK = 1 :=
    (State.fget_fset_ne _ _ (by decide)).trans ((State.fget_fset_ne _ _ (by decide)).trans (State.fget_fset_same _ _ _))
  have hsrcField : (bootNamed b s).fget F.SCH_BOOT_SRC = b.src % 4 :=
    (State.fget_fset_ne _ _ (by decide)).trans (State.fget_fset_same _ _ _)
  have hgen : (bootNamed b s).fget F.SCH_BOOT_GEN = b.gen % 2 ^ 16 := State.fget_fset_same _ _ _
  obtain ⟨hsrc, heq⟩ | ⟨n, p, -, heq⟩ := bootOk_eq h hjob
  · rw [heq]
    exact ⟨⟨rfl, rfl, rfl, rfl, ⟨rfl, rfl, rfl⟩, hfields⟩, hok, hsrcField, hgen, fun h2 => absurd h2 hsrc⟩
  · rw [heq]
    refine ⟨⟨State.mgt_raise _ _ _ _ _, State.flash_raise _ _ _ _ _, State.fab_raise _ _ _ _ _, State.ptime_raise _ _ _ _ _,
      ⟨State.seq_raise _ _ _ _ _, State.clauses_raise _ _ _ _ _, State.mem_raise _ _ _ _ _⟩, ?_⟩, ?_, ?_, ?_,
      fun _ => State.fget_raise_same _ _ _ _ _⟩
    · exact onlyFields.raise (t := { bootNamed b s with free := n }) hfields (by simp) _ _ _
    · exact (State.fget_raise_ne _ _ _ _ (by decide)).trans hok
    · exact (State.fget_raise_ne _ _ _ _ (by decide)).trans hsrcField
    · exact (State.fget_raise_ne _ _ _ _ (by decide)).trans hgen

/-- The state in which firmware reapplies its fault log. -/
theorem bootConfirm_eq : bootConfirm s = s.logRecs.foldl reapply
    ((bootOk s).raise F.PLT_EVT_RESET 0 10 [s.fget F.PLT_RSTCAUSE_CAUSE, s.fget F.PLT_RSTCAUSE_COUNT]) := by
  obtain ⟨⟨-, hflash, -⟩, -⟩ := bootOk_sets h hjob
  rw [bootConfirm, if_neg (by simp [h, hjob])]
  exact congrArg (List.foldl reapply _) (logRecs_of_flash ((State.flash_raise _ _ _ _ _).trans hflash))

end

/-- A spare-map record is reapplied to its connection. -/
theorem reapply_spare {r : List Byte} (hty : leAt r 8 1 = 3) (hres : leAt r 9 1 = 0) (s : State) :
    reapply s r = s.modConn (leAt r 10 2) fun x => { x with spare := some (leAt r 12 4) } := by
  unfold reapply
  rw [if_neg (by simp [hres]), hty] <;> rfl

/-! ### The outcomes -/

theorem bootTimeout_sets {b : Boot} {s : State} (h : s.mgt.boot = some b) (hsrc : b.src < 3) :
    let t := bootTimeout s
    t.pair 0 = {} ∧ t.pair 1 = {} ∧ t.flash = s.flash ∧ steady s t ∧
    (if b.src < 2 then t.mgt.boot = some { b with src := 2 } ∧ t.fget F.SCH_BOOT_FAIL = 5 ∧ t.fget F.SCH_LOAD_BUSY = 1 ∧
        t.load.job = some { boot := some 2, slot := 4, addr := slotBase 2, placement := none }
      else t.mgt.boot = none ∧ t.load.job = none ∧ t.fget F.SCH_LOAD_BUSY = 0 ∧ t.fget F.SCH_BOOT_SRC = 3 ∧
        t.fget F.SCH_LDEVT_RECOVERY = 1 ∧
        (∀ n, b.tried = some n → s.fbit (evten F.SCH_LDEVT_RECOVERY) = true → t.evq.getLast? = some
          { src := 6, code := 0x21, payload := [n, 5], step := s.seq.step, time := s.ptime })) := by
  obtain ⟨hmgt, -, hflash, htime, hsteady, hen⟩ := keyxAbort_pairsReset s
  obtain ⟨hcontrol, hsecurity⟩ := pair_pairsReset s
  rw [bootTimeout_of_boot h hsrc]
  generalize keyxAbort (pairsReset s) = u at *
  have hboot : u.mgt.boot = some b := (congrArg Mgt.boot hmgt).trans h
  have hpair : ∀ {x : State} {m : Option Boot}, x.mgt = { u.mgt with boot := m } → ∀ q, x.pair q = (pairsReset s).pair q := by
    intro x m hx q
    rw [State.pair, State.pair, hx, hmgt]
  by_cases hslot : b.src < 2
  · obtain ⟨hm, hfail, hbusy, hjob, hfl, hst⟩ := bootFail_slot_sets hboot hslot
    refine ⟨(hpair hm 0).trans hcontrol, (hpair hm 1).trans hsecurity, hfl.trans hflash, hsteady.trans hst, ?_⟩
    rw [if_pos hslot]
    exact ⟨congrArg Mgt.boot hm, hfail, hbusy, hjob⟩
  · obtain ⟨hm, hjob, hbusy, hrecovery, hevent, hfl, hst, hposted⟩ := bootFail_golden_sets hboot hslot
    refine ⟨(hpair hm 0).trans hcontrol, (hpair hm 1).trans hsecurity, hfl.trans hflash, hsteady.trans hst, ?_⟩
    rw [if_neg hslot]
    refine ⟨congrArg Mgt.boot hm, hjob, hbusy, hrecovery, hevent, fun n hn hon => ?_⟩
    rw [hposted n hn (hen.trans hon), htime, hsteady.1]

section
variable {b : Boot} {s : State} (h : s.mgt.boot = some b) (hjob : s.load.job = none)
include h hjob

theorem bootConfirm_sets (hrecs : s.logRecs = []) (hsrc : b.src < 4) (hgen : b.gen < 2 ^ 16) :
    let t := bootConfirm s
    t.mgt = { s.mgt with boot := none } ∧ t.fget F.SCH_BOOT_OK = 1 ∧ t.fget F.SCH_BOOT_SRC = b.src ∧
      t.fget F.SCH_BOOT_GEN = b.gen ∧ (b.src = 2 → t.fget F.SCH_LDEVT_GOLDEN = 1) ∧ t.fget F.PLT_EVT_RESET = 1 ∧
      (s.fbit (evten F.PLT_EVT_RESET) = true → t.evq.getLast? = some
        { src := 0, code := 10, payload := [s.fget F.PLT_RSTCAUSE_CAUSE, s.fget F.PLT_RSTCAUSE_COUNT], step := s.seq.step
          time := s.ptime }) ∧ steady s t ∧
      onlyFields [F.SCH_BOOT_OK, F.SCH_BOOT_SRC, F.SCH_BOOT_GEN, F.SCH_LDEVT_GOLDEN, F.PLT_EVT_RESET] s t := by
  obtain ⟨⟨hmgt, -, -, htime, ⟨hseq, hclauses, hmem⟩, honly⟩, hok, hsrcField, hgenField, hgolden⟩ := bootOk_sets h hjob
  rw [bootConfirm_eq h hjob, hrecs, List.foldl_nil]
  generalize bootOk s = u at *
  refine ⟨(State.mgt_raise _ _ _ _ _).trans hmgt, ?_, ?_, ?_, fun h2 => ?_, State.fget_raise_same _ _ _ _ _, fun hon => ?_,
    ⟨(State.seq_raise _ _ _ _ _).trans hseq, (State.clauses_raise _ _ _ _ _).trans hclauses,
      (State.mem_raise _ _ _ _ _).trans hmem⟩, onlyFields.raise (honly.mono (by simp)) (by simp) _ _ _⟩
  · exact (State.fget_raise_ne _ _ _ _ (by decide)).trans hok
  · exact (State.fget_raise_ne _ _ _ _ (by decide)).trans (hsrcField.trans (Nat.mod_eq_of_lt hsrc))
  · exact (State.fget_raise_ne _ _ _ _ (by decide)).trans (hgenField.trans (Nat.mod_eq_of_lt hgen))
  · exact (State.fget_raise_ne _ _ _ _ (by decide)).trans (hgolden h2)
  · have hon' : u.fbit (evten F.PLT_EVT_RESET) = true := by
      rw [State.fbit, honly _ (by decide)]
      exact hon
    rw [State.evq_raise_on _ _ _ _ _ hon', List.getLast?_append, hseq, htime]
    rfl

theorem bootConfirm_reapplies {r : List Byte} (hrecs : s.logRecs = [r]) (hty : leAt r 8 1 = 3) (hres : leAt r 9 1 = 0) :
    let t := bootConfirm s
    t.mgt = { s.mgt with boot := none } ∧ t.conn (leAt r 10 2) = { s.conn (leAt r 10 2) with spare := some (leAt r 12 4) } ∧
      (∀ k, k ≠ leAt r 10 2 → t.conn k = s.conn k) ∧ steady s t := by
  obtain ⟨⟨hmgt, -, hfab, -, ⟨hseq, hclauses, hmem⟩, -⟩, -⟩ := bootOk_sets h hjob
  rw [bootConfirm_eq h hjob, hrecs, List.foldl_cons, List.foldl_nil, reapply_spare hty hres]
  generalize bootOk s = u at *
  have hconn : ∀ k, (u.raise F.PLT_EVT_RESET 0 10 [s.fget F.PLT_RSTCAUSE_CAUSE, s.fget F.PLT_RSTCAUSE_COUNT]).conn k = s.conn k := by
    intro k
    rw [State.conn, State.fab_raise, hfab, State.conn]
  refine ⟨(State.mgt_raise _ _ _ _ _).trans hmgt, ?_, fun k hk => (State.conn_modConn_ne _ _ hk).trans (hconn k),
    (State.seq_raise _ _ _ _ _).trans hseq, (State.clauses_raise _ _ _ _ _).trans hclauses, (State.mem_raise _ _ _ _ _).trans hmem⟩
  rw [State.conn_modConn_same, hconn]

end

/-! ### The obligation -/

/-- Settles O51: each command by the lemma of its outcome. -/
theorem firmwareMoves : Obligations.FirmwareMoves := by
  unfold Obligations.FirmwareMoves
  refine ⟨?update, ?swapWaits, ?swap, ?hotfix, ?timeoutIdle, ?timeout, ?okIdle, ?okLoading, ?ok, ?okReapplies⟩
  case update =>
    intro slot tgt stream b s hdue hfree hsrc harg htgt hgiven
    subst htgt
    refine leads_of (exec_fwUpdate_of_due hdue hfree hsrc harg) ?_
    cases href : s.updateRefusal b with
    | inr e =>
      obtain ⟨hsteady, hans⟩ := fwUpdate_refused hdue hgiven href
      exact ⟨hsteady, hans⟩
    | inl h =>
      obtain ⟨hsteady, hread, hleft, hrefused, hanswered⟩ := fwUpdate_newer hdue hgiven href
      refine ⟨hsteady, hread, hleft, ?_⟩
      cases hcheck : s.bootCheck b with
      | inr e => exact hrefused e hcheck
      | inl x => exact hanswered x hcheck
  case swapWaits =>
    intro slot s hdue hfree hsrc harg hwaits
    exact congrArg Host.Outcome.next ((service_of_due (fwSwap slot) hdue hfree hsrc harg).trans (fwSwap_of_waiting hwaits))
  case swap =>
    intro slot s hdue hfree hsrc harg halone
    obtain ⟨hslot, hgo⟩ := requested_of_svcDue hdue
    obtain ⟨hflash, hseq, hclauses⟩ := fwSwap_frames slot s
    have hstate : answered slot 5 0 [] s (svcRespond slot 5 0 [] s) ∧ (svcRespond slot 5 0 [] s).mgt.pairs = s.mgt.pairs := by
      obtain ⟨⟨r, k, hmgt⟩, -⟩ := answersOnly_svcRespond slot 5 0 [] s
      exact ⟨svcRespond_answered_words [] s hslot hgo (by decide) (by decide), by rw [hmgt]⟩
    refine leads_of (congrArg Host.Outcome.next (service_of_due (fwSwap slot) hdue hfree hsrc harg)) ⟨hflash, hseq, hclauses, ?_⟩
    cases hrec : s.newestRec with
    | none =>
      rw [fwSwap_of_no_record halone hrec]
      exact hstate
    | some e =>
      obtain ⟨p, r⟩ := e
      by_cases hrun : r.boot = (s.pair 0).from_
      · rw [fwSwap_of_running halone hrec hrun]
        exact (if_pos hrun).mpr hstate
      · refine (if_neg hrun).mpr ?_
        cases hcheck : s.bootCheck (s.slotBytes r.boot) with
        | inr e =>
          obtain ⟨hans, hpairs, -⟩ := bootRefuse_sets hslot hgo (bootCheck_code hcheck)
          rw [fwSwap_of_refused halone hrec hrun hcheck]
          exact ⟨hans, hpairs⟩
        | inl x => exact fwSwap_begins halone hrec hrun hcheck
  case hotfix =>
    intro slot stream b s hdue hfree hsrc harg hgiven
    refine leads_of (congrArg Host.Outcome.next (service_of_due (fwHotfixSvc slot stream) hdue hfree hsrc harg)) ?_
    cases hcheck : s.bootCheck b with
    | inr e =>
      obtain ⟨⟨hflash, hpairs, hsteady⟩, hans⟩ := fwHotfix_refused hdue hgiven hcheck
      exact ⟨hflash, hpairs, hsteady, hans⟩
    | inl x =>
      by_cases hother : fwHotfix (x.firmware 0) = false ∨ fwBasedig (x.firmware 0) ≠ (s.pair 0).dig.toNat
      · obtain ⟨⟨hflash, hpairs, hsteady⟩, hans⟩ := fwHotfix_other hdue hgiven hcheck hother
        exact ⟨hflash, hpairs, hsteady, (if_pos hother).mpr hans⟩
      · obtain ⟨⟨hflash, hpairs, hsteady⟩, hans⟩ := fwHotfix_applied hdue hgiven hcheck hother
        exact ⟨hflash, hpairs, hsteady, (if_neg hother).mpr hans⟩
  case timeoutIdle => exact fun s h => congrArg Host.Outcome.next (bootTimeout_of_other h)
  case timeout => exact fun b s h hsrc => leads_of rfl (bootTimeout_sets h hsrc)
  case okIdle =>
    intro s h
    have hend : bootConfirm s = s.fset F.SCH_BOOT_OK 1 := by
      rw [bootConfirm, if_pos (by simp [h]), bootOk, h]
    refine leads_of rfl ?_
    rw [hend]
    exact ⟨State.fget_fset_same _ _ _, rfl, ⟨rfl, rfl, rfl⟩, rfl, (onlyFields.refl _ s).fset (by simp) 1⟩
  case okLoading =>
    intro s hboot hjob
    obtain ⟨b, hb⟩ := Option.ne_none_iff_exists'.1 hboot
    have hloads : s.load.job.isSome = true := Option.isSome_iff_ne_none.2 hjob
    refine congrArg Host.Outcome.next ?_
    rw [bootConfirm, if_pos (by simp [hloads]), bootOk, hb]
    exact if_pos hloads
  case ok => exact fun b s h hjob hrecs hsrc hgen => leads_of rfl (bootConfirm_sets h hjob hrecs hsrc hgen)
  case okReapplies => exact fun b r s h hjob hrecs hty hres => leads_of rfl (bootConfirm_reapplies h hjob hrecs hty hres)

end Sys2Proof.Machine
end
